-- ==== Sys2Proof/Word.lean ====
section
/-!
DEFINITION. The word types of the PX9: a register word, a byte, and the index of a tick.
-/

namespace Sys2Proof

/-- A 32-bit register or general register (spec/00_scope.md, Registers). -/
abbrev Word := BitVec 32

/-- One byte of memory (R9). -/
abbrev Byte := BitVec 8

/-- A count of ticks of 156.25 ps (R18, R19). The device time base does not wrap within the life of the device, so a
time is a plain number. -/
abbrev Tick := Nat

end Sys2Proof
end

