-- ==== Sys2Proof/Syntax.lean ====
section
/-!
DEFINITION. The commands of the PX9: one constructor per row of spec/opcode_table.json, in its order. The first operand
`t` of each is the time, in ticks, at which the command reaches the block (log entry 1).
-/

namespace Sys2Proof

/-- The samples of an input at the edges of its clock since the last command that brought some, with the time `t` at which
the command reaches the block. -/
structure Samples (α : Type) where
  t : Tick
  ls : List α
deriving DecidableEq, Repr

/-- The commands. Each constructor's comment is its row's rule. -/
inductive Instr
  | por (t : Tick)  -- R42
  | crst (t : Tick)  -- R42
  | registerWrite (t : Tick) (ini : Fin 7) (a : BitVec 32) (size : Fin 4) (v : BitVec 64)  -- R15
  | clkTbLoRead (t : Tick) (ini : Fin 7)  -- R30
  | sysProfileWrite (t : Tick) (w : Word)  -- R5
  | rootPllLock (t : Tick) (slotA slotB : Option (List Byte))  -- R26
  | unlock (t : Tick)  -- R26
  | slotTableSwap (t : Tick)  -- R38
  | beAgeSaturate (t : Tick)  -- R40
  | modeReqArchive (t : Tick)  -- R42
  | modeReqStandby (t : Tick)  -- R42
  | modeReqBoot (t : Tick)  -- R42
  | modeReqReady (t : Tick)  -- R42
  | modeReqPrint (t : Tick)  -- R42
  | modeReqDrain (t : Tick)  -- R42
  | modeReqSafe (t : Tick)  -- R42
  | modeReqService (t : Tick)  -- R42
  | intlkAssert (x : Samples Bool)  -- R48
  | intlkNegate (x : Samples Bool)  -- R48
  | modeChangeDone (t : Tick)  -- R44
  | safeSequenceComplete (t : Tick)  -- R45
  | submit (t : Tick) (w : Word)  -- R58
  | checkStart (t : Tick)  -- R58
  | checkEnd (t : Tick)  -- R60
  | pnrReached (t : Tick) (k : Fin 128)  -- R72
  | actionToleranceExpiry (t : Tick) (k : Fin 128) (idx : Nat)  -- R74
  | claimWindowEnd (t : Tick) (k : Fin 128) (idx : Nat)  -- R71
  | ttReqWithdraw (t : Tick) (handle : BitVec 16) (causeByte : Byte)  -- R87
  | ttReqSpoil (t : Tick) (handle : BitVec 16) (causeByte : Byte)  -- R87
  | ttResqTailWrite (t : Tick) (w : Word)  -- R88
  | spWriteAction (t : Tick) (k : Fin 128) (idx : Nat)  -- R56
  | unknownBlockCommand (t : Tick) (k : Fin 128) (idx : Nat)  -- R57
  | illegalWord (t : Tick) (c : Fin 26) (w : Word)  -- R95
  | add (t : Tick) (c : Fin 26) (rd ra rb : Fin 32)  -- R97
  | sub (t : Tick) (c : Fin 26) (rd ra rb : Fin 32)  -- R97
  | and (t : Tick) (c : Fin 26) (rd ra rb : Fin 32)  -- R97
  | or (t : Tick) (c : Fin 26) (rd ra rb : Fin 32)  -- R97
  | xor (t : Tick) (c : Fin 26) (rd ra rb : Fin 32)  -- R97
  | sll (t : Tick) (c : Fin 26) (rd ra rb : Fin 32)  -- R97
  | srl (t : Tick) (c : Fin 26) (rd ra rb : Fin 32)  -- R97
  | sra (t : Tick) (c : Fin 26) (rd ra rb : Fin 32)  -- R97
  | slt (t : Tick) (c : Fin 26) (rd ra rb : Fin 32)  -- R97
  | sltu (t : Tick) (c : Fin 26) (rd ra rb : Fin 32)  -- R97
  | min (t : Tick) (c : Fin 26) (rd ra rb : Fin 32)  -- R97
  | max (t : Tick) (c : Fin 26) (rd ra rb : Fin 32)  -- R97
  | minu (t : Tick) (c : Fin 26) (rd ra rb : Fin 32)  -- R97
  | maxu (t : Tick) (c : Fin 26) (rd ra rb : Fin 32)  -- R97
  | addsat (t : Tick) (c : Fin 26) (rd ra rb : Fin 32)  -- R97
  | subsat (t : Tick) (c : Fin 26) (rd ra rb : Fin 32)  -- R97
  | addi (t : Tick) (c : Fin 26) (rd ra : Fin 32) (imm : BitVec 12)  -- R98
  | slti (t : Tick) (c : Fin 26) (rd ra : Fin 32) (imm : BitVec 12)  -- R98
  | sltiu (t : Tick) (c : Fin 26) (rd ra : Fin 32) (imm : BitVec 12)  -- R98
  | andi (t : Tick) (c : Fin 26) (rd ra : Fin 32) (imm : BitVec 12)  -- R98
  | ori (t : Tick) (c : Fin 26) (rd ra : Fin 32) (imm : BitVec 12)  -- R98
  | xori (t : Tick) (c : Fin 26) (rd ra : Fin 32) (imm : BitVec 12)  -- R98
  | slli (t : Tick) (c : Fin 26) (rd ra : Fin 32) (sh : Fin 32)  -- R98
  | srli (t : Tick) (c : Fin 26) (rd ra : Fin 32) (sh : Fin 32)  -- R98
  | srai (t : Tick) (c : Fin 26) (rd ra : Fin 32) (sh : Fin 32)  -- R98
  | lui (t : Tick) (c : Fin 26) (rd : Fin 32) (imm : BitVec 21)  -- R99
  | mul (t : Tick) (c : Fin 26) (rd ra rb : Fin 32)  -- R100
  | mulq (t : Tick) (c : Fin 26) (rd ra rb : Fin 32)  -- R100
  | mulw (t : Tick) (c : Fin 26) (rd ra rb : Fin 32)  -- R100
  | mulwu (t : Tick) (c : Fin 26) (rd ra rb : Fin 32)  -- R100
  | quo (t : Tick) (c : Fin 26) (rd ra rb : Fin 32)  -- R100
  | quou (t : Tick) (c : Fin 26) (rd ra rb : Fin 32)  -- R100
  | mod (t : Tick) (c : Fin 26) (rd ra rb : Fin 32)  -- R100
  | modu (t : Tick) (c : Fin 26) (rd ra rb : Fin 32)  -- R100
  | ld (t : Tick) (c : Fin 26) (sz : Fin 4) (rt ra : Fin 32) (off : BitVec 14)  -- R101
  | lds (t : Tick) (c : Fin 26) (sz : Fin 4) (rt ra : Fin 32) (off : BitVec 14)  -- R101
  | st (t : Tick) (c : Fin 26) (sz : Fin 4) (rt ra : Fin 32) (off : BitVec 14)  -- R101
  | swapw (t : Tick) (c : Fin 26) (sz : Fin 4) (rt ra : Fin 32) (off : BitVec 14)  -- R105
  | beq (t : Tick) (c : Fin 26) (ra rb : Fin 32) (off : BitVec 16)  -- R106
  | bne (t : Tick) (c : Fin 26) (ra rb : Fin 32) (off : BitVec 16)  -- R106
  | blt (t : Tick) (c : Fin 26) (ra rb : Fin 32) (off : BitVec 16)  -- R106
  | bge (t : Tick) (c : Fin 26) (ra rb : Fin 32) (off : BitVec 16)  -- R106
  | bltu (t : Tick) (c : Fin 26) (ra rb : Fin 32) (off : BitVec 16)  -- R106
  | bgeu (t : Tick) (c : Fin 26) (ra rb : Fin 32) (off : BitVec 16)  -- R106
  | jal (t : Tick) (c : Fin 26) (rd : Fin 32) (imm : BitVec 21)  -- R107
  | jalr (t : Tick) (c : Fin 26) (rd ra : Fin 32) (imm : BitVec 12)  -- R107
  | krd (t : Tick) (c : Fin 26) (rd : Fin 32) (k : Fin 64)  -- R108
  | kwr (t : Tick) (c : Fin 26) (k : Fin 64) (ra : Fin 32)  -- R108
  | krdp (t : Tick) (c : Fin 26) (rd : Fin 32) (k : Fin 64)  -- R108
  | kset (t : Tick) (c : Fin 26) (k : Fin 64) (ra : Fin 32)  -- R108
  | kclr (t : Tick) (c : Fin 26) (k : Fin 64) (ra : Fin 32)  -- R108
  | waitt (t : Tick) (c : Fin 26) (p : Fin 32)  -- R110
  | waittResume (t : Tick) (c : Fin 26) (slot : Fin 8)  -- R137
  | arm (t : Tick) (c : Fin 26) (p a b : Fin 32)  -- R111
  | spr (t : Tick) (c : Fin 26) (rd a : Fin 32)  -- R112
  | spw (t : Tick) (c : Fin 26) (a b : Fin 32)  -- R112
  | yield (t : Tick) (c : Fin 26)  -- R113
  | yieldWake (t : Tick) (g : Fin 2)  -- R113
  | pnadd (t : Tick) (c : Fin 26) (rd ra rb : Fin 32)  -- R115
  | pnsub (t : Tick) (c : Fin 26) (rd ra rb : Fin 32)  -- R115
  | pnmax (t : Tick) (c : Fin 26) (rd ra rb : Fin 32)  -- R115
  | pnmin (t : Tick) (c : Fin 26) (rd ra rb : Fin 32)  -- R115
  | pnsel (t : Tick) (c : Fin 26) (rd ra rb : Fin 32)  -- R115
  | pnlut (t : Tick) (c : Fin 26) (rd ra rb : Fin 32)  -- R115
  | pncnt (t : Tick) (c : Fin 26) (rd ra : Fin 32)  -- R115
  | pnnzc (t : Tick) (c : Fin 26) (rd ra : Fin 32)  -- R115
  | pnge (t : Tick) (c : Fin 26) (rd ra rb : Fin 32)  -- R115
  | pneq (t : Tick) (c : Fin 26) (rd ra rb : Fin 32)  -- R115
  | pnspl (t : Tick) (c : Fin 26) (rd ra : Fin 32)  -- R115
  | syscall (t : Tick) (c : Fin 26)  -- R116
  | brk (t : Tick) (c : Fin 26)  -- R116
  | rtt (t : Tick) (c : Fin 26)  -- R120
  | fence (t : Tick) (c : Fin 26)  -- R104
  | cclean (t : Tick) (c : Fin 26) (ra : Fin 32)  -- R116
  | cinv (t : Tick) (c : Fin 26) (ra : Fin 32)  -- R116
  | cflush (t : Tick) (c : Fin 26) (ra : Fin 32)  -- R116
  | icinv (t : Tick) (c : Fin 26) (ra : Fin 32)  -- R116
  | dcall (t : Tick) (c : Fin 26)  -- R116
  | icall (t : Tick) (c : Fin 26)  -- R116
  | interruptEntry (t : Tick) (g : Fin 2)  -- R126
  | nmiEntry (t : Tick) (g : Fin 2)  -- R120
  | frameLoad (t : Tick) (l : Fin 20) (slot : Fin 8)  -- R132
  | spanStart (t : Tick) (l : Fin 20) (slot : Fin 8)  -- R130
  | spanEnd (t : Tick) (l : Fin 20) (slot : Fin 8)  -- R131
  | release (t : Tick) (l : Fin 20) (slot : Fin 8)  -- R131
  | deadlineDrop (t : Tick) (l : Fin 20) (slot : Fin 8)  -- R144
  | commitEntryDrain (t : Tick) (l : Fin 20) (slot : Fin 8)  -- R140
  | armFire (t : Tick) (p : Fin 24) (n : Fin 16)  -- R142
  | slotStart (t : Tick) (l : Fin 20) (slot : Fin 8)  -- R134
  | slotStop (t : Tick) (l : Fin 20) (slot : Fin 8)  -- R134
  | coreMapWrite (t : Tick) (l : Fin 20) (w : Word)  -- R146
  | substRequest (t : Tick) (w : Word)  -- R148
  | substCancel (t : Tick)  -- R148
  | substSafePoint (t : Tick)  -- R148
  | substCopyDone (t : Tick)  -- R148
  | stream (t : Tick) (k : Fin 128) (idx : Nat)  -- R183
  | bandTileStart (t : Tick) (lane : Fin 12)  -- R181
  | tileComplete (t : Tick) (lane : Fin 12)  -- R179
  | tileDecodeError (t : Tick) (lane : Fin 12)  -- R177
  | jobDecode (t : Tick) (lane : Fin 12)  -- R191
  | jobResume (t : Tick) (lane : Fin 12)  -- R195
  | laneSuspend (t : Tick) (lane : Fin 12)  -- R194
  | laneResume (t : Tick) (lane : Fin 12) (w : Word)  -- R194
  | laneSave (t : Tick) (lane : Fin 12)  -- R195
  | saveComplete (t : Tick) (lane : Fin 12)  -- R195
  | laneAbort (t : Tick) (lane : Fin 12)  -- R196
  | jobComplete (t : Tick)  -- R197
  | fxCqTailWrite (t : Tick) (w : Word)  -- R197
  | scnEnWrite (t : Tick) (st : Fin 6) (en : Bool)  -- R210
  | sosEdge (t : Tick) (st : Fin 6) (x : Nat)  -- R207
  | mosEdge (t : Tick) (st : Fin 6) (x : Nat)  -- R207
  | eosEdge (t : Tick) (st : Fin 6) (x : Nat)  -- R207
  | sensorWindowMiss (t : Tick) (st : Fin 6) (sensor : Fin 3)  -- R208
  | indexEdge (t : Tick) (st : Fin 6)  -- R209
  | scanSetHandover (t : Tick) (st : Fin 6)  -- R215
  | facetGap (t : Tick) (st : Fin 6)  -- R205
  | lockCheck (t : Tick) (k : Fin 128) (idx : Nat)  -- R224
  | expose (t : Tick) (k : Fin 128) (idx : Nat)  -- R230
  | scanFrameStart (t : Tick) (st : Fin 6)  -- R253
  | columnDeadlineMiss (t : Tick) (st : Fin 6) (col : Nat)  -- R236
  | frameEnd (t : Tick) (st : Fin 6)  -- R253
  | gapPoint (t : Tick) (st : Fin 6)  -- R243
  | retireRequest (t : Tick) (st : Fin 6) (w : Word)  -- R247
  | statusRecord (t : Tick) (st : Fin 6) (bytes : List Byte)  -- R263
  | frameStatusTimeout (t : Tick) (st : Fin 6)  -- R264
  | linkStatusTimeout (t : Tick) (st : Fin 6)  -- R261
  | xlkEnWrite (t : Tick) (st : Fin 6) (en : Bool)  -- R261
  | trainTimeout (t : Tick) (st : Fin 6)  -- R261
  | loadTimeout (t : Tick) (st : Fin 6)  -- R261
  | xlkForceSubst (t : Tick) (st : Fin 6) (lane : Fin 4)  -- R261
  | laneSubstitute (t : Tick) (st : Fin 6)  -- R262
  | tblLoad (t : Tick) (st : Fin 6)  -- R250
  | lightSend (t : Tick) (st : Fin 6) (sensor : Fin 3)  -- R258
  | linkCheck (t : Tick) (k : Fin 128) (idx : Nat)  -- R266
  | pwmPeriod (t : Tick) (c : Fin 16) (sdu sdv : BitVec 766) (theta : BitVec 16) (omega : Int) (err : Nat)  -- R274
  | focCmdStart (t : Tick) (c : Fin 16)  -- R281
  | focCmdStop (t : Tick) (c : Fin 16)  -- R284
  | focCmdCoast (t : Tick) (c : Fin 16)  -- R284
  | focCmdClear (t : Tick) (c : Fin 16)  -- R284
  | focTtStart (t : Tick) (k : Fin 128) (idx : Nat)  -- R293
  | focTtStop (t : Tick) (k : Fin 128) (idx : Nat)  -- R293
  | focTtSpeed (t : Tick) (k : Fin 128) (idx : Nat)  -- R293
  | focTtTorque (t : Tick) (k : Fin 128) (idx : Nat)  -- R293
  | focTtCoast (t : Tick) (k : Fin 128) (idx : Nat)  -- R293
  | startAttemptTimeout (t : Tick) (c : Fin 16)  -- R283
  | retryWaitExpiry (t : Tick) (c : Fin 16)  -- R283
  | busSample (t : Tick) (b : Fin 4) (sd : BitVec 94)  -- R287
  | chopTimerExpiry (t : Tick) (b : Fin 4)  -- R287
  | busClear (t : Tick) (b : Fin 4)  -- R287
  | overcurrent (t : Tick) (sd : Fin 16 × BitVec 31 × BitVec 31)  -- R288
  | sdLoss (t : Tick) (sd : Fin 16 × BitVec 64 × BitVec 64)  -- R288
  | engine (t : Tick) (c : Fin 16)  -- R288
  | cmdPinEdge (t : Tick) (c : Fin 16) (rising : Bool) (x : Nat)  -- R291
  | pinLost (t : Tick) (c : Fin 16)  -- R291
  | focEngSubstRequest (t : Tick) (w : Word)  -- R271
  | focEngSubstCancel (t : Tick)  -- R271
  | engineSubstApply (t : Tick)  -- R271
  | motionPeriod (t : Tick) (ms : List (Nat × Nat) × List (Nat × BitVec 766 × BitVec 766))  -- R303
  | go (t : Tick) (c : Fin 32)  -- R310
  | stpStop (t : Tick) (c : Fin 32)  -- R313
  | halt (t : Tick) (c : Fin 32)  -- R315
  | resume (t : Tick) (c : Fin 32)  -- R313
  | stpClear (t : Tick) (c : Fin 32)  -- R310
  | moveAbs (t : Tick) (k : Fin 128) (idx : Nat)  -- R325
  | moveRel (t : Tick) (k : Fin 128) (idx : Nat)  -- R325
  | stpTtRun (t : Tick) (k : Fin 128) (idx : Nat)  -- R325
  | stpTtStop (t : Tick) (k : Fin 128) (idx : Nat)  -- R325
  | stpTtHalt (t : Tick) (k : Fin 128) (idx : Nat)  -- R325
  | stpTtResume (t : Tick) (k : Fin 128) (idx : Nat)  -- R325
  | engage (t : Tick) (k : Fin 128) (idx : Nat)  -- R325
  | encoderCount (t : Tick) (e : Fin 8) (ab : List (Bool × Bool))  -- R317
  | gearArm (t : Tick) (c : Fin 32)  -- R320
  | gearCancel (t : Tick) (c : Fin 32)  -- R320
  | holdTimerExpiry (t : Tick) (c : Fin 16)  -- R322
  | stpPosHiWrite (t : Tick) (c : Fin 32) (w : Word)  -- R323
  | stpTgtHiWrite (t : Tick) (c : Fin 32) (w : Word)  -- R309
  | stpEncCntHiWrite (t : Tick) (e : Fin 8) (w : Word)  -- R317
  | adcResult (t : Tick) (n : Fin 64) (code : BitVec 12)  -- R333
  | hvPeriod (t : Tick)  -- R335
  | hvRampWrite (t : Tick) (u : Fin 28) (w : Word)  -- R335
  | ramp (t : Tick) (k : Fin 128) (idx : Nat)  -- R336
  | acUpdate (t : Tick)  -- R337
  | safeStageTimeout (t : Tick)  -- R340
  | fuserControlPeriod (t : Tick)  -- R343
  | fusZcmdOn (t : Tick) (z : Fin 8)  -- R342
  | fusZcmdOff (t : Tick) (z : Fin 8)  -- R342
  | fusZcmdClear (t : Tick) (z : Fin 8)  -- R342
  | setpoint (t : Tick) (k : Fin 128) (idx : Nat)  -- R348
  | fusTtOn (t : Tick) (k : Fin 128) (idx : Nat)  -- R348
  | fusTtOff (t : Tick) (k : Fin 128) (idx : Nat)  -- R348
  | zcEdge (t : Tick) (ls : List (Bool × Nat))  -- R345
  | zcLoss (t : Tick)  -- R345
  | otSample (t : Tick) (z : Fin 8) (code : BitVec 12)  -- R351
  | senseEdge (t : Tick) (n : Fin 96) (x : Bool × Nat) (ls : List (Bool × Nat))  -- R353
  | window (t : Tick) (k : Fin 128) (idx : Nat)  -- R354
  | windowLateExpiry (t : Tick) (n : Fin 96)  -- R354
  | set (t : Tick) (k : Fin 128) (idx : Nat)  -- R355
  | pulse (t : Tick) (k : Fin 128) (idx : Nat)  -- R355
  | pulseEnd (t : Tick) (n : Fin 64)  -- R355
  | snsOutWrite (t : Tick) (high : Bool) (w : Word)  -- R355
  | dmaRingHeadWrite (t : Tick) (c : Fin 32) (w : Word)  -- R360
  | descriptorFetch (t : Tick)  -- R361
  | copy (t : Tick) (c : Fin 32) (n : Nat) (hostErr : Bool)  -- R364
  | dmaFill (t : Tick) (c : Fin 32) (n : Nat) (hostErr : Bool)  -- R364
  | compare (t : Tick) (c : Fin 32) (n : Nat) (hostErr : Bool)  -- R364
  | descriptorComplete (t : Tick) (c : Fin 32)  -- R369
  | dmaCqTailWrite (t : Tick) (c : Fin 32) (w : Word)  -- R369
  | dmaEnWrite (t : Tick) (c : Fin 32) (en : Bool)  -- R371
  | dmaAbort (t : Tick) (c : Fin 32)  -- R371
  | pltChCfgWrite (t : Tick) (ini : Fin 7) (c : Fin 64) (w : Word)  -- R374
  | pltTx (t : Tick) (ini : Fin 7) (c : Fin 64) (w : Word)  -- R375
  | pltPop (t : Tick) (ini : Fin 7) (c : Fin 64) (n : Fin 16)  -- R375
  | pltRxRead (t : Tick) (ini : Fin 7) (c : Fin 64) (idx : Fin 8)  -- R375
  | pltWordArrive (t : Tick) (c : Fin 64) (toB : Bool)  -- R377
  | sbxEventTake (t : Tick)  -- R385
  | blockResetDone (t : Tick) (src : Fin 64)  -- R390
  | shadowEnd (t : Tick) (src : Fin 64)  -- R390
  | sbxBrstReq (t : Tick) (w : Word)  -- R390
  | quietExit (t : Tick) (src : Fin 64)  -- R389
  | sbxActiveWrite (t : Tick) (hi : Bool) (w : Word)  -- R389
  | errNHoldExpiry (t : Tick)  -- R392
  | sbxHistW0Read (t : Tick) (ini : Fin 7) (idx : Fin 32)  -- R393
  | faultEmitHoldExpiry (t : Tick) (src : Fin 64)  -- R394
  | remoteFaultTake (t : Tick)  -- R396
  | sbxOriginWrite (t : Tick) (d : Fin 1024) (w : Word)  -- R396
  | domReqOn (t : Tick) (d : Fin 16)  -- R403
  | domReqOff (t : Tick) (d : Fin 16)  -- R403
  | domainStepReady (t : Tick) (d : Fin 16)  -- R408
  | domFail (t : Tick) (d : Fin 16)  -- R408
  | archiveWaitEnd (t : Tick)  -- R411
  | archiveWaitTimeout (t : Tick)  -- R411
  | wakeN (x : Samples Bool)  -- R412
  | wakeTimer (t : Tick)  -- R412
  | vreqStart (t : Tick) (w : Word)  -- R416
  | vreqPoll (t : Tick) (answer : Fin 4) (read : BitVec 16)  -- R416
  | vreqTimeout (t : Tick)  -- R416
  | standbyReset (t : Tick)  -- R418
  | seqStart (x : Bool × Samples (Bool × Nat))  -- R418
  | pgoodHigh (x : Samples Bool) (idx : Fin 8)  -- R418
  | pgLost (x : Samples Bool) (idx : Fin 8)  -- R418
  | pgTimeout (t : Tick)  -- R418
  | railGapExpiry (t : Tick)  -- R418
  | porHoldExpiry (t : Tick)  -- R418
  | vmonSample (t : Tick) (idx : Fin 8) (code : BitVec 10)  -- R417
  | vinLost (x : Samples (Bool × Nat))  -- R418
  | pwrClrEdge (t : Tick)  -- R418
  | thmSample (t : Tick) (rs : List (Option (BitVec 16)))  -- R420
  | riseUpdate (t : Tick)  -- R422
  | throttleGraceExpiry (t : Tick)  -- R424
  | throttleRelease (t : Tick)  -- R424
  | hostWrite (t : Tick) (bar2 : Bool) (o : BitVec 26) (data : List Byte)  -- R431
  | hostRead (t : Tick) (bar2 : Bool) (o : BitVec 26) (n : Nat)  -- R431
  | perstN (t : Tick) (low : Bool)  -- R435
  | linkDown (t : Tick)  -- R435
  | flr (t : Tick)  -- R435
  | msixVectorSend (t : Tick) (v : Fin 64)  -- R434
  | hstMsixRearm (t : Tick) (v : Fin 64)  -- R434
  | hstDbSet (t : Tick) (hi : Bool) (w : Word)  -- R434
  | lineEnWrite (t : Tick) (en : Bool)  -- R439
  | portUp (t : Tick) (port : Fin 2)  -- R439
  | portTrainTimeout (t : Tick) (port : Fin 2)  -- R439
  | portBreak (t : Tick) (port : Fin 2) (lost : Bool)  -- R439
  | portRetrain (t : Tick) (port : Fin 2)  -- R439
  | sync (t : Tick) (port : Fin 2) (origin hops : BitVec 10) (p0 p1 : BitVec 64) (rx : Nat)  -- R445
  | syncSend (t : Tick)  -- R445
  | syncTimeout (t : Tick)  -- R447
  | delayReqSend (t : Tick) (port : Fin 2)  -- R444
  | delayReq (t : Tick) (port : Fin 2) (p0 : BitVec 64) (rx : Nat)  -- R444
  | delayResp (t : Tick) (port : Fin 2) (p0 p1 : BitVec 64) (rx : Nat)  -- R444
  | join (t : Tick) (port : Fin 2) (origin hops : BitVec 10) (p0 p1 : BitVec 64)  -- R442
  | faultFrame (t : Tick) (port : Fin 2) (origin hops : BitVec 10) (seq : BitVec 16) (p0 : BitVec 64)  -- R451
  | lineSpwFrame (t : Tick) (port : Fin 2) (origin dest hops : BitVec 10) (seq : BitVec 16) (p0 p1 : BitVec 64)  -- R449
  | publish (t : Tick) (port : Fin 2) (origin hops : BitVec 10) (seq : BitVec 16) (p0 p1 : BitVec 64)  -- R450
  | publishSend (t : Tick)  -- R450
  | pltFrame (t : Tick) (port : Fin 2) (origin dest hops : BitVec 10) (seq : BitVec 16) (p0 : BitVec 64)  -- R452
  | pltFrameSend (t : Tick) (ch : Fin 64)  -- R452
  | credit (t : Tick) (port : Fin 2) (origin dest hops : BitVec 10) (seq : BitVec 16) (p0 : BitVec 64)  -- R452
  | lineMasterSet (t : Tick) (on : Bool)  -- R447
  | lineSubWrite (t : Tick) (j : Fin 256) (w : Word)  -- R450
  | stageAdvance (t : Tick) (w : Word)  -- R455
  | secRbAdv (t : Tick) (n : Fin 4)  -- R458
  | release1 (t : Tick)  -- R460
  | keygen (t : Tick)  -- R462
  | fuseOem (t : Tick)  -- R462
  | cert (t : Tick)  -- R462
  | extend (t : Tick)  -- R459
  | verify (t : Tick)  -- R462
  | sign (t : Tick)  -- R463
  | meter (t : Tick)  -- R465
  | lcChange (t : Tick)  -- R470
  | secCommandComplete (t : Tick)  -- R462
  | dramWipeDone (t : Tick)  -- R473
  | ledgerUnitWrite (t : Tick) (first : Bool) (second : Bool)  -- R477
  | ldgApp (t : Tick) (w : Word)  -- R478
  | sramScrubWord (t : Tick) (a : BitVec 32) (found : Fin 3) (last : Bool)  -- R482
  | dramScrubBurst (t : Tick) (a : BitVec 40) (found : Fin 3)  -- R483
  | passLate (t : Tick)  -- R481
  | wearFold (t : Tick)  -- R485
  | telemetrySnapshot (t : Tick)  -- R486
  | encoderIndexEdge (x : Samples Bool) (e : Fin 8)  -- R317
  | pcieLinkUp (t : Tick) (speed : Fin 8) (width : Fin 16) (bme msix mask d3 : Bool)  -- R430
  | lineFrameCrcFail (t : Tick) (port : Fin 2)  -- R438
  | ddrTrainingEnd (t : Tick) (ok : Bool)  -- R501
  | vstbyLoss (t : Tick)  -- R418
deriving DecidableEq, Repr

end Sys2Proof
end

