-- ==== Sys2Proof/Machine/Bits.lean ====
section
/-!
DEFINITION. Bit fields, sign and byte order, saturation, and the two sparse containers of State: a table keyed by a
number with a default value for the keys it does not list, and the canonical form both keep.
-/

namespace Sys2Proof.Machine

/-- Bits [hi:lo] of a word, as a number (spec/00_scope.md, Numbers and addresses). -/
def bits (v : Word) (hi lo : Nat) : Nat := v.toNat / 2 ^ lo % 2 ^ (hi + 1 - lo)

/-- The word with bits [hi:lo] replaced by the low bits of `n`. -/
def putBits (v : Word) (hi lo n : Nat) : Word :=
  BitVec.ofNat 32 (v.toNat - bits v hi lo * 2 ^ lo + n % 2 ^ (hi + 1 - lo) * 2 ^ lo)

/-- Bits [hi:lo] of a number of any width. -/
def nbits (n hi lo : Nat) : Nat := n / 2 ^ lo % 2 ^ (hi + 1 - lo)

/-- Two's complement reading of the low `w` bits of `n`. -/
def toSigned (w n : Nat) : Int :=
  let m := n % 2 ^ w
  if 2 * m < 2 ^ w then (m : Int) else (m : Int) - (2 ^ w : Nat)

/-- The low `w` bits of an integer, as a number. -/
def fromSigned (w : Nat) (i : Int) : Nat := (i % ((2 ^ w : Nat) : Int)).toNat

/-- An integer as a 32-bit word, modulo 2^32. -/
def wordOfInt (i : Int) : Word := BitVec.ofNat 32 (fromSigned 32 i)

/-- `x` limited to [lo, hi]. -/
def clampInt (lo hi x : Int) : Int := if x < lo then lo else if hi < x then hi else x

/-- `x` limited to [lo, hi]. -/
def clampNat (lo hi x : Nat) : Nat := if x < lo then lo else if hi < x then hi else x

/-- A counter of width `w` that stops at its largest value. -/
def satAdd (w n k : Nat) : Nat := if n + k < 2 ^ w then n + k else 2 ^ w - 1

/-- ⌈a ÷ b⌉, 0 for b = 0. -/
def ceilDiv (a b : Nat) : Nat := (a + b - 1) / b

/-- Floor of a quotient of integers (the spec's ⌊a ÷ b⌋ for b > 0). -/
def floorDiv (a : Int) (b : Int) : Int := Int.fdiv a b

/-- Round half away from zero of a ÷ b, b > 0. -/
def roundDiv (a : Int) (b : Int) : Int :=
  if a < 0 then -(Int.fdiv (-a * 2 + b) (2 * b)) else Int.fdiv (a * 2 + b) (2 * b)

/-- Round to nearest of a ÷ b with ties upward, b > 0. -/
def roundUpDiv (a : Int) (b : Int) : Int := Int.fdiv (2 * a + b) (2 * b)

/-- The integer square root, bit by bit from bit n − 1 down. -/
def isqrtGo (x : Nat) : Nat → Nat → Nat
  | 0, r => r
  | n + 1, r => isqrtGo x n (if (r + 2 ^ n) * (r + 2 ^ n) ≤ x then r + 2 ^ n else r)

/-- ⌊√x⌋ for x below 2^192. -/
def isqrt (x : Nat) : Nat := isqrtGo x 96 0

/-! ### Angles and bitstreams -/

/-- sin of x ÷ 32,768 × π for x from 0 to 16,384, in units of 2^−40: its Taylor sum to the 13th power. -/
def quarterSine (x : Nat) : Int :=
  let one : Int := 2 ^ 40
  let z : Int := x * 3454217652358 / 32768
  let q := z * z / one
  let term := fun (acc : Int) (d : Int) => one - q * acc / (one * d)
  z * [110, 72, 42, 20, 6].foldl term (one - q / 156) / one

/-- sin of an angle of 65,536 counts to 360°, in units of 2^−40. -/
def sine (theta : Nat) : Int :=
  let x := theta % 65536
  let y := x % 32768
  let v := quarterSine (if y ≤ 16384 then y else 32768 - y)
  if x < 32768 then v else -v

/-- cos of an angle of 65,536 counts to 360°, in units of 2^−40. -/
def cosine (theta : Nat) : Int := sine (theta + 16384)

/-- The sums of each `m` consecutive numbers of a list. -/
def boxSums (m : Nat) : List Int → List Int
  | [] => []
  | x :: xs => if m ≤ xs.length + 1 then ((x :: xs).take m).sum :: boxSums m xs else []

/-- The middle `n` bits of a bitstream's window, as +1 and −1, the bit 0 first. -/
def midBits {w : Nat} (n : Nat) (b : BitVec w) : List Int :=
  (List.range n).map fun i => if b.getLsbD ((w - n) / 2 + i) then 1 else -1

/-- The output of a third-order sinc filter of ratio `m` over the middle of a window, full scale m³. -/
def sinc3 {w : Nat} (m : Nat) (b : BitVec w) : Int :=
  (boxSums m (boxSums m (boxSums m (midBits (3 * m - 2) b)))).headD 0

/-- The output of a second-order sinc filter of ratio `m` over the middle of a window, full scale m². -/
def sinc2 {w : Nat} (m : Nat) (b : BitVec w) : Int := (boxSums m (boxSums m (midBits (2 * m - 1) b))).headD 0

/-- The first multiple of `m` at or after `t`. -/
def nextMultiple (m t : Nat) : Nat := (t + m - 1) / m * m

/-- The `n` bytes of a value, least significant first (R9). -/
def bytesLE : Nat → Nat → List Byte
  | 0, _ => []
  | n + 1, v => BitVec.ofNat 8 v :: bytesLE n (v / 256)

/-- The number a list of bytes spells, least significant first (R9). -/
def natLE : List Byte → Nat
  | [] => 0
  | b :: bs => b.toNat + 256 * natLE bs

/-- The number a list of bytes spells, most significant first. -/
def natBE (bs : List Byte) : Nat := natLE bs.reverse

/-- The `n` bytes of a value, most significant first. -/
def bytesBE (n v : Nat) : List Byte := (bytesLE n v).reverse

/-- The bytes from offset `off`, `n` of them, with zeros past the end. -/
def sliceLE (bs : List Byte) (off n : Nat) : Nat := natLE ((bs.drop off).take n)

/-- A table: pairs of key and value, keys strictly rising, no value equal to the default. -/
abbrev Tab (α : Type) := List (Nat × α)

/-- The value of a table at a key, the default where the key is not listed. -/
def Tab.get {α : Type} (d : α) : Tab α → Nat → α
  | [], _ => d
  | (k, v) :: t, i => if k = i then v else Tab.get d t i

/-- Insert a pair in key order, replacing an entry of the same key. -/
def Tab.insert {α : Type} (i : Nat) (x : α) : Tab α → Tab α
  | [] => [(i, x)]
  | (k, v) :: t =>
    if i < k then (i, x) :: (k, v) :: t
    else if i = k then (i, x) :: t
    else (k, v) :: Tab.insert i x t

/-- Drop every entry of a key. -/
def Tab.erase {α : Type} (i : Nat) : Tab α → Tab α
  | [] => []
  | (k, v) :: t => if k = i then Tab.erase i t else (k, v) :: Tab.erase i t

/-- Store a value at a key; storing the default removes the entry, so that equal tables are equal lists. -/
def Tab.put {α : Type} [DecidableEq α] (d : α) (t : Tab α) (i : Nat) (x : α) : Tab α :=
  if x = d then Tab.erase i t else Tab.insert i x t

/-- The keys of a list of pairs rise strictly. -/
def keysRise {α : Type} : List (Nat × α) → Bool
  | [] => true
  | [_] => true
  | (a, _) :: (b, y) :: t => decide (a < b) && keysRise ((b, y) :: t)

/-- Every value of a list of pairs differs from what its key reads as when not listed. -/
def noneDefault {α : Type} [DecidableEq α] (d : Nat → α) (t : List (Nat × α)) : Bool :=
  t.all fun p => p.2 != d p.1

end Sys2Proof.Machine
end

