-- ==== Sys2Proof/Machine/Crypto.lean ====
section
/-!
DEFINITION. The two algorithms that the manual names for SEC: SHA-256 and ECDSA over P-256 (R456–R465).
-/

namespace Sys2Proof.Machine

/-! ### SHA-256 -/

/-- The whole part of the cube root, found bit by bit from bit `n - 1`. -/
def icbrt (x : Nat) : Nat → Nat → Nat
  | 0, r => r
  | n + 1, r => icbrt x n (if (r + 2 ^ n) ^ 3 ≤ x then r + 2 ^ n else r)

/-- The first 64 primes, ascending. -/
def shaPrimes : List Nat :=
  ((List.range 312).drop 2).filter fun p => (List.range 18).all fun d => d < 2 || p ≤ d || p % d != 0

/-- The 64 round constants: the first 32 bits of the fraction of the cube root of each prime. -/
def shaConsts : List Word := shaPrimes.map fun p => BitVec.ofNat 32 (icbrt (p * 2 ^ 96) 35 0)

/-- The algorithm's eight working words as the last four terms of two sequences, newest first: the
round appends one term to each. -/
structure Sha where
  lead : List Word
  mix : List Word
deriving DecidableEq, Repr

/-- The first 32 bits of the fraction of the square root of each of the first eight primes. -/
def shaStart : Sha :=
  let roots := (shaPrimes.take 8).map fun p => BitVec.ofNat 32 (isqrt (p * 2 ^ 64))
  ⟨roots.take 4, roots.drop 4⟩

/-- Exclusive or of a word turned right by each of the amounts. -/
def turned (w : Word) (ns : List Nat) : Word := ns.foldl (fun acc n => acc ^^^ w.rotateRight n) 0

/-- One round with the sum of its constant and schedule word. -/
def Sha.round (x : Sha) (kw : Word) : Sha :=
  let at' (l : List Word) (i : Nat) : Word := l.getD i 0
  let pick := at' x.mix 2 ^^^ (at' x.mix 0 &&& (at' x.mix 1 ^^^ at' x.mix 2))
  let vote := (at' x.lead 0 &&& (at' x.lead 1 ||| at' x.lead 2)) ||| (at' x.lead 1 &&& at' x.lead 2)
  let inp := kw + at' x.mix 3 + pick + turned (at' x.mix 0) [6, 11, 25]
  ⟨(inp + vote + turned (at' x.lead 0) [2, 13, 22]) :: x.lead.take 3,
   (inp + at' x.lead 3) :: x.mix.take 3⟩

/-- The word of the schedule that follows sixteen words, oldest first. -/
def shaNext (ws : List Word) : Word :=
  let old := ws.getD 1 0
  let new := ws.getD 14 0
  (turned old [7, 18] ^^^ (old >>> 3)) + ws.getD 9 0 + (turned new [17, 19] ^^^ (new >>> 10)) + ws.getD 0 0

/-- The rounds of a block: the sixteen words in hand slide along the schedule, one a round. -/
def Sha.run : List Word → List Word → Sha → Sha
  | [], _, x => x
  | k :: ks, ws, x => Sha.run ks (ws.drop 1 ++ [shaNext ws]) (x.round (k + ws.headD 0))

/-- One block of 16 big-endian words. -/
def Sha.block (x : Sha) (ws : List Word) : Sha :=
  let y := Sha.run shaConsts ws x
  ⟨List.zipWith (· + ·) x.lead y.lead, List.zipWith (· + ·) x.mix y.mix⟩

/-- The message padded to whole blocks. -/
def shaPad (bs : List Byte) : List Byte :=
  let n := bs.length
  bs ++ [0x80] ++ List.replicate ((119 - n % 64) % 64) 0 ++ bytesBE 8 (8 * n)

/-- The 16 big-endian words of a block. -/
def blockWords (bs : List Byte) : List Word :=
  (List.range 16).map fun i => BitVec.ofNat 32 (natBE ((bs.drop (4 * i)).take 4))

def Sha.blocks : Nat → List Byte → Sha → Sha
  | 0, _, x => x
  | n + 1, bs, x => Sha.blocks n (bs.drop 64) (x.block (blockWords bs))

/-- SHA-256, as 32 bytes. -/
def sha256 (bs : List Byte) : List Byte :=
  let p := shaPad bs
  let x := Sha.blocks (p.length / 64) p shaStart
  (x.lead ++ x.mix).flatMap fun w => bytesBE 4 w.toNat

/-! ### P-256 -/

def ecP : Nat := 0xffffffff00000001000000000000000000000000ffffffffffffffffffffffff
def ecN : Nat := 0xffffffff00000000ffffffffffffffffbce6faada7179e84f3b9cac2fc632551
def ecB : Nat := 0x5ac635d8aa3a93e7b3ebbd55769886bc651d06b0cc53b0f63bce3c3e27d2604b
def ecG : Nat × Nat :=
  (0x6b17d1f2e12c4247f8bce6e563a440f277037d812deb33a0f4a13945d898c296,
   0x4fe342e2fe1a7f9b8ee7eb4a7c0f9e162bce33576b315ececbb6406837bf51f5)

/-- b^e mod m, over the low `n` bits of e. -/
def powMod (m : Nat) : Nat → Nat → Nat → Nat
  | 0, _, _ => 1 % m
  | n + 1, b, e => (if e % 2 = 1 then b else 1) * powMod m n (b * b % m) (e / 2) % m

/-- The inverse modulo a prime below 2^256. -/
def invMod (m x : Nat) : Nat := powMod m 256 (x % m) (m - 2)

/-- Subtraction modulo m of reduced numbers. -/
def subMod (m a b : Nat) : Nat := (a + (m - b % m)) % m

/-- A point: none at infinity. -/
abbrev EcPoint := Option (Nat × Nat)

/-- Addition on the curve y² = x³ − 3x + b. -/
def ecAdd (p q : EcPoint) : EcPoint :=
  match p, q with
  | none, q => q
  | p, none => p
  | some (x1, y1), some (x2, y2) =>
    if x1 = x2 && (y1 + y2) % ecP = 0 then none
    else
      let l := if x1 = x2 then (subMod ecP (3 * x1 * x1 % ecP) 3) * invMod ecP (2 * y1) % ecP
        else subMod ecP y2 y1 * invMod ecP (subMod ecP x2 x1) % ecP
      let x3 := subMod ecP (subMod ecP (l * l % ecP) x1) x2
      some (x3, subMod ecP (l * subMod ecP x1 x3 % ecP) y1)

/-- k·p over the low `n` bits of k. -/
def ecMul : Nat → Nat → EcPoint → EcPoint
  | 0, _, _ => none
  | n + 1, k, p => ecAdd (if k % 2 = 1 then p else none) (ecMul n (k / 2) (ecAdd p p))

/-- A pair of coordinates is a point of the curve. -/
def onCurve (q : Nat × Nat) : Bool :=
  q.1 < ecP && q.2 < ecP && (q.2 * q.2) % ecP == (q.1 * q.1 * q.1 + (ecP - 3) * q.1 + ecB) % ecP

/-- ECDSA verification of (r, s) over a digest by a public key. -/
def ecdsaVerify (q : Nat × Nat) (digest r s : Nat) : Bool :=
  onCurve q && 1 ≤ r && r < ecN && 1 ≤ s && s < ecN &&
  (let w := invMod ecN s
   match ecAdd (ecMul 256 (digest * w % ecN) (some ecG)) (ecMul 256 (r * w % ecN) (some q)) with
   | none => false
   | some (x, _) => x % ecN == r)

/-- The ECDSA signature over a digest by the private key d with the nonce k. -/
def ecdsaSign (d digest k : Nat) : Nat × Nat :=
  match ecMul 256 k (some ecG) with
  | none => (0, 0)
  | some (x, _) =>
    let r := x % ecN
    (r, invMod ecN k * (digest + r * d) % ecN)

end Sys2Proof.Machine
end

