-- ==== Sys2Proof/Config.lean ====
section
/-!
DEFINITION. The free values: what the spec leaves open, as constants without a body. A claim about a state that reads
one holds whatever its value is. Each is applied to the counter `fresh` of State, so that two reads need not agree.
-/

namespace Sys2Proof

/-- An open number (log entry 3): random values, measurements and choices that the spec does not determine. -/
opaque Config.freeNat : Nat → Nat

/-- The bytes of the boot ROM (R31), which the spec does not give (log entry 3). -/
opaque Config.romByte : Nat → BitVec 8

/-- What the rounding of the Clarke and Park transforms (R274) adds to i_d and i_q, in 2^−20 current units (log entry 31). -/
opaque Config.parkError : Int → Int → Nat → Int × Int

/-- What the rounding of the inverse transforms (R274) adds to v_U, v_V and v_W, in 2^−36 units of R275 (log entry 31). -/
opaque Config.parkInvError : Int → Int → Nat → Int × Int × Int

/-- The on-times of the two half bridges of a winding for its voltage, in 2^−36 units of R275, and the period: R305 gives
the bridge centre-aligned PWM and not the duties of a voltage (log entry 106). -/
opaque Config.windingDuty : Int → Nat → Nat × Nat

/-- The order of a SEQ group's six cores in its Stacks port ring (R39), a choice at each place among the cores left: the
spec names no ring position (log entry 93). -/
opaque Config.ringChoice : Nat → Nat → Nat

/-- What tells the save images of a unit from one another (R195): the layout of their lane state belongs to the part (log
entry 98). -/
opaque Config.saveKey : Nat

/-- The UNIT_ID that the part's OTP holds from manufacture (R461), for which the spec gives no value. -/
opaque Config.unitId : Nat

end Sys2Proof
end

