-- ==== Sys2Proof/Machine/RegMap.lean ====
section
/-!
DEFINITION. The register map: every register of the block map (R34) with its address, its fields, each field's access
(R13), class (R15), value after reset (R17) and the values a write may store. The tables are the register tables of
the chapters, row for row; a reserved field is one that no row of `Fld` covers.
-/

namespace Sys2Proof.Machine

/-- The access types of R13. -/
inductive Acc | rw | ro | w1c | w1s | wo
deriving DecidableEq, Repr

/-- The field classes of R15: dynamic, shadowed, locked. -/
inductive Cls | d | s | l
deriving DecidableEq, Repr

/-- Whether a field keeps its value over a reset (R17): `brst` across BRST only, `crst` across CRST and BRST, `por`
across every reset (the rail sequencer, OTP and the Ledger). -/
inductive Keep | no | brst | crst | por
deriving DecidableEq, Repr

/-- How a Reset column gives the value: a number, or one of the entries that depend on the register's index. -/
inductive Rst
  | val (n : Nat)
  | index   -- the register's own index
  | geom    -- EXP_GEOM.LINE: 16 × (e mod 32)
  | ltSix   -- FOC_CFG.REVERSE_GUARD: 1 for channels 0–5
  | react   -- SBX_SRC_CFG.REACT: R383
  | neigh   -- THM_TS.NEIGH: i XOR 1
  | msix    -- HST_MSIX_SRC.SRC: R434
  | dom     -- PWR_DOM_STATE.STATE: ON for the domains of BOOT (R41)
  | estate  -- EXP_ESTATE.STATE: R242
deriving DecidableEq, Repr

/-- What a write stores where the Meaning says that other values are stored as another one. `special` marks a field
whose rule needs other state; the register write operation holds it. -/
inductive Fix
  | none
  | range (lo hi other : Nat)
  | atLeast (n : Nat)
  | atMost (n : Nat)
  | clamp (lo hi : Nat)
  | subst (v other : Nat)
  | mult (m lo hi other : Nat)
  | special
deriving DecidableEq, Repr

/-- One field of a register. -/
structure Fld where
  name : String
  lsb : Nat
  width : Nat
  acc : Acc
  cls : Cls
  rst : Rst
  keep : Keep
  fix : Fix
deriving DecidableEq, Repr

/-- One register, or one array of registers: the address of its first instance and a (stride, count) pair for each
index, outermost first. -/
structure RegDesc where
  name : String
  base : Nat
  dims : List (Nat × Nat)
  fields : List Fld
deriving DecidableEq, Repr

/-- Registers of block SYS (spec/01_architecture.md, spec/07_scan_sync.md, spec/15_host_line.md). -/
def regsSYS : List RegDesc :=
  [ ⟨"SYS_MODE", 0x20000010, [],
      [⟨"MODE", 0, 3, .ro, .d, (.val 2), .no, .none⟩,
       ⟨"TRANS", 3, 1, .ro, .d, (.val 0), .no, .none⟩,
       ⟨"TARGET", 4, 3, .ro, .d, (.val 2), .no, .none⟩,
       ⟨"SAFE_DONE", 7, 1, .ro, .d, (.val 0), .no, .none⟩,
       ⟨"HELD", 8, 3, .ro, .d, (.val 0), .no, .none⟩,
       ⟨"HELD_V", 11, 1, .ro, .d, (.val 0), .no, .none⟩,
       ⟨"LAST_REQ", 12, 3, .ro, .d, (.val 0), .no, .none⟩,
       ⟨"SUB", 15, 1, .ro, .d, (.val 0), .no, .none⟩,
       ⟨"REFUSE", 16, 3, .ro, .d, (.val 0), .no, .none⟩,
       ⟨"SAFE_SEEN", 19, 1, .w1c, .d, (.val 0), .no, .none⟩]⟩,
    ⟨"SYS_MODE_REQ", 0x20000014, [],
      [⟨"TARGET", 0, 3, .wo, .d, (.val 0), .no, .none⟩]⟩,
    ⟨"SYS_SVC_MOTION", 0x20000030, [],
      [⟨"FOC", 0, 16, .ro, .d, (.val 0), .no, .none⟩]⟩,
    ⟨"SYS_SVC_MOTION_STP", 0x20000034, [],
      [⟨"STP", 0, 32, .ro, .d, (.val 0), .no, .none⟩]⟩,
    ⟨"SYS_PROFILE", 0x20000020, [],
      [⟨"PROFILE", 0, 1, .rw, .l, (.val 0), .no, .none⟩,
       ⟨"FIXED", 1, 1, .ro, .d, (.val 0), .no, .none⟩]⟩,
    ⟨"SYS_LINE_ID", 0x20000028, [],
      [⟨"DEV", 0, 10, .rw, .d, (.val 0), .no, .none⟩]⟩ ]

/-- Registers of block CLK (spec/01_architecture.md). -/
def regsCLK : List RegDesc :=
  [ ⟨"CLK_ROOT", 0x20100000, [],
      [⟨"ACTIVE", 0, 1, .ro, .d, (.val 0), .no, .none⟩,
       ⟨"NEXT", 4, 1, .rw, .s, (.val 0), .crst, .none⟩,
       ⟨"LOCK", 8, 1, .ro, .d, (.val 0), .no, .none⟩]⟩,
    ⟨"CLK_TB_LO", 0x20100010, [],
      [⟨"TB_LO", 0, 32, .ro, .d, (.val 0), .no, .none⟩]⟩,
    ⟨"CLK_TB_HI", 0x20100014, [],
      [⟨"TB_HI", 0, 32, .ro, .d, (.val 0), .no, .none⟩]⟩ ]

/-- Registers of block PWR (spec/14_power_thermal.md). -/
def regsPWR : List RegDesc :=
  [ ⟨"PWR_CTRL", 0x20200000, [],
      [⟨"IRQ_EN", 0, 4, .rw, .d, (.val 0), .no, .none⟩]⟩,
    ⟨"PWR_IRQ_STATUS", 0x20200004, [],
      [⟨"DOM_FAIL", 0, 1, .w1c, .d, (.val 0), .no, .none⟩,
       ⟨"REFUSED", 1, 1, .w1c, .d, (.val 0), .no, .none⟩,
       ⟨"VREQ", 2, 1, .w1c, .d, (.val 0), .no, .none⟩,
       ⟨"VIN_LOST", 3, 1, .w1c, .d, (.val 0), .no, .none⟩]⟩,
    ⟨"PWR_DOM_REQ", 0x20200008, [],
      [⟨"DOM", 0, 4, .wo, .d, (.val 0), .no, .none⟩,
       ⟨"ON", 4, 1, .wo, .d, (.val 0), .no, .none⟩]⟩,
    ⟨"PWR_ENGINE", 0x2020000C, [],
      [⟨"VID", 0, 3, .rw, .l, (.val 7), .no, .none⟩]⟩,
    ⟨"PWR_REFUSE_LAST", 0x20200010, [],
      [⟨"DOM", 0, 4, .ro, .d, (.val 0), .crst, .none⟩,
       ⟨"WHO", 4, 4, .ro, .d, (.val 0), .crst, .none⟩]⟩,
    ⟨"PWR_WAKE_CFG", 0x20200014, [],
      [⟨"WAKE_N_EN", 0, 1, .rw, .d, (.val 1), .no, .none⟩]⟩,
    ⟨"PWR_WAKE_TIMER", 0x20200018, [],
      [⟨"MS", 0, 32, .rw, .d, (.val 0), .no, .none⟩]⟩,
    ⟨"PWR_SEQ_STATUS", 0x20200020, [],
      [⟨"STATE", 0, 3, .ro, .d, (.val 0), .por, .none⟩,
       ⟨"RAIL", 4, 3, .ro, .d, (.val 0), .por, .none⟩,
       ⟨"CAUSE", 8, 3, .ro, .d, (.val 0), .por, .none⟩,
       ⟨"SEQ_IN", 12, 1, .ro, .d, (.val 0), .no, .none⟩,
       ⟨"SEQ_OUT", 13, 1, .ro, .d, (.val 0), .no, .none⟩,
       ⟨"VIN_OK", 14, 1, .ro, .d, (.val 0), .no, .none⟩,
       ⟨"PG", 16, 8, .ro, .d, (.val 0), .no, .none⟩]⟩,
    ⟨"PWR_RAIL_CFG", 0x20200040, [(0x4, 8)],
      [⟨"T_PG", 0, 8, .rw, .s, (.val 10), .por, (.subst 0 1)⟩,
       ⟨"GAP", 8, 8, .rw, .s, (.val 10), .por, (.subst 0 1)⟩]⟩,
    ⟨"PWR_VMON", 0x20200060, [(0x4, 8)],
      [⟨"LO", 0, 10, .rw, .d, (.val 0), .por, .none⟩,
       ⟨"HI", 16, 10, .rw, .d, (.val 1023), .por, .none⟩,
       ⟨"N", 28, 4, .rw, .d, (.val 4), .por, (.subst 0 1)⟩]⟩,
    ⟨"PWR_VMON_VAL", 0x20200080, [(0x4, 8)],
      [⟨"CODE", 0, 10, .ro, .d, (.val 0), .no, .none⟩]⟩,
    ⟨"PWR_VREQ_A", 0x202000A0, [],
      [⟨"ADDR", 0, 7, .rw, .d, (.val 0), .no, .none⟩,
       ⟨"PAGE", 8, 8, .rw, .d, (.val 0), .no, .none⟩,
       ⟨"RAIL", 16, 4, .rw, .d, (.val 15), .no, .none⟩]⟩,
    ⟨"PWR_VREQ_B", 0x202000A4, [],
      [⟨"VOUT", 0, 16, .rw, .d, (.val 0), .no, .none⟩,
       ⟨"TOL", 16, 16, .rw, .d, (.val 0), .no, .none⟩]⟩,
    ⟨"PWR_VREQ_STATUS", 0x202000A8, [],
      [⟨"STATE", 0, 2, .ro, .d, (.val 0), .no, .none⟩,
       ⟨"CAUSE", 2, 3, .ro, .d, (.val 0), .no, .none⟩,
       ⟨"OVF", 5, 1, .w1c, .d, (.val 0), .no, .none⟩,
       ⟨"ALERT", 6, 1, .ro, .d, (.val 0), .no, .none⟩,
       ⟨"READ", 16, 16, .ro, .d, (.val 0), .no, .none⟩]⟩,
    ⟨"PWR_VREQ_TO", 0x202000AC, [],
      [⟨"MS", 0, 16, .rw, .d, (.val 10), .no, (.subst 0 1)⟩]⟩ ] ++
  [ ⟨"PWR_DOM_STATE", 0x20200100, [(0x4, 16)],
      [⟨"STATE", 0, 4, .ro, .d, .dom, .no, .none⟩,
       ⟨"REVERSE", 4, 1, .ro, .d, (.val 0), .no, .none⟩,
       ⟨"PEND", 5, 1, .ro, .d, (.val 0), .no, .none⟩,
       ⟨"REQUIRED", 6, 1, .ro, .d, (.val 0), .no, .none⟩,
       ⟨"LAST", 8, 4, .ro, .d, (.val 0), .crst, .none⟩]⟩,
    ⟨"PWR_DOM_CNT", 0x20200140, [(0x4, 16)],
      [⟨"REFUSED", 0, 16, .rw, .d, (.val 0), .crst, .none⟩,
       ⟨"ABORTED", 16, 16, .rw, .d, (.val 0), .crst, .none⟩]⟩ ]

/-- Registers of block THM (spec/14_power_thermal.md). -/
def regsTHM : List RegDesc :=
  [ ⟨"THM_CTRL", 0x20300000, [],
      [⟨"IRQ_EN", 0, 6, .rw, .d, (.val 0), .no, .none⟩,
       ⟨"FORCE", 8, 1, .rw, .d, (.val 0), .no, .none⟩]⟩,
    ⟨"THM_STATUS", 0x20300004, [],
      [⟨"BAND", 0, 3, .ro, .d, (.val 1), .no, .none⟩,
       ⟨"REQ", 3, 1, .ro, .d, (.val 0), .no, .none⟩,
       ⟨"ADVISE", 4, 1, .ro, .d, (.val 0), .no, .none⟩,
       ⟨"ENFORCED", 5, 1, .ro, .d, (.val 0), .no, .none⟩,
       ⟨"SRC", 8, 4, .ro, .d, (.val 0), .no, .none⟩]⟩,
    ⟨"THM_IRQ_STATUS", 0x20300008, [],
      [⟨"ADVISE", 0, 1, .w1c, .d, (.val 0), .no, .none⟩,
       ⟨"ENFORCE", 1, 1, .w1c, .d, (.val 0), .no, .none⟩,
       ⟨"RISE", 2, 1, .w1c, .d, (.val 0), .no, .none⟩,
       ⟨"SENSOR_FAIL", 3, 1, .w1c, .d, (.val 0), .no, .none⟩,
       ⟨"BAND", 4, 1, .w1c, .d, (.val 0), .no, .none⟩,
       ⟨"RELEASE", 5, 1, .w1c, .d, (.val 0), .no, .none⟩]⟩,
    ⟨"THM_TMAX", 0x2030000C, [],
      [⟨"TMAX", 0, 16, .ro, .d, (.val 0), .no, .none⟩,
       ⟨"RISE", 16, 16, .ro, .d, (.val 0), .no, .none⟩]⟩,
    ⟨"THM_BAND_CFG", 0x20300010, [],
      [⟨"HYST", 0, 8, .rw, .l, (.val 20), .no, .none⟩]⟩,
    ⟨"THM_THR_T", 0x20300014, [],
      [⟨"THR_T", 0, 16, .rw, .d, (.val 1000), .no, .none⟩,
       ⟨"THR_HYST", 16, 8, .rw, .d, (.val 50), .no, .none⟩]⟩,
    ⟨"THM_RISE_LIM", 0x20300018, [],
      [⟨"LIM", 0, 16, .rw, .d, (.val 50), .no, .none⟩]⟩,
    ⟨"THM_TIMES", 0x2030001C, [],
      [⟨"GRACE", 0, 16, .rw, .d, (.val 500), .no, (.subst 0 1)⟩,
       ⟨"RELEASE", 16, 16, .rw, .d, (.val 2000), .no, (.subst 0 1)⟩]⟩,
    ⟨"THM_THR_HORIZON", 0x20300020, [],
      [⟨"HORIZON", 0, 8, .rw, .s, (.val 32), .no, (.clamp 1 128)⟩]⟩,
    ⟨"THM_THR_PITCH", 0x20300024, [],
      [⟨"TICKS", 0, 32, .rw, .s, (.val 1600000000), .no, .none⟩]⟩,
    ⟨"THM_THR_ALLOW", 0x20300028, [],
      [⟨"ALLOW", 0, 16, .rw, .s, (.val 2400), .no, .none⟩]⟩,
    ⟨"THM_CNT", 0x2030002C, [],
      [⟨"ADVISES", 0, 16, .rw, .d, (.val 0), .crst, .none⟩,
       ⟨"ENFORCES", 16, 16, .rw, .d, (.val 0), .crst, .none⟩]⟩,
    ⟨"THM_LIMITS", 0x20300030, [],
      [⟨"SHUT", 0, 16, .ro, .d, (.val 1150), .no, .none⟩,
       ⟨"RESTART", 16, 16, .ro, .d, (.val 950), .no, .none⟩]⟩,
    ⟨"THM_SENSOR_FAIL", 0x20300034, [],
      [⟨"FAILED", 0, 12, .w1s, .d, (.val 0), .no, .none⟩]⟩,
    ⟨"THM_TS", 0x20300100, [(0x4, 12)],
      [⟨"T", 0, 16, .ro, .d, (.val 0), .no, .none⟩,
       ⟨"FAILED", 16, 1, .ro, .d, (.val 0), .no, .none⟩,
       ⟨"SUBST", 17, 1, .ro, .d, (.val 0), .no, .none⟩,
       ⟨"NEIGH", 20, 4, .ro, .d, .neigh, .no, .none⟩]⟩ ]

/-- Registers of block SBX (spec/13_signal_box.md). -/
def regsSBX : List RegDesc :=
  [ ⟨"SBX_CTRL", 0x20400000, [],
      [⟨"NMI_CORE", 0, 2, .rw, .d, (.val 1), .no, (.subst 0 1)⟩,
       ⟨"PIN_FORCE", 2, 1, .rw, .d, (.val 0), .no, .none⟩]⟩,
    ⟨"SBX_STATUS_LO", 0x20400008, [],
      [⟨"STATUS", 0, 32, .w1c, .d, (.val 0), .crst, .none⟩]⟩,
    ⟨"SBX_STATUS_HI", 0x2040000C, [],
      [⟨"STATUS", 0, 32, .w1c, .d, (.val 0), .crst, .none⟩]⟩,
    ⟨"SBX_ACTIVE_LO", 0x20400010, [],
      [⟨"ACTIVE", 0, 32, .w1c, .d, (.val 0), .crst, .none⟩]⟩,
    ⟨"SBX_ACTIVE_HI", 0x20400014, [],
      [⟨"ACTIVE", 0, 32, .w1c, .d, (.val 0), .crst, .none⟩]⟩,
    ⟨"SBX_RST_LO", 0x20400018, [],
      [⟨"RST", 0, 32, .ro, .d, (.val 0), .no, .none⟩]⟩,
    ⟨"SBX_RST_HI", 0x2040001C, [],
      [⟨"RST", 0, 32, .ro, .d, (.val 0), .no, .none⟩]⟩,
    ⟨"SBX_SHADOW", 0x20400020, [],
      [⟨"TICKS", 0, 24, .rw, .d, (.val 51200), .no, .none⟩]⟩,
    ⟨"SBX_NMI", 0x20400024, [],
      [⟨"SRC", 0, 6, .ro, .d, (.val 0), .no, .none⟩,
       ⟨"IN_SERVICE", 7, 1, .ro, .d, (.val 0), .no, .none⟩,
       ⟨"MERGED", 16, 16, .rw, .d, (.val 0), .no, .none⟩]⟩,
    ⟨"SBX_CRST_CAUSE", 0x20400028, [],
      [⟨"SRC", 0, 6, .ro, .d, (.val 0), .crst, .none⟩,
       ⟨"EVENT", 6, 4, .ro, .d, (.val 0), .crst, .none⟩,
       ⟨"VALID", 10, 1, .ro, .d, (.val 0), .crst, .none⟩,
       ⟨"NESTED", 11, 1, .ro, .d, (.val 0), .crst, .none⟩]⟩,
    ⟨"SBX_BRST_REQ", 0x2040002C, [],
      [⟨"SRC", 0, 6, .wo, .d, (.val 0), .no, .none⟩]⟩,
    ⟨"SBX_ERR", 0x20400030, [],
      [⟨"BRST_REFUSED", 0, 1, .w1c, .d, (.val 0), .no, .none⟩]⟩,
    ⟨"SBX_HIST_HEAD", 0x20400040, [],
      [⟨"HEAD", 0, 5, .ro, .d, (.val 0), .crst, .none⟩]⟩,
    ⟨"SBX_HIST_CNT", 0x20400044, [],
      [⟨"COUNT", 0, 32, .rw, .d, (.val 0), .crst, .none⟩]⟩,
    ⟨"SBX_LINE_CFG", 0x20400050, [],
      [⟨"TX_EN", 0, 1, .rw, .d, (.val 0), .no, .none⟩,
       ⟨"RX_EN", 1, 1, .rw, .d, (.val 0), .no, .none⟩]⟩ ] ++
  [ ⟨"SBX_LINE_SEQ", 0x20400054, [],
      [⟨"NEXT", 0, 16, .ro, .d, (.val 0), .no, .none⟩]⟩,
    ⟨"SBX_LINE_CNT_A", 0x20400058, [],
      [⟨"NEW", 0, 16, .rw, .d, (.val 0), .no, .none⟩,
       ⟨"ECHO", 16, 16, .rw, .d, (.val 0), .no, .none⟩]⟩,
    ⟨"SBX_LINE_CNT_B", 0x2040005C, [],
      [⟨"SUPPRESSED", 0, 16, .rw, .d, (.val 0), .no, .none⟩,
       ⟨"LOST", 16, 16, .rw, .d, (.val 0), .no, .none⟩]⟩,
    ⟨"SBX_SRC_CFG", 0x20401000, [(0x20, 64)],
      [⟨"REACT", 0, 3, .rw, .d, .react, .no, .special⟩,
       ⟨"PIN", 3, 1, .rw, .d, (.val 0), .crst, .none⟩,
       ⟨"EMIT", 4, 1, .rw, .d, (.val 0), .no, .none⟩,
       ⟨"RREACT", 5, 3, .rw, .d, (.val 1), .no, .special⟩,
       ⟨"EVMASK", 16, 16, .rw, .d, (.val 65535), .no, .none⟩]⟩,
    ⟨"SBX_SRC_QUIET", 0x20401004, [(0x20, 64)],
      [⟨"QUIET", 0, 16, .rw, .d, (.val 100), .no, .none⟩,
       ⟨"RECOV", 16, 16, .rw, .d, (.val 0), .crst, .none⟩]⟩,
    ⟨"SBX_SRC_DEP_LO", 0x20401008, [(0x20, 64)],
      [⟨"DEP", 0, 32, .rw, .d, (.val 0), .no, .none⟩]⟩,
    ⟨"SBX_SRC_DEP_HI", 0x2040100C, [(0x20, 64)],
      [⟨"DEP", 0, 32, .rw, .d, (.val 0), .no, .none⟩]⟩,
    ⟨"SBX_SRC_CNT", 0x20401010, [(0x20, 64)],
      [⟨"EVENTS", 0, 12, .rw, .d, (.val 0), .crst, .none⟩,
       ⟨"CONSEQ", 12, 12, .rw, .d, (.val 0), .crst, .none⟩,
       ⟨"MASKED", 24, 8, .rw, .d, (.val 0), .crst, .none⟩]⟩,
    ⟨"SBX_HIST_W0", 0x20400800, [(0x10, 32)],
      [⟨"TS_LO", 0, 32, .ro, .d, (.val 0), .crst, .none⟩]⟩,
    ⟨"SBX_HIST_W1", 0x20400804, [(0x10, 32)],
      [⟨"TS_HI", 0, 32, .ro, .d, (.val 0), .crst, .none⟩]⟩,
    ⟨"SBX_HIST_W2", 0x20400808, [(0x10, 32)],
      [⟨"INFO", 0, 32, .ro, .d, (.val 0), .crst, .none⟩]⟩,
    ⟨"SBX_HIST_W3", 0x2040080C, [(0x10, 32)],
      [⟨"ORIGIN_SEQ", 0, 32, .ro, .d, (.val 0), .crst, .none⟩]⟩,
    ⟨"SBX_ORIGIN", 0x20404000, [(0x4, 1024)],
      [⟨"LAST", 0, 16, .ro, .d, (.val 0), .no, .none⟩,
       ⟨"VALID", 16, 1, .rw, .d, (.val 0), .no, .special⟩]⟩ ]

/-- Registers of block TT (spec/02_timetable.md). -/
def regsTT : List RegDesc :=
  [ ⟨"TT_CTRL", 0x20500000, [],
      [⟨"RES_IRQ_EN", 0, 1, .rw, .d, (.val 0), .no, .none⟩,
       ⟨"THR_IRQ_EN", 1, 1, .rw, .d, (.val 0), .no, .none⟩]⟩,
    ⟨"TT_STATUS", 0x20500004, [],
      [⟨"COMMITTED", 0, 8, .ro, .d, (.val 0), .no, .none⟩,
       ⟨"QUEUED", 8, 4, .ro, .d, (.val 0), .no, .none⟩,
       ⟨"CHECKING", 12, 1, .ro, .d, (.val 0), .no, .none⟩,
       ⟨"OPEN", 13, 1, .ro, .d, (.val 0), .no, .none⟩,
       ⟨"SUBMIT_OVF", 14, 1, .w1c, .d, (.val 0), .no, .none⟩,
       ⟨"RESQ_STALL", 15, 1, .ro, .d, (.val 0), .no, .none⟩,
       ⟨"ARMED", 16, 13, .ro, .d, (.val 0), .no, .none⟩]⟩,
    ⟨"TT_SUBMIT", 0x20500008, [],
      [⟨"ADDR", 0, 32, .wo, .d, (.val 0), .no, .none⟩]⟩,
    ⟨"TT_RESQ_BASE", 0x20500010, [],
      [⟨"ADDR", 0, 32, .rw, .l, (.val 0), .no, .none⟩]⟩,
    ⟨"TT_RESQ_CFG", 0x20500014, [],
      [⟨"LOG2", 0, 4, .rw, .l, (.val 4), .no, (.range 4 12 4)⟩]⟩,
    ⟨"TT_RESQ_HEAD", 0x20500018, [],
      [⟨"HEAD", 0, 12, .ro, .d, (.val 0), .no, .none⟩]⟩,
    ⟨"TT_RESQ_TAIL", 0x2050001C, [],
      [⟨"TAIL", 0, 12, .rw, .d, (.val 0), .no, .none⟩]⟩,
    ⟨"TT_REQ", 0x20500020, [],
      [⟨"HANDLE", 0, 16, .wo, .d, (.val 0), .no, .none⟩,
       ⟨"OP", 16, 3, .wo, .d, (.val 0), .no, .none⟩,
       ⟨"CAUSE", 24, 8, .wo, .d, (.val 0), .no, .none⟩]⟩,
    ⟨"TT_REQ_STATUS", 0x20500024, [],
      [⟨"RESULT", 0, 3, .ro, .d, (.val 0), .no, .none⟩]⟩,
    ⟨"TT_WD_GUARD", 0x20500028, [],
      [⟨"TICKS", 0, 32, .rw, .l, (.val 6400), .no, (.atLeast 6400)⟩]⟩,
    ⟨"TT_UTIL_MAX", 0x20500030, [],
      [⟨"MAX", 0, 13, .rw, .l, (.val 3584), .no, (.atMost 3584)⟩]⟩,
    ⟨"TT_DEC_CAP", 0x20500034, [],
      [⟨"CAP", 0, 12, .rw, .l, (.val 2816), .no, (.atMost 2816)⟩]⟩,
    ⟨"TT_PWR_BUDGET", 0x20500038, [],
      [⟨"BUDGET", 0, 16, .ro, .d, (.val 3200), .no, .none⟩]⟩,
    ⟨"TT_PWR_LIMIT", 0x2050003C, [],
      [⟨"LIMIT", 0, 16, .rw, .l, (.val 3200), .no, .none⟩]⟩,
    ⟨"TT_PWR_BASE", 0x20500040, [],
      [⟨"BASE", 0, 16, .rw, .l, (.val 1200), .no, .none⟩]⟩ ] ++
  [ ⟨"TT_THROTTLE", 0x20500044, [],
      [⟨"HORIZON_EFF", 0, 8, .ro, .d, (.val 128), .no, .none⟩,
       ⟨"ADVISE", 8, 1, .ro, .d, (.val 0), .no, .none⟩,
       ⟨"ENFORCED", 9, 1, .ro, .d, (.val 0), .no, .none⟩]⟩,
    ⟨"TT_PITCH_MIN", 0x20500048, [],
      [⟨"TICKS", 0, 32, .ro, .d, (.val 0), .no, .none⟩]⟩,
    ⟨"TT_CNT_ADMIT", 0x20500080, [],
      [⟨"COUNT", 0, 32, .rw, .d, (.val 0), .no, .none⟩]⟩,
    ⟨"TT_CNT_REFUSE", 0x20500084, [],
      [⟨"COUNT", 0, 32, .rw, .d, (.val 0), .no, .none⟩]⟩,
    ⟨"TT_CNT_DELIVER", 0x20500088, [],
      [⟨"COUNT", 0, 32, .rw, .d, (.val 0), .no, .none⟩]⟩,
    ⟨"TT_CNT_SPOIL", 0x2050008C, [],
      [⟨"COUNT", 0, 32, .rw, .d, (.val 0), .no, .none⟩]⟩,
    ⟨"TT_CNT_WITHDRAW", 0x20500090, [],
      [⟨"COUNT", 0, 32, .rw, .d, (.val 0), .no, .none⟩]⟩,
    ⟨"TT_CNT_LATE", 0x20500094, [],
      [⟨"COUNT", 0, 32, .rw, .d, (.val 0), .no, .none⟩]⟩,
    ⟨"TT_CNT_SKIP", 0x20500098, [],
      [⟨"COUNT", 0, 32, .rw, .d, (.val 0), .no, .none⟩]⟩,
    ⟨"TT_CHECK_MAX", 0x2050009C, [],
      [⟨"TICKS", 0, 32, .rw, .d, (.val 0), .no, .none⟩]⟩,
    ⟨"TT_AXIS_VMAX", 0x20500200, [(0x8, 48)],
      [⟨"VMAX", 0, 24, .rw, .l, (.val 0), .no, .none⟩]⟩,
    ⟨"TT_AXIS_AMAX", 0x20500204, [(0x8, 48)],
      [⟨"AMAX", 0, 24, .rw, .l, (.val 0), .no, .none⟩]⟩,
    ⟨"TT_SHEET", 0x20501000, [(0x4, 128)],
      [⟨"STATE", 0, 4, .ro, .d, (.val 0), .no, .none⟩,
       ⟨"GEN", 4, 9, .ro, .d, (.val 0), .no, .none⟩,
       ⟨"REASON", 16, 8, .ro, .d, (.val 0), .no, .none⟩,
       ⟨"PAST_FUSER", 24, 1, .ro, .d, (.val 0), .no, .none⟩]⟩ ]

/-- Registers of block SQ (spec/04_sinel_timing.md). -/
def regsSQ : List RegDesc :=
  [ ⟨"SQ_IRQ_EN", 0x20600000, [],
      [⟨"EN", 0, 4, .rw, .d, (.val 0), .no, .none⟩]⟩,
    ⟨"SQ_IRQ_STATUS", 0x20600004, [],
      [⟨"DROP", 0, 1, .w1c, .d, (.val 0), .no, .none⟩,
       ⟨"EXC", 1, 1, .w1c, .d, (.val 0), .no, .none⟩,
       ⟨"SUBST", 2, 1, .w1c, .d, (.val 0), .no, .none⟩,
       ⟨"REFUSED", 3, 1, .w1c, .d, (.val 0), .no, .none⟩]⟩,
    ⟨"SQ_STATUS", 0x20600008, [],
      [⟨"ASSIGNED", 0, 5, .ro, .d, (.val 0), .no, .none⟩,
       ⟨"SUBST_PEND", 5, 1, .ro, .d, (.val 0), .no, .none⟩]⟩,
    ⟨"SQ_SUBST", 0x20600010, [],
      [⟨"LOGICAL", 0, 5, .wo, .d, (.val 0), .no, .none⟩,
       ⟨"PHYS", 8, 5, .wo, .d, (.val 0), .no, .none⟩,
       ⟨"COPY", 16, 1, .wo, .d, (.val 0), .no, .none⟩]⟩,
    ⟨"SQ_SUBST_STATUS", 0x20600014, [],
      [⟨"STATE", 0, 2, .ro, .d, (.val 0), .no, .none⟩,
       ⟨"REASON", 2, 3, .ro, .d, (.val 0), .no, .none⟩]⟩,
    ⟨"SQ_CORE_FAIL", 0x20600018, [],
      [⟨"FAILED", 0, 24, .w1s, .d, (.val 0), .brst, .none⟩]⟩,
    ⟨"SQ_CORE_MAP", 0x20600100, [(0x4, 20)],
      [⟨"PHYS", 0, 5, .rw, .l, (.val 0), .brst, .none⟩,
       ⟨"VALID", 7, 1, .rw, .l, (.val 0), .brst, .none⟩]⟩,
    ⟨"SQ_SLOT_CFG", 0x20601000, [(0x200, 20), (0x40, 8)],
      [⟨"DROP_EV", 2, 1, .rw, .l, (.val 0), .no, .none⟩]⟩,
    ⟨"SQ_SLOT_ENTRY", 0x20601004, [(0x200, 20), (0x40, 8)],
      [⟨"ENTRY", 0, 16, .rw, .l, (.val 0), .no, .none⟩,
       ⟨"VALID", 16, 1, .ro, .d, (.val 0), .no, .none⟩]⟩,
    ⟨"SQ_SLOT_FRAME", 0x20601008, [(0x200, 20), (0x40, 8)],
      [⟨"FRAME", 0, 18, .rw, .l, (.val 0), .no, .none⟩,
       ⟨"VALID", 18, 1, .ro, .d, (.val 0), .no, .none⟩]⟩,
    ⟨"SQ_SLOT_CTRL", 0x2060100C, [(0x200, 20), (0x40, 8)],
      [⟨"START", 0, 1, .wo, .d, (.val 0), .no, .none⟩,
       ⟨"STOP", 1, 1, .wo, .d, (.val 0), .no, .none⟩]⟩,
    ⟨"SQ_SLOT_PERIOD", 0x20601010, [(0x200, 20), (0x40, 8)],
      [⟨"PERIOD", 0, 32, .rw, .l, (.val 0), .no, .none⟩]⟩,
    ⟨"SQ_SLOT_DEADLINE", 0x20601014, [(0x200, 20), (0x40, 8)],
      [⟨"DEADLINE", 0, 32, .rw, .l, (.val 0), .no, .none⟩]⟩,
    ⟨"SQ_SLOT_WCET", 0x20601018, [(0x200, 20), (0x40, 8)],
      [⟨"WCET", 0, 32, .rw, .l, (.val 0), .no, .none⟩]⟩,
    ⟨"SQ_SLOT_DROPCFG", 0x2060101C, [(0x200, 20), (0x40, 8)],
      [⟨"DROP_RUN", 0, 8, .ro, .d, (.val 0), .no, .none⟩,
       ⟨"DROP_WIN", 8, 8, .ro, .d, (.val 0), .no, .none⟩,
       ⟨"PATH", 16, 2, .ro, .d, (.val 0), .no, .none⟩]⟩ ] ++
  [ ⟨"SQ_SLOT_STATE", 0x20601020, [(0x200, 20), (0x40, 8)],
      [⟨"STATE", 0, 3, .ro, .d, (.val 0), .no, .none⟩,
       ⟨"STANDING", 3, 1, .ro, .d, (.val 0), .no, .none⟩,
       ⟨"REFUSE", 4, 3, .ro, .d, (.val 0), .no, .none⟩,
       ⟨"PERIODS", 8, 6, .ro, .d, (.val 0), .no, .none⟩,
       ⟨"LAST", 16, 3, .ro, .d, (.val 0), .no, .none⟩]⟩,
    ⟨"SQ_SLOT_DROPS", 0x20601024, [(0x200, 20), (0x40, 8)],
      [⟨"LATE_DROPS", 0, 32, .rw, .d, (.val 0), .no, .none⟩]⟩,
    ⟨"SQ_SLOT_HIST", 0x20601028, [(0x200, 20), (0x40, 8)],
      [⟨"HIST", 0, 32, .ro, .d, (.val 0), .no, .none⟩]⟩,
    ⟨"SQ_SLOT_EXC", 0x2060102C, [(0x200, 20), (0x40, 8)],
      [⟨"CODE", 0, 8, .ro, .d, (.val 0), .no, .none⟩,
       ⟨"ADDR", 16, 16, .ro, .d, (.val 0), .no, .none⟩]⟩,
    ⟨"SQ_SLOT_EXC_ADDR", 0x20601030, [(0x200, 20), (0x40, 8)],
      [⟨"BADADDR", 0, 32, .ro, .d, (.val 0), .no, .none⟩]⟩,
    ⟨"SQ_SLOT_COUNTS", 0x20601034, [(0x200, 20), (0x40, 8)],
      [⟨"OVERRUNS", 0, 16, .rw, .d, (.val 0), .no, .none⟩,
       ⟨"ARM_LATE", 16, 16, .rw, .d, (.val 0), .no, .none⟩]⟩,
    ⟨"SQ_SLOT_MAXUSE", 0x20601038, [(0x200, 20), (0x40, 8)],
      [⟨"MAXUSE", 0, 32, .rw, .d, (.val 0), .no, .none⟩]⟩ ]

/-- Registers of block JCT (spec/01_architecture.md). -/
def regsJCT : List RegDesc :=
  [ ⟨"JCT_STATUS", 0x20700000, [],
      [⟨"BANK", 0, 1, .ro, .d, (.val 0), .no, .none⟩,
       ⟨"SWAP_PEND", 1, 1, .ro, .d, (.val 0), .no, .none⟩,
       ⟨"RT_MAX", 8, 7, .ro, .d, (.val 0), .no, .none⟩]⟩,
    ⟨"JCT_AGE_SAT", 0x20700004, [],
      [⟨"COUNT", 0, 16, .rw, .d, (.val 0), .no, .none⟩]⟩ ]

/-- Registers of block DMA (spec/12_dma_platforms.md). -/
def regsDMA : List RegDesc :=
  [ ⟨"DMA_STATUS", 0x20800000, [],
      [⟨"OUTSTANDING", 0, 8, .ro, .d, (.val 0), .no, .none⟩]⟩,
    ⟨"DMA_IRQ_CQ", 0x20800010, [],
      [⟨"CQ", 0, 32, .w1c, .d, (.val 0), .no, .none⟩]⟩,
    ⟨"DMA_IRQ_CQ_EN", 0x20800014, [],
      [⟨"EN", 0, 32, .rw, .d, (.val 0), .no, .none⟩]⟩,
    ⟨"DMA_IRQ_ERR", 0x20800018, [],
      [⟨"ERR", 0, 32, .w1c, .d, (.val 0), .no, .none⟩]⟩,
    ⟨"DMA_IRQ_ERR_EN", 0x2080001C, [],
      [⟨"EN", 0, 32, .rw, .d, (.val 0), .no, .none⟩]⟩,
    ⟨"DMA_CH_CFG", 0x20801000, [(0x40, 32)],
      [⟨"EN", 0, 1, .rw, .d, (.val 0), .no, .none⟩,
       ⟨"HALT_ERR", 1, 1, .rw, .l, (.val 1), .no, .none⟩,
       ⟨"MAXOUT", 8, 8, .rw, .l, (.val 4), .no, (.clamp 1 128)⟩]⟩,
    ⟨"DMA_CH_CTRL", 0x20801004, [(0x40, 32)],
      [⟨"ABORT", 0, 1, .wo, .d, (.val 0), .no, .none⟩]⟩,
    ⟨"DMA_RING_BASE", 0x20801008, [(0x40, 32)],
      [⟨"ADDR", 0, 32, .rw, .l, (.val 0), .no, .none⟩]⟩,
    ⟨"DMA_RING_CFG", 0x2080100C, [(0x40, 32)],
      [⟨"LOG2", 0, 4, .rw, .l, (.val 4), .no, (.range 4 10 4)⟩]⟩,
    ⟨"DMA_RING_HEAD", 0x20801010, [(0x40, 32)],
      [⟨"HEAD", 0, 10, .rw, .d, (.val 0), .no, .none⟩]⟩,
    ⟨"DMA_RING_TAIL", 0x20801014, [(0x40, 32)],
      [⟨"TAIL", 0, 10, .ro, .d, (.val 0), .no, .none⟩]⟩,
    ⟨"DMA_CQ_BASE", 0x20801018, [(0x40, 32)],
      [⟨"ADDR", 0, 32, .rw, .l, (.val 0), .no, .none⟩]⟩,
    ⟨"DMA_CQ_CFG", 0x2080101C, [(0x40, 32)],
      [⟨"LOG2", 0, 4, .rw, .l, (.val 4), .no, (.range 4 12 4)⟩]⟩,
    ⟨"DMA_CQ_HEAD", 0x20801020, [(0x40, 32)],
      [⟨"HEAD", 0, 12, .ro, .d, (.val 0), .no, .none⟩]⟩,
    ⟨"DMA_CQ_TAIL", 0x20801024, [(0x40, 32)],
      [⟨"TAIL", 0, 12, .rw, .d, (.val 0), .no, .none⟩]⟩ ] ++
  [ ⟨"DMA_CH_STATUS", 0x20801028, [(0x40, 32)],
      [⟨"STATE", 0, 3, .ro, .d, (.val 0), .no, .none⟩,
       ⟨"OUT", 8, 8, .ro, .d, (.val 0), .no, .none⟩,
       ⟨"LAST_ERR", 16, 8, .ro, .d, (.val 0), .no, .none⟩]⟩,
    ⟨"DMA_CH_CNT", 0x2080102C, [(0x40, 32)],
      [⟨"COUNT", 0, 32, .rw, .d, (.val 0), .no, .none⟩]⟩ ]

/-- Registers of block PLT (spec/12_dma_platforms.md). -/
def regsPLT : List RegDesc :=
  [ ⟨"PLT_CTRL", 0x20900000, [],
      [⟨"ERR_EN", 0, 3, .rw, .d, (.val 0), .no, .none⟩]⟩,
    ⟨"PLT_ERR", 0x20900004, [],
      [⟨"NOT_OWNER", 0, 1, .w1c, .d, (.val 0), .no, .none⟩,
       ⟨"FULL", 1, 1, .w1c, .d, (.val 0), .no, .none⟩,
       ⟨"UNBOUND", 2, 1, .w1c, .d, (.val 0), .no, .none⟩,
       ⟨"CH", 8, 6, .ro, .d, (.val 0), .no, .none⟩]⟩,
    ⟨"PLT_ARR_LO", 0x20900010, [(0x8, 3)],
      [⟨"PEND", 0, 32, .ro, .d, (.val 0), .no, .none⟩]⟩,
    ⟨"PLT_ARR_HI", 0x20900014, [(0x8, 3)],
      [⟨"PEND", 0, 32, .ro, .d, (.val 0), .no, .none⟩]⟩,
    ⟨"PLT_CH_CFG", 0x20901000, [(0x40, 64)],
      [⟨"A", 0, 3, .rw, .l, (.val 7), .brst, .none⟩,
       ⟨"B", 4, 3, .rw, .l, (.val 7), .brst, .none⟩,
       ⟨"IRQ_A", 8, 1, .rw, .d, (.val 0), .brst, .none⟩,
       ⟨"IRQ_B", 9, 1, .rw, .d, (.val 0), .brst, .none⟩,
       ⟨"WAKE_A", 10, 1, .rw, .d, (.val 1), .brst, .none⟩,
       ⟨"WAKE_B", 11, 1, .rw, .d, (.val 1), .brst, .none⟩]⟩,
    ⟨"PLT_TX", 0x20901004, [(0x40, 64)],
      [⟨"WORD", 0, 32, .wo, .d, (.val 0), .no, .none⟩]⟩,
    ⟨"PLT_STATUS", 0x20901008, [(0x40, 64)],
      [⟨"AB", 0, 4, .ro, .d, (.val 0), .no, .none⟩,
       ⟨"BA", 4, 4, .ro, .d, (.val 0), .no, .none⟩,
       ⟨"BOUND", 8, 1, .ro, .d, (.val 0), .no, .none⟩]⟩,
    ⟨"PLT_POP", 0x2090100C, [(0x40, 64)],
      [⟨"N", 0, 4, .wo, .d, (.val 0), .no, .none⟩]⟩,
    ⟨"PLT_RX", 0x20901010, [(0x40, 64), (0x4, 8)],
      [⟨"WORD", 0, 32, .ro, .d, (.val 0), .no, .none⟩]⟩,
    ⟨"PLT_CH_CNT", 0x20901030, [(0x40, 64)],
      [⟨"SENT_AB", 0, 16, .rw, .d, (.val 0), .no, .none⟩,
       ⟨"SENT_BA", 16, 16, .rw, .d, (.val 0), .no, .none⟩]⟩ ]

/-- Registers of block FX (spec/06_decompressor.md). -/
def regsFX : List RegDesc :=
  [ ⟨"FX_CTRL", 0x20A00000, [],
      [⟨"JQ_EN", 0, 1, .rw, .d, (.val 0), .no, .none⟩,
       ⟨"IRQ_EN", 1, 3, .rw, .d, (.val 0), .no, .none⟩]⟩,
    ⟨"FX_STATUS", 0x20A00004, [],
      [⟨"BUSY", 0, 12, .ro, .d, (.val 0), .no, .none⟩,
       ⟨"BE_LANES", 12, 4, .ro, .d, (.val 1), .no, .none⟩,
       ⟨"CQ_STALL", 16, 1, .ro, .d, (.val 0), .no, .none⟩,
       ⟨"RESUME_REFUSED", 17, 1, .w1c, .d, (.val 0), .no, .none⟩,
       ⟨"STREAM_OVF", 18, 1, .w1c, .d, (.val 0), .no, .none⟩]⟩,
    ⟨"FX_IRQ_STATUS", 0x20A00008, [],
      [⟨"CQ", 0, 1, .w1c, .d, (.val 0), .no, .none⟩,
       ⟨"OUT_FULL", 1, 1, .w1c, .d, (.val 0), .no, .none⟩,
       ⟨"ERR", 2, 1, .w1c, .d, (.val 0), .no, .none⟩]⟩,
    ⟨"FX_JQ_BASE", 0x20A00010, [],
      [⟨"ADDR", 0, 32, .rw, .l, (.val 0), .no, .none⟩]⟩,
    ⟨"FX_JQ_CFG", 0x20A00014, [],
      [⟨"LOG2", 0, 4, .rw, .l, (.val 4), .no, (.range 4 12 4)⟩]⟩,
    ⟨"FX_JQ_HEAD", 0x20A00018, [],
      [⟨"HEAD", 0, 12, .rw, .d, (.val 0), .no, .none⟩]⟩,
    ⟨"FX_JQ_TAIL", 0x20A0001C, [],
      [⟨"TAIL", 0, 12, .ro, .d, (.val 0), .no, .none⟩]⟩,
    ⟨"FX_CQ_BASE", 0x20A00020, [],
      [⟨"ADDR", 0, 32, .rw, .l, (.val 0), .no, .none⟩]⟩,
    ⟨"FX_CQ_CFG", 0x20A00024, [],
      [⟨"LOG2", 0, 4, .rw, .l, (.val 4), .no, (.range 4 12 4)⟩]⟩,
    ⟨"FX_CQ_HEAD", 0x20A00028, [],
      [⟨"HEAD", 0, 12, .ro, .d, (.val 0), .no, .none⟩]⟩,
    ⟨"FX_CQ_TAIL", 0x20A0002C, [],
      [⟨"TAIL", 0, 12, .rw, .d, (.val 0), .no, .none⟩]⟩,
    ⟨"FX_CNT_TILES", 0x20A00030, [],
      [⟨"COUNT", 0, 32, .rw, .d, (.val 0), .no, .none⟩]⟩,
    ⟨"FX_CNT_ERR", 0x20A00034, [],
      [⟨"COUNT", 0, 32, .rw, .d, (.val 0), .no, .none⟩]⟩,
    ⟨"FX_LANE_STATE", 0x20A00100, [(0x20, 12)],
      [⟨"STATE", 0, 3, .ro, .d, (.val 0), .no, .none⟩,
       ⟨"STATION", 4, 3, .ro, .d, (.val 0), .no, .none⟩,
       ⟨"TILE", 8, 24, .ro, .d, (.val 0), .no, .none⟩]⟩,
    ⟨"FX_LANE_CTRL", 0x20A00104, [(0x20, 12)],
      [⟨"ABORT", 0, 1, .wo, .d, (.val 0), .no, .none⟩,
       ⟨"SAVE", 1, 1, .wo, .d, (.val 0), .no, .none⟩]⟩ ] ++
  [ ⟨"FX_LANE_RESUME", 0x20A00108, [(0x20, 12)],
      [⟨"ADDR", 0, 32, .wo, .d, (.val 0), .no, .none⟩]⟩,
    ⟨"FX_LANE_SAVE", 0x20A0010C, [(0x20, 12)],
      [⟨"ADDR", 0, 32, .rw, .d, (.val 0), .no, .none⟩]⟩,
    ⟨"FX_LANE_STALL", 0x20A00110, [(0x20, 12)],
      [⟨"COUNT", 0, 32, .rw, .d, (.val 0), .no, .none⟩]⟩,
    ⟨"FX_STREAM_STATUS", 0x20A00400, [(0x20, 6)],
      [⟨"STREAMS", 0, 3, .ro, .d, (.val 0), .no, .none⟩,
       ⟨"ACTIVE", 3, 1, .ro, .d, (.val 0), .no, .none⟩,
       ⟨"ROW", 16, 16, .ro, .d, (.val 0), .no, .none⟩]⟩,
    ⟨"FX_STREAM_NEXT_LO", 0x20A00404, [(0x20, 6)],
      [⟨"NEXT_LN", 0, 32, .ro, .d, (.val 0), .brst, .none⟩]⟩,
    ⟨"FX_STREAM_NEXT_HI", 0x20A00408, [(0x20, 6)],
      [⟨"NEXT_LN", 0, 16, .ro, .d, (.val 0), .brst, .none⟩]⟩,
    ⟨"FX_STREAM_FILLED_LO", 0x20A0040C, [(0x20, 6)],
      [⟨"FILLED", 0, 32, .ro, .d, (.val 0), .brst, .none⟩]⟩,
    ⟨"FX_STREAM_FILLED_HI", 0x20A00410, [(0x20, 6)],
      [⟨"FILLED", 0, 16, .ro, .d, (.val 0), .brst, .none⟩]⟩,
    ⟨"FX_STREAM_ERR", 0x20A00414, [(0x20, 6)],
      [⟨"ERR", 0, 4, .ro, .d, (.val 0), .no, .none⟩,
       ⟨"FAIL", 4, 3, .ro, .d, (.val 0), .no, .none⟩,
       ⟨"DETAIL", 8, 8, .ro, .d, (.val 0), .no, .none⟩,
       ⟨"ROW", 16, 16, .ro, .d, (.val 0), .no, .none⟩]⟩ ]

/-- Registers of block SCN (spec/07_scan_sync.md). -/
def regsSCN : List RegDesc :=
  [ ⟨"SCN_CTRL", 0x20B00000, [(0x10000, 6)],
      [⟨"EN", 0, 1, .rw, .d, (.val 0), .no, .none⟩,
       ⟨"IDX_MODE", 1, 1, .rw, .l, (.val 0), .no, .none⟩,
       ⟨"FEED_FOC", 2, 1, .rw, .l, (.val 0), .no, .none⟩,
       ⟨"IRQ_EN", 4, 4, .rw, .d, (.val 0), .no, .none⟩]⟩,
    ⟨"SCN_CFG", 0x20B00004, [(0x10000, 6)],
      [⟨"FACETS", 0, 4, .rw, .l, (.val 8), .no, (.range 4 12 8)⟩,
       ⟨"FOC_CH", 4, 4, .rw, .l, (.val 0), .no, .none⟩,
       ⟨"IDX_IN", 8, 7, .rw, .l, (.val 0), .no, (.range 0 95 0)⟩,
       ⟨"REF_POS", 16, 5, .rw, .l, (.val 0), .no, .none⟩,
       ⟨"POL", 24, 3, .rw, .l, (.val 0), .no, .none⟩]⟩,
    ⟨"SCN_TF_NOM", 0x20B00008, [(0x10000, 6)],
      [⟨"TICKS", 0, 32, .rw, .l, (.val 0), .no, .none⟩]⟩,
    ⟨"SCN_BAND", 0x20B0000C, [(0x10000, 6)],
      [⟨"PPM", 0, 16, .rw, .l, (.val 200), .no, .none⟩]⟩,
    ⟨"SCN_POS_S", 0x20B00010, [(0x10000, 6)],
      [⟨"POS", 0, 20, .rw, .l, (.val 1046528), .no, .none⟩]⟩,
    ⟨"SCN_POS_M", 0x20B00014, [(0x10000, 6)],
      [⟨"POS", 0, 20, .rw, .l, (.val 12288), .no, .none⟩]⟩,
    ⟨"SCN_POS_E", 0x20B00018, [(0x10000, 6)],
      [⟨"POS", 0, 20, .rw, .l, (.val 26624), .no, .none⟩]⟩,
    ⟨"SCN_DLY", 0x20B00020, [(0x10000, 6), (0x4, 3)],
      [⟨"DLY", 0, 16, .rw, .l, (.val 0), .no, .none⟩]⟩,
    ⟨"SCN_BOUND", 0x20B00030, [(0x10000, 6)],
      [⟨"PHASE", 0, 8, .rw, .s, (.val 32), .no, .none⟩,
       ⟨"LEN", 8, 8, .rw, .s, (.val 32), .no, .none⟩,
       ⟨"WIN", 16, 10, .rw, .s, (.val 256), .no, .special⟩,
       ⟨"COAST", 28, 2, .rw, .s, (.val 2), .no, .none⟩]⟩,
    ⟨"SCN_LEARN", 0x20B00034, [(0x10000, 6)],
      [⟨"G", 0, 4, .rw, .s, (.val 6), .no, (.range 2 10 6)⟩,
       ⟨"LEARN_REVS", 8, 8, .rw, .l, (.val 32), .no, (.atLeast 4)⟩,
       ⟨"WARM_REVS", 16, 8, .rw, .l, (.val 4), .no, (.subst 0 1)⟩]⟩,
    ⟨"SCN_STATUS", 0x20B00040, [(0x10000, 6)],
      [⟨"STATE", 0, 2, .ro, .d, (.val 0), .no, .none⟩,
       ⟨"RATIO_VALID", 3, 1, .ro, .d, (.val 0), .no, .none⟩,
       ⟨"FACET", 4, 4, .ro, .d, (.val 0), .no, .none⟩,
       ⟨"LOSS", 8, 3, .ro, .d, (.val 0), .no, .none⟩,
       ⟨"W_LOG2", 12, 3, .ro, .d, (.val 0), .no, .none⟩,
       ⟨"D", 16, 2, .ro, .d, (.val 0), .no, .none⟩]⟩,
    ⟨"SCN_SCAN_LO", 0x20B00044, [(0x10000, 6)],
      [⟨"K", 0, 32, .ro, .d, (.val 0), .brst, .none⟩]⟩,
    ⟨"SCN_SCAN_HI", 0x20B00048, [(0x10000, 6)],
      [⟨"K", 0, 16, .ro, .d, (.val 0), .brst, .none⟩]⟩,
    ⟨"SCN_TF_EST", 0x20B0004C, [(0x10000, 6)],
      [⟨"TF", 0, 32, .ro, .d, (.val 0), .no, .none⟩]⟩,
    ⟨"SCN_RATIO", 0x20B00050, [(0x10000, 6)],
      [⟨"RATIO", 0, 16, .ro, .d, (.val 0), .no, .none⟩]⟩ ] ++
  [ ⟨"SCN_FLOOR", 0x20B00054, [(0x10000, 6)],
      [⟨"FLOOR", 0, 16, .ro, .d, (.val 0), .no, .none⟩,
       ⟨"EMIT", 16, 16, .ro, .d, (.val 0), .no, .none⟩]⟩,
    ⟨"SCN_ACHIEVED", 0x20B00058, [(0x10000, 6)],
      [⟨"ACH", 0, 16, .ro, .d, (.val 0), .no, .none⟩,
       ⟨"JITTER", 16, 16, .ro, .d, (.val 0), .no, .none⟩]⟩,
    ⟨"SCN_CNT_A", 0x20B00060, [(0x10000, 6)],
      [⟨"MISS", 0, 16, .rw, .d, (.val 0), .no, .none⟩,
       ⟨"STRAY", 16, 16, .rw, .d, (.val 0), .no, .none⟩]⟩,
    ⟨"SCN_CNT_B", 0x20B00064, [(0x10000, 6)],
      [⟨"OUT_BOUND", 0, 16, .rw, .d, (.val 0), .no, .none⟩,
       ⟨"LOSSES", 16, 16, .rw, .d, (.val 0), .no, .none⟩]⟩,
    ⟨"SCN_IRQ_STATUS", 0x20B00068, [(0x10000, 6)],
      [⟨"LOCK", 0, 1, .w1c, .d, (.val 0), .no, .none⟩,
       ⟨"LOSS", 1, 1, .w1c, .d, (.val 0), .no, .none⟩,
       ⟨"OUT_BOUND", 2, 1, .w1c, .d, (.val 0), .no, .none⟩,
       ⟨"RATIO", 3, 1, .w1c, .d, (.val 0), .no, .none⟩]⟩,
    ⟨"SCN_SYNC_ERR", 0x20B0006C, [(0x10000, 6)],
      [⟨"KIND", 0, 3, .ro, .d, (.val 0), .no, .none⟩,
       ⟨"SCAN", 16, 16, .ro, .d, (.val 0), .no, .none⟩]⟩,
    ⟨"SCN_TS_LO", 0x20B00080, [(0x10000, 6), (0x10, 3)],
      [⟨"TS", 0, 32, .ro, .d, (.val 0), .no, .none⟩]⟩,
    ⟨"SCN_TS_HI", 0x20B00084, [(0x10000, 6), (0x10, 3)],
      [⟨"TS", 0, 32, .ro, .d, (.val 0), .no, .none⟩]⟩,
    ⟨"SCN_TS_FINE", 0x20B00088, [(0x10000, 6), (0x10, 3)],
      [⟨"SIXTEENTHS", 0, 4, .ro, .d, (.val 0), .no, .none⟩,
       ⟨"FACET", 4, 4, .ro, .d, (.val 0), .no, .none⟩,
       ⟨"VALID", 8, 1, .ro, .d, (.val 0), .no, .none⟩,
       ⟨"OUT", 9, 1, .ro, .d, (.val 0), .no, .none⟩]⟩,
    ⟨"SCN_FTAB_A", 0x20B00100, [(0x10000, 6), (0x10, 12)],
      [⟨"A", 0, 24, .rw, .l, (.val 0), .no, .none⟩]⟩,
    ⟨"SCN_FTAB_S1", 0x20B00104, [(0x10000, 6), (0x10, 12)],
      [⟨"S1", 0, 32, .rw, .l, (.val 0), .no, .none⟩]⟩,
    ⟨"SCN_FTAB_S2", 0x20B00108, [(0x10000, 6), (0x10, 12)],
      [⟨"S2", 0, 32, .rw, .l, (.val 0), .no, .none⟩]⟩,
    ⟨"SCN_FTAB_CTRL", 0x20B001C0, [(0x10000, 6)],
      [⟨"VALID", 0, 1, .rw, .l, (.val 0), .no, .none⟩]⟩ ]

/-- Registers of block EXP (spec/08_exposure.md). -/
def regsEXP : List RegDesc :=
  [ ⟨"EXP_CTRL", 0x20C00000, [(0x10000, 6)],
      [⟨"EN", 0, 1, .rw, .d, (.val 0), .no, .none⟩,
       ⟨"BLEND", 1, 1, .rw, .l, (.val 1), .no, .none⟩,
       ⟨"AUTO_RETIRE", 2, 1, .rw, .d, (.val 0), .no, .none⟩,
       ⟨"IRQ_EN", 4, 6, .rw, .d, (.val 0), .no, .none⟩]⟩,
    ⟨"EXP_STATUS", 0x20C00004, [(0x10000, 6)],
      [⟨"BOUND", 0, 1, .ro, .d, (.val 0), .no, .none⟩,
       ⟨"RETIRE_REFUSED", 1, 1, .w1c, .d, (.val 0), .no, .none⟩,
       ⟨"BINDINGS", 2, 3, .ro, .d, (.val 0), .no, .none⟩]⟩,
    ⟨"EXP_WIDTH", 0x20C00008, [(0x10000, 6)],
      [⟨"TC", 0, 4, .rw, .l, (.val 12), .no, (.range 1 12 12)⟩]⟩,
    ⟨"EXP_LINE_PERIOD", 0x20C0000C, [(0x10000, 6)],
      [⟨"PERIOD", 0, 32, .rw, .s, (.val 0), .no, .none⟩]⟩,
    ⟨"EXP_REG", 0x20C00010, [(0x10000, 6)],
      [⟨"PROC", 0, 12, .rw, .s, (.val 0), .no, .none⟩,
       ⟨"SCAN", 12, 10, .rw, .s, (.val 0), .no, .none⟩,
       ⟨"TRIM", 22, 8, .rw, .s, (.val 0), .no, .none⟩]⟩,
    ⟨"EXP_WEAR", 0x20C00014, [(0x10000, 6)],
      [⟨"LIMIT", 0, 12, .rw, .d, (.val 256), .no, .none⟩,
       ⟨"COUNT", 16, 8, .rw, .d, (.val 8), .no, (.subst 0 1)⟩]⟩,
    ⟨"EXP_RETIRE", 0x20C00018, [(0x10000, 6)],
      [⟨"POS", 0, 5, .wo, .d, (.val 0), .no, .none⟩,
       ⟨"PHYS", 8, 6, .wo, .d, (.val 0), .no, .none⟩]⟩,
    ⟨"EXP_RELEASED_LO", 0x20C00020, [(0x10000, 6)],
      [⟨"RELEASED", 0, 32, .ro, .d, (.val 0), .brst, .none⟩]⟩,
    ⟨"EXP_RELEASED_HI", 0x20C00024, [(0x10000, 6)],
      [⟨"RELEASED", 0, 16, .ro, .d, (.val 0), .brst, .none⟩]⟩,
    ⟨"EXP_CNT_A", 0x20C00028, [(0x10000, 6)],
      [⟨"CLAMP", 0, 16, .rw, .d, (.val 0), .no, .none⟩,
       ⟨"TILE_LATE", 16, 16, .rw, .d, (.val 0), .no, .none⟩]⟩,
    ⟨"EXP_CNT_B", 0x20C0002C, [(0x10000, 6)],
      [⟨"RETIRED", 0, 16, .rw, .d, (.val 0), .no, .none⟩]⟩,
    ⟨"EXP_IRQ_STATUS", 0x20C00030, [(0x10000, 6)],
      [⟨"WORN", 0, 1, .w1c, .d, (.val 0), .no, .none⟩,
       ⟨"RETIRE", 1, 1, .w1c, .d, (.val 0), .no, .none⟩,
       ⟨"NO_SPARE", 2, 1, .w1c, .d, (.val 0), .no, .none⟩,
       ⟨"CLAMP", 3, 1, .w1c, .d, (.val 0), .no, .none⟩,
       ⟨"TILE_LATE", 4, 1, .w1c, .d, (.val 0), .no, .none⟩,
       ⟨"FAULT", 5, 1, .w1c, .d, (.val 0), .no, .none⟩]⟩,
    ⟨"EXP_EMAP", 0x20C00100, [(0x10000, 6), (0x4, 32)],
      [⟨"PHYS", 0, 6, .rw, .s, .index, .brst, .none⟩,
       ⟨"EN", 7, 1, .rw, .s, (.val 1), .brst, .none⟩]⟩,
    ⟨"EXP_GEOM", 0x20C00200, [(0x10000, 6), (0x4, 48)],
      [⟨"LINE", 0, 12, .rw, .s, .geom, .brst, .none⟩,
       ⟨"SCAN", 16, 12, .rw, .s, (.val 0), .brst, .none⟩]⟩,
    ⟨"EXP_ESTATE", 0x20C00300, [(0x10000, 6), (0x4, 48)],
      [⟨"STATE", 0, 3, .ro, .d, .estate, .no, .none⟩,
       ⟨"BAR", 3, 2, .rw, .s, (.val 0), .brst, .special⟩,
       ⟨"RUN", 8, 8, .ro, .d, (.val 0), .no, .none⟩]⟩ ] ++
  [ ⟨"EXP_IBASE", 0x20C00400, [(0x10000, 6), (0x4, 48)],
      [⟨"BASE", 0, 12, .rw, .d, (.val 0), .brst, .none⟩]⟩,
    ⟨"EXP_ONTIME_LO", 0x20C00500, [(0x10000, 6), (0x8, 48)],
      [⟨"ONTIME", 0, 32, .ro, .d, (.val 0), .brst, .none⟩]⟩,
    ⟨"EXP_ONTIME_HI", 0x20C00504, [(0x10000, 6), (0x8, 48)],
      [⟨"ONTIME", 0, 16, .ro, .d, (.val 0), .brst, .none⟩]⟩ ]

/-- Registers of block XLK (spec/08_exposure.md). -/
def regsXLK : List RegDesc :=
  [ ⟨"XLK_CTRL", 0x20D00000, [(0x10000, 6)],
      [⟨"EN", 0, 1, .rw, .d, (.val 0), .no, .none⟩,
       ⟨"TBL_LOAD", 1, 1, .wo, .d, (.val 0), .no, .none⟩,
       ⟨"IRQ_EN", 2, 6, .rw, .d, (.val 0), .no, .none⟩]⟩,
    ⟨"XLK_STATUS", 0x20D00004, [(0x10000, 6)],
      [⟨"STATE", 0, 3, .ro, .d, (.val 0), .no, .none⟩,
       ⟨"SPARE_OK", 3, 1, .ro, .d, (.val 0), .no, .none⟩,
       ⟨"LOCK", 4, 5, .ro, .d, (.val 0), .no, .none⟩,
       ⟨"BAND", 9, 3, .ro, .d, (.val 0), .no, .none⟩,
       ⟨"TBL_OK", 12, 5, .ro, .d, (.val 0), .no, .none⟩,
       ⟨"RC_OK", 17, 1, .ro, .d, (.val 0), .no, .none⟩]⟩,
    ⟨"XLK_LANE_MAP", 0x20D00008, [(0x10000, 6)],
      [⟨"L0", 0, 3, .rw, .l, (.val 0), .brst, .none⟩,
       ⟨"L1", 3, 3, .rw, .l, (.val 1), .brst, .none⟩,
       ⟨"L2", 6, 3, .rw, .l, (.val 2), .brst, .none⟩,
       ⟨"L3", 9, 3, .rw, .l, (.val 3), .brst, .none⟩,
       ⟨"SPARE", 12, 3, .rw, .l, (.val 4), .brst, .none⟩]⟩,
    ⟨"XLK_LAT", 0x20D0000C, [(0x10000, 6)],
      [⟨"LAT", 0, 20, .rw, .l, (.val 0), .no, .none⟩]⟩,
    ⟨"XLK_PRE", 0x20D00010, [(0x10000, 6)],
      [⟨"PRE", 0, 24, .rw, .l, (.val 65536), .no, (.atLeast 16384)⟩]⟩,
    ⟨"XLK_DEPTH", 0x20D00014, [(0x10000, 6)],
      [⟨"DEPTH", 0, 12, .rw, .l, (.val 512), .no, (.atLeast 64)⟩]⟩,
    ⟨"XLK_SYNC", 0x20D00018, [(0x10000, 6)],
      [⟨"LEVEL", 0, 8, .rw, .d, (.val 255), .no, .none⟩]⟩,
    ⟨"XLK_TBAND_A", 0x20D0001C, [(0x10000, 6)],
      [⟨"T1", 0, 12, .rw, .l, (.val 0), .no, .none⟩,
       ⟨"T2", 16, 12, .rw, .l, (.val 400), .no, .none⟩]⟩,
    ⟨"XLK_TBAND_B", 0x20D00020, [(0x10000, 6)],
      [⟨"T3", 0, 12, .rw, .l, (.val 700), .no, .none⟩,
       ⟨"T4", 16, 12, .rw, .l, (.val 950), .no, .none⟩]⟩,
    ⟨"XLK_TBAND_H", 0x20D00024, [(0x10000, 6)],
      [⟨"HYST", 0, 8, .rw, .l, (.val 20), .no, .none⟩]⟩,
    ⟨"XLK_SUBST", 0x20D00028, [(0x10000, 6)],
      [⟨"ERRS", 0, 3, .rw, .d, (.val 2), .no, (.subst 0 1)⟩,
       ⟨"LANE", 8, 2, .wo, .d, (.val 0), .no, .none⟩,
       ⟨"FORCE", 10, 1, .wo, .d, (.val 0), .no, .none⟩]⟩,
    ⟨"XLK_ERR", 0x20D0002C, [(0x10000, 6)],
      [⟨"KIND", 0, 4, .ro, .d, (.val 0), .no, .none⟩,
       ⟨"LANE", 4, 3, .ro, .d, (.val 0), .no, .none⟩,
       ⟨"SCAN", 16, 16, .ro, .d, (.val 0), .no, .none⟩]⟩,
    ⟨"XLK_CNT_FRAMES", 0x20D00030, [(0x10000, 6)],
      [⟨"COUNT", 0, 32, .rw, .d, (.val 0), .no, .none⟩]⟩,
    ⟨"XLK_CNT_MISC", 0x20D00034, [(0x10000, 6)],
      [⟨"HDR_FIX", 0, 16, .rw, .d, (.val 0), .no, .none⟩,
       ⟨"RC_BAD", 16, 16, .rw, .d, (.val 0), .no, .none⟩]⟩,
    ⟨"XLK_IRQ_STATUS", 0x20D00038, [(0x10000, 6)],
      [⟨"UP", 0, 1, .w1c, .d, (.val 0), .no, .none⟩,
       ⟨"DOWN", 1, 1, .w1c, .d, (.val 0), .no, .none⟩,
       ⟨"SUBST", 2, 1, .w1c, .d, (.val 0), .no, .none⟩,
       ⟨"ERR", 3, 1, .w1c, .d, (.val 0), .no, .none⟩,
       ⟨"BAND", 4, 1, .w1c, .d, (.val 0), .no, .none⟩,
       ⟨"TBL_ERR", 5, 1, .w1c, .d, (.val 0), .no, .none⟩]⟩ ] ++
  [ ⟨"XLK_RC_TEMP", 0x20D00040, [(0x10000, 6)],
      [⟨"TEMP0", 0, 16, .ro, .d, (.val 0), .no, .none⟩,
       ⟨"TEMP1", 16, 16, .ro, .d, (.val 0), .no, .none⟩]⟩,
    ⟨"XLK_RC_JITTER", 0x20D00044, [(0x10000, 6)],
      [⟨"JITTER", 0, 16, .ro, .d, (.val 0), .no, .none⟩]⟩,
    ⟨"XLK_RC_FAULT_LO", 0x20D00048, [(0x10000, 6)],
      [⟨"FAULT", 0, 32, .ro, .d, (.val 0), .no, .none⟩]⟩,
    ⟨"XLK_RC_FAULT_HI", 0x20D0004C, [(0x10000, 6)],
      [⟨"FAULT", 0, 16, .ro, .d, (.val 0), .no, .none⟩]⟩,
    ⟨"XLK_CNT_CRC", 0x20D00060, [(0x10000, 6), (0x4, 5)],
      [⟨"COUNT", 0, 16, .rw, .d, (.val 0), .no, .none⟩]⟩,
    ⟨"XLK_RC_I", 0x20D00100, [(0x10000, 6), (0x4, 48)],
      [⟨"CURRENT", 0, 12, .ro, .d, (.val 0), .no, .none⟩]⟩ ]

/-- Registers of block FOC (spec/09_field_control.md). -/
def regsFOC : List RegDesc :=
  [ ⟨"FOC_GCFG", 0x20E00000, [],
      [⟨"CAB_PIN", 0, 2, .rw, .l, (.val 1), .no, (.subst 0 1)⟩]⟩,
    ⟨"FOC_IRQ_SUM", 0x20E00004, [],
      [⟨"CH", 0, 16, .ro, .d, (.val 0), .no, .none⟩,
       ⟨"BUS", 16, 4, .ro, .d, (.val 0), .no, .none⟩]⟩,
    ⟨"FOC_IRQ_EN", 0x20E00008, [],
      [⟨"CH", 0, 16, .rw, .d, (.val 0), .no, .none⟩,
       ⟨"BUS", 16, 4, .rw, .d, (.val 0), .no, .none⟩]⟩,
    ⟨"FOC_ENG_FAIL", 0x20E00010, [],
      [⟨"FAILED", 0, 18, .w1s, .d, (.val 0), .brst, .none⟩]⟩,
    ⟨"FOC_ENG_SUBST", 0x20E00014, [],
      [⟨"CH", 0, 4, .wo, .d, (.val 0), .no, .none⟩,
       ⟨"ENG", 8, 5, .wo, .d, (.val 0), .no, .none⟩]⟩,
    ⟨"FOC_ENG_SUBST_STATUS", 0x20E00018, [],
      [⟨"STATE", 0, 2, .ro, .d, (.val 0), .no, .none⟩,
       ⟨"REASON", 2, 3, .ro, .d, (.val 0), .no, .none⟩]⟩,
    ⟨"FOC_ENG_MAP", 0x20E00040, [(0x4, 16)],
      [⟨"ENG", 0, 5, .ro, .d, .index, .brst, .none⟩]⟩,
    ⟨"FOC_BUS_CFG", 0x20E00800, [(0x20, 4)],
      [⟨"CHOP_EN", 0, 1, .rw, .l, (.val 0), .no, .none⟩,
       ⟨"SCALE", 16, 16, .rw, .l, (.val 0), .no, .none⟩]⟩,
    ⟨"FOC_BUS_V1", 0x20E00804, [(0x20, 4)],
      [⟨"VUV", 0, 16, .rw, .l, (.val 0), .no, .none⟩,
       ⟨"VCHOP", 16, 16, .rw, .l, (.val 0), .no, .none⟩]⟩,
    ⟨"FOC_BUS_V2", 0x20E00808, [(0x20, 4)],
      [⟨"VREG", 0, 16, .rw, .l, (.val 0), .no, .none⟩,
       ⟨"VABS", 16, 16, .rw, .l, (.val 0), .no, .none⟩]⟩,
    ⟨"FOC_BUS_CHOP", 0x20E0080C, [(0x20, 4)],
      [⟨"HYST", 0, 16, .rw, .l, (.val 100), .no, .none⟩,
       ⟨"DROP", 16, 16, .rw, .l, (.val 50), .no, .none⟩]⟩,
    ⟨"FOC_BUS_TCHOP", 0x20E00810, [(0x20, 4)],
      [⟨"T_CHOP", 0, 32, .rw, .l, (.val 1280000), .no, .none⟩]⟩,
    ⟨"FOC_BUS_STATUS", 0x20E00814, [(0x20, 4)],
      [⟨"STATE", 0, 3, .ro, .d, (.val 0), .no, .none⟩,
       ⟨"IRQ", 3, 1, .w1c, .d, (.val 0), .no, .none⟩,
       ⟨"VBUS", 16, 16, .ro, .d, (.val 0), .no, .none⟩]⟩,
    ⟨"FOC_BUS_CTRL", 0x20E00818, [(0x20, 4)],
      [⟨"CLEAR", 0, 1, .wo, .d, (.val 0), .no, .none⟩]⟩,
    ⟨"FOC_BUS_CNT", 0x20E0081C, [(0x20, 4)],
      [⟨"FIRINGS", 0, 16, .rw, .d, (.val 0), .no, .none⟩,
       ⟨"FAULTS", 16, 16, .rw, .d, (.val 0), .no, .none⟩]⟩ ] ++
  [ ⟨"FOC_CFG", 0x20E01000, [(0x100, 16)],
      [⟨"MODE", 0, 1, .rw, .l, (.val 0), .no, .none⟩,
       ⟨"CMD_SRC", 1, 3, .rw, .l, (.val 4), .no, (.range 0 4 0)⟩,
       ⟨"SPD_SRC", 4, 1, .rw, .l, (.val 0), .no, .none⟩,
       ⟨"BUS", 5, 2, .rw, .l, (.val 0), .no, .none⟩,
       ⟨"PP_M1", 8, 4, .rw, .l, (.val 0), .no, .none⟩,
       ⟨"REVERSE_GUARD", 12, 1, .rw, .l, .ltSix, .no, .none⟩,
       ⟨"SAFE_ACT", 13, 2, .rw, .d, (.val 0), .no, (.subst 3 0)⟩,
       ⟨"PIN_DIR", 15, 1, .rw, .l, (.val 0), .no, .none⟩]⟩,
    ⟨"FOC_CMD", 0x20E01004, [(0x100, 16)],
      [⟨"START", 0, 1, .wo, .d, (.val 0), .no, .none⟩,
       ⟨"STOP", 1, 1, .wo, .d, (.val 0), .no, .none⟩,
       ⟨"COAST", 2, 1, .wo, .d, (.val 0), .no, .none⟩,
       ⟨"CLEAR", 3, 1, .wo, .d, (.val 0), .no, .none⟩]⟩,
    ⟨"FOC_STATE", 0x20E01008, [(0x100, 16)],
      [⟨"STATE", 0, 4, .ro, .d, (.val 0), .no, .none⟩,
       ⟨"POS", 4, 1, .ro, .d, (.val 0), .no, .none⟩,
       ⟨"RESULT", 5, 3, .ro, .d, (.val 0), .no, .none⟩,
       ⟨"REFUSE", 8, 4, .ro, .d, (.val 0), .no, .none⟩,
       ⟨"FAULT", 12, 4, .ro, .d, (.val 0), .no, .none⟩,
       ⟨"ATTEMPTS", 16, 4, .ro, .d, (.val 0), .no, .none⟩]⟩,
    ⟨"FOC_PWM", 0x20E0100C, [(0x100, 16)],
      [⟨"TPWM", 0, 21, .rw, .l, (.val 128000), .no, .none⟩]⟩,
    ⟨"FOC_PWM2", 0x20E01010, [(0x100, 16)],
      [⟨"DEAD", 0, 16, .rw, .l, (.val 6400), .no, .none⟩,
       ⟨"MINPULSE", 16, 16, .rw, .l, (.val 3200), .no, .none⟩]⟩,
    ⟨"FOC_PWM_PHASE", 0x20E01014, [(0x100, 16)],
      [⟨"PHASE", 0, 21, .rw, .l, (.val 0), .no, .special⟩]⟩,
    ⟨"FOC_SD", 0x20E01018, [(0x100, 16)],
      [⟨"CLK", 0, 1, .rw, .l, (.val 0), .no, .none⟩,
       ⟨"OSR", 1, 2, .rw, .l, (.val 1), .no, .none⟩,
       ⟨"INV_U", 3, 1, .rw, .l, (.val 0), .no, .none⟩,
       ⟨"INV_V", 4, 1, .rw, .l, (.val 0), .no, .none⟩]⟩,
    ⟨"FOC_ISCALE", 0x20E0101C, [(0x100, 16)],
      [⟨"FS", 0, 16, .rw, .l, (.val 0), .no, .none⟩,
       ⟨"IOC", 16, 16, .rw, .l, (.val 32767), .no, .none⟩]⟩,
    ⟨"FOC_ILIM", 0x20E01020, [(0x100, 16)],
      [⟨"ILIM", 0, 16, .rw, .s, (.val 0), .no, .none⟩]⟩,
    ⟨"FOC_CUR_GAIN", 0x20E01024, [(0x100, 16)],
      [⟨"KP", 0, 16, .rw, .s, (.val 0), .no, .none⟩,
       ⟨"KI", 16, 16, .rw, .s, (.val 0), .no, .none⟩]⟩,
    ⟨"FOC_SPD_GAIN", 0x20E01028, [(0x100, 16)],
      [⟨"KP", 0, 16, .rw, .s, (.val 0), .no, .none⟩,
       ⟨"KI", 16, 16, .rw, .s, (.val 0), .no, .none⟩]⟩,
    ⟨"FOC_RAMP", 0x20E0102C, [(0x100, 16)],
      [⟨"ACC", 0, 16, .rw, .s, (.val 0), .no, .none⟩,
       ⟨"DEC", 16, 16, .rw, .s, (.val 0), .no, .none⟩]⟩,
    ⟨"FOC_MOTOR", 0x20E01030, [(0x100, 16)],
      [⟨"RS", 0, 16, .rw, .l, (.val 0), .no, .none⟩,
       ⟨"LS", 16, 16, .rw, .l, (.val 0), .no, .none⟩]⟩,
    ⟨"FOC_OBS", 0x20E01034, [(0x100, 16)],
      [⟨"OBS_MIN", 0, 24, .rw, .l, (.val 0), .no, .none⟩,
       ⟨"HYST", 24, 8, .rw, .l, (.val 32), .no, .none⟩]⟩,
    ⟨"FOC_HFI", 0x20E01038, [(0x100, 16)],
      [⟨"AMP", 0, 8, .rw, .l, (.val 16), .no, .none⟩]⟩ ] ++
  [ ⟨"FOC_START", 0x20E0103C, [(0x100, 16)],
      [⟨"RETRIES", 0, 4, .rw, .l, (.val 3), .no, .none⟩,
       ⟨"BACK", 4, 5, .rw, .l, (.val 30), .no, (.atMost 30)⟩,
       ⟨"START_T", 16, 8, .rw, .l, (.val 50), .no, .none⟩,
       ⟨"RETRY_WAIT", 24, 8, .rw, .l, (.val 10), .no, .none⟩]⟩,
    ⟨"FOC_SPEED", 0x20E01040, [(0x100, 16)],
      [⟨"OMEGA", 0, 32, .ro, .d, (.val 0), .no, .none⟩]⟩,
    ⟨"FOC_IQ_REF", 0x20E01044, [(0x100, 16)],
      [⟨"IQ", 0, 16, .rw, .s, (.val 0), .no, .none⟩]⟩,
    ⟨"FOC_SPD_REF", 0x20E01048, [(0x100, 16)],
      [⟨"SPD", 0, 32, .rw, .s, (.val 0), .no, .none⟩]⟩,
    ⟨"FOC_ID_REF", 0x20E0104C, [(0x100, 16)],
      [⟨"ID", 0, 16, .rw, .s, (.val 0), .no, .none⟩]⟩,
    ⟨"FOC_CATCH", 0x20E01050, [(0x100, 16)],
      [⟨"CATCH_MIN", 0, 24, .rw, .l, (.val 0), .no, .special⟩]⟩,
    ⟨"FOC_REV", 0x20E01054, [(0x100, 16)],
      [⟨"REV_SPD", 0, 24, .rw, .l, (.val 0), .no, .none⟩]⟩,
    ⟨"FOC_STOPSPD", 0x20E01058, [(0x100, 16)],
      [⟨"STOP_SPD", 0, 24, .rw, .l, (.val 50), .no, .none⟩]⟩,
    ⟨"FOC_ASC", 0x20E0105C, [(0x100, 16)],
      [⟨"ASC_SPD", 0, 24, .rw, .l, (.val 0), .no, .none⟩]⟩,
    ⟨"FOC_PIN_FS", 0x20E01060, [(0x100, 16)],
      [⟨"FS", 0, 24, .rw, .l, (.val 0), .no, .none⟩]⟩,
    ⟨"FOC_PIN_VAL", 0x20E01064, [(0x100, 16)],
      [⟨"F", 0, 16, .ro, .d, (.val 0), .no, .none⟩,
       ⟨"LOST", 16, 1, .ro, .d, (.val 0), .no, .none⟩]⟩,
    ⟨"FOC_MEAS_I", 0x20E01068, [(0x100, 16)],
      [⟨"ID", 0, 16, .ro, .d, (.val 0), .no, .none⟩,
       ⟨"IQ", 16, 16, .ro, .d, (.val 0), .no, .none⟩]⟩,
    ⟨"FOC_ANGLE", 0x20E0106C, [(0x100, 16)],
      [⟨"THETA", 0, 16, .ro, .d, (.val 0), .no, .none⟩,
       ⟨"VMOD", 16, 16, .ro, .d, (.val 0), .no, .none⟩]⟩,
    ⟨"FOC_CNT", 0x20E01070, [(0x100, 16)],
      [⟨"START_FAILS", 0, 8, .rw, .d, (.val 0), .no, .none⟩,
       ⟨"ASCS", 8, 8, .rw, .d, (.val 0), .no, .none⟩,
       ⟨"VLIMIT", 16, 16, .rw, .d, (.val 0), .no, .none⟩]⟩,
    ⟨"FOC_IRQ_STATUS", 0x20E01074, [(0x100, 16)],
      [⟨"FAULT", 0, 1, .w1c, .d, (.val 0), .no, .none⟩,
       ⟨"ZTC", 1, 1, .w1c, .d, (.val 0), .no, .none⟩,
       ⟨"ASC", 2, 1, .w1c, .d, (.val 0), .no, .none⟩,
       ⟨"REFUSED", 3, 1, .w1c, .d, (.val 0), .no, .none⟩,
       ⟨"PIN_LOST", 4, 1, .w1c, .d, (.val 0), .no, .none⟩,
       ⟨"RUN", 5, 1, .w1c, .d, (.val 0), .no, .none⟩]⟩ ]

/-- Registers of block STP (spec/10_motion.md). -/
def regsSTP : List RegDesc :=
  [ ⟨"STP_IRQ_SUM", 0x20F00000, [],
      [⟨"CH", 0, 32, .ro, .d, (.val 0), .no, .none⟩]⟩,
    ⟨"STP_IRQ_SUM2", 0x20F00004, [],
      [⟨"ENC", 0, 8, .ro, .d, (.val 0), .no, .none⟩]⟩,
    ⟨"STP_IRQ_EN", 0x20F00008, [],
      [⟨"CH", 0, 32, .rw, .d, (.val 0), .no, .none⟩]⟩,
    ⟨"STP_IRQ_EN2", 0x20F0000C, [],
      [⟨"ENC", 0, 8, .rw, .d, (.val 0), .no, .none⟩]⟩,
    ⟨"STP_GCFG", 0x20F00010, [],
      [⟨"TPWM", 0, 21, .rw, .l, (.val 128000), .no, (.mult 64 64000 320000 128000)⟩,
       ⟨"SDCLK", 21, 1, .rw, .l, (.val 0), .no, .none⟩,
       ⟨"OSR", 22, 2, .rw, .l, (.val 1), .no, .none⟩]⟩,
    ⟨"STP_GCFG2", 0x20F00014, [],
      [⟨"DEAD", 0, 16, .rw, .l, (.val 3200), .no, .none⟩,
       ⟨"MINPULSE", 16, 16, .rw, .l, (.val 1600), .no, .none⟩]⟩,
    ⟨"STP_ENC_CFG", 0x20F00400, [(0x20, 8)],
      [⟨"EN", 0, 1, .rw, .l, (.val 0), .no, .none⟩,
       ⟨"INV", 1, 1, .rw, .l, (.val 0), .no, .none⟩,
       ⟨"FILT", 2, 4, .rw, .l, (.val 0), .no, .none⟩]⟩,
    ⟨"STP_ENC_CPR", 0x20F00404, [(0x20, 8)],
      [⟨"CPR", 0, 32, .rw, .l, (.val 0), .no, .none⟩]⟩,
    ⟨"STP_ENC_CNT_LO", 0x20F00408, [(0x20, 8)],
      [⟨"COUNT", 0, 32, .rw, .l, (.val 0), .no, .none⟩]⟩,
    ⟨"STP_ENC_CNT_HI", 0x20F0040C, [(0x20, 8)],
      [⟨"COUNT", 0, 16, .rw, .l, (.val 0), .no, .none⟩]⟩,
    ⟨"STP_ENC_STATUS", 0x20F00410, [(0x20, 8)],
      [⟨"FAULT", 0, 1, .w1c, .d, (.val 0), .no, .none⟩,
       ⟨"KIND", 1, 2, .ro, .d, (.val 0), .no, .none⟩]⟩,
    ⟨"STP_ENC_INDEX", 0x20F00414, [(0x20, 8)],
      [⟨"COUNT", 0, 32, .ro, .d, (.val 0), .no, .none⟩]⟩,
    ⟨"STP_ENC_SPEED", 0x20F00418, [(0x20, 8)],
      [⟨"SPEED", 0, 32, .ro, .d, (.val 0), .no, .none⟩]⟩,
    ⟨"STP_CFG", 0x20F01000, [(0x100, 32)],
      [⟨"MODE", 0, 2, .rw, .l, (.val 0), .no, (.subst 3 0)⟩,
       ⟨"PROFILE", 2, 1, .rw, .l, (.val 0), .no, .none⟩,
       ⟨"STOP_MODE", 3, 1, .rw, .l, (.val 0), .no, .none⟩,
       ⟨"SAFE_ACT", 4, 2, .rw, .d, (.val 0), .no, (.subst 3 0)⟩,
       ⟨"FB_CAUSE", 6, 1, .rw, .l, (.val 1), .no, .none⟩,
       ⟨"EN_POL", 7, 1, .rw, .l, (.val 0), .no, .none⟩,
       ⟨"DIR_INV", 8, 1, .rw, .l, (.val 0), .no, .none⟩,
       ⟨"ENC", 9, 3, .rw, .l, (.val 0), .no, .none⟩]⟩,
    ⟨"STP_CMD", 0x20F01004, [(0x100, 32)],
      [⟨"GO", 0, 1, .wo, .d, (.val 0), .no, .none⟩,
       ⟨"STOP", 1, 1, .wo, .d, (.val 0), .no, .none⟩,
       ⟨"HALT", 2, 1, .wo, .d, (.val 0), .no, .none⟩,
       ⟨"RESUME", 3, 1, .wo, .d, (.val 0), .no, .none⟩,
       ⟨"CLEAR", 4, 1, .wo, .d, (.val 0), .no, .none⟩]⟩ ] ++
  [ ⟨"STP_STATE", 0x20F01008, [(0x100, 32)],
      [⟨"STATE", 0, 4, .ro, .d, (.val 0), .no, .none⟩,
       ⟨"LIM_NEG", 4, 1, .ro, .d, (.val 0), .no, .none⟩,
       ⟨"LIM_POS", 5, 1, .ro, .d, (.val 0), .no, .none⟩,
       ⟨"POS_VALID", 6, 1, .ro, .d, (.val 1), .no, .none⟩,
       ⟨"RESULT", 8, 2, .ro, .d, (.val 0), .no, .none⟩,
       ⟨"REFUSE", 10, 4, .ro, .d, (.val 0), .no, .none⟩,
       ⟨"FAULT", 16, 2, .ro, .d, (.val 0), .no, .none⟩]⟩,
    ⟨"STP_POS_LO", 0x20F0100C, [(0x100, 32)],
      [⟨"POS", 0, 32, .rw, .l, (.val 0), .no, .none⟩]⟩,
    ⟨"STP_POS_HI", 0x20F01010, [(0x100, 32)],
      [⟨"POS", 0, 16, .rw, .l, (.val 0), .no, .none⟩]⟩,
    ⟨"STP_TGT_LO", 0x20F01014, [(0x100, 32)],
      [⟨"TGT", 0, 32, .rw, .s, (.val 0), .no, .none⟩]⟩,
    ⟨"STP_TGT_HI", 0x20F01018, [(0x100, 32)],
      [⟨"TGT", 0, 16, .rw, .s, (.val 0), .no, .none⟩]⟩,
    ⟨"STP_REM_LO", 0x20F0101C, [(0x100, 32)],
      [⟨"REM", 0, 32, .ro, .d, (.val 0), .no, .none⟩]⟩,
    ⟨"STP_REM_HI", 0x20F01020, [(0x100, 32)],
      [⟨"REM", 0, 16, .ro, .d, (.val 0), .no, .none⟩]⟩,
    ⟨"STP_VCMD", 0x20F01024, [(0x100, 32)],
      [⟨"VCMD", 0, 32, .rw, .s, (.val 0), .no, .none⟩]⟩,
    ⟨"STP_ACC", 0x20F01028, [(0x100, 32)],
      [⟨"ACC", 0, 16, .rw, .s, (.val 0), .no, .none⟩,
       ⟨"DEC", 16, 16, .rw, .s, (.val 0), .no, .none⟩]⟩,
    ⟨"STP_PROF", 0x20F0102C, [(0x100, 32)],
      [⟨"JT", 0, 11, .rw, .l, (.val 1), .no, (.subst 0 1)⟩,
       ⟨"VSTART", 16, 16, .rw, .s, (.val 0), .no, .none⟩]⟩,
    ⟨"STP_SPEED", 0x20F01030, [(0x100, 32)],
      [⟨"V", 0, 32, .ro, .d, (.val 0), .no, .none⟩]⟩,
    ⟨"STP_STEP", 0x20F01034, [(0x100, 32)],
      [⟨"PW", 0, 8, .rw, .l, (.val 20), .no, .none⟩,
       ⟨"DIR_SU", 8, 8, .rw, .l, (.val 8), .no, .none⟩]⟩,
    ⟨"STP_LIM", 0x20F01038, [(0x100, 32)],
      [⟨"NEG", 0, 7, .rw, .l, (.val 127), .no, .none⟩,
       ⟨"NEG_HARD", 7, 1, .rw, .l, (.val 1), .no, .none⟩,
       ⟨"POS", 8, 7, .rw, .l, (.val 127), .no, .none⟩,
       ⟨"POS_HARD", 15, 1, .rw, .l, (.val 1), .no, .none⟩]⟩,
    ⟨"STP_GEAR_NUM", 0x20F01040, [(0x100, 32)],
      [⟨"NUM", 0, 32, .rw, .l, (.val 1), .no, .none⟩]⟩,
    ⟨"STP_GEAR_DEN", 0x20F01044, [(0x100, 32)],
      [⟨"DEN", 0, 32, .rw, .l, (.val 1), .no, .none⟩]⟩ ] ++
  [ ⟨"STP_GEAR_NEXT_NUM", 0x20F01048, [(0x100, 32)],
      [⟨"NUM", 0, 32, .rw, .d, (.val 1), .no, .none⟩]⟩,
    ⟨"STP_GEAR_NEXT_DEN", 0x20F0104C, [(0x100, 32)],
      [⟨"DEN", 0, 32, .rw, .d, (.val 1), .no, (.subst 0 1)⟩]⟩,
    ⟨"STP_GEAR_AT_LO", 0x20F01050, [(0x100, 32)],
      [⟨"AT", 0, 32, .rw, .d, (.val 0), .no, .none⟩]⟩,
    ⟨"STP_GEAR_AT_HI", 0x20F01054, [(0x100, 32)],
      [⟨"AT", 0, 16, .rw, .d, (.val 0), .no, .none⟩]⟩,
    ⟨"STP_GEAR_CTRL", 0x20F01058, [(0x100, 32)],
      [⟨"ARM", 0, 1, .wo, .d, (.val 0), .no, .none⟩,
       ⟨"CANCEL", 1, 1, .wo, .d, (.val 0), .no, .none⟩]⟩,
    ⟨"STP_GEAR_STATUS", 0x20F0105C, [(0x100, 32)],
      [⟨"PEND", 0, 1, .ro, .d, (.val 0), .no, .none⟩,
       ⟨"CHANGES", 16, 16, .rw, .d, (.val 0), .no, .none⟩]⟩,
    ⟨"STP_GEAR_LAG", 0x20F01060, [(0x100, 32)],
      [⟨"LAG_MAX", 0, 16, .rw, .l, (.val 64), .no, .none⟩]⟩,
    ⟨"STP_ISCALE", 0x20F01070, [(0x100, 32)],
      [⟨"FS", 0, 16, .rw, .l, (.val 0), .no, .none⟩]⟩,
    ⟨"STP_CUR_GAIN", 0x20F01074, [(0x100, 32)],
      [⟨"KP", 0, 16, .rw, .s, (.val 0), .no, .none⟩,
       ⟨"KI", 16, 16, .rw, .s, (.val 0), .no, .none⟩]⟩,
    ⟨"STP_CUR", 0x20F01078, [(0x100, 32)],
      [⟨"RUN_I", 0, 16, .rw, .s, (.val 0), .no, .none⟩,
       ⟨"BOOST_I", 16, 16, .rw, .s, (.val 0), .no, .special⟩]⟩,
    ⟨"STP_CUR2", 0x20F0107C, [(0x100, 32)],
      [⟨"HOLD_I", 0, 16, .rw, .s, (.val 0), .no, .none⟩,
       ⟨"HOLD_T", 16, 16, .rw, .d, (.val 100), .no, .none⟩]⟩,
    ⟨"STP_LA", 0x20F01080, [(0x100, 32)],
      [⟨"D_LO", 0, 16, .rw, .l, (.val 4096), .no, .none⟩,
       ⟨"D_HI", 16, 16, .rw, .l, (.val 12288), .no, .none⟩]⟩,
    ⟨"STP_STALL", 0x20F01084, [(0x100, 32)],
      [⟨"D_STALL", 0, 16, .rw, .l, (.val 14336), .no, .none⟩,
       ⟨"STALL_N", 16, 8, .rw, .l, (.val 4), .no, (.subst 0 1)⟩]⟩,
    ⟨"STP_LA_MIN", 0x20F01088, [(0x100, 32)],
      [⟨"LA_MIN", 0, 24, .rw, .l, (.val 0), .no, .none⟩]⟩,
    ⟨"STP_LA_MEAS", 0x20F0108C, [(0x100, 32)],
      [⟨"DELTA", 0, 16, .ro, .d, (.val 0), .no, .none⟩,
       ⟨"I_CMD", 16, 16, .ro, .d, (.val 0), .no, .none⟩]⟩ ] ++
  [ ⟨"STP_CNT", 0x20F01090, [(0x100, 32)],
      [⟨"STALLS", 0, 8, .rw, .d, (.val 0), .no, .none⟩,
       ⟨"LIMIT_STOPS", 8, 8, .rw, .d, (.val 0), .no, .none⟩,
       ⟨"LATE_EDGE", 16, 16, .rw, .d, (.val 0), .no, .none⟩]⟩,
    ⟨"STP_IRQ_STATUS", 0x20F01094, [(0x100, 32)],
      [⟨"DONE", 0, 1, .w1c, .d, (.val 0), .no, .none⟩,
       ⟨"HELD", 1, 1, .w1c, .d, (.val 0), .no, .none⟩,
       ⟨"FAULT", 2, 1, .w1c, .d, (.val 0), .no, .none⟩,
       ⟨"REFUSED", 3, 1, .w1c, .d, (.val 0), .no, .none⟩,
       ⟨"LIMIT", 4, 1, .w1c, .d, (.val 0), .no, .none⟩,
       ⟨"STALL", 5, 1, .w1c, .d, (.val 0), .no, .none⟩,
       ⟨"FALLBACK", 6, 1, .w1c, .d, (.val 0), .no, .none⟩,
       ⟨"GEAR_CHG", 7, 1, .w1c, .d, (.val 0), .no, .none⟩]⟩ ]

/-- Registers of block HV (spec/11_fuser_hv_media.md). -/
def regsHV : List RegDesc :=
  [ ⟨"HV_CTRL", 0x21000000, [],
      [⟨"IRQ_EN", 0, 4, .rw, .d, (.val 0), .no, .none⟩]⟩,
    ⟨"HV_STATUS", 0x21000004, [],
      [⟨"SAFE_STAGE", 0, 3, .ro, .d, (.val 0), .no, .none⟩,
       ⟨"SAFE_ACTIVE", 3, 1, .ro, .d, (.val 0), .no, .none⟩,
       ⟨"BAND", 4, 3, .ro, .d, (.val 0), .no, .none⟩]⟩,
    ⟨"HV_IRQ_STATUS", 0x21000008, [],
      [⟨"WINDOW", 0, 1, .w1c, .d, (.val 0), .no, .none⟩,
       ⟨"SAFE_TO", 1, 1, .w1c, .d, (.val 0), .no, .none⟩,
       ⟨"SAFE_DONE", 2, 1, .w1c, .d, (.val 0), .no, .none⟩,
       ⟨"REFUSED", 3, 1, .w1c, .d, (.val 0), .no, .none⟩]⟩,
    ⟨"HV_SAFE_CFG", 0x2100000C, [],
      [⟨"TO", 0, 16, .rw, .l, (.val 100), .no, (.subst 0 1)⟩]⟩,
    ⟨"HV_CNT", 0x21000010, [],
      [⟨"WINDOW", 0, 16, .rw, .d, (.val 0), .no, .none⟩,
       ⟨"SAFE_SKIP", 16, 16, .rw, .d, (.val 0), .no, .none⟩]⟩,
    ⟨"HV_RAMP", 0x21000100, [(0x20, 28)],
      [⟨"TARGET", 0, 16, .rw, .d, (.val 0), .no, .none⟩,
       ⟨"N", 16, 16, .rw, .d, (.val 0), .no, .none⟩]⟩,
    ⟨"HV_VALUE", 0x21000104, [(0x20, 28)],
      [⟨"VALUE", 0, 16, .ro, .d, (.val 0), .no, .none⟩,
       ⟨"RAMPING", 16, 1, .ro, .d, (.val 0), .no, .none⟩,
       ⟨"SETTLED", 17, 1, .ro, .d, (.val 0), .no, .none⟩]⟩,
    ⟨"HV_SAFE", 0x21000108, [(0x20, 28)],
      [⟨"ORD", 0, 3, .rw, .l, (.val 0), .no, .none⟩,
       ⟨"N", 16, 16, .rw, .l, (.val 0), .no, .none⟩]⟩,
    ⟨"HV_WIN", 0x2100010C, [(0x20, 28)],
      [⟨"TOL", 0, 12, .rw, .s, (.val 64), .no, .none⟩,
       ⟨"WIN_N", 12, 4, .rw, .s, (.val 4), .no, (.subst 0 1)⟩,
       ⟨"EN", 16, 1, .rw, .s, (.val 0), .no, .none⟩,
       ⟨"SETTLE", 24, 8, .rw, .s, (.val 16), .no, .none⟩]⟩,
    ⟨"HV_SGAIN", 0x21000110, [(0x20, 28)],
      [⟨"GAIN", 0, 16, .rw, .s, (.val 4096), .no, .none⟩,
       ⟨"OFS", 16, 16, .rw, .s, (.val 0), .no, .none⟩]⟩,
    ⟨"HV_SENSE", 0x21000114, [(0x20, 28)],
      [⟨"CODE", 0, 12, .ro, .d, (.val 0), .no, .none⟩,
       ⟨"RUN", 12, 4, .ro, .d, (.val 0), .no, .none⟩]⟩,
    ⟨"HV_AC_INC", 0x21000118, [(0x20, 28)],
      [⟨"INC", 0, 32, .rw, .s, (.val 5497558), .no, (.clamp 5497558 54975581)⟩]⟩ ]

/-- Registers of block FUS (spec/11_fuser_hv_media.md). -/
def regsFUS : List RegDesc :=
  [ ⟨"FUS_CTRL", 0x21100000, [],
      [⟨"IRQ_EN", 0, 5, .rw, .d, (.val 0), .no, .none⟩,
       ⟨"CTL_MS", 8, 8, .rw, .l, (.val 20), .no, (.subst 0 20)⟩]⟩,
    ⟨"FUS_STATUS", 0x21100004, [],
      [⟨"ZC_OK", 0, 1, .ro, .d, (.val 0), .no, .none⟩,
       ⟨"CUT", 1, 1, .ro, .d, (.val 0), .crst, .none⟩,
       ⟨"CUT_ZONE", 8, 8, .ro, .d, (.val 0), .crst, .none⟩]⟩,
    ⟨"FUS_IRQ_STATUS", 0x21100008, [],
      [⟨"WINDOW", 0, 1, .w1c, .d, (.val 0), .no, .none⟩,
       ⟨"FAULT", 1, 1, .w1c, .d, (.val 0), .no, .none⟩,
       ⟨"CUT", 2, 1, .w1c, .d, (.val 0), .no, .none⟩,
       ⟨"ZC_LOSS", 3, 1, .w1c, .d, (.val 0), .no, .none⟩,
       ⟨"DEFER", 4, 1, .w1c, .d, (.val 0), .no, .none⟩]⟩,
    ⟨"FUS_MAINS", 0x2110000C, [],
      [⟨"T_M", 0, 32, .ro, .d, (.val 0), .no, .none⟩]⟩,
    ⟨"FUS_ZC", 0x21100010, [],
      [⟨"FILT", 0, 16, .rw, .l, (.val 1000), .no, .none⟩,
       ⟨"POL", 16, 1, .rw, .l, (.val 0), .no, .none⟩]⟩,
    ⟨"FUS_GATE", 0x21100014, [],
      [⟨"DLY", 0, 16, .rw, .s, (.val 1250), .no, .special⟩,
       ⟨"W", 16, 16, .rw, .s, (.val 2000), .no, .none⟩]⟩,
    ⟨"FUS_SEQ", 0x21100018, [],
      [⟨"MAX_ON", 0, 4, .rw, .s, (.val 8), .no, .none⟩,
       ⟨"STEP_MAX", 4, 4, .rw, .s, (.val 8), .no, (.subst 0 1)⟩,
       ⟨"CHG_MAX", 8, 8, .rw, .s, (.val 255), .no, (.subst 0 1)⟩]⟩,
    ⟨"FUS_CNT", 0x2110001C, [],
      [⟨"DEFER", 0, 16, .rw, .d, (.val 0), .no, .none⟩,
       ⟨"ZC_LOSS", 16, 16, .rw, .d, (.val 0), .no, .none⟩]⟩,
    ⟨"FUS_LIN", 0x21100100, [(0x4, 33)],
      [⟨"A", 0, 16, .rw, .l, (.val 0), .no, .none⟩,
       ⟨"B", 16, 16, .rw, .l, (.val 0), .no, .none⟩]⟩,
    ⟨"FUS_OT", 0x21100200, [(0x4, 8)],
      [⟨"THRESH", 0, 12, .rw, .l, (.val 0), .crst, .none⟩,
       ⟨"POL", 12, 1, .rw, .l, (.val 0), .crst, .none⟩,
       ⟨"EN", 13, 1, .rw, .l, (.val 0), .crst, .none⟩]⟩,
    ⟨"FUS_ZCFG", 0x21101000, [(0x40, 8)],
      [⟨"DRIVE", 0, 2, .rw, .l, (.val 0), .no, (.subst 3 0)⟩,
       ⟨"LIN", 2, 1, .rw, .l, (.val 0), .no, .none⟩,
       ⟨"SAFE_ACT", 3, 1, .rw, .d, (.val 0), .no, .none⟩]⟩,
    ⟨"FUS_ZCMD", 0x21101004, [(0x40, 8)],
      [⟨"ON", 0, 1, .wo, .d, (.val 0), .no, .none⟩,
       ⟨"OFF", 1, 1, .wo, .d, (.val 0), .no, .none⟩,
       ⟨"CLEAR", 2, 1, .wo, .d, (.val 0), .no, .none⟩]⟩,
    ⟨"FUS_ZSTATE", 0x21101008, [(0x40, 8)],
      [⟨"STATE", 0, 2, .ro, .d, (.val 0), .no, .none⟩,
       ⟨"REFUSED", 2, 1, .w1c, .d, (.val 0), .no, .none⟩]⟩,
    ⟨"FUS_SP", 0x2110100C, [(0x40, 8)],
      [⟨"SP", 0, 16, .rw, .s, (.val 0), .no, .none⟩]⟩,
    ⟨"FUS_TEMP", 0x21101010, [(0x40, 8)],
      [⟨"T", 0, 16, .ro, .d, (.val 0), .no, .none⟩,
       ⟨"M", 16, 12, .ro, .d, (.val 0), .no, .none⟩]⟩ ] ++
  [ ⟨"FUS_ZGAIN", 0x21101014, [(0x40, 8)],
      [⟨"KP", 0, 16, .rw, .s, (.val 0), .no, .none⟩,
       ⟨"KI", 16, 16, .rw, .s, (.val 0), .no, .none⟩]⟩,
    ⟨"FUS_TOL", 0x21101018, [(0x40, 8)],
      [⟨"TOL", 0, 16, .rw, .s, (.val 50), .no, .none⟩,
       ⟨"STABLE", 16, 8, .rw, .s, (.val 5), .no, .none⟩]⟩,
    ⟨"FUS_RATE", 0x2110101C, [(0x40, 8)],
      [⟨"UP", 0, 16, .rw, .d, (.val 0), .no, .none⟩,
       ⟨"DOWN", 16, 16, .rw, .d, (.val 0), .no, .none⟩]⟩,
    ⟨"FUS_SENS", 0x21101020, [(0x40, 8)],
      [⟨"LO", 0, 12, .rw, .l, (.val 16), .no, .none⟩,
       ⟨"HI", 16, 12, .rw, .l, (.val 4079), .no, .none⟩]⟩,
    ⟨"FUS_IND", 0x21101024, [(0x40, 8)],
      [⟨"IND_T", 0, 21, .rw, .l, (.val 320000), .no, (.mult 32 6400 1280000 320000)⟩]⟩,
    ⟨"FUS_SLEW", 0x21101028, [(0x40, 8)],
      [⟨"SLEW", 0, 17, .rw, .s, (.val 65536), .no, .none⟩]⟩,
    ⟨"FUS_DEMAND", 0x2110102C, [(0x40, 8)],
      [⟨"D", 0, 17, .ro, .d, (.val 0), .no, .none⟩]⟩,
    ⟨"FUS_READY_LO", 0x21101030, [(0x40, 8)],
      [⟨"READY_AT", 0, 32, .ro, .d, (.val 4294967295), .no, .none⟩]⟩,
    ⟨"FUS_READY_HI", 0x21101034, [(0x40, 8)],
      [⟨"READY_AT", 0, 32, .ro, .d, (.val 4294967295), .no, .none⟩]⟩ ]

/-- Registers of block SNS (spec/11_fuser_hv_media.md). -/
def regsSNS : List RegDesc :=
  [ ⟨"SNS_CTRL", 0x21200000, [],
      [⟨"IRQ_EN", 0, 2, .rw, .d, (.val 0), .no, .none⟩]⟩,
    ⟨"SNS_IRQ_STATUS", 0x21200004, [],
      [⟨"EARLY", 0, 1, .w1c, .d, (.val 0), .no, .none⟩,
       ⟨"LATE", 1, 1, .w1c, .d, (.val 0), .no, .none⟩]⟩,
    ⟨"SNS_OUT_LO", 0x21200010, [],
      [⟨"OUT", 0, 32, .rw, .d, (.val 0), .no, .none⟩]⟩,
    ⟨"SNS_OUT_HI", 0x21200014, [],
      [⟨"OUT", 0, 32, .rw, .d, (.val 0), .no, .none⟩]⟩,
    ⟨"SNS_OSAFE_EN_LO", 0x21200018, [],
      [⟨"EN", 0, 32, .rw, .d, (.val 0), .no, .none⟩]⟩,
    ⟨"SNS_OSAFE_EN_HI", 0x2120001C, [],
      [⟨"EN", 0, 32, .rw, .d, (.val 0), .no, .none⟩]⟩,
    ⟨"SNS_OSAFE_LVL_LO", 0x21200020, [],
      [⟨"LVL", 0, 32, .rw, .d, (.val 0), .no, .none⟩]⟩,
    ⟨"SNS_OSAFE_LVL_HI", 0x21200024, [],
      [⟨"LVL", 0, 32, .rw, .d, (.val 0), .no, .none⟩]⟩,
    ⟨"SNS_AN", 0x21200100, [(0x4, 64)],
      [⟨"CODE", 0, 12, .ro, .d, (.val 0), .no, .none⟩,
       ⟨"ROUND", 16, 16, .ro, .d, (.val 0), .no, .none⟩]⟩,
    ⟨"SNS_IN_CFG", 0x21201000, [(0x20, 96)],
      [⟨"FILT", 0, 16, .rw, .l, (.val 0), .no, .none⟩,
       ⟨"ACT_LOW", 16, 1, .rw, .l, (.val 0), .no, .none⟩]⟩,
    ⟨"SNS_IN_STATE", 0x21201004, [(0x20, 96)],
      [⟨"ACTIVE", 0, 1, .ro, .d, (.val 0), .no, .none⟩,
       ⟨"OPEN", 1, 3, .ro, .d, (.val 0), .no, .none⟩,
       ⟨"LAST", 4, 2, .ro, .d, (.val 0), .no, .none⟩,
       ⟨"EDGES", 16, 16, .rw, .d, (.val 0), .no, .none⟩]⟩,
    ⟨"SNS_TS_LEAD_LO", 0x21201008, [(0x20, 96)],
      [⟨"TS", 0, 32, .ro, .d, (.val 0), .no, .none⟩]⟩,
    ⟨"SNS_TS_LEAD_HI", 0x2120100C, [(0x20, 96)],
      [⟨"TS", 0, 32, .ro, .d, (.val 0), .no, .none⟩]⟩,
    ⟨"SNS_TS_TRAIL_LO", 0x21201010, [(0x20, 96)],
      [⟨"TS", 0, 32, .ro, .d, (.val 0), .no, .none⟩]⟩,
    ⟨"SNS_TS_TRAIL_HI", 0x21201014, [(0x20, 96)],
      [⟨"TS", 0, 32, .ro, .d, (.val 0), .no, .none⟩]⟩ ]

/-- Registers of block LINE (spec/15_host_line.md). -/
def regsLINE : List RegDesc :=
  [ ⟨"LINE_CTRL", 0x21300000, [],
      [⟨"EN", 0, 1, .rw, .d, (.val 0), .no, .none⟩,
       ⟨"MASTER", 1, 1, .rw, .l, (.val 0), .no, .none⟩,
       ⟨"IRQ_EN", 2, 7, .rw, .d, (.val 0), .no, .none⟩]⟩,
    ⟨"LINE_STATUS", 0x21300004, [],
      [⟨"PORT_A", 0, 2, .ro, .d, (.val 0), .no, .none⟩,
       ⟨"PORT_B", 2, 2, .ro, .d, (.val 0), .no, .none⟩,
       ⟨"TOPO", 4, 2, .ro, .d, (.val 0), .no, .none⟩,
       ⟨"TIME", 6, 3, .ro, .d, (.val 0), .no, .none⟩,
       ⟨"STEP_BLOCKED", 9, 1, .w1c, .d, (.val 0), .no, .none⟩,
       ⟨"DUP", 10, 1, .ro, .d, (.val 0), .no, .none⟩,
       ⟨"BAND", 11, 3, .ro, .d, (.val 0), .no, .none⟩]⟩,
    ⟨"LINE_IRQ_STATUS", 0x21300008, [],
      [⟨"BREAK", 0, 1, .w1c, .d, (.val 0), .no, .none⟩,
       ⟨"TIME_LOSS", 1, 1, .w1c, .d, (.val 0), .no, .none⟩,
       ⟨"DUP_ID", 2, 1, .w1c, .d, (.val 0), .no, .none⟩,
       ⟨"CONGEST", 3, 1, .w1c, .d, (.val 0), .no, .none⟩,
       ⟨"CRC", 4, 1, .w1c, .d, (.val 0), .no, .none⟩,
       ⟨"LOCK", 5, 1, .w1c, .d, (.val 0), .no, .none⟩,
       ⟨"TIME_AHEAD", 6, 1, .w1c, .d, (.val 0), .no, .none⟩]⟩,
    ⟨"LINE_SYNC_INT", 0x2130000C, [],
      [⟨"TICKS", 0, 32, .rw, .l, (.val 6400000), .no, (.range 640000 64000000 6400000)⟩]⟩,
    ⟨"LINE_TIME_OFS", 0x21300010, [],
      [⟨"E", 0, 32, .ro, .d, (.val 0), .no, .none⟩]⟩,
    ⟨"LINE_TIME_RATE", 0x21300014, [],
      [⟨"R", 0, 32, .ro, .d, (.val 0), .no, .none⟩]⟩,
    ⟨"LINE_TIME_SRC", 0x21300018, [],
      [⟨"MASTER", 0, 10, .ro, .d, (.val 0), .no, .none⟩,
       ⟨"H", 16, 10, .ro, .d, (.val 0), .no, .none⟩,
       ⟨"PORT", 26, 1, .ro, .d, (.val 0), .no, .none⟩]⟩,
    ⟨"LINE_DELAY", 0x21300020, [(0x4, 2)],
      [⟨"DELAY", 0, 24, .ro, .d, (.val 0), .no, .none⟩]⟩,
    ⟨"LINE_CNT_A", 0x21300030, [],
      [⟨"CRC", 0, 16, .rw, .d, (.val 0), .no, .none⟩,
       ⟨"TXDROP", 16, 16, .rw, .d, (.val 0), .no, .none⟩]⟩,
    ⟨"LINE_CNT_B", 0x21300034, [],
      [⟨"NO_DEST", 0, 16, .rw, .d, (.val 0), .no, .none⟩,
       ⟨"DROP_END", 16, 16, .rw, .d, (.val 0), .no, .none⟩]⟩,
    ⟨"LINE_CNT_C", 0x21300038, [],
      [⟨"NOSUB", 0, 16, .rw, .d, (.val 0), .no, .none⟩,
       ⟨"COALESCED", 16, 16, .rw, .d, (.val 0), .no, .none⟩]⟩,
    ⟨"LINE_CNT_D", 0x2130003C, [],
      [⟨"PLT_LOST", 0, 16, .rw, .d, (.val 0), .no, .none⟩,
       ⟨"PLT_REJECT", 16, 16, .rw, .d, (.val 0), .no, .none⟩]⟩,
    ⟨"LINE_PUB", 0x21300100, [(0x4, 32)],
      [⟨"PUB", 0, 32, .rw, .d, (.val 0), .brst, .none⟩]⟩,
    ⟨"LINE_PLT", 0x21300200, [(0x4, 64)],
      [⟨"RDEV", 0, 10, .rw, .l, (.val 0), .brst, .none⟩,
       ⟨"RCH", 10, 6, .rw, .l, (.val 0), .brst, .none⟩,
       ⟨"VALID", 16, 1, .rw, .l, (.val 0), .brst, .none⟩]⟩,
    ⟨"LINE_SUB", 0x21301000, [(0x8, 256)],
      [⟨"POINT", 0, 20, .rw, .d, (.val 0), .brst, .none⟩,
       ⟨"FRESH", 30, 1, .ro, .d, (.val 0), .no, .none⟩,
       ⟨"VALID", 31, 1, .rw, .d, (.val 0), .brst, .none⟩]⟩ ] ++
  [ ⟨"LINE_COPY", 0x21301004, [(0x8, 256)],
      [⟨"VALUE", 0, 32, .ro, .d, (.val 0), .no, .none⟩]⟩ ]

/-- Registers of block HST (spec/15_host_line.md). -/
def regsHST : List RegDesc :=
  [ ⟨"HST_CTRL", 0x21400000, [],
      [⟨"LTSSM_EN", 0, 1, .rw, .d, (.val 0), .no, .none⟩,
       ⟨"IRQ_EN", 1, 5, .rw, .d, (.val 0), .no, .none⟩]⟩,
    ⟨"HST_STATUS", 0x21400004, [],
      [⟨"DL_UP", 0, 1, .ro, .d, (.val 0), .no, .none⟩,
       ⟨"SPEED", 1, 3, .ro, .d, (.val 0), .no, .none⟩,
       ⟨"WIDTH", 4, 4, .ro, .d, (.val 0), .no, .none⟩,
       ⟨"BME", 8, 1, .ro, .d, (.val 0), .no, .none⟩,
       ⟨"PERST", 9, 1, .ro, .d, (.val 0), .no, .none⟩,
       ⟨"D3HOT", 10, 1, .ro, .d, (.val 0), .no, .none⟩,
       ⟨"MSIX_EN", 11, 1, .ro, .d, (.val 0), .no, .none⟩]⟩,
    ⟨"HST_IRQ_STATUS", 0x21400008, [],
      [⟨"LINK_DOWN", 0, 1, .w1c, .d, (.val 0), .no, .none⟩,
       ⟨"REFUSED", 1, 1, .w1c, .d, (.val 0), .no, .none⟩,
       ⟨"AER_COR", 2, 1, .w1c, .d, (.val 0), .no, .none⟩,
       ⟨"AER_UNCOR", 3, 1, .w1c, .d, (.val 0), .no, .none⟩,
       ⟨"FLR", 4, 1, .w1c, .d, (.val 0), .no, .none⟩]⟩,
    ⟨"HST_SUBSYS", 0x2140000C, [],
      [⟨"SSVID", 0, 16, .rw, .l, (.val 0), .no, .none⟩,
       ⟨"SSID", 16, 16, .rw, .l, (.val 0), .no, .none⟩]⟩,
    ⟨"HST_ERR_ADDR", 0x21400010, [],
      [⟨"OFS", 0, 26, .ro, .d, (.val 0), .no, .none⟩,
       ⟨"BAR", 26, 2, .ro, .d, (.val 0), .no, .none⟩,
       ⟨"READ", 28, 1, .ro, .d, (.val 0), .no, .none⟩]⟩,
    ⟨"HST_CNT", 0x21400014, [],
      [⟨"COR", 0, 16, .rw, .d, (.val 0), .no, .none⟩,
       ⟨"UNCOR", 16, 16, .rw, .d, (.val 0), .no, .none⟩]⟩,
    ⟨"HST_HWIN_LO", 0x21400040, [(0x10, 4)],
      [⟨"BASE", 12, 20, .rw, .l, (.val 0), .no, .none⟩]⟩,
    ⟨"HST_HWIN_HI", 0x21400044, [(0x10, 4)],
      [⟨"BASE", 0, 32, .rw, .l, (.val 0), .no, .none⟩]⟩,
    ⟨"HST_HWIN_CFG", 0x21400048, [(0x10, 4)],
      [⟨"LOG2", 0, 6, .rw, .l, (.val 0), .no, .special⟩,
       ⟨"RD", 6, 1, .rw, .l, (.val 0), .no, .none⟩,
       ⟨"WR", 7, 1, .rw, .l, (.val 0), .no, .none⟩]⟩,
    ⟨"HST_MSIX_SRC", 0x21400100, [(0x4, 64)],
      [⟨"SRC", 0, 6, .rw, .d, .msix, .no, .special⟩]⟩,
    ⟨"HST_MSIX_REARM", 0x21400200, [],
      [⟨"VEC", 0, 6, .wo, .d, (.val 0), .no, .none⟩]⟩,
    ⟨"HST_DB_LO", 0x21400210, [],
      [⟨"DB", 0, 32, .w1c, .d, (.val 0), .no, .none⟩]⟩,
    ⟨"HST_DB_HI", 0x21400214, [],
      [⟨"DB", 0, 32, .w1c, .d, (.val 0), .no, .none⟩]⟩,
    ⟨"HST_DB_SET_LO", 0x21400218, [],
      [⟨"SET", 0, 32, .wo, .d, (.val 0), .no, .none⟩]⟩,
    ⟨"HST_DB_SET_HI", 0x2140021C, [],
      [⟨"SET", 0, 32, .wo, .d, (.val 0), .no, .none⟩]⟩ ]

/-- Registers of block SEC (spec/16_trust_ledger_background.md). -/
def regsSEC : List RegDesc :=
  [ ⟨"SEC_CTRL", 0x21500000, [],
      [⟨"IRQ_EN", 0, 3, .rw, .d, (.val 0), .no, .none⟩,
       ⟨"RELEASE1", 8, 1, .w1s, .d, (.val 0), .no, .none⟩]⟩,
    ⟨"SEC_BOOT", 0x21500004, [],
      [⟨"STAGE", 0, 2, .ro, .d, (.val 0), .no, .none⟩,
       ⟨"LOCKED", 2, 1, .ro, .d, (.val 0), .no, .none⟩,
       ⟨"SLOT", 3, 1, .ro, .d, (.val 0), .no, .none⟩,
       ⟨"CAUSE", 4, 4, .ro, .d, (.val 0), .no, .none⟩,
       ⟨"DRAM_READY", 8, 1, .ro, .d, (.val 0), .no, .none⟩]⟩,
    ⟨"SEC_STAGE_NEXT", 0x21500008, [],
      [⟨"STAGE", 0, 2, .wo, .d, (.val 0), .no, .none⟩]⟩,
    ⟨"SEC_CORE1_ENTRY", 0x2150000C, [],
      [⟨"ADDR", 0, 32, .rw, .d, (.val 0), .no, .none⟩]⟩,
    ⟨"SEC_LC", 0x21500010, [],
      [⟨"STATE", 0, 3, .ro, .d, (.val 0), .por, .none⟩,
       ⟨"KEY", 3, 1, .ro, .d, (.val 0), .por, .none⟩,
       ⟨"OEM", 4, 1, .ro, .d, (.val 0), .por, .none⟩,
       ⟨"CERT", 5, 1, .ro, .d, (.val 0), .por, .none⟩]⟩,
    ⟨"SEC_UID_LO", 0x21500014, [],
      [⟨"UID", 0, 32, .ro, .d, (.val 0), .por, .none⟩]⟩,
    ⟨"SEC_UID_HI", 0x21500018, [],
      [⟨"UID", 0, 32, .ro, .d, (.val 0), .por, .none⟩]⟩,
    ⟨"SEC_RB", 0x21500020, [(0x4, 4)],
      [⟨"COUNT", 0, 7, .ro, .d, (.val 0), .por, .none⟩]⟩,
    ⟨"SEC_RB_ADV", 0x21500030, [],
      [⟨"COUNTER", 0, 2, .wo, .d, (.val 0), .no, .none⟩]⟩,
    ⟨"SEC_CMD", 0x21500040, [],
      [⟨"OP", 0, 4, .wo, .d, (.val 0), .no, .none⟩]⟩,
    ⟨"SEC_ARG", 0x21500044, [],
      [⟨"ADDR", 4, 28, .rw, .d, (.val 0), .no, .none⟩]⟩,
    ⟨"SEC_ARG2", 0x21500048, [],
      [⟨"VALUE", 0, 16, .rw, .d, (.val 0), .no, .none⟩]⟩,
    ⟨"SEC_CMD_STATUS", 0x2150004C, [],
      [⟨"STATE", 0, 2, .ro, .d, (.val 0), .no, .none⟩,
       ⟨"REASON", 4, 4, .ro, .d, (.val 0), .no, .none⟩]⟩,
    ⟨"SEC_METER_PEND", 0x21500050, [],
      [⟨"PENDING", 0, 32, .ro, .d, (.val 0), .por, .none⟩]⟩,
    ⟨"SEC_METER_SEQ", 0x21500054, [],
      [⟨"NEXT", 0, 32, .ro, .d, (.val 0), .por, .none⟩]⟩ ] ++
  [ ⟨"SEC_IRQ_STATUS", 0x21500058, [],
      [⟨"GATE", 0, 1, .w1c, .d, (.val 0), .no, .none⟩,
       ⟨"DONE", 1, 1, .w1c, .d, (.val 0), .no, .none⟩,
       ⟨"REFUSED", 2, 1, .w1c, .d, (.val 0), .no, .none⟩]⟩,
    ⟨"SEC_GATE_ERR", 0x21500060, [],
      [⟨"INIT", 0, 3, .ro, .d, (.val 0), .no, .none⟩,
       ⟨"WRITE", 3, 1, .ro, .d, (.val 0), .no, .none⟩,
       ⟨"FETCH", 4, 1, .ro, .d, (.val 0), .no, .none⟩]⟩,
    ⟨"SEC_GATE_ADDR_LO", 0x21500064, [],
      [⟨"ADDR", 0, 32, .ro, .d, (.val 0), .no, .none⟩]⟩,
    ⟨"SEC_GATE_ADDR_HI", 0x21500068, [],
      [⟨"ADDR", 0, 8, .ro, .d, (.val 0), .no, .none⟩]⟩,
    ⟨"SEC_MEAS", 0x21500100, [(0x20, 4), (0x4, 8)],
      [⟨"M", 0, 32, .ro, .d, (.val 0), .no, .none⟩]⟩,
    ⟨"SEC_GATE_OPEN", 0x21500200, [],
      [⟨"OPEN", 0, 7, .rw, .d, (.val 3), .no, .none⟩]⟩,
    ⟨"SEC_GATE_BASE", 0x21501000, [(0x200, 7), (0x10, 32)],
      [⟨"BASE", 0, 28, .rw, .d, (.val 0), .no, .none⟩]⟩,
    ⟨"SEC_GATE_LIM", 0x21501004, [(0x200, 7), (0x10, 32)],
      [⟨"LIMIT", 0, 28, .rw, .d, (.val 0), .no, .none⟩]⟩,
    ⟨"SEC_GATE_PERM", 0x21501008, [(0x200, 7), (0x10, 32)],
      [⟨"EN", 0, 1, .rw, .d, (.val 0), .no, .none⟩,
       ⟨"R", 1, 1, .rw, .d, (.val 0), .no, .none⟩,
       ⟨"W", 2, 1, .rw, .d, (.val 0), .no, .none⟩,
       ⟨"X", 3, 1, .rw, .d, (.val 0), .no, .none⟩]⟩ ]

/-- Registers of block LDG (spec/16_trust_ledger_background.md). -/
def regsLDG : List RegDesc :=
  [ ⟨"LDG_CTRL", 0x21600000, [],
      [⟨"IRQ_EN", 0, 5, .rw, .d, (.val 0), .no, .none⟩]⟩,
    ⟨"LDG_STATUS", 0x21600004, [],
      [⟨"BUSY", 0, 1, .ro, .d, (.val 0), .no, .none⟩,
       ⟨"WIPE_PEND", 1, 1, .ro, .d, (.val 0), .por, .none⟩,
       ⟨"READ_ONLY", 2, 1, .ro, .d, (.val 0), .por, .none⟩,
       ⟨"SIDINGS_FULL", 3, 1, .ro, .d, (.val 0), .por, .none⟩,
       ⟨"RESERVE", 8, 8, .ro, .d, (.val 128), .por, .none⟩]⟩,
    ⟨"LDG_IRQ_STATUS", 0x21600008, [],
      [⟨"VERIFY_FAIL", 0, 1, .w1c, .d, (.val 0), .no, .none⟩,
       ⟨"RESERVE_LOW", 1, 1, .w1c, .d, (.val 0), .no, .none⟩,
       ⟨"LEDGER_FAIL", 2, 1, .w1c, .d, (.val 0), .no, .none⟩,
       ⟨"METER_FULL", 3, 1, .w1c, .d, (.val 0), .no, .none⟩,
       ⟨"LOST", 4, 1, .w1c, .d, (.val 0), .no, .none⟩]⟩,
    ⟨"LDG_WL", 0x2160000C, [],
      [⟨"DELTA", 0, 32, .rw, .d, (.val 65536), .no, (.subst 0 1)⟩]⟩,
    ⟨"LDG_CNT", 0x21600010, [],
      [⟨"LOST", 0, 16, .rw, .d, (.val 0), .no, .none⟩,
       ⟨"MOVES", 16, 16, .rw, .d, (.val 0), .no, .none⟩]⟩,
    ⟨"LDG_METER_TAIL", 0x21600014, [],
      [⟨"TAIL", 0, 14, .rw, .d, (.val 0), .por, .special⟩]⟩,
    ⟨"LDG_HEAD", 0x21600020, [(0x4, 8)],
      [⟨"UNIT", 0, 16, .ro, .d, (.val 0), .por, .none⟩]⟩,
    ⟨"LDG_APP_BODY", 0x21600040, [(0x4, 3)],
      [⟨"BODY", 0, 32, .rw, .d, (.val 0), .no, .none⟩]⟩,
    ⟨"LDG_APP_KIND", 0x2160004C, [],
      [⟨"KIND", 0, 8, .wo, .d, (.val 0), .no, .none⟩]⟩,
    ⟨"LDG_APP_STATUS", 0x21600050, [],
      [⟨"STATE", 0, 2, .ro, .d, (.val 0), .no, .none⟩]⟩ ]

/-- Registers of block BKG (spec/16_trust_ledger_background.md). -/
def regsBKG : List RegDesc :=
  [ ⟨"BKG_CTRL", 0x21700000, [],
      [⟨"SRAM_EN", 0, 1, .rw, .d, (.val 1), .no, .none⟩,
       ⟨"DRAM_EN", 1, 1, .rw, .d, (.val 1), .no, .none⟩,
       ⟨"TDC_EN", 2, 1, .rw, .d, (.val 1), .no, .none⟩,
       ⟨"BEAM_EN", 3, 1, .rw, .d, (.val 0), .no, .none⟩,
       ⟨"WEAR_EN", 4, 1, .rw, .d, (.val 1), .no, .none⟩,
       ⟨"TEL_EN", 5, 1, .rw, .d, (.val 0), .no, .none⟩,
       ⟨"TEL_SIGN", 6, 1, .rw, .d, (.val 0), .no, .none⟩,
       ⟨"IRQ_EN", 8, 5, .rw, .d, (.val 0), .no, .none⟩]⟩,
    ⟨"BKG_IRQ_STATUS", 0x21700004, [],
      [⟨"SRAM_UNCOR", 0, 1, .w1c, .d, (.val 0), .no, .none⟩,
       ⟨"REPAIR", 1, 1, .w1c, .d, (.val 0), .no, .none⟩,
       ⟨"REPAIR_EXH", 2, 1, .w1c, .d, (.val 0), .no, .none⟩,
       ⟨"PASS_LATE", 3, 1, .w1c, .d, (.val 0), .no, .none⟩,
       ⟨"BEAM_DONE", 4, 1, .w1c, .d, (.val 0), .no, .none⟩]⟩,
    ⟨"BKG_STATUS", 0x21700008, [],
      [⟨"REPAIR_FREE", 0, 12, .ro, .d, (.val 2048), .por, .none⟩]⟩,
    ⟨"BKG_PERIODS", 0x2170000C, [],
      [⟨"WEAR_S", 0, 16, .rw, .l, (.val 60), .no, (.subst 0 1)⟩,
       ⟨"TEL_MS", 16, 16, .rw, .d, (.val 1000), .no, (.atLeast 100)⟩]⟩,
    ⟨"BKG_DRAM_PASS", 0x21700010, [],
      [⟨"S", 0, 16, .rw, .l, (.val 3600), .no, (.atLeast 60)⟩]⟩,
    ⟨"BKG_ROW", 0x21700014, [],
      [⟨"LIMIT", 0, 4, .rw, .l, (.val 4), .no, (.subst 0 1)⟩]⟩,
    ⟨"BKG_SRAM_CNT", 0x21700018, [],
      [⟨"COR", 0, 16, .rw, .d, (.val 0), .no, .none⟩,
       ⟨"UNCOR", 16, 16, .rw, .d, (.val 0), .no, .none⟩]⟩,
    ⟨"BKG_SRAM_PASSES", 0x2170001C, [],
      [⟨"COUNT", 0, 32, .ro, .d, (.val 0), .no, .none⟩]⟩,
    ⟨"BKG_UNCOR_ADDR", 0x21700020, [],
      [⟨"ADDR", 0, 32, .ro, .d, (.val 0), .no, .none⟩]⟩,
    ⟨"BKG_TEL_BASE", 0x21700024, [],
      [⟨"ADDR", 7, 25, .rw, .d, (.val 0), .no, .none⟩]⟩,
    ⟨"BKG_TEL_CFG", 0x21700028, [],
      [⟨"LOG2", 0, 4, .rw, .d, (.val 4), .no, (.range 2 10 4)⟩]⟩,
    ⟨"BKG_TEL_HEAD", 0x2170002C, [],
      [⟨"HEAD", 0, 10, .ro, .d, (.val 0), .no, .none⟩]⟩,
    ⟨"BKG_TEL_CNT", 0x21700030, [],
      [⟨"UNSIGNED", 0, 16, .rw, .d, (.val 0), .no, .none⟩]⟩,
    ⟨"BKG_BEAM", 0x21700100, [(0x4, 6)],
      [⟨"EMITTER", 0, 6, .ro, .d, (.val 0), .no, .none⟩,
       ⟨"CURRENT", 16, 12, .ro, .d, (.val 0), .no, .none⟩]⟩ ]

namespace Reg

def CLK_ROOT : Nat := 0x20100000
def CLK_TB_LO : Nat := 0x20100010
def CLK_TB_HI : Nat := 0x20100014
def JCT_STATUS : Nat := 0x20700000
def JCT_AGE_SAT : Nat := 0x20700004
def SYS_MODE : Nat := 0x20000010
def SYS_MODE_REQ : Nat := 0x20000014
def SYS_SVC_MOTION : Nat := 0x20000030
def SYS_SVC_MOTION_STP : Nat := 0x20000034
def TT_CTRL : Nat := 0x20500000
def TT_STATUS : Nat := 0x20500004
def TT_SUBMIT : Nat := 0x20500008
def TT_RESQ_BASE : Nat := 0x20500010
def TT_RESQ_CFG : Nat := 0x20500014
def TT_RESQ_HEAD : Nat := 0x20500018
def TT_RESQ_TAIL : Nat := 0x2050001C
def TT_REQ : Nat := 0x20500020
def TT_REQ_STATUS : Nat := 0x20500024
def TT_WD_GUARD : Nat := 0x20500028
def TT_UTIL_MAX : Nat := 0x20500030
def TT_DEC_CAP : Nat := 0x20500034
def TT_PWR_BUDGET : Nat := 0x20500038
def TT_PWR_LIMIT : Nat := 0x2050003C
def TT_PWR_BASE : Nat := 0x20500040
def TT_THROTTLE : Nat := 0x20500044
def TT_PITCH_MIN : Nat := 0x20500048
def TT_CNT_ADMIT : Nat := 0x20500080
def TT_CNT_REFUSE : Nat := 0x20500084
def TT_CNT_DELIVER : Nat := 0x20500088
def TT_CNT_SPOIL : Nat := 0x2050008C
def TT_CNT_WITHDRAW : Nat := 0x20500090
def TT_CNT_LATE : Nat := 0x20500094
def TT_CNT_SKIP : Nat := 0x20500098
def TT_CHECK_MAX : Nat := 0x2050009C
def TT_AXIS_VMAX (i : Nat) : Nat := 0x20500200 + 0x8 * i
def TT_AXIS_AMAX (i : Nat) : Nat := 0x20500204 + 0x8 * i
def TT_SHEET (i : Nat) : Nat := 0x20501000 + 0x4 * i
def SQ_IRQ_EN : Nat := 0x20600000
def SQ_IRQ_STATUS : Nat := 0x20600004
def SQ_STATUS : Nat := 0x20600008
def SQ_SUBST : Nat := 0x20600010
def SQ_SUBST_STATUS : Nat := 0x20600014
def SQ_CORE_FAIL : Nat := 0x20600018
def SQ_CORE_MAP (i : Nat) : Nat := 0x20600100 + 0x4 * i
def SQ_SLOT_CFG (i j : Nat) : Nat := 0x20601000 + 0x200 * i + 0x40 * j
def SQ_SLOT_ENTRY (i j : Nat) : Nat := 0x20601004 + 0x200 * i + 0x40 * j
def SQ_SLOT_FRAME (i j : Nat) : Nat := 0x20601008 + 0x200 * i + 0x40 * j
def SQ_SLOT_CTRL (i j : Nat) : Nat := 0x2060100C + 0x200 * i + 0x40 * j
def SQ_SLOT_PERIOD (i j : Nat) : Nat := 0x20601010 + 0x200 * i + 0x40 * j
def SQ_SLOT_DEADLINE (i j : Nat) : Nat := 0x20601014 + 0x200 * i + 0x40 * j
def SQ_SLOT_WCET (i j : Nat) : Nat := 0x20601018 + 0x200 * i + 0x40 * j
def SQ_SLOT_DROPCFG (i j : Nat) : Nat := 0x2060101C + 0x200 * i + 0x40 * j
def SQ_SLOT_STATE (i j : Nat) : Nat := 0x20601020 + 0x200 * i + 0x40 * j
def SQ_SLOT_DROPS (i j : Nat) : Nat := 0x20601024 + 0x200 * i + 0x40 * j
def SQ_SLOT_HIST (i j : Nat) : Nat := 0x20601028 + 0x200 * i + 0x40 * j
def SQ_SLOT_EXC (i j : Nat) : Nat := 0x2060102C + 0x200 * i + 0x40 * j
def SQ_SLOT_EXC_ADDR (i j : Nat) : Nat := 0x20601030 + 0x200 * i + 0x40 * j
def SQ_SLOT_COUNTS (i j : Nat) : Nat := 0x20601034 + 0x200 * i + 0x40 * j
def SQ_SLOT_MAXUSE (i j : Nat) : Nat := 0x20601038 + 0x200 * i + 0x40 * j
def FX_CTRL : Nat := 0x20A00000
def FX_STATUS : Nat := 0x20A00004
def FX_IRQ_STATUS : Nat := 0x20A00008
def FX_JQ_BASE : Nat := 0x20A00010
def FX_JQ_CFG : Nat := 0x20A00014
def FX_JQ_HEAD : Nat := 0x20A00018
def FX_JQ_TAIL : Nat := 0x20A0001C
def FX_CQ_BASE : Nat := 0x20A00020
def FX_CQ_CFG : Nat := 0x20A00024
def FX_CQ_HEAD : Nat := 0x20A00028
def FX_CQ_TAIL : Nat := 0x20A0002C
def FX_CNT_TILES : Nat := 0x20A00030
def FX_CNT_ERR : Nat := 0x20A00034
def FX_LANE_STATE (i : Nat) : Nat := 0x20A00100 + 0x20 * i
def FX_LANE_CTRL (i : Nat) : Nat := 0x20A00104 + 0x20 * i
def FX_LANE_RESUME (i : Nat) : Nat := 0x20A00108 + 0x20 * i
def FX_LANE_SAVE (i : Nat) : Nat := 0x20A0010C + 0x20 * i
def FX_LANE_STALL (i : Nat) : Nat := 0x20A00110 + 0x20 * i
def FX_STREAM_STATUS (i : Nat) : Nat := 0x20A00400 + 0x20 * i
def FX_STREAM_NEXT_LO (i : Nat) : Nat := 0x20A00404 + 0x20 * i
def FX_STREAM_NEXT_HI (i : Nat) : Nat := 0x20A00408 + 0x20 * i
def FX_STREAM_FILLED_LO (i : Nat) : Nat := 0x20A0040C + 0x20 * i
def FX_STREAM_FILLED_HI (i : Nat) : Nat := 0x20A00410 + 0x20 * i
def FX_STREAM_ERR (i : Nat) : Nat := 0x20A00414 + 0x20 * i
def SYS_PROFILE : Nat := 0x20000020
def SCN_CTRL (i : Nat) : Nat := 0x20B00000 + 0x10000 * i
def SCN_CFG (i : Nat) : Nat := 0x20B00004 + 0x10000 * i
def SCN_TF_NOM (i : Nat) : Nat := 0x20B00008 + 0x10000 * i
def SCN_BAND (i : Nat) : Nat := 0x20B0000C + 0x10000 * i
def SCN_POS_S (i : Nat) : Nat := 0x20B00010 + 0x10000 * i
def SCN_POS_M (i : Nat) : Nat := 0x20B00014 + 0x10000 * i
def SCN_POS_E (i : Nat) : Nat := 0x20B00018 + 0x10000 * i
def SCN_DLY (i j : Nat) : Nat := 0x20B00020 + 0x10000 * i + 0x4 * j
def SCN_BOUND (i : Nat) : Nat := 0x20B00030 + 0x10000 * i
def SCN_LEARN (i : Nat) : Nat := 0x20B00034 + 0x10000 * i
def SCN_STATUS (i : Nat) : Nat := 0x20B00040 + 0x10000 * i
def SCN_SCAN_LO (i : Nat) : Nat := 0x20B00044 + 0x10000 * i
def SCN_SCAN_HI (i : Nat) : Nat := 0x20B00048 + 0x10000 * i
def SCN_TF_EST (i : Nat) : Nat := 0x20B0004C + 0x10000 * i
def SCN_RATIO (i : Nat) : Nat := 0x20B00050 + 0x10000 * i
def SCN_FLOOR (i : Nat) : Nat := 0x20B00054 + 0x10000 * i
def SCN_ACHIEVED (i : Nat) : Nat := 0x20B00058 + 0x10000 * i
def SCN_CNT_A (i : Nat) : Nat := 0x20B00060 + 0x10000 * i
def SCN_CNT_B (i : Nat) : Nat := 0x20B00064 + 0x10000 * i
def SCN_IRQ_STATUS (i : Nat) : Nat := 0x20B00068 + 0x10000 * i
def SCN_SYNC_ERR (i : Nat) : Nat := 0x20B0006C + 0x10000 * i
def SCN_TS_LO (i j : Nat) : Nat := 0x20B00080 + 0x10000 * i + 0x10 * j
def SCN_TS_HI (i j : Nat) : Nat := 0x20B00084 + 0x10000 * i + 0x10 * j
def SCN_TS_FINE (i j : Nat) : Nat := 0x20B00088 + 0x10000 * i + 0x10 * j
def SCN_FTAB_A (i j : Nat) : Nat := 0x20B00100 + 0x10000 * i + 0x10 * j
def SCN_FTAB_S1 (i j : Nat) : Nat := 0x20B00104 + 0x10000 * i + 0x10 * j
def SCN_FTAB_S2 (i j : Nat) : Nat := 0x20B00108 + 0x10000 * i + 0x10 * j
def SCN_FTAB_CTRL (i : Nat) : Nat := 0x20B001C0 + 0x10000 * i
def EXP_CTRL (i : Nat) : Nat := 0x20C00000 + 0x10000 * i
def EXP_STATUS (i : Nat) : Nat := 0x20C00004 + 0x10000 * i
def EXP_WIDTH (i : Nat) : Nat := 0x20C00008 + 0x10000 * i
def EXP_LINE_PERIOD (i : Nat) : Nat := 0x20C0000C + 0x10000 * i
def EXP_REG (i : Nat) : Nat := 0x20C00010 + 0x10000 * i
def EXP_WEAR (i : Nat) : Nat := 0x20C00014 + 0x10000 * i
def EXP_RETIRE (i : Nat) : Nat := 0x20C00018 + 0x10000 * i
def EXP_RELEASED_LO (i : Nat) : Nat := 0x20C00020 + 0x10000 * i
def EXP_RELEASED_HI (i : Nat) : Nat := 0x20C00024 + 0x10000 * i
def EXP_CNT_A (i : Nat) : Nat := 0x20C00028 + 0x10000 * i
def EXP_CNT_B (i : Nat) : Nat := 0x20C0002C + 0x10000 * i
def EXP_IRQ_STATUS (i : Nat) : Nat := 0x20C00030 + 0x10000 * i
def EXP_EMAP (i j : Nat) : Nat := 0x20C00100 + 0x10000 * i + 0x4 * j
def EXP_GEOM (i j : Nat) : Nat := 0x20C00200 + 0x10000 * i + 0x4 * j
def EXP_ESTATE (i j : Nat) : Nat := 0x20C00300 + 0x10000 * i + 0x4 * j
def EXP_IBASE (i j : Nat) : Nat := 0x20C00400 + 0x10000 * i + 0x4 * j
def EXP_ONTIME_LO (i j : Nat) : Nat := 0x20C00500 + 0x10000 * i + 0x8 * j
def EXP_ONTIME_HI (i j : Nat) : Nat := 0x20C00504 + 0x10000 * i + 0x8 * j
def XLK_CTRL (i : Nat) : Nat := 0x20D00000 + 0x10000 * i
def XLK_STATUS (i : Nat) : Nat := 0x20D00004 + 0x10000 * i
def XLK_LANE_MAP (i : Nat) : Nat := 0x20D00008 + 0x10000 * i
def XLK_LAT (i : Nat) : Nat := 0x20D0000C + 0x10000 * i
def XLK_PRE (i : Nat) : Nat := 0x20D00010 + 0x10000 * i
def XLK_DEPTH (i : Nat) : Nat := 0x20D00014 + 0x10000 * i
def XLK_SYNC (i : Nat) : Nat := 0x20D00018 + 0x10000 * i
def XLK_TBAND_A (i : Nat) : Nat := 0x20D0001C + 0x10000 * i
def XLK_TBAND_B (i : Nat) : Nat := 0x20D00020 + 0x10000 * i
def XLK_TBAND_H (i : Nat) : Nat := 0x20D00024 + 0x10000 * i
def XLK_SUBST (i : Nat) : Nat := 0x20D00028 + 0x10000 * i
def XLK_ERR (i : Nat) : Nat := 0x20D0002C + 0x10000 * i
def XLK_CNT_FRAMES (i : Nat) : Nat := 0x20D00030 + 0x10000 * i
def XLK_CNT_MISC (i : Nat) : Nat := 0x20D00034 + 0x10000 * i
def XLK_IRQ_STATUS (i : Nat) : Nat := 0x20D00038 + 0x10000 * i
def XLK_RC_TEMP (i : Nat) : Nat := 0x20D00040 + 0x10000 * i
def XLK_RC_JITTER (i : Nat) : Nat := 0x20D00044 + 0x10000 * i
def XLK_RC_FAULT_LO (i : Nat) : Nat := 0x20D00048 + 0x10000 * i
def XLK_RC_FAULT_HI (i : Nat) : Nat := 0x20D0004C + 0x10000 * i
def XLK_CNT_CRC (i j : Nat) : Nat := 0x20D00060 + 0x10000 * i + 0x4 * j
def XLK_RC_I (i j : Nat) : Nat := 0x20D00100 + 0x10000 * i + 0x4 * j
def FOC_GCFG : Nat := 0x20E00000
def FOC_IRQ_SUM : Nat := 0x20E00004
def FOC_IRQ_EN : Nat := 0x20E00008
def FOC_ENG_FAIL : Nat := 0x20E00010
def FOC_ENG_SUBST : Nat := 0x20E00014
def FOC_ENG_SUBST_STATUS : Nat := 0x20E00018
def FOC_ENG_MAP (i : Nat) : Nat := 0x20E00040 + 0x4 * i
def FOC_BUS_CFG (i : Nat) : Nat := 0x20E00800 + 0x20 * i
def FOC_BUS_V1 (i : Nat) : Nat := 0x20E00804 + 0x20 * i
def FOC_BUS_V2 (i : Nat) : Nat := 0x20E00808 + 0x20 * i
def FOC_BUS_CHOP (i : Nat) : Nat := 0x20E0080C + 0x20 * i
def FOC_BUS_TCHOP (i : Nat) : Nat := 0x20E00810 + 0x20 * i
def FOC_BUS_STATUS (i : Nat) : Nat := 0x20E00814 + 0x20 * i
def FOC_BUS_CTRL (i : Nat) : Nat := 0x20E00818 + 0x20 * i
def FOC_BUS_CNT (i : Nat) : Nat := 0x20E0081C + 0x20 * i
def FOC_CFG (i : Nat) : Nat := 0x20E01000 + 0x100 * i
def FOC_CMD (i : Nat) : Nat := 0x20E01004 + 0x100 * i
def FOC_STATE (i : Nat) : Nat := 0x20E01008 + 0x100 * i
def FOC_PWM (i : Nat) : Nat := 0x20E0100C + 0x100 * i
def FOC_PWM2 (i : Nat) : Nat := 0x20E01010 + 0x100 * i
def FOC_PWM_PHASE (i : Nat) : Nat := 0x20E01014 + 0x100 * i
def FOC_SD (i : Nat) : Nat := 0x20E01018 + 0x100 * i
def FOC_ISCALE (i : Nat) : Nat := 0x20E0101C + 0x100 * i
def FOC_ILIM (i : Nat) : Nat := 0x20E01020 + 0x100 * i
def FOC_CUR_GAIN (i : Nat) : Nat := 0x20E01024 + 0x100 * i
def FOC_SPD_GAIN (i : Nat) : Nat := 0x20E01028 + 0x100 * i
def FOC_RAMP (i : Nat) : Nat := 0x20E0102C + 0x100 * i
def FOC_MOTOR (i : Nat) : Nat := 0x20E01030 + 0x100 * i
def FOC_OBS (i : Nat) : Nat := 0x20E01034 + 0x100 * i
def FOC_HFI (i : Nat) : Nat := 0x20E01038 + 0x100 * i
def FOC_START (i : Nat) : Nat := 0x20E0103C + 0x100 * i
def FOC_SPEED (i : Nat) : Nat := 0x20E01040 + 0x100 * i
def FOC_IQ_REF (i : Nat) : Nat := 0x20E01044 + 0x100 * i
def FOC_SPD_REF (i : Nat) : Nat := 0x20E01048 + 0x100 * i
def FOC_ID_REF (i : Nat) : Nat := 0x20E0104C + 0x100 * i
def FOC_CATCH (i : Nat) : Nat := 0x20E01050 + 0x100 * i
def FOC_REV (i : Nat) : Nat := 0x20E01054 + 0x100 * i
def FOC_STOPSPD (i : Nat) : Nat := 0x20E01058 + 0x100 * i
def FOC_ASC (i : Nat) : Nat := 0x20E0105C + 0x100 * i
def FOC_PIN_FS (i : Nat) : Nat := 0x20E01060 + 0x100 * i
def FOC_PIN_VAL (i : Nat) : Nat := 0x20E01064 + 0x100 * i
def FOC_MEAS_I (i : Nat) : Nat := 0x20E01068 + 0x100 * i
def FOC_ANGLE (i : Nat) : Nat := 0x20E0106C + 0x100 * i
def FOC_CNT (i : Nat) : Nat := 0x20E01070 + 0x100 * i
def FOC_IRQ_STATUS (i : Nat) : Nat := 0x20E01074 + 0x100 * i
def STP_IRQ_SUM : Nat := 0x20F00000
def STP_IRQ_SUM2 : Nat := 0x20F00004
def STP_IRQ_EN : Nat := 0x20F00008
def STP_IRQ_EN2 : Nat := 0x20F0000C
def STP_GCFG : Nat := 0x20F00010
def STP_GCFG2 : Nat := 0x20F00014
def STP_ENC_CFG (i : Nat) : Nat := 0x20F00400 + 0x20 * i
def STP_ENC_CPR (i : Nat) : Nat := 0x20F00404 + 0x20 * i
def STP_ENC_CNT_LO (i : Nat) : Nat := 0x20F00408 + 0x20 * i
def STP_ENC_CNT_HI (i : Nat) : Nat := 0x20F0040C + 0x20 * i
def STP_ENC_STATUS (i : Nat) : Nat := 0x20F00410 + 0x20 * i
def STP_ENC_INDEX (i : Nat) : Nat := 0x20F00414 + 0x20 * i
def STP_ENC_SPEED (i : Nat) : Nat := 0x20F00418 + 0x20 * i
def STP_CFG (i : Nat) : Nat := 0x20F01000 + 0x100 * i
def STP_CMD (i : Nat) : Nat := 0x20F01004 + 0x100 * i
def STP_STATE (i : Nat) : Nat := 0x20F01008 + 0x100 * i
def STP_POS_LO (i : Nat) : Nat := 0x20F0100C + 0x100 * i
def STP_POS_HI (i : Nat) : Nat := 0x20F01010 + 0x100 * i
def STP_TGT_LO (i : Nat) : Nat := 0x20F01014 + 0x100 * i
def STP_TGT_HI (i : Nat) : Nat := 0x20F01018 + 0x100 * i
def STP_REM_LO (i : Nat) : Nat := 0x20F0101C + 0x100 * i
def STP_REM_HI (i : Nat) : Nat := 0x20F01020 + 0x100 * i
def STP_VCMD (i : Nat) : Nat := 0x20F01024 + 0x100 * i
def STP_ACC (i : Nat) : Nat := 0x20F01028 + 0x100 * i
def STP_PROF (i : Nat) : Nat := 0x20F0102C + 0x100 * i
def STP_SPEED (i : Nat) : Nat := 0x20F01030 + 0x100 * i
def STP_STEP (i : Nat) : Nat := 0x20F01034 + 0x100 * i
def STP_LIM (i : Nat) : Nat := 0x20F01038 + 0x100 * i
def STP_GEAR_NUM (i : Nat) : Nat := 0x20F01040 + 0x100 * i
def STP_GEAR_DEN (i : Nat) : Nat := 0x20F01044 + 0x100 * i
def STP_GEAR_NEXT_NUM (i : Nat) : Nat := 0x20F01048 + 0x100 * i
def STP_GEAR_NEXT_DEN (i : Nat) : Nat := 0x20F0104C + 0x100 * i
def STP_GEAR_AT_LO (i : Nat) : Nat := 0x20F01050 + 0x100 * i
def STP_GEAR_AT_HI (i : Nat) : Nat := 0x20F01054 + 0x100 * i
def STP_GEAR_CTRL (i : Nat) : Nat := 0x20F01058 + 0x100 * i
def STP_GEAR_STATUS (i : Nat) : Nat := 0x20F0105C + 0x100 * i
def STP_GEAR_LAG (i : Nat) : Nat := 0x20F01060 + 0x100 * i
def STP_ISCALE (i : Nat) : Nat := 0x20F01070 + 0x100 * i
def STP_CUR_GAIN (i : Nat) : Nat := 0x20F01074 + 0x100 * i
def STP_CUR (i : Nat) : Nat := 0x20F01078 + 0x100 * i
def STP_CUR2 (i : Nat) : Nat := 0x20F0107C + 0x100 * i
def STP_LA (i : Nat) : Nat := 0x20F01080 + 0x100 * i
def STP_STALL (i : Nat) : Nat := 0x20F01084 + 0x100 * i
def STP_LA_MIN (i : Nat) : Nat := 0x20F01088 + 0x100 * i
def STP_LA_MEAS (i : Nat) : Nat := 0x20F0108C + 0x100 * i
def STP_CNT (i : Nat) : Nat := 0x20F01090 + 0x100 * i
def STP_IRQ_STATUS (i : Nat) : Nat := 0x20F01094 + 0x100 * i
def HV_CTRL : Nat := 0x21000000
def HV_STATUS : Nat := 0x21000004
def HV_IRQ_STATUS : Nat := 0x21000008
def HV_SAFE_CFG : Nat := 0x2100000C
def HV_CNT : Nat := 0x21000010
def HV_RAMP (i : Nat) : Nat := 0x21000100 + 0x20 * i
def HV_VALUE (i : Nat) : Nat := 0x21000104 + 0x20 * i
def HV_SAFE (i : Nat) : Nat := 0x21000108 + 0x20 * i
def HV_WIN (i : Nat) : Nat := 0x2100010C + 0x20 * i
def HV_SGAIN (i : Nat) : Nat := 0x21000110 + 0x20 * i
def HV_SENSE (i : Nat) : Nat := 0x21000114 + 0x20 * i
def HV_AC_INC (i : Nat) : Nat := 0x21000118 + 0x20 * i
def FUS_CTRL : Nat := 0x21100000
def FUS_STATUS : Nat := 0x21100004
def FUS_IRQ_STATUS : Nat := 0x21100008
def FUS_MAINS : Nat := 0x2110000C
def FUS_ZC : Nat := 0x21100010
def FUS_GATE : Nat := 0x21100014
def FUS_SEQ : Nat := 0x21100018
def FUS_CNT : Nat := 0x2110001C
def FUS_LIN (i : Nat) : Nat := 0x21100100 + 0x4 * i
def FUS_OT (i : Nat) : Nat := 0x21100200 + 0x4 * i
def FUS_ZCFG (i : Nat) : Nat := 0x21101000 + 0x40 * i
def FUS_ZCMD (i : Nat) : Nat := 0x21101004 + 0x40 * i
def FUS_ZSTATE (i : Nat) : Nat := 0x21101008 + 0x40 * i
def FUS_SP (i : Nat) : Nat := 0x2110100C + 0x40 * i
def FUS_TEMP (i : Nat) : Nat := 0x21101010 + 0x40 * i
def FUS_ZGAIN (i : Nat) : Nat := 0x21101014 + 0x40 * i
def FUS_TOL (i : Nat) : Nat := 0x21101018 + 0x40 * i
def FUS_RATE (i : Nat) : Nat := 0x2110101C + 0x40 * i
def FUS_SENS (i : Nat) : Nat := 0x21101020 + 0x40 * i
def FUS_IND (i : Nat) : Nat := 0x21101024 + 0x40 * i
def FUS_SLEW (i : Nat) : Nat := 0x21101028 + 0x40 * i
def FUS_DEMAND (i : Nat) : Nat := 0x2110102C + 0x40 * i
def FUS_READY_LO (i : Nat) : Nat := 0x21101030 + 0x40 * i
def FUS_READY_HI (i : Nat) : Nat := 0x21101034 + 0x40 * i
def SNS_CTRL : Nat := 0x21200000
def SNS_IRQ_STATUS : Nat := 0x21200004
def SNS_OUT_LO : Nat := 0x21200010
def SNS_OUT_HI : Nat := 0x21200014
def SNS_OSAFE_EN_LO : Nat := 0x21200018
def SNS_OSAFE_EN_HI : Nat := 0x2120001C
def SNS_OSAFE_LVL_LO : Nat := 0x21200020
def SNS_OSAFE_LVL_HI : Nat := 0x21200024
def SNS_AN (i : Nat) : Nat := 0x21200100 + 0x4 * i
def SNS_IN_CFG (i : Nat) : Nat := 0x21201000 + 0x20 * i
def SNS_IN_STATE (i : Nat) : Nat := 0x21201004 + 0x20 * i
def SNS_TS_LEAD_LO (i : Nat) : Nat := 0x21201008 + 0x20 * i
def SNS_TS_LEAD_HI (i : Nat) : Nat := 0x2120100C + 0x20 * i
def SNS_TS_TRAIL_LO (i : Nat) : Nat := 0x21201010 + 0x20 * i
def SNS_TS_TRAIL_HI (i : Nat) : Nat := 0x21201014 + 0x20 * i
def DMA_STATUS : Nat := 0x20800000
def DMA_IRQ_CQ : Nat := 0x20800010
def DMA_IRQ_CQ_EN : Nat := 0x20800014
def DMA_IRQ_ERR : Nat := 0x20800018
def DMA_IRQ_ERR_EN : Nat := 0x2080001C
def DMA_CH_CFG (i : Nat) : Nat := 0x20801000 + 0x40 * i
def DMA_CH_CTRL (i : Nat) : Nat := 0x20801004 + 0x40 * i
def DMA_RING_BASE (i : Nat) : Nat := 0x20801008 + 0x40 * i
def DMA_RING_CFG (i : Nat) : Nat := 0x2080100C + 0x40 * i
def DMA_RING_HEAD (i : Nat) : Nat := 0x20801010 + 0x40 * i
def DMA_RING_TAIL (i : Nat) : Nat := 0x20801014 + 0x40 * i
def DMA_CQ_BASE (i : Nat) : Nat := 0x20801018 + 0x40 * i
def DMA_CQ_CFG (i : Nat) : Nat := 0x2080101C + 0x40 * i
def DMA_CQ_HEAD (i : Nat) : Nat := 0x20801020 + 0x40 * i
def DMA_CQ_TAIL (i : Nat) : Nat := 0x20801024 + 0x40 * i
def DMA_CH_STATUS (i : Nat) : Nat := 0x20801028 + 0x40 * i
def DMA_CH_CNT (i : Nat) : Nat := 0x2080102C + 0x40 * i
def PLT_CTRL : Nat := 0x20900000
def PLT_ERR : Nat := 0x20900004
def PLT_ARR_LO (i : Nat) : Nat := 0x20900010 + 0x8 * i
def PLT_ARR_HI (i : Nat) : Nat := 0x20900014 + 0x8 * i
def PLT_CH_CFG (i : Nat) : Nat := 0x20901000 + 0x40 * i
def PLT_TX (i : Nat) : Nat := 0x20901004 + 0x40 * i
def PLT_STATUS (i : Nat) : Nat := 0x20901008 + 0x40 * i
def PLT_POP (i : Nat) : Nat := 0x2090100C + 0x40 * i
def PLT_RX (i j : Nat) : Nat := 0x20901010 + 0x40 * i + 0x4 * j
def PLT_CH_CNT (i : Nat) : Nat := 0x20901030 + 0x40 * i
def SBX_CTRL : Nat := 0x20400000
def SBX_STATUS_LO : Nat := 0x20400008
def SBX_STATUS_HI : Nat := 0x2040000C
def SBX_ACTIVE_LO : Nat := 0x20400010
def SBX_ACTIVE_HI : Nat := 0x20400014
def SBX_RST_LO : Nat := 0x20400018
def SBX_RST_HI : Nat := 0x2040001C
def SBX_SHADOW : Nat := 0x20400020
def SBX_NMI : Nat := 0x20400024
def SBX_CRST_CAUSE : Nat := 0x20400028
def SBX_BRST_REQ : Nat := 0x2040002C
def SBX_ERR : Nat := 0x20400030
def SBX_HIST_HEAD : Nat := 0x20400040
def SBX_HIST_CNT : Nat := 0x20400044
def SBX_LINE_CFG : Nat := 0x20400050
def SBX_LINE_SEQ : Nat := 0x20400054
def SBX_LINE_CNT_A : Nat := 0x20400058
def SBX_LINE_CNT_B : Nat := 0x2040005C
def SBX_SRC_CFG (i : Nat) : Nat := 0x20401000 + 0x20 * i
def SBX_SRC_QUIET (i : Nat) : Nat := 0x20401004 + 0x20 * i
def SBX_SRC_DEP_LO (i : Nat) : Nat := 0x20401008 + 0x20 * i
def SBX_SRC_DEP_HI (i : Nat) : Nat := 0x2040100C + 0x20 * i
def SBX_SRC_CNT (i : Nat) : Nat := 0x20401010 + 0x20 * i
def SBX_HIST_W0 (i : Nat) : Nat := 0x20400800 + 0x10 * i
def SBX_HIST_W1 (i : Nat) : Nat := 0x20400804 + 0x10 * i
def SBX_HIST_W2 (i : Nat) : Nat := 0x20400808 + 0x10 * i
def SBX_HIST_W3 (i : Nat) : Nat := 0x2040080C + 0x10 * i
def SBX_ORIGIN (i : Nat) : Nat := 0x20404000 + 0x4 * i
def PWR_CTRL : Nat := 0x20200000
def PWR_IRQ_STATUS : Nat := 0x20200004
def PWR_DOM_REQ : Nat := 0x20200008
def PWR_ENGINE : Nat := 0x2020000C
def PWR_REFUSE_LAST : Nat := 0x20200010
def PWR_WAKE_CFG : Nat := 0x20200014
def PWR_WAKE_TIMER : Nat := 0x20200018
def PWR_SEQ_STATUS : Nat := 0x20200020
def PWR_RAIL_CFG (i : Nat) : Nat := 0x20200040 + 0x4 * i
def PWR_VMON (i : Nat) : Nat := 0x20200060 + 0x4 * i
def PWR_VMON_VAL (i : Nat) : Nat := 0x20200080 + 0x4 * i
def PWR_VREQ_A : Nat := 0x202000A0
def PWR_VREQ_B : Nat := 0x202000A4
def PWR_VREQ_STATUS : Nat := 0x202000A8
def PWR_VREQ_TO : Nat := 0x202000AC
def PWR_DOM_STATE (i : Nat) : Nat := 0x20200100 + 0x4 * i
def PWR_DOM_CNT (i : Nat) : Nat := 0x20200140 + 0x4 * i
def THM_CTRL : Nat := 0x20300000
def THM_STATUS : Nat := 0x20300004
def THM_IRQ_STATUS : Nat := 0x20300008
def THM_TMAX : Nat := 0x2030000C
def THM_BAND_CFG : Nat := 0x20300010
def THM_THR_T : Nat := 0x20300014
def THM_RISE_LIM : Nat := 0x20300018
def THM_TIMES : Nat := 0x2030001C
def THM_THR_HORIZON : Nat := 0x20300020
def THM_THR_PITCH : Nat := 0x20300024
def THM_THR_ALLOW : Nat := 0x20300028
def THM_CNT : Nat := 0x2030002C
def THM_LIMITS : Nat := 0x20300030
def THM_SENSOR_FAIL : Nat := 0x20300034
def THM_TS (i : Nat) : Nat := 0x20300100 + 0x4 * i
def SYS_LINE_ID : Nat := 0x20000028
def HST_CTRL : Nat := 0x21400000
def HST_STATUS : Nat := 0x21400004
def HST_IRQ_STATUS : Nat := 0x21400008
def HST_SUBSYS : Nat := 0x2140000C
def HST_ERR_ADDR : Nat := 0x21400010
def HST_CNT : Nat := 0x21400014
def HST_HWIN_LO (i : Nat) : Nat := 0x21400040 + 0x10 * i
def HST_HWIN_HI (i : Nat) : Nat := 0x21400044 + 0x10 * i
def HST_HWIN_CFG (i : Nat) : Nat := 0x21400048 + 0x10 * i
def HST_MSIX_SRC (i : Nat) : Nat := 0x21400100 + 0x4 * i
def HST_MSIX_REARM : Nat := 0x21400200
def HST_DB_LO : Nat := 0x21400210
def HST_DB_HI : Nat := 0x21400214
def HST_DB_SET_LO : Nat := 0x21400218
def HST_DB_SET_HI : Nat := 0x2140021C
def LINE_CTRL : Nat := 0x21300000
def LINE_STATUS : Nat := 0x21300004
def LINE_IRQ_STATUS : Nat := 0x21300008
def LINE_SYNC_INT : Nat := 0x2130000C
def LINE_TIME_OFS : Nat := 0x21300010
def LINE_TIME_RATE : Nat := 0x21300014
def LINE_TIME_SRC : Nat := 0x21300018
def LINE_DELAY (i : Nat) : Nat := 0x21300020 + 0x4 * i
def LINE_CNT_A : Nat := 0x21300030
def LINE_CNT_B : Nat := 0x21300034
def LINE_CNT_C : Nat := 0x21300038
def LINE_CNT_D : Nat := 0x2130003C
def LINE_PUB (i : Nat) : Nat := 0x21300100 + 0x4 * i
def LINE_PLT (i : Nat) : Nat := 0x21300200 + 0x4 * i
def LINE_SUB (i : Nat) : Nat := 0x21301000 + 0x8 * i
def LINE_COPY (i : Nat) : Nat := 0x21301004 + 0x8 * i
def SEC_CTRL : Nat := 0x21500000
def SEC_BOOT : Nat := 0x21500004
def SEC_STAGE_NEXT : Nat := 0x21500008
def SEC_CORE1_ENTRY : Nat := 0x2150000C
def SEC_LC : Nat := 0x21500010
def SEC_UID_LO : Nat := 0x21500014
def SEC_UID_HI : Nat := 0x21500018
def SEC_RB (i : Nat) : Nat := 0x21500020 + 0x4 * i
def SEC_RB_ADV : Nat := 0x21500030
def SEC_CMD : Nat := 0x21500040
def SEC_ARG : Nat := 0x21500044
def SEC_ARG2 : Nat := 0x21500048
def SEC_CMD_STATUS : Nat := 0x2150004C
def SEC_METER_PEND : Nat := 0x21500050
def SEC_METER_SEQ : Nat := 0x21500054
def SEC_IRQ_STATUS : Nat := 0x21500058
def SEC_GATE_ERR : Nat := 0x21500060
def SEC_GATE_ADDR_LO : Nat := 0x21500064
def SEC_GATE_ADDR_HI : Nat := 0x21500068
def SEC_MEAS (i j : Nat) : Nat := 0x21500100 + 0x20 * i + 0x4 * j
def SEC_GATE_OPEN : Nat := 0x21500200
def SEC_GATE_BASE (i j : Nat) : Nat := 0x21501000 + 0x200 * i + 0x10 * j
def SEC_GATE_LIM (i j : Nat) : Nat := 0x21501004 + 0x200 * i + 0x10 * j
def SEC_GATE_PERM (i j : Nat) : Nat := 0x21501008 + 0x200 * i + 0x10 * j
def LDG_CTRL : Nat := 0x21600000
def LDG_STATUS : Nat := 0x21600004
def LDG_IRQ_STATUS : Nat := 0x21600008
def LDG_WL : Nat := 0x2160000C
def LDG_CNT : Nat := 0x21600010
def LDG_METER_TAIL : Nat := 0x21600014
def LDG_HEAD (i : Nat) : Nat := 0x21600020 + 0x4 * i
def LDG_APP_BODY (i : Nat) : Nat := 0x21600040 + 0x4 * i
def LDG_APP_KIND : Nat := 0x2160004C
def LDG_APP_STATUS : Nat := 0x21600050
def BKG_CTRL : Nat := 0x21700000
def BKG_IRQ_STATUS : Nat := 0x21700004
def BKG_STATUS : Nat := 0x21700008
def BKG_PERIODS : Nat := 0x2170000C
def BKG_DRAM_PASS : Nat := 0x21700010
def BKG_ROW : Nat := 0x21700014
def BKG_SRAM_CNT : Nat := 0x21700018
def BKG_SRAM_PASSES : Nat := 0x2170001C
def BKG_UNCOR_ADDR : Nat := 0x21700020
def BKG_TEL_BASE : Nat := 0x21700024
def BKG_TEL_CFG : Nat := 0x21700028
def BKG_TEL_HEAD : Nat := 0x2170002C
def BKG_TEL_CNT : Nat := 0x21700030
def BKG_BEAM (i : Nat) : Nat := 0x21700100 + 0x4 * i

end Reg

/-- The register blocks of R34, in the order of their bases. -/
inductive Block
  | sys | clk | pwr | thm | sbx | tt | sq | jct | dma | plt | fx | scn | exp | xlk | foc | stp | hv | fus | sns
  | line | hst | sec | ldg | bkg | mem | svc
deriving DecidableEq, Repr

/-- The blocks in base order: block n has the window 0x2000_0000 + n × 0x0010_0000 (R34). -/
def blockList : List Block :=
  [.sys, .clk, .pwr, .thm, .sbx, .tt, .sq, .jct, .dma, .plt, .fx, .scn, .exp, .xlk, .foc, .stp, .hv, .fus, .sns,
   .line, .hst, .sec, .ldg, .bkg, .mem, .svc]

/-- The block whose 1 MiB window holds an on-chip address (R10, R34). -/
def blockAt (addr : Nat) : Option Block :=
  if addr < 0x20000000 then none else blockList[(addr - 0x20000000) / 0x100000]?

/-- The registers of a block. MEM and SVC have none in the spec: their windows read as zero and ignore writes (R12). -/
def blockRegs : Block → List RegDesc
  | .sys => regsSYS | .clk => regsCLK | .pwr => regsPWR | .thm => regsTHM | .sbx => regsSBX | .tt => regsTT
  | .sq => regsSQ | .jct => regsJCT | .dma => regsDMA | .plt => regsPLT | .fx => regsFX | .scn => regsSCN
  | .exp => regsEXP | .xlk => regsXLK | .foc => regsFOC | .stp => regsSTP | .hv => regsHV | .fus => regsFUS
  | .sns => regsSNS | .line => regsLINE | .hst => regsHST | .sec => regsSEC | .ldg => regsLDG | .bkg => regsBKG
  | .mem => [] | .svc => []

/-- The indices an offset from a register array's base stands for, outermost first. -/
def splitDims : Nat → List (Nat × Nat) → Option (List Nat)
  | off, [] => if off = 0 then some [] else none
  | off, (stride, count) :: rest =>
    if off / stride < count then (splitDims (off % stride) rest).map (off / stride :: ·) else none

/-- The indices of the instance of `d` at `addr`, if `addr` is one. -/
def RegDesc.indices (d : RegDesc) (addr : Nat) : Option (List Nat) :=
  if addr < d.base then none else splitDims (addr - d.base) d.dims

/-- The first register of a list that has an instance at `addr`. -/
def findIn (addr : Nat) : List RegDesc → Option (RegDesc × List Nat)
  | [] => none
  | d :: ds =>
    match d.indices addr with
    | some ix => some (d, ix)
    | none => findIn addr ds

/-- The register at an aligned on-chip address, with its indices. -/
def findReg (addr : Nat) : Option (RegDesc × List Nat) :=
  match blockAt addr with
  | some b => findIn addr (blockRegs b)
  | none => none

/-- The default reaction of Signal Box source s (R383): 1 is INT, 4 CRST, 0 NONE, in the encoding of R387. -/
def defaultReact (s : Nat) : Nat :=
  if s = 1 ∨ s = 4 ∨ s = 5 then 4 else if s ≤ 35 then 1 else 0

/-- The value a Reset column entry stands for at the given indices. -/
def Rst.value (r : Rst) (ix : List Nat) : Nat :=
  let i := ix.getLastD 0
  match r with
  | .val n => n
  | .index => i
  | .geom => 16 * (i % 32)
  | .ltSix => if i ≤ 5 then 1 else 0
  | .react => defaultReact i
  | .neigh => i ^^^ 1
  | .msix => if i ≤ 33 then i else if i = 34 then 0x30 else 0x38
  | .dom => if i ≤ 2 ∨ i = 11 ∨ i = 12 ∨ i = 15 then 5 else 0
  | .estate => if i < 32 then 0 else 1

/-- The word a register holds after POR (R17). -/
def RegDesc.resetWord (d : RegDesc) (ix : List Nat) : Word :=
  BitVec.ofNat 32 (d.fields.foldl (fun n f => n + (f.rst.value ix % 2 ^ f.width) * 2 ^ f.lsb) 0)

/-- The word at an aligned on-chip address after POR; zero where no register lies (R12). -/
def resetReg (addr : Nat) : Word :=
  match findReg addr with
  | some (d, ix) => d.resetWord ix
  | none => 0

/-- The mask of a register's fields that satisfy `p`. -/
def RegDesc.maskOf (d : RegDesc) (p : Fld → Bool) : Word :=
  BitVec.ofNat 32 (d.fields.foldl (fun n f => if p f then n + (2 ^ f.width - 1) * 2 ^ f.lsb else n) 0)

end Sys2Proof.Machine
end

