-- ==== Sys2Proof/Machine/State.lean ====
section
/-!
DEFINITION. The state of the PX9 as plain data. A register field that the spec's register tables name has its one home
in `regs`, keyed by the register's on-chip address (RegMap.lean names every register); what the spec gives the machine
beside its registers stands in the structures below, block by block. Every structure's default is its value after POR.
-/

namespace Sys2Proof.Machine

/-- Why a step would stop. No meaning of this model raises one: an access the spec refuses, a command it turns away
and a reserved operand all have the effect the spec gives them, recorded in State. -/
inductive Fault
  /-- Raised by nobody; safe. -/
  | none_raised
deriving DecidableEq, Repr

/-- Why a step would have no meaning. -/
inductive Refusal
  /-- Raised by an arm of `exec` for a command that has no meaning yet; safe, because nothing is claimed of such a
  command. No arm raises it. -/
  | notModelled (mnemonic : String)
deriving DecidableEq, Repr

/-- The root clock and the two counts of time (R23–R30). -/
structure Clk where
  /-- The device time base, a count of ticks (R19). -/
  tb : Tick := 0
  /-- AON's 56-bit count of REF cycles from POR (R29). -/
  ref : Nat := 0
  /-- The root-derived clocks run. -/
  run : Bool := false
  /-- The latched time base and REF count of the last stop (R29). -/
  latchTb : Tick := 0
  latchRef : Nat := 0
  /-- The holding register of CLK_TB_HI for each reading port (R30). -/
  hold : Tab Nat := []
deriving DecidableEq, Repr

/-- What the last access of an initiator got: the value read, or the error it was refused with (R11, R32, R468). -/
inductive AccErr
  | ok | bus | access | ecc | unsupported
deriving DecidableEq, Repr

structure AccResult where
  err : AccErr := .ok
  value : Nat := 0
deriving DecidableEq, Repr

/-- A class S register that has pending writes (R16): the value in force, the value written before the CORE cycle of
the last write, and that cycle's time. -/
structure Held where
  applied : Word
  prior : Word
  stamp : Tick
deriving DecidableEq, Repr

/-- The bits that hardware has set in one CORE cycle, by register address and bit (R14). -/
structure HwSet where
  stamp : Tick := 0
  bits : List (Nat × Nat) := []
deriving DecidableEq, Repr

/-- An event raised at the Signal Box and not yet taken (R384), or a block reset request (R390). -/
structure Raised where
  src : Nat
  ev : Nat
  ts : Tick
  brst : Bool := false
deriving DecidableEq, Repr

/-- The slot table of one RT port (R36): how many of its 64 entries are reserved, and the free value that says which
they are and which initiator each names (log entry 8). -/
structure SlotTable where
  n : Nat := 0
  key : Nat := 0
deriving DecidableEq, Repr

/-- The Junction beside its registers (R36–R38): the slot tables by port of the active bank and of the bank written for
the pending swap, the time of its request, and whether another swap is asked for. -/
structure Jct where
  resv : Tab SlotTable := []
  next : Tab SlotTable := []
  reqAt : Tick := 0
  again : Bool := false
deriving DecidableEq, Repr

/-- A claim record of an image (R54), offsets in ticks from the origin. -/
structure Claim where
  kind : Nat
  shared : Bool
  unit : Nat
  winStart : Nat
  winEnd : Nat
  amount : Nat
  p0 : Nat
  p1 : Nat
deriving DecidableEq, Repr

/-- An action record of an image (R56). -/
structure Action where
  offset : Nat
  cls : Nat
  blockCmd : Bool
  pnr : Bool
  fuser : Bool
  exit : Bool
  target : Nat
  cmd : Nat
  param : Nat
deriving DecidableEq, Repr

/-- The list of an image that an action belongs to. -/
inductive ActList
  | main | withdraw | spoil
deriving DecidableEq, Repr

/-- An armed action: its index in the action table, its absolute time, and whether its target has carried it out. -/
structure Armed where
  idx : Nat
  list : ActList
  act : Action
  time : Tick
  executed : Bool := false
deriving DecidableEq, Repr

/-- A parsed timetable image (R52, R53). -/
structure Image where
  sheetId : Nat
  jobId : Nat
  earliest : Nat
  step : Nat
  candidates : Nat
  claims : List Claim
  main : List Action
  withdraw : List Action
  spoil : List Action
deriving DecidableEq, Repr

/-- A sheet entry that is not FREE (R71, R72). Its state, generation, outcome reason and PAST_FUSER stand in
TT_SHEET[k]. -/
structure Sheet where
  sheetId : Nat := 0
  jobId : Nat := 0
  origin : Tick := 0
  candidate : Nat := 0
  pnr : Tick := 0
  claims : List Claim := []
  armed : List Armed := []
  /-- The lists still held for the outcome (R71). -/
  withdraw : List Action := []
  spoil : List Action := []
  /-- The number of main and of withdrawal actions of the image: they place an index in its action table (R90). -/
  numMain : Nat := 0
  numWithdraw : Nat := 0
  /-- The claims whose windows have ended (R71). -/
  released : List Nat := []
  /-- The outcome's time, DETAIL, and the place of its record in the result ring, if it reached the ring (R75, R88). -/
  outAt : Tick := 0
  detail : Nat := 0xFFFF
  recAt : Option Nat := none
  /-- The sheet runs out under a SAFE entry (R82). -/
  runOut : Bool := false
  /-- The edge at which its EXIT action was reported met (R75). -/
  exitAt : Option Tick := none
  /-- T0 main actions were still armed when it reached its outcome (R82). -/
  hadT0 : Bool := false
deriving DecidableEq, Repr

/-- A result record (R90). -/
structure ResRecord where
  sheetId : Nat
  jobId : Nat
  time : Tick
  origin : Tick
  handle : Nat
  kind : Nat
  reason : Nat
  detail : Nat
  candidate : Nat
deriving DecidableEq, Repr

/-- The snapshot of a check in progress, taken at T_s (R58, R59): what the evaluation reads. -/
structure Check where
  addr : Nat
  start : Tick
  sheets : List (Nat × Sheet)
  /-- TT_STATUS.COMMITTED and ARMED, HORIZON_EFF, ENFORCED and TT_PITCH_MIN at T_s. -/
  committed : Nat
  armed : Nat
  horizon : Nat
  enforced : Bool
  pitchMin : Nat
  /-- The TT limits, axis limits, axis commanded speeds and fuser ready times at T_s, by address or index. -/
  utilMax : Nat
  decCap : Nat
  pwrBudget : Nat
  pwrBase : Nat
  modeOk : Bool
  vmax : List Nat
  amax : List Nat
  speeds : List Int
  readyAt : List Nat
  setpoints : List Int
  /-- The standing slots in use, as TASK units (R134). -/
  standing : List Nat
  /-- The logical cores that the map binds (R146), and SEC_BOOT.DRAM_READY (R57). -/
  assigned : List Nat
  dramReady : Bool
deriving DecidableEq, Repr

/-- The Timetable beside its registers. -/
structure Tt where
  sheets : Tab (Option Sheet) := []
  queue : List Nat := []
  check : Option Check := none
  held : List ResRecord := []
  /-- The CORE edge of the request of TT_REQ that is pending (R87). -/
  reqAt : Option Tick := none
  /-- DELIVERED outcomes declared since POR, as the OUTCOME journal record counts them (R476). -/
  deliveredOut : Nat := 0
  /-- ADVISE or ENFORCED has changed and line 2 has not been acknowledged (R91; log entry 15). -/
  thrChanged : Bool := false
  /-- Main actions that are still armed though their sheet entry is FREE again (R71, R79), with the entry's number. -/
  orphans : List (Nat × Armed) := []
deriving DecidableEq, Repr

/-! ### Sinel cores -/

/-- A staged write of an instance (R103). -/
inductive Staged
  | tcm (addr size value : Nat)
  | bus (addr size value : Nat)
  | point (p : Nat) (v : Word)
  | remote (id : Nat) (v : Word)
  | arm (time : Tick) (p : Nat) (v : Word)
deriving DecidableEq, Repr

/-- An entry that is leaving the commit buffer (R140): its write, the physical core that committed it, and an edge before
which it does not take effect. -/
structure Leaving where
  addr : Nat
  size : Nat
  value : Nat
  core : Nat
  notBefore : Tick
deriving DecidableEq, Repr

/-- What a sequencer core's instruction in progress does when it ends (R117, R138): nothing more, the commit of YIELD, an
exception, or a load of `size` code `sz` into `rt`, before and after its array read (R39). -/
inductive Fly
  | plain
  | commit
  | exc (code addr : Nat)
  | load (addr : Nat) (rt : Fin 32) (sz : Nat) (signed : Bool)
  | loaded (rt : Fin 32) (sz : Nat) (signed : Bool) (v : Nat)
deriving DecidableEq, Repr

/-- The instruction that a sequencer core issued last: the slot and the release of its instance, the edge at which it ends,
what is still to happen then, and the start of the standing slot that a load uses (R39). -/
structure Flight where
  key : Nat := 0
  release : Tick := 0
  due : Tick := 0
  what : Fly := .plain
  readAt : Tick := 0
deriving DecidableEq, Repr

/-- A released instance without an outcome (R131, R136). -/
structure Instance where
  k : Nat
  release : Tick
  deadline : Tick
  pc : Nat
  used : Nat := 0
  waitUntil : Option Tick := none
  staged : List Staged := []
deriving DecidableEq, Repr

/-- The use of a task slot (R129). -/
inductive SlotUse
  | off | timetable | standing
deriving DecidableEq, Repr

/-- A task slot beside its registers: key 8 × logical core + slot. -/
structure Slot where
  use : SlotUse := .off
  /-- g1–g31 under keys 1–31, k15 under key 32 (R129). -/
  bank : Tab Word := []
  shadow : Tab Word := []
  /-- The frame of the next span is to be copied at the outcome of an instance of the last one (R132). -/
  frameOwed : Bool := false
  /-- The check of R132 made last: the R0 of the span it was made for, and whether it passed. -/
  loaded : Option (Tick × Bool) := none
  notReadyRaised : Bool := false
  r0 : Tick := 0
  /-- End of the span; none when unbounded (R131, R134). -/
  spanEnd : Option Tick := none
  /-- The span start of a standing slot, at which its history is cleared (R134, R144). -/
  histAt : Option Tick := none
  /-- Periods started in the span (k14). -/
  started : Nat := 0
  stopping : Bool := false
  inst : Option Instance := none
  leaving : List Leaving := []
deriving DecidableEq, Repr

/-- A TASK claim passed to SQ at commit (R70). -/
structure SqClaim where
  sheet : Nat
  idx : Nat
  start : Tick
  stop : Tick
  c : Claim
deriving DecidableEq, Repr

/-- An arm entry of a physical core (R111, R142), with the logical core that staged it. -/
structure ArmEntry where
  n : Nat
  time : Tick
  point : Nat
  value : Word
  logical : Nat
deriving DecidableEq, Repr

/-- A core substitution (R148). -/
structure CoreSubst where
  logical : Nat
  phys : Nat
  copy : Bool
  /-- The safe point has been reached, and the core that leaves is halted. -/
  reached : Bool := false
  /-- The copy's start time once it runs, and the 32-byte steps done. -/
  copying : Option Tick := none
  copied : Nat := 0
deriving DecidableEq, Repr

/-- SQ beside its registers: slots by 8 × logical core + slot, arm entries and busy times by physical core. -/
structure Sq where
  slots : Tab Slot := []
  claims : List SqClaim := []
  arms : Tab (List ArmEntry) := []
  flights : Tab Flight := []
  halted : List Nat := []
  /-- The edge of the last ordered writes to points, and the place of each in the order of R143. -/
  pointEdge : Tick := 0
  pointRank : List (Nat × List Nat) := []
  subst : Option CoreSubst := none
deriving DecidableEq, Repr

/-- A data-cache line of 64 bytes (R127). -/
structure CacheLine where
  addr : Nat
  bytes : List Byte
  dirty : Bool
deriving DecidableEq, Repr

/-- A Sinel-G core (R92, R94, R120). Control registers are keyed by number; an unlisted one holds its reset value. -/
structure GCore where
  g : Tab Word := []
  k : Tab Word := []
  pc : Nat := 0
  /-- Released and fetching (R128, R460); cleared by a double fault or a debug halt. -/
  running : Bool := false
  /-- In YIELD's wait, or in a WAITT whose operand is in the future (R110, R113). -/
  yielding : Bool := false
  waitUntil : Option Tick := none
  /-- Pending software lines 48–63 (k37, k38). -/
  swi : Nat := 0
  /-- An NMI is delivered and not yet entered (R391). -/
  nmi : Bool := false
  /-- The core has been delivered the NMI in service and has not yet returned from it (R391). -/
  nmiService : Bool := false
  dbl : Bool := false
  /-- The JTAG debug port is attached (R116). -/
  debug : Bool := false
  dcache : List CacheLine := []
  icache : List Nat := []
deriving DecidableEq, Repr
/-! ### The decompression lanes -/

/-- A band stream that has not ended (R183, R184). -/
structure Stream where
  /-- The handle of the sheet that started it. -/
  sheet : Nat
  row0 : Nat
  nrows : Nat
  plane : Nat
  ln0 : Nat
  /-- The plane's COLS, read with its header when the stream became active. -/
  cols : Nat := 0
  /-- It is the oldest of its station and its plane has passed (R184). -/
  active : Bool := false
  /-- The moment at which each stream row became startable, row 0 first (R181, R186). -/
  ready : List Tick := []
  /-- The next tile to start, 12 a row. -/
  next : Nat := 0
  /-- Completed tiles of the rows that are not yet whole or not yet counted in FILLED. -/
  done : Tab Nat := []
deriving DecidableEq, Repr

/-- A decode error as R176 reports it. -/
structure DecErr where
  code : Nat
  detail : Nat
  nibble : Nat := 0xFFFFFFFF
  bit : Nat := 0xFFFFFFFF
deriving DecidableEq, Repr

/-- A decoded tile: its output bytes, its error, and the cycles its form costs beside the output cycles (R179): those before
its first output, and those before the output byte at a position. -/
structure Decoded where
  out : List Byte
  err : Option DecErr
  setup : Nat
  gaps : List (Nat × Nat) := []
deriving DecidableEq, Repr

/-- What reading and decoding a tile's record gives. -/
inductive TileRes
  | bus
  | ecc
  | tile (d : Decoded)
deriving DecidableEq, Repr

/-- A tile that a lane works on (R179): the edge from which its cycles count, whether its setup is among them, the output
byte they begin with, the bytes it has put out, and what its record gave. -/
structure TileRun where
  since : Tick := 0
  setup : Bool := true
  start : Nat := 0
  emitted : Nat := 0
  res : Option TileRes := none
deriving DecidableEq, Repr

/-- The output buffer a job writes (R192): its descriptor's address, place, length and bytes used. -/
structure OutBuf where
  desc : Nat
  addr : Nat
  len : Nat
  used : Nat := 0
deriving DecidableEq, Repr

/-- A job that holds a lane (R190–R197). -/
structure JobRun where
  /-- The descriptor as read, and the DECODE descriptor whose tiles it decodes. -/
  desc : List Byte
  base : List Byte
  resumed : Bool := false
  /-- The tile in progress. -/
  tile : Nat := 0
  run : TileRun := {}
  cur : Option OutBuf := none
  /-- The buffer descriptor to enter next; 0 for none. -/
  nextDesc : Nat := 0
  bufs : Nat := 0
  straddle : Bool := false
  suspended : Bool := false
  /-- Tiles completed. -/
  tiles : Nat := 0
  /-- The completion record once the job has ended (R197). -/
  record : Option (List Byte) := none
deriving DecidableEq, Repr

/-- A band tile on a lane: its station, its stream by its first line, and the tile's row and column in the stream. -/
structure BandRun where
  st : Nat
  ln0 : Nat
  row : Nat
  col : Nat
  run : TileRun
deriving DecidableEq, Repr

/-- What holds a lane (R180). -/
inductive Lane
  | idle
  | band (b : BandRun)
  | job (j : JobRun)
  | suspended (j : JobRun)
  | saving (j : JobRun) (abort : Bool)
  | hold (j : JobRun)
deriving DecidableEq, Repr

/-- A save image that this unit has written (R195): its 60 bytes of lane state, and what they stand for, which no reset
changes. -/
structure SavedJob where
  bytes : List Byte
  job : JobRun
deriving DecidableEq, Repr

/-- FX beside its registers. -/
structure Fx where
  /-- The streams of each station, oldest first. -/
  streams : Tab (List Stream) := []
  /-- Line ranges at or above FILLED that belong to ended streams (R187). -/
  ended : Tab (List (Nat × Nat)) := []
  lanes : Tab Lane := []
  /-- The ends of jobs whose records are not written yet, in order: time and lane (R197). -/
  order : List (Nat × Nat) := []
  saved : List SavedJob := []
deriving DecidableEq, Repr

/-! ### Scan synchronisation -/

/-- A scan's arrival in the predictor history (R211): k and the corrected arrival U, in units of 2^−24 tick. -/
structure Arrival where
  k : Nat
  u : Int
  coasted : Bool
deriving DecidableEq, Repr

/-- The scan whose SOS was taken last: its facet, Tf_est and prediction, its SOS time, whether it was coasted or failed
a bound, and its MOS and EOS (none while open; a miss is `some none`). Times in units of 2^−24 tick. -/
structure CurScan where
  k : Nat
  f : Nat
  tf : Int
  p : Int
  sos : Int
  coasted : Bool := false
  failed : Bool := false
  mos : Option (Option Int) := none
  eos : Option (Option Int) := none
deriving DecidableEq, Repr

/-- A prediction formed for a scan (R211, R212): P_k, Tf_est, and the shadow predictions of R221. -/
structure Pred where
  k : Nat
  p : Int
  tf : Int
  shadows : List Int := []
deriving DecidableEq, Repr

/-- A station's part of SCN beside its registers. -/
structure Scn where
  /-- The last raw SOS in SPINUP, the last intervals, newest first, and those taken since the last check. -/
  lastRaw : Option Int := none
  intervals : List Int := []
  sinceCheck : Nat := 0
  checkOk : Bool := false
  /-- An index edge has been seen; the next SOS must be facet 0 (R209, R210). -/
  indexSeen : Bool := false
  indexDue : Bool := false
  scansNoIndex : Nat := 0
  /-- Arrivals, newest first. -/
  hist : List Arrival := []
  preds : List Pred := []
  /-- The last edge on each sensor input, in raw sixteenths of a tick (R204). -/
  edges : Tab Nat := []
  cur : Option CurScan := none
  /-- Tf_est in use, in units of 2^−24 tick. -/
  tf : Int := 0
  /-- k0 of R200, once numbered; revolutions since entry to ACQUIRE; the table was valid at entry. -/
  k0 : Option Int := none
  revs : Nat := 0
  begun : Bool := false
  warm : Bool := false
  /-- An out-of-bound check failed in this revolution; in the last one. -/
  outNow : Bool := false
  outLast : Bool := false
  missSos : Nat := 0
  missMos : Nat := 0
  missEos : Nat := 0
  /-- The scans whose sets are to be handed over, and the times from which that happens (R215). -/
  due : List (Nat × Tick) := []
  /-- Tf_est as last passed to the polygon channel (R201), in units of 2^−24 tick. -/
  feed : Option Int := none
  /-- Δ to be added to the history at the next facet gap (R219). -/
  delta : Int := 0
  /-- The delay-line calibration set in use (R205). -/
  tdcBand : Nat := 1
  /-- Tap groups calibrated in facet gaps (R484). -/
  taps : Nat := 0
  /-- log2 of W (R221). -/
  wLog : Nat := 3
  /-- Scans in the block of R221 and the sums of e² of the four shadow predictors; W to take at the next facet 0. -/
  block : Nat := 0
  sums : List Nat := [0, 0, 0, 0]
  nextW : Option Nat := none
  /-- Squared second differences and squared errors, newest first, at most 4,096 (R222, R223). -/
  second : List Nat := []
  errs : List Nat := []
  lockedScans : Nat := 0
  /-- Scans since SCN_RATIO was last updated. -/
  sinceRatio : Nat := 0
deriving DecidableEq, Repr

/-! ### The exposure path and links -/

/-- A stream as EXP counts it (R235), and whether an EXPOSE has bound it. -/
structure BandUse where
  /-- The sheet's handle, here and below. -/
  sheet : Nat
  ln0 : Nat
  row0 : Nat
  nrows : Nat
  lw : Nat
  bound : Bool := false
deriving DecidableEq, Repr

/-- A live binding (R230). `action` is the index of its EXPOSE action, `line` is T_line in Q24.8 ticks. -/
structure Binding where
  sheet : Nat
  action : Nat
  t0 : Nat
  tA : Tick
  ln0 : Nat
  stop : Nat
  row0 : Nat
  line : Nat
deriving DecidableEq, Repr

/-- A set that SCN has handed over (R215), and the binding of its scan (R231). S_k is in sixteenths of a tick; Y_k and
B_k are those of its binding. -/
structure ScanSet where
  k : Nat
  f : Nat
  s16 : Int
  inc1 : Nat
  inc2 : Nat
  posM : Int
  at' : Tick
  binding : Option Binding := none
  y : Int := 0
  b : Int := 0
  /-- EXP_REG in force for this scan (R241). -/
  reg : Word := 0
  /-- The emitters whose BAR was not 0 at the hand-over: they send code 0 (R233, R245; log entry 100). -/
  dead : List Nat := []
deriving DecidableEq, Repr

/-- A frame in transmission (R253): its set, its SOF, its logical data blocks, both header copies first, the pulse table
of its band as the companion has it (R248), whether a clamp acted, and whether EOF will carry ABORT (R259). -/
structure ExpFrame where
  set : ScanSet
  sof : Tick
  band : Nat
  blocks : List (BitVec 64)
  table : List Byte
  clamp : Bool
  abort : Bool := false
deriving DecidableEq, Repr

/-- A lane-aligned control block (R252): its marker time and the block of each logical data lane. -/
structure CtlBlock where
  marker : Tick
  lanes : List (BitVec 64)
deriving DecidableEq, Repr

/-- A frame that has ended (R264): whether a status record has named it, and whether its header repair is counted. -/
structure SentFrame where
  k : Nat
  sheet : Nat
  eof : Tick
  answered : Bool := false
  fixed : Bool := false
deriving DecidableEq, Repr

/-- A LIGHT block (R252). -/
structure Light where
  mode : Nat
  emitter : Nat
  level : Nat
  start : Nat
  len : Nat
  marker : Tick
deriving DecidableEq, Repr

/-- A station's parts of EXP and XLK beside their registers. -/
structure Exp where
  uses : List BandUse := []
  bindings : List Binding := []
  /-- Sets handed over whose scan has not been sent or dropped. -/
  sets : List ScanSet := []
  /-- The last 16 sets handed over, newest first, each as it was bound then (R218, R231). -/
  handed : List ScanSet := []
  /-- The last 16 scans whose sets were not handed over, newest first, each with the sheet it counts as bound to (R232). -/
  unsent : List (Nat × Nat) := []
  frame : Option ExpFrame := none
  /-- Scans whose band reads are finished while the set of the scan after is not known yet (R235). -/
  lwDue : List (Nat × Binding) := []
  /-- The last EOF: its time, ABORT and the CRC fields of the four lanes. -/
  eof : Option (Tick × Bool × List Nat) := none
  /-- Frames that have ended and that a status record may still name. -/
  waiting : List SentFrame := []
  /-- The block start of the last BLANK. -/
  blank : Option Tick := none
  light : Option Light := none
  /-- LIGHT CONT has been sent and not yet LIGHT OFF (R258). -/
  cont : Bool := false
  /-- For each sensor, the scan whose window has been given its LIGHT (R258). -/
  lit : Tab Nat := []
  /-- The last 16 control blocks other than IDLE, newest first (R252). -/
  ctl : List CtlBlock := []
  /-- The writes of EXP_RETIRE that wait for a gap point, in order (R247). -/
  retire : List (Nat × Nat) := []
  /-- Emitters marked WORN (R244). -/
  worn : List Nat := []
  /-- The time at which the link entered its state, its run of good records, and the time of its last valid record. -/
  since : Tick := 0
  locks : Nat := 0
  lastRec : Option Tick := none
  /-- For each logical lane, whether each of the last 64 frames failed its CRC, newest first. -/
  crcHist : Tab (List Bool) := []
  /-- Logical lanes whose substitution is due (R262). -/
  subst : List Nat := []
  /-- The tables are to be sent at the next gap point (R250). -/
  tblDue : Bool := false
  /-- The table of each band as the companion got it (R250). -/
  tables : Tab (List Byte) := []
  /-- The block start at which the last table load is over (R259, R262). -/
  tblEnd : Tick := 0
  /-- The equalisation preset of the frame or table load in transmission (R423). -/
  preset : Nat := 0
  /-- The band that the next SOF takes (R249). -/
  bandNext : Nat := 0
  /-- INC1 of the last set handed over (R246). -/
  inc1 : Option Nat := none
  /-- Beam power calibration (R484): the next emitter, and the emitter lit with the end of its window. -/
  beamNext : Nat := 0
  beamWait : Option (Nat × Tick) := none
deriving DecidableEq, Repr

/-! ### Field-oriented channels -/

/-- An output ball takes a level at a time. -/
structure PinEdge where
  pin : Nat
  at' : Tick
  on : Bool
deriving DecidableEq, Repr

/-- A command that waits for a latch: the handle of the sheet whose action delivered it (R294), and the entry whose spoil
list it came from (R80). -/
structure FocReq where
  handle : Option Nat := none
  spoil : Option Nat := none
deriving DecidableEq, Repr

/-- A channel of FOC beside its registers. Exact integers: currents in 2^−20 current units, I_ω likewise, voltages and
their integrators in 2^−36 units of R275, ω_r in speed units ÷ 6,400,000. -/
structure FocCh where
  startReq : Option FocReq := none
  stopReq : Option FocReq := none
  /-- What delivered the reference that waits for the latch, and the START that was accepted last (R294). -/
  refBy : Option FocReq := none
  startBy : Option FocReq := none
  /-- The reference register that a Timetable command wrote last, and when (R295). -/
  ttAt : Option (Nat × Tick) := none
  iqRef : Int := 0
  idRef : Int := 0
  spdRef : Int := 0
  /-- The speed reference in force that the guard of R285 returns to. -/
  spdOk : Int := 0
  ramp : Int := 0
  intD : Int := 0
  intQ : Int := 0
  intW : Int := 0
  /-- On-times in force, and those that take effect from the next period (R274); none while the bridge is not switching. -/
  duty : Option (Nat × Nat × Nat) := none
  dutyNext : Option (Nat × Nat × Nat) := none
  /-- The edges of the six bridge outputs UH, UL, VH, VL, WH and WL, oldest first (R270, R272). -/
  edges : List PinEdge := []
  /-- Periods in CATCH, or periods of good tracking in FIND. -/
  count : Nat := 0
  /-- A phase current has passed IOC ÷ 2 in CATCH (R282). -/
  caught : Bool := false
  /-- The pair of polarity pulses in FIND (R278): its length, what is left of it in periods, and its voltage on the d axis. -/
  polarLen : Nat := 0
  polarLeft : Nat := 0
  polarV : Int := 0
  /-- θ of the last period, and the movement since the entry to FIND (R283). -/
  theta : Nat := 0
  moved : Int := 0
  /-- The start's sense is negative (R281). -/
  neg : Bool := false
  /-- Start attempts made (R283); FOC_STATE.ATTEMPTS shows at most 15. -/
  attempts : Nat := 0
  attemptAt : Tick := 0
  retryAt : Tick := 0
  hfi : Bool := false
  /-- The last edge on the command pin, the last rising edge, the last falling edge, in ticks, and the level. -/
  pinEdge : Option Tick := none
  pinRise : Option Tick := none
  pinFall : Option Tick := none
  pinHigh : Bool := false
deriving DecidableEq, Repr

/-- A supply bus beside its registers (R286, R287). -/
structure FocBus where
  v0 : Nat := 0
  /-- The start of t_chop, while its check is to come. -/
  chopAt : Option Tick := none
  /-- The level of BRK (R270). -/
  brk : Bool := false
  /-- Regeneration is restricted (R286). -/
  restrict : Bool := false
  /-- The time of the last sample (R286). -/
  sampleAt : Option Tick := none
deriving DecidableEq, Repr

/-- FOC beside its registers. -/
structure Foc where
  ch : Tab FocCh := []
  bus : Tab FocBus := []
  /-- A pending engine substitution: channel and engine (R271). -/
  subst : Option (Nat × Nat) := none
deriving DecidableEq, Repr

/-! ### Stepper channels -/

/-- A command that waits for the motion-period boundary (R310): when it came, the sheet handle whose action delivered it,
the entry whose spoil list it came from (R80), and whether it only changes the target or speed of a channel that already
moves (R325). -/
structure StpReq where
  time : Tick := 0
  handle : Option Nat := none
  spoil : Option Nat := none
  soft : Bool := false
deriving DecidableEq, Repr

/-- A step of a STEP/DIR channel (R304): its crossing, the edges of STEP, the change of DIR before it, and the edges of it
that were delayed and are not counted yet. -/
structure StepPulse where
  cross : Tick
  rise : Tick
  fall : Tick
  dir : Option (Tick × Bool) := none
  late : Nat := 0
deriving DecidableEq, Repr

/-- The current loop of one winding (R305): the integrator, in 2^−36 units of R275, and the on-times of its two half
bridges in force and for the next period. -/
structure Winding where
  int : Int := 0
  duty : Option (Nat × Nat) := none
  dutyNext : Option (Nat × Nat) := none
deriving DecidableEq, Repr

/-- A channel of STP beside its registers. Positions in 2^−32 position units, speeds in 2^−16 speed units (R303). -/
structure StpCh where
  /-- P_m and P_{m+1} of the running motion period, its start, and the last integer crossed at that start. -/
  p0 : Int := 0
  p1 : Int := 0
  t0 : Tick := 0
  pos : Int := 0
  /-- The generator before the S-curve mean: its position and speed, the speeds it produced last, and the speed applied. -/
  gp : Int := 0
  gv : Int := 0
  raw : List Int := []
  /-- The last JT generator positions, newest first, none at rest (R308). -/
  rawP : List Int := []
  v : Int := 0
  /-- The commands that wait for a boundary, each kind in order (R310). -/
  go : List StpReq := []
  stop : List StpReq := []
  halt : List StpReq := []
  resume : List StpReq := []
  clear : List StpReq := []
  /-- The HALT that waits for its report has stopped the channel (R315). -/
  halted : Bool := false
  /-- The ramp stop is SAFE's (R314). -/
  bySafe : Bool := false
  s0 : Int := 0
  m0 : Int := 0
  /-- The speeds of the last 1,000 periods, newest first; none where all are 0 (R321). -/
  past : List Int := []
  encFault : Bool := false
  fbV : Int := 0
  /-- Target and speed that Timetable actions wrote since the last boundary (R327). -/
  ttTgt : Option (Int × Tick) := none
  ttV : Option (Int × Tick) := none
  /-- Held LO words of the pairs (R309). -/
  tgtLo : Option Word := none
  posLo : Option Word := none
  restAt : Tick := 0
  hold : Bool := false
  stalls : Nat := 0
  /-- Channels 16–31 (R300, R304): the last rising edge of STEP, the direction DIR shows, the time from which the other
  direction is known, the steps whose edges are to come, and whether EN enables the driver. -/
  rise : Option Tick := none
  dirNeg : Bool := false
  revAt : Option Tick := none
  steps : List StepPulse := []
  enabled : Bool := false
  /-- Channels 0–15 (R300, R305): windings A and B, and the edges of the outputs A1H, A1L, A2H, A2L, B1H, B1L, B2H, B2L. -/
  windA : Winding := {}
  windB : Winding := {}
  edges : List PinEdge := []
deriving DecidableEq, Repr

/-- The sampling filter of an input (R48, R317, R345, R353): the level of the last sample and how many in a row had it, and the level the
input is taken to have, none before the first. -/
structure InFilter where
  raw : Bool := false
  run : Nat := 0
  level : Option Bool := none
deriving DecidableEq, Repr

/-- An encoder beside its registers: its inputs, the held LO word, the count at the last rising Z edge, and the counts of
the last 6,400,000 ticks, newest first, with their times. -/
structure StpEnc where
  inA : InFilter := {}
  inB : InFilter := {}
  inZ : InFilter := {}
  lo : Option Word := none
  z : Option Int := none
  hist : List (Tick × Int) := []
deriving DecidableEq, Repr

/-- STP beside its registers. -/
structure Stp where
  ch : Tab StpCh := []
  enc : Tab StpEnc := []
deriving DecidableEq, Repr
/-! ### High voltage, fuser and media path -/

/-- A unit of HV beside its registers (R335, R338): the ramp in progress, with the periods it has done, and the last two
changes of the value, newest first. -/
structure HvUnit where
  v0 : Nat := 0
  v1 : Nat := 0
  n : Nat := 0
  i : Nat := 0
  ramping : Bool := false
  chg : List (Tick × Nat) := []
  /-- When a Timetable action started the last ramp (R341). -/
  ttAt : Option Tick := none
deriving DecidableEq, Repr

/-- An AC generator (R337): phase, band and increment in use, and the high time of the running period. -/
structure HvAc where
  phase : Nat := 0
  band : Nat := 0
  high : Nat := 0
deriving DecidableEq, Repr

/-- HV beside its registers. -/
structure Hv where
  unit : Tab HvUnit := []
  ac : Tab HvAc := []
  /-- The AC tables: key 2,048 × generator + 256 × band + entry. -/
  wave : Tab Nat := []
  /-- The last period boundary taken. -/
  last : Option Tick := none
  /-- SAFE stages: when the one in progress began, its units, and whether it has ended (R340). -/
  stageAt : Tick := 0
  units : List Nat := []
  ended : Bool := false
deriving DecidableEq, Repr

/-- A zone of FUS beside its registers. -/
structure FusZone where
  run : Int := 0
  acc : Int := 0
  /-- The demand before the last control period's end, and the induction demand applied. -/
  dOld : Nat := 0
  da : Nat := 0
  /-- Codes of this control period: their sum and number. -/
  sum : Nat := 0
  cnt : Nat := 0
  /-- T at the last control period ends, newest first. -/
  temps : List Int := []
  ttSp : Option Tick := none
  /-- Consecutive samples beyond the threshold (R351). -/
  ot : Nat := 0
  /-- The intervals in which ball HEAT is or will be high by a gate pulse, or by what it was when the zone left RUN (R342,
  R345). -/
  gate : List (Tick × Tick) := []
deriving DecidableEq, Repr

/-- FUS beside its registers. -/
structure Fus where
  zone : Tab FusZone := []
  lastTc : Tick := 0
  /-- The last mains edge, the last intervals newest first, the zones conducting, and the changes of the last 63 cycles. -/
  edge : Option Tick := none
  ivals : List Nat := []
  on : List Nat := []
  changes : List Nat := []
  /-- The loss of edges since the last one has been taken (R345). -/
  lost : Bool := false
  /-- The filter of ball ZC. -/
  zc : InFilter := {}
deriving DecidableEq, Repr

/-- An open window of a sense input (R354). -/
structure SnsWin where
  input : Nat
  sheet : Nat
  claim : Nat
  trail : Bool
  start : Tick
  stop : Tick
  guard : Nat
deriving DecidableEq, Repr

/-- SNS beside its registers: the filters of the inputs, the open windows, oldest first, the pulses with the ends they return
at, when the Timetable last wrote each output, and the ACT edge at which each output's ball takes its register's level, with
the level that it has until then (R353–R355). -/
structure Sns where
  inp : Tab InFilter := []
  turn : Tab (Option (Tick × Bool)) := []
  win : List SnsWin := []
  pulse : Tab (Option Tick) := []
  ttOut : Tab (Option Tick) := []
deriving DecidableEq, Repr

/-! ### DMA and Platforms -/

/-- A fetched descriptor: its ring index and its bytes, or the status with which its read failed (R361). -/
structure DmaDesc where
  idx : Nat
  bytes : List Byte := []
  bad : Option Nat := none
deriving DecidableEq, Repr

/-- A descriptor in execution (R364): the 16-byte units done, the time of the last, and its status and offset once it
has ended. -/
structure DmaExec where
  d : DmaDesc
  done : Nat := 0
  lastAt : Tick := 0
  fin : Option (Nat × Nat) := none
deriving DecidableEq, Repr

/-- A channel of the DMA beside its registers. -/
structure DmaCh where
  out : List DmaDesc := []
  ex : Option DmaExec := none
  stall : Bool := false
  halted : Bool := false
  /-- HEAD before the write of this CORE cycle (R361). -/
  headPrev : Nat := 0
  headAt : Option Tick := none
deriving DecidableEq, Repr

/-- The DMA beside its registers: its channels, and the one granted last. -/
structure Dma where
  ch : Tab DmaCh := []
  last : Nat := 31
deriving DecidableEq, Repr

/-- A Platforms channel's queues, oldest word first, each word with the REF edge at which it entered (R375, R377). -/
structure PltCh where
  ab : List (Word × Tick) := []
  ba : List (Word × Tick) := []
deriving DecidableEq, Repr

/-- A word on its way into a queue, and the REF edge at which it enters (R377). -/
structure PltFly where
  ch : Nat
  toB : Bool
  word : Word
  due : Tick
deriving DecidableEq, Repr

/-- PLT beside its registers. -/
structure Plt where
  ch : Tab PltCh := []
  fly : List PltFly := []
deriving DecidableEq, Repr


/-! ### The Signal Box -/

/-- A block's resets: when the last began, the end of its shadow once the block has reported, and the earlier windows
whose events may still wait to be taken (R386, R390). -/
structure SbxRst where
  start : Tick
  shadow : Option Tick := none
  past : List (Tick × Tick) := []
deriving DecidableEq, Repr

/-- A Line fault message received and not yet taken (R385, R395): its arrival and its payload. -/
structure RemoteFault where
  at' : Tick
  payload : Nat
deriving DecidableEq, Repr

/-- The Signal Box beside its registers. -/
structure Sbx where
  raised : List Raised := []
  remote : List RemoteFault := []
  /-- Timestamp of the last recorded event of each source (R389). -/
  last : Tab Tick := []
  rst : Tab (Option SbxRst) := []
  /-- A chip reset has begun and CRST has not ended (R391). -/
  chip : Bool := false
  /-- Cores whose NMI is in service (R391). -/
  nmi : List Nat := []
  /-- ERR_N is low, since when (R392). -/
  errLow : Bool := false
  errAt : Tick := 0
  /-- The holding copies of history words 1–3, by port (R393). -/
  hold : Tab (List Word) := []
  /-- The last emission of each source, its latest held event, and the number held (R394). -/
  sent : Tab (Option Tick) := []
  held : Tab (Option Nat) := []
  heldN : Tab Nat := []
deriving DecidableEq, Repr

/-! ### Power -/

/-- What PWR takes at a REF edge (R414): a wake event or an on request for a domain, an off request of firmware, the
domain changes of a mode event, an ARCHIVE request. -/
inductive PwrKind
  | wake (d : Nat)
  | on (d : Nat)
  | off (d : Nat)
  | change (up down : List Nat)
  | archive
deriving DecidableEq, Repr

structure PwrReq where
  due : Tick
  kind : PwrKind
deriving DecidableEq, Repr

/-- PWR beside its registers. -/
structure Pwr where
  /-- Events and requests not yet taken, in order of arrival. -/
  reqs : List PwrReq := []
  /-- When the step in progress of a domain began; none while it waits. -/
  stepAt : Tab (Option Tick) := []
  /-- Domains with an on event that wait for a parent; domains that a mode change is to lower. -/
  want : List Nat := []
  wantOff : List Nat := []
  /-- The engine-set domains that the mode change has yet to begin, in order, and the one in progress (R402). -/
  plan : List Nat := []
  planUp : Bool := true
  cur : Option Nat := none
  /-- The domains of the mode change that have not reached their state. -/
  left : List Nat := []
  /-- A SAFE trigger has ended the change into READY (R44). -/
  endSafe : Bool := false
  /-- The last on event of each domain (R410). -/
  onAt : Tab (Option Tick) := []
  /-- When the ARCHIVE request was taken, while its entry waits (R411); the entry is lowering; a wake is held (R413). -/
  archAt : Option Tick := none
  archive : Bool := false
  heldWake : Bool := false
  /-- Entry to ARCHIVE, for the wake timer (R412). -/
  archIn : Option Tick := none
  /-- Thermal shutdown lowers the domains (R425). -/
  thermal : Bool := false
  /-- A thermal shutdown has begun, which only POR ends (R42). -/
  shut : Bool := false
  /-- Consecutive readings within tolerance, and when the voltage request began (R416). -/
  vreqGood : Nat := 0
  vreqAt : Tick := 0
  /-- Consecutive codes of each rail outside its window (R417). -/
  vmonBad : Tab Nat := []
  /-- The sequencer: its rail, when it last moved, whether the rail's enable is still to come or go, its latches, the
  time since which VIN_OK is high, and whether POR is held (R418). -/
  seqRail : Nat := 7
  seqAt : Tick := 0
  seqGap : Bool := false
  railLatch : Bool := false
  thermLatch : Bool := false
  vinAt : Option Tick := none
  /-- The filters of the PGOOD balls, of VIN_OK and of WAKE_N (R412, R417). -/
  pgIn : Tab InFilter := []
  vinIn : InFilter := {}
  wakeIn : InFilter := {}
  porHeld : Bool := false
  /-- RAILEN levels, bit i for rail i. -/
  railEn : Nat := 255
  /-- Standby reset holds the sequencer (R418). -/
  standby : Bool := false
deriving DecidableEq, Repr

/-- THM beside its registers (R420–R425): the values in use, counters of disagreement by pair and of values at the
shutdown threshold by sensor, the TMAX samples of the last millisecond and the sums of the last 101, newest first, when
the release conditions began to hold, entry to ADVISE, whether RISE was above its limit, and the power allowance. -/
structure Thm where
  vals : Tab Int := []
  differ : Tab Nat := []
  hot : Tab Nat := []
  samples : List (Tick × Int) := []
  sums : List Int := []
  calm : Option Tick := none
  advAt : Tick := 0
  rising : Bool := false
  allow : Nat := 3200
  /-- The last change of the band, and the band before it (R423). -/
  turn : Option (Tick × Nat) := none
deriving DecidableEq, Repr

/-- A mode event that waits for the end of its edge (R43): a SAFE trigger, the filtered level of INTLK_N (asserted or not),
the end of the check that began at a time, or a request for the mode of a code. -/
inductive ModeEv
  | safe
  | interlock (on : Bool)
  | checkEnd (start : Tick)
  | request (mode : Nat)
deriving DecidableEq, Repr

/-- A mode event and the edge at which it is taken. -/
structure ModeDue where
  due : Tick
  ev : ModeEv
deriving DecidableEq, Repr

/-- SYS beside its registers: the mode events of edges that are not over yet (R43), INTLK_N as it is taken (asserted) and its
filter, the boot ROM's turn, the two slots of the boot
flash as the part last found them (none where the flash does not answer), and a DRAM wipe in progress (R473). -/
structure Sys where
  events : List ModeDue := []
  intlk : Bool := false
  intlkIn : InFilter := {}
  /-- A CRST or POR holds the part until the root PLL locks, and the boot ROM is to run (R26, R456). -/
  bootDue : Bool := true
  slotA : Option (List Byte) := none
  slotB : Option (List Byte) := none
  wiping : Bool := false
deriving DecidableEq, Repr

/-! ### The Line and the host interface -/

/-- A Line frame (R438); CHECK is recomputed at every hop. -/
structure Frame where
  type : Nat
  origin : Nat
  dest : Nat := 0
  hops : Nat := 0
  seq : Nat := 0
  p0 : Nat := 0
  p1 : Nat := 0
deriving DecidableEq, Repr

/-- A Line port beside LINE_STATUS (R439, R441, R444). -/
structure LinePort where
  /-- The four send queues, highest priority first. -/
  q : List (List Frame) := [[], [], [], []]
  /-- The end of the frame in transmission, and the frame last put on the wire. -/
  freeAt : Tick := 0
  wire : Option Frame := none
  /-- The time at which the port entered its state. -/
  since : Tick := 0
  /-- Whether each of the last 1,024 received frames failed its CRC, newest first. -/
  recent : List Bool := []
  /-- The equalisation preset of the frames in transmission (R443). -/
  preset : Nat := 0
  /-- The last 16 hop delays, newest first, and the time of the last DELAY_REQ. -/
  delays : List Int := []
  lastReq : Option Tick := none
  /-- The last SYNC received: its h and its arrival. -/
  sync : Option (Nat × Tick) := none
deriving DecidableEq, Repr

/-- What a device knows of another Line device (R440, R442). -/
structure Peer where
  incarn : Option Nat := none
  lastPub : Option Nat := none
  lastUni : Option Nat := none
deriving DecidableEq, Repr

/-- The counters of a Platforms channel carried over the Line (R452): SENT and ACCOUNTED as the sender holds them, and
the last SENT received and ACCOUNTED as the destination holds them. -/
structure PltLink where
  sent : Nat := 0
  credited : Nat := 0
  got : Nat := 0
  accounted : Nat := 0
deriving DecidableEq, Repr

/-- LINE beside its registers. -/
structure Line where
  portA : LinePort := {}
  portB : LinePort := {}
  /-- Published points waiting to be sent, in the order in which they became pending (R450). -/
  pubPending : List Nat := []
  peers : Tab Peer := []
  links : Tab PltLink := []
  seqPub : Nat := 0
  seqUni : Nat := 0
  /-- INCARN of this device once its first JOIN was sent (R442). -/
  incarn : Option Nat := none
  /-- The sum of e over the SYNCs taken, of which R_f is the fraction 2^32 ÷ (128 × SYNC_INT) (R446). -/
  eSum : Int := 0
  /-- Consecutive SYNCs in ACQUIRE with |e| ≤ 4 ticks (R447). -/
  inRange : Nat := 0
  /-- The last SYNC taken, or sent by the master. -/
  lastSync : Tick := 0
deriving DecidableEq, Repr

/-- An MSI-X table entry (R434): message address and data, and its mask bit. -/
structure MsixEntry where
  addr : Nat := 0
  data : Nat := 0
  masked : Bool := true
deriving DecidableEq, Repr

/-- HST beside its registers (R429–R435). -/
structure Hst where
  /-- PERST_N is low. -/
  perst : Bool := false
  fnMask : Bool := false
  table : Tab MsixEntry := []
  pending : List Nat := []
  /-- The vectors whose condition held when it was last evaluated. -/
  cond : List Nat := []
  /-- The vectors whose message was sent last, newest first. -/
  sent : List Nat := []
deriving DecidableEq, Repr

/-! ### Trust, Ledger and background services -/

/-- The OTP beside what the spec leaves to Elhal (R461): LC bits set, rollback counts, OEM_HASH, the private key with its
public key once fused, SUBSYS. -/
structure Otp where
  lc : Nat := 0
  rb : Tab Nat := []
  oem : Nat := 0
  key : Option Nat := none
  pub : Nat × Nat := (0, 0)
  subsys : Nat := 0
deriving DecidableEq, Repr

/-- A SEC command that runs (R462): what it took when it began. -/
structure SecCmd where
  op : Nat
  arg : Nat
  arg2 : Nat
  start : Tick
  data : List Byte
deriving DecidableEq, Repr

/-- SEC beside its registers: the OTP, the running command, whether RELEASE1 has taken effect (R460), and the meter
counts (R464): DELIVERED_TOTAL, NONBILL_TOTAL, the next METER_SEQ. -/
structure Sec where
  otp : Otp := {}
  cmd : Option SecCmd := none
  released : Bool := false
  delivered : Nat := 0
  nonbill : Nat := 0
  meterSeq : Nat := 0
deriving DecidableEq, Repr

/-- Work of LDG (R477): a record, a wear-levelling move (kind 0) or a wear fold (kind 0x100 + station), with the region
unit its first unit took, and the units written. -/
structure LdgReq where
  cls : Nat
  kind : Nat
  units : Nat
  time : Tick
  body : List Byte
  base : Option Nat := none
  seq : Nat := 0
  done : Nat := 0
deriving DecidableEq, Repr

/-- The Ledger beside its registers and its memory: the record in progress and those that wait; each region's record
count; the sector map where it is not the identity, write counts, reserve and retired sectors (R480); what SEC and TT
recover from its records (R464); the METER records not released (R479); a CERT record is present; rows repaired. All but
the first two are non-volatile. -/
structure Ldg where
  cur : Option LdgReq := none
  queue : List LdgReq := []
  seq : Tab Nat := []
  map : Tab (Option Nat) := []
  counts : Tab Nat := []
  reserve : List Nat := (List.range 128).map (· + 896)
  out : Nat := 0
  delivered : Nat := 0
  nonbill : Nat := 0
  meterSeq : Nat := 0
  meterUsed : Nat := 0
  cert : Bool := false
  repaired : List Nat := []
deriving DecidableEq, Repr

/-- BKG beside its registers: when the SRAM pass began and whether it is late, the pass numbers of each 1 KiB row's
corrections, newest first, the WEAR bases by 48 × station + emitter and the stations whose bases are read, the domains
whose power-down waits for folds that LDG has not written yet (R485), the times of the last fold and of the last telemetry
snapshot, and a snapshot that waits for SEC. -/
structure Bkg where
  passAt : Tick := 0
  late : Bool := false
  rows : Tab (List Nat) := []
  bases : Tab Nat := []
  based : List Nat := []
  lastFolds : List Nat := []
  foldAt : Tick := 0
  telAt : Tick := 0
  tel : Option (List Byte) := none
deriving DecidableEq, Repr

/-! ### The whole state -/

/-- The state of the PX9. -/
structure State where
  /-- The commands that are waiting, first in, first out. -/
  pending : List Instr
  /-- The model's own count of the free values taken (log entry 3); no spec state. -/
  fresh : Nat
  clk : Clk
  /-- Every register field's home: on-chip address and word, addresses rising, no entry at its reset value. -/
  regs : List (Nat × Word)
  /-- Registers with class S values that are pending (R16). -/
  held : Tab Held
  /-- What hardware has set in the CORE cycle of its stamp (R14). -/
  hwSet : HwSet
  /-- Memory: on-chip regions and DRAM by system physical address (R31, R33), in canonical form. -/
  mem : List Host.Cell
  /-- Addresses of 64-bit words that hold an uncorrectable ECC error (R482). -/
  poison : List Nat
  /-- The last access of each initiator (R11, R466). -/
  acc : Tab AccResult
  points : Tab Word
  /-- Time of each point's last write (R438). -/
  pointTimes : Tab Tick
  /-- Bytes of LPDDR5 installed (R33). -/
  dramSize : Nat
  sbx : Sbx
  tt : Tt
  jct : Jct
  sq : Sq
  gcores : Tab GCore
  line : Line
  hst : Hst
  ldg : Ldg
  sec : Sec
  bkg : Bkg
  fx : Fx
  scn : Tab Scn
  exp : Tab Exp
  foc : Foc
  stp : Stp
  hv : Hv
  fus : Fus
  sns : Sns
  dma : Dma
  plt : Plt
  pwr : Pwr
  thm : Thm
  sys : Sys
deriving DecidableEq, Repr

/-- The machine right after power-on reset, before the boot ROM runs (R17, R26, R42, R128): the rail sequencer is UP with
every input high, for only so does it release POR (R418). -/
def State.reset : State :=
  { pending := [], fresh := 0, clk := {}, regs := [(Reg.PWR_SEQ_STATUS, 0x00FF7002)], held := [], hwSet := {},
    mem := [], poison := [], acc := [], points := [],
    pointTimes := [], dramSize := 0x100000000,
    sbx := {}, tt := {}, jct := {}, sq := {}, gcores := [], line := {}, hst := {}, ldg := {}, sec :=
    {}, bkg := {}, fx := {}, scn := [], exp := [], foc := {}, stp := {}, hv := {}, fus := {}, sns :=
    {}, dma := {}, plt := {}, pwr := {}, thm := {}, sys := {} }

end Sys2Proof.Machine
end

