-- ==== Sys2Proof/Machine/Ops.lean ====
section
/-!
DEFINITION. The named operations every block uses: register fields, class S values, time, raising events, memory bytes,
signal points, free values and Ledger record requests.
-/

namespace Sys2Proof.Machine

/-! ### Registers -/

/-- The stored word of the register at an on-chip address; its reset value where State lists none (R17). -/
def State.reg (s : State) (a : Nat) : Word :=
  match s.regs.find? (fun p => p.1 == a) with
  | some p => p.2
  | none => resetReg a

/-- Store a register word, keeping the canonical form: no entry equals the register's reset value. -/
def State.setReg (s : State) (a : Nat) (v : Word) : State :=
  { s with regs := if v = resetReg a then Tab.erase a s.regs else Tab.insert a v s.regs }

/-- A field of a register, as a number. -/
def State.f (s : State) (a hi lo : Nat) : Nat := bits (s.reg a) hi lo

/-- A one-bit field. -/
def State.fb (s : State) (a i : Nat) : Bool := bits (s.reg a) i i == 1

/-- Write a field of a register. -/
def State.setF (s : State) (a hi lo n : Nat) : State := s.setReg a (putBits (s.reg a) hi lo n)

/-- Note that hardware sets bit i of a register in this CORE cycle (R14). -/
def State.noteSet (s : State) (a i : Nat) : State :=
  if s.hwSet.stamp = s.clk.tb then
    if s.hwSet.bits.contains (a, i) then s else { s with hwSet := { s.hwSet with bits := (a, i) :: s.hwSet.bits } }
  else { s with hwSet := { stamp := s.clk.tb, bits := [(a, i)] } }

/-- The bits of a register that hardware has set in this CORE cycle (R14). -/
def State.setHere (s : State) (a : Nat) : Word :=
  if s.hwSet.stamp = s.clk.tb then
    s.hwSet.bits.foldl (fun w p => if p.1 = a then w ||| BitVec.ofNat 32 (2 ^ p.2) else w) 0
  else 0

/-- Write a one-bit field; a bit that is set is noted for R14. -/
def State.setB (s : State) (a i : Nat) (b : Bool) : State :=
  if b then (s.setF a i i 1).noteSet a i else s.setF a i i 0

/-- Add to a saturating counter field. -/
def State.incSat (s : State) (a hi lo : Nat) (k : Nat := 1) : State :=
  s.setF a hi lo (satAdd (hi + 1 - lo) (s.f a hi lo) k)

/-- A 64-bit value held in a LO and a HI register. -/
def State.pair (s : State) (lo hi : Nat) : Nat := (s.reg lo).toNat + 2 ^ 32 * (s.reg hi).toNat

/-- Write a LO and HI register pair; the HI register's upper bits are those of its width. -/
def State.setPair (s : State) (lo hi : Nat) (v : Nat) : State :=
  (s.setReg lo (BitVec.ofNat 32 v)).setReg hi (BitVec.ofNat 32 (v / 2 ^ 32))

/-- The word of a register that is in force: pending class S values are not applied yet (R15, R16). -/
def State.applied (s : State) (a : Nat) : Word :=
  match s.held.find? (fun p => p.1 == a) with
  | some p => p.2.applied
  | none => s.reg a

/-- A field of the word in force. -/
def State.af (s : State) (a hi lo : Nat) : Nat := bits (s.applied a) hi lo

/-- Note that class S fields of a register are written in this CORE cycle with word `v` (R16): the value in force
stays, and the value that a boundary in this same cycle would apply is the one written before. -/
def State.hold (s : State) (a : Nat) (v : Word) : State :=
  let cur := s.reg a
  let h : Held := match s.held.find? (fun p => p.1 == a) with
    | some p => if p.2.stamp = s.clk.tb then p.2 else { applied := p.2.applied, prior := cur, stamp := s.clk.tb }
    | none => { applied := cur, prior := cur, stamp := s.clk.tb }
  { s with held := Tab.insert a h s.held }.setReg a v

/-- The boundary of one register's class S fields (R16): pending values take force, but a value written in this same
CORE cycle waits for the next boundary. -/
def State.applyS (s : State) (a : Nat) : State :=
  match s.held.find? (fun p => p.1 == a) with
  | some p =>
    if p.2.stamp = s.clk.tb then
      { s with held := Tab.insert a { p.2 with applied := p.2.prior } s.held }
    else { s with held := Tab.erase a s.held }
  | none => s

/-- The boundary of several registers. -/
def State.applyAll (s : State) (as : List Nat) : State := as.foldl State.applyS s

/-- Set a field of a class S register at once, in the pending word and in the word in force: an effect of the hardware
on a field that firmware writes through a boundary. -/
def State.setNow (s : State) (a hi lo n : Nat) : State :=
  { s.setF a hi lo n with held := s.held.map fun p =>
      if p.1 = a then (p.1, { p.2 with applied := putBits p.2.applied hi lo n, prior := putBits p.2.prior hi lo n })
      else p }

/-! ### Time -/

/-- The CORE edge of a time: the first multiple of 8 ticks at or after it (R23). -/
def coreEdge (t : Tick) : Tick := nextMultiple 8 t

/-- The time base that AON gives an event: the running count, or while the root clock is stopped the latched value plus
256 ticks for each REF cycle counted since (R29). -/
def State.now (s : State) : Tick :=
  if s.clk.run then s.clk.tb else s.clk.latchTb + 256 * (s.clk.ref - s.clk.latchRef)

/-- Bring the clocks to the time of a command (log entry 1): the CORE edge at or after it while the root clock runs
(R23, R27), with the REF edges passed counted (R29); while it is stopped, only AON's count of REF cycles moves. Time
never goes back (R28). -/
def State.clockTo (s : State) (t : Tick) : State :=
  if s.clk.run then
    let tb := max s.clk.tb (coreEdge t)
    { s with clk := { s.clk with tb := tb, ref := s.clk.ref + (tb / 256 - s.clk.tb / 256) } }
  else
    { s with clk := { s.clk with ref := max s.clk.ref (s.clk.latchRef + ceilDiv (t - s.clk.latchTb) 256) } }

/-- One millisecond in ticks. -/
def ms : Nat := 6400000

/-! ### Events and interrupt bits -/

/-- Raise an event at the Signal Box, timestamped with the time base (R384). -/
def State.raise (s : State) (src ev : Nat) : State :=
  { s with sbx := { s.sbx with raised := s.sbx.raised ++ [{ src := src, ev := ev, ts := s.now }] } }

/-- Signal Box source numbers (R383). -/
def srcSYS : Nat := 0
def srcCLK : Nat := 1
def srcPWR : Nat := 2
def srcTHM : Nat := 3
def srcTT : Nat := 6
def srcSQ : Nat := 7
def srcJCT : Nat := 8
def srcDMA : Nat := 9
def srcPLT : Nat := 10
def srcFX : Nat := 11
def srcSCN (st : Nat) : Nat := 12 + st
def srcEXP (st : Nat) : Nat := 18 + st
def srcFOC : Nat := 24
def srcSTP : Nat := 25
def srcHV : Nat := 26
def srcFUS : Nat := 27
def srcSNS : Nat := 28
def srcLINE : Nat := 29
def srcHST : Nat := 30
def srcSEC : Nat := 31
def srcLDG : Nat := 32
def srcBKG : Nat := 33
def srcMEM : Nat := 34

/-! ### Free values -/

/-- Take a fresh free value: its index, and the state with the counter advanced (log entry 3). -/
def State.takeFresh (s : State) : Nat × State := (s.fresh, { s with fresh := s.fresh + 1 })

/-- One of several that serve alike, by a free value; the only one where there is one (log entries 12 and 37). -/
def pickFree (xs : List Nat) (fresh : Nat) : Option Nat :=
  match xs with
  | [] => none
  | [x] => some x
  | _ => some (xs.getD (Config.freeNat fresh % xs.length) 0)

/-! ### Memory -/

/-- What a byte that nothing has written reads as: zero, since every wipe leaves zeros (R472; log entry 5). -/
def memDefault : Byte := 0

/-- One byte of memory. -/
def readByte (m : List Host.Cell) (a : Nat) : Byte := Tab.get memDefault m a

/-- Write one byte of memory, keeping the canonical form. -/
def writeByte (m : List Host.Cell) (a : Nat) (b : Byte) : List Host.Cell := Tab.put memDefault m a b

/-- `n` bytes from an address up. -/
def readBytes (m : List Host.Cell) (a : Nat) : Nat → List Byte
  | 0 => []
  | n + 1 => readByte m a :: readBytes m (a + 1) n

/-- Write bytes from an address up. -/
def writeBytes (m : List Host.Cell) (a : Nat) : List Byte → List Host.Cell
  | [] => m
  | b :: bs => writeBytes (writeByte m a b) (a + 1) bs

/-- Drop every byte in [lo, hi): a wipe to zero (R472). -/
def wipeRange (m : List Host.Cell) (lo hi : Nat) : List Host.Cell :=
  m.filter fun c => c.1 < lo || hi ≤ c.1

/-- The memory holds its canonical form: addresses strictly rising, no byte equal to the default. -/
def Memory.wf (m : List Host.Cell) : Bool := keysRise m && noneDefault (fun _ => memDefault) m

/-- The number stored in `n` little-endian bytes at an address (R9). -/
def State.memLE (s : State) (a n : Nat) : Nat := natLE (readBytes s.mem a n)

/-- Store bytes at an address. A 64-bit word written whole has valid ECC again (R482; log entry 21). -/
def State.storeBytes (s : State) (a : Nat) (bs : List Byte) : State :=
  { s with mem := writeBytes s.mem a bs, poison := s.poison.filter fun w => w < a || a + bs.length < w + 8 }

/-- Store `n` little-endian bytes at an address. -/
def State.setMem (s : State) (a n v : Nat) : State := s.storeBytes a (bytesLE n v)

/-- Some 64-bit word that [a, a + n) touches holds an uncorrectable ECC error (R482). -/
def State.poisoned (s : State) (a n : Nat) : Bool :=
  s.poison.any fun w => w < a + n && a < w + 8

/-! ### Signal points -/

/-- The value of a local signal point (R21). -/
def State.point (s : State) (p : Nat) : Word := Tab.get 0 s.points p

/-- Write a local signal point; a published point becomes pending for the Line (R450). -/
def State.setPoint (s : State) (p : Nat) (v : Word) : State :=
  let s := { s with points := Tab.put 0 s.points p v, pointTimes := Tab.put 0 s.pointTimes p s.clk.tb }
  if s.fb (Reg.LINE_PUB (p / 32)) (p % 32) then
    if s.line.pubPending.contains p then s.incSat Reg.LINE_CNT_C 31 16
    else { s with line := { s.line with pubPending := s.line.pubPending ++ [p] } }
  else s

/-- The device's own Line number (R21). -/
def State.lineId (s : State) : Nat := s.f Reg.SYS_LINE_ID 9 0

/-! ### Modes and domains -/

/-- Leave a mode event for the end of its edge (R43). -/
def State.modeEvent (s : State) (due : Tick) (e : ModeEv) : State :=
  { s with sys := { s.sys with events := s.sys.events ++ [{ due := due, ev := e }] } }

/-- The operating modes (R41). -/
inductive Mode | archive | standby | boot | ready | print | drain | safe | service
deriving DecidableEq, Repr

def Mode.code : Mode → Nat
  | .archive => 0 | .standby => 1 | .boot => 2 | .ready => 3 | .print => 4 | .drain => 5 | .safe => 6 | .service => 7

def Mode.ofCode : Nat → Mode
  | 0 => .archive | 1 => .standby | 2 => .boot | 3 => .ready | 4 => .print | 5 => .drain | 6 => .safe | _ => .service

/-- The current mode (SYS_MODE.MODE). -/
def State.mode (s : State) : Mode := Mode.ofCode (s.f Reg.SYS_MODE 2 0)

/-- A mode change is in progress (SYS_MODE.TRANS). -/
def State.trans (s : State) : Bool := s.fb Reg.SYS_MODE 3

/-- Domain d is ON (R400, R408). -/
def State.domOn (s : State) (d : Nat) : Bool := s.f (Reg.PWR_DOM_STATE d) 3 0 == 5

/-! ### The memory regions of the address maps -/

/-- Base and length of the on-chip memory regions of R31, with the domain each needs (R35) given the address. -/
def stacksBase : Nat := 0x04000000
def stacksSize : Nat := 0x800000
def bandBase (st : Nat) : Nat := 0x08000000 + st * 0x400000
def bandSize : Nat := 0x400000
def mapBase : Nat := 0x0A000000
def mapSize : Nat := 0x200000
def stagingBase : Nat := 0x0B000000
def stagingSize : Nat := 0x400000
def tcmBase (n : Nat) : Nat := 0x10000000 + n * 0x40000
def tcmSize : Nat := 0x40000
def supBase (n : Nat) : Nat := 0x11000000 + n * 0x100000
def supSize : Nat := 0x100000
def ledgerBase : Nat := 0x18000000
def dramBase : Nat := 0x100000000

/-- An on-chip memory region: base, length, domain. -/
structure Region where
  base : Nat
  size : Nat
  dom : Nat
deriving DecidableEq, Repr

/-- The memory regions of R31 with the domains of R400 (the Ledger's last 512 KiB are no memory, R474). -/
def regions : List Region :=
  [⟨0, 0x40000, 0⟩, ⟨stacksBase, stacksSize, 2⟩,
   ⟨bandBase 0, 0x800000, 7⟩, ⟨bandBase 2, 0x800000, 8⟩, ⟨bandBase 4, 0x800000, 9⟩,
   ⟨mapBase, mapSize, 2⟩, ⟨stagingBase, stagingSize, 10⟩,
   ⟨tcmBase 0, 6 * tcmSize, 3⟩, ⟨tcmBase 6, 6 * tcmSize, 4⟩, ⟨tcmBase 12, 6 * tcmSize, 5⟩,
   ⟨tcmBase 18, 6 * tcmSize, 6⟩, ⟨supBase 0, 2 * supSize, 2⟩, ⟨ledgerBase, 0x380000, 1⟩]

/-- The on-chip region that holds all of [a, a + n). -/
def regionAt (a n : Nat) : Option Region :=
  regions.find? fun r => r.base ≤ a && a + n ≤ r.base + r.size

/-- [a, a + n) lies wholly inside installed DRAM (R33). -/
def State.inDram (s : State) (a n : Nat) : Bool := dramBase ≤ a && a + n ≤ dramBase + s.dramSize

/-- DRAM can be used: it is wiped and trained (R473). -/
def State.dramReady (s : State) : Bool := s.fb Reg.SEC_BOOT 8

/-! ### Axes -/

/-- The commanded speed of an axis (R65): ω_r of a running field-oriented channel in SPEED mode and its ω otherwise; the
generator's speed of a stepper channel (log entry 34). -/
def State.axisSpeed (s : State) (a : Nat) : Int :=
  if a < 16 then
    let st := s.f (Reg.FOC_STATE a) 3 0
    if s.fb (Reg.FOC_CFG a) 0 && (st = 6 || st = 7) then floorDiv (Tab.get {} s.foc.ch a).ramp 6400000
    else toSigned 32 (s.reg (Reg.FOC_SPEED a)).toNat
  else floorDiv (Tab.get {} s.stp.ch (a - 16)).v 65536

/-! ### Ledger record requests -/

/-- Count a record lost (R477). -/
def State.ldgLost (s : State) : State :=
  ((s.incSat Reg.LDG_CNT 15 0).setB Reg.LDG_IRQ_STATUS 4 true).raise srcLDG 4

/-- Queue a record request: it begins at once when LDG is idle. -/
def State.ldgQueue (s : State) (r : LdgReq) : State :=
  match s.ldg.cur with
  | none => { s with ldg := { s.ldg with cur := some r } }
  | some _ => { s with ldg := { s.ldg with queue := s.ldg.queue ++ [r] } }

/-- The requests that wait or are written. -/
def State.ldgWaiting (s : State) : List LdgReq := s.ldg.cur.toList ++ s.ldg.queue

/-- Request a Ledger record (R475–R477): it waits in its class's queue; a hardware class that already holds 64 records
loses it, and a read-only Ledger loses every record (R480). -/
def State.ldgRecord (s : State) (cls kind units : Nat) (body : List Byte) : State :=
  if s.fb Reg.LDG_STATUS 2 || (cls ≤ 3 && 64 ≤ (s.ldgWaiting.filter (fun r => r.cls == cls)).length) then s.ldgLost
  else s.ldgQueue { cls := cls, kind := kind, units := units, time := s.now, body := body }

/-! ### Ledger sectors (R480) -/

/-- The physical sector of a logical one. -/
def State.ldgPhys (s : State) (l : Nat) : Nat := (Tab.get none s.ldg.map l).getD l

def State.ldgCount (s : State) (p : Nat) : Nat := Tab.get 0 s.ldg.counts p

/-- The lowest count among the reserve sectors (R480). -/
def State.ldgLow (s : State) : Option Nat := (s.ldg.reserve.map s.ldgCount).min?

/-- The reserve sector that a wear-levelling move takes: one with the lowest count (R480; log entry 37). -/
def State.ldgMoveTo (s : State) : Option Nat :=
  pickFree (s.ldg.reserve.filter fun p => some (s.ldgCount p) == s.ldgLow) s.fresh

/-- The reserve sector that a retirement takes (R480; log entry 37). -/
def State.ldgSpare (s : State) : Option Nat := pickFree s.ldg.reserve s.fresh

/-- A logical sector is written: its physical count rises, and it moves once the count exceeds the lowest of the
reserve by DELTA (R480). -/
def State.ldgWrote (s : State) (l : Nat) : State :=
  let p := s.ldgPhys l
  let s := { s with ldg := { s.ldg with counts := Tab.put 0 s.ldg.counts p (s.ldgCount p + 1) } }
  match s.ldgLow with
  | none => s
  | some n =>
    if n + (s.reg Reg.LDG_WL).toNat < s.ldgCount p &&
       !(s.ldgWaiting.any fun r => r.kind == 0 && r.body == bytesLE 2 l) then
      s.ldgQueue { cls := 6, kind := 0, units := 128, time := s.now, body := bytesLE 2 l }
    else s

/-! ### Sampled inputs (R48, R317, R345, R353) -/

/-- One sample of an input: it is taken as changed after FILT + 1 equal samples in a row. -/
def InFilter.sample (x : InFilter) (filt : Nat) (v : Bool) : InFilter :=
  let run := if x.raw = v && 0 < x.run then min (x.run + 1) 65536 else 1
  { raw := v, run := run, level := if filt < run then some v else x.level }

/-- The input is taken as changed by a sample. -/
def InFilter.turned (old new : InFilter) : Bool := old.level.isSome && old.level != new.level

/-- The filter, and the level of its input, after a list of samples: `now` is the level before. -/
def InFilter.after (x : InFilter) (filt : Nat) (now : Bool) (ls : List Bool) : InFilter × Bool :=
  ls.foldl (fun p v => (p.1.sample filt v, if filt < (p.1.sample filt v).run then v else p.2)) (x, now)

/-- An input that is at `now` is taken as low, having been high, at some one of a list of samples. -/
def InFilter.falls (filt : Nat) : InFilter → Bool → List Bool → Bool
  | _, _, [] => false
  | x, now, v :: ls =>
    let y := x.sample filt v
    let level := if filt < y.run then v else now
    (now && !level) || InFilter.falls filt y level ls

/-- `n` samples in a row at level `v`, FILT + 1 of which change an input that is at `now`. With the filter after them goes,
where they change it, which of them does (counted from 0) and how many samples in a row it then completes. -/
def InFilter.stretch (x : InFilter) (filt : Nat) (now v : Bool) (n : Nat) : InFilter × Option (Nat × Nat) :=
  let old := if x.raw = v then x.run else 0
  let j := filt - old
  ({ x with raw := if n = 0 then x.raw else v, run := if n = 0 then x.run else min (old + n) 65536 },
    if v ≠ now ∧ j < n then some (j, old + j + 1) else none)

/-- The time of each accepted change of an input whose levels at the edges of a clock of the given period stood, in order,
for the given numbers of edges, the last of them the edge `last`: the new level and the first sample at it. The filter
after them comes first. -/
def InFilter.changes (filt period : Nat) : InFilter → Bool → Tick → List (Bool × Nat) → InFilter × List (Bool × Tick)
  | x, _, _, [] => (x, [])
  | x, now, start, (v, n) :: ls =>
    let (x, hit) := x.stretch filt now v n
    match hit with
    | none => InFilter.changes filt period x now (start + period * n) ls
    | some (j, run) =>
      let (x, out) := InFilter.changes filt period x v (start + period * n) ls
      (x, (v, start + period * (j + 1) - period * run) :: out)

/-- The edge of the first of a list of samples, the last of which is at the last edge of the clock at or before `t`. -/
def firstSample (period t : Nat) (ls : List (Bool × Nat)) : Tick :=
  t / period * period + period - period * (ls.map (·.2)).sum

/-! ### The thermal band (R422, R423) -/

/-- The thermal band that THM reports. -/
def State.thmBand (s : State) : Nat := s.f Reg.THM_STATUS 2 0

/-- The band as a consumer has it that switches at the multiples of a number of ticks: a change waits for the next. -/
def State.bandAtMultiple (s : State) (m : Nat) : Nat :=
  match s.thm.turn with
  | some (at', old) => if s.clk.tb < nextMultiple m at' then old else s.thmBand
  | none => s.thmBand

end Sys2Proof.Machine
end

