-- ==== Sys2Proof/Machine/PowerOps.lean ====
section
/-!
DEFINITION. The power domains as a state machine (R400–R414): what takes a domain from state to state, what PWR takes at
each REF edge.
-/

namespace Sys2Proof.Machine

/-! ### Domains (R400–R402) -/

/-- Codes of PWR_DOM_STATE.STATE. -/
def dOFF : Nat := 0
def dUP_REG : Nat := 1
def dUP_MEM : Nat := 3
def dUP_LOGIC : Nat := 4
def dON : Nat := 5
def dDN_LOGIC : Nat := 6
def dDN_REG : Nat := 9
def dFAILED : Nat := 10

/-- The level of an output ball of domain d (R407, R491): what its block drives while the domain is on, its off level in the
power-down LOGIC step, and none where it floats. -/
def State.ball (s : State) (d : Nat) (on off : Bool) : Option Bool :=
  if s.domOn d then some on else if s.f (Reg.PWR_DOM_STATE d) 3 0 = dDN_LOGIC then some off else none

/-- The parents of a domain, AON apart (R400). -/
def domParents (d : Nat) : List Nat :=
  if d = 10 then [2, 11] else if (3 ≤ d ∧ d ≤ 9) ∨ d = 14 then [2] else []

/-- The children of a domain. -/
def domChildren (d : Nat) : List Nat := (List.range 16).filter fun x => (domParents x).contains d

def State.dom (s : State) (d : Nat) : Nat := s.f (Reg.PWR_DOM_STATE d) 3 0
def State.domRev (s : State) (d : Nat) : Bool := s.fb (Reg.PWR_DOM_STATE d) 4
def State.domPend (s : State) (d : Nat) : Bool := s.fb (Reg.PWR_DOM_STATE d) 5
def State.stepAt (s : State) (d : Nat) : Option Tick := Tab.get none s.pwr.stepAt d

/-- Set the step time of a domain. -/
def State.setStep (s : State) (d : Nat) (t : Option Tick) : State :=
  { s with pwr := { s.pwr with stepAt := Tab.put none s.pwr.stepAt d t } }

/-- A domain enters a state, its step not begun. -/
def State.setDom (s : State) (d st : Nat) : State := (s.setF (Reg.PWR_DOM_STATE d) 3 0 st).setStep d none

/-- A domain holds no supply that children need: OFF or FAILED. -/
def State.domDown (s : State) (d : Nat) : Bool := s.dom d == dOFF || s.dom d == dFAILED

/-- A domain is on its way up. -/
def State.domRising (s : State) (d : Nat) : Bool := dUP_REG ≤ s.dom d && s.dom d ≤ dUP_LOGIC

/-- The engine set (R402). -/
def State.engineSet (s : State) : List Nat :=
  (List.range 16).filter fun d =>
    if 3 ≤ d ∧ d ≤ 6 then
      (List.range 20).any fun l => s.fb (Reg.SQ_CORE_MAP l) 7 && s.f (Reg.SQ_CORE_MAP l) 4 0 / 6 == d - 3
    else if 7 ≤ d ∧ d ≤ 9 then s.fb Reg.PWR_ENGINE (d - 7)
    else d == 10 || d == 14

/-- The domains that a mode keeps on (R41). -/
def State.modeSet (s : State) (m : Mode) : List Nat :=
  match m with
  | .archive => [0, 1]
  | .standby => [0, 1, 2, 11, 12, 13, 15]
  | .boot => [0, 1, 2, 11, 12, 15]
  | _ => [0, 1, 2, 11, 12, 13, 15] ++ s.engineSet

/-- PWR_DOM_STATE as it reads: REQUIRED is whether the domain is in the current mode's set. -/
def State.domStateView (s : State) (d : Nat) : Word :=
  putBits (s.reg (Reg.PWR_DOM_STATE d)) 6 6 (if (s.modeSet s.mode).contains d then 1 else 0)

/-! ### Refusals (R410, R413) -/

/-- Record the domain and the refuser of a refusal or an abort. -/
def State.pwrNote (s : State) (d who : Nat) : State :=
  let s := s.setF (Reg.PWR_DOM_STATE d) 11 8 who
  let s := s.setReg Reg.PWR_REFUSE_LAST (BitVec.ofNat 32 (d + 16 * who))
  s.setB Reg.PWR_IRQ_STATUS 1 true

/-- An entry is refused. -/
def State.pwrRefuse (s : State) (d who : Nat) : State := (s.incSat (Reg.PWR_DOM_CNT d) 15 0).pwrNote d who

/-- A power-down with a held on event counts as aborted. -/
def State.pwrAborted (s : State) (d : Nat) : State := (s.incSat (Reg.PWR_DOM_CNT d) 31 16).pwrNote d 2

/-- A Sinel-G core is in its YIELD wait or halted (R410): it holds SUP on otherwise. -/
def State.coreIdle (s : State) (n : Nat) : Bool :=
  let g := Tab.get {} s.gcores n
  g.yielding || !g.running

def State.coresIdle (s : State) : Bool := s.coreIdle 0 && s.coreIdle 1

/-- Some DMA channel is running (R372). -/
def State.dmaBusy (s : State) : Bool :=
  (List.range 32).any fun c =>
    let x := Tab.get {} s.dma.ch c
    s.fb (Reg.DMA_CH_CFG c) 0 || !x.out.isEmpty || x.ex.isSome

/-- The domain of a Platforms endpoint (R374). -/
def endpointDom (e : Nat) : Option Nat :=
  if e ≤ 1 then some 2 else if e = 2 then some 12 else if e = 3 then some 13 else none

/-- A Platforms queue directed to an endpoint in the domain, with its WAKE bit set, holds a word (R410, QUEUE). -/
def State.queueHolds (s : State) (d : Nat) : Bool :=
  (List.range 64).any fun c =>
    let q := Tab.get {} s.plt.ch c
    let cfg := Reg.PLT_CH_CFG c
    (endpointDom (s.f cfg 2 0) == some d && s.fb cfg 10 && !q.ba.isEmpty) ||
    (endpointDom (s.f cfg 6 4) == some d && s.fb cfg 11 && !q.ab.isEmpty)

/-- A voltage request is PENDING (R416). -/
def State.vreqPending (s : State) : Bool := s.f Reg.PWR_VREQ_STATUS 1 0 == 1

/-- The refuser of an off request of firmware, checked at `edge` (R403, R410). -/
def State.offRefuser (s : State) (d : Nat) (edge : Tick) : Option Nat :=
  if d ≤ 2 || (s.modeSet s.mode).contains d then some 5
  else if Tab.get none s.pwr.onAt d == some edge then some 1
  else if !(domChildren d).all s.domDown then some 6
  else if s.vreqPending then some 7
  else if s.queueHolds d then some 8
  else none

/-! ### Steps (R404, R406) -/

/-- Begin the REG steps that may begin: every power-down, and the lowest power-up when none is in progress. -/
def State.startRegs (s : State) (edge : Tick) : State :=
  if s.vreqPending then s
  else
    let ds := List.range 16
    let s := ds.foldl (fun s d => if s.dom d = dDN_REG && (s.stepAt d).isNone then s.setStep d (some edge) else s) s
    if ds.any fun d => s.dom d = dUP_REG && (s.stepAt d).isSome then s
    else match ds.find? fun d => s.dom d = dUP_REG with
      | some d => s.setStep d (some edge)
      | none => s

/-- DN_LOGIC of a VID domain waits for the wear fold (R485). -/
def State.waitsFold (s : State) (d : Nat) : Bool := 7 ≤ d && d ≤ 9 && s.fb Reg.BKG_CTRL 4

/-- A domain begins its power-down (R408). -/
def State.beginDown (s : State) (d : Nat) (edge : Tick) : State :=
  let s := s.setDom d dDN_LOGIC
  if s.waitsFold d then s else s.setStep d (some edge)

/-- A domain with all parents ON begins its power-up; it waits for its REG step. -/
def State.beginUp (s : State) (d : Nat) : State := s.setDom d dUP_REG

/-- An on event at a domain whose parents need no request (R408). -/
def State.onEventAt (s : State) (d : Nat) (edge : Tick) : State :=
  let s := { s with pwr := { s.pwr with onAt := Tab.put none s.pwr.onAt d (some edge) } }
  let st := s.dom d
  if st = dOFF then
    if (domParents d).all s.domOn then s.beginUp d
    else if s.pwr.want.contains d then s
    else { s with pwr := { s.pwr with want := s.pwr.want ++ [d] } }
  else if dUP_REG ≤ st && st ≤ dUP_LOGIC then s.setB (Reg.PWR_DOM_STATE d) 4 false
  else if dDN_LOGIC ≤ st && st ≤ dDN_REG then s.setB (Reg.PWR_DOM_STATE d) 5 true
  else s

/-- An on event: parents that are not ON get one first (R401). After a thermal shutdown nothing powers up until POR
(R42, R425). -/
def State.onEvent (s : State) (d : Nat) (edge : Tick) : State :=
  if s.pwr.shut then s else
  let ps := if s.dom d = dOFF then (domParents d).filter fun p => !s.domOn p else []
  (ps.foldl (fun s p => s.onEventAt p edge) s).onEventAt d edge

/-- An off request that R410 passes, or an internal power-down (R408). -/
def State.offEvent (s : State) (d : Nat) (edge : Tick) : State :=
  let s := { s with pwr := { s.pwr with want := s.pwr.want.erase d } }
  let st := s.dom d
  if st = dON then s.beginDown d edge
  else if st = dUP_REG && (s.stepAt d).isNone then s.setDom d dOFF
  else if dUP_REG ≤ st && st ≤ dUP_LOGIC then s.setB (Reg.PWR_DOM_STATE d) 4 true
  else s

/-- Internal power-downs begin once every child is OFF or FAILED (R401). -/
def State.lowerReady (s : State) (edge : Tick) : State :=
  (List.range 16).foldl (fun s d =>
    if s.pwr.wantOff.contains d && (domChildren d).all s.domDown then
      { s.offEvent d edge with pwr := { (s.offEvent d edge).pwr with wantOff := s.pwr.wantOff.erase d } }
    else s) s

/-- Domains that waited for their parents begin (R401). -/
def State.raiseReady (s : State) : State :=
  (List.range 16).foldl (fun s d =>
    if s.pwr.want.contains d && (domParents d).all s.domOn then
      { s with pwr := { s.pwr with want := s.pwr.want.erase d } }.beginUp d
    else s) s

/-- The next engine-set domain of the mode change, once the last has reached its state (R402). -/
def State.planNext (s : State) (edge : Tick) : Nat → State
  | 0 => s
  | n + 1 =>
    let go := match s.pwr.cur with
      | none => true
      | some d => if s.pwr.planUp then s.domOn d else s.domDown d
    if !go then s
    else match s.pwr.plan with
      | [] => { s with pwr := { s.pwr with cur := none } }
      | d :: ds =>
        let s := { s with pwr := { s.pwr with plan := ds, cur := some d } }
        let s := if s.pwr.planUp then s.onEvent d edge else s.offEvent d edge
        s.planNext edge n

/-- What follows whenever a domain has reached a state. -/
def State.domMoved (s : State) (edge : Tick) : State :=
  ((s.raiseReady.lowerReady edge).planNext edge 16).startRegs edge

/-- The domains of the mode change have all reached their state. -/
def State.changeDone (s : State) : Bool :=
  s.pwr.left.all fun d =>
    if s.pwr.archive || s.pwr.thermal || !s.pwr.planUp then s.domDown d
    else if s.pwr.endSafe then !s.domRising d else s.domOn d

/-! ### ARCHIVE (R411) -/

/-- The domains that the entry to ARCHIVE checks. -/
def archiveSet : List Nat := [2, 11, 12, 13, 15]

/-- The entry is refused: the mode stays STANDBY. -/
def State.archiveRefuse (s : State) (d who : Nat) : State :=
  let s := s.pwrRefuse d who
  let s := ((s.setF Reg.SYS_MODE 3 3 0).setF Reg.SYS_MODE 6 4 (s.mode.code)).setF Reg.SYS_MODE 18 16 1
  { s.setF Reg.SYS_MODE 14 12 0 with pwr := { s.pwr with archAt := none, archive := false } }

/-- PWR takes the ARCHIVE request. -/
def State.archiveTake (s : State) (edge : Tick) : State :=
  let s := (s.setF Reg.SYS_MODE 3 3 1).setF Reg.SYS_MODE 6 4 0
  { s with pwr := { s.pwr with archAt := some edge } }

/-! ### Taking events at REF edges (R414) -/

/-- The REF edge at which PWR takes what a CORE edge at `t` brings. -/
def refAfter (t : Tick) : Tick := (t / 256 + 1) * 256

/-- Leave an event or request for PWR. -/
def State.pwrPush (s : State) (k : PwrKind) : State :=
  { s with pwr := { s.pwr with reqs := s.pwr.reqs ++ [{ due := refAfter s.now, kind := k }] } }

/-- An on event, from whatever source: during the wait of R411 one that names SUP refuses the entry. -/
def State.takeOn (s : State) (d : Nat) (edge : Tick) : State :=
  let s := s.onEvent d edge
  if d = 2 && s.pwr.archAt.isSome && !s.pwr.archive then s.archiveRefuse 2 1 else s

/-- Take one event or request. -/
def State.pwrTake (s : State) (r : PwrReq) : State :=
  match r.kind with
  | .wake d => s.takeOn d r.due
  | .on d => if d ≤ 2 then s.pwrRefuse d 5 else s.takeOn d r.due
  | .off d => match s.offRefuser d r.due with
    | some who => s.pwrRefuse d who
    | none => s.offEvent d r.due
  | .archive => s.archiveTake r.due
  | .change up down =>
    let eng := s.engineSet
    let s := (up.filter fun d => !eng.contains d).foldl (fun s d => s.onEvent d r.due) s
    let s := { s with pwr := { s.pwr with
      plan := if down.isEmpty then up.filter eng.contains else down, planUp := down.isEmpty, cur := none } }
    s.planNext r.due 16

/-- The order of R414 among events of one REF edge. -/
def PwrKind.rank : PwrKind → Nat
  | .wake _ => 0
  | .on _ => 1
  | .change _ down => if down.isEmpty then 1 else 2
  | .off _ => 2
  | .archive => 2

/-- Take everything due at one edge, in the order of R414; then the REG steps that may begin do, lowest domain first
(R406). -/
def State.pwrEdge (s : State) (edge : Tick) : State :=
  let rs := s.pwr.reqs.filter fun r => r.due == edge
  let s := { s with pwr := { s.pwr with reqs := s.pwr.reqs.filter fun r => r.due != edge } }
  ((List.range 3).foldl (fun s k => (rs.filter fun r => r.kind.rank == k).foldl State.pwrTake s) s).startRegs edge

end Sys2Proof.Machine
end

