-- ==== Sys2Proof/Machine/Gates.lean ====
section
/-!
DEFINITION. The Gates (R466–R468), and the accesses of initiators to memory: which are allowed, what a refusal records,
and what the address maps refuse (R32–R35, R182, R474).
-/

namespace Sys2Proof.Machine

/-- The initiators of R466. -/
def iSUP (n : Nat) : Nat := n
def iSEQ : Nat := 2
def iDMA : Nat := 3
def iHOST : Nat := 4
def iFX : Nat := 5
def iDEBUG : Nat := 6

/-- The kinds of access that the Gates tell apart (R466). -/
inductive AccKind | load | store | fetch
deriving DecidableEq, Repr

/-- The permission bit of a kind in SEC_GATE_PERM. -/
def AccKind.bit : AccKind → Nat
  | .load => 1 | .store => 2 | .fetch => 3

/-- Region r of initiator i grants the access to [a, a + n) (R466). -/
def State.gateGrants (s : State) (i a n : Nat) (k : AccKind) (r : Nat) : Bool :=
  s.fb (Reg.SEC_GATE_PERM i r) 0 && s.fb (Reg.SEC_GATE_PERM i r) k.bit &&
  4096 * s.f (Reg.SEC_GATE_BASE i r) 27 0 ≤ a && a + n ≤ 4096 * (s.f (Reg.SEC_GATE_LIM i r) 27 0 + 1)

/-- An access of initiator i to [a, a + n) is allowed (R466). -/
def State.gateAllows (s : State) (i a n : Nat) (k : AccKind) : Bool :=
  s.fb Reg.SEC_GATE_OPEN i || (List.range 32).any (s.gateGrants i a n k)

/-- Record a refused access (R468). -/
def State.gateRefuse (s : State) (i a : Nat) (k : AccKind) : State :=
  let e := i + (if k = .store then 8 else 0) + (if k = .fetch then 16 else 0)
  let s := s.setReg Reg.SEC_GATE_ERR (BitVec.ofNat 32 e)
  let s := (s.setReg Reg.SEC_GATE_ADDR_LO (BitVec.ofNat 32 a)).setReg Reg.SEC_GATE_ADDR_HI
    (BitVec.ofNat 32 (a / 2 ^ 32 % 256))
  (s.setB Reg.SEC_IRQ_STATUS 0 true).raise srcSEC 0

/-! ### Memory accesses -/

/-- Why an access to memory is refused or fails: the Gates, a bus error, or an uncorrectable ECC error. -/
inductive MemErr | access | bus | ecc
deriving DecidableEq, Repr

/-- Memory exists at all of [a, a + n), its domain is ON, and DRAM is ready (R32, R33, R35, R473). -/
def State.memOn (s : State) (a n : Nat) : Bool :=
  match regionAt a n with
  | some r => s.domOn r.dom
  | none => s.inDram a n && s.domOn 11 && s.dramReady

/-- The lanes' history windows (R182). -/
def historyBase : Nat := 0x0B000000
def historyEnd : Nat := 0x0B060000

/-- Initiators may store there: not the boot ROM (R32), the history windows (R182), or the Ledger outside FW (R474). -/
def storable (a n : Nat) : Bool :=
  !(a < 0x40000) && !(historyBase < a + n && a < historyEnd) &&
  (a + n ≤ ledgerBase || ledgerBase + 0x380000 ≤ a || (0x18308000 ≤ a && a + n ≤ 0x18380000))

/-- The devices report an uncorrectable error to a read of [a, a + n) in DRAM (R483). -/
def State.memUncor (s : State) (a n : Nat) : State :=
  if dramBase ≤ a && s.poisoned a n then s.raise srcMEM 1 else s

/-- A read of [a, a + n) by initiator i (R11 apart): the bytes, or why it fails; the Gates come first (R32, R118). The
boot ROM's words are not given, and the layout of the Ledger's HDR region belongs to the part (R474; log entry 3). -/
def State.readMem (s : State) (i a n : Nat) : Except MemErr (List Byte) × State :=
  if !s.gateAllows i a n .load then (.error .access, s.gateRefuse i a .load)
  else if !s.memOn a n then (.error .bus, s)
  else if s.poisoned a n then (.error .ecc, s.memUncor a n)
  else if (a < 0x40000) then (.ok ((List.range n).map fun i => Config.romByte (a + i)), s)
  else if (ledgerBase < a + n && a < ledgerBase + 0x8000) then
    (.ok (bytesLE n (Config.freeNat s.fresh)), { s with fresh := s.fresh + 1 })
  else (.ok (readBytes s.mem a n), s)

/-- A write of bytes at `a` by initiator i: why it is refused, if it is. A read-only Ledger refuses every write (R480). -/
def State.writeMem (s : State) (i a : Nat) (bs : List Byte) : Option MemErr × State :=
  if !s.gateAllows i a bs.length .store then (some .access, s.gateRefuse i a .store)
  else if !s.memOn a bs.length || !storable a bs.length then (some .bus, s)
  else if ledgerBase ≤ a && a < dramBase && s.fb Reg.LDG_STATUS 2 then (some .bus, s)
  else if ledgerBase ≤ a && a < dramBase then (none, (s.storeBytes a bs).ldgWrote ((a - ledgerBase) / 4096))
  else (none, s.storeBytes a bs)

end Sys2Proof.Machine
end

