-- ==== Sys2Proof/Machine/Dma.lean ====
section
/-!
DEFINITION. The DMA (R360–R373): rings, the descriptor pool, the checks and execution of descriptors, completion
records, stopping; and the commands of its rows.
-/

namespace Sys2Proof.Machine

def State.dmaCh (s : State) (c : Nat) : DmaCh := Tab.get {} s.dma.ch c
def State.setDmaCh (s : State) (c : Nat) (x : DmaCh) : State :=
  { s with dma := { s.dma with ch := Tab.put {} s.dma.ch c x } }

/-- Outstanding descriptors of a channel (R361). -/
def DmaCh.outstanding (x : DmaCh) : Nat := x.out.length + (if x.ex.isSome then 1 else 0)

/-- Outstanding descriptors of all channels: DMA_STATUS.OUTSTANDING. -/
def State.dmaOutstanding (s : State) : Nat := ((List.range 32).map fun c => (s.dmaCh c).outstanding).sum

/-- DMA counts as running on channel c (R372). -/
def State.dmaRunning (s : State) (c : Nat) : Bool := s.fb (Reg.DMA_CH_CFG c) 0 || (s.dmaCh c).outstanding != 0
def State.dmaAnyRunning (s : State) : Bool := (List.range 32).any s.dmaRunning

/-- DMA_CH_STATUS as it reads. -/
def State.dmaStatusView (s : State) (c : Nat) : Word :=
  let x := s.dmaCh c
  let st := if x.stall then 3 else if x.outstanding != 0 then 2 else if x.halted then 4
    else if s.fb (Reg.DMA_CH_CFG c) 0 then 1 else 0
  putBits (putBits (s.reg (Reg.DMA_CH_STATUS c)) 2 0 st) 15 8 x.outstanding

/-! ### Rings -/

def State.ringSize (s : State) (c : Nat) : Nat := 2 ^ s.f (Reg.DMA_RING_CFG c) 3 0
def State.cqSize (s : State) (c : Nat) : Nat := 2 ^ s.f (Reg.DMA_CQ_CFG c) 3 0
def State.cqHead (s : State) (c : Nat) : Nat := s.f (Reg.DMA_CQ_HEAD c) 11 0

/-- The completion queue is full (R369). -/
def State.dmaCqFull (s : State) (c : Nat) : Bool :=
  (s.cqHead c + 1) % s.cqSize c == s.f (Reg.DMA_CQ_TAIL c) 11 0

/-- The HEAD that a fetch at this edge sees (R361). -/
def State.headSeen (s : State) (c : Nat) : Nat :=
  let x := s.dmaCh c
  if x.headAt = some s.clk.tb then x.headPrev else s.f (Reg.DMA_RING_HEAD c) 9 0

/-- A channel may fetch, the pool apart (R361). -/
def State.dmaFetches (s : State) (c : Nat) : Bool :=
  s.fb (Reg.DMA_CH_CFG c) 0 && s.headSeen c != s.f (Reg.DMA_RING_TAIL c) 9 0 &&
  (s.dmaCh c).outstanding < s.f (Reg.DMA_CH_CFG c) 15 8

/-- Fetch one descriptor of a channel. -/
def State.dmaFetch (s : State) (c : Nat) : State :=
  let i := s.f (Reg.DMA_RING_TAIL c) 9 0
  let d : DmaDesc × State :=
    match s.readMem iDMA (256 * (s.reg (Reg.DMA_RING_BASE c)).toNat + 32 * i) 32 with
    | (.ok bs, s) => ({ idx := i, bytes := bs }, s)
    | (.error .ecc, s) => ({ idx := i, bad := some 0x21 }, s)
    | (.error _, s) => ({ idx := i, bad := some 0x20 }, s)
  let s := d.2.setF (Reg.DMA_RING_TAIL c) 9 0 ((i + 1) % d.2.ringSize c)
  let x := s.dmaCh c
  { s.setDmaCh c { x with out := x.out ++ [d.1] } with dma := { (s.setDmaCh c { x with out := x.out ++ [d.1] }).dma with
      last := c } }

/-- The channels in the order of a fetch: beginning after the one granted last. -/
def State.fetchOrder (s : State) : List Nat := (List.range 32).map fun i => (s.dma.last + 1 + i) % 32

/-- A write to DMA_RING_HEAD (R360, R361). -/
def State.dmaHeadWrite (s : State) (c : Nat) (w : Word) : State :=
  let x := s.dmaCh c
  let prev := if x.headAt = some s.clk.tb then x.headPrev else s.f (Reg.DMA_RING_HEAD c) 9 0
  (s.setDmaCh c { x with headPrev := prev, headAt := some s.clk.tb }).setF (Reg.DMA_RING_HEAD c) 9 0 w.toNat

/-! ### Stopping (R371) -/

/-- Return the descriptors that have not begun. -/
def State.dmaReturn (s : State) (c : Nat) : State :=
  let x := s.dmaCh c
  match x.out with
  | [] => s
  | d :: _ => (s.setDmaCh c { x with out := [] }).setF (Reg.DMA_RING_TAIL c) 9 0 d.idx

/-- EN is written: 0 stops the channel, 1 ends HALTED. -/
def State.dmaSetEn (s : State) (c : Nat) (en : Bool) : State :=
  let s := s.setB (Reg.DMA_CH_CFG c) 0 en
  let s := s.setDmaCh c { s.dmaCh c with halted := false }
  if en then s else s.dmaReturn c

/-! ### Descriptors (R363, R365) -/

/-- A field of a descriptor. -/
def DmaDesc.fld (d : DmaDesc) (off n : Nat) : Nat := sliceLE d.bytes off n
def DmaDesc.op (d : DmaDesc) : Nat := d.fld 0 1
def DmaDesc.flag (d : DmaDesc) (i : Nat) : Bool := (d.fld 1 1).testBit i
def DmaDesc.tag (d : DmaDesc) : Nat := d.fld 4 4
def DmaDesc.src (d : DmaDesc) : Nat := d.fld 8 8
def DmaDesc.dst (d : DmaDesc) : Nat := d.fld 0x10 8
def DmaDesc.len (d : DmaDesc) : Nat := d.fld 0x18 4

/-- A side of a descriptor: address, circular with its log2 size, in host space. -/
structure DmaSide where
  addr : Nat
  wrap : Option Nat
  host : Bool
deriving DecidableEq, Repr

def DmaDesc.srcSide (d : DmaDesc) : DmaSide :=
  { addr := d.src, wrap := if d.flag 1 then some (d.fld 2 1) else none, host := d.flag 3 }
def DmaDesc.dstSide (d : DmaDesc) : DmaSide :=
  { addr := d.dst, wrap := if d.flag 2 then some (d.fld 3 1) else none, host := d.flag 4 }

/-- The address of byte i of a side (R365). -/
def DmaSide.at (x : DmaSide) (i : Nat) : Nat :=
  match x.wrap with
  | none => x.addr + i
  | some l => x.addr / 2 ^ l * 2 ^ l + (x.addr % 2 ^ l + i) % 2 ^ l

/-- The runs of addresses that a side touches: start and length. -/
def DmaSide.runs (x : DmaSide) (len : Nat) : List (Nat × Nat) :=
  match x.wrap with
  | none => [(x.addr, len)]
  | some l =>
    let z := 2 ^ l
    let o := x.addr % z
    if o + len ≤ z then [(x.addr, len)] else [(x.addr, z - o), (x.addr / z * z, len - (z - o))]

/-- Two runs share a byte. -/
def runsMeet (p q : Nat × Nat) : Bool := p.1 < q.1 + q.2 && q.1 < p.1 + p.2

/-- Source and destination share a byte (R367). -/
def DmaDesc.overlaps (d : DmaDesc) : Bool :=
  !d.flag 3 && !d.flag 4 &&
  (d.srcSide.runs d.len).any fun p => (d.dstSide.runs d.len).any (runsMeet p)

/-! ### The checks (R366) -/

/-- The regions that a DMA side may lie in, those for reads only last. -/
def State.dmaRegions (s : State) (write : Bool) : List (Nat × Nat) :=
  [(dramBase, s.dramSize), (stacksBase, stacksSize), (bandBase 0, 6 * bandSize), (mapBase, mapSize),
   (historyEnd, stagingBase + stagingSize - historyEnd)] ++
  (List.range 24).map (fun n => (tcmBase n, tcmSize)) ++ [(supBase 0, 2 * supSize)] ++
  (if write then [] else [(0, 0x40000), (ledgerBase, 0x380000)])

/-- A side passes check 3: one region holds it, and the Gates allow it. -/
def State.dmaSideOk (s : State) (x : DmaSide) (len : Nat) (write : Bool) : Bool :=
  x.host ||
  (((s.dmaRegions write).any fun r => (x.runs len).all fun p => r.1 ≤ p.1 && p.1 + p.2 ≤ r.1 + r.2) &&
   (x.runs len).all fun p => s.gateAllows iDMA p.1 p.2 (if write then .store else .load))

/-- A wrap field is as its flag asks. -/
def wrapOk (on : Bool) (l len : Nat) (host : Bool) : Bool :=
  if on then 8 ≤ l && l ≤ 30 && !host && len ≤ 2 ^ l else l == 0

/-- The status of the first check that a descriptor fails. -/
def State.dmaCheck (s : State) (d : DmaDesc) : Option Nat :=
  let op := d.op
  if !(op == 1 || op == 2 || op == 3) || d.fld 1 1 / 32 != 0 || d.fld 0x1C 4 != 0 ||
     !wrapOk (d.flag 1) (d.fld 2 1) d.len (d.flag 3) || !wrapOk (d.flag 2) (d.fld 3 1) d.len (d.flag 4) ||
     (op == 2 && (d.flag 1 || d.flag 3)) ||
     (op != 2 && !d.flag 3 && 2 ^ 40 ≤ d.src) || (!d.flag 4 && 2 ^ 40 ≤ d.dst) then some 0x10
  else if (op != 2 && d.src % 16 != 0) || d.dst % 16 != 0 || d.len % 16 != 0 || d.len == 0 then some 0x11
  else if (op != 2 && !s.dmaSideOk d.srcSide d.len false) || !s.dmaSideOk d.dstSide d.len (op != 3) then some 0x12
  else if op == 1 && (d.flag 1 || d.flag 2) && d.overlaps then some 0x13
  else none

/-! ### Moving units (R364, R367, R368, R433) -/

/-- Host space allows an access of the DMA (R433). -/
def State.hostAllows (s : State) (a n : Nat) (write : Bool) : Bool :=
  s.fb Reg.HST_STATUS 0 && s.fb Reg.HST_STATUS 8 && s.domOn 12 &&
  (List.range 4).any fun k =>
    let l := s.f (Reg.HST_HWIN_CFG k) 5 0
    let base := (s.pair (Reg.HST_HWIN_LO k) (Reg.HST_HWIN_HI k)) / 2 ^ l * 2 ^ l
    l != 0 && s.fb (Reg.HST_HWIN_CFG k) (if write then 7 else 6) && base ≤ a && a + n ≤ base + 2 ^ l

/-- Read a 16-byte unit of a side. What host memory holds is free (log entry 3). -/
def State.dmaRead (s : State) (x : DmaSide) (i : Nat) : Except Nat (List Byte) × State :=
  let a := x.at (16 * i)
  if x.host then
    if s.hostAllows a 16 false then
      let (k, s) := s.takeFresh
      (.ok (bytesLE 16 (Config.freeNat k)), s)
    else (.error 0x20, s)
  else match s.readMem iDMA a 16 with
    | (.ok bs, s) => (.ok bs, s)
    | (.error .ecc, s) => (.error 0x21, s)
    | (.error _, s) => (.error 0x20, s)

/-- Write a 16-byte unit of a side: the status of its failure. -/
def State.dmaWrite (s : State) (x : DmaSide) (i : Nat) (bs : List Byte) : Option Nat × State :=
  let a := x.at (16 * i)
  if x.host then (if s.hostAllows a 16 true then none else some 0x20, s)
  else match s.writeMem iDMA a bs with
    | (none, s) => (none, s)
    | (some _, s) => (some 0x20, s)

/-- A COPY moves its units in descending order (R367). -/
def DmaDesc.descends (d : DmaDesc) : Bool :=
  d.op == 1 && !d.flag 1 && !d.flag 2 && d.overlaps && d.src < d.dst

/-- The unit that a descriptor moves j-th. -/
def DmaDesc.unitAt (d : DmaDesc) (j : Nat) : Nat := if d.descends then d.len / 16 - 1 - j else j

/-- The index of the first byte at which two units differ. -/
def firstDiff : List Byte → List Byte → Nat → Option Nat
  | a :: as, b :: bs, i => if a = b then firstDiff as bs (i + 1) else some i
  | _, _, _ => none

/-- Move unit `i` of a descriptor: the status and offset with which it ends there. -/
def State.dmaUnit (s : State) (d : DmaDesc) (i : Nat) : Option (Nat × Nat) × State :=
  let bad (e : Nat) : Option (Nat × Nat) := some (e, 16 * i)
  if d.op = 2 then
    let k := bytesLE 8 d.src
    match s.dmaWrite d.dstSide i (k ++ k) with
    | (none, s) => (none, s)
    | (some e, s) => (bad e, s)
  else match s.dmaRead d.srcSide i with
    | (.error e, s) => (bad e, s)
    | (.ok bs, s) =>
      if d.op = 1 then
        match s.dmaWrite d.dstSide i bs with
        | (none, s) => (none, s)
        | (some e, s) => (bad e, s)
      else match s.dmaRead d.dstSide i with
        | (.error e, s) => (bad e, s)
        | (.ok cs, s) => ((firstDiff bs cs 0).map fun k => (0x01, 16 * i + k), s)

/-- Move up to `n` units of a channel's descriptor. -/
def State.dmaRun (s : State) (c : Nat) : Nat → State
  | 0 => s
  | n + 1 =>
    match (s.dmaCh c).ex with
    | none => s
    | some e =>
      if e.fin.isSome then s
      else
        let (r, s) := s.dmaUnit e.d (e.d.unitAt e.done)
        let total := e.d.len / 16
        let e' : DmaExec := match r with
          | some f => { e with fin := some f }
          | none => { e with done := e.done + 1, lastAt := s.clk.tb
                             fin := if total ≤ e.done + 1 then some (0, 0xFFFFFFFF) else none }
        (s.setDmaCh c { s.dmaCh c with ex := some e' }).dmaRun c n

/-- The oldest fetched descriptor of an idle channel comes to execute: it is checked (R366). -/
def State.dmaBegin (s : State) (c : Nat) : State :=
  let x := s.dmaCh c
  match x.ex, x.out with
  | none, d :: rest =>
    let fin : Option (Nat × Nat) := match d.bad with
      | some e => some (e, 0)
      | none => (s.dmaCheck d).map fun e => (e, 0xFFFFFFFF)
    s.setDmaCh c { x with out := rest, ex := some { d := d, lastAt := s.clk.tb, fin := fin } }
  | _, _ => s

/-- The descriptor that executes, or comes to execute, has operation `op` and was read. -/
def DmaCh.turn (x : DmaCh) (op : Nat) : Bool :=
  match x.ex, x.out with
  | some e, _ => e.d.bad.isNone && e.d.op == op
  | none, d :: _ => d.bad.isNone && d.op == op
  | none, [] => false

/-- Begin, and move `n` units; then a host-side error ends it at the next unit, if a side is in host space (R368). -/
def State.dmaExecute (s : State) (c op n : Nat) (hostErr : Bool) : State :=
  if !s.domOn 2 || !(s.dmaCh c).turn op then s
  else
    let s := (s.dmaBegin c).dmaRun c n
    match (s.dmaCh c).ex with
    | none => s
    | some e =>
      if hostErr && e.fin.isNone && (e.d.flag 3 || e.d.flag 4) then
        s.setDmaCh c { s.dmaCh c with ex := some { e with fin := some (0x20, 16 * e.d.unitAt e.done) } }
      else s

/-! ### Completion (R369, R370) -/

/-- The bytes of a completion record. -/
def dmaRecord (tag status c idx off : Nat) : List Byte :=
  bytesLE 4 tag ++ bytesLE 1 status ++ bytesLE 1 c ++ bytesLE 2 idx ++ bytesLE 4 off ++ bytesLE 4 0

/-- Write the record of a descriptor that has ended, and what follows from it. The TAG and IRQ of a descriptor that
could not be read are free (log entry 36). -/
def State.dmaWriteRecord (s : State) (c : Nat) (e : DmaExec) (status off : Nat) : State :=
  let (k, s) := s.takeFresh
  let tag := if e.d.bad.isSome then Config.freeNat k % 2 ^ 32 else e.d.tag
  let irq := if e.d.bad.isSome then (Config.freeNat k).testBit 32 else e.d.flag 0
  let s := (s.writeMem iDMA (256 * (s.reg (Reg.DMA_CQ_BASE c)).toNat + 16 * s.cqHead c)
    (dmaRecord tag status c e.d.idx off)).2
  let s := s.setF (Reg.DMA_CQ_HEAD c) 11 0 ((s.cqHead c + 1) % s.cqSize c)
  let s := s.incSat (Reg.DMA_CH_CNT c) 31 0
  let s := s.setDmaCh c { s.dmaCh c with ex := none, stall := false }
  let s := if irq then s.setB Reg.DMA_IRQ_CQ c true else s
  if 0x10 ≤ status then
    let s := (s.setB Reg.DMA_IRQ_ERR c true).setF (Reg.DMA_CH_STATUS c) 23 16 status
    let s := if status < 0x20 then s.raise srcDMA 0 else if status < 0x30 then s.raise srcDMA 1 else s
    if s.fb (Reg.DMA_CH_CFG c) 1 then
      let s := s.dmaSetEn c false
      s.setDmaCh c { s.dmaCh c with halted := true }
    else s
  else s

/-- A record is due: it is written, or held while the queue is full. -/
def State.dmaComplete (s : State) (c : Nat) : State :=
  match (s.dmaCh c).ex with
  | none => s
  | some e =>
    match e.fin with
    | none => s
    | some (status, off) =>
      if s.dmaCqFull c then s.setDmaCh c { s.dmaCh c with stall := true } else s.dmaWriteRecord c e status off

/-- DMA_CQ_TAIL is written: a held record is released. -/
def State.dmaCqTail (s : State) (c : Nat) (w : Word) : State :=
  let s := s.setF (Reg.DMA_CQ_TAIL c) 11 0 w.toNat
  if (s.dmaCh c).stall then s.dmaComplete c else s

/-- ABORT (R371). -/
def State.dmaAbort (s : State) (c : Nat) : State :=
  let s := match (s.dmaCh c).ex with
    | some e =>
      if e.fin.isNone then
        s.setDmaCh c { s.dmaCh c with ex := some { e with fin := some (0x30, 16 * e.d.unitAt e.done) } }
      else s
    | none => s
  s.dmaSetEn c false

end Sys2Proof.Machine
end

