-- ==== Sys2Proof/Machine/Image.lean ====
section
/-!
DEFINITION. The timetable image (R52–R57): reading it from memory, its record layouts, and the conditions under which it
is well formed, in the three passes of R57.
-/

namespace Sys2Proof.Machine

/-- Tolerance of a class (spec/00_scope.md, Time): T0 ±1, T1 ±6,400, T2 ±6,400,000 ticks. -/
def classTol : Nat → Nat
  | 0 => 1
  | 1 => 6400
  | _ => 6400000

/-- Claim kinds (R55). -/
def kEXPOSE : Nat := 1
def kMOTION : Nat := 2
def kHV : Nat := 3
def kFUSER : Nat := 4
def kSENSE : Nat := 5
def kOUTPUT : Nat := 6
def kTASK : Nat := 7
def kRTPORT : Nat := 8
def kDEC : Nat := 9
def kPOWER : Nat := 10

/-- A claim record from its 32 bytes as a number (R54). -/
def parseClaim (w : Nat) : Claim :=
  { kind := nbits w 7 0, shared := nbits w 8 8 == 1, unit := nbits w 23 12, winStart := nbits w 63 24
    winEnd := nbits w 103 64, amount := nbits w 127 104, p0 := nbits w 191 128, p1 := nbits w 255 192 }

/-- An action record from its 16 bytes as a number (R56). -/
def parseAction (w : Nat) : Action :=
  { offset := nbits w 39 0, cls := nbits w 41 40, blockCmd := nbits w 43 42 == 1, pnr := nbits w 44 44 == 1
    fuser := nbits w 45 45 == 1, exit := nbits w 46 46 == 1, target := nbits w 67 48, cmd := nbits w 95 80
    param := nbits w 127 96 }

/-- Block code of a BLOCK_CMD action's target (R56). -/
def Action.block (a : Action) : Nat := nbits a.target 19 12

/-- Unit of a BLOCK_CMD action's target. -/
def Action.unit (a : Action) : Nat := nbits a.target 11 0

/-- Fields of a TASK claim (R55). -/
def Claim.core (c : Claim) : Nat := nbits c.unit 8 4
def Claim.slot (c : Claim) : Nat := nbits c.unit 2 0
def Claim.period (c : Claim) : Nat := nbits c.p0 31 0
def Claim.deadline (c : Claim) : Nat := nbits c.p0 63 32
def Claim.wcet (c : Claim) : Nat := nbits c.p1 31 0
def Claim.dropRun (c : Claim) : Nat := nbits c.p1 39 32
def Claim.dropWin (c : Claim) : Nat := nbits c.p1 47 40
def Claim.path (c : Claim) : Nat := nbits c.p1 49 48

/-- A MOTION claim's commanded speed, signed 24 bits (R55). -/
def Claim.speed (c : Claim) : Int := toSigned 24 c.amount

/-- The units of a claim kind (R55). -/
def unitOk (kind unit : Nat) : Bool :=
  if kind = kEXPOSE then unit ≤ 5
  else if kind = kMOTION then unit ≤ 47
  else if kind = kHV then unit ≤ 27
  else if kind = kFUSER then unit ≤ 7
  else if kind = kSENSE then unit ≤ 95
  else if kind = kOUTPUT then unit ≤ 63
  else if kind = kTASK then nbits unit 8 4 ≤ 19 && nbits unit 3 3 == 0 && unit < 512
  else if kind = kRTPORT then unit ≤ 9
  else if kind = kDEC || kind = kPOWER then unit == 0
  else false

/-- Item 2 of R57 for a claim record, with its reserved bits [11:9]. A TASK claim with the reserved PATH 0b11 is malformed
(log entry 91). -/
def claimOk (w : Nat) : Bool :=
  let c := parseClaim w
  1 ≤ c.kind && c.kind ≤ 10 && unitOk c.kind c.unit && c.winStart < c.winEnd && nbits w 11 9 == 0 &&
  (if c.kind = kEXPOSE || c.kind = kHV || c.kind = kSENSE || c.kind = kOUTPUT || c.kind = kTASK then c.amount == 0
   else if c.kind = kRTPORT then 1 ≤ c.amount && c.amount ≤ 48 else true) &&
  (if c.kind = kTASK then nbits c.p1 63 50 == 0 && c.path ≤ 2 else c.p0 == 0 && c.p1 == 0)

/-- Item 3 of R57: a TASK claim's times, with the logical cores assigned (R146). -/
def taskOk (assigned : Nat → Bool) (c : Claim) : Bool :=
  c.kind ≠ kTASK ||
    (64 ≤ c.period && c.wcet ≤ c.deadline && c.deadline ≤ c.period && assigned c.core &&
     (c.path = 2 || (1 ≤ c.dropRun && c.dropRun ≤ 32 && 1 ≤ c.dropWin && c.dropWin ≤ 32)))

/-- Item 2 of R57 for an action record, with its reserved bits. -/
def actionOk (w : Nat) : Bool :=
  nbits w 41 40 ≤ 2 && nbits w 43 42 ≤ 1 && nbits w 47 47 == 0 && nbits w 79 68 == 0 &&
  (nbits w 43 42 == 1 || nbits w 95 80 == 0)

/-- Item 6: the blocks that accept Timetable commands, and their units. -/
def targetOk (block unit : Nat) : Bool :=
  match block with
  | 0x0A | 0x0B | 0x0C | 0x0D => unit ≤ 5
  | 0x0E => unit ≤ 15
  | 0x0F => unit ≤ 31
  | 0x10 => unit ≤ 27
  | 0x11 => unit ≤ 7
  | 0x12 => unit ≤ 0x5F || (0x100 ≤ unit && unit ≤ 0x13F)
  | _ => false

/-- The claim kind and unit that a BLOCK_CMD to a claimable unit needs (item 6); none for FX. -/
def claimUnit (block unit : Nat) : Option (Nat × Nat) :=
  match block with
  | 0x0B | 0x0C | 0x0D => some (kEXPOSE, unit)
  | 0x0E => some (kMOTION, unit)
  | 0x0F => some (kMOTION, 16 + unit)
  | 0x10 => some (kHV, unit)
  | 0x11 => some (kFUSER, unit)
  | 0x12 => if unit < 0x100 then some (kSENSE, unit) else some (kOUTPUT, unit - 0x100)
  | _ => none

/-- Items 4, 5, 6 and 9 of R57 for one action of a list. -/
def actionPlaced (lineId : Nat) (claims : List Claim) (l : ActList) (a : Action) : Bool :=
  (a.blockCmd || nbits a.target 19 10 == lineId) &&
  (a.cls ≠ 0 || (l = .main && a.blockCmd && (a.block == 0x0B || a.block == 0x0C || a.block == 0x0D))) &&
  (!a.blockCmd ||
    (targetOk a.block a.unit &&
      match claimUnit a.block a.unit with
      | none => true
      | some (k, u) => claims.any fun c => c.kind == k && c.unit == u &&
          (l ≠ .main || (c.winStart ≤ a.offset && a.offset < c.winEnd)))) &&
  (l = .main || !(a.pnr || a.fuser || a.exit))

/-- Items 7 and 8 of R57 for the main list. -/
def marksOk (main : List Action) : Bool :=
  (match main.filter (·.pnr) with
   | [p] => p.cls = 0 && p.blockCmd && p.block = 0x0C &&
            main.all fun a => !(a.cls = 0 && a.blockCmd && a.block = 0x0C) || p.offset ≤ a.offset
   | _ => false) &&
  (match main.filter (·.exit) with
   | [e] => main.all fun a => a.offset ≤ e.offset
   | _ => false) &&
  (main.filter (·.fuser)).length ≤ 1

/-- Item 1 of R57: the header is sound. -/
def headerOk (h : List Byte) : Bool :=
  let g := sliceLE h
  let cand := g 0x1C 1
  let nc := g 0x1E 2
  let nm := g 0x20 2
  let nw := g 0x22 2
  let nsp := g 0x24 2
  let co := g 0x28 4
  let ao := g 0x2C 4
  let len := g 0x30 4
  let ce := co + 32 * nc
  let ae := ao + 16 * (nm + nw + nsp)
  g 0 4 == 0x54544931 && g 4 2 == 1 && g 6 2 == 0 && g 0x1D 1 == 0 && g 0x26 2 == 0 && g 0x38 8 == 0 &&
  1 ≤ cand && cand ≤ 8 && 1 ≤ nc && nc ≤ 256 && 1 ≤ nm && nm ≤ 1024 && nw ≤ 64 && nsp ≤ 64 &&
  (g 0x18 4 ≠ 0 || cand == 1) && 112 ≤ len && len ≤ 26688 && co % 32 == 0 && ao % 16 == 0 &&
  64 ≤ co && ce ≤ len && 64 ≤ ao && ae ≤ len && (ce ≤ ao || ae ≤ co)

/-- The `n` records of `size` bytes from an offset of the image. -/
def recordsAt (img : List Byte) (size off : Nat) : Nat → List Nat
  | 0 => []
  | n + 1 => sliceLE img off size :: recordsAt img size (off + size) n

/-- The image as parsed from its bytes. -/
def parseImage (b : List Byte) : Image :=
  let g := sliceLE b
  let acts := (recordsAt b 16 (g 0x2C 4) (g 0x20 2 + g 0x22 2 + g 0x24 2)).map parseAction
  { sheetId := g 8 4, jobId := g 0xC 4, earliest := g 0x10 8, step := g 0x18 4, candidates := g 0x1C 1
    claims := (recordsAt b 32 (g 0x28 4) (g 0x1E 2)).map parseClaim
    main := acts.take (g 0x20 2), withdraw := (acts.drop (g 0x20 2)).take (g 0x22 2)
    spoil := (acts.drop (g 0x20 2 + g 0x22 2)).take (g 0x24 2) }

/-- The record pass of R57: items 2–9. -/
def recordsOk (lineId : Nat) (assigned : Nat → Bool) (b : List Byte) : Bool :=
  let g := sliceLE b
  let img := parseImage b
  (recordsAt b 32 (g 0x28 4) (g 0x1E 2)).all claimOk && img.claims.all (taskOk assigned) &&
  (recordsAt b 16 (g 0x2C 4) (g 0x20 2 + g 0x22 2 + g 0x24 2)).all actionOk &&
  img.main.all (actionPlaced lineId img.claims .main) &&
  img.withdraw.all (actionPlaced lineId img.claims .withdraw) &&
  img.spoil.all (actionPlaced lineId img.claims .spoil) && marksOk img.main

/-- The image's CRC: over its bytes with IMAGE_CRC as zero (R53). -/
def imageCrcOk (b : List Byte) : Bool :=
  crc32 (b.take 0x34 ++ [0, 0, 0, 0] ++ b.drop 0x38) == sliceLE b 0x34 4

/-- What reading an image gives (R57): a refusal with the identifiers as read, or the image. -/
inductive ImageRead
  | refused (reason sheetId jobId : Nat)
  | image (img : Image)
deriving DecidableEq, Repr

/-- An image's bytes can lie at [a, a + n): in the Stacks, or in DRAM that is ready. -/
def State.imagePlace (s : State) (ready : Bool) (a n : Nat) : Bool :=
  (stacksBase ≤ a && a + n ≤ stacksBase + stacksSize) || (ready && s.inDram a n)

/-- The uncorrectable errors of DRAM that reading an image meets (R483). -/
def State.imageUncor (s : State) (ready : Bool) (a : Nat) : State :=
  if !s.imagePlace ready a 64 then s
  else if s.poisoned a 64 then s.memUncor a 64
  else
    let h := readBytes s.mem a 64
    let len := sliceLE h 0x30 4
    if headerOk h && s.imagePlace ready a len then s.memUncor a len else s

/-- Admission reads and checks the image at an address (R57), with DRAM_READY and the assigned cores of its snapshot.
Reason codes of R90: 2 FORMAT, 3 CRC. -/
def State.readImage (s : State) (ready : Bool) (assigned : List Nat) (a : Nat) : ImageRead :=
  if !s.imagePlace ready a 64 || s.poisoned a 64 then .refused 2 0 0
  else
    let h := readBytes s.mem a 64
    let sid := sliceLE h 8 4
    let jid := sliceLE h 0xC 4
    let len := sliceLE h 0x30 4
    if !headerOk h then .refused 2 sid jid
    else if !s.imagePlace ready a len || s.poisoned a len then .refused 2 sid jid
    else
      let b := readBytes s.mem a len
      if !imageCrcOk b then .refused 3 sid jid
      else if !recordsOk s.lineId assigned.contains b then .refused 2 sid jid
      else .image (parseImage b)

end Sys2Proof.Machine
end

