-- ==== Sys2Proof/Machine/Admission.lean ====
section
/-!
DEFINITION. The admission checks of R60–R69 over the snapshot of R59: pure functions of a `Check` and an image.
-/

namespace Sys2Proof.Machine

/-- A claim in absolute time; `idx` is its index in the new image, none for one already held. -/
structure AbsClaim where
  idx : Option Nat
  start : Nat
  stop : Nat
  c : Claim
deriving DecidableEq, Repr

/-- Refusal codes (R90). -/
def rMODE : Nat := 0x01
def rFORMAT : Nat := 0x02
def rCRC : Nat := 0x03
def rHORIZON : Nat := 0x04
def rACTIONS : Nat := 0x05
def rLEAD : Nat := 0x06
def rPITCH : Nat := 0x07
def rEXCLUSIVE : Nat := 0x08
def rBWDDR : Nat := 0x09
def rBWJCT : Nat := 0x0A
def rBWDEC : Nat := 0x0B
def rUTIL : Nat := 0x0C
def rTHERMAL : Nat := 0x0D
def rFUSER : Nat := 0x0E
def rABORTED : Nat := 0x0F
def rCLOSED : Nat := 0x10
def rMOTION : Nat := 0x11
def noDetail : Nat := 0xFFFF

/-- Half-open windows intersect. -/
def meets (x y : AbsClaim) : Bool := x.start < y.stop && y.start < x.stop

/-- R64: a permitted overlap. -/
def permitted (x y : Claim) : Bool :=
  x.shared && y.shared && x.kind == y.kind && x.unit == y.unit && x.amount == y.amount && x.p0 == y.p0 && x.p1 == y.p1

/-- R63: x and y exclude each other. -/
def excludes (x y : AbsClaim) : Bool :=
  1 ≤ x.c.kind && x.c.kind ≤ 7 && x.c.kind == y.c.kind && x.c.unit == y.c.unit && meets x y && !permitted x.c y.c

/-- The new claims of an image at an origin, in index order. -/
def absNew (origin : Nat) : Nat → List Claim → List AbsClaim
  | _, [] => []
  | i, c :: cs => { idx := some i, start := origin + c.winStart, stop := origin + c.winEnd, c := c } ::
      absNew origin (i + 1) cs

/-- The claims of the snapshot's sheets whose windows have not ended at T_s (R71). -/
def Check.absHeld (k : Check) : List AbsClaim :=
  k.sheets.flatMap fun p => (p.2.claims.map fun c =>
    ({ idx := none, start := p.2.origin + c.winStart, stop := p.2.origin + c.winEnd, c := c } : AbsClaim)).filter
      fun x => k.start < x.stop

/-- The lowest index among those of a list of new claims. -/
def lowestIdx (xs : List AbsClaim) : Nat :=
  xs.foldl (fun m x => match x.idx with | some i => min m i | none => m) noDetail

/-- Exclusivity (R63): the lowest index of a new claim that fails, if one does. Standing slots count as TASK claims
without end (R134). -/
def exclusiveFail (standing : List Nat) (held new : List AbsClaim) : Option Nat :=
  match new.find? (fun x => held.any (excludes x) || (new.any fun y => x.idx != y.idx && excludes x y) ||
      (x.c.kind == kTASK && standing.contains x.c.unit)) with
  | some x => x.idx
  | none => none

/-- A merged span of MOTION claims (R65): its end, speed and the new claims merged into it. -/
structure Span where
  start : Nat
  stop : Nat
  v : Int
  news : List AbsClaim
deriving DecidableEq, Repr

/-- Insert a claim in the order of window starts. -/
def insertByStart (x : AbsClaim) : List AbsClaim → List AbsClaim
  | [] => [x]
  | y :: ys => if x.start < y.start then x :: y :: ys else y :: insertByStart x ys

def sortByStart (xs : List AbsClaim) : List AbsClaim := xs.foldl (fun a x => insertByStart x a) []

/-- Merge an ordered list into spans (R65), `cur` being the span under construction. -/
def mergeFrom (cur : Span) : List AbsClaim → List Span
  | [] => [cur]
  | x :: xs =>
    let me : List AbsClaim := if x.idx.isSome then [x] else []
    if x.start < cur.stop then
      mergeFrom { cur with stop := max cur.stop x.stop, news := cur.news ++ me } xs
    else cur :: mergeFrom ⟨x.start, x.stop, x.c.speed, me⟩ xs

/-- The spans of an ordered list of MOTION claims (R65): overlaps on one axis are permitted ones by then. -/
def mergeSpans : List AbsClaim → List Span
  | [] => []
  | x :: xs => mergeFrom ⟨x.start, x.stop, x.c.speed, if x.idx.isSome then [x] else []⟩ xs

/-- One consecutive pair meets the acceleration limit (R65). -/
def pairOk (amax : Nat) (vi : Int) (endI : Nat) (j : Span) : Bool :=
  ((j.v - vi).natAbs : Int) * 6400000 ≤ (amax : Int) * ((j.start : Int) - (endI : Int))

/-- The pair failures along an axis: the index charged is the lowest new claim of the later span, else of the earlier. -/
def pairFails (ts amax : Nat) : Span → List Span → List Nat
  | _, [] => []
  | i, j :: rest =>
    let bad := (!i.news.isEmpty || !j.news.isEmpty) && ts < j.start && !pairOk amax i.v i.stop j
    (if bad then [lowestIdx (if j.news.isEmpty then i.news else j.news)] else []) ++ pairFails ts amax j rest

/-- The failing new claims of one axis (R65). -/
def axisFails (k : Check) (held new : List AbsClaim) (a : Nat) : List Nat :=
  let on := fun (x : AbsClaim) => x.c.kind == kMOTION && x.c.unit == a
  let mine := new.filter on
  if mine.isEmpty then [] else
    let vmax := k.vmax.getD a 0
    let amax := k.amax.getD a 0
    let fast := (mine.filter fun x => vmax < x.c.speed.natAbs).filterMap (·.idx)
    let spans := mergeSpans (sortByStart (held.filter on ++ mine))
    match spans with
    | [] => fast
    | sp :: rest =>
      let first := if !sp.news.isEmpty && k.start < sp.start && !pairOk amax (k.speeds.getD a 0) k.start sp
        then [lowestIdx sp.news] else []
      fast ++ first ++ pairFails k.start amax sp rest

/-- Motion (R65): the lowest index of a new claim whose check fails. -/
def motionFail (k : Check) (held new : List AbsClaim) : Option Nat :=
  match (List.range 48).flatMap (axisFails k held new) with
  | [] => none
  | i :: is => some (is.foldl min i)

/-- Insert a number in rising order. -/
def insertNat (n : Nat) : List Nat → List Nat
  | [] => [n]
  | m :: ms => if n ≤ m then n :: m :: ms else m :: insertNat n ms

/-- A list of numbers in rising order. -/
def sortNat (ns : List Nat) : List Nat := ns.foldl (fun a n => insertNat n a) []

/-- The evaluation points of a resource (R62 ff.): new window starts, and window starts inside a new window, in rising
order. Which of several failing points is charged is the model's choice, the earliest (log entry 92). -/
def evalPoints (held new : List AbsClaim) : List Nat :=
  let starts := (held ++ new).map (·.start)
  sortNat (starts.filter fun t => new.any fun x => x.start ≤ t && t < x.stop)

/-- Claims that cover a time. -/
def covering (t : Nat) (xs : List AbsClaim) : List AbsClaim := xs.filter fun x => x.start ≤ t && t < x.stop

/-- A resource whose summed AMOUNT passes a ceiling at an evaluation point: the DETAIL of R90. -/
def sumFail (base ceiling : Nat) (held new : List AbsClaim) : Option Nat :=
  match (evalPoints held new).find? (fun t =>
      ceiling < base + ((covering t (held ++ new)).map (·.c.amount)).sum) with
  | some t => some (lowestIdx (covering t new))
  | none => none

/-- Distinct TASK claims of a list: a set of permitted overlaps counts once (R67). -/
def distinctTasks : List AbsClaim → List AbsClaim
  | [] => []
  | x :: xs => x :: (distinctTasks xs).filter fun y => !permitted x.c y.c

/-- Utilisation of one logical core (R67). -/
def utilFail (maxUtil : Nat) (held new : List AbsClaim) : Option Nat :=
  match (evalPoints held new).find? (fun t =>
      maxUtil < ((distinctTasks (covering t (held ++ new))).map
        fun x => ceilDiv (4096 * x.c.wcet) x.c.period).sum) with
  | some t => some (lowestIdx (covering t new))
  | none => none

/-- The claims of one resource. -/
def ofKind (k : Nat) (u : Option Nat) (xs : List AbsClaim) : List AbsClaim :=
  xs.filter fun x => x.c.kind == k && (match u with | some u => x.c.unit == u | none => true)

/-- The checks of one candidate origin after LEAD and PITCH, in order; the first failure with its DETAIL. Where several
resources of one check fail, the model charges ports 0–9 before the decompressor, cores in rising order, and POWER before
FUSER (log entry 92). -/
def candidateFail (k : Check) (standing : List Nat) (origin : Nat) (img : Image) : Option (Nat × Nat) :=
  let held := k.absHeld
  let new := absNew origin 0 img.claims
  match exclusiveFail standing held new with
  | some d => some (rEXCLUSIVE, d)
  | none =>
  match motionFail k held new with
  | some d => some (rMOTION, d)
  | none =>
  match (List.range 10).findSome? (fun p =>
      (sumFail 0 48 (ofKind kRTPORT (some p) held) (ofKind kRTPORT (some p) new)).map
        fun d => ((if p ≤ 1 then rBWDDR else rBWJCT), d)) with
  | some f => some f
  | none =>
  match sumFail 0 k.decCap (ofKind kDEC none held) (ofKind kDEC none new) with
  | some d => some (rBWDEC, d)
  | none =>
  match (List.range 20).findSome? (fun c =>
      let on := fun (x : AbsClaim) => x.c.kind == kTASK && x.c.core == c
      utilFail k.utilMax (held.filter on) (new.filter on)) with
  | some d => some (rUTIL, d)
  | none =>
  match sumFail k.pwrBase k.pwrBudget (ofKind kPOWER none held) (ofKind kPOWER none new) with
  | some d => some (rTHERMAL, d)
  | none =>
  match (ofKind kFUSER none new).find? (fun x =>
      k.setpoints.getD x.c.unit 0 ≠ toSigned 24 x.c.amount || x.start < k.readyAt.getD x.c.unit (2 ^ 64 - 1)) with
  | some x => some (rFUSER, x.idx.getD noDetail)
  | none => none

/-- The smallest of a list of offsets. -/
def minList : List Nat → Nat
  | [] => 0
  | x :: xs => xs.foldl min x

/-- LEAD and PITCH, then the five checks, for one candidate (R60). -/
def tryCandidate (k : Check) (standing : List Nat) (img : Image) (c : Nat) : Option (Nat × Nat) :=
  let origin := img.earliest + c * img.step
  if origin + minList (img.main.map (·.offset)) < k.start + 12800000 ||
     origin + minList (img.claims.map (·.winStart)) < k.start + 12800000 then some (rLEAD, noDetail)
  else if k.enforced && (k.sheets.any fun p => origin < p.2.origin + k.pitchMin) then some (rPITCH, noDetail)
  else candidateFail k standing origin img

/-- The candidates from `c` on: the first that passes, or the failure of the last (R60). -/
def tryFrom (k : Check) (standing : List Nat) (img : Image) : Nat → Nat → (Nat × Nat × Nat) ⊕ Nat
  | 0, c => .inr c
  | n + 1, c =>
    match tryCandidate k standing img c with
    | none => .inr c
    | some (r, d) => if n = 0 then .inl (r, d, c) else tryFrom k standing img n (c + 1)

/-- The result of an evaluation (R60): a refusal (reason, detail, candidate) or the candidate to commit. -/
def evaluate (k : Check) (standing : List Nat) (img : Image) : (Nat × Nat × Nat) ⊕ Nat :=
  if k.horizon ≤ k.committed then .inl (rHORIZON, noDetail, 0xFF)
  else if 4096 < k.armed + img.main.length + img.withdraw.length + img.spoil.length then .inl (rACTIONS, noDetail, 0xFF)
  else tryFrom k standing img img.candidates 0

end Sys2Proof.Machine
end

