-- ==== Sys2Proof/Machine/Codec.lean ====
section
/-!
DEFINITION. Tile decoding (R151–R178): Catalogue planes and entries, RAW, DEFLATE and Folio tiles, as functions of the
bytes read. A decoded tile is its output bytes with the error, if one arose.
-/

namespace Sys2Proof.Machine

/-- Error codes of R175. -/
def eCODE : Nat := 1
def eDISTANCE : Nat := 2
def eLENGTH : Nat := 3
def eHEADER : Nat := 4
def eTRUNCATED : Nat := 5
def eCRC : Nat := 6

/-- The bytes of a tile (R151). -/
def tileBytes : Nat := 32768

/-! ### Bits and prefix codes -/

/-- Bit i of a Folio payload: bit 7 of each byte first (R168). -/
def bitMsb (b : Array Byte) (i : Nat) : Nat := (b.getD (i / 8) 0).toNat / 2 ^ (7 - i % 8) % 2

/-- Bit i of a DEFLATE stream: bit 0 of each byte first (R160). -/
def bitLsb (b : Array Byte) (i : Nat) : Nat := (b.getD (i / 8) 0).toNat / 2 ^ (i % 8) % 2

/-- `n` bits from position `i`, the first the most significant; none past `total`. -/
def readMsb (b : Array Byte) (total i n : Nat) : Option Nat :=
  if total < i + n then none else some ((List.range n).foldl (fun v k => 2 * v + bitMsb b (i + k)) 0)

/-- `n` bits from position `i`, the first the least significant; none past `total`. -/
def readLsb (b : Array Byte) (total i n : Nat) : Option Nat :=
  if total < i + n then none
  else some ((List.range n).foldl (fun v k => v + bitLsb b (i + k) * 2 ^ k) 0)

/-- Symbols of length n. -/
def countLen (lens : List Nat) (n : Nat) : Nat := if n = 0 then 0 else (lens.filter (· == n)).length

/-- The first code of length n (R165). -/
def firstCode (lens : List Nat) : Nat → Nat
  | 0 => 0
  | n + 1 => 2 * (firstCode lens n + countLen lens n)

/-- The symbols of length n with their codes, from symbol `s` on. -/
def codesFrom (n : Nat) : Nat → Nat → List Nat → List (Nat × Nat)
  | _, _, [] => []
  | s, c, l :: ls => if l = n then (c, s) :: codesFrom n (s + 1) (c + 1) ls else codesFrom n (s + 1) c ls

/-- For each length 1–15, the codes and their symbols (R165). -/
def codeTable (lens : List Nat) : Array (List (Nat × Nat)) :=
  ((List.range 15).map fun k => codesFrom (k + 1) 0 (firstCode lens (k + 1)) lens).toArray

/-- What reading one code word gives. -/
inductive SymRes
  | sym (s next : Nat)   -- a symbol, and the position after its code word
  | truncated            -- the bits end inside the code word
  | absent               -- no symbol has this code
deriving DecidableEq, Repr

/-- Read a code word bit by bit, from length n + 1 with the bits so far in `acc`. -/
def readCode (bit : Nat → Nat) (total : Nat) (tab : Array (List (Nat × Nat))) : Nat → Nat → Nat → Nat → SymRes
  | 0, _, _, _ => .absent
  | fuel + 1, pos, n, acc =>
    if total ≤ pos then .truncated
    else
      let acc := 2 * acc + bit pos
      match (tab.getD n []).find? fun p => p.1 == acc with
      | some p => .sym p.2 (pos + 1)
      | none => readCode bit total tab fuel (pos + 1) (n + 1) acc

/-- The Kraft sum of R165, in units of 2^−15. -/
def kraft (lens : List Nat) : Nat := (lens.map fun l => if l = 0 then 0 else 2 ^ (15 - l)).sum

/-! ### Folio (R163–R173) -/

/-- The built-in codebooks (R166): length of each group of symbols. -/
def bookLens (book : Nat) : List Nat :=
  let rep := fun (n l : Nat) => List.replicate n l
  match book with
  | 0 => rep 1 2 ++ rep 14 9 ++ rep 1 4 ++ rep 12 8 ++ rep 20 6 ++ rep 12 8 ++ rep 20 7 ++ rep 9 8 ++ rep 32 9
  | 1 => rep 16 6 ++ rep 12 8 ++ rep 20 9 ++ rep 32 7 ++ rep 12 6 ++ rep 29 7
  | 2 => rep 16 5 ++ rep 12 7 ++ rep 20 9 ++ rep 12 6 ++ rep 20 9 ++ rep 31 8 ++ rep 10 9
  | _ => rep 16 6 ++ rep 12 7 ++ rep 20 7 ++ rep 32 7 ++ rep 23 7 ++ rep 18 8

/-- The explicit codebook's lengths (R167): 121 nibbles, high nibble first. -/
def explicitLens (b : List Byte) : List Nat :=
  ((b.flatMap fun x => [x.toNat / 16, x.toNat % 16]).take 121)

/-- The extra bits and first value of a RUN length (R170). -/
def runBase (j : Nat) : Nat × Nat :=
  if j < 12 then (0, 2 + j) else let e := (j - 10) / 2; (e, 10 + 2 ^ (e + 1) + j % 2 * 2 ^ e)

/-- The extra bits and first value of a MATCH length class (R171). -/
def matchLenBase (k : Nat) : Nat × Nat :=
  match k with
  | 0 => (0, 3) | 1 => (0, 4) | 2 => (1, 5) | 3 => (2, 7) | 4 => (3, 11) | 5 => (4, 19) | 6 => (5, 35) | 7 => (6, 67)
  | 8 => (7, 131) | _ => (10, 259)

/-- The extra bits and first value of a distance group (R171). -/
def distBase (g : Nat) : Nat × Nat :=
  match g with
  | 0 => (4, 1) | 1 => (8, 17) | 2 => (12, 273) | _ => (16, 4369)

/-- Append n nibbles, each copied from d positions back, one at a time (R172). -/
def copyBack (d : Nat) : Nat → Array Nat → Array Nat
  | 0, a => a
  | n + 1, a => copyBack d n (a.push (a.getD (a.size - d) 0))

/-- What a Folio symbol asks for, its bits all read. -/
inductive FolioSym
  | lit (v : Nat)
  | run (n : Nat)
  | up (n : Nat)
  | copy (n d : Nat)
  | eot
deriving DecidableEq, Repr

/-- Extra bits of a value with a range: the value, the position after, `none` when truncated, `error` when reserved. -/
def extraMsb (b : Array Byte) (total pos e first last : Nat) : Option (Except Unit (Nat × Nat)) :=
  match readMsb b total pos e with
  | none => none
  | some x => if last < first + x then some (.error ()) else some (.ok (first + x, pos + e))

/-- Read one Folio symbol at `pos` (R168–R171): truncation, then a reserved extra value, in the order of its bits. -/
def readFolio (b : Array Byte) (total : Nat) (tab : Array (List (Nat × Nat))) (pos : Nat) :
    Except DecErr (FolioSym × Nat) :=
  let trunc : DecErr := { code := eTRUNCATED, detail := 0x40, bit := total }
  let resv : DecErr := { code := eCODE, detail := 0x12, bit := pos }
  match readCode (bitMsb b) total tab 15 pos 0 0 with
  | .truncated => .error trunc
  | .absent => .error trunc
  | .sym s p1 =>
    if s ≤ 15 then .ok (.lit s, p1)
    else if s ≤ 47 then
      match extraMsb b total p1 (runBase (s - 16)).1 (runBase (s - 16)).2 4096 with
      | none => .error trunc
      | some (.error _) => .error resv
      | some (.ok (n, p)) => .ok (.run n, p)
    else if s ≤ 79 then
      match extraMsb b total p1 (runBase (s - 48)).1 ((runBase (s - 48)).2 - 1) 4096 with
      | none => .error trunc
      | some (.error _) => .error resv
      | some (.ok (n, p)) => .ok (.up n, p)
    else if s ≤ 119 then
      match extraMsb b total p1 (matchLenBase ((s - 80) % 10)).1 (matchLenBase ((s - 80) % 10)).2 1024 with
      | none => .error trunc
      | some (.error _) => .error resv
      | some (.ok (n, p2)) =>
        match extraMsb b total p2 (distBase ((s - 80) / 10)).1 (distBase ((s - 80) / 10)).2 65535 with
        | none => .error trunc
        | some (.error _) => .error resv
        | some (.ok (d, p)) => .ok (.copy n d, p)
    else .ok (.eot, p1)

/-- Run the decoder of R172 from a position: the nibbles, the error, and the position after EOT. -/
def folioGo (b : Array Byte) (total : Nat) (tab : Array (List (Nat × Nat))) :
    Nat → Nat → Array Nat → Array Nat × Option DecErr × Nat
  | 0, pos, out => (out, some { code := eTRUNCATED, detail := 0x40, nibble := out.size, bit := total }, pos)
  | fuel + 1, pos, out =>
    let p := out.size
    let fail := fun (c d : Nat) => (out, some ({ code := c, detail := d, nibble := p, bit := pos } : DecErr), pos)
    match readFolio b total tab pos with
    | .error e => (out, some { e with nibble := p }, pos)
    | .ok (.lit v, q) => if p < 65536 then folioGo b total tab fuel q (out.push v) else fail eLENGTH 0x30
    | .ok (.run n, q) =>
      if p < 1 then fail eDISTANCE 0x21
      else if 65536 < p + n then fail eLENGTH 0x30
      else folioGo b total tab fuel q (copyBack 1 n out)
    | .ok (.up n, q) =>
      if p < 2048 then fail eDISTANCE 0x22
      else if 65536 < p + n then fail eLENGTH 0x30
      else folioGo b total tab fuel q (copyBack 2048 n out)
    | .ok (.copy n d, q) =>
      if p < d then fail eDISTANCE 0x20
      else if 65536 < p + n then fail eLENGTH 0x30
      else folioGo b total tab fuel q (copyBack d n out)
    | .ok (.eot, q) => if p = 65536 then (out, none, q) else fail eLENGTH 0x31

/-- Nibbles as bytes (R151, R178): high nibble first; a byte with only its high nibble has a zero low nibble. -/
def packNibbles : List Nat → List Byte
  | [] => []
  | [h] => [BitVec.ofNat 8 (16 * h)]
  | h :: l :: rest => BitVec.ofNat 8 (16 * h + l) :: packNibbles rest

/-- Header checks 1–4 of R164 for the position decoded: the detail of the first failure. -/
def folioHeader (r : List Byte) (station column row : Nat) : Option Nat :=
  let cb := sliceLE r 3 1
  let explicit := cb / 128 == 1
  let cbLen := sliceLE r 6 2
  let pl := sliceLE r 8 4
  if sliceLE r 0 1 ≠ 1 then some 0x05
  else if cb / 4 % 32 ≠ 0 ∨ 2 ^ 20 ≤ pl ∨ (explicit = true ∧ cb % 4 ≠ 0) ∨
      cbLen ≠ (if explicit then 61 else 0) ∨ (explicit = true ∧ sliceLE r 76 1 % 16 ≠ 0) then some 0x06
  else if (sliceLE r 1 1 ≠ station ∧ sliceLE r 1 1 ≠ 0xFF) ∨ (sliceLE r 2 1 ≠ column ∧ sliceLE r 2 1 ≠ 0xFF) ∨
      (sliceLE r 4 2 ≠ row ∧ sliceLE r 4 2 ≠ 0xFFFF) then some 0x07
  else if pl < 1 ∨ 131072 < pl ∨ r.length ≠ 16 + cbLen + pl then some 0x08
  else none

/-- Decode a Folio tile record (R163–R174, R177). -/
def decodeFolio (r : List Byte) (station column row : Nat) : Decoded :=
  match folioHeader r station column row with
  | some d => { out := [], err := some { code := eHEADER, detail := d }, setup := 32 }
  | none =>
    let explicit := sliceLE r 3 1 / 128 == 1
    let lens := if explicit then explicitLens ((r.drop 16).take 61) else bookLens (sliceLE r 3 1 % 4)
    let setup := if explicit then 160 else 32
    let k := kraft lens
    if 32768 < k then { out := [], err := some { code := eCODE, detail := 0x11 }, setup := setup }
    else if k < 32768 then { out := [], err := some { code := eCODE, detail := 0x10 }, setup := setup }
    else if lens.getD 120 0 = 0 then { out := [], err := some { code := eCODE, detail := 0x18 }, setup := setup }
    else
      let pay := r.drop (16 + sliceLE r 6 2)
      let b := pay.toArray
      let total := 8 * pay.length
      let (nibs, err, pos) := folioGo b total (codeTable lens) (total + 1) 0 #[]
      let out := packNibbles nibs.toList
      match err with
      | some e => { out := out, err := some e, setup := setup }
      | none =>
        let used := (pos + 7) / 8
        if used < pay.length then
          { out := out, err := some { code := eHEADER, detail := 0x09, nibble := 65536, bit := 8 * used }, setup := setup }
        else if crc32 out ≠ sliceLE r 0xC 4 then
          { out := out, err := some { code := eCRC, detail := 0x50 }, setup := setup }
        else { out := out, err := none, setup := setup }

/-! ### DEFLATE (R160–R162) -/

/-- A DEFLATE failure: its code, detail and bit position; NIBBLE follows from the output. -/
def dErr (out : Array Nat) (code detail bit : Nat) : Option DecErr :=
  some { code := code, detail := detail, nibble := 2 * out.size, bit := bit }

/-- Base length and extra bits of literal/length codes 257–285 (RFC 1951, which R160 names). -/
def lenCode (s : Nat) : Nat × Nat :=
  if s < 265 then (s - 254, 0)
  else if s = 285 then (258, 0)
  else let e := (s - 261) / 4; (3 + 2 ^ (e + 2) + (s - 261) % 4 * 2 ^ e, e)

/-- Base distance and extra bits of distance codes 0–29 (RFC 1951). -/
def distCode (s : Nat) : Nat × Nat :=
  if s < 4 then (s + 1, 0) else let e := (s - 2) / 2; (1 + 2 ^ (e + 1) + s % 2 * 2 ^ e, e)

/-- The two codes of a block. -/
structure Codes where
  lit : Array (List (Nat × Nat))
  dist : Array (List (Nat × Nat))
  distEmpty : Bool
  /-- The longest distance code: 1 when a single one has been given, whose other bit is unused. -/
  distMax : Nat

/-- Where a block leads: on to a position, with that of its end-of-block code, or to an error. -/
abbrev StepRes := Array Nat × Except (Option DecErr) (Nat × Nat)

/-- The body of a compressed block, up to its end-of-block code (R162). -/
def inflateBody (b : Array Byte) (total : Nat) (c : Codes) : Nat → Nat → Array Nat → StepRes
  | 0, _, out => (out, .error (dErr out eTRUNCATED 0x40 total))
  | fuel + 1, pos, out =>
    let trunc := dErr out eTRUNCATED 0x40 total
    match readCode (bitLsb b) total c.lit 15 pos 0 0 with
    | .truncated => (out, .error trunc)
    | .absent => (out, .error (dErr out eCODE 0x17 pos))
    | .sym s p1 =>
      if s < 256 then
        if out.size < tileBytes then inflateBody b total c fuel p1 (out.push s)
        else (out, .error (dErr out eLENGTH 0x30 pos))
      else if s = 256 then (out, .ok (p1, pos))
      else if 286 ≤ s then (out, .error (dErr out eCODE 0x15 pos))
      else
        let (base, e) := lenCode s
        match readLsb b total p1 e with
        | none => (out, .error trunc)
        | some x =>
          let n := base + x
          let p2 := p1 + e
          if c.distEmpty then (out, .error (dErr out eCODE 0x17 p2))
          else match readCode (bitLsb b) total c.dist c.distMax p2 0 0 with
            | .truncated => (out, .error trunc)
            | .absent => (out, .error (dErr out eCODE 0x17 p2))
            | .sym d p3 =>
              if 30 ≤ d then (out, .error (dErr out eCODE 0x15 p2))
              else
                let (dbase, de) := distCode d
                match readLsb b total p3 de with
                | none => (out, .error trunc)
                | some dx =>
                  let dist := dbase + dx
                  if out.size < dist then (out, .error (dErr out eDISTANCE 0x20 p2))
                  else if tileBytes < out.size + n then (out, .error (dErr out eLENGTH 0x30 pos))
                  else inflateBody b total c fuel (p3 + de) (copyBack dist n out)

/-- The fixed codes of RFC 1951. -/
def fixedCodes : Codes :=
  { lit := codeTable (List.replicate 144 8 ++ List.replicate 112 9 ++ List.replicate 24 7 ++ List.replicate 8 8)
    dist := codeTable (List.replicate 32 5), distEmpty := false, distMax := 5 }

/-- The code lengths of a dynamic block, run-length coded: `n` still to read, the lengths so far newest first. -/
def readLens (b : Array Byte) (total : Nat) (tab : Array (List (Nat × Nat))) (out : Array Nat) :
    Nat → Nat → Nat → List Nat → Except (Option DecErr) (List Nat × Nat)
  | 0, _, _, _ => .error (dErr out eTRUNCATED 0x40 total)
  | fuel + 1, pos, n, acc =>
    if n = 0 then .ok (acc.reverse, pos)
    else match readCode (bitLsb b) total tab 7 pos 0 0 with
      | .truncated => .error (dErr out eTRUNCATED 0x40 total)
      | .absent => .error (dErr out eCODE 0x17 pos)
      | .sym s p1 =>
        if s < 16 then readLens b total tab out fuel p1 (n - 1) (s :: acc)
        else
          let e := if s = 16 then 2 else if s = 17 then 3 else 7
          match readLsb b total p1 e with
          | none => .error (dErr out eTRUNCATED 0x40 total)
          | some x =>
            let k := x + (if s = 18 then 11 else 3)
            if n < k ∨ (s = 16 ∧ acc = []) then .error (dErr out eCODE 0x16 pos)
            else readLens b total tab out fuel (p1 + e) (n - k)
              (List.replicate k (if s = 16 then acc.headD 0 else 0) ++ acc)

/-- The order in which code-length code lengths are stored (RFC 1951). -/
def clOrder : List Nat := [16, 17, 18, 0, 8, 7, 9, 6, 10, 5, 11, 4, 12, 3, 13, 2, 14, 1, 15]

/-- The length of code-length symbol s among the `n` stored ones at `pos`. -/
def clLen (b : Array Byte) (pos n s : Nat) : Nat :=
  match clOrder.idxOf? s with
  | some i => if i < n then (readLsb b (pos + 3 * n) (pos + 3 * i) 3).getD 0 else 0
  | none => 0

/-- The code tables of a dynamic block whose header starts at `pos` (R162). -/
def dynamicCodes (b : Array Byte) (total : Nat) (out : Array Nat) (pos : Nat) : Except (Option DecErr) (Codes × Nat) :=
  let trunc := dErr out eTRUNCATED 0x40 total
  match readLsb b total pos 5 with
  | none => .error trunc
  | some hlit =>
    if 29 < hlit then .error (dErr out eCODE 0x15 pos)
    else match readLsb b total (pos + 5) 5 with
      | none => .error trunc
      | some hdist =>
        if 29 < hdist then .error (dErr out eCODE 0x15 (pos + 5))
        else match readLsb b total (pos + 10) 4 with
          | none => .error trunc
          | some hclen =>
            let n := hclen + 4
            let p1 := pos + 14
            if total < p1 + 3 * n then .error trunc
            else
              let cl := (List.range 19).map (clLen b p1 n)
              if 32768 < kraft cl then .error (dErr out eCODE 0x11 p1)
              else if kraft cl < 32768 then .error (dErr out eCODE 0x10 p1)
              else
                let p2 := p1 + 3 * n
                match readLens b total (codeTable cl) out (total + 1) p2 (hlit + 257 + hdist + 1) [] with
                | .error e => .error e
                | .ok (lens, p3) =>
                  let lit := lens.take (hlit + 257)
                  let dist := lens.drop (hlit + 257)
                  let single := (dist.filter (· ≠ 0)) == [1]
                  if 32768 < kraft lit ∨ 32768 < kraft dist then .error (dErr out eCODE 0x11 p2)
                  else if kraft lit < 32768 then .error (dErr out eCODE 0x10 p2)
                  else if kraft dist < 32768 ∧ kraft dist ≠ 0 ∧ single = false then .error (dErr out eCODE 0x10 p2)
                  else if lit.getD 256 0 = 0 then .error (dErr out eCODE 0x17 p2)
                  else .ok (Codes.mk (codeTable lit) (codeTable dist) (kraft dist == 0) (dist.foldl max 0), p3)

/-- Copy `n` stored bytes from byte position `i` (R162); the block has no end-of-block code, and its length field at `at'`
stands for it. -/
def storedBytes (b : Array Byte) (len at' : Nat) : Nat → Nat → Array Nat → StepRes
  | 0, i, out => (out, .ok (8 * i, at'))
  | n + 1, i, out =>
    if len ≤ i then (out, .error (dErr out eTRUNCATED 0x40 (8 * len)))
    else if tileBytes ≤ out.size then (out, .error (dErr out eLENGTH 0x30 (8 * i)))
    else storedBytes b len at' n (i + 1) (out.push (b.getD i 0).toNat)

/-- One block after its three header bits, with the cycles of its kind (R179). -/
def inflateBlock (b : Array Byte) (total btype pos : Nat) (out : Array Nat) : StepRes × Nat :=
  match btype with
  | 0 =>
    let p := (pos + 7) / 8 * 8
    match readLsb b total p 16, readLsb b total (p + 16) 16 with
    | some len, some nlen =>
      if len + nlen ≠ 65535 then ((out, .error (dErr out eCODE 0x14 p)), 8)
      else (storedBytes b (total / 8) p len (p / 8 + 4) out, 8)
    | _, _ => ((out, .error (dErr out eTRUNCATED 0x40 total)), 8)
  | 1 => (inflateBody b total fixedCodes (total + 1) pos out, 32)
  | 2 =>
    match dynamicCodes b total out pos with
    | .error e => ((out, .error e), 640)
    | .ok (c, p) => (inflateBody b total c (total + 1) p out, 640)
  | _ => ((out, .error (dErr out eCODE 0x13 (pos - 2))), 0)

/-- The blocks of a stream (R160, R161): output, error, the position after the final block, and the cycles of each block
with the output position at which it begins, last first. -/
def inflateGo (b : Array Byte) (total : Nat) :
    Nat → Nat → Array Nat → List (Nat × Nat) → Array Nat × Option DecErr × Nat × List (Nat × Nat)
  | 0, pos, out, gaps => (out, dErr out eTRUNCATED 0x40 total, pos, gaps)
  | fuel + 1, pos, out, gaps =>
    match readLsb b total pos 3 with
    | none => (out, dErr out eTRUNCATED 0x40 total, pos, gaps)
    | some h =>
      let at' := out.size
      match inflateBlock b total (h / 2) (pos + 3) out with
      | ((out, .error e), c) => (out, e, pos, (at', c) :: gaps)
      | ((out, .ok (p, eob)), c) =>
        if h % 2 = 1 then
          (out, if out.size < tileBytes then dErr out eLENGTH 0x31 eob else none, p, (at', c) :: gaps)
        else inflateGo b total fuel p out ((at', c) :: gaps)

/-- Decode a DEFLATE record (R160–R162). -/
def decodeDeflate (r : List Byte) (chk : Bool) : Decoded :=
  let body := if chk then r.take (r.length - 4) else r
  let total := 8 * body.length
  let (o, err, pos, gaps) := inflateGo body.toArray total (total + 1) 0 #[] []
  let out := o.toList.map (BitVec.ofNat 8)
  let used := (pos + 7) / 8
  let err := match err with
    | some e => some e
    | none =>
      if used < body.length then
        some { code := eHEADER, detail := 0x09, nibble := 65536, bit := 8 * (used + if chk then 4 else 0) }
      else if chk && crc32 out != sliceLE r used 4 then some { code := eCRC, detail := 0x50 }
      else none
  { out := out, err := err, setup := 8, gaps := gaps.reverse }

/-! ### The output of a tile in time (R179) -/

/-- The setup cycles that count in a tile's run. -/
def TileRun.setupCycles (r : TileRun) (d : Decoded) : Nat := if r.setup then d.setup else 0

/-- The cycles of a run before output byte `b`: its setup, the cycles inside the tile, and two bytes a cycle. -/
def TileRun.cyclesTo (r : TileRun) (d : Decoded) (b : Nat) : Nat :=
  r.setupCycles d + ((d.gaps.filter fun g => r.start ≤ g.1 && g.1 ≤ b).map (·.2)).sum + (b - r.start) / 2

/-- The edge of the output cycle of byte `b`. -/
def TileRun.edgeOf (r : TileRun) (d : Decoded) (b : Nat) : Tick := r.since + 8 * r.cyclesTo d b

/-- The edge at which all of a run's output is over, no input waits counted. -/
def TileRun.overAt (r : TileRun) (d : Decoded) : Tick := r.edgeOf d (d.out.length + (d.out.length - r.start) % 2)

/-- Output bytes after `cyc` cycles that begin with byte `b`, `n` in all, with cycles between. -/
def outBytes (n : Nat) : List (Nat × Nat) → Nat → Nat → Nat
  | [], b, cyc => min n (b + 2 * cyc)
  | (p, c) :: gs, b, cyc =>
    let k := (p - b + 1) / 2
    if cyc ≤ k then min (min n p) (b + 2 * cyc) else outBytes n gs (max b p) (cyc - k - c)

/-- The output bytes that a run has put out by `t`, unless it waits (R179). -/
def TileRun.due (r : TileRun) (d : Decoded) (t : Tick) : Nat :=
  if t < r.since then r.start
  else outBytes d.out.length (d.gaps.filter fun g => r.start ≤ g.1) r.start ((t - r.since) / 8 + 1 - r.setupCycles d)

/-- The input waits of a run that has been over since `overAt`, or has come to byte `b` and stood there. -/
def stallCycles (edge now : Tick) : Nat := (now - edge) / 8

/-! ### Catalogue entries and RAW tiles -/

/-- A Catalogue entry (R156). -/
structure Entry where
  addr : Nat
  len : Nat
  fmt : Nat
  fill : Bool
  chk : Bool
deriving DecidableEq, Repr

def parseEntry (w : Nat) : Entry :=
  { addr := nbits w 39 0, len := nbits w 59 40, fmt := nbits w 61 60, fill := nbits w 62 62 == 1
    chk := nbits w 63 63 == 1 }

/-- The entry of a column at or beyond COLS: FILL of value 0 (R155). -/
def fillZero : Entry := { addr := 0, len := 0, fmt := 0, fill := true, chk := false }

/-- The entry checks of R157 in the order of R177: form, address, length; `dram` tells whether a record lies wholly in
installed DRAM. -/
def entryFail (e : Entry) (dram : Nat → Nat → Bool) : Option Nat :=
  if e.fill then
    if e.fmt ≠ 0 ∨ e.chk = true ∨ e.len ≠ 0 then some 0x02
    else if e.addr / 16 ≠ 0 then some 0x03
    else none
  else if e.fmt = 3 ∨ (e.fmt = 2 ∧ e.chk = true) then some 0x02
  else if e.addr % 16 ≠ 0 ∨ e.addr < 0x100000000 ∨ dram e.addr (max e.len 1) = false then some 0x03
  else
    let c := if e.chk then 4 else 0
    let ok := match e.fmt with
      | 0 => e.len == tileBytes + c
      | 1 => 1 + c ≤ e.len && e.len ≤ 65536 + c
      | _ => 17 ≤ e.len && e.len ≤ 131149
    if ok then none else some 0x04

/-- Decode the record of a checked entry for a position (R153). -/
def decodeRecord (e : Entry) (r : List Byte) (station column row : Nat) : Decoded :=
  if e.fill then
    { out := List.replicate tileBytes (BitVec.ofNat 8 (e.addr % 16 * 17)), err := none, setup := 8 }
  else match e.fmt with
    | 0 =>
      let out := r.take tileBytes
      if e.chk && crc32 out != sliceLE r tileBytes 4 then
        { out := out, err := some { code := eCRC, detail := 0x50 }, setup := 16 }
      else { out := out, err := none, setup := 16 }
    | 1 => decodeDeflate r e.chk
    | _ => decodeFolio r station column row

/-- The plane header checks of R154 and R176 detail 0x01, apart from address and row; `station` and `sheet` are what the
plane must name, where the user of the plane fixes them. -/
def planeOk (h : List Byte) (station sheet : Option Nat) : Bool :=
  sliceLE h 0 4 == 0x43544C47 && sliceLE h 4 2 == 1 && sliceLE h 6 1 ≤ 5 &&
  (match station with | some x => sliceLE h 6 1 == x | none => true) &&
  1 ≤ sliceLE h 7 1 && sliceLE h 7 1 ≤ 12 && 1 ≤ sliceLE h 8 2 && sliceLE h 8 2 ≤ 8192 && sliceLE h 0xA 2 == 0 &&
  (match sheet with | some x => sliceLE h 0xC 4 == x | none => true) && sliceLE h 0x10 16 == 0

end Sys2Proof.Machine
end

