-- ==== Sys2Proof/Machine/FxOps.lean ====
section
/-!
DEFINITION. What a sheet holds in FX, EXP and XLK, as the Timetable needs it: band streams, line counts and credit
(R183–R189), stream and binding ends (R188, R230), RELEASED (R235) and blanking (R259).
-/

namespace Sys2Proof.Machine

/-! ### Streams and line counts -/

def State.fxStreams (s : State) (st : Nat) : List Stream := Tab.get [] s.fx.streams st

def State.setStreams (s : State) (st : Nat) (xs : List Stream) : State :=
  { s with fx := { s.fx with streams := Tab.put [] s.fx.streams st xs } }

def State.exps (s : State) (st : Nat) : Exp := Tab.get {} s.exp st

def State.modExp (s : State) (st : Nat) (g : Exp → Exp) : State :=
  { s with exp := Tab.put {} s.exp st (g (s.exps st)) }

/-- NEXT_LN, FILLED and RELEASED of a station (R184, R187, R235). -/
def State.nextLn (s : State) (st : Nat) : Nat := s.pair (Reg.FX_STREAM_NEXT_LO st) (Reg.FX_STREAM_NEXT_HI st)
def State.setNextLn (s : State) (st n : Nat) : State :=
  s.setPair (Reg.FX_STREAM_NEXT_LO st) (Reg.FX_STREAM_NEXT_HI st) (n % 2 ^ 48)
def State.filled (s : State) (st : Nat) : Nat := s.pair (Reg.FX_STREAM_FILLED_LO st) (Reg.FX_STREAM_FILLED_HI st)
def State.setFilled (s : State) (st n : Nat) : State :=
  s.setPair (Reg.FX_STREAM_FILLED_LO st) (Reg.FX_STREAM_FILLED_HI st) n
def State.released (s : State) (st : Nat) : Nat := s.pair (Reg.EXP_RELEASED_LO st) (Reg.EXP_RELEASED_HI st)
def State.setReleased (s : State) (st n : Nat) : State :=
  s.setPair (Reg.EXP_RELEASED_LO st) (Reg.EXP_RELEASED_HI st) n

/-- The station line after a stream's last. -/
def Stream.stop (x : Stream) : Nat := x.ln0 + 32 * x.nrows

/-- The line after `f` that FILLED reaches next, if it moves (R187): past an ended stream, or past a whole row. -/
def filledStep (ended : List (Nat × Nat)) (xs : List Stream) (f : Nat) : Option Nat :=
  match ended.find? fun r => r.1 ≤ f && f < r.2 with
  | some r => some r.2
  | none =>
    if xs.any fun x => x.ln0 ≤ f && f < x.stop && Tab.get 0 x.done ((f - x.ln0) / 32) == 12 then some (f + 32) else none

/-- FILLED as far as it goes. -/
def filledGo (ended : List (Nat × Nat)) (xs : List Stream) : Nat → Nat → Nat
  | 0, f => f
  | n + 1, f => match filledStep ended xs f with
    | some f' => filledGo ended xs n f'
    | none => f

/-- FILLED advances (R187), and the ended ranges it has passed are forgotten. -/
def State.advanceFilled (s : State) (st : Nat) : State :=
  let ended := Tab.get [] s.fx.ended st
  let f := filledGo ended (s.fxStreams st) 8256 (s.filled st)
  { s.setFilled st f with fx := { s.fx with ended := Tab.put [] s.fx.ended st (ended.filter fun r => f < r.2) } }

/-- RELEASED: the lesser of NEXT_LN and the least LW of the streams that still count; it never decreases (R235). -/
def State.advanceReleased (s : State) (st : Nat) : State :=
  s.setReleased st (max (s.released st) ((s.exps st).uses.foldl (fun m u => min m u.lw) (s.nextLn st)))

/-- The rows of a stream that the credit rule lets start (R186): those not yet ready become startable now. -/
def Stream.credit (rel now : Nat) : Nat → Stream → Stream
  | 0, x => x
  | n + 1, x =>
    if x.ready.length < x.nrows && x.ln0 + 32 * x.ready.length + 31 < rel + 341 then
      Stream.credit rel now n { x with ready := x.ready ++ [now] }
    else x

/-- Credit for the active stream of a station. -/
def State.updateCredit (s : State) (st : Nat) : State :=
  s.setStreams st ((s.fxStreams st).map fun x => if x.active then x.credit (s.released st) s.clk.tb 8192 else x)

/-! ### Lanes -/

def State.lane (s : State) (n : Nat) : Lane := Tab.get .idle s.fx.lanes n

def State.setLane (s : State) (n : Nat) (x : Lane) : State :=
  { s with fx := { s.fx with lanes := Tab.put .idle s.fx.lanes n x } }

/-- The lane holds a tile of the stream of a station that starts at a line. -/
def Lane.ofStream (st ln0 : Nat) : Lane → Bool
  | .band b => b.st == st && b.ln0 == ln0
  | _ => false

/-- The lane's tile is complete at edge `t` exactly. -/
def Lane.wholeAt (t : Tick) : Lane → Bool
  | .band b => match b.run.res with
    | some (.tile d) => d.err.isNone && b.run.overAt d == t
    | _ => false
  | _ => false

/-! ### Ends -/

/-- The lanes that hold a tile of a stream stop; a tile that is complete at this same edge counts as completed (R189). -/
def State.stopLanes (s : State) (st ln0 : Nat) : State :=
  (List.range 12).foldl (fun s n =>
    if (s.lane n).ofStream st ln0 then
      (if (s.lane n).wholeAt s.clk.tb then s.incSat Reg.FX_CNT_TILES 31 0 else s).setLane n .idle
    else s) s

/-- A stream ends other than by completing (R188, R189): its lanes stop, its lines count as ended, and EXP no longer
counts it (R235). -/
def State.endStream (s : State) (st : Nat) (x : Stream) : State :=
  let s := s.stopLanes st x.ln0
  let s := s.setStreams st ((s.fxStreams st).filter fun y => y.ln0 ≠ x.ln0)
  let ended := Tab.get [] s.fx.ended st
  let s := { s with fx := { s.fx with ended := Tab.put [] s.fx.ended st (ended ++ [(x.ln0, x.stop)]) } }
  let s := s.modExp st fun e => { e with uses := e.uses.filter fun u => u.ln0 ≠ x.ln0 }
  ((s.advanceFilled st).advanceReleased st).updateCredit st

/-- The first block start after now (R251, R259). -/
def State.nextBlock (s : State) : Tick := nextMultiple 66 (s.clk.tb + 1)

/-! ### Control blocks (R252) -/

/-- The types of control blocks. -/
def ctlIDLE : Nat := 0x1E
def ctlSOF : Nat := 0x78
def ctlEOF : Nat := 0x87
def ctlLIGHT : Nat := 0x4B
def ctlBLANK : Nat := 0x2D
def ctlTBL : Nat := 0x33

/-- The SOF of a scan on a logical lane. -/
def sofWord (st k lane : Nat) : BitVec 64 :=
  BitVec.ofNat 64 (ctlSOF + 2 ^ 8 * lane + 2 ^ 16 * (k % 2 ^ 16) + 2 ^ 32 * st)

/-- The EOF of a lane whose data blocks have a CRC-32. -/
def eofWord (abort : Bool) (crc : Nat) : BitVec 64 :=
  BitVec.ofNat 64 (ctlEOF + (if abort then 2 ^ 8 else 0) + 2 ^ 16 * crc)

/-- A LIGHT block. -/
def Light.word (l : Light) : BitVec 64 :=
  BitVec.ofNat 64 (ctlLIGHT + 2 ^ 8 * l.mode + 2 ^ 10 * l.emitter + 2 ^ 16 * l.level + 2 ^ 24 * (l.start % 2 ^ 24) +
    2 ^ 48 * (l.len % 2 ^ 16))

/-- The TBL of a band. -/
def tblWord (band : Nat) : BitVec 64 := BitVec.ofNat 64 (ctlTBL + 2 ^ 8 * band)

/-- A control block is sent on the four data lanes in one block slot. -/
def State.sendCtl (s : State) (st : Nat) (marker : Tick) (word : Nat → BitVec 64) : State :=
  s.modExp st fun e => { e with ctl := ({ marker := marker, lanes := (List.range 4).map word } :: e.ctl).take 16 }

/-- XLK sends BLANK at the next block start, and the frame in progress will end with ABORT (R259). -/
def State.blankStation (s : State) (st : Nat) : State :=
  (s.modExp st fun e => { e with blank := some s.nextBlock, frame := e.frame.map fun f => { f with abort := true } }).sendCtl
    st s.nextBlock fun _ => BitVec.ofNat 64 ctlBLANK

/-- The handle of the sheet to which a set's scan is bound. -/
def ScanSet.sheet (x : ScanSet) : Option Nat := x.binding.map (·.sheet)

/-- The sheet bound to the frame in progress on a station has received a cause or an outcome (R259). -/
def State.blankSheet (s : State) (h : Nat) : State :=
  (List.range 6).foldl (fun s st =>
    match (s.exps st).frame with
    | some f => if f.set.sheet = some h && !f.abort then s.blankStation st else s
    | none => s) s

/-- A sheet reaches an outcome: its streams end (R188), its bindings end and its scans are no longer bound (R230,
R259), and its streams stop counting (R235). -/
def State.endSheet (s : State) (h : Nat) : State :=
  (List.range 6).foldl (fun s st =>
    let s := ((s.fxStreams st).filter fun x => x.sheet == h).foldl (fun s x => s.endStream st x) s
    let s := s.modExp st fun e =>
      { e with bindings := e.bindings.filter fun b => b.sheet ≠ h
               uses := e.uses.filter fun u => u.sheet ≠ h
               sets := e.sets.map fun x => if x.sheet = some h then { x with binding := none } else x }
    (s.advanceReleased st).updateCredit st) (s.blankSheet h)

end Sys2Proof.Machine
end

