-- ==== Sys2Proof/Machine/Timetable.lean ====
section
/-!
DEFINITION. The Timetable: sheet entries, armed actions, causes and outcomes (R49–R90), its records, and the commands of
its rows.
-/

namespace Sys2Proof.Machine

/-- Reason codes of R76. -/
def cNONE : Nat := 0x00
def cACTION_LATE : Nat := 0x01
def cLATE_DROPS : Nat := 0x02
def cTILE_DECODE : Nat := 0x03
def cTILE_LATE : Nat := 0x04
def cLINK : Nat := 0x05
def cSCAN_SYNC : Nat := 0x06
def cMEDIA_EARLY : Nat := 0x07
def cMEDIA_LATE : Nat := 0x08
def cAXIS_FAULT : Nat := 0x09
def cHV_WINDOW : Nat := 0x0A
def cFUSER_WINDOW : Nat := 0x0B
def cSAFE_ENTRY : Nat := 0x0C
def cBLOCK_RESET : Nat := 0x0D
def cSHARED : Nat := 0x11
def cREQUESTED : Nat := 0x12

/-- Sheet states as TT_SHEET.STATE codes them (R72). -/
def stFREE : Nat := 0
def stCOMMITTED : Nat := 1
def stRUNNING : Nat := 2
def stDELIVERED : Nat := 3
def stSPOILED : Nat := 4
def stWITHDRAWN : Nat := 5

/-- The state of sheet entry k. -/
def State.sheetState (s : State) (k : Nat) : Nat := s.f (Reg.TT_SHEET k) 3 0

/-- The handle of sheet entry k (R90). -/
def State.handle (s : State) (k : Nat) : Nat := k + 128 * s.f (Reg.TT_SHEET k) 12 4

def State.sheet (s : State) (k : Nat) : Option Sheet := Tab.get none s.tt.sheets k

def State.setSheet (s : State) (k : Nat) (x : Option Sheet) : State :=
  { s with tt := { s.tt with sheets := Tab.put none s.tt.sheets k x } }

/-- Change a sheet entry that is in use. -/
def State.modSheet (s : State) (k : Nat) (g : Sheet → Sheet) : State :=
  match s.sheet k with
  | some sh => s.setSheet k (some (g sh))
  | none => s

/-- The main actions that are still armed though entry k is FREE again. -/
def State.orphanAt (s : State) (k i : Nat) : Option Armed :=
  (s.tt.orphans.find? fun p => p.1 == k && p.2.idx == i).map (·.2)

/-- The sheet entries in use, with their numbers. -/
def State.openSheets (s : State) : List (Nat × Sheet) :=
  s.tt.sheets.filterMap fun p => p.2.map fun sh => (p.1, sh)

/-- Sheets committed in the sense of R42: COMMITTED or RUNNING. -/
def State.anyCommitted (s : State) : Bool :=
  s.openSheets.any fun p => s.sheetState p.1 == stCOMMITTED || s.sheetState p.1 == stRUNNING

/-- TT_STATUS.COMMITTED: entries not FREE. -/
def State.sheetsInUse (s : State) : Nat := s.openSheets.length

/-- TT_STATUS.ARMED: armed entries and the lists held for an outcome (R71). -/
def State.armedInUse (s : State) : Nat :=
  (s.openSheets.map fun p => p.2.armed.length +
    (if s.sheetState p.1 == stCOMMITTED || s.sheetState p.1 == stRUNNING then
      p.2.withdraw.length + p.2.spoil.length else 0)).sum + s.tt.orphans.length

/-- The mode admits sheets (R60). -/
def State.admits (s : State) : Bool := (s.mode == .ready || s.mode == .print) && !s.trans

/-- TT_STATUS as it reads (R91). -/
def State.ttStatus (s : State) : Word :=
  BitVec.ofNat 32 (s.sheetsInUse + 2 ^ 8 * s.tt.queue.length + 2 ^ 12 * (if s.tt.check.isSome then 1 else 0) +
    2 ^ 13 * (if s.admits then 1 else 0) + 2 ^ 14 * s.f Reg.TT_STATUS 14 14 +
    2 ^ 15 * (if s.tt.held.isEmpty then 0 else 1) + 2 ^ 16 * s.armedInUse)

/-! ### The result ring (R88, R90) -/

/-- The 32 bytes of a result record. -/
def ResRecord.bytes (r : ResRecord) : List Byte :=
  bytesLE 4 r.sheetId ++ bytesLE 4 r.jobId ++ bytesLE 8 r.time ++ bytesLE 8 r.origin ++ bytesLE 2 r.handle ++
  bytesLE 1 r.kind ++ bytesLE 1 r.reason ++ bytesLE 2 r.detail ++ bytesLE 1 r.candidate ++ [0]

def State.resqSize (s : State) : Nat := 2 ^ s.f Reg.TT_RESQ_CFG 3 0

/-- (HEAD + 1) mod size = TAIL. -/
def State.resqFull (s : State) : Bool :=
  (s.f Reg.TT_RESQ_HEAD 11 0 + 1) % s.resqSize == s.f Reg.TT_RESQ_TAIL 11 0

/-- The address of ring record i. A base that is no multiple of the ring's size, against R91, is taken as written (log
entry 86). -/
def State.resqAddr (s : State) (i : Nat) : Nat := (s.reg Reg.TT_RESQ_BASE).toNat * 64 + 32 * i

/-- The Timetable can write its ring there: memory that exists and may be written (R32, R33, R35), the Ledger apart. -/
def State.ringMem (s : State) (a : Nat) : Bool := s.memOn a 32 && storable a 32 && !(ledgerBase ≤ a && a < dramBase)

/-- Write one record at HEAD; where the ring lies outside such memory nothing is stored, and HEAD still moves (log
entry 47). -/
def State.resqPush (s : State) (r : ResRecord) : State :=
  let h := s.f Reg.TT_RESQ_HEAD 11 0
  let a := s.resqAddr h
  (if s.ringMem a then s.storeBytes a r.bytes else s).setF Reg.TT_RESQ_HEAD 11 0 ((h + 1) % s.resqSize)

/-- Put a record into the ring, or hold it while the ring is full; the place it took in the ring, if any. -/
def State.resRecord (s : State) (r : ResRecord) : Option Nat × State :=
  if s.tt.held.isEmpty && !s.resqFull then (some (s.f Reg.TT_RESQ_HEAD 11 0), s.resqPush r)
  else (none, { s with tt := { s.tt with held := s.tt.held ++ [r] } })

/-- Held records enter the ring in order while it has room. -/
def State.flushHeld (s : State) : Nat → State
  | 0 => s
  | n + 1 =>
    match s.tt.held with
    | [] => s
    | r :: rs =>
      if s.resqFull then s
      else
        let h := s.f Reg.TT_RESQ_HEAD 11 0
        let s := { s with tt := { s.tt with held := rs } }
        let s := s.modSheet (r.handle % 128) fun sh =>
          if 3 ≤ r.kind && s.handle (r.handle % 128) == r.handle then { sh with recAt := some h } else sh
        (s.resqPush r).flushHeld n

/-! ### Junction slot tables (R36–R38, R70) -/

/-- The entries a port needs: the largest sum of RT_PORT claims of the sheets in use (R66, R70). -/
def State.portNeed (s : State) (p : Nat) : Nat :=
  let cs := s.openSheets.flatMap fun q => (absNew q.2.origin 0 q.2.claims).filter fun x =>
    x.c.kind == kRTPORT && x.c.unit == p && s.clk.tb < x.stop
  (cs.map fun x => ((covering x.start cs).map (·.c.amount)).sum).foldl max 0

/-- Write the inactive bank and request the swap; while one is pending the request waits for it (R38). -/
def State.requestSwap (s : State) : State :=
  if s.fb Reg.JCT_STATUS 1 then { s with jct := { s.jct with again := true } }
  else
    let next := (List.range 10).foldl (fun t p => let n := s.portNeed p
      Tab.put {} t p (if n = 0 then {} else { n := n, key := s.fresh + 65 * p })) ([] : Tab SlotTable)
    { s with jct := { s.jct with next := next, reqAt := s.clk.tb }, fresh := s.fresh + 650 }.setB Reg.JCT_STATUS 1 true

/-! ### Outcomes -/

/-- The READY, PRINT and DRAIN automatic events (R42): with no sheet committed, PRINT and DRAIN return to READY. -/
def State.lastSheetDone (s : State) : State :=
  if !s.anyCommitted && (s.mode == .print || s.mode == .drain) then
    (s.setF Reg.SYS_MODE 2 0 Mode.ready.code).setF Reg.SYS_MODE 6 4 Mode.ready.code
  else s

/-- The last time any claim window of a sheet ends. -/
def Sheet.lastEnd (sh : Sheet) : Nat := sh.claims.foldl (fun m c => max m (sh.origin + c.winEnd)) 0

/-- An entry with its outcome, its windows ended and its withdrawal or spoil actions done returns to FREE (R71, R72); main
actions that are still armed stay so (R79). -/
def State.tryFree (s : State) (k : Nat) : State :=
  match s.sheet k with
  | none => s
  | some sh =>
    if stDELIVERED ≤ s.sheetState k && sh.lastEnd ≤ s.clk.tb && (sh.armed.all fun a => a.list == .main) then
      let rt := sh.claims.any fun c => c.kind == kRTPORT
      let s := { s with tt := { s.tt with orphans := s.tt.orphans ++ sh.armed.map fun a => (k, a) } }
      let s := (s.setSheet k none).setF (Reg.TT_SHEET k) 3 0 stFREE
      if rt then s.requestSwap else s
    else s

/-- The OUTCOME journal record's body (R476). -/
def outcomeBody (sh : Sheet) (handle kind reason detail out : Nat) : List Byte :=
  bytesLE 4 sh.sheetId ++ bytesLE 4 sh.jobId ++ bytesLE 2 handle ++ bytesLE 1 kind ++ bytesLE 1 reason ++
  bytesLE 2 detail ++ [0, 0] ++ bytesLE 8 out

/-- The counter register of an outcome (R91). -/
def outcomeCounter (st : Nat) : Nat :=
  if st = stDELIVERED then Reg.TT_CNT_DELIVER else if st = stSPOILED then Reg.TT_CNT_SPOIL else Reg.TT_CNT_WITHDRAW

/-- Arm a list at offsets from a moment (R56). -/
def armList (l : ActList) (t : Tick) : Nat → List Action → List Armed
  | _, [] => []
  | i, a :: as => { idx := i, list := l, act := a, time := t + a.offset } :: armList l t (i + 1) as

/-- A window whose sheet reaches an outcome closes without a result (R354). -/
def State.dropWindows (s : State) (k : Nat) : State :=
  { s with sns := { s.sns with win := s.sns.win.filter fun w => w.sheet ≠ k } }

/-- Give sheet k its outcome (R49, R72): `keep` says which main actions stay armed, `arm` which list is armed. The
records of R88 and R476 are written, the counters step, and the mode follows R42. -/
def State.outcome (s : State) (k st reason detail : Nat) (keep : Armed → Bool) (arm : Option ActList) : State :=
  match s.sheet k with
  | none => s
  | some sh =>
    let newArms := match arm with
      | some .withdraw => armList .withdraw s.clk.tb sh.numMain sh.withdraw
      | some .spoil => armList .spoil s.clk.tb (sh.numMain + sh.numWithdraw) sh.spoil
      | _ => []
    let out := if st = stDELIVERED then s.tt.deliveredOut + 1 else s.tt.deliveredOut
    let s := { s with tt := { s.tt with deliveredOut := out } }
    let s := (s.setF (Reg.TT_SHEET k) 3 0 st).setF (Reg.TT_SHEET k) 23 16 reason
    let s := s.incSat (outcomeCounter st) 31 0
    let s := s.ldgRecord 3 0x02 2 (outcomeBody sh (s.handle k) st reason detail out)
    let r : ResRecord := { sheetId := sh.sheetId, jobId := sh.jobId, time := s.clk.tb, origin := sh.origin,
                           handle := s.handle k, kind := st, reason := reason, detail := detail,
                           candidate := sh.candidate }
    let (at', s) := s.resRecord r
    let done := { sh with armed := sh.armed.filter keep ++ newArms, outAt := s.clk.tb, detail := detail, recAt := at'
                          hadT0 := sh.armed.any fun a => a.list == .main && a.act.cls == 0 }
    let s := s.setSheet k (some done)
    let s := if st = stSPOILED then s.raise srcTT 1 else s
    let s := (s.endSheet (s.handle k)).dropWindows k
    s.lastSheetDone.tryFree k

/-- Withdrawal (R73): every main action is disarmed and the withdrawal list armed. -/
def State.withdrawSheet (s : State) (k reason detail : Nat) : State :=
  s.outcome k stWITHDRAWN reason detail (fun _ => false) (some .withdraw)

/-- Spoiling (R79): the remaining T0 actions are disarmed and the spoil list armed. -/
def State.spoilSheet (s : State) (k reason detail : Nat) : State :=
  s.outcome k stSPOILED reason detail (fun a => a.act.cls ≠ 0) (some .spoil)

/-- Spoiling a sheet whose media SAFE stops (R82): everything is disarmed and no list is armed. -/
def State.stopSheet (s : State) (k reason detail : Nat) : State :=
  s.outcome k stSPOILED reason detail (fun _ => false) none

/-- A journal request of this edge for the outcome of the sheet with handle `h` takes another body; any other stays. -/
def outcomeAmended (t : Tick) (h : Nat) (body : List Byte) (q : LdgReq) : LdgReq :=
  if q.kind = 0x02 && q.time = t && sliceLE q.body 8 2 == h then { q with body := body } else q

/-- Replace the reason of an outcome declared at this same CORE edge by a cause that precedes it (R49, R75): the
record, the register, the counters and the journal request are rewritten. -/
def State.amend (s : State) (k st reason detail : Nat) : State :=
  match s.sheet k with
  | none => s
  | some sh =>
    let old := s.sheetState k
    let h := s.handle k
    let out := if old = stDELIVERED && st ≠ stDELIVERED then s.tt.deliveredOut - 1 else s.tt.deliveredOut
    let s := { s with tt := { s.tt with deliveredOut := out
                                        held := s.tt.held.map fun (r : ResRecord) =>
                                          if r.handle = h && 3 ≤ r.kind then
                                            { r with kind := st, reason := reason, detail := detail } else r }
                      ldg := { s.ldg with
                        queue := s.ldg.queue.map (outcomeAmended s.clk.tb h (outcomeBody sh h st reason detail out))
                        cur := s.ldg.cur.map (outcomeAmended s.clk.tb h (outcomeBody sh h st reason detail out)) } }
    let s := match sh.recAt with
      | some i => ((s.setMem (s.resqAddr i + 0x1A) 1 st).setMem (s.resqAddr i + 0x1B) 1 reason).setMem
                    (s.resqAddr i + 0x1C) 2 detail
      | none => s
    let s := if old = st then s
      else (s.setF (outcomeCounter old) 31 0 (s.f (outcomeCounter old) 31 0 - 1)).incSat (outcomeCounter st) 31 0
    let s := (s.setF (Reg.TT_SHEET k) 3 0 st).setF (Reg.TT_SHEET k) 23 16 reason
    let s := s.modSheet k fun sh => { sh with detail := detail }
    if st = stSPOILED && old ≠ stSPOILED then s.raise srcTT 1 else s

/-- The EXIT action was reported met at an edge before `t`: a cause of now comes too late for the sheet (R75). -/
def Sheet.exitMetBefore (sh : Sheet) (t : Tick) : Bool :=
  match sh.exitAt with
  | some e => e < t
  | none => false

/-- A cause other than SAFE entry is detected for sheet k at this CORE edge (R75, R77, R79); a frame bound to the
sheet is blanked (R259). -/
def State.causeOnce (s : State) (k reason detail : Nat) : State :=
  match s.sheet k with
  | none => s
  | some sh =>
    let s := s.blankSheet (s.handle k)
    let st := s.sheetState k
    if st = stCOMMITTED then s.withdrawSheet k reason detail
    else if st = stRUNNING then s.spoilSheet k reason detail
    else if st = stDELIVERED then
      if sh.outAt = s.clk.tb then
        (s.amend k stSPOILED reason detail).modSheet k fun sh =>
          { sh with armed := sh.armed.filter (fun a => a.act.cls ≠ 0) ++
                             armList .spoil s.clk.tb (sh.numMain + sh.numWithdraw) sh.spoil }
      else s.incSat Reg.TT_CNT_LATE 31 0
    else if (st = stSPOILED || st = stWITHDRAWN) && sh.outAt = s.clk.tb && reason < s.f (Reg.TT_SHEET k) 23 16 then
      s.amend k st reason detail
    else if sh.exitMetBefore s.clk.tb then s.incSat Reg.TT_CNT_LATE 31 0
    else s

/-! ### Streams that become active -/

/-- The oldest stream of a station, when it has not become active yet. -/
def State.waitingHead (s : State) (st : Nat) : Option Stream :=
  match s.fxStreams st with
  | x :: _ => if x.active then none else some x
  | [] => none

/-- A stream failure (R188): FX_STREAM_ERR, event DEC_ERR, and the TILE_DECODE cause for the sheet with that handle. -/
def State.streamFail (s : State) (st h err fail detail row : Nat) : State :=
  let s := s.setReg (Reg.FX_STREAM_ERR st) (BitVec.ofNat 32 (err + 2 ^ 4 * fail + 2 ^ 8 * detail + 2 ^ 16 * row))
  let s := s.raise srcFX 0
  if s.handle (h % 128) = h then s.causeOnce (h % 128) cTILE_DECODE (st + 8 * (row % 8192)) else s

/-- The SHEET_ID of the sheet with a handle. -/
def State.sheetIdOf (s : State) (h : Nat) : Option Nat := (s.sheet (h % 128)).map (·.sheetId)

/-- The plane header of a stream, checked (R154, R183, R188): COLS, or FAIL with the R175 code and R176 detail. -/
def State.checkPlane (s : State) (st : Nat) (x : Stream) : Except (Nat × Nat × Nat) Nat × State :=
  if x.plane % 64 ≠ 0 || !s.inDram x.plane 32 then (.error (eHEADER, 0, 0x01), s)
  else match s.readMem iFX x.plane 32 with
    | (.error .ecc, s) => (.error (0, 3, 0), s)
    | (.error _, s) => (.error (0, 2, 0), s)
    | (.ok h, s) =>
      let cols := sliceLE h 7 1
      let rows := sliceLE h 8 2
      if planeOk h (some st) (s.sheetIdOf x.sheet) && s.inDram x.plane (32 + 8 * cols * rows) &&
         x.row0 + x.nrows ≤ rows then (.ok cols, s)
      else (.error (eHEADER, 0, 0x01), s)

/-- The waiting head of a station becomes active (R183, R184, R189), or its plane fails and it ends (R188). -/
def State.activate (s : State) (st : Nat) : State :=
  match s.waitingHead st with
  | none => s
  | some x =>
    match s.checkPlane st x with
    | (.ok cols, s) =>
      (s.setStreams st ((s.fxStreams st).map fun y =>
        if y.ln0 = x.ln0 then { y with active := true, cols := cols } else y)).updateCredit st
    | (.error (err, fail, detail), s) => (s.endStream st x).streamFail st x.sheet err fail detail x.row0

/-- Every station's oldest stream becomes active, in station order; a failure may end others. -/
def State.settle (s : State) : Nat → State
  | 0 => s
  | n + 1 => match (List.range 6).find? fun st => (s.waitingHead st).isSome with
    | some st => (s.activate st).settle n
    | none => s

/-- More stations × streams than can wait. -/
def settleFuel : Nat := 25

/-- A cause for sheet k, and what it starts among the streams. -/
def State.cause (s : State) (k reason detail : Nat) : State := (s.causeOnce k reason detail).settle settleFuel

/-- A cause for the sheet with a handle, while the handle is its. -/
def State.causeH (s : State) (h reason detail : Nat) : State :=
  if s.handle (h % 128) = h then s.cause (h % 128) reason detail else s

/-- A cause for every sheet in use that `p` selects, with the DETAIL it gives. -/
def State.causeWhere (s : State) (reason : Nat) (p : Nat → Sheet → Option Nat) : State :=
  s.openSheets.foldl (fun s q => match p q.1 q.2 with | some d => s.cause q.1 reason d | none => s) s

/-- The index of the first claim of a sheet on a unit whose window covers a time. -/
def Sheet.claimAt (sh : Sheet) (kind unit : Nat) (t : Tick) : Option Nat :=
  sh.claims.findIdx? fun c => c.kind == kind && c.unit == unit && sh.origin + c.winStart ≤ t && t < sh.origin + c.winEnd

/-- The EXIT action has not yet executed. -/
def Sheet.exitToCome (sh : Sheet) : Bool := sh.armed.any fun a => a.act.exit && !a.executed

/-- A cause at a unit (R76): for each sheet that holds a claim on it whose window covers now. -/
def State.causeAtUnit (s : State) (reason kind unit : Nat) : State :=
  s.causeWhere reason fun _ sh => sh.claimAt kind unit s.clk.tb

/-- R80: another sheet's spoil action has changed the commanded speed of an axis. -/
def State.sharedResource (s : State) (k axis : Nat) : State :=
  s.causeWhere cSHARED fun j sh =>
    if j ≠ k && (s.sheetState j == stCOMMITTED || s.sheetState j == stRUNNING) &&
       (sh.claims.any fun c => c.kind == kMOTION && c.unit == axis && s.clk.tb < sh.origin + c.winStart)
    then some axis else none

/-! ### Carrying out and reporting an armed action (R73, R74) -/

/-- What a target finds when it takes an armed action. -/
inductive Take
  | notDue
  | skipped (s : State)
  | run (a : Armed) (s : State)
deriving DecidableEq, Repr

/-- Armed action i of entry k: one that its last sheet left armed, or the sheet's own. -/
def State.armedAt (s : State) (k i : Nat) : Option Armed :=
  match s.orphanAt k i, s.sheet k with
  | some a, _ => some a
  | none, some sh => sh.armed.find? fun a => a.idx == i
  | none, none => none

/-- Remove an armed entry (R71). -/
def State.dropArmed (s : State) (k i : Nat) : State :=
  if (s.orphanAt k i).isSome then
    { s with tt := { s.tt with orphans := s.tt.orphans.filter fun p => p.1 ≠ k || p.2.idx ≠ i } }
  else s.modSheet k fun sh => { sh with armed := sh.armed.filter fun a => a.idx ≠ i }

/-- An armed entry's target has taken it. -/
def State.markExecuted (s : State) (k i : Nat) : State :=
  if (s.orphanAt k i).isSome then
    { s with tt := { s.tt with orphans := s.tt.orphans.map fun p =>
        if p.1 = k && p.2.idx = i then (p.1, { p.2 with executed := true }) else p } }
  else s.modSheet k fun sh =>
    { sh with armed := sh.armed.map fun b => if b.idx = i then { b with executed := true } else b }

/-- A withdrawal or spoil action executes only inside a window of this sheet's claim on its unit (R73); an action that
names no claimable unit has none to lie in. -/
def Sheet.inWindow (sh : Sheet) (a : Armed) : Bool :=
  if !a.act.blockCmd then true
  else match claimUnit a.act.block a.act.unit with
    | none => true
    | some (kd, u) => (sh.claimAt kd u a.time).isSome

/-- A window ends early or late (R354): the interrupt bit, the event, LAST, and the cause for its sheet. -/
def State.windowMissed (s : State) (w : SnsWin) (late : Bool) : State :=
  let s := { s with sns := { s.sns with win := s.sns.win.erase w } }
  let s := (s.setB Reg.SNS_IRQ_STATUS (if late then 1 else 0) true).raise srcSNS (if late then 1 else 0)
  let s := s.setF (Reg.SNS_IN_STATE w.input) 5 4 (if late then 3 else 2)
  s.cause w.sheet (if late then cMEDIA_LATE else cMEDIA_EARLY) w.claim

/-- Windows still unmet when their sheet's EXIT action executes end late (R354). -/
def State.lateAtExit (s : State) (k : Nat) : State :=
  (s.sns.win.filter fun w => w.sheet == k).foldl (fun s w => if s.sns.win.contains w then s.windowMissed w true else s) s

/-- A list action lies outside its window (R73). -/
def State.outsideWindow (s : State) (k : Nat) (a : Armed) : Bool :=
  match s.sheet k with
  | some sh => a.list ≠ .main && !sh.inWindow a
  | none => false

/-- Take armed action i of sheet k: its time has come, and `ok` holds of it. A list action outside its window is
skipped and counted (R73). -/
def State.take (s : State) (k i : Nat) (ok : Action → Bool) : Take :=
  match s.armedAt k i with
  | some a =>
    if a.executed || s.clk.tb < a.time || !ok a.act then .notDue
    else if s.outsideWindow k a then .skipped (((s.dropArmed k i).incSat Reg.TT_CNT_SKIP 31 0).tryFree k)
    else .run a (s.markExecuted k i)
  | none => .notDue

/-- The EXIT action of sheet k has been carried out: a run-out under SAFE ends (R45, R82). -/
def State.exited (s : State) (k : Nat) : State :=
  s.modSheet k fun sh => { sh with runOut := false }

/-- An action has been carried out by its target: a FUSER action marks the sheet, and an EXIT action closes the windows
that are still unmet (R71, R354). -/
def State.carriedOut (s : State) (k : Nat) (a : Armed) : State :=
  let s := if a.act.fuser && (s.orphanAt k a.idx).isNone then s.setB (Reg.TT_SHEET k) 24 true else s
  if a.act.exit && (s.orphanAt k a.idx).isNone then s.lateAtExit k else s

/-- The target reports that it has carried out action i of sheet k at time `t`: met when that lies within the class
tolerance (R74); an EXIT action met on a RUNNING sheet delivers it (R49). -/
def State.report (s : State) (k i : Nat) (t : Tick) : State :=
  match s.armedAt k i with
  | none => s
  | some a =>
    let own := (s.orphanAt k i).isNone
    let s := s.carriedOut k a
    if a.time ≤ t + classTol a.act.cls && t ≤ a.time + classTol a.act.cls then
      let s := s.dropArmed k i
      let s := if a.act.exit && own then (s.exited k).modSheet k fun sh => { sh with exitAt := some s.clk.tb } else s
      if a.act.exit && own && s.sheetState k == stRUNNING then
        (s.outcome k stDELIVERED cNONE noDetail (fun _ => true) none).settle settleFuel
      else s.tryFree k
    else s

/-- A BLOCK_CMD to a block and command code. -/
def isCmd (block cmd : Nat) (a : Action) : Bool := a.blockCmd && a.block == block && a.cmd == cmd

/-- The command codes that the blocks define. -/
def definedCmd (block cmd : Nat) : Bool :=
  match block with
  | 0x0A => true
  | 0x0B => true
  | 0x0C => cmd == 1
  | 0x0D => cmd == 1
  | 0x0E => 1 ≤ cmd && cmd ≤ 5
  | 0x0F => 1 ≤ cmd && cmd ≤ 7
  | 0x10 => cmd == 1
  | 0x11 => 1 ≤ cmd && cmd ≤ 3
  | 0x12 => 1 ≤ cmd && cmd ≤ 3
  | _ => false

/-! ### SAFE, DRAIN and resets -/

/-- A refusal record for an image at an address (R88, R90), with the identifiers as read; `ready` is DRAM_READY as the
check sees it. -/
def State.refuseImage (s : State) (ready : Bool) (addr reason detail cand : Nat) : State :=
  let ok := s.imagePlace ready addr 64 && !s.poisoned addr 64
  let r : ResRecord := { sheetId := if ok then s.memLE (addr + 8) 4 else 0
                         jobId := if ok then s.memLE (addr + 0xC) 4 else 0
                         time := s.clk.tb, origin := 0, handle := 0xFFFF, kind := 2, reason := reason
                         detail := detail, candidate := cand }
  (s.incSat Reg.TT_CNT_REFUSE 31 0).resRecord r |>.2

/-- End the check in progress with a refusal (R62). The record names no candidate, since how far the evaluation had come
is not given, and the check leaves no mark in TT_CHECK_MAX (log entry 87). -/
def State.abortCheck (s : State) (reason : Nat) : State :=
  match s.tt.check with
  | none => s
  | some c => ({ s with tt := { s.tt with check := none } }).refuseImage c.dramReady c.addr reason noDetail 0xFF

/-- A DRAIN request closes admission: the check in progress and every queued submission end CLOSED (R62). -/
def State.closeAdmission (s : State) : State :=
  let s := s.abortCheck rCLOSED
  let q := s.tt.queue
  q.foldl (fun s a => s.refuseImage s.dramReady a rCLOSED noDetail 0xFF) { s with tt := { s.tt with queue := [] } }

/-- The T0 main actions of a sheet that are still armed. -/
def Sheet.t0Left (sh : Sheet) : Bool := sh.armed.any fun a => a.list == .main && a.act.cls == 0

/-- The least reason of SAFE entry and the outcome declared at this same edge (R75, R82). -/
def State.safeReason (s : State) (k : Nat) (sh : Sheet) : Nat × Nat :=
  let r := s.f (Reg.TT_SHEET k) 23 16
  if r ≠ 0 && r < cSAFE_ENTRY then (r, sh.detail) else (cSAFE_ENTRY, noDetail)

/-- SAFE entry meets a sheet whose outcome was declared at this same edge (R49, R75, R82): it is SPOILED with the lower
reason where SAFE entry is a cause for it, which it is not for a sheet past fuser entry without T0 actions left. A sheet
that was delivered then has its spoil list armed as R79 has it. -/
def State.safeAmend (s : State) (k : Nat) (sh : Sheet) : State :=
  let past := s.fb (Reg.TT_SHEET k) 24
  if sh.outAt ≠ s.clk.tb || (past && !sh.hadT0) then s
  else
    let (r, d) := s.safeReason k sh
    let fromDelivered := s.sheetState k = stDELIVERED
    let s := s.amend k stSPOILED r d
    if fromDelivered && past then s.modSheet k fun sh =>
      { sh with armed := sh.armed.filter (fun a => a.act.cls ≠ 0) ++
                         armList .spoil s.clk.tb (sh.numMain + sh.numWithdraw) sh.spoil }
    else s

/-- SAFE entry's effect on one sheet (R82). -/
def State.safeSheet (s : State) (k : Nat) (sh : Sheet) : State :=
  let st := s.sheetState k
  let past := s.fb (Reg.TT_SHEET k) 24
  if st = stCOMMITTED || (st = stRUNNING && !past) then s.stopSheet k cSAFE_ENTRY noDetail
  else if st = stRUNNING then
    let s := s.modSheet k fun sh => { sh with runOut := true }
    if sh.t0Left then s.spoilSheet k cSAFE_ENTRY noDetail else s
  else if st = stFREE then s
  else
    let s := s.safeAmend k sh
    if past then (if sh.armed.any (·.act.exit) then s.modSheet k fun sh => { sh with runOut := true } else s)
    else if s.sheetState k = stDELIVERED then s
    else (s.modSheet k fun sh => { sh with armed := [] }).tryFree k

/-- SAFE entry's effect on the sheets (R82). -/
def State.safeSheets (s : State) : State :=
  (s.openSheets.foldl (fun s p => s.safeSheet p.1 p.2) s).settle settleFuel

/-- A sheet still runs out (R45). -/
def State.runningOut (s : State) : Bool := s.openSheets.any fun p => p.2.runOut

/-- Block reset of a block (R83, R76): `onClaim` and `onCmd` say which claims and which commands lie on it. -/
def State.resetCauses (s : State) (onClaim : Claim → Bool) (onCmd : Action → Bool) : State :=
  s.causeWhere cBLOCK_RESET fun k sh =>
    if s.sheetState k == stCOMMITTED || s.sheetState k == stRUNNING then
      match sh.claims.findIdx? (fun c => onClaim c && s.clk.tb < sh.origin + c.winEnd) with
      | some i => some i
      | none => (sh.armed.find? fun a => !a.executed && a.act.blockCmd && onCmd a.act).map (·.idx)
    else none

/-- The reset mark of R84, written to the sheet journal before a chip reset (0x0E) or a thermal shutdown (0x10). -/
def State.resetMark (s : State) (reason : Nat) : State := s.ldgRecord 1 0x03 1 (bytesLE 1 reason)

/-! ### The commands of the Timetable's rows -/

/-- A write to TT_SUBMIT (R58). -/
def State.submit (s : State) (w : Word) : State :=
  if s.tt.queue.length < 8 then { s with tt := { s.tt with queue := s.tt.queue ++ [w.toNat * 64] } }
  else s.setB Reg.TT_STATUS 14 true

/-- The standing slots in use, as TASK units (R134). -/
def State.standingUnits (s : State) : List Nat :=
  s.sq.slots.filterMap fun p => if p.2.use == .standing then some (16 * (p.1 / 8) + p.1 % 8) else none

/-- The snapshot of R59. -/
def State.snapshot (s : State) (addr : Nat) : Check :=
  { addr := addr, start := s.clk.tb, sheets := s.openSheets, committed := s.sheetsInUse, armed := s.armedInUse
    horizon := s.f Reg.TT_THROTTLE 7 0, enforced := s.fb Reg.TT_THROTTLE 9, pitchMin := s.f Reg.TT_PITCH_MIN 31 0
    utilMax := s.f Reg.TT_UTIL_MAX 12 0, decCap := s.f Reg.TT_DEC_CAP 11 0, pwrBudget := s.f Reg.TT_PWR_BUDGET 15 0
    pwrBase := s.f Reg.TT_PWR_BASE 15 0, modeOk := s.admits
    vmax := (List.range 48).map fun a => s.f (Reg.TT_AXIS_VMAX a) 23 0
    amax := (List.range 48).map fun a => s.f (Reg.TT_AXIS_AMAX a) 23 0
    speeds := (List.range 48).map s.axisSpeed
    readyAt := (List.range 8).map fun z => s.pair (Reg.FUS_READY_LO z) (Reg.FUS_READY_HI z)
    setpoints := (List.range 8).map fun z => toSigned 16 (s.af (Reg.FUS_SP z) 15 0)
    standing := s.standingUnits
    assigned := (List.range 20).filter fun l => s.fb (Reg.SQ_CORE_MAP l) 7, dramReady := s.dramReady }

/-- The FREE sheet entry that a commit takes (R70; log entry 12). -/
def State.freeEntry (s : State) : Nat :=
  (pickFree ((List.range 128).filter fun k => (s.sheet k).isNone) s.fresh).getD 127

/-- Commit an image at an origin (R70): the entry and handle, the armed main actions, the slot tables, the TASK claims,
the journal entry, the ADMITTED record, whose REASON is 0 (log entry 87), and READY to PRINT (R42). -/
def State.commit (s : State) (img : Image) (cand : Nat) : State :=
  let origin := img.earliest + cand * img.step
  let k := s.freeEntry
  let gen := (s.f (Reg.TT_SHEET k) 12 4 + 1) % 511
  let pnr := origin + ((img.main.find? (·.pnr)).map (·.offset)).getD 0
  let sh : Sheet := { sheetId := img.sheetId, jobId := img.jobId, origin := origin, candidate := cand, pnr := pnr
                      claims := img.claims, armed := armList .main origin 0 img.main
                      withdraw := img.withdraw, spoil := img.spoil, numMain := img.main.length
                      numWithdraw := img.withdraw.length }
  let s := (s.takeFresh.2.setSheet k (some sh)).setReg (Reg.TT_SHEET k) (BitVec.ofNat 32 (stCOMMITTED + 16 * gen))
  let tasks := (absNew origin 0 img.claims).filterMap fun x =>
    if x.c.kind = kTASK then
      some ({ sheet := k, idx := x.idx.getD 0, start := x.start, stop := x.stop, c := x.c } : SqClaim) else none
  let s := { s with sq := { s.sq with claims := s.sq.claims ++ tasks } }
  let s := if img.claims.any (fun c => c.kind == kRTPORT) then s.requestSwap else s
  let s := s.ldgRecord 3 0x01 1
    (bytesLE 4 img.sheetId ++ bytesLE 4 img.jobId ++ bytesLE 2 (s.handle k) ++ bytesLE 1 cand)
  let r : ResRecord := { sheetId := img.sheetId, jobId := img.jobId, time := s.clk.tb, origin := origin
                         handle := s.handle k, kind := 1, reason := 0, detail := noDetail, candidate := cand }
  let s := (s.incSat Reg.TT_CNT_ADMIT 31 0).resRecord r |>.2
  if s.mode == .ready then
    (s.setF Reg.SYS_MODE 2 0 Mode.print.code).setF Reg.SYS_MODE 6 4 Mode.print.code
  else s

/-- The check that began at `start` ends (R60): a commit of the first candidate that passes, or a refusal record. The
bytes of the image are read here, inside the check (log entry 13). A mode that has ceased to admit by then, through a
SERVICE or STANDBY request accepted during the check, refuses it with MODE (log entry 89). -/
def State.endCheck (s : State) (start : Tick) : State :=
  match s.tt.check with
  | none => s
  | some c =>
    if c.start ≠ start then s
    else
      let d := s.clk.tb - c.start
      let s := { s with tt := { s.tt with check := none } }
      let s := if s.f Reg.TT_CHECK_MAX 31 0 < d then s.setF Reg.TT_CHECK_MAX 31 0 (min d 0xFFFFFFFF) else s
      if !c.modeOk || !s.admits then s.refuseImage c.dramReady c.addr rMODE noDetail 0xFF
      else
        let s := s.imageUncor c.dramReady c.addr
        match s.readImage c.dramReady c.assigned c.addr with
        | .refused r _ _ => s.refuseImage c.dramReady c.addr r noDetail 0xFF
        | .image img =>
          match evaluate c c.standing img with
          | .inl (r, dt, cand) => s.refuseImage c.dramReady c.addr r dt cand
          | .inr cand => s.commit img cand

/-- The longest a check takes (R61). -/
def checkMax : Tick := 12700000

/-- Result codes of TT_REQ_STATUS (R91). -/
def reqDONE : Nat := 2
def reqTOO_LATE : Nat := 3
def reqSTALE : Nat := 4
def reqNOT_STARTED : Nat := 5
def reqBUSY : Nat := 6
def reqTERMINAL : Nat := 7

/-- The result of a request on a handle (R72, R87), `spoil` choosing the operation. An entry that is FREE and whose
generation still matches had its outcome (log entry 88). -/
def State.requestResult (s : State) (handle : Nat) (spoil : Bool) : Nat :=
  let k := handle % 128
  if s.handle k ≠ handle then reqSTALE
  else match s.sheet k with
  | none => reqTERMINAL
  | some sh =>
    if s.sheetState k = stCOMMITTED then
      if spoil then reqNOT_STARTED
      else if s.clk.tb + s.f Reg.TT_WD_GUARD 31 0 < sh.pnr then reqDONE else reqTOO_LATE
    else if s.sheetState k = stRUNNING then (if spoil then reqDONE else reqTOO_LATE)
    else reqTERMINAL

/-- A write of a request to TT_REQ (R87): a request of the same CORE cycle is still pending and makes this one BUSY. -/
def State.ttRequest (s : State) (handle causeByte : Nat) (spoil : Bool) : State :=
  if s.tt.reqAt = some s.clk.tb then s.setF Reg.TT_REQ_STATUS 2 0 reqBUSY
  else
    let r := s.requestResult handle spoil
    let s := { s with tt := { s.tt with reqAt := some s.clk.tb } }.setF Reg.TT_REQ_STATUS 2 0 r
    if r = reqDONE then
      (if spoil then s.spoilSheet (handle % 128) cREQUESTED causeByte
       else s.withdrawSheet (handle % 128) cREQUESTED causeByte).settle settleFuel
    else s

/-- A write to TT_RESQ_TAIL: held records reach the ring (R88). -/
def State.resqTailWrite (s : State) (w : Word) : State :=
  (s.setF Reg.TT_RESQ_TAIL 11 0 w.toNat).flushHeld s.tt.held.length

end Sys2Proof.Machine
end

