-- ==== Sys2Proof/Machine/Binding.lean ====
section
/-!
DEFINITION. Binding scans to sheets (R230–R232) and the low-water lines (R235): what EXP does with a set that SCN hands
over, and with one that it does not.
-/

namespace Sys2Proof.Machine

/-- The video domain of a station (R34). -/
def State.vidOn (s : State) (st : Nat) : Bool := s.domOn (7 + st / 2)

/-- The index of a sheet's EXPOSE claim on a station (R76). -/
def State.exposeClaim (s : State) (h st : Nat) : Nat :=
  match s.sheet (h % 128) with
  | some sh => (sh.claims.findIdx? fun c => c.kind == kEXPOSE && c.unit == st).getD noDetail
  | none => noDetail

/-- Y_k of R231 for a binding: sixteenths of a line, from S_k in sixteenths of a tick. -/
def Binding.lineAt (b : Binding) (s16 : Int) : Int :=
  floorDiv (2 * (s16 - 16 * (b.t0 : Int)) * 256 + b.line) (2 * b.line)

/-- B_k of R231. -/
def Binding.baseAt (b : Binding) (s16 : Int) : Int := b.ln0 + floorDiv (b.lineAt s16) 16

/-- The read range of a scan meets the binding's lines (R231). -/
def Binding.meets (b : Binding) (s16 : Int) : Bool :=
  b.baseAt s16 - 128 < b.stop && (b.ln0 : Int) ≤ b.baseAt s16 + 129

/-- LW of a binding's stream moves to min(b, B − 128), where B is that of the scan after the one whose reads are
finished; a stream whose last reads are finished stops counting (R235). -/
def State.moveLw (s : State) (st : Nat) (b : Binding) (next : Int) : State :=
  let s := s.modExp st fun e =>
    { e with uses := (e.uses.map fun u =>
        if u.ln0 = b.ln0 then { u with lw := max u.lw (min b.stop (next - 128).toNat) } else u).filter fun u =>
          !(u.ln0 == b.ln0 && u.lw == b.stop) }
  (s.advanceReleased st).updateCredit st

/-- Low-water lines that waited for the set of scan k (R235). -/
def State.settleLw (s : State) (st k : Nat) (s16 : Int) : State :=
  let due := (s.exps st).lwDue
  let s := s.modExp st fun e => { e with lwDue := e.lwDue.filter fun d => d.1 + 1 ≠ k }
  (due.filter fun d => d.1 + 1 == k).foldl (fun s d => s.moveLw st d.2 (d.2.baseAt s16)) s

/-- The bar of an emitter (R242). -/
def State.barOf (s : State) (st e : Nat) : Nat := s.af (Reg.EXP_ESTATE st e) 4 3

/-- A set is handed over (R231, R241): its scan is bound to the oldest live binding it meets whose EXPOSE came before,
the other bindings it meets form ACTION_LATE, and bindings it lies past end. -/
def State.handOver (s : State) (st : Nat) (x : ScanSet) : State :=
  let s := s.applyS (Reg.EXP_REG st)
  let x := { x with reg := s.applied (Reg.EXP_REG st), dead := (List.range 48).filter fun e => s.barOf st e ≠ 0 }
  let s := s.settleLw st x.k x.s16
  let hits := (s.exps st).bindings.filter fun b => b.meets x.s16
  let own := hits.find? fun b => b.tA < x.at'
  let x := match own with
    | some b => { x with binding := some b, y := b.lineAt x.s16, b := b.baseAt x.s16 }
    | none => x
  let s := s.modExp st fun e =>
    { e with sets := (e.sets.filter fun y => y.binding.isSome || x.k < y.k + 3) ++ [x]
             handed := (x :: e.handed).take 16
             bindings := e.bindings.filter fun b => b.baseAt x.s16 - 128 < b.stop
             inc1 := some x.inc1 }
  (hits.filter fun b => some b ≠ own).foldl (fun s b => s.causeH b.sheet cACTION_LATE b.action) s

/-- The sheet to which scan k of a station is bound (R231), or counts as bound (R232). -/
def State.scanSheet (s : State) (st k : Nat) : Option Nat :=
  let e := s.exps st
  match e.unsent.find? fun p => p.1 == k with
  | some p => some p.2
  | none => (e.handed.find? fun x => x.k == k).bind ScanSet.sheet

/-- The scans that a station has bound so far no longer count as bound: the loss that ends them has made its causes. -/
def State.unbindScans (s : State) (st : Nat) : State :=
  s.modExp st fun e => { e with unsent := [], handed := e.handed.map fun x => { x with binding := none } }

/-- A SCAN_SYNC cause of a kind for the sheet that scan k is bound to (R218). -/
def State.scanCause (s : State) (st h kind k : Nat) : State :=
  let s := s.setReg (Reg.SCN_SYNC_ERR st) (BitVec.ofNat 32 (kind + 2 ^ 16 * (k % 2 ^ 16)))
  s.causeH h cSCAN_SYNC (s.exposeClaim h st)

/-- A scan fails a check of R218; one bound to no sheet forms no cause. -/
def State.scanFails (s : State) (st kind k : Nat) : State :=
  match s.scanSheet st k with
  | some h => s.scanCause st h kind k
  | none => s

/-- A set that is not handed over because the station is not LOCKED (R232). -/
def State.notHanded (s : State) (st k : Nat) : State :=
  match (s.exps st).bindings with
  | b :: _ => (s.modExp st fun e => { e with unsent := ((k, b.sheet) :: e.unsent).take 16 }).scanCause st b.sheet 1 k
  | [] => s

end Sys2Proof.Machine
end

