-- ==== Sys2Proof/Machine/Scan.lean ====
section
/-!
DEFINITION. Scan synchronisation (R200–R229): sensors, states, prediction, learning, statistics, and the commands of
their rows. Times are integers in units of 2^−24 tick; an edge is commanded with its raw time in sixteenths of a tick.
-/

namespace Sys2Proof.Machine

def State.scns (s : State) (st : Nat) : Scn := Tab.get {} s.scn st

def State.modScn (s : State) (st : Nat) (g : Scn → Scn) : State :=
  { s with scn := Tab.put {} s.scn st (g (s.scns st)) }

/-- SCN_STATUS.STATE: 0 OFF, 1 SPINUP, 2 ACQUIRE, 3 LOCKED. -/
def State.scnState (s : State) (st : Nat) : Nat := s.f (Reg.SCN_STATUS st) 1 0

/-- One tick in the units of this file. -/
def tk : Int := 2 ^ 24

/-- The LIMIT profile is in force (R220). -/
def State.limit (s : State) : Bool := !s.fb Reg.SYS_PROFILE 0

/-- D, NREV and N (R200, R220). -/
def State.scnD (s : State) : Nat := if s.limit then 1 else 2
def State.scnRev (s : State) : Nat := if s.limit then 4 else 1
def State.facets (s : State) (st : Nat) : Nat := s.f (Reg.SCN_CFG st) 3 0

/-- W (R211, R221). -/
def State.scnW (s : State) (st : Nat) : Nat := if s.limit then 2 ^ (s.scns st).wLog else 1

/-- The learned offset A_f, in units of 2^−24 tick. -/
def State.offsetA (s : State) (st f : Nat) : Int := toSigned 24 (s.f (Reg.SCN_FTAB_A st f) 23 0) * 2 ^ 12

/-- S1_f and S2_f. -/
def State.seg (s : State) (st f : Nat) (second : Bool) : Nat :=
  (s.reg (if second then Reg.SCN_FTAB_S2 st f else Reg.SCN_FTAB_S1 st f)).toNat

/-- f(k) (R200). -/
def Scn.facetOf (x : Scn) (n k : Nat) : Nat := (((k : Int) - x.k0.getD 0) % (n : Int)).toNat

/-- The scan count k (R200). -/
def State.scanK (s : State) (st : Nat) : Nat := s.pair (Reg.SCN_SCAN_LO st) (Reg.SCN_SCAN_HI st)

/-- The facet period estimate from the arrivals up to the newest given (R212): over NREV revolutions, or as many as are
held. -/
def tfFrom (n : Nat) (h : List Arrival) (old : Int) : Nat → Int
  | 0 => old
  | r + 1 => match h with
    | [] => old
    | a :: _ => match h.find? fun b => b.k + (r + 1) * n == a.k with
      | some b => roundUpDiv (a.u - b.u) ((r + 1) * n : Nat)
      | none => tfFrom n h old r

/-- The mean of W corrected arrivals carried to scan k (R211); of those held while fewer are. -/
def meanAt (h : List Arrival) (w k : Nat) (tf : Int) : Int :=
  let xs := h.take w
  roundUpDiv ((xs.map fun a => a.u + ((k : Int) - a.k) * tf).sum) (max 1 xs.length : Nat)

/-- Form the prediction of scan k from the arrivals up to scan k − D (R211, R212, R221). -/
def State.formPred (s : State) (st k : Nat) : Pred :=
  let x := s.scns st
  let n := s.facets st
  let upTo := x.hist.filter fun a => a.k + s.scnD ≤ k
  let h := if upTo.isEmpty then x.hist else upTo
  let tf := tfFrom n h x.tf s.scnRev
  let a := s.offsetA st (x.facetOf n k)
  { k := k, p := a + meanAt h (s.scnW st) k tf, tf := tf, shadows := [4, 8, 16, 32].map fun w => a + meanAt h w k tf }

/-- Tf_est, and SCN_TF_EST in sixteenths of a tick (R212). -/
def State.setTf (s : State) (st : Nat) (tf : Int) : State :=
  (s.modScn st fun x => { x with tf := tf }).setReg (Reg.SCN_TF_EST st) (wordOfInt (floorDiv tf (2 ^ 20)))

/-- Form the prediction of scan k and note its set as due after `ref` (R215). -/
def State.addPred (s : State) (st k : Nat) (ref : Tick) : State :=
  let p := s.formPred st k
  (s.modScn st fun x => { x with preds := (x.preds.filter fun q => k ≤ q.k + 3) ++ [p], due := x.due ++ [(k, ref)] }).setTf
    st p.tf

/-- The prediction of scan k. -/
def State.predOf (s : State) (st k : Nat) : Pred := ((s.scns st).preds.find? fun p => p.k == k).getD (s.formPred st k)

/-- A pending Δ is added to every corrected arrival of the history (R219; log entry 48). -/
def State.addDelta (s : State) (st : Nat) : State :=
  s.modScn st fun y => { y with hist := y.hist.map fun a => { a with u := a.u + y.delta }, delta := 0 }

/-- Predicted MOS and EOS of a scan (R217). -/
def State.predMos (s : State) (st : Nat) (c : CurScan) : Int := c.p + floorDiv (s.seg st c.f false * c.tf) (2 ^ 32)
def State.predEos (s : State) (st : Nat) (c : CurScan) : Int :=
  c.p + floorDiv ((s.seg st c.f false + s.seg st c.f true) * c.tf) (2 ^ 32)

/-- The first revolution after an entry to ACQUIRE with VALID 0 (R216): its scans have no learned table to be checked
against, and the bounds of R217 are not applied to them (log entry 99). -/
def State.learning (s : State) (st : Nat) : Bool :=
  s.scnState st == 2 && !(s.scns st).warm && (s.scns st).revs == 0

/-- The half-width of a window (R207). -/
def State.gateHalf (s : State) (st : Nat) (tf : Int) : Int :=
  if s.scnState st = 3 then s.af (Reg.SCN_BOUND st) 25 16 * tk else floorDiv tf 4

/-- A MOS or EOS edge lies in its window; before anything is learned the window reaches from the SOS prediction to three
quarters of the period (log entry 25). -/
def State.inGate (s : State) (st : Nat) (c : CurScan) (pred t : Int) : Bool :=
  if s.learning st then c.p ≤ t && t ≤ c.p + floorDiv (3 * c.tf) 4
  else pred - s.gateHalf st c.tf ≤ t && t ≤ pred + s.gateHalf st c.tf

/-- A window's end. -/
def State.gateEnd (s : State) (st : Nat) (c : CurScan) (pred : Int) : Int :=
  if s.learning st then c.p + floorDiv (3 * c.tf) 4 else pred + s.gateHalf st c.tf

/-! ### Lock, loss and states (R209, R210) -/

def State.setScnState (s : State) (st n : Nat) : State :=
  s.setF (Reg.SCN_STATUS st) 1 0 n

/-- Enter SPINUP: raw intervals are gathered anew. -/
def State.enterSpinup (s : State) (st : Nat) : State :=
  let s := (s.setScnState st 1).modScn st fun x =>
    { x with lastRaw := none, intervals := [], sinceCheck := 0, checkOk := false, indexSeen := false, indexDue := false
             scansNoIndex := 0, cur := none, hist := [], preds := [] }
  (s.setF (Reg.SCN_STATUS st) 17 16 s.scnD).setF (Reg.SCN_STATUS st) 14 12 (if s.limit then (s.scns st).wLog else 0)

/-- The scans whose EOS window has not closed, of those whose sets have been handed over or were due to be (R218). -/
def State.openScans (s : State) (st : Nat) : List Nat :=
  let e := s.exps st
  let first := match (s.scns st).cur with
    | some c => if c.eos.isSome then c.k + 1 else c.k
    | none => 0
  ((e.handed.map (·.k)).reverse ++ ((e.unsent.map (·.1)).reverse.filter fun k => e.handed.all fun x => x.k ≠ k)).filter
    fun k => first ≤ k

/-- Loss reasons (R210). -/
def lMISS : Nat := 1
def lSPEED : Nat := 2
def lSLIP : Nat := 3
def lINDEX : Nat := 4
def lSAFE : Nat := 5

/-- The sheets, each with its scan, that a loss now makes SCAN_SYNC causes for (R218). -/
def State.lossSheets (s : State) (st : Nat) : List (Nat × Nat) :=
  (s.openScans st).filterMap fun k => (s.scanSheet st k).map fun h => (h, k)

/-- A loss condition in ACQUIRE or LOCKED (R210, R218), with the sheets it makes causes for. -/
def State.scnLossFor (s : State) (st reason : Nat) (hs : List (Nat × Nat)) : State :=
  if s.scnState st < 2 then s
  else
    let s := (s.setF (Reg.SCN_STATUS st) 10 8 reason).incSat (Reg.SCN_CNT_B st) 31 16
    let s := if reason = lSAFE then s else (s.setB (Reg.SCN_IRQ_STATUS st) 1 true).raise (srcSCN st) 0
    (hs.foldl (fun s p => s.scanCause st p.1 5 p.2) (s.enterSpinup st)).unbindScans st

/-- A station loses its lock for a reason (R210, R218). -/
def State.scnLoss (s : State) (st reason : Nat) : State := s.scnLossFor st reason (s.lossSheets st)

/-- The speed band (R210): |Tf − NOM| × 10^6 ≤ PPM × NOM. -/
def State.inBand (s : State) (st : Nat) (tf : Int) : Bool :=
  let nom : Int := (s.reg (Reg.SCN_TF_NOM st)).toNat
  (tf - nom * tk).natAbs * 1000000 ≤ (s.f (Reg.SCN_BAND st) 15 0 * nom * tk).toNat

/-- A learned table that is not kept across an entry to ACQUIRE starts anew (R228). -/
def State.clearTable (s : State) (st : Nat) : State :=
  (List.range 12).foldl (fun s f =>
    ((s.setReg (Reg.SCN_FTAB_A st f) 0).setReg (Reg.SCN_FTAB_S1 st f) 0).setReg (Reg.SCN_FTAB_S2 st f) 0) s

/-- Enter ACQUIRE at the SOS that ends SPINUP (R209, R210): the facets are numbered, the history starts from this SOS. -/
def State.enterAcquire (s : State) (st : Nat) (t : Int) : State :=
  let idx := s.fb (Reg.SCN_CTRL st) 1
  let k := s.scanK st
  let s := if idx then s else s.setB (Reg.SCN_FTAB_CTRL st) 0 false
  let warm := s.fb (Reg.SCN_FTAB_CTRL st) 0
  let s := if warm then s else s.clearTable st
  let x := s.scns st
  -- with `scansNoIndex` SOS edges since the index edge, the next one has that number as its facet
  let k0 : Int := if idx then (k : Int) + 1 - x.scansNoIndex else (k : Int) + 1
  let s := (s.setScnState st 2).modScn st fun x =>
    { x with hist := [{ k := k, u := t, coasted := false }], preds := [], cur := none, k0 := some k0, revs := 0
             begun := false, warm := warm, outNow := false, outLast := false, missSos := 0, missMos := 0, missEos := 0
             wLog := 3, second := [], errs := [], lockedScans := 0, sinceRatio := 0 }
  let s := if s.limit then s.setF (Reg.SCN_STATUS st) 14 12 3 else s
  let s := [0, 1, 2].foldl (fun s i => s.setB (Reg.SCN_TS_FINE st i) 8 false) s
  (List.range s.scnD).foldl (fun s i => s.addPred st (k + 1 + i) s.clk.tb) s

/-- The class S fields of a station (R225). -/
def scnClassS (st : Nat) : List Nat := [Reg.SCN_BOUND st, Reg.SCN_LEARN st]

/-- An SOS edge in SPINUP (R207, R210, R212): no gating; every N edges the mean of the last N intervals is checked. -/
def State.spinupSos (s : State) (st : Nat) (t : Int) : State :=
  let s := s.applyAll (scnClassS st)
  let n := s.facets st
  let x := s.scns st
  let iv := match x.lastRaw with
    | some t0 => ((t - t0) :: x.intervals).take n
    | none => x.intervals
  let s := s.modScn st fun x => { x with lastRaw := some t, intervals := iv, sinceCheck := x.sinceCheck + 1
                                         scansNoIndex := x.scansNoIndex + 1, indexDue := false }
  if iv.length < n then
    if x.sinceCheck + 1 < n then s else s.modScn st fun x => { x with sinceCheck := 0 }
  else
    let mean := roundUpDiv iv.sum (n : Nat)
    let s := s.setTf st mean
    if x.sinceCheck + 1 < n then s
    else
      let ok := s.inBand st mean && (s.reg (Reg.SCN_TF_NOM st)).toNat != 0
      let s := s.modScn st fun x => { x with sinceCheck := 0, checkOk := ok }
      if ok && x.checkOk && (!s.fb (Reg.SCN_CTRL st) 1 || x.indexSeen) then s.enterAcquire st t else s

/-! ### Bounds, learning and statistics -/

def State.countOut (s : State) (st : Nat) : State := s.incSat (Reg.SCN_CNT_B st) 15 0

/-- An out-of-bound check fails for scan k (R217, R218). -/
def State.outOfBound (s : State) (st kind k : Nat) : State :=
  let s := (s.countOut st).setB (Reg.SCN_IRQ_STATUS st) 2 true
  let s := s.raise (srcSCN st) 1
  let s := s.modScn st fun x => { x with outNow := true, cur := x.cur.map fun c => { c with failed := true } }
  s.scanFails st kind k

/-- The SCN_TS registers of an accepted edge (R203). -/
def State.stampEdge (s : State) (st i f : Nat) (t : Int) (out : Bool) : State :=
  let n := (floorDiv t (2 ^ 20)).toNat
  let s := (s.setReg (Reg.SCN_TS_LO st i) (BitVec.ofNat 32 (n / 16))).setReg (Reg.SCN_TS_HI st i)
    (BitVec.ofNat 32 (n / 16 / 2 ^ 32))
  s.setReg (Reg.SCN_TS_FINE st i) (BitVec.ofNat 32 (n % 16 + 16 * f + 256 + (if out then 512 else 0)))

/-- A value that must fit a number format: itself, or an open value where it does not (log entry 3). -/
def State.fitVal (s : State) (bound n : Nat) : Nat :=
  if n < bound then n else Config.freeNat s.takeFresh.1 % bound

/-- The state once a value has been fitted: a free value has been taken when it does not fit. -/
def State.fitNext (s : State) (bound n : Nat) : State := if n < bound then s else s.takeFresh.2

def State.fit (s : State) (bound n : Nat) : Nat × State := (s.fitVal bound n, s.fitNext bound n)

/-- L_SM and L_ME (R202). -/
def State.posOf (s : State) (a : Nat) : Int := toSigned 20 (s.f a 19 0)
def State.lSM (s : State) (st : Nat) : Int := s.posOf (Reg.SCN_POS_M st) - s.posOf (Reg.SCN_POS_S st)
def State.lME (s : State) (st : Nat) : Int := s.posOf (Reg.SCN_POS_E st) - s.posOf (Reg.SCN_POS_M st)

/-- The duration, as a fraction of the facet period, and the distance in pixels that INC1 divides (R214). -/
def State.firstPitch (s : State) (st f : Nat) : Nat × Int :=
  if s.limit then (s.seg st f false, s.lSM st)
  else (s.seg st f false + s.seg st f true, s.lSM st + s.lME st)

/-- The gain shift of R216. -/
def State.gainShift (s : State) (st : Nat) : Nat :=
  if s.learning st then 0 else if s.scnState st = 2 then 3 else s.af (Reg.SCN_LEARN st) 3 0

/-- S ← S + g × (m × 2^32 ÷ Tf − S), to nearest with ties upward (R216). -/
def learnSeg (seg : Nat) (m tf : Int) (g : Nat) : Int :=
  roundUpDiv ((seg : Int) * 2 ^ g * tf + m * 2 ^ 32 - seg * tf) (2 ^ g * tf)

/-- Learn one segment from a measured duration. -/
def State.learnS (s : State) (st f : Nat) (second : Bool) (m tf : Int) (g : Nat) : State :=
  let v := learnSeg (s.seg st f second) m tf g
  let (n, s) := s.fit (2 ^ 32) (if v < 0 then 2 ^ 32 else v.toNat)
  s.setReg (if second then Reg.SCN_FTAB_S2 st f else Reg.SCN_FTAB_S1 st f) (BitVec.ofNat 32 n)

/-- A_f ← A_f + g × e_k, to the nearest 2^−12 tick with ties upward (R216). -/
def State.learnA (s : State) (st f : Nat) (e : Int) (g : Nat) : State :=
  let a := toSigned 24 (s.f (Reg.SCN_FTAB_A st f) 23 0) + roundUpDiv e (2 ^ (12 + g))
  if -(2 ^ 23) ≤ a ∧ a < 2 ^ 23 then s.setF (Reg.SCN_FTAB_A st f) 23 0 (fromSigned 24 a)
  else let (u, s) := s.takeFresh; s.setF (Reg.SCN_FTAB_A st f) 23 0 (Config.freeNat u)

/-- The scan is over: its facet's entry is learned (R216), except from coasted or missed edges and from a scan that
failed a check. -/
def State.learnScan (s : State) (st : Nat) (c : CurScan) : State :=
  if c.failed then s
  else
    let g := s.gainShift st
    let s := if c.coasted then s else s.learnA st c.f (c.sos - c.p) g
    match c.mos with
    | some (some m) =>
      let s := if c.coasted then s else s.learnS st c.f false (m - c.sos) c.tf g
      match c.eos with
      | some (some e) => s.learnS st c.f true (e - m) c.tf g
      | _ => s
    | _ => s

/-- The report of the companion is current for SCN (R263). -/
def State.reportCurrent (s : State) (st : Nat) : Bool :=
  match (s.exps st).lastRec with
  | some t => s.clk.tb ≤ t + 1280000
  | none => false

/-- RATIO_VALID (R223): 4,096 scans in LOCKED, and a report of the companion that is current. -/
def State.ratioValid (s : State) (st : Nat) : Bool :=
  s.scnState st == 3 && decide (4096 ≤ (s.scns st).lockedScans) && s.reportCurrent st

/-- SCN_STATUS as it reads. -/
def State.scnStatus (s : State) (st : Nat) : Word :=
  putBits (s.reg (Reg.SCN_STATUS st)) 3 3 (if s.ratioValid st then 1 else 0)

/-- Mean of a list of squares, rounded down. -/
def meanSq (xs : List Nat) : Nat := xs.sum / max 1 xs.length

/-- The placement registers (R222, R223): σ in 1/64 tick rounded down, the ratio in Q4.12 rounded down (log entry 26). -/
def State.updateRatio (s : State) (st : Nat) : State :=
  let x := s.scns st
  let jit := s.f (Reg.XLK_RC_JITTER st) 15 0
  let facet2 := meanSq x.second / 6
  let emit2 := (jit * 2 ^ 18) ^ 2
  let c := x.cur
  let f := match c with | some c => c.f | none => 0
  let tf := match c with | some c => c.tf | none => x.tf
  let p := s.firstPitch st f
  let inc1 := (roundUpDiv (p.1 * tf) (2 ^ 32 * max 1 p.2)).toNat
  let q2 := inc1 ^ 2 / (4096 * 12)
  let floor2 := facet2 + emit2
  let ach2 := meanSq x.errs + emit2 + 2 * q2
  let fl := isqrt floor2 / 2 ^ 18
  let fc := isqrt facet2 / 2 ^ 18
  let ac := isqrt ach2 / 2 ^ 18
  let s1 := s.fitNext 65536 fl
  let s2 := s1.fitNext 65536 fc
  let s := (s2.fitNext 65536 ac).setReg (Reg.SCN_FLOOR st) (BitVec.ofNat 32 (s.fitVal 65536 fl + 2 ^ 16 * jit))
  let s := s.setReg (Reg.SCN_ACHIEVED st) (BitVec.ofNat 32 (s2.fitVal 65536 ac + 2 ^ 16 * s1.fitVal 65536 fc))
  let ratio := if floor2 = 0 then 65536 else isqrt (ach2 * 2 ^ 24 / floor2)
  let r := s.fitVal 65536 ratio
  let s := (s.fitNext 65536 ratio).setF (Reg.SCN_RATIO st) 15 0 r
  if s.ratioValid st ∧ s.limit = true ∧ 5120 < r then (s.setB (Reg.SCN_IRQ_STATUS st) 3 true).raise (srcSCN st) 2 else s

/-- The second difference of the three newest arrivals, if they are consecutive and none was coasted (R222). -/
def secondDiff : List Arrival → Option Nat
  | a :: b :: c :: _ =>
    if !a.coasted && !b.coasted && !c.coasted && a.k == b.k + 1 && b.k == c.k + 1 then
      some ((a.u - 2 * b.u + c.u).natAbs ^ 2)
    else none
  | _ => none

/-- Add squares to four sums. -/
def addSquares : List Nat → List Int → List Nat
  | a :: as, e :: es => (a + e.natAbs ^ 2) :: addSquares as es
  | as, [] => as
  | [], _ => []

/-- The index of the least sum, the lower on a tie. -/
def leastIndex (xs : List Nat) : Nat :=
  (xs.zipIdx.foldl (fun b p => if p.1 < b.1 then p else b) (xs.headD 0, 0)).2

/-- Error statistics of an accepted SOS (R221–R223): the e_k² of R223 are those of the scans that end a triple of R222. -/
def State.scanStats (s : State) (st : Nat) (pr : Pred) (t : Int) : State :=
  s.modScn st fun x =>
    let x := { x with sums := addSquares x.sums (pr.shadows.map fun p => t - p) }
    match secondDiff x.hist with
    | some q => { x with second := (q :: x.second).take 4096, errs := ((t - pr.p).natAbs ^ 2 :: x.errs).take 4096 }
    | none => x

/-- One more scan in LOCKED: the block of R221, and SCN_RATIO every 256 scans (R223). -/
def State.countScan (s : State) (st : Nat) : State :=
  let locked := s.scnState st == 3
  let s := s.modScn st fun x =>
    let x := { x with sinceRatio := x.sinceRatio + 1 }
    if locked then
      let x := { x with lockedScans := x.lockedScans + 1, block := x.block + 1 }
      if x.block = 4096 then { x with nextW := some (2 + leastIndex x.sums), block := 0, sums := [0, 0, 0, 0] } else x
    else x
  if (s.scns st).sinceRatio = 256 then (s.modScn st fun x => { x with sinceRatio := 0 }).updateRatio st else s

/-! ### The start of a scan -/

/-- The SOS of facet 0 (R210, R221): a revolution ends, W may change, and ACQUIRE may become LOCKED. -/
def State.facetZero (s : State) (st : Nat) : State :=
  let s := s.modScn st fun x =>
    { x with revs := if x.begun then x.revs + 1 else 0, begun := true, outLast := x.outNow, outNow := false
             wLog := x.nextW.getD x.wLog, nextW := none }
  let x := s.scns st
  let s := if s.limit then s.setF (Reg.SCN_STATUS st) 14 12 x.wLog else s
  let s := if s.fb (Reg.SCN_CTRL st) 2 then s.modScn st fun x => { x with feed := some x.tf } else s
  let need := if x.warm then s.f (Reg.SCN_LEARN st) 23 16 else s.f (Reg.SCN_LEARN st) 15 8
  if s.scnState st = 2 && need ≤ x.revs && !x.outLast then
    let s := (s.setB (Reg.SCN_FTAB_CTRL st) 0 true).setB (Reg.SCN_IRQ_STATUS st) 0 true
    let s := (s.setScnState st 3).modScn st fun x =>
      { x with wLog := 3, block := 0, sums := [0, 0, 0, 0], nextW := none, second := [], errs := [], lockedScans := 0
               sinceRatio := 0 }
    if s.limit then s.setF (Reg.SCN_STATUS st) 14 12 3 else s
  else s

/-- Facet checks of INDEX mode at an SOS (R209, R210): the loss they find. -/
def State.indexCheck (s : State) (st f : Nat) : Option Nat :=
  let x := s.scns st
  if !s.fb (Reg.SCN_CTRL st) 1 then none
  else if x.indexDue && f ≠ 0 then some lSLIP
  else if !x.indexDue && 2 * s.facets st ≤ x.scansNoIndex + 1 then some lINDEX
  else none

/-- The SOS of the next scan, at an edge or coasted at its prediction (R207, R208, R210–R217). -/
def State.takeSos (s : State) (st : Nat) (t : Int) (coasted : Bool) : State :=
  let n := s.facets st
  let k := s.scanK st + 1
  let pr := s.predOf st k
  -- in COUNT mode a scan coasted before the first accepted SOS does not number the facets
  let s := if coasted && !(s.scns st).begun && !s.fb (Reg.SCN_CTRL st) 1 then
      s.modScn st fun x => { x with k0 := some ((k : Int) + 1) } else s
  let f := (s.scns st).facetOf n k
  let loss := s.indexCheck st f
  -- the boundary of class S (R225): facet 0 in LOCKED, else an accepted SOS
  let s := if (if s.scnState st = 3 then f = 0 else coasted = false) then s.applyAll (scnClassS st) else s
  let s := s.setPair (Reg.SCN_SCAN_LO st) (Reg.SCN_SCAN_HI st) (k % 2 ^ 48)
  let s := s.setF (Reg.SCN_STATUS st) 7 4 f
  let s := if f = 0 then s.facetZero st else s
  let s := s.modScn st fun x =>
    { x with cur := some { k := k, f := f, tf := pr.tf, p := pr.p, sos := t, coasted := coasted }
             hist := ({ k := k, u := t - s.offsetA st f, coasted := coasted } :: x.hist).take 128
             scansNoIndex := if x.indexDue then 1 else x.scansNoIndex + 1, indexDue := false }
  let out := !coasted && !s.learning st &&
    decide (s.af (Reg.SCN_BOUND st) 7 0 * tk < ((t - pr.p).natAbs : Int))
  let s := if coasted then s else (s.scanStats st pr t).stampEdge st 0 f t out
  let s := s.addPred st (k + s.scnD) s.clk.tb
  let s := if out then s.outOfBound st 2 k else s
  let s := s.countScan st
  match loss with
  | some r => s.scnLoss st r
  | none => if s.inBand st (s.scns st).tf then s else s.scnLoss st lSPEED

/-! ### Edges and misses -/

/-- The compensated time of an edge (R203), in units of 2^−24 tick. -/
def State.edgeTime (s : State) (st i x : Nat) : Int :=
  ((x : Int) - toSigned 16 (s.f (Reg.SCN_DLY st i) 15 0)) * 2 ^ 20

def State.stray (s : State) (st : Nat) : State := s.incSat (Reg.SCN_CNT_A st) 31 16

/-- An edge within 32 ticks of the last on its input is ignored and counted (R204). -/
def State.tooClose (s : State) (st i x : Nat) : Bool :=
  match (s.scns st).edges.find? fun p => p.1 == i with
  | some p => x < p.2 + 512
  | none => false

def State.noteEdge (s : State) (st i x : Nat) : State :=
  s.modScn st fun y => { y with edges := Tab.insert i x y.edges }

/-- The EOS of the scan in progress is settled: the scan is learned from. -/
def State.endScan (s : State) (st : Nat) : State :=
  match (s.scns st).cur with
  | some c => s.learnScan st c
  | none => s

/-- COAST (R210). -/
def State.coastLimit (s : State) (st : Nat) : Nat := s.af (Reg.SCN_BOUND st) 29 28

def State.countMiss (s : State) (st : Nat) : State := s.incSat (Reg.SCN_CNT_A st) 15 0

/-- A time in units of 2^−24 tick has passed. -/
def State.past (s : State) (x : Int) : Bool := x < s.clk.tb * tk

/-! ### The set, the facet gap, the commands -/

/-- A facet gap (R205): the EOS of the scan in progress is settled, and the window of the next SOS is not open yet. -/
def State.facetGap (s : State) (st : Nat) : Bool :=
  decide (2 ≤ s.scnState st) && match (s.scns st).cur with
    | some c =>
      let pr := s.predOf st (s.scanK st + 1)
      c.eos.isSome && decide (s.clk.tb * tk < pr.p - s.gateHalf st pr.tf)
    | none => false

/-- A pitch of R214: seg × Tf ÷ (2^32 × len) to nearest with ties upward; open where it has no place in Q8.24. -/
def State.pitch (s : State) (seg : Nat) (tf len : Int) : Nat × State :=
  let v := if 0 < len then roundUpDiv (seg * tf) (2 ^ 32 * len) else -1
  s.fit (2 ^ 32) (if v < 0 then 2 ^ 32 else v.toNat)

/-- The set of scan k (R214, R215). -/
def State.setOf (s : State) (st k : Nat) : ScanSet × State :=
  let pr := s.predOf st k
  let f := (s.scns st).facetOf (s.facets st) k
  let s2 := s.seg st f true
  let (i1, s) := s.pitch (s.firstPitch st f).1 pr.tf (s.firstPitch st f).2
  let (i2, s) := if s.limit then s.pitch s2 pr.tf (s.lME st) else (i1, s)
  let sk := pr.p - s.posOf (Reg.SCN_POS_S st) * i1
  ({ k := k, f := f, s16 := floorDiv sk (2 ^ 20), inc1 := i1, inc2 := i2, posM := s.posOf (Reg.SCN_POS_M st)
     at' := s.clk.tb }, s)

/-- SCN_EN_WRITE (R210): EN moves the station from OFF to SPINUP, or to OFF; a set that was due is not handed over when
its time comes (R218). -/
def State.writeScnEn (s : State) (st : Nat) (en : Bool) : State :=
  let s := s.setB (Reg.SCN_CTRL st) 0 en
  if en then (if s.scnState st = 0 then s.enterSpinup st else s)
  else
    let s := (s.setScnState st 0).modScn st fun x => { x with cur := none, preds := [], hist := [] }
    (s.setF (Reg.SCN_STATUS st) 17 16 0).setF (Reg.SCN_STATUS st) 14 12 0

/-- What a BRST of a station's part does beside its registers (R226). -/
def State.scnReset (s : State) (st : Nat) : State := { s with scn := Tab.erase st s.scn }

/-- SAFE entry loses every lock (R210, R6); the scans that were open before it are given for each station. -/
def State.scnSafe (s : State) (hs : Nat → List (Nat × Nat)) : State :=
  (List.range 6).foldl (fun s st => s.scnLossFor st lSAFE (hs st)) s

end Sys2Proof.Machine
end

