-- ==== Sys2Proof/Machine/Exposure.lean ====
section
/-!
DEFINITION. The exposure path and the exposure links (R230–R269): binding commands, pixel codes, frames, gap points and
retirements, link states, the spare lane, status records and LINK causes, and the commands of their rows.
-/

namespace Sys2Proof.Machine

/-! ### Link causes (R265) -/

/-- KIND codes of R265. -/
def kCRC : Nat := 1
def kSYNC : Nat := 2
def kLOCK : Nat := 3
def kHEADER : Nat := 4
def kNO_STATUS : Nat := 5
def kDOWN : Nat := 6
def kEMITTER : Nat := 7
def kRATE : Nat := 8
def kTRAIN : Nat := 9
def kTABLE : Nat := 10

/-- Events of source EXP (R269). -/
def State.expEvent (s : State) (st ev : Nat) : State := s.raise (srcEXP st) ev

def State.expIrq (s : State) (st i : Nat) : State := s.setB (Reg.EXP_IRQ_STATUS st) i true
def State.xlkIrq (s : State) (st i : Nat) : State := s.setB (Reg.XLK_IRQ_STATUS st) i true

/-- A LINK cause for the sheet with handle h (R265). -/
def State.linkCause (s : State) (st h kind lane k : Nat) : State :=
  let s := s.setReg (Reg.XLK_ERR st) (BitVec.ofNat 32 (kind + 16 * lane + 2 ^ 16 * (k % 2 ^ 16)))
  let s := (s.xlkIrq st 3).expEvent st 4
  s.causeH h cLINK (s.exposeClaim h st)

/-- The LINK cause of a frame's or a scan's sheet; a scan bound to no sheet forms none. -/
def State.linkCauseOf (s : State) (st : Nat) (h : Option Nat) (kind lane k : Nat) : State :=
  match h with
  | some h => s.linkCause st h kind lane k
  | none => s

/-- XLK_STATUS.STATE: 0 OFF, 1 TRAIN, 2 LOAD, 3 UP, 4 DOWN. -/
def State.linkState (s : State) (st : Nat) : Nat := s.f (Reg.XLK_STATUS st) 2 0

/-! ### EXPOSE (R230) -/

/-- Bind the oldest stream of the sheet that is not bound; none where R230 makes no report. -/
def State.bindSheet (s : State) (st h i lead : Nat) : Option State :=
  let s := s.applyS (Reg.EXP_LINE_PERIOD st)
  let e := s.exps st
  let line := s.af (Reg.EXP_LINE_PERIOD st) 31 0
  if !s.fb (Reg.EXP_CTRL st) 0 || line = 0 || 4 ≤ e.bindings.length then none
  else match e.uses.find? fun u => u.sheet == h && !u.bound with
    | none => none
    | some u =>
      let b : Binding := { sheet := h, action := i, t0 := s.clk.tb + lead, tA := s.clk.tb, ln0 := u.ln0
                           stop := u.ln0 + 32 * u.nrows, row0 := u.row0, line := line }
      some (s.modExp st fun e =>
        { e with bindings := e.bindings ++ [b]
                 uses := e.uses.map fun v => if v.ln0 = u.ln0 then { v with bound := true } else v })

/-- A scan handed over at or before an EXPOSE meets its binding (R231). -/
def State.earlyScans (s : State) (st h : Nat) : Bool :=
  match (s.exps st).bindings.getLast? with
  | some b => b.sheet == h && (s.exps st).handed.any fun x => b.meets x.s16
  | none => false

/-! ### Pixel codes (R233–R242) -/

/-- The emitter that position j names, and whether the position sends codes. -/
def State.emitterOf (s : State) (st j : Nat) : Nat := s.af (Reg.EXP_EMAP st j) 5 0
def State.posEnabled (s : State) (st j : Nat) : Bool := s.af (Reg.EXP_EMAP st j) 7 7 == 1
def State.geomLine (s : State) (st e : Nat) : Int := toSigned 12 (s.af (Reg.EXP_GEOM st e) 11 0)
def State.geomScan (s : State) (st e : Nat) : Int := toSigned 12 (s.af (Reg.EXP_GEOM st e) 27 16)

/-- Position j sends the codes of its emitter in a scan (R233, R245). -/
def State.posLive (s : State) (st j : Nat) (x : ScanSet) : Bool :=
  s.posEnabled st j && s.emitterOf st j < 48 && !x.dead.contains (s.emitterOf st j)

/-- Node i of emitter e's correction map (R237). -/
def State.node (s : State) (st e i : Nat) : Nat :=
  s.memLE (mapBase + st * 0x30000 + e * 0x1000 + 4 * min i 1023) 4

/-- PROC, SCAN and TRIM of a map entry or of EXP_REG (R237). -/
def procOf (w : Nat) : Int := toSigned 12 (nbits w 11 0)
def scanOf (w : Nat) : Int := toSigned 10 (nbits w 21 12)
def trimOf (w : Nat) : Int := toSigned 8 (nbits w 29 22)

/-- F(n) of R238. -/
def State.fieldAt (s : State) (st e n : Nat) (g : Nat → Int) : Int :=
  let v0 := g (s.node st e (n / 24))
  let v1 := g (s.node st e (n / 24 + 1))
  v0 + floorDiv ((v1 - v0) * (n % 24 : Nat) + 12) 24

/-- off(n) of R239. -/
def State.scanOff (s : State) (st e r n reg : Nat) : Int :=
  s.fieldAt st e n scanOf + scanOf reg + s.geomScan st e - s.geomScan st r

/-- φ_j and λ_j before they are clamped (R239). -/
def State.phiRaw (s : State) (st e r reg : Nat) : Int := s.scanOff st e r 0 reg
def State.lamRaw (s : State) (st e r reg : Nat) : Int := s.scanOff st e r 24575 reg - s.scanOff st e r 0 reg
def State.phi (s : State) (st e r reg : Nat) : Int := clampInt (-2048) 2047 (s.phiRaw st e r reg)
def State.lam (s : State) (st e r reg : Nat) : Int := clampInt (-32768) 32767 (s.lamRaw st e r reg)

/-- The source pixel x of R239. -/
def State.sourceX (s : State) (st e r n reg : Nat) : Int :=
  let rho := s.scanOff st e r n reg - s.phi st e r reg - floorDiv (s.lam st e r reg * n) 24575
  n - floorDiv (rho + 32) 64

/-- c(l, x): nibble x of station line l (R233, R234). -/
def State.lineCode (s : State) (st : Nat) (b : Binding) (l x : Int) : Nat :=
  if l < b.ln0 || (b.stop : Int) ≤ l || x < 0 || 24575 < x then 0
  else
    let v := (readByte s.mem (bandBase st + l.toNat % 341 * 12288 + x.toNat / 2)).toNat
    if x.toNat % 2 = 0 then v / 16 else v % 16

/-- rev4 (R240). -/
def rev4 (n : Nat) : Nat := n % 2 * 8 + n / 2 % 2 * 4 + n / 4 % 2 * 2 + n / 8 % 2

/-- The trimmed code of R240. -/
def trimCode (c : Nat) (t : Int) (n : Nat) : Nat :=
  if c = 0 then 0 else min 15 (floorDiv (c * (256 + t) + (16 * rev4 (n % 16) + 8 : Nat)) 256).toNat

/-- The line offset of step 2 and the trim of R240, before they are clamped. -/
def State.offRaw (s : State) (st e n reg : Nat) : Int := s.geomLine st e + s.fieldAt st e n procOf + procOf reg
def State.trimRaw (s : State) (st e n reg : Nat) : Int := s.fieldAt st e n trimOf + trimOf reg

/-- The line coordinate y of step 3, in sixteenths. -/
def State.coordY (s : State) (st : Nat) (b : Binding) (yk : Int) (e n reg : Nat) : Int :=
  16 * b.ln0 + yk + clampInt (-2048) 2047 (s.offRaw st e n reg)

/-- The emitter that serves SCN_CFG.REF_POS (R239). -/
def State.refEmitter (s : State) (st : Nat) : Nat := s.emitterOf st (s.f (Reg.SCN_CFG st) 20 16)

/-- The code of position j at pixel n of a bound scan (R233). -/
def State.codeAt (s : State) (st j n : Nat) (x : ScanSet) (b : Binding) : Nat :=
  if !s.posLive st j x then 0
  else
    let e := s.emitterOf st j
    let reg := x.reg.toNat
    let y := s.coordY st b x.y e n reg
    let sx := s.sourceX st e (s.refEmitter st) n reg
    let c := if s.fb (Reg.EXP_CTRL st) 1 then
        let y0 := floorDiv y 16
        let ph := (y % 16).toNat
        ((16 - ph) * s.lineCode st b y0 sx + ph * s.lineCode st b (y0 + 1) sx + 8) / 16
      else s.lineCode st b (floorDiv (y + 8) 16) sx
    trimCode c (clampInt (-128) 127 (s.trimRaw st e n reg)) n

/-- A value lies outside what a clamp lets through. -/
def outside (lo hi x : Int) : Bool := x < lo || hi < x

/-- Some clamp acts in this scan (R233). -/
def State.scanClamps (s : State) (st ncol : Nat) (x : ScanSet) : Bool :=
  let r := s.refEmitter st
  let reg := x.reg.toNat
  (List.range 32).any fun j =>
    let e := s.emitterOf st j
    s.posLive st j x &&
    (outside (-2048) 2047 (s.phiRaw st e r reg) || outside (-32768) 32767 (s.lamRaw st e r reg) ||
     (List.range ncol).any fun n =>
       outside (-2048) 2047 (s.offRaw st e n reg) || outside (-128) 127 (s.trimRaw st e n reg))

/-- NCOL (R253). -/
def State.ncol (s : State) (st : Nat) : Nat := 2048 * s.f (Reg.EXP_WIDTH st) 3 0

/-! ### Frames (R253–R257) -/

/-- The header words 0–36 (R254). -/
def State.headerBody (s : State) (st : Nat) (x : ScanSet) (sof band : Nat) : List (BitVec 64) :=
  let w0 := 0x48 + 2 ^ 8 * st + 2 ^ 12 * x.f + 2 ^ 16 * (x.k % 2 ^ 16) + 2 ^ 32 * band
  let start := fromSigned 32 (x.s16 - 16 * (sof : Int) - s.f (Reg.XLK_LAT st) 19 0)
  let w3 := fromSigned 20 x.posM + 2 ^ 20 * s.ncol st
  let r := s.refEmitter st
  let pos := fun j =>
    let e := s.emitterOf st j
    BitVec.ofNat 64 (e + 64 * (if s.posLive st j x then 1 else 0) + 2 ^ 8 * fromSigned 12 (s.phi st e r x.reg.toNat) +
      2 ^ 20 * fromSigned 16 (s.lam st e r x.reg.toNat))
  [BitVec.ofNat 64 w0, BitVec.ofNat 64 start, BitVec.ofNat 64 (x.inc1 + 2 ^ 32 * x.inc2), BitVec.ofNat 64 w3] ++
    (List.range 32).map pos ++ [0]

def blockBytes (ws : List (BitVec 64)) : List Byte := ws.flatMap fun w => bytesLE 8 w.toNat

/-- The header with its CRC word (R254, R256). -/
def State.header (s : State) (st : Nat) (x : ScanSet) (sof band : Nat) : List (BitVec 64) :=
  let body := s.headerBody st x sof band
  body ++ [BitVec.ofNat 64 (crc32 (blockBytes body))]

/-- The two blocks of column n (R255). -/
def State.columnBlocks (s : State) (st n : Nat) (x : ScanSet) (b : Binding) : List (BitVec 64) :=
  let half := fun p0 => BitVec.ofNat 64
    ((List.range 16).foldl (fun v p => v + 16 ^ p * s.codeAt st (p0 + p) n x b) 0)
  [half 0, half 16]

/-- The logical blocks of a frame of `n` columns (R253). -/
def State.frameBlocks (s : State) (st n : Nat) (x : ScanSet) (b : Binding) (hdr : List (BitVec 64)) :
    List (BitVec 64) :=
  hdr ++ hdr ++ (List.range n).flatMap fun c => s.columnBlocks st c x b

/-- The CRC-32 of each logical lane's data blocks, of those sent since SOF or TBL (R253, R256). -/
def laneCrcs (ws : List (BitVec 64)) : List Nat :=
  (List.range 4).map fun lane => crc32 (blockBytes ((ws.zipIdx.filter fun p => p.2 % 4 == lane).map (·.1)))

/-- EOF ends what was sent on the lanes (R252, R256). -/
def State.sendEof (s : State) (st : Nat) (marker : Tick) (abort : Bool) (ws : List (BitVec 64)) : State :=
  s.sendCtl st marker fun lane => eofWord abort ((laneCrcs ws).getD lane 0)

/-- What an entry of the pulse tables adds to the on-time (R248). -/
def onTimeOf (b : Byte) : Nat := if b.toNat / 64 = 3 then 64 else b.toNat % 64

/-- The emitter that the header names for position j, where its EN is 1 (R254). -/
def ExpFrame.emitter (f : ExpFrame) (j : Nat) : Option Nat :=
  let w := (f.blocks.getD (4 + j) 0).toNat
  if w.testBit 6 then some (w % 64) else none

/-- What the sixteen codes of one block of a column add to the on-time of their emitters (R248, R255). -/
def ExpFrame.blockOnTime (f : ExpFrame) (half : Nat) (w : BitVec 64) (t : Tab Nat) : Tab Nat :=
  (List.range 16).foldl (fun t p => match f.emitter (16 * half + p) with
    | some e => Tab.put 0 t e (Tab.get 0 t e + onTimeOf (f.table.getD (16 * e + w.toNat / 16 ^ p % 16) 0))
    | none => t) t

/-- What the first `n` data blocks of a frame add to each emitter's on-time (R248). -/
def ExpFrame.onTime (f : ExpFrame) (n : Nat) : Tab Nat :=
  (((f.blocks.take n).drop 76).zipIdx).foldl (fun t p => f.blockOnTime (p.2 % 2) p.1 t) []

/-- The block start of a set's SOF (R253). -/
def State.sofOf (s : State) (st : Nat) (x : ScanSet) : Tick :=
  let w := x.s16 - 16 * (s.f (Reg.XLK_PRE st) 23 0 : Int)
  (-(floorDiv (-w) (16 * 66)) * 66).toNat

/-- The bound set whose frame is next. -/
def State.nextBound (s : State) (st : Nat) : Option (ScanSet × Binding) :=
  (s.exps st).sets.findSome? fun x => x.binding.map fun b => (x, b)

def State.dropSet (s : State) (st k : Nat) : State :=
  s.modExp st fun e => { e with sets := e.sets.map fun x => if x.k = k then { x with binding := none } else x }

/-- The plane row of a line of a binding's stream (R236); the line may lie below the stream's first. -/
def Binding.rowOf (b : Binding) (line : Nat) : Int := b.row0 + floorDiv ((line : Int) - b.ln0) 32

/-- The TILE_LATE cause (R236) of a line of a binding's stream: DETAIL has 13 bits for its row. -/
def State.tileLate (s : State) (st : Nat) (b : Binding) (line : Nat) : State :=
  let s := (s.incSat (Reg.EXP_CNT_A st) 31 16).expIrq st 4
  let s := (s.expEvent st 0).blankStation st
  s.causeH b.sheet cTILE_LATE (st + 8 * fromSigned 13 (b.rowOf line))

/-- The band of the next frame (R249). -/
def State.takeBand (s : State) (st : Nat) : State :=
  let want := (s.exps st).bandNext
  if want = s.f (Reg.XLK_STATUS st) 11 9 then s
  else if s.fb (Reg.XLK_STATUS st) (12 + want) then (s.setF (Reg.XLK_STATUS st) 11 9 want).xlkIrq st 4
  else s.xlkIrq st 5

/-- The transmit equalisation preset of a station's link (R423): it follows the thermal band at the first block start with no
frame or table load in transmission. -/
def State.linkPreset (s : State) (st : Nat) : Nat :=
  let x := s.exps st
  if x.frame.isSome || s.clk.tb < x.tblEnd then x.preset else s.bandAtMultiple 66

/-- SOF is sent and assembly starts (R236, R253): all codes of the frame are formed from the state at this edge (log
entry 28). -/
def State.startFrame (s : State) (st : Nat) (x : ScanSet) (b : Binding) (sof : Tick) : State :=
  let s := s.takeBand st
  let band := s.f (Reg.XLK_STATUS st) 11 9
  let n := s.ncol st
  let hdr := s.header st x sof band
  let fr : ExpFrame := { set := x, sof := sof, band := band, blocks := s.frameBlocks st n x b hdr
                         table := Tab.get [] (s.exps st).tables band, clamp := s.scanClamps st n x }
  let preset := s.linkPreset st
  let s := s.modExp st fun e => { e with frame := some fr, preset := preset, sets := e.sets.filter fun y => y.k ≠ x.k }
  let s := s.sendCtl st sof (sofWord st x.k)
  if fr.clamp then (s.incSat (Reg.EXP_CNT_A st) 15 0).expIrq st 3 else s

/-- The pitch below which the link cannot carry a scan (R257). -/
def minInc : Nat := 0x22000000

/-- A SOF would fall before the EOF of the scan before it (R257). -/
def State.sofEarly (s : State) (st : Nat) (sof : Tick) : Bool :=
  (s.exps st).frame.isSome || (match (s.exps st).eof with | some e => decide (sof < e.1) | none => false)

/-- The lowest line that column n of a frame reads, limited to the stream's (R236). -/
def State.columnLine (s : State) (st n : Nat) (x : ScanSet) (b : Binding) : Nat :=
  let ys := (List.range 32).filterMap fun j =>
    if s.posLive st j x then
      let y := s.coordY st b x.y (s.emitterOf st j) n x.reg.toNat
      some (if s.fb (Reg.EXP_CTRL st) 1 then floorDiv y 16 else floorDiv (y + 8) 16)
    else none
  clampNat b.ln0 (b.stop - 1) (ys.foldl min (b.stop : Int)).toNat

/-- E_n of a set, in units of 2^−24 tick (R214). -/
def ScanSet.edge (x : ScanSet) (n : Nat) : Int :=
  if (n : Int) ≤ x.posM then x.s16 * 2 ^ 20 + n * x.inc1
  else x.s16 * 2 ^ 20 + x.posM * x.inc1 + (n - x.posM) * x.inc2

/-- The first edge at which the whole frame can have been sent (R253, R257). -/
def State.frameTime (s : State) (st : Nat) (f : ExpFrame) : Bool :=
  let n := s.ncol st
  let depth := s.f (Reg.XLK_DEPTH st) 11 0
  f.sof + 66 * (20 + n / 2) ≤ s.clk.tb && (n ≤ depth || f.set.edge (n - 1 - depth) ≤ s.clk.tb * tk)

/-- Add to the on-time counts (R248). -/
def State.addOnTime (s : State) (st : Nat) (t : Tab Nat) : State :=
  t.foldl (fun s p =>
    let lo := Reg.EXP_ONTIME_LO st p.1
    let hi := Reg.EXP_ONTIME_HI st p.1
    s.setPair lo hi ((s.pair lo hi + p.2) % 2 ^ 48)) s

/-- The data blocks of a frame that is cut short: at most what four lanes have carried since SOF, and an open number of
those (log entry 101). -/
def ExpFrame.cutAt (f : ExpFrame) (u : Nat) (now : Tick) : Nat :=
  Config.freeNat u % (min f.blocks.length (4 * ((now - f.sof) / 66)) + 1)

/-- The frame in progress is cut off (R261): the lanes carry IDLE, and what was sent counts as on-time. -/
def State.cutFrame (s : State) (st : Nat) : State :=
  match (s.exps st).frame with
  | none => s
  | some f =>
    let (u, s) := s.takeFresh
    (s.addOnTime st (f.onTime (f.cutAt u s.clk.tb))).modExp st fun e => { e with frame := none }

/-- The band reads of a bound scan are finished (R235). -/
def State.readsDone (s : State) (st k : Nat) (b : Binding) : State :=
  match (s.exps st).sets.find? fun y => y.k == k + 1 with
  | some y => s.moveLw st b (b.baseAt y.s16)
  | none => s.modExp st fun e => { e with lwDue := e.lwDue ++ [(k, b)] }

/-! ### Emitters and retirement (R242–R247) -/

/-- A position names emitter e; one with EN = 1 does. -/
def State.named (s : State) (st e : Nat) : Bool := (List.range 32).any fun j => s.emitterOf st j == e
def State.active (s : State) (st e : Nat) : Bool :=
  (List.range 32).any fun j => s.emitterOf st j == e && s.posEnabled st j

def State.isSpare (s : State) (st e : Nat) : Bool := e < 48 && !s.named st e && s.barOf st e == 0

/-- EXP_ESTATE.STATE (R242); none where R242 names no state (an emitter that only positions with EN = 0 name). -/
def State.emitterState (s : State) (st e : Nat) : Option Nat :=
  if s.barOf st e = 1 then some 3
  else if s.barOf st e = 2 then some 4
  else if s.active st e then some (if (s.exps st).worn.contains e then 2 else 0)
  else if s.named st e then none
  else some 1

/-- The line of the scan that an emitter covers (R246). -/
def State.coverLine (s : State) (st e : Nat) : Int := floorDiv (s.geomLine st e + 8) 16 % 32

/-- Retirement reasons (R476). -/
def State.retireTo (s : State) (st j e' reason : Nat) : State :=
  let e := s.emitterOf st j
  let failed := s.barOf st e = 2
  let s := s.setNow (Reg.EXP_EMAP st j) 5 0 e'
  let s := if failed ∨ 48 ≤ e then s else s.setNow (Reg.EXP_ESTATE st e) 4 3 1
  let s := s.modExp st fun x => { x with worn := x.worn.filter (· ≠ e) }
  let s := (s.incSat (Reg.EXP_CNT_B st) 15 0).expIrq st 1
  (s.expEvent st 2).ldgRecord 2 0x12 1
    (bytesLE 1 st ++ bytesLE 1 j ++ bytesLE 1 e ++ bytesLE 1 e' ++ bytesLE 1 reason)

/-- The requested retirements are taken in order (R243, R247). -/
def State.takeRetire (s : State) (st : Nat) : State :=
  let rs := (s.exps st).retire
  rs.foldl (fun s r => if s.isSpare st r.2 then s.retireTo st r.1 r.2 2 else s.setB (Reg.EXP_STATUS st) 1 true)
    (s.modExp st fun x => { x with retire := [] })

/-- The automatic retirement of position j (R246). -/
def State.autoRetire (s : State) (st j : Nat) : State :=
  let e := s.emitterOf st j
  let worn := (s.exps st).worn.contains e
  let failed := s.barOf st e == 2
  if !(48 ≤ e) && (worn || failed) then
    match (List.range 48).find? fun e' => s.isSpare st e' && s.coverLine st e' == s.coverLine st e with
    | some e' => s.retireTo st j e' (if failed then 1 else 0)
    | none => (s.expIrq st 2).expEvent st 3
  else s

/-- One table of the companion is loaded (R259): TBL, the 768 bytes as 96 data blocks, EOF. -/
def State.sendTable (s : State) (st band : Nat) (d : List Byte) : State :=
  let m := max s.nextBlock (s.exps st).tblEnd
  let ws := (List.range 96).map fun i => BitVec.ofNat 64 (sliceLE d (8 * i) 8)
  let s := (s.sendCtl st m fun _ => tblWord band).sendEof st (m + 66 * 25) false ws
  let preset := s.linkPreset st
  s.modExp st fun x => { x with tables := Tab.insert band d x.tables, preset := preset, tblEnd := m + 66 * 26 }

/-- Send the pulse tables (R248, R250); one whose entry c = 0 is not 0 is not sent. -/
def State.sendTables (s : State) (st : Nat) : State :=
  (List.range 5).foldl (fun s b =>
    let d := readBytes s.mem (mapBase + 0x120000 + st * 0x1000 + b * 768) 768
    if (List.range 48).any fun e => d.getD (16 * e) 0 != 0 then s.xlkIrq st 5 else s.sendTable st b d) s

/-- The tables that are owed are sent, once the mode is not SAFE (R250, R259). -/
def State.sendOwed (s : State) (st : Nat) : State :=
  if (s.exps st).tblDue && !(s.mode == .safe) then
    (s.sendTables st).modExp st fun x => { x with tblDue := false }
  else s

/-- A LIGHT block is sent (R252, R258). -/
def State.sendLight (s : State) (st : Nat) (l : Light) : State :=
  (s.modExp st fun x => { x with light := some l }).sendCtl st l.marker fun _ => l.word

/-- The next emitter to be calibrated (R484). -/
def State.beamEmitter (s : State) (st : Nat) : Option Nat :=
  let n := (s.exps st).beamNext
  ((List.range 48).map fun i => (n + i) % 48).find? fun e => s.barOf st e == 0

/-- Background beam power calibration at a gap point (R484): a LIGHT of one emitter 2,048 ticks ahead. -/
def State.beamCal (s : State) (st : Nat) : State :=
  if s.fb Reg.BKG_CTRL 3 && s.linkState st == 3 && !(s.mode == .safe) then
    match s.beamEmitter st with
    | none => s
    | some e =>
      let m := nextMultiple 66 s.clk.tb
      (s.sendLight st { mode := 2, emitter := e, level := s.f (Reg.XLK_SYNC st) 7 0, start := s.clk.tb + 2048 - m
                        len := 16, marker := m }).modExp st fun x =>
        { x with beamNext := (e + 1) % 48, beamWait := some (e, s.clk.tb + 2048 + 16 * 64) }
  else s

/-- No scan of the station is bound, handed over or exposing (R243). -/
def State.noneBound (s : State) (st : Nat) : Bool :=
  (s.exps st).frame.isNone && (s.exps st).sets.all fun x => x.binding.isNone

/-- Class S (gap) fields take force (R243). A write of BAR raises it or is ignored. -/
def State.applyGap (s : State) (st : Nat) : State :=
  s.applyAll ((List.range 32).map (Reg.EXP_EMAP st) ++ (List.range 48).map (Reg.EXP_GEOM st) ++
    (List.range 48).map (Reg.EXP_ESTATE st))

/-- RETIRE_REQUEST (R247): a write of EXP_RETIRE waits for the next gap point. -/
def State.retireRequest (s : State) (st : Nat) (w : Word) : State :=
  s.modExp st fun x => { x with retire := x.retire ++ [(bits w 4 0, bits w 13 8)] }

/-! ### Link states and the spare lane (R261, R262) -/

def State.enterLink (s : State) (st n : Nat) : State :=
  (s.setF (Reg.XLK_STATUS st) 2 0 n).modExp st fun x => { x with since := s.clk.tb, locks := 0, cont := false }

/-- The link goes DOWN (R261): the lanes carry IDLE, every live binding's sheet receives LINK DOWN, and XLK_ERR keeps the
reason (log entry 29). -/
def State.linkDown (s : State) (st kind k : Nat) : State :=
  let hs := (s.exps st).bindings.map (·.sheet)
  let s := (((s.cutFrame st).enterLink st 4).xlkIrq st 1).expEvent st 6
  let s := hs.foldl (fun s h => s.linkCause st h kDOWN 0 k) s
  s.setF (Reg.XLK_ERR st) 3 0 kind

/-- The link goes OFF (R261, R268): nothing of it stays in transmission; a record of a frame that has ended is still
waited for (R264). -/
def State.linkOff (s : State) (st : Nat) : State :=
  ((s.cutFrame st).enterLink st 0).modExp st fun x =>
    { x with crcHist := [], subst := [], lastRec := none, light := none }

/-- XLK_EN_WRITE (R261). -/
def State.writeXlkEn (s : State) (st : Nat) (en : Bool) : State :=
  let s := s.setB (Reg.XLK_CTRL st) 0 en
  if en then (if s.linkState st = 0 then s.enterLink st 1 else s)
  else if s.linkState st = 0 then s else s.linkOff st

/-- The scan count of the last frame ended or in progress. -/
def State.lastScan (s : State) (st : Nat) : Nat :=
  match (s.exps st).frame with
  | some f => f.set.k
  | none => ((s.exps st).waiting.getLast?.map (·.k)).getD 0

/-- A logical lane is to be replaced (R261): by the spare when it is usable, else the link goes DOWN. -/
def State.wantSubst (s : State) (st lane : Nat) : State :=
  if s.linkState st ≠ 3 || (s.exps st).subst.contains lane then s
  else if s.fb (Reg.XLK_STATUS st) 3 && (s.exps st).subst.isEmpty then
    s.modExp st fun x => { x with subst := [lane] }
  else s.linkDown st kDOWN (s.lastScan st)

/-- The physical lane of a logical lane; the spare at 4. -/
def State.physLane (s : State) (st i : Nat) : Nat := s.f (Reg.XLK_LANE_MAP st) (3 * i + 2) (3 * i)

/-- TBL_LOAD (R250): the tables are sent at the next gap point. -/
def State.tblLoad (s : State) (st : Nat) : State := s.modExp st fun x => { x with tblDue := true }

/-! ### Lighting (R206, R258) -/

/-- The time for which a sensor is lit in scan k, in ticks: from the whole tick at or before its start (R206). -/
def State.lightWindow (s : State) (st sensor k : Nat) : Int × Int :=
  let pr := s.predOf st k
  let c : CurScan := { k := k, f := (s.scns st).facetOf (s.facets st) k, tf := pr.tf, p := pr.p, sos := pr.p }
  let pred := if sensor = 0 then pr.p else if sensor = 1 then s.predMos st c else s.predEos st c
  let half := if s.scnState st = 3 then (s.af (Reg.SCN_BOUND st) 25 16 + 64) * tk else floorDiv pr.tf 8
  if s.learning st && sensor ≠ 0 then (floorDiv c.p tk, -(floorDiv (-(c.p + floorDiv (3 * c.tf) 4)) tk))
  else (floorDiv (pred - half) tk, -(floorDiv (-(pred + half)) tk))

/-- The LIGHT WINDOW due next for a sensor, with its scan (R258): one per window, not less than 2,048 ticks before the
window opens, nor earlier than its START can say. -/
def State.lightDue (s : State) (st sensor : Nat) (m : Tick) : Option (Nat × Int × Int) :=
  ([s.scanK st, s.scanK st + 1].map fun k => (k, s.lightWindow st sensor k)).find? fun p =>
    decide ((m : Int) + 2048 ≤ p.2.1) && decide (p.2.1 < (m : Int) + 2 ^ 24) &&
      ((s.exps st).lit.find? fun q => q.1 == sensor).all fun q => decide (q.2 < p.1)

/-! ### Status records (R263–R265) -/

/-- The temperature band (R249). -/
def tempBand (th : List Int) (hyst temp : Int) : Nat → Nat → Nat
  | 0, b => b
  | n + 1, b =>
    if b < 4 && (th.getD (b + 1) 0) ≤ temp then tempBand th hyst temp n (b + 1)
    else if 0 < b && temp < th.getD b 0 - hyst then tempBand th hyst temp n (b - 1)
    else b

def State.bandOf (s : State) (st : Nat) (temp : Int) (b : Nat) : Nat :=
  let g := fun a hi lo => toSigned 12 (s.f a hi lo)
  tempBand [0, g (Reg.XLK_TBAND_A st) 11 0, g (Reg.XLK_TBAND_A st) 27 16, g (Reg.XLK_TBAND_B st) 11 0,
    g (Reg.XLK_TBAND_B st) 27 16] (s.f (Reg.XLK_TBAND_H st) 7 0) temp 8 b

/-- The registers that show the latest record (R263). -/
def State.showRecord (s : State) (st : Nat) (r : List Byte) : State :=
  let lock := sliceLE r 6 1 % 32
  let s := s.setF (Reg.XLK_STATUS st) 8 4 lock
  let s := s.setF (Reg.XLK_STATUS st) 16 12 (sliceLE r 0xF 1)
  let spare := s.physLane st 4
  let s := s.setB (Reg.XLK_STATUS st) 3 (spare ≠ 7 && lock.testBit spare)
  let s := s.setReg (Reg.XLK_RC_TEMP st) (BitVec.ofNat 32 (sliceLE r 8 4))
  let s := s.setReg (Reg.XLK_RC_JITTER st) (BitVec.ofNat 32 (sliceLE r 0xC 2))
  let s := s.setReg (Reg.XLK_RC_FAULT_LO st) (BitVec.ofNat 32 (sliceLE r 0x10 4))
  let s := s.setReg (Reg.XLK_RC_FAULT_HI st) (BitVec.ofNat 32 (sliceLE r 0x14 2))
  let s := (List.range 48).foldl (fun s e =>
    s.setReg (Reg.XLK_RC_I st e) (BitVec.ofNat 32 (sliceLE r (0x18 + 2 * e) 2 % 4096))) s
  let temp := max (toSigned 16 (sliceLE r 8 2)) (toSigned 16 (sliceLE r 0xA 2))
  s.modExp st fun x => { x with lastRec := some s.clk.tb, bandNext := s.bandOf st temp x.bandNext }

/-- Emitter wear (R244). -/
def State.wearOf (s : State) (st : Nat) (r : List Byte) (e : Nat) : State :=
  let base := s.f (Reg.EXP_IBASE st e) 11 0
  if base = 0 || s.emitterState st e ≠ some 0 then s
  else
    let cur := sliceLE r (0x18 + 2 * e) 2 % 4096
    let far := s.f (Reg.EXP_WEAR st) 11 0 < ((cur : Int) - base).natAbs
    let run := if far then min 255 (s.f (Reg.EXP_ESTATE st e) 15 8 + 1) else 0
    let s := s.setNow (Reg.EXP_ESTATE st e) 15 8 run
    if far && s.f (Reg.EXP_WEAR st) 23 16 ≤ run then
      ((s.modExp st fun x => { x with worn := x.worn ++ [e] }).expIrq st 0).expEvent st 1
    else s

/-- A FAULT bit of an emitter that a position names (R245). -/
def State.faultOf (s : State) (st : Nat) (r : List Byte) (e : Nat) : State :=
  if (sliceLE r 0x10 6).testBit e && s.named st e then (s.setNow (Reg.EXP_ESTATE st e) 4 3 2).expIrq st 5 else s

/-- The current of an emitter that beam calibration lit (R484). -/
def State.beamResult (s : State) (st : Nat) (r : List Byte) : State :=
  match (s.exps st).beamWait with
  | some (e, stop) =>
    if s.clk.tb < stop then s
    else
      let s := s.setReg (Reg.BKG_BEAM st) (BitVec.ofNat 32 (e + 2 ^ 16 * (sliceLE r (0x18 + 2 * e) 2 % 4096)))
      ((s.setB Reg.BKG_IRQ_STATUS 4 true).raise srcBKG 4).modExp st fun x => { x with beamWait := none }
  | none => s

/-- The scan and sheet of the frame in progress. -/
def State.progFrame (s : State) (st : Nat) : Option (Nat × Nat) :=
  match (s.exps st).frame with
  | some f => f.set.sheet.map fun h => (f.set.k, h)
  | none => none

/-- The ended frame that a record's SCAN names: within the 409,600 ticks after its EOF in which R264 and R265 look for
its conditions. -/
def State.sentFrame (s : State) (st scan : Nat) : Option SentFrame :=
  (s.exps st).waiting.find? fun w => w.k % 65536 == scan && decide (s.clk.tb ≤ w.eof + 409600)

def State.namedFrame (s : State) (st scan : Nat) : Option (Nat × Nat) :=
  (s.sentFrame st scan).map fun w => (w.k, w.sheet)

/-- The logical lanes without block lock in a record (R265). -/
def State.unlocked (s : State) (st : Nat) : List Nat :=
  (List.range 4).filter fun l => !s.fb (Reg.XLK_STATUS st) (4 + s.physLane st l)

/-- CRC failures of a frame's record: counters, the last 64 frames, and the lanes that reach ERRS (R261). -/
def State.laneCrc (s : State) (st bad l : Nat) : State :=
  let hit := bad.testBit l
  let s := s.modExp st fun x =>
    { x with crcHist := Tab.put [] x.crcHist l ((hit :: Tab.get [] x.crcHist l).take 64) }
  if hit then s.incSat (Reg.XLK_CNT_CRC st (s.physLane st l)) 15 0 else s

def State.crcLanes (s : State) (st : Nat) : List Nat :=
  (List.range 4).filter fun l =>
    s.f (Reg.XLK_SUBST st) 2 0 ≤ ((Tab.get [] (s.exps st).crcHist l).filter id).length

/-- The conditions of R265 that a record shows, lowest KIND first: KIND, logical lane, scan and sheet. Before UP a lane
that is not locked is no condition: no frame is in progress or was sent since the lanes trained. -/
def State.recordConds (s : State) (st : Nat) (r : List Byte) (faulty : Bool) : List (Nat × Nat × Nat × Nat) :=
  let scan := sliceLE r 2 2
  let named := s.namedFrame st scan
  let prog := s.progFrame st
  let crc := sliceLE r 5 1 % 16
  let frame := sliceLE r 4 1
  let low := ((List.range 4).find? fun l => crc.testBit l).getD 0
  let one := fun (c : Bool) (kind lane : Nat) (fr : Option (Nat × Nat)) =>
    if c then (fr.map fun p => (kind, lane, p.1, p.2)).toList else []
  one (crc ≠ 0) kCRC low named ++ one (sliceLE r 7 1 % 2 == 1) kSYNC 0 named ++
  one (decide (3 ≤ s.linkState st) && !(s.unlocked st).isEmpty) kLOCK ((s.unlocked st).headD 0) (if prog.isSome then prog else named) ++
  one (frame.testBit 2) kHEADER 0 named ++
  one faulty kEMITTER 0 (if named.isSome then named else
    match prog with | some p => if p.1 % 65536 = scan then some p else none | none => none)

/-- A record names an ended frame: the first one that does so answers it (R264), and a header that copy 2 repaired
counts once for the frame (R265). -/
def State.answer (s : State) (st : Nat) (r : List Byte) (w : SentFrame) : State :=
  let s := if w.answered then s else (List.range 4).foldl (fun s l => s.laneCrc st (sliceLE r 5 1) l) s
  let fix := (sliceLE r 4 1).testBit 1 && !(sliceLE r 4 1).testBit 2 && !w.fixed
  let s := if fix then s.incSat (Reg.XLK_CNT_MISC st) 15 0 else s
  s.modExp st fun x =>
    { x with waiting := x.waiting.map fun v => if v.k = w.k then { v with answered := true, fixed := v.fixed || fix }
                                               else v }

/-- A valid record answers the frame it names and forms its cause (R264, R265), whatever the link's state. -/
def State.recordCauses (s : State) (st : Nat) (r : List Byte) (faulty : Bool) : State :=
  let conds := s.recordConds st r faulty
  let s := match s.sentFrame st (sliceLE r 2 2) with
    | some w => s.answer st r w
    | none => s
  match conds with
  | c :: _ => s.linkCause st c.2.2.2 c.1 c.2.1 c.2.2.1
  | [] => s

/-- The logical lanes that a record shows to have failed (R261). -/
def State.badLanes (s : State) (st scan : Nat) : List Nat :=
  s.unlocked st ++ if (s.sentFrame st scan).isSome then s.crcLanes st else []

/-- A valid record moves the link (R261). -/
def State.recordMoves (s : State) (st : Nat) (r : List Byte) : State :=
  if s.linkState st = 1 then
    let n := if (s.unlocked st).isEmpty then (s.exps st).locks + 1 else 0
    let s := s.modExp st fun x => { x with locks := n }
    if 16 ≤ n then ((s.enterLink st 2).modExp st fun x => { x with tblDue := true }).sendOwed st else s
  else if s.linkState st = 2 then
    let s := s.sendOwed st
    if s.f (Reg.XLK_STATUS st) 16 12 = 31 then (s.enterLink st 3).xlkIrq st 0 else s
  else if s.linkState st = 3 then (s.badLanes st (sliceLE r 2 2)).foldl (fun s l => s.wantSubst st l) s
  else s

/-- A valid record forms its cause and moves the link (R261, R264, R265). -/
def State.recordLink (s : State) (st : Nat) (r : List Byte) (faulty : Bool) : State :=
  (s.recordCauses st r faulty).recordMoves st r

/-! ### SAFE, registers that read from the state, and resets -/

/-- SAFE entry blanks every station whose link is not OFF (R259); a station that spins up after it is lit anew. -/
def State.expSafe (s : State) : State :=
  (List.range 6).foldl (fun s st =>
    if s.linkState st = 0 then s else (s.blankStation st).modExp st fun x => { x with cont := false }) s

/-- EXP_STATUS as it reads. -/
def State.expStatus (s : State) (st : Nat) : Word :=
  BitVec.ofNat 32 ((if s.noneBound st then 0 else 1) + 2 * s.f (Reg.EXP_STATUS st) 1 1 +
    4 * (s.exps st).bindings.length)

/-- XLK_STATUS as it reads: RC_OK is the age of the last record. -/
def State.xlkStatus (s : State) (st : Nat) : Word :=
  putBits (s.reg (Reg.XLK_STATUS st)) 17 17 (if s.reportCurrent st then 1 else 0)

/-- What a BRST of a station's EXP part does beside its registers (R268). -/
def State.expReset (s : State) (st : Nat) : State :=
  let s := s.modExp st fun x => { x with uses := [], bindings := [], lwDue := [], retire := [], worn := [], unsent := []
                                         sets := x.sets.map fun y => { y with binding := none }
                                         handed := x.handed.map fun y => { y with binding := none } }
  (s.setReleased st (s.nextLn st)).updateCredit st

/-- The station's EXP and XLK parts count as running (R267). -/
def State.expRunning (s : State) (st : Nat) : Bool :=
  s.fb (Reg.EXP_CTRL st) 0 || !(s.exps st).bindings.isEmpty
def State.xlkRunning (s : State) (st : Nat) : Bool := s.linkState st ≠ 0

end Sys2Proof.Machine
end

