-- ==== Sys2Proof/Machine/Foc.lean ====
section
/-!
DEFINITION. The field-oriented motor channels (R270–R299): the PWM period with its loops and latch, channel states,
supply buses, trips, the command pin and engine substitution. What the estimators of R278 and R282 measure (θ, ω and the
tracking error) comes with the command (log entry 32); currents and bus voltages come as the bits of their ΣΔ inputs.
-/

namespace Sys2Proof.Machine

def State.focCh (s : State) (c : Nat) : FocCh := Tab.get {} s.foc.ch c
def State.modCh (s : State) (c : Nat) (g : FocCh → FocCh) : State :=
  { s with foc := { s.foc with ch := Tab.put {} s.foc.ch c (g (s.focCh c)) } }
def State.focBus (s : State) (b : Nat) : FocBus := Tab.get {} s.foc.bus b
def State.modBus (s : State) (b : Nat) (g : FocBus → FocBus) : State :=
  { s with foc := { s.foc with bus := Tab.put {} s.foc.bus b (g (s.focBus b)) } }

/-- FOC, STP, HV, FUS and SNS are in the ACT domain (R34). -/
def State.actOn (s : State) : Bool := s.domOn 14

/-! ### States and faults -/

/-- FOC_STATE.STATE. -/
def fOFF : Nat := 0
def fARMED : Nat := 1
def fCATCH : Nat := 2
def fBRAKE : Nat := 3
def fFIND : Nat := 4
def fSTARTING : Nat := 5
def fRUN : Nat := 6
def fSTOPPING : Nat := 7
def fRETRY : Nat := 8
def fZTC : Nat := 9
def fASC : Nat := 10
def fFAULT : Nat := 11

def State.focState (s : State) (c : Nat) : Nat := s.f (Reg.FOC_STATE c) 3 0

/-- CATCH, BRAKE, FIND, STARTING, RUN, STOPPING or ZTC (R284). -/
def energisedState (n : Nat) : Bool := (2 ≤ n && n ≤ 7) || n == 9
def State.energised (s : State) (c : Nat) : Bool := energisedState (s.focState c)

/-- The bus a channel is on, and its state (R287). -/
def State.busOf (s : State) (c : Nat) : Nat := s.f (Reg.FOC_CFG c) 6 5
def State.busState (s : State) (b : Nat) : Nat := s.f (Reg.FOC_BUS_STATUS b) 2 0

def State.focIrq (s : State) (c i : Nat) : State := s.setB (Reg.FOC_IRQ_STATUS c) i true

/-! ### The bridge (R270, R272, R289) -/

def State.deadTime (s : State) (c : Nat) : Nat := s.f (Reg.FOC_PWM2 c) 15 0

/-- The level of an output at a time, by its edges so far. -/
def levelAt (edges : List PinEdge) (pin : Nat) (t : Tick) : Bool :=
  ((edges.filter fun e => e.pin == pin && e.at' ≤ t).getLast?.map (·.on)).getD false

/-- The edges from `t` on are new ones; of those before, each of the `n` outputs keeps its level. -/
def setEdges (n : Nat) (old new : List PinEdge) (t : Tick) : List PinEdge :=
  ((List.range n).map fun p => { pin := p, at' := t, on := levelAt old p t }) ++ new

/-- Every one of a bridge's `n` switches turns off. -/
def bridgeOff (n : Nat) (t : Tick) : List PinEdge := (List.range n).map fun p => { pin := p, at' := t, on := false }

/-- The active short circuit (R289): the high switches turn off, and each low switch turns on, DEAD ticks after its partner
where that was on. -/
def ascEdges (old : List PinEdge) (dead t : Tick) : List PinEdge :=
  (List.range 3).flatMap fun x =>
    [{ pin := 2 * x, at' := t, on := false },
     { pin := 2 * x + 1, at' := if levelAt old (2 * x) t then t + dead else t, on := true }]

/-- The edges of one phase in the period that begins at `p` (R272): the high switch is on for `h` ticks about the middle,
the low switch for the rest, and each turns on `dead` ticks after the other has turned off (log entry 102). -/
def phaseEdges (p tpwm dead h x : Nat) : List PinEdge :=
  let a := p + tpwm / 2 - h / 2
  let b := a + h
  let hi := fun t on => { pin := 2 * x, at' := t, on := on : PinEdge }
  let lo := fun t on => { pin := 2 * x + 1, at' := t, on := on : PinEdge }
  if h = 0 then [hi p false, lo (p + dead) true]
  else
    (if a = p then [] else [hi p false]) ++
    (if p + dead < a - dead then [lo (p + dead) true, lo (a - dead) false] else [lo p false]) ++
    (if max a (p + dead) < b then [hi (max a (p + dead)) true] else []) ++
    (if b < p + tpwm then [hi b false] else []) ++
    (if b + dead < p + tpwm then [lo (b + dead) true] else [])

/-- The edges of a period with the on-times in force. -/
def periodEdges (p tpwm dead : Nat) (d : Nat × Nat × Nat) : List PinEdge :=
  phaseEdges p tpwm dead d.1 0 ++ phaseEdges p tpwm dead d.2.1 1 ++ phaseEdges p tpwm dead d.2.2 2

/-- A pulse of the zero voltage vector in CATCH (R282): the low switches for TPWM ÷ 16. -/
def zeroPulse (p tpwm : Nat) : List PinEdge :=
  (List.range 3).flatMap fun x =>
    [{ pin := 2 * x + 1, at' := p, on := true }, { pin := 2 * x + 1, at' := p + tpwm / 16, on := false }]

/-- The level of a bridge output (R270). -/
def State.focBall (s : State) (c pin : Nat) : Option Bool := s.ball 14 (levelAt (s.focCh c).edges pin s.clk.tb) false

/-- The level of a brake chopper output (R270). -/
def State.brkBall (s : State) (b : Nat) : Option Bool := s.ball 14 (s.focBus b).brk false

/-- The ticks of one period of a channel's SDCK (R273). -/
def State.sdck (s : State) (c : Nat) : Nat := if s.fb (Reg.FOC_SD c) 0 then 640 else 320

/-- A bridge turns off, or shorts its windings, at the entry to a state (R284, R287–R289); the states that switch keep
what the period has begun. -/
def bridgeFor (n dead t : Nat) (old : List PinEdge) : List PinEdge :=
  if energisedState n then old else setEdges 6 old (if n = fASC then ascEdges old dead t else bridgeOff 6 t) t

/-- Enter a state: OFF and FAULT end manual motion (R47), and a start attempt counts from the entry to FIND, which begins
with a pair of polarity pulses of open length and height (R278, R283; log entry 103). -/
def State.enterFoc (s : State) (c n : Nat) : State :=
  let s := s.setF (Reg.FOC_STATE c) 3 0 n
  let s := if n = fOFF || n = fFAULT then s.setB Reg.SYS_SVC_MOTION c false else s
  let s := if n = fRUN then s.focIrq c 5 else s
  let s := if n = fFIND then s.setF (Reg.FOC_STATE c) 19 16 (min 15 ((s.focCh c).attempts + 1)) else s
  let (u, s) := if n = fFIND then s.takeFresh else (0, s)
  s.modCh c fun x =>
    let x := { x with count := 0, caught := false, edges := bridgeFor n (s.deadTime c) s.clk.tb x.edges }
    let x := if energisedState n && n ≠ fCATCH then x
      else { x with duty := none, dutyNext := none, intD := 0, intQ := 0, intW := 0 }
    let x := if n = fFIND then
        { x with attempts := x.attempts + 1, attemptAt := s.clk.tb, moved := 0, ramp := 0
                 polarLen := Config.freeNat u % 2 ^ 16 + 1, polarLeft := 2 * (Config.freeNat u % 2 ^ 16 + 1)
                 polarV := (Config.freeNat u / 2 ^ 16 % 32768 : Nat) * 2 ^ 36 }
      else x
    if n = fRETRY then { x with retryAt := s.clk.tb } else x

/-- The MOTION claim of a sheet on an axis, while its window has not ended. -/
def State.motionClaim (s : State) (axis : Nat) (sh : Sheet) : Option Nat :=
  sh.claims.findIdx? fun c => c.kind == kMOTION && c.unit == axis && s.clk.tb < sh.origin + c.winEnd

/-- AXIS_FAULT for every sheet with a MOTION claim on the axis whose window has not ended (R294). -/
def State.axisFault (s : State) (axis : Nat) : State := s.causeWhere cAXIS_FAULT fun _ sh => s.motionClaim axis sh

/-- AXIS_FAULT for the sheet whose action delivered what the channel refused (R294, R326): for every sheet that holds the
claim, where the claim is SHARED. -/
def State.axisFaultBy (s : State) (h : Option Nat) (axis : Nat) : State :=
  match h with
  | none => s
  | some h => match s.sheet (h % 128) with
    | none => s
    | some sh => match s.motionClaim axis sh with
      | none => s
      | some i =>
        if (sh.claims[i]?.map (·.shared)).getD false then s.axisFault axis else s.causeH h cAXIS_FAULT i

/-- Enter FAULT with a code: the bridge is off, and sheets on the axis receive the cause (R284, R294). -/
def State.focFault (s : State) (c code : Nat) : State :=
  (((s.setF (Reg.FOC_STATE c) 15 12 code).enterFoc c fFAULT).focIrq c 0).axisFault c

/-- RESULT REFUSED with a reason, and event REFUSED (R281, R285); `by'` is the sheet whose action it was. -/
def State.focRefuse (s : State) (c reason : Nat) (by' : Option Nat) : State :=
  let s := (s.setF (Reg.FOC_STATE c) 7 5 2).setF (Reg.FOC_STATE c) 11 8 reason
  ((s.focIrq c 3).raise srcFOC 4).axisFaultBy by' c

/-- Refusal reasons of FOC_STATE.REFUSE. -/
def rfREVERSE : Nat := 1
def rfBUS : Nat := 2
def rfFAULT : Nat := 3
def rfPARAM : Nat := 4
def rfSUPERSEDED : Nat := 5
def rfSOURCE : Nat := 6
def rfSAFE : Nat := 7

/-! ### Parameters -/

def State.tpwm (s : State) (c : Nat) : Nat := s.f (Reg.FOC_PWM c) 20 0

/-- TPWM is valid (R272). -/
def State.tpwmOk (s : State) (c : Nat) : Bool :=
  s.tpwm c % 64 == 0 && 64000 ≤ s.tpwm c && s.tpwm c ≤ 1280000

def State.vUV (s : State) (b : Nat) : Nat := s.f (Reg.FOC_BUS_V1 b) 15 0
def State.vChop (s : State) (b : Nat) : Nat := s.f (Reg.FOC_BUS_V1 b) 31 16
def State.vReg (s : State) (b : Nat) : Nat := s.f (Reg.FOC_BUS_V2 b) 15 0
def State.vAbs (s : State) (b : Nat) : Nat := s.f (Reg.FOC_BUS_V2 b) 31 16
def State.vBus (s : State) (b : Nat) : Nat := s.f (Reg.FOC_BUS_STATUS b) 31 16

/-- VUV < VCHOP < VREG < VABS (R286). -/
def State.busOrdered (s : State) (b : Nat) : Bool := s.vUV b < s.vChop b && s.vChop b < s.vReg b && s.vReg b < s.vAbs b

def State.omega (s : State) (c : Nat) : Int := toSigned 32 (s.reg (Reg.FOC_SPEED c)).toNat
def State.speedMode (s : State) (c : Nat) : Bool := s.fb (Reg.FOC_CFG c) 0
def State.catchMin (s : State) (c : Nat) : Nat := s.f (Reg.FOC_CATCH c) 23 0
def State.revSpd (s : State) (c : Nat) : Nat := s.f (Reg.FOC_REV c) 23 0
def State.guarded (s : State) (c : Nat) : Bool := s.fb (Reg.FOC_CFG c) 12

/-- The pin mode in force: 0 none, 1 ANALOG, 2 DUTY, 3 FREQ (R291). -/
def State.pinMode (s : State) (c : Nat) : Nat :=
  match s.f (Reg.FOC_CFG c) 3 1 with
  | 1 => 1
  | 2 => 2
  | 3 => 3
  | 4 => if s.limit then 0 else s.f Reg.FOC_GCFG 1 0
  | _ => 0

/-- F of a command pin: the analogue channel's code, or the last measured fraction (R291). -/
def State.pinF (s : State) (c : Nat) : Nat :=
  if s.pinMode c = 1 then min 0xFFFF (s.f (Reg.SNS_AN (48 + c)) 11 0 * 65536 / 4095)
  else s.f (Reg.FOC_PIN_VAL c) 15 0

/-- The reference of a command pin: ±F × PIN_FS, rounded; 0xFFFF stands for F = 1. -/
def State.pinRef (s : State) (c : Nat) : Int :=
  let f := if s.pinF c = 0xFFFF then 0x10000 else s.pinF c
  let v := roundUpDiv (f * s.f (Reg.FOC_PIN_FS c) 23 0 : Nat) 65536
  if s.fb (Reg.FOC_CFG c) 15 then -v else v

/-! ### The command latch (R280, R281, R285) -/

/-- The reference in use: a speed in SPEED mode, a current in TORQUE mode. -/
def State.refInUse (s : State) (c : Nat) : Int := if s.speedMode c then (s.focCh c).spdRef else (s.focCh c).iqRef

/-- Why a START is refused (R281); a channel in FAULT, ZTC or ASC refuses it with FAULT whatever its bus (R289). -/
def State.startRefused (s : State) (c : Nat) : Option Nat :=
  let b := s.busOf c
  let st := s.focState c
  if st = fFAULT || st = fZTC || st = fASC then some rfFAULT
  else if 2 ≤ s.busState b then some rfBUS
  else if s.f (Reg.FOC_ISCALE c) 15 0 = 0 || s.af (Reg.FOC_ILIM c) 15 0 = 0 || s.f (Reg.FOC_OBS c) 23 0 = 0 ||
     !s.tpwmOk c || !s.busOrdered b then some rfPARAM
  else if s.mode == .safe && s.f (Reg.FOC_CFG c) 14 13 ≠ 1 then some rfSAFE
  else none

/-- A start goes to CATCH: its sense and the reference it starts with are noted (R281, R285). -/
def State.beginCatch (s : State) (c : Nat) : State :=
  (s.modCh c fun x => { x with neg := s.refInUse c < 0, spdOk := x.spdRef }).enterFoc c fCATCH

/-- A latched START (R281, R284). -/
def State.latchStart (s : State) (c : Nat) (q : FocReq) : State :=
  let st := s.focState c
  if st = fOFF || st = fSTOPPING || st = fFAULT || st = fZTC || st = fASC then
    match s.startRefused c with
    | some r => s.focRefuse c r q.handle
    | none =>
      let s := (s.setF (Reg.FOC_STATE c) 7 5 1).modCh c fun x => { x with startBy := some q }
      let s := if s.mode == .service then s.setB Reg.SYS_SVC_MOTION c true else s
      if st = fSTOPPING then s.enterFoc c fRUN
      else
        let s := (s.setF (Reg.FOC_STATE c) 19 16 0).modCh c fun x => { x with attempts := 0 }
        if s.refInUse c = 0 then s.enterFoc c fARMED else s.beginCatch c
  else s

/-- Enter STOPPING: ω_r ramps to 0 from where it is in RUN in SPEED mode, and from ω otherwise (R284, R292). -/
def State.enterStopping (s : State) (c : Nat) : State :=
  let keep := s.speedMode c && s.focState c = fRUN
  (s.modCh c fun x => if keep then x else { x with ramp := s.omega c * 6400000 }).enterFoc c fSTOPPING

/-- A latched STOP (R284). -/
def State.latchStop (s : State) (c : Nat) : State :=
  let st := s.focState c
  if st = fRUN then s.enterStopping c
  else if st = fBRAKE || st = fFIND || st = fSTARTING || st = fRETRY || st = fARMED then s.enterFoc c fOFF
  else s

/-- The speed reference that a latch brings, or none where it brings nothing new to a channel that its guard watches: a
write that waits (R16), or the pin; elsewhere what the register holds. -/
def State.newSpeed (s : State) (c : Nat) : Option Int :=
  if s.pinMode c ≠ 0 && s.speedMode c then some (s.pinRef c)
  else
    let a := Reg.FOC_SPD_REF c
    let watched := s.speedMode c && s.guarded c && (s.focState c = fSTARTING || s.focState c = fRUN)
    if watched && !(s.held.any fun p => p.1 == a && p.2.stamp ≠ s.clk.tb) then none
    else some (toSigned 32 (bits ((s.applyS a).applied a) 31 0))

/-- The speed reference reverses a channel that its guard watches (R285). -/
def State.reverses (s : State) (c : Nat) (spd : Int) : Bool :=
  s.speedMode c && s.guarded c && (s.focState c = fSTARTING || s.focState c = fRUN) && spd ≠ (s.focCh c).spdOk &&
    decide (spd * s.omega c < 0) && decide (s.revSpd c ≤ (s.omega c).natAbs)

/-- The references are taken into use; a reversal that R285 refuses leaves in force the reference before it. -/
def State.latchRefs (s : State) (c : Nat) : State :=
  let spd := (s.newSpeed c).getD (s.focCh c).spdRef
  let refused := s.reverses c spd
  let s := s.applyAll [Reg.FOC_IQ_REF c, Reg.FOC_SPD_REF c, Reg.FOC_ID_REF c]
  let pin := s.pinMode c ≠ 0
  let s := if pin then s.setF (Reg.FOC_PIN_VAL c) 15 0 (s.pinF c) else s
  let iq := if pin && !s.speedMode c then s.pinRef c else toSigned 16 (s.af (Reg.FOC_IQ_REF c) 15 0)
  let id' := toSigned 16 (s.af (Reg.FOC_ID_REF c) 15 0)
  let runs := s.focState c = fSTARTING || s.focState c = fRUN
  let by' := (s.focCh c).refBy
  let s := s.modCh c fun x =>
    let v := if refused then x.spdOk else spd
    { x with iqRef := iq, idRef := id', spdRef := v, spdOk := if runs then v else x.spdOk, refBy := none }
  if refused then s.focRefuse c rfREVERSE (by'.bind (·.handle)) else s

/-- The speed that commands have given a channel (R80): 0 while it is off or stopping, none in TORQUE mode. -/
def State.focCommanded (s : State) (c : Nat) : Option Int :=
  let st := s.focState c
  if st = fOFF || st = fARMED || st = fSTOPPING || fZTC ≤ st then some 0
  else if s.speedMode c then some (s.focCh c).spdRef
  else none

/-- The spoil actions `by'` have brought a channel from its commanded speed `before` to another (R80). -/
def State.focShared (s : State) (c : Nat) (before : Option Int) (by' : List Nat) : State :=
  if s.focCommanded c = before then s else by'.foldl (fun s k => s.sharedResource k c) s

/-- The latch: references, then STOP before START; a START with a STOP is refused (R280, R295). -/
def State.latchCmds (s : State) (c : Nat) : State :=
  let s := s.latchRefs c
  let x := s.focCh c
  let s := s.modCh c fun x => { x with startReq := none, stopReq := none }
  let s := if x.stopReq.isSome then s.latchStop c else s
  let s := match x.startReq with
    | some q => if x.stopReq.isSome then s.focRefuse c rfSUPERSEDED q.handle else s.latchStart c q
    | none => s
  if s.focState c = fARMED && s.refInUse c ≠ 0 then s.beginCatch c else s

/-- The latch, with what it means for other sheets (R80). -/
def State.latchCh (s : State) (c : Nat) : State :=
  let x := s.focCh c
  (s.latchCmds c).focShared c (s.focCommanded c)
    ([x.refBy, x.stopReq, x.startReq].filterMap fun q => q.bind (·.spoil))

/-- P_n is a latch of the profile (R280). -/
def State.latchDue (s : State) (c t : Nat) : Bool := s.limit || t % 6400000 < s.tpwm c

/-! ### Estimates (R277, R278) -/

/-- ω from the SCN push, while a station that feeds the channel is in ACQUIRE or LOCKED (R201, R277). -/
def State.scnOmega (s : State) (c : Nat) : Option Int :=
  if !s.fb (Reg.FOC_CFG c) 4 then none
  else (List.range 6).findSome? fun st =>
    if s.fb (Reg.SCN_CTRL st) 2 && s.f (Reg.SCN_CFG st) 7 4 == c && 2 ≤ s.scnState st then
      (s.scns st).feed.bind fun tf =>
        let n : Int := s.facets st * floorDiv tf (2 ^ 20)
        if 0 < n then some (roundUpDiv 61440000000000 n) else none
    else none

/-- θ, ω and the source of the angle for this period (R277, R278, R283); ZTC keeps the observer in use (R289). -/
def State.estimate (s : State) (c : Nat) (theta : Nat) (omega : Int) : State :=
  let w := (s.scnOmega c).getD omega
  let s := s.setReg (Reg.FOC_SPEED c) (wordOfInt w)
  let s := s.setF (Reg.FOC_ANGLE c) 15 0 theta
  let mn := s.f (Reg.FOC_OBS c) 23 0
  let hy := s.f (Reg.FOC_OBS c) 31 24
  let s := if s.focState c = fZTC || mn * (256 + hy) ≤ w.natAbs * 256 then s.setB (Reg.FOC_STATE c) 4 true
    else if w.natAbs < mn then s.setB (Reg.FOC_STATE c) 4 false else s
  s.modCh c fun x => { x with theta := theta, moved := x.moved + toSigned 16 (theta + 65536 - x.theta) }

/-! ### Ramp and loops (R274–R276, R279, R286) -/

/-- The period's step of ω_r toward a target, in units of 1 ÷ 6,400,000: at ACC while |ω_r| rises and at DEC while it
falls, through zero on a reversal; `hold` stops a fall (R279, R286). -/
def rampStep (r target up down : Int) (hold : Bool) : Int :=
  let falling := (0 < r && target < r) || (r < 0 && r < target)
  if falling then
    if hold then r
    else if 0 < r then max (max target 0) (r - down) else min (min target 0) (r + down)
  else if r < target then min target (r + up)
  else if target < r then max target (r - up)
  else r

/-- The greatest integer n with n × √3 × den ≤ num. -/
def floorSqrt3 (num : Int) (den : Nat) : Int :=
  let q := isqrt (num.natAbs ^ 2 / (3 * den ^ 2))
  if 0 ≤ num then q else -((q : Int) + 1)

/-- h_x of R276 before dead-time compensation, for v_x − m in units of 2^−37 of R275. -/
def onTime (tpwm : Nat) (v2 : Int) : Int := floorDiv (tpwm + 1 + floorSqrt3 (2 * tpwm * v2) (2 ^ 37 * 32768)) 2

/-- The minimum pulse of R272. -/
def minPulse (tpwm minp n : Nat) : Nat := if n < minp then 0 else if tpwm - n < minp then tpwm else n

/-- Dead-time compensation, the limits of R276 and the minimum pulse of R272. -/
def State.shapePulse (s : State) (c : Nat) (h i : Int) : Nat :=
  let dead : Int := s.deadTime c
  let h := if 0 < i then h + dead else if i < 0 then h - dead else h
  minPulse (s.tpwm c) (s.f (Reg.FOC_PWM2 c) 31 16) (clampInt 0 (s.tpwm c) h).toNat

/-- The current references of this period in 2^−20 current units: i_d and i_q, with I_ω (R279, R286, R289). -/
def State.currentRefs (s : State) (c : Nat) : Int × Int × Int :=
  let x := s.focCh c
  let st := s.focState c
  let lim : Int := s.af (Reg.FOC_ILIM c) 15 0 * 2 ^ 20
  if st = fZTC then (0, 0, x.intW)
  else
    let w := s.omega c
    let b := s.focBus (s.busOf c)
    let speed := s.speedMode c || st = fSTOPPING || st = fBRAKE
    let kp : Int := s.af (Reg.FOC_SPD_GAIN c) 15 0
    let ki : Int := s.af (Reg.FOC_SPD_GAIN c) 31 16
    -- e_ω in units of 1 ÷ 6,400,000, carried to 2^−20 current units by floor
    let e := x.ramp - w * 6400000
    let raw := if speed then floorDiv (kp * e * 2 ^ 8) 6400000 + x.intW else x.iqRef * 2 ^ 20
    let iq := clampInt (-lim) lim raw
    let hold := b.restrict || iq ≠ raw
    let intW := if speed && !hold then x.intW + floorDiv (ki * e) 6400000 else x.intW
    let iq := if b.restrict && iq * w < 0 then 0 else iq
    (x.idRef * 2 ^ 20, iq, intW)

/-- 1 ÷ √3 in units of 2^−40. -/
def invSqrt3 : Int := isqrt (2 ^ 80 / 3)

/-- The Clarke and Park transforms (R274): i_d and i_q in 2^−20 current units, the amplitude kept, with what their rounding
adds limited to 2^−14 current units (log entry 31). -/
def park (iu iv : Int) (theta : Nat) : Int × Int :=
  let a := iu
  let b := floorDiv ((iu + 2 * iv) * invSqrt3) (2 ^ 40)
  let e := Config.parkError iu iv theta
  (floorDiv (a * cosine theta + b * sine theta) (2 ^ 40) + clampInt (-64) 64 e.1,
   floorDiv (b * cosine theta - a * sine theta) (2 ^ 40) + clampInt (-64) 64 e.2)

/-- The inverse transforms (R274): v_U, v_V and v_W in 2^−36 units of R275, with what their rounding adds limited to 2^−12
of those units (log entry 31). -/
def parkInv (vd vq : Int) (theta : Nat) : Int × Int × Int :=
  let a := floorDiv (vd * cosine theta - vq * sine theta) (2 ^ 40)
  let b := floorDiv (vd * sine theta + vq * cosine theta) (2 ^ 40)
  let r := floorDiv (3 * b * invSqrt3) (2 ^ 40)
  let e := Config.parkInvError vd vq theta
  let lim := clampInt (-(2 ^ 24)) (2 ^ 24)
  (a + lim e.1, floorDiv (r - a) 2 + lim e.2.1, floorDiv (-r - a) 2 + lim e.2.2)

/-- The oversampling ratio of a channel's current filters (R273). -/
def State.sdOsr (s : State) (c : Nat) : Nat := 32 * 2 ^ s.f (Reg.FOC_SD c) 2 1

/-- A current from the bits of a ΣΔ input by a sinc3 filter of ratio `m` (R273, R305), in 2^−20 current units: full scale
is 32,768 units. -/
def sdCurrent (m : Nat) (sd : BitVec 766) : Int := sinc3 m sd * (2 ^ 35 / m ^ 3 : Nat)

/-- A phase current of a period from the bits about P_n (R273). -/
def State.phaseCurrent (s : State) (c : Nat) (inv : Nat) (sd : BitVec 766) : Int :=
  let i := sdCurrent (s.sdOsr c) sd
  if s.fb (Reg.FOC_SD c) inv then -i else i

/-- Steps 1 and 2 of R274: the currents of the period, shown in FOC_MEAS_I. -/
def State.measure (s : State) (c : Nat) (iu iv : Int) : State :=
  let i := park iu iv (s.focCh c).theta
  s.setReg (Reg.FOC_MEAS_I c) (BitVec.ofNat 32
    (fromSigned 16 (floorDiv i.1 (2 ^ 20)) + 2 ^ 16 * fromSigned 16 (floorDiv i.2 (2 ^ 20))))

/-- The voltages that R278 adds on the d axis: the injection, and in FIND the pair of polarity pulses before it. -/
def State.injected (s : State) (c : Nat) : Int :=
  let x := s.focCh c
  let amp : Int := s.f (Reg.FOC_HFI c) 7 0 * 128 * 2 ^ 36
  if s.focState c = fFIND && 0 < x.polarLeft then (if x.polarLen < x.polarLeft then x.polarV else -x.polarV)
  else if s.fb (Reg.FOC_STATE c) 4 then 0
  else if x.hfi then amp else -amp

/-- Steps 3–6 of R274 for a channel that switches: the duties of the next period. The current loop is closed from STARTING
on; in FIND only the voltages of R278 are applied (R284). -/
def State.runLoop (s : State) (c : Nat) (iu iv : Int) : State :=
  let x := s.focCh c
  let (id', iq) := park iu iv x.theta
  let (rd, rq, intW) := s.currentRefs c
  let kp : Int := s.af (Reg.FOC_CUR_GAIN c) 15 0
  let ki : Int := s.af (Reg.FOC_CUR_GAIN c) 31 16
  let find := s.focState c = fFIND
  let vd0 := (if find then 0 else kp * (rd - id') * 2 ^ 8 + x.intD) + s.injected c
  let vq0 := if find then 0 else kp * (rq - iq) * 2 ^ 8 + x.intQ
  let top : Int := 32767 * 2 ^ 36
  let ovr := decide (top ^ 2 < vd0 ^ 2 + vq0 ^ 2)
  let vd := if ovr then clampInt (-top) top vd0 else vd0
  let vq := if ovr then (let m : Int := isqrt (top ^ 2 - vd ^ 2).toNat; clampInt (-m) m vq0) else vq0
  let s := if ovr then s.incSat (Reg.FOC_CNT c) 31 16 else s
  let (vu, vv, vw) := parkInv vd vq x.theta
  let mm := max vu (max vv vw) + min vu (min vv vw)
  let h := fun v i => s.shapePulse c (onTime (s.tpwm c) (2 * v - mm)) i
  let next := (h vu iu, h vv iv, h vw (-(iu + iv)))
  let s := s.setF (Reg.FOC_ANGLE c) 31 16 (isqrt (vd ^ 2 + vq ^ 2).toNat / 2 ^ 36)
  let hold := ovr || find
  s.modCh c fun x => { x with intD := if hold then x.intD else x.intD + ki * (rd - id')
                              intQ := if hold then x.intQ else x.intQ + ki * (rq - iq)
                              intW := if find then x.intW else intW, duty := x.dutyNext, dutyNext := some next, hfi := !x.hfi
                              polarLeft := x.polarLeft - 1 }

/-- The bridge switches in the period that begins now, with the duties in force (R272); before the first are in force, it
is off. -/
def State.switchPeriod (s : State) (c : Nat) : State :=
  s.modCh c fun x =>
    { x with edges := setEdges 6 x.edges (match x.duty with
        | some d => periodEdges s.clk.tb (s.tpwm c) (s.deadTime c) d
        | none => bridgeOff 6 s.clk.tb) s.clk.tb }

/-- A period of CATCH (R282): the pulses end early once a phase current has passed IOC ÷ 2 (log entry 103). -/
def State.catchPeriod (s : State) (c : Nat) (iu iv : Int) : State :=
  let ioc : Int := s.f (Reg.FOC_ISCALE c) 31 16 * 2 ^ 20
  let far := [iu, iv, iu + iv].any fun i => decide (ioc < 2 * (i.natAbs : Int))
  s.modCh c fun x =>
    let x := { x with caught := x.caught || (far && decide (0 < x.count)) }
    { x with count := x.count + 1
             edges := setEdges 6 x.edges (if x.caught then bridgeOff 6 s.clk.tb else zeroPulse s.clk.tb (s.tpwm c)) s.clk.tb }

/-- The ramp of this period (R279, R284, R286); the speed loop is open in FIND. -/
def State.runRamp (s : State) (c : Nat) : State :=
  let st := s.focState c
  if st = fFIND then s else
  let target := if st = fSTOPPING || st = fBRAKE then 0 else (s.focCh c).spdRef * 6400000
  let up : Int := s.af (Reg.FOC_RAMP c) 15 0 * s.tpwm c
  let down : Int := s.af (Reg.FOC_RAMP c) 31 16 * s.tpwm c
  s.modCh c fun x => { x with ramp := rampStep x.ramp target up down (s.focBus (s.busOf c)).restrict }

/-! ### State changes at a period (R282–R284, R289) -/

/-- A start attempt fails (R283). -/
def State.attemptFails (s : State) (c : Nat) : State :=
  let s := s.incSat (Reg.FOC_CNT c) 7 0
  if s.f (Reg.FOC_START c) 3 0 < (s.focCh c).attempts then (s.focFault c 1).raise srcFOC 0
  else s.enterFoc c fRETRY

/-- The decision after CATCH (R282). -/
def State.catchDone (s : State) (c : Nat) : State :=
  let w := s.omega c
  let same := (0 < w && !(s.focCh c).neg) || (w < 0 && (s.focCh c).neg)
  if w.natAbs < s.catchMin c then s.enterFoc c fFIND
  else if same || w = 0 then (s.modCh c fun x => { x with ramp := w * 6400000 }).enterFoc c fRUN
  else if s.guarded c && s.revSpd c ≤ w.natAbs then (s.focRefuse c rfREVERSE ((s.focCh c).startBy.bind (·.handle))).enterFoc c fOFF
  else (s.modCh c fun x => { x with ramp := w * 6400000 }).enterFoc c fBRAKE

/-- The estimated angle has moved too far against the start's sense (R283). -/
def State.movedBack (s : State) (c : Nat) : Bool :=
  let m := if (s.focCh c).neg then (s.focCh c).moved else -(s.focCh c).moved
  (s.f (Reg.FOC_START c) 8 4 * 65536 : Int) < m * 360

/-- What the state of a channel becomes at P_n; CATCH ends once its 16 periods are over. -/
def State.advanceCh (s : State) (c err : Nat) : State :=
  let st := s.focState c
  let w := (s.omega c).natAbs
  let n := (s.focCh c).count + 1
  if st = fCATCH then (if (s.focCh c).count < 16 then s else s.catchDone c)
  else if st = fBRAKE then (if w < s.catchMin c then s.enterFoc c fFIND else s)
  else if st = fFIND then
    if s.movedBack c then s.attemptFails c
    else if 364 ≤ err || 0 < (s.focCh c).polarLeft then s.modCh c fun x => { x with count := 0 }
    else if n < 16 then s.modCh c fun x => { x with count := n }
    else s.enterFoc c fSTARTING
  else if st = fSTARTING then
    if s.movedBack c then s.attemptFails c
    else if s.fb (Reg.FOC_STATE c) 4 then (s.modCh c fun x => { x with ramp := s.omega c * 6400000 }).enterFoc c fRUN
    else s
  else if st = fSTOPPING then (if w < s.f (Reg.FOC_STOPSPD c) 23 0 then s.enterFoc c fOFF else s)
  else if st = fZTC then (if w < s.f (Reg.FOC_STOPSPD c) 23 0 then s.focFault c 5 else s)
  else if st = fASC then (if w < s.f (Reg.FOC_ASC c) 23 0 then s.focFault c 6 else s)
  else s

/-! ### Commands -/

/-- START waits for the latch (R280); a second one before the latch is the same latched value
(DEDUCED, log entry 112). -/
def State.focStart (s : State) (c : Nat) (q : FocReq) : State := s.modCh c fun x => { x with startReq := some q }
/-- STOP waits for the latch as START does (R280, R284; DEDUCED, log entry 112). -/
def State.focStop (s : State) (c : Nat) (q : FocReq) : State := s.modCh c fun x => { x with stopReq := some q }

/-- COAST acts at once (R284). -/
def State.focCoast (s : State) (c : Nat) : State :=
  let st := s.focState c
  if s.energised c || st = fARMED || st = fRETRY then s.enterFoc c fOFF else s

/-- CLEAR leaves FAULT when the bus allows it (R284). -/
def State.focClear (s : State) (c : Nat) : State :=
  if s.focState c ≠ fFAULT then s
  else if s.busState (s.busOf c) ≤ 1 then (s.setF (Reg.FOC_STATE c) 15 12 0).enterFoc c fOFF
  else s.focRefuse c rfBUS none

/-- What delivered a command: action of entry k, with handle h. -/
def focReqOf (k h : Nat) (a : Armed) : FocReq :=
  { handle := some h, spoil := if a.list == .spoil then some k else none }

/-- COAST by a Timetable action: a spoil action that changes the commanded speed tells the other sheets (R80). -/
def State.ttCoast (s : State) (c : Nat) (q : FocReq) : State := (s.focCoast c).focShared c (s.focCommanded c) q.spoil.toList

/-- Take a Timetable action of FOC: carried out by `g` on the channel and reported (R293). -/
def State.focAction (s : State) (k i cmd : Nat) (g : State → Nat → FocReq → Armed → State) : State :=
  match s.take k i (fun a => isCmd 0x0E cmd a && a.unit ≤ 15 && s.actOn) with
  | .notDue => s
  | .skipped s' => s'
  | .run a s => g (s.report k i s.clk.tb) a.act.unit (focReqOf k (s.handle k) a) a

/-- A reference written by a Timetable command: refused with SOURCE where CMD_SRC names a pin (R293); where PROFILE gives
the pin in CABINET it is stored and not used (R220). -/
def State.ttRef (s : State) (c : Nat) (q : FocReq) (a v : Nat) : State :=
  if s.pinMode c ≠ 0 && s.f (Reg.FOC_CFG c) 3 1 ≠ 4 then s.focRefuse c rfSOURCE q.handle
  else (s.hold a (BitVec.ofNat 32 v)).modCh c fun x => { x with refBy := some q, ttAt := some (a, s.clk.tb) }

/-- A write of a reference register by firmware or a commit: at the edge of a Timetable write of it, that one stands
(R295). -/
def State.focRefWrite (s : State) (c a : Nat) (w : Word) : State :=
  if (s.focCh c).ttAt = some (a, s.clk.tb) then s else s.hold a w

/-- 10 ms in ticks. -/
def cs : Nat := 64000000

/-! ### The supply buses (R286, R287, R289) -/

/-- The channels of a bus. -/
def State.busChannels (s : State) (b : Nat) : List Nat := (List.range 16).filter fun c => s.busOf c == b

/-- A bus enters a state (R287). -/
def State.enterBus (s : State) (b n : Nat) : State :=
  let s := s.setF (Reg.FOC_BUS_STATUS b) 2 0 n
  if 2 ≤ n then s.setB (Reg.FOC_BUS_STATUS b) 3 true else s

/-- The brake chopper of a bus (R287). -/
def State.setBrk (s : State) (b : Nat) (on : Bool) : State := s.modBus b fun x => { x with brk := on }

/-- An energised channel enters ZTC (R289). -/
def State.enterZtc (s : State) (c : Nat) : State :=
  if s.energised c && s.focState c ≠ fZTC then ((s.enterFoc c fZTC).focIrq c 1).axisFault c else s

/-- CHOP_FAULT (R287). -/
def State.chopFault (s : State) (b : Nat) : State :=
  let s := (s.enterBus b 2).incSat (Reg.FOC_BUS_CNT b) 31 16
  let s := (s.raise srcFOC 2).modBus b fun x => { x with chopAt := none }
  (s.busChannels b).foldl State.enterZtc s

/-- A channel at the entry of its bus to LIMIT (R289). -/
def State.limitCh (s : State) (c : Nat) : State :=
  if !s.energised c then s
  else if s.f (Reg.FOC_ASC c) 23 0 ≤ (s.omega c).natAbs then
    (((s.enterFoc c fASC).focIrq c 2).incSat (Reg.FOC_CNT c) 15 8).axisFault c
  else s.focFault c 6

/-- LIMIT (R287, R289). -/
def State.busLimit (s : State) (b : Nat) : State :=
  let s := ((s.enterBus b 3).setBrk b true).raise srcFOC 3
  (s.busChannels b).foldl State.limitCh (s.modBus b fun x => { x with chopAt := none })

/-- UNDERVOLT (R287). -/
def State.busUnder (s : State) (b : Nat) : State :=
  let s := ((s.enterBus b 4).setBrk b false).modBus b fun x => { x with chopAt := none }
  (s.busChannels b).foldl (fun s c => if s.energised c then s.focFault c 4 else s) s

/-- The bus ladder at a sample (R287); the absolute limit comes before the chopper (log entry 33). -/
def State.busLadder (s : State) (b v : Nat) : State :=
  let st := s.busState b
  let hy := s.f (Reg.FOC_BUS_CHOP b) 15 0
  if st ≤ 2 && s.vAbs b ≤ v then s.busLimit b
  else if st ≤ 1 && v < s.vUV b then s.busUnder b
  else if st = 0 && s.vChop b ≤ v then
    if s.fb (Reg.FOC_BUS_CFG b) 0 then
      let s := ((s.enterBus b 1).setBrk b true).incSat (Reg.FOC_BUS_CNT b) 15 0
      s.modBus b fun x => { x with v0 := v, chopAt := some s.clk.tb }
    else s.chopFault b
  else if st = 1 && v + hy < s.vChop b then ((s.enterBus b 0).setBrk b false).modBus b fun x => { x with chopAt := none }
  else if st = 2 && v + hy < s.vChop b then s.setBrk b false
  else if st = 4 && s.vUV b + hy ≤ v then s.enterBus b 0
  else s

/-- BUS_CLEAR (R287). -/
def State.busClear (s : State) (b : Nat) : State :=
  if (s.busState b = 2 ∨ s.busState b = 3) ∧ s.vBus b < s.vReg b then (s.enterBus b 0).setBrk b false else s

/-! ### Trips (R288) -/

/-- A trip raises event FAULT, and from any energised state the channel enters FAULT. -/
def State.focTrip (s : State) (c code : Nat) : State :=
  if !s.actOn then s else (if s.energised c then s.focFault c code else s).raise srcFOC 1

/-- A phase current beyond IOC, by the sinc2 filters of ratio 16: full scale is 32,768 current units. -/
def State.beyondIoc (s : State) (c : Nat) (sdu sdv : BitVec 31) : Bool :=
  let cur := fun (inv : Nat) (sd : BitVec 31) =>
    if s.fb (Reg.FOC_SD c) inv then -(sinc2 16 sd * 128) else sinc2 16 sd * 128
  let iu := cur 3 sdu
  let iv := cur 4 sdv
  [iu, iv, iu + iv].any fun i => decide (s.f (Reg.FOC_ISCALE c) 31 16 < i.natAbs)

/-- 64 cycles of a ΣΔ input without a transition. -/
def silent (sd : BitVec 64) : Bool := sd == 0 || sd == BitVec.allOnes 64

/-! ### Bus samples (R286) -/

/-- The interval between bus samples: 32 periods of the SDCK of channel 4b. -/
def State.busInterval (s : State) (b : Nat) : Nat := 32 * s.sdck (4 * b)

/-- A sample of a bus is due. -/
def State.sampleDue (s : State) (b : Nat) : Bool :=
  (s.focBus b).sampleAt.all fun t0 => decide (t0 + s.busInterval b ≤ s.clk.tb)

/-- A bus voltage in units of 10 mV from the bits of BUSSD: full scale is FOC_BUS_CFG.SCALE. The spec states no rounding
and no voltage for a negative sum: open values (log entry 3). -/
def State.busVolts (s : State) (b : Nat) (sd : BitVec 94) : Nat × State :=
  let n := sinc3 32 sd * (s.f (Reg.FOC_BUS_CFG b) 31 16 : Int)
  let (u, s) := s.takeFresh
  (if n < 0 then Config.freeNat u % 65536
   else if n % 32768 = 0 then (n / 32768).toNat
   else (n / 32768).toNat + Config.freeNat u % 2, s)

/-! ### The command pin (R291) -/

/-- A fraction in Q0.16, 0xFFFF for 1. -/
def q16 (num den : Nat) : Nat := min 0xFFFF (num * 65536 / max 1 den)

def State.setPinF (s : State) (c f : Nat) : State := s.setF (Reg.FOC_PIN_VAL c) 15 0 f

/-! ### Engine substitution (R271) -/

def State.engStatus (s : State) (v : Nat) : State := s.setReg Reg.FOC_ENG_SUBST_STATUS (BitVec.ofNat 32 v)

/-- Cancel a pending request. -/
def State.engCancel (s : State) : State :=
  if s.foc.subst.isSome then { s with foc := { s.foc with subst := none } }.engStatus 0 else s

/-- A write of FOC_ENG_SUBST. -/
def State.engSubst (s : State) (w : Word) : State :=
  let c := bits w 3 0
  let e := bits w 12 8
  if e = 0x1F then s.engCancel
  else if (List.range 16).any fun c => s.f (Reg.FOC_ENG_MAP c) 4 0 == e then s.engStatus (3 + 4 * 1)
  else if 18 ≤ e || (s.reg Reg.FOC_ENG_FAIL).getLsbD e then s.engStatus (3 + 4 * 2)
  else if s.foc.subst.isSome then s.engStatus (3 + 4 * 3)
  else { s with foc := { s.foc with subst := some (c, e) } }.engStatus 1

/-! ### SAFE, running state, views and reset -/

/-- SAFE entry on the channels (R292). -/
def State.focSafe (s : State) : State :=
  (List.range 16).foldl (fun s c =>
    match s.f (Reg.FOC_CFG c) 14 13 with
    | 1 => s
    | 2 => s.focCoast c
    | _ =>
      let st := s.focState c
      if st = fARMED || st = fRETRY then s.enterFoc c fOFF
      else if s.energised c && st ≠ fSTOPPING then s.enterStopping c
      else s) s

/-- Channel c counts as running (R297). -/
def State.focRunning (s : State) (c : Nat) : Bool := s.focState c ≠ fOFF && s.focState c ≠ fFAULT
def State.focBusRunning (s : State) (b : Nat) : Bool := (s.busChannels b).any s.focRunning

/-- FOC_IRQ_SUM as it reads. -/
def State.focIrqSum (s : State) : Word :=
  BitVec.ofNat 32 ((List.range 16).foldl (fun m c => if s.f (Reg.FOC_IRQ_STATUS c) 5 0 = 0 then m else m + 2 ^ c) 0 +
    (List.range 4).foldl (fun m b => if s.fb (Reg.FOC_BUS_STATUS b) 3 then m + 2 ^ (16 + b) else m) 0)

/-- What a BRST of FOC does beside its registers (R298). -/
def State.focReset (s : State) : State := { s with foc := {} }.setReg Reg.SYS_SVC_MOTION 0

end Sys2Proof.Machine
end

