-- ==== Sys2Proof/Machine/Fuser.lean ====
section
/-!
DEFINITION. The fuser (R342–R352): zone states, the control period, mains cycles and their conducting sets, the
over-temperature cut-off, and the commands of their rows.
-/

namespace Sys2Proof.Machine

def State.fusZone (s : State) (z : Nat) : FusZone := Tab.get {} s.fus.zone z
def State.modZone (s : State) (z : Nat) (g : FusZone → FusZone) : State :=
  { s with fus := { s.fus with zone := Tab.put {} s.fus.zone z (g (s.fusZone z)) } }

def State.fusOn (s : State) : Bool := s.domOn 14

/-- FUS_ZSTATE.STATE. -/
def zOFF : Nat := 0
def zRUN : Nat := 1
def zFAULT : Nat := 2
def zCUT : Nat := 3

/-- The cut latch (R351). -/
def State.fusCut (s : State) : Bool := s.fb Reg.FUS_STATUS 1

/-- A zone's state: CUT while the latch holds, which ends only at POR (R342, R351). -/
def State.zState (s : State) (z : Nat) : Nat := if s.fusCut then zCUT else s.f (Reg.FUS_ZSTATE z) 1 0

def State.fusIrq (s : State) (i : Nat) : State := s.setB Reg.FUS_IRQ_STATUS i true

/-- A cause FUSER_WINDOW for each sheet that `p` selects, each with its bit and event (R350). -/
def State.fuserCauses (s : State) (p : Sheet → Option Nat) : State :=
  s.openSheets.foldl (fun s q => match p q.2 with
    | some d => if s.sheetState q.1 = stCOMMITTED || s.sheetState q.1 = stRUNNING then
        ((s.fusIrq 0).raise srcFUS 0).cause q.1 cFUSER_WINDOW d else s
    | none => s) s

/-! ### Ball HEAT (R342, R345, R347) -/

/-- The high time of an induction period that began at `p`: the demand in force is the one before the last control period's
end where the period had begun by then (R344). -/
def State.inductionHigh (s : State) (z p : Nat) : Nat :=
  let x := s.fusZone z
  32 * ((if p ≤ s.fus.lastTc then x.dOld else x.da) * s.f (Reg.FUS_IND z) 20 0 / (65536 * 32))

/-- The level that zone z drives. -/
def State.heatLevel (s : State) (z : Nat) : Bool :=
  let t := s.clk.tb
  let ind := s.f (Reg.FUS_IND z) 20 0
  ((s.fusZone z).gate.any fun p => decide (p.1 ≤ t ∧ t < p.2)) ||
    (s.zState z == zRUN && s.f (Reg.FUS_ZCFG z) 1 0 == 2 && decide (t % ind < s.inductionHigh z (t - t % ind)))

/-- Ball HEAT z: AON forces it low under a cut. -/
def State.heatBall (s : State) (z : Nat) : Option Bool :=
  if s.fusCut then some false else s.ball 14 (s.heatLevel z) false

/-- Ball OTCUT_N (R351). -/
def State.otcutBall (s : State) : Bool := !s.fusCut

/-- A zone leaves RUN (R342, R350): HEAT is low from the next ACT edge on, no demand is left, and the cause comes at once. -/
def State.leaveRun (s : State) (z n : Nat) : State :=
  let tail := if s.heatLevel z then [(s.clk.tb, nextMultiple 32 s.clk.tb)] else []
  let s := (s.setF (Reg.FUS_ZSTATE z) 1 0 n).setF (Reg.FUS_DEMAND z) 16 0 0
  let s := s.modZone z fun x => { x with da := 0, dOld := 0, gate := tail }
  s.fuserCauses fun sh => sh.claimAt kFUSER z s.clk.tb

/-! ### Commands (R342, R348) -/

/-- The latest mean code lies within LO–HI. -/
def State.sensorOk (s : State) (z : Nat) : Bool :=
  s.f (Reg.FUS_SENS z) 11 0 ≤ s.f (Reg.FUS_TEMP z) 27 16 && s.f (Reg.FUS_TEMP z) 27 16 ≤ s.f (Reg.FUS_SENS z) 27 16

/-- ON is refused. -/
def State.onRefused (s : State) (z : Nat) : Bool :=
  s.zState z == zOFF && (s.f (Reg.FUS_ZCFG z) 1 0 == 0 || !s.sensorOk z)

/-- ON (R342): from OFF, unless it is refused. -/
def State.zoneOn (s : State) (z : Nat) : State :=
  if s.zState z ≠ zOFF then s
  else if s.onRefused z then s.setB (Reg.FUS_ZSTATE z) 2 true
  else (s.setF (Reg.FUS_ZSTATE z) 1 0 zRUN).modZone z fun x => { x with run := 0, acc := 0 }

/-- OFF (R342): RUN ends. -/
def State.zoneOff (s : State) (z : Nat) : State := if s.zState z = zRUN then s.leaveRun z zOFF else s

/-- CLEAR (R342). -/
def State.zoneClear (s : State) (z : Nat) : State :=
  if s.zState z = zFAULT && s.sensorOk z then s.setF (Reg.FUS_ZSTATE z) 1 0 zOFF else s

/-! ### The control period (R343, R344, R347, R349, R350) -/

/-- P in ticks. -/
def State.ctlPeriod (s : State) : Nat := (if s.f Reg.FUS_CTRL 15 8 = 0 then 20 else s.f Reg.FUS_CTRL 15 8) * ms

/-- Entry i of the linearisation table of a zone. -/
def State.linEntry (s : State) (z i : Nat) : Int :=
  let b := if s.fb (Reg.FUS_ZCFG z) 2 then 16 else 0
  toSigned 16 (s.f (Reg.FUS_LIN i) (b + 15) b)

/-- The temperature of a mean code (R343). -/
def State.linTemp (s : State) (z m : Nat) : Int :=
  let i := m / 128
  s.linEntry z i + floorDiv ((s.linEntry z (i + 1) - s.linEntry z i) * (m - 128 * i : Nat)) 128

def State.fusSp (s : State) (z : Nat) : Int := toSigned 16 (s.af (Reg.FUS_SP z) 15 0)
def State.fusTol (s : State) (z : Nat) : Nat := s.af (Reg.FUS_TOL z) 15 0

/-- |T − SP| ≤ TOL at each of the last STABLE period ends. -/
def State.stable (s : State) (z : Nat) : Bool :=
  let n := s.af (Reg.FUS_TOL z) 23 16
  let ts := (s.fusZone z).temps.take n
  ts.length == n && ts.all fun x => decide ((x - s.fusSp z).natAbs ≤ s.fusTol z)

/-- The controller of a zone in RUN (R344). -/
def State.zoneControl (s : State) (z : Nat) (temp : Int) : State :=
  let e := s.fusSp z - temp
  let kp : Int := s.af (Reg.FUS_ZGAIN z) 15 0
  let ki : Int := s.af (Reg.FUS_ZGAIN z) 31 16
  let i := (s.fusZone z).run
  let u := floorDiv (kp * e) 16 + i
  let d := (clampInt 0 65536 u).toNat
  let stuck := (65536 < u && 0 < e) || (u < 0 && e < 0)
  let i' := if stuck then i else i + floorDiv (ki * e) 4096
  let slew := s.af (Reg.FUS_SLEW z) 16 0
  let da := (s.fusZone z).da
  let da' := if da < d then min d (da + slew) else max d (da - slew)
  let old := s.f (Reg.FUS_DEMAND z) 16 0
  let ind := s.f (Reg.FUS_ZCFG z) 1 0 = 2
  (s.setF (Reg.FUS_DEMAND z) 16 0 (if ind then da' else d)).modZone z
    fun x => { x with run := i', dOld := old, da := if ind then da' else 0 }

/-- READY_AT (R349). -/
def State.readyAt (s : State) (z : Nat) (temp : Int) : Nat :=
  let sp := s.fusSp z
  let rate := if temp < sp then s.f (Reg.FUS_RATE z) 15 0 else s.f (Reg.FUS_RATE z) 31 16
  if s.zState z ≠ zRUN then 2 ^ 64 - 1
  else if s.stable z then s.clk.tb
  else if rate = 0 then 2 ^ 64 - 1
  else s.clk.tb + ceilDiv ((sp - temp).natAbs * 6400000000) rate + s.af (Reg.FUS_TOL z) 23 16 * s.ctlPeriod

/-- The FUSER_WINDOW check of a period end (R350). -/
def State.zoneWindow (s : State) (z : Nat) (temp : Int) : State :=
  let tc := s.clk.tb
  let p := s.ctlPeriod
  let run := s.zState z == zRUN
  s.fuserCauses fun sh => if sh.exitToCome then
      sh.claims.findIdx? fun c => c.kind == kFUSER && c.unit == z && sh.origin + c.winStart + p ≤ tc &&
        tc ≤ sh.origin + c.winEnd && (!run || decide (s.fusTol z < (temp - toSigned 16 c.amount).natAbs))
    else none

/-- The end of a control period of zone z; without a code in the period its mean is a free value (log entry 3). -/
def State.zonePeriod (s : State) (z : Nat) : State :=
  let s := s.applyAll [Reg.FUS_SP z, Reg.FUS_ZGAIN z, Reg.FUS_TOL z, Reg.FUS_SLEW z]
  let x := s.fusZone z
  let (m, s) := if x.cnt = 0 then
      let (n, s) := s.takeFresh
      (min 4095 (Config.freeNat n), s)
    else (x.sum / x.cnt, s)
  let temp := s.linTemp z m
  let s := s.setReg (Reg.FUS_TEMP z) (BitVec.ofNat 32 (fromSigned 16 temp + 2 ^ 16 * m))
  let s := s.modZone z fun x => { x with sum := 0, cnt := 0, temps := (temp :: x.temps).take 255 }
  let s := if s.zState z = zRUN then
      if s.sensorOk z then s.zoneControl z temp
      else ((s.leaveRun z zFAULT).fusIrq 1).raise srcFUS 1
    else s
  let s := s.setPair (Reg.FUS_READY_LO z) (Reg.FUS_READY_HI z) (s.readyAt z temp)
  s.zoneWindow z temp

/-- READY's sub-state at the end of a control period (R46). -/
def State.readySub (s : State) : State :=
  if s.mode == .ready then
    let warm := (List.range 8).any fun z => s.f (Reg.FUS_ZCFG z) 1 0 ≠ 0 && !(s.zState z == zRUN && s.stable z)
    s.setB Reg.SYS_MODE 15 warm
  else s

/-! ### Mains cycles (R345, R346) -/

/-- The TRIAC zones in RUN. -/
def State.triacZones (s : State) : List Nat :=
  (List.range 8).filter fun z => s.zState z == zRUN && s.f (Reg.FUS_ZCFG z) 1 0 == 1

/-- Insert a zone by key, smaller keys first and, at equal keys, smaller zones first. -/
def insertBy (key : Nat → Int) (z : Nat) : List Nat → List Nat
  | [] => [z]
  | y :: ys => if key z < key y then z :: y :: ys else y :: insertBy key z ys

/-- Zones in ascending order given, sorted by key; equal keys stay in zone order. -/
def sortBy (key : Nat → Int) (zs : List Nat) : List Nat := zs.foldl (fun l z => insertBy key z l) []

/-- The conducting set of R346 from `prev`: the set, the changes made, and whether a change is left undone. -/
def conduct (acc : Nat → Int) (zones prev : List Nat) (maxOn stepMax chgLeft : Nat) : List Nat × Nat × Bool :=
  let want := (sortBy (fun z => -acc z) (zones.filter fun z => decide (65536 ≤ acc z))).take maxOn
  let kept := prev.filter fun z => zones.contains z
  let budget := min stepMax chgLeft
  let joins := sortBy (fun z => -acc z) (zones.filter fun z => want.contains z && !kept.contains z)
  let (on, budget) := joins.foldl (fun (a : List Nat × Nat) z =>
    if 0 < a.2 && a.1.length < maxOn then (a.1 ++ [z], a.2 - 1) else a) (kept, budget)
  let leaves := sortBy acc (zones.filter fun z => on.contains z && !want.contains z)
  let (on, budget) := leaves.foldl (fun (a : List Nat × Nat) z =>
    if 0 < a.2 then (a.1.erase z, a.2 - 1) else a) (on, budget)
  let undone := want.any (fun z => !on.contains z) || on.any (fun z => !want.contains z)
  (on, (prev.length - kept.length) + (min stepMax chgLeft - budget), undone)

/-- Place the gate pulses of a conducting zone in the cycle that begins at x (R345). -/
def State.placeGates (s : State) (x : Tick) (z : Nat) : State :=
  let dly := 32 * s.af Reg.FUS_GATE 15 0
  let w := 32 * s.af Reg.FUS_GATE 31 16
  let half := (s.reg Reg.FUS_MAINS).toNat / 2
  let pulse := fun (a : Tick) => (nextMultiple 32 a, nextMultiple 32 a + w)
  s.modZone z fun y => { y with gate := (y.gate.filter fun p => s.clk.tb < p.2) ++ [pulse (x + dly), pulse (x + half + dly)] }

/-- A mains cycle passes: its switches enter the history of the last 63 cycles. -/
def State.cycleChanges (s : State) (n : Nat) : State :=
  { s with fus := { s.fus with changes := (n :: s.fus.changes).take 63 } }

/-- A mains cycle that begins at x, while ZC_OK is 1. -/
def State.mainsCycle (s : State) (x : Tick) : State :=
  let zones := s.triacZones
  let dem := fun z => if x ≤ s.fus.lastTc then (s.fusZone z).dOld else s.f (Reg.FUS_DEMAND z) 16 0
  let s := zones.foldl (fun s z => s.modZone z fun y => { y with acc := min (y.acc + dem z) 131072 }) s
  let acc := fun z => (s.fusZone z).acc
  let used := (s.fus.changes.take 63).sum
  let (on, n, undone) := conduct acc zones s.fus.on (s.af Reg.FUS_SEQ 3 0) (s.af Reg.FUS_SEQ 7 4)
    (s.af Reg.FUS_SEQ 15 8 - used)
  let s := on.foldl (fun s z => (s.modZone z fun y => { y with acc := max (y.acc - 65536) (-65536) }).placeGates x z) s
  let s := { s with fus := { s.fus with on := on } }.cycleChanges n
  if undone then (s.incSat Reg.FUS_CNT 15 0).fusIrq 4 else s

/-- An interval is in the range of 70–40 Hz (R345). -/
def zcRange (d : Nat) : Bool := 91428571 ≤ d && d ≤ 160000000

/-- ZC_LOSS's effects (R345): the TRIAC zones stop gating; the set of the last cycle stays the `prev` of the next (R346). -/
def State.zcLost (s : State) : State :=
  let s := (((s.setB Reg.FUS_STATUS 0 false).incSat Reg.FUS_CNT 31 16).fusIrq 3).raise srcFUS 3
  s.triacZones.foldl (fun s z => s.modZone z fun y => { y with gate := [] }) s

/-- A mains cycle begins with the accepted active edge of ZC at x (R345). -/
def State.zcEdge (s : State) (x : Tick) : State :=
  let s := s.applyAll [Reg.FUS_GATE, Reg.FUS_SEQ]
  let s := match s.fus.edge with
    | none => s
    | some e =>
      let d := x - e
      let iv := (d :: s.fus.ivals).take 8
      let s := { s with fus := { s.fus with ivals := iv } }
      let s := if iv.length = 8 then s.setReg Reg.FUS_MAINS (BitVec.ofNat 32 (iv.sum / 8)) else s
      if !zcRange d then s.zcLost
      else if iv.length = 8 && iv.all zcRange then s.setB Reg.FUS_STATUS 0 true else s
  let s := { s with fus := { s.fus with edge := some x, lost := false } }
  if s.fb Reg.FUS_STATUS 0 then s.mainsCycle x else s.cycleChanges 0

/-- The samples of ball ZC at the ACT edges, filtered with FUS_ZC as a sense input is (R345, R353). -/
def State.zcSamples (s : State) (ls : List (Bool × Nat)) : State :=
  let (x, cs) := s.fus.zc.changes (s.f Reg.FUS_ZC 15 0) 32 (s.fus.zc.level.getD false) (firstSample 32 s.clk.tb ls) ls
  let last := (cs.getLast?.map (·.1)).or s.fus.zc.level
  let s := { s with fus := { s.fus with zc := { x with level := last } } }
  cs.foldl (fun s c => if c.1 == s.fb Reg.FUS_ZC 16 then s else s.zcEdge c.2) s

/-! ### The over-temperature cut-off (R351) -/

/-- The comparator of zone z trips: CUT latches and every zone enters CUT. -/
def State.otCut (s : State) (z : Nat) : State :=
  let was := (List.range 8).filter fun z => s.zState z == zRUN
  let s := (s.setB Reg.FUS_STATUS (8 + z) true).ldgRecord 2 0x21 1 (bytesLE 1 z)
  let s := ((s.fusIrq 2).raise srcFUS 2)
  let s := was.foldl (fun s z => s.leaveRun z zCUT) s
  let s := (s.setB Reg.FUS_STATUS 1 true)
  (List.range 8).foldl (fun s z => s.setF (Reg.FUS_ZSTATE z) 1 0 zCUT) s

/-! ### SAFE, running state, views and reset -/

/-- SAFE entry on the zones (R352). -/
def State.fusSafe (s : State) : State :=
  (List.range 8).foldl (fun s z => if s.fb (Reg.FUS_ZCFG z) 3 then s.zoneOff z else s) s

/-- Zone z counts as running (R357). -/
def State.fusRunning (s : State) (z : Nat) : Bool := s.zState z ≠ zOFF
def State.fusAnyRunning (s : State) : Bool := (List.range 8).any s.fusRunning

/-- FUS_ZSTATE as it reads. -/
def State.zStateView (s : State) (z : Nat) : Word := putBits (s.reg (Reg.FUS_ZSTATE z)) 1 0 (s.zState z)

/-- What a BRST of FUS does beside its registers (R358): the comparators, which lie in AON, keep their counts. -/
def State.fusReset (s : State) : State :=
  { s with fus := { zone := (List.range 8).foldl (fun t z => Tab.put {} t z { ot := (s.fusZone z).ot }) [] } }

end Sys2Proof.Machine
end

