-- ==== Sys2Proof/Machine/Fx.lean ====
section
/-!
DEFINITION. The decompression lanes (R179–R199): band streams and tiles, jobs with their output buffers, suspension, save
images and completion records. A lane reads a tile's record when it takes the tile, and puts its bytes out two a CORE
cycle as time passes; the input waits of R179 are known only from when an end is commanded (log entry 22).
-/

namespace Sys2Proof.Machine

/-- FX is in the DEC domain (R34). -/
def State.decOn (s : State) : Bool := s.domOn 10

/-! ### Reading a tile -/

/-- A tile that fails before any record is read (R176). -/
def headerFail (detail setup : Nat) : TileRes :=
  .tile { out := [], err := some { code := eHEADER, detail := detail }, setup := setup }

def TileRes.ofErr : MemErr → TileRes
  | .ecc => .ecc
  | _ => .bus

/-- Decode the record that an entry names (R153, R157). -/
def State.tileOf (s : State) (e : Entry) (station col row : Nat) : TileRes × State :=
  match entryFail e s.inDram with
  | some d => (headerFail d 8, s)
  | none =>
    if e.fill then (.tile (decodeRecord e [] station col row), s)
    else match s.readMem iFX e.addr e.len with
      | (.ok r, s) => (.tile (decodeRecord e r station col row), s)
      | (.error x, s) => (TileRes.ofErr x, s)

/-- The tile at a plane row and column of a plane with `cols` columns (R155). -/
def State.planeTile (s : State) (plane cols station col row : Nat) : TileRes × State :=
  if cols ≤ col then s.tileOf fillZero station col row
  else
    let a := plane + 0x20 + 8 * (row * cols + col)
    match s.readMem iFX a 8 with
    | (.ok r, s) => s.tileOf (parseEntry (natLE r)) station col row
    | (.error x, s) => (TileRes.ofErr x, s)

/-- The tile of a job: the plane's checks come first (R177, R191). -/
def State.jobTile (s : State) (j : JobRun) : TileRes × State :=
  let plane := sliceLE j.base 8 5
  let ncols := sliceLE j.base 0x15 1
  let row := sliceLE j.base 0x10 2 + j.tile / ncols
  let col := sliceLE j.base 0x14 1 + j.tile % ncols
  if plane % 64 ≠ 0 || !s.inDram plane 32 then (headerFail 0x01 8, s)
  else match s.readMem iFX plane 32 with
    | (.error x, s) => (TileRes.ofErr x, s)
    | (.ok h, s) =>
      let cols := sliceLE h 7 1
      let rows := sliceLE h 8 2
      if planeOk h none none && s.inDram plane (32 + 8 * cols * rows) && row < rows then
        s.planeTile plane cols (sliceLE h 6 1) col row
      else (headerFail 0x01 8, s)

/-- Lane n's history window (R182). -/
def windowOf (n : Nat) : Nat := historyBase + n * 0x8000

/-- The lane keeps output bytes from position `i` of its tile in its window (R182). -/
def State.keepHistory (s : State) (n i : Nat) (bs : List Byte) : State := s.storeBytes (windowOf n + i) bs

/-- A job's lane takes the tile that is next: its record is read, and its cycles begin. -/
def State.beginTile (s : State) (j : JobRun) : JobRun × State :=
  let (r, s') := s.jobTile j
  ({ j with run := { since := s.clk.tb, res := some r } }, s')

/-! ### Band streams -/

/-- The address of tile row t of a band tile (R185). -/
def bandAddr (st line col : Nat) : Nat := bandBase st + line % 341 * 12288 + col * 1024

/-- Write bytes of a band tile from position `i`, tile row by tile row (R185); false when a write is refused. -/
def State.writeBand (s : State) (st line col : Nat) : Nat → Nat → List Byte → Bool × State
  | 0, _, _ => (true, s)
  | n + 1, i, bs =>
    if bs.isEmpty then (true, s)
    else
      let k := 1024 - i % 1024
      match s.writeMem iFX (bandAddr st (line + i / 1024) col + i % 1024) (bs.take k) with
      | (none, s) => s.writeBand st line col n (i + k) (bs.drop k)
      | (some _, s) => (false, s)

/-- The 16 bytes of a stream descriptor lie in the Stacks or in free staging (R183). -/
def streamPlace (a : Nat) : Bool :=
  a % 16 == 0 && ((stacksBase ≤ a && a + 16 ≤ stacksBase + stacksSize) ||
    (historyEnd ≤ a && a + 16 ≤ stagingBase + stagingSize))

/-- A stream's descriptor, as bytes: what it names, or FAIL of R188 with the row to report. -/
def streamDesc (d : List Byte) : Except Nat (Nat × Nat × Nat) :=
  let row0 := sliceLE d 8 2
  let nrows := sliceLE d 0xA 2
  if sliceLE d 5 3 ≠ 0 || sliceLE d 0xC 4 ≠ 0 || 8191 < row0 || nrows < 1 || 8192 < nrows then .error row0
  else .ok (sliceLE d 0 5, row0, nrows)

/-- STREAM executed for a sheet (R183, R184, R188). -/
def State.runStream (s : State) (h st cmd param : Nat) : State :=
  let (u, s1) := s.takeFresh
  let unread := Config.freeNat u % 65536
  if cmd ≠ 1 || !streamPlace param then s1.streamFail st h 0 1 0 unread
  else match s.readMem iFX param 16 with
    | (.error .ecc, s) => { s with fresh := s1.fresh }.streamFail st h 0 3 0 unread
    | (.error _, s) => { s with fresh := s1.fresh }.streamFail st h 0 2 0 unread
    | (.ok d, s) =>
      match streamDesc d with
      | .error row => s.streamFail st h 0 1 0 row
      | .ok (plane, row0, nrows) =>
        if 4 ≤ (s.fxStreams st).length then
          let s := (s.setB Reg.FX_STATUS 18 true).raise srcFX 2
          if s.handle (h % 128) = h then s.causeOnce (h % 128) cTILE_LATE (st + 8 * row0) else s
        else
          let ln0 := s.nextLn st
          let s := s.setNextLn st (ln0 + 32 * nrows)
          let s := s.setStreams st (s.fxStreams st ++
            [{ sheet := h, row0 := row0, nrows := nrows, plane := plane, ln0 := ln0 }])
          let s := s.modExp st fun e => { e with uses := e.uses ++
            [{ sheet := h, ln0 := ln0, row0 := row0, nrows := nrows, lw := ln0 }] }
          s.advanceReleased st

/-- BE_LANES (R180). -/
def State.beLanes (s : State) : Nat := 12 - ceilDiv (s.f Reg.TT_DEC_CAP 11 0) 256

def Lane.isBand : Lane → Bool
  | .band .. => true
  | _ => false

def Lane.isIdle : Lane → Bool
  | .idle => true
  | _ => false

def State.lanesThat (s : State) (p : Lane → Bool) : Nat := ((List.range 12).filter fun n => p (s.lane n)).length

def State.bandLanes (s : State) : Nat := s.lanesThat Lane.isBand
def State.jobLanes (s : State) : Nat := s.lanesThat fun l => !l.isBand && !l.isIdle

/-- The active stream of a station with its next tile, when that is startable, and the moment it became so (R181). -/
def State.startable (s : State) (st : Nat) : Option (Tick × Stream) :=
  match s.fxStreams st with
  | x :: _ => if x.active then (x.ready[x.next / 12]?).map fun t => (t, x) else none
  | [] => none

/-- The station whose next tile starts first (R181): earlier moment, then lower station. -/
def State.firstTile (s : State) : Option (Nat × Tick × Stream) :=
  (List.range 6).foldl (fun best st =>
    match s.startable st, best with
    | some (t, x), none => some (st, t, x)
    | some (t, x), some b => if t < b.2.1 then some (st, t, x) else best
    | none, _ => best) none

/-- Band tiles have room for another lane (R180). -/
def State.bandRoom (s : State) : Bool := s.bandLanes < 12 - s.beLanes

/-- The stream of a station that starts at a line. -/
def State.streamAt (s : State) (st ln0 : Nat) : Option Stream := (s.fxStreams st).find? fun x => x.ln0 == ln0

/-- A band tile of a stream is complete (R187): its row may be whole, and the stream may end with it (R188). -/
def State.bandTileDone (s : State) (st ln0 row : Nat) : State :=
  let s := s.setStreams st ((s.fxStreams st).map fun x =>
    if x.ln0 = ln0 then { x with done := Tab.insert row (Tab.get 0 x.done row + 1) x.done } else x)
  let s := s.advanceFilled st
  let s := s.setStreams st ((s.fxStreams st).filter fun x => s.filled st < x.stop || x.ln0 ≠ ln0)
  s.settle settleFuel

/-- FX_LANE_STALL counts the input waits of a run that should have come to an edge (R179). -/
def State.countStall (s : State) (n : Nat) (edge : Tick) : State :=
  s.incSat (Reg.FX_LANE_STALL n) 31 0 (stallCycles edge s.clk.tb)

/-! ### Jobs: output buffers (R192–R194) -/

/-- How an emission of output ends. -/
inductive EmitEnd
  | all
  | full
  | fail (status : Nat)
deriving DecidableEq, Repr

/-- STATUS of a failed access: ECC for an uncorrectable error, else BUS (R197). -/
def statusOf : MemErr → Nat
  | .ecc => 5
  | _ => 4

/-- The regions an output buffer may lie in (R192). -/
def State.bufPlace (s : State) (a n : Nat) : Bool :=
  s.inDram a n || (historyEnd ≤ a && a + n ≤ stagingBase + stagingSize)

/-- Enter the buffer whose descriptor is at `d` (R192). -/
def State.enterBuf (s : State) (j : JobRun) (d : Nat) : Except Nat JobRun × State :=
  if d % 16 ≠ 0 then (.error 3, s)
  else match s.readMem iFX d 16 with
    | (.error e, s) => (.error (statusOf e), s)
    | (.ok b, s) =>
      let addr := sliceLE b 0 5
      let len := sliceLE b 5 3
      if len = 0 || sliceLE b 13 3 ≠ 0 || !s.bufPlace addr len then (.error 3, s)
      else (.ok { j with cur := some { desc := d, addr := addr, len := len }, bufs := min 0xFFFF (j.bufs + 1)
                         straddle := j.straddle || 0 < j.run.emitted }, s)

/-- Write output bytes through the chain of buffers (R193). A buffer's NEXT is read when its last byte is written. -/
def State.emit (s : State) : Nat → JobRun → List Byte → EmitEnd × JobRun × State
  | 0, j, _ => (.all, j, s)
  | fuel + 1, j, bs =>
    if bs.isEmpty then (.all, j, s)
    else match j.cur with
      | none =>
        if j.nextDesc = 0 then (.full, j, s)
        else match s.enterBuf j j.nextDesc with
          | (.error e, s) => (.fail e, j, s)
          | (.ok j, s) => s.emit fuel j bs
      | some b =>
        if b.used = b.len then
          if j.nextDesc = 0 then (.full, j, s)
          else match s.enterBuf j j.nextDesc with
            | (.error e, s) => (.fail e, j, s)
            | (.ok j, s) => s.emit fuel j bs
        else
          let part := bs.take (b.len - b.used)
          match s.writeMem iFX (b.addr + b.used) part with
          | (some e, s) => (.fail (statusOf e), j, s)
          | (none, s) =>
            let used := b.used + part.length
            let j := { j with cur := some { b with used := used }, run := { j.run with emitted := j.run.emitted + part.length } }
            if used = b.len then
              match s.readMem iFX (b.desc + 8) 8 with
              | (.error e, s) => (.fail (statusOf e), j, s)
              | (.ok nx, s) => s.emit fuel { j with nextDesc := sliceLE nx 0 5 } (bs.drop part.length)
            else s.emit fuel j (bs.drop part.length)

/-- Put out a job's tile up to output byte `b`, keeping the lane's history (R182). -/
def State.emitTo (s : State) (n : Nat) (j : JobRun) (d : Decoded) (b : Nat) : EmitEnd × JobRun × State :=
  let i := j.run.emitted
  let bs := (d.out.take b).drop i
  let (e, j', s') := s.emit (2 * bs.length + 2) j bs
  (e, j', s'.keepHistory n i (bs.take (j'.run.emitted - i)))

/-! ### Jobs: ends and records (R197) -/

/-- The completion record of a job that ends with a STATUS. -/
def JobRun.recordOf (j : JobRun) (status : Nat) (err : Option DecErr) : List Byte :=
  let e : DecErr := err.getD { code := 0, detail := 0 }
  let fail := if status = 1 then j.tile else 0xFFFFFF
  let last := match j.cur with
    | some b => bytesLE 5 b.desc ++ bytesLE 3 b.used
    | none => bytesLE 8 0
  bytesLE 4 (sliceLE j.desc 4 4) ++ bytesLE 1 status ++ bytesLE 1 e.code ++ bytesLE 1 e.detail ++
  bytesLE 1 ((if j.straddle then 1 else 0) + (if j.suspended then 2 else 0) + (if j.resumed then 4 else 0)) ++
  bytesLE 4 e.nibble ++ bytesLE 4 e.bit ++ bytesLE 2 j.tiles ++ bytesLE 2 fail ++ bytesLE 2 j.bufs ++
  bytesLE 1 (j.tiles / 65536) ++ bytesLE 1 (fail / 65536) ++ last

/-- Insert an end in the order of R197: by time, then by lane. -/
def insertEnd (t n : Nat) : List (Nat × Nat) → List (Nat × Nat)
  | [] => [(t, n)]
  | (t', n') :: r => if t < t' || (t = t' && n < n') then (t, n) :: (t', n') :: r else (t', n') :: insertEnd t n r

/-- The completion ring is full (R197). -/
def State.fxCqFull (s : State) : Bool :=
  (s.f Reg.FX_CQ_HEAD 11 0 + 1) % 2 ^ s.f Reg.FX_CQ_CFG 3 0 == s.f Reg.FX_CQ_TAIL 11 0

/-- The job on lane n ends at edge `t` (R197): its record is formed and waits for its turn, in HOLD while the ring is
full. -/
def State.endJobAt (s : State) (t : Tick) (n : Nat) (j : JobRun) (status : Nat) (err : Option DecErr) : State :=
  let j := { j with record := some (j.recordOf status err) }
  let s := s.setLane n (if s.fxCqFull then .hold j else .job j)
  let s := { s with fx := { s.fx with order := insertEnd t n s.fx.order } }
  let s := if status = 1 then s.incSat Reg.FX_CNT_ERR 31 0 else s
  if 1 ≤ status && status ≤ 5 then (s.setB Reg.FX_IRQ_STATUS 2 true).raise srcFX 1 else s

/-- The job on lane n ends now. -/
def State.endJob (s : State) (n : Nat) (j : JobRun) (status : Nat) (err : Option DecErr) : State :=
  s.endJobAt s.clk.tb n j status err

/-- The job on a lane, in whatever state. -/
def Lane.run? : Lane → Option JobRun
  | .job j => some j
  | .suspended j => some j
  | .saving j _ => some j
  | .hold j => some j
  | _ => none

/-- The lanes whose jobs have ended hold their records. -/
def State.holdEnded (s : State) : State :=
  s.fx.order.foldl (fun s p => match s.lane p.2 with
    | .job j => s.setLane p.2 (.hold j)
    | _ => s) s

/-- Write the next record of the order, or hold the records while the ring is full (R197). -/
def State.completeNext (s : State) : State :=
  match s.fx.order with
  | [] => s
  | (_, n) :: rest =>
    match (s.lane n).run? with
    | none => { s with fx := { s.fx with order := rest } }
    | some j =>
      if s.fxCqFull then s.holdEnded
      else
        let h := s.f Reg.FX_CQ_HEAD 11 0
        let (_, s) := s.writeMem iFX ((s.reg Reg.FX_CQ_BASE).toNat * 64 + 32 * h) (j.record.getD [])
        let s := s.setF Reg.FX_CQ_HEAD 11 0 ((h + 1) % 2 ^ s.f Reg.FX_CQ_CFG 3 0)
        let s := if sliceLE j.desc 1 1 % 2 = 1 then s.setB Reg.FX_IRQ_STATUS 0 true else s
        let s := ({ s with fx := { s.fx with order := rest } }).setLane n .idle
        if s.fxCqFull then s.holdEnded else s

/-- The record next in order is held. -/
def State.headHeld (s : State) : Bool :=
  match s.fx.order with
  | [] => false
  | (_, n) :: _ => match s.lane n with | .hold _ => true | _ => false

/-- Held records are written in order while the ring has room. -/
def State.flushRecords (s : State) : Nat → State
  | 0 => s
  | m + 1 => if s.headHeld && !s.fxCqFull then s.completeNext.flushRecords m else s

/-! ### Tiles complete or fail -/

/-- A band tile's write is refused: its stream fails with BUS (R188, R197). -/
def State.bandBus (s : State) (b : BandRun) : State :=
  match s.streamAt b.st b.ln0 with
  | some x => ((s.endStream b.st x).streamFail b.st x.sheet 0 2 0 (x.row0 + b.row)).settle settleFuel
  | none => s

/-- A lane's band tile puts out what is due (R179, R182, R185). -/
def State.bandStep (s : State) (n : Nat) (b : BandRun) (d : Decoded) : State :=
  let i := b.run.emitted
  let m := b.run.due d s.clk.tb
  if m ≤ i then s
  else
    let bs := (d.out.take m).drop i
    match s.writeBand b.st (b.ln0 + 32 * b.row) b.col 34 i bs with
    | (false, s) => s.bandBus b
    | (true, s) => (s.keepHistory n i bs).setLane n (.band { b with run := { b.run with emitted := m } })

/-- A lane's job puts out what is due; a buffer that fails ends it at the edge of the byte that needed it (R192, R197). -/
def State.jobStep (s : State) (n : Nat) (j : JobRun) (d : Decoded) : State :=
  let m := j.run.due d s.clk.tb
  if m ≤ j.run.emitted then s
  else match s.emitTo n j d m with
    | (.fail e, j', s) => s.endJobAt (j'.run.edgeOf d j'.run.emitted) n j' e none
    | (_, j', s) => s.setLane n (.job j')

/-- What a lane puts out by the present edge. -/
def State.laneStep (s : State) (n : Nat) : State :=
  match s.lane n with
  | .band b => match b.run.res with
    | some (.tile d) => s.bandStep n b d
    | _ => s
  | .job j => match j.run.res, j.record with
    | some (.tile d), none => s.jobStep n j d
    | _, _ => s
  | _ => s

/-- What every lane puts out by the present edge. -/
def State.fxStep (s : State) : State := (s.fx.lanes.map (·.1)).foldl State.laneStep s

/-- A run's output is whole, its cycles are over, and it has no error. -/
def TileRun.done (r : TileRun) (d : Decoded) (t : Tick) : Bool :=
  d.err.isNone && r.emitted == d.out.length && r.overAt d ≤ t

/-- TILE_COMPLETE of a band tile. -/
def State.completeBand (s : State) (n : Nat) (b : BandRun) : State :=
  match b.run.res with
  | some (.tile d) =>
    if b.run.done d s.clk.tb then
      let s := s.countStall n (b.run.overAt d)
      ((s.incSat Reg.FX_CNT_TILES 31 0).setLane n .idle).bandTileDone b.st b.ln0 b.row
    else s
  | _ => s

/-- The number of tiles of a job. -/
def JobRun.total (j : JobRun) : Nat := sliceLE j.base 0x12 2 * sliceLE j.base 0x15 1

/-- TILE_COMPLETE of a job's tile: the next is taken, and after the last the job ends DONE. -/
def State.completeJobTile (s : State) (n : Nat) (j : JobRun) : State :=
  match j.run.res with
  | some (.tile d) =>
    if j.run.done d s.clk.tb then
      let s := (s.incSat Reg.FX_CNT_TILES 31 0).countStall n (j.run.overAt d)
      let j := { j with tile := j.tile + 1, tiles := j.tiles + 1 }
      if j.tile = j.total then s.endJob n j 0 none
      else
        let (j, s) := s.beginTile j
        s.setLane n (.job j)
    else s
  | _ => s

/-- The symbols before a failing one are all put out (R178). -/
def TileRun.failed (r : TileRun) (d : Decoded) : Option DecErr := if r.emitted = d.out.length then d.err else none

/-- TILE_DECODE_ERROR of a band tile: the stream fails (R188). -/
def State.failBand (s : State) (n : Nat) (b : BandRun) : State :=
  match s.streamAt b.st b.ln0 with
  | none => s
  | some x =>
    let fail := fun (s : State) (e k d : Nat) =>
      ((s.endStream b.st x).streamFail b.st x.sheet e k d (x.row0 + b.row)).settle settleFuel
    match b.run.res with
    | some .bus => fail s 0 2 0
    | some .ecc => fail s 0 3 0
    | some (.tile d) => match b.run.failed d with
      | some e => fail ((s.countStall n (b.run.overAt d)).incSat Reg.FX_CNT_ERR 31 0) e.code 0 e.detail
      | none => s
    | none => s

/-- TILE_DECODE_ERROR of a job's tile: the job ends DECODE, BUS or ECC (R197). -/
def State.failJobTile (s : State) (n : Nat) (j : JobRun) : State :=
  match j.run.res with
  | some .bus => s.endJob n j 4 none
  | some .ecc => s.endJob n j 5 none
  | some (.tile d) => match j.run.failed d with
    | some e => (s.countStall n (j.run.overAt d)).endJob n j 1 (some e)
    | none => s
  | none => s

/-! ### Jobs are taken (R190, R191, R195) -/

/-- The fields that every job descriptor must hold (R191). -/
def jobCommonOk (d : List Byte) : Bool :=
  sliceLE d 1 1 / 2 == 0 && sliceLE d 2 2 == 0 && sliceLE d 0xD 3 == 0 && sliceLE d 0x16 2 == 0 &&
  sliceLE d 0x18 5 % 16 == 0 && sliceLE d 0x1D 3 == 0 && sliceLE d 0x20 32 == 0

/-- A valid DECODE descriptor. -/
def decodeOk (d : List Byte) : Bool :=
  jobCommonOk d && sliceLE d 0 1 == 1 && 1 ≤ sliceLE d 0x12 2 && sliceLE d 0x12 2 ≤ 8192 &&
  sliceLE d 0x14 1 ≤ 11 && 1 ≤ sliceLE d 0x15 1 && sliceLE d 0x14 1 + sliceLE d 0x15 1 ≤ 12

/-- A valid RESUME descriptor. -/
def resumeOk (d : List Byte) : Bool :=
  jobCommonOk d && sliceLE d 0 1 == 2 && sliceLE d 8 5 % 64 == 0 && sliceLE d 0x10 6 == 0

/-- The address of the job descriptor at TAIL (R190). -/
def State.jobAddr (s : State) : Nat := (s.reg Reg.FX_JQ_BASE).toNat * 64 + 64 * s.f Reg.FX_JQ_TAIL 11 0

/-- Idle lanes that startable band tiles will take first (R180, R181). -/
def State.bandClaims (s : State) : Nat :=
  let tiles := ((List.range 6).map fun st => match s.startable st with
    | some (_, x) => 12 * x.ready.length - x.next
    | none => 0).sum
  min tiles (12 - s.beLanes - s.bandLanes)

/-- The job ring is empty: HEAD, of which LOG2 bits are significant, equals TAIL (R190). -/
def State.jobsEmpty (s : State) : Bool :=
  s.f Reg.FX_JQ_HEAD 11 0 % 2 ^ s.f Reg.FX_JQ_CFG 3 0 == s.f Reg.FX_JQ_TAIL 11 0

/-- A lane may take the job at TAIL (R180, R190). -/
def State.jobRoom (s : State) (n : Nat) : Bool :=
  s.decOn && s.fb Reg.FX_CTRL 0 && !s.jobsEmpty && (s.lane n).isIdle &&
  s.jobLanes < s.beLanes && s.bandClaims < s.lanesThat Lane.isIdle

/-- Advance the job ring's TAIL. -/
def State.jobTaken (s : State) : State :=
  s.setF Reg.FX_JQ_TAIL 11 0 ((s.f Reg.FX_JQ_TAIL 11 0 + 1) % 2 ^ s.f Reg.FX_JQ_CFG 3 0)

/-- Read the descriptor at TAIL: it, or the STATUS its job fails with. -/
def State.readJob (s : State) : Except Nat (List Byte) × State :=
  match s.readMem iFX s.jobAddr 64 with
  | (.ok d, s) => (.ok d, s)
  | (.error e, s) => (.error (statusOf e), s)

/-- The bytes of a save image (R195). -/
def imageBytes : Nat := 32896

/-- The saved job that a save image stands for, if it is valid and this unit's (R195). -/
def State.savedJob (s : State) (img : List Byte) : Option JobRun :=
  if (decodeOk (img.take 64) || resumeOk (img.take 64)) && crc32 (img.take 124) == sliceLE img 124 4 then
    (s.fx.saved.find? fun x => x.bytes == (img.drop 64).take 60 && x.job.desc == img.take 64).map (·.job)
  else none

/-- A run goes on with its next output byte at an edge (R194). -/
def TileRun.resumedAt (r : TileRun) (t : Tick) : TileRun :=
  { r with since := t, start := r.emitted, setup := r.setup && r.emitted == 0 }

/-- The run of a resumed job (R195): it goes on where the saved one stopped, with a buffer chain of its own. -/
def JobRun.resumeFrom (k : JobRun) (d : List Byte) (t : Tick) : JobRun :=
  { k with desc := d, resumed := true, suspended := false, bufs := 0, cur := none, record := none
           nextDesc := sliceLE d 0x18 5, run := k.run.resumedAt t }

/-! ### Suspend, resume, save, abort (R194–R196) -/

/-- The current buffer is full and no other is named. -/
def JobRun.stuck (j : JobRun) : Bool :=
  match j.cur with
  | some b => b.used == b.len && j.nextDesc == 0
  | none => j.nextDesc == 0

/-- The lane suspends at the edge after the buffer's last byte (R194); what it waited before that counts. -/
def State.suspendLane (s : State) (n : Nat) (j : JobRun) : State :=
  let s := match j.run.res with
    | some (.tile d) => if j.run.emitted = 0 then s else s.countStall n (j.run.edgeOf d (j.run.emitted - 1) + 8)
    | _ => s
  (s.setLane n (.suspended { j with suspended := true })).setB Reg.FX_IRQ_STATUS 1 true

/-- RESUME_REFUSED (R194, R195). -/
def State.resumeRefused (s : State) : State := s.setB Reg.FX_STATUS 17 true

/-- A write to FX_LANE_RESUME (R194). -/
def State.resumeLane (s : State) (lane : Nat) (w : Word) : State :=
  match s.lane lane with
  | .suspended j =>
    match s.enterBuf j (w.toNat * 16) with
    | (.error e, s) => s.endJob lane j e none
    | (.ok j', s) =>
      s.setLane lane (.job { j' with nextDesc := 0, run := j'.run.resumedAt (s.clk.tb + 8) })
  | _ => s.resumeRefused

/-- LANE_SAVE (R195): SAVE starts the save image of a suspended lane. -/
def State.laneSave (s : State) (n : Nat) : State :=
  match s.lane n with
  | .suspended j => s.setLane n (.saving j false)
  | _ => s.resumeRefused

/-- Open bytes. -/
def openBytes (u : Nat) : Nat → List Byte
  | 0 => []
  | n + 1 => BitVec.ofNat 8 (Config.freeNat (u + n)) :: openBytes u n

/-- The 60 bytes of lane state of this unit's save image number `n`: its own layout, so their values are open, but no two
images have the same (R195; log entry 98). -/
def stateBytes (n fresh : Nat) : List Byte := bytesLE 8 (n ^^^ Config.saveKey) ++ openBytes fresh 52

/-- A job has written its last output byte. -/
def JobRun.written (j : JobRun) : Bool := j.tile + 1 == j.total && j.run.emitted == tileBytes

/-- LANE_ABORT (R196): ABORT ends a running or suspended job at the next edge, but not one whose last byte is written;
during a save it takes effect at the image's end. -/
def State.laneAbort (s : State) (n : Nat) : State :=
  match s.lane n with
  | .job j => if j.record.isSome || j.written then s else s.endJobAt (s.clk.tb + 8) n j 6 none
  | .suspended j => s.endJobAt (s.clk.tb + 8) n j 6 none
  | .saving j _ => s.setLane n (.saving j true)
  | _ => s

/-- FX_CQ_TAIL_WRITE (R197): firmware advances the tail, and held records are written. -/
def State.fxTailWrite (s : State) (w : Word) : State :=
  (s.setF Reg.FX_CQ_TAIL 11 0 w.toNat).flushRecords 12

/-! ### Registers that read from the lanes, and block reset -/

/-- FX_LANE_STATE as it reads. -/
def State.fxLaneState (s : State) (n : Nat) : Word :=
  match s.lane n with
  | .idle => 0
  | .band b =>
    let r := match s.streamAt b.st b.ln0 with | some x => x.row0 + b.row | none => b.row
    BitVec.ofNat 32 (1 + 16 * b.st + 256 * r)
  | .job j => BitVec.ofNat 32 (2 + 256 * j.tile)
  | .suspended j => BitVec.ofNat 32 (3 + 256 * j.tile)
  | .saving j _ => BitVec.ofNat 32 (4 + 256 * j.tile)
  | .hold j => BitVec.ofNat 32 (5 + 256 * j.tile)

def Lane.isHold : Lane → Bool
  | .hold _ => true
  | _ => false

/-- FX_STATUS as it reads. -/
def State.fxStatus (s : State) : Word :=
  let busy := (List.range 12).foldl (fun m n => if (s.lane n).isIdle then m else m + 2 ^ n) 0
  BitVec.ofNat 32 (busy + 2 ^ 12 * s.beLanes + 2 ^ 16 * (if s.lanesThat Lane.isHold = 0 then 0 else 1) +
    2 ^ 17 * s.f Reg.FX_STATUS 18 17)

/-- FX_STREAM_STATUS as it reads. -/
def State.fxStreamStatus (s : State) (st : Nat) : Word :=
  let xs := s.fxStreams st
  match xs with
  | x :: _ =>
    if x.active then BitVec.ofNat 32 (xs.length + 8 + 2 ^ 16 * (x.row0 + (s.filled st - x.ln0) / 32))
    else BitVec.ofNat 32 xs.length
  | [] => 0

/-- FX counts as running (R199). -/
def State.fxRunning (s : State) : Bool :=
  s.lanesThat Lane.isIdle < 12 || s.fb Reg.FX_CTRL 0 || (List.range 6).any fun st => !(s.fxStreams st).isEmpty

/-- What a BRST of FX does beside its registers (R198): lanes stop without records, every stream ends, FILLED becomes
NEXT_LN, and the history windows are wiped, which leaves zeros with valid check bits (R472). -/
def State.fxReset (s : State) : State :=
  let s : State := { s with fx := { s.fx with lanes := [], order := [] } }
  let s : State := (List.range 6).foldl (fun (s : State) st =>
    let s := (s.fxStreams st).foldl (fun s x => s.endStream st x) s
    s.setFilled st (s.nextLn st)) s
  { s with mem := wipeRange s.mem historyBase historyEnd, fx := { s.fx with ended := [] }
           poison := s.poison.filter fun w => w < historyBase || historyEnd ≤ w }

end Sys2Proof.Machine
end

