-- ==== Sys2Proof/Machine/Hv.lean ====
section
/-!
DEFINITION. The analogue channels and the high-voltage block (R332–R341): ramps, AC generators, sense windows, the SAFE
ramp-down, and the commands of their rows.
-/

namespace Sys2Proof.Machine

def State.hvUnit (s : State) (u : Nat) : HvUnit := Tab.get {} s.hv.unit u
def State.modHv (s : State) (u : Nat) (g : HvUnit → HvUnit) : State :=
  { s with hv := { s.hv with unit := Tab.put {} s.hv.unit u (g (s.hvUnit u)) } }
def State.hvAc (s : State) (g : Nat) : HvAc := Tab.get {} s.hv.ac g
def State.modAc (s : State) (g : Nat) (h : HvAc → HvAc) : State :=
  { s with hv := { s.hv with ac := Tab.put {} s.hv.ac g (h (s.hvAc g)) } }

/-- The ACT domain is on (R34). -/
def State.hvOn (s : State) : Bool := s.domOn 14

/-- An HV period (R334). -/
def hvPeriod : Nat := 32768

/-- Bits of `n` in reverse order. -/
def revBits : Nat → Nat → Nat
  | 0, _ => 0
  | w + 1, n => n % 2 * 2 ^ w + revBits w (n / 2)

def State.hvValue (s : State) (u : Nat) : Nat := s.f (Reg.HV_VALUE u) 15 0

/-- SAFE_ACTIVE (R340). -/
def State.hvSafeActive (s : State) : Bool := s.fb Reg.HV_STATUS 3

/-! ### Values and ramps (R335) -/

/-- The last changes of a value, newest first, with one more: changes at one edge are one change. A result is 3,200 ticks
old (R333), less than a period, so three reach back to the value at its sample. -/
def noteChange (t : Tick) (v : Nat) (l : List (Tick × Nat)) : List (Tick × Nat) :=
  ((t, v) :: l.filter fun p => p.1 ≠ t).take 3

/-- Set a unit's value; a change of R clears the run of outside samples (R338). -/
def State.setHv (s : State) (u v : Nat) : State :=
  if s.hvValue u = v then s
  else
    let s := (s.setF (Reg.HV_VALUE u) 15 0 v).modHv u fun x => { x with chg := noteChange s.clk.tb v x.chg }
    if u < 24 then s.setF (Reg.HV_SENSE u) 15 12 0 else s

/-- V0 + trunc((V1 − V0) × i ÷ N). -/
def rampValue (v0 v1 i n : Nat) : Nat :=
  if n ≤ i then v1 else ((v0 : Int) + Int.tdiv (((v1 : Int) - v0) * i) n).toNat

/-- One period boundary of a ramp in progress. -/
def State.rampStepHv (s : State) (u : Nat) : State :=
  let x := s.hvUnit u
  if x.ramping then
    let s := s.setHv u (rampValue x.v0 x.v1 (x.i + 1) x.n)
    let go := x.i + 1 < x.n
    (s.modHv u fun x => { x with i := x.i + 1, ramping := go }).setB (Reg.HV_VALUE u) 16 go
  else s

/-- Start a ramp from the value in force. Its first boundary is the first at or after now, the present edge included. -/
def State.startRamp (s : State) (u v1 n : Nat) : State :=
  let s := (s.modHv u fun x => { x with v0 := s.hvValue u, v1 := v1, n := n, i := 0, ramping := true }).setB
    (Reg.HV_VALUE u) 16 true
  if s.hv.last = some s.clk.tb then s.rampStepHv u else s

/-- A ramp stops at the value it has reached. -/
def State.stopRamp (s : State) (u : Nat) : State :=
  (s.modHv u fun x => { x with ramping := false }).setB (Reg.HV_VALUE u) 16 false

/-- A write of HV_RAMP (R335, R340, R341). -/
def State.hvRampWrite (s : State) (u : Nat) (w : Word) : State :=
  if s.hvSafeActive then s.setB Reg.HV_IRQ_STATUS 3 true
  else
    let s := s.setReg (Reg.HV_RAMP u) w
    if (s.hvUnit u).ttAt = some s.clk.tb && s.clk.tb % hvPeriod = 0 then s else s.startRamp u (bits w 15 0) (bits w 31 16)

/-! ### SAFE ramp-down (R340) -/

/-- The stage in progress ends; after stage 7 the ramp-down is over. -/
def State.endStage (s : State) : State :=
  if s.f Reg.HV_STATUS 2 0 = 7 then
    ((s.setB Reg.HV_STATUS 3 false).setF Reg.HV_STATUS 2 0 0).setB Reg.HV_IRQ_STATUS 2 true
  else { s with hv := { s.hv with ended := true } }

/-- Every unit of the stage holds 0, and each of its references with EN set senses no more than OFS + TOL. -/
def State.stageDown (s : State) : Bool :=
  s.hv.units.all fun u => s.hvValue u = 0 && (23 < u || (s.af (Reg.HV_WIN u) 16 16 = 0 ||
    (s.f (Reg.HV_SENSE u) 11 0 : Int) ≤ toSigned 16 (s.af (Reg.HV_SGAIN u) 31 16) + s.af (Reg.HV_WIN u) 11 0))

/-- The stage of a SAFE ramp-down is over once its units have come to rest (R340). -/
def State.checkStage (s : State) : State :=
  if s.hvSafeActive && !s.hv.ended && s.stageDown then s.endStage else s

/-- Stage n begins: its units ramp to 0. -/
def State.beginStage (s : State) (n : Nat) : State :=
  let us := (List.range 28).filter fun u => s.f (Reg.HV_SAFE u) 2 0 = n && s.hvValue u ≠ 0
  let s := s.setF Reg.HV_STATUS 2 0 n
  let s := { s with hv := { s.hv with stageAt := s.clk.tb, units := us, ended := false } }
  (us.foldl (fun s u => s.startRamp u 0 (s.f (Reg.HV_SAFE u) 31 16)) s).checkStage

/-- SAFE entry on HV. -/
def State.hvSafe (s : State) : State :=
  (((List.range 28).foldl State.stopRamp s).setB Reg.HV_STATUS 3 true).beginStage 0

/-- The PWM high time of a reference (R334). -/
def refHigh (r j : Nat) : Nat := 32 * (r / 64) + (if revBits 6 (j % 64) < r % 64 then 32 else 0)

/-- Ball HVREF r (R334): its value stands from one boundary to the next, a BRST apart. -/
def State.hvrefBall (s : State) (r : Nat) : Option Bool :=
  s.ball 14 (s.clk.tb % hvPeriod < refHigh (s.hvValue r) (s.clk.tb / hvPeriod)) false

/-! ### AC generators (R337) -/

def State.acEntry (s : State) (g band i : Nat) : Int :=
  clampInt (-2048) 2047 (toSigned 16 (Tab.get 0 s.hv.wave (2048 * g + 256 * band + i)))

/-- One update of a generator. -/
def State.acUpdate (s : State) (j g : Nat) : State :=
  let x := s.hvAc g
  let φ := x.phase + s.af (Reg.HV_AC_INC (24 + g)) 31 0
  let wrap := 2 ^ 32 ≤ φ
  let s := if wrap then (s.applyS (Reg.HV_AC_INC (24 + g))).setF Reg.HV_STATUS 6 4 s.thmBand else s
  let band := if wrap then s.thmBand else x.band
  let e := s.acEntry g band (φ % 2 ^ 32 / 2 ^ 24)
  let q := (clampInt 0 4095 (2048 + floorDiv (e * s.hvValue (24 + g)) 65536)).toNat
  let high := 32 * (q / 16) + (if revBits 4 (j % 16) < q % 16 then 32 else 0)
  s.modAc g fun _ => { phase := φ % 2 ^ 32, band := band, high := high }

/-- Ball HVAC g (R334, R337). -/
def State.hvacBall (s : State) (g : Nat) : Option Bool := s.ball 14 (s.clk.tb % 8192 < (s.hvAc g).high) false

/-! ### Sense windows (R338, R339) -/

/-- The value in force at a time, with the time of the last change before it. -/
def HvUnit.valueAt (x : HvUnit) (t : Tick) : Nat × Option Tick :=
  match x.chg.find? (fun p => p.1 ≤ t) with
  | some (c, v) => (v, some c)
  | none => (0, none)

/-- A violation on reference r: HV_WINDOW for each committed sheet with a claim whose window contains the last sample
and whose EXIT action is still to come. -/
def State.hvViolation (s : State) (r ts : Nat) : State :=
  let s := ((s.incSat Reg.HV_CNT 15 0).setB Reg.HV_IRQ_STATUS 0 true).raise srcHV 0
  s.causeWhere cHV_WINDOW fun _ sh => if sh.exitToCome then sh.claimAt kHV r ts else none

/-- The window check of a sample of reference r taken at `ts`. -/
def State.hvSample (s : State) (r code ts : Nat) : State :=
  let s := s.setF (Reg.HV_SENSE r) 11 0 code
  let (v, c) := (s.hvUnit r).valueAt ts
  let quiet := match c with
    | some c => c + s.af (Reg.HV_WIN r) 31 24 * hvPeriod ≤ ts
    | none => true
  let s := if s.af (Reg.HV_WIN r) 16 16 = 1 && quiet then
      let x := (v * s.af (Reg.HV_SGAIN r) 15 0 / 65536 : Nat) + toSigned 16 (s.af (Reg.HV_SGAIN r) 31 16)
      if ((code : Int) - x).natAbs ≤ s.af (Reg.HV_WIN r) 11 0 then s.setF (Reg.HV_SENSE r) 15 12 0
      else
        let n := s.f (Reg.HV_SENSE r) 15 12 + 1
        if s.af (Reg.HV_WIN r) 15 12 ≤ n then (s.setF (Reg.HV_SENSE r) 15 12 0).hvViolation r ts
        else s.setF (Reg.HV_SENSE r) 15 12 n
    else s
  s.checkStage

/-! ### Running state, views and reset -/

/-- Unit u counts as running (R357). -/
def State.hvRunning (s : State) (u : Nat) : Bool := s.hvValue u ≠ 0 || (s.hvUnit u).ramping
def State.hvAnyRunning (s : State) : Bool := (List.range 28).any s.hvRunning

/-- HV_VALUE as it reads: SETTLED when the value has stood for SETTLE periods. -/
def State.hvValueView (s : State) (u : Nat) : Word :=
  let settle := if u < 24 then s.af (Reg.HV_WIN u) 31 24 else 0
  let ok := match (s.hvUnit u).chg with
    | [] => true
    | p :: _ => p.1 + settle * hvPeriod ≤ s.clk.tb
  putBits (s.reg (Reg.HV_VALUE u)) 17 17 (if ok then 1 else 0)

/-- What a BRST of HV does beside its registers (R358): a value that falls to 0 has changed now. -/
def State.hvReset (s : State) : State :=
  { s with hv := { unit := (List.range 28).foldl (fun t u => Tab.put {} t u
      { chg := if s.hvValue u = 0 then (s.hvUnit u).chg else noteChange s.clk.tb 0 (s.hvUnit u).chg }) [] } }

end Sys2Proof.Machine
end

