-- ==== Sys2Proof/Machine/Ledger.lean ====
section
/-!
DEFINITION. The Ledger (R474–R480): regions, records, unit writes, verification and retirement of sectors, and the
commands of its rows.
-/

namespace Sys2Proof.Machine

/-- A region of R474: its first logical sector and the units it rings over; SIDINGS and IDENT are no rings (R475, R479). -/
structure LdgRegion where
  sector : Nat
  units : Nat
  ring : Bool
deriving DecidableEq, Repr

def ldgRegion (n : Nat) : LdgRegion :=
  match n with
  | 0 => ⟨0, 1024, false⟩
  | 1 => ⟨8, 1024, false⟩
  | 2 => ⟨16, 3072, false⟩
  | 3 => ⟨40, 32768, true⟩
  | 4 => ⟨296, 49150, true⟩
  | 5 => ⟨680, 8192, true⟩
  | 6 => ⟨744, 4096, false⟩
  | _ => ⟨776, 15360, false⟩

/-- The kind that stands for the wear fold of a station (R485). -/
def foldKind (st : Nat) : Nat := 0x100 + st

/-- The region of a record kind (R476), and of a wear fold. -/
def kindRegion (kind : Nat) : Nat :=
  if 0x100 ≤ kind then 6
  else if kind = 0x30 then 4
  else if 0x22 ≤ kind ∧ kind ≤ 0x24 then 1
  else if 0x10 ≤ kind ∧ kind ≤ 0x17 then 2
  else if kind ≤ 4 then 3
  else 5

/-- The address of a unit of a region. -/
def unitAddr (n u : Nat) : Nat := ledgerBase + (ldgRegion n).sector * 4096 + 32 * u

/-- LDG_HEAD: the next unit of a region. -/
def State.ldgHead (s : State) (n : Nat) : Nat := s.f (Reg.LDG_HEAD n) 15 0

/-- The bytes of a record (R475); a wear fold has no header and no CRC. -/
def LdgReq.bytes (r : LdgReq) : List Byte :=
  if 0x100 ≤ r.kind then r.body else
  let b := bytesLE 1 r.kind ++ bytesLE 1 r.units ++ bytesLE 2 0 ++ bytesLE 4 r.seq ++ bytesLE 8 r.time ++ r.body
  let b := b ++ List.replicate (32 * r.units - 4 - b.length) 0
  b ++ bytesLE 4 (crc32 b)

/-- Place a record in its region as its first unit is written; none when SIDINGS or IDENT has no room. -/
def State.ldgPlace (s : State) (r : LdgReq) : Option (LdgReq × State) :=
  let n := kindRegion r.kind
  let g := ldgRegion n
  let u := s.ldgHead n
  if !g.ring && g.units < u + r.units then none
  else
    let q := Tab.get 0 s.ldg.seq n
    let s := s.setF (Reg.LDG_HEAD n) 15 0 (if g.ring then (u + r.units) % g.units else u + r.units)
    some ({ r with base := some u, seq := q },
      { s with ldg := { s.ldg with seq := Tab.put 0 s.ldg.seq n (q + 1) } })

/-- `a` is taken before `b` (R477). -/
def LdgReq.before (a b : LdgReq) : Bool :=
  a.cls < b.cls || (a.cls == b.cls && (a.time < b.time || (a.time == b.time && a.kind < b.kind)))

/-- The request that is taken next. -/
def nextReq : List LdgReq → Option LdgReq
  | [] => none
  | r :: rs => match nextReq rs with
    | none => some r
    | some q => if q.before r then some q else some r

/-- Take the next unit's record from the highest class. -/
def State.ldgNext (s : State) : State :=
  match nextReq s.ldg.queue with
  | none => { s with ldg := { s.ldg with cur := none } }
  | some r => { s with ldg := { s.ldg with cur := some r, queue := s.ldg.queue.erase r } }

/-! ### Verification (R480) -/

/-- Raise an event of LDG. -/
def State.ldgEvent (s : State) (e : Nat) : State := (s.setB Reg.LDG_IRQ_STATUS e true).raise srcLDG e

/-- Retire the physical sector of a logical one: its contents move to a reserve sector. -/
def State.ldgRetire (s : State) (l : Nat) : State :=
  match s.ldgSpare with
  | none => (s.setB Reg.LDG_STATUS 2 true).ldgEvent 2
  | some q =>
    let p := s.ldgPhys l
    let s := { s.takeFresh.2 with
      ldg := { s.ldg with map := Tab.put none s.ldg.map l (some q), reserve := s.ldg.reserve.erase q } }
    let left : Nat := s.ldg.reserve.length
    let s := s.setF Reg.LDG_STATUS 15 8 left
    let s := s.ldgRecord 2 0x17 1 (bytesLE 2 p ++ bytesLE 2 q)
    if left ≤ 16 then s.ldgEvent 1 else s

/-- Check one unit written to a logical sector: whether the first and the second read-back agree. -/
def State.ldgVerify (s : State) (l : Nat) (first second : Bool) : State :=
  let s := s.ldgWrote l
  if first then s
  else
    let s := (s.ldgWrote l).ldgEvent 0
    if second then s else s.ldgRetire l

/-! ### Unit writes (R477) -/

/-- A wear fold has been written, or refused by a read-only Ledger: the power-down of its domain goes on once no fold of
its stations waits (R485). -/
def State.foldEnded (s : State) (kind : Nat) : State :=
  let d := 7 + (kind - 0x100) / 2
  if s.bkg.lastFolds.contains d &&
      !(s.ldg.queue.any fun r => r.kind == foldKind (2 * (d - 7)) || r.kind == foldKind (2 * (d - 7) + 1)) then
    { s with bkg := { s.bkg with lastFolds := s.bkg.lastFolds.erase d } }.setStep d (some s.now)
  else s

/-- What the end of a record brings: what SEC and TT recover from it (R464), LDG_APP's status, and the end of a fold. -/
def State.ldgEnded (s : State) (r : LdgReq) : State :=
  match r.kind with
  | 0x02 => { s with ldg := { s.ldg with out := sliceLE r.bytes 0x20 8 } }
  | 0x04 => { s with ldg := { s.ldg with out := sliceLE r.bytes 0x20 8 } }
  | 0x30 => { s with ldg := { s.ldg with
      delivered := sliceLE r.body 0x28 8, nonbill := sliceLE r.body 0x30 8, meterSeq := sliceLE r.body 0x18 4 + 1 } }
  | 0x23 => { s with ldg := { s.ldg with cert := true } }
  | k =>
    if 0x100 ≤ k then s.foldEnded k
    else if r.cls = 5 && 0x40 ≤ k && k ≤ 0x7F then s.setF Reg.LDG_APP_STATUS 1 0 2 else s

/-- The end of a wear-levelling move (R480): the sectors change places. -/
def State.ldgMoved (s : State) (l : Nat) : State :=
  match s.ldgMoveTo with
  | none => s
  | some q =>
    let p := s.ldgPhys l
    let s := { s.takeFresh.2 with ldg := { s.ldg with
      map := Tab.put none s.ldg.map l (if q = l then none else some q)
      reserve := s.ldg.reserve.erase q ++ [p]
      counts := Tab.put 0 s.ldg.counts q (s.ldgCount q + 128) } }
    s.incSat Reg.LDG_CNT 31 16

/-- A record could not be placed: SIDINGS is full (R475). -/
def State.ldgNoRoom (s : State) (r : LdgReq) : State :=
  (if kindRegion r.kind = 2 then s.setB Reg.LDG_STATUS 3 true else s).ldgLost

/-- The unit in progress completes, and the next one is taken by class. -/
def State.ldgUnit (s : State) (first second : Bool) : State :=
  match s.ldg.cur with
  | none => s
  | some r =>
    if s.fb Reg.LDG_STATUS 2 then
      (if r.kind = 0 then s else if 0x100 ≤ r.kind then s.foldEnded r.kind
        else if r.cls = 5 then s.setF Reg.LDG_APP_STATUS 1 0 3 else s.ldgLost).ldgNext
    else if r.kind = 0 then
      if r.done + 1 < r.units then
        { s with ldg := { s.ldg with queue := { r with done := r.done + 1 } :: s.ldg.queue } }.ldgNext
      else (s.ldgMoved (natLE r.body)).ldgNext
    else
      let placed := match r.base with
        | some _ => some (r, s)
        | none => s.ldgPlace r
      match placed with
      | none => (s.ldgNoRoom r).ldgNext
      | some (r, s) =>
        let n := kindRegion r.kind
        let g := ldgRegion n
        let u := (r.base.getD 0 + r.done) % (if g.ring then g.units else g.units + 1)
        let s := s.storeBytes (unitAddr n u) ((r.bytes.drop (32 * r.done)).take 32)
        let s := s.ldgVerify (g.sector + u / 128) first second
        let r := { r with done := r.done + 1 }
        if r.done < r.units then { s with ldg := { s.ldg with queue := r :: s.ldg.queue } }.ldgNext
        else (s.ldgEnded r).ldgNext

/-- Write on until no reset mark waits: a mark is complete before CRST asserts (R84, R391). -/
def State.ldgMarks (s : State) : Nat → State
  | 0 => s
  | n + 1 => if s.ldgWaiting.any fun r => r.cls == 1 then (s.ldgUnit true true).ldgMarks n else s

/-! ### Appends (R478) -/

/-- An append is pending. -/
def State.appPending (s : State) : Bool := s.ldgWaiting.any fun r => r.cls == 5

/-- A write to LDG_APP_KIND. A refused one is reported, whatever append is pending (log entry 38). -/
def State.ldgApp (s : State) (kind : Nat) : State :=
  if s.appPending || kind < 0x40 || 0x7F < kind || s.fb Reg.LDG_STATUS 2 then s.setF Reg.LDG_APP_STATUS 1 0 3
  else
    let body := (List.range 3).flatMap fun w => bytesLE 4 (s.reg (Reg.LDG_APP_BODY w)).toNat
    (s.setF Reg.LDG_APP_STATUS 1 0 1).ldgRecord 5 kind 1 body

end Sys2Proof.Machine
end

