-- ==== Sys2Proof/Machine/Stp.lean ====
section
/-!
DEFINITION. The stepper channels and encoders (R300–R331): profiles, the latch of commands at motion-period boundaries,
hard and ramp stops, limits, encoders, gearing, load angle and stall, STEP edges and winding currents.
-/

namespace Sys2Proof.Machine

def State.stpCh (s : State) (c : Nat) : StpCh := Tab.get {} s.stp.ch c
def State.modStp (s : State) (c : Nat) (g : StpCh → StpCh) : State :=
  { s with stp := { s.stp with ch := Tab.put {} s.stp.ch c (g (s.stpCh c)) } }
def State.stpEnc (s : State) (e : Nat) : StpEnc := Tab.get {} s.stp.enc e
def State.modEnc (s : State) (e : Nat) (g : StpEnc → StpEnc) : State :=
  { s with stp := { s.stp with enc := Tab.put {} s.stp.enc e (g (s.stpEnc e)) } }

/-! ### States and registers -/

/-- STP_STATE.STATE. -/
def pIDLE : Nat := 0
def pMOVING : Nat := 1
def pRUNNING : Nat := 2
def pGEARED : Nat := 3
def pFALLBACK : Nat := 4
def pSTOPPING : Nat := 5
def pHELD : Nat := 6
def pFAULT : Nat := 7

/-- STP_STATE.REFUSE. -/
def peSTATE : Nat := 1
def peLIMIT : Nat := 2
def pePARAM : Nat := 3
def peENC : Nat := 4
def peSAFE : Nat := 5
def peFAULT : Nat := 6
def peSUPERSEDED : Nat := 7

def State.stpState (s : State) (c : Nat) : Nat := s.f (Reg.STP_STATE c) 3 0

/-- "Moving" (R310). -/
def movingState (n : Nat) : Bool := 1 ≤ n && n ≤ 5
def State.moving (s : State) (c : Nat) : Bool := movingState (s.stpState c)

/-- Channel c's part counts as running (R329). -/
def State.stpRunning (s : State) (c : Nat) : Bool := s.stpState c ≠ pIDLE && s.stpState c ≠ pFAULT

/-- Encoder e's class L fields are locked (R329). -/
def State.encRunning (s : State) (e : Nat) : Bool :=
  s.fb (Reg.STP_ENC_CFG e) 0 || (List.range 32).any fun c =>
    (s.stpState c = pGEARED || s.stpState c = pFALLBACK) && s.f (Reg.STP_CFG c) 11 9 = e

def State.stpIrq (s : State) (c i : Nat) : State := s.setB (Reg.STP_IRQ_STATUS c) i true

/-- STP_CFG.MODE: 0 POSITION, 1 VELOCITY, 2 GEAR. -/
def State.stpMode (s : State) (c : Nat) : Nat := s.f (Reg.STP_CFG c) 1 0
def State.masterOf (s : State) (c : Nat) : Nat := s.f (Reg.STP_CFG c) 11 9

/-- The target, speed, accelerations and start speed in force (R309). -/
def State.stpT (s : State) (c : Nat) : Int :=
  toSigned 48 (s.af (Reg.STP_TGT_LO c) 31 0 + 2 ^ 32 * s.af (Reg.STP_TGT_HI c) 15 0)
def State.vcmd (s : State) (c : Nat) : Int := toSigned 32 (s.af (Reg.STP_VCMD c) 31 0)
def State.stpAcc (s : State) (c : Nat) : Nat := s.af (Reg.STP_ACC c) 15 0
def State.stpDec (s : State) (c : Nat) : Nat := s.af (Reg.STP_ACC c) 31 16
def State.vstart (s : State) (c : Nat) : Nat := s.af (Reg.STP_PROF c) 31 16

/-- JT, 1 for the trapezoid (R308). -/
def State.jt (s : State) (c : Nat) : Nat := if s.fb (Reg.STP_CFG c) 2 then max 1 (s.f (Reg.STP_PROF c) 10 0) else 1

/-- The magnitude of a speed is limited to 4,000,000 (R302). -/
def speedWord (w : Word) : Word := wordOfInt (clampInt (-4000000) 4000000 (toSigned 32 w.toNat))

/-- A master or encoder count (R317). -/
def State.encCount (s : State) (e : Nat) : Int :=
  toSigned 48 ((s.reg (Reg.STP_ENC_CNT_LO e)).toNat + 2 ^ 32 * s.f (Reg.STP_ENC_CNT_HI e) 15 0)

def State.setPair48 (s : State) (lo hi : Nat) (v : Int) : State :=
  (s.setReg lo (BitVec.ofNat 32 (fromSigned 48 v))).setReg hi (BitVec.ofNat 32 (fromSigned 48 v / 2 ^ 32))

/-! ### Position (R303) -/

def unit32 : Int := 2 ^ 32

/-- The last integer crossed at an ACT edge, when P moves linearly from p0 to p1 over 6,400 ticks and `e` of them have
passed. -/
def crossed (p0 p1 pos : Int) (e : Nat) : Int :=
  let num := p0 * 6400 + (p1 - p0) * e
  let lo := floorDiv num (6400 * unit32)
  let hi := -(floorDiv (-num) (6400 * unit32))
  if pos + 1 ≤ lo then lo else if hi ≤ pos - 1 then hi else pos

/-- STP_POS at the present time. -/
def State.stpPos (s : State) (c : Nat) : Int :=
  let x := s.stpCh c
  crossed x.p0 x.p1 x.pos (min 6400 ((s.clk.tb - x.t0) / 32 * 32))

/-- The electrical angle of channels 0–15 (R305). -/
def State.stpTheta (s : State) (c : Nat) : Nat := fromSigned 10 (s.stpPos c) * 64

/-- The channel stands at a position: P is the position and the fraction is dropped. -/
def State.standAt (s : State) (c : Nat) (pos : Int) : State :=
  s.modStp c fun x => { x with p0 := pos * unit32, p1 := pos * unit32, t0 := s.clk.tb, pos := pos, gp := pos * unit32
                               gv := 0, v := 0, raw := [], rawP := [] }

def State.setRem (s : State) (c : Nat) (v : Int) : State := s.setPair48 (Reg.STP_REM_LO c) (Reg.STP_REM_HI c) v

/-- T becomes a position at once, and the remainder is discarded (R310, R314). -/
def State.targetHere (s : State) (c : Nat) : State :=
  let n := fromSigned 48 (s.stpPos c)
  ((s.setNow (Reg.STP_TGT_LO c) 31 0 (n % 2 ^ 32)).setNow (Reg.STP_TGT_HI c) 15 0 (n / 2 ^ 32)).setRem c 0

/-! ### State changes -/

/-- Enter a state: IDLE, HELD and FAULT end manual motion (R47), and IDLE and HELD start the hold time (R322). EN enables
a moving channel's driver; whether it stays enabled at rest is open (log entry 106). -/
def State.enterStp (s : State) (c n : Nat) : State :=
  let s := s.setF (Reg.STP_STATE c) 3 0 n
  let s := if n = pIDLE || n = pHELD || n = pFAULT then s.setB Reg.SYS_SVC_MOTION_STP c false else s
  let s := if n = pHELD then s.stpIrq c 1 else s
  if movingState n then s.modStp c fun x => { x with hold := false, enabled := true }
  else
    let (u, s) := s.takeFresh
    s.modStp c fun x => { x with bySafe := false, restAt := s.clk.tb, hold := false, encFault := false, revAt := none
                                 enabled := x.enabled && Config.freeNat u % 2 == 1 }

/-- The steps whose crossings or edges lie too late after a stop are not taken (R315, R320). -/
def dropSteps (now last : Tick) (xs : List StepPulse) : List StepPulse :=
  xs.filter fun p => p.cross ≤ now && p.rise ≤ last

/-- A hard stop (R315): the steps already issued stand, no edge falls more than 640 ticks later, and the windings stay at
HOLD_I. -/
def State.hardStop (s : State) (c n : Nat) : State :=
  let pos := s.stpPos c
  let s := (s.standAt c pos).setRem c (s.stpT c - pos)
  let s := (s.enterStp c n).modStp c fun x =>
    { x with hold := true, steps := dropSteps s.clk.tb (s.clk.tb + 640) x.steps }
  if c ≤ 15 then s.setF (Reg.STP_LA_MEAS c) 31 16 (s.af (Reg.STP_CUR2 c) 15 0) else s

/-- Enter FAULT with a code: 1 STALL, 2 LAG (R310, R326). -/
def State.stpFault (s : State) (c code : Nat) : State :=
  let s := (s.hardStop c pFAULT).setF (Reg.STP_STATE c) 17 16 code
  ((s.stpIrq c 2).raise srcSTP 1).axisFault (16 + c)

/-- RESULT ACCEPTED (R311). -/
def State.stpAccept (s : State) (c : Nat) : State :=
  (s.setF (Reg.STP_STATE c) 9 8 1).setF (Reg.STP_STATE c) 13 10 0

/-- RESULT REFUSED with a reason (R311, R326). -/
def State.stpRefuse (s : State) (c reason : Nat) (by' : Option Nat) : State :=
  let s := (s.setF (Reg.STP_STATE c) 9 8 2).setF (Reg.STP_STATE c) 13 10 reason
  ((s.stpIrq c 3).raise srcSTP 2).axisFaultBy by' (16 + c)

/-- One period of speed v in 2^−32 position units (R303). -/
def periodStep (v : Int) : Int := roundUpDiv (v * 65536) 1000000

/-- Where the generator of a channel that has run at speed `v` stands beyond its S-curve mean, and its last `n` positions,
for a mean at `p` (R308). -/
def meanLead (n : Nat) (v : Int) : Int := floorDiv ((n - 1 : Nat) * periodStep v) 2
def meanBack (n : Nat) (p v : Int) : List Int := (List.range n).map fun i => p + meanLead n v - i * periodStep v

/-- A ramp stop begins (R313). Gearing and fall-back hand their speed to the generator. -/
def State.rampStop (s : State) (c : Nat) (safe : Bool) : State :=
  let st := s.stpState c
  let s := if st = pGEARED || st = pFALLBACK then
      s.modStp c fun x => { x with gv := x.v, raw := List.replicate (s.jt c) x.v
                                   gp := x.p1 + meanLead (s.jt c) x.v, rawP := meanBack (s.jt c) x.p1 x.v } else s
  (s.enterStp c pSTOPPING).modStp c fun x => { x with bySafe := safe }

/-! ### Limits (R316) -/

/-- A limit's sense input is active. -/
def State.limitActive (s : State) (input : Nat) : Bool := input ≤ 95 && s.fb (Reg.SNS_IN_STATE input) 0

def State.limNeg (s : State) (c : Nat) : Bool := s.limitActive (s.f (Reg.STP_LIM c) 6 0)
def State.limPos (s : State) (c : Nat) : Bool := s.limitActive (s.f (Reg.STP_LIM c) 14 8)

/-- The signs a moving channel's speed and target have. -/
def State.towards (s : State) (c : Nat) (neg : Bool) : Bool :=
  let sg : Int := if neg then -1 else 1
  let st := s.stpState c
  0 < sg * (s.stpCh c).v || 0 < sg * (s.stpCh c).gv ||
    (st = pMOVING && 0 < sg * (s.stpT c - s.stpPos c)) || (st = pRUNNING && 0 < sg * s.vcmd c)

/-- A limit stop (R316, R326). -/
def State.limitStop (s : State) (c : Nat) (hard : Bool) : State :=
  let s := ((s.stpIrq c 4).incSat (Reg.STP_CNT c) 15 8).axisFault (16 + c)
  if hard then s.hardStop c pHELD else s.rampStop c false

/-- Stop motion toward an active limit: at its activation and, for motion that turns toward it, at a boundary. -/
def State.checkLimit (s : State) (c : Nat) (neg : Bool) : State :=
  let act := if neg then s.limNeg c else s.limPos c
  let hard := s.fb (Reg.STP_LIM c) (if neg then 7 else 15)
  if act && s.moving c && s.towards c neg && (hard || s.stpState c ≠ pSTOPPING) then s.limitStop c hard else s

/-- The limits of a channel at a boundary (R314, R316). -/
def State.checkLimits (s : State) (c : Nat) : State := (s.checkLimit c true).checkLimit c false

/-- LIMIT_ACTIVATE: sense input n has become active. -/
def State.limitActivate (s : State) (n : Nat) : State :=
  if !s.actOn then s else
  (List.range 32).foldl (fun s c =>
    let s := if s.f (Reg.STP_LIM c) 6 0 = n then s.checkLimit c true else s
    if s.f (Reg.STP_LIM c) 14 8 = n then s.checkLimit c false else s) s

/-! ### Encoders and gearing (R317–R321) -/

/-- An encoder fault (R317, R321). -/
def State.encFault (s : State) (e kind : Nat) : State :=
  let s := ((s.setB (Reg.STP_ENC_STATUS e) 0 true).setF (Reg.STP_ENC_STATUS e) 2 1 kind).raise srcSTP 3
  (List.range 32).foldl (fun s c =>
    if s.stpState c = pGEARED && s.masterOf c = e then s.modStp c fun x => { x with encFault := true } else s) s

/-- Change an encoder's count, keeping the counts of the last 6,400,000 ticks. -/
def State.setCount (s : State) (e : Nat) (m : Int) : State :=
  let old := s.encCount e
  let s := s.setPair48 (Reg.STP_ENC_CNT_LO e) (Reg.STP_ENC_CNT_HI e) m
  s.modEnc e fun x =>
    let h := if x.hist.isEmpty then [(0, old)] else x.hist
    { x with hist := (s.clk.tb, toSigned 48 (fromSigned 48 m)) :: h }

/-- The count 6,400,000 ticks ago, and the history without what lies before it. -/
def countAt (t : Tick) : List (Tick × Int) → Int × List (Tick × Int)
  | [] => (0, [])
  | p :: ps => if p.1 ≤ t then (p.2, [p]) else ((countAt t ps).1, p :: (countAt t ps).2)

/-- STP_ENC_SPEED at a motion-period boundary (R317). -/
def State.encSpeed (s : State) (e : Nat) : State :=
  let x := s.stpEnc e
  if x.hist.isEmpty then s
  else
    let (old, h) := countAt (s.clk.tb - 6400000) x.hist
    (s.setReg (Reg.STP_ENC_SPEED e) (wordOfInt ((s.encCount e - old) * 1000))).modEnc e fun x => { x with hist := h }

def State.gearNum (s : State) (c : Nat) : Int := toSigned 32 (s.reg (Reg.STP_GEAR_NUM c)).toNat
def State.gearDen (s : State) (c : Nat) : Nat := (s.reg (Reg.STP_GEAR_DEN c)).toNat

/-- The steps a master count gives from the engagement or the last ratio change (R318). -/
def State.geared (s : State) (c : Nat) (m : Int) : Int :=
  floorDiv (toSigned 48 (fromSigned 48 (m - (s.stpCh c).m0)) * s.gearNum c) (s.gearDen c)

/-- The commanded position C (R318). -/
def State.gearC (s : State) (c : Nat) : Int := (s.stpCh c).s0 + s.geared c (s.encCount (s.masterOf c))

/-- P within the running period (R303), in 2^−32 position units. -/
def State.stpP (s : State) (c : Nat) : Int :=
  let x := s.stpCh c
  x.p0 + floorDiv ((x.p1 - x.p0) * (min 6400 (s.clk.tb - x.t0) : Nat)) 6400

/-- No step falls before the next boundary (R320): P stands where it is. -/
def State.freezeStp (s : State) (c : Nat) : State :=
  let p := s.stpP c
  let pos := s.stpPos c
  s.modStp c fun x => { x with p0 := p, p1 := p, gp := p, pos := pos, steps := dropSteps s.clk.tb s.clk.tb x.steps }

/-- A ratio change takes effect at the master count AT (R320). -/
def State.ratioChange (s : State) (c : Nat) (m : Int) : State :=
  let d := s.geared c m
  let s := if s.stpState c = pGEARED then s.freezeStp c else s
  let s := s.modStp c fun x => { x with s0 := x.s0 + d, m0 := m }
  let s := s.setReg (Reg.STP_GEAR_NUM c) (s.reg (Reg.STP_GEAR_NEXT_NUM c))
  let s := s.setReg (Reg.STP_GEAR_DEN c) (s.reg (Reg.STP_GEAR_NEXT_DEN c))
  ((s.setB (Reg.STP_GEAR_STATUS c) 0 false).incSat (Reg.STP_GEAR_STATUS c) 31 16).stpIrq c 7

/-- The channels whose armed change an encoder's new count reaches. -/
def State.ratioChanges (s : State) (e : Nat) : State :=
  let m := s.encCount e
  (List.range 32).foldl (fun s c =>
    let at' := toSigned 48 ((s.reg (Reg.STP_GEAR_AT_LO c)).toNat + 2 ^ 32 * s.f (Reg.STP_GEAR_AT_HI c) 15 0)
    if s.fb (Reg.STP_GEAR_STATUS c) 0 && s.masterOf c = e && at' = m then s.ratioChange c m else s) s

/-! ### Sampling and quadrature (R317) -/

/-- The direction of a transition of A or B (log entry 107): upward where A leads B. -/
def quadUp (a b turnedA : Bool) : Bool := (a == b) != turnedA

/-- One sample of an encoder's A and B: a count up or down, an ILLEGAL fault where both are taken as changed, or neither. -/
def State.encSample (s : State) (e : Nat) (ab : Bool × Bool) : State :=
  let x := s.stpEnc e
  let filt := s.f (Reg.STP_ENC_CFG e) 5 2
  let a := x.inA.sample filt ab.1
  let b := x.inB.sample filt ab.2
  let s := s.modEnc e fun x => { x with inA := a, inB := b }
  let ta := x.inA.turned a
  let tb := x.inB.turned b
  if ta && tb then s.encFault e 1
  else if ta || tb then
    let up := quadUp (a.level.getD false) (b.level.getD false) ta != s.fb (Reg.STP_ENC_CFG e) 1
    (s.setCount e (s.encCount e + (if up then 1 else -1))).ratioChanges e
  else s

/-- A rising Z edge: the count is latched, and checked against CPR. -/
def State.encIndex (s : State) (e : Nat) : State :=
  let m := s.encCount e
  let old := (s.stpEnc e).z
  let cpr : Int := (s.reg (Reg.STP_ENC_CPR e)).toNat
  let s := (s.setReg (Reg.STP_ENC_INDEX e) (wordOfInt m)).modEnc e fun x => { x with z := some m }
  match old with
  | some z => if cpr ≠ 0 ∧ (m - z) % cpr ≠ 0 then s.encFault e 2 else s
  | none => s

/-- One sample of an encoder's Z. -/
def State.zSample (s : State) (e : Nat) (v : Bool) : State :=
  let x := s.stpEnc e
  let z := x.inZ.sample (s.f (Reg.STP_ENC_CFG e) 5 2) v
  let s := s.modEnc e fun x => { x with inZ := z }
  if x.inZ.turned z && z.level == some true then s.encIndex e else s

/-- The master of a GEARED channel faulted: FALLBACK at the boundary (R321, R326). -/
def State.fallBack (s : State) (c : Nat) : State :=
  if s.stpState c = pGEARED && (s.stpCh c).encFault then
    let s := s.modStp c fun x => { x with fbV := roundUpDiv (x.past.foldl (· + ·) 0) 1000, gv := 0, encFault := false }
    let s := ((s.enterStp c pFALLBACK).stpIrq c 6).raise srcSTP 4
    if s.fb (Reg.STP_CFG c) 6 then s.axisFault (16 + c) else s
  else s

/-! ### Profiles (R306–R308) -/

/-- A speed in 2^−16 units, from a multiple of 2^−16 ÷ 1,000 with a sign (R303). -/
def roundSpeed (sg x1000 : Int) : Int := roundUpDiv (sg * x1000) 1000

/-- One period of deceleration toward zero. -/
def slow (v : Int) (dec : Nat) : Int := roundSpeed v.sign (max 0 (1000 * (v.natAbs : Int) - dec * 65536))

/-- √(2,000 × DEC × d) in 2^−16 units, rounded to nearest, for d in 2^−32 units. -/
def approach (dec d : Nat) : Int := (isqrt (4 * (2000 * dec * d)) + 1) / 2

/-- POSITION (R306): the next speed and generator position. -/
def genPosition (p v t : Int) (acc dec vlim vstart : Nat) : Int × Int :=
  let sg := (t - p).sign
  if sg = 0 then (0, p)
  else if v * sg < 0 then
    let v' := slow v dec
    (v', p + periodStep v')
  else
    let m : Int := v.natAbs
    let top := min (min ((vlim : Int) * 65536) (roundSpeed sg (1000 * m + acc * 65536)).natAbs) (approach dec (t - p).natAbs)
    let low := max ((slow v dec).natAbs : Int) ((vstart : Int) * 65536)
    let v' := sg * max top low
    let p' := p + periodStep v'
    if (t - p') * sg < 0 then (0, t) else (v', p')

/-- VELOCITY (R307): the next speed toward a target speed. -/
def genVelocity (v target : Int) (acc dec vstart : Nat) : Int :=
  let lo : Int := vstart * 65536
  let tv := target * 65536
  let tv := if (tv.natAbs : Int) < lo then 0 else tv
  let cut := fun x : Int => if (x.natAbs : Int) < lo then 0 else x
  if tv = 0 || v * tv < 0 then cut (slow v dec)
  else if v.natAbs < tv.natAbs then
    let up := (roundSpeed tv.sign (1000 * (v.natAbs : Int) + acc * 65536)).natAbs
    tv.sign * min (max (up : Int) lo) tv.natAbs
  else
    let dn := slow v dec
    if dn.natAbs < tv.natAbs then tv else dn

/-- The mean of the last JT speeds or positions (R308). -/
def State.meanOf (s : State) (c : Nat) (xs : List Int) : Int := roundUpDiv (xs.foldl (· + ·) 0) (s.jt c)

/-- A generated speed and position enter the mean. V is the mean of the last JT speeds, and P that of the last JT
positions, so that the move ends exactly at T (R308; log entry 105). -/
def State.advanceMean (s : State) (c : Nat) (gv gp : Int) : State :=
  let n := s.jt c
  s.modStp c fun x =>
    let raw := (gv :: x.raw).take n
    let rawP := (gp :: (if x.rawP.isEmpty then List.replicate n x.gp else x.rawP)).take n
    { x with gv := gv, gp := gp, raw := raw, rawP := rawP, v := s.meanOf c raw, p1 := s.meanOf c rawP }

/-- The speed and position of the coming period (R303); a ramp stop is a target speed of 0 under R307 (R313; log entry
108). -/
def State.generate (s : State) (c : Nat) : State :=
  let x := s.stpCh c
  let st := s.stpState c
  if st = pMOVING then
    let (v, p) := genPosition x.gp x.gv (s.stpT c * unit32) (s.stpAcc c) (s.stpDec c) (s.vcmd c).natAbs (s.vstart c)
    s.advanceMean c v p
  else if st = pRUNNING then
    let v := genVelocity x.gv (s.vcmd c) (s.stpAcc c) (s.stpDec c) (s.vstart c)
    s.advanceMean c v (x.gp + periodStep v)
  else if st = pSTOPPING then
    let v := genVelocity x.gv 0 (s.stpAcc c) (s.stpDec c) (s.vstart c)
    s.advanceMean c v (x.gp + periodStep v)
  else if st = pFALLBACK then
    s.modStp c fun x => { x with gv := x.fbV, v := x.fbV, p1 := x.p1 + periodStep x.fbV, gp := x.p1 + periodStep x.fbV }
  else if st = pGEARED then
    let d := clampInt (-4 * unit32) (4 * unit32) (s.gearC c * unit32 - x.p1)
    s.modStp c fun x => { x with gv := 0, v := floorDiv (d * 1000000) 65536, p1 := x.p1 + d, gp := x.p1 + d }
  else s

/-! ### STEP edges of channels 16–31 (R300, R304) -/

/-- The direction that DIR shows once the steps to come are taken, and the last rising edge of STEP then. -/
def StpCh.dirThen (x : StpCh) : Bool := ((x.steps.filterMap (·.dir)).getLast?.map (·.2)).getD x.dirNeg
def StpCh.riseThen (x : StpCh) : Option Tick := match x.steps.getLast? with | some p => some p.rise | none => x.rise

/-- The pulse of a step in a direction that crosses at `cross` (R304): DIR changes at the earliest time the rules allow
once the new direction is known, and an edge that the rules put off is late. -/
def StpCh.pulse (x : StpCh) (pw su : Nat) (neg : Bool) (cross : Tick) : StepPulse :=
  let known := x.revAt.getD x.t0
  let dirAt := if neg = x.dirThen then none else some (max known ((x.riseThen.map (· + pw + su)).getD 0))
  let setup := (dirAt.map (· + su)).getD 0
  let least := max ((x.riseThen.map (· + 2 * pw)).getD 0) setup
  { cross := cross, rise := max cross least, fall := max cross least + pw, dir := dirAt.map fun d => (d, neg)
    late := (if cross < setup then 1 else 0) + (if cross < least then 1 else 0) }

/-- The ACT edge at or after the crossing of an integer in the running period (R303). -/
def StpCh.crossAt (x : StpCh) (n : Int) : Tick :=
  x.t0 + nextMultiple 32 (ceilDiv ((n * unit32 - x.p0).natAbs * 6400) (x.p1 - x.p0).natAbs)

/-- Place the steps of a period: `n` of them left. -/
def placeSteps (pw su : Nat) (sg : Int) : Nat → Int → StpCh → StpCh
  | 0, _, x => x
  | n + 1, pos, x =>
    let p := x.pulse pw su (decide (sg < 0)) (x.crossAt (pos + sg))
    placeSteps pw su sg n (pos + sg) { x with steps := x.steps ++ [p], revAt := none }

/-- The steps of the coming period. The other direction is known from the boundary at which the motion takes it, or from
the period at zero before it. -/
def State.stepEdges (s : State) (c : Nat) : State :=
  let pw := max 10 (s.f (Reg.STP_STEP c) 7 0) * 32
  let su := max 2 (s.f (Reg.STP_STEP c) 15 8) * 32
  let moving := s.moving c
  if c ≤ 15 then s
  else s.modStp c fun x =>
    let turns := if x.p0 = x.p1 then moving else decide (x.p1 < x.p0) != x.dirThen
    let x := if turns && x.revAt.isNone then { x with revAt := some x.t0 } else x
    let last := crossed x.p0 x.p1 x.pos 6400
    placeSteps pw su (last - x.pos).sign (last - x.pos).natAbs x.pos x

/-- The edges up to now have fallen: late ones are counted, DIR has changed, and pulses that are over are forgotten. -/
def State.stepsDone (s : State) (c : Nat) : State :=
  let now := s.clk.tb
  let past := (s.stpCh c).steps.filter fun p => p.rise ≤ now
  let s := (past.map (·.late)).foldl (fun s n => if n = 0 then s else s.setF (Reg.STP_CNT c) 31 16
    (satAdd 16 (s.f (Reg.STP_CNT c) 31 16) n)) s
  s.modStp c fun x =>
    { x with rise := match past.getLast? with | some p => some p.rise | none => x.rise
             dirNeg := (((x.steps.filterMap (·.dir)).filter fun d => d.1 ≤ now).getLast?.map (·.2)).getD x.dirNeg
             steps := (x.steps.filter fun p => now < p.fall).map fun p => if p.rise ≤ now then { p with late := 0 } else p }

/-- The edges of every STEP/DIR channel up to now. -/
def State.stpStep (s : State) : State :=
  s.stp.ch.foldl (fun s p => if p.2.steps.isEmpty then s else s.stepsDone p.1) s

/-- The levels of STEP, DIR and EN (R300). DIR is low for motion upward where DIR_INV is 0 (log entry 106); the off level of
EN is its disabled one. -/
def State.stepBall (s : State) (c : Nat) : Option Bool :=
  s.ball 14 ((s.stpCh c).steps.any fun p => p.rise ≤ s.clk.tb && s.clk.tb < p.fall) false

def State.dirBall (s : State) (c : Nat) : Option Bool := s.ball 14 ((s.stpCh c).dirNeg != s.fb (Reg.STP_CFG c) 8) false

def State.enBall (s : State) (c : Nat) : Option Bool :=
  s.ball 14 ((s.stpCh c).enabled != s.fb (Reg.STP_CFG c) 7) (s.fb (Reg.STP_CFG c) 7)

/-! ### Winding currents of channels 0–15 (R305) -/

/-- The on-times of a winding for the next period: its PI loop in the form of R274, and the duties of its voltage. -/
def Winding.loop (w : Winding) (tpwm minp : Nat) (kp ki ref i : Int) : Winding :=
  let d := Config.windingDuty (kp * (ref - i) * 2 ^ 8 + w.int) tpwm
  let h := fun n => minPulse tpwm minp (min n tpwm)
  { int := w.int + ki * (ref - i), duty := w.dutyNext, dutyNext := some (h d.1, h d.2) }

/-- A winding current of a PWM period in 2^−20 current units: from the bits of its ΣΔ input, or open where the command
brings none (log entry 3). -/
def State.windCurrent (s : State) (sd : Option (BitVec 766)) : Int × State :=
  match sd with
  | some b => (sdCurrent (32 * 2 ^ s.f Reg.STP_GCFG 23 22) b, s)
  | none => let (u, s) := s.takeFresh; ((Config.freeNat u % 2 ^ 36 : Nat) - 2 ^ 35, s)

/-- The two half bridges of a winding in a PWM period. -/
def windingEdges (p tpwm dead x : Nat) (w : Winding) : List PinEdge :=
  match w.duty with
  | some d => phaseEdges p tpwm dead d.1 x ++ phaseEdges p tpwm dead d.2 (x + 1)
  | none => (List.range 4).map fun i => { pin := 2 * x + i, at' := p, on := false }

/-- The current loops of a channel at a PWM period that begins at `p`, a multiple of TPWM (log entry 106): the references
are I_cmd × cos θ and I_cmd × sin θ, and DIR_INV reverses the winding sequence. A channel without a full scale drives
nothing. -/
def State.windingPwm (s : State) (c : Nat) (p : Tick) (sd : Option (BitVec 766 × BitVec 766)) : State :=
  if s.f (Reg.STP_ISCALE c) 15 0 = 0 then s
  else
    let x := s.stpCh c
    let theta := fromSigned 10 (crossed x.p0 x.p1 x.pos ((p - x.t0) / 32 * 32)) * 64
    let icmd : Int := s.f (Reg.STP_LA_MEAS c) 31 16 * 2 ^ 20
    let sb := if s.fb (Reg.STP_CFG c) 8 then -(sine theta) else sine theta
    let tpwm := s.f Reg.STP_GCFG 20 0
    let dead := s.f Reg.STP_GCFG2 15 0
    let kp : Int := s.af (Reg.STP_CUR_GAIN c) 15 0
    let ki : Int := s.af (Reg.STP_CUR_GAIN c) 31 16
    let (ia, s) := s.windCurrent (sd.map (·.1))
    let (ib, s) := s.windCurrent (sd.map (·.2))
    let loop := fun (w : Winding) ref i => w.loop tpwm (s.f Reg.STP_GCFG2 31 16) kp ki (floorDiv (icmd * ref) (2 ^ 40)) i
    let wa := loop x.windA (cosine theta) ia
    let wb := loop x.windB sb ib
    s.modStp c fun x =>
      { x with windA := wa, windB := wb
               edges := setEdges 8 x.edges (windingEdges p tpwm dead 0 wa ++ windingEdges p tpwm dead 2 wb) p }

/-- The PWM period of the bridge channels that begins in the motion period from now. -/
def State.windings (s : State) (c : Nat) (sd : Option (BitVec 766 × BitVec 766)) : State :=
  let p := nextMultiple (s.f Reg.STP_GCFG 20 0) s.clk.tb
  if c ≤ 15 && p < s.clk.tb + 6400 then s.windingPwm c p sd else s

/-- The level of a bridge output (R300). -/
def State.windBall (s : State) (c pin : Nat) : Option Bool := s.ball 14 (levelAt (s.stpCh c).edges pin s.clk.tb) false

/-! ### Load angle and current (R322, R323) -/

/-- I_cmd from a measured load angle. -/
def State.boost (s : State) (c δ : Nat) : Nat :=
  let run := s.af (Reg.STP_CUR c) 15 0
  let lo := s.f (Reg.STP_LA c) 15 0
  let hi := s.f (Reg.STP_LA c) 31 16
  if hi ≤ lo then run
  else run + (roundUpDiv (((s.af (Reg.STP_CUR c) 31 16 - run) * (min δ hi - lo) : Nat) : Int) ((hi - lo : Nat) : Int)).toNat

/-- A measurement: I_cmd follows δ, and STALL_N measurements at full boost with δ ≥ D_STALL are a STALL. -/
def State.measureAngle (s : State) (c δ : Nat) : State :=
  let i := s.boost c δ
  let s := (s.setF (Reg.STP_LA_MEAS c) 15 0 δ).setF (Reg.STP_LA_MEAS c) 31 16 i
  let hit := i == s.af (Reg.STP_CUR c) 31 16 && s.f (Reg.STP_STALL c) 15 0 ≤ δ
  let n := if hit then (s.stpCh c).stalls + 1 else 0
  let s := s.modStp c fun x => { x with stalls := n }
  if hit && max 1 (s.f (Reg.STP_STALL c) 23 16) ≤ n then
    let s := ((s.modStp c fun x => { x with stalls := 0 }).setB (Reg.STP_STATE c) 6 false).stpFault c 1
    ((s.stpIrq c 5).incSat (Reg.STP_CNT c) 7 0).raise srcSTP 0
  else s

/-- I_cmd at a boundary; `old` is the position at the boundary before, `d` the load angle measured since. -/
def State.current (s : State) (c : Nat) (old : Int) (d : Option Nat) : State :=
  if 15 < c then s
  else if s.moving c then
    if (s.stpCh c).v.natAbs < s.f (Reg.STP_LA_MIN c) 23 0 * 65536 then
      s.setF (Reg.STP_LA_MEAS c) 31 16 (s.af (Reg.STP_CUR c) 15 0)
    else if floorDiv old 256 = floorDiv (s.stpCh c).pos 256 then s
    else match d with
      | some δ => s.measureAngle c (min 16384 δ)
      | none =>
        let (n, s) := s.takeFresh
        s.measureAngle c (min 16384 (Config.freeNat n))
  else if s.stpState c = pFAULT || (s.stpCh c).hold then s.setF (Reg.STP_LA_MEAS c) 31 16 (s.af (Reg.STP_CUR2 c) 15 0)
  else s.setF (Reg.STP_LA_MEAS c) 31 16 (s.af (Reg.STP_CUR c) 15 0)

/-! ### The latch (R310–R312, R327) -/

/-- The direction that a GO or RESUME would move in. -/
def State.goSign (s : State) (c : Nat) : Int :=
  match s.stpMode c with
  | 0 => (s.stpT c - s.stpPos c).sign
  | 1 => (s.vcmd c).sign
  | _ => (toSigned 32 (s.reg (Reg.STP_ENC_SPEED (s.masterOf c))).toNat * s.gearNum c).sign

/-- Why GO and RESUME are refused (R312). -/
def State.goRefused (s : State) (c : Nat) : Option Nat :=
  let e := s.masterOf c
  let sg := s.goSign c
  let gear := s.stpMode c == 2
  let spd := toSigned 32 (s.reg (Reg.STP_ENC_SPEED e)).toNat * s.gearNum c
  if s.stpState c = pFAULT then some peFAULT
  else if (0 < sg && s.limPos c) || (sg < 0 && s.limNeg c) then some peLIMIT
  else if s.stpAcc c = 0 || s.stpDec c = 0 || (gear && (s.gearDen c = 0 || s.vstart c * s.gearDen c < spd.natAbs)) then
    some pePARAM
  else if gear && (!s.fb (Reg.STP_ENC_CFG e) 0 || s.fb (Reg.STP_ENC_STATUS e) 0) then some peENC
  else if s.mode == .safe && s.f (Reg.STP_CFG c) 5 4 ≠ 1 then some peSAFE
  else none

/-- The move, run or gearing begins (R310, R318). -/
def State.stpBegin (s : State) (c : Nat) : State :=
  let s := s.stpAccept c
  let s := if s.mode == .service then s.setB Reg.SYS_SVC_MOTION_STP c true else s
  match s.stpMode c with
  | 0 => s.enterStp c pMOVING
  | 1 => s.enterStp c pRUNNING
  | _ => (s.modStp c fun x => { x with s0 := s.stpPos c, m0 := s.encCount (s.masterOf c) }).enterStp c pGEARED

/-- One latched command: 0 HALT, 1 STOP, 2 RESUME, 3 GO, 4 CLEAR; `later` when another of this boundary came before. -/
def State.latchCmd (s : State) (c : Nat) (later : Bool) (cmd : Nat) (r : StpReq) : State :=
  let st := s.stpState c
  let none' := s.stpRefuse c (if later then peSUPERSEDED else peSTATE) r.handle
  match cmd with
  | 0 => if (s.stpCh c).halted then s.stpAccept c else if st = pIDLE || st = pHELD then s else none'
  | 1 =>
    if 1 ≤ st && st ≤ 4 then (s.stpAccept c).rampStop c false
    else if st = pHELD then ((s.stpAccept c).targetHere c).enterStp c pIDLE
    else if st = pIDLE then s else none'
  | 2 =>
    if st = pHELD || st = pFAULT then
      match s.goRefused c with
      | some e => s.stpRefuse c e r.handle
      | none => s.stpBegin c
    else none'
  | 3 =>
    if r.soft && ((st = pMOVING && s.stpMode c = 0) || (st = pRUNNING && s.stpMode c = 1)) then s
    else if st = pIDLE || st = pHELD || st = pFAULT then
      match s.goRefused c with
      | some e => s.stpRefuse c e r.handle
      | none => ((s.setRem c 0)).stpBegin c
    else none'
  | _ =>
    if st = pFAULT then (((s.stpAccept c).setF (Reg.STP_STATE c) 17 16 0).targetHere c).enterStp c pIDLE else none'

/-- The requests of one kind of command that are due at a boundary: those that came in the boundary's CORE cycle wait
(R310). -/
def dueReqs (tb : Tick) (rs : List StpReq) : List StpReq := rs.filter fun q => q.time < tb
def keepReqs (tb : Tick) (rs : List StpReq) : List StpReq := rs.filter fun q => decide (tb ≤ q.time)

/-- The commands latched at a boundary, in the order of step 7 of R327, CLEAR last. -/
def StpCh.due (x : StpCh) (tb : Tick) : List (Nat × StpReq) :=
  [(0, x.halt), (1, x.stop), (2, x.resume), (3, x.go), (4, x.clear)].flatMap fun p =>
    (dueReqs tb p.2).map fun r => (p.1, r)

/-- Step 7 of R327. -/
def State.latchStp (s : State) (c : Nat) : State :=
  let tb := s.clk.tb
  let (s, _) := ((s.stpCh c).due tb).foldl (fun (a : State × Bool) p => (a.1.latchCmd c a.2 p.1 p.2, true)) (s, false)
  s.modStp c fun x => { x with halt := keepReqs tb x.halt, stop := keepReqs tb x.stop, resume := keepReqs tb x.resume
                               go := keepReqs tb x.go, clear := keepReqs tb x.clear
                               halted := x.halted && !(keepReqs tb x.halt).isEmpty }

/-- The speed that commands have given a channel (R80): 0 at rest or stopping, none while it follows a master. -/
def State.stpCommanded (s : State) (c : Nat) : Option Int :=
  let st := s.stpState c
  if st = pMOVING then some ((s.stpT c - s.stpPos c).sign * (s.vcmd c).natAbs)
  else if st = pRUNNING then some (s.vcmd c)
  else if st = pGEARED || st = pFALLBACK then none
  else some 0

/-- The spoil actions `by'` have brought a channel from its commanded speed `before` to another (R80). -/
def State.stpShared (s : State) (c : Nat) (before : Option Int) (by' : List Nat) : State :=
  if s.stpCommanded c = before then s else by'.foldl (fun s k => s.sharedResource k (16 + c)) s

/-! ### The motion period (R303, R327) -/

/-- Values that Timetable actions wrote stand over firmware's at the boundary (R327). -/
def State.ttValues (s : State) (c : Nat) : State :=
  let x := s.stpCh c
  let s := match x.ttTgt with
    | some (v, t) => if t < s.clk.tb then
        let n := fromSigned 48 v
        ((s.setNow (Reg.STP_TGT_LO c) 31 0 (n % 2 ^ 32)).setNow (Reg.STP_TGT_HI c) 15 0 (n / 2 ^ 32)).modStp c
          fun x => { x with ttTgt := none }
      else s
    | none => s
  match x.ttV with
  | some (v, t) => if t < s.clk.tb then
      (s.setNow (Reg.STP_VCMD c) 31 0 (fromSigned 32 v)).modStp c fun x => { x with ttV := none }
    else s
  | none => s

/-- A move that is complete and a stop that has come to rest (R306, R310, R313, R314). -/
def State.restStp (s : State) (c : Nat) : State :=
  let x := s.stpCh c
  let st := s.stpState c
  let still := x.v = 0 && x.gv = 0 && x.raw.all (· == 0)
  if st = pMOVING && still && x.gp = s.stpT c * unit32 then
    (((s.standAt c (s.stpT c)).setRem c 0).stpIrq c 0).enterStp c pIDLE
  else if !s.moving c || st = pGEARED || st = pFALLBACK || !still then s
  else
    let s := s.standAt c x.pos
    if st = pSTOPPING then
      if s.fb (Reg.STP_CFG c) 3 && !x.bySafe then (s.targetHere c).enterStp c pIDLE
      else
        let s := if s.stpMode c = 0 then s.setRem c (s.stpT c - x.pos) else s.setRem c 0
        s.enterStp c pHELD
    else s

/-- Too far behind the master: FAULT with code LAG (R319). -/
def State.checkLag (s : State) (c : Nat) : State :=
  if s.stpState c = pGEARED && s.f (Reg.STP_GEAR_LAG c) 15 0 < (s.gearC c - (s.stpCh c).pos).natAbs then s.stpFault c 2
  else s

/-- The speed of the last period joins those of R321. -/
def pushPast (v : Int) (xs : List Int) : List Int :=
  let l := (v :: xs).take 1000
  if l.all (· == 0) then [] else l

/-- Steps 2 to 4 of R327: hard stops, the limit before STALL, and fall-back. -/
def State.boundaryStops (s : State) (c : Nat) (d : Option Nat) : State :=
  let old := (s.stpCh c).pos
  let pos := s.stpPos c
  let s := s.modStp c fun x => { x with pos := pos, p0 := x.p1, t0 := s.clk.tb }
  (((s.checkLimits c).current c old d).fallBack c).checkLag c

/-- Steps 5 to 7 of R327: what was written takes force, and the commands are latched. -/
def State.boundaryLatch (s : State) (c : Nat) : State :=
  let before := s.stpCommanded c
  let by' := ((s.stpCh c).due s.clk.tb).filterMap fun p => p.2.spoil
  let s := s.applyAll [Reg.STP_TGT_LO c, Reg.STP_TGT_HI c, Reg.STP_VCMD c, Reg.STP_ACC c, Reg.STP_PROF c,
    Reg.STP_CUR_GAIN c, Reg.STP_CUR c, Reg.STP_CUR2 c]
  ((((s.ttValues c).restStp c).latchStp c).stpShared c before by')

/-- One boundary of one channel, in the order of R327; `d` is the load angle measured since the boundary before, `sd` the
bits of the winding currents. -/
def State.motionCh (s : State) (c : Nat) (d : Option Nat) (sd : Option (BitVec 766 × BitVec 766)) : State :=
  let s := (((s.boundaryStops c d).boundaryLatch c).generate c).modStp c fun x => { x with past := pushPast x.v x.past }
  ((s.setReg (Reg.STP_SPEED c) (wordOfInt (floorDiv (s.stpCh c).v 65536))).stepEdges c).windings c sd

/-! ### Commands -/

def State.stpGo (s : State) (c : Nat) (q : StpReq) : State :=
  s.modStp c fun x => { x with go := x.go ++ [{ q with time := s.clk.tb }] }
/-- STOP by firmware (R310). -/
def State.stpStop (s : State) (c : Nat) (q : StpReq) : State :=
  s.modStp c fun x => { x with stop := x.stop ++ [{ q with time := s.clk.tb }] }
def State.stpResume (s : State) (c : Nat) (q : StpReq) : State :=
  s.modStp c fun x => { x with resume := x.resume ++ [{ q with time := s.clk.tb }] }
def State.stpClear (s : State) (c : Nat) (q : StpReq) : State :=
  s.modStp c fun x => { x with clear := x.clear ++ [{ q with time := s.clk.tb }] }

/-- HALT stops at once and is reported at the boundary (R310, R315). -/
def State.stpHalt (s : State) (c : Nat) (q : StpReq) : State :=
  let mv := s.moving c
  let s := if mv then (s.hardStop c pHELD).stpShared c (s.stpCommanded c) q.spoil.toList else s
  s.modStp c fun x => { x with halt := x.halt ++ [{ q with time := s.clk.tb }], halted := mv || x.halted }

/-- A target written by firmware or the Timetable: it waits for the boundary (R309). -/
def State.writeTarget (s : State) (c : Nat) (v : Int) : State :=
  let n := fromSigned 48 v
  (s.hold (Reg.STP_TGT_LO c) (BitVec.ofNat 32 n)).hold (Reg.STP_TGT_HI c) (BitVec.ofNat 32 (n / 2 ^ 32))

/-- Take a Timetable action of STP: carried out by `g` and reported (R325). -/
def State.stpAction (s : State) (k i cmd : Nat) (g : State → Nat → StpReq → Nat → State) : State :=
  match s.take k i (fun a => isCmd 0x0F cmd a && a.unit ≤ 31 && s.actOn) with
  | .notDue => s
  | .skipped s' => s'
  | .run a s =>
    g (s.report k i s.clk.tb) a.act.unit
      { handle := some (s.handle k), spoil := if a.list == .spoil then some k else none } a.act.param

def State.ttTarget (s : State) (c : Nat) (v : Int) : State :=
  (s.writeTarget c v).modStp c fun x => { x with ttTgt := some (v, s.clk.tb) }

/-- GEAR_ARM and GEAR_CANCEL (R320). -/
def State.gearArm (s : State) (c : Nat) : State := s.setB (Reg.STP_GEAR_STATUS c) 0 true
def State.gearCancel (s : State) (c : Nat) : State := s.setB (Reg.STP_GEAR_STATUS c) 0 false

/-- CFG_BUSY of STP (R15, R331). -/
def State.stpBusy (s : State) : State := s.raise srcSTP 5

/-- A write of STP_POS_LO waits for that of STP_POS_HI; while the channel runs it is refused, unless it changes nothing
(R15, R329). -/
def State.writePosLo (s : State) (c : Nat) (w : Word) : State :=
  if s.stpRunning c then (if w = BitVec.ofNat 32 (fromSigned 48 (s.stpPos c)) then s else s.stpBusy)
  else s.modStp c fun x => { x with posLo := some w }

/-- A write of STP_POS_HI applies the position pair and sets POS_VALID (R323); a locked field refuses it (R15). -/
def State.writePosHi (s : State) (c : Nat) (w : Word) : State :=
  let lo := ((s.stpCh c).posLo).getD (BitVec.ofNat 32 (fromSigned 48 (s.stpPos c)))
  let v := toSigned 48 (lo.toNat + 2 ^ 32 * bits w 15 0)
  if s.stpRunning c then (if v = s.stpPos c then s else s.stpBusy)
  else ((s.standAt c v).setB (Reg.STP_STATE c) 6 true).modStp c fun x => { x with posLo := none }

/-- A write of STP_TGT_HI applies the held pair at the boundary (R309). -/
def State.writeTgtHi (s : State) (c : Nat) (w : Word) : State :=
  let lo := ((s.stpCh c).tgtLo).getD (s.reg (Reg.STP_TGT_LO c))
  ((s.hold (Reg.STP_TGT_LO c) lo).hold (Reg.STP_TGT_HI c) (BitVec.ofNat 32 (bits w 15 0))).modStp c
    fun x => { x with tgtLo := none }

/-- A write of STP_ENC_CNT_LO waits for that of STP_ENC_CNT_HI; a locked field refuses it, unless it changes nothing (R15,
R329). -/
def State.writeCntLo (s : State) (e : Nat) (w : Word) : State :=
  if s.encRunning e then (if w = s.reg (Reg.STP_ENC_CNT_LO e) then s else s.stpBusy)
  else s.modEnc e fun x => { x with lo := some w }

/-- A write of STP_ENC_CNT_HI applies the held count pair (R317). -/
def State.writeCntHi (s : State) (e : Nat) (w : Word) : State :=
  let lo := ((s.stpEnc e).lo).getD (s.reg (Reg.STP_ENC_CNT_LO e))
  let v := toSigned 48 (lo.toNat + 2 ^ 32 * bits w 15 0)
  if s.encRunning e then (if v = s.encCount e then s else s.stpBusy)
  else (s.setCount e v).modEnc e fun x => { x with lo := none }

/-! ### SAFE, views and reset -/

/-- SAFE entry on the channels (R324). -/
def State.stpSafe (s : State) : State :=
  (List.range 32).foldl (fun s c =>
    match s.f (Reg.STP_CFG c) 5 4 with
    | 1 => s
    | 2 => if s.moving c then s.hardStop c pHELD else s
    | _ =>
      if s.stpState c = pSTOPPING then s.modStp c fun x => { x with bySafe := true }
      else if s.moving c then s.rampStop c true else s) s

/-- STP_STATE as it reads. -/
def State.stpStateView (s : State) (c : Nat) : Word :=
  let w := putBits (s.reg (Reg.STP_STATE c)) 4 4 (if s.limNeg c then 1 else 0)
  putBits w 5 5 (if s.limPos c then 1 else 0)

def State.stpPosLo (s : State) (c : Nat) : Word := BitVec.ofNat 32 (fromSigned 48 (s.stpPos c))
def State.stpPosHi (s : State) (c : Nat) : Word := BitVec.ofNat 32 (fromSigned 48 (s.stpPos c) / 2 ^ 32)

def State.stpIrqSum (s : State) : Word :=
  BitVec.ofNat 32 ((List.range 32).foldl (fun m c => if s.f (Reg.STP_IRQ_STATUS c) 7 0 = 0 then m else m + 2 ^ c) 0)
def State.stpIrqSum2 (s : State) : Word :=
  BitVec.ofNat 32 ((List.range 8).foldl (fun m e => if s.fb (Reg.STP_ENC_STATUS e) 0 then m + 2 ^ e else m) 0)

/-- What a BRST of STP does beside its registers (R330). -/
def State.stpReset (s : State) : State := { s with stp := {} }.setReg Reg.SYS_SVC_MOTION_STP 0

end Sys2Proof.Machine
end

