-- ==== Sys2Proof/Machine/Media.lean ====
section
/-!
DEFINITION. The media path (R353–R356): sense inputs, arrival windows, general outputs, and the commands of their rows.
-/

namespace Sys2Proof.Machine

def State.snsOn (s : State) : Bool := s.domOn 14

/-- D of an input (R354). -/
def State.snsDelay (s : State) (n : Nat) : Nat := (s.f (Reg.SNS_IN_CFG n) 15 0 + 1) * 32

/-- An accepted edge, matched against the open windows of its kind (R354). -/
def State.matchEdge (s : State) (n : Nat) (trail : Bool) (x : Tick) : State :=
  let mine := s.sns.win.filter fun w => w.input == n && w.trail == trail
  match mine.find? fun w => w.start ≤ x && x < w.stop with
  | some w => { s with sns := { s.sns with win := s.sns.win.erase w } }.setF (Reg.SNS_IN_STATE n) 5 4 1
  | none =>
    match mine.find? fun w => w.start ≤ x + w.guard && x < w.start with
    | some w => s.windowMissed w false
    | none => s

/-- An accepted edge of input n, with the time of its first sample (R353): the limits follow a leading one (R316). -/
def State.senseEdge (s : State) (n : Nat) (lead : Bool) (x : Tick) : State :=
  let s := (s.setB (Reg.SNS_IN_STATE n) 0 lead).incSat (Reg.SNS_IN_STATE n) 31 16
  let s := if lead then s.setPair (Reg.SNS_TS_LEAD_LO n) (Reg.SNS_TS_LEAD_HI n) x
    else s.setPair (Reg.SNS_TS_TRAIL_LO n) (Reg.SNS_TS_TRAIL_HI n) x
  let s := s.matchEdge n (!lead) x
  if lead then s.limitActivate n else s

/-- The samples of input n at the ACT edges, filtered (R353). -/
def State.senseSamples (s : State) (n : Nat) (ls : List (Bool × Nat)) : State :=
  let low := s.fb (Reg.SNS_IN_CFG n) 16
  let (x, cs) := (Tab.get {} s.sns.inp n).changes (s.f (Reg.SNS_IN_CFG n) 15 0) 32 (s.fb (Reg.SNS_IN_STATE n) 0 != low)
    (firstSample 32 s.clk.tb ls) ls
  let s := { s with sns := { s.sns with inp := Tab.put {} s.sns.inp n x } }
  cs.foldl (fun s c => s.senseEdge n (c.1 != low) c.2) s

/-- The index of a sheet's SENSE claim on an input (R354). -/
def Sheet.senseClaim (sh : Sheet) (n : Nat) : Nat :=
  (sh.claims.findIdx? fun c => c.kind == kSENSE && c.unit == n).getD noDetail

/-! ### General outputs (R355) -/

/-- The register and bit of an output. -/
def outReg (n : Nat) : Nat := if n < 32 then Reg.SNS_OUT_LO else Reg.SNS_OUT_HI
def State.snsOut (s : State) (n : Nat) : Bool := s.fb (outReg n) (n % 32)

/-- The level at ball OUT n: a change reaches it at the first ACT edge (R355). -/
def State.outLevel (s : State) (n : Nat) : Bool :=
  match Tab.get none s.sns.turn n with
  | some (e, l) => if s.clk.tb < e then l else s.snsOut n
  | none => s.snsOut n

/-- Ball OUT n. -/
def State.outBall (s : State) (n : Nat) : Option Bool := s.ball 14 (s.outLevel n) false

def State.setOut (s : State) (n : Nat) (v : Bool) : State :=
  let e := nextMultiple 32 s.clk.tb
  let turn := if s.clk.tb < e then some (e, s.outLevel n) else none
  { s with sns := { s.sns with turn := Tab.put none s.sns.turn n turn } }.setB (outReg n) (n % 32) v

/-- Set or end the return of a pulse. -/
def State.setPulse (s : State) (n : Nat) (p : Option Tick) : State :=
  { s with sns := { s.sns with pulse := Tab.put none s.sns.pulse n p } }

/-- An output written by the Timetable. -/
def State.ttOut (s : State) (n : Nat) (v : Bool) (p : Option Tick) : State :=
  let s := (s.setOut n v).setPulse n p
  { s with sns := { s.sns with ttOut := Tab.put none s.sns.ttOut n (some s.clk.tb) } }

/-- A firmware write of 32 outputs; at one edge a Timetable value stands (R355). -/
def State.snsOutWrite (s : State) (high : Bool) (w : Word) : State :=
  (List.range 32).foldl (fun s i =>
    let n := if high then 32 + i else i
    if Tab.get none s.sns.ttOut n = some s.clk.tb then s else (s.setOut n (w.getLsbD i)).setPulse n none) s

/-! ### SAFE, running state, views and reset -/

/-- SAFE entry on the outputs (R356). -/
def State.snsSafe (s : State) : State :=
  (List.range 64).foldl (fun s n =>
    let en := if n < 32 then Reg.SNS_OSAFE_EN_LO else Reg.SNS_OSAFE_EN_HI
    let lvl := if n < 32 then Reg.SNS_OSAFE_LVL_LO else Reg.SNS_OSAFE_LVL_HI
    if s.fb en (n % 32) then (s.setOut n (s.fb lvl (n % 32))).setPulse n none else s) s

/-- Input n counts as running (R357). -/
def State.snsRunning (s : State) (n : Nat) : Bool := s.sns.win.any fun w => w.input == n

/-- SNS_IN_STATE as it reads: OPEN counts the open windows. -/
def State.snsStateView (s : State) (n : Nat) : Word :=
  putBits (s.reg (Reg.SNS_IN_STATE n)) 3 1 (s.sns.win.filter fun w => w.input == n).length

/-- What a BRST of SNS does beside its registers (R358). -/
def State.snsReset (s : State) : State := { s with sns := {} }

end Sys2Proof.Machine
end

