-- ==== Sys2Proof/Machine/LineOps.lean ====
section
/-!
DEFINITION. Sending on the Line: ports, send queues, frames of this device's own origin, and the copies of remote
signal points (R437–R443, R449, R450).
-/

namespace Sys2Proof.Machine

/-- Frame types (R438). -/
def ftSYNC : Nat := 1
def ftDELAY_REQ : Nat := 2
def ftDELAY_RESP : Nat := 3
def ftJOIN : Nat := 4
def ftFAULT : Nat := 5
def ftSPW : Nat := 6
def ftPUBLISH : Nat := 7
def ftPLT : Nat := 8
def ftCREDIT : Nat := 9

/-- Port states as LINE_STATUS codes them (R439). -/
def pOFF : Nat := 0
def pTRAIN : Nat := 1
def pUP : Nat := 2
def pDOWN : Nat := 3

/-- The state of port p (0 is A, 1 is B). -/
def State.portState (s : State) (p : Nat) : Nat :=
  if p = 0 then s.f Reg.LINE_STATUS 1 0 else s.f Reg.LINE_STATUS 3 2

def State.port (s : State) (p : Nat) : LinePort := if p = 0 then s.line.portA else s.line.portB

def State.setPort (s : State) (p : Nat) (x : LinePort) : State :=
  if p = 0 then { s with line := { s.line with portA := x } } else { s with line := { s.line with portB := x } }

/-- A port enters a state now; TOPO follows (R439). -/
def State.movePort (s : State) (p st : Nat) : State :=
  let s := if p = 0 then s.setF Reg.LINE_STATUS 1 0 st else s.setF Reg.LINE_STATUS 3 2 st
  let up := (if s.portState 0 = pUP then 1 else 0) + (if s.portState 1 = pUP then 1 else 0)
  (s.setF Reg.LINE_STATUS 5 4 up).setPort p { s.port p with since := s.clk.tb }

/-- Raise a LINE event (R454) and set its status bit. -/
def State.lineEvent (s : State) (ev : Nat) : State := (s.setB Reg.LINE_IRQ_STATUS ev true).raise srcLINE ev

/-- The send queue of a frame type (R441). -/
def queueOf (type : Nat) : Nat :=
  if type ≤ ftDELAY_RESP then 0 else if type ≤ ftFAULT then 1 else if type ≤ ftPUBLISH then 2 else 3

/-- HEADER of a frame (R438). -/
def Frame.header (f : Frame) : Nat :=
  f.type % 2 ^ 4 + 2 ^ 4 * (f.origin % 2 ^ 10) + 2 ^ 14 * (f.dest % 2 ^ 10) + 2 ^ 24 * (f.hops % 2 ^ 10) +
    2 ^ 34 * (f.seq % 2 ^ 16)

/-- The data words of a frame as they are sent, HEADER and P1 on lane 0, P0 and CHECK on lane 1 (R438). -/
def Frame.words (f : Frame) : List Nat :=
  [f.header, f.p0, f.p1, crc32 (bytesLE 8 f.header ++ bytesLE 8 f.p0 ++ bytesLE 8 f.p1)]

/-- The first frame of the highest non-empty queue, and the queues without it. -/
def popFrame : List (List Frame) → Option (Frame × List (List Frame))
  | [] => none
  | (f :: fs) :: qs => some (f, fs :: qs)
  | [] :: qs => match popFrame qs with
    | some (f, qs') => some (f, [] :: qs')
    | none => none

/-- Put on the wire the frames that a port has started by `now`: each takes 198 ticks, none is interrupted (R438,
R441). -/
def LinePort.drain (now : Tick) : Nat → LinePort → LinePort
  | 0, x => x
  | n + 1, x =>
    if now < x.freeAt then x
    else match popFrame x.q with
      | none => x
      | some (f, q) => LinePort.drain now n { x with q := q, wire := some f, freeAt := x.freeAt + 198 }

/-- Frames of this device's own origin wait until its first JOIN (R442). -/
def State.lineJoined (s : State) : Bool := s.line.incarn.isSome

/-- Send what has waited on an UP port. -/
def State.drainPort (s : State) (p : Nat) : State :=
  if s.portState p = pUP && s.lineJoined then
    s.setPort p ((s.port p).drain s.clk.tb (((s.port p).q.map List.length).sum))
  else s

/-- Append to the queue with the given index. -/
def pushAt (f : Frame) : Nat → List (List Frame) → List (List Frame)
  | _, [] => []
  | 0, q :: qs => (q ++ [f]) :: qs
  | n + 1, q :: qs => q :: pushAt f n qs

/-- Queue a frame on a port; a full queue discards it with TXDROP and CONGEST (R441). -/
def State.queueFrame (s : State) (p : Nat) (f : Frame) : State :=
  let s := s.drainPort p
  let q := queueOf f.type
  if 64 ≤ ((s.port p).q.getD q []).length then (s.incSat Reg.LINE_CNT_A 31 16).lineEvent 3
  else
    let x := s.port p
    let rests := x.q.all List.isEmpty && x.freeAt ≤ s.clk.tb
    let start := if rests then nextMultiple 66 s.clk.tb else x.freeAt
    (s.setPort p { x with q := pushAt f q x.q, freeAt := start
                          preset := if rests then s.bandAtMultiple 66 else x.preset }).drainPort p

/-- The transmit equalisation preset of a port (R443): a new one is taken at the first block start with no frame in
transmission. A port that is OFF has none to take. -/
def State.linePreset (s : State) (p : Nat) : Nat :=
  let x := (s.drainPort p).port p
  if s.portState p = pOFF || s.clk.tb < x.freeAt then x.preset else s.bandAtMultiple 66

/-- LINE_STATUS as it reads: BAND is the preset of port A (log entry 111). -/
def State.lineStatusView (s : State) : Word := putBits (s.reg Reg.LINE_STATUS) 13 11 (s.linePreset 0)

/-- A port drops what it has queued, and what it counted of the frames that it received (R439). -/
def LinePort.cleared (x : LinePort) : LinePort := { preset := x.preset, delays := x.delays }

/-- The transmit marker time a frame of the highest priority queued now would get on a port. -/
def State.txMarker (s : State) (p : Nat) : Tick :=
  let x := (s.drainPort p).port p
  max x.freeAt (nextMultiple 66 s.clk.tb) + 198 * (x.q.getD 0 []).length

/-- LINE can send: its domain is ON, and no other device bears its number (R442). -/
def State.lineOriginates (s : State) : Bool := s.domOn 13 && !s.fb Reg.LINE_STATUS 10

/-- Send a frame of this device's own origin out of each port that is UP; before the first JOIN it waits in the queues
(R440, R442). -/
def State.originate (s : State) (f : Frame) : State :=
  if s.lineOriginates then
    let f := { f with origin := s.lineId, hops := 0 }
    [0, 1].foldl (fun s p => if s.portState p = pUP || !s.lineJoined then s.queueFrame p f else s) s
  else s

/-- Send a unicast frame, numbered in the unicast series (R438). -/
def State.sendUnicast (s : State) (type dest p0 p1 : Nat) : State :=
  let s := { s with line := { s.line with seqUni := (s.line.seqUni + 1) % 65536 } }
  s.originate { type := type, origin := 0, dest := dest, seq := s.line.seqUni, p0 := p0, p1 := p1 }

/-- SPW to another device's point, sent at `at'` (R449). -/
def State.sendSpw (s : State) (id : Nat) (v : Word) (at' : Tick) : State :=
  s.sendUnicast ftSPW (id / 1024) (v.toNat + 2 ^ 32 * id) at'

/-- The lowest valid subscription that names a remote point (R450). -/
def State.subscription (s : State) (id : Nat) : Option Nat :=
  (List.range 256).find? fun j => s.fb (Reg.LINE_SUB j) 31 && s.f (Reg.LINE_SUB j) 19 0 == id

/-- SPR of any point (R112, R450): the local value, or this device's copy of a remote point. -/
def State.sprPoint (s : State) (id : Nat) : Word × State :=
  if id / 1024 = s.lineId then (s.point (id % 1024), s)
  else match s.subscription id with
    | some j => (s.reg (Reg.LINE_COPY j), s)
    | none => (0, s.incSat Reg.LINE_CNT_C 15 0)

end Sys2Proof.Machine
end

