-- ==== Sys2Proof/Machine/Slots.lean ====
section
/-!
DEFINITION. Task slots of the sequencer (R129–R150): activation, releases, drops, completion and commit, arm entries, and
the commands of their rows. A slot is named by its key, 8 × logical core + slot.
-/

namespace Sys2Proof.Machine

def State.slot (s : State) (key : Nat) : Slot := Tab.get {} s.sq.slots key

def State.setSlot (s : State) (key : Nat) (x : Slot) : State :=
  { s with sq := { s.sq with slots := Tab.put {} s.sq.slots key x } }

def State.modSlot (s : State) (key : Nat) (g : Slot → Slot) : State := s.setSlot key (g (s.slot key))

/-- The address of a slot register from its function of core and slot. -/
def atKey (r : Nat → Nat → Nat) (key : Nat) : Nat := r (key / 8) (key % 8)

/-- The physical core bound to logical core l (R146). -/
def State.physOf (s : State) (l : Nat) : Option Nat :=
  if s.fb (Reg.SQ_CORE_MAP l) 7 then some (s.f (Reg.SQ_CORE_MAP l) 4 0) else none

/-- The logical core that physical core p is bound to (R146). -/
def State.logicalOf (s : State) (p : Nat) : Option Nat := (List.range 20).find? fun l => s.physOf l == some p

/-- The instruction that physical core p issued last. -/
def State.flight (s : State) (p : Nat) : Flight := Tab.get {} s.sq.flights p

def State.setFlight (s : State) (p : Nat) (x : Flight) : State :=
  { s with sq := { s.sq with flights := Tab.put {} s.sq.flights p x } }

/-- The edge at which the instruction in progress on physical core p ends (R117, R135). -/
def State.freeAt (s : State) (p : Nat) : Tick := (s.flight p).due

/-- Arm entries in force on physical core p (R142). -/
def State.armEntries (s : State) (p : Nat) : List ArmEntry := Tab.get [] s.sq.arms p

def State.setArms (s : State) (p : Nat) (xs : List ArmEntry) : State :=
  { s with sq := { s.sq with arms := Tab.put [] s.sq.arms p xs } }

/-! ### Counts an instance can read (R94, R103, R111, R141) -/

/-- k12: staged entries and entries still leaving the slot's buffer. -/
def Slot.cbuse (x : Slot) : Nat := x.leaving.length + (match x.inst with | some i => i.staged.length | none => 0)

def Staged.isArm : Staged → Bool
  | .arm .. => true
  | _ => false

/-- k13: arm entries in use or staged. -/
def State.armuse (s : State) (key p : Nat) : Nat :=
  (s.armEntries p).length + (match (s.slot key).inst with | some i => (i.staged.filter Staged.isArm).length | none => 0)

/-! ### Writes to points in the order of R143 -/

/-- Places in the order of one edge's writes to a point (R142, R143): an armed write by time, logical core and entry, a
commit by slot, an arm taken at its own commit's edge, a timetable action (log entry 94). -/
def rankArmed (x : ArmEntry) : List Nat := [0, x.time, x.logical, x.n]
def rankCommit (key : Nat) : List Nat := [1, key]
def rankTaken (time l : Nat) : List Nat := [2, time, l]
def rankAction : List Nat := [3]

/-- A write from another device comes after all of these (R449). -/
def rankLine : List Nat := [4]

/-- The place of the last ordered write to point p at this edge. -/
def State.pointPlace (s : State) (p : Nat) : Option (List Nat) :=
  if s.sq.pointEdge = s.clk.tb then (s.sq.pointRank.find? fun x => x.1 == p).map (·.2) else none

/-- A write to a point that has a place in the order of its edge: one that comes earlier in the order than a write already
made leaves the value of that one (R143). -/
def State.setPointAt (s : State) (place : List Nat) (p : Nat) (v : Word) : State :=
  let late := match s.pointPlace p with
    | some q => decide (place < q)
    | none => false
  let s' := s.setPoint p (if late then s.point p else v)
  let kept := if s.sq.pointEdge = s.clk.tb then s.sq.pointRank else []
  if late then s'
  else { s' with sq := { s'.sq with pointEdge := s.clk.tb, pointRank := (p, place) :: kept.filter fun x => x.1 ≠ p } }

/-! ### Outcomes of an instance -/

/-- SQ_SLOT_STATE.STATE as it reads. -/
def Slot.stateCode (x : Slot) (running : Bool) : Nat :=
  if x.use = .off then 0
  else match x.inst with
    | none => 1
    | some i => if running then 3 else if i.waitUntil.isSome then 4 else 2

/-- The period's outcome in the history (R144): 1 for a drop, and PERIODS one higher, saturating at 32. -/
def State.shiftHist (s : State) (key bit : Nat) : State :=
  let a := atKey Reg.SQ_SLOT_HIST key
  let st := atKey Reg.SQ_SLOT_STATE key
  (s.setReg a (BitVec.ofNat 32 ((s.reg a).toNat * 2 + bit))).setF st 13 8 (min 32 (s.f st 13 8 + 1))

/-- The frame of R133 as a bank: g1–g31 under 1–31 and k15 under 32. -/
def State.readFrame (s : State) (key p : Nat) : Tab Word :=
  let base := tcmBase p + s.f (atKey Reg.SQ_SLOT_FRAME key) 17 0
  (List.range 32).foldl (fun b n => Tab.put 0 b (n + 1) (BitVec.ofNat 32 (s.memLE (base + 4 * n) 4))) []

/-- An instance's outcome leaves the slot idle, and a stopped standing slot becomes OFF (R134). -/
def Slot.endInstance (x : Slot) : Slot :=
  let x := { x with inst := none }
  if x.stopping then { x with use := .off, stopping := false } else x

/-- The outcome of a slot's instance: the slot is left idle, and a frame that waited for the outcome is copied (R132). -/
def State.endInstance (s : State) (key : Nat) : State :=
  let s := s.modSlot key Slot.endInstance
  match (s.slot key).frameOwed, s.physOf (key / 8) with
  | true, some p =>
    let b := s.readFrame key p
    s.modSlot key fun x => { x with bank := b, shadow := b, frameOwed := false }
  | _, _ => s

/-- Dropped periods of the last 32 in the history. -/
def histCount (h : Word) : Nat := ((List.range 32).filter fun i => h.getLsbD i).length

/-- The history meets DROP_RUN or DROP_WIN (R78). -/
def State.lateDrops (s : State) (key : Nat) : Bool :=
  let cfg := atKey Reg.SQ_SLOT_DROPCFG key
  let run := s.f cfg 7 0
  let win := s.f cfg 15 8
  let h := s.reg (atKey Reg.SQ_SLOT_HIST key)
  (run ≤ s.f (atKey Reg.SQ_SLOT_STATE key) 13 8 && h.toNat % 2 ^ run == 2 ^ run - 1) || win ≤ histCount h

/-- The TASK unit of a slot (R55). -/
def unitOfKey (key : Nat) : Nat := 16 * (key / 8) + key % 8

/-- Causes of a drop (R144). -/
def dDEADLINE : Nat := 1
def dOVERRUN : Nat := 2
def dEXCEPTION : Nat := 3
def dNOT_READY : Nat := 4

/-- The end of a span, extended by every claim whose window begins before it (R130). -/
def extendSpan (cs : List SqClaim) : Nat → Tick → Tick
  | 0, e => e
  | n + 1, e => extendSpan cs n (cs.foldl (fun e c => if c.start < e then max e c.stop else e) e)

/-- The TASK claims passed to SQ on a slot. -/
def State.slotClaims (s : State) (key : Nat) : List SqClaim :=
  s.sq.claims.filter fun c => c.c.core == key / 8 && c.c.slot == key % 8

/-- The end E of a slot's current span; none when it is unbounded (R130, R131, R134). -/
def State.spanLimit (s : State) (key : Nat) : Option Tick :=
  match (s.slot key).spanEnd with
  | some e => let cs := s.slotClaims key; some (extendSpan cs cs.length e)
  | none => none

/-- The index of a sheet's claim on a TASK unit in the span from `r0` to `e` at time `t`: its window has begun, and has
not ended before `t`, since the drop of a period whose deadline is the end of the window still belongs to it (R78, R131,
R138). -/
def Sheet.spanClaim (sh : Sheet) (unit : Nat) (r0 e t : Tick) : Option Nat :=
  sh.claims.findIdx? fun c => c.kind == kTASK && c.unit == unit && sh.origin + c.winStart ≤ t &&
    t ≤ sh.origin + c.winEnd && sh.origin + c.winStart < e && r0 < sh.origin + c.winEnd

/-- The LATE_DROPS cause for every sheet that holds the slot's claim or a permitted overlap of it (R78). -/
def State.lateDropCause (s : State) (key : Nat) : State :=
  s.causeWhere cLATE_DROPS fun _ sh =>
    sh.spanClaim (unitOfKey key) (s.slot key).r0 ((s.spanLimit key).getD s.clk.tb) s.clk.tb

/-- Drop the current period of a slot (R144); `exc` holds the code, the instruction's address and the faulting address
of an EXCEPTION. -/
def State.dropPeriod (s : State) (key cause : Nat) (exc : Nat × Nat × Nat) : State :=
  let s := (s.modSlot key fun x => { x with bank := x.shadow }).endInstance key
  let s := s.incSat (atKey Reg.SQ_SLOT_DROPS key) 31 0
  let s := if cause = dOVERRUN then s.incSat (atKey Reg.SQ_SLOT_COUNTS key) 15 0 else s
  let s := s.setF (atKey Reg.SQ_SLOT_STATE key) 18 16 cause
  let s := if cause = dEXCEPTION then
      ((s.setReg (atKey Reg.SQ_SLOT_EXC key) (BitVec.ofNat 32 (exc.1 + 2 ^ 16 * exc.2.1))).setReg
        (atKey Reg.SQ_SLOT_EXC_ADDR key) (BitVec.ofNat 32 exc.2.2)).setB Reg.SQ_IRQ_STATUS 1 true |>.raise srcSQ 1
    else s
  let s := s.shiftHist key 1
  let s := s.setB Reg.SQ_IRQ_STATUS 0 true
  let s := if s.fb (atKey Reg.SQ_SLOT_CFG key) 2 then s.raise srcSQ 0 else s
  if (s.slot key).use == .timetable && s.f (atKey Reg.SQ_SLOT_DROPCFG key) 17 16 ≤ 1 && s.lateDrops key then
    s.lateDropCause key
  else s

/-! ### Completion and commit (R140–R143) -/

/-- The entry of a staged write that leaves physical core p for the Stacks or a register, no earlier than C + 3 cycles
(R140). -/
def Staged.leaving (p : Nat) (c : Tick) : Staged → Option Leaving
  | .bus a n v => some { addr := a, size := n, value := v, core := p, notBefore := c + 24 }
  | _ => none

/-- The lowest arm entry number of a physical core that is not in use; 15 again where two interleaved instances of the core
have staged more arms than it has entries (log entry 95). -/
def freeArm (xs : List ArmEntry) : Nat := ((List.range 16).find? fun n => xs.all fun x => x.n ≠ n).getD 15

/-- Step 2 of R138 for one staged write: TCM and local points take effect, remote writes go to the Line (R140). -/
def State.commitStaged (s : State) (key : Nat) : Staged → State
  | .tcm a n v => s.setMem a n v
  | .point p v => s.setPointAt (rankCommit key) p v
  | .remote id v => s.sendSpw id v s.clk.tb
  | _ => s

/-- A staged arm takes an entry; one whose time has come by the commit's edge C writes at C, after step 2 of R138, and
counts as late before C (R142). -/
def State.commitArm (s : State) (key p : Nat) : Staged → State
  | .arm time pt v =>
    if time ≤ s.clk.tb then
      let s := if time < s.clk.tb then s.incSat (atKey Reg.SQ_SLOT_COUNTS key) 31 16 else s
      s.setPointAt (rankTaken time (key / 8)) pt v
    else
      let xs := s.armEntries p
      s.setArms p (xs ++ [{ n := freeArm xs, time := time, point := pt, value := v, logical := key / 8 }])
  | _ => s

/-- The instance of a slot completes at this edge, C (R140, R144): its writes are committed and its period is met. -/
def State.completeInstance (s : State) (key p : Nat) (i : Instance) : State :=
  let s := i.staged.foldl (fun s e => s.commitStaged key e) s
  let s := i.staged.foldl (fun s e => s.commitArm key p e) s
  let s := s.modSlot key fun x => { x with leaving := x.leaving ++ i.staged.filterMap (Staged.leaving p s.clk.tb) }
  let s := s.endInstance key
  let mu := atKey Reg.SQ_SLOT_MAXUSE key
  let s := if s.f mu 31 0 < i.used then s.setF mu 31 0 i.used else s
  s.shiftHist key 0

/-! ### The instance a core runs (R135) -/

/-- A ready instance of a slot: one that does not wait in WAITT and has not met its deadline, at which it is dropped before
any choice (R135, R138). -/
def State.ready (s : State) (key : Nat) : Option Instance :=
  match (s.slot key).inst with
  | some i => if i.waitUntil.isNone && s.clk.tb < i.deadline then some i else none
  | none => none

/-- The ready instance with the earliest deadline on logical core l, the lower slot on a tie (R135). -/
def State.chosen (s : State) (l : Nat) : Option (Nat × Instance) :=
  (List.range 8).foldl (fun best n =>
    match s.ready (8 * l + n), best with
    | some i, none => some (8 * l + n, i)
    | some i, some b => if i.deadline < b.2.deadline then some (8 * l + n, i) else best
    | none, _ => best) none

/-! ### Activation -/

/-- The slot whose instance runs on logical core l (R135): the one whose instruction holds the core, else the chosen one. -/
def State.runningSlot (s : State) (l : Nat) : Option Nat :=
  match s.physOf l with
  | some p =>
    let x := s.flight p
    if s.clk.tb < x.due then
      (if ((s.slot x.key).inst.any fun i => i.release == x.release) && x.key / 8 == l then some x.key else none)
    else (s.chosen l).map (·.1)
  | none => none

/-- The claim that starts the slot's next span: the earliest window that no current span covers (R130, R131). -/
def State.nextSpan (s : State) (key : Nat) : Option SqClaim :=
  let from' := if (s.slot key).use = .timetable then (s.spanLimit key).getD 0 else 0
  (s.slotClaims key).foldl (fun best c =>
    if c.start < from' || c.stop ≤ s.clk.tb then best
    else match best with
      | some b => if c.start < b.start then some c else best
      | none => some c) none

/-- The check of R132 for a span whose first release is `r0`, and the copy of the frame when it passes, at once or at the
outcome of an instance of an earlier span. -/
def State.loadFrame (s : State) (key : Nat) (r0 : Tick) : State :=
  match s.physOf (key / 8) with
  | some p =>
    if s.fb (atKey Reg.SQ_SLOT_ENTRY key) 16 && s.fb (atKey Reg.SQ_SLOT_FRAME key) 18 then
      let b := s.readFrame key p
      s.modSlot key fun x =>
        if x.inst.isSome then { x with frameOwed := true, loaded := some (r0, true) }
        else { x with bank := b, shadow := b, loaded := some (r0, true) }
    else s.modSlot key fun x => { x with loaded := some (r0, false) }
  | none => s.modSlot key fun x => { x with loaded := some (r0, false) }

/-- The check of R132 made once for a span. -/
def State.ensureLoaded (s : State) (key : Nat) (r0 : Tick) : State :=
  match (s.slot key).loaded with
  | some (t, _) => if t = r0 then s else s.loadFrame key r0
  | none => s.loadFrame key r0

/-- The history of a span starts cleared (R144). -/
def State.clearHist (s : State) (key : Nat) : State :=
  (s.setReg (atKey Reg.SQ_SLOT_HIST key) 0).setF (atKey Reg.SQ_SLOT_STATE key) 13 8 0

/-- A slot becomes active with a span (R131, R134, R149). -/
def State.beginSpan (s : State) (key : Nat) (use : SlotUse) (r0 : Tick) (stop : Option Tick) : State :=
  s.modSlot key fun x =>
    { x with use := use, r0 := r0, spanEnd := stop, started := 0, stopping := false, notReadyRaised := false }

/-- The parameters of a claim in the slot's registers (R149). -/
def State.loadParams (s : State) (key : Nat) (c : Claim) : State :=
  let s := s.setReg (atKey Reg.SQ_SLOT_PERIOD key) (BitVec.ofNat 32 c.period)
  let s := s.setReg (atKey Reg.SQ_SLOT_DEADLINE key) (BitVec.ofNat 32 c.deadline)
  let s := s.setReg (atKey Reg.SQ_SLOT_WCET key) (BitVec.ofNat 32 c.wcet)
  s.setReg (atKey Reg.SQ_SLOT_DROPCFG key) (BitVec.ofNat 32 (c.dropRun + 2 ^ 8 * c.dropWin + 2 ^ 16 * c.path))

/-- A span of a slot in timetable use is over: its end has come and no instance is left (R131). -/
def State.spanOver (s : State) (key : Nat) : Bool :=
  (s.slot key).use == .timetable && (s.slot key).inst.isNone &&
    (match s.spanLimit key with | some e => e ≤ s.clk.tb | none => false)

/-- R_k and D_k of a slot's next release (R131). -/
def State.nextRelease (s : State) (key : Nat) : Tick := (s.slot key).r0 + (s.slot key).started * s.f (atKey Reg.SQ_SLOT_PERIOD key) 31 0 * 8
def State.nextDeadline (s : State) (key : Nat) : Tick := s.nextRelease key + s.f (atKey Reg.SQ_SLOT_DEADLINE key) 31 0 * 8

/-! ### Standing use (R134) -/

/-- ⌈4,096 × WCET ÷ PERIOD⌉ of a slot's registers. -/
def State.standingShare (s : State) (key : Nat) : Nat :=
  ceilDiv (4096 * s.f (atKey Reg.SQ_SLOT_WCET key) 31 0) (s.f (atKey Reg.SQ_SLOT_PERIOD key) 31 0)

/-- The reason for which a START of a slot is refused, in the order of R134. -/
def State.startRefusal (s : State) (key : Nat) : Option Nat :=
  let period := s.f (atKey Reg.SQ_SLOT_PERIOD key) 31 0
  let deadline := s.f (atKey Reg.SQ_SLOT_DEADLINE key) 31 0
  let wcet := s.f (atKey Reg.SQ_SLOT_WCET key) 31 0
  let others := (List.range 8).filter fun n => (s.slot (8 * (key / 8) + n)).use == .standing
  if (s.slot key).use ≠ .off then some 1
  else if s.tt.check.isSome then some 7
  else if (s.openSheets.any fun p => p.2.claims.any fun c =>
      c.kind == kTASK && c.unit == unitOfKey key && s.clk.tb < p.2.origin + c.winEnd) then some 4
  else if (s.physOf (key / 8)).isNone then some 5
  else if !s.fb (atKey Reg.SQ_SLOT_ENTRY key) 16 || !s.fb (atKey Reg.SQ_SLOT_FRAME key) 18 then some 3
  else if period < 64 || deadline < wcet || period < deadline then some 6
  else if 4096 - s.f Reg.TT_UTIL_MAX 12 0 <
      s.standingShare key + (others.map fun n => s.standingShare (8 * (key / 8) + n)).sum then some 2
  else none

/-- A START begins standing use 64 cycles later, or is refused with its reason (R134). -/
def State.slotStart (s : State) (key : Nat) : State :=
  match s.startRefusal key with
  | some r => (s.setF (atKey Reg.SQ_SLOT_STATE key) 6 4 r).setB Reg.SQ_IRQ_STATUS 3 true
  | none =>
    (s.beginSpan key .standing (s.clk.tb + 512) none).modSlot key fun x => { x with histAt := some (s.clk.tb + 512) }

/-- Releases of a standing slot end; an instance already released runs to its outcome (R134). -/
def State.slotStop (s : State) (key : Nat) : State :=
  if (s.slot key).use = .standing then
    s.modSlot key fun x => if x.inst.isSome then { x with stopping := true } else { x with use := .off, histAt := none }
  else s

/-! ### Substitution requests (R148) -/

/-- The reason for which a substitution request is refused (SQ_SUBST_STATUS.REASON). -/
def State.substRefusal (s : State) (l p : Nat) : Option Nat :=
  if (s.logicalOf p).isSome then some 1
  else if 24 ≤ p || (s.reg Reg.SQ_CORE_FAIL).getLsbD p then some 2
  else if 20 ≤ l || (s.physOf l).isNone then some 3
  else if s.sq.subst.isSome then some 4
  else none

/-- SUBST_CANCEL (R148): a pending request ends; one whose safe point has come is no longer waiting. -/
def State.cancelSubst (s : State) : State :=
  match s.sq.subst with
  | some c =>
    if !c.reached then
      ({ s with sq := { s.sq with subst := none } }.setF Reg.SQ_SUBST_STATUS 1 0 0).setB Reg.SQ_STATUS 5 false
    else s
  | none => s

/-- A write to SQ_SUBST (R148). -/
def State.requestSubst (s : State) (w : Word) : State :=
  let l := bits w 4 0
  let p := bits w 12 8
  if l = 0x1F then s.cancelSubst
  else match s.substRefusal l p with
    | some r => (s.setReg Reg.SQ_SUBST_STATUS (BitVec.ofNat 32 (3 + 4 * r))).setB Reg.SQ_IRQ_STATUS 2 true
    | none =>
      ({ s with sq := { s.sq with subst := some { logical := l, phys := p, copy := bits w 16 16 == 1 } } }.setReg
        Reg.SQ_SUBST_STATUS 1).setB Reg.SQ_STATUS 5 true

end Sys2Proof.Machine
end

