-- ==== Sys2Proof/Machine/Resets.lean ====
section
/-!
DEFINITION. Resets (R17, R42, R83, R390, R404, R405, R472): of register fields, of one block, of a power domain, the chip
reset and the power-on reset.
-/

namespace Sys2Proof.Machine

/-! ### Register fields -/

/-- The word of a register after a reset that keeps the fields `kp` selects. -/
def keepWord (a : Nat) (w : Word) (kp : String → Keep → Bool) : Word :=
  match findReg a with
  | none => resetReg a
  | some (d, _) => d.fields.foldl (fun r f =>
      if kp d.name f.keep then putBits r (f.lsb + f.width - 1) f.lsb (bits w (f.lsb + f.width - 1) f.lsb) else r)
      (resetReg a)

/-- Reset the registers in [lo, hi), keeping the fields `kp` selects. Pending class S values go. -/
def State.resetRegs (s : State) (lo hi : Nat) (kp : String → Keep → Bool) : State :=
  { s with
    regs := s.regs.filterMap fun p =>
      if p.1 < lo || hi ≤ p.1 then some p
      else
        let w := keepWord p.1 p.2 kp
        if w = resetReg p.1 then none else some (p.1, w)
    held := s.held.filter fun p => p.1 < lo || hi ≤ p.1 }

/-- What a field keeps over a BRST, a CRST, a POR (R17; a sensor's failure stands until POR, R421), and over its domain's power-down (R404, R405). -/
def keepBrst (_ : String) (k : Keep) : Bool := k != .no
def keepCrst (n : String) (k : Keep) : Bool := k == .crst || k == .por || n == "THM_SENSOR_FAIL"
def keepPor (_ : String) (k : Keep) : Bool := k == .por

/-- The registers whose spare fields AON holds while their domain is off (R405), and the cut-off of R351, which lies in
AON. -/
def heldRegs : List String :=
  ["EXP_EMAP", "EXP_GEOM", "EXP_ESTATE", "EXP_IBASE", "XLK_LANE_MAP", "FOC_ENG_MAP", "FOC_ENG_FAIL", "FUS_OT",
   "FUS_STATUS"]
def keepDown (n : String) (k : Keep) : Bool := k == .por || (k != .no && heldRegs.contains n)

/-- The window of the block with a given code. -/
def blockLo (code : Nat) : Nat := 0x20000000 + code * 0x100000

def State.resetBlockRegs (s : State) (code : Nat) (kp : String → Keep → Bool) : State :=
  s.resetRegs (blockLo code) (blockLo code + 0x100000) kp

def State.resetStationRegs (s : State) (code st : Nat) (kp : String → Keep → Bool) : State :=
  s.resetRegs (blockLo code + st * 0x10000) (blockLo code + (st + 1) * 0x10000) kp

/-! ### Blocks -/

/-- Host-space accesses that are outstanding end (R433, R435). -/
def State.endHostDma (s : State) : State :=
  (List.range 32).foldl (fun s c => match (s.dmaCh c).ex with
    | some e =>
      if e.fin.isNone && (e.d.flag 3 || e.d.flag 4) then
        s.setDmaCh c { s.dmaCh c with ex := some { e with fin := some (0x20, 16 * e.d.unitAt e.done) } }
      else s
    | none => s) s

/-- HST held at its BRST values (R435): the link is down and outstanding host accesses end. -/
def State.hstReset (s : State) (kp : String → Keep → Bool) : State :=
  (({ s with hst := { perst := s.hst.perst } }.resetBlockRegs 0x14 kp).setB Reg.HST_STATUS 9 s.hst.perst).endHostDma

/-- LINE's BRST (R453): ports OFF, time FREE, queues, copies and counters cleared. -/
def State.lineReset (s : State) (kp : String → Keep → Bool) : State := { s with line := {} }.resetBlockRegs 0x13 kp

/-- A station's part of SCN. -/
def State.scnPart (s : State) (st : Nat) (kp : String → Keep → Bool) : State :=
  (s.scnReset st).resetStationRegs 0x0B st kp

/-- A station's EXP and XLK parts (R268). -/
def State.expPart (s : State) (st : Nat) (kp : String → Keep → Bool) : State :=
  let s := s.expReset st
  let s := (s.cutFrame st).modExp st fun x => { sets := x.sets, handed := x.handed, inc1 := x.inc1 }
  ((s.resetStationRegs 0x0C st kp).resetStationRegs 0x0D st kp).updateCredit st

/-- A BRST of SQ (R150): every core halts. -/
def State.sqReset (s : State) (kp : String → Keep → Bool) : State :=
  { s with sq := { halted := List.range 24 } }.resetBlockRegs 0x06 kp

/-- The lanes and jobs of FX (R198). -/
def State.fxPart (s : State) (kp : String → Keep → Bool) : State := s.fxReset.resetBlockRegs 0x0A kp

/-- The block of a Signal Box source takes its reset (R83, R390). -/
def State.blockPart (s : State) (src : Nat) : State :=
  let k := keepBrst
  if src = 7 then s.sqReset k
  else if src = 9 then { s with dma := {} }.resetBlockRegs 0x08 k
  else if src = 10 then { s with plt := {} }.resetBlockRegs 0x09 k
  else if src = 11 then s.fxPart k
  else if 12 ≤ src ∧ src ≤ 17 then s.scnPart (src - 12) k
  else if 18 ≤ src ∧ src ≤ 23 then s.expPart (src - 18) k
  else if src = 24 then s.focReset.resetBlockRegs 0x0E k
  else if src = 25 then s.stpReset.resetBlockRegs 0x0F k
  else if src = 26 then s.hvReset.resetBlockRegs 0x10 k
  else if src = 27 then s.fusReset.resetBlockRegs 0x11 k
  else if src = 28 then s.snsReset.resetBlockRegs 0x12 k
  else if src = 29 then s.lineReset k
  else if src = 30 then s.hstReset k
  else if src = 33 then { s with bkg := { passAt := s.clk.tb } }.resetBlockRegs 0x17 k
  else s

/-- A source has a block that a block reset acts on (R383). -/
def hasBlock (src : Nat) : Bool := src == 7 || (9 ≤ src && src ≤ 30) || src == 33 || src == 35

/-- The claims that lie on the block of a source (R83). -/
def claimOn (src : Nat) (c : Claim) : Bool :=
  if src = 7 then c.kind == kTASK
  else if 12 ≤ src ∧ src ≤ 23 then c.kind == kEXPOSE && c.unit == (src - 12) % 6
  else if src = 24 then c.kind == kMOTION && c.unit < 16
  else if src = 25 then c.kind == kMOTION && 16 ≤ c.unit
  else if src = 26 then c.kind == kHV
  else if src = 27 then c.kind == kFUSER
  else if src = 28 then c.kind == kSENSE || c.kind == kOUTPUT
  else false

/-- The commands of an action that lie on the block of a source. -/
def actionOn (src : Nat) (a : Action) : Bool :=
  if src = 11 then a.block == 0x0A
  else if 12 ≤ src ∧ src ≤ 17 then a.block == 0x0B && a.unit == src - 12
  else if 18 ≤ src ∧ src ≤ 23 then (a.block == 0x0C || a.block == 0x0D) && a.unit == src - 18
  else if 24 ≤ src ∧ src ≤ 28 then a.block == src - 10
  else false

/-- A block reset is asserted: its sheets end (R83), and the block resets. -/
def State.brst (s : State) (src : Nat) : State :=
  (s.resetCauses (claimOn src) (actionOn src)).blockPart src

/-! ### Power domains (R404, R405) -/

/-- The memory that the MEM step of a domain clears (R400, R404). -/
def State.clearMemory (s : State) (d : Nat) : State :=
  (regions.filter fun r => r.dom == d && r.base ≠ ledgerBase && r.base ≠ 0).foldl (fun s r =>
    { s with mem := wipeRange s.mem r.base (r.base + r.size)
             poison := s.poison.filter fun w => w < r.base || r.base + r.size ≤ w }) s

/-- What LDG loses (R488): the records that wait. -/
def State.ldgIdle (s : State) : State := { s with ldg := { s.ldg with cur := none, queue := [] } }

/-- SEC as a reset leaves it: the OTP, and the counts recovered from the Ledger (R464). -/
def State.secReset (s : State) : Sec :=
  { otp := s.sec.otp, delivered := s.ldg.delivered, nonbill := s.ldg.nonbill, meterSeq := s.ldg.meterSeq }

/-- TT with its tables empty; the count of DELIVERED outcomes is recovered from the Ledger (R464). -/
def State.ttReset (s : State) : State := { s with tt := { deliveredOut := s.ldg.out } }

/-- A station loses its domain: as by a BRST of its parts (R226, R268), with the sheets of R83; EXP and XLK keep what AON
holds. -/
def State.stationOff (s : State) (st : Nat) : State :=
  let s := (s.resetCauses (claimOn (12 + st)) (actionOn (12 + st))).resetCauses (claimOn (18 + st)) (actionOn (18 + st))
  let s := (s.scnPart st keepBrst).expPart st keepDown
  { s with exp := Tab.erase st s.exp }

/-- The blocks of a domain lose what they hold (R404). -/
def State.domReset (s : State) (d : Nat) : State :=
  let k := keepDown
  if d = 1 then s.ldgIdle.resetBlockRegs 0x16 k
  else if d = 2 then
    let s := { s.ttReset with gcores := [], sq := {}, jct := {}, dma := {}, points := [], pointTimes := [], bkg := {}
                              sec := s.secReset }
    [0x05, 0x06, 0x07, 0x08, 0x15, 0x17].foldl (fun s b => s.resetBlockRegs b k) s
  else if 3 ≤ d ∧ d ≤ 6 then
    (List.range 6).foldl (fun s i => (s.setArms (6 * (d - 3) + i) []).setFlight (6 * (d - 3) + i) {}) s
  else if 7 ≤ d ∧ d ≤ 9 then
    let s := { s with bkg := { s.bkg with based := s.bkg.based.filter fun st => st / 2 ≠ d - 7 } }
    [2 * (d - 7), 2 * (d - 7) + 1].foldl (fun s st => s.stationOff st) s
  else if d = 10 then { s with fx := { saved := s.fx.saved } }.resetBlockRegs 0x0A k
  else if d = 11 then { s with sys := { s.sys with wiping := false } }.setB Reg.SEC_BOOT 8 false
  else if d = 12 then s.hstReset k
  else if d = 13 then s.lineReset k
  else if d = 14 then
    let s := s.focReset.stpReset.hvReset.fusReset.snsReset
    [0x0E, 0x0F, 0x10, 0x11, 0x12].foldl (fun s b => s.resetBlockRegs b k) s
  else s

/-- Every switched domain loses its supply at once: a rail shutdown, or the loss of VSTBY (R418). -/
def State.domainsLost (s : State) : State :=
  let s := (List.range 15).foldl (fun s i => ((s.domReset (i + 1)).clearMemory (i + 1)).setReg
    (Reg.PWR_DOM_STATE (i + 1)) (putBits (s.reg (Reg.PWR_DOM_STATE (i + 1))) 5 0 0)) s
  { s with mem := wipeRange s.mem dramBase (dramBase + s.dramSize)
           pwr := { s.pwr with reqs := [], stepAt := [], want := [], wantOff := [], plan := [], cur := none, left := []
                               archAt := none, archive := false, heldWake := false, thermal := false } }

/-! ### Chip reset (R42, R84, R391) -/

/-- The domains after a CRST: those of BOOT power up, the others down (R402, R408, R414). During a thermal shutdown, which
only POR ends, every domain goes down (R42, R425). -/
def State.crstDomains (s : State) : State :=
  let boot := if s.pwr.shut then [] else [1, 2, 11, 12, 15]
  let s := (List.range 16).foldl (fun s d => if s.dom d = dFAILED then s.setDom d dOFF else s) s
  let s := { s with pwr := { s.pwr with reqs := [], want := [], plan := [], cur := none, left := [], endSafe := false
                                        archAt := none, archive := false, heldWake := false, archIn := none
                                        wantOff := (List.range 16).filter fun d => d ≠ 0 && !boot.contains d && !s.domDown d } }
  (boot.foldl (fun s d => s.onEvent d s.now) s).domMoved s.now

/-- Memory after POR, CRST and WIPE (R472): only the Ledger keeps its contents. -/
def State.wipeAll (s : State) : State :=
  { s with mem := s.mem.filter fun c => ledgerBase ≤ c.1 && c.1 < dramBase
           poison := s.poison.filter fun w => ledgerBase ≤ w && w < dramBase }

/-- The root clock stops: AON latches the time base (R29). -/
def State.stopClock (s : State) : State :=
  if s.clk.run then { s with clk := { s.clk with run := false, latchTb := s.clk.tb, latchRef := s.clk.ref } } else s

/-- A chip reset: the mark is written first, the device goes to BOOT, kept records stay, memories are wiped, and the root
PLL is started anew from CLK_ROOT.NEXT (R25, R26, R42, R84, R398, R472). -/
def State.crst (s : State) : State :=
  let s := if s.sbx.chip then s else s.resetMark 0x0E
  let s := s.ldgMarks 128
  let oldPll := s.f Reg.CLK_ROOT 0 0
  let next := (s.applyS Reg.CLK_ROOT).af Reg.CLK_ROOT 4 4
  let perst := s.fb Reg.HST_STATUS 9
  let s := s.stopClock.wipeAll
  let s : State :=
    { State.reset with
      pending := s.pending, fresh := s.fresh, clk := { s.clk with hold := [] }, regs := s.regs, held := []
      mem := s.mem, poison := s.poison, dramSize := s.dramSize
      sbx := { s.sbx with rst := [], nmi := [], hold := [], sent := [], held := [], heldN := [], remote := [], chip := true }
      tt := { deliveredOut := s.ldg.out }, hst := { perst := s.hst.perst }, fx := { saved := s.fx.saved }
      ldg := { s.ldg with cur := none, queue := [] }, sec := s.secReset
      fus := s.fusReset.fus, pwr := s.pwr
      sys := { s.sys with bootDue := true, wiping := false }, bkg := { passAt := s.now } }
  let s := s.resetRegs 0x20000000 Reg.PWR_SEQ_STATUS keepCrst
  let s := s.resetRegs (Reg.PWR_SEQ_STATUS + 4) (Reg.PWR_DOM_STATE 0) keepCrst
  let s := s.resetRegs (Reg.PWR_DOM_CNT 0) (blockLo 0x1A) keepCrst
  let s := (s.setF Reg.CLK_ROOT 0 0 next).setB Reg.HST_STATUS 9 perst
  let s := s.crstDomains
  if next = oldPll then s else s.ldgRecord 2 0x14 1 (bytesLE 1 next)

/-- What is left of the Ledger's work when the supply has come back (R488). -/
def State.por (s : State) : State :=
  { State.reset with
    pending := s.pending, fresh := s.fresh
    regs := ((s.resetRegs 0x20000000 Reg.PWR_SEQ_STATUS keepPor).resetRegs (Reg.PWR_SEQ_STATUS + 4) (blockLo 0x1A)
      keepPor).regs
    mem := s.wipeAll.mem, poison := s.wipeAll.poison, dramSize := s.dramSize
    tt := { deliveredOut := s.ldg.out }, hst := { perst := s.hst.perst }, fx := { saved := s.fx.saved }
    ldg := { s.ldg with cur := none, queue := [] }, sec := s.secReset
    pwr := { vmonBad := s.pwr.vmonBad, seqRail := s.pwr.seqRail, seqAt := 0, railLatch := s.pwr.railLatch
             thermLatch := s.pwr.thermLatch, vinAt := s.pwr.vinAt.map fun _ => 0, railEn := s.pwr.railEn
             pgIn := s.pwr.pgIn, vinIn := s.pwr.vinIn, wakeIn := s.pwr.wakeIn }
    sys := { intlk := s.sys.intlk, intlkIn := s.sys.intlkIn
             events := (s.sys.events.filter fun (e : ModeDue) => e.due == s.now).map fun (e : ModeDue) =>
               { e with due := 0 } } }.setB Reg.HST_STATUS 9 (s.fb Reg.HST_STATUS 9)

end Sys2Proof.Machine
end

