-- ==== Sys2Proof/Machine/Mode.lean ====
section
/-!
DEFINITION. The operating modes (R41–R48, R505): requests, SAFE triggers, mode changes that move power domains, and the
commands of their rows.
-/

namespace Sys2Proof.Machine

/-- Refusal reasons of SYS_MODE.REFUSE. -/
def mNOT_PERMITTED : Nat := 1
def mSHEETS : Nat := 2
def mSAFE_INC : Nat := 3
def mINTERLOCK : Nat := 4
def mMOTION : Nat := 5

def State.setMode (s : State) (m : Mode) : State := (s.setF Reg.SYS_MODE 2 0 m.code).setF Reg.SYS_MODE 6 4 m.code

/-- The boot stage (R455). -/
def State.stage (s : State) : Nat := s.f Reg.SEC_BOOT 1 0

/-- A channel is in manual motion (R47). -/
def State.manualMotion (s : State) : Bool := s.reg Reg.SYS_SVC_MOTION != 0 || s.reg Reg.SYS_SVC_MOTION_STP != 0

def State.safeDone (s : State) : Bool := s.fb Reg.SYS_MODE 7

/-- A request is refused. -/
def State.modeRefuse (s : State) (m : Mode) (reason : Nat) : State :=
  (s.setF Reg.SYS_MODE 14 12 m.code).setF Reg.SYS_MODE 18 16 reason

/-- What a request for `m` is refused with, or none (R42, R48). -/
def State.modeRefusal (s : State) (m : Mode) : Option Nat :=
  let lock : Option Nat := if s.sys.intlk then some mINTERLOCK else none
  match s.mode, m with
  | .boot, .standby => if 2 ≤ s.stage then none else some mNOT_PERMITTED
  | .boot, .ready => if 2 ≤ s.stage then lock else some mNOT_PERMITTED
  | .standby, .ready => lock
  | .standby, .archive => none
  | .ready, .standby => none
  | .ready, .service => lock
  | .print, .drain => none
  | .print, .ready => some mSHEETS
  | .print, .standby => some mSHEETS
  | .drain, .print => if s.anyCommitted then none else some mNOT_PERMITTED
  | .drain, .ready => some mSHEETS
  | .drain, .standby => some mSHEETS
  | .safe, .ready => if s.safeDone then lock else some mSAFE_INC
  | .safe, .standby => if s.safeDone then none else some mSAFE_INC
  | .service, .ready => if s.manualMotion then some mMOTION else lock
  | _, _ => some mNOT_PERMITTED

/-- The mode is entered, and TRANS is 0: SUB, SAFE_DONE and the manual-motion bits follow (R42, R46, R47). -/
def State.enterMode (s : State) (m : Mode) : State :=
  let old := s.mode
  let s := (s.setMode m).setB Reg.SYS_MODE 3 false
  let s := if old == .safe && m != .safe then s.setB Reg.SYS_MODE 7 false else s
  let s := if old == .service then (s.setReg Reg.SYS_SVC_MOTION 0).setReg Reg.SYS_SVC_MOTION_STP 0 else s
  match m with
  | .ready =>
    if old == .boot || old == .standby then s.setB Reg.SYS_MODE 15 true
    else if old == .safe || old == .service then s.setB Reg.SYS_MODE 15 false
    else s
  | .archive | .standby | .boot => s.setB Reg.SYS_MODE 15 false
  | _ => s

/-- The first entry to READY (R505). -/
def State.firstReady (s : State) : State := (s.setB Reg.SEC_BOOT 2 true).setB Reg.SYS_PROFILE 1 true

/-- A mode change that raises or lowers domains; with none to move, the mode is entered at once (R44, R402). -/
def State.beginChange (s : State) (m : Mode) (up down : List Nat) : State :=
  if up.isEmpty && down.isEmpty then s.enterMode m
  else
    let s := (s.setF Reg.SYS_MODE 6 4 m.code).setB Reg.SYS_MODE 3 true
    let s := { s with pwr := { s.pwr with left := up ++ down, planUp := down.isEmpty, endSafe := false } }
    s.pwrPush (.change up down)

/-- An accepted request takes effect (R42). -/
def State.modeAccept (s : State) (m : Mode) : State :=
  let missing (m : Mode) : List Nat := (s.modeSet m).filter fun d => !s.domOn d && d ≠ 0
  match s.mode, m with
  | .boot, .standby => s.beginChange .standby (missing .standby) []
  | .boot, .ready => s.firstReady.beginChange .ready (missing .ready) []
  | .standby, .ready => s.firstReady.beginChange .ready (missing .ready) []
  | .standby, .archive => s.pwrPush .archive
  | .ready, .standby => s.beginChange .standby [] (s.engineSet.reverse.filter fun d => !s.domDown d)
  | .safe, .standby => s.beginChange .standby [] (s.engineSet.reverse.filter fun d => !s.domDown d)
  | .safe, .ready => s.beginChange .ready (s.engineSet.filter fun d => !s.domOn d) []
  | .print, .drain => (s.enterMode .drain).closeAdmission
  | _, m => s.enterMode m

/-- A request for a mode (R42, R44): held during a change; otherwise taken. A thermal shutdown has left every mode. -/
def State.modeRequest (s : State) (m : Mode) : State :=
  if s.pwr.shut then s
  else if s.trans then (s.setF Reg.SYS_MODE 10 8 m.code).setB Reg.SYS_MODE 11 true
  else if s.mode == m then s
  else match s.modeRefusal m with
    | some r => s.modeRefuse m r
    | none => s.modeAccept m

/-- A held request is taken once TRANS is 0 (R44). -/
def State.takeHeld (s : State) : State :=
  if !s.trans && s.fb Reg.SYS_MODE 11 then
    let m := Mode.ofCode (s.f Reg.SYS_MODE 10 8)
    ((s.setB Reg.SYS_MODE 11 false).setF Reg.SYS_MODE 10 8 0).modeRequest m
  else s

/-! ### SAFE (R44, R45, R82) -/

/-- SAFE entry: sheets, beams, high voltage, motion, fuser and outputs act as their chapters say. -/
def State.enterSafe (s : State) : State :=
  let open' := s.lossSheets
  let s := (s.enterMode .safe).setB Reg.SYS_MODE 7 false
  let s := s.safeSheets
  let s := (s.expSafe).scnSafe open'
  let s := if s.domOn 14 then s.hvSafe.focSafe.stpSafe.fusSafe.snsSafe else s
  s

/-- A SAFE trigger ends a change into READY in SAFE (R44): what has not begun is dropped, what has begun completes. -/
def State.endInSafe (s : State) : State :=
  let eng := s.engineSet
  let s := { s with pwr := { s.pwr with
    plan := [], endSafe := true, want := s.pwr.want.filter fun d => !eng.contains d
    reqs := s.pwr.reqs.map fun (r : PwrReq) => match r.kind with
      | .change up _ => { r with kind := .change (up.filter fun d => !eng.contains d) [] }
      | _ => r } }
  let s := eng.foldl (fun s d => if s.dom d = dUP_REG && (s.stepAt d).isNone then s.setDom d dOFF else s) s
  let rising := (List.range 16).filter s.domRising
  let s := { s with pwr := { s.pwr with left := rising, cur := none } }
  let s := s.setF Reg.SYS_MODE 6 4 Mode.safe.code
  if rising.isEmpty then (((s.enterMode .safe).setB Reg.SYS_MODE 7 true).expSafe).takeHeld else s

/-- A SAFE trigger (R41, R42, R44): a check in progress ends at once (R62). A thermal shutdown has left every mode. -/
def State.safeTrigger (s : State) : State :=
  if s.pwr.shut then s else
  let s := s.abortCheck rABORTED
  if s.trans then
    if s.f Reg.SYS_MODE 6 4 = Mode.ready.code then s.endInSafe else s.setB Reg.SYS_MODE 19 true
  else match s.mode with
    | .archive | .standby | .boot => s.setB Reg.SYS_MODE 19 true
    | .safe => s
    | _ => s.enterSafe

/-! ### The end of a change (R44) -/

/-- The mode change ends: ARCHIVE is entered with the clock stopped and left at once if a wake is held (R29, R413). -/
def State.changeEnd (s : State) : State :=
  let target := Mode.ofCode (s.f Reg.SYS_MODE 6 4)
  let held := s.pwr.heldWake
  let ended := s.pwr.endSafe
  let s := { s with pwr := { s.pwr with left := [], endSafe := false, archive := false, archAt := none, heldWake := false
                                        cur := none } }
  match target with
  | .archive =>
    let s := (s.enterMode .archive).stopClock
    let s := { s with pwr := { s.pwr with archIn := some s.now } }
    if held then s.crst else s.takeHeld
  | .safe => (((s.enterMode .safe).setB Reg.SYS_MODE 7 (ended || s.safeDone)).expSafe).takeHeld
  | m => (s.enterMode m).takeHeld

/-! ### Requests -/

/-! ### The mode events of one edge (R43) -/

/-- The order of R43 among the events of one edge; resets and thermal shutdown come before them and act at once. -/
def ModeEv.rank : ModeEv → Nat
  | .safe => 0
  | .interlock _ => 0
  | .checkEnd _ => 1
  | .request _ => 2

/-- Take one mode event, against the mode that the one before left. A new assertion of INTLK_N is a SAFE trigger (R48). -/
def State.modeTake (s : State) (e : ModeEv) : State :=
  match e with
  | .safe => s.safeTrigger
  | .interlock on =>
    let new := on && !s.sys.intlk
    let s := { s with sys := { s.sys with intlk := on } }
    if new then s.safeTrigger else s
  | .checkEnd start => s.endCheck start
  | .request m => s.modeRequest (Mode.ofCode m)

/-- An edge is over: its mode events are taken in the order of R43, and a request held under R44 after each. -/
def State.closeEdge (s : State) (edge : Tick) : State :=
  let es := (s.sys.events.filter fun e => e.due ≤ edge).map (·.ev)
  let s := { s with sys := { s.sys with events := s.sys.events.filter fun e => edge < e.due } }
  (List.range 3).foldl (fun s k =>
    (es.filter fun e => e.rank == k).foldl (fun s e => (s.modeTake e).takeHeld) s) s.takeHeld

/-- A request for a mode waits for the end of its edge (R43). -/
def State.modeAsk (s : State) (m : Mode) : State := s.modeEvent s.now (.request m.code)

/-- The samples of INTLK_N at the REF edges, 8 equal ones of which change it (R48); a change is an event of the edge of the
last. -/
def State.intlkSamples (s : State) (ls : List Bool) : State :=
  let x := ls.foldl (fun x v => x.sample 7 v) s.sys.intlkIn
  let turned := s.sys.intlkIn.level != x.level
  let s := { s with sys := { s.sys with intlkIn := x } }
  if turned then s.modeEvent (nextMultiple 256 s.now) (.interlock (x.level == some false)) else s

/-- A write of a mode to SYS_MODE_REQ by an initiator: SAFE written by a supervisor core or the host is a SAFE trigger
(R41), and anything else a request (R42). -/
def State.modeWrite (s : State) (ini m : Nat) : State :=
  s.modeEvent s.now (if m = Mode.safe.code && (ini ≤ 1 || ini = iHOST) then .safe else .request m)

/-- All motion has ended (R45). -/
def State.motionEnded (s : State) : Bool :=
  (List.range 16).all (fun c => !s.focRunning c) && (List.range 32).all fun c => !s.moving c

end Sys2Proof.Machine
end

