-- ==== Sys2Proof/Machine/Thermal.lean ====
section
/-!
DEFINITION. Temperature (R420–R425): sensor samples, bands, the throttle request and its states, thermal shutdown, and
the commands of their rows.
-/

namespace Sys2Proof.Machine

def State.thmEvent (s : State) (irq ev : Nat) : State := (s.setB Reg.THM_IRQ_STATUS irq true).raise srcTHM ev

/-- The value of a sensor in use, in 0.1 °C. -/
def State.thmVal (s : State) (i : Nat) : Int := Tab.get 0 s.thm.vals i

def State.sensorFailed (s : State) (i : Nat) : Bool := s.fb Reg.THM_SENSOR_FAIL i

/-- A reading is one the sensor may give (R421). -/
def goodReading (r : Option Int) : Option Int :=
  match r with
  | some x => if -500 ≤ x && x ≤ 1500 then some x else none
  | none => none

/-- The value in use of sensor i at a sample, from the readings: a failed sensor takes its neighbour's plus 5.0 °C; one
without a usable reading keeps its last value (R421; log entry 39). -/
def State.sampleVal (s : State) (rs : List (Option Int)) (i : Nat) : Int :=
  let own := goodReading (rs.getD i none)
  let nb := goodReading (rs.getD (i ^^^ 1) none)
  if s.sensorFailed i then
    (if s.sensorFailed (i ^^^ 1) then s.thmVal i else match nb with | some x => x + 50 | none => s.thmVal i)
  else own.getD (s.thmVal i)

/-- Sensor i fails: its record and event (R421). -/
def State.failSensor (s : State) (i : Nat) : State :=
  if s.sensorFailed i then s
  else ((s.setB Reg.THM_SENSOR_FAIL i true).ldgRecord 2 0x15 1 (bytesLE 1 i)).thmEvent 3 3

/-- The pair of sensors 2p and 2p + 1 disagree by more than 15.0 °C, both in use. -/
def State.pairDiffers (s : State) (rs : List (Option Int)) (p : Nat) : Bool :=
  match goodReading (rs.getD (2 * p) none), goodReading (rs.getD (2 * p + 1) none) with
  | some a, some b => !s.sensorFailed (2 * p) && !s.sensorFailed (2 * p + 1) && (150 < a - b || 150 < b - a)
  | _, _ => false

/-- A pair at a sample: 16 disagreements in a row fail the lower reading. -/
def State.samplePair (s : State) (rs : List (Option Int)) (p : Nat) : State :=
  let n := if s.pairDiffers rs p then Tab.get 0 s.thm.differ p + 1 else 0
  let s := { s with thm := { s.thm with differ := Tab.put 0 s.thm.differ p (if n < 16 then n else 0) } }
  if n < 16 then s
  else
    let a := (rs.getD (2 * p) none).getD 0
    let b := (rs.getD (2 * p + 1) none).getD 0
    s.failSensor (if a < b then 2 * p else 2 * p + 1)

/-! ### Bands (R422) -/

/-- The lower bound of band b, b > 0. -/
def bandLow (b : Nat) : Int := if b = 1 then 0 else if b = 2 then 400 else if b = 3 then 700 else 950

/-- The band of a temperature by the bounds alone. -/
def bandOf (x : Int) : Nat := ((List.range 4).filter fun b => bandLow (b + 1) ≤ x).length

/-- The band after a sample: it rises at once, and falls only beyond the hysteresis. -/
def bandNext (band : Nat) (x hyst : Int) : Nat :=
  if band < bandOf x then bandOf x
  else ((List.range band).find? fun b => x < bandLow (b + 1) - hyst).getD band

/-! ### Throttling (R424) -/

def State.thmRise (s : State) : Int := toSigned 16 (s.f Reg.THM_TMAX 31 16)
def State.thmTmax (s : State) : Int := toSigned 16 (s.f Reg.THM_TMAX 15 0)

/-- TT_PWR_BUDGET is the lesser of TT_PWR_LIMIT and the THM allowance. -/
def State.updateBudget (s : State) : State :=
  s.setF Reg.TT_PWR_BUDGET 15 0 (min (s.f Reg.TT_PWR_LIMIT 15 0) s.thm.allow)

/-- Set the throttle values that reach TT, and note the change for line 2 (R85). -/
def State.thrState (s : State) (advise enforced : Bool) (horizon pitch allow : Nat) : State :=
  let s := (s.setB Reg.THM_STATUS 4 advise).setB Reg.THM_STATUS 5 enforced
  let s := ((s.setB Reg.TT_THROTTLE 8 advise).setB Reg.TT_THROTTLE 9 enforced).setF Reg.TT_THROTTLE 7 0 horizon
  let s := s.setReg Reg.TT_PITCH_MIN (BitVec.ofNat 32 pitch)
  { s with thm := { s.thm with allow := allow }, tt := { s.tt with thrChanged := true } }.updateBudget

/-- The values THM sets while ENFORCED. -/
def State.thrEnforced (s : State) : State :=
  let h := s.af Reg.THM_THR_HORIZON 7 0
  let s := s.setF Reg.TT_THROTTLE 7 0 h
  let s := s.setReg Reg.TT_PITCH_MIN (s.applied Reg.THM_THR_PITCH)
  { s with thm := { s.thm with allow := s.af Reg.THM_THR_ALLOW 15 0 } }.updateBudget

/-- The sample of this edge has been taken. -/
def State.thmSampled (s : State) : Bool := (s.thm.samples.head?.map (·.1)) == some s.now

/-- Throttling is asked for at this sample. -/
def State.throttleAsked (s : State) : Bool :=
  toSigned 16 (s.f Reg.THM_THR_T 15 0) ≤ s.thmTmax || (s.f Reg.THM_RISE_LIM 15 0 : Int) < s.thmRise ||
  s.fb Reg.THM_CTRL 8 || (List.range 6).any fun p => s.sensorFailed (2 * p) && s.sensorFailed (2 * p + 1)

/-- The release conditions hold at this sample. -/
def State.throttleCalm (s : State) : Bool :=
  s.thmTmax < toSigned 16 (s.f Reg.THM_THR_T 15 0) - (s.f Reg.THM_THR_T 23 16 : Nat) &&
  s.thmRise ≤ (s.f Reg.THM_RISE_LIM 15 0 : Int) && !s.fb Reg.THM_CTRL 8 &&
  !((List.range 6).any fun p => s.sensorFailed (2 * p) && s.sensorFailed (2 * p + 1))

/-- A sample's part of the throttle request: REQ, ADVISE, event RISE, and the count of calm time. -/
def State.sampleThrottle (s : State) : State :=
  let steep := decide ((s.f Reg.THM_RISE_LIM 15 0 : Int) < s.thmRise)
  let s := if steep && !s.thm.rising then s.thmEvent 2 2 else s
  let calm := if s.throttleCalm then some (s.thm.calm.getD s.now) else none
  let s := { s with thm := { s.thm with rising := steep, calm := calm } }
  let s := if s.throttleAsked then s.setB Reg.THM_STATUS 3 true else s
  if s.fb Reg.THM_STATUS 3 && !s.fb Reg.THM_STATUS 4 then
    let s := s.thrState true false 128 0 3200
    ({ s with thm := { s.thm with advAt := s.now } }.incSat Reg.THM_CNT 15 0).thmEvent 0 0
  else s

/-! ### Shutdown (R425) -/

/-- Write the Ledger's hardware records that wait: the shutdown comes after them. -/
def State.ldgFlush (s : State) : Nat → State
  | 0 => s
  | n + 1 => if s.ldgWaiting.any fun r => r.cls ≤ 2 then (s.ldgUnit true true).ldgFlush n else s

/-- A voltage request ends with a cause (R416). -/
def State.vreqEnd (s : State) (st cause : Nat) : State :=
  ((s.setF Reg.PWR_VREQ_STATUS 1 0 st).setF Reg.PWR_VREQ_STATUS 4 2 cause).setB Reg.PWR_IRQ_STATUS 2 true

def State.vreqAbandon (s : State) : State := if s.vreqPending then s.vreqEnd 3 5 else s

/-- Thermal shutdown begins: the mark, the record, and every domain other than AON goes down. -/
def State.thermalShutdown (s : State) (i : Nat) (before : Int) : State :=
  let s := s.resetMark 0x10
  let s := s.ldgRecord 2 0x20 1 (bytesLE 1 i ++ bytesLE 1 (s.f Reg.THM_STATUS 2 0) ++
    bytesLE 2 (fromSigned 16 before) ++ bytesLE 2 (fromSigned 16 (s.thmVal i)))
  let s := (s.ldgFlush 256).vreqAbandon
  let s := { s with pwr := { s.pwr with
    reqs := [], want := [], plan := [], cur := none, thermal := true, shut := true, archAt := none, archive := false
    wantOff := (List.range 16).filter fun d => d ≠ 0 && !s.domDown d } }
  s.lowerReady s.now

/-- A sensor's count of samples at or above the threshold; two in a row shut the part down. -/
def State.sampleHot (s : State) (i : Nat) (before : Int) : State :=
  let n := if (s.f Reg.THM_LIMITS 15 0 : Int) ≤ s.thmVal i then Tab.get 0 s.thm.hot i + 1 else 0
  let s := { s with thm := { s.thm with hot := Tab.put 0 s.thm.hot i n } }
  if n = 2 && !s.pwr.shut then s.thermalShutdown i before else s

/-! ### Samples -/

/-- The greatest of a list, with its first index. -/
def maxWith : List Int → Nat → Int × Nat
  | [], _ => (0, 0)
  | [x], i => (x, i)
  | x :: xs, i => let m := maxWith xs (i + 1); if m.1 ≤ x then (x, i) else m

end Sys2Proof.Machine
end

