-- ==== Sys2Proof/Machine/Trust.lean ====
section
/-!
DEFINITION. SEC (R455–R471): the boot ROM and the boot stages, the OTP, the commands of SEC, meters, and the life cycle;
and the commands of their rows.
-/

namespace Sys2Proof.Machine

/-! ### OTP, stages and measurements (R455, R458, R459, R461) -/

def State.unitId : Nat := Config.unitId % 2 ^ 64

/-- SEC_LC as it reads. -/
def State.lcView (s : State) : Word :=
  BitVec.ofNat 32 (s.sec.otp.lc + (if s.sec.otp.key.isSome then 8 else 0) + (if s.sec.otp.oem ≠ 0 then 16 else 0) +
    (if s.ldg.cert then 32 else 0))

/-- SEC_RB[n] as it reads. -/
def State.rbCount (s : State) (n : Nat) : Nat := Tab.get 0 s.sec.otp.rb n

/-- SEC_METER_PEND (R464). -/
def State.meterPending (s : State) : Nat := s.tt.deliveredOut - s.sec.delivered

/-- A measurement register as 32 bytes: its words are in big-endian order. -/
def State.meas (s : State) (m : Nat) : List Byte :=
  (List.range 8).flatMap fun w => bytesBE 4 (s.reg (Reg.SEC_MEAS m w)).toNat

/-- Extend a measurement register (R459). -/
def State.extendMeas (s : State) (m : Nat) (d : List Byte) : State :=
  let h := sha256 (s.meas m ++ d)
  (List.range 8).foldl (fun s w =>
    s.setReg (Reg.SEC_MEAS m w) (BitVec.ofNat 32 (natBE ((h.drop (4 * w)).take 4)))) s

/-- A write to SEC_STAGE_NEXT (R455). -/
def State.stageNext (s : State) (n : Nat) : State :=
  if n = s.stage + 1 && n ≤ 3 then s.setF Reg.SEC_BOOT 1 0 n else s

/-- A write to SEC_RB_ADV (R458). -/
def State.rbAdv (s : State) (n : Nat) : State :=
  if s.stage ≤ 1 && s.rbCount n < 64 then
    { s with sec := { s.sec with otp := { s.sec.otp with rb := Tab.put 0 s.sec.otp.rb n (s.rbCount n + 1) } } }
  else s

/-- Start a supervisor core at an address, as R128 and R460 give it. -/
def State.startCore (s : State) (c pc : Nat) : State :=
  { s with gcores := Tab.put {} s.gcores c { running := true, pc := pc } }

/-- Writing 1 to RELEASE1 (R460). -/
def State.release1 (s : State) : State :=
  let s := s.setB Reg.SEC_CTRL 8 true
  if s.sec.released then s
  else { s with sec := { s.sec with released := true } }.startCore 1 (s.reg Reg.SEC_CORE1_ENTRY).toNat

/-! ### The boot ROM (R456, R457) -/

/-- Header fields of a first-stage image. -/
def hdrLen (h : List Byte) : Nat := sliceLE h 8 4
def hdrEntry (h : List Byte) : Nat := sliceLE h 0x0C 4
def hdrPubkey (h : List Byte) : List Byte := (h.drop 0x30).take 64
def hdrBodyHash (h : List Byte) : List Byte := (h.drop 0x10).take 32
def keyOf (bs : List Byte) : Nat × Nat := (natBE (bs.take 32), natBE ((bs.drop 32).take 32))

/-- The header is valid (check 2). -/
def hdrValid (h : List Byte) : Bool :=
  sliceLE h 0 4 == 0x50584246 && 16 ≤ hdrLen h && hdrLen h ≤ 786432 && hdrLen h % 16 == 0 &&
  hdrEntry h % 4 == 0 && hdrEntry h < hdrLen h && (((h.drop 0xB0).take 80).all (· == 0))

/-- The first failing check of a slot, or none (R456). -/
def State.slotCause (s : State) (slot : Option (List Byte)) : Option Nat :=
  match slot with
  | none => some 1
  | some bs =>
    let signed := !(s.sec.otp.lc == 0 && s.sec.otp.oem == 0)
    let k := keyOf (hdrPubkey bs)
    let body := (bs.drop 256).take (hdrLen bs)
    if bs.length < 256 then some 1
    else if !hdrValid bs then some 2
    else if signed && natBE (sha256 (hdrPubkey bs)) != s.sec.otp.oem then some 3
    else if signed && !ecdsaVerify k (natBE (sha256 (bs.take 0x70))) (sliceBE bs 0x70 32) (sliceBE bs 0x90 32) then some 4
    else if signed && sliceLE bs 4 4 < s.rbCount 0 then some 5
    else if body.length < hdrLen bs then some 1
    else if sha256 body != hdrBodyHash bs then some 6
    else none
where
  /-- A big-endian number inside a list of bytes. -/
  sliceBE (bs : List Byte) (off n : Nat) : Nat := natBE ((bs.drop off).take n)

/-- The ROM starts the first stage of a slot that passes. -/
def State.bootSlot (s : State) (n : Nat) (bs : List Byte) : State :=
  let s := s.storeBytes (supBase 0) ((bs.drop 256).take (hdrLen bs))
  let s := s.extendMeas 0 (hdrBodyHash bs)
  let s := (s.setF Reg.SEC_BOOT 3 3 n).setF Reg.SEC_BOOT 1 0 1
  s.startCore 0 (supBase 0 + hdrEntry bs)

/-- The boot ROM's run (R430, R456): core 0 halts in it with a CAUSE, or continues in the first stage. -/
def State.bootRom (s : State) : State :=
  let s := { s with sys := { s.sys with bootDue := false } }
  let s := if s.domOn 12 then (s.setReg Reg.HST_SUBSYS (BitVec.ofNat 32 s.sec.otp.subsys)).setB Reg.HST_CTRL 0 true else s
  if s.sec.otp.lc = 4 then s.setF Reg.SEC_BOOT 7 4 7
  else match s.slotCause s.sys.slotA, s.sys.slotA with
    | none, some bs => s.bootSlot 0 bs
    | _, _ => match s.slotCause s.sys.slotB, s.sys.slotB with
      | none, some bs => s.bootSlot 1 bs
      | c, _ => s.setF Reg.SEC_BOOT 7 4 (c.getD 1)

/-- The boot ROM runs once the root clock runs and SUP is ON. -/
def State.bootIfDue (s : State) : State := if s.sys.bootDue && s.clk.run && s.domOn 2 then s.bootRom else s

/-! ### Commands (R462) -/

def rBUSY : Nat := 1
def rSTAGE : Nat := 2
def rSTATE : Nat := 3
def rPARAM : Nat := 4
def rNO_PENDING : Nat := 5
def rLEDGER_FULL : Nat := 6
def rVERIFY_FAIL : Nat := 7
def rEXISTS : Nat := 8
def rPENDING : Nat := 9

/-- A command is refused (R462). -/
def State.secRefuse (s : State) (reason : Nat) : State :=
  ((s.setF Reg.SEC_CMD_STATUS 1 0 3).setF Reg.SEC_CMD_STATUS 7 4 reason).setB Reg.SEC_IRQ_STATUS 2 true

/-- A command ends DONE. -/
def State.secDone (s : State) : State :=
  ((s.setF Reg.SEC_CMD_STATUS 1 0 2).setF Reg.SEC_CMD_STATUS 7 4 0).setB Reg.SEC_IRQ_STATUS 1 true

/-- The bytes at ARG that an operation takes, and those that it may write from ARG on. -/
def argNeeds (op arg2 lc : Nat) : Nat :=
  match op with
  | 1 => 65 | 2 => 32 | 3 => arg2 | 4 => 32 | 5 => 160 | 6 => 128 | 7 => 192
  | 8 => if lc = 2 && arg2 = 3 then 192 else 0
  | _ => 0

/-- [a, a + n) lies in the Stacks or in supervisor local memory (R462). -/
def argOk (a n : Nat) : Bool :=
  (stacksBase ≤ a && a + n ≤ stacksBase + stacksSize) || (supBase 0 ≤ a && a + n ≤ supBase 0 + 2 * supSize)

/-- `xs` occurs in `ys`. -/
def occursIn (xs : List Byte) : List Byte → Bool
  | [] => xs.isEmpty
  | y :: ys => xs.isPrefixOf (y :: ys) || occursIn xs ys

/-- The uncompressed device key. -/
def State.pubBytes (s : State) : List Byte :=
  [0x04] ++ bytesBE 32 s.sec.otp.pub.1 ++ bytesBE 32 s.sec.otp.pub.2

/-- The METER ring holds no room (R479). -/
def State.meterFull (s : State) : Bool := 9830 ≤ s.ldg.meterUsed

/-- The first reason, in the order of their codes, for which an operation is refused as it is written; a signature is
judged as the command ends. -/
def State.secRefusal (s : State) (op arg arg2 : Nat) (data : List Byte) : Option Nat :=
  let lc := s.sec.otp.lc
  let fused := op = 1 ∨ op = 2 ∨ op = 3 ∨ op = 8
  let state : Bool := match op with
    | 1 | 2 => lc == 0
    | 3 => lc == 1
    | 4 => lc != 4
    | 6 => lc == 1 || lc == 2 || lc == 3
    | 7 => lc == 2
    | 8 => arg2 == lc + 1 && arg2 ≤ 4 &&
        (if lc = 0 then s.sec.otp.key.isSome && s.sec.otp.oem ≠ 0 else if lc = 1 then s.ldg.cert else true)
    | _ => true
  let kind := sliceLE data 0x1A 1
  if (fused ∧ 1 < s.stage) ∨ (op = 4 ∧ s.stage ≠ arg2) then some rSTAGE
  else if !state then some rSTATE
  else if op = 0 ∨ 8 < op ∨ !argOk arg (argNeeds op arg2 lc) then some rPARAM
  else if op = 3 ∧ (2048 < arg2 ∨ !occursIn s.pubBytes data) then some rPARAM
  else if op = 6 ∧ sliceLE data 4 1 ≠ 2 ∧ sliceLE data 4 1 ≠ 3 then some rPARAM
  else if op = 7 ∧ (kind < 3 ∨ 5 < kind ∨ sliceLE data 0x28 24 ≠ 0) then some rPARAM
  else if op = 7 ∧ kind = 3 ∧ s.meterPending = 0 then some rNO_PENDING
  else if op = 7 ∧ (s.meterFull ∨ s.fb Reg.LDG_STATUS 2) then some rLEDGER_FULL
  else if (op = 1 ∧ s.sec.otp.key.isSome) ∨ (op = 2 ∧ s.sec.otp.oem ≠ 0) then some rEXISTS
  else none

/-- OP is written to SEC_CMD (R462). -/
def State.secBegin (s : State) (op : Nat) : State :=
  if s.sec.cmd.isSome then (s.setF Reg.SEC_CMD_STATUS 7 4 rBUSY).setB Reg.SEC_IRQ_STATUS 2 true
  else
    let arg := 16 * s.f Reg.SEC_ARG 31 4
    let arg2 := s.f Reg.SEC_ARG2 15 0
    let data := readBytes s.mem arg (argNeeds op arg2 s.sec.otp.lc)
    match s.secRefusal op arg arg2 data with
    | some r =>
      let s := s.secRefuse r
      if r = rLEDGER_FULL && s.meterFull then s.ldgEvent 3 else s
    | none =>
      let s := (s.setF Reg.SEC_CMD_STATUS 1 0 1).setF Reg.SEC_CMD_STATUS 7 4 0
      { s with sec := { s.sec with cmd := some { op := op, arg := arg, arg2 := arg2, start := s.clk.tb, data := data } } }

/-! ### Signatures (R463) -/

/-- The header of R463. -/
def State.msgHeader (s : State) (type : Nat) (time : Tick) : List Byte :=
  bytesLE 4 0x4D455452 ++ bytesLE 1 type ++ bytesLE 1 s.sec.otp.lc ++ bytesLE 2 1 ++ bytesLE 8 State.unitId ++
  bytesLE 8 time

/-- The signature of 64 bytes by the device key, r then s; the nonce is free (log entry 3). -/
def State.sign (s : State) (msg : List Byte) : List Byte × State :=
  let (i, s) := s.takeFresh
  let k := 1 + Config.freeNat i % (ecN - 1)
  let q := ecdsaSign (s.sec.otp.key.getD 0) (natBE (sha256 msg)) k
  (bytesBE 32 q.1 ++ bytesBE 32 q.2, s)

/-- SIGN's end: the header, and for QUOTE the measurements, are overwritten and r and s follow. -/
def State.signEnd (s : State) (c : SecCmd) : State :=
  let type := sliceLE c.data 4 1
  let quote := sha256 ((List.range 4).flatMap s.meas)
  let body := if type = 3 then quote ++ (c.data.drop 0x38).take 8 else (c.data.drop 0x18).take 40
  let msg := s.msgHeader type c.start ++ body
  let (sig, s) := s.sign msg
  (s.storeBytes c.arg (msg ++ sig)).secDone

/-! ### Meters (R464, R465) -/

/-- METER's end: the record is built, signed, appended and copied. -/
def State.meterEnd (s : State) (c : SecCmd) : State :=
  let d := c.data
  let kind := sliceLE d 0x1A 1
  let del := s.sec.delivered + (if kind = 3 then 1 else 0)
  let non := s.sec.nonbill + (if kind = 3 then 0 else 1)
  let seq := s.sec.meterSeq
  let msg := s.msgHeader 1 c.start ++ bytesLE 4 seq ++ d.take 8 ++ bytesLE 1 kind ++ bytesLE 1 (sliceLE d 0x1B 1) ++
    bytesLE 2 (sliceLE d 0x1C 2) ++ bytesLE 8 del ++ bytesLE 8 non ++ (d.drop 0x20).take 8
  let (sig, s) := s.sign msg
  let s := { s with sec := { s.sec with delivered := del, nonbill := non, meterSeq := (seq + 1) % 2 ^ 32 }
                    ldg := { s.ldg with meterUsed := s.ldg.meterUsed + 1 } }
  let s := s.ldgRecord 4 0x30 5 (msg ++ sig)
  (s.storeBytes (c.arg + 0x40) (msg ++ sig)).secDone

/-! ### Life cycle (R470, R471) -/

/-- Steps 3–5 of R471: the record, the empty regions, the BASE record, and WIPE_PEND cleared. -/
def State.lcWipe (s : State) (old : Nat) (recorded : Bool) : State :=
  let s := if recorded then s else s.ldgRecord 2 0x22 1 (bytesLE 1 old ++ bytesLE 1 s.sec.otp.lc)
  let s := s.ldgFlush 256
  let out := s.tt.deliveredOut
  let s := [3, 5, 7].foldl (fun s n =>
    let lo := unitAddr n 0
    let sectors := if n = 3 then 256 else if n = 5 then 64 else 120
    { s with mem := wipeRange s.mem lo (lo + sectors * 4096) }.setF (Reg.LDG_HEAD n) 15 0 0) s
  let s := { s with ldg := { s.ldg with queue := s.ldg.queue.filter (fun r => 4 ≤ r.cls && r.cls ≠ 5) } }
  let s := s.ldgRecord 2 0x04 2 (List.replicate 16 0 ++ bytesLE 8 out)
  (s.ldgFlush 256).setB Reg.LDG_STATUS 1 false

/-- The token of FIELD to RETURNED: a RETURN message with this UNIT_ID, signed by the OEM (R470). -/
def State.tokenOk (s : State) (d : List Byte) : Bool :=
  let msg := d.take 64
  let key := (d.drop 128).take 64
  sliceLE msg 0 4 == 0x4D455452 && sliceLE msg 4 1 == 4 && sliceLE msg 6 2 == 1 && sliceLE msg 8 8 == State.unitId &&
  natBE (sha256 key) == s.sec.otp.oem &&
  ecdsaVerify (keyOf key) (natBE (sha256 msg)) (natBE ((d.drop 64).take 32)) (natBE ((d.drop 96).take 32))

/-- LC_CHANGE's end: refused, or the steps of R471 with WIPE and CRST. -/
def State.lcEnd (s : State) (c : SecCmd) : State :=
  let lc := s.sec.otp.lc
  if lc = 2 && !s.tokenOk c.data then s.secRefuse rVERIFY_FAIL
  else if lc = 2 && s.meterPending ≠ 0 then s.secRefuse rPENDING
  else
    let s := s.setB Reg.LDG_STATUS 1 true
    let key := if lc = 3 then some (2 ^ 256 - 1) else s.sec.otp.key
    let s := { s with sec := { s.sec with otp := { s.sec.otp with lc := lc + 1, key := key } } }
    (s.lcWipe lc false).crst

/-! ### The end of a command -/

/-- What each operation does as it ends. -/
def State.secEnd (s : State) (c : SecCmd) : State :=
  match c.op with
  | 1 =>
    let (i, s) := s.takeFresh
    let d := 1 + Config.freeNat i % (ecN - 1)
    let q := (ecMul 256 d (some ecG)).getD (0, 0)
    let s := { s with sec := { s.sec with otp := { s.sec.otp with key := some d, pub := q } } }
    ((s.storeBytes c.arg s.pubBytes).ldgRecord 2 0x24 3 s.pubBytes).secDone
  | 2 => { s with sec := { s.sec with otp := { s.sec.otp with oem := natBE c.data } } }.secDone
  | 3 => (s.ldgRecord 2 0x23 ((c.arg2 + 22 + 31) / 32) (bytesLE 2 c.arg2 ++ c.data)).secDone
  | 4 => (s.extendMeas c.arg2 c.data).secDone
  | 5 =>
    let key := keyOf ((c.data.drop 32).take 64)
    if ecdsaVerify key (natBE (c.data.take 32)) (natBE ((c.data.drop 96).take 32)) (natBE ((c.data.drop 128).take 32))
    then s.secDone else s.secRefuse rVERIFY_FAIL
  | 6 => s.signEnd c
  | 7 => s.meterEnd c
  | _ => s.lcEnd c

/-! ### Telemetry entries (R486) -/

/-- Write a telemetry entry of 128 bytes at HEAD, in the Stacks. -/
def State.telWrite (s : State) (bs : List Byte) : State :=
  let size := 2 ^ s.f Reg.BKG_TEL_CFG 3 0
  let h := s.f Reg.BKG_TEL_HEAD 9 0
  let a := 128 * s.f Reg.BKG_TEL_BASE 31 7 + 128 * h
  let s := if stacksBase ≤ a && a + 128 ≤ stacksBase + stacksSize then s.storeBytes a bs else s
  s.setF Reg.BKG_TEL_HEAD 9 0 ((h + 1) % size)

/-- A snapshot is signed and written. -/
def State.telSign (s : State) (snap : List Byte) : State :=
  let (sig, s) := s.sign snap
  { s with bkg := { s.bkg with tel := none } }.telWrite (snap ++ sig)

end Sys2Proof.Machine
end

