-- ==== Sys2Proof/Machine/Power.lean ====
section
/-!
DEFINITION. PWR's commands (R403–R419): domain requests and steps, the entry to ARCHIVE and its wakes, voltage requests,
and the rail sequencer.
-/

namespace Sys2Proof.Machine

/-! ### Domains -/

/-- A write to PWR_DOM_REQ (R403). -/
def State.domRequest (s : State) (d : Nat) (on : Bool) : State := s.pwrPush (if on then .on d else .off d)

/-- The longest a step takes (R400, R404). -/
def stepMax (d st : Nat) : Nat :=
  match st with
  | 1 => 128000
  | 2 => 2048
  | 3 =>
    if d = 1 then 64000 else if d = 2 then 1572864 else if d ≤ 6 then 196608 else if d ≤ 9 then 1048576
    else if d = 10 then 524288 else 16384
  | 4 => 8192
  | 6 => 8192
  | 7 => 1024
  | 8 => 256
  | _ => 64000

/-- A power-up step is ready (R408). -/
def State.upReady (s : State) (d st : Nat) (edge : Tick) : State :=
  let s := if st = dUP_MEM then s.clearMemory d else s
  if s.domRev d then ((s.setB (Reg.PWR_DOM_STATE d) 4 false).setDom d (10 - st)).setStep d
    (if st = dUP_REG then none else some edge)
  else if st < dUP_LOGIC then (s.setDom d (st + 1)).setStep d (some edge)
  else
    let s := if d = 2 then { s with bkg := { s.bkg with passAt := edge } } else s
    (s.setDom d dON).bootIfDue

/-- A power-down step is ready (R408, R413). -/
def State.downReady (s : State) (d st : Nat) (edge : Tick) : State :=
  if st = dDN_LOGIC then ((s.domReset d).setDom d 7).setStep d (some edge)
  else if st < dDN_REG then (s.setDom d (st + 1)).setStep d (if st + 1 = dDN_REG then none else some edge)
  else
    let pend := s.domPend d
    let s := (s.setDom d dOFF).setB (Reg.PWR_DOM_STATE d) 5 false
    if !pend then s
    else if d = 2 && s.pwr.archive then
      { s.pwrAborted d with pwr := { (s.pwrAborted d).pwr with heldWake := true } }
    else (s.pwrAborted d).onEventAt d edge

/-! ### The rail sequencer (R417, R418) -/

def qWAIT : Nat := 0
def qRISE : Nat := 1
def qUP : Nat := 2
def qFALL : Nat := 3
def qLATCHED : Nat := 4
def qTHERMAL : Nat := 5

def State.seqState (s : State) : Nat := s.f Reg.PWR_SEQ_STATUS 2 0
def State.setSeq (s : State) (n : Nat) : State :=
  { s.setF Reg.PWR_SEQ_STATUS 2 0 n with pwr := { (s.setF Reg.PWR_SEQ_STATUS 2 0 n).pwr with seqAt := s.now } }
def State.railOn (s : State) (i : Nat) : Bool := s.pwr.railEn.testBit i
def State.setRail (s : State) (i : Nat) (on : Bool) : State :=
  let e := s.pwr.railEn
  { s with pwr := { s.pwr with railEn := if on then e ||| 2 ^ i else if e.testBit i then e - 2 ^ i else e } }

/-- GAP and T_PG of a rail in ticks, as the sequence took them. -/
def State.railGap (s : State) (i : Nat) : Nat := s.af (Reg.PWR_RAIL_CFG i) 15 8 * 640000
def State.railTpg (s : State) (i : Nat) : Nat := s.af (Reg.PWR_RAIL_CFG i) 7 0 * ms

/-- The settings of a sequence are taken as it begins. -/
def State.takeRailCfg (s : State) : State := s.applyAll ((List.range 8).map Reg.PWR_RAIL_CFG)

/-- The last enable is low: the sequencer rests. -/
def State.fallDone (s : State) : State :=
  s.setSeq (if s.pwr.thermLatch then qTHERMAL else if s.pwr.railLatch then qLATCHED else qWAIT)

/-- The highest enabled rail falls. -/
def State.fallNext (s : State) : State :=
  match (List.range 8).reverse.find? s.railOn with
  | none => s.fallDone
  | some i =>
    let s := s.setRail i false
    if s.pwr.railEn = 0 then s.fallDone
    else { s with pwr := { s.pwr with seqRail := i, seqAt := s.now, seqGap := true } }

/-- FALL is entered: SEQ_OUT goes low, a voltage request is abandoned, every switched domain loses its supply, the root
clock stops, and the rails go low in descending order (log entry 40). -/
def State.fall (s : State) (cause : Nat) : State :=
  let s := ((s.setSeq qFALL).setF Reg.PWR_SEQ_STATUS 10 8 cause).setB Reg.PWR_SEQ_STATUS 13 false
  let s := (s.vreqAbandon.takeRailCfg).domainsLost.stopClock
  { s with pwr := { s.pwr with porHeld := false } }.fallNext

/-- A rail fails: its latch is set (R418). -/
def State.railFail (s : State) (i cause : Nat) : State :=
  { s.setF Reg.PWR_SEQ_STATUS 6 4 i with pwr := { (s.setF Reg.PWR_SEQ_STATUS 6 4 i).pwr with railLatch := true } }.fall
    cause

/-- Thermal shutdown passes to FALL once every domain is down (R425). -/
def State.thermalFall (s : State) : State :=
  if s.pwr.thermal && (List.range 15).all fun i => s.domDown (i + 1) then
    { s with pwr := { s.pwr with thermal := false, thermLatch := true } }.fall 5
  else s

/-- A power-good input is high while its rail rises: the next rail follows after GAP, or the sequencer is UP. -/
def State.railGood (s : State) : State :=
  let k := s.pwr.seqRail
  if s.seqState = qRISE && !s.pwr.seqGap && s.fb Reg.PWR_SEQ_STATUS (16 + k) then
    if k < 7 then { s with pwr := { s.pwr with seqGap := true, seqAt := s.now } }
    else
      let s := (s.setSeq qUP).setB Reg.PWR_SEQ_STATUS 13 true
      { s with pwr := { s.pwr with porHeld := true } }
  else s

/-- The filtered level of a PGOOD ball (R417). -/
def State.pgood (s : State) (i : Nat) : Bool := s.fb Reg.PWR_SEQ_STATUS (16 + i)

/-- The samples of PGOODi at the REF edges, 8 equal ones of which change it (R417). -/
def State.pgSamples (s : State) (i : Nat) (ls : List Bool) : State :=
  let (x, level) := (Tab.get {} s.pwr.pgIn i).after 7 (s.pgood i) ls
  { s with pwr := { s.pwr with pgIn := Tab.put {} s.pwr.pgIn i x } }.setB Reg.PWR_SEQ_STATUS (16 + i) level

/-- PGOODi is lost at some one of a list of samples. -/
def State.pgFalls (s : State) (i : Nat) (ls : List Bool) : Bool := (Tab.get {} s.pwr.pgIn i).falls 7 (s.pgood i) ls

/-- The samples of VIN_OK at the REF edges, the last of them this one: whether VIN_OK went low, and the state (R417). -/
def State.vinSamples (s : State) (ls : List (Bool × Nat)) : Bool × State :=
  let now := s.fb Reg.PWR_SEQ_STATUS 14
  let r := s.pwr.vinIn.changes 7 256 now (firstSample 256 s.now ls) ls
  let cs := r.2
  let since := match (cs.filter fun (c : Bool × Tick) => c.1).getLast? with
    | some c => some (c.2 + 7 * 256)
    | none => s.pwr.vinAt
  let level := match cs.getLast? with
    | some c => c.1
    | none => now
  (cs.any fun (c : Bool × Tick) => !c.1,
    { s with pwr := { s.pwr with vinIn := r.1, vinAt := since } }.setB Reg.PWR_SEQ_STATUS 14 level)

/-- The sequencer after a standby reset: WAIT, every enable and latch low, its fields at their reset values. -/
def State.standbyReset (s : State) : State :=
  let pins := s.f Reg.PWR_SEQ_STATUS 23 12
  let s := s.resetRegs Reg.PWR_SEQ_STATUS (Reg.PWR_VREQ_A) fun _ _ => false
  let s := (s.setF Reg.PWR_SEQ_STATUS 23 12 pins).setB Reg.PWR_SEQ_STATUS 13 false
  { s with pwr := { s.pwr with seqRail := 0, seqAt := s.now, seqGap := false, railLatch := false, thermLatch := false
                               porHeld := false, railEn := 0, vmonBad := [], standby := false, vinAt := some s.now } }

/-! ### Steps of the domains -/

/-- A step of domain d is ready. -/
def State.stepReady (s : State) (d : Nat) : State :=
  match s.stepAt d with
  | none => s
  | some _ =>
    let edge := s.now
    let st := s.dom d
    let s := if dUP_REG ≤ st && st ≤ dUP_LOGIC then s.upReady d st edge
      else if dDN_LOGIC ≤ st && st ≤ dDN_REG then s.downReady d st edge
      else s
    (s.domMoved edge).thermalFall

/-! ### ARCHIVE (R411–R413) -/

/-- A wake event that names a domain, at the REF edge of now (R379, R409, R412): in ARCHIVE one that names SUP goes to
BOOT through CRST. -/
def State.wakeEvent (s : State) (d : Nat) : State :=
  if s.pwr.shut then s
  else if s.mode == .archive && !s.trans && d = 2 then s.crst
  else { s with pwr := { s.pwr with reqs := s.pwr.reqs ++ [{ due := nextMultiple 256 s.now, kind := .wake d }] } }

/-! ### Voltage requests (R415, R416) -/

/-- A write to PWR_VREQ_B. -/
def State.vreqStart (s : State) (w : Word) : State :=
  if s.vreqPending then s.setB Reg.PWR_VREQ_STATUS 5 true
  else
    let s := (s.setReg Reg.PWR_VREQ_B w).setF Reg.PWR_VREQ_STATUS 4 0 1
    { s with pwr := { s.pwr with vreqGood := 0, vreqAt := s.now } }

end Sys2Proof.Machine
end

