-- ==== Sys2Proof/Machine/Background.lean ====
section
/-!
DEFINITION. The background services (R481–R487) and the memory controller's wipe and training (R473, R501), with the
commands of their rows.
-/

namespace Sys2Proof.Machine

/-- Raise an event of BKG, and set its status bit. -/
def State.bkgEvent (s : State) (e : Nat) : State := (s.setB Reg.BKG_IRQ_STATUS e true).raise srcBKG e

/-! ### The SRAM scrub (R482) -/

/-- The scrubber reads the word: a powered SRAM array, not the boot ROM and not the Ledger. -/
def State.scrubs (s : State) (a : Nat) : Bool :=
  a % 8 = 0 && match regionAt a 8 with
    | some r => r.base ≠ 0 && r.base ≠ ledgerBase && s.domOn r.dom
    | none => false

/-- BKG_STATUS.REPAIR_FREE: the repair rows that the Ledger's map does not assign. -/
def State.repairFree (s : State) : Nat := 2048 - s.ldg.repaired.length

/-- A row receives one of the repair rows; a row that has one keeps it. -/
def State.repairRow (s : State) (row : Nat) : State :=
  if s.ldg.repaired.contains row then s
  else
    if s.repairFree = 0 then s.bkgEvent 2
    else
      let n := s.ldg.repaired.length
      let s := { s with ldg := { s.ldg with repaired := s.ldg.repaired ++ [row] } }
      let s := s.ldgRecord 2 0x16 1 (bytesLE 4 (1024 * row) ++ bytesLE 2 n)
      s.bkgEvent 1

/-- A correctable error: counted, and the row repaired once LIMIT corrections fell in its last 16 passes. -/
def State.scrubCor (s : State) (a : Nat) : State :=
  let row := a / 1024
  let pass := (s.reg Reg.BKG_SRAM_PASSES).toNat
  let l := (pass :: Tab.get [] s.bkg.rows row).filter fun p => pass < p + 16
  let s := { s with bkg := { s.bkg with rows := Tab.put [] s.bkg.rows row l } }.incSat Reg.BKG_SRAM_CNT 15 0
  if s.f Reg.BKG_ROW 3 0 ≤ l.length then s.repairRow row else s

/-- An uncorrectable error: the word is left as it is. -/
def State.scrubUncor (s : State) (a : Nat) : State :=
  let s := { s with poison := if s.poison.contains a then s.poison else a :: s.poison }
  let s := (s.setReg Reg.BKG_UNCOR_ADDR (BitVec.ofNat 32 a)).incSat Reg.BKG_SRAM_CNT 31 16
  (s.bkgEvent 0).repairRow (a / 1024)

/-! ### Wear folds (R485) -/

/-- The address of an emitter's total in the WEAR region. -/
def wearAddr (st e : Nat) : Nat := unitAddr 6 0 + (48 * st + e) * 8

/-- The bases of a station are read at its first fold after its power-up. -/
def State.foldBases (s : State) (st : Nat) : State :=
  if s.bkg.based.contains st then s
  else
    let bases := (List.range 48).foldl (fun b e => Tab.put 0 b (48 * st + e) (s.memLE (wearAddr st e) 8)) s.bkg.bases
    { s with bkg := { s.bkg with bases := bases, based := s.bkg.based ++ [st] } }

/-- A fold of a station: base + EXP_ONTIME of each emitter as they stand now, 12 Ledger units of class 6 (R477, R481); a
read-only Ledger refuses the writes (R480). -/
def State.foldStation (s : State) (st : Nat) : State :=
  let s := s.foldBases st
  if s.fb Reg.LDG_STATUS 2 then s
  else
    let bs := (List.range 48).flatMap fun e =>
      bytesLE 8 (Tab.get 0 s.bkg.bases (48 * st + e) + s.pair (Reg.EXP_ONTIME_LO st e) (Reg.EXP_ONTIME_HI st e))
    s.ldgQueue { cls := 6, kind := foldKind st, units := 12, time := s.now, body := bs, base := some (12 * st) }

/-- The two stations of a VID domain fold. -/
def State.foldDomain (s : State) (d : Nat) : State := (s.foldStation (2 * (d - 7))).foldStation (2 * (d - 7) + 1)

/-- The fold before a power-down (R485): the domain goes on as LDG ends it, or at once where the Ledger takes no write. -/
def State.foldLast (s : State) (d : Nat) : State :=
  let s := s.foldDomain d
  if s.fb Reg.LDG_STATUS 2 then s.setStep d (some s.now)
  else { s with bkg := { s.bkg with lastFolds := s.bkg.lastFolds ++ [d] } }

/-- A VID domain waits in DN_LOGIC for its fold to begin. -/
def State.foldWaits (s : State) (d : Nat) : Bool :=
  s.dom d = dDN_LOGIC && (s.stepAt d).isNone && !s.bkg.lastFolds.contains d

/-! ### Telemetry (R486) -/

/-- The 64 bytes of a snapshot. -/
def State.telSnapshot (s : State) : List Byte :=
  s.msgHeader 2 s.now ++ bytesLE 4 (s.reg Reg.THM_TMAX).toNat ++
  bytesLE 1 (s.f Reg.THM_STATUS 2 0) ++
  bytesLE 1 (if s.fb Reg.THM_STATUS 5 then 2 else if s.fb Reg.THM_STATUS 4 then 1 else 0) ++
  bytesLE 1 s.mode.code ++ bytesLE 1 0 ++
  ((List.range 6).flatMap fun i => bytesLE 2 (s.f (Reg.SCN_RATIO i) 15 0)) ++
  bytesLE 4 (s.reg Reg.TT_CNT_DELIVER).toNat ++ bytesLE 4 (s.reg Reg.TT_CNT_SPOIL).toNat ++
  bytesLE 4 (s.reg Reg.SBX_HIST_CNT).toNat ++ bytesLE 4 (s.reg Reg.BKG_SRAM_CNT).toNat ++
  bytesLE 1 (s.f Reg.LDG_STATUS 15 8) ++ bytesLE 3 0

end Sys2Proof.Machine
end

