-- ==== Sys2Proof/Machine/Irq.lean ====
section
/-!
DEFINITION. The 64 interrupt lines of R125, as a function of State: each line is asserted while its source asserts it.
-/

namespace Sys2Proof.Machine

/-- The enabled status bits of a block: `n` enable bits at `lo` of `en`, over `n` status bits at 0 of `st`. -/
def State.irqOf (s : State) (en lo n st : Nat) : Bool :=
  (s.f en (lo + n - 1) lo) &&& (s.f st (n - 1) 0) != 0

/-- Line 0 (R387): a status bit whose source's REACT is not NONE, or bit 63. -/
def State.sbxLine (s : State) : Bool :=
  (List.range 64).any fun i =>
    s.fb (if i < 32 then Reg.SBX_STATUS_LO else Reg.SBX_STATUS_HI) (i % 32) &&
      (i == 63 || s.f (Reg.SBX_SRC_CFG i) 2 0 != 0)

/-- A Platforms queue directed to endpoint x is pending on a channel that interrupts x (R378). -/
def State.pltLine (s : State) (x : Nat) : Bool :=
  (List.range 64).any fun c =>
    s.fb (if c < 32 then Reg.PLT_ARR_LO x else Reg.PLT_ARR_HI x) (c % 32) &&
      ((s.f (Reg.PLT_CH_CFG c) 2 0 == x && s.fb (Reg.PLT_CH_CFG c) 8) ||
       (s.f (Reg.PLT_CH_CFG c) 6 4 == x && s.fb (Reg.PLT_CH_CFG c) 9))

/-- A hardware line n of R125, as supervisor core `core` sees it. Line 1 is asserted while RES_IRQ_EN is set and the result
ring is not empty (log entry 15). -/
def State.hwLine (s : State) (core n : Nat) : Bool :=
  match n with
  | 0 => s.sbxLine
  | 1 => s.fb Reg.TT_CTRL 0 && s.f Reg.TT_RESQ_HEAD 11 0 != s.f Reg.TT_RESQ_TAIL 11 0
  | 2 => s.fb Reg.TT_CTRL 1 && s.tt.thrChanged
  | 3 => s.irqOf Reg.SQ_IRQ_EN 0 4 Reg.SQ_IRQ_STATUS
  | 4 => s.irqOf Reg.DMA_IRQ_CQ_EN 0 32 Reg.DMA_IRQ_CQ
  | 5 => s.irqOf Reg.DMA_IRQ_ERR_EN 0 32 Reg.DMA_IRQ_ERR
  | 6 => s.pltLine core
  | 7 => s.irqOf Reg.PLT_CTRL 0 3 Reg.PLT_ERR
  | 8 => s.irqOf Reg.FX_CTRL 1 3 Reg.FX_IRQ_STATUS
  | 21 =>
    ((List.range 16).any fun c => s.fb Reg.FOC_IRQ_EN c && s.f (Reg.FOC_IRQ_STATUS c) 5 0 != 0) ||
    ((List.range 4).any fun b => s.fb Reg.FOC_IRQ_EN (16 + b) && s.fb (Reg.FOC_BUS_STATUS b) 3)
  | 22 =>
    ((List.range 32).any fun c => s.fb Reg.STP_IRQ_EN c && s.f (Reg.STP_IRQ_STATUS c) 7 0 != 0) ||
    ((List.range 8).any fun i => s.fb Reg.STP_IRQ_EN2 i && s.fb (Reg.STP_ENC_STATUS i) 0)
  | 23 => s.irqOf Reg.HV_CTRL 0 4 Reg.HV_IRQ_STATUS
  | 24 => s.irqOf Reg.FUS_CTRL 0 5 Reg.FUS_IRQ_STATUS
  | 25 => s.irqOf Reg.SNS_CTRL 0 2 Reg.SNS_IRQ_STATUS
  | 26 => s.irqOf Reg.LINE_CTRL 2 7 Reg.LINE_IRQ_STATUS
  | 27 => s.irqOf Reg.HST_CTRL 1 5 Reg.HST_IRQ_STATUS
  | 28 => s.irqOf Reg.SEC_CTRL 0 3 Reg.SEC_IRQ_STATUS
  | 29 => s.irqOf Reg.LDG_CTRL 0 5 Reg.LDG_IRQ_STATUS
  | 30 => s.irqOf Reg.BKG_CTRL 8 5 Reg.BKG_IRQ_STATUS
  | 31 => s.irqOf Reg.THM_CTRL 0 6 Reg.THM_IRQ_STATUS || s.irqOf Reg.PWR_CTRL 0 4 Reg.PWR_IRQ_STATUS
  | n =>
    if 9 ≤ n ∧ n ≤ 14 then s.irqOf (Reg.SCN_CTRL (n - 9)) 4 4 (Reg.SCN_IRQ_STATUS (n - 9))
    else if 15 ≤ n ∧ n ≤ 20 then
      s.irqOf (Reg.EXP_CTRL (n - 15)) 4 6 (Reg.EXP_IRQ_STATUS (n - 15)) ||
      s.irqOf (Reg.XLK_CTRL (n - 15)) 2 6 (Reg.XLK_IRQ_STATUS (n - 15))
    else false

/-- The pending lines of a supervisor core: hardware lines 0–33 and its software lines 48–63 (R125). -/
def State.pendingLine (s : State) (core n : Nat) : Bool :=
  if 48 ≤ n then (Tab.get {} s.gcores core).swi.testBit (n - 48) else n ≤ 33 && s.hwLine core n

/-- IPEND as a 64-bit number. -/
def State.ipend (s : State) (core : Nat) : Nat :=
  (List.range 64).foldl (fun m n => if s.pendingLine core n then m + 2 ^ n else m) 0

end Sys2Proof.Machine
end

