-- ==== Sys2Proof/Machine/Plt.lean ====
section
/-!
DEFINITION. The Platforms (R374–R381): channels, queues, accesses by an endpoint, arrivals and wake events; and the
commands of their rows.
-/

namespace Sys2Proof.Machine

/-- Record what an initiator's access got. -/
def State.setAcc (s : State) (ini : Nat) (r : AccResult) : State := { s with acc := Tab.put {} s.acc ini r }

/-- Endpoint codes of R374. -/
def eLINE : Nat := 3
def eNONE : Nat := 7

/-- The endpoint that an initiator's accesses come from (R374). -/
def endpointOf (ini : Nat) : Option Nat := if ini ≤ 1 then some ini else if ini = iHOST then some 2 else none

def State.pltCh (s : State) (c : Nat) : PltCh := Tab.get {} s.plt.ch c
def State.setPltCh (s : State) (c : Nat) (q : PltCh) : State :=
  { s with plt := { s.plt with ch := Tab.put {} s.plt.ch c q } }
def State.pltA (s : State) (c : Nat) : Nat := s.f (Reg.PLT_CH_CFG c) 2 0
def State.pltB (s : State) (c : Nat) : Nat := s.f (Reg.PLT_CH_CFG c) 6 4

/-- The channel is bound (R374). -/
def State.pltBound (s : State) (c : Nat) : Bool := s.pltA c ≤ 3 && s.pltB c ≤ 3 && s.pltA c != s.pltB c

/-- Words on their way into a queue. -/
def State.pltFlying (s : State) (c : Nat) (toB : Bool) : Nat :=
  (s.plt.fly.filter fun w => w.ch == c && w.toB == toB).length

/-- Words that a queue counts: those in it and those on their way (log entry 41). -/
def State.pltCount (s : State) (c : Nat) (toB : Bool) : Nat :=
  (if toB then (s.pltCh c).ab else (s.pltCh c).ba).length + s.pltFlying c toB

/-- PLT_STATUS as it reads. -/
def State.pltStatusView (s : State) (c : Nat) : Word :=
  BitVec.ofNat 32 (s.pltCount c true + 16 * s.pltCount c false + (if s.pltBound c then 256 else 0))

/-- The direction of an access by an endpoint as sender: into AB when it is A, into BA when it is B. -/
def State.pltSends (s : State) (e c : Nat) : Option Bool :=
  if s.pltA c = e then some true else if s.pltB c = e then some false else none

/-- The words directed to an endpoint. -/
def State.pltIncoming (s : State) (e c : Nat) : List (Word × Tick) :=
  if s.pltA c = e then (s.pltCh c).ba else (s.pltCh c).ab

/-- The words directed to an endpoint that a pop may remove: those not appended at this REF edge (R377). -/
def State.pltRipe (s : State) (e c : Nat) : List (Word × Tick) := (s.pltIncoming e c).filter fun w => w.2 ≠ s.now

/-- PLT_ARR follows the queues of a channel (R378). -/
def State.pltArr (s : State) (c : Nat) : State :=
  (List.range 3).foldl (fun s x =>
    let pend := (s.pltA c == x && !(s.pltCh c).ba.isEmpty) || (s.pltB c == x && !(s.pltCh c).ab.isEmpty)
    s.setB (if c < 32 then Reg.PLT_ARR_LO x else Reg.PLT_ARR_HI x) (c % 32) (s.pltBound c && pend)) s

/-- A refused access (R376): its status bit, the channel, and the event. -/
def State.pltRefuse (s : State) (c bit ev : Nat) : State :=
  ((s.setB Reg.PLT_ERR bit true).setF Reg.PLT_ERR 13 8 c).raise srcPLT ev

/-- The refusal of an access by an endpoint, or none: UNBOUND first, then NOT_OWNER. -/
def State.pltGuard (s : State) (e : Option Nat) (c : Nat) : Option (Nat × Nat) :=
  if !s.pltBound c then some (2, 0)
  else match e with
    | none => some (0, 0)
    | some e => if (s.pltSends e c).isNone then some (0, 0) else none

/-- A write to PLT_TX by an endpoint (R375–R377). -/
def State.pltTx (s : State) (e : Option Nat) (c : Nat) (w : Word) : State :=
  match s.pltGuard e c with
  | some (b, ev) => s.pltRefuse c b ev
  | none =>
    let toB := ((e.bind fun e => s.pltSends e c)).getD true
    if 8 ≤ s.pltCount c toB then s.pltRefuse c 1 1
    else
      let s := { s with plt := { s.plt with
        fly := s.plt.fly ++ [({ ch := c, toB := toB, word := w, due := (s.now / 256 + 2) * 256 } : PltFly)] } }
      if toB then s.incSat (Reg.PLT_CH_CNT c) 15 0 else s.incSat (Reg.PLT_CH_CNT c) 31 16

/-- The receiver pops up to `n` words, none of them appended at this REF edge (R377); where the sender is LINE, the words are accounted for and credited (R452). -/
def State.pltDrop (s : State) (e c n : Nat) : State :=
  let k := min n (s.pltRipe e c).length
  let q := s.pltCh c
  let s := (s.setPltCh c (if s.pltA c = e then { q with ba := q.ba.drop k } else { q with ab := q.ab.drop k })).pltArr c
  let fromLine := (if s.pltA c = e then s.pltB c else s.pltA c) = eLINE
  if fromLine && k ≠ 0 then
    let l := Tab.get {} s.line.links c
    let a := (l.accounted + k) % 256
    let s := { s with line := { s.line with links := Tab.put {} s.line.links c { l with accounted := a } } }
    s.sendUnicast ftCREDIT (s.f (Reg.LINE_PLT c) 9 0) (s.f (Reg.LINE_PLT c) 15 10 + 64 * a) 0
  else s

/-- A write of `n` to PLT_POP. -/
def State.pltPop (s : State) (e : Option Nat) (c n : Nat) : State :=
  match s.pltGuard e c with
  | some (b, ev) => s.pltRefuse c b ev
  | none => s.pltDrop (e.getD 0) c n

/-- A read of PLT_RX[i]: the value, and the refusal's record. -/
def State.pltRx (s : State) (e : Option Nat) (c i : Nat) : Word × State :=
  match s.pltGuard e c with
  | some (b, ev) => (0, s.pltRefuse c b ev)
  | none => (((s.pltIncoming (e.getD 0) c)[i]?.map (·.1)).getD 0, s)

/-- An endpoint code as it is stored. -/
def storedEndpoint (e : Nat) : Nat := if e ≤ 3 then e else eNONE

/-- A write to PLT_CH_CFG by a Sinel-G core (R374, R380). -/
def State.pltCfg (s : State) (c : Nat) (w : Word) : State :=
  let a := storedEndpoint (bits w 2 0)
  let b := storedEndpoint (bits w 6 4)
  let busy := s.pltCount c true + s.pltCount c false ≠ 0
  if busy && (a != s.pltA c || b != s.pltB c) then s.raise srcPLT 2
  else ((s.setReg (Reg.PLT_CH_CFG c) (BitVec.ofNat 32 (a + 16 * b + 256 * bits w 11 8))).pltArr c)

/-- A word enters its queue: line 6 follows, and a WAKE bit raises the wake event of its endpoint's domain (R377–R379). -/
def State.pltArrive (s : State) (w : PltFly) : State :=
  let c := w.ch
  let q := s.pltCh c
  let s := { s with plt := { s.plt with fly := s.plt.fly.erase w } }
  let s := (s.setPltCh c (if w.toB then { q with ab := q.ab ++ [(w.word, w.due)] }
    else { q with ba := q.ba ++ [(w.word, w.due)] })).pltArr c
  let wake := s.fb (Reg.PLT_CH_CFG c) (if w.toB then 11 else 10)
  match endpointDom (if w.toB then s.pltB c else s.pltA c) with
  | some d => if wake then s.wakeEvent d else s
  | none => s

end Sys2Proof.Machine
end

