-- ==== Sys2Proof/Machine/LineNet.lean ====
section
/-!
DEFINITION. The Line (R437–R453): ports, received frames, Line time, joins, signal points and mailboxes across devices;
and the commands of their rows.
-/

namespace Sys2Proof.Machine

def State.lineOn (s : State) : Bool := s.domOn 13
def State.syncInt (s : State) : Nat := (s.reg Reg.LINE_SYNC_INT).toNat

/-- Time states of LINE_STATUS.TIME. -/
def lFREE : Nat := 0
def lACQUIRE : Nat := 1
def lTLOCKED : Nat := 2
def lHOLDOVER : Nat := 3
def lMASTER : Nat := 4
def State.timeState (s : State) : Nat := s.f Reg.LINE_STATUS 8 6
def State.setTime (s : State) (n : Nat) : State := s.setF Reg.LINE_STATUS 8 6 n

/-- LINE counts as running (R453). -/
def State.lineRunning (s : State) : Bool := s.fb Reg.LINE_CTRL 0

/-! ### Ports (R439, R442) -/

/-- LINE_CTRL.EN is written. -/
def State.lineEnable (s : State) (en : Bool) : State :=
  let s := s.setB Reg.LINE_CTRL 0 en
  [0, 1].foldl (fun s p =>
    if en then (if s.portState p = pOFF then s.movePort p pTRAIN else s)
    else (s.setPort p (s.port p).cleared).movePort p pOFF) s

/-- JOIN is sent (R442): the first one fixes INCARN and precedes every other frame of this device's own. -/
def State.sendJoin (s : State) : State :=
  let first := s.line.incarn.isNone
  let inc := s.line.incarn.getD (s.clk.tb / 16 % 65536)
  let s := { s with line := { s.line with incarn := some inc } }
  let f : Frame := { type := ftJOIN, origin := s.lineId, p0 := inc, p1 := State.unitId }
  if first && s.lineOriginates then
    [0, 1].foldl (fun s p =>
      if s.portState p = pUP then
        let x := s.port p
        let q := match x.q with
          | [] => [[f]]
          | hi :: rest => (f :: hi) :: rest
        (s.setPort p { x with q := q, freeAt := max x.freeAt (nextMultiple 66 s.clk.tb)
                              preset := if x.freeAt ≤ s.clk.tb then s.bandAtMultiple 66 else x.preset }).drainPort p
      else s) s
  else s.originate f

/-- Note the CRC of a received frame. -/
def State.noteFrame (s : State) (p : Nat) (bad : Bool) : State :=
  s.setPort p { s.port p with recent := (bad :: (s.port p).recent).take 1024 }

/-! ### Carrying frames (R440) -/

def State.peer (s : State) (d : Nat) : Peer := Tab.get {} s.line.peers d
def State.setPeer (s : State) (d : Nat) (x : Peer) : State :=
  { s with line := { s.line with peers := Tab.put {} s.line.peers d x } }

/-- A sequence number is new against the last one held. -/
def seqNew (last : Option Nat) (seq : Nat) : Bool :=
  match last with
  | none => true
  | some l => let d := (seq + 65536 - l) % 65536; 1 ≤ d && d ≤ 32767

/-- Forward a frame out of the other port (step 4). -/
def State.forward (s : State) (p : Nat) (f : Frame) : State :=
  let o := 1 - p
  if s.portState o = pUP then
    (if f.hops + 1 ≤ 1023 then s.queueFrame o { f with hops := f.hops + 1 } else s)
  else s.incSat Reg.LINE_CNT_B 31 16

/-- A port takes frames. -/
def State.portTakes (s : State) (p : Nat) : Bool := s.lineOn && s.portState p = pUP

/-- A unicast frame (steps 1, 2 and 4): `deliver` applies it here. -/
def State.unicast (s : State) (p : Nat) (f : Frame) (deliver : State → State) : State :=
  if !s.portTakes p then s
  else
    let s := s.noteFrame p false
    if f.origin = s.lineId then s.incSat Reg.LINE_CNT_B 15 0
    else if f.dest = s.lineId then
      let x := s.peer f.origin
      if seqNew x.lastUni f.seq then deliver (s.setPeer f.origin { x with lastUni := some f.seq }) else s
    else s.forward p f

/-- A broadcast frame other than SYNC (steps 1, 3 and 4). -/
def State.broadcast (s : State) (p : Nat) (f : Frame) (deliver : State → State) : State :=
  if !s.portTakes p then s
  else
    let s := s.noteFrame p false
    if f.origin = s.lineId then s else (deliver s).forward p f

/-! ### Joins (R442) -/

/-- A receiver takes a JOIN. -/
def State.joined (s : State) (d inc : Nat) : State :=
  if (s.peer d).incarn = some inc then s
  else
    let s := s.setPeer d { incarn := some inc }
    let s := s.setB (Reg.SBX_ORIGIN d) 16 false
    { s with line := { s.line with links := s.line.links.filter fun l =>
        !(s.fb (Reg.LINE_PLT l.1) 16 && s.f (Reg.LINE_PLT l.1) 9 0 == d) } }

/-! ### Line time (R444–R447) -/

/-- Some timed action is armed, or some task slot runs (R28, R446). -/
def State.stepBlocked (s : State) : Bool :=
  (s.openSheets.any fun p => p.2.armed.any fun a => !a.executed) || s.sq.slots.any fun p => p.2.use != .off

/-- R in units of 2^−32, from the sum of e and the latest e. -/
def State.lineRate (s : State) (e : Int) : Int :=
  clampInt (-524288) 524288 (floorDiv (2 ^ 32 * (s.line.eSum + 4 * e)) (128 * s.syncInt))

def State.setRate (s : State) (r : Int) : State := s.setReg Reg.LINE_TIME_RATE (wordOfInt r)

/-- A SYNC is taken: the offset, the time state, and the step or the rate (R445–R447). -/
def State.takeSync (s : State) (p origin h : Nat) (e : Int) : State :=
  let s := s.setReg Reg.LINE_TIME_OFS (wordOfInt (clampInt (-(2 ^ 31)) (2 ^ 31 - 1) e))
  let s := s.setReg Reg.LINE_TIME_SRC (BitVec.ofNat 32 (origin + 65536 * min h 1023 + 2 ^ 26 * p))
  let s := { s with line := { s.line with lastSync := s.clk.tb } }
  let st := s.timeState
  let near := decide (-64 ≤ e) && decide (e ≤ 64)
  let n := if near then s.line.inRange + 1 else 0
  let s :=
    if st = lFREE || st = lHOLDOVER then
      { s.setTime lACQUIRE with line := { (s.setTime lACQUIRE).line with inRange := 0 } }
    else if st = lACQUIRE then
      let s := { s with line := { s.line with inRange := n } }
      if 4 ≤ n then (s.setTime lTLOCKED).setB Reg.LINE_IRQ_STATUS 5 true else s
    else if st = lTLOCKED && (decide (1024 < e) || decide (e < -1024)) then
      { (s.setTime lACQUIRE).lineEvent 1 with line := { s.line with inRange := 0 } }
    else s
  let s := if e < -(16 * 6400000) then s.lineEvent 6 else s
  let big := st = lACQUIRE && decide (1024 ≤ e)
  if big && !s.stepBlocked then
    let tb := s.clk.tb + 8 * (e / 128).toNat
    { s with clk := { s.clk with tb := tb }, line := { s.line with lastSync := tb } }
  else
    let s := if big then s.setB Reg.LINE_STATUS 9 true else s
    let s := { s with line := { s.line with eSum := s.line.eSum + e } }
    s.setRate (s.lineRate e)

/-- A SYNC copy is the one to take: none with a smaller h, or an equal one on port B, is recent (R445; log entry 42). -/
def State.syncWins (s : State) (p h : Nat) : Bool :=
  match (s.port (1 - p)).sync with
  | some (h', at') => s.clk.tb > at' + 2 * s.syncInt || h < h' || (h == h' && p == 1)
  | none => true

/-- LINE_CTRL.MASTER is written (R447, R453); a device that is no master any more is FREE (log entry 43). -/
def State.lineMaster (s : State) (on : Bool) : State :=
  if s.fb Reg.LINE_CTRL 1 = on then s
  else if s.lineRunning then s.raise srcLINE 5
  else
    let s := s.setB Reg.LINE_CTRL 1 on
    (if on then s.setTime lMASTER else s.setTime lFREE).setRate 0

/-! ### Signal points and faults (R449–R451) -/

/-- A PUBLISH updates the subscriptions of its point. -/
def State.applyPublish (s : State) (id : Nat) (v : Word) : State :=
  (List.range 256).foldl (fun s j =>
    if s.fb (Reg.LINE_SUB j) 31 && s.f (Reg.LINE_SUB j) 19 0 == id then
      (s.setReg (Reg.LINE_COPY j) v).setB (Reg.LINE_SUB j) 30 true
    else s) s

/-- A write to LINE_SUB (R450): the copy and FRESH are cleared. -/
def State.subWrite (s : State) (j : Nat) (w : Word) : State :=
  (s.setReg (Reg.LINE_SUB j) (putBits (putBits 0 19 0 (bits w 19 0)) 31 31 (bits w 31 31))).setReg (Reg.LINE_COPY j) 0

/-- Hand a FAULT to the Signal Box (R385, R451). -/
def State.handFault (s : State) (payload : Nat) : State :=
  { s with sbx := { s.sbx with remote := s.sbx.remote ++ [{ at' := s.clk.tb, payload := payload }] } }

/-! ### Mailboxes over the Line (R452) -/

def State.link (s : State) (c : Nat) : PltLink := Tab.get {} s.line.links c
def State.setLink (s : State) (c : Nat) (x : PltLink) : State :=
  { s with line := { s.line with links := Tab.put {} s.line.links c x } }

/-- Channel c is paired with device d. -/
def State.paired (s : State) (c d : Nat) : Bool := s.fb (Reg.LINE_PLT c) 16 && s.f (Reg.LINE_PLT c) 9 0 == d

/-- The credit that LINE holds for a channel (R452). -/
def PltLink.credit (l : PltLink) : Nat := 8 - (l.sent + 256 - l.credited) % 256

end Sys2Proof.Machine
end

