-- ==== Sys2Proof/Machine/SignalBox.lean ====
section
/-!
DEFINITION. The Signal Box (R383–R398): events taken at REF edges, reactions, block resets and shadows, the error pin,
the history queue, and faults over the Line; and the commands of its rows.
-/

namespace Sys2Proof.Machine

/-- A bit of a register pair that holds one bit for each of 64 sources. -/
def State.bit64 (s : State) (lo hi i : Nat) : Bool := s.fb (if i < 32 then lo else hi) (i % 32)
def State.setBit64 (s : State) (lo hi i : Nat) (b : Bool) : State := s.setB (if i < 32 then lo else hi) (i % 32) b

/-- A source is in the fault state (R387). -/
def State.sbxActive (s : State) (src : Nat) : Bool := s.bit64 Reg.SBX_ACTIVE_LO Reg.SBX_ACTIVE_HI src
/-- A source's block is in reset or in its shadow (R390). -/
def State.sbxInRst (s : State) (src : Nat) : Bool := s.bit64 Reg.SBX_RST_LO Reg.SBX_RST_HI src
/-- Source y is a dependent of source x's block (R386). -/
def State.sbxDepends (s : State) (x y : Nat) : Bool :=
  x == y || s.bit64 (Reg.SBX_SRC_DEP_LO x) (Reg.SBX_SRC_DEP_HI x) y

/-- The REF edge at which an event is taken (R385). -/
def Raised.due (e : Raised) : Tick := (e.ts / 256 + 2) * 256

/-- The REF edge of a command of the Signal Box. -/
def State.refEdge (s : State) : Tick := s.now / 256 * 256

/-! ### Reactions -/

/-- ERR_N follows its sources; it is released no sooner than 6,400 ticks after it fell (R392). -/
def State.errPin (s : State) : State :=
  let want := s.fb Reg.SBX_CTRL 2 || (List.range 64).any fun i => s.sbxActive i && s.fb (Reg.SBX_SRC_CFG i) 3
  if want then
    if s.sbx.errLow then s else { s with sbx := { s.sbx with errLow := true, errAt := s.now } }
  else if s.sbx.errLow && s.sbx.errAt + 6400 ≤ s.now then { s with sbx := { s.sbx with errLow := false } }
  else s

/-- A core is running (R388). -/
def State.gcoreRuns (s : State) (n : Nat) : Bool := (Tab.get {} s.gcores n).running && s.domOn 2

/-- NMI service ends once every core it was delivered to has returned from it or halted (step 1 of R385). -/
def State.nmiSettle (s : State) : State :=
  let cs := s.sbx.nmi.filter fun n =>
    let g := Tab.get {} s.gcores n
    s.gcoreRuns n && (g.nmi || g.nmiService)
  { s with sbx := { s.sbx with nmi := cs } }.setB Reg.SBX_NMI 7 (!cs.isEmpty)

/-- Step 1 of R385: NMI service that is over ends, and shadows that have expired. -/
def State.sbxStep1 (s : State) : State :=
  (List.range 64).foldl (fun s i => match Tab.get none s.sbx.rst i with
    | some { shadow := some e, .. } =>
      if e ≤ s.refEdge then s.setBit64 Reg.SBX_RST_LO Reg.SBX_RST_HI i false else s
    | _ => s) s.nmiSettle

/-- Step 2 of R385 is not over: a local event or request is still to be taken. -/
def State.localDue (s : State) : Bool := s.sbx.raised.any fun e => e.due ≤ s.now

/-- The REF edge at which a message from the Line is taken (R385). -/
def RemoteFault.due (m : RemoteFault) : Tick := nextMultiple 256 m.at'

/-- Step 3 of R385 is not over. -/
def State.remoteDue (s : State) : Bool := s.sbx.remote.any fun m => m.due ≤ s.now

/-- The running cores named in NMI_CORE. -/
def State.nmiCores (s : State) : List Nat :=
  [0, 1].filter fun n => s.fb Reg.SBX_CTRL n && s.gcoreRuns n

/-- Deliver an NMI (R391). -/
def State.deliverNmi (s : State) (src : Nat) : State :=
  let cs := s.nmiCores
  let s := cs.foldl (fun s n =>
    { s with gcores := Tab.put {} s.gcores n { Tab.get {} s.gcores n with nmi := true } }) s
  ({ s with sbx := { s.sbx with nmi := cs } }.setF Reg.SBX_NMI 5 0 src).setB Reg.SBX_NMI 7 true

/-- A chip reset begins: its mark, and its cause (R391). -/
def State.chipReset (s : State) (src ev : Nat) (nested : Bool) : State :=
  let s := { s with sbx := { s.sbx with chip := true } }.resetMark 0x0E
  s.setReg Reg.SBX_CRST_CAUSE (BitVec.ofNat 32 (src + 64 * ev + 1024 + (if nested then 2048 else 0)))

/-- A block reset begins at the REF edge (R390). -/
def State.sbxBrst (s : State) (src : Nat) : State :=
  let e := s.refEdge
  let past := match Tab.get none s.sbx.rst src with
    | some r => ((r.start, r.shadow.getD e) :: r.past).filter fun w => e < w.2 + 512
    | none => []
  let s := { s with sbx := { s.sbx with rst := Tab.put none s.sbx.rst src (some { start := e, past := past }) } }
  (s.setBit64 Reg.SBX_RST_LO Reg.SBX_RST_HI src true).brst src

/-- What R388 decides for an event: the state, the reaction taken, and the flags REPEAT and ESCALATED. -/
structure Reaction where
  s : State
  taken : Nat := 0
  repeat' : Bool := false
  escalated : Bool := false
  merged : Bool := false

/-- The rows of R388 for a local event whose source was (or was not) in the fault state before it. -/
def State.react (s : State) (src ev act : Nat) (rep : Bool) : Reaction :=
  if s.sbx.chip then { s := s }
  else if act = 4 then { s := s.chipReset src ev false, taken := 4 }
  else if act = 2 && (!s.sbx.nmi.isEmpty || s.nmiCores.isEmpty) then
    { s := s.chipReset src ev true, taken := 4, escalated := true }
  else if rep then { s := s, repeat' := true }
  else if act = 2 then { s := s.deliverNmi src, taken := 2 }
  else if act = 3 then
    (if s.sbxInRst src then { s := s } else { s := s.sbxBrst src, taken := 3 })
  else { s := s, taken := act }

/-- The rows of R388 as R397 applies them to a remote fault. -/
def State.reactRemote (s : State) (ev act : Nat) : Reaction :=
  if s.sbx.chip then { s := s }
  else if act = 2 then
    if !s.sbx.nmi.isEmpty then { s := s.incSat Reg.SBX_NMI 31 16, merged := true }
    else if s.nmiCores.isEmpty then { s := s.chipReset 63 ev true, taken := 4, escalated := true }
    else { s := s.deliverNmi 63, taken := 2 }
  else { s := s, taken := act }

/-! ### Recording -/

/-- Write a history entry (R393). -/
def State.histWrite (s : State) (ts info org : Nat) : State :=
  let h := s.f Reg.SBX_HIST_HEAD 4 0
  let s := (s.setReg (Reg.SBX_HIST_W0 h) (BitVec.ofNat 32 ts)).setReg (Reg.SBX_HIST_W1 h) (BitVec.ofNat 32 (ts / 2 ^ 32))
  let s := (s.setReg (Reg.SBX_HIST_W2 h) (BitVec.ofNat 32 info)).setReg (Reg.SBX_HIST_W3 h) (BitVec.ofNat 32 org)
  (s.setF Reg.SBX_HIST_HEAD 4 0 (h + 1)).incSat Reg.SBX_HIST_CNT 31 0

/-- Word 2 of a history entry. -/
def histInfo (src ev taken : Nat) (pin conseq rep remote esc merged : Bool) : Nat :=
  let b (x : Bool) (i : Nat) : Nat := if x then 2 ^ i else 0
  src + 64 * ev + 1024 * taken + b pin 13 + b conseq 14 + b rep 15 + b remote 16 + b esc 17 + b merged 18

/-- A source enters the fault state, or stays in it (R387, R389). -/
def State.sbxEnter (s : State) (src : Nat) (ts : Tick) : State :=
  let s := (s.setBit64 Reg.SBX_STATUS_LO Reg.SBX_STATUS_HI src true).setBit64 Reg.SBX_ACTIVE_LO Reg.SBX_ACTIVE_HI src true
  ({ s with sbx := { s.sbx with last := Tab.put 0 s.sbx.last src ts } }.incSat (Reg.SBX_SRC_CNT src) 11 0)

/-! ### Emission over the Line (R394, R395) -/

/-- Emit a message for a source, or count it lost. -/
def State.emitFault (s : State) (src ev : Nat) (merged : Bool) : State :=
  let seq := s.f Reg.SBX_LINE_SEQ 15 0
  let p := s.lineId + 2 ^ 10 * src + 2 ^ 16 * ev + 2 ^ 20 * seq + (if merged then 2 ^ 36 else 0)
  let s := s.setF Reg.SBX_LINE_SEQ 15 0 (seq + 1)
  let s := { s with sbx := { s.sbx with sent := Tab.put none s.sbx.sent src (some s.refEdge) } }
  if s.domOn 13 then s.originate { type := ftFAULT, origin := 0, seq := seq, p0 := p }
  else s.incSat Reg.SBX_LINE_CNT_B 31 16

/-- A recorded local event of a source with EMIT set goes out, or is held. -/
def State.sbxEmit (s : State) (src ev : Nat) : State :=
  if s.fb (Reg.SBX_SRC_CFG src) 4 && s.fb Reg.SBX_LINE_CFG 0 && src != 63 then
    match Tab.get none s.sbx.sent src with
    | some t0 =>
      if s.refEdge < t0 + 64000 || (Tab.get none s.sbx.held src).isSome then
        { s with sbx := { s.sbx with held := Tab.put none s.sbx.held src (some ev)
                                     heldN := Tab.put 0 s.sbx.heldN src (Tab.get 0 s.sbx.heldN src + 1) } }
      else s.emitFault src ev false
    | none => s.emitFault src ev false
  else s

/-! ### Events (R384–R388) -/

/-- Event e of the list comes before event f at one edge (R385, R390): by timestamp, then source, a request last. -/
def Raised.before (e f : Raised) : Bool :=
  e.ts < f.ts || (e.ts == f.ts && (e.src < f.src || (e.src == f.src && !e.brst && f.brst)))

/-- The event taken next. -/
def firstRaised : List Raised → Option Raised
  | [] => none
  | e :: es => match firstRaised es with
    | none => some e
    | some f => if f.before e then some f else some e

/-- An event is consequential (R386). -/
def State.consequential (s : State) (e : Raised) : Bool :=
  (List.range 64).any fun x => s.sbxDepends x e.src && match Tab.get none s.sbx.rst x with
    | none => false
    | some r => (r.start ≤ e.ts && (match r.shadow with | none => true | some t => e.ts < t)) ||
        r.past.any fun w => w.1 ≤ e.ts && e.ts < w.2

/-- A request of SBX_BRST_REQ is taken, or refused (R390). -/
def State.takeBrstReq (s : State) (src : Nat) : State :=
  if !hasBlock src || s.sbxInRst src then s.setB Reg.SBX_ERR 0 true else s.sbxBrst src

/-- A local event is taken. -/
def State.takeEvent (s : State) (e : Raised) : State :=
  if e.brst then s.takeBrstReq e.src
  else if !s.fb (Reg.SBX_SRC_CFG e.src) (16 + e.ev) then s.incSat (Reg.SBX_SRC_CNT e.src) 31 24
  else if s.consequential e then
    (s.histWrite e.ts (histInfo e.src e.ev 0 false true false false false false) s.lineId).incSat
      (Reg.SBX_SRC_CNT e.src) 23 12
  else
    let rep := s.sbxActive e.src
    let r := (s.sbxEnter e.src e.ts).react e.src e.ev (s.f (Reg.SBX_SRC_CFG e.src) 2 0) rep
    let s := r.s.histWrite e.ts (histInfo e.src e.ev r.taken (s.fb (Reg.SBX_SRC_CFG e.src) 3) false r.repeat' false
      r.escalated false) s.lineId
    (s.sbxEmit e.src e.ev).errPin

/-! ### Block resets (R390) -/

/-- A write to SBX_BRST_REQ (R390). -/
def State.brstRequest (s : State) (w : Word) : State :=
  { s with sbx := { s.sbx with raised := s.sbx.raised ++ [{ src := bits w 5 0, ev := 0, ts := s.now, brst := true }] } }

/-! ### The fault state and the pin (R389, R392) -/

/-- A source leaves the fault state. -/
def State.sbxExit (s : State) (src : Nat) : State :=
  ((s.setBit64 Reg.SBX_ACTIVE_LO Reg.SBX_ACTIVE_HI src false).incSat (Reg.SBX_SRC_QUIET src) 31 16).errPin

/-- A write to SBX_ACTIVE_LO or SBX_ACTIVE_HI (R389); a source that became active in this same CORE cycle stays so
(R14). -/
def State.activeWrite (s : State) (hi : Bool) (w : Word) : State :=
  (List.range 32).foldl (fun s i =>
    let src := (if hi then 32 else 0) + i
    let new := (s.setHere (if hi then Reg.SBX_ACTIVE_HI else Reg.SBX_ACTIVE_LO)).getLsbD i
    if bits w i i = 1 && s.sbxActive src && !new then s.sbxExit src else s) s

/-! ### History (R393) -/

/-- A read of SBX_HIST_W0[i] by a port: the word, and words 1–3 latched. -/
def State.histRead (s : State) (port i : Nat) : Word × State :=
  let ws := [s.reg (Reg.SBX_HIST_W1 i), s.reg (Reg.SBX_HIST_W2 i), s.reg (Reg.SBX_HIST_W3 i)]
  (s.reg (Reg.SBX_HIST_W0 i), { s with sbx := { s.sbx with hold := Tab.put [] s.sbx.hold port ws } })

/-! ### Remote faults (R396, R397) -/

/-- The message taken next: by arrival, then by origin. -/
def firstRemote : List RemoteFault → Option RemoteFault
  | [] => none
  | e :: es => match firstRemote es with
    | none => some e
    | some f =>
      if f.at' < e.at' || (f.at' == e.at' && nbits f.payload 9 0 < nbits e.payload 9 0) then some f else some e

/-- A new message is recorded for source 63 (R397). -/
def State.remoteNew (s : State) (at' : Tick) (p : Nat) : State :=
  let src := nbits p 15 10
  let ev := nbits p 19 16
  let s := (s.incSat Reg.SBX_LINE_CNT_A 15 0).sbxEnter 63 at'
  let r := s.reactRemote ev (s.f (Reg.SBX_SRC_CFG src) 7 5)
  (r.s.histWrite at' (histInfo src ev r.taken (s.fb (Reg.SBX_SRC_CFG 63) 3) false false true r.escalated
    (r.merged || p.testBit 36)) (nbits p 9 0 + 2 ^ 16 * nbits p 35 20)).errPin

/-- A message is taken (R396). -/
def State.takeRemote (s : State) (m : RemoteFault) : State :=
  let o := nbits m.payload 9 0
  let seq := nbits m.payload 35 20
  let e := Reg.SBX_ORIGIN o
  if !s.fb Reg.SBX_LINE_CFG 1 then s
  else if o = s.lineId then s.incSat Reg.SBX_LINE_CNT_A 31 16
  else if seqNew (if s.fb e 16 then some (s.f e 15 0) else none) seq then
    (s.setReg e (BitVec.ofNat 32 (seq + 65536))).remoteNew m.at' m.payload
  else s.incSat Reg.SBX_LINE_CNT_A 31 16

/-- A write to SBX_ORIGIN[d] (R396). -/
def State.originWrite (s : State) (d : Nat) (w : Word) : State :=
  if bits w 16 16 = 0 then s.setB (Reg.SBX_ORIGIN d) 16 false else s

/-- A write to SBX_SRC_CFG[i] (R387, R394, R397): what is stored. -/
def State.srcCfgWrite (s : State) (i : Nat) (w : Word) : State :=
  let lim (n top : Nat) : Nat := if 5 ≤ n then 1 else if n ≤ top then n else 2
  let act := if i = 63 then 0 else if bits w 2 0 = 3 && !hasBlock i then 2 else lim (bits w 2 0) 4
  let w := putBits w 2 0 act
  let w := putBits w 7 5 (lim (bits w 7 5) 2)
  let w := if i = 63 then putBits w 4 4 0 else w
  (s.setReg (Reg.SBX_SRC_CFG i) (putBits w 15 8 0)).errPin

end Sys2Proof.Machine
end

