-- ==== Sys2Proof/Machine/Bus.lean ====
section
/-!
DEFINITION. The register space (R10–R16, R34, R35): reads and writes of registers by initiators, field by field, with
each block's locks, the registers whose writes act, and the command of the row for a write without a row of its own.
-/

namespace Sys2Proof.Machine

/-! ### Blocks and domains (R34, R35) -/

/-- The power domain of the register at `a`; a window part of SCN, EXP or XLK beyond the stations belongs to none. -/
def regDomain (a : Nat) : Nat :=
  match blockAt a with
  | some .sys => 0 | some .clk => 0 | some .pwr => 0 | some .thm => 0 | some .sbx => 0 | some .plt => 0
  | some .tt => 2 | some .sq => 2 | some .jct => 2 | some .dma => 2 | some .sec => 2 | some .bkg => 2
  | some .fx => 10
  | some .scn => stationDom a | some .exp => stationDom a | some .xlk => stationDom a
  | some .foc => 14 | some .stp => 14 | some .hv => 14 | some .fus => 14 | some .sns => 14
  | some .line => 13 | some .hst => 12 | some .ldg => 1 | some .mem => 11 | some .svc => 15
  | none => 0
where
  stationDom (a : Nat) : Nat := if a / 0x10000 % 16 < 6 then 7 + a / 0x20000 % 8 else 0

/-- An access to the register space that R12 and R35 let through. -/
def State.regOn (s : State) (a : Nat) : Bool := (blockAt a).isSome && s.domOn (regDomain a)

/-! ### Fields -/

/-- What a write of `v` to a field stores (R13, and the field's Meaning). -/
def Fix.apply (x : Fix) (v : Nat) : Nat :=
  match x with
  | .none => v
  | .range lo hi other => if lo ≤ v ∧ v ≤ hi then v else other
  | .atLeast n => max n v
  | .atMost n => min n v
  | .clamp lo hi => clampNat lo hi v
  | .subst a other => if v = a then other else v
  | .mult m lo hi other => if v % m = 0 ∧ lo ≤ v ∧ v ≤ hi then v else other
  | .special => v

/-- The bits of a field after a write of the whole word `w` over `old` (R13). -/
def Fld.write (f : Fld) (old w : Word) : Nat :=
  let o := bits old (f.lsb + f.width - 1) f.lsb
  let v := bits w (f.lsb + f.width - 1) f.lsb
  match f.acc with
  | .rw => f.fix.apply v
  | .ro => o
  | .w1c => o - (o &&& v)
  | .w1s => o ||| v
  | .wo => o

/-- The word of a register after a write of `w` over `old`. -/
def RegDesc.write (d : RegDesc) (old w : Word) : Word :=
  d.fields.foldl (fun r f => putBits r (f.lsb + f.width - 1) f.lsb (f.write old w)) 0

/-- The write would change a class L field (R15). -/
def RegDesc.changesL (d : RegDesc) (old new : Word) : Bool :=
  d.fields.any fun f => f.cls == .l &&
    bits old (f.lsb + f.width - 1) f.lsb != bits new (f.lsb + f.width - 1) f.lsb

def RegDesc.hasS (d : RegDesc) : Bool := d.fields.any fun f => f.cls == .s

/-! ### What the word of a write becomes before it is stored -/

/-- The fields whose stored value depends on other state. -/
def State.fixWord (s : State) (d : RegDesc) (i j : Nat) (w : Word) : Word :=
  let b := d.base
  if b = Reg.SCN_BOUND 0 then putBits w 25 16 (max (bits w 25 16) (max (bits w 7 0) (bits w 15 8)))
  else if b = Reg.EXP_ESTATE 0 0 then
    let bar := bits w 4 3
    if bar = 3 || bar < s.f (Reg.EXP_ESTATE i j) 4 3 then putBits w 4 3 (s.f (Reg.EXP_ESTATE i j) 4 3) else w
  else if b = Reg.FOC_PWM_PHASE 0 then
    if s.f (Reg.FOC_PWM i) 20 0 ≤ bits w 20 0 then putBits w 20 0 0 else w
  else if b = Reg.FOC_CATCH 0 then
    let o := s.reg (Reg.FOC_OBS i)
    putBits w 23 0 (max (bits w 23 0) (min (ceilDiv (bits o 23 0 * (256 + bits o 31 24)) 256) (2 ^ 24 - 1)))
  else if b = Reg.STP_VCMD 0 then speedWord w
  else if b = Reg.STP_LA_MIN 0 then putBits w 23 0 (min (bits w 23 0) 4000000)
  else if b = Reg.STP_CUR 0 then putBits w 31 16 (max (bits w 31 16) (bits w 15 0))
  else if b = Reg.STP_STEP 0 then
    putBits (putBits w 7 0 (max 10 (bits w 7 0))) 15 8 (max 2 (bits w 15 8))
  else if b = Reg.STP_CNT 0 then if 16 ≤ i then putBits w 7 0 0 else w
  else if b = Reg.SEC_CORE1_ENTRY then putBits w 1 0 0
  else if b = Reg.FUS_GATE then putBits w 15 0 (max (bits w 15 0) (min (s.f Reg.FUS_ZC 15 0 + 2) 65535))
  else if b = Reg.HST_HWIN_CFG 0 then
    let n := bits w 5 0
    if n = 0 || (12 ≤ n && n ≤ 48) then w else putBits w 5 0 0
  else if b = Reg.HST_MSIX_SRC 0 then
    let n := bits w 5 0
    if n ≤ 33 || n = 0x30 || n = 0x38 then w else putBits w 5 0 0x3F
  else w

/-- A register that its unit lacks (R301; HV units 24–27 and 0–23): it reads zero and ignores writes. -/
def regAbsent (d : RegDesc) (i : Nat) : Bool :=
  let b := d.base
  (b == Reg.STP_STEP 0 && i < 16) ||
  ((b == Reg.STP_ISCALE 0 || b == Reg.STP_CUR_GAIN 0 || b == Reg.STP_CUR 0 || b == Reg.STP_CUR2 0 || b == Reg.STP_LA 0 ||
    b == Reg.STP_STALL 0 || b == Reg.STP_LA_MIN 0 || b == Reg.STP_LA_MEAS 0) && 16 ≤ i) ||
  ((b == Reg.HV_WIN 0 || b == Reg.HV_SGAIN 0 || b == Reg.HV_SENSE 0) && 24 ≤ i) ||
  (b == Reg.HV_AC_INC 0 && i < 24)

/-! ### Locks (R15) -/

/-- READY or later, for PWR_ENGINE (R427). -/
def State.engineMode (s : State) : Bool := 3 ≤ s.mode.code

/-- The part of a block that a register belongs to runs, by its block's own rule. -/
def State.regLocked (s : State) (a : Nat) (d : RegDesc) (i j : Nat) : Bool :=
  match blockAt a with
  | some .sys => s.fb Reg.SYS_PROFILE 1
  | some .pwr => s.engineMode
  | some .thm => s.fb Reg.SYS_PROFILE 1
  | some .tt => s.sheetsInUse != 0 || s.tt.check.isSome
  | some .sq => decide ((s.slot (8 * i + j)).use ≠ .off)
  | some .dma => s.dmaRunning i
  | some .fx => s.fxRunning
  | some .scn => s.scnState i != 0
  | some .exp => s.expRunning i
  | some .xlk => s.xlkRunning i
  | some .foc =>
    if d.base = Reg.FOC_GCFG then (List.range 16).any s.focRunning
    else if d.base < Reg.FOC_CFG 0 then s.focBusRunning i
    else s.focRunning i
  | some .stp =>
    if d.base = Reg.STP_GCFG || d.base = Reg.STP_GCFG2 then (List.range 16).any s.stpRunning
    else if d.base < Reg.STP_CFG 0 then s.encRunning i
    else s.stpRunning i
  | some .hv => if d.base = Reg.HV_SAFE_CFG then s.hvAnyRunning else s.hvRunning i
  | some .fus => if d.base < Reg.FUS_ZCFG 0 then s.fusAnyRunning else s.fusRunning i
  | some .sns => s.snsRunning i
  | some .line => s.lineRunning
  | some .hst => s.fb Reg.HST_CTRL 0
  | some .bkg =>
    if d.base = Reg.BKG_PERIODS then s.fb Reg.BKG_CTRL 4
    else if d.base = Reg.BKG_DRAM_PASS then s.fb Reg.BKG_CTRL 1
    else s.fb Reg.BKG_CTRL 0
  | _ => false

/-- CFG_BUSY at the Signal Box source of a block (R15, R383). -/
def State.cfgBusy (s : State) (a i : Nat) : State :=
  match blockAt a with
  | some .sys => s.raise srcSYS 0
  | some .pwr => s.raise srcPWR 4
  | some .thm => s.raise srcTHM 5
  | some .tt => s.raise srcTT 0
  | some .sq => s.raise srcSQ 2
  | some .dma => s.raise srcDMA 2
  | some .plt => s.raise srcPLT 2
  | some .fx => s.raise srcFX 3
  | some .scn => s.raise (srcSCN i) 3
  | some .exp => s.raise (srcEXP i) 7
  | some .xlk => s.raise (srcEXP i) 7
  | some .foc => s.raise srcFOC 6
  | some .stp => s.raise srcSTP 5
  | some .hv => s.raise srcHV 2
  | some .fus => s.raise srcFUS 4
  | some .sns => s.raise srcSNS 2
  | some .line => s.raise srcLINE 5
  | some .hst => s.raise srcHST 4
  | some .sec => s.raise srcSEC 1
  | some .bkg => s.raise srcBKG 4
  | _ => s

/-- SEC_GATE_* and FUS_OT accept writes only in boot stages 0 and 1, before the first entry to READY (R351, R467). -/
def State.gateOpen (s : State) : Bool := s.stage ≤ 1 && !s.fb Reg.SEC_BOOT 2

/-! ### Storing by field class -/

/-- The word of a register after a write of `w` (R13); a W1C bit that hardware has set in this same CORE cycle stays
set (R14). -/
def State.written (s : State) (a : Nat) (d : RegDesc) (w : Word) : Word :=
  d.write (s.reg a) w ||| (s.reg a &&& s.setHere a &&& d.maskOf fun f => f.acc == .w1c)

/-- A write by field class (R13–R16): refused whole where it would change a locked field. -/
def State.storeReg (s : State) (a : Nat) (d : RegDesc) (i j : Nat) (w : Word) : State :=
  let old := s.reg a
  let new := s.written a d (s.fixWord d i j w)
  if d.changesL old new && s.regLocked a d i j then s.cfgBusy a i
  else if d.hasS then s.hold a new
  else s.setReg a new

/-- The write is refused under R15. -/
def State.refusesL (s : State) (a : Nat) (d : RegDesc) (i j : Nat) (w : Word) : Bool :=
  d.changesL (s.reg a) (s.written a d (s.fixWord d i j w)) && s.regLocked a d i j

/-! ### Cores (R146–R148) -/

/-- The physical core's group is to be on while the mode keeps the engine set on (R41, R147). -/
def State.wantSeq (s : State) (p : Nat) : State :=
  if 3 ≤ s.mode.code && !s.domOn (3 + p / 6) then s.pwrPush (.on (3 + p / 6)) else s

/-- SQ_STATUS as it reads: ASSIGNED counts the logical cores that the map binds (R146). -/
def State.sqStatusView (s : State) (v : Word) : Word :=
  putBits v 4 0 ((List.range 20).filter fun l => (s.physOf l).isSome).length

/-- Bind logical core l to physical core p, which is released (R147). -/
def State.bindCore (s : State) (l p : Nat) : State :=
  let s := s.setReg (Reg.SQ_CORE_MAP l) (BitVec.ofNat 32 (p + 128))
  { s with sq := { s.sq with halted := s.sq.halted.filter fun x => x ≠ p } }.wantSeq p

/-- A write to SQ_CORE_MAP[l] (R146, R147). -/
def State.coreMapWrite (s : State) (l : Nat) (w : Word) : State :=
  let p := bits w 4 0
  let valid := bits w 7 7 = 1
  let active := (List.range 8).any fun n => decide ((s.slot (8 * l + n)).use ≠ .off)
  let same := s.f (Reg.SQ_CORE_MAP l) 4 0 = p && s.f (Reg.SQ_CORE_MAP l) 7 7 = bits w 7 7
  if active && !same then s.raise srcSQ 2
  else if valid then
    let taken := match s.logicalOf p with
      | some x => x != l
      | none => false
    if 24 ≤ p || taken || (s.reg Reg.SQ_CORE_FAIL).getLsbD p then s.raise srcSQ 2 else s.bindCore l p
  else s.setReg (Reg.SQ_CORE_MAP l) (BitVec.ofNat 32 p)

/-! ### Writes that act -/

/-- Bits set in a command register, each with its action, lowest first. -/
def State.onBits (s : State) (w : Word) (acts : List (Nat × (State → State))) : State :=
  acts.foldl (fun s p => if bits w p.1 p.1 = 1 then p.2 s else s) s

/-- A write to DMA_CH_CFG: the class L fields, then EN (R371). -/
def State.dmaCfgWrite (s : State) (a : Nat) (d : RegDesc) (c : Nat) (w : Word) : State :=
  if s.refusesL a d c 0 w then s.cfgBusy a c
  else
    let en := s.fb a 0
    let s := (s.setReg a (d.write (s.reg a) w)).setB a 0 en
    if (bits w 0 0 = 1) ≠ en then s.dmaSetEn c (bits w 0 0 = 1) else s

/-- A write to a control register with an enable at bit 0 that acts: the other fields first. -/
def State.enableWrite (s : State) (a : Nat) (d : RegDesc) (i : Nat) (w : Word) (act : State → Bool → State) : State :=
  if s.refusesL a d i 0 w then s.cfgBusy a i
  else
    let en := s.fb a 0
    let s := (s.setReg a (d.write (s.reg a) w)).setB a 0 en
    if (bits w 0 0 = 1) ≠ en then act s (bits w 0 0 = 1) else s

/-- A write to SQ_SLOT_ENTRY or SQ_SLOT_FRAME: VALID is formed (R132). -/
def State.slotFieldWrite (s : State) (a : Nat) (d : RegDesc) (i j : Nat) (w : Word) : State :=
  if s.refusesL a d i j w then s.cfgBusy a i
  else if d.base = Reg.SQ_SLOT_ENTRY 0 0 then
    let e := bits w 15 0
    s.setReg a (BitVec.ofNat 32 (e + (if e % 4 = 0 then 2 ^ 16 else 0)))
  else
    let f := bits w 17 0
    s.setReg a (BitVec.ofNat 32 (f + (if f % 128 = 0 ∧ 0x10000 ≤ f ∧ f ≤ 0x3FF80 then 2 ^ 18 else 0)))

/-- A write to BKG_CTRL: a service that is enabled begins its pass anew (R488), and with WEAR_EN 0 a power-down waits for
no fold that has not begun (log entry 58). -/
def State.bkgCtrlWrite (s : State) (d : RegDesc) (w : Word) : State :=
  let on := bits w 0 0 = 1 && !s.fb Reg.BKG_CTRL 0
  let s := s.setReg Reg.BKG_CTRL (d.write (s.reg Reg.BKG_CTRL) w)
  let s := if on then { s with bkg := { s.bkg with passAt := s.now, late := false } } else s
  if s.fb Reg.BKG_CTRL 4 then s
  else [7, 8, 9].foldl (fun s d => if s.foldWaits d then s.setStep d (some s.now) else s) s

/-- A write to LDG_METER_TAIL: a value beyond the ring is ignored (R479). -/
def State.meterTailWrite (s : State) (w : Word) : State :=
  let n := bits w 13 0
  if 9829 < n then s
  else { s.setReg Reg.LDG_METER_TAIL (BitVec.ofNat 32 n) with
           ldg := { s.ldg with meterUsed := (s.f (Reg.LDG_HEAD 4) 15 0 / 5 + 9830 - n) % 9830 } }

/-- A write to a write-only or acting register; none for a register that only stores its fields. -/
def State.actingWrite (s : State) (ini a : Nat) (d : RegDesc) (i j : Nat) (w : Word) : Option State :=
  let b := d.base
  match blockAt a with
  | some .sys =>
    if b = Reg.SYS_MODE_REQ then some (s.modeWrite ini (bits w 2 0))
    else if b = Reg.SYS_LINE_ID then
      some (if s.domOn 13 then s.raise srcSYS 0 else s.setReg a (BitVec.ofNat 32 (bits w 9 0)))
    else none
  | some .pwr =>
    if b = Reg.PWR_DOM_REQ then some (s.domRequest (bits w 3 0) (bits w 4 4 == 1))
    else if b = Reg.PWR_VREQ_B then some (s.vreqStart w)
    else none
  | some .sbx =>
    if b = Reg.SBX_CTRL then some (s.setReg a (d.write (s.reg a) w)).errPin
    else if b = Reg.SBX_ACTIVE_LO then some (s.activeWrite false w)
    else if b = Reg.SBX_ACTIVE_HI then some (s.activeWrite true w)
    else if b = Reg.SBX_BRST_REQ then some (s.brstRequest w)
    else if b = Reg.SBX_SRC_CFG 0 then some (s.srcCfgWrite i w)
    else if b = Reg.SBX_ORIGIN 0 then some (s.originWrite i w)
    else none
  | some .tt =>
    if b = Reg.TT_SUBMIT then some (s.submit w)
    else if b = Reg.TT_RESQ_TAIL then some (s.resqTailWrite w)
    else if b = Reg.TT_REQ then
      some (if bits w 18 16 = 1 then s.ttRequest (bits w 15 0) (bits w 31 24) false
        else if bits w 18 16 = 2 then s.ttRequest (bits w 15 0) (bits w 31 24) true else s)
    else if b = Reg.TT_CTRL then
      some { s.setReg a (d.write (s.reg a) w) with tt := { s.tt with thrChanged := false } }
    else if b = Reg.TT_PWR_LIMIT then some (s.storeReg a d i j w).updateBudget
    else none
  | some .sq =>
    if b = Reg.SQ_SUBST then some (s.requestSubst w)
    else if b = Reg.SQ_CORE_MAP 0 then some (s.coreMapWrite i w)
    else if b = Reg.SQ_SLOT_ENTRY 0 0 || b = Reg.SQ_SLOT_FRAME 0 0 then some (s.slotFieldWrite a d i j w)
    else if b = Reg.SQ_SLOT_CTRL 0 0 then
      some (if bits w 1 0 = 1 then s.slotStart (8 * i + j) else if bits w 1 0 = 2 then s.slotStop (8 * i + j) else s)
    else none
  | some .dma =>
    if b = Reg.DMA_CH_CFG 0 then some (s.dmaCfgWrite a d i w)
    else if b = Reg.DMA_CH_CTRL 0 then some (if bits w 0 0 = 1 then s.dmaAbort i else s)
    else if b = Reg.DMA_RING_HEAD 0 then some (s.dmaHeadWrite i w)
    else if b = Reg.DMA_CQ_TAIL 0 then some (s.dmaCqTail i w)
    else none
  | some .plt =>
    if b = Reg.PLT_CH_CFG 0 then some (s.pltCfg i w)
    else if b = Reg.PLT_TX 0 then some (s.pltTx (endpointOf ini) i w)
    else if b = Reg.PLT_POP 0 then some (s.pltPop (endpointOf ini) i (bits w 3 0))
    else none
  | some .fx =>
    if b = Reg.FX_CQ_TAIL then some (s.fxTailWrite w)
    else if b = Reg.FX_LANE_CTRL 0 then
      some (s.onBits w [(1, fun s => s.laneSave i), (0, fun s => s.laneAbort i)])
    else if b = Reg.FX_LANE_RESUME 0 then some (s.resumeLane i w)
    else none
  | some .scn => if b = Reg.SCN_CTRL 0 then some (s.enableWrite a d i w fun s e => s.writeScnEn i e) else none
  | some .exp => if b = Reg.EXP_RETIRE 0 then some (s.retireRequest i w) else none
  | some .xlk =>
    if b = Reg.XLK_CTRL 0 then
      let s := s.enableWrite a d i w fun s e => s.writeXlkEn i e
      some (if bits w 1 1 = 1 then s.tblLoad i else s)
    else if b = Reg.XLK_SUBST 0 then
      let s := s.setReg a (d.write (s.reg a) w)
      some (if bits w 10 10 = 1 then s.wantSubst i (bits w 9 8) else s)
    else none
  | some .foc =>
    if b = Reg.FOC_CMD 0 then
      some (s.onBits w [(3, fun s => s.focClear i), (2, fun s => s.focCoast i), (1, fun s => s.focStop i {}),
                        (0, fun s => s.focStart i {})])
    else if b = Reg.FOC_SPD_REF 0 || b = Reg.FOC_IQ_REF 0 then some (s.focRefWrite i a (d.write (s.reg a) w))
    else if b = Reg.FOC_ENG_SUBST then some (if bits w 12 8 = 0x1F then s.engCancel else s.engSubst w)
    else if b = Reg.FOC_BUS_CTRL 0 then some (if bits w 0 0 = 1 then s.busClear i else s)
    else none
  | some .stp =>
    if b = Reg.STP_CMD 0 then
      some (s.onBits w [(0, fun s => s.stpGo i {}), (1, fun s => s.stpStop i {}), (2, fun s => s.stpHalt i {}),
                        (3, fun s => s.stpResume i {}), (4, fun s => s.stpClear i {})])
    else if b = Reg.STP_POS_LO 0 then some (s.writePosLo i w)
    else if b = Reg.STP_POS_HI 0 then some (s.writePosHi i w)
    else if b = Reg.STP_TGT_LO 0 then some (s.modStp i fun x => { x with tgtLo := some w })
    else if b = Reg.STP_TGT_HI 0 then some (s.writeTgtHi i w)
    else if b = Reg.STP_ENC_CNT_LO 0 then some (s.writeCntLo i w)
    else if b = Reg.STP_ENC_CNT_HI 0 then some (s.writeCntHi i w)
    else if b = Reg.STP_GEAR_CTRL 0 then some (s.onBits w [(0, fun s => s.gearArm i), (1, fun s => s.gearCancel i)])
    else none
  | some .hv => if b = Reg.HV_RAMP 0 then some (s.hvRampWrite i w) else none
  | some .fus =>
    if b = Reg.FUS_ZCMD 0 then
      some (s.onBits w [(2, fun s => s.zoneClear i), (1, fun s => s.zoneOff i), (0, fun s => s.zoneOn i)])
    else if b = Reg.FUS_SP 0 then
      some (if (Tab.get {} s.fus.zone i).ttSp = some s.clk.tb then s else s.hold a (BitVec.ofNat 32 (bits w 15 0)))
    else if b = Reg.FUS_OT 0 then
      some (if s.gateOpen then s.setReg a (d.write (s.reg a) w) else s.cfgBusy a i)
    else none
  | some .sns =>
    if b = Reg.SNS_OUT_LO then some (s.snsOutWrite false w)
    else if b = Reg.SNS_OUT_HI then some (s.snsOutWrite true w)
    else if b = Reg.SNS_IN_CFG 0 then
      let flip := bits w 16 16 != s.f a 16 16
      some (if s.refusesL a d i j w then s.cfgBusy a i
        else
          let s := s.setReg a (d.write (s.reg a) w)
          if flip then s.setB (Reg.SNS_IN_STATE i) 0 (!s.fb (Reg.SNS_IN_STATE i) 0) else s)
    else none
  | some .line =>
    if b = Reg.LINE_CTRL then
      some (if (bits w 1 1 = 1) ≠ s.fb a 1 && s.lineRunning then s.raise srcLINE 5
        else
          let s := (s.setF a 8 2 (bits w 8 2)).lineMaster (bits w 1 1 = 1)
          if (bits w 0 0 = 1) ≠ s.fb a 0 then s.lineEnable (bits w 0 0 = 1) else s)
    else if b = Reg.LINE_SUB 0 then some (s.subWrite i w)
    else none
  | some .sec =>
    if b = Reg.SEC_CTRL then
      let s := s.setF a 2 0 (bits w 2 0)
      some (if bits w 8 8 = 1 then s.release1 else s)
    else if b = Reg.SEC_STAGE_NEXT then some (s.stageNext (bits w 1 0))
    else if b = Reg.SEC_RB_ADV then some (s.rbAdv (bits w 1 0))
    else if b = Reg.SEC_CMD then some (s.secBegin (bits w 3 0))
    else if b = Reg.SEC_GATE_OPEN || Reg.SEC_GATE_BASE 0 0 ≤ b then
      some (if s.gateOpen then s.setReg a (d.write (s.reg a) w) else s.cfgBusy a i)
    else none
  | some .ldg =>
    if b = Reg.LDG_APP_KIND then some (s.ldgApp (bits w 7 0))
    else if b = Reg.LDG_METER_TAIL then some (s.meterTailWrite w)
    else none
  | some .bkg => if b = Reg.BKG_CTRL then some (s.bkgCtrlWrite d w) else none
  | _ => none

/-- The wave tables of HV (R337): key of the entry at an address of HV's window. -/
def waveKey (a : Nat) : Option Nat :=
  let o := a - 0x21010000
  if 0x21010000 ≤ a ∧ a < 0x21014000 then some (2048 * (o / 0x1000) + 256 * (o / 0x200 % 8) + o % 0x200 / 2) else none

/-! ### HST (R434, R435) -/

/-- The link goes down (R435). -/
def State.hstLinkDown (s : State) : State :=
  if s.fb Reg.HST_STATUS 0 then
    (((s.setF Reg.HST_STATUS 7 0 0).setB Reg.HST_IRQ_STATUS 0 true).raise srcHST 0).endHostDma
  else s

/-- A write to HST_CTRL: the link does not stay up without LTSSM_EN (R430). -/
def State.hstCtrlWrite (s : State) (w : Word) : State :=
  let s := s.setReg Reg.HST_CTRL (BitVec.ofNat 32 (bits w 5 0))
  if bits w 0 0 = 0 then s.hstLinkDown else s

/-- The condition of vector v. -/
def State.vectorCond (s : State) (v : Nat) : Bool :=
  let src := s.f (Reg.HST_MSIX_SRC v) 5 0
  if src ≤ 33 then s.hwLine 0 src || s.hwLine 1 src
  else if src = 0x30 then s.pltLine 2
  else if src = 0x38 then s.bit64 Reg.HST_DB_LO Reg.HST_DB_HI v
  else false

/-- Send vector v, or set its pending bit while it is masked. -/
def State.sendVector (s : State) (v : Nat) : State :=
  if !s.fb Reg.HST_STATUS 11 then s
  else if s.hst.fnMask || (Tab.get {} s.hst.table v).masked then
    { s with hst := { s.hst with pending := if s.hst.pending.contains v then s.hst.pending else v :: s.hst.pending } }
  else if s.fb Reg.HST_STATUS 8 then
    { s with hst := { s.hst with sent := v :: s.hst.sent, pending := s.hst.pending.erase v } }
  else s

/-- A write of v to HST_MSIX_REARM. -/
def State.rearm (s : State) (v : Nat) : State := if s.vectorCond v then s.sendVector v else s

/-- A write to HST_DB_SET raises doorbells. -/
def State.dbSet (s : State) (hi : Bool) (w : Word) : State :=
  (List.range 32).foldl (fun s i =>
    if w.getLsbD i then s.setB (if hi then Reg.HST_DB_HI else Reg.HST_DB_LO) i true else s) s

/-! ### Reading -/

/-- The word of a register as it reads (R13), before any effect of the read. -/
def State.regView (s : State) (ini a : Nat) (d : RegDesc) (i j : Nat) : Word :=
  let b := d.base
  let v := s.reg a &&& ~~~(d.maskOf fun f => f.acc == .wo)
  if regAbsent d i then 0
  else match blockAt a with
  | some .clk =>
    if b = Reg.CLK_TB_LO then BitVec.ofNat 32 (s.now / 8 * 8)
    else if b = Reg.CLK_TB_HI then BitVec.ofNat 32 (Tab.get 0 s.clk.hold ini) else v
  | some .pwr => if b = Reg.PWR_DOM_STATE 0 then s.domStateView i else v
  | some .thm => if b = Reg.THM_TS 0 then putBits v 16 16 (if s.sensorFailed i then 1 else 0) else v
  | some .sbx =>
    if b = Reg.SBX_NMI then s.nmiSettle.reg a
    else if b = Reg.SBX_HIST_W1 0 then (Tab.get [] s.sbx.hold ini).getD 0 0
    else if b = Reg.SBX_HIST_W2 0 then (Tab.get [] s.sbx.hold ini).getD 1 0
    else if b = Reg.SBX_HIST_W3 0 then (Tab.get [] s.sbx.hold ini).getD 2 0
    else v
  | some .tt => if b = Reg.TT_STATUS then s.ttStatus else v
  | some .sq =>
    if b = Reg.SQ_SLOT_STATE 0 0 then
      let x := s.slot (8 * i + j)
      let run := s.runningSlot i == some (8 * i + j)
      putBits (putBits v 2 0 (x.stateCode run)) 3 3 (if x.use = .standing then 1 else 0)
    else if b = Reg.SQ_STATUS then s.sqStatusView v
    else v
  | some .dma =>
    if b = Reg.DMA_STATUS then BitVec.ofNat 32 s.dmaOutstanding
    else if b = Reg.DMA_CH_STATUS 0 then s.dmaStatusView i else v
  | some .plt =>
    if b = Reg.PLT_STATUS 0 then s.pltStatusView i
    else if b = Reg.PLT_RX 0 0 then (s.pltRx (endpointOf ini) i j).1 else v
  | some .fx =>
    if b = Reg.FX_STATUS then s.fxStatus
    else if b = Reg.FX_LANE_STATE 0 then s.fxLaneState i
    else if b = Reg.FX_STREAM_STATUS 0 then s.fxStreamStatus i else v
  | some .scn => if b = Reg.SCN_STATUS 0 then s.scnStatus i else v
  | some .exp => if b = Reg.EXP_STATUS 0 then s.expStatus i else v
  | some .xlk => if b = Reg.XLK_STATUS 0 then s.xlkStatus i else v
  | some .foc => if b = Reg.FOC_IRQ_SUM then s.focIrqSum else v
  | some .stp =>
    if b = Reg.STP_IRQ_SUM then s.stpIrqSum
    else if b = Reg.STP_IRQ_SUM2 then s.stpIrqSum2
    else if b = Reg.STP_STATE 0 then s.stpStateView i
    else if b = Reg.STP_POS_LO 0 then s.stpPosLo i
    else if b = Reg.STP_POS_HI 0 then s.stpPosHi i
    else if b = Reg.STP_TGT_LO 0 then ((s.stpCh i).tgtLo).getD v
    else v
  | some .hv => if b = Reg.HV_VALUE 0 then s.hvValueView i else v
  | some .line => if b = Reg.LINE_STATUS then s.lineStatusView else v
  | some .fus => if b = Reg.FUS_ZSTATE 0 then s.zStateView i else v
  | some .sns => if b = Reg.SNS_IN_STATE 0 then s.snsStateView i else v
  | some .sec =>
    if b = Reg.SEC_LC then s.lcView
    else if b = Reg.SEC_UID_LO then BitVec.ofNat 32 State.unitId
    else if b = Reg.SEC_UID_HI then BitVec.ofNat 32 (State.unitId / 2 ^ 32)
    else if b = Reg.SEC_RB 0 then BitVec.ofNat 32 (s.rbCount i)
    else if b = Reg.SEC_METER_PEND then BitVec.ofNat 32 s.meterPending
    else if b = Reg.SEC_METER_SEQ then BitVec.ofNat 32 s.sec.meterSeq
    else v
  | some .ldg => if b = Reg.LDG_STATUS then putBits v 0 0 (if s.ldg.cur.isSome then 1 else 0) else v
  | some .bkg => if b = Reg.BKG_STATUS then BitVec.ofNat 32 s.repairFree else v
  | _ => v

/-- The word at an aligned register address, and what reading it does (R12, R30, R375, R393). -/
def State.regReadWord (s : State) (ini a : Nat) : Word × State :=
  match waveKey a with
  | some k => (BitVec.ofNat 32 (Tab.get 0 s.hv.wave k + 2 ^ 16 * Tab.get 0 s.hv.wave (k + 1)), s)
  | none => match findReg a with
    | none => (0, s)
    | some (d, ix) =>
      let i := ix.getD 0 0
      let j := ix.getD 1 0
      let v := s.regView ini a d i j
      if d.base = Reg.CLK_TB_LO then
        (v, { s with clk := { s.clk with hold := Tab.put 0 s.clk.hold ini (s.now / 2 ^ 32) } })
      else if d.base = Reg.SBX_HIST_W0 0 then s.histRead ini i
      else if d.base = Reg.PLT_RX 0 0 then s.pltRx (endpointOf ini) i j
      else if d.base = Reg.EXP_ESTATE 0 0 then
        let (n, s) : Nat × State := match s.emitterState i j with
          | some n => (n, s)
          | none => (Config.freeNat s.fresh, { s with fresh := s.fresh + 1 })
        (putBits v 2 0 n, s)
      else (v, s)

/-- A read of `n` bytes at a register address by an initiator, the Gates apart (R11, R12, R35). -/
def State.regRead (s : State) (ini a n : Nat) : AccResult × State :=
  if !((n = 1 || n = 2 || n = 4) && a % n = 0) || !s.regOn a then ({ err := .bus }, s)
  else
    let (v, s) := s.regReadWord ini (a / 4 * 4)
    ({ value := v.toNat / 2 ^ (8 * (a % 4)) % 2 ^ (8 * n) }, s)

/-- A write of `n` bytes at a register address by an initiator, the Gates apart (R11–R16, R35, R374). -/
def State.regWrite (s : State) (ini a n : Nat) (w : Word) : AccErr × State :=
  if n ≠ 4 || a % 4 ≠ 0 || !s.regOn a then (.bus, s)
  else match waveKey a with
    | some k =>
      let t := Tab.put 0 (Tab.put 0 s.hv.wave k (bits w 15 0)) (k + 1) (bits w 31 16)
      (.ok, { s with hv := { s.hv with wave := t } })
    | none => match findReg a with
      | none => (.ok, s)
      | some (d, ix) =>
        let i := ix.getD 0 0
        let j := ix.getD 1 0
        if regAbsent d i then (.ok, s)
        else if d.base = Reg.PLT_CH_CFG 0 && 2 ≤ ini then (.bus, s)
        else if blockAt a = some .hst && s.hst.perst then (.ok, s)
        else if d.base = Reg.HST_CTRL then (.ok, s.hstCtrlWrite w)
        else if d.base = Reg.HST_MSIX_REARM then (.ok, s.rearm (bits w 5 0))
        else if d.base = Reg.HST_DB_SET_LO then (.ok, s.dbSet false w)
        else if d.base = Reg.HST_DB_SET_HI then (.ok, s.dbSet true w)
        else match s.actingWrite ini a d i j w with
          | some s => (.ok, s)
          | none => (.ok, s.storeReg a d i j w)

end Sys2Proof.Machine
end

