-- ==== Sys2Proof/Machine/CoreMap.lean ====
section
/-!
DEFINITION. The map of logical to physical cores and its substitution (R146–R148).
-/

namespace Sys2Proof.Machine

/-- The safe point of a substitution of l's core q (R148). -/
def State.safePoint (s : State) (l q : Nat) : Bool :=
  ((List.range 8).all fun n => (s.slot (8 * l + n)).use == .off && (s.slot (8 * l + n)).leaving.isEmpty) &&
  (s.armEntries q).isEmpty &&
  !s.sq.claims.any fun c => c.c.core == l && s.clk.tb ≤ c.start && c.start ≤ s.clk.tb + 131072

/-- A substitution ends refused with a reason; the map is unchanged and a halted core stays halted (R148). -/
def State.substRefuse (s : State) (reason : Nat) : State :=
  let s := { s with sq := { s.sq with subst := none } }
  ((s.setReg Reg.SQ_SUBST_STATUS (BitVec.ofNat 32 (3 + 4 * reason))).setB Reg.SQ_IRQ_STATUS 2 true).setB
    Reg.SQ_STATUS 5 false

/-- The reason for which p can no longer be bound when a substitution comes to it: another write has bound it, or marked it
failed, since the request (R146; log entry 97). -/
def State.lostTarget (s : State) (p : Nat) : Option Nat :=
  if (s.logicalOf p).isSome then some 1
  else if (s.reg Reg.SQ_CORE_FAIL).getLsbD p then some 2
  else none

/-- The substitution of l's core q by p is done: the binding, the mark, the record and the status (R148). -/
def State.substBind (s : State) (l q p : Nat) : State :=
  let s := s.bindCore l p
  let s := s.setReg Reg.SQ_CORE_FAIL (s.reg Reg.SQ_CORE_FAIL ||| BitVec.ofNat 32 (2 ^ q))
  let s := s.ldgRecord 2 0x10 1 (bytesLE 1 l ++ bytesLE 1 q ++ bytesLE 1 p)
  let s := { s with sq := { s.sq with subst := none } }
  ((s.setReg Reg.SQ_SUBST_STATUS 2).setB Reg.SQ_IRQ_STATUS 2 true).setB Reg.SQ_STATUS 5 false

/-- A substitution comes to its binding: it binds, or ends refused where p can no longer be bound. -/
def State.substDone (s : State) (l q p : Nat) : State :=
  match s.lostTarget p with
  | some r => s.substRefuse r
  | none => s.substBind l q p

/-- Cells of [lo, hi) moved to start at `dst`. -/
def movedCells (m : List Host.Cell) (lo hi dst : Nat) : List Host.Cell :=
  (m.filter fun c => lo ≤ c.1 && c.1 < hi).map fun c => (c.1 - lo + dst, c.2)

/-- Bytes [i, i + n) of q's TCM in place of p's (R148). -/
def State.copyTcm (s : State) (q p i n : Nat) : State :=
  let lo := tcmBase p + i
  let hi := lo + n
  { s with mem := (s.mem.filter fun c => c.1 < lo) ++ movedCells s.mem (tcmBase q + i) (tcmBase q + i + n) lo ++
                  s.mem.filter fun c => hi ≤ c.1
           poison := s.poison.filter fun w => w < lo || hi ≤ w }

/-- The steps of 32 bytes that a copy begun at `t0` has done by now, one each CORE cycle (R148). -/
def State.copySteps (s : State) (t0 : Tick) : Nat := min ((s.clk.tb - t0) / 8) (tcmSize / 32)

/-- A copy of R148 goes on to the present edge. The first step that meets an uncorrectable error ends the substitution with
COPY_ECC; what was copied before it stays. -/
def State.copyStep (s : State) : State :=
  match s.sq.subst with
  | none => s
  | some c =>
    match c.copying, s.physOf c.logical with
    | some t0, some q =>
      let n := s.copySteps t0
      if n ≤ c.copied then s
      else
        match (List.range' c.copied (n - c.copied)).find? fun i => s.poisoned (tcmBase q + 32 * i) 32 with
        | some i => (s.copyTcm q c.phys (32 * c.copied) (32 * (i - c.copied))).substRefuse 5
        | none => { s.copyTcm q c.phys (32 * c.copied) (32 * (n - c.copied)) with
            sq := { s.sq with subst := some { c with copied := n } } }
    | _, _ => s

end Sys2Proof.Machine
end

