-- ==== Sys2Proof/Machine/Access.lean ====
section
/-!
DEFINITION. One access of an initiator to the system physical map (R31–R35, R431): the Gates, then memory or registers.
-/

namespace Sys2Proof.Machine

/-- The register space (R31). -/
def inRegs (a : Nat) : Bool := 0x20000000 ≤ a && a < 0x21A00000

/-- A load of `n` bytes by an initiator: what it gets. -/
def State.busLoad (s : State) (ini a n : Nat) : AccResult × State :=
  if inRegs a then
    if s.gateAllows ini a n .load then s.regRead ini a n else ({ err := .access }, s.gateRefuse ini a .load)
  else match s.readMem ini a n with
    | (.ok bs, s) => ({ value := natLE bs }, s)
    | (.error .access, s) => ({ err := .access }, s)
    | (.error .bus, s) => ({ err := .bus }, s)
    | (.error .ecc, s) => ({ err := .ecc }, s)

/-- A store of `n` bytes by an initiator. -/
def State.busStore (s : State) (ini a n v : Nat) : AccErr × State :=
  if inRegs a then
    if s.gateAllows ini a n .store then s.regWrite ini a n (BitVec.ofNat 32 v) else (.access, s.gateRefuse ini a .store)
  else match s.writeMem ini a (bytesLE n v) with
    | (none, s) => (.ok, s)
    | (some .access, s) => (.access, s)
    | (some .bus, s) => (.bus, s)
    | (some .ecc, s) => (.ecc, s)

end Sys2Proof.Machine
end

