-- ==== Sys2Proof/Machine/HostIf.lean ====
section
/-!
DEFINITION. The host interface (R429–R435): the host's memory requests, the link and its resets, and MSI-X; and the
commands of their rows.
-/

namespace Sys2Proof.Machine

/-- The link carries requests. -/
def State.dlUp (s : State) : Bool := s.domOn 12 && s.fb Reg.HST_STATUS 0

/-- Record a refused request of the host (R431). -/
def State.hostRefuse (s : State) (bar2 read : Bool) (o : Nat) : State :=
  let s := s.setReg Reg.HST_ERR_ADDR (BitVec.ofNat 32 (o % 2 ^ 26 + (if bar2 then 2 ^ 27 else 0) +
    (if read then 2 ^ 28 else 0)))
  (s.setB Reg.HST_IRQ_STATUS 1 true).raise srcHST 1

/-! ### The MSI-X table and pending bits -/

/-- The 16 bytes of an entry. -/
def MsixEntry.bytes (e : MsixEntry) : List Byte :=
  bytesLE 8 e.addr ++ bytesLE 4 e.data ++ bytesLE 4 (if e.masked then 1 else 0)

/-- The entry that 16 bytes stand for. -/
def msixOf (bs : List Byte) : MsixEntry :=
  { addr := sliceLE bs 0 8, data := sliceLE bs 8 4, masked := sliceLE bs 12 1 % 2 == 1 }

/-- The table's bytes. -/
def State.msixBytes (s : State) : List Byte := (List.range 64).flatMap fun v => (Tab.get {} s.hst.table v).bytes

/-- A write into the table. -/
def State.msixWrite (s : State) (o : Nat) (data : List Byte) : State :=
  let bs := s.msixBytes.take o ++ data ++ s.msixBytes.drop (o + data.length)
  { s with hst := { s.hst with table := (List.range 64).foldl (fun t v =>
      Tab.put {} t v (msixOf ((bs.drop (16 * v)).take 16))) s.hst.table } }

/-- The pending bit array. -/
def State.msixPending (s : State) : Nat := (s.hst.pending.map fun v => 2 ^ v).sum

end Sys2Proof.Machine
end

