-- ==== Sys2Proof/Machine/Sinel.lean ====
section
/-!
DEFINITION. The Sinel cores (R92–R126): general and control registers, issue and timing on both profiles, exceptions and
traps, and the instructions that do not access memory. Cores 0–23 are Sinel-T, 24 and 25 are Sinel-G cores 0 and 1.
-/

namespace Sys2Proof.Machine

/-! ### Exceptions (R118) -/

def xFETCH : Nat := 0x01
def xECC_I : Nat := 0x02
def xILLEGAL : Nat := 0x03
def xPRIV : Nat := 0x04
def xALIGN : Nat := 0x05
def xACCESS : Nat := 0x06
def xBUS : Nat := 0x07
def xECC_D : Nat := 0x08
def xCOMMIT_FULL : Nat := 0x09
def xARM_FULL : Nat := 0x0A
def xPOINT : Nat := 0x0B
def xSYSCALL : Nat := 0x0C
def xBREAK : Nat := 0x0D

/-- Whose instruction executes: the instance of a slot on a physical sequencer core, or a supervisor core. -/
inductive Who
  | t (key phys : Nat) (i : Instance)
  | g (n : Nat)
deriving DecidableEq, Repr

def Who.isG : Who → Bool
  | .g _ => true
  | .t .. => false

/-- What an instruction does once it has issued. -/
inductive Eff
  | next (s : State)                    -- completes; the next instruction follows
  | jump (pc : Nat) (s : State)         -- completes; execution continues at an absolute address
  | exc (code addr : Nat) (s : State)   -- raises an exception with a faulting address or 0
  | wait (till : Tick) (s : State)      -- WAITT with an operand in the future
  | fly (a : Nat) (rt : Fin 32) (sz : Nat) (signed : Bool) (s : State)   -- a load that reads its target later (R39)
  | yield (s : State)                   -- YIELD
  | halt (s : State)                    -- the core stops fetching

/-! ### Supervisor core state -/

/-- The reset value of a Sinel-G control register (R94, R123). -/
def kReset (k : Nat) : Word := if 16 ≤ k ∧ k ≤ 31 then BitVec.ofNat 32 (k - 16) else 0

def State.gcore (s : State) (n : Nat) : GCore := Tab.get {} s.gcores n

def State.setGcore (s : State) (n : Nat) (c : GCore) : State := { s with gcores := Tab.put {} s.gcores n c }

def State.modGcore (s : State) (n : Nat) (h : GCore → GCore) : State := s.setGcore n (h (s.gcore n))

/-- The stored value of a control register of supervisor core n. -/
def GCore.kr (c : GCore) (k : Nat) : Word :=
  match c.k.find? (fun p => p.1 == k) with
  | some p => p.2
  | none => kReset k

def GCore.setKr (c : GCore) (k : Nat) (v : Word) : GCore :=
  { c with k := if v = kReset k then Tab.erase k c.k else Tab.insert k v c.k }

/-- STATUS fields of a supervisor core (R94). -/
def GCore.ie (c : GCore) : Bool := (c.kr 1).getLsbD 0
def GCore.user (c : GCore) : Bool := (c.kr 1).getLsbD 1
def GCore.depth (c : GCore) : Nat := bits (c.kr 1) 3 2

/-- A window register (R123). -/
def GCore.win (c : GCore) (va : Nat) : Word := c.kr (16 + va / 2 ^ 28 % 16)

/-- The system physical address of a 32-bit address (R123). -/
def GCore.phys (c : GCore) (va : Nat) : Nat := bits (c.win va) 11 0 * 2 ^ 28 + va % 2 ^ 28

/-! ### General registers (R92) -/

def State.gr (s : State) (w : Who) (r : Fin 32) : Word :=
  if r = 0 then 0
  else match w with
    | .t key _ _ => Tab.get 0 (s.slot key).bank r
    | .g n => Tab.get 0 (s.gcore n).g r

def State.setGr (s : State) (w : Who) (r : Fin 32) (v : Word) : State :=
  if r = 0 then s
  else match w with
    | .t key _ _ => s.modSlot key fun x => { x with bank := Tab.put 0 x.bank r v }
    | .g n => s.modGcore n fun c => { c with g := Tab.put 0 c.g r v }

/-- A register pair is named by an even register other than g0 (R93). -/
def pairOkR (r : Fin 32) : Bool := r.val % 2 == 0 && r.val != 0

/-- The odd member of a pair. -/
def oddOf (r : Fin 32) : Fin 32 := ⟨(r.val + 1) % 32, Nat.mod_lt _ (by decide)⟩

/-- The 64-bit value of a pair (R93). -/
def State.grPair (s : State) (w : Who) (r : Fin 32) : Nat := (s.gr w r).toNat + 2 ^ 32 * (s.gr w (oddOf r)).toNat

/-- Write both words of a pair (R93). -/
def State.setGrPair (s : State) (w : Who) (r : Fin 32) (v : Nat) : State :=
  (s.setGr w r (BitVec.ofNat 32 v)).setGr w (oddOf r) (BitVec.ofNat 32 (v / 2 ^ 32))

/-- The own absolute address of the instruction. -/
def State.pcOf (s : State) (w : Who) : Nat :=
  match w with
  | .t _ p i => tcmBase p + i.pc
  | .g n => (s.gcore n).pc

/-! ### Issue on Sinel-T (R117, R119, R135–R137) -/

def State.modInst (s : State) (key : Nat) (h : Instance → Instance) : State :=
  s.modSlot key fun x => { x with inst := x.inst.map h }

/-- An exception takes one cycle in the cases R117 lists, else the instruction's latency. -/
def excCycles (code lat : Nat) : Nat :=
  if code = xILLEGAL ∨ code = xFETCH ∨ code = xECC_I ∨ code = xALIGN ∨ code = xACCESS ∨ code = xBUS then 1 else lat

/-- The fetch of a sequencer instance: its own 64 KiB of instruction memory, where the Gates let it fetch, without an
uncorrectable error (R107, R118, R466; log entry 44). -/
def State.fetchT (s : State) (p pc : Nat) : Option Nat × State :=
  if 0x10000 ≤ pc then (some xFETCH, s)
  else if !s.gateAllows iSEQ (tcmBase p + pc) 4 .fetch then (some xFETCH, s.gateRefuse iSEQ (tcmBase p + pc) .fetch)
  else if s.poisoned (tcmBase p + pc) 4 then (some xECC_I, s)
  else (none, s)

/-- Charge the budget and occupy the core; the instruction ends after `cycles`, and `what` happens then (R117, R136). -/
def State.charge (s : State) (key p cycles : Nat) (i : Instance) (what : Fly) (readAt : Tick) : State :=
  (s.setFlight p { key := key, release := i.release, due := s.clk.tb + 8 * cycles, what := what, readAt := readAt }).modInst
    key fun i => { i with used := i.used + cycles }

/-- The order of a SEQ group's cores in the ring of its Stacks port (R39; log entry 93). -/
def ringOrder (g : Nat) : Nat → List Nat → List Nat
  | 0, _ => []
  | n + 1, xs =>
    let i := Config.ringChoice g n % (n + 1)
    xs.getD i 0 :: ringOrder g n (xs.eraseIdx i)

/-- The JCT cycle of a ring, 0–2, in which physical core p has its standing slot: two cores of a group in each (R39). -/
def ringPos (p : Nat) : Nat := (ringOrder (p / 6) 6 (List.range 6)).idxOf (p % 6) / 2

/-- The start of physical core p's first standing slot at or after t: a JCT cycle of 16 ticks, every 48 (R39). -/
def standingSlot (p : Nat) (t : Tick) : Tick :=
  let j := (t + 15) / 16
  (j + (ringPos p + 3 - j % 3) % 3) * 16

/-- The outcome of an issued instruction on Sinel-T: what it does at once, and what it leaves for the edge at which it ends
(R117, R135, R136, R138). -/
def State.finishT (s : State) (key p lat : Nat) (i : Instance) (e : Eff) : State :=
  let wcet := s.f (atKey Reg.SQ_SLOT_WCET key) 31 0
  let cycles := match e with
    | .exc code _ _ => excCycles code lat
    | .wait .. => 1
    | _ => lat
  if wcet < i.used + cycles then s.dropPeriod key dOVERRUN (0, 0, 0)
  else match e with
    | .next s => (s.charge key p cycles i .plain 0).modInst key fun i => { i with pc := i.pc + 4 }
    | .jump pc s => (s.charge key p cycles i .plain 0).modInst key fun i => { i with pc := pc - tcmBase p }
    | .wait till s =>
      (s.charge key p cycles i .plain 0).modInst key fun i => { i with pc := i.pc + 4, waitUntil := some till }
    | .halt s => s.charge key p cycles i .plain 0
    | .exc code addr s => s.charge key p cycles i (.exc code addr) 0
    | .fly a rt sz signed s => s.charge key p cycles i (.load a rt sz signed) (standingSlot p (s.clk.tb + 8))
    | .yield s => s.charge key p cycles i .commit 0

/-- Physical sequencer core p can issue: it is bound, released and its group is ON (R146, R147). -/
def State.coreRuns (s : State) (p : Nat) : Bool :=
  (s.logicalOf p).isSome && !s.sq.halted.contains p && s.domOn (3 + p / 6)

/-- Issue an instruction on physical sequencer core p, its latency given by `lat`: the chosen instance executes it
(R135). -/
def State.issueT (s : State) (p : Nat) (lat : Who → State → Nat) (body : Who → State → Eff) : State :=
  match s.logicalOf p with
  | none => s
  | some l =>
    match s.chosen l with
    | none => s
    | some (key, i) =>
      if !s.coreRuns p then s
      else match s.fetchT p i.pc with
        | (some code, s') => s.finishT key p 1 i (.exc code (tcmBase p + i.pc) s')
        | (none, _) => s.finishT key p (lat (.t key p i) s) i (body (.t key p i) s)

/-! ### Traps and issue on Sinel-G (R120, R121, R123, R126) -/

/-- STATUS on entry to a handler: IE 0, level S, and a depth. -/
def statusEntry (depth : Nat) : Word := BitVec.ofNat 32 (4 * depth)

/-- The double fault condition of R121. -/
def GCore.doubleFault (c : GCore) : Bool :=
  c.depth == 1 || c.depth == 3 || (c.depth == 2 && bits (c.kr 42) 3 2 == 1)

/-- Enter a trap (R120): TSAVE, TRET, TCODE and TADDR are written, and execution continues at `vec`. -/
def GCore.enterTrap (c : GCore) (tcode taddr vec : Nat) : GCore :=
  let st := c.kr 1
  let c := (((c.setKr 43 st).setKr 5 (BitVec.ofNat 32 c.pc)).setKr 6 (BitVec.ofNat 32 tcode)).setKr 7
    (BitVec.ofNat 32 taddr)
  let c := c.setKr 1 (statusEntry (if bits st 3 2 = 2 then 3 else 1))
  { c with pc := ((c.kr 32).toNat + vec) % 2 ^ 32, yielding := false, waitUntil := none }

/-- The exceptions that record a faulting address (k7). -/
def hasAddr (code : Nat) : Bool :=
  code == xFETCH || code == xECC_I || code == xALIGN || code == xACCESS || code == xBUS || code == xECC_D

/-- A synchronous exception on supervisor core n: its trap, or a double fault, which stops fetching and raises CPU_DBL
(R120, R121). -/
def State.trapG (s : State) (n code addr : Nat) : State :=
  if (s.gcore n).doubleFault then (s.modGcore n fun c => { c with running := false, dbl := true }).raise (4 + n) 0
  else s.modGcore n fun c => c.enterTrap code (if hasAddr code then addr else 0) 0

/-- The line that a cache of `len` lines gives up when it takes one more: one of them when all 512 lines of its 32 KiB
are in use; otherwise which one, or none, is open (R127; log entry 3). -/
def evicted (v len : Nat) : Option Nat :=
  if len < 512 then (if v % (len + 1) = len then none else some (v % (len + 1))) else some (v % len)

/-- One line more in the instruction cache. -/
def State.fillIcache (s : State) (n line : Nat) : State :=
  let (v, s) := s.takeFresh
  let c := s.gcore n
  let ls := match evicted (Config.freeNat v) c.icache.length with
    | some i => c.icache.eraseIdx i
    | none => c.icache
  s.setGcore n { c with icache := ls ++ [line] }

/-- The fetch of supervisor core n: through its window, the Gates and the instruction cache (R118, R122, R123, R127). An
address that is no multiple of 4, which RTT can reach, raises FETCH (log entry 96). -/
def State.fetchG (s : State) (n : Nat) : Option Nat × State :=
  let c := s.gcore n
  let a := c.phys c.pc
  if c.pc % 4 ≠ 0 ∨ (c.user = true ∧ (c.win c.pc).getLsbD 16 = false) then (some xFETCH, s)
  else if !s.gateAllows (iSUP n) a 4 .fetch then (some xFETCH, s.gateRefuse (iSUP n) a .fetch)
  else if !s.memOn a 4 then (some xBUS, s)
  else
    let cached := (c.kr 40).getLsbD 0 && (c.win c.pc).getLsbD 18 && !(regionAt a 4 == some ⟨ledgerBase, 0x380000, 1⟩)
    if cached && c.icache.contains (a / 64) then (none, s)
    else if s.poisoned a 4 then (some xECC_I, s.memUncor a 4)
    else if cached then (none, s.fillIcache n (a / 64))
    else (none, s)

/-- Issue an instruction on supervisor core n. -/
def State.issueG (s : State) (n : Nat) (body : Who → State → Eff) : State :=
  let c := s.gcore n
  if !c.running || c.yielding || c.waitUntil.isSome then s
  else match s.fetchG n with
    | (some code, s) => s.trapG n code c.pc
    | (none, s) =>
      match body (.g n) s with
      | .next s => s.modGcore n fun c => { c with pc := (c.pc + 4) % 2 ^ 32 }
      | .jump pc s => s.modGcore n fun c => { c with pc := pc % 2 ^ 32 }
      | .fly _ _ _ _ s => s.modGcore n fun c => { c with pc := (c.pc + 4) % 2 ^ 32 }
      | .exc code addr s => s.trapG n code addr
      | .wait till s => s.modGcore n fun c => { c with waitUntil := some till }
      | .yield s => s.modGcore n fun c => { c with pc := (c.pc + 4) % 2 ^ 32, yielding := true }
      | .halt s => s.modGcore n fun c => { c with running := false }

/-! ### Register operations -/

/-- Saturation of a signed result to 32 bits (R97, R100). -/
def sat32 (i : Int) : Word := wordOfInt (clampInt (-(2 ^ 31)) (2 ^ 31 - 1) i)

def flag (b : Bool) : Word := if b then 1 else 0

/-- The shift count of rb: bits [4:0] (R97). -/
def shiftOf (v : Word) : Nat := v.toNat % 32

/-! ### Multiply and divide (R100) -/

/-- (ra × rb + 2^30) >> 31, saturated. -/
def mulq (a b : Word) : Word := sat32 (Int.fdiv (a.toInt * b.toInt + 2 ^ 30) (2 ^ 31))

/-- The signed quotient toward zero, with the fixed results for a zero divisor and for overflow. -/
def quo (a b : Word) : Word :=
  if b = 0 then (if a.toInt < 0 then 0x80000000 else 0x7FFFFFFF) else sat32 (Int.tdiv a.toInt b.toInt)

/-- The signed remainder, with the sign of ra; 0 for a zero divisor. -/
def modS (a b : Word) : Word := if b = 0 then 0 else wordOfInt (Int.tmod a.toInt b.toInt)

def quou (a b : Word) : Word := if b = 0 then 0xFFFFFFFF else BitVec.ofNat 32 (a.toNat / b.toNat)
def modU (a b : Word) : Word := if b = 0 then 0 else BitVec.ofNat 32 (a.toNat % b.toNat)

/-! ### Packed nibbles (R114, R115) -/

/-- Lane i of a word. -/
def lane (v : Word) (i : Nat) : Nat := v.toNat / 16 ^ i % 16

/-- The word whose lane i is `f i` modulo 16. -/
def lanes (f : Nat → Nat) : Word := BitVec.ofNat 32 (((List.range 8).map fun i => (f i % 16) * 16 ^ i).sum)

/-! ### Branches and jumps (R106, R107) -/

/-- Own address + sext(off) × 4, modulo 2^32. -/
def branchTarget (pc : Nat) (off : Int) : Nat := fromSigned 32 ((pc : Int) + off * 4)

/-- A taken branch or a jump that leaves a sequencer core's instruction memory raises FETCH itself (R107). -/
def jumpTo (w : Who) (pc : Nat) (s s' : State) : Eff :=
  match w with
  | .t _ p _ => if tcmBase p ≤ pc ∧ pc < tcmBase p + 0x10000 then .jump pc s' else .exc xFETCH pc s
  | .g _ => .jump pc s'

/-- The link address: that of the next instruction. -/
def State.linkOf (s : State) (w : Who) : Word := BitVec.ofNat 32 (s.pcOf w + 4)

/-! ### Control registers (R94, R108) -/

/-- The control registers a profile has for reading. -/
def kReadable (g : Bool) (k : Nat) : Bool :=
  if g then k ≤ 7 || k == 15 || (16 ≤ k && k ≤ 38) || (40 ≤ k && k ≤ 43) || (48 ≤ k && k ≤ 55)
  else k ≤ 4 || (8 ≤ k && k ≤ 15)

/-- The control registers a profile can write: present and not RO. -/
def kWritable (g : Bool) (k : Nat) : Bool :=
  if g then kReadable true k && k != 0 && k != 2 && k != 3 && k != 4 && k != 35 && k != 36 else k == 15

/-- The bits a write to a Sinel-G control register stores (R94, R123). -/
def kMask (k : Nat) : Word :=
  if k = 1 ∨ k = 42 ∨ k = 43 then 0xF
  else if k = 6 then 0xBF
  else if 16 ≤ k ∧ k ≤ 31 then 0x70FFF
  else if k = 32 then 0xFFFFF800
  else if k = 40 then 0x3
  else 0xFFFFFFFF

/-- The time base as an instruction reads it (R94). -/
def State.tbRead (s : State) (k : Nat) : Word := BitVec.ofNat 32 (if k = 2 then s.clk.tb else s.clk.tb / 2 ^ 32)

/-- A control register as it reads. -/
def State.kread (s : State) (w : Who) (k : Nat) : Word :=
  if k = 2 ∨ k = 3 then s.tbRead k
  else match w with
    | .t key p i =>
      let x := s.slot key
      let start := x.r0 + i.k * s.f (atKey Reg.SQ_SLOT_PERIOD key) 31 0 * 8
      match k with
      | 0 => BitVec.ofNat 32 (p + 2 ^ 8 * (key / 8))
      | 1 => BitVec.ofNat 32 (key % 8)
      | 4 => BitVec.ofNat 32 (tcmBase p)
      | 8 => BitVec.ofNat 32 start
      | 9 => BitVec.ofNat 32 (start / 2 ^ 32)
      | 10 => BitVec.ofNat 32 i.deadline
      | 11 => BitVec.ofNat 32 (i.deadline / 2 ^ 32)
      | 12 => BitVec.ofNat 32 x.cbuse
      | 13 => BitVec.ofNat 32 (s.armuse key p)
      | 14 => BitVec.ofNat 32 x.started
      | 15 => Tab.get 0 x.bank 32
      | _ => 0
    | .g n =>
      let c := s.gcore n
      match k with
      | 0 => BitVec.ofNat 32 (n + 2 ^ 16)
      | 4 => BitVec.ofNat 32 (supBase n)
      | 35 => BitVec.ofNat 32 (s.ipend n)
      | 36 => BitVec.ofNat 32 (s.ipend n / 2 ^ 32)
      | 37 => 0
      | 38 => BitVec.ofNat 32 c.swi
      | k => c.kr k

/-- Store a control register by its access type (R94, R108). -/
def State.kwrite (s : State) (w : Who) (k : Nat) (v : Word) : State :=
  match w with
  | .t key _ _ => s.modSlot key fun x => { x with bank := Tab.put 0 x.bank 32 v }
  | .g n =>
    if k = 37 then
      let s := s.modGcore n fun c => { c with swi := c.swi ||| bits v 15 0 }
      s.modGcore (1 - n) fun c => { c with swi := c.swi ||| bits v 31 16 }
    else if k = 38 then s.modGcore n fun c => { c with swi := c.swi - (c.swi &&& bits v 15 0) }
    else s.modGcore n fun c => c.setKr k (v &&& kMask k)

/-- At level U, k0, k2, k3, k4 and k15 alone may be read, and k15 alone written (R94). -/
def State.kPriv (s : State) (w : Who) (k : Nat) (write : Bool) : Bool :=
  match w with
  | .t .. => false
  | .g n => (s.gcore n).user && !(k == 15 || (!write && (k == 0 || k == 2 || k == 3 || k == 4)))

/-! ### Timed and signal-point instructions (R109–R113) -/

/-- Stage a write of the running instance (R103). -/
def State.stageWrite (s : State) (key : Nat) (x : Staged) : State :=
  s.modInst key fun i => { i with staged := i.staged ++ [x] }

/-- The newest value an instance has staged for a local point (R103). -/
def stagedPoint (p : Nat) (xs : List Staged) : Option Word :=
  xs.foldl (fun o x => match x with | .point q v => if q = p then some v else o | _ => o) none

/-- A line that is both pending and enabled on supervisor core n: the lowest (R126). -/
def State.readyLine (s : State) (n : Nat) : Option Nat :=
  let c := s.gcore n
  let en := (c.kr 33).toNat + 2 ^ 32 * (c.kr 34).toNat
  (List.range 64).find? fun i => en.testBit i && s.pendingLine n i

/-! ### Interrupts and NMI (R120, R125, R126) -/

/-- Enter an NMI (R120): NSAVE and NRET are written; the trap registers keep their values. -/
def GCore.enterNmi (c : GCore) : GCore :=
  let c := ((c.setKr 42 (c.kr 1)).setKr 41 (BitVec.ofNat 32 c.pc)).setKr 1 (statusEntry 2)
  { c with pc := ((c.kr 32).toNat + 0x80) % 2 ^ 32, yielding := false, waitUntil := none, nmi := false, nmiService := true }

/-! ### Undefined words (R95, R96) -/

/-- A field is zero. -/
def zeroF (w : Word) (hi lo : Nat) : Bool := bits w hi lo == 0

/-- A word that no row of the encoding tables describes on the given profile, or that has a non-zero reserved field. -/
def illegalWord (g : Bool) (w : Word) : Bool :=
  let op := bits w 31 26
  let fn := bits w 3 0
  let fnBad := !zeroF w 10 4
  let sub := bits w 15 12
  match op with
  | 0x01 => fnBad
  | 0x02 => fnBad || 8 ≤ fn
  | 0x03 => fnBad || 11 ≤ fn || ((fn == 6 || fn == 7 || fn == 10) && !zeroF w 15 11)
  | 0x04 => 9 ≤ sub || (6 ≤ sub && !zeroF w 11 5)
  | 0x05 => false
  | 0x06 => 5 ≤ sub || !zeroF w 11 6 || ((sub == 1 || 3 ≤ sub) && !zeroF w 25 21) ||
      ((sub == 0 || sub == 2) && !zeroF w 20 16)
  | 0x08 => false
  | 0x09 => 2 ≤ bits w 15 14
  | 0x0A => false
  | 0x0B => !g || bits w 15 14 != 2
  | 0x10 | 0x11 | 0x12 | 0x13 | 0x14 | 0x15 => false
  | 0x18 => false
  | 0x19 => sub != 0
  | 0x1C =>
    let ts := bits w 10 8
    !zeroF w 7 0 || 5 ≤ ts || (ts == 0 && !zeroF w 20 11) || (ts == 1 && g) || (ts == 2 && !zeroF w 15 11) ||
      (ts == 3 && !zeroF w 25 21) || (ts == 4 && !zeroF w 25 11)
  | 0x1E => fnBad || 10 ≤ fn || (!g && fn != 3) || !zeroF w 25 21 || !zeroF w 15 11 ||
      (!(4 ≤ fn && fn ≤ 7) && !zeroF w 20 16)
  | _ => true

end Sys2Proof.Machine
end

