-- ==== Sys2Proof/Machine/SinelMem.lean ====
section
/-!
DEFINITION. The Sinel instructions that access memory (R101–R105, R116, R122, R123, R127), the return from a trap (R120),
and the entries that leave a commit buffer (R140, R141).
-/

namespace Sys2Proof.Machine

/-! ### Addresses and regions -/

/-- ra + sext(off14), 32 bits (R101). -/
def State.dataAddr (s : State) (w : Who) (ra : Fin 32) (off : BitVec 14) : Nat := (s.gr w ra + off.signExtend 32).toNat

/-- The regions that a sequencer core reaches (R102). -/
inductive SeqRegion | itcm | dtcm | stacks | regs | none
deriving DecidableEq, Repr

/-- The blocks whose registers a sequencer core reaches: SQ, SCN, EXP, XLK, FOC, STP, HV, FUS, SNS (R102). -/
def seqBlock (a : Nat) : Bool :=
  match blockAt a with
  | some .sq | some .scn | some .exp | some .xlk | some .foc | some .stp | some .hv | some .fus | some .sns => true
  | _ => false

/-- The region of R102 at an address, for physical core p. -/
def seqRegion (p a : Nat) : SeqRegion :=
  if tcmBase p ≤ a ∧ a < tcmBase p + 0x10000 then .itcm
  else if tcmBase p ≤ a ∧ a < tcmBase p + tcmSize then .dtcm
  else if stacksBase ≤ a ∧ a < stacksBase + stacksSize then .stacks
  else if inRegs a && seqBlock a then .regs
  else .none

/-- Latency of a load or store on Sinel-T: 12 cycles for the Stacks and registers (R117); Sinel-G has no fixed one. -/
def State.memLat (ra : Fin 32) (off : BitVec 14) (w : Who) (s : State) : Nat :=
  match w with
  | .t _ p _ => match seqRegion p (s.dataAddr w ra off) with
    | .stacks | .regs => 12
    | _ => 1
  | .g _ => 1

/-! ### What a sequencer instance sees of its core's writes (R103, R141) -/

/-- `bs` read at `a`, with a write of `n` bytes of `v` at `b` laid over it. -/
def overlayWrite (a : Nat) (bs : List Byte) (b n v : Nat) : List Byte :=
  bs.mapIdx fun i x => if b ≤ a + i ∧ a + i < b + n then BitVec.ofNat 8 (v / 2 ^ (8 * (a + i - b))) else x

/-- The entries that leave the buffers of the slots of logical core l, oldest first. -/
def State.coreLeaving (s : State) (l : Nat) : List Leaving :=
  ((List.range 8).flatMap fun n => (s.slot (8 * l + n)).leaving).mergeSort fun x y => x.notBefore ≤ y.notBefore

/-- The writes that an instance's load sees laid over memory: entries leaving its core's buffers, then its own staged
writes in staging order. -/
def State.seenWrites (s : State) (key : Nat) : List (Nat × Nat × Nat) :=
  ((s.coreLeaving (key / 8)).map fun x => (x.addr, x.size, x.value)) ++
  (((s.slot key).inst.map (·.staged)).getD []).filterMap fun x => match x with
    | .tcm a n v => some (a, n, v)
    | .bus a n v => some (a, n, v)
    | _ => none

/-- Memory as an instance loads it. -/
def State.overlaid (s : State) (key a : Nat) (bs : List Byte) : List Byte :=
  (s.seenWrites key).foldl (fun bs x => overlayWrite a bs x.1 x.2.1 x.2.2) bs

/-! ### Results of a load -/

/-- Write a loaded value to rt, or to the pair rt (R101). -/
def State.putLoad (s : State) (w : Who) (rt : Fin 32) (sz : Nat) (signed : Bool) (v : Nat) : State :=
  if sz = 3 then s.setGrPair w rt v
  else if signed then s.setGr w rt (BitVec.ofInt 32 (toSigned (8 * 2 ^ sz) v))
  else s.setGr w rt (BitVec.ofNat 32 v)

/-- The value that a store writes (R101). -/
def State.storeValue (s : State) (w : Who) (rt : Fin 32) (sz : Nat) : Nat :=
  if sz = 3 then s.grPair w rt else (s.gr w rt).toNat % 2 ^ (8 * 2 ^ sz)

/-- The exception that a memory error raises (R118). -/
def MemErr.exc : MemErr → Nat
  | .access => xACCESS | .bus => xBUS | .ecc => xECC_D

def AccErr.exc : AccErr → Nat
  | .access => xACCESS | .ecc => xECC_D | _ => xBUS

/-! ### Sinel-T -/

/-- A load of a sequencer instance (R101–R103, R141). One from its own TCM is made at once; one from the Stacks or a
register is checked at issue, and reads its target in the core's standing slot (R39, R102). -/
def State.loadT (s : State) (w : Who) (key p a : Nat) (rt : Fin 32) (sz : Nat) (signed : Bool) : Eff :=
  let n := 2 ^ sz
  match seqRegion p a with
  | .none => .exc xACCESS a s
  | .regs =>
    if !s.gateAllows iSEQ a n .load then .exc xACCESS a (s.gateRefuse iSEQ a .load)
    else if 4 < n || !s.regOn a then .exc xBUS a s
    else .fly a rt sz signed s
  | .stacks =>
    if !s.gateAllows iSEQ a n .load then .exc xACCESS a (s.gateRefuse iSEQ a .load)
    else if !s.memOn a n then .exc xBUS a s
    else .fly a rt sz signed s
  | _ =>
    match s.readMem iSEQ a n with
    | (.ok bs, s) => .next (s.putLoad w rt sz signed (natLE (s.overlaid key a bs)))
    | (.error e, s) => .exc e.exc a s

/-- The target of a load in flight is read (R39): its value as it stands, or the exception that its completion raises
(R102, R118). -/
def State.readTarget (s : State) (key p a : Nat) (rt : Fin 32) (sz : Nat) (signed : Bool) : Fly × State :=
  let n := 2 ^ sz
  match seqRegion p a with
  | .regs =>
    match s.busLoad iSEQ a n with
    | ({ err := .ok, value := v }, s) => (.loaded rt sz signed v, s)
    | ({ err := e, .. }, s) => (.exc e.exc a, s)
  | _ =>
    match s.readMem iSEQ a n with
    | (.ok bs, s) => (.loaded rt sz signed (natLE (s.overlaid key a bs)), s)
    | (.error e, s) => (.exc e.exc a, s)

/-- The array read of physical core p's load. -/
def State.arrayRead (s : State) (p : Nat) : State :=
  let x := s.flight p
  match x.what with
  | .load a rt sz signed =>
    let (w, s) := s.readTarget x.key p a rt sz signed
    s.setFlight p { x with what := w }
  | _ => s

/-! ### Instructions that end (R117, R138) -/

/-- The instance that an instruction in progress belongs to, unless it has been dropped since. -/
def State.flyer (s : State) (x : Flight) : Option Instance :=
  match (s.slot x.key).inst with
  | some i => if i.release = x.release then some i else none
  | none => none

/-- The instruction of physical core p ends: YIELD commits unless D_k has passed, a load writes its register, and an
exception before D_k drops the period (R119, R138, R140, R144). The result of an instance that was dropped meanwhile is
discarded. -/
def State.endFlight (s : State) (p : Nat) : State :=
  let x := s.flight p
  let s := s.setFlight p { x with what := .plain }
  match s.flyer x with
  | none => s
  | some i =>
    match x.what with
    | .commit => if x.due ≤ i.deadline then s.completeInstance x.key p i else s
    | .loaded rt sz signed v =>
      if x.due ≤ i.deadline then
        (s.putLoad (.t x.key p i) rt sz signed v).modInst x.key fun i => { i with pc := i.pc + 4 }
      else s
    | .exc code addr => if x.due < i.deadline then s.dropPeriod x.key dEXCEPTION (code, i.pc, addr) else s
    | _ => s

/-- The step of R138 at which an instruction's end is taken. -/
def Fly.step : Fly → Nat
  | .commit => 2
  | .loaded .. => 2
  | .exc .. => 5
  | _ => 10

/-- The cores whose instructions end by `t` at step `n` of R138, in the order of their slots. -/
def State.ending (s : State) (t : Tick) (n : Nat) : List Nat :=
  ((s.sq.flights.filter fun q => q.2.due ≤ t && q.2.what.step == n).mergeSort fun a b => a.2.key ≤ b.2.key).map (·.1)

/-- Steps 2 and 5 of R138 at the present edge, those before step `n`. -/
def State.seqSteps (s : State) (n : Nat) : State :=
  let s := if 2 < n then (s.ending s.clk.tb 2).foldl State.endFlight s else s
  if 5 < n then (s.ending s.clk.tb 5).foldl State.endFlight s else s

/-! ### Entries that leave a commit buffer (R39, R140, R141) -/

/-- The oldest entry that leaves physical core p, and its slot. -/
def State.oldestLeaving (s : State) (p : Nat) : Option (Nat × Leaving) :=
  (s.sq.slots.filterMap fun q => match q.2.leaving with
    | x :: _ => if x.core = p then some (q.1, x) else none
    | [] => none).foldl (fun best x => match best with
      | some b => if x.2.notBefore < b.2.notBefore then some x else best
      | none => some x) none

/-- The edge at which an entry reaches its target: 2 cycles after a standing slot of its core (R140). -/
def Leaving.lands (x : Leaving) : Tick := standingSlot x.core (x.notBefore - 16) + 16

/-- The entries of physical core p wait for its next standing slot. -/
def State.holdLeaving (s : State) (p : Nat) (t : Tick) : State :=
  { s with sq := { s.sq with slots := s.sq.slots.map fun q => (q.1, { q.2 with leaving := q.2.leaving.map fun x =>
      if x.core = p then { x with notBefore := max x.notBefore t } else x }) } }

/-- A load of physical core p uses the standing slot that began at `t`: loads take precedence (R140). -/
def State.slotTaken (s : State) (p : Nat) (t : Tick) : Bool := (s.flight p).readAt == t && t != 0

/-- The standing slot of physical core p serves its oldest entry, which reaches its target now; one that the target refuses
is dropped. An entry whose slot a load used waits for the next (R140). -/
def State.drainCore (s : State) (p : Nat) : State :=
  match s.oldestLeaving p with
  | none => s
  | some (key, x) =>
    if s.clk.tb < x.lands then s
    else
      let t := x.lands + 1
      if s.slotTaken p (x.lands - 16) then s.holdLeaving p t
      else
        let s := (s.modSlot key fun y => { y with leaving := y.leaving.drop 1 }).holdLeaving p t
        (s.busStore iSEQ x.addr x.size x.value).2

/-- The entries that reach their targets at this edge, by group and then core (R141). -/
def State.drainAll (s : State) : State := (List.range 24).foldl State.drainCore s

/-- Array reads, histories that a span start clears, and landings due by the present edge. -/
def State.seqReads (s : State) : State :=
  let due := s.sq.flights.filter fun q => match q.2.what with
    | .load .. => q.2.readAt ≤ s.clk.tb
    | _ => false
  (due.map (·.1)).foldl State.arrayRead s

/-- A standing slot's span starts (R134, R144). -/
def State.seqHist (s : State) : State :=
  (s.sq.slots.filter fun q => match q.2.histAt with | some t => t ≤ s.clk.tb | none => false).foldl
    (fun s q => (s.clearHist q.1).modSlot q.1 fun x => { x with histAt := none }) s

/-- What the sequencer does of itself at the present edge before step `n` of R138. Of a whole edge, n = 10, landings and
array reads come first. -/
def State.seqEdge (s : State) (n : Nat) : State :=
  let s := if 9 < n then s.drainAll.seqReads else s
  let s := s.seqSteps n
  if 5 < n then s.seqHist else s

/-- The edges at which the sequencer acts of itself. -/
def State.seqDues (s : State) : List Tick :=
  (s.sq.flights.filterMap fun q => match q.2.what with
    | .plain => none
    | .load .. => some q.2.readAt
    | _ => some q.2.due) ++
  (s.sq.slots.filterMap fun q => q.2.histAt) ++
  (List.range 24).filterMap fun p => (s.oldestLeaving p).map (·.2.lands)

/-- A store of a sequencer instance: checked at issue, then staged as one entry (R101–R103). -/
def State.storeT (s : State) (key p a sz v : Nat) : Eff :=
  let n := 2 ^ sz
  let r := seqRegion p a
  if r = .none ∨ r = .itcm then .exc xACCESS a s
  else if !s.gateAllows iSEQ a n .store then .exc xACCESS a (s.gateRefuse iSEQ a .store)
  else if r = .regs && (n != 4 || !s.regOn a) then .exc xBUS a s
  else if 64 ≤ (s.slot key).cbuse then .exc xCOMMIT_FULL 0 s
  else .next (s.stageWrite key (if r = .dtcm then .tcm a n v else .bus a n v))

/-! ### Sinel-G: windows and the data cache (R122, R123, R127) -/

/-- The windows refuse an access of supervisor core n at a 32-bit address (R122). -/
def State.windowRefuses (s : State) (n va : Nat) (store : Bool) : Bool :=
  let c := s.gcore n
  c.user && (!(c.win va).getLsbD 16 || (store && !(c.win va).getLsbD 17))

/-- A physical address is never cached: registers and the Ledger (R123). -/
def neverCached (a : Nat) : Bool :=
  (0x20000000 ≤ a && a < 0x30000000) || (ledgerBase ≤ a && a < ledgerBase + 0x400000)

/-- An access of supervisor core n goes through its data cache. -/
def State.cachedData (s : State) (n va : Nat) : Bool :=
  let c := s.gcore n
  (c.kr 40).getLsbD 1 && (c.win va).getLsbD 18 && !neverCached (c.phys va)

/-- The data-cache line of supervisor core n that holds a physical address. -/
def State.dline (s : State) (n a : Nat) : Option CacheLine := (s.gcore n).dcache.find? fun l => l.addr == a / 64 * 64

/-- Write a line back (R127); memory that refuses it keeps its contents. -/
def State.writeBack (s : State) (n : Nat) (l : CacheLine) : State :=
  if l.dirty then (s.writeMem (iSUP n) l.addr l.bytes).2 else s

/-- Drop a line without write-back. -/
def State.dropLine (s : State) (n addr : Nat) : State :=
  s.modGcore n fun c => { c with dcache := c.dcache.filter fun l => l.addr ≠ addr }

/-- Replace or add a line. -/
def State.putLine (s : State) (n : Nat) (x : CacheLine) : State :=
  s.modGcore n fun c => { c with dcache := c.dcache.map fun l => if l.addr = x.addr then x else l }

/-- Take a line into the data cache; the line given up is written back if dirty. -/
def State.fillDcache (s : State) (n : Nat) (x : CacheLine) : State :=
  let (v, s) := s.takeFresh
  let ls := (s.gcore n).dcache
  let s := match evicted (Config.freeNat v) ls.length with
    | some i => match ls[i]? with
      | some l => (s.writeBack n l).dropLine n l.addr
      | none => s
    | none => s
  s.modGcore n fun c => { c with dcache := c.dcache ++ [x] }

/-- Bring the line of a physical address into the data cache; none where an uncorrectable error elsewhere in the line
keeps it out. The access itself has passed. -/
def State.allocate (s : State) (n a : Nat) : Option CacheLine × State :=
  match s.dline n a with
  | some l => (some l, s)
  | none =>
    let base := a / 64 * 64
    if s.poisoned base 64 || !s.memOn base 64 then (none, s.memUncor base 64)
    else
      let x : CacheLine :=
        { addr := base, dirty := false
          bytes := if base < 0x40000 then (List.range 64).map fun i => Config.romByte (base + i)
                   else readBytes s.mem base 64 }
      (some x, s.fillDcache n x)

/-- A load of `k` bytes by supervisor core n at an aligned address: the value, or the exception (R118, R122, R123). -/
def State.loadG (s : State) (n va k : Nat) : Except Nat Nat × State :=
  let a := (s.gcore n).phys va
  if s.windowRefuses n va false then (.error xACCESS, s)
  else if !s.cachedData n va then
    match s.busLoad (iSUP n) a k with
    | ({ err := .ok, value := v }, s) => (.ok v, s)
    | ({ err := e, .. }, s) => (.error e.exc, s)
  else if !s.gateAllows (iSUP n) a k .load then (.error xACCESS, s.gateRefuse (iSUP n) a .load)
  else match s.dline n a with
    | some l => (.ok (natLE ((l.bytes.drop (a % 64)).take k)), s)
    | none =>
      match s.readMem (iSUP n) a k with
      | (.error e, s) => (.error e.exc, s)
      | (.ok bs, s) => (.ok (natLE bs), (s.allocate n a).2)

/-- A store of `k` bytes by supervisor core n at an aligned address: the exception, if any. -/
def State.storeG (s : State) (n va k v : Nat) : Option Nat × State :=
  let a := (s.gcore n).phys va
  if s.windowRefuses n va true then (some xACCESS, s)
  else if !s.cachedData n va then
    match s.busStore (iSUP n) a k v with
    | (.ok, s) => (none, s)
    | (e, s) => (some e.exc, s)
  else if !s.gateAllows (iSUP n) a k .store then (some xACCESS, s.gateRefuse (iSUP n) a .store)
  else if !s.memOn a k || !storable a k then (some xBUS, s)
  else match s.allocate n a with
    | (some l, s) =>
      (none, s.putLine n { l with dirty := true, bytes := overlayWrite l.addr l.bytes a k v })
    | (none, s) => (none, s.setMem a k v)

/-! ### LD, LDS, ST, SWAPW -/

/-- A word that SWAPW reaches: in the Stacks or supervisor local memory (R105). -/
def swapReach (a : Nat) : Bool :=
  (stacksBase ≤ a && a + 4 ≤ stacksBase + stacksSize) || (supBase 0 ≤ a && a + 4 ≤ supBase 0 + 2 * supSize)

/-! ### Cache operations (R116, R127) -/

/-- Write back the line of an address, if dirty; it stays, clean. -/
def State.cleanLine (n a : Nat) (s : State) : State :=
  match s.dline n a with
  | some l => (s.writeBack n l).putLine n { l with dirty := false }
  | none => s

end Sys2Proof.Machine
end

