-- ==== Sys2Proof/Machine/SysClk.lean ====
section
/-!
DEFINITION. The commands of the clock, of the whole device's resets and of the Junction (R5, R26, R30, R36–R42).
-/

namespace Sys2Proof.Machine

/-! ### Resets (R42, R471) -/

/-- A LIFE_CYCLE record of the change to `lc` stands in IDENT. -/
def State.lifeCycleWritten (s : State) (lc : Nat) : Bool :=
  (List.range 1024).any fun u =>
    s.memLE (unitAddr 1 u) 1 == 0x22 && s.memLE (unitAddr 1 u + 0x10) 2 == (lc - 1) + 256 * lc

/-! ### The Junction (R36–R40) -/

/-- The frame boundary at which a swap requested at `r` takes effect: the first after the JCT cycle of the request
(R38). -/
def swapEdge (r : Tick) : Tick := (r / 1024 + 1) * 1024

/-- The largest number of entries reserved on a port. -/
def rtMax (t : Tab SlotTable) : Nat := (t.map (·.2.n)).foldl max 0

/-- Entry e of a slot table: the one initiator it names, or none (R36). Which entries are reserved and for whom is a free
value (log entry 8). -/
def SlotTable.entry (x : SlotTable) (e : Nat) : Option Nat :=
  if (e + Config.freeNat x.key) % 64 < x.n then some (Config.freeNat (x.key + 1 + e)) else none

/-- What a JCT cycle of a port serves (R36, R37): the initiator of a reserved entry, the SRAM scrubber, or BE traffic. -/
inductive SlotUse64
  | rt (ini : Nat)
  | scrub
  | be
deriving DecidableEq, Repr

/-- The entry that each table stands at: one entry a JCT cycle from a frame's start (R36). -/
def slotIndex (t : Tick) : Nat := t / 16 % 64

/-- What the running JCT cycle of port p serves: a reserved entry its initiator, the last unreserved entry of the frame
the scrubber on the on-chip ports, any other BE traffic (R36, R37). -/
def State.slotServes (s : State) (p : Nat) : SlotUse64 :=
  let x := Tab.get {} s.jct.resv p
  match x.entry (slotIndex s.clk.tb) with
  | some i => .rt i
  | none =>
    let last := (List.range 64).reverse.find? fun e => (x.entry e).isNone
    if 2 ≤ p && last = some (slotIndex s.clk.tb) then .scrub else .be

end Sys2Proof.Machine
end

