-- ==== Sys2Proof/Machine/Time.lean ====
section
/-!
DEFINITION. The time operation that every command begins with: the clocks move to the command's time, and what the
blocks owe before it is done, edge by edge.
-/

namespace Sys2Proof.Machine

/-- The edges at which something is owed: what the sequencer does of itself (R138–R144), what PWR takes (R414) and mode
events (R43). -/
def State.dues (s : State) : List Tick := s.seqDues ++ s.pwr.reqs.map (·.due) ++ s.sys.events.map (·.due)

/-- The clocks move, and with them a copy of R148 in progress, the output of the lanes (R179) and the edges of the STEP
outputs (R304). -/
def State.moveTo (s : State) (t : Tick) : State := (s.clockTo t).copyStep.fxStep.stpStep

/-- Everything owed at one edge, which is over. -/
def State.settleEdge (s : State) (edge : Tick) : State := (((s.moveTo edge).seqEdge 10).pwrEdge edge).closeEdge edge

/-- More edges than can be owed: an entry waits for one load at most, and a commit owes its staged entries. -/
def State.dueCount (s : State) : Nat :=
  2 * s.dues.length + 2 * (s.sq.slots.map fun q => q.2.leaving.length +
    (match q.2.inst with | some i => i.staged.length | none => 0)).sum + 2

/-- Everything owed before `t`, edge by edge. -/
def State.settleTo (s : State) (t : Tick) : Nat → State
  | 0 => s
  | n + 1 => match s.dues with
    | [] => s
    | d :: ds =>
      let edge := ds.foldl min d
      if edge < t then (s.settleEdge edge).settleTo t n else s

/-- The time of a command (log entry 1): what was owed before it is done, and the clocks move to it. -/
def State.at (s : State) (t : Tick) : State :=
  (s.settleTo (s.clockTo t).now s.dueCount).moveTo t

/-- The time of a command that is taken at step `n` of R138 (log entry 94): what the steps before it leave at the same edge
is done. -/
def State.atStep (s : State) (t : Tick) (n : Nat) : State := (s.at t).seqEdge n

end Sys2Proof.Machine
end

