-- ==== Sys2Proof/Machine/AccessCmd.lean ====
section
/-!
DEFINITION. The commands of Machine/Access.lean.
-/

namespace Sys2Proof.Machine

/-- REGISTER_WRITE (R11–R16): a store of 2^size bytes of `v` to a register address. -/
def execRegisterWrite (t : Tick) (ini : Fin 7) (a : BitVec 32) (size : Fin 4) (v : BitVec 64) (s : State) :
    Host.Outcome State Fault Refusal :=
  let s := s.at t
  if inRegs a.toNat then
    let (e, s) := s.busStore ini a.toNat (2 ^ size.val) (v.toNat % 2 ^ (8 * 2 ^ size.val))
    .next (s.setAcc ini { err := e })
  else .next (s.setAcc ini { err := .bus })

end Sys2Proof.Machine
end

