-- ==== Sys2Proof/Machine/BackgroundCmd.lean ====
section
/-!
DEFINITION. The commands of Machine/Background.lean.
-/

namespace Sys2Proof.Machine

/-! ### The SRAM scrub (R482) -/

/-- SRAM_SCRUB_WORD (R482): what the word at `a` shows (0 nothing, 1 a correctable and 2 an uncorrectable error), and
whether it is the last of its pass. -/
def execSramScrubWord (t : Tick) (a : BitVec 32) (found : Fin 3) (last : Bool) (s : State) :
    Host.Outcome State Fault Refusal :=
  let s := s.at t
  if s.domOn 2 && s.fb Reg.BKG_CTRL 0 && s.scrubs a.toNat then
    let s :=
      if found.val = 2 || s.poison.contains a.toNat then s.scrubUncor a.toNat
      else if found.val = 1 then s.scrubCor a.toNat else s
    if last then
      .next ({ s with bkg := { s.bkg with passAt := s.now, late := false } }.setReg Reg.BKG_SRAM_PASSES
        (s.reg Reg.BKG_SRAM_PASSES + 1))
    else .next s
  else .next s

/-- PASS_LATE (R481). -/
def execPassLate (t : Tick) (s : State) : Host.Outcome State Fault Refusal :=
  let s := s.at t
  if s.domOn 2 && s.fb Reg.BKG_CTRL 0 && !s.bkg.late && s.bkg.passAt + 10000 * ms ≤ s.now then
    .next ({ s with bkg := { s.bkg with late := true } }.bkgEvent 3)
  else .next s

/-! ### DRAM (R473, R483, R501) -/

/-- DRAM_SCRUB_BURST (R483): what the devices report of the 64-byte burst at `a`. -/
def execDramScrubBurst (t : Tick) (a : BitVec 40) (found : Fin 3) (s : State) : Host.Outcome State Fault Refusal :=
  let s := s.at t
  let b := a.toNat / 64 * 64
  if s.domOn 2 && s.fb Reg.BKG_CTRL 1 && s.domOn 11 && s.dramReady && s.inDram b 64 then
    if found.val = 1 then .next (s.raise srcMEM 0)
    else if found.val = 2 then
      let ws := (List.range 8).map fun i => b + 8 * i
      .next ({ s with poison := ws ++ s.poison.filter fun w => !ws.contains w }.raise srcMEM 1)
    else .next s
  else .next s

/-- DDR_TRAINING_END (R501): on success the wipe starts. -/
def execDdrTrainingEnd (t : Tick) (ok : Bool) (s : State) : Host.Outcome State Fault Refusal :=
  let s := s.at t
  if s.domOn 11 && !s.dramReady && ok then .next { s with sys := { s.sys with wiping := true } } else .next s

/-- DRAM_WIPE_DONE (R473). -/
def execDramWipeDone (t : Tick) (s : State) : Host.Outcome State Fault Refusal :=
  let s := s.at t
  if s.domOn 11 && s.sys.wiping then
    .next ({ s with sys := { s.sys with wiping := false }
                    mem := wipeRange s.mem dramBase (dramBase + s.dramSize)
                    poison := s.poison.filter fun w => w < dramBase }.setB Reg.SEC_BOOT 8 true)
  else .next s

/-! ### Wear folds (R485) -/

/-- WEAR_FOLD (R485): every WEAR_S the stations of every VID domain that is on, and at any time those of a domain that
waits for its power-down. -/
def execWearFold (t : Tick) (s : State) : Host.Outcome State Fault Refusal :=
  let s := s.at t
  if !s.domOn 2 || !s.fb Reg.BKG_CTRL 4 then .next s
  else
    let due := decide (s.bkg.foldAt + s.f Reg.BKG_PERIODS 15 0 * (1000 * ms) ≤ s.now)
    let s := if due then { s with bkg := { s.bkg with foldAt := s.now } } else s
    .next ([7, 8, 9].foldl (fun s d =>
      if s.foldWaits d then s.foldLast d else if due && s.domOn d then s.foldDomain d else s) s)

/-! ### Telemetry (R486) -/

/-- TELEMETRY_SNAPSHOT (R486): a snapshot still waiting is written unsigned first. -/
def execTelemetrySnapshot (t : Tick) (s : State) : Host.Outcome State Fault Refusal :=
  let s := s.at t
  let due := s.bkg.telAt + s.f Reg.BKG_PERIODS 31 16 * ms ≤ s.now
  if !s.domOn 2 || !s.fb Reg.BKG_CTRL 5 || !due then .next s
  else
    let s := { s with bkg := { s.bkg with telAt := s.now } }
    let s := match s.bkg.tel with
      | some old =>
        ({ s with bkg := { s.bkg with tel := none } }.telWrite (old ++ List.replicate 64 0)).incSat Reg.BKG_TEL_CNT 15 0
      | none => s
    let snap := s.telSnapshot
    if s.fb Reg.BKG_CTRL 6 && s.sec.otp.key.isSome then .next { s with bkg := { s.bkg with tel := some snap } }
    else .next (s.telWrite (snap ++ List.replicate 64 0))

end Sys2Proof.Machine
end

