-- ==== Sys2Proof/Machine/CoreMapCmd.lean ====
section
/-!
DEFINITION. The commands of Machine/CoreMap.lean.
-/

namespace Sys2Proof.Machine

/-- CORE_MAP_WRITE (R146, R147). -/
def execCoreMapWrite (t : Tick) (l : Fin 20) (w : Word) (s : State) : Host.Outcome State Fault Refusal :=
  let s := s.at t
  if s.domOn 2 then .next (s.coreMapWrite l w) else .next s

/-- SUBST_SAFE_POINT (R148): at the safe point q halts and p's group is powered; with the group ON, the copy or the
binding follows. The row is given again once a group that was off is ON. -/
def execSubstSafePoint (t : Tick) (s : State) : Host.Outcome State Fault Refusal :=
  let s := s.at t
  match s.sq.subst with
  | none => .next s
  | some c =>
    match s.physOf c.logical with
    | none => .next s
    | some q =>
      if c.copying.isSome || !(c.reached || s.safePoint c.logical q) then .next s
      else match s.lostTarget c.phys with
      | some r => .next (s.substRefuse r)
      | none =>
        let s := if c.reached then s
          else { s with sq := { s.sq with subst := some { c with reached := true }, halted := q :: s.sq.halted.erase q } }
        let on := s.domOn (3 + c.phys / 6)
        if !on then .next (if c.reached then s else s.pwrPush (.on (3 + c.phys / 6)))
        else if c.copy then
          .next { s with sq := { s.sq with subst := some { c with reached := true, copying := some s.clk.tb } } }
        else .next (s.substDone c.logical q c.phys)

/-- SUBST_COPY_DONE (R148): 65,536 ticks after the copy began it ends and the binding follows; an error met by then has ended
it with COPY_ECC and the map unchanged. -/
def execSubstCopyDone (t : Tick) (s : State) : Host.Outcome State Fault Refusal :=
  let s := s.at t
  match s.sq.subst with
  | none => .next s
  | some c =>
    match c.copying, s.physOf c.logical with
    | some t0, some q =>
      if s.clk.tb < t0 + 65536 then .next s else .next (s.substDone c.logical q c.phys)
    | _, _ => .next s

end Sys2Proof.Machine
end

