-- ==== Sys2Proof/Machine/DmaCmd.lean ====
section
/-!
DEFINITION. The commands of Machine/Dma.lean.
-/

namespace Sys2Proof.Machine

/-! ### Rings -/

/-- DESCRIPTOR_FETCH (R361). -/
def execDescriptorFetch (t : Tick) (s : State) : Host.Outcome State Fault Refusal :=
  let s := s.at t
  if !s.domOn 2 then .next s
  else
    let cs := s.fetchOrder.filter s.dmaFetches
    .next (cs.foldl (fun s c => if s.dmaOutstanding < 128 then s.dmaFetch c else s) s)

/-- DMA_RING_HEAD_WRITE (R360, R361). -/
def execDmaRingHeadWrite (t : Tick) (c : Fin 32) (w : Word) (s : State) : Host.Outcome State Fault Refusal :=
  let s := s.at t
  if s.domOn 2 then .next (s.dmaHeadWrite c w) else .next s

/-! ### Stopping (R371) -/

/-- DMA_EN_WRITE (R371). -/
def execDmaEnWrite (t : Tick) (c : Fin 32) (en : Bool) (s : State) : Host.Outcome State Fault Refusal :=
  let s := s.at t
  if s.domOn 2 then .next (s.dmaSetEn c en) else .next s

/-! ### Moving units (R364, R367, R368, R433) -/

/-- COPY (R364, R366, R367): a COPY descriptor is checked as it comes to execute, and moves up to `n` units more. -/
def execCopy (t : Tick) (c : Fin 32) (n : Nat) (hostErr : Bool) (s : State) : Host.Outcome State Fault Refusal :=
  .next ((s.at t).dmaExecute c 1 n hostErr)

/-- FILL (R364). -/
def execDmaFill (t : Tick) (c : Fin 32) (n : Nat) (hostErr : Bool) (s : State) : Host.Outcome State Fault Refusal :=
  .next ((s.at t).dmaExecute c 2 n hostErr)

/-- COMPARE (R364). -/
def execCompare (t : Tick) (c : Fin 32) (n : Nat) (hostErr : Bool) (s : State) : Host.Outcome State Fault Refusal :=
  .next ((s.at t).dmaExecute c 3 n hostErr)

/-! ### Completion (R369, R370) -/

/-- DESCRIPTOR_COMPLETE (R366, R369): a descriptor with a reserved OP, or that could not be read, also comes to its
record here. -/
def execDescriptorComplete (t : Tick) (c : Fin 32) (s : State) : Host.Outcome State Fault Refusal :=
  let s := s.at t
  if !s.domOn 2 then .next s
  else
    let x := s.dmaCh c
    let s := if x.turn 1 || x.turn 2 || x.turn 3 then s else s.dmaBegin c
    .next (s.dmaComplete c)

/-- DMA_CQ_TAIL_WRITE (R369). -/
def execDmaCqTailWrite (t : Tick) (c : Fin 32) (w : Word) (s : State) : Host.Outcome State Fault Refusal :=
  let s := s.at t
  if s.domOn 2 then .next (s.dmaCqTail c w) else .next s

/-- DMA_ABORT (R371). -/
def execDmaAbort (t : Tick) (c : Fin 32) (s : State) : Host.Outcome State Fault Refusal :=
  let s := s.at t
  if s.domOn 2 then .next (s.dmaAbort c) else .next s

end Sys2Proof.Machine
end

