-- ==== Sys2Proof/Machine/ExposureCmd.lean ====
section
/-!
DEFINITION. The commands of Machine/Exposure.lean.
-/

namespace Sys2Proof.Machine

/-! ### EXPOSE (R230) -/

/-- EXPOSE (R230, R231). -/
def execExpose (t : Tick) (k : Fin 128) (i : Nat) (s : State) : Host.Outcome State Fault Refusal :=
  let s := s.at t
  match s.take k i (fun a => isCmd 0x0C 1 a && a.unit ≤ 5 && s.vidOn a.unit) with
  | .notDue => .next s
  | .skipped s' => .next s'
  | .run a s =>
    let h := s.handle k
    match s.bindSheet a.act.unit h i a.act.param with
    | none => .next (s.applyS (Reg.EXP_LINE_PERIOD a.act.unit))
    | some s =>
      let s := s.report k i s.clk.tb
      if s.earlyScans a.act.unit h then .next (s.causeH h cACTION_LATE i) else .next s

/-! ### Frames (R253–R257) -/

/-- SCAN_FRAME_START (R236, R253, R257): the next bound scan's frame begins, or it fails RATE or TILE_LATE. -/
def execScanFrameStart (t : Tick) (st : Fin 6) (s : State) : Host.Outcome State Fault Refusal :=
  let s := s.at t
  match s.nextBound st with
  | none => .next s
  | some (x, b) =>
    let sof := s.sofOf st x
    if !s.vidOn st || s.clk.tb < sof then .next s
    else if x.inc1 < minInc || x.inc2 < minInc || s.sofEarly st sof then
      .next ((s.dropSet st x.k).linkCause st b.sheet kRATE 0 x.k)
    else if s.linkState st ≠ 3 || s.mode == .safe then .next (s.dropSet st x.k)
    else if min (x.b + 129) ((b.stop : Int) - 1) < s.filled st then .next (s.startFrame st x b sof)
    else .next ((s.dropSet st x.k).tileLate st b (s.filled st))

/-- COLUMN_DEADLINE_MISS (R236, R257): a column was not assembled by its deadline. -/
def execColumnDeadlineMiss (t : Tick) (st : Fin 6) (col : Nat) (s : State) : Host.Outcome State Fault Refusal :=
  let s := s.at t
  match (s.exps st).frame with
  | none => .next s
  | some f =>
    match f.set.binding with
    | none => .next s
    | some b =>
      if f.abort || s.ncol st ≤ col ||
         s.clk.tb * tk < f.set.edge col - s.f (Reg.XLK_LAT st) 19 0 * 2 ^ 20 - 1024 * tk then .next s
      else .next (s.tileLate st b (s.columnLine st col f.set b))

/-- FRAME_END (R235, R248, R253, R256, R259): EOF ends the frame; of an aborted frame an open number of blocks was sent
(log entry 101). -/
def execFrameEnd (t : Tick) (st : Fin 6) (s : State) : Host.Outcome State Fault Refusal :=
  let s := s.at t
  match (s.exps st).frame with
  | none => .next s
  | some f =>
    if !f.abort && !s.frameTime st f then .next s
    else match f.set.binding with
      | none => .next (s.modExp st fun e => { e with frame := none })
      | some b =>
        let (u, s) := if f.abort then s.takeFresh else (0, s)
        let n := if f.abort then f.cutAt u s.clk.tb else f.blocks.length
        let m := nextMultiple 66 s.clk.tb
        let s := (s.addOnTime st (f.onTime n)).incSat (Reg.XLK_CNT_FRAMES st) 31 0
        let s := s.sendEof st m f.abort (f.blocks.take n)
        let s := s.modExp st fun e =>
          { e with frame := none, eof := some (m, f.abort, laneCrcs (f.blocks.take n))
                   waiting := (e.waiting.filter fun w => !w.answered || s.clk.tb ≤ w.eof + 409600) ++
                     [{ k := f.set.k, sheet := b.sheet, eof := m }] }
        .next (s.readsDone st f.set.k b)

/-! ### Emitters and retirement (R242–R247) -/

/-- GAP_POINT (R243): class S writes, requested and automatic retirements, Δ, table loads, beam calibration. -/
def execGapPoint (t : Tick) (st : Fin 6) (s : State) : Host.Outcome State Fault Refusal :=
  let s := s.at t
  if !s.vidOn st || !s.noneBound st || !s.facetGap st then .next s
  else
    let old := s.refEmitter st
    let s := (s.applyGap st).takeRetire st
    let s := if s.fb (Reg.EXP_CTRL st) 2 then (List.range 32).foldl (fun s j => s.autoRetire st j) s else s
    let new := s.refEmitter st
    let s := match (s.exps st).inc1 with
      | some inc =>
        if new ≠ old then
          s.modScn st fun x => { x with delta := x.delta + roundUpDiv ((s.geomScan st new - s.geomScan st old) * inc) 64 }
        else s
      | none => s
    let s := if s.linkState st == 3 then s.sendOwed st else s
    .next (s.beamCal st)

/-- RETIRE_REQUEST (R247): a write of EXP_RETIRE is kept for the next gap point, or refused. -/
def execRetireRequest (t : Tick) (st : Fin 6) (w : Word) (s : State) : Host.Outcome State Fault Refusal :=
  let s := s.at t
  if s.vidOn st then .next (s.retireRequest st w) else .next s

/-! ### Link states and the spare lane (R261, R262) -/

/-- XLK_EN_WRITE (R261): EN starts the training of a link or takes it to OFF. -/
def execXlkEnWrite (t : Tick) (st : Fin 6) (en : Bool) (s : State) : Host.Outcome State Fault Refusal :=
  let s := s.at t
  if s.vidOn st then .next (s.writeXlkEn st en) else .next s

/-- TRAIN_TIMEOUT (R261). -/
def execTrainTimeout (t : Tick) (st : Fin 6) (s : State) : Host.Outcome State Fault Refusal :=
  let s := s.at t
  if s.linkState st = 1 ∧ (s.exps st).since + 19200000 ≤ s.clk.tb then .next (s.linkDown st kTRAIN (s.lastScan st))
  else .next s

/-- LOAD_TIMEOUT (R261). -/
def execLoadTimeout (t : Tick) (st : Fin 6) (s : State) : Host.Outcome State Fault Refusal :=
  let s := s.at t
  if s.linkState st = 2 ∧ (s.exps st).since + 6400000 ≤ s.clk.tb then .next (s.linkDown st kTABLE (s.lastScan st))
  else .next s

/-- LINK_STATUS_TIMEOUT (R261): 1,280,000 ticks in UP without a valid record. -/
def execLinkStatusTimeout (t : Tick) (st : Fin 6) (s : State) : Host.Outcome State Fault Refusal :=
  let s := s.at t
  if s.linkState st = 3 ∧ (s.exps st).lastRec.getD (s.exps st).since + 1280000 ≤ s.clk.tb then
    .next (s.linkDown st kNO_STATUS (s.lastScan st))
  else .next s

/-- XLK_FORCE_SUBST (R261). -/
def execXlkForceSubst (t : Tick) (st : Fin 6) (lane : Fin 4) (s : State) : Host.Outcome State Fault Refusal :=
  let s := s.at t
  if s.vidOn st then .next (s.wantSubst st lane) else .next s

/-- LANE_SUBSTITUTE (R262). -/
def execLaneSubstitute (t : Tick) (st : Fin 6) (s : State) : Host.Outcome State Fault Refusal :=
  let s := s.at t
  match (s.exps st).subst with
  | [] => .next s
  | lane :: _ =>
    if s.linkState st ≠ 3 || (s.exps st).frame.isSome || s.clk.tb < (s.exps st).tblEnd then .next s
    else
      let failed := s.physLane st lane
      let spare := s.physLane st 4
      let s := s.setF (Reg.XLK_LANE_MAP st) (3 * lane + 2) (3 * lane) spare
      let s := (s.setF (Reg.XLK_LANE_MAP st) 14 12 7).setB (Reg.XLK_STATUS st) 3 false
      let s := ((s.xlkIrq st 2).expEvent st 5).modExp st fun x =>
        { x with subst := [], crcHist := Tab.erase lane x.crcHist }
      .next (s.ldgRecord 2 0x13 1 (bytesLE 1 st ++ bytesLE 1 lane ++ bytesLE 1 failed ++ bytesLE 1 spare))

/-- TBL_LOAD (R250): the pulse tables are to be sent again at the next gap point. -/
def execTblLoad (t : Tick) (st : Fin 6) (s : State) : Host.Outcome State Fault Refusal :=
  let s := s.at t
  if s.vidOn st then .next (s.tblLoad st) else .next s

/-! ### Lighting (R206, R258) -/

/-- LIGHT_SEND (R258): the LIGHT block that SCN's state asks for, in UP and outside SAFE (R259, R261). -/
def execLightSend (t : Tick) (st : Fin 6) (sensor : Fin 3) (s : State) : Host.Outcome State Fault Refusal :=
  let s := s.at t
  if !s.vidOn st || s.linkState st ≠ 3 || s.mode == .safe then .next s
  else
    let m := nextMultiple 66 s.clk.tb
    let mk : Nat → Nat → Nat → Light := fun mode start len =>
      { mode := mode, emitter := s.refEmitter st, level := s.f (Reg.XLK_SYNC st) 7 0, start := start, len := len
        marker := m }
    let spin := s.scnState st == 1
    if spin != (s.exps st).cont then
      .next ((s.sendLight st (mk (if spin then 1 else 0) 0 0)).modExp st fun x => { x with cont := spin })
    else if s.scnState st < 2 then .next s
    else match s.lightDue st sensor m with
      | none => .next s
      | some (k, lo, hi) =>
        let (len, s) := s.fit 65536 (ceilDiv (hi - lo).toNat 64)
        .next ((s.sendLight st (mk 2 (lo - m).toNat len)).modExp st fun x =>
          { x with lit := Tab.insert sensor.val k x.lit })

/-! ### Status records (R263–R265) -/

/-- STATUS_RECORD (R263): a record of 128 bytes arrives; one with a wrong CRC is discarded, as is one that is no status
record of this station (log entry 30). -/
def execStatusRecord (t : Tick) (st : Fin 6) (bytes : List Byte) (s : State) : Host.Outcome State Fault Refusal :=
  let s := s.at t
  if !s.vidOn st then .next s
  else if bytes.length ≠ 128 || sliceLE bytes 0 1 ≠ 0x53 || sliceLE bytes 1 1 ≠ st.val ||
     crc32 (bytes.take 124) ≠ sliceLE bytes 0x7C 4 then .next (s.incSat (Reg.XLK_CNT_MISC st) 31 16)
  else
    let s := s.showRecord st bytes
    let s := (List.range 48).foldl (fun s e => s.wearOf st bytes e) s
    let faulty := (List.range 48).any fun e => (sliceLE bytes 0x10 6).testBit e && s.named st e
    let s := (List.range 48).foldl (fun s e => s.faultOf st bytes e) s
    .next ((s.beamResult st bytes).recordLink st bytes faulty)

/-- FRAME_STATUS_TIMEOUT (R264): a frame's sheet receives LINK NO_STATUS. -/
def execFrameStatusTimeout (t : Tick) (st : Fin 6) (s : State) : Host.Outcome State Fault Refusal :=
  let s := s.at t
  let isLate : SentFrame → Bool := fun w => !w.answered && w.eof + 409600 ≤ s.clk.tb
  let late := (s.exps st).waiting.filter isLate
  let s := s.modExp st fun x => { x with waiting := x.waiting.map fun w => if isLate w then { w with answered := true } else w }
  .next (late.foldl (fun s w => s.linkCause st w.sheet kNO_STATUS 0 w.k) s)

/-- LINK_CHECK (R266): reports its edge; a link that is not UP is LINK DOWN for the sheet. -/
def execLinkCheck (t : Tick) (k : Fin 128) (i : Nat) (s : State) : Host.Outcome State Fault Refusal :=
  let s := s.at t
  match s.take k i (fun a => isCmd 0x0D 1 a && a.unit ≤ 5 && s.vidOn a.unit) with
  | .notDue => .next s
  | .skipped s' => .next s'
  | .run a s =>
    let st := a.act.unit
    let h := s.handle k
    let s := s.report k i s.clk.tb
    if s.linkState st = 3 then .next s else .next (s.linkCause st h kDOWN 0 (s.lastScan st))

end Sys2Proof.Machine
end

