-- ==== Sys2Proof/Machine/FocCmd.lean ====
section
/-!
DEFINITION. The commands of Machine/Foc.lean.
-/

namespace Sys2Proof.Machine

/-! ### State changes at a period (R282–R284, R289) -/

/-- A time is a P_n of a channel (R272). -/
def State.pwmEdge (s : State) (c t : Nat) : Bool :=
  s.tpwm c = 0 || t % s.tpwm c = s.f (Reg.FOC_PWM_PHASE c) 20 0

/-- PWM_PERIOD (R274): at P_n the samples and estimates are taken, the latch acts, the state advances and the loop sets
the duties of the next period. With an invalid TPWM the bridge does not switch, but the latch takes and refuses commands
(R281). In CATCH only the zero vector is applied (R282). -/
def execPwmPeriod (t : Tick) (c : Fin 16) (sdu sdv : BitVec 766) (theta : BitVec 16) (omega : Int) (err : Nat) (s : State) :
    Host.Outcome State Fault Refusal :=
  let s := s.at t
  if !s.actOn || !s.pwmEdge c t then .next s
  else
    let s := s.applyAll [Reg.FOC_ILIM c, Reg.FOC_CUR_GAIN c, Reg.FOC_SPD_GAIN c, Reg.FOC_RAMP c]
    let iu := s.phaseCurrent c 3 sdu
    let iv := s.phaseCurrent c 4 sdv
    let s := (s.estimate c theta.toNat omega).measure c iu iv
    let s := if s.latchDue c t then s.latchCh c else s
    let s := s.advanceCh c err
    if s.focState c = fCATCH then .next (s.catchPeriod c iu iv)
    else if s.energised c then .next (((s.runRamp c).runLoop c iu iv).switchPeriod c)
    else .next s

/-! ### Commands -/

/-- FOC_CMD_START (R281): firmware's START, latched at a period boundary. -/
def execFocCmdStart (t : Tick) (c : Fin 16) (s : State) : Host.Outcome State Fault Refusal :=
  let s := s.at t
  if s.actOn then .next (s.focStart c {}) else .next s

/-- FOC_CMD_STOP (R284): firmware's STOP, latched at a period boundary. -/
def execFocCmdStop (t : Tick) (c : Fin 16) (s : State) : Host.Outcome State Fault Refusal :=
  let s := s.at t
  if s.actOn then .next (s.focStop c {}) else .next s

/-- FOC_CMD_COAST (R284): COAST turns the bridge off at once. -/
def execFocCmdCoast (t : Tick) (c : Fin 16) (s : State) : Host.Outcome State Fault Refusal :=
  let s := s.at t
  if s.actOn then .next (s.focCoast c) else .next s

/-- FOC_CMD_CLEAR (R284): firmware's CLEAR of a channel in FAULT. -/
def execFocCmdClear (t : Tick) (c : Fin 16) (s : State) : Host.Outcome State Fault Refusal :=
  let s := s.at t
  if s.actOn then .next (s.focClear c) else .next s

/-- FOC_TT_START (R293). -/
def execFocTtStart (t : Tick) (k : Fin 128) (i : Nat) (s : State) : Host.Outcome State Fault Refusal :=
  .next ((s.at t).focAction k i 1 fun s c q _ => s.focStart c q)

/-- FOC_TT_STOP (R293). -/
def execFocTtStop (t : Tick) (k : Fin 128) (i : Nat) (s : State) : Host.Outcome State Fault Refusal :=
  .next ((s.at t).focAction k i 2 fun s c q _ => s.focStop c q)

/-- FOC_TT_SPEED (R293). -/
def execFocTtSpeed (t : Tick) (k : Fin 128) (i : Nat) (s : State) : Host.Outcome State Fault Refusal :=
  .next ((s.at t).focAction k i 3 fun s c q a => s.ttRef c q (Reg.FOC_SPD_REF c) a.act.param)

/-- FOC_TT_TORQUE (R293). -/
def execFocTtTorque (t : Tick) (k : Fin 128) (i : Nat) (s : State) : Host.Outcome State Fault Refusal :=
  .next ((s.at t).focAction k i 4 fun s c q a => s.ttRef c q (Reg.FOC_IQ_REF c) (a.act.param % 65536))

/-- FOC_TT_COAST (R293). -/
def execFocTtCoast (t : Tick) (k : Fin 128) (i : Nat) (s : State) : Host.Outcome State Fault Refusal :=
  .next ((s.at t).focAction k i 5 fun s c q _ => s.ttCoast c q)

/-- START_ATTEMPT_TIMEOUT (R283). -/
def execStartAttemptTimeout (t : Tick) (c : Fin 16) (s : State) : Host.Outcome State Fault Refusal :=
  let s := s.at t
  let st := s.focState c
  if (st = fFIND ∨ st = fSTARTING) ∧ (s.focCh c).attemptAt + s.f (Reg.FOC_START c) 23 16 * cs ≤ s.clk.tb then
    .next (s.attemptFails c)
  else .next s

/-- RETRY_WAIT_EXPIRY (R283). -/
def execRetryWaitExpiry (t : Tick) (c : Fin 16) (s : State) : Host.Outcome State Fault Refusal :=
  let s := s.at t
  if s.focState c = fRETRY ∧ (s.focCh c).retryAt + s.f (Reg.FOC_START c) 31 24 * cs ≤ s.clk.tb then
    .next (s.enterFoc c fCATCH)
  else .next s

/-! ### The supply buses (R286, R287, R289) -/

/-- BUS_SAMPLE (R286, R287): the sample of bus b that the bits of BUSSD give, when the next one is due. -/
def execBusSample (t : Tick) (b : Fin 4) (sd : BitVec 94) (s : State) : Host.Outcome State Fault Refusal :=
  let s := s.at t
  if !s.actOn || !s.sampleDue b then .next s
  else
    let (v, s) := s.busVolts b sd
    let s := s.setF (Reg.FOC_BUS_STATUS b) 31 16 v
    let hy := s.f (Reg.FOC_BUS_CHOP b) 15 0
    let s := s.modBus b fun x =>
      { x with sampleAt := some s.clk.tb
               restrict := if s.vReg b ≤ v then true else if v + hy < s.vReg b then false else x.restrict }
    .next (s.busLadder b v)

/-- CHOP_TIMER_EXPIRY (R287): the check made once for each firing. -/
def execChopTimerExpiry (t : Tick) (b : Fin 4) (s : State) : Host.Outcome State Fault Refusal :=
  let s := s.at t
  match (s.focBus b).chopAt with
  | none => .next s
  | some t0 =>
    if s.busState b ≠ 1 ∨ s.clk.tb < t0 + s.f (Reg.FOC_BUS_TCHOP b) 31 0 then .next s
    else
      let s := s.modBus b fun x => { x with chopAt := none }
      if (s.focBus b).v0 < s.vBus b + s.f (Reg.FOC_BUS_CHOP b) 31 16 then .next (s.chopFault b) else .next s

/-- BUS_CLEAR (R287): CLEAR of a bus in CHOP_FAULT or LIMIT. -/
def execBusClear (t : Tick) (b : Fin 4) (s : State) : Host.Outcome State Fault Refusal :=
  let s := s.at t
  if s.actOn then .next (s.busClear b) else .next s

/-! ### Trips (R288) -/

/-- OVERCURRENT (R288): the bits of SDU and SDV of a channel show a phase current beyond IOC. -/
def execOvercurrent (t : Tick) (sd : Fin 16 × BitVec 31 × BitVec 31) (s : State) : Host.Outcome State Fault Refusal :=
  let s := s.at t
  if s.beyondIoc sd.1 sd.2.1 sd.2.2 then .next (s.focTrip sd.1 2) else .next s

/-- SD_LOSS (R288): one of SDU and SDV of a channel shows no transition in 64 cycles. -/
def execSdLoss (t : Tick) (sd : Fin 16 × BitVec 64 × BitVec 64) (s : State) : Host.Outcome State Fault Refusal :=
  let s := s.at t
  if silent sd.2.1 || silent sd.2.2 then .next (s.focTrip sd.1 3) else .next s

/-- ENGINE (R288): an error of its engine trips a channel. -/
def execEngine (t : Tick) (c : Fin 16) (s : State) : Host.Outcome State Fault Refusal := .next ((s.at t).focTrip c 7)

/-! ### The command pin (R291) -/

/-- CMD_PIN_EDGE (R291): an edge at time `x` of the channel's command pin. -/
def execCmdPinEdge (t : Tick) (c : Fin 16) (rising : Bool) (x : Nat) (s : State) : Host.Outcome State Fault Refusal :=
  let s := s.at t
  if !s.actOn then .next s
  else
    let y := s.focCh c
    let s := (s.setB (Reg.FOC_PIN_VAL c) 16 false).modCh c fun z =>
      { z with pinEdge := some x, pinHigh := rising, pinRise := if rising then some x else z.pinRise
               pinFall := if rising then z.pinFall else some x }
    match rising, y.pinRise with
    | true, some r =>
      let d := x - r
      if s.pinMode c = 3 then .next (s.setPinF c (q16 128000 d))
      else if s.pinMode c = 2 ∧ 64000 ≤ d ∧ d ≤ 6400000 then
        match y.pinFall with
        | some f => .next (if r ≤ f then s.setPinF c (q16 (f - r) d) else s)
        | none => .next s
      else .next s
    | _, _ => .next s

/-- PIN_LOST (R291): a DUTY pin without edges for 2 ms, or a FREQ pin without a rising edge for 10 ms. -/
def execPinLost (t : Tick) (c : Fin 16) (s : State) : Host.Outcome State Fault Refusal :=
  let s := s.at t
  let x := s.focCh c
  let mode := s.pinMode c
  let lost := (mode == 2 && x.pinEdge.getD 0 + 12800000 ≤ s.clk.tb) || (mode == 3 && x.pinRise.getD 0 + 64000000 ≤ s.clk.tb)
  if s.actOn && lost then
    let s := s.setPinF c (if mode = 2 && x.pinHigh then 0xFFFF else 0)
    if s.fb (Reg.FOC_PIN_VAL c) 16 then .next s
    else .next (((s.setB (Reg.FOC_PIN_VAL c) 16 true).focIrq c 4).raise srcFOC 5)
  else .next s

/-! ### Engine substitution (R271) -/

/-- FOC_ENG_SUBST_REQUEST (R271): an engine is to be replaced by a spare. -/
def execFocEngSubstRequest (t : Tick) (w : Word) (s : State) : Host.Outcome State Fault Refusal :=
  let s := s.at t
  if s.actOn then .next (s.engSubst w) else .next s

/-- FOC_ENG_SUBST_CANCEL (R271): a pending replacement ends. -/
def execFocEngSubstCancel (t : Tick) (s : State) : Host.Outcome State Fault Refusal :=
  let s := s.at t
  if s.actOn then .next s.engCancel else .next s

/-- ENGINE_SUBST_APPLY (R271): once the channel is OFF or FAULT. -/
def execEngineSubstApply (t : Tick) (s : State) : Host.Outcome State Fault Refusal :=
  let s := s.at t
  match s.foc.subst with
  | none => .next s
  | some (c, e) =>
    if s.actOn && (s.focState c = fOFF || s.focState c = fFAULT) then
      let old := s.f (Reg.FOC_ENG_MAP c) 4 0
      let s := (s.setF (Reg.FOC_ENG_MAP c) 4 0 e).setB Reg.FOC_ENG_FAIL old true
      let s := { s with foc := { s.foc with subst := none } }.engStatus 2
      .next (s.ldgRecord 2 0x11 1 (bytesLE 1 c ++ bytesLE 1 old ++ bytesLE 1 e))
    else .next s

end Sys2Proof.Machine
end

