-- ==== Sys2Proof/Machine/FuserCmd.lean ====
section
/-!
DEFINITION. The commands of Machine/Fuser.lean.
-/

namespace Sys2Proof.Machine

/-! ### Commands (R342, R348) -/

/-- FUS_ZCMD_ON (R342): firmware's ON of a zone. -/
def execFusZcmdOn (t : Tick) (z : Fin 8) (s : State) : Host.Outcome State Fault Refusal :=
  let s := s.at t
  if s.fusOn then .next (s.zoneOn z) else .next s

/-- FUS_ZCMD_OFF (R342): firmware's OFF of a zone. -/
def execFusZcmdOff (t : Tick) (z : Fin 8) (s : State) : Host.Outcome State Fault Refusal :=
  let s := s.at t
  if s.fusOn then .next (s.zoneOff z) else .next s

/-- FUS_ZCMD_CLEAR (R342): firmware's CLEAR of a zone in FAULT. -/
def execFusZcmdClear (t : Tick) (z : Fin 8) (s : State) : Host.Outcome State Fault Refusal :=
  let s := s.at t
  if s.fusOn then .next (s.zoneClear z) else .next s

/-- SETPOINT (R348). -/
def execSetpoint (t : Tick) (k : Fin 128) (i : Nat) (s : State) : Host.Outcome State Fault Refusal :=
  let s := s.at t
  match s.take k i (fun a => isCmd 0x11 1 a && a.unit ≤ 7 && s.fusOn) with
  | .notDue => .next s
  | .skipped s' => .next s'
  | .run a s =>
    let z := a.act.unit
    .next ((((s.report k i s.clk.tb).hold (Reg.FUS_SP z) (BitVec.ofNat 32 (a.act.param % 65536)))).modZone z
      fun x => { x with ttSp := some s.clk.tb })

/-- FUS_TT_ON (R348): a refused ON is not reported. -/
def execFusTtOn (t : Tick) (k : Fin 128) (i : Nat) (s : State) : Host.Outcome State Fault Refusal :=
  let s := s.at t
  match s.take k i (fun a => isCmd 0x11 2 a && a.unit ≤ 7 && s.fusOn) with
  | .notDue => .next s
  | .skipped s' => .next s'
  | .run a s =>
    let z := a.act.unit
    if s.onRefused z then .next (s.zoneOn z) else .next ((s.report k i s.clk.tb).zoneOn z)

/-- FUS_TT_OFF (R348). -/
def execFusTtOff (t : Tick) (k : Fin 128) (i : Nat) (s : State) : Host.Outcome State Fault Refusal :=
  let s := s.at t
  match s.take k i (fun a => isCmd 0x11 3 a && a.unit ≤ 7 && s.fusOn) with
  | .notDue => .next s
  | .skipped s' => .next s'
  | .run a s => .next ((s.report k i s.clk.tb).zoneOff a.act.unit)

/-! ### The control period (R343, R344, R347, R349, R350) -/

/-- FUSER_CONTROL_PERIOD (R343): the end t_c of a control period of every zone. -/
def execFuserControlPeriod (t : Tick) (s : State) : Host.Outcome State Fault Refusal :=
  let s := s.at t
  if !s.fusOn || t % s.ctlPeriod ≠ 0 then .next s
  else
    let s := (List.range 8).foldl State.zonePeriod s
    .next { s with fus := { s.fus with lastTc := s.clk.tb } }.readySub

/-! ### Mains cycles (R345, R346) -/

/-- ZC_EDGE (R345): the levels of ball ZC at the ACT edges since the last such command, each with the number of edges that it
stood for, up to the last edge at or before now. -/
def execZcEdge (t : Tick) (ls : List (Bool × Nat)) (s : State) : Host.Outcome State Fault Refusal :=
  let s := s.at t
  if s.fusOn then .next (s.zcSamples ls) else .next s

/-- ZC_LOSS (R345): no edge for 2 × T_m. -/
def execZcLoss (t : Tick) (s : State) : Host.Outcome State Fault Refusal :=
  let s := s.at t
  match s.fus.edge with
  | none => .next s
  | some e =>
    if s.fusOn && !s.fus.lost && s.fus.ivals.length = 8 && e + 2 * (s.reg Reg.FUS_MAINS).toNat ≤ s.clk.tb then
      .next ({ s with fus := { s.fus with lost := true } }.zcLost)
    else .next s

/-! ### The over-temperature cut-off (R351) -/

/-- OT_SAMPLE (R351): a comparator sample of zone z in AON. -/
def execOtSample (t : Tick) (z : Fin 8) (code : BitVec 12) (s : State) : Host.Outcome State Fault Refusal :=
  let s := s.at t
  let c := code.toNat
  let th := s.f (Reg.FUS_OT z) 11 0
  let beyond := s.fb (Reg.FUS_OT z) 13 && (if s.fb (Reg.FUS_OT z) 12 then decide (c ≤ th) else decide (th ≤ c))
  if beyond then
    let n := (s.fusZone z).ot + 1
    let s := s.modZone z fun x => { x with ot := min 64 n }
    if n = 64 then .next (s.otCut z) else .next s
  else .next (s.modZone z fun x => { x with ot := 0 })

end Sys2Proof.Machine
end

