-- ==== Sys2Proof/Machine/FxCmd.lean ====
section
/-!
DEFINITION. The commands of Machine/Fx.lean.
-/

namespace Sys2Proof.Machine

/-! ### Band streams -/

/-- STREAM (R183): the action is reported at its edge, also when it then fails (log entry 23). -/
def execStream (t : Tick) (k : Fin 128) (i : Nat) (s : State) : Host.Outcome State Fault Refusal :=
  let s := s.at t
  match s.take k i (fun a => a.blockCmd && a.block == 0x0A && a.unit ≤ 5 && s.decOn) with
  | .notDue => .next s
  | .skipped s' => .next s'
  | .run a s' =>
    let s := s'.report k i s'.clk.tb
    .next ((s.runStream (s.handle k) a.act.unit a.act.cmd a.act.param).settle settleFuel)

/-- BAND_TILE_START (R181): an idle lane takes the first startable band tile. -/
def execBandTileStart (t : Tick) (lane : Fin 12) (s : State) : Host.Outcome State Fault Refusal :=
  let s := s.at t
  if s.decOn && (s.lane lane).isIdle && s.bandRoom then
    match s.firstTile with
    | none => .next s
    | some (st, _, x) =>
      let row := x.next / 12
      let col := x.next % 12
      let (r, s') := s.planeTile x.plane x.cols st col (x.row0 + row)
      let s := s'.setLane lane
        (.band { st := st, ln0 := x.ln0, row := row, col := col, run := { since := s.clk.tb, res := some r } })
      .next (s.setStreams st ((s.fxStreams st).map fun y => if y.ln0 = x.ln0 then { y with next := y.next + 1 } else y))
  else .next s

/-! ### Tiles complete or fail -/

/-- TILE_COMPLETE (R179, R187): the tile on the lane is complete and valid. -/
def execTileComplete (t : Tick) (lane : Fin 12) (s : State) : Host.Outcome State Fault Refusal :=
  let s := s.at t
  match s.lane lane with
  | .band b => .next (s.completeBand lane b)
  | .job j => if j.record.isSome then .next s else .next (s.completeJobTile lane j)
  | _ => .next s

/-- TILE_DECODE_ERROR (R177, R178, R188): the tile on the lane reports its error. -/
def execTileDecodeError (t : Tick) (lane : Fin 12) (s : State) : Host.Outcome State Fault Refusal :=
  let s := s.at t
  match s.lane lane with
  | .band b => .next (s.failBand lane b)
  | .job j => if j.record.isSome then .next s else .next (s.failJobTile lane j)
  | _ => .next s

/-! ### Jobs are taken (R190, R191, R195) -/

/-- JOB_DECODE (R190, R191): a lane takes a job that is no RESUME; a malformed one ends DESC. The TAG of a descriptor
that cannot be read is open. -/
def execJobDecode (t : Tick) (lane : Fin 12) (s : State) : Host.Outcome State Fault Refusal :=
  let s := s.at t
  if s.jobRoom lane then
    match s.readJob with
    | (.error e, s) =>
      let (u, s) := s.takeFresh
      let d := bytesLE 4 0 ++ bytesLE 4 (Config.freeNat u) ++ bytesLE 56 0
      .next (s.jobTaken.endJob lane { desc := d, base := d } e none)
    | (.ok d, s1) =>
      if sliceLE d 0 1 = 2 then .next s
      else
        let j : JobRun := { desc := d, base := d, nextDesc := sliceLE d 0x18 5 }
        if decodeOk d then
          let (j, s2) := s1.jobTaken.beginTile j
          .next (s2.setLane lane (.job j))
        else .next (s1.jobTaken.endJob lane j 2 none)
  else .next s

/-- JOB_RESUME (R191, R195): a lane takes a RESUME job and continues the saved job from its image. -/
def execJobResume (t : Tick) (lane : Fin 12) (s : State) : Host.Outcome State Fault Refusal :=
  let s := s.at t
  if s.jobRoom lane then
    match s.readJob with
    | (.error _, _) => .next s
    | (.ok d, s1) =>
      if sliceLE d 0 1 ≠ 2 then .next s
      else
        let j : JobRun := { desc := d, base := d, resumed := true }
        if !resumeOk d then .next (s1.jobTaken.endJob lane j 2 none)
        else match s1.readMem iFX (sliceLE d 8 5) imageBytes with
          | (.error e, s2) => .next (s2.jobTaken.endJob lane j (statusOf e) none)
          | (.ok img, s2) => match s2.savedJob img with
            | none => .next (s2.jobTaken.endJob lane j 2 none)
            | some k =>
              let s3 := s2.keepHistory lane 0 (img.drop 128)
              .next (s3.jobTaken.setLane lane (.job (k.resumeFrom d s.clk.tb)))
  else .next s

/-! ### Suspend, resume, save, abort (R194–R196) -/

/-- LANE_SUSPEND (R194): the output buffer is full, its NEXT has read 0, and output remains. -/
def execLaneSuspend (t : Tick) (lane : Fin 12) (s : State) : Host.Outcome State Fault Refusal :=
  let s := s.at t
  match s.lane lane with
  | .job j => .next (if j.record.isNone && j.stuck && !j.written then s.suspendLane lane j else s)
  | _ => .next s

/-- LANE_RESUME (R194): a write of FX_LANE_RESUME names the next buffer of a suspended lane. -/
def execLaneResume (t : Tick) (lane : Fin 12) (w : Word) (s : State) : Host.Outcome State Fault Refusal :=
  let s := s.at t
  if s.domOn 10 then .next (s.resumeLane lane w) else .next s

/-- LANE_SAVE (R195): a suspended job is to be saved. -/
def execLaneSave (t : Tick) (lane : Fin 12) (s : State) : Host.Outcome State Fault Refusal :=
  let s := s.at t
  if s.domOn 10 then .next (s.laneSave lane) else .next s

/-- SAVE_COMPLETE (R195): the image is written, and the job ends SAVED, or ABORTED by an ABORT during the save. -/
def execSaveComplete (t : Tick) (lane : Fin 12) (s : State) : Host.Outcome State Fault Refusal :=
  let s := s.at t
  match s.lane lane with
  | .saving j abort =>
    let st := stateBytes s.fx.saved.length s.fresh
    let s := { s with fresh := s.fresh + 52 }
    let head := j.desc ++ st
    let img := head ++ bytesLE 4 (crc32 head) ++ readBytes s.mem (windowOf lane) 32768
    let a := (s.reg (Reg.FX_LANE_SAVE lane)).toNat * 64
    let s := { s with fx := { s.fx with saved := s.fx.saved ++ [({ bytes := st, job := j } : SavedJob)] } }
    if s.bufPlace a imageBytes then
      match s.writeMem iFX a img with
      | (some e, s) => .next ((s.endJob lane j (statusOf e) none).completeNext)
      | (none, s) => .next ((s.endJob lane j (if abort then 6 else 7) none).completeNext)
    else .next ((s.endJob lane j 4 none).completeNext)
  | _ => .next s

/-- LANE_ABORT (R196): a job is to end ABORTED. -/
def execLaneAbort (t : Tick) (lane : Fin 12) (s : State) : Host.Outcome State Fault Refusal :=
  let s := s.at t
  if s.domOn 10 then .next (s.laneAbort lane) else .next s

/-- JOB_COMPLETE (R197): the next record is written to the ring, or held while it is full. -/
def execJobComplete (t : Tick) (s : State) : Host.Outcome State Fault Refusal :=
  .next (s.at t).completeNext

/-- FX_CQ_TAIL_WRITE (R197): records that wait for the completion ring are written. -/
def execFxCqTailWrite (t : Tick) (w : Word) (s : State) : Host.Outcome State Fault Refusal :=
  let s := s.at t
  if s.domOn 10 then .next (s.fxTailWrite w) else .next s

end Sys2Proof.Machine
end

