-- ==== Sys2Proof/Machine/HostIfCmd.lean ====
section
/-!
DEFINITION. The commands of Machine/HostIf.lean.
-/

namespace Sys2Proof.Machine

/-! ### Requests (R431, R432) -/

/-- HOST_WRITE (R431): a memory write of `data` at an offset of BAR0 or BAR2. -/
def execHostWrite (t : Tick) (bar2 : Bool) (o : BitVec 26) (data : List Byte) (s : State) :
    Host.Outcome State Fault Refusal :=
  let s := s.at t
  let n := data.length
  let o := o.toNat
  if !s.dlUp then .next s
  else if bar2 then
    let (e, s) := s.busStore iHOST (stacksBase + o % 0x800000) n (natLE data)
    let s := s.setAcc iHOST { err := e }
    if e = .ok then .next s else .next (s.hostRefuse true false o)
  else if o < 0x1A00000 then
    let (e, s) := s.busStore iHOST (0x20000000 + o) n (natLE data)
    let s := s.setAcc iHOST { err := e }
    if e = .ok then .next s else .next (s.hostRefuse false false o)
  else if 0x3000000 ≤ o && o + n ≤ 0x3000400 then
    .next ((s.msixWrite (o - 0x3000000) data).setAcc iHOST {})
  else if 0x3001000 ≤ o && o + n ≤ 0x3001008 then .next (s.setAcc iHOST {})
  else .next ((s.setAcc iHOST { err := .unsupported }).hostRefuse false false o)

/-- HOST_READ (R431): a memory read of `n` bytes. -/
def execHostRead (t : Tick) (bar2 : Bool) (o : BitVec 26) (n : Nat) (s : State) : Host.Outcome State Fault Refusal :=
  let s := s.at t
  let o := o.toNat
  if !s.dlUp then .next s
  else if bar2 then
    let (r, s) := s.busLoad iHOST (stacksBase + o % 0x800000) n
    let s := s.setAcc iHOST r
    if r.err = .ok || r.err = .ecc then .next s else .next (s.hostRefuse true true o)
  else if o < 0x1A00000 then
    let (r, s) := s.busLoad iHOST (0x20000000 + o) n
    let s := s.setAcc iHOST r
    if r.err = .ok then .next s else .next (s.hostRefuse false true o)
  else if 0x3000000 ≤ o && o + n ≤ 0x3000400 then
    .next (s.setAcc iHOST { value := sliceLE s.msixBytes (o - 0x3000000) n })
  else if 0x3001000 ≤ o && o + n ≤ 0x3001008 then
    .next (s.setAcc iHOST { value := s.msixPending / 2 ^ (8 * (o - 0x3001000)) % 2 ^ (8 * n) })
  else .next ((s.setAcc iHOST { err := .unsupported }).hostRefuse false true o)

/-! ### The link (R430, R435) -/

/-- PCIE_LINK_UP (R430): the link reaches DL_Active; the last operands are what the host's configuration leaves: Bus
Master Enable, MSI-X enable, the function mask and D3hot (the configuration space has no row of its own). -/
def execPcieLinkUp (t : Tick) (speed : Fin 8) (width : Fin 16) (bme msix mask d3 : Bool) (s : State) :
    Host.Outcome State Fault Refusal :=
  let s := s.at t
  if s.domOn 12 && !s.hst.perst && s.fb Reg.HST_CTRL 0 then
    let s := ((s.setB Reg.HST_STATUS 0 true).setF Reg.HST_STATUS 3 1 speed).setF Reg.HST_STATUS 7 4 width
    let s := ((s.setB Reg.HST_STATUS 8 bme).setB Reg.HST_STATUS 10 d3).setB Reg.HST_STATUS 11 msix
    .next { s with hst := { s.hst with fnMask := mask } }
  else .next s

/-- PERST_N (R435): the level of the ball; low holds HST at its BRST values. -/
def execPerstN (t : Tick) (low : Bool) (s : State) : Host.Outcome State Fault Refusal :=
  let s := s.at t
  let s := { s with hst := { s.hst with perst := low } }
  if low then .next (s.hstReset keepBrst) else .next (s.setB Reg.HST_STATUS 9 false)

/-- LINK_DOWN (R435). -/
def execLinkDown (t : Tick) (s : State) : Host.Outcome State Fault Refusal :=
  let s := s.at t
  if s.domOn 12 then .next s.hstLinkDown else .next s

/-- FLR (R435). -/
def execFlr (t : Tick) (s : State) : Host.Outcome State Fault Refusal :=
  let s := s.at t
  if s.dlUp then
    let s := ((s.setB Reg.HST_STATUS 8 false).setB Reg.HST_STATUS 10 false).setB Reg.HST_STATUS 11 false
    let s := { s with hst := { s.hst with fnMask := false, table := [], pending := [] } }
    .next (((s.setB Reg.HST_IRQ_STATUS 4 true).raise srcHST 3).endHostDma)
  else .next s

/-! ### MSI-X (R434) -/

/-- MSIX_VECTOR_SEND (R434): the condition of vector v is evaluated; a rise sends it, and so does its pending bit once it
is unmasked. -/
def execMsixVectorSend (t : Tick) (v : Fin 64) (s : State) : Host.Outcome State Fault Refusal :=
  let s := s.at t
  if !s.domOn 12 then .next s
  else
    let now := s.vectorCond v
    let was := s.hst.cond.contains v.val
    let s := { s with hst := { s.hst with cond := if now && !was then v.val :: s.hst.cond
                                                  else if was && !now then s.hst.cond.erase v.val else s.hst.cond } }
    if (now && !was) || s.hst.pending.contains v.val then .next (s.sendVector v) else .next s

/-- HST_MSIX_REARM (R434). -/
def execHstMsixRearm (t : Tick) (v : Fin 64) (s : State) : Host.Outcome State Fault Refusal :=
  let s := s.at t
  if s.domOn 12 && !s.hst.perst then .next (s.rearm v) else .next s

/-- HST_DB_SET (R434). -/
def execHstDbSet (t : Tick) (hi : Bool) (w : Word) (s : State) : Host.Outcome State Fault Refusal :=
  let s := s.at t
  if s.domOn 12 && !s.hst.perst then .next (s.dbSet hi w) else .next s

end Sys2Proof.Machine
end

