-- ==== Sys2Proof/Machine/HvCmd.lean ====
section
/-!
DEFINITION. The commands of Machine/Hv.lean.
-/

namespace Sys2Proof.Machine

/-! ### Values and ramps (R335) -/

/-- HV_RAMP_WRITE (R335): a write of a unit's ramp register starts a ramp. -/
def execHvRampWrite (t : Tick) (u : Fin 28) (w : Word) (s : State) : Host.Outcome State Fault Refusal :=
  let s := s.at t
  if s.hvOn then .next (s.hvRampWrite u w) else .next s

/-- RAMP (R336, R340): reported and skipped in SAFE, not reported while SAFE_ACTIVE outlasts it. -/
def execRamp (t : Tick) (k : Fin 128) (i : Nat) (s : State) : Host.Outcome State Fault Refusal :=
  let s := s.at t
  match s.take k i (fun a => isCmd 0x10 1 a && a.unit ≤ 27 && s.hvOn) with
  | .notDue => .next s
  | .skipped s' => .next s'
  | .run a s =>
    if s.mode == .safe then .next ((s.incSat Reg.HV_CNT 31 16).report k i s.clk.tb)
    else if s.hvSafeActive then .next s
    else
      let u := a.act.unit
      let s := (s.report k i s.clk.tb).startRamp u (nbits a.act.param 15 0) (nbits a.act.param 31 16)
      .next (s.modHv u fun x => { x with ttAt := some s.clk.tb })

/-! ### SAFE ramp-down (R340) -/

/-- SAFE_STAGE_TIMEOUT (R340). -/
def execSafeStageTimeout (t : Tick) (s : State) : Host.Outcome State Fault Refusal :=
  let s := s.at t
  if s.hvOn && s.hvSafeActive && !s.hv.ended && s.hv.stageAt + max 1 (s.f Reg.HV_SAFE_CFG 15 0) * ms ≤ s.clk.tb then
    .next ((s.setB Reg.HV_IRQ_STATUS 1 true).raise srcHV 1).endStage
  else .next s

/-- HV_PERIOD (R334, R335, R340): a period boundary of every unit. -/
def execHvPeriod (t : Tick) (s : State) : Host.Outcome State Fault Refusal :=
  let s := s.at t
  if !s.hvOn || t % hvPeriod ≠ 0 then .next s
  else
    let s := (List.range 24).foldl (fun s u => s.applyAll [Reg.HV_WIN u, Reg.HV_SGAIN u]) s
    let s := { s with hv := { s.hv with last := none } }
    let s := if s.hvSafeActive && s.hv.ended then s.beginStage (s.f Reg.HV_STATUS 2 0 + 1) else s
    let s := (List.range 28).foldl State.rampStepHv s
    .next { s with hv := { s.hv with last := some s.clk.tb } }.checkStage

/-! ### AC generators (R337) -/

/-- AC_UPDATE (R337): an update of every generator. -/
def execAcUpdate (t : Tick) (s : State) : Host.Outcome State Fault Refusal :=
  let s := s.at t
  if s.hvOn && t % 8192 = 0 then .next ((List.range 4).foldl (fun s g => s.acUpdate (t / 8192) g) s) else .next s

/-! ### Sense windows (R338, R339) -/

/-- ADC_RESULT (R333): the code of channel n, sampled 3,200 ticks before. -/
def execAdcResult (t : Tick) (n : Fin 64) (code : BitVec 12) (s : State) : Host.Outcome State Fault Refusal :=
  let s := s.at t
  let ts := t - 3200
  if !s.hvOn || ts % 51200 ≠ 3200 * (n.val % 16) then .next s
  else
    let s := s.setReg (Reg.SNS_AN n) (BitVec.ofNat 32 (code.toNat + 2 ^ 16 * (ts / 51200 % 65536)))
    if n.val < 24 then .next (s.hvSample n code.toNat ts)
    else if n.val < 32 then
      let z := n.val - 24
      if ts < s.fus.lastTc then .next s
      else
        let x := Tab.get {} s.fus.zone z
        .next { s with fus := { s.fus with zone := Tab.put {} s.fus.zone z
                                            { x with sum := x.sum + code.toNat, cnt := x.cnt + 1 } } }
    else .next s

end Sys2Proof.Machine
end

