-- ==== Sys2Proof/Machine/LedgerCmd.lean ====
section
/-!
DEFINITION. The commands of Machine/Ledger.lean.
-/

namespace Sys2Proof.Machine

/-! ### Unit writes (R477) -/

/-- LEDGER_UNIT_WRITE (R477, R480): whether the unit reads back right at once, and at the second write. -/
def execLedgerUnitWrite (t : Tick) (first second : Bool) (s : State) : Host.Outcome State Fault Refusal :=
  let s := s.at t
  if s.domOn 1 then .next (s.ldgUnit first second) else .next s

/-! ### Appends (R478) -/

/-- LDG_APP (R478). -/
def execLdgApp (t : Tick) (w : Word) (s : State) : Host.Outcome State Fault Refusal :=
  let s := s.at t
  if s.domOn 1 then .next (s.ldgApp (bits w 7 0)) else .next s

end Sys2Proof.Machine
end

