-- ==== Sys2Proof/Machine/LineNetCmd.lean ====
section
/-!
DEFINITION. The commands of Machine/LineNet.lean.
-/

namespace Sys2Proof.Machine

/-! ### Ports (R439, R442) -/

/-- LINE_EN_WRITE (R439). -/
def execLineEnWrite (t : Tick) (en : Bool) (s : State) : Host.Outcome State Fault Refusal :=
  let s := s.at t
  if s.lineOn then .next (s.lineEnable en) else .next s

/-- PORT_UP (R439). -/
def execPortUp (t : Tick) (port : Fin 2) (s : State) : Host.Outcome State Fault Refusal :=
  let s := s.at t
  if s.lineOn && s.portState port = pTRAIN && s.clk.tb ≤ (s.port port).since + 6400000 then
    .next (s.movePort port pUP).sendJoin
  else .next s

/-- PORT_TRAIN_TIMEOUT (R439). -/
def execPortTrainTimeout (t : Tick) (port : Fin 2) (s : State) : Host.Outcome State Fault Refusal :=
  let s := s.at t
  if s.lineOn && s.portState port = pTRAIN && (s.port port).since + 6400000 ≤ s.clk.tb then
    .next (s.movePort port pDOWN)
  else .next s

/-- PORT_BREAK (R439): lock is lost, or 16 of the last 1,024 frames failed their CRC. -/
def execPortBreak (t : Tick) (port : Fin 2) (lost : Bool) (s : State) : Host.Outcome State Fault Refusal :=
  let s := s.at t
  if s.lineOn && s.portState port = pUP && (lost || 16 ≤ ((s.port port).recent.filter id).length) then
    .next (((s.setPort port (s.port port).cleared).movePort port pDOWN).lineEvent 0)
  else .next s

/-- PORT_RETRAIN (R439). -/
def execPortRetrain (t : Tick) (port : Fin 2) (s : State) : Host.Outcome State Fault Refusal :=
  let s := s.at t
  if s.lineOn && s.portState port = pDOWN && s.fb Reg.LINE_CTRL 0 && (s.port port).since + 64000000 ≤ s.clk.tb then
    .next (s.movePort port pTRAIN)
  else .next s

/-- LINE_FRAME_CRC_FAIL (R438). -/
def execLineFrameCrcFail (t : Tick) (port : Fin 2) (s : State) : Host.Outcome State Fault Refusal :=
  let s := s.at t
  if s.lineOn && s.portState port = pUP then
    .next (((s.noteFrame port true).incSat Reg.LINE_CNT_A 15 0).lineEvent 4)
  else .next s

/-! ### Joins (R442) -/

/-- JOIN (R440, R442). -/
def execJoin (t : Tick) (port : Fin 2) (origin hops : BitVec 10) (p0 p1 : BitVec 64) (s : State) :
    Host.Outcome State Fault Refusal :=
  let s := s.at t
  let f : Frame := { type := ftJOIN, origin := origin.toNat, hops := hops.toNat, p0 := p0.toNat, p1 := p1.toNat }
  let dup := s.portTakes port && origin.toNat = s.lineId && p1.toNat ≠ State.unitId
  let s := s.broadcast port f fun s => s.joined origin.toNat (p0.toNat % 65536)
  if dup then .next ((s.setB Reg.LINE_STATUS 10 true).lineEvent 2) else .next s

/-! ### Line time (R444–R447) -/

/-- DELAY_REQ_SEND (R444): once per sync interval on an UP port. -/
def execDelayReqSend (t : Tick) (port : Fin 2) (s : State) : Host.Outcome State Fault Refusal :=
  let s := s.at t
  let x := s.port port
  let due := match x.lastReq with
    | none => true
    | some l => decide (l + s.syncInt ≤ s.clk.tb)
  if s.portTakes port && s.lineOriginates && s.lineJoined && due then
    let s := s.setPort port { x with lastReq := some s.clk.tb }
    .next (s.queueFrame port { type := ftDELAY_REQ, origin := s.lineId, p0 := s.txMarker port })
  else .next s

/-- DELAY_REQ (R444): the neighbour's request, received at `rx` sixteenths of a tick, is answered. -/
def execDelayReq (t : Tick) (port : Fin 2) (p0 : BitVec 64) (rx : Nat) (s : State) :
    Host.Outcome State Fault Refusal :=
  let s := s.at t
  if s.portTakes port then
    let s := s.noteFrame port false
    if s.lineOriginates && s.lineJoined then
      .next (s.queueFrame port { type := ftDELAY_RESP, origin := s.lineId, p0 := p0.toNat
                                 p1 := fromSigned 64 (16 * (s.txMarker port : Int) - rx) })
    else .next s
  else .next s

/-- DELAY_RESP (R444): a hop delay; LINE_DELAY is the mean of the last 16, rounded down. -/
def execDelayResp (t : Tick) (port : Fin 2) (p0 p1 : BitVec 64) (rx : Nat) (s : State) :
    Host.Outcome State Fault Refusal :=
  let s := s.at t
  if s.portTakes port then
    let s := s.noteFrame port false
    let v := floorDiv ((rx : Int) - 16 * p0.toNat - toSigned 64 p1.toNat) 2
    let ds := (v :: (s.port port).delays).take 16
    let s := s.setPort port { s.port port with delays := ds }
    .next (s.setF (Reg.LINE_DELAY port) 23 0 (fromSigned 24 (floorDiv ds.sum ds.length)))
  else .next s

/-- SYNC (R440, R445): received on a port at `rx` sixteenths of a tick. -/
def execSync (t : Tick) (port : Fin 2) (origin hops : BitVec 10) (p0 p1 : BitVec 64) (rx : Nat) (s : State) :
    Host.Outcome State Fault Refusal :=
  let s := s.at t
  if !s.portTakes port then .next s
  else
    let s := s.noteFrame port false
    if origin.toNat = s.lineId then .next s
    else
      let h := hops.toNat + 1
      let delay : Int := toSigned 24 (s.f (Reg.LINE_DELAY port) 23 0)
      let e : Int := 16 * p0.toNat + toSigned 64 p1.toNat + delay - rx
      let wins := s.syncWins port h && s.timeState ≠ lMASTER
      let s := s.setPort port { s.port port with sync := some (h, s.clk.tb) }
      let tx := s.txMarker (1 - port)
      let f : Frame := { type := ftSYNC, origin := origin.toNat, hops := hops.toNat, p0 := p0.toNat
                         p1 := fromSigned 64 (toSigned 64 p1.toNat + delay + 16 * (tx : Int) - rx) }
      let s := s.forward port f
      .next (if wins then s.takeSync port origin.toNat h e else s)

/-- SYNC_SEND (R445): the master, once per interval, each port with its own marker time. -/
def execSyncSend (t : Tick) (s : State) : Host.Outcome State Fault Refusal :=
  let s := s.at t
  if s.lineOriginates && s.lineJoined && s.timeState = lMASTER && s.line.lastSync + s.syncInt ≤ s.clk.tb then
    let s := { s with line := { s.line with lastSync := s.clk.tb } }
    .next ([0, 1].foldl (fun s p =>
      if s.portState p = pUP then s.queueFrame p { type := ftSYNC, origin := s.lineId, p0 := s.txMarker p } else s) s)
  else .next s

/-- SYNC_TIMEOUT (R447). -/
def execSyncTimeout (t : Tick) (s : State) : Host.Outcome State Fault Refusal :=
  let s := s.at t
  let st := s.timeState
  if s.lineOn && (st = lACQUIRE || st = lTLOCKED) && s.line.lastSync + 8 * s.syncInt ≤ s.clk.tb then
    let s := (s.setTime lHOLDOVER).setRate (s.lineRate 0)
    .next (if st = lTLOCKED then s.lineEvent 1 else s)
  else .next s

/-- LINE_MASTER_SET (R447). -/
def execLineMasterSet (t : Tick) (on : Bool) (s : State) : Host.Outcome State Fault Refusal :=
  let s := s.at t
  if s.lineOn then .next (s.lineMaster on) else .next s

/-! ### Signal points and faults (R449–R451) -/

/-- LINE_SPW_FRAME (R449): the owner applies the write. -/
def execLineSpwFrame (t : Tick) (port : Fin 2) (origin dest hops : BitVec 10) (seq : BitVec 16) (p0 p1 : BitVec 64)
    (s : State) : Host.Outcome State Fault Refusal :=
  let s := s.at t
  let f : Frame := { type := ftSPW, origin := origin.toNat, dest := dest.toNat, hops := hops.toNat, seq := seq.toNat
                     p0 := p0.toNat, p1 := p1.toNat }
  .next (s.unicast port f fun s => s.setPointAt rankLine (nbits p0.toNat 41 32) (BitVec.ofNat 32 p0.toNat))

/-- PUBLISH (R450): applied only if it is new in its origin's series (R440). -/
def execPublish (t : Tick) (port : Fin 2) (origin hops : BitVec 10) (seq : BitVec 16) (p0 p1 : BitVec 64) (s : State) :
    Host.Outcome State Fault Refusal :=
  let s := s.at t
  let f : Frame := { type := ftPUBLISH, origin := origin.toNat, hops := hops.toNat, seq := seq.toNat, p0 := p0.toNat
                     p1 := p1.toNat }
  .next (s.broadcast port f fun s =>
    let x := s.peer origin.toNat
    if seqNew x.lastPub seq.toNat then
      (s.setPeer origin.toNat { x with lastPub := some seq.toNat }).applyPublish (nbits p0.toNat 51 32)
        (BitVec.ofNat 32 p0.toNat)
    else s)

/-- PUBLISH_SEND (R450): the point pending longest is sent with its value of now. -/
def execPublishSend (t : Tick) (s : State) : Host.Outcome State Fault Refusal :=
  let s := s.at t
  match s.line.pubPending with
  | p :: ps =>
    if s.lineOriginates && s.lineJoined && (s.portState 0 = pUP || s.portState 1 = pUP) then
      let s := { s with line := { s.line with pubPending := ps, seqPub := (s.line.seqPub + 1) % 65536 } }
      .next (s.originate { type := ftPUBLISH, origin := 0, seq := s.line.seqPub
                           p0 := (s.point p).toNat + 2 ^ 32 * (1024 * s.lineId + p), p1 := Tab.get 0 s.pointTimes p })
    else .next s
  | [] => .next s

/-- LINE_SUB_WRITE (R450). -/
def execLineSubWrite (t : Tick) (j : Fin 256) (w : Word) (s : State) : Host.Outcome State Fault Refusal :=
  let s := s.at t
  if s.lineOn then .next (s.subWrite j w) else .next s

/-- FAULT_FRAME (R440, R451): handed over on every receipt, this device's own too. -/
def execFaultFrame (t : Tick) (port : Fin 2) (origin hops : BitVec 10) (seq : BitVec 16) (p0 : BitVec 64) (s : State) :
    Host.Outcome State Fault Refusal :=
  let s := s.at t
  let f : Frame := { type := ftFAULT, origin := origin.toNat, hops := hops.toNat, seq := seq.toNat, p0 := p0.toNat }
  if s.portTakes port then
    let s := s.handFault p0.toNat
    .next (s.broadcast port f id)
  else .next s

/-! ### Mailboxes over the Line (R452) -/

/-- PLT_FRAME (R452): a word for this device. -/
def execPltFrame (t : Tick) (port : Fin 2) (origin dest hops : BitVec 10) (seq : BitVec 16) (p0 : BitVec 64)
    (s : State) : Host.Outcome State Fault Refusal :=
  let s := s.at t
  let f : Frame := { type := ftPLT, origin := origin.toNat, dest := dest.toNat, hops := hops.toNat, seq := seq.toNat
                     p0 := p0.toNat }
  .next (s.unicast port f fun s =>
    let c := nbits p0.toNat 37 32
    let sent := nbits p0.toNat 45 38
    if s.paired c origin.toNat then
      let l := s.link c
      let g := (sent + 511 - l.got) % 256
      let s := s.incSat Reg.LINE_CNT_D 15 0 g
      let s := s.setLink c { l with got := sent, accounted := (l.accounted + g) % 256 }
      s.pltTx (some eLINE) c (BitVec.ofNat 32 p0.toNat)
    else s.incSat Reg.LINE_CNT_D 31 16)

/-- PLT_FRAME_SEND (R452): while credit is held, a word directed to LINE is popped and sent. -/
def execPltFrameSend (t : Tick) (ch : Fin 64) (s : State) : Host.Outcome State Fault Refusal :=
  let s := s.at t
  let c := ch.val
  match s.pltRipe eLINE c with
  | w :: _ =>
    let l := s.link c
    if s.lineOriginates && s.pltBound c && (s.pltSends eLINE c).isSome && s.fb (Reg.LINE_PLT c) 16 && 0 < l.credit then
      let n := (l.sent + 1) % 256
      let s := (s.pltDrop eLINE c 1).setLink c { l with sent := n }
      .next (s.sendUnicast ftPLT (s.f (Reg.LINE_PLT c) 9 0)
        (w.1.toNat + 2 ^ 32 * s.f (Reg.LINE_PLT c) 15 10 + 2 ^ 38 * n) 0)
    else .next s
  | [] => .next s

/-- CREDIT (R452). -/
def execCredit (t : Tick) (port : Fin 2) (origin dest hops : BitVec 10) (seq : BitVec 16) (p0 : BitVec 64) (s : State) :
    Host.Outcome State Fault Refusal :=
  let s := s.at t
  let f : Frame := { type := ftCREDIT, origin := origin.toNat, dest := dest.toNat, hops := hops.toNat, seq := seq.toNat
                     p0 := p0.toNat }
  .next (s.unicast port f fun s =>
    let c := nbits p0.toNat 5 0
    if s.paired c origin.toNat then s.setLink c { s.link c with credited := nbits p0.toNat 13 6 } else s)

end Sys2Proof.Machine
end

