-- ==== Sys2Proof/Machine/MediaCmd.lean ====
section
/-!
DEFINITION. The commands of Machine/Media.lean.
-/

namespace Sys2Proof.Machine

/-- SENSE_EDGE (R353): the levels of input n at the ACT edges since the last such command, each with the number of edges that
it stood for, up to the last edge at or before now. -/
def execSenseEdge (t : Tick) (n : Fin 96) (x : Bool × Nat) (ls : List (Bool × Nat)) (s : State) :
    Host.Outcome State Fault Refusal :=
  let s := s.at t
  if s.snsOn then .next (s.senseSamples n (x :: ls)) else .next s

/-- WINDOW (R354): an arrival window opens at the armed edge; a fifth one, or LEN 0, is not reported. -/
def execWindow (t : Tick) (k : Fin 128) (i : Nat) (s : State) : Host.Outcome State Fault Refusal :=
  let s := s.at t
  match s.take k i (fun a => isCmd 0x12 1 a && a.unit ≤ 95 && s.snsOn) with
  | .notDue => .next s
  | .skipped s' => .next s'
  | .run a s =>
    let n := a.act.unit
    let len := nbits a.act.param 31 16
    if len = 0 || 4 ≤ (s.sns.win.filter fun w => w.input == n).length then .next s
    else
      let w : SnsWin := { input := n, sheet := k, claim := ((s.sheet k).map fun sh => sh.senseClaim n).getD noDetail
                          trail := a.act.param % 2 == 1, start := s.clk.tb, stop := s.clk.tb + 6400 * len
                          guard := 6400 * nbits a.act.param 15 1 }
      let open' := s.sheetState k = stCOMMITTED || s.sheetState k = stRUNNING
      let s := if open' then { s with sns := { s.sns with win := s.sns.win ++ [w] } } else s
      .next (s.report k i s.clk.tb)

/-- WINDOW_LATE_EXPIRY (R354): the windows of input n that are unmet at their close plus D end late. -/
def execWindowLateExpiry (t : Tick) (n : Fin 96) (s : State) : Host.Outcome State Fault Refusal :=
  let s := s.at t
  if s.snsOn then
    .next ((s.sns.win.filter fun w => w.input == n.val && decide (w.stop + s.snsDelay n ≤ s.clk.tb)).foldl
      (fun s w => if s.sns.win.contains w then s.windowMissed w true else s) s)
  else .next s

/-! ### General outputs (R355) -/

/-- SET (R355). -/
def execSet (t : Tick) (k : Fin 128) (i : Nat) (s : State) : Host.Outcome State Fault Refusal :=
  let s := s.at t
  match s.take k i (fun a => isCmd 0x12 2 a && 0x100 ≤ a.unit && a.unit ≤ 0x13F && s.snsOn) with
  | .notDue => .next s
  | .skipped s' => .next s'
  | .run a s => .next ((s.report k i s.clk.tb).ttOut (a.act.unit - 0x100) (a.act.param % 2 == 1) none)

/-- PULSE (R355): the level stands for PARAM [31:16] µs from the ball's change; a length of 0 is no PULSE and is not
reported (log entry 35). -/
def execPulse (t : Tick) (k : Fin 128) (i : Nat) (s : State) : Host.Outcome State Fault Refusal :=
  let s := s.at t
  match s.take k i (fun a => isCmd 0x12 3 a && 0x100 ≤ a.unit && a.unit ≤ 0x13F && s.snsOn) with
  | .notDue => .next s
  | .skipped s' => .next s'
  | .run a s =>
    let len := nbits a.act.param 31 16
    if len = 0 then .next s
    else
      .next ((s.report k i s.clk.tb).ttOut (a.act.unit - 0x100) (a.act.param % 2 == 1)
        (some (nextMultiple 32 s.clk.tb + 6400 * len)))

/-- PULSE_END (R355). -/
def execPulseEnd (t : Tick) (n : Fin 64) (s : State) : Host.Outcome State Fault Refusal :=
  let s := s.at t
  match Tab.get none s.sns.pulse n with
  | some e => if s.snsOn ∧ e ≤ s.clk.tb then .next ((s.setOut n (!s.snsOut n)).setPulse n none) else .next s
  | none => .next s

/-- SNS_OUT_WRITE (R355): firmware sets the outputs of one half. -/
def execSnsOutWrite (t : Tick) (high : Bool) (w : Word) (s : State) : Host.Outcome State Fault Refusal :=
  let s := s.at t
  if s.snsOn then .next (s.snsOutWrite high w) else .next s

end Sys2Proof.Machine
end

