-- ==== Sys2Proof/Machine/ModeCmd.lean ====
section
/-!
DEFINITION. The commands of Machine/Mode.lean.
-/

namespace Sys2Proof.Machine

/-! ### The end of a change (R44) -/

/-- MODE_CHANGE_DONE (R44): once the last domain of the change has reached its state. -/
def execModeChangeDone (t : Tick) (s : State) : Host.Outcome State Fault Refusal :=
  let s := s.at t
  let waits := s.pwr.archAt.isSome && !s.pwr.archive
  if s.trans && !waits && s.changeDone then .next s.changeEnd else .next s

/-! ### Requests -/

/-- MODE_REQ_ARCHIVE (R42, R411). -/
def execModeReqArchive (t : Tick) (s : State) : Host.Outcome State Fault Refusal :=
  .next ((s.at t).modeAsk .archive)

/-- MODE_REQ_STANDBY (R42). -/
def execModeReqStandby (t : Tick) (s : State) : Host.Outcome State Fault Refusal :=
  .next ((s.at t).modeAsk .standby)

/-- MODE_REQ_BOOT (R42): no row has it. -/
def execModeReqBoot (t : Tick) (s : State) : Host.Outcome State Fault Refusal :=
  .next ((s.at t).modeAsk .boot)

/-- MODE_REQ_READY (R42). -/
def execModeReqReady (t : Tick) (s : State) : Host.Outcome State Fault Refusal :=
  .next ((s.at t).modeAsk .ready)

/-- MODE_REQ_PRINT (R42). -/
def execModeReqPrint (t : Tick) (s : State) : Host.Outcome State Fault Refusal :=
  .next ((s.at t).modeAsk .print)

/-- MODE_REQ_DRAIN (R42, R62). -/
def execModeReqDrain (t : Tick) (s : State) : Host.Outcome State Fault Refusal :=
  .next ((s.at t).modeAsk .drain)

/-- MODE_REQ_SAFE (R41): a SAFE trigger. -/
def execModeReqSafe (t : Tick) (s : State) : Host.Outcome State Fault Refusal :=
  let s := s.at t
  .next (s.modeEvent s.now .safe)

/-- MODE_REQ_SERVICE (R42). -/
def execModeReqService (t : Tick) (s : State) : Host.Outcome State Fault Refusal :=
  .next ((s.at t).modeAsk .service)

/-- INTLK_ASSERT (R48): the levels of INTLK_N at the REF edges since the last such command, up to the first one at or after
now; an assertion is taken there. -/
def execIntlkAssert (x : Samples Bool) (s : State) : Host.Outcome State Fault Refusal :=
  .next ((s.at x.t).intlkSamples x.ls)

/-- INTLK_NEGATE (R48): the same for a negation, which triggers nothing. -/
def execIntlkNegate (x : Samples Bool) (s : State) : Host.Outcome State Fault Refusal :=
  .next ((s.at x.t).intlkSamples x.ls)

/-- SAFE_SEQUENCE_COMPLETE (R45). -/
def execSafeSequenceComplete (t : Tick) (s : State) : Host.Outcome State Fault Refusal :=
  let s := s.at t
  if s.mode == .safe && !s.trans && !s.runningOut && s.motionEnded then .next (s.setB Reg.SYS_MODE 7 true)
  else .next s

end Sys2Proof.Machine
end

