-- ==== Sys2Proof/Machine/PltCmd.lean ====
section
/-!
DEFINITION. The commands of Machine/Plt.lean.
-/

namespace Sys2Proof.Machine

/-- PLT_CH_CFG_WRITE (R374): any other initiator gets a bus error. -/
def execPltChCfgWrite (t : Tick) (ini : Fin 7) (c : Fin 64) (w : Word) (s : State) :
    Host.Outcome State Fault Refusal :=
  let s := s.at t
  if ini.val ≤ 1 then .next ((s.pltCfg c w).setAcc ini {}) else .next (s.setAcc ini { err := .bus })

/-- PLT_TX (R375). -/
def execPltTx (t : Tick) (ini : Fin 7) (c : Fin 64) (w : Word) (s : State) : Host.Outcome State Fault Refusal :=
  .next ((s.at t).pltTx (endpointOf ini) c w)

/-- PLT_POP (R375). -/
def execPltPop (t : Tick) (ini : Fin 7) (c : Fin 64) (n : Fin 16) (s : State) : Host.Outcome State Fault Refusal :=
  .next ((s.at t).pltPop (endpointOf ini) c n)

/-- PLT_RX_READ (R375). -/
def execPltRxRead (t : Tick) (ini : Fin 7) (c : Fin 64) (i : Fin 8) (s : State) : Host.Outcome State Fault Refusal :=
  let (v, s) := (s.at t).pltRx (endpointOf ini) c i
  .next (s.setAcc ini { value := v.toNat })

/-- PLT_WORD_ARRIVE (R377): the oldest word on its way into queue AB or BA of channel c, from its REF edge on. -/
def execPltWordArrive (t : Tick) (c : Fin 64) (toB : Bool) (s : State) : Host.Outcome State Fault Refusal :=
  let s := s.at t
  match s.plt.fly.find? fun w => w.ch == c.val && w.toB == toB with
  | some w => if w.due ≤ s.now then .next (s.pltArrive w) else .next s
  | none => .next s

end Sys2Proof.Machine
end

