-- ==== Sys2Proof/Machine/PowerCmd.lean ====
section
/-!
DEFINITION. The commands of Machine/Power.lean.
-/

namespace Sys2Proof.Machine

/-! ### Domains -/

/-- DOM_REQ_ON (R403). -/
def execDomReqOn (t : Tick) (d : Fin 16) (s : State) : Host.Outcome State Fault Refusal :=
  .next ((s.at t).domRequest d true)

/-- DOM_REQ_OFF (R403). -/
def execDomReqOff (t : Tick) (d : Fin 16) (s : State) : Host.Outcome State Fault Refusal :=
  .next ((s.at t).domRequest d false)

/-! ### The rail sequencer (R417, R418) -/

/-- SEQ_START (R418): the level of SEQ_IN at this REF edge, and the levels of VIN_OK at the REF edges since the last such
command, each with the number of edges that it stood for. -/
def execSeqStart (x : Bool × Samples (Bool × Nat)) (s : State) : Host.Outcome State Fault Refusal :=
  let s := ((s.at x.2.t).vinSamples x.2.ls).2.setB Reg.PWR_SEQ_STATUS 12 x.1
  let stable := s.fb Reg.PWR_SEQ_STATUS 14 && match s.pwr.vinAt with
    | some v => decide (v + 320000000 ≤ s.now)
    | none => true
  if s.seqState = qWAIT && x.1 && stable && !s.pwr.railLatch && !s.pwr.thermLatch && !s.pwr.standby && s.thmTmax < 950
  then
    let s := (s.takeRailCfg.setSeq qRISE).setRail 0 true
    .next { s with pwr := { s.pwr with seqRail := 0, seqGap := false } }.railGood
  else .next s

/-- PGOOD_HIGH (R417, R418): the levels of PGOODi at the REF edges since the last such command. -/
def execPgoodHigh (x : Samples Bool) (i : Fin 8) (s : State) : Host.Outcome State Fault Refusal :=
  .next (((s.at x.t).pgSamples i x.ls).railGood)

/-- PG_LOST (R417, R418): the same, where an enabled rail's power-good input falls. -/
def execPgLost (x : Samples Bool) (i : Fin 8) (s : State) : Host.Outcome State Fault Refusal :=
  let fell := (s.at x.t).pgFalls i x.ls
  let s := (s.at x.t).pgSamples i x.ls
  if (s.seqState = qRISE || s.seqState = qUP) && s.railOn i && fell then .next (s.railFail i 2)
  else .next s

/-- PG_TIMEOUT (R418). -/
def execPgTimeout (t : Tick) (s : State) : Host.Outcome State Fault Refusal :=
  let s := s.at t
  let k := s.pwr.seqRail
  if s.seqState = qRISE && !s.pwr.seqGap && !s.fb Reg.PWR_SEQ_STATUS (16 + k) && s.pwr.seqAt + s.railTpg k ≤ s.now then
    .next (s.railFail k 1)
  else .next s

/-- RAIL_GAP_EXPIRY (R418): the next rail rises in RISE, or falls in FALL. -/
def execRailGapExpiry (t : Tick) (s : State) : Host.Outcome State Fault Refusal :=
  let s := s.at t
  let k := s.pwr.seqRail
  if !s.pwr.seqGap || s.now < s.pwr.seqAt + s.railGap k then .next s
  else if s.seqState = qRISE then
    let s := s.setRail (k + 1) true
    .next { s with pwr := { s.pwr with seqRail := k + 1, seqAt := s.now, seqGap := false } }.railGood
  else if s.seqState = qFALL then .next s.fallNext
  else .next s

/-- POR_HOLD_EXPIRY (R418): 1 ms after UP, the device POR is released. A wipe that a loss of supply interrupted is
finished first (R471). -/
def execPorHoldExpiry (t : Tick) (s : State) : Host.Outcome State Fault Refusal :=
  let s := s.at t
  if s.seqState = qUP && s.pwr.porHeld && s.pwr.seqAt + 6400000 ≤ s.now then
    let s := s.por
    .next (if s.fb Reg.LDG_STATUS 1 then s.lcWipe (s.sec.otp.lc - 1) false else s)
  else .next s

/-- VMON_SAMPLE (R416, R417): a rail whose code lies outside its window N times in a row fails; the window of the rail
of a PENDING voltage request is suspended. -/
def execVmonSample (t : Tick) (i : Fin 8) (code : BitVec 10) (s : State) : Host.Outcome State Fault Refusal :=
  let s := (s.at t).setF (Reg.PWR_VMON_VAL i) 9 0 code.toNat
  let w := Reg.PWR_VMON i
  let out := code.toNat < s.f w 9 0 || s.f w 25 16 < code.toNat
  let suspended := s.vreqPending && s.f Reg.PWR_VREQ_A 19 16 = i
  if s.seqState ≠ qUP then .next s
  else
    let n := if out && !suspended then Tab.get 0 s.pwr.vmonBad i + 1 else 0
    let s := { s with pwr := { s.pwr with vmonBad := Tab.put 0 s.pwr.vmonBad i n } }
    if s.f w 31 28 ≤ n && 0 < n then .next (s.railFail i 3) else .next s

/-- VIN_LOST (R417, R418): the levels of VIN_OK at the REF edges since the last such command. -/
def execVinLost (x : Samples (Bool × Nat)) (s : State) : Host.Outcome State Fault Refusal :=
  let (lost, s) := (s.at x.t).vinSamples x.ls
  if lost && (s.seqState = qRISE || s.seqState = qUP) then
    .next (((s.setB Reg.PWR_IRQ_STATUS 3 true).raise srcPWR 3).fall 4)
  else .next s

/-- PWR_CLR_EDGE (R418). -/
def execPwrClrEdge (t : Tick) (s : State) : Host.Outcome State Fault Refusal :=
  let s := s.at t
  if s.pwr.railLatch && (s.seqState = qLATCHED || s.seqState = qFALL) then
    let s := { s with pwr := { s.pwr with railLatch := false } }
    .next (if s.seqState = qLATCHED then s.setSeq qWAIT else s)
  else .next s

/-- STANDBY_RESET (R418): VSTBY arrives or returns, or POR_N was low. -/
def execStandbyReset (t : Tick) (s : State) : Host.Outcome State Fault Refusal :=
  .next (s.at t).domainsLost.stopClock.standbyReset

/-- VSTBY_LOSS (R89, R418): AON and the whole device are unpowered; only the Ledger and the OTP keep their contents. The
sheets in flight have no outcome in the journal. -/
def execVstbyLoss (t : Tick) (s : State) : Host.Outcome State Fault Refusal :=
  let s := (s.at t).domainsLost.por.domainsLost
  let s := s.resetRegs Reg.PWR_SEQ_STATUS Reg.PWR_VREQ_A fun _ _ => false
  .next { s with pwr := { railEn := 0, seqRail := 0, standby := true }, sys := { s.sys with intlk := false, intlkIn := {} } }

/-! ### Steps of the domains -/

/-- DOMAIN_STEP_READY (R404, R408). -/
def execDomainStepReady (t : Tick) (d : Fin 16) (s : State) : Host.Outcome State Fault Refusal :=
  .next ((s.at t).stepReady d)

/-- DOM_FAIL (R408): a step not ready within four times its maximum. -/
def execDomFail (t : Tick) (d : Fin 16) (s : State) : Host.Outcome State Fault Refusal :=
  let s := s.at t
  match s.stepAt d with
  | some b =>
    if b + 4 * stepMax d (s.dom d) ≤ s.now then
      let s := (s.domReset d).setDom d dFAILED
      let s := (s.setF (Reg.PWR_DOM_STATE d) 5 4 0).setB Reg.PWR_IRQ_STATUS 0 true
      .next (((s.raise srcPWR 0).domMoved s.now).thermalFall)
    else .next s
  | none => .next s

/-! ### ARCHIVE (R411–R413) -/

/-- ARCHIVE_WAIT_END (R411): at a REF edge at which both cores are idle and no DMA channel runs, the five domains are
checked under R410 and lowered. -/
def execArchiveWaitEnd (t : Tick) (s : State) : Host.Outcome State Fault Refusal :=
  let s := s.at t
  let edge := s.now
  let s := s.pwrEdge edge
  if s.pwr.archAt.isNone || s.pwr.archive || !s.coresIdle || s.dmaBusy then .next s
  else match archiveSet.find? fun d => Tab.get none s.pwr.onAt d == some edge with
    | some d => .next ((s.archiveRefuse d 1).takeHeld)
    | none =>
      if s.vreqPending then .next ((s.archiveRefuse 2 7).takeHeld)
      else match archiveSet.find? s.queueHolds with
        | some d => .next ((s.archiveRefuse d 8).takeHeld)
        | none =>
          let low := (List.range 16).filter fun d => 2 ≤ d && !s.domDown d
          let s := { s with pwr := { s.pwr with archive := true, want := [], wantOff := low, left := low } }
          .next (s.lowerReady edge)

/-- ARCHIVE_WAIT_TIMEOUT (R411). -/
def execArchiveWaitTimeout (t : Tick) (s : State) : Host.Outcome State Fault Refusal :=
  let s := s.at t
  match s.pwr.archAt with
  | some a =>
    if s.pwr.archive || s.now < a + 6400000 || (s.coresIdle && !s.dmaBusy) then .next s
    else .next ((s.archiveRefuse 2 (if s.coresIdle then 4 else 3)).takeHeld)
  | none => .next s

/-- WAKE_N (R412): the levels of WAKE_N at the REF edges since the last such command, 8 equal ones of which change it; a
falling edge wakes. -/
def execWakeN (x : Samples Bool) (s : State) : Host.Outcome State Fault Refusal :=
  let s := s.at x.t
  let old := s.pwr.wakeIn
  let s := { s with pwr := { s.pwr with wakeIn := x.ls.foldl (fun x v => x.sample 7 v) old } }
  if s.fb Reg.PWR_WAKE_CFG 0 && old.falls 7 (old.level.getD false) x.ls then .next (s.wakeEvent 2) else .next s

/-- WAKE_TIMER (R412). -/
def execWakeTimer (t : Tick) (s : State) : Host.Outcome State Fault Refusal :=
  let s := s.at t
  let w := (s.reg Reg.PWR_WAKE_TIMER).toNat
  match s.pwr.archIn with
  | some a => if s.mode == .archive && w ≠ 0 && a + w * ms ≤ s.now then .next (s.wakeEvent 2) else .next s
  | none => .next s

/-! ### Voltage requests (R415, R416) -/

/-- VREQ_START (R416). -/
def execVreqStart (t : Tick) (w : Word) (s : State) : Host.Outcome State Fault Refusal := .next ((s.at t).vreqStart w)

/-- VREQ_POLL (R416): the PMBus answers a reading (0), a NACK (1), a PEC failure (2), or a VOUT_MODE other than linear (3). -/
def execVreqPoll (t : Tick) (answer : Fin 4) (read : BitVec 16) (s : State) : Host.Outcome State Fault Refusal :=
  let s := s.at t
  if !s.vreqPending then .next s
  else if answer = 1 || answer = 2 then .next (((s.vreqEnd 3 answer).raise srcPWR 2).startRegs s.now)
  else if answer = 3 then .next ((s.vreqEnd 3 3).startRegs s.now)
  else
    let s := s.setF Reg.PWR_VREQ_STATUS 31 16 read.toNat
    let v := s.f Reg.PWR_VREQ_B 15 0
    let tol := s.f Reg.PWR_VREQ_B 31 16
    let good := read.toNat ≤ v + tol && v ≤ read.toNat + tol
    let n := if good then s.pwr.vreqGood + 1 else 0
    let s := { s with pwr := { s.pwr with vreqGood := n } }
    if 2 ≤ n then .next ((s.vreqEnd 2 0).startRegs s.now) else .next s

/-- VREQ_TIMEOUT (R416). -/
def execVreqTimeout (t : Tick) (s : State) : Host.Outcome State Fault Refusal :=
  let s := s.at t
  if s.vreqPending && s.pwr.vreqAt + s.f Reg.PWR_VREQ_TO 15 0 * ms ≤ s.now then
    .next (((s.vreqEnd 3 4).raise srcPWR 1).startRegs s.now)
  else .next s

end Sys2Proof.Machine
end

