-- ==== Sys2Proof/Machine/ScanCmd.lean ====
section
/-!
DEFINITION. The commands of Machine/Scan.lean.
-/

namespace Sys2Proof.Machine

/-! ### Edges and misses -/

/-- SOS_EDGE (R203, R204, R207). -/
def execSosEdge (t : Tick) (st : Fin 6) (x : Nat) (s : State) : Host.Outcome State Fault Refusal :=
  let s := s.at t
  if !s.vidOn st || s.scnState st = 0 then .next s
  else if s.tooClose st 0 x then .next (s.stray st)
  else
    let s := s.noteEdge st 0 x
    let e := s.edgeTime st 0 x
    if s.scnState st = 1 then .next (s.spinupSos st e)
    else
      let s := s.addDelta st
      let pr := s.predOf st (s.scanK st + 1)
      let h := s.gateHalf st pr.tf
      if pr.p - h ≤ e ∧ e ≤ pr.p + h then .next ((s.modScn st fun y => { y with missSos := 0 }).takeSos st e false)
      else .next (s.stray st)

/-- MOS_EDGE (R207, R217): in CABINET, MOS is timestamped and reported, and a failure of its bound only counts (R220). -/
def execMosEdge (t : Tick) (st : Fin 6) (x : Nat) (s : State) : Host.Outcome State Fault Refusal :=
  let s := s.at t
  if !s.vidOn st || s.scnState st = 0 then .next s
  else if s.tooClose st 1 x then .next (s.stray st)
  else
    let s := s.noteEdge st 1 x
    if s.scnState st = 1 then .next s
    else match (s.scns st).cur with
      | none => .next (s.stray st)
      | some c =>
        let e := s.edgeTime st 1 x
        if c.mos.isSome || !s.inGate st c (s.predMos st c) e then .next (s.stray st)
        else
          let out := !s.learning st &&
            decide (s.af (Reg.SCN_BOUND st) 15 8 * tk < ((e - s.predMos st c).natAbs : Int))
          let s := s.modScn st fun y => { y with missMos := 0, cur := some { c with mos := some (some e) } }
          let s := s.stampEdge st 1 c.f e out
          .next (if !out then s else if s.limit then s.outOfBound st 3 c.k else s.countOut st)

/-- EOS_EDGE (R207, R216, R217). -/
def execEosEdge (t : Tick) (st : Fin 6) (x : Nat) (s : State) : Host.Outcome State Fault Refusal :=
  let s := s.at t
  if !s.vidOn st || s.scnState st = 0 then .next s
  else if s.tooClose st 2 x then .next (s.stray st)
  else
    let s := s.noteEdge st 2 x
    if s.scnState st = 1 then .next s
    else match (s.scns st).cur with
      | none => .next (s.stray st)
      | some c =>
        let e := s.edgeTime st 2 x
        if c.eos.isSome || !s.inGate st c (s.predEos st c) e then .next (s.stray st)
        else
          let out := !s.learning st &&
            decide (s.af (Reg.SCN_BOUND st) 15 8 * tk < ((e - s.predEos st c).natAbs : Int))
          let s := s.modScn st fun y => { y with missEos := 0, cur := some { c with eos := some (some e) } }
          let s := s.stampEdge st 2 c.f e out
          let s := if out then s.outOfBound st 4 c.k else s
          .next (s.endScan st)

/-- SENSOR_WINDOW_MISS (R207, R208, R210): a window closes with no edge; a missed SOS is coasted. -/
def execSensorWindowMiss (t : Tick) (st : Fin 6) (sensor : Fin 3) (s : State) : Host.Outcome State Fault Refusal :=
  let s := s.at t
  if !s.vidOn st || s.scnState st < 2 then .next s
  else if sensor.val = 0 then
    let s := s.addDelta st
    let pr := s.predOf st (s.scanK st + 1)
    if s.past (pr.p + s.gateHalf st pr.tf) then
      let s := (s.countMiss st).modScn st fun y => { y with missSos := y.missSos + 1 }
      let s := s.takeSos st pr.p true
      .next (if s.coastLimit st < (s.scns st).missSos then s.scnLoss st lMISS else s)
    else .next s
  else match (s.scns st).cur with
    | none => .next s
    | some c =>
      if sensor.val = 1 then
        if c.mos.isNone && s.past (s.gateEnd st c (s.predMos st c)) then
          let s := (s.countMiss st).modScn st fun y =>
            { y with missMos := y.missMos + 1, cur := some { c with mos := some none } }
          .next (if s.limit && s.coastLimit st < (s.scns st).missMos then s.scnLoss st lMISS else s)
        else .next s
      else if c.eos.isNone && s.past (s.gateEnd st c (s.predEos st c)) then
        let s := (s.countMiss st).modScn st fun y =>
          { y with missEos := y.missEos + 1, cur := some { c with eos := some none } }
        let s := s.endScan st
        .next (if s.coastLimit st < (s.scns st).missEos then s.scnLoss st lMISS else s)
      else .next s

/-- INDEX_EDGE (R209): the next SOS is facet 0, or is checked to be. -/
def execIndexEdge (t : Tick) (st : Fin 6) (s : State) : Host.Outcome State Fault Refusal :=
  let s := s.at t
  if s.vidOn st && s.fb (Reg.SCN_CTRL st) 1 && s.scnState st ≠ 0 then
    .next (s.modScn st fun y => { y with indexSeen := true, indexDue := true, scansNoIndex := 0 })
  else .next s

/-! ### The set, the facet gap, the commands -/

/-- SCAN_SET_HANDOVER (R215, R218, R232): the set of the scan due next is handed over, or is not because the station is
not LOCKED. -/
def execScanSetHandover (t : Tick) (st : Fin 6) (s : State) : Host.Outcome State Fault Refusal :=
  let s := s.at t
  match (s.scns st).due with
  | [] => .next s
  | (k, ref) :: rest =>
    if s.clk.tb < ref then .next s
    else
      let s := s.modScn st fun y => { y with due := rest }
      if s.scnState st = 3 then
        let (x, s) := s.setOf st k
        .next (s.handOver st x)
      else .next (s.notHanded st k)

/-- FACET_GAP (R205, R219, R484): after the EOS of a scan, the calibration set follows the thermal band, one tap group
is calibrated, and a pending Δ is added to the history. -/
def execFacetGap (t : Tick) (st : Fin 6) (s : State) : Host.Outcome State Fault Refusal :=
  let s := s.at t
  if !s.vidOn st || !s.facetGap st then .next s
  else .next ((s.modScn st fun y =>
    { y with tdcBand := s.f Reg.THM_STATUS 2 0, taps := if s.fb Reg.BKG_CTRL 2 then y.taps + 1 else y.taps }).addDelta st)

/-- SCN_EN_WRITE (R210): EN takes a station to SPINUP or OFF. -/
def execScnEnWrite (t : Tick) (st : Fin 6) (en : Bool) (s : State) : Host.Outcome State Fault Refusal :=
  let s := s.at t
  if s.vidOn st then .next (s.writeScnEn st en) else .next s

/-- LOCK_CHECK (R224): reports its edge, as does any other CMD, a no operation (log entry 27); a station that is not LOCKED, or any other CMD, is NOT_LOCKED for the sheet. -/
def execLockCheck (t : Tick) (k : Fin 128) (i : Nat) (s : State) : Host.Outcome State Fault Refusal :=
  let s := s.at t
  match s.take k i (fun a => a.blockCmd && a.block == 0x0B && a.unit ≤ 5 && s.vidOn a.unit) with
  | .notDue => .next s
  | .skipped s' => .next s'
  | .run a s =>
    let st := a.act.unit
    let h := s.handle k
    let s := s.report k i s.clk.tb
    if a.act.cmd ≠ 1 then .next ((s.incSat (Reg.SCN_CNT_B st) 15 0).scanCause st h 1 (s.scanK st))
    else if s.scnState st = 3 then .next s
    else .next (s.scanCause st h 1 (s.scanK st))

end Sys2Proof.Machine
end

