-- ==== Sys2Proof/Machine/SignalBoxCmd.lean ====
section
/-!
DEFINITION. The commands of Machine/SignalBox.lean.
-/

namespace Sys2Proof.Machine

/-! ### Emission over the Line (R394, R395) -/

/-- FAULT_EMIT_HOLD_EXPIRY (R394): one message carries the latest held event, as the last step of the edge (R385). -/
def execFaultEmitHoldExpiry (t : Tick) (src : Fin 64) (s : State) : Host.Outcome State Fault Refusal :=
  let s := s.at t
  match Tab.get none s.sbx.held src.val, Tab.get none s.sbx.sent src.val with
  | some ev, some t0 =>
    if t0 + 64000 ≤ s.refEdge && s.fb Reg.SBX_LINE_CFG 0 && !s.localDue && !s.remoteDue then
      let s := s.incSat Reg.SBX_LINE_CNT_B 15 0 (Tab.get 0 s.sbx.heldN src.val - 1)
      let s := { s with sbx := { s.sbx with held := Tab.put none s.sbx.held src.val none
                                            heldN := Tab.put 0 s.sbx.heldN src.val 0 } }
      .next (s.emitFault src ev true)
    else .next s
  | _, _ => .next s

/-! ### Events (R384–R388) -/

/-- SBX_EVENT_TAKE (R385): the first of the events and requests that are due at the REF edge. -/
def execSbxEventTake (t : Tick) (s : State) : Host.Outcome State Fault Refusal :=
  let s := (s.at t).sbxStep1
  match firstRaised s.sbx.raised with
  | some e =>
    if e.due ≤ s.now then .next ({ s with sbx := { s.sbx with raised := s.sbx.raised.erase e } }.takeEvent e)
    else .next s
  | none => .next s

/-! ### Block resets (R390) -/

/-- BLOCK_RESET_DONE (R390): SQ's cores are halted for as long as its reset lasts (R150). -/
def execBlockResetDone (t : Tick) (src : Fin 64) (s : State) : Host.Outcome State Fault Refusal :=
  let s := s.at t
  match Tab.get none s.sbx.rst src.val with
  | some r =>
    if r.shadow.isNone then
      let x : SbxRst := { r with shadow := some (s.now + s.f Reg.SBX_SHADOW 23 0) }
      .next { s with sbx := { s.sbx with rst := Tab.put none s.sbx.rst src.val (some x) }
                     sq := if src.val = 7 then { s.sq with halted := [] } else s.sq }
    else .next s
  | none => .next s

/-- SHADOW_END (R390). -/
def execShadowEnd (t : Tick) (src : Fin 64) (s : State) : Host.Outcome State Fault Refusal :=
  let s := s.at t
  match Tab.get none s.sbx.rst src.val with
  | some { shadow := some e, .. } =>
    if e ≤ s.now then .next (s.setBit64 Reg.SBX_RST_LO Reg.SBX_RST_HI src.val false) else .next s
  | _ => .next s

/-- SBX_BRST_REQ (R390). -/
def execSbxBrstReq (t : Tick) (w : Word) (s : State) : Host.Outcome State Fault Refusal := .next ((s.at t).brstRequest w)

/-! ### The fault state and the pin (R389, R392) -/

/-- QUIET_EXIT (R389), after the edge's local events and messages (R385). -/
def execQuietExit (t : Tick) (src : Fin 64) (s : State) : Host.Outcome State Fault Refusal :=
  let s := s.at t
  let q := s.f (Reg.SBX_SRC_QUIET src) 15 0
  if s.sbxActive src && q ≠ 0 && Tab.get 0 s.sbx.last src.val + q * ms ≤ s.refEdge && !s.localDue && !s.remoteDue then .next (s.sbxExit src)
  else .next s

/-- SBX_ACTIVE_WRITE (R389). -/
def execSbxActiveWrite (t : Tick) (hi : Bool) (w : Word) (s : State) : Host.Outcome State Fault Refusal :=
  .next ((s.at t).activeWrite hi w)

/-- ERR_N_HOLD_EXPIRY (R392). -/
def execErrNHoldExpiry (t : Tick) (s : State) : Host.Outcome State Fault Refusal := .next (s.at t).errPin

/-! ### History (R393) -/

/-- SBX_HIST_W0_READ (R393). -/
def execSbxHistW0Read (t : Tick) (ini : Fin 7) (i : Fin 32) (s : State) : Host.Outcome State Fault Refusal :=
  let (v, s) := (s.at t).histRead ini i
  .next (s.setAcc ini { value := v.toNat })

/-! ### Remote faults (R396, R397) -/

/-- REMOTE_FAULT_TAKE (R385, R396): the first message received by the REF edge, after the edge's local events. -/
def execRemoteFaultTake (t : Tick) (s : State) : Host.Outcome State Fault Refusal :=
  let s := (s.at t).sbxStep1
  match firstRemote s.sbx.remote with
  | some m =>
    if m.due ≤ s.now && !s.localDue then
      .next ({ s with sbx := { s.sbx with remote := s.sbx.remote.erase m } }.takeRemote m)
    else .next s
  | none => .next s

/-- SBX_ORIGIN_WRITE (R396). -/
def execSbxOriginWrite (t : Tick) (d : Fin 1024) (w : Word) (s : State) : Host.Outcome State Fault Refusal :=
  .next ((s.at t).originWrite d w)

end Sys2Proof.Machine
end

