-- ==== Sys2Proof/Machine/SinelCmd.lean ====
section
/-!
DEFINITION. The commands of Machine/Sinel.lean.
-/

namespace Sys2Proof.Machine

/-! ### Traps and issue on Sinel-G (R120, R121, R123, R126) -/

/-- Issue an instruction on core c at its time, but not before the core is free (R117; log entry 7). -/
def State.issueBy (s : State) (t : Tick) (c : Fin 26) (lat : Who → State → Nat) (body : Who → State → Eff) : State :=
  if c.val < 24 then (s.atStep (max t (s.freeAt c.val)) 9).issueT c.val lat body
  else (s.at t).issueG (c.val - 24) body

/-- Issue an instruction whose latency is the same whatever its operands. -/
def State.issue (s : State) (t : Tick) (c : Fin 26) (lat : Nat) (body : Who → State → Eff) : State :=
  s.issueBy t c (fun _ _ => lat) body

/-! ### Register operations -/

/-- An instruction that writes rd and nothing else. -/
def State.writeRd (t : Tick) (c : Fin 26) (lat : Nat) (rd : Fin 32) (v : State → Who → Word) (s : State) :
    Host.Outcome State Fault Refusal :=
  .next (s.issue t c lat fun w s => .next (s.setGr w rd (v s w)))

/-- An instruction that writes the pair rd; an odd rd or g0 raises ILLEGAL (R93). -/
def State.writePair (t : Tick) (c : Fin 26) (lat : Nat) (rd : Fin 32) (v : State → Who → Nat) (s : State) :
    Host.Outcome State Fault Refusal :=
  .next (s.issue t c lat fun w s => if pairOkR rd then .next (s.setGrPair w rd (v s w)) else .exc xILLEGAL 0 s)

/-- The ALU group (R97). -/
def execAdd (t : Tick) (c : Fin 26) (rd ra rb : Fin 32) (s : State) : Host.Outcome State Fault Refusal :=
  s.writeRd t c 1 rd fun s w => s.gr w ra + s.gr w rb
/-- SUB (R97). -/
def execSub (t : Tick) (c : Fin 26) (rd ra rb : Fin 32) (s : State) : Host.Outcome State Fault Refusal :=
  s.writeRd t c 1 rd fun s w => s.gr w ra - s.gr w rb
/-- AND (R97). -/
def execAnd (t : Tick) (c : Fin 26) (rd ra rb : Fin 32) (s : State) : Host.Outcome State Fault Refusal :=
  s.writeRd t c 1 rd fun s w => s.gr w ra &&& s.gr w rb
/-- OR (R97). -/
def execOr (t : Tick) (c : Fin 26) (rd ra rb : Fin 32) (s : State) : Host.Outcome State Fault Refusal :=
  s.writeRd t c 1 rd fun s w => s.gr w ra ||| s.gr w rb
/-- XOR (R97). -/
def execXor (t : Tick) (c : Fin 26) (rd ra rb : Fin 32) (s : State) : Host.Outcome State Fault Refusal :=
  s.writeRd t c 1 rd fun s w => s.gr w ra ^^^ s.gr w rb

/-- SLL (R97). -/
def execSll (t : Tick) (c : Fin 26) (rd ra rb : Fin 32) (s : State) : Host.Outcome State Fault Refusal :=
  s.writeRd t c 1 rd fun s w => s.gr w ra <<< shiftOf (s.gr w rb)
/-- SRL (R97). -/
def execSrl (t : Tick) (c : Fin 26) (rd ra rb : Fin 32) (s : State) : Host.Outcome State Fault Refusal :=
  s.writeRd t c 1 rd fun s w => s.gr w ra >>> shiftOf (s.gr w rb)
/-- SRA (R97). -/
def execSra (t : Tick) (c : Fin 26) (rd ra rb : Fin 32) (s : State) : Host.Outcome State Fault Refusal :=
  s.writeRd t c 1 rd fun s w => (s.gr w ra).sshiftRight (shiftOf (s.gr w rb))
/-- SLT (R97). -/
def execSlt (t : Tick) (c : Fin 26) (rd ra rb : Fin 32) (s : State) : Host.Outcome State Fault Refusal :=
  s.writeRd t c 1 rd fun s w => flag ((s.gr w ra).slt (s.gr w rb))
/-- SLTU (R97). -/
def execSltu (t : Tick) (c : Fin 26) (rd ra rb : Fin 32) (s : State) : Host.Outcome State Fault Refusal :=
  s.writeRd t c 1 rd fun s w => flag ((s.gr w ra).ult (s.gr w rb))
/-- MIN (R97). -/
def execMin (t : Tick) (c : Fin 26) (rd ra rb : Fin 32) (s : State) : Host.Outcome State Fault Refusal :=
  s.writeRd t c 1 rd fun s w => if (s.gr w ra).slt (s.gr w rb) then s.gr w ra else s.gr w rb
/-- MAX (R97). -/
def execMax (t : Tick) (c : Fin 26) (rd ra rb : Fin 32) (s : State) : Host.Outcome State Fault Refusal :=
  s.writeRd t c 1 rd fun s w => if (s.gr w ra).slt (s.gr w rb) then s.gr w rb else s.gr w ra
/-- MINU (R97). -/
def execMinu (t : Tick) (c : Fin 26) (rd ra rb : Fin 32) (s : State) : Host.Outcome State Fault Refusal :=
  s.writeRd t c 1 rd fun s w => if (s.gr w ra).ult (s.gr w rb) then s.gr w ra else s.gr w rb
/-- MAXU (R97). -/
def execMaxu (t : Tick) (c : Fin 26) (rd ra rb : Fin 32) (s : State) : Host.Outcome State Fault Refusal :=
  s.writeRd t c 1 rd fun s w => if (s.gr w ra).ult (s.gr w rb) then s.gr w rb else s.gr w ra
/-- ADDSAT (R97). -/
def execAddsat (t : Tick) (c : Fin 26) (rd ra rb : Fin 32) (s : State) : Host.Outcome State Fault Refusal :=
  s.writeRd t c 1 rd fun s w => sat32 ((s.gr w ra).toInt + (s.gr w rb).toInt)
/-- SUBSAT (R97). -/
def execSubsat (t : Tick) (c : Fin 26) (rd ra rb : Fin 32) (s : State) : Host.Outcome State Fault Refusal :=
  s.writeRd t c 1 rd fun s w => sat32 ((s.gr w ra).toInt - (s.gr w rb).toInt)

/-- The OPI group (R98): ADDI, SLTI and SLTIU sign-extend imm12, ANDI, ORI and XORI zero-extend it. -/
def execAddi (t : Tick) (c : Fin 26) (rd ra : Fin 32) (imm : BitVec 12) (s : State) : Host.Outcome State Fault Refusal :=
  s.writeRd t c 1 rd fun s w => s.gr w ra + imm.signExtend 32
/-- SLTI (R98). -/
def execSlti (t : Tick) (c : Fin 26) (rd ra : Fin 32) (imm : BitVec 12) (s : State) : Host.Outcome State Fault Refusal :=
  s.writeRd t c 1 rd fun s w => flag ((s.gr w ra).slt (imm.signExtend 32))
/-- SLTIU (R98). -/
def execSltiu (t : Tick) (c : Fin 26) (rd ra : Fin 32) (imm : BitVec 12) (s : State) : Host.Outcome State Fault Refusal :=
  s.writeRd t c 1 rd fun s w => flag ((s.gr w ra).ult (imm.signExtend 32))
/-- ANDI (R98). -/
def execAndi (t : Tick) (c : Fin 26) (rd ra : Fin 32) (imm : BitVec 12) (s : State) : Host.Outcome State Fault Refusal :=
  s.writeRd t c 1 rd fun s w => s.gr w ra &&& imm.setWidth 32
/-- ORI (R98). -/
def execOri (t : Tick) (c : Fin 26) (rd ra : Fin 32) (imm : BitVec 12) (s : State) : Host.Outcome State Fault Refusal :=
  s.writeRd t c 1 rd fun s w => s.gr w ra ||| imm.setWidth 32
/-- XORI (R98). -/
def execXori (t : Tick) (c : Fin 26) (rd ra : Fin 32) (imm : BitVec 12) (s : State) : Host.Outcome State Fault Refusal :=
  s.writeRd t c 1 rd fun s w => s.gr w ra ^^^ imm.setWidth 32
/-- SLLI (R98). -/
def execSlli (t : Tick) (c : Fin 26) (rd ra sh : Fin 32) (s : State) : Host.Outcome State Fault Refusal :=
  s.writeRd t c 1 rd fun s w => s.gr w ra <<< sh.val
/-- SRLI (R98). -/
def execSrli (t : Tick) (c : Fin 26) (rd ra sh : Fin 32) (s : State) : Host.Outcome State Fault Refusal :=
  s.writeRd t c 1 rd fun s w => s.gr w ra >>> sh.val
/-- SRAI (R98). -/
def execSrai (t : Tick) (c : Fin 26) (rd ra sh : Fin 32) (s : State) : Host.Outcome State Fault Refusal :=
  s.writeRd t c 1 rd fun s w => (s.gr w ra).sshiftRight sh.val

/-- LUI (R99): imm21 in bits [31:11]. -/
def execLui (t : Tick) (c : Fin 26) (rd : Fin 32) (imm : BitVec 21) (s : State) : Host.Outcome State Fault Refusal :=
  s.writeRd t c 1 rd fun _ _ => imm.setWidth 32 <<< 11

/-! ### Multiply and divide (R100) -/

/-- MUL (R100). -/
def execMul (t : Tick) (c : Fin 26) (rd ra rb : Fin 32) (s : State) : Host.Outcome State Fault Refusal :=
  s.writeRd t c 2 rd fun s w => s.gr w ra * s.gr w rb
/-- MULQ (R100). -/
def execMulq (t : Tick) (c : Fin 26) (rd ra rb : Fin 32) (s : State) : Host.Outcome State Fault Refusal :=
  s.writeRd t c 2 rd fun s w => mulq (s.gr w ra) (s.gr w rb)
/-- MULW (R100). -/
def execMulw (t : Tick) (c : Fin 26) (rd ra rb : Fin 32) (s : State) : Host.Outcome State Fault Refusal :=
  s.writePair t c 2 rd fun s w => fromSigned 64 ((s.gr w ra).toInt * (s.gr w rb).toInt)
/-- MULWU (R100). -/
def execMulwu (t : Tick) (c : Fin 26) (rd ra rb : Fin 32) (s : State) : Host.Outcome State Fault Refusal :=
  s.writePair t c 2 rd fun s w => (s.gr w ra).toNat * (s.gr w rb).toNat
/-- QUO (R100). -/
def execQuo (t : Tick) (c : Fin 26) (rd ra rb : Fin 32) (s : State) : Host.Outcome State Fault Refusal :=
  s.writeRd t c 18 rd fun s w => quo (s.gr w ra) (s.gr w rb)
/-- QUOU (R100). -/
def execQuou (t : Tick) (c : Fin 26) (rd ra rb : Fin 32) (s : State) : Host.Outcome State Fault Refusal :=
  s.writeRd t c 18 rd fun s w => quou (s.gr w ra) (s.gr w rb)
/-- MOD (R100). -/
def execMod (t : Tick) (c : Fin 26) (rd ra rb : Fin 32) (s : State) : Host.Outcome State Fault Refusal :=
  s.writeRd t c 18 rd fun s w => modS (s.gr w ra) (s.gr w rb)
/-- MODU (R100). -/
def execModu (t : Tick) (c : Fin 26) (rd ra rb : Fin 32) (s : State) : Host.Outcome State Fault Refusal :=
  s.writeRd t c 18 rd fun s w => modU (s.gr w ra) (s.gr w rb)

/-! ### Packed nibbles (R114, R115) -/

/-- PNADD (R115). -/
def execPnadd (t : Tick) (c : Fin 26) (rd ra rb : Fin 32) (s : State) : Host.Outcome State Fault Refusal :=
  s.writeRd t c 1 rd fun s w => lanes fun i => min (lane (s.gr w ra) i + lane (s.gr w rb) i) 15
/-- PNSUB (R115). -/
def execPnsub (t : Tick) (c : Fin 26) (rd ra rb : Fin 32) (s : State) : Host.Outcome State Fault Refusal :=
  s.writeRd t c 1 rd fun s w => lanes fun i => lane (s.gr w ra) i - lane (s.gr w rb) i
/-- PNMAX (R115). -/
def execPnmax (t : Tick) (c : Fin 26) (rd ra rb : Fin 32) (s : State) : Host.Outcome State Fault Refusal :=
  s.writeRd t c 1 rd fun s w => lanes fun i => max (lane (s.gr w ra) i) (lane (s.gr w rb) i)
/-- PNMIN (R115). -/
def execPnmin (t : Tick) (c : Fin 26) (rd ra rb : Fin 32) (s : State) : Host.Outcome State Fault Refusal :=
  s.writeRd t c 1 rd fun s w => lanes fun i => min (lane (s.gr w ra) i) (lane (s.gr w rb) i)
/-- PNSEL (R115). -/
def execPnsel (t : Tick) (c : Fin 26) (rd ra rb : Fin 32) (s : State) : Host.Outcome State Fault Refusal :=
  s.writeRd t c 1 rd fun s w => lanes fun i =>
    if 8 ≤ lane (s.gr w rd) i then lane (s.gr w ra) i else lane (s.gr w rb) i

/-- PNLUT: entry a of the table in pair rb; rb must be a pair (R93). -/
def execPnlut (t : Tick) (c : Fin 26) (rd ra rb : Fin 32) (s : State) : Host.Outcome State Fault Refusal :=
  .next (s.issue t c 1 fun w s =>
    if pairOkR rb then .next (s.setGr w rd (lanes fun i => s.grPair w rb / 16 ^ lane (s.gr w ra) i % 16))
    else .exc xILLEGAL 0 s)
/-- PNCNT (R115). -/
def execPncnt (t : Tick) (c : Fin 26) (rd ra : Fin 32) (s : State) : Host.Outcome State Fault Refusal :=
  s.writeRd t c 1 rd fun s w => BitVec.ofNat 32 (((List.range 8).map fun i => lane (s.gr w ra) i).sum)
/-- PNNZC (R115). -/
def execPnnzc (t : Tick) (c : Fin 26) (rd ra : Fin 32) (s : State) : Host.Outcome State Fault Refusal :=
  s.writeRd t c 1 rd fun s w => BitVec.ofNat 32 ((List.range 8).filter fun i => lane (s.gr w ra) i != 0).length
/-- PNGE (R115). -/
def execPnge (t : Tick) (c : Fin 26) (rd ra rb : Fin 32) (s : State) : Host.Outcome State Fault Refusal :=
  s.writeRd t c 1 rd fun s w => lanes fun i => if lane (s.gr w rb) i ≤ lane (s.gr w ra) i then 15 else 0
/-- PNEQ (R115). -/
def execPneq (t : Tick) (c : Fin 26) (rd ra rb : Fin 32) (s : State) : Host.Outcome State Fault Refusal :=
  s.writeRd t c 1 rd fun s w => lanes fun i => if lane (s.gr w ra) i = lane (s.gr w rb) i then 15 else 0
/-- PNSPL (R115). -/
def execPnspl (t : Tick) (c : Fin 26) (rd ra : Fin 32) (s : State) : Host.Outcome State Fault Refusal :=
  s.writeRd t c 1 rd fun s w => lanes fun _ => lane (s.gr w ra) 0

/-! ### Branches and jumps (R106, R107) -/

/-- A conditional branch (R106). -/
def State.branch (t : Tick) (c : Fin 26) (ra rb : Fin 32) (off : BitVec 16) (cond : Word → Word → Bool) (s : State) :
    Host.Outcome State Fault Refusal :=
  .next (s.issue t c 1 fun w s =>
    if cond (s.gr w ra) (s.gr w rb) then jumpTo w (branchTarget (s.pcOf w) off.toInt) s s else .next s)

/-- BEQ (R106). -/
def execBeq (t : Tick) (c : Fin 26) (ra rb : Fin 32) (off : BitVec 16) (s : State) : Host.Outcome State Fault Refusal :=
  s.branch t c ra rb off fun a b => a == b
/-- BNE (R106). -/
def execBne (t : Tick) (c : Fin 26) (ra rb : Fin 32) (off : BitVec 16) (s : State) : Host.Outcome State Fault Refusal :=
  s.branch t c ra rb off fun a b => a != b
/-- BLT (R106). -/
def execBlt (t : Tick) (c : Fin 26) (ra rb : Fin 32) (off : BitVec 16) (s : State) : Host.Outcome State Fault Refusal :=
  s.branch t c ra rb off fun a b => a.slt b
/-- BGE (R106). -/
def execBge (t : Tick) (c : Fin 26) (ra rb : Fin 32) (off : BitVec 16) (s : State) : Host.Outcome State Fault Refusal :=
  s.branch t c ra rb off fun a b => !a.slt b
/-- BLTU (R106). -/
def execBltu (t : Tick) (c : Fin 26) (ra rb : Fin 32) (off : BitVec 16) (s : State) : Host.Outcome State Fault Refusal :=
  s.branch t c ra rb off fun a b => a.ult b
/-- BGEU (R106). -/
def execBgeu (t : Tick) (c : Fin 26) (ra rb : Fin 32) (off : BitVec 16) (s : State) : Host.Outcome State Fault Refusal :=
  s.branch t c ra rb off fun a b => !a.ult b

/-- JAL (R107). -/
def execJal (t : Tick) (c : Fin 26) (rd : Fin 32) (imm : BitVec 21) (s : State) : Host.Outcome State Fault Refusal :=
  .next (s.issue t c 1 fun w s => jumpTo w (branchTarget (s.pcOf w) imm.toInt) s (s.setGr w rd (s.linkOf w)))

/-- JALR (R107): the target comes from ra as it stood before; one that is not a multiple of 4 raises ALIGN. FETCH, the
lower priority number, comes first where both hold (R118). -/
def execJalr (t : Tick) (c : Fin 26) (rd ra : Fin 32) (imm : BitVec 12) (s : State) : Host.Outcome State Fault Refusal :=
  .next (s.issue t c 1 fun w s =>
    let pc := (s.gr w ra + imm.signExtend 32).toNat
    match jumpTo w pc s (s.setGr w rd (s.linkOf w)) with
    | .exc code a s => .exc code a s
    | e => if pc % 4 = 0 then e else .exc xALIGN pc s)

/-! ### Control registers (R94, R108) -/

/-- KRD (R108). -/
def execKrd (t : Tick) (c : Fin 26) (rd : Fin 32) (k : Fin 64) (s : State) : Host.Outcome State Fault Refusal :=
  .next (s.issue t c 1 fun w s =>
    if !kReadable w.isG k then .exc xILLEGAL 0 s
    else if s.kPriv w k false then .exc xPRIV 0 s
    else .next (s.setGr w rd (s.kread w k)))

/-- KRDP (R108): an even kn and the next, in one cycle, into a pair. -/
def execKrdp (t : Tick) (c : Fin 26) (rd : Fin 32) (k : Fin 64) (s : State) : Host.Outcome State Fault Refusal :=
  .next (s.issue t c 1 fun w s =>
    if !pairOkR rd || k.val % 2 == 1 || !kReadable w.isG k || !kReadable w.isG (k.val + 1) then .exc xILLEGAL 0 s
    else if s.kPriv w k false || s.kPriv w (k.val + 1) false then .exc xPRIV 0 s
    else .next (s.setGrPair w rd ((s.kread w k).toNat + 2 ^ 32 * (s.kread w (k.val + 1)).toNat)))

/-- A write to a control register: `v` gives the new value from the old one and ra. A W1S or W1C register takes ra by
its own access type (R108; log entry 18). -/
def State.kmodify (t : Tick) (c : Fin 26) (k : Fin 64) (ra : Fin 32) (v : Word → Word → Word) (s : State) :
    Host.Outcome State Fault Refusal :=
  .next (s.issue t c 1 fun w s =>
    if !kWritable w.isG k then .exc xILLEGAL 0 s
    else if s.kPriv w k true then .exc xPRIV 0 s
    else .next (s.kwrite w k (if k.val = 37 ∨ k.val = 38 then s.gr w ra else v (s.kread w k) (s.gr w ra))))

/-- KWR (R108). -/
def execKwr (t : Tick) (c : Fin 26) (k : Fin 64) (ra : Fin 32) (s : State) : Host.Outcome State Fault Refusal :=
  s.kmodify t c k ra fun _ a => a
/-- KSET (R108). -/
def execKset (t : Tick) (c : Fin 26) (k : Fin 64) (ra : Fin 32) (s : State) : Host.Outcome State Fault Refusal :=
  s.kmodify t c k ra fun o a => o ||| a
/-- KCLR (R108). -/
def execKclr (t : Tick) (c : Fin 26) (k : Fin 64) (ra : Fin 32) (s : State) : Host.Outcome State Fault Refusal :=
  s.kmodify t c k ra fun o a => o &&& ~~~a

/-! ### Timed and signal-point instructions (R109–R113) -/

/-- WAITT (R110): the next instruction issues at the first edge at which the time base is at or after pair p. -/
def execWaitt (t : Tick) (c : Fin 26) (p : Fin 32) (s : State) : Host.Outcome State Fault Refusal :=
  .next (s.issue t c 1 fun w s =>
    if !pairOkR p then .exc xILLEGAL 0 s
    else if s.grPair w p ≤ s.clk.tb then .next s
    else .wait (s.grPair w p) s)

/-- WAITT_RESUME (R110, R137): the time base reaches the operand; on Sinel-T an operand at or beyond D_k never resumes. -/
def execWaittResume (t : Tick) (c : Fin 26) (slot : Fin 8) (s : State) : Host.Outcome State Fault Refusal :=
  let s := s.atStep t 8
  if c.val < 24 then
    match s.logicalOf c.val with
    | none => .next s
    | some l =>
      match (s.slot (8 * l + slot.val)).inst with
      | none => .next s
      | some i =>
        match i.waitUntil with
        | none => .next s
        | some u =>
          if u ≤ s.clk.tb ∧ u < i.deadline then .next (s.modInst (8 * l + slot.val) fun i => { i with waitUntil := none })
          else .next s
  else
    match (s.gcore (c.val - 24)).waitUntil with
    | none => .next s
    | some u =>
      if u ≤ s.clk.tb then
        .next (s.modGcore (c.val - 24) fun g => { g with waitUntil := none, pc := (g.pc + 4) % 2 ^ 32 })
      else .next s

/-- ARM (R111): on Sinel-T it stages an arm; Sinel-G lacks it. -/
def execArm (t : Tick) (c : Fin 26) (p a b : Fin 32) (s : State) : Host.Outcome State Fault Refusal :=
  .next (s.issue t c 1 fun w s =>
    match w with
    | .g _ => .exc xILLEGAL 0 s
    | .t key ph _ =>
      let id := (s.gr w a).toNat
      if !pairOkR p then .exc xILLEGAL 0 s
      else if 64 ≤ (s.slot key).cbuse then .exc xCOMMIT_FULL 0 s
      else if 16 ≤ s.armuse key ph then .exc xARM_FULL 0 s
      else if 2 ^ 20 ≤ id || id / 1024 != s.lineId then .exc xPOINT 0 s
      else .next (s.stageWrite key (.arm (s.grPair w p) (id % 1024) (s.gr w b))))

/-- SPR (R103, R112). -/
def execSpr (t : Tick) (c : Fin 26) (rd a : Fin 32) (s : State) : Host.Outcome State Fault Refusal :=
  .next (s.issue t c 1 fun w s =>
    let id := (s.gr w a).toNat
    if 2 ^ 20 ≤ id then .exc xPOINT 0 s
    else
      let staged := match w with
        | .t key _ _ => if id / 1024 = s.lineId then
            stagedPoint (id % 1024) (((s.slot key).inst.map (·.staged)).getD []) else none
        | .g _ => none
      match staged with
      | some v => .next (s.setGr w rd v)
      | none => let (v, s) := s.sprPoint id; .next (s.setGr w rd v))

/-- SPW (R103, R112, R449): staged on Sinel-T; on Sinel-G the write is made, or sent over the Line, at once. -/
def execSpw (t : Tick) (c : Fin 26) (a b : Fin 32) (s : State) : Host.Outcome State Fault Refusal :=
  .next (s.issue t c 1 fun w s =>
    let id := (s.gr w a).toNat
    let v := s.gr w b
    let own := id / 1024 = s.lineId
    match w with
    | .t key _ _ =>
      if 64 ≤ (s.slot key).cbuse then .exc xCOMMIT_FULL 0 s
      else if 2 ^ 20 ≤ id then .exc xPOINT 0 s
      else .next (s.stageWrite key (if own then .point (id % 1024) v else .remote id v))
    | .g _ =>
      if 2 ^ 20 ≤ id then .exc xPOINT 0 s
      else .next (if own then s.setPoint (id % 1024) v else s.sendSpw id v s.clk.tb))

/-- YIELD (R113). -/
def execYield (t : Tick) (c : Fin 26) (s : State) : Host.Outcome State Fault Refusal :=
  .next (s.issue t c 1 fun w s =>
    match w with
    | .t .. => .yield s
    | .g n => if (s.readyLine n).isSome || (s.gcore n).nmi then .next s else .yield s)

/-- YIELD_WAKE (R113): a pending enabled line or an NMI ends the wait; execution continues at the next instruction. -/
def execYieldWake (t : Tick) (g : Fin 2) (s : State) : Host.Outcome State Fault Refusal :=
  let s := s.at t
  if (s.gcore g).yielding = true ∧ ((s.readyLine g).isSome = true ∨ (s.gcore g).nmi = true) then
    .next (s.modGcore g fun c => { c with yielding := false })
  else .next s

/-! ### Interrupts and NMI (R120, R125, R126) -/

/-- INTERRUPT_ENTRY (R126): with IE 1 and DEPTH BASE, and no NMI to take first, the lowest pending enabled line is
taken. -/
def execInterruptEntry (t : Tick) (g : Fin 2) (s : State) : Host.Outcome State Fault Refusal :=
  let s := s.at t
  let c := s.gcore g
  if c.running = true ∧ c.ie = true ∧ c.depth = 0 ∧ c.nmi = false then
    match s.readyLine g with
    | some n => .next (s.modGcore g fun c => c.enterTrap (0x80 + n) 0 (0x100 + 16 * n))
    | none => .next s
  else .next s

/-- NMI_ENTRY (R120, R121): a delivered NMI is taken unless the core is in an NMI handler. -/
def execNmiEntry (t : Tick) (g : Fin 2) (s : State) : Host.Outcome State Fault Refusal :=
  let s := s.at t
  let c := s.gcore g
  if c.running = true ∧ c.nmi = true ∧ c.depth < 2 then .next (s.modGcore g GCore.enterNmi) else .next s

/-! ### System operations (R116) -/

/-- An operation of the SYS group: Sinel-T lacks all but FENCE; `sLevel` ones raise PRIV at level U (R116, R122). -/
def State.sysOp (t : Tick) (c : Fin 26) (sLevel : Bool) (body : Nat → State → Eff) (s : State) :
    Host.Outcome State Fault Refusal :=
  .next (s.issue t c 1 fun w s =>
    match w with
    | .t .. => .exc xILLEGAL 0 s
    | .g n => if sLevel && (s.gcore n).user then .exc xPRIV 0 s else body n s)

/-- SYSCALL (R116). -/
def execSyscall (t : Tick) (c : Fin 26) (s : State) : Host.Outcome State Fault Refusal :=
  s.sysOp t c false fun _ s => .exc xSYSCALL 0 s

/-- BREAK (R116): with the debug port attached it halts the core instead. -/
def execBrk (t : Tick) (c : Fin 26) (s : State) : Host.Outcome State Fault Refusal :=
  s.sysOp t c false fun n s => if (s.gcore n).debug then .halt s else .exc xBREAK 0 s

/-- FENCE (R104, R116): every access of the core has completed before this command; on Sinel-T it has no effect. -/
def execFence (t : Tick) (c : Fin 26) (s : State) : Host.Outcome State Fault Refusal :=
  .next (s.issue t c 1 fun _ s => .next s)

/-! ### Undefined words (R95, R96) -/

/-- ILLEGAL_WORD (R95, R117): an undefined word raises ILLEGAL in one cycle. -/
def execIllegalWord (t : Tick) (c : Fin 26) (w : Word) (s : State) : Host.Outcome State Fault Refusal :=
  if illegalWord (24 ≤ c.val) w then .next (s.issue t c 1 fun _ s => .exc xILLEGAL 0 s) else .next (s.at t)

end Sys2Proof.Machine
end

