-- ==== Sys2Proof/Machine/SinelMemCmd.lean ====
section
/-!
DEFINITION. The commands of Machine/SinelMem.lean.
-/

namespace Sys2Proof.Machine

/-! ### LD, LDS, ST, SWAPW -/

/-- A load on either profile (R101). -/
def State.load (t : Tick) (c : Fin 26) (sz : Fin 4) (rt ra : Fin 32) (off : BitVec 14) (signed : Bool) (s : State) :
    Host.Outcome State Fault Refusal :=
  .next (s.issueBy t c (State.memLat ra off) fun w s =>
    let a := s.dataAddr w ra off
    if (signed && 2 ≤ sz.val) || (sz = 3 && !pairOkR rt) then .exc xILLEGAL 0 s
    else if a % 2 ^ sz.val ≠ 0 then .exc xALIGN a s
    else match w with
      | .t key p _ => s.loadT w key p a rt sz signed
      | .g n =>
        match s.loadG n a (2 ^ sz.val) with
        | (.ok v, s) => .next (s.putLoad w rt sz signed v)
        | (.error e, s) => .exc e a s)

/-- LD (R101). -/
def execLd (t : Tick) (c : Fin 26) (sz : Fin 4) (rt ra : Fin 32) (off : BitVec 14) (s : State) :
    Host.Outcome State Fault Refusal := s.load t c sz rt ra off false

/-- LDS (R101): a byte or half-word, sign-extended; a word or pair raises ILLEGAL. -/
def execLds (t : Tick) (c : Fin 26) (sz : Fin 4) (rt ra : Fin 32) (off : BitVec 14) (s : State) :
    Host.Outcome State Fault Refusal := s.load t c sz rt ra off true

/-- ST (R101, R103): staged on Sinel-T, made at once on Sinel-G. -/
def execSt (t : Tick) (c : Fin 26) (sz : Fin 4) (rt ra : Fin 32) (off : BitVec 14) (s : State) :
    Host.Outcome State Fault Refusal :=
  .next (s.issueBy t c (State.memLat ra off) fun w s =>
    let a := s.dataAddr w ra off
    if sz = 3 && !pairOkR rt then .exc xILLEGAL 0 s
    else if a % 2 ^ sz.val ≠ 0 then .exc xALIGN a s
    else match w with
      | .t key p _ => s.storeT key p a sz (s.storeValue w rt sz)
      | .g n =>
        match s.storeG n a (2 ^ sz.val) (s.storeValue w rt sz) with
        | (none, s) => .next s
        | (some e, s) => .exc e a s)

/-- SWAPW (R105): Sinel-G only; a word in the Stacks or supervisor local memory, through a window with C = 0. -/
def execSwapw (t : Tick) (c : Fin 26) (sz : Fin 4) (rt ra : Fin 32) (off : BitVec 14) (s : State) :
    Host.Outcome State Fault Refusal :=
  .next (s.issue t c 1 fun w s =>
    let va := s.dataAddr w ra off
    match w with
    | .t .. => .exc xILLEGAL 0 s
    | .g n =>
      let a := (s.gcore n).phys va
      if sz.val ≠ 2 then .exc xILLEGAL 0 s
      else if va % 4 ≠ 0 then .exc xALIGN va s
      else if s.windowRefuses n va true || ((s.gcore n).win va).getLsbD 18 || !swapReach a then .exc xACCESS va s
      else if !s.gateAllows (iSUP n) a 4 .store then .exc xACCESS va (s.gateRefuse (iSUP n) a .store)
      else match s.readMem (iSUP n) a 4 with
        | (.error e, s) => .exc e.exc va s
        | (.ok bs, s) => .next ((s.setMem a 4 (s.gr w rt).toNat).setGr w rt (BitVec.ofNat 32 (natLE bs))))

/-! ### Return from trap (R120) -/

/-- RTT (R116, R120, R391): by DEPTH; ILLEGAL at BASE, whatever the level, for it comes before PRIV (R118). -/
def execRtt (t : Tick) (c : Fin 26) (s : State) : Host.Outcome State Fault Refusal :=
  s.sysOp t c false fun n s =>
    let g := s.gcore n
    if g.depth = 0 then .exc xILLEGAL 0 s
    else if g.user then .exc xPRIV 0 s
    else if g.depth = 2 then
      .jump (g.kr 41).toNat (s.modGcore n fun g => { g.setKr 1 (g.kr 42 &&& 0xF) with nmiService := false }).nmiSettle
    else .jump (g.kr 5).toNat (s.modGcore n fun g => g.setKr 1 (g.kr 43 &&& 0xF))

/-! ### Cache operations (R116, R127) -/

/-- A cache operation by address: it raises what a load from ra would raise (R116), and acts on the line. -/
def State.lineOp (t : Tick) (c : Fin 26) (ra : Fin 32) (sLevel : Bool) (act : Nat → Nat → State → State) (s : State) :
    Host.Outcome State Fault Refusal :=
  s.sysOp t c sLevel fun n s =>
    let va := (s.gr (.g n) ra).toNat
    let a := (s.gcore n).phys va
    if s.windowRefuses n va false then .exc xACCESS va s
    else if !s.gateAllows (iSUP n) a 1 .load then .exc xACCESS va (s.gateRefuse (iSUP n) a .load)
    else if !(s.cachedData n va && (s.dline n a).isSome) && !(if inRegs a then s.regOn a else s.memOn a 1) then
      .exc xBUS va s
    else .next (act n a s)

/-- CCLEAN. -/
def execCclean (t : Tick) (c : Fin 26) (ra : Fin 32) (s : State) : Host.Outcome State Fault Refusal :=
  s.lineOp t c ra false State.cleanLine

/-- CINV. -/
def execCinv (t : Tick) (c : Fin 26) (ra : Fin 32) (s : State) : Host.Outcome State Fault Refusal :=
  s.lineOp t c ra true fun n a s => s.dropLine n (a / 64 * 64)

/-- CFLUSH. -/
def execCflush (t : Tick) (c : Fin 26) (ra : Fin 32) (s : State) : Host.Outcome State Fault Refusal :=
  s.lineOp t c ra false fun n a s => (State.cleanLine n a s).dropLine n (a / 64 * 64)

/-- ICINV. -/
def execIcinv (t : Tick) (c : Fin 26) (ra : Fin 32) (s : State) : Host.Outcome State Fault Refusal :=
  s.lineOp t c ra true fun n a s => s.modGcore n fun g => { g with icache := g.icache.filter fun l => l ≠ a / 64 }

/-- DCALL: every dirty line is written back, and the cache is empty. -/
def execDcall (t : Tick) (c : Fin 26) (s : State) : Host.Outcome State Fault Refusal :=
  s.sysOp t c true fun n s =>
    .next (((s.gcore n).dcache.foldl (fun s l => s.writeBack n l) s).modGcore n fun g => { g with dcache := [] })

/-- ICALL. -/
def execIcall (t : Tick) (c : Fin 26) (s : State) : Host.Outcome State Fault Refusal :=
  s.sysOp t c true fun n s => .next (s.modGcore n fun g => { g with icache := [] })

/-! ### Entries that leave a commit buffer (R140, R141) -/

/-- COMMIT_ENTRY_DRAIN (R140, R141): the oldest entry of a slot's buffer reaches its target 2 cycles after the standing slot
that serves it; what cores before its own send at the same edge lands first. -/
def execCommitEntryDrain (t : Tick) (l : Fin 20) (slot : Fin 8) (s : State) : Host.Outcome State Fault Refusal :=
  let s := s.at t
  match (s.slot (8 * l.val + slot.val)).leaving with
  | [] => .next s
  | x :: _ => .next ((List.range (x.core + 1)).foldl State.drainCore s)

end Sys2Proof.Machine
end

