-- ==== Sys2Proof/Machine/SlotsCmd.lean ====
section
/-!
DEFINITION. The commands of Machine/Slots.lean.
-/

namespace Sys2Proof.Machine

/-! ### Activation -/

/-- FRAME_LOAD (R132, R133): 512 ticks before R0 the check is made and the frame copied. -/
def execFrameLoad (t : Tick) (l : Fin 20) (slot : Fin 8) (s : State) : Host.Outcome State Fault Refusal :=
  let s := s.atStep t 6
  let key := 8 * l.val + slot.val
  if (s.slot key).use = .standing then .next (s.ensureLoaded key (s.slot key).r0)
  else match s.nextSpan key with
    | some c => if coreEdge c.start ≤ s.clk.tb + 512 then .next (s.ensureLoaded key (coreEdge c.start)) else .next s
    | none => .next s

/-- SPAN_START (R130, R131): a TASK claim's window opens and the slot's span starts with the claim's parameters. -/
def execSpanStart (t : Tick) (l : Fin 20) (slot : Fin 8) (s : State) : Host.Outcome State Fault Refusal :=
  let s := s.atStep t 6
  let key := 8 * l.val + slot.val
  if (s.slot key).use = .off ∨ s.spanOver key then
    match s.nextSpan key with
    | none => .next s
    | some c =>
      if s.clk.tb < c.start then .next s
      else
        let s := s.ensureLoaded key (coreEdge c.start)
        .next (((s.clearHist key).beginSpan key .timetable (coreEdge c.start) (some c.stop)).loadParams key c.c)
  else .next s

/-- SPAN_END (R131): the span ends; the claims whose windows have ended leave SQ. -/
def execSpanEnd (t : Tick) (l : Fin 20) (slot : Fin 8) (s : State) : Host.Outcome State Fault Refusal :=
  let s := s.atStep t 6
  let key := 8 * l.val + slot.val
  if s.spanOver key then
    let s := s.modSlot key fun x => { x with use := .off, spanEnd := none }
    .next { s with sq := { s.sq with claims := s.sq.claims.filter fun c =>
      !(c.c.core == l.val && c.c.slot == slot.val && c.stop ≤ s.clk.tb) } }
  else .next s

/-- RELEASE (R131, R132): a period releases an instance at ENTRY, or is dropped with NOT_READY. -/
def execRelease (t : Tick) (l : Fin 20) (slot : Fin 8) (s : State) : Host.Outcome State Fault Refusal :=
  let s := s.atStep t 7
  let key := 8 * l.val + slot.val
  let x := s.slot key
  let r := s.nextRelease key
  let d := s.nextDeadline key
  let inSpan := match s.spanLimit key with | some e => decide (d ≤ e) | none => true
  if x.use != .off && x.inst.isNone && !x.stopping && decide (r ≤ s.clk.tb) && inSpan then
    let s := s.ensureLoaded key x.r0
    let s := s.modSlot key fun x => { x with started := x.started + 1 }
    if (s.slot key).loaded = some (x.r0, true) then
      .next (s.modSlot key fun y =>
        { y with inst := some { k := x.started, release := r, deadline := d
                                pc := s.f (atKey Reg.SQ_SLOT_ENTRY key) 15 0 } })
    else
      let s := if x.notReadyRaised then s
        else (s.modSlot key fun x => { x with notReadyRaised := true }).raise srcSQ 3
      .next (s.dropPeriod key dNOT_READY (0, 0, 0))
  else .next s

/-- DEADLINE_DROP (R144): an instance not complete at D_k is dropped with cause DEADLINE. -/
def execDeadlineDrop (t : Tick) (l : Fin 20) (slot : Fin 8) (s : State) : Host.Outcome State Fault Refusal :=
  let s := s.atStep t 4
  let key := 8 * l.val + slot.val
  match (s.slot key).inst with
  | some i => if i.deadline ≤ s.clk.tb then .next (s.dropPeriod key dDEADLINE (0, 0, 0)) else .next s
  | none => .next s

/-- ARM_FIRE (R142): an arm entry writes its point at the first CORE edge at or after its time, and is given back. -/
def execArmFire (t : Tick) (p : Fin 24) (n : Fin 16) (s : State) : Host.Outcome State Fault Refusal :=
  let s := s.atStep t 1
  match (s.armEntries p).find? fun x => x.n == n.val with
  | some x =>
    if x.time ≤ s.clk.tb then
      .next ((s.setArms p ((s.armEntries p).filter fun y => y.n ≠ n.val)).setPointAt (rankArmed x) x.point x.value)
    else .next s
  | none => .next s

/-! ### Standing use (R134) -/

/-- SLOT_START (R134). -/
def execSlotStart (t : Tick) (l : Fin 20) (slot : Fin 8) (s : State) : Host.Outcome State Fault Refusal :=
  let s := s.atStep t 6
  if s.domOn 2 then .next (s.slotStart (8 * l.val + slot.val)) else .next s

/-- SLOT_STOP (R134). -/
def execSlotStop (t : Tick) (l : Fin 20) (slot : Fin 8) (s : State) : Host.Outcome State Fault Refusal :=
  let s := s.atStep t 6
  if s.domOn 2 then .next (s.slotStop (8 * l.val + slot.val)) else .next s

/-! ### Substitution requests (R148) -/

/-- SUBST_REQUEST (R148). -/
def execSubstRequest (t : Tick) (w : Word) (s : State) : Host.Outcome State Fault Refusal :=
  let s := s.at t
  if s.domOn 2 then .next (s.requestSubst w) else .next s

/-- SUBST_CANCEL (R148): a write of LOGICAL 0x1F. -/
def execSubstCancel (t : Tick) (s : State) : Host.Outcome State Fault Refusal :=
  let s := s.at t
  if s.domOn 2 then .next s.cancelSubst else .next s

end Sys2Proof.Machine
end

