-- ==== Sys2Proof/Machine/StpCmd.lean ====
section
/-!
DEFINITION. The commands of Machine/Stp.lean.
-/

namespace Sys2Proof.Machine

/-! ### Encoders and gearing (R317–R321) -/

/-- ENCODER_COUNT (R317, R320): the samples of A and B at the ACT edges up to now since the last such command; each
transition that they are taken to make moves the count by one, or is an encoder fault. -/
def execEncoderCount (t : Tick) (e : Fin 8) (ab : List (Bool × Bool)) (s : State) : Host.Outcome State Fault Refusal :=
  let s := s.at t
  if !s.actOn || !s.fb (Reg.STP_ENC_CFG e) 0 then .next s else .next (ab.foldl (fun s x => s.encSample e x) s)

/-- ENCODER_INDEX_EDGE (R317): the samples of Z at the ACT edges up to now since the last such command. -/
def execEncoderIndexEdge (x : Samples Bool) (e : Fin 8) (s : State) : Host.Outcome State Fault Refusal :=
  let s := s.at x.t
  if !s.actOn || !s.fb (Reg.STP_ENC_CFG e) 0 then .next s else .next (x.ls.foldl (fun s v => s.zSample e v) s)

/-! ### The motion period (R303, R327) -/

/-- MOTION_PERIOD (R303): a boundary of all channels and encoders. `ms` holds the load angles measured since the boundary
before and the bits of winding currents A and B (R305), by channel; a measurement that is due without one is a free
value (log entry 3). -/
def execMotionPeriod (t : Tick) (ms : List (Nat × Nat) × List (Nat × BitVec 766 × BitVec 766)) (s : State) :
    Host.Outcome State Fault Refusal :=
  let s := s.at t
  if !s.actOn || t % 6400 ≠ 0 then .next s
  else
    let s := (List.range 8).foldl State.encSpeed s
    .next ((List.range 32).foldl (fun s c => s.motionCh c ((ms.1.find? fun p => p.1 == c).map (·.2))
      ((ms.2.find? fun p => p.1 == c).map (·.2))) s)

/-! ### Commands -/

/-- GO (R310): firmware's GO. -/
def execGo (t : Tick) (c : Fin 32) (s : State) : Host.Outcome State Fault Refusal :=
  let s := s.at t
  if s.actOn then .next (s.stpGo c {}) else .next s

/-- STP_STOP (R313): firmware's STOP. -/
def execStpStop (t : Tick) (c : Fin 32) (s : State) : Host.Outcome State Fault Refusal :=
  let s := s.at t
  if s.actOn then .next (s.stpStop c {}) else .next s

/-- HALT (R315): firmware's HALT stops the channel at once. -/
def execHalt (t : Tick) (c : Fin 32) (s : State) : Host.Outcome State Fault Refusal :=
  let s := s.at t
  if s.actOn then .next (s.stpHalt c {}) else .next s

/-- RESUME (R313): firmware's RESUME. -/
def execResume (t : Tick) (c : Fin 32) (s : State) : Host.Outcome State Fault Refusal :=
  let s := s.at t
  if s.actOn then .next (s.stpResume c {}) else .next s

/-- STP_CLEAR (R310): firmware's CLEAR. -/
def execStpClear (t : Tick) (c : Fin 32) (s : State) : Host.Outcome State Fault Refusal :=
  let s := s.at t
  if s.actOn then .next (s.stpClear c {}) else .next s

/-- MOVE_ABS (R325). -/
def execMoveAbs (t : Tick) (k : Fin 128) (i : Nat) (s : State) : Host.Outcome State Fault Refusal :=
  .next ((s.at t).stpAction k i 1 fun s c q p => (s.ttTarget c (toSigned 32 p)).stpGo c q)

/-- MOVE_REL (R325). -/
def execMoveRel (t : Tick) (k : Fin 128) (i : Nat) (s : State) : Host.Outcome State Fault Refusal :=
  .next ((s.at t).stpAction k i 2 fun s c q p =>
    let cur := toSigned 48 ((s.reg (Reg.STP_TGT_LO c)).toNat + 2 ^ 32 * s.f (Reg.STP_TGT_HI c) 15 0)
    (s.ttTarget c (cur + toSigned 32 p)).stpGo c { q with soft := true })

/-- STP_TT_RUN (R325). -/
def execStpTtRun (t : Tick) (k : Fin 128) (i : Nat) (s : State) : Host.Outcome State Fault Refusal :=
  .next ((s.at t).stpAction k i 3 fun s c q p =>
    let w := speedWord (BitVec.ofNat 32 p)
    ((s.hold (Reg.STP_VCMD c) w).modStp c fun x => { x with ttV := some (toSigned 32 w.toNat, s.clk.tb) }).stpGo c
      { q with soft := true })

/-- STP_TT_STOP (R325). -/
def execStpTtStop (t : Tick) (k : Fin 128) (i : Nat) (s : State) : Host.Outcome State Fault Refusal :=
  .next ((s.at t).stpAction k i 4 fun s c q _ => s.stpStop c q)

/-- STP_TT_HALT (R325). -/
def execStpTtHalt (t : Tick) (k : Fin 128) (i : Nat) (s : State) : Host.Outcome State Fault Refusal :=
  .next ((s.at t).stpAction k i 5 fun s c q _ => s.stpHalt c q)

/-- STP_TT_RESUME (R325). -/
def execStpTtResume (t : Tick) (k : Fin 128) (i : Nat) (s : State) : Host.Outcome State Fault Refusal :=
  .next ((s.at t).stpAction k i 6 fun s c q _ => s.stpResume c q)

/-- ENGAGE (R325): GO, in GEAR mode. -/
def execEngage (t : Tick) (k : Fin 128) (i : Nat) (s : State) : Host.Outcome State Fault Refusal :=
  .next ((s.at t).stpAction k i 7 fun s c q _ => s.stpGo c q)

/-- GEAR_ARM (R320): a ratio change is armed. -/
def execGearArm (t : Tick) (c : Fin 32) (s : State) : Host.Outcome State Fault Refusal :=
  let s := s.at t
  if s.actOn then .next (s.gearArm c) else .next s

/-- GEAR_CANCEL (R320): an armed ratio change is given up. -/
def execGearCancel (t : Tick) (c : Fin 32) (s : State) : Host.Outcome State Fault Refusal :=
  let s := s.at t
  if s.actOn then .next (s.gearCancel c) else .next s

/-- HOLD_TIMER_EXPIRY (R322). -/
def execHoldTimerExpiry (t : Tick) (c : Fin 16) (s : State) : Host.Outcome State Fault Refusal :=
  let s := s.at t
  let rest := s.stpState c = pIDLE || s.stpState c = pHELD
  if s.actOn && rest && (s.stpCh c).restAt + s.f (Reg.STP_CUR2 c) 31 16 * ms ≤ s.clk.tb then
    .next ((s.modStp c fun x => { x with hold := true }).setF (Reg.STP_LA_MEAS c) 31 16 (s.af (Reg.STP_CUR2 c) 15 0))
  else .next s

/-- STP_POS_HI_WRITE (R323): the HI word applies a position pair. -/
def execStpPosHiWrite (t : Tick) (c : Fin 32) (w : Word) (s : State) : Host.Outcome State Fault Refusal :=
  let s := s.at t
  if s.actOn then .next (s.writePosHi c w) else .next s

/-- STP_TGT_HI_WRITE (R309): the HI word applies a target pair. -/
def execStpTgtHiWrite (t : Tick) (c : Fin 32) (w : Word) (s : State) : Host.Outcome State Fault Refusal :=
  let s := s.at t
  if s.actOn then .next (s.writeTgtHi c w) else .next s

/-- STP_ENC_CNT_HI_WRITE (R317): the HI word applies a count pair. -/
def execStpEncCntHiWrite (t : Tick) (e : Fin 8) (w : Word) (s : State) : Host.Outcome State Fault Refusal :=
  let s := s.at t
  if s.actOn then .next (s.writeCntHi e w) else .next s

end Sys2Proof.Machine
end

