-- ==== Sys2Proof/Machine/SysClkCmd.lean ====
section
/-!
DEFINITION. The commands of Machine/SysClk.lean.
-/

namespace Sys2Proof.Machine

/-! ### Resets (R42, R471) -/

/-- POR (R42): every block takes its POR state; a life-cycle change that was cut short is finished first (R471). -/
def execPor (t : Tick) (s : State) : Host.Outcome State Fault Refusal :=
  let s := s.at t
  let lc := s.sec.otp.lc
  if s.fb Reg.LDG_STATUS 1 then .next (s.por.lcWipe (lc - 1) (s.lifeCycleWritten lc)) else .next s.por

/-- CRST (R42, R391). -/
def execCrst (t : Tick) (s : State) : Host.Outcome State Fault Refusal := .next (s.at t).crst

/-! ### Clocks -/

/-- UNLOCK (R26): the active root PLL loses lock. -/
def execUnlock (t : Tick) (s : State) : Host.Outcome State Fault Refusal :=
  let s := s.at t
  if s.fb Reg.CLK_ROOT 8 then .next ((s.setB Reg.CLK_ROOT 8 false).raise srcCLK 0) else .next s

/-- CLK_TB_LO_READ (R30): the upper half is latched for the reading port. -/
def execClkTbLoRead (t : Tick) (ini : Fin 7) (s : State) : Host.Outcome State Fault Refusal :=
  let (r, s) := (s.at t).busLoad ini Reg.CLK_TB_LO 4
  .next (s.setAcc ini r)

/-- SYS_PROFILE_WRITE (R5): refused with CFG_BUSY once the profile is fixed. -/
def execSysProfileWrite (t : Tick) (w : Word) (s : State) : Host.Outcome State Fault Refusal :=
  let s := s.at t
  match findReg Reg.SYS_PROFILE with
  | some (d, _) => .next (s.storeReg Reg.SYS_PROFILE d 0 0 w)
  | none => .next s

/-- Time passes with no command waiting: to the next CORE edge, or REF edge while the root clock is stopped (R23, R27,
R29; log entry 46). What PWR and a held mode request wait for may come due. -/
def State.idle (s : State) : State := (s.at (s.now + if s.clk.run then 8 else 256)).takeHeld

/-! ### The Junction (R36–R40) -/

/-- SLOT_TABLE_SWAP (R38): the bank written becomes the active one; a request made since follows it. -/
def execSlotTableSwap (t : Tick) (s : State) : Host.Outcome State Fault Refusal :=
  let s := s.at t
  if s.fb Reg.JCT_STATUS 1 ∧ swapEdge s.jct.reqAt ≤ s.clk.tb then
    let again := s.jct.again
    let s := ((s.setB Reg.JCT_STATUS 0 (!s.fb Reg.JCT_STATUS 0)).setB Reg.JCT_STATUS 1 false).setF Reg.JCT_STATUS 14 8
      (rtMax s.jct.next)
    let s := { s with jct := { s.jct with resv := s.jct.next, again := false } }
    .next (if again then s.requestSwap else s)
  else .next s

/-- BE_AGE_SATURATE (R40). -/
def execBeAgeSaturate (t : Tick) (s : State) : Host.Outcome State Fault Refusal :=
  let s := s.at t
  if s.domOn 2 then .next ((s.incSat Reg.JCT_AGE_SAT 15 0).raise srcJCT 0) else .next s

end Sys2Proof.Machine
end

