-- ==== Sys2Proof/Machine/ThermalCmd.lean ====
section
/-!
DEFINITION. The commands of Machine/Thermal.lean.
-/

namespace Sys2Proof.Machine

/-! ### Throttling (R424) -/

/-- THROTTLE_GRACE_EXPIRY (R424), at a sample. -/
def execThrottleGraceExpiry (t : Tick) (s : State) : Host.Outcome State Fault Refusal :=
  let s := s.at t
  if s.thmSampled && s.fb Reg.THM_STATUS 4 && !s.fb Reg.THM_STATUS 5 && s.fb Reg.THM_STATUS 3 &&
     s.thm.advAt + s.f Reg.THM_TIMES 15 0 * ms ≤ s.now then
    let s := ((s.applyS Reg.THM_THR_HORIZON).applyS Reg.THM_THR_PITCH).applyS Reg.THM_THR_ALLOW
    let s := (s.thrState true true 128 0 3200).thrEnforced
    .next ((s.incSat Reg.THM_CNT 31 16).thmEvent 1 1)
  else .next s

/-- THROTTLE_RELEASE (R424), at a sample. -/
def execThrottleRelease (t : Tick) (s : State) : Host.Outcome State Fault Refusal :=
  let s := s.at t
  match s.thm.calm with
  | some c =>
    if s.thmSampled && s.fb Reg.THM_STATUS 3 && c + s.f Reg.THM_TIMES 31 16 * ms ≤ s.now then
      .next (((s.setB Reg.THM_STATUS 3 false).thrState false false 128 0 3200).setB Reg.THM_IRQ_STATUS 5 true)
    else .next s
  | none => .next s

/-! ### Samples -/

/-- THM_SAMPLE (R420–R425): the readings of the twelve sensors, in 0.1 °C, at a time-base multiple of 400,000. -/
def execThmSample (t : Tick) (rs : List (Option (BitVec 16))) (s : State) : Host.Outcome State Fault Refusal :=
  let s := s.at t
  if t % 400000 ≠ 0 then .next s
  else
    let rs : List (Option Int) := rs.map fun r => r.map (·.toInt)
    let idx := List.range 12
    let old := idx.map s.thmVal
    let vals := idx.map (s.sampleVal rs)
    let s := idx.foldl (fun s i =>
      let x := vals.getD i 0
      let w := putBits (s.reg (Reg.THM_TS i)) 15 0 (fromSigned 16 x)
      let w := putBits w 17 17 (if s.sensorFailed i then 1 else 0)
      { s with thm := { s.thm with vals := Tab.put 0 s.thm.vals i x } }.setReg (Reg.THM_TS i) w) s
    let s := idx.foldl (fun s i => if (goodReading (rs.getD i none)).isNone then s.failSensor i else s) s
    let s := (List.range 6).foldl (fun s p => s.samplePair rs p) s
    let (tmax, src) := maxWith vals 0
    let s := (s.setF Reg.THM_TMAX 15 0 (fromSigned 16 tmax)).setF Reg.THM_STATUS 11 8 src
    let s := { s with thm := { s.thm with samples := (s.now, tmax) :: s.thm.samples.take 31 } }
    let band := s.f Reg.THM_STATUS 2 0
    let new := bandNext band tmax (s.f Reg.THM_BAND_CFG 7 0)
    let s := if new = band then s
      else ({ s with thm := { s.thm with turn := some (s.clk.tb, band) } }.setF Reg.THM_STATUS 2 0 new).thmEvent 4 4
    let s := s.sampleThrottle
    let s := ((s.applyS Reg.THM_THR_HORIZON).applyS Reg.THM_THR_PITCH).applyS Reg.THM_THR_ALLOW
    let s := if s.fb Reg.THM_STATUS 5 then s.thrEnforced else s
    .next (idx.foldl (fun s i => s.sampleHot i (old.getD i 0)) s)

/-- RISE_UPDATE (R422): the mean of the millisecond just ended, and the rise over the last 100 ms, rounded down. -/
def execRiseUpdate (t : Tick) (s : State) : Host.Outcome State Fault Refusal :=
  let s := s.at t
  let now := s.now
  let xs := s.thm.samples.filter fun p => now ≤ p.1 + ms && p.1 < now
  if t % ms ≠ 0 || xs.length ≠ 16 then .next s
  else
    let sum := (xs.map (·.2)).sum
    let rise := match s.thm.sums[99]? with
      | some old => floorDiv ((sum - old) * 10) 16
      | none => 0
    let s := { s with thm := { s.thm with sums := sum :: s.thm.sums.take 100 } }
    .next (s.setF Reg.THM_TMAX 31 16 (fromSigned 16 (clampInt (-32768) 32767 rise)))

end Sys2Proof.Machine
end

