-- ==== Sys2Proof/Machine/TimetableCmd.lean ====
section
/-!
DEFINITION. The commands of Machine/Timetable.lean.
-/

namespace Sys2Proof.Machine

/-! ### The commands of the Timetable's rows -/

/-- SUBMIT (R58): queue an image address, bits [37:6]; with 8 queued it is discarded and SUBMIT_OVF sets. -/
def execSubmit (t : Tick) (w : Word) (s : State) : Host.Outcome State Fault Refusal :=
  let s := s.at t
  if s.domOn 2 then .next (s.submit w) else .next s

/-- CHECK_START (R58): with no check in progress and no record held, admission takes the head of the queue. The check ends
no later than R61 allows. -/
def execCheckStart (t : Tick) (s : State) : Host.Outcome State Fault Refusal :=
  let s := s.at t
  match s.tt.queue with
  | [] => .next s
  | a :: q =>
    if s.tt.check.isNone && s.tt.held.isEmpty then
      .next ({ s with tt := { s.tt with queue := q, check := some (s.snapshot a) } }.modeEvent (s.clk.tb + checkMax)
        (.checkEnd s.clk.tb))
    else .next s

/-- CHECK_END (R60): the evaluation ends at this edge, after a SAFE trigger and before a request of the same edge (R43). -/
def execCheckEnd (t : Tick) (s : State) : Host.Outcome State Fault Refusal :=
  let s := s.at t
  match s.tt.check with
  | none => .next s
  | some c => .next (s.modeEvent s.now (.checkEnd c.start))

/-- PNR_REACHED (R72): the time base reaches a committed sheet's PNR and the sheet becomes RUNNING. -/
def execPnrReached (t : Tick) (k : Fin 128) (s : State) : Host.Outcome State Fault Refusal :=
  let s := s.at t
  match s.sheet k with
  | none => .next s
  | some sh =>
    if s.sheetState k = stCOMMITTED ∧ sh.pnr ≤ s.clk.tb then .next (s.setF (Reg.TT_SHEET k) 3 0 stRUNNING)
    else .next s

/-- ACTION_TOLERANCE_EXPIRY (R74): no in-tolerance report came by the end of the tolerance window. A main action of a
sheet without outcome forms ACTION_LATE; any other miss is counted (R79), a list action's too (log entry 90). -/
def execActionToleranceExpiry (t : Tick) (k : Fin 128) (i : Nat) (s : State) : Host.Outcome State Fault Refusal :=
  let s := s.at t
  match s.armedAt k i with
  | none => .next s
  | some a =>
    if s.clk.tb < a.time + classTol a.act.cls then .next s
    else
      let own := (s.orphanAt k i).isNone
      let s := s.dropArmed k i
      let s := if a.act.exit && own then s.exited k else s
      if own ∧ a.list = .main ∧ (s.sheetState k = stCOMMITTED ∨ s.sheetState k = stRUNNING) then
        .next (s.cause k cACTION_LATE i)
      else .next ((s.incSat Reg.TT_CNT_LATE 31 0).tryFree k)

/-- CLAIM_WINDOW_END (R71): claim i's window has ended; a sheet with its outcome and its actions done is freed. -/
def execClaimWindowEnd (t : Tick) (k : Fin 128) (i : Nat) (s : State) : Host.Outcome State Fault Refusal :=
  let s := s.at t
  match s.sheet k with
  | none => .next s
  | some sh =>
    match sh.claims[i]? with
    | none => .next s
    | some c =>
      if s.clk.tb < sh.origin + c.winEnd then .next s
      else
        let s := s.modSheet k fun sh => { sh with released := if sh.released.contains i then sh.released
                                                              else sh.released ++ [i] }
        .next (s.tryFree k)

/-- TT_REQ_WITHDRAW (R87). -/
def execTtReqWithdraw (t : Tick) (handle : BitVec 16) (causeByte : Byte) (s : State) : Host.Outcome State Fault Refusal :=
  let s := s.at t
  if s.domOn 2 then .next (s.ttRequest handle.toNat causeByte.toNat false) else .next s

/-- TT_REQ_SPOIL (R87). -/
def execTtReqSpoil (t : Tick) (handle : BitVec 16) (causeByte : Byte) (s : State) : Host.Outcome State Fault Refusal :=
  let s := s.at t
  if s.domOn 2 then .next (s.ttRequest handle.toNat causeByte.toNat true) else .next s

/-- TT_RESQ_TAIL_WRITE (R88): firmware advances the tail; held records reach the ring while it has room. -/
def execTtResqTailWrite (t : Tick) (w : Word) (s : State) : Host.Outcome State Fault Refusal :=
  let s := s.at t
  if s.domOn 2 then .next (s.resqTailWrite w) else .next s

/-- SP_WRITE_ACTION (R56): an armed SP_WRITE writes PARAM to its local point at its armed edge and is reported. -/
def execSpWriteAction (t : Tick) (k : Fin 128) (i : Nat) (s : State) : Host.Outcome State Fault Refusal :=
  let s := s.at t
  match s.take k i (fun a => !a.blockCmd) with
  | .notDue => .next s
  | .skipped s' => .next s'
  | .run a s' => .next ((s'.setPointAt rankAction (a.act.target % 1024) (BitVec.ofNat 32 a.act.param)).report k i s.clk.tb)

/-- UNKNOWN_BLOCK_COMMAND (R57): a command code that the block does not define is carried out by nobody and not
reported, so it is missed (R74). -/
def execUnknownBlockCommand (t : Tick) (k : Fin 128) (i : Nat) (s : State) : Host.Outcome State Fault Refusal :=
  let s := s.at t
  match s.take k i (fun a => a.blockCmd && !definedCmd a.block a.cmd) with
  | .notDue => .next s
  | .skipped s' => .next s'
  | .run _ s' => .next s'

end Sys2Proof.Machine
end

