-- ==== Sys2Proof/Machine/TrustCmd.lean ====
section
/-!
DEFINITION. The commands of Machine/Trust.lean.
-/

namespace Sys2Proof.Machine

/-! ### OTP, stages and measurements (R455, R458, R459, R461) -/

/-- STAGE_ADVANCE (R455). -/
def execStageAdvance (t : Tick) (w : Word) (s : State) : Host.Outcome State Fault Refusal :=
  let s := s.at t
  if s.domOn 2 then .next (s.stageNext (bits w 1 0)) else .next s

/-- SEC_RB_ADV (R458). -/
def execSecRbAdv (t : Tick) (n : Fin 4) (s : State) : Host.Outcome State Fault Refusal :=
  let s := s.at t
  if s.domOn 2 then .next (s.rbAdv n) else .next s

/-- RELEASE1 (R460). -/
def execRelease1 (t : Tick) (s : State) : Host.Outcome State Fault Refusal :=
  let s := s.at t
  if s.domOn 2 then .next s.release1 else .next s

/-! ### The boot ROM (R456, R457) -/

/-- ROOT_PLL_LOCK (R26, R29, R391, R456): the active PLL locks, time resumes, CRST ends, and the boot ROM runs. The
operands are the slots of the boot flash, none where it does not answer. -/
def execRootPllLock (t : Tick) (slotA slotB : Option (List Byte)) (s : State) : Host.Outcome State Fault Refusal :=
  let s := s.at t
  if s.clk.run || !s.sys.bootDue then .next s
  else
    let s := { s with clk := { s.clk with run := true, tb := s.now }
                      sbx := { s.sbx with chip := false }
                      sys := { s.sys with slotA := slotA, slotB := slotB } }
    .next (s.setB Reg.CLK_ROOT 8 true).bootIfDue

/-! ### Commands (R462) -/

/-- The write of an operation by its row, while SUP is ON. -/
def secRow (t : Tick) (op : Nat) (s : State) : Host.Outcome State Fault Refusal :=
  let s := s.at t
  if s.domOn 2 then .next (s.secBegin op) else .next s

/-- KEYGEN (R462). -/
def execKeygen (t : Tick) (s : State) : Host.Outcome State Fault Refusal := secRow t 1 s
/-- FUSE_OEM (R462). -/
def execFuseOem (t : Tick) (s : State) : Host.Outcome State Fault Refusal := secRow t 2 s
/-- CERT (R462). -/
def execCert (t : Tick) (s : State) : Host.Outcome State Fault Refusal := secRow t 3 s
/-- EXTEND (R459). -/
def execExtend (t : Tick) (s : State) : Host.Outcome State Fault Refusal := secRow t 4 s
/-- VERIFY (R462). -/
def execVerify (t : Tick) (s : State) : Host.Outcome State Fault Refusal := secRow t 5 s
/-- SIGN (R463). -/
def execSign (t : Tick) (s : State) : Host.Outcome State Fault Refusal := secRow t 6 s
/-- METER (R465). -/
def execMeter (t : Tick) (s : State) : Host.Outcome State Fault Refusal := secRow t 7 s
/-- LC_CHANGE (R470). -/
def execLcChange (t : Tick) (s : State) : Host.Outcome State Fault Refusal := secRow t 8 s

/-! ### Telemetry entries (R486) -/

/-- SEC_COMMAND_COMPLETE (R462): the running command ends; a snapshot that waits for SEC is signed after it (R481). -/
def execSecCommandComplete (t : Tick) (s : State) : Host.Outcome State Fault Refusal :=
  let s := s.at t
  if !s.domOn 2 then .next s
  else
    let s := match s.sec.cmd with
      | none => s
      | some c => { s with sec := { s.sec with cmd := none } }.secEnd c
    match s.bkg.tel with
    | some snap => .next (s.telSign snap)
    | none => .next s

end Sys2Proof.Machine
end

