-- ==== Sys2Proof/Machine/Dispatch.lean ====
section
/-!
DEFINITION. The dispatch of commands to their meanings.
-/

namespace Sys2Proof.Machine

def exec (i : Instr) (s : State) : Host.Outcome State Fault Refusal :=
  match i with
  | .por t => Sys2Proof.Machine.execPor t s
  | .crst t => Sys2Proof.Machine.execCrst t s
  | .registerWrite t ini a size v => Sys2Proof.Machine.execRegisterWrite t ini a size v s
  | .clkTbLoRead t ini => Sys2Proof.Machine.execClkTbLoRead t ini s
  | .sysProfileWrite t w => Sys2Proof.Machine.execSysProfileWrite t w s
  | .rootPllLock t slotA slotB => Sys2Proof.Machine.execRootPllLock t slotA slotB s
  | .unlock t => Sys2Proof.Machine.execUnlock t s
  | .slotTableSwap t => Sys2Proof.Machine.execSlotTableSwap t s
  | .beAgeSaturate t => Sys2Proof.Machine.execBeAgeSaturate t s
  | .modeReqArchive t => Sys2Proof.Machine.execModeReqArchive t s
  | .modeReqStandby t => Sys2Proof.Machine.execModeReqStandby t s
  | .modeReqBoot t => Sys2Proof.Machine.execModeReqBoot t s
  | .modeReqReady t => Sys2Proof.Machine.execModeReqReady t s
  | .modeReqPrint t => Sys2Proof.Machine.execModeReqPrint t s
  | .modeReqDrain t => Sys2Proof.Machine.execModeReqDrain t s
  | .modeReqSafe t => Sys2Proof.Machine.execModeReqSafe t s
  | .modeReqService t => Sys2Proof.Machine.execModeReqService t s
  | .intlkAssert x => Sys2Proof.Machine.execIntlkAssert x s
  | .intlkNegate x => Sys2Proof.Machine.execIntlkNegate x s
  | .modeChangeDone t => Sys2Proof.Machine.execModeChangeDone t s
  | .safeSequenceComplete t => Sys2Proof.Machine.execSafeSequenceComplete t s
  | .submit t w => Sys2Proof.Machine.execSubmit t w s
  | .checkStart t => Sys2Proof.Machine.execCheckStart t s
  | .checkEnd t => Sys2Proof.Machine.execCheckEnd t s
  | .pnrReached t k => Sys2Proof.Machine.execPnrReached t k s
  | .actionToleranceExpiry t k idx => Sys2Proof.Machine.execActionToleranceExpiry t k idx s
  | .claimWindowEnd t k idx => Sys2Proof.Machine.execClaimWindowEnd t k idx s
  | .ttReqWithdraw t handle causeByte => Sys2Proof.Machine.execTtReqWithdraw t handle causeByte s
  | .ttReqSpoil t handle causeByte => Sys2Proof.Machine.execTtReqSpoil t handle causeByte s
  | .ttResqTailWrite t w => Sys2Proof.Machine.execTtResqTailWrite t w s
  | .spWriteAction t k idx => Sys2Proof.Machine.execSpWriteAction t k idx s
  | .unknownBlockCommand t k idx => Sys2Proof.Machine.execUnknownBlockCommand t k idx s
  | .illegalWord t c w => Sys2Proof.Machine.execIllegalWord t c w s
  | .add t c rd ra rb => Sys2Proof.Machine.execAdd t c rd ra rb s
  | .sub t c rd ra rb => Sys2Proof.Machine.execSub t c rd ra rb s
  | .and t c rd ra rb => Sys2Proof.Machine.execAnd t c rd ra rb s
  | .or t c rd ra rb => Sys2Proof.Machine.execOr t c rd ra rb s
  | .xor t c rd ra rb => Sys2Proof.Machine.execXor t c rd ra rb s
  | .sll t c rd ra rb => Sys2Proof.Machine.execSll t c rd ra rb s
  | .srl t c rd ra rb => Sys2Proof.Machine.execSrl t c rd ra rb s
  | .sra t c rd ra rb => Sys2Proof.Machine.execSra t c rd ra rb s
  | .slt t c rd ra rb => Sys2Proof.Machine.execSlt t c rd ra rb s
  | .sltu t c rd ra rb => Sys2Proof.Machine.execSltu t c rd ra rb s
  | .min t c rd ra rb => Sys2Proof.Machine.execMin t c rd ra rb s
  | .max t c rd ra rb => Sys2Proof.Machine.execMax t c rd ra rb s
  | .minu t c rd ra rb => Sys2Proof.Machine.execMinu t c rd ra rb s
  | .maxu t c rd ra rb => Sys2Proof.Machine.execMaxu t c rd ra rb s
  | .addsat t c rd ra rb => Sys2Proof.Machine.execAddsat t c rd ra rb s
  | .subsat t c rd ra rb => Sys2Proof.Machine.execSubsat t c rd ra rb s
  | .addi t c rd ra imm => Sys2Proof.Machine.execAddi t c rd ra imm s
  | .slti t c rd ra imm => Sys2Proof.Machine.execSlti t c rd ra imm s
  | .sltiu t c rd ra imm => Sys2Proof.Machine.execSltiu t c rd ra imm s
  | .andi t c rd ra imm => Sys2Proof.Machine.execAndi t c rd ra imm s
  | .ori t c rd ra imm => Sys2Proof.Machine.execOri t c rd ra imm s
  | .xori t c rd ra imm => Sys2Proof.Machine.execXori t c rd ra imm s
  | .slli t c rd ra sh => Sys2Proof.Machine.execSlli t c rd ra sh s
  | .srli t c rd ra sh => Sys2Proof.Machine.execSrli t c rd ra sh s
  | .srai t c rd ra sh => Sys2Proof.Machine.execSrai t c rd ra sh s
  | .lui t c rd imm => Sys2Proof.Machine.execLui t c rd imm s
  | .mul t c rd ra rb => Sys2Proof.Machine.execMul t c rd ra rb s
  | .mulq t c rd ra rb => Sys2Proof.Machine.execMulq t c rd ra rb s
  | .mulw t c rd ra rb => Sys2Proof.Machine.execMulw t c rd ra rb s
  | .mulwu t c rd ra rb => Sys2Proof.Machine.execMulwu t c rd ra rb s
  | .quo t c rd ra rb => Sys2Proof.Machine.execQuo t c rd ra rb s
  | .quou t c rd ra rb => Sys2Proof.Machine.execQuou t c rd ra rb s
  | .mod t c rd ra rb => Sys2Proof.Machine.execMod t c rd ra rb s
  | .modu t c rd ra rb => Sys2Proof.Machine.execModu t c rd ra rb s
  | .ld t c sz rt ra off => Sys2Proof.Machine.execLd t c sz rt ra off s
  | .lds t c sz rt ra off => Sys2Proof.Machine.execLds t c sz rt ra off s
  | .st t c sz rt ra off => Sys2Proof.Machine.execSt t c sz rt ra off s
  | .swapw t c sz rt ra off => Sys2Proof.Machine.execSwapw t c sz rt ra off s
  | .beq t c ra rb off => Sys2Proof.Machine.execBeq t c ra rb off s
  | .bne t c ra rb off => Sys2Proof.Machine.execBne t c ra rb off s
  | .blt t c ra rb off => Sys2Proof.Machine.execBlt t c ra rb off s
  | .bge t c ra rb off => Sys2Proof.Machine.execBge t c ra rb off s
  | .bltu t c ra rb off => Sys2Proof.Machine.execBltu t c ra rb off s
  | .bgeu t c ra rb off => Sys2Proof.Machine.execBgeu t c ra rb off s
  | .jal t c rd imm => Sys2Proof.Machine.execJal t c rd imm s
  | .jalr t c rd ra imm => Sys2Proof.Machine.execJalr t c rd ra imm s
  | .krd t c rd k => Sys2Proof.Machine.execKrd t c rd k s
  | .kwr t c k ra => Sys2Proof.Machine.execKwr t c k ra s
  | .krdp t c rd k => Sys2Proof.Machine.execKrdp t c rd k s
  | .kset t c k ra => Sys2Proof.Machine.execKset t c k ra s
  | .kclr t c k ra => Sys2Proof.Machine.execKclr t c k ra s
  | .waitt t c p => Sys2Proof.Machine.execWaitt t c p s
  | .waittResume t c slot => Sys2Proof.Machine.execWaittResume t c slot s
  | .arm t c p a b => Sys2Proof.Machine.execArm t c p a b s
  | .spr t c rd a => Sys2Proof.Machine.execSpr t c rd a s
  | .spw t c a b => Sys2Proof.Machine.execSpw t c a b s
  | .yield t c => Sys2Proof.Machine.execYield t c s
  | .yieldWake t g => Sys2Proof.Machine.execYieldWake t g s
  | .pnadd t c rd ra rb => Sys2Proof.Machine.execPnadd t c rd ra rb s
  | .pnsub t c rd ra rb => Sys2Proof.Machine.execPnsub t c rd ra rb s
  | .pnmax t c rd ra rb => Sys2Proof.Machine.execPnmax t c rd ra rb s
  | .pnmin t c rd ra rb => Sys2Proof.Machine.execPnmin t c rd ra rb s
  | .pnsel t c rd ra rb => Sys2Proof.Machine.execPnsel t c rd ra rb s
  | .pnlut t c rd ra rb => Sys2Proof.Machine.execPnlut t c rd ra rb s
  | .pncnt t c rd ra => Sys2Proof.Machine.execPncnt t c rd ra s
  | .pnnzc t c rd ra => Sys2Proof.Machine.execPnnzc t c rd ra s
  | .pnge t c rd ra rb => Sys2Proof.Machine.execPnge t c rd ra rb s
  | .pneq t c rd ra rb => Sys2Proof.Machine.execPneq t c rd ra rb s
  | .pnspl t c rd ra => Sys2Proof.Machine.execPnspl t c rd ra s
  | .syscall t c => Sys2Proof.Machine.execSyscall t c s
  | .brk t c => Sys2Proof.Machine.execBrk t c s
  | .rtt t c => Sys2Proof.Machine.execRtt t c s
  | .fence t c => Sys2Proof.Machine.execFence t c s
  | .cclean t c ra => Sys2Proof.Machine.execCclean t c ra s
  | .cinv t c ra => Sys2Proof.Machine.execCinv t c ra s
  | .cflush t c ra => Sys2Proof.Machine.execCflush t c ra s
  | .icinv t c ra => Sys2Proof.Machine.execIcinv t c ra s
  | .dcall t c => Sys2Proof.Machine.execDcall t c s
  | .icall t c => Sys2Proof.Machine.execIcall t c s
  | .interruptEntry t g => Sys2Proof.Machine.execInterruptEntry t g s
  | .nmiEntry t g => Sys2Proof.Machine.execNmiEntry t g s
  | .frameLoad t l slot => Sys2Proof.Machine.execFrameLoad t l slot s
  | .spanStart t l slot => Sys2Proof.Machine.execSpanStart t l slot s
  | .spanEnd t l slot => Sys2Proof.Machine.execSpanEnd t l slot s
  | .release t l slot => Sys2Proof.Machine.execRelease t l slot s
  | .deadlineDrop t l slot => Sys2Proof.Machine.execDeadlineDrop t l slot s
  | .commitEntryDrain t l slot => Sys2Proof.Machine.execCommitEntryDrain t l slot s
  | .armFire t p n => Sys2Proof.Machine.execArmFire t p n s
  | .slotStart t l slot => Sys2Proof.Machine.execSlotStart t l slot s
  | .slotStop t l slot => Sys2Proof.Machine.execSlotStop t l slot s
  | .coreMapWrite t l w => Sys2Proof.Machine.execCoreMapWrite t l w s
  | .substRequest t w => Sys2Proof.Machine.execSubstRequest t w s
  | .substCancel t => Sys2Proof.Machine.execSubstCancel t s
  | .substSafePoint t => Sys2Proof.Machine.execSubstSafePoint t s
  | .substCopyDone t => Sys2Proof.Machine.execSubstCopyDone t s
  | .stream t k idx => Sys2Proof.Machine.execStream t k idx s
  | .bandTileStart t lane => Sys2Proof.Machine.execBandTileStart t lane s
  | .tileComplete t lane => Sys2Proof.Machine.execTileComplete t lane s
  | .tileDecodeError t lane => Sys2Proof.Machine.execTileDecodeError t lane s
  | .jobDecode t lane => Sys2Proof.Machine.execJobDecode t lane s
  | .jobResume t lane => Sys2Proof.Machine.execJobResume t lane s
  | .laneSuspend t lane => Sys2Proof.Machine.execLaneSuspend t lane s
  | .laneResume t lane w => Sys2Proof.Machine.execLaneResume t lane w s
  | .laneSave t lane => Sys2Proof.Machine.execLaneSave t lane s
  | .saveComplete t lane => Sys2Proof.Machine.execSaveComplete t lane s
  | .laneAbort t lane => Sys2Proof.Machine.execLaneAbort t lane s
  | .jobComplete t => Sys2Proof.Machine.execJobComplete t s
  | .fxCqTailWrite t w => Sys2Proof.Machine.execFxCqTailWrite t w s
  | .scnEnWrite t st en => Sys2Proof.Machine.execScnEnWrite t st en s
  | .sosEdge t st x => Sys2Proof.Machine.execSosEdge t st x s
  | .mosEdge t st x => Sys2Proof.Machine.execMosEdge t st x s
  | .eosEdge t st x => Sys2Proof.Machine.execEosEdge t st x s
  | .sensorWindowMiss t st sensor => Sys2Proof.Machine.execSensorWindowMiss t st sensor s
  | .indexEdge t st => Sys2Proof.Machine.execIndexEdge t st s
  | .scanSetHandover t st => Sys2Proof.Machine.execScanSetHandover t st s
  | .facetGap t st => Sys2Proof.Machine.execFacetGap t st s
  | .lockCheck t k idx => Sys2Proof.Machine.execLockCheck t k idx s
  | .expose t k idx => Sys2Proof.Machine.execExpose t k idx s
  | .scanFrameStart t st => Sys2Proof.Machine.execScanFrameStart t st s
  | .columnDeadlineMiss t st col => Sys2Proof.Machine.execColumnDeadlineMiss t st col s
  | .frameEnd t st => Sys2Proof.Machine.execFrameEnd t st s
  | .gapPoint t st => Sys2Proof.Machine.execGapPoint t st s
  | .retireRequest t st w => Sys2Proof.Machine.execRetireRequest t st w s
  | .statusRecord t st bytes => Sys2Proof.Machine.execStatusRecord t st bytes s
  | .frameStatusTimeout t st => Sys2Proof.Machine.execFrameStatusTimeout t st s
  | .linkStatusTimeout t st => Sys2Proof.Machine.execLinkStatusTimeout t st s
  | .xlkEnWrite t st en => Sys2Proof.Machine.execXlkEnWrite t st en s
  | .trainTimeout t st => Sys2Proof.Machine.execTrainTimeout t st s
  | .loadTimeout t st => Sys2Proof.Machine.execLoadTimeout t st s
  | .xlkForceSubst t st lane => Sys2Proof.Machine.execXlkForceSubst t st lane s
  | .laneSubstitute t st => Sys2Proof.Machine.execLaneSubstitute t st s
  | .tblLoad t st => Sys2Proof.Machine.execTblLoad t st s
  | .lightSend t st sensor => Sys2Proof.Machine.execLightSend t st sensor s
  | .linkCheck t k idx => Sys2Proof.Machine.execLinkCheck t k idx s
  | .pwmPeriod t c sdu sdv theta omega err => Sys2Proof.Machine.execPwmPeriod t c sdu sdv theta omega err s
  | .focCmdStart t c => Sys2Proof.Machine.execFocCmdStart t c s
  | .focCmdStop t c => Sys2Proof.Machine.execFocCmdStop t c s
  | .focCmdCoast t c => Sys2Proof.Machine.execFocCmdCoast t c s
  | .focCmdClear t c => Sys2Proof.Machine.execFocCmdClear t c s
  | .focTtStart t k idx => Sys2Proof.Machine.execFocTtStart t k idx s
  | .focTtStop t k idx => Sys2Proof.Machine.execFocTtStop t k idx s
  | .focTtSpeed t k idx => Sys2Proof.Machine.execFocTtSpeed t k idx s
  | .focTtTorque t k idx => Sys2Proof.Machine.execFocTtTorque t k idx s
  | .focTtCoast t k idx => Sys2Proof.Machine.execFocTtCoast t k idx s
  | .startAttemptTimeout t c => Sys2Proof.Machine.execStartAttemptTimeout t c s
  | .retryWaitExpiry t c => Sys2Proof.Machine.execRetryWaitExpiry t c s
  | .busSample t b sd => Sys2Proof.Machine.execBusSample t b sd s
  | .chopTimerExpiry t b => Sys2Proof.Machine.execChopTimerExpiry t b s
  | .busClear t b => Sys2Proof.Machine.execBusClear t b s
  | .overcurrent t sd => Sys2Proof.Machine.execOvercurrent t sd s
  | .sdLoss t sd => Sys2Proof.Machine.execSdLoss t sd s
  | .engine t c => Sys2Proof.Machine.execEngine t c s
  | .cmdPinEdge t c rising x => Sys2Proof.Machine.execCmdPinEdge t c rising x s
  | .pinLost t c => Sys2Proof.Machine.execPinLost t c s
  | .focEngSubstRequest t w => Sys2Proof.Machine.execFocEngSubstRequest t w s
  | .focEngSubstCancel t => Sys2Proof.Machine.execFocEngSubstCancel t s
  | .engineSubstApply t => Sys2Proof.Machine.execEngineSubstApply t s
  | .motionPeriod t ms => Sys2Proof.Machine.execMotionPeriod t ms s
  | .go t c => Sys2Proof.Machine.execGo t c s
  | .stpStop t c => Sys2Proof.Machine.execStpStop t c s
  | .halt t c => Sys2Proof.Machine.execHalt t c s
  | .resume t c => Sys2Proof.Machine.execResume t c s
  | .stpClear t c => Sys2Proof.Machine.execStpClear t c s
  | .moveAbs t k idx => Sys2Proof.Machine.execMoveAbs t k idx s
  | .moveRel t k idx => Sys2Proof.Machine.execMoveRel t k idx s
  | .stpTtRun t k idx => Sys2Proof.Machine.execStpTtRun t k idx s
  | .stpTtStop t k idx => Sys2Proof.Machine.execStpTtStop t k idx s
  | .stpTtHalt t k idx => Sys2Proof.Machine.execStpTtHalt t k idx s
  | .stpTtResume t k idx => Sys2Proof.Machine.execStpTtResume t k idx s
  | .engage t k idx => Sys2Proof.Machine.execEngage t k idx s
  | .encoderCount t e ab => Sys2Proof.Machine.execEncoderCount t e ab s
  | .gearArm t c => Sys2Proof.Machine.execGearArm t c s
  | .gearCancel t c => Sys2Proof.Machine.execGearCancel t c s
  | .holdTimerExpiry t c => Sys2Proof.Machine.execHoldTimerExpiry t c s
  | .stpPosHiWrite t c w => Sys2Proof.Machine.execStpPosHiWrite t c w s
  | .stpTgtHiWrite t c w => Sys2Proof.Machine.execStpTgtHiWrite t c w s
  | .stpEncCntHiWrite t e w => Sys2Proof.Machine.execStpEncCntHiWrite t e w s
  | .adcResult t n code => Sys2Proof.Machine.execAdcResult t n code s
  | .hvPeriod t => Sys2Proof.Machine.execHvPeriod t s
  | .hvRampWrite t u w => Sys2Proof.Machine.execHvRampWrite t u w s
  | .ramp t k idx => Sys2Proof.Machine.execRamp t k idx s
  | .acUpdate t => Sys2Proof.Machine.execAcUpdate t s
  | .safeStageTimeout t => Sys2Proof.Machine.execSafeStageTimeout t s
  | .fuserControlPeriod t => Sys2Proof.Machine.execFuserControlPeriod t s
  | .fusZcmdOn t z => Sys2Proof.Machine.execFusZcmdOn t z s
  | .fusZcmdOff t z => Sys2Proof.Machine.execFusZcmdOff t z s
  | .fusZcmdClear t z => Sys2Proof.Machine.execFusZcmdClear t z s
  | .setpoint t k idx => Sys2Proof.Machine.execSetpoint t k idx s
  | .fusTtOn t k idx => Sys2Proof.Machine.execFusTtOn t k idx s
  | .fusTtOff t k idx => Sys2Proof.Machine.execFusTtOff t k idx s
  | .zcEdge t ls => Sys2Proof.Machine.execZcEdge t ls s
  | .zcLoss t => Sys2Proof.Machine.execZcLoss t s
  | .otSample t z code => Sys2Proof.Machine.execOtSample t z code s
  | .senseEdge t n x ls => Sys2Proof.Machine.execSenseEdge t n x ls s
  | .window t k idx => Sys2Proof.Machine.execWindow t k idx s
  | .windowLateExpiry t n => Sys2Proof.Machine.execWindowLateExpiry t n s
  | .set t k idx => Sys2Proof.Machine.execSet t k idx s
  | .pulse t k idx => Sys2Proof.Machine.execPulse t k idx s
  | .pulseEnd t n => Sys2Proof.Machine.execPulseEnd t n s
  | .snsOutWrite t high w => Sys2Proof.Machine.execSnsOutWrite t high w s
  | .dmaRingHeadWrite t c w => Sys2Proof.Machine.execDmaRingHeadWrite t c w s
  | .descriptorFetch t => Sys2Proof.Machine.execDescriptorFetch t s
  | .copy t c n hostErr => Sys2Proof.Machine.execCopy t c n hostErr s
  | .dmaFill t c n hostErr => Sys2Proof.Machine.execDmaFill t c n hostErr s
  | .compare t c n hostErr => Sys2Proof.Machine.execCompare t c n hostErr s
  | .descriptorComplete t c => Sys2Proof.Machine.execDescriptorComplete t c s
  | .dmaCqTailWrite t c w => Sys2Proof.Machine.execDmaCqTailWrite t c w s
  | .dmaEnWrite t c en => Sys2Proof.Machine.execDmaEnWrite t c en s
  | .dmaAbort t c => Sys2Proof.Machine.execDmaAbort t c s
  | .pltChCfgWrite t ini c w => Sys2Proof.Machine.execPltChCfgWrite t ini c w s
  | .pltTx t ini c w => Sys2Proof.Machine.execPltTx t ini c w s
  | .pltPop t ini c n => Sys2Proof.Machine.execPltPop t ini c n s
  | .pltRxRead t ini c idx => Sys2Proof.Machine.execPltRxRead t ini c idx s
  | .pltWordArrive t c toB => Sys2Proof.Machine.execPltWordArrive t c toB s
  | .sbxEventTake t => Sys2Proof.Machine.execSbxEventTake t s
  | .blockResetDone t src => Sys2Proof.Machine.execBlockResetDone t src s
  | .shadowEnd t src => Sys2Proof.Machine.execShadowEnd t src s
  | .sbxBrstReq t w => Sys2Proof.Machine.execSbxBrstReq t w s
  | .quietExit t src => Sys2Proof.Machine.execQuietExit t src s
  | .sbxActiveWrite t hi w => Sys2Proof.Machine.execSbxActiveWrite t hi w s
  | .errNHoldExpiry t => Sys2Proof.Machine.execErrNHoldExpiry t s
  | .sbxHistW0Read t ini idx => Sys2Proof.Machine.execSbxHistW0Read t ini idx s
  | .faultEmitHoldExpiry t src => Sys2Proof.Machine.execFaultEmitHoldExpiry t src s
  | .remoteFaultTake t => Sys2Proof.Machine.execRemoteFaultTake t s
  | .sbxOriginWrite t d w => Sys2Proof.Machine.execSbxOriginWrite t d w s
  | .domReqOn t d => Sys2Proof.Machine.execDomReqOn t d s
  | .domReqOff t d => Sys2Proof.Machine.execDomReqOff t d s
  | .domainStepReady t d => Sys2Proof.Machine.execDomainStepReady t d s
  | .domFail t d => Sys2Proof.Machine.execDomFail t d s
  | .archiveWaitEnd t => Sys2Proof.Machine.execArchiveWaitEnd t s
  | .archiveWaitTimeout t => Sys2Proof.Machine.execArchiveWaitTimeout t s
  | .wakeN x => Sys2Proof.Machine.execWakeN x s
  | .wakeTimer t => Sys2Proof.Machine.execWakeTimer t s
  | .vreqStart t w => Sys2Proof.Machine.execVreqStart t w s
  | .vreqPoll t answer read => Sys2Proof.Machine.execVreqPoll t answer read s
  | .vreqTimeout t => Sys2Proof.Machine.execVreqTimeout t s
  | .standbyReset t => Sys2Proof.Machine.execStandbyReset t s
  | .seqStart x => Sys2Proof.Machine.execSeqStart x s
  | .pgoodHigh x idx => Sys2Proof.Machine.execPgoodHigh x idx s
  | .pgLost x idx => Sys2Proof.Machine.execPgLost x idx s
  | .pgTimeout t => Sys2Proof.Machine.execPgTimeout t s
  | .railGapExpiry t => Sys2Proof.Machine.execRailGapExpiry t s
  | .porHoldExpiry t => Sys2Proof.Machine.execPorHoldExpiry t s
  | .vmonSample t idx code => Sys2Proof.Machine.execVmonSample t idx code s
  | .vinLost x => Sys2Proof.Machine.execVinLost x s
  | .pwrClrEdge t => Sys2Proof.Machine.execPwrClrEdge t s
  | .thmSample t rs => Sys2Proof.Machine.execThmSample t rs s
  | .riseUpdate t => Sys2Proof.Machine.execRiseUpdate t s
  | .throttleGraceExpiry t => Sys2Proof.Machine.execThrottleGraceExpiry t s
  | .throttleRelease t => Sys2Proof.Machine.execThrottleRelease t s
  | .hostWrite t bar2 o data => Sys2Proof.Machine.execHostWrite t bar2 o data s
  | .hostRead t bar2 o n => Sys2Proof.Machine.execHostRead t bar2 o n s
  | .perstN t low => Sys2Proof.Machine.execPerstN t low s
  | .linkDown t => Sys2Proof.Machine.execLinkDown t s
  | .flr t => Sys2Proof.Machine.execFlr t s
  | .msixVectorSend t v => Sys2Proof.Machine.execMsixVectorSend t v s
  | .hstMsixRearm t v => Sys2Proof.Machine.execHstMsixRearm t v s
  | .hstDbSet t hi w => Sys2Proof.Machine.execHstDbSet t hi w s
  | .lineEnWrite t en => Sys2Proof.Machine.execLineEnWrite t en s
  | .portUp t port => Sys2Proof.Machine.execPortUp t port s
  | .portTrainTimeout t port => Sys2Proof.Machine.execPortTrainTimeout t port s
  | .portBreak t port lost => Sys2Proof.Machine.execPortBreak t port lost s
  | .portRetrain t port => Sys2Proof.Machine.execPortRetrain t port s
  | .sync t port origin hops p0 p1 rx => Sys2Proof.Machine.execSync t port origin hops p0 p1 rx s
  | .syncSend t => Sys2Proof.Machine.execSyncSend t s
  | .syncTimeout t => Sys2Proof.Machine.execSyncTimeout t s
  | .delayReqSend t port => Sys2Proof.Machine.execDelayReqSend t port s
  | .delayReq t port p0 rx => Sys2Proof.Machine.execDelayReq t port p0 rx s
  | .delayResp t port p0 p1 rx => Sys2Proof.Machine.execDelayResp t port p0 p1 rx s
  | .join t port origin hops p0 p1 => Sys2Proof.Machine.execJoin t port origin hops p0 p1 s
  | .faultFrame t port origin hops seq p0 => Sys2Proof.Machine.execFaultFrame t port origin hops seq p0 s
  | .lineSpwFrame t port origin dest hops seq p0 p1 => Sys2Proof.Machine.execLineSpwFrame t port origin dest hops seq p0 p1 s
  | .publish t port origin hops seq p0 p1 => Sys2Proof.Machine.execPublish t port origin hops seq p0 p1 s
  | .publishSend t => Sys2Proof.Machine.execPublishSend t s
  | .pltFrame t port origin dest hops seq p0 => Sys2Proof.Machine.execPltFrame t port origin dest hops seq p0 s
  | .pltFrameSend t ch => Sys2Proof.Machine.execPltFrameSend t ch s
  | .credit t port origin dest hops seq p0 => Sys2Proof.Machine.execCredit t port origin dest hops seq p0 s
  | .lineMasterSet t on => Sys2Proof.Machine.execLineMasterSet t on s
  | .lineSubWrite t j w => Sys2Proof.Machine.execLineSubWrite t j w s
  | .stageAdvance t w => Sys2Proof.Machine.execStageAdvance t w s
  | .secRbAdv t n => Sys2Proof.Machine.execSecRbAdv t n s
  | .release1 t => Sys2Proof.Machine.execRelease1 t s
  | .keygen t => Sys2Proof.Machine.execKeygen t s
  | .fuseOem t => Sys2Proof.Machine.execFuseOem t s
  | .cert t => Sys2Proof.Machine.execCert t s
  | .extend t => Sys2Proof.Machine.execExtend t s
  | .verify t => Sys2Proof.Machine.execVerify t s
  | .sign t => Sys2Proof.Machine.execSign t s
  | .meter t => Sys2Proof.Machine.execMeter t s
  | .lcChange t => Sys2Proof.Machine.execLcChange t s
  | .secCommandComplete t => Sys2Proof.Machine.execSecCommandComplete t s
  | .dramWipeDone t => Sys2Proof.Machine.execDramWipeDone t s
  | .ledgerUnitWrite t first second => Sys2Proof.Machine.execLedgerUnitWrite t first second s
  | .ldgApp t w => Sys2Proof.Machine.execLdgApp t w s
  | .sramScrubWord t a found last => Sys2Proof.Machine.execSramScrubWord t a found last s
  | .dramScrubBurst t a found => Sys2Proof.Machine.execDramScrubBurst t a found s
  | .passLate t => Sys2Proof.Machine.execPassLate t s
  | .wearFold t => Sys2Proof.Machine.execWearFold t s
  | .telemetrySnapshot t => Sys2Proof.Machine.execTelemetrySnapshot t s
  | .encoderIndexEdge x e => Sys2Proof.Machine.execEncoderIndexEdge x e s
  | .pcieLinkUp t speed width bme msix mask d3 => Sys2Proof.Machine.execPcieLinkUp t speed width bme msix mask d3 s
  | .lineFrameCrcFail t port => Sys2Proof.Machine.execLineFrameCrcFail t port s
  | .ddrTrainingEnd t ok => Sys2Proof.Machine.execDdrTrainingEnd t ok s
  | .vstbyLoss t => Sys2Proof.Machine.execVstbyLoss t s

end Sys2Proof.Machine
end

