-- ==== Sys2Proof/WellFormed.lean ====
section
/-!
DEFINITION. Well-formed commands: what the interface that carries a command makes sure of, beyond the types of its
operands. `exec` gives every command a meaning; claims about commands as they arrive may assume this form.
-/

namespace Sys2Proof

/-- An edge's timestamp, in raw sixteenths of a tick, is not after the command that brings it (R203, R444); the stamps of
R291 are whole ticks. -/
def stampOk (t : Tick) (x : Nat) : Bool := x ≤ 16 * t

/-- The samples of an input at the edges of a clock of the given period, each level with the number of edges that it stood
for (R345, R353): no stretch is empty, and the first edge does not lie before tick 0. -/
def samplesOk (period : Nat) (t : Tick) (ls : List (Bool × Nat)) : Bool :=
  (ls.all fun p => 0 < p.2) && period * (ls.map (·.2)).sum ≤ t + period

/-- An index into the action table of an image, which has at most 4,096 entries (R53). -/
def actionOk (i : Nat) : Bool := i < 4096

/-- The length of a host request inside BAR0 or BAR2 (R431): 1 to 4,096 bytes that end inside the window. -/
def hostOk (bar2 : Bool) (o : BitVec 26) (n : Nat) : Bool :=
  1 ≤ n && n ≤ 4096 && (if bar2 then o.toNat + n ≤ 0x800000 else o.toNat + n ≤ 0x4000000)

/-- The form of a command. -/
def Instr.wf : Instr → Bool
  | .registerWrite _ _ _ size v => v.toNat < 2 ^ (8 * 2 ^ size.val)
  | .actionToleranceExpiry _ _ i | .claimWindowEnd _ _ i | .spWriteAction _ _ i | .unknownBlockCommand _ _ i
  | .stream _ _ i | .lockCheck _ _ i | .expose _ _ i | .linkCheck _ _ i | .focTtStart _ _ i | .focTtStop _ _ i
  | .focTtSpeed _ _ i | .focTtTorque _ _ i | .focTtCoast _ _ i | .moveAbs _ _ i | .moveRel _ _ i | .stpTtRun _ _ i
  | .stpTtStop _ _ i | .stpTtHalt _ _ i | .stpTtResume _ _ i | .engage _ _ i | .ramp _ _ i | .setpoint _ _ i
  | .fusTtOn _ _ i | .fusTtOff _ _ i | .window _ _ i | .set _ _ i | .pulse _ _ i => actionOk i
  | .sosEdge t _ x | .mosEdge t _ x | .eosEdge t _ x | .sync t _ _ _ _ _ x | .delayReq t _ _ x
  | .delayResp t _ _ _ x => stampOk t x
  | .cmdPinEdge t _ _ x => x ≤ t
  | .zcEdge t ls => samplesOk 32 t ls
  | .senseEdge t _ x ls => samplesOk 32 t (x :: ls)
  | .seqStart (_, x) | .vinLost x => samplesOk 256 x.t x.ls
  | .statusRecord _ _ bytes => bytes.length == 128
  | .thmSample t rs => rs.length == 12 && t % 400000 == 0
  | .motionPeriod t (ds, ws) => t % 6400 == 0 && (ds.all fun d => d.1 < 32) && ws.all fun w => w.1 < 32
  | .columnDeadlineMiss _ _ col => col < 48
  | .hostWrite _ bar2 o data => hostOk bar2 o data.length
  | .hostRead _ bar2 o n => hostOk bar2 o n
  | .sramScrubWord _ a _ _ => a.toNat % 8 == 0
  | .dramScrubBurst _ a _ => a.toNat % 64 == 0
  | _ => true

end Sys2Proof
end

