-- ==== Sys2Proof/Safety.lean ====
section
/-!
DEFINITION. What counts as a safe state and a safe run, in the terms that claims use.
-/

namespace Sys2Proof.Machine

/-- The register words are in canonical form: addresses strictly rising, no entry at its register's reset value. -/
def regsWf (rs : List (Nat × Word)) : Bool := keysRise rs && noneDefault resetReg rs

/-- The state's plain data is in canonical form: memory and register words. -/
def State.canonical (s : State) : Prop := Memory.wf s.mem = true ∧ regsWf s.regs = true

/-- The time base stands at a CORE edge, and so does the one latched at the last stop of the root clock (R23, R27, R29). -/
def State.onEdge (s : State) : Prop := s.clk.tb % 8 = 0 ∧ s.clk.latchTb % 8 = 0

/-- A step that neither faults nor is refused. -/
def State.steps (s : State) : Prop := ∃ s', step s = .next s'

/-! ### Issuing an instruction (R117, R119, R135) -/

/-- The state in which an instruction given for core c at time t issues: a sequencer core must be free (R117; log
entry 7), and steps 1 to 8 of R138 are over at that edge. -/
def State.atCore (s : State) (t : Tick) (c : Fin 26) : State :=
  if c.val < 24 then s.atStep (max t (s.freeAt c.val)) 9 else s.at t

/-- `w` can issue an instruction of latency `lat` on core c in state `s`, and `s'` is the state once it is fetched: the
chosen instance of a bound, released sequencer core whose budget holds it (R135, R136), or a supervisor core that runs
and does not wait (R113, R120). -/
def CanIssue (s : State) (c : Fin 26) (lat : Nat) (w : Who) (s' : State) : Prop :=
  match w with
  | .t key p i =>
    p = c.val ∧ p < 24 ∧ s' = s ∧ (∃ l, s.logicalOf p = some l ∧ s.chosen l = some (key, i)) ∧ s.coreRuns p = true ∧
    (s.fetchT p i.pc).1 = none ∧ i.used + lat ≤ s.f (atKey Reg.SQ_SLOT_WCET key) 31 0
  | .g n =>
    24 + n = c.val ∧ (s.gcore n).running = true ∧ (s.gcore n).yielding = false ∧ (s.gcore n).waitUntil = none ∧
    s.fetchG n = (none, s')

/-- An instruction of `w` completes and the next one follows: on Sinel-T its cycles are charged (R117, R136). -/
def State.goOn (s : State) (w : Who) (lat : Nat) : State :=
  match w with
  | .t key p i => (s.charge key p lat i .plain 0).modInst key fun i => { i with pc := i.pc + 4 }
  | .g n => s.modGcore n fun c => { c with pc := (c.pc + 4) % 2 ^ 32 }

/-- An instruction of `w` completes and execution continues at the absolute address `pc`. -/
def State.goTo (s : State) (w : Who) (lat pc : Nat) : State :=
  match w with
  | .t key p i => (s.charge key p lat i .plain 0).modInst key fun i => { i with pc := pc - tcmBase p }
  | .g n => s.modGcore n fun c => { c with pc := pc % 2 ^ 32 }

/-- Where execution can continue: a supervisor core anywhere, a sequencer core inside its instruction memory (R107). -/
def Who.reaches (w : Who) (pc : Nat) : Prop :=
  match w with
  | .t _ p _ => tcmBase p ≤ pc ∧ pc < tcmBase p + 0x10000
  | .g _ => True

/-- What an exception of `w`'s instruction does as it issues. On Sinel-T its cycles are charged, and the period is dropped
at the edge where they end (R117, R119, R144); on Sinel-G it traps (R120). -/
def State.except (s : State) (w : Who) (lat code addr : Nat) : State :=
  match w with
  | .t key p i => s.charge key p (excCycles code lat) i (.exc code addr) 0
  | .g n => s.trapG n code addr

/-- A load of `w` that has issued and reads its target in the standing slot that follows (R39): only a sequencer core has
one. -/
def State.flies (s : State) (w : Who) (lat a : Nat) (rt : Fin 32) (sz : Nat) (signed : Bool) : State :=
  match w with
  | .t key p i => s.charge key p lat i (.load a rt sz signed) (standingSlot p (s.clk.tb + 8))
  | .g n => s.modGcore n fun c => { c with pc := (c.pc + 4) % 2 ^ 32 }

/-! ### Taking a timetable action (R73, R74) -/

/-- The target of armed action `a`, number i of sheet k, takes it: its time has come, it has not been carried out, `ok`
holds of it, and no window of a list action has passed. The sheet's entry then notes it as carried out. -/
def State.CanTake (s : State) (k i : Nat) (ok : Action → Bool) (a : Armed) : Prop :=
  s.armedAt k i = some a ∧ a.executed = false ∧ a.time ≤ s.clk.tb ∧ ok a.act = true ∧ s.outsideWindow k a = false

end Sys2Proof.Machine
end

