-- ==== Sys2Proof/Certificates/Slice0/Obligations.lean ====
section
/-!
DEFINITION. The statements for the provers: what the block, its commands and its registers do, rule by rule.
-/

section

open Sys2Proof Sys2Proof.Machine


/-! ### The block -/

/-- A step carries out the command at the front of the queue on the state with the rest of the queue. A step takes the
command at the front off the queue, adds none, and leaves the DRAM installed as it is; with no command waiting it
answers a next state (log entry 46). That an idle step lets one CORE edge pass is the model's choice: log entry 46. -/
def Obligations.StepRunsTheFrontCommand : Prop :=
  (
    ∀ (s : State) (c : Instr) (rest : List Instr), s.pending = c :: rest →
      step s = exec c { s with pending := rest }) ∧
  (
    (∀ s s' : State, step s = .next s' → s'.pending = s.pending.tail ∧ s'.dramSize = s.dramSize) ∧
    ∀ s : State, s.pending = [] → ∃ s', step s = .next s')

/-- Every step keeps the canonical form of memory and registers, and the time base on a CORE edge (R23, R27). The
canonical form is the model's. -/
def Obligations.StepKeepsCanonicalAndEdge : Prop :=
  ∀ s s' : State, s.canonical ∧ s.onEdge → step s = .next s' → s'.canonical ∧ s'.onEdge

/-- After reset the invariant of StepKeepsCanonicalAndEdge holds. -/
def Obligations.ResetCanonicalAndEdge : Prop :=
 State.reset.canonical ∧ State.reset.onEdge

/-- No step lowers the life cycle or a rollback count: both are one-time programmable (R458, R471). -/
def Obligations.StepKeepsOneWayCounts : Prop :=
  ∀ s s' : State, step s = .next s' → s.sec.otp.lc ≤ s'.sec.otp.lc ∧ ∀ n, s.rbCount n ≤ s'.rbCount n

/-! ### Sinel -/

/-- g0 reads 0 and a write to it is discarded; another register holds what is written to it, and a write changes no
other register of the same owner (R92). The ALU group (R97): each writes its result to rd and execution continues. The
OPI and LUI groups (R98, R99): ADDI, SLTI and SLTIU sign-extend the immediate, ANDI, ORI and XORI zero-extend it, and
LUI places it in bits [31:11]. Multiplication and division (R100), with the fixed results for a zero divisor and for
overflow. MULW and MULWU write a pair, and an odd rd or g0 raises ILLEGAL instead (R93, R117). The edge at which an
instruction issues is the model's reading: log entry 7. -/
def Obligations.RegistersAndIntegerOperations : Prop :=
  (
    ∀ (s : State) (w : Who) (v : Word),
      s.gr w 0 = 0 ∧ s.setGr w 0 v = s ∧
      ∀ r : Fin 32, r ≠ 0 → (s.setGr w r v).gr w r = v ∧ ∀ q : Fin 32, q ≠ r → (s.setGr w r v).gr w q = s.gr w q) ∧
  (
    ∀ (s s' : State) (t : Tick) (c : Fin 26) (rd ra rb : Fin 32) (w : Who), CanIssue (s.atCore t c) c 1 w s' →
      let a := s'.gr w ra
      let b := s'.gr w rb
      let done (v : Word) := (.next ((s'.setGr w rd v).goOn w 1) : Host.Outcome State Fault Refusal)
      exec (.add t c rd ra rb) s = done (a + b) ∧
      exec (.sub t c rd ra rb) s = done (a - b) ∧
      exec (.and t c rd ra rb) s = done (a &&& b) ∧
      exec (.or t c rd ra rb) s = done (a ||| b) ∧
      exec (.xor t c rd ra rb) s = done (a ^^^ b) ∧
      exec (.sll t c rd ra rb) s = done (a <<< (b.toNat % 32)) ∧
      exec (.srl t c rd ra rb) s = done (a >>> (b.toNat % 32)) ∧
      exec (.sra t c rd ra rb) s = done (a.sshiftRight (b.toNat % 32)) ∧
      exec (.slt t c rd ra rb) s = done (if a.toInt < b.toInt then 1 else 0) ∧
      exec (.sltu t c rd ra rb) s = done (if a.toNat < b.toNat then 1 else 0) ∧
      exec (.min t c rd ra rb) s = done (if a.toInt < b.toInt then a else b) ∧
      exec (.max t c rd ra rb) s = done (if a.toInt < b.toInt then b else a) ∧
      exec (.minu t c rd ra rb) s = done (if a.toNat < b.toNat then a else b) ∧
      exec (.maxu t c rd ra rb) s = done (if a.toNat < b.toNat then b else a) ∧
      exec (.addsat t c rd ra rb) s = done (BitVec.ofInt 32 (max (-2 ^ 31) (min (2 ^ 31 - 1) (a.toInt + b.toInt)))) ∧
      exec (.subsat t c rd ra rb) s = done (BitVec.ofInt 32 (max (-2 ^ 31) (min (2 ^ 31 - 1) (a.toInt - b.toInt))))) ∧
  (
    ∀ (s s' : State) (t : Tick) (c : Fin 26) (rd ra sh : Fin 32) (i : BitVec 12) (u : BitVec 21) (w : Who),
      CanIssue (s.atCore t c) c 1 w s' →
      let a := s'.gr w ra
      let x := i.signExtend 32
      let z := i.setWidth 32
      let done (v : Word) := (.next ((s'.setGr w rd v).goOn w 1) : Host.Outcome State Fault Refusal)
      exec (.addi t c rd ra i) s = done (a + x) ∧
      exec (.slti t c rd ra i) s = done (if a.toInt < x.toInt then 1 else 0) ∧
      exec (.sltiu t c rd ra i) s = done (if a.toNat < x.toNat then 1 else 0) ∧
      exec (.andi t c rd ra i) s = done (a &&& z) ∧
      exec (.ori t c rd ra i) s = done (a ||| z) ∧
      exec (.xori t c rd ra i) s = done (a ^^^ z) ∧
      exec (.slli t c rd ra sh) s = done (a <<< sh.val) ∧
      exec (.srli t c rd ra sh) s = done (a >>> sh.val) ∧
      exec (.srai t c rd ra sh) s = done (a.sshiftRight sh.val) ∧
      exec (.lui t c rd u) s = done (BitVec.ofNat 32 (u.toNat * 2048))) ∧
  (
    ∀ (s : State) (t : Tick) (c : Fin 26) (rd ra rb : Fin 32) (w : Who),
      let done (s' : State) (lat : Nat) (v : Word) :=
        (.next ((s'.setGr w rd v).goOn w lat) : Host.Outcome State Fault Refusal)
      (∀ s', CanIssue (s.atCore t c) c 2 w s' →
        let a := s'.gr w ra
        let b := s'.gr w rb
        exec (.mul t c rd ra rb) s = done s' 2 (BitVec.ofInt 32 (a.toInt * b.toInt)) ∧
        exec (.mulq t c rd ra rb) s =
          done s' 2 (BitVec.ofInt 32 (max (-2 ^ 31) (min (2 ^ 31 - 1) (Int.fdiv (a.toInt * b.toInt + 2 ^ 30) (2 ^ 31))))) ∧
        (pairOkR rd = true →
          exec (.mulw t c rd ra rb) s =
            .next ((s'.setGrPair w rd (BitVec.ofInt 64 (a.toInt * b.toInt)).toNat).goOn w 2) ∧
          exec (.mulwu t c rd ra rb) s = .next ((s'.setGrPair w rd (a.toNat * b.toNat)).goOn w 2)) ∧
        (pairOkR rd = false →
          exec (.mulw t c rd ra rb) s = .next (s'.except w 2 xILLEGAL 0) ∧
          exec (.mulwu t c rd ra rb) s = .next (s'.except w 2 xILLEGAL 0))) ∧
      ∀ s', CanIssue (s.atCore t c) c 18 w s' →
        let a := s'.gr w ra
        let b := s'.gr w rb
        (b ≠ 0 →
          (¬ (a = 0x80000000 ∧ b = 0xFFFFFFFF) →
            exec (.quo t c rd ra rb) s = done s' 18 (BitVec.ofInt 32 (Int.tdiv a.toInt b.toInt))) ∧
          exec (.mod t c rd ra rb) s = done s' 18 (BitVec.ofInt 32 (Int.tmod a.toInt b.toInt)) ∧
          exec (.quou t c rd ra rb) s = done s' 18 (BitVec.ofNat 32 (a.toNat / b.toNat)) ∧
          exec (.modu t c rd ra rb) s = done s' 18 (BitVec.ofNat 32 (a.toNat % b.toNat))) ∧
        (a = 0x80000000 ∧ b = 0xFFFFFFFF → exec (.quo t c rd ra rb) s = done s' 18 0x7FFFFFFF) ∧
        (b = 0 →
          exec (.quo t c rd ra rb) s = done s' 18 (if a.toInt < 0 then 0x80000000 else 0x7FFFFFFF) ∧
          exec (.mod t c rd ra rb) s = done s' 18 0 ∧
          exec (.quou t c rd ra rb) s = done s' 18 0xFFFFFFFF ∧
          exec (.modu t c rd ra rb) s = done s' 18 0))

/-- Building a constant (R99): LUI writes its immediate shifted left by 11, so that bits [10:0] are zero; ORI then
sets bits [10:0], and LUI rd, c[31:11] followed by ORI rd, rd, c[10:0] leaves c in rd. The edge at which an
instruction issues is the model's reading: log entry 7. -/
def Obligations.ConstantBuilding : Prop :=
  ∀ (s s1 : State) (t : Tick) (c : Fin 26) (rd : Fin 32) (u : BitVec 21) (w : Who), rd ≠ 0 →
    CanIssue (s.atCore t c) c 1 w s1 →
    let s2 := (s1.setGr w rd (u.setWidth 32 <<< 11)).goOn w 1
    exec (.lui t c rd u) s = .next s2 ∧ s2.gr w rd = u.setWidth 32 <<< 11 ∧ (s2.gr w rd).extractLsb' 0 11 = 0 ∧
    ∀ (t' : Tick) (w' : Who) (s3 : State) (k : Word), u = k.extractLsb' 11 21 →
      CanIssue (s2.atCore t' c) c 1 w' s3 → s3.gr w' rd = s2.gr w rd →
      exec (.ori t' c rd rd ((k.extractLsb' 0 11).setWidth 12)) s2 = .next ((s3.setGr w' rd k).goOn w' 1)

/-- The packed nibble operations (R114, R115): lane i of the result is what the rule says of lane i of the operands;
PNLUT takes its table from a pair, and raises ILLEGAL where rb names none; PNSEL takes its selection from rd. The edge
at which an instruction issues is the model's reading: log entry 7. -/
def Obligations.PackedNibbles : Prop :=
  ∀ (s s' : State) (t : Tick) (c : Fin 26) (rd ra rb : Fin 32) (w : Who), CanIssue (s.atCore t c) c 1 w s' →
    let a := fun i => s'.gr w ra |>.extractLsb' (4 * i) 4 |>.toNat
    let b := fun i => s'.gr w rb |>.extractLsb' (4 * i) 4 |>.toNat
    let d := fun i => s'.gr w rd |>.extractLsb' (4 * i) 4 |>.toNat
    let by8 (i : Instr) (f : Nat → Nat) := ∃ v : Word, exec i s = .next ((s'.setGr w rd v).goOn w 1) ∧
      ∀ j < 8, (v.extractLsb' (4 * j) 4).toNat = f j
    by8 (.pnadd t c rd ra rb) (fun j => min (a j + b j) 15) ∧
    by8 (.pnsub t c rd ra rb) (fun j => a j - b j) ∧
    by8 (.pnmax t c rd ra rb) (fun j => max (a j) (b j)) ∧
    by8 (.pnmin t c rd ra rb) (fun j => min (a j) (b j)) ∧
    by8 (.pnsel t c rd ra rb) (fun j => if 8 ≤ d j then a j else b j) ∧
    by8 (.pnge t c rd ra rb) (fun j => if b j ≤ a j then 15 else 0) ∧
    by8 (.pneq t c rd ra rb) (fun j => if a j = b j then 15 else 0) ∧
    by8 (.pnspl t c rd ra) (fun _ => a 0) ∧
    (pairOkR rb = true → by8 (.pnlut t c rd ra rb) (fun j => s'.grPair w rb / 16 ^ a j % 16)) ∧
    (pairOkR rb = false → exec (.pnlut t c rd ra rb) s = .next (s'.except w 1 xILLEGAL 0)) ∧
    exec (.pncnt t c rd ra) s =
      .next ((s'.setGr w rd (BitVec.ofNat 32 ((List.range 8).map a).sum)).goOn w 1) ∧
    exec (.pnnzc t c rd ra) s =
      .next ((s'.setGr w rd (BitVec.ofNat 32 ((List.range 8).filter fun j => a j ≠ 0).length)).goOn w 1)

/-- A conditional branch goes to its own address + sext(off) × 4 when its condition holds and else on (R106); a taken
branch that leaves a sequencer core's instruction memory raises FETCH (R107). JAL and JALR write the address of the
next instruction to rd and continue at their target (R107). JALR's target is formed from ra as it stood before; FETCH
comes before ALIGN (R118). -/
def Obligations.BranchesAndJumps : Prop :=
  (
    ∀ (s s' : State) (t : Tick) (c : Fin 26) (ra rb : Fin 32) (off : BitVec 16) (w : Who),
      CanIssue (s.atCore t c) c 1 w s' →
      let a := s'.gr w ra
      let b := s'.gr w rb
      let target := (((s'.pcOf w : Int) + off.toInt * 4) % 2 ^ 32).toNat
      let goes (i : Instr) (taken : Prop) :=
        (taken → w.reaches target → exec i s = .next (s'.goTo w 1 target)) ∧
        (taken → ¬ w.reaches target → exec i s = .next (s'.except w 1 xFETCH target)) ∧
        (¬ taken → exec i s = .next (s'.goOn w 1))
      goes (.beq t c ra rb off) (a = b) ∧
      goes (.bne t c ra rb off) (a ≠ b) ∧
      goes (.blt t c ra rb off) (a.toInt < b.toInt) ∧
      goes (.bge t c ra rb off) (b.toInt ≤ a.toInt) ∧
      goes (.bltu t c ra rb off) (a.toNat < b.toNat) ∧
      goes (.bgeu t c ra rb off) (b.toNat ≤ a.toNat)) ∧
  (
    ∀ (s s' : State) (t : Tick) (c : Fin 26) (rd ra : Fin 32) (i21 : BitVec 21) (i12 : BitVec 12) (w : Who),
      CanIssue (s.atCore t c) c 1 w s' →
      let link := s'.setGr w rd (BitVec.ofNat 32 (s'.pcOf w + 4))
      let x := (((s'.pcOf w : Int) + i21.toInt * 4) % 2 ^ 32).toNat
      let y := (s'.gr w ra + i12.signExtend 32).toNat
      (w.reaches x → exec (.jal t c rd i21) s = .next (link.goTo w 1 x)) ∧
      (¬ w.reaches x → exec (.jal t c rd i21) s = .next (s'.except w 1 xFETCH x)) ∧
      (w.reaches y ∧ y % 4 = 0 → exec (.jalr t c rd ra i12) s = .next (link.goTo w 1 y)) ∧
      (¬ w.reaches y → exec (.jalr t c rd ra i12) s = .next (s'.except w 1 xFETCH y)) ∧
      (w.reaches y ∧ y % 4 ≠ 0 → exec (.jalr t c rd ra i12) s = .next (s'.except w 1 xALIGN y)))

/-- KRD, KRDP, KWR, KSET and KCLR (R94, R108): a register the profile lacks, or cannot write, raises ILLEGAL, one
above the level of the core PRIV. KSET and KCLR set and clear the bits of ra; a W1S or W1C register takes ra itself
(log entry 18). What control registers hold (R94): the time base in k2 and k3 on both profiles, the identity of the
core, the period's start and deadline on Sinel-T; a write on Sinel-G stores the bits the register has and changes no
other register of either core, and k37 sets and k38 clears pending software lines (R125). That KSET and KCLR on k37
and k38 take ra itself is the model's reading: log entry 18. -/
def Obligations.ControlRegisters : Prop :=
  (
    ∀ (s s' : State) (t : Tick) (c : Fin 26) (rd ra : Fin 32) (k : Fin 64) (w : Who),
      CanIssue (s.atCore t c) c 1 w s' →
      let old := s'.kread w k
      let a := s'.gr w ra
      let writes (i : Instr) (v : Word) :=
        (kWritable w.isG k = true ∧ s'.kPriv w k true = false →
          exec i s = .next ((s'.kwrite w k (if k.val = 37 ∨ k.val = 38 then a else v)).goOn w 1)) ∧
        (kWritable w.isG k = false → exec i s = .next (s'.except w 1 xILLEGAL 0)) ∧
        (kWritable w.isG k = true ∧ s'.kPriv w k true = true → exec i s = .next (s'.except w 1 xPRIV 0))
      (kReadable w.isG k = true ∧ s'.kPriv w k false = false →
        exec (.krd t c rd k) s = .next ((s'.setGr w rd old).goOn w 1)) ∧
      (kReadable w.isG k = false → exec (.krd t c rd k) s = .next (s'.except w 1 xILLEGAL 0)) ∧
      (kReadable w.isG k = true ∧ s'.kPriv w k false = true → exec (.krd t c rd k) s = .next (s'.except w 1 xPRIV 0)) ∧
      (pairOkR rd = true ∧ k.val % 2 = 0 ∧ kReadable w.isG k = true ∧ kReadable w.isG (k.val + 1) = true ∧
          s'.kPriv w k false = false ∧ s'.kPriv w (k.val + 1) false = false →
        exec (.krdp t c rd k) s =
          .next ((s'.setGrPair w rd (old.toNat + 2 ^ 32 * (s'.kread w (k.val + 1)).toNat)).goOn w 1)) ∧
      (pairOkR rd = false ∨ k.val % 2 = 1 ∨ kReadable w.isG k = false ∨ kReadable w.isG (k.val + 1) = false →
        exec (.krdp t c rd k) s = .next (s'.except w 1 xILLEGAL 0)) ∧
      writes (.kwr t c k ra) a ∧ writes (.kset t c k ra) (old ||| a) ∧ writes (.kclr t c k ra) (old &&& ~~~a)) ∧
  (
    (∀ (s : State) (w : Who), s.kread w 2 = BitVec.ofNat 32 s.clk.tb ∧ s.kread w 3 = BitVec.ofNat 32 (s.clk.tb / 2 ^ 32)) ∧
    (∀ (s : State) (key p : Nat) (i : Instance),
      let start := (s.slot key).r0 + i.k * (s.reg (Reg.SQ_SLOT_PERIOD (key / 8) (key % 8))).toNat * 8
      s.kread (.t key p i) 0 = BitVec.ofNat 32 (p + 256 * (key / 8)) ∧
      s.kread (.t key p i) 1 = BitVec.ofNat 32 (key % 8) ∧
      s.kread (.t key p i) 4 = BitVec.ofNat 32 (tcmBase p) ∧
      s.kread (.t key p i) 8 = BitVec.ofNat 32 start ∧ s.kread (.t key p i) 9 = BitVec.ofNat 32 (start / 2 ^ 32) ∧
      s.kread (.t key p i) 10 = BitVec.ofNat 32 i.deadline ∧
      s.kread (.t key p i) 11 = BitVec.ofNat 32 (i.deadline / 2 ^ 32) ∧
      s.kread (.t key p i) 12 = BitVec.ofNat 32 (s.slot key).cbuse ∧
      s.kread (.t key p i) 14 = BitVec.ofNat 32 (s.slot key).started) ∧
    ∀ (s : State) (n : Nat) (k : Nat) (v : Word), n < 2 →
      s.kread (.g n) 0 = BitVec.ofNat 32 (n + 2 ^ 16) ∧ s.kread (.g n) 4 = BitVec.ofNat 32 (supBase n) ∧
      (kWritable true k = true → k ≠ 37 → k ≠ 38 →
        (s.kwrite (.g n) k v).kread (.g n) k = v &&& kMask k ∧
        (∀ j, kWritable true j = true → j ≠ k → (s.kwrite (.g n) k v).kread (.g n) j = s.kread (.g n) j) ∧
        (s.kwrite (.g n) k v).gcore (1 - n) = s.gcore (1 - n)) ∧
      (∀ j < 16, (((s.kwrite (.g n) 37 v).gcore n).swi.testBit j = ((s.gcore n).swi.testBit j || v.getLsbD j)) ∧
        (((s.kwrite (.g n) 37 v).gcore (1 - n)).swi.testBit j = ((s.gcore (1 - n)).swi.testBit j || v.getLsbD (16 + j))) ∧
        (((s.kwrite (.g n) 38 v).gcore n).swi.testBit j = ((s.gcore n).swi.testBit j && !v.getLsbD j))))

/-- WAITT, ARM, SPR, SPW, YIELD (R103, R109–R113): what each does on the profile that has it. WAITT_RESUME and
YIELD_WAKE end a wait (R110, R113, R137): the next instruction can issue again. An instruction of a sequencer core
ends 1, 2, 12 or 18 cycles after its issue (R117), and what it brings then is made (R138): a load writes its register,
YIELD completes the period by its deadline, and an exception before the deadline drops it; of an instance that has
been dropped meanwhile nothing is made. What a command of one step of an edge finds done is the model's reading: log
entries 49 and 94. -/
def Obligations.TimedInstructionsAndWaits : Prop :=
  (
    ∀ (s s' : State) (t : Tick) (c : Fin 26) (p rd a b : Fin 32) (w : Who), CanIssue (s.atCore t c) c 1 w s' →
      let till := s'.grPair w p
      let id := (s'.gr w a).toNat
      (pairOkR p = true → till ≤ s'.clk.tb → exec (.waitt t c p) s = .next (s'.goOn w 1)) ∧
      (pairOkR p = true → s'.clk.tb < till →
        (∀ key ph i, w = .t key ph i → exec (.waitt t c p) s =
          .next ((s'.charge key ph 1 i .plain 0).modInst key fun i =>
            { i with pc := i.pc + 4, waitUntil := some till })) ∧
        (∀ n, w = .g n → exec (.waitt t c p) s = .next (s'.modGcore n fun c => { c with waitUntil := some till }))) ∧
      (pairOkR p = false → exec (.waitt t c p) s = .next (s'.except w 1 xILLEGAL 0)) ∧
      (∀ n, w = .g n → exec (.arm t c p a b) s = .next (s'.except w 1 xILLEGAL 0)) ∧
      (∀ key ph i, w = .t key ph i → pairOkR p = true → (s'.slot key).cbuse < 64 →
        (s'.armuse key ph < 16 → id < 2 ^ 20 → id / 1024 = s'.lineId →
          exec (.arm t c p a b) s = .next ((s'.stageWrite key (.arm till (id % 1024) (s'.gr w b))).goOn w 1)) ∧
        (16 ≤ s'.armuse key ph → exec (.arm t c p a b) s = .next (s'.except w 1 xARM_FULL 0)) ∧
        (s'.armuse key ph < 16 → (2 ^ 20 ≤ id ∨ id / 1024 ≠ s'.lineId) →
          exec (.arm t c p a b) s = .next (s'.except w 1 xPOINT 0))) ∧
      (∀ n, w = .g n → id < 2 ^ 20 →
        exec (.spr t c rd a) s =
          .next (((s'.sprPoint id).2.setGr w rd (s'.sprPoint id).1).goOn w 1) ∧
        exec (.spw t c a b) s = .next
          ((if id / 1024 = s'.lineId then s'.setPoint (id % 1024) (s'.gr w b)
            else s'.sendSpw id (s'.gr w b) s'.clk.tb).goOn w 1)) ∧
      (∀ key ph i, w = .t key ph i → id < 2 ^ 20 →
        (∀ j v, (s'.slot key).inst = some j → id / 1024 = s'.lineId → stagedPoint (id % 1024) j.staged = some v →
          exec (.spr t c rd a) s = .next ((s'.setGr w rd v).goOn w 1)) ∧
        (id / 1024 ≠ s'.lineId → exec (.spr t c rd a) s =
          .next (((s'.sprPoint id).2.setGr w rd (s'.sprPoint id).1).goOn w 1)) ∧
        ((s'.slot key).cbuse < 64 → exec (.spw t c a b) s = .next ((s'.stageWrite key
          (if id / 1024 = s'.lineId then .point (id % 1024) (s'.gr w b) else .remote id (s'.gr w b))).goOn w 1)) ∧
        (64 ≤ (s'.slot key).cbuse → exec (.spw t c a b) s = .next (s'.except w 1 xCOMMIT_FULL 0))) ∧
      (2 ^ 20 ≤ id → exec (.spr t c rd a) s = .next (s'.except w 1 xPOINT 0)) ∧
      (∀ key ph i, w = .t key ph i → exec (.yield t c) s = .next (s'.charge key ph 1 i .commit 0)) ∧
      ∀ n, w = .g n →
        ((s'.readyLine n).isSome = true ∨ (s'.gcore n).nmi = true → exec (.yield t c) s = .next (s'.goOn w 1)) ∧
        ((s'.readyLine n).isSome = false ∧ (s'.gcore n).nmi = false → exec (.yield t c) s =
          .next (s'.modGcore n fun c => { c with pc := (c.pc + 4) % 2 ^ 32, yielding := true }))) ∧
  (
    (∀ (s : State) (t : Tick) (c : Fin 26) (l : Nat) (slot : Fin 8) (i : Instance) (u : Tick),
      let s0 := s.atStep t 8
      c.val < 24 → s0.logicalOf c = some l → (s0.slot (8 * l + slot)).inst = some i → i.waitUntil = some u →
      exec (.waittResume t c slot) s = .next
        (if u ≤ s0.clk.tb ∧ u < i.deadline then
          s0.modInst (8 * l + slot) fun i => { i with waitUntil := none } else s0)) ∧
    (∀ (s : State) (t : Tick) (n : Fin 2) (slot : Fin 8) (u : Tick),
      let s0 := s.atStep t 8
      (s0.gcore n).waitUntil = some u →
      exec (.waittResume t ⟨24 + n, by omega⟩ slot) s = .next
        (if u ≤ s0.clk.tb then
          s0.modGcore n fun c => { c with waitUntil := none, pc := (c.pc + 4) % 2 ^ 32 } else s0)) ∧
    (∀ (s : State) (p : Nat) (i : Instance),
      let x := s.flight p
      let u := s.setFlight p { x with what := .plain }
      (s.slot x.key).inst = some i →
      (i.release ≠ x.release → s.endFlight p = u) ∧
      (i.release = x.release →
        (x.what = .commit → x.due ≤ i.deadline → s.endFlight p = u.completeInstance x.key p i) ∧
        (∀ rt sz signed v, x.what = .loaded rt sz signed v → x.due ≤ i.deadline → s.endFlight p =
          (u.putLoad (.t x.key p i) rt sz signed v).modInst x.key fun i => { i with pc := i.pc + 4 }) ∧
        (∀ code addr, x.what = .exc code addr → x.due < i.deadline →
          s.endFlight p = u.dropPeriod x.key dEXCEPTION (code, i.pc, addr)) ∧
        (x.what = .plain ∨ i.deadline < x.due → s.endFlight p = u))) ∧
    ∀ (s : State) (t : Tick) (n : Fin 2), ((s.at t).gcore n).yielding = true →
      exec (.yieldWake t n) s = .next
        (if ((s.at t).readyLine n).isSome = true ∨ ((s.at t).gcore n).nmi = true then
          (s.at t).modGcore n fun c => { c with yielding := false } else s.at t))

/-- SYSCALL and BREAK trap on Sinel-G, or halt the core under a debugger; a word no encoding table describes raises
ILLEGAL, as all of the SYS group but FENCE does on Sinel-T (R95, R96, R116). FENCE goes on. Entering a trap (R120):
TSAVE, TRET, TCODE and TADDR take the status, the address of the instruction, the code and the faulting address; the
core runs on at VBASE with interrupts off, at level S. In a trap handler it is a double fault (R121): the core stops
fetching, and CPU_DBL is raised. INTERRUPT_ENTRY takes the lowest pending enabled line at VBASE + 0x100 + 16 × line,
with TCODE 0x80 + line (R126); NMI_ENTRY saves the status and the address in NSAVE and NRET, continues at VBASE + 0x80
and leaves the trap registers (R120). Neither is taken while its condition does not hold. -/
def Obligations.TrapsInterruptsAndSystemOperations : Prop :=
  (
    ∀ (s s' : State) (t : Tick) (c : Fin 26) (x : Word) (w : Who), CanIssue (s.atCore t c) c 1 w s' →
      exec (.fence t c) s = .next (s'.goOn w 1) ∧
      (illegalWord (24 ≤ c.val) x = true → exec (.illegalWord t c x) s = .next (s'.except w 1 xILLEGAL 0)) ∧
      (∀ n, w = .g n →
        exec (.syscall t c) s = .next (s'.trapG n xSYSCALL 0) ∧
        ((s'.gcore n).debug = false → exec (.brk t c) s = .next (s'.trapG n xBREAK 0)) ∧
        ((s'.gcore n).debug = true → exec (.brk t c) s = .next (s'.modGcore n fun c => { c with running := false })) ∧
        ((s'.gcore n).depth = 0 → exec (.rtt t c) s = .next (s'.trapG n xILLEGAL 0)) ∧
        ((s'.gcore n).depth ≠ 0 → (s'.gcore n).user = true → exec (.rtt t c) s = .next (s'.trapG n xPRIV 0)) ∧
        ((s'.gcore n).depth = 1 ∨ (s'.gcore n).depth = 3 → (s'.gcore n).user = false → exec (.rtt t c) s =
          .next ((s'.modGcore n fun g => g.setKr 1 (g.kr 43 &&& 0xF)).goTo w 1 ((s'.gcore n).kr 5).toNat)) ∧
        ((s'.gcore n).depth = 2 → (s'.gcore n).user = false → exec (.rtt t c) s =
          .next ((s'.modGcore n fun g => { g.setKr 1 (g.kr 42 &&& 0xF) with nmiService := false }).nmiSettle.goTo w 1
            ((s'.gcore n).kr 41).toNat))) ∧
      ∀ key p i, w = .t key p i → ∀ j ∈ [Instr.syscall t c, .brk t c, .rtt t c, .cclean t c 1, .cinv t c 1, .cflush t c 1,
        .icinv t c 1, .dcall t c, .icall t c], exec j s = .next (s'.except w 1 xILLEGAL 0)) ∧
  (
    ∀ (s : State) (n code addr : Nat), n < 2 → code < 2 ^ 32 →
      let g := s.gcore n
      let g' := (s.trapG n code addr).gcore n
      (g.doubleFault = false →
        g'.kr 43 = g.kr 1 ∧ g'.kr 5 = BitVec.ofNat 32 g.pc ∧ g'.kr 6 = BitVec.ofNat 32 code ∧
        g'.kr 7 = (if code = 1 ∨ code = 2 ∨ code = 5 ∨ code = 6 ∨ code = 7 ∨ code = 8 then BitVec.ofNat 32 addr else 0) ∧
        g'.ie = false ∧ g'.user = false ∧ g'.depth = (if g.depth = 2 then 3 else 1) ∧
        g'.pc = (g.kr 32).toNat ∧ g'.g = g.g ∧ (s.trapG n code addr).mem = s.mem ∧
        (s.trapG n code addr).regs = s.regs ∧ (s.trapG n code addr).gcore (1 - n) = s.gcore (1 - n)) ∧
      (g.depth = 1 ∨ g.depth = 3 →
        g'.running = false ∧ g'.dbl = true ∧ g'.pc = g.pc ∧ g'.g = g.g ∧ g'.k = g.k ∧
        (s.trapG n code addr).sbx.raised = s.sbx.raised ++ [{ src := 4 + n, ev := 0, ts := s.now }])) ∧
  (
    ∀ (s : State) (t : Tick) (n : Fin 2),
      let g := (s.at t).gcore n
      (∀ x, g.running = true → g.ie = true → g.depth = 0 → g.nmi = false → (s.at t).readyLine n = some x →
        ∃ u : State, exec (.interruptEntry t n) s = .next u ∧
          (u.gcore n).kr 43 = g.kr 1 ∧ (u.gcore n).kr 5 = BitVec.ofNat 32 g.pc ∧
          (u.gcore n).kr 6 = BitVec.ofNat 32 (0x80 + x) ∧ (u.gcore n).kr 7 = 0 ∧ (u.gcore n).kr 1 = 4 ∧
          (u.gcore n).pc = ((g.kr 32).toNat + (0x100 + 16 * x)) % 2 ^ 32 ∧ (u.gcore n).g = g.g ∧ u.mem = (s.at t).mem) ∧
      (g.ie = false ∨ g.depth ≠ 0 → exec (.interruptEntry t n) s = .next (s.at t)) ∧
      (g.running = true → g.nmi = true → g.depth < 2 →
        ∃ u : State, exec (.nmiEntry t n) s = .next u ∧
          (u.gcore n).kr 42 = g.kr 1 ∧ (u.gcore n).kr 41 = BitVec.ofNat 32 g.pc ∧ (u.gcore n).kr 1 = 8 ∧
          (u.gcore n).kr 43 = g.kr 43 ∧ (u.gcore n).kr 5 = g.kr 5 ∧ (u.gcore n).kr 6 = g.kr 6 ∧ (u.gcore n).kr 7 = g.kr 7 ∧
          (u.gcore n).pc = ((g.kr 32).toNat + 0x80) % 2 ^ 32 ∧ (u.gcore n).nmi = false ∧
          (u.gcore n).nmiService = true ∧ (u.gcore n).g = g.g ∧ u.mem = (s.at t).mem) ∧
      (2 ≤ g.depth → exec (.nmiEntry t n) s = .next (s.at t)))

/-- A load of a sequencer instance (R39, R101–R103, R117, R141). From its TCM it gives memory with the writes that the
instance sees laid over it, zero-extended by LD and sign-extended by LDS; size 3 names a pair. A load from the Stacks
or a register issues with 12 cycles, and its target is read in the core's next standing slot: memory with those writes
as it stands then, or what the register reads as, and BUS where the target's domain is no longer on. A misaligned
address raises ALIGN, an address outside the regions of R102 ACCESS, a register that is off or read as a pair BUS, and
a form that is not given ILLEGAL. A store of a sequencer instance (R101–R103) is staged, and so changes no byte of
memory and no register of the part; instruction memory and what R102 does not list raise ACCESS, a full buffer
COMMIT_FULL, a register that is off or written with another size than a word BUS. SWAPW raises ILLEGAL (R105). When
such a load is checked, and in which cycle of its core's standing slot it is read, is the model's reading: log entries
45 and 93. -/
def Obligations.MemoryAccessOnSequencers : Prop :=
  (
    (∀ (s s' : State) (t : Tick) (c : Fin 26) (sz : Fin 4) (rt ra : Fin 32) (off : BitVec 14) (lat key p : Nat)
        (i : Instance),
      let w := Who.t key p i
      CanIssue (s.atCore t c) c lat w s' → lat = State.memLat ra off w s' →
      let a := (s'.gr w ra + off.signExtend 32).toNat
      let n := 2 ^ sz.val
      let v := natLE (s'.overlaid key a (readBytes s'.mem a n))
      let pairOk := sz = 3 → pairOkR rt = true
      let gate := s'.gateAllows iSEQ a n .load = true
      let own := (seqRegion p a = .itcm ∨ seqRegion p a = .dtcm) ∧ gate ∧ s'.memOn a n = true ∧ s'.poisoned a n = false
      let remote := gate ∧ (seqRegion p a = .stacks ∧ s'.memOn a n = true ∨
        seqRegion p a = .regs ∧ sz.val < 3 ∧ s'.regOn a = true)
      (a % n = 0 → own →
        (sz.val < 3 → exec (.ld t c sz rt ra off) s = .next ((s'.setGr w rt (BitVec.ofNat 32 v)).goOn w lat)) ∧
        (sz = 3 → pairOkR rt = true → exec (.ld t c sz rt ra off) s = .next ((s'.setGrPair w rt v).goOn w lat)) ∧
        (sz.val < 2 → exec (.lds t c sz rt ra off) s =
          .next ((s'.setGr w rt (BitVec.ofInt 32 (toSigned (8 * n) v))).goOn w lat))) ∧
      (a % n = 0 → remote →
        (pairOk → exec (.ld t c sz rt ra off) s = .next (s'.flies w 12 a rt sz false)) ∧
        (sz.val < 2 → exec (.lds t c sz rt ra off) s = .next (s'.flies w 12 a rt sz true))) ∧
      (a % n = 0 → pairOk → gate → seqRegion p a = .stacks ∧ s'.memOn a n = false ∨
          seqRegion p a = .regs ∧ (sz = 3 ∨ s'.regOn a = false) →
        exec (.ld t c sz rt ra off) s = .next (s'.except w lat xBUS a)) ∧
      (a % n ≠ 0 → pairOk → exec (.ld t c sz rt ra off) s = .next (s'.except w lat xALIGN a)) ∧
      (a % n ≠ 0 → sz.val < 2 → exec (.lds t c sz rt ra off) s = .next (s'.except w lat xALIGN a)) ∧
      (a % n = 0 → pairOk → seqRegion p a = .none → exec (.ld t c sz rt ra off) s = .next (s'.except w lat xACCESS a)) ∧
      (2 ≤ sz.val → exec (.lds t c sz rt ra off) s = .next (s'.except w lat xILLEGAL 0)) ∧
      (¬ pairOk → exec (.ld t c sz rt ra off) s = .next (s'.except w lat xILLEGAL 0))) ∧
    ∀ (s : State) (p a sz : Nat) (rt : Fin 32) (signed : Bool),
      let x := s.flight p
      let n := 2 ^ sz
      x.what = .load a rt sz signed → s.gateAllows iSEQ a n .load = true →
      (seqRegion p a = .stacks →
        (s.memOn a n = true → s.poisoned a n = false → s.arrayRead p = s.setFlight p
          { x with what := .loaded rt sz signed (natLE (s.overlaid x.key a (readBytes s.mem a n))) }) ∧
        (s.memOn a n = true → s.poisoned a n = true →
          s.arrayRead p = s.setFlight p { x with what := .exc xECC_D a }) ∧
        (s.memOn a n = false → s.arrayRead p = s.setFlight p { x with what := .exc xBUS a })) ∧
      (seqRegion p a = .regs → ∀ v u, s.regRead iSEQ a n = ({ value := v }, u) →
        s.arrayRead p = u.setFlight p { x with what := .loaded rt sz signed v })) ∧
  (
    ∀ (s s' : State) (t : Tick) (c : Fin 26) (sz : Fin 4) (rt ra : Fin 32) (off : BitVec 14) (lat key p : Nat) (i : Instance),
      let w := Who.t key p i
      CanIssue (s.atCore t c) c lat w s' →
      let a := (s'.gr w ra + off.signExtend 32).toNat
      let n := 2 ^ sz.val
      let v := if sz = 3 then s'.grPair w rt else (s'.gr w rt).toNat % 2 ^ (8 * n)
      let pairOk := sz = 3 → pairOkR rt = true
      let open' := s'.gateAllows iSEQ a n .store = true
      let st := Instr.st t c sz rt ra off
      (lat = State.memLat ra off w s' →
        (a % n = 0 → pairOk → open' → (s'.slot key).cbuse < 64 →
          (seqRegion p a = .dtcm → exec st s = .next ((s'.stageWrite key (.tcm a n v)).goOn w lat)) ∧
          (seqRegion p a = .stacks ∨ (seqRegion p a = .regs ∧ n = 4 ∧ s'.regOn a = true) →
            exec st s = .next ((s'.stageWrite key (.bus a n v)).goOn w lat))) ∧
        (a % n = 0 → pairOk → seqRegion p a = .none ∨ seqRegion p a = .itcm →
          exec st s = .next (s'.except w lat xACCESS a)) ∧
        (a % n = 0 → pairOk → open' → seqRegion p a = .regs → n ≠ 4 ∨ s'.regOn a = false →
          exec st s = .next (s'.except w lat xBUS a)) ∧
        (a % n = 0 → pairOk → open' → seqRegion p a = .dtcm ∨ seqRegion p a = .stacks → 64 ≤ (s'.slot key).cbuse →
          exec st s = .next (s'.except w lat xCOMMIT_FULL 0)) ∧
        (a % n ≠ 0 → pairOk → exec st s = .next (s'.except w lat xALIGN a)) ∧
        (¬ pairOk → exec st s = .next (s'.except w lat xILLEGAL 0))) ∧
      (∀ x, ((s'.stageWrite key x).goOn w lat).mem = s'.mem ∧ ((s'.stageWrite key x).goOn w lat).regs = s'.regs) ∧
      (lat = 1 → exec (.swapw t c sz rt ra off) s = .next (s'.except w 1 xILLEGAL 0)))

/-- A load of a supervisor core (R101, R122, R123, R127) at the physical address that its window gives. Outside the
data cache it reads the bytes there, or a register; a line that the cache holds gives its own bytes, and a miss brings
the line in. The boot ROM and the Ledger's HDR region, whose bytes the spec leaves to the part, stand apart. A store
of a supervisor core (R101). Outside its data cache the stored bytes stand at the physical address that its window
gives to ra + sext(off), least significant first, and every byte outside them, and every register of the core and of
the part, is unchanged; a store to a register has that register's effect. A line that the cache holds takes the bytes
and is dirty, and memory is unchanged (R127). What memory reads as before anything wrote it is log entry 5. -/
def Obligations.MemoryAccessOnSupervisors : Prop :=
  (
    ∀ (s s' : State) (t : Tick) (c : Fin 26) (sz : Fin 4) (rt ra : Fin 32) (off : BitVec 14) (n : Nat),
      let w := Who.g n
      CanIssue (s.atCore t c) c 1 w s' →
      let va := (s'.gr w ra + off.signExtend 32).toNat
      let k := 2 ^ sz.val
      let a := (s'.gcore n).phys va
      let gives (u : State) (v : Nat) :=
        (sz.val < 3 → exec (.ld t c sz rt ra off) s = .next ((u.setGr w rt (BitVec.ofNat 32 v)).goOn w 1)) ∧
        (sz = 3 → pairOkR rt = true → exec (.ld t c sz rt ra off) s = .next ((u.setGrPair w rt v).goOn w 1)) ∧
        (sz.val < 2 → exec (.lds t c sz rt ra off) s =
          .next ((u.setGr w rt (BitVec.ofInt 32 (toSigned (8 * k) v))).goOn w 1))
      let plain := inRegs a = false ∧ s'.memOn a k = true ∧ s'.poisoned a k = false ∧ 0x40000 ≤ a ∧
        ¬ (ledgerBase < a + k ∧ a < ledgerBase + 0x8000)
      (va % k = 0 → s'.windowRefuses n va false = false → s'.gateAllows (iSUP n) a k .load = true →
        (s'.cachedData n va = false → plain → gives s' (natLE (readBytes s'.mem a k))) ∧
        (s'.cachedData n va = false → inRegs a = true →
          ∀ x u, s'.regRead (iSUP n) a k = ({ value := x }, u) → gives u x) ∧
        (s'.cachedData n va = true →
          (∀ l, s'.dline n a = some l → gives s' (natLE ((l.bytes.drop (a % 64)).take k))) ∧
          (s'.dline n a = none → plain → gives (s'.allocate n a).2 (natLE (readBytes s'.mem a k))))) ∧
      (va % k ≠ 0 → (sz = 3 → pairOkR rt = true) → exec (.ld t c sz rt ra off) s = .next (s'.trapG n xALIGN va)) ∧
      (va % k = 0 → (sz = 3 → pairOkR rt = true) → s'.windowRefuses n va false = true →
        exec (.ld t c sz rt ra off) s = .next (s'.trapG n xACCESS va))) ∧
  (
    ∀ (s s' : State) (t : Tick) (c : Fin 26) (sz : Fin 4) (rt ra : Fin 32) (off : BitVec 14) (n : Nat),
      let w := Who.g n
      CanIssue (s.atCore t c) c 1 w s' →
      let va := (s'.gr w ra + off.signExtend 32).toNat
      let k := 2 ^ sz.val
      let a := (s'.gcore n).phys va
      let v := if sz = 3 then s'.grPair w rt else (s'.gr w rt).toNat % 2 ^ (8 * k)
      let pairOk := sz = 3 → pairOkR rt = true
      let st := Instr.st t c sz rt ra off
      (va % k = 0 → pairOk → s'.windowRefuses n va true = false → s'.gateAllows (iSUP n) a k .store = true →
        (s'.cachedData n va = false → inRegs a = false → s'.memOn a k = true → storable a k = true →
          ¬ (ledgerBase ≤ a ∧ a < dramBase) →
          ∃ u : State, exec st s = .next (u.goOn w 1) ∧
            (∀ j < k, (readByte u.mem (a + j)).toNat = v / 256 ^ j % 256) ∧
            (∀ b, b < a ∨ a + k ≤ b → readByte u.mem b = readByte s'.mem b) ∧
            u.gcores = s'.gcores ∧ u.regs = s'.regs ∧ u.points = s'.points ∧ u.sbx = s'.sbx) ∧
        (s'.cachedData n va = false → inRegs a = true →
          ∀ u, s'.regWrite (iSUP n) a k (BitVec.ofNat 32 v) = (.ok, u) → exec st s = .next (u.goOn w 1)) ∧
        (s'.cachedData n va = true → s'.memOn a k = true → storable a k = true → ∀ l, s'.dline n a = some l →
          ∃ u : State, exec st s = .next (u.goOn w 1) ∧ u.mem = s'.mem ∧ u.regs = s'.regs ∧
            u.dline n a = some { l with dirty := true, bytes := overlayWrite l.addr l.bytes a k v })) ∧
      (va % k ≠ 0 → pairOk → exec st s = .next (s'.trapG n xALIGN va)) ∧
      (va % k = 0 → pairOk → s'.windowRefuses n va true = true → exec st s = .next (s'.trapG n xACCESS va)) ∧
      (¬ pairOk → exec st s = .next (s'.trapG n xILLEGAL 0)))

/-- SWAPW (R105) exchanges rt with the word at its physical address; nothing else of memory changes. Outside the
Stacks and supervisor local memory, or through a cached window, it raises ACCESS, and with a size other than a word
ILLEGAL. The cache operations (R116, R127) on a supervisor core whose load from ra would pass, as that of a cached
line does whatever the state of its domain. CCLEAN leaves the line of the address clean; CINV and CFLUSH leave it out
of the data cache, ICINV out of the instruction cache; DCALL and ICALL empty a cache. CINV writes nothing back, and
ICINV and ICALL change no memory. -/
def Obligations.SwapWordAndCaches : Prop :=
  (
    ∀ (s s' : State) (t : Tick) (c : Fin 26) (sz : Fin 4) (rt ra : Fin 32) (off : BitVec 14) (n : Nat),
      let w := Who.g n
      CanIssue (s.atCore t c) c 1 w s' →
      let va := (s'.gr w ra + off.signExtend 32).toNat
      let a := (s'.gcore n).phys va
      (sz = 2 → va % 4 = 0 → s'.windowRefuses n va true = false → ((s'.gcore n).win va).getLsbD 18 = false →
        swapReach a = true → s'.gateAllows (iSUP n) a 4 .store = true → s'.gateAllows (iSUP n) a 4 .load = true →
        s'.memOn a 4 = true → s'.poisoned a 4 = false →
        ∃ m : State, exec (.swapw t c sz rt ra off) s = .next ((m.setGr w rt (BitVec.ofNat 32 (s'.memLE a 4))).goOn w 1) ∧
          (∀ j < 4, (readByte m.mem (a + j)).toNat = (s'.gr w rt).toNat / 256 ^ j % 256) ∧
          (∀ b, b < a ∨ a + 4 ≤ b → readByte m.mem b = readByte s'.mem b) ∧
          m.gcores = s'.gcores ∧ m.regs = s'.regs ∧ m.points = s'.points) ∧
      (sz = 2 → va % 4 = 0 → s'.windowRefuses n va true = true ∨ ((s'.gcore n).win va).getLsbD 18 = true ∨
        swapReach a = false → exec (.swapw t c sz rt ra off) s = .next (s'.trapG n xACCESS va)) ∧
      (sz ≠ 2 → exec (.swapw t c sz rt ra off) s = .next (s'.trapG n xILLEGAL 0))) ∧
  (
    ∀ (s s' : State) (t : Tick) (c : Fin 26) (ra : Fin 32) (n : Nat),
      let w := Who.g n
      CanIssue (s.atCore t c) c 1 w s' →
      let va := (s'.gr w ra).toNat
      let a := (s'.gcore n).phys va
      let on := s'.cachedData n va = true ∧ (s'.dline n a).isSome = true ∨
        (if inRegs a then s'.regOn a else s'.memOn a 1) = true
      let s0 := (s'.gcore n).user = false
      (s'.windowRefuses n va false = false → s'.gateAllows (iSUP n) a 1 .load = true → on →
        (∃ u : State, exec (.cclean t c ra) s = .next (u.goOn w 1) ∧ ∀ l, u.dline n a = some l → l.dirty = false) ∧
        (∃ u : State, exec (.cflush t c ra) s = .next (u.goOn w 1) ∧ u.dline n a = none) ∧
        (s0 → ∃ u : State, exec (.cinv t c ra) s = .next (u.goOn w 1) ∧ u.dline n a = none ∧ u.mem = s'.mem) ∧
        (s0 → ∃ u : State, exec (.icinv t c ra) s = .next (u.goOn w 1) ∧ a / 64 ∉ (u.gcore n).icache ∧ u.mem = s'.mem)) ∧
      (s0 → (∃ u : State, exec (.dcall t c) s = .next (u.goOn w 1) ∧ (u.gcore n).dcache = []) ∧
        ∃ u : State, exec (.icall t c) s = .next (u.goOn w 1) ∧ (u.gcore n).icache = [] ∧ u.mem = s'.mem) ∧
      (¬ s0 → ∀ i ∈ [Instr.cinv t c ra, .icinv t c ra, .dcall t c, .icall t c], exec i s = .next (s'.trapG n xPRIV 0)))

/-! ### Registers -/

/-- REGISTER_WRITE (R11, R12, R32, R35): a word write that the Gates allow to a register whose domain is ON does what
the register's write does and answers without error; one that the Gates refuse is recorded and changes no register but
theirs; one of another size, misaligned, or outside the registers that are on answers a bus error and changes nothing.
The Gates (R466, R468): an access passes where the initiator's OPEN bit is set or one of its 32 regions covers it
whole and grants its kind; a refusal is recorded with the initiator, the kind and the address, and raises GATE. -/
def Obligations.RegisterWrites : Prop :=
  (
    ∀ (s : State) (t : Tick) (ini : Fin 7) (a : BitVec 32) (size : Fin 4) (v : BitVec 64),
      let u := s.at t
      let n := 2 ^ size.val
      let w := BitVec.ofNat 32 (v.toNat % 2 ^ (8 * n))
      (inRegs a.toNat = true → u.gateAllows ini a.toNat n .store = true →
        (size = 2 → a.toNat % 4 = 0 → u.regOn a.toNat = true →
          ∀ d ix, waveKey a.toNat = none → findReg a.toNat = some (d, ix) →
            let i := ix.getD 0 0
            let j := ix.getD 1 0
            let done (x : State) := exec (.registerWrite t ini a size v) s = .next (x.setAcc ini { err := .ok })
            (regAbsent d i = true → done u) ∧
            (regAbsent d i = false → (d.base = Reg.PLT_CH_CFG 0 → ini.val < 2) →
              (blockAt a.toNat = some .hst → u.hst.perst = false) →
              d.base ≠ Reg.HST_CTRL → d.base ≠ Reg.HST_MSIX_REARM → d.base ≠ Reg.HST_DB_SET_LO → d.base ≠ Reg.HST_DB_SET_HI →
              (u.actingWrite ini a.toNat d i j w = none → done (u.storeReg a.toNat d i j w)) ∧
              ∀ x, u.actingWrite ini a.toNat d i j w = some x → done x)) ∧
        (size ≠ 2 ∨ a.toNat % 4 ≠ 0 ∨ u.regOn a.toNat = false →
          exec (.registerWrite t ini a size v) s = .next (u.setAcc ini { err := .bus }))) ∧
      (inRegs a.toNat = true → u.gateAllows ini a.toNat n .store = false →
        exec (.registerWrite t ini a size v) s = .next ((u.gateRefuse ini a.toNat .store).setAcc ini { err := .access })) ∧
      (inRegs a.toNat = false → exec (.registerWrite t ini a size v) s = .next (u.setAcc ini { err := .bus }))) ∧
  (
    ∀ (s : State) (i a n : Nat) (k : AccKind), i < 7 → a < 2 ^ 40 →
      (s.gateAllows i a n k = true ↔ s.f Reg.SEC_GATE_OPEN i i = 1 ∨ ∃ r < 32,
        s.f (Reg.SEC_GATE_PERM i r) 0 0 = 1 ∧ s.f (Reg.SEC_GATE_PERM i r) k.bit k.bit = 1 ∧
        4096 * s.f (Reg.SEC_GATE_BASE i r) 27 0 ≤ a ∧ a + n ≤ 4096 * (s.f (Reg.SEC_GATE_LIM i r) 27 0 + 1)) ∧
      let u := s.gateRefuse i a k
      u.f Reg.SEC_GATE_ERR 2 0 = i ∧ u.fb Reg.SEC_GATE_ERR 3 = (k == .store) ∧ u.fb Reg.SEC_GATE_ERR 4 = (k == .fetch) ∧
      u.pair Reg.SEC_GATE_ADDR_LO Reg.SEC_GATE_ADDR_HI = a ∧ u.fb Reg.SEC_IRQ_STATUS 0 = true ∧
      u.sbx.raised = s.sbx.raised ++ [{ src := srcSEC, ev := 0, ts := s.now }] ∧ u.mem = s.mem)

/-- A word written to a register, field by field (R13): RW takes the value its Meaning allows, RO and WO keep theirs,
W1C clears and W1S sets the bits written 1. Storing a register (R14, R15): a write that would change a class L field
while its block runs changes nothing and raises CFG_BUSY; else the register takes the word, in the case of class S
fields until their boundary beside the value in force. A W1C bit that hardware sets in the CORE cycle of the write
stays set, and in every other cycle the word is the one that the fields' access kinds give. -/
def Obligations.FieldWritesAndLocks : Prop :=
  (
    ∀ (d : RegDesc) (old w : Word),
      d.fields.Pairwise (fun f g => f.lsb + f.width ≤ g.lsb ∨ g.lsb + g.width ≤ f.lsb) →
      (∀ f ∈ d.fields, 0 < f.width ∧ f.lsb + f.width ≤ 32) →
      ∀ f ∈ d.fields,
        let o := bits old (f.lsb + f.width - 1) f.lsb
        let v := bits w (f.lsb + f.width - 1) f.lsb
        let got := bits (d.write old w) (f.lsb + f.width - 1) f.lsb
        (f.acc = .ro ∨ f.acc = .wo → got = o) ∧
        (f.acc = .w1s → got = o ||| v) ∧
        (f.acc = .w1c → got + (o &&& v) = o) ∧
        (f.acc = .rw → got = f.fix.apply v % 2 ^ f.width)) ∧
  (
    (∀ (s : State) (a x : Nat) (d : RegDesc) (w : Word), x < 32 →
      ((d.maskOf fun f => f.acc == .w1c).getLsbD x = true → ((s.setB a x true).written a d w).getLsbD x = true) ∧
      ∀ t, t ≠ s.clk.tb → ({ s.setB a x true with clk := { s.clk with tb := t } } : State).hwSet.stamp = s.clk.tb →
        ({ s.setB a x true with clk := { s.clk with tb := t } } : State).written a d w =
          d.write ((s.setB a x true).reg a) w) ∧
    ∀ (s : State) (a : Nat) (d : RegDesc) (i j : Nat) (w : Word),
      let new := s.written a d (s.fixWord d i j w)
      (d.changesL (s.reg a) new = true → s.regLocked a d i j = true →
        s.storeReg a d i j w = s.cfgBusy a i ∧ (s.cfgBusy a i).regs = s.regs ∧ (s.cfgBusy a i).mem = s.mem) ∧
      (d.changesL (s.reg a) new = false ∨ s.regLocked a d i j = false → (s.storeReg a d i j w).reg a = new ∧
        ∀ b, b ≠ a → (s.storeReg a d i j w).reg b = s.reg b))

/-- Class S values (R16): a read returns the word last written, applied or not; of several writes before the boundary
the last takes force there; and a write in the CORE cycle of the boundary takes force at the following one. -/
def Obligations.ClassSBoundary : Prop :=
  ∀ (s : State) (a : Nat) (v v' : Word), (∀ p ∈ s.held, p.1 = a → p.2.stamp ≠ s.clk.tb) →
    let later (x : State) (t : Nat) : State := { x with clk := { x.clk with tb := t } }
    let u := s.hold a v
    u.reg a = v ∧ u.applied a = s.applied a ∧
    (∀ t, t ≠ s.clk.tb → ((later u t).applyS a).reg a = v ∧ ((later u t).applyS a).applied a = v) ∧
    (∀ t, ((later u t).hold a v').reg a = v' ∧ ((later u t).hold a v').applied a = s.applied a ∧
      ∀ t', t' ≠ t → t' ≠ s.clk.tb → ((later ((later u t).hold a v') t').applyS a).applied a = v') ∧
    (u.applyS a).reg a = v ∧ (u.applyS a).applied a = s.reg a ∧
    ∀ t, t ≠ s.clk.tb → ((later (u.applyS a) t).applyS a).applied a = v

/-! ### Task slots and physical cores -/

/-- FRAME_LOAD, SPAN_START, SPAN_END and RELEASE (R130–R133, R149): the frame at the slot's address becomes its bank,
at the outcome of an instance of an earlier span where there is one; the span starts at the CORE edge of the claim's
window with the claim's parameters and a cleared history; a released instance runs from ENTRY with the period's
deadline; a span without instance ends at its end. What a drop does (R144), seen on a standing slot, which forms no
cause of an outcome: the bank returns to what the last met period left, the history takes a 1, DROPS and the count of
periods rise, the cause is recorded, and an EXCEPTION records its code and addresses. DEADLINE_DROP drops the period
of an instance whose deadline has come. -/
def Obligations.SlotSpansAndDrops : Prop :=
  (
    ∀ (s : State) (t : Tick) (l : Fin 20) (slot : Fin 8),
      let u := s.atStep t 6
      let key := 8 * l.val + slot.val
      let x := u.slot key
      let frame (p : Nat) (b : Tab Word) := ∀ n < 32, Tab.get 0 b (n + 1) =
        BitVec.ofNat 32 (u.memLE (tcmBase p + u.f (atKey Reg.SQ_SLOT_FRAME key) 17 0 + 4 * n) 4)
      (∀ c p, x.use ≠ .standing → u.nextSpan key = some c → coreEdge c.start ≤ u.clk.tb + 512 →
        (∀ b, x.loaded ≠ some (coreEdge c.start, b)) → u.physOf (key / 8) = some p →
        u.fb (atKey Reg.SQ_SLOT_ENTRY key) 16 = true → u.fb (atKey Reg.SQ_SLOT_FRAME key) 18 = true →
        ∃ v : State, exec (.frameLoad t l slot) s = .next v ∧ v.mem = u.mem ∧ v.regs = u.regs ∧
          (v.slot key).loaded = some (coreEdge c.start, true) ∧
          (x.inst = none → frame p (v.slot key).bank) ∧
          (x.inst.isSome = true → (v.slot key).bank = x.bank ∧ (v.slot key).frameOwed = true ∧
            frame p ((v.endInstance key).slot key).bank)) ∧
      (∀ c, x.use = .off → u.nextSpan key = some c → c.start ≤ u.clk.tb →
        ∃ v : State, exec (.spanStart t l slot) s = .next v ∧
          (v.slot key).use = .timetable ∧ (v.slot key).r0 = coreEdge c.start ∧ (v.slot key).spanEnd = some c.stop ∧
          (v.slot key).started = 0 ∧ v.reg (atKey Reg.SQ_SLOT_PERIOD key) = BitVec.ofNat 32 c.c.period ∧
          v.reg (atKey Reg.SQ_SLOT_DEADLINE key) = BitVec.ofNat 32 c.c.deadline ∧
          v.reg (atKey Reg.SQ_SLOT_WCET key) = BitVec.ofNat 32 c.c.wcet ∧ v.reg (atKey Reg.SQ_SLOT_HIST key) = 0 ∧
          v.f (atKey Reg.SQ_SLOT_STATE key) 13 8 = 0 ∧ v.mem = u.mem) ∧
      (u.spanOver key = true →
        ∃ v : State, exec (.spanEnd t l slot) s = .next v ∧ (v.slot key).use = .off ∧ v.regs = u.regs ∧ v.mem = u.mem ∧
          ∀ c, c ∈ v.sq.claims ↔ c ∈ u.sq.claims ∧
            ¬ (c.c.core = l.val ∧ c.c.slot = slot.val ∧ c.stop ≤ u.clk.tb)) ∧
      let u := s.atStep t 7
      let x := u.slot key
      let r := x.r0 + x.started * u.f (atKey Reg.SQ_SLOT_PERIOD key) 31 0 * 8
      let d := r + u.f (atKey Reg.SQ_SLOT_DEADLINE key) 31 0 * 8
      (x.use ≠ .off → x.inst = none → x.stopping = false → r ≤ u.clk.tb → (∀ e, u.spanLimit key = some e → d ≤ e) →
        (x.loaded = some (x.r0, true) →
          ∃ v : State, exec (.release t l slot) s = .next v ∧ v.regs = u.regs ∧ v.mem = u.mem ∧
            (v.slot key).bank = x.bank ∧ (v.slot key).started = x.started + 1 ∧
            (v.slot key).inst = some
              { k := x.started, release := r, deadline := d, pc := u.f (atKey Reg.SQ_SLOT_ENTRY key) 15 0 }) ∧
        (x.loaded = some (x.r0, false) → x.notReadyRaised = true →
          exec (.release t l slot) s = .next
            ((u.modSlot key fun x => { x with started := x.started + 1 }).dropPeriod key dNOT_READY (0, 0, 0))))) ∧
  (
    (∀ (s : State) (key cause code pc addr : Nat), key < 160 → cause < 8 → code < 2 ^ 16 → pc < 2 ^ 16 →
      (s.slot key).use = .standing →
      let u := s.dropPeriod key cause (code, pc, addr)
      let st := atKey Reg.SQ_SLOT_STATE key
      (u.slot key).inst = none ∧ ((s.slot key).frameOwed = false → (u.slot key).bank = (s.slot key).shadow) ∧
      u.reg (atKey Reg.SQ_SLOT_HIST key) = s.reg (atKey Reg.SQ_SLOT_HIST key) * 2 + 1 ∧
      u.f (atKey Reg.SQ_SLOT_DROPS key) 31 0 = min (2 ^ 32 - 1) (s.f (atKey Reg.SQ_SLOT_DROPS key) 31 0 + 1) ∧
      u.f st 13 8 = min 32 (s.f st 13 8 + 1) ∧ u.f st 18 16 = cause ∧ u.fb Reg.SQ_IRQ_STATUS 0 = true ∧
      (cause = dEXCEPTION → u.reg (atKey Reg.SQ_SLOT_EXC key) = BitVec.ofNat 32 (code + 2 ^ 16 * pc) ∧
        u.reg (atKey Reg.SQ_SLOT_EXC_ADDR key) = BitVec.ofNat 32 addr ∧ u.fb Reg.SQ_IRQ_STATUS 1 = true) ∧
      u.mem = s.mem ∧ u.points = s.points) ∧
    ∀ (s : State) (t : Tick) (l : Fin 20) (slot : Fin 8) (i : Instance),
      let u := s.atStep t 4
      (u.slot (8 * l + slot)).inst = some i →
      exec (.deadlineDrop t l slot) s = .next
        (if i.deadline ≤ u.clk.tb then u.dropPeriod (8 * l + slot) dDEADLINE (0, 0, 0) else u))

/-- What a completed period does (R39, R140, R144): the history takes a 0, MAXUSE keeps the most cycles used, and
staged writes to the Stacks and registers leave through the commit buffer from 24 ticks later on, no byte of memory
changing before. A standing slot of a core comes every 48 ticks, and an entry reaches its target 16 ticks after one
begins. COMMIT_ENTRY_DRAIN carries out the oldest entry of the core that may take effect, its bytes and no others,
once no core before it has one that is due; an entry whose slot a load has used waits for the next slot. ARM_FIRE
writes the point at its time and gives the entry back (R142), but leaves the value of a write to the point that comes
later in the order of its edge (R143). SLOT_START begins standing use 512 ticks later, where its history is cleared,
or records the reason of a refusal; SLOT_STOP ends it, after the outcome of an instance already released (R134, R144).
The order of a group's cores in its ring, and of one edge's writes to a point, is the model's reading: log entries 93
and 94. -/
def Obligations.CompletionDrainAndArming : Prop :=
  (
    (∀ (s : State) (key p : Nat) (i : Instance) (xs : List (Nat × Nat × Nat)), key < 160 →
      i.staged = xs.map (fun x => Staged.bus x.1 x.2.1 x.2.2) → i.used < 2 ^ 32 →
      let u := s.completeInstance key p i
      (u.slot key).inst = none ∧
      (u.slot key).leaving = (s.slot key).leaving ++
        xs.map (fun x => { addr := x.1, size := x.2.1, value := x.2.2, core := p, notBefore := s.clk.tb + 24 }) ∧
      u.reg (atKey Reg.SQ_SLOT_HIST key) = s.reg (atKey Reg.SQ_SLOT_HIST key) * 2 ∧
      u.f (atKey Reg.SQ_SLOT_MAXUSE key) 31 0 = max (s.f (atKey Reg.SQ_SLOT_MAXUSE key) 31 0) i.used ∧
      u.mem = s.mem ∧ u.points = s.points) ∧
    (∀ (p : Nat) (t : Tick), t ≤ standingSlot p t ∧ standingSlot p t < t + 48 ∧ standingSlot p t % 16 = 0 ∧
      standingSlot p (standingSlot p t + 1) = standingSlot p t + 48) ∧
    ∀ (s : State) (t : Tick) (l : Fin 20) (slot : Fin 8) (x : Leaving) (xs : List Leaving),
      let u := s.at t
      let key := 8 * l.val + slot.val
      (u.slot key).leaving = x :: xs → u.oldestLeaving x.core = some (key, x) →
      (∀ p < x.core, ∀ k y, u.oldestLeaving p = some (k, y) → u.clk.tb < y.lands) →
      (x.lands ≤ u.clk.tb → u.slotTaken x.core (x.lands - 16) = false →
        inRegs x.addr = false → u.gateAllows iSEQ x.addr x.size .store = true →
        u.memOn x.addr x.size = true → storable x.addr x.size = true → ¬ (ledgerBase ≤ x.addr ∧ x.addr < dramBase) →
        ∃ v : State, exec (.commitEntryDrain t l slot) s = .next v ∧ v.regs = u.regs ∧
          (v.slot key).leaving = xs.map (fun y =>
            if y.core = x.core then { y with notBefore := max y.notBefore (x.lands + 1) } else y) ∧
          (∀ j < x.size, (readByte v.mem (x.addr + j)).toNat = x.value / 256 ^ j % 256) ∧
          ∀ b, b < x.addr ∨ x.addr + x.size ≤ b → readByte v.mem b = readByte u.mem b) ∧
      (x.lands ≤ u.clk.tb → u.slotTaken x.core (x.lands - 16) = true →
        exec (.commitEntryDrain t l slot) s = .next (u.holdLeaving x.core (x.lands + 1))) ∧
      (u.clk.tb < x.lands → exec (.commitEntryDrain t l slot) s = .next u)) ∧
  (
    (∀ (s : State) (t : Tick) (p : Fin 24) (n : Fin 16),
      let u := s.atStep t 1
      ∀ x, (u.armEntries p).find? (fun x => x.n == n.val) = some x →
        (x.time ≤ u.clk.tb → ∃ v : State, exec (.armFire t p n) s = .next v ∧
          ((∀ q, u.pointPlace x.point = some q → ¬ rankArmed x < q) → v.point x.point = x.value) ∧
          (∀ q, u.pointPlace x.point = some q → rankArmed x < q → v.point x.point = u.point x.point) ∧
          (∀ q, q ≠ x.point → v.point q = u.point q) ∧ v.mem = u.mem ∧
          ∀ y, y ∈ v.armEntries p ↔ y ∈ u.armEntries p ∧ y.n ≠ n.val) ∧
        (u.clk.tb < x.time → exec (.armFire t p n) s = .next u)) ∧
    (∀ (s : State) (t : Tick) (l : Fin 20) (slot : Fin 8),
      let u := s.atStep t 6
      let key := 8 * l.val + slot.val
      u.domOn 2 = true →
        (u.startRefusal key = none → ∃ v : State, exec (.slotStart t l slot) s = .next v ∧
          (v.slot key).use = .standing ∧ (v.slot key).r0 = u.clk.tb + 512 ∧ (v.slot key).spanEnd = none ∧
          (v.slot key).started = 0 ∧ (v.slot key).histAt = some (u.clk.tb + 512) ∧ v.regs = u.regs ∧ v.mem = u.mem) ∧
        (∀ r, u.startRefusal key = some r → ∃ v : State, exec (.slotStart t l slot) s = .next v ∧
          v.f (atKey Reg.SQ_SLOT_STATE key) 6 4 = r ∧ v.fb Reg.SQ_IRQ_STATUS 3 = true ∧ v.slot key = u.slot key) ∧
        ((u.slot key).use ≠ .off → u.startRefusal key = some 1) ∧
        ((u.slot key).use = .standing → ∃ v : State, exec (.slotStop t l slot) s = .next v ∧ v.regs = u.regs ∧
          ((u.slot key).inst = none → (v.slot key).use = .off) ∧
          ((u.slot key).inst.isSome = true → (v.slot key).use = .standing ∧ (v.slot key).stopping = true))) ∧
    ∀ (s : State) (key h : Nat), key < 160 → (s.slot key).histAt = some h → h ≤ s.clk.tb →
      (s.seqHist.slot key).histAt = none ∧ s.seqHist.reg (atKey Reg.SQ_SLOT_HIST key) = 0 ∧
      s.seqHist.f (atKey Reg.SQ_SLOT_STATE key) 13 8 = 0 ∧ s.seqHist.mem = s.mem)

/-- CORE_MAP_WRITE binds or unbinds a logical core none of whose slots is in use, and raises an event where the core
it names is taken, failed or none (R146, R147). SUBST_REQUEST is taken or refused with a reason, and SUBST_CANCEL ends
a request whose safe point has not come. SUBST_SAFE_POINT halts the core that leaves: the substitution is done then,
or its copy begins, and SUBST_COPY_DONE binds 65,536 ticks later. The copy moves 32 bytes a CORE cycle, and ends with
COPY_ECC and the map unchanged where it meets an uncorrectable error (R148). That R148's reasons are tried in the
order of their codes is the model's reading: log entry 52; that one whose core is taken meanwhile is refused, log
entry 97. -/
def Obligations.CoreMapAndSubstitution : Prop :=
  (∀ (s : State) (t : Tick) (l : Fin 20) (w : Word),
    let u := s.at t
    let p := bits w 4 0
    u.domOn 2 = true → (∀ n < 8, (u.slot (8 * l + n)).use = .off) →
    (bits w 7 7 = 1 → p < 24 → (∀ x, u.logicalOf p = some x → x = l.val) → (u.reg Reg.SQ_CORE_FAIL).getLsbD p = false →
      ∃ v : State, exec (.coreMapWrite t l w) s = .next v ∧ v.physOf l = some p ∧ p ∉ v.sq.halted ∧ v.mem = u.mem ∧
        ∀ m < 20, m ≠ l.val → v.physOf m = u.physOf m) ∧
    (bits w 7 7 = 1 → 24 ≤ p ∨ (u.reg Reg.SQ_CORE_FAIL).getLsbD p = true ∨ (∃ x, u.logicalOf p = some x ∧ x ≠ l.val) →
      exec (.coreMapWrite t l w) s = .next (u.raise srcSQ 2)) ∧
    (bits w 7 7 = 0 → ∃ v : State, exec (.coreMapWrite t l w) s = .next v ∧ v.physOf l = none ∧ v.mem = u.mem ∧
      ∀ m < 20, m ≠ l.val → v.physOf m = u.physOf m)) ∧
  (∀ (s : State) (t : Tick) (w : Word),
    let u := s.at t
    u.domOn 2 = true → bits w 4 0 ≠ 0x1F →
    (∀ r, u.substRefusal (bits w 4 0) (bits w 12 8) = some r → exec (.substRequest t w) s = .next
      ((u.setReg Reg.SQ_SUBST_STATUS (BitVec.ofNat 32 (3 + 4 * r))).setB Reg.SQ_IRQ_STATUS 2 true)) ∧
    (u.logicalOf (bits w 12 8) = none → bits w 12 8 < 24 → (u.reg Reg.SQ_CORE_FAIL).getLsbD (bits w 12 8) = false →
      bits w 4 0 < 20 → (u.physOf (bits w 4 0)).isSome = true → u.sq.subst = none →
      ∃ v : State, exec (.substRequest t w) s = .next v ∧
        v.sq.subst = some { logical := bits w 4 0, phys := bits w 12 8, copy := bits w 16 16 == 1 } ∧
        v.reg Reg.SQ_SUBST_STATUS = 1 ∧ v.fb Reg.SQ_STATUS 5 = true ∧ v.mem = u.mem)) ∧
  (∀ (s : State) (t : Tick) (c : CoreSubst),
    let u := s.at t
    u.domOn 2 = true → u.sq.subst = some c →
    (c.reached = false → ∃ v : State, exec (.substCancel t) s = .next v ∧ v.sq.subst = none ∧
      v.f Reg.SQ_SUBST_STATUS 1 0 = 0 ∧ v.fb Reg.SQ_STATUS 5 = false ∧ v.mem = u.mem) ∧
    (c.reached = true → exec (.substCancel t) s = .next u)) ∧
  (∀ (s : State) (t : Tick) (c : CoreSubst) (q : Nat),
    let u := s.at t
    u.sq.subst = some c → u.physOf c.logical = some q →
    (c.copying = none → c.reached = true ∨ u.safePoint c.logical q = true → c.phys < 24 → c.logical < 20 →
      u.logicalOf c.phys = none → (u.reg Reg.SQ_CORE_FAIL).getLsbD c.phys = false →
      ∃ v : State, exec (.substSafePoint t) s = .next v ∧ (c.reached = false → q ∈ v.sq.halted ∨ v.sq.subst = none) ∧
        v.mem = u.mem ∧
        (u.domOn (3 + c.phys / 6) = false → v.sq.subst = some { c with reached := true }) ∧
        (u.domOn (3 + c.phys / 6) = true → c.copy = true →
          v.sq.subst = some { c with reached := true, copying := some u.clk.tb }) ∧
        (u.domOn (3 + c.phys / 6) = true → c.copy = false →
          v.physOf c.logical = some c.phys ∧ v.sq.subst = none ∧ v.reg Reg.SQ_SUBST_STATUS = 2)) ∧
    (c.copying = none → c.reached = false → u.safePoint c.logical q = false → exec (.substSafePoint t) s = .next u) ∧
    ∀ t0, c.copying = some t0 →
      (u.clk.tb < t0 + 65536 → exec (.substCopyDone t) s = .next u) ∧
      (t0 + 65536 ≤ u.clk.tb → c.phys < 24 → c.logical < 20 → u.logicalOf c.phys = none →
        (u.reg Reg.SQ_CORE_FAIL).getLsbD c.phys = false →
        ∃ v : State, exec (.substCopyDone t) s = .next v ∧ v.physOf c.logical = some c.phys ∧ v.sq.subst = none ∧
          v.reg Reg.SQ_SUBST_STATUS = 2 ∧ (v.reg Reg.SQ_CORE_FAIL).getLsbD q = (q < 32) ∧ v.mem = u.mem)) ∧
  ∀ (s : State) (c : CoreSubst) (t0 q : Nat), s.sq.subst = some c → c.copying = some t0 → s.physOf c.logical = some q →
    q < 24 → c.phys < 24 → c.copied ≤ s.copySteps t0 →
    let n := s.copySteps t0
    let bad := fun i => s.poisoned (tcmBase q + 32 * i) 32 = true
    ((∀ i, c.copied ≤ i → i < n → ¬ bad i) →
      (∀ j, 32 * c.copied ≤ j → j < 32 * n →
        readByte s.copyStep.mem (tcmBase c.phys + j) = readByte s.mem (tcmBase q + j)) ∧
      (∀ b, b < tcmBase c.phys + 32 * c.copied ∨ tcmBase c.phys + 32 * n ≤ b →
        readByte s.copyStep.mem b = readByte s.mem b) ∧ s.copyStep.regs = s.regs) ∧
    ((∃ i, c.copied ≤ i ∧ i < n ∧ bad i) → s.copyStep.sq.subst = none ∧ s.copyStep.reg Reg.SQ_SUBST_STATUS = 0x17 ∧
      ∀ m < 20, s.copyStep.physOf m = s.physOf m)

/-! ### Clocks, resets and the Junction -/

/-- The time of a command (R23, R27–R29): while the root clock runs, the time base comes to the first multiple of 8 at
or after the command's time and never goes back; a stopped clock does not move it. With no command waiting, time
passes to the next edge. CLK_TB_LO_READ answers the low word of the time base and latches its upper half for the
reading port (R30); SYS_PROFILE_WRITE stores PROFILE until it is fixed, and then raises CFG_BUSY and changes nothing
(R5); UNLOCK raises its event once (R26). POR and CRST (R42, R84, R472): memories but the Ledger are wiped, the cores,
slots, lanes and points lose what they held (FX's record of the save images it has made is the model's own, log entry
98, and stays), one-time programmable memory is kept, and the part waits for its root PLL. ROOT_PLL_LOCK starts the
clock (R26), which POR starts from zero. The queue of commands is the model's own and stays. SLOT_TABLE_SWAP makes the
bank written the active one at the frame boundary after the request (R38); BE_AGE_SATURATE counts and raises its event
(R40). That a command stands at the first CORE edge at or after its time, and an idle step at the next edge, is the
model's choice: log entries 1 and 46. -/
def Obligations.TimeResetsAndJunction : Prop :=
  (
    ∀ (s : State) (t : Tick),
      (s.clk.run = true → s.clk.tb % 8 = 0 → (s.at t).clk.tb = max s.clk.tb ((t + 7) / 8 * 8)) ∧
      (s.clk.run = false → (s.at t).clk.tb = s.clk.tb ∧ s.clk.ref ≤ (s.at t).clk.ref) ∧
      (s.pending = [] → s.clk.run = true → s.clk.tb % 8 = 0 →
        ∃ u : State, step s = .next u ∧ u.clk.tb = s.clk.tb + 8)) ∧
  (
    ∀ (s : State) (t : Tick) (ini : Fin 7) (w : Word),
      let u := s.at t
      (u.gateAllows ini Reg.CLK_TB_LO 4 .load = true → u.domOn 0 = true →
        ∃ v : State, exec (.clkTbLoRead t ini) s = .next v ∧
          Tab.get {} v.acc ini = { err := .ok, value := u.now / 8 * 8 % 2 ^ 32 } ∧
          Tab.get 0 v.clk.hold ini = u.now / 2 ^ 32 ∧ v.mem = u.mem ∧ v.regs = u.regs) ∧
      (u.fb Reg.SYS_PROFILE 1 = false →
        ∃ v : State, exec (.sysProfileWrite t w) s = .next v ∧ v.f Reg.SYS_PROFILE 0 0 = bits w 0 0 ∧
          v.fb Reg.SYS_PROFILE 1 = false ∧ ∀ a, a ≠ Reg.SYS_PROFILE → v.reg a = u.reg a) ∧
      (u.fb Reg.SYS_PROFILE 1 = true → bits w 0 0 ≠ u.f Reg.SYS_PROFILE 0 0 →
        exec (.sysProfileWrite t w) s = .next (u.raise srcSYS 0)) ∧
      (u.fb Reg.CLK_ROOT 8 = true →
        exec (.unlock t) s = .next ((u.setB Reg.CLK_ROOT 8 false).raise srcCLK 0)) ∧
      (u.fb Reg.CLK_ROOT 8 = false → exec (.unlock t) s = .next u)) ∧
  (
    ∀ (s : State) (t : Tick) (slotA slotB : Option (List Byte)),
      let u := s.at t
      let wiped (v : State) := (∀ c ∈ v.mem, ledgerBase ≤ c.1 ∧ c.1 < dramBase) ∧ v.gcores = [] ∧
        v.sq = {} ∧ v.fx = { saved := u.fx.saved } ∧ v.points = [] ∧ v.held = [] ∧ v.foc = {} ∧ v.stp = {} ∧ v.hv = {} ∧ v.sns = {} ∧
        v.dma = {} ∧ v.plt = {} ∧ v.sec.otp = u.sec.otp ∧ v.sys.bootDue = true ∧ v.clk.run = false ∧
        v.pending = u.pending ∧ v.dramSize = u.dramSize
      (u.fb Reg.LDG_STATUS 1 = false → ∃ v : State, exec (.por t) s = .next v ∧ wiped v ∧
        (∀ c ∈ u.mem, ledgerBase ≤ c.1 → c.1 < dramBase → c ∈ v.mem) ∧ v.clk.tb = 0 ∧ v.clk.ref = 0) ∧
      (∃ v : State, exec (.crst t) s = .next v ∧ wiped v ∧ v.sbx.chip = true) ∧
      (u.clk.run = false → u.sys.bootDue = true →
        exec (.rootPllLock t slotA slotB) s = .next
          (({ u with clk := { u.clk with run := true, tb := u.now }, sbx := { u.sbx with chip := false }
                     sys := { u.sys with slotA := slotA, slotB := slotB } }).setB Reg.CLK_ROOT 8 true).bootIfDue) ∧
      (u.clk.run = true → exec (.rootPllLock t slotA slotB) s = .next u)) ∧
  (
    ∀ (s : State) (t : Tick),
      let u := s.at t
      (u.fb Reg.JCT_STATUS 1 = true → (u.jct.reqAt / 1024 + 1) * 1024 ≤ u.clk.tb → u.jct.again = false →
        ∃ v : State, exec (.slotTableSwap t) s = .next v ∧ v.jct.resv = u.jct.next ∧
          v.fb Reg.JCT_STATUS 0 = (!u.fb Reg.JCT_STATUS 0) ∧ v.fb Reg.JCT_STATUS 1 = false ∧ v.mem = u.mem) ∧
      (u.clk.tb < (u.jct.reqAt / 1024 + 1) * 1024 → exec (.slotTableSwap t) s = .next u) ∧
      (u.domOn 2 = true → ∃ v : State, exec (.beAgeSaturate t) s = .next v ∧
        v.f Reg.JCT_AGE_SAT 15 0 = min 65535 (u.f Reg.JCT_AGE_SAT 15 0 + 1) ∧
        v.sbx.raised = u.sbx.raised ++ [{ src := srcJCT, ev := 0, ts := u.now }]))

/-! ### Modes -/

/-- Requests for a mode (R42, R43, R44): a request is an event of its edge. Taken at the end of that edge, it is held
during a change; one for the current mode changes nothing; one that the table of R42 refuses is recorded with its
reason; any other is accepted. The mode events of one edge (R43): they wait until the edge is over and are then taken,
a SAFE trigger before the end of a check and that before a request, each against the mode that the one before left,
whatever the order in which they came; a held request is taken as soon as no change is in progress (R44). What R42
permits and refuses by request. -/
def Obligations.ModeRequests : Prop :=
  (
    ∀ q ∈ [(fun t => Instr.modeReqArchive t, Mode.archive), (fun t => .modeReqStandby t, .standby),
        (fun t => .modeReqBoot t, .boot), (fun t => .modeReqReady t, .ready), (fun t => .modeReqPrint t, .print),
        (fun t => .modeReqDrain t, .drain), (fun t => .modeReqService t, .service)],
      (∀ (s : State) (t : Tick), let u := s.at t
        exec (q.1 t) s = .next (u.modeEvent u.now (.request q.2.code))) ∧
      ∀ u : State, u.pwr.shut = false →
        let v := u.modeTake (.request q.2.code)
        (u.trans = true → v = (u.setF Reg.SYS_MODE 10 8 q.2.code).setB Reg.SYS_MODE 11 true) ∧
        (u.trans = false → u.mode = q.2 → v = u) ∧
        (∀ r, u.trans = false → u.mode ≠ q.2 → u.modeRefusal q.2 = some r →
          v = (u.setF Reg.SYS_MODE 14 12 q.2.code).setF Reg.SYS_MODE 18 16 r) ∧
        (u.trans = false → u.mode ≠ q.2 → u.modeRefusal q.2 = none → v = u.modeAccept q.2)) ∧
  (
    ∀ (s : State) (edge : Tick) (a b : ModeDue),
      let left (es : List ModeDue) : State := ({ s with sys := { s.sys with events := es } } : State).takeHeld
      (edge < a.due → s.sys.events = [a] → s.closeEdge edge = s.takeHeld) ∧
      (a.due ≤ edge → s.sys.events = [a] → s.closeEdge edge = ((left []).modeTake a.ev).takeHeld) ∧
      (a.due ≤ edge → b.due ≤ edge → a.ev.rank < b.ev.rank → s.sys.events = [a, b] ∨ s.sys.events = [b, a] →
        s.closeEdge edge = (((left []).modeTake a.ev).takeHeld.modeTake b.ev).takeHeld) ∧
      (∀ st m on, ModeEv.safe.rank < (ModeEv.checkEnd st).rank ∧ (ModeEv.checkEnd st).rank < (ModeEv.request m).rank ∧
        (ModeEv.interlock on).rank = ModeEv.safe.rank) ∧
      (s.trans = false → s.fb Reg.SYS_MODE 11 = false → s.takeHeld = s)) ∧
  (
    ∀ s : State,
      let lock := if s.sys.intlk then some mINTERLOCK else none
      s.modeRefusal .boot = some mNOT_PERMITTED ∧
      (s.mode = .boot → s.modeRefusal .standby = (if 2 ≤ s.f Reg.SEC_BOOT 1 0 then none else some mNOT_PERMITTED) ∧
        s.modeRefusal .ready = (if 2 ≤ s.f Reg.SEC_BOOT 1 0 then lock else some mNOT_PERMITTED) ∧
        s.modeRefusal .print = some mNOT_PERMITTED) ∧
      (s.mode = .standby → s.modeRefusal .ready = lock ∧ s.modeRefusal .archive = none ∧
        s.modeRefusal .print = some mNOT_PERMITTED ∧ s.modeRefusal .service = some mNOT_PERMITTED) ∧
      (s.mode = .ready → s.modeRefusal .standby = none ∧ s.modeRefusal .service = lock ∧
        s.modeRefusal .print = some mNOT_PERMITTED ∧ s.modeRefusal .archive = some mNOT_PERMITTED) ∧
      (s.mode = .print → s.modeRefusal .drain = none ∧ s.modeRefusal .ready = some mSHEETS ∧
        s.modeRefusal .standby = some mSHEETS) ∧
      (s.mode = .drain → s.modeRefusal .print = (if s.anyCommitted then none else some mNOT_PERMITTED) ∧
        s.modeRefusal .ready = some mSHEETS ∧ s.modeRefusal .standby = some mSHEETS) ∧
      (s.mode = .safe → s.modeRefusal .ready = (if s.fb Reg.SYS_MODE 7 then lock else some mSAFE_INC) ∧
        s.modeRefusal .standby = (if s.fb Reg.SYS_MODE 7 then none else some mSAFE_INC)) ∧
      (s.mode = .service → s.modeRefusal .ready =
        (if s.reg Reg.SYS_SVC_MOTION ≠ 0 ∨ s.reg Reg.SYS_SVC_MOTION_STP ≠ 0 then some mMOTION else lock)))

/-- What an accepted request does (R42, R44, R46, R47, R505): a mode without domains to move is entered at once; one
with domains to raise is the target of a change that PWR takes at a REF edge; the first way to READY fixes the
profile; DRAIN empties the submission queue; leaving SERVICE ends manual motion. SAFE triggers (R41, R44, R48, R62):
MODE_REQ_SAFE leaves a trigger for the end of its edge, and INTLK_N one for the REF edge at which 8 equal samples have
asserted it. Taken, a trigger ends the check in progress, enters SAFE from READY, PRINT, DRAIN and SERVICE, is noted
in ARCHIVE, STANDBY and BOOT, ends a change into READY in SAFE, and changes nothing in SAFE. A negation triggers
nothing. SAFE_SEQUENCE_COMPLETE sets SAFE_DONE once no sheet runs out and all motion has ended (R45); MODE_CHANGE_DONE
ends a change (R44). -/
def Obligations.ModeEntryAndSafe : Prop :=
  (
    ∀ s : State,
      let missing := (s.modeSet .ready).filter fun d => !s.domOn d && d ≠ 0
      (s.mode = .standby → s.modeAccept .archive = s.pwrPush .archive) ∧
      (s.mode = .standby ∨ s.mode = .boot →
        (s.modeAccept .ready).fb Reg.SYS_PROFILE 1 = true ∧ (s.modeAccept .ready).fb Reg.SEC_BOOT 2 = true ∧
        (missing = [] → (s.modeAccept .ready).mode = .ready ∧ (s.modeAccept .ready).trans = false) ∧
        (missing ≠ [] → (s.modeAccept .ready).mode = s.mode ∧ (s.modeAccept .ready).trans = true ∧
          (s.modeAccept .ready).f Reg.SYS_MODE 6 4 = Mode.ready.code ∧
          (s.modeAccept .ready).pwr.left = missing)) ∧
      (s.mode = .ready → (s.modeAccept .service).mode = .service ∧
        ((s.engineSet.reverse.filter fun d => !s.domDown d) = [] → (s.modeAccept .standby).mode = .standby) ∧
        ((s.engineSet.reverse.filter fun d => !s.domDown d) ≠ [] → (s.modeAccept .standby).mode = .ready ∧
          (s.modeAccept .standby).trans = true)) ∧
      (s.mode = .print → (s.modeAccept .drain).mode = .drain ∧ (s.modeAccept .drain).tt.queue = [] ∧
        (s.modeAccept .drain).tt.check = none) ∧
      (s.mode = .drain → (s.modeAccept .print).mode = .print) ∧
      (s.mode = .service → (s.modeAccept .ready).mode = .ready ∧ (s.modeAccept .ready).reg Reg.SYS_SVC_MOTION = 0 ∧
        (s.modeAccept .ready).reg Reg.SYS_SVC_MOTION_STP = 0)) ∧
  (
    (∀ (s : State) (t : Tick) (ls : List Bool),
      let u := s.at t
      let i := ls.foldl (fun x v => x.sample 7 v) u.sys.intlkIn
      let x := { u with sys := { u.sys with intlkIn := i } }
      exec (.modeReqSafe t) s = .next (u.modeEvent u.now .safe) ∧
      (u.sys.intlkIn.level ≠ i.level →
        let v := x.modeEvent ((u.now + 255) / 256 * 256) (.interlock (i.level == some false))
        exec (.intlkAssert ⟨t, ls⟩) s = .next v ∧ exec (.intlkNegate ⟨t, ls⟩) s = .next v) ∧
      (u.sys.intlkIn.level = i.level → exec (.intlkAssert ⟨t, ls⟩) s = .next x ∧ exec (.intlkNegate ⟨t, ls⟩) s = .next x) ∧
      (u.mode = .safe → u.trans = false → u.runningOut = false → u.motionEnded = true →
        exec (.safeSequenceComplete t) s = .next (u.setB Reg.SYS_MODE 7 true)) ∧
      (u.mode ≠ .safe ∨ u.trans = true ∨ u.runningOut = true ∨ u.motionEnded = false →
        exec (.safeSequenceComplete t) s = .next u) ∧
      (u.trans = true → u.changeDone = true → u.pwr.archAt = none → u.fb Reg.SYS_MODE 11 = false →
        ∀ m, m ≠ .archive → m ≠ .safe → u.f Reg.SYS_MODE 6 4 = Mode.code m →
        ∃ v : State, exec (.modeChangeDone t) s = .next v ∧ v.mode = m ∧ v.trans = false ∧ v.mem = u.mem) ∧
      (u.trans = false ∨ u.changeDone = false → exec (.modeChangeDone t) s = .next u)) ∧
    (∀ (i : InFilter) (v : Bool),
      ((List.replicate 8 v).foldl (fun x v => x.sample 7 v) i).level = some v ∧
      (i.raw = !v → ∀ n < 8, ((List.replicate n v).foldl (fun x v => x.sample 7 v) i).level = i.level)) ∧
    ∀ u : State, u.pwr.shut = false →
      let x := u.abortCheck rABORTED
      let on (b : Bool) : State := { u with sys := { u.sys with intlk := b } }
      x.tt.check = none ∧
      (u.trans = false →
        (u.mode = .ready ∨ u.mode = .print ∨ u.mode = .drain ∨ u.mode = .service → u.modeTake .safe = x.enterSafe) ∧
        (u.mode = .archive ∨ u.mode = .standby ∨ u.mode = .boot → u.modeTake .safe = x.setB Reg.SYS_MODE 19 true) ∧
        (u.mode = .safe → u.modeTake .safe = x)) ∧
      (u.trans = true →
        (u.f Reg.SYS_MODE 6 4 = Mode.ready.code → u.modeTake .safe = x.endInSafe) ∧
        (u.f Reg.SYS_MODE 6 4 ≠ Mode.ready.code → u.modeTake .safe = x.setB Reg.SYS_MODE 19 true)) ∧
      (u.sys.intlk = false → u.modeTake (.interlock true) = (on true).modeTake .safe) ∧
      (u.sys.intlk = true → u.modeTake (.interlock true) = on true) ∧
      u.modeTake (.interlock false) = on false)

/-! ### The Timetable -/

/-- SUBMIT queues an image address, and with eight queued sets SUBMIT_OVF; CHECK_START takes the head with a snapshot
of what the check reads, and CHECK_END leaves its end as an event of that edge. The end refuses with a record or
commits the first candidate that passes, with the mode, DRAM_READY and the assigned cores of the snapshot (R43,
R57–R60, R62). Committing a sheet (R70, R90): a FREE entry becomes COMMITTED with the next generation, its origin is
that of the candidate, its main actions are armed at their offsets from it, the admissions are counted, and READY
becomes PRINT. -/
def Obligations.AdmissionAndCommit : Prop :=
  (
    (∀ (s : State) (t : Tick) (w : Word),
      let u := s.at t
      (u.domOn 2 = true →
        (u.tt.queue.length < 8 → exec (.submit t w) s = .next
          { u with tt := { u.tt with queue := u.tt.queue ++ [w.toNat * 64] } }) ∧
        (8 ≤ u.tt.queue.length → exec (.submit t w) s = .next (u.setB Reg.TT_STATUS 14 true))) ∧
      (∀ a q, u.tt.queue = a :: q →
        (u.tt.check = none → u.tt.held = [] → exec (.checkStart t) s = .next
          ({ u with tt := { u.tt with queue := q, check := some (u.snapshot a) } }.modeEvent
            (u.clk.tb + 12700000) (.checkEnd u.clk.tb))) ∧
        (u.tt.held ≠ [] → exec (.checkStart t) s = .next u) ∧
        (u.snapshot a).modeOk = u.admits ∧ (u.snapshot a).dramReady = u.dramReady ∧
        ∀ l, (u.snapshot a).assigned.contains l = true ↔ l < 20 ∧ u.fb (Reg.SQ_CORE_MAP l) 7 = true) ∧
      (u.tt.check = none → exec (.checkEnd t) s = .next u) ∧
      ∀ c, u.tt.check = some c → exec (.checkEnd t) s = .next (u.modeEvent u.now (.checkEnd c.start))) ∧
    ∀ (u : State) (c : Check), u.tt.check = some c →
      let d := u.clk.tb - c.start
      let x := { u with tt := { u.tt with check := none } }
      let y := if u.f Reg.TT_CHECK_MAX 31 0 < d then x.setF Reg.TT_CHECK_MAX 31 0 (min d 0xFFFFFFFF) else x
      let v := u.modeTake (.checkEnd c.start)
      let z := y.imageUncor c.dramReady c.addr
      (c.modeOk = false ∨ y.admits = false → v = y.refuseImage c.dramReady c.addr rMODE noDetail 0xFF) ∧
      (c.modeOk = true → y.admits = true →
        (∀ r a b, z.readImage c.dramReady c.assigned c.addr = .refused r a b →
          v = z.refuseImage c.dramReady c.addr r noDetail 0xFF) ∧
        ∀ img, z.readImage c.dramReady c.assigned c.addr = .image img →
          (∀ r dt k, evaluate c c.standing img = .inl (r, dt, k) → v = z.refuseImage c.dramReady c.addr r dt k) ∧
          ∀ k, evaluate c c.standing img = .inr k → v = z.commit img k)) ∧
  (
    ∀ (s : State) (img : Image) (cand : Nat), (∃ k < 128, s.sheet k = none) →
      let k := s.freeEntry
      let u := s.commit img cand
      k < 128 ∧ s.sheet k = none ∧ u.sheetState k = stCOMMITTED ∧
      u.f (Reg.TT_SHEET k) 12 4 = (s.f (Reg.TT_SHEET k) 12 4 + 1) % 511 ∧
      (∃ sh, u.sheet k = some sh ∧ sh.origin = img.earliest + cand * img.step ∧ sh.sheetId = img.sheetId ∧
        sh.claims = img.claims ∧ sh.armed.length = img.main.length ∧
        ∀ j (a : Action), img.main[j]? = some a → ∃ b : Armed, sh.armed[j]? = some b ∧ b.act = a ∧ b.idx = j ∧ b.time = sh.origin + a.offset) ∧
      (∀ j, j ≠ k → u.sheet j = s.sheet j) ∧
      u.f Reg.TT_CNT_ADMIT 31 0 = min (2 ^ 32 - 1) (s.f Reg.TT_CNT_ADMIT 31 0 + 1) ∧
      (s.mode = .ready → u.mode = .print) ∧ (s.mode ≠ .ready → u.mode = s.mode))

/-- Withdrawal and spoiling (R72, R73, R77, R79, R82): a cause withdraws a COMMITTED sheet, whose withdrawal list is
armed in place of its main actions, and spoils a RUNNING one, whose T0 actions go and whose spoil list is armed; the
state, the reason and the counters say so. SAFE entry spoils a sheet that is not past fuser entry and disarms all of
it. PNR_REACHED, CLAIM_WINDOW_END, ACTION_TOLERANCE_EXPIRY (R71, R72, R74, R79): a committed sheet runs from its PNR;
a main action not reported in its tolerance forms ACTION_LATE while the sheet has no outcome, and any other miss is
counted. -/
def Obligations.OutcomesAndSheetTimes : Prop :=
  (
    ∀ (s : State) (k reason detail : Nat) (sh : Sheet), k < 128 → reason < 256 → s.sheet k = some sh →
      s.clk.tb < sh.lastEnd →
      (∀ u, u = s.withdrawSheet k reason detail →
        u.sheetState k = stWITHDRAWN ∧ u.f (Reg.TT_SHEET k) 23 16 = reason ∧
        u.f Reg.TT_CNT_WITHDRAW 31 0 = min (2 ^ 32 - 1) (s.f Reg.TT_CNT_WITHDRAW 31 0 + 1) ∧
        ∃ x, u.sheet k = some x ∧ x.armed = armList .withdraw s.clk.tb sh.numMain sh.withdraw ∧ x.outAt = s.clk.tb) ∧
      (∀ u, u = s.spoilSheet k reason detail →
        u.sheetState k = stSPOILED ∧ u.f (Reg.TT_SHEET k) 23 16 = reason ∧
        u.f Reg.TT_CNT_SPOIL 31 0 = min (2 ^ 32 - 1) (s.f Reg.TT_CNT_SPOIL 31 0 + 1) ∧
        ∃ x, u.sheet k = some x ∧ x.outAt = s.clk.tb ∧ x.armed = sh.armed.filter (fun a => a.act.cls ≠ 0) ++
          armList .spoil s.clk.tb (sh.numMain + sh.numWithdraw) sh.spoil) ∧
      (s.sheetState k = stCOMMITTED ∨ s.sheetState k = stRUNNING ∧ s.fb (Reg.TT_SHEET k) 24 = false →
        ∀ u, u = s.safeSheet k sh → u.sheetState k = stSPOILED ∧ u.f (Reg.TT_SHEET k) 23 16 = cSAFE_ENTRY ∧
          ∃ x, u.sheet k = some x ∧ x.armed = []) ∧
      let b := s.blankSheet (s.handle k)
      (b.sheetState k = stCOMMITTED → s.causeOnce k reason detail = b.withdrawSheet k reason detail) ∧
      (b.sheetState k = stRUNNING → s.causeOnce k reason detail = b.spoilSheet k reason detail)) ∧
  (
    ∀ (s : State) (t : Tick) (k : Fin 128) (i : Nat) (sh : Sheet),
      let u := s.at t
      u.sheet k = some sh →
      (u.sheetState k = stCOMMITTED → sh.pnr ≤ u.clk.tb →
        exec (.pnrReached t k) s = .next (u.setF (Reg.TT_SHEET k) 3 0 stRUNNING)) ∧
      (u.clk.tb < sh.pnr → exec (.pnrReached t k) s = .next u) ∧
      (∀ c, sh.claims[i]? = some c →
        (sh.origin + c.winEnd ≤ u.clk.tb → u.sheetState k < stDELIVERED → i ∉ sh.released →
          exec (.claimWindowEnd t k i) s = .next (u.setSheet k (some { sh with released := sh.released ++ [i] }))) ∧
        (u.clk.tb < sh.origin + c.winEnd → exec (.claimWindowEnd t k i) s = .next u)) ∧
      ∀ a, u.armedAt k i = some a →
        let v := if a.act.exit = true ∧ u.orphanAt k i = none then (u.dropArmed k i).exited k else u.dropArmed k i
        let open' := u.orphanAt k i = none ∧ a.list = .main ∧ (u.sheetState k = stCOMMITTED ∨ u.sheetState k = stRUNNING)
        (u.clk.tb < a.time + classTol a.act.cls → exec (.actionToleranceExpiry t k i) s = .next u) ∧
        (a.time + classTol a.act.cls ≤ u.clk.tb →
          (open' → exec (.actionToleranceExpiry t k i) s = .next (v.cause k cACTION_LATE i)) ∧
          (¬ open' → exec (.actionToleranceExpiry t k i) s = .next ((v.incSat Reg.TT_CNT_LATE 31 0).tryFree k))))

/-- TT_REQ and TT_RESQ_TAIL (R87, R88): a request on a handle answers its result, and one in the CORE cycle of another
answers BUSY; the tail takes the value written, and held records enter the ring. SP_WRITE_ACTION writes PARAM to its
point at its armed edge, in the place that R143 gives it among the writes of that edge, and is reported at once; a
command code that no block defines is carried out by nobody, and stays armed until it is missed (R56, R57, R74).
Before its time neither acts. -/
def Obligations.TimetableRequestsAndActions : Prop :=
  (
    ∀ (s : State) (t : Tick) (h : BitVec 16) (cb : Byte) (w : Word),
      let u := s.at t
      let k := h.toNat % 128
      let asks (i : Instr) (spoil : Bool) (fin : State → State) :=
        (u.tt.reqAt = some u.clk.tb → exec i s = .next (u.setF Reg.TT_REQ_STATUS 2 0 reqBUSY)) ∧
        (u.tt.reqAt ≠ some u.clk.tb →
          let r := u.requestResult h.toNat spoil
          let v := { u with tt := { u.tt with reqAt := some u.clk.tb } }.setF Reg.TT_REQ_STATUS 2 0 r
          (r ≠ reqDONE → exec i s = .next v) ∧ (r = reqDONE → exec i s = .next ((fin v).settle settleFuel)))
      u.domOn 2 = true →
      asks (.ttReqWithdraw t h cb) false (fun v => v.withdrawSheet k cREQUESTED cb.toNat) ∧
      asks (.ttReqSpoil t h cb) true (fun v => v.spoilSheet k cREQUESTED cb.toNat) ∧
      (u.handle k ≠ h.toNat → u.requestResult h.toNat false = reqSTALE ∧ u.requestResult h.toNat true = reqSTALE) ∧
      (u.handle k = h.toNat → u.sheet k = none ∨ stDELIVERED ≤ u.sheetState k →
        u.requestResult h.toNat false = reqTERMINAL ∧ u.requestResult h.toNat true = reqTERMINAL) ∧
      (∀ sh, u.sheet k = some sh → u.handle k = h.toNat →
        (u.sheetState k = stCOMMITTED → u.requestResult h.toNat true = reqNOT_STARTED ∧
          u.requestResult h.toNat false =
            if u.clk.tb + u.f Reg.TT_WD_GUARD 31 0 < sh.pnr then reqDONE else reqTOO_LATE) ∧
        (u.sheetState k = stRUNNING → u.requestResult h.toNat true = reqDONE ∧
          u.requestResult h.toNat false = reqTOO_LATE)) ∧
      (u.tt.held = [] → exec (.ttResqTailWrite t w) s = .next (u.setF Reg.TT_RESQ_TAIL 11 0 w.toNat)) ∧
      (u.tt.held ≠ [] → exec (.ttResqTailWrite t w) s =
        .next ((u.setF Reg.TT_RESQ_TAIL 11 0 w.toNat).flushHeld u.tt.held.length))) ∧
  (
    ∀ (s : State) (t : Tick) (k : Fin 128) (i : Nat) (sh : Sheet) (a : Armed),
      let u := s.at t
      u.sheet k = some sh → u.armedAt k i = some a →
      (u.clk.tb < a.time ∨ a.executed = true →
        exec (.spWriteAction t k i) s = .next u ∧ exec (.unknownBlockCommand t k i) s = .next u) ∧
      (a.time ≤ u.clk.tb → a.executed = false → a.list = .main → a.act.exit = false →
        (a.act.blockCmd = false → u.clk.tb ≤ a.time + classTol a.act.cls →
          ∃ v : State, exec (.spWriteAction t k i) s = .next v ∧ v.mem = u.mem ∧
            ((∀ q, u.pointPlace (a.act.target % 1024) = some q → ¬ rankAction < q) →
              v.point (a.act.target % 1024) = BitVec.ofNat 32 a.act.param) ∧
            (∀ q, u.pointPlace (a.act.target % 1024) = some q → rankAction < q →
              v.point (a.act.target % 1024) = u.point (a.act.target % 1024)) ∧
            (u.orphanAt k i = none → v.armedAt k i = none)) ∧
        (a.act.blockCmd = true → definedCmd a.act.block a.act.cmd = false →
          ∃ v : State, exec (.unknownBlockCommand t k i) s = .next v ∧ v.mem = u.mem ∧ v.points = u.points ∧
            (v.armedAt k i).map (·.executed) = some true)))

/-! ### The decompression lanes -/

/-- A FILL entry's tile holds its value in every nibble; a raw record is the tile itself, and with CHK set one whose
CRC does not match reports CRC 0x50 (R153, R157, R158). Bytes of a band tile put out from byte i of the tile on
(R185): tile row r of the stream line L goes to row (L + r) mod 341 of the station's band buffer, 12,288 bytes a row
and 1,024 a column; every other byte of memory is unchanged. BAND_TILE_START gives the idle lane the tile that became
startable first, and the next tile of its stream follows (R180, R181). As time passes the lane puts out what is due,
two bytes a CORE cycle after the cycles before them (R179, R182, R185). TILE_COMPLETE of a band tile that is over
counts it and frees the lane; TILE_DECODE_ERROR of one whose symbols before the error are put out fails the stream
(R177–R188). -/
def Obligations.TilesAndBands : Prop :=
  (
    ∀ (e : Entry) (r : List Byte) (st col row : Nat),
      (e.fill = true → e.addr < 16 → ∀ d, decodeRecord e r st col row = d →
        d.err = none ∧ d.out.length = 32768 ∧ ∀ b ∈ d.out, b.toNat % 16 = e.addr ∧ b.toNat / 16 = e.addr) ∧
      (e.fill = false → e.fmt = 0 → 32768 ≤ r.length → ∀ d, decodeRecord e r st col row = d →
        d.out = r.take 32768 ∧
        (e.chk = false → d.err = none) ∧
        (e.chk = true → sliceLE r 32768 4 = crc32 (r.take 32768) → d.err = none) ∧
        (e.chk = true → sliceLE r 32768 4 ≠ crc32 (r.take 32768) → d.err = some { code := eCRC, detail := 0x50 }))) ∧
  (
    ∀ (s u : State) (st line col i : Nat) (out : List Byte), st < 6 → col < 12 → i + out.length ≤ 32768 →
      s.writeBand st line col 34 i out = (true, u) →
      (∀ j < out.length, readByte u.mem
        (bandBase st + (line + (i + j) / 1024) % 341 * 12288 + col * 1024 + (i + j) % 1024) = out.getD j 0) ∧
      (∀ b, (∀ j < out.length, b ≠ bandAddr st (line + (i + j) / 1024) col + (i + j) % 1024) →
        readByte u.mem b = readByte s.mem b) ∧ u.regs = s.regs ∧ u.fx = s.fx) ∧
  (
    (∀ (s : State) (t : Tick) (lane : Fin 12),
      let u := s.at t
      (u.decOn = true → u.lane lane = .idle → u.bandRoom = true → ∀ st t0 x, u.firstTile = some (st, t0, x) →
        ∀ r y, u.planeTile x.plane x.cols st (x.next % 12) (x.row0 + x.next / 12) = (r, y) →
        let b : BandRun := { st := st, ln0 := x.ln0, row := x.next / 12, col := x.next % 12
                             run := { since := u.clk.tb, res := some r } }
        exec (.bandTileStart t lane) s = .next ((y.setLane lane (.band b)).setStreams st
          ((u.fxStreams st).map fun z => if z.ln0 = x.ln0 then { z with next := z.next + 1 } else z)) ∧ y.mem = u.mem) ∧
      (u.lane lane ≠ .idle → exec (.bandTileStart t lane) s = .next u) ∧
      ∀ b d, u.lane lane = .band b → b.run.res = some (.tile d) →
        (d.err = none → b.run.emitted = d.out.length → b.run.overAt d ≤ u.clk.tb →
          exec (.tileComplete t lane) s = .next
            ((((u.countStall lane (b.run.overAt d)).incSat Reg.FX_CNT_TILES 31 0).setLane lane .idle).bandTileDone
              b.st b.ln0 b.row)) ∧
        (d.err ≠ none ∨ b.run.emitted ≠ d.out.length ∨ u.clk.tb < b.run.overAt d →
          exec (.tileComplete t lane) s = .next u) ∧
        (d.err = none ∨ b.run.emitted ≠ d.out.length → exec (.tileDecodeError t lane) s = .next u) ∧
        ∀ e x, d.err = some e → b.run.emitted = d.out.length → u.streamAt b.st b.ln0 = some x →
          exec (.tileDecodeError t lane) s = .next
            (((((u.countStall lane (b.run.overAt d)).incSat Reg.FX_CNT_ERR 31 0).endStream b.st x).streamFail b.st x.sheet
              e.code 0 e.detail (x.row0 + b.row)).settle settleFuel)) ∧
    ∀ (u : State) (n : Nat) (b : BandRun) (d : Decoded), u.lane n = .band b → b.run.res = some (.tile d) →
      let i := b.run.emitted
      let m := b.run.due d u.clk.tb
      let bs := (d.out.take m).drop i
      (m ≤ i → u.laneStep n = u) ∧
      (i < m → ∀ z, u.writeBand b.st (b.ln0 + 32 * b.row) b.col 34 i bs = (true, z) →
        u.laneStep n = (z.keepHistory n i bs).setLane n (.band { b with run := { b.run with emitted := m } })) ∧
      (d.gaps = [] → b.run.since ≤ u.clk.tb →
        m = min d.out.length (b.run.start +
          2 * ((u.clk.tb - b.run.since) / 8 + 1 - (if b.run.setup then d.setup else 0)))))

/-- STREAM (R183, R184, R188): the action is reported at its edge; a valid descriptor adds a stream at the station's
next line, which moves 32 lines a row on; a fifth stream is refused with its event and the cause TILE_LATE; a
misplaced, unreadable or invalid one fails. Jobs (R179, R190, R191, R195, R197): JOB_DECODE and JOB_RESUME give a lane
the job at TAIL, which moves on, or end it with DESC or the failure of its reads; TILE_COMPLETE counts a tile of a job
that is over and takes the next, or ends the job DONE after its last; TILE_DECODE_ERROR ends it DECODE, BUS or ECC. -/
def Obligations.StreamsAndJobs : Prop :=
  (
    (∀ (s : State) (t : Tick) (k : Fin 128) (i : Nat) (a : Armed),
      let u := s.at t
      (u.CanTake k i (fun a => a.blockCmd && a.block == 0x0A && a.unit ≤ 5 && u.decOn) a →
        let x := u.markExecuted k i
        let y := x.report k i x.clk.tb
        exec (.stream t k i) s = .next ((y.runStream (y.handle k) a.act.unit a.act.cmd a.act.param).settle settleFuel)) ∧
      (u.armedAt k i = some a → u.clk.tb < a.time ∨ a.executed = true ∨ u.decOn = false →
        exec (.stream t k i) s = .next u)) ∧
    ∀ (s y : State) (h st cmd param : Nat), st < 6 →
      let open' := Config.freeNat s.takeFresh.1 % 65536
      (cmd ≠ 1 ∨ streamPlace param = false →
        s.runStream h st cmd param = s.takeFresh.2.streamFail st h 0 1 0 open') ∧
      (streamPlace param = true →
        (∀ e, s.readMem iFX param 16 = (.error e, y) → s.runStream h st 1 param =
          ({ y with fresh := s.takeFresh.2.fresh } : State).streamFail st h 0 (if e = .ecc then 3 else 2) 0 open') ∧
        ∀ d, s.readMem iFX param 16 = (.ok d, y) →
          (∀ plane row0 nrows, streamDesc d = .ok (plane, row0, nrows) →
            ((s.fxStreams st).length < 4 →
              let u := s.runStream h st 1 param
              u.fxStreams st = s.fxStreams st ++
                [{ sheet := h, row0 := row0, nrows := nrows, plane := plane, ln0 := s.nextLn st }] ∧
              u.nextLn st = (s.nextLn st + 32 * nrows) % 2 ^ 48 ∧ u.mem = s.mem) ∧
            (4 ≤ (s.fxStreams st).length →
              let v := (y.setB Reg.FX_STATUS 18 true).raise srcFX 2
              (y.handle (h % 128) ≠ h → s.runStream h st 1 param = v) ∧
              (y.handle (h % 128) = h → s.runStream h st 1 param = v.causeOnce (h % 128) cTILE_LATE (st + 8 * row0)))) ∧
          ∀ row, streamDesc d = .error row → s.runStream h st 1 param = y.streamFail st h 0 1 0 row)) ∧
  (
    ∀ (s : State) (t : Tick) (lane : Fin 12),
      let u := s.at t
      let moved (y : State) := y.setF Reg.FX_JQ_TAIL 11 0 ((y.f Reg.FX_JQ_TAIL 11 0 + 1) % 2 ^ y.f Reg.FX_JQ_CFG 3 0)
      let works (j : JobRun) (r : TileRes) : Lane := .job { j with run := { since := u.clk.tb, res := some r } }
      (u.jobRoom lane = true →
        (∀ e y, u.readMem iFX u.jobAddr 64 = (.error e, y) → ∃ d : List Byte, exec (.jobDecode t lane) s =
          .next ((moved y.takeFresh.2).endJob lane { desc := d, base := d } (statusOf e) none)) ∧
        ∀ d y, u.readMem iFX u.jobAddr 64 = (.ok d, y) →
          let j : JobRun := { desc := d, base := d, nextDesc := sliceLE d 0x18 5 }
          let r : JobRun := { desc := d, base := d, resumed := true }
          (sliceLE d 0 1 ≠ 2 → decodeOk d = true → ∀ res z, (moved y).jobTile j = (res, z) →
            exec (.jobDecode t lane) s = .next (z.setLane lane (works j res))) ∧
          (sliceLE d 0 1 ≠ 2 → decodeOk d = false →
            exec (.jobDecode t lane) s = .next ((moved y).endJob lane j 2 none)) ∧
          (sliceLE d 0 1 = 2 → exec (.jobDecode t lane) s = .next u) ∧
          (sliceLE d 0 1 ≠ 2 → exec (.jobResume t lane) s = .next u) ∧
          (sliceLE d 0 1 = 2 → resumeOk d = false →
            exec (.jobResume t lane) s = .next ((moved y).endJob lane r 2 none)) ∧
          (sliceLE d 0 1 = 2 → resumeOk d = true →
            (∀ e z, y.readMem iFX (sliceLE d 8 5) imageBytes = (.error e, z) →
              exec (.jobResume t lane) s = .next ((moved z).endJob lane r (statusOf e) none)) ∧
            ∀ img z, y.readMem iFX (sliceLE d 8 5) imageBytes = (.ok img, z) →
              (z.savedJob img = none → exec (.jobResume t lane) s = .next ((moved z).endJob lane r 2 none)) ∧
              ∀ k, z.savedJob img = some k → exec (.jobResume t lane) s = .next
                ((moved (z.keepHistory lane 0 (img.drop 128))).setLane lane (.job
                  { k with desc := d, resumed := true, suspended := false, bufs := 0, cur := none, record := none
                           nextDesc := sliceLE d 0x18 5, run := k.run.resumedAt u.clk.tb })))) ∧
      (u.jobRoom lane = false → exec (.jobDecode t lane) s = .next u ∧ exec (.jobResume t lane) s = .next u) ∧
      ∀ j, u.lane lane = .job j → j.record = none →
        (j.run.res = some .bus → exec (.tileDecodeError t lane) s = .next (u.endJob lane j 4 none)) ∧
        (j.run.res = some .ecc → exec (.tileDecodeError t lane) s = .next (u.endJob lane j 5 none)) ∧
        ∀ d, j.run.res = some (.tile d) →
          (d.err = none → j.run.emitted = d.out.length → j.run.overAt d ≤ u.clk.tb →
            let v := (u.incSat Reg.FX_CNT_TILES 31 0).countStall lane (j.run.overAt d)
            let n : JobRun := { j with tile := j.tile + 1, tiles := j.tiles + 1 }
            (n.tile = n.total → exec (.tileComplete t lane) s = .next (v.endJob lane n 0 none)) ∧
            (n.tile ≠ n.total → ∀ res z, v.jobTile n = (res, z) →
              exec (.tileComplete t lane) s = .next (z.setLane lane (works n res)))) ∧
          (d.err ≠ none ∨ j.run.emitted ≠ d.out.length ∨ u.clk.tb < j.run.overAt d →
            exec (.tileComplete t lane) s = .next u) ∧
          (d.err = none ∨ j.run.emitted ≠ d.out.length → exec (.tileDecodeError t lane) s = .next u) ∧
          ∀ e, d.err = some e → j.run.emitted = d.out.length →
            exec (.tileDecodeError t lane) s = .next ((u.countStall lane (j.run.overAt d)).endJob lane j 1 (some e)))

/-- A suspended lane (R194–R196): LANE_SUSPEND when the output buffers are full and output remains; LANE_RESUME with
the next buffer, from which the lane goes on at the next edge; LANE_SAVE starts a save image, which SAVE_COMPLETE ends
SAVED or ABORTED; LANE_ABORT ends a job whose last byte is not written at the next edge. A lane that is not suspended
refuses LANE_RESUME and LANE_SAVE. Completion records (R197): JOB_COMPLETE writes the next record in order at HEAD and
frees the lane, or holds every lane whose job has ended while the ring is full; firmware's advance of TAIL lets held
records be written. -/
def Obligations.LanesAndJobRecords : Prop :=
  (
    ∀ (s : State) (t : Tick) (lane : Fin 12) (w : Word),
      let u := s.at t
      (∀ j, u.lane lane = .job j → j.record = none → j.stuck = true → j.written = false →
        ∃ v : State, exec (.laneSuspend t lane) s = .next v ∧ v.lane lane = .suspended { j with suspended := true } ∧
          v.fb Reg.FX_IRQ_STATUS 1 = true ∧ v.mem = u.mem ∧ ∀ n, n ≠ lane.val → v.lane n = u.lane n) ∧
      (∀ j, u.lane lane = .job j → j.stuck = false ∨ j.written = true → exec (.laneSuspend t lane) s = .next u) ∧
      (u.domOn 10 = true →
        (∀ j, u.lane lane = .suspended j →
          (∀ j' y, u.enterBuf j (w.toNat * 16) = (.ok j', y) → exec (.laneResume t lane w) s = .next (y.setLane lane
            (.job { j' with nextDesc := 0, run := j'.run.resumedAt (y.clk.tb + 8) }))) ∧
          (∀ e y, u.enterBuf j (w.toNat * 16) = (.error e, y) →
            exec (.laneResume t lane w) s = .next (y.endJob lane j e none)) ∧
          exec (.laneSave t lane) s = .next (u.setLane lane (.saving j false)) ∧
          exec (.laneAbort t lane) s = .next (u.endJobAt (u.clk.tb + 8) lane j 6 none)) ∧
        (u.lane lane = .idle →
          exec (.laneResume t lane w) s = .next (u.setB Reg.FX_STATUS 17 true) ∧
          exec (.laneSave t lane) s = .next (u.setB Reg.FX_STATUS 17 true) ∧
          exec (.laneAbort t lane) s = .next u) ∧
        (∀ j, u.lane lane = .job j → j.record = none →
          (j.written = false → exec (.laneAbort t lane) s = .next (u.endJobAt (u.clk.tb + 8) lane j 6 none)) ∧
          (j.written = true → exec (.laneAbort t lane) s = .next u)) ∧
        ∀ j b, u.lane lane = .saving j b →
          exec (.laneAbort t lane) s = .next (u.setLane lane (.saving j true)) ∧
          (u.bufPlace ((u.reg (Reg.FX_LANE_SAVE lane)).toNat * 64) imageBytes = true →
            let st := stateBytes u.fx.saved.length u.fresh
            let head := j.desc ++ st
            let x := { u with fresh := u.fresh + 52
                              fx := { u.fx with saved := u.fx.saved ++ [({ bytes := st, job := j } : SavedJob)] } }
            ∀ z, x.writeMem iFX ((u.reg (Reg.FX_LANE_SAVE lane)).toNat * 64)
              (head ++ bytesLE 4 (crc32 head) ++ readBytes u.mem (windowOf lane) 32768) = (none, z) →
            exec (.saveComplete t lane) s = .next (z.endJob lane j (if b then 6 else 7) none).completeNext))) ∧
  (
    ∀ (s : State) (t : Tick) (w : Word),
      let u := s.at t
      (u.fx.order = [] → exec (.jobComplete t) s = .next u) ∧
      (∀ t0 n rest j, n < 12 → u.fx.order = (t0, n) :: rest → (u.lane n).run? = some j →
        (u.fxCqFull = true → exec (.jobComplete t) s = .next u.holdEnded ∧
          (∀ k, u.lane n = .job k → u.holdEnded.lane n = .hold k)) ∧
        (u.fxCqFull = false → ∃ v : State, exec (.jobComplete t) s = .next v ∧ v.lane n = .idle ∧ v.fx.order = rest ∧
          v.f Reg.FX_CQ_HEAD 11 0 = (u.f Reg.FX_CQ_HEAD 11 0 + 1) % 2 ^ u.f Reg.FX_CQ_CFG 3 0 % 2 ^ 12 ∧
          (sliceLE j.desc 1 1 % 2 = 1 → v.fb Reg.FX_IRQ_STATUS 0 = true))) ∧
      (u.domOn 10 = true → u.headHeld = false →
        exec (.fxCqTailWrite t w) s = .next (u.setF Reg.FX_CQ_TAIL 11 0 w.toNat)) ∧
      (u.domOn 10 = true → (u.setF Reg.FX_CQ_TAIL 11 0 w.toNat).headHeld = true →
        (u.setF Reg.FX_CQ_TAIL 11 0 w.toNat).fxCqFull = false →
        exec (.fxCqTailWrite t w) s = .next ((u.setF Reg.FX_CQ_TAIL 11 0 w.toNat).completeNext.flushRecords 11)))

/-! ### Scan synchronisation -/

/-- SCN_EN_WRITE (R210): EN takes a station from OFF to SPINUP, where intervals are gathered anew, or to OFF, where no
scan is predicted; a set that was due stays so, and is not handed over when its time comes (R218). A window that
closes without its edge is counted (R207, R208, R210): a missed SOS is coasted at its prediction, and more misses in a
row than COAST lose the lock. INDEX_EDGE names the next SOS facet 0 (R209). SCAN_SET_HANDOVER gives the set of the
scan due next to EXP when the station is LOCKED, and else hands none over (R215, R218, R232); FACET_GAP calibrates in
the gap, from the EOS of a scan to the opening of the next SOS window, and applies a pending correction (R205, R219);
LOCK_CHECK reports, and forms a SCAN_SYNC cause unless the station is LOCKED (R224). A polygon that turns evenly is
predicted exactly (R211, R212): from corrected arrivals at u₀ + k × T, the facet period estimate is T and the mean
carried to scan k is u₀ + k × T, whatever the window. A segment whose measured duration is the learned one stays as it
is (R216). -/
def Obligations.ScanLockAndSets : Prop :=
  (
    ∀ (s : State) (t : Tick) (st : Fin 6),
      let u := s.at t
      u.vidOn st = true →
      (u.scnState st = 0 → ∃ v : State, exec (.scnEnWrite t st true) s = .next v ∧ v.scnState st = 1 ∧
        v.fb (Reg.SCN_CTRL st) 0 = true ∧ v.ratioValid st = false ∧ (v.scns st).intervals = [] ∧
        (v.scns st).hist = [] ∧ v.mem = u.mem ∧ ∀ x, x ≠ st.val → v.scns x = u.scns x) ∧
      (u.scnState st ≠ 0 → exec (.scnEnWrite t st true) s = .next (u.setB (Reg.SCN_CTRL st) 0 true)) ∧
      ∃ v : State, exec (.scnEnWrite t st false) s = .next v ∧ v.scnState st = 0 ∧ v.fb (Reg.SCN_CTRL st) 0 = false ∧
        (v.scns st).cur = none ∧ (v.scns st).preds = [] ∧ (v.scns st).due = (u.scns st).due ∧ v.mem = u.mem ∧ ∀ x, x ≠ st.val → v.scns x = u.scns x) ∧
  (
    ∀ (s : State) (t : Tick) (st : Fin 6),
      let u := s.at t
      u.vidOn st = true →
      (2 ≤ u.scnState st →
        (let y := u.addDelta st
         let p := y.predOf st (y.scanK st + 1)
         (y.past (p.p + y.gateHalf st p.tf) = true →
           let z := ((y.incSat (Reg.SCN_CNT_A st) 15 0).modScn st fun w => { w with missSos := w.missSos + 1 }).takeSos
             st p.p true
           exec (.sensorWindowMiss t st 0) s =
             .next (if z.coastLimit st < (z.scns st).missSos then z.scnLoss st lMISS else z)) ∧
         (y.past (p.p + y.gateHalf st p.tf) = false → exec (.sensorWindowMiss t st 0) s = .next y)) ∧
        ∀ c, (u.scns st).cur = some c → c.mos = none → u.past (u.gateEnd st c (u.predMos st c)) = true →
          let z := (u.incSat (Reg.SCN_CNT_A st) 15 0).modScn st fun w =>
            { w with missMos := w.missMos + 1, cur := some { c with mos := some none } }
          exec (.sensorWindowMiss t st 1) s =
            .next (if z.limit = true ∧ z.coastLimit st < (z.scns st).missMos then z.scnLoss st lMISS else z)) ∧
      (2 ≤ u.scnState st → ∀ c, (u.scns st).cur = some c → c.eos = none →
        u.past (u.gateEnd st c (u.predEos st c)) = true →
          let z := ((u.incSat (Reg.SCN_CNT_A st) 15 0).modScn st fun w =>
            { w with missEos := w.missEos + 1, cur := some { c with eos := some none } }).endScan st
          exec (.sensorWindowMiss t st 2) s =
            .next (if z.coastLimit st < (z.scns st).missEos then z.scnLoss st lMISS else z)) ∧
      (u.scnState st < 2 → ∀ i, exec (.sensorWindowMiss t st i) s = .next u) ∧
      (u.scnState st ≠ 0 → u.fb (Reg.SCN_CTRL st) 1 = true → ∃ v : State, exec (.indexEdge t st) s = .next v ∧
        (v.scns st).indexSeen = true ∧ (v.scns st).indexDue = true ∧ (v.scns st).scansNoIndex = 0 ∧
        v.regs = u.regs ∧ v.mem = u.mem) ∧
      (u.fb (Reg.SCN_CTRL st) 1 = false → exec (.indexEdge t st) s = .next u)) ∧
  (
    ∀ (s : State) (t : Tick) (st : Fin 6),
      let u := s.at t
      (∀ k ref rest, (u.scns st).due = (k, ref) :: rest →
        let y := u.modScn st fun z => { z with due := rest }
        (u.clk.tb < ref → exec (.scanSetHandover t st) s = .next u) ∧
        (ref ≤ u.clk.tb → u.scnState st = 3 →
          exec (.scanSetHandover t st) s = .next ((y.setOf st k).2.handOver st (y.setOf st k).1)) ∧
        (ref ≤ u.clk.tb → u.scnState st ≠ 3 → exec (.scanSetHandover t st) s = .next (y.notHanded st k))) ∧
      (u.vidOn st = true → u.facetGap st = false → exec (.facetGap t st) s = .next u) ∧
      (u.vidOn st = true → 2 ≤ u.scnState st → ∀ c, (u.scns st).cur = some c → c.eos ≠ none →
        let p := u.predOf st (u.scanK st + 1)
        u.clk.tb * tk < p.p - u.gateHalf st p.tf →
        ∃ v : State, exec (.facetGap t st) s = .next v ∧ (v.scns st).delta = 0 ∧
          (v.scns st).hist = (u.scns st).hist.map (fun a => { a with u := a.u + (u.scns st).delta }) ∧
          (v.scns st).tdcBand = u.f Reg.THM_STATUS 2 0 ∧ v.regs = u.regs ∧ v.mem = u.mem) ∧
      ∀ (k : Fin 128) (i : Nat) (a : Armed),
        u.CanTake k i (fun a => a.blockCmd && a.block == 0x0B && a.unit ≤ 5 && u.vidOn a.unit) a →
        let x := u.markExecuted k i
        let y := x.report k i x.clk.tb
        (a.act.cmd = 1 → y.scnState a.act.unit = 3 → exec (.lockCheck t k i) s = .next y) ∧
        (a.act.cmd = 1 → y.scnState a.act.unit ≠ 3 →
          exec (.lockCheck t k i) s = .next (y.scanCause a.act.unit (x.handle k) 1 (y.scanK a.act.unit))) ∧
        (a.act.cmd ≠ 1 → exec (.lockCheck t k i) s = .next
          ((y.incSat (Reg.SCN_CNT_B a.act.unit) 15 0).scanCause a.act.unit (x.handle k) 1
            ((y.incSat (Reg.SCN_CNT_B a.act.unit) 15 0).scanK a.act.unit)))) ∧
  (
    (∀ (h : List Arrival) (u0 T : Int) (n w r k : Nat), 0 < n → 0 < w → h ≠ [] → (∀ a ∈ h, a.u = u0 + a.k * T) →
      tfFrom n h T r = T ∧ meanAt h w k T = u0 + k * T) ∧
    ∀ (seg : Nat) (m tf : Int) (g : Nat), 0 < tf → m * 2 ^ 32 = seg * tf → learnSeg seg m tf g = seg)

/-- Sensor edges (R203, R204, R207, R210, R217): an edge within 32 ticks of the last on its input, or outside its
window, is counted as stray and otherwise ignored; an SOS in its window starts the next scan; a MOS or EOS is stamped,
and checked against its bound (that of a MOS only counts in CABINET, R220; none is checked in the first revolution
without a learned table, log entry 99); in SPINUP an SOS gives an interval. A station that is OFF takes no edge. -/
def Obligations.ScanEdges : Prop :=
  ∀ (s : State) (t : Tick) (st : Fin 6) (x : Nat),
    let u := s.at t
    u.vidOn st = true →
    (u.scnState st = 0 → ∀ i ∈ [Instr.sosEdge t st x, .mosEdge t st x, .eosEdge t st x], exec i s = .next u) ∧
    (u.scnState st ≠ 0 →
      (∀ q ∈ [(Instr.sosEdge t st x, 0), (.mosEdge t st x, 1), (.eosEdge t st x, 2)], u.tooClose st q.2 x = true →
        exec q.1 s = .next (u.incSat (Reg.SCN_CNT_A st) 31 16)) ∧
      (u.tooClose st 0 x = false →
        let e := u.edgeTime st 0 x
        (u.scnState st = 1 → exec (.sosEdge t st x) s = .next ((u.noteEdge st 0 x).spinupSos st e)) ∧
        (u.scnState st ≠ 1 →
          let y := (u.noteEdge st 0 x).addDelta st
          let p := y.predOf st (y.scanK st + 1)
          (p.p - y.gateHalf st p.tf ≤ e ∧ e ≤ p.p + y.gateHalf st p.tf →
            exec (.sosEdge t st x) s = .next ((y.modScn st fun z => { z with missSos := 0 }).takeSos st e false)) ∧
          (¬ (p.p - y.gateHalf st p.tf ≤ e ∧ e ≤ p.p + y.gateHalf st p.tf) →
            exec (.sosEdge t st x) s = .next (y.incSat (Reg.SCN_CNT_A st) 31 16)))) ∧
      (u.tooClose st 1 x = false → u.scnState st ≠ 1 →
        let y := u.noteEdge st 1 x
        let e := y.edgeTime st 1 x
        (∀ c, (y.scns st).cur = some c → c.mos = none → y.inGate st c (y.predMos st c) e = true →
          let out := !y.learning st &&
            decide (y.af (Reg.SCN_BOUND st) 15 8 * tk < ((e - y.predMos st c).natAbs : Int))
          let z := (y.modScn st fun w => { w with missMos := 0, cur := some { c with mos := some (some e) } }).stampEdge
            st 1 c.f e out
          exec (.mosEdge t st x) s = .next (if out = true then
            (if z.limit = true then z.outOfBound st 3 c.k else z.incSat (Reg.SCN_CNT_B st) 15 0) else z)) ∧
        (∀ c, (y.scns st).cur = some c → y.inGate st c (y.predMos st c) e = false →
          exec (.mosEdge t st x) s = .next (y.incSat (Reg.SCN_CNT_A st) 31 16))) ∧
      (u.tooClose st 2 x = false → u.scnState st ≠ 1 →
        let y := u.noteEdge st 2 x
        let e := y.edgeTime st 2 x
        ∀ c, (y.scns st).cur = some c → c.eos = none → y.inGate st c (y.predEos st c) e = true →
          let out := !y.learning st &&
            decide (y.af (Reg.SCN_BOUND st) 15 8 * tk < ((e - y.predEos st c).natAbs : Int))
          let z := (y.modScn st fun w => { w with missEos := 0, cur := some { c with eos := some (some e) } }).stampEdge
            st 2 c.f e out
          exec (.eosEdge t st x) s = .next ((if out = true then z.outOfBound st 4 c.k else z).endScan st)))

/-! ### Exposure and the exposure links -/

/-- EXPOSE binds the oldest unbound stream of its sheet to scans from PARAM ticks on and is reported; without one,
with EN 0, no line period, or four bindings, it is not (R230). SCAN_FRAME_START, COLUMN_DEADLINE_MISS and FRAME_END
(R235, R236, R248, R253, R257, R259): the next bound scan's frame starts at its SOF when its lines are filled; a scan
too fast for the link, or whose SOF falls before the EOF of the scan before it, fails RATE; a line that is not filled
is TILE_LATE. A frame ends once it can have been sent, EOF carries the CRC of each lane's blocks, and what they lit is
counted; of a frame cut short an open number of blocks counts, no more than four lanes have carried (log entry 101).
The control blocks of R252 and the SOF of a frame (R253): each block has its type in bits [7:0] and its fields where
R252 puts them; the frame that starts holds its header twice and two blocks a column, and its SOF goes out on the four
lanes with the scan and the station. Taking all of a frame's codes at its SOF, and how much of a frame that is cut
short was sent, is the model's choice: log entries 28 and 101. -/
def Obligations.BindingsAndFrames : Prop :=
  (
    ∀ (s : State) (t : Tick) (k : Fin 128) (i : Nat) (a : Armed),
      (s.at t).CanTake k i (fun a => isCmd 0x0C 1 a && a.unit ≤ 5 && (s.at t).vidOn a.unit) a →
      let x := (s.at t).markExecuted k i
      let st := a.act.unit
      let h := x.handle k
      let y := x.applyS (Reg.EXP_LINE_PERIOD st)
      let line := y.af (Reg.EXP_LINE_PERIOD st) 31 0
      (x.fb (Reg.EXP_CTRL st) 0 = false ∨ line = 0 ∨ 4 ≤ (x.exps st).bindings.length →
        exec (.expose t k i) s = .next y) ∧
      ((x.exps st).uses.find? (fun u => u.sheet == h && !u.bound) = none → exec (.expose t k i) s = .next y) ∧
      (x.fb (Reg.EXP_CTRL st) 0 = true → line ≠ 0 → (x.exps st).bindings.length < 4 →
        ∀ u, (x.exps st).uses.find? (fun u => u.sheet == h && !u.bound) = some u →
        let z := y.modExp st fun e =>
          { e with bindings := e.bindings ++ [{ sheet := h, action := i, t0 := x.clk.tb + a.act.param, tA := x.clk.tb
                                                ln0 := u.ln0, stop := u.ln0 + 32 * u.nrows, row0 := u.row0, line := line }]
                   uses := e.uses.map fun v => if v.ln0 = u.ln0 then { v with bound := true } else v }
        let r := z.report k i z.clk.tb
        exec (.expose t k i) s = .next (if r.earlyScans st h = true then r.causeH h cACTION_LATE i else r))) ∧
  (
    ∀ (s : State) (t : Tick) (st : Fin 6) (col : Nat),
      let u := s.at t
      (u.nextBound st = none → exec (.scanFrameStart t st) s = .next u) ∧
      (∀ x b, u.nextBound st = some (x, b) → u.vidOn st = true → u.sofOf st x ≤ u.clk.tb →
        let fast := x.inc1 < 0x22000000 ∨ x.inc2 < 0x22000000 ∨ (u.exps st).frame ≠ none ∨
          ∃ e, (u.exps st).eof = some e ∧ u.sofOf st x < e.1
        (fast → exec (.scanFrameStart t st) s = .next ((u.dropSet st x.k).linkCause st b.sheet kRATE 0 x.k)) ∧
        (¬ fast → u.linkState st = 3 → u.mode ≠ .safe →
          (min (x.b + 129) ((b.stop : Int) - 1) < u.filled st →
            exec (.scanFrameStart t st) s = .next (u.startFrame st x b (u.sofOf st x))) ∧
          (¬ min (x.b + 129) ((b.stop : Int) - 1) < u.filled st →
            exec (.scanFrameStart t st) s = .next ((u.dropSet st x.k).tileLate st b (u.filled st)))) ∧
        (¬ fast → u.linkState st ≠ 3 ∨ u.mode = .safe → exec (.scanFrameStart t st) s = .next (u.dropSet st x.k))) ∧
      ∀ f b, (u.exps st).frame = some f → f.set.binding = some b →
        (f.abort = false → col < u.ncol st →
          f.set.edge col - u.f (Reg.XLK_LAT st) 19 0 * 2 ^ 20 - 1024 * tk ≤ u.clk.tb * tk →
          exec (.columnDeadlineMiss t st col) s = .next (u.tileLate st b (u.columnLine st col f.set b))) ∧
        (f.abort = true → exec (.columnDeadlineMiss t st col) s = .next u) ∧
        (f.abort = false → u.frameTime st f = false → exec (.frameEnd t st) s = .next u) ∧
        (f.abort = true ∨ u.frameTime st f = true → ∃ n fr,
          (f.abort = false → n = f.blocks.length ∧ fr = u.fresh) ∧
          (f.abort = true → n ≤ f.blocks.length ∧ n ≤ 4 * ((u.clk.tb - f.sof) / 66)) ∧
          let m := (u.clk.tb + 65) / 66 * 66
          let x := ({ u with fresh := fr } : State)
          let y := ((x.addOnTime st (f.onTime n)).incSat (Reg.XLK_CNT_FRAMES st) 31 0).sendEof st m f.abort
            (f.blocks.take n)
          let z := y.modExp st fun e =>
            { e with frame := none, eof := some (m, f.abort, laneCrcs (f.blocks.take n))
                     waiting := (e.waiting.filter fun w => !w.answered || u.clk.tb ≤ w.eof + 409600) ++
                       [{ k := f.set.k, sheet := b.sheet, eof := m }] }
          exec (.frameEnd t st) s = .next (z.readsDone st f.set.k b))) ∧
  (
    (∀ st k lane band crc : Nat, st < 6 → lane < 4 → band < 5 → crc < 2 ^ 32 →
      (nbits (sofWord st k lane).toNat 7 0 = 0x78 ∧ nbits (sofWord st k lane).toNat 9 8 = lane ∧
        nbits (sofWord st k lane).toNat 31 16 = k % 2 ^ 16 ∧ nbits (sofWord st k lane).toNat 34 32 = st) ∧
      (∀ a, nbits (eofWord a crc).toNat 7 0 = 0x87 ∧ nbits (eofWord a crc).toNat 8 8 = (if a = true then 1 else 0) ∧
        nbits (eofWord a crc).toNat 47 16 = crc) ∧
      (nbits (tblWord band).toNat 7 0 = 0x33 ∧ nbits (tblWord band).toNat 10 8 = band)) ∧
    (∀ l : Light, l.mode < 4 → l.emitter < 64 → l.level < 256 → l.start < 2 ^ 24 → l.len < 2 ^ 16 →
      let w := l.word.toNat
      nbits w 7 0 = 0x4B ∧ nbits w 9 8 = l.mode ∧ nbits w 15 10 = l.emitter ∧ nbits w 23 16 = l.level ∧
        nbits w 47 24 = l.start ∧ nbits w 63 48 = l.len) ∧
    ∀ (s : State) (st : Nat) (x : ScanSet) (b : Binding) (sof : Tick), st < 6 →
      let u := s.startFrame st x b sof
      ∃ f, (u.exps st).frame = some f ∧ f.set = x ∧ f.sof = sof ∧ f.abort = false ∧
        f.blocks.length = 76 + 2 * s.ncol st ∧ f.blocks.take 38 = (f.blocks.drop 38).take 38 ∧
        f.blocks.getD 37 0 = BitVec.ofNat 64 (crc32 (blockBytes (f.blocks.take 37))) ∧
        ∃ c rest, (u.exps st).ctl = c :: rest ∧ c.marker = sof ∧ c.lanes = (List.range 4).map (sofWord st x.k))

/-- Map fields between nodes (R238) and the trimmed code (R240): a field is interpolated between its nodes, the trim
is the sum of TRIM(n) and EXP_REG.TRIM clamped to [−128, 127], and the code is dithered and limited to 15; code 0
stays 0. -/
def Obligations.NodesAndTrimmedCodes : Prop :=
  (∀ (s : State) (st e i u : Nat) (g : Nat → Int), i < 1024 → u < 24 →
    let v := fun m : Nat => g (s.memLE (mapBase + st * 0x30000 + e * 0x1000 + 4 * m) 4)
    let next := if i = 1023 then v 1023 else v (i + 1)
    s.fieldAt st e (24 * i + u) g = v i + Int.fdiv ((next - v i) * u + 12) 24) ∧
  (∀ (s : State) (st j n : Nat) (x : ScanSet) (b : Binding), s.posLive st j x = true →
    let t := max (-128) (min 127 (s.fieldAt st (s.emitterOf st j) n trimOf + trimOf x.reg.toNat))
    ∃ c ≤ 15, s.codeAt st j n x b = trimCode c t n) ∧
  (∀ m < 16, rev4 m < 16 ∧ ∀ i < 4, (rev4 m).testBit i = m.testBit (3 - i)) ∧
  ∀ (c n : Nat) (t : Int), -128 ≤ t → t ≤ 127 →
    trimCode 0 t n = 0 ∧
    (0 < c → (trimCode c t n : Int) = min 15 (Int.fdiv (c * (256 + t) + (16 * rev4 (n % 16) + 8)) 256))

/-- On-time counts (R248) and dark positions (R233): a frame's end adds to each emitter what its columns lit; a
position that is not live sends 0. RETIRE_REQUEST waits for a gap point (R247), behind those that wait already;
GAP_POINT (R243–R247) takes them in order, with class S writes in force: an emitter that is no spare refuses one.
Outside a facet gap (R205), or while a scan is bound, no gap point is taken. -/
def Obligations.OnTimeAndGapPoints : Prop :=
  (
    (∀ (s : State) (st e n : Nat) (rest : Tab Nat), st < 6 → e < 48 → (∀ p ∈ rest, e < p.1 ∧ p.1 < 48) →
      let u := s.addOnTime st ((e, n) :: rest)
      u.pair (Reg.EXP_ONTIME_LO st e) (Reg.EXP_ONTIME_HI st e) =
        (s.pair (Reg.EXP_ONTIME_LO st e) (Reg.EXP_ONTIME_HI st e) + n) % 2 ^ 48 ∧ u.mem = s.mem) ∧
    ∀ (s : State) (st j n : Nat) (x : ScanSet) (b : Binding), s.posLive st j x = false → s.codeAt st j n x b = 0) ∧
  (
    ∀ (s : State) (t : Tick) (st : Fin 6) (w : Word),
      let u := s.at t
      u.vidOn st = true →
      exec (.retireRequest t st w) s =
        .next (u.modExp st fun x => { x with retire := x.retire ++ [(bits w 4 0, bits w 13 8)] }) ∧
      (u.noneBound st = false ∨ u.facetGap st = false → exec (.gapPoint t st) s = .next u) ∧
      (u.noneBound st = true → u.facetGap st = true → u.fb (Reg.EXP_CTRL st) 2 = false → (u.exps st).tblDue = false →
        (u.exps st).inc1 = none → u.fb Reg.BKG_CTRL 3 = false →
        exec (.gapPoint t st) s = .next ((u.applyGap st).takeRetire st)) ∧
      (∀ j < 32, (∀ p ∈ u.held, p.1 = Reg.EXP_EMAP st j → p.2.stamp ≠ u.clk.tb) →
        (u.applyGap st).applied (Reg.EXP_EMAP st j) = u.reg (Reg.EXP_EMAP st j)) ∧
      ((u.takeRetire st).exps st).retire = [] ∧
      ∀ j e rest, j < 32 → e < 48 → (u.exps st).retire = (j, e) :: rest →
        let v (q : List (Nat × Nat)) := u.modExp st fun x => { x with retire := q }
        (u.isSpare st e = false → u.takeRetire st = ((v rest).setB (Reg.EXP_STATUS st) 1 true).takeRetire st) ∧
        (u.isSpare st e = true → u.takeRetire st = ((v rest).retireTo st j e 2).takeRetire st))

/-- Link states (R261): EN starts training and ends every state, while records of ended frames are still waited for
(R264); training that lasts 19,200,000 ticks, loading that lasts 6,400,000 and 1,280,000 without a valid record take
the link DOWN. TBL_LOAD asks for the tables (R250). The spare lane (R261, R262): in UP a lane is replaced by a usable
spare between frames, and the map, the status and a Ledger record say so; without one the link goes DOWN. -/
def Obligations.LinksAndSpareLane : Prop :=
  (
    ∀ (s : State) (t : Tick) (st : Fin 6),
      let u := s.at t
      (u.vidOn st = true →
        (u.linkState st = 0 → ∃ v : State, exec (.xlkEnWrite t st true) s = .next v ∧ v.linkState st = 1 ∧
          v.fb (Reg.XLK_CTRL st) 0 = true ∧ (v.exps st).since = u.clk.tb ∧ (v.exps st).locks = 0 ∧ v.mem = u.mem) ∧
        (u.linkState st ≠ 0 → ∃ v : State, exec (.xlkEnWrite t st false) s = .next v ∧ v.linkState st = 0 ∧
          v.fb (Reg.XLK_CTRL st) 0 = false ∧ (v.exps st).frame = none ∧ (v.exps st).waiting = (u.exps st).waiting ∧ v.mem = u.mem) ∧
        exec (.tblLoad t st) s = .next (u.modExp st fun x => { x with tblDue := true })) ∧
      (u.linkState st = 1 → (u.exps st).since + 19200000 ≤ u.clk.tb →
        exec (.trainTimeout t st) s = .next (u.linkDown st kTRAIN (u.lastScan st))) ∧
      (u.linkState st ≠ 1 ∨ u.clk.tb < (u.exps st).since + 19200000 → exec (.trainTimeout t st) s = .next u) ∧
      (u.linkState st = 2 → (u.exps st).since + 6400000 ≤ u.clk.tb →
        exec (.loadTimeout t st) s = .next (u.linkDown st kTABLE (u.lastScan st))) ∧
      (u.linkState st ≠ 2 → exec (.loadTimeout t st) s = .next u) ∧
      (u.linkState st = 3 → (u.exps st).lastRec.getD (u.exps st).since + 1280000 ≤ u.clk.tb →
        exec (.linkStatusTimeout t st) s = .next (u.linkDown st kNO_STATUS (u.lastScan st))) ∧
      (u.linkState st ≠ 3 → exec (.linkStatusTimeout t st) s = .next u) ∧
      ((u.exps st).bindings = [] → ∀ kind n, kind < 16 →
        (u.linkDown st kind n).linkState st = 4 ∧ (u.linkDown st kind n).fb (Reg.XLK_IRQ_STATUS st) 1 = true ∧
        (u.linkDown st kind n).f (Reg.XLK_ERR st) 3 0 = kind ∧ (u.linkDown st kind n).mem = u.mem)) ∧
  (
    ∀ (s : State) (t : Tick) (st : Fin 6) (lane : Fin 4),
      let u := s.at t
      (u.vidOn st = true → u.linkState st = 3 → lane.val ∉ (u.exps st).subst →
        (u.fb (Reg.XLK_STATUS st) 3 = true → (u.exps st).subst = [] →
          exec (.xlkForceSubst t st lane) s = .next (u.modExp st fun x => { x with subst := [lane.val] })) ∧
        (u.fb (Reg.XLK_STATUS st) 3 = false ∨ (u.exps st).subst ≠ [] →
          exec (.xlkForceSubst t st lane) s = .next (u.linkDown st kDOWN (u.lastScan st)))) ∧
      (u.linkState st ≠ 3 → exec (.xlkForceSubst t st lane) s = .next u ∧
        exec (.laneSubstitute t st) s = .next u) ∧
      ((u.exps st).subst = [lane.val] → u.linkState st = 3 → (u.exps st).frame = none → (u.exps st).tblEnd ≤ u.clk.tb →
        ∃ v : State, exec (.laneSubstitute t st) s = .next v ∧ v.physLane st lane = u.physLane st 4 ∧
          v.physLane st 4 = 7 ∧ v.fb (Reg.XLK_STATUS st) 3 = false ∧ v.fb (Reg.XLK_IRQ_STATUS st) 2 = true ∧
          (v.exps st).subst = [] ∧ ∀ l < 4, l ≠ lane.val → v.physLane st l = u.physLane st l))

/-- Status records (R263–R265) and LINK_CHECK (R266): a record with a wrong CRC, or of another station, is counted and
discarded; a valid one is shown, moves the link, and forms causes; a frame not answered in 409,600 ticks is LINK
NO_STATUS for its sheet. LIGHT_SEND lights continuously in SPINUP, says OFF once it is left, and then lights each
window once, not less than 2,048 ticks before it opens (R258); outside UP, and in SAFE, it sends nothing. -/
def Obligations.StatusRecords : Prop :=
  ∀ (s : State) (t : Tick) (st : Fin 6) (r : List Byte) (sensor : Fin 3),
    let u := s.at t
    let good := r.length = 128 ∧ sliceLE r 0 1 = 0x53 ∧ sliceLE r 1 1 = st.val ∧ crc32 (r.take 124) = sliceLE r 0x7C 4
    (u.vidOn st = true →
      (¬ good → exec (.statusRecord t st r) s = .next (u.incSat (Reg.XLK_CNT_MISC st) 31 16)) ∧
      (good →
        let a := (List.range 48).foldl (fun s e => s.wearOf st r e) (u.showRecord st r)
        let faulty := (List.range 48).any fun e => (sliceLE r 0x10 6).testBit e && a.named st e
        exec (.statusRecord t st r) s = .next
          ((((List.range 48).foldl (fun s e => s.faultOf st r e) a).beamResult st r).recordLink st r faulty)) ∧
      ∀ f, u.recordLink st r f = (u.recordCauses st r f).recordMoves st r) ∧
    (∀ w, (u.exps st).waiting = [w] → w.answered = false → w.eof + 409600 ≤ u.clk.tb →
      exec (.frameStatusTimeout t st) s = .next
        ((u.modExp st fun x => { x with waiting := [{ w with answered := true }] }).linkCause st w.sheet kNO_STATUS 0 w.k)) ∧
    (∀ (k : Fin 128) (i : Nat) (a : Armed),
      u.CanTake k i (fun a => isCmd 0x0D 1 a && a.unit ≤ 5 && u.vidOn a.unit) a →
      let x := u.markExecuted k i
      let y := x.report k i x.clk.tb
      (y.linkState a.act.unit = 3 → exec (.linkCheck t k i) s = .next y) ∧
      (y.linkState a.act.unit ≠ 3 → exec (.linkCheck t k i) s =
        .next (y.linkCause a.act.unit (x.handle k) kDOWN 0 (y.lastScan a.act.unit)))) ∧
    (u.vidOn st = true → u.linkState st = 3 → u.mode ≠ .safe →
      (u.scnState st = 1 → (u.exps st).cont = false →
        ∃ v : State, exec (.lightSend t st sensor) s = .next v ∧ v.regs = u.regs ∧ v.mem = u.mem ∧
          (v.exps st).cont = true ∧ ∃ l, (v.exps st).light = some l ∧ l.mode = 1 ∧ l.emitter = u.refEmitter st ∧
            l.level = u.f (Reg.XLK_SYNC st) 7 0 ∧ l.marker = (u.clk.tb + 65) / 66 * 66) ∧
      (u.scnState st ≠ 1 → (u.exps st).cont = true →
        ∃ v : State, exec (.lightSend t st sensor) s = .next v ∧ v.regs = u.regs ∧ v.mem = u.mem ∧
          (v.exps st).cont = false ∧ ∃ l, (v.exps st).light = some l ∧ l.mode = 0) ∧
      (2 ≤ u.scnState st → (u.exps st).cont = false →
        (u.lightDue st sensor ((u.clk.tb + 65) / 66 * 66) = none → exec (.lightSend t st sensor) s = .next u) ∧
        ∀ k lo hi, u.lightDue st sensor ((u.clk.tb + 65) / 66 * 66) = some (k, lo, hi) →
          ((u.clk.tb + 65) / 66 * 66 : Nat) + 2048 ≤ lo ∧
          ∃ v : State, exec (.lightSend t st sensor) s = .next v ∧ v.regs = u.regs ∧ v.mem = u.mem ∧
            (v.exps st).lit = Tab.insert sensor.val k (u.exps st).lit ∧
            ∃ l, (v.exps st).light = some l ∧ l.mode = 2 ∧ l.start = (lo - ((u.clk.tb + 65) / 66 * 66 : Nat)).toNat)) ∧
    (u.linkState st ≠ 3 ∨ u.mode = .safe → exec (.lightSend t st sensor) s = .next u)

/-! ### Field-oriented channels -/

/-- FOC commands (R280, R284, R285, R293): START and STOP wait for the latch; COAST turns an energised, ARMED or RETRY
channel OFF at once; CLEAR leaves FAULT, or is refused with BUS while the bus is neither NORMAL nor CHOPPING. A
Timetable command acts as a firmware write at its armed edge and is reported; a reference is refused with SOURCE while
a pin is selected, and stored where PROFILE gives the pin (R220); an action that leaves the commanded speed as it was
touches no other sheet (R80). Starts, attempts and trips (R281, R283, R288): START from OFF goes to CATCH, or to ARMED
for a reference of 0, or is refused; an attempt that times out is followed by RETRY until START_N attempts have
failed, then by FAULT 1; bits of the ΣΔ inputs that show an overcurrent, 64 cycles without a transition, and an engine
failure raise event FAULT and take an energised channel to FAULT 2, 3 and 7. Each FAULT is told to the sheets with a
claim on the axis (R294). -/
def Obligations.MotorCommandsAndTrips : Prop :=
  (
    ∀ (s : State) (t : Tick),
      let u := s.at t
      (∀ c : Fin 16, u.actOn = true →
        let same := fun v : State => v.mem = u.mem ∧ (v.focCh c).startReq = (u.focCh c).startReq ∧
          (v.focCh c).stopReq = (u.focCh c).stopReq ∧ v.f (Reg.FOC_STATE c) 31 16 = u.f (Reg.FOC_STATE c) 31 16
        exec (.focCmdStart t c) s = .next (u.modCh c fun x => { x with startReq := some {} }) ∧
        exec (.focCmdStop t c) s = .next (u.modCh c fun x => { x with stopReq := some {} }) ∧
        (∃ v : State, exec (.focCmdCoast t c) s = .next v ∧ same v ∧
          (∀ a, a ≠ Reg.FOC_STATE c → a ≠ Reg.SYS_SVC_MOTION → v.reg a = u.reg a) ∧
          (u.energised c = true ∨ u.focState c = 1 ∨ u.focState c = 8 →
            v.focState c = 0 ∧ (v.focCh c).dutyNext = none ∧ v.fb Reg.SYS_SVC_MOTION c = false) ∧
          (u.energised c = false → u.focState c ≠ 1 → u.focState c ≠ 8 → v = u)) ∧
        ∃ v : State, exec (.focCmdClear t c) s = .next v ∧ same v ∧
          (u.focState c ≠ 11 → v = u) ∧
          (u.focState c = 11 → u.busState (u.busOf c) ≤ 1 → v.focState c = 0 ∧ v.f (Reg.FOC_STATE c) 15 12 = 0) ∧
          (u.focState c = 11 → 2 ≤ u.busState (u.busOf c) → v.focState c = 11 ∧ v.f (Reg.FOC_STATE c) 7 5 = 2 ∧
            v.f (Reg.FOC_STATE c) 11 8 = 2 ∧ v.fb (Reg.FOC_IRQ_STATUS c) 3 = true ∧
            v.sbx.raised = u.sbx.raised ++ [{ src := srcFOC, ev := 4, ts := u.now }])) ∧
      ∀ (k : Fin 128) (i : Nat) (a : Armed),
        let x := u.markExecuted k i
        let due := fun n => u.CanTake k i (fun a => isCmd 0x0E n a && a.unit ≤ 15 && u.actOn) a
        let r := x.report k i x.clk.tb
        let c := a.act.unit
        let q : FocReq := { handle := some (x.handle k), spoil := if a.list = .spoil then some k.val else none }
        let ref := fun (p : Nat) (w : Word) =>
          if r.pinMode c ≠ 0 ∧ r.f (Reg.FOC_CFG c) 3 1 ≠ 4 then r.focRefuse c 6 q.handle
          else (r.hold p w).modCh c fun y => { y with refBy := some q, ttAt := some (p, r.clk.tb) }
        (due 1 → exec (.focTtStart t k i) s = .next (r.modCh c fun y => { y with startReq := some q })) ∧
        (due 2 → exec (.focTtStop t k i) s = .next (r.modCh c fun y => { y with stopReq := some q })) ∧
        (due 3 → exec (.focTtSpeed t k i) s = .next (ref (Reg.FOC_SPD_REF c) (BitVec.ofNat 32 a.act.param))) ∧
        (due 4 → exec (.focTtTorque t k i) s =
          .next (ref (Reg.FOC_IQ_REF c) (BitVec.ofNat 32 (a.act.param % 65536)))) ∧
        (due 5 → exec (.focTtCoast t k i) s =
          .next ((r.focCoast c).focShared c (r.focCommanded c) q.spoil.toList)) ∧
        ((r.focCoast c).focCommanded c = r.focCommanded c →
          (r.focCoast c).focShared c (r.focCommanded c) q.spoil.toList = r.focCoast c)) ∧
  (
    (∀ (s : State) (c : Nat) (q : FocReq), c < 16 → s.focState c = 0 →
      (s.startRefused c = none → (s.latchStart c q).f (Reg.FOC_STATE c) 7 5 = 1 ∧
        (s.latchStart c q).focState c = if s.refInUse c = 0 then 1 else 2) ∧
      (∀ r, s.startRefused c = some r → ∃ v : State, s.latchStart c q = v.axisFaultBy q.handle c ∧ v.focState c = 0 ∧
        v.f (Reg.FOC_STATE c) 7 5 = 2 ∧ v.f (Reg.FOC_STATE c) 11 8 = r ∧ v.mem = s.mem) ∧
      (2 ≤ s.busState (s.busOf c) → s.startRefused c = some 2)) ∧
    ∀ (s : State) (t : Tick) (c : Fin 16),
      let u := s.at t
      let faulted := fun (v : State) (code : Nat) => v.focState c = 11 ∧ v.f (Reg.FOC_STATE c) 15 12 = code ∧
        v.fb (Reg.FOC_IRQ_STATUS c) 0 = true ∧ (v.focCh c).dutyNext = none ∧ v.mem = u.mem
      let trips := fun (i : Instr) (code : Nat) =>
        (u.actOn = true → u.energised c = true →
          ∃ v : State, exec i s = .next ((v.axisFault c).raise srcFOC 1) ∧ faulted v code) ∧
        (u.actOn = true → u.energised c = false → exec i s = .next (u.raise srcFOC 1)) ∧
        (u.actOn = false → exec i s = .next u)
      (∀ sdu sdv : BitVec 31, (u.beyondIoc c sdu sdv = true → trips (.overcurrent t (c, sdu, sdv)) 2) ∧
        (u.beyondIoc c sdu sdv = false → exec (.overcurrent t (c, sdu, sdv)) s = .next u)) ∧
      (∀ sdu sdv : BitVec 64,
        (sdu = 0 ∨ sdu = BitVec.allOnes 64 ∨ sdv = 0 ∨ sdv = BitVec.allOnes 64 → trips (.sdLoss t (c, sdu, sdv)) 3) ∧
        (sdu ≠ 0 → sdu ≠ BitVec.allOnes 64 → sdv ≠ 0 → sdv ≠ BitVec.allOnes 64 →
          exec (.sdLoss t (c, sdu, sdv)) s = .next u)) ∧
      trips (.engine t c) 7 ∧
      ((u.focState c = 4 ∨ u.focState c = 5) →
        let due := (u.focCh c).attemptAt + u.f (Reg.FOC_START c) 23 16 * 64000000 ≤ u.clk.tb
        (¬ due → exec (.startAttemptTimeout t c) s = .next u) ∧
        (due → u.f (Reg.FOC_START c) 3 0 < (u.focCh c).attempts →
          ∃ v : State, exec (.startAttemptTimeout t c) s = .next ((v.axisFault c).raise srcFOC 0) ∧ faulted v 1) ∧
        (due → (u.focCh c).attempts ≤ u.f (Reg.FOC_START c) 3 0 →
          ∃ v : State, exec (.startAttemptTimeout t c) s = .next v ∧ v.focState c = 8 ∧ v.mem = u.mem ∧
            (v.focCh c).retryAt = u.clk.tb ∧ (v.focCh c).dutyNext = none ∧
            v.f (Reg.FOC_CNT c) 7 0 = min 255 (u.f (Reg.FOC_CNT c) 7 0 + 1))) ∧
      (u.focState c = 8 → (u.focCh c).retryAt + u.f (Reg.FOC_START c) 31 24 * 64000000 ≤ u.clk.tb →
        ∃ v : State, exec (.retryWaitExpiry t c) s = .next v ∧ v.focState c = 2 ∧ (v.focCh c).count = 0 ∧
          v.mem = u.mem ∧ ∀ a, a ≠ Reg.FOC_STATE c → v.reg a = u.reg a) ∧
      (u.focState c ≠ 8 → exec (.retryWaitExpiry t c) s = .next u))

/-- PWM_PERIOD (R272–R274, R277–R279, R282): each P_n takes the samples and estimates; a channel with its bridge off
only shows them, one in CATCH counts its periods, and one in RUN puts the on-times of the period before into force and
computes new ones, each 0, the whole period, or a pulse and a gap of at least MINP. The high switch of a phase is on
for its on-time about the middle of the period and never together with the low one (log entry 102). The ramp moves by
at most ACC or DEC and never past its target. The command pins (R291): FREQ measures 20 µs over the period between
rising edges, DUTY the high time over it, for periods of 10 µs to 1 ms; lost edges read as the level, and LOST is told
once. Engine substitution (R271): refused for an engine in use, absent or failed and while another waits; made once
the channel is OFF or FAULT, and recorded in the Ledger. What estimators measure comes with the command (log entry
32); the scaling of the transforms is log entry 31, the edges about the dead time log entry 102, the bits of
sigma-delta inputs log entry 104. -/
def Obligations.MotorPeriodPinsAndEngines : Prop :=
  (
    (∀ (s : State) (t : Tick) (c : Fin 16) (sdu sdv : BitVec 766) (θ : BitVec 16) (ω : Int) (err : Nat),
      let u := s.at t
      let st := u.focState c
      let w := (u.scnOmega c).getD ω
      let iu := u.phaseCurrent c 3 sdu
      let iv := u.phaseCurrent c 4 sdv
      let i := park iu iv θ.toNat
      let quiet := (u.focCh c).startReq = none ∧ (u.focCh c).stopReq = none ∧ (u.focCh c).refBy = none
      let atP := u.tpwm c = 0 ∨ t % u.tpwm c = u.f (Reg.FOC_PWM_PHASE c) 20 0
      (u.actOn = false ∨ ¬ atP → exec (.pwmPeriod t c sdu sdv θ ω err) s = .next u) ∧
      (u.actOn = true → atP →
        (quiet → st = 0 ∨ st = 8 ∨ st = 11 →
          ∃ v : State, exec (.pwmPeriod t c sdu sdv θ ω err) s = .next v ∧ v.focState c = st ∧ v.mem = u.mem ∧
            v.reg (Reg.FOC_SPEED c) = wordOfInt w ∧ v.f (Reg.FOC_ANGLE c) 15 0 = θ.toNat ∧
            v.f (Reg.FOC_MEAS_I c) 15 0 = fromSigned 16 (floorDiv i.1 (2 ^ 20)) ∧
            v.f (Reg.FOC_MEAS_I c) 31 16 = fromSigned 16 (floorDiv i.2 (2 ^ 20)) ∧
            (w.natAbs < u.f (Reg.FOC_OBS c) 23 0 → v.fb (Reg.FOC_STATE c) 4 = false)) ∧
        (quiet → st = 2 → (u.focCh c).count < 16 →
          ∃ v : State, exec (.pwmPeriod t c sdu sdv θ ω err) s = .next v ∧ v.focState c = 2 ∧ v.mem = u.mem ∧
            (v.focCh c).count = (u.focCh c).count + 1 ∧ (v.focCh c).dutyNext = (u.focCh c).dutyNext) ∧
        (st = 6 → u.limit = false → u.tpwm c ≤ t % 6400000 →
          ∃ v : State, exec (.pwmPeriod t c sdu sdv θ ω err) s = .next v ∧ v.focState c = 6 ∧ v.mem = u.mem ∧
            (v.focCh c).duty = (u.focCh c).dutyNext ∧
            let minp := u.f (Reg.FOC_PWM2 c) 31 16
            let ok := fun n => n = 0 ∨ n = u.tpwm c ∨ minp ≤ n ∧ n + minp ≤ u.tpwm c
            ∃ d, (v.focCh c).dutyNext = some d ∧ ok d.1 ∧ ok d.2.1 ∧ ok d.2.2))) ∧
    (∀ (old : List PinEdge) (p tpwm dead h x t : Nat), tpwm % 2 = 0 → h ≤ tpwm → x < 3 → p ≤ t →
      (levelAt old (2 * x) p = false ∨ levelAt old (2 * x + 1) p = false) →
      let es := setEdges 6 old (phaseEdges p tpwm dead h x) p
      let a := p + tpwm / 2 - h / 2
      (levelAt es (2 * x) t = false ∨ levelAt es (2 * x + 1) t = false) ∧
      (p + dead ≤ a → p < a → a + h < p + tpwm → 0 < h → (levelAt es (2 * x) t = true ↔ a ≤ t ∧ t < a + h))) ∧
    ∀ (r target up down : Int) (hold : Bool), 0 ≤ up → 0 ≤ down →
      let r' := rampStep r target up down hold
      (r ≤ target → r ≤ r' ∧ r' ≤ target ∧ r' ≤ r + max up down) ∧
      (target ≤ r → target ≤ r' ∧ r' ≤ r ∧ r - max up down ≤ r') ∧
      (hold = true → (0 < r ∧ target < r) ∨ (r < 0 ∧ r < target) → r' = r)) ∧
  (
    (∀ (s : State) (t : Tick) (c : Fin 16) (x : Nat),
      let u := s.at t
      let pv := Reg.FOC_PIN_VAL c
      u.actOn = true →
      (∀ rising, ∃ v : State, exec (.cmdPinEdge t c rising x) s = .next v ∧ v.fb pv 16 = false ∧ v.mem = u.mem ∧
        (v.focCh c).pinEdge = some x ∧ (v.focCh c).pinHigh = rising ∧
        (∀ a, a ≠ pv → v.reg a = u.reg a) ∧
        (rising = false → v.f pv 15 0 = u.f pv 15 0 ∧ (v.focCh c).pinFall = some x) ∧
        (∀ r, rising = true → (u.focCh c).pinRise = some r →
          (u.pinMode c = 3 → v.f pv 15 0 = q16 128000 (x - r)) ∧
          (∀ f, u.pinMode c = 2 → (u.focCh c).pinFall = some f → r ≤ f → 64000 ≤ x - r → x - r ≤ 6400000 →
            v.f pv 15 0 = q16 (f - r) (x - r)))) ∧
      (∀ e, u.pinMode c = 2 → (u.focCh c).pinEdge = some e → e + 12800000 ≤ u.clk.tb → u.fb pv 16 = false →
        ∃ v : State, exec (.pinLost t c) s = .next v ∧ v.f pv 15 0 = (if (u.focCh c).pinHigh then 0xFFFF else 0) ∧
          v.fb pv 16 = true ∧ v.fb (Reg.FOC_IRQ_STATUS c) 4 = true ∧ v.mem = u.mem ∧
          v.sbx.raised = u.sbx.raised ++ [{ src := srcFOC, ev := 5, ts := u.now }]) ∧
      (u.pinMode c ≠ 2 → u.pinMode c ≠ 3 → exec (.pinLost t c) s = .next u)) ∧
    ∀ (s : State) (t : Tick) (w : Word),
      let u := s.at t
      let c := bits w 3 0
      let e := bits w 12 8
      u.actOn = true →
      let used := ∃ c < 16, u.f (Reg.FOC_ENG_MAP c) 4 0 = e
      let bad := 18 ≤ e ∨ (u.reg Reg.FOC_ENG_FAIL).getLsbD e = true
      (e ≠ 31 → used → exec (.focEngSubstRequest t w) s = .next (u.setReg Reg.FOC_ENG_SUBST_STATUS 7)) ∧
      (e ≠ 31 → ¬ used → bad → exec (.focEngSubstRequest t w) s = .next (u.setReg Reg.FOC_ENG_SUBST_STATUS 11)) ∧
      (e ≠ 31 → ¬ used → ¬ bad → u.foc.subst ≠ none →
        exec (.focEngSubstRequest t w) s = .next (u.setReg Reg.FOC_ENG_SUBST_STATUS 15)) ∧
      (e ≠ 31 → ¬ used → ¬ bad → u.foc.subst = none →
        ∃ v : State, exec (.focEngSubstRequest t w) s = .next v ∧ v.foc.subst = some (c, e) ∧
          v.reg Reg.FOC_ENG_SUBST_STATUS = 1 ∧ v.foc.ch = u.foc.ch ∧ v.mem = u.mem) ∧
      (u.foc.subst = none → exec (.focEngSubstCancel t) s = .next u ∧ exec (.engineSubstApply t) s = .next u) ∧
      (u.foc.subst ≠ none → ∃ v : State, exec (.focEngSubstCancel t) s = .next v ∧ v.foc.subst = none ∧
        v.reg Reg.FOC_ENG_SUBST_STATUS = 0 ∧ v.mem = u.mem) ∧
      ∀ c e, c < 16 → e < 18 → u.foc.subst = some (c, e) →
        (u.focState c = 0 ∨ u.focState c = 11 →
          ∃ v : State, exec (.engineSubstApply t) s = .next (v.ldgRecord 2 0x11 1
              (bytesLE 1 c ++ bytesLE 1 (u.f (Reg.FOC_ENG_MAP c) 4 0) ++ bytesLE 1 e)) ∧
            v.f (Reg.FOC_ENG_MAP c) 4 0 = e ∧ v.fb Reg.FOC_ENG_FAIL (u.f (Reg.FOC_ENG_MAP c) 4 0) = true ∧
            v.foc.subst = none ∧ v.reg Reg.FOC_ENG_SUBST_STATUS = 2) ∧
        (u.focState c ≠ 0 → u.focState c ≠ 11 → exec (.engineSubstApply t) s = .next u))

/-- The supply buses (R286, R287, R289): a sample is taken from the bits of BUSSD, at full scale FOC_BUS_CFG.SCALE, at
the interval of the channel's SDCK; with VUV < VCHOP < VREG < VABS each moves the bus as the ladder says, the absolute
limit before the chopper (log entry 33), and takes its channels to ZTC, ASC or FAULT; the chopper's check is made
once, T_CHOP after it fires; BUS_CLEAR needs a bus below VREG. The order of the ladder on a bus over VABS is the
model's reading: log entry 33. -/
def Obligations.SupplyBuses : Prop :=
  (∀ (s : State) (t : Tick) (b : Fin 4) (sd : BitVec 94),
    let u := s.at t
    let v := (u.busVolts b sd).1
    let st := u.busState b
    let hy := u.f (Reg.FOC_BUS_CHOP b) 15 0
    let seen := fun (w : State) (n : Nat) => w.busState b = n ∧ w.mem = u.mem ∧ w.vBus b = v % 2 ^ 16 ∧
      (w.focBus b).sampleAt = some u.clk.tb
    (u.actOn = false ∨ u.sampleDue b = false → exec (.busSample t b sd) s = .next u) ∧
    (u.actOn = false → exec (.busClear t b) s = .next u) ∧
    (u.sampleDue b = true ↔ ∀ t0, (u.focBus b).sampleAt = some t0 →
      t0 + 32 * (if u.fb (Reg.FOC_SD (4 * b)) 0 = true then 640 else 320) ≤ u.clk.tb) ∧
    (∀ n : Nat, (sinc3 32 sd * (u.f (Reg.FOC_BUS_CFG b) 31 16 : Int)) = 32768 * n → v = n) ∧
    (u.actOn = true → u.sampleDue b = true → u.busOrdered b = true →
      (st ≤ 2 → u.vAbs b ≤ v → ∃ w : State,
        exec (.busSample t b sd) s = .next ((w.busChannels b).foldl State.limitCh w) ∧ seen w 3 ∧
        (w.focBus b).brk = true ∧ w.sbx.raised = u.sbx.raised ++ [{ src := srcFOC, ev := 3, ts := u.now }]) ∧
      (st ≤ 1 → v < u.vUV b → ∃ w : State, exec (.busSample t b sd) s = .next ((w.busChannels b).foldl
          (fun s c => if s.energised c then s.focFault c 4 else s) w) ∧ seen w 4 ∧ (w.focBus b).brk = false) ∧
      (st = 0 → u.vChop b ≤ v → v < u.vAbs b → u.fb (Reg.FOC_BUS_CFG b) 0 = true →
        ∃ w : State, exec (.busSample t b sd) s = .next w ∧ seen w 1 ∧ (w.focBus b).brk = true ∧
          (w.focBus b).chopAt = some u.clk.tb ∧ (w.focBus b).v0 = v ∧
          (u.vReg b ≤ v → (w.focBus b).restrict = true) ∧ (v + hy < u.vReg b → (w.focBus b).restrict = false)) ∧
      (st = 0 → u.vChop b ≤ v → v < u.vAbs b → u.fb (Reg.FOC_BUS_CFG b) 0 = false →
        ∃ w : State, exec (.busSample t b sd) s = .next ((w.busChannels b).foldl State.enterZtc w) ∧ seen w 2) ∧
      (st = 1 → u.vUV b ≤ v → v + hy < u.vChop b →
        ∃ w : State, exec (.busSample t b sd) s = .next w ∧ seen w 0 ∧ (w.focBus b).brk = false) ∧
      (st = 2 → v + hy < u.vChop b →
        ∃ w : State, exec (.busSample t b sd) s = .next w ∧ seen w 2 ∧ (w.focBus b).brk = false) ∧
      (st = 3 → ∃ w : State, exec (.busSample t b sd) s = .next w ∧ seen w 3) ∧
      (st = 4 → ∃ w : State, exec (.busSample t b sd) s = .next w ∧ seen w (if u.vUV b + hy ≤ v then 0 else 4)) ∧
      (st = 0 → u.vUV b ≤ v → v < u.vChop b → ∃ w : State, exec (.busSample t b sd) s = .next w ∧ seen w 0)) ∧
    (u.actOn = true →
      ((st = 2 ∨ st = 3) → u.vBus b < u.vReg b → ∃ w : State, exec (.busClear t b) s = .next w ∧ w.busState b = 0 ∧
        (w.focBus b).brk = false ∧ ∀ a, a ≠ Reg.FOC_BUS_STATUS b → w.reg a = u.reg a) ∧
      ((st ≠ 2 ∧ st ≠ 3) ∨ u.vReg b ≤ u.vBus b → exec (.busClear t b) s = .next u)) ∧
    ((u.focBus b).chopAt = none → exec (.chopTimerExpiry t b) s = .next u) ∧
    ∀ t0, (u.focBus b).chopAt = some t0 →
      let due := st = 1 ∧ t0 + u.f (Reg.FOC_BUS_TCHOP b) 31 0 ≤ u.clk.tb
      (¬ due → exec (.chopTimerExpiry t b) s = .next u) ∧
      (due → (u.focBus b).v0 < u.vBus b + u.f (Reg.FOC_BUS_CHOP b) 31 16 → ∃ w : State,
        exec (.chopTimerExpiry t b) s = .next ((w.busChannels b).foldl State.enterZtc w) ∧ w.busState b = 2 ∧
        (w.focBus b).chopAt = none ∧ w.sbx.raised = u.sbx.raised ++ [{ src := srcFOC, ev := 2, ts := u.now }]) ∧
      (due → u.vBus b + u.f (Reg.FOC_BUS_CHOP b) 31 16 ≤ (u.focBus b).v0 →
        exec (.chopTimerExpiry t b) s = .next (u.modBus b fun y => { y with chopAt := none }))) ∧
  ∀ (s : State) (c : Nat), c < 16 →
    (s.energised c = false → s.enterZtc c = s ∧ s.limitCh c = s) ∧
    (s.energised c = true →
      (s.focState c ≠ 9 → ∃ w : State, s.enterZtc c = w.axisFault c ∧ w.focState c = 9 ∧
        w.fb (Reg.FOC_IRQ_STATUS c) 1 = true) ∧
      (s.f (Reg.FOC_ASC c) 23 0 ≤ (s.omega c).natAbs → ∃ w : State, s.limitCh c = w.axisFault c ∧
        w.focState c = 10 ∧ w.fb (Reg.FOC_IRQ_STATUS c) 2 = true ∧ (w.focCh c).dutyNext = none) ∧
      ((s.omega c).natAbs < s.f (Reg.FOC_ASC c) 23 0 → ∃ w : State, s.limitCh c = w.axisFault c ∧
        w.focState c = 11 ∧ w.f (Reg.FOC_STATE c) 15 12 = 6))

/-! ### Stepper channels and encoders -/

/-- STP commands (R310, R314, R315, R322, R325): GO, STOP, RESUME and CLEAR wait for the motion-period boundary; HALT
stops a moving channel at the step it has reached, keeps what is left of a move in STP_REM, places no STEP edge more
than 640 ticks later, and leaves the windings at HOLD_I; a rest of HOLD_MS lowers the current. A Timetable command
acts as a firmware write and is reported; a spoil action touches other sheets where it has changed the commanded speed
(R80). -/
def Obligations.StepperCommands : Prop :=
  ∀ (s : State) (t : Tick),
    let u := s.at t
    (∀ c : Fin 32, u.actOn = true →
      exec (.go t c) s = .next (u.modStp c fun x => { x with go := x.go ++ [{ time := u.clk.tb }] }) ∧
      exec (.stpStop t c) s = .next (u.modStp c fun x => { x with stop := x.stop ++ [{ time := u.clk.tb }] }) ∧
      exec (.resume t c) s = .next (u.modStp c fun x => { x with resume := x.resume ++ [{ time := u.clk.tb }] }) ∧
      exec (.stpClear t c) s = .next (u.modStp c fun x => { x with clear := x.clear ++ [{ time := u.clk.tb }] }) ∧
      (u.moving c = false → exec (.halt t c) s =
        .next (u.modStp c fun x => { x with halt := x.halt ++ [{ time := u.clk.tb }] })) ∧
      (u.moving c = true → ∃ v : State, exec (.halt t c) s = .next v ∧ v.stpState c = 6 ∧ v.stpPos c = u.stpPos c ∧
        (v.stpCh c).v = 0 ∧ (v.stpCh c).halted = true ∧ (v.stpCh c).hold = true ∧ v.stpT c = u.stpT c ∧
        (v.reg (Reg.STP_REM_LO c)).toNat + 2 ^ 32 * v.f (Reg.STP_REM_HI c) 15 0 =
          fromSigned 48 (u.stpT c - u.stpPos c) ∧
        (c.val ≤ 15 → v.f (Reg.STP_LA_MEAS c) 31 16 = u.af (Reg.STP_CUR2 c) 15 0) ∧
        (∀ q ∈ (v.stpCh c).steps, q ∈ (u.stpCh c).steps ∧ q.cross ≤ u.clk.tb ∧ q.rise ≤ u.clk.tb + 640) ∧
        (∀ d : Nat, d < 32 → d ≠ c → v.stpCh d = u.stpCh d) ∧ v.mem = u.mem) ∧
      ∃ v : State, exec (.gearArm t c) s = .next v ∧ v.fb (Reg.STP_GEAR_STATUS c) 0 = true ∧
        (∀ a, a ≠ Reg.STP_GEAR_STATUS c → v.reg a = u.reg a) ∧ v.mem = u.mem ∧
        ∃ w : State, exec (.gearCancel t c) s = .next w ∧ w.fb (Reg.STP_GEAR_STATUS c) 0 = false ∧
        (∀ a, a ≠ Reg.STP_GEAR_STATUS c → w.reg a = u.reg a) ∧ w.mem = u.mem) ∧
    (∀ c : Fin 16, u.actOn = true → (u.stpState c = 0 ∨ u.stpState c = 6) →
      let due := (u.stpCh c).restAt + u.f (Reg.STP_CUR2 c) 31 16 * 6400000 ≤ u.clk.tb
      (due → ∃ v : State, exec (.holdTimerExpiry t c) s = .next v ∧
        v.f (Reg.STP_LA_MEAS c) 31 16 = u.af (Reg.STP_CUR2 c) 15 0 ∧ (v.stpCh c).hold = true ∧
        v.stpPos c = u.stpPos c ∧ v.mem = u.mem) ∧
      (¬ due → exec (.holdTimerExpiry t c) s = .next u)) ∧
    ∀ (k : Fin 128) (i : Nat) (a : Armed),
      let x := u.markExecuted k i
      let due := fun n => u.CanTake k i (fun a => isCmd 0x0F n a && a.unit ≤ 31 && u.actOn) a
      let r := x.report k i x.clk.tb
      let c := a.act.unit
      let q : StpReq := { handle := some (x.handle k), spoil := if a.list = .spoil then some k.val else none }
      let req : StpReq := { q with time := r.clk.tb }
      let p := toSigned 32 a.act.param
      let cur := toSigned 48 ((r.reg (Reg.STP_TGT_LO c)).toNat + 2 ^ 32 * r.f (Reg.STP_TGT_HI c) 15 0)
      let spd := speedWord (BitVec.ofNat 32 a.act.param)
      let target := fun v => (r.writeTarget c v).modStp c fun y => { y with ttTgt := some (v, r.clk.tb) }
      (due 1 → exec (.moveAbs t k i) s = .next ((target p).modStp c fun y => { y with go := y.go ++ [req] })) ∧
      (due 2 → exec (.moveRel t k i) s =
        .next ((target (cur + p)).modStp c fun y => { y with go := y.go ++ [{ req with soft := true }] })) ∧
      (due 3 → exec (.stpTtRun t k i) s = .next (((r.hold (Reg.STP_VCMD c) spd).modStp c
          fun y => { y with ttV := some (toSigned 32 spd.toNat, r.clk.tb) }).modStp c
          fun y => { y with go := y.go ++ [{ req with soft := true }] })) ∧
      (due 4 → exec (.stpTtStop t k i) s = .next (r.modStp c fun y => { y with stop := y.stop ++ [req] })) ∧
      (due 5 → exec (.stpTtHalt t k i) s = .next (r.stpHalt c q)) ∧
      (due 6 → exec (.stpTtResume t k i) s = .next (r.modStp c fun y => { y with resume := y.resume ++ [req] })) ∧
      (due 7 → exec (.engage t k i) s = .next (r.modStp c fun y => { y with go := y.go ++ [req] })) ∧
      ∀ b, (r.stpCommanded c = b → r.stpShared c b [k.val] = r) ∧
        (r.stpCommanded c ≠ b → r.stpShared c b [k.val] = r.sharedResource k (16 + c))

/-- Pairs and encoders (R309, R317, R320, R323): the HI word applies a pair — a position at once on a channel at rest
(CFG_BUSY otherwise, for either word), a target at the boundary, a count on an encoder that is not in use. An input is
taken as changed after FILT + 1 equal samples; a transition moves the count by 1, wrapping at 48 bits (upward where A
leads B, log entry 107), and both lines at once are a fault; a Z edge records the count and is a fault away from a
multiple of CPR. A ratio change leaves the commanded position where it is, and no step falls before the next boundary.
MOTION_PERIOD (R303, R306, R307, R311, R312): only a boundary acts, on all channels in order; a channel at rest with
nothing requested stands still. A profile moves toward its target and never past it, within its speed limit; a
complete move ends at its target in IDLE; STEP edges keep PULSE apart and DIR its set-up time (R304); a GO from IDLE
is accepted, or refused with the reason of R312. -/
def Obligations.StepperPairsEncodersAndMotion : Prop :=
  (
    (∀ (s : State) (t : Tick) (c : Fin 32) (w : Word),
      let u := s.at t
      u.actOn = true →
      (∃ v : State, exec (.stpTgtHiWrite t c w) s = .next v ∧ v.stpT c = u.stpT c ∧ v.mem = u.mem ∧
        v.reg (Reg.STP_TGT_LO c) = ((u.stpCh c).tgtLo).getD (u.reg (Reg.STP_TGT_LO c)) ∧
        v.reg (Reg.STP_TGT_HI c) = BitVec.ofNat 32 (w.toNat % 65536) ∧ (v.stpCh c).tgtLo = none) ∧
      let lo := ((u.stpCh c).posLo).getD (BitVec.ofNat 32 (fromSigned 48 (u.stpPos c)))
      let p := toSigned 48 (lo.toNat + 2 ^ 32 * (w.toNat % 65536))
      (u.stpState c = 0 ∨ u.stpState c = 7 → ∃ v : State, exec (.stpPosHiWrite t c w) s = .next v ∧ v.stpPos c = p ∧
        v.fb (Reg.STP_STATE c) 6 = true ∧ v.stpState c = u.stpState c ∧ (v.stpCh c).posLo = none ∧ v.mem = u.mem) ∧
      (u.stpState c ≠ 0 → u.stpState c ≠ 7 → p ≠ u.stpPos c → exec (.stpPosHiWrite t c w) s = .next (u.raise srcSTP 5)) ∧
      (u.stpState c ≠ 0 → u.stpState c ≠ 7 → p = u.stpPos c → exec (.stpPosHiWrite t c w) s = .next u) ∧
      (u.stpRunning c = true → w ≠ BitVec.ofNat 32 (fromSigned 48 (u.stpPos c)) →
        u.writePosLo c w = u.raise srcSTP 5)) ∧
    (∀ (s : State) (t : Tick) (e : Fin 8) (w : Word),
      let u := s.at t
      let lo := ((u.stpEnc e).lo).getD (u.reg (Reg.STP_ENC_CNT_LO e))
      let n := toSigned 48 (lo.toNat + 2 ^ 32 * (w.toNat % 65536))
      (u.actOn = true → u.encRunning e = false → ∃ v : State, exec (.stpEncCntHiWrite t e w) s = .next v ∧
        v.encCount e = n ∧ (v.stpEnc e).lo = none ∧ v.mem = u.mem) ∧
      (u.actOn = true → u.encRunning e = true → n ≠ u.encCount e →
        exec (.stpEncCntHiWrite t e w) s = .next (u.raise srcSTP 5)) ∧
      (u.encRunning e = true → w ≠ u.reg (Reg.STP_ENC_CNT_LO e) → u.writeCntLo e w = u.raise srcSTP 5) ∧
      ∀ (ab : List (Bool × Bool)) (zs : List Bool),
        (u.actOn = false ∨ u.fb (Reg.STP_ENC_CFG e) 0 = false →
          exec (.encoderCount t e ab) s = .next u ∧ exec (.encoderIndexEdge ⟨t, zs⟩ e) s = .next u) ∧
        (u.actOn = true → u.fb (Reg.STP_ENC_CFG e) 0 = true →
          exec (.encoderCount t e ab) s = .next (ab.foldl (fun s x => s.encSample e x) u) ∧
          exec (.encoderIndexEdge ⟨t, zs⟩ e) s = .next (zs.foldl (fun s v => s.zSample e v) u))) ∧
    (∀ (u : State) (e : Nat) (ab : Bool × Bool) (z : Bool), e < 8 →
      let x := u.stpEnc e
      let filt := u.f (Reg.STP_ENC_CFG e) 5 2
      let a := x.inA.sample filt ab.1
      let b := x.inB.sample filt ab.2
      let y := u.modEnc e fun x => { x with inA := a, inB := b }
      let ta := x.inA.level ≠ none ∧ x.inA.level ≠ a.level
      let tb := x.inB.level ≠ none ∧ x.inB.level ≠ b.level
      let faulted := fun (v : State) (kind : Nat) => v.fb (Reg.STP_ENC_STATUS e) 0 = true ∧
        v.f (Reg.STP_ENC_STATUS e) 2 1 = kind ∧ v.encCount e = u.encCount e ∧ v.mem = u.mem ∧
        v.sbx.raised = u.sbx.raised ++ [{ src := srcSTP, ev := 3, ts := u.now }]
      (¬ ta → ¬ tb → u.encSample e ab = y) ∧
      (ta → tb → faulted (u.encSample e ab) 1) ∧
      (ta ∧ ¬ tb ∨ ¬ ta ∧ tb → ∃ v : State, u.encSample e ab = v.ratioChanges e ∧ v.mem = u.mem ∧
        (let up := quadUp (a.level.getD false) (b.level.getD false) (decide ta)
         v.encCount e = toSigned 48 (fromSigned 48
           (u.encCount e + (if up = u.fb (Reg.STP_ENC_CFG e) 1 then -1 else 1)))) ∧
        ((∀ c < 32, u.masterOf c = e → u.fb (Reg.STP_GEAR_STATUS c) 0 = false) → v.ratioChanges e = v)) ∧
      (x.inZ.level = some false → (x.inZ.sample filt z).level = some true → let v := u.zSample e z
        v.reg (Reg.STP_ENC_INDEX e) = wordOfInt (u.encCount e) ∧ (v.stpEnc e).z = some (u.encCount e) ∧
        (∀ m, x.z = some m → (u.reg (Reg.STP_ENC_CPR e)).toNat ≠ 0 →
          (u.encCount e - m) % ((u.reg (Reg.STP_ENC_CPR e)).toNat : Int) ≠ 0 → faulted v 2)) ∧
      ((x.inZ.sample filt z).level = x.inZ.level →
        u.zSample e z = u.modEnc e fun x => { x with inZ := x.inZ.sample filt z })) ∧
    (∀ (f : InFilter) (n : Nat) (v : Bool), n < 16 →
      ((List.replicate (n + 1) v).foldl (fun x v => x.sample n v) f).level = some v ∧
      (f.raw = !v → ∀ m ≤ n, ((List.replicate m v).foldl (fun x v => x.sample n v) f).level = f.level)) ∧
    ∀ (s : State) (c : Nat) (m : Int), c < 32 →
      let v := s.ratioChange c m
      v.gearNum c = toSigned 32 (s.reg (Reg.STP_GEAR_NEXT_NUM c)).toNat ∧
      v.gearDen c = (s.reg (Reg.STP_GEAR_NEXT_DEN c)).toNat ∧ v.fb (Reg.STP_GEAR_STATUS c) 0 = false ∧
      (v.stpCh c).s0 + v.geared c m = (s.stpCh c).s0 + s.geared c m ∧
      (s.stpState c = 3 → (v.stpCh c).p0 = (v.stpCh c).p1 ∧ ∀ q ∈ (v.stpCh c).steps, q.cross ≤ s.clk.tb ∧ q.rise ≤ s.clk.tb)) ∧
  (
    (∀ (s : State) (t : Tick) (ds : List (Nat × Nat)) (ws : List (Nat × BitVec 766 × BitVec 766)),
      let u := s.at t
      (u.actOn = false ∨ t % 6400 ≠ 0 → exec (.motionPeriod t (ds, ws)) s = .next u) ∧
      (u.actOn = true → t % 6400 = 0 →
        exec (.motionPeriod t (ds, ws)) s = .next ((List.range 32).foldl
          (fun s c => s.motionCh c ((ds.find? fun p => p.1 == c).map (·.2)) ((ws.find? fun p => p.1 == c).map (·.2)))
          ((List.range 8).foldl State.encSpeed u)) ∧
        ((∀ c < 32, u.stpState c = 0 ∧ (u.stpCh c).go = [] ∧ (u.stpCh c).stop = [] ∧ (u.stpCh c).halt = [] ∧
            (u.stpCh c).resume = [] ∧ (u.stpCh c).clear = [] ∧ (u.stpCh c).ttTgt = none ∧ (u.stpCh c).ttV = none ∧
            (u.stpCh c).p0 = (u.stpCh c).pos * 2 ^ 32 ∧ (u.stpCh c).p1 = (u.stpCh c).pos * 2 ^ 32) →
          ∃ v : State, exec (.motionPeriod t (ds, ws)) s = .next v ∧ v.mem = u.mem ∧
            ∀ c < 32, v.stpState c = 0 ∧ v.stpPos c = u.stpPos c))) ∧
    (∀ (p v t : Int) (acc dec vlim vstart : Nat), p ≤ t → 0 ≤ v →
      let r := genPosition p v t acc dec vlim vstart
      p ≤ r.2 ∧ r.2 ≤ t ∧ 0 ≤ r.1 ∧ (v ≤ vlim * 65536 → vstart ≤ vlim → r.1 ≤ vlim * 65536)) ∧
    (∀ (v target : Int) (acc dec vstart : Nat), 0 ≤ v → v ≤ target * 65536 → 0 < target → (vstart : Int) ≤ target →
      v ≤ genVelocity v target acc dec vstart ∧ genVelocity v target acc dec vstart ≤ target * 65536) ∧
    (∀ (x : StpCh) (pw su : Nat) (neg : Bool) (cross : Tick),
      let p := x.pulse pw su neg cross
      cross ≤ p.rise ∧ p.fall = p.rise + pw ∧ (∀ r, x.riseThen = some r → r + 2 * pw ≤ p.rise) ∧
      (neg = x.dirThen → p.dir = none) ∧
      (neg ≠ x.dirThen → ∃ d, p.dir = some (d, neg) ∧ d + su ≤ p.rise ∧ x.revAt.getD x.t0 ≤ d ∧
        ∀ r, x.riseThen = some r → r + pw + su ≤ d)) ∧
    ∀ (s : State) (c : Nat), c < 32 →
      let x := s.stpCh c
      (s.stpState c = 1 → x.v = 0 → x.gv = 0 → (∀ w ∈ x.raw, w = 0) → x.gp = s.stpT c * 2 ^ 32 →
        (s.restStp c).stpState c = 0 ∧ (s.restStp c).stpPos c = s.stpT c ∧
        (s.restStp c).fb (Reg.STP_IRQ_STATUS c) 0 = true) ∧
      ∀ r : StpReq, s.stpState c = 0 → r.soft = false →
        (s.goRefused c = none → s.stpMode c = 0 → (s.latchCmd c false 3 r).stpState c = 1 ∧
          (s.latchCmd c false 3 r).f (Reg.STP_STATE c) 9 8 = 1) ∧
        (∀ e, s.goRefused c = some e → ∃ v : State, s.latchCmd c false 3 r = v.axisFaultBy r.handle (16 + c) ∧
          v.stpState c = 0 ∧ v.f (Reg.STP_STATE c) 9 8 = 2 ∧ v.f (Reg.STP_STATE c) 13 10 = e ∧ v.mem = s.mem))

/-! ### High voltage, fuser and media -/

/-- References and ramps (R334, R335, R336, R341): a write of HV_RAMP starts a ramp from the value in force, and is
refused while SAFE_ACTIVE; each period boundary takes every ramp one step, and a ramp of N periods stands at its
target at its N-th. Ball HVREF r is high for the on-time of its value from each boundary on, and the on-times of 64
periods add to 32 times the value. Of a RAMP and a write of HV_RAMP at one boundary the RAMP stands. Samples,
generators and the SAFE stages (R333, R337, R338, R340): a code is shown with its sample number; with its window
enabled and its value quiet, a run of WIN_N codes outside the tolerance is a violation; codes 24–31 add to the fuser's
means. Each update adds the increment to a generator's phase and takes the thermal band at a wrap. A stage that does
not come down in time ends with a timeout, the last one with SAFE_ACTIVE. -/
def Obligations.HighVoltage : Prop :=
  (
    (∀ (s : State) (t : Tick) (n : Fin 28) (w : Word),
      let u := s.at t
      let v0 := u.hvValue n
      (u.hvOn = false → exec (.hvRampWrite t n w) s = .next u ∧ exec (.hvPeriod t) s = .next u) ∧
      (u.hvOn = true → u.hvSafeActive = true →
        exec (.hvRampWrite t n w) s = .next (u.setB Reg.HV_IRQ_STATUS 3 true)) ∧
      (u.hvOn = true → u.hvSafeActive = false → (u.hvUnit n).ttAt = some u.clk.tb → u.clk.tb % 32768 = 0 →
        exec (.hvRampWrite t n w) s = .next (u.setReg (Reg.HV_RAMP n) w)) ∧
      (u.hvOn = true → u.hvSafeActive = false → (u.hvUnit n).ttAt ≠ some u.clk.tb ∨ u.clk.tb % 32768 ≠ 0 →
        ∃ v : State, exec (.hvRampWrite t n w) s = .next v ∧ v.reg (Reg.HV_RAMP n) = w ∧
          v.mem = u.mem ∧ (∀ m : Nat, m ≠ n → v.hvUnit m = u.hvUnit m) ∧
          (u.hv.last ≠ some u.clk.tb → v.hvValue n = v0 ∧ v.fb (Reg.HV_VALUE n) 16 = true ∧
            v.hvUnit n = { u.hvUnit n with v0 := v0, v1 := bits w 15 0, n := bits w 31 16, i := 0, ramping := true }) ∧
          (u.hv.last = some u.clk.tb → v.hvValue n = rampValue v0 (bits w 15 0) 1 (bits w 31 16) ∧ (v.hvUnit n).i = 1 ∧
            ((v.hvUnit n).ramping = true ↔ 1 < bits w 31 16))) ∧
      (u.hvOn = true → t % 32768 ≠ 0 → exec (.hvPeriod t) s = .next u) ∧
      (u.hvOn = true → u.hvSafeActive = false → t % 32768 = 0 →
        (∀ m < 28, (u.hvUnit m).v0 < 65536 ∧ (u.hvUnit m).v1 < 65536) →
        ∃ v : State, exec (.hvPeriod t) s = .next v ∧ v.mem = u.mem ∧ v.hv.last = some u.clk.tb ∧
          ∀ m < 28,
            ((u.hvUnit m).ramping = false → v.hvValue m = u.hvValue m ∧ (v.hvUnit m).ramping = false) ∧
            ((u.hvUnit m).ramping = true →
              v.hvValue m = rampValue (u.hvUnit m).v0 (u.hvUnit m).v1 ((u.hvUnit m).i + 1) (u.hvUnit m).n ∧
              (v.hvUnit m).i = (u.hvUnit m).i + 1 ∧
              ((v.hvUnit m).ramping = true ↔ (u.hvUnit m).i + 1 < (u.hvUnit m).n)))) ∧
    (∀ (s : State) (t : Tick) (k : Fin 128) (i : Nat) (a : Armed),
      (s.at t).CanTake k i (fun a => isCmd 0x10 1 a && a.unit ≤ 27 && (s.at t).hvOn) a →
      let x := (s.at t).markExecuted k i
      (x.mode = .safe → exec (.ramp t k i) s = .next ((x.incSat Reg.HV_CNT 31 16).report k i x.clk.tb)) ∧
      (x.mode ≠ .safe → x.hvSafeActive = true → exec (.ramp t k i) s = .next x) ∧
      (x.mode ≠ .safe → x.hvSafeActive = false →
        let r := (x.report k i x.clk.tb).startRamp a.act.unit (nbits a.act.param 15 0) (nbits a.act.param 31 16)
        exec (.ramp t k i) s = .next (r.modHv a.act.unit fun y => { y with ttAt := some r.clk.tb }))) ∧
    (∀ v0 v1 n : Nat, (0 < n → rampValue v0 v1 0 n = v0) ∧ ∀ i,
      (n ≤ i → rampValue v0 v1 i n = v1) ∧ min v0 v1 ≤ rampValue v0 v1 i n ∧ rampValue v0 v1 i n ≤ max v0 v1) ∧
    (∀ r, ((List.range 64).map (refHigh r)).sum = 32 * r) ∧
    ∀ (s : State) (r : Nat), s.hvOn = true →
      s.hvrefBall r = some (decide (s.clk.tb % 32768 < refHigh (s.hvValue r) (s.clk.tb / 32768)))) ∧
  (
    (∀ (s : State) (t : Tick) (n : Fin 64) (code : BitVec 12),
      let u := s.at t
      let ts := t - 3200
      let c := code.toNat
      let seen := u.setReg (Reg.SNS_AN n) (BitVec.ofNat 32 (c + 65536 * (ts / 51200 % 65536)))
      (u.hvOn = false ∨ ts % 51200 ≠ 3200 * (n.val % 16) → exec (.adcResult t n code) s = .next u) ∧
      (u.hvOn = true → ts % 51200 = 3200 * (n.val % 16) →
        (32 ≤ n.val → exec (.adcResult t n code) s = .next seen) ∧
        (24 ≤ n.val → n.val < 32 → ts < u.fus.lastTc → exec (.adcResult t n code) s = .next seen) ∧
        (24 ≤ n.val → n.val < 32 → u.fus.lastTc ≤ ts → ∃ v : State, exec (.adcResult t n code) s = .next v ∧
          v.regs = seen.regs ∧ v.mem = u.mem ∧
          let z := u.fusZone (n.val - 24)
          v.fusZone (n.val - 24) = { z with sum := z.sum + c, cnt := z.cnt + 1 }) ∧
        (n.val < 24 → u.hvSafeActive = false → u.af (Reg.HV_WIN n) 16 16 = 1 → (u.hvUnit n).chg = [] →
          let x : Int := toSigned 16 (u.af (Reg.HV_SGAIN n) 31 16)
          let off := ((c : Int) - x).natAbs
          let run := u.f (Reg.HV_SENSE n) 15 12 + 1
          let lim := u.af (Reg.HV_WIN n) 15 12
          (off ≤ u.af (Reg.HV_WIN n) 11 0 ∨ run < lim → ∃ v : State, exec (.adcResult t n code) s = .next v ∧
            v.f (Reg.HV_SENSE n) 11 0 = c ∧ v.mem = u.mem ∧ v.hv = u.hv ∧
            v.f (Reg.HV_SENSE n) 15 12 = if off ≤ u.af (Reg.HV_WIN n) 11 0 then 0 else run) ∧
          (u.af (Reg.HV_WIN n) 11 0 < off → lim ≤ run → ∃ v : State,
            exec (.adcResult t n code) s = .next (v.hvViolation n ts).checkStage ∧
            v.f (Reg.HV_SENSE n) 11 0 = c ∧ v.f (Reg.HV_SENSE n) 15 12 = 0 ∧ v.mem = u.mem)))) ∧
    ∀ (s : State) (t : Tick),
      let u := s.at t
      (t % 8192 ≠ 0 → exec (.acUpdate t) s = .next u) ∧
      (u.hvOn = true → t % 8192 = 0 → ∃ v : State, exec (.acUpdate t) s = .next v ∧ v.mem = u.mem ∧
        ∀ g < 4, let φ := (u.hvAc g).phase + u.af (Reg.HV_AC_INC (24 + g)) 31 0
          (v.hvAc g).phase = φ % 2 ^ 32 ∧ (v.hvAc g).band = (if 2 ^ 32 ≤ φ then u.thmBand else (u.hvAc g).band) ∧
          (2 ^ 32 ≤ φ → v.f Reg.HV_STATUS 6 4 = u.thmBand)) ∧
      let due := u.hvOn = true ∧ u.hvSafeActive = true ∧ u.hv.ended = false ∧
        u.hv.stageAt + max 1 (u.f Reg.HV_SAFE_CFG 15 0) * 6400000 ≤ u.clk.tb
      (¬ due → exec (.safeStageTimeout t) s = .next u) ∧
      (due → ∃ v : State, exec (.safeStageTimeout t) s = .next v ∧ v.fb Reg.HV_IRQ_STATUS 1 = true ∧ v.mem = u.mem ∧
        v.sbx.raised = u.sbx.raised ++ [{ src := srcHV, ev := 1, ts := u.now }] ∧
        (u.f Reg.HV_STATUS 2 0 = 7 → v.hvSafeActive = false ∧ v.f Reg.HV_STATUS 2 0 = 0 ∧
          v.fb Reg.HV_IRQ_STATUS 2 = true) ∧
        (u.f Reg.HV_STATUS 2 0 ≠ 7 → v.hvSafeActive = true ∧ v.hv.ended = true)))

/-- Fuser zones (R342–R344, R348–R350): ON is refused to an absent zone and outside the sensor's limits; OFF ends the
demand and is a cause for the sheets that claim the zone; CLEAR leaves FAULT. The control period forms the mean, the
temperature and READY_AT; the demand lies between 0 and 65,536, an induction zone's moves by at most SLEW, and the
integral holds while the demand is limited in the sense of the error. Mains cycles and the cut-off (R345, R346, R351):
the samples of ball ZC are filtered, and each accepted active edge begins a cycle at its first sample. Eight intervals
of 70 to 40 Hz give ZC_OK and the mean; another interval, or no edge for twice the mean, takes it away and ends the
gate pulses. The conducting set holds no more than MAX_ON zones, beyond those it already held, and only TRIAC zones in
RUN. The 64th consecutive sample beyond the threshold cuts every zone. -/
def Obligations.FuserAndMains : Prop :=
  (
    (∀ (s : State) (t : Tick) (z : Fin 8),
      let u := s.at t
      let zs := Reg.FUS_ZSTATE z
      u.fusOn = true →
      (u.zState z ≠ 0 → exec (.fusZcmdOn t z) s = .next u) ∧
      (u.zState z = 0 → u.f (Reg.FUS_ZCFG z) 1 0 = 0 ∨ u.sensorOk z = false →
        exec (.fusZcmdOn t z) s = .next (u.setB zs 2 true)) ∧
      (u.zState z = 0 → u.f (Reg.FUS_ZCFG z) 1 0 ≠ 0 → u.sensorOk z = true →
        ∃ v : State, exec (.fusZcmdOn t z) s = .next v ∧ v.zState z = 1 ∧ (v.fusZone z).run = 0 ∧
          (v.fusZone z).acc = 0 ∧ v.mem = u.mem ∧ ∀ a, a ≠ zs → v.reg a = u.reg a) ∧
      (u.zState z ≠ 1 → exec (.fusZcmdOff t z) s = .next u) ∧
      (u.zState z = 1 → ∃ v : State,
        exec (.fusZcmdOff t z) s = .next (v.fuserCauses fun sh => sh.claimAt kFUSER z u.clk.tb) ∧ v.zState z = 0 ∧
        v.f (Reg.FUS_DEMAND z) 16 0 = 0 ∧ (v.fusZone z).da = 0 ∧ v.mem = u.mem ∧
        (v.fusZone z).gate = if u.heatLevel z then [(u.clk.tb, nextMultiple 32 u.clk.tb)] else []) ∧
      (u.zState z = 2 → u.sensorOk z = true → ∃ v : State, exec (.fusZcmdClear t z) s = .next v ∧ v.zState z = 0 ∧
        v.mem = u.mem ∧ ∀ a, a ≠ zs → v.reg a = u.reg a) ∧
      (u.zState z ≠ 2 ∨ u.sensorOk z = false → exec (.fusZcmdClear t z) s = .next u)) ∧
    (∀ (s : State) (t : Tick) (k : Fin 128) (i : Nat) (a : Armed),
      let u := s.at t
      let x := u.markExecuted k i
      let due := fun n => u.CanTake k i (fun a => isCmd 0x11 n a && a.unit ≤ 7 && u.fusOn) a
      let r := x.report k i x.clk.tb
      let z := a.act.unit
      (due 1 → exec (.setpoint t k i) s = .next ((r.hold (Reg.FUS_SP z) (BitVec.ofNat 32 (a.act.param % 65536))).modZone z
        fun y => { y with ttSp := some x.clk.tb })) ∧
      (due 2 → exec (.fusTtOn t k i) s = .next ((if x.onRefused z then x else r).zoneOn z)) ∧
      (due 3 → exec (.fusTtOff t k i) s = .next (r.zoneOff z))) ∧
    (∀ (s : State) (t : Tick),
      let u := s.at t
      (u.fusOn = false ∨ t % u.ctlPeriod ≠ 0 → exec (.fuserControlPeriod t) s = .next u) ∧
      (u.fusOn = true → t % u.ctlPeriod = 0 → u.openSheets = [] → (∀ z < 8, u.zState z = 0 ∧
          (u.fusZone z).cnt ≠ 0 ∧ (u.fusZone z).sum / (u.fusZone z).cnt < 4096) →
        ∃ v : State, exec (.fuserControlPeriod t) s = .next v ∧ v.mem = u.mem ∧ v.fus.lastTc = u.clk.tb ∧
          ∀ z < 8, let m := (u.fusZone z).sum / (u.fusZone z).cnt
            v.reg (Reg.FUS_TEMP z) = BitVec.ofNat 32 (fromSigned 16 (u.linTemp z m) + 65536 * m) ∧
            (v.fusZone z).sum = 0 ∧ (v.fusZone z).cnt = 0 ∧ v.zState z = 0 ∧
            v.pair (Reg.FUS_READY_LO z) (Reg.FUS_READY_HI z) = 2 ^ 64 - 1)) ∧
    ∀ (s : State) (z : Nat) (temp : Int), z < 8 → (s.fusZone z).da ≤ 65536 →
      let v := s.zoneControl z temp
      let e := s.fusSp z - temp
      let out := floorDiv ((s.af (Reg.FUS_ZGAIN z) 15 0 : Int) * e) 16 + (s.fusZone z).run
      let n := v.f (Reg.FUS_DEMAND z) 16 0
      n ≤ 65536 ∧ (s.f (Reg.FUS_ZCFG z) 1 0 ≠ 2 → (n : Int) = max 0 (min 65536 out)) ∧
      (s.f (Reg.FUS_ZCFG z) 1 0 = 2 → n ≤ (s.fusZone z).da + s.af (Reg.FUS_SLEW z) 16 0 ∧
        (s.fusZone z).da ≤ n + s.af (Reg.FUS_SLEW z) 16 0) ∧
      (v.fusZone z).dOld = s.f (Reg.FUS_DEMAND z) 16 0 ∧
      ((65536 < out ∧ 0 < e) ∨ (out < 0 ∧ e < 0) → (v.fusZone z).run = (s.fusZone z).run)) ∧
  (
    (∀ (s : State) (t : Tick) (ls : List (Bool × Nat)),
      let u := s.at t
      (u.fusOn = false → exec (.zcEdge t ls) s = .next u ∧ exec (.zcLoss t) s = .next u) ∧
      (u.fusOn = true → exec (.zcEdge t ls) s = .next (u.zcSamples ls) ∧
        (∀ (v : Bool) (n : Nat), ls = [(v, n)] → u.fus.zc.raw ≠ v ∨ u.fus.zc.run = 0 → u.fus.zc.level.getD false = !v →
          u.f (Reg.FUS_ZC) 15 0 < n → ∃ y : State, y.regs = u.regs ∧ y.mem = u.mem ∧ y.fus = { u.fus with zc := y.fus.zc } ∧
            y.fus.zc.level = some v ∧
            u.zcSamples ls = if v = u.fb Reg.FUS_ZC 16 then y else y.zcEdge (firstSample 32 u.clk.tb ls)) ∧
        ∀ e, u.fus.edge = some e →
          let due := u.fus.lost = false ∧ u.fus.ivals.length = 8 ∧ e + 2 * (u.reg Reg.FUS_MAINS).toNat ≤ u.clk.tb
          (due → exec (.zcLoss t) s = .next ({ u with fus := { u.fus with lost := true } }.zcLost)) ∧
          (¬ due → exec (.zcLoss t) s = .next u)) ∧
      (u.fus.edge = none → exec (.zcLoss t) s = .next u)) ∧
    (∀ (u : State),
      let v := u.zcLost
      v.fb Reg.FUS_STATUS 0 = false ∧ v.fus.on = u.fus.on ∧ v.fb Reg.FUS_IRQ_STATUS 3 = true ∧
      v.f Reg.FUS_CNT 31 16 = min 65535 (u.f Reg.FUS_CNT 31 16 + 1) ∧
      (∀ z ∈ u.triacZones, (v.fusZone z).gate = []) ∧ v.mem = u.mem ∧
      v.sbx.raised = u.sbx.raised ++ [{ src := srcFUS, ev := 3, ts := u.now }]) ∧
    (∀ (s : State) (x : Tick),
      let u := s.applyAll [Reg.FUS_GATE, Reg.FUS_SEQ]
      let v := s.zcEdge x
      v.fus.edge = some x ∧ v.fus.lost = false ∧ v.mem = s.mem ∧
      (u.fus.edge = none → u.fb Reg.FUS_STATUS 0 = false → v.regs = u.regs ∧ v.fus.on = u.fus.on ∧
        v.fus.changes = (0 :: u.fus.changes).take 63) ∧
      ∀ e, u.fus.edge = some e →
        (zcRange (x - e) = false → v.fb Reg.FUS_STATUS 0 = false ∧ v.fb Reg.FUS_IRQ_STATUS 3 = true ∧
          v.fus.on = u.fus.on ∧ v.fus.changes = (0 :: u.fus.changes).take 63) ∧
        (zcRange (x - e) = true → u.fus.ivals.length = 8 → (∀ d ∈ u.fus.ivals.take 7, zcRange d = true) →
          ∃ y : State, v = y.mainsCycle x ∧ v.fb Reg.FUS_STATUS 0 = true ∧
            v.reg Reg.FUS_MAINS = BitVec.ofNat 32 ((x - e + (u.fus.ivals.take 7).sum) / 8))) ∧
    (∀ (acc : Nat → Int) (zones prev : List Nat) (maxOn step left : Nat),
      let r := conduct acc zones prev maxOn step left
      r.1.length ≤ max maxOn prev.length ∧ (∀ z ∈ r.1, z ∈ zones) ∧
      (∀ z ∈ r.1, z ∉ prev → 65536 ≤ acc z)) ∧
    ∀ (s : State) (t : Tick) (z : Fin 8) (code : BitVec 12),
      let u := s.at t
      let th := u.f (Reg.FUS_OT z) 11 0
      let beyond := u.fb (Reg.FUS_OT z) 13 = true ∧
        (if u.fb (Reg.FUS_OT z) 12 then code.toNat ≤ th else th ≤ code.toNat)
      (¬ beyond → exec (.otSample t z code) s = .next (u.modZone z fun x => { x with ot := 0 })) ∧
      (beyond → (u.fusZone z).ot < 63 → exec (.otSample t z code) s =
        .next (u.modZone z fun x => { x with ot := (u.fusZone z).ot + 1 })) ∧
      (beyond → (u.fusZone z).ot = 63 → ∃ v : State, exec (.otSample t z code) s = .next v ∧ v.fusCut = true ∧
        v.fb Reg.FUS_STATUS (8 + z) = true ∧ v.otcutBall = false ∧
        ∀ y < 8, v.zState y = 3 ∧ v.heatBall y = some false))

/-- Sense inputs and outputs (R353–R355): FILT + 1 equal samples in a row change an input, at the first of them. An
accepted edge sets the level, counts, and is timestamped; it closes the first open window of its kind that covers it.
WINDOW opens a window and reports, unless its length is 0 or four are open; a window unmet at its close plus the
filter's delay ends late. SET and PULSE write outputs; a pulse's output returns at its end; a Timetable value stands
over firmware's at one edge. -/
def Obligations.SensesAndOutputs : Prop :=
  (∀ (f : InFilter) (filt period start n : Nat) (v : Bool), f.raw ≠ v ∨ f.run = 0 →
    (n ≤ filt → (f.changes filt period (!v) start [(v, n)]).2 = []) ∧
    (filt < n → (f.changes filt period (!v) start [(v, n)]).2 = [(v, start)]) ∧
    (f.changes filt period v start [(v, n)]).2 = []) ∧
  (∀ (s : State) (t : Tick) (n : Fin 96) (z : Bool × Nat) (ls : List (Bool × Nat)),
    let u := s.at t
    let low := u.fb (Reg.SNS_IN_CFG n) 16
    (u.snsOn = false → exec (.senseEdge t n z ls) s = .next u) ∧
    (u.snsOn = true → exec (.senseEdge t n z ls) s = .next (u.senseSamples n (z :: ls)) ∧
      ∀ (v : Bool) (m : Nat), z = (v, m) → ls = [] → (Tab.get {} u.sns.inp n).raw ≠ v ∨ (Tab.get {} u.sns.inp n).run = 0 →
        ∃ y : State, y.regs = u.regs ∧ y.mem = u.mem ∧ y.sns = { u.sns with inp := y.sns.inp } ∧
          u.senseSamples n [z] =
            if u.fb (Reg.SNS_IN_STATE n) 0 = !(v != low) ∧ u.f (Reg.SNS_IN_CFG n) 15 0 < m then
              y.senseEdge n (v != low) (firstSample 32 u.clk.tb [z])
            else y)) ∧
  (∀ (u : State) (n : Fin 96) (lead : Bool) (x : Nat), x < 2 ^ 64 →
      let done := fun y : State => if lead then y.limitActivate n else y
      let seen := fun v : State => v.fb (Reg.SNS_IN_STATE n) 0 = lead ∧ v.mem = u.mem ∧
        v.f (Reg.SNS_IN_STATE n) 31 16 = min 65535 (u.f (Reg.SNS_IN_STATE n) 31 16 + 1) ∧
        (lead = true → v.pair (Reg.SNS_TS_LEAD_LO n) (Reg.SNS_TS_LEAD_HI n) = x) ∧
        (lead = false → v.pair (Reg.SNS_TS_TRAIL_LO n) (Reg.SNS_TS_TRAIL_HI n) = x)
      (u.sns.win = [] → ∃ v : State, u.senseEdge n lead x = done v ∧ seen v ∧ v.sns = u.sns) ∧
      ∀ w, u.sns.win = [w] → w.input = n → w.trail = !lead →
        (w.start ≤ x → x < w.stop → ∃ v : State, u.senseEdge n lead x = done v ∧ seen v ∧
          v.sns.win = [] ∧ v.f (Reg.SNS_IN_STATE n) 5 4 = 1) ∧
        (x < w.start → w.start ≤ x + w.guard → ∃ v : State,
          u.senseEdge n lead x = done (v.windowMissed w false) ∧ seen v ∧ v.sns = u.sns) ∧
        (w.start ≤ x ∧ w.stop ≤ x ∨ x + w.guard < w.start → ∃ v : State, u.senseEdge n lead x = done v ∧ seen v ∧ v.sns = u.sns)) ∧
  (∀ (s : State) (t : Tick) (n : Fin 96),
    let u := s.at t
    u.snsOn = true →
    (u.sns.win = [] → exec (.windowLateExpiry t n) s = .next u) ∧
    ∀ w, u.sns.win = [w] → w.input = n →
      let due := w.stop + (u.f (Reg.SNS_IN_CFG n) 15 0 + 1) * 32 ≤ u.clk.tb
      (due → exec (.windowLateExpiry t n) s = .next (u.windowMissed w true)) ∧
      (¬ due → exec (.windowLateExpiry t n) s = .next u)) ∧
  (∀ (s : State) (t : Tick) (k : Fin 128) (i : Nat) (a : Armed),
    let u := s.at t
    let x := u.markExecuted k i
    let len := nbits a.act.param 31 16
    let r := x.report k i x.clk.tb
    let o := a.act.unit - 0x100
    let level := a.act.param % 2 == 1
    (u.CanTake k i (fun a => isCmd 0x12 1 a && a.unit ≤ 95 && u.snsOn) a →
      let n := a.act.unit
      let w : SnsWin := { input := n, sheet := k, claim := ((x.sheet k).map fun sh => sh.senseClaim n).getD noDetail
                          trail := level, start := x.clk.tb, stop := x.clk.tb + 6400 * len
                          guard := 6400 * nbits a.act.param 15 1 }
      (len = 0 ∨ 4 ≤ (x.sns.win.filter fun w => w.input == n).length → exec (.window t k i) s = .next x) ∧
      (len ≠ 0 → (x.sns.win.filter fun w => w.input == n).length < 4 →
        x.sheetState k = stCOMMITTED ∨ x.sheetState k = stRUNNING → exec (.window t k i) s =
          .next ({ x with sns := { x.sns with win := x.sns.win ++ [w] } }.report k i x.clk.tb)) ∧
      (len ≠ 0 → (x.sns.win.filter fun w => w.input == n).length < 4 →
        x.sheetState k ≠ stCOMMITTED → x.sheetState k ≠ stRUNNING → exec (.window t k i) s = .next r)) ∧
    (u.CanTake k i (fun a => isCmd 0x12 2 a && 0x100 ≤ a.unit && a.unit ≤ 0x13F && u.snsOn) a →
      exec (.set t k i) s = .next (r.ttOut o level none)) ∧
    (u.CanTake k i (fun a => isCmd 0x12 3 a && 0x100 ≤ a.unit && a.unit ≤ 0x13F && u.snsOn) a →
      (len = 0 → exec (.pulse t k i) s = .next x) ∧
      (len ≠ 0 → exec (.pulse t k i) s =
        .next (r.ttOut o level (some (nextMultiple 32 x.clk.tb + 6400 * len)))))) ∧
  (∀ (s : State) (n : Nat) (level : Bool) (p : Option Tick), n < 64 →
    let v := s.ttOut n level p
    v.snsOut n = level ∧ Tab.get none v.sns.pulse n = p ∧ v.mem = s.mem ∧ ∀ m < 64, m ≠ n → v.snsOut m = s.snsOut m) ∧
  ∀ (s : State) (t : Tick) (high : Bool) (w : Word) (n : Fin 64),
    let u := s.at t
    u.snsOn = true →
    (∃ v : State, exec (.snsOutWrite t high w) s = .next v ∧ v.mem = u.mem ∧
      ∀ i < 32, let m := if high then 32 + i else i
        let other := if high then i else 32 + i
        v.snsOut other = u.snsOut other ∧
        (Tab.get none u.sns.ttOut m = some u.clk.tb → v.snsOut m = u.snsOut m) ∧
        (Tab.get none u.sns.ttOut m ≠ some u.clk.tb → v.snsOut m = w.getLsbD i ∧ Tab.get none v.sns.pulse m = none)) ∧
    (∀ e, Tab.get none u.sns.pulse n = some e →
      (e ≤ u.clk.tb → ∃ v : State, exec (.pulseEnd t n) s = .next v ∧ v.snsOut n = !u.snsOut n ∧
        Tab.get none v.sns.pulse n = none ∧ v.mem = u.mem ∧ ∀ m < 64, m ≠ n.val → v.snsOut m = u.snsOut m) ∧
      (u.clk.tb < e → exec (.pulseEnd t n) s = .next u)) ∧
    (Tab.get none u.sns.pulse n = none → exec (.pulseEnd t n) s = .next u)

/-! ### DMA and Platforms -/

/-- Rings and fetching (R360, R361, R371): a fetch at the edge of a write of HEAD does not see it; a fetch takes the
oldest new descriptor of each channel that may fetch and moves TAIL; EN 0 returns what was fetched and not begun.
ABORT ends the running descriptor with status 0x30 at its next unit. Completion (R369, R370): a record is written at
the head of the completion queue, or held while the queue is full and released by a write of its TAIL; it counts, sets
the channel's bit for flag 0, and an error is shown and may stop the channel. -/
def Obligations.DmaRingsAndCompletion : Prop :=
  (
    ∀ (s : State) (t : Tick) (c : Fin 32) (w : Word),
      let u := s.at t
      let x := u.dmaCh c
      (u.domOn 2 = true →
        (∃ v : State, exec (.dmaRingHeadWrite t c w) s = .next v ∧ v.f (Reg.DMA_RING_HEAD c) 9 0 = w.toNat % 1024 ∧
          v.headSeen c = u.headSeen c ∧ (v.dmaCh c).out = x.out ∧ (v.dmaCh c).ex = x.ex ∧ v.mem = u.mem ∧
          ∀ a, a ≠ Reg.DMA_RING_HEAD c → v.reg a = u.reg a) ∧
        ((∀ d < 32, u.dmaFetches d = false) → exec (.descriptorFetch t) s = .next u) ∧
        ((∀ d < 32, u.dmaFetches d = decide (d = c.val)) → u.dmaOutstanding < 128 →
          exec (.descriptorFetch t) s = .next (u.dmaFetch c)) ∧
        (∃ v : State, exec (.dmaEnWrite t c true) s = .next v ∧ v.fb (Reg.DMA_CH_CFG c) 0 = true ∧
          v.dmaCh c = { x with halted := false } ∧ v.mem = u.mem) ∧
        (∃ v : State, exec (.dmaEnWrite t c false) s = .next v ∧ v.fb (Reg.DMA_CH_CFG c) 0 = false ∧
          v.dmaCh c = { x with halted := false, out := [] } ∧ v.mem = u.mem ∧
          (∀ d rest, x.out = d :: rest → v.f (Reg.DMA_RING_TAIL c) 9 0 = d.idx % 1024) ∧
          (x.out = [] → v.f (Reg.DMA_RING_TAIL c) 9 0 = u.f (Reg.DMA_RING_TAIL c) 9 0)) ∧
        (∃ v : State, exec (.dmaAbort t c) s = .next v ∧ v.fb (Reg.DMA_CH_CFG c) 0 = false ∧ (v.dmaCh c).out = [] ∧
          v.mem = u.mem ∧ (x.ex = none → (v.dmaCh c).ex = none) ∧
          ∀ e, x.ex = some e → (v.dmaCh c).ex =
            some (if e.fin.isNone then { e with fin := some (0x30, 16 * e.d.unitAt e.done) } else e))) ∧
      (u.domOn 2 = false → exec (.dmaRingHeadWrite t c w) s = .next u ∧ exec (.descriptorFetch t) s = .next u ∧
        exec (.dmaEnWrite t c true) s = .next u ∧ exec (.dmaAbort t c) s = .next u) ∧
      (∀ bs y, u.readMem iDMA (256 * (u.reg (Reg.DMA_RING_BASE c)).toNat + 32 * u.f (Reg.DMA_RING_TAIL c) 9 0) 32 =
          (.ok bs, y) → y.regs = u.regs → y.dma = u.dma →
        let v := u.dmaFetch c
        (v.dmaCh c).out = x.out ++ [{ idx := u.f (Reg.DMA_RING_TAIL c) 9 0, bytes := bs }] ∧ (v.dmaCh c).ex = x.ex ∧
        v.f (Reg.DMA_RING_TAIL c) 9 0 = (u.f (Reg.DMA_RING_TAIL c) 9 0 + 1) % 2 ^ u.f (Reg.DMA_RING_CFG c) 3 0 % 1024)) ∧
  (
    (∀ (s : State) (t : Tick) (c : Fin 32) (w : Word),
      let u := s.at t
      let x := u.dmaCh c
      let tailed := u.setF (Reg.DMA_CQ_TAIL c) 11 0 w.toNat
      (u.domOn 2 = false → exec (.descriptorComplete t c) s = .next u ∧ exec (.dmaCqTailWrite t c w) s = .next u) ∧
      (u.domOn 2 = true →
        (x.ex = none → x.out = [] → exec (.descriptorComplete t c) s = .next u) ∧
        (∀ e, x.ex = some e →
          (e.fin = none → exec (.descriptorComplete t c) s = .next u) ∧
          ∀ st off, e.fin = some (st, off) →
            (u.dmaCqFull c = true → exec (.descriptorComplete t c) s = .next (u.setDmaCh c { x with stall := true })) ∧
            (u.dmaCqFull c = false → exec (.descriptorComplete t c) s = .next (u.dmaWriteRecord c e st off)) ∧
            (x.stall = true → tailed.dmaCqFull c = false →
              exec (.dmaCqTailWrite t c w) s = .next (tailed.dmaWriteRecord c e st off))) ∧
        (x.stall = false → exec (.dmaCqTailWrite t c w) s = .next tailed))) ∧
    ∀ (s : State) (c : Nat) (e : DmaExec) (st off : Nat) (y : State), c < 32 → e.d.bad = none → st < 256 →
      ({ s with fresh := s.fresh + 1 } : State).writeMem iDMA (256 * (s.reg (Reg.DMA_CQ_BASE c)).toNat + 16 * s.cqHead c)
        (dmaRecord e.d.tag st c e.d.idx off) = (none, y) → y.regs = s.regs → y.dma = s.dma →
      let v := s.dmaWriteRecord c e st off
      v.mem = y.mem ∧ v.f (Reg.DMA_CQ_HEAD c) 11 0 = (s.cqHead c + 1) % s.cqSize c % 4096 ∧
      v.reg (Reg.DMA_CH_CNT c) = BitVec.ofNat 32 (min (2 ^ 32 - 1) ((s.reg (Reg.DMA_CH_CNT c)).toNat + 1)) ∧
      (v.dmaCh c).ex = none ∧ (v.dmaCh c).stall = false ∧ (e.d.flag 0 = true → v.fb Reg.DMA_IRQ_CQ c = true) ∧
      (st < 0x10 → (v.dmaCh c).out = (s.dmaCh c).out ∧ v.fb (Reg.DMA_CH_CFG c) 0 = s.fb (Reg.DMA_CH_CFG c) 0) ∧
      (0x10 ≤ st → v.fb Reg.DMA_IRQ_ERR c = true ∧ v.f (Reg.DMA_CH_STATUS c) 23 16 = st ∧
        (s.fb (Reg.DMA_CH_CFG c) 1 = true → v.fb (Reg.DMA_CH_CFG c) 0 = false ∧ (v.dmaCh c).halted = true ∧
          (v.dmaCh c).out = [])))

/-- Descriptors (R364–R368): a descriptor that comes to execute is checked; COPY moves a unit from its source to its
destination, FILL stores its key twice, COMPARE finds the first byte at which the sides differ, and a failure ends the
descriptor with its status at its unit. -/
def Obligations.DmaDescriptors : Prop :=
  (∀ (s : State) (t : Tick) (c : Fin 32) (n : Nat) (h : Bool),
    let u := s.at t
    let x := u.dmaCh c
    let row := fun op => if op = 1 then exec (.copy t c n h) s else if op = 2 then exec (.dmaFill t c n h) s
      else exec (.compare t c n h) s
    ∀ op, op = 1 ∨ op = 2 ∨ op = 3 →
      (u.domOn 2 = false ∨ x.turn op = false → row op = .next u) ∧
      (∀ d rest, u.domOn 2 = true → x.ex = none → x.out = d :: rest → d.bad = none → d.op = op →
        ∀ e, u.dmaCheck d = some e → ∃ v : State, row op = .next v ∧ v.mem = u.mem ∧ v.regs = u.regs ∧
          let r : DmaExec := { d := d, lastAt := u.clk.tb, fin := some (e, 0xFFFFFFFF) }
          v.dmaCh c = { x with out := rest, ex := some r }) ∧
      (∀ d rest, u.domOn 2 = true → x.ex = none → x.out = d :: rest → d.bad = none → d.op = op →
        u.dmaCheck d = none → n = 0 → h = false → ∃ v : State, row op = .next v ∧ v.mem = u.mem ∧ v.regs = u.regs ∧
          v.dmaCh c = { x with out := rest, ex := some { d := d, lastAt := u.clk.tb } }) ∧
      ∀ e y f, u.domOn 2 = true → x.ex = some e → e.d.bad = none → e.d.op = op → e.fin = none → n = 1 → h = false →
        u.dmaUnit e.d (e.d.unitAt e.done) = (f, y) →
        let last := if e.d.len / 16 ≤ e.done + 1 then some (0, 0xFFFFFFFF) else none
        let r : DmaExec := if f.isSome then { e with fin := f }
          else { e with done := e.done + 1, lastAt := y.clk.tb, fin := last }
        row op = .next (y.setDmaCh c { y.dmaCh c with ex := some r })) ∧
  (∀ (s : State) (d : DmaDesc) (i : Nat), d.flag 3 = false → d.flag 4 = false →
    let sa := d.srcSide.at (16 * i)
    let da := d.dstSide.at (16 * i)
    (∀ bs y, s.readMem iDMA sa 16 = (.ok bs, y) →
      (∀ z, d.op = 1 → y.writeMem iDMA da bs = (none, z) → s.dmaUnit d i = (none, z)) ∧
      (∀ e z, d.op = 1 → y.writeMem iDMA da bs = (some e, z) → s.dmaUnit d i = (some (0x20, 16 * i), z)) ∧
      (∀ cs z, d.op = 3 → y.readMem iDMA da 16 = (.ok cs, z) →
        s.dmaUnit d i = ((firstDiff bs cs 0).map fun k => (0x01, 16 * i + k), z))) ∧
    (∀ z, d.op = 2 → s.writeMem iDMA da (bytesLE 8 d.src ++ bytesLE 8 d.src) = (none, z) →
      s.dmaUnit d i = (none, z)) ∧
    (∀ e y, d.op = 1 ∨ d.op = 3 → s.readMem iDMA sa 16 = (.error e, y) →
      s.dmaUnit d i = (some (if e = .ecc then 0x21 else 0x20, 16 * i), y))) ∧
  ∀ (as bs : List Byte) (k : Nat), firstDiff as bs 0 = some k →
    as[k]? ≠ bs[k]? ∧ ∀ j < k, as[j]? = bs[j]?

/-- Circular and linear sides (R365): byte i of a circular side with wrap size Z lies at B + ((o + i) mod Z), of a
linear side at A + i, and the runs of a side are just those bytes; a LEN over Z and a circular host-space side fail
the checks. -/
def Obligations.CircularSides : Prop :=
  (∀ (a l i : Nat) (h : Bool),
    let z := 2 ^ l
    let o := a % z
    DmaSide.at { addr := a, wrap := some l, host := h } i = (a - o) + (o + i) % z) ∧
  (∀ (a i : Nat) (h : Bool), DmaSide.at { addr := a, wrap := none, host := h } i = a + i) ∧
  (∀ (x : DmaSide) (len b : Nat), 0 < len → (∀ l, x.wrap = some l → len ≤ 2 ^ l) →
    ((∃ p ∈ x.runs len, p.1 ≤ b ∧ b < p.1 + p.2) ↔ ∃ i < len, b = x.at i)) ∧
  ∀ (s : State) (d : DmaDesc),
    (d.flag 1 = true → (2 ^ d.fld 2 1 < d.len ∨ d.flag 3 = true) → s.dmaCheck d = some 0x10) ∧
    (d.flag 2 = true → (2 ^ d.fld 3 1 < d.len ∨ d.flag 4 = true) → s.dmaCheck d = some 0x10)

/-- Platforms (R374–R378): only a Sinel-G core writes PLT_CH_CFG, and the endpoints of a channel that holds words
stay; an access to an unbound channel, by no endpoint of it, or into a full queue is refused and recorded; a word
enters its queue two REF edges on, where a WAKE bit raises its endpoint's wake event, and leaves it in order, but not
at the edge of its arrival. STATUS and FULL counting the words on their way is the model's choice: log entry 41. -/
def Obligations.Platforms : Prop :=
  ∀ (s : State) (t : Tick) (ini : Fin 7) (c : Fin 64) (w : Word),
    let u := s.at t
    let a := storedEndpoint (bits w 2 0)
    let b := storedEndpoint (bits w 6 4)
    let busy := u.pltCount c true + u.pltCount c false ≠ 0
    let refused := fun (y : State) (bit ev : Nat) => y.fb Reg.PLT_ERR bit = true ∧ y.f Reg.PLT_ERR 13 8 = c ∧
      y.sbx.raised = u.sbx.raised ++ [{ src := srcPLT, ev := ev, ts := u.now }] ∧ y.plt = u.plt ∧ y.mem = u.mem
    (1 < ini.val → exec (.pltChCfgWrite t ini c w) s = .next (u.setAcc ini { err := .bus })) ∧
    (ini.val ≤ 1 → busy → (a ≠ u.pltA c ∨ b ≠ u.pltB c) →
      exec (.pltChCfgWrite t ini c w) s = .next ((u.raise srcPLT 2).setAcc ini {})) ∧
    (ini.val ≤ 1 → ¬ busy → ∃ v : State, exec (.pltChCfgWrite t ini c w) s = .next v ∧ v.pltA c = a ∧ v.pltB c = b ∧
      v.f (Reg.PLT_CH_CFG c) 11 8 = bits w 11 8 ∧ v.plt = u.plt ∧ v.mem = u.mem) ∧
    (u.pltBound c = false →
      (∃ v : State, exec (.pltTx t ini c w) s = .next v ∧ refused v 2 0) ∧
      (∀ n, ∃ v : State, exec (.pltPop t ini c n) s = .next v ∧ refused v 2 0) ∧
      ∀ i, ∃ v : State, exec (.pltRxRead t ini c i) s = .next v ∧ refused v 2 0 ∧
        v.acc = (u.setAcc ini { value := 0 }).acc) ∧
    (u.pltBound c = true → (endpointOf ini = none ∨ ∃ e, endpointOf ini = some e ∧ e ≠ u.pltA c ∧ e ≠ u.pltB c) →
      ∃ v : State, exec (.pltTx t ini c w) s = .next v ∧ refused v 0 0) ∧
    (∀ e, u.pltBound c = true → endpointOf ini = some e → e = u.pltA c ∨ e = u.pltB c →
      let toB := decide (u.pltA c = e)
      (8 ≤ u.pltCount c toB → ∃ v : State, exec (.pltTx t ini c w) s = .next v ∧ refused v 1 1) ∧
      (u.pltCount c toB < 8 → ∃ v : State, exec (.pltTx t ini c w) s = .next v ∧ v.plt.ch = u.plt.ch ∧ v.mem = u.mem ∧
        v.plt.fly = u.plt.fly ++ [{ ch := c, toB := toB, word := w, due := (u.now / 256 + 2) * 256 }] ∧
        v.pltCount c toB = u.pltCount c toB + 1) ∧
      (∀ i, exec (.pltRxRead t ini c i) s =
        .next (u.setAcc ini { value := ((u.pltIncoming e c).getD i.val (0, 0)).1.toNat })) ∧
      ((if u.pltA c = e then u.pltB c else u.pltA c) ≠ 3 → ∀ n, ∃ v : State, exec (.pltPop t ini c n) s = .next v ∧
        v.pltIncoming e c = (u.pltIncoming e c).drop (min n.val (u.pltRipe e c).length) ∧ v.plt.fly = u.plt.fly ∧ v.mem = u.mem)) ∧
    ∀ toB : Bool,
      ((∀ f ∈ u.plt.fly, f.ch = c.val → f.toB ≠ toB) → exec (.pltWordArrive t c toB) s = .next u) ∧
      ∀ f, u.plt.fly.find? (fun f => f.ch == c.val && f.toB == toB) = some f →
        (u.now < f.due → exec (.pltWordArrive t c toB) s = .next u) ∧
        (f.due ≤ u.now → ∃ v : State,
          exec (.pltWordArrive t c toB) s =
            .next (match endpointDom (if toB then u.pltB c else u.pltA c) with
              | some d => if u.fb (Reg.PLT_CH_CFG c) (if toB then 11 else 10) then v.wakeEvent d else v
              | none => v) ∧
          v.plt.fly = u.plt.fly.erase f ∧ v.mem = u.mem ∧
          (toB = true → (v.pltCh c).ab = (u.pltCh c).ab ++ [(f.word, f.due)] ∧ (v.pltCh c).ba = (u.pltCh c).ba) ∧
          (toB = false → (v.pltCh c).ba = (u.pltCh c).ba ++ [(f.word, f.due)] ∧ (v.pltCh c).ab = (u.pltCh c).ab))

/-! ### Signal Box -/

/-- Events (R385–R388, R393): a step begins by ending the NMI service that is over and the shadows that have expired.
One event is taken at a time, in the order of timestamp, then source, a request last; a masked event only counts, a
consequential one is recorded as such, and any other puts its source into the fault state, is recorded, and gets its
reaction — in which an NMI while none can be delivered becomes a chip reset. -/
def Obligations.SignalBoxEvents : Prop :=
  (∀ (es : List Raised) (e : Raised), firstRaised es = some e → e ∈ es ∧ ∀ f ∈ es, f.before e = false) ∧
  (∀ (s : State) (t : Tick),
    let u := (s.at t).sbxStep1
    (u.sbx.raised = [] → exec (.sbxEventTake t) s = .next u) ∧
    ∀ e, firstRaised u.sbx.raised = some e →
      (u.now < (e.ts / 256 + 2) * 256 → exec (.sbxEventTake t) s = .next u) ∧
      ((e.ts / 256 + 2) * 256 ≤ u.now → exec (.sbxEventTake t) s =
        .next ({ u with sbx := { u.sbx with raised := u.sbx.raised.erase e } }.takeEvent e))) ∧
  (∀ (s : State),
    let v := s.sbxStep1
    v.sbx.nmi = s.nmiSettle.sbx.nmi ∧ (∀ n ∈ v.sbx.nmi, s.gcoreRuns n = true ∧
      ((Tab.get {} s.gcores n).nmi = true ∨ (Tab.get {} s.gcores n).nmiService = true)) ∧
    v.fb Reg.SBX_NMI 7 = !v.sbx.nmi.isEmpty ∧ v.mem = s.mem ∧ v.sbx.raised = s.sbx.raised ∧
    ∀ i < 64, v.sbxInRst i = (s.sbxInRst i && match (Tab.get none s.sbx.rst i).bind (·.shadow) with
      | some e => decide (s.refEdge < e)
      | none => true)) ∧
  ∀ (s : State) (e : Raised), e.src < 64 → e.ev < 16 → e.brst = false →
    let cfg := Reg.SBX_SRC_CFG e.src
    let cnt := Reg.SBX_SRC_CNT e.src
    let v := s.takeEvent e
    let h := s.f Reg.SBX_HIST_HEAD 4 0
    let entry := fun info => v.reg (Reg.SBX_HIST_W0 h) = BitVec.ofNat 32 e.ts ∧
      v.reg (Reg.SBX_HIST_W1 h) = BitVec.ofNat 32 (e.ts / 2 ^ 32) ∧ v.reg (Reg.SBX_HIST_W2 h) = BitVec.ofNat 32 info ∧
      v.reg (Reg.SBX_HIST_W3 h) = BitVec.ofNat 32 s.lineId ∧ v.f Reg.SBX_HIST_HEAD 4 0 = (h + 1) % 32 ∧ v.mem = s.mem
    (s.fb cfg (16 + e.ev) = false → v = s.incSat cnt 31 24) ∧
    (s.fb cfg (16 + e.ev) = true → s.consequential e = true →
      entry (histInfo e.src e.ev 0 false true false false false false) ∧
      v.f cnt 23 12 = min 4095 (s.f cnt 23 12 + 1) ∧ v.sbxActive e.src = s.sbxActive e.src) ∧
    (s.fb cfg (16 + e.ev) = true → s.consequential e = false → s.fb cfg 4 = false → s.sbx.chip = false →
      let act := s.f cfg 2 0
      let rep := s.sbxActive e.src
      (act < 2 → entry (histInfo e.src e.ev (if rep then 0 else act) (s.fb cfg 3) false rep false false false) ∧
        v.sbxActive e.src = true ∧ v.f cnt 11 0 = min 4095 (s.f cnt 11 0 + 1) ∧
        Tab.get 0 v.sbx.last e.src = e.ts ∧ (s.fb cfg 3 = true → v.sbx.errLow = true)) ∧
      (act = 2 → rep = false → s.sbx.nmi = [] → s.nmiCores ≠ [] →
        entry (histInfo e.src e.ev 2 (s.fb cfg 3) false false false false false) ∧ v.f Reg.SBX_NMI 5 0 = e.src ∧
        v.fb Reg.SBX_NMI 7 = true ∧ ∀ n ∈ s.nmiCores, (Tab.get {} v.gcores n).nmi = true) ∧
      (act = 4 ∨ (act = 2 ∧ (s.sbx.nmi ≠ [] ∨ s.nmiCores = [])) → v.sbx.chip = true ∧
        v.reg Reg.SBX_CRST_CAUSE =
          BitVec.ofNat 32 (e.src + 64 * e.ev + 1024 + (if act = 2 then 2048 else 0))))

/-- Block resets, the fault state, the pin, the history port and the Line (R389, R390, R392–R396): a reported reset
starts its shadow, whose end clears the RST bit; a quiet source, and a write of its bit in another CORE cycle than
that of its event, leave the fault state; messages, quiet exits and held emissions come after the local events of
their edge; ERR_N stays low for 6,400 ticks; a read of word 0 holds words 1 to 3 for its port; an origin's message is
taken once. -/
def Obligations.SignalBoxState : Prop :=
  (∀ (s : State) (t : Tick) (src : Fin 64) (w : Word),
    let u := s.at t
    let rst := Tab.get none u.sbx.rst src.val
    let q := u.f (Reg.SBX_SRC_QUIET src) 15 0
    exec (.sbxBrstReq t w) s = .next { u with sbx := { u.sbx with
      raised := u.sbx.raised ++ [{ src := bits w 5 0, ev := 0, ts := u.now, brst := true }] } } ∧
    (rst = none → exec (.blockResetDone t src) s = .next u ∧ exec (.shadowEnd t src) s = .next u) ∧
    (∀ r, rst = some r →
      (r.shadow = none → ∃ v : State, exec (.blockResetDone t src) s = .next v ∧ v.regs = u.regs ∧ v.mem = u.mem ∧
        Tab.get none v.sbx.rst src.val = some { r with shadow := some (u.now + u.f Reg.SBX_SHADOW 23 0) } ∧
        (src.val = 7 → v.sq.halted = []) ∧ (src.val ≠ 7 → v.sq = u.sq)) ∧
      ∀ e, r.shadow = some e → exec (.blockResetDone t src) s = .next u ∧
        (u.now < e → exec (.shadowEnd t src) s = .next u) ∧
        (e ≤ u.now → ∃ v : State, exec (.shadowEnd t src) s = .next v ∧ v.sbxInRst src = false ∧ v.mem = u.mem ∧
          ∀ x < 64, x ≠ src.val → v.sbxInRst x = u.sbxInRst x)) ∧
    let quiet := u.sbxActive src = true ∧ q ≠ 0 ∧ Tab.get 0 u.sbx.last src.val + q * 6400000 ≤ u.now / 256 * 256 ∧
      u.localDue = false ∧ u.remoteDue = false
    (¬ quiet → exec (.quietExit t src) s = .next u) ∧
    (quiet → ∃ v : State, exec (.quietExit t src) s = .next v ∧ v.sbxActive src = false ∧ v.mem = u.mem ∧
      v.f (Reg.SBX_SRC_QUIET src) 31 16 = min 65535 (u.f (Reg.SBX_SRC_QUIET src) 31 16 + 1)) ∧
    (∀ hi : Bool, ∃ v : State, exec (.sbxActiveWrite t hi w) s = .next v ∧ v.mem = u.mem ∧ ∀ i < 32,
      let x := if hi then 32 + i else i
      let y := if hi then i else 32 + i
      v.sbxActive y = u.sbxActive y ∧ v.sbxActive x = (u.sbxActive x && (!w.getLsbD i ||
        (u.setHere (if hi then Reg.SBX_ACTIVE_HI else Reg.SBX_ACTIVE_LO)).getLsbD i))) ∧
    (∃ v : State, exec (.errNHoldExpiry t) s = .next v ∧ v.regs = u.regs ∧ v.mem = u.mem ∧
      let want := u.fb Reg.SBX_CTRL 2 = true ∨ ∃ x < 64, u.sbxActive x = true ∧ u.fb (Reg.SBX_SRC_CFG x) 3 = true
      (v.sbx.errLow = true ↔ want ∨ (u.sbx.errLow = true ∧ u.now < u.sbx.errAt + 6400))) ∧
    (∀ (ini : Fin 7) (i : Fin 32), ∃ v : State, exec (.sbxHistW0Read t ini i) s = .next v ∧ v.regs = u.regs ∧
      v.mem = u.mem ∧ (Tab.get {} v.acc ini.val).value = (u.reg (Reg.SBX_HIST_W0 i)).toNat ∧
      Tab.get [] v.sbx.hold ini.val =
        [u.reg (Reg.SBX_HIST_W1 i), u.reg (Reg.SBX_HIST_W2 i), u.reg (Reg.SBX_HIST_W3 i)]) ∧
    (∀ d : Fin 1024, (bits w 16 16 = 1 → exec (.sbxOriginWrite t d w) s = .next u) ∧
      (bits w 16 16 = 0 → exec (.sbxOriginWrite t d w) s = .next (u.setB (Reg.SBX_ORIGIN d) 16 false))) ∧
    (Tab.get none u.sbx.held src.val = none → exec (.faultEmitHoldExpiry t src) s = .next u) ∧
    ∀ ev t0, Tab.get none u.sbx.held src.val = some ev → Tab.get none u.sbx.sent src.val = some t0 →
      u.fb Reg.SBX_LINE_CFG 0 = true →
      let due := t0 + 64000 ≤ u.now / 256 * 256 ∧ u.localDue = false ∧ u.remoteDue = false
      (¬ due → exec (.faultEmitHoldExpiry t src) s = .next u) ∧
      (due → ∃ v : State,
        exec (.faultEmitHoldExpiry t src) s = .next (v.emitFault src ev true) ∧
        Tab.get none v.sbx.held src.val = none ∧ v.mem = u.mem)) ∧
  ∀ (s : State) (t : Tick),
    let u := (s.at t).sbxStep1
    (u.sbx.remote = [] → exec (.remoteFaultTake t) s = .next u) ∧
    ∀ m, u.sbx.remote = [m] →
      (u.now < nextMultiple 256 m.at' ∨ u.localDue = true → exec (.remoteFaultTake t) s = .next u) ∧
      (nextMultiple 256 m.at' ≤ u.now → u.localDue = false →
        let x := { u with sbx := { u.sbx with remote := [] } }
        let o := nbits m.payload 9 0
        let seq := nbits m.payload 35 20
        let org := Reg.SBX_ORIGIN o
        let new := u.fb org 16 = false ∨ (1 ≤ (seq + 65536 - u.f org 15 0) % 65536 ∧
          (seq + 65536 - u.f org 15 0) % 65536 ≤ 32767)
        (u.fb Reg.SBX_LINE_CFG 1 = false → exec (.remoteFaultTake t) s = .next x) ∧
        (u.fb Reg.SBX_LINE_CFG 1 = true → o = u.lineId ∨ ¬ new →
          exec (.remoteFaultTake t) s = .next (x.incSat Reg.SBX_LINE_CNT_A 31 16)) ∧
        (u.fb Reg.SBX_LINE_CFG 1 = true → o ≠ u.lineId → new → exec (.remoteFaultTake t) s =
          .next ((x.setReg org (BitVec.ofNat 32 (seq + 65536))).remoteNew m.at' m.payload)))

/-! ### Power and temperature -/

/-- Domains (R401, R403, R404, R408, R411, R412): a request waits for its REF edge; a step that is ready takes its
domain to the next state, back down where it was reversed, and a held on event starts it anew; one that is four times
too long fails it. ARCHIVE is entered once both cores are idle and the DMA rests, or refused. A wake names SUP: the
eighth low sample of WAKE_N is one. -/
def Obligations.PowerDomains : Prop :=
  ∀ (s : State) (t : Tick) (d : Fin 16),
    let u := s.at t
    let push := fun k : PwrKind =>
      { u with pwr := { u.pwr with reqs := u.pwr.reqs ++ [{ due := (u.now / 256 + 1) * 256, kind := k }] } }
    let moved := fun x : State => (x.domMoved u.now).thermalFall
    exec (.domReqOn t d) s = .next (push (.on d)) ∧ exec (.domReqOff t d) s = .next (push (.off d)) ∧
    (u.stepAt d = none → exec (.domainStepReady t d) s = .next u ∧ exec (.domFail t d) s = .next u) ∧
    (∀ b, u.stepAt d = some b →
      let st := u.dom d
      (1 ≤ st → st ≤ 3 → u.domRev d = false → ∃ x : State, exec (.domainStepReady t d) s = .next (moved x) ∧
        x.dom d = st + 1 ∧ x.stepAt d = some u.now) ∧
      (1 ≤ st → st ≤ 4 → u.domRev d = true → ∃ x : State, exec (.domainStepReady t d) s = .next (moved x) ∧
        x.dom d = 10 - st ∧ x.domRev d = false ∧ x.stepAt d = if st = 1 then none else some u.now) ∧
      (st = 4 → u.domRev d = false → ∃ x : State, exec (.domainStepReady t d) s = .next (moved x.bootIfDue) ∧
        x.dom d = 5 ∧ x.stepAt d = none ∧ x.mem = u.mem) ∧
      (st = 6 → exec (.domainStepReady t d) s =
        .next (moved (((u.domReset d).setDom d 7).setStep d (some u.now)))) ∧
      (st = 7 ∨ st = 8 → ∃ x : State, exec (.domainStepReady t d) s = .next (moved x) ∧ x.dom d = st + 1 ∧
        x.mem = u.mem ∧ x.stepAt d = if st = 8 then none else some u.now) ∧
      (st = 9 → u.domPend d = false → ∃ x : State, exec (.domainStepReady t d) s = .next (moved x) ∧ x.dom d = 0 ∧
        x.mem = u.mem) ∧
      (st = 9 → u.domPend d = true → d.val = 2 → u.pwr.archive = true → ∃ x : State,
        exec (.domainStepReady t d) s = .next (moved x) ∧ x.dom d = 0 ∧ x.pwr.heldWake = true ∧ x.mem = u.mem) ∧
      (st = 9 → u.domPend d = true → d.val ≠ 2 ∨ u.pwr.archive = false → ∃ x : State,
        exec (.domainStepReady t d) s = .next (moved ((x.pwrAborted d).onEventAt d u.now)) ∧ x.dom d = 0 ∧
        x.domPend d = false ∧ x.mem = u.mem) ∧
      (u.now < b + 4 * stepMax d st → exec (.domFail t d) s = .next u) ∧
      (b + 4 * stepMax d st ≤ u.now → ∃ x : State, exec (.domFail t d) s = .next (moved (x.raise srcPWR 0)) ∧
        x.dom d = 10 ∧ x.fb Reg.PWR_IRQ_STATUS 0 = true)) ∧
    (let y := u.pwrEdge u.now;
      (y.pwr.archAt = none ∨ y.pwr.archive = true ∨ y.coresIdle = false ∨ y.dmaBusy = true →
        exec (.archiveWaitEnd t) s = .next y) ∧
      (y.pwr.archAt ≠ none → y.pwr.archive = false → y.coresIdle = true → y.dmaBusy = false →
        (∀ e ∈ archiveSet, Tab.get none y.pwr.onAt e ≠ some u.now) →
        (y.vreqPending = true → exec (.archiveWaitEnd t) s = .next (y.archiveRefuse 2 7).takeHeld) ∧
        (y.vreqPending = false → (∀ e ∈ archiveSet, y.queueHolds e = false) →
          let low := (List.range 16).filter fun e => 2 ≤ e && !y.domDown e
          exec (.archiveWaitEnd t) s = .next ({ y with pwr := { y.pwr with archive := true, want := [], wantOff := low,
                                                                           left := low } }.lowerReady u.now)))) ∧
    (∀ a, u.pwr.archAt = some a →
      (u.pwr.archive = true ∨ u.now < a + 6400000 → exec (.archiveWaitTimeout t) s = .next u) ∧
      (u.pwr.archive = false → a + 6400000 ≤ u.now → u.coresIdle = false ∨ u.dmaBusy = true →
        exec (.archiveWaitTimeout t) s = .next (u.archiveRefuse 2 (if u.coresIdle then 4 else 3)).takeHeld)) ∧
    (u.pwr.archAt = none → exec (.archiveWaitTimeout t) s = .next u) ∧
    (∀ ls : List Bool,
      let y := { u with pwr := { u.pwr with wakeIn := ls.foldl (fun x v => x.sample 7 v) u.pwr.wakeIn } };
      exec (.wakeN ⟨t, ls⟩) s = .next (if u.fb Reg.PWR_WAKE_CFG 0 = true ∧
        u.pwr.wakeIn.falls 7 (u.pwr.wakeIn.level.getD false) ls = true then y.wakeEvent 2 else y)) ∧
    (∀ (f : InFilter) (n : Nat) (v : Bool), f.raw = true ∨ f.run = 0 →
      f.falls 7 v (List.replicate n false) = (v && decide (7 < n))) ∧
    (∀ (x : State) (e : Nat), (x.pwr.shut = true → x.wakeEvent e = x) ∧ (x.pwr.shut = false →
      x.wakeEvent e = if x.mode = .archive ∧ x.trans = false ∧ e = 2 then x.crst
        else { x with pwr := { x.pwr with reqs := x.pwr.reqs ++ [{ due := nextMultiple 256 x.now, kind := .wake e }] } })) ∧
    (∀ a, u.pwr.archIn = some a →
      let w := (u.reg Reg.PWR_WAKE_TIMER).toNat
      let due := u.mode = .archive ∧ w ≠ 0 ∧ a + w * 6400000 ≤ u.now
      (due → exec (.wakeTimer t) s = .next (u.wakeEvent 2)) ∧ (¬ due → exec (.wakeTimer t) s = .next u)) ∧
    (u.pwr.archIn = none → exec (.wakeTimer t) s = .next u)

/-- Voltage requests (R416): one at a time; two readings in tolerance complete it, a NACK, a PEC failure, another
VOUT_MODE and the timeout end it with their cause. The rail sequencer (R417, R418): its inputs change after 8 equal
samples at the REF edges. From WAIT the rails rise one by one, each after its power good and GAP, and the last one
makes it UP; a rail that is late, lost, or outside its window N times fails, and VIN_LOST makes the rails fall; they
fall from the highest; PWR_CLR ends a latch. The device leaves POR 1 ms after UP. Domains losing supply at the entry
of FALL is the model's choice: log entry 40. -/
def Obligations.VoltageAndRails : Prop :=
  (
    ∀ (s : State) (t : Tick) (w : Word) (r : BitVec 16),
      let u := s.at t
      let ends := fun (x y : State) (st cause : Nat) => ∃ v : State, y = v.startRegs x.now ∧
        v.f Reg.PWR_VREQ_STATUS 1 0 = st ∧ v.f Reg.PWR_VREQ_STATUS 4 2 = cause ∧ v.fb Reg.PWR_IRQ_STATUS 2 = true ∧
        v.mem = x.mem
      (u.vreqPending = true → exec (.vreqStart t w) s = .next (u.setB Reg.PWR_VREQ_STATUS 5 true)) ∧
      (u.vreqPending = false → ∃ v : State, exec (.vreqStart t w) s = .next v ∧ v.vreqPending = true ∧
        v.reg Reg.PWR_VREQ_B = w ∧ v.f Reg.PWR_VREQ_STATUS 4 2 = 0 ∧ v.pwr.vreqGood = 0 ∧ v.pwr.vreqAt = u.now ∧
        v.mem = u.mem) ∧
      (u.vreqPending = false → (∀ a, exec (.vreqPoll t a r) s = .next u) ∧ exec (.vreqTimeout t) s = .next u) ∧
      (u.vreqPending = true →
        (∃ y, exec (.vreqPoll t 1 r) s = .next y ∧ ends u y 3 1) ∧ (∃ y, exec (.vreqPoll t 2 r) s = .next y ∧ ends u y 3 2) ∧
        (∃ y, exec (.vreqPoll t 3 r) s = .next y ∧ ends u y 3 3) ∧
        (let good := r.toNat ≤ u.f Reg.PWR_VREQ_B 15 0 + u.f Reg.PWR_VREQ_B 31 16 ∧
            u.f Reg.PWR_VREQ_B 15 0 ≤ r.toNat + u.f Reg.PWR_VREQ_B 31 16;
          (good → 1 ≤ u.pwr.vreqGood → ∃ y, exec (.vreqPoll t 0 r) s = .next y ∧ ends u y 2 0) ∧
          (good → u.pwr.vreqGood = 0 → ∃ v : State, exec (.vreqPoll t 0 r) s = .next v ∧ v.pwr.vreqGood = 1 ∧
            v.vreqPending = true ∧ v.f Reg.PWR_VREQ_STATUS 31 16 = r.toNat ∧ v.mem = u.mem) ∧
          (¬ good → ∃ v : State, exec (.vreqPoll t 0 r) s = .next v ∧ v.pwr.vreqGood = 0 ∧ v.vreqPending = true ∧
            v.f Reg.PWR_VREQ_STATUS 31 16 = r.toNat ∧ v.mem = u.mem)) ∧
        let due := u.pwr.vreqAt + u.f Reg.PWR_VREQ_TO 15 0 * 6400000 ≤ u.now
        (due → ∃ y, exec (.vreqTimeout t) s = .next y ∧ ends u y 3 4) ∧
        (¬ due → exec (.vreqTimeout t) s = .next u))) ∧
  (
    (∀ (s : State) (t : Tick) (i : Fin 8) (code : BitVec 10),
      let u := s.at t
      let q := Reg.PWR_SEQ_STATUS
      let k := u.pwr.seqRail
      (∀ (seqIn : Bool) (ls : List (Bool × Nat)),
        let x := (u.vinSamples ls).2.setB q 12 seqIn
        let starts := x.seqState = 0 ∧ seqIn = true ∧ x.fb q 14 = true ∧ (∀ v, x.pwr.vinAt = some v → v + 320000000 ≤ x.now) ∧
          x.pwr.railLatch = false ∧ x.pwr.thermLatch = false ∧ x.pwr.standby = false ∧ x.thmTmax < 950
        (¬ starts → exec (.seqStart (seqIn, ⟨t, ls⟩)) s = .next x) ∧
        (starts → x.fb q 16 = false → ∃ v : State, exec (.seqStart (seqIn, ⟨t, ls⟩)) s = .next v ∧ v.seqState = 1 ∧
          v.railOn 0 = true ∧ v.pwr.seqRail = 0 ∧ v.pwr.seqAt = u.now ∧ v.pwr.seqGap = false ∧ v.mem = u.mem)) ∧
      (∀ ls : List Bool,
        let x := u.pgSamples i ls
        exec (.pgoodHigh ⟨t, ls⟩ i) s = .next x.railGood ∧
        x.mem = u.mem ∧ x.seqState = u.seqState ∧ x.pwr = { u.pwr with pgIn := x.pwr.pgIn } ∧
        (let lost := (u.seqState = 1 ∨ u.seqState = 2) ∧ u.railOn i = true ∧ u.pgFalls i ls = true
         (lost → exec (.pgLost ⟨t, ls⟩ i) s = .next (x.railFail i 2)) ∧ (¬ lost → exec (.pgLost ⟨t, ls⟩ i) s = .next x))) ∧
      (let due := u.seqState = 1 ∧ u.pwr.seqGap = false ∧ u.fb q (16 + k) = false ∧ u.pwr.seqAt + u.railTpg k ≤ u.now;
        (due → exec (.pgTimeout t) s = .next (u.railFail k 1)) ∧ (¬ due → exec (.pgTimeout t) s = .next u)) ∧
      (let due := u.pwr.seqGap = true ∧ u.pwr.seqAt + u.railGap k ≤ u.now;
        (¬ due → exec (.railGapExpiry t) s = .next u) ∧
        (due → u.seqState = 1 → u.fb q (16 + (k + 1)) = false → ∃ v : State, exec (.railGapExpiry t) s = .next v ∧
          v.railOn (k + 1) = true ∧ v.pwr.seqRail = k + 1 ∧ v.pwr.seqAt = u.now ∧ v.pwr.seqGap = false ∧
          v.regs = u.regs ∧ v.mem = u.mem) ∧
        (due → u.seqState = 3 → exec (.railGapExpiry t) s = .next u.fallNext)) ∧
      (let due := u.seqState = 2 ∧ u.pwr.porHeld = true ∧ u.pwr.seqAt + 6400000 ≤ u.now;
        (¬ due → exec (.porHoldExpiry t) s = .next u) ∧
        (due → exec (.porHoldExpiry t) s =
          .next (if u.por.fb Reg.LDG_STATUS 1 = true then u.por.lcWipe (u.por.sec.otp.lc - 1) false else u.por))) ∧
      (let x := u.setF (Reg.PWR_VMON_VAL i) 9 0 code.toNat
        let out := code.toNat < u.f (Reg.PWR_VMON i) 9 0 ∨ u.f (Reg.PWR_VMON i) 25 16 < code.toNat
        let n := Tab.get 0 u.pwr.vmonBad i.val + 1
        let counted := fun n => { x with pwr := { x.pwr with vmonBad := Tab.put 0 x.pwr.vmonBad i.val n } };
        (u.seqState ≠ 2 → exec (.vmonSample t i code) s = .next x) ∧
        (u.seqState = 2 → ¬ out ∨ (u.vreqPending = true ∧ u.f Reg.PWR_VREQ_A 19 16 = i) →
          exec (.vmonSample t i code) s = .next (counted 0)) ∧
        (u.seqState = 2 → out → u.vreqPending = false ∨ u.f Reg.PWR_VREQ_A 19 16 ≠ i →
          (n < u.f (Reg.PWR_VMON i) 31 28 → exec (.vmonSample t i code) s = .next (counted n)) ∧
          (u.f (Reg.PWR_VMON i) 31 28 ≤ n → exec (.vmonSample t i code) s = .next ((counted n).railFail i 3)))) ∧
      (∀ ls : List (Bool × Nat),
        let x := (u.vinSamples ls).2
        let lost := (u.vinSamples ls).1 = true ∧ (x.seqState = 1 ∨ x.seqState = 2)
        (¬ lost → exec (.vinLost ⟨t, ls⟩) s = .next x) ∧
        (lost → exec (.vinLost ⟨t, ls⟩) s = .next (((x.setB Reg.PWR_IRQ_STATUS 3 true).raise srcPWR 3).fall 4))) ∧
      (u.pwr.railLatch = true → u.seqState = 4 → ∃ v : State, exec (.pwrClrEdge t) s = .next v ∧ v.seqState = 0 ∧
        v.pwr.railLatch = false ∧ v.mem = u.mem) ∧
      (u.pwr.railLatch = true → u.seqState = 3 →
        exec (.pwrClrEdge t) s = .next { u with pwr := { u.pwr with railLatch := false } }) ∧
      (u.pwr.railLatch = false ∨ (u.seqState ≠ 3 ∧ u.seqState ≠ 4) → exec (.pwrClrEdge t) s = .next u) ∧
      exec (.standbyReset t) s = .next u.domainsLost.stopClock.standbyReset ∧
      ∃ v : State, exec (.vstbyLoss t) s = .next v ∧ v.pwr = { railEn := 0, seqRail := 0, standby := true } ∧
        v.mem = u.domainsLost.por.domainsLost.mem ∧ v.ldg = u.domainsLost.por.domainsLost.ldg) ∧
    (∀ (s : State) (ls : List (Bool × Nat)) (v : Bool) (n : Nat), ls = [(v, n)] → 7 < n → s.fb Reg.PWR_SEQ_STATUS 14 = !v →
      s.pwr.vinIn.raw ≠ v ∨ s.pwr.vinIn.run = 0 →
      let y := (s.vinSamples ls).2
      (s.vinSamples ls).1 = !v ∧ y.fb Reg.PWR_SEQ_STATUS 14 = v ∧ y.seqState = s.seqState ∧ y.mem = s.mem ∧
      y.pwr.vinAt = if v then some (firstSample 256 s.now ls + 7 * 256) else s.pwr.vinAt) ∧
    (∀ (s : State) (i n : Nat) (v : Bool), i < 8 → s.pgood i = !v →
      (Tab.get {} s.pwr.pgIn i).raw ≠ v ∨ (Tab.get {} s.pwr.pgIn i).run = 0 →
      let ls := List.replicate n v
      (s.pgSamples i ls).pgood i = (if 7 < n then v else !v) ∧ s.pgFalls i ls = (!v && decide (7 < n)) ∧
      (s.seqState = 1 → s.pwr.seqGap = false → s.pwr.seqRail = i → s.pgood i = true → ∃ x : State, s.railGood = x ∧
        x.mem = s.mem ∧
        (i < 7 → x.pwr.seqGap = true ∧ x.pwr.seqAt = s.now ∧ x.seqState = 1) ∧
        (i = 7 → x.seqState = 2 ∧ x.fb Reg.PWR_SEQ_STATUS 13 = true ∧ x.pwr.porHeld = true)) ∧
      (s.seqState ≠ 1 ∨ s.pwr.seqGap = true → s.railGood = s)) ∧
    ∀ (s : State),
      (∀ i < 8, s.railOn i = true → (∀ j < 8, i < j → s.railOn j = false) →
        s.fallNext.railOn i = false ∧ ∀ j < 8, j ≠ i → s.fallNext.railOn j = s.railOn j) ∧
      let r := s.standbyReset
      r.seqState = 0 ∧ r.pwr.railEn = 0 ∧ r.pwr.railLatch = false ∧ r.pwr.thermLatch = false ∧ r.mem = s.mem)

/-- Temperature (R420–R424): a sample shows every good reading and the hottest; the band rises at once and falls only
below its bound less the hysteresis; 16 samples of a millisecond form the mean that the rise of 100 ms is taken from
after the grace time throttling is enforced, and it is released after the calm time. A sensor without a usable reading
keeping its last value is the model's reading: log entry 39. -/
def Obligations.Temperature : Prop :=
  (∀ (s : State) (t : Tick) (rs : List (BitVec 16)),
    let u := s.at t
    let x := fun i => (rs.getD i 0).toInt
    (t % 400000 ≠ 0 → exec (.thmSample t (rs.map some)) s = .next u) ∧
    (t % 400000 = 0 → rs.length = 12 → (∀ i < 12, -500 ≤ x i ∧ x i ≤ 1500 ∧ u.sensorFailed i = false ∧
        x i < u.f Reg.THM_LIMITS 15 0) → (∀ p < 6, x (2 * p) - x (2 * p + 1) ≤ 150 ∧ x (2 * p + 1) - x (2 * p) ≤ 150) →
      ∃ v : State, exec (.thmSample t (rs.map some)) s = .next v ∧ v.mem = u.mem ∧
        (∀ i < 12, v.f (Reg.THM_TS i) 15 0 = (rs.getD i 0).toNat ∧ v.thmVal i = x i ∧ x i ≤ v.thmTmax) ∧
        v.thmTmax = x (v.f Reg.THM_STATUS 11 8) ∧
        v.f Reg.THM_STATUS 2 0 = bandNext (u.f Reg.THM_STATUS 2 0) v.thmTmax (u.f Reg.THM_BAND_CFG 7 0))) ∧
  (∀ (s : State) (t : Tick),
    let u := s.at t
    let xs := u.thm.samples.filter fun p => u.now ≤ p.1 + 6400000 && p.1 < u.now
    (t % 6400000 ≠ 0 ∨ xs.length ≠ 16 → exec (.riseUpdate t) s = .next u) ∧
    (t % 6400000 = 0 → xs.length = 16 → ∃ v : State, exec (.riseUpdate t) s = .next v ∧ v.mem = u.mem ∧
      v.thm.sums = (xs.map (·.2)).sum :: u.thm.sums.take 100 ∧
      (u.thm.sums.length < 100 → v.thmRise = 0) ∧
      (∀ old, u.thm.sums[99]? = some old → v.thmRise =
        max (-32768) (min 32767 (floorDiv (((xs.map (·.2)).sum - old) * 10) 16)))) ∧
    (let due := u.thmSampled = true ∧ u.fb Reg.THM_STATUS 3 = true ∧ u.fb Reg.THM_STATUS 4 = true ∧ u.fb Reg.THM_STATUS 5 = false ∧
        u.thm.advAt + u.f Reg.THM_TIMES 15 0 * 6400000 ≤ u.now;
      (¬ due → exec (.throttleGraceExpiry t) s = .next u) ∧
      (due → (∀ p ∈ u.held, p.2.stamp ≠ u.clk.tb) →
        ∃ v : State, exec (.throttleGraceExpiry t) s = .next v ∧ v.fb Reg.THM_STATUS 5 = true ∧
        v.fb Reg.TT_THROTTLE 9 = true ∧ v.f Reg.TT_THROTTLE 7 0 = u.f Reg.THM_THR_HORIZON 7 0 ∧
        v.reg Reg.TT_PITCH_MIN = u.reg Reg.THM_THR_PITCH ∧ v.fb Reg.THM_IRQ_STATUS 1 = true ∧ v.mem = u.mem ∧
        v.f Reg.TT_PWR_BUDGET 15 0 = min (u.f Reg.TT_PWR_LIMIT 15 0) (u.f Reg.THM_THR_ALLOW 15 0))) ∧
    (u.thm.calm = none → exec (.throttleRelease t) s = .next u) ∧
    ∀ c, u.thm.calm = some c →
      let due := u.thmSampled = true ∧ u.fb Reg.THM_STATUS 3 = true ∧ c + u.f Reg.THM_TIMES 31 16 * 6400000 ≤ u.now
      (¬ due → exec (.throttleRelease t) s = .next u) ∧
      (due → ∃ v : State, exec (.throttleRelease t) s = .next v ∧ v.f Reg.THM_STATUS 5 3 = 0 ∧
        v.f Reg.TT_THROTTLE 9 8 = 0 ∧ v.reg Reg.TT_PITCH_MIN = 0 ∧ v.fb Reg.THM_IRQ_STATUS 5 = true ∧
        v.f Reg.TT_PWR_BUDGET 15 0 = min (u.f Reg.TT_PWR_LIMIT 15 0) 3200 ∧ v.mem = u.mem)) ∧
  ∀ (band : Nat) (x : Int) (h : Nat), band ≤ 4 →
    bandOf x ≤ bandNext band x h ∧ (band < bandOf x → bandNext band x h = bandOf x) ∧
    (bandOf x ≤ band → bandLow band - h ≤ x → bandNext band x h = band) ∧ bandNext band x h ≤ 4

/-! ### The Line -/

/-- Ports (R439, R442) and queues (R441): EN trains the ports that are OFF, and takes both to OFF; a port is UP within
1 ms of training or goes DOWN, breaks on a lost lock or 16 bad frames of 1,024, and trains again after 10 ms. Coming
UP sends JOIN, the first of which releases the device's own frames. A full queue of 64 discards with TXDROP; the
highest non-empty queue sends first, each queue in order. A new band's preset is taken at a block start with no frame
in transmission (R443); LINE_STATUS.BAND showing port A's is the model's choice (log entry 111). That LINE_STATUS.BAND
shows port A's preset is the model's reading: log entry 111. -/
def Obligations.LinePorts : Prop :=
  (∀ (s : State) (t : Tick) (p : Fin 2),
    let u := s.at t
    let x := u.port p
    let st := u.portState p
    u.lineOn = true →
    (∃ v : State, exec (.lineEnWrite t true) s = .next v ∧ v.fb Reg.LINE_CTRL 0 = true ∧ v.mem = u.mem ∧
      v.portState p = (if st = 0 then 1 else st) ∧ (st = 0 → (v.port p).since = u.clk.tb)) ∧
    (∃ v : State, exec (.lineEnWrite t false) s = .next v ∧ v.fb Reg.LINE_CTRL 0 = false ∧ v.mem = u.mem ∧
      v.portState p = 0 ∧ v.port p = { x.cleared with since := u.clk.tb } ∧ v.f Reg.LINE_STATUS 5 4 = 0) ∧
    (st = 1 → u.clk.tb ≤ x.since + 6400000 → exec (.portUp t p) s = .next (u.movePort p 2).sendJoin) ∧
    (st ≠ 1 → exec (.portUp t p) s = .next u ∧ exec (.portTrainTimeout t p) s = .next u) ∧
    (st = 1 → x.since + 6400000 ≤ u.clk.tb → exec (.portTrainTimeout t p) s = .next (u.movePort p 3)) ∧
    (∀ lost : Bool,
      let breaks := st = 2 ∧ (lost = true ∨ 16 ≤ (x.recent.filter id).length)
      (breaks → exec (.portBreak t p lost) s = .next (((u.setPort p x.cleared).movePort p 3).lineEvent 0)) ∧
      (¬ breaks → exec (.portBreak t p lost) s = .next u)) ∧
    (let due := st = 3 ∧ u.fb Reg.LINE_CTRL 0 = true ∧ x.since + 64000000 ≤ u.clk.tb;
      (due → exec (.portRetrain t p) s = .next (u.movePort p 1)) ∧ (¬ due → exec (.portRetrain t p) s = .next u)) ∧
    (st ≠ 2 → exec (.lineFrameCrcFail t p) s = .next u) ∧
    (st = 2 → ∃ v : State, exec (.lineFrameCrcFail t p) s = .next v ∧ v.mem = u.mem ∧
      (v.port p).recent = (true :: x.recent).take 1024 ∧ v.fb Reg.LINE_IRQ_STATUS 4 = true ∧
      v.f Reg.LINE_CNT_A 15 0 = min 65535 (u.f Reg.LINE_CNT_A 15 0 + 1))) ∧
  (∀ (s : State) (p n : Nat), p < 2 → n < 4 →
    let v := s.movePort p n
    v.portState p = n ∧ v.portState (1 - p) = s.portState (1 - p) ∧ (v.port p).since = s.clk.tb ∧
    v.f Reg.LINE_STATUS 5 4 = (if v.portState 0 = 2 then 1 else 0) + (if v.portState 1 = 2 then 1 else 0)) ∧
  (∀ s : State, s.sendJoin.lineJoined = true ∧
    (∀ i, s.line.incarn = some i → s.sendJoin.line.incarn = some i)) ∧
  (∀ (s : State) (p : Nat) (f : Frame), p < 2 → s.portState p ≠ 2 →
    let q := queueOf f.type
    (64 ≤ ((s.port p).q.getD q []).length →
      s.queueFrame p f = (s.incSat Reg.LINE_CNT_A 31 16).lineEvent 3) ∧
    (((s.port p).q.getD q []).length < 64 → q < (s.port p).q.length →
      ((s.queueFrame p f).port p).q.getD q [] = (s.port p).q.getD q [] ++ [f] ∧
      ∀ j, j ≠ q → ((s.queueFrame p f).port p).q[j]? = (s.port p).q[j]?)) ∧
  (∀ (s : State) (p : Nat),
    (s.portState p = 0 ∨ s.clk.tb < (s.port p).freeAt → s.linePreset p = (s.port p).preset) ∧
    (s.portState p ≠ 0 → (s.port p).freeAt ≤ s.clk.tb → (∀ q ∈ (s.port p).q, q = []) →
      s.linePreset p = s.bandAtMultiple 66) ∧
    bits s.lineStatusView 13 11 = s.linePreset 0 % 8) ∧
  ∀ (qs r : List (List Frame)) (f : Frame), popFrame qs = some (f, r) →
    ∃ i rest, qs[i]? = some (f :: rest) ∧ r = qs.set i rest ∧ ∀ j < i, qs[j]? = some []

/-- Line time (R444–R447): delay responses give the mean of the last 16 hop delays; a SYNC sets the offset and moves
the time state, four near ones in ACQUIRE lock it, a late time base steps forward when nothing timed is armed, and
otherwise its rate follows; eight intervals without one are HOLDOVER. Only the master sends SYNC. A cleared master bit
leading to FREE and how long a copy is recent are the model's readings: log entries 42 and 43. -/
def Obligations.LineTime : Prop :=
  (∀ (s : State) (t : Tick) (p : Fin 2) (p0 p1 : BitVec 64) (rx : Nat),
    let u := s.at t
    let x := u.port p
    let noted := u.noteFrame p false
    (u.portTakes p = false → exec (.delayReqSend t p) s = .next u ∧ exec (.delayReq t p p0 rx) s = .next u ∧
      exec (.delayResp t p p0 p1 rx) s = .next u ∧ ∀ o h, exec (.sync t p o h p0 p1 rx) s = .next u) ∧
    (u.portTakes p = true →
      (u.lineOriginates = true → u.lineJoined = true →
        (∀ l, x.lastReq = some l → u.clk.tb < l + u.syncInt → exec (.delayReqSend t p) s = .next u) ∧
        ((∀ l, x.lastReq = some l → l + u.syncInt ≤ u.clk.tb) →
          let y := u.setPort p { x with lastReq := some u.clk.tb }
          exec (.delayReqSend t p) s =
            .next (y.queueFrame p { type := ftDELAY_REQ, origin := u.lineId, p0 := y.txMarker p })) ∧
        exec (.delayReq t p p0 rx) s = .next (noted.queueFrame p
          { type := ftDELAY_RESP, origin := noted.lineId, p0 := p0.toNat,
            p1 := fromSigned 64 (16 * (noted.txMarker p : Int) - rx) })) ∧
      (u.lineOriginates = false ∨ u.lineJoined = false → exec (.delayReqSend t p) s = .next u ∧
        exec (.delayReq t p p0 rx) s = .next noted) ∧
      (∃ v : State, exec (.delayResp t p p0 p1 rx) s = .next v ∧ v.mem = u.mem ∧
        let d := floorDiv ((rx : Int) - 16 * p0.toNat - toSigned 64 p1.toNat) 2
        let ds := (d :: x.delays).take 16
        (v.port p).delays = ds ∧ v.f (Reg.LINE_DELAY p) 23 0 = fromSigned 24 (floorDiv ds.sum ds.length)) ∧
      (∀ (o h : BitVec 10), o.toNat = u.lineId → exec (.sync t p o h p0 p1 rx) s = .next noted) ∧
      ∀ (o h : BitVec 10), o.toNat ≠ u.lineId →
        let delay : Int := toSigned 24 (noted.f (Reg.LINE_DELAY p) 23 0)
        let y := noted.setPort p { noted.port p with sync := some (h.toNat + 1, u.clk.tb) }
        let sent := y.forward p
          { type := ftSYNC, origin := o.toNat, hops := h.toNat, p0 := p0.toNat,
            p1 := fromSigned 64 (toSigned 64 p1.toNat + delay + 16 * (y.txMarker (1 - p.val) : Int) - rx) }
        let e : Int := 16 * p0.toNat + toSigned 64 p1.toNat + delay - rx
        exec (.sync t p o h p0 p1 rx) s = .next (if noted.syncWins p (h.toNat + 1) = true ∧ noted.timeState ≠ 4 then
          sent.takeSync p o.toNat (h.toNat + 1) e else sent))) ∧
  (∀ (s : State) (p o h : Nat) (e : Int), p < 2 → o < 1024 →
    let v := s.takeSync p o h e
    let st := s.timeState
    v.reg Reg.LINE_TIME_OFS = wordOfInt (max (-(2 ^ 31)) (min (2 ^ 31 - 1) e)) ∧ v.line.lastSync = v.clk.tb ∧ v.mem = s.mem ∧
    (st = 0 ∨ st = 3 → v.timeState = 1 ∧ v.clk = s.clk) ∧
    (st = 1 → -64 ≤ e → e ≤ 64 → 3 ≤ s.line.inRange → v.timeState = 2 ∧ v.fb Reg.LINE_IRQ_STATUS 5 = true) ∧
    (st = 1 → e < -64 ∨ 64 < e → v.timeState = 1 ∧ v.line.inRange = 0) ∧
    (st = 1 → 1024 ≤ e → s.stepBlocked = false → v.clk.tb = s.clk.tb + 8 * (e / 128).toNat) ∧
    (st = 1 → 1024 ≤ e → s.stepBlocked = true → v.clk = s.clk ∧ v.fb Reg.LINE_STATUS 9 = true) ∧
    (e < 1024 → v.clk = s.clk ∧ v.line.eSum = s.line.eSum + e) ∧
    (st = 2 → 1024 < e ∨ e < -1024 → v.timeState = 1 ∧ v.fb Reg.LINE_IRQ_STATUS 1 = true) ∧
    (st = 2 → -1024 ≤ e → e ≤ 1024 → v.timeState = 2)) ∧
  ∀ (s : State) (t : Tick) (on : Bool),
    let u := s.at t
    let st := u.timeState
    let holds := u.lineOn = true ∧ (st = 1 ∨ st = 2) ∧ u.line.lastSync + 8 * u.syncInt ≤ u.clk.tb
    (¬ holds → exec (.syncTimeout t) s = .next u) ∧
    (holds → ∃ v : State, exec (.syncTimeout t) s = .next v ∧ v.timeState = 3 ∧ v.mem = u.mem ∧
      (st = 2 → v.fb Reg.LINE_IRQ_STATUS 1 = true)) ∧
    (st ≠ 4 → exec (.syncSend t) s = .next u) ∧
    (st = 4 → u.lineOriginates = true → u.lineJoined = true → u.line.lastSync + u.syncInt ≤ u.clk.tb →
      let y := { u with line := { u.line with lastSync := u.clk.tb } }
      let send := fun (x : State) (p : Nat) => if x.portState p = 2 then
        x.queueFrame p { type := ftSYNC, origin := x.lineId, p0 := x.txMarker p } else x
      exec (.syncSend t) s = .next (send (send y 0) 1)) ∧
    (u.lineOn = true →
      (u.fb Reg.LINE_CTRL 1 = on → exec (.lineMasterSet t on) s = .next u) ∧
      (u.fb Reg.LINE_CTRL 1 ≠ on → u.lineRunning = true → exec (.lineMasterSet t on) s = .next (u.raise srcLINE 5)) ∧
      (u.fb Reg.LINE_CTRL 1 ≠ on → u.lineRunning = false → ∃ v : State, exec (.lineMasterSet t on) s = .next v ∧
        v.fb Reg.LINE_CTRL 1 = on ∧ v.timeState = (if on then 4 else 0) ∧ v.reg Reg.LINE_TIME_RATE = 0 ∧
        v.mem = u.mem))

/-- Frames (R440, R442, R449–R452): a unicast frame acts at its destination once, by its sequence number, and is
carried on elsewhere; a broadcast frame acts and is carried on; a device's own frames end. SPW writes the owner's
point; PUBLISH fills the subscriptions; a FAULT goes to the Signal Box; a mailbox word goes into its channel and its
sender follows the credit. -/
def Obligations.LineFrames : Prop :=
  (∀ (s : State) (t : Tick) (p : Fin 2) (o d h : BitVec 10) (seq : BitVec 16) (p0 p1 : BitVec 64),
    let u := s.at t
    let x := u.noteFrame p false
    let peer := x.peer o.toNat
    let mine := x.setPeer o.toNat { peer with lastUni := some seq.toNat }
    let c := nbits p0.toNat 37 32
    let g := (nbits p0.toNat 45 38 + 511 - (mine.link c).got) % 256
    let cc := nbits p0.toNat 5 0
    let uni := fun (i : Instr) (f : Frame) (applied : State) =>
      (u.portTakes p = false → exec i s = .next u) ∧
      (u.portTakes p = true →
        (o.toNat = u.lineId → exec i s = .next (x.incSat Reg.LINE_CNT_B 15 0)) ∧
        (o.toNat ≠ u.lineId → d.toNat ≠ u.lineId → exec i s = .next (x.forward p f)) ∧
        (o.toNat ≠ u.lineId → d.toNat = u.lineId →
          (seqNew peer.lastUni seq.toNat = false → exec i s = .next x) ∧
          (seqNew peer.lastUni seq.toNat = true → exec i s = .next applied)))
    uni (.lineSpwFrame t p o d h seq p0 p1)
      { type := ftSPW, origin := o.toNat, dest := d.toNat, hops := h.toNat, seq := seq.toNat, p0 := p0.toNat,
        p1 := p1.toNat } (mine.setPointAt rankLine (nbits p0.toNat 41 32) (BitVec.ofNat 32 p0.toNat)) ∧
    uni (.pltFrame t p o d h seq p0)
      { type := ftPLT, origin := o.toNat, dest := d.toNat, hops := h.toNat, seq := seq.toNat, p0 := p0.toNat }
      (if mine.paired c o.toNat then
        ((mine.incSat Reg.LINE_CNT_D 15 0 g).setLink c { mine.link c with
          got := nbits p0.toNat 45 38, accounted := ((mine.link c).accounted + g) % 256 }).pltTx (some eLINE) c
            (BitVec.ofNat 32 p0.toNat)
       else mine.incSat Reg.LINE_CNT_D 31 16) ∧
    uni (.credit t p o d h seq p0)
      { type := ftCREDIT, origin := o.toNat, dest := d.toNat, hops := h.toNat, seq := seq.toNat, p0 := p0.toNat }
      (if mine.paired cc o.toNat then mine.setLink cc { mine.link cc with credited := nbits p0.toNat 13 6 } else mine) ∧
    (u.portTakes p = true →
      (o.toNat = u.lineId → exec (.publish t p o h seq p0 p1) s = .next x) ∧
      (o.toNat ≠ u.lineId →
        let f : Frame := { type := ftPUBLISH, origin := o.toNat, hops := h.toNat, seq := seq.toNat, p0 := p0.toNat,
                           p1 := p1.toNat }
        let took := (x.setPeer o.toNat { peer with lastPub := some seq.toNat }).applyPublish (nbits p0.toNat 51 32)
          (BitVec.ofNat 32 p0.toNat)
        exec (.publish t p o h seq p0 p1) s =
          .next ((if seqNew peer.lastPub seq.toNat then took else x).forward p f)) ∧
      (∃ v : State, exec (.faultFrame t p o h seq p0) s = .next v ∧ v.mem = u.mem ∧
        { at' := u.clk.tb, payload := p0.toNat } ∈ v.sbx.remote) ∧
      (let f : Frame := { type := ftJOIN, origin := o.toNat, hops := h.toNat, p0 := p0.toNat, p1 := p1.toNat };
        (o.toNat ≠ u.lineId → exec (.join t p o h p0 p1) s =
          .next ((x.joined o.toNat (p0.toNat % 65536)).forward p f)) ∧
        (o.toNat = u.lineId → p1.toNat = State.unitId → exec (.join t p o h p0 p1) s = .next x) ∧
        (o.toNat = u.lineId → p1.toNat ≠ State.unitId →
          exec (.join t p o h p0 p1) s = .next ((x.setB Reg.LINE_STATUS 10 true).lineEvent 2)))) ∧
    (u.portTakes p = false → exec (.publish t p o h seq p0 p1) s = .next u ∧
      exec (.faultFrame t p o h seq p0) s = .next u ∧ exec (.join t p o h p0 p1) s = .next u)) ∧
  (∀ (s : State) (id : Nat) (w : Word),
    let v := s.applyPublish id w
    v.mem = s.mem ∧ ∀ j < 256,
      (s.fb (Reg.LINE_SUB j) 31 = true ∧ s.f (Reg.LINE_SUB j) 19 0 = id →
        v.reg (Reg.LINE_COPY j) = w ∧ v.fb (Reg.LINE_SUB j) 30 = true) ∧
      (¬ (s.fb (Reg.LINE_SUB j) 31 = true ∧ s.f (Reg.LINE_SUB j) 19 0 = id) →
        v.reg (Reg.LINE_COPY j) = s.reg (Reg.LINE_COPY j) ∧ v.reg (Reg.LINE_SUB j) = s.reg (Reg.LINE_SUB j))) ∧
  (∀ (s : State) (d i : Nat), d < 1024 →
    ((s.peer d).incarn = some i → s.joined d i = s) ∧
    ((s.peer d).incarn ≠ some i → (s.joined d i).peer d = { incarn := some i } ∧
      (s.joined d i).fb (Reg.SBX_ORIGIN d) 16 = false)) ∧
  ∀ (s : State) (t : Tick) (ch : Fin 64) (j : Fin 256) (w : Word),
    let u := s.at t
    let l := u.link ch
    (u.line.pubPending = [] → exec (.publishSend t) s = .next u) ∧
    (∀ q qs, u.line.pubPending = q :: qs → u.lineOriginates = true → u.lineJoined = true →
      u.portState 0 = 2 ∨ u.portState 1 = 2 →
      let y := { u with line := { u.line with pubPending := qs, seqPub := (u.line.seqPub + 1) % 65536 } }
      exec (.publishSend t) s = .next (y.originate
        { type := ftPUBLISH, origin := 0, seq := y.line.seqPub,
          p0 := (y.point q).toNat + 2 ^ 32 * (1024 * y.lineId + q), p1 := Tab.get 0 y.pointTimes q })) ∧
    (u.lineOn = true → ∃ v : State, exec (.lineSubWrite t j w) s = .next v ∧ v.reg (Reg.LINE_COPY j) = 0 ∧
      v.f (Reg.LINE_SUB j) 19 0 = bits w 19 0 ∧ v.fb (Reg.LINE_SUB j) 31 = w.getLsbD 31 ∧
      v.fb (Reg.LINE_SUB j) 30 = false ∧ v.mem = u.mem) ∧
    let sends := u.lineOriginates = true ∧ u.pltBound ch = true ∧ (u.pltSends eLINE ch).isSome = true ∧
      u.fb (Reg.LINE_PLT ch) 16 = true ∧ 0 < l.credit
    (u.pltRipe eLINE ch = [] ∨ ¬ sends → exec (.pltFrameSend t ch) s = .next u) ∧
    ∀ v vs, u.pltRipe eLINE ch = v :: vs → sends →
      let n := (l.sent + 1) % 256
      let y := (u.pltDrop eLINE ch 1).setLink ch { l with sent := n }
      exec (.pltFrameSend t ch) s = .next (y.sendUnicast ftPLT (y.f (Reg.LINE_PLT ch) 9 0)
        (v.1.toNat + 2 ^ 32 * y.f (Reg.LINE_PLT ch) 15 10 + 2 ^ 38 * n) 0)

/-! ### Host interface, trust, Ledger and background services -/

/-- The host's requests (R431, R432), the link (R430, R435) and MSI-X (R434): BAR2 is the Stacks, BAR0 the register
space with the MSI-X table and its pending bits; a refused request is recorded and raised. FLR and a lost link end
what the host had; PERST_N holds HST at its reset values. A vector is sent as its condition rises, and waits in its
pending bit while it is masked. Host memory and configuration-space results outside the machine are log entry 3. -/
def Obligations.HostInterface : Prop :=
  (∀ (s : State) (t : Tick) (o : BitVec 26) (data : List Byte) (n : Nat),
    let u := s.at t
    let x := o.toNat
    let refuse := fun (y : State) (bar2 read : Bool) => y.hostRefuse bar2 read x
    (u.dlUp = false → ∀ bar2, exec (.hostWrite t bar2 o data) s = .next u ∧ exec (.hostRead t bar2 o n) s = .next u) ∧
    (u.dlUp = true →
      (let r := u.busStore iHOST (stacksBase + x % 0x800000) data.length (natLE data);
        let y := r.2.setAcc iHOST { err := r.1 }
        exec (.hostWrite t true o data) s = .next (if r.1 = .ok then y else refuse y true false)) ∧
      (let r := u.busLoad iHOST (stacksBase + x % 0x800000) n;
        let y := r.2.setAcc iHOST r.1
        exec (.hostRead t true o n) s = .next (if r.1.err = .ok ∨ r.1.err = .ecc then y else refuse y true true)) ∧
      (x < 0x1A00000 →
        (let r := u.busStore iHOST (0x20000000 + x) data.length (natLE data);
          let y := r.2.setAcc iHOST { err := r.1 }
          exec (.hostWrite t false o data) s = .next (if r.1 = .ok then y else refuse y false false)) ∧
        (let r := u.busLoad iHOST (0x20000000 + x) n;
          let y := r.2.setAcc iHOST r.1
          exec (.hostRead t false o n) s = .next (if r.1.err = .ok then y else refuse y false true))) ∧
      (0x3000000 ≤ x → x + data.length ≤ 0x3000400 →
        exec (.hostWrite t false o data) s = .next ((u.msixWrite (x - 0x3000000) data).setAcc iHOST {})) ∧
      (0x3000000 ≤ x → x + n ≤ 0x3000400 → exec (.hostRead t false o n) s =
        .next (u.setAcc iHOST { value := sliceLE u.msixBytes (x - 0x3000000) n })) ∧
      (0x3001000 ≤ x → x + n ≤ 0x3001008 → exec (.hostRead t false o n) s =
        .next (u.setAcc iHOST { value := u.msixPending / 2 ^ (8 * (x - 0x3001000)) % 2 ^ (8 * n) })) ∧
      (0x1A00000 ≤ x → x < 0x3000000 →
        exec (.hostWrite t false o data) s = .next (refuse (u.setAcc iHOST { err := .unsupported }) false false) ∧
        exec (.hostRead t false o n) s = .next (refuse (u.setAcc iHOST { err := .unsupported }) false true)))) ∧
  (∀ (s : State) (bar2 read : Bool) (o : Nat), o < 2 ^ 26 →
    let v := s.hostRefuse bar2 read o
    v.f Reg.HST_ERR_ADDR 25 0 = o ∧ v.fb Reg.HST_ERR_ADDR 27 = bar2 ∧ v.fb Reg.HST_ERR_ADDR 28 = read ∧
    v.fb Reg.HST_IRQ_STATUS 1 = true ∧ v.mem = s.mem ∧
    v.sbx.raised = s.sbx.raised ++ [{ src := srcHST, ev := 1, ts := s.now }]) ∧
  (∀ (s : State) (v off : Nat) (data : List Byte), v < 64 → data.length = 16 → off = 16 * v →
    Tab.get {} (s.msixWrite off data).hst.table v = msixOf data ∧
    ∀ w < 64, w ≠ v → Tab.get {} (s.msixWrite off data).hst.table w = msixOf (Tab.get {} s.hst.table w).bytes) ∧
  ∀ (s : State) (t : Tick) (v : Fin 64) (speed : Fin 8) (width : Fin 16) (bme msix mask d3 hi : Bool) (w : Word),
    let u := s.at t
    let st := Reg.HST_STATUS
    (u.domOn 12 = true → u.hst.perst = false → u.fb Reg.HST_CTRL 0 = true →
      ∃ y : State, exec (.pcieLinkUp t speed width bme msix mask d3) s = .next y ∧ y.fb st 0 = true ∧
        y.f st 3 1 = speed ∧ y.f st 7 4 = width ∧ y.fb st 8 = bme ∧ y.fb st 10 = d3 ∧ y.fb st 11 = msix ∧
        y.hst.fnMask = mask ∧ y.mem = u.mem ∧ ∀ a, a ≠ st → y.reg a = u.reg a) ∧
    (u.domOn 12 = false ∨ u.hst.perst = true ∨ u.fb Reg.HST_CTRL 0 = false →
      exec (.pcieLinkUp t speed width bme msix mask d3) s = .next u) ∧
    (∃ y : State, exec (.perstN t false) s = .next y ∧ y.hst.perst = false ∧ y.fb st 9 = false ∧ y.mem = u.mem) ∧
    (∃ y : State, exec (.perstN t true) s = .next y ∧ y.hst = { perst := true } ∧ y.fb st 9 = true ∧ y.fb st 0 = false ∧
      y.mem = u.mem) ∧
    (u.domOn 12 = true → u.fb st 0 = true → ∃ y : State, exec (.linkDown t) s = .next y ∧ y.f st 7 0 = 0 ∧
      y.fb Reg.HST_IRQ_STATUS 0 = true ∧ y.mem = u.mem) ∧
    (u.domOn 12 = false ∨ u.fb st 0 = false → exec (.linkDown t) s = .next u) ∧
    (u.dlUp = false → exec (.flr t) s = .next u) ∧
    (u.dlUp = true → ∃ y : State, exec (.flr t) s = .next y ∧ y.fb st 8 = false ∧ y.fb st 10 = false ∧
      y.fb st 11 = false ∧ y.hst.table = [] ∧ y.hst.pending = [] ∧ y.hst.fnMask = false ∧
      y.fb Reg.HST_IRQ_STATUS 4 = true ∧ y.mem = u.mem) ∧
    (u.domOn 12 = true →
      let rise := u.vectorCond v = true ∧ v.val ∉ u.hst.cond
      let masked := u.hst.fnMask = true ∨ (Tab.get {} u.hst.table v.val).masked = true
      (¬ rise → v.val ∉ u.hst.pending → ∃ y : State, exec (.msixVectorSend t v) s = .next y ∧ y.regs = u.regs ∧
        y.mem = u.mem ∧ y.hst.sent = u.hst.sent ∧ y.hst.pending = u.hst.pending) ∧
      (rise ∨ v.val ∈ u.hst.pending → u.fb st 11 = true →
        (masked → ∃ y : State, exec (.msixVectorSend t v) s = .next y ∧ v.val ∈ y.hst.pending ∧
          y.hst.sent = u.hst.sent ∧ y.regs = u.regs ∧ y.mem = u.mem) ∧
        (¬ masked → u.fb st 8 = true → ∃ y : State, exec (.msixVectorSend t v) s = .next y ∧
          y.hst.sent = v.val :: u.hst.sent ∧ y.hst.pending = u.hst.pending.erase v.val ∧ y.regs = u.regs ∧
          y.mem = u.mem)) ∧
      (u.hst.perst = false →
        (u.vectorCond v = false → exec (.hstMsixRearm t v) s = .next u) ∧
        (u.vectorCond v = true → exec (.hstMsixRearm t v) s = .next (u.sendVector v)) ∧
        (let a := if hi then Reg.HST_DB_HI else Reg.HST_DB_LO;
          ∃ y : State, exec (.hstDbSet t hi w) s = .next y ∧ y.reg a = u.reg a ||| w ∧ y.mem = u.mem ∧ y.hst = u.hst ∧
            ∀ b, b ≠ a → y.reg b = u.reg b)))

/-- SEC (R455, R458–R460, R462): the stage advances by one at a time; a rollback count rises in stages 0 and 1;
RELEASE1 starts core 1 once. A command is refused with its reason, waits for nothing, and one at a time runs; EXTEND
hashes its measurement with its data, FUSE_OEM keeps the hash, and VERIFY answers the signature. -/
def Obligations.Security : Prop :=
  (∀ (s : State) (t : Tick) (w : Word) (n : Fin 4),
    let u := s.at t
    u.domOn 2 = true →
    (bits w 1 0 = u.stage + 1 → exec (.stageAdvance t w) s = .next (u.setF Reg.SEC_BOOT 1 0 (bits w 1 0))) ∧
    (bits w 1 0 ≠ u.stage + 1 → exec (.stageAdvance t w) s = .next u) ∧
    (u.stage ≤ 1 → u.rbCount n < 64 → ∃ v : State, exec (.secRbAdv t n) s = .next v ∧
      v.rbCount n = u.rbCount n + 1 ∧ v.regs = u.regs ∧ v.mem = u.mem ∧ ∀ m : Nat, m ≠ n → v.rbCount m = u.rbCount m) ∧
    (1 < u.stage ∨ 64 ≤ u.rbCount n → exec (.secRbAdv t n) s = .next u) ∧
    (∃ v : State, exec (.release1 t) s = .next v ∧ v.fb Reg.SEC_CTRL 8 = true ∧ v.mem = u.mem ∧ v.sec.released = true ∧
      (u.sec.released = true → v.gcores = u.gcores) ∧
      (u.sec.released = false → Tab.get {} v.gcores 1 =
        { running := true, pc := (u.reg Reg.SEC_CORE1_ENTRY).toNat })) ∧
    let row := fun op : Nat => if op = 1 then exec (.keygen t) s else if op = 2 then exec (.fuseOem t) s
      else if op = 3 then exec (.cert t) s else if op = 4 then exec (.extend t) s
      else if op = 5 then exec (.verify t) s else if op = 6 then exec (.sign t) s
      else if op = 7 then exec (.meter t) s else exec (.lcChange t) s
    ∀ op, 1 ≤ op → op ≤ 8 →
      let arg := 16 * u.f Reg.SEC_ARG 31 4
      let arg2 := u.f Reg.SEC_ARG2 15 0
      let data := readBytes u.mem arg (argNeeds op arg2 u.sec.otp.lc)
      (u.sec.cmd ≠ none → ∃ v : State, row op = .next v ∧ v.f Reg.SEC_CMD_STATUS 7 4 = 1 ∧ v.sec = u.sec ∧
        v.f Reg.SEC_CMD_STATUS 1 0 = u.f Reg.SEC_CMD_STATUS 1 0 ∧ v.mem = u.mem) ∧
      (u.sec.cmd = none → ∀ r, u.secRefusal op arg arg2 data = some r → ∃ v : State, row op = .next v ∧
        v.f Reg.SEC_CMD_STATUS 1 0 = 3 ∧ v.f Reg.SEC_CMD_STATUS 7 4 = r ∧ v.sec = u.sec ∧ v.mem = u.mem) ∧
      (u.sec.cmd = none → u.secRefusal op arg arg2 data = none → ∃ v : State, row op = .next v ∧
        v.f Reg.SEC_CMD_STATUS 1 0 = 1 ∧ v.f Reg.SEC_CMD_STATUS 7 4 = 0 ∧ v.mem = u.mem ∧
        v.sec = { u.sec with cmd := some { op := op, arg := arg, arg2 := arg2, start := u.clk.tb, data := data } }) ∧
      (op ≤ 3 ∨ op = 8 → 1 < u.stage → u.secRefusal op arg arg2 data = some 2)) ∧
  (∀ (s : State) (t : Tick),
    let u := s.at t
    (u.domOn 2 = false → exec (.secCommandComplete t) s = .next u) ∧
    (u.domOn 2 = true →
      (u.sec.cmd = none → u.bkg.tel = none → exec (.secCommandComplete t) s = .next u) ∧
      (∀ c, u.sec.cmd = some c →
        let x := { u with sec := { u.sec with cmd := none } }.secEnd c
        (x.bkg.tel = none → exec (.secCommandComplete t) s = .next x) ∧
        ∀ snap, x.bkg.tel = some snap → exec (.secCommandComplete t) s = .next (x.telSign snap)))) ∧
  ∀ (s : State) (c : SecCmd),
    let v := s.secEnd c
    let done := v.f Reg.SEC_CMD_STATUS 1 0 = 2 ∧ v.f Reg.SEC_CMD_STATUS 7 4 = 0 ∧ v.fb Reg.SEC_IRQ_STATUS 1 = true
    let refused := fun r => v.f Reg.SEC_CMD_STATUS 1 0 = 3 ∧ v.f Reg.SEC_CMD_STATUS 7 4 = r ∧ v.sec = s.sec
    (c.op = 2 → done ∧ v.sec.otp = { s.sec.otp with oem := natBE c.data } ∧ v.mem = s.mem) ∧
    (c.op = 4 → c.arg2 < 4 → done ∧ v.meas c.arg2 = sha256 (s.meas c.arg2 ++ c.data) ∧ v.mem = s.mem ∧
      ∀ m < 4, m ≠ c.arg2 → v.meas m = s.meas m) ∧
    (c.op = 5 →
      let ok := ecdsaVerify (keyOf ((c.data.drop 32).take 64)) (natBE (c.data.take 32))
        (natBE ((c.data.drop 96).take 32)) (natBE ((c.data.drop 128).take 32))
      (ok = true → done) ∧ (ok = false → refused 7) ∧ v.mem = s.mem) ∧
    (c.op = 8 → s.sec.otp.lc = 2 → s.tokenOk c.data = false → refused 7 ∧ v.mem = s.mem) ∧
    (c.op = 8 → s.sec.otp.lc = 2 → s.tokenOk c.data = true → s.meterPending ≠ 0 → refused 9 ∧ v.mem = s.mem)

/-- The Ledger (R475–R478, R480): records are taken by class, then time, then kind; a record has its units, with a CRC
in its last word, and a wear fold is its totals alone; a ring wraps and SIDINGS and IDENT refuse what does not fit. An
append of a kind from 0x40 to 0x7F is pending, another is refused; each unit is written, verified, and followed by the
next. The choice of a reserve sector is log entry 37, and the report of a refused append log entry 38. -/
def Obligations.Ledger : Prop :=
  (∀ (rs : List LdgReq) (r : LdgReq), nextReq rs = some r → r ∈ rs ∧ ∀ q ∈ rs, q.before r = false) ∧
  (∀ r : LdgReq, 0x100 ≤ r.kind → r.bytes = r.body) ∧
  (∀ r : LdgReq, r.kind < 0x100 → 20 + r.body.length ≤ 32 * r.units →
    r.bytes.length = 32 * r.units ∧ (r.bytes.drop 16).take r.body.length = r.body ∧
    sliceLE r.bytes (32 * r.units - 4) 4 = crc32 (r.bytes.take (32 * r.units - 4)) % 2 ^ 32) ∧
  (∀ (s : State) (r : LdgReq),
    let n := kindRegion r.kind
    let g := ldgRegion n
    (g.ring = false → g.units < s.ldgHead n + r.units → s.ldgPlace r = none) ∧
    (g.ring = true ∨ s.ldgHead n + r.units ≤ g.units → ∃ v : State,
      s.ldgPlace r = some ({ r with base := some (s.ldgHead n), seq := Tab.get 0 s.ldg.seq n }, v) ∧ v.mem = s.mem ∧
      v.ldgHead n = (if g.ring then (s.ldgHead n + r.units) % g.units else s.ldgHead n + r.units) % 65536 ∧
      Tab.get 0 v.ldg.seq n = Tab.get 0 s.ldg.seq n + 1)) ∧
  (∀ (s : State) (l : Nat) (q : Nat), s.ldgSpare = some q → s.fb Reg.LDG_STATUS 2 = false → l < 1024 → q ∈ s.ldg.reserve →
    let v := s.ldgRetire l
    v.ldgPhys l = q ∧ v.ldg.reserve = s.ldg.reserve.erase q ∧ v.mem = s.mem ∧
    v.f Reg.LDG_STATUS 15 8 = (s.ldg.reserve.length - 1) % 256) ∧
  ∀ (s : State) (t : Tick) (w : Word) (first second : Bool),
    let u := s.at t
    let kind := bits w 7 0
    u.domOn 1 = true →
    (u.appPending = true ∨ kind < 0x40 ∨ 0x7F < kind ∨ u.fb Reg.LDG_STATUS 2 = true →
      exec (.ldgApp t w) s = .next (u.setF Reg.LDG_APP_STATUS 1 0 3)) ∧
    (u.appPending = false → 0x40 ≤ kind → kind ≤ 0x7F → u.fb Reg.LDG_STATUS 2 = false → ∃ v : State,
      exec (.ldgApp t w) s = .next v ∧ v.f Reg.LDG_APP_STATUS 1 0 = 1 ∧ v.appPending = true ∧ v.mem = u.mem ∧
      ∃ r ∈ v.ldgWaiting, r.cls = 5 ∧ r.kind = kind ∧ r.units = 1 ∧ r.time = u.now ∧
        r.body = (List.range 3).flatMap fun w => bytesLE 4 (u.reg (Reg.LDG_APP_BODY w)).toNat) ∧
    (u.ldg.cur = none → exec (.ledgerUnitWrite t first second) s = .next u) ∧
    ∀ r b, u.ldg.cur = some r → u.fb Reg.LDG_STATUS 2 = false → r.kind ≠ 0 → r.base = some b →
      let g := ldgRegion (kindRegion r.kind)
      let n := (b + r.done) % (if g.ring then g.units else g.units + 1)
      let y := (u.storeBytes (unitAddr (kindRegion r.kind) n) ((r.bytes.drop (32 * r.done)).take 32)).ldgVerify
        (g.sector + n / 128) first second
      let r' := { r with done := r.done + 1 }
      exec (.ledgerUnitWrite t first second) s = .next (if r.done + 1 < r.units then
        { y with ldg := { y.ldg with queue := r' :: y.ldg.queue } }.ldgNext else (y.ldgEnded r').ldgNext)

/-- Background services and DRAM (R473, R481–R486, R501): a correctable error counts towards its row's repair, an
uncorrectable one leaves its word poisoned and repairs the row; a pass that takes longer than 10 s is late; the burst
scrub tells MEM; training is followed by the wipe, and the wipe leaves DRAM zero and ready. A fold asks LDG, in class
6, to write each emitter's total with its on-time added; the power-down of a VID domain waits for its folds. A
snapshot is written at its period, signed when a key is there. -/
def Obligations.BackgroundServices : Prop :=
  (∀ (s : State) (t : Tick) (a : BitVec 32) (found : Fin 3),
    let u := s.at t
    let n := a.toNat
    (u.domOn 2 = false ∨ u.fb Reg.BKG_CTRL 0 = false ∨ u.scrubs n = false →
      ∀ last, exec (.sramScrubWord t a found last) s = .next u) ∧
    (u.domOn 2 = true → u.fb Reg.BKG_CTRL 0 = true → u.scrubs n = true →
      (found = 0 → n ∉ u.poison → exec (.sramScrubWord t a found false) s = .next u) ∧
      (found = 0 → n ∉ u.poison → ∃ v : State, exec (.sramScrubWord t a found true) s = .next v ∧
        v.reg Reg.BKG_SRAM_PASSES = u.reg Reg.BKG_SRAM_PASSES + 1 ∧ v.bkg.passAt = u.now ∧ v.bkg.late = false ∧
        v.mem = u.mem) ∧
      (found = 2 ∨ n ∈ u.poison → ∃ v : State, exec (.sramScrubWord t a found false) s = .next v ∧ n ∈ v.poison ∧
        v.reg Reg.BKG_UNCOR_ADDR = a ∧ v.mem = u.mem ∧
        v.f Reg.BKG_SRAM_CNT 31 16 = min 65535 (u.f Reg.BKG_SRAM_CNT 31 16 + 1) ∧
        v.fb Reg.BKG_IRQ_STATUS 0 = true ∧ (u.repairFree ≠ 0 → n / 1024 ∈ v.ldg.repaired)) ∧
      (found = 1 → n ∉ u.poison → ∃ v : State, exec (.sramScrubWord t a found false) s = .next v ∧ v.mem = u.mem ∧
        v.poison = u.poison ∧ v.f Reg.BKG_SRAM_CNT 15 0 = min 65535 (u.f Reg.BKG_SRAM_CNT 15 0 + 1) ∧
        (u.f Reg.BKG_ROW 3 0 ≤ 1 → u.repairFree ≠ 0 → n / 1024 ∈ v.ldg.repaired)))) ∧
  (∀ (s : State) (t : Tick) (a : BitVec 40),
    let u := s.at t
    let b := a.toNat / 64 * 64
    let on := u.domOn 2 = true ∧ u.fb Reg.BKG_CTRL 1 = true ∧ u.domOn 11 = true ∧ u.dramReady = true ∧
      u.inDram b 64 = true
    (¬ on → ∀ found, exec (.dramScrubBurst t a found) s = .next u) ∧
    (on → exec (.dramScrubBurst t a 0) s = .next u ∧ exec (.dramScrubBurst t a 1) s = .next (u.raise srcMEM 0) ∧
      ∃ v : State, exec (.dramScrubBurst t a 2) s = .next v ∧ v.mem = u.mem ∧ v.regs = u.regs ∧
        v.sbx.raised = u.sbx.raised ++ [{ src := srcMEM, ev := 1, ts := u.now }] ∧
        ∀ i < 8, b + 8 * i ∈ v.poison)) ∧
  (∀ (s : State) (t : Tick) (ok : Bool),
    let u := s.at t
    let late := u.domOn 2 = true ∧ u.fb Reg.BKG_CTRL 0 = true ∧ u.bkg.late = false ∧
      u.bkg.passAt + 64000000000 ≤ u.now
    (¬ late → exec (.passLate t) s = .next u) ∧
    (late → ∃ v : State, exec (.passLate t) s = .next v ∧ v.bkg.late = true ∧ v.fb Reg.BKG_IRQ_STATUS 3 = true ∧
      v.mem = u.mem) ∧
    (u.domOn 11 = true → u.dramReady = false → ok = true →
      exec (.ddrTrainingEnd t ok) s = .next { u with sys := { u.sys with wiping := true } }) ∧
    (u.domOn 11 = false ∨ u.dramReady = true ∨ ok = false → exec (.ddrTrainingEnd t ok) s = .next u) ∧
    (u.domOn 11 = false ∨ u.sys.wiping = false → exec (.dramWipeDone t) s = .next u) ∧
    (u.domOn 11 = true → u.sys.wiping = true → ∃ v : State, exec (.dramWipeDone t) s = .next v ∧
      v.dramReady = true ∧ v.sys.wiping = false ∧
      (∀ x, dramBase ≤ x → x < dramBase + u.dramSize → readByte v.mem x = 0) ∧
      (Memory.wf u.mem = true → ∀ x, x < dramBase → readByte v.mem x = readByte u.mem x)) ∧
    (u.domOn 2 = false ∨ u.fb Reg.BKG_CTRL 4 = false → exec (.wearFold t) s = .next u) ∧
    (u.domOn 2 = true → u.fb Reg.BKG_CTRL 4 = true → (∀ d, 7 ≤ d → d ≤ 9 → u.foldWaits d = false) →
      let due := u.bkg.foldAt + u.f Reg.BKG_PERIODS 15 0 * 6400000000 ≤ u.now
      (¬ due → exec (.wearFold t) s = .next u) ∧
      (due → u.domOn 7 = true → u.domOn 8 = false → u.domOn 9 = false → ∃ v : State,
        exec (.wearFold t) s = .next ((v.foldStation 0).foldStation 1) ∧ v.bkg.foldAt = u.now ∧ v.regs = u.regs ∧
        v.mem = u.mem)) ∧
    (u.domOn 2 = true → u.fb Reg.BKG_CTRL 4 = true → u.foldWaits 7 = true → u.foldWaits 8 = false → u.foldWaits 9 = false →
      u.now < u.bkg.foldAt + u.f Reg.BKG_PERIODS 15 0 * 6400000000 → exec (.wearFold t) s = .next (u.foldLast 7)) ∧
    let snap := u.bkg.telAt + u.f Reg.BKG_PERIODS 31 16 * 6400000 ≤ u.now
    (u.domOn 2 = false ∨ u.fb Reg.BKG_CTRL 5 = false ∨ ¬ snap → exec (.telemetrySnapshot t) s = .next u) ∧
    (u.domOn 2 = true → u.fb Reg.BKG_CTRL 5 = true → snap →
      let x := { u with bkg := { u.bkg with telAt := u.now } }
      let y := match u.bkg.tel with
        | some old => ({ x with bkg := { x.bkg with tel := none } }.telWrite (old ++ List.replicate 64 0)).incSat
            Reg.BKG_TEL_CNT 15 0
        | none => x
      (u.fb Reg.BKG_CTRL 6 = true → u.sec.otp.key ≠ none → exec (.telemetrySnapshot t) s =
        .next { y with bkg := { y.bkg with tel := some y.telSnapshot } }) ∧
      (u.fb Reg.BKG_CTRL 6 = false ∨ u.sec.otp.key = none →
        exec (.telemetrySnapshot t) s = .next (y.telWrite (y.telSnapshot ++ List.replicate 64 0))))) ∧
  (∀ (s : State) (st : Nat), st < 6 → s.fb Reg.LDG_STATUS 2 = false →
    (s.foldStation st).mem = s.mem ∧ ∃ r ∈ (s.foldStation st).ldgWaiting, r.cls = 6 ∧ r.kind = 0x100 + st ∧
      r.units = 12 ∧ r.base = some (12 * st) ∧ r.time = s.now ∧ r.bytes.length = 384 ∧ ∀ e < 48,
        let base := if s.bkg.based.contains st then Tab.get 0 s.bkg.bases (48 * st + e) else s.memLE (wearAddr st e) 8
        unitAddr (kindRegion r.kind) (12 * st) + 8 * e = wearAddr st e ∧
        sliceLE r.bytes (8 * e) 8 = (base + s.pair (Reg.EXP_ONTIME_LO st e) (Reg.EXP_ONTIME_HI st e)) % 2 ^ 64) ∧
  ∀ (s : State) (d : Nat), 7 ≤ d → d ≤ 9 →
    (s.fb Reg.LDG_STATUS 2 = true → (s.foldLast d).stepAt d = some s.now ∧ (s.foldLast d).ldgWaiting = s.ldgWaiting) ∧
    (s.fb Reg.LDG_STATUS 2 = false → d ∈ (s.foldLast d).bkg.lastFolds ∧ (s.foldLast d).stepAt d = s.stepAt d) ∧
    (s.bkg.lastFolds = [d] → (∀ r ∈ s.ldg.queue, r.kind < 0x100) → ∀ st, st / 2 = d - 7 →
      (s.foldEnded (0x100 + st)).stepAt d = some s.now ∧ (s.foldEnded (0x100 + st)).bkg.lastFolds = [])

end
end

