-- ==== Sys2Proof/Laws/Canonical.lean ====
section
/-! SUPPORT. The canonical form of memory and of the register table, and that their operations keep it. -/

namespace Sys2Proof.Machine

/-! ### Canonical lists -/

theorem keysRise_iff {α : Type} (l : List (Nat × α)) : keysRise l = true ↔ l.Pairwise (fun p q => p.1 < q.1) := by
  induction l with
  | nil => simp [keysRise]
  | cons p t ih =>
    cases t with
    | nil => simp [keysRise]
    | cons q r =>
      obtain ⟨a, x⟩ := p
      obtain ⟨b, y⟩ := q
      rw [keysRise, Bool.and_eq_true, ih, decide_eq_true_eq, List.pairwise_cons, List.pairwise_cons, List.pairwise_cons]
      constructor
      · rintro ⟨h, h1, h2⟩
        refine ⟨fun z hz => ?_, h1, h2⟩
        rcases List.mem_cons.1 hz with rfl | hz
        · exact h
        · exact lt_trans h (h1 z hz)
      · rintro ⟨h, h1, h2⟩
        exact ⟨h _ (List.mem_cons_self ..), h1, h2⟩

theorem Tab.mem_insert {α : Type} {i : Nat} {x : α} {t : Tab α} {p : Nat × α} (h : p ∈ Tab.insert i x t) :
    p = (i, x) ∨ p ∈ t := by
  induction t with
  | nil => simpa [Tab.insert] using h
  | cons q t ih =>
    obtain ⟨k, v⟩ := q
    simp only [Tab.insert] at h
    split at h
    · simpa using h
    · split at h
      · simp at h ⊢; tauto
      · simp at h ⊢
        rcases h with h | h
        · exact Or.inr (Or.inl h)
        · rcases ih h with h | h
          · exact Or.inl h
          · exact Or.inr (Or.inr h)

theorem Tab.mem_erase {α : Type} {i : Nat} {t : Tab α} {p : Nat × α} (h : p ∈ Tab.erase i t) : p ∈ t := by
  induction t with
  | nil => simp [Tab.erase] at h
  | cons q t ih =>
    obtain ⟨k, v⟩ := q
    simp only [Tab.erase] at h
    split at h
    · exact List.mem_cons_of_mem _ (ih h)
    · rcases List.mem_cons.1 h with h | h
      · simp [h]
      · exact List.mem_cons_of_mem _ (ih h)

theorem Tab.rise_insert {α : Type} (i : Nat) (x : α) {t : Tab α} (h : keysRise t = true) :
    keysRise (Tab.insert i x t) = true := by
  rw [keysRise_iff] at h ⊢
  induction t with
  | nil => simp [Tab.insert]
  | cons q t ih =>
    obtain ⟨k, v⟩ := q
    rw [List.pairwise_cons] at h
    obtain ⟨h1, h2⟩ := h
    simp only [Tab.insert]
    split
    · rename_i hlt
      rw [List.pairwise_cons, List.pairwise_cons]
      refine ⟨fun z hz => ?_, h1, h2⟩
      rcases List.mem_cons.1 hz with rfl | hz
      · exact hlt
      · exact lt_trans hlt (h1 z hz)
    · split
      · rename_i he
        subst he
        rw [List.pairwise_cons]
        exact ⟨h1, h2⟩
      · rw [List.pairwise_cons]
        refine ⟨fun z hz => ?_, ih h2⟩
        rcases Tab.mem_insert hz with rfl | hz
        · simp; omega
        · exact h1 z hz

theorem Tab.rise_erase {α : Type} (i : Nat) {t : Tab α} (h : keysRise t = true) : keysRise (Tab.erase i t) = true := by
  rw [keysRise_iff] at h ⊢
  induction t with
  | nil => simp [Tab.erase]
  | cons q t ih =>
    obtain ⟨k, v⟩ := q
    rw [List.pairwise_cons] at h
    simp only [Tab.erase]
    split
    · exact ih h.2
    · rw [List.pairwise_cons]
      exact ⟨fun z hz => h.1 z (Tab.mem_erase hz), ih h.2⟩

/-- Reading the key just inserted. -/
theorem Tab.get_insert_self {α : Type} (d : α) (i : Nat) (x : α) (t : Tab α) : Tab.get d (Tab.insert i x t) i = x := by
  induction t with
  | nil => simp [Tab.insert, Tab.get]
  | cons q t ih =>
    obtain ⟨k, v⟩ := q
    simp only [Tab.insert]
    split
    · simp [Tab.get]
    · split
      · simp [Tab.get]
      · rename_i h1 h2
        simp [Tab.get, ih, Ne.symm h2]

/-- Reading another key than the one inserted. -/
theorem Tab.get_insert_ne {α : Type} (d : α) {i j : Nat} (h : j ≠ i) (x : α) (t : Tab α) :
    Tab.get d (Tab.insert i x t) j = Tab.get d t j := by
  induction t with
  | nil => simp [Tab.insert, Tab.get, Ne.symm h]
  | cons q t ih =>
    obtain ⟨k, v⟩ := q
    simp only [Tab.insert]
    split
    · simp [Tab.get, Ne.symm h]
    · split
      · rename_i h1 h2
        subst h2
        simp [Tab.get, Ne.symm h]
      · simp [Tab.get, ih]

/-- Reading another key than the one erased. -/
theorem Tab.get_erase_ne {α : Type} (d : α) {i j : Nat} (h : j ≠ i) (t : Tab α) :
    Tab.get d (Tab.erase i t) j = Tab.get d t j := by
  induction t with
  | nil => rfl
  | cons q t ih =>
    obtain ⟨k, v⟩ := q
    simp only [Tab.erase]
    split
    · rename_i h1
      subst h1
      simp [Tab.get, Ne.symm h, ih]
    · simp [Tab.get, ih]

/-- Reading the key just erased. -/
theorem Tab.get_erase_self {α : Type} (d : α) (i : Nat) (t : Tab α) : Tab.get d (Tab.erase i t) i = d := by
  induction t with
  | nil => rfl
  | cons q t ih =>
    obtain ⟨k, v⟩ := q
    simp only [Tab.erase]
    split
    · exact ih
    · rename_i hk
      simp only [Tab.get, if_neg hk]
      exact ih

/-- Reading another key than the one stored at. -/
theorem Tab.get_put_ne {α : Type} [DecidableEq α] (d : α) {i j : Nat} (h : j ≠ i) (x : α) (t : Tab α) :
    Tab.get d (Tab.put d t i x) j = Tab.get d t j := by
  unfold Tab.put
  split
  · exact Tab.get_erase_ne d h t
  · exact Tab.get_insert_ne d h x t

/-- Reading the key just stored at. -/
theorem Tab.get_put_self {α : Type} [DecidableEq α] (d : α) (i : Nat) (x : α) (t : Tab α) :
    Tab.get d (Tab.put d t i x) i = x := by
  unfold Tab.put
  split
  · rename_i hx
    rw [Tab.get_erase_self d i, hx]
  · exact Tab.get_insert_self d i x t

theorem noneDefault_iff {α : Type} [DecidableEq α] (d : Nat → α) (l : List (Nat × α)) :
    noneDefault d l = true ↔ ∀ p ∈ l, p.2 ≠ d p.1 := by
  simp [noneDefault]

/-- The canonical form of a table whose default may depend on the key. -/
def canon {α : Type} [DecidableEq α] (d : Nat → α) (l : List (Nat × α)) : Prop :=
  keysRise l = true ∧ noneDefault d l = true

theorem canon_insert {α : Type} [DecidableEq α] {d : Nat → α} {l : Tab α} {i : Nat} {x : α} (h : canon d l)
    (hx : x ≠ d i) : canon d (Tab.insert i x l) := by
  refine ⟨Tab.rise_insert i x h.1, ?_⟩
  have h2 := (noneDefault_iff d l).1 h.2
  rw [noneDefault_iff]
  intro p hp
  rcases Tab.mem_insert hp with rfl | hp
  · exact hx
  · exact h2 p hp

theorem canon_erase {α : Type} [DecidableEq α] {d : Nat → α} {l : Tab α} (i : Nat) (h : canon d l) :
    canon d (Tab.erase i l) := by
  refine ⟨Tab.rise_erase i h.1, ?_⟩
  have h2 := (noneDefault_iff d l).1 h.2
  rw [noneDefault_iff]
  exact fun p hp => h2 p (Tab.mem_erase hp)

theorem canon_filter {α : Type} [DecidableEq α] {d : Nat → α} {l : List (Nat × α)} (f : Nat × α → Bool)
    (h : canon d l) : canon d (l.filter f) := by
  obtain ⟨h1, h2⟩ := h
  rw [keysRise_iff] at h1
  rw [noneDefault_iff] at h2
  refine ⟨?_, ?_⟩
  · rw [keysRise_iff]; exact h1.filter _
  · rw [noneDefault_iff]; exact fun p hp => h2 p (List.mem_filter.1 hp).1

/-! ### Memory -/

theorem wf_iff (m : List Host.Cell) : Memory.wf m = true ↔ canon (fun _ => memDefault) m := by
  simp [Memory.wf, canon]

/-- A write of one byte keeps the canonical form. -/
theorem writeByte_wf {m : List Host.Cell} (h : Memory.wf m = true) (a : Nat) (b : Byte) :
    Memory.wf (writeByte m a b) = true := by
  rw [wf_iff] at h ⊢
  unfold writeByte Tab.put
  split
  · exact canon_erase a h
  · exact canon_insert h ‹_›

/-- A write of bytes keeps the canonical form. -/
theorem writeBytes_wf {m : List Host.Cell} (h : Memory.wf m = true) (a : Nat) (bs : List Byte) :
    Memory.wf (writeBytes m a bs) = true := by
  induction bs generalizing m a with
  | nil => exact h
  | cons b bs ih => exact ih (writeByte_wf h a b) (a + 1)

/-- Dropping cells keeps the canonical form. -/
theorem filter_wf {m : List Host.Cell} (h : Memory.wf m = true) (f : Host.Cell → Bool) :
    Memory.wf (m.filter f) = true := by
  rw [wf_iff] at h ⊢
  exact canon_filter f h

/-- A wipe keeps the canonical form. -/
theorem wipeRange_wf {m : List Host.Cell} (h : Memory.wf m = true) (lo hi : Nat) :
    Memory.wf (wipeRange m lo hi) = true := filter_wf h _

theorem reset_mem_wf : Memory.wf State.reset.mem = true := rfl

/-! ### Registers -/

theorem regsWf_iff (rs : List (Nat × Word)) : regsWf rs = true ↔ canon resetReg rs := by
  simp [regsWf, canon]

theorem setReg_regsWf {s : State} (h : regsWf s.regs = true) (a : Nat) (v : Word) :
    regsWf (s.setReg a v).regs = true := by
  rw [regsWf_iff] at h ⊢
  unfold State.setReg
  dsimp only
  split
  · exact canon_erase a h
  · exact canon_insert h ‹_›

theorem resetRegs_regsWf {s : State} (h : regsWf s.regs = true) (lo hi : Nat) (kp : String → Keep → Bool) :
    regsWf (s.resetRegs lo hi kp).regs = true := by
  rw [regsWf_iff] at h ⊢
  obtain ⟨h1, h2⟩ := h
  rw [keysRise_iff] at h1
  rw [noneDefault_iff] at h2
  unfold State.resetRegs
  refine ⟨?_, ?_⟩
  · rw [keysRise_iff]
    refine h1.filterMap _ ?_
    intro p q hpq p' hp q' hq
    have key : ∀ (p p' : Nat × Word), (if p.1 < lo || hi ≤ p.1 then some p else
        let w := keepWord p.1 p.2 kp
        if w = resetReg p.1 then none else some (p.1, w)) = some p' → p'.1 = p.1 := by
      intro p p' h
      split at h
      · cases h; rfl
      · dsimp only at h
        split at h
        · cases h
        · cases h; rfl
    rw [key p p' hp, key q q' hq]
    exact hpq
  · rw [noneDefault_iff]
    intro p' hp'
    obtain ⟨p, hp, he⟩ := List.mem_filterMap.1 hp'
    split at he
    · cases he; exact h2 _ hp
    · dsimp only at he
      split at he
      · cases he
      · cases he; simpa using ‹_›

end Sys2Proof.Machine
end

