-- ==== Sys2Proof/Laws/Kept.lean ====
section
/-! SUPPORT. What every command keeps of a state: the queue, the DRAM installed, the canonical forms, the CORE edge of
the time base, and the one-way life cycle and rollback counts. -/

namespace Sys2Proof.Machine

set_option linter.all false

/-! ### What every command keeps -/

/-- `s` keeps of `s₀` what no command changes, or changes in one direction only: the queue, the DRAM installed, the
canonical form of memory and registers, the time base on a CORE edge, and the one-time programmable life cycle and
rollback counts. -/
structure Kept (s₀ s : State) : Prop where
  pending : s.pending = s₀.pending
  dram : s.dramSize = s₀.dramSize
  mem : Memory.wf s₀.mem = true → Memory.wf s.mem = true
  regs : regsWf s₀.regs = true → regsWf s.regs = true
  edge : s₀.onEdge → s.onEdge
  lc : s₀.sec.otp.lc ≤ s.sec.otp.lc
  rb : ∀ n, s₀.rbCount n ≤ s.rbCount n

theorem Kept.refl (s : State) : Kept s s := ⟨rfl, rfl, id, id, id, le_rfl, fun _ => le_rfl⟩

/-- A record update of other fields keeps them. -/
theorem Kept.congr {s₀ s s' : State} (h : Kept s₀ s) (hp : s'.pending = s.pending) (hd : s'.dramSize = s.dramSize)
    (hm : s'.mem = s.mem) (hr : s'.regs = s.regs) (hc : s'.clk.tb = s.clk.tb) (hl : s'.clk.latchTb = s.clk.latchTb)
    (ho : s'.sec.otp.lc = s.sec.otp.lc) (hb : s'.sec.otp.rb = s.sec.otp.rb) : Kept s₀ s' := by
  obtain ⟨p, d, m, r, c, l, b⟩ := h
  refine ⟨hp.trans p, hd.trans d, ?_, ?_, ?_, ho ▸ l, ?_⟩
  · rw [hm]; exact m
  · rw [hr]; exact r
  · unfold State.onEdge; rw [hc, hl]; exact c
  · intro n; unfold State.rbCount; rw [hb]; exact b n

theorem kept_ite {s₀ a b : State} {c : Prop} [Decidable c] (ha : c → Kept s₀ a) (hb : ¬c → Kept s₀ b) :
    Kept s₀ (if c then a else b) := by
  split
  · exact ha ‹_›
  · exact hb ‹_›

theorem kept_foldl {α : Type} {s₀ s : State} {f : State → α → State} (l : List α)
    (hf : ∀ x, Kept s₀ x → ∀ a, Kept s₀ (f x a)) (h : Kept s₀ s) : Kept s₀ (l.foldl f s) := by
  induction l generalizing s with
  | nil => exact h
  | cons a l ih => exact ih (hf s h a)

theorem kept_setReg {s₀ s : State} (h : Kept s₀ s) (a : Nat) (v : Word) : Kept s₀ (s.setReg a v) := by
  obtain ⟨p, d, m, r, c, l, b⟩ := h
  exact ⟨p, d, m, fun h => setReg_regsWf (r h) a v, c, l, b⟩

theorem kept_storeBytes {s₀ s : State} (h : Kept s₀ s) (a : Nat) (bs : List Byte) : Kept s₀ (s.storeBytes a bs) := by
  obtain ⟨p, d, m, r, c, l, b⟩ := h
  exact ⟨p, d, fun h => writeBytes_wf (m h) a bs, r, c, l, b⟩

theorem kept_filterMem {s₀ s : State} (h : Kept s₀ s) {f : Host.Cell → Bool} {po : List Nat} :
    Kept s₀ { s with mem := s.mem.filter f, poison := po } := by
  obtain ⟨p, d, m, r, c, l, b⟩ := h
  exact ⟨p, d, fun h => filter_wf (m h) f, r, c, l, b⟩

theorem kept_resetRegs {s₀ s : State} (h : Kept s₀ s) (lo hi : Nat) (kp : String → Keep → Bool) :
    Kept s₀ (s.resetRegs lo hi kp) := by
  obtain ⟨p, d, m, r, c, l, b⟩ := h
  exact ⟨p, d, m, fun h => resetRegs_regsWf (r h) lo hi kp, c, l, b⟩

theorem coreEdge_mod (t : Tick) : coreEdge t % 8 = 0 := by
  exact Nat.mul_mod_left _ _

theorem now_mod {s : State} (h : s.onEdge) : s.now % 8 = 0 := by
  unfold State.now
  split
  · exact h.1
  · have h2 : (s.clk.latchTb : Nat) % 8 = 0 := h.2
    rw [Nat.add_mod, Nat.mul_mod, h2]
    simp

theorem kept_clockTo {s₀ s : State} (h : Kept s₀ s) (t : Tick) : Kept s₀ (s.clockTo t) := by
  obtain ⟨p, d, m, r, c, l, b⟩ := h
  unfold State.clockTo
  split
  · refine ⟨p, d, m, r, fun h => ?_, l, b⟩
    refine ⟨?_, (c h).2⟩
    dsimp only
    rcases max_choice s.clk.tb (coreEdge t) with e | e <;> rw [e]
    · exact (c h).1
    · exact coreEdge_mod t
  · exact ⟨p, d, m, r, c, l, b⟩

/-- The state that a command leaves. -/
def KeptOut (s₀ : State) (o : Host.Outcome State Fault Refusal) : Prop := ∀ s, o = .next s → Kept s₀ s

theorem keptOut_next {s₀ s : State} (h : Kept s₀ s) : KeptOut s₀ (.next s) := by
  intro s' e; cases e; exact h

/-- The state of a pair. -/
theorem kept_pair {α : Type} {s₀ s : State} {p : α × State} {x : α} (e : p = (x, s)) (h : Kept s₀ p.2) : Kept s₀ s := by
  subst e; exact h

/-- The state of a triple. -/
theorem kept_triple {α β : Type} {s₀ s : State} {p : α × β × State} {x : α} {y : β} (e : p = (x, y, s))
    (h : Kept s₀ p.2.2) : Kept s₀ s := by
  subst e; exact h

/-- The state of a pair that may be absent. -/
def KeptOpt (s₀ : State) (o : Option State) : Prop := ∀ s, o = some s → Kept s₀ s

theorem keptOpt_some {s₀ s : State} (h : Kept s₀ s) : KeptOpt s₀ (some s) := by
  intro s' e; cases e; exact h

theorem keptOpt_none {s₀ : State} : KeptOpt s₀ none := by
  intro s' e; cases e

theorem kept_opt {s₀ s : State} {o : Option State} (e : o = some s) (h : KeptOpt s₀ o) : Kept s₀ s := h s e

/-- The state with which a target takes an armed action. -/
def KeptTake (s₀ : State) (r : Take) : Prop := (∀ s, r = .skipped s → Kept s₀ s) ∧ ∀ a s, r = .run a s → Kept s₀ s

theorem kept_skipped {s₀ s : State} {r : Take} (e : r = .skipped s) (h : KeptTake s₀ r) : Kept s₀ s := h.1 s e

theorem kept_run {s₀ s : State} {r : Take} {a : Armed} (e : r = .run a s) (h : KeptTake s₀ r) : Kept s₀ s := h.2 a s e

theorem keptTake_notDue {s₀ : State} : KeptTake s₀ .notDue :=
  ⟨fun _ e => Take.noConfusion e, fun _ _ e => Take.noConfusion e⟩

theorem keptTake_skipped {s₀ s : State} (h : Kept s₀ s) : KeptTake s₀ (.skipped s) :=
  ⟨fun _ e => by cases e; exact h, fun _ _ e => Take.noConfusion e⟩

theorem keptTake_run {s₀ s : State} {a : Armed} (h : Kept s₀ s) : KeptTake s₀ (.run a s) :=
  ⟨fun _ e => Take.noConfusion e, fun _ _ e => by cases e; exact h⟩

/-- The state of an instruction's effect. -/
def Eff.state : Eff → State
  | .next s => s
  | .jump _ s => s
  | .exc _ _ s => s
  | .wait _ s => s
  | .fly _ _ _ _ s => s
  | .yield s => s
  | .halt s => s

/-- What an instruction's effect keeps. -/
def KeptEff (s₀ : State) (e : Eff) : Prop := Kept s₀ e.state

theorem keptEff_next {s₀ s : State}  (h : Kept s₀ s) : KeptEff s₀ (.next s) := h

theorem keptEff_jump {s₀ s : State} {pc : Nat} (h : Kept s₀ s) : KeptEff s₀ (.jump pc s) := h

theorem keptEff_exc {s₀ s : State} {code addr : Nat} (h : Kept s₀ s) : KeptEff s₀ (.exc code addr s) := h

theorem keptEff_wait {s₀ s : State} {till : Tick} (h : Kept s₀ s) : KeptEff s₀ (.wait till s) := h

theorem keptEff_fly {s₀ s : State} {a sz : Nat} {rt : Fin 32} {signed : Bool} (h : Kept s₀ s) :
    KeptEff s₀ (.fly a rt sz signed s) := h

theorem keptEff_yield {s₀ s : State}  (h : Kept s₀ s) : KeptEff s₀ (.yield s) := h

theorem keptEff_halt {s₀ s : State}  (h : Kept s₀ s) : KeptEff s₀ (.halt s) := h

theorem keptEff_ite {s₀ : State} {a b : Eff} {c : Prop} [Decidable c] (ha : c → KeptEff s₀ a) (hb : ¬c → KeptEff s₀ b) :
    KeptEff s₀ (if c then a else b) := by
  split
  · exact ha ‹_›
  · exact hb ‹_›

/-- A state written out from another with the same memory and registers keeps what that one keeps. -/
theorem kept_mk {s₀ s : State} {fresh' : Nat} {clk' : Clk} {held' : Tab Held} {hwSet' : HwSet} {poison' : List Nat} {acc' : Tab AccResult} {points' : Tab Word} {pointTimes' : Tab Tick} {sbx' : Sbx} {tt' : Tt} {jct' : Jct} {sq' : Sq} {gcores' : Tab GCore} {line' : Line} {hst' : Hst} {ldg' : Ldg} {sec' : Sec} {bkg' : Bkg} {fx' : Fx} {scn' : Tab Scn} {exp' : Tab Exp} {foc' : Foc} {stp' : Stp} {hv' : Hv} {fus' : Fus} {sns' : Sns} {dma' : Dma} {plt' : Plt} {pwr' : Pwr} {thm' : Thm} {sys' : Sys} (h : Kept s₀ s)
    (hc : clk'.tb = s.clk.tb) (hl : clk'.latchTb = s.clk.latchTb) (ho : sec'.otp.lc = s.sec.otp.lc)
    (hb : sec'.otp.rb = s.sec.otp.rb) : Kept s₀ ⟨s.pending, fresh', clk', s.regs, held', hwSet', s.mem, poison', acc', points', pointTimes', s.dramSize, sbx', tt', jct', sq', gcores', line', hst', ldg', sec', bkg', fx', scn', exp', foc', stp', hv', fus', sns', dma', plt', pwr', thm', sys'⟩ :=
  h.congr rfl rfl rfl rfl hc hl ho hb

/-- The same with cells dropped from memory. -/
theorem kept_mkFilter {s₀ s : State} {f : Host.Cell → Bool} {fresh' : Nat} {clk' : Clk} {held' : Tab Held} {hwSet' : HwSet} {poison' : List Nat} {acc' : Tab AccResult} {points' : Tab Word} {pointTimes' : Tab Tick} {sbx' : Sbx} {tt' : Tt} {jct' : Jct} {sq' : Sq} {gcores' : Tab GCore} {line' : Line} {hst' : Hst} {ldg' : Ldg} {sec' : Sec} {bkg' : Bkg} {fx' : Fx} {scn' : Tab Scn} {exp' : Tab Exp} {foc' : Foc} {stp' : Stp} {hv' : Hv} {fus' : Fus} {sns' : Sns} {dma' : Dma} {plt' : Plt} {pwr' : Pwr} {thm' : Thm} {sys' : Sys} (h : Kept s₀ s)
    (hc : clk'.tb = s.clk.tb) (hl : clk'.latchTb = s.clk.latchTb) (ho : sec'.otp.lc = s.sec.otp.lc)
    (hb : sec'.otp.rb = s.sec.otp.rb) : Kept s₀ ⟨s.pending, fresh', clk', s.regs, held', hwSet', s.mem.filter f, poison', acc', points', pointTimes', s.dramSize, sbx', tt', jct', sq', gcores', line', hst', ldg', sec', bkg', fx', scn', exp', foc', stp', hv', fus', sns', dma', plt', pwr', thm', sys'⟩ :=
  (kept_filterMem h (f := f) (po := s.poison)).congr rfl rfl rfl rfl hc hl ho hb

end Sys2Proof.Machine
end

