-- ==== Sys2Proof/Laws/KeptOps.lean ====
section
/-! SUPPORT. What the operations of Machine/Ops.lean keep of a state. -/

namespace Sys2Proof.Machine

theorem kept_setF {s₀ s : State} (hk : Kept s₀ s) (a : Nat) (hi : Nat) (lo : Nat) (n : Nat) : Kept s₀ (State.setF s a hi lo n) := by
  unfold State.setF
  repeat' first
    | with_reducible exact hk
    | (simp +contextual (maxDischargeDepth := 60) only [kept_setReg, hk]; done)
    | with_reducible refine kept_ite (fun _ => ?_) (fun _ => ?_)
    | with_reducible refine kept_foldl _ (fun s hk x => ?_) ?_
    | with_reducible dsimp only
    | (with_reducible split)

theorem kept_noteSet {s₀ s : State} (hk : Kept s₀ s) (a : Nat) (i : Nat) : Kept s₀ (State.noteSet s a i) := by
  unfold State.noteSet
  repeat' first
    | with_reducible exact hk
    | (simp +contextual (maxDischargeDepth := 60) only [hk, kept_ite, kept_mk]; done)
    | with_reducible refine kept_ite (fun _ => ?_) (fun _ => ?_)
    | with_reducible refine kept_foldl _ (fun s hk x => ?_) ?_
    | with_reducible dsimp only
    | (with_reducible split)

theorem kept_setB {s₀ s : State} (hk : Kept s₀ s) (a : Nat) (i : Nat) (b : Bool) : Kept s₀ (State.setB s a i b) := by
  unfold State.setB
  repeat' first
    | with_reducible exact hk
    | (simp +contextual (maxDischargeDepth := 60) only [kept_noteSet, kept_setF, hk, kept_ite]; done)
    | with_reducible refine kept_ite (fun _ => ?_) (fun _ => ?_)
    | with_reducible refine kept_foldl _ (fun s hk x => ?_) ?_
    | with_reducible dsimp only
    | (with_reducible split)

theorem kept_incSat {s₀ s : State} (hk : Kept s₀ s) (a : Nat) (hi : Nat) (lo : Nat) (k : Nat) : Kept s₀ (State.incSat s a hi lo k) := by
  unfold State.incSat
  repeat' first
    | with_reducible exact hk
    | (simp +contextual (maxDischargeDepth := 60) only [kept_setF, hk]; done)
    | with_reducible refine kept_ite (fun _ => ?_) (fun _ => ?_)
    | with_reducible refine kept_foldl _ (fun s hk x => ?_) ?_
    | with_reducible dsimp only
    | (with_reducible split)

theorem kept_setPair {s₀ s : State} (hk : Kept s₀ s) (lo : Nat) (hi : Nat) (v : Nat) : Kept s₀ (State.setPair s lo hi v) := by
  unfold State.setPair
  repeat' first
    | with_reducible exact hk
    | (simp +contextual (maxDischargeDepth := 60) only [kept_setReg, hk]; done)
    | with_reducible refine kept_ite (fun _ => ?_) (fun _ => ?_)
    | with_reducible refine kept_foldl _ (fun s hk x => ?_) ?_
    | with_reducible dsimp only
    | (with_reducible split)

theorem kept_hold {s₀ s : State} (hk : Kept s₀ s) (a : Nat) (v : Word) : Kept s₀ (State.hold s a v) := by
  unfold State.hold
  repeat' first
    | with_reducible exact hk
    | (simp +contextual (maxDischargeDepth := 60) only [kept_setReg, hk, kept_ite, kept_mk]; done)
    | with_reducible refine kept_ite (fun _ => ?_) (fun _ => ?_)
    | with_reducible refine kept_foldl _ (fun s hk x => ?_) ?_
    | with_reducible dsimp only
    | (with_reducible split)

theorem kept_applyS {s₀ s : State} (hk : Kept s₀ s) (a : Nat) : Kept s₀ (State.applyS s a) := by
  unfold State.applyS
  repeat' first
    | with_reducible exact hk
    | (simp +contextual (maxDischargeDepth := 60) only [hk, kept_ite, kept_mk]; done)
    | with_reducible refine kept_ite (fun _ => ?_) (fun _ => ?_)
    | with_reducible refine kept_foldl _ (fun s hk x => ?_) ?_
    | with_reducible dsimp only
    | (with_reducible split)

theorem kept_applyAll {s₀ s : State} (hk : Kept s₀ s) (as : List Nat) : Kept s₀ (State.applyAll s as) := by
  unfold State.applyAll
  repeat' first
    | with_reducible exact hk
    | (simp +contextual (maxDischargeDepth := 60) only [kept_applyS, implies_true, forall_const, hk, kept_foldl]; done)
    | with_reducible refine kept_ite (fun _ => ?_) (fun _ => ?_)
    | with_reducible refine kept_foldl _ (fun s hk x => ?_) ?_
    | with_reducible dsimp only
    | (with_reducible split)

theorem kept_setNow {s₀ s : State} (hk : Kept s₀ s) (a : Nat) (hi : Nat) (lo : Nat) (n : Nat) : Kept s₀ (State.setNow s a hi lo n) := by
  unfold State.setNow
  repeat' first
    | with_reducible exact hk
    | (simp +contextual (maxDischargeDepth := 60) only [kept_setF, hk, kept_ite, kept_mk]; done)
    | with_reducible refine kept_ite (fun _ => ?_) (fun _ => ?_)
    | with_reducible refine kept_foldl _ (fun s hk x => ?_) ?_
    | with_reducible dsimp only
    | (with_reducible split)

theorem kept_raise {s₀ s : State} (hk : Kept s₀ s) (src : Nat) (ev : Nat) : Kept s₀ (State.raise s src ev) := by
  unfold State.raise
  repeat' first
    | with_reducible exact hk
    | (simp +contextual (maxDischargeDepth := 60) only [hk, kept_mk]; done)
    | with_reducible refine kept_ite (fun _ => ?_) (fun _ => ?_)
    | with_reducible refine kept_foldl _ (fun s hk x => ?_) ?_
    | with_reducible dsimp only
    | (with_reducible split)

theorem kept_takeFresh {s₀ s : State} (hk : Kept s₀ s)  : Kept s₀ (State.takeFresh s).2 := by
  unfold State.takeFresh
  repeat' first
    | with_reducible exact hk
    | (simp +contextual (maxDischargeDepth := 60) only [hk, kept_mk]; done)
    | with_reducible refine kept_ite (fun _ => ?_) (fun _ => ?_)
    | with_reducible refine kept_foldl _ (fun s hk x => ?_) ?_
    | with_reducible dsimp only
    | (with_reducible split)

theorem kept_setMem {s₀ s : State} (hk : Kept s₀ s) (a : Nat) (n : Nat) (v : Nat) : Kept s₀ (State.setMem s a n v) := by
  unfold State.setMem
  repeat' first
    | with_reducible exact hk
    | (simp +contextual (maxDischargeDepth := 60) only [kept_storeBytes, hk]; done)
    | with_reducible refine kept_ite (fun _ => ?_) (fun _ => ?_)
    | with_reducible refine kept_foldl _ (fun s hk x => ?_) ?_
    | with_reducible dsimp only
    | (with_reducible split)

theorem kept_setPoint {s₀ s : State} (hk : Kept s₀ s) (p : Nat) (v : Word) : Kept s₀ (State.setPoint s p v) := by
  unfold State.setPoint
  repeat' first
    | with_reducible exact hk
    | (simp +contextual (maxDischargeDepth := 60) only [kept_incSat, hk, kept_ite, kept_mk]; done)
    | with_reducible refine kept_ite (fun _ => ?_) (fun _ => ?_)
    | with_reducible refine kept_foldl _ (fun s hk x => ?_) ?_
    | with_reducible dsimp only
    | (with_reducible split)

theorem kept_modeEvent {s₀ s : State} (hk : Kept s₀ s) (due : Tick) (e : ModeEv) : Kept s₀ (State.modeEvent s due e) := by
  unfold State.modeEvent
  repeat' first
    | with_reducible exact hk
    | (simp +contextual (maxDischargeDepth := 60) only [hk, kept_mk]; done)
    | with_reducible refine kept_ite (fun _ => ?_) (fun _ => ?_)
    | with_reducible refine kept_foldl _ (fun s hk x => ?_) ?_
    | with_reducible dsimp only
    | (with_reducible split)

theorem kept_ldgLost {s₀ s : State} (hk : Kept s₀ s)  : Kept s₀ (State.ldgLost s) := by
  unfold State.ldgLost
  repeat' first
    | with_reducible exact hk
    | (simp +contextual (maxDischargeDepth := 60) only [kept_raise, kept_setB, kept_incSat, hk]; done)
    | with_reducible refine kept_ite (fun _ => ?_) (fun _ => ?_)
    | with_reducible refine kept_foldl _ (fun s hk x => ?_) ?_
    | with_reducible dsimp only
    | (with_reducible split)

theorem kept_ldgQueue {s₀ s : State} (hk : Kept s₀ s) (r : LdgReq) : Kept s₀ (State.ldgQueue s r) := by
  unfold State.ldgQueue
  repeat' first
    | with_reducible exact hk
    | (simp +contextual (maxDischargeDepth := 60) only [hk, kept_mk]; done)
    | with_reducible refine kept_ite (fun _ => ?_) (fun _ => ?_)
    | with_reducible refine kept_foldl _ (fun s hk x => ?_) ?_
    | with_reducible dsimp only
    | (with_reducible split)

theorem kept_ldgRecord {s₀ s : State} (hk : Kept s₀ s) (cls : Nat) (kind : Nat) (units : Nat) (body : List Byte) : Kept s₀ (State.ldgRecord s cls kind units body) := by
  unfold State.ldgRecord
  repeat' first
    | with_reducible exact hk
    | (simp +contextual (maxDischargeDepth := 60) only [kept_ldgQueue, kept_ldgLost, hk, kept_ite, kept_mkFilter]; done)
    | with_reducible refine kept_ite (fun _ => ?_) (fun _ => ?_)
    | with_reducible refine kept_foldl _ (fun s hk x => ?_) ?_
    | with_reducible dsimp only
    | (with_reducible split)

theorem kept_ldgWrote {s₀ s : State} (hk : Kept s₀ s) (l : Nat) : Kept s₀ (State.ldgWrote s l) := by
  unfold State.ldgWrote
  repeat' first
    | with_reducible exact hk
    | (simp +contextual (maxDischargeDepth := 60) only [kept_ldgQueue, hk, kept_ite, kept_mk]; done)
    | with_reducible refine kept_ite (fun _ => ?_) (fun _ => ?_)
    | with_reducible refine kept_foldl _ (fun s hk x => ?_) ?_
    | with_reducible dsimp only
    | (with_reducible split)

end Sys2Proof.Machine
end

