-- ==== Sys2Proof/Laws/KeptPowerOps.lean ====
section
/-! SUPPORT. What the operations of Machine/PowerOps.lean keep of a state. -/

namespace Sys2Proof.Machine

theorem kept_setStep {s₀ s : State} (hk : Kept s₀ s) (d : Nat) (t : Option Tick) : Kept s₀ (State.setStep s d t) := by
  unfold State.setStep
  repeat' first
    | with_reducible exact hk
    | (simp +contextual (maxDischargeDepth := 60) only [hk, kept_mk]; done)
    | with_reducible refine kept_ite (fun _ => ?_) (fun _ => ?_)
    | with_reducible refine kept_foldl _ (fun s hk x => ?_) ?_
    | with_reducible dsimp only
    | (with_reducible split)

theorem kept_setDom {s₀ s : State} (hk : Kept s₀ s) (d : Nat) (st : Nat) : Kept s₀ (State.setDom s d st) := by
  unfold State.setDom
  repeat' first
    | with_reducible exact hk
    | (simp +contextual (maxDischargeDepth := 60) only [kept_setF, kept_setStep, hk]; done)
    | with_reducible refine kept_ite (fun _ => ?_) (fun _ => ?_)
    | with_reducible refine kept_foldl _ (fun s hk x => ?_) ?_
    | with_reducible dsimp only
    | (with_reducible split)

theorem kept_pwrNote {s₀ s : State} (hk : Kept s₀ s) (d : Nat) (who : Nat) : Kept s₀ (State.pwrNote s d who) := by
  unfold State.pwrNote
  repeat' first
    | with_reducible exact hk
    | (simp +contextual (maxDischargeDepth := 60) only [kept_setF, kept_setReg, kept_setB, hk]; done)
    | with_reducible refine kept_ite (fun _ => ?_) (fun _ => ?_)
    | with_reducible refine kept_foldl _ (fun s hk x => ?_) ?_
    | with_reducible dsimp only
    | (with_reducible split)

theorem kept_pwrRefuse {s₀ s : State} (hk : Kept s₀ s) (d : Nat) (who : Nat) : Kept s₀ (State.pwrRefuse s d who) := by
  unfold State.pwrRefuse
  repeat' first
    | with_reducible exact hk
    | (simp +contextual (maxDischargeDepth := 60) only [kept_incSat, kept_pwrNote, hk]; done)
    | with_reducible refine kept_ite (fun _ => ?_) (fun _ => ?_)
    | with_reducible refine kept_foldl _ (fun s hk x => ?_) ?_
    | with_reducible dsimp only
    | (with_reducible split)

theorem kept_pwrAborted {s₀ s : State} (hk : Kept s₀ s) (d : Nat) : Kept s₀ (State.pwrAborted s d) := by
  unfold State.pwrAborted
  repeat' first
    | with_reducible exact hk
    | (simp +contextual (maxDischargeDepth := 60) only [kept_pwrNote, kept_incSat, hk]; done)
    | with_reducible refine kept_ite (fun _ => ?_) (fun _ => ?_)
    | with_reducible refine kept_foldl _ (fun s hk x => ?_) ?_
    | with_reducible dsimp only
    | (with_reducible split)

theorem kept_startRegs {s₀ s : State} (hk : Kept s₀ s) (edge : Tick) : Kept s₀ (State.startRegs s edge) := by
  unfold State.startRegs
  repeat' first
    | with_reducible exact hk
    | (simp +contextual (maxDischargeDepth := 60) only [kept_setStep, implies_true, forall_const, hk, kept_ite, kept_foldl, kept_mk]; done)
    | with_reducible refine kept_ite (fun _ => ?_) (fun _ => ?_)
    | with_reducible refine kept_foldl _ (fun s hk x => ?_) ?_
    | with_reducible dsimp only
    | (with_reducible split)

theorem kept_beginDown {s₀ s : State} (hk : Kept s₀ s) (d : Nat) (edge : Tick) : Kept s₀ (State.beginDown s d edge) := by
  unfold State.beginDown
  repeat' first
    | with_reducible exact hk
    | (simp +contextual (maxDischargeDepth := 60) only [kept_setDom, kept_setStep, hk, kept_ite]; done)
    | with_reducible refine kept_ite (fun _ => ?_) (fun _ => ?_)
    | with_reducible refine kept_foldl _ (fun s hk x => ?_) ?_
    | with_reducible dsimp only
    | (with_reducible split)

theorem kept_beginUp {s₀ s : State} (hk : Kept s₀ s) (d : Nat) : Kept s₀ (State.beginUp s d) := by
  unfold State.beginUp
  repeat' first
    | with_reducible exact hk
    | (simp +contextual (maxDischargeDepth := 60) only [kept_setDom, hk]; done)
    | with_reducible refine kept_ite (fun _ => ?_) (fun _ => ?_)
    | with_reducible refine kept_foldl _ (fun s hk x => ?_) ?_
    | with_reducible dsimp only
    | (with_reducible split)

theorem kept_onEventAt {s₀ s : State} (hk : Kept s₀ s) (d : Nat) (edge : Tick) : Kept s₀ (State.onEventAt s d edge) := by
  unfold State.onEventAt
  repeat' first
    | with_reducible exact hk
    | (simp +contextual (maxDischargeDepth := 60) only [kept_beginUp, kept_setB, hk, kept_ite, kept_mk]; done)
    | with_reducible refine kept_ite (fun _ => ?_) (fun _ => ?_)
    | with_reducible refine kept_foldl _ (fun s hk x => ?_) ?_
    | with_reducible dsimp only
    | (with_reducible split)

theorem kept_onEvent {s₀ s : State} (hk : Kept s₀ s) (d : Nat) (edge : Tick) : Kept s₀ (State.onEvent s d edge) := by
  unfold State.onEvent
  repeat' first
    | with_reducible exact hk
    | (simp +contextual (maxDischargeDepth := 60) only [kept_onEventAt, implies_true, forall_const, hk, kept_ite, kept_foldl, kept_mkFilter]; done)
    | with_reducible refine kept_ite (fun _ => ?_) (fun _ => ?_)
    | with_reducible refine kept_foldl _ (fun s hk x => ?_) ?_
    | with_reducible dsimp only
    | (with_reducible split)

theorem kept_offEvent {s₀ s : State} (hk : Kept s₀ s) (d : Nat) (edge : Tick) : Kept s₀ (State.offEvent s d edge) := by
  unfold State.offEvent
  repeat' first
    | with_reducible exact hk
    | (simp +contextual (maxDischargeDepth := 60) only [kept_beginDown, kept_setB, kept_setDom, hk, kept_ite, kept_mk]; done)
    | with_reducible refine kept_ite (fun _ => ?_) (fun _ => ?_)
    | with_reducible refine kept_foldl _ (fun s hk x => ?_) ?_
    | with_reducible dsimp only
    | (with_reducible split)

theorem kept_lowerReady {s₀ s : State} (hk : Kept s₀ s) (edge : Tick) : Kept s₀ (State.lowerReady s edge) := by
  unfold State.lowerReady
  repeat' first
    | with_reducible exact hk
    | (simp +contextual (maxDischargeDepth := 60) only [kept_offEvent, implies_true, forall_const, hk, kept_ite, kept_foldl, kept_mk]; done)
    | with_reducible refine kept_ite (fun _ => ?_) (fun _ => ?_)
    | with_reducible refine kept_foldl _ (fun s hk x => ?_) ?_
    | with_reducible dsimp only
    | (with_reducible split)

theorem kept_raiseReady {s₀ s : State} (hk : Kept s₀ s) : Kept s₀ (State.raiseReady s) := by
  unfold State.raiseReady
  repeat' first
    | with_reducible exact hk
    | (simp +contextual (maxDischargeDepth := 60) only [kept_beginUp, implies_true, forall_const, hk, kept_ite, kept_foldl, kept_mk]; done)
    | with_reducible refine kept_ite (fun _ => ?_) (fun _ => ?_)
    | with_reducible refine kept_foldl _ (fun s hk x => ?_) ?_
    | with_reducible dsimp only
    | (with_reducible split)

theorem kept_planNext {s₀ s : State} (h : Kept s₀ s) (edge : Tick) (n : Nat) : Kept s₀ (s.planNext edge n) := by
  induction n generalizing s with
  | zero => exact h
  | succ n ih =>
    unfold State.planNext
    repeat' first
      | with_reducible exact h
      | (simp +contextual (maxDischargeDepth := 60) only [ih, kept_onEvent, kept_offEvent, h, kept_ite, kept_mk]; done)
      | with_reducible dsimp only
      | with_reducible split

theorem kept_domMoved {s₀ s : State} (hk : Kept s₀ s) (edge : Tick) : Kept s₀ (State.domMoved s edge) := by
  unfold State.domMoved
  repeat' first
    | with_reducible exact hk
    | (simp +contextual (maxDischargeDepth := 60) only [kept_planNext, kept_lowerReady, kept_raiseReady, kept_startRegs, hk]; done)
    | with_reducible refine kept_ite (fun _ => ?_) (fun _ => ?_)
    | with_reducible refine kept_foldl _ (fun s hk x => ?_) ?_
    | with_reducible dsimp only
    | (with_reducible split)

theorem kept_archiveRefuse {s₀ s : State} (hk : Kept s₀ s) (d : Nat) (who : Nat) : Kept s₀ (State.archiveRefuse s d who) := by
  unfold State.archiveRefuse
  repeat' first
    | with_reducible exact hk
    | (simp +contextual (maxDischargeDepth := 60) only [kept_pwrRefuse, kept_setF, hk, kept_mk]; done)
    | with_reducible refine kept_ite (fun _ => ?_) (fun _ => ?_)
    | with_reducible refine kept_foldl _ (fun s hk x => ?_) ?_
    | with_reducible dsimp only
    | (with_reducible split)

theorem kept_archiveTake {s₀ s : State} (hk : Kept s₀ s) (edge : Tick) : Kept s₀ (State.archiveTake s edge) := by
  unfold State.archiveTake
  repeat' first
    | with_reducible exact hk
    | (simp +contextual (maxDischargeDepth := 60) only [kept_setF, hk, kept_mk]; done)
    | with_reducible refine kept_ite (fun _ => ?_) (fun _ => ?_)
    | with_reducible refine kept_foldl _ (fun s hk x => ?_) ?_
    | with_reducible dsimp only
    | (with_reducible split)

theorem kept_pwrPush {s₀ s : State} (hk : Kept s₀ s) (k : PwrKind) : Kept s₀ (State.pwrPush s k) := by
  unfold State.pwrPush
  repeat' first
    | with_reducible exact hk
    | (simp +contextual (maxDischargeDepth := 60) only [hk, kept_mk]; done)
    | with_reducible refine kept_ite (fun _ => ?_) (fun _ => ?_)
    | with_reducible refine kept_foldl _ (fun s hk x => ?_) ?_
    | with_reducible dsimp only
    | (with_reducible split)

theorem kept_takeOn {s₀ s : State} (hk : Kept s₀ s) (d : Nat) (edge : Tick) : Kept s₀ (State.takeOn s d edge) := by
  unfold State.takeOn
  repeat' first
    | with_reducible exact hk
    | (simp +contextual (maxDischargeDepth := 60) only [kept_archiveRefuse, kept_onEvent, hk, kept_ite]; done)
    | with_reducible refine kept_ite (fun _ => ?_) (fun _ => ?_)
    | with_reducible refine kept_foldl _ (fun s hk x => ?_) ?_
    | with_reducible dsimp only
    | (with_reducible split)

theorem kept_pwrTake {s₀ s : State} (hk : Kept s₀ s) (r : PwrReq) : Kept s₀ (State.pwrTake s r) := by
  unfold State.pwrTake
  repeat' first
    | with_reducible exact hk
    | (simp +contextual (maxDischargeDepth := 60) only [kept_archiveTake, kept_onEvent, kept_planNext, kept_pwrRefuse, kept_takeOn, kept_offEvent, implies_true, forall_const, hk, kept_ite, kept_foldl, kept_mk, kept_mkFilter]; done)
    | with_reducible refine kept_ite (fun _ => ?_) (fun _ => ?_)
    | with_reducible refine kept_foldl _ (fun s hk x => ?_) ?_
    | with_reducible dsimp only
    | (with_reducible split)

theorem kept_pwrEdge {s₀ s : State} (hk : Kept s₀ s) (edge : Tick) : Kept s₀ (State.pwrEdge s edge) := by
  unfold State.pwrEdge
  repeat' first
    | with_reducible exact hk
    | (simp +contextual (maxDischargeDepth := 60) only [kept_startRegs, kept_pwrTake, implies_true, forall_const, hk, kept_foldl, kept_mk, kept_mkFilter]; done)
    | with_reducible refine kept_ite (fun _ => ?_) (fun _ => ?_)
    | with_reducible refine kept_foldl _ (fun s hk x => ?_) ?_
    | with_reducible dsimp only
    | (with_reducible split)

end Sys2Proof.Machine
end

