-- ==== Sys2Proof/Laws/KeptGates.lean ====
section
/-! SUPPORT. What the operations of Machine/Gates.lean keep of a state. -/

namespace Sys2Proof.Machine

theorem kept_gateRefuse {s₀ s : State} (hk : Kept s₀ s) (i : Nat) (a : Nat) (k : AccKind) : Kept s₀ (State.gateRefuse s i a k) := by
  unfold State.gateRefuse
  repeat' first
    | with_reducible exact hk
    | (simp +contextual (maxDischargeDepth := 60) only [kept_setB, kept_setReg, kept_raise, hk, kept_ite]; done)
    | with_reducible refine kept_ite (fun _ => ?_) (fun _ => ?_)
    | with_reducible refine kept_foldl _ (fun s hk x => ?_) ?_
    | with_reducible dsimp only
    | (with_reducible split)

theorem kept_memUncor {s₀ s : State} (hk : Kept s₀ s) (a : Nat) (n : Nat) : Kept s₀ (State.memUncor s a n) := by
  unfold State.memUncor
  repeat' first
    | with_reducible exact hk
    | (simp +contextual (maxDischargeDepth := 60) only [kept_raise, hk, kept_ite]; done)
    | with_reducible refine kept_ite (fun _ => ?_) (fun _ => ?_)
    | with_reducible refine kept_foldl _ (fun s hk x => ?_) ?_
    | with_reducible dsimp only
    | (with_reducible split)

theorem kept_readMem {s₀ s : State} (hk : Kept s₀ s) (i : Nat) (a : Nat) (n : Nat) : Kept s₀ (State.readMem s i a n).2 := by
  unfold State.readMem
  repeat' first
    | with_reducible exact hk
    | (simp +contextual (maxDischargeDepth := 60) only [kept_memUncor, kept_gateRefuse, hk, kept_ite, kept_mk]; done)
    | with_reducible refine kept_ite (fun _ => ?_) (fun _ => ?_)
    | with_reducible refine kept_foldl _ (fun s hk x => ?_) ?_
    | with_reducible dsimp only
    | (with_reducible split)

theorem kept_writeMem {s₀ s : State} (hk : Kept s₀ s) (i : Nat) (a : Nat) (bs : List Byte) : Kept s₀ (State.writeMem s i a bs).2 := by
  unfold State.writeMem
  repeat' first
    | with_reducible exact hk
    | (simp +contextual (maxDischargeDepth := 60) only [kept_gateRefuse, kept_storeBytes, kept_ldgWrote, hk, kept_ite]; done)
    | with_reducible refine kept_ite (fun _ => ?_) (fun _ => ?_)
    | with_reducible refine kept_foldl _ (fun s hk x => ?_) ?_
    | with_reducible dsimp only
    | (with_reducible split)

end Sys2Proof.Machine
end

