-- ==== Sys2Proof/Laws/KeptImage.lean ====
section
/-! SUPPORT. What the operations of Machine/Image.lean keep of a state. -/

namespace Sys2Proof.Machine

theorem kept_imageUncor {s₀ s : State} (hk : Kept s₀ s) (ready : Bool) (a : Nat) : Kept s₀ (State.imageUncor s ready a) := by
  unfold State.imageUncor
  repeat' first
    | with_reducible exact hk
    | (simp +contextual (maxDischargeDepth := 60) only [kept_memUncor, hk, kept_ite]; done)
    | with_reducible refine kept_ite (fun _ => ?_) (fun _ => ?_)
    | with_reducible refine kept_foldl _ (fun s hk x => ?_) ?_
    | with_reducible dsimp only
    | (with_reducible split)

end Sys2Proof.Machine
end

