-- ==== Sys2Proof/Laws/KeptFxOps.lean ====
section
/-! SUPPORT. What the operations of Machine/FxOps.lean keep of a state. -/

namespace Sys2Proof.Machine

theorem kept_setStreams {s₀ s : State} (hk : Kept s₀ s) (st : Nat) (xs : List Stream) : Kept s₀ (State.setStreams s st xs) := by
  unfold State.setStreams
  repeat' first
    | with_reducible exact hk
    | (simp +contextual (maxDischargeDepth := 60) only [hk, kept_mk]; done)
    | with_reducible refine kept_ite (fun _ => ?_) (fun _ => ?_)
    | with_reducible refine kept_foldl _ (fun s hk x => ?_) ?_
    | with_reducible dsimp only
    | (with_reducible split)

theorem kept_modExp {s₀ s : State} (hk : Kept s₀ s) (st : Nat) (g : Exp → Exp) : Kept s₀ (State.modExp s st g) := by
  unfold State.modExp
  repeat' first
    | with_reducible exact hk
    | (simp +contextual (maxDischargeDepth := 60) only [hk, kept_mk]; done)
    | with_reducible refine kept_ite (fun _ => ?_) (fun _ => ?_)
    | with_reducible refine kept_foldl _ (fun s hk x => ?_) ?_
    | with_reducible dsimp only
    | (with_reducible split)

theorem kept_setNextLn {s₀ s : State} (hk : Kept s₀ s) (st : Nat) (n : Nat) : Kept s₀ (State.setNextLn s st n) := by
  unfold State.setNextLn
  repeat' first
    | with_reducible exact hk
    | (simp +contextual (maxDischargeDepth := 60) only [kept_setPair, hk]; done)
    | with_reducible refine kept_ite (fun _ => ?_) (fun _ => ?_)
    | with_reducible refine kept_foldl _ (fun s hk x => ?_) ?_
    | with_reducible dsimp only
    | (with_reducible split)

theorem kept_setFilled {s₀ s : State} (hk : Kept s₀ s) (st : Nat) (n : Nat) : Kept s₀ (State.setFilled s st n) := by
  unfold State.setFilled
  repeat' first
    | with_reducible exact hk
    | (simp +contextual (maxDischargeDepth := 60) only [kept_setPair, hk]; done)
    | with_reducible refine kept_ite (fun _ => ?_) (fun _ => ?_)
    | with_reducible refine kept_foldl _ (fun s hk x => ?_) ?_
    | with_reducible dsimp only
    | (with_reducible split)

theorem kept_setReleased {s₀ s : State} (hk : Kept s₀ s) (st : Nat) (n : Nat) : Kept s₀ (State.setReleased s st n) := by
  unfold State.setReleased
  repeat' first
    | with_reducible exact hk
    | (simp +contextual (maxDischargeDepth := 60) only [kept_setPair, hk]; done)
    | with_reducible refine kept_ite (fun _ => ?_) (fun _ => ?_)
    | with_reducible refine kept_foldl _ (fun s hk x => ?_) ?_
    | with_reducible dsimp only
    | (with_reducible split)

theorem kept_advanceFilled {s₀ s : State} (hk : Kept s₀ s) (st : Nat) : Kept s₀ (State.advanceFilled s st) := by
  unfold State.advanceFilled
  repeat' first
    | with_reducible exact hk
    | (simp +contextual (maxDischargeDepth := 60) only [kept_setFilled, hk, kept_mk, kept_mkFilter]; done)
    | with_reducible refine kept_ite (fun _ => ?_) (fun _ => ?_)
    | with_reducible refine kept_foldl _ (fun s hk x => ?_) ?_
    | with_reducible dsimp only
    | (with_reducible split)

theorem kept_advanceReleased {s₀ s : State} (hk : Kept s₀ s) (st : Nat) : Kept s₀ (State.advanceReleased s st) := by
  unfold State.advanceReleased
  repeat' first
    | with_reducible exact hk
    | (simp +contextual (maxDischargeDepth := 60) only [kept_setReleased, implies_true, forall_const, hk, kept_foldl]; done)
    | with_reducible refine kept_ite (fun _ => ?_) (fun _ => ?_)
    | with_reducible refine kept_foldl _ (fun s hk x => ?_) ?_
    | with_reducible dsimp only
    | (with_reducible split)

theorem kept_updateCredit {s₀ s : State} (hk : Kept s₀ s) (st : Nat) : Kept s₀ (State.updateCredit s st) := by
  unfold State.updateCredit
  repeat' first
    | with_reducible exact hk
    | (simp +contextual (maxDischargeDepth := 60) only [kept_setStreams, hk, kept_ite]; done)
    | with_reducible refine kept_ite (fun _ => ?_) (fun _ => ?_)
    | with_reducible refine kept_foldl _ (fun s hk x => ?_) ?_
    | with_reducible dsimp only
    | (with_reducible split)

theorem kept_setLane {s₀ s : State} (hk : Kept s₀ s) (n : Nat) (x : Lane) : Kept s₀ (State.setLane s n x) := by
  unfold State.setLane
  repeat' first
    | with_reducible exact hk
    | (simp +contextual (maxDischargeDepth := 60) only [hk, kept_mk]; done)
    | with_reducible refine kept_ite (fun _ => ?_) (fun _ => ?_)
    | with_reducible refine kept_foldl _ (fun s hk x => ?_) ?_
    | with_reducible dsimp only
    | (with_reducible split)

theorem kept_stopLanes {s₀ s : State} (hk : Kept s₀ s) (st : Nat) (ln0 : Nat) : Kept s₀ (State.stopLanes s st ln0) := by
  unfold State.stopLanes
  repeat' first
    | with_reducible exact hk
    | (simp +contextual (maxDischargeDepth := 60) only [kept_incSat, kept_setLane, implies_true, forall_const, hk, kept_ite, kept_foldl]; done)
    | with_reducible refine kept_ite (fun _ => ?_) (fun _ => ?_)
    | with_reducible refine kept_foldl _ (fun s hk x => ?_) ?_
    | with_reducible dsimp only
    | (with_reducible split)

theorem kept_endStream {s₀ s : State} (hk : Kept s₀ s) (st : Nat) (x : Stream) : Kept s₀ (State.endStream s st x) := by
  unfold State.endStream
  repeat' first
    | with_reducible exact hk
    | (simp +contextual (maxDischargeDepth := 60) only [kept_advanceFilled, kept_advanceReleased, kept_stopLanes, kept_updateCredit, kept_setStreams, kept_modExp, hk, kept_mk, kept_mkFilter]; done)
    | with_reducible refine kept_ite (fun _ => ?_) (fun _ => ?_)
    | with_reducible refine kept_foldl _ (fun s hk x => ?_) ?_
    | with_reducible dsimp only
    | (with_reducible split)

theorem kept_sendCtl {s₀ s : State} (hk : Kept s₀ s) (st : Nat) (marker : Tick) (word : Nat → BitVec 64) : Kept s₀ (State.sendCtl s st marker word) := by
  unfold State.sendCtl
  repeat' first
    | with_reducible exact hk
    | (simp +contextual (maxDischargeDepth := 60) only [kept_modExp, hk, kept_mk]; done)
    | with_reducible refine kept_ite (fun _ => ?_) (fun _ => ?_)
    | with_reducible refine kept_foldl _ (fun s hk x => ?_) ?_
    | with_reducible dsimp only
    | (with_reducible split)

theorem kept_blankStation {s₀ s : State} (hk : Kept s₀ s) (st : Nat) : Kept s₀ (State.blankStation s st) := by
  unfold State.blankStation
  repeat' first
    | with_reducible exact hk
    | (simp +contextual (maxDischargeDepth := 60) only [kept_sendCtl, kept_modExp, hk, kept_mk]; done)
    | with_reducible refine kept_ite (fun _ => ?_) (fun _ => ?_)
    | with_reducible refine kept_foldl _ (fun s hk x => ?_) ?_
    | with_reducible dsimp only
    | (with_reducible split)

theorem kept_blankSheet {s₀ s : State} (hk : Kept s₀ s) (h : Nat) : Kept s₀ (State.blankSheet s h) := by
  unfold State.blankSheet
  repeat' first
    | with_reducible exact hk
    | (simp +contextual (maxDischargeDepth := 60) only [kept_blankStation, implies_true, forall_const, hk, kept_ite, kept_foldl, kept_mk]; done)
    | with_reducible refine kept_ite (fun _ => ?_) (fun _ => ?_)
    | with_reducible refine kept_foldl _ (fun s hk x => ?_) ?_
    | with_reducible dsimp only
    | (with_reducible split)

theorem kept_endSheet {s₀ s : State} (hk : Kept s₀ s) (h : Nat) : Kept s₀ (State.endSheet s h) := by
  unfold State.endSheet
  repeat' first
    | with_reducible exact hk
    | (simp +contextual (maxDischargeDepth := 60) only [kept_blankSheet, kept_endStream, kept_advanceReleased, kept_updateCredit, kept_modExp, implies_true, forall_const, hk, kept_ite, kept_foldl, kept_mk, kept_mkFilter]; done)
    | with_reducible refine kept_ite (fun _ => ?_) (fun _ => ?_)
    | with_reducible refine kept_foldl _ (fun s hk x => ?_) ?_
    | with_reducible dsimp only
    | (with_reducible split)

end Sys2Proof.Machine
end

