-- ==== Sys2Proof/Laws/KeptTimetable.lean ====
section
/-! SUPPORT. What the operations of Machine/Timetable.lean keep of a state. -/

namespace Sys2Proof.Machine

theorem kept_setSheet {s₀ s : State} (hk : Kept s₀ s) (k : Nat) (x : Option Sheet) : Kept s₀ (State.setSheet s k x) := by
  unfold State.setSheet
  repeat' first
    | with_reducible exact hk
    | (simp +contextual (maxDischargeDepth := 60) only [hk, kept_mk]; done)
    | with_reducible refine kept_ite (fun _ => ?_) (fun _ => ?_)
    | with_reducible refine kept_foldl _ (fun s hk x => ?_) ?_
    | with_reducible dsimp only
    | (with_reducible split)

theorem kept_modSheet {s₀ s : State} (hk : Kept s₀ s) (k : Nat) (g : Sheet → Sheet) : Kept s₀ (State.modSheet s k g) := by
  unfold State.modSheet
  repeat' first
    | with_reducible exact hk
    | (simp +contextual (maxDischargeDepth := 60) only [kept_setSheet, hk, kept_mk]; done)
    | with_reducible refine kept_ite (fun _ => ?_) (fun _ => ?_)
    | with_reducible refine kept_foldl _ (fun s hk x => ?_) ?_
    | with_reducible dsimp only
    | (with_reducible split)

theorem kept_resqPush {s₀ s : State} (hk : Kept s₀ s) (r : ResRecord) : Kept s₀ (State.resqPush s r) := by
  unfold State.resqPush
  repeat' first
    | with_reducible exact hk
    | (simp +contextual (maxDischargeDepth := 60) only [kept_setF, kept_storeBytes, hk, kept_ite]; done)
    | with_reducible refine kept_ite (fun _ => ?_) (fun _ => ?_)
    | with_reducible refine kept_foldl _ (fun s hk x => ?_) ?_
    | with_reducible dsimp only
    | (with_reducible split)

theorem kept_resRecord {s₀ s : State} (hk : Kept s₀ s) (r : ResRecord) : Kept s₀ (State.resRecord s r).2 := by
  unfold State.resRecord
  repeat' first
    | with_reducible exact hk
    | (simp +contextual (maxDischargeDepth := 60) only [kept_resqPush, hk, kept_ite, kept_mk]; done)
    | with_reducible refine kept_ite (fun _ => ?_) (fun _ => ?_)
    | with_reducible refine kept_foldl _ (fun s hk x => ?_) ?_
    | with_reducible dsimp only
    | (with_reducible split)

theorem kept_flushHeld {s₀ s : State} (hk : Kept s₀ s) (n : Nat) : Kept s₀ (State.flushHeld s n) := by
  induction n generalizing s with
  | zero => exact hk
  | succ n ih =>
    unfold State.flushHeld
    repeat' first
      | with_reducible exact hk
      | (simp +contextual (maxDischargeDepth := 60) only [ih, kept_modSheet, kept_resqPush, hk, kept_ite, kept_mk]; done)
      | with_reducible refine kept_ite (fun _ => ?_) (fun _ => ?_)
      | with_reducible refine kept_foldl _ (fun s hk x => ?_) ?_
      | with_reducible dsimp only
      | (with_reducible split)

theorem kept_requestSwap {s₀ s : State} (hk : Kept s₀ s)  : Kept s₀ (State.requestSwap s) := by
  unfold State.requestSwap
  repeat' first
    | with_reducible exact hk
    | (simp +contextual (maxDischargeDepth := 60) only [kept_setB, implies_true, forall_const, hk, kept_ite, kept_foldl, kept_mk]; done)
    | with_reducible refine kept_ite (fun _ => ?_) (fun _ => ?_)
    | with_reducible refine kept_foldl _ (fun s hk x => ?_) ?_
    | with_reducible dsimp only
    | (with_reducible split)

theorem kept_lastSheetDone {s₀ s : State} (hk : Kept s₀ s)  : Kept s₀ (State.lastSheetDone s) := by
  unfold State.lastSheetDone
  repeat' first
    | with_reducible exact hk
    | (simp +contextual (maxDischargeDepth := 60) only [kept_setF, hk, kept_ite]; done)
    | with_reducible refine kept_ite (fun _ => ?_) (fun _ => ?_)
    | with_reducible refine kept_foldl _ (fun s hk x => ?_) ?_
    | with_reducible dsimp only
    | (with_reducible split)

theorem kept_tryFree {s₀ s : State} (hk : Kept s₀ s) (k : Nat) : Kept s₀ (State.tryFree s k) := by
  unfold State.tryFree
  repeat' first
    | with_reducible exact hk
    | (simp +contextual (maxDischargeDepth := 60) only [kept_setSheet, kept_requestSwap, kept_setF, hk, kept_ite, kept_mk]; done)
    | with_reducible refine kept_ite (fun _ => ?_) (fun _ => ?_)
    | with_reducible refine kept_foldl _ (fun s hk x => ?_) ?_
    | with_reducible dsimp only
    | (with_reducible split)

theorem kept_dropWindows {s₀ s : State} (hk : Kept s₀ s) (k : Nat) : Kept s₀ (State.dropWindows s k) := by
  unfold State.dropWindows
  repeat' first
    | with_reducible exact hk
    | (simp +contextual (maxDischargeDepth := 60) only [hk, kept_mk, kept_mkFilter]; done)
    | with_reducible refine kept_ite (fun _ => ?_) (fun _ => ?_)
    | with_reducible refine kept_foldl _ (fun s hk x => ?_) ?_
    | with_reducible dsimp only
    | (with_reducible split)

theorem kept_outcome {s₀ s : State} (hk : Kept s₀ s) (k : Nat) (st : Nat) (reason : Nat) (detail : Nat) (keep : Armed → Bool) (arm : Option ActList) : Kept s₀ (State.outcome s k st reason detail keep arm) := by
  unfold State.outcome
  have hk2 := hk
  repeat' first
    | with_reducible exact hk
    | with_reducible exact hk2
    | (simp +contextual (maxDischargeDepth := 60) only [kept_dropWindows, kept_raise, kept_ldgRecord, kept_setSheet, kept_resRecord, kept_tryFree, kept_incSat, kept_setF, kept_lastSheetDone, kept_endSheet, hk, hk2, kept_ite, kept_mk, kept_mkFilter]; done)
    | with_reducible refine kept_ite (fun _ => ?_) (fun _ => ?_)
    | with_reducible refine kept_foldl _ (fun s hk x => ?_) ?_
    | with_reducible dsimp only
    | (with_reducible split) <;> first | (have hk2 : Kept s₀ _ := kept_pair ‹(_ : _ × State) = (_, _)› (by simp +contextual (maxDischargeDepth := 60) only [kept_dropWindows, kept_raise, kept_ldgRecord, kept_setSheet, kept_resRecord, kept_tryFree, kept_incSat, kept_setF, kept_lastSheetDone, kept_endSheet, hk, hk2, kept_ite, kept_mk, kept_mkFilter]; done)) | skip

theorem kept_withdrawSheet {s₀ s : State} (hk : Kept s₀ s) (k : Nat) (reason : Nat) (detail : Nat) : Kept s₀ (State.withdrawSheet s k reason detail) := by
  unfold State.withdrawSheet
  repeat' first
    | with_reducible exact hk
    | (simp +contextual (maxDischargeDepth := 60) only [kept_outcome, hk]; done)
    | with_reducible refine kept_ite (fun _ => ?_) (fun _ => ?_)
    | with_reducible refine kept_foldl _ (fun s hk x => ?_) ?_
    | with_reducible dsimp only
    | (with_reducible split)

theorem kept_spoilSheet {s₀ s : State} (hk : Kept s₀ s) (k : Nat) (reason : Nat) (detail : Nat) : Kept s₀ (State.spoilSheet s k reason detail) := by
  unfold State.spoilSheet
  repeat' first
    | with_reducible exact hk
    | (simp +contextual (maxDischargeDepth := 60) only [kept_outcome, hk]; done)
    | with_reducible refine kept_ite (fun _ => ?_) (fun _ => ?_)
    | with_reducible refine kept_foldl _ (fun s hk x => ?_) ?_
    | with_reducible dsimp only
    | (with_reducible split)

theorem kept_stopSheet {s₀ s : State} (hk : Kept s₀ s) (k : Nat) (reason : Nat) (detail : Nat) : Kept s₀ (State.stopSheet s k reason detail) := by
  unfold State.stopSheet
  repeat' first
    | with_reducible exact hk
    | (simp +contextual (maxDischargeDepth := 60) only [kept_outcome, hk]; done)
    | with_reducible refine kept_ite (fun _ => ?_) (fun _ => ?_)
    | with_reducible refine kept_foldl _ (fun s hk x => ?_) ?_
    | with_reducible dsimp only
    | (with_reducible split)

theorem kept_amend {s₀ s : State} (hk : Kept s₀ s) (k : Nat) (st : Nat) (reason : Nat) (detail : Nat) : Kept s₀ (State.amend s k st reason detail) := by
  unfold State.amend
  repeat' first
    | with_reducible exact hk
    | (simp +contextual (maxDischargeDepth := 60) only [kept_modSheet, kept_raise, kept_incSat, kept_setF, kept_setMem, hk, kept_ite, kept_mk]; done)
    | with_reducible refine kept_ite (fun _ => ?_) (fun _ => ?_)
    | with_reducible refine kept_foldl _ (fun s hk x => ?_) ?_
    | with_reducible dsimp only
    | (with_reducible split)

theorem kept_causeOnce {s₀ s : State} (hk : Kept s₀ s) (k : Nat) (reason : Nat) (detail : Nat) : Kept s₀ (State.causeOnce s k reason detail) := by
  unfold State.causeOnce
  repeat' first
    | with_reducible exact hk
    | (simp +contextual (maxDischargeDepth := 60) only [kept_withdrawSheet, kept_modSheet, kept_spoilSheet, kept_amend, kept_incSat, kept_blankSheet, hk, kept_ite, kept_mk, kept_mkFilter]; done)
    | with_reducible refine kept_ite (fun _ => ?_) (fun _ => ?_)
    | with_reducible refine kept_foldl _ (fun s hk x => ?_) ?_
    | with_reducible dsimp only
    | (with_reducible split)

theorem kept_streamFail {s₀ s : State} (hk : Kept s₀ s) (st : Nat) (h : Nat) (err : Nat) (fail : Nat) (detail : Nat) (row : Nat) : Kept s₀ (State.streamFail s st h err fail detail row) := by
  unfold State.streamFail
  repeat' first
    | with_reducible exact hk
    | (simp +contextual (maxDischargeDepth := 60) only [kept_raise, kept_setReg, kept_causeOnce, hk, kept_ite]; done)
    | with_reducible refine kept_ite (fun _ => ?_) (fun _ => ?_)
    | with_reducible refine kept_foldl _ (fun s hk x => ?_) ?_
    | with_reducible dsimp only
    | (with_reducible split)

theorem kept_checkPlane {s₀ s : State} (hk : Kept s₀ s) (st : Nat) (x : Stream) : Kept s₀ (State.checkPlane s st x).2 := by
  unfold State.checkPlane
  have hk2 := hk
  repeat' first
    | with_reducible exact hk
    | with_reducible exact hk2
    | (simp +contextual (maxDischargeDepth := 60) only [kept_readMem, hk, hk2, kept_ite, kept_mk]; done)
    | with_reducible refine kept_ite (fun _ => ?_) (fun _ => ?_)
    | with_reducible refine kept_foldl _ (fun s hk x => ?_) ?_
    | with_reducible dsimp only
    | (with_reducible split) <;> first | (have hk2 : Kept s₀ _ := kept_pair ‹(_ : _ × State) = (_, _)› (by simp +contextual (maxDischargeDepth := 60) only [kept_readMem, hk, hk2, kept_ite, kept_mk]; done)) | skip

theorem kept_activate {s₀ s : State} (hk : Kept s₀ s) (st : Nat) : Kept s₀ (State.activate s st) := by
  unfold State.activate
  have hk2 := hk
  repeat' first
    | with_reducible exact hk
    | with_reducible exact hk2
    | (simp +contextual (maxDischargeDepth := 60) only [kept_setStreams, kept_updateCredit, kept_endStream, kept_checkPlane, kept_streamFail, hk, hk2, kept_ite, kept_mk]; done)
    | with_reducible refine kept_ite (fun _ => ?_) (fun _ => ?_)
    | with_reducible refine kept_foldl _ (fun s hk x => ?_) ?_
    | with_reducible dsimp only
    | (with_reducible split) <;> first | (have hk2 : Kept s₀ _ := kept_pair ‹(_ : _ × State) = (_, _)› (by simp +contextual (maxDischargeDepth := 60) only [kept_setStreams, kept_updateCredit, kept_endStream, kept_checkPlane, kept_streamFail, hk, hk2, kept_ite, kept_mk]; done)) | skip

theorem kept_settle {s₀ s : State} (hk : Kept s₀ s) (n : Nat) : Kept s₀ (State.settle s n) := by
  induction n generalizing s with
  | zero => exact hk
  | succ n ih =>
    unfold State.settle
    repeat' first
      | with_reducible exact hk
      | (simp +contextual (maxDischargeDepth := 60) only [ih, kept_activate, hk, kept_mk]; done)
      | with_reducible refine kept_ite (fun _ => ?_) (fun _ => ?_)
      | with_reducible refine kept_foldl _ (fun s hk x => ?_) ?_
      | with_reducible dsimp only
      | (with_reducible split)

theorem kept_cause {s₀ s : State} (hk : Kept s₀ s) (k : Nat) (reason : Nat) (detail : Nat) : Kept s₀ (State.cause s k reason detail) := by
  unfold State.cause
  repeat' first
    | with_reducible exact hk
    | (simp +contextual (maxDischargeDepth := 60) only [kept_causeOnce, kept_settle, hk]; done)
    | with_reducible refine kept_ite (fun _ => ?_) (fun _ => ?_)
    | with_reducible refine kept_foldl _ (fun s hk x => ?_) ?_
    | with_reducible dsimp only
    | (with_reducible split)

theorem kept_causeH {s₀ s : State} (hk : Kept s₀ s) (h : Nat) (reason : Nat) (detail : Nat) : Kept s₀ (State.causeH s h reason detail) := by
  unfold State.causeH
  repeat' first
    | with_reducible exact hk
    | (simp +contextual (maxDischargeDepth := 60) only [kept_cause, hk, kept_ite]; done)
    | with_reducible refine kept_ite (fun _ => ?_) (fun _ => ?_)
    | with_reducible refine kept_foldl _ (fun s hk x => ?_) ?_
    | with_reducible dsimp only
    | (with_reducible split)

theorem kept_causeWhere {s₀ s : State} (hk : Kept s₀ s) (reason : Nat) (p : Nat → Sheet → Option Nat) : Kept s₀ (State.causeWhere s reason p) := by
  unfold State.causeWhere
  repeat' first
    | with_reducible exact hk
    | (simp +contextual (maxDischargeDepth := 60) only [kept_cause, implies_true, forall_const, hk, kept_foldl, kept_mk]; done)
    | with_reducible refine kept_ite (fun _ => ?_) (fun _ => ?_)
    | with_reducible refine kept_foldl _ (fun s hk x => ?_) ?_
    | with_reducible dsimp only
    | (with_reducible split)

theorem kept_causeAtUnit {s₀ s : State} (hk : Kept s₀ s) (reason : Nat) (kind : Nat) (unit : Nat) : Kept s₀ (State.causeAtUnit s reason kind unit) := by
  unfold State.causeAtUnit
  repeat' first
    | with_reducible exact hk
    | (simp +contextual (maxDischargeDepth := 60) only [kept_causeWhere, hk]; done)
    | with_reducible refine kept_ite (fun _ => ?_) (fun _ => ?_)
    | with_reducible refine kept_foldl _ (fun s hk x => ?_) ?_
    | with_reducible dsimp only
    | (with_reducible split)

theorem kept_sharedResource {s₀ s : State} (hk : Kept s₀ s) (k : Nat) (axis : Nat) : Kept s₀ (State.sharedResource s k axis) := by
  unfold State.sharedResource
  repeat' first
    | with_reducible exact hk
    | (simp +contextual (maxDischargeDepth := 60) only [kept_causeWhere, hk, kept_ite]; done)
    | with_reducible refine kept_ite (fun _ => ?_) (fun _ => ?_)
    | with_reducible refine kept_foldl _ (fun s hk x => ?_) ?_
    | with_reducible dsimp only
    | (with_reducible split)

theorem kept_dropArmed {s₀ s : State} (hk : Kept s₀ s) (k : Nat) (i : Nat) : Kept s₀ (State.dropArmed s k i) := by
  unfold State.dropArmed
  repeat' first
    | with_reducible exact hk
    | (simp +contextual (maxDischargeDepth := 60) only [kept_modSheet, hk, kept_ite, kept_mk, kept_mkFilter]; done)
    | with_reducible refine kept_ite (fun _ => ?_) (fun _ => ?_)
    | with_reducible refine kept_foldl _ (fun s hk x => ?_) ?_
    | with_reducible dsimp only
    | (with_reducible split)

theorem kept_markExecuted {s₀ s : State} (hk : Kept s₀ s) (k : Nat) (i : Nat) : Kept s₀ (State.markExecuted s k i) := by
  unfold State.markExecuted
  repeat' first
    | with_reducible exact hk
    | (simp +contextual (maxDischargeDepth := 60) only [kept_modSheet, hk, kept_ite, kept_mk]; done)
    | with_reducible refine kept_ite (fun _ => ?_) (fun _ => ?_)
    | with_reducible refine kept_foldl _ (fun s hk x => ?_) ?_
    | with_reducible dsimp only
    | (with_reducible split)

theorem kept_windowMissed {s₀ s : State} (hk : Kept s₀ s) (w : SnsWin) (late : Bool) : Kept s₀ (State.windowMissed s w late) := by
  unfold State.windowMissed
  repeat' first
    | with_reducible exact hk
    | (simp +contextual (maxDischargeDepth := 60) only [kept_setB, kept_raise, kept_cause, kept_setF, hk, kept_ite, kept_mk]; done)
    | with_reducible refine kept_ite (fun _ => ?_) (fun _ => ?_)
    | with_reducible refine kept_foldl _ (fun s hk x => ?_) ?_
    | with_reducible dsimp only
    | (with_reducible split)

theorem kept_lateAtExit {s₀ s : State} (hk : Kept s₀ s) (k : Nat) : Kept s₀ (State.lateAtExit s k) := by
  unfold State.lateAtExit
  repeat' first
    | with_reducible exact hk
    | (simp +contextual (maxDischargeDepth := 60) only [kept_windowMissed, implies_true, forall_const, hk, kept_ite, kept_foldl, kept_mkFilter]; done)
    | with_reducible refine kept_ite (fun _ => ?_) (fun _ => ?_)
    | with_reducible refine kept_foldl _ (fun s hk x => ?_) ?_
    | with_reducible dsimp only
    | (with_reducible split)

theorem kept_take {s₀ s : State} (hk : Kept s₀ s) (k : Nat) (i : Nat) (ok : Action → Bool) : KeptTake s₀ (State.take s k i ok) := by
  unfold State.take
  repeat' first
    | with_reducible exact hk
    | (simp +contextual (maxDischargeDepth := 60) only [kept_markExecuted, kept_dropArmed, kept_tryFree, kept_incSat, hk, kept_ite, keptTake_notDue, keptTake_skipped, keptTake_run, kept_mk]; done)
    | with_reducible refine kept_ite (fun _ => ?_) (fun _ => ?_)
    | with_reducible refine kept_foldl _ (fun s hk x => ?_) ?_
    | with_reducible dsimp only
    | (with_reducible split)

theorem kept_exited {s₀ s : State} (hk : Kept s₀ s) (k : Nat) : Kept s₀ (State.exited s k) := by
  unfold State.exited
  repeat' first
    | with_reducible exact hk
    | (simp +contextual (maxDischargeDepth := 60) only [kept_modSheet, hk, kept_mk]; done)
    | with_reducible refine kept_ite (fun _ => ?_) (fun _ => ?_)
    | with_reducible refine kept_foldl _ (fun s hk x => ?_) ?_
    | with_reducible dsimp only
    | (with_reducible split)

theorem kept_carriedOut {s₀ s : State} (hk : Kept s₀ s) (k : Nat) (a : Armed) : Kept s₀ (State.carriedOut s k a) := by
  unfold State.carriedOut
  repeat' first
    | with_reducible exact hk
    | (simp +contextual (maxDischargeDepth := 60) only [kept_setB, kept_lateAtExit, hk, kept_ite]; done)
    | with_reducible refine kept_ite (fun _ => ?_) (fun _ => ?_)
    | with_reducible refine kept_foldl _ (fun s hk x => ?_) ?_
    | with_reducible dsimp only
    | (with_reducible split)

theorem kept_report {s₀ s : State} (hk : Kept s₀ s) (k : Nat) (i : Nat) (t : Tick) : Kept s₀ (State.report s k i t) := by
  unfold State.report
  repeat' first
    | with_reducible exact hk
    | (simp +contextual (maxDischargeDepth := 60) only [kept_outcome, kept_dropArmed, kept_carriedOut, kept_modSheet, kept_tryFree, kept_settle, kept_exited, hk, kept_ite, kept_mk]; done)
    | with_reducible refine kept_ite (fun _ => ?_) (fun _ => ?_)
    | with_reducible refine kept_foldl _ (fun s hk x => ?_) ?_
    | with_reducible dsimp only
    | (with_reducible split)

theorem kept_refuseImage {s₀ s : State} (hk : Kept s₀ s) (ready : Bool) (addr : Nat) (reason : Nat) (detail : Nat) (cand : Nat) : Kept s₀ (State.refuseImage s ready addr reason detail cand) := by
  unfold State.refuseImage
  have hk2 := hk
  repeat' first
    | with_reducible exact hk
    | with_reducible exact hk2
    | (simp +contextual (maxDischargeDepth := 60) only [kept_resRecord, kept_incSat, hk, hk2, kept_ite]; done)
    | with_reducible refine kept_ite (fun _ => ?_) (fun _ => ?_)
    | with_reducible refine kept_foldl _ (fun s hk x => ?_) ?_
    | with_reducible dsimp only
    | (with_reducible split) <;> first | (have hk2 : Kept s₀ _ := kept_pair ‹(_ : _ × State) = (_, _)› (by simp +contextual (maxDischargeDepth := 60) only [kept_resRecord, kept_incSat, hk, hk2, kept_ite]; done)) | skip

theorem kept_abortCheck {s₀ s : State} (hk : Kept s₀ s) (reason : Nat) : Kept s₀ (State.abortCheck s reason) := by
  unfold State.abortCheck
  repeat' first
    | with_reducible exact hk
    | (simp +contextual (maxDischargeDepth := 60) only [kept_refuseImage, hk, kept_mk]; done)
    | with_reducible refine kept_ite (fun _ => ?_) (fun _ => ?_)
    | with_reducible refine kept_foldl _ (fun s hk x => ?_) ?_
    | with_reducible dsimp only
    | (with_reducible split)

theorem kept_closeAdmission {s₀ s : State} (hk : Kept s₀ s)  : Kept s₀ (State.closeAdmission s) := by
  unfold State.closeAdmission
  repeat' first
    | with_reducible exact hk
    | (simp +contextual (maxDischargeDepth := 60) only [kept_refuseImage, kept_abortCheck, implies_true, forall_const, hk, kept_foldl, kept_mk]; done)
    | with_reducible refine kept_ite (fun _ => ?_) (fun _ => ?_)
    | with_reducible refine kept_foldl _ (fun s hk x => ?_) ?_
    | with_reducible dsimp only
    | (with_reducible split)

theorem kept_safeAmend {s₀ s : State} (hk : Kept s₀ s) (k : Nat) (sh : Sheet) : Kept s₀ (State.safeAmend s k sh) := by
  unfold State.safeAmend
  repeat' first
    | with_reducible exact hk
    | (simp +contextual (maxDischargeDepth := 60) only [kept_modSheet, kept_amend, hk, kept_ite, kept_mk, kept_mkFilter]; done)
    | with_reducible refine kept_ite (fun _ => ?_) (fun _ => ?_)
    | with_reducible refine kept_foldl _ (fun s hk x => ?_) ?_
    | with_reducible dsimp only
    | (with_reducible split)

theorem kept_safeSheet {s₀ s : State} (hk : Kept s₀ s) (k : Nat) (sh : Sheet) : Kept s₀ (State.safeSheet s k sh) := by
  unfold State.safeSheet
  repeat' first
    | with_reducible exact hk
    | (simp +contextual (maxDischargeDepth := 60) only [kept_safeAmend, kept_modSheet, kept_spoilSheet, kept_tryFree, kept_stopSheet, hk, kept_ite, kept_mk]; done)
    | with_reducible refine kept_ite (fun _ => ?_) (fun _ => ?_)
    | with_reducible refine kept_foldl _ (fun s hk x => ?_) ?_
    | with_reducible dsimp only
    | (with_reducible split)

theorem kept_safeSheets {s₀ s : State} (hk : Kept s₀ s)  : Kept s₀ (State.safeSheets s) := by
  unfold State.safeSheets
  repeat' first
    | with_reducible exact hk
    | (simp +contextual (maxDischargeDepth := 60) only [kept_settle, kept_safeSheet, implies_true, forall_const, hk, kept_foldl]; done)
    | with_reducible refine kept_ite (fun _ => ?_) (fun _ => ?_)
    | with_reducible refine kept_foldl _ (fun s hk x => ?_) ?_
    | with_reducible dsimp only
    | (with_reducible split)

theorem kept_resetCauses {s₀ s : State} (hk : Kept s₀ s) (onClaim : Claim → Bool) (onCmd : Action → Bool) : Kept s₀ (State.resetCauses s onClaim onCmd) := by
  unfold State.resetCauses
  repeat' first
    | with_reducible exact hk
    | (simp +contextual (maxDischargeDepth := 60) only [kept_causeWhere, hk, kept_ite, kept_mk]; done)
    | with_reducible refine kept_ite (fun _ => ?_) (fun _ => ?_)
    | with_reducible refine kept_foldl _ (fun s hk x => ?_) ?_
    | with_reducible dsimp only
    | (with_reducible split)

theorem kept_resetMark {s₀ s : State} (hk : Kept s₀ s) (reason : Nat) : Kept s₀ (State.resetMark s reason) := by
  unfold State.resetMark
  repeat' first
    | with_reducible exact hk
    | (simp +contextual (maxDischargeDepth := 60) only [kept_ldgRecord, hk]; done)
    | with_reducible refine kept_ite (fun _ => ?_) (fun _ => ?_)
    | with_reducible refine kept_foldl _ (fun s hk x => ?_) ?_
    | with_reducible dsimp only
    | (with_reducible split)

theorem kept_submit {s₀ s : State} (hk : Kept s₀ s) (w : Word) : Kept s₀ (State.submit s w) := by
  unfold State.submit
  repeat' first
    | with_reducible exact hk
    | (simp +contextual (maxDischargeDepth := 60) only [kept_setB, hk, kept_ite, kept_mk]; done)
    | with_reducible refine kept_ite (fun _ => ?_) (fun _ => ?_)
    | with_reducible refine kept_foldl _ (fun s hk x => ?_) ?_
    | with_reducible dsimp only
    | (with_reducible split)

theorem kept_commit {s₀ s : State} (hk : Kept s₀ s) (img : Image) (cand : Nat) : Kept s₀ (State.commit s img cand) := by
  unfold State.commit
  have hk2 := hk
  repeat' first
    | with_reducible exact hk
    | with_reducible exact hk2
    | (simp +contextual (maxDischargeDepth := 60) only [kept_ldgRecord, kept_setSheet, kept_takeFresh, kept_setF, kept_requestSwap, kept_setReg, kept_resRecord, kept_incSat, hk, hk2, kept_ite, kept_mk, kept_mkFilter]; done)
    | with_reducible refine kept_ite (fun _ => ?_) (fun _ => ?_)
    | with_reducible refine kept_foldl _ (fun s hk x => ?_) ?_
    | with_reducible dsimp only
    | (with_reducible split) <;> first | (have hk2 : Kept s₀ _ := kept_pair ‹(_ : _ × State) = (_, _)› (by simp +contextual (maxDischargeDepth := 60) only [kept_ldgRecord, kept_setSheet, kept_takeFresh, kept_setF, kept_requestSwap, kept_setReg, kept_resRecord, kept_incSat, hk, hk2, kept_ite, kept_mk, kept_mkFilter]; done)) | skip

theorem kept_endCheck {s₀ s : State} (hk : Kept s₀ s) (start : Tick) : Kept s₀ (State.endCheck s start) := by
  unfold State.endCheck
  repeat' first
    | with_reducible exact hk
    | (simp +contextual (maxDischargeDepth := 60) only [kept_imageUncor, kept_refuseImage, kept_setF, kept_commit, hk, kept_ite, kept_mk]; done)
    | with_reducible refine kept_ite (fun _ => ?_) (fun _ => ?_)
    | with_reducible refine kept_foldl _ (fun s hk x => ?_) ?_
    | with_reducible dsimp only
    | (with_reducible split)

theorem kept_ttRequest {s₀ s : State} (hk : Kept s₀ s) (handle : Nat) (causeByte : Nat) (spoil : Bool) : Kept s₀ (State.ttRequest s handle causeByte spoil) := by
  unfold State.ttRequest
  repeat' first
    | with_reducible exact hk
    | (simp +contextual (maxDischargeDepth := 60) only [kept_withdrawSheet, kept_spoilSheet, kept_setF, kept_settle, hk, kept_ite, kept_mk]; done)
    | with_reducible refine kept_ite (fun _ => ?_) (fun _ => ?_)
    | with_reducible refine kept_foldl _ (fun s hk x => ?_) ?_
    | with_reducible dsimp only
    | (with_reducible split)

theorem kept_resqTailWrite {s₀ s : State} (hk : Kept s₀ s) (w : Word) : Kept s₀ (State.resqTailWrite s w) := by
  unfold State.resqTailWrite
  repeat' first
    | with_reducible exact hk
    | (simp +contextual (maxDischargeDepth := 60) only [kept_setF, kept_flushHeld, hk]; done)
    | with_reducible refine kept_ite (fun _ => ?_) (fun _ => ?_)
    | with_reducible refine kept_foldl _ (fun s hk x => ?_) ?_
    | with_reducible dsimp only
    | (with_reducible split)

end Sys2Proof.Machine
end

