-- ==== Sys2Proof/Laws/KeptLineOps.lean ====
section
/-! SUPPORT. What the operations of Machine/LineOps.lean keep of a state. -/

namespace Sys2Proof.Machine

theorem kept_setPort {s₀ s : State} (hk : Kept s₀ s) (p : Nat) (x : LinePort) : Kept s₀ (State.setPort s p x) := by
  unfold State.setPort
  repeat' first
    | with_reducible exact hk
    | (simp +contextual (maxDischargeDepth := 60) only [hk, kept_ite, kept_mk]; done)
    | with_reducible refine kept_ite (fun _ => ?_) (fun _ => ?_)
    | with_reducible refine kept_foldl _ (fun s hk x => ?_) ?_
    | with_reducible dsimp only
    | (with_reducible split)

theorem kept_movePort {s₀ s : State} (hk : Kept s₀ s) (p : Nat) (st : Nat) : Kept s₀ (State.movePort s p st) := by
  unfold State.movePort
  repeat' first
    | with_reducible exact hk
    | (simp +contextual (maxDischargeDepth := 60) only [kept_setF, kept_setPort, hk, kept_ite, kept_mk]; done)
    | with_reducible refine kept_ite (fun _ => ?_) (fun _ => ?_)
    | with_reducible refine kept_foldl _ (fun s hk x => ?_) ?_
    | with_reducible dsimp only
    | (with_reducible split)

theorem kept_lineEvent {s₀ s : State} (hk : Kept s₀ s) (ev : Nat) : Kept s₀ (State.lineEvent s ev) := by
  unfold State.lineEvent
  repeat' first
    | with_reducible exact hk
    | (simp +contextual (maxDischargeDepth := 60) only [kept_raise, kept_setB, hk]; done)
    | with_reducible refine kept_ite (fun _ => ?_) (fun _ => ?_)
    | with_reducible refine kept_foldl _ (fun s hk x => ?_) ?_
    | with_reducible dsimp only
    | (with_reducible split)

theorem kept_drainPort {s₀ s : State} (hk : Kept s₀ s) (p : Nat) : Kept s₀ (State.drainPort s p) := by
  unfold State.drainPort
  repeat' first
    | with_reducible exact hk
    | (simp +contextual (maxDischargeDepth := 60) only [kept_setPort, hk, kept_ite]; done)
    | with_reducible refine kept_ite (fun _ => ?_) (fun _ => ?_)
    | with_reducible refine kept_foldl _ (fun s hk x => ?_) ?_
    | with_reducible dsimp only
    | (with_reducible split)

theorem kept_queueFrame {s₀ s : State} (hk : Kept s₀ s) (p : Nat) (f : Frame) : Kept s₀ (State.queueFrame s p f) := by
  unfold State.queueFrame
  repeat' first
    | with_reducible exact hk
    | (simp +contextual (maxDischargeDepth := 60) only [kept_lineEvent, kept_drainPort, kept_setPort, kept_incSat, hk, kept_ite, kept_mk]; done)
    | with_reducible refine kept_ite (fun _ => ?_) (fun _ => ?_)
    | with_reducible refine kept_foldl _ (fun s hk x => ?_) ?_
    | with_reducible dsimp only
    | (with_reducible split)

theorem kept_originate {s₀ s : State} (hk : Kept s₀ s) (f : Frame) : Kept s₀ (State.originate s f) := by
  unfold State.originate
  repeat' first
    | with_reducible exact hk
    | (simp +contextual (maxDischargeDepth := 60) only [kept_queueFrame, implies_true, forall_const, hk, kept_ite, kept_foldl, kept_mk]; done)
    | with_reducible refine kept_ite (fun _ => ?_) (fun _ => ?_)
    | with_reducible refine kept_foldl _ (fun s hk x => ?_) ?_
    | with_reducible dsimp only
    | (with_reducible split)

theorem kept_sendUnicast {s₀ s : State} (hk : Kept s₀ s) (type : Nat) (dest : Nat) (p0 : Nat) (p1 : Nat) : Kept s₀ (State.sendUnicast s type dest p0 p1) := by
  unfold State.sendUnicast
  repeat' first
    | with_reducible exact hk
    | (simp +contextual (maxDischargeDepth := 60) only [kept_originate, hk, kept_mk]; done)
    | with_reducible refine kept_ite (fun _ => ?_) (fun _ => ?_)
    | with_reducible refine kept_foldl _ (fun s hk x => ?_) ?_
    | with_reducible dsimp only
    | (with_reducible split)

theorem kept_sendSpw {s₀ s : State} (hk : Kept s₀ s) (id : Nat) (v : Word) (at' : Tick) : Kept s₀ (State.sendSpw s id v at') := by
  unfold State.sendSpw
  repeat' first
    | with_reducible exact hk
    | (simp +contextual (maxDischargeDepth := 60) only [kept_sendUnicast, hk]; done)
    | with_reducible refine kept_ite (fun _ => ?_) (fun _ => ?_)
    | with_reducible refine kept_foldl _ (fun s hk x => ?_) ?_
    | with_reducible dsimp only
    | (with_reducible split)

theorem kept_sprPoint {s₀ s : State} (hk : Kept s₀ s) (id : Nat) : Kept s₀ (State.sprPoint s id).2 := by
  unfold State.sprPoint
  repeat' first
    | with_reducible exact hk
    | (simp +contextual (maxDischargeDepth := 60) only [kept_incSat, hk, kept_ite, kept_mk]; done)
    | with_reducible refine kept_ite (fun _ => ?_) (fun _ => ?_)
    | with_reducible refine kept_foldl _ (fun s hk x => ?_) ?_
    | with_reducible dsimp only
    | (with_reducible split)

end Sys2Proof.Machine
end

