-- ==== Sys2Proof/Laws/KeptSlots.lean ====
section
/-! SUPPORT. What the operations of Machine/Slots.lean keep of a state. -/

namespace Sys2Proof.Machine

theorem kept_setSlot {s₀ s : State} (hk : Kept s₀ s) (key : Nat) (x : Slot) : Kept s₀ (State.setSlot s key x) := by
  unfold State.setSlot
  repeat' first
    | with_reducible exact hk
    | (simp +contextual (maxDischargeDepth := 60) only [hk, kept_mk]; done)
    | with_reducible refine kept_ite (fun _ => ?_) (fun _ => ?_)
    | with_reducible refine kept_foldl _ (fun s hk x => ?_) ?_
    | with_reducible dsimp only
    | (with_reducible split)

theorem kept_modSlot {s₀ s : State} (hk : Kept s₀ s) (key : Nat) (g : Slot → Slot) : Kept s₀ (State.modSlot s key g) := by
  unfold State.modSlot
  repeat' first
    | with_reducible exact hk
    | (simp +contextual (maxDischargeDepth := 60) only [kept_setSlot, hk]; done)
    | with_reducible refine kept_ite (fun _ => ?_) (fun _ => ?_)
    | with_reducible refine kept_foldl _ (fun s hk x => ?_) ?_
    | with_reducible dsimp only
    | (with_reducible split)

theorem kept_setFlight {s₀ s : State} (hk : Kept s₀ s) (p : Nat) (x : Flight) : Kept s₀ (State.setFlight s p x) := by
  unfold State.setFlight
  repeat' first
    | with_reducible exact hk
    | (simp +contextual (maxDischargeDepth := 60) only [hk, kept_mk]; done)
    | with_reducible refine kept_ite (fun _ => ?_) (fun _ => ?_)
    | with_reducible refine kept_foldl _ (fun s hk x => ?_) ?_
    | with_reducible dsimp only
    | (with_reducible split)

theorem kept_setArms {s₀ s : State} (hk : Kept s₀ s) (p : Nat) (xs : List ArmEntry) : Kept s₀ (State.setArms s p xs) := by
  unfold State.setArms
  repeat' first
    | with_reducible exact hk
    | (simp +contextual (maxDischargeDepth := 60) only [hk, kept_mk]; done)
    | with_reducible refine kept_ite (fun _ => ?_) (fun _ => ?_)
    | with_reducible refine kept_foldl _ (fun s hk x => ?_) ?_
    | with_reducible dsimp only
    | (with_reducible split)

theorem kept_setPointAt {s₀ s : State} (hk : Kept s₀ s) (place : List Nat) (p : Nat) (v : Word) : Kept s₀ (State.setPointAt s place p v) := by
  unfold State.setPointAt
  repeat' first
    | with_reducible exact hk
    | (simp +contextual (maxDischargeDepth := 60) only [kept_setPoint, hk, kept_ite, kept_mk, kept_mkFilter]; done)
    | with_reducible refine kept_ite (fun _ => ?_) (fun _ => ?_)
    | with_reducible refine kept_foldl _ (fun s hk x => ?_) ?_
    | with_reducible dsimp only
    | (with_reducible split)

theorem kept_shiftHist {s₀ s : State} (hk : Kept s₀ s) (key : Nat) (bit : Nat) : Kept s₀ (State.shiftHist s key bit) := by
  unfold State.shiftHist
  repeat' first
    | with_reducible exact hk
    | (simp +contextual (maxDischargeDepth := 60) only [kept_setReg, kept_setF, hk]; done)
    | with_reducible refine kept_ite (fun _ => ?_) (fun _ => ?_)
    | with_reducible refine kept_foldl _ (fun s hk x => ?_) ?_
    | with_reducible dsimp only
    | (with_reducible split)

theorem kept_endInstance {s₀ s : State} (hk : Kept s₀ s) (key : Nat) : Kept s₀ (State.endInstance s key) := by
  unfold State.endInstance
  repeat' first
    | with_reducible exact hk
    | (simp +contextual (maxDischargeDepth := 60) only [kept_modSlot, hk, kept_mk]; done)
    | with_reducible refine kept_ite (fun _ => ?_) (fun _ => ?_)
    | with_reducible refine kept_foldl _ (fun s hk x => ?_) ?_
    | with_reducible dsimp only
    | (with_reducible split)

theorem kept_lateDropCause {s₀ s : State} (hk : Kept s₀ s) (key : Nat) : Kept s₀ (State.lateDropCause s key) := by
  unfold State.lateDropCause
  repeat' first
    | with_reducible exact hk
    | (simp +contextual (maxDischargeDepth := 60) only [kept_causeWhere, hk]; done)
    | with_reducible refine kept_ite (fun _ => ?_) (fun _ => ?_)
    | with_reducible refine kept_foldl _ (fun s hk x => ?_) ?_
    | with_reducible dsimp only
    | (with_reducible split)

theorem kept_dropPeriod {s₀ s : State} (hk : Kept s₀ s) (key : Nat) (cause : Nat) (exc : Nat × Nat × Nat) : Kept s₀ (State.dropPeriod s key cause exc) := by
  unfold State.dropPeriod
  have h1 := kept_incSat (kept_endInstance (kept_modSlot hk key fun x => { x with bank := x.shadow }) key) (atKey Reg.SQ_SLOT_DROPS key) 31 0 1
  with_reducible dsimp only
  generalize State.incSat _ _ _ _ _ = y at h1 ⊢
  refine kept_ite (fun _ => kept_lateDropCause ?_ _) (fun _ => ?_)
  all_goals refine kept_ite (fun _ => kept_raise ?_ _ _) (fun _ => ?_)
  all_goals refine kept_setB (kept_shiftHist ?_ _ _) _ _ _
  all_goals refine kept_ite (fun _ => kept_raise (kept_setB (kept_setReg (kept_setReg ?_ _ _) _ _) _ _ _) _ _) (fun _ => ?_)
  all_goals refine kept_setF ?_ _ _ _ _
  all_goals exact kept_ite (fun _ => kept_incSat h1 _ _ _ _) (fun _ => h1)

theorem kept_commitStaged {s₀ s : State} (hk : Kept s₀ s) (key : Nat) (e : Staged) : Kept s₀ (s.commitStaged key e) := by
  unfold State.commitStaged
  split
  · exact kept_setMem hk _ _ _
  · exact kept_setPointAt hk _ _ _
  · exact kept_sendSpw hk _ _ _
  · exact hk

theorem kept_commitArm {s₀ s : State} (hk : Kept s₀ s) (key p : Nat) (e : Staged) : Kept s₀ (s.commitArm key p e) := by
  unfold State.commitArm
  repeat' first
    | with_reducible exact hk
    | (simp +contextual (maxDischargeDepth := 60) only [kept_incSat, kept_setPointAt, kept_setArms, hk, kept_ite, kept_mk]; done)
    | with_reducible dsimp only
    | with_reducible split

theorem kept_completeInstance {s₀ s : State} (hk : Kept s₀ s) (key : Nat) (p : Nat) (i : Instance) : Kept s₀ (State.completeInstance s key p i) := by
  unfold State.completeInstance
  repeat' first
    | with_reducible exact hk
    | (simp +contextual (maxDischargeDepth := 60) only [kept_modSlot, kept_setF, kept_shiftHist, kept_commitStaged, kept_commitArm, kept_endInstance, implies_true, forall_const, hk, kept_ite, kept_foldl, kept_mk, kept_mkFilter]; done)
    | with_reducible refine kept_ite (fun _ => ?_) (fun _ => ?_)
    | with_reducible refine kept_foldl _ (fun s hk x => ?_) ?_
    | with_reducible dsimp only
    | (with_reducible split)

theorem kept_loadFrame {s₀ s : State} (hk : Kept s₀ s) (key : Nat) (r0 : Tick) : Kept s₀ (State.loadFrame s key r0) := by
  unfold State.loadFrame
  repeat' first
    | with_reducible exact hk
    | (simp +contextual (maxDischargeDepth := 60) only [kept_modSlot, hk, kept_ite, kept_mk]; done)
    | with_reducible refine kept_ite (fun _ => ?_) (fun _ => ?_)
    | with_reducible refine kept_foldl _ (fun s hk x => ?_) ?_
    | with_reducible dsimp only
    | (with_reducible split)

theorem kept_ensureLoaded {s₀ s : State} (hk : Kept s₀ s) (key : Nat) (r0 : Tick) : Kept s₀ (State.ensureLoaded s key r0) := by
  unfold State.ensureLoaded
  repeat' first
    | with_reducible exact hk
    | (simp +contextual (maxDischargeDepth := 60) only [kept_loadFrame, hk, kept_ite, kept_mk]; done)
    | with_reducible refine kept_ite (fun _ => ?_) (fun _ => ?_)
    | with_reducible refine kept_foldl _ (fun s hk x => ?_) ?_
    | with_reducible dsimp only
    | (with_reducible split)

theorem kept_clearHist {s₀ s : State} (hk : Kept s₀ s) (key : Nat) : Kept s₀ (State.clearHist s key) := by
  unfold State.clearHist
  repeat' first
    | with_reducible exact hk
    | (simp +contextual (maxDischargeDepth := 60) only [kept_setReg, kept_setF, hk]; done)
    | with_reducible refine kept_ite (fun _ => ?_) (fun _ => ?_)
    | with_reducible refine kept_foldl _ (fun s hk x => ?_) ?_
    | with_reducible dsimp only
    | (with_reducible split)

theorem kept_beginSpan {s₀ s : State} (hk : Kept s₀ s) (key : Nat) (use : SlotUse) (r0 : Tick) (stop : Option Tick) : Kept s₀ (State.beginSpan s key use r0 stop) := by
  unfold State.beginSpan
  repeat' first
    | with_reducible exact hk
    | (simp +contextual (maxDischargeDepth := 60) only [kept_modSlot, hk, kept_mk]; done)
    | with_reducible refine kept_ite (fun _ => ?_) (fun _ => ?_)
    | with_reducible refine kept_foldl _ (fun s hk x => ?_) ?_
    | with_reducible dsimp only
    | (with_reducible split)

theorem kept_loadParams {s₀ s : State} (hk : Kept s₀ s) (key : Nat) (c : Claim) : Kept s₀ (State.loadParams s key c) := by
  unfold State.loadParams
  repeat' first
    | with_reducible exact hk
    | (simp +contextual (maxDischargeDepth := 60) only [kept_setReg, hk]; done)
    | with_reducible refine kept_ite (fun _ => ?_) (fun _ => ?_)
    | with_reducible refine kept_foldl _ (fun s hk x => ?_) ?_
    | with_reducible dsimp only
    | (with_reducible split)

theorem kept_slotStart {s₀ s : State} (hk : Kept s₀ s) (key : Nat) : Kept s₀ (State.slotStart s key) := by
  unfold State.slotStart
  repeat' first
    | with_reducible exact hk
    | (simp +contextual (maxDischargeDepth := 60) only [kept_modSlot, kept_beginSpan, kept_setF, kept_setB, hk, kept_mk]; done)
    | with_reducible refine kept_ite (fun _ => ?_) (fun _ => ?_)
    | with_reducible refine kept_foldl _ (fun s hk x => ?_) ?_
    | with_reducible dsimp only
    | (with_reducible split)

theorem kept_slotStop {s₀ s : State} (hk : Kept s₀ s) (key : Nat) : Kept s₀ (State.slotStop s key) := by
  unfold State.slotStop
  repeat' first
    | with_reducible exact hk
    | (simp +contextual (maxDischargeDepth := 60) only [kept_modSlot, hk, kept_ite, kept_mk]; done)
    | with_reducible refine kept_ite (fun _ => ?_) (fun _ => ?_)
    | with_reducible refine kept_foldl _ (fun s hk x => ?_) ?_
    | with_reducible dsimp only
    | (with_reducible split)

theorem kept_cancelSubst {s₀ s : State} (hk : Kept s₀ s)  : Kept s₀ (State.cancelSubst s) := by
  unfold State.cancelSubst
  repeat' first
    | with_reducible exact hk
    | (simp +contextual (maxDischargeDepth := 60) only [kept_setF, kept_setB, hk, kept_ite, kept_mk]; done)
    | with_reducible refine kept_ite (fun _ => ?_) (fun _ => ?_)
    | with_reducible refine kept_foldl _ (fun s hk x => ?_) ?_
    | with_reducible dsimp only
    | (with_reducible split)

theorem kept_requestSubst {s₀ s : State} (hk : Kept s₀ s) (w : Word) : Kept s₀ (State.requestSubst s w) := by
  unfold State.requestSubst
  repeat' first
    | with_reducible exact hk
    | (simp +contextual (maxDischargeDepth := 60) only [kept_setReg, kept_cancelSubst, kept_setB, hk, kept_ite, kept_mk]; done)
    | with_reducible refine kept_ite (fun _ => ?_) (fun _ => ?_)
    | with_reducible refine kept_foldl _ (fun s hk x => ?_) ?_
    | with_reducible dsimp only
    | (with_reducible split)

end Sys2Proof.Machine
end

