-- ==== Sys2Proof/Laws/KeptSinel.lean ====
section
/-! SUPPORT. What the operations of Machine/Sinel.lean keep of a state. -/

namespace Sys2Proof.Machine

theorem kept_setGcore {s₀ s : State} (hk : Kept s₀ s) (n : Nat) (c : GCore) : Kept s₀ (State.setGcore s n c) := by
  unfold State.setGcore
  repeat' first
    | with_reducible exact hk
    | (simp +contextual (maxDischargeDepth := 60) only [hk, kept_mk, keptEff_next, keptEff_jump, keptEff_exc, keptEff_wait, keptEff_fly, keptEff_yield, keptEff_halt, keptEff_ite]; done)
    | with_reducible refine kept_ite (fun _ => ?_) (fun _ => ?_)
    | with_reducible refine kept_foldl _ (fun s hk x => ?_) ?_
    | with_reducible refine keptOut_next ?_
    | with_reducible dsimp only
    | (with_reducible split)

theorem kept_modGcore {s₀ s : State} (hk : Kept s₀ s) (n : Nat) (h : GCore → GCore) : Kept s₀ (State.modGcore s n h) := by
  unfold State.modGcore
  repeat' first
    | with_reducible exact hk
    | (simp +contextual (maxDischargeDepth := 60) only [kept_setGcore, hk, keptEff_next, keptEff_jump, keptEff_exc, keptEff_wait, keptEff_fly, keptEff_yield, keptEff_halt, keptEff_ite]; done)
    | with_reducible refine kept_ite (fun _ => ?_) (fun _ => ?_)
    | with_reducible refine kept_foldl _ (fun s hk x => ?_) ?_
    | with_reducible refine keptOut_next ?_
    | with_reducible dsimp only
    | (with_reducible split)

theorem kept_setGr {s₀ s : State} (hk : Kept s₀ s) (w : Who) (r : Fin 32) (v : Word) : Kept s₀ (State.setGr s w r v) := by
  unfold State.setGr
  repeat' first
    | with_reducible exact hk
    | (simp +contextual (maxDischargeDepth := 60) only [kept_modGcore, kept_modSlot, hk, kept_ite, kept_mk, keptEff_next, keptEff_jump, keptEff_exc, keptEff_wait, keptEff_fly, keptEff_yield, keptEff_halt, keptEff_ite]; done)
    | with_reducible refine kept_ite (fun _ => ?_) (fun _ => ?_)
    | with_reducible refine kept_foldl _ (fun s hk x => ?_) ?_
    | with_reducible refine keptOut_next ?_
    | with_reducible dsimp only
    | (with_reducible split)

theorem kept_setGrPair {s₀ s : State} (hk : Kept s₀ s) (w : Who) (r : Fin 32) (v : Nat) : Kept s₀ (State.setGrPair s w r v) := by
  unfold State.setGrPair
  repeat' first
    | with_reducible exact hk
    | (simp +contextual (maxDischargeDepth := 60) only [kept_setGr, hk, keptEff_next, keptEff_jump, keptEff_exc, keptEff_wait, keptEff_fly, keptEff_yield, keptEff_halt, keptEff_ite]; done)
    | with_reducible refine kept_ite (fun _ => ?_) (fun _ => ?_)
    | with_reducible refine kept_foldl _ (fun s hk x => ?_) ?_
    | with_reducible refine keptOut_next ?_
    | with_reducible dsimp only
    | (with_reducible split)

theorem kept_modInst {s₀ s : State} (hk : Kept s₀ s) (key : Nat) (h : Instance → Instance) : Kept s₀ (State.modInst s key h) := by
  unfold State.modInst
  repeat' first
    | with_reducible exact hk
    | (simp +contextual (maxDischargeDepth := 60) only [kept_modSlot, hk, kept_mk, keptEff_next, keptEff_jump, keptEff_exc, keptEff_wait, keptEff_fly, keptEff_yield, keptEff_halt, keptEff_ite]; done)
    | with_reducible refine kept_ite (fun _ => ?_) (fun _ => ?_)
    | with_reducible refine kept_foldl _ (fun s hk x => ?_) ?_
    | with_reducible refine keptOut_next ?_
    | with_reducible dsimp only
    | (with_reducible split)

theorem kept_fetchT {s₀ s : State} (hk : Kept s₀ s) (p : Nat) (pc : Nat) : Kept s₀ (State.fetchT s p pc).2 := by
  unfold State.fetchT
  repeat' first
    | with_reducible exact hk
    | (simp +contextual (maxDischargeDepth := 60) only [kept_gateRefuse, hk, kept_ite, keptEff_next, keptEff_jump, keptEff_exc, keptEff_wait, keptEff_fly, keptEff_yield, keptEff_halt, keptEff_ite]; done)
    | with_reducible refine kept_ite (fun _ => ?_) (fun _ => ?_)
    | with_reducible refine kept_foldl _ (fun s hk x => ?_) ?_
    | with_reducible refine keptOut_next ?_
    | with_reducible dsimp only
    | (with_reducible split)

theorem kept_charge {s₀ s : State} (hk : Kept s₀ s) (key : Nat) (p : Nat) (cycles : Nat) (i : Instance) (what : Fly) (readAt : Tick) : Kept s₀ (State.charge s key p cycles i what readAt) := by
  unfold State.charge
  repeat' first
    | with_reducible exact hk
    | (simp +contextual (maxDischargeDepth := 60) only [kept_modInst, kept_setFlight, hk, kept_mk, keptEff_next, keptEff_jump, keptEff_exc, keptEff_wait, keptEff_fly, keptEff_yield, keptEff_halt, keptEff_ite]; done)
    | with_reducible refine kept_ite (fun _ => ?_) (fun _ => ?_)
    | with_reducible refine kept_foldl _ (fun s hk x => ?_) ?_
    | with_reducible refine keptOut_next ?_
    | with_reducible dsimp only
    | (with_reducible split)

theorem kept_finishT {s₀ s : State} (hk : Kept s₀ s) (key p lat : Nat) (i : Instance) {e : Eff} (he : KeptEff s₀ e) :
    Kept s₀ (s.finishT key p lat i e) := by
  cases e <;> (unfold State.finishT; have hk2 : Kept s₀ _ := he; dsimp only [Eff.state] at hk2) <;>
    repeat' first
    | (simp +contextual (maxDischargeDepth := 60) only [kept_dropPeriod, kept_charge, kept_modInst, implies_true, forall_const, hk, hk2, kept_ite]; done)
    | with_reducible dsimp only
    | with_reducible split

theorem kept_issueT {s₀ s : State} (hk : Kept s₀ s) (p : Nat) (lat : Who → State → Nat) (body : Who → State → Eff)
    (hb : ∀ w z, Kept s₀ z → KeptEff s₀ (body w z)) : Kept s₀ (s.issueT p lat body) := by
  unfold State.issueT
  have hk2 := hk
  repeat' first
    | with_reducible exact hk
    | with_reducible exact hk2
    | (simp +contextual (maxDischargeDepth := 60) only [kept_finishT, hb, keptEff_exc, implies_true, forall_const, hk, hk2, kept_ite]; done)
    | with_reducible dsimp only
    | (with_reducible split) <;> first | (have hk2 : Kept s₀ _ := kept_pair ‹(_ : _ × State) = (_, _)› (by simp +contextual (maxDischargeDepth := 60) only [kept_fetchT, hk]; done)) | skip

theorem kept_trapG {s₀ s : State} (hk : Kept s₀ s) (n : Nat) (code : Nat) (addr : Nat) : Kept s₀ (State.trapG s n code addr) := by
  unfold State.trapG
  repeat' first
    | with_reducible exact hk
    | (simp +contextual (maxDischargeDepth := 60) only [kept_modGcore, kept_raise, hk, kept_ite, kept_mk, keptEff_next, keptEff_jump, keptEff_exc, keptEff_wait, keptEff_fly, keptEff_yield, keptEff_halt, keptEff_ite]; done)
    | with_reducible refine kept_ite (fun _ => ?_) (fun _ => ?_)
    | with_reducible refine kept_foldl _ (fun s hk x => ?_) ?_
    | with_reducible refine keptOut_next ?_
    | with_reducible dsimp only
    | (with_reducible split)

theorem kept_fillIcache {s₀ s : State} (hk : Kept s₀ s) (n : Nat) (line : Nat) : Kept s₀ (State.fillIcache s n line) := by
  unfold State.fillIcache
  have hk2 := hk
  repeat' first
    | with_reducible exact hk
    | with_reducible exact hk2
    | (simp +contextual (maxDischargeDepth := 60) only [kept_takeFresh, kept_setGcore, hk, hk2, kept_mk, keptEff_next, keptEff_jump, keptEff_exc, keptEff_wait, keptEff_fly, keptEff_yield, keptEff_halt, keptEff_ite]; done)
    | with_reducible refine kept_ite (fun _ => ?_) (fun _ => ?_)
    | with_reducible refine kept_foldl _ (fun s hk x => ?_) ?_
    | with_reducible refine keptOut_next ?_
    | with_reducible dsimp only
    | (with_reducible split) <;> first | (have hk2 : Kept s₀ _ := kept_pair ‹(_ : _ × State) = (_, _)› (by simp +contextual (maxDischargeDepth := 60) only [kept_takeFresh, kept_setGcore, hk, hk2, kept_mk, keptEff_next, keptEff_jump, keptEff_exc, keptEff_wait, keptEff_fly, keptEff_yield, keptEff_halt, keptEff_ite]; done)) | skip

theorem kept_fetchG {s₀ s : State} (hk : Kept s₀ s) (n : Nat) : Kept s₀ (State.fetchG s n).2 := by
  unfold State.fetchG
  repeat' first
    | with_reducible exact hk
    | (simp +contextual (maxDischargeDepth := 60) only [kept_fillIcache, kept_gateRefuse, kept_memUncor, hk, kept_ite, keptEff_next, keptEff_jump, keptEff_exc, keptEff_wait, keptEff_fly, keptEff_yield, keptEff_halt, keptEff_ite]; done)
    | with_reducible refine kept_ite (fun _ => ?_) (fun _ => ?_)
    | with_reducible refine kept_foldl _ (fun s hk x => ?_) ?_
    | with_reducible refine keptOut_next ?_
    | with_reducible dsimp only
    | (with_reducible split)

theorem kept_issueG {s₀ s : State} (hk : Kept s₀ s) (n : Nat) (body : Who → State → Eff)
    (hb : ∀ w z, Kept s₀ z → KeptEff s₀ (body w z)) : Kept s₀ (s.issueG n body) := by
  unfold State.issueG
  dsimp only
  split
  · exact hk
  split
  · exact kept_trapG (kept_pair ‹_› (kept_fetchG hk _)) _ _ _
  · have hk2 : Kept s₀ _ := kept_pair ‹_› (kept_fetchG hk _)
    have hk3 := hb (.g n) _ hk2
    split <;> rename_i he <;> (rw [he] at hk3; have hk4 : Kept s₀ _ := hk3; dsimp only [Eff.state] at hk4) <;>
      first
      | exact kept_modGcore hk4 _ _
      | exact kept_trapG hk4 _ _ _

theorem kept_jumpTo {s₀ s : State} (hk : Kept s₀ s) (w : Who) (pc : Nat) (s' : State) (hk_s' : Kept s₀ s') : KeptEff s₀ (jumpTo w pc s s') := by
  unfold jumpTo
  repeat' first
    | with_reducible exact hk
    | (simp +contextual (maxDischargeDepth := 60) only [hk_s', hk, kept_ite, kept_mk, keptEff_next, keptEff_jump, keptEff_exc, keptEff_wait, keptEff_fly, keptEff_yield, keptEff_halt, keptEff_ite]; done)
    | with_reducible refine kept_ite (fun _ => ?_) (fun _ => ?_)
    | with_reducible refine kept_foldl _ (fun s hk x => ?_) ?_
    | with_reducible refine keptOut_next ?_
    | with_reducible dsimp only
    | (with_reducible split)

theorem kept_kwrite {s₀ s : State} (hk : Kept s₀ s) (w : Who) (k : Nat) (v : Word) : Kept s₀ (State.kwrite s w k v) := by
  unfold State.kwrite
  repeat' first
    | with_reducible exact hk
    | (simp +contextual (maxDischargeDepth := 60) only [kept_modSlot, kept_modGcore, hk, kept_ite, kept_mk, keptEff_next, keptEff_jump, keptEff_exc, keptEff_wait, keptEff_fly, keptEff_yield, keptEff_halt, keptEff_ite]; done)
    | with_reducible refine kept_ite (fun _ => ?_) (fun _ => ?_)
    | with_reducible refine kept_foldl _ (fun s hk x => ?_) ?_
    | with_reducible refine keptOut_next ?_
    | with_reducible dsimp only
    | (with_reducible split)

theorem kept_stageWrite {s₀ s : State} (hk : Kept s₀ s) (key : Nat) (x : Staged) : Kept s₀ (State.stageWrite s key x) := by
  unfold State.stageWrite
  repeat' first
    | with_reducible exact hk
    | (simp +contextual (maxDischargeDepth := 60) only [kept_modInst, hk, kept_mk, keptEff_next, keptEff_jump, keptEff_exc, keptEff_wait, keptEff_fly, keptEff_yield, keptEff_halt, keptEff_ite]; done)
    | with_reducible refine kept_ite (fun _ => ?_) (fun _ => ?_)
    | with_reducible refine kept_foldl _ (fun s hk x => ?_) ?_
    | with_reducible refine keptOut_next ?_
    | with_reducible dsimp only
    | (with_reducible split)

end Sys2Proof.Machine
end

