-- ==== Sys2Proof/Laws/KeptFx.lean ====
section
/-! SUPPORT. What the operations of Machine/Fx.lean keep of a state. -/

namespace Sys2Proof.Machine

theorem kept_tileOf {s₀ s : State} (hk : Kept s₀ s) (e : Entry) (station : Nat) (col : Nat) (row : Nat) : Kept s₀ (State.tileOf s e station col row).2 := by
  unfold State.tileOf
  have hk2 := hk
  repeat' first
    | with_reducible exact hk
    | with_reducible exact hk2
    | (simp +contextual (maxDischargeDepth := 60) only [kept_readMem, hk, hk2, kept_ite, kept_mk]; done)
    | with_reducible refine kept_ite (fun _ => ?_) (fun _ => ?_)
    | with_reducible refine kept_foldl _ (fun s hk x => ?_) ?_
    | with_reducible dsimp only
    | (with_reducible split) <;> first | (have hk2 : Kept s₀ _ := kept_pair ‹(_ : _ × State) = (_, _)› (by simp +contextual (maxDischargeDepth := 60) only [kept_readMem, hk, hk2, kept_ite, kept_mk]; done)) | skip

theorem kept_planeTile {s₀ s : State} (hk : Kept s₀ s) (plane : Nat) (cols : Nat) (station : Nat) (col : Nat) (row : Nat) : Kept s₀ (State.planeTile s plane cols station col row).2 := by
  unfold State.planeTile
  have hk2 := hk
  repeat' first
    | with_reducible exact hk
    | with_reducible exact hk2
    | (simp +contextual (maxDischargeDepth := 60) only [kept_readMem, kept_tileOf, hk, hk2, kept_ite, kept_mk]; done)
    | with_reducible refine kept_ite (fun _ => ?_) (fun _ => ?_)
    | with_reducible refine kept_foldl _ (fun s hk x => ?_) ?_
    | with_reducible dsimp only
    | (with_reducible split) <;> first | (have hk2 : Kept s₀ _ := kept_pair ‹(_ : _ × State) = (_, _)› (by simp +contextual (maxDischargeDepth := 60) only [kept_readMem, kept_tileOf, hk, hk2, kept_ite, kept_mk]; done)) | skip

theorem kept_jobTile {s₀ s : State} (hk : Kept s₀ s) (j : JobRun) : Kept s₀ (State.jobTile s j).2 := by
  unfold State.jobTile
  have hk2 := hk
  repeat' first
    | with_reducible exact hk
    | with_reducible exact hk2
    | (simp +contextual (maxDischargeDepth := 60) only [kept_readMem, kept_planeTile, hk, hk2, kept_ite, kept_mk]; done)
    | with_reducible refine kept_ite (fun _ => ?_) (fun _ => ?_)
    | with_reducible refine kept_foldl _ (fun s hk x => ?_) ?_
    | with_reducible dsimp only
    | (with_reducible split) <;> first | (have hk2 : Kept s₀ _ := kept_pair ‹(_ : _ × State) = (_, _)› (by simp +contextual (maxDischargeDepth := 60) only [kept_readMem, kept_planeTile, hk, hk2, kept_ite, kept_mk]; done)) | skip

theorem kept_keepHistory {s₀ s : State} (hk : Kept s₀ s) (n : Nat) (i : Nat) (bs : List Byte) : Kept s₀ (State.keepHistory s n i bs) := by
  unfold State.keepHistory
  repeat' first
    | with_reducible exact hk
    | (simp +contextual (maxDischargeDepth := 60) only [kept_storeBytes, hk]; done)
    | with_reducible refine kept_ite (fun _ => ?_) (fun _ => ?_)
    | with_reducible refine kept_foldl _ (fun s hk x => ?_) ?_
    | with_reducible dsimp only
    | (with_reducible split)

theorem kept_beginTile {s₀ s : State} (hk : Kept s₀ s) (j : JobRun) : Kept s₀ (State.beginTile s j).2 := by
  unfold State.beginTile
  have hk2 := hk
  repeat' first
    | with_reducible exact hk
    | with_reducible exact hk2
    | (simp +contextual (maxDischargeDepth := 60) only [kept_jobTile, hk, hk2, kept_mk]; done)
    | with_reducible refine kept_ite (fun _ => ?_) (fun _ => ?_)
    | with_reducible refine kept_foldl _ (fun s hk x => ?_) ?_
    | with_reducible dsimp only
    | (with_reducible split) <;> first | (have hk2 : Kept s₀ _ := kept_pair ‹(_ : _ × State) = (_, _)› (by simp +contextual (maxDischargeDepth := 60) only [kept_jobTile, hk, hk2, kept_mk]; done)) | skip

theorem kept_writeBand {s₀ s : State} (hk : Kept s₀ s) (st line col n i : Nat) (bs : List Byte) :
    Kept s₀ (s.writeBand st line col n i bs).2 := by
  induction n generalizing s line i bs with
  | zero => exact hk
  | succ n ih =>
    unfold State.writeBand
    dsimp only
    split
    · exact hk
    · split
      · exact ih (kept_pair ‹_› (kept_writeMem hk _ _ _)) _ _ _
      · exact kept_pair ‹_› (kept_writeMem hk _ _ _)

theorem kept_runStream {s₀ s : State} (hk : Kept s₀ s) (h : Nat) (st : Nat) (cmd : Nat) (param : Nat) : Kept s₀ (State.runStream s h st cmd param) := by
  unfold State.runStream
  have hk2 := hk
  repeat' first
    | with_reducible exact hk
    | with_reducible exact hk2
    | (simp +contextual (maxDischargeDepth := 60) only [kept_streamFail, kept_takeFresh, kept_setB, kept_advanceReleased, kept_modExp, kept_raise, kept_readMem, kept_causeOnce, kept_setNextLn, kept_setStreams, hk, hk2, kept_ite, kept_mk]; done)
    | with_reducible refine kept_ite (fun _ => ?_) (fun _ => ?_)
    | with_reducible refine kept_foldl _ (fun s hk x => ?_) ?_
    | with_reducible dsimp only
    | (with_reducible split) <;> first | (have hk2 : Kept s₀ _ := kept_pair ‹(_ : _ × State) = (_, _)› (by simp +contextual (maxDischargeDepth := 60) only [kept_streamFail, kept_takeFresh, kept_setB, kept_advanceReleased, kept_modExp, kept_raise, kept_readMem, kept_causeOnce, kept_setNextLn, kept_setStreams, hk, hk2, kept_ite, kept_mk]; done)) | skip

theorem kept_bandTileDone {s₀ s : State} (hk : Kept s₀ s) (st : Nat) (ln0 : Nat) (row : Nat) : Kept s₀ (State.bandTileDone s st ln0 row) := by
  unfold State.bandTileDone
  repeat' first
    | with_reducible exact hk
    | (simp +contextual (maxDischargeDepth := 60) only [kept_settle, kept_advanceFilled, kept_setStreams, hk, kept_ite, kept_mk, kept_mkFilter]; done)
    | with_reducible refine kept_ite (fun _ => ?_) (fun _ => ?_)
    | with_reducible refine kept_foldl _ (fun s hk x => ?_) ?_
    | with_reducible dsimp only
    | (with_reducible split)

theorem kept_countStall {s₀ s : State} (hk : Kept s₀ s) (n : Nat) (edge : Tick) : Kept s₀ (State.countStall s n edge) := by
  unfold State.countStall
  repeat' first
    | with_reducible exact hk
    | (simp +contextual (maxDischargeDepth := 60) only [kept_incSat, hk]; done)
    | with_reducible refine kept_ite (fun _ => ?_) (fun _ => ?_)
    | with_reducible refine kept_foldl _ (fun s hk x => ?_) ?_
    | with_reducible dsimp only
    | (with_reducible split)

theorem kept_enterBuf {s₀ s : State} (hk : Kept s₀ s) (j : JobRun) (d : Nat) : Kept s₀ (s.enterBuf j d).2 := by
  unfold State.enterBuf
  split
  · exact hk
  split
  · exact kept_pair ‹_› (kept_readMem hk _ _ _)
  · have hk2 : Kept s₀ _ := kept_pair ‹_› (kept_readMem hk _ _ _)
    dsimp only
    split <;> exact hk2

theorem kept_emit {s₀ s : State} (hk : Kept s₀ s) (n : Nat) (j : JobRun) (bs : List Byte) :
    Kept s₀ (s.emit n j bs).2.2 := by
  induction n generalizing s j bs with
  | zero => exact hk
  | succ n ih =>
    unfold State.emit
    split
    · exact hk
    split
    · split
      · exact hk
      split
      · exact kept_pair ‹_› (kept_enterBuf hk _ _)
      · exact ih (kept_pair ‹_› (kept_enterBuf hk _ _)) _ _
    · split
      · split
        · exact hk
        split
        · exact kept_pair ‹_› (kept_enterBuf hk _ _)
        · exact ih (kept_pair ‹_› (kept_enterBuf hk _ _)) _ _
      · dsimp only
        split
        · exact kept_pair ‹_› (kept_writeMem hk _ _ _)
        · have hk2 : Kept s₀ _ := kept_pair ‹_› (kept_writeMem hk _ _ _)
          split
          · split
            · exact kept_pair ‹_› (kept_readMem hk2 _ _ _)
            · exact ih (kept_pair ‹_› (kept_readMem hk2 _ _ _)) _ _
          · exact ih hk2 _ _

theorem kept_emitTo {s₀ s : State} (hk : Kept s₀ s) (n : Nat) (j : JobRun) (d : Decoded) (b : Nat) :
    Kept s₀ (s.emitTo n j d b).2.2 := by
  unfold State.emitTo
  dsimp only
  exact kept_keepHistory (kept_emit hk _ _ _) _ _ _

theorem kept_endJobAt {s₀ s : State} (hk : Kept s₀ s) (t : Tick) (n : Nat) (j : JobRun) (status : Nat) (err : Option DecErr) : Kept s₀ (State.endJobAt s t n j status err) := by
  unfold State.endJobAt
  repeat' first
    | with_reducible exact hk
    | (simp +contextual (maxDischargeDepth := 60) only [kept_setB, kept_incSat, kept_setLane, kept_raise, kept_hold, hk, kept_ite, kept_mk]; done)
    | with_reducible refine kept_ite (fun _ => ?_) (fun _ => ?_)
    | with_reducible refine kept_foldl _ (fun s hk x => ?_) ?_
    | with_reducible dsimp only
    | (with_reducible split)

theorem kept_endJob {s₀ s : State} (hk : Kept s₀ s) (n : Nat) (j : JobRun) (status : Nat) (err : Option DecErr) : Kept s₀ (State.endJob s n j status err) := by
  unfold State.endJob
  repeat' first
    | with_reducible exact hk
    | (simp +contextual (maxDischargeDepth := 60) only [kept_endJobAt, hk]; done)
    | with_reducible refine kept_ite (fun _ => ?_) (fun _ => ?_)
    | with_reducible refine kept_foldl _ (fun s hk x => ?_) ?_
    | with_reducible dsimp only
    | (with_reducible split)

theorem kept_holdEnded {s₀ s : State} (hk : Kept s₀ s)  : Kept s₀ (State.holdEnded s) := by
  unfold State.holdEnded
  repeat' first
    | with_reducible exact hk
    | (simp +contextual (maxDischargeDepth := 60) only [kept_setLane, kept_hold, implies_true, forall_const, hk, kept_foldl, kept_mk]; done)
    | with_reducible refine kept_ite (fun _ => ?_) (fun _ => ?_)
    | with_reducible refine kept_foldl _ (fun s hk x => ?_) ?_
    | with_reducible dsimp only
    | (with_reducible split)

theorem kept_completeNext {s₀ s : State} (hk : Kept s₀ s)  : Kept s₀ (State.completeNext s) := by
  unfold State.completeNext
  have hk2 := hk
  repeat' first
    | with_reducible exact hk
    | with_reducible exact hk2
    | (simp +contextual (maxDischargeDepth := 60) only [kept_setB, kept_setLane, kept_holdEnded, kept_writeMem, kept_setF, hk, hk2, kept_ite, kept_mk]; done)
    | with_reducible refine kept_ite (fun _ => ?_) (fun _ => ?_)
    | with_reducible refine kept_foldl _ (fun s hk x => ?_) ?_
    | with_reducible dsimp only
    | (with_reducible split) <;> first | (have hk2 : Kept s₀ _ := kept_pair ‹(_ : _ × State) = (_, _)› (by simp +contextual (maxDischargeDepth := 60) only [kept_setB, kept_setLane, kept_holdEnded, kept_writeMem, kept_setF, hk, hk2, kept_ite, kept_mk]; done)) | skip

theorem kept_flushRecords {s₀ s : State} (hk : Kept s₀ s) (n : Nat) : Kept s₀ (State.flushRecords s n) := by
  induction n generalizing s with
  | zero => exact hk
  | succ n ih =>
    unfold State.flushRecords
    repeat' first
      | with_reducible exact hk
      | (simp +contextual (maxDischargeDepth := 60) only [ih, kept_completeNext, hk, kept_ite]; done)
      | with_reducible refine kept_ite (fun _ => ?_) (fun _ => ?_)
      | with_reducible refine kept_foldl _ (fun s hk x => ?_) ?_
      | with_reducible dsimp only
      | (with_reducible split)

theorem kept_bandBus {s₀ s : State} (hk : Kept s₀ s) (b : BandRun) : Kept s₀ (State.bandBus s b) := by
  unfold State.bandBus
  repeat' first
    | with_reducible exact hk
    | (simp +contextual (maxDischargeDepth := 60) only [kept_streamFail, kept_settle, kept_endStream, hk, kept_mk]; done)
    | with_reducible refine kept_ite (fun _ => ?_) (fun _ => ?_)
    | with_reducible refine kept_foldl _ (fun s hk x => ?_) ?_
    | with_reducible dsimp only
    | (with_reducible split)

theorem kept_bandStep {s₀ s : State} (hk : Kept s₀ s) (n : Nat) (b : BandRun) (d : Decoded) : Kept s₀ (State.bandStep s n b d) := by
  unfold State.bandStep
  have hk2 := hk
  have hk5 := hk
  repeat' first
    | with_reducible exact hk
    | with_reducible exact hk2
    | with_reducible exact hk5
    | (simp +contextual (maxDischargeDepth := 60) only [kept_writeBand, kept_keepHistory, kept_setLane, kept_take, kept_bandBus, hk, hk2, hk5, kept_ite, kept_mk]; done)
    | with_reducible refine kept_ite (fun _ => ?_) (fun _ => ?_)
    | with_reducible refine kept_foldl _ (fun s hk x => ?_) ?_
    | with_reducible dsimp only
    | (with_reducible split) <;> ((first | (have hk2 : Kept s₀ _ := kept_pair ‹(_ : _ × State) = (_, _)› (by simp +contextual (maxDischargeDepth := 60) only [kept_writeBand, kept_keepHistory, kept_setLane, kept_take, kept_bandBus, hk, hk2, hk5, kept_ite, kept_mk]; done)) | skip); (first | (have hk5 : Kept s₀ _ := kept_skipped ‹(_ : Take) = .skipped _› (by simp +contextual (maxDischargeDepth := 60) only [kept_writeBand, kept_keepHistory, kept_setLane, kept_take, kept_bandBus, hk, hk2, hk5, kept_ite, kept_mk]; done)) | (have hk5 : Kept s₀ _ := kept_run ‹(_ : Take) = .run _ _› (by simp +contextual (maxDischargeDepth := 60) only [kept_writeBand, kept_keepHistory, kept_setLane, kept_take, kept_bandBus, hk, hk2, hk5, kept_ite, kept_mk]; done)) | skip))

theorem kept_jobStep {s₀ s : State} (hk : Kept s₀ s) (n : Nat) (j : JobRun) (d : Decoded) : Kept s₀ (State.jobStep s n j d) := by
  unfold State.jobStep
  have hk2 := hk
  have hk3 := hk
  repeat' first
    | with_reducible exact hk
    | with_reducible exact hk2
    | with_reducible exact hk3
    | (simp +contextual (maxDischargeDepth := 60) only [kept_setLane, kept_emitTo, kept_endJobAt, hk, hk2, hk3, kept_ite, kept_mk]; done)
    | with_reducible refine kept_ite (fun _ => ?_) (fun _ => ?_)
    | with_reducible refine kept_foldl _ (fun s hk x => ?_) ?_
    | with_reducible dsimp only
    | (with_reducible split) <;> ((first | (have hk2 : Kept s₀ _ := kept_pair ‹(_ : _ × State) = (_, _)› (by simp +contextual (maxDischargeDepth := 60) only [kept_setLane, kept_emitTo, kept_endJobAt, hk, hk2, hk3, kept_ite, kept_mk]; done)) | skip); (first | (have hk3 : Kept s₀ _ := kept_triple ‹(_ : _ × _ × State) = (_, _, _)› (by simp +contextual (maxDischargeDepth := 60) only [kept_setLane, kept_emitTo, kept_endJobAt, hk, hk2, hk3, kept_ite, kept_mk]; done)) | skip))

theorem kept_laneStep {s₀ s : State} (hk : Kept s₀ s) (n : Nat) : Kept s₀ (s.laneStep n) := by
  unfold State.laneStep
  split
  · split
    · exact kept_bandStep hk _ _ _
    · exact hk
  · split
    · exact kept_jobStep hk _ _ _
    · exact hk
  · exact hk

theorem kept_fxStep {s₀ s : State} (hk : Kept s₀ s)  : Kept s₀ (State.fxStep s) := by
  unfold State.fxStep
  repeat' first
    | with_reducible exact hk
    | (simp +contextual (maxDischargeDepth := 60) only [kept_laneStep, implies_true, forall_const, hk, kept_foldl]; done)
    | with_reducible refine kept_ite (fun _ => ?_) (fun _ => ?_)
    | with_reducible refine kept_foldl _ (fun s hk x => ?_) ?_
    | with_reducible dsimp only
    | (with_reducible split)

theorem kept_completeBand {s₀ s : State} (hk : Kept s₀ s) (n : Nat) (b : BandRun) : Kept s₀ (State.completeBand s n b) := by
  unfold State.completeBand
  repeat' first
    | with_reducible exact hk
    | (simp +contextual (maxDischargeDepth := 60) only [kept_incSat, kept_setLane, kept_countStall, kept_bandTileDone, hk, kept_ite, kept_mk]; done)
    | with_reducible refine kept_ite (fun _ => ?_) (fun _ => ?_)
    | with_reducible refine kept_foldl _ (fun s hk x => ?_) ?_
    | with_reducible dsimp only
    | (with_reducible split)

theorem kept_completeJobTile {s₀ s : State} (hk : Kept s₀ s) (n : Nat) (j : JobRun) :
    Kept s₀ (s.completeJobTile n j) := by
  unfold State.completeJobTile
  split
  · dsimp only
    refine kept_ite (fun _ => kept_ite (fun _ => ?_) (fun _ => ?_)) (fun _ => hk)
    · exact kept_endJob (kept_countStall (kept_incSat hk _ _ _ _) _ _) _ _ _ _
    · exact kept_setLane (kept_beginTile (kept_countStall (kept_incSat hk _ _ _ _) _ _) _) _ _
  · exact hk

theorem kept_failBand {s₀ s : State} (hk : Kept s₀ s) (n : Nat) (b : BandRun) : Kept s₀ (State.failBand s n b) := by
  unfold State.failBand
  repeat' first
    | with_reducible exact hk
    | (simp +contextual (maxDischargeDepth := 60) only [kept_streamFail, kept_settle, kept_incSat, kept_countStall, kept_endStream, hk, kept_mk]; done)
    | with_reducible refine kept_ite (fun _ => ?_) (fun _ => ?_)
    | with_reducible refine kept_foldl _ (fun s hk x => ?_) ?_
    | with_reducible dsimp only
    | (with_reducible split)

theorem kept_failJobTile {s₀ s : State} (hk : Kept s₀ s) (n : Nat) (j : JobRun) : Kept s₀ (State.failJobTile s n j) := by
  unfold State.failJobTile
  repeat' first
    | with_reducible exact hk
    | (simp +contextual (maxDischargeDepth := 60) only [kept_countStall, kept_endJob, hk, kept_mk]; done)
    | with_reducible refine kept_ite (fun _ => ?_) (fun _ => ?_)
    | with_reducible refine kept_foldl _ (fun s hk x => ?_) ?_
    | with_reducible dsimp only
    | (with_reducible split)

theorem kept_jobTaken {s₀ s : State} (hk : Kept s₀ s)  : Kept s₀ (State.jobTaken s) := by
  unfold State.jobTaken
  repeat' first
    | with_reducible exact hk
    | (simp +contextual (maxDischargeDepth := 60) only [kept_setF, hk]; done)
    | with_reducible refine kept_ite (fun _ => ?_) (fun _ => ?_)
    | with_reducible refine kept_foldl _ (fun s hk x => ?_) ?_
    | with_reducible dsimp only
    | (with_reducible split)

theorem kept_readJob {s₀ s : State} (hk : Kept s₀ s)  : Kept s₀ (State.readJob s).2 := by
  unfold State.readJob
  have hk2 := hk
  repeat' first
    | with_reducible exact hk
    | with_reducible exact hk2
    | (simp +contextual (maxDischargeDepth := 60) only [kept_readMem, hk, hk2, kept_mk]; done)
    | with_reducible refine kept_ite (fun _ => ?_) (fun _ => ?_)
    | with_reducible refine kept_foldl _ (fun s hk x => ?_) ?_
    | with_reducible dsimp only
    | (with_reducible split) <;> first | (have hk2 : Kept s₀ _ := kept_pair ‹(_ : _ × State) = (_, _)› (by simp +contextual (maxDischargeDepth := 60) only [kept_readMem, hk, hk2, kept_mk]; done)) | skip

theorem kept_suspendLane {s₀ s : State} (hk : Kept s₀ s) (n : Nat) (j : JobRun) : Kept s₀ (State.suspendLane s n j) := by
  unfold State.suspendLane
  repeat' first
    | with_reducible exact hk
    | (simp +contextual (maxDischargeDepth := 60) only [kept_setB, kept_setLane, kept_countStall, hk, kept_ite, kept_mk]; done)
    | with_reducible refine kept_ite (fun _ => ?_) (fun _ => ?_)
    | with_reducible refine kept_foldl _ (fun s hk x => ?_) ?_
    | with_reducible dsimp only
    | (with_reducible split)

theorem kept_resumeRefused {s₀ s : State} (hk : Kept s₀ s)  : Kept s₀ (State.resumeRefused s) := by
  unfold State.resumeRefused
  repeat' first
    | with_reducible exact hk
    | (simp +contextual (maxDischargeDepth := 60) only [kept_setB, hk]; done)
    | with_reducible refine kept_ite (fun _ => ?_) (fun _ => ?_)
    | with_reducible refine kept_foldl _ (fun s hk x => ?_) ?_
    | with_reducible dsimp only
    | (with_reducible split)

theorem kept_resumeLane {s₀ s : State} (hk : Kept s₀ s) (lane : Nat) (w : Word) : Kept s₀ (State.resumeLane s lane w) := by
  unfold State.resumeLane
  have hk2 := hk
  repeat' first
    | with_reducible exact hk
    | with_reducible exact hk2
    | (simp +contextual (maxDischargeDepth := 60) only [kept_setLane, kept_resumeRefused, kept_endJob, kept_enterBuf, hk, hk2, kept_mk]; done)
    | with_reducible refine kept_ite (fun _ => ?_) (fun _ => ?_)
    | with_reducible refine kept_foldl _ (fun s hk x => ?_) ?_
    | with_reducible dsimp only
    | (with_reducible split) <;> first | (have hk2 : Kept s₀ _ := kept_pair ‹(_ : _ × State) = (_, _)› (by simp +contextual (maxDischargeDepth := 60) only [kept_setLane, kept_resumeRefused, kept_endJob, kept_enterBuf, hk, hk2, kept_mk]; done)) | skip

theorem kept_laneSave {s₀ s : State} (hk : Kept s₀ s) (n : Nat) : Kept s₀ (State.laneSave s n) := by
  unfold State.laneSave
  repeat' first
    | with_reducible exact hk
    | (simp +contextual (maxDischargeDepth := 60) only [kept_setLane, kept_resumeRefused, hk, kept_mk]; done)
    | with_reducible refine kept_ite (fun _ => ?_) (fun _ => ?_)
    | with_reducible refine kept_foldl _ (fun s hk x => ?_) ?_
    | with_reducible dsimp only
    | (with_reducible split)

theorem kept_laneAbort {s₀ s : State} (hk : Kept s₀ s) (n : Nat) : Kept s₀ (State.laneAbort s n) := by
  unfold State.laneAbort
  repeat' first
    | with_reducible exact hk
    | (simp +contextual (maxDischargeDepth := 60) only [kept_setLane, kept_endJobAt, hk, kept_ite, kept_mk]; done)
    | with_reducible refine kept_ite (fun _ => ?_) (fun _ => ?_)
    | with_reducible refine kept_foldl _ (fun s hk x => ?_) ?_
    | with_reducible dsimp only
    | (with_reducible split)

theorem kept_fxTailWrite {s₀ s : State} (hk : Kept s₀ s) (w : Word) : Kept s₀ (State.fxTailWrite s w) := by
  unfold State.fxTailWrite
  repeat' first
    | with_reducible exact hk
    | (simp +contextual (maxDischargeDepth := 60) only [kept_flushRecords, kept_setF, hk]; done)
    | with_reducible refine kept_ite (fun _ => ?_) (fun _ => ?_)
    | with_reducible refine kept_foldl _ (fun s hk x => ?_) ?_
    | with_reducible dsimp only
    | (with_reducible split)

theorem kept_fxReset {s₀ s : State} (hk : Kept s₀ s)  : Kept s₀ (State.fxReset s) := by
  unfold State.fxReset
  repeat' first
    | with_reducible exact hk
    | (simp +contextual (maxDischargeDepth := 60) only [kept_setFilled, kept_endStream, implies_true, forall_const, hk, kept_foldl, kept_mk, kept_mkFilter, wipeRange]; done)
    | with_reducible refine kept_ite (fun _ => ?_) (fun _ => ?_)
    | with_reducible refine kept_foldl _ (fun s hk x => ?_) ?_
    | with_reducible dsimp only
    | (with_reducible split)

end Sys2Proof.Machine
end

