-- ==== Sys2Proof/Laws/KeptBinding.lean ====
section
/-! SUPPORT. What the operations of Machine/Binding.lean keep of a state. -/

namespace Sys2Proof.Machine

theorem kept_moveLw {s₀ s : State} (hk : Kept s₀ s) (st : Nat) (b : Binding) (next : Int) : Kept s₀ (State.moveLw s st b next) := by
  unfold State.moveLw
  repeat' first
    | with_reducible exact hk
    | (simp +contextual (maxDischargeDepth := 60) only [kept_updateCredit, kept_advanceReleased, kept_modExp, hk, kept_ite, kept_mk, kept_mkFilter]; done)
    | with_reducible refine kept_ite (fun _ => ?_) (fun _ => ?_)
    | with_reducible refine kept_foldl _ (fun s hk x => ?_) ?_
    | with_reducible dsimp only
    | (with_reducible split)

theorem kept_settleLw {s₀ s : State} (hk : Kept s₀ s) (st : Nat) (k : Nat) (s16 : Int) : Kept s₀ (State.settleLw s st k s16) := by
  unfold State.settleLw
  repeat' first
    | with_reducible exact hk
    | (simp +contextual (maxDischargeDepth := 60) only [kept_moveLw, kept_modExp, implies_true, forall_const, hk, kept_foldl, kept_mk, kept_mkFilter]; done)
    | with_reducible refine kept_ite (fun _ => ?_) (fun _ => ?_)
    | with_reducible refine kept_foldl _ (fun s hk x => ?_) ?_
    | with_reducible dsimp only
    | (with_reducible split)

theorem kept_handOver {s₀ s : State} (hk : Kept s₀ s) (st : Nat) (x : ScanSet) : Kept s₀ (State.handOver s st x) := by
  unfold State.handOver
  repeat' first
    | with_reducible exact hk
    | (simp +contextual (maxDischargeDepth := 60) only [kept_take, kept_applyS, kept_settleLw, kept_modExp, kept_causeH, implies_true, forall_const, hk, kept_foldl, kept_mk, kept_mkFilter]; done)
    | with_reducible refine kept_ite (fun _ => ?_) (fun _ => ?_)
    | with_reducible refine kept_foldl _ (fun s hk x => ?_) ?_
    | with_reducible dsimp only
    | (with_reducible split)

theorem kept_unbindScans {s₀ s : State} (hk : Kept s₀ s) (st : Nat) : Kept s₀ (State.unbindScans s st) := by
  unfold State.unbindScans
  repeat' first
    | with_reducible exact hk
    | (simp +contextual (maxDischargeDepth := 60) only [kept_modExp, hk, kept_mk]; done)
    | with_reducible refine kept_ite (fun _ => ?_) (fun _ => ?_)
    | with_reducible refine kept_foldl _ (fun s hk x => ?_) ?_
    | with_reducible dsimp only
    | (with_reducible split)

theorem kept_scanCause {s₀ s : State} (hk : Kept s₀ s) (st : Nat) (h : Nat) (kind : Nat) (k : Nat) : Kept s₀ (State.scanCause s st h kind k) := by
  unfold State.scanCause
  repeat' first
    | with_reducible exact hk
    | (simp +contextual (maxDischargeDepth := 60) only [kept_causeH, kept_setReg, hk]; done)
    | with_reducible refine kept_ite (fun _ => ?_) (fun _ => ?_)
    | with_reducible refine kept_foldl _ (fun s hk x => ?_) ?_
    | with_reducible dsimp only
    | (with_reducible split)

theorem kept_scanFails {s₀ s : State} (hk : Kept s₀ s) (st : Nat) (kind : Nat) (k : Nat) : Kept s₀ (State.scanFails s st kind k) := by
  unfold State.scanFails
  repeat' first
    | with_reducible exact hk
    | (simp +contextual (maxDischargeDepth := 60) only [kept_scanCause, hk, kept_mk]; done)
    | with_reducible refine kept_ite (fun _ => ?_) (fun _ => ?_)
    | with_reducible refine kept_foldl _ (fun s hk x => ?_) ?_
    | with_reducible dsimp only
    | (with_reducible split)

theorem kept_notHanded {s₀ s : State} (hk : Kept s₀ s) (st : Nat) (k : Nat) : Kept s₀ (State.notHanded s st k) := by
  unfold State.notHanded
  repeat' first
    | with_reducible exact hk
    | (simp +contextual (maxDischargeDepth := 60) only [kept_scanCause, kept_modExp, kept_take, hk, kept_mk]; done)
    | with_reducible refine kept_ite (fun _ => ?_) (fun _ => ?_)
    | with_reducible refine kept_foldl _ (fun s hk x => ?_) ?_
    | with_reducible dsimp only
    | (with_reducible split)

end Sys2Proof.Machine
end

