-- ==== Sys2Proof/Laws/KeptScan.lean ====
section
/-! SUPPORT. What the operations of Machine/Scan.lean keep of a state. -/

namespace Sys2Proof.Machine

theorem kept_modScn {s₀ s : State} (hk : Kept s₀ s) (st : Nat) (g : Scn → Scn) : Kept s₀ (State.modScn s st g) := by
  unfold State.modScn
  repeat' first
    | with_reducible exact hk
    | (simp +contextual (maxDischargeDepth := 60) only [hk, kept_mk]; done)
    | with_reducible refine kept_ite (fun _ => ?_) (fun _ => ?_)
    | with_reducible refine kept_foldl _ (fun s hk x => ?_) ?_
    | with_reducible dsimp only
    | (with_reducible split)

theorem kept_setTf {s₀ s : State} (hk : Kept s₀ s) (st : Nat) (tf : Int) : Kept s₀ (State.setTf s st tf) := by
  unfold State.setTf
  repeat' first
    | with_reducible exact hk
    | (simp +contextual (maxDischargeDepth := 60) only [kept_setReg, kept_modScn, hk, kept_mk]; done)
    | with_reducible refine kept_ite (fun _ => ?_) (fun _ => ?_)
    | with_reducible refine kept_foldl _ (fun s hk x => ?_) ?_
    | with_reducible dsimp only
    | (with_reducible split)

theorem kept_addPred {s₀ s : State} (hk : Kept s₀ s) (st : Nat) (k : Nat) (ref : Tick) : Kept s₀ (State.addPred s st k ref) := by
  unfold State.addPred
  repeat' first
    | with_reducible exact hk
    | (simp +contextual (maxDischargeDepth := 60) only [kept_setTf, kept_modScn, hk, kept_mk, kept_mkFilter]; done)
    | with_reducible refine kept_ite (fun _ => ?_) (fun _ => ?_)
    | with_reducible refine kept_foldl _ (fun s hk x => ?_) ?_
    | with_reducible dsimp only
    | (with_reducible split)

theorem kept_addDelta {s₀ s : State} (hk : Kept s₀ s) (st : Nat) : Kept s₀ (State.addDelta s st) := by
  unfold State.addDelta
  repeat' first
    | with_reducible exact hk
    | (simp +contextual (maxDischargeDepth := 60) only [kept_modScn, hk, kept_mk]; done)
    | with_reducible refine kept_ite (fun _ => ?_) (fun _ => ?_)
    | with_reducible refine kept_foldl _ (fun s hk x => ?_) ?_
    | with_reducible dsimp only
    | (with_reducible split)

theorem kept_setScnState {s₀ s : State} (hk : Kept s₀ s) (st : Nat) (n : Nat) : Kept s₀ (State.setScnState s st n) := by
  unfold State.setScnState
  repeat' first
    | with_reducible exact hk
    | (simp +contextual (maxDischargeDepth := 60) only [kept_setF, hk]; done)
    | with_reducible refine kept_ite (fun _ => ?_) (fun _ => ?_)
    | with_reducible refine kept_foldl _ (fun s hk x => ?_) ?_
    | with_reducible dsimp only
    | (with_reducible split)

theorem kept_enterSpinup {s₀ s : State} (hk : Kept s₀ s) (st : Nat) : Kept s₀ (State.enterSpinup s st) := by
  unfold State.enterSpinup
  repeat' first
    | with_reducible exact hk
    | (simp +contextual (maxDischargeDepth := 60) only [kept_modScn, kept_setScnState, kept_setF, hk, kept_ite, kept_mk]; done)
    | with_reducible refine kept_ite (fun _ => ?_) (fun _ => ?_)
    | with_reducible refine kept_foldl _ (fun s hk x => ?_) ?_
    | with_reducible dsimp only
    | (with_reducible split)

theorem kept_scnLossFor {s₀ s : State} (hk : Kept s₀ s) (st : Nat) (reason : Nat) (hs : List (Nat × Nat)) : Kept s₀ (State.scnLossFor s st reason hs) := by
  unfold State.scnLossFor
  repeat' first
    | with_reducible exact hk
    | (simp +contextual (maxDischargeDepth := 60) only [kept_incSat, kept_unbindScans, kept_raise, kept_setF, kept_enterSpinup, kept_scanCause, kept_setB, implies_true, forall_const, hk, kept_ite, kept_foldl]; done)
    | with_reducible refine kept_ite (fun _ => ?_) (fun _ => ?_)
    | with_reducible refine kept_foldl _ (fun s hk x => ?_) ?_
    | with_reducible dsimp only
    | (with_reducible split)

theorem kept_scnLoss {s₀ s : State} (hk : Kept s₀ s) (st : Nat) (reason : Nat) : Kept s₀ (State.scnLoss s st reason) := by
  unfold State.scnLoss
  repeat' first
    | with_reducible exact hk
    | (simp +contextual (maxDischargeDepth := 60) only [kept_scnLossFor, hk]; done)
    | with_reducible refine kept_ite (fun _ => ?_) (fun _ => ?_)
    | with_reducible refine kept_foldl _ (fun s hk x => ?_) ?_
    | with_reducible dsimp only
    | (with_reducible split)

theorem kept_clearTable {s₀ s : State} (hk : Kept s₀ s) (st : Nat) : Kept s₀ (State.clearTable s st) := by
  unfold State.clearTable
  repeat' first
    | with_reducible exact hk
    | (simp +contextual (maxDischargeDepth := 60) only [kept_setReg, implies_true, forall_const, hk, kept_foldl]; done)
    | with_reducible refine kept_ite (fun _ => ?_) (fun _ => ?_)
    | with_reducible refine kept_foldl _ (fun s hk x => ?_) ?_
    | with_reducible dsimp only
    | (with_reducible split)

theorem kept_enterAcquire {s₀ s : State} (hk : Kept s₀ s) (st : Nat) (t : Int) : Kept s₀ (State.enterAcquire s st t) := by
  unfold State.enterAcquire
  repeat' first
    | with_reducible exact hk
    | (simp +contextual (maxDischargeDepth := 60) only [kept_clearTable, kept_modScn, kept_setScnState, kept_addPred, kept_setF, kept_setB, implies_true, forall_const, hk, kept_ite, kept_foldl, kept_mk]; done)
    | with_reducible refine kept_ite (fun _ => ?_) (fun _ => ?_)
    | with_reducible refine kept_foldl _ (fun s hk x => ?_) ?_
    | with_reducible dsimp only
    | (with_reducible split)

theorem kept_spinupSos {s₀ s : State} (hk : Kept s₀ s) (st : Nat) (t : Int) : Kept s₀ (State.spinupSos s st t) := by
  unfold State.spinupSos
  repeat' first
    | with_reducible exact hk
    | (simp +contextual (maxDischargeDepth := 60) only [kept_setTf, kept_take, kept_applyAll, kept_modScn, kept_enterAcquire, hk, kept_ite, kept_mk]; done)
    | with_reducible refine kept_ite (fun _ => ?_) (fun _ => ?_)
    | with_reducible refine kept_foldl _ (fun s hk x => ?_) ?_
    | with_reducible dsimp only
    | (with_reducible split)

theorem kept_countOut {s₀ s : State} (hk : Kept s₀ s) (st : Nat) : Kept s₀ (State.countOut s st) := by
  unfold State.countOut
  repeat' first
    | with_reducible exact hk
    | (simp +contextual (maxDischargeDepth := 60) only [kept_incSat, hk]; done)
    | with_reducible refine kept_ite (fun _ => ?_) (fun _ => ?_)
    | with_reducible refine kept_foldl _ (fun s hk x => ?_) ?_
    | with_reducible dsimp only
    | (with_reducible split)

theorem kept_outOfBound {s₀ s : State} (hk : Kept s₀ s) (st : Nat) (kind : Nat) (k : Nat) : Kept s₀ (State.outOfBound s st kind k) := by
  unfold State.outOfBound
  repeat' first
    | with_reducible exact hk
    | (simp +contextual (maxDischargeDepth := 60) only [kept_scanFails, kept_raise, kept_modScn, kept_countOut, kept_setB, hk, kept_mk]; done)
    | with_reducible refine kept_ite (fun _ => ?_) (fun _ => ?_)
    | with_reducible refine kept_foldl _ (fun s hk x => ?_) ?_
    | with_reducible dsimp only
    | (with_reducible split)

theorem kept_stampEdge {s₀ s : State} (hk : Kept s₀ s) (st : Nat) (i : Nat) (f : Nat) (t : Int) (out : Bool) : Kept s₀ (State.stampEdge s st i f t out) := by
  unfold State.stampEdge
  repeat' first
    | with_reducible exact hk
    | (simp +contextual (maxDischargeDepth := 60) only [kept_setReg, hk, kept_ite]; done)
    | with_reducible refine kept_ite (fun _ => ?_) (fun _ => ?_)
    | with_reducible refine kept_foldl _ (fun s hk x => ?_) ?_
    | with_reducible dsimp only
    | (with_reducible split)

theorem kept_fitNext {s₀ s : State} (hk : Kept s₀ s) (bound : Nat) (n : Nat) : Kept s₀ (State.fitNext s bound n) := by
  unfold State.fitNext
  have hk2 := hk
  repeat' first
    | with_reducible exact hk
    | with_reducible exact hk2
    | (simp +contextual (maxDischargeDepth := 60) only [kept_takeFresh, hk, hk2, kept_ite]; done)
    | with_reducible refine kept_ite (fun _ => ?_) (fun _ => ?_)
    | with_reducible refine kept_foldl _ (fun s hk x => ?_) ?_
    | with_reducible dsimp only
    | (with_reducible split) <;> first | (have hk2 : Kept s₀ _ := kept_pair ‹(_ : _ × State) = (_, _)› (by simp +contextual (maxDischargeDepth := 60) only [kept_takeFresh, hk, hk2, kept_ite]; done)) | skip

theorem kept_fit {s₀ s : State} (hk : Kept s₀ s) (bound : Nat) (n : Nat) : Kept s₀ (State.fit s bound n).2 := by
  unfold State.fit
  repeat' first
    | with_reducible exact hk
    | (simp +contextual (maxDischargeDepth := 60) only [kept_fitNext, hk]; done)
    | with_reducible refine kept_ite (fun _ => ?_) (fun _ => ?_)
    | with_reducible refine kept_foldl _ (fun s hk x => ?_) ?_
    | with_reducible dsimp only
    | (with_reducible split)

theorem kept_learnS {s₀ s : State} (hk : Kept s₀ s) (st : Nat) (f : Nat) (second : Bool) (m : Int) (tf : Int) (g : Nat) : Kept s₀ (State.learnS s st f second m tf g) := by
  unfold State.learnS
  have hk2 := hk
  repeat' first
    | with_reducible exact hk
    | with_reducible exact hk2
    | (simp +contextual (maxDischargeDepth := 60) only [kept_setReg, kept_fit, hk, hk2, kept_ite]; done)
    | with_reducible refine kept_ite (fun _ => ?_) (fun _ => ?_)
    | with_reducible refine kept_foldl _ (fun s hk x => ?_) ?_
    | with_reducible dsimp only
    | (with_reducible split) <;> first | (have hk2 : Kept s₀ _ := kept_pair ‹(_ : _ × State) = (_, _)› (by simp +contextual (maxDischargeDepth := 60) only [kept_setReg, kept_fit, hk, hk2, kept_ite]; done)) | skip

theorem kept_learnA {s₀ s : State} (hk : Kept s₀ s) (st : Nat) (f : Nat) (e : Int) (g : Nat) : Kept s₀ (State.learnA s st f e g) := by
  unfold State.learnA
  have hk2 := hk
  repeat' first
    | with_reducible exact hk
    | with_reducible exact hk2
    | (simp +contextual (maxDischargeDepth := 60) only [kept_takeFresh, kept_setF, hk, hk2, kept_ite]; done)
    | with_reducible refine kept_ite (fun _ => ?_) (fun _ => ?_)
    | with_reducible refine kept_foldl _ (fun s hk x => ?_) ?_
    | with_reducible dsimp only
    | (with_reducible split) <;> first | (have hk2 : Kept s₀ _ := kept_pair ‹(_ : _ × State) = (_, _)› (by simp +contextual (maxDischargeDepth := 60) only [kept_takeFresh, kept_setF, hk, hk2, kept_ite]; done)) | skip

theorem kept_learnScan {s₀ s : State} (hk : Kept s₀ s) (st : Nat) (c : CurScan) : Kept s₀ (State.learnScan s st c) := by
  unfold State.learnScan
  repeat' first
    | with_reducible exact hk
    | (simp +contextual (maxDischargeDepth := 60) only [kept_learnS, kept_learnA, hk, kept_ite, kept_mk]; done)
    | with_reducible refine kept_ite (fun _ => ?_) (fun _ => ?_)
    | with_reducible refine kept_foldl _ (fun s hk x => ?_) ?_
    | with_reducible dsimp only
    | (with_reducible split)

theorem kept_updateRatio {s₀ s : State} (hk : Kept s₀ s) (st : Nat) : Kept s₀ (s.updateRatio st) := by
  unfold State.updateRatio
  extract_lets x jit facet2 emit2 c f tf p inc1 q2 floor2 ach2 fl fc ac s1 s2 s3 s4 ratio r s5
  have h5 : Kept s₀ s5 := kept_setF (kept_fitNext (kept_setReg (kept_setReg
    (kept_fitNext (kept_fitNext (kept_fitNext hk _ _) _ _) _ _) _ _) _ _) _ _) _ _ _ _
  clear_value s5
  exact kept_ite (fun _ => kept_raise (kept_setB h5 _ _ _) _ _) (fun _ => h5)

theorem kept_scanStats {s₀ s : State} (hk : Kept s₀ s) (st : Nat) (pr : Pred) (t : Int) : Kept s₀ (State.scanStats s st pr t) := by
  unfold State.scanStats
  repeat' first
    | with_reducible exact hk
    | (simp +contextual (maxDischargeDepth := 60) only [kept_take, kept_modScn, hk, kept_mk]; done)
    | with_reducible refine kept_ite (fun _ => ?_) (fun _ => ?_)
    | with_reducible refine kept_foldl _ (fun s hk x => ?_) ?_
    | with_reducible dsimp only
    | (with_reducible split)

theorem kept_countScan {s₀ s : State} (hk : Kept s₀ s) (st : Nat) : Kept s₀ (State.countScan s st) := by
  unfold State.countScan
  repeat' first
    | with_reducible exact hk
    | (simp +contextual (maxDischargeDepth := 60) only [kept_updateRatio, kept_modScn, hk, kept_ite, kept_mk]; done)
    | with_reducible refine kept_ite (fun _ => ?_) (fun _ => ?_)
    | with_reducible refine kept_foldl _ (fun s hk x => ?_) ?_
    | with_reducible dsimp only
    | (with_reducible split)

theorem kept_facetZero {s₀ s : State} (hk : Kept s₀ s) (st : Nat) : Kept s₀ (State.facetZero s st) := by
  unfold State.facetZero
  repeat' first
    | with_reducible exact hk
    | (simp +contextual (maxDischargeDepth := 60) only [kept_modScn, kept_setScnState, kept_setF, kept_setB, hk, kept_ite, kept_mk]; done)
    | with_reducible refine kept_ite (fun _ => ?_) (fun _ => ?_)
    | with_reducible refine kept_foldl _ (fun s hk x => ?_) ?_
    | with_reducible dsimp only
    | (with_reducible split)

theorem kept_takeSos {s₀ s : State} (hk : Kept s₀ s) (st : Nat) (t : Int) (coasted : Bool) :
    Kept s₀ (s.takeSos st t coasted) := by
  unfold State.takeSos
  extract_lets n k pr s1 f loss s2 s3 s4 s5 s6 out s7 s8 s9 s10
  have h1 : Kept s₀ s1 := kept_ite (fun _ => kept_modScn hk _ _) (fun _ => hk)
  clear_value s1
  have h2 : Kept s₀ s2 := kept_ite (fun _ => kept_applyAll h1 _) (fun _ => h1)
  clear_value s2
  have h4 : Kept s₀ s4 := kept_setF (kept_setPair h2 _ _ _) _ _ _ _
  clear_value s4
  have h5 : Kept s₀ s5 := kept_ite (fun _ => kept_facetZero h4 _) (fun _ => h4)
  have h6 : Kept s₀ s6 := kept_modScn h5 _ _
  clear_value s6
  have h7 : Kept s₀ s7 := kept_ite (fun _ => h6) (fun _ => kept_stampEdge (kept_scanStats h6 _ _ _) _ _ _ _ _)
  have h8 : Kept s₀ s8 := kept_addPred h7 _ _ _
  clear_value s8
  have h9 : Kept s₀ s9 := kept_ite (fun _ => kept_outOfBound h8 _ _ _) (fun _ => h8)
  have h10 : Kept s₀ s10 := kept_countScan h9 _
  clear_value s10 loss
  split
  · exact kept_scnLoss h10 _ _
  · exact kept_ite (fun _ => h10) (fun _ => kept_scnLoss h10 _ _)

theorem kept_stray {s₀ s : State} (hk : Kept s₀ s) (st : Nat) : Kept s₀ (State.stray s st) := by
  unfold State.stray
  repeat' first
    | with_reducible exact hk
    | (simp +contextual (maxDischargeDepth := 60) only [kept_incSat, hk]; done)
    | with_reducible refine kept_ite (fun _ => ?_) (fun _ => ?_)
    | with_reducible refine kept_foldl _ (fun s hk x => ?_) ?_
    | with_reducible dsimp only
    | (with_reducible split)

theorem kept_noteEdge {s₀ s : State} (hk : Kept s₀ s) (st : Nat) (i : Nat) (x : Nat) : Kept s₀ (State.noteEdge s st i x) := by
  unfold State.noteEdge
  repeat' first
    | with_reducible exact hk
    | (simp +contextual (maxDischargeDepth := 60) only [kept_modScn, hk, kept_mk]; done)
    | with_reducible refine kept_ite (fun _ => ?_) (fun _ => ?_)
    | with_reducible refine kept_foldl _ (fun s hk x => ?_) ?_
    | with_reducible dsimp only
    | (with_reducible split)

theorem kept_endScan {s₀ s : State} (hk : Kept s₀ s) (st : Nat) : Kept s₀ (State.endScan s st) := by
  unfold State.endScan
  repeat' first
    | with_reducible exact hk
    | (simp +contextual (maxDischargeDepth := 60) only [kept_learnScan, hk, kept_mk]; done)
    | with_reducible refine kept_ite (fun _ => ?_) (fun _ => ?_)
    | with_reducible refine kept_foldl _ (fun s hk x => ?_) ?_
    | with_reducible dsimp only
    | (with_reducible split)

theorem kept_countMiss {s₀ s : State} (hk : Kept s₀ s) (st : Nat) : Kept s₀ (State.countMiss s st) := by
  unfold State.countMiss
  repeat' first
    | with_reducible exact hk
    | (simp +contextual (maxDischargeDepth := 60) only [kept_incSat, hk]; done)
    | with_reducible refine kept_ite (fun _ => ?_) (fun _ => ?_)
    | with_reducible refine kept_foldl _ (fun s hk x => ?_) ?_
    | with_reducible dsimp only
    | (with_reducible split)

theorem kept_pitch {s₀ s : State} (hk : Kept s₀ s) (seg : Nat) (tf : Int) (len : Int) : Kept s₀ (State.pitch s seg tf len).2 := by
  unfold State.pitch
  have hk2 := hk
  repeat' first
    | with_reducible exact hk
    | with_reducible exact hk2
    | (simp +contextual (maxDischargeDepth := 60) only [kept_fit, hk, hk2, kept_ite]; done)
    | with_reducible refine kept_ite (fun _ => ?_) (fun _ => ?_)
    | with_reducible refine kept_foldl _ (fun s hk x => ?_) ?_
    | with_reducible dsimp only
    | (with_reducible split) <;> first | (have hk2 : Kept s₀ _ := kept_pair ‹(_ : _ × State) = (_, _)› (by simp +contextual (maxDischargeDepth := 60) only [kept_fit, hk, hk2, kept_ite]; done)) | skip

theorem kept_setOf {s₀ s : State} (hk : Kept s₀ s) (st : Nat) (k : Nat) : Kept s₀ (State.setOf s st k).2 := by
  unfold State.setOf
  have hk2 := hk
  repeat' first
    | with_reducible exact hk
    | with_reducible exact hk2
    | (simp +contextual (maxDischargeDepth := 60) only [kept_pitch, hk, hk2, kept_ite]; done)
    | with_reducible refine kept_ite (fun _ => ?_) (fun _ => ?_)
    | with_reducible refine kept_foldl _ (fun s hk x => ?_) ?_
    | with_reducible dsimp only
    | (with_reducible split) <;> first | (have hk2 : Kept s₀ _ := kept_pair ‹(_ : _ × State) = (_, _)› (by simp +contextual (maxDischargeDepth := 60) only [kept_pitch, hk, hk2, kept_ite]; done)) | skip

theorem kept_writeScnEn {s₀ s : State} (hk : Kept s₀ s) (st : Nat) (en : Bool) : Kept s₀ (State.writeScnEn s st en) := by
  unfold State.writeScnEn
  repeat' first
    | with_reducible exact hk
    | (simp +contextual (maxDischargeDepth := 60) only [kept_modScn, kept_setScnState, kept_setF, kept_enterSpinup, kept_setB, hk, kept_ite, kept_mk]; done)
    | with_reducible refine kept_ite (fun _ => ?_) (fun _ => ?_)
    | with_reducible refine kept_foldl _ (fun s hk x => ?_) ?_
    | with_reducible dsimp only
    | (with_reducible split)

theorem kept_scnReset {s₀ s : State} (hk : Kept s₀ s) (st : Nat) : Kept s₀ (State.scnReset s st) := by
  unfold State.scnReset
  repeat' first
    | with_reducible exact hk
    | (simp +contextual (maxDischargeDepth := 60) only [hk, kept_mk]; done)
    | with_reducible refine kept_ite (fun _ => ?_) (fun _ => ?_)
    | with_reducible refine kept_foldl _ (fun s hk x => ?_) ?_
    | with_reducible dsimp only
    | (with_reducible split)

theorem kept_scnSafe {s₀ s : State} (hk : Kept s₀ s) (hs : Nat → List (Nat × Nat)) : Kept s₀ (State.scnSafe s hs) := by
  unfold State.scnSafe
  repeat' first
    | with_reducible exact hk
    | (simp +contextual (maxDischargeDepth := 60) only [kept_scnLossFor, implies_true, forall_const, hk, kept_foldl]; done)
    | with_reducible refine kept_ite (fun _ => ?_) (fun _ => ?_)
    | with_reducible refine kept_foldl _ (fun s hk x => ?_) ?_
    | with_reducible dsimp only
    | (with_reducible split)

end Sys2Proof.Machine
end

