-- ==== Sys2Proof/Laws/KeptExposure.lean ====
section
/-! SUPPORT. What the operations of Machine/Exposure.lean keep of a state. -/

namespace Sys2Proof.Machine

theorem kept_expEvent {s₀ s : State} (hk : Kept s₀ s) (st : Nat) (ev : Nat) : Kept s₀ (State.expEvent s st ev) := by
  unfold State.expEvent
  repeat' first
    | with_reducible exact hk
    | (simp +contextual (maxDischargeDepth := 60) only [kept_raise, hk]; done)
    | with_reducible refine kept_ite (fun _ => ?_) (fun _ => ?_)
    | with_reducible refine kept_foldl _ (fun s hk x => ?_) ?_
    | with_reducible dsimp only
    | (with_reducible split)

theorem kept_expIrq {s₀ s : State} (hk : Kept s₀ s) (st : Nat) (i : Nat) : Kept s₀ (State.expIrq s st i) := by
  unfold State.expIrq
  repeat' first
    | with_reducible exact hk
    | (simp +contextual (maxDischargeDepth := 60) only [kept_setB, hk]; done)
    | with_reducible refine kept_ite (fun _ => ?_) (fun _ => ?_)
    | with_reducible refine kept_foldl _ (fun s hk x => ?_) ?_
    | with_reducible dsimp only
    | (with_reducible split)

theorem kept_xlkIrq {s₀ s : State} (hk : Kept s₀ s) (st : Nat) (i : Nat) : Kept s₀ (State.xlkIrq s st i) := by
  unfold State.xlkIrq
  repeat' first
    | with_reducible exact hk
    | (simp +contextual (maxDischargeDepth := 60) only [kept_setB, hk]; done)
    | with_reducible refine kept_ite (fun _ => ?_) (fun _ => ?_)
    | with_reducible refine kept_foldl _ (fun s hk x => ?_) ?_
    | with_reducible dsimp only
    | (with_reducible split)

theorem kept_linkCause {s₀ s : State} (hk : Kept s₀ s) (st : Nat) (h : Nat) (kind : Nat) (lane : Nat) (k : Nat) : Kept s₀ (State.linkCause s st h kind lane k) := by
  unfold State.linkCause
  repeat' first
    | with_reducible exact hk
    | (simp +contextual (maxDischargeDepth := 60) only [kept_causeH, kept_xlkIrq, kept_expEvent, kept_setReg, hk]; done)
    | with_reducible refine kept_ite (fun _ => ?_) (fun _ => ?_)
    | with_reducible refine kept_foldl _ (fun s hk x => ?_) ?_
    | with_reducible dsimp only
    | (with_reducible split)

theorem kept_linkCauseOf {s₀ s : State} (hk : Kept s₀ s) (st : Nat) (h : Option Nat) (kind : Nat) (lane : Nat) (k : Nat) : Kept s₀ (State.linkCauseOf s st h kind lane k) := by
  unfold State.linkCauseOf
  repeat' first
    | with_reducible exact hk
    | (simp +contextual (maxDischargeDepth := 60) only [kept_linkCause, hk, kept_mk]; done)
    | with_reducible refine kept_ite (fun _ => ?_) (fun _ => ?_)
    | with_reducible refine kept_foldl _ (fun s hk x => ?_) ?_
    | with_reducible dsimp only
    | (with_reducible split)

theorem kept_bindSheet {s₀ s : State} (hk : Kept s₀ s) (st : Nat) (h : Nat) (i : Nat) (lead : Nat) : KeptOpt s₀ (State.bindSheet s st h i lead) := by
  unfold State.bindSheet
  repeat' first
    | with_reducible exact hk
    | (simp +contextual (maxDischargeDepth := 60) only [kept_modExp, kept_applyS, hk, kept_ite, keptOpt_some, keptOpt_none, kept_mk]; done)
    | with_reducible refine kept_ite (fun _ => ?_) (fun _ => ?_)
    | with_reducible refine kept_foldl _ (fun s hk x => ?_) ?_
    | with_reducible dsimp only
    | (with_reducible split)

theorem kept_sendEof {s₀ s : State} (hk : Kept s₀ s) (st : Nat) (marker : Tick) (abort : Bool) (ws : List (BitVec 64)) : Kept s₀ (State.sendEof s st marker abort ws) := by
  unfold State.sendEof
  repeat' first
    | with_reducible exact hk
    | (simp +contextual (maxDischargeDepth := 60) only [kept_sendCtl, hk]; done)
    | with_reducible refine kept_ite (fun _ => ?_) (fun _ => ?_)
    | with_reducible refine kept_foldl _ (fun s hk x => ?_) ?_
    | with_reducible dsimp only
    | (with_reducible split)

theorem kept_dropSet {s₀ s : State} (hk : Kept s₀ s) (st : Nat) (k : Nat) : Kept s₀ (State.dropSet s st k) := by
  unfold State.dropSet
  repeat' first
    | with_reducible exact hk
    | (simp +contextual (maxDischargeDepth := 60) only [kept_modExp, hk, kept_ite, kept_mk]; done)
    | with_reducible refine kept_ite (fun _ => ?_) (fun _ => ?_)
    | with_reducible refine kept_foldl _ (fun s hk x => ?_) ?_
    | with_reducible dsimp only
    | (with_reducible split)

theorem kept_tileLate {s₀ s : State} (hk : Kept s₀ s) (st : Nat) (b : Binding) (line : Nat) : Kept s₀ (State.tileLate s st b line) := by
  unfold State.tileLate
  repeat' first
    | with_reducible exact hk
    | (simp +contextual (maxDischargeDepth := 60) only [kept_causeH, kept_incSat, kept_blankStation, kept_expEvent, kept_expIrq, hk]; done)
    | with_reducible refine kept_ite (fun _ => ?_) (fun _ => ?_)
    | with_reducible refine kept_foldl _ (fun s hk x => ?_) ?_
    | with_reducible dsimp only
    | (with_reducible split)

theorem kept_takeBand {s₀ s : State} (hk : Kept s₀ s) (st : Nat) : Kept s₀ (State.takeBand s st) := by
  unfold State.takeBand
  repeat' first
    | with_reducible exact hk
    | (simp +contextual (maxDischargeDepth := 60) only [kept_setF, kept_xlkIrq, hk, kept_ite]; done)
    | with_reducible refine kept_ite (fun _ => ?_) (fun _ => ?_)
    | with_reducible refine kept_foldl _ (fun s hk x => ?_) ?_
    | with_reducible dsimp only
    | (with_reducible split)

theorem kept_startFrame {s₀ s : State} (hk : Kept s₀ s) (st : Nat) (x : ScanSet) (b : Binding) (sof : Tick) : Kept s₀ (State.startFrame s st x b sof) := by
  unfold State.startFrame
  repeat' first
    | with_reducible exact hk
    | (simp +contextual (maxDischargeDepth := 60) only [kept_takeBand, kept_incSat, kept_modExp, kept_expIrq, kept_sendCtl, hk, kept_ite, kept_mk, kept_mkFilter]; done)
    | with_reducible refine kept_ite (fun _ => ?_) (fun _ => ?_)
    | with_reducible refine kept_foldl _ (fun s hk x => ?_) ?_
    | with_reducible dsimp only
    | (with_reducible split)

theorem kept_addOnTime {s₀ s : State} (hk : Kept s₀ s) (st : Nat) (t : Tab Nat) : Kept s₀ (State.addOnTime s st t) := by
  unfold State.addOnTime
  repeat' first
    | with_reducible exact hk
    | (simp +contextual (maxDischargeDepth := 60) only [kept_setPair, implies_true, forall_const, hk, kept_foldl]; done)
    | with_reducible refine kept_ite (fun _ => ?_) (fun _ => ?_)
    | with_reducible refine kept_foldl _ (fun s hk x => ?_) ?_
    | with_reducible dsimp only
    | (with_reducible split)

theorem kept_cutFrame {s₀ s : State} (hk : Kept s₀ s) (st : Nat) : Kept s₀ (State.cutFrame s st) := by
  unfold State.cutFrame
  have hk2 := hk
  repeat' first
    | with_reducible exact hk
    | with_reducible exact hk2
    | (simp +contextual (maxDischargeDepth := 60) only [kept_addOnTime, kept_modExp, kept_takeFresh, hk, hk2, kept_mk]; done)
    | with_reducible refine kept_ite (fun _ => ?_) (fun _ => ?_)
    | with_reducible refine kept_foldl _ (fun s hk x => ?_) ?_
    | with_reducible dsimp only
    | (with_reducible split) <;> first | (have hk2 : Kept s₀ _ := kept_pair ‹(_ : _ × State) = (_, _)› (by simp +contextual (maxDischargeDepth := 60) only [kept_addOnTime, kept_modExp, kept_takeFresh, hk, hk2, kept_mk]; done)) | skip

theorem kept_readsDone {s₀ s : State} (hk : Kept s₀ s) (st : Nat) (k : Nat) (b : Binding) : Kept s₀ (State.readsDone s st k b) := by
  unfold State.readsDone
  repeat' first
    | with_reducible exact hk
    | (simp +contextual (maxDischargeDepth := 60) only [kept_modExp, kept_moveLw, hk, kept_mk]; done)
    | with_reducible refine kept_ite (fun _ => ?_) (fun _ => ?_)
    | with_reducible refine kept_foldl _ (fun s hk x => ?_) ?_
    | with_reducible dsimp only
    | (with_reducible split)

theorem kept_retireTo {s₀ s : State} (hk : Kept s₀ s) (st : Nat) (j : Nat) (e' : Nat) (reason : Nat) : Kept s₀ (State.retireTo s st j e' reason) := by
  unfold State.retireTo
  repeat' first
    | with_reducible exact hk
    | (simp +contextual (maxDischargeDepth := 60) only [kept_incSat, kept_setNow, kept_ldgRecord, kept_modExp, kept_expEvent, kept_expIrq, hk, kept_ite, kept_mk, kept_mkFilter]; done)
    | with_reducible refine kept_ite (fun _ => ?_) (fun _ => ?_)
    | with_reducible refine kept_foldl _ (fun s hk x => ?_) ?_
    | with_reducible dsimp only
    | (with_reducible split)

theorem kept_takeRetire {s₀ s : State} (hk : Kept s₀ s) (st : Nat) : Kept s₀ (State.takeRetire s st) := by
  unfold State.takeRetire
  repeat' first
    | with_reducible exact hk
    | (simp +contextual (maxDischargeDepth := 60) only [kept_setB, kept_modExp, kept_retireTo, implies_true, forall_const, hk, kept_ite, kept_foldl, kept_mk]; done)
    | with_reducible refine kept_ite (fun _ => ?_) (fun _ => ?_)
    | with_reducible refine kept_foldl _ (fun s hk x => ?_) ?_
    | with_reducible dsimp only
    | (with_reducible split)

theorem kept_autoRetire {s₀ s : State} (hk : Kept s₀ s) (st : Nat) (j : Nat) : Kept s₀ (State.autoRetire s st j) := by
  unfold State.autoRetire
  repeat' first
    | with_reducible exact hk
    | (simp +contextual (maxDischargeDepth := 60) only [kept_expEvent, kept_expIrq, kept_retireTo, hk, kept_ite, kept_mk]; done)
    | with_reducible refine kept_ite (fun _ => ?_) (fun _ => ?_)
    | with_reducible refine kept_foldl _ (fun s hk x => ?_) ?_
    | with_reducible dsimp only
    | (with_reducible split)

theorem kept_sendTable {s₀ s : State} (hk : Kept s₀ s) (st : Nat) (band : Nat) (d : List Byte) : Kept s₀ (State.sendTable s st band d) := by
  unfold State.sendTable
  repeat' first
    | with_reducible exact hk
    | (simp +contextual (maxDischargeDepth := 60) only [kept_modExp, kept_sendEof, kept_sendCtl, hk, kept_mk]; done)
    | with_reducible refine kept_ite (fun _ => ?_) (fun _ => ?_)
    | with_reducible refine kept_foldl _ (fun s hk x => ?_) ?_
    | with_reducible dsimp only
    | (with_reducible split)

theorem kept_sendTables {s₀ s : State} (hk : Kept s₀ s) (st : Nat) : Kept s₀ (State.sendTables s st) := by
  unfold State.sendTables
  repeat' first
    | with_reducible exact hk
    | (simp +contextual (maxDischargeDepth := 60) only [kept_xlkIrq, kept_sendTable, implies_true, forall_const, hk, kept_ite, kept_foldl]; done)
    | with_reducible refine kept_ite (fun _ => ?_) (fun _ => ?_)
    | with_reducible refine kept_foldl _ (fun s hk x => ?_) ?_
    | with_reducible dsimp only
    | (with_reducible split)

theorem kept_sendOwed {s₀ s : State} (hk : Kept s₀ s) (st : Nat) : Kept s₀ (State.sendOwed s st) := by
  unfold State.sendOwed
  repeat' first
    | with_reducible exact hk
    | (simp +contextual (maxDischargeDepth := 60) only [kept_sendTables, kept_modExp, hk, kept_ite, kept_mk]; done)
    | with_reducible refine kept_ite (fun _ => ?_) (fun _ => ?_)
    | with_reducible refine kept_foldl _ (fun s hk x => ?_) ?_
    | with_reducible dsimp only
    | (with_reducible split)

theorem kept_sendLight {s₀ s : State} (hk : Kept s₀ s) (st : Nat) (l : Light) : Kept s₀ (State.sendLight s st l) := by
  unfold State.sendLight
  repeat' first
    | with_reducible exact hk
    | (simp +contextual (maxDischargeDepth := 60) only [kept_modExp, kept_sendCtl, hk, kept_mk]; done)
    | with_reducible refine kept_ite (fun _ => ?_) (fun _ => ?_)
    | with_reducible refine kept_foldl _ (fun s hk x => ?_) ?_
    | with_reducible dsimp only
    | (with_reducible split)

theorem kept_beamCal {s₀ s : State} (hk : Kept s₀ s) (st : Nat) : Kept s₀ (State.beamCal s st) := by
  unfold State.beamCal
  repeat' first
    | with_reducible exact hk
    | (simp +contextual (maxDischargeDepth := 60) only [kept_modExp, kept_sendLight, hk, kept_ite, kept_mk]; done)
    | with_reducible refine kept_ite (fun _ => ?_) (fun _ => ?_)
    | with_reducible refine kept_foldl _ (fun s hk x => ?_) ?_
    | with_reducible dsimp only
    | (with_reducible split)

theorem kept_applyGap {s₀ s : State} (hk : Kept s₀ s) (st : Nat) : Kept s₀ (State.applyGap s st) := by
  unfold State.applyGap
  repeat' first
    | with_reducible exact hk
    | (simp +contextual (maxDischargeDepth := 60) only [kept_applyAll, hk]; done)
    | with_reducible refine kept_ite (fun _ => ?_) (fun _ => ?_)
    | with_reducible refine kept_foldl _ (fun s hk x => ?_) ?_
    | with_reducible dsimp only
    | (with_reducible split)

theorem kept_retireRequest {s₀ s : State} (hk : Kept s₀ s) (st : Nat) (w : Word) : Kept s₀ (State.retireRequest s st w) := by
  unfold State.retireRequest
  repeat' first
    | with_reducible exact hk
    | (simp +contextual (maxDischargeDepth := 60) only [kept_modExp, hk, kept_mk]; done)
    | with_reducible refine kept_ite (fun _ => ?_) (fun _ => ?_)
    | with_reducible refine kept_foldl _ (fun s hk x => ?_) ?_
    | with_reducible dsimp only
    | (with_reducible split)

theorem kept_enterLink {s₀ s : State} (hk : Kept s₀ s) (st : Nat) (n : Nat) : Kept s₀ (State.enterLink s st n) := by
  unfold State.enterLink
  repeat' first
    | with_reducible exact hk
    | (simp +contextual (maxDischargeDepth := 60) only [kept_setF, kept_modExp, hk, kept_mk]; done)
    | with_reducible refine kept_ite (fun _ => ?_) (fun _ => ?_)
    | with_reducible refine kept_foldl _ (fun s hk x => ?_) ?_
    | with_reducible dsimp only
    | (with_reducible split)

theorem kept_linkDown {s₀ s : State} (hk : Kept s₀ s) (st : Nat) (kind : Nat) (k : Nat) : Kept s₀ (State.linkDown s st kind k) := by
  unfold State.linkDown
  repeat' first
    | with_reducible exact hk
    | (simp +contextual (maxDischargeDepth := 60) only [kept_setF, kept_linkCause, kept_xlkIrq, kept_enterLink, kept_cutFrame, kept_expEvent, implies_true, forall_const, hk, kept_foldl]; done)
    | with_reducible refine kept_ite (fun _ => ?_) (fun _ => ?_)
    | with_reducible refine kept_foldl _ (fun s hk x => ?_) ?_
    | with_reducible dsimp only
    | (with_reducible split)

theorem kept_linkOff {s₀ s : State} (hk : Kept s₀ s) (st : Nat) : Kept s₀ (State.linkOff s st) := by
  unfold State.linkOff
  repeat' first
    | with_reducible exact hk
    | (simp +contextual (maxDischargeDepth := 60) only [kept_modExp, kept_cutFrame, kept_enterLink, hk, kept_mk]; done)
    | with_reducible refine kept_ite (fun _ => ?_) (fun _ => ?_)
    | with_reducible refine kept_foldl _ (fun s hk x => ?_) ?_
    | with_reducible dsimp only
    | (with_reducible split)

theorem kept_writeXlkEn {s₀ s : State} (hk : Kept s₀ s) (st : Nat) (en : Bool) : Kept s₀ (State.writeXlkEn s st en) := by
  unfold State.writeXlkEn
  repeat' first
    | with_reducible exact hk
    | (simp +contextual (maxDischargeDepth := 60) only [kept_linkOff, kept_setB, kept_enterLink, hk, kept_ite]; done)
    | with_reducible refine kept_ite (fun _ => ?_) (fun _ => ?_)
    | with_reducible refine kept_foldl _ (fun s hk x => ?_) ?_
    | with_reducible dsimp only
    | (with_reducible split)

theorem kept_wantSubst {s₀ s : State} (hk : Kept s₀ s) (st : Nat) (lane : Nat) : Kept s₀ (State.wantSubst s st lane) := by
  unfold State.wantSubst
  repeat' first
    | with_reducible exact hk
    | (simp +contextual (maxDischargeDepth := 60) only [kept_modExp, kept_linkDown, hk, kept_ite, kept_mk]; done)
    | with_reducible refine kept_ite (fun _ => ?_) (fun _ => ?_)
    | with_reducible refine kept_foldl _ (fun s hk x => ?_) ?_
    | with_reducible dsimp only
    | (with_reducible split)

theorem kept_tblLoad {s₀ s : State} (hk : Kept s₀ s) (st : Nat) : Kept s₀ (State.tblLoad s st) := by
  unfold State.tblLoad
  repeat' first
    | with_reducible exact hk
    | (simp +contextual (maxDischargeDepth := 60) only [kept_modExp, hk, kept_mk]; done)
    | with_reducible refine kept_ite (fun _ => ?_) (fun _ => ?_)
    | with_reducible refine kept_foldl _ (fun s hk x => ?_) ?_
    | with_reducible dsimp only
    | (with_reducible split)

theorem kept_showRecord {s₀ s : State} (hk : Kept s₀ s) (st : Nat) (r : List Byte) : Kept s₀ (State.showRecord s st r) := by
  unfold State.showRecord
  repeat' first
    | with_reducible exact hk
    | (simp +contextual (maxDischargeDepth := 60) only [kept_setF, kept_setB, kept_modExp, kept_setReg, implies_true, forall_const, hk, kept_foldl, kept_mk]; done)
    | with_reducible refine kept_ite (fun _ => ?_) (fun _ => ?_)
    | with_reducible refine kept_foldl _ (fun s hk x => ?_) ?_
    | with_reducible dsimp only
    | (with_reducible split)

theorem kept_wearOf {s₀ s : State} (hk : Kept s₀ s) (st : Nat) (r : List Byte) (e : Nat) : Kept s₀ (State.wearOf s st r e) := by
  unfold State.wearOf
  repeat' first
    | with_reducible exact hk
    | (simp +contextual (maxDischargeDepth := 60) only [kept_setNow, kept_modExp, kept_expEvent, kept_expIrq, hk, kept_ite, kept_mk]; done)
    | with_reducible refine kept_ite (fun _ => ?_) (fun _ => ?_)
    | with_reducible refine kept_foldl _ (fun s hk x => ?_) ?_
    | with_reducible dsimp only
    | (with_reducible split)

theorem kept_faultOf {s₀ s : State} (hk : Kept s₀ s) (st : Nat) (r : List Byte) (e : Nat) : Kept s₀ (State.faultOf s st r e) := by
  unfold State.faultOf
  repeat' first
    | with_reducible exact hk
    | (simp +contextual (maxDischargeDepth := 60) only [kept_setNow, kept_expIrq, hk, kept_ite]; done)
    | with_reducible refine kept_ite (fun _ => ?_) (fun _ => ?_)
    | with_reducible refine kept_foldl _ (fun s hk x => ?_) ?_
    | with_reducible dsimp only
    | (with_reducible split)

theorem kept_beamResult {s₀ s : State} (hk : Kept s₀ s) (st : Nat) (r : List Byte) : Kept s₀ (State.beamResult s st r) := by
  unfold State.beamResult
  repeat' first
    | with_reducible exact hk
    | (simp +contextual (maxDischargeDepth := 60) only [kept_setB, kept_modExp, kept_raise, kept_setReg, hk, kept_ite, kept_mk]; done)
    | with_reducible refine kept_ite (fun _ => ?_) (fun _ => ?_)
    | with_reducible refine kept_foldl _ (fun s hk x => ?_) ?_
    | with_reducible dsimp only
    | (with_reducible split)

theorem kept_laneCrc {s₀ s : State} (hk : Kept s₀ s) (st : Nat) (bad : Nat) (l : Nat) : Kept s₀ (State.laneCrc s st bad l) := by
  unfold State.laneCrc
  repeat' first
    | with_reducible exact hk
    | (simp +contextual (maxDischargeDepth := 60) only [kept_incSat, kept_take, kept_modExp, hk, kept_ite, kept_mk]; done)
    | with_reducible refine kept_ite (fun _ => ?_) (fun _ => ?_)
    | with_reducible refine kept_foldl _ (fun s hk x => ?_) ?_
    | with_reducible dsimp only
    | (with_reducible split)

theorem kept_answer {s₀ s : State} (hk : Kept s₀ s) (st : Nat) (r : List Byte) (w : SentFrame) : Kept s₀ (State.answer s st r w) := by
  unfold State.answer
  repeat' first
    | with_reducible exact hk
    | (simp +contextual (maxDischargeDepth := 60) only [kept_incSat, kept_laneCrc, kept_modExp, implies_true, forall_const, hk, kept_ite, kept_foldl, kept_mk]; done)
    | with_reducible refine kept_ite (fun _ => ?_) (fun _ => ?_)
    | with_reducible refine kept_foldl _ (fun s hk x => ?_) ?_
    | with_reducible dsimp only
    | (with_reducible split)

theorem kept_recordCauses {s₀ s : State} (hk : Kept s₀ s) (st : Nat) (r : List Byte) (faulty : Bool) : Kept s₀ (State.recordCauses s st r faulty) := by
  unfold State.recordCauses
  repeat' first
    | with_reducible exact hk
    | (simp +contextual (maxDischargeDepth := 60) only [kept_linkCause, kept_answer, hk, kept_mk]; done)
    | with_reducible refine kept_ite (fun _ => ?_) (fun _ => ?_)
    | with_reducible refine kept_foldl _ (fun s hk x => ?_) ?_
    | with_reducible dsimp only
    | (with_reducible split)

theorem kept_recordMoves {s₀ s : State} (hk : Kept s₀ s) (st : Nat) (r : List Byte) : Kept s₀ (State.recordMoves s st r) := by
  unfold State.recordMoves
  repeat' first
    | with_reducible exact hk
    | (simp +contextual (maxDischargeDepth := 60) only [kept_xlkIrq, kept_enterLink, kept_wantSubst, kept_sendOwed, kept_modExp, implies_true, forall_const, hk, kept_ite, kept_foldl, kept_mk]; done)
    | with_reducible refine kept_ite (fun _ => ?_) (fun _ => ?_)
    | with_reducible refine kept_foldl _ (fun s hk x => ?_) ?_
    | with_reducible dsimp only
    | (with_reducible split)

theorem kept_recordLink {s₀ s : State} (hk : Kept s₀ s) (st : Nat) (r : List Byte) (faulty : Bool) : Kept s₀ (State.recordLink s st r faulty) := by
  unfold State.recordLink
  repeat' first
    | with_reducible exact hk
    | (simp +contextual (maxDischargeDepth := 60) only [kept_recordCauses, kept_recordMoves, hk]; done)
    | with_reducible refine kept_ite (fun _ => ?_) (fun _ => ?_)
    | with_reducible refine kept_foldl _ (fun s hk x => ?_) ?_
    | with_reducible dsimp only
    | (with_reducible split)

theorem kept_expSafe {s₀ s : State} (hk : Kept s₀ s)  : Kept s₀ (State.expSafe s) := by
  unfold State.expSafe
  repeat' first
    | with_reducible exact hk
    | (simp +contextual (maxDischargeDepth := 60) only [kept_modExp, kept_blankStation, implies_true, forall_const, hk, kept_ite, kept_foldl, kept_mk]; done)
    | with_reducible refine kept_ite (fun _ => ?_) (fun _ => ?_)
    | with_reducible refine kept_foldl _ (fun s hk x => ?_) ?_
    | with_reducible dsimp only
    | (with_reducible split)

theorem kept_expReset {s₀ s : State} (hk : Kept s₀ s) (st : Nat) : Kept s₀ (State.expReset s st) := by
  unfold State.expReset
  repeat' first
    | with_reducible exact hk
    | (simp +contextual (maxDischargeDepth := 60) only [kept_updateCredit, kept_setReleased, kept_modExp, hk, kept_mk]; done)
    | with_reducible refine kept_ite (fun _ => ?_) (fun _ => ?_)
    | with_reducible refine kept_foldl _ (fun s hk x => ?_) ?_
    | with_reducible dsimp only
    | (with_reducible split)

end Sys2Proof.Machine
end

