-- ==== Sys2Proof/Laws/KeptFoc.lean ====
section
/-! SUPPORT. What the operations of Machine/Foc.lean keep of a state. -/

namespace Sys2Proof.Machine

theorem kept_modCh {s₀ s : State} (hk : Kept s₀ s) (c : Nat) (g : FocCh → FocCh) : Kept s₀ (State.modCh s c g) := by
  unfold State.modCh
  repeat' first
    | with_reducible exact hk
    | (simp +contextual (maxDischargeDepth := 60) only [hk, kept_mk]; done)
    | with_reducible refine kept_ite (fun _ => ?_) (fun _ => ?_)
    | with_reducible refine kept_foldl _ (fun s hk x => ?_) ?_
    | with_reducible dsimp only
    | (with_reducible split)

theorem kept_modBus {s₀ s : State} (hk : Kept s₀ s) (b : Nat) (g : FocBus → FocBus) : Kept s₀ (State.modBus s b g) := by
  unfold State.modBus
  repeat' first
    | with_reducible exact hk
    | (simp +contextual (maxDischargeDepth := 60) only [hk, kept_mk]; done)
    | with_reducible refine kept_ite (fun _ => ?_) (fun _ => ?_)
    | with_reducible refine kept_foldl _ (fun s hk x => ?_) ?_
    | with_reducible dsimp only
    | (with_reducible split)

theorem kept_focIrq {s₀ s : State} (hk : Kept s₀ s) (c : Nat) (i : Nat) : Kept s₀ (State.focIrq s c i) := by
  unfold State.focIrq
  repeat' first
    | with_reducible exact hk
    | (simp +contextual (maxDischargeDepth := 60) only [kept_setB, hk]; done)
    | with_reducible refine kept_ite (fun _ => ?_) (fun _ => ?_)
    | with_reducible refine kept_foldl _ (fun s hk x => ?_) ?_
    | with_reducible dsimp only
    | (with_reducible split)

theorem kept_enterFoc {s₀ s : State} (hk : Kept s₀ s) (c : Nat) (n : Nat) : Kept s₀ (State.enterFoc s c n) := by
  unfold State.enterFoc
  have hk2 := hk
  repeat' first
    | with_reducible exact hk
    | with_reducible exact hk2
    | (simp +contextual (maxDischargeDepth := 60) only [kept_modCh, kept_setB, kept_setF, kept_focIrq, kept_takeFresh, hk, hk2, kept_ite, kept_mk]; done)
    | with_reducible refine kept_ite (fun _ => ?_) (fun _ => ?_)
    | with_reducible refine kept_foldl _ (fun s hk x => ?_) ?_
    | with_reducible dsimp only
    | (with_reducible split) <;> first | (have hk2 : Kept s₀ _ := kept_pair ‹(_ : _ × State) = (_, _)› (by simp +contextual (maxDischargeDepth := 60) only [kept_modCh, kept_setB, kept_setF, kept_focIrq, kept_takeFresh, hk, hk2, kept_ite, kept_mk]; done)) | skip

theorem kept_axisFault {s₀ s : State} (hk : Kept s₀ s) (axis : Nat) : Kept s₀ (State.axisFault s axis) := by
  unfold State.axisFault
  repeat' first
    | with_reducible exact hk
    | (simp +contextual (maxDischargeDepth := 60) only [kept_causeWhere, hk]; done)
    | with_reducible refine kept_ite (fun _ => ?_) (fun _ => ?_)
    | with_reducible refine kept_foldl _ (fun s hk x => ?_) ?_
    | with_reducible dsimp only
    | (with_reducible split)

theorem kept_axisFaultBy {s₀ s : State} (hk : Kept s₀ s) (h : Option Nat) (axis : Nat) : Kept s₀ (State.axisFaultBy s h axis) := by
  unfold State.axisFaultBy
  repeat' first
    | with_reducible exact hk
    | (simp +contextual (maxDischargeDepth := 60) only [kept_causeH, kept_axisFault, hk, kept_ite, kept_mk]; done)
    | with_reducible refine kept_ite (fun _ => ?_) (fun _ => ?_)
    | with_reducible refine kept_foldl _ (fun s hk x => ?_) ?_
    | with_reducible dsimp only
    | (with_reducible split)

theorem kept_focFault {s₀ s : State} (hk : Kept s₀ s) (c : Nat) (code : Nat) : Kept s₀ (State.focFault s c code) := by
  unfold State.focFault
  repeat' first
    | with_reducible exact hk
    | (simp +contextual (maxDischargeDepth := 60) only [kept_enterFoc, kept_focIrq, kept_axisFault, kept_setF, hk]; done)
    | with_reducible refine kept_ite (fun _ => ?_) (fun _ => ?_)
    | with_reducible refine kept_foldl _ (fun s hk x => ?_) ?_
    | with_reducible dsimp only
    | (with_reducible split)

theorem kept_focRefuse {s₀ s : State} (hk : Kept s₀ s) (c : Nat) (reason : Nat) (by' : Option Nat) : Kept s₀ (State.focRefuse s c reason by') := by
  unfold State.focRefuse
  repeat' first
    | with_reducible exact hk
    | (simp +contextual (maxDischargeDepth := 60) only [kept_focIrq, kept_raise, kept_axisFaultBy, kept_setF, hk]; done)
    | with_reducible refine kept_ite (fun _ => ?_) (fun _ => ?_)
    | with_reducible refine kept_foldl _ (fun s hk x => ?_) ?_
    | with_reducible dsimp only
    | (with_reducible split)

theorem kept_beginCatch {s₀ s : State} (hk : Kept s₀ s) (c : Nat) : Kept s₀ (State.beginCatch s c) := by
  unfold State.beginCatch
  repeat' first
    | with_reducible exact hk
    | (simp +contextual (maxDischargeDepth := 60) only [kept_enterFoc, kept_modCh, hk, kept_mk]; done)
    | with_reducible refine kept_ite (fun _ => ?_) (fun _ => ?_)
    | with_reducible refine kept_foldl _ (fun s hk x => ?_) ?_
    | with_reducible dsimp only
    | (with_reducible split)

theorem kept_latchStart {s₀ s : State} (hk : Kept s₀ s) (c : Nat) (q : FocReq) : Kept s₀ (State.latchStart s c q) := by
  unfold State.latchStart
  repeat' first
    | with_reducible exact hk
    | (simp +contextual (maxDischargeDepth := 60) only [kept_modCh, kept_enterFoc, kept_beginCatch, kept_setB, kept_focRefuse, kept_setF, hk, kept_ite, kept_mk]; done)
    | with_reducible refine kept_ite (fun _ => ?_) (fun _ => ?_)
    | with_reducible refine kept_foldl _ (fun s hk x => ?_) ?_
    | with_reducible dsimp only
    | (with_reducible split)

theorem kept_enterStopping {s₀ s : State} (hk : Kept s₀ s) (c : Nat) : Kept s₀ (State.enterStopping s c) := by
  unfold State.enterStopping
  repeat' first
    | with_reducible exact hk
    | (simp +contextual (maxDischargeDepth := 60) only [kept_modCh, kept_enterFoc, hk, kept_ite, kept_mk]; done)
    | with_reducible refine kept_ite (fun _ => ?_) (fun _ => ?_)
    | with_reducible refine kept_foldl _ (fun s hk x => ?_) ?_
    | with_reducible dsimp only
    | (with_reducible split)

theorem kept_latchStop {s₀ s : State} (hk : Kept s₀ s) (c : Nat) : Kept s₀ (State.latchStop s c) := by
  unfold State.latchStop
  repeat' first
    | with_reducible exact hk
    | (simp +contextual (maxDischargeDepth := 60) only [kept_enterStopping, kept_enterFoc, hk, kept_ite]; done)
    | with_reducible refine kept_ite (fun _ => ?_) (fun _ => ?_)
    | with_reducible refine kept_foldl _ (fun s hk x => ?_) ?_
    | with_reducible dsimp only
    | (with_reducible split)

theorem kept_latchRefs {s₀ s : State} (hk : Kept s₀ s) (c : Nat) : Kept s₀ (State.latchRefs s c) := by
  unfold State.latchRefs
  repeat' first
    | with_reducible exact hk
    | (simp +contextual (maxDischargeDepth := 60) only [kept_applyAll, kept_modCh, kept_focRefuse, kept_setF, hk, kept_ite, kept_mk]; done)
    | with_reducible refine kept_ite (fun _ => ?_) (fun _ => ?_)
    | with_reducible refine kept_foldl _ (fun s hk x => ?_) ?_
    | with_reducible dsimp only
    | (with_reducible split)

theorem kept_focShared {s₀ s : State} (hk : Kept s₀ s) (c : Nat) (before : Option Int) (by' : List Nat) : Kept s₀ (State.focShared s c before by') := by
  unfold State.focShared
  repeat' first
    | with_reducible exact hk
    | (simp +contextual (maxDischargeDepth := 60) only [kept_sharedResource, implies_true, forall_const, hk, kept_ite, kept_foldl]; done)
    | with_reducible refine kept_ite (fun _ => ?_) (fun _ => ?_)
    | with_reducible refine kept_foldl _ (fun s hk x => ?_) ?_
    | with_reducible dsimp only
    | (with_reducible split)

theorem kept_latchCmds {s₀ s : State} (hk : Kept s₀ s) (c : Nat) : Kept s₀ (State.latchCmds s c) := by
  unfold State.latchCmds
  repeat' first
    | with_reducible exact hk
    | (simp +contextual (maxDischargeDepth := 60) only [kept_latchStart, kept_modCh, kept_latchRefs, kept_beginCatch, kept_focRefuse, kept_latchStop, hk, kept_ite, kept_mk]; done)
    | with_reducible refine kept_ite (fun _ => ?_) (fun _ => ?_)
    | with_reducible refine kept_foldl _ (fun s hk x => ?_) ?_
    | with_reducible dsimp only
    | (with_reducible split)

theorem kept_latchCh {s₀ s : State} (hk : Kept s₀ s) (c : Nat) : Kept s₀ (State.latchCh s c) := by
  unfold State.latchCh
  repeat' first
    | with_reducible exact hk
    | (simp +contextual (maxDischargeDepth := 60) only [kept_latchCmds, kept_focShared, hk, kept_mkFilter]; done)
    | with_reducible refine kept_ite (fun _ => ?_) (fun _ => ?_)
    | with_reducible refine kept_foldl _ (fun s hk x => ?_) ?_
    | with_reducible dsimp only
    | (with_reducible split)

theorem kept_estimate {s₀ s : State} (hk : Kept s₀ s) (c : Nat) (theta : Nat) (omega : Int) : Kept s₀ (State.estimate s c theta omega) := by
  unfold State.estimate
  repeat' first
    | with_reducible exact hk
    | (simp +contextual (maxDischargeDepth := 60) only [kept_modCh, kept_setB, kept_setF, kept_setReg, hk, kept_ite, kept_mk]; done)
    | with_reducible refine kept_ite (fun _ => ?_) (fun _ => ?_)
    | with_reducible refine kept_foldl _ (fun s hk x => ?_) ?_
    | with_reducible dsimp only
    | (with_reducible split)

theorem kept_measure {s₀ s : State} (hk : Kept s₀ s) (c : Nat) (iu : Int) (iv : Int) : Kept s₀ (State.measure s c iu iv) := by
  unfold State.measure
  repeat' first
    | with_reducible exact hk
    | (simp +contextual (maxDischargeDepth := 60) only [kept_setReg, hk]; done)
    | with_reducible refine kept_ite (fun _ => ?_) (fun _ => ?_)
    | with_reducible refine kept_foldl _ (fun s hk x => ?_) ?_
    | with_reducible dsimp only
    | (with_reducible split)

theorem kept_runLoop {s₀ s : State} (hk : Kept s₀ s) (c : Nat) (iu : Int) (iv : Int) : Kept s₀ (State.runLoop s c iu iv) := by
  unfold State.runLoop
  repeat' first
    | with_reducible exact hk
    | (simp +contextual (maxDischargeDepth := 60) only [kept_modCh, kept_incSat, kept_hold, kept_setF, hk, kept_ite, kept_mk]; done)
    | with_reducible refine kept_ite (fun _ => ?_) (fun _ => ?_)
    | with_reducible refine kept_foldl _ (fun s hk x => ?_) ?_
    | with_reducible dsimp only
    | (with_reducible split)

theorem kept_switchPeriod {s₀ s : State} (hk : Kept s₀ s) (c : Nat) : Kept s₀ (State.switchPeriod s c) := by
  unfold State.switchPeriod
  repeat' first
    | with_reducible exact hk
    | (simp +contextual (maxDischargeDepth := 60) only [kept_modCh, hk, kept_mk]; done)
    | with_reducible refine kept_ite (fun _ => ?_) (fun _ => ?_)
    | with_reducible refine kept_foldl _ (fun s hk x => ?_) ?_
    | with_reducible dsimp only
    | (with_reducible split)

theorem kept_catchPeriod {s₀ s : State} (hk : Kept s₀ s) (c : Nat) (iu : Int) (iv : Int) : Kept s₀ (State.catchPeriod s c iu iv) := by
  unfold State.catchPeriod
  repeat' first
    | with_reducible exact hk
    | (simp +contextual (maxDischargeDepth := 60) only [kept_modCh, hk, kept_ite, kept_mk]; done)
    | with_reducible refine kept_ite (fun _ => ?_) (fun _ => ?_)
    | with_reducible refine kept_foldl _ (fun s hk x => ?_) ?_
    | with_reducible dsimp only
    | (with_reducible split)

theorem kept_runRamp {s₀ s : State} (hk : Kept s₀ s) (c : Nat) : Kept s₀ (State.runRamp s c) := by
  unfold State.runRamp
  repeat' first
    | with_reducible exact hk
    | (simp +contextual (maxDischargeDepth := 60) only [kept_modCh, hk, kept_ite, kept_mk]; done)
    | with_reducible refine kept_ite (fun _ => ?_) (fun _ => ?_)
    | with_reducible refine kept_foldl _ (fun s hk x => ?_) ?_
    | with_reducible dsimp only
    | (with_reducible split)

theorem kept_attemptFails {s₀ s : State} (hk : Kept s₀ s) (c : Nat) : Kept s₀ (State.attemptFails s c) := by
  unfold State.attemptFails
  repeat' first
    | with_reducible exact hk
    | (simp +contextual (maxDischargeDepth := 60) only [kept_raise, kept_incSat, kept_enterFoc, kept_focFault, hk, kept_ite]; done)
    | with_reducible refine kept_ite (fun _ => ?_) (fun _ => ?_)
    | with_reducible refine kept_foldl _ (fun s hk x => ?_) ?_
    | with_reducible dsimp only
    | (with_reducible split)

theorem kept_catchDone {s₀ s : State} (hk : Kept s₀ s) (c : Nat) : Kept s₀ (State.catchDone s c) := by
  unfold State.catchDone
  repeat' first
    | with_reducible exact hk
    | (simp +contextual (maxDischargeDepth := 60) only [kept_modCh, kept_enterFoc, kept_focRefuse, hk, kept_ite, kept_mk]; done)
    | with_reducible refine kept_ite (fun _ => ?_) (fun _ => ?_)
    | with_reducible refine kept_foldl _ (fun s hk x => ?_) ?_
    | with_reducible dsimp only
    | (with_reducible split)

theorem kept_advanceCh {s₀ s : State} (hk : Kept s₀ s) (c : Nat) (err : Nat) : Kept s₀ (State.advanceCh s c err) := by
  unfold State.advanceCh
  repeat' first
    | with_reducible exact hk
    | (simp +contextual (maxDischargeDepth := 60) only [kept_modCh, kept_enterFoc, kept_attemptFails, kept_focFault, kept_catchDone, hk, kept_ite, kept_mk]; done)
    | with_reducible refine kept_ite (fun _ => ?_) (fun _ => ?_)
    | with_reducible refine kept_foldl _ (fun s hk x => ?_) ?_
    | with_reducible dsimp only
    | (with_reducible split)

theorem kept_focStart {s₀ s : State} (hk : Kept s₀ s) (c : Nat) (q : FocReq) : Kept s₀ (State.focStart s c q) := by
  unfold State.focStart
  repeat' first
    | with_reducible exact hk
    | (simp +contextual (maxDischargeDepth := 60) only [kept_modCh, hk, kept_mk]; done)
    | with_reducible refine kept_ite (fun _ => ?_) (fun _ => ?_)
    | with_reducible refine kept_foldl _ (fun s hk x => ?_) ?_
    | with_reducible dsimp only
    | (with_reducible split)

theorem kept_focStop {s₀ s : State} (hk : Kept s₀ s) (c : Nat) (q : FocReq) : Kept s₀ (State.focStop s c q) := by
  unfold State.focStop
  repeat' first
    | with_reducible exact hk
    | (simp +contextual (maxDischargeDepth := 60) only [kept_modCh, hk, kept_mk]; done)
    | with_reducible refine kept_ite (fun _ => ?_) (fun _ => ?_)
    | with_reducible refine kept_foldl _ (fun s hk x => ?_) ?_
    | with_reducible dsimp only
    | (with_reducible split)

theorem kept_focCoast {s₀ s : State} (hk : Kept s₀ s) (c : Nat) : Kept s₀ (State.focCoast s c) := by
  unfold State.focCoast
  repeat' first
    | with_reducible exact hk
    | (simp +contextual (maxDischargeDepth := 60) only [kept_enterFoc, hk, kept_ite]; done)
    | with_reducible refine kept_ite (fun _ => ?_) (fun _ => ?_)
    | with_reducible refine kept_foldl _ (fun s hk x => ?_) ?_
    | with_reducible dsimp only
    | (with_reducible split)

theorem kept_focClear {s₀ s : State} (hk : Kept s₀ s) (c : Nat) : Kept s₀ (State.focClear s c) := by
  unfold State.focClear
  repeat' first
    | with_reducible exact hk
    | (simp +contextual (maxDischargeDepth := 60) only [kept_enterFoc, kept_focRefuse, kept_setF, hk, kept_ite]; done)
    | with_reducible refine kept_ite (fun _ => ?_) (fun _ => ?_)
    | with_reducible refine kept_foldl _ (fun s hk x => ?_) ?_
    | with_reducible dsimp only
    | (with_reducible split)

theorem kept_ttCoast {s₀ s : State} (hk : Kept s₀ s) (c : Nat) (q : FocReq) : Kept s₀ (State.ttCoast s c q) := by
  unfold State.ttCoast
  repeat' first
    | with_reducible exact hk
    | (simp +contextual (maxDischargeDepth := 60) only [kept_focCoast, kept_focShared, hk]; done)
    | with_reducible refine kept_ite (fun _ => ?_) (fun _ => ?_)
    | with_reducible refine kept_foldl _ (fun s hk x => ?_) ?_
    | with_reducible dsimp only
    | (with_reducible split)

theorem kept_focAction {s₀ s : State} (hk : Kept s₀ s) (k : Nat) (i : Nat) (cmd : Nat) (g : State → Nat → FocReq → Armed → State) (h_g : ∀ z y0 y1 y2, Kept s₀ z → Kept s₀ (g z y0 y1 y2)) : Kept s₀ (State.focAction s k i cmd g) := by
  unfold State.focAction
  have hk5 := hk
  repeat' first
    | with_reducible exact hk
    | with_reducible exact hk5
    | (simp +contextual (maxDischargeDepth := 60) only [h_g, kept_report, kept_take, implies_true, forall_const, hk, hk5, kept_mk]; done)
    | with_reducible refine kept_ite (fun _ => ?_) (fun _ => ?_)
    | with_reducible refine kept_foldl _ (fun s hk x => ?_) ?_
    | with_reducible dsimp only
    | (with_reducible split) <;> first | (have hk5 : Kept s₀ _ := kept_skipped ‹(_ : Take) = .skipped _› (by simp +contextual (maxDischargeDepth := 60) only [h_g, kept_report, kept_take, implies_true, forall_const, hk, hk5, kept_mk]; done)) | (have hk5 : Kept s₀ _ := kept_run ‹(_ : Take) = .run _ _› (by simp +contextual (maxDischargeDepth := 60) only [h_g, kept_report, kept_take, implies_true, forall_const, hk, hk5, kept_mk]; done)) | skip

theorem kept_ttRef {s₀ s : State} (hk : Kept s₀ s) (c : Nat) (q : FocReq) (a : Nat) (v : Nat) : Kept s₀ (State.ttRef s c q a v) := by
  unfold State.ttRef
  repeat' first
    | with_reducible exact hk
    | (simp +contextual (maxDischargeDepth := 60) only [kept_modCh, kept_focRefuse, kept_hold, hk, kept_ite, kept_mk]; done)
    | with_reducible refine kept_ite (fun _ => ?_) (fun _ => ?_)
    | with_reducible refine kept_foldl _ (fun s hk x => ?_) ?_
    | with_reducible dsimp only
    | (with_reducible split)

theorem kept_focRefWrite {s₀ s : State} (hk : Kept s₀ s) (c : Nat) (a : Nat) (w : Word) : Kept s₀ (State.focRefWrite s c a w) := by
  unfold State.focRefWrite
  repeat' first
    | with_reducible exact hk
    | (simp +contextual (maxDischargeDepth := 60) only [kept_hold, hk, kept_ite]; done)
    | with_reducible refine kept_ite (fun _ => ?_) (fun _ => ?_)
    | with_reducible refine kept_foldl _ (fun s hk x => ?_) ?_
    | with_reducible dsimp only
    | (with_reducible split)

theorem kept_enterBus {s₀ s : State} (hk : Kept s₀ s) (b : Nat) (n : Nat) : Kept s₀ (State.enterBus s b n) := by
  unfold State.enterBus
  repeat' first
    | with_reducible exact hk
    | (simp +contextual (maxDischargeDepth := 60) only [kept_setB, kept_setF, hk, kept_ite]; done)
    | with_reducible refine kept_ite (fun _ => ?_) (fun _ => ?_)
    | with_reducible refine kept_foldl _ (fun s hk x => ?_) ?_
    | with_reducible dsimp only
    | (with_reducible split)

theorem kept_setBrk {s₀ s : State} (hk : Kept s₀ s) (b : Nat) (on : Bool) : Kept s₀ (State.setBrk s b on) := by
  unfold State.setBrk
  repeat' first
    | with_reducible exact hk
    | (simp +contextual (maxDischargeDepth := 60) only [kept_modBus, hk, kept_mk]; done)
    | with_reducible refine kept_ite (fun _ => ?_) (fun _ => ?_)
    | with_reducible refine kept_foldl _ (fun s hk x => ?_) ?_
    | with_reducible dsimp only
    | (with_reducible split)

theorem kept_enterZtc {s₀ s : State} (hk : Kept s₀ s) (c : Nat) : Kept s₀ (State.enterZtc s c) := by
  unfold State.enterZtc
  repeat' first
    | with_reducible exact hk
    | (simp +contextual (maxDischargeDepth := 60) only [kept_enterFoc, kept_focIrq, kept_axisFault, hk, kept_ite]; done)
    | with_reducible refine kept_ite (fun _ => ?_) (fun _ => ?_)
    | with_reducible refine kept_foldl _ (fun s hk x => ?_) ?_
    | with_reducible dsimp only
    | (with_reducible split)

theorem kept_chopFault {s₀ s : State} (hk : Kept s₀ s) (b : Nat) : Kept s₀ (State.chopFault s b) := by
  unfold State.chopFault
  repeat' first
    | with_reducible exact hk
    | (simp +contextual (maxDischargeDepth := 60) only [kept_raise, kept_enterBus, kept_incSat, kept_modBus, kept_enterZtc, implies_true, forall_const, hk, kept_foldl, kept_mk]; done)
    | with_reducible refine kept_ite (fun _ => ?_) (fun _ => ?_)
    | with_reducible refine kept_foldl _ (fun s hk x => ?_) ?_
    | with_reducible dsimp only
    | (with_reducible split)

theorem kept_limitCh {s₀ s : State} (hk : Kept s₀ s) (c : Nat) : Kept s₀ (State.limitCh s c) := by
  unfold State.limitCh
  repeat' first
    | with_reducible exact hk
    | (simp +contextual (maxDischargeDepth := 60) only [kept_axisFault, kept_incSat, kept_enterFoc, kept_focFault, kept_focIrq, hk, kept_ite]; done)
    | with_reducible refine kept_ite (fun _ => ?_) (fun _ => ?_)
    | with_reducible refine kept_foldl _ (fun s hk x => ?_) ?_
    | with_reducible dsimp only
    | (with_reducible split)

theorem kept_busLimit {s₀ s : State} (hk : Kept s₀ s) (b : Nat) : Kept s₀ (State.busLimit s b) := by
  unfold State.busLimit
  repeat' first
    | with_reducible exact hk
    | (simp +contextual (maxDischargeDepth := 60) only [kept_raise, kept_enterBus, kept_modBus, kept_setBrk, kept_limitCh, implies_true, forall_const, hk, kept_foldl, kept_mk]; done)
    | with_reducible refine kept_ite (fun _ => ?_) (fun _ => ?_)
    | with_reducible refine kept_foldl _ (fun s hk x => ?_) ?_
    | with_reducible dsimp only
    | (with_reducible split)

theorem kept_busUnder {s₀ s : State} (hk : Kept s₀ s) (b : Nat) : Kept s₀ (State.busUnder s b) := by
  unfold State.busUnder
  repeat' first
    | with_reducible exact hk
    | (simp +contextual (maxDischargeDepth := 60) only [kept_enterBus, kept_focFault, kept_modBus, kept_setBrk, implies_true, forall_const, hk, kept_ite, kept_foldl, kept_mk]; done)
    | with_reducible refine kept_ite (fun _ => ?_) (fun _ => ?_)
    | with_reducible refine kept_foldl _ (fun s hk x => ?_) ?_
    | with_reducible dsimp only
    | (with_reducible split)

theorem kept_busLadder {s₀ s : State} (hk : Kept s₀ s) (b : Nat) (v : Nat) : Kept s₀ (State.busLadder s b v) := by
  unfold State.busLadder
  repeat' first
    | with_reducible exact hk
    | (simp +contextual (maxDischargeDepth := 60) only [kept_enterBus, kept_incSat, kept_busUnder, kept_chopFault, kept_modBus, kept_busLimit, kept_setBrk, hk, kept_ite, kept_mk]; done)
    | with_reducible refine kept_ite (fun _ => ?_) (fun _ => ?_)
    | with_reducible refine kept_foldl _ (fun s hk x => ?_) ?_
    | with_reducible dsimp only
    | (with_reducible split)

theorem kept_busClear {s₀ s : State} (hk : Kept s₀ s) (b : Nat) : Kept s₀ (State.busClear s b) := by
  unfold State.busClear
  repeat' first
    | with_reducible exact hk
    | (simp +contextual (maxDischargeDepth := 60) only [kept_enterBus, kept_setBrk, hk, kept_ite]; done)
    | with_reducible refine kept_ite (fun _ => ?_) (fun _ => ?_)
    | with_reducible refine kept_foldl _ (fun s hk x => ?_) ?_
    | with_reducible dsimp only
    | (with_reducible split)

theorem kept_focTrip {s₀ s : State} (hk : Kept s₀ s) (c : Nat) (code : Nat) : Kept s₀ (State.focTrip s c code) := by
  unfold State.focTrip
  repeat' first
    | with_reducible exact hk
    | (simp +contextual (maxDischargeDepth := 60) only [kept_raise, kept_focFault, hk, kept_ite]; done)
    | with_reducible refine kept_ite (fun _ => ?_) (fun _ => ?_)
    | with_reducible refine kept_foldl _ (fun s hk x => ?_) ?_
    | with_reducible dsimp only
    | (with_reducible split)

theorem kept_busVolts {s₀ s : State} (hk : Kept s₀ s) (b : Nat) (sd : BitVec 94) : Kept s₀ (State.busVolts s b sd).2 := by
  unfold State.busVolts
  have hk2 := hk
  repeat' first
    | with_reducible exact hk
    | with_reducible exact hk2
    | (simp +contextual (maxDischargeDepth := 60) only [kept_takeFresh, hk, hk2, kept_ite]; done)
    | with_reducible refine kept_ite (fun _ => ?_) (fun _ => ?_)
    | with_reducible refine kept_foldl _ (fun s hk x => ?_) ?_
    | with_reducible dsimp only
    | (with_reducible split) <;> first | (have hk2 : Kept s₀ _ := kept_pair ‹(_ : _ × State) = (_, _)› (by simp +contextual (maxDischargeDepth := 60) only [kept_takeFresh, hk, hk2, kept_ite]; done)) | skip

theorem kept_setPinF {s₀ s : State} (hk : Kept s₀ s) (c : Nat) (f : Nat) : Kept s₀ (State.setPinF s c f) := by
  unfold State.setPinF
  repeat' first
    | with_reducible exact hk
    | (simp +contextual (maxDischargeDepth := 60) only [kept_setF, hk]; done)
    | with_reducible refine kept_ite (fun _ => ?_) (fun _ => ?_)
    | with_reducible refine kept_foldl _ (fun s hk x => ?_) ?_
    | with_reducible dsimp only
    | (with_reducible split)

theorem kept_engStatus {s₀ s : State} (hk : Kept s₀ s) (v : Nat) : Kept s₀ (State.engStatus s v) := by
  unfold State.engStatus
  repeat' first
    | with_reducible exact hk
    | (simp +contextual (maxDischargeDepth := 60) only [kept_setReg, hk]; done)
    | with_reducible refine kept_ite (fun _ => ?_) (fun _ => ?_)
    | with_reducible refine kept_foldl _ (fun s hk x => ?_) ?_
    | with_reducible dsimp only
    | (with_reducible split)

theorem kept_engCancel {s₀ s : State} (hk : Kept s₀ s)  : Kept s₀ (State.engCancel s) := by
  unfold State.engCancel
  repeat' first
    | with_reducible exact hk
    | (simp +contextual (maxDischargeDepth := 60) only [kept_engStatus, hk, kept_ite, kept_mk]; done)
    | with_reducible refine kept_ite (fun _ => ?_) (fun _ => ?_)
    | with_reducible refine kept_foldl _ (fun s hk x => ?_) ?_
    | with_reducible dsimp only
    | (with_reducible split)

theorem kept_engSubst {s₀ s : State} (hk : Kept s₀ s) (w : Word) : Kept s₀ (State.engSubst s w) := by
  unfold State.engSubst
  repeat' first
    | with_reducible exact hk
    | (simp +contextual (maxDischargeDepth := 60) only [kept_engStatus, kept_engCancel, hk, kept_ite, kept_mk]; done)
    | with_reducible refine kept_ite (fun _ => ?_) (fun _ => ?_)
    | with_reducible refine kept_foldl _ (fun s hk x => ?_) ?_
    | with_reducible dsimp only
    | (with_reducible split)

theorem kept_focSafe {s₀ s : State} (hk : Kept s₀ s)  : Kept s₀ (State.focSafe s) := by
  unfold State.focSafe
  repeat' first
    | with_reducible exact hk
    | (simp +contextual (maxDischargeDepth := 60) only [kept_enterStopping, kept_enterFoc, kept_focCoast, implies_true, forall_const, hk, kept_ite, kept_foldl, kept_mk]; done)
    | with_reducible refine kept_ite (fun _ => ?_) (fun _ => ?_)
    | with_reducible refine kept_foldl _ (fun s hk x => ?_) ?_
    | with_reducible dsimp only
    | (with_reducible split)

theorem kept_focReset {s₀ s : State} (hk : Kept s₀ s)  : Kept s₀ (State.focReset s) := by
  unfold State.focReset
  repeat' first
    | with_reducible exact hk
    | (simp +contextual (maxDischargeDepth := 60) only [kept_setReg, hk, kept_mk]; done)
    | with_reducible refine kept_ite (fun _ => ?_) (fun _ => ?_)
    | with_reducible refine kept_foldl _ (fun s hk x => ?_) ?_
    | with_reducible dsimp only
    | (with_reducible split)

end Sys2Proof.Machine
end

