-- ==== Sys2Proof/Laws/KeptStp.lean ====
section
/-! SUPPORT. What the operations of Machine/Stp.lean keep of a state. -/

namespace Sys2Proof.Machine

theorem kept_modStp {s₀ s : State} (hk : Kept s₀ s) (c : Nat) (g : StpCh → StpCh) : Kept s₀ (State.modStp s c g) := by
  unfold State.modStp
  repeat' first
    | with_reducible exact hk
    | (simp +contextual (maxDischargeDepth := 60) only [hk, kept_mk]; done)
    | with_reducible refine kept_ite (fun _ => ?_) (fun _ => ?_)
    | with_reducible refine kept_foldl _ (fun s hk x => ?_) ?_
    | with_reducible dsimp only
    | (with_reducible split)

theorem kept_modEnc {s₀ s : State} (hk : Kept s₀ s) (e : Nat) (g : StpEnc → StpEnc) : Kept s₀ (State.modEnc s e g) := by
  unfold State.modEnc
  repeat' first
    | with_reducible exact hk
    | (simp +contextual (maxDischargeDepth := 60) only [hk, kept_mk]; done)
    | with_reducible refine kept_ite (fun _ => ?_) (fun _ => ?_)
    | with_reducible refine kept_foldl _ (fun s hk x => ?_) ?_
    | with_reducible dsimp only
    | (with_reducible split)

theorem kept_stpIrq {s₀ s : State} (hk : Kept s₀ s) (c : Nat) (i : Nat) : Kept s₀ (State.stpIrq s c i) := by
  unfold State.stpIrq
  repeat' first
    | with_reducible exact hk
    | (simp +contextual (maxDischargeDepth := 60) only [kept_setB, hk]; done)
    | with_reducible refine kept_ite (fun _ => ?_) (fun _ => ?_)
    | with_reducible refine kept_foldl _ (fun s hk x => ?_) ?_
    | with_reducible dsimp only
    | (with_reducible split)

theorem kept_setPair48 {s₀ s : State} (hk : Kept s₀ s) (lo : Nat) (hi : Nat) (v : Int) : Kept s₀ (State.setPair48 s lo hi v) := by
  unfold State.setPair48
  repeat' first
    | with_reducible exact hk
    | (simp +contextual (maxDischargeDepth := 60) only [kept_setReg, hk]; done)
    | with_reducible refine kept_ite (fun _ => ?_) (fun _ => ?_)
    | with_reducible refine kept_foldl _ (fun s hk x => ?_) ?_
    | with_reducible dsimp only
    | (with_reducible split)

theorem kept_standAt {s₀ s : State} (hk : Kept s₀ s) (c : Nat) (pos : Int) : Kept s₀ (State.standAt s c pos) := by
  unfold State.standAt
  repeat' first
    | with_reducible exact hk
    | (simp +contextual (maxDischargeDepth := 60) only [kept_modStp, hk, kept_mk]; done)
    | with_reducible refine kept_ite (fun _ => ?_) (fun _ => ?_)
    | with_reducible refine kept_foldl _ (fun s hk x => ?_) ?_
    | with_reducible dsimp only
    | (with_reducible split)

theorem kept_setRem {s₀ s : State} (hk : Kept s₀ s) (c : Nat) (v : Int) : Kept s₀ (State.setRem s c v) := by
  unfold State.setRem
  repeat' first
    | with_reducible exact hk
    | (simp +contextual (maxDischargeDepth := 60) only [kept_setPair48, hk]; done)
    | with_reducible refine kept_ite (fun _ => ?_) (fun _ => ?_)
    | with_reducible refine kept_foldl _ (fun s hk x => ?_) ?_
    | with_reducible dsimp only
    | (with_reducible split)

theorem kept_targetHere {s₀ s : State} (hk : Kept s₀ s) (c : Nat) : Kept s₀ (State.targetHere s c) := by
  unfold State.targetHere
  repeat' first
    | with_reducible exact hk
    | (simp +contextual (maxDischargeDepth := 60) only [kept_setRem, kept_setNow, hk]; done)
    | with_reducible refine kept_ite (fun _ => ?_) (fun _ => ?_)
    | with_reducible refine kept_foldl _ (fun s hk x => ?_) ?_
    | with_reducible dsimp only
    | (with_reducible split)

theorem kept_enterStp {s₀ s : State} (hk : Kept s₀ s) (c : Nat) (n : Nat) : Kept s₀ (State.enterStp s c n) := by
  unfold State.enterStp
  have hk2 := hk
  repeat' first
    | with_reducible exact hk
    | with_reducible exact hk2
    | (simp +contextual (maxDischargeDepth := 60) only [kept_setF, kept_hold, kept_stpIrq, kept_takeFresh, kept_modStp, kept_setB, hk, hk2, kept_ite, kept_mk]; done)
    | with_reducible refine kept_ite (fun _ => ?_) (fun _ => ?_)
    | with_reducible refine kept_foldl _ (fun s hk x => ?_) ?_
    | with_reducible dsimp only
    | (with_reducible split) <;> first | (have hk2 : Kept s₀ _ := kept_pair ‹(_ : _ × State) = (_, _)› (by simp +contextual (maxDischargeDepth := 60) only [kept_setF, kept_hold, kept_stpIrq, kept_takeFresh, kept_modStp, kept_setB, hk, hk2, kept_ite, kept_mk]; done)) | skip

theorem kept_hardStop {s₀ s : State} (hk : Kept s₀ s) (c : Nat) (n : Nat) : Kept s₀ (State.hardStop s c n) := by
  unfold State.hardStop
  repeat' first
    | with_reducible exact hk
    | (simp +contextual (maxDischargeDepth := 60) only [kept_standAt, kept_setF, kept_hold, kept_modStp, kept_enterStp, kept_setRem, hk, kept_ite, kept_mk]; done)
    | with_reducible refine kept_ite (fun _ => ?_) (fun _ => ?_)
    | with_reducible refine kept_foldl _ (fun s hk x => ?_) ?_
    | with_reducible dsimp only
    | (with_reducible split)

theorem kept_stpFault {s₀ s : State} (hk : Kept s₀ s) (c : Nat) (code : Nat) : Kept s₀ (State.stpFault s c code) := by
  unfold State.stpFault
  repeat' first
    | with_reducible exact hk
    | (simp +contextual (maxDischargeDepth := 60) only [kept_setF, kept_axisFault, kept_hardStop, kept_stpIrq, kept_raise, hk]; done)
    | with_reducible refine kept_ite (fun _ => ?_) (fun _ => ?_)
    | with_reducible refine kept_foldl _ (fun s hk x => ?_) ?_
    | with_reducible dsimp only
    | (with_reducible split)

theorem kept_stpAccept {s₀ s : State} (hk : Kept s₀ s) (c : Nat) : Kept s₀ (State.stpAccept s c) := by
  unfold State.stpAccept
  repeat' first
    | with_reducible exact hk
    | (simp +contextual (maxDischargeDepth := 60) only [kept_setF, hk]; done)
    | with_reducible refine kept_ite (fun _ => ?_) (fun _ => ?_)
    | with_reducible refine kept_foldl _ (fun s hk x => ?_) ?_
    | with_reducible dsimp only
    | (with_reducible split)

theorem kept_stpRefuse {s₀ s : State} (hk : Kept s₀ s) (c : Nat) (reason : Nat) (by' : Option Nat) : Kept s₀ (State.stpRefuse s c reason by') := by
  unfold State.stpRefuse
  repeat' first
    | with_reducible exact hk
    | (simp +contextual (maxDischargeDepth := 60) only [kept_axisFaultBy, kept_setF, kept_stpIrq, kept_raise, hk]; done)
    | with_reducible refine kept_ite (fun _ => ?_) (fun _ => ?_)
    | with_reducible refine kept_foldl _ (fun s hk x => ?_) ?_
    | with_reducible dsimp only
    | (with_reducible split)

theorem kept_rampStop {s₀ s : State} (hk : Kept s₀ s) (c : Nat) (safe : Bool) : Kept s₀ (State.rampStop s c safe) := by
  unfold State.rampStop
  repeat' first
    | with_reducible exact hk
    | (simp +contextual (maxDischargeDepth := 60) only [kept_modStp, kept_enterStp, hk, kept_ite, kept_mk]; done)
    | with_reducible refine kept_ite (fun _ => ?_) (fun _ => ?_)
    | with_reducible refine kept_foldl _ (fun s hk x => ?_) ?_
    | with_reducible dsimp only
    | (with_reducible split)

theorem kept_limitStop {s₀ s : State} (hk : Kept s₀ s) (c : Nat) (hard : Bool) : Kept s₀ (State.limitStop s c hard) := by
  unfold State.limitStop
  repeat' first
    | with_reducible exact hk
    | (simp +contextual (maxDischargeDepth := 60) only [kept_axisFault, kept_incSat, kept_stpIrq, kept_hardStop, kept_rampStop, hk, kept_ite]; done)
    | with_reducible refine kept_ite (fun _ => ?_) (fun _ => ?_)
    | with_reducible refine kept_foldl _ (fun s hk x => ?_) ?_
    | with_reducible dsimp only
    | (with_reducible split)

theorem kept_checkLimit {s₀ s : State} (hk : Kept s₀ s) (c : Nat) (neg : Bool) : Kept s₀ (State.checkLimit s c neg) := by
  unfold State.checkLimit
  repeat' first
    | with_reducible exact hk
    | (simp +contextual (maxDischargeDepth := 60) only [kept_limitStop, hk, kept_ite]; done)
    | with_reducible refine kept_ite (fun _ => ?_) (fun _ => ?_)
    | with_reducible refine kept_foldl _ (fun s hk x => ?_) ?_
    | with_reducible dsimp only
    | (with_reducible split)

theorem kept_checkLimits {s₀ s : State} (hk : Kept s₀ s) (c : Nat) : Kept s₀ (State.checkLimits s c) := by
  unfold State.checkLimits
  repeat' first
    | with_reducible exact hk
    | (simp +contextual (maxDischargeDepth := 60) only [kept_checkLimit, hk]; done)
    | with_reducible refine kept_ite (fun _ => ?_) (fun _ => ?_)
    | with_reducible refine kept_foldl _ (fun s hk x => ?_) ?_
    | with_reducible dsimp only
    | (with_reducible split)

theorem kept_limitActivate {s₀ s : State} (hk : Kept s₀ s) (n : Nat) : Kept s₀ (State.limitActivate s n) := by
  unfold State.limitActivate
  repeat' first
    | with_reducible exact hk
    | (simp +contextual (maxDischargeDepth := 60) only [kept_checkLimit, implies_true, forall_const, hk, kept_ite, kept_foldl]; done)
    | with_reducible refine kept_ite (fun _ => ?_) (fun _ => ?_)
    | with_reducible refine kept_foldl _ (fun s hk x => ?_) ?_
    | with_reducible dsimp only
    | (with_reducible split)

theorem kept_encFault {s₀ s : State} (hk : Kept s₀ s) (e : Nat) (kind : Nat) : Kept s₀ (State.encFault s e kind) := by
  unfold State.encFault
  repeat' first
    | with_reducible exact hk
    | (simp +contextual (maxDischargeDepth := 60) only [kept_setF, kept_raise, kept_modStp, kept_setB, implies_true, forall_const, hk, kept_ite, kept_foldl, kept_mk]; done)
    | with_reducible refine kept_ite (fun _ => ?_) (fun _ => ?_)
    | with_reducible refine kept_foldl _ (fun s hk x => ?_) ?_
    | with_reducible dsimp only
    | (with_reducible split)

theorem kept_setCount {s₀ s : State} (hk : Kept s₀ s) (e : Nat) (m : Int) : Kept s₀ (State.setCount s e m) := by
  unfold State.setCount
  repeat' first
    | with_reducible exact hk
    | (simp +contextual (maxDischargeDepth := 60) only [kept_setPair48, kept_modEnc, hk, kept_ite, kept_mk]; done)
    | with_reducible refine kept_ite (fun _ => ?_) (fun _ => ?_)
    | with_reducible refine kept_foldl _ (fun s hk x => ?_) ?_
    | with_reducible dsimp only
    | (with_reducible split)

theorem kept_encSpeed {s₀ s : State} (hk : Kept s₀ s) (e : Nat) : Kept s₀ (State.encSpeed s e) := by
  unfold State.encSpeed
  repeat' first
    | with_reducible exact hk
    | (simp +contextual (maxDischargeDepth := 60) only [kept_modEnc, kept_setReg, hk, kept_ite, kept_mk]; done)
    | with_reducible refine kept_ite (fun _ => ?_) (fun _ => ?_)
    | with_reducible refine kept_foldl _ (fun s hk x => ?_) ?_
    | with_reducible dsimp only
    | (with_reducible split)

theorem kept_freezeStp {s₀ s : State} (hk : Kept s₀ s) (c : Nat) : Kept s₀ (State.freezeStp s c) := by
  unfold State.freezeStp
  repeat' first
    | with_reducible exact hk
    | (simp +contextual (maxDischargeDepth := 60) only [kept_modStp, hk, kept_mk]; done)
    | with_reducible refine kept_ite (fun _ => ?_) (fun _ => ?_)
    | with_reducible refine kept_foldl _ (fun s hk x => ?_) ?_
    | with_reducible dsimp only
    | (with_reducible split)

theorem kept_ratioChange {s₀ s : State} (hk : Kept s₀ s) (c : Nat) (m : Int) : Kept s₀ (State.ratioChange s c m) := by
  unfold State.ratioChange
  repeat' first
    | with_reducible exact hk
    | (simp +contextual (maxDischargeDepth := 60) only [kept_incSat, kept_stpIrq, kept_setReg, kept_modStp, kept_freezeStp, kept_setB, hk, kept_ite, kept_mk]; done)
    | with_reducible refine kept_ite (fun _ => ?_) (fun _ => ?_)
    | with_reducible refine kept_foldl _ (fun s hk x => ?_) ?_
    | with_reducible dsimp only
    | (with_reducible split)

theorem kept_ratioChanges {s₀ s : State} (hk : Kept s₀ s) (e : Nat) : Kept s₀ (State.ratioChanges s e) := by
  unfold State.ratioChanges
  repeat' first
    | with_reducible exact hk
    | (simp +contextual (maxDischargeDepth := 60) only [kept_ratioChange, implies_true, forall_const, hk, kept_ite, kept_foldl]; done)
    | with_reducible refine kept_ite (fun _ => ?_) (fun _ => ?_)
    | with_reducible refine kept_foldl _ (fun s hk x => ?_) ?_
    | with_reducible dsimp only
    | (with_reducible split)

theorem kept_encSample {s₀ s : State} (hk : Kept s₀ s) (e : Nat) (ab : Bool × Bool) : Kept s₀ (State.encSample s e ab) := by
  unfold State.encSample
  repeat' first
    | with_reducible exact hk
    | (simp +contextual (maxDischargeDepth := 60) only [kept_modEnc, kept_setCount, kept_ratioChanges, kept_encFault, hk, kept_ite, kept_mk]; done)
    | with_reducible refine kept_ite (fun _ => ?_) (fun _ => ?_)
    | with_reducible refine kept_foldl _ (fun s hk x => ?_) ?_
    | with_reducible dsimp only
    | (with_reducible split)

theorem kept_encIndex {s₀ s : State} (hk : Kept s₀ s) (e : Nat) : Kept s₀ (State.encIndex s e) := by
  unfold State.encIndex
  repeat' first
    | with_reducible exact hk
    | (simp +contextual (maxDischargeDepth := 60) only [kept_modEnc, kept_setReg, kept_encFault, hk, kept_ite, kept_mk]; done)
    | with_reducible refine kept_ite (fun _ => ?_) (fun _ => ?_)
    | with_reducible refine kept_foldl _ (fun s hk x => ?_) ?_
    | with_reducible dsimp only
    | (with_reducible split)

theorem kept_zSample {s₀ s : State} (hk : Kept s₀ s) (e : Nat) (v : Bool) : Kept s₀ (State.zSample s e v) := by
  unfold State.zSample
  repeat' first
    | with_reducible exact hk
    | (simp +contextual (maxDischargeDepth := 60) only [kept_modEnc, kept_encIndex, hk, kept_ite, kept_mk]; done)
    | with_reducible refine kept_ite (fun _ => ?_) (fun _ => ?_)
    | with_reducible refine kept_foldl _ (fun s hk x => ?_) ?_
    | with_reducible dsimp only
    | (with_reducible split)

theorem kept_fallBack {s₀ s : State} (hk : Kept s₀ s) (c : Nat) : Kept s₀ (State.fallBack s c) := by
  unfold State.fallBack
  repeat' first
    | with_reducible exact hk
    | (simp +contextual (maxDischargeDepth := 60) only [kept_axisFault, kept_stpIrq, kept_raise, kept_modStp, kept_enterStp, kept_encFault, implies_true, forall_const, hk, kept_ite, kept_foldl, kept_mk]; done)
    | with_reducible refine kept_ite (fun _ => ?_) (fun _ => ?_)
    | with_reducible refine kept_foldl _ (fun s hk x => ?_) ?_
    | with_reducible dsimp only
    | (with_reducible split)

theorem kept_advanceMean {s₀ s : State} (hk : Kept s₀ s) (c : Nat) (gv : Int) (gp : Int) : Kept s₀ (State.advanceMean s c gv gp) := by
  unfold State.advanceMean
  repeat' first
    | with_reducible exact hk
    | (simp +contextual (maxDischargeDepth := 60) only [kept_take, kept_modStp, hk, kept_ite, kept_mk]; done)
    | with_reducible refine kept_ite (fun _ => ?_) (fun _ => ?_)
    | with_reducible refine kept_foldl _ (fun s hk x => ?_) ?_
    | with_reducible dsimp only
    | (with_reducible split)

theorem kept_generate {s₀ s : State} (hk : Kept s₀ s) (c : Nat) : Kept s₀ (State.generate s c) := by
  unfold State.generate
  repeat' first
    | with_reducible exact hk
    | (simp +contextual (maxDischargeDepth := 60) only [kept_advanceMean, kept_modStp, hk, kept_ite, kept_mk]; done)
    | with_reducible refine kept_ite (fun _ => ?_) (fun _ => ?_)
    | with_reducible refine kept_foldl _ (fun s hk x => ?_) ?_
    | with_reducible dsimp only
    | (with_reducible split)

theorem kept_stepEdges {s₀ s : State} (hk : Kept s₀ s) (c : Nat) : Kept s₀ (State.stepEdges s c) := by
  unfold State.stepEdges
  repeat' first
    | with_reducible exact hk
    | (simp +contextual (maxDischargeDepth := 60) only [kept_modStp, hk, kept_ite, kept_mk]; done)
    | with_reducible refine kept_ite (fun _ => ?_) (fun _ => ?_)
    | with_reducible refine kept_foldl _ (fun s hk x => ?_) ?_
    | with_reducible dsimp only
    | (with_reducible split)

theorem kept_stepsDone {s₀ s : State} (hk : Kept s₀ s) (c : Nat) : Kept s₀ (State.stepsDone s c) := by
  unfold State.stepsDone
  repeat' first
    | with_reducible exact hk
    | (simp +contextual (maxDischargeDepth := 60) only [kept_setF, kept_modStp, implies_true, forall_const, hk, kept_ite, kept_foldl, kept_mk, kept_mkFilter]; done)
    | with_reducible refine kept_ite (fun _ => ?_) (fun _ => ?_)
    | with_reducible refine kept_foldl _ (fun s hk x => ?_) ?_
    | with_reducible dsimp only
    | (with_reducible split)

theorem kept_stpStep {s₀ s : State} (hk : Kept s₀ s)  : Kept s₀ (State.stpStep s) := by
  unfold State.stpStep
  repeat' first
    | with_reducible exact hk
    | (simp +contextual (maxDischargeDepth := 60) only [kept_stepsDone, implies_true, forall_const, hk, kept_ite, kept_foldl]; done)
    | with_reducible refine kept_ite (fun _ => ?_) (fun _ => ?_)
    | with_reducible refine kept_foldl _ (fun s hk x => ?_) ?_
    | with_reducible dsimp only
    | (with_reducible split)

theorem kept_windCurrent {s₀ s : State} (hk : Kept s₀ s) (sd : Option (BitVec 766)) : Kept s₀ (State.windCurrent s sd).2 := by
  unfold State.windCurrent
  have hk2 := hk
  repeat' first
    | with_reducible exact hk
    | with_reducible exact hk2
    | (simp +contextual (maxDischargeDepth := 60) only [kept_takeFresh, hk, hk2, kept_mk]; done)
    | with_reducible refine kept_ite (fun _ => ?_) (fun _ => ?_)
    | with_reducible refine kept_foldl _ (fun s hk x => ?_) ?_
    | with_reducible dsimp only
    | (with_reducible split) <;> first | (have hk2 : Kept s₀ _ := kept_pair ‹(_ : _ × State) = (_, _)› (by simp +contextual (maxDischargeDepth := 60) only [kept_takeFresh, hk, hk2, kept_mk]; done)) | skip

theorem kept_windingPwm {s₀ s : State} (hk : Kept s₀ s) (c : Nat) (p : Tick) (sd : Option (BitVec 766 × BitVec 766)) : Kept s₀ (State.windingPwm s c p sd) := by
  unfold State.windingPwm
  have hk2 := hk
  repeat' first
    | with_reducible exact hk
    | with_reducible exact hk2
    | (simp +contextual (maxDischargeDepth := 60) only [kept_modStp, kept_windCurrent, hk, hk2, kept_ite, kept_mk]; done)
    | with_reducible refine kept_ite (fun _ => ?_) (fun _ => ?_)
    | with_reducible refine kept_foldl _ (fun s hk x => ?_) ?_
    | with_reducible dsimp only
    | (with_reducible split) <;> first | (have hk2 : Kept s₀ _ := kept_pair ‹(_ : _ × State) = (_, _)› (by simp +contextual (maxDischargeDepth := 60) only [kept_modStp, kept_windCurrent, hk, hk2, kept_ite, kept_mk]; done)) | skip

theorem kept_windings {s₀ s : State} (hk : Kept s₀ s) (c : Nat) (sd : Option (BitVec 766 × BitVec 766)) : Kept s₀ (State.windings s c sd) := by
  unfold State.windings
  repeat' first
    | with_reducible exact hk
    | (simp +contextual (maxDischargeDepth := 60) only [kept_windingPwm, hk, kept_ite]; done)
    | with_reducible refine kept_ite (fun _ => ?_) (fun _ => ?_)
    | with_reducible refine kept_foldl _ (fun s hk x => ?_) ?_
    | with_reducible dsimp only
    | (with_reducible split)

theorem kept_measureAngle {s₀ s : State} (hk : Kept s₀ s) (c : Nat) (δ : Nat) : Kept s₀ (State.measureAngle s c δ) := by
  unfold State.measureAngle
  repeat' first
    | with_reducible exact hk
    | (simp +contextual (maxDischargeDepth := 60) only [kept_setF, kept_incSat, kept_stpIrq, kept_stpFault, kept_raise, kept_modStp, kept_setB, hk, kept_ite, kept_mk]; done)
    | with_reducible refine kept_ite (fun _ => ?_) (fun _ => ?_)
    | with_reducible refine kept_foldl _ (fun s hk x => ?_) ?_
    | with_reducible dsimp only
    | (with_reducible split)

theorem kept_current {s₀ s : State} (hk : Kept s₀ s) (c : Nat) (old : Int) (d : Option Nat) : Kept s₀ (State.current s c old d) := by
  unfold State.current
  have hk2 := hk
  repeat' first
    | with_reducible exact hk
    | with_reducible exact hk2
    | (simp +contextual (maxDischargeDepth := 60) only [kept_setF, kept_hold, kept_takeFresh, kept_measureAngle, hk, hk2, kept_ite, kept_mk]; done)
    | with_reducible refine kept_ite (fun _ => ?_) (fun _ => ?_)
    | with_reducible refine kept_foldl _ (fun s hk x => ?_) ?_
    | with_reducible dsimp only
    | (with_reducible split) <;> first | (have hk2 : Kept s₀ _ := kept_pair ‹(_ : _ × State) = (_, _)› (by simp +contextual (maxDischargeDepth := 60) only [kept_setF, kept_hold, kept_takeFresh, kept_measureAngle, hk, hk2, kept_ite, kept_mk]; done)) | skip

theorem kept_stpBegin {s₀ s : State} (hk : Kept s₀ s) (c : Nat) : Kept s₀ (State.stpBegin s c) := by
  unfold State.stpBegin
  repeat' first
    | with_reducible exact hk
    | (simp +contextual (maxDischargeDepth := 60) only [kept_stpAccept, kept_modStp, kept_setB, kept_enterStp, hk, kept_ite, kept_mk]; done)
    | with_reducible refine kept_ite (fun _ => ?_) (fun _ => ?_)
    | with_reducible refine kept_foldl _ (fun s hk x => ?_) ?_
    | with_reducible dsimp only
    | (with_reducible split)

theorem kept_latchCmd {s₀ s : State} (hk : Kept s₀ s) (c : Nat) (later : Bool) (cmd : Nat) (r : StpReq) : Kept s₀ (State.latchCmd s c later cmd r) := by
  unfold State.latchCmd
  repeat' first
    | with_reducible exact hk
    | (simp +contextual (maxDischargeDepth := 60) only [kept_setRem, kept_setF, kept_stpBegin, kept_stpAccept, kept_targetHere, kept_stpRefuse, kept_enterStp, kept_rampStop, hk, kept_ite, kept_mk]; done)
    | with_reducible refine kept_ite (fun _ => ?_) (fun _ => ?_)
    | with_reducible refine kept_foldl _ (fun s hk x => ?_) ?_
    | with_reducible dsimp only
    | (with_reducible split)

theorem kept_latchStp {s₀ s : State} (hk : Kept s₀ s) (c : Nat) : Kept s₀ (s.latchStp c) := by
  have hf : ∀ (l : List (Nat × StpReq)) (a : State × Bool), Kept s₀ a.1 →
      Kept s₀ (l.foldl (fun (a : State × Bool) p => (a.1.latchCmd c a.2 p.1 p.2, true)) a).1 := by
    intro l
    induction l with
    | nil => exact fun a h => h
    | cons p l ih => exact fun a h => ih (_, true) (kept_latchCmd h _ _ _ _)
  unfold State.latchStp
  exact kept_modStp (hf _ _ hk) _ _

theorem kept_stpShared {s₀ s : State} (hk : Kept s₀ s) (c : Nat) (before : Option Int) (by' : List Nat) : Kept s₀ (State.stpShared s c before by') := by
  unfold State.stpShared
  repeat' first
    | with_reducible exact hk
    | (simp +contextual (maxDischargeDepth := 60) only [kept_sharedResource, implies_true, forall_const, hk, kept_ite, kept_foldl]; done)
    | with_reducible refine kept_ite (fun _ => ?_) (fun _ => ?_)
    | with_reducible refine kept_foldl _ (fun s hk x => ?_) ?_
    | with_reducible dsimp only
    | (with_reducible split)

theorem kept_ttValues {s₀ s : State} (hk : Kept s₀ s) (c : Nat) : Kept s₀ (State.ttValues s c) := by
  unfold State.ttValues
  repeat' first
    | with_reducible exact hk
    | (simp +contextual (maxDischargeDepth := 60) only [kept_modStp, kept_setNow, hk, kept_ite, kept_mk]; done)
    | with_reducible refine kept_ite (fun _ => ?_) (fun _ => ?_)
    | with_reducible refine kept_foldl _ (fun s hk x => ?_) ?_
    | with_reducible dsimp only
    | (with_reducible split)

theorem kept_restStp {s₀ s : State} (hk : Kept s₀ s) (c : Nat) : Kept s₀ (State.restStp s c) := by
  unfold State.restStp
  repeat' first
    | with_reducible exact hk
    | (simp +contextual (maxDischargeDepth := 60) only [kept_setRem, kept_standAt, kept_stpIrq, kept_targetHere, kept_enterStp, hk, kept_ite]; done)
    | with_reducible refine kept_ite (fun _ => ?_) (fun _ => ?_)
    | with_reducible refine kept_foldl _ (fun s hk x => ?_) ?_
    | with_reducible dsimp only
    | (with_reducible split)

theorem kept_checkLag {s₀ s : State} (hk : Kept s₀ s) (c : Nat) : Kept s₀ (State.checkLag s c) := by
  unfold State.checkLag
  repeat' first
    | with_reducible exact hk
    | (simp +contextual (maxDischargeDepth := 60) only [kept_stpFault, hk, kept_ite]; done)
    | with_reducible refine kept_ite (fun _ => ?_) (fun _ => ?_)
    | with_reducible refine kept_foldl _ (fun s hk x => ?_) ?_
    | with_reducible dsimp only
    | (with_reducible split)

theorem kept_boundaryStops {s₀ s : State} (hk : Kept s₀ s) (c : Nat) (d : Option Nat) : Kept s₀ (State.boundaryStops s c d) := by
  unfold State.boundaryStops
  repeat' first
    | with_reducible exact hk
    | (simp +contextual (maxDischargeDepth := 60) only [kept_checkLag, kept_current, kept_fallBack, kept_checkLimits, kept_modStp, hk, kept_mk]; done)
    | with_reducible refine kept_ite (fun _ => ?_) (fun _ => ?_)
    | with_reducible refine kept_foldl _ (fun s hk x => ?_) ?_
    | with_reducible dsimp only
    | (with_reducible split)

theorem kept_boundaryLatch {s₀ s : State} (hk : Kept s₀ s) (c : Nat) : Kept s₀ (State.boundaryLatch s c) := by
  unfold State.boundaryLatch
  repeat' first
    | with_reducible exact hk
    | (simp +contextual (maxDischargeDepth := 60) only [kept_latchStp, kept_applyAll, kept_stpShared, kept_restStp, kept_ttValues, hk, kept_mkFilter]; done)
    | with_reducible refine kept_ite (fun _ => ?_) (fun _ => ?_)
    | with_reducible refine kept_foldl _ (fun s hk x => ?_) ?_
    | with_reducible dsimp only
    | (with_reducible split)

theorem kept_motionCh {s₀ s : State} (hk : Kept s₀ s) (c : Nat) (d : Option Nat) (sd : Option (BitVec 766 × BitVec 766)) : Kept s₀ (State.motionCh s c d sd) := by
  unfold State.motionCh
  repeat' first
    | with_reducible exact hk
    | (simp +contextual (maxDischargeDepth := 60) only [kept_boundaryLatch, kept_windings, kept_stepEdges, kept_setReg, kept_modStp, kept_generate, kept_boundaryStops, hk, kept_mk]; done)
    | with_reducible refine kept_ite (fun _ => ?_) (fun _ => ?_)
    | with_reducible refine kept_foldl _ (fun s hk x => ?_) ?_
    | with_reducible dsimp only
    | (with_reducible split)

theorem kept_stpGo {s₀ s : State} (hk : Kept s₀ s) (c : Nat) (q : StpReq) : Kept s₀ (State.stpGo s c q) := by
  unfold State.stpGo
  repeat' first
    | with_reducible exact hk
    | (simp +contextual (maxDischargeDepth := 60) only [kept_modStp, hk, kept_mk]; done)
    | with_reducible refine kept_ite (fun _ => ?_) (fun _ => ?_)
    | with_reducible refine kept_foldl _ (fun s hk x => ?_) ?_
    | with_reducible dsimp only
    | (with_reducible split)

theorem kept_stpStop {s₀ s : State} (hk : Kept s₀ s) (c : Nat) (q : StpReq) : Kept s₀ (State.stpStop s c q) := by
  unfold State.stpStop
  repeat' first
    | with_reducible exact hk
    | (simp +contextual (maxDischargeDepth := 60) only [kept_modStp, hk, kept_mk]; done)
    | with_reducible refine kept_ite (fun _ => ?_) (fun _ => ?_)
    | with_reducible refine kept_foldl _ (fun s hk x => ?_) ?_
    | with_reducible dsimp only
    | (with_reducible split)

theorem kept_stpResume {s₀ s : State} (hk : Kept s₀ s) (c : Nat) (q : StpReq) : Kept s₀ (State.stpResume s c q) := by
  unfold State.stpResume
  repeat' first
    | with_reducible exact hk
    | (simp +contextual (maxDischargeDepth := 60) only [kept_modStp, hk, kept_mk]; done)
    | with_reducible refine kept_ite (fun _ => ?_) (fun _ => ?_)
    | with_reducible refine kept_foldl _ (fun s hk x => ?_) ?_
    | with_reducible dsimp only
    | (with_reducible split)

theorem kept_stpClear {s₀ s : State} (hk : Kept s₀ s) (c : Nat) (q : StpReq) : Kept s₀ (State.stpClear s c q) := by
  unfold State.stpClear
  repeat' first
    | with_reducible exact hk
    | (simp +contextual (maxDischargeDepth := 60) only [kept_modStp, hk, kept_mk]; done)
    | with_reducible refine kept_ite (fun _ => ?_) (fun _ => ?_)
    | with_reducible refine kept_foldl _ (fun s hk x => ?_) ?_
    | with_reducible dsimp only
    | (with_reducible split)

theorem kept_stpHalt {s₀ s : State} (hk : Kept s₀ s) (c : Nat) (q : StpReq) : Kept s₀ (State.stpHalt s c q) := by
  unfold State.stpHalt
  repeat' first
    | with_reducible exact hk
    | (simp +contextual (maxDischargeDepth := 60) only [kept_stpShared, kept_hardStop, kept_modStp, hk, kept_ite, kept_mk]; done)
    | with_reducible refine kept_ite (fun _ => ?_) (fun _ => ?_)
    | with_reducible refine kept_foldl _ (fun s hk x => ?_) ?_
    | with_reducible dsimp only
    | (with_reducible split)

theorem kept_writeTarget {s₀ s : State} (hk : Kept s₀ s) (c : Nat) (v : Int) : Kept s₀ (State.writeTarget s c v) := by
  unfold State.writeTarget
  repeat' first
    | with_reducible exact hk
    | (simp +contextual (maxDischargeDepth := 60) only [kept_hold, hk]; done)
    | with_reducible refine kept_ite (fun _ => ?_) (fun _ => ?_)
    | with_reducible refine kept_foldl _ (fun s hk x => ?_) ?_
    | with_reducible dsimp only
    | (with_reducible split)

theorem kept_stpAction {s₀ s : State} (hk : Kept s₀ s) (k : Nat) (i : Nat) (cmd : Nat) (g : State → Nat → StpReq → Nat → State) (h_g : ∀ z y0 y1 y2, Kept s₀ z → Kept s₀ (g z y0 y1 y2)) : Kept s₀ (State.stpAction s k i cmd g) := by
  unfold State.stpAction
  have hk5 := hk
  repeat' first
    | with_reducible exact hk
    | with_reducible exact hk5
    | (simp +contextual (maxDischargeDepth := 60) only [h_g, kept_take, kept_report, implies_true, forall_const, hk, hk5, kept_ite, kept_mk]; done)
    | with_reducible refine kept_ite (fun _ => ?_) (fun _ => ?_)
    | with_reducible refine kept_foldl _ (fun s hk x => ?_) ?_
    | with_reducible dsimp only
    | (with_reducible split) <;> first | (have hk5 : Kept s₀ _ := kept_skipped ‹(_ : Take) = .skipped _› (by simp +contextual (maxDischargeDepth := 60) only [h_g, kept_take, kept_report, implies_true, forall_const, hk, hk5, kept_ite, kept_mk]; done)) | (have hk5 : Kept s₀ _ := kept_run ‹(_ : Take) = .run _ _› (by simp +contextual (maxDischargeDepth := 60) only [h_g, kept_take, kept_report, implies_true, forall_const, hk, hk5, kept_ite, kept_mk]; done)) | skip

theorem kept_ttTarget {s₀ s : State} (hk : Kept s₀ s) (c : Nat) (v : Int) : Kept s₀ (State.ttTarget s c v) := by
  unfold State.ttTarget
  repeat' first
    | with_reducible exact hk
    | (simp +contextual (maxDischargeDepth := 60) only [kept_writeTarget, kept_modStp, hk, kept_mk]; done)
    | with_reducible refine kept_ite (fun _ => ?_) (fun _ => ?_)
    | with_reducible refine kept_foldl _ (fun s hk x => ?_) ?_
    | with_reducible dsimp only
    | (with_reducible split)

theorem kept_gearArm {s₀ s : State} (hk : Kept s₀ s) (c : Nat) : Kept s₀ (State.gearArm s c) := by
  unfold State.gearArm
  repeat' first
    | with_reducible exact hk
    | (simp +contextual (maxDischargeDepth := 60) only [kept_setB, hk]; done)
    | with_reducible refine kept_ite (fun _ => ?_) (fun _ => ?_)
    | with_reducible refine kept_foldl _ (fun s hk x => ?_) ?_
    | with_reducible dsimp only
    | (with_reducible split)

theorem kept_gearCancel {s₀ s : State} (hk : Kept s₀ s) (c : Nat) : Kept s₀ (State.gearCancel s c) := by
  unfold State.gearCancel
  repeat' first
    | with_reducible exact hk
    | (simp +contextual (maxDischargeDepth := 60) only [kept_setB, hk]; done)
    | with_reducible refine kept_ite (fun _ => ?_) (fun _ => ?_)
    | with_reducible refine kept_foldl _ (fun s hk x => ?_) ?_
    | with_reducible dsimp only
    | (with_reducible split)

theorem kept_stpBusy {s₀ s : State} (hk : Kept s₀ s)  : Kept s₀ (State.stpBusy s) := by
  unfold State.stpBusy
  repeat' first
    | with_reducible exact hk
    | (simp +contextual (maxDischargeDepth := 60) only [kept_raise, hk]; done)
    | with_reducible refine kept_ite (fun _ => ?_) (fun _ => ?_)
    | with_reducible refine kept_foldl _ (fun s hk x => ?_) ?_
    | with_reducible dsimp only
    | (with_reducible split)

theorem kept_writePosLo {s₀ s : State} (hk : Kept s₀ s) (c : Nat) (w : Word) : Kept s₀ (State.writePosLo s c w) := by
  unfold State.writePosLo
  repeat' first
    | with_reducible exact hk
    | (simp +contextual (maxDischargeDepth := 60) only [kept_modStp, kept_stpBusy, hk, kept_ite, kept_mk]; done)
    | with_reducible refine kept_ite (fun _ => ?_) (fun _ => ?_)
    | with_reducible refine kept_foldl _ (fun s hk x => ?_) ?_
    | with_reducible dsimp only
    | (with_reducible split)

theorem kept_writePosHi {s₀ s : State} (hk : Kept s₀ s) (c : Nat) (w : Word) : Kept s₀ (State.writePosHi s c w) := by
  unfold State.writePosHi
  repeat' first
    | with_reducible exact hk
    | (simp +contextual (maxDischargeDepth := 60) only [kept_standAt, kept_modStp, kept_stpBusy, kept_setB, hk, kept_ite, kept_mk]; done)
    | with_reducible refine kept_ite (fun _ => ?_) (fun _ => ?_)
    | with_reducible refine kept_foldl _ (fun s hk x => ?_) ?_
    | with_reducible dsimp only
    | (with_reducible split)

theorem kept_writeTgtHi {s₀ s : State} (hk : Kept s₀ s) (c : Nat) (w : Word) : Kept s₀ (State.writeTgtHi s c w) := by
  unfold State.writeTgtHi
  repeat' first
    | with_reducible exact hk
    | (simp +contextual (maxDischargeDepth := 60) only [kept_hold, kept_modStp, hk, kept_mk]; done)
    | with_reducible refine kept_ite (fun _ => ?_) (fun _ => ?_)
    | with_reducible refine kept_foldl _ (fun s hk x => ?_) ?_
    | with_reducible dsimp only
    | (with_reducible split)

theorem kept_writeCntLo {s₀ s : State} (hk : Kept s₀ s) (e : Nat) (w : Word) : Kept s₀ (State.writeCntLo s e w) := by
  unfold State.writeCntLo
  repeat' first
    | with_reducible exact hk
    | (simp +contextual (maxDischargeDepth := 60) only [kept_modEnc, kept_stpBusy, hk, kept_ite, kept_mk]; done)
    | with_reducible refine kept_ite (fun _ => ?_) (fun _ => ?_)
    | with_reducible refine kept_foldl _ (fun s hk x => ?_) ?_
    | with_reducible dsimp only
    | (with_reducible split)

theorem kept_writeCntHi {s₀ s : State} (hk : Kept s₀ s) (e : Nat) (w : Word) : Kept s₀ (State.writeCntHi s e w) := by
  unfold State.writeCntHi
  repeat' first
    | with_reducible exact hk
    | (simp +contextual (maxDischargeDepth := 60) only [kept_modEnc, kept_setCount, kept_stpBusy, hk, kept_ite, kept_mk]; done)
    | with_reducible refine kept_ite (fun _ => ?_) (fun _ => ?_)
    | with_reducible refine kept_foldl _ (fun s hk x => ?_) ?_
    | with_reducible dsimp only
    | (with_reducible split)

theorem kept_stpSafe {s₀ s : State} (hk : Kept s₀ s)  : Kept s₀ (State.stpSafe s) := by
  unfold State.stpSafe
  repeat' first
    | with_reducible exact hk
    | (simp +contextual (maxDischargeDepth := 60) only [kept_hardStop, kept_modStp, kept_rampStop, implies_true, forall_const, hk, kept_ite, kept_foldl, kept_mk]; done)
    | with_reducible refine kept_ite (fun _ => ?_) (fun _ => ?_)
    | with_reducible refine kept_foldl _ (fun s hk x => ?_) ?_
    | with_reducible dsimp only
    | (with_reducible split)

theorem kept_stpReset {s₀ s : State} (hk : Kept s₀ s)  : Kept s₀ (State.stpReset s) := by
  unfold State.stpReset
  repeat' first
    | with_reducible exact hk
    | (simp +contextual (maxDischargeDepth := 60) only [kept_setReg, hk, kept_mk]; done)
    | with_reducible refine kept_ite (fun _ => ?_) (fun _ => ?_)
    | with_reducible refine kept_foldl _ (fun s hk x => ?_) ?_
    | with_reducible dsimp only
    | (with_reducible split)

end Sys2Proof.Machine
end

