-- ==== Sys2Proof/Laws/KeptHv.lean ====
section
/-! SUPPORT. What the operations of Machine/Hv.lean keep of a state. -/

namespace Sys2Proof.Machine

theorem kept_modHv {s₀ s : State} (hk : Kept s₀ s) (u : Nat) (g : HvUnit → HvUnit) : Kept s₀ (State.modHv s u g) := by
  unfold State.modHv
  repeat' first
    | with_reducible exact hk
    | (simp +contextual (maxDischargeDepth := 60) only [hk, kept_mk]; done)
    | with_reducible refine kept_ite (fun _ => ?_) (fun _ => ?_)
    | with_reducible refine kept_foldl _ (fun s hk x => ?_) ?_
    | with_reducible dsimp only
    | (with_reducible split)

theorem kept_modAc {s₀ s : State} (hk : Kept s₀ s) (g : Nat) (h : HvAc → HvAc) : Kept s₀ (State.modAc s g h) := by
  unfold State.modAc
  repeat' first
    | with_reducible exact hk
    | (simp +contextual (maxDischargeDepth := 60) only [hk, kept_mk]; done)
    | with_reducible refine kept_ite (fun _ => ?_) (fun _ => ?_)
    | with_reducible refine kept_foldl _ (fun s hk x => ?_) ?_
    | with_reducible dsimp only
    | (with_reducible split)

theorem kept_setHv {s₀ s : State} (hk : Kept s₀ s) (u : Nat) (v : Nat) : Kept s₀ (State.setHv s u v) := by
  unfold State.setHv
  repeat' first
    | with_reducible exact hk
    | (simp +contextual (maxDischargeDepth := 60) only [kept_modHv, kept_setF, hk, kept_ite, kept_mk]; done)
    | with_reducible refine kept_ite (fun _ => ?_) (fun _ => ?_)
    | with_reducible refine kept_foldl _ (fun s hk x => ?_) ?_
    | with_reducible dsimp only
    | (with_reducible split)

theorem kept_rampStepHv {s₀ s : State} (hk : Kept s₀ s) (u : Nat) : Kept s₀ (State.rampStepHv s u) := by
  unfold State.rampStepHv
  repeat' first
    | with_reducible exact hk
    | (simp +contextual (maxDischargeDepth := 60) only [kept_modHv, kept_setB, kept_setHv, hk, kept_ite, kept_mk]; done)
    | with_reducible refine kept_ite (fun _ => ?_) (fun _ => ?_)
    | with_reducible refine kept_foldl _ (fun s hk x => ?_) ?_
    | with_reducible dsimp only
    | (with_reducible split)

theorem kept_startRamp {s₀ s : State} (hk : Kept s₀ s) (u : Nat) (v1 : Nat) (n : Nat) : Kept s₀ (State.startRamp s u v1 n) := by
  unfold State.startRamp
  repeat' first
    | with_reducible exact hk
    | (simp +contextual (maxDischargeDepth := 60) only [kept_rampStepHv, kept_setB, kept_modHv, hk, kept_ite, kept_mk]; done)
    | with_reducible refine kept_ite (fun _ => ?_) (fun _ => ?_)
    | with_reducible refine kept_foldl _ (fun s hk x => ?_) ?_
    | with_reducible dsimp only
    | (with_reducible split)

theorem kept_stopRamp {s₀ s : State} (hk : Kept s₀ s) (u : Nat) : Kept s₀ (State.stopRamp s u) := by
  unfold State.stopRamp
  repeat' first
    | with_reducible exact hk
    | (simp +contextual (maxDischargeDepth := 60) only [kept_setB, kept_modHv, hk, kept_mk]; done)
    | with_reducible refine kept_ite (fun _ => ?_) (fun _ => ?_)
    | with_reducible refine kept_foldl _ (fun s hk x => ?_) ?_
    | with_reducible dsimp only
    | (with_reducible split)

theorem kept_hvRampWrite {s₀ s : State} (hk : Kept s₀ s) (u : Nat) (w : Word) : Kept s₀ (State.hvRampWrite s u w) := by
  unfold State.hvRampWrite
  repeat' first
    | with_reducible exact hk
    | (simp +contextual (maxDischargeDepth := 60) only [kept_setB, kept_setReg, kept_startRamp, hk, kept_ite]; done)
    | with_reducible refine kept_ite (fun _ => ?_) (fun _ => ?_)
    | with_reducible refine kept_foldl _ (fun s hk x => ?_) ?_
    | with_reducible dsimp only
    | (with_reducible split)

theorem kept_endStage {s₀ s : State} (hk : Kept s₀ s)  : Kept s₀ (State.endStage s) := by
  unfold State.endStage
  repeat' first
    | with_reducible exact hk
    | (simp +contextual (maxDischargeDepth := 60) only [kept_setF, kept_setB, hk, kept_ite, kept_mk]; done)
    | with_reducible refine kept_ite (fun _ => ?_) (fun _ => ?_)
    | with_reducible refine kept_foldl _ (fun s hk x => ?_) ?_
    | with_reducible dsimp only
    | (with_reducible split)

theorem kept_checkStage {s₀ s : State} (hk : Kept s₀ s)  : Kept s₀ (State.checkStage s) := by
  unfold State.checkStage
  repeat' first
    | with_reducible exact hk
    | (simp +contextual (maxDischargeDepth := 60) only [kept_endStage, hk, kept_ite]; done)
    | with_reducible refine kept_ite (fun _ => ?_) (fun _ => ?_)
    | with_reducible refine kept_foldl _ (fun s hk x => ?_) ?_
    | with_reducible dsimp only
    | (with_reducible split)

theorem kept_beginStage {s₀ s : State} (hk : Kept s₀ s) (n : Nat) : Kept s₀ (State.beginStage s n) := by
  unfold State.beginStage
  repeat' first
    | with_reducible exact hk
    | (simp +contextual (maxDischargeDepth := 60) only [kept_startRamp, kept_setF, kept_checkStage, implies_true, forall_const, hk, kept_foldl, kept_mk, kept_mkFilter]; done)
    | with_reducible refine kept_ite (fun _ => ?_) (fun _ => ?_)
    | with_reducible refine kept_foldl _ (fun s hk x => ?_) ?_
    | with_reducible dsimp only
    | (with_reducible split)

theorem kept_hvSafe {s₀ s : State} (hk : Kept s₀ s)  : Kept s₀ (State.hvSafe s) := by
  unfold State.hvSafe
  repeat' first
    | with_reducible exact hk
    | (simp +contextual (maxDischargeDepth := 60) only [kept_beginStage, kept_stopRamp, kept_setB, implies_true, forall_const, hk, kept_foldl]; done)
    | with_reducible refine kept_ite (fun _ => ?_) (fun _ => ?_)
    | with_reducible refine kept_foldl _ (fun s hk x => ?_) ?_
    | with_reducible dsimp only
    | (with_reducible split)

theorem kept_acUpdate {s₀ s : State} (hk : Kept s₀ s) (j : Nat) (g : Nat) : Kept s₀ (State.acUpdate s j g) := by
  unfold State.acUpdate
  repeat' first
    | with_reducible exact hk
    | (simp +contextual (maxDischargeDepth := 60) only [kept_applyS, kept_modAc, kept_setF, hk, kept_ite]; done)
    | with_reducible refine kept_ite (fun _ => ?_) (fun _ => ?_)
    | with_reducible refine kept_foldl _ (fun s hk x => ?_) ?_
    | with_reducible dsimp only
    | (with_reducible split)

theorem kept_hvViolation {s₀ s : State} (hk : Kept s₀ s) (r : Nat) (ts : Nat) : Kept s₀ (State.hvViolation s r ts) := by
  unfold State.hvViolation
  repeat' first
    | with_reducible exact hk
    | (simp +contextual (maxDischargeDepth := 60) only [kept_setB, kept_causeWhere, kept_incSat, kept_raise, hk, kept_ite]; done)
    | with_reducible refine kept_ite (fun _ => ?_) (fun _ => ?_)
    | with_reducible refine kept_foldl _ (fun s hk x => ?_) ?_
    | with_reducible dsimp only
    | (with_reducible split)

theorem kept_hvSample {s₀ s : State} (hk : Kept s₀ s) (r : Nat) (code : Nat) (ts : Nat) : Kept s₀ (State.hvSample s r code ts) := by
  unfold State.hvSample
  repeat' first
    | with_reducible exact hk
    | (simp +contextual (maxDischargeDepth := 60) only [kept_hvViolation, kept_setF, kept_checkStage, hk, kept_ite, kept_mk]; done)
    | with_reducible refine kept_ite (fun _ => ?_) (fun _ => ?_)
    | with_reducible refine kept_foldl _ (fun s hk x => ?_) ?_
    | with_reducible dsimp only
    | (with_reducible split)

theorem kept_hvReset {s₀ s : State} (hk : Kept s₀ s)  : Kept s₀ (State.hvReset s) := by
  unfold State.hvReset
  repeat' first
    | with_reducible exact hk
    | (simp +contextual (maxDischargeDepth := 60) only [implies_true, forall_const, hk, kept_ite, kept_foldl, kept_mk]; done)
    | with_reducible refine kept_ite (fun _ => ?_) (fun _ => ?_)
    | with_reducible refine kept_foldl _ (fun s hk x => ?_) ?_
    | with_reducible dsimp only
    | (with_reducible split)

end Sys2Proof.Machine
end

