-- ==== Sys2Proof/Laws/KeptFuser.lean ====
section
/-! SUPPORT. What the operations of Machine/Fuser.lean keep of a state. -/

namespace Sys2Proof.Machine

theorem kept_modZone {s₀ s : State} (hk : Kept s₀ s) (z : Nat) (g : FusZone → FusZone) : Kept s₀ (State.modZone s z g) := by
  unfold State.modZone
  repeat' first
    | with_reducible exact hk
    | (simp +contextual (maxDischargeDepth := 60) only [hk, kept_mk]; done)
    | with_reducible refine kept_ite (fun _ => ?_) (fun _ => ?_)
    | with_reducible refine kept_foldl _ (fun s hk x => ?_) ?_
    | with_reducible dsimp only
    | (with_reducible split)

theorem kept_fusIrq {s₀ s : State} (hk : Kept s₀ s) (i : Nat) : Kept s₀ (State.fusIrq s i) := by
  unfold State.fusIrq
  repeat' first
    | with_reducible exact hk
    | (simp +contextual (maxDischargeDepth := 60) only [kept_setB, hk]; done)
    | with_reducible refine kept_ite (fun _ => ?_) (fun _ => ?_)
    | with_reducible refine kept_foldl _ (fun s hk x => ?_) ?_
    | with_reducible dsimp only
    | (with_reducible split)

theorem kept_fuserCauses {s₀ s : State} (hk : Kept s₀ s) (p : Sheet → Option Nat) : Kept s₀ (State.fuserCauses s p) := by
  unfold State.fuserCauses
  repeat' first
    | with_reducible exact hk
    | (simp +contextual (maxDischargeDepth := 60) only [kept_cause, kept_raise, kept_fusIrq, implies_true, forall_const, hk, kept_ite, kept_foldl, kept_mk]; done)
    | with_reducible refine kept_ite (fun _ => ?_) (fun _ => ?_)
    | with_reducible refine kept_foldl _ (fun s hk x => ?_) ?_
    | with_reducible dsimp only
    | (with_reducible split)

theorem kept_leaveRun {s₀ s : State} (hk : Kept s₀ s) (z : Nat) (n : Nat) : Kept s₀ (State.leaveRun s z n) := by
  unfold State.leaveRun
  repeat' first
    | with_reducible exact hk
    | (simp +contextual (maxDischargeDepth := 60) only [kept_modZone, kept_fuserCauses, kept_setF, hk, kept_ite, kept_mk]; done)
    | with_reducible refine kept_ite (fun _ => ?_) (fun _ => ?_)
    | with_reducible refine kept_foldl _ (fun s hk x => ?_) ?_
    | with_reducible dsimp only
    | (with_reducible split)

theorem kept_zoneOn {s₀ s : State} (hk : Kept s₀ s) (z : Nat) : Kept s₀ (State.zoneOn s z) := by
  unfold State.zoneOn
  repeat' first
    | with_reducible exact hk
    | (simp +contextual (maxDischargeDepth := 60) only [kept_modZone, kept_setB, kept_setF, hk, kept_ite, kept_mk]; done)
    | with_reducible refine kept_ite (fun _ => ?_) (fun _ => ?_)
    | with_reducible refine kept_foldl _ (fun s hk x => ?_) ?_
    | with_reducible dsimp only
    | (with_reducible split)

theorem kept_zoneOff {s₀ s : State} (hk : Kept s₀ s) (z : Nat) : Kept s₀ (State.zoneOff s z) := by
  unfold State.zoneOff
  repeat' first
    | with_reducible exact hk
    | (simp +contextual (maxDischargeDepth := 60) only [kept_leaveRun, hk, kept_ite]; done)
    | with_reducible refine kept_ite (fun _ => ?_) (fun _ => ?_)
    | with_reducible refine kept_foldl _ (fun s hk x => ?_) ?_
    | with_reducible dsimp only
    | (with_reducible split)

theorem kept_zoneClear {s₀ s : State} (hk : Kept s₀ s) (z : Nat) : Kept s₀ (State.zoneClear s z) := by
  unfold State.zoneClear
  repeat' first
    | with_reducible exact hk
    | (simp +contextual (maxDischargeDepth := 60) only [kept_setF, hk, kept_ite]; done)
    | with_reducible refine kept_ite (fun _ => ?_) (fun _ => ?_)
    | with_reducible refine kept_foldl _ (fun s hk x => ?_) ?_
    | with_reducible dsimp only
    | (with_reducible split)

theorem kept_zoneControl {s₀ s : State} (hk : Kept s₀ s) (z : Nat) (temp : Int) : Kept s₀ (State.zoneControl s z temp) := by
  unfold State.zoneControl
  repeat' first
    | with_reducible exact hk
    | (simp +contextual (maxDischargeDepth := 60) only [kept_modZone, kept_setF, hk, kept_ite, kept_mk]; done)
    | with_reducible refine kept_ite (fun _ => ?_) (fun _ => ?_)
    | with_reducible refine kept_foldl _ (fun s hk x => ?_) ?_
    | with_reducible dsimp only
    | (with_reducible split)

theorem kept_zoneWindow {s₀ s : State} (hk : Kept s₀ s) (z : Nat) (temp : Int) : Kept s₀ (State.zoneWindow s z temp) := by
  unfold State.zoneWindow
  repeat' first
    | with_reducible exact hk
    | (simp +contextual (maxDischargeDepth := 60) only [kept_fuserCauses, hk, kept_ite]; done)
    | with_reducible refine kept_ite (fun _ => ?_) (fun _ => ?_)
    | with_reducible refine kept_foldl _ (fun s hk x => ?_) ?_
    | with_reducible dsimp only
    | (with_reducible split)

theorem kept_zonePeriod {s₀ s : State} (hk : Kept s₀ s) (z : Nat) : Kept s₀ (State.zonePeriod s z) := by
  unfold State.zonePeriod
  have hk2 := hk
  repeat' first
    | with_reducible exact hk
    | with_reducible exact hk2
    | (simp +contextual (maxDischargeDepth := 60) only [kept_applyAll, kept_setReg, kept_zoneControl, kept_take, kept_modZone, kept_setPair, kept_raise, kept_fusIrq, kept_leaveRun, kept_takeFresh, kept_zoneWindow, hk, hk2, kept_ite, kept_mk]; done)
    | with_reducible refine kept_ite (fun _ => ?_) (fun _ => ?_)
    | with_reducible refine kept_foldl _ (fun s hk x => ?_) ?_
    | with_reducible dsimp only
    | (with_reducible split) <;> first | (have hk2 : Kept s₀ _ := kept_pair ‹(_ : _ × State) = (_, _)› (by simp +contextual (maxDischargeDepth := 60) only [kept_applyAll, kept_setReg, kept_zoneControl, kept_take, kept_modZone, kept_setPair, kept_raise, kept_fusIrq, kept_leaveRun, kept_takeFresh, kept_zoneWindow, hk, hk2, kept_ite, kept_mk]; done)) | skip

theorem kept_readySub {s₀ s : State} (hk : Kept s₀ s)  : Kept s₀ (State.readySub s) := by
  unfold State.readySub
  repeat' first
    | with_reducible exact hk
    | (simp +contextual (maxDischargeDepth := 60) only [kept_setB, hk, kept_ite]; done)
    | with_reducible refine kept_ite (fun _ => ?_) (fun _ => ?_)
    | with_reducible refine kept_foldl _ (fun s hk x => ?_) ?_
    | with_reducible dsimp only
    | (with_reducible split)

theorem kept_placeGates {s₀ s : State} (hk : Kept s₀ s) (x : Tick) (z : Nat) : Kept s₀ (State.placeGates s x z) := by
  unfold State.placeGates
  repeat' first
    | with_reducible exact hk
    | (simp +contextual (maxDischargeDepth := 60) only [kept_modZone, hk, kept_mk, kept_mkFilter]; done)
    | with_reducible refine kept_ite (fun _ => ?_) (fun _ => ?_)
    | with_reducible refine kept_foldl _ (fun s hk x => ?_) ?_
    | with_reducible dsimp only
    | (with_reducible split)

theorem kept_cycleChanges {s₀ s : State} (hk : Kept s₀ s) (n : Nat) : Kept s₀ (State.cycleChanges s n) := by
  unfold State.cycleChanges
  repeat' first
    | with_reducible exact hk
    | (simp +contextual (maxDischargeDepth := 60) only [kept_take, hk, kept_mk]; done)
    | with_reducible refine kept_ite (fun _ => ?_) (fun _ => ?_)
    | with_reducible refine kept_foldl _ (fun s hk x => ?_) ?_
    | with_reducible dsimp only
    | (with_reducible split)

theorem kept_mainsCycle {s₀ s : State} (hk : Kept s₀ s) (x : Tick) : Kept s₀ (State.mainsCycle s x) := by
  unfold State.mainsCycle
  repeat' first
    | with_reducible exact hk
    | (simp +contextual (maxDischargeDepth := 60) only [kept_take, kept_modZone, kept_placeGates, kept_fusIrq, kept_incSat, kept_cycleChanges, implies_true, forall_const, hk, kept_ite, kept_foldl, kept_mk]; done)
    | with_reducible refine kept_ite (fun _ => ?_) (fun _ => ?_)
    | with_reducible refine kept_foldl _ (fun s hk x => ?_) ?_
    | with_reducible dsimp only
    | (with_reducible split)

theorem kept_zcLost {s₀ s : State} (hk : Kept s₀ s)  : Kept s₀ (State.zcLost s) := by
  unfold State.zcLost
  repeat' first
    | with_reducible exact hk
    | (simp +contextual (maxDischargeDepth := 60) only [kept_modZone, kept_raise, kept_fusIrq, kept_incSat, kept_setB, implies_true, forall_const, hk, kept_foldl, kept_mk]; done)
    | with_reducible refine kept_ite (fun _ => ?_) (fun _ => ?_)
    | with_reducible refine kept_foldl _ (fun s hk x => ?_) ?_
    | with_reducible dsimp only
    | (with_reducible split)

theorem kept_zcEdge {s₀ s : State} (hk : Kept s₀ s) (x : Tick) : Kept s₀ (State.zcEdge s x) := by
  unfold State.zcEdge
  repeat' first
    | with_reducible exact hk
    | (simp +contextual (maxDischargeDepth := 60) only [kept_applyAll, kept_setReg, kept_take, kept_setB, kept_cycleChanges, kept_zcLost, kept_mainsCycle, hk, kept_ite, kept_mk]; done)
    | with_reducible refine kept_ite (fun _ => ?_) (fun _ => ?_)
    | with_reducible refine kept_foldl _ (fun s hk x => ?_) ?_
    | with_reducible dsimp only
    | (with_reducible split)

theorem kept_zcSamples {s₀ s : State} (hk : Kept s₀ s) (ls : List (Bool × Nat)) : Kept s₀ (State.zcSamples s ls) := by
  unfold State.zcSamples
  repeat' first
    | with_reducible exact hk
    | (simp +contextual (maxDischargeDepth := 60) only [kept_zcEdge, implies_true, forall_const, hk, kept_ite, kept_foldl, kept_mk]; done)
    | with_reducible refine kept_ite (fun _ => ?_) (fun _ => ?_)
    | with_reducible refine kept_foldl _ (fun s hk x => ?_) ?_
    | with_reducible dsimp only
    | (with_reducible split)

theorem kept_otCut {s₀ s : State} (hk : Kept s₀ s) (z : Nat) : Kept s₀ (State.otCut s z) := by
  unfold State.otCut
  repeat' first
    | with_reducible exact hk
    | (simp +contextual (maxDischargeDepth := 60) only [kept_ldgRecord, kept_raise, kept_fusIrq, kept_setB, kept_leaveRun, kept_setF, implies_true, forall_const, hk, kept_foldl, kept_mkFilter]; done)
    | with_reducible refine kept_ite (fun _ => ?_) (fun _ => ?_)
    | with_reducible refine kept_foldl _ (fun s hk x => ?_) ?_
    | with_reducible dsimp only
    | (with_reducible split)

theorem kept_fusSafe {s₀ s : State} (hk : Kept s₀ s)  : Kept s₀ (State.fusSafe s) := by
  unfold State.fusSafe
  repeat' first
    | with_reducible exact hk
    | (simp +contextual (maxDischargeDepth := 60) only [kept_zoneOff, implies_true, forall_const, hk, kept_ite, kept_foldl]; done)
    | with_reducible refine kept_ite (fun _ => ?_) (fun _ => ?_)
    | with_reducible refine kept_foldl _ (fun s hk x => ?_) ?_
    | with_reducible dsimp only
    | (with_reducible split)

theorem kept_fusReset {s₀ s : State} (hk : Kept s₀ s)  : Kept s₀ (State.fusReset s) := by
  unfold State.fusReset
  repeat' first
    | with_reducible exact hk
    | (simp +contextual (maxDischargeDepth := 60) only [implies_true, forall_const, hk, kept_foldl, kept_mk]; done)
    | with_reducible refine kept_ite (fun _ => ?_) (fun _ => ?_)
    | with_reducible refine kept_foldl _ (fun s hk x => ?_) ?_
    | with_reducible dsimp only
    | (with_reducible split)

end Sys2Proof.Machine
end

