-- ==== Sys2Proof/Laws/KeptMedia.lean ====
section
/-! SUPPORT. What the operations of Machine/Media.lean keep of a state. -/

namespace Sys2Proof.Machine

theorem kept_matchEdge {s₀ s : State} (hk : Kept s₀ s) (n : Nat) (trail : Bool) (x : Tick) : Kept s₀ (State.matchEdge s n trail x) := by
  unfold State.matchEdge
  repeat' first
    | with_reducible exact hk
    | (simp +contextual (maxDischargeDepth := 60) only [kept_windowMissed, kept_setF, hk, kept_mk, kept_mkFilter]; done)
    | with_reducible refine kept_ite (fun _ => ?_) (fun _ => ?_)
    | with_reducible refine kept_foldl _ (fun s hk x => ?_) ?_
    | with_reducible dsimp only
    | (with_reducible split)

theorem kept_senseEdge {s₀ s : State} (hk : Kept s₀ s) (n : Nat) (lead : Bool) (x : Tick) : Kept s₀ (State.senseEdge s n lead x) := by
  unfold State.senseEdge
  repeat' first
    | with_reducible exact hk
    | (simp +contextual (maxDischargeDepth := 60) only [kept_setPair, kept_matchEdge, kept_setB, kept_incSat, kept_limitActivate, hk, kept_ite]; done)
    | with_reducible refine kept_ite (fun _ => ?_) (fun _ => ?_)
    | with_reducible refine kept_foldl _ (fun s hk x => ?_) ?_
    | with_reducible dsimp only
    | (with_reducible split)

theorem kept_senseSamples {s₀ s : State} (hk : Kept s₀ s) (n : Nat) (ls : List (Bool × Nat)) : Kept s₀ (State.senseSamples s n ls) := by
  unfold State.senseSamples
  repeat' first
    | with_reducible exact hk
    | (simp +contextual (maxDischargeDepth := 60) only [kept_senseEdge, implies_true, forall_const, hk, kept_foldl, kept_mk]; done)
    | with_reducible refine kept_ite (fun _ => ?_) (fun _ => ?_)
    | with_reducible refine kept_foldl _ (fun s hk x => ?_) ?_
    | with_reducible dsimp only
    | (with_reducible split)

theorem kept_setOut {s₀ s : State} (hk : Kept s₀ s) (n : Nat) (v : Bool) : Kept s₀ (State.setOut s n v) := by
  unfold State.setOut
  repeat' first
    | with_reducible exact hk
    | (simp +contextual (maxDischargeDepth := 60) only [kept_setB, hk, kept_ite, kept_mk]; done)
    | with_reducible refine kept_ite (fun _ => ?_) (fun _ => ?_)
    | with_reducible refine kept_foldl _ (fun s hk x => ?_) ?_
    | with_reducible dsimp only
    | (with_reducible split)

theorem kept_setPulse {s₀ s : State} (hk : Kept s₀ s) (n : Nat) (p : Option Tick) : Kept s₀ (State.setPulse s n p) := by
  unfold State.setPulse
  repeat' first
    | with_reducible exact hk
    | (simp +contextual (maxDischargeDepth := 60) only [hk, kept_mk]; done)
    | with_reducible refine kept_ite (fun _ => ?_) (fun _ => ?_)
    | with_reducible refine kept_foldl _ (fun s hk x => ?_) ?_
    | with_reducible dsimp only
    | (with_reducible split)

theorem kept_ttOut {s₀ s : State} (hk : Kept s₀ s) (n : Nat) (v : Bool) (p : Option Tick) : Kept s₀ (State.ttOut s n v p) := by
  unfold State.ttOut
  repeat' first
    | with_reducible exact hk
    | (simp +contextual (maxDischargeDepth := 60) only [kept_setOut, kept_setPulse, hk, kept_mk]; done)
    | with_reducible refine kept_ite (fun _ => ?_) (fun _ => ?_)
    | with_reducible refine kept_foldl _ (fun s hk x => ?_) ?_
    | with_reducible dsimp only
    | (with_reducible split)

theorem kept_snsOutWrite {s₀ s : State} (hk : Kept s₀ s) (high : Bool) (w : Word) : Kept s₀ (State.snsOutWrite s high w) := by
  unfold State.snsOutWrite
  repeat' first
    | with_reducible exact hk
    | (simp +contextual (maxDischargeDepth := 60) only [kept_setOut, kept_ttOut, kept_setPulse, implies_true, forall_const, hk, kept_ite, kept_foldl]; done)
    | with_reducible refine kept_ite (fun _ => ?_) (fun _ => ?_)
    | with_reducible refine kept_foldl _ (fun s hk x => ?_) ?_
    | with_reducible dsimp only
    | (with_reducible split)

theorem kept_snsSafe {s₀ s : State} (hk : Kept s₀ s)  : Kept s₀ (State.snsSafe s) := by
  unfold State.snsSafe
  repeat' first
    | with_reducible exact hk
    | (simp +contextual (maxDischargeDepth := 60) only [kept_setOut, kept_setPulse, implies_true, forall_const, hk, kept_ite, kept_foldl]; done)
    | with_reducible refine kept_ite (fun _ => ?_) (fun _ => ?_)
    | with_reducible refine kept_foldl _ (fun s hk x => ?_) ?_
    | with_reducible dsimp only
    | (with_reducible split)

theorem kept_snsReset {s₀ s : State} (hk : Kept s₀ s)  : Kept s₀ (State.snsReset s) := by
  unfold State.snsReset
  repeat' first
    | with_reducible exact hk
    | (simp +contextual (maxDischargeDepth := 60) only [hk, kept_mk]; done)
    | with_reducible refine kept_ite (fun _ => ?_) (fun _ => ?_)
    | with_reducible refine kept_foldl _ (fun s hk x => ?_) ?_
    | with_reducible dsimp only
    | (with_reducible split)

end Sys2Proof.Machine
end

