-- ==== Sys2Proof/Laws/KeptDma.lean ====
section
/-! SUPPORT. What the operations of Machine/Dma.lean keep of a state. -/

namespace Sys2Proof.Machine

theorem kept_setDmaCh {s₀ s : State} (hk : Kept s₀ s) (c : Nat) (x : DmaCh) : Kept s₀ (State.setDmaCh s c x) := by
  unfold State.setDmaCh
  repeat' first
    | with_reducible exact hk
    | (simp +contextual (maxDischargeDepth := 60) only [hk, kept_mk]; done)
    | with_reducible refine kept_ite (fun _ => ?_) (fun _ => ?_)
    | with_reducible refine kept_foldl _ (fun s hk x => ?_) ?_
    | with_reducible dsimp only
    | (with_reducible split)

theorem kept_dmaFetch {s₀ s : State} (hk : Kept s₀ s) (c : Nat) : Kept s₀ (State.dmaFetch s c) := by
  unfold State.dmaFetch
  have hk2 := hk
  repeat' first
    | with_reducible exact hk
    | with_reducible exact hk2
    | (simp +contextual (maxDischargeDepth := 60) only [kept_setDmaCh, kept_readMem, kept_setF, hk, hk2, kept_mk]; done)
    | with_reducible refine kept_ite (fun _ => ?_) (fun _ => ?_)
    | with_reducible refine kept_foldl _ (fun s hk x => ?_) ?_
    | with_reducible dsimp only
    | (with_reducible split) <;> first | (have hk2 : Kept s₀ _ := kept_pair ‹(_ : _ × State) = (_, _)› (by simp +contextual (maxDischargeDepth := 60) only [kept_setDmaCh, kept_readMem, kept_setF, hk, hk2, kept_mk]; done)) | skip

theorem kept_dmaHeadWrite {s₀ s : State} (hk : Kept s₀ s) (c : Nat) (w : Word) : Kept s₀ (State.dmaHeadWrite s c w) := by
  unfold State.dmaHeadWrite
  repeat' first
    | with_reducible exact hk
    | (simp +contextual (maxDischargeDepth := 60) only [kept_setDmaCh, kept_setF, hk, kept_ite, kept_mk]; done)
    | with_reducible refine kept_ite (fun _ => ?_) (fun _ => ?_)
    | with_reducible refine kept_foldl _ (fun s hk x => ?_) ?_
    | with_reducible dsimp only
    | (with_reducible split)

theorem kept_dmaReturn {s₀ s : State} (hk : Kept s₀ s) (c : Nat) : Kept s₀ (State.dmaReturn s c) := by
  unfold State.dmaReturn
  repeat' first
    | with_reducible exact hk
    | (simp +contextual (maxDischargeDepth := 60) only [kept_setDmaCh, kept_setF, hk, kept_mk]; done)
    | with_reducible refine kept_ite (fun _ => ?_) (fun _ => ?_)
    | with_reducible refine kept_foldl _ (fun s hk x => ?_) ?_
    | with_reducible dsimp only
    | (with_reducible split)

theorem kept_dmaSetEn {s₀ s : State} (hk : Kept s₀ s) (c : Nat) (en : Bool) : Kept s₀ (State.dmaSetEn s c en) := by
  unfold State.dmaSetEn
  repeat' first
    | with_reducible exact hk
    | (simp +contextual (maxDischargeDepth := 60) only [kept_setDmaCh, kept_setB, kept_dmaReturn, hk, kept_ite, kept_mk]; done)
    | with_reducible refine kept_ite (fun _ => ?_) (fun _ => ?_)
    | with_reducible refine kept_foldl _ (fun s hk x => ?_) ?_
    | with_reducible dsimp only
    | (with_reducible split)

theorem kept_dmaRead {s₀ s : State} (hk : Kept s₀ s) (x : DmaSide) (i : Nat) : Kept s₀ (State.dmaRead s x i).2 := by
  unfold State.dmaRead
  have hk2 := hk
  repeat' first
    | with_reducible exact hk
    | with_reducible exact hk2
    | (simp +contextual (maxDischargeDepth := 60) only [kept_readMem, kept_takeFresh, hk, hk2, kept_ite, kept_mk]; done)
    | with_reducible refine kept_ite (fun _ => ?_) (fun _ => ?_)
    | with_reducible refine kept_foldl _ (fun s hk x => ?_) ?_
    | with_reducible dsimp only
    | (with_reducible split) <;> first | (have hk2 : Kept s₀ _ := kept_pair ‹(_ : _ × State) = (_, _)› (by simp +contextual (maxDischargeDepth := 60) only [kept_readMem, kept_takeFresh, hk, hk2, kept_ite, kept_mk]; done)) | skip

theorem kept_dmaWrite {s₀ s : State} (hk : Kept s₀ s) (x : DmaSide) (i : Nat) (bs : List Byte) : Kept s₀ (State.dmaWrite s x i bs).2 := by
  unfold State.dmaWrite
  have hk2 := hk
  repeat' first
    | with_reducible exact hk
    | with_reducible exact hk2
    | (simp +contextual (maxDischargeDepth := 60) only [kept_writeMem, hk, hk2, kept_ite, kept_mk]; done)
    | with_reducible refine kept_ite (fun _ => ?_) (fun _ => ?_)
    | with_reducible refine kept_foldl _ (fun s hk x => ?_) ?_
    | with_reducible dsimp only
    | (with_reducible split) <;> first | (have hk2 : Kept s₀ _ := kept_pair ‹(_ : _ × State) = (_, _)› (by simp +contextual (maxDischargeDepth := 60) only [kept_writeMem, hk, hk2, kept_ite, kept_mk]; done)) | skip

theorem kept_dmaUnit {s₀ s : State} (hk : Kept s₀ s) (d : DmaDesc) (i : Nat) : Kept s₀ (State.dmaUnit s d i).2 := by
  unfold State.dmaUnit
  have hk2 := hk
  repeat' first
    | with_reducible exact hk
    | with_reducible exact hk2
    | (simp +contextual (maxDischargeDepth := 60) only [kept_dmaRead, kept_dmaWrite, hk, hk2, kept_ite, kept_mk]; done)
    | with_reducible refine kept_ite (fun _ => ?_) (fun _ => ?_)
    | with_reducible refine kept_foldl _ (fun s hk x => ?_) ?_
    | with_reducible dsimp only
    | (with_reducible split) <;> first | (have hk2 : Kept s₀ _ := kept_pair ‹(_ : _ × State) = (_, _)› (by simp +contextual (maxDischargeDepth := 60) only [kept_dmaRead, kept_dmaWrite, hk, hk2, kept_ite, kept_mk]; done)) | skip

theorem kept_dmaRun {s₀ s : State} (hk : Kept s₀ s) (c : Nat) (n : Nat) : Kept s₀ (State.dmaRun s c n) := by
  induction n generalizing s with
  | zero => exact hk
  | succ n ih =>
    unfold State.dmaRun
    repeat' first
      | with_reducible exact hk
      | (simp +contextual (maxDischargeDepth := 60) only [ih, kept_setDmaCh, kept_dmaUnit, hk, kept_ite, kept_mk]; done)
      | with_reducible refine kept_ite (fun _ => ?_) (fun _ => ?_)
      | with_reducible refine kept_foldl _ (fun s hk x => ?_) ?_
      | with_reducible dsimp only
      | (with_reducible split)

theorem kept_dmaBegin {s₀ s : State} (hk : Kept s₀ s) (c : Nat) : Kept s₀ (State.dmaBegin s c) := by
  unfold State.dmaBegin
  repeat' first
    | with_reducible exact hk
    | (simp +contextual (maxDischargeDepth := 60) only [kept_setDmaCh, hk, kept_mk]; done)
    | with_reducible refine kept_ite (fun _ => ?_) (fun _ => ?_)
    | with_reducible refine kept_foldl _ (fun s hk x => ?_) ?_
    | with_reducible dsimp only
    | (with_reducible split)

theorem kept_dmaExecute {s₀ s : State} (hk : Kept s₀ s) (c : Nat) (op : Nat) (n : Nat) (hostErr : Bool) : Kept s₀ (State.dmaExecute s c op n hostErr) := by
  unfold State.dmaExecute
  repeat' first
    | with_reducible exact hk
    | (simp +contextual (maxDischargeDepth := 60) only [kept_setDmaCh, kept_dmaBegin, kept_dmaRun, hk, kept_ite, kept_mk]; done)
    | with_reducible refine kept_ite (fun _ => ?_) (fun _ => ?_)
    | with_reducible refine kept_foldl _ (fun s hk x => ?_) ?_
    | with_reducible dsimp only
    | (with_reducible split)

theorem kept_dmaWriteRecord {s₀ s : State} (hk : Kept s₀ s) (c : Nat) (e : DmaExec) (status : Nat) (off : Nat) : Kept s₀ (State.dmaWriteRecord s c e status off) := by
  unfold State.dmaWriteRecord
  have hk2 := hk
  repeat' first
    | with_reducible exact hk
    | with_reducible exact hk2
    | (simp +contextual (maxDischargeDepth := 60) only [kept_setDmaCh, kept_raise, kept_takeFresh, kept_setB, kept_incSat, kept_writeMem, kept_dmaSetEn, kept_setF, hk, hk2, kept_ite, kept_mk]; done)
    | with_reducible refine kept_ite (fun _ => ?_) (fun _ => ?_)
    | with_reducible refine kept_foldl _ (fun s hk x => ?_) ?_
    | with_reducible dsimp only
    | (with_reducible split) <;> first | (have hk2 : Kept s₀ _ := kept_pair ‹(_ : _ × State) = (_, _)› (by simp +contextual (maxDischargeDepth := 60) only [kept_setDmaCh, kept_raise, kept_takeFresh, kept_setB, kept_incSat, kept_writeMem, kept_dmaSetEn, kept_setF, hk, hk2, kept_ite, kept_mk]; done)) | skip

theorem kept_dmaComplete {s₀ s : State} (hk : Kept s₀ s) (c : Nat) : Kept s₀ (State.dmaComplete s c) := by
  unfold State.dmaComplete
  repeat' first
    | with_reducible exact hk
    | (simp +contextual (maxDischargeDepth := 60) only [kept_setDmaCh, kept_dmaWriteRecord, hk, kept_ite, kept_mk]; done)
    | with_reducible refine kept_ite (fun _ => ?_) (fun _ => ?_)
    | with_reducible refine kept_foldl _ (fun s hk x => ?_) ?_
    | with_reducible dsimp only
    | (with_reducible split)

theorem kept_dmaCqTail {s₀ s : State} (hk : Kept s₀ s) (c : Nat) (w : Word) : Kept s₀ (State.dmaCqTail s c w) := by
  unfold State.dmaCqTail
  repeat' first
    | with_reducible exact hk
    | (simp +contextual (maxDischargeDepth := 60) only [kept_dmaComplete, kept_setF, hk, kept_ite]; done)
    | with_reducible refine kept_ite (fun _ => ?_) (fun _ => ?_)
    | with_reducible refine kept_foldl _ (fun s hk x => ?_) ?_
    | with_reducible dsimp only
    | (with_reducible split)

theorem kept_dmaAbort {s₀ s : State} (hk : Kept s₀ s) (c : Nat) : Kept s₀ (State.dmaAbort s c) := by
  unfold State.dmaAbort
  repeat' first
    | with_reducible exact hk
    | (simp +contextual (maxDischargeDepth := 60) only [kept_setDmaCh, kept_dmaSetEn, hk, kept_ite, kept_mk]; done)
    | with_reducible refine kept_ite (fun _ => ?_) (fun _ => ?_)
    | with_reducible refine kept_foldl _ (fun s hk x => ?_) ?_
    | with_reducible dsimp only
    | (with_reducible split)

end Sys2Proof.Machine
end

