-- ==== Sys2Proof/Laws/KeptLedger.lean ====
section
/-! SUPPORT. What the operations of Machine/Ledger.lean keep of a state. -/

namespace Sys2Proof.Machine

theorem kept_ldgPlace {s₀ s : State} (hk : Kept s₀ s) (r : LdgReq) {q : LdgReq × State} (e : s.ldgPlace r = some q) :
    Kept s₀ q.2 := by
  unfold State.ldgPlace at e
  dsimp only at e
  split at e
  · cases e
  · cases e
    exact (kept_setF hk _ _ _ _).congr rfl rfl rfl rfl rfl rfl rfl rfl

theorem kept_ldgNext {s₀ s : State} (hk : Kept s₀ s)  : Kept s₀ (State.ldgNext s) := by
  unfold State.ldgNext
  repeat' first
    | with_reducible exact hk
    | (simp +contextual (maxDischargeDepth := 60) only [hk, kept_mk]; done)
    | with_reducible refine kept_ite (fun _ => ?_) (fun _ => ?_)
    | with_reducible refine kept_foldl _ (fun s hk x => ?_) ?_
    | with_reducible dsimp only
    | (with_reducible split)

theorem kept_ldgEvent {s₀ s : State} (hk : Kept s₀ s) (e : Nat) : Kept s₀ (State.ldgEvent s e) := by
  unfold State.ldgEvent
  repeat' first
    | with_reducible exact hk
    | (simp +contextual (maxDischargeDepth := 60) only [kept_setB, kept_raise, hk]; done)
    | with_reducible refine kept_ite (fun _ => ?_) (fun _ => ?_)
    | with_reducible refine kept_foldl _ (fun s hk x => ?_) ?_
    | with_reducible dsimp only
    | (with_reducible split)

theorem kept_ldgRetire {s₀ s : State} (hk : Kept s₀ s) (l : Nat) : Kept s₀ (State.ldgRetire s l) := by
  unfold State.ldgRetire
  have hk2 := hk
  repeat' first
    | with_reducible exact hk
    | with_reducible exact hk2
    | (simp +contextual (maxDischargeDepth := 60) only [kept_ldgEvent, kept_setB, kept_ldgRecord, kept_setF, kept_takeFresh, hk, hk2, kept_ite, kept_mk]; done)
    | with_reducible refine kept_ite (fun _ => ?_) (fun _ => ?_)
    | with_reducible refine kept_foldl _ (fun s hk x => ?_) ?_
    | with_reducible dsimp only
    | (with_reducible split) <;> first | (have hk2 : Kept s₀ _ := kept_pair ‹(_ : _ × State) = (_, _)› (by simp +contextual (maxDischargeDepth := 60) only [kept_ldgEvent, kept_setB, kept_ldgRecord, kept_setF, kept_takeFresh, hk, hk2, kept_ite, kept_mk]; done)) | skip

theorem kept_ldgVerify {s₀ s : State} (hk : Kept s₀ s) (l : Nat) (first : Bool) (second : Bool) : Kept s₀ (State.ldgVerify s l first second) := by
  unfold State.ldgVerify
  repeat' first
    | with_reducible exact hk
    | (simp +contextual (maxDischargeDepth := 60) only [kept_ldgWrote, kept_ldgEvent, kept_ldgRetire, hk, kept_ite]; done)
    | with_reducible refine kept_ite (fun _ => ?_) (fun _ => ?_)
    | with_reducible refine kept_foldl _ (fun s hk x => ?_) ?_
    | with_reducible dsimp only
    | (with_reducible split)

theorem kept_foldEnded {s₀ s : State} (hk : Kept s₀ s) (kind : Nat) : Kept s₀ (State.foldEnded s kind) := by
  unfold State.foldEnded
  repeat' first
    | with_reducible exact hk
    | (simp +contextual (maxDischargeDepth := 60) only [kept_setStep, hk, kept_ite, kept_mk]; done)
    | with_reducible refine kept_ite (fun _ => ?_) (fun _ => ?_)
    | with_reducible refine kept_foldl _ (fun s hk x => ?_) ?_
    | with_reducible dsimp only
    | (with_reducible split)

theorem kept_ldgEnded {s₀ s : State} (hk : Kept s₀ s) (r : LdgReq) : Kept s₀ (State.ldgEnded s r) := by
  unfold State.ldgEnded
  repeat' first
    | with_reducible exact hk
    | (simp +contextual (maxDischargeDepth := 60) only [kept_setF, kept_foldEnded, hk, kept_ite, kept_mk]; done)
    | with_reducible refine kept_ite (fun _ => ?_) (fun _ => ?_)
    | with_reducible refine kept_foldl _ (fun s hk x => ?_) ?_
    | with_reducible dsimp only
    | (with_reducible split)

theorem kept_ldgMoved {s₀ s : State} (hk : Kept s₀ s) (l : Nat) : Kept s₀ (State.ldgMoved s l) := by
  unfold State.ldgMoved
  have hk2 := hk
  repeat' first
    | with_reducible exact hk
    | with_reducible exact hk2
    | (simp +contextual (maxDischargeDepth := 60) only [kept_incSat, kept_takeFresh, hk, hk2, kept_ite, kept_mk]; done)
    | with_reducible refine kept_ite (fun _ => ?_) (fun _ => ?_)
    | with_reducible refine kept_foldl _ (fun s hk x => ?_) ?_
    | with_reducible dsimp only
    | (with_reducible split) <;> first | (have hk2 : Kept s₀ _ := kept_pair ‹(_ : _ × State) = (_, _)› (by simp +contextual (maxDischargeDepth := 60) only [kept_incSat, kept_takeFresh, hk, hk2, kept_ite, kept_mk]; done)) | skip

theorem kept_ldgNoRoom {s₀ s : State} (hk : Kept s₀ s) (r : LdgReq) : Kept s₀ (State.ldgNoRoom s r) := by
  unfold State.ldgNoRoom
  repeat' first
    | with_reducible exact hk
    | (simp +contextual (maxDischargeDepth := 60) only [kept_ldgLost, kept_setB, hk, kept_ite]; done)
    | with_reducible refine kept_ite (fun _ => ?_) (fun _ => ?_)
    | with_reducible refine kept_foldl _ (fun s hk x => ?_) ?_
    | with_reducible dsimp only
    | (with_reducible split)

theorem kept_ldgUnit {s₀ s : State} (hk : Kept s₀ s) (first second : Bool) : Kept s₀ (s.ldgUnit first second) := by
  unfold State.ldgUnit
  split
  · exact hk
  · refine kept_ite (fun _ => kept_ldgNext ?_) (fun _ => kept_ite (fun _ => ?_) (fun _ => ?_))
    · exact kept_ite (fun _ => hk) (fun _ => kept_ite (fun _ => kept_foldEnded hk _)
        (fun _ => kept_ite (fun _ => kept_setF hk _ _ _ _) (fun _ => kept_ldgLost hk)))
    · exact kept_ite (fun _ => kept_ldgNext (kept_mk hk rfl rfl rfl rfl)) (fun _ => kept_ldgNext (kept_ldgMoved hk _))
    · dsimp only
      split
      · exact kept_ldgNext (kept_ldgNoRoom hk _)
      · rename_i r s' he
        have h2 : Kept s₀ s' := by
          split at he
          · cases he; exact hk
          · exact kept_ldgPlace hk _ he
        have h3 := kept_ldgVerify (kept_storeBytes h2 (unitAddr (kindRegion r.kind) ((r.base.getD 0 + r.done) %
          (if (ldgRegion (kindRegion r.kind)).ring then (ldgRegion (kindRegion r.kind)).units else
            (ldgRegion (kindRegion r.kind)).units + 1))) ((r.bytes.drop (32 * r.done)).take 32))
        exact kept_ite (fun _ => kept_ldgNext (kept_mk (h3 _ _ _) rfl rfl rfl rfl))
          (fun _ => kept_ldgNext (kept_ldgEnded (h3 _ _ _) _))

theorem kept_ldgMarks {s₀ s : State} (hk : Kept s₀ s) (n : Nat) : Kept s₀ (State.ldgMarks s n) := by
  induction n generalizing s with
  | zero => exact hk
  | succ n ih =>
    unfold State.ldgMarks
    repeat' first
      | with_reducible exact hk
      | (simp +contextual (maxDischargeDepth := 60) only [ih, kept_ldgUnit, hk, kept_ite]; done)
      | with_reducible refine kept_ite (fun _ => ?_) (fun _ => ?_)
      | with_reducible refine kept_foldl _ (fun s hk x => ?_) ?_
      | with_reducible dsimp only
      | (with_reducible split)

theorem kept_ldgApp {s₀ s : State} (hk : Kept s₀ s) (kind : Nat) : Kept s₀ (State.ldgApp s kind) := by
  unfold State.ldgApp
  repeat' first
    | with_reducible exact hk
    | (simp +contextual (maxDischargeDepth := 60) only [kept_ldgRecord, kept_setF, hk, kept_ite]; done)
    | with_reducible refine kept_ite (fun _ => ?_) (fun _ => ?_)
    | with_reducible refine kept_foldl _ (fun s hk x => ?_) ?_
    | with_reducible dsimp only
    | (with_reducible split)

end Sys2Proof.Machine
end

