-- ==== Sys2Proof/Laws/KeptResets.lean ====
section
/-! SUPPORT. What the operations of Machine/Resets.lean keep of a state. -/

namespace Sys2Proof.Machine

theorem kept_resetBlockRegs {s₀ s : State} (hk : Kept s₀ s) (code : Nat) (kp : String → Keep → Bool) : Kept s₀ (State.resetBlockRegs s code kp) := by
  unfold State.resetBlockRegs
  repeat' first
    | with_reducible exact hk
    | (simp +contextual (maxDischargeDepth := 60) only [kept_resetRegs, hk]; done)
    | with_reducible refine kept_ite (fun _ => ?_) (fun _ => ?_)
    | with_reducible refine kept_foldl _ (fun s hk x => ?_) ?_
    | with_reducible dsimp only
    | (with_reducible split)

theorem kept_resetStationRegs {s₀ s : State} (hk : Kept s₀ s) (code : Nat) (st : Nat) (kp : String → Keep → Bool) : Kept s₀ (State.resetStationRegs s code st kp) := by
  unfold State.resetStationRegs
  repeat' first
    | with_reducible exact hk
    | (simp +contextual (maxDischargeDepth := 60) only [kept_resetRegs, hk]; done)
    | with_reducible refine kept_ite (fun _ => ?_) (fun _ => ?_)
    | with_reducible refine kept_foldl _ (fun s hk x => ?_) ?_
    | with_reducible dsimp only
    | (with_reducible split)

theorem kept_endHostDma {s₀ s : State} (hk : Kept s₀ s)  : Kept s₀ (State.endHostDma s) := by
  unfold State.endHostDma
  repeat' first
    | with_reducible exact hk
    | (simp +contextual (maxDischargeDepth := 60) only [kept_setDmaCh, implies_true, forall_const, hk, kept_ite, kept_foldl, kept_mk]; done)
    | with_reducible refine kept_ite (fun _ => ?_) (fun _ => ?_)
    | with_reducible refine kept_foldl _ (fun s hk x => ?_) ?_
    | with_reducible dsimp only
    | (with_reducible split)

theorem kept_hstReset {s₀ s : State} (hk : Kept s₀ s) (kp : String → Keep → Bool) : Kept s₀ (State.hstReset s kp) := by
  unfold State.hstReset
  repeat' first
    | with_reducible exact hk
    | (simp +contextual (maxDischargeDepth := 60) only [kept_endHostDma, kept_resetBlockRegs, kept_setB, hk, kept_mk]; done)
    | with_reducible refine kept_ite (fun _ => ?_) (fun _ => ?_)
    | with_reducible refine kept_foldl _ (fun s hk x => ?_) ?_
    | with_reducible dsimp only
    | (with_reducible split)

theorem kept_lineReset {s₀ s : State} (hk : Kept s₀ s) (kp : String → Keep → Bool) : Kept s₀ (State.lineReset s kp) := by
  unfold State.lineReset
  repeat' first
    | with_reducible exact hk
    | (simp +contextual (maxDischargeDepth := 60) only [kept_resetBlockRegs, hk, kept_mk]; done)
    | with_reducible refine kept_ite (fun _ => ?_) (fun _ => ?_)
    | with_reducible refine kept_foldl _ (fun s hk x => ?_) ?_
    | with_reducible dsimp only
    | (with_reducible split)

theorem kept_scnPart {s₀ s : State} (hk : Kept s₀ s) (st : Nat) (kp : String → Keep → Bool) : Kept s₀ (State.scnPart s st kp) := by
  unfold State.scnPart
  repeat' first
    | with_reducible exact hk
    | (simp +contextual (maxDischargeDepth := 60) only [kept_scnReset, kept_resetStationRegs, hk]; done)
    | with_reducible refine kept_ite (fun _ => ?_) (fun _ => ?_)
    | with_reducible refine kept_foldl _ (fun s hk x => ?_) ?_
    | with_reducible dsimp only
    | (with_reducible split)

theorem kept_expPart {s₀ s : State} (hk : Kept s₀ s) (st : Nat) (kp : String → Keep → Bool) : Kept s₀ (State.expPart s st kp) := by
  unfold State.expPart
  repeat' first
    | with_reducible exact hk
    | (simp +contextual (maxDischargeDepth := 60) only [kept_resetStationRegs, kept_expReset, kept_cutFrame, kept_modExp, kept_updateCredit, hk]; done)
    | with_reducible refine kept_ite (fun _ => ?_) (fun _ => ?_)
    | with_reducible refine kept_foldl _ (fun s hk x => ?_) ?_
    | with_reducible dsimp only
    | (with_reducible split)

theorem kept_sqReset {s₀ s : State} (hk : Kept s₀ s) (kp : String → Keep → Bool) : Kept s₀ (State.sqReset s kp) := by
  unfold State.sqReset
  repeat' first
    | with_reducible exact hk
    | (simp +contextual (maxDischargeDepth := 60) only [kept_resetBlockRegs, hk, kept_mk]; done)
    | with_reducible refine kept_ite (fun _ => ?_) (fun _ => ?_)
    | with_reducible refine kept_foldl _ (fun s hk x => ?_) ?_
    | with_reducible dsimp only
    | (with_reducible split)

theorem kept_fxPart {s₀ s : State} (hk : Kept s₀ s) (kp : String → Keep → Bool) : Kept s₀ (State.fxPart s kp) := by
  unfold State.fxPart
  repeat' first
    | with_reducible exact hk
    | (simp +contextual (maxDischargeDepth := 60) only [kept_resetBlockRegs, kept_fxReset, hk]; done)
    | with_reducible refine kept_ite (fun _ => ?_) (fun _ => ?_)
    | with_reducible refine kept_foldl _ (fun s hk x => ?_) ?_
    | with_reducible dsimp only
    | (with_reducible split)

theorem kept_blockPart {s₀ s : State} (hk : Kept s₀ s) (src : Nat) : Kept s₀ (s.blockPart src) := by
  unfold State.blockPart
  extract_lets k
  clear_value k
  refine kept_ite (fun _ => kept_sqReset hk _) (fun _ => ?_)
  refine kept_ite (fun _ => kept_resetBlockRegs (kept_mk hk rfl rfl rfl rfl) _ _) (fun _ => ?_)
  refine kept_ite (fun _ => kept_resetBlockRegs (kept_mk hk rfl rfl rfl rfl) _ _) (fun _ => ?_)
  refine kept_ite (fun _ => kept_fxPart hk _) (fun _ => ?_)
  refine kept_ite (fun _ => kept_scnPart hk _ _) (fun _ => ?_)
  refine kept_ite (fun _ => kept_expPart hk _ _) (fun _ => ?_)
  refine kept_ite (fun _ => kept_resetBlockRegs (kept_focReset hk) _ _) (fun _ => ?_)
  refine kept_ite (fun _ => kept_resetBlockRegs (kept_stpReset hk) _ _) (fun _ => ?_)
  refine kept_ite (fun _ => kept_resetBlockRegs (kept_hvReset hk) _ _) (fun _ => ?_)
  refine kept_ite (fun _ => kept_resetBlockRegs (kept_fusReset hk) _ _) (fun _ => ?_)
  refine kept_ite (fun _ => kept_resetBlockRegs (kept_snsReset hk) _ _) (fun _ => ?_)
  refine kept_ite (fun _ => kept_lineReset hk _) (fun _ => ?_)
  refine kept_ite (fun _ => kept_hstReset hk _) (fun _ => ?_)
  exact kept_ite (fun _ => kept_resetBlockRegs (kept_mk hk rfl rfl rfl rfl) _ _) (fun _ => hk)

theorem kept_brst {s₀ s : State} (hk : Kept s₀ s) (src : Nat) : Kept s₀ (State.brst s src) := by
  unfold State.brst
  repeat' first
    | with_reducible exact hk
    | (simp +contextual (maxDischargeDepth := 60) only [kept_resetCauses, kept_blockPart, hk]; done)
    | with_reducible refine kept_ite (fun _ => ?_) (fun _ => ?_)
    | with_reducible refine kept_foldl _ (fun s hk x => ?_) ?_
    | with_reducible dsimp only
    | (with_reducible split)

theorem kept_clearMemory {s₀ s : State} (hk : Kept s₀ s) (d : Nat) : Kept s₀ (State.clearMemory s d) := by
  unfold State.clearMemory
  repeat' first
    | with_reducible exact hk
    | (simp +contextual (maxDischargeDepth := 60) only [implies_true, forall_const, hk, kept_foldl, kept_mk, kept_mkFilter, wipeRange]; done)
    | with_reducible refine kept_ite (fun _ => ?_) (fun _ => ?_)
    | with_reducible refine kept_foldl _ (fun s hk x => ?_) ?_
    | with_reducible dsimp only
    | (with_reducible split)

theorem kept_ldgIdle {s₀ s : State} (hk : Kept s₀ s)  : Kept s₀ (State.ldgIdle s) := by
  unfold State.ldgIdle
  repeat' first
    | with_reducible exact hk
    | (simp +contextual (maxDischargeDepth := 60) only [hk, kept_mk]; done)
    | with_reducible refine kept_ite (fun _ => ?_) (fun _ => ?_)
    | with_reducible refine kept_foldl _ (fun s hk x => ?_) ?_
    | with_reducible dsimp only
    | (with_reducible split)

theorem kept_ttReset {s₀ s : State} (hk : Kept s₀ s)  : Kept s₀ (State.ttReset s) := by
  unfold State.ttReset
  repeat' first
    | with_reducible exact hk
    | (simp +contextual (maxDischargeDepth := 60) only [hk, kept_mk]; done)
    | with_reducible refine kept_ite (fun _ => ?_) (fun _ => ?_)
    | with_reducible refine kept_foldl _ (fun s hk x => ?_) ?_
    | with_reducible dsimp only
    | (with_reducible split)

theorem kept_stationOff {s₀ s : State} (hk : Kept s₀ s) (st : Nat) : Kept s₀ (State.stationOff s st) := by
  unfold State.stationOff
  repeat' first
    | with_reducible exact hk
    | (simp +contextual (maxDischargeDepth := 60) only [kept_resetCauses, kept_expPart, kept_scnPart, hk, kept_mk]; done)
    | with_reducible refine kept_ite (fun _ => ?_) (fun _ => ?_)
    | with_reducible refine kept_foldl _ (fun s hk x => ?_) ?_
    | with_reducible dsimp only
    | (with_reducible split)

theorem kept_domReset {s₀ s : State} (hk : Kept s₀ s) (d : Nat) : Kept s₀ (s.domReset d) := by
  unfold State.domReset
  dsimp only
  refine kept_ite (fun _ => kept_resetBlockRegs (kept_ldgIdle hk) _ _) (fun _ => ?_)
  refine kept_ite (fun _ => kept_foldl _ (fun s hk x => kept_resetBlockRegs hk _ _) ?_) (fun _ => ?_)
  · exact (kept_ttReset hk).congr rfl rfl rfl rfl rfl rfl rfl rfl
  refine kept_ite (fun _ => kept_foldl _ (fun s hk x => kept_setFlight (kept_setArms hk _ _) _ _) hk) (fun _ => ?_)
  refine kept_ite (fun _ => kept_foldl _ (fun s hk x => kept_stationOff hk _) (kept_mk hk rfl rfl rfl rfl)) (fun _ => ?_)
  refine kept_ite (fun _ => kept_resetBlockRegs (kept_mk hk rfl rfl rfl rfl) _ _) (fun _ => ?_)
  refine kept_ite (fun _ => kept_setB (kept_mk hk rfl rfl rfl rfl) _ _ _) (fun _ => ?_)
  refine kept_ite (fun _ => kept_hstReset hk _) (fun _ => ?_)
  refine kept_ite (fun _ => kept_lineReset hk _) (fun _ => ?_)
  refine kept_ite (fun _ => kept_foldl _ (fun s hk x => kept_resetBlockRegs hk _ _) ?_) (fun _ => hk)
  exact kept_snsReset (kept_fusReset (kept_hvReset (kept_stpReset (kept_focReset hk))))

theorem kept_domainsLost {s₀ s : State} (hk : Kept s₀ s)  : Kept s₀ (State.domainsLost s) := by
  unfold State.domainsLost
  repeat' first
    | with_reducible exact hk
    | (simp +contextual (maxDischargeDepth := 60) only [kept_domReset, kept_clearMemory, kept_setReg, implies_true, forall_const, hk, kept_foldl, kept_mk, kept_mkFilter, wipeRange]; done)
    | with_reducible refine kept_ite (fun _ => ?_) (fun _ => ?_)
    | with_reducible refine kept_foldl _ (fun s hk x => ?_) ?_
    | with_reducible dsimp only
    | (with_reducible split)

theorem kept_crstDomains {s₀ s : State} (hk : Kept s₀ s)  : Kept s₀ (State.crstDomains s) := by
  unfold State.crstDomains
  repeat' first
    | with_reducible exact hk
    | (simp +contextual (maxDischargeDepth := 60) only [kept_setDom, kept_onEvent, kept_domMoved, implies_true, forall_const, hk, kept_ite, kept_foldl, kept_mk, kept_mkFilter]; done)
    | with_reducible refine kept_ite (fun _ => ?_) (fun _ => ?_)
    | with_reducible refine kept_foldl _ (fun s hk x => ?_) ?_
    | with_reducible dsimp only
    | (with_reducible split)

theorem kept_wipeAll {s₀ s : State} (hk : Kept s₀ s)  : Kept s₀ (State.wipeAll s) := by
  unfold State.wipeAll
  repeat' first
    | with_reducible exact hk
    | (simp +contextual (maxDischargeDepth := 60) only [hk, kept_mk, kept_mkFilter]; done)
    | with_reducible refine kept_ite (fun _ => ?_) (fun _ => ?_)
    | with_reducible refine kept_foldl _ (fun s hk x => ?_) ?_
    | with_reducible dsimp only
    | (with_reducible split)

theorem kept_stopClock {s₀ s : State} (hk : Kept s₀ s) : Kept s₀ s.stopClock := by
  unfold State.stopClock
  obtain ⟨p, d, m, r, c, l, b⟩ := hk
  exact kept_ite (fun _ => ⟨p, d, m, r, fun h => ⟨(c h).1, (c h).1⟩, l, b⟩) (fun _ => ⟨p, d, m, r, c, l, b⟩)

theorem kept_crst {s₀ s : State} (hk : Kept s₀ s) : Kept s₀ s.crst := by
  unfold State.crst
  extract_lets s1 s2 oldPll next perst s3 r0 c0 x0 l0 y0 s4 s5 s6 s7 s8 s9
  have h1 : Kept s₀ s1 := kept_ite (fun _ => hk) (fun _ => kept_resetMark hk _)
  have h2 : Kept s₀ s2 := kept_ldgMarks h1 _
  clear_value s2
  have h3 : Kept s₀ s3 := kept_wipeAll (kept_stopClock h2)
  clear_value s3
  have h4 : Kept s₀ s4 := h3.congr rfl rfl rfl rfl rfl rfl rfl rfl
  clear_value s4
  have h7 : Kept s₀ s7 := kept_resetRegs (kept_resetRegs (kept_resetRegs h4 _ _ _) _ _ _) _ _ _
  have h9 : Kept s₀ s9 := kept_crstDomains (kept_setB (kept_setF h7 _ _ _ _) _ _ _)
  clear_value s9
  exact kept_ite (fun _ => h9) (fun _ => kept_ldgRecord h9 _ _ _ _)

theorem kept_por {s₀ s : State} (hk : Kept s₀ s) : Kept s₀ s.por := by
  have hw : Kept s₀ s.wipeAll := kept_wipeAll hk
  obtain ⟨p, d, m, r, c, l, b⟩ := hk
  unfold State.por
  refine kept_setB ?_ _ _ _
  exact ⟨p, d, hw.mem, fun h => resetRegs_regsWf (resetRegs_regsWf (r h) _ _ _) _ _ _, fun _ => ⟨rfl, rfl⟩, l, b⟩

end Sys2Proof.Machine
end

