-- ==== Sys2Proof/Laws/KeptMode.lean ====
section
/-! SUPPORT. What the operations of Machine/Mode.lean keep of a state. -/

namespace Sys2Proof.Machine

theorem kept_setMode {s₀ s : State} (hk : Kept s₀ s) (m : Mode) : Kept s₀ (State.setMode s m) := by
  unfold State.setMode
  repeat' first
    | with_reducible exact hk
    | (simp +contextual (maxDischargeDepth := 60) only [kept_setF, hk]; done)
    | with_reducible refine kept_ite (fun _ => ?_) (fun _ => ?_)
    | with_reducible refine kept_foldl _ (fun s hk x => ?_) ?_
    | with_reducible dsimp only
    | (with_reducible split)

theorem kept_modeRefuse {s₀ s : State} (hk : Kept s₀ s) (m : Mode) (reason : Nat) : Kept s₀ (State.modeRefuse s m reason) := by
  unfold State.modeRefuse
  repeat' first
    | with_reducible exact hk
    | (simp +contextual (maxDischargeDepth := 60) only [kept_setF, hk]; done)
    | with_reducible refine kept_ite (fun _ => ?_) (fun _ => ?_)
    | with_reducible refine kept_foldl _ (fun s hk x => ?_) ?_
    | with_reducible dsimp only
    | (with_reducible split)

theorem kept_enterMode {s₀ s : State} (hk : Kept s₀ s) (m : Mode) : Kept s₀ (State.enterMode s m) := by
  unfold State.enterMode
  repeat' first
    | with_reducible exact hk
    | (simp +contextual (maxDischargeDepth := 60) only [kept_setMode, kept_setB, kept_setReg, hk, kept_ite, kept_mk]; done)
    | with_reducible refine kept_ite (fun _ => ?_) (fun _ => ?_)
    | with_reducible refine kept_foldl _ (fun s hk x => ?_) ?_
    | with_reducible dsimp only
    | (with_reducible split)

theorem kept_firstReady {s₀ s : State} (hk : Kept s₀ s)  : Kept s₀ (State.firstReady s) := by
  unfold State.firstReady
  repeat' first
    | with_reducible exact hk
    | (simp +contextual (maxDischargeDepth := 60) only [kept_setB, hk]; done)
    | with_reducible refine kept_ite (fun _ => ?_) (fun _ => ?_)
    | with_reducible refine kept_foldl _ (fun s hk x => ?_) ?_
    | with_reducible dsimp only
    | (with_reducible split)

theorem kept_beginChange {s₀ s : State} (hk : Kept s₀ s) (m : Mode) (up : List Nat) (down : List Nat) : Kept s₀ (State.beginChange s m up down) := by
  unfold State.beginChange
  repeat' first
    | with_reducible exact hk
    | (simp +contextual (maxDischargeDepth := 60) only [kept_pwrPush, kept_setB, kept_setF, kept_enterMode, hk, kept_ite, kept_mk]; done)
    | with_reducible refine kept_ite (fun _ => ?_) (fun _ => ?_)
    | with_reducible refine kept_foldl _ (fun s hk x => ?_) ?_
    | with_reducible dsimp only
    | (with_reducible split)

theorem kept_modeAccept {s₀ s : State} (hk : Kept s₀ s) (m : Mode) : Kept s₀ (State.modeAccept s m) := by
  unfold State.modeAccept
  repeat' first
    | with_reducible exact hk
    | (simp +contextual (maxDischargeDepth := 60) only [kept_pwrPush, kept_firstReady, kept_beginChange, kept_enterMode, kept_closeAdmission, hk, kept_mk, kept_mkFilter]; done)
    | with_reducible refine kept_ite (fun _ => ?_) (fun _ => ?_)
    | with_reducible refine kept_foldl _ (fun s hk x => ?_) ?_
    | with_reducible dsimp only
    | (with_reducible split)

theorem kept_modeRequest {s₀ s : State} (hk : Kept s₀ s) (m : Mode) : Kept s₀ (State.modeRequest s m) := by
  unfold State.modeRequest
  repeat' first
    | with_reducible exact hk
    | (simp +contextual (maxDischargeDepth := 60) only [kept_modeRefuse, kept_setB, kept_modeAccept, kept_setF, hk, kept_ite, kept_mk]; done)
    | with_reducible refine kept_ite (fun _ => ?_) (fun _ => ?_)
    | with_reducible refine kept_foldl _ (fun s hk x => ?_) ?_
    | with_reducible dsimp only
    | (with_reducible split)

theorem kept_takeHeld {s₀ s : State} (hk : Kept s₀ s)  : Kept s₀ (State.takeHeld s) := by
  unfold State.takeHeld
  repeat' first
    | with_reducible exact hk
    | (simp +contextual (maxDischargeDepth := 60) only [kept_modeRequest, kept_setF, kept_setB, hk, kept_ite]; done)
    | with_reducible refine kept_ite (fun _ => ?_) (fun _ => ?_)
    | with_reducible refine kept_foldl _ (fun s hk x => ?_) ?_
    | with_reducible dsimp only
    | (with_reducible split)

theorem kept_enterSafe {s₀ s : State} (hk : Kept s₀ s)  : Kept s₀ (State.enterSafe s) := by
  unfold State.enterSafe
  repeat' first
    | with_reducible exact hk
    | (simp +contextual (maxDischargeDepth := 60) only [kept_expSafe, kept_fusSafe, kept_scnSafe, kept_focSafe, kept_setB, kept_stpSafe, kept_snsSafe, kept_safeSheets, kept_hvSafe, kept_enterMode, hk, kept_ite]; done)
    | with_reducible refine kept_ite (fun _ => ?_) (fun _ => ?_)
    | with_reducible refine kept_foldl _ (fun s hk x => ?_) ?_
    | with_reducible dsimp only
    | (with_reducible split)

theorem kept_endInSafe {s₀ s : State} (hk : Kept s₀ s)  : Kept s₀ (State.endInSafe s) := by
  unfold State.endInSafe
  repeat' first
    | with_reducible exact hk
    | (simp +contextual (maxDischargeDepth := 60) only [kept_expSafe, kept_setB, kept_setF, kept_takeHeld, kept_setDom, kept_enterMode, implies_true, forall_const, hk, kept_ite, kept_foldl, kept_mk, kept_mkFilter]; done)
    | with_reducible refine kept_ite (fun _ => ?_) (fun _ => ?_)
    | with_reducible refine kept_foldl _ (fun s hk x => ?_) ?_
    | with_reducible dsimp only
    | (with_reducible split)

theorem kept_safeTrigger {s₀ s : State} (hk : Kept s₀ s)  : Kept s₀ (State.safeTrigger s) := by
  unfold State.safeTrigger
  repeat' first
    | with_reducible exact hk
    | (simp +contextual (maxDischargeDepth := 60) only [kept_abortCheck, kept_setB, kept_enterSafe, kept_endInSafe, hk, kept_ite, kept_mk]; done)
    | with_reducible refine kept_ite (fun _ => ?_) (fun _ => ?_)
    | with_reducible refine kept_foldl _ (fun s hk x => ?_) ?_
    | with_reducible dsimp only
    | (with_reducible split)

theorem kept_changeEnd {s₀ s : State} (hk : Kept s₀ s)  : Kept s₀ (State.changeEnd s) := by
  unfold State.changeEnd
  repeat' first
    | with_reducible exact hk
    | (simp +contextual (maxDischargeDepth := 60) only [kept_expSafe, kept_stopClock, kept_setB, kept_takeHeld, kept_crst, kept_enterMode, hk, kept_ite, kept_mk]; done)
    | with_reducible refine kept_ite (fun _ => ?_) (fun _ => ?_)
    | with_reducible refine kept_foldl _ (fun s hk x => ?_) ?_
    | with_reducible dsimp only
    | (with_reducible split)

theorem kept_modeTake {s₀ s : State} (hk : Kept s₀ s) (e : ModeEv) : Kept s₀ (State.modeTake s e) := by
  unfold State.modeTake
  repeat' first
    | with_reducible exact hk
    | (simp +contextual (maxDischargeDepth := 60) only [kept_safeTrigger, kept_endCheck, kept_modeRequest, hk, kept_ite, kept_mk]; done)
    | with_reducible refine kept_ite (fun _ => ?_) (fun _ => ?_)
    | with_reducible refine kept_foldl _ (fun s hk x => ?_) ?_
    | with_reducible dsimp only
    | (with_reducible split)

theorem kept_closeEdge {s₀ s : State} (hk : Kept s₀ s) (edge : Tick) : Kept s₀ (State.closeEdge s edge) := by
  unfold State.closeEdge
  repeat' first
    | with_reducible exact hk
    | (simp +contextual (maxDischargeDepth := 60) only [kept_modeTake, kept_takeHeld, implies_true, forall_const, hk, kept_foldl, kept_mk, kept_mkFilter]; done)
    | with_reducible refine kept_ite (fun _ => ?_) (fun _ => ?_)
    | with_reducible refine kept_foldl _ (fun s hk x => ?_) ?_
    | with_reducible dsimp only
    | (with_reducible split)

theorem kept_modeAsk {s₀ s : State} (hk : Kept s₀ s) (m : Mode) : Kept s₀ (State.modeAsk s m) := by
  unfold State.modeAsk
  repeat' first
    | with_reducible exact hk
    | (simp +contextual (maxDischargeDepth := 60) only [kept_modeEvent, hk]; done)
    | with_reducible refine kept_ite (fun _ => ?_) (fun _ => ?_)
    | with_reducible refine kept_foldl _ (fun s hk x => ?_) ?_
    | with_reducible dsimp only
    | (with_reducible split)

theorem kept_intlkSamples {s₀ s : State} (hk : Kept s₀ s) (ls : List Bool) : Kept s₀ (State.intlkSamples s ls) := by
  unfold State.intlkSamples
  repeat' first
    | with_reducible exact hk
    | (simp +contextual (maxDischargeDepth := 60) only [kept_modeEvent, implies_true, forall_const, hk, kept_ite, kept_foldl, kept_mk]; done)
    | with_reducible refine kept_ite (fun _ => ?_) (fun _ => ?_)
    | with_reducible refine kept_foldl _ (fun s hk x => ?_) ?_
    | with_reducible dsimp only
    | (with_reducible split)

theorem kept_modeWrite {s₀ s : State} (hk : Kept s₀ s) (ini : Nat) (m : Nat) : Kept s₀ (State.modeWrite s ini m) := by
  unfold State.modeWrite
  repeat' first
    | with_reducible exact hk
    | (simp +contextual (maxDischargeDepth := 60) only [kept_modeEvent, hk, kept_ite]; done)
    | with_reducible refine kept_ite (fun _ => ?_) (fun _ => ?_)
    | with_reducible refine kept_foldl _ (fun s hk x => ?_) ?_
    | with_reducible dsimp only
    | (with_reducible split)

end Sys2Proof.Machine
end

