-- ==== Sys2Proof/Laws/KeptThermal.lean ====
section
/-! SUPPORT. What the operations of Machine/Thermal.lean keep of a state. -/

namespace Sys2Proof.Machine

theorem kept_thmEvent {s₀ s : State} (hk : Kept s₀ s) (irq : Nat) (ev : Nat) : Kept s₀ (State.thmEvent s irq ev) := by
  unfold State.thmEvent
  repeat' first
    | with_reducible exact hk
    | (simp +contextual (maxDischargeDepth := 60) only [kept_raise, kept_setB, hk]; done)
    | with_reducible refine kept_ite (fun _ => ?_) (fun _ => ?_)
    | with_reducible refine kept_foldl _ (fun s hk x => ?_) ?_
    | with_reducible dsimp only
    | (with_reducible split)

theorem kept_failSensor {s₀ s : State} (hk : Kept s₀ s) (i : Nat) : Kept s₀ (State.failSensor s i) := by
  unfold State.failSensor
  repeat' first
    | with_reducible exact hk
    | (simp +contextual (maxDischargeDepth := 60) only [kept_thmEvent, kept_setB, kept_ldgRecord, hk, kept_ite]; done)
    | with_reducible refine kept_ite (fun _ => ?_) (fun _ => ?_)
    | with_reducible refine kept_foldl _ (fun s hk x => ?_) ?_
    | with_reducible dsimp only
    | (with_reducible split)

theorem kept_samplePair {s₀ s : State} (hk : Kept s₀ s) (rs : List (Option Int)) (p : Nat) : Kept s₀ (State.samplePair s rs p) := by
  unfold State.samplePair
  repeat' first
    | with_reducible exact hk
    | (simp +contextual (maxDischargeDepth := 60) only [kept_failSensor, hk, kept_ite, kept_mk]; done)
    | with_reducible refine kept_ite (fun _ => ?_) (fun _ => ?_)
    | with_reducible refine kept_foldl _ (fun s hk x => ?_) ?_
    | with_reducible dsimp only
    | (with_reducible split)

theorem kept_updateBudget {s₀ s : State} (hk : Kept s₀ s)  : Kept s₀ (State.updateBudget s) := by
  unfold State.updateBudget
  repeat' first
    | with_reducible exact hk
    | (simp +contextual (maxDischargeDepth := 60) only [kept_setF, hk]; done)
    | with_reducible refine kept_ite (fun _ => ?_) (fun _ => ?_)
    | with_reducible refine kept_foldl _ (fun s hk x => ?_) ?_
    | with_reducible dsimp only
    | (with_reducible split)

theorem kept_thrState {s₀ s : State} (hk : Kept s₀ s) (advise : Bool) (enforced : Bool) (horizon : Nat) (pitch : Nat) (allow : Nat) : Kept s₀ (State.thrState s advise enforced horizon pitch allow) := by
  unfold State.thrState
  have hk2 := hk
  repeat' first
    | with_reducible exact hk
    | with_reducible exact hk2
    | (simp +contextual (maxDischargeDepth := 60) only [kept_pitch, kept_setB, kept_updateBudget, kept_setReg, kept_setF, hk, hk2, kept_mk]; done)
    | with_reducible refine kept_ite (fun _ => ?_) (fun _ => ?_)
    | with_reducible refine kept_foldl _ (fun s hk x => ?_) ?_
    | with_reducible dsimp only
    | (with_reducible split) <;> first | (have hk2 : Kept s₀ _ := kept_pair ‹(_ : _ × State) = (_, _)› (by simp +contextual (maxDischargeDepth := 60) only [kept_pitch, kept_setB, kept_updateBudget, kept_setReg, kept_setF, hk, hk2, kept_mk]; done)) | skip

theorem kept_thrEnforced {s₀ s : State} (hk : Kept s₀ s)  : Kept s₀ (State.thrEnforced s) := by
  unfold State.thrEnforced
  repeat' first
    | with_reducible exact hk
    | (simp +contextual (maxDischargeDepth := 60) only [kept_setF, kept_setReg, kept_updateBudget, hk, kept_mk]; done)
    | with_reducible refine kept_ite (fun _ => ?_) (fun _ => ?_)
    | with_reducible refine kept_foldl _ (fun s hk x => ?_) ?_
    | with_reducible dsimp only
    | (with_reducible split)

theorem kept_sampleThrottle {s₀ s : State} (hk : Kept s₀ s)  : Kept s₀ (State.sampleThrottle s) := by
  unfold State.sampleThrottle
  repeat' first
    | with_reducible exact hk
    | (simp +contextual (maxDischargeDepth := 60) only [kept_thrState, kept_setB, kept_thmEvent, kept_incSat, hk, kept_ite, kept_mk]; done)
    | with_reducible refine kept_ite (fun _ => ?_) (fun _ => ?_)
    | with_reducible refine kept_foldl _ (fun s hk x => ?_) ?_
    | with_reducible dsimp only
    | (with_reducible split)

theorem kept_ldgFlush {s₀ s : State} (hk : Kept s₀ s) (n : Nat) : Kept s₀ (State.ldgFlush s n) := by
  induction n generalizing s with
  | zero => exact hk
  | succ n ih =>
    unfold State.ldgFlush
    repeat' first
      | with_reducible exact hk
      | (simp +contextual (maxDischargeDepth := 60) only [ih, kept_ldgUnit, hk, kept_ite]; done)
      | with_reducible refine kept_ite (fun _ => ?_) (fun _ => ?_)
      | with_reducible refine kept_foldl _ (fun s hk x => ?_) ?_
      | with_reducible dsimp only
      | (with_reducible split)

theorem kept_vreqEnd {s₀ s : State} (hk : Kept s₀ s) (st : Nat) (cause : Nat) : Kept s₀ (State.vreqEnd s st cause) := by
  unfold State.vreqEnd
  repeat' first
    | with_reducible exact hk
    | (simp +contextual (maxDischargeDepth := 60) only [kept_cause, kept_setF, kept_setB, hk]; done)
    | with_reducible refine kept_ite (fun _ => ?_) (fun _ => ?_)
    | with_reducible refine kept_foldl _ (fun s hk x => ?_) ?_
    | with_reducible dsimp only
    | (with_reducible split)

theorem kept_vreqAbandon {s₀ s : State} (hk : Kept s₀ s)  : Kept s₀ (State.vreqAbandon s) := by
  unfold State.vreqAbandon
  repeat' first
    | with_reducible exact hk
    | (simp +contextual (maxDischargeDepth := 60) only [kept_vreqEnd, hk, kept_ite]; done)
    | with_reducible refine kept_ite (fun _ => ?_) (fun _ => ?_)
    | with_reducible refine kept_foldl _ (fun s hk x => ?_) ?_
    | with_reducible dsimp only
    | (with_reducible split)

theorem kept_thermalShutdown {s₀ s : State} (hk : Kept s₀ s) (i : Nat) (before : Int) : Kept s₀ (State.thermalShutdown s i before) := by
  unfold State.thermalShutdown
  repeat' first
    | with_reducible exact hk
    | (simp +contextual (maxDischargeDepth := 60) only [kept_vreqAbandon, kept_resetMark, kept_ldgFlush, kept_lowerReady, kept_ldgRecord, hk, kept_mk, kept_mkFilter]; done)
    | with_reducible refine kept_ite (fun _ => ?_) (fun _ => ?_)
    | with_reducible refine kept_foldl _ (fun s hk x => ?_) ?_
    | with_reducible dsimp only
    | (with_reducible split)

theorem kept_sampleHot {s₀ s : State} (hk : Kept s₀ s) (i : Nat) (before : Int) : Kept s₀ (State.sampleHot s i before) := by
  unfold State.sampleHot
  repeat' first
    | with_reducible exact hk
    | (simp +contextual (maxDischargeDepth := 60) only [kept_thermalShutdown, hk, kept_ite, kept_mk]; done)
    | with_reducible refine kept_ite (fun _ => ?_) (fun _ => ?_)
    | with_reducible refine kept_foldl _ (fun s hk x => ?_) ?_
    | with_reducible dsimp only
    | (with_reducible split)

end Sys2Proof.Machine
end

