-- ==== Sys2Proof/Laws/KeptTrust.lean ====
section
/-! SUPPORT. What the operations of Machine/Trust.lean keep of a state. -/

namespace Sys2Proof.Machine

theorem kept_extendMeas {s₀ s : State} (hk : Kept s₀ s) (m : Nat) (d : List Byte) : Kept s₀ (State.extendMeas s m d) := by
  unfold State.extendMeas
  repeat' first
    | with_reducible exact hk
    | (simp +contextual (maxDischargeDepth := 60) only [kept_take, kept_setReg, implies_true, forall_const, hk, kept_foldl]; done)
    | with_reducible refine kept_ite (fun _ => ?_) (fun _ => ?_)
    | with_reducible refine kept_foldl _ (fun s hk x => ?_) ?_
    | with_reducible dsimp only
    | (with_reducible split)

theorem kept_stageNext {s₀ s : State} (hk : Kept s₀ s) (n : Nat) : Kept s₀ (State.stageNext s n) := by
  unfold State.stageNext
  repeat' first
    | with_reducible exact hk
    | (simp +contextual (maxDischargeDepth := 60) only [kept_setF, hk, kept_ite]; done)
    | with_reducible refine kept_ite (fun _ => ?_) (fun _ => ?_)
    | with_reducible refine kept_foldl _ (fun s hk x => ?_) ?_
    | with_reducible dsimp only
    | (with_reducible split)

theorem kept_rbAdv {s₀ s : State} (hk : Kept s₀ s) (n : Nat) : Kept s₀ (s.rbAdv n) := by
  unfold State.rbAdv
  refine kept_ite (fun _ => ?_) (fun _ => hk)
  obtain ⟨p, d, m, r, c, l, b⟩ := hk
  refine ⟨p, d, m, r, c, l, fun i => (b i).trans ?_⟩
  unfold State.rbCount
  by_cases h : i = n
  · subst h; rw [Tab.get_put_self]; exact Nat.le_succ _
  · rw [Tab.get_put_ne _ h]

theorem kept_startCore {s₀ s : State} (hk : Kept s₀ s) (c : Nat) (pc : Nat) : Kept s₀ (State.startCore s c pc) := by
  unfold State.startCore
  repeat' first
    | with_reducible exact hk
    | (simp +contextual (maxDischargeDepth := 60) only [hk, kept_mk]; done)
    | with_reducible refine kept_ite (fun _ => ?_) (fun _ => ?_)
    | with_reducible refine kept_foldl _ (fun s hk x => ?_) ?_
    | with_reducible dsimp only
    | (with_reducible split)

theorem kept_release1 {s₀ s : State} (hk : Kept s₀ s)  : Kept s₀ (State.release1 s) := by
  unfold State.release1
  repeat' first
    | with_reducible exact hk
    | (simp +contextual (maxDischargeDepth := 60) only [kept_setB, kept_startCore, hk, kept_ite, kept_mk]; done)
    | with_reducible refine kept_ite (fun _ => ?_) (fun _ => ?_)
    | with_reducible refine kept_foldl _ (fun s hk x => ?_) ?_
    | with_reducible dsimp only
    | (with_reducible split)

theorem kept_bootSlot {s₀ s : State} (hk : Kept s₀ s) (n : Nat) (bs : List Byte) : Kept s₀ (State.bootSlot s n bs) := by
  unfold State.bootSlot
  repeat' first
    | with_reducible exact hk
    | (simp +contextual (maxDischargeDepth := 60) only [kept_setF, kept_startCore, kept_take, kept_storeBytes, kept_extendMeas, hk]; done)
    | with_reducible refine kept_ite (fun _ => ?_) (fun _ => ?_)
    | with_reducible refine kept_foldl _ (fun s hk x => ?_) ?_
    | with_reducible dsimp only
    | (with_reducible split)

theorem kept_bootRom {s₀ s : State} (hk : Kept s₀ s)  : Kept s₀ (State.bootRom s) := by
  unfold State.bootRom
  repeat' first
    | with_reducible exact hk
    | (simp +contextual (maxDischargeDepth := 60) only [kept_setF, kept_bootSlot, kept_setReg, kept_setB, hk, kept_ite, kept_mk]; done)
    | with_reducible refine kept_ite (fun _ => ?_) (fun _ => ?_)
    | with_reducible refine kept_foldl _ (fun s hk x => ?_) ?_
    | with_reducible dsimp only
    | (with_reducible split)

theorem kept_bootIfDue {s₀ s : State} (hk : Kept s₀ s)  : Kept s₀ (State.bootIfDue s) := by
  unfold State.bootIfDue
  repeat' first
    | with_reducible exact hk
    | (simp +contextual (maxDischargeDepth := 60) only [kept_bootRom, hk, kept_ite]; done)
    | with_reducible refine kept_ite (fun _ => ?_) (fun _ => ?_)
    | with_reducible refine kept_foldl _ (fun s hk x => ?_) ?_
    | with_reducible dsimp only
    | (with_reducible split)

theorem kept_secRefuse {s₀ s : State} (hk : Kept s₀ s) (reason : Nat) : Kept s₀ (State.secRefuse s reason) := by
  unfold State.secRefuse
  repeat' first
    | with_reducible exact hk
    | (simp +contextual (maxDischargeDepth := 60) only [kept_setF, kept_setB, hk]; done)
    | with_reducible refine kept_ite (fun _ => ?_) (fun _ => ?_)
    | with_reducible refine kept_foldl _ (fun s hk x => ?_) ?_
    | with_reducible dsimp only
    | (with_reducible split)

theorem kept_secDone {s₀ s : State} (hk : Kept s₀ s)  : Kept s₀ (State.secDone s) := by
  unfold State.secDone
  repeat' first
    | with_reducible exact hk
    | (simp +contextual (maxDischargeDepth := 60) only [kept_setF, kept_setB, hk]; done)
    | with_reducible refine kept_ite (fun _ => ?_) (fun _ => ?_)
    | with_reducible refine kept_foldl _ (fun s hk x => ?_) ?_
    | with_reducible dsimp only
    | (with_reducible split)

theorem kept_secBegin {s₀ s : State} (hk : Kept s₀ s) (op : Nat) : Kept s₀ (State.secBegin s op) := by
  unfold State.secBegin
  repeat' first
    | with_reducible exact hk
    | (simp +contextual (maxDischargeDepth := 60) only [kept_setF, kept_ldgEvent, kept_secRefuse, kept_setB, hk, kept_ite, kept_mk]; done)
    | with_reducible refine kept_ite (fun _ => ?_) (fun _ => ?_)
    | with_reducible refine kept_foldl _ (fun s hk x => ?_) ?_
    | with_reducible dsimp only
    | (with_reducible split)

theorem kept_sign {s₀ s : State} (hk : Kept s₀ s) (msg : List Byte) : Kept s₀ (State.sign s msg).2 := by
  unfold State.sign
  have hk2 := hk
  repeat' first
    | with_reducible exact hk
    | with_reducible exact hk2
    | (simp +contextual (maxDischargeDepth := 60) only [kept_takeFresh, hk]; done)
    | with_reducible refine kept_ite (fun _ => ?_) (fun _ => ?_)
    | with_reducible refine kept_foldl _ (fun s hk x => ?_) ?_
    | with_reducible dsimp only
    | (with_reducible split) <;> first | (have hk2 : Kept s₀ _ := kept_pair ‹(_ : _ × State) = (_, _)› (by simp +contextual (maxDischargeDepth := 60) only [kept_takeFresh, hk]; done)) | skip

theorem kept_signEnd {s₀ s : State} (hk : Kept s₀ s) (c : SecCmd) : Kept s₀ (State.signEnd s c) := by
  unfold State.signEnd
  have hk2 := hk
  repeat' first
    | with_reducible exact hk
    | with_reducible exact hk2
    | (simp +contextual (maxDischargeDepth := 60) only [kept_take, kept_secDone, kept_sign, kept_storeBytes, hk, hk2, kept_ite]; done)
    | with_reducible refine kept_ite (fun _ => ?_) (fun _ => ?_)
    | with_reducible refine kept_foldl _ (fun s hk x => ?_) ?_
    | with_reducible dsimp only
    | (with_reducible split) <;> first | (have hk2 : Kept s₀ _ := kept_pair ‹(_ : _ × State) = (_, _)› (by simp +contextual (maxDischargeDepth := 60) only [kept_take, kept_secDone, kept_sign, kept_storeBytes, hk, hk2, kept_ite]; done)) | skip

theorem kept_meterEnd {s₀ s : State} (hk : Kept s₀ s) (c : SecCmd) : Kept s₀ (State.meterEnd s c) := by
  unfold State.meterEnd
  have hk2 := hk
  repeat' first
    | with_reducible exact hk
    | with_reducible exact hk2
    | (simp +contextual (maxDischargeDepth := 60) only [kept_ldgRecord, kept_take, kept_secDone, kept_sign, kept_storeBytes, hk, hk2, kept_ite, kept_mk]; done)
    | with_reducible refine kept_ite (fun _ => ?_) (fun _ => ?_)
    | with_reducible refine kept_foldl _ (fun s hk x => ?_) ?_
    | with_reducible dsimp only
    | (with_reducible split) <;> first | (have hk2 : Kept s₀ _ := kept_pair ‹(_ : _ × State) = (_, _)› (by simp +contextual (maxDischargeDepth := 60) only [kept_ldgRecord, kept_take, kept_secDone, kept_sign, kept_storeBytes, hk, hk2, kept_ite, kept_mk]; done)) | skip

theorem kept_lcWipe {s₀ s : State} (hk : Kept s₀ s) (old : Nat) (recorded : Bool) : Kept s₀ (State.lcWipe s old recorded) := by
  unfold State.lcWipe
  repeat' first
    | with_reducible exact hk
    | (simp +contextual (maxDischargeDepth := 60) only [kept_setF, kept_ldgRecord, kept_setB, kept_ldgFlush, implies_true, forall_const, hk, kept_ite, kept_foldl, kept_mk, kept_mkFilter, wipeRange]; done)
    | with_reducible refine kept_ite (fun _ => ?_) (fun _ => ?_)
    | with_reducible refine kept_foldl _ (fun s hk x => ?_) ?_
    | with_reducible dsimp only
    | (with_reducible split)

theorem kept_lcEnd {s₀ s : State} (hk : Kept s₀ s) (c : SecCmd) : Kept s₀ (s.lcEnd c) := by
  unfold State.lcEnd
  extract_lets lc s1 key x0 x1 s2
  have h1 : Kept s₀ s1 := kept_setB hk _ _ _
  have h2 : Kept s₀ s2 := by
    obtain ⟨p, d, m, r, c, l, b⟩ := h1
    refine ⟨p, d, m, r, c, ?_, b⟩
    exact Nat.le_succ_of_le hk.lc
  exact kept_ite (fun _ => kept_secRefuse hk _) (fun _ => kept_ite (fun _ => kept_secRefuse hk _)
    (fun _ => kept_crst (kept_lcWipe h2 _ _)))

theorem kept_secEnd {s₀ s : State} (hk : Kept s₀ s) (c : SecCmd) : Kept s₀ (State.secEnd s c) := by
  unfold State.secEnd
  have hk2 := hk
  repeat' first
    | with_reducible exact hk
    | with_reducible exact hk2
    | (simp +contextual (maxDischargeDepth := 60) only [kept_ldgRecord, kept_take, kept_takeFresh, kept_secRefuse, kept_secDone, kept_lcEnd, kept_storeBytes, kept_meterEnd, kept_extendMeas, kept_signEnd, hk, hk2, kept_ite, kept_mk]; done)
    | with_reducible refine kept_ite (fun _ => ?_) (fun _ => ?_)
    | with_reducible refine kept_foldl _ (fun s hk x => ?_) ?_
    | with_reducible dsimp only
    | (with_reducible split) <;> first | (have hk2 : Kept s₀ _ := kept_pair ‹(_ : _ × State) = (_, _)› (by simp +contextual (maxDischargeDepth := 60) only [kept_ldgRecord, kept_take, kept_takeFresh, kept_secRefuse, kept_secDone, kept_lcEnd, kept_storeBytes, kept_meterEnd, kept_extendMeas, kept_signEnd, hk, hk2, kept_ite, kept_mk]; done)) | skip

theorem kept_telWrite {s₀ s : State} (hk : Kept s₀ s) (bs : List Byte) : Kept s₀ (State.telWrite s bs) := by
  unfold State.telWrite
  repeat' first
    | with_reducible exact hk
    | (simp +contextual (maxDischargeDepth := 60) only [kept_setF, kept_storeBytes, hk, kept_ite]; done)
    | with_reducible refine kept_ite (fun _ => ?_) (fun _ => ?_)
    | with_reducible refine kept_foldl _ (fun s hk x => ?_) ?_
    | with_reducible dsimp only
    | (with_reducible split)

theorem kept_telSign {s₀ s : State} (hk : Kept s₀ s) (snap : List Byte) : Kept s₀ (State.telSign s snap) := by
  unfold State.telSign
  have hk2 := hk
  repeat' first
    | with_reducible exact hk
    | with_reducible exact hk2
    | (simp +contextual (maxDischargeDepth := 60) only [kept_telWrite, kept_sign, hk, hk2, kept_mk]; done)
    | with_reducible refine kept_ite (fun _ => ?_) (fun _ => ?_)
    | with_reducible refine kept_foldl _ (fun s hk x => ?_) ?_
    | with_reducible dsimp only
    | (with_reducible split) <;> first | (have hk2 : Kept s₀ _ := kept_pair ‹(_ : _ × State) = (_, _)› (by simp +contextual (maxDischargeDepth := 60) only [kept_telWrite, kept_sign, hk, hk2, kept_mk]; done)) | skip

end Sys2Proof.Machine
end

