-- ==== Sys2Proof/Laws/KeptPower.lean ====
section
/-! SUPPORT. What the operations of Machine/Power.lean keep of a state. -/

namespace Sys2Proof.Machine

theorem kept_domRequest {s₀ s : State} (hk : Kept s₀ s) (d : Nat) (on : Bool) : Kept s₀ (State.domRequest s d on) := by
  unfold State.domRequest
  repeat' first
    | with_reducible exact hk
    | (simp +contextual (maxDischargeDepth := 60) only [kept_pwrPush, hk, kept_ite]; done)
    | with_reducible refine kept_ite (fun _ => ?_) (fun _ => ?_)
    | with_reducible refine kept_foldl _ (fun s hk x => ?_) ?_
    | with_reducible dsimp only
    | (with_reducible split)

theorem kept_upReady {s₀ s : State} (hk : Kept s₀ s) (d : Nat) (st : Nat) (edge : Tick) : Kept s₀ (State.upReady s d st edge) := by
  unfold State.upReady
  repeat' first
    | with_reducible exact hk
    | (simp +contextual (maxDischargeDepth := 60) only [kept_setStep, kept_bootIfDue, kept_setB, kept_clearMemory, kept_setDom, hk, kept_ite, kept_mk]; done)
    | with_reducible refine kept_ite (fun _ => ?_) (fun _ => ?_)
    | with_reducible refine kept_foldl _ (fun s hk x => ?_) ?_
    | with_reducible dsimp only
    | (with_reducible split)

theorem kept_downReady {s₀ s : State} (hk : Kept s₀ s) (d : Nat) (st : Nat) (edge : Tick) : Kept s₀ (State.downReady s d st edge) := by
  unfold State.downReady
  repeat' first
    | with_reducible exact hk
    | (simp +contextual (maxDischargeDepth := 60) only [kept_setStep, kept_setB, kept_pwrAborted, kept_setDom, kept_domReset, kept_onEventAt, hk, kept_ite, kept_mk]; done)
    | with_reducible refine kept_ite (fun _ => ?_) (fun _ => ?_)
    | with_reducible refine kept_foldl _ (fun s hk x => ?_) ?_
    | with_reducible dsimp only
    | (with_reducible split)

theorem kept_setSeq {s₀ s : State} (hk : Kept s₀ s) (n : Nat) : Kept s₀ (State.setSeq s n) := by
  unfold State.setSeq
  repeat' first
    | with_reducible exact hk
    | (simp +contextual (maxDischargeDepth := 60) only [kept_setF, hk, kept_mk]; done)
    | with_reducible refine kept_ite (fun _ => ?_) (fun _ => ?_)
    | with_reducible refine kept_foldl _ (fun s hk x => ?_) ?_
    | with_reducible dsimp only
    | (with_reducible split)

theorem kept_setRail {s₀ s : State} (hk : Kept s₀ s) (i : Nat) (on : Bool) : Kept s₀ (State.setRail s i on) := by
  unfold State.setRail
  repeat' first
    | with_reducible exact hk
    | (simp +contextual (maxDischargeDepth := 60) only [hk, kept_ite, kept_mk]; done)
    | with_reducible refine kept_ite (fun _ => ?_) (fun _ => ?_)
    | with_reducible refine kept_foldl _ (fun s hk x => ?_) ?_
    | with_reducible dsimp only
    | (with_reducible split)

theorem kept_takeRailCfg {s₀ s : State} (hk : Kept s₀ s)  : Kept s₀ (State.takeRailCfg s) := by
  unfold State.takeRailCfg
  repeat' first
    | with_reducible exact hk
    | (simp +contextual (maxDischargeDepth := 60) only [kept_applyAll, hk]; done)
    | with_reducible refine kept_ite (fun _ => ?_) (fun _ => ?_)
    | with_reducible refine kept_foldl _ (fun s hk x => ?_) ?_
    | with_reducible dsimp only
    | (with_reducible split)

theorem kept_fallDone {s₀ s : State} (hk : Kept s₀ s)  : Kept s₀ (State.fallDone s) := by
  unfold State.fallDone
  repeat' first
    | with_reducible exact hk
    | (simp +contextual (maxDischargeDepth := 60) only [kept_setSeq, hk, kept_ite]; done)
    | with_reducible refine kept_ite (fun _ => ?_) (fun _ => ?_)
    | with_reducible refine kept_foldl _ (fun s hk x => ?_) ?_
    | with_reducible dsimp only
    | (with_reducible split)

theorem kept_fallNext {s₀ s : State} (hk : Kept s₀ s)  : Kept s₀ (State.fallNext s) := by
  unfold State.fallNext
  repeat' first
    | with_reducible exact hk
    | (simp +contextual (maxDischargeDepth := 60) only [kept_fallDone, kept_setRail, hk, kept_ite, kept_mk]; done)
    | with_reducible refine kept_ite (fun _ => ?_) (fun _ => ?_)
    | with_reducible refine kept_foldl _ (fun s hk x => ?_) ?_
    | with_reducible dsimp only
    | (with_reducible split)

theorem kept_fall {s₀ s : State} (hk : Kept s₀ s) (cause : Nat) : Kept s₀ (State.fall s cause) := by
  unfold State.fall
  repeat' first
    | with_reducible exact hk
    | (simp +contextual (maxDischargeDepth := 60) only [kept_takeRailCfg, kept_fallNext, kept_stopClock, kept_setB, kept_setSeq, kept_setF, kept_domainsLost, kept_vreqAbandon, kept_cause, hk, kept_mk]; done)
    | with_reducible refine kept_ite (fun _ => ?_) (fun _ => ?_)
    | with_reducible refine kept_foldl _ (fun s hk x => ?_) ?_
    | with_reducible dsimp only
    | (with_reducible split)

theorem kept_railFail {s₀ s : State} (hk : Kept s₀ s) (i : Nat) (cause : Nat) : Kept s₀ (State.railFail s i cause) := by
  unfold State.railFail
  repeat' first
    | with_reducible exact hk
    | (simp +contextual (maxDischargeDepth := 60) only [kept_fall, kept_setF, kept_cause, hk, kept_mk]; done)
    | with_reducible refine kept_ite (fun _ => ?_) (fun _ => ?_)
    | with_reducible refine kept_foldl _ (fun s hk x => ?_) ?_
    | with_reducible dsimp only
    | (with_reducible split)

theorem kept_thermalFall {s₀ s : State} (hk : Kept s₀ s)  : Kept s₀ (State.thermalFall s) := by
  unfold State.thermalFall
  repeat' first
    | with_reducible exact hk
    | (simp +contextual (maxDischargeDepth := 60) only [kept_fall, hk, kept_ite, kept_mk]; done)
    | with_reducible refine kept_ite (fun _ => ?_) (fun _ => ?_)
    | with_reducible refine kept_foldl _ (fun s hk x => ?_) ?_
    | with_reducible dsimp only
    | (with_reducible split)

theorem kept_railGood {s₀ s : State} (hk : Kept s₀ s)  : Kept s₀ (State.railGood s) := by
  unfold State.railGood
  repeat' first
    | with_reducible exact hk
    | (simp +contextual (maxDischargeDepth := 60) only [kept_setB, kept_setSeq, hk, kept_ite, kept_mk]; done)
    | with_reducible refine kept_ite (fun _ => ?_) (fun _ => ?_)
    | with_reducible refine kept_foldl _ (fun s hk x => ?_) ?_
    | with_reducible dsimp only
    | (with_reducible split)

theorem kept_pgSamples {s₀ s : State} (hk : Kept s₀ s) (i : Nat) (ls : List Bool) : Kept s₀ (State.pgSamples s i ls) := by
  unfold State.pgSamples
  repeat' first
    | with_reducible exact hk
    | (simp +contextual (maxDischargeDepth := 60) only [kept_setB, hk, kept_mk]; done)
    | with_reducible refine kept_ite (fun _ => ?_) (fun _ => ?_)
    | with_reducible refine kept_foldl _ (fun s hk x => ?_) ?_
    | with_reducible dsimp only
    | (with_reducible split)

theorem kept_vinSamples {s₀ s : State} (hk : Kept s₀ s) (ls : List (Bool × Nat)) : Kept s₀ (State.vinSamples s ls).2 := by
  unfold State.vinSamples
  repeat' first
    | with_reducible exact hk
    | (simp +contextual (maxDischargeDepth := 60) only [kept_setB, hk, kept_mk, kept_mkFilter]; done)
    | with_reducible refine kept_ite (fun _ => ?_) (fun _ => ?_)
    | with_reducible refine kept_foldl _ (fun s hk x => ?_) ?_
    | with_reducible dsimp only
    | (with_reducible split)

theorem kept_standbyReset {s₀ s : State} (hk : Kept s₀ s)  : Kept s₀ (State.standbyReset s) := by
  unfold State.standbyReset
  repeat' first
    | with_reducible exact hk
    | (simp +contextual (maxDischargeDepth := 60) only [kept_resetRegs, kept_setB, kept_setF, hk, kept_mk]; done)
    | with_reducible refine kept_ite (fun _ => ?_) (fun _ => ?_)
    | with_reducible refine kept_foldl _ (fun s hk x => ?_) ?_
    | with_reducible dsimp only
    | (with_reducible split)

theorem kept_stepReady {s₀ s : State} (hk : Kept s₀ s) (d : Nat) : Kept s₀ (State.stepReady s d) := by
  unfold State.stepReady
  repeat' first
    | with_reducible exact hk
    | (simp +contextual (maxDischargeDepth := 60) only [kept_upReady, kept_downReady, kept_thermalFall, kept_domMoved, hk, kept_ite, kept_mk]; done)
    | with_reducible refine kept_ite (fun _ => ?_) (fun _ => ?_)
    | with_reducible refine kept_foldl _ (fun s hk x => ?_) ?_
    | with_reducible dsimp only
    | (with_reducible split)

theorem kept_wakeEvent {s₀ s : State} (hk : Kept s₀ s) (d : Nat) : Kept s₀ (State.wakeEvent s d) := by
  unfold State.wakeEvent
  repeat' first
    | with_reducible exact hk
    | (simp +contextual (maxDischargeDepth := 60) only [kept_crst, hk, kept_ite, kept_mk]; done)
    | with_reducible refine kept_ite (fun _ => ?_) (fun _ => ?_)
    | with_reducible refine kept_foldl _ (fun s hk x => ?_) ?_
    | with_reducible dsimp only
    | (with_reducible split)

theorem kept_vreqStart {s₀ s : State} (hk : Kept s₀ s) (w : Word) : Kept s₀ (State.vreqStart s w) := by
  unfold State.vreqStart
  repeat' first
    | with_reducible exact hk
    | (simp +contextual (maxDischargeDepth := 60) only [kept_setReg, kept_setB, kept_setF, hk, kept_ite, kept_mk]; done)
    | with_reducible refine kept_ite (fun _ => ?_) (fun _ => ?_)
    | with_reducible refine kept_foldl _ (fun s hk x => ?_) ?_
    | with_reducible dsimp only
    | (with_reducible split)

end Sys2Proof.Machine
end

