-- ==== Sys2Proof/Laws/KeptPlt.lean ====
section
/-! SUPPORT. What the operations of Machine/Plt.lean keep of a state. -/

namespace Sys2Proof.Machine

theorem kept_setAcc {s₀ s : State} (hk : Kept s₀ s) (ini : Nat) (r : AccResult) : Kept s₀ (State.setAcc s ini r) := by
  unfold State.setAcc
  repeat' first
    | with_reducible exact hk
    | (simp +contextual (maxDischargeDepth := 60) only [hk, kept_mk]; done)
    | with_reducible refine kept_ite (fun _ => ?_) (fun _ => ?_)
    | with_reducible refine kept_foldl _ (fun s hk x => ?_) ?_
    | with_reducible dsimp only
    | (with_reducible split)

theorem kept_setPltCh {s₀ s : State} (hk : Kept s₀ s) (c : Nat) (q : PltCh) : Kept s₀ (State.setPltCh s c q) := by
  unfold State.setPltCh
  repeat' first
    | with_reducible exact hk
    | (simp +contextual (maxDischargeDepth := 60) only [hk, kept_mk]; done)
    | with_reducible refine kept_ite (fun _ => ?_) (fun _ => ?_)
    | with_reducible refine kept_foldl _ (fun s hk x => ?_) ?_
    | with_reducible dsimp only
    | (with_reducible split)

theorem kept_pltArr {s₀ s : State} (hk : Kept s₀ s) (c : Nat) : Kept s₀ (State.pltArr s c) := by
  unfold State.pltArr
  repeat' first
    | with_reducible exact hk
    | (simp +contextual (maxDischargeDepth := 60) only [kept_setB, implies_true, forall_const, hk, kept_ite, kept_foldl]; done)
    | with_reducible refine kept_ite (fun _ => ?_) (fun _ => ?_)
    | with_reducible refine kept_foldl _ (fun s hk x => ?_) ?_
    | with_reducible dsimp only
    | (with_reducible split)

theorem kept_pltRefuse {s₀ s : State} (hk : Kept s₀ s) (c : Nat) (bit : Nat) (ev : Nat) : Kept s₀ (State.pltRefuse s c bit ev) := by
  unfold State.pltRefuse
  repeat' first
    | with_reducible exact hk
    | (simp +contextual (maxDischargeDepth := 60) only [kept_setB, kept_setF, kept_raise, hk]; done)
    | with_reducible refine kept_ite (fun _ => ?_) (fun _ => ?_)
    | with_reducible refine kept_foldl _ (fun s hk x => ?_) ?_
    | with_reducible dsimp only
    | (with_reducible split)

theorem kept_pltTx {s₀ s : State} (hk : Kept s₀ s) (e : Option Nat) (c : Nat) (w : Word) : Kept s₀ (State.pltTx s e c w) := by
  unfold State.pltTx
  repeat' first
    | with_reducible exact hk
    | (simp +contextual (maxDischargeDepth := 60) only [kept_incSat, kept_pltRefuse, hk, kept_ite, kept_mk]; done)
    | with_reducible refine kept_ite (fun _ => ?_) (fun _ => ?_)
    | with_reducible refine kept_foldl _ (fun s hk x => ?_) ?_
    | with_reducible dsimp only
    | (with_reducible split)

theorem kept_pltDrop {s₀ s : State} (hk : Kept s₀ s) (e : Nat) (c : Nat) (n : Nat) : Kept s₀ (State.pltDrop s e c n) := by
  unfold State.pltDrop
  repeat' first
    | with_reducible exact hk
    | (simp +contextual (maxDischargeDepth := 60) only [kept_setPltCh, kept_pltArr, kept_sendUnicast, hk, kept_ite, kept_mk]; done)
    | with_reducible refine kept_ite (fun _ => ?_) (fun _ => ?_)
    | with_reducible refine kept_foldl _ (fun s hk x => ?_) ?_
    | with_reducible dsimp only
    | (with_reducible split)

theorem kept_pltPop {s₀ s : State} (hk : Kept s₀ s) (e : Option Nat) (c : Nat) (n : Nat) : Kept s₀ (State.pltPop s e c n) := by
  unfold State.pltPop
  repeat' first
    | with_reducible exact hk
    | (simp +contextual (maxDischargeDepth := 60) only [kept_pltRefuse, kept_pltDrop, hk, kept_mk]; done)
    | with_reducible refine kept_ite (fun _ => ?_) (fun _ => ?_)
    | with_reducible refine kept_foldl _ (fun s hk x => ?_) ?_
    | with_reducible dsimp only
    | (with_reducible split)

theorem kept_pltRx {s₀ s : State} (hk : Kept s₀ s) (e : Option Nat) (c : Nat) (i : Nat) : Kept s₀ (State.pltRx s e c i).2 := by
  unfold State.pltRx
  repeat' first
    | with_reducible exact hk
    | (simp +contextual (maxDischargeDepth := 60) only [kept_pltRefuse, hk, kept_mk]; done)
    | with_reducible refine kept_ite (fun _ => ?_) (fun _ => ?_)
    | with_reducible refine kept_foldl _ (fun s hk x => ?_) ?_
    | with_reducible dsimp only
    | (with_reducible split)

theorem kept_pltCfg {s₀ s : State} (hk : Kept s₀ s) (c : Nat) (w : Word) : Kept s₀ (State.pltCfg s c w) := by
  unfold State.pltCfg
  repeat' first
    | with_reducible exact hk
    | (simp +contextual (maxDischargeDepth := 60) only [kept_raise, kept_pltArr, kept_setReg, hk, kept_ite]; done)
    | with_reducible refine kept_ite (fun _ => ?_) (fun _ => ?_)
    | with_reducible refine kept_foldl _ (fun s hk x => ?_) ?_
    | with_reducible dsimp only
    | (with_reducible split)

theorem kept_pltArrive {s₀ s : State} (hk : Kept s₀ s) (w : PltFly) : Kept s₀ (State.pltArrive s w) := by
  unfold State.pltArrive
  repeat' first
    | with_reducible exact hk
    | (simp +contextual (maxDischargeDepth := 60) only [kept_setPltCh, kept_pltArr, kept_wakeEvent, hk, kept_ite, kept_mk]; done)
    | with_reducible refine kept_ite (fun _ => ?_) (fun _ => ?_)
    | with_reducible refine kept_foldl _ (fun s hk x => ?_) ?_
    | with_reducible dsimp only
    | (with_reducible split)

end Sys2Proof.Machine
end

