-- ==== Sys2Proof/Laws/KeptLineNet.lean ====
section
/-! SUPPORT. What the operations of Machine/LineNet.lean keep of a state. -/

namespace Sys2Proof.Machine

theorem kept_setTime {s₀ s : State} (hk : Kept s₀ s) (n : Nat) : Kept s₀ (State.setTime s n) := by
  unfold State.setTime
  repeat' first
    | with_reducible exact hk
    | (simp +contextual (maxDischargeDepth := 60) only [kept_setF, hk]; done)
    | with_reducible refine kept_ite (fun _ => ?_) (fun _ => ?_)
    | with_reducible refine kept_foldl _ (fun s hk x => ?_) ?_
    | with_reducible dsimp only
    | (with_reducible split)

theorem kept_lineEnable {s₀ s : State} (hk : Kept s₀ s) (en : Bool) : Kept s₀ (State.lineEnable s en) := by
  unfold State.lineEnable
  repeat' first
    | with_reducible exact hk
    | (simp +contextual (maxDischargeDepth := 60) only [kept_setPort, kept_setB, kept_movePort, implies_true, forall_const, hk, kept_ite, kept_foldl]; done)
    | with_reducible refine kept_ite (fun _ => ?_) (fun _ => ?_)
    | with_reducible refine kept_foldl _ (fun s hk x => ?_) ?_
    | with_reducible dsimp only
    | (with_reducible split)

theorem kept_sendJoin {s₀ s : State} (hk : Kept s₀ s)  : Kept s₀ (State.sendJoin s) := by
  unfold State.sendJoin
  repeat' first
    | with_reducible exact hk
    | (simp +contextual (maxDischargeDepth := 60) only [kept_setPort, kept_originate, kept_drainPort, implies_true, forall_const, hk, kept_ite, kept_foldl, kept_mk]; done)
    | with_reducible refine kept_ite (fun _ => ?_) (fun _ => ?_)
    | with_reducible refine kept_foldl _ (fun s hk x => ?_) ?_
    | with_reducible dsimp only
    | (with_reducible split)

theorem kept_noteFrame {s₀ s : State} (hk : Kept s₀ s) (p : Nat) (bad : Bool) : Kept s₀ (State.noteFrame s p bad) := by
  unfold State.noteFrame
  repeat' first
    | with_reducible exact hk
    | (simp +contextual (maxDischargeDepth := 60) only [kept_setPort, kept_take, hk, kept_mk]; done)
    | with_reducible refine kept_ite (fun _ => ?_) (fun _ => ?_)
    | with_reducible refine kept_foldl _ (fun s hk x => ?_) ?_
    | with_reducible dsimp only
    | (with_reducible split)

theorem kept_setPeer {s₀ s : State} (hk : Kept s₀ s) (d : Nat) (x : Peer) : Kept s₀ (State.setPeer s d x) := by
  unfold State.setPeer
  repeat' first
    | with_reducible exact hk
    | (simp +contextual (maxDischargeDepth := 60) only [hk, kept_mk]; done)
    | with_reducible refine kept_ite (fun _ => ?_) (fun _ => ?_)
    | with_reducible refine kept_foldl _ (fun s hk x => ?_) ?_
    | with_reducible dsimp only
    | (with_reducible split)

theorem kept_forward {s₀ s : State} (hk : Kept s₀ s) (p : Nat) (f : Frame) : Kept s₀ (State.forward s p f) := by
  unfold State.forward
  repeat' first
    | with_reducible exact hk
    | (simp +contextual (maxDischargeDepth := 60) only [kept_incSat, kept_queueFrame, hk, kept_ite, kept_mk]; done)
    | with_reducible refine kept_ite (fun _ => ?_) (fun _ => ?_)
    | with_reducible refine kept_foldl _ (fun s hk x => ?_) ?_
    | with_reducible dsimp only
    | (with_reducible split)

theorem kept_unicast {s₀ s : State} (hk : Kept s₀ s) (p : Nat) (f : Frame) (deliver : State → State) (h_deliver : ∀ z, Kept s₀ z → Kept s₀ (deliver z)) : Kept s₀ (State.unicast s p f deliver) := by
  unfold State.unicast
  repeat' first
    | with_reducible exact hk
    | (simp +contextual (maxDischargeDepth := 60) only [h_deliver, kept_setPeer, kept_forward, kept_incSat, kept_noteFrame, implies_true, forall_const, hk, kept_ite, kept_mk]; done)
    | with_reducible refine kept_ite (fun _ => ?_) (fun _ => ?_)
    | with_reducible refine kept_foldl _ (fun s hk x => ?_) ?_
    | with_reducible dsimp only
    | (with_reducible split)

theorem kept_broadcast {s₀ s : State} (hk : Kept s₀ s) (p : Nat) (f : Frame) (deliver : State → State) (h_deliver : ∀ z, Kept s₀ z → Kept s₀ (deliver z)) : Kept s₀ (State.broadcast s p f deliver) := by
  unfold State.broadcast
  repeat' first
    | with_reducible exact hk
    | (simp +contextual (maxDischargeDepth := 60) only [h_deliver, kept_forward, kept_noteFrame, implies_true, forall_const, hk, kept_ite]; done)
    | with_reducible refine kept_ite (fun _ => ?_) (fun _ => ?_)
    | with_reducible refine kept_foldl _ (fun s hk x => ?_) ?_
    | with_reducible dsimp only
    | (with_reducible split)

theorem kept_joined {s₀ s : State} (hk : Kept s₀ s) (d : Nat) (inc : Nat) : Kept s₀ (State.joined s d inc) := by
  unfold State.joined
  repeat' first
    | with_reducible exact hk
    | (simp +contextual (maxDischargeDepth := 60) only [kept_setPeer, kept_setB, hk, kept_ite, kept_mk, kept_mkFilter]; done)
    | with_reducible refine kept_ite (fun _ => ?_) (fun _ => ?_)
    | with_reducible refine kept_foldl _ (fun s hk x => ?_) ?_
    | with_reducible dsimp only
    | (with_reducible split)

theorem kept_setRate {s₀ s : State} (hk : Kept s₀ s) (r : Int) : Kept s₀ (State.setRate s r) := by
  unfold State.setRate
  repeat' first
    | with_reducible exact hk
    | (simp +contextual (maxDischargeDepth := 60) only [kept_setReg, hk]; done)
    | with_reducible refine kept_ite (fun _ => ?_) (fun _ => ?_)
    | with_reducible refine kept_foldl _ (fun s hk x => ?_) ?_
    | with_reducible dsimp only
    | (with_reducible split)

theorem kept_takeSync {s₀ s : State} (hk : Kept s₀ s) (p origin h : Nat) (e : Int) :
    Kept s₀ (s.takeSync p origin h e) := by
  unfold State.takeSync
  extract_lets s1 s2 l3 s3 st near n q1 q2 q3 q4 q5 s4 s5 big tb ck ln s7 l8 s8
  have h3 : Kept s₀ s3 := kept_mk (kept_setReg (kept_setReg hk _ _) _ _) rfl rfl rfl rfl
  have h4 : Kept s₀ s4 := by
    refine kept_ite (fun _ => kept_mk (kept_setTime h3 _) rfl rfl rfl rfl) (fun _ => kept_ite (fun _ => ?_) (fun _ => ?_))
    · have hb : Kept s₀ q4 := kept_mk h3 rfl rfl rfl rfl
      exact kept_ite (fun _ => kept_setB (kept_setTime hb _) _ _ _) (fun _ => hb)
    · exact kept_ite (fun _ => kept_mk (kept_lineEvent (kept_setTime h3 _) _) rfl rfl rfl rfl) (fun _ => h3)
  clear_value s4
  have h5 : Kept s₀ s5 := kept_ite (fun _ => kept_lineEvent h4 _) (fun _ => h4)
  clear_value s5
  have h7 : Kept s₀ s7 := kept_ite (fun _ => kept_setB h5 _ _ _) (fun _ => h5)
  have h8 : Kept s₀ s8 := kept_mk h7 rfl rfl rfl rfl
  refine kept_ite (fun _ => ?_) (fun _ => kept_setRate h8 _)
  obtain ⟨p, d, m, r, c, l, b⟩ := h5
  exact ⟨p, d, m, r, fun h => ⟨(Nat.add_mul_mod_self_left _ _ _).trans (c h).1, (c h).2⟩, l, b⟩

theorem kept_lineMaster {s₀ s : State} (hk : Kept s₀ s) (on : Bool) : Kept s₀ (State.lineMaster s on) := by
  unfold State.lineMaster
  repeat' first
    | with_reducible exact hk
    | (simp +contextual (maxDischargeDepth := 60) only [kept_setRate, kept_setTime, kept_setB, kept_raise, hk, kept_ite]; done)
    | with_reducible refine kept_ite (fun _ => ?_) (fun _ => ?_)
    | with_reducible refine kept_foldl _ (fun s hk x => ?_) ?_
    | with_reducible dsimp only
    | (with_reducible split)

theorem kept_applyPublish {s₀ s : State} (hk : Kept s₀ s) (id : Nat) (v : Word) : Kept s₀ (State.applyPublish s id v) := by
  unfold State.applyPublish
  repeat' first
    | with_reducible exact hk
    | (simp +contextual (maxDischargeDepth := 60) only [kept_setReg, kept_setB, implies_true, forall_const, hk, kept_ite, kept_foldl]; done)
    | with_reducible refine kept_ite (fun _ => ?_) (fun _ => ?_)
    | with_reducible refine kept_foldl _ (fun s hk x => ?_) ?_
    | with_reducible dsimp only
    | (with_reducible split)

theorem kept_subWrite {s₀ s : State} (hk : Kept s₀ s) (j : Nat) (w : Word) : Kept s₀ (State.subWrite s j w) := by
  unfold State.subWrite
  repeat' first
    | with_reducible exact hk
    | (simp +contextual (maxDischargeDepth := 60) only [kept_setReg, hk]; done)
    | with_reducible refine kept_ite (fun _ => ?_) (fun _ => ?_)
    | with_reducible refine kept_foldl _ (fun s hk x => ?_) ?_
    | with_reducible dsimp only
    | (with_reducible split)

theorem kept_handFault {s₀ s : State} (hk : Kept s₀ s) (payload : Nat) : Kept s₀ (State.handFault s payload) := by
  unfold State.handFault
  repeat' first
    | with_reducible exact hk
    | (simp +contextual (maxDischargeDepth := 60) only [hk, kept_mk]; done)
    | with_reducible refine kept_ite (fun _ => ?_) (fun _ => ?_)
    | with_reducible refine kept_foldl _ (fun s hk x => ?_) ?_
    | with_reducible dsimp only
    | (with_reducible split)

theorem kept_setLink {s₀ s : State} (hk : Kept s₀ s) (c : Nat) (x : PltLink) : Kept s₀ (State.setLink s c x) := by
  unfold State.setLink
  repeat' first
    | with_reducible exact hk
    | (simp +contextual (maxDischargeDepth := 60) only [hk, kept_mk]; done)
    | with_reducible refine kept_ite (fun _ => ?_) (fun _ => ?_)
    | with_reducible refine kept_foldl _ (fun s hk x => ?_) ?_
    | with_reducible dsimp only
    | (with_reducible split)

end Sys2Proof.Machine
end

