-- ==== Sys2Proof/Laws/KeptSignalBox.lean ====
section
/-! SUPPORT. What the operations of Machine/SignalBox.lean keep of a state. -/

namespace Sys2Proof.Machine

theorem kept_setBit64 {s₀ s : State} (hk : Kept s₀ s) (lo : Nat) (hi : Nat) (i : Nat) (b : Bool) : Kept s₀ (State.setBit64 s lo hi i b) := by
  unfold State.setBit64
  repeat' first
    | with_reducible exact hk
    | (simp +contextual (maxDischargeDepth := 60) only [kept_setB, hk, kept_ite]; done)
    | with_reducible refine kept_ite (fun _ => ?_) (fun _ => ?_)
    | with_reducible refine kept_foldl _ (fun s hk x => ?_) ?_
    | with_reducible dsimp only
    | (with_reducible split)

theorem kept_errPin {s₀ s : State} (hk : Kept s₀ s)  : Kept s₀ (State.errPin s) := by
  unfold State.errPin
  repeat' first
    | with_reducible exact hk
    | (simp +contextual (maxDischargeDepth := 60) only [hk, kept_ite, kept_mk]; done)
    | with_reducible refine kept_ite (fun _ => ?_) (fun _ => ?_)
    | with_reducible refine kept_foldl _ (fun s hk x => ?_) ?_
    | with_reducible dsimp only
    | (with_reducible split)

theorem kept_nmiSettle {s₀ s : State} (hk : Kept s₀ s)  : Kept s₀ (State.nmiSettle s) := by
  unfold State.nmiSettle
  repeat' first
    | with_reducible exact hk
    | (simp +contextual (maxDischargeDepth := 60) only [kept_setB, hk, kept_mk, kept_mkFilter]; done)
    | with_reducible refine kept_ite (fun _ => ?_) (fun _ => ?_)
    | with_reducible refine kept_foldl _ (fun s hk x => ?_) ?_
    | with_reducible dsimp only
    | (with_reducible split)

theorem kept_sbxStep1 {s₀ s : State} (hk : Kept s₀ s)  : Kept s₀ (State.sbxStep1 s) := by
  unfold State.sbxStep1
  repeat' first
    | with_reducible exact hk
    | (simp +contextual (maxDischargeDepth := 60) only [kept_setBit64, kept_nmiSettle, implies_true, forall_const, hk, kept_ite, kept_foldl, kept_mk]; done)
    | with_reducible refine kept_ite (fun _ => ?_) (fun _ => ?_)
    | with_reducible refine kept_foldl _ (fun s hk x => ?_) ?_
    | with_reducible dsimp only
    | (with_reducible split)

theorem kept_deliverNmi {s₀ s : State} (hk : Kept s₀ s) (src : Nat) : Kept s₀ (State.deliverNmi s src) := by
  unfold State.deliverNmi
  repeat' first
    | with_reducible exact hk
    | (simp +contextual (maxDischargeDepth := 60) only [kept_setB, kept_setF, implies_true, forall_const, hk, kept_foldl, kept_mk]; done)
    | with_reducible refine kept_ite (fun _ => ?_) (fun _ => ?_)
    | with_reducible refine kept_foldl _ (fun s hk x => ?_) ?_
    | with_reducible dsimp only
    | (with_reducible split)

theorem kept_chipReset {s₀ s : State} (hk : Kept s₀ s) (src : Nat) (ev : Nat) (nested : Bool) : Kept s₀ (State.chipReset s src ev nested) := by
  unfold State.chipReset
  repeat' first
    | with_reducible exact hk
    | (simp +contextual (maxDischargeDepth := 60) only [kept_setReg, kept_resetMark, hk, kept_ite, kept_mk]; done)
    | with_reducible refine kept_ite (fun _ => ?_) (fun _ => ?_)
    | with_reducible refine kept_foldl _ (fun s hk x => ?_) ?_
    | with_reducible dsimp only
    | (with_reducible split)

theorem kept_sbxBrst {s₀ s : State} (hk : Kept s₀ s) (src : Nat) : Kept s₀ (State.sbxBrst s src) := by
  unfold State.sbxBrst
  repeat' first
    | with_reducible exact hk
    | (simp +contextual (maxDischargeDepth := 60) only [kept_setBit64, kept_brst, hk, kept_mk, kept_mkFilter]; done)
    | with_reducible refine kept_ite (fun _ => ?_) (fun _ => ?_)
    | with_reducible refine kept_foldl _ (fun s hk x => ?_) ?_
    | with_reducible dsimp only
    | (with_reducible split)

theorem kept_histWrite {s₀ s : State} (hk : Kept s₀ s) (ts : Nat) (info : Nat) (org : Nat) : Kept s₀ (State.histWrite s ts info org) := by
  unfold State.histWrite
  repeat' first
    | with_reducible exact hk
    | (simp +contextual (maxDischargeDepth := 60) only [kept_setF, kept_setReg, kept_incSat, hk]; done)
    | with_reducible refine kept_ite (fun _ => ?_) (fun _ => ?_)
    | with_reducible refine kept_foldl _ (fun s hk x => ?_) ?_
    | with_reducible dsimp only
    | (with_reducible split)

theorem kept_sbxEnter {s₀ s : State} (hk : Kept s₀ s) (src : Nat) (ts : Tick) : Kept s₀ (State.sbxEnter s src ts) := by
  unfold State.sbxEnter
  repeat' first
    | with_reducible exact hk
    | (simp +contextual (maxDischargeDepth := 60) only [kept_setBit64, kept_incSat, hk, kept_mk]; done)
    | with_reducible refine kept_ite (fun _ => ?_) (fun _ => ?_)
    | with_reducible refine kept_foldl _ (fun s hk x => ?_) ?_
    | with_reducible dsimp only
    | (with_reducible split)

theorem kept_emitFault {s₀ s : State} (hk : Kept s₀ s) (src : Nat) (ev : Nat) (merged : Bool) : Kept s₀ (State.emitFault s src ev merged) := by
  unfold State.emitFault
  repeat' first
    | with_reducible exact hk
    | (simp +contextual (maxDischargeDepth := 60) only [kept_setF, kept_originate, kept_incSat, hk, kept_ite, kept_mk]; done)
    | with_reducible refine kept_ite (fun _ => ?_) (fun _ => ?_)
    | with_reducible refine kept_foldl _ (fun s hk x => ?_) ?_
    | with_reducible dsimp only
    | (with_reducible split)

theorem kept_sbxEmit {s₀ s : State} (hk : Kept s₀ s) (src : Nat) (ev : Nat) : Kept s₀ (State.sbxEmit s src ev) := by
  unfold State.sbxEmit
  repeat' first
    | with_reducible exact hk
    | (simp +contextual (maxDischargeDepth := 60) only [kept_emitFault, hk, kept_ite, kept_mk]; done)
    | with_reducible refine kept_ite (fun _ => ?_) (fun _ => ?_)
    | with_reducible refine kept_foldl _ (fun s hk x => ?_) ?_
    | with_reducible dsimp only
    | (with_reducible split)

theorem kept_takeBrstReq {s₀ s : State} (hk : Kept s₀ s) (src : Nat) : Kept s₀ (State.takeBrstReq s src) := by
  unfold State.takeBrstReq
  repeat' first
    | with_reducible exact hk
    | (simp +contextual (maxDischargeDepth := 60) only [kept_setB, kept_sbxBrst, hk, kept_ite]; done)
    | with_reducible refine kept_ite (fun _ => ?_) (fun _ => ?_)
    | with_reducible refine kept_foldl _ (fun s hk x => ?_) ?_
    | with_reducible dsimp only
    | (with_reducible split)

theorem kept_react {s₀ s : State} (hk : Kept s₀ s) (src ev act : Nat) (rep : Bool) :
    Kept s₀ (s.react src ev act rep).s := by
  unfold State.react
  split
  · exact hk
  split
  · exact kept_chipReset hk _ _ _
  split
  · exact kept_chipReset hk _ _ _
  split
  · exact hk
  split
  · exact kept_deliverNmi hk _
  split
  · split
    · exact hk
    · exact kept_sbxBrst hk _
  · exact hk

theorem kept_takeEvent {s₀ s : State} (hk : Kept s₀ s) (e : Raised) : Kept s₀ (s.takeEvent e) := by
  unfold State.takeEvent
  refine kept_ite (fun _ => kept_takeBrstReq hk _) (fun _ => kept_ite (fun _ => kept_incSat hk _ _ _ _) (fun _ =>
    kept_ite (fun _ => kept_incSat (kept_histWrite hk _ _ _) _ _ _ _) (fun _ => ?_)))
  exact kept_errPin (kept_sbxEmit (kept_histWrite (kept_react (kept_sbxEnter hk _ _) _ _ _ _) _ _ _) _ _)

theorem kept_brstRequest {s₀ s : State} (hk : Kept s₀ s) (w : Word) : Kept s₀ (State.brstRequest s w) := by
  unfold State.brstRequest
  repeat' first
    | with_reducible exact hk
    | (simp +contextual (maxDischargeDepth := 60) only [kept_brst, hk, kept_mk]; done)
    | with_reducible refine kept_ite (fun _ => ?_) (fun _ => ?_)
    | with_reducible refine kept_foldl _ (fun s hk x => ?_) ?_
    | with_reducible dsimp only
    | (with_reducible split)

theorem kept_sbxExit {s₀ s : State} (hk : Kept s₀ s) (src : Nat) : Kept s₀ (State.sbxExit s src) := by
  unfold State.sbxExit
  repeat' first
    | with_reducible exact hk
    | (simp +contextual (maxDischargeDepth := 60) only [kept_setBit64, kept_errPin, kept_incSat, hk]; done)
    | with_reducible refine kept_ite (fun _ => ?_) (fun _ => ?_)
    | with_reducible refine kept_foldl _ (fun s hk x => ?_) ?_
    | with_reducible dsimp only
    | (with_reducible split)

theorem kept_activeWrite {s₀ s : State} (hk : Kept s₀ s) (hi : Bool) (w : Word) : Kept s₀ (State.activeWrite s hi w) := by
  unfold State.activeWrite
  repeat' first
    | with_reducible exact hk
    | (simp +contextual (maxDischargeDepth := 60) only [kept_sbxExit, implies_true, forall_const, hk, kept_ite, kept_foldl]; done)
    | with_reducible refine kept_ite (fun _ => ?_) (fun _ => ?_)
    | with_reducible refine kept_foldl _ (fun s hk x => ?_) ?_
    | with_reducible dsimp only
    | (with_reducible split)

theorem kept_histRead {s₀ s : State} (hk : Kept s₀ s) (port : Nat) (i : Nat) : Kept s₀ (State.histRead s port i).2 := by
  unfold State.histRead
  repeat' first
    | with_reducible exact hk
    | (simp +contextual (maxDischargeDepth := 60) only [kept_hold, hk, kept_mk]; done)
    | with_reducible refine kept_ite (fun _ => ?_) (fun _ => ?_)
    | with_reducible refine kept_foldl _ (fun s hk x => ?_) ?_
    | with_reducible dsimp only
    | (with_reducible split)

theorem kept_reactRemote {s₀ s : State} (hk : Kept s₀ s) (ev act : Nat) : Kept s₀ (s.reactRemote ev act).s := by
  unfold State.reactRemote
  split
  · exact hk
  split
  · split
    · exact kept_incSat hk _ _ _ _
    split
    · exact kept_chipReset hk _ _ _
    · exact kept_deliverNmi hk _
  · exact hk

theorem kept_remoteNew {s₀ s : State} (hk : Kept s₀ s) (at' : Tick) (p : Nat) : Kept s₀ (s.remoteNew at' p) := by
  unfold State.remoteNew
  exact kept_errPin (kept_histWrite (kept_reactRemote (kept_sbxEnter (kept_incSat hk _ _ _ _) _ _) _ _) _ _ _)

theorem kept_takeRemote {s₀ s : State} (hk : Kept s₀ s) (m : RemoteFault) : Kept s₀ (State.takeRemote s m) := by
  unfold State.takeRemote
  repeat' first
    | with_reducible exact hk
    | (simp +contextual (maxDischargeDepth := 60) only [kept_setReg, kept_remoteNew, kept_incSat, hk, kept_ite]; done)
    | with_reducible refine kept_ite (fun _ => ?_) (fun _ => ?_)
    | with_reducible refine kept_foldl _ (fun s hk x => ?_) ?_
    | with_reducible dsimp only
    | (with_reducible split)

theorem kept_originWrite {s₀ s : State} (hk : Kept s₀ s) (d : Nat) (w : Word) : Kept s₀ (State.originWrite s d w) := by
  unfold State.originWrite
  repeat' first
    | with_reducible exact hk
    | (simp +contextual (maxDischargeDepth := 60) only [kept_setB, hk, kept_ite]; done)
    | with_reducible refine kept_ite (fun _ => ?_) (fun _ => ?_)
    | with_reducible refine kept_foldl _ (fun s hk x => ?_) ?_
    | with_reducible dsimp only
    | (with_reducible split)

theorem kept_srcCfgWrite {s₀ s : State} (hk : Kept s₀ s) (i : Nat) (w : Word) : Kept s₀ (State.srcCfgWrite s i w) := by
  unfold State.srcCfgWrite
  repeat' first
    | with_reducible exact hk
    | (simp +contextual (maxDischargeDepth := 60) only [kept_setReg, kept_errPin, hk, kept_ite]; done)
    | with_reducible refine kept_ite (fun _ => ?_) (fun _ => ?_)
    | with_reducible refine kept_foldl _ (fun s hk x => ?_) ?_
    | with_reducible dsimp only
    | (with_reducible split)

end Sys2Proof.Machine
end

