-- ==== Sys2Proof/Laws/KeptBackground.lean ====
section
/-! SUPPORT. What the operations of Machine/Background.lean keep of a state. -/

namespace Sys2Proof.Machine

theorem kept_bkgEvent {s₀ s : State} (hk : Kept s₀ s) (e : Nat) : Kept s₀ (State.bkgEvent s e) := by
  unfold State.bkgEvent
  repeat' first
    | with_reducible exact hk
    | (simp +contextual (maxDischargeDepth := 60) only [kept_raise, kept_setB, hk]; done)
    | with_reducible refine kept_ite (fun _ => ?_) (fun _ => ?_)
    | with_reducible refine kept_foldl _ (fun s hk x => ?_) ?_
    | with_reducible dsimp only
    | (with_reducible split)

theorem kept_repairRow {s₀ s : State} (hk : Kept s₀ s) (row : Nat) : Kept s₀ (State.repairRow s row) := by
  unfold State.repairRow
  repeat' first
    | with_reducible exact hk
    | (simp +contextual (maxDischargeDepth := 60) only [kept_bkgEvent, kept_ldgRecord, hk, kept_ite, kept_mk]; done)
    | with_reducible refine kept_ite (fun _ => ?_) (fun _ => ?_)
    | with_reducible refine kept_foldl _ (fun s hk x => ?_) ?_
    | with_reducible dsimp only
    | (with_reducible split)

theorem kept_scrubCor {s₀ s : State} (hk : Kept s₀ s) (a : Nat) : Kept s₀ (State.scrubCor s a) := by
  unfold State.scrubCor
  repeat' first
    | with_reducible exact hk
    | (simp +contextual (maxDischargeDepth := 60) only [kept_incSat, kept_repairRow, hk, kept_ite, kept_mk, kept_mkFilter]; done)
    | with_reducible refine kept_ite (fun _ => ?_) (fun _ => ?_)
    | with_reducible refine kept_foldl _ (fun s hk x => ?_) ?_
    | with_reducible dsimp only
    | (with_reducible split)

theorem kept_scrubUncor {s₀ s : State} (hk : Kept s₀ s) (a : Nat) : Kept s₀ (State.scrubUncor s a) := by
  unfold State.scrubUncor
  repeat' first
    | with_reducible exact hk
    | (simp +contextual (maxDischargeDepth := 60) only [kept_setReg, kept_bkgEvent, kept_incSat, kept_repairRow, hk, kept_ite, kept_mk]; done)
    | with_reducible refine kept_ite (fun _ => ?_) (fun _ => ?_)
    | with_reducible refine kept_foldl _ (fun s hk x => ?_) ?_
    | with_reducible dsimp only
    | (with_reducible split)

theorem kept_foldBases {s₀ s : State} (hk : Kept s₀ s) (st : Nat) : Kept s₀ (State.foldBases s st) := by
  unfold State.foldBases
  repeat' first
    | with_reducible exact hk
    | (simp +contextual (maxDischargeDepth := 60) only [implies_true, forall_const, hk, kept_ite, kept_foldl, kept_mk]; done)
    | with_reducible refine kept_ite (fun _ => ?_) (fun _ => ?_)
    | with_reducible refine kept_foldl _ (fun s hk x => ?_) ?_
    | with_reducible dsimp only
    | (with_reducible split)

theorem kept_foldStation {s₀ s : State} (hk : Kept s₀ s) (st : Nat) : Kept s₀ (State.foldStation s st) := by
  unfold State.foldStation
  repeat' first
    | with_reducible exact hk
    | (simp +contextual (maxDischargeDepth := 60) only [kept_foldBases, kept_ldgQueue, hk, kept_ite]; done)
    | with_reducible refine kept_ite (fun _ => ?_) (fun _ => ?_)
    | with_reducible refine kept_foldl _ (fun s hk x => ?_) ?_
    | with_reducible dsimp only
    | (with_reducible split)

theorem kept_foldDomain {s₀ s : State} (hk : Kept s₀ s) (d : Nat) : Kept s₀ (State.foldDomain s d) := by
  unfold State.foldDomain
  repeat' first
    | with_reducible exact hk
    | (simp +contextual (maxDischargeDepth := 60) only [kept_foldStation, hk]; done)
    | with_reducible refine kept_ite (fun _ => ?_) (fun _ => ?_)
    | with_reducible refine kept_foldl _ (fun s hk x => ?_) ?_
    | with_reducible dsimp only
    | (with_reducible split)

theorem kept_foldLast {s₀ s : State} (hk : Kept s₀ s) (d : Nat) : Kept s₀ (State.foldLast s d) := by
  unfold State.foldLast
  repeat' first
    | with_reducible exact hk
    | (simp +contextual (maxDischargeDepth := 60) only [kept_foldDomain, kept_setStep, hk, kept_ite, kept_mk]; done)
    | with_reducible refine kept_ite (fun _ => ?_) (fun _ => ?_)
    | with_reducible refine kept_foldl _ (fun s hk x => ?_) ?_
    | with_reducible dsimp only
    | (with_reducible split)

end Sys2Proof.Machine
end

