-- ==== Sys2Proof/Laws/KeptBus.lean ====
section
/-! SUPPORT. What the operations of Machine/Bus.lean keep of a state. -/

namespace Sys2Proof.Machine

theorem kept_cfgBusy {s₀ s : State} (hk : Kept s₀ s) (a : Nat) (i : Nat) : Kept s₀ (State.cfgBusy s a i) := by
  unfold State.cfgBusy
  repeat' first
    | with_reducible exact hk
    | (simp +contextual (maxDischargeDepth := 60) only [kept_raise, hk, kept_mk]; done)
    | with_reducible refine kept_ite (fun _ => ?_) (fun _ => ?_)
    | with_reducible refine kept_foldl _ (fun s hk x => ?_) ?_
    | with_reducible dsimp only
    | (with_reducible split)

theorem kept_storeReg {s₀ s : State} (hk : Kept s₀ s) (a : Nat) (d : RegDesc) (i : Nat) (j : Nat) (w : Word) : Kept s₀ (State.storeReg s a d i j w) := by
  unfold State.storeReg
  repeat' first
    | with_reducible exact hk
    | (simp +contextual (maxDischargeDepth := 60) only [kept_cfgBusy, kept_setReg, kept_hold, hk, kept_ite]; done)
    | with_reducible refine kept_ite (fun _ => ?_) (fun _ => ?_)
    | with_reducible refine kept_foldl _ (fun s hk x => ?_) ?_
    | with_reducible dsimp only
    | (with_reducible split)

theorem kept_wantSeq {s₀ s : State} (hk : Kept s₀ s) (p : Nat) : Kept s₀ (State.wantSeq s p) := by
  unfold State.wantSeq
  repeat' first
    | with_reducible exact hk
    | (simp +contextual (maxDischargeDepth := 60) only [kept_pwrPush, hk, kept_ite]; done)
    | with_reducible refine kept_ite (fun _ => ?_) (fun _ => ?_)
    | with_reducible refine kept_foldl _ (fun s hk x => ?_) ?_
    | with_reducible dsimp only
    | (with_reducible split)

theorem kept_bindCore {s₀ s : State} (hk : Kept s₀ s) (l : Nat) (p : Nat) : Kept s₀ (State.bindCore s l p) := by
  unfold State.bindCore
  repeat' first
    | with_reducible exact hk
    | (simp +contextual (maxDischargeDepth := 60) only [kept_wantSeq, kept_setReg, hk, kept_mk, kept_mkFilter]; done)
    | with_reducible refine kept_ite (fun _ => ?_) (fun _ => ?_)
    | with_reducible refine kept_foldl _ (fun s hk x => ?_) ?_
    | with_reducible dsimp only
    | (with_reducible split)

theorem kept_coreMapWrite {s₀ s : State} (hk : Kept s₀ s) (l : Nat) (w : Word) : Kept s₀ (State.coreMapWrite s l w) := by
  unfold State.coreMapWrite
  repeat' first
    | with_reducible exact hk
    | (simp +contextual (maxDischargeDepth := 60) only [kept_setReg, kept_bindCore, kept_raise, hk, kept_ite, kept_mk]; done)
    | with_reducible refine kept_ite (fun _ => ?_) (fun _ => ?_)
    | with_reducible refine kept_foldl _ (fun s hk x => ?_) ?_
    | with_reducible dsimp only
    | (with_reducible split)

/-- Every action of a list keeps. -/
def KeptActs (s₀ : State) (acts : List (Nat × (State → State))) : Prop :=
  ∀ p ∈ acts, ∀ z, Kept s₀ z → Kept s₀ (p.2 z)

theorem keptActs_nil {s₀ : State} : KeptActs s₀ [] := fun _ h => absurd h List.not_mem_nil

theorem keptActs_cons {s₀ : State} {i : Nat} {f : State → State} {t : List (Nat × (State → State))}
    (hf : ∀ z, Kept s₀ z → Kept s₀ (f z)) (ht : KeptActs s₀ t) : KeptActs s₀ ((i, f) :: t) := by
  intro p hp
  rcases List.mem_cons.1 hp with rfl | hp
  · exact hf
  · exact ht p hp

theorem kept_onBits {s₀ s : State} (hk : Kept s₀ s) (w : Word) (acts : List (Nat × (State → State)))
    (ha : KeptActs s₀ acts) : Kept s₀ (s.onBits w acts) := by
  unfold State.onBits
  induction acts generalizing s with
  | nil => exact hk
  | cons p t ih =>
    refine ih ?_ fun q hq => ha q (List.mem_cons_of_mem _ hq)
    exact kept_ite (fun _ => ha p (List.mem_cons_self ..) _ hk) (fun _ => hk)

theorem kept_dmaCfgWrite {s₀ s : State} (hk : Kept s₀ s) (a : Nat) (d : RegDesc) (c : Nat) (w : Word) : Kept s₀ (State.dmaCfgWrite s a d c w) := by
  unfold State.dmaCfgWrite
  repeat' first
    | with_reducible exact hk
    | (simp +contextual (maxDischargeDepth := 60) only [kept_cfgBusy, kept_setReg, kept_dmaSetEn, kept_setB, hk, kept_ite]; done)
    | with_reducible refine kept_ite (fun _ => ?_) (fun _ => ?_)
    | with_reducible refine kept_foldl _ (fun s hk x => ?_) ?_
    | with_reducible dsimp only
    | (with_reducible split)

theorem kept_enableWrite {s₀ s : State} (hk : Kept s₀ s) (a : Nat) (d : RegDesc) (i : Nat) (w : Word) (act : State → Bool → State) (h_act : ∀ z y0, Kept s₀ z → Kept s₀ (act z y0)) : Kept s₀ (State.enableWrite s a d i w act) := by
  unfold State.enableWrite
  repeat' first
    | with_reducible exact hk
    | (simp +contextual (maxDischargeDepth := 60) only [h_act, kept_cfgBusy, kept_setReg, kept_setB, implies_true, forall_const, hk, kept_ite]; done)
    | with_reducible refine kept_ite (fun _ => ?_) (fun _ => ?_)
    | with_reducible refine kept_foldl _ (fun s hk x => ?_) ?_
    | with_reducible dsimp only
    | (with_reducible split)

theorem kept_slotFieldWrite {s₀ s : State} (hk : Kept s₀ s) (a : Nat) (d : RegDesc) (i : Nat) (j : Nat) (w : Word) : Kept s₀ (State.slotFieldWrite s a d i j w) := by
  unfold State.slotFieldWrite
  repeat' first
    | with_reducible exact hk
    | (simp +contextual (maxDischargeDepth := 60) only [kept_cfgBusy, kept_setReg, hk, kept_ite]; done)
    | with_reducible refine kept_ite (fun _ => ?_) (fun _ => ?_)
    | with_reducible refine kept_foldl _ (fun s hk x => ?_) ?_
    | with_reducible dsimp only
    | (with_reducible split)

theorem kept_bkgCtrlWrite {s₀ s : State} (hk : Kept s₀ s) (d : RegDesc) (w : Word) : Kept s₀ (State.bkgCtrlWrite s d w) := by
  unfold State.bkgCtrlWrite
  repeat' first
    | with_reducible exact hk
    | (simp +contextual (maxDischargeDepth := 60) only [kept_setReg, kept_setStep, implies_true, forall_const, hk, kept_ite, kept_foldl, kept_mk]; done)
    | with_reducible refine kept_ite (fun _ => ?_) (fun _ => ?_)
    | with_reducible refine kept_foldl _ (fun s hk x => ?_) ?_
    | with_reducible dsimp only
    | (with_reducible split)

theorem kept_meterTailWrite {s₀ s : State} (hk : Kept s₀ s) (w : Word) : Kept s₀ (State.meterTailWrite s w) := by
  unfold State.meterTailWrite
  repeat' first
    | with_reducible exact hk
    | (simp +contextual (maxDischargeDepth := 60) only [kept_setReg, hk, kept_ite, kept_mk]; done)
    | with_reducible refine kept_ite (fun _ => ?_) (fun _ => ?_)
    | with_reducible refine kept_foldl _ (fun s hk x => ?_) ?_
    | with_reducible dsimp only
    | (with_reducible split)

theorem kept_actingWrite {s₀ s : State} (hk : Kept s₀ s) (ini : Nat) (a : Nat) (d : RegDesc) (i : Nat) (j : Nat) (w : Word) : KeptOpt s₀ (State.actingWrite s ini a d i j w) := by
  unfold State.actingWrite
  repeat' first
    | with_reducible exact hk
    | (simp +contextual (maxDischargeDepth := 60) only [keptActs_nil, keptActs_cons, kept_lineMaster, kept_modeWrite, kept_pltTx, kept_writeXlkEn, kept_laneSave, kept_domRequest, kept_laneAbort, kept_dmaAbort, kept_raise, kept_resqTailWrite, kept_coreMapWrite, kept_engCancel, kept_updateBudget, kept_stageNext, kept_writeCntHi, kept_focStop, kept_tblLoad, kept_submit, kept_stpStop, kept_enableWrite, kept_brstRequest, kept_engSubst, kept_release1, kept_zoneOn, kept_writeCntLo, kept_writeTgtHi, kept_busClear, kept_dmaHeadWrite, kept_stpResume, kept_writePosLo, kept_cfgBusy, kept_retireRequest, kept_pltPop, kept_setReg, kept_resumeLane, kept_writeScnEn, kept_zoneClear, kept_subWrite, kept_focCoast, kept_errPin, kept_writePosHi, kept_srcCfgWrite, kept_originWrite, kept_onBits, kept_storeReg, kept_focStart, kept_requestSubst, kept_pltCfg, kept_vreqStart, kept_ttRequest, kept_slotStart, kept_ldgApp, kept_stpGo, kept_meterTailWrite, kept_dmaCqTail, kept_snsOutWrite, kept_secBegin, kept_bkgCtrlWrite, kept_slotFieldWrite, kept_setF, kept_zoneOff, kept_lineEnable, kept_focClear, kept_dmaCfgWrite, kept_hold, kept_stpHalt, kept_stpClear, kept_modStp, kept_gearArm, kept_gearCancel, kept_setB, kept_wantSubst, kept_rbAdv, kept_activeWrite, kept_slotStop, kept_focRefWrite, kept_hvRampWrite, kept_fxTailWrite, implies_true, forall_const, hk, kept_ite, keptOpt_some, keptOpt_none, kept_mk]; done)
    | with_reducible refine kept_ite (fun _ => ?_) (fun _ => ?_)
    | with_reducible refine kept_foldl _ (fun s hk x => ?_) ?_
    | with_reducible refine kept_enableWrite ?_ _ _ _ _ _ (fun s y0 hk => ?_)
    | with_reducible refine keptOut_next ?_
    | with_reducible dsimp only
    | (with_reducible split)

theorem kept_hstLinkDown {s₀ s : State} (hk : Kept s₀ s)  : Kept s₀ (State.hstLinkDown s) := by
  unfold State.hstLinkDown
  repeat' first
    | with_reducible exact hk
    | (simp +contextual (maxDischargeDepth := 60) only [kept_setF, kept_setB, kept_raise, kept_endHostDma, hk, kept_ite]; done)
    | with_reducible refine kept_ite (fun _ => ?_) (fun _ => ?_)
    | with_reducible refine kept_foldl _ (fun s hk x => ?_) ?_
    | with_reducible dsimp only
    | (with_reducible split)

theorem kept_hstCtrlWrite {s₀ s : State} (hk : Kept s₀ s) (w : Word) : Kept s₀ (State.hstCtrlWrite s w) := by
  unfold State.hstCtrlWrite
  repeat' first
    | with_reducible exact hk
    | (simp +contextual (maxDischargeDepth := 60) only [kept_hstLinkDown, kept_setReg, hk, kept_ite]; done)
    | with_reducible refine kept_ite (fun _ => ?_) (fun _ => ?_)
    | with_reducible refine kept_foldl _ (fun s hk x => ?_) ?_
    | with_reducible dsimp only
    | (with_reducible split)

theorem kept_sendVector {s₀ s : State} (hk : Kept s₀ s) (v : Nat) : Kept s₀ (State.sendVector s v) := by
  unfold State.sendVector
  repeat' first
    | with_reducible exact hk
    | (simp +contextual (maxDischargeDepth := 60) only [hk, kept_ite, kept_mk]; done)
    | with_reducible refine kept_ite (fun _ => ?_) (fun _ => ?_)
    | with_reducible refine kept_foldl _ (fun s hk x => ?_) ?_
    | with_reducible dsimp only
    | (with_reducible split)

theorem kept_rearm {s₀ s : State} (hk : Kept s₀ s) (v : Nat) : Kept s₀ (State.rearm s v) := by
  unfold State.rearm
  repeat' first
    | with_reducible exact hk
    | (simp +contextual (maxDischargeDepth := 60) only [kept_sendVector, hk, kept_ite]; done)
    | with_reducible refine kept_ite (fun _ => ?_) (fun _ => ?_)
    | with_reducible refine kept_foldl _ (fun s hk x => ?_) ?_
    | with_reducible dsimp only
    | (with_reducible split)

theorem kept_dbSet {s₀ s : State} (hk : Kept s₀ s) (hi : Bool) (w : Word) : Kept s₀ (State.dbSet s hi w) := by
  unfold State.dbSet
  repeat' first
    | with_reducible exact hk
    | (simp +contextual (maxDischargeDepth := 60) only [kept_setB, implies_true, forall_const, hk, kept_ite, kept_foldl]; done)
    | with_reducible refine kept_ite (fun _ => ?_) (fun _ => ?_)
    | with_reducible refine kept_foldl _ (fun s hk x => ?_) ?_
    | with_reducible dsimp only
    | (with_reducible split)

theorem kept_regReadWord {s₀ s : State} (hk : Kept s₀ s) (ini : Nat) (a : Nat) : Kept s₀ (State.regReadWord s ini a).2 := by
  unfold State.regReadWord
  have hk2 := hk
  repeat' first
    | with_reducible exact hk
    | with_reducible exact hk2
    | (simp +contextual (maxDischargeDepth := 60) only [kept_pltRx, kept_hold, kept_histRead, hk, hk2, kept_ite, kept_mk]; done)
    | with_reducible refine kept_ite (fun _ => ?_) (fun _ => ?_)
    | with_reducible refine kept_foldl _ (fun s hk x => ?_) ?_
    | with_reducible dsimp only
    | (with_reducible split) <;> first | (have hk2 : Kept s₀ _ := kept_pair ‹(_ : _ × State) = (_, _)› (by simp +contextual (maxDischargeDepth := 60) only [kept_pltRx, kept_hold, kept_histRead, hk, hk2, kept_ite, kept_mk]; done)) | skip

theorem kept_regRead {s₀ s : State} (hk : Kept s₀ s) (ini : Nat) (a : Nat) (n : Nat) : Kept s₀ (State.regRead s ini a n).2 := by
  unfold State.regRead
  have hk2 := hk
  repeat' first
    | with_reducible exact hk
    | with_reducible exact hk2
    | (simp +contextual (maxDischargeDepth := 60) only [kept_regReadWord, hk, hk2, kept_ite]; done)
    | with_reducible refine kept_ite (fun _ => ?_) (fun _ => ?_)
    | with_reducible refine kept_foldl _ (fun s hk x => ?_) ?_
    | with_reducible dsimp only
    | (with_reducible split) <;> first | (have hk2 : Kept s₀ _ := kept_pair ‹(_ : _ × State) = (_, _)› (by simp +contextual (maxDischargeDepth := 60) only [kept_regReadWord, hk, hk2, kept_ite]; done)) | skip

theorem kept_regWrite {s₀ s : State} (hk : Kept s₀ s) (ini : Nat) (a : Nat) (n : Nat) (w : Word) : Kept s₀ (State.regWrite s ini a n w).2 := by
  unfold State.regWrite
  have hk4 := hk
  repeat' first
    | with_reducible exact hk
    | with_reducible exact hk4
    | (simp +contextual (maxDischargeDepth := 60) only [kept_dbSet, kept_hstCtrlWrite, kept_storeReg, kept_actingWrite, kept_rearm, hk, hk4, kept_ite, kept_mk]; done)
    | with_reducible refine kept_ite (fun _ => ?_) (fun _ => ?_)
    | with_reducible refine kept_foldl _ (fun s hk x => ?_) ?_
    | with_reducible dsimp only
    | (with_reducible split) <;> first | (have hk4 : Kept s₀ _ := kept_opt ‹(_ : Option State) = some _› (by simp +contextual (maxDischargeDepth := 60) only [kept_dbSet, kept_hstCtrlWrite, kept_storeReg, kept_actingWrite, kept_rearm, hk, hk4, kept_ite, kept_mk]; done)) | skip

end Sys2Proof.Machine
end

