-- ==== Sys2Proof/Laws/KeptAccess.lean ====
section
/-! SUPPORT. What the operations of Machine/Access.lean keep of a state. -/

namespace Sys2Proof.Machine

theorem kept_busLoad {s₀ s : State} (hk : Kept s₀ s) (ini : Nat) (a : Nat) (n : Nat) : Kept s₀ (State.busLoad s ini a n).2 := by
  unfold State.busLoad
  have hk2 := hk
  repeat' first
    | with_reducible exact hk
    | with_reducible exact hk2
    | (simp +contextual (maxDischargeDepth := 60) only [kept_readMem, kept_regRead, kept_gateRefuse, hk, hk2, kept_ite, kept_mk]; done)
    | with_reducible refine kept_ite (fun _ => ?_) (fun _ => ?_)
    | with_reducible refine kept_foldl _ (fun s hk x => ?_) ?_
    | with_reducible dsimp only
    | (with_reducible split) <;> first | (have hk2 : Kept s₀ _ := kept_pair ‹(_ : _ × State) = (_, _)› (by simp +contextual (maxDischargeDepth := 60) only [kept_readMem, kept_regRead, kept_gateRefuse, hk, hk2, kept_ite, kept_mk]; done)) | skip

theorem kept_busStore {s₀ s : State} (hk : Kept s₀ s) (ini : Nat) (a : Nat) (n : Nat) (v : Nat) : Kept s₀ (State.busStore s ini a n v).2 := by
  unfold State.busStore
  have hk2 := hk
  repeat' first
    | with_reducible exact hk
    | with_reducible exact hk2
    | (simp +contextual (maxDischargeDepth := 60) only [kept_writeMem, kept_regWrite, kept_gateRefuse, hk, hk2, kept_ite, kept_mk]; done)
    | with_reducible refine kept_ite (fun _ => ?_) (fun _ => ?_)
    | with_reducible refine kept_foldl _ (fun s hk x => ?_) ?_
    | with_reducible dsimp only
    | (with_reducible split) <;> first | (have hk2 : Kept s₀ _ := kept_pair ‹(_ : _ × State) = (_, _)› (by simp +contextual (maxDischargeDepth := 60) only [kept_writeMem, kept_regWrite, kept_gateRefuse, hk, hk2, kept_ite, kept_mk]; done)) | skip

end Sys2Proof.Machine
end

