-- ==== Sys2Proof/Laws/KeptHostIf.lean ====
section
/-! SUPPORT. What the operations of Machine/HostIf.lean keep of a state. -/

namespace Sys2Proof.Machine

theorem kept_hostRefuse {s₀ s : State} (hk : Kept s₀ s) (bar2 : Bool) (read : Bool) (o : Nat) : Kept s₀ (State.hostRefuse s bar2 read o) := by
  unfold State.hostRefuse
  repeat' first
    | with_reducible exact hk
    | (simp +contextual (maxDischargeDepth := 60) only [kept_setB, kept_raise, kept_setReg, hk, kept_ite]; done)
    | with_reducible refine kept_ite (fun _ => ?_) (fun _ => ?_)
    | with_reducible refine kept_foldl _ (fun s hk x => ?_) ?_
    | with_reducible dsimp only
    | (with_reducible split)

theorem kept_msixWrite {s₀ s : State} (hk : Kept s₀ s) (o : Nat) (data : List Byte) : Kept s₀ (State.msixWrite s o data) := by
  unfold State.msixWrite
  repeat' first
    | with_reducible exact hk
    | (simp +contextual (maxDischargeDepth := 60) only [kept_take, implies_true, forall_const, hk, kept_foldl, kept_mk]; done)
    | with_reducible refine kept_ite (fun _ => ?_) (fun _ => ?_)
    | with_reducible refine kept_foldl _ (fun s hk x => ?_) ?_
    | with_reducible dsimp only
    | (with_reducible split)

end Sys2Proof.Machine
end

