-- ==== Sys2Proof/Laws/KeptSinelMem.lean ====
section
/-! SUPPORT. What the operations of Machine/SinelMem.lean keep of a state. -/

namespace Sys2Proof.Machine

theorem kept_putLoad {s₀ s : State} (hk : Kept s₀ s) (w : Who) (rt : Fin 32) (sz : Nat) (signed : Bool) (v : Nat) : Kept s₀ (State.putLoad s w rt sz signed v) := by
  unfold State.putLoad
  repeat' first
    | with_reducible exact hk
    | (simp +contextual (maxDischargeDepth := 60) only [kept_setGr, kept_setGrPair, hk, kept_ite, keptEff_next, keptEff_jump, keptEff_exc, keptEff_wait, keptEff_fly, keptEff_yield, keptEff_halt, keptEff_ite]; done)
    | with_reducible refine kept_ite (fun _ => ?_) (fun _ => ?_)
    | with_reducible refine kept_foldl _ (fun s hk x => ?_) ?_
    | with_reducible refine keptOut_next ?_
    | with_reducible dsimp only
    | (with_reducible split)

theorem kept_loadT {s₀ s : State} (hk : Kept s₀ s) (w : Who) (key : Nat) (p : Nat) (a : Nat) (rt : Fin 32) (sz : Nat) (signed : Bool) : KeptEff s₀ (State.loadT s w key p a rt sz signed) := by
  unfold State.loadT
  have hk2 := hk
  repeat' first
    | with_reducible exact hk
    | with_reducible exact hk2
    | (simp +contextual (maxDischargeDepth := 60) only [kept_gateRefuse, kept_putLoad, kept_readMem, hk, hk2, kept_ite, kept_mk, keptEff_next, keptEff_jump, keptEff_exc, keptEff_wait, keptEff_fly, keptEff_yield, keptEff_halt, keptEff_ite]; done)
    | with_reducible refine kept_ite (fun _ => ?_) (fun _ => ?_)
    | with_reducible refine kept_foldl _ (fun s hk x => ?_) ?_
    | with_reducible refine keptOut_next ?_
    | with_reducible dsimp only
    | (with_reducible split) <;> first | (have hk2 : Kept s₀ _ := kept_pair ‹(_ : _ × State) = (_, _)› (by simp +contextual (maxDischargeDepth := 60) only [kept_gateRefuse, kept_putLoad, kept_readMem, hk, hk2, kept_ite, kept_mk, keptEff_next, keptEff_jump, keptEff_exc, keptEff_wait, keptEff_fly, keptEff_yield, keptEff_halt, keptEff_ite]; done)) | skip

theorem kept_readTarget {s₀ s : State} (hk : Kept s₀ s) (key : Nat) (p : Nat) (a : Nat) (rt : Fin 32) (sz : Nat) (signed : Bool) : Kept s₀ (State.readTarget s key p a rt sz signed).2 := by
  unfold State.readTarget
  have hk2 := hk
  repeat' first
    | with_reducible exact hk
    | with_reducible exact hk2
    | (simp +contextual (maxDischargeDepth := 60) only [kept_busLoad, kept_readMem, hk, hk2, kept_mk, keptEff_next, keptEff_jump, keptEff_exc, keptEff_wait, keptEff_fly, keptEff_yield, keptEff_halt, keptEff_ite]; done)
    | with_reducible refine kept_ite (fun _ => ?_) (fun _ => ?_)
    | with_reducible refine kept_foldl _ (fun s hk x => ?_) ?_
    | with_reducible refine keptOut_next ?_
    | with_reducible dsimp only
    | (with_reducible split) <;> first | (have hk2 : Kept s₀ _ := kept_pair ‹(_ : _ × State) = (_, _)› (by simp +contextual (maxDischargeDepth := 60) only [kept_busLoad, kept_readMem, hk, hk2, kept_mk, keptEff_next, keptEff_jump, keptEff_exc, keptEff_wait, keptEff_fly, keptEff_yield, keptEff_halt, keptEff_ite]; done)) | skip

theorem kept_arrayRead {s₀ s : State} (hk : Kept s₀ s) (p : Nat) : Kept s₀ (State.arrayRead s p) := by
  unfold State.arrayRead
  have hk2 := hk
  repeat' first
    | with_reducible exact hk
    | with_reducible exact hk2
    | (simp +contextual (maxDischargeDepth := 60) only [kept_setFlight, kept_readTarget, hk, hk2, kept_mk, keptEff_next, keptEff_jump, keptEff_exc, keptEff_wait, keptEff_fly, keptEff_yield, keptEff_halt, keptEff_ite]; done)
    | with_reducible refine kept_ite (fun _ => ?_) (fun _ => ?_)
    | with_reducible refine kept_foldl _ (fun s hk x => ?_) ?_
    | with_reducible refine keptOut_next ?_
    | with_reducible dsimp only
    | (with_reducible split) <;> first | (have hk2 : Kept s₀ _ := kept_pair ‹(_ : _ × State) = (_, _)› (by simp +contextual (maxDischargeDepth := 60) only [kept_setFlight, kept_readTarget, hk, hk2, kept_mk, keptEff_next, keptEff_jump, keptEff_exc, keptEff_wait, keptEff_fly, keptEff_yield, keptEff_halt, keptEff_ite]; done)) | skip

theorem kept_endFlight {s₀ s : State} (hk : Kept s₀ s) (p : Nat) : Kept s₀ (State.endFlight s p) := by
  unfold State.endFlight
  repeat' first
    | with_reducible exact hk
    | (simp +contextual (maxDischargeDepth := 60) only [kept_putLoad, kept_setFlight, kept_modInst, kept_completeInstance, kept_dropPeriod, kept_commit, hk, kept_ite, kept_mk, keptEff_next, keptEff_jump, keptEff_exc, keptEff_wait, keptEff_fly, keptEff_yield, keptEff_halt, keptEff_ite]; done)
    | with_reducible refine kept_ite (fun _ => ?_) (fun _ => ?_)
    | with_reducible refine kept_foldl _ (fun s hk x => ?_) ?_
    | with_reducible refine keptOut_next ?_
    | with_reducible dsimp only
    | (with_reducible split)

theorem kept_seqSteps {s₀ s : State} (hk : Kept s₀ s) (n : Nat) : Kept s₀ (State.seqSteps s n) := by
  unfold State.seqSteps
  repeat' first
    | with_reducible exact hk
    | (simp +contextual (maxDischargeDepth := 60) only [kept_endFlight, implies_true, forall_const, hk, kept_ite, kept_foldl, keptEff_next, keptEff_jump, keptEff_exc, keptEff_wait, keptEff_fly, keptEff_yield, keptEff_halt, keptEff_ite]; done)
    | with_reducible refine kept_ite (fun _ => ?_) (fun _ => ?_)
    | with_reducible refine kept_foldl _ (fun s hk x => ?_) ?_
    | with_reducible refine keptOut_next ?_
    | with_reducible dsimp only
    | (with_reducible split)

theorem kept_holdLeaving {s₀ s : State} (hk : Kept s₀ s) (p : Nat) (t : Tick) : Kept s₀ (State.holdLeaving s p t) := by
  unfold State.holdLeaving
  repeat' first
    | with_reducible exact hk
    | (simp +contextual (maxDischargeDepth := 60) only [hk, kept_ite, kept_mk, keptEff_next, keptEff_jump, keptEff_exc, keptEff_wait, keptEff_fly, keptEff_yield, keptEff_halt, keptEff_ite]; done)
    | with_reducible refine kept_ite (fun _ => ?_) (fun _ => ?_)
    | with_reducible refine kept_foldl _ (fun s hk x => ?_) ?_
    | with_reducible refine keptOut_next ?_
    | with_reducible dsimp only
    | (with_reducible split)

theorem kept_drainCore {s₀ s : State} (hk : Kept s₀ s) (p : Nat) : Kept s₀ (State.drainCore s p) := by
  unfold State.drainCore
  have hk2 := hk
  repeat' first
    | with_reducible exact hk
    | with_reducible exact hk2
    | (simp +contextual (maxDischargeDepth := 60) only [kept_holdLeaving, kept_busStore, kept_modSlot, hk, hk2, kept_ite, kept_mk, keptEff_next, keptEff_jump, keptEff_exc, keptEff_wait, keptEff_fly, keptEff_yield, keptEff_halt, keptEff_ite]; done)
    | with_reducible refine kept_ite (fun _ => ?_) (fun _ => ?_)
    | with_reducible refine kept_foldl _ (fun s hk x => ?_) ?_
    | with_reducible refine keptOut_next ?_
    | with_reducible dsimp only
    | (with_reducible split) <;> first | (have hk2 : Kept s₀ _ := kept_pair ‹(_ : _ × State) = (_, _)› (by simp +contextual (maxDischargeDepth := 60) only [kept_holdLeaving, kept_busStore, kept_modSlot, hk, hk2, kept_ite, kept_mk, keptEff_next, keptEff_jump, keptEff_exc, keptEff_wait, keptEff_fly, keptEff_yield, keptEff_halt, keptEff_ite]; done)) | skip

theorem kept_drainAll {s₀ s : State} (hk : Kept s₀ s)  : Kept s₀ (State.drainAll s) := by
  unfold State.drainAll
  repeat' first
    | with_reducible exact hk
    | (simp +contextual (maxDischargeDepth := 60) only [kept_drainCore, implies_true, forall_const, hk, kept_foldl, keptEff_next, keptEff_jump, keptEff_exc, keptEff_wait, keptEff_fly, keptEff_yield, keptEff_halt, keptEff_ite]; done)
    | with_reducible refine kept_ite (fun _ => ?_) (fun _ => ?_)
    | with_reducible refine kept_foldl _ (fun s hk x => ?_) ?_
    | with_reducible refine keptOut_next ?_
    | with_reducible dsimp only
    | (with_reducible split)

theorem kept_seqReads {s₀ s : State} (hk : Kept s₀ s)  : Kept s₀ (State.seqReads s) := by
  unfold State.seqReads
  repeat' first
    | with_reducible exact hk
    | (simp +contextual (maxDischargeDepth := 60) only [kept_arrayRead, implies_true, forall_const, hk, kept_foldl, kept_mk, kept_mkFilter, keptEff_next, keptEff_jump, keptEff_exc, keptEff_wait, keptEff_fly, keptEff_yield, keptEff_halt, keptEff_ite]; done)
    | with_reducible refine kept_ite (fun _ => ?_) (fun _ => ?_)
    | with_reducible refine kept_foldl _ (fun s hk x => ?_) ?_
    | with_reducible refine keptOut_next ?_
    | with_reducible dsimp only
    | (with_reducible split)

theorem kept_seqHist {s₀ s : State} (hk : Kept s₀ s)  : Kept s₀ (State.seqHist s) := by
  unfold State.seqHist
  repeat' first
    | with_reducible exact hk
    | (simp +contextual (maxDischargeDepth := 60) only [kept_clearHist, kept_modSlot, implies_true, forall_const, hk, kept_foldl, kept_mk, kept_mkFilter, keptEff_next, keptEff_jump, keptEff_exc, keptEff_wait, keptEff_fly, keptEff_yield, keptEff_halt, keptEff_ite]; done)
    | with_reducible refine kept_ite (fun _ => ?_) (fun _ => ?_)
    | with_reducible refine kept_foldl _ (fun s hk x => ?_) ?_
    | with_reducible refine keptOut_next ?_
    | with_reducible dsimp only
    | (with_reducible split)

theorem kept_seqEdge {s₀ s : State} (hk : Kept s₀ s) (n : Nat) : Kept s₀ (State.seqEdge s n) := by
  unfold State.seqEdge
  repeat' first
    | with_reducible exact hk
    | (simp +contextual (maxDischargeDepth := 60) only [kept_seqReads, kept_drainAll, kept_seqSteps, kept_seqHist, hk, kept_ite, keptEff_next, keptEff_jump, keptEff_exc, keptEff_wait, keptEff_fly, keptEff_yield, keptEff_halt, keptEff_ite]; done)
    | with_reducible refine kept_ite (fun _ => ?_) (fun _ => ?_)
    | with_reducible refine kept_foldl _ (fun s hk x => ?_) ?_
    | with_reducible refine keptOut_next ?_
    | with_reducible dsimp only
    | (with_reducible split)

theorem kept_storeT {s₀ s : State} (hk : Kept s₀ s) (key : Nat) (p : Nat) (a : Nat) (sz : Nat) (v : Nat) : KeptEff s₀ (State.storeT s key p a sz v) := by
  unfold State.storeT
  repeat' first
    | with_reducible exact hk
    | (simp +contextual (maxDischargeDepth := 60) only [kept_gateRefuse, kept_stageWrite, hk, kept_ite, keptEff_next, keptEff_jump, keptEff_exc, keptEff_wait, keptEff_fly, keptEff_yield, keptEff_halt, keptEff_ite]; done)
    | with_reducible refine kept_ite (fun _ => ?_) (fun _ => ?_)
    | with_reducible refine kept_foldl _ (fun s hk x => ?_) ?_
    | with_reducible refine keptOut_next ?_
    | with_reducible dsimp only
    | (with_reducible split)

theorem kept_writeBack {s₀ s : State} (hk : Kept s₀ s) (n : Nat) (l : CacheLine) : Kept s₀ (State.writeBack s n l) := by
  unfold State.writeBack
  have hk2 := hk
  repeat' first
    | with_reducible exact hk
    | with_reducible exact hk2
    | (simp +contextual (maxDischargeDepth := 60) only [kept_writeMem, hk, hk2, kept_ite, keptEff_next, keptEff_jump, keptEff_exc, keptEff_wait, keptEff_fly, keptEff_yield, keptEff_halt, keptEff_ite]; done)
    | with_reducible refine kept_ite (fun _ => ?_) (fun _ => ?_)
    | with_reducible refine kept_foldl _ (fun s hk x => ?_) ?_
    | with_reducible refine keptOut_next ?_
    | with_reducible dsimp only
    | (with_reducible split) <;> first | (have hk2 : Kept s₀ _ := kept_pair ‹(_ : _ × State) = (_, _)› (by simp +contextual (maxDischargeDepth := 60) only [kept_writeMem, hk, hk2, kept_ite, keptEff_next, keptEff_jump, keptEff_exc, keptEff_wait, keptEff_fly, keptEff_yield, keptEff_halt, keptEff_ite]; done)) | skip

theorem kept_dropLine {s₀ s : State} (hk : Kept s₀ s) (n : Nat) (addr : Nat) : Kept s₀ (State.dropLine s n addr) := by
  unfold State.dropLine
  repeat' first
    | with_reducible exact hk
    | (simp +contextual (maxDischargeDepth := 60) only [kept_modGcore, hk, kept_mk, kept_mkFilter, keptEff_next, keptEff_jump, keptEff_exc, keptEff_wait, keptEff_fly, keptEff_yield, keptEff_halt, keptEff_ite]; done)
    | with_reducible refine kept_ite (fun _ => ?_) (fun _ => ?_)
    | with_reducible refine kept_foldl _ (fun s hk x => ?_) ?_
    | with_reducible refine keptOut_next ?_
    | with_reducible dsimp only
    | (with_reducible split)

theorem kept_putLine {s₀ s : State} (hk : Kept s₀ s) (n : Nat) (x : CacheLine) : Kept s₀ (State.putLine s n x) := by
  unfold State.putLine
  repeat' first
    | with_reducible exact hk
    | (simp +contextual (maxDischargeDepth := 60) only [kept_modGcore, hk, kept_ite, kept_mk, keptEff_next, keptEff_jump, keptEff_exc, keptEff_wait, keptEff_fly, keptEff_yield, keptEff_halt, keptEff_ite]; done)
    | with_reducible refine kept_ite (fun _ => ?_) (fun _ => ?_)
    | with_reducible refine kept_foldl _ (fun s hk x => ?_) ?_
    | with_reducible refine keptOut_next ?_
    | with_reducible dsimp only
    | (with_reducible split)

theorem kept_fillDcache {s₀ s : State} (hk : Kept s₀ s) (n : Nat) (x : CacheLine) : Kept s₀ (State.fillDcache s n x) := by
  unfold State.fillDcache
  have hk2 := hk
  repeat' first
    | with_reducible exact hk
    | with_reducible exact hk2
    | (simp +contextual (maxDischargeDepth := 60) only [kept_writeBack, kept_takeFresh, kept_modGcore, kept_dropLine, hk, hk2, kept_mk, keptEff_next, keptEff_jump, keptEff_exc, keptEff_wait, keptEff_fly, keptEff_yield, keptEff_halt, keptEff_ite]; done)
    | with_reducible refine kept_ite (fun _ => ?_) (fun _ => ?_)
    | with_reducible refine kept_foldl _ (fun s hk x => ?_) ?_
    | with_reducible refine keptOut_next ?_
    | with_reducible dsimp only
    | (with_reducible split) <;> first | (have hk2 : Kept s₀ _ := kept_pair ‹(_ : _ × State) = (_, _)› (by simp +contextual (maxDischargeDepth := 60) only [kept_writeBack, kept_takeFresh, kept_modGcore, kept_dropLine, hk, hk2, kept_mk, keptEff_next, keptEff_jump, keptEff_exc, keptEff_wait, keptEff_fly, keptEff_yield, keptEff_halt, keptEff_ite]; done)) | skip

theorem kept_allocate {s₀ s : State} (hk : Kept s₀ s) (n : Nat) (a : Nat) : Kept s₀ (State.allocate s n a).2 := by
  unfold State.allocate
  repeat' first
    | with_reducible exact hk
    | (simp +contextual (maxDischargeDepth := 60) only [kept_fillDcache, kept_memUncor, hk, kept_ite, kept_mk, keptEff_next, keptEff_jump, keptEff_exc, keptEff_wait, keptEff_fly, keptEff_yield, keptEff_halt, keptEff_ite]; done)
    | with_reducible refine kept_ite (fun _ => ?_) (fun _ => ?_)
    | with_reducible refine kept_foldl _ (fun s hk x => ?_) ?_
    | with_reducible refine keptOut_next ?_
    | with_reducible dsimp only
    | (with_reducible split)

theorem kept_loadG {s₀ s : State} (hk : Kept s₀ s) (n : Nat) (va : Nat) (k : Nat) : Kept s₀ (State.loadG s n va k).2 := by
  unfold State.loadG
  have hk2 := hk
  repeat' first
    | with_reducible exact hk
    | with_reducible exact hk2
    | (simp +contextual (maxDischargeDepth := 60) only [kept_gateRefuse, kept_busLoad, kept_take, kept_readMem, kept_allocate, hk, hk2, kept_ite, kept_mk, keptEff_next, keptEff_jump, keptEff_exc, keptEff_wait, keptEff_fly, keptEff_yield, keptEff_halt, keptEff_ite]; done)
    | with_reducible refine kept_ite (fun _ => ?_) (fun _ => ?_)
    | with_reducible refine kept_foldl _ (fun s hk x => ?_) ?_
    | with_reducible refine keptOut_next ?_
    | with_reducible dsimp only
    | (with_reducible split) <;> first | (have hk2 : Kept s₀ _ := kept_pair ‹(_ : _ × State) = (_, _)› (by simp +contextual (maxDischargeDepth := 60) only [kept_gateRefuse, kept_busLoad, kept_take, kept_readMem, kept_allocate, hk, hk2, kept_ite, kept_mk, keptEff_next, keptEff_jump, keptEff_exc, keptEff_wait, keptEff_fly, keptEff_yield, keptEff_halt, keptEff_ite]; done)) | skip

theorem kept_storeG {s₀ s : State} (hk : Kept s₀ s) (n : Nat) (va : Nat) (k : Nat) (v : Nat) : Kept s₀ (State.storeG s n va k v).2 := by
  unfold State.storeG
  have hk2 := hk
  repeat' first
    | with_reducible exact hk
    | with_reducible exact hk2
    | (simp +contextual (maxDischargeDepth := 60) only [kept_setMem, kept_gateRefuse, kept_busStore, kept_putLine, kept_allocate, hk, hk2, kept_ite, kept_mk, keptEff_next, keptEff_jump, keptEff_exc, keptEff_wait, keptEff_fly, keptEff_yield, keptEff_halt, keptEff_ite]; done)
    | with_reducible refine kept_ite (fun _ => ?_) (fun _ => ?_)
    | with_reducible refine kept_foldl _ (fun s hk x => ?_) ?_
    | with_reducible refine keptOut_next ?_
    | with_reducible dsimp only
    | (with_reducible split) <;> first | (have hk2 : Kept s₀ _ := kept_pair ‹(_ : _ × State) = (_, _)› (by simp +contextual (maxDischargeDepth := 60) only [kept_setMem, kept_gateRefuse, kept_busStore, kept_putLine, kept_allocate, hk, hk2, kept_ite, kept_mk, keptEff_next, keptEff_jump, keptEff_exc, keptEff_wait, keptEff_fly, keptEff_yield, keptEff_halt, keptEff_ite]; done)) | skip

theorem kept_cleanLine {s₀ s : State} (hk : Kept s₀ s) (n : Nat) (a : Nat) : Kept s₀ (State.cleanLine n a s) := by
  unfold State.cleanLine
  repeat' first
    | with_reducible exact hk
    | (simp +contextual (maxDischargeDepth := 60) only [kept_writeBack, kept_putLine, hk, kept_mk, keptEff_next, keptEff_jump, keptEff_exc, keptEff_wait, keptEff_fly, keptEff_yield, keptEff_halt, keptEff_ite]; done)
    | with_reducible refine kept_ite (fun _ => ?_) (fun _ => ?_)
    | with_reducible refine kept_foldl _ (fun s hk x => ?_) ?_
    | with_reducible refine keptOut_next ?_
    | with_reducible dsimp only
    | (with_reducible split)

end Sys2Proof.Machine
end

