-- ==== Sys2Proof/Laws/KeptCoreMap.lean ====
section
/-! SUPPORT. What the operations of Machine/CoreMap.lean keep of a state. -/

namespace Sys2Proof.Machine

theorem kept_substRefuse {s₀ s : State} (hk : Kept s₀ s) (reason : Nat) : Kept s₀ (State.substRefuse s reason) := by
  unfold State.substRefuse
  repeat' first
    | with_reducible exact hk
    | (simp +contextual (maxDischargeDepth := 60) only [kept_setReg, kept_setB, hk, kept_mk]; done)
    | with_reducible refine kept_ite (fun _ => ?_) (fun _ => ?_)
    | with_reducible refine kept_foldl _ (fun s hk x => ?_) ?_
    | with_reducible dsimp only
    | (with_reducible split)

theorem kept_substBind {s₀ s : State} (hk : Kept s₀ s) (l : Nat) (q : Nat) (p : Nat) : Kept s₀ (State.substBind s l q p) := by
  unfold State.substBind
  repeat' first
    | with_reducible exact hk
    | (simp +contextual (maxDischargeDepth := 60) only [kept_ldgRecord, kept_setReg, kept_bindCore, kept_setB, hk, kept_mk]; done)
    | with_reducible refine kept_ite (fun _ => ?_) (fun _ => ?_)
    | with_reducible refine kept_foldl _ (fun s hk x => ?_) ?_
    | with_reducible dsimp only
    | (with_reducible split)

theorem kept_substDone {s₀ s : State} (hk : Kept s₀ s) (l : Nat) (q : Nat) (p : Nat) : Kept s₀ (State.substDone s l q p) := by
  unfold State.substDone
  repeat' first
    | with_reducible exact hk
    | (simp +contextual (maxDischargeDepth := 60) only [kept_substBind, kept_substRefuse, hk, kept_mk]; done)
    | with_reducible refine kept_ite (fun _ => ?_) (fun _ => ?_)
    | with_reducible refine kept_foldl _ (fun s hk x => ?_) ?_
    | with_reducible dsimp only
    | (with_reducible split)

theorem kept_copyTcm {s₀ s : State} (hk : Kept s₀ s) (q p i n : Nat) : Kept s₀ (s.copyTcm q p i n) := by
  obtain ⟨hp, d, m, r, c, l, bb⟩ := hk
  refine ⟨hp, d, fun h => ?_, r, c, l, bb⟩
  have hm := (wf_iff _).1 (m h)
  rw [wf_iff]
  obtain ⟨h1, h2⟩ := hm
  rw [keysRise_iff] at h1
  rw [noneDefault_iff] at h2
  unfold State.copyTcm movedCells canon
  dsimp only
  constructor
  · rw [keysRise_iff, List.pairwise_append, List.pairwise_append]
    refine ⟨⟨h1.filter _, ?_, ?_⟩, h1.filter _, ?_⟩
    · refine List.pairwise_map.2 (List.Pairwise.imp_of_mem ?_ (h1.filter _))
      intro a b ha hb hab
      have ha := of_decide_eq_true (Bool.and_eq_true_iff.1 (List.mem_filter.1 ha).2).1
      dsimp only
      omega
    · intro a ha b hb
      obtain ⟨b', hb', rfl⟩ := List.mem_map.1 hb
      have ha := of_decide_eq_true (List.mem_filter.1 ha).2
      have hb := of_decide_eq_true (Bool.and_eq_true_iff.1 (List.mem_filter.1 hb').2).1
      dsimp only
      omega
    · intro a ha b hb
      have hb := of_decide_eq_true (List.mem_filter.1 hb).2
      rcases List.mem_append.1 ha with ha | ha
      · have ha := of_decide_eq_true (List.mem_filter.1 ha).2
        omega
      · obtain ⟨a', ha', rfl⟩ := List.mem_map.1 ha
        have ha := Bool.and_eq_true_iff.1 (List.mem_filter.1 ha').2
        have ha1 := of_decide_eq_true ha.1
        have ha2 := of_decide_eq_true ha.2
        dsimp only
        omega
  · rw [noneDefault_iff]
    intro x hx
    rcases List.mem_append.1 hx with hx | hx
    · rcases List.mem_append.1 hx with hx | hx
      · exact h2 x (List.mem_filter.1 hx).1
      · obtain ⟨a, ha, rfl⟩ := List.mem_map.1 hx
        exact h2 a (List.mem_filter.1 ha).1
    · exact h2 x (List.mem_filter.1 hx).1

theorem kept_copyStep {s₀ s : State} (hk : Kept s₀ s)  : Kept s₀ (State.copyStep s) := by
  unfold State.copyStep
  repeat' first
    | with_reducible exact hk
    | (simp +contextual (maxDischargeDepth := 60) only [kept_copyTcm, kept_substRefuse, hk, kept_ite, kept_mk]; done)
    | with_reducible refine kept_ite (fun _ => ?_) (fun _ => ?_)
    | with_reducible refine kept_foldl _ (fun s hk x => ?_) ?_
    | with_reducible dsimp only
    | (with_reducible split)

end Sys2Proof.Machine
end

