-- ==== Sys2Proof/Laws/KeptTime.lean ====
section
/-! SUPPORT. What the operations of Machine/Time.lean keep of a state. -/

namespace Sys2Proof.Machine

theorem kept_moveTo {s₀ s : State} (hk : Kept s₀ s) (t : Tick) : Kept s₀ (State.moveTo s t) := by
  unfold State.moveTo
  repeat' first
    | with_reducible exact hk
    | (simp +contextual (maxDischargeDepth := 60) only [kept_copyStep, kept_stpStep, kept_clockTo, kept_fxStep, hk]; done)
    | with_reducible refine kept_ite (fun _ => ?_) (fun _ => ?_)
    | with_reducible refine kept_foldl _ (fun s hk x => ?_) ?_
    | with_reducible dsimp only
    | (with_reducible split)

theorem kept_settleEdge {s₀ s : State} (hk : Kept s₀ s) (edge : Tick) : Kept s₀ (State.settleEdge s edge) := by
  unfold State.settleEdge
  repeat' first
    | with_reducible exact hk
    | (simp +contextual (maxDischargeDepth := 60) only [kept_closeEdge, kept_seqEdge, kept_pwrEdge, kept_moveTo, hk]; done)
    | with_reducible refine kept_ite (fun _ => ?_) (fun _ => ?_)
    | with_reducible refine kept_foldl _ (fun s hk x => ?_) ?_
    | with_reducible dsimp only
    | (with_reducible split)

theorem kept_settleTo {s₀ s : State} (hk : Kept s₀ s) (t : Tick) (n : Nat) : Kept s₀ (State.settleTo s t n) := by
  induction n generalizing s with
  | zero => exact hk
  | succ n ih =>
    unfold State.settleTo
    repeat' first
      | with_reducible exact hk
      | (simp +contextual (maxDischargeDepth := 60) only [ih, kept_settleEdge, implies_true, forall_const, hk, kept_ite, kept_foldl, kept_mk]; done)
      | with_reducible refine kept_ite (fun _ => ?_) (fun _ => ?_)
      | with_reducible refine kept_foldl _ (fun s hk x => ?_) ?_
      | with_reducible dsimp only
      | (with_reducible split)

theorem kept_at {s₀ s : State} (hk : Kept s₀ s) (t : Tick) : Kept s₀ (State.at s t) := by
  unfold State.at
  repeat' first
    | with_reducible exact hk
    | (simp +contextual (maxDischargeDepth := 60) only [kept_settleTo, kept_clockTo, kept_moveTo, hk]; done)
    | with_reducible refine kept_ite (fun _ => ?_) (fun _ => ?_)
    | with_reducible refine kept_foldl _ (fun s hk x => ?_) ?_
    | with_reducible dsimp only
    | (with_reducible split)

theorem kept_atStep {s₀ s : State} (hk : Kept s₀ s) (t : Tick) (n : Nat) : Kept s₀ (State.atStep s t n) := by
  unfold State.atStep
  repeat' first
    | with_reducible exact hk
    | (simp +contextual (maxDischargeDepth := 60) only [kept_at, kept_seqEdge, hk]; done)
    | with_reducible refine kept_ite (fun _ => ?_) (fun _ => ?_)
    | with_reducible refine kept_foldl _ (fun s hk x => ?_) ?_
    | with_reducible dsimp only
    | (with_reducible split)

end Sys2Proof.Machine
end

