-- ==== Sys2Proof/Laws/KeptAccessCmd.lean ====
section
/-! SUPPORT. What the operations of Machine/AccessCmd.lean keep of a state. -/

namespace Sys2Proof.Machine

theorem kept_execRegisterWrite {s₀ s : State} (hk : Kept s₀ s) (t : Tick) (ini : Fin 7) (a : BitVec 32) (size : Fin 4) (v : BitVec 64) : KeptOut s₀ (execRegisterWrite t ini a size v s) := by
  unfold execRegisterWrite
  have hk2 := hk
  repeat' first
    | with_reducible exact hk
    | with_reducible exact hk2
    | (simp +contextual (maxDischargeDepth := 60) only [kept_setAcc, kept_at, kept_busStore, hk, hk2, kept_ite, keptOut_next]; done)
    | with_reducible refine kept_ite (fun _ => ?_) (fun _ => ?_)
    | with_reducible refine kept_foldl _ (fun s hk x => ?_) ?_
    | with_reducible dsimp only
    | (with_reducible split) <;> first | (have hk2 : Kept s₀ _ := kept_pair ‹(_ : _ × State) = (_, _)› (by simp +contextual (maxDischargeDepth := 60) only [kept_setAcc, kept_at, kept_busStore, hk, hk2, kept_ite, keptOut_next]; done)) | skip

end Sys2Proof.Machine
end

