-- ==== Sys2Proof/Laws/KeptBackgroundCmd.lean ====
section
/-! SUPPORT. What the operations of Machine/BackgroundCmd.lean keep of a state. -/

namespace Sys2Proof.Machine

theorem kept_execSramScrubWord {s₀ s : State} (hk : Kept s₀ s) (t : Tick) (a : BitVec 32) (found : Fin 3) (last : Bool) : KeptOut s₀ (execSramScrubWord t a found last s) := by
  unfold execSramScrubWord
  repeat' first
    | with_reducible exact hk
    | (simp +contextual (maxDischargeDepth := 60) only [kept_setReg, kept_scrubUncor, kept_at, kept_scrubCor, hk, kept_ite, keptOut_next, kept_mk]; done)
    | with_reducible refine kept_ite (fun _ => ?_) (fun _ => ?_)
    | with_reducible refine kept_foldl _ (fun s hk x => ?_) ?_
    | with_reducible dsimp only
    | (with_reducible split)

theorem kept_execPassLate {s₀ s : State} (hk : Kept s₀ s) (t : Tick) : KeptOut s₀ (execPassLate t s) := by
  unfold execPassLate
  repeat' first
    | with_reducible exact hk
    | (simp +contextual (maxDischargeDepth := 60) only [kept_at, kept_bkgEvent, hk, kept_ite, keptOut_next, kept_mk]; done)
    | with_reducible refine kept_ite (fun _ => ?_) (fun _ => ?_)
    | with_reducible refine kept_foldl _ (fun s hk x => ?_) ?_
    | with_reducible dsimp only
    | (with_reducible split)

theorem kept_execDramScrubBurst {s₀ s : State} (hk : Kept s₀ s) (t : Tick) (a : BitVec 40) (found : Fin 3) : KeptOut s₀ (execDramScrubBurst t a found s) := by
  unfold execDramScrubBurst
  repeat' first
    | with_reducible exact hk
    | (simp +contextual (maxDischargeDepth := 60) only [kept_raise, kept_at, hk, kept_ite, keptOut_next, kept_mk, kept_mkFilter]; done)
    | with_reducible refine kept_ite (fun _ => ?_) (fun _ => ?_)
    | with_reducible refine kept_foldl _ (fun s hk x => ?_) ?_
    | with_reducible dsimp only
    | (with_reducible split)

theorem kept_execDdrTrainingEnd {s₀ s : State} (hk : Kept s₀ s) (t : Tick) (ok : Bool) : KeptOut s₀ (execDdrTrainingEnd t ok s) := by
  unfold execDdrTrainingEnd
  repeat' first
    | with_reducible exact hk
    | (simp +contextual (maxDischargeDepth := 60) only [kept_at, hk, kept_ite, keptOut_next, kept_mk]; done)
    | with_reducible refine kept_ite (fun _ => ?_) (fun _ => ?_)
    | with_reducible refine kept_foldl _ (fun s hk x => ?_) ?_
    | with_reducible dsimp only
    | (with_reducible split)

theorem kept_execDramWipeDone {s₀ s : State} (hk : Kept s₀ s) (t : Tick) : KeptOut s₀ (execDramWipeDone t s) := by
  unfold execDramWipeDone
  repeat' first
    | with_reducible exact hk
    | (simp +contextual (maxDischargeDepth := 60) only [kept_at, kept_setB, hk, kept_ite, keptOut_next, kept_mk, kept_mkFilter, wipeRange]; done)
    | with_reducible refine kept_ite (fun _ => ?_) (fun _ => ?_)
    | with_reducible refine kept_foldl _ (fun s hk x => ?_) ?_
    | with_reducible dsimp only
    | (with_reducible split)

theorem kept_execWearFold {s₀ s : State} (hk : Kept s₀ s) (t : Tick) : KeptOut s₀ (execWearFold t s) := by
  unfold execWearFold
  extract_lets s1 due s2
  have h1 : Kept s₀ s1 := kept_at hk t
  clear_value s1
  split
  · exact keptOut_next h1
  · refine keptOut_next (kept_foldl _ (fun s hk d => ?_) ?_)
    · exact kept_ite (fun _ => kept_foldLast hk _) (fun _ => kept_ite (fun _ => kept_foldDomain hk _) (fun _ => hk))
    · exact kept_ite (fun _ => kept_mk h1 rfl rfl rfl rfl) (fun _ => h1)

theorem kept_execTelemetrySnapshot {s₀ s : State} (hk : Kept s₀ s) (t : Tick) :
    KeptOut s₀ (execTelemetrySnapshot t s) := by
  unfold execTelemetrySnapshot
  extract_lets s1 due bk s2 b2 s3 snap
  have h1 : Kept s₀ s1 := kept_at hk t
  clear_value s1
  have h2 : Kept s₀ s2 := kept_mk h1 rfl rfl rfl rfl
  have h3 : Kept s₀ s3 := by
    dsimp only [s3]
    split
    · exact kept_incSat (kept_telWrite (kept_mk h2 rfl rfl rfl rfl) _) _ _ _ _
    · exact h2
  clear_value s3 snap
  split
  · exact keptOut_next h1
  split
  · exact keptOut_next (kept_mk h3 rfl rfl rfl rfl)
  · exact keptOut_next (kept_telWrite h3 _)

end Sys2Proof.Machine
end

