-- ==== Sys2Proof/Laws/KeptCoreMapCmd.lean ====
section
/-! SUPPORT. What the operations of Machine/CoreMapCmd.lean keep of a state. -/

namespace Sys2Proof.Machine

theorem kept_execCoreMapWrite {s₀ s : State} (hk : Kept s₀ s) (t : Tick) (l : Fin 20) (w : Word) : KeptOut s₀ (execCoreMapWrite t l w s) := by
  unfold execCoreMapWrite
  repeat' first
    | with_reducible exact hk
    | (simp +contextual (maxDischargeDepth := 60) only [kept_at, kept_coreMapWrite, hk, kept_ite, keptOut_next]; done)
    | with_reducible refine kept_ite (fun _ => ?_) (fun _ => ?_)
    | with_reducible refine kept_foldl _ (fun s hk x => ?_) ?_
    | with_reducible dsimp only
    | (with_reducible split)

theorem kept_execSubstSafePoint {s₀ s : State} (hk : Kept s₀ s) (t : Tick) : KeptOut s₀ (execSubstSafePoint t s) := by
  unfold execSubstSafePoint
  repeat' first
    | with_reducible exact hk
    | (simp +contextual (maxDischargeDepth := 60) only [kept_at, kept_substDone, kept_pwrPush, kept_substRefuse, hk, kept_ite, keptOut_next, kept_mk]; done)
    | with_reducible refine kept_ite (fun _ => ?_) (fun _ => ?_)
    | with_reducible refine kept_foldl _ (fun s hk x => ?_) ?_
    | with_reducible dsimp only
    | (with_reducible split)

theorem kept_execSubstCopyDone {s₀ s : State} (hk : Kept s₀ s) (t : Tick) : KeptOut s₀ (execSubstCopyDone t s) := by
  unfold execSubstCopyDone
  repeat' first
    | with_reducible exact hk
    | (simp +contextual (maxDischargeDepth := 60) only [kept_at, kept_substDone, hk, kept_ite, keptOut_next, kept_mk]; done)
    | with_reducible refine kept_ite (fun _ => ?_) (fun _ => ?_)
    | with_reducible refine kept_foldl _ (fun s hk x => ?_) ?_
    | with_reducible dsimp only
    | (with_reducible split)

end Sys2Proof.Machine
end

