-- ==== Sys2Proof/Laws/KeptDmaCmd.lean ====
section
/-! SUPPORT. What the operations of Machine/DmaCmd.lean keep of a state. -/

namespace Sys2Proof.Machine

theorem kept_execDescriptorFetch {s₀ s : State} (hk : Kept s₀ s) (t : Tick) : KeptOut s₀ (execDescriptorFetch t s) := by
  unfold execDescriptorFetch
  repeat' first
    | with_reducible exact hk
    | (simp +contextual (maxDischargeDepth := 60) only [kept_dmaFetch, kept_at, implies_true, forall_const, hk, kept_ite, kept_foldl, keptOut_next, kept_mkFilter]; done)
    | with_reducible refine kept_ite (fun _ => ?_) (fun _ => ?_)
    | with_reducible refine kept_foldl _ (fun s hk x => ?_) ?_
    | with_reducible dsimp only
    | (with_reducible split)

theorem kept_execDmaRingHeadWrite {s₀ s : State} (hk : Kept s₀ s) (t : Tick) (c : Fin 32) (w : Word) : KeptOut s₀ (execDmaRingHeadWrite t c w s) := by
  unfold execDmaRingHeadWrite
  repeat' first
    | with_reducible exact hk
    | (simp +contextual (maxDischargeDepth := 60) only [kept_dmaHeadWrite, kept_at, hk, kept_ite, keptOut_next]; done)
    | with_reducible refine kept_ite (fun _ => ?_) (fun _ => ?_)
    | with_reducible refine kept_foldl _ (fun s hk x => ?_) ?_
    | with_reducible dsimp only
    | (with_reducible split)

theorem kept_execDmaEnWrite {s₀ s : State} (hk : Kept s₀ s) (t : Tick) (c : Fin 32) (en : Bool) : KeptOut s₀ (execDmaEnWrite t c en s) := by
  unfold execDmaEnWrite
  repeat' first
    | with_reducible exact hk
    | (simp +contextual (maxDischargeDepth := 60) only [kept_dmaSetEn, kept_at, hk, kept_ite, keptOut_next]; done)
    | with_reducible refine kept_ite (fun _ => ?_) (fun _ => ?_)
    | with_reducible refine kept_foldl _ (fun s hk x => ?_) ?_
    | with_reducible dsimp only
    | (with_reducible split)

theorem kept_execCopy {s₀ s : State} (hk : Kept s₀ s) (t : Tick) (c : Fin 32) (n : Nat) (hostErr : Bool) : KeptOut s₀ (execCopy t c n hostErr s) := by
  unfold execCopy
  repeat' first
    | with_reducible exact hk
    | (simp +contextual (maxDischargeDepth := 60) only [kept_at, kept_dmaExecute, hk, keptOut_next]; done)
    | with_reducible refine kept_ite (fun _ => ?_) (fun _ => ?_)
    | with_reducible refine kept_foldl _ (fun s hk x => ?_) ?_
    | with_reducible dsimp only
    | (with_reducible split)

theorem kept_execDmaFill {s₀ s : State} (hk : Kept s₀ s) (t : Tick) (c : Fin 32) (n : Nat) (hostErr : Bool) : KeptOut s₀ (execDmaFill t c n hostErr s) := by
  unfold execDmaFill
  repeat' first
    | with_reducible exact hk
    | (simp +contextual (maxDischargeDepth := 60) only [kept_at, kept_dmaExecute, hk, keptOut_next]; done)
    | with_reducible refine kept_ite (fun _ => ?_) (fun _ => ?_)
    | with_reducible refine kept_foldl _ (fun s hk x => ?_) ?_
    | with_reducible dsimp only
    | (with_reducible split)

theorem kept_execCompare {s₀ s : State} (hk : Kept s₀ s) (t : Tick) (c : Fin 32) (n : Nat) (hostErr : Bool) : KeptOut s₀ (execCompare t c n hostErr s) := by
  unfold execCompare
  repeat' first
    | with_reducible exact hk
    | (simp +contextual (maxDischargeDepth := 60) only [kept_at, kept_dmaExecute, hk, keptOut_next]; done)
    | with_reducible refine kept_ite (fun _ => ?_) (fun _ => ?_)
    | with_reducible refine kept_foldl _ (fun s hk x => ?_) ?_
    | with_reducible dsimp only
    | (with_reducible split)

theorem kept_execDescriptorComplete {s₀ s : State} (hk : Kept s₀ s) (t : Tick) (c : Fin 32) : KeptOut s₀ (execDescriptorComplete t c s) := by
  unfold execDescriptorComplete
  repeat' first
    | with_reducible exact hk
    | (simp +contextual (maxDischargeDepth := 60) only [kept_dmaComplete, kept_dmaBegin, kept_at, hk, kept_ite, keptOut_next]; done)
    | with_reducible refine kept_ite (fun _ => ?_) (fun _ => ?_)
    | with_reducible refine kept_foldl _ (fun s hk x => ?_) ?_
    | with_reducible dsimp only
    | (with_reducible split)

theorem kept_execDmaCqTailWrite {s₀ s : State} (hk : Kept s₀ s) (t : Tick) (c : Fin 32) (w : Word) : KeptOut s₀ (execDmaCqTailWrite t c w s) := by
  unfold execDmaCqTailWrite
  repeat' first
    | with_reducible exact hk
    | (simp +contextual (maxDischargeDepth := 60) only [kept_dmaCqTail, kept_at, hk, kept_ite, keptOut_next]; done)
    | with_reducible refine kept_ite (fun _ => ?_) (fun _ => ?_)
    | with_reducible refine kept_foldl _ (fun s hk x => ?_) ?_
    | with_reducible dsimp only
    | (with_reducible split)

theorem kept_execDmaAbort {s₀ s : State} (hk : Kept s₀ s) (t : Tick) (c : Fin 32) : KeptOut s₀ (execDmaAbort t c s) := by
  unfold execDmaAbort
  repeat' first
    | with_reducible exact hk
    | (simp +contextual (maxDischargeDepth := 60) only [kept_at, kept_dmaAbort, hk, kept_ite, keptOut_next]; done)
    | with_reducible refine kept_ite (fun _ => ?_) (fun _ => ?_)
    | with_reducible refine kept_foldl _ (fun s hk x => ?_) ?_
    | with_reducible dsimp only
    | (with_reducible split)

end Sys2Proof.Machine
end

