-- ==== Sys2Proof/Laws/KeptExposureCmd.lean ====
section
/-! SUPPORT. What the operations of Machine/ExposureCmd.lean keep of a state. -/

namespace Sys2Proof.Machine

theorem kept_execExpose {s₀ s : State} (hk : Kept s₀ s) (t : Tick) (k : Fin 128) (i : Nat) : KeptOut s₀ (execExpose t k i s) := by
  unfold execExpose
  have hk4 := hk
  have hk5 := hk
  repeat' first
    | with_reducible exact hk
    | with_reducible exact hk4
    | with_reducible exact hk5
    | (simp +contextual (maxDischargeDepth := 60) only [kept_causeH, kept_applyS, kept_bindSheet, kept_take, kept_at, kept_report, hk, hk4, hk5, kept_ite, keptOut_next, kept_mk]; done)
    | with_reducible refine kept_ite (fun _ => ?_) (fun _ => ?_)
    | with_reducible refine kept_foldl _ (fun s hk x => ?_) ?_
    | with_reducible dsimp only
    | (with_reducible split) <;> ((first | (have hk4 : Kept s₀ _ := kept_opt ‹(_ : Option State) = some _› (by simp +contextual (maxDischargeDepth := 60) only [kept_causeH, kept_applyS, kept_bindSheet, kept_take, kept_at, kept_report, hk, hk4, hk5, kept_ite, keptOut_next, kept_mk]; done)) | skip); (first | (have hk5 : Kept s₀ _ := kept_skipped ‹(_ : Take) = .skipped _› (by simp +contextual (maxDischargeDepth := 60) only [kept_causeH, kept_applyS, kept_bindSheet, kept_take, kept_at, kept_report, hk, hk4, hk5, kept_ite, keptOut_next, kept_mk]; done)) | (have hk5 : Kept s₀ _ := kept_run ‹(_ : Take) = .run _ _› (by simp +contextual (maxDischargeDepth := 60) only [kept_causeH, kept_applyS, kept_bindSheet, kept_take, kept_at, kept_report, hk, hk4, hk5, kept_ite, keptOut_next, kept_mk]; done)) | skip))

theorem kept_execScanFrameStart {s₀ s : State} (hk : Kept s₀ s) (t : Tick) (st : Fin 6) : KeptOut s₀ (execScanFrameStart t st s) := by
  unfold execScanFrameStart
  repeat' first
    | with_reducible exact hk
    | (simp +contextual (maxDischargeDepth := 60) only [kept_dropSet, kept_tileLate, kept_startFrame, kept_linkCause, kept_at, hk, kept_ite, keptOut_next, kept_mk]; done)
    | with_reducible refine kept_ite (fun _ => ?_) (fun _ => ?_)
    | with_reducible refine kept_foldl _ (fun s hk x => ?_) ?_
    | with_reducible dsimp only
    | (with_reducible split)

theorem kept_execColumnDeadlineMiss {s₀ s : State} (hk : Kept s₀ s) (t : Tick) (st : Fin 6) (col : Nat) : KeptOut s₀ (execColumnDeadlineMiss t st col s) := by
  unfold execColumnDeadlineMiss
  repeat' first
    | with_reducible exact hk
    | (simp +contextual (maxDischargeDepth := 60) only [kept_tileLate, kept_at, hk, kept_ite, keptOut_next, kept_mk]; done)
    | with_reducible refine kept_ite (fun _ => ?_) (fun _ => ?_)
    | with_reducible refine kept_foldl _ (fun s hk x => ?_) ?_
    | with_reducible dsimp only
    | (with_reducible split)

theorem kept_execFrameEnd {s₀ s : State} (hk : Kept s₀ s) (t : Tick) (st : Fin 6) : KeptOut s₀ (execFrameEnd t st s) := by
  unfold execFrameEnd
  have hk2 := hk
  repeat' first
    | with_reducible exact hk
    | with_reducible exact hk2
    | (simp +contextual (maxDischargeDepth := 60) only [kept_takeFresh, kept_readsDone, kept_incSat, kept_take, kept_at, kept_sendEof, kept_addOnTime, kept_modExp, hk, hk2, kept_ite, keptOut_next, kept_mk, kept_mkFilter]; done)
    | with_reducible refine kept_ite (fun _ => ?_) (fun _ => ?_)
    | with_reducible refine kept_foldl _ (fun s hk x => ?_) ?_
    | with_reducible dsimp only
    | (with_reducible split) <;> first | (have hk2 : Kept s₀ _ := kept_pair ‹(_ : _ × State) = (_, _)› (by simp +contextual (maxDischargeDepth := 60) only [kept_takeFresh, kept_readsDone, kept_incSat, kept_take, kept_at, kept_sendEof, kept_addOnTime, kept_modExp, hk, hk2, kept_ite, keptOut_next, kept_mk, kept_mkFilter]; done)) | skip

theorem kept_execGapPoint {s₀ s : State} (hk : Kept s₀ s) (t : Tick) (st : Fin 6) : KeptOut s₀ (execGapPoint t st s) := by
  unfold execGapPoint
  repeat' first
    | with_reducible exact hk
    | (simp +contextual (maxDischargeDepth := 60) only [kept_beamCal, kept_applyGap, kept_sendOwed, kept_at, kept_autoRetire, kept_modScn, kept_takeRetire, implies_true, forall_const, hk, kept_ite, kept_foldl, keptOut_next, kept_mk]; done)
    | with_reducible refine kept_ite (fun _ => ?_) (fun _ => ?_)
    | with_reducible refine kept_foldl _ (fun s hk x => ?_) ?_
    | with_reducible dsimp only
    | (with_reducible split)

theorem kept_execRetireRequest {s₀ s : State} (hk : Kept s₀ s) (t : Tick) (st : Fin 6) (w : Word) : KeptOut s₀ (execRetireRequest t st w s) := by
  unfold execRetireRequest
  repeat' first
    | with_reducible exact hk
    | (simp +contextual (maxDischargeDepth := 60) only [kept_retireRequest, kept_at, hk, kept_ite, keptOut_next]; done)
    | with_reducible refine kept_ite (fun _ => ?_) (fun _ => ?_)
    | with_reducible refine kept_foldl _ (fun s hk x => ?_) ?_
    | with_reducible dsimp only
    | (with_reducible split)

theorem kept_execXlkEnWrite {s₀ s : State} (hk : Kept s₀ s) (t : Tick) (st : Fin 6) (en : Bool) : KeptOut s₀ (execXlkEnWrite t st en s) := by
  unfold execXlkEnWrite
  repeat' first
    | with_reducible exact hk
    | (simp +contextual (maxDischargeDepth := 60) only [kept_writeXlkEn, kept_at, hk, kept_ite, keptOut_next]; done)
    | with_reducible refine kept_ite (fun _ => ?_) (fun _ => ?_)
    | with_reducible refine kept_foldl _ (fun s hk x => ?_) ?_
    | with_reducible dsimp only
    | (with_reducible split)

theorem kept_execTrainTimeout {s₀ s : State} (hk : Kept s₀ s) (t : Tick) (st : Fin 6) : KeptOut s₀ (execTrainTimeout t st s) := by
  unfold execTrainTimeout
  repeat' first
    | with_reducible exact hk
    | (simp +contextual (maxDischargeDepth := 60) only [kept_linkDown, kept_at, hk, kept_ite, keptOut_next]; done)
    | with_reducible refine kept_ite (fun _ => ?_) (fun _ => ?_)
    | with_reducible refine kept_foldl _ (fun s hk x => ?_) ?_
    | with_reducible dsimp only
    | (with_reducible split)

theorem kept_execLoadTimeout {s₀ s : State} (hk : Kept s₀ s) (t : Tick) (st : Fin 6) : KeptOut s₀ (execLoadTimeout t st s) := by
  unfold execLoadTimeout
  repeat' first
    | with_reducible exact hk
    | (simp +contextual (maxDischargeDepth := 60) only [kept_linkDown, kept_at, hk, kept_ite, keptOut_next]; done)
    | with_reducible refine kept_ite (fun _ => ?_) (fun _ => ?_)
    | with_reducible refine kept_foldl _ (fun s hk x => ?_) ?_
    | with_reducible dsimp only
    | (with_reducible split)

theorem kept_execLinkStatusTimeout {s₀ s : State} (hk : Kept s₀ s) (t : Tick) (st : Fin 6) : KeptOut s₀ (execLinkStatusTimeout t st s) := by
  unfold execLinkStatusTimeout
  repeat' first
    | with_reducible exact hk
    | (simp +contextual (maxDischargeDepth := 60) only [kept_linkDown, kept_at, hk, kept_ite, keptOut_next]; done)
    | with_reducible refine kept_ite (fun _ => ?_) (fun _ => ?_)
    | with_reducible refine kept_foldl _ (fun s hk x => ?_) ?_
    | with_reducible dsimp only
    | (with_reducible split)

theorem kept_execXlkForceSubst {s₀ s : State} (hk : Kept s₀ s) (t : Tick) (st : Fin 6) (lane : Fin 4) : KeptOut s₀ (execXlkForceSubst t st lane s) := by
  unfold execXlkForceSubst
  repeat' first
    | with_reducible exact hk
    | (simp +contextual (maxDischargeDepth := 60) only [kept_wantSubst, kept_at, hk, kept_ite, keptOut_next]; done)
    | with_reducible refine kept_ite (fun _ => ?_) (fun _ => ?_)
    | with_reducible refine kept_foldl _ (fun s hk x => ?_) ?_
    | with_reducible dsimp only
    | (with_reducible split)

theorem kept_execLaneSubstitute {s₀ s : State} (hk : Kept s₀ s) (t : Tick) (st : Fin 6) : KeptOut s₀ (execLaneSubstitute t st s) := by
  unfold execLaneSubstitute
  repeat' first
    | with_reducible exact hk
    | (simp +contextual (maxDischargeDepth := 60) only [kept_setF, kept_ldgRecord, kept_at, kept_xlkIrq, kept_setB, kept_expEvent, kept_modExp, hk, kept_ite, keptOut_next, kept_mk]; done)
    | with_reducible refine kept_ite (fun _ => ?_) (fun _ => ?_)
    | with_reducible refine kept_foldl _ (fun s hk x => ?_) ?_
    | with_reducible dsimp only
    | (with_reducible split)

theorem kept_execTblLoad {s₀ s : State} (hk : Kept s₀ s) (t : Tick) (st : Fin 6) : KeptOut s₀ (execTblLoad t st s) := by
  unfold execTblLoad
  repeat' first
    | with_reducible exact hk
    | (simp +contextual (maxDischargeDepth := 60) only [kept_tblLoad, kept_at, hk, kept_ite, keptOut_next]; done)
    | with_reducible refine kept_ite (fun _ => ?_) (fun _ => ?_)
    | with_reducible refine kept_foldl _ (fun s hk x => ?_) ?_
    | with_reducible dsimp only
    | (with_reducible split)

theorem kept_execLightSend {s₀ s : State} (hk : Kept s₀ s) (t : Tick) (st : Fin 6) (sensor : Fin 3) : KeptOut s₀ (execLightSend t st sensor s) := by
  unfold execLightSend
  have hk2 := hk
  repeat' first
    | with_reducible exact hk
    | with_reducible exact hk2
    | (simp +contextual (maxDischargeDepth := 60) only [kept_fit, kept_at, kept_sendLight, kept_modExp, hk, hk2, kept_ite, keptOut_next, kept_mk]; done)
    | with_reducible refine kept_ite (fun _ => ?_) (fun _ => ?_)
    | with_reducible refine kept_foldl _ (fun s hk x => ?_) ?_
    | with_reducible dsimp only
    | (with_reducible split) <;> first | (have hk2 : Kept s₀ _ := kept_pair ‹(_ : _ × State) = (_, _)› (by simp +contextual (maxDischargeDepth := 60) only [kept_fit, kept_at, kept_sendLight, kept_modExp, hk, hk2, kept_ite, keptOut_next, kept_mk]; done)) | skip

theorem kept_execStatusRecord {s₀ s : State} (hk : Kept s₀ s) (t : Tick) (st : Fin 6) (bytes : List Byte) : KeptOut s₀ (execStatusRecord t st bytes s) := by
  unfold execStatusRecord
  repeat' first
    | with_reducible exact hk
    | (simp +contextual (maxDischargeDepth := 60) only [kept_faultOf, kept_incSat, kept_take, kept_wearOf, kept_showRecord, kept_at, kept_beamResult, kept_recordLink, implies_true, forall_const, hk, kept_ite, kept_foldl, keptOut_next]; done)
    | with_reducible refine kept_ite (fun _ => ?_) (fun _ => ?_)
    | with_reducible refine kept_foldl _ (fun s hk x => ?_) ?_
    | with_reducible dsimp only
    | (with_reducible split)

theorem kept_execFrameStatusTimeout {s₀ s : State} (hk : Kept s₀ s) (t : Tick) (st : Fin 6) : KeptOut s₀ (execFrameStatusTimeout t st s) := by
  unfold execFrameStatusTimeout
  repeat' first
    | with_reducible exact hk
    | (simp +contextual (maxDischargeDepth := 60) only [kept_linkCause, kept_at, kept_modExp, implies_true, forall_const, hk, kept_ite, kept_foldl, keptOut_next, kept_mk, kept_mkFilter]; done)
    | with_reducible refine kept_ite (fun _ => ?_) (fun _ => ?_)
    | with_reducible refine kept_foldl _ (fun s hk x => ?_) ?_
    | with_reducible dsimp only
    | (with_reducible split)

theorem kept_execLinkCheck {s₀ s : State} (hk : Kept s₀ s) (t : Tick) (k : Fin 128) (i : Nat) : KeptOut s₀ (execLinkCheck t k i s) := by
  unfold execLinkCheck
  have hk5 := hk
  repeat' first
    | with_reducible exact hk
    | with_reducible exact hk5
    | (simp +contextual (maxDischargeDepth := 60) only [kept_take, kept_linkCause, kept_at, kept_report, hk, hk5, kept_ite, keptOut_next, kept_mk]; done)
    | with_reducible refine kept_ite (fun _ => ?_) (fun _ => ?_)
    | with_reducible refine kept_foldl _ (fun s hk x => ?_) ?_
    | with_reducible dsimp only
    | (with_reducible split) <;> first | (have hk5 : Kept s₀ _ := kept_skipped ‹(_ : Take) = .skipped _› (by simp +contextual (maxDischargeDepth := 60) only [kept_take, kept_linkCause, kept_at, kept_report, hk, hk5, kept_ite, keptOut_next, kept_mk]; done)) | (have hk5 : Kept s₀ _ := kept_run ‹(_ : Take) = .run _ _› (by simp +contextual (maxDischargeDepth := 60) only [kept_take, kept_linkCause, kept_at, kept_report, hk, hk5, kept_ite, keptOut_next, kept_mk]; done)) | skip

end Sys2Proof.Machine
end

