-- ==== Sys2Proof/Laws/KeptFocCmd.lean ====
section
/-! SUPPORT. What the operations of Machine/FocCmd.lean keep of a state. -/

namespace Sys2Proof.Machine

theorem kept_execPwmPeriod {s₀ s : State} (hk : Kept s₀ s) (t : Tick) (c : Fin 16) (sdu : BitVec 766) (sdv : BitVec 766) (theta : BitVec 16) (omega : Int) (err : Nat) : KeptOut s₀ (execPwmPeriod t c sdu sdv theta omega err s) := by
  unfold execPwmPeriod
  repeat' first
    | with_reducible exact hk
    | (simp +contextual (maxDischargeDepth := 60) only [kept_at, kept_estimate, kept_advanceCh, kept_runLoop, kept_applyAll, kept_switchPeriod, kept_latchCh, kept_runRamp, kept_catchPeriod, kept_measure, hk, kept_ite, keptOut_next]; done)
    | with_reducible refine kept_ite (fun _ => ?_) (fun _ => ?_)
    | with_reducible refine kept_foldl _ (fun s hk x => ?_) ?_
    | with_reducible dsimp only
    | (with_reducible split)

theorem kept_execFocCmdStart {s₀ s : State} (hk : Kept s₀ s) (t : Tick) (c : Fin 16) : KeptOut s₀ (execFocCmdStart t c s) := by
  unfold execFocCmdStart
  repeat' first
    | with_reducible exact hk
    | (simp +contextual (maxDischargeDepth := 60) only [kept_focStart, kept_at, hk, kept_ite, keptOut_next]; done)
    | with_reducible refine kept_ite (fun _ => ?_) (fun _ => ?_)
    | with_reducible refine kept_foldl _ (fun s hk x => ?_) ?_
    | with_reducible dsimp only
    | (with_reducible split)

theorem kept_execFocCmdStop {s₀ s : State} (hk : Kept s₀ s) (t : Tick) (c : Fin 16) : KeptOut s₀ (execFocCmdStop t c s) := by
  unfold execFocCmdStop
  repeat' first
    | with_reducible exact hk
    | (simp +contextual (maxDischargeDepth := 60) only [kept_focStop, kept_at, hk, kept_ite, keptOut_next]; done)
    | with_reducible refine kept_ite (fun _ => ?_) (fun _ => ?_)
    | with_reducible refine kept_foldl _ (fun s hk x => ?_) ?_
    | with_reducible dsimp only
    | (with_reducible split)

theorem kept_execFocCmdCoast {s₀ s : State} (hk : Kept s₀ s) (t : Tick) (c : Fin 16) : KeptOut s₀ (execFocCmdCoast t c s) := by
  unfold execFocCmdCoast
  repeat' first
    | with_reducible exact hk
    | (simp +contextual (maxDischargeDepth := 60) only [kept_at, kept_focCoast, hk, kept_ite, keptOut_next]; done)
    | with_reducible refine kept_ite (fun _ => ?_) (fun _ => ?_)
    | with_reducible refine kept_foldl _ (fun s hk x => ?_) ?_
    | with_reducible dsimp only
    | (with_reducible split)

theorem kept_execFocCmdClear {s₀ s : State} (hk : Kept s₀ s) (t : Tick) (c : Fin 16) : KeptOut s₀ (execFocCmdClear t c s) := by
  unfold execFocCmdClear
  repeat' first
    | with_reducible exact hk
    | (simp +contextual (maxDischargeDepth := 60) only [kept_focClear, kept_at, hk, kept_ite, keptOut_next]; done)
    | with_reducible refine kept_ite (fun _ => ?_) (fun _ => ?_)
    | with_reducible refine kept_foldl _ (fun s hk x => ?_) ?_
    | with_reducible dsimp only
    | (with_reducible split)

theorem kept_execFocTtStart {s₀ s : State} (hk : Kept s₀ s) (t : Tick) (k : Fin 128) (i : Nat) : KeptOut s₀ (execFocTtStart t k i s) := by
  unfold execFocTtStart
  repeat' first
    | with_reducible exact hk
    | (simp +contextual (maxDischargeDepth := 60) only [kept_at, kept_focStart, kept_focAction, implies_true, forall_const, hk, keptOut_next]; done)
    | with_reducible refine kept_ite (fun _ => ?_) (fun _ => ?_)
    | with_reducible refine kept_foldl _ (fun s hk x => ?_) ?_
    | with_reducible refine kept_focAction ?_ _ _ _ _ (fun s y0 y1 y2 hk => ?_)
    | with_reducible refine keptOut_next ?_
    | with_reducible dsimp only
    | (with_reducible split)

theorem kept_execFocTtStop {s₀ s : State} (hk : Kept s₀ s) (t : Tick) (k : Fin 128) (i : Nat) : KeptOut s₀ (execFocTtStop t k i s) := by
  unfold execFocTtStop
  repeat' first
    | with_reducible exact hk
    | (simp +contextual (maxDischargeDepth := 60) only [kept_at, kept_focStop, kept_focAction, implies_true, forall_const, hk, keptOut_next]; done)
    | with_reducible refine kept_ite (fun _ => ?_) (fun _ => ?_)
    | with_reducible refine kept_foldl _ (fun s hk x => ?_) ?_
    | with_reducible refine kept_focAction ?_ _ _ _ _ (fun s y0 y1 y2 hk => ?_)
    | with_reducible refine keptOut_next ?_
    | with_reducible dsimp only
    | (with_reducible split)

theorem kept_execFocTtSpeed {s₀ s : State} (hk : Kept s₀ s) (t : Tick) (k : Fin 128) (i : Nat) : KeptOut s₀ (execFocTtSpeed t k i s) := by
  unfold execFocTtSpeed
  repeat' first
    | with_reducible exact hk
    | (simp +contextual (maxDischargeDepth := 60) only [kept_at, kept_ttRef, kept_focAction, implies_true, forall_const, hk, keptOut_next]; done)
    | with_reducible refine kept_ite (fun _ => ?_) (fun _ => ?_)
    | with_reducible refine kept_foldl _ (fun s hk x => ?_) ?_
    | with_reducible refine kept_focAction ?_ _ _ _ _ (fun s y0 y1 y2 hk => ?_)
    | with_reducible refine keptOut_next ?_
    | with_reducible dsimp only
    | (with_reducible split)

theorem kept_execFocTtTorque {s₀ s : State} (hk : Kept s₀ s) (t : Tick) (k : Fin 128) (i : Nat) : KeptOut s₀ (execFocTtTorque t k i s) := by
  unfold execFocTtTorque
  repeat' first
    | with_reducible exact hk
    | (simp +contextual (maxDischargeDepth := 60) only [kept_at, kept_ttRef, kept_focAction, implies_true, forall_const, hk, keptOut_next]; done)
    | with_reducible refine kept_ite (fun _ => ?_) (fun _ => ?_)
    | with_reducible refine kept_foldl _ (fun s hk x => ?_) ?_
    | with_reducible refine kept_focAction ?_ _ _ _ _ (fun s y0 y1 y2 hk => ?_)
    | with_reducible refine keptOut_next ?_
    | with_reducible dsimp only
    | (with_reducible split)

theorem kept_execFocTtCoast {s₀ s : State} (hk : Kept s₀ s) (t : Tick) (k : Fin 128) (i : Nat) : KeptOut s₀ (execFocTtCoast t k i s) := by
  unfold execFocTtCoast
  repeat' first
    | with_reducible exact hk
    | (simp +contextual (maxDischargeDepth := 60) only [kept_at, kept_focAction, kept_ttCoast, implies_true, forall_const, hk, keptOut_next]; done)
    | with_reducible refine kept_ite (fun _ => ?_) (fun _ => ?_)
    | with_reducible refine kept_foldl _ (fun s hk x => ?_) ?_
    | with_reducible refine kept_focAction ?_ _ _ _ _ (fun s y0 y1 y2 hk => ?_)
    | with_reducible refine keptOut_next ?_
    | with_reducible dsimp only
    | (with_reducible split)

theorem kept_execStartAttemptTimeout {s₀ s : State} (hk : Kept s₀ s) (t : Tick) (c : Fin 16) : KeptOut s₀ (execStartAttemptTimeout t c s) := by
  unfold execStartAttemptTimeout
  repeat' first
    | with_reducible exact hk
    | (simp +contextual (maxDischargeDepth := 60) only [kept_at, kept_attemptFails, hk, kept_ite, keptOut_next]; done)
    | with_reducible refine kept_ite (fun _ => ?_) (fun _ => ?_)
    | with_reducible refine kept_foldl _ (fun s hk x => ?_) ?_
    | with_reducible dsimp only
    | (with_reducible split)

theorem kept_execRetryWaitExpiry {s₀ s : State} (hk : Kept s₀ s) (t : Tick) (c : Fin 16) : KeptOut s₀ (execRetryWaitExpiry t c s) := by
  unfold execRetryWaitExpiry
  repeat' first
    | with_reducible exact hk
    | (simp +contextual (maxDischargeDepth := 60) only [kept_enterFoc, kept_at, hk, kept_ite, keptOut_next]; done)
    | with_reducible refine kept_ite (fun _ => ?_) (fun _ => ?_)
    | with_reducible refine kept_foldl _ (fun s hk x => ?_) ?_
    | with_reducible dsimp only
    | (with_reducible split)

theorem kept_execBusSample {s₀ s : State} (hk : Kept s₀ s) (t : Tick) (b : Fin 4) (sd : BitVec 94) : KeptOut s₀ (execBusSample t b sd s) := by
  unfold execBusSample
  have hk2 := hk
  repeat' first
    | with_reducible exact hk
    | with_reducible exact hk2
    | (simp +contextual (maxDischargeDepth := 60) only [kept_busVolts, kept_setF, kept_at, kept_modBus, kept_busLadder, hk, hk2, kept_ite, keptOut_next, kept_mk]; done)
    | with_reducible refine kept_ite (fun _ => ?_) (fun _ => ?_)
    | with_reducible refine kept_foldl _ (fun s hk x => ?_) ?_
    | with_reducible dsimp only
    | (with_reducible split) <;> first | (have hk2 : Kept s₀ _ := kept_pair ‹(_ : _ × State) = (_, _)› (by simp +contextual (maxDischargeDepth := 60) only [kept_busVolts, kept_setF, kept_at, kept_modBus, kept_busLadder, hk, hk2, kept_ite, keptOut_next, kept_mk]; done)) | skip

theorem kept_execChopTimerExpiry {s₀ s : State} (hk : Kept s₀ s) (t : Tick) (b : Fin 4) : KeptOut s₀ (execChopTimerExpiry t b s) := by
  unfold execChopTimerExpiry
  repeat' first
    | with_reducible exact hk
    | (simp +contextual (maxDischargeDepth := 60) only [kept_at, kept_modBus, kept_chopFault, hk, kept_ite, keptOut_next, kept_mk]; done)
    | with_reducible refine kept_ite (fun _ => ?_) (fun _ => ?_)
    | with_reducible refine kept_foldl _ (fun s hk x => ?_) ?_
    | with_reducible dsimp only
    | (with_reducible split)

theorem kept_execBusClear {s₀ s : State} (hk : Kept s₀ s) (t : Tick) (b : Fin 4) : KeptOut s₀ (execBusClear t b s) := by
  unfold execBusClear
  repeat' first
    | with_reducible exact hk
    | (simp +contextual (maxDischargeDepth := 60) only [kept_busClear, kept_at, hk, kept_ite, keptOut_next]; done)
    | with_reducible refine kept_ite (fun _ => ?_) (fun _ => ?_)
    | with_reducible refine kept_foldl _ (fun s hk x => ?_) ?_
    | with_reducible dsimp only
    | (with_reducible split)

theorem kept_execOvercurrent {s₀ s : State} (hk : Kept s₀ s) (t : Tick) (sd : Fin 16 × BitVec 31 × BitVec 31) : KeptOut s₀ (execOvercurrent t sd s) := by
  unfold execOvercurrent
  repeat' first
    | with_reducible exact hk
    | (simp +contextual (maxDischargeDepth := 60) only [kept_at, kept_focTrip, hk, kept_ite, keptOut_next]; done)
    | with_reducible refine kept_ite (fun _ => ?_) (fun _ => ?_)
    | with_reducible refine kept_foldl _ (fun s hk x => ?_) ?_
    | with_reducible dsimp only
    | (with_reducible split)

theorem kept_execSdLoss {s₀ s : State} (hk : Kept s₀ s) (t : Tick) (sd : Fin 16 × BitVec 64 × BitVec 64) : KeptOut s₀ (execSdLoss t sd s) := by
  unfold execSdLoss
  repeat' first
    | with_reducible exact hk
    | (simp +contextual (maxDischargeDepth := 60) only [kept_at, kept_focTrip, hk, kept_ite, keptOut_next]; done)
    | with_reducible refine kept_ite (fun _ => ?_) (fun _ => ?_)
    | with_reducible refine kept_foldl _ (fun s hk x => ?_) ?_
    | with_reducible dsimp only
    | (with_reducible split)

theorem kept_execEngine {s₀ s : State} (hk : Kept s₀ s) (t : Tick) (c : Fin 16) : KeptOut s₀ (execEngine t c s) := by
  unfold execEngine
  repeat' first
    | with_reducible exact hk
    | (simp +contextual (maxDischargeDepth := 60) only [kept_focTrip, kept_at, hk, keptOut_next]; done)
    | with_reducible refine kept_ite (fun _ => ?_) (fun _ => ?_)
    | with_reducible refine kept_foldl _ (fun s hk x => ?_) ?_
    | with_reducible dsimp only
    | (with_reducible split)

theorem kept_execCmdPinEdge {s₀ s : State} (hk : Kept s₀ s) (t : Tick) (c : Fin 16) (rising : Bool) (x : Nat) : KeptOut s₀ (execCmdPinEdge t c rising x s) := by
  unfold execCmdPinEdge
  repeat' first
    | with_reducible exact hk
    | (simp +contextual (maxDischargeDepth := 60) only [kept_at, kept_setPinF, kept_modCh, kept_setB, hk, kept_ite, keptOut_next, kept_mk]; done)
    | with_reducible refine kept_ite (fun _ => ?_) (fun _ => ?_)
    | with_reducible refine kept_foldl _ (fun s hk x => ?_) ?_
    | with_reducible dsimp only
    | (with_reducible split)

theorem kept_execPinLost {s₀ s : State} (hk : Kept s₀ s) (t : Tick) (c : Fin 16) : KeptOut s₀ (execPinLost t c s) := by
  unfold execPinLost
  repeat' first
    | with_reducible exact hk
    | (simp +contextual (maxDischargeDepth := 60) only [kept_at, kept_setPinF, kept_focIrq, kept_setB, kept_raise, hk, kept_ite, keptOut_next]; done)
    | with_reducible refine kept_ite (fun _ => ?_) (fun _ => ?_)
    | with_reducible refine kept_foldl _ (fun s hk x => ?_) ?_
    | with_reducible dsimp only
    | (with_reducible split)

theorem kept_execFocEngSubstRequest {s₀ s : State} (hk : Kept s₀ s) (t : Tick) (w : Word) : KeptOut s₀ (execFocEngSubstRequest t w s) := by
  unfold execFocEngSubstRequest
  repeat' first
    | with_reducible exact hk
    | (simp +contextual (maxDischargeDepth := 60) only [kept_engSubst, kept_at, hk, kept_ite, keptOut_next]; done)
    | with_reducible refine kept_ite (fun _ => ?_) (fun _ => ?_)
    | with_reducible refine kept_foldl _ (fun s hk x => ?_) ?_
    | with_reducible dsimp only
    | (with_reducible split)

theorem kept_execFocEngSubstCancel {s₀ s : State} (hk : Kept s₀ s) (t : Tick) : KeptOut s₀ (execFocEngSubstCancel t s) := by
  unfold execFocEngSubstCancel
  repeat' first
    | with_reducible exact hk
    | (simp +contextual (maxDischargeDepth := 60) only [kept_engCancel, kept_at, hk, kept_ite, keptOut_next]; done)
    | with_reducible refine kept_ite (fun _ => ?_) (fun _ => ?_)
    | with_reducible refine kept_foldl _ (fun s hk x => ?_) ?_
    | with_reducible dsimp only
    | (with_reducible split)

theorem kept_execEngineSubstApply {s₀ s : State} (hk : Kept s₀ s) (t : Tick) : KeptOut s₀ (execEngineSubstApply t s) := by
  unfold execEngineSubstApply
  repeat' first
    | with_reducible exact hk
    | (simp +contextual (maxDischargeDepth := 60) only [kept_setF, kept_at, kept_engStatus, kept_ldgRecord, kept_setB, hk, kept_ite, keptOut_next, kept_mk]; done)
    | with_reducible refine kept_ite (fun _ => ?_) (fun _ => ?_)
    | with_reducible refine kept_foldl _ (fun s hk x => ?_) ?_
    | with_reducible dsimp only
    | (with_reducible split)

end Sys2Proof.Machine
end

