-- ==== Sys2Proof/Laws/KeptFuserCmd.lean ====
section
/-! SUPPORT. What the operations of Machine/FuserCmd.lean keep of a state. -/

namespace Sys2Proof.Machine

theorem kept_execFusZcmdOn {s₀ s : State} (hk : Kept s₀ s) (t : Tick) (z : Fin 8) : KeptOut s₀ (execFusZcmdOn t z s) := by
  unfold execFusZcmdOn
  repeat' first
    | with_reducible exact hk
    | (simp +contextual (maxDischargeDepth := 60) only [kept_zoneOn, kept_at, hk, kept_ite, keptOut_next]; done)
    | with_reducible refine kept_ite (fun _ => ?_) (fun _ => ?_)
    | with_reducible refine kept_foldl _ (fun s hk x => ?_) ?_
    | with_reducible dsimp only
    | (with_reducible split)

theorem kept_execFusZcmdOff {s₀ s : State} (hk : Kept s₀ s) (t : Tick) (z : Fin 8) : KeptOut s₀ (execFusZcmdOff t z s) := by
  unfold execFusZcmdOff
  repeat' first
    | with_reducible exact hk
    | (simp +contextual (maxDischargeDepth := 60) only [kept_zoneOff, kept_at, hk, kept_ite, keptOut_next]; done)
    | with_reducible refine kept_ite (fun _ => ?_) (fun _ => ?_)
    | with_reducible refine kept_foldl _ (fun s hk x => ?_) ?_
    | with_reducible dsimp only
    | (with_reducible split)

theorem kept_execFusZcmdClear {s₀ s : State} (hk : Kept s₀ s) (t : Tick) (z : Fin 8) : KeptOut s₀ (execFusZcmdClear t z s) := by
  unfold execFusZcmdClear
  repeat' first
    | with_reducible exact hk
    | (simp +contextual (maxDischargeDepth := 60) only [kept_zoneClear, kept_at, hk, kept_ite, keptOut_next]; done)
    | with_reducible refine kept_ite (fun _ => ?_) (fun _ => ?_)
    | with_reducible refine kept_foldl _ (fun s hk x => ?_) ?_
    | with_reducible dsimp only
    | (with_reducible split)

theorem kept_execSetpoint {s₀ s : State} (hk : Kept s₀ s) (t : Tick) (k : Fin 128) (i : Nat) : KeptOut s₀ (execSetpoint t k i s) := by
  unfold execSetpoint
  have hk5 := hk
  repeat' first
    | with_reducible exact hk
    | with_reducible exact hk5
    | (simp +contextual (maxDischargeDepth := 60) only [kept_hold, kept_modZone, kept_report, kept_take, kept_at, hk, hk5, keptOut_next, kept_mk]; done)
    | with_reducible refine kept_ite (fun _ => ?_) (fun _ => ?_)
    | with_reducible refine kept_foldl _ (fun s hk x => ?_) ?_
    | with_reducible dsimp only
    | (with_reducible split) <;> first | (have hk5 : Kept s₀ _ := kept_skipped ‹(_ : Take) = .skipped _› (by simp +contextual (maxDischargeDepth := 60) only [kept_hold, kept_modZone, kept_report, kept_take, kept_at, hk, hk5, keptOut_next, kept_mk]; done)) | (have hk5 : Kept s₀ _ := kept_run ‹(_ : Take) = .run _ _› (by simp +contextual (maxDischargeDepth := 60) only [kept_hold, kept_modZone, kept_report, kept_take, kept_at, hk, hk5, keptOut_next, kept_mk]; done)) | skip

theorem kept_execFusTtOn {s₀ s : State} (hk : Kept s₀ s) (t : Tick) (k : Fin 128) (i : Nat) : KeptOut s₀ (execFusTtOn t k i s) := by
  unfold execFusTtOn
  have hk5 := hk
  repeat' first
    | with_reducible exact hk
    | with_reducible exact hk5
    | (simp +contextual (maxDischargeDepth := 60) only [kept_zoneOn, kept_report, kept_take, kept_at, hk, hk5, kept_ite, keptOut_next, kept_mk]; done)
    | with_reducible refine kept_ite (fun _ => ?_) (fun _ => ?_)
    | with_reducible refine kept_foldl _ (fun s hk x => ?_) ?_
    | with_reducible dsimp only
    | (with_reducible split) <;> first | (have hk5 : Kept s₀ _ := kept_skipped ‹(_ : Take) = .skipped _› (by simp +contextual (maxDischargeDepth := 60) only [kept_zoneOn, kept_report, kept_take, kept_at, hk, hk5, kept_ite, keptOut_next, kept_mk]; done)) | (have hk5 : Kept s₀ _ := kept_run ‹(_ : Take) = .run _ _› (by simp +contextual (maxDischargeDepth := 60) only [kept_zoneOn, kept_report, kept_take, kept_at, hk, hk5, kept_ite, keptOut_next, kept_mk]; done)) | skip

theorem kept_execFusTtOff {s₀ s : State} (hk : Kept s₀ s) (t : Tick) (k : Fin 128) (i : Nat) : KeptOut s₀ (execFusTtOff t k i s) := by
  unfold execFusTtOff
  have hk5 := hk
  repeat' first
    | with_reducible exact hk
    | with_reducible exact hk5
    | (simp +contextual (maxDischargeDepth := 60) only [kept_report, kept_zoneOff, kept_take, kept_at, hk, hk5, keptOut_next, kept_mk]; done)
    | with_reducible refine kept_ite (fun _ => ?_) (fun _ => ?_)
    | with_reducible refine kept_foldl _ (fun s hk x => ?_) ?_
    | with_reducible dsimp only
    | (with_reducible split) <;> first | (have hk5 : Kept s₀ _ := kept_skipped ‹(_ : Take) = .skipped _› (by simp +contextual (maxDischargeDepth := 60) only [kept_report, kept_zoneOff, kept_take, kept_at, hk, hk5, keptOut_next, kept_mk]; done)) | (have hk5 : Kept s₀ _ := kept_run ‹(_ : Take) = .run _ _› (by simp +contextual (maxDischargeDepth := 60) only [kept_report, kept_zoneOff, kept_take, kept_at, hk, hk5, keptOut_next, kept_mk]; done)) | skip

theorem kept_execFuserControlPeriod {s₀ s : State} (hk : Kept s₀ s) (t : Tick) : KeptOut s₀ (execFuserControlPeriod t s) := by
  unfold execFuserControlPeriod
  repeat' first
    | with_reducible exact hk
    | (simp +contextual (maxDischargeDepth := 60) only [kept_at, kept_readySub, kept_zonePeriod, implies_true, forall_const, hk, kept_ite, kept_foldl, keptOut_next, kept_mk]; done)
    | with_reducible refine kept_ite (fun _ => ?_) (fun _ => ?_)
    | with_reducible refine kept_foldl _ (fun s hk x => ?_) ?_
    | with_reducible dsimp only
    | (with_reducible split)

theorem kept_execZcEdge {s₀ s : State} (hk : Kept s₀ s) (t : Tick) (ls : List (Bool × Nat)) : KeptOut s₀ (execZcEdge t ls s) := by
  unfold execZcEdge
  repeat' first
    | with_reducible exact hk
    | (simp +contextual (maxDischargeDepth := 60) only [kept_at, kept_zcSamples, hk, kept_ite, keptOut_next]; done)
    | with_reducible refine kept_ite (fun _ => ?_) (fun _ => ?_)
    | with_reducible refine kept_foldl _ (fun s hk x => ?_) ?_
    | with_reducible dsimp only
    | (with_reducible split)

theorem kept_execZcLoss {s₀ s : State} (hk : Kept s₀ s) (t : Tick) : KeptOut s₀ (execZcLoss t s) := by
  unfold execZcLoss
  repeat' first
    | with_reducible exact hk
    | (simp +contextual (maxDischargeDepth := 60) only [kept_zcLost, kept_at, hk, kept_ite, keptOut_next, kept_mk]; done)
    | with_reducible refine kept_ite (fun _ => ?_) (fun _ => ?_)
    | with_reducible refine kept_foldl _ (fun s hk x => ?_) ?_
    | with_reducible dsimp only
    | (with_reducible split)

theorem kept_execOtSample {s₀ s : State} (hk : Kept s₀ s) (t : Tick) (z : Fin 8) (code : BitVec 12) : KeptOut s₀ (execOtSample t z code s) := by
  unfold execOtSample
  repeat' first
    | with_reducible exact hk
    | (simp +contextual (maxDischargeDepth := 60) only [kept_otCut, kept_modZone, kept_at, hk, kept_ite, keptOut_next, kept_mk]; done)
    | with_reducible refine kept_ite (fun _ => ?_) (fun _ => ?_)
    | with_reducible refine kept_foldl _ (fun s hk x => ?_) ?_
    | with_reducible dsimp only
    | (with_reducible split)

end Sys2Proof.Machine
end

