-- ==== Sys2Proof/Laws/KeptFxCmd.lean ====
section
/-! SUPPORT. What the operations of Machine/FxCmd.lean keep of a state. -/

namespace Sys2Proof.Machine

theorem kept_execStream {s₀ s : State} (hk : Kept s₀ s) (t : Tick) (k : Fin 128) (i : Nat) : KeptOut s₀ (execStream t k i s) := by
  unfold execStream
  have hk5 := hk
  repeat' first
    | with_reducible exact hk
    | with_reducible exact hk5
    | (simp +contextual (maxDischargeDepth := 60) only [kept_take, kept_at, kept_settle, kept_report, kept_runStream, hk, hk5, keptOut_next, kept_mk]; done)
    | with_reducible refine kept_ite (fun _ => ?_) (fun _ => ?_)
    | with_reducible refine kept_foldl _ (fun s hk x => ?_) ?_
    | with_reducible dsimp only
    | (with_reducible split) <;> first | (have hk5 : Kept s₀ _ := kept_skipped ‹(_ : Take) = .skipped _› (by simp +contextual (maxDischargeDepth := 60) only [kept_take, kept_at, kept_settle, kept_report, kept_runStream, hk, hk5, keptOut_next, kept_mk]; done)) | (have hk5 : Kept s₀ _ := kept_run ‹(_ : Take) = .run _ _› (by simp +contextual (maxDischargeDepth := 60) only [kept_take, kept_at, kept_settle, kept_report, kept_runStream, hk, hk5, keptOut_next, kept_mk]; done)) | skip

theorem kept_execBandTileStart {s₀ s : State} (hk : Kept s₀ s) (t : Tick) (lane : Fin 12) : KeptOut s₀ (execBandTileStart t lane s) := by
  unfold execBandTileStart
  have hk2 := hk
  repeat' first
    | with_reducible exact hk
    | with_reducible exact hk2
    | (simp +contextual (maxDischargeDepth := 60) only [kept_at, kept_planeTile, kept_setStreams, kept_setLane, hk, hk2, kept_ite, keptOut_next, kept_mk]; done)
    | with_reducible refine kept_ite (fun _ => ?_) (fun _ => ?_)
    | with_reducible refine kept_foldl _ (fun s hk x => ?_) ?_
    | with_reducible dsimp only
    | (with_reducible split) <;> first | (have hk2 : Kept s₀ _ := kept_pair ‹(_ : _ × State) = (_, _)› (by simp +contextual (maxDischargeDepth := 60) only [kept_at, kept_planeTile, kept_setStreams, kept_setLane, hk, hk2, kept_ite, keptOut_next, kept_mk]; done)) | skip

theorem kept_execTileComplete {s₀ s : State} (hk : Kept s₀ s) (t : Tick) (lane : Fin 12) : KeptOut s₀ (execTileComplete t lane s) := by
  unfold execTileComplete
  repeat' first
    | with_reducible exact hk
    | (simp +contextual (maxDischargeDepth := 60) only [kept_completeJobTile, kept_at, kept_completeBand, hk, kept_ite, keptOut_next, kept_mk]; done)
    | with_reducible refine kept_ite (fun _ => ?_) (fun _ => ?_)
    | with_reducible refine kept_foldl _ (fun s hk x => ?_) ?_
    | with_reducible dsimp only
    | (with_reducible split)

theorem kept_execTileDecodeError {s₀ s : State} (hk : Kept s₀ s) (t : Tick) (lane : Fin 12) : KeptOut s₀ (execTileDecodeError t lane s) := by
  unfold execTileDecodeError
  repeat' first
    | with_reducible exact hk
    | (simp +contextual (maxDischargeDepth := 60) only [kept_at, kept_failBand, kept_failJobTile, hk, kept_ite, keptOut_next, kept_mk]; done)
    | with_reducible refine kept_ite (fun _ => ?_) (fun _ => ?_)
    | with_reducible refine kept_foldl _ (fun s hk x => ?_) ?_
    | with_reducible dsimp only
    | (with_reducible split)

theorem kept_execJobDecode {s₀ s : State} (hk : Kept s₀ s) (t : Tick) (lane : Fin 12) : KeptOut s₀ (execJobDecode t lane s) := by
  unfold execJobDecode
  have hk2 := hk
  repeat' first
    | with_reducible exact hk
    | with_reducible exact hk2
    | (simp +contextual (maxDischargeDepth := 60) only [kept_endJob, kept_at, kept_jobTaken, kept_readJob, kept_takeFresh, kept_setLane, kept_beginTile, hk, hk2, kept_ite, keptOut_next, kept_mk]; done)
    | with_reducible refine kept_ite (fun _ => ?_) (fun _ => ?_)
    | with_reducible refine kept_foldl _ (fun s hk x => ?_) ?_
    | with_reducible dsimp only
    | (with_reducible split) <;> first | (have hk2 : Kept s₀ _ := kept_pair ‹(_ : _ × State) = (_, _)› (by simp +contextual (maxDischargeDepth := 60) only [kept_endJob, kept_at, kept_jobTaken, kept_readJob, kept_takeFresh, kept_setLane, kept_beginTile, hk, hk2, kept_ite, keptOut_next, kept_mk]; done)) | skip

theorem kept_execJobResume {s₀ s : State} (hk : Kept s₀ s) (t : Tick) (lane : Fin 12) : KeptOut s₀ (execJobResume t lane s) := by
  unfold execJobResume
  have hk2 := hk
  repeat' first
    | with_reducible exact hk
    | with_reducible exact hk2
    | (simp +contextual (maxDischargeDepth := 60) only [kept_endJob, kept_at, kept_readMem, kept_jobTaken, kept_keepHistory, kept_readJob, kept_setLane, hk, hk2, kept_ite, keptOut_next, kept_mk]; done)
    | with_reducible refine kept_ite (fun _ => ?_) (fun _ => ?_)
    | with_reducible refine kept_foldl _ (fun s hk x => ?_) ?_
    | with_reducible dsimp only
    | (with_reducible split) <;> first | (have hk2 : Kept s₀ _ := kept_pair ‹(_ : _ × State) = (_, _)› (by simp +contextual (maxDischargeDepth := 60) only [kept_endJob, kept_at, kept_readMem, kept_jobTaken, kept_keepHistory, kept_readJob, kept_setLane, hk, hk2, kept_ite, keptOut_next, kept_mk]; done)) | skip

theorem kept_execLaneSuspend {s₀ s : State} (hk : Kept s₀ s) (t : Tick) (lane : Fin 12) : KeptOut s₀ (execLaneSuspend t lane s) := by
  unfold execLaneSuspend
  repeat' first
    | with_reducible exact hk
    | (simp +contextual (maxDischargeDepth := 60) only [kept_at, kept_suspendLane, hk, kept_ite, keptOut_next, kept_mk]; done)
    | with_reducible refine kept_ite (fun _ => ?_) (fun _ => ?_)
    | with_reducible refine kept_foldl _ (fun s hk x => ?_) ?_
    | with_reducible dsimp only
    | (with_reducible split)

theorem kept_execLaneResume {s₀ s : State} (hk : Kept s₀ s) (t : Tick) (lane : Fin 12) (w : Word) : KeptOut s₀ (execLaneResume t lane w s) := by
  unfold execLaneResume
  repeat' first
    | with_reducible exact hk
    | (simp +contextual (maxDischargeDepth := 60) only [kept_at, kept_resumeLane, hk, kept_ite, keptOut_next]; done)
    | with_reducible refine kept_ite (fun _ => ?_) (fun _ => ?_)
    | with_reducible refine kept_foldl _ (fun s hk x => ?_) ?_
    | with_reducible dsimp only
    | (with_reducible split)

theorem kept_execLaneSave {s₀ s : State} (hk : Kept s₀ s) (t : Tick) (lane : Fin 12) : KeptOut s₀ (execLaneSave t lane s) := by
  unfold execLaneSave
  repeat' first
    | with_reducible exact hk
    | (simp +contextual (maxDischargeDepth := 60) only [kept_laneSave, kept_at, hk, kept_ite, keptOut_next]; done)
    | with_reducible refine kept_ite (fun _ => ?_) (fun _ => ?_)
    | with_reducible refine kept_foldl _ (fun s hk x => ?_) ?_
    | with_reducible dsimp only
    | (with_reducible split)

theorem kept_execSaveComplete {s₀ s : State} (hk : Kept s₀ s) (t : Tick) (lane : Fin 12) : KeptOut s₀ (execSaveComplete t lane s) := by
  unfold execSaveComplete
  have hk2 := hk
  repeat' first
    | with_reducible exact hk
    | with_reducible exact hk2
    | (simp +contextual (maxDischargeDepth := 60) only [kept_endJob, kept_at, kept_completeNext, kept_writeMem, hk, hk2, kept_ite, keptOut_next, kept_mk]; done)
    | with_reducible refine kept_ite (fun _ => ?_) (fun _ => ?_)
    | with_reducible refine kept_foldl _ (fun s hk x => ?_) ?_
    | with_reducible dsimp only
    | (with_reducible split) <;> first | (have hk2 : Kept s₀ _ := kept_pair ‹(_ : _ × State) = (_, _)› (by simp +contextual (maxDischargeDepth := 60) only [kept_endJob, kept_at, kept_completeNext, kept_writeMem, hk, hk2, kept_ite, keptOut_next, kept_mk]; done)) | skip

theorem kept_execLaneAbort {s₀ s : State} (hk : Kept s₀ s) (t : Tick) (lane : Fin 12) : KeptOut s₀ (execLaneAbort t lane s) := by
  unfold execLaneAbort
  repeat' first
    | with_reducible exact hk
    | (simp +contextual (maxDischargeDepth := 60) only [kept_at, kept_laneAbort, hk, kept_ite, keptOut_next]; done)
    | with_reducible refine kept_ite (fun _ => ?_) (fun _ => ?_)
    | with_reducible refine kept_foldl _ (fun s hk x => ?_) ?_
    | with_reducible dsimp only
    | (with_reducible split)

theorem kept_execJobComplete {s₀ s : State} (hk : Kept s₀ s) (t : Tick) : KeptOut s₀ (execJobComplete t s) := by
  unfold execJobComplete
  repeat' first
    | with_reducible exact hk
    | (simp +contextual (maxDischargeDepth := 60) only [kept_at, kept_completeNext, hk, keptOut_next]; done)
    | with_reducible refine kept_ite (fun _ => ?_) (fun _ => ?_)
    | with_reducible refine kept_foldl _ (fun s hk x => ?_) ?_
    | with_reducible dsimp only
    | (with_reducible split)

theorem kept_execFxCqTailWrite {s₀ s : State} (hk : Kept s₀ s) (t : Tick) (w : Word) : KeptOut s₀ (execFxCqTailWrite t w s) := by
  unfold execFxCqTailWrite
  repeat' first
    | with_reducible exact hk
    | (simp +contextual (maxDischargeDepth := 60) only [kept_at, kept_fxTailWrite, hk, kept_ite, keptOut_next]; done)
    | with_reducible refine kept_ite (fun _ => ?_) (fun _ => ?_)
    | with_reducible refine kept_foldl _ (fun s hk x => ?_) ?_
    | with_reducible dsimp only
    | (with_reducible split)

end Sys2Proof.Machine
end

