-- ==== Sys2Proof/Laws/KeptHostIfCmd.lean ====
section
/-! SUPPORT. What the operations of Machine/HostIfCmd.lean keep of a state. -/

namespace Sys2Proof.Machine

theorem kept_execHostWrite {s₀ s : State} (hk : Kept s₀ s) (t : Tick) (bar2 : Bool) (o : BitVec 26) (data : List Byte) : KeptOut s₀ (execHostWrite t bar2 o data s) := by
  unfold execHostWrite
  have hk2 := hk
  repeat' first
    | with_reducible exact hk
    | with_reducible exact hk2
    | (simp +contextual (maxDischargeDepth := 60) only [kept_busStore, kept_setAcc, kept_hostRefuse, kept_msixWrite, kept_at, hk, hk2, kept_ite, keptOut_next]; done)
    | with_reducible refine kept_ite (fun _ => ?_) (fun _ => ?_)
    | with_reducible refine kept_foldl _ (fun s hk x => ?_) ?_
    | with_reducible dsimp only
    | (with_reducible split) <;> first | (have hk2 : Kept s₀ _ := kept_pair ‹(_ : _ × State) = (_, _)› (by simp +contextual (maxDischargeDepth := 60) only [kept_busStore, kept_setAcc, kept_hostRefuse, kept_msixWrite, kept_at, hk, hk2, kept_ite, keptOut_next]; done)) | skip

theorem kept_execHostRead {s₀ s : State} (hk : Kept s₀ s) (t : Tick) (bar2 : Bool) (o : BitVec 26) (n : Nat) : KeptOut s₀ (execHostRead t bar2 o n s) := by
  unfold execHostRead
  have hk2 := hk
  repeat' first
    | with_reducible exact hk
    | with_reducible exact hk2
    | (simp +contextual (maxDischargeDepth := 60) only [kept_setAcc, kept_hostRefuse, kept_at, kept_busLoad, hk, hk2, kept_ite, keptOut_next]; done)
    | with_reducible refine kept_ite (fun _ => ?_) (fun _ => ?_)
    | with_reducible refine kept_foldl _ (fun s hk x => ?_) ?_
    | with_reducible dsimp only
    | (with_reducible split) <;> first | (have hk2 : Kept s₀ _ := kept_pair ‹(_ : _ × State) = (_, _)› (by simp +contextual (maxDischargeDepth := 60) only [kept_setAcc, kept_hostRefuse, kept_at, kept_busLoad, hk, hk2, kept_ite, keptOut_next]; done)) | skip

theorem kept_execPcieLinkUp {s₀ s : State} (hk : Kept s₀ s) (t : Tick) (speed : Fin 8) (width : Fin 16) (bme : Bool) (msix : Bool) (mask : Bool) (d3 : Bool) : KeptOut s₀ (execPcieLinkUp t speed width bme msix mask d3 s) := by
  unfold execPcieLinkUp
  repeat' first
    | with_reducible exact hk
    | (simp +contextual (maxDischargeDepth := 60) only [kept_setF, kept_at, kept_setB, hk, kept_ite, keptOut_next, kept_mk]; done)
    | with_reducible refine kept_ite (fun _ => ?_) (fun _ => ?_)
    | with_reducible refine kept_foldl _ (fun s hk x => ?_) ?_
    | with_reducible dsimp only
    | (with_reducible split)

theorem kept_execPerstN {s₀ s : State} (hk : Kept s₀ s) (t : Tick) (low : Bool) : KeptOut s₀ (execPerstN t low s) := by
  unfold execPerstN
  repeat' first
    | with_reducible exact hk
    | (simp +contextual (maxDischargeDepth := 60) only [kept_at, kept_setB, kept_hstReset, hk, kept_ite, keptOut_next, kept_mk]; done)
    | with_reducible refine kept_ite (fun _ => ?_) (fun _ => ?_)
    | with_reducible refine kept_foldl _ (fun s hk x => ?_) ?_
    | with_reducible dsimp only
    | (with_reducible split)

theorem kept_execLinkDown {s₀ s : State} (hk : Kept s₀ s) (t : Tick) : KeptOut s₀ (execLinkDown t s) := by
  unfold execLinkDown
  repeat' first
    | with_reducible exact hk
    | (simp +contextual (maxDischargeDepth := 60) only [kept_hstLinkDown, kept_at, hk, kept_ite, keptOut_next]; done)
    | with_reducible refine kept_ite (fun _ => ?_) (fun _ => ?_)
    | with_reducible refine kept_foldl _ (fun s hk x => ?_) ?_
    | with_reducible dsimp only
    | (with_reducible split)

theorem kept_execFlr {s₀ s : State} (hk : Kept s₀ s) (t : Tick) : KeptOut s₀ (execFlr t s) := by
  unfold execFlr
  repeat' first
    | with_reducible exact hk
    | (simp +contextual (maxDischargeDepth := 60) only [kept_raise, kept_endHostDma, kept_at, kept_setB, hk, kept_ite, keptOut_next, kept_mk]; done)
    | with_reducible refine kept_ite (fun _ => ?_) (fun _ => ?_)
    | with_reducible refine kept_foldl _ (fun s hk x => ?_) ?_
    | with_reducible dsimp only
    | (with_reducible split)

theorem kept_execMsixVectorSend {s₀ s : State} (hk : Kept s₀ s) (t : Tick) (v : Fin 64) : KeptOut s₀ (execMsixVectorSend t v s) := by
  unfold execMsixVectorSend
  repeat' first
    | with_reducible exact hk
    | (simp +contextual (maxDischargeDepth := 60) only [kept_at, kept_sendVector, hk, kept_ite, keptOut_next, kept_mk]; done)
    | with_reducible refine kept_ite (fun _ => ?_) (fun _ => ?_)
    | with_reducible refine kept_foldl _ (fun s hk x => ?_) ?_
    | with_reducible dsimp only
    | (with_reducible split)

theorem kept_execHstMsixRearm {s₀ s : State} (hk : Kept s₀ s) (t : Tick) (v : Fin 64) : KeptOut s₀ (execHstMsixRearm t v s) := by
  unfold execHstMsixRearm
  repeat' first
    | with_reducible exact hk
    | (simp +contextual (maxDischargeDepth := 60) only [kept_at, kept_rearm, hk, kept_ite, keptOut_next]; done)
    | with_reducible refine kept_ite (fun _ => ?_) (fun _ => ?_)
    | with_reducible refine kept_foldl _ (fun s hk x => ?_) ?_
    | with_reducible dsimp only
    | (with_reducible split)

theorem kept_execHstDbSet {s₀ s : State} (hk : Kept s₀ s) (t : Tick) (hi : Bool) (w : Word) : KeptOut s₀ (execHstDbSet t hi w s) := by
  unfold execHstDbSet
  repeat' first
    | with_reducible exact hk
    | (simp +contextual (maxDischargeDepth := 60) only [kept_dbSet, kept_at, hk, kept_ite, keptOut_next]; done)
    | with_reducible refine kept_ite (fun _ => ?_) (fun _ => ?_)
    | with_reducible refine kept_foldl _ (fun s hk x => ?_) ?_
    | with_reducible dsimp only
    | (with_reducible split)

end Sys2Proof.Machine
end

