-- ==== Sys2Proof/Laws/KeptHvCmd.lean ====
section
/-! SUPPORT. What the operations of Machine/HvCmd.lean keep of a state. -/

namespace Sys2Proof.Machine

theorem kept_execHvRampWrite {s₀ s : State} (hk : Kept s₀ s) (t : Tick) (u : Fin 28) (w : Word) : KeptOut s₀ (execHvRampWrite t u w s) := by
  unfold execHvRampWrite
  repeat' first
    | with_reducible exact hk
    | (simp +contextual (maxDischargeDepth := 60) only [kept_at, kept_hvRampWrite, hk, kept_ite, keptOut_next]; done)
    | with_reducible refine kept_ite (fun _ => ?_) (fun _ => ?_)
    | with_reducible refine kept_foldl _ (fun s hk x => ?_) ?_
    | with_reducible dsimp only
    | (with_reducible split)

theorem kept_execRamp {s₀ s : State} (hk : Kept s₀ s) (t : Tick) (k : Fin 128) (i : Nat) : KeptOut s₀ (execRamp t k i s) := by
  unfold execRamp
  have hk5 := hk
  repeat' first
    | with_reducible exact hk
    | with_reducible exact hk5
    | (simp +contextual (maxDischargeDepth := 60) only [kept_take, kept_at, kept_startRamp, kept_incSat, kept_report, kept_modHv, hk, hk5, kept_ite, keptOut_next, kept_mk]; done)
    | with_reducible refine kept_ite (fun _ => ?_) (fun _ => ?_)
    | with_reducible refine kept_foldl _ (fun s hk x => ?_) ?_
    | with_reducible dsimp only
    | (with_reducible split) <;> first | (have hk5 : Kept s₀ _ := kept_skipped ‹(_ : Take) = .skipped _› (by simp +contextual (maxDischargeDepth := 60) only [kept_take, kept_at, kept_startRamp, kept_incSat, kept_report, kept_modHv, hk, hk5, kept_ite, keptOut_next, kept_mk]; done)) | (have hk5 : Kept s₀ _ := kept_run ‹(_ : Take) = .run _ _› (by simp +contextual (maxDischargeDepth := 60) only [kept_take, kept_at, kept_startRamp, kept_incSat, kept_report, kept_modHv, hk, hk5, kept_ite, keptOut_next, kept_mk]; done)) | skip

theorem kept_execSafeStageTimeout {s₀ s : State} (hk : Kept s₀ s) (t : Tick) : KeptOut s₀ (execSafeStageTimeout t s) := by
  unfold execSafeStageTimeout
  repeat' first
    | with_reducible exact hk
    | (simp +contextual (maxDischargeDepth := 60) only [kept_at, kept_raise, kept_setB, kept_endStage, hk, kept_ite, keptOut_next]; done)
    | with_reducible refine kept_ite (fun _ => ?_) (fun _ => ?_)
    | with_reducible refine kept_foldl _ (fun s hk x => ?_) ?_
    | with_reducible dsimp only
    | (with_reducible split)

theorem kept_execHvPeriod {s₀ s : State} (hk : Kept s₀ s) (t : Tick) : KeptOut s₀ (execHvPeriod t s) := by
  unfold execHvPeriod
  repeat' first
    | with_reducible exact hk
    | (simp +contextual (maxDischargeDepth := 60) only [kept_at, kept_checkStage, kept_beginStage, kept_applyAll, kept_rampStepHv, implies_true, forall_const, hk, kept_ite, kept_foldl, keptOut_next, kept_mk]; done)
    | with_reducible refine kept_ite (fun _ => ?_) (fun _ => ?_)
    | with_reducible refine kept_foldl _ (fun s hk x => ?_) ?_
    | with_reducible dsimp only
    | (with_reducible split)

theorem kept_execAcUpdate {s₀ s : State} (hk : Kept s₀ s) (t : Tick) : KeptOut s₀ (execAcUpdate t s) := by
  unfold execAcUpdate
  repeat' first
    | with_reducible exact hk
    | (simp +contextual (maxDischargeDepth := 60) only [kept_at, kept_acUpdate, implies_true, forall_const, hk, kept_ite, kept_foldl, keptOut_next]; done)
    | with_reducible refine kept_ite (fun _ => ?_) (fun _ => ?_)
    | with_reducible refine kept_foldl _ (fun s hk x => ?_) ?_
    | with_reducible dsimp only
    | (with_reducible split)

theorem kept_execAdcResult {s₀ s : State} (hk : Kept s₀ s) (t : Tick) (n : Fin 64) (code : BitVec 12) : KeptOut s₀ (execAdcResult t n code s) := by
  unfold execAdcResult
  repeat' first
    | with_reducible exact hk
    | (simp +contextual (maxDischargeDepth := 60) only [kept_at, kept_setReg, kept_hvSample, hk, kept_ite, keptOut_next, kept_mk]; done)
    | with_reducible refine kept_ite (fun _ => ?_) (fun _ => ?_)
    | with_reducible refine kept_foldl _ (fun s hk x => ?_) ?_
    | with_reducible dsimp only
    | (with_reducible split)

end Sys2Proof.Machine
end

