-- ==== Sys2Proof/Laws/KeptLedgerCmd.lean ====
section
/-! SUPPORT. What the operations of Machine/LedgerCmd.lean keep of a state. -/

namespace Sys2Proof.Machine

theorem kept_execLedgerUnitWrite {s₀ s : State} (hk : Kept s₀ s) (t : Tick) (first : Bool) (second : Bool) : KeptOut s₀ (execLedgerUnitWrite t first second s) := by
  unfold execLedgerUnitWrite
  repeat' first
    | with_reducible exact hk
    | (simp +contextual (maxDischargeDepth := 60) only [kept_at, kept_ldgUnit, hk, kept_ite, keptOut_next]; done)
    | with_reducible refine kept_ite (fun _ => ?_) (fun _ => ?_)
    | with_reducible refine kept_foldl _ (fun s hk x => ?_) ?_
    | with_reducible dsimp only
    | (with_reducible split)

theorem kept_execLdgApp {s₀ s : State} (hk : Kept s₀ s) (t : Tick) (w : Word) : KeptOut s₀ (execLdgApp t w s) := by
  unfold execLdgApp
  repeat' first
    | with_reducible exact hk
    | (simp +contextual (maxDischargeDepth := 60) only [kept_at, kept_ldgApp, hk, kept_ite, keptOut_next]; done)
    | with_reducible refine kept_ite (fun _ => ?_) (fun _ => ?_)
    | with_reducible refine kept_foldl _ (fun s hk x => ?_) ?_
    | with_reducible dsimp only
    | (with_reducible split)

end Sys2Proof.Machine
end

