-- ==== Sys2Proof/Laws/KeptLineNetCmd.lean ====
section
/-! SUPPORT. What the operations of Machine/LineNetCmd.lean keep of a state. -/

namespace Sys2Proof.Machine

theorem kept_execLineEnWrite {s₀ s : State} (hk : Kept s₀ s) (t : Tick) (en : Bool) : KeptOut s₀ (execLineEnWrite t en s) := by
  unfold execLineEnWrite
  repeat' first
    | with_reducible exact hk
    | (simp +contextual (maxDischargeDepth := 60) only [kept_lineEnable, kept_at, hk, kept_ite, keptOut_next]; done)
    | with_reducible refine kept_ite (fun _ => ?_) (fun _ => ?_)
    | with_reducible refine kept_foldl _ (fun s hk x => ?_) ?_
    | with_reducible dsimp only
    | (with_reducible split)

theorem kept_execPortUp {s₀ s : State} (hk : Kept s₀ s) (t : Tick) (port : Fin 2) : KeptOut s₀ (execPortUp t port s) := by
  unfold execPortUp
  repeat' first
    | with_reducible exact hk
    | (simp +contextual (maxDischargeDepth := 60) only [kept_sendJoin, kept_movePort, kept_at, hk, kept_ite, keptOut_next]; done)
    | with_reducible refine kept_ite (fun _ => ?_) (fun _ => ?_)
    | with_reducible refine kept_foldl _ (fun s hk x => ?_) ?_
    | with_reducible dsimp only
    | (with_reducible split)

theorem kept_execPortTrainTimeout {s₀ s : State} (hk : Kept s₀ s) (t : Tick) (port : Fin 2) : KeptOut s₀ (execPortTrainTimeout t port s) := by
  unfold execPortTrainTimeout
  repeat' first
    | with_reducible exact hk
    | (simp +contextual (maxDischargeDepth := 60) only [kept_movePort, kept_at, hk, kept_ite, keptOut_next]; done)
    | with_reducible refine kept_ite (fun _ => ?_) (fun _ => ?_)
    | with_reducible refine kept_foldl _ (fun s hk x => ?_) ?_
    | with_reducible dsimp only
    | (with_reducible split)

theorem kept_execPortBreak {s₀ s : State} (hk : Kept s₀ s) (t : Tick) (port : Fin 2) (lost : Bool) : KeptOut s₀ (execPortBreak t port lost s) := by
  unfold execPortBreak
  repeat' first
    | with_reducible exact hk
    | (simp +contextual (maxDischargeDepth := 60) only [kept_setPort, kept_lineEvent, kept_movePort, kept_at, hk, kept_ite, keptOut_next, kept_mkFilter]; done)
    | with_reducible refine kept_ite (fun _ => ?_) (fun _ => ?_)
    | with_reducible refine kept_foldl _ (fun s hk x => ?_) ?_
    | with_reducible dsimp only
    | (with_reducible split)

theorem kept_execPortRetrain {s₀ s : State} (hk : Kept s₀ s) (t : Tick) (port : Fin 2) : KeptOut s₀ (execPortRetrain t port s) := by
  unfold execPortRetrain
  repeat' first
    | with_reducible exact hk
    | (simp +contextual (maxDischargeDepth := 60) only [kept_movePort, kept_at, hk, kept_ite, keptOut_next]; done)
    | with_reducible refine kept_ite (fun _ => ?_) (fun _ => ?_)
    | with_reducible refine kept_foldl _ (fun s hk x => ?_) ?_
    | with_reducible dsimp only
    | (with_reducible split)

theorem kept_execLineFrameCrcFail {s₀ s : State} (hk : Kept s₀ s) (t : Tick) (port : Fin 2) : KeptOut s₀ (execLineFrameCrcFail t port s) := by
  unfold execLineFrameCrcFail
  repeat' first
    | with_reducible exact hk
    | (simp +contextual (maxDischargeDepth := 60) only [kept_lineEvent, kept_noteFrame, kept_at, kept_incSat, hk, kept_ite, keptOut_next]; done)
    | with_reducible refine kept_ite (fun _ => ?_) (fun _ => ?_)
    | with_reducible refine kept_foldl _ (fun s hk x => ?_) ?_
    | with_reducible dsimp only
    | (with_reducible split)

theorem kept_execJoin {s₀ s : State} (hk : Kept s₀ s) (t : Tick) (port : Fin 2) (origin : BitVec 10) (hops : BitVec 10) (p0 : BitVec 64) (p1 : BitVec 64) : KeptOut s₀ (execJoin t port origin hops p0 p1 s) := by
  unfold execJoin
  repeat' first
    | with_reducible exact hk
    | (simp +contextual (maxDischargeDepth := 60) only [kept_setB, kept_broadcast, kept_lineEvent, kept_joined, kept_at, implies_true, forall_const, hk, kept_ite, keptOut_next]; done)
    | with_reducible refine kept_ite (fun _ => ?_) (fun _ => ?_)
    | with_reducible refine kept_foldl _ (fun s hk x => ?_) ?_
    | with_reducible refine kept_broadcast ?_ _ _ _ (fun s hk => ?_)
    | with_reducible refine keptOut_next ?_
    | with_reducible dsimp only
    | (with_reducible split)

theorem kept_execDelayReqSend {s₀ s : State} (hk : Kept s₀ s) (t : Tick) (port : Fin 2) : KeptOut s₀ (execDelayReqSend t port s) := by
  unfold execDelayReqSend
  repeat' first
    | with_reducible exact hk
    | (simp +contextual (maxDischargeDepth := 60) only [kept_queueFrame, kept_setPort, kept_at, hk, kept_ite, keptOut_next, kept_mk]; done)
    | with_reducible refine kept_ite (fun _ => ?_) (fun _ => ?_)
    | with_reducible refine kept_foldl _ (fun s hk x => ?_) ?_
    | with_reducible dsimp only
    | (with_reducible split)

theorem kept_execDelayReq {s₀ s : State} (hk : Kept s₀ s) (t : Tick) (port : Fin 2) (p0 : BitVec 64) (rx : Nat) : KeptOut s₀ (execDelayReq t port p0 rx s) := by
  unfold execDelayReq
  repeat' first
    | with_reducible exact hk
    | (simp +contextual (maxDischargeDepth := 60) only [kept_queueFrame, kept_noteFrame, kept_at, hk, kept_ite, keptOut_next]; done)
    | with_reducible refine kept_ite (fun _ => ?_) (fun _ => ?_)
    | with_reducible refine kept_foldl _ (fun s hk x => ?_) ?_
    | with_reducible dsimp only
    | (with_reducible split)

theorem kept_execDelayResp {s₀ s : State} (hk : Kept s₀ s) (t : Tick) (port : Fin 2) (p0 : BitVec 64) (p1 : BitVec 64) (rx : Nat) : KeptOut s₀ (execDelayResp t port p0 p1 rx s) := by
  unfold execDelayResp
  repeat' first
    | with_reducible exact hk
    | (simp +contextual (maxDischargeDepth := 60) only [kept_setPort, kept_setF, kept_noteFrame, kept_at, kept_take, hk, kept_ite, keptOut_next, kept_mk]; done)
    | with_reducible refine kept_ite (fun _ => ?_) (fun _ => ?_)
    | with_reducible refine kept_foldl _ (fun s hk x => ?_) ?_
    | with_reducible dsimp only
    | (with_reducible split)

theorem kept_execSync {s₀ s : State} (hk : Kept s₀ s) (t : Tick) (port : Fin 2) (origin : BitVec 10) (hops : BitVec 10) (p0 : BitVec 64) (p1 : BitVec 64) (rx : Nat) : KeptOut s₀ (execSync t port origin hops p0 p1 rx s) := by
  unfold execSync
  repeat' first
    | with_reducible exact hk
    | (simp +contextual (maxDischargeDepth := 60) only [kept_forward, kept_setPort, kept_noteFrame, kept_at, kept_takeSync, hk, kept_ite, keptOut_next, kept_mk]; done)
    | with_reducible refine kept_ite (fun _ => ?_) (fun _ => ?_)
    | with_reducible refine kept_foldl _ (fun s hk x => ?_) ?_
    | with_reducible dsimp only
    | (with_reducible split)

theorem kept_execSyncSend {s₀ s : State} (hk : Kept s₀ s) (t : Tick) : KeptOut s₀ (execSyncSend t s) := by
  unfold execSyncSend
  repeat' first
    | with_reducible exact hk
    | (simp +contextual (maxDischargeDepth := 60) only [kept_queueFrame, kept_at, implies_true, forall_const, hk, kept_ite, kept_foldl, keptOut_next, kept_mk]; done)
    | with_reducible refine kept_ite (fun _ => ?_) (fun _ => ?_)
    | with_reducible refine kept_foldl _ (fun s hk x => ?_) ?_
    | with_reducible dsimp only
    | (with_reducible split)

theorem kept_execSyncTimeout {s₀ s : State} (hk : Kept s₀ s) (t : Tick) : KeptOut s₀ (execSyncTimeout t s) := by
  unfold execSyncTimeout
  repeat' first
    | with_reducible exact hk
    | (simp +contextual (maxDischargeDepth := 60) only [kept_setTime, kept_lineEvent, kept_setRate, kept_at, hk, kept_ite, keptOut_next]; done)
    | with_reducible refine kept_ite (fun _ => ?_) (fun _ => ?_)
    | with_reducible refine kept_foldl _ (fun s hk x => ?_) ?_
    | with_reducible dsimp only
    | (with_reducible split)

theorem kept_execLineMasterSet {s₀ s : State} (hk : Kept s₀ s) (t : Tick) (on : Bool) : KeptOut s₀ (execLineMasterSet t on s) := by
  unfold execLineMasterSet
  repeat' first
    | with_reducible exact hk
    | (simp +contextual (maxDischargeDepth := 60) only [kept_lineMaster, kept_at, hk, kept_ite, keptOut_next]; done)
    | with_reducible refine kept_ite (fun _ => ?_) (fun _ => ?_)
    | with_reducible refine kept_foldl _ (fun s hk x => ?_) ?_
    | with_reducible dsimp only
    | (with_reducible split)

theorem kept_execLineSpwFrame {s₀ s : State} (hk : Kept s₀ s) (t : Tick) (port : Fin 2) (origin : BitVec 10) (dest : BitVec 10) (hops : BitVec 10) (seq : BitVec 16) (p0 : BitVec 64) (p1 : BitVec 64) : KeptOut s₀ (execLineSpwFrame t port origin dest hops seq p0 p1 s) := by
  unfold execLineSpwFrame
  repeat' first
    | with_reducible exact hk
    | (simp +contextual (maxDischargeDepth := 60) only [kept_unicast, kept_at, kept_setPointAt, implies_true, forall_const, hk, keptOut_next]; done)
    | with_reducible refine kept_ite (fun _ => ?_) (fun _ => ?_)
    | with_reducible refine kept_foldl _ (fun s hk x => ?_) ?_
    | with_reducible refine kept_unicast ?_ _ _ _ (fun s hk => ?_)
    | with_reducible refine keptOut_next ?_
    | with_reducible dsimp only
    | (with_reducible split)

theorem kept_execPublish {s₀ s : State} (hk : Kept s₀ s) (t : Tick) (port : Fin 2) (origin : BitVec 10) (hops : BitVec 10) (seq : BitVec 16) (p0 : BitVec 64) (p1 : BitVec 64) : KeptOut s₀ (execPublish t port origin hops seq p0 p1 s) := by
  unfold execPublish
  repeat' first
    | with_reducible exact hk
    | (simp +contextual (maxDischargeDepth := 60) only [kept_broadcast, kept_setPeer, kept_at, kept_applyPublish, implies_true, forall_const, hk, kept_ite, keptOut_next, kept_mk]; done)
    | with_reducible refine kept_ite (fun _ => ?_) (fun _ => ?_)
    | with_reducible refine kept_foldl _ (fun s hk x => ?_) ?_
    | with_reducible refine kept_broadcast ?_ _ _ _ (fun s hk => ?_)
    | with_reducible refine keptOut_next ?_
    | with_reducible dsimp only
    | (with_reducible split)

theorem kept_execPublishSend {s₀ s : State} (hk : Kept s₀ s) (t : Tick) : KeptOut s₀ (execPublishSend t s) := by
  unfold execPublishSend
  repeat' first
    | with_reducible exact hk
    | (simp +contextual (maxDischargeDepth := 60) only [kept_originate, kept_at, hk, kept_ite, keptOut_next, kept_mk]; done)
    | with_reducible refine kept_ite (fun _ => ?_) (fun _ => ?_)
    | with_reducible refine kept_foldl _ (fun s hk x => ?_) ?_
    | with_reducible dsimp only
    | (with_reducible split)

theorem kept_execLineSubWrite {s₀ s : State} (hk : Kept s₀ s) (t : Tick) (j : Fin 256) (w : Word) : KeptOut s₀ (execLineSubWrite t j w s) := by
  unfold execLineSubWrite
  repeat' first
    | with_reducible exact hk
    | (simp +contextual (maxDischargeDepth := 60) only [kept_at, kept_subWrite, hk, kept_ite, keptOut_next]; done)
    | with_reducible refine kept_ite (fun _ => ?_) (fun _ => ?_)
    | with_reducible refine kept_foldl _ (fun s hk x => ?_) ?_
    | with_reducible dsimp only
    | (with_reducible split)

theorem kept_execFaultFrame {s₀ s : State} (hk : Kept s₀ s) (t : Tick) (port : Fin 2) (origin hops : BitVec 10)
    (seq : BitVec 16) (p0 : BitVec 64) : KeptOut s₀ (execFaultFrame t port origin hops seq p0 s) := by
  unfold execFaultFrame
  dsimp only
  split
  · exact keptOut_next (kept_broadcast (kept_handFault (kept_at hk _) _) _ _ _ fun _ h => h)
  · exact keptOut_next (kept_at hk _)

theorem kept_execPltFrame {s₀ s : State} (hk : Kept s₀ s) (t : Tick) (port : Fin 2) (origin : BitVec 10) (dest : BitVec 10) (hops : BitVec 10) (seq : BitVec 16) (p0 : BitVec 64) : KeptOut s₀ (execPltFrame t port origin dest hops seq p0 s) := by
  unfold execPltFrame
  repeat' first
    | with_reducible exact hk
    | (simp +contextual (maxDischargeDepth := 60) only [kept_pltTx, kept_unicast, kept_at, kept_setLink, kept_incSat, implies_true, forall_const, hk, kept_ite, keptOut_next, kept_mk]; done)
    | with_reducible refine kept_ite (fun _ => ?_) (fun _ => ?_)
    | with_reducible refine kept_foldl _ (fun s hk x => ?_) ?_
    | with_reducible refine kept_unicast ?_ _ _ _ (fun s hk => ?_)
    | with_reducible refine keptOut_next ?_
    | with_reducible dsimp only
    | (with_reducible split)

theorem kept_execPltFrameSend {s₀ s : State} (hk : Kept s₀ s) (t : Tick) (ch : Fin 64) : KeptOut s₀ (execPltFrameSend t ch s) := by
  unfold execPltFrameSend
  repeat' first
    | with_reducible exact hk
    | (simp +contextual (maxDischargeDepth := 60) only [kept_pltDrop, kept_sendUnicast, kept_at, kept_setLink, hk, kept_ite, keptOut_next, kept_mk]; done)
    | with_reducible refine kept_ite (fun _ => ?_) (fun _ => ?_)
    | with_reducible refine kept_foldl _ (fun s hk x => ?_) ?_
    | with_reducible dsimp only
    | (with_reducible split)

theorem kept_execCredit {s₀ s : State} (hk : Kept s₀ s) (t : Tick) (port : Fin 2) (origin : BitVec 10) (dest : BitVec 10) (hops : BitVec 10) (seq : BitVec 16) (p0 : BitVec 64) : KeptOut s₀ (execCredit t port origin dest hops seq p0 s) := by
  unfold execCredit
  repeat' first
    | with_reducible exact hk
    | (simp +contextual (maxDischargeDepth := 60) only [kept_unicast, kept_at, kept_setLink, implies_true, forall_const, hk, kept_ite, keptOut_next, kept_mk]; done)
    | with_reducible refine kept_ite (fun _ => ?_) (fun _ => ?_)
    | with_reducible refine kept_foldl _ (fun s hk x => ?_) ?_
    | with_reducible refine kept_unicast ?_ _ _ _ (fun s hk => ?_)
    | with_reducible refine keptOut_next ?_
    | with_reducible dsimp only
    | (with_reducible split)

end Sys2Proof.Machine
end

