-- ==== Sys2Proof/Laws/KeptMediaCmd.lean ====
section
/-! SUPPORT. What the operations of Machine/MediaCmd.lean keep of a state. -/

namespace Sys2Proof.Machine

theorem kept_execSenseEdge {s₀ s : State} (hk : Kept s₀ s) (t : Tick) (n : Fin 96) (x : Bool × Nat) (ls : List (Bool × Nat)) : KeptOut s₀ (execSenseEdge t n x ls s) := by
  unfold execSenseEdge
  repeat' first
    | with_reducible exact hk
    | (simp +contextual (maxDischargeDepth := 60) only [kept_at, kept_senseSamples, hk, kept_ite, keptOut_next]; done)
    | with_reducible refine kept_ite (fun _ => ?_) (fun _ => ?_)
    | with_reducible refine kept_foldl _ (fun s hk x => ?_) ?_
    | with_reducible dsimp only
    | (with_reducible split)

theorem kept_execWindow {s₀ s : State} (hk : Kept s₀ s) (t : Tick) (k : Fin 128) (i : Nat) : KeptOut s₀ (execWindow t k i s) := by
  unfold execWindow
  have hk5 := hk
  repeat' first
    | with_reducible exact hk
    | with_reducible exact hk5
    | (simp +contextual (maxDischargeDepth := 60) only [kept_report, kept_at, kept_take, hk, hk5, kept_ite, keptOut_next, kept_mk, kept_mkFilter]; done)
    | with_reducible refine kept_ite (fun _ => ?_) (fun _ => ?_)
    | with_reducible refine kept_foldl _ (fun s hk x => ?_) ?_
    | with_reducible dsimp only
    | (with_reducible split) <;> first | (have hk5 : Kept s₀ _ := kept_skipped ‹(_ : Take) = .skipped _› (by simp +contextual (maxDischargeDepth := 60) only [kept_report, kept_at, kept_take, hk, hk5, kept_ite, keptOut_next, kept_mk, kept_mkFilter]; done)) | (have hk5 : Kept s₀ _ := kept_run ‹(_ : Take) = .run _ _› (by simp +contextual (maxDischargeDepth := 60) only [kept_report, kept_at, kept_take, hk, hk5, kept_ite, keptOut_next, kept_mk, kept_mkFilter]; done)) | skip

theorem kept_execWindowLateExpiry {s₀ s : State} (hk : Kept s₀ s) (t : Tick) (n : Fin 96) : KeptOut s₀ (execWindowLateExpiry t n s) := by
  unfold execWindowLateExpiry
  repeat' first
    | with_reducible exact hk
    | (simp +contextual (maxDischargeDepth := 60) only [kept_at, kept_windowMissed, implies_true, forall_const, hk, kept_ite, kept_foldl, keptOut_next, kept_mkFilter]; done)
    | with_reducible refine kept_ite (fun _ => ?_) (fun _ => ?_)
    | with_reducible refine kept_foldl _ (fun s hk x => ?_) ?_
    | with_reducible dsimp only
    | (with_reducible split)

theorem kept_execSet {s₀ s : State} (hk : Kept s₀ s) (t : Tick) (k : Fin 128) (i : Nat) : KeptOut s₀ (execSet t k i s) := by
  unfold execSet
  have hk5 := hk
  repeat' first
    | with_reducible exact hk
    | with_reducible exact hk5
    | (simp +contextual (maxDischargeDepth := 60) only [kept_report, kept_at, kept_take, kept_ttOut, hk, hk5, keptOut_next, kept_mk]; done)
    | with_reducible refine kept_ite (fun _ => ?_) (fun _ => ?_)
    | with_reducible refine kept_foldl _ (fun s hk x => ?_) ?_
    | with_reducible dsimp only
    | (with_reducible split) <;> first | (have hk5 : Kept s₀ _ := kept_skipped ‹(_ : Take) = .skipped _› (by simp +contextual (maxDischargeDepth := 60) only [kept_report, kept_at, kept_take, kept_ttOut, hk, hk5, keptOut_next, kept_mk]; done)) | (have hk5 : Kept s₀ _ := kept_run ‹(_ : Take) = .run _ _› (by simp +contextual (maxDischargeDepth := 60) only [kept_report, kept_at, kept_take, kept_ttOut, hk, hk5, keptOut_next, kept_mk]; done)) | skip

theorem kept_execPulse {s₀ s : State} (hk : Kept s₀ s) (t : Tick) (k : Fin 128) (i : Nat) : KeptOut s₀ (execPulse t k i s) := by
  unfold execPulse
  have hk5 := hk
  repeat' first
    | with_reducible exact hk
    | with_reducible exact hk5
    | (simp +contextual (maxDischargeDepth := 60) only [kept_report, kept_at, kept_take, kept_ttOut, hk, hk5, kept_ite, keptOut_next, kept_mk]; done)
    | with_reducible refine kept_ite (fun _ => ?_) (fun _ => ?_)
    | with_reducible refine kept_foldl _ (fun s hk x => ?_) ?_
    | with_reducible dsimp only
    | (with_reducible split) <;> first | (have hk5 : Kept s₀ _ := kept_skipped ‹(_ : Take) = .skipped _› (by simp +contextual (maxDischargeDepth := 60) only [kept_report, kept_at, kept_take, kept_ttOut, hk, hk5, kept_ite, keptOut_next, kept_mk]; done)) | (have hk5 : Kept s₀ _ := kept_run ‹(_ : Take) = .run _ _› (by simp +contextual (maxDischargeDepth := 60) only [kept_report, kept_at, kept_take, kept_ttOut, hk, hk5, kept_ite, keptOut_next, kept_mk]; done)) | skip

theorem kept_execPulseEnd {s₀ s : State} (hk : Kept s₀ s) (t : Tick) (n : Fin 64) : KeptOut s₀ (execPulseEnd t n s) := by
  unfold execPulseEnd
  repeat' first
    | with_reducible exact hk
    | (simp +contextual (maxDischargeDepth := 60) only [kept_setOut, kept_at, kept_setPulse, hk, kept_ite, keptOut_next, kept_mk]; done)
    | with_reducible refine kept_ite (fun _ => ?_) (fun _ => ?_)
    | with_reducible refine kept_foldl _ (fun s hk x => ?_) ?_
    | with_reducible dsimp only
    | (with_reducible split)

theorem kept_execSnsOutWrite {s₀ s : State} (hk : Kept s₀ s) (t : Tick) (high : Bool) (w : Word) : KeptOut s₀ (execSnsOutWrite t high w s) := by
  unfold execSnsOutWrite
  repeat' first
    | with_reducible exact hk
    | (simp +contextual (maxDischargeDepth := 60) only [kept_snsOutWrite, kept_at, hk, kept_ite, keptOut_next]; done)
    | with_reducible refine kept_ite (fun _ => ?_) (fun _ => ?_)
    | with_reducible refine kept_foldl _ (fun s hk x => ?_) ?_
    | with_reducible dsimp only
    | (with_reducible split)

end Sys2Proof.Machine
end

