-- ==== Sys2Proof/Laws/KeptModeCmd.lean ====
section
/-! SUPPORT. What the operations of Machine/ModeCmd.lean keep of a state. -/

namespace Sys2Proof.Machine

theorem kept_execModeChangeDone {s₀ s : State} (hk : Kept s₀ s) (t : Tick) : KeptOut s₀ (execModeChangeDone t s) := by
  unfold execModeChangeDone
  repeat' first
    | with_reducible exact hk
    | (simp +contextual (maxDischargeDepth := 60) only [kept_at, kept_changeEnd, hk, kept_ite, keptOut_next]; done)
    | with_reducible refine kept_ite (fun _ => ?_) (fun _ => ?_)
    | with_reducible refine kept_foldl _ (fun s hk x => ?_) ?_
    | with_reducible dsimp only
    | (with_reducible split)

theorem kept_execModeReqArchive {s₀ s : State} (hk : Kept s₀ s) (t : Tick) : KeptOut s₀ (execModeReqArchive t s) := by
  unfold execModeReqArchive
  repeat' first
    | with_reducible exact hk
    | (simp +contextual (maxDischargeDepth := 60) only [kept_at, kept_modeAsk, hk, keptOut_next]; done)
    | with_reducible refine kept_ite (fun _ => ?_) (fun _ => ?_)
    | with_reducible refine kept_foldl _ (fun s hk x => ?_) ?_
    | with_reducible dsimp only
    | (with_reducible split)

theorem kept_execModeReqStandby {s₀ s : State} (hk : Kept s₀ s) (t : Tick) : KeptOut s₀ (execModeReqStandby t s) := by
  unfold execModeReqStandby
  repeat' first
    | with_reducible exact hk
    | (simp +contextual (maxDischargeDepth := 60) only [kept_at, kept_modeAsk, hk, keptOut_next]; done)
    | with_reducible refine kept_ite (fun _ => ?_) (fun _ => ?_)
    | with_reducible refine kept_foldl _ (fun s hk x => ?_) ?_
    | with_reducible dsimp only
    | (with_reducible split)

theorem kept_execModeReqBoot {s₀ s : State} (hk : Kept s₀ s) (t : Tick) : KeptOut s₀ (execModeReqBoot t s) := by
  unfold execModeReqBoot
  repeat' first
    | with_reducible exact hk
    | (simp +contextual (maxDischargeDepth := 60) only [kept_at, kept_modeAsk, hk, keptOut_next]; done)
    | with_reducible refine kept_ite (fun _ => ?_) (fun _ => ?_)
    | with_reducible refine kept_foldl _ (fun s hk x => ?_) ?_
    | with_reducible dsimp only
    | (with_reducible split)

theorem kept_execModeReqReady {s₀ s : State} (hk : Kept s₀ s) (t : Tick) : KeptOut s₀ (execModeReqReady t s) := by
  unfold execModeReqReady
  repeat' first
    | with_reducible exact hk
    | (simp +contextual (maxDischargeDepth := 60) only [kept_at, kept_modeAsk, hk, keptOut_next]; done)
    | with_reducible refine kept_ite (fun _ => ?_) (fun _ => ?_)
    | with_reducible refine kept_foldl _ (fun s hk x => ?_) ?_
    | with_reducible dsimp only
    | (with_reducible split)

theorem kept_execModeReqPrint {s₀ s : State} (hk : Kept s₀ s) (t : Tick) : KeptOut s₀ (execModeReqPrint t s) := by
  unfold execModeReqPrint
  repeat' first
    | with_reducible exact hk
    | (simp +contextual (maxDischargeDepth := 60) only [kept_at, kept_modeAsk, hk, keptOut_next]; done)
    | with_reducible refine kept_ite (fun _ => ?_) (fun _ => ?_)
    | with_reducible refine kept_foldl _ (fun s hk x => ?_) ?_
    | with_reducible dsimp only
    | (with_reducible split)

theorem kept_execModeReqDrain {s₀ s : State} (hk : Kept s₀ s) (t : Tick) : KeptOut s₀ (execModeReqDrain t s) := by
  unfold execModeReqDrain
  repeat' first
    | with_reducible exact hk
    | (simp +contextual (maxDischargeDepth := 60) only [kept_at, kept_modeAsk, hk, keptOut_next]; done)
    | with_reducible refine kept_ite (fun _ => ?_) (fun _ => ?_)
    | with_reducible refine kept_foldl _ (fun s hk x => ?_) ?_
    | with_reducible dsimp only
    | (with_reducible split)

theorem kept_execModeReqSafe {s₀ s : State} (hk : Kept s₀ s) (t : Tick) : KeptOut s₀ (execModeReqSafe t s) := by
  unfold execModeReqSafe
  repeat' first
    | with_reducible exact hk
    | (simp +contextual (maxDischargeDepth := 60) only [kept_modeEvent, kept_at, hk, keptOut_next]; done)
    | with_reducible refine kept_ite (fun _ => ?_) (fun _ => ?_)
    | with_reducible refine kept_foldl _ (fun s hk x => ?_) ?_
    | with_reducible dsimp only
    | (with_reducible split)

theorem kept_execModeReqService {s₀ s : State} (hk : Kept s₀ s) (t : Tick) : KeptOut s₀ (execModeReqService t s) := by
  unfold execModeReqService
  repeat' first
    | with_reducible exact hk
    | (simp +contextual (maxDischargeDepth := 60) only [kept_at, kept_modeAsk, hk, keptOut_next]; done)
    | with_reducible refine kept_ite (fun _ => ?_) (fun _ => ?_)
    | with_reducible refine kept_foldl _ (fun s hk x => ?_) ?_
    | with_reducible dsimp only
    | (with_reducible split)

theorem kept_execIntlkAssert {s₀ s : State} (hk : Kept s₀ s) (x : Samples Bool) : KeptOut s₀ (execIntlkAssert x s) := by
  unfold execIntlkAssert
  repeat' first
    | with_reducible exact hk
    | (simp +contextual (maxDischargeDepth := 60) only [kept_at, kept_intlkSamples, hk, keptOut_next]; done)
    | with_reducible refine kept_ite (fun _ => ?_) (fun _ => ?_)
    | with_reducible refine kept_foldl _ (fun s hk x => ?_) ?_
    | with_reducible dsimp only
    | (with_reducible split)

theorem kept_execIntlkNegate {s₀ s : State} (hk : Kept s₀ s) (x : Samples Bool) : KeptOut s₀ (execIntlkNegate x s) := by
  unfold execIntlkNegate
  repeat' first
    | with_reducible exact hk
    | (simp +contextual (maxDischargeDepth := 60) only [kept_at, kept_intlkSamples, hk, keptOut_next]; done)
    | with_reducible refine kept_ite (fun _ => ?_) (fun _ => ?_)
    | with_reducible refine kept_foldl _ (fun s hk x => ?_) ?_
    | with_reducible dsimp only
    | (with_reducible split)

theorem kept_execSafeSequenceComplete {s₀ s : State} (hk : Kept s₀ s) (t : Tick) : KeptOut s₀ (execSafeSequenceComplete t s) := by
  unfold execSafeSequenceComplete
  repeat' first
    | with_reducible exact hk
    | (simp +contextual (maxDischargeDepth := 60) only [kept_at, kept_setB, hk, kept_ite, keptOut_next]; done)
    | with_reducible refine kept_ite (fun _ => ?_) (fun _ => ?_)
    | with_reducible refine kept_foldl _ (fun s hk x => ?_) ?_
    | with_reducible dsimp only
    | (with_reducible split)

end Sys2Proof.Machine
end

