-- ==== Sys2Proof/Laws/KeptPltCmd.lean ====
section
/-! SUPPORT. What the operations of Machine/PltCmd.lean keep of a state. -/

namespace Sys2Proof.Machine

theorem kept_execPltChCfgWrite {s₀ s : State} (hk : Kept s₀ s) (t : Tick) (ini : Fin 7) (c : Fin 64) (w : Word) : KeptOut s₀ (execPltChCfgWrite t ini c w s) := by
  unfold execPltChCfgWrite
  repeat' first
    | with_reducible exact hk
    | (simp +contextual (maxDischargeDepth := 60) only [kept_pltCfg, kept_setAcc, kept_at, hk, kept_ite, keptOut_next]; done)
    | with_reducible refine kept_ite (fun _ => ?_) (fun _ => ?_)
    | with_reducible refine kept_foldl _ (fun s hk x => ?_) ?_
    | with_reducible dsimp only
    | (with_reducible split)

theorem kept_execPltTx {s₀ s : State} (hk : Kept s₀ s) (t : Tick) (ini : Fin 7) (c : Fin 64) (w : Word) : KeptOut s₀ (execPltTx t ini c w s) := by
  unfold execPltTx
  repeat' first
    | with_reducible exact hk
    | (simp +contextual (maxDischargeDepth := 60) only [kept_pltTx, kept_at, hk, keptOut_next]; done)
    | with_reducible refine kept_ite (fun _ => ?_) (fun _ => ?_)
    | with_reducible refine kept_foldl _ (fun s hk x => ?_) ?_
    | with_reducible dsimp only
    | (with_reducible split)

theorem kept_execPltPop {s₀ s : State} (hk : Kept s₀ s) (t : Tick) (ini : Fin 7) (c : Fin 64) (n : Fin 16) : KeptOut s₀ (execPltPop t ini c n s) := by
  unfold execPltPop
  repeat' first
    | with_reducible exact hk
    | (simp +contextual (maxDischargeDepth := 60) only [kept_pltPop, kept_at, hk, keptOut_next]; done)
    | with_reducible refine kept_ite (fun _ => ?_) (fun _ => ?_)
    | with_reducible refine kept_foldl _ (fun s hk x => ?_) ?_
    | with_reducible dsimp only
    | (with_reducible split)

theorem kept_execPltRxRead {s₀ s : State} (hk : Kept s₀ s) (t : Tick) (ini : Fin 7) (c : Fin 64) (i : Fin 8) : KeptOut s₀ (execPltRxRead t ini c i s) := by
  unfold execPltRxRead
  have hk2 := hk
  repeat' first
    | with_reducible exact hk
    | with_reducible exact hk2
    | (simp +contextual (maxDischargeDepth := 60) only [kept_setAcc, kept_pltRx, kept_at, hk, hk2, keptOut_next]; done)
    | with_reducible refine kept_ite (fun _ => ?_) (fun _ => ?_)
    | with_reducible refine kept_foldl _ (fun s hk x => ?_) ?_
    | with_reducible dsimp only
    | (with_reducible split) <;> first | (have hk2 : Kept s₀ _ := kept_pair ‹(_ : _ × State) = (_, _)› (by simp +contextual (maxDischargeDepth := 60) only [kept_setAcc, kept_pltRx, kept_at, hk, hk2, keptOut_next]; done)) | skip

theorem kept_execPltWordArrive {s₀ s : State} (hk : Kept s₀ s) (t : Tick) (c : Fin 64) (toB : Bool) : KeptOut s₀ (execPltWordArrive t c toB s) := by
  unfold execPltWordArrive
  repeat' first
    | with_reducible exact hk
    | (simp +contextual (maxDischargeDepth := 60) only [kept_pltArrive, kept_at, hk, kept_ite, keptOut_next, kept_mk]; done)
    | with_reducible refine kept_ite (fun _ => ?_) (fun _ => ?_)
    | with_reducible refine kept_foldl _ (fun s hk x => ?_) ?_
    | with_reducible dsimp only
    | (with_reducible split)

end Sys2Proof.Machine
end

