-- ==== Sys2Proof/Laws/KeptPowerCmd.lean ====
section
/-! SUPPORT. What the operations of Machine/PowerCmd.lean keep of a state. -/

namespace Sys2Proof.Machine

theorem kept_execDomReqOn {s₀ s : State} (hk : Kept s₀ s) (t : Tick) (d : Fin 16) : KeptOut s₀ (execDomReqOn t d s) := by
  unfold execDomReqOn
  repeat' first
    | with_reducible exact hk
    | (simp +contextual (maxDischargeDepth := 60) only [kept_domRequest, kept_at, hk, keptOut_next]; done)
    | with_reducible refine kept_ite (fun _ => ?_) (fun _ => ?_)
    | with_reducible refine kept_foldl _ (fun s hk x => ?_) ?_
    | with_reducible dsimp only
    | (with_reducible split)

theorem kept_execDomReqOff {s₀ s : State} (hk : Kept s₀ s) (t : Tick) (d : Fin 16) : KeptOut s₀ (execDomReqOff t d s) := by
  unfold execDomReqOff
  repeat' first
    | with_reducible exact hk
    | (simp +contextual (maxDischargeDepth := 60) only [kept_domRequest, kept_at, hk, keptOut_next]; done)
    | with_reducible refine kept_ite (fun _ => ?_) (fun _ => ?_)
    | with_reducible refine kept_foldl _ (fun s hk x => ?_) ?_
    | with_reducible dsimp only
    | (with_reducible split)

theorem kept_execSeqStart {s₀ s : State} (hk : Kept s₀ s) (x : Bool × Samples (Bool × Nat)) : KeptOut s₀ (execSeqStart x s) := by
  unfold execSeqStart
  have hk2 := hk
  repeat' first
    | with_reducible exact hk
    | with_reducible exact hk2
    | (simp +contextual (maxDischargeDepth := 60) only [kept_setB, kept_takeRailCfg, kept_setSeq, kept_railGood, kept_vinSamples, kept_at, kept_setRail, hk, hk2, kept_ite, keptOut_next, kept_mk]; done)
    | with_reducible refine kept_ite (fun _ => ?_) (fun _ => ?_)
    | with_reducible refine kept_foldl _ (fun s hk x => ?_) ?_
    | with_reducible dsimp only
    | (with_reducible split) <;> first | (have hk2 : Kept s₀ _ := kept_pair ‹(_ : _ × State) = (_, _)› (by simp +contextual (maxDischargeDepth := 60) only [kept_setB, kept_takeRailCfg, kept_setSeq, kept_railGood, kept_vinSamples, kept_at, kept_setRail, hk, hk2, kept_ite, keptOut_next, kept_mk]; done)) | skip

theorem kept_execPgoodHigh {s₀ s : State} (hk : Kept s₀ s) (x : Samples Bool) (i : Fin 8) : KeptOut s₀ (execPgoodHigh x i s) := by
  unfold execPgoodHigh
  repeat' first
    | with_reducible exact hk
    | (simp +contextual (maxDischargeDepth := 60) only [kept_pgSamples, kept_at, kept_railGood, hk, keptOut_next]; done)
    | with_reducible refine kept_ite (fun _ => ?_) (fun _ => ?_)
    | with_reducible refine kept_foldl _ (fun s hk x => ?_) ?_
    | with_reducible dsimp only
    | (with_reducible split)

theorem kept_execPgLost {s₀ s : State} (hk : Kept s₀ s) (x : Samples Bool) (i : Fin 8) : KeptOut s₀ (execPgLost x i s) := by
  unfold execPgLost
  repeat' first
    | with_reducible exact hk
    | (simp +contextual (maxDischargeDepth := 60) only [kept_railFail, kept_at, kept_pgSamples, hk, kept_ite, keptOut_next]; done)
    | with_reducible refine kept_ite (fun _ => ?_) (fun _ => ?_)
    | with_reducible refine kept_foldl _ (fun s hk x => ?_) ?_
    | with_reducible dsimp only
    | (with_reducible split)

theorem kept_execPgTimeout {s₀ s : State} (hk : Kept s₀ s) (t : Tick) : KeptOut s₀ (execPgTimeout t s) := by
  unfold execPgTimeout
  repeat' first
    | with_reducible exact hk
    | (simp +contextual (maxDischargeDepth := 60) only [kept_railFail, kept_at, hk, kept_ite, keptOut_next]; done)
    | with_reducible refine kept_ite (fun _ => ?_) (fun _ => ?_)
    | with_reducible refine kept_foldl _ (fun s hk x => ?_) ?_
    | with_reducible dsimp only
    | (with_reducible split)

theorem kept_execRailGapExpiry {s₀ s : State} (hk : Kept s₀ s) (t : Tick) : KeptOut s₀ (execRailGapExpiry t s) := by
  unfold execRailGapExpiry
  repeat' first
    | with_reducible exact hk
    | (simp +contextual (maxDischargeDepth := 60) only [kept_fallNext, kept_railGood, kept_at, kept_setRail, hk, kept_ite, keptOut_next, kept_mk]; done)
    | with_reducible refine kept_ite (fun _ => ?_) (fun _ => ?_)
    | with_reducible refine kept_foldl _ (fun s hk x => ?_) ?_
    | with_reducible dsimp only
    | (with_reducible split)

theorem kept_execPorHoldExpiry {s₀ s : State} (hk : Kept s₀ s) (t : Tick) : KeptOut s₀ (execPorHoldExpiry t s) := by
  unfold execPorHoldExpiry
  repeat' first
    | with_reducible exact hk
    | (simp +contextual (maxDischargeDepth := 60) only [kept_lcWipe, kept_por, kept_at, hk, kept_ite, keptOut_next]; done)
    | with_reducible refine kept_ite (fun _ => ?_) (fun _ => ?_)
    | with_reducible refine kept_foldl _ (fun s hk x => ?_) ?_
    | with_reducible dsimp only
    | (with_reducible split)

theorem kept_execVmonSample {s₀ s : State} (hk : Kept s₀ s) (t : Tick) (i : Fin 8) (code : BitVec 10) : KeptOut s₀ (execVmonSample t i code s) := by
  unfold execVmonSample
  repeat' first
    | with_reducible exact hk
    | (simp +contextual (maxDischargeDepth := 60) only [kept_railFail, kept_setF, kept_at, hk, kept_ite, keptOut_next, kept_mk]; done)
    | with_reducible refine kept_ite (fun _ => ?_) (fun _ => ?_)
    | with_reducible refine kept_foldl _ (fun s hk x => ?_) ?_
    | with_reducible dsimp only
    | (with_reducible split)

theorem kept_execVinLost {s₀ s : State} (hk : Kept s₀ s) (x : Samples (Bool × Nat)) : KeptOut s₀ (execVinLost x s) := by
  unfold execVinLost
  have hk2 := hk
  repeat' first
    | with_reducible exact hk
    | with_reducible exact hk2
    | (simp +contextual (maxDischargeDepth := 60) only [kept_fall, kept_setB, kept_vinSamples, kept_at, kept_raise, hk, hk2, kept_ite, keptOut_next]; done)
    | with_reducible refine kept_ite (fun _ => ?_) (fun _ => ?_)
    | with_reducible refine kept_foldl _ (fun s hk x => ?_) ?_
    | with_reducible dsimp only
    | (with_reducible split) <;> first | (have hk2 : Kept s₀ _ := kept_pair ‹(_ : _ × State) = (_, _)› (by simp +contextual (maxDischargeDepth := 60) only [kept_fall, kept_setB, kept_vinSamples, kept_at, kept_raise, hk, hk2, kept_ite, keptOut_next]; done)) | skip

theorem kept_execPwrClrEdge {s₀ s : State} (hk : Kept s₀ s) (t : Tick) : KeptOut s₀ (execPwrClrEdge t s) := by
  unfold execPwrClrEdge
  repeat' first
    | with_reducible exact hk
    | (simp +contextual (maxDischargeDepth := 60) only [kept_setSeq, kept_at, hk, kept_ite, keptOut_next, kept_mk]; done)
    | with_reducible refine kept_ite (fun _ => ?_) (fun _ => ?_)
    | with_reducible refine kept_foldl _ (fun s hk x => ?_) ?_
    | with_reducible dsimp only
    | (with_reducible split)

theorem kept_execStandbyReset {s₀ s : State} (hk : Kept s₀ s) (t : Tick) : KeptOut s₀ (execStandbyReset t s) := by
  unfold execStandbyReset
  repeat' first
    | with_reducible exact hk
    | (simp +contextual (maxDischargeDepth := 60) only [kept_domainsLost, kept_at, kept_standbyReset, kept_stopClock, hk, keptOut_next]; done)
    | with_reducible refine kept_ite (fun _ => ?_) (fun _ => ?_)
    | with_reducible refine kept_foldl _ (fun s hk x => ?_) ?_
    | with_reducible dsimp only
    | (with_reducible split)

theorem kept_execVstbyLoss {s₀ s : State} (hk : Kept s₀ s) (t : Tick) : KeptOut s₀ (execVstbyLoss t s) := by
  unfold execVstbyLoss
  repeat' first
    | with_reducible exact hk
    | (simp +contextual (maxDischargeDepth := 60) only [kept_domainsLost, kept_resetRegs, kept_por, kept_at, hk, keptOut_next, kept_mk]; done)
    | with_reducible refine kept_ite (fun _ => ?_) (fun _ => ?_)
    | with_reducible refine kept_foldl _ (fun s hk x => ?_) ?_
    | with_reducible dsimp only
    | (with_reducible split)

theorem kept_execDomainStepReady {s₀ s : State} (hk : Kept s₀ s) (t : Tick) (d : Fin 16) : KeptOut s₀ (execDomainStepReady t d s) := by
  unfold execDomainStepReady
  repeat' first
    | with_reducible exact hk
    | (simp +contextual (maxDischargeDepth := 60) only [kept_stepReady, kept_at, hk, keptOut_next]; done)
    | with_reducible refine kept_ite (fun _ => ?_) (fun _ => ?_)
    | with_reducible refine kept_foldl _ (fun s hk x => ?_) ?_
    | with_reducible dsimp only
    | (with_reducible split)

theorem kept_execDomFail {s₀ s : State} (hk : Kept s₀ s) (t : Tick) (d : Fin 16) : KeptOut s₀ (execDomFail t d s) := by
  unfold execDomFail
  repeat' first
    | with_reducible exact hk
    | (simp +contextual (maxDischargeDepth := 60) only [kept_setB, kept_setDom, kept_setF, kept_domMoved, kept_domReset, kept_thermalFall, kept_at, kept_raise, hk, kept_ite, keptOut_next, kept_mk]; done)
    | with_reducible refine kept_ite (fun _ => ?_) (fun _ => ?_)
    | with_reducible refine kept_foldl _ (fun s hk x => ?_) ?_
    | with_reducible dsimp only
    | (with_reducible split)

theorem kept_execArchiveWaitEnd {s₀ s : State} (hk : Kept s₀ s) (t : Tick) : KeptOut s₀ (execArchiveWaitEnd t s) := by
  unfold execArchiveWaitEnd
  repeat' first
    | with_reducible exact hk
    | (simp +contextual (maxDischargeDepth := 60) only [kept_takeHeld, kept_pwrEdge, kept_lowerReady, kept_at, kept_archiveRefuse, hk, kept_ite, keptOut_next, kept_mk, kept_mkFilter]; done)
    | with_reducible refine kept_ite (fun _ => ?_) (fun _ => ?_)
    | with_reducible refine kept_foldl _ (fun s hk x => ?_) ?_
    | with_reducible dsimp only
    | (with_reducible split)

theorem kept_execArchiveWaitTimeout {s₀ s : State} (hk : Kept s₀ s) (t : Tick) : KeptOut s₀ (execArchiveWaitTimeout t s) := by
  unfold execArchiveWaitTimeout
  repeat' first
    | with_reducible exact hk
    | (simp +contextual (maxDischargeDepth := 60) only [kept_takeHeld, kept_at, kept_archiveRefuse, hk, kept_ite, keptOut_next, kept_mk]; done)
    | with_reducible refine kept_ite (fun _ => ?_) (fun _ => ?_)
    | with_reducible refine kept_foldl _ (fun s hk x => ?_) ?_
    | with_reducible dsimp only
    | (with_reducible split)

theorem kept_execWakeN {s₀ s : State} (hk : Kept s₀ s) (x : Samples Bool) : KeptOut s₀ (execWakeN x s) := by
  unfold execWakeN
  repeat' first
    | with_reducible exact hk
    | (simp +contextual (maxDischargeDepth := 60) only [kept_at, kept_wakeEvent, implies_true, forall_const, hk, kept_ite, kept_foldl, keptOut_next, kept_mk]; done)
    | with_reducible refine kept_ite (fun _ => ?_) (fun _ => ?_)
    | with_reducible refine kept_foldl _ (fun s hk x => ?_) ?_
    | with_reducible dsimp only
    | (with_reducible split)

theorem kept_execWakeTimer {s₀ s : State} (hk : Kept s₀ s) (t : Tick) : KeptOut s₀ (execWakeTimer t s) := by
  unfold execWakeTimer
  repeat' first
    | with_reducible exact hk
    | (simp +contextual (maxDischargeDepth := 60) only [kept_at, kept_wakeEvent, hk, kept_ite, keptOut_next, kept_mk]; done)
    | with_reducible refine kept_ite (fun _ => ?_) (fun _ => ?_)
    | with_reducible refine kept_foldl _ (fun s hk x => ?_) ?_
    | with_reducible dsimp only
    | (with_reducible split)

theorem kept_execVreqStart {s₀ s : State} (hk : Kept s₀ s) (t : Tick) (w : Word) : KeptOut s₀ (execVreqStart t w s) := by
  unfold execVreqStart
  repeat' first
    | with_reducible exact hk
    | (simp +contextual (maxDischargeDepth := 60) only [kept_at, kept_vreqStart, hk, keptOut_next]; done)
    | with_reducible refine kept_ite (fun _ => ?_) (fun _ => ?_)
    | with_reducible refine kept_foldl _ (fun s hk x => ?_) ?_
    | with_reducible dsimp only
    | (with_reducible split)

theorem kept_execVreqPoll {s₀ s : State} (hk : Kept s₀ s) (t : Tick) (answer : Fin 4) (read : BitVec 16) : KeptOut s₀ (execVreqPoll t answer read s) := by
  unfold execVreqPoll
  repeat' first
    | with_reducible exact hk
    | (simp +contextual (maxDischargeDepth := 60) only [kept_vreqEnd, kept_startRegs, kept_setF, kept_answer, kept_at, kept_raise, hk, kept_ite, keptOut_next, kept_mk]; done)
    | with_reducible refine kept_ite (fun _ => ?_) (fun _ => ?_)
    | with_reducible refine kept_foldl _ (fun s hk x => ?_) ?_
    | with_reducible dsimp only
    | (with_reducible split)

theorem kept_execVreqTimeout {s₀ s : State} (hk : Kept s₀ s) (t : Tick) : KeptOut s₀ (execVreqTimeout t s) := by
  unfold execVreqTimeout
  repeat' first
    | with_reducible exact hk
    | (simp +contextual (maxDischargeDepth := 60) only [kept_vreqEnd, kept_startRegs, kept_at, kept_raise, hk, kept_ite, keptOut_next]; done)
    | with_reducible refine kept_ite (fun _ => ?_) (fun _ => ?_)
    | with_reducible refine kept_foldl _ (fun s hk x => ?_) ?_
    | with_reducible dsimp only
    | (with_reducible split)

end Sys2Proof.Machine
end

