-- ==== Sys2Proof/Laws/KeptScanCmd.lean ====
section
/-! SUPPORT. What the operations of Machine/ScanCmd.lean keep of a state. -/

namespace Sys2Proof.Machine

theorem kept_execSosEdge {s₀ s : State} (hk : Kept s₀ s) (t : Tick) (st : Fin 6) (x : Nat) : KeptOut s₀ (execSosEdge t st x s) := by
  unfold execSosEdge
  repeat' first
    | with_reducible exact hk
    | (simp +contextual (maxDischargeDepth := 60) only [kept_stray, kept_modScn, kept_noteEdge, kept_addDelta, kept_takeSos, kept_spinupSos, kept_at, hk, kept_ite, keptOut_next, kept_mk]; done)
    | with_reducible refine kept_ite (fun _ => ?_) (fun _ => ?_)
    | with_reducible refine kept_foldl _ (fun s hk x => ?_) ?_
    | with_reducible dsimp only
    | (with_reducible split)

theorem kept_execMosEdge {s₀ s : State} (hk : Kept s₀ s) (t : Tick) (st : Fin 6) (x : Nat) : KeptOut s₀ (execMosEdge t st x s) := by
  unfold execMosEdge
  repeat' first
    | with_reducible exact hk
    | (simp +contextual (maxDischargeDepth := 60) only [kept_countOut, kept_stray, kept_modScn, kept_noteEdge, kept_stampEdge, kept_outOfBound, kept_at, hk, kept_ite, keptOut_next, kept_mk]; done)
    | with_reducible refine kept_ite (fun _ => ?_) (fun _ => ?_)
    | with_reducible refine kept_foldl _ (fun s hk x => ?_) ?_
    | with_reducible dsimp only
    | (with_reducible split)

theorem kept_execEosEdge {s₀ s : State} (hk : Kept s₀ s) (t : Tick) (st : Fin 6) (x : Nat) : KeptOut s₀ (execEosEdge t st x s) := by
  unfold execEosEdge
  repeat' first
    | with_reducible exact hk
    | (simp +contextual (maxDischargeDepth := 60) only [kept_stray, kept_modScn, kept_stampEdge, kept_noteEdge, kept_outOfBound, kept_at, kept_endScan, hk, kept_ite, keptOut_next, kept_mk]; done)
    | with_reducible refine kept_ite (fun _ => ?_) (fun _ => ?_)
    | with_reducible refine kept_foldl _ (fun s hk x => ?_) ?_
    | with_reducible dsimp only
    | (with_reducible split)

theorem kept_execSensorWindowMiss {s₀ s : State} (hk : Kept s₀ s) (t : Tick) (st : Fin 6) (sensor : Fin 3) : KeptOut s₀ (execSensorWindowMiss t st sensor s) := by
  unfold execSensorWindowMiss
  repeat' first
    | with_reducible exact hk
    | (simp +contextual (maxDischargeDepth := 60) only [kept_modScn, kept_addDelta, kept_takeSos, kept_countMiss, kept_at, kept_endScan, kept_scnLoss, hk, kept_ite, keptOut_next, kept_mk]; done)
    | with_reducible refine kept_ite (fun _ => ?_) (fun _ => ?_)
    | with_reducible refine kept_foldl _ (fun s hk x => ?_) ?_
    | with_reducible dsimp only
    | (with_reducible split)

theorem kept_execIndexEdge {s₀ s : State} (hk : Kept s₀ s) (t : Tick) (st : Fin 6) : KeptOut s₀ (execIndexEdge t st s) := by
  unfold execIndexEdge
  repeat' first
    | with_reducible exact hk
    | (simp +contextual (maxDischargeDepth := 60) only [kept_modScn, kept_at, hk, kept_ite, keptOut_next, kept_mk]; done)
    | with_reducible refine kept_ite (fun _ => ?_) (fun _ => ?_)
    | with_reducible refine kept_foldl _ (fun s hk x => ?_) ?_
    | with_reducible dsimp only
    | (with_reducible split)

theorem kept_execScanSetHandover {s₀ s : State} (hk : Kept s₀ s) (t : Tick) (st : Fin 6) : KeptOut s₀ (execScanSetHandover t st s) := by
  unfold execScanSetHandover
  have hk2 := hk
  repeat' first
    | with_reducible exact hk
    | with_reducible exact hk2
    | (simp +contextual (maxDischargeDepth := 60) only [kept_modScn, kept_handOver, kept_notHanded, kept_setOf, kept_at, hk, hk2, kept_ite, keptOut_next, kept_mk]; done)
    | with_reducible refine kept_ite (fun _ => ?_) (fun _ => ?_)
    | with_reducible refine kept_foldl _ (fun s hk x => ?_) ?_
    | with_reducible dsimp only
    | (with_reducible split) <;> first | (have hk2 : Kept s₀ _ := kept_pair ‹(_ : _ × State) = (_, _)› (by simp +contextual (maxDischargeDepth := 60) only [kept_modScn, kept_handOver, kept_notHanded, kept_setOf, kept_at, hk, hk2, kept_ite, keptOut_next, kept_mk]; done)) | skip

theorem kept_execFacetGap {s₀ s : State} (hk : Kept s₀ s) (t : Tick) (st : Fin 6) : KeptOut s₀ (execFacetGap t st s) := by
  unfold execFacetGap
  repeat' first
    | with_reducible exact hk
    | (simp +contextual (maxDischargeDepth := 60) only [kept_modScn, kept_addDelta, kept_at, hk, kept_ite, keptOut_next, kept_mk]; done)
    | with_reducible refine kept_ite (fun _ => ?_) (fun _ => ?_)
    | with_reducible refine kept_foldl _ (fun s hk x => ?_) ?_
    | with_reducible dsimp only
    | (with_reducible split)

theorem kept_execScnEnWrite {s₀ s : State} (hk : Kept s₀ s) (t : Tick) (st : Fin 6) (en : Bool) : KeptOut s₀ (execScnEnWrite t st en s) := by
  unfold execScnEnWrite
  repeat' first
    | with_reducible exact hk
    | (simp +contextual (maxDischargeDepth := 60) only [kept_writeScnEn, kept_at, hk, kept_ite, keptOut_next]; done)
    | with_reducible refine kept_ite (fun _ => ?_) (fun _ => ?_)
    | with_reducible refine kept_foldl _ (fun s hk x => ?_) ?_
    | with_reducible dsimp only
    | (with_reducible split)

theorem kept_execLockCheck {s₀ s : State} (hk : Kept s₀ s) (t : Tick) (k : Fin 128) (i : Nat) : KeptOut s₀ (execLockCheck t k i s) := by
  unfold execLockCheck
  have hk5 := hk
  repeat' first
    | with_reducible exact hk
    | with_reducible exact hk5
    | (simp +contextual (maxDischargeDepth := 60) only [kept_take, kept_report, kept_scanCause, kept_incSat, kept_at, hk, hk5, kept_ite, keptOut_next, kept_mk]; done)
    | with_reducible refine kept_ite (fun _ => ?_) (fun _ => ?_)
    | with_reducible refine kept_foldl _ (fun s hk x => ?_) ?_
    | with_reducible dsimp only
    | (with_reducible split) <;> first | (have hk5 : Kept s₀ _ := kept_skipped ‹(_ : Take) = .skipped _› (by simp +contextual (maxDischargeDepth := 60) only [kept_take, kept_report, kept_scanCause, kept_incSat, kept_at, hk, hk5, kept_ite, keptOut_next, kept_mk]; done)) | (have hk5 : Kept s₀ _ := kept_run ‹(_ : Take) = .run _ _› (by simp +contextual (maxDischargeDepth := 60) only [kept_take, kept_report, kept_scanCause, kept_incSat, kept_at, hk, hk5, kept_ite, keptOut_next, kept_mk]; done)) | skip

end Sys2Proof.Machine
end

