-- ==== Sys2Proof/Laws/KeptSignalBoxCmd.lean ====
section
/-! SUPPORT. What the operations of Machine/SignalBoxCmd.lean keep of a state. -/

namespace Sys2Proof.Machine

theorem kept_execFaultEmitHoldExpiry {s₀ s : State} (hk : Kept s₀ s) (t : Tick) (src : Fin 64) : KeptOut s₀ (execFaultEmitHoldExpiry t src s) := by
  unfold execFaultEmitHoldExpiry
  repeat' first
    | with_reducible exact hk
    | (simp +contextual (maxDischargeDepth := 60) only [kept_incSat, kept_at, kept_emitFault, hk, kept_ite, keptOut_next, kept_mk]; done)
    | with_reducible refine kept_ite (fun _ => ?_) (fun _ => ?_)
    | with_reducible refine kept_foldl _ (fun s hk x => ?_) ?_
    | with_reducible dsimp only
    | (with_reducible split)

theorem kept_execSbxEventTake {s₀ s : State} (hk : Kept s₀ s) (t : Tick) : KeptOut s₀ (execSbxEventTake t s) := by
  unfold execSbxEventTake
  repeat' first
    | with_reducible exact hk
    | (simp +contextual (maxDischargeDepth := 60) only [kept_sbxStep1, kept_at, kept_takeEvent, hk, kept_ite, keptOut_next, kept_mk]; done)
    | with_reducible refine kept_ite (fun _ => ?_) (fun _ => ?_)
    | with_reducible refine kept_foldl _ (fun s hk x => ?_) ?_
    | with_reducible dsimp only
    | (with_reducible split)

theorem kept_execBlockResetDone {s₀ s : State} (hk : Kept s₀ s) (t : Tick) (src : Fin 64) : KeptOut s₀ (execBlockResetDone t src s) := by
  unfold execBlockResetDone
  repeat' first
    | with_reducible exact hk
    | (simp +contextual (maxDischargeDepth := 60) only [kept_at, hk, kept_ite, keptOut_next, kept_mk]; done)
    | with_reducible refine kept_ite (fun _ => ?_) (fun _ => ?_)
    | with_reducible refine kept_foldl _ (fun s hk x => ?_) ?_
    | with_reducible dsimp only
    | (with_reducible split)

theorem kept_execShadowEnd {s₀ s : State} (hk : Kept s₀ s) (t : Tick) (src : Fin 64) : KeptOut s₀ (execShadowEnd t src s) := by
  unfold execShadowEnd
  repeat' first
    | with_reducible exact hk
    | (simp +contextual (maxDischargeDepth := 60) only [kept_setBit64, kept_at, hk, kept_ite, keptOut_next, kept_mk]; done)
    | with_reducible refine kept_ite (fun _ => ?_) (fun _ => ?_)
    | with_reducible refine kept_foldl _ (fun s hk x => ?_) ?_
    | with_reducible dsimp only
    | (with_reducible split)

theorem kept_execSbxBrstReq {s₀ s : State} (hk : Kept s₀ s) (t : Tick) (w : Word) : KeptOut s₀ (execSbxBrstReq t w s) := by
  unfold execSbxBrstReq
  repeat' first
    | with_reducible exact hk
    | (simp +contextual (maxDischargeDepth := 60) only [kept_at, kept_brstRequest, hk, keptOut_next]; done)
    | with_reducible refine kept_ite (fun _ => ?_) (fun _ => ?_)
    | with_reducible refine kept_foldl _ (fun s hk x => ?_) ?_
    | with_reducible dsimp only
    | (with_reducible split)

theorem kept_execQuietExit {s₀ s : State} (hk : Kept s₀ s) (t : Tick) (src : Fin 64) : KeptOut s₀ (execQuietExit t src s) := by
  unfold execQuietExit
  repeat' first
    | with_reducible exact hk
    | (simp +contextual (maxDischargeDepth := 60) only [kept_at, kept_sbxExit, hk, kept_ite, keptOut_next]; done)
    | with_reducible refine kept_ite (fun _ => ?_) (fun _ => ?_)
    | with_reducible refine kept_foldl _ (fun s hk x => ?_) ?_
    | with_reducible dsimp only
    | (with_reducible split)

theorem kept_execSbxActiveWrite {s₀ s : State} (hk : Kept s₀ s) (t : Tick) (hi : Bool) (w : Word) : KeptOut s₀ (execSbxActiveWrite t hi w s) := by
  unfold execSbxActiveWrite
  repeat' first
    | with_reducible exact hk
    | (simp +contextual (maxDischargeDepth := 60) only [kept_at, kept_activeWrite, hk, keptOut_next]; done)
    | with_reducible refine kept_ite (fun _ => ?_) (fun _ => ?_)
    | with_reducible refine kept_foldl _ (fun s hk x => ?_) ?_
    | with_reducible dsimp only
    | (with_reducible split)

theorem kept_execErrNHoldExpiry {s₀ s : State} (hk : Kept s₀ s) (t : Tick) : KeptOut s₀ (execErrNHoldExpiry t s) := by
  unfold execErrNHoldExpiry
  repeat' first
    | with_reducible exact hk
    | (simp +contextual (maxDischargeDepth := 60) only [kept_at, kept_errPin, hk, keptOut_next]; done)
    | with_reducible refine kept_ite (fun _ => ?_) (fun _ => ?_)
    | with_reducible refine kept_foldl _ (fun s hk x => ?_) ?_
    | with_reducible dsimp only
    | (with_reducible split)

theorem kept_execSbxHistW0Read {s₀ s : State} (hk : Kept s₀ s) (t : Tick) (ini : Fin 7) (i : Fin 32) : KeptOut s₀ (execSbxHistW0Read t ini i s) := by
  unfold execSbxHistW0Read
  have hk2 := hk
  repeat' first
    | with_reducible exact hk
    | with_reducible exact hk2
    | (simp +contextual (maxDischargeDepth := 60) only [kept_histRead, kept_at, kept_setAcc, hk, hk2, keptOut_next]; done)
    | with_reducible refine kept_ite (fun _ => ?_) (fun _ => ?_)
    | with_reducible refine kept_foldl _ (fun s hk x => ?_) ?_
    | with_reducible dsimp only
    | (with_reducible split) <;> first | (have hk2 : Kept s₀ _ := kept_pair ‹(_ : _ × State) = (_, _)› (by simp +contextual (maxDischargeDepth := 60) only [kept_histRead, kept_at, kept_setAcc, hk, hk2, keptOut_next]; done)) | skip

theorem kept_execRemoteFaultTake {s₀ s : State} (hk : Kept s₀ s) (t : Tick) : KeptOut s₀ (execRemoteFaultTake t s) := by
  unfold execRemoteFaultTake
  repeat' first
    | with_reducible exact hk
    | (simp +contextual (maxDischargeDepth := 60) only [kept_sbxStep1, kept_takeRemote, kept_at, hk, kept_ite, keptOut_next, kept_mk]; done)
    | with_reducible refine kept_ite (fun _ => ?_) (fun _ => ?_)
    | with_reducible refine kept_foldl _ (fun s hk x => ?_) ?_
    | with_reducible dsimp only
    | (with_reducible split)

theorem kept_execSbxOriginWrite {s₀ s : State} (hk : Kept s₀ s) (t : Tick) (d : Fin 1024) (w : Word) : KeptOut s₀ (execSbxOriginWrite t d w s) := by
  unfold execSbxOriginWrite
  repeat' first
    | with_reducible exact hk
    | (simp +contextual (maxDischargeDepth := 60) only [kept_at, kept_originWrite, hk, keptOut_next]; done)
    | with_reducible refine kept_ite (fun _ => ?_) (fun _ => ?_)
    | with_reducible refine kept_foldl _ (fun s hk x => ?_) ?_
    | with_reducible dsimp only
    | (with_reducible split)

end Sys2Proof.Machine
end

