-- ==== Sys2Proof/Laws/KeptSinelCmd.lean ====
section
/-! SUPPORT. What the operations of Machine/SinelCmd.lean keep of a state. -/

namespace Sys2Proof.Machine

theorem kept_issueBy {s₀ s : State} (hk : Kept s₀ s) (t : Tick) (c : Fin 26) (lat : Who → State → Nat) (body : Who → State → Eff) (h_body : ∀ x0 z, Kept s₀ z → KeptEff s₀ (body x0 z)) : Kept s₀ (State.issueBy s t c lat body) := by
  unfold State.issueBy
  repeat' first
    | with_reducible exact hk
    | (simp +contextual (maxDischargeDepth := 60) only [h_body, kept_issueT, kept_atStep, kept_at, kept_issueG, implies_true, forall_const, hk, kept_ite, keptEff_next, keptEff_jump, keptEff_exc, keptEff_wait, keptEff_fly, keptEff_yield, keptEff_halt, keptEff_ite]; done)
    | with_reducible refine kept_ite (fun _ => ?_) (fun _ => ?_)
    | with_reducible refine kept_foldl _ (fun s hk x => ?_) ?_
    | with_reducible refine kept_issueT ?_ _ _ _ (fun x0 s hk => ?_)
    | with_reducible refine kept_issueG ?_ _ _ (fun x0 s hk => ?_)
    | with_reducible refine keptOut_next ?_
    | with_reducible dsimp only
    | (with_reducible split)

theorem kept_issue {s₀ s : State} (hk : Kept s₀ s) (t : Tick) (c : Fin 26) (lat : Nat) (body : Who → State → Eff) (h_body : ∀ x0 z, Kept s₀ z → KeptEff s₀ (body x0 z)) : Kept s₀ (State.issue s t c lat body) := by
  unfold State.issue
  repeat' first
    | with_reducible exact hk
    | (simp +contextual (maxDischargeDepth := 60) only [h_body, kept_issueBy, implies_true, forall_const, hk, keptEff_next, keptEff_jump, keptEff_exc, keptEff_wait, keptEff_fly, keptEff_yield, keptEff_halt, keptEff_ite]; done)
    | with_reducible refine kept_ite (fun _ => ?_) (fun _ => ?_)
    | with_reducible refine kept_foldl _ (fun s hk x => ?_) ?_
    | with_reducible refine kept_issueBy ?_ _ _ _ _ (fun x0 s hk => ?_)
    | with_reducible refine keptOut_next ?_
    | with_reducible dsimp only
    | (with_reducible split)

theorem kept_writeRd {s₀ s : State} (hk : Kept s₀ s) (t : Tick) (c : Fin 26) (lat : Nat) (rd : Fin 32) (v : State → Who → Word) : KeptOut s₀ (State.writeRd t c lat rd v s) := by
  unfold State.writeRd
  repeat' first
    | with_reducible exact hk
    | (simp +contextual (maxDischargeDepth := 60) only [kept_issue, kept_setGr, implies_true, forall_const, hk, keptOut_next, keptEff_next, keptEff_jump, keptEff_exc, keptEff_wait, keptEff_fly, keptEff_yield, keptEff_halt, keptEff_ite]; done)
    | with_reducible refine kept_ite (fun _ => ?_) (fun _ => ?_)
    | with_reducible refine kept_foldl _ (fun s hk x => ?_) ?_
    | with_reducible refine kept_issue ?_ _ _ _ _ (fun x0 s hk => ?_)
    | with_reducible refine keptOut_next ?_
    | with_reducible dsimp only
    | (with_reducible split)

theorem kept_writePair {s₀ s : State} (hk : Kept s₀ s) (t : Tick) (c : Fin 26) (lat : Nat) (rd : Fin 32) (v : State → Who → Nat) : KeptOut s₀ (State.writePair t c lat rd v s) := by
  unfold State.writePair
  repeat' first
    | with_reducible exact hk
    | (simp +contextual (maxDischargeDepth := 60) only [kept_setGrPair, kept_issue, implies_true, forall_const, hk, kept_ite, keptOut_next, keptEff_next, keptEff_jump, keptEff_exc, keptEff_wait, keptEff_fly, keptEff_yield, keptEff_halt, keptEff_ite]; done)
    | with_reducible refine kept_ite (fun _ => ?_) (fun _ => ?_)
    | with_reducible refine kept_foldl _ (fun s hk x => ?_) ?_
    | with_reducible refine kept_issue ?_ _ _ _ _ (fun x0 s hk => ?_)
    | with_reducible refine keptOut_next ?_
    | with_reducible dsimp only
    | (with_reducible split)

theorem kept_execAdd {s₀ s : State} (hk : Kept s₀ s) (t : Tick) (c : Fin 26) (rd : Fin 32) (ra : Fin 32) (rb : Fin 32) : KeptOut s₀ (execAdd t c rd ra rb s) := by
  unfold execAdd
  repeat' first
    | with_reducible exact hk
    | (simp +contextual (maxDischargeDepth := 60) only [kept_writeRd, hk, keptOut_next, keptEff_next, keptEff_jump, keptEff_exc, keptEff_wait, keptEff_fly, keptEff_yield, keptEff_halt, keptEff_ite]; done)
    | with_reducible refine kept_ite (fun _ => ?_) (fun _ => ?_)
    | with_reducible refine kept_foldl _ (fun s hk x => ?_) ?_
    | with_reducible refine keptOut_next ?_
    | with_reducible dsimp only
    | (with_reducible split)

theorem kept_execSub {s₀ s : State} (hk : Kept s₀ s) (t : Tick) (c : Fin 26) (rd : Fin 32) (ra : Fin 32) (rb : Fin 32) : KeptOut s₀ (execSub t c rd ra rb s) := by
  unfold execSub
  repeat' first
    | with_reducible exact hk
    | (simp +contextual (maxDischargeDepth := 60) only [kept_writeRd, hk, keptOut_next, keptEff_next, keptEff_jump, keptEff_exc, keptEff_wait, keptEff_fly, keptEff_yield, keptEff_halt, keptEff_ite]; done)
    | with_reducible refine kept_ite (fun _ => ?_) (fun _ => ?_)
    | with_reducible refine kept_foldl _ (fun s hk x => ?_) ?_
    | with_reducible refine keptOut_next ?_
    | with_reducible dsimp only
    | (with_reducible split)

theorem kept_execAnd {s₀ s : State} (hk : Kept s₀ s) (t : Tick) (c : Fin 26) (rd : Fin 32) (ra : Fin 32) (rb : Fin 32) : KeptOut s₀ (execAnd t c rd ra rb s) := by
  unfold execAnd
  repeat' first
    | with_reducible exact hk
    | (simp +contextual (maxDischargeDepth := 60) only [kept_writeRd, hk, keptOut_next, keptEff_next, keptEff_jump, keptEff_exc, keptEff_wait, keptEff_fly, keptEff_yield, keptEff_halt, keptEff_ite]; done)
    | with_reducible refine kept_ite (fun _ => ?_) (fun _ => ?_)
    | with_reducible refine kept_foldl _ (fun s hk x => ?_) ?_
    | with_reducible refine keptOut_next ?_
    | with_reducible dsimp only
    | (with_reducible split)

theorem kept_execOr {s₀ s : State} (hk : Kept s₀ s) (t : Tick) (c : Fin 26) (rd : Fin 32) (ra : Fin 32) (rb : Fin 32) : KeptOut s₀ (execOr t c rd ra rb s) := by
  unfold execOr
  repeat' first
    | with_reducible exact hk
    | (simp +contextual (maxDischargeDepth := 60) only [kept_writeRd, hk, keptOut_next, keptEff_next, keptEff_jump, keptEff_exc, keptEff_wait, keptEff_fly, keptEff_yield, keptEff_halt, keptEff_ite]; done)
    | with_reducible refine kept_ite (fun _ => ?_) (fun _ => ?_)
    | with_reducible refine kept_foldl _ (fun s hk x => ?_) ?_
    | with_reducible refine keptOut_next ?_
    | with_reducible dsimp only
    | (with_reducible split)

theorem kept_execXor {s₀ s : State} (hk : Kept s₀ s) (t : Tick) (c : Fin 26) (rd : Fin 32) (ra : Fin 32) (rb : Fin 32) : KeptOut s₀ (execXor t c rd ra rb s) := by
  unfold execXor
  repeat' first
    | with_reducible exact hk
    | (simp +contextual (maxDischargeDepth := 60) only [kept_writeRd, hk, keptOut_next, keptEff_next, keptEff_jump, keptEff_exc, keptEff_wait, keptEff_fly, keptEff_yield, keptEff_halt, keptEff_ite]; done)
    | with_reducible refine kept_ite (fun _ => ?_) (fun _ => ?_)
    | with_reducible refine kept_foldl _ (fun s hk x => ?_) ?_
    | with_reducible refine keptOut_next ?_
    | with_reducible dsimp only
    | (with_reducible split)

theorem kept_execSll {s₀ s : State} (hk : Kept s₀ s) (t : Tick) (c : Fin 26) (rd : Fin 32) (ra : Fin 32) (rb : Fin 32) : KeptOut s₀ (execSll t c rd ra rb s) := by
  unfold execSll
  repeat' first
    | with_reducible exact hk
    | (simp +contextual (maxDischargeDepth := 60) only [kept_writeRd, hk, keptOut_next, keptEff_next, keptEff_jump, keptEff_exc, keptEff_wait, keptEff_fly, keptEff_yield, keptEff_halt, keptEff_ite]; done)
    | with_reducible refine kept_ite (fun _ => ?_) (fun _ => ?_)
    | with_reducible refine kept_foldl _ (fun s hk x => ?_) ?_
    | with_reducible refine keptOut_next ?_
    | with_reducible dsimp only
    | (with_reducible split)

theorem kept_execSrl {s₀ s : State} (hk : Kept s₀ s) (t : Tick) (c : Fin 26) (rd : Fin 32) (ra : Fin 32) (rb : Fin 32) : KeptOut s₀ (execSrl t c rd ra rb s) := by
  unfold execSrl
  repeat' first
    | with_reducible exact hk
    | (simp +contextual (maxDischargeDepth := 60) only [kept_writeRd, hk, keptOut_next, keptEff_next, keptEff_jump, keptEff_exc, keptEff_wait, keptEff_fly, keptEff_yield, keptEff_halt, keptEff_ite]; done)
    | with_reducible refine kept_ite (fun _ => ?_) (fun _ => ?_)
    | with_reducible refine kept_foldl _ (fun s hk x => ?_) ?_
    | with_reducible refine keptOut_next ?_
    | with_reducible dsimp only
    | (with_reducible split)

theorem kept_execSra {s₀ s : State} (hk : Kept s₀ s) (t : Tick) (c : Fin 26) (rd : Fin 32) (ra : Fin 32) (rb : Fin 32) : KeptOut s₀ (execSra t c rd ra rb s) := by
  unfold execSra
  repeat' first
    | with_reducible exact hk
    | (simp +contextual (maxDischargeDepth := 60) only [kept_writeRd, hk, keptOut_next, keptEff_next, keptEff_jump, keptEff_exc, keptEff_wait, keptEff_fly, keptEff_yield, keptEff_halt, keptEff_ite]; done)
    | with_reducible refine kept_ite (fun _ => ?_) (fun _ => ?_)
    | with_reducible refine kept_foldl _ (fun s hk x => ?_) ?_
    | with_reducible refine keptOut_next ?_
    | with_reducible dsimp only
    | (with_reducible split)

theorem kept_execSlt {s₀ s : State} (hk : Kept s₀ s) (t : Tick) (c : Fin 26) (rd : Fin 32) (ra : Fin 32) (rb : Fin 32) : KeptOut s₀ (execSlt t c rd ra rb s) := by
  unfold execSlt
  repeat' first
    | with_reducible exact hk
    | (simp +contextual (maxDischargeDepth := 60) only [kept_writeRd, hk, keptOut_next, keptEff_next, keptEff_jump, keptEff_exc, keptEff_wait, keptEff_fly, keptEff_yield, keptEff_halt, keptEff_ite]; done)
    | with_reducible refine kept_ite (fun _ => ?_) (fun _ => ?_)
    | with_reducible refine kept_foldl _ (fun s hk x => ?_) ?_
    | with_reducible refine keptOut_next ?_
    | with_reducible dsimp only
    | (with_reducible split)

theorem kept_execSltu {s₀ s : State} (hk : Kept s₀ s) (t : Tick) (c : Fin 26) (rd : Fin 32) (ra : Fin 32) (rb : Fin 32) : KeptOut s₀ (execSltu t c rd ra rb s) := by
  unfold execSltu
  repeat' first
    | with_reducible exact hk
    | (simp +contextual (maxDischargeDepth := 60) only [kept_writeRd, hk, keptOut_next, keptEff_next, keptEff_jump, keptEff_exc, keptEff_wait, keptEff_fly, keptEff_yield, keptEff_halt, keptEff_ite]; done)
    | with_reducible refine kept_ite (fun _ => ?_) (fun _ => ?_)
    | with_reducible refine kept_foldl _ (fun s hk x => ?_) ?_
    | with_reducible refine keptOut_next ?_
    | with_reducible dsimp only
    | (with_reducible split)

theorem kept_execMin {s₀ s : State} (hk : Kept s₀ s) (t : Tick) (c : Fin 26) (rd : Fin 32) (ra : Fin 32) (rb : Fin 32) : KeptOut s₀ (execMin t c rd ra rb s) := by
  unfold execMin
  repeat' first
    | with_reducible exact hk
    | (simp +contextual (maxDischargeDepth := 60) only [kept_writeRd, hk, kept_ite, keptOut_next, keptEff_next, keptEff_jump, keptEff_exc, keptEff_wait, keptEff_fly, keptEff_yield, keptEff_halt, keptEff_ite]; done)
    | with_reducible refine kept_ite (fun _ => ?_) (fun _ => ?_)
    | with_reducible refine kept_foldl _ (fun s hk x => ?_) ?_
    | with_reducible refine keptOut_next ?_
    | with_reducible dsimp only
    | (with_reducible split)

theorem kept_execMax {s₀ s : State} (hk : Kept s₀ s) (t : Tick) (c : Fin 26) (rd : Fin 32) (ra : Fin 32) (rb : Fin 32) : KeptOut s₀ (execMax t c rd ra rb s) := by
  unfold execMax
  repeat' first
    | with_reducible exact hk
    | (simp +contextual (maxDischargeDepth := 60) only [kept_writeRd, hk, kept_ite, keptOut_next, keptEff_next, keptEff_jump, keptEff_exc, keptEff_wait, keptEff_fly, keptEff_yield, keptEff_halt, keptEff_ite]; done)
    | with_reducible refine kept_ite (fun _ => ?_) (fun _ => ?_)
    | with_reducible refine kept_foldl _ (fun s hk x => ?_) ?_
    | with_reducible refine keptOut_next ?_
    | with_reducible dsimp only
    | (with_reducible split)

theorem kept_execMinu {s₀ s : State} (hk : Kept s₀ s) (t : Tick) (c : Fin 26) (rd : Fin 32) (ra : Fin 32) (rb : Fin 32) : KeptOut s₀ (execMinu t c rd ra rb s) := by
  unfold execMinu
  repeat' first
    | with_reducible exact hk
    | (simp +contextual (maxDischargeDepth := 60) only [kept_writeRd, hk, kept_ite, keptOut_next, keptEff_next, keptEff_jump, keptEff_exc, keptEff_wait, keptEff_fly, keptEff_yield, keptEff_halt, keptEff_ite]; done)
    | with_reducible refine kept_ite (fun _ => ?_) (fun _ => ?_)
    | with_reducible refine kept_foldl _ (fun s hk x => ?_) ?_
    | with_reducible refine keptOut_next ?_
    | with_reducible dsimp only
    | (with_reducible split)

theorem kept_execMaxu {s₀ s : State} (hk : Kept s₀ s) (t : Tick) (c : Fin 26) (rd : Fin 32) (ra : Fin 32) (rb : Fin 32) : KeptOut s₀ (execMaxu t c rd ra rb s) := by
  unfold execMaxu
  repeat' first
    | with_reducible exact hk
    | (simp +contextual (maxDischargeDepth := 60) only [kept_writeRd, hk, kept_ite, keptOut_next, keptEff_next, keptEff_jump, keptEff_exc, keptEff_wait, keptEff_fly, keptEff_yield, keptEff_halt, keptEff_ite]; done)
    | with_reducible refine kept_ite (fun _ => ?_) (fun _ => ?_)
    | with_reducible refine kept_foldl _ (fun s hk x => ?_) ?_
    | with_reducible refine keptOut_next ?_
    | with_reducible dsimp only
    | (with_reducible split)

theorem kept_execAddsat {s₀ s : State} (hk : Kept s₀ s) (t : Tick) (c : Fin 26) (rd : Fin 32) (ra : Fin 32) (rb : Fin 32) : KeptOut s₀ (execAddsat t c rd ra rb s) := by
  unfold execAddsat
  repeat' first
    | with_reducible exact hk
    | (simp +contextual (maxDischargeDepth := 60) only [kept_writeRd, hk, keptOut_next, keptEff_next, keptEff_jump, keptEff_exc, keptEff_wait, keptEff_fly, keptEff_yield, keptEff_halt, keptEff_ite]; done)
    | with_reducible refine kept_ite (fun _ => ?_) (fun _ => ?_)
    | with_reducible refine kept_foldl _ (fun s hk x => ?_) ?_
    | with_reducible refine keptOut_next ?_
    | with_reducible dsimp only
    | (with_reducible split)

theorem kept_execSubsat {s₀ s : State} (hk : Kept s₀ s) (t : Tick) (c : Fin 26) (rd : Fin 32) (ra : Fin 32) (rb : Fin 32) : KeptOut s₀ (execSubsat t c rd ra rb s) := by
  unfold execSubsat
  repeat' first
    | with_reducible exact hk
    | (simp +contextual (maxDischargeDepth := 60) only [kept_writeRd, hk, keptOut_next, keptEff_next, keptEff_jump, keptEff_exc, keptEff_wait, keptEff_fly, keptEff_yield, keptEff_halt, keptEff_ite]; done)
    | with_reducible refine kept_ite (fun _ => ?_) (fun _ => ?_)
    | with_reducible refine kept_foldl _ (fun s hk x => ?_) ?_
    | with_reducible refine keptOut_next ?_
    | with_reducible dsimp only
    | (with_reducible split)

theorem kept_execAddi {s₀ s : State} (hk : Kept s₀ s) (t : Tick) (c : Fin 26) (rd : Fin 32) (ra : Fin 32) (imm : BitVec 12) : KeptOut s₀ (execAddi t c rd ra imm s) := by
  unfold execAddi
  repeat' first
    | with_reducible exact hk
    | (simp +contextual (maxDischargeDepth := 60) only [kept_writeRd, hk, keptOut_next, keptEff_next, keptEff_jump, keptEff_exc, keptEff_wait, keptEff_fly, keptEff_yield, keptEff_halt, keptEff_ite]; done)
    | with_reducible refine kept_ite (fun _ => ?_) (fun _ => ?_)
    | with_reducible refine kept_foldl _ (fun s hk x => ?_) ?_
    | with_reducible refine keptOut_next ?_
    | with_reducible dsimp only
    | (with_reducible split)

theorem kept_execSlti {s₀ s : State} (hk : Kept s₀ s) (t : Tick) (c : Fin 26) (rd : Fin 32) (ra : Fin 32) (imm : BitVec 12) : KeptOut s₀ (execSlti t c rd ra imm s) := by
  unfold execSlti
  repeat' first
    | with_reducible exact hk
    | (simp +contextual (maxDischargeDepth := 60) only [kept_writeRd, hk, keptOut_next, keptEff_next, keptEff_jump, keptEff_exc, keptEff_wait, keptEff_fly, keptEff_yield, keptEff_halt, keptEff_ite]; done)
    | with_reducible refine kept_ite (fun _ => ?_) (fun _ => ?_)
    | with_reducible refine kept_foldl _ (fun s hk x => ?_) ?_
    | with_reducible refine keptOut_next ?_
    | with_reducible dsimp only
    | (with_reducible split)

theorem kept_execSltiu {s₀ s : State} (hk : Kept s₀ s) (t : Tick) (c : Fin 26) (rd : Fin 32) (ra : Fin 32) (imm : BitVec 12) : KeptOut s₀ (execSltiu t c rd ra imm s) := by
  unfold execSltiu
  repeat' first
    | with_reducible exact hk
    | (simp +contextual (maxDischargeDepth := 60) only [kept_writeRd, hk, keptOut_next, keptEff_next, keptEff_jump, keptEff_exc, keptEff_wait, keptEff_fly, keptEff_yield, keptEff_halt, keptEff_ite]; done)
    | with_reducible refine kept_ite (fun _ => ?_) (fun _ => ?_)
    | with_reducible refine kept_foldl _ (fun s hk x => ?_) ?_
    | with_reducible refine keptOut_next ?_
    | with_reducible dsimp only
    | (with_reducible split)

theorem kept_execAndi {s₀ s : State} (hk : Kept s₀ s) (t : Tick) (c : Fin 26) (rd : Fin 32) (ra : Fin 32) (imm : BitVec 12) : KeptOut s₀ (execAndi t c rd ra imm s) := by
  unfold execAndi
  repeat' first
    | with_reducible exact hk
    | (simp +contextual (maxDischargeDepth := 60) only [kept_writeRd, hk, keptOut_next, keptEff_next, keptEff_jump, keptEff_exc, keptEff_wait, keptEff_fly, keptEff_yield, keptEff_halt, keptEff_ite]; done)
    | with_reducible refine kept_ite (fun _ => ?_) (fun _ => ?_)
    | with_reducible refine kept_foldl _ (fun s hk x => ?_) ?_
    | with_reducible refine keptOut_next ?_
    | with_reducible dsimp only
    | (with_reducible split)

theorem kept_execOri {s₀ s : State} (hk : Kept s₀ s) (t : Tick) (c : Fin 26) (rd : Fin 32) (ra : Fin 32) (imm : BitVec 12) : KeptOut s₀ (execOri t c rd ra imm s) := by
  unfold execOri
  repeat' first
    | with_reducible exact hk
    | (simp +contextual (maxDischargeDepth := 60) only [kept_writeRd, hk, keptOut_next, keptEff_next, keptEff_jump, keptEff_exc, keptEff_wait, keptEff_fly, keptEff_yield, keptEff_halt, keptEff_ite]; done)
    | with_reducible refine kept_ite (fun _ => ?_) (fun _ => ?_)
    | with_reducible refine kept_foldl _ (fun s hk x => ?_) ?_
    | with_reducible refine keptOut_next ?_
    | with_reducible dsimp only
    | (with_reducible split)

theorem kept_execXori {s₀ s : State} (hk : Kept s₀ s) (t : Tick) (c : Fin 26) (rd : Fin 32) (ra : Fin 32) (imm : BitVec 12) : KeptOut s₀ (execXori t c rd ra imm s) := by
  unfold execXori
  repeat' first
    | with_reducible exact hk
    | (simp +contextual (maxDischargeDepth := 60) only [kept_writeRd, hk, keptOut_next, keptEff_next, keptEff_jump, keptEff_exc, keptEff_wait, keptEff_fly, keptEff_yield, keptEff_halt, keptEff_ite]; done)
    | with_reducible refine kept_ite (fun _ => ?_) (fun _ => ?_)
    | with_reducible refine kept_foldl _ (fun s hk x => ?_) ?_
    | with_reducible refine keptOut_next ?_
    | with_reducible dsimp only
    | (with_reducible split)

theorem kept_execSlli {s₀ s : State} (hk : Kept s₀ s) (t : Tick) (c : Fin 26) (rd : Fin 32) (ra : Fin 32) (sh : Fin 32) : KeptOut s₀ (execSlli t c rd ra sh s) := by
  unfold execSlli
  repeat' first
    | with_reducible exact hk
    | (simp +contextual (maxDischargeDepth := 60) only [kept_writeRd, hk, keptOut_next, keptEff_next, keptEff_jump, keptEff_exc, keptEff_wait, keptEff_fly, keptEff_yield, keptEff_halt, keptEff_ite]; done)
    | with_reducible refine kept_ite (fun _ => ?_) (fun _ => ?_)
    | with_reducible refine kept_foldl _ (fun s hk x => ?_) ?_
    | with_reducible refine keptOut_next ?_
    | with_reducible dsimp only
    | (with_reducible split)

theorem kept_execSrli {s₀ s : State} (hk : Kept s₀ s) (t : Tick) (c : Fin 26) (rd : Fin 32) (ra : Fin 32) (sh : Fin 32) : KeptOut s₀ (execSrli t c rd ra sh s) := by
  unfold execSrli
  repeat' first
    | with_reducible exact hk
    | (simp +contextual (maxDischargeDepth := 60) only [kept_writeRd, hk, keptOut_next, keptEff_next, keptEff_jump, keptEff_exc, keptEff_wait, keptEff_fly, keptEff_yield, keptEff_halt, keptEff_ite]; done)
    | with_reducible refine kept_ite (fun _ => ?_) (fun _ => ?_)
    | with_reducible refine kept_foldl _ (fun s hk x => ?_) ?_
    | with_reducible refine keptOut_next ?_
    | with_reducible dsimp only
    | (with_reducible split)

theorem kept_execSrai {s₀ s : State} (hk : Kept s₀ s) (t : Tick) (c : Fin 26) (rd : Fin 32) (ra : Fin 32) (sh : Fin 32) : KeptOut s₀ (execSrai t c rd ra sh s) := by
  unfold execSrai
  repeat' first
    | with_reducible exact hk
    | (simp +contextual (maxDischargeDepth := 60) only [kept_writeRd, hk, keptOut_next, keptEff_next, keptEff_jump, keptEff_exc, keptEff_wait, keptEff_fly, keptEff_yield, keptEff_halt, keptEff_ite]; done)
    | with_reducible refine kept_ite (fun _ => ?_) (fun _ => ?_)
    | with_reducible refine kept_foldl _ (fun s hk x => ?_) ?_
    | with_reducible refine keptOut_next ?_
    | with_reducible dsimp only
    | (with_reducible split)

theorem kept_execLui {s₀ s : State} (hk : Kept s₀ s) (t : Tick) (c : Fin 26) (rd : Fin 32) (imm : BitVec 21) : KeptOut s₀ (execLui t c rd imm s) := by
  unfold execLui
  repeat' first
    | with_reducible exact hk
    | (simp +contextual (maxDischargeDepth := 60) only [kept_writeRd, hk, keptOut_next, keptEff_next, keptEff_jump, keptEff_exc, keptEff_wait, keptEff_fly, keptEff_yield, keptEff_halt, keptEff_ite]; done)
    | with_reducible refine kept_ite (fun _ => ?_) (fun _ => ?_)
    | with_reducible refine kept_foldl _ (fun s hk x => ?_) ?_
    | with_reducible refine keptOut_next ?_
    | with_reducible dsimp only
    | (with_reducible split)

theorem kept_execMul {s₀ s : State} (hk : Kept s₀ s) (t : Tick) (c : Fin 26) (rd : Fin 32) (ra : Fin 32) (rb : Fin 32) : KeptOut s₀ (execMul t c rd ra rb s) := by
  unfold execMul
  repeat' first
    | with_reducible exact hk
    | (simp +contextual (maxDischargeDepth := 60) only [kept_writeRd, hk, keptOut_next, keptEff_next, keptEff_jump, keptEff_exc, keptEff_wait, keptEff_fly, keptEff_yield, keptEff_halt, keptEff_ite]; done)
    | with_reducible refine kept_ite (fun _ => ?_) (fun _ => ?_)
    | with_reducible refine kept_foldl _ (fun s hk x => ?_) ?_
    | with_reducible refine keptOut_next ?_
    | with_reducible dsimp only
    | (with_reducible split)

theorem kept_execMulq {s₀ s : State} (hk : Kept s₀ s) (t : Tick) (c : Fin 26) (rd : Fin 32) (ra : Fin 32) (rb : Fin 32) : KeptOut s₀ (execMulq t c rd ra rb s) := by
  unfold execMulq
  repeat' first
    | with_reducible exact hk
    | (simp +contextual (maxDischargeDepth := 60) only [kept_writeRd, hk, keptOut_next, keptEff_next, keptEff_jump, keptEff_exc, keptEff_wait, keptEff_fly, keptEff_yield, keptEff_halt, keptEff_ite]; done)
    | with_reducible refine kept_ite (fun _ => ?_) (fun _ => ?_)
    | with_reducible refine kept_foldl _ (fun s hk x => ?_) ?_
    | with_reducible refine keptOut_next ?_
    | with_reducible dsimp only
    | (with_reducible split)

theorem kept_execMulw {s₀ s : State} (hk : Kept s₀ s) (t : Tick) (c : Fin 26) (rd : Fin 32) (ra : Fin 32) (rb : Fin 32) : KeptOut s₀ (execMulw t c rd ra rb s) := by
  unfold execMulw
  repeat' first
    | with_reducible exact hk
    | (simp +contextual (maxDischargeDepth := 60) only [kept_writePair, hk, keptOut_next, keptEff_next, keptEff_jump, keptEff_exc, keptEff_wait, keptEff_fly, keptEff_yield, keptEff_halt, keptEff_ite]; done)
    | with_reducible refine kept_ite (fun _ => ?_) (fun _ => ?_)
    | with_reducible refine kept_foldl _ (fun s hk x => ?_) ?_
    | with_reducible refine keptOut_next ?_
    | with_reducible dsimp only
    | (with_reducible split)

theorem kept_execMulwu {s₀ s : State} (hk : Kept s₀ s) (t : Tick) (c : Fin 26) (rd : Fin 32) (ra : Fin 32) (rb : Fin 32) : KeptOut s₀ (execMulwu t c rd ra rb s) := by
  unfold execMulwu
  repeat' first
    | with_reducible exact hk
    | (simp +contextual (maxDischargeDepth := 60) only [kept_writePair, hk, keptOut_next, keptEff_next, keptEff_jump, keptEff_exc, keptEff_wait, keptEff_fly, keptEff_yield, keptEff_halt, keptEff_ite]; done)
    | with_reducible refine kept_ite (fun _ => ?_) (fun _ => ?_)
    | with_reducible refine kept_foldl _ (fun s hk x => ?_) ?_
    | with_reducible refine keptOut_next ?_
    | with_reducible dsimp only
    | (with_reducible split)

theorem kept_execQuo {s₀ s : State} (hk : Kept s₀ s) (t : Tick) (c : Fin 26) (rd : Fin 32) (ra : Fin 32) (rb : Fin 32) : KeptOut s₀ (execQuo t c rd ra rb s) := by
  unfold execQuo
  repeat' first
    | with_reducible exact hk
    | (simp +contextual (maxDischargeDepth := 60) only [kept_writeRd, hk, keptOut_next, keptEff_next, keptEff_jump, keptEff_exc, keptEff_wait, keptEff_fly, keptEff_yield, keptEff_halt, keptEff_ite]; done)
    | with_reducible refine kept_ite (fun _ => ?_) (fun _ => ?_)
    | with_reducible refine kept_foldl _ (fun s hk x => ?_) ?_
    | with_reducible refine keptOut_next ?_
    | with_reducible dsimp only
    | (with_reducible split)

theorem kept_execQuou {s₀ s : State} (hk : Kept s₀ s) (t : Tick) (c : Fin 26) (rd : Fin 32) (ra : Fin 32) (rb : Fin 32) : KeptOut s₀ (execQuou t c rd ra rb s) := by
  unfold execQuou
  repeat' first
    | with_reducible exact hk
    | (simp +contextual (maxDischargeDepth := 60) only [kept_writeRd, hk, keptOut_next, keptEff_next, keptEff_jump, keptEff_exc, keptEff_wait, keptEff_fly, keptEff_yield, keptEff_halt, keptEff_ite]; done)
    | with_reducible refine kept_ite (fun _ => ?_) (fun _ => ?_)
    | with_reducible refine kept_foldl _ (fun s hk x => ?_) ?_
    | with_reducible refine keptOut_next ?_
    | with_reducible dsimp only
    | (with_reducible split)

theorem kept_execMod {s₀ s : State} (hk : Kept s₀ s) (t : Tick) (c : Fin 26) (rd : Fin 32) (ra : Fin 32) (rb : Fin 32) : KeptOut s₀ (execMod t c rd ra rb s) := by
  unfold execMod
  repeat' first
    | with_reducible exact hk
    | (simp +contextual (maxDischargeDepth := 60) only [kept_writeRd, hk, keptOut_next, keptEff_next, keptEff_jump, keptEff_exc, keptEff_wait, keptEff_fly, keptEff_yield, keptEff_halt, keptEff_ite]; done)
    | with_reducible refine kept_ite (fun _ => ?_) (fun _ => ?_)
    | with_reducible refine kept_foldl _ (fun s hk x => ?_) ?_
    | with_reducible refine keptOut_next ?_
    | with_reducible dsimp only
    | (with_reducible split)

theorem kept_execModu {s₀ s : State} (hk : Kept s₀ s) (t : Tick) (c : Fin 26) (rd : Fin 32) (ra : Fin 32) (rb : Fin 32) : KeptOut s₀ (execModu t c rd ra rb s) := by
  unfold execModu
  repeat' first
    | with_reducible exact hk
    | (simp +contextual (maxDischargeDepth := 60) only [kept_writeRd, hk, keptOut_next, keptEff_next, keptEff_jump, keptEff_exc, keptEff_wait, keptEff_fly, keptEff_yield, keptEff_halt, keptEff_ite]; done)
    | with_reducible refine kept_ite (fun _ => ?_) (fun _ => ?_)
    | with_reducible refine kept_foldl _ (fun s hk x => ?_) ?_
    | with_reducible refine keptOut_next ?_
    | with_reducible dsimp only
    | (with_reducible split)

theorem kept_execPnadd {s₀ s : State} (hk : Kept s₀ s) (t : Tick) (c : Fin 26) (rd : Fin 32) (ra : Fin 32) (rb : Fin 32) : KeptOut s₀ (execPnadd t c rd ra rb s) := by
  unfold execPnadd
  repeat' first
    | with_reducible exact hk
    | (simp +contextual (maxDischargeDepth := 60) only [kept_writeRd, hk, keptOut_next, keptEff_next, keptEff_jump, keptEff_exc, keptEff_wait, keptEff_fly, keptEff_yield, keptEff_halt, keptEff_ite]; done)
    | with_reducible refine kept_ite (fun _ => ?_) (fun _ => ?_)
    | with_reducible refine kept_foldl _ (fun s hk x => ?_) ?_
    | with_reducible refine keptOut_next ?_
    | with_reducible dsimp only
    | (with_reducible split)

theorem kept_execPnsub {s₀ s : State} (hk : Kept s₀ s) (t : Tick) (c : Fin 26) (rd : Fin 32) (ra : Fin 32) (rb : Fin 32) : KeptOut s₀ (execPnsub t c rd ra rb s) := by
  unfold execPnsub
  repeat' first
    | with_reducible exact hk
    | (simp +contextual (maxDischargeDepth := 60) only [kept_writeRd, hk, keptOut_next, keptEff_next, keptEff_jump, keptEff_exc, keptEff_wait, keptEff_fly, keptEff_yield, keptEff_halt, keptEff_ite]; done)
    | with_reducible refine kept_ite (fun _ => ?_) (fun _ => ?_)
    | with_reducible refine kept_foldl _ (fun s hk x => ?_) ?_
    | with_reducible refine keptOut_next ?_
    | with_reducible dsimp only
    | (with_reducible split)

theorem kept_execPnmax {s₀ s : State} (hk : Kept s₀ s) (t : Tick) (c : Fin 26) (rd : Fin 32) (ra : Fin 32) (rb : Fin 32) : KeptOut s₀ (execPnmax t c rd ra rb s) := by
  unfold execPnmax
  repeat' first
    | with_reducible exact hk
    | (simp +contextual (maxDischargeDepth := 60) only [kept_writeRd, hk, keptOut_next, keptEff_next, keptEff_jump, keptEff_exc, keptEff_wait, keptEff_fly, keptEff_yield, keptEff_halt, keptEff_ite]; done)
    | with_reducible refine kept_ite (fun _ => ?_) (fun _ => ?_)
    | with_reducible refine kept_foldl _ (fun s hk x => ?_) ?_
    | with_reducible refine keptOut_next ?_
    | with_reducible dsimp only
    | (with_reducible split)

theorem kept_execPnmin {s₀ s : State} (hk : Kept s₀ s) (t : Tick) (c : Fin 26) (rd : Fin 32) (ra : Fin 32) (rb : Fin 32) : KeptOut s₀ (execPnmin t c rd ra rb s) := by
  unfold execPnmin
  repeat' first
    | with_reducible exact hk
    | (simp +contextual (maxDischargeDepth := 60) only [kept_writeRd, hk, keptOut_next, keptEff_next, keptEff_jump, keptEff_exc, keptEff_wait, keptEff_fly, keptEff_yield, keptEff_halt, keptEff_ite]; done)
    | with_reducible refine kept_ite (fun _ => ?_) (fun _ => ?_)
    | with_reducible refine kept_foldl _ (fun s hk x => ?_) ?_
    | with_reducible refine keptOut_next ?_
    | with_reducible dsimp only
    | (with_reducible split)

theorem kept_execPnsel {s₀ s : State} (hk : Kept s₀ s) (t : Tick) (c : Fin 26) (rd : Fin 32) (ra : Fin 32) (rb : Fin 32) : KeptOut s₀ (execPnsel t c rd ra rb s) := by
  unfold execPnsel
  repeat' first
    | with_reducible exact hk
    | (simp +contextual (maxDischargeDepth := 60) only [kept_writeRd, hk, kept_ite, keptOut_next, keptEff_next, keptEff_jump, keptEff_exc, keptEff_wait, keptEff_fly, keptEff_yield, keptEff_halt, keptEff_ite]; done)
    | with_reducible refine kept_ite (fun _ => ?_) (fun _ => ?_)
    | with_reducible refine kept_foldl _ (fun s hk x => ?_) ?_
    | with_reducible refine keptOut_next ?_
    | with_reducible dsimp only
    | (with_reducible split)

theorem kept_execPnlut {s₀ s : State} (hk : Kept s₀ s) (t : Tick) (c : Fin 26) (rd : Fin 32) (ra : Fin 32) (rb : Fin 32) : KeptOut s₀ (execPnlut t c rd ra rb s) := by
  unfold execPnlut
  repeat' first
    | with_reducible exact hk
    | (simp +contextual (maxDischargeDepth := 60) only [kept_issue, kept_setGr, implies_true, forall_const, hk, kept_ite, keptOut_next, keptEff_next, keptEff_jump, keptEff_exc, keptEff_wait, keptEff_fly, keptEff_yield, keptEff_halt, keptEff_ite]; done)
    | with_reducible refine kept_ite (fun _ => ?_) (fun _ => ?_)
    | with_reducible refine kept_foldl _ (fun s hk x => ?_) ?_
    | with_reducible refine kept_issue ?_ _ _ _ _ (fun x0 s hk => ?_)
    | with_reducible refine keptOut_next ?_
    | with_reducible dsimp only
    | (with_reducible split)

theorem kept_execPncnt {s₀ s : State} (hk : Kept s₀ s) (t : Tick) (c : Fin 26) (rd : Fin 32) (ra : Fin 32) : KeptOut s₀ (execPncnt t c rd ra s) := by
  unfold execPncnt
  repeat' first
    | with_reducible exact hk
    | (simp +contextual (maxDischargeDepth := 60) only [kept_writeRd, hk, keptOut_next, keptEff_next, keptEff_jump, keptEff_exc, keptEff_wait, keptEff_fly, keptEff_yield, keptEff_halt, keptEff_ite]; done)
    | with_reducible refine kept_ite (fun _ => ?_) (fun _ => ?_)
    | with_reducible refine kept_foldl _ (fun s hk x => ?_) ?_
    | with_reducible refine keptOut_next ?_
    | with_reducible dsimp only
    | (with_reducible split)

theorem kept_execPnnzc {s₀ s : State} (hk : Kept s₀ s) (t : Tick) (c : Fin 26) (rd : Fin 32) (ra : Fin 32) : KeptOut s₀ (execPnnzc t c rd ra s) := by
  unfold execPnnzc
  repeat' first
    | with_reducible exact hk
    | (simp +contextual (maxDischargeDepth := 60) only [kept_writeRd, hk, keptOut_next, kept_mkFilter, keptEff_next, keptEff_jump, keptEff_exc, keptEff_wait, keptEff_fly, keptEff_yield, keptEff_halt, keptEff_ite]; done)
    | with_reducible refine kept_ite (fun _ => ?_) (fun _ => ?_)
    | with_reducible refine kept_foldl _ (fun s hk x => ?_) ?_
    | with_reducible refine keptOut_next ?_
    | with_reducible dsimp only
    | (with_reducible split)

theorem kept_execPnge {s₀ s : State} (hk : Kept s₀ s) (t : Tick) (c : Fin 26) (rd : Fin 32) (ra : Fin 32) (rb : Fin 32) : KeptOut s₀ (execPnge t c rd ra rb s) := by
  unfold execPnge
  repeat' first
    | with_reducible exact hk
    | (simp +contextual (maxDischargeDepth := 60) only [kept_writeRd, hk, kept_ite, keptOut_next, keptEff_next, keptEff_jump, keptEff_exc, keptEff_wait, keptEff_fly, keptEff_yield, keptEff_halt, keptEff_ite]; done)
    | with_reducible refine kept_ite (fun _ => ?_) (fun _ => ?_)
    | with_reducible refine kept_foldl _ (fun s hk x => ?_) ?_
    | with_reducible refine keptOut_next ?_
    | with_reducible dsimp only
    | (with_reducible split)

theorem kept_execPneq {s₀ s : State} (hk : Kept s₀ s) (t : Tick) (c : Fin 26) (rd : Fin 32) (ra : Fin 32) (rb : Fin 32) : KeptOut s₀ (execPneq t c rd ra rb s) := by
  unfold execPneq
  repeat' first
    | with_reducible exact hk
    | (simp +contextual (maxDischargeDepth := 60) only [kept_writeRd, hk, kept_ite, keptOut_next, keptEff_next, keptEff_jump, keptEff_exc, keptEff_wait, keptEff_fly, keptEff_yield, keptEff_halt, keptEff_ite]; done)
    | with_reducible refine kept_ite (fun _ => ?_) (fun _ => ?_)
    | with_reducible refine kept_foldl _ (fun s hk x => ?_) ?_
    | with_reducible refine keptOut_next ?_
    | with_reducible dsimp only
    | (with_reducible split)

theorem kept_execPnspl {s₀ s : State} (hk : Kept s₀ s) (t : Tick) (c : Fin 26) (rd : Fin 32) (ra : Fin 32) : KeptOut s₀ (execPnspl t c rd ra s) := by
  unfold execPnspl
  repeat' first
    | with_reducible exact hk
    | (simp +contextual (maxDischargeDepth := 60) only [kept_writeRd, hk, keptOut_next, keptEff_next, keptEff_jump, keptEff_exc, keptEff_wait, keptEff_fly, keptEff_yield, keptEff_halt, keptEff_ite]; done)
    | with_reducible refine kept_ite (fun _ => ?_) (fun _ => ?_)
    | with_reducible refine kept_foldl _ (fun s hk x => ?_) ?_
    | with_reducible refine keptOut_next ?_
    | with_reducible dsimp only
    | (with_reducible split)

theorem kept_branch {s₀ s : State} (hk : Kept s₀ s) (t : Tick) (c : Fin 26) (ra : Fin 32) (rb : Fin 32) (off : BitVec 16) (cond : Word → Word → Bool) : KeptOut s₀ (State.branch t c ra rb off cond s) := by
  unfold State.branch
  repeat' first
    | with_reducible exact hk
    | (simp +contextual (maxDischargeDepth := 60) only [kept_issue, kept_jumpTo, implies_true, forall_const, hk, kept_ite, keptOut_next, keptEff_next, keptEff_jump, keptEff_exc, keptEff_wait, keptEff_fly, keptEff_yield, keptEff_halt, keptEff_ite]; done)
    | with_reducible refine kept_ite (fun _ => ?_) (fun _ => ?_)
    | with_reducible refine kept_foldl _ (fun s hk x => ?_) ?_
    | with_reducible refine kept_issue ?_ _ _ _ _ (fun x0 s hk => ?_)
    | with_reducible refine keptOut_next ?_
    | with_reducible dsimp only
    | (with_reducible split)

theorem kept_execBeq {s₀ s : State} (hk : Kept s₀ s) (t : Tick) (c : Fin 26) (ra : Fin 32) (rb : Fin 32) (off : BitVec 16) : KeptOut s₀ (execBeq t c ra rb off s) := by
  unfold execBeq
  repeat' first
    | with_reducible exact hk
    | (simp +contextual (maxDischargeDepth := 60) only [kept_branch, hk, keptOut_next, keptEff_next, keptEff_jump, keptEff_exc, keptEff_wait, keptEff_fly, keptEff_yield, keptEff_halt, keptEff_ite]; done)
    | with_reducible refine kept_ite (fun _ => ?_) (fun _ => ?_)
    | with_reducible refine kept_foldl _ (fun s hk x => ?_) ?_
    | with_reducible refine keptOut_next ?_
    | with_reducible dsimp only
    | (with_reducible split)

theorem kept_execBne {s₀ s : State} (hk : Kept s₀ s) (t : Tick) (c : Fin 26) (ra : Fin 32) (rb : Fin 32) (off : BitVec 16) : KeptOut s₀ (execBne t c ra rb off s) := by
  unfold execBne
  repeat' first
    | with_reducible exact hk
    | (simp +contextual (maxDischargeDepth := 60) only [kept_branch, hk, keptOut_next, keptEff_next, keptEff_jump, keptEff_exc, keptEff_wait, keptEff_fly, keptEff_yield, keptEff_halt, keptEff_ite]; done)
    | with_reducible refine kept_ite (fun _ => ?_) (fun _ => ?_)
    | with_reducible refine kept_foldl _ (fun s hk x => ?_) ?_
    | with_reducible refine keptOut_next ?_
    | with_reducible dsimp only
    | (with_reducible split)

theorem kept_execBlt {s₀ s : State} (hk : Kept s₀ s) (t : Tick) (c : Fin 26) (ra : Fin 32) (rb : Fin 32) (off : BitVec 16) : KeptOut s₀ (execBlt t c ra rb off s) := by
  unfold execBlt
  repeat' first
    | with_reducible exact hk
    | (simp +contextual (maxDischargeDepth := 60) only [kept_branch, hk, keptOut_next, keptEff_next, keptEff_jump, keptEff_exc, keptEff_wait, keptEff_fly, keptEff_yield, keptEff_halt, keptEff_ite]; done)
    | with_reducible refine kept_ite (fun _ => ?_) (fun _ => ?_)
    | with_reducible refine kept_foldl _ (fun s hk x => ?_) ?_
    | with_reducible refine keptOut_next ?_
    | with_reducible dsimp only
    | (with_reducible split)

theorem kept_execBge {s₀ s : State} (hk : Kept s₀ s) (t : Tick) (c : Fin 26) (ra : Fin 32) (rb : Fin 32) (off : BitVec 16) : KeptOut s₀ (execBge t c ra rb off s) := by
  unfold execBge
  repeat' first
    | with_reducible exact hk
    | (simp +contextual (maxDischargeDepth := 60) only [kept_branch, hk, keptOut_next, keptEff_next, keptEff_jump, keptEff_exc, keptEff_wait, keptEff_fly, keptEff_yield, keptEff_halt, keptEff_ite]; done)
    | with_reducible refine kept_ite (fun _ => ?_) (fun _ => ?_)
    | with_reducible refine kept_foldl _ (fun s hk x => ?_) ?_
    | with_reducible refine keptOut_next ?_
    | with_reducible dsimp only
    | (with_reducible split)

theorem kept_execBltu {s₀ s : State} (hk : Kept s₀ s) (t : Tick) (c : Fin 26) (ra : Fin 32) (rb : Fin 32) (off : BitVec 16) : KeptOut s₀ (execBltu t c ra rb off s) := by
  unfold execBltu
  repeat' first
    | with_reducible exact hk
    | (simp +contextual (maxDischargeDepth := 60) only [kept_branch, hk, keptOut_next, keptEff_next, keptEff_jump, keptEff_exc, keptEff_wait, keptEff_fly, keptEff_yield, keptEff_halt, keptEff_ite]; done)
    | with_reducible refine kept_ite (fun _ => ?_) (fun _ => ?_)
    | with_reducible refine kept_foldl _ (fun s hk x => ?_) ?_
    | with_reducible refine keptOut_next ?_
    | with_reducible dsimp only
    | (with_reducible split)

theorem kept_execBgeu {s₀ s : State} (hk : Kept s₀ s) (t : Tick) (c : Fin 26) (ra : Fin 32) (rb : Fin 32) (off : BitVec 16) : KeptOut s₀ (execBgeu t c ra rb off s) := by
  unfold execBgeu
  repeat' first
    | with_reducible exact hk
    | (simp +contextual (maxDischargeDepth := 60) only [kept_branch, hk, keptOut_next, keptEff_next, keptEff_jump, keptEff_exc, keptEff_wait, keptEff_fly, keptEff_yield, keptEff_halt, keptEff_ite]; done)
    | with_reducible refine kept_ite (fun _ => ?_) (fun _ => ?_)
    | with_reducible refine kept_foldl _ (fun s hk x => ?_) ?_
    | with_reducible refine keptOut_next ?_
    | with_reducible dsimp only
    | (with_reducible split)

theorem kept_execJal {s₀ s : State} (hk : Kept s₀ s) (t : Tick) (c : Fin 26) (rd : Fin 32) (imm : BitVec 21) : KeptOut s₀ (execJal t c rd imm s) := by
  unfold execJal
  repeat' first
    | with_reducible exact hk
    | (simp +contextual (maxDischargeDepth := 60) only [kept_issue, kept_setGr, kept_jumpTo, implies_true, forall_const, hk, keptOut_next, keptEff_next, keptEff_jump, keptEff_exc, keptEff_wait, keptEff_fly, keptEff_yield, keptEff_halt, keptEff_ite]; done)
    | with_reducible refine kept_ite (fun _ => ?_) (fun _ => ?_)
    | with_reducible refine kept_foldl _ (fun s hk x => ?_) ?_
    | with_reducible refine kept_issue ?_ _ _ _ _ (fun x0 s hk => ?_)
    | with_reducible refine keptOut_next ?_
    | with_reducible dsimp only
    | (with_reducible split)

theorem kept_execJalr {s₀ s : State} (hk : Kept s₀ s) (t : Tick) (c : Fin 26) (rd ra : Fin 32) (imm : BitVec 12) :
    KeptOut s₀ (execJalr t c rd ra imm s) := by
  unfold execJalr
  refine keptOut_next (kept_issue hk t c 1 _ fun w z hk => ?_)
  dsimp only
  have hj : ∀ pc, KeptEff s₀ (jumpTo w pc z (z.setGr w rd (z.linkOf w))) := fun pc =>
    kept_jumpTo hk w pc _ (kept_setGr hk _ _ _)
  split
  · rename_i h
    have := hj (z.gr w ra + BitVec.signExtend 32 imm).toNat
    rw [h] at this
    exact keptEff_exc this
  · split
    · exact hj _
    · exact keptEff_exc hk

theorem kept_execKrd {s₀ s : State} (hk : Kept s₀ s) (t : Tick) (c : Fin 26) (rd : Fin 32) (k : Fin 64) : KeptOut s₀ (execKrd t c rd k s) := by
  unfold execKrd
  repeat' first
    | with_reducible exact hk
    | (simp +contextual (maxDischargeDepth := 60) only [kept_issue, kept_setGr, implies_true, forall_const, hk, kept_ite, keptOut_next, keptEff_next, keptEff_jump, keptEff_exc, keptEff_wait, keptEff_fly, keptEff_yield, keptEff_halt, keptEff_ite]; done)
    | with_reducible refine kept_ite (fun _ => ?_) (fun _ => ?_)
    | with_reducible refine kept_foldl _ (fun s hk x => ?_) ?_
    | with_reducible refine kept_issue ?_ _ _ _ _ (fun x0 s hk => ?_)
    | with_reducible refine keptOut_next ?_
    | with_reducible dsimp only
    | (with_reducible split)

theorem kept_execKrdp {s₀ s : State} (hk : Kept s₀ s) (t : Tick) (c : Fin 26) (rd : Fin 32) (k : Fin 64) : KeptOut s₀ (execKrdp t c rd k s) := by
  unfold execKrdp
  repeat' first
    | with_reducible exact hk
    | (simp +contextual (maxDischargeDepth := 60) only [kept_setGrPair, kept_issue, implies_true, forall_const, hk, kept_ite, keptOut_next, keptEff_next, keptEff_jump, keptEff_exc, keptEff_wait, keptEff_fly, keptEff_yield, keptEff_halt, keptEff_ite]; done)
    | with_reducible refine kept_ite (fun _ => ?_) (fun _ => ?_)
    | with_reducible refine kept_foldl _ (fun s hk x => ?_) ?_
    | with_reducible refine kept_issue ?_ _ _ _ _ (fun x0 s hk => ?_)
    | with_reducible refine keptOut_next ?_
    | with_reducible dsimp only
    | (with_reducible split)

theorem kept_kmodify {s₀ s : State} (hk : Kept s₀ s) (t : Tick) (c : Fin 26) (k : Fin 64) (ra : Fin 32) (v : Word → Word → Word) : KeptOut s₀ (State.kmodify t c k ra v s) := by
  unfold State.kmodify
  repeat' first
    | with_reducible exact hk
    | (simp +contextual (maxDischargeDepth := 60) only [kept_issue, kept_kwrite, implies_true, forall_const, hk, kept_ite, keptOut_next, keptEff_next, keptEff_jump, keptEff_exc, keptEff_wait, keptEff_fly, keptEff_yield, keptEff_halt, keptEff_ite]; done)
    | with_reducible refine kept_ite (fun _ => ?_) (fun _ => ?_)
    | with_reducible refine kept_foldl _ (fun s hk x => ?_) ?_
    | with_reducible refine kept_issue ?_ _ _ _ _ (fun x0 s hk => ?_)
    | with_reducible refine keptOut_next ?_
    | with_reducible dsimp only
    | (with_reducible split)

theorem kept_execKwr {s₀ s : State} (hk : Kept s₀ s) (t : Tick) (c : Fin 26) (k : Fin 64) (ra : Fin 32) : KeptOut s₀ (execKwr t c k ra s) := by
  unfold execKwr
  repeat' first
    | with_reducible exact hk
    | (simp +contextual (maxDischargeDepth := 60) only [kept_kmodify, hk, keptOut_next, keptEff_next, keptEff_jump, keptEff_exc, keptEff_wait, keptEff_fly, keptEff_yield, keptEff_halt, keptEff_ite]; done)
    | with_reducible refine kept_ite (fun _ => ?_) (fun _ => ?_)
    | with_reducible refine kept_foldl _ (fun s hk x => ?_) ?_
    | with_reducible refine keptOut_next ?_
    | with_reducible dsimp only
    | (with_reducible split)

theorem kept_execKset {s₀ s : State} (hk : Kept s₀ s) (t : Tick) (c : Fin 26) (k : Fin 64) (ra : Fin 32) : KeptOut s₀ (execKset t c k ra s) := by
  unfold execKset
  repeat' first
    | with_reducible exact hk
    | (simp +contextual (maxDischargeDepth := 60) only [kept_kmodify, hk, keptOut_next, keptEff_next, keptEff_jump, keptEff_exc, keptEff_wait, keptEff_fly, keptEff_yield, keptEff_halt, keptEff_ite]; done)
    | with_reducible refine kept_ite (fun _ => ?_) (fun _ => ?_)
    | with_reducible refine kept_foldl _ (fun s hk x => ?_) ?_
    | with_reducible refine keptOut_next ?_
    | with_reducible dsimp only
    | (with_reducible split)

theorem kept_execKclr {s₀ s : State} (hk : Kept s₀ s) (t : Tick) (c : Fin 26) (k : Fin 64) (ra : Fin 32) : KeptOut s₀ (execKclr t c k ra s) := by
  unfold execKclr
  repeat' first
    | with_reducible exact hk
    | (simp +contextual (maxDischargeDepth := 60) only [kept_kmodify, hk, keptOut_next, keptEff_next, keptEff_jump, keptEff_exc, keptEff_wait, keptEff_fly, keptEff_yield, keptEff_halt, keptEff_ite]; done)
    | with_reducible refine kept_ite (fun _ => ?_) (fun _ => ?_)
    | with_reducible refine kept_foldl _ (fun s hk x => ?_) ?_
    | with_reducible refine keptOut_next ?_
    | with_reducible dsimp only
    | (with_reducible split)

theorem kept_execWaitt {s₀ s : State} (hk : Kept s₀ s) (t : Tick) (c : Fin 26) (p : Fin 32) : KeptOut s₀ (execWaitt t c p s) := by
  unfold execWaitt
  repeat' first
    | with_reducible exact hk
    | (simp +contextual (maxDischargeDepth := 60) only [kept_issue, implies_true, forall_const, hk, kept_ite, keptOut_next, keptEff_next, keptEff_jump, keptEff_exc, keptEff_wait, keptEff_fly, keptEff_yield, keptEff_halt, keptEff_ite]; done)
    | with_reducible refine kept_ite (fun _ => ?_) (fun _ => ?_)
    | with_reducible refine kept_foldl _ (fun s hk x => ?_) ?_
    | with_reducible refine kept_issue ?_ _ _ _ _ (fun x0 s hk => ?_)
    | with_reducible refine keptOut_next ?_
    | with_reducible dsimp only
    | (with_reducible split)

theorem kept_execWaittResume {s₀ s : State} (hk : Kept s₀ s) (t : Tick) (c : Fin 26) (slot : Fin 8) : KeptOut s₀ (execWaittResume t c slot s) := by
  unfold execWaittResume
  repeat' first
    | with_reducible exact hk
    | (simp +contextual (maxDischargeDepth := 60) only [kept_modInst, kept_modGcore, kept_atStep, hk, kept_ite, keptOut_next, kept_mk, keptEff_next, keptEff_jump, keptEff_exc, keptEff_wait, keptEff_fly, keptEff_yield, keptEff_halt, keptEff_ite]; done)
    | with_reducible refine kept_ite (fun _ => ?_) (fun _ => ?_)
    | with_reducible refine kept_foldl _ (fun s hk x => ?_) ?_
    | with_reducible refine keptOut_next ?_
    | with_reducible dsimp only
    | (with_reducible split)

theorem kept_execArm {s₀ s : State} (hk : Kept s₀ s) (t : Tick) (c : Fin 26) (p : Fin 32) (a : Fin 32) (b : Fin 32) : KeptOut s₀ (execArm t c p a b s) := by
  unfold execArm
  repeat' first
    | with_reducible exact hk
    | (simp +contextual (maxDischargeDepth := 60) only [kept_issue, kept_stageWrite, implies_true, forall_const, hk, kept_ite, keptOut_next, kept_mk, keptEff_next, keptEff_jump, keptEff_exc, keptEff_wait, keptEff_fly, keptEff_yield, keptEff_halt, keptEff_ite]; done)
    | with_reducible refine kept_ite (fun _ => ?_) (fun _ => ?_)
    | with_reducible refine kept_foldl _ (fun s hk x => ?_) ?_
    | with_reducible refine kept_issue ?_ _ _ _ _ (fun x0 s hk => ?_)
    | with_reducible refine keptOut_next ?_
    | with_reducible dsimp only
    | (with_reducible split)

theorem kept_execSpr {s₀ s : State} (hk : Kept s₀ s) (t : Tick) (c : Fin 26) (rd : Fin 32) (a : Fin 32) : KeptOut s₀ (execSpr t c rd a s) := by
  unfold execSpr
  have hk2 := hk
  repeat' first
    | with_reducible exact hk
    | with_reducible exact hk2
    | (simp +contextual (maxDischargeDepth := 60) only [kept_sprPoint, kept_issue, kept_setGr, implies_true, forall_const, hk, hk2, kept_ite, keptOut_next, kept_mk, keptEff_next, keptEff_jump, keptEff_exc, keptEff_wait, keptEff_fly, keptEff_yield, keptEff_halt, keptEff_ite]; done)
    | with_reducible refine kept_ite (fun _ => ?_) (fun _ => ?_)
    | with_reducible refine kept_foldl _ (fun s hk x => ?_) ?_
    | with_reducible refine kept_issue ?_ _ _ _ _ (fun x0 s hk => ?_)
    | with_reducible refine keptOut_next ?_
    | with_reducible dsimp only
    | (with_reducible split) <;> first | (have hk2 : Kept s₀ _ := kept_pair ‹(_ : _ × State) = (_, _)› (by simp +contextual (maxDischargeDepth := 60) only [kept_sprPoint, kept_issue, kept_setGr, implies_true, forall_const, hk, hk2, kept_ite, keptOut_next, kept_mk, keptEff_next, keptEff_jump, keptEff_exc, keptEff_wait, keptEff_fly, keptEff_yield, keptEff_halt, keptEff_ite]; done)) | skip

theorem kept_execSpw {s₀ s : State} (hk : Kept s₀ s) (t : Tick) (c : Fin 26) (a : Fin 32) (b : Fin 32) : KeptOut s₀ (execSpw t c a b s) := by
  unfold execSpw
  repeat' first
    | with_reducible exact hk
    | (simp +contextual (maxDischargeDepth := 60) only [kept_issue, kept_setPoint, kept_sendSpw, kept_stageWrite, implies_true, forall_const, hk, kept_ite, keptOut_next, kept_mk, keptEff_next, keptEff_jump, keptEff_exc, keptEff_wait, keptEff_fly, keptEff_yield, keptEff_halt, keptEff_ite]; done)
    | with_reducible refine kept_ite (fun _ => ?_) (fun _ => ?_)
    | with_reducible refine kept_foldl _ (fun s hk x => ?_) ?_
    | with_reducible refine kept_issue ?_ _ _ _ _ (fun x0 s hk => ?_)
    | with_reducible refine keptOut_next ?_
    | with_reducible dsimp only
    | (with_reducible split)

theorem kept_execYield {s₀ s : State} (hk : Kept s₀ s) (t : Tick) (c : Fin 26) : KeptOut s₀ (execYield t c s) := by
  unfold execYield
  repeat' first
    | with_reducible exact hk
    | (simp +contextual (maxDischargeDepth := 60) only [kept_issue, implies_true, forall_const, hk, kept_ite, keptOut_next, kept_mk, keptEff_next, keptEff_jump, keptEff_exc, keptEff_wait, keptEff_fly, keptEff_yield, keptEff_halt, keptEff_ite]; done)
    | with_reducible refine kept_ite (fun _ => ?_) (fun _ => ?_)
    | with_reducible refine kept_foldl _ (fun s hk x => ?_) ?_
    | with_reducible refine kept_issue ?_ _ _ _ _ (fun x0 s hk => ?_)
    | with_reducible refine keptOut_next ?_
    | with_reducible dsimp only
    | (with_reducible split)

theorem kept_execYieldWake {s₀ s : State} (hk : Kept s₀ s) (t : Tick) (g : Fin 2) : KeptOut s₀ (execYieldWake t g s) := by
  unfold execYieldWake
  repeat' first
    | with_reducible exact hk
    | (simp +contextual (maxDischargeDepth := 60) only [kept_modGcore, kept_at, hk, kept_ite, keptOut_next, kept_mk, keptEff_next, keptEff_jump, keptEff_exc, keptEff_wait, keptEff_fly, keptEff_yield, keptEff_halt, keptEff_ite]; done)
    | with_reducible refine kept_ite (fun _ => ?_) (fun _ => ?_)
    | with_reducible refine kept_foldl _ (fun s hk x => ?_) ?_
    | with_reducible refine keptOut_next ?_
    | with_reducible dsimp only
    | (with_reducible split)

theorem kept_execInterruptEntry {s₀ s : State} (hk : Kept s₀ s) (t : Tick) (g : Fin 2) : KeptOut s₀ (execInterruptEntry t g s) := by
  unfold execInterruptEntry
  repeat' first
    | with_reducible exact hk
    | (simp +contextual (maxDischargeDepth := 60) only [kept_modGcore, kept_at, hk, kept_ite, keptOut_next, kept_mk, keptEff_next, keptEff_jump, keptEff_exc, keptEff_wait, keptEff_fly, keptEff_yield, keptEff_halt, keptEff_ite]; done)
    | with_reducible refine kept_ite (fun _ => ?_) (fun _ => ?_)
    | with_reducible refine kept_foldl _ (fun s hk x => ?_) ?_
    | with_reducible refine keptOut_next ?_
    | with_reducible dsimp only
    | (with_reducible split)

theorem kept_execNmiEntry {s₀ s : State} (hk : Kept s₀ s) (t : Tick) (g : Fin 2) : KeptOut s₀ (execNmiEntry t g s) := by
  unfold execNmiEntry
  repeat' first
    | with_reducible exact hk
    | (simp +contextual (maxDischargeDepth := 60) only [kept_modGcore, kept_at, hk, kept_ite, keptOut_next, keptEff_next, keptEff_jump, keptEff_exc, keptEff_wait, keptEff_fly, keptEff_yield, keptEff_halt, keptEff_ite]; done)
    | with_reducible refine kept_ite (fun _ => ?_) (fun _ => ?_)
    | with_reducible refine kept_foldl _ (fun s hk x => ?_) ?_
    | with_reducible refine keptOut_next ?_
    | with_reducible dsimp only
    | (with_reducible split)

theorem kept_sysOp {s₀ s : State} (hk : Kept s₀ s) (t : Tick) (c : Fin 26) (sLevel : Bool) (body : Nat → State → Eff) (h_body : ∀ x0 z, Kept s₀ z → KeptEff s₀ (body x0 z)) : KeptOut s₀ (State.sysOp t c sLevel body s) := by
  unfold State.sysOp
  repeat' first
    | with_reducible exact hk
    | (simp +contextual (maxDischargeDepth := 60) only [h_body, kept_issue, implies_true, forall_const, hk, kept_ite, keptOut_next, kept_mk, keptEff_next, keptEff_jump, keptEff_exc, keptEff_wait, keptEff_fly, keptEff_yield, keptEff_halt, keptEff_ite]; done)
    | with_reducible refine kept_ite (fun _ => ?_) (fun _ => ?_)
    | with_reducible refine kept_foldl _ (fun s hk x => ?_) ?_
    | with_reducible refine kept_issue ?_ _ _ _ _ (fun x0 s hk => ?_)
    | with_reducible refine keptOut_next ?_
    | with_reducible dsimp only
    | (with_reducible split)

theorem kept_execSyscall {s₀ s : State} (hk : Kept s₀ s) (t : Tick) (c : Fin 26) : KeptOut s₀ (execSyscall t c s) := by
  unfold execSyscall
  repeat' first
    | with_reducible exact hk
    | (simp +contextual (maxDischargeDepth := 60) only [kept_sysOp, implies_true, forall_const, hk, keptOut_next, keptEff_next, keptEff_jump, keptEff_exc, keptEff_wait, keptEff_fly, keptEff_yield, keptEff_halt, keptEff_ite]; done)
    | with_reducible refine kept_ite (fun _ => ?_) (fun _ => ?_)
    | with_reducible refine kept_foldl _ (fun s hk x => ?_) ?_
    | with_reducible refine kept_sysOp ?_ _ _ _ _ (fun x0 s hk => ?_)
    | with_reducible refine keptOut_next ?_
    | with_reducible dsimp only
    | (with_reducible split)

theorem kept_execBrk {s₀ s : State} (hk : Kept s₀ s) (t : Tick) (c : Fin 26) : KeptOut s₀ (execBrk t c s) := by
  unfold execBrk
  repeat' first
    | with_reducible exact hk
    | (simp +contextual (maxDischargeDepth := 60) only [kept_sysOp, implies_true, forall_const, hk, kept_ite, keptOut_next, keptEff_next, keptEff_jump, keptEff_exc, keptEff_wait, keptEff_fly, keptEff_yield, keptEff_halt, keptEff_ite]; done)
    | with_reducible refine kept_ite (fun _ => ?_) (fun _ => ?_)
    | with_reducible refine kept_foldl _ (fun s hk x => ?_) ?_
    | with_reducible refine kept_sysOp ?_ _ _ _ _ (fun x0 s hk => ?_)
    | with_reducible refine keptOut_next ?_
    | with_reducible dsimp only
    | (with_reducible split)

theorem kept_execFence {s₀ s : State} (hk : Kept s₀ s) (t : Tick) (c : Fin 26) : KeptOut s₀ (execFence t c s) := by
  unfold execFence
  repeat' first
    | with_reducible exact hk
    | (simp +contextual (maxDischargeDepth := 60) only [kept_issue, implies_true, forall_const, hk, keptOut_next, keptEff_next, keptEff_jump, keptEff_exc, keptEff_wait, keptEff_fly, keptEff_yield, keptEff_halt, keptEff_ite]; done)
    | with_reducible refine kept_ite (fun _ => ?_) (fun _ => ?_)
    | with_reducible refine kept_foldl _ (fun s hk x => ?_) ?_
    | with_reducible refine kept_issue ?_ _ _ _ _ (fun x0 s hk => ?_)
    | with_reducible refine keptOut_next ?_
    | with_reducible dsimp only
    | (with_reducible split)

theorem kept_execIllegalWord {s₀ s : State} (hk : Kept s₀ s) (t : Tick) (c : Fin 26) (w : Word) : KeptOut s₀ (execIllegalWord t c w s) := by
  unfold execIllegalWord
  repeat' first
    | with_reducible exact hk
    | (simp +contextual (maxDischargeDepth := 60) only [kept_issue, kept_at, implies_true, forall_const, hk, kept_ite, keptOut_next, keptEff_next, keptEff_jump, keptEff_exc, keptEff_wait, keptEff_fly, keptEff_yield, keptEff_halt, keptEff_ite]; done)
    | with_reducible refine kept_ite (fun _ => ?_) (fun _ => ?_)
    | with_reducible refine kept_foldl _ (fun s hk x => ?_) ?_
    | with_reducible refine kept_issue ?_ _ _ _ _ (fun x0 s hk => ?_)
    | with_reducible refine keptOut_next ?_
    | with_reducible dsimp only
    | (with_reducible split)

end Sys2Proof.Machine
end

