-- ==== Sys2Proof/Laws/KeptSinelMemCmd.lean ====
section
/-! SUPPORT. What the operations of Machine/SinelMemCmd.lean keep of a state. -/

namespace Sys2Proof.Machine

theorem kept_load {s₀ s : State} (hk : Kept s₀ s) (t : Tick) (c : Fin 26) (sz : Fin 4) (rt : Fin 32) (ra : Fin 32) (off : BitVec 14) (signed : Bool) : KeptOut s₀ (State.load t c sz rt ra off signed s) := by
  unfold State.load
  have hk2 := hk
  repeat' first
    | with_reducible exact hk
    | with_reducible exact hk2
    | (simp +contextual (maxDischargeDepth := 60) only [kept_putLoad, kept_loadT, kept_issueBy, kept_loadG, implies_true, forall_const, hk, hk2, kept_ite, keptOut_next, kept_mk, keptEff_next, keptEff_jump, keptEff_exc, keptEff_wait, keptEff_fly, keptEff_yield, keptEff_halt, keptEff_ite]; done)
    | with_reducible refine kept_ite (fun _ => ?_) (fun _ => ?_)
    | with_reducible refine kept_foldl _ (fun s hk x => ?_) ?_
    | with_reducible refine kept_issueBy ?_ _ _ _ _ (fun x0 s hk => ?_)
    | with_reducible refine keptOut_next ?_
    | with_reducible dsimp only
    | (with_reducible split) <;> first | (have hk2 : Kept s₀ _ := kept_pair ‹(_ : _ × State) = (_, _)› (by simp +contextual (maxDischargeDepth := 60) only [kept_putLoad, kept_loadT, kept_issueBy, kept_loadG, implies_true, forall_const, hk, hk2, kept_ite, keptOut_next, kept_mk, keptEff_next, keptEff_jump, keptEff_exc, keptEff_wait, keptEff_fly, keptEff_yield, keptEff_halt, keptEff_ite]; done)) | skip

theorem kept_execLd {s₀ s : State} (hk : Kept s₀ s) (t : Tick) (c : Fin 26) (sz : Fin 4) (rt : Fin 32) (ra : Fin 32) (off : BitVec 14) : KeptOut s₀ (execLd t c sz rt ra off s) := by
  unfold execLd
  repeat' first
    | with_reducible exact hk
    | (simp +contextual (maxDischargeDepth := 60) only [kept_load, hk, keptOut_next, keptEff_next, keptEff_jump, keptEff_exc, keptEff_wait, keptEff_fly, keptEff_yield, keptEff_halt, keptEff_ite]; done)
    | with_reducible refine kept_ite (fun _ => ?_) (fun _ => ?_)
    | with_reducible refine kept_foldl _ (fun s hk x => ?_) ?_
    | with_reducible refine keptOut_next ?_
    | with_reducible dsimp only
    | (with_reducible split)

theorem kept_execLds {s₀ s : State} (hk : Kept s₀ s) (t : Tick) (c : Fin 26) (sz : Fin 4) (rt : Fin 32) (ra : Fin 32) (off : BitVec 14) : KeptOut s₀ (execLds t c sz rt ra off s) := by
  unfold execLds
  repeat' first
    | with_reducible exact hk
    | (simp +contextual (maxDischargeDepth := 60) only [kept_load, hk, keptOut_next, keptEff_next, keptEff_jump, keptEff_exc, keptEff_wait, keptEff_fly, keptEff_yield, keptEff_halt, keptEff_ite]; done)
    | with_reducible refine kept_ite (fun _ => ?_) (fun _ => ?_)
    | with_reducible refine kept_foldl _ (fun s hk x => ?_) ?_
    | with_reducible refine keptOut_next ?_
    | with_reducible dsimp only
    | (with_reducible split)

theorem kept_execSt {s₀ s : State} (hk : Kept s₀ s) (t : Tick) (c : Fin 26) (sz : Fin 4) (rt : Fin 32) (ra : Fin 32) (off : BitVec 14) : KeptOut s₀ (execSt t c sz rt ra off s) := by
  unfold execSt
  have hk2 := hk
  repeat' first
    | with_reducible exact hk
    | with_reducible exact hk2
    | (simp +contextual (maxDischargeDepth := 60) only [kept_storeG, kept_storeT, kept_issueBy, implies_true, forall_const, hk, hk2, kept_ite, keptOut_next, kept_mk, keptEff_next, keptEff_jump, keptEff_exc, keptEff_wait, keptEff_fly, keptEff_yield, keptEff_halt, keptEff_ite]; done)
    | with_reducible refine kept_ite (fun _ => ?_) (fun _ => ?_)
    | with_reducible refine kept_foldl _ (fun s hk x => ?_) ?_
    | with_reducible refine kept_issueBy ?_ _ _ _ _ (fun x0 s hk => ?_)
    | with_reducible refine keptOut_next ?_
    | with_reducible dsimp only
    | (with_reducible split) <;> first | (have hk2 : Kept s₀ _ := kept_pair ‹(_ : _ × State) = (_, _)› (by simp +contextual (maxDischargeDepth := 60) only [kept_storeG, kept_storeT, kept_issueBy, implies_true, forall_const, hk, hk2, kept_ite, keptOut_next, kept_mk, keptEff_next, keptEff_jump, keptEff_exc, keptEff_wait, keptEff_fly, keptEff_yield, keptEff_halt, keptEff_ite]; done)) | skip

theorem kept_execSwapw {s₀ s : State} (hk : Kept s₀ s) (t : Tick) (c : Fin 26) (sz : Fin 4) (rt : Fin 32) (ra : Fin 32) (off : BitVec 14) : KeptOut s₀ (execSwapw t c sz rt ra off s) := by
  unfold execSwapw
  have hk2 := hk
  repeat' first
    | with_reducible exact hk
    | with_reducible exact hk2
    | (simp +contextual (maxDischargeDepth := 60) only [kept_setMem, kept_readMem, kept_issue, kept_gateRefuse, kept_setGr, implies_true, forall_const, hk, hk2, kept_ite, keptOut_next, kept_mk, keptEff_next, keptEff_jump, keptEff_exc, keptEff_wait, keptEff_fly, keptEff_yield, keptEff_halt, keptEff_ite]; done)
    | with_reducible refine kept_ite (fun _ => ?_) (fun _ => ?_)
    | with_reducible refine kept_foldl _ (fun s hk x => ?_) ?_
    | with_reducible refine kept_issue ?_ _ _ _ _ (fun x0 s hk => ?_)
    | with_reducible refine keptOut_next ?_
    | with_reducible dsimp only
    | (with_reducible split) <;> first | (have hk2 : Kept s₀ _ := kept_pair ‹(_ : _ × State) = (_, _)› (by simp +contextual (maxDischargeDepth := 60) only [kept_setMem, kept_readMem, kept_issue, kept_gateRefuse, kept_setGr, implies_true, forall_const, hk, hk2, kept_ite, keptOut_next, kept_mk, keptEff_next, keptEff_jump, keptEff_exc, keptEff_wait, keptEff_fly, keptEff_yield, keptEff_halt, keptEff_ite]; done)) | skip

theorem kept_execRtt {s₀ s : State} (hk : Kept s₀ s) (t : Tick) (c : Fin 26) : KeptOut s₀ (execRtt t c s) := by
  unfold execRtt
  repeat' first
    | with_reducible exact hk
    | (simp +contextual (maxDischargeDepth := 60) only [kept_modGcore, kept_sysOp, kept_nmiSettle, implies_true, forall_const, hk, kept_ite, keptOut_next, kept_mk, keptEff_next, keptEff_jump, keptEff_exc, keptEff_wait, keptEff_fly, keptEff_yield, keptEff_halt, keptEff_ite]; done)
    | with_reducible refine kept_ite (fun _ => ?_) (fun _ => ?_)
    | with_reducible refine kept_foldl _ (fun s hk x => ?_) ?_
    | with_reducible refine kept_sysOp ?_ _ _ _ _ (fun x0 s hk => ?_)
    | with_reducible refine keptOut_next ?_
    | with_reducible dsimp only
    | (with_reducible split)

theorem kept_lineOp {s₀ s : State} (hk : Kept s₀ s) (t : Tick) (c : Fin 26) (ra : Fin 32) (sLevel : Bool) (act : Nat → Nat → State → State) (h_act : ∀ x0 x1 z, Kept s₀ z → Kept s₀ (act x0 x1 z)) : KeptOut s₀ (State.lineOp t c ra sLevel act s) := by
  unfold State.lineOp
  repeat' first
    | with_reducible exact hk
    | (simp +contextual (maxDischargeDepth := 60) only [h_act, kept_sysOp, kept_load, kept_gateRefuse, implies_true, forall_const, hk, kept_ite, keptOut_next, keptEff_next, keptEff_jump, keptEff_exc, keptEff_wait, keptEff_fly, keptEff_yield, keptEff_halt, keptEff_ite]; done)
    | with_reducible refine kept_ite (fun _ => ?_) (fun _ => ?_)
    | with_reducible refine kept_foldl _ (fun s hk x => ?_) ?_
    | with_reducible refine kept_sysOp ?_ _ _ _ _ (fun x0 s hk => ?_)
    | with_reducible refine keptOut_next ?_
    | with_reducible dsimp only
    | (with_reducible split)

theorem kept_execCclean {s₀ s : State} (hk : Kept s₀ s) (t : Tick) (c : Fin 26) (ra : Fin 32) : KeptOut s₀ (execCclean t c ra s) := by
  unfold execCclean
  repeat' first
    | with_reducible exact hk
    | (simp +contextual (maxDischargeDepth := 60) only [kept_cleanLine, kept_lineOp, implies_true, forall_const, hk, keptOut_next, keptEff_next, keptEff_jump, keptEff_exc, keptEff_wait, keptEff_fly, keptEff_yield, keptEff_halt, keptEff_ite]; done)
    | with_reducible refine kept_ite (fun _ => ?_) (fun _ => ?_)
    | with_reducible refine kept_foldl _ (fun s hk x => ?_) ?_
    | with_reducible refine kept_lineOp ?_ _ _ _ _ _ (fun x0 x1 s hk => ?_)
    | with_reducible refine keptOut_next ?_
    | with_reducible dsimp only
    | (with_reducible split)

theorem kept_execCinv {s₀ s : State} (hk : Kept s₀ s) (t : Tick) (c : Fin 26) (ra : Fin 32) : KeptOut s₀ (execCinv t c ra s) := by
  unfold execCinv
  repeat' first
    | with_reducible exact hk
    | (simp +contextual (maxDischargeDepth := 60) only [kept_dropLine, kept_lineOp, implies_true, forall_const, hk, keptOut_next, keptEff_next, keptEff_jump, keptEff_exc, keptEff_wait, keptEff_fly, keptEff_yield, keptEff_halt, keptEff_ite]; done)
    | with_reducible refine kept_ite (fun _ => ?_) (fun _ => ?_)
    | with_reducible refine kept_foldl _ (fun s hk x => ?_) ?_
    | with_reducible refine kept_lineOp ?_ _ _ _ _ _ (fun x0 x1 s hk => ?_)
    | with_reducible refine keptOut_next ?_
    | with_reducible dsimp only
    | (with_reducible split)

theorem kept_execCflush {s₀ s : State} (hk : Kept s₀ s) (t : Tick) (c : Fin 26) (ra : Fin 32) : KeptOut s₀ (execCflush t c ra s) := by
  unfold execCflush
  repeat' first
    | with_reducible exact hk
    | (simp +contextual (maxDischargeDepth := 60) only [kept_cleanLine, kept_dropLine, kept_lineOp, implies_true, forall_const, hk, keptOut_next, keptEff_next, keptEff_jump, keptEff_exc, keptEff_wait, keptEff_fly, keptEff_yield, keptEff_halt, keptEff_ite]; done)
    | with_reducible refine kept_ite (fun _ => ?_) (fun _ => ?_)
    | with_reducible refine kept_foldl _ (fun s hk x => ?_) ?_
    | with_reducible refine kept_lineOp ?_ _ _ _ _ _ (fun x0 x1 s hk => ?_)
    | with_reducible refine keptOut_next ?_
    | with_reducible dsimp only
    | (with_reducible split)

theorem kept_execIcinv {s₀ s : State} (hk : Kept s₀ s) (t : Tick) (c : Fin 26) (ra : Fin 32) : KeptOut s₀ (execIcinv t c ra s) := by
  unfold execIcinv
  repeat' first
    | with_reducible exact hk
    | (simp +contextual (maxDischargeDepth := 60) only [kept_modGcore, kept_lineOp, implies_true, forall_const, hk, keptOut_next, kept_mk, kept_mkFilter, keptEff_next, keptEff_jump, keptEff_exc, keptEff_wait, keptEff_fly, keptEff_yield, keptEff_halt, keptEff_ite]; done)
    | with_reducible refine kept_ite (fun _ => ?_) (fun _ => ?_)
    | with_reducible refine kept_foldl _ (fun s hk x => ?_) ?_
    | with_reducible refine kept_lineOp ?_ _ _ _ _ _ (fun x0 x1 s hk => ?_)
    | with_reducible refine keptOut_next ?_
    | with_reducible dsimp only
    | (with_reducible split)

theorem kept_execDcall {s₀ s : State} (hk : Kept s₀ s) (t : Tick) (c : Fin 26) : KeptOut s₀ (execDcall t c s) := by
  unfold execDcall
  repeat' first
    | with_reducible exact hk
    | (simp +contextual (maxDischargeDepth := 60) only [kept_modGcore, kept_sysOp, kept_writeBack, implies_true, forall_const, hk, kept_foldl, keptOut_next, kept_mk, keptEff_next, keptEff_jump, keptEff_exc, keptEff_wait, keptEff_fly, keptEff_yield, keptEff_halt, keptEff_ite]; done)
    | with_reducible refine kept_ite (fun _ => ?_) (fun _ => ?_)
    | with_reducible refine kept_foldl _ (fun s hk x => ?_) ?_
    | with_reducible refine kept_sysOp ?_ _ _ _ _ (fun x0 s hk => ?_)
    | with_reducible refine keptOut_next ?_
    | with_reducible dsimp only
    | (with_reducible split)

theorem kept_execIcall {s₀ s : State} (hk : Kept s₀ s) (t : Tick) (c : Fin 26) : KeptOut s₀ (execIcall t c s) := by
  unfold execIcall
  repeat' first
    | with_reducible exact hk
    | (simp +contextual (maxDischargeDepth := 60) only [kept_modGcore, kept_sysOp, implies_true, forall_const, hk, keptOut_next, kept_mk, keptEff_next, keptEff_jump, keptEff_exc, keptEff_wait, keptEff_fly, keptEff_yield, keptEff_halt, keptEff_ite]; done)
    | with_reducible refine kept_ite (fun _ => ?_) (fun _ => ?_)
    | with_reducible refine kept_foldl _ (fun s hk x => ?_) ?_
    | with_reducible refine kept_sysOp ?_ _ _ _ _ (fun x0 s hk => ?_)
    | with_reducible refine keptOut_next ?_
    | with_reducible dsimp only
    | (with_reducible split)

theorem kept_execCommitEntryDrain {s₀ s : State} (hk : Kept s₀ s) (t : Tick) (l : Fin 20) (slot : Fin 8) : KeptOut s₀ (execCommitEntryDrain t l slot s) := by
  unfold execCommitEntryDrain
  repeat' first
    | with_reducible exact hk
    | (simp +contextual (maxDischargeDepth := 60) only [kept_at, kept_drainCore, implies_true, forall_const, hk, kept_foldl, keptOut_next, kept_mk, keptEff_next, keptEff_jump, keptEff_exc, keptEff_wait, keptEff_fly, keptEff_yield, keptEff_halt, keptEff_ite]; done)
    | with_reducible refine kept_ite (fun _ => ?_) (fun _ => ?_)
    | with_reducible refine kept_foldl _ (fun s hk x => ?_) ?_
    | with_reducible refine keptOut_next ?_
    | with_reducible dsimp only
    | (with_reducible split)

end Sys2Proof.Machine
end

