-- ==== Sys2Proof/Laws/KeptSlotsCmd.lean ====
section
/-! SUPPORT. What the operations of Machine/SlotsCmd.lean keep of a state. -/

namespace Sys2Proof.Machine

theorem kept_execFrameLoad {s₀ s : State} (hk : Kept s₀ s) (t : Tick) (l : Fin 20) (slot : Fin 8) : KeptOut s₀ (execFrameLoad t l slot s) := by
  unfold execFrameLoad
  repeat' first
    | with_reducible exact hk
    | (simp +contextual (maxDischargeDepth := 60) only [kept_ensureLoaded, kept_atStep, hk, kept_ite, keptOut_next, kept_mk]; done)
    | with_reducible refine kept_ite (fun _ => ?_) (fun _ => ?_)
    | with_reducible refine kept_foldl _ (fun s hk x => ?_) ?_
    | with_reducible dsimp only
    | (with_reducible split)

theorem kept_execSpanStart {s₀ s : State} (hk : Kept s₀ s) (t : Tick) (l : Fin 20) (slot : Fin 8) : KeptOut s₀ (execSpanStart t l slot s) := by
  unfold execSpanStart
  repeat' first
    | with_reducible exact hk
    | (simp +contextual (maxDischargeDepth := 60) only [kept_ensureLoaded, kept_atStep, kept_loadParams, kept_beginSpan, kept_clearHist, hk, kept_ite, keptOut_next, kept_mk]; done)
    | with_reducible refine kept_ite (fun _ => ?_) (fun _ => ?_)
    | with_reducible refine kept_foldl _ (fun s hk x => ?_) ?_
    | with_reducible dsimp only
    | (with_reducible split)

theorem kept_execSpanEnd {s₀ s : State} (hk : Kept s₀ s) (t : Tick) (l : Fin 20) (slot : Fin 8) : KeptOut s₀ (execSpanEnd t l slot s) := by
  unfold execSpanEnd
  repeat' first
    | with_reducible exact hk
    | (simp +contextual (maxDischargeDepth := 60) only [kept_atStep, kept_modSlot, hk, kept_ite, keptOut_next, kept_mk, kept_mkFilter]; done)
    | with_reducible refine kept_ite (fun _ => ?_) (fun _ => ?_)
    | with_reducible refine kept_foldl _ (fun s hk x => ?_) ?_
    | with_reducible dsimp only
    | (with_reducible split)

theorem kept_execRelease {s₀ s : State} (hk : Kept s₀ s) (t : Tick) (l : Fin 20) (slot : Fin 8) : KeptOut s₀ (execRelease t l slot s) := by
  unfold execRelease
  repeat' first
    | with_reducible exact hk
    | (simp +contextual (maxDischargeDepth := 60) only [kept_ensureLoaded, kept_atStep, kept_dropPeriod, kept_modSlot, kept_raise, hk, kept_ite, keptOut_next, kept_mk]; done)
    | with_reducible refine kept_ite (fun _ => ?_) (fun _ => ?_)
    | with_reducible refine kept_foldl _ (fun s hk x => ?_) ?_
    | with_reducible dsimp only
    | (with_reducible split)

theorem kept_execDeadlineDrop {s₀ s : State} (hk : Kept s₀ s) (t : Tick) (l : Fin 20) (slot : Fin 8) : KeptOut s₀ (execDeadlineDrop t l slot s) := by
  unfold execDeadlineDrop
  repeat' first
    | with_reducible exact hk
    | (simp +contextual (maxDischargeDepth := 60) only [kept_atStep, kept_dropPeriod, hk, kept_ite, keptOut_next, kept_mk]; done)
    | with_reducible refine kept_ite (fun _ => ?_) (fun _ => ?_)
    | with_reducible refine kept_foldl _ (fun s hk x => ?_) ?_
    | with_reducible dsimp only
    | (with_reducible split)

theorem kept_execArmFire {s₀ s : State} (hk : Kept s₀ s) (t : Tick) (p : Fin 24) (n : Fin 16) : KeptOut s₀ (execArmFire t p n s) := by
  unfold execArmFire
  repeat' first
    | with_reducible exact hk
    | (simp +contextual (maxDischargeDepth := 60) only [kept_setArms, kept_atStep, kept_setPointAt, hk, kept_ite, keptOut_next, kept_mk, kept_mkFilter]; done)
    | with_reducible refine kept_ite (fun _ => ?_) (fun _ => ?_)
    | with_reducible refine kept_foldl _ (fun s hk x => ?_) ?_
    | with_reducible dsimp only
    | (with_reducible split)

theorem kept_execSlotStart {s₀ s : State} (hk : Kept s₀ s) (t : Tick) (l : Fin 20) (slot : Fin 8) : KeptOut s₀ (execSlotStart t l slot s) := by
  unfold execSlotStart
  repeat' first
    | with_reducible exact hk
    | (simp +contextual (maxDischargeDepth := 60) only [kept_atStep, kept_slotStart, hk, kept_ite, keptOut_next]; done)
    | with_reducible refine kept_ite (fun _ => ?_) (fun _ => ?_)
    | with_reducible refine kept_foldl _ (fun s hk x => ?_) ?_
    | with_reducible dsimp only
    | (with_reducible split)

theorem kept_execSlotStop {s₀ s : State} (hk : Kept s₀ s) (t : Tick) (l : Fin 20) (slot : Fin 8) : KeptOut s₀ (execSlotStop t l slot s) := by
  unfold execSlotStop
  repeat' first
    | with_reducible exact hk
    | (simp +contextual (maxDischargeDepth := 60) only [kept_slotStop, kept_atStep, hk, kept_ite, keptOut_next]; done)
    | with_reducible refine kept_ite (fun _ => ?_) (fun _ => ?_)
    | with_reducible refine kept_foldl _ (fun s hk x => ?_) ?_
    | with_reducible dsimp only
    | (with_reducible split)

theorem kept_execSubstRequest {s₀ s : State} (hk : Kept s₀ s) (t : Tick) (w : Word) : KeptOut s₀ (execSubstRequest t w s) := by
  unfold execSubstRequest
  repeat' first
    | with_reducible exact hk
    | (simp +contextual (maxDischargeDepth := 60) only [kept_requestSubst, kept_at, hk, kept_ite, keptOut_next]; done)
    | with_reducible refine kept_ite (fun _ => ?_) (fun _ => ?_)
    | with_reducible refine kept_foldl _ (fun s hk x => ?_) ?_
    | with_reducible dsimp only
    | (with_reducible split)

theorem kept_execSubstCancel {s₀ s : State} (hk : Kept s₀ s) (t : Tick) : KeptOut s₀ (execSubstCancel t s) := by
  unfold execSubstCancel
  repeat' first
    | with_reducible exact hk
    | (simp +contextual (maxDischargeDepth := 60) only [kept_at, kept_cancelSubst, hk, kept_ite, keptOut_next]; done)
    | with_reducible refine kept_ite (fun _ => ?_) (fun _ => ?_)
    | with_reducible refine kept_foldl _ (fun s hk x => ?_) ?_
    | with_reducible dsimp only
    | (with_reducible split)

end Sys2Proof.Machine
end

