-- ==== Sys2Proof/Laws/KeptStpCmd.lean ====
section
/-! SUPPORT. What the operations of Machine/StpCmd.lean keep of a state. -/

namespace Sys2Proof.Machine

theorem kept_execEncoderCount {s₀ s : State} (hk : Kept s₀ s) (t : Tick) (e : Fin 8) (ab : List (Bool × Bool)) : KeptOut s₀ (execEncoderCount t e ab s) := by
  unfold execEncoderCount
  repeat' first
    | with_reducible exact hk
    | (simp +contextual (maxDischargeDepth := 60) only [kept_at, kept_encSample, implies_true, forall_const, hk, kept_ite, kept_foldl, keptOut_next]; done)
    | with_reducible refine kept_ite (fun _ => ?_) (fun _ => ?_)
    | with_reducible refine kept_foldl _ (fun s hk x => ?_) ?_
    | with_reducible dsimp only
    | (with_reducible split)

theorem kept_execEncoderIndexEdge {s₀ s : State} (hk : Kept s₀ s) (x : Samples Bool) (e : Fin 8) : KeptOut s₀ (execEncoderIndexEdge x e s) := by
  unfold execEncoderIndexEdge
  repeat' first
    | with_reducible exact hk
    | (simp +contextual (maxDischargeDepth := 60) only [kept_at, kept_zSample, implies_true, forall_const, hk, kept_ite, kept_foldl, keptOut_next]; done)
    | with_reducible refine kept_ite (fun _ => ?_) (fun _ => ?_)
    | with_reducible refine kept_foldl _ (fun s hk x => ?_) ?_
    | with_reducible dsimp only
    | (with_reducible split)

theorem kept_execMotionPeriod {s₀ s : State} (hk : Kept s₀ s) (t : Tick) (ms : List (Nat × Nat) × List (Nat × BitVec 766 × BitVec 766)) : KeptOut s₀ (execMotionPeriod t ms s) := by
  unfold execMotionPeriod
  repeat' first
    | with_reducible exact hk
    | (simp +contextual (maxDischargeDepth := 60) only [kept_at, kept_motionCh, kept_encSpeed, implies_true, forall_const, hk, kept_ite, kept_foldl, keptOut_next]; done)
    | with_reducible refine kept_ite (fun _ => ?_) (fun _ => ?_)
    | with_reducible refine kept_foldl _ (fun s hk x => ?_) ?_
    | with_reducible dsimp only
    | (with_reducible split)

theorem kept_execGo {s₀ s : State} (hk : Kept s₀ s) (t : Tick) (c : Fin 32) : KeptOut s₀ (execGo t c s) := by
  unfold execGo
  repeat' first
    | with_reducible exact hk
    | (simp +contextual (maxDischargeDepth := 60) only [kept_at, kept_stpGo, hk, kept_ite, keptOut_next]; done)
    | with_reducible refine kept_ite (fun _ => ?_) (fun _ => ?_)
    | with_reducible refine kept_foldl _ (fun s hk x => ?_) ?_
    | with_reducible dsimp only
    | (with_reducible split)

theorem kept_execStpStop {s₀ s : State} (hk : Kept s₀ s) (t : Tick) (c : Fin 32) : KeptOut s₀ (execStpStop t c s) := by
  unfold execStpStop
  repeat' first
    | with_reducible exact hk
    | (simp +contextual (maxDischargeDepth := 60) only [kept_at, kept_stpStop, hk, kept_ite, keptOut_next]; done)
    | with_reducible refine kept_ite (fun _ => ?_) (fun _ => ?_)
    | with_reducible refine kept_foldl _ (fun s hk x => ?_) ?_
    | with_reducible dsimp only
    | (with_reducible split)

theorem kept_execHalt {s₀ s : State} (hk : Kept s₀ s) (t : Tick) (c : Fin 32) : KeptOut s₀ (execHalt t c s) := by
  unfold execHalt
  repeat' first
    | with_reducible exact hk
    | (simp +contextual (maxDischargeDepth := 60) only [kept_stpHalt, kept_at, hk, kept_ite, keptOut_next]; done)
    | with_reducible refine kept_ite (fun _ => ?_) (fun _ => ?_)
    | with_reducible refine kept_foldl _ (fun s hk x => ?_) ?_
    | with_reducible dsimp only
    | (with_reducible split)

theorem kept_execResume {s₀ s : State} (hk : Kept s₀ s) (t : Tick) (c : Fin 32) : KeptOut s₀ (execResume t c s) := by
  unfold execResume
  repeat' first
    | with_reducible exact hk
    | (simp +contextual (maxDischargeDepth := 60) only [kept_at, kept_stpResume, hk, kept_ite, keptOut_next]; done)
    | with_reducible refine kept_ite (fun _ => ?_) (fun _ => ?_)
    | with_reducible refine kept_foldl _ (fun s hk x => ?_) ?_
    | with_reducible dsimp only
    | (with_reducible split)

theorem kept_execStpClear {s₀ s : State} (hk : Kept s₀ s) (t : Tick) (c : Fin 32) : KeptOut s₀ (execStpClear t c s) := by
  unfold execStpClear
  repeat' first
    | with_reducible exact hk
    | (simp +contextual (maxDischargeDepth := 60) only [kept_at, kept_stpClear, hk, kept_ite, keptOut_next]; done)
    | with_reducible refine kept_ite (fun _ => ?_) (fun _ => ?_)
    | with_reducible refine kept_foldl _ (fun s hk x => ?_) ?_
    | with_reducible dsimp only
    | (with_reducible split)

theorem kept_execMoveAbs {s₀ s : State} (hk : Kept s₀ s) (t : Tick) (k : Fin 128) (i : Nat) : KeptOut s₀ (execMoveAbs t k i s) := by
  unfold execMoveAbs
  repeat' first
    | with_reducible exact hk
    | (simp +contextual (maxDischargeDepth := 60) only [kept_at, kept_ttTarget, kept_stpAction, kept_stpGo, implies_true, forall_const, hk, keptOut_next]; done)
    | with_reducible refine kept_ite (fun _ => ?_) (fun _ => ?_)
    | with_reducible refine kept_foldl _ (fun s hk x => ?_) ?_
    | with_reducible refine kept_stpAction ?_ _ _ _ _ (fun s y0 y1 y2 hk => ?_)
    | with_reducible refine keptOut_next ?_
    | with_reducible dsimp only
    | (with_reducible split)

theorem kept_execMoveRel {s₀ s : State} (hk : Kept s₀ s) (t : Tick) (k : Fin 128) (i : Nat) : KeptOut s₀ (execMoveRel t k i s) := by
  unfold execMoveRel
  repeat' first
    | with_reducible exact hk
    | (simp +contextual (maxDischargeDepth := 60) only [kept_at, kept_ttTarget, kept_stpAction, kept_stpGo, implies_true, forall_const, hk, keptOut_next, kept_mk]; done)
    | with_reducible refine kept_ite (fun _ => ?_) (fun _ => ?_)
    | with_reducible refine kept_foldl _ (fun s hk x => ?_) ?_
    | with_reducible refine kept_stpAction ?_ _ _ _ _ (fun s y0 y1 y2 hk => ?_)
    | with_reducible refine keptOut_next ?_
    | with_reducible dsimp only
    | (with_reducible split)

theorem kept_execStpTtRun {s₀ s : State} (hk : Kept s₀ s) (t : Tick) (k : Fin 128) (i : Nat) : KeptOut s₀ (execStpTtRun t k i s) := by
  unfold execStpTtRun
  repeat' first
    | with_reducible exact hk
    | (simp +contextual (maxDischargeDepth := 60) only [kept_at, kept_modStp, kept_hold, kept_stpAction, kept_stpGo, implies_true, forall_const, hk, keptOut_next, kept_mk]; done)
    | with_reducible refine kept_ite (fun _ => ?_) (fun _ => ?_)
    | with_reducible refine kept_foldl _ (fun s hk x => ?_) ?_
    | with_reducible refine kept_stpAction ?_ _ _ _ _ (fun s y0 y1 y2 hk => ?_)
    | with_reducible refine keptOut_next ?_
    | with_reducible dsimp only
    | (with_reducible split)

theorem kept_execStpTtStop {s₀ s : State} (hk : Kept s₀ s) (t : Tick) (k : Fin 128) (i : Nat) : KeptOut s₀ (execStpTtStop t k i s) := by
  unfold execStpTtStop
  repeat' first
    | with_reducible exact hk
    | (simp +contextual (maxDischargeDepth := 60) only [kept_at, kept_stpAction, kept_stpStop, implies_true, forall_const, hk, keptOut_next]; done)
    | with_reducible refine kept_ite (fun _ => ?_) (fun _ => ?_)
    | with_reducible refine kept_foldl _ (fun s hk x => ?_) ?_
    | with_reducible refine kept_stpAction ?_ _ _ _ _ (fun s y0 y1 y2 hk => ?_)
    | with_reducible refine keptOut_next ?_
    | with_reducible dsimp only
    | (with_reducible split)

theorem kept_execStpTtHalt {s₀ s : State} (hk : Kept s₀ s) (t : Tick) (k : Fin 128) (i : Nat) : KeptOut s₀ (execStpTtHalt t k i s) := by
  unfold execStpTtHalt
  repeat' first
    | with_reducible exact hk
    | (simp +contextual (maxDischargeDepth := 60) only [kept_at, kept_stpHalt, kept_stpAction, implies_true, forall_const, hk, keptOut_next]; done)
    | with_reducible refine kept_ite (fun _ => ?_) (fun _ => ?_)
    | with_reducible refine kept_foldl _ (fun s hk x => ?_) ?_
    | with_reducible refine kept_stpAction ?_ _ _ _ _ (fun s y0 y1 y2 hk => ?_)
    | with_reducible refine keptOut_next ?_
    | with_reducible dsimp only
    | (with_reducible split)

theorem kept_execStpTtResume {s₀ s : State} (hk : Kept s₀ s) (t : Tick) (k : Fin 128) (i : Nat) : KeptOut s₀ (execStpTtResume t k i s) := by
  unfold execStpTtResume
  repeat' first
    | with_reducible exact hk
    | (simp +contextual (maxDischargeDepth := 60) only [kept_at, kept_stpResume, kept_stpAction, implies_true, forall_const, hk, keptOut_next]; done)
    | with_reducible refine kept_ite (fun _ => ?_) (fun _ => ?_)
    | with_reducible refine kept_foldl _ (fun s hk x => ?_) ?_
    | with_reducible refine kept_stpAction ?_ _ _ _ _ (fun s y0 y1 y2 hk => ?_)
    | with_reducible refine keptOut_next ?_
    | with_reducible dsimp only
    | (with_reducible split)

theorem kept_execEngage {s₀ s : State} (hk : Kept s₀ s) (t : Tick) (k : Fin 128) (i : Nat) : KeptOut s₀ (execEngage t k i s) := by
  unfold execEngage
  repeat' first
    | with_reducible exact hk
    | (simp +contextual (maxDischargeDepth := 60) only [kept_at, kept_stpAction, kept_stpGo, implies_true, forall_const, hk, keptOut_next]; done)
    | with_reducible refine kept_ite (fun _ => ?_) (fun _ => ?_)
    | with_reducible refine kept_foldl _ (fun s hk x => ?_) ?_
    | with_reducible refine kept_stpAction ?_ _ _ _ _ (fun s y0 y1 y2 hk => ?_)
    | with_reducible refine keptOut_next ?_
    | with_reducible dsimp only
    | (with_reducible split)

theorem kept_execGearArm {s₀ s : State} (hk : Kept s₀ s) (t : Tick) (c : Fin 32) : KeptOut s₀ (execGearArm t c s) := by
  unfold execGearArm
  repeat' first
    | with_reducible exact hk
    | (simp +contextual (maxDischargeDepth := 60) only [kept_at, kept_gearArm, hk, kept_ite, keptOut_next]; done)
    | with_reducible refine kept_ite (fun _ => ?_) (fun _ => ?_)
    | with_reducible refine kept_foldl _ (fun s hk x => ?_) ?_
    | with_reducible dsimp only
    | (with_reducible split)

theorem kept_execGearCancel {s₀ s : State} (hk : Kept s₀ s) (t : Tick) (c : Fin 32) : KeptOut s₀ (execGearCancel t c s) := by
  unfold execGearCancel
  repeat' first
    | with_reducible exact hk
    | (simp +contextual (maxDischargeDepth := 60) only [kept_gearCancel, kept_at, hk, kept_ite, keptOut_next]; done)
    | with_reducible refine kept_ite (fun _ => ?_) (fun _ => ?_)
    | with_reducible refine kept_foldl _ (fun s hk x => ?_) ?_
    | with_reducible dsimp only
    | (with_reducible split)

theorem kept_execHoldTimerExpiry {s₀ s : State} (hk : Kept s₀ s) (t : Tick) (c : Fin 16) : KeptOut s₀ (execHoldTimerExpiry t c s) := by
  unfold execHoldTimerExpiry
  repeat' first
    | with_reducible exact hk
    | (simp +contextual (maxDischargeDepth := 60) only [kept_at, kept_modStp, kept_hold, kept_setF, hk, kept_ite, keptOut_next, kept_mk]; done)
    | with_reducible refine kept_ite (fun _ => ?_) (fun _ => ?_)
    | with_reducible refine kept_foldl _ (fun s hk x => ?_) ?_
    | with_reducible dsimp only
    | (with_reducible split)

theorem kept_execStpPosHiWrite {s₀ s : State} (hk : Kept s₀ s) (t : Tick) (c : Fin 32) (w : Word) : KeptOut s₀ (execStpPosHiWrite t c w s) := by
  unfold execStpPosHiWrite
  repeat' first
    | with_reducible exact hk
    | (simp +contextual (maxDischargeDepth := 60) only [kept_at, kept_writePosHi, hk, kept_ite, keptOut_next]; done)
    | with_reducible refine kept_ite (fun _ => ?_) (fun _ => ?_)
    | with_reducible refine kept_foldl _ (fun s hk x => ?_) ?_
    | with_reducible dsimp only
    | (with_reducible split)

theorem kept_execStpTgtHiWrite {s₀ s : State} (hk : Kept s₀ s) (t : Tick) (c : Fin 32) (w : Word) : KeptOut s₀ (execStpTgtHiWrite t c w s) := by
  unfold execStpTgtHiWrite
  repeat' first
    | with_reducible exact hk
    | (simp +contextual (maxDischargeDepth := 60) only [kept_at, kept_writeTgtHi, hk, kept_ite, keptOut_next]; done)
    | with_reducible refine kept_ite (fun _ => ?_) (fun _ => ?_)
    | with_reducible refine kept_foldl _ (fun s hk x => ?_) ?_
    | with_reducible dsimp only
    | (with_reducible split)

theorem kept_execStpEncCntHiWrite {s₀ s : State} (hk : Kept s₀ s) (t : Tick) (e : Fin 8) (w : Word) : KeptOut s₀ (execStpEncCntHiWrite t e w s) := by
  unfold execStpEncCntHiWrite
  repeat' first
    | with_reducible exact hk
    | (simp +contextual (maxDischargeDepth := 60) only [kept_at, kept_writeCntHi, hk, kept_ite, keptOut_next]; done)
    | with_reducible refine kept_ite (fun _ => ?_) (fun _ => ?_)
    | with_reducible refine kept_foldl _ (fun s hk x => ?_) ?_
    | with_reducible dsimp only
    | (with_reducible split)

end Sys2Proof.Machine
end

