-- ==== Sys2Proof/Laws/KeptSysClkCmd.lean ====
section
/-! SUPPORT. What the operations of Machine/SysClkCmd.lean keep of a state. -/

namespace Sys2Proof.Machine

theorem kept_execPor {s₀ s : State} (hk : Kept s₀ s) (t : Tick) : KeptOut s₀ (execPor t s) := by
  unfold execPor
  repeat' first
    | with_reducible exact hk
    | (simp +contextual (maxDischargeDepth := 60) only [kept_por, kept_at, kept_lcWipe, hk, kept_ite, keptOut_next]; done)
    | with_reducible refine kept_ite (fun _ => ?_) (fun _ => ?_)
    | with_reducible refine kept_foldl _ (fun s hk x => ?_) ?_
    | with_reducible dsimp only
    | (with_reducible split)

theorem kept_execCrst {s₀ s : State} (hk : Kept s₀ s) (t : Tick) : KeptOut s₀ (execCrst t s) := by
  unfold execCrst
  repeat' first
    | with_reducible exact hk
    | (simp +contextual (maxDischargeDepth := 60) only [kept_at, kept_crst, hk, keptOut_next]; done)
    | with_reducible refine kept_ite (fun _ => ?_) (fun _ => ?_)
    | with_reducible refine kept_foldl _ (fun s hk x => ?_) ?_
    | with_reducible dsimp only
    | (with_reducible split)

theorem kept_execUnlock {s₀ s : State} (hk : Kept s₀ s) (t : Tick) : KeptOut s₀ (execUnlock t s) := by
  unfold execUnlock
  repeat' first
    | with_reducible exact hk
    | (simp +contextual (maxDischargeDepth := 60) only [kept_at, kept_setB, kept_raise, hk, kept_ite, keptOut_next]; done)
    | with_reducible refine kept_ite (fun _ => ?_) (fun _ => ?_)
    | with_reducible refine kept_foldl _ (fun s hk x => ?_) ?_
    | with_reducible dsimp only
    | (with_reducible split)

theorem kept_execClkTbLoRead {s₀ s : State} (hk : Kept s₀ s) (t : Tick) (ini : Fin 7) : KeptOut s₀ (execClkTbLoRead t ini s) := by
  unfold execClkTbLoRead
  have hk2 := hk
  repeat' first
    | with_reducible exact hk
    | with_reducible exact hk2
    | (simp +contextual (maxDischargeDepth := 60) only [kept_at, kept_busLoad, kept_setAcc, hk, hk2, keptOut_next]; done)
    | with_reducible refine kept_ite (fun _ => ?_) (fun _ => ?_)
    | with_reducible refine kept_foldl _ (fun s hk x => ?_) ?_
    | with_reducible dsimp only
    | (with_reducible split) <;> first | (have hk2 : Kept s₀ _ := kept_pair ‹(_ : _ × State) = (_, _)› (by simp +contextual (maxDischargeDepth := 60) only [kept_at, kept_busLoad, kept_setAcc, hk, hk2, keptOut_next]; done)) | skip

theorem kept_execSysProfileWrite {s₀ s : State} (hk : Kept s₀ s) (t : Tick) (w : Word) : KeptOut s₀ (execSysProfileWrite t w s) := by
  unfold execSysProfileWrite
  repeat' first
    | with_reducible exact hk
    | (simp +contextual (maxDischargeDepth := 60) only [kept_at, kept_storeReg, hk, keptOut_next, kept_mk]; done)
    | with_reducible refine kept_ite (fun _ => ?_) (fun _ => ?_)
    | with_reducible refine kept_foldl _ (fun s hk x => ?_) ?_
    | with_reducible dsimp only
    | (with_reducible split)

theorem kept_idle {s₀ s : State} (hk : Kept s₀ s)  : Kept s₀ (State.idle s) := by
  unfold State.idle
  repeat' first
    | with_reducible exact hk
    | (simp +contextual (maxDischargeDepth := 60) only [kept_at, kept_takeHeld, hk, kept_ite]; done)
    | with_reducible refine kept_ite (fun _ => ?_) (fun _ => ?_)
    | with_reducible refine kept_foldl _ (fun s hk x => ?_) ?_
    | with_reducible dsimp only
    | (with_reducible split)

theorem kept_execSlotTableSwap {s₀ s : State} (hk : Kept s₀ s) (t : Tick) : KeptOut s₀ (execSlotTableSwap t s) := by
  unfold execSlotTableSwap
  repeat' first
    | with_reducible exact hk
    | (simp +contextual (maxDischargeDepth := 60) only [kept_requestSwap, kept_at, kept_setB, kept_setF, hk, kept_ite, keptOut_next, kept_mk]; done)
    | with_reducible refine kept_ite (fun _ => ?_) (fun _ => ?_)
    | with_reducible refine kept_foldl _ (fun s hk x => ?_) ?_
    | with_reducible dsimp only
    | (with_reducible split)

theorem kept_execBeAgeSaturate {s₀ s : State} (hk : Kept s₀ s) (t : Tick) : KeptOut s₀ (execBeAgeSaturate t s) := by
  unfold execBeAgeSaturate
  repeat' first
    | with_reducible exact hk
    | (simp +contextual (maxDischargeDepth := 60) only [kept_at, kept_raise, kept_incSat, hk, kept_ite, keptOut_next]; done)
    | with_reducible refine kept_ite (fun _ => ?_) (fun _ => ?_)
    | with_reducible refine kept_foldl _ (fun s hk x => ?_) ?_
    | with_reducible dsimp only
    | (with_reducible split)

end Sys2Proof.Machine
end

