-- ==== Sys2Proof/Laws/KeptThermalCmd.lean ====
section
/-! SUPPORT. What the operations of Machine/ThermalCmd.lean keep of a state. -/

namespace Sys2Proof.Machine

theorem kept_execThrottleGraceExpiry {s₀ s : State} (hk : Kept s₀ s) (t : Tick) : KeptOut s₀ (execThrottleGraceExpiry t s) := by
  unfold execThrottleGraceExpiry
  repeat' first
    | with_reducible exact hk
    | (simp +contextual (maxDischargeDepth := 60) only [kept_applyS, kept_incSat, kept_thrEnforced, kept_thmEvent, kept_thrState, kept_at, hk, kept_ite, keptOut_next]; done)
    | with_reducible refine kept_ite (fun _ => ?_) (fun _ => ?_)
    | with_reducible refine kept_foldl _ (fun s hk x => ?_) ?_
    | with_reducible dsimp only
    | (with_reducible split)

theorem kept_execThrottleRelease {s₀ s : State} (hk : Kept s₀ s) (t : Tick) : KeptOut s₀ (execThrottleRelease t s) := by
  unfold execThrottleRelease
  repeat' first
    | with_reducible exact hk
    | (simp +contextual (maxDischargeDepth := 60) only [kept_thrState, kept_at, kept_setB, hk, kept_ite, keptOut_next, kept_mk]; done)
    | with_reducible refine kept_ite (fun _ => ?_) (fun _ => ?_)
    | with_reducible refine kept_foldl _ (fun s hk x => ?_) ?_
    | with_reducible dsimp only
    | (with_reducible split)

theorem kept_execThmSample {s₀ s : State} (hk : Kept s₀ s) (t : Tick) (rs : List (Option (BitVec 16))) : KeptOut s₀ (execThmSample t rs s) := by
  unfold execThmSample
  repeat' first
    | with_reducible exact hk
    | (simp +contextual (maxDischargeDepth := 60) only [kept_failSensor, kept_take, kept_applyS, kept_sampleHot, kept_at, kept_setReg, kept_setF, kept_thrEnforced, kept_samplePair, kept_sampleThrottle, kept_thmEvent, implies_true, forall_const, hk, kept_ite, kept_foldl, keptOut_next, kept_mk]; done)
    | with_reducible refine kept_ite (fun _ => ?_) (fun _ => ?_)
    | with_reducible refine kept_foldl _ (fun s hk x => ?_) ?_
    | with_reducible dsimp only
    | (with_reducible split)

theorem kept_execRiseUpdate {s₀ s : State} (hk : Kept s₀ s) (t : Tick) : KeptOut s₀ (execRiseUpdate t s) := by
  unfold execRiseUpdate
  repeat' first
    | with_reducible exact hk
    | (simp +contextual (maxDischargeDepth := 60) only [kept_setF, kept_at, kept_take, hk, kept_ite, keptOut_next, kept_mk, kept_mkFilter]; done)
    | with_reducible refine kept_ite (fun _ => ?_) (fun _ => ?_)
    | with_reducible refine kept_foldl _ (fun s hk x => ?_) ?_
    | with_reducible dsimp only
    | (with_reducible split)

end Sys2Proof.Machine
end

