-- ==== Sys2Proof/Laws/KeptTrustCmd.lean ====
section
/-! SUPPORT. What the operations of Machine/TrustCmd.lean keep of a state. -/

namespace Sys2Proof.Machine

theorem kept_execStageAdvance {s₀ s : State} (hk : Kept s₀ s) (t : Tick) (w : Word) : KeptOut s₀ (execStageAdvance t w s) := by
  unfold execStageAdvance
  repeat' first
    | with_reducible exact hk
    | (simp +contextual (maxDischargeDepth := 60) only [kept_stageNext, kept_at, hk, kept_ite, keptOut_next]; done)
    | with_reducible refine kept_ite (fun _ => ?_) (fun _ => ?_)
    | with_reducible refine kept_foldl _ (fun s hk x => ?_) ?_
    | with_reducible dsimp only
    | (with_reducible split)

theorem kept_execSecRbAdv {s₀ s : State} (hk : Kept s₀ s) (t : Tick) (n : Fin 4) : KeptOut s₀ (execSecRbAdv t n s) := by
  unfold execSecRbAdv
  repeat' first
    | with_reducible exact hk
    | (simp +contextual (maxDischargeDepth := 60) only [kept_at, kept_rbAdv, hk, kept_ite, keptOut_next]; done)
    | with_reducible refine kept_ite (fun _ => ?_) (fun _ => ?_)
    | with_reducible refine kept_foldl _ (fun s hk x => ?_) ?_
    | with_reducible dsimp only
    | (with_reducible split)

theorem kept_execRelease1 {s₀ s : State} (hk : Kept s₀ s) (t : Tick) : KeptOut s₀ (execRelease1 t s) := by
  unfold execRelease1
  repeat' first
    | with_reducible exact hk
    | (simp +contextual (maxDischargeDepth := 60) only [kept_at, kept_release1, hk, kept_ite, keptOut_next]; done)
    | with_reducible refine kept_ite (fun _ => ?_) (fun _ => ?_)
    | with_reducible refine kept_foldl _ (fun s hk x => ?_) ?_
    | with_reducible dsimp only
    | (with_reducible split)

theorem kept_execRootPllLock {s₀ s : State} (hk : Kept s₀ s) (t : Tick) (slotA slotB : Option (List Byte)) :
    KeptOut s₀ (execRootPllLock t slotA slotB s) := by
  unfold execRootPllLock
  have h1 := kept_at hk t
  dsimp only
  split
  · exact keptOut_next h1
  · refine keptOut_next (kept_bootIfDue (kept_setB ?_ _ _ _))
    have hm : s₀.onEdge → (s.at t).now % 8 = 0 := fun h => now_mod (h1.edge h)
    obtain ⟨p, d, m, r, c, l, b⟩ := h1
    exact ⟨p, d, m, r, fun h => ⟨hm h, (c h).2⟩, l, b⟩

theorem kept_secRow {s₀ s : State} (hk : Kept s₀ s) (t : Tick) (op : Nat) : KeptOut s₀ (secRow t op s) := by
  unfold secRow
  repeat' first
    | with_reducible exact hk
    | (simp +contextual (maxDischargeDepth := 60) only [kept_at, kept_secBegin, hk, kept_ite, keptOut_next]; done)
    | with_reducible refine kept_ite (fun _ => ?_) (fun _ => ?_)
    | with_reducible refine kept_foldl _ (fun s hk x => ?_) ?_
    | with_reducible dsimp only
    | (with_reducible split)

theorem kept_execKeygen {s₀ s : State} (hk : Kept s₀ s) (t : Tick) : KeptOut s₀ (execKeygen t s) := by
  unfold execKeygen
  repeat' first
    | with_reducible exact hk
    | (simp +contextual (maxDischargeDepth := 60) only [kept_secRow, hk, keptOut_next]; done)
    | with_reducible refine kept_ite (fun _ => ?_) (fun _ => ?_)
    | with_reducible refine kept_foldl _ (fun s hk x => ?_) ?_
    | with_reducible dsimp only
    | (with_reducible split)

theorem kept_execFuseOem {s₀ s : State} (hk : Kept s₀ s) (t : Tick) : KeptOut s₀ (execFuseOem t s) := by
  unfold execFuseOem
  repeat' first
    | with_reducible exact hk
    | (simp +contextual (maxDischargeDepth := 60) only [kept_secRow, hk, keptOut_next]; done)
    | with_reducible refine kept_ite (fun _ => ?_) (fun _ => ?_)
    | with_reducible refine kept_foldl _ (fun s hk x => ?_) ?_
    | with_reducible dsimp only
    | (with_reducible split)

theorem kept_execCert {s₀ s : State} (hk : Kept s₀ s) (t : Tick) : KeptOut s₀ (execCert t s) := by
  unfold execCert
  repeat' first
    | with_reducible exact hk
    | (simp +contextual (maxDischargeDepth := 60) only [kept_secRow, hk, keptOut_next]; done)
    | with_reducible refine kept_ite (fun _ => ?_) (fun _ => ?_)
    | with_reducible refine kept_foldl _ (fun s hk x => ?_) ?_
    | with_reducible dsimp only
    | (with_reducible split)

theorem kept_execExtend {s₀ s : State} (hk : Kept s₀ s) (t : Tick) : KeptOut s₀ (execExtend t s) := by
  unfold execExtend
  repeat' first
    | with_reducible exact hk
    | (simp +contextual (maxDischargeDepth := 60) only [kept_secRow, hk, keptOut_next]; done)
    | with_reducible refine kept_ite (fun _ => ?_) (fun _ => ?_)
    | with_reducible refine kept_foldl _ (fun s hk x => ?_) ?_
    | with_reducible dsimp only
    | (with_reducible split)

theorem kept_execVerify {s₀ s : State} (hk : Kept s₀ s) (t : Tick) : KeptOut s₀ (execVerify t s) := by
  unfold execVerify
  repeat' first
    | with_reducible exact hk
    | (simp +contextual (maxDischargeDepth := 60) only [kept_secRow, hk, keptOut_next]; done)
    | with_reducible refine kept_ite (fun _ => ?_) (fun _ => ?_)
    | with_reducible refine kept_foldl _ (fun s hk x => ?_) ?_
    | with_reducible dsimp only
    | (with_reducible split)

theorem kept_execSign {s₀ s : State} (hk : Kept s₀ s) (t : Tick) : KeptOut s₀ (execSign t s) := by
  unfold execSign
  repeat' first
    | with_reducible exact hk
    | (simp +contextual (maxDischargeDepth := 60) only [kept_secRow, hk, keptOut_next]; done)
    | with_reducible refine kept_ite (fun _ => ?_) (fun _ => ?_)
    | with_reducible refine kept_foldl _ (fun s hk x => ?_) ?_
    | with_reducible dsimp only
    | (with_reducible split)

theorem kept_execMeter {s₀ s : State} (hk : Kept s₀ s) (t : Tick) : KeptOut s₀ (execMeter t s) := by
  unfold execMeter
  repeat' first
    | with_reducible exact hk
    | (simp +contextual (maxDischargeDepth := 60) only [kept_secRow, hk, keptOut_next]; done)
    | with_reducible refine kept_ite (fun _ => ?_) (fun _ => ?_)
    | with_reducible refine kept_foldl _ (fun s hk x => ?_) ?_
    | with_reducible dsimp only
    | (with_reducible split)

theorem kept_execLcChange {s₀ s : State} (hk : Kept s₀ s) (t : Tick) : KeptOut s₀ (execLcChange t s) := by
  unfold execLcChange
  repeat' first
    | with_reducible exact hk
    | (simp +contextual (maxDischargeDepth := 60) only [kept_secRow, hk, keptOut_next]; done)
    | with_reducible refine kept_ite (fun _ => ?_) (fun _ => ?_)
    | with_reducible refine kept_foldl _ (fun s hk x => ?_) ?_
    | with_reducible dsimp only
    | (with_reducible split)

theorem kept_execSecCommandComplete {s₀ s : State} (hk : Kept s₀ s) (t : Tick) : KeptOut s₀ (execSecCommandComplete t s) := by
  unfold execSecCommandComplete
  repeat' first
    | with_reducible exact hk
    | (simp +contextual (maxDischargeDepth := 60) only [kept_secEnd, kept_telSign, kept_at, hk, kept_ite, keptOut_next, kept_mk]; done)
    | with_reducible refine kept_ite (fun _ => ?_) (fun _ => ?_)
    | with_reducible refine kept_foldl _ (fun s hk x => ?_) ?_
    | with_reducible dsimp only
    | (with_reducible split)

end Sys2Proof.Machine
end

