-- ==== Sys2Proof/Laws/KeptExec.lean ====
section
/-! SUPPORT. What every command and every step keep of a state. -/

namespace Sys2Proof.Machine

set_option linter.all false

/-- A command keeps the queue, the DRAM installed, the canonical forms and the CORE edge, and lowers no one-way count. -/
theorem exec_kept (i : Instr) (s : State) : KeptOut s (exec i s) := by
  have hk := Kept.refl s
  cases i with
  | por t => exact kept_execPor hk t
  | crst t => exact kept_execCrst hk t
  | registerWrite t ini a size v => exact kept_execRegisterWrite hk t ini a size v
  | clkTbLoRead t ini => exact kept_execClkTbLoRead hk t ini
  | sysProfileWrite t w => exact kept_execSysProfileWrite hk t w
  | rootPllLock t slotA slotB => exact kept_execRootPllLock hk t slotA slotB
  | unlock t => exact kept_execUnlock hk t
  | slotTableSwap t => exact kept_execSlotTableSwap hk t
  | beAgeSaturate t => exact kept_execBeAgeSaturate hk t
  | modeReqArchive t => exact kept_execModeReqArchive hk t
  | modeReqStandby t => exact kept_execModeReqStandby hk t
  | modeReqBoot t => exact kept_execModeReqBoot hk t
  | modeReqReady t => exact kept_execModeReqReady hk t
  | modeReqPrint t => exact kept_execModeReqPrint hk t
  | modeReqDrain t => exact kept_execModeReqDrain hk t
  | modeReqSafe t => exact kept_execModeReqSafe hk t
  | modeReqService t => exact kept_execModeReqService hk t
  | intlkAssert x => exact kept_execIntlkAssert hk x
  | intlkNegate x => exact kept_execIntlkNegate hk x
  | modeChangeDone t => exact kept_execModeChangeDone hk t
  | safeSequenceComplete t => exact kept_execSafeSequenceComplete hk t
  | submit t w => exact kept_execSubmit hk t w
  | checkStart t => exact kept_execCheckStart hk t
  | checkEnd t => exact kept_execCheckEnd hk t
  | pnrReached t k => exact kept_execPnrReached hk t k
  | actionToleranceExpiry t k idx => exact kept_execActionToleranceExpiry hk t k idx
  | claimWindowEnd t k idx => exact kept_execClaimWindowEnd hk t k idx
  | ttReqWithdraw t handle causeByte => exact kept_execTtReqWithdraw hk t handle causeByte
  | ttReqSpoil t handle causeByte => exact kept_execTtReqSpoil hk t handle causeByte
  | ttResqTailWrite t w => exact kept_execTtResqTailWrite hk t w
  | spWriteAction t k idx => exact kept_execSpWriteAction hk t k idx
  | unknownBlockCommand t k idx => exact kept_execUnknownBlockCommand hk t k idx
  | illegalWord t c w => exact kept_execIllegalWord hk t c w
  | add t c rd ra rb => exact kept_execAdd hk t c rd ra rb
  | sub t c rd ra rb => exact kept_execSub hk t c rd ra rb
  | and t c rd ra rb => exact kept_execAnd hk t c rd ra rb
  | or t c rd ra rb => exact kept_execOr hk t c rd ra rb
  | xor t c rd ra rb => exact kept_execXor hk t c rd ra rb
  | sll t c rd ra rb => exact kept_execSll hk t c rd ra rb
  | srl t c rd ra rb => exact kept_execSrl hk t c rd ra rb
  | sra t c rd ra rb => exact kept_execSra hk t c rd ra rb
  | slt t c rd ra rb => exact kept_execSlt hk t c rd ra rb
  | sltu t c rd ra rb => exact kept_execSltu hk t c rd ra rb
  | min t c rd ra rb => exact kept_execMin hk t c rd ra rb
  | max t c rd ra rb => exact kept_execMax hk t c rd ra rb
  | minu t c rd ra rb => exact kept_execMinu hk t c rd ra rb
  | maxu t c rd ra rb => exact kept_execMaxu hk t c rd ra rb
  | addsat t c rd ra rb => exact kept_execAddsat hk t c rd ra rb
  | subsat t c rd ra rb => exact kept_execSubsat hk t c rd ra rb
  | addi t c rd ra imm => exact kept_execAddi hk t c rd ra imm
  | slti t c rd ra imm => exact kept_execSlti hk t c rd ra imm
  | sltiu t c rd ra imm => exact kept_execSltiu hk t c rd ra imm
  | andi t c rd ra imm => exact kept_execAndi hk t c rd ra imm
  | ori t c rd ra imm => exact kept_execOri hk t c rd ra imm
  | xori t c rd ra imm => exact kept_execXori hk t c rd ra imm
  | slli t c rd ra sh => exact kept_execSlli hk t c rd ra sh
  | srli t c rd ra sh => exact kept_execSrli hk t c rd ra sh
  | srai t c rd ra sh => exact kept_execSrai hk t c rd ra sh
  | lui t c rd imm => exact kept_execLui hk t c rd imm
  | mul t c rd ra rb => exact kept_execMul hk t c rd ra rb
  | mulq t c rd ra rb => exact kept_execMulq hk t c rd ra rb
  | mulw t c rd ra rb => exact kept_execMulw hk t c rd ra rb
  | mulwu t c rd ra rb => exact kept_execMulwu hk t c rd ra rb
  | quo t c rd ra rb => exact kept_execQuo hk t c rd ra rb
  | quou t c rd ra rb => exact kept_execQuou hk t c rd ra rb
  | mod t c rd ra rb => exact kept_execMod hk t c rd ra rb
  | modu t c rd ra rb => exact kept_execModu hk t c rd ra rb
  | ld t c sz rt ra off => exact kept_execLd hk t c sz rt ra off
  | lds t c sz rt ra off => exact kept_execLds hk t c sz rt ra off
  | st t c sz rt ra off => exact kept_execSt hk t c sz rt ra off
  | swapw t c sz rt ra off => exact kept_execSwapw hk t c sz rt ra off
  | beq t c ra rb off => exact kept_execBeq hk t c ra rb off
  | bne t c ra rb off => exact kept_execBne hk t c ra rb off
  | blt t c ra rb off => exact kept_execBlt hk t c ra rb off
  | bge t c ra rb off => exact kept_execBge hk t c ra rb off
  | bltu t c ra rb off => exact kept_execBltu hk t c ra rb off
  | bgeu t c ra rb off => exact kept_execBgeu hk t c ra rb off
  | jal t c rd imm => exact kept_execJal hk t c rd imm
  | jalr t c rd ra imm => exact kept_execJalr hk t c rd ra imm
  | krd t c rd k => exact kept_execKrd hk t c rd k
  | kwr t c k ra => exact kept_execKwr hk t c k ra
  | krdp t c rd k => exact kept_execKrdp hk t c rd k
  | kset t c k ra => exact kept_execKset hk t c k ra
  | kclr t c k ra => exact kept_execKclr hk t c k ra
  | waitt t c p => exact kept_execWaitt hk t c p
  | waittResume t c slot => exact kept_execWaittResume hk t c slot
  | arm t c p a b => exact kept_execArm hk t c p a b
  | spr t c rd a => exact kept_execSpr hk t c rd a
  | spw t c a b => exact kept_execSpw hk t c a b
  | yield t c => exact kept_execYield hk t c
  | yieldWake t g => exact kept_execYieldWake hk t g
  | pnadd t c rd ra rb => exact kept_execPnadd hk t c rd ra rb
  | pnsub t c rd ra rb => exact kept_execPnsub hk t c rd ra rb
  | pnmax t c rd ra rb => exact kept_execPnmax hk t c rd ra rb
  | pnmin t c rd ra rb => exact kept_execPnmin hk t c rd ra rb
  | pnsel t c rd ra rb => exact kept_execPnsel hk t c rd ra rb
  | pnlut t c rd ra rb => exact kept_execPnlut hk t c rd ra rb
  | pncnt t c rd ra => exact kept_execPncnt hk t c rd ra
  | pnnzc t c rd ra => exact kept_execPnnzc hk t c rd ra
  | pnge t c rd ra rb => exact kept_execPnge hk t c rd ra rb
  | pneq t c rd ra rb => exact kept_execPneq hk t c rd ra rb
  | pnspl t c rd ra => exact kept_execPnspl hk t c rd ra
  | syscall t c => exact kept_execSyscall hk t c
  | brk t c => exact kept_execBrk hk t c
  | rtt t c => exact kept_execRtt hk t c
  | fence t c => exact kept_execFence hk t c
  | cclean t c ra => exact kept_execCclean hk t c ra
  | cinv t c ra => exact kept_execCinv hk t c ra
  | cflush t c ra => exact kept_execCflush hk t c ra
  | icinv t c ra => exact kept_execIcinv hk t c ra
  | dcall t c => exact kept_execDcall hk t c
  | icall t c => exact kept_execIcall hk t c
  | interruptEntry t g => exact kept_execInterruptEntry hk t g
  | nmiEntry t g => exact kept_execNmiEntry hk t g
  | frameLoad t l slot => exact kept_execFrameLoad hk t l slot
  | spanStart t l slot => exact kept_execSpanStart hk t l slot
  | spanEnd t l slot => exact kept_execSpanEnd hk t l slot
  | release t l slot => exact kept_execRelease hk t l slot
  | deadlineDrop t l slot => exact kept_execDeadlineDrop hk t l slot
  | commitEntryDrain t l slot => exact kept_execCommitEntryDrain hk t l slot
  | armFire t p n => exact kept_execArmFire hk t p n
  | slotStart t l slot => exact kept_execSlotStart hk t l slot
  | slotStop t l slot => exact kept_execSlotStop hk t l slot
  | coreMapWrite t l w => exact kept_execCoreMapWrite hk t l w
  | substRequest t w => exact kept_execSubstRequest hk t w
  | substCancel t => exact kept_execSubstCancel hk t
  | substSafePoint t => exact kept_execSubstSafePoint hk t
  | substCopyDone t => exact kept_execSubstCopyDone hk t
  | stream t k idx => exact kept_execStream hk t k idx
  | bandTileStart t lane => exact kept_execBandTileStart hk t lane
  | tileComplete t lane => exact kept_execTileComplete hk t lane
  | tileDecodeError t lane => exact kept_execTileDecodeError hk t lane
  | jobDecode t lane => exact kept_execJobDecode hk t lane
  | jobResume t lane => exact kept_execJobResume hk t lane
  | laneSuspend t lane => exact kept_execLaneSuspend hk t lane
  | laneResume t lane w => exact kept_execLaneResume hk t lane w
  | laneSave t lane => exact kept_execLaneSave hk t lane
  | saveComplete t lane => exact kept_execSaveComplete hk t lane
  | laneAbort t lane => exact kept_execLaneAbort hk t lane
  | jobComplete t => exact kept_execJobComplete hk t
  | fxCqTailWrite t w => exact kept_execFxCqTailWrite hk t w
  | scnEnWrite t st en => exact kept_execScnEnWrite hk t st en
  | sosEdge t st x => exact kept_execSosEdge hk t st x
  | mosEdge t st x => exact kept_execMosEdge hk t st x
  | eosEdge t st x => exact kept_execEosEdge hk t st x
  | sensorWindowMiss t st sensor => exact kept_execSensorWindowMiss hk t st sensor
  | indexEdge t st => exact kept_execIndexEdge hk t st
  | scanSetHandover t st => exact kept_execScanSetHandover hk t st
  | facetGap t st => exact kept_execFacetGap hk t st
  | lockCheck t k idx => exact kept_execLockCheck hk t k idx
  | expose t k idx => exact kept_execExpose hk t k idx
  | scanFrameStart t st => exact kept_execScanFrameStart hk t st
  | columnDeadlineMiss t st col => exact kept_execColumnDeadlineMiss hk t st col
  | frameEnd t st => exact kept_execFrameEnd hk t st
  | gapPoint t st => exact kept_execGapPoint hk t st
  | retireRequest t st w => exact kept_execRetireRequest hk t st w
  | statusRecord t st bytes => exact kept_execStatusRecord hk t st bytes
  | frameStatusTimeout t st => exact kept_execFrameStatusTimeout hk t st
  | linkStatusTimeout t st => exact kept_execLinkStatusTimeout hk t st
  | xlkEnWrite t st en => exact kept_execXlkEnWrite hk t st en
  | trainTimeout t st => exact kept_execTrainTimeout hk t st
  | loadTimeout t st => exact kept_execLoadTimeout hk t st
  | xlkForceSubst t st lane => exact kept_execXlkForceSubst hk t st lane
  | laneSubstitute t st => exact kept_execLaneSubstitute hk t st
  | tblLoad t st => exact kept_execTblLoad hk t st
  | lightSend t st sensor => exact kept_execLightSend hk t st sensor
  | linkCheck t k idx => exact kept_execLinkCheck hk t k idx
  | pwmPeriod t c sdu sdv theta omega err => exact kept_execPwmPeriod hk t c sdu sdv theta omega err
  | focCmdStart t c => exact kept_execFocCmdStart hk t c
  | focCmdStop t c => exact kept_execFocCmdStop hk t c
  | focCmdCoast t c => exact kept_execFocCmdCoast hk t c
  | focCmdClear t c => exact kept_execFocCmdClear hk t c
  | focTtStart t k idx => exact kept_execFocTtStart hk t k idx
  | focTtStop t k idx => exact kept_execFocTtStop hk t k idx
  | focTtSpeed t k idx => exact kept_execFocTtSpeed hk t k idx
  | focTtTorque t k idx => exact kept_execFocTtTorque hk t k idx
  | focTtCoast t k idx => exact kept_execFocTtCoast hk t k idx
  | startAttemptTimeout t c => exact kept_execStartAttemptTimeout hk t c
  | retryWaitExpiry t c => exact kept_execRetryWaitExpiry hk t c
  | busSample t b sd => exact kept_execBusSample hk t b sd
  | chopTimerExpiry t b => exact kept_execChopTimerExpiry hk t b
  | busClear t b => exact kept_execBusClear hk t b
  | overcurrent t sd => exact kept_execOvercurrent hk t sd
  | sdLoss t sd => exact kept_execSdLoss hk t sd
  | engine t c => exact kept_execEngine hk t c
  | cmdPinEdge t c rising x => exact kept_execCmdPinEdge hk t c rising x
  | pinLost t c => exact kept_execPinLost hk t c
  | focEngSubstRequest t w => exact kept_execFocEngSubstRequest hk t w
  | focEngSubstCancel t => exact kept_execFocEngSubstCancel hk t
  | engineSubstApply t => exact kept_execEngineSubstApply hk t
  | motionPeriod t ms => exact kept_execMotionPeriod hk t ms
  | go t c => exact kept_execGo hk t c
  | stpStop t c => exact kept_execStpStop hk t c
  | halt t c => exact kept_execHalt hk t c
  | resume t c => exact kept_execResume hk t c
  | stpClear t c => exact kept_execStpClear hk t c
  | moveAbs t k idx => exact kept_execMoveAbs hk t k idx
  | moveRel t k idx => exact kept_execMoveRel hk t k idx
  | stpTtRun t k idx => exact kept_execStpTtRun hk t k idx
  | stpTtStop t k idx => exact kept_execStpTtStop hk t k idx
  | stpTtHalt t k idx => exact kept_execStpTtHalt hk t k idx
  | stpTtResume t k idx => exact kept_execStpTtResume hk t k idx
  | engage t k idx => exact kept_execEngage hk t k idx
  | encoderCount t e ab => exact kept_execEncoderCount hk t e ab
  | gearArm t c => exact kept_execGearArm hk t c
  | gearCancel t c => exact kept_execGearCancel hk t c
  | holdTimerExpiry t c => exact kept_execHoldTimerExpiry hk t c
  | stpPosHiWrite t c w => exact kept_execStpPosHiWrite hk t c w
  | stpTgtHiWrite t c w => exact kept_execStpTgtHiWrite hk t c w
  | stpEncCntHiWrite t e w => exact kept_execStpEncCntHiWrite hk t e w
  | adcResult t n code => exact kept_execAdcResult hk t n code
  | hvPeriod t => exact kept_execHvPeriod hk t
  | hvRampWrite t u w => exact kept_execHvRampWrite hk t u w
  | ramp t k idx => exact kept_execRamp hk t k idx
  | acUpdate t => exact kept_execAcUpdate hk t
  | safeStageTimeout t => exact kept_execSafeStageTimeout hk t
  | fuserControlPeriod t => exact kept_execFuserControlPeriod hk t
  | fusZcmdOn t z => exact kept_execFusZcmdOn hk t z
  | fusZcmdOff t z => exact kept_execFusZcmdOff hk t z
  | fusZcmdClear t z => exact kept_execFusZcmdClear hk t z
  | setpoint t k idx => exact kept_execSetpoint hk t k idx
  | fusTtOn t k idx => exact kept_execFusTtOn hk t k idx
  | fusTtOff t k idx => exact kept_execFusTtOff hk t k idx
  | zcEdge t ls => exact kept_execZcEdge hk t ls
  | zcLoss t => exact kept_execZcLoss hk t
  | otSample t z code => exact kept_execOtSample hk t z code
  | senseEdge t n x ls => exact kept_execSenseEdge hk t n x ls
  | window t k idx => exact kept_execWindow hk t k idx
  | windowLateExpiry t n => exact kept_execWindowLateExpiry hk t n
  | set t k idx => exact kept_execSet hk t k idx
  | pulse t k idx => exact kept_execPulse hk t k idx
  | pulseEnd t n => exact kept_execPulseEnd hk t n
  | snsOutWrite t high w => exact kept_execSnsOutWrite hk t high w
  | dmaRingHeadWrite t c w => exact kept_execDmaRingHeadWrite hk t c w
  | descriptorFetch t => exact kept_execDescriptorFetch hk t
  | copy t c n hostErr => exact kept_execCopy hk t c n hostErr
  | dmaFill t c n hostErr => exact kept_execDmaFill hk t c n hostErr
  | compare t c n hostErr => exact kept_execCompare hk t c n hostErr
  | descriptorComplete t c => exact kept_execDescriptorComplete hk t c
  | dmaCqTailWrite t c w => exact kept_execDmaCqTailWrite hk t c w
  | dmaEnWrite t c en => exact kept_execDmaEnWrite hk t c en
  | dmaAbort t c => exact kept_execDmaAbort hk t c
  | pltChCfgWrite t ini c w => exact kept_execPltChCfgWrite hk t ini c w
  | pltTx t ini c w => exact kept_execPltTx hk t ini c w
  | pltPop t ini c n => exact kept_execPltPop hk t ini c n
  | pltRxRead t ini c idx => exact kept_execPltRxRead hk t ini c idx
  | pltWordArrive t c toB => exact kept_execPltWordArrive hk t c toB
  | sbxEventTake t => exact kept_execSbxEventTake hk t
  | blockResetDone t src => exact kept_execBlockResetDone hk t src
  | shadowEnd t src => exact kept_execShadowEnd hk t src
  | sbxBrstReq t w => exact kept_execSbxBrstReq hk t w
  | quietExit t src => exact kept_execQuietExit hk t src
  | sbxActiveWrite t hi w => exact kept_execSbxActiveWrite hk t hi w
  | errNHoldExpiry t => exact kept_execErrNHoldExpiry hk t
  | sbxHistW0Read t ini idx => exact kept_execSbxHistW0Read hk t ini idx
  | faultEmitHoldExpiry t src => exact kept_execFaultEmitHoldExpiry hk t src
  | remoteFaultTake t => exact kept_execRemoteFaultTake hk t
  | sbxOriginWrite t d w => exact kept_execSbxOriginWrite hk t d w
  | domReqOn t d => exact kept_execDomReqOn hk t d
  | domReqOff t d => exact kept_execDomReqOff hk t d
  | domainStepReady t d => exact kept_execDomainStepReady hk t d
  | domFail t d => exact kept_execDomFail hk t d
  | archiveWaitEnd t => exact kept_execArchiveWaitEnd hk t
  | archiveWaitTimeout t => exact kept_execArchiveWaitTimeout hk t
  | wakeN x => exact kept_execWakeN hk x
  | wakeTimer t => exact kept_execWakeTimer hk t
  | vreqStart t w => exact kept_execVreqStart hk t w
  | vreqPoll t answer read => exact kept_execVreqPoll hk t answer read
  | vreqTimeout t => exact kept_execVreqTimeout hk t
  | standbyReset t => exact kept_execStandbyReset hk t
  | seqStart x => exact kept_execSeqStart hk x
  | pgoodHigh x idx => exact kept_execPgoodHigh hk x idx
  | pgLost x idx => exact kept_execPgLost hk x idx
  | pgTimeout t => exact kept_execPgTimeout hk t
  | railGapExpiry t => exact kept_execRailGapExpiry hk t
  | porHoldExpiry t => exact kept_execPorHoldExpiry hk t
  | vmonSample t idx code => exact kept_execVmonSample hk t idx code
  | vinLost x => exact kept_execVinLost hk x
  | pwrClrEdge t => exact kept_execPwrClrEdge hk t
  | thmSample t rs => exact kept_execThmSample hk t rs
  | riseUpdate t => exact kept_execRiseUpdate hk t
  | throttleGraceExpiry t => exact kept_execThrottleGraceExpiry hk t
  | throttleRelease t => exact kept_execThrottleRelease hk t
  | hostWrite t bar2 o data => exact kept_execHostWrite hk t bar2 o data
  | hostRead t bar2 o n => exact kept_execHostRead hk t bar2 o n
  | perstN t low => exact kept_execPerstN hk t low
  | linkDown t => exact kept_execLinkDown hk t
  | flr t => exact kept_execFlr hk t
  | msixVectorSend t v => exact kept_execMsixVectorSend hk t v
  | hstMsixRearm t v => exact kept_execHstMsixRearm hk t v
  | hstDbSet t hi w => exact kept_execHstDbSet hk t hi w
  | lineEnWrite t en => exact kept_execLineEnWrite hk t en
  | portUp t port => exact kept_execPortUp hk t port
  | portTrainTimeout t port => exact kept_execPortTrainTimeout hk t port
  | portBreak t port lost => exact kept_execPortBreak hk t port lost
  | portRetrain t port => exact kept_execPortRetrain hk t port
  | sync t port origin hops p0 p1 rx => exact kept_execSync hk t port origin hops p0 p1 rx
  | syncSend t => exact kept_execSyncSend hk t
  | syncTimeout t => exact kept_execSyncTimeout hk t
  | delayReqSend t port => exact kept_execDelayReqSend hk t port
  | delayReq t port p0 rx => exact kept_execDelayReq hk t port p0 rx
  | delayResp t port p0 p1 rx => exact kept_execDelayResp hk t port p0 p1 rx
  | join t port origin hops p0 p1 => exact kept_execJoin hk t port origin hops p0 p1
  | faultFrame t port origin hops seq p0 => exact kept_execFaultFrame hk t port origin hops seq p0
  | lineSpwFrame t port origin dest hops seq p0 p1 => exact kept_execLineSpwFrame hk t port origin dest hops seq p0 p1
  | publish t port origin hops seq p0 p1 => exact kept_execPublish hk t port origin hops seq p0 p1
  | publishSend t => exact kept_execPublishSend hk t
  | pltFrame t port origin dest hops seq p0 => exact kept_execPltFrame hk t port origin dest hops seq p0
  | pltFrameSend t ch => exact kept_execPltFrameSend hk t ch
  | credit t port origin dest hops seq p0 => exact kept_execCredit hk t port origin dest hops seq p0
  | lineMasterSet t on => exact kept_execLineMasterSet hk t on
  | lineSubWrite t j w => exact kept_execLineSubWrite hk t j w
  | stageAdvance t w => exact kept_execStageAdvance hk t w
  | secRbAdv t n => exact kept_execSecRbAdv hk t n
  | release1 t => exact kept_execRelease1 hk t
  | keygen t => exact kept_execKeygen hk t
  | fuseOem t => exact kept_execFuseOem hk t
  | cert t => exact kept_execCert hk t
  | extend t => exact kept_execExtend hk t
  | verify t => exact kept_execVerify hk t
  | sign t => exact kept_execSign hk t
  | meter t => exact kept_execMeter hk t
  | lcChange t => exact kept_execLcChange hk t
  | secCommandComplete t => exact kept_execSecCommandComplete hk t
  | dramWipeDone t => exact kept_execDramWipeDone hk t
  | ledgerUnitWrite t first second => exact kept_execLedgerUnitWrite hk t first second
  | ldgApp t w => exact kept_execLdgApp hk t w
  | sramScrubWord t a found last => exact kept_execSramScrubWord hk t a found last
  | dramScrubBurst t a found => exact kept_execDramScrubBurst hk t a found
  | passLate t => exact kept_execPassLate hk t
  | wearFold t => exact kept_execWearFold hk t
  | telemetrySnapshot t => exact kept_execTelemetrySnapshot hk t
  | encoderIndexEdge x e => exact kept_execEncoderIndexEdge hk x e
  | pcieLinkUp t speed width bme msix mask d3 => exact kept_execPcieLinkUp hk t speed width bme msix mask d3
  | lineFrameCrcFail t port => exact kept_execLineFrameCrcFail hk t port
  | ddrTrainingEnd t ok => exact kept_execDdrTrainingEnd hk t ok
  | vstbyLoss t => exact kept_execVstbyLoss hk t

end Sys2Proof.Machine
end

