-- ==== Sys2Proof/Laws/Memory.lean ====
section
/-! SUPPORT. Memory read after a write: the byte written, the bytes beside it, and a number stored least significant byte
first (R9). -/

namespace Sys2Proof.Machine

@[simp] theorem readByte_writeByte_self (m : List Host.Cell) (a : Nat) (b : Byte) : readByte (writeByte m a b) a = b :=
  Tab.get_put_self _ _ _ _

theorem readByte_writeByte_ne (m : List Host.Cell) {a x : Nat} (h : x ≠ a) (b : Byte) :
    readByte (writeByte m a b) x = readByte m x := Tab.get_put_ne _ h _ _

/-- A byte outside those written. -/
theorem readByte_writeBytes_out (m : List Host.Cell) (a : Nat) (bs : List Byte) {x : Nat}
    (h : x < a ∨ a + bs.length ≤ x) : readByte (writeBytes m a bs) x = readByte m x := by
  induction bs generalizing m a with
  | nil => rfl
  | cons b bs ih =>
    simp only [List.length_cons] at h
    rw [writeBytes, ih _ _ (by omega), readByte_writeByte_ne _ (by omega)]

/-- A byte of those written. -/
theorem readByte_writeBytes_in (m : List Host.Cell) (a : Nat) (bs : List Byte) {j : Nat} (h : j < bs.length) :
    readByte (writeBytes m a bs) (a + j) = bs[j] := by
  induction bs generalizing m a j with
  | nil => simp at h
  | cons b bs ih =>
    rw [writeBytes]
    cases j with
    | zero => rw [readByte_writeBytes_out _ _ _ (by omega)]; simp
    | succ j =>
      have := ih (writeByte m a b) (a + 1) (j := j) (by simpa using h)
      rw [show a + (j + 1) = a + 1 + j by omega, this]
      simp

@[simp] theorem bytesLE_length (n v : Nat) : (bytesLE n v).length = n := by
  induction n generalizing v with
  | zero => rfl
  | succ n ih => simp [bytesLE, ih]

/-- Byte j of a number. -/
theorem bytesLE_get (n v : Nat) {j : Nat} (h : j < (bytesLE n v).length) :
    ((bytesLE n v)[j]).toNat = v / 256 ^ j % 256 := by
  induction n generalizing v j with
  | zero => simp at h
  | succ n ih =>
    cases j with
    | zero => simp [bytesLE]
    | succ j =>
      have := ih (v / 256) (j := j) (by simpa [bytesLE] using h)
      simp only [bytesLE, List.getElem_cons_succ, this, Nat.div_div_eq_div_mul, Nat.pow_succ, Nat.mul_comm 256]

/-- The bytes that a store of a number leaves, inside it and outside. -/
theorem setMem_byte (s : State) (a n v : Nat) {j : Nat} (h : j < n) :
    (readByte (s.setMem a n v).mem (a + j)).toNat = v / 256 ^ j % 256 := by
  unfold State.setMem State.storeBytes
  rw [readByte_writeBytes_in _ _ _ (by simpa using h), bytesLE_get]

theorem setMem_frame (s : State) (a n v : Nat) {x : Nat} (h : x < a ∨ a + n ≤ x) :
    readByte (s.setMem a n v).mem x = readByte s.mem x :=
  readByte_writeBytes_out _ _ _ (by simpa using h)

end Sys2Proof.Machine
end

