-- ==== Sys2Proof/Laws/Registers.lean ====
section
/-! SUPPORT. Reading a register field after a write: one law for the same field, one for another field of the register,
one for another register. -/

namespace Sys2Proof.Machine

/-! ### Bit fields -/

theorem bits_lt (v : Word) (hi lo : Nat) : bits v hi lo < 2 ^ (hi + 1 - lo) := Nat.mod_lt _ (Nat.two_pow_pos _)

/-- The parts of a word around a field. -/
theorem word_split (v : Word) {hi lo : Nat} (h : lo ≤ hi) :
    v.toNat = v.toNat / 2 ^ (hi + 1) * 2 ^ (hi + 1) + bits v hi lo * 2 ^ lo + v.toNat % 2 ^ lo := by
  have h1 := Nat.div_add_mod v.toNat (2 ^ lo)
  have h2 := Nat.div_add_mod (v.toNat / 2 ^ lo) (2 ^ (hi + 1 - lo))
  have h3 : 2 ^ lo * 2 ^ (hi + 1 - lo) = 2 ^ (hi + 1) := by rw [← Nat.pow_add]; congr 1; omega
  rw [Nat.div_div_eq_div_mul, h3] at h2
  unfold bits
  calc v.toNat = 2 ^ lo * (v.toNat / 2 ^ lo) + v.toNat % 2 ^ lo := h1.symm
    _ = 2 ^ lo * (2 ^ (hi + 1 - lo) * (v.toNat / 2 ^ (hi + 1)) + v.toNat / 2 ^ lo % 2 ^ (hi + 1 - lo)) +
          v.toNat % 2 ^ lo := by rw [h2]
    _ = _ := by rw [Nat.mul_add, ← Nat.mul_assoc, h3]; ring

theorem putBits_toNat (v : Word) {hi lo : Nat} (h : lo ≤ hi) (h' : hi < 32) (n : Nat) :
    (putBits v hi lo n).toNat =
      v.toNat / 2 ^ (hi + 1) * 2 ^ (hi + 1) + n % 2 ^ (hi + 1 - lo) * 2 ^ lo + v.toNat % 2 ^ lo := by
  unfold putBits
  rw [BitVec.toNat_ofNat]
  have hs := word_split v h
  have hv := v.isLt
  have hn : n % 2 ^ (hi + 1 - lo) < 2 ^ (hi + 1 - lo) := Nat.mod_lt _ (Nat.two_pow_pos _)
  have hlo : v.toNat % 2 ^ lo < 2 ^ lo := Nat.mod_lt _ (Nat.two_pow_pos _)
  have h3 : 2 ^ (hi + 1 - lo) * 2 ^ lo = 2 ^ (hi + 1) := by rw [← Nat.pow_add]; congr 1; omega
  have h4 : n % 2 ^ (hi + 1 - lo) * 2 ^ lo + 2 ^ lo ≤ 2 ^ (hi + 1) := by
    rw [← h3, ← Nat.succ_mul]
    exact Nat.mul_le_mul_right _ hn
  have h5 : 2 ^ (hi + 1) * 2 ^ (31 - hi) = 2 ^ 32 := by rw [← Nat.pow_add]; congr 1; omega
  have h6 : v.toNat / 2 ^ (hi + 1) < 2 ^ (31 - hi) := by
    rw [Nat.div_lt_iff_lt_mul (Nat.two_pow_pos _), Nat.mul_comm, h5]; exact hv
  have h7 : v.toNat / 2 ^ (hi + 1) * 2 ^ (hi + 1) + 2 ^ (hi + 1) ≤ 2 ^ 32 := by
    rw [← Nat.succ_mul, ← h5, Nat.mul_comm (2 ^ (hi + 1))]
    exact Nat.mul_le_mul_right _ h6
  rw [Nat.mod_eq_of_lt] <;> omega

/-- Reading the field just put. -/
theorem bits_putBits_self (v : Word) {hi lo : Nat} (h : lo ≤ hi) (h' : hi < 32) (n : Nat) :
    bits (putBits v hi lo n) hi lo = n % 2 ^ (hi + 1 - lo) := by
  unfold bits
  rw [putBits_toNat v h h']
  have hlo : v.toNat % 2 ^ lo < 2 ^ lo := Nat.mod_lt _ (Nat.two_pow_pos _)
  have h3 : 2 ^ (hi + 1) = 2 ^ (hi + 1 - lo) * 2 ^ lo := by rw [← Nat.pow_add]; congr 1; omega
  rw [h3, ← Nat.mul_assoc, ← Nat.add_mul, Nat.add_comm _ (v.toNat % 2 ^ lo), Nat.add_mul_div_right _ _ (Nat.two_pow_pos _),
    Nat.div_eq_of_lt hlo, Nat.zero_add, Nat.add_comm, Nat.mul_comm, Nat.add_mul_mod_self_left, Nat.mod_mod]

/-- Reading a field above or below the one put. -/
theorem bits_putBits_ne (v : Word) {hi lo hi' lo' : Nat} (h : lo ≤ hi) (h' : hi < 32) (hd : hi' < lo ∨ hi < lo') (n : Nat) :
    bits (putBits v hi lo n) hi' lo' = bits v hi' lo' := by
  have key : ∀ i, i < lo ∨ hi < i → (putBits v hi lo n).toNat.testBit i = v.toNat.testBit i := by
    intro i hi'
    rw [putBits_toNat v h h']
    have hlo : v.toNat % 2 ^ lo < 2 ^ lo := Nat.mod_lt _ (Nat.two_pow_pos _)
    have h3 : 2 ^ (hi + 1) = 2 ^ (hi + 1 - lo) * 2 ^ lo := by rw [← Nat.pow_add]; congr 1; omega
    have e : v.toNat / 2 ^ (hi + 1) * 2 ^ (hi + 1) + n % 2 ^ (hi + 1 - lo) * 2 ^ lo + v.toNat % 2 ^ lo =
        2 ^ lo * (v.toNat / 2 ^ (hi + 1) * 2 ^ (hi + 1 - lo) + n % 2 ^ (hi + 1 - lo)) + v.toNat % 2 ^ lo := by
      rw [h3]; ring
    rcases hi' with hi' | hi'
    · rw [e, Nat.testBit_two_pow_mul_add _ hlo, if_pos hi', Nat.testBit_mod_two_pow]
      simp [hi']
    · have hn : n % 2 ^ (hi + 1 - lo) < 2 ^ (hi + 1 - lo) := Nat.mod_lt _ (Nat.two_pow_pos _)
      have h4 : n % 2 ^ (hi + 1 - lo) * 2 ^ lo + v.toNat % 2 ^ lo < 2 ^ (hi + 1) := by
        have : n % 2 ^ (hi + 1 - lo) * 2 ^ lo + 2 ^ lo ≤ 2 ^ (hi + 1) := by
          rw [h3, ← Nat.succ_mul]; exact Nat.mul_le_mul_right _ hn
        omega
      rw [Nat.add_assoc, Nat.mul_comm, Nat.testBit_two_pow_mul_add _ h4, if_neg (by omega), Nat.testBit_div_two_pow]
      congr 1; omega
  apply Nat.eq_of_testBit_eq
  intro i
  unfold bits
  rw [Nat.testBit_mod_two_pow, Nat.testBit_mod_two_pow, Nat.testBit_div_two_pow, Nat.testBit_div_two_pow]
  by_cases hw : i < hi' + 1 - lo'
  · rw [key (i + lo') (by omega)]
  · simp [hw]

/-! ### Registers -/

/-- A register's word is the table's entry at its address, with the reset value as the default. -/
theorem reg_eq_get (s : State) (a : Nat) : s.reg a = Tab.get (resetReg a) s.regs a := by
  unfold State.reg
  generalize s.regs = t
  induction t with
  | nil => rfl
  | cons q t ih =>
    obtain ⟨k, v⟩ := q
    by_cases h : k = a
    · subst h; simp [Tab.get]
    · have hb : (k == a) = false := by simp [h]
      simp only [List.find?_cons, hb, Tab.get, if_neg h]
      exact ih

/-- Reading the register just written. -/
@[simp] theorem reg_setReg_self (s : State) (a : Nat) (v : Word) : (s.setReg a v).reg a = v := by
  rw [reg_eq_get]
  unfold State.setReg
  dsimp only
  split
  · rename_i h
    rw [Tab.get_erase_self, h]
  · exact Tab.get_insert_self _ _ _ _

/-- Reading another register than the one written. -/
theorem reg_setReg_ne (s : State) {a b : Nat} (h : b ≠ a) (v : Word) : (s.setReg a v).reg b = s.reg b := by
  rw [reg_eq_get, reg_eq_get]
  unfold State.setReg
  dsimp only
  split
  · exact Tab.get_erase_ne _ h _
  · exact Tab.get_insert_ne _ h _ _

/-- Reading the field just written. -/
theorem f_setF_self (s : State) (a : Nat) {hi lo : Nat} (h : lo ≤ hi) (h' : hi < 32) (n : Nat) :
    (s.setF a hi lo n).f a hi lo = n % 2 ^ (hi + 1 - lo) := by
  unfold State.f State.setF
  rw [reg_setReg_self, bits_putBits_self _ h h']

/-- Reading another field of the register. -/
theorem f_setF_field (s : State) (a : Nat) {hi lo hi' lo' : Nat} (h : lo ≤ hi) (h' : hi < 32) (hd : hi' < lo ∨ hi < lo')
    (n : Nat) : (s.setF a hi lo n).f a hi' lo' = s.f a hi' lo' := by
  unfold State.f State.setF
  rw [reg_setReg_self, bits_putBits_ne _ h h' hd]

/-- Reading a field of another register. -/
theorem f_setF_ne (s : State) {a b : Nat} (h : b ≠ a) (hi lo hi' lo' n : Nat) :
    (s.setF a hi lo n).f b hi' lo' = s.f b hi' lo' := by
  unfold State.f State.setF
  rw [reg_setReg_ne _ h]

/-- Noting a bit for R14 leaves every register as it is. -/
theorem reg_noteSet (s : State) (a i r : Nat) : (s.noteSet a i).reg r = s.reg r := by
  unfold State.noteSet
  split <;> (try split) <;> rfl

/-- Setting or clearing a bit writes its field. -/
theorem reg_setB (s : State) (a i : Nat) (b : Bool) (r : Nat) :
    (s.setB a i b).reg r = (s.setF a i i (if b then 1 else 0)).reg r := by
  unfold State.setB
  cases b
  · rfl
  · exact reg_noteSet _ _ _ _

/-- Reading the bit just written. -/
theorem fb_setB_self (s : State) (a : Nat) {i : Nat} (h : i < 32) (b : Bool) : (s.setB a i b).fb a i = b := by
  have := f_setF_self s a (le_refl i) h (if b then 1 else 0)
  unfold State.fb
  unfold State.f at this
  rw [reg_setB, this]
  have e : i + 1 - i = 1 := by omega
  rw [e]
  cases b <;> rfl

end Sys2Proof.Machine
end

