-- ==== Sys2Proof/Laws/Sinel.lean ====
section
/-! SUPPORT. Issuing an instruction (R117, R119, R135): what a step makes of each outcome of an instruction's body, and
general registers read after a write. -/

namespace Sys2Proof.Machine

set_option linter.all false

/-! ### Issue -/

/-- An instruction that can issue does what its body says, by the rules of its profile. -/
theorem issueBy_eq {s s' : State} {t : Tick} {c : Fin 26} {w : Who} (lat : Who → State → Nat) (body : Who → State → Eff)
    (h : CanIssue (s.atCore t c) c (lat w s') w s') :
    s.issueBy t c lat body =
      match w with
      | .t key p i => s'.finishT key p (lat w s') i (body w s')
      | .g n => match body w s' with
        | .next x => x.modGcore n fun c => { c with pc := (c.pc + 4) % 2 ^ 32 }
        | .jump pc x => x.modGcore n fun c => { c with pc := pc % 2 ^ 32 }
        | .fly _ _ _ _ x => x.modGcore n fun c => { c with pc := (c.pc + 4) % 2 ^ 32 }
        | .exc code addr x => x.trapG n code addr
        | .wait till x => x.modGcore n fun c => { c with waitUntil := some till }
        | .yield x => x.modGcore n fun c => { c with pc := (c.pc + 4) % 2 ^ 32, yielding := true }
        | .halt x => x.modGcore n fun c => { c with running := false } := by
  cases w with
  | t key p i =>
    obtain ⟨rfl, hp, rfl, ⟨l, hl, hc⟩, hr, hf, hw⟩ := h
    simp only [State.atCore, if_pos hp] at hl hc hr hf hw ⊢
    unfold State.issueBy
    rw [if_pos hp]
    unfold State.issueT
    rw [hl]
    simp only []
    rw [hc]
    simp only [hr, Bool.not_true, Bool.false_eq_true, if_false]
    split
    · rename_i heq; rw [heq] at hf; simp at hf
    · rfl
  | g n =>
    obtain ⟨hn, hr, hy, hw, hf⟩ := h
    have hc : ¬ c.val < 24 := by omega
    have hn' : c.val - 24 = n := by omega
    unfold State.atCore at hr hy hw hf
    rw [if_neg hc] at hr hy hw hf
    unfold State.issueBy
    rw [if_neg hc, hn']
    unfold State.issueG
    simp only [hr, hy, hw, hf, Bool.not_true, Bool.or_false, Option.isSome_none, Bool.false_eq_true, if_false]
    try rfl

theorem budget_of {s s' : State} {c : Fin 26} {lat key p : Nat} {i : Instance} (h : CanIssue s c lat (.t key p i) s') :
    i.used + lat ≤ s'.f (atKey Reg.SQ_SLOT_WCET key) 31 0 := by
  obtain ⟨-, -, rfl, -, -, -, hw⟩ := h
  exact hw

theorem excCycles_le (code : Nat) {lat : Nat} (h : 0 < lat) : excCycles code lat ≤ lat := by
  unfold excCycles; split <;> omega

/-- A body that completes: the next instruction follows. -/
theorem issueBy_next {s s' x : State} {t : Tick} {c : Fin 26} {w : Who} {lat : Who → State → Nat}
    {body : Who → State → Eff} (h : CanIssue (s.atCore t c) c (lat w s') w s') (hb : body w s' = .next x) :
    s.issueBy t c lat body = x.goOn w (lat w s') := by
  rw [issueBy_eq lat body h, hb]
  cases w with
  | t key p i =>
    have hw := budget_of h
    simp only [State.finishT, State.goOn]
    rw [if_neg (by omega)]
  | g n => rfl

/-- A body that jumps. -/
theorem issueBy_jump {s s' x : State} {t : Tick} {c : Fin 26} {w : Who} {lat : Who → State → Nat} {pc : Nat}
    {body : Who → State → Eff} (h : CanIssue (s.atCore t c) c (lat w s') w s') (hb : body w s' = .jump pc x) :
    s.issueBy t c lat body = x.goTo w (lat w s') pc := by
  rw [issueBy_eq lat body h, hb]
  cases w with
  | t key p i =>
    have hw := budget_of h
    simp only [State.finishT, State.goTo]
    rw [if_neg (by omega)]
  | g n => rfl

/-- A body that raises an exception. -/
theorem issueBy_exc {s s' x : State} {t : Tick} {c : Fin 26} {w : Who} {lat : Who → State → Nat} {code addr : Nat}
    {body : Who → State → Eff} (h : CanIssue (s.atCore t c) c (lat w s') w s') (hl : 0 < lat w s')
    (hb : body w s' = .exc code addr x) :
    s.issueBy t c lat body = x.except w (lat w s') code addr := by
  rw [issueBy_eq lat body h, hb]
  cases w with
  | t key p i =>
    have hw := budget_of h
    have he := excCycles_le code hl
    simp only [State.finishT, State.except]
    rw [if_neg (by omega)]
  | g n => rfl

/-- A body whose load reads its target later. -/
theorem issueBy_fly {s s' x : State} {t : Tick} {c : Fin 26} {w : Who} {lat : Who → State → Nat} {a sz : Nat}
    {rt : Fin 32} {signed : Bool} {body : Who → State → Eff} (h : CanIssue (s.atCore t c) c (lat w s') w s')
    (hb : body w s' = .fly a rt sz signed x) : s.issueBy t c lat body = x.flies w (lat w s') a rt sz signed := by
  rw [issueBy_eq lat body h, hb]
  cases w with
  | t key p i =>
    have hw := budget_of h
    simp only [State.finishT, State.flies]
    rw [if_neg (by omega)]
  | g n => rfl

theorem issue_next {s s' x : State} {t : Tick} {c : Fin 26} {w : Who} {lat : Nat} {body : Who → State → Eff}
    (h : CanIssue (s.atCore t c) c lat w s') (hb : body w s' = .next x) : s.issue t c lat body = x.goOn w lat :=
  issueBy_next (lat := fun _ _ => lat) h hb

theorem issue_jump {s s' x : State} {t : Tick} {c : Fin 26} {w : Who} {lat pc : Nat} {body : Who → State → Eff}
    (h : CanIssue (s.atCore t c) c lat w s') (hb : body w s' = .jump pc x) : s.issue t c lat body = x.goTo w lat pc :=
  issueBy_jump (lat := fun _ _ => lat) h hb

theorem issue_exc {s s' x : State} {t : Tick} {c : Fin 26} {w : Who} {lat code addr : Nat} {body : Who → State → Eff}
    (h : CanIssue (s.atCore t c) c lat w s') (hl : 0 < lat) (hb : body w s' = .exc code addr x) :
    s.issue t c lat body = x.except w lat code addr :=
  issueBy_exc (lat := fun _ _ => lat) h hl hb

/-- An instruction that writes rd. -/
theorem writeRd_eq {s s' : State} {t : Tick} {c : Fin 26} {w : Who} {lat : Nat} (h : CanIssue (s.atCore t c) c lat w s')
    (rd : Fin 32) (v : State → Who → Word) : s.writeRd t c lat rd v = .next ((s'.setGr w rd (v s' w)).goOn w lat) := by
  unfold State.writeRd
  rw [issue_next h rfl]

/-! ### Slots, cores and general registers -/

@[simp] theorem slot_setSlot_self (s : State) (k : Nat) (x : Slot) : (s.setSlot k x).slot k = x :=
  Tab.get_put_self _ _ _ _

theorem slot_setSlot_ne (s : State) {k j : Nat} (h : j ≠ k) (x : Slot) : (s.setSlot k x).slot j = s.slot j :=
  Tab.get_put_ne _ h _ _

@[simp] theorem slot_modSlot_self (s : State) (k : Nat) (g : Slot → Slot) : (s.modSlot k g).slot k = g (s.slot k) :=
  slot_setSlot_self _ _ _

@[simp] theorem gcore_setGcore_self (s : State) (n : Nat) (x : GCore) : (s.setGcore n x).gcore n = x :=
  Tab.get_put_self _ _ _ _

theorem gcore_setGcore_ne (s : State) {n m : Nat} (h : m ≠ n) (x : GCore) : (s.setGcore n x).gcore m = s.gcore m :=
  Tab.get_put_ne _ h _ _

@[simp] theorem gcore_modGcore_self (s : State) (n : Nat) (g : GCore → GCore) : (s.modGcore n g).gcore n = g (s.gcore n) :=
  gcore_setGcore_self _ _ _

theorem gcore_modGcore_ne (s : State) {n m : Nat} (h : m ≠ n) (g : GCore → GCore) :
    (s.modGcore n g).gcore m = s.gcore m := gcore_setGcore_ne _ h _

end Sys2Proof.Machine
end

