-- ==== Sys2Proof/Laws/State.lean ====
section
/-! SUPPORT. What each primitive update of State leaves as it is: one lemma per update and field, so that no proof unfolds
a record update. -/

namespace Sys2Proof.Machine

/-! ### setReg -/

@[simp] theorem setReg_pending (s : State) (a : Nat) (v : Word) : (s.setReg a v).pending = s.pending := rfl
@[simp] theorem setReg_fresh (s : State) (a : Nat) (v : Word) : (s.setReg a v).fresh = s.fresh := rfl
@[simp] theorem setReg_clk (s : State) (a : Nat) (v : Word) : (s.setReg a v).clk = s.clk := rfl
@[simp] theorem setReg_held (s : State) (a : Nat) (v : Word) : (s.setReg a v).held = s.held := rfl
@[simp] theorem setReg_hwSet (s : State) (a : Nat) (v : Word) : (s.setReg a v).hwSet = s.hwSet := rfl
@[simp] theorem setReg_mem (s : State) (a : Nat) (v : Word) : (s.setReg a v).mem = s.mem := rfl
@[simp] theorem setReg_poison (s : State) (a : Nat) (v : Word) : (s.setReg a v).poison = s.poison := rfl
@[simp] theorem setReg_acc (s : State) (a : Nat) (v : Word) : (s.setReg a v).acc = s.acc := rfl
@[simp] theorem setReg_points (s : State) (a : Nat) (v : Word) : (s.setReg a v).points = s.points := rfl
@[simp] theorem setReg_pointTimes (s : State) (a : Nat) (v : Word) : (s.setReg a v).pointTimes = s.pointTimes := rfl
@[simp] theorem setReg_dramSize (s : State) (a : Nat) (v : Word) : (s.setReg a v).dramSize = s.dramSize := rfl
@[simp] theorem setReg_sbx (s : State) (a : Nat) (v : Word) : (s.setReg a v).sbx = s.sbx := rfl
@[simp] theorem setReg_tt (s : State) (a : Nat) (v : Word) : (s.setReg a v).tt = s.tt := rfl
@[simp] theorem setReg_jct (s : State) (a : Nat) (v : Word) : (s.setReg a v).jct = s.jct := rfl
@[simp] theorem setReg_sq (s : State) (a : Nat) (v : Word) : (s.setReg a v).sq = s.sq := rfl
@[simp] theorem setReg_gcores (s : State) (a : Nat) (v : Word) : (s.setReg a v).gcores = s.gcores := rfl
@[simp] theorem setReg_line (s : State) (a : Nat) (v : Word) : (s.setReg a v).line = s.line := rfl
@[simp] theorem setReg_hst (s : State) (a : Nat) (v : Word) : (s.setReg a v).hst = s.hst := rfl
@[simp] theorem setReg_ldg (s : State) (a : Nat) (v : Word) : (s.setReg a v).ldg = s.ldg := rfl
@[simp] theorem setReg_sec (s : State) (a : Nat) (v : Word) : (s.setReg a v).sec = s.sec := rfl
@[simp] theorem setReg_bkg (s : State) (a : Nat) (v : Word) : (s.setReg a v).bkg = s.bkg := rfl
@[simp] theorem setReg_fx (s : State) (a : Nat) (v : Word) : (s.setReg a v).fx = s.fx := rfl
@[simp] theorem setReg_scn (s : State) (a : Nat) (v : Word) : (s.setReg a v).scn = s.scn := rfl
@[simp] theorem setReg_exp (s : State) (a : Nat) (v : Word) : (s.setReg a v).exp = s.exp := rfl
@[simp] theorem setReg_foc (s : State) (a : Nat) (v : Word) : (s.setReg a v).foc = s.foc := rfl
@[simp] theorem setReg_stp (s : State) (a : Nat) (v : Word) : (s.setReg a v).stp = s.stp := rfl
@[simp] theorem setReg_hv (s : State) (a : Nat) (v : Word) : (s.setReg a v).hv = s.hv := rfl
@[simp] theorem setReg_fus (s : State) (a : Nat) (v : Word) : (s.setReg a v).fus = s.fus := rfl
@[simp] theorem setReg_sns (s : State) (a : Nat) (v : Word) : (s.setReg a v).sns = s.sns := rfl
@[simp] theorem setReg_dma (s : State) (a : Nat) (v : Word) : (s.setReg a v).dma = s.dma := rfl
@[simp] theorem setReg_plt (s : State) (a : Nat) (v : Word) : (s.setReg a v).plt = s.plt := rfl
@[simp] theorem setReg_pwr (s : State) (a : Nat) (v : Word) : (s.setReg a v).pwr = s.pwr := rfl
@[simp] theorem setReg_thm (s : State) (a : Nat) (v : Word) : (s.setReg a v).thm = s.thm := rfl
@[simp] theorem setReg_sys (s : State) (a : Nat) (v : Word) : (s.setReg a v).sys = s.sys := rfl

/-! ### setF -/

@[simp] theorem setF_pending (s : State) (a hi lo n : Nat) : (s.setF a hi lo n).pending = s.pending := rfl
@[simp] theorem setF_fresh (s : State) (a hi lo n : Nat) : (s.setF a hi lo n).fresh = s.fresh := rfl
@[simp] theorem setF_clk (s : State) (a hi lo n : Nat) : (s.setF a hi lo n).clk = s.clk := rfl
@[simp] theorem setF_held (s : State) (a hi lo n : Nat) : (s.setF a hi lo n).held = s.held := rfl
@[simp] theorem setF_hwSet (s : State) (a hi lo n : Nat) : (s.setF a hi lo n).hwSet = s.hwSet := rfl
@[simp] theorem setF_mem (s : State) (a hi lo n : Nat) : (s.setF a hi lo n).mem = s.mem := rfl
@[simp] theorem setF_poison (s : State) (a hi lo n : Nat) : (s.setF a hi lo n).poison = s.poison := rfl
@[simp] theorem setF_acc (s : State) (a hi lo n : Nat) : (s.setF a hi lo n).acc = s.acc := rfl
@[simp] theorem setF_points (s : State) (a hi lo n : Nat) : (s.setF a hi lo n).points = s.points := rfl
@[simp] theorem setF_pointTimes (s : State) (a hi lo n : Nat) : (s.setF a hi lo n).pointTimes = s.pointTimes := rfl
@[simp] theorem setF_dramSize (s : State) (a hi lo n : Nat) : (s.setF a hi lo n).dramSize = s.dramSize := rfl
@[simp] theorem setF_sbx (s : State) (a hi lo n : Nat) : (s.setF a hi lo n).sbx = s.sbx := rfl
@[simp] theorem setF_tt (s : State) (a hi lo n : Nat) : (s.setF a hi lo n).tt = s.tt := rfl
@[simp] theorem setF_jct (s : State) (a hi lo n : Nat) : (s.setF a hi lo n).jct = s.jct := rfl
@[simp] theorem setF_sq (s : State) (a hi lo n : Nat) : (s.setF a hi lo n).sq = s.sq := rfl
@[simp] theorem setF_gcores (s : State) (a hi lo n : Nat) : (s.setF a hi lo n).gcores = s.gcores := rfl
@[simp] theorem setF_line (s : State) (a hi lo n : Nat) : (s.setF a hi lo n).line = s.line := rfl
@[simp] theorem setF_hst (s : State) (a hi lo n : Nat) : (s.setF a hi lo n).hst = s.hst := rfl
@[simp] theorem setF_ldg (s : State) (a hi lo n : Nat) : (s.setF a hi lo n).ldg = s.ldg := rfl
@[simp] theorem setF_sec (s : State) (a hi lo n : Nat) : (s.setF a hi lo n).sec = s.sec := rfl
@[simp] theorem setF_bkg (s : State) (a hi lo n : Nat) : (s.setF a hi lo n).bkg = s.bkg := rfl
@[simp] theorem setF_fx (s : State) (a hi lo n : Nat) : (s.setF a hi lo n).fx = s.fx := rfl
@[simp] theorem setF_scn (s : State) (a hi lo n : Nat) : (s.setF a hi lo n).scn = s.scn := rfl
@[simp] theorem setF_exp (s : State) (a hi lo n : Nat) : (s.setF a hi lo n).exp = s.exp := rfl
@[simp] theorem setF_foc (s : State) (a hi lo n : Nat) : (s.setF a hi lo n).foc = s.foc := rfl
@[simp] theorem setF_stp (s : State) (a hi lo n : Nat) : (s.setF a hi lo n).stp = s.stp := rfl
@[simp] theorem setF_hv (s : State) (a hi lo n : Nat) : (s.setF a hi lo n).hv = s.hv := rfl
@[simp] theorem setF_fus (s : State) (a hi lo n : Nat) : (s.setF a hi lo n).fus = s.fus := rfl
@[simp] theorem setF_sns (s : State) (a hi lo n : Nat) : (s.setF a hi lo n).sns = s.sns := rfl
@[simp] theorem setF_dma (s : State) (a hi lo n : Nat) : (s.setF a hi lo n).dma = s.dma := rfl
@[simp] theorem setF_plt (s : State) (a hi lo n : Nat) : (s.setF a hi lo n).plt = s.plt := rfl
@[simp] theorem setF_pwr (s : State) (a hi lo n : Nat) : (s.setF a hi lo n).pwr = s.pwr := rfl
@[simp] theorem setF_thm (s : State) (a hi lo n : Nat) : (s.setF a hi lo n).thm = s.thm := rfl
@[simp] theorem setF_sys (s : State) (a hi lo n : Nat) : (s.setF a hi lo n).sys = s.sys := rfl

/-! ### noteSet -/

@[simp] theorem noteSet_pending (s : State) (a i : Nat) : (s.noteSet a i).pending = s.pending := by unfold State.noteSet; split <;> (try split) <;> rfl
@[simp] theorem noteSet_fresh (s : State) (a i : Nat) : (s.noteSet a i).fresh = s.fresh := by unfold State.noteSet; split <;> (try split) <;> rfl
@[simp] theorem noteSet_clk (s : State) (a i : Nat) : (s.noteSet a i).clk = s.clk := by unfold State.noteSet; split <;> (try split) <;> rfl
@[simp] theorem noteSet_regs (s : State) (a i : Nat) : (s.noteSet a i).regs = s.regs := by unfold State.noteSet; split <;> (try split) <;> rfl
@[simp] theorem noteSet_held (s : State) (a i : Nat) : (s.noteSet a i).held = s.held := by unfold State.noteSet; split <;> (try split) <;> rfl
@[simp] theorem noteSet_mem (s : State) (a i : Nat) : (s.noteSet a i).mem = s.mem := by unfold State.noteSet; split <;> (try split) <;> rfl
@[simp] theorem noteSet_poison (s : State) (a i : Nat) : (s.noteSet a i).poison = s.poison := by unfold State.noteSet; split <;> (try split) <;> rfl
@[simp] theorem noteSet_acc (s : State) (a i : Nat) : (s.noteSet a i).acc = s.acc := by unfold State.noteSet; split <;> (try split) <;> rfl
@[simp] theorem noteSet_points (s : State) (a i : Nat) : (s.noteSet a i).points = s.points := by unfold State.noteSet; split <;> (try split) <;> rfl
@[simp] theorem noteSet_pointTimes (s : State) (a i : Nat) : (s.noteSet a i).pointTimes = s.pointTimes := by unfold State.noteSet; split <;> (try split) <;> rfl
@[simp] theorem noteSet_dramSize (s : State) (a i : Nat) : (s.noteSet a i).dramSize = s.dramSize := by unfold State.noteSet; split <;> (try split) <;> rfl
@[simp] theorem noteSet_sbx (s : State) (a i : Nat) : (s.noteSet a i).sbx = s.sbx := by unfold State.noteSet; split <;> (try split) <;> rfl
@[simp] theorem noteSet_tt (s : State) (a i : Nat) : (s.noteSet a i).tt = s.tt := by unfold State.noteSet; split <;> (try split) <;> rfl
@[simp] theorem noteSet_jct (s : State) (a i : Nat) : (s.noteSet a i).jct = s.jct := by unfold State.noteSet; split <;> (try split) <;> rfl
@[simp] theorem noteSet_sq (s : State) (a i : Nat) : (s.noteSet a i).sq = s.sq := by unfold State.noteSet; split <;> (try split) <;> rfl
@[simp] theorem noteSet_gcores (s : State) (a i : Nat) : (s.noteSet a i).gcores = s.gcores := by unfold State.noteSet; split <;> (try split) <;> rfl
@[simp] theorem noteSet_line (s : State) (a i : Nat) : (s.noteSet a i).line = s.line := by unfold State.noteSet; split <;> (try split) <;> rfl
@[simp] theorem noteSet_hst (s : State) (a i : Nat) : (s.noteSet a i).hst = s.hst := by unfold State.noteSet; split <;> (try split) <;> rfl
@[simp] theorem noteSet_ldg (s : State) (a i : Nat) : (s.noteSet a i).ldg = s.ldg := by unfold State.noteSet; split <;> (try split) <;> rfl
@[simp] theorem noteSet_sec (s : State) (a i : Nat) : (s.noteSet a i).sec = s.sec := by unfold State.noteSet; split <;> (try split) <;> rfl
@[simp] theorem noteSet_bkg (s : State) (a i : Nat) : (s.noteSet a i).bkg = s.bkg := by unfold State.noteSet; split <;> (try split) <;> rfl
@[simp] theorem noteSet_fx (s : State) (a i : Nat) : (s.noteSet a i).fx = s.fx := by unfold State.noteSet; split <;> (try split) <;> rfl
@[simp] theorem noteSet_scn (s : State) (a i : Nat) : (s.noteSet a i).scn = s.scn := by unfold State.noteSet; split <;> (try split) <;> rfl
@[simp] theorem noteSet_exp (s : State) (a i : Nat) : (s.noteSet a i).exp = s.exp := by unfold State.noteSet; split <;> (try split) <;> rfl
@[simp] theorem noteSet_foc (s : State) (a i : Nat) : (s.noteSet a i).foc = s.foc := by unfold State.noteSet; split <;> (try split) <;> rfl
@[simp] theorem noteSet_stp (s : State) (a i : Nat) : (s.noteSet a i).stp = s.stp := by unfold State.noteSet; split <;> (try split) <;> rfl
@[simp] theorem noteSet_hv (s : State) (a i : Nat) : (s.noteSet a i).hv = s.hv := by unfold State.noteSet; split <;> (try split) <;> rfl
@[simp] theorem noteSet_fus (s : State) (a i : Nat) : (s.noteSet a i).fus = s.fus := by unfold State.noteSet; split <;> (try split) <;> rfl
@[simp] theorem noteSet_sns (s : State) (a i : Nat) : (s.noteSet a i).sns = s.sns := by unfold State.noteSet; split <;> (try split) <;> rfl
@[simp] theorem noteSet_dma (s : State) (a i : Nat) : (s.noteSet a i).dma = s.dma := by unfold State.noteSet; split <;> (try split) <;> rfl
@[simp] theorem noteSet_plt (s : State) (a i : Nat) : (s.noteSet a i).plt = s.plt := by unfold State.noteSet; split <;> (try split) <;> rfl
@[simp] theorem noteSet_pwr (s : State) (a i : Nat) : (s.noteSet a i).pwr = s.pwr := by unfold State.noteSet; split <;> (try split) <;> rfl
@[simp] theorem noteSet_thm (s : State) (a i : Nat) : (s.noteSet a i).thm = s.thm := by unfold State.noteSet; split <;> (try split) <;> rfl
@[simp] theorem noteSet_sys (s : State) (a i : Nat) : (s.noteSet a i).sys = s.sys := by unfold State.noteSet; split <;> (try split) <;> rfl
@[simp] theorem noteSet_reg (s : State) (a i : Nat) (r : Nat) : (s.noteSet a i).reg r = s.reg r := by unfold State.noteSet; split <;> (try split) <;> rfl
@[simp] theorem noteSet_f (s : State) (a i : Nat) (r h l : Nat) : (s.noteSet a i).f r h l = s.f r h l := by unfold State.noteSet; split <;> (try split) <;> rfl
@[simp] theorem noteSet_fb (s : State) (a i : Nat) (r i : Nat) : (s.noteSet a i).fb r i = s.fb r i := by unfold State.noteSet; split <;> (try split) <;> rfl

/-! ### setB -/

@[simp] theorem setB_pending (s : State) (a i : Nat) (b : Bool) : (s.setB a i b).pending = s.pending := by unfold State.setB; split <;> simp
@[simp] theorem setB_fresh (s : State) (a i : Nat) (b : Bool) : (s.setB a i b).fresh = s.fresh := by unfold State.setB; split <;> simp
@[simp] theorem setB_clk (s : State) (a i : Nat) (b : Bool) : (s.setB a i b).clk = s.clk := by unfold State.setB; split <;> simp
@[simp] theorem setB_held (s : State) (a i : Nat) (b : Bool) : (s.setB a i b).held = s.held := by unfold State.setB; split <;> simp
@[simp] theorem setB_mem (s : State) (a i : Nat) (b : Bool) : (s.setB a i b).mem = s.mem := by unfold State.setB; split <;> simp
@[simp] theorem setB_poison (s : State) (a i : Nat) (b : Bool) : (s.setB a i b).poison = s.poison := by unfold State.setB; split <;> simp
@[simp] theorem setB_acc (s : State) (a i : Nat) (b : Bool) : (s.setB a i b).acc = s.acc := by unfold State.setB; split <;> simp
@[simp] theorem setB_points (s : State) (a i : Nat) (b : Bool) : (s.setB a i b).points = s.points := by unfold State.setB; split <;> simp
@[simp] theorem setB_pointTimes (s : State) (a i : Nat) (b : Bool) : (s.setB a i b).pointTimes = s.pointTimes := by unfold State.setB; split <;> simp
@[simp] theorem setB_dramSize (s : State) (a i : Nat) (b : Bool) : (s.setB a i b).dramSize = s.dramSize := by unfold State.setB; split <;> simp
@[simp] theorem setB_sbx (s : State) (a i : Nat) (b : Bool) : (s.setB a i b).sbx = s.sbx := by unfold State.setB; split <;> simp
@[simp] theorem setB_tt (s : State) (a i : Nat) (b : Bool) : (s.setB a i b).tt = s.tt := by unfold State.setB; split <;> simp
@[simp] theorem setB_jct (s : State) (a i : Nat) (b : Bool) : (s.setB a i b).jct = s.jct := by unfold State.setB; split <;> simp
@[simp] theorem setB_sq (s : State) (a i : Nat) (b : Bool) : (s.setB a i b).sq = s.sq := by unfold State.setB; split <;> simp
@[simp] theorem setB_gcores (s : State) (a i : Nat) (b : Bool) : (s.setB a i b).gcores = s.gcores := by unfold State.setB; split <;> simp
@[simp] theorem setB_line (s : State) (a i : Nat) (b : Bool) : (s.setB a i b).line = s.line := by unfold State.setB; split <;> simp
@[simp] theorem setB_hst (s : State) (a i : Nat) (b : Bool) : (s.setB a i b).hst = s.hst := by unfold State.setB; split <;> simp
@[simp] theorem setB_ldg (s : State) (a i : Nat) (b : Bool) : (s.setB a i b).ldg = s.ldg := by unfold State.setB; split <;> simp
@[simp] theorem setB_sec (s : State) (a i : Nat) (b : Bool) : (s.setB a i b).sec = s.sec := by unfold State.setB; split <;> simp
@[simp] theorem setB_bkg (s : State) (a i : Nat) (b : Bool) : (s.setB a i b).bkg = s.bkg := by unfold State.setB; split <;> simp
@[simp] theorem setB_fx (s : State) (a i : Nat) (b : Bool) : (s.setB a i b).fx = s.fx := by unfold State.setB; split <;> simp
@[simp] theorem setB_scn (s : State) (a i : Nat) (b : Bool) : (s.setB a i b).scn = s.scn := by unfold State.setB; split <;> simp
@[simp] theorem setB_exp (s : State) (a i : Nat) (b : Bool) : (s.setB a i b).exp = s.exp := by unfold State.setB; split <;> simp
@[simp] theorem setB_foc (s : State) (a i : Nat) (b : Bool) : (s.setB a i b).foc = s.foc := by unfold State.setB; split <;> simp
@[simp] theorem setB_stp (s : State) (a i : Nat) (b : Bool) : (s.setB a i b).stp = s.stp := by unfold State.setB; split <;> simp
@[simp] theorem setB_hv (s : State) (a i : Nat) (b : Bool) : (s.setB a i b).hv = s.hv := by unfold State.setB; split <;> simp
@[simp] theorem setB_fus (s : State) (a i : Nat) (b : Bool) : (s.setB a i b).fus = s.fus := by unfold State.setB; split <;> simp
@[simp] theorem setB_sns (s : State) (a i : Nat) (b : Bool) : (s.setB a i b).sns = s.sns := by unfold State.setB; split <;> simp
@[simp] theorem setB_dma (s : State) (a i : Nat) (b : Bool) : (s.setB a i b).dma = s.dma := by unfold State.setB; split <;> simp
@[simp] theorem setB_plt (s : State) (a i : Nat) (b : Bool) : (s.setB a i b).plt = s.plt := by unfold State.setB; split <;> simp
@[simp] theorem setB_pwr (s : State) (a i : Nat) (b : Bool) : (s.setB a i b).pwr = s.pwr := by unfold State.setB; split <;> simp
@[simp] theorem setB_thm (s : State) (a i : Nat) (b : Bool) : (s.setB a i b).thm = s.thm := by unfold State.setB; split <;> simp
@[simp] theorem setB_sys (s : State) (a i : Nat) (b : Bool) : (s.setB a i b).sys = s.sys := by unfold State.setB; split <;> simp

/-! ### incSat -/

@[simp] theorem incSat_pending (s : State) (a hi lo k : Nat) : (s.incSat a hi lo k).pending = s.pending := rfl
@[simp] theorem incSat_fresh (s : State) (a hi lo k : Nat) : (s.incSat a hi lo k).fresh = s.fresh := rfl
@[simp] theorem incSat_clk (s : State) (a hi lo k : Nat) : (s.incSat a hi lo k).clk = s.clk := rfl
@[simp] theorem incSat_held (s : State) (a hi lo k : Nat) : (s.incSat a hi lo k).held = s.held := rfl
@[simp] theorem incSat_hwSet (s : State) (a hi lo k : Nat) : (s.incSat a hi lo k).hwSet = s.hwSet := rfl
@[simp] theorem incSat_mem (s : State) (a hi lo k : Nat) : (s.incSat a hi lo k).mem = s.mem := rfl
@[simp] theorem incSat_poison (s : State) (a hi lo k : Nat) : (s.incSat a hi lo k).poison = s.poison := rfl
@[simp] theorem incSat_acc (s : State) (a hi lo k : Nat) : (s.incSat a hi lo k).acc = s.acc := rfl
@[simp] theorem incSat_points (s : State) (a hi lo k : Nat) : (s.incSat a hi lo k).points = s.points := rfl
@[simp] theorem incSat_pointTimes (s : State) (a hi lo k : Nat) : (s.incSat a hi lo k).pointTimes = s.pointTimes := rfl
@[simp] theorem incSat_dramSize (s : State) (a hi lo k : Nat) : (s.incSat a hi lo k).dramSize = s.dramSize := rfl
@[simp] theorem incSat_sbx (s : State) (a hi lo k : Nat) : (s.incSat a hi lo k).sbx = s.sbx := rfl
@[simp] theorem incSat_tt (s : State) (a hi lo k : Nat) : (s.incSat a hi lo k).tt = s.tt := rfl
@[simp] theorem incSat_jct (s : State) (a hi lo k : Nat) : (s.incSat a hi lo k).jct = s.jct := rfl
@[simp] theorem incSat_sq (s : State) (a hi lo k : Nat) : (s.incSat a hi lo k).sq = s.sq := rfl
@[simp] theorem incSat_gcores (s : State) (a hi lo k : Nat) : (s.incSat a hi lo k).gcores = s.gcores := rfl
@[simp] theorem incSat_line (s : State) (a hi lo k : Nat) : (s.incSat a hi lo k).line = s.line := rfl
@[simp] theorem incSat_hst (s : State) (a hi lo k : Nat) : (s.incSat a hi lo k).hst = s.hst := rfl
@[simp] theorem incSat_ldg (s : State) (a hi lo k : Nat) : (s.incSat a hi lo k).ldg = s.ldg := rfl
@[simp] theorem incSat_sec (s : State) (a hi lo k : Nat) : (s.incSat a hi lo k).sec = s.sec := rfl
@[simp] theorem incSat_bkg (s : State) (a hi lo k : Nat) : (s.incSat a hi lo k).bkg = s.bkg := rfl
@[simp] theorem incSat_fx (s : State) (a hi lo k : Nat) : (s.incSat a hi lo k).fx = s.fx := rfl
@[simp] theorem incSat_scn (s : State) (a hi lo k : Nat) : (s.incSat a hi lo k).scn = s.scn := rfl
@[simp] theorem incSat_exp (s : State) (a hi lo k : Nat) : (s.incSat a hi lo k).exp = s.exp := rfl
@[simp] theorem incSat_foc (s : State) (a hi lo k : Nat) : (s.incSat a hi lo k).foc = s.foc := rfl
@[simp] theorem incSat_stp (s : State) (a hi lo k : Nat) : (s.incSat a hi lo k).stp = s.stp := rfl
@[simp] theorem incSat_hv (s : State) (a hi lo k : Nat) : (s.incSat a hi lo k).hv = s.hv := rfl
@[simp] theorem incSat_fus (s : State) (a hi lo k : Nat) : (s.incSat a hi lo k).fus = s.fus := rfl
@[simp] theorem incSat_sns (s : State) (a hi lo k : Nat) : (s.incSat a hi lo k).sns = s.sns := rfl
@[simp] theorem incSat_dma (s : State) (a hi lo k : Nat) : (s.incSat a hi lo k).dma = s.dma := rfl
@[simp] theorem incSat_plt (s : State) (a hi lo k : Nat) : (s.incSat a hi lo k).plt = s.plt := rfl
@[simp] theorem incSat_pwr (s : State) (a hi lo k : Nat) : (s.incSat a hi lo k).pwr = s.pwr := rfl
@[simp] theorem incSat_thm (s : State) (a hi lo k : Nat) : (s.incSat a hi lo k).thm = s.thm := rfl
@[simp] theorem incSat_sys (s : State) (a hi lo k : Nat) : (s.incSat a hi lo k).sys = s.sys := rfl

/-! ### setPair -/

@[simp] theorem setPair_pending (s : State) (lo hi v : Nat) : (s.setPair lo hi v).pending = s.pending := rfl
@[simp] theorem setPair_fresh (s : State) (lo hi v : Nat) : (s.setPair lo hi v).fresh = s.fresh := rfl
@[simp] theorem setPair_clk (s : State) (lo hi v : Nat) : (s.setPair lo hi v).clk = s.clk := rfl
@[simp] theorem setPair_held (s : State) (lo hi v : Nat) : (s.setPair lo hi v).held = s.held := rfl
@[simp] theorem setPair_hwSet (s : State) (lo hi v : Nat) : (s.setPair lo hi v).hwSet = s.hwSet := rfl
@[simp] theorem setPair_mem (s : State) (lo hi v : Nat) : (s.setPair lo hi v).mem = s.mem := rfl
@[simp] theorem setPair_poison (s : State) (lo hi v : Nat) : (s.setPair lo hi v).poison = s.poison := rfl
@[simp] theorem setPair_acc (s : State) (lo hi v : Nat) : (s.setPair lo hi v).acc = s.acc := rfl
@[simp] theorem setPair_points (s : State) (lo hi v : Nat) : (s.setPair lo hi v).points = s.points := rfl
@[simp] theorem setPair_pointTimes (s : State) (lo hi v : Nat) : (s.setPair lo hi v).pointTimes = s.pointTimes := rfl
@[simp] theorem setPair_dramSize (s : State) (lo hi v : Nat) : (s.setPair lo hi v).dramSize = s.dramSize := rfl
@[simp] theorem setPair_sbx (s : State) (lo hi v : Nat) : (s.setPair lo hi v).sbx = s.sbx := rfl
@[simp] theorem setPair_tt (s : State) (lo hi v : Nat) : (s.setPair lo hi v).tt = s.tt := rfl
@[simp] theorem setPair_jct (s : State) (lo hi v : Nat) : (s.setPair lo hi v).jct = s.jct := rfl
@[simp] theorem setPair_sq (s : State) (lo hi v : Nat) : (s.setPair lo hi v).sq = s.sq := rfl
@[simp] theorem setPair_gcores (s : State) (lo hi v : Nat) : (s.setPair lo hi v).gcores = s.gcores := rfl
@[simp] theorem setPair_line (s : State) (lo hi v : Nat) : (s.setPair lo hi v).line = s.line := rfl
@[simp] theorem setPair_hst (s : State) (lo hi v : Nat) : (s.setPair lo hi v).hst = s.hst := rfl
@[simp] theorem setPair_ldg (s : State) (lo hi v : Nat) : (s.setPair lo hi v).ldg = s.ldg := rfl
@[simp] theorem setPair_sec (s : State) (lo hi v : Nat) : (s.setPair lo hi v).sec = s.sec := rfl
@[simp] theorem setPair_bkg (s : State) (lo hi v : Nat) : (s.setPair lo hi v).bkg = s.bkg := rfl
@[simp] theorem setPair_fx (s : State) (lo hi v : Nat) : (s.setPair lo hi v).fx = s.fx := rfl
@[simp] theorem setPair_scn (s : State) (lo hi v : Nat) : (s.setPair lo hi v).scn = s.scn := rfl
@[simp] theorem setPair_exp (s : State) (lo hi v : Nat) : (s.setPair lo hi v).exp = s.exp := rfl
@[simp] theorem setPair_foc (s : State) (lo hi v : Nat) : (s.setPair lo hi v).foc = s.foc := rfl
@[simp] theorem setPair_stp (s : State) (lo hi v : Nat) : (s.setPair lo hi v).stp = s.stp := rfl
@[simp] theorem setPair_hv (s : State) (lo hi v : Nat) : (s.setPair lo hi v).hv = s.hv := rfl
@[simp] theorem setPair_fus (s : State) (lo hi v : Nat) : (s.setPair lo hi v).fus = s.fus := rfl
@[simp] theorem setPair_sns (s : State) (lo hi v : Nat) : (s.setPair lo hi v).sns = s.sns := rfl
@[simp] theorem setPair_dma (s : State) (lo hi v : Nat) : (s.setPair lo hi v).dma = s.dma := rfl
@[simp] theorem setPair_plt (s : State) (lo hi v : Nat) : (s.setPair lo hi v).plt = s.plt := rfl
@[simp] theorem setPair_pwr (s : State) (lo hi v : Nat) : (s.setPair lo hi v).pwr = s.pwr := rfl
@[simp] theorem setPair_thm (s : State) (lo hi v : Nat) : (s.setPair lo hi v).thm = s.thm := rfl
@[simp] theorem setPair_sys (s : State) (lo hi v : Nat) : (s.setPair lo hi v).sys = s.sys := rfl

/-! ### raise -/

@[simp] theorem raise_pending (s : State) (src ev : Nat) : (s.raise src ev).pending = s.pending := rfl
@[simp] theorem raise_fresh (s : State) (src ev : Nat) : (s.raise src ev).fresh = s.fresh := rfl
@[simp] theorem raise_clk (s : State) (src ev : Nat) : (s.raise src ev).clk = s.clk := rfl
@[simp] theorem raise_regs (s : State) (src ev : Nat) : (s.raise src ev).regs = s.regs := rfl
@[simp] theorem raise_held (s : State) (src ev : Nat) : (s.raise src ev).held = s.held := rfl
@[simp] theorem raise_hwSet (s : State) (src ev : Nat) : (s.raise src ev).hwSet = s.hwSet := rfl
@[simp] theorem raise_mem (s : State) (src ev : Nat) : (s.raise src ev).mem = s.mem := rfl
@[simp] theorem raise_poison (s : State) (src ev : Nat) : (s.raise src ev).poison = s.poison := rfl
@[simp] theorem raise_acc (s : State) (src ev : Nat) : (s.raise src ev).acc = s.acc := rfl
@[simp] theorem raise_points (s : State) (src ev : Nat) : (s.raise src ev).points = s.points := rfl
@[simp] theorem raise_pointTimes (s : State) (src ev : Nat) : (s.raise src ev).pointTimes = s.pointTimes := rfl
@[simp] theorem raise_dramSize (s : State) (src ev : Nat) : (s.raise src ev).dramSize = s.dramSize := rfl
@[simp] theorem raise_tt (s : State) (src ev : Nat) : (s.raise src ev).tt = s.tt := rfl
@[simp] theorem raise_jct (s : State) (src ev : Nat) : (s.raise src ev).jct = s.jct := rfl
@[simp] theorem raise_sq (s : State) (src ev : Nat) : (s.raise src ev).sq = s.sq := rfl
@[simp] theorem raise_gcores (s : State) (src ev : Nat) : (s.raise src ev).gcores = s.gcores := rfl
@[simp] theorem raise_line (s : State) (src ev : Nat) : (s.raise src ev).line = s.line := rfl
@[simp] theorem raise_hst (s : State) (src ev : Nat) : (s.raise src ev).hst = s.hst := rfl
@[simp] theorem raise_ldg (s : State) (src ev : Nat) : (s.raise src ev).ldg = s.ldg := rfl
@[simp] theorem raise_sec (s : State) (src ev : Nat) : (s.raise src ev).sec = s.sec := rfl
@[simp] theorem raise_bkg (s : State) (src ev : Nat) : (s.raise src ev).bkg = s.bkg := rfl
@[simp] theorem raise_fx (s : State) (src ev : Nat) : (s.raise src ev).fx = s.fx := rfl
@[simp] theorem raise_scn (s : State) (src ev : Nat) : (s.raise src ev).scn = s.scn := rfl
@[simp] theorem raise_exp (s : State) (src ev : Nat) : (s.raise src ev).exp = s.exp := rfl
@[simp] theorem raise_foc (s : State) (src ev : Nat) : (s.raise src ev).foc = s.foc := rfl
@[simp] theorem raise_stp (s : State) (src ev : Nat) : (s.raise src ev).stp = s.stp := rfl
@[simp] theorem raise_hv (s : State) (src ev : Nat) : (s.raise src ev).hv = s.hv := rfl
@[simp] theorem raise_fus (s : State) (src ev : Nat) : (s.raise src ev).fus = s.fus := rfl
@[simp] theorem raise_sns (s : State) (src ev : Nat) : (s.raise src ev).sns = s.sns := rfl
@[simp] theorem raise_dma (s : State) (src ev : Nat) : (s.raise src ev).dma = s.dma := rfl
@[simp] theorem raise_plt (s : State) (src ev : Nat) : (s.raise src ev).plt = s.plt := rfl
@[simp] theorem raise_pwr (s : State) (src ev : Nat) : (s.raise src ev).pwr = s.pwr := rfl
@[simp] theorem raise_thm (s : State) (src ev : Nat) : (s.raise src ev).thm = s.thm := rfl
@[simp] theorem raise_sys (s : State) (src ev : Nat) : (s.raise src ev).sys = s.sys := rfl
@[simp] theorem raise_reg (s : State) (src ev : Nat) (r : Nat) : (s.raise src ev).reg r = s.reg r := rfl
@[simp] theorem raise_f (s : State) (src ev : Nat) (r h l : Nat) : (s.raise src ev).f r h l = s.f r h l := rfl
@[simp] theorem raise_fb (s : State) (src ev : Nat) (r i : Nat) : (s.raise src ev).fb r i = s.fb r i := rfl

/-! ### storeBytes -/

@[simp] theorem storeBytes_pending (s : State) (a : Nat) (bs : List Byte) : (s.storeBytes a bs).pending = s.pending := rfl
@[simp] theorem storeBytes_fresh (s : State) (a : Nat) (bs : List Byte) : (s.storeBytes a bs).fresh = s.fresh := rfl
@[simp] theorem storeBytes_clk (s : State) (a : Nat) (bs : List Byte) : (s.storeBytes a bs).clk = s.clk := rfl
@[simp] theorem storeBytes_regs (s : State) (a : Nat) (bs : List Byte) : (s.storeBytes a bs).regs = s.regs := rfl
@[simp] theorem storeBytes_held (s : State) (a : Nat) (bs : List Byte) : (s.storeBytes a bs).held = s.held := rfl
@[simp] theorem storeBytes_hwSet (s : State) (a : Nat) (bs : List Byte) : (s.storeBytes a bs).hwSet = s.hwSet := rfl
@[simp] theorem storeBytes_acc (s : State) (a : Nat) (bs : List Byte) : (s.storeBytes a bs).acc = s.acc := rfl
@[simp] theorem storeBytes_points (s : State) (a : Nat) (bs : List Byte) : (s.storeBytes a bs).points = s.points := rfl
@[simp] theorem storeBytes_pointTimes (s : State) (a : Nat) (bs : List Byte) : (s.storeBytes a bs).pointTimes = s.pointTimes := rfl
@[simp] theorem storeBytes_dramSize (s : State) (a : Nat) (bs : List Byte) : (s.storeBytes a bs).dramSize = s.dramSize := rfl
@[simp] theorem storeBytes_sbx (s : State) (a : Nat) (bs : List Byte) : (s.storeBytes a bs).sbx = s.sbx := rfl
@[simp] theorem storeBytes_tt (s : State) (a : Nat) (bs : List Byte) : (s.storeBytes a bs).tt = s.tt := rfl
@[simp] theorem storeBytes_jct (s : State) (a : Nat) (bs : List Byte) : (s.storeBytes a bs).jct = s.jct := rfl
@[simp] theorem storeBytes_sq (s : State) (a : Nat) (bs : List Byte) : (s.storeBytes a bs).sq = s.sq := rfl
@[simp] theorem storeBytes_gcores (s : State) (a : Nat) (bs : List Byte) : (s.storeBytes a bs).gcores = s.gcores := rfl
@[simp] theorem storeBytes_line (s : State) (a : Nat) (bs : List Byte) : (s.storeBytes a bs).line = s.line := rfl
@[simp] theorem storeBytes_hst (s : State) (a : Nat) (bs : List Byte) : (s.storeBytes a bs).hst = s.hst := rfl
@[simp] theorem storeBytes_ldg (s : State) (a : Nat) (bs : List Byte) : (s.storeBytes a bs).ldg = s.ldg := rfl
@[simp] theorem storeBytes_sec (s : State) (a : Nat) (bs : List Byte) : (s.storeBytes a bs).sec = s.sec := rfl
@[simp] theorem storeBytes_bkg (s : State) (a : Nat) (bs : List Byte) : (s.storeBytes a bs).bkg = s.bkg := rfl
@[simp] theorem storeBytes_fx (s : State) (a : Nat) (bs : List Byte) : (s.storeBytes a bs).fx = s.fx := rfl
@[simp] theorem storeBytes_scn (s : State) (a : Nat) (bs : List Byte) : (s.storeBytes a bs).scn = s.scn := rfl
@[simp] theorem storeBytes_exp (s : State) (a : Nat) (bs : List Byte) : (s.storeBytes a bs).exp = s.exp := rfl
@[simp] theorem storeBytes_foc (s : State) (a : Nat) (bs : List Byte) : (s.storeBytes a bs).foc = s.foc := rfl
@[simp] theorem storeBytes_stp (s : State) (a : Nat) (bs : List Byte) : (s.storeBytes a bs).stp = s.stp := rfl
@[simp] theorem storeBytes_hv (s : State) (a : Nat) (bs : List Byte) : (s.storeBytes a bs).hv = s.hv := rfl
@[simp] theorem storeBytes_fus (s : State) (a : Nat) (bs : List Byte) : (s.storeBytes a bs).fus = s.fus := rfl
@[simp] theorem storeBytes_sns (s : State) (a : Nat) (bs : List Byte) : (s.storeBytes a bs).sns = s.sns := rfl
@[simp] theorem storeBytes_dma (s : State) (a : Nat) (bs : List Byte) : (s.storeBytes a bs).dma = s.dma := rfl
@[simp] theorem storeBytes_plt (s : State) (a : Nat) (bs : List Byte) : (s.storeBytes a bs).plt = s.plt := rfl
@[simp] theorem storeBytes_pwr (s : State) (a : Nat) (bs : List Byte) : (s.storeBytes a bs).pwr = s.pwr := rfl
@[simp] theorem storeBytes_thm (s : State) (a : Nat) (bs : List Byte) : (s.storeBytes a bs).thm = s.thm := rfl
@[simp] theorem storeBytes_sys (s : State) (a : Nat) (bs : List Byte) : (s.storeBytes a bs).sys = s.sys := rfl
@[simp] theorem storeBytes_reg (s : State) (a : Nat) (bs : List Byte) (r : Nat) : (s.storeBytes a bs).reg r = s.reg r := rfl
@[simp] theorem storeBytes_f (s : State) (a : Nat) (bs : List Byte) (r h l : Nat) : (s.storeBytes a bs).f r h l = s.f r h l := rfl
@[simp] theorem storeBytes_fb (s : State) (a : Nat) (bs : List Byte) (r i : Nat) : (s.storeBytes a bs).fb r i = s.fb r i := rfl

/-! ### setMem -/

@[simp] theorem setMem_pending (s : State) (a n v : Nat) : (s.setMem a n v).pending = s.pending := rfl
@[simp] theorem setMem_fresh (s : State) (a n v : Nat) : (s.setMem a n v).fresh = s.fresh := rfl
@[simp] theorem setMem_clk (s : State) (a n v : Nat) : (s.setMem a n v).clk = s.clk := rfl
@[simp] theorem setMem_regs (s : State) (a n v : Nat) : (s.setMem a n v).regs = s.regs := rfl
@[simp] theorem setMem_held (s : State) (a n v : Nat) : (s.setMem a n v).held = s.held := rfl
@[simp] theorem setMem_hwSet (s : State) (a n v : Nat) : (s.setMem a n v).hwSet = s.hwSet := rfl
@[simp] theorem setMem_acc (s : State) (a n v : Nat) : (s.setMem a n v).acc = s.acc := rfl
@[simp] theorem setMem_points (s : State) (a n v : Nat) : (s.setMem a n v).points = s.points := rfl
@[simp] theorem setMem_pointTimes (s : State) (a n v : Nat) : (s.setMem a n v).pointTimes = s.pointTimes := rfl
@[simp] theorem setMem_dramSize (s : State) (a n v : Nat) : (s.setMem a n v).dramSize = s.dramSize := rfl
@[simp] theorem setMem_sbx (s : State) (a n v : Nat) : (s.setMem a n v).sbx = s.sbx := rfl
@[simp] theorem setMem_tt (s : State) (a n v : Nat) : (s.setMem a n v).tt = s.tt := rfl
@[simp] theorem setMem_jct (s : State) (a n v : Nat) : (s.setMem a n v).jct = s.jct := rfl
@[simp] theorem setMem_sq (s : State) (a n v : Nat) : (s.setMem a n v).sq = s.sq := rfl
@[simp] theorem setMem_gcores (s : State) (a n v : Nat) : (s.setMem a n v).gcores = s.gcores := rfl
@[simp] theorem setMem_line (s : State) (a n v : Nat) : (s.setMem a n v).line = s.line := rfl
@[simp] theorem setMem_hst (s : State) (a n v : Nat) : (s.setMem a n v).hst = s.hst := rfl
@[simp] theorem setMem_ldg (s : State) (a n v : Nat) : (s.setMem a n v).ldg = s.ldg := rfl
@[simp] theorem setMem_sec (s : State) (a n v : Nat) : (s.setMem a n v).sec = s.sec := rfl
@[simp] theorem setMem_bkg (s : State) (a n v : Nat) : (s.setMem a n v).bkg = s.bkg := rfl
@[simp] theorem setMem_fx (s : State) (a n v : Nat) : (s.setMem a n v).fx = s.fx := rfl
@[simp] theorem setMem_scn (s : State) (a n v : Nat) : (s.setMem a n v).scn = s.scn := rfl
@[simp] theorem setMem_exp (s : State) (a n v : Nat) : (s.setMem a n v).exp = s.exp := rfl
@[simp] theorem setMem_foc (s : State) (a n v : Nat) : (s.setMem a n v).foc = s.foc := rfl
@[simp] theorem setMem_stp (s : State) (a n v : Nat) : (s.setMem a n v).stp = s.stp := rfl
@[simp] theorem setMem_hv (s : State) (a n v : Nat) : (s.setMem a n v).hv = s.hv := rfl
@[simp] theorem setMem_fus (s : State) (a n v : Nat) : (s.setMem a n v).fus = s.fus := rfl
@[simp] theorem setMem_sns (s : State) (a n v : Nat) : (s.setMem a n v).sns = s.sns := rfl
@[simp] theorem setMem_dma (s : State) (a n v : Nat) : (s.setMem a n v).dma = s.dma := rfl
@[simp] theorem setMem_plt (s : State) (a n v : Nat) : (s.setMem a n v).plt = s.plt := rfl
@[simp] theorem setMem_pwr (s : State) (a n v : Nat) : (s.setMem a n v).pwr = s.pwr := rfl
@[simp] theorem setMem_thm (s : State) (a n v : Nat) : (s.setMem a n v).thm = s.thm := rfl
@[simp] theorem setMem_sys (s : State) (a n v : Nat) : (s.setMem a n v).sys = s.sys := rfl
@[simp] theorem setMem_reg (s : State) (a n v : Nat) (r : Nat) : (s.setMem a n v).reg r = s.reg r := rfl
@[simp] theorem setMem_f (s : State) (a n v : Nat) (r h l : Nat) : (s.setMem a n v).f r h l = s.f r h l := rfl
@[simp] theorem setMem_fb (s : State) (a n v : Nat) (r i : Nat) : (s.setMem a n v).fb r i = s.fb r i := rfl

/-! ### setAcc -/

@[simp] theorem setAcc_pending (s : State) (ini : Nat) (x : AccResult) : (s.setAcc ini x).pending = s.pending := rfl
@[simp] theorem setAcc_fresh (s : State) (ini : Nat) (x : AccResult) : (s.setAcc ini x).fresh = s.fresh := rfl
@[simp] theorem setAcc_clk (s : State) (ini : Nat) (x : AccResult) : (s.setAcc ini x).clk = s.clk := rfl
@[simp] theorem setAcc_regs (s : State) (ini : Nat) (x : AccResult) : (s.setAcc ini x).regs = s.regs := rfl
@[simp] theorem setAcc_held (s : State) (ini : Nat) (x : AccResult) : (s.setAcc ini x).held = s.held := rfl
@[simp] theorem setAcc_hwSet (s : State) (ini : Nat) (x : AccResult) : (s.setAcc ini x).hwSet = s.hwSet := rfl
@[simp] theorem setAcc_mem (s : State) (ini : Nat) (x : AccResult) : (s.setAcc ini x).mem = s.mem := rfl
@[simp] theorem setAcc_poison (s : State) (ini : Nat) (x : AccResult) : (s.setAcc ini x).poison = s.poison := rfl
@[simp] theorem setAcc_points (s : State) (ini : Nat) (x : AccResult) : (s.setAcc ini x).points = s.points := rfl
@[simp] theorem setAcc_pointTimes (s : State) (ini : Nat) (x : AccResult) : (s.setAcc ini x).pointTimes = s.pointTimes := rfl
@[simp] theorem setAcc_dramSize (s : State) (ini : Nat) (x : AccResult) : (s.setAcc ini x).dramSize = s.dramSize := rfl
@[simp] theorem setAcc_sbx (s : State) (ini : Nat) (x : AccResult) : (s.setAcc ini x).sbx = s.sbx := rfl
@[simp] theorem setAcc_tt (s : State) (ini : Nat) (x : AccResult) : (s.setAcc ini x).tt = s.tt := rfl
@[simp] theorem setAcc_jct (s : State) (ini : Nat) (x : AccResult) : (s.setAcc ini x).jct = s.jct := rfl
@[simp] theorem setAcc_sq (s : State) (ini : Nat) (x : AccResult) : (s.setAcc ini x).sq = s.sq := rfl
@[simp] theorem setAcc_gcores (s : State) (ini : Nat) (x : AccResult) : (s.setAcc ini x).gcores = s.gcores := rfl
@[simp] theorem setAcc_line (s : State) (ini : Nat) (x : AccResult) : (s.setAcc ini x).line = s.line := rfl
@[simp] theorem setAcc_hst (s : State) (ini : Nat) (x : AccResult) : (s.setAcc ini x).hst = s.hst := rfl
@[simp] theorem setAcc_ldg (s : State) (ini : Nat) (x : AccResult) : (s.setAcc ini x).ldg = s.ldg := rfl
@[simp] theorem setAcc_sec (s : State) (ini : Nat) (x : AccResult) : (s.setAcc ini x).sec = s.sec := rfl
@[simp] theorem setAcc_bkg (s : State) (ini : Nat) (x : AccResult) : (s.setAcc ini x).bkg = s.bkg := rfl
@[simp] theorem setAcc_fx (s : State) (ini : Nat) (x : AccResult) : (s.setAcc ini x).fx = s.fx := rfl
@[simp] theorem setAcc_scn (s : State) (ini : Nat) (x : AccResult) : (s.setAcc ini x).scn = s.scn := rfl
@[simp] theorem setAcc_exp (s : State) (ini : Nat) (x : AccResult) : (s.setAcc ini x).exp = s.exp := rfl
@[simp] theorem setAcc_foc (s : State) (ini : Nat) (x : AccResult) : (s.setAcc ini x).foc = s.foc := rfl
@[simp] theorem setAcc_stp (s : State) (ini : Nat) (x : AccResult) : (s.setAcc ini x).stp = s.stp := rfl
@[simp] theorem setAcc_hv (s : State) (ini : Nat) (x : AccResult) : (s.setAcc ini x).hv = s.hv := rfl
@[simp] theorem setAcc_fus (s : State) (ini : Nat) (x : AccResult) : (s.setAcc ini x).fus = s.fus := rfl
@[simp] theorem setAcc_sns (s : State) (ini : Nat) (x : AccResult) : (s.setAcc ini x).sns = s.sns := rfl
@[simp] theorem setAcc_dma (s : State) (ini : Nat) (x : AccResult) : (s.setAcc ini x).dma = s.dma := rfl
@[simp] theorem setAcc_plt (s : State) (ini : Nat) (x : AccResult) : (s.setAcc ini x).plt = s.plt := rfl
@[simp] theorem setAcc_pwr (s : State) (ini : Nat) (x : AccResult) : (s.setAcc ini x).pwr = s.pwr := rfl
@[simp] theorem setAcc_thm (s : State) (ini : Nat) (x : AccResult) : (s.setAcc ini x).thm = s.thm := rfl
@[simp] theorem setAcc_sys (s : State) (ini : Nat) (x : AccResult) : (s.setAcc ini x).sys = s.sys := rfl
@[simp] theorem setAcc_reg (s : State) (ini : Nat) (x : AccResult) (r : Nat) : (s.setAcc ini x).reg r = s.reg r := rfl
@[simp] theorem setAcc_f (s : State) (ini : Nat) (x : AccResult) (r h l : Nat) : (s.setAcc ini x).f r h l = s.f r h l := rfl
@[simp] theorem setAcc_fb (s : State) (ini : Nat) (x : AccResult) (r i : Nat) : (s.setAcc ini x).fb r i = s.fb r i := rfl

/-! ### pwrPush -/

@[simp] theorem pwrPush_pending (s : State) (k : PwrKind) : (s.pwrPush k).pending = s.pending := rfl
@[simp] theorem pwrPush_fresh (s : State) (k : PwrKind) : (s.pwrPush k).fresh = s.fresh := rfl
@[simp] theorem pwrPush_clk (s : State) (k : PwrKind) : (s.pwrPush k).clk = s.clk := rfl
@[simp] theorem pwrPush_regs (s : State) (k : PwrKind) : (s.pwrPush k).regs = s.regs := rfl
@[simp] theorem pwrPush_held (s : State) (k : PwrKind) : (s.pwrPush k).held = s.held := rfl
@[simp] theorem pwrPush_hwSet (s : State) (k : PwrKind) : (s.pwrPush k).hwSet = s.hwSet := rfl
@[simp] theorem pwrPush_mem (s : State) (k : PwrKind) : (s.pwrPush k).mem = s.mem := rfl
@[simp] theorem pwrPush_poison (s : State) (k : PwrKind) : (s.pwrPush k).poison = s.poison := rfl
@[simp] theorem pwrPush_acc (s : State) (k : PwrKind) : (s.pwrPush k).acc = s.acc := rfl
@[simp] theorem pwrPush_points (s : State) (k : PwrKind) : (s.pwrPush k).points = s.points := rfl
@[simp] theorem pwrPush_pointTimes (s : State) (k : PwrKind) : (s.pwrPush k).pointTimes = s.pointTimes := rfl
@[simp] theorem pwrPush_dramSize (s : State) (k : PwrKind) : (s.pwrPush k).dramSize = s.dramSize := rfl
@[simp] theorem pwrPush_sbx (s : State) (k : PwrKind) : (s.pwrPush k).sbx = s.sbx := rfl
@[simp] theorem pwrPush_tt (s : State) (k : PwrKind) : (s.pwrPush k).tt = s.tt := rfl
@[simp] theorem pwrPush_jct (s : State) (k : PwrKind) : (s.pwrPush k).jct = s.jct := rfl
@[simp] theorem pwrPush_sq (s : State) (k : PwrKind) : (s.pwrPush k).sq = s.sq := rfl
@[simp] theorem pwrPush_gcores (s : State) (k : PwrKind) : (s.pwrPush k).gcores = s.gcores := rfl
@[simp] theorem pwrPush_line (s : State) (k : PwrKind) : (s.pwrPush k).line = s.line := rfl
@[simp] theorem pwrPush_hst (s : State) (k : PwrKind) : (s.pwrPush k).hst = s.hst := rfl
@[simp] theorem pwrPush_ldg (s : State) (k : PwrKind) : (s.pwrPush k).ldg = s.ldg := rfl
@[simp] theorem pwrPush_sec (s : State) (k : PwrKind) : (s.pwrPush k).sec = s.sec := rfl
@[simp] theorem pwrPush_bkg (s : State) (k : PwrKind) : (s.pwrPush k).bkg = s.bkg := rfl
@[simp] theorem pwrPush_fx (s : State) (k : PwrKind) : (s.pwrPush k).fx = s.fx := rfl
@[simp] theorem pwrPush_scn (s : State) (k : PwrKind) : (s.pwrPush k).scn = s.scn := rfl
@[simp] theorem pwrPush_exp (s : State) (k : PwrKind) : (s.pwrPush k).exp = s.exp := rfl
@[simp] theorem pwrPush_foc (s : State) (k : PwrKind) : (s.pwrPush k).foc = s.foc := rfl
@[simp] theorem pwrPush_stp (s : State) (k : PwrKind) : (s.pwrPush k).stp = s.stp := rfl
@[simp] theorem pwrPush_hv (s : State) (k : PwrKind) : (s.pwrPush k).hv = s.hv := rfl
@[simp] theorem pwrPush_fus (s : State) (k : PwrKind) : (s.pwrPush k).fus = s.fus := rfl
@[simp] theorem pwrPush_sns (s : State) (k : PwrKind) : (s.pwrPush k).sns = s.sns := rfl
@[simp] theorem pwrPush_dma (s : State) (k : PwrKind) : (s.pwrPush k).dma = s.dma := rfl
@[simp] theorem pwrPush_plt (s : State) (k : PwrKind) : (s.pwrPush k).plt = s.plt := rfl
@[simp] theorem pwrPush_thm (s : State) (k : PwrKind) : (s.pwrPush k).thm = s.thm := rfl
@[simp] theorem pwrPush_sys (s : State) (k : PwrKind) : (s.pwrPush k).sys = s.sys := rfl
@[simp] theorem pwrPush_reg (s : State) (k : PwrKind) (r : Nat) : (s.pwrPush k).reg r = s.reg r := rfl
@[simp] theorem pwrPush_f (s : State) (k : PwrKind) (r h l : Nat) : (s.pwrPush k).f r h l = s.f r h l := rfl
@[simp] theorem pwrPush_fb (s : State) (k : PwrKind) (r i : Nat) : (s.pwrPush k).fb r i = s.fb r i := rfl

/-! ### setSheet -/

@[simp] theorem setSheet_pending (s : State) (k : Nat) (x : Option Sheet) : (s.setSheet k x).pending = s.pending := rfl
@[simp] theorem setSheet_fresh (s : State) (k : Nat) (x : Option Sheet) : (s.setSheet k x).fresh = s.fresh := rfl
@[simp] theorem setSheet_clk (s : State) (k : Nat) (x : Option Sheet) : (s.setSheet k x).clk = s.clk := rfl
@[simp] theorem setSheet_regs (s : State) (k : Nat) (x : Option Sheet) : (s.setSheet k x).regs = s.regs := rfl
@[simp] theorem setSheet_held (s : State) (k : Nat) (x : Option Sheet) : (s.setSheet k x).held = s.held := rfl
@[simp] theorem setSheet_hwSet (s : State) (k : Nat) (x : Option Sheet) : (s.setSheet k x).hwSet = s.hwSet := rfl
@[simp] theorem setSheet_mem (s : State) (k : Nat) (x : Option Sheet) : (s.setSheet k x).mem = s.mem := rfl
@[simp] theorem setSheet_poison (s : State) (k : Nat) (x : Option Sheet) : (s.setSheet k x).poison = s.poison := rfl
@[simp] theorem setSheet_acc (s : State) (k : Nat) (x : Option Sheet) : (s.setSheet k x).acc = s.acc := rfl
@[simp] theorem setSheet_points (s : State) (k : Nat) (x : Option Sheet) : (s.setSheet k x).points = s.points := rfl
@[simp] theorem setSheet_pointTimes (s : State) (k : Nat) (x : Option Sheet) : (s.setSheet k x).pointTimes = s.pointTimes := rfl
@[simp] theorem setSheet_dramSize (s : State) (k : Nat) (x : Option Sheet) : (s.setSheet k x).dramSize = s.dramSize := rfl
@[simp] theorem setSheet_sbx (s : State) (k : Nat) (x : Option Sheet) : (s.setSheet k x).sbx = s.sbx := rfl
@[simp] theorem setSheet_jct (s : State) (k : Nat) (x : Option Sheet) : (s.setSheet k x).jct = s.jct := rfl
@[simp] theorem setSheet_sq (s : State) (k : Nat) (x : Option Sheet) : (s.setSheet k x).sq = s.sq := rfl
@[simp] theorem setSheet_gcores (s : State) (k : Nat) (x : Option Sheet) : (s.setSheet k x).gcores = s.gcores := rfl
@[simp] theorem setSheet_line (s : State) (k : Nat) (x : Option Sheet) : (s.setSheet k x).line = s.line := rfl
@[simp] theorem setSheet_hst (s : State) (k : Nat) (x : Option Sheet) : (s.setSheet k x).hst = s.hst := rfl
@[simp] theorem setSheet_ldg (s : State) (k : Nat) (x : Option Sheet) : (s.setSheet k x).ldg = s.ldg := rfl
@[simp] theorem setSheet_sec (s : State) (k : Nat) (x : Option Sheet) : (s.setSheet k x).sec = s.sec := rfl
@[simp] theorem setSheet_bkg (s : State) (k : Nat) (x : Option Sheet) : (s.setSheet k x).bkg = s.bkg := rfl
@[simp] theorem setSheet_fx (s : State) (k : Nat) (x : Option Sheet) : (s.setSheet k x).fx = s.fx := rfl
@[simp] theorem setSheet_scn (s : State) (k : Nat) (x : Option Sheet) : (s.setSheet k x).scn = s.scn := rfl
@[simp] theorem setSheet_exp (s : State) (k : Nat) (x : Option Sheet) : (s.setSheet k x).exp = s.exp := rfl
@[simp] theorem setSheet_foc (s : State) (k : Nat) (x : Option Sheet) : (s.setSheet k x).foc = s.foc := rfl
@[simp] theorem setSheet_stp (s : State) (k : Nat) (x : Option Sheet) : (s.setSheet k x).stp = s.stp := rfl
@[simp] theorem setSheet_hv (s : State) (k : Nat) (x : Option Sheet) : (s.setSheet k x).hv = s.hv := rfl
@[simp] theorem setSheet_fus (s : State) (k : Nat) (x : Option Sheet) : (s.setSheet k x).fus = s.fus := rfl
@[simp] theorem setSheet_sns (s : State) (k : Nat) (x : Option Sheet) : (s.setSheet k x).sns = s.sns := rfl
@[simp] theorem setSheet_dma (s : State) (k : Nat) (x : Option Sheet) : (s.setSheet k x).dma = s.dma := rfl
@[simp] theorem setSheet_plt (s : State) (k : Nat) (x : Option Sheet) : (s.setSheet k x).plt = s.plt := rfl
@[simp] theorem setSheet_pwr (s : State) (k : Nat) (x : Option Sheet) : (s.setSheet k x).pwr = s.pwr := rfl
@[simp] theorem setSheet_thm (s : State) (k : Nat) (x : Option Sheet) : (s.setSheet k x).thm = s.thm := rfl
@[simp] theorem setSheet_sys (s : State) (k : Nat) (x : Option Sheet) : (s.setSheet k x).sys = s.sys := rfl
@[simp] theorem setSheet_reg (s : State) (k : Nat) (x : Option Sheet) (r : Nat) : (s.setSheet k x).reg r = s.reg r := rfl
@[simp] theorem setSheet_f (s : State) (k : Nat) (x : Option Sheet) (r h l : Nat) : (s.setSheet k x).f r h l = s.f r h l := rfl
@[simp] theorem setSheet_fb (s : State) (k : Nat) (x : Option Sheet) (r i : Nat) : (s.setSheet k x).fb r i = s.fb r i := rfl

/-! ### setSlot -/

@[simp] theorem setSlot_pending (s : State) (k : Nat) (x : Slot) : (s.setSlot k x).pending = s.pending := rfl
@[simp] theorem setSlot_fresh (s : State) (k : Nat) (x : Slot) : (s.setSlot k x).fresh = s.fresh := rfl
@[simp] theorem setSlot_clk (s : State) (k : Nat) (x : Slot) : (s.setSlot k x).clk = s.clk := rfl
@[simp] theorem setSlot_regs (s : State) (k : Nat) (x : Slot) : (s.setSlot k x).regs = s.regs := rfl
@[simp] theorem setSlot_held (s : State) (k : Nat) (x : Slot) : (s.setSlot k x).held = s.held := rfl
@[simp] theorem setSlot_hwSet (s : State) (k : Nat) (x : Slot) : (s.setSlot k x).hwSet = s.hwSet := rfl
@[simp] theorem setSlot_mem (s : State) (k : Nat) (x : Slot) : (s.setSlot k x).mem = s.mem := rfl
@[simp] theorem setSlot_poison (s : State) (k : Nat) (x : Slot) : (s.setSlot k x).poison = s.poison := rfl
@[simp] theorem setSlot_acc (s : State) (k : Nat) (x : Slot) : (s.setSlot k x).acc = s.acc := rfl
@[simp] theorem setSlot_points (s : State) (k : Nat) (x : Slot) : (s.setSlot k x).points = s.points := rfl
@[simp] theorem setSlot_pointTimes (s : State) (k : Nat) (x : Slot) : (s.setSlot k x).pointTimes = s.pointTimes := rfl
@[simp] theorem setSlot_dramSize (s : State) (k : Nat) (x : Slot) : (s.setSlot k x).dramSize = s.dramSize := rfl
@[simp] theorem setSlot_sbx (s : State) (k : Nat) (x : Slot) : (s.setSlot k x).sbx = s.sbx := rfl
@[simp] theorem setSlot_tt (s : State) (k : Nat) (x : Slot) : (s.setSlot k x).tt = s.tt := rfl
@[simp] theorem setSlot_jct (s : State) (k : Nat) (x : Slot) : (s.setSlot k x).jct = s.jct := rfl
@[simp] theorem setSlot_gcores (s : State) (k : Nat) (x : Slot) : (s.setSlot k x).gcores = s.gcores := rfl
@[simp] theorem setSlot_line (s : State) (k : Nat) (x : Slot) : (s.setSlot k x).line = s.line := rfl
@[simp] theorem setSlot_hst (s : State) (k : Nat) (x : Slot) : (s.setSlot k x).hst = s.hst := rfl
@[simp] theorem setSlot_ldg (s : State) (k : Nat) (x : Slot) : (s.setSlot k x).ldg = s.ldg := rfl
@[simp] theorem setSlot_sec (s : State) (k : Nat) (x : Slot) : (s.setSlot k x).sec = s.sec := rfl
@[simp] theorem setSlot_bkg (s : State) (k : Nat) (x : Slot) : (s.setSlot k x).bkg = s.bkg := rfl
@[simp] theorem setSlot_fx (s : State) (k : Nat) (x : Slot) : (s.setSlot k x).fx = s.fx := rfl
@[simp] theorem setSlot_scn (s : State) (k : Nat) (x : Slot) : (s.setSlot k x).scn = s.scn := rfl
@[simp] theorem setSlot_exp (s : State) (k : Nat) (x : Slot) : (s.setSlot k x).exp = s.exp := rfl
@[simp] theorem setSlot_foc (s : State) (k : Nat) (x : Slot) : (s.setSlot k x).foc = s.foc := rfl
@[simp] theorem setSlot_stp (s : State) (k : Nat) (x : Slot) : (s.setSlot k x).stp = s.stp := rfl
@[simp] theorem setSlot_hv (s : State) (k : Nat) (x : Slot) : (s.setSlot k x).hv = s.hv := rfl
@[simp] theorem setSlot_fus (s : State) (k : Nat) (x : Slot) : (s.setSlot k x).fus = s.fus := rfl
@[simp] theorem setSlot_sns (s : State) (k : Nat) (x : Slot) : (s.setSlot k x).sns = s.sns := rfl
@[simp] theorem setSlot_dma (s : State) (k : Nat) (x : Slot) : (s.setSlot k x).dma = s.dma := rfl
@[simp] theorem setSlot_plt (s : State) (k : Nat) (x : Slot) : (s.setSlot k x).plt = s.plt := rfl
@[simp] theorem setSlot_pwr (s : State) (k : Nat) (x : Slot) : (s.setSlot k x).pwr = s.pwr := rfl
@[simp] theorem setSlot_thm (s : State) (k : Nat) (x : Slot) : (s.setSlot k x).thm = s.thm := rfl
@[simp] theorem setSlot_sys (s : State) (k : Nat) (x : Slot) : (s.setSlot k x).sys = s.sys := rfl
@[simp] theorem setSlot_reg (s : State) (k : Nat) (x : Slot) (r : Nat) : (s.setSlot k x).reg r = s.reg r := rfl
@[simp] theorem setSlot_f (s : State) (k : Nat) (x : Slot) (r h l : Nat) : (s.setSlot k x).f r h l = s.f r h l := rfl
@[simp] theorem setSlot_fb (s : State) (k : Nat) (x : Slot) (r i : Nat) : (s.setSlot k x).fb r i = s.fb r i := rfl

/-! ### modSlot -/

@[simp] theorem modSlot_pending (s : State) (k : Nat) (g : Slot → Slot) : (s.modSlot k g).pending = s.pending := rfl
@[simp] theorem modSlot_fresh (s : State) (k : Nat) (g : Slot → Slot) : (s.modSlot k g).fresh = s.fresh := rfl
@[simp] theorem modSlot_clk (s : State) (k : Nat) (g : Slot → Slot) : (s.modSlot k g).clk = s.clk := rfl
@[simp] theorem modSlot_regs (s : State) (k : Nat) (g : Slot → Slot) : (s.modSlot k g).regs = s.regs := rfl
@[simp] theorem modSlot_held (s : State) (k : Nat) (g : Slot → Slot) : (s.modSlot k g).held = s.held := rfl
@[simp] theorem modSlot_hwSet (s : State) (k : Nat) (g : Slot → Slot) : (s.modSlot k g).hwSet = s.hwSet := rfl
@[simp] theorem modSlot_mem (s : State) (k : Nat) (g : Slot → Slot) : (s.modSlot k g).mem = s.mem := rfl
@[simp] theorem modSlot_poison (s : State) (k : Nat) (g : Slot → Slot) : (s.modSlot k g).poison = s.poison := rfl
@[simp] theorem modSlot_acc (s : State) (k : Nat) (g : Slot → Slot) : (s.modSlot k g).acc = s.acc := rfl
@[simp] theorem modSlot_points (s : State) (k : Nat) (g : Slot → Slot) : (s.modSlot k g).points = s.points := rfl
@[simp] theorem modSlot_pointTimes (s : State) (k : Nat) (g : Slot → Slot) : (s.modSlot k g).pointTimes = s.pointTimes := rfl
@[simp] theorem modSlot_dramSize (s : State) (k : Nat) (g : Slot → Slot) : (s.modSlot k g).dramSize = s.dramSize := rfl
@[simp] theorem modSlot_sbx (s : State) (k : Nat) (g : Slot → Slot) : (s.modSlot k g).sbx = s.sbx := rfl
@[simp] theorem modSlot_tt (s : State) (k : Nat) (g : Slot → Slot) : (s.modSlot k g).tt = s.tt := rfl
@[simp] theorem modSlot_jct (s : State) (k : Nat) (g : Slot → Slot) : (s.modSlot k g).jct = s.jct := rfl
@[simp] theorem modSlot_gcores (s : State) (k : Nat) (g : Slot → Slot) : (s.modSlot k g).gcores = s.gcores := rfl
@[simp] theorem modSlot_line (s : State) (k : Nat) (g : Slot → Slot) : (s.modSlot k g).line = s.line := rfl
@[simp] theorem modSlot_hst (s : State) (k : Nat) (g : Slot → Slot) : (s.modSlot k g).hst = s.hst := rfl
@[simp] theorem modSlot_ldg (s : State) (k : Nat) (g : Slot → Slot) : (s.modSlot k g).ldg = s.ldg := rfl
@[simp] theorem modSlot_sec (s : State) (k : Nat) (g : Slot → Slot) : (s.modSlot k g).sec = s.sec := rfl
@[simp] theorem modSlot_bkg (s : State) (k : Nat) (g : Slot → Slot) : (s.modSlot k g).bkg = s.bkg := rfl
@[simp] theorem modSlot_fx (s : State) (k : Nat) (g : Slot → Slot) : (s.modSlot k g).fx = s.fx := rfl
@[simp] theorem modSlot_scn (s : State) (k : Nat) (g : Slot → Slot) : (s.modSlot k g).scn = s.scn := rfl
@[simp] theorem modSlot_exp (s : State) (k : Nat) (g : Slot → Slot) : (s.modSlot k g).exp = s.exp := rfl
@[simp] theorem modSlot_foc (s : State) (k : Nat) (g : Slot → Slot) : (s.modSlot k g).foc = s.foc := rfl
@[simp] theorem modSlot_stp (s : State) (k : Nat) (g : Slot → Slot) : (s.modSlot k g).stp = s.stp := rfl
@[simp] theorem modSlot_hv (s : State) (k : Nat) (g : Slot → Slot) : (s.modSlot k g).hv = s.hv := rfl
@[simp] theorem modSlot_fus (s : State) (k : Nat) (g : Slot → Slot) : (s.modSlot k g).fus = s.fus := rfl
@[simp] theorem modSlot_sns (s : State) (k : Nat) (g : Slot → Slot) : (s.modSlot k g).sns = s.sns := rfl
@[simp] theorem modSlot_dma (s : State) (k : Nat) (g : Slot → Slot) : (s.modSlot k g).dma = s.dma := rfl
@[simp] theorem modSlot_plt (s : State) (k : Nat) (g : Slot → Slot) : (s.modSlot k g).plt = s.plt := rfl
@[simp] theorem modSlot_pwr (s : State) (k : Nat) (g : Slot → Slot) : (s.modSlot k g).pwr = s.pwr := rfl
@[simp] theorem modSlot_thm (s : State) (k : Nat) (g : Slot → Slot) : (s.modSlot k g).thm = s.thm := rfl
@[simp] theorem modSlot_sys (s : State) (k : Nat) (g : Slot → Slot) : (s.modSlot k g).sys = s.sys := rfl
@[simp] theorem modSlot_reg (s : State) (k : Nat) (g : Slot → Slot) (r : Nat) : (s.modSlot k g).reg r = s.reg r := rfl
@[simp] theorem modSlot_f (s : State) (k : Nat) (g : Slot → Slot) (r h l : Nat) : (s.modSlot k g).f r h l = s.f r h l := rfl
@[simp] theorem modSlot_fb (s : State) (k : Nat) (g : Slot → Slot) (r i : Nat) : (s.modSlot k g).fb r i = s.fb r i := rfl

/-! ### modInst -/

@[simp] theorem modInst_pending (s : State) (k : Nat) (g : Instance → Instance) : (s.modInst k g).pending = s.pending := rfl
@[simp] theorem modInst_fresh (s : State) (k : Nat) (g : Instance → Instance) : (s.modInst k g).fresh = s.fresh := rfl
@[simp] theorem modInst_clk (s : State) (k : Nat) (g : Instance → Instance) : (s.modInst k g).clk = s.clk := rfl
@[simp] theorem modInst_regs (s : State) (k : Nat) (g : Instance → Instance) : (s.modInst k g).regs = s.regs := rfl
@[simp] theorem modInst_held (s : State) (k : Nat) (g : Instance → Instance) : (s.modInst k g).held = s.held := rfl
@[simp] theorem modInst_hwSet (s : State) (k : Nat) (g : Instance → Instance) : (s.modInst k g).hwSet = s.hwSet := rfl
@[simp] theorem modInst_mem (s : State) (k : Nat) (g : Instance → Instance) : (s.modInst k g).mem = s.mem := rfl
@[simp] theorem modInst_poison (s : State) (k : Nat) (g : Instance → Instance) : (s.modInst k g).poison = s.poison := rfl
@[simp] theorem modInst_acc (s : State) (k : Nat) (g : Instance → Instance) : (s.modInst k g).acc = s.acc := rfl
@[simp] theorem modInst_points (s : State) (k : Nat) (g : Instance → Instance) : (s.modInst k g).points = s.points := rfl
@[simp] theorem modInst_pointTimes (s : State) (k : Nat) (g : Instance → Instance) : (s.modInst k g).pointTimes = s.pointTimes := rfl
@[simp] theorem modInst_dramSize (s : State) (k : Nat) (g : Instance → Instance) : (s.modInst k g).dramSize = s.dramSize := rfl
@[simp] theorem modInst_sbx (s : State) (k : Nat) (g : Instance → Instance) : (s.modInst k g).sbx = s.sbx := rfl
@[simp] theorem modInst_tt (s : State) (k : Nat) (g : Instance → Instance) : (s.modInst k g).tt = s.tt := rfl
@[simp] theorem modInst_jct (s : State) (k : Nat) (g : Instance → Instance) : (s.modInst k g).jct = s.jct := rfl
@[simp] theorem modInst_gcores (s : State) (k : Nat) (g : Instance → Instance) : (s.modInst k g).gcores = s.gcores := rfl
@[simp] theorem modInst_line (s : State) (k : Nat) (g : Instance → Instance) : (s.modInst k g).line = s.line := rfl
@[simp] theorem modInst_hst (s : State) (k : Nat) (g : Instance → Instance) : (s.modInst k g).hst = s.hst := rfl
@[simp] theorem modInst_ldg (s : State) (k : Nat) (g : Instance → Instance) : (s.modInst k g).ldg = s.ldg := rfl
@[simp] theorem modInst_sec (s : State) (k : Nat) (g : Instance → Instance) : (s.modInst k g).sec = s.sec := rfl
@[simp] theorem modInst_bkg (s : State) (k : Nat) (g : Instance → Instance) : (s.modInst k g).bkg = s.bkg := rfl
@[simp] theorem modInst_fx (s : State) (k : Nat) (g : Instance → Instance) : (s.modInst k g).fx = s.fx := rfl
@[simp] theorem modInst_scn (s : State) (k : Nat) (g : Instance → Instance) : (s.modInst k g).scn = s.scn := rfl
@[simp] theorem modInst_exp (s : State) (k : Nat) (g : Instance → Instance) : (s.modInst k g).exp = s.exp := rfl
@[simp] theorem modInst_foc (s : State) (k : Nat) (g : Instance → Instance) : (s.modInst k g).foc = s.foc := rfl
@[simp] theorem modInst_stp (s : State) (k : Nat) (g : Instance → Instance) : (s.modInst k g).stp = s.stp := rfl
@[simp] theorem modInst_hv (s : State) (k : Nat) (g : Instance → Instance) : (s.modInst k g).hv = s.hv := rfl
@[simp] theorem modInst_fus (s : State) (k : Nat) (g : Instance → Instance) : (s.modInst k g).fus = s.fus := rfl
@[simp] theorem modInst_sns (s : State) (k : Nat) (g : Instance → Instance) : (s.modInst k g).sns = s.sns := rfl
@[simp] theorem modInst_dma (s : State) (k : Nat) (g : Instance → Instance) : (s.modInst k g).dma = s.dma := rfl
@[simp] theorem modInst_plt (s : State) (k : Nat) (g : Instance → Instance) : (s.modInst k g).plt = s.plt := rfl
@[simp] theorem modInst_pwr (s : State) (k : Nat) (g : Instance → Instance) : (s.modInst k g).pwr = s.pwr := rfl
@[simp] theorem modInst_thm (s : State) (k : Nat) (g : Instance → Instance) : (s.modInst k g).thm = s.thm := rfl
@[simp] theorem modInst_sys (s : State) (k : Nat) (g : Instance → Instance) : (s.modInst k g).sys = s.sys := rfl
@[simp] theorem modInst_reg (s : State) (k : Nat) (g : Instance → Instance) (r : Nat) : (s.modInst k g).reg r = s.reg r := rfl
@[simp] theorem modInst_f (s : State) (k : Nat) (g : Instance → Instance) (r h l : Nat) : (s.modInst k g).f r h l = s.f r h l := rfl
@[simp] theorem modInst_fb (s : State) (k : Nat) (g : Instance → Instance) (r i : Nat) : (s.modInst k g).fb r i = s.fb r i := rfl

/-! ### setFlight -/

@[simp] theorem setFlight_pending (s : State) (p : Nat) (x : Flight) : (s.setFlight p x).pending = s.pending := rfl
@[simp] theorem setFlight_fresh (s : State) (p : Nat) (x : Flight) : (s.setFlight p x).fresh = s.fresh := rfl
@[simp] theorem setFlight_clk (s : State) (p : Nat) (x : Flight) : (s.setFlight p x).clk = s.clk := rfl
@[simp] theorem setFlight_regs (s : State) (p : Nat) (x : Flight) : (s.setFlight p x).regs = s.regs := rfl
@[simp] theorem setFlight_held (s : State) (p : Nat) (x : Flight) : (s.setFlight p x).held = s.held := rfl
@[simp] theorem setFlight_hwSet (s : State) (p : Nat) (x : Flight) : (s.setFlight p x).hwSet = s.hwSet := rfl
@[simp] theorem setFlight_mem (s : State) (p : Nat) (x : Flight) : (s.setFlight p x).mem = s.mem := rfl
@[simp] theorem setFlight_poison (s : State) (p : Nat) (x : Flight) : (s.setFlight p x).poison = s.poison := rfl
@[simp] theorem setFlight_acc (s : State) (p : Nat) (x : Flight) : (s.setFlight p x).acc = s.acc := rfl
@[simp] theorem setFlight_points (s : State) (p : Nat) (x : Flight) : (s.setFlight p x).points = s.points := rfl
@[simp] theorem setFlight_pointTimes (s : State) (p : Nat) (x : Flight) : (s.setFlight p x).pointTimes = s.pointTimes := rfl
@[simp] theorem setFlight_dramSize (s : State) (p : Nat) (x : Flight) : (s.setFlight p x).dramSize = s.dramSize := rfl
@[simp] theorem setFlight_sbx (s : State) (p : Nat) (x : Flight) : (s.setFlight p x).sbx = s.sbx := rfl
@[simp] theorem setFlight_tt (s : State) (p : Nat) (x : Flight) : (s.setFlight p x).tt = s.tt := rfl
@[simp] theorem setFlight_jct (s : State) (p : Nat) (x : Flight) : (s.setFlight p x).jct = s.jct := rfl
@[simp] theorem setFlight_gcores (s : State) (p : Nat) (x : Flight) : (s.setFlight p x).gcores = s.gcores := rfl
@[simp] theorem setFlight_line (s : State) (p : Nat) (x : Flight) : (s.setFlight p x).line = s.line := rfl
@[simp] theorem setFlight_hst (s : State) (p : Nat) (x : Flight) : (s.setFlight p x).hst = s.hst := rfl
@[simp] theorem setFlight_ldg (s : State) (p : Nat) (x : Flight) : (s.setFlight p x).ldg = s.ldg := rfl
@[simp] theorem setFlight_sec (s : State) (p : Nat) (x : Flight) : (s.setFlight p x).sec = s.sec := rfl
@[simp] theorem setFlight_bkg (s : State) (p : Nat) (x : Flight) : (s.setFlight p x).bkg = s.bkg := rfl
@[simp] theorem setFlight_fx (s : State) (p : Nat) (x : Flight) : (s.setFlight p x).fx = s.fx := rfl
@[simp] theorem setFlight_scn (s : State) (p : Nat) (x : Flight) : (s.setFlight p x).scn = s.scn := rfl
@[simp] theorem setFlight_exp (s : State) (p : Nat) (x : Flight) : (s.setFlight p x).exp = s.exp := rfl
@[simp] theorem setFlight_foc (s : State) (p : Nat) (x : Flight) : (s.setFlight p x).foc = s.foc := rfl
@[simp] theorem setFlight_stp (s : State) (p : Nat) (x : Flight) : (s.setFlight p x).stp = s.stp := rfl
@[simp] theorem setFlight_hv (s : State) (p : Nat) (x : Flight) : (s.setFlight p x).hv = s.hv := rfl
@[simp] theorem setFlight_fus (s : State) (p : Nat) (x : Flight) : (s.setFlight p x).fus = s.fus := rfl
@[simp] theorem setFlight_sns (s : State) (p : Nat) (x : Flight) : (s.setFlight p x).sns = s.sns := rfl
@[simp] theorem setFlight_dma (s : State) (p : Nat) (x : Flight) : (s.setFlight p x).dma = s.dma := rfl
@[simp] theorem setFlight_plt (s : State) (p : Nat) (x : Flight) : (s.setFlight p x).plt = s.plt := rfl
@[simp] theorem setFlight_pwr (s : State) (p : Nat) (x : Flight) : (s.setFlight p x).pwr = s.pwr := rfl
@[simp] theorem setFlight_thm (s : State) (p : Nat) (x : Flight) : (s.setFlight p x).thm = s.thm := rfl
@[simp] theorem setFlight_sys (s : State) (p : Nat) (x : Flight) : (s.setFlight p x).sys = s.sys := rfl
@[simp] theorem setFlight_reg (s : State) (p : Nat) (x : Flight) (r : Nat) : (s.setFlight p x).reg r = s.reg r := rfl
@[simp] theorem setFlight_f (s : State) (p : Nat) (x : Flight) (r h l : Nat) : (s.setFlight p x).f r h l = s.f r h l := rfl
@[simp] theorem setFlight_fb (s : State) (p : Nat) (x : Flight) (r i : Nat) : (s.setFlight p x).fb r i = s.fb r i := rfl

/-! ### setArms -/

@[simp] theorem setArms_pending (s : State) (p : Nat) (xs : List ArmEntry) : (s.setArms p xs).pending = s.pending := rfl
@[simp] theorem setArms_fresh (s : State) (p : Nat) (xs : List ArmEntry) : (s.setArms p xs).fresh = s.fresh := rfl
@[simp] theorem setArms_clk (s : State) (p : Nat) (xs : List ArmEntry) : (s.setArms p xs).clk = s.clk := rfl
@[simp] theorem setArms_regs (s : State) (p : Nat) (xs : List ArmEntry) : (s.setArms p xs).regs = s.regs := rfl
@[simp] theorem setArms_held (s : State) (p : Nat) (xs : List ArmEntry) : (s.setArms p xs).held = s.held := rfl
@[simp] theorem setArms_hwSet (s : State) (p : Nat) (xs : List ArmEntry) : (s.setArms p xs).hwSet = s.hwSet := rfl
@[simp] theorem setArms_mem (s : State) (p : Nat) (xs : List ArmEntry) : (s.setArms p xs).mem = s.mem := rfl
@[simp] theorem setArms_poison (s : State) (p : Nat) (xs : List ArmEntry) : (s.setArms p xs).poison = s.poison := rfl
@[simp] theorem setArms_acc (s : State) (p : Nat) (xs : List ArmEntry) : (s.setArms p xs).acc = s.acc := rfl
@[simp] theorem setArms_points (s : State) (p : Nat) (xs : List ArmEntry) : (s.setArms p xs).points = s.points := rfl
@[simp] theorem setArms_pointTimes (s : State) (p : Nat) (xs : List ArmEntry) : (s.setArms p xs).pointTimes = s.pointTimes := rfl
@[simp] theorem setArms_dramSize (s : State) (p : Nat) (xs : List ArmEntry) : (s.setArms p xs).dramSize = s.dramSize := rfl
@[simp] theorem setArms_sbx (s : State) (p : Nat) (xs : List ArmEntry) : (s.setArms p xs).sbx = s.sbx := rfl
@[simp] theorem setArms_tt (s : State) (p : Nat) (xs : List ArmEntry) : (s.setArms p xs).tt = s.tt := rfl
@[simp] theorem setArms_jct (s : State) (p : Nat) (xs : List ArmEntry) : (s.setArms p xs).jct = s.jct := rfl
@[simp] theorem setArms_gcores (s : State) (p : Nat) (xs : List ArmEntry) : (s.setArms p xs).gcores = s.gcores := rfl
@[simp] theorem setArms_line (s : State) (p : Nat) (xs : List ArmEntry) : (s.setArms p xs).line = s.line := rfl
@[simp] theorem setArms_hst (s : State) (p : Nat) (xs : List ArmEntry) : (s.setArms p xs).hst = s.hst := rfl
@[simp] theorem setArms_ldg (s : State) (p : Nat) (xs : List ArmEntry) : (s.setArms p xs).ldg = s.ldg := rfl
@[simp] theorem setArms_sec (s : State) (p : Nat) (xs : List ArmEntry) : (s.setArms p xs).sec = s.sec := rfl
@[simp] theorem setArms_bkg (s : State) (p : Nat) (xs : List ArmEntry) : (s.setArms p xs).bkg = s.bkg := rfl
@[simp] theorem setArms_fx (s : State) (p : Nat) (xs : List ArmEntry) : (s.setArms p xs).fx = s.fx := rfl
@[simp] theorem setArms_scn (s : State) (p : Nat) (xs : List ArmEntry) : (s.setArms p xs).scn = s.scn := rfl
@[simp] theorem setArms_exp (s : State) (p : Nat) (xs : List ArmEntry) : (s.setArms p xs).exp = s.exp := rfl
@[simp] theorem setArms_foc (s : State) (p : Nat) (xs : List ArmEntry) : (s.setArms p xs).foc = s.foc := rfl
@[simp] theorem setArms_stp (s : State) (p : Nat) (xs : List ArmEntry) : (s.setArms p xs).stp = s.stp := rfl
@[simp] theorem setArms_hv (s : State) (p : Nat) (xs : List ArmEntry) : (s.setArms p xs).hv = s.hv := rfl
@[simp] theorem setArms_fus (s : State) (p : Nat) (xs : List ArmEntry) : (s.setArms p xs).fus = s.fus := rfl
@[simp] theorem setArms_sns (s : State) (p : Nat) (xs : List ArmEntry) : (s.setArms p xs).sns = s.sns := rfl
@[simp] theorem setArms_dma (s : State) (p : Nat) (xs : List ArmEntry) : (s.setArms p xs).dma = s.dma := rfl
@[simp] theorem setArms_plt (s : State) (p : Nat) (xs : List ArmEntry) : (s.setArms p xs).plt = s.plt := rfl
@[simp] theorem setArms_pwr (s : State) (p : Nat) (xs : List ArmEntry) : (s.setArms p xs).pwr = s.pwr := rfl
@[simp] theorem setArms_thm (s : State) (p : Nat) (xs : List ArmEntry) : (s.setArms p xs).thm = s.thm := rfl
@[simp] theorem setArms_sys (s : State) (p : Nat) (xs : List ArmEntry) : (s.setArms p xs).sys = s.sys := rfl
@[simp] theorem setArms_reg (s : State) (p : Nat) (xs : List ArmEntry) (r : Nat) : (s.setArms p xs).reg r = s.reg r := rfl
@[simp] theorem setArms_f (s : State) (p : Nat) (xs : List ArmEntry) (r h l : Nat) : (s.setArms p xs).f r h l = s.f r h l := rfl
@[simp] theorem setArms_fb (s : State) (p : Nat) (xs : List ArmEntry) (r i : Nat) : (s.setArms p xs).fb r i = s.fb r i := rfl

/-! ### setGcore -/

@[simp] theorem setGcore_pending (s : State) (n : Nat) (x : GCore) : (s.setGcore n x).pending = s.pending := rfl
@[simp] theorem setGcore_fresh (s : State) (n : Nat) (x : GCore) : (s.setGcore n x).fresh = s.fresh := rfl
@[simp] theorem setGcore_clk (s : State) (n : Nat) (x : GCore) : (s.setGcore n x).clk = s.clk := rfl
@[simp] theorem setGcore_regs (s : State) (n : Nat) (x : GCore) : (s.setGcore n x).regs = s.regs := rfl
@[simp] theorem setGcore_held (s : State) (n : Nat) (x : GCore) : (s.setGcore n x).held = s.held := rfl
@[simp] theorem setGcore_hwSet (s : State) (n : Nat) (x : GCore) : (s.setGcore n x).hwSet = s.hwSet := rfl
@[simp] theorem setGcore_mem (s : State) (n : Nat) (x : GCore) : (s.setGcore n x).mem = s.mem := rfl
@[simp] theorem setGcore_poison (s : State) (n : Nat) (x : GCore) : (s.setGcore n x).poison = s.poison := rfl
@[simp] theorem setGcore_acc (s : State) (n : Nat) (x : GCore) : (s.setGcore n x).acc = s.acc := rfl
@[simp] theorem setGcore_points (s : State) (n : Nat) (x : GCore) : (s.setGcore n x).points = s.points := rfl
@[simp] theorem setGcore_pointTimes (s : State) (n : Nat) (x : GCore) : (s.setGcore n x).pointTimes = s.pointTimes := rfl
@[simp] theorem setGcore_dramSize (s : State) (n : Nat) (x : GCore) : (s.setGcore n x).dramSize = s.dramSize := rfl
@[simp] theorem setGcore_sbx (s : State) (n : Nat) (x : GCore) : (s.setGcore n x).sbx = s.sbx := rfl
@[simp] theorem setGcore_tt (s : State) (n : Nat) (x : GCore) : (s.setGcore n x).tt = s.tt := rfl
@[simp] theorem setGcore_jct (s : State) (n : Nat) (x : GCore) : (s.setGcore n x).jct = s.jct := rfl
@[simp] theorem setGcore_sq (s : State) (n : Nat) (x : GCore) : (s.setGcore n x).sq = s.sq := rfl
@[simp] theorem setGcore_line (s : State) (n : Nat) (x : GCore) : (s.setGcore n x).line = s.line := rfl
@[simp] theorem setGcore_hst (s : State) (n : Nat) (x : GCore) : (s.setGcore n x).hst = s.hst := rfl
@[simp] theorem setGcore_ldg (s : State) (n : Nat) (x : GCore) : (s.setGcore n x).ldg = s.ldg := rfl
@[simp] theorem setGcore_sec (s : State) (n : Nat) (x : GCore) : (s.setGcore n x).sec = s.sec := rfl
@[simp] theorem setGcore_bkg (s : State) (n : Nat) (x : GCore) : (s.setGcore n x).bkg = s.bkg := rfl
@[simp] theorem setGcore_fx (s : State) (n : Nat) (x : GCore) : (s.setGcore n x).fx = s.fx := rfl
@[simp] theorem setGcore_scn (s : State) (n : Nat) (x : GCore) : (s.setGcore n x).scn = s.scn := rfl
@[simp] theorem setGcore_exp (s : State) (n : Nat) (x : GCore) : (s.setGcore n x).exp = s.exp := rfl
@[simp] theorem setGcore_foc (s : State) (n : Nat) (x : GCore) : (s.setGcore n x).foc = s.foc := rfl
@[simp] theorem setGcore_stp (s : State) (n : Nat) (x : GCore) : (s.setGcore n x).stp = s.stp := rfl
@[simp] theorem setGcore_hv (s : State) (n : Nat) (x : GCore) : (s.setGcore n x).hv = s.hv := rfl
@[simp] theorem setGcore_fus (s : State) (n : Nat) (x : GCore) : (s.setGcore n x).fus = s.fus := rfl
@[simp] theorem setGcore_sns (s : State) (n : Nat) (x : GCore) : (s.setGcore n x).sns = s.sns := rfl
@[simp] theorem setGcore_dma (s : State) (n : Nat) (x : GCore) : (s.setGcore n x).dma = s.dma := rfl
@[simp] theorem setGcore_plt (s : State) (n : Nat) (x : GCore) : (s.setGcore n x).plt = s.plt := rfl
@[simp] theorem setGcore_pwr (s : State) (n : Nat) (x : GCore) : (s.setGcore n x).pwr = s.pwr := rfl
@[simp] theorem setGcore_thm (s : State) (n : Nat) (x : GCore) : (s.setGcore n x).thm = s.thm := rfl
@[simp] theorem setGcore_sys (s : State) (n : Nat) (x : GCore) : (s.setGcore n x).sys = s.sys := rfl
@[simp] theorem setGcore_reg (s : State) (n : Nat) (x : GCore) (r : Nat) : (s.setGcore n x).reg r = s.reg r := rfl
@[simp] theorem setGcore_f (s : State) (n : Nat) (x : GCore) (r h l : Nat) : (s.setGcore n x).f r h l = s.f r h l := rfl
@[simp] theorem setGcore_fb (s : State) (n : Nat) (x : GCore) (r i : Nat) : (s.setGcore n x).fb r i = s.fb r i := rfl

/-! ### modGcore -/

@[simp] theorem modGcore_pending (s : State) (n : Nat) (g : GCore → GCore) : (s.modGcore n g).pending = s.pending := rfl
@[simp] theorem modGcore_fresh (s : State) (n : Nat) (g : GCore → GCore) : (s.modGcore n g).fresh = s.fresh := rfl
@[simp] theorem modGcore_clk (s : State) (n : Nat) (g : GCore → GCore) : (s.modGcore n g).clk = s.clk := rfl
@[simp] theorem modGcore_regs (s : State) (n : Nat) (g : GCore → GCore) : (s.modGcore n g).regs = s.regs := rfl
@[simp] theorem modGcore_held (s : State) (n : Nat) (g : GCore → GCore) : (s.modGcore n g).held = s.held := rfl
@[simp] theorem modGcore_hwSet (s : State) (n : Nat) (g : GCore → GCore) : (s.modGcore n g).hwSet = s.hwSet := rfl
@[simp] theorem modGcore_mem (s : State) (n : Nat) (g : GCore → GCore) : (s.modGcore n g).mem = s.mem := rfl
@[simp] theorem modGcore_poison (s : State) (n : Nat) (g : GCore → GCore) : (s.modGcore n g).poison = s.poison := rfl
@[simp] theorem modGcore_acc (s : State) (n : Nat) (g : GCore → GCore) : (s.modGcore n g).acc = s.acc := rfl
@[simp] theorem modGcore_points (s : State) (n : Nat) (g : GCore → GCore) : (s.modGcore n g).points = s.points := rfl
@[simp] theorem modGcore_pointTimes (s : State) (n : Nat) (g : GCore → GCore) : (s.modGcore n g).pointTimes = s.pointTimes := rfl
@[simp] theorem modGcore_dramSize (s : State) (n : Nat) (g : GCore → GCore) : (s.modGcore n g).dramSize = s.dramSize := rfl
@[simp] theorem modGcore_sbx (s : State) (n : Nat) (g : GCore → GCore) : (s.modGcore n g).sbx = s.sbx := rfl
@[simp] theorem modGcore_tt (s : State) (n : Nat) (g : GCore → GCore) : (s.modGcore n g).tt = s.tt := rfl
@[simp] theorem modGcore_jct (s : State) (n : Nat) (g : GCore → GCore) : (s.modGcore n g).jct = s.jct := rfl
@[simp] theorem modGcore_sq (s : State) (n : Nat) (g : GCore → GCore) : (s.modGcore n g).sq = s.sq := rfl
@[simp] theorem modGcore_line (s : State) (n : Nat) (g : GCore → GCore) : (s.modGcore n g).line = s.line := rfl
@[simp] theorem modGcore_hst (s : State) (n : Nat) (g : GCore → GCore) : (s.modGcore n g).hst = s.hst := rfl
@[simp] theorem modGcore_ldg (s : State) (n : Nat) (g : GCore → GCore) : (s.modGcore n g).ldg = s.ldg := rfl
@[simp] theorem modGcore_sec (s : State) (n : Nat) (g : GCore → GCore) : (s.modGcore n g).sec = s.sec := rfl
@[simp] theorem modGcore_bkg (s : State) (n : Nat) (g : GCore → GCore) : (s.modGcore n g).bkg = s.bkg := rfl
@[simp] theorem modGcore_fx (s : State) (n : Nat) (g : GCore → GCore) : (s.modGcore n g).fx = s.fx := rfl
@[simp] theorem modGcore_scn (s : State) (n : Nat) (g : GCore → GCore) : (s.modGcore n g).scn = s.scn := rfl
@[simp] theorem modGcore_exp (s : State) (n : Nat) (g : GCore → GCore) : (s.modGcore n g).exp = s.exp := rfl
@[simp] theorem modGcore_foc (s : State) (n : Nat) (g : GCore → GCore) : (s.modGcore n g).foc = s.foc := rfl
@[simp] theorem modGcore_stp (s : State) (n : Nat) (g : GCore → GCore) : (s.modGcore n g).stp = s.stp := rfl
@[simp] theorem modGcore_hv (s : State) (n : Nat) (g : GCore → GCore) : (s.modGcore n g).hv = s.hv := rfl
@[simp] theorem modGcore_fus (s : State) (n : Nat) (g : GCore → GCore) : (s.modGcore n g).fus = s.fus := rfl
@[simp] theorem modGcore_sns (s : State) (n : Nat) (g : GCore → GCore) : (s.modGcore n g).sns = s.sns := rfl
@[simp] theorem modGcore_dma (s : State) (n : Nat) (g : GCore → GCore) : (s.modGcore n g).dma = s.dma := rfl
@[simp] theorem modGcore_plt (s : State) (n : Nat) (g : GCore → GCore) : (s.modGcore n g).plt = s.plt := rfl
@[simp] theorem modGcore_pwr (s : State) (n : Nat) (g : GCore → GCore) : (s.modGcore n g).pwr = s.pwr := rfl
@[simp] theorem modGcore_thm (s : State) (n : Nat) (g : GCore → GCore) : (s.modGcore n g).thm = s.thm := rfl
@[simp] theorem modGcore_sys (s : State) (n : Nat) (g : GCore → GCore) : (s.modGcore n g).sys = s.sys := rfl
@[simp] theorem modGcore_reg (s : State) (n : Nat) (g : GCore → GCore) (r : Nat) : (s.modGcore n g).reg r = s.reg r := rfl
@[simp] theorem modGcore_f (s : State) (n : Nat) (g : GCore → GCore) (r h l : Nat) : (s.modGcore n g).f r h l = s.f r h l := rfl
@[simp] theorem modGcore_fb (s : State) (n : Nat) (g : GCore → GCore) (r i : Nat) : (s.modGcore n g).fb r i = s.fb r i := rfl

/-! ### setLane -/

@[simp] theorem setLane_pending (s : State) (n : Nat) (x : Lane) : (s.setLane n x).pending = s.pending := rfl
@[simp] theorem setLane_fresh (s : State) (n : Nat) (x : Lane) : (s.setLane n x).fresh = s.fresh := rfl
@[simp] theorem setLane_clk (s : State) (n : Nat) (x : Lane) : (s.setLane n x).clk = s.clk := rfl
@[simp] theorem setLane_regs (s : State) (n : Nat) (x : Lane) : (s.setLane n x).regs = s.regs := rfl
@[simp] theorem setLane_held (s : State) (n : Nat) (x : Lane) : (s.setLane n x).held = s.held := rfl
@[simp] theorem setLane_hwSet (s : State) (n : Nat) (x : Lane) : (s.setLane n x).hwSet = s.hwSet := rfl
@[simp] theorem setLane_mem (s : State) (n : Nat) (x : Lane) : (s.setLane n x).mem = s.mem := rfl
@[simp] theorem setLane_poison (s : State) (n : Nat) (x : Lane) : (s.setLane n x).poison = s.poison := rfl
@[simp] theorem setLane_acc (s : State) (n : Nat) (x : Lane) : (s.setLane n x).acc = s.acc := rfl
@[simp] theorem setLane_points (s : State) (n : Nat) (x : Lane) : (s.setLane n x).points = s.points := rfl
@[simp] theorem setLane_pointTimes (s : State) (n : Nat) (x : Lane) : (s.setLane n x).pointTimes = s.pointTimes := rfl
@[simp] theorem setLane_dramSize (s : State) (n : Nat) (x : Lane) : (s.setLane n x).dramSize = s.dramSize := rfl
@[simp] theorem setLane_sbx (s : State) (n : Nat) (x : Lane) : (s.setLane n x).sbx = s.sbx := rfl
@[simp] theorem setLane_tt (s : State) (n : Nat) (x : Lane) : (s.setLane n x).tt = s.tt := rfl
@[simp] theorem setLane_jct (s : State) (n : Nat) (x : Lane) : (s.setLane n x).jct = s.jct := rfl
@[simp] theorem setLane_sq (s : State) (n : Nat) (x : Lane) : (s.setLane n x).sq = s.sq := rfl
@[simp] theorem setLane_gcores (s : State) (n : Nat) (x : Lane) : (s.setLane n x).gcores = s.gcores := rfl
@[simp] theorem setLane_line (s : State) (n : Nat) (x : Lane) : (s.setLane n x).line = s.line := rfl
@[simp] theorem setLane_hst (s : State) (n : Nat) (x : Lane) : (s.setLane n x).hst = s.hst := rfl
@[simp] theorem setLane_ldg (s : State) (n : Nat) (x : Lane) : (s.setLane n x).ldg = s.ldg := rfl
@[simp] theorem setLane_sec (s : State) (n : Nat) (x : Lane) : (s.setLane n x).sec = s.sec := rfl
@[simp] theorem setLane_bkg (s : State) (n : Nat) (x : Lane) : (s.setLane n x).bkg = s.bkg := rfl
@[simp] theorem setLane_scn (s : State) (n : Nat) (x : Lane) : (s.setLane n x).scn = s.scn := rfl
@[simp] theorem setLane_exp (s : State) (n : Nat) (x : Lane) : (s.setLane n x).exp = s.exp := rfl
@[simp] theorem setLane_foc (s : State) (n : Nat) (x : Lane) : (s.setLane n x).foc = s.foc := rfl
@[simp] theorem setLane_stp (s : State) (n : Nat) (x : Lane) : (s.setLane n x).stp = s.stp := rfl
@[simp] theorem setLane_hv (s : State) (n : Nat) (x : Lane) : (s.setLane n x).hv = s.hv := rfl
@[simp] theorem setLane_fus (s : State) (n : Nat) (x : Lane) : (s.setLane n x).fus = s.fus := rfl
@[simp] theorem setLane_sns (s : State) (n : Nat) (x : Lane) : (s.setLane n x).sns = s.sns := rfl
@[simp] theorem setLane_dma (s : State) (n : Nat) (x : Lane) : (s.setLane n x).dma = s.dma := rfl
@[simp] theorem setLane_plt (s : State) (n : Nat) (x : Lane) : (s.setLane n x).plt = s.plt := rfl
@[simp] theorem setLane_pwr (s : State) (n : Nat) (x : Lane) : (s.setLane n x).pwr = s.pwr := rfl
@[simp] theorem setLane_thm (s : State) (n : Nat) (x : Lane) : (s.setLane n x).thm = s.thm := rfl
@[simp] theorem setLane_sys (s : State) (n : Nat) (x : Lane) : (s.setLane n x).sys = s.sys := rfl
@[simp] theorem setLane_reg (s : State) (n : Nat) (x : Lane) (r : Nat) : (s.setLane n x).reg r = s.reg r := rfl
@[simp] theorem setLane_f (s : State) (n : Nat) (x : Lane) (r h l : Nat) : (s.setLane n x).f r h l = s.f r h l := rfl
@[simp] theorem setLane_fb (s : State) (n : Nat) (x : Lane) (r i : Nat) : (s.setLane n x).fb r i = s.fb r i := rfl

/-! ### setStreams -/

@[simp] theorem setStreams_pending (s : State) (n : Nat) (xs : List Stream) : (s.setStreams n xs).pending = s.pending := rfl
@[simp] theorem setStreams_fresh (s : State) (n : Nat) (xs : List Stream) : (s.setStreams n xs).fresh = s.fresh := rfl
@[simp] theorem setStreams_clk (s : State) (n : Nat) (xs : List Stream) : (s.setStreams n xs).clk = s.clk := rfl
@[simp] theorem setStreams_regs (s : State) (n : Nat) (xs : List Stream) : (s.setStreams n xs).regs = s.regs := rfl
@[simp] theorem setStreams_held (s : State) (n : Nat) (xs : List Stream) : (s.setStreams n xs).held = s.held := rfl
@[simp] theorem setStreams_hwSet (s : State) (n : Nat) (xs : List Stream) : (s.setStreams n xs).hwSet = s.hwSet := rfl
@[simp] theorem setStreams_mem (s : State) (n : Nat) (xs : List Stream) : (s.setStreams n xs).mem = s.mem := rfl
@[simp] theorem setStreams_poison (s : State) (n : Nat) (xs : List Stream) : (s.setStreams n xs).poison = s.poison := rfl
@[simp] theorem setStreams_acc (s : State) (n : Nat) (xs : List Stream) : (s.setStreams n xs).acc = s.acc := rfl
@[simp] theorem setStreams_points (s : State) (n : Nat) (xs : List Stream) : (s.setStreams n xs).points = s.points := rfl
@[simp] theorem setStreams_pointTimes (s : State) (n : Nat) (xs : List Stream) : (s.setStreams n xs).pointTimes = s.pointTimes := rfl
@[simp] theorem setStreams_dramSize (s : State) (n : Nat) (xs : List Stream) : (s.setStreams n xs).dramSize = s.dramSize := rfl
@[simp] theorem setStreams_sbx (s : State) (n : Nat) (xs : List Stream) : (s.setStreams n xs).sbx = s.sbx := rfl
@[simp] theorem setStreams_tt (s : State) (n : Nat) (xs : List Stream) : (s.setStreams n xs).tt = s.tt := rfl
@[simp] theorem setStreams_jct (s : State) (n : Nat) (xs : List Stream) : (s.setStreams n xs).jct = s.jct := rfl
@[simp] theorem setStreams_sq (s : State) (n : Nat) (xs : List Stream) : (s.setStreams n xs).sq = s.sq := rfl
@[simp] theorem setStreams_gcores (s : State) (n : Nat) (xs : List Stream) : (s.setStreams n xs).gcores = s.gcores := rfl
@[simp] theorem setStreams_line (s : State) (n : Nat) (xs : List Stream) : (s.setStreams n xs).line = s.line := rfl
@[simp] theorem setStreams_hst (s : State) (n : Nat) (xs : List Stream) : (s.setStreams n xs).hst = s.hst := rfl
@[simp] theorem setStreams_ldg (s : State) (n : Nat) (xs : List Stream) : (s.setStreams n xs).ldg = s.ldg := rfl
@[simp] theorem setStreams_sec (s : State) (n : Nat) (xs : List Stream) : (s.setStreams n xs).sec = s.sec := rfl
@[simp] theorem setStreams_bkg (s : State) (n : Nat) (xs : List Stream) : (s.setStreams n xs).bkg = s.bkg := rfl
@[simp] theorem setStreams_scn (s : State) (n : Nat) (xs : List Stream) : (s.setStreams n xs).scn = s.scn := rfl
@[simp] theorem setStreams_exp (s : State) (n : Nat) (xs : List Stream) : (s.setStreams n xs).exp = s.exp := rfl
@[simp] theorem setStreams_foc (s : State) (n : Nat) (xs : List Stream) : (s.setStreams n xs).foc = s.foc := rfl
@[simp] theorem setStreams_stp (s : State) (n : Nat) (xs : List Stream) : (s.setStreams n xs).stp = s.stp := rfl
@[simp] theorem setStreams_hv (s : State) (n : Nat) (xs : List Stream) : (s.setStreams n xs).hv = s.hv := rfl
@[simp] theorem setStreams_fus (s : State) (n : Nat) (xs : List Stream) : (s.setStreams n xs).fus = s.fus := rfl
@[simp] theorem setStreams_sns (s : State) (n : Nat) (xs : List Stream) : (s.setStreams n xs).sns = s.sns := rfl
@[simp] theorem setStreams_dma (s : State) (n : Nat) (xs : List Stream) : (s.setStreams n xs).dma = s.dma := rfl
@[simp] theorem setStreams_plt (s : State) (n : Nat) (xs : List Stream) : (s.setStreams n xs).plt = s.plt := rfl
@[simp] theorem setStreams_pwr (s : State) (n : Nat) (xs : List Stream) : (s.setStreams n xs).pwr = s.pwr := rfl
@[simp] theorem setStreams_thm (s : State) (n : Nat) (xs : List Stream) : (s.setStreams n xs).thm = s.thm := rfl
@[simp] theorem setStreams_sys (s : State) (n : Nat) (xs : List Stream) : (s.setStreams n xs).sys = s.sys := rfl
@[simp] theorem setStreams_reg (s : State) (n : Nat) (xs : List Stream) (r : Nat) : (s.setStreams n xs).reg r = s.reg r := rfl
@[simp] theorem setStreams_f (s : State) (n : Nat) (xs : List Stream) (r h l : Nat) : (s.setStreams n xs).f r h l = s.f r h l := rfl
@[simp] theorem setStreams_fb (s : State) (n : Nat) (xs : List Stream) (r i : Nat) : (s.setStreams n xs).fb r i = s.fb r i := rfl

/-! ### modScn -/

@[simp] theorem modScn_pending (s : State) (n : Nat) (g : Scn → Scn) : (s.modScn n g).pending = s.pending := rfl
@[simp] theorem modScn_fresh (s : State) (n : Nat) (g : Scn → Scn) : (s.modScn n g).fresh = s.fresh := rfl
@[simp] theorem modScn_clk (s : State) (n : Nat) (g : Scn → Scn) : (s.modScn n g).clk = s.clk := rfl
@[simp] theorem modScn_regs (s : State) (n : Nat) (g : Scn → Scn) : (s.modScn n g).regs = s.regs := rfl
@[simp] theorem modScn_held (s : State) (n : Nat) (g : Scn → Scn) : (s.modScn n g).held = s.held := rfl
@[simp] theorem modScn_hwSet (s : State) (n : Nat) (g : Scn → Scn) : (s.modScn n g).hwSet = s.hwSet := rfl
@[simp] theorem modScn_mem (s : State) (n : Nat) (g : Scn → Scn) : (s.modScn n g).mem = s.mem := rfl
@[simp] theorem modScn_poison (s : State) (n : Nat) (g : Scn → Scn) : (s.modScn n g).poison = s.poison := rfl
@[simp] theorem modScn_acc (s : State) (n : Nat) (g : Scn → Scn) : (s.modScn n g).acc = s.acc := rfl
@[simp] theorem modScn_points (s : State) (n : Nat) (g : Scn → Scn) : (s.modScn n g).points = s.points := rfl
@[simp] theorem modScn_pointTimes (s : State) (n : Nat) (g : Scn → Scn) : (s.modScn n g).pointTimes = s.pointTimes := rfl
@[simp] theorem modScn_dramSize (s : State) (n : Nat) (g : Scn → Scn) : (s.modScn n g).dramSize = s.dramSize := rfl
@[simp] theorem modScn_sbx (s : State) (n : Nat) (g : Scn → Scn) : (s.modScn n g).sbx = s.sbx := rfl
@[simp] theorem modScn_tt (s : State) (n : Nat) (g : Scn → Scn) : (s.modScn n g).tt = s.tt := rfl
@[simp] theorem modScn_jct (s : State) (n : Nat) (g : Scn → Scn) : (s.modScn n g).jct = s.jct := rfl
@[simp] theorem modScn_sq (s : State) (n : Nat) (g : Scn → Scn) : (s.modScn n g).sq = s.sq := rfl
@[simp] theorem modScn_gcores (s : State) (n : Nat) (g : Scn → Scn) : (s.modScn n g).gcores = s.gcores := rfl
@[simp] theorem modScn_line (s : State) (n : Nat) (g : Scn → Scn) : (s.modScn n g).line = s.line := rfl
@[simp] theorem modScn_hst (s : State) (n : Nat) (g : Scn → Scn) : (s.modScn n g).hst = s.hst := rfl
@[simp] theorem modScn_ldg (s : State) (n : Nat) (g : Scn → Scn) : (s.modScn n g).ldg = s.ldg := rfl
@[simp] theorem modScn_sec (s : State) (n : Nat) (g : Scn → Scn) : (s.modScn n g).sec = s.sec := rfl
@[simp] theorem modScn_bkg (s : State) (n : Nat) (g : Scn → Scn) : (s.modScn n g).bkg = s.bkg := rfl
@[simp] theorem modScn_fx (s : State) (n : Nat) (g : Scn → Scn) : (s.modScn n g).fx = s.fx := rfl
@[simp] theorem modScn_exp (s : State) (n : Nat) (g : Scn → Scn) : (s.modScn n g).exp = s.exp := rfl
@[simp] theorem modScn_foc (s : State) (n : Nat) (g : Scn → Scn) : (s.modScn n g).foc = s.foc := rfl
@[simp] theorem modScn_stp (s : State) (n : Nat) (g : Scn → Scn) : (s.modScn n g).stp = s.stp := rfl
@[simp] theorem modScn_hv (s : State) (n : Nat) (g : Scn → Scn) : (s.modScn n g).hv = s.hv := rfl
@[simp] theorem modScn_fus (s : State) (n : Nat) (g : Scn → Scn) : (s.modScn n g).fus = s.fus := rfl
@[simp] theorem modScn_sns (s : State) (n : Nat) (g : Scn → Scn) : (s.modScn n g).sns = s.sns := rfl
@[simp] theorem modScn_dma (s : State) (n : Nat) (g : Scn → Scn) : (s.modScn n g).dma = s.dma := rfl
@[simp] theorem modScn_plt (s : State) (n : Nat) (g : Scn → Scn) : (s.modScn n g).plt = s.plt := rfl
@[simp] theorem modScn_pwr (s : State) (n : Nat) (g : Scn → Scn) : (s.modScn n g).pwr = s.pwr := rfl
@[simp] theorem modScn_thm (s : State) (n : Nat) (g : Scn → Scn) : (s.modScn n g).thm = s.thm := rfl
@[simp] theorem modScn_sys (s : State) (n : Nat) (g : Scn → Scn) : (s.modScn n g).sys = s.sys := rfl
@[simp] theorem modScn_reg (s : State) (n : Nat) (g : Scn → Scn) (r : Nat) : (s.modScn n g).reg r = s.reg r := rfl
@[simp] theorem modScn_f (s : State) (n : Nat) (g : Scn → Scn) (r h l : Nat) : (s.modScn n g).f r h l = s.f r h l := rfl
@[simp] theorem modScn_fb (s : State) (n : Nat) (g : Scn → Scn) (r i : Nat) : (s.modScn n g).fb r i = s.fb r i := rfl

/-! ### modExp -/

@[simp] theorem modExp_pending (s : State) (n : Nat) (g : Exp → Exp) : (s.modExp n g).pending = s.pending := rfl
@[simp] theorem modExp_fresh (s : State) (n : Nat) (g : Exp → Exp) : (s.modExp n g).fresh = s.fresh := rfl
@[simp] theorem modExp_clk (s : State) (n : Nat) (g : Exp → Exp) : (s.modExp n g).clk = s.clk := rfl
@[simp] theorem modExp_regs (s : State) (n : Nat) (g : Exp → Exp) : (s.modExp n g).regs = s.regs := rfl
@[simp] theorem modExp_held (s : State) (n : Nat) (g : Exp → Exp) : (s.modExp n g).held = s.held := rfl
@[simp] theorem modExp_hwSet (s : State) (n : Nat) (g : Exp → Exp) : (s.modExp n g).hwSet = s.hwSet := rfl
@[simp] theorem modExp_mem (s : State) (n : Nat) (g : Exp → Exp) : (s.modExp n g).mem = s.mem := rfl
@[simp] theorem modExp_poison (s : State) (n : Nat) (g : Exp → Exp) : (s.modExp n g).poison = s.poison := rfl
@[simp] theorem modExp_acc (s : State) (n : Nat) (g : Exp → Exp) : (s.modExp n g).acc = s.acc := rfl
@[simp] theorem modExp_points (s : State) (n : Nat) (g : Exp → Exp) : (s.modExp n g).points = s.points := rfl
@[simp] theorem modExp_pointTimes (s : State) (n : Nat) (g : Exp → Exp) : (s.modExp n g).pointTimes = s.pointTimes := rfl
@[simp] theorem modExp_dramSize (s : State) (n : Nat) (g : Exp → Exp) : (s.modExp n g).dramSize = s.dramSize := rfl
@[simp] theorem modExp_sbx (s : State) (n : Nat) (g : Exp → Exp) : (s.modExp n g).sbx = s.sbx := rfl
@[simp] theorem modExp_tt (s : State) (n : Nat) (g : Exp → Exp) : (s.modExp n g).tt = s.tt := rfl
@[simp] theorem modExp_jct (s : State) (n : Nat) (g : Exp → Exp) : (s.modExp n g).jct = s.jct := rfl
@[simp] theorem modExp_sq (s : State) (n : Nat) (g : Exp → Exp) : (s.modExp n g).sq = s.sq := rfl
@[simp] theorem modExp_gcores (s : State) (n : Nat) (g : Exp → Exp) : (s.modExp n g).gcores = s.gcores := rfl
@[simp] theorem modExp_line (s : State) (n : Nat) (g : Exp → Exp) : (s.modExp n g).line = s.line := rfl
@[simp] theorem modExp_hst (s : State) (n : Nat) (g : Exp → Exp) : (s.modExp n g).hst = s.hst := rfl
@[simp] theorem modExp_ldg (s : State) (n : Nat) (g : Exp → Exp) : (s.modExp n g).ldg = s.ldg := rfl
@[simp] theorem modExp_sec (s : State) (n : Nat) (g : Exp → Exp) : (s.modExp n g).sec = s.sec := rfl
@[simp] theorem modExp_bkg (s : State) (n : Nat) (g : Exp → Exp) : (s.modExp n g).bkg = s.bkg := rfl
@[simp] theorem modExp_fx (s : State) (n : Nat) (g : Exp → Exp) : (s.modExp n g).fx = s.fx := rfl
@[simp] theorem modExp_scn (s : State) (n : Nat) (g : Exp → Exp) : (s.modExp n g).scn = s.scn := rfl
@[simp] theorem modExp_foc (s : State) (n : Nat) (g : Exp → Exp) : (s.modExp n g).foc = s.foc := rfl
@[simp] theorem modExp_stp (s : State) (n : Nat) (g : Exp → Exp) : (s.modExp n g).stp = s.stp := rfl
@[simp] theorem modExp_hv (s : State) (n : Nat) (g : Exp → Exp) : (s.modExp n g).hv = s.hv := rfl
@[simp] theorem modExp_fus (s : State) (n : Nat) (g : Exp → Exp) : (s.modExp n g).fus = s.fus := rfl
@[simp] theorem modExp_sns (s : State) (n : Nat) (g : Exp → Exp) : (s.modExp n g).sns = s.sns := rfl
@[simp] theorem modExp_dma (s : State) (n : Nat) (g : Exp → Exp) : (s.modExp n g).dma = s.dma := rfl
@[simp] theorem modExp_plt (s : State) (n : Nat) (g : Exp → Exp) : (s.modExp n g).plt = s.plt := rfl
@[simp] theorem modExp_pwr (s : State) (n : Nat) (g : Exp → Exp) : (s.modExp n g).pwr = s.pwr := rfl
@[simp] theorem modExp_thm (s : State) (n : Nat) (g : Exp → Exp) : (s.modExp n g).thm = s.thm := rfl
@[simp] theorem modExp_sys (s : State) (n : Nat) (g : Exp → Exp) : (s.modExp n g).sys = s.sys := rfl
@[simp] theorem modExp_reg (s : State) (n : Nat) (g : Exp → Exp) (r : Nat) : (s.modExp n g).reg r = s.reg r := rfl
@[simp] theorem modExp_f (s : State) (n : Nat) (g : Exp → Exp) (r h l : Nat) : (s.modExp n g).f r h l = s.f r h l := rfl
@[simp] theorem modExp_fb (s : State) (n : Nat) (g : Exp → Exp) (r i : Nat) : (s.modExp n g).fb r i = s.fb r i := rfl

/-! ### modCh -/

@[simp] theorem modCh_pending (s : State) (n : Nat) (g : FocCh → FocCh) : (s.modCh n g).pending = s.pending := rfl
@[simp] theorem modCh_fresh (s : State) (n : Nat) (g : FocCh → FocCh) : (s.modCh n g).fresh = s.fresh := rfl
@[simp] theorem modCh_clk (s : State) (n : Nat) (g : FocCh → FocCh) : (s.modCh n g).clk = s.clk := rfl
@[simp] theorem modCh_regs (s : State) (n : Nat) (g : FocCh → FocCh) : (s.modCh n g).regs = s.regs := rfl
@[simp] theorem modCh_held (s : State) (n : Nat) (g : FocCh → FocCh) : (s.modCh n g).held = s.held := rfl
@[simp] theorem modCh_hwSet (s : State) (n : Nat) (g : FocCh → FocCh) : (s.modCh n g).hwSet = s.hwSet := rfl
@[simp] theorem modCh_mem (s : State) (n : Nat) (g : FocCh → FocCh) : (s.modCh n g).mem = s.mem := rfl
@[simp] theorem modCh_poison (s : State) (n : Nat) (g : FocCh → FocCh) : (s.modCh n g).poison = s.poison := rfl
@[simp] theorem modCh_acc (s : State) (n : Nat) (g : FocCh → FocCh) : (s.modCh n g).acc = s.acc := rfl
@[simp] theorem modCh_points (s : State) (n : Nat) (g : FocCh → FocCh) : (s.modCh n g).points = s.points := rfl
@[simp] theorem modCh_pointTimes (s : State) (n : Nat) (g : FocCh → FocCh) : (s.modCh n g).pointTimes = s.pointTimes := rfl
@[simp] theorem modCh_dramSize (s : State) (n : Nat) (g : FocCh → FocCh) : (s.modCh n g).dramSize = s.dramSize := rfl
@[simp] theorem modCh_sbx (s : State) (n : Nat) (g : FocCh → FocCh) : (s.modCh n g).sbx = s.sbx := rfl
@[simp] theorem modCh_tt (s : State) (n : Nat) (g : FocCh → FocCh) : (s.modCh n g).tt = s.tt := rfl
@[simp] theorem modCh_jct (s : State) (n : Nat) (g : FocCh → FocCh) : (s.modCh n g).jct = s.jct := rfl
@[simp] theorem modCh_sq (s : State) (n : Nat) (g : FocCh → FocCh) : (s.modCh n g).sq = s.sq := rfl
@[simp] theorem modCh_gcores (s : State) (n : Nat) (g : FocCh → FocCh) : (s.modCh n g).gcores = s.gcores := rfl
@[simp] theorem modCh_line (s : State) (n : Nat) (g : FocCh → FocCh) : (s.modCh n g).line = s.line := rfl
@[simp] theorem modCh_hst (s : State) (n : Nat) (g : FocCh → FocCh) : (s.modCh n g).hst = s.hst := rfl
@[simp] theorem modCh_ldg (s : State) (n : Nat) (g : FocCh → FocCh) : (s.modCh n g).ldg = s.ldg := rfl
@[simp] theorem modCh_sec (s : State) (n : Nat) (g : FocCh → FocCh) : (s.modCh n g).sec = s.sec := rfl
@[simp] theorem modCh_bkg (s : State) (n : Nat) (g : FocCh → FocCh) : (s.modCh n g).bkg = s.bkg := rfl
@[simp] theorem modCh_fx (s : State) (n : Nat) (g : FocCh → FocCh) : (s.modCh n g).fx = s.fx := rfl
@[simp] theorem modCh_scn (s : State) (n : Nat) (g : FocCh → FocCh) : (s.modCh n g).scn = s.scn := rfl
@[simp] theorem modCh_exp (s : State) (n : Nat) (g : FocCh → FocCh) : (s.modCh n g).exp = s.exp := rfl
@[simp] theorem modCh_stp (s : State) (n : Nat) (g : FocCh → FocCh) : (s.modCh n g).stp = s.stp := rfl
@[simp] theorem modCh_hv (s : State) (n : Nat) (g : FocCh → FocCh) : (s.modCh n g).hv = s.hv := rfl
@[simp] theorem modCh_fus (s : State) (n : Nat) (g : FocCh → FocCh) : (s.modCh n g).fus = s.fus := rfl
@[simp] theorem modCh_sns (s : State) (n : Nat) (g : FocCh → FocCh) : (s.modCh n g).sns = s.sns := rfl
@[simp] theorem modCh_dma (s : State) (n : Nat) (g : FocCh → FocCh) : (s.modCh n g).dma = s.dma := rfl
@[simp] theorem modCh_plt (s : State) (n : Nat) (g : FocCh → FocCh) : (s.modCh n g).plt = s.plt := rfl
@[simp] theorem modCh_pwr (s : State) (n : Nat) (g : FocCh → FocCh) : (s.modCh n g).pwr = s.pwr := rfl
@[simp] theorem modCh_thm (s : State) (n : Nat) (g : FocCh → FocCh) : (s.modCh n g).thm = s.thm := rfl
@[simp] theorem modCh_sys (s : State) (n : Nat) (g : FocCh → FocCh) : (s.modCh n g).sys = s.sys := rfl
@[simp] theorem modCh_reg (s : State) (n : Nat) (g : FocCh → FocCh) (r : Nat) : (s.modCh n g).reg r = s.reg r := rfl
@[simp] theorem modCh_f (s : State) (n : Nat) (g : FocCh → FocCh) (r h l : Nat) : (s.modCh n g).f r h l = s.f r h l := rfl
@[simp] theorem modCh_fb (s : State) (n : Nat) (g : FocCh → FocCh) (r i : Nat) : (s.modCh n g).fb r i = s.fb r i := rfl

/-! ### modBus -/

@[simp] theorem modBus_pending (s : State) (n : Nat) (g : FocBus → FocBus) : (s.modBus n g).pending = s.pending := rfl
@[simp] theorem modBus_fresh (s : State) (n : Nat) (g : FocBus → FocBus) : (s.modBus n g).fresh = s.fresh := rfl
@[simp] theorem modBus_clk (s : State) (n : Nat) (g : FocBus → FocBus) : (s.modBus n g).clk = s.clk := rfl
@[simp] theorem modBus_regs (s : State) (n : Nat) (g : FocBus → FocBus) : (s.modBus n g).regs = s.regs := rfl
@[simp] theorem modBus_held (s : State) (n : Nat) (g : FocBus → FocBus) : (s.modBus n g).held = s.held := rfl
@[simp] theorem modBus_hwSet (s : State) (n : Nat) (g : FocBus → FocBus) : (s.modBus n g).hwSet = s.hwSet := rfl
@[simp] theorem modBus_mem (s : State) (n : Nat) (g : FocBus → FocBus) : (s.modBus n g).mem = s.mem := rfl
@[simp] theorem modBus_poison (s : State) (n : Nat) (g : FocBus → FocBus) : (s.modBus n g).poison = s.poison := rfl
@[simp] theorem modBus_acc (s : State) (n : Nat) (g : FocBus → FocBus) : (s.modBus n g).acc = s.acc := rfl
@[simp] theorem modBus_points (s : State) (n : Nat) (g : FocBus → FocBus) : (s.modBus n g).points = s.points := rfl
@[simp] theorem modBus_pointTimes (s : State) (n : Nat) (g : FocBus → FocBus) : (s.modBus n g).pointTimes = s.pointTimes := rfl
@[simp] theorem modBus_dramSize (s : State) (n : Nat) (g : FocBus → FocBus) : (s.modBus n g).dramSize = s.dramSize := rfl
@[simp] theorem modBus_sbx (s : State) (n : Nat) (g : FocBus → FocBus) : (s.modBus n g).sbx = s.sbx := rfl
@[simp] theorem modBus_tt (s : State) (n : Nat) (g : FocBus → FocBus) : (s.modBus n g).tt = s.tt := rfl
@[simp] theorem modBus_jct (s : State) (n : Nat) (g : FocBus → FocBus) : (s.modBus n g).jct = s.jct := rfl
@[simp] theorem modBus_sq (s : State) (n : Nat) (g : FocBus → FocBus) : (s.modBus n g).sq = s.sq := rfl
@[simp] theorem modBus_gcores (s : State) (n : Nat) (g : FocBus → FocBus) : (s.modBus n g).gcores = s.gcores := rfl
@[simp] theorem modBus_line (s : State) (n : Nat) (g : FocBus → FocBus) : (s.modBus n g).line = s.line := rfl
@[simp] theorem modBus_hst (s : State) (n : Nat) (g : FocBus → FocBus) : (s.modBus n g).hst = s.hst := rfl
@[simp] theorem modBus_ldg (s : State) (n : Nat) (g : FocBus → FocBus) : (s.modBus n g).ldg = s.ldg := rfl
@[simp] theorem modBus_sec (s : State) (n : Nat) (g : FocBus → FocBus) : (s.modBus n g).sec = s.sec := rfl
@[simp] theorem modBus_bkg (s : State) (n : Nat) (g : FocBus → FocBus) : (s.modBus n g).bkg = s.bkg := rfl
@[simp] theorem modBus_fx (s : State) (n : Nat) (g : FocBus → FocBus) : (s.modBus n g).fx = s.fx := rfl
@[simp] theorem modBus_scn (s : State) (n : Nat) (g : FocBus → FocBus) : (s.modBus n g).scn = s.scn := rfl
@[simp] theorem modBus_exp (s : State) (n : Nat) (g : FocBus → FocBus) : (s.modBus n g).exp = s.exp := rfl
@[simp] theorem modBus_stp (s : State) (n : Nat) (g : FocBus → FocBus) : (s.modBus n g).stp = s.stp := rfl
@[simp] theorem modBus_hv (s : State) (n : Nat) (g : FocBus → FocBus) : (s.modBus n g).hv = s.hv := rfl
@[simp] theorem modBus_fus (s : State) (n : Nat) (g : FocBus → FocBus) : (s.modBus n g).fus = s.fus := rfl
@[simp] theorem modBus_sns (s : State) (n : Nat) (g : FocBus → FocBus) : (s.modBus n g).sns = s.sns := rfl
@[simp] theorem modBus_dma (s : State) (n : Nat) (g : FocBus → FocBus) : (s.modBus n g).dma = s.dma := rfl
@[simp] theorem modBus_plt (s : State) (n : Nat) (g : FocBus → FocBus) : (s.modBus n g).plt = s.plt := rfl
@[simp] theorem modBus_pwr (s : State) (n : Nat) (g : FocBus → FocBus) : (s.modBus n g).pwr = s.pwr := rfl
@[simp] theorem modBus_thm (s : State) (n : Nat) (g : FocBus → FocBus) : (s.modBus n g).thm = s.thm := rfl
@[simp] theorem modBus_sys (s : State) (n : Nat) (g : FocBus → FocBus) : (s.modBus n g).sys = s.sys := rfl
@[simp] theorem modBus_reg (s : State) (n : Nat) (g : FocBus → FocBus) (r : Nat) : (s.modBus n g).reg r = s.reg r := rfl
@[simp] theorem modBus_f (s : State) (n : Nat) (g : FocBus → FocBus) (r h l : Nat) : (s.modBus n g).f r h l = s.f r h l := rfl
@[simp] theorem modBus_fb (s : State) (n : Nat) (g : FocBus → FocBus) (r i : Nat) : (s.modBus n g).fb r i = s.fb r i := rfl

/-! ### modStp -/

@[simp] theorem modStp_pending (s : State) (n : Nat) (g : StpCh → StpCh) : (s.modStp n g).pending = s.pending := rfl
@[simp] theorem modStp_fresh (s : State) (n : Nat) (g : StpCh → StpCh) : (s.modStp n g).fresh = s.fresh := rfl
@[simp] theorem modStp_clk (s : State) (n : Nat) (g : StpCh → StpCh) : (s.modStp n g).clk = s.clk := rfl
@[simp] theorem modStp_regs (s : State) (n : Nat) (g : StpCh → StpCh) : (s.modStp n g).regs = s.regs := rfl
@[simp] theorem modStp_held (s : State) (n : Nat) (g : StpCh → StpCh) : (s.modStp n g).held = s.held := rfl
@[simp] theorem modStp_hwSet (s : State) (n : Nat) (g : StpCh → StpCh) : (s.modStp n g).hwSet = s.hwSet := rfl
@[simp] theorem modStp_mem (s : State) (n : Nat) (g : StpCh → StpCh) : (s.modStp n g).mem = s.mem := rfl
@[simp] theorem modStp_poison (s : State) (n : Nat) (g : StpCh → StpCh) : (s.modStp n g).poison = s.poison := rfl
@[simp] theorem modStp_acc (s : State) (n : Nat) (g : StpCh → StpCh) : (s.modStp n g).acc = s.acc := rfl
@[simp] theorem modStp_points (s : State) (n : Nat) (g : StpCh → StpCh) : (s.modStp n g).points = s.points := rfl
@[simp] theorem modStp_pointTimes (s : State) (n : Nat) (g : StpCh → StpCh) : (s.modStp n g).pointTimes = s.pointTimes := rfl
@[simp] theorem modStp_dramSize (s : State) (n : Nat) (g : StpCh → StpCh) : (s.modStp n g).dramSize = s.dramSize := rfl
@[simp] theorem modStp_sbx (s : State) (n : Nat) (g : StpCh → StpCh) : (s.modStp n g).sbx = s.sbx := rfl
@[simp] theorem modStp_tt (s : State) (n : Nat) (g : StpCh → StpCh) : (s.modStp n g).tt = s.tt := rfl
@[simp] theorem modStp_jct (s : State) (n : Nat) (g : StpCh → StpCh) : (s.modStp n g).jct = s.jct := rfl
@[simp] theorem modStp_sq (s : State) (n : Nat) (g : StpCh → StpCh) : (s.modStp n g).sq = s.sq := rfl
@[simp] theorem modStp_gcores (s : State) (n : Nat) (g : StpCh → StpCh) : (s.modStp n g).gcores = s.gcores := rfl
@[simp] theorem modStp_line (s : State) (n : Nat) (g : StpCh → StpCh) : (s.modStp n g).line = s.line := rfl
@[simp] theorem modStp_hst (s : State) (n : Nat) (g : StpCh → StpCh) : (s.modStp n g).hst = s.hst := rfl
@[simp] theorem modStp_ldg (s : State) (n : Nat) (g : StpCh → StpCh) : (s.modStp n g).ldg = s.ldg := rfl
@[simp] theorem modStp_sec (s : State) (n : Nat) (g : StpCh → StpCh) : (s.modStp n g).sec = s.sec := rfl
@[simp] theorem modStp_bkg (s : State) (n : Nat) (g : StpCh → StpCh) : (s.modStp n g).bkg = s.bkg := rfl
@[simp] theorem modStp_fx (s : State) (n : Nat) (g : StpCh → StpCh) : (s.modStp n g).fx = s.fx := rfl
@[simp] theorem modStp_scn (s : State) (n : Nat) (g : StpCh → StpCh) : (s.modStp n g).scn = s.scn := rfl
@[simp] theorem modStp_exp (s : State) (n : Nat) (g : StpCh → StpCh) : (s.modStp n g).exp = s.exp := rfl
@[simp] theorem modStp_foc (s : State) (n : Nat) (g : StpCh → StpCh) : (s.modStp n g).foc = s.foc := rfl
@[simp] theorem modStp_hv (s : State) (n : Nat) (g : StpCh → StpCh) : (s.modStp n g).hv = s.hv := rfl
@[simp] theorem modStp_fus (s : State) (n : Nat) (g : StpCh → StpCh) : (s.modStp n g).fus = s.fus := rfl
@[simp] theorem modStp_sns (s : State) (n : Nat) (g : StpCh → StpCh) : (s.modStp n g).sns = s.sns := rfl
@[simp] theorem modStp_dma (s : State) (n : Nat) (g : StpCh → StpCh) : (s.modStp n g).dma = s.dma := rfl
@[simp] theorem modStp_plt (s : State) (n : Nat) (g : StpCh → StpCh) : (s.modStp n g).plt = s.plt := rfl
@[simp] theorem modStp_pwr (s : State) (n : Nat) (g : StpCh → StpCh) : (s.modStp n g).pwr = s.pwr := rfl
@[simp] theorem modStp_thm (s : State) (n : Nat) (g : StpCh → StpCh) : (s.modStp n g).thm = s.thm := rfl
@[simp] theorem modStp_sys (s : State) (n : Nat) (g : StpCh → StpCh) : (s.modStp n g).sys = s.sys := rfl
@[simp] theorem modStp_reg (s : State) (n : Nat) (g : StpCh → StpCh) (r : Nat) : (s.modStp n g).reg r = s.reg r := rfl
@[simp] theorem modStp_f (s : State) (n : Nat) (g : StpCh → StpCh) (r h l : Nat) : (s.modStp n g).f r h l = s.f r h l := rfl
@[simp] theorem modStp_fb (s : State) (n : Nat) (g : StpCh → StpCh) (r i : Nat) : (s.modStp n g).fb r i = s.fb r i := rfl

/-! ### modEnc -/

@[simp] theorem modEnc_pending (s : State) (n : Nat) (g : StpEnc → StpEnc) : (s.modEnc n g).pending = s.pending := rfl
@[simp] theorem modEnc_fresh (s : State) (n : Nat) (g : StpEnc → StpEnc) : (s.modEnc n g).fresh = s.fresh := rfl
@[simp] theorem modEnc_clk (s : State) (n : Nat) (g : StpEnc → StpEnc) : (s.modEnc n g).clk = s.clk := rfl
@[simp] theorem modEnc_regs (s : State) (n : Nat) (g : StpEnc → StpEnc) : (s.modEnc n g).regs = s.regs := rfl
@[simp] theorem modEnc_held (s : State) (n : Nat) (g : StpEnc → StpEnc) : (s.modEnc n g).held = s.held := rfl
@[simp] theorem modEnc_hwSet (s : State) (n : Nat) (g : StpEnc → StpEnc) : (s.modEnc n g).hwSet = s.hwSet := rfl
@[simp] theorem modEnc_mem (s : State) (n : Nat) (g : StpEnc → StpEnc) : (s.modEnc n g).mem = s.mem := rfl
@[simp] theorem modEnc_poison (s : State) (n : Nat) (g : StpEnc → StpEnc) : (s.modEnc n g).poison = s.poison := rfl
@[simp] theorem modEnc_acc (s : State) (n : Nat) (g : StpEnc → StpEnc) : (s.modEnc n g).acc = s.acc := rfl
@[simp] theorem modEnc_points (s : State) (n : Nat) (g : StpEnc → StpEnc) : (s.modEnc n g).points = s.points := rfl
@[simp] theorem modEnc_pointTimes (s : State) (n : Nat) (g : StpEnc → StpEnc) : (s.modEnc n g).pointTimes = s.pointTimes := rfl
@[simp] theorem modEnc_dramSize (s : State) (n : Nat) (g : StpEnc → StpEnc) : (s.modEnc n g).dramSize = s.dramSize := rfl
@[simp] theorem modEnc_sbx (s : State) (n : Nat) (g : StpEnc → StpEnc) : (s.modEnc n g).sbx = s.sbx := rfl
@[simp] theorem modEnc_tt (s : State) (n : Nat) (g : StpEnc → StpEnc) : (s.modEnc n g).tt = s.tt := rfl
@[simp] theorem modEnc_jct (s : State) (n : Nat) (g : StpEnc → StpEnc) : (s.modEnc n g).jct = s.jct := rfl
@[simp] theorem modEnc_sq (s : State) (n : Nat) (g : StpEnc → StpEnc) : (s.modEnc n g).sq = s.sq := rfl
@[simp] theorem modEnc_gcores (s : State) (n : Nat) (g : StpEnc → StpEnc) : (s.modEnc n g).gcores = s.gcores := rfl
@[simp] theorem modEnc_line (s : State) (n : Nat) (g : StpEnc → StpEnc) : (s.modEnc n g).line = s.line := rfl
@[simp] theorem modEnc_hst (s : State) (n : Nat) (g : StpEnc → StpEnc) : (s.modEnc n g).hst = s.hst := rfl
@[simp] theorem modEnc_ldg (s : State) (n : Nat) (g : StpEnc → StpEnc) : (s.modEnc n g).ldg = s.ldg := rfl
@[simp] theorem modEnc_sec (s : State) (n : Nat) (g : StpEnc → StpEnc) : (s.modEnc n g).sec = s.sec := rfl
@[simp] theorem modEnc_bkg (s : State) (n : Nat) (g : StpEnc → StpEnc) : (s.modEnc n g).bkg = s.bkg := rfl
@[simp] theorem modEnc_fx (s : State) (n : Nat) (g : StpEnc → StpEnc) : (s.modEnc n g).fx = s.fx := rfl
@[simp] theorem modEnc_scn (s : State) (n : Nat) (g : StpEnc → StpEnc) : (s.modEnc n g).scn = s.scn := rfl
@[simp] theorem modEnc_exp (s : State) (n : Nat) (g : StpEnc → StpEnc) : (s.modEnc n g).exp = s.exp := rfl
@[simp] theorem modEnc_foc (s : State) (n : Nat) (g : StpEnc → StpEnc) : (s.modEnc n g).foc = s.foc := rfl
@[simp] theorem modEnc_hv (s : State) (n : Nat) (g : StpEnc → StpEnc) : (s.modEnc n g).hv = s.hv := rfl
@[simp] theorem modEnc_fus (s : State) (n : Nat) (g : StpEnc → StpEnc) : (s.modEnc n g).fus = s.fus := rfl
@[simp] theorem modEnc_sns (s : State) (n : Nat) (g : StpEnc → StpEnc) : (s.modEnc n g).sns = s.sns := rfl
@[simp] theorem modEnc_dma (s : State) (n : Nat) (g : StpEnc → StpEnc) : (s.modEnc n g).dma = s.dma := rfl
@[simp] theorem modEnc_plt (s : State) (n : Nat) (g : StpEnc → StpEnc) : (s.modEnc n g).plt = s.plt := rfl
@[simp] theorem modEnc_pwr (s : State) (n : Nat) (g : StpEnc → StpEnc) : (s.modEnc n g).pwr = s.pwr := rfl
@[simp] theorem modEnc_thm (s : State) (n : Nat) (g : StpEnc → StpEnc) : (s.modEnc n g).thm = s.thm := rfl
@[simp] theorem modEnc_sys (s : State) (n : Nat) (g : StpEnc → StpEnc) : (s.modEnc n g).sys = s.sys := rfl
@[simp] theorem modEnc_reg (s : State) (n : Nat) (g : StpEnc → StpEnc) (r : Nat) : (s.modEnc n g).reg r = s.reg r := rfl
@[simp] theorem modEnc_f (s : State) (n : Nat) (g : StpEnc → StpEnc) (r h l : Nat) : (s.modEnc n g).f r h l = s.f r h l := rfl
@[simp] theorem modEnc_fb (s : State) (n : Nat) (g : StpEnc → StpEnc) (r i : Nat) : (s.modEnc n g).fb r i = s.fb r i := rfl

/-! ### modHv -/

@[simp] theorem modHv_pending (s : State) (n : Nat) (g : HvUnit → HvUnit) : (s.modHv n g).pending = s.pending := rfl
@[simp] theorem modHv_fresh (s : State) (n : Nat) (g : HvUnit → HvUnit) : (s.modHv n g).fresh = s.fresh := rfl
@[simp] theorem modHv_clk (s : State) (n : Nat) (g : HvUnit → HvUnit) : (s.modHv n g).clk = s.clk := rfl
@[simp] theorem modHv_regs (s : State) (n : Nat) (g : HvUnit → HvUnit) : (s.modHv n g).regs = s.regs := rfl
@[simp] theorem modHv_held (s : State) (n : Nat) (g : HvUnit → HvUnit) : (s.modHv n g).held = s.held := rfl
@[simp] theorem modHv_hwSet (s : State) (n : Nat) (g : HvUnit → HvUnit) : (s.modHv n g).hwSet = s.hwSet := rfl
@[simp] theorem modHv_mem (s : State) (n : Nat) (g : HvUnit → HvUnit) : (s.modHv n g).mem = s.mem := rfl
@[simp] theorem modHv_poison (s : State) (n : Nat) (g : HvUnit → HvUnit) : (s.modHv n g).poison = s.poison := rfl
@[simp] theorem modHv_acc (s : State) (n : Nat) (g : HvUnit → HvUnit) : (s.modHv n g).acc = s.acc := rfl
@[simp] theorem modHv_points (s : State) (n : Nat) (g : HvUnit → HvUnit) : (s.modHv n g).points = s.points := rfl
@[simp] theorem modHv_pointTimes (s : State) (n : Nat) (g : HvUnit → HvUnit) : (s.modHv n g).pointTimes = s.pointTimes := rfl
@[simp] theorem modHv_dramSize (s : State) (n : Nat) (g : HvUnit → HvUnit) : (s.modHv n g).dramSize = s.dramSize := rfl
@[simp] theorem modHv_sbx (s : State) (n : Nat) (g : HvUnit → HvUnit) : (s.modHv n g).sbx = s.sbx := rfl
@[simp] theorem modHv_tt (s : State) (n : Nat) (g : HvUnit → HvUnit) : (s.modHv n g).tt = s.tt := rfl
@[simp] theorem modHv_jct (s : State) (n : Nat) (g : HvUnit → HvUnit) : (s.modHv n g).jct = s.jct := rfl
@[simp] theorem modHv_sq (s : State) (n : Nat) (g : HvUnit → HvUnit) : (s.modHv n g).sq = s.sq := rfl
@[simp] theorem modHv_gcores (s : State) (n : Nat) (g : HvUnit → HvUnit) : (s.modHv n g).gcores = s.gcores := rfl
@[simp] theorem modHv_line (s : State) (n : Nat) (g : HvUnit → HvUnit) : (s.modHv n g).line = s.line := rfl
@[simp] theorem modHv_hst (s : State) (n : Nat) (g : HvUnit → HvUnit) : (s.modHv n g).hst = s.hst := rfl
@[simp] theorem modHv_ldg (s : State) (n : Nat) (g : HvUnit → HvUnit) : (s.modHv n g).ldg = s.ldg := rfl
@[simp] theorem modHv_sec (s : State) (n : Nat) (g : HvUnit → HvUnit) : (s.modHv n g).sec = s.sec := rfl
@[simp] theorem modHv_bkg (s : State) (n : Nat) (g : HvUnit → HvUnit) : (s.modHv n g).bkg = s.bkg := rfl
@[simp] theorem modHv_fx (s : State) (n : Nat) (g : HvUnit → HvUnit) : (s.modHv n g).fx = s.fx := rfl
@[simp] theorem modHv_scn (s : State) (n : Nat) (g : HvUnit → HvUnit) : (s.modHv n g).scn = s.scn := rfl
@[simp] theorem modHv_exp (s : State) (n : Nat) (g : HvUnit → HvUnit) : (s.modHv n g).exp = s.exp := rfl
@[simp] theorem modHv_foc (s : State) (n : Nat) (g : HvUnit → HvUnit) : (s.modHv n g).foc = s.foc := rfl
@[simp] theorem modHv_stp (s : State) (n : Nat) (g : HvUnit → HvUnit) : (s.modHv n g).stp = s.stp := rfl
@[simp] theorem modHv_fus (s : State) (n : Nat) (g : HvUnit → HvUnit) : (s.modHv n g).fus = s.fus := rfl
@[simp] theorem modHv_sns (s : State) (n : Nat) (g : HvUnit → HvUnit) : (s.modHv n g).sns = s.sns := rfl
@[simp] theorem modHv_dma (s : State) (n : Nat) (g : HvUnit → HvUnit) : (s.modHv n g).dma = s.dma := rfl
@[simp] theorem modHv_plt (s : State) (n : Nat) (g : HvUnit → HvUnit) : (s.modHv n g).plt = s.plt := rfl
@[simp] theorem modHv_pwr (s : State) (n : Nat) (g : HvUnit → HvUnit) : (s.modHv n g).pwr = s.pwr := rfl
@[simp] theorem modHv_thm (s : State) (n : Nat) (g : HvUnit → HvUnit) : (s.modHv n g).thm = s.thm := rfl
@[simp] theorem modHv_sys (s : State) (n : Nat) (g : HvUnit → HvUnit) : (s.modHv n g).sys = s.sys := rfl
@[simp] theorem modHv_reg (s : State) (n : Nat) (g : HvUnit → HvUnit) (r : Nat) : (s.modHv n g).reg r = s.reg r := rfl
@[simp] theorem modHv_f (s : State) (n : Nat) (g : HvUnit → HvUnit) (r h l : Nat) : (s.modHv n g).f r h l = s.f r h l := rfl
@[simp] theorem modHv_fb (s : State) (n : Nat) (g : HvUnit → HvUnit) (r i : Nat) : (s.modHv n g).fb r i = s.fb r i := rfl

/-! ### modAc -/

@[simp] theorem modAc_pending (s : State) (n : Nat) (g : HvAc → HvAc) : (s.modAc n g).pending = s.pending := rfl
@[simp] theorem modAc_fresh (s : State) (n : Nat) (g : HvAc → HvAc) : (s.modAc n g).fresh = s.fresh := rfl
@[simp] theorem modAc_clk (s : State) (n : Nat) (g : HvAc → HvAc) : (s.modAc n g).clk = s.clk := rfl
@[simp] theorem modAc_regs (s : State) (n : Nat) (g : HvAc → HvAc) : (s.modAc n g).regs = s.regs := rfl
@[simp] theorem modAc_held (s : State) (n : Nat) (g : HvAc → HvAc) : (s.modAc n g).held = s.held := rfl
@[simp] theorem modAc_hwSet (s : State) (n : Nat) (g : HvAc → HvAc) : (s.modAc n g).hwSet = s.hwSet := rfl
@[simp] theorem modAc_mem (s : State) (n : Nat) (g : HvAc → HvAc) : (s.modAc n g).mem = s.mem := rfl
@[simp] theorem modAc_poison (s : State) (n : Nat) (g : HvAc → HvAc) : (s.modAc n g).poison = s.poison := rfl
@[simp] theorem modAc_acc (s : State) (n : Nat) (g : HvAc → HvAc) : (s.modAc n g).acc = s.acc := rfl
@[simp] theorem modAc_points (s : State) (n : Nat) (g : HvAc → HvAc) : (s.modAc n g).points = s.points := rfl
@[simp] theorem modAc_pointTimes (s : State) (n : Nat) (g : HvAc → HvAc) : (s.modAc n g).pointTimes = s.pointTimes := rfl
@[simp] theorem modAc_dramSize (s : State) (n : Nat) (g : HvAc → HvAc) : (s.modAc n g).dramSize = s.dramSize := rfl
@[simp] theorem modAc_sbx (s : State) (n : Nat) (g : HvAc → HvAc) : (s.modAc n g).sbx = s.sbx := rfl
@[simp] theorem modAc_tt (s : State) (n : Nat) (g : HvAc → HvAc) : (s.modAc n g).tt = s.tt := rfl
@[simp] theorem modAc_jct (s : State) (n : Nat) (g : HvAc → HvAc) : (s.modAc n g).jct = s.jct := rfl
@[simp] theorem modAc_sq (s : State) (n : Nat) (g : HvAc → HvAc) : (s.modAc n g).sq = s.sq := rfl
@[simp] theorem modAc_gcores (s : State) (n : Nat) (g : HvAc → HvAc) : (s.modAc n g).gcores = s.gcores := rfl
@[simp] theorem modAc_line (s : State) (n : Nat) (g : HvAc → HvAc) : (s.modAc n g).line = s.line := rfl
@[simp] theorem modAc_hst (s : State) (n : Nat) (g : HvAc → HvAc) : (s.modAc n g).hst = s.hst := rfl
@[simp] theorem modAc_ldg (s : State) (n : Nat) (g : HvAc → HvAc) : (s.modAc n g).ldg = s.ldg := rfl
@[simp] theorem modAc_sec (s : State) (n : Nat) (g : HvAc → HvAc) : (s.modAc n g).sec = s.sec := rfl
@[simp] theorem modAc_bkg (s : State) (n : Nat) (g : HvAc → HvAc) : (s.modAc n g).bkg = s.bkg := rfl
@[simp] theorem modAc_fx (s : State) (n : Nat) (g : HvAc → HvAc) : (s.modAc n g).fx = s.fx := rfl
@[simp] theorem modAc_scn (s : State) (n : Nat) (g : HvAc → HvAc) : (s.modAc n g).scn = s.scn := rfl
@[simp] theorem modAc_exp (s : State) (n : Nat) (g : HvAc → HvAc) : (s.modAc n g).exp = s.exp := rfl
@[simp] theorem modAc_foc (s : State) (n : Nat) (g : HvAc → HvAc) : (s.modAc n g).foc = s.foc := rfl
@[simp] theorem modAc_stp (s : State) (n : Nat) (g : HvAc → HvAc) : (s.modAc n g).stp = s.stp := rfl
@[simp] theorem modAc_fus (s : State) (n : Nat) (g : HvAc → HvAc) : (s.modAc n g).fus = s.fus := rfl
@[simp] theorem modAc_sns (s : State) (n : Nat) (g : HvAc → HvAc) : (s.modAc n g).sns = s.sns := rfl
@[simp] theorem modAc_dma (s : State) (n : Nat) (g : HvAc → HvAc) : (s.modAc n g).dma = s.dma := rfl
@[simp] theorem modAc_plt (s : State) (n : Nat) (g : HvAc → HvAc) : (s.modAc n g).plt = s.plt := rfl
@[simp] theorem modAc_pwr (s : State) (n : Nat) (g : HvAc → HvAc) : (s.modAc n g).pwr = s.pwr := rfl
@[simp] theorem modAc_thm (s : State) (n : Nat) (g : HvAc → HvAc) : (s.modAc n g).thm = s.thm := rfl
@[simp] theorem modAc_sys (s : State) (n : Nat) (g : HvAc → HvAc) : (s.modAc n g).sys = s.sys := rfl
@[simp] theorem modAc_reg (s : State) (n : Nat) (g : HvAc → HvAc) (r : Nat) : (s.modAc n g).reg r = s.reg r := rfl
@[simp] theorem modAc_f (s : State) (n : Nat) (g : HvAc → HvAc) (r h l : Nat) : (s.modAc n g).f r h l = s.f r h l := rfl
@[simp] theorem modAc_fb (s : State) (n : Nat) (g : HvAc → HvAc) (r i : Nat) : (s.modAc n g).fb r i = s.fb r i := rfl

/-! ### modZone -/

@[simp] theorem modZone_pending (s : State) (n : Nat) (g : FusZone → FusZone) : (s.modZone n g).pending = s.pending := rfl
@[simp] theorem modZone_fresh (s : State) (n : Nat) (g : FusZone → FusZone) : (s.modZone n g).fresh = s.fresh := rfl
@[simp] theorem modZone_clk (s : State) (n : Nat) (g : FusZone → FusZone) : (s.modZone n g).clk = s.clk := rfl
@[simp] theorem modZone_regs (s : State) (n : Nat) (g : FusZone → FusZone) : (s.modZone n g).regs = s.regs := rfl
@[simp] theorem modZone_held (s : State) (n : Nat) (g : FusZone → FusZone) : (s.modZone n g).held = s.held := rfl
@[simp] theorem modZone_hwSet (s : State) (n : Nat) (g : FusZone → FusZone) : (s.modZone n g).hwSet = s.hwSet := rfl
@[simp] theorem modZone_mem (s : State) (n : Nat) (g : FusZone → FusZone) : (s.modZone n g).mem = s.mem := rfl
@[simp] theorem modZone_poison (s : State) (n : Nat) (g : FusZone → FusZone) : (s.modZone n g).poison = s.poison := rfl
@[simp] theorem modZone_acc (s : State) (n : Nat) (g : FusZone → FusZone) : (s.modZone n g).acc = s.acc := rfl
@[simp] theorem modZone_points (s : State) (n : Nat) (g : FusZone → FusZone) : (s.modZone n g).points = s.points := rfl
@[simp] theorem modZone_pointTimes (s : State) (n : Nat) (g : FusZone → FusZone) : (s.modZone n g).pointTimes = s.pointTimes := rfl
@[simp] theorem modZone_dramSize (s : State) (n : Nat) (g : FusZone → FusZone) : (s.modZone n g).dramSize = s.dramSize := rfl
@[simp] theorem modZone_sbx (s : State) (n : Nat) (g : FusZone → FusZone) : (s.modZone n g).sbx = s.sbx := rfl
@[simp] theorem modZone_tt (s : State) (n : Nat) (g : FusZone → FusZone) : (s.modZone n g).tt = s.tt := rfl
@[simp] theorem modZone_jct (s : State) (n : Nat) (g : FusZone → FusZone) : (s.modZone n g).jct = s.jct := rfl
@[simp] theorem modZone_sq (s : State) (n : Nat) (g : FusZone → FusZone) : (s.modZone n g).sq = s.sq := rfl
@[simp] theorem modZone_gcores (s : State) (n : Nat) (g : FusZone → FusZone) : (s.modZone n g).gcores = s.gcores := rfl
@[simp] theorem modZone_line (s : State) (n : Nat) (g : FusZone → FusZone) : (s.modZone n g).line = s.line := rfl
@[simp] theorem modZone_hst (s : State) (n : Nat) (g : FusZone → FusZone) : (s.modZone n g).hst = s.hst := rfl
@[simp] theorem modZone_ldg (s : State) (n : Nat) (g : FusZone → FusZone) : (s.modZone n g).ldg = s.ldg := rfl
@[simp] theorem modZone_sec (s : State) (n : Nat) (g : FusZone → FusZone) : (s.modZone n g).sec = s.sec := rfl
@[simp] theorem modZone_bkg (s : State) (n : Nat) (g : FusZone → FusZone) : (s.modZone n g).bkg = s.bkg := rfl
@[simp] theorem modZone_fx (s : State) (n : Nat) (g : FusZone → FusZone) : (s.modZone n g).fx = s.fx := rfl
@[simp] theorem modZone_scn (s : State) (n : Nat) (g : FusZone → FusZone) : (s.modZone n g).scn = s.scn := rfl
@[simp] theorem modZone_exp (s : State) (n : Nat) (g : FusZone → FusZone) : (s.modZone n g).exp = s.exp := rfl
@[simp] theorem modZone_foc (s : State) (n : Nat) (g : FusZone → FusZone) : (s.modZone n g).foc = s.foc := rfl
@[simp] theorem modZone_stp (s : State) (n : Nat) (g : FusZone → FusZone) : (s.modZone n g).stp = s.stp := rfl
@[simp] theorem modZone_hv (s : State) (n : Nat) (g : FusZone → FusZone) : (s.modZone n g).hv = s.hv := rfl
@[simp] theorem modZone_sns (s : State) (n : Nat) (g : FusZone → FusZone) : (s.modZone n g).sns = s.sns := rfl
@[simp] theorem modZone_dma (s : State) (n : Nat) (g : FusZone → FusZone) : (s.modZone n g).dma = s.dma := rfl
@[simp] theorem modZone_plt (s : State) (n : Nat) (g : FusZone → FusZone) : (s.modZone n g).plt = s.plt := rfl
@[simp] theorem modZone_pwr (s : State) (n : Nat) (g : FusZone → FusZone) : (s.modZone n g).pwr = s.pwr := rfl
@[simp] theorem modZone_thm (s : State) (n : Nat) (g : FusZone → FusZone) : (s.modZone n g).thm = s.thm := rfl
@[simp] theorem modZone_sys (s : State) (n : Nat) (g : FusZone → FusZone) : (s.modZone n g).sys = s.sys := rfl
@[simp] theorem modZone_reg (s : State) (n : Nat) (g : FusZone → FusZone) (r : Nat) : (s.modZone n g).reg r = s.reg r := rfl
@[simp] theorem modZone_f (s : State) (n : Nat) (g : FusZone → FusZone) (r h l : Nat) : (s.modZone n g).f r h l = s.f r h l := rfl
@[simp] theorem modZone_fb (s : State) (n : Nat) (g : FusZone → FusZone) (r i : Nat) : (s.modZone n g).fb r i = s.fb r i := rfl

/-! ### setPulse -/

@[simp] theorem setPulse_pending (s : State) (n : Nat) (p : Option Tick) : (s.setPulse n p).pending = s.pending := rfl
@[simp] theorem setPulse_fresh (s : State) (n : Nat) (p : Option Tick) : (s.setPulse n p).fresh = s.fresh := rfl
@[simp] theorem setPulse_clk (s : State) (n : Nat) (p : Option Tick) : (s.setPulse n p).clk = s.clk := rfl
@[simp] theorem setPulse_regs (s : State) (n : Nat) (p : Option Tick) : (s.setPulse n p).regs = s.regs := rfl
@[simp] theorem setPulse_held (s : State) (n : Nat) (p : Option Tick) : (s.setPulse n p).held = s.held := rfl
@[simp] theorem setPulse_hwSet (s : State) (n : Nat) (p : Option Tick) : (s.setPulse n p).hwSet = s.hwSet := rfl
@[simp] theorem setPulse_mem (s : State) (n : Nat) (p : Option Tick) : (s.setPulse n p).mem = s.mem := rfl
@[simp] theorem setPulse_poison (s : State) (n : Nat) (p : Option Tick) : (s.setPulse n p).poison = s.poison := rfl
@[simp] theorem setPulse_acc (s : State) (n : Nat) (p : Option Tick) : (s.setPulse n p).acc = s.acc := rfl
@[simp] theorem setPulse_points (s : State) (n : Nat) (p : Option Tick) : (s.setPulse n p).points = s.points := rfl
@[simp] theorem setPulse_pointTimes (s : State) (n : Nat) (p : Option Tick) : (s.setPulse n p).pointTimes = s.pointTimes := rfl
@[simp] theorem setPulse_dramSize (s : State) (n : Nat) (p : Option Tick) : (s.setPulse n p).dramSize = s.dramSize := rfl
@[simp] theorem setPulse_sbx (s : State) (n : Nat) (p : Option Tick) : (s.setPulse n p).sbx = s.sbx := rfl
@[simp] theorem setPulse_tt (s : State) (n : Nat) (p : Option Tick) : (s.setPulse n p).tt = s.tt := rfl
@[simp] theorem setPulse_jct (s : State) (n : Nat) (p : Option Tick) : (s.setPulse n p).jct = s.jct := rfl
@[simp] theorem setPulse_sq (s : State) (n : Nat) (p : Option Tick) : (s.setPulse n p).sq = s.sq := rfl
@[simp] theorem setPulse_gcores (s : State) (n : Nat) (p : Option Tick) : (s.setPulse n p).gcores = s.gcores := rfl
@[simp] theorem setPulse_line (s : State) (n : Nat) (p : Option Tick) : (s.setPulse n p).line = s.line := rfl
@[simp] theorem setPulse_hst (s : State) (n : Nat) (p : Option Tick) : (s.setPulse n p).hst = s.hst := rfl
@[simp] theorem setPulse_ldg (s : State) (n : Nat) (p : Option Tick) : (s.setPulse n p).ldg = s.ldg := rfl
@[simp] theorem setPulse_sec (s : State) (n : Nat) (p : Option Tick) : (s.setPulse n p).sec = s.sec := rfl
@[simp] theorem setPulse_bkg (s : State) (n : Nat) (p : Option Tick) : (s.setPulse n p).bkg = s.bkg := rfl
@[simp] theorem setPulse_fx (s : State) (n : Nat) (p : Option Tick) : (s.setPulse n p).fx = s.fx := rfl
@[simp] theorem setPulse_scn (s : State) (n : Nat) (p : Option Tick) : (s.setPulse n p).scn = s.scn := rfl
@[simp] theorem setPulse_exp (s : State) (n : Nat) (p : Option Tick) : (s.setPulse n p).exp = s.exp := rfl
@[simp] theorem setPulse_foc (s : State) (n : Nat) (p : Option Tick) : (s.setPulse n p).foc = s.foc := rfl
@[simp] theorem setPulse_stp (s : State) (n : Nat) (p : Option Tick) : (s.setPulse n p).stp = s.stp := rfl
@[simp] theorem setPulse_hv (s : State) (n : Nat) (p : Option Tick) : (s.setPulse n p).hv = s.hv := rfl
@[simp] theorem setPulse_fus (s : State) (n : Nat) (p : Option Tick) : (s.setPulse n p).fus = s.fus := rfl
@[simp] theorem setPulse_dma (s : State) (n : Nat) (p : Option Tick) : (s.setPulse n p).dma = s.dma := rfl
@[simp] theorem setPulse_plt (s : State) (n : Nat) (p : Option Tick) : (s.setPulse n p).plt = s.plt := rfl
@[simp] theorem setPulse_pwr (s : State) (n : Nat) (p : Option Tick) : (s.setPulse n p).pwr = s.pwr := rfl
@[simp] theorem setPulse_thm (s : State) (n : Nat) (p : Option Tick) : (s.setPulse n p).thm = s.thm := rfl
@[simp] theorem setPulse_sys (s : State) (n : Nat) (p : Option Tick) : (s.setPulse n p).sys = s.sys := rfl
@[simp] theorem setPulse_reg (s : State) (n : Nat) (p : Option Tick) (r : Nat) : (s.setPulse n p).reg r = s.reg r := rfl
@[simp] theorem setPulse_f (s : State) (n : Nat) (p : Option Tick) (r h l : Nat) : (s.setPulse n p).f r h l = s.f r h l := rfl
@[simp] theorem setPulse_fb (s : State) (n : Nat) (p : Option Tick) (r i : Nat) : (s.setPulse n p).fb r i = s.fb r i := rfl

/-! ### setDmaCh -/

@[simp] theorem setDmaCh_pending (s : State) (c : Nat) (x : DmaCh) : (s.setDmaCh c x).pending = s.pending := rfl
@[simp] theorem setDmaCh_fresh (s : State) (c : Nat) (x : DmaCh) : (s.setDmaCh c x).fresh = s.fresh := rfl
@[simp] theorem setDmaCh_clk (s : State) (c : Nat) (x : DmaCh) : (s.setDmaCh c x).clk = s.clk := rfl
@[simp] theorem setDmaCh_regs (s : State) (c : Nat) (x : DmaCh) : (s.setDmaCh c x).regs = s.regs := rfl
@[simp] theorem setDmaCh_held (s : State) (c : Nat) (x : DmaCh) : (s.setDmaCh c x).held = s.held := rfl
@[simp] theorem setDmaCh_hwSet (s : State) (c : Nat) (x : DmaCh) : (s.setDmaCh c x).hwSet = s.hwSet := rfl
@[simp] theorem setDmaCh_mem (s : State) (c : Nat) (x : DmaCh) : (s.setDmaCh c x).mem = s.mem := rfl
@[simp] theorem setDmaCh_poison (s : State) (c : Nat) (x : DmaCh) : (s.setDmaCh c x).poison = s.poison := rfl
@[simp] theorem setDmaCh_acc (s : State) (c : Nat) (x : DmaCh) : (s.setDmaCh c x).acc = s.acc := rfl
@[simp] theorem setDmaCh_points (s : State) (c : Nat) (x : DmaCh) : (s.setDmaCh c x).points = s.points := rfl
@[simp] theorem setDmaCh_pointTimes (s : State) (c : Nat) (x : DmaCh) : (s.setDmaCh c x).pointTimes = s.pointTimes := rfl
@[simp] theorem setDmaCh_dramSize (s : State) (c : Nat) (x : DmaCh) : (s.setDmaCh c x).dramSize = s.dramSize := rfl
@[simp] theorem setDmaCh_sbx (s : State) (c : Nat) (x : DmaCh) : (s.setDmaCh c x).sbx = s.sbx := rfl
@[simp] theorem setDmaCh_tt (s : State) (c : Nat) (x : DmaCh) : (s.setDmaCh c x).tt = s.tt := rfl
@[simp] theorem setDmaCh_jct (s : State) (c : Nat) (x : DmaCh) : (s.setDmaCh c x).jct = s.jct := rfl
@[simp] theorem setDmaCh_sq (s : State) (c : Nat) (x : DmaCh) : (s.setDmaCh c x).sq = s.sq := rfl
@[simp] theorem setDmaCh_gcores (s : State) (c : Nat) (x : DmaCh) : (s.setDmaCh c x).gcores = s.gcores := rfl
@[simp] theorem setDmaCh_line (s : State) (c : Nat) (x : DmaCh) : (s.setDmaCh c x).line = s.line := rfl
@[simp] theorem setDmaCh_hst (s : State) (c : Nat) (x : DmaCh) : (s.setDmaCh c x).hst = s.hst := rfl
@[simp] theorem setDmaCh_ldg (s : State) (c : Nat) (x : DmaCh) : (s.setDmaCh c x).ldg = s.ldg := rfl
@[simp] theorem setDmaCh_sec (s : State) (c : Nat) (x : DmaCh) : (s.setDmaCh c x).sec = s.sec := rfl
@[simp] theorem setDmaCh_bkg (s : State) (c : Nat) (x : DmaCh) : (s.setDmaCh c x).bkg = s.bkg := rfl
@[simp] theorem setDmaCh_fx (s : State) (c : Nat) (x : DmaCh) : (s.setDmaCh c x).fx = s.fx := rfl
@[simp] theorem setDmaCh_scn (s : State) (c : Nat) (x : DmaCh) : (s.setDmaCh c x).scn = s.scn := rfl
@[simp] theorem setDmaCh_exp (s : State) (c : Nat) (x : DmaCh) : (s.setDmaCh c x).exp = s.exp := rfl
@[simp] theorem setDmaCh_foc (s : State) (c : Nat) (x : DmaCh) : (s.setDmaCh c x).foc = s.foc := rfl
@[simp] theorem setDmaCh_stp (s : State) (c : Nat) (x : DmaCh) : (s.setDmaCh c x).stp = s.stp := rfl
@[simp] theorem setDmaCh_hv (s : State) (c : Nat) (x : DmaCh) : (s.setDmaCh c x).hv = s.hv := rfl
@[simp] theorem setDmaCh_fus (s : State) (c : Nat) (x : DmaCh) : (s.setDmaCh c x).fus = s.fus := rfl
@[simp] theorem setDmaCh_sns (s : State) (c : Nat) (x : DmaCh) : (s.setDmaCh c x).sns = s.sns := rfl
@[simp] theorem setDmaCh_plt (s : State) (c : Nat) (x : DmaCh) : (s.setDmaCh c x).plt = s.plt := rfl
@[simp] theorem setDmaCh_pwr (s : State) (c : Nat) (x : DmaCh) : (s.setDmaCh c x).pwr = s.pwr := rfl
@[simp] theorem setDmaCh_thm (s : State) (c : Nat) (x : DmaCh) : (s.setDmaCh c x).thm = s.thm := rfl
@[simp] theorem setDmaCh_sys (s : State) (c : Nat) (x : DmaCh) : (s.setDmaCh c x).sys = s.sys := rfl
@[simp] theorem setDmaCh_reg (s : State) (c : Nat) (x : DmaCh) (r : Nat) : (s.setDmaCh c x).reg r = s.reg r := rfl
@[simp] theorem setDmaCh_f (s : State) (c : Nat) (x : DmaCh) (r h l : Nat) : (s.setDmaCh c x).f r h l = s.f r h l := rfl
@[simp] theorem setDmaCh_fb (s : State) (c : Nat) (x : DmaCh) (r i : Nat) : (s.setDmaCh c x).fb r i = s.fb r i := rfl

/-! ### setPltCh -/

@[simp] theorem setPltCh_pending (s : State) (c : Nat) (x : PltCh) : (s.setPltCh c x).pending = s.pending := rfl
@[simp] theorem setPltCh_fresh (s : State) (c : Nat) (x : PltCh) : (s.setPltCh c x).fresh = s.fresh := rfl
@[simp] theorem setPltCh_clk (s : State) (c : Nat) (x : PltCh) : (s.setPltCh c x).clk = s.clk := rfl
@[simp] theorem setPltCh_regs (s : State) (c : Nat) (x : PltCh) : (s.setPltCh c x).regs = s.regs := rfl
@[simp] theorem setPltCh_held (s : State) (c : Nat) (x : PltCh) : (s.setPltCh c x).held = s.held := rfl
@[simp] theorem setPltCh_hwSet (s : State) (c : Nat) (x : PltCh) : (s.setPltCh c x).hwSet = s.hwSet := rfl
@[simp] theorem setPltCh_mem (s : State) (c : Nat) (x : PltCh) : (s.setPltCh c x).mem = s.mem := rfl
@[simp] theorem setPltCh_poison (s : State) (c : Nat) (x : PltCh) : (s.setPltCh c x).poison = s.poison := rfl
@[simp] theorem setPltCh_acc (s : State) (c : Nat) (x : PltCh) : (s.setPltCh c x).acc = s.acc := rfl
@[simp] theorem setPltCh_points (s : State) (c : Nat) (x : PltCh) : (s.setPltCh c x).points = s.points := rfl
@[simp] theorem setPltCh_pointTimes (s : State) (c : Nat) (x : PltCh) : (s.setPltCh c x).pointTimes = s.pointTimes := rfl
@[simp] theorem setPltCh_dramSize (s : State) (c : Nat) (x : PltCh) : (s.setPltCh c x).dramSize = s.dramSize := rfl
@[simp] theorem setPltCh_sbx (s : State) (c : Nat) (x : PltCh) : (s.setPltCh c x).sbx = s.sbx := rfl
@[simp] theorem setPltCh_tt (s : State) (c : Nat) (x : PltCh) : (s.setPltCh c x).tt = s.tt := rfl
@[simp] theorem setPltCh_jct (s : State) (c : Nat) (x : PltCh) : (s.setPltCh c x).jct = s.jct := rfl
@[simp] theorem setPltCh_sq (s : State) (c : Nat) (x : PltCh) : (s.setPltCh c x).sq = s.sq := rfl
@[simp] theorem setPltCh_gcores (s : State) (c : Nat) (x : PltCh) : (s.setPltCh c x).gcores = s.gcores := rfl
@[simp] theorem setPltCh_line (s : State) (c : Nat) (x : PltCh) : (s.setPltCh c x).line = s.line := rfl
@[simp] theorem setPltCh_hst (s : State) (c : Nat) (x : PltCh) : (s.setPltCh c x).hst = s.hst := rfl
@[simp] theorem setPltCh_ldg (s : State) (c : Nat) (x : PltCh) : (s.setPltCh c x).ldg = s.ldg := rfl
@[simp] theorem setPltCh_sec (s : State) (c : Nat) (x : PltCh) : (s.setPltCh c x).sec = s.sec := rfl
@[simp] theorem setPltCh_bkg (s : State) (c : Nat) (x : PltCh) : (s.setPltCh c x).bkg = s.bkg := rfl
@[simp] theorem setPltCh_fx (s : State) (c : Nat) (x : PltCh) : (s.setPltCh c x).fx = s.fx := rfl
@[simp] theorem setPltCh_scn (s : State) (c : Nat) (x : PltCh) : (s.setPltCh c x).scn = s.scn := rfl
@[simp] theorem setPltCh_exp (s : State) (c : Nat) (x : PltCh) : (s.setPltCh c x).exp = s.exp := rfl
@[simp] theorem setPltCh_foc (s : State) (c : Nat) (x : PltCh) : (s.setPltCh c x).foc = s.foc := rfl
@[simp] theorem setPltCh_stp (s : State) (c : Nat) (x : PltCh) : (s.setPltCh c x).stp = s.stp := rfl
@[simp] theorem setPltCh_hv (s : State) (c : Nat) (x : PltCh) : (s.setPltCh c x).hv = s.hv := rfl
@[simp] theorem setPltCh_fus (s : State) (c : Nat) (x : PltCh) : (s.setPltCh c x).fus = s.fus := rfl
@[simp] theorem setPltCh_sns (s : State) (c : Nat) (x : PltCh) : (s.setPltCh c x).sns = s.sns := rfl
@[simp] theorem setPltCh_dma (s : State) (c : Nat) (x : PltCh) : (s.setPltCh c x).dma = s.dma := rfl
@[simp] theorem setPltCh_pwr (s : State) (c : Nat) (x : PltCh) : (s.setPltCh c x).pwr = s.pwr := rfl
@[simp] theorem setPltCh_thm (s : State) (c : Nat) (x : PltCh) : (s.setPltCh c x).thm = s.thm := rfl
@[simp] theorem setPltCh_sys (s : State) (c : Nat) (x : PltCh) : (s.setPltCh c x).sys = s.sys := rfl
@[simp] theorem setPltCh_reg (s : State) (c : Nat) (x : PltCh) (r : Nat) : (s.setPltCh c x).reg r = s.reg r := rfl
@[simp] theorem setPltCh_f (s : State) (c : Nat) (x : PltCh) (r h l : Nat) : (s.setPltCh c x).f r h l = s.f r h l := rfl
@[simp] theorem setPltCh_fb (s : State) (c : Nat) (x : PltCh) (r i : Nat) : (s.setPltCh c x).fb r i = s.fb r i := rfl

/-! ### setPort -/

@[simp] theorem setPort_pending (s : State) (p : Nat) (x : LinePort) : (s.setPort p x).pending = s.pending := by unfold State.setPort; split <;> rfl
@[simp] theorem setPort_fresh (s : State) (p : Nat) (x : LinePort) : (s.setPort p x).fresh = s.fresh := by unfold State.setPort; split <;> rfl
@[simp] theorem setPort_clk (s : State) (p : Nat) (x : LinePort) : (s.setPort p x).clk = s.clk := by unfold State.setPort; split <;> rfl
@[simp] theorem setPort_regs (s : State) (p : Nat) (x : LinePort) : (s.setPort p x).regs = s.regs := by unfold State.setPort; split <;> rfl
@[simp] theorem setPort_held (s : State) (p : Nat) (x : LinePort) : (s.setPort p x).held = s.held := by unfold State.setPort; split <;> rfl
@[simp] theorem setPort_hwSet (s : State) (p : Nat) (x : LinePort) : (s.setPort p x).hwSet = s.hwSet := by unfold State.setPort; split <;> rfl
@[simp] theorem setPort_mem (s : State) (p : Nat) (x : LinePort) : (s.setPort p x).mem = s.mem := by unfold State.setPort; split <;> rfl
@[simp] theorem setPort_poison (s : State) (p : Nat) (x : LinePort) : (s.setPort p x).poison = s.poison := by unfold State.setPort; split <;> rfl
@[simp] theorem setPort_acc (s : State) (p : Nat) (x : LinePort) : (s.setPort p x).acc = s.acc := by unfold State.setPort; split <;> rfl
@[simp] theorem setPort_points (s : State) (p : Nat) (x : LinePort) : (s.setPort p x).points = s.points := by unfold State.setPort; split <;> rfl
@[simp] theorem setPort_pointTimes (s : State) (p : Nat) (x : LinePort) : (s.setPort p x).pointTimes = s.pointTimes := by unfold State.setPort; split <;> rfl
@[simp] theorem setPort_dramSize (s : State) (p : Nat) (x : LinePort) : (s.setPort p x).dramSize = s.dramSize := by unfold State.setPort; split <;> rfl
@[simp] theorem setPort_sbx (s : State) (p : Nat) (x : LinePort) : (s.setPort p x).sbx = s.sbx := by unfold State.setPort; split <;> rfl
@[simp] theorem setPort_tt (s : State) (p : Nat) (x : LinePort) : (s.setPort p x).tt = s.tt := by unfold State.setPort; split <;> rfl
@[simp] theorem setPort_jct (s : State) (p : Nat) (x : LinePort) : (s.setPort p x).jct = s.jct := by unfold State.setPort; split <;> rfl
@[simp] theorem setPort_sq (s : State) (p : Nat) (x : LinePort) : (s.setPort p x).sq = s.sq := by unfold State.setPort; split <;> rfl
@[simp] theorem setPort_gcores (s : State) (p : Nat) (x : LinePort) : (s.setPort p x).gcores = s.gcores := by unfold State.setPort; split <;> rfl
@[simp] theorem setPort_hst (s : State) (p : Nat) (x : LinePort) : (s.setPort p x).hst = s.hst := by unfold State.setPort; split <;> rfl
@[simp] theorem setPort_ldg (s : State) (p : Nat) (x : LinePort) : (s.setPort p x).ldg = s.ldg := by unfold State.setPort; split <;> rfl
@[simp] theorem setPort_sec (s : State) (p : Nat) (x : LinePort) : (s.setPort p x).sec = s.sec := by unfold State.setPort; split <;> rfl
@[simp] theorem setPort_bkg (s : State) (p : Nat) (x : LinePort) : (s.setPort p x).bkg = s.bkg := by unfold State.setPort; split <;> rfl
@[simp] theorem setPort_fx (s : State) (p : Nat) (x : LinePort) : (s.setPort p x).fx = s.fx := by unfold State.setPort; split <;> rfl
@[simp] theorem setPort_scn (s : State) (p : Nat) (x : LinePort) : (s.setPort p x).scn = s.scn := by unfold State.setPort; split <;> rfl
@[simp] theorem setPort_exp (s : State) (p : Nat) (x : LinePort) : (s.setPort p x).exp = s.exp := by unfold State.setPort; split <;> rfl
@[simp] theorem setPort_foc (s : State) (p : Nat) (x : LinePort) : (s.setPort p x).foc = s.foc := by unfold State.setPort; split <;> rfl
@[simp] theorem setPort_stp (s : State) (p : Nat) (x : LinePort) : (s.setPort p x).stp = s.stp := by unfold State.setPort; split <;> rfl
@[simp] theorem setPort_hv (s : State) (p : Nat) (x : LinePort) : (s.setPort p x).hv = s.hv := by unfold State.setPort; split <;> rfl
@[simp] theorem setPort_fus (s : State) (p : Nat) (x : LinePort) : (s.setPort p x).fus = s.fus := by unfold State.setPort; split <;> rfl
@[simp] theorem setPort_sns (s : State) (p : Nat) (x : LinePort) : (s.setPort p x).sns = s.sns := by unfold State.setPort; split <;> rfl
@[simp] theorem setPort_dma (s : State) (p : Nat) (x : LinePort) : (s.setPort p x).dma = s.dma := by unfold State.setPort; split <;> rfl
@[simp] theorem setPort_plt (s : State) (p : Nat) (x : LinePort) : (s.setPort p x).plt = s.plt := by unfold State.setPort; split <;> rfl
@[simp] theorem setPort_pwr (s : State) (p : Nat) (x : LinePort) : (s.setPort p x).pwr = s.pwr := by unfold State.setPort; split <;> rfl
@[simp] theorem setPort_thm (s : State) (p : Nat) (x : LinePort) : (s.setPort p x).thm = s.thm := by unfold State.setPort; split <;> rfl
@[simp] theorem setPort_sys (s : State) (p : Nat) (x : LinePort) : (s.setPort p x).sys = s.sys := by unfold State.setPort; split <;> rfl
@[simp] theorem setPort_reg (s : State) (p : Nat) (x : LinePort) (r : Nat) : (s.setPort p x).reg r = s.reg r := by unfold State.setPort; split <;> rfl
@[simp] theorem setPort_f (s : State) (p : Nat) (x : LinePort) (r h l : Nat) : (s.setPort p x).f r h l = s.f r h l := by unfold State.setPort; split <;> rfl
@[simp] theorem setPort_fb (s : State) (p : Nat) (x : LinePort) (r i : Nat) : (s.setPort p x).fb r i = s.fb r i := by unfold State.setPort; split <;> rfl

/-- Raising an event adds it at the end. -/
@[simp] theorem raise_raised (s : State) (src ev : Nat) :
    (s.raise src ev).sbx.raised = s.sbx.raised ++ [{ src := src, ev := ev, ts := s.now }] := rfl

end Sys2Proof.Machine
end

