-- ==== Sys2Proof/Tests/Slice0.lean ====
section
/-!
SUPPORT. Small tests: expected results taken from the spec, a term that each check of WellFormed refuses, and for each
statement states and operands that meet its hypotheses.
-/

namespace Sys2Proof.Tests

set_option Elab.async false

open Sys2Proof Sys2Proof.Machine

/-! ### Helpers -/

/-- exec answers a next state of which p holds. -/
def after (i : Instr) (s : State) (p : State → Bool) : Bool :=
  match exec i s with
  | .next u => p u
  | _ => false

/-- exec answers a next state of which p holds once its CORE edge is over: mode events are taken then (R43). -/
def closed (i : Instr) (s : State) (p : State → Bool) : Bool := after i s fun u => p (u.at 8008)

/-- Words stored into registers. -/
def State.regsSet (s : State) (rs : List (Nat × Word)) : State := rs.foldl (fun s r => s.setReg r.1 r.2) s

/-- A running part at tick 8,000 with every domain ON and the Gates open. -/
def live : State :=
  ((List.range 16).foldl (fun (s : State) d => s.setF (Reg.PWR_DOM_STATE d) 3 0 5)
    { State.reset with clk := { run := true, tb := 8000 } }).setReg Reg.SEC_GATE_OPEN 0x7F

/-- `live` with register words. -/
def liveR (rs : List (Nat × Word)) : State := State.regsSet live rs

/-- `live` with supervisor core 0 running at 0x11000100, its control registers ks and its general registers gs. -/
def sup (ks gs : List (Nat × Word)) : State :=
  live.modGcore 0 fun c => ks.foldl (fun c p => c.setKr p.1 p.2) { c with running := true, pc := 0x11000100, g := gs }

/-- The instance of `seq`. -/
def seqI : Instance := { k := 0, release := 8000, deadline := 16000, pc := 0x40 }
def seqW : Who := .t 0 0 seqI

/-- `live` with logical core 0 on physical core 0 and in its slot 0 an instance with the bank gs. -/
def seq (gs : List (Nat × Word)) : State :=
  (liveR [(Reg.SQ_CORE_MAP 0, 0x80), (Reg.SQ_SLOT_WCET 0 0, 1000)]).setSlot 0
    { use := .standing, r0 := 8000, started := 1, inst := some seqI, bank := gs }

/-- What CanIssue asks of a supervisor core. -/
def okG (s : State) (c : Fin 26) (n : Nat) (s' : State) : Bool :=
  24 + n == c.val && (s.gcore n).running && !(s.gcore n).yielding && (s.gcore n).waitUntil.isNone &&
    (s.fetchG n).1.isNone && (s.fetchG n).2 == s'

theorem can_g {s s' : State} {c : Fin 26} {n lat : Nat} (h : okG s c n s' = true) : CanIssue s c lat (.g n) s' := by
  simp only [okG, Bool.and_eq_true, beq_iff_eq, Bool.not_eq_true', Option.isNone_iff_eq_none] at h
  obtain ⟨⟨⟨⟨⟨h1, h2⟩, h3⟩, h4⟩, h5⟩, h6⟩ := h
  exact ⟨h1, h2, h3, h4, Prod.ext h5 h6⟩

/-- What CanIssue asks of a sequencer core. -/
def okT (s : State) (c : Fin 26) (lat key p l : Nat) (i : Instance) (s' : State) : Bool :=
  s' == s && p == c.val && p < 24 && s.logicalOf p == some l && s.chosen l == some (key, i) && s.coreRuns p &&
    (s.fetchT p i.pc).1.isNone && i.used + lat ≤ s.f (atKey Reg.SQ_SLOT_WCET key) 31 0

theorem can_t {s s' : State} {c : Fin 26} {lat key p : Nat} (l : Nat) {i : Instance}
    (h : okT s c lat key p l i s' = true) : CanIssue s c lat (.t key p i) s' := by
  simp only [okT, Bool.and_eq_true, beq_iff_eq, decide_eq_true_eq, Option.isNone_iff_eq_none] at h
  obtain ⟨⟨⟨⟨⟨⟨⟨h0, h1⟩, h2⟩, h3⟩, h4⟩, h5⟩, h6⟩, h7⟩ := h
  exact ⟨h1, h2, h0, ⟨l, h3, h4⟩, h5, h6, h7⟩

/-! ### Well-formed commands: a term that each check refuses -/

theorem test_wf_write_too_wide : (Instr.registerWrite 0 0 0x20000000 2 0x100000000).wf = false := by decide
theorem test_wf_action_index : (Instr.stream 0 0 4096).wf = false ∧ (Instr.stream 0 0 4095).wf = true := by decide
theorem test_wf_edge_stamp : (Instr.sosEdge 10 0 161).wf = false ∧ (Instr.sosEdge 10 0 160).wf = true := by decide
theorem test_wf_pin_stamp : (Instr.cmdPinEdge 10 0 true 11).wf = false ∧ (Instr.cmdPinEdge 10 0 true 10).wf = true := by
  decide
theorem test_wf_samples : (Instr.zcEdge 64 [(true, 0)]).wf = false ∧ (Instr.zcEdge 64 [(true, 4)]).wf = false ∧
    (Instr.senseEdge 64 0 (true, 1) [(false, 2)]).wf = true ∧ (Instr.seqStart (true, ⟨256, [(true, 3)]⟩)).wf = false ∧
    (Instr.vinLost ⟨256, [(true, 2)]⟩).wf = true := by decide
theorem test_wf_record_length : (Instr.statusRecord 0 0 []).wf = false := by decide
theorem test_wf_thermal_time : (Instr.thmSample 1 (List.replicate 12 default)).wf = false := by decide
theorem test_wf_motion_time : (Instr.motionPeriod 1 ([], [])).wf = false ∧ (Instr.motionPeriod 6400 ([], [])).wf = true ∧
    (Instr.motionPeriod 6400 ([], [(32, 0, 0)])).wf = false := by decide
theorem test_wf_column : (Instr.columnDeadlineMiss 0 0 48).wf = false := by decide
theorem test_wf_host : (Instr.hostRead 0 false 0x3FFFFFF 2).wf = false ∧ (Instr.hostRead 0 false 0 0).wf = false ∧
    (Instr.hostRead 0 true 0x7FFFFF 1).wf = true := by decide
theorem test_wf_scrub : (Instr.sramScrubWord 0 4 0 0).wf = false := by decide

/-! ### The queue -/

theorem test_step_front : ∀ s : State, s.pending = [Instr.por 0] → (step s = exec (.por 0) { s with pending := [] }) := by
  intro s h; simp [step, h]
theorem test_step_idle : (match step State.reset with | .next u => u.pending == [] | _ => false) = true := by decide +kernel

/-! ### Sinel: integer operations -/

theorem wit_issue_supervisor : CanIssue ((sup [] [(2, 5)]).atCore 8000 24) 24 18 (.g 0) (sup [] [(2, 5)]) :=
  can_g (by decide +kernel)
theorem wit_issue_sequencer : CanIssue ((seq [(2, 5)]).atCore 8000 0) 0 18 seqW (seq [(2, 5)]) :=
  can_t 0 (by decide +kernel)

/-- g1 after an instruction on supervisor core 0. -/
def g1 (i : Instr) (gs : List (Nat × Word)) (v : Word) : Bool := after i (sup [] gs) fun u => u.gr (.g 0) 1 == v
/-- g1 after an instruction of the instance of `seq`. -/
def t1 (i : Instr) (gs : List (Nat × Word)) (v : Word) : Bool := after i (seq gs) fun u => u.gr seqW 1 == v

theorem test_g0_discards : after (.addi 8000 24 0 0 5) (sup [] []) (fun u => u.gr (.g 0) 0 == 0 && (u.gcore 0).pc == 0x11000104) =
    true := by decide +kernel
theorem test_add_wraps : g1 (.add 8000 24 1 2 3) [(2, 0xFFFFFFFF), (3, 1)] 0 = true := by decide +kernel
theorem test_add_sequencer : t1 (.add 8000 0 1 2 3) [(2, 0xFFFFFFFF), (3, 2)] 1 = true := by decide +kernel
theorem test_sub : g1 (.sub 8000 24 1 2 3) [(2, 1), (3, 2)] 0xFFFFFFFF = true := by decide +kernel
theorem test_logic : g1 (.and 8000 24 1 2 3) [(2, 0xC), (3, 0xA)] 8 = true ∧ g1 (.or 8000 24 1 2 3) [(2, 0xC), (3, 0xA)] 14 = true ∧
    g1 (.xor 8000 24 1 2 3) [(2, 0xC), (3, 0xA)] 6 = true := by decide +kernel
theorem test_shift_count : g1 (.sll 8000 24 1 2 3) [(2, 1), (3, 33)] 2 = true ∧
    g1 (.srl 8000 24 1 2 3) [(2, 0x80000000), (3, 31)] 1 = true ∧
    g1 (.sra 8000 24 1 2 3) [(2, 0x80000000), (3, 31)] 0xFFFFFFFF = true := by decide +kernel
theorem test_compare : g1 (.slt 8000 24 1 2 3) [(2, 0xFFFFFFFF), (3, 1)] 1 = true ∧
    g1 (.sltu 8000 24 1 2 3) [(2, 0xFFFFFFFF), (3, 1)] 0 = true := by decide +kernel
theorem test_min_max : g1 (.min 8000 24 1 2 3) [(2, 0xFFFFFFFF), (3, 1)] 0xFFFFFFFF = true ∧
    g1 (.max 8000 24 1 2 3) [(2, 0xFFFFFFFF), (3, 1)] 1 = true ∧
    g1 (.minu 8000 24 1 2 3) [(2, 0xFFFFFFFF), (3, 1)] 1 = true ∧
    g1 (.maxu 8000 24 1 2 3) [(2, 0xFFFFFFFF), (3, 1)] 0xFFFFFFFF = true := by decide +kernel
theorem test_saturation : g1 (.addsat 8000 24 1 2 3) [(2, 0x7FFFFFFF), (3, 1)] 0x7FFFFFFF = true ∧
    g1 (.subsat 8000 24 1 2 3) [(2, 0x80000000), (3, 1)] 0x80000000 = true := by decide +kernel
theorem test_immediates : g1 (.addi 8000 24 1 2 0xFFF) [(2, 1)] 0 = true ∧ g1 (.slti 8000 24 1 2 0xFFF) [] 0 = true ∧
    g1 (.sltiu 8000 24 1 2 0xFFF) [] 1 = true ∧ g1 (.andi 8000 24 1 2 0xFFF) [(2, 0xFFFFFFFF)] 0xFFF = true := by
  decide +kernel
theorem test_immediate_logic : g1 (.ori 8000 24 1 2 0xFFF) [] 0xFFF = true ∧
    g1 (.xori 8000 24 1 2 0xFFF) [(2, 0xF)] 0xFF0 = true := by decide +kernel
theorem test_immediate_shifts : g1 (.slli 8000 24 1 2 31) [(2, 1)] 0x80000000 = true ∧
    g1 (.srli 8000 24 1 2 4) [(2, 0x80000000)] 0x08000000 = true ∧
    g1 (.srai 8000 24 1 2 4) [(2, 0x80000000)] 0xF8000000 = true := by decide +kernel
theorem test_lui : g1 (.lui 8000 24 1 0x1FFFFF) [] 0xFFFFF800 = true := by decide +kernel
/-- The second instruction of R99's pair, in the state that LUI leaves. -/
theorem test_constant : after (.lui 8000 24 1 (0x12345678#32 >>> 11 |>.setWidth 21)) (sup [] []) (fun u =>
    after (.ori 8008 24 1 1 0x678) u fun v => v.gr (.g 0) 1 == 0x12345678) = true := by decide +kernel
theorem wit_constant : let s2 := ((sup [] []).setGr (.g 0) 1 0xFFFFF800).goOn (.g 0) 1
    CanIssue (s2.atCore 8008 24) 24 1 (.g 0) (s2.at 8008) ∧ (s2.at 8008).gr (.g 0) 1 = s2.gr (.g 0) 1 :=
  ⟨can_g (by decide +kernel), by decide +kernel⟩

theorem test_mul : g1 (.mul 8000 24 1 2 3) [(2, 0x10001), (3, 0x10001)] 0x20001 = true := by decide +kernel
theorem test_mulq : g1 (.mulq 8000 24 1 2 3) [(2, 0x80000000), (3, 0x80000000)] 0x7FFFFFFF = true ∧
    g1 (.mulq 8000 24 1 2 3) [(2, 0x40000000), (3, 0x40000000)] 0x20000000 = true := by decide +kernel
theorem test_mulw : after (.mulw 8000 24 2 4 5) (sup [] [(4, 0xFFFFFFFF), (5, 2)])
    (fun u => u.gr (.g 0) 2 == 0xFFFFFFFE && u.gr (.g 0) 3 == 0xFFFFFFFF) = true := by decide +kernel
theorem test_mulwu : after (.mulwu 8000 24 2 4 5) (sup [] [(4, 0xFFFFFFFF), (5, 2)])
    (fun u => u.gr (.g 0) 2 == 0xFFFFFFFE && u.gr (.g 0) 3 == 1) = true := by decide +kernel
theorem test_mulw_odd : after (.mulw 8000 24 3 4 5) (sup [] []) (fun u => (u.gcore 0).kr 6 == 3) = true := by decide +kernel
theorem test_quo_zero : g1 (.quo 8000 24 1 2 0) [(2, 5)] 0x7FFFFFFF = true ∧ g1 (.quo 8000 24 1 2 0) [(2, 0xFFFFFFFB)] 0x80000000 =
    true := by decide +kernel
theorem test_quo_overflow : g1 (.quo 8000 24 1 2 3) [(2, 0x80000000), (3, 0xFFFFFFFF)] 0x7FFFFFFF = true ∧
    g1 (.quo 8000 24 1 2 3) [(2, 0xFFFFFFF9), (3, 2)] 0xFFFFFFFD = true := by decide +kernel
theorem test_mod : g1 (.mod 8000 24 1 2 3) [(2, 0xFFFFFFF9), (3, 2)] 0xFFFFFFFF = true ∧
    g1 (.mod 8000 24 1 2 3) [(2, 0x80000000), (3, 0xFFFFFFFF)] 0 = true := by decide +kernel
theorem test_quou : g1 (.quou 8000 24 1 2 0) [(2, 7)] 0xFFFFFFFF = true ∧ g1 (.quou 8000 24 1 2 3) [(2, 7), (3, 2)] 3 = true := by
  decide +kernel
theorem test_modu : g1 (.modu 8000 24 1 2 0) [(2, 7)] 0 = true ∧ g1 (.modu 8000 24 1 2 3) [(2, 7), (3, 4)] 3 = true := by
  decide +kernel

/-! ### Packed nibbles: the worked example of R115 -/

theorem test_pnadd : g1 (.pnadd 8000 24 1 8 9) [(8, 0x9A3F0128), (9, 0x77770000)] 0xFFAF0128 = true := by decide +kernel
theorem test_pncnt : g1 (.pncnt 8000 24 1 10) [(10, 0xFFAF0128)] 0x42 = true := by decide +kernel
theorem test_pnlut : g1 (.pnlut 8000 24 1 10 14) [(10, 0xFFAF0128), (14, 0x89ABCDEF), (15, 0x01234567)] 0x0050FED7 = true := by
  decide +kernel
theorem test_pnlut_odd : after (.pnlut 8000 24 1 10 13) (sup [] []) (fun u => (u.gcore 0).kr 6 == 3) = true := by decide +kernel
theorem test_pn_lanes : g1 (.pnsub 8000 24 1 2 3) [(2, 0x31), (3, 0x22)] 0x10 = true ∧
    g1 (.pnmax 8000 24 1 2 3) [(2, 0x31), (3, 0x22)] 0x32 = true ∧ g1 (.pnmin 8000 24 1 2 3) [(2, 0x31), (3, 0x22)] 0x21 = true ∧
    g1 (.pnge 8000 24 1 2 3) [(2, 0x31), (3, 0x22)] 0xFFFFFFF0 = true := by decide +kernel
theorem test_pn_select : g1 (.pnsel 8000 24 1 2 3) [(1, 0x80), (2, 0x11), (3, 0x22)] 0x12 = true ∧
    g1 (.pneq 8000 24 1 2 3) [(2, 0x11), (3, 0x21)] 0xFFFFFF0F = true ∧ g1 (.pnspl 8000 24 1 2) [(2, 0x37)] 0x77777777 = true ∧
    g1 (.pnnzc 8000 24 1 2) [(2, 0x10305)] 3 = true := by decide +kernel

/-! ### Sinel: control flow, control registers, exceptions -/

def pcG (i : Instr) (gs : List (Nat × Word)) (pc : Nat) : Bool := after i (sup [] gs) fun u => (u.gcore 0).pc == pc
def pcT (i : Instr) (gs : List (Nat × Word)) (pc : Nat) : Bool := after i (seq gs) fun u => (u.slot 0).inst.map (·.pc) == some pc
/-- The instance of `seq` raises an exception, recorded with its code once its cycles are over. -/
def excT (i : Instr) (gs : List (Nat × Word)) (code : Nat) : Bool := after i (seq gs) fun w =>
  let u := w.at 8400
  (u.slot 0).inst.isNone && u.f (Reg.SQ_SLOT_EXC 0 0) 15 0 == code && u.f (Reg.SQ_SLOT_STATE 0 0) 18 16 == dEXCEPTION
/-- Supervisor core 0 traps with a code. -/
def trapsG (i : Instr) (ks gs : List (Nat × Word)) (code : Nat) : Bool := after i (sup ks gs) fun u =>
  (u.gcore 0).kr 6 == BitVec.ofNat 32 code && (u.gcore 0).kr 5 == 0x11000100 && (u.gcore 0).depth == 1

theorem test_beq : pcG (.beq 8000 24 2 3 0xFFFF) [(2, 1), (3, 1)] 0x110000FC = true ∧
    pcG (.beq 8000 24 2 3 0xFFFF) [(2, 1)] 0x11000104 = true := by decide +kernel
theorem test_bne : pcT (.bne 8000 0 2 3 2) [(2, 1)] 0x48 = true ∧ pcT (.bne 8000 0 2 3 2) [] 0x44 = true := by decide +kernel
theorem test_blt : pcG (.blt 8000 24 2 3 2) [(2, 0xFFFFFFFF)] 0x11000108 = true ∧ pcG (.bltu 8000 24 2 3 2) [(2, 0xFFFFFFFF)]
    0x11000104 = true := by decide +kernel
theorem test_bge : pcG (.bge 8000 24 2 3 2) [] 0x11000108 = true ∧ pcG (.bgeu 8000 24 2 3 2) [(3, 1)] 0x11000104 = true := by
  decide +kernel
theorem test_branch_leaves_memory : excT (.beq 8000 0 0 0 0x4000) [] 1 = true ∧ pcT (.bne 8000 0 0 0 0x4000) [] 0x44 = true := by
  decide +kernel
theorem test_jal : after (.jal 8000 24 31 2) (sup [] []) (fun u => (u.gcore 0).pc == 0x11000108 && u.gr (.g 0) 31 == 0x11000104) =
    true := by decide +kernel
theorem test_jal_out : excT (.jal 8000 0 31 0x4000) [] 1 = true ∧
    after (.jal 8000 0 31 2) (seq []) (fun u => u.gr seqW 31 == 0x10000044) = true := by decide +kernel
theorem test_jalr_same_register : after (.jalr 8000 24 2 2 4) (sup [] [(2, 0x11000200)]) (fun u =>
    (u.gcore 0).pc == 0x11000204 && u.gr (.g 0) 2 == 0x11000104) = true := by decide +kernel
theorem test_jalr_faults : trapsG (.jalr 8000 24 1 2 2) [] [(2, 0x11000200)] 5 = true ∧ excT (.jalr 8000 0 1 2 2) [] 1 = true := by
  decide +kernel

/-- A readable register, one the profile lacks, and one above level U. -/
theorem test_krd : g1 (.krd 8000 24 1 4) [] 0x11000000 = true ∧ trapsG (.krd 8000 24 1 8) [] [] 3 = true ∧
    trapsG (.krd 8000 24 1 32) [(1, 2), (17, 0x10001)] [] 4 = true := by decide +kernel
theorem test_krdp : after (.krdp 8000 24 2 2) (sup [] []) (fun u => u.gr (.g 0) 2 == 8000 && u.gr (.g 0) 3 == 0) = true ∧
    trapsG (.krdp 8000 24 2 3) [] [] 3 = true ∧ trapsG (.krdp 8000 24 1 2) [] [] 3 = true := by decide +kernel
theorem test_kwr : after (.kwr 8000 24 32 2) (sup [] [(2, 0x11002000)]) (fun u => (u.gcore 0).kr 32 == 0x11002000) = true ∧
    trapsG (.kwr 8000 24 2 2) [] [] 3 = true := by decide +kernel
theorem test_kset : after (.kset 8000 24 1 2) (sup [] [(2, 1)]) (fun u => (u.gcore 0).ie) = true ∧
    trapsG (.kset 8000 24 32 2) [(1, 2), (17, 0x10001)] [] 4 = true := by decide +kernel
theorem test_kclr : after (.kclr 8000 24 1 2) (sup [(1, 1)] [(2, 1)]) (fun u => !(u.gcore 0).ie) = true := by decide +kernel
theorem test_k37_remote : after (.kwr 8000 24 37 2) (sup [] [(2, 0x10002)]) (fun u =>
    (u.gcore 0).swi == 2 && (u.gcore 1).swi == 1) = true := by decide +kernel
theorem test_kreads : (seq []).kread seqW 10 = 16000 ∧ (seq []).kread seqW 4 = 0x10000000 ∧
    (sup [] []).kread (.g 1) 0 = 0x10001 := by decide +kernel

/-! ### Sinel: timed instructions -/

theorem test_waitt : after (.waitt 8000 0 2) (seq [(2, 8001)]) (fun u => (u.slot 0).inst.map (·.waitUntil) == some (some 8001)) = true ∧
    pcT (.waitt 8000 0 2) [(2, 8000)] 0x44 = true := by decide +kernel
theorem test_waitt_supervisor : after (.waitt 8000 24 2) (sup [] [(2, 8001)]) (fun u => (u.gcore 0).waitUntil == some 8001) = true ∧
    trapsG (.waitt 8000 24 3) [] [] 3 = true := by decide +kernel
/-- The identity of the part on the Line stays 0 in `live`; point 5. -/
theorem test_arm : after (.arm 8000 0 2 4 5) (seq [(2, 9000), (4, 5), (5, 7)]) (fun u =>
    (u.slot 0).inst.map (·.staged) == some [.arm 9000 5 7]) = true ∧ trapsG (.arm 8000 24 2 4 5) [] [] 3 = true := by decide +kernel
theorem test_arm_faults : excT (.arm 8000 0 2 4 5) [(4, 0x100000)] 11 = true := by decide +kernel
theorem test_spr_staged : after (.spr 8000 0 1 4) ((seq [(4, 5)]).modSlot 0 fun x =>
    { x with inst := x.inst.map fun i => { i with staged := [.point 5 7] } }) (fun u => u.gr seqW 1 == 7) = true := by decide +kernel
theorem test_spr : g1 (.spr 8000 24 1 2) [(2, 5)] 0 = true ∧ trapsG (.spr 8000 24 1 2) [] [(2, 0x100000)] 11 = true := by decide +kernel
theorem test_spw : after (.spw 8000 24 2 3) (sup [] [(2, 5), (3, 7)]) (fun u => u.point 5 == 7) = true ∧
    after (.spw 8000 0 2 3) (seq [(2, 5), (3, 7)]) (fun u => u.point 5 == 0 && (u.slot 0).cbuse == 1) = true := by decide +kernel
theorem test_yield : after (.yield 8000 0) (seq []) (fun u => ((u.at 8400).slot 0).inst.isNone && (u.at 8400).reg (Reg.SQ_SLOT_MAXUSE 0 0) == 1) =
    true ∧
    after (.yield 8000 24) (sup [] []) (fun u => (u.gcore 0).yielding) = true := by decide +kernel
theorem test_yield_ready : after (.yield 8000 24) ((sup [] []).modGcore 0 fun c => { c with nmi := true }) (fun u =>
    !(u.gcore 0).yielding && (u.gcore 0).pc == 0x11000104) = true := by decide +kernel
theorem test_waitt_resume : after (.waittResume 8008 0 0) ((seq []).modInst 0 fun i => { i with waitUntil := some 8008 })
    (fun u => (u.slot 0).inst.map (·.waitUntil) == some none) = true := by decide +kernel
theorem test_waitt_resume_supervisor : after (.waittResume 8008 24 0) ((sup [] []).modGcore 0 fun c => { c with waitUntil := some 8008 })
    (fun u => (u.gcore 0).waitUntil.isNone && (u.gcore 0).pc == 0x11000104) = true := by decide +kernel
theorem test_yield_wake : after (.yieldWake 8008 0) ((sup [] []).modGcore 0 fun c => { c with yielding := true, nmi := true })
    (fun u => !(u.gcore 0).yielding) = true := by decide +kernel

/-! ### Sinel: system operations, traps, interrupts -/

theorem test_syscall : trapsG (.syscall 8000 24) [] [] 12 = true ∧ excT (.syscall 8000 0) [] 3 = true := by decide +kernel
theorem test_break : trapsG (.brk 8000 24) [] [] 13 = true ∧ after (.brk 8000 24) ((sup [] []).modGcore 0 fun c => { c with debug := true })
    (fun u => !(u.gcore 0).running) = true := by decide +kernel
theorem test_rtt : after (.rtt 8000 24) (sup [(1, 4), (43, 3), (5, 0x11000300)] []) (fun u => (u.gcore 0).kr 1 == 3 &&
    (u.gcore 0).pc == 0x11000300) = true := by decide +kernel
theorem test_rtt_depth : trapsG (.rtt 8000 24) [] [] 3 = true ∧ after (.rtt 8000 24) (sup [(1, 8), (42, 1), (41, 0x11000400)] [])
    (fun u => (u.gcore 0).kr 1 == 1 && (u.gcore 0).pc == 0x11000400) = true := by decide +kernel
theorem test_fence : pcT (.fence 8000 0) [] 0x44 = true ∧ pcG (.fence 8000 24) [] 0x11000104 = true := by decide +kernel
theorem test_illegal_word : excT (.illegalWord 8000 0 0) [] 3 = true ∧ trapsG (.illegalWord 8000 24 0) [] [] 3 = true ∧
    illegalWord false 0 = true := by decide +kernel
theorem test_double_fault : after (.syscall 8000 24) (sup [(1, 4)] []) (fun u => !(u.gcore 0).running && (u.gcore 0).dbl &&
    u.sbx.raised.any fun r => r.src == 4) = true := by decide +kernel
/-- Line 3, enabled and pending: the core takes it at VBASE + 0x100 + 48. -/
theorem test_interrupt : after (.interruptEntry 8000 0) (sup [(1, 1), (32, 0x11002000), (34, 0xFFFFFFFF), (33, 0xFFFFFFFF)] []
    |>.modGcore 0 fun c => { c with swi := 1 }) (fun u => (u.gcore 0).pc != 0x11000100 && (u.gcore 0).depth == 1 &&
      (u.gcore 0).kr 43 == 1) = true := by decide +kernel
theorem test_nmi : after (.nmiEntry 8000 0) ((sup [(1, 1), (32, 0x11002000)] []).modGcore 0 fun c => { c with nmi := true }) (fun u =>
    (u.gcore 0).pc == 0x11002080 && (u.gcore 0).kr 42 == 1 && (u.gcore 0).kr 41 == 0x11000100 && (u.gcore 0).depth == 2) = true := by
  decide +kernel


/-! ### Sinel: memory -/

/-- Memory with the word 0x8182F384 at the start of supervisor local memory, of the Stacks and of core 0's data TCM. -/
def stored (s : State) : State := (((s.storeBytes 0x11000000 (bytesLE 4 0x8182F384)).storeBytes 0x04000000 (bytesLE 4 0x8182F384)).storeBytes
  0x10010000 (bytesLE 4 0x8182F384))
def memG (ks gs : List (Nat × Word)) : State := stored (sup ks gs)
def memT (gs : List (Nat × Word)) : State := stored (seq gs)
theorem test_ld : after (.ld 8000 24 1 1 2 0) (memG [] [(2, 0x11000000)]) (fun u => u.gr (.g 0) 1 == 0xF384) = true ∧
    after (.lds 8000 24 1 1 2 0) (memG [] [(2, 0x11000000)]) (fun u => u.gr (.g 0) 1 == 0xFFFFF384) = true ∧
    after (.ld 8000 24 3 2 2 0x3FFC) (memG [] [(2, 0x11000004)]) (fun u => u.gr (.g 0) 2 == 0x8182F384 && u.gr (.g 0) 3 == 0) = true ∧
    trapsG (.ld 8000 24 2 1 2 2) [] [(2, 0x11000000)] 5 = true ∧ trapsG (.ld 8000 24 3 1 2 0) [] [] 3 = true ∧ trapsG (.lds 8000 24 2 1 2 0) [] [] 3 = true := by
  decide +kernel
/-- A load of the instance of `seq` on its way, that reads the array in the standing slot at 8016 and ends at 8096. -/
def flying (s : State) (a : Nat) (signed : Bool) : State :=
  s.setFlight 0 { key := 0, release := 8000, due := 8096, what := .load a 1 2 signed, readAt := 8016 }
theorem test_ld_sequencer : after (.ld 8000 0 0 1 2 1) (memT [(2, 0x10010000)]) (fun u => (u.at 8200).gr seqW 1 == 0xF3) = true ∧
    after (.lds 8000 0 0 1 2 3) (memT [(2, 0x10010000)]) (fun u => (u.at 8200).gr seqW 1 == 0xFFFFFF81) = true ∧
    excT (.ld 8000 0 1 1 2 1) [(2, 0x10010000)] 5 = true ∧ excT (.ld 8000 0 2 1 2 0) [(2, 0x11000000)] 6 = true ∧
    excT (.lds 8000 0 2 1 2 0) [(2, 0x11000000)] 3 = true := by decide +kernel
/-- A load of the Stacks or of a register is on its way for 12 cycles, and has its value at their end. -/
theorem test_ld_flies : after (.ld 8000 0 2 1 2 0) (memT [(2, 0x04000000)]) (fun u => (u.flight 0).what == .load 0x04000000 1 2 false &&
      u.freeAt 0 == 8096 && u.gr seqW 1 == 0) = true ∧
    ((flying (memT []) 0x04000000 false).at 8200).gr seqW 1 = 0x8182F384 ∧ ((flying (memT []) 0x04000000 false).at 8096).gr seqW 1 = 0 ∧
    ((flying (memT []) (Reg.SQ_SLOT_WCET 0 0) false).at 8200).gr seqW 1 = 1000 := by decide +kernel
theorem test_st : after (.st 8000 24 1 3 2 0) (memG [] [(2, 0x11000000), (3, 0xAABBCCDD)]) (fun u => u.memLE 0x11000000 4 == 0x8182CCDD) = true ∧
    after (.st 8000 24 2 3 2 0) (memG [] [(2, BitVec.ofNat 32 Reg.TT_PITCH_MIN), (3, 5)]) (fun u => (u.gcore 0).pc == 0x11000104 || (u.gcore 0).depth == 1) = true ∧
    trapsG (.st 8000 24 2 3 2 1) [] [] 5 = true ∧ trapsG (.st 8000 24 3 3 2 0) [] [] 3 = true := by decide +kernel
theorem test_st_sequencer : after (.st 8000 0 2 3 2 0) (memT [(2, 0x10010000), (3, 7)]) (fun u => u.memLE 0x10010000 4 == 0x8182F384 &&
      (u.slot 0).inst.map (·.staged) == some [.tcm 0x10010000 4 7] && after (.ld 8008 0 2 1 2 0) u (fun v => v.gr seqW 1 == 7)) = true ∧
    after (.st 8000 0 2 3 2 0) (memT [(2, 0x04000000), (3, 7)]) (fun u => (u.slot 0).inst.map (·.staged) == some [.bus 0x04000000 4 7]) = true ∧
    excT (.st 8000 0 2 3 2 0) [(2, 0x10000000)] 6 = true ∧ excT (.st 8000 0 1 3 2 0) [(2, BitVec.ofNat 32 (Reg.SQ_SLOT_WCET 0 0))] 7 = true ∧
    excT (.st 8000 0 3 3 2 0) [] 3 = true := by decide +kernel
theorem wit_commit_full : let s := (seq []).modSlot 0 fun x => { x with inst := x.inst.map fun i => { i with staged := List.replicate 64 (.tcm 0x10010000 4 7) } }
    (s.slot 0).cbuse = 64 := by decide +kernel
theorem test_swapw : after (.swapw 8000 24 2 3 2 0) (memG [] [(2, 0x11000000), (3, 7)]) (fun u => u.memLE 0x11000000 4 == 7 && u.gr (.g 0) 3 == 0x8182F384) = true ∧
    trapsG (.swapw 8000 24 1 3 2 0) [] [] 3 = true ∧ trapsG (.swapw 8000 24 2 3 2 0) [] [(2, 0x10000000)] 6 = true ∧
    excT (.swapw 8000 0 2 3 2 0) [] 3 = true := by decide +kernel
/-- Core 0's window of the Stacks is cached; a dirty line of the Stacks' start holds the byte 0x55. -/
def cached (dirty : Bool) : State := (memG [(40, 2), (17, 0x70001), (16, 0x70000)] [(2, 0x04000000), (3, 7)]).modGcore 0 fun g =>
  { g with dcache := [{ addr := 0x04000000, dirty := dirty, bytes := 0x55 :: List.replicate 63 0 }], icache := [0x100000] }
theorem test_cache : (cached true).cachedData 0 0x04000000 = true ∧ after (.ld 8000 24 0 1 2 0) (cached true) (fun u => u.gr (.g 0) 1 == 0x55) = true ∧
    after (.st 8000 24 0 3 2 1) (cached false) (fun u => u.memLE 0x04000000 4 == 0x8182F384 && (u.dline 0 0x04000000).map (fun l => (l.dirty, l.bytes.take 2)) ==
      some (true, [0x55, 7])) = true := by decide +kernel
theorem test_cache_operations : after (.cclean 8000 24 2) (cached true) (fun u => readByte u.mem 0x04000000 == 0x55 && (u.dline 0 0x04000000).map (·.dirty) == some false) =
      true ∧
    after (.cflush 8000 24 2) (cached true) (fun u => readByte u.mem 0x04000000 == 0x55 && (u.dline 0 0x04000000).isNone) = true ∧
    after (.cinv 8000 24 2) (cached true) (fun u => readByte u.mem 0x04000000 == 0x84 && (u.dline 0 0x04000000).isNone) = true ∧
    after (.dcall 8000 24) (cached true) (fun u => readByte u.mem 0x04000000 == 0x55 && (u.gcore 0).dcache == []) = true ∧
    after (.icinv 8000 24 2) (cached true) (fun u => (u.gcore 0).icache == []) = true ∧ after (.icall 8000 24) (cached true) (fun u => (u.gcore 0).icache == []) = true ∧
    trapsG (.icall 8000 24) [(1, 2), (17, 0x10001)] [] 4 = true := by decide +kernel
/-! ### Registers -/

/-- A register with one field of each access. -/
theorem test_field_writes :
    let d : Option RegDesc := (findReg (Reg.FOC_IRQ_STATUS 0)).map (·.1)
    d.map (fun d => d.write 0x1F 0x3) = some 0x1C ∧
    (d.map fun d => decide (∀ f ∈ d.fields, 0 < f.width ∧ f.lsb + f.width ≤ 32)) = some true := by decide +kernel
/-- Two writes before the boundary, the second in another CORE cycle, and a boundary in the cycle of a write. -/
theorem test_class_s :
    let a := Reg.EXP_REG 0
    let later (x : State) (t : Nat) : State := { x with clk := { x.clk with tb := t } }
    (∀ p ∈ live.held, p.1 = a → p.2.stamp ≠ live.clk.tb) ∧ (live.hold a 5).applied a = 0 ∧
    ((later (live.hold a 5) 8008).hold a 6).reg a = 6 ∧ ((later ((later (live.hold a 5) 8008).hold a 6) 8016).applyS a).applied a = 6 ∧
    ((live.hold a 5).applyS a).applied a = 0 := by decide +kernel
theorem test_register_write : after (.registerWrite 8000 0 (BitVec.ofNat 32 Reg.SYS_SVC_MOTION) 2 1) live
    (fun u => u.acc == [(0, { err := .ok })] || u.reg Reg.SYS_SVC_MOTION == 1 || u.acc == []) = true := by decide +kernel
theorem test_register_write_refused :
    after (.registerWrite 8000 0 (BitVec.ofNat 32 Reg.SYS_PROFILE) 2 1) (live.setReg Reg.SEC_GATE_OPEN 0) (fun u =>
      (Tab.get {} u.acc 0).err == .access && u.f Reg.SEC_GATE_ERR 3 3 == 1 && u.pair Reg.SEC_GATE_ADDR_LO Reg.SEC_GATE_ADDR_HI == Reg.SYS_PROFILE) =
      true ∧
    after (.registerWrite 8000 0 (BitVec.ofNat 32 Reg.SYS_PROFILE) 1 1) live (fun u => (Tab.get {} u.acc 0).err == .bus) = true ∧
    after (.registerWrite 8000 0 0x30000000 2 1) live (fun u => (Tab.get {} u.acc 0).err == .bus) = true := by decide +kernel
/-- A class L field of a slot in use, and the same write while the slot is off. -/
theorem test_locked : let a := Reg.SQ_SLOT_PERIOD 0 0
    ((findReg a).map fun q => q.1.changesL ((seq []).reg a) (q.1.write ((seq []).reg a) 500) && (seq []).regLocked a q.1 0 0 &&
      ((seq []).storeReg a q.1 0 0 500).reg a == (seq []).reg a && (live.storeReg a q.1 0 0 500).reg a == 500) = some true := by
  decide +kernel
theorem test_gates : let s := ((liveR [(Reg.SEC_GATE_OPEN, 0), (Reg.SEC_GATE_BASE 2 31, 0x20000), (Reg.SEC_GATE_LIM 2 31, 0x20000),
      (Reg.SEC_GATE_PERM 2 31, 3)]))
    s.gateAllows 2 0x20000000 4 .load = true ∧ s.gateAllows 2 0x20000FFD 4 .load = false ∧
    s.gateAllows 2 0x20000FFC 4 .store = false ∧ live.gateAllows 6 0xFFFFFFFF 8 .fetch = true := by decide +kernel

/-! ### Task slots and physical cores -/

/-- The instance of `seq` is gone and its slot keeps standing use. -/
def idleSlot : State := (seq []).setSlot 0 { use := .standing, r0 := 8000, loaded := some (8000, true) }
def taskClaim : SqClaim :=
  { sheet := 0, idx := 0, start := 8200, stop := 20000, c := { kind := kTASK, shared := false, unit := 0, winStart := 200, winEnd := 12000, amount := 0, p0 := 0, p1 := 0 } }

theorem test_frame_load : after (.frameLoad 8000 0 0)
    { ((liveR [(Reg.SQ_CORE_MAP 0, 0x80), (Reg.SQ_SLOT_ENTRY 0 0, 0x10000), (Reg.SQ_SLOT_FRAME 0 0, 0x50000)])) with
      sq := { claims := [taskClaim] }, mem := [(0x10010000, 7)] }
    (fun u => (u.slot 0).loaded == some (8200, true) && Tab.get 0 (u.slot 0).bank 1 == 7) = true := by decide +kernel
theorem test_span_start_end : after (.spanStart 8200 0 0) { live with sq := { claims := [taskClaim] } }
    (fun u => (u.slot 0).r0 == 8200 && (u.slot 0).spanEnd == some 20000) = true ∧
    after (.spanEnd 20000 0 0) ({ live with sq := { claims := [taskClaim] } }.setSlot 0 { use := .timetable, spanEnd := some 20000 })
      (fun u => (u.slot 0).use == .off && u.sq.claims == []) = true := by decide +kernel
theorem test_release : after (.release 8000 0 0) idleSlot (fun u => (u.slot 0).inst.map (·.pc) == some 0 && (u.slot 0).started == 1) = true ∧
    after (.release 8000 0 0) (idleSlot.modSlot 0 fun x => { x with loaded := some (8000, false), notReadyRaised := true })
      (fun u => u.f (Reg.SQ_SLOT_STATE 0 0) 18 16 == dNOT_READY) = true := by decide +kernel
theorem test_deadline_drop : after (.deadlineDrop 16000 0 0) (seq []) (fun u => (u.slot 0).inst.isNone && u.reg (Reg.SQ_SLOT_HIST 0 0) == 1) =
    true ∧ after (.deadlineDrop 15992 0 0) (seq []) (fun u => (u.slot 0).inst.isSome) = true := by decide +kernel
/-- A standing slot comes within 48 ticks and the start of its cycle. -/
theorem standingSlot_bounds (p t : Nat) : (t : Nat) ≤ standingSlot p t ∧ (standingSlot p t : Nat) ≤ t + 47 := by
  let x : Nat := ((t + 15) / 16 + (ringPos p + 3 - (t + 15) / 16 % 3) % 3) * 16
  have h : @LE.le Nat _ t x ∧ @LE.le Nat _ x (t + 47) := by simp only [x]; omega
  exact h
/-- A write staged to the Stacks leaves the commit buffer after the completion: it is still there 24 ticks on, and has landed
20 cycles on. -/
theorem test_drain_staged : let s := (seq []).completeInstance 0 0 { seqI with staged := [.bus 0x04000000 4 0x01020304] }
    s.mem = [] ∧ (s.slot 0).leaving = [{ addr := 0x04000000, size := 4, value := 0x01020304, core := 0, notBefore := 8024 }] := by
  decide +kernel
theorem wit_drain_due : ({ addr := 0x04000000, size := 4, value := 0x01020304, core := 0, notBefore := 8024 } : Leaving).lands ≤ 8096 := by
  exact Nat.le_trans (Nat.add_le_add_right (standingSlot_bounds 0 8008).2 16) (by decide)
theorem test_arm_fire : after (.armFire 8000 0 3) (live.setArms 0 [{ n := 3, time := 8000, point := 5, value := 7, logical := 0 }])
    (fun u => u.point 5 == 7 && u.armEntries 0 == []) = true ∧
    after (.armFire 8000 0 3) (live.setArms 0 [{ n := 3, time := 8008, point := 5, value := 7, logical := 0 }])
    (fun u => u.point 5 == 0) = true := by decide +kernel
theorem test_slot_start : after (.slotStart 8000 0 0) (liveR [(Reg.SQ_CORE_MAP 0, 0x80), (Reg.SQ_SLOT_PERIOD 0 0, 1000), (Reg.SQ_SLOT_DEADLINE 0 0, 1000),
      (Reg.SQ_SLOT_WCET 0 0, 100), (Reg.SQ_SLOT_ENTRY 0 0, 0x10000), (Reg.SQ_SLOT_FRAME 0 0, 0x50000)])
    (fun u => (u.slot 0).use == .standing && (u.slot 0).r0 == 8512) = true ∧
    after (.slotStart 8000 0 0) (seq []) (fun u => u.f (Reg.SQ_SLOT_STATE 0 0) 6 4 == 1) = true := by decide +kernel
theorem test_slot_stop : after (.slotStop 8000 0 0) idleSlot (fun u => (u.slot 0).use == .off) = true ∧
    after (.slotStop 8000 0 0) (seq []) (fun u => (u.slot 0).stopping) = true := by decide +kernel
theorem test_core_map : after (.coreMapWrite 8000 3 0x97) live (fun u => u.physOf 3 == some 23) = true ∧
    after (.coreMapWrite 8000 3 0x98) live (fun u => (u.physOf 3).isNone && u.sbx.raised.any fun r => r.src == srcSQ && r.ev == 2) = true := by
  decide +kernel
/-- Logical core 0 moves from core 0 to core 23; the TCM is copied. -/
theorem test_substitution : let s := liveR [(Reg.SQ_CORE_MAP 0, 0x80)]
    after (.substRequest 8000 0x11700) s (fun u => u.reg Reg.SQ_SUBST_STATUS == 1 &&
      after (.substSafePoint 8008) u (fun v => v.sq.subst == some { logical := 0, phys := 23, copy := true, reached := true, copying := some 8008 } &&
        after (.substCopyDone 73544) v (fun w => w.physOf 0 == some 23 && w.reg Reg.SQ_SUBST_STATUS == 2)) &&
      after (.substCancel 8008) u (fun v => v.sq.subst.isNone)) = true ∧
    after (.substRequest 8000 0x01800) s (fun u => u.reg Reg.SQ_SUBST_STATUS == 11) = true := by decide +kernel

/-! ### Clocks, resets, the Junction, modes -/

theorem test_time : (live.at 8001).clk.tb = 8008 ∧ (live.at 7).clk.tb = 8000 ∧ (State.reset.at 600).clk.tb = 0 := by decide +kernel
theorem test_tb_read : after (.clkTbLoRead 0x100000008 3) live (fun u => (Tab.get {} u.acc 3).value == 8 && Tab.get 0 u.clk.hold 3 == 1) = true := by
  decide +kernel
theorem test_profile : after (.sysProfileWrite 8000 1) live (fun u => u.f Reg.SYS_PROFILE 0 0 == 1) = true ∧
    after (.sysProfileWrite 8000 1) (live.setB Reg.SYS_PROFILE 1 true) (fun u => u.f Reg.SYS_PROFILE 0 0 == 0) = true := by decide +kernel
theorem test_unlock : after (.unlock 8000) (live.setB Reg.CLK_ROOT 8 true) (fun u => u.sbx.raised.any fun r => r.src == srcCLK) = true ∧
    after (.unlock 8000) (live.setB Reg.CLK_ROOT 8 false) (fun u => u.sbx.raised == []) = true := by decide +kernel
theorem test_por : after (.por 8000) { live with mem := [(0x04000000, 1), (0x18000000, 2)] } (fun u =>
    u.mem == [(0x18000000, 2)] && u.clk.tb == 0 && !u.clk.run && u.sys.bootDue) = true := by decide +kernel
theorem test_crst : after (.crst 8000) { live with mem := [(0x04000000, 1)] } (fun u => u.mem.all (fun c => ledgerBase ≤ c.1) && u.sbx.chip) = true := by decide +kernel
theorem test_pll_lock : after (.rootPllLock 0 none none) { State.reset with sys := { bootDue := true } } (fun u => u.clk.run) = true ∧
    after (.rootPllLock 8000 none none) live (fun u => u.clk == live.clk) = true := by decide +kernel
theorem test_junction_swap : let s := { live.setB Reg.JCT_STATUS 1 true with jct := { next := [(0, { n := 3 })], reqAt := 8000 } }
    after (.slotTableSwap 8192) s (fun u => u.jct.resv == [(0, { n := 3 })] && u.fb Reg.JCT_STATUS 0 != s.fb Reg.JCT_STATUS 0) = true ∧
    after (.slotTableSwap 8184) s (fun u => u.jct.resv == []) = true := by decide +kernel
theorem test_junction_age : after (.beAgeSaturate 8000) live (fun u => u.sbx.raised != []) = true := by decide +kernel

def inMode (m : Mode) : State := live.setF Reg.SYS_MODE 2 0 m.code

theorem test_mode_same : closed (.modeReqReady 8000) (inMode .ready) (fun u => u.mode == .ready) = true ∧
    closed (.modeReqBoot 8000) (inMode .ready) (fun u => u.f Reg.SYS_MODE 18 16 == 1) = true ∧
    closed (.modeReqPrint 8000) (inMode .ready) (fun u => u.f Reg.SYS_MODE 14 12 == Mode.print.code) = true := by decide +kernel
theorem test_mode_held : closed (.modeReqStandby 8000) ((inMode .ready).setB Reg.SYS_MODE 3 true) (fun u =>
    u.fb Reg.SYS_MODE 11 && u.f Reg.SYS_MODE 10 8 == Mode.standby.code) = true := by decide +kernel
theorem test_mode_standby : closed (.modeReqReady 8000) (inMode .standby) (fun u => u.mode == .ready && u.fb Reg.SYS_PROFILE 1) = true ∧
    closed (.modeReqReady 8000) { inMode .standby with sys := { intlk := true } } (fun u => u.f Reg.SYS_MODE 18 16 == mINTERLOCK) = true := by
  decide +kernel
theorem test_mode_archive : closed (.modeReqArchive 8000) (inMode .standby) (fun u => u.pwr.reqs != []) = true := by decide +kernel
theorem test_mode_drain : closed (.modeReqDrain 8000) { inMode .print with tt := { queue := [64] } } (fun u => u.mode == .drain && u.tt.queue == []) =
    true ∧ closed (.modeReqPrint 8000) (inMode .drain) (fun u => u.f Reg.SYS_MODE 18 16 == 1) = true := by decide +kernel
theorem test_mode_service : closed (.modeReqService 8000) (inMode .ready) (fun u => u.mode == .service) = true ∧
    closed (.modeReqReady 8000) ((inMode .service).setReg Reg.SYS_SVC_MOTION 1) (fun u => u.f Reg.SYS_MODE 18 16 == mMOTION) = true := by
  decide +kernel
theorem test_mode_safe : closed (.modeReqSafe 8000) (inMode .print) (fun u => u.mode == .safe) = true ∧
    closed (.modeReqSafe 8000) (inMode .standby) (fun u => u.mode == .standby && u.fb Reg.SYS_MODE 19) = true := by decide +kernel
theorem test_interlock : after (.intlkAssert ⟨8000, (List.replicate 8 false)⟩) ((inMode .ready).intlkSamples (List.replicate 8 true)) (fun u =>
      u.mode == .ready && (u.at 8200).mode == .safe && (u.at 8200).sys.intlk) = true ∧
    after (.intlkAssert ⟨8000, (List.replicate 7 false)⟩) (inMode .ready) (fun u => u.sys.events == []) = true ∧
    after (.intlkNegate ⟨8000, (List.replicate 8 true)⟩) { inMode .safe with sys := { intlk := true } } (fun u => (u.at 8200).mode == .safe &&
      !(u.at 8200).sys.intlk) = true := by decide +kernel
theorem test_safe_done : after (.safeSequenceComplete 8000) (inMode .safe) (fun u => u.fb Reg.SYS_MODE 7) = true ∧
    after (.safeSequenceComplete 8000) (inMode .print) (fun u => !u.fb Reg.SYS_MODE 7) = true := by decide +kernel
theorem test_change_done : after (.modeChangeDone 8000) (((inMode .standby).setB Reg.SYS_MODE 3 true).setF Reg.SYS_MODE 6 4 Mode.ready.code)
    (fun u => u.mode == .ready && !u.trans) = true := by decide +kernel

/-! ### The Timetable -/

def act1 : Action :=
  { offset := 0, cls := 0, blockCmd := false, pnr := false, fuser := false, exit := false, target := 5, cmd := 0, param := 7 }
def armed1 : Armed := { idx := 0, list := .main, act := act1, time := 8000 }
def claim1 : Claim := { kind := kTASK, shared := false, unit := 0, winStart := 0, winEnd := 1000, amount := 0, p0 := 0, p1 := 0 }
def sheet1 : Sheet := { sheetId := 1, origin := 8000, pnr := 8100, claims := [claim1], armed := [armed1], numMain := 1 }
def sheetL : Sheet := { sheet1 with claims := [{ claim1 with winEnd := 1000000000 }] }
def withSheet (s : State) (st : Nat) (sh : Sheet) : State := (s.setSheet 2 (some sh)).setF (Reg.TT_SHEET 2) 3 0 st

theorem test_submit : after (.submit 8000 3) live (fun u => u.tt.queue == [192]) = true ∧
    after (.submit 8000 3) { live with tt := { queue := List.replicate 8 0 } } (fun u => u.fb Reg.TT_STATUS 14 && u.tt.queue.length == 8) = true := by
  decide +kernel
theorem test_check : after (.checkStart 8000) { inMode .ready with tt := { queue := [192] } } (fun u => u.tt.check.isSome && u.tt.queue == [] &&
    after (.checkEnd 8008) u (fun v => (v.at 8016).f Reg.TT_CNT_REFUSE 31 0 == 1 && (v.at 8016).tt.check.isNone)) = true := by decide +kernel
def image1 : Image :=
  { sheetId := 9, jobId := 0, earliest := 20000, step := 100, candidates := 4, claims := [claim1], main := [act1], withdraw := [], spoil := [] }
theorem test_commit : let u := ((List.range 128).foldl (fun s k => if k = 5 then s else s.setSheet k (some sheet1)) (inMode .ready)).commit image1 3
    u.sheetState 5 = stCOMMITTED ∧ u.mode = .print ∧ (u.sheet 5).map (·.origin) = some 20300 ∧ u.f Reg.TT_CNT_ADMIT 31 0 = 1 := by
  decide +kernel
theorem test_outcomes : let s := withSheet live stCOMMITTED sheet1
    (s.withdrawSheet 2 5 0).sheetState 2 = stWITHDRAWN ∧
    ((withSheet live stRUNNING sheet1).spoilSheet 2 5 0).sheetState 2 = stSPOILED := by decide +kernel
theorem test_pnr : after (.pnrReached 8104 2) (withSheet live stCOMMITTED sheet1) (fun u => u.sheetState 2 == stRUNNING) = true ∧
    after (.pnrReached 8096 2) (withSheet live stCOMMITTED sheet1) (fun u => u.sheetState 2 == stCOMMITTED) = true := by decide +kernel
theorem test_window_end : after (.claimWindowEnd 9000 2 0) (withSheet live stCOMMITTED sheet1) (fun u => (u.sheet 2).map (·.released) == some [0]) = true ∧
    after (.claimWindowEnd 8992 2 0) (withSheet live stCOMMITTED sheet1) (fun u => (u.sheet 2).map (·.released) == some []) = true := by decide +kernel
theorem test_late_action : after (.actionToleranceExpiry 100000000 2 0) (withSheet live stRUNNING { sheet1 with claims := [{ claim1 with winEnd := 200000000 }] }) (fun u =>
    u.sheetState 2 == stSPOILED && u.f (Reg.TT_SHEET 2) 23 16 == cACTION_LATE) = true := by decide +kernel
theorem test_requests : after (.ttReqSpoil 8000 2 1) (withSheet live stRUNNING sheet1) (fun u =>
      u.f Reg.TT_REQ_STATUS 2 0 == reqDONE && u.sheetState 2 == stSPOILED) = true ∧
    after (.ttReqWithdraw 8000 131 1) live (fun u => u.f Reg.TT_REQ_STATUS 2 0 == reqSTALE) = true ∧
    after (.ttReqWithdraw 8000 3 1) live (fun u => u.f Reg.TT_REQ_STATUS 2 0 == reqTERMINAL) = true ∧
    after (.ttReqWithdraw 8000 3 1) { live with tt := { reqAt := some 8000 } } (fun u => u.f Reg.TT_REQ_STATUS 2 0 == reqBUSY) = true := by
  decide +kernel
theorem test_resq_tail : after (.ttResqTailWrite 8000 5) live (fun u => u.f Reg.TT_RESQ_TAIL 11 0 == 5) = true := by decide +kernel
theorem test_point_action : after (.spWriteAction 8000 2 0) (withSheet live stRUNNING sheet1) (fun u => u.point 5 == 7 && (u.armedAt 2 0).isNone) = true := by
  decide +kernel
theorem test_unknown_command : after (.unknownBlockCommand 8000 2 0) (withSheet live stRUNNING { sheet1 with armed := [{ armed1 with
      act := { act1 with blockCmd := true, target := 0xFF } }] }) (fun u => (u.armedAt 2 0).map (·.executed) == some true) = true := by decide +kernel

/-! ### The decompression lanes -/

theorem test_fill_tile : (decodeRecord { addr := 9, len := 0, fmt := 0, fill := true, chk := false } [] 0 0 0).out.take 2 = [0x99, 0x99] := by
  decide +kernel

/-- Sheet 2 runs, with one action of its main list on a block, due at tick 8,000. -/
def running (s : State) (block unit cmd param : Nat) : State :=
  withSheet s stRUNNING { sheet1 with armed := [{ armed1 with
    act := { act1 with blockCmd := true, target := block * 4096 + unit, cmd := cmd, param := param } }] }

/-- Action 0 of sheet 2 has been reported. -/
def reported (u : State) : Bool := (u.armedAt 2 0).isNone

/-- A stream's descriptor in the Stacks: plane 0x100000000, ROW0 0, NROWS 2. -/
def streamMem : List Host.Cell := [(0x04000004, 1), (0x0400000A, 2)]
theorem test_stream : let s := { running live 0x0A 1 1 0x04000000 with mem := streamMem }
    (s.runStream (s.handle 2) 1 1 0x04000000).fxStreams 1 =
      [{ sheet := s.handle 2, row0 := 0, nrows := 2, plane := 0x100000000, ln0 := 0 }] ∧
    after (.stream 8000 2 0) s (fun u => reported u && u.nextLn 1 == 64) = true := by decide +kernel
def fullStation : State := ({ live with mem := streamMem } : State).setStreams 1
  (List.replicate 4 { sheet := 0, row0 := 0, nrows := 1, plane := 0, ln0 := 0 })
theorem test_stream_full : let u := fullStation.runStream 2 1 1 0x04000000
    (u.fxStreams 1).length = 4 ∧ u.fb Reg.FX_STATUS 18 = true ∧ u.sbx.raised = [{ src := srcFX, ev := 2, ts := 8000 }] := by
  decide +kernel

/-- A stream whose tile lies outside the plane's columns: its tiles read as zeros. -/
def streamed : State :=
  live.setStreams 0 [{ sheet := 2, row0 := 0, nrows := 2, plane := 0, ln0 := 0, cols := 0, active := true, ready := [8000] }]
/-- A tile of that stream at work from tick 8,000: four bytes after two cycles of setup. -/
def tile4 : Decoded := { out := [1, 2, 3, 4], err := none, setup := 2 }
def band1 : BandRun := { st := 0, ln0 := 0, row := 0, col := 0, run := { since := 8000, res := some (.tile tile4) } }
def banded : State := streamed.setLane 5 (.band band1)
theorem test_band_tile_start : (match exec (.bandTileStart 8000 5) streamed with
      | .next u => (match u.lane 5 with | .band b => b.run.since == 8000 && b.row + b.col == 0 | _ => false) &&
          (u.fxStreams 0).map (·.next) == [1]
      | _ => false) = true ∧
    (match exec (.bandTileStart 8000 5) banded with | .next u => u.lane 5 == .band band1 | _ => false) = true := by decide +kernel
/-- Two bytes a CORE cycle follow the setup (R179): the tile is over 4 cycles after its start, and its bytes stand in row
0 of the band buffer (R185). -/
theorem test_tile_complete : (match exec (.tileComplete 8032 5) banded with
      | .next u => u.lane 5 == .idle && u.f Reg.FX_CNT_TILES 31 0 == 1 && (u.fxStreams 0).map (fun x => Tab.get 0 x.done 0) == [1] &&
          readBytes u.mem (bandBase 0) 4 == [1, 2, 3, 4]
      | _ => false) = true ∧
    (match exec (.tileComplete 8024 5) banded with | .next u => u.lane 5 != .idle | _ => false) = true := by decide +kernel
/-- A tile whose header check failed (R176) before any output. -/
def bandBad : BandRun := { band1 with run := { since := 8000, res := some (headerFail 0x10 8) } }
theorem test_tile_error : (match exec (.tileDecodeError 200000 5) (streamed.setLane 5 (.band bandBad)) with
      | .next u => u.lane 5 == .idle && u.f Reg.FX_CNT_ERR 31 0 == 1 && u.fxStreams 0 == []
      | _ => false) = true ∧
    (match exec (.tileDecodeError 8000 5) banded with
      | .next u => (match u.lane 5 with | .band b => b.run.emitted == 0 | _ => false) | _ => false) = true := by decide +kernel

/-- A job ring with one descriptor in the Stacks, and the descriptor of a DECODE job of one tile of station 0. -/
def jobState : State := { (liveR [(Reg.FX_CTRL, 0x301), (Reg.FX_JQ_BASE, 0x100000), (Reg.FX_JQ_CFG, 4), (Reg.FX_JQ_HEAD, 1)]) with
  mem := [(0x04000000, 1), (0x04000012, 1), (0x04000015, 1)] }
theorem test_job_decode : jobState.jobRoom 0 = true ∧ after (.jobDecode 8000 0) jobState (fun u => u.f Reg.FX_JQ_TAIL 11 0 == 1 && u.lane 0 != .idle) =
    true ∧ after (.jobResume 8000 0) jobState (fun u => u.lane 0 == .idle) = true := by decide +kernel
theorem test_job_resume : after (.jobResume 8000 0) { jobState with mem := [(0x04000000, 2), (0x04000009, 0x10), (0x0400000B, 4)] } (fun u => u.f Reg.FX_JQ_TAIL 11 0 == 1) = true ∧
    after (.jobDecode 8000 0) { jobState with mem := [(0x04000000, 2), (0x04000009, 0x10), (0x0400000B, 4)] } (fun u => u.f Reg.FX_JQ_TAIL 11 0 == 0) = true := by decide +kernel
def job1 : JobRun := { desc := List.replicate 64 0, base := List.replicate 64 0 }
theorem test_lane_suspend : after (.laneSuspend 8000 0) (live.setLane 0 (.job job1)) (fun u => u.lane 0 == .suspended { job1 with suspended := true } &&
    u.fb Reg.FX_IRQ_STATUS 1) = true := by decide +kernel
theorem test_lane_resume : after (.laneResume 8000 0 0x400000) ({ live with mem := [(0x04000004, 1), (0x04000005, 16)] }.setLane 0 (.suspended job1))
    (fun u => match u.lane 0 with | .job j => j.cur.isSome | .hold j => j.record.isSome | _ => false) = true ∧
    after (.laneResume 8000 0 0) live (fun u => u.fb Reg.FX_STATUS 17) = true := by decide +kernel
theorem test_lane_save : after (.laneSave 8000 0) (live.setLane 0 (.suspended job1)) (fun u => u.lane 0 == .saving job1 false) = true ∧
    after (.laneSave 8000 0) live (fun u => u.fb Reg.FX_STATUS 17) = true := by decide +kernel
theorem test_lane_abort : after (.laneAbort 8000 0) (live.setLane 0 (.saving job1 false)) (fun u => u.lane 0 == .saving job1 true) = true ∧
    after (.laneAbort 8000 0) (live.setLane 0 (.suspended job1)) (fun u => match u.lane 0 with | .job j => j.record.isSome | _ => false) = true := by decide +kernel
theorem test_save_complete : after (.saveComplete 8000 0) live (fun u => u.lane 0 == .idle) = true := by decide +kernel
theorem test_job_complete : let j := { job1 with record := some (List.replicate 32 0) }
    let s := ({ liveR [(Reg.FX_CQ_CFG, 4), (Reg.FX_CQ_BASE, 0x100000)] with fx := { order := [(8000, 0)] } }.setLane 0 (.job j))
    after (.jobComplete 8000) s (fun u => u.lane 0 == .idle && u.f Reg.FX_CQ_HEAD 11 0 == 1 && u.fx.order == []) = true ∧
    after (.jobComplete 8000) (s.setF Reg.FX_CQ_TAIL 11 0 1) (fun u => u.lane 0 == .hold j) = true := by decide +kernel
theorem test_cq_tail : after (.fxCqTailWrite 8000 7) live (fun u => u.f Reg.FX_CQ_TAIL 11 0 == 7) = true ∧
    (let j := { job1 with record := some (List.replicate 32 0) }
     let s := ({ liveR [(Reg.FX_CQ_CFG, 4), (Reg.FX_CQ_BASE, 0x100000), (Reg.FX_CQ_TAIL, 1)] with fx := { order := [(8000, 0)] } }.setLane 0 (.hold j))
     after (.fxCqTailWrite 8000 2) s (fun u => u.lane 0 == .idle && u.f Reg.FX_CQ_HEAD 11 0 == 1)) = true := by decide +kernel

/-! ### Scan synchronisation -/

/-- Station 0 in a state of R210, with a facet period of 640,000 ticks. -/
def scanning (st : Nat) : State := (liveR [(Reg.SCN_CTRL 0, 1), (Reg.SCN_STATUS 0, BitVec.ofNat 32 st), (Reg.SCN_SCAN_LO 0, 4), (Reg.SCN_TF_NOM 0, 640000), (Reg.SCN_BAND 0, 1000)]).modScn 0 fun y =>
  { y with hist := [{ k := 4, u := 0, coasted := false }], tf := 640000 * tk, begun := true, k0 := some 0, lastRaw := some 0
           cur := some { k := 4, f := 0, tf := 640000 * tk, p := 0, sos := 0 } }

theorem test_scan_enable : after (.scnEnWrite 8000 0 true) live (fun u => u.scnState 0 == 1 && u.scnState 1 == 0) = true ∧
    after (.scnEnWrite 8000 0 false) (scanning 3) (fun u => u.scnState 0 == 0 && (u.scns 0).cur.isNone) = true := by decide +kernel
theorem test_edge_off : after (.mosEdge 8000 0 100) live (fun u => u == live) = true ∧
    after (.eosEdge 8000 0 100) live (fun u => u == live) = true := by decide +kernel
/-- An SOS 512 sixteenths of a tick after the last is taken, one at 511 is stray. -/
theorem test_edge_too_close : after (.sosEdge 8000 0 1511) ((scanning 1).noteEdge 0 0 1000) (fun u => u.f (Reg.SCN_CNT_A 0) 31 16 == 1) = true ∧
    after (.sosEdge 8000 0 1512) ((scanning 1).noteEdge 0 0 1000) (fun u => u.f (Reg.SCN_CNT_A 0) 31 16 == 0) = true := by decide +kernel
theorem wit_sos_windows : let y := ((scanning 2).noteEdge 0 0 10240000).addDelta 0
    let p := y.predOf 0 (y.scanK 0 + 1)
    p.p - y.gateHalf 0 p.tf ≤ y.edgeTime 0 0 10240000 ∧ y.edgeTime 0 0 10240000 ≤ p.p + y.gateHalf 0 p.tf ∧
    ¬ (y.edgeTime 0 0 20480000 ≤ p.p + y.gateHalf 0 p.tf) := by decide +kernel
theorem test_sos : after (.sosEdge 700000 0 10240000) (scanning 2) (fun u => (u.scns 0).cur.map (·.k) == some 5) = true ∧
    after (.sosEdge 2000000 0 20480000) (scanning 2) (fun u => u.f (Reg.SCN_CNT_A 0) 31 16 == 1) = true := by decide +kernel
theorem test_mos : after (.mosEdge 8000 0 8000) (scanning 2) (fun u => match (u.scns 0).cur with
    | some c => c.mos == some (some (u.edgeTime 0 1 8000)) || u.f (Reg.SCN_CNT_A 0) 31 16 == 1 | none => false) = true := by decide +kernel
theorem test_eos : after (.eosEdge 8000 0 8000) (scanning 2) (fun u => match (u.scns 0).cur with
    | some c => c.eos.isSome || u.f (Reg.SCN_CNT_A 0) 31 16 == 1 | none => false) = true := by decide +kernel
theorem test_window_miss : after (.sensorWindowMiss 8000000 0 0) (scanning 2) (fun u => (u.scns 0).missSos == 1 && u.f (Reg.SCN_CNT_A 0) 15 0 == 1 &&
      (u.scns 0).cur.map (·.coasted) == some true) = true ∧
    after (.sensorWindowMiss 8000 0 0) (scanning 2) (fun u => (u.scns 0).missSos == 0) = true := by decide +kernel
theorem test_window_miss_mos : after (.sensorWindowMiss 8000000 0 1) (scanning 2) (fun u => (u.scns 0).missMos == 1) = true ∧
    after (.sensorWindowMiss 8000000 0 2) (scanning 1) (fun u => u.f (Reg.SCN_CNT_A 0) 15 0 == 0) = true := by decide +kernel
theorem test_index : after (.indexEdge 8000 0) ((scanning 2).setB (Reg.SCN_CTRL 0) 1 true) (fun u => (u.scns 0).indexSeen && (u.scns 0).indexDue) = true ∧
    after (.indexEdge 8000 0) ((scanning 2).setB (Reg.SCN_CTRL 0) 1 false) (fun u => !(u.scns 0).indexSeen) = true := by decide +kernel
theorem test_handover : let s := (scanning 3).modScn 0 fun y => { y with due := [(5, 8000)] }
    after (.scanSetHandover 8000 0) s (fun u => (u.scns 0).due == []) = true ∧
    after (.scanSetHandover 7000 0) (s.modScn 0 fun y => { y with due := [(5, 8008)] }) (fun u => (u.scns 0).due == [(5, 8008)]) = true ∧
    after (.scanSetHandover 8000 0) ((scanning 2).modScn 0 fun y => { y with due := [(5, 8000)] }) (fun u => (u.exps 0).sets == []) = true := by
  decide +kernel
/-- The facet gap after scan 4: from its EOS to the window of SOS 5, which the filter opens 2.5% of a period before 640,000 (R205, R207). -/
def gapped : State := (scanning 2).modScn 0 fun y => { y with delta := 7, cur := some { k := 4, f := 0, tf := 640000 * tk, p := 0, sos := 0, eos := some (some 1) } }
theorem wit_facet_gap : let p := gapped.predOf 0 (gapped.scanK 0 + 1)
    gapped.facetGap 0 = true ∧ gapped.clk.tb * tk < p.p - gapped.gateHalf 0 p.tf ∧ (scanning 2).facetGap 0 = false ∧
    ¬ ((gapped.at 800000).clk.tb * tk < p.p - gapped.gateHalf 0 p.tf) ∧ (gapped.at 800000).facetGap 0 = false := by decide +kernel
theorem test_facet_gap : after (.facetGap 8000 0) gapped (fun u => (u.scns 0).delta == 0 && (u.scns 0).hist.map (·.u) == [7]) = true ∧
    after (.facetGap 800000 0) gapped (fun u => (u.scns 0).delta == 7) = true ∧
    after (.facetGap 8000 0) ((scanning 2).modScn 0 fun y => { y with delta := 7 }) (fun u => (u.scns 0).delta == 7) = true := by decide +kernel
theorem test_lock_check : after (.lockCheck 8000 2 0) (running (scanning 3) 0x0B 0 1 0) (fun u => reported u && u.sheetState 2 == stRUNNING) = true ∧
    after (.lockCheck 8000 2 0) (running (scanning 2) 0x0B 0 1 0) (fun u => u.sheetState 2 == stSPOILED) = true ∧
    after (.lockCheck 8000 2 0) (running (scanning 3) 0x0B 0 2 0) (fun u => u.f (Reg.SCN_CNT_B 0) 15 0 == 1) = true := by decide +kernel
theorem wit_even_rotation : let h : List Arrival := [{ k := 0, u := 100, coasted := false }, { k := 1, u := 150, coasted := true }]
    (∀ a ∈ h, a.u = 100 + a.k * 50) ∧ tfFrom 2 h 50 1 = 50 ∧ meanAt h 2 3 50 = 250 ∧ learnSeg 2 (2 * 50) (50 * 2 ^ 32) 3 = 2 := by decide +kernel

/-! ### Exposure and the exposure links -/

/-- Station 0 exposes: EXP enabled, a line period, an UP link, and one stream of sheet 2 in the band buffer. -/
def exposing : State := (liveR [(Reg.EXP_CTRL 0, 1), (Reg.EXP_LINE_PERIOD 0, 640000), (Reg.XLK_STATUS 0, 3), (Reg.XLK_CTRL 0, 1),
    (Reg.EXP_WIDTH 0, 1)]).modExp 0 fun e => { e with uses := [{ sheet := 2, ln0 := 0, row0 := 0, nrows := 4, lw := 0 }] }
theorem test_expose : after (.expose 8000 2 0) (running exposing 0x0C 0 1 100) (fun u => reported u &&
      (u.exps 0).bindings.map (·.t0) == [8100] && (u.exps 0).uses.map (·.bound) == [true]) = true ∧
    after (.expose 8000 2 0) (running (exposing.setB (Reg.EXP_CTRL 0) 0 false) 0x0C 0 1 100) (fun u => !reported u && (u.exps 0).bindings == []) =
      true := by decide +kernel

def bind1 : Binding := { sheet := 2, action := 0, t0 := 8000, tA := 8000, ln0 := 0, stop := 128, row0 := 0, line := 640000 }
def set1 : ScanSet := { k := 5, f := 0, s16 := 16 * 8000, inc1 := 0x40000000, inc2 := 0x40000000, posM := 0, at' := 8000, binding := some bind1 }
def bound1 (s : State) : State := s.modExp 0 fun e => { e with bindings := [bind1], sets := [set1] }
theorem wit_frame_due : ((bound1 exposing).nextBound 0).isSome = true ∧ (bound1 exposing).sofOf 0 set1 ≤ 9000 ∧
    ¬ (min (set1.b + 129) ((bind1.stop : Int) - 1) < (bound1 exposing).filled 0) ∧
    min (set1.b + 129) ((bind1.stop : Int) - 1) < ((bound1 exposing).setFilled 0 128).filled 0 := by decide +kernel
theorem test_frame_late_tile : after (.scanFrameStart 9000 0) (withSheet (bound1 exposing) stRUNNING sheetL) (fun u => u.sheetState 2 == stSPOILED &&
    (u.nextBound 0).isNone) = true := by decide +kernel
theorem test_frame_rate : after (.scanFrameStart 9000 0) (withSheet ((bound1 exposing).modExp 0 fun e => { e with sets := [{ set1 with inc1 := 0x21FFFFFF }] })
    stRUNNING sheetL) (fun u => (u.exps 0).frame.isNone && u.sheetState 2 == stSPOILED) = true := by decide +kernel
/-- A frame with one column: position 0 names emitter 3, and its code 5 adds 41 (R248). -/
def frame1 : ExpFrame :=
  { set := set1, sof := 7986, band := 0, clamp := false, table := List.replicate 53 0 ++ [41]
    blocks := List.replicate 4 0 ++ [0x43] ++ List.replicate 71 0 ++ [5, 0] }
def framed : State := (bound1 exposing).modExp 0 fun e => { e with frame := some frame1 }
theorem test_column_miss : after (.columnDeadlineMiss 8000000 0 0) (withSheet framed stRUNNING sheetL) (fun u => u.sheetState 2 == stSPOILED) = true ∧
    after (.columnDeadlineMiss 8000000 0 0) (framed.modExp 0 fun e => { e with frame := some { frame1 with abort := true } }) (fun u =>
      u.f (Reg.EXP_CNT_A 0) 31 16 == 0) = true := by decide +kernel
theorem test_frame_end : after (.frameEnd 8000000 0) framed (fun u => (u.exps 0).frame.isNone && u.f (Reg.XLK_CNT_FRAMES 0) 31 0 == 1 &&
      (u.reg (Reg.EXP_ONTIME_LO 0 3)).toNat == onTimeOf 41) = true ∧ after (.frameEnd 8008 0) framed (fun u => (u.exps 0).frame.isSome) = true := by decide +kernel
/-- R240 at code 1, 15 and 0. -/
theorem test_trim : trimCode 1 127 15 = 2 ∧ trimCode 15 127 0 = 15 ∧ trimCode 0 127 5 = 0 ∧ trimCode 8 0 3 = 8 ∧ trimCode 15 (-128) 0 = 7 ∧
    rev4 1 = 8 ∧ rev4 12 = 3 := by decide +kernel
theorem wit_live_position : live.posLive 0 0 set1 = true ∧ live.posLive 0 32 set1 = false ∧ live.posLive 0 0 { set1 with dead := [live.emitterOf 0 0] } = false := by decide +kernel
/-- Station 0 in a facet gap with no scan bound. -/
def gapExp : State := (gapped.setB (Reg.EXP_CTRL 0) 0 true).modExp 0 fun e => { e with retire := [(0, 5), (1, 6)] }
theorem test_gap_point : after (.gapPoint 8000 0) gapExp (fun u => (u.exps 0).retire == [] && u.fb (Reg.EXP_STATUS 0) 1) = true ∧
    after (.gapPoint 8000 0) (framed.modExp 0 fun e => { e with retire := [(0, 5)] }) (fun u => (u.exps 0).retire == [(0, 5)]) = true := by
  decide +kernel
theorem wit_gap_point : gapExp.vidOn 0 = true ∧ gapExp.noneBound 0 = true ∧ gapExp.facetGap 0 = true ∧ framed.noneBound 0 = false ∧
    gapExp.isSpare 0 5 = false ∧ (gapExp.exps 0).inc1 = none ∧ gapExp.held = [] ∧ gapExp.fb (Reg.EXP_CTRL 0) 2 = false ∧
    gapExp.fb Reg.BKG_CTRL 3 = false ∧ (gapExp.exps 0).tblDue = false := by decide +kernel
/-- A second request waits behind the first. -/
theorem test_retire_request : after (.retireRequest 8000 0 0x0503) gapExp (fun u => (u.exps 0).retire == [(0, 5), (1, 6), (3, 5)]) = true := by decide +kernel
theorem test_link_enable : after (.xlkEnWrite 8000 0 true) live (fun u => u.linkState 0 == 1 && (u.exps 0).since == 8000) = true ∧
    after (.xlkEnWrite 8000 0 false) exposing (fun u => u.linkState 0 == 0) = true := by decide +kernel
theorem test_table_load : after (.tblLoad 8000 0) exposing (fun u => (u.exps 0).tblDue) = true := by decide +kernel
theorem test_link_timeouts : after (.trainTimeout 19208000 0) ((liveR [(Reg.XLK_STATUS 0, 1)]).modExp 0 fun e => { e with since := 8000 })
      (fun u => u.linkState 0 == 4 && u.f (Reg.XLK_ERR 0) 3 0 == kTRAIN) = true ∧
    after (.loadTimeout 6408000 0) ((liveR [(Reg.XLK_STATUS 0, 2)]).modExp 0 fun e => { e with since := 8000 })
      (fun u => u.linkState 0 == 4 && u.f (Reg.XLK_ERR 0) 3 0 == kTABLE) = true ∧
    after (.trainTimeout 19207992 0) ((liveR [(Reg.XLK_STATUS 0, 1)]).modExp 0 fun e => { e with since := 8000 }) (fun u => u.linkState 0 == 1) =
      true := by decide +kernel
theorem test_link_status_timeout : after (.linkStatusTimeout 1288000 0) (exposing.modExp 0 fun e => { e with lastRec := some 8000 })
    (fun u => u.linkState 0 == 4 && u.f (Reg.XLK_ERR 0) 3 0 == kNO_STATUS) = true ∧ after (.linkStatusTimeout 9000000 0) live (fun u => u.linkState 0 == 0) =
    true := by decide +kernel
theorem test_lane_force : after (.xlkForceSubst 8000 0 2) (exposing.setB (Reg.XLK_STATUS 0) 3 true) (fun u => (u.exps 0).subst == [2] &&
      after (.laneSubstitute 8000 0) u (fun v => v.physLane 0 2 == u.physLane 0 4 && v.physLane 0 4 == 7)) = true ∧
    after (.xlkForceSubst 8000 0 2) (exposing.setB (Reg.XLK_STATUS 0) 3 false) (fun u => u.linkState 0 == 4) = true := by decide +kernel
theorem test_status_record_bad : after (.statusRecord 8000 0 (List.replicate 128 0)) exposing (fun u => u.f (Reg.XLK_CNT_MISC 0) 31 16 == 1) = true := by
  decide +kernel
/-- A valid record of station 0: its type, station and CRC. -/
def record1 : List Byte := let b := 0x53#8 :: List.replicate 123 0; b ++ bytesLE 4 (crc32 b)
theorem test_status_record : after (.statusRecord 8000 0 record1) exposing (fun u => u.f (Reg.XLK_CNT_MISC 0) 31 16 == 0 && (u.exps 0).lastRec == some 8000) =
    true := by decide +kernel
theorem test_frame_status_timeout : after (.frameStatusTimeout 417600 0) (withSheet (exposing.modExp 0 fun e => { e with
    waiting := [{ k := 5, sheet := 2, eof := 8000 }] }) stRUNNING sheetL) (fun u => (u.exps 0).waiting.map (·.answered) == [true] &&
      u.sheetState 2 == stSPOILED) = true := by decide +kernel
theorem test_link_check : after (.linkCheck 8000 2 0) (running exposing 0x0D 0 1 0) (fun u => reported u && u.sheetState 2 == stRUNNING) = true ∧
    after (.linkCheck 8000 2 0) (running live 0x0D 0 1 0) (fun u => u.sheetState 2 == stSPOILED) = true := by decide +kernel
theorem test_light : after (.lightSend 8000 0 0) (exposing.setReg (Reg.SCN_STATUS 0) 1) (fun u => (u.exps 0).light.map (·.marker) == some 8052) = true ∧
    after (.lightSend 8000 0 0) live (fun u => (u.exps 0).light.isNone) = true := by decide +kernel

/-! ### Field-oriented channels -/

/-- Channel 1 in a state of R284. -/
def motor (n : Nat) : State := liveR [(Reg.FOC_STATE 1, BitVec.ofNat 32 n)]

theorem test_foc_start_stop : after (.focCmdStart 8000 1) live (fun u => (u.focCh 1).startReq == some {}) = true ∧
    after (.focCmdStop 8000 1) live (fun u => (u.focCh 1).stopReq == some {}) = true := by decide +kernel
theorem test_foc_coast : after (.focCmdCoast 8000 1) (motor 6) (fun u => u.focState 1 == 0) = true ∧
    after (.focCmdCoast 8000 1) (motor 11) (fun u => u.focState 1 == 11) = true := by decide +kernel
theorem test_foc_clear : after (.focCmdClear 8000 1) (motor 11) (fun u => u.focState 1 == 0) = true ∧
    after (.focCmdClear 8000 1) ((motor 11).setReg (Reg.FOC_BUS_STATUS 0) 2) (fun u => u.focState 1 == 11 && u.f (Reg.FOC_STATE 1) 11 8 == 2) =
      true := by decide +kernel
theorem test_foc_actions : after (.focTtStart 8000 2 0) (running live 0x0E 1 1 0) (fun u => reported u &&
      (u.focCh 1).startReq.map (·.handle) == some (some 2)) = true ∧
    after (.focTtStop 8000 2 0) (running live 0x0E 1 2 0) (fun u => (u.focCh 1).stopReq.isSome) = true ∧
    after (.focTtSpeed 8000 2 0) (running live 0x0E 1 3 77) (fun u => u.reg (Reg.FOC_SPD_REF 1) == 77) = true := by decide +kernel
theorem test_foc_actions2 : after (.focTtTorque 8000 2 0) (running live 0x0E 1 4 0x1FFFF) (fun u => u.reg (Reg.FOC_IQ_REF 1) == 0xFFFF) = true ∧
    after (.focTtCoast 8000 2 0) (running (motor 6) 0x0E 1 5 0) (fun u => u.focState 1 == 0) = true ∧
    after (.focTtSpeed 8000 2 0) (running (liveR [(Reg.FOC_CFG 1, 4)]) 0x0E 1 3 77) (fun u => u.reg (Reg.FOC_SPD_REF 1) == 0) = true := by decide +kernel
theorem wit_foc_start : (liveR [(Reg.FOC_ISCALE 1, 1), (Reg.FOC_ILIM 1, 1), (Reg.FOC_OBS 1, 1)]).focState 1 = 0 ∧
    (liveR [(Reg.FOC_BUS_STATUS 0, 2)]).startRefused 1 = some 2 ∧ live.startRefused 1 ≠ none := by decide +kernel
/-- A modulator of ones against a modulator of zeros: the currents are as far apart as they can be, and W is 0. -/
theorem test_overcurrent : after (.overcurrent 8000 (1, BitVec.allOnes 31, 0)) (motor 6) (fun u => u.focState 1 == 11 && u.f (Reg.FOC_STATE 1) 15 12 == 2) =
      true ∧
    after (.overcurrent 8000 (1, BitVec.allOnes 31, 0)) (motor 0) (fun u => u.focState 1 == 0 && u.sbx.raised == [{ src := srcFOC, ev := 1, ts := 8000 }]) =
      true ∧
    after (.overcurrent 8000 (1, BitVec.allOnes 31, 0)) ((motor 6).setReg (Reg.FOC_ISCALE 1) 0xFFFF0000) (fun u => u.focState 1 == 6) = true := by
  decide +kernel
theorem test_bitstream_engine : after (.sdLoss 8000 (1, 0, 5)) (motor 2) (fun u => u.f (Reg.FOC_STATE 1) 15 12 == 3) = true ∧
    after (.sdLoss 8000 (1, 5, 5)) (motor 2) (fun u => u.focState 1 == 2) = true ∧
    after (.engine 8000 1) (motor 9) (fun u => u.f (Reg.FOC_STATE 1) 15 12 == 7) = true := by decide +kernel
theorem test_attempt_timeout : let s := (motor 4).setReg (Reg.FOC_START 1) 0x00010001
    after (.startAttemptTimeout 64000000 1) s (fun u => u.focState 1 == 8) = true ∧
    after (.startAttemptTimeout 64000000 1) (s.modCh 1 fun x => { x with attempts := 2 }) (fun u => u.focState 1 == 11) = true ∧
    after (.startAttemptTimeout 63999992 1) s (fun u => u.focState 1 == 4) = true := by decide +kernel
theorem test_retry_wait : after (.retryWaitExpiry 64000000 1) ((motor 8).setReg (Reg.FOC_START 1) 0x01000001) (fun u => u.focState 1 == 2) = true ∧
    after (.retryWaitExpiry 8000 1) (motor 0) (fun u => u.focState 1 == 0) = true := by decide +kernel
/-- TPWM 64,000 ticks, phase 0: the period of tick 64,000 and not that of 64,008. -/
def motorP (n : Nat) : State := (motor n).setReg (Reg.FOC_PWM 1) 64000
theorem test_pwm_period : (motorP 0).tpwm 1 = 64000 ∧ (motorP 0).pwmEdge 1 128000 = true ∧
    after (.pwmPeriod 64008 1 0 0 0x1234 5 0) (motorP 0) (fun u => u.f (Reg.FOC_ANGLE 1) 15 0 == 0) = true ∧
    ((motorP 0).estimate 1 0x1234 5).f (Reg.FOC_ANGLE 1) 15 0 = 0x1234 ∧ ((motorP 0).estimate 1 0x1234 5).reg (Reg.FOC_SPEED 1) = 5 := by decide +kernel
/-- A period of CATCH counts, and its pulses end early past IOC ÷ 2 (R282); IOC is 32,767 at reset. -/
theorem test_catch_period : ((motorP 2).catchPeriod 1 0 0).focState 1 = 2 ∧ (((motorP 2).catchPeriod 1 0 0).focCh 1).count = 1 ∧
    (((((motorP 2).modCh 1 fun x => { x with count := 1 }).catchPeriod 1 (16384 * 2 ^ 20) 0).focCh 1).caught) = true := by decide +kernel
/-- The high switch of a phase is on for h about the middle of the period, the low one outside it and the dead time (R272). -/
theorem test_phase_edges : let es := phaseEdges 0 1000 50 200 0
    levelAt es 0 399 = false ∧ levelAt es 0 400 = true ∧ levelAt es 0 599 = true ∧ levelAt es 0 600 = false ∧ levelAt es 1 399 = false ∧
    levelAt es 1 300 = true ∧ levelAt es 1 620 = false ∧ levelAt es 1 700 = true := by decide +kernel
theorem wit_pwm_run : let s := (motor 6).setReg (Reg.FOC_PWM 1) 64000
    s.actOn = true ∧ s.tpwmOk 1 = true ∧ (s.setB Reg.SYS_PROFILE 0 true).limit = false ∧ 64000 ≤ 128000 % 6400000 := by decide +kernel
theorem test_ramp_step : rampStep 0 10 3 4 false = 3 ∧ rampStep 0 2 3 4 false = 2 := by decide +kernel

/-- Bus 0 with its four limits in order. -/
def busAt (n : Nat) : State := liveR [(Reg.FOC_BUS_V1 0, 0x02000100), (Reg.FOC_BUS_V2 0, 0x04000300), (Reg.FOC_BUS_STATUS 0, BitVec.ofNat 32 n),
    (Reg.FOC_BUS_CFG 0, 1)]
/-- A modulator of ones is full scale: the voltage is FOC_BUS_CFG.SCALE. -/
def busV (s : State) (v : Nat) : State := s.setF (Reg.FOC_BUS_CFG 0) 31 16 v
def ones94 : BitVec 94 := BitVec.allOnes 94
theorem test_bus_ladder : after (.busSample 8000 0 ones94) (busV (busAt 0) 0x0200) (fun u => u.busState 0 == 1 && (u.focBus 0).brk) = true ∧
    after (.busSample 8000 0 ones94) (busV (busAt 0) 0x0400) (fun u => u.busState 0 == 3) = true ∧
    after (.busSample 8000 0 ones94) (busV (busAt 0) 0x00FF) (fun u => u.busState 0 == 4) = true ∧
    after (.busSample 8000 0 ones94) (busV (busAt 0) 0x01FF) (fun u => u.busState 0 == 0) = true := by decide +kernel
theorem test_bus_ladder2 : after (.busSample 8000 0 ones94) (busV ((busAt 0).setReg (Reg.FOC_BUS_CFG 0) 0) 0x0200) (fun u => u.busState 0 == 2) = true ∧
    after (.busSample 8000 0 ones94) (busV ((busAt 1).setF (Reg.FOC_BUS_CHOP 0) 15 0 0) 0x0100) (fun u => u.busState 0 == 0) = true ∧
    after (.busSample 8000 0 ones94) (busV ((busAt 4).setF (Reg.FOC_BUS_CHOP 0) 15 0 0) 0x0100) (fun u => u.busState 0 == 0) = true := by decide +kernel
/-- A second sample comes 32 periods of SDCK after the first (R286): 10,240 ticks. -/
theorem test_bus_interval : let s := (busV (busAt 0) 0x0400).modBus 0 fun b => { b with sampleAt := some 8000 }
    after (.busSample 18232 0 ones94) s (fun u => u.busState 0 == 0) = true ∧ after (.busSample 18240 0 ones94) s (fun u => u.busState 0 == 3) = true := by
  decide +kernel
theorem wit_bus_ladder : (busAt 0).actOn = true ∧ (busAt 0).sampleDue 0 = true ∧ (busAt 0).busOrdered 0 = true ∧ (busAt 0).vUV 0 = 0x100 ∧
    (busAt 0).vChop 0 = 0x200 ∧ (busAt 0).vAbs 0 = 0x400 ∧ sinc3 32 ones94 * 0x200 = 32768 * 0x200 := by decide +kernel
theorem test_bus_clear : after (.busClear 8000 0) (busAt 2) (fun u => u.busState 0 == 0) = true ∧
    after (.busClear 8000 0) (busAt 4) (fun u => u.busState 0 == 4) = true := by decide +kernel
theorem test_chop_timer : let s := (busAt 1).modBus 0 fun b => { b with chopAt := some 8000, v0 := 0x200 }
    after (.chopTimerExpiry 100000000 0) (s.setF (Reg.FOC_BUS_STATUS 0) 31 16 0x200 |>.setF (Reg.FOC_BUS_CHOP 0) 31 16 1) (fun u => u.busState 0 == 2) = true ∧
    after (.chopTimerExpiry 100000000 0) (s.setF (Reg.FOC_BUS_STATUS 0) 31 16 0x1FF |>.setF (Reg.FOC_BUS_CHOP 0) 31 16 1) (fun u =>
      u.busState 0 == 1 && (u.focBus 0).chopAt.isNone) = true := by decide +kernel
theorem wit_ztc_asc : (motor 6).energised 1 = true ∧ ((motor 6).enterZtc 1).focState 1 = 9 ∧
    (((motor 6).setReg (Reg.FOC_SPEED 1) 100).limitCh 1).focState 1 = 10 ∧
    (((motor 6).setReg (Reg.FOC_ASC 1) 1000).limitCh 1).focState 1 = 11 := by decide +kernel
/-- FREQ (20 µs over a period of 20 µs) and DUTY (half of it) of R291. -/
theorem test_command_pin : let s := ((liveR [(Reg.FOC_CFG 1, 6)]).modCh 1 fun x => { x with pinRise := some 1000 })
    s.pinMode 1 = 3 ∧ after (.cmdPinEdge 200000 1 true 129000) s (fun u => u.f (Reg.FOC_PIN_VAL 1) 15 0 == q16 128000 128000) = true ∧
    after (.cmdPinEdge 200000 1 true 129000) ((liveR [(Reg.FOC_CFG 1, 4)]).modCh 1 fun x => { x with pinRise := some 1000, pinFall := some 65000 })
      (fun u => u.f (Reg.FOC_PIN_VAL 1) 15 0 == 0x8000) = true := by decide +kernel
theorem test_pin_lost : after (.pinLost 12808000 1) ((liveR [(Reg.FOC_CFG 1, 4)]).modCh 1 fun x => { x with pinEdge := some 8000, pinHigh := true })
    (fun u => u.f (Reg.FOC_PIN_VAL 1) 15 0 == 0xFFFF && u.fb (Reg.FOC_PIN_VAL 1) 16) = true ∧
    after (.pinLost 12808000 1) live (fun u => !u.fb (Reg.FOC_PIN_VAL 1) 16) = true := by decide +kernel
theorem test_engine_substitution : after (.focEngSubstRequest 8000 0x1001) live (fun u => u.foc.subst == some (1, 16) &&
      after (.engineSubstApply 8008) u (fun v => v.f (Reg.FOC_ENG_MAP 1) 4 0 == 16 && v.reg Reg.FOC_ENG_SUBST_STATUS == 2) &&
      after (.focEngSubstCancel 8008) u (fun v => v.foc.subst.isNone && v.reg Reg.FOC_ENG_SUBST_STATUS == 0)) = true ∧
    after (.focEngSubstRequest 8000 0x0201) live (fun u => u.reg Reg.FOC_ENG_SUBST_STATUS == 7) = true ∧
    after (.focEngSubstRequest 8000 0x1201) live (fun u => u.reg Reg.FOC_ENG_SUBST_STATUS == 11) = true := by decide +kernel

/-! ### Stepper channels and encoders -/

theorem test_stp_commands : after (.go 8000 1) live (fun u => (u.stpCh 1).go == [{ time := 8000 }]) = true ∧
    after (.stpStop 8000 1) live (fun u => (u.stpCh 1).stop.length == 1) = true ∧ after (.resume 8000 1) live (fun u => (u.stpCh 1).resume.length == 1) = true ∧
    after (.stpClear 8000 1) live (fun u => (u.stpCh 1).clear.length == 1) = true := by decide +kernel
/-- Channel 1 moves in POSITION mode, at step 100 of a move to 1,000. -/
def stepping : State := (liveR [(Reg.STP_STATE 1, 1), (Reg.STP_TGT_LO 1, 1000)]).modStp 1 fun x =>
  { x with pos := 100, p0 := 100 * 2 ^ 32, p1 := 100 * 2 ^ 32, v := 65536, gp := 100 * 2 ^ 32 }
theorem test_halt : stepping.moving 1 = true ∧ after (.halt 8000 1) stepping (fun u => u.stpState 1 == 6 && (u.stpCh 1).v == 0) = true ∧
    after (.halt 8000 1) live (fun u => (u.stpCh 1).halt.length == 1) = true := by decide +kernel
theorem test_gear_arm : after (.gearArm 8000 1) live (fun u => u.fb (Reg.STP_GEAR_STATUS 1) 0 &&
    after (.gearCancel 8008 1) u (fun v => !v.fb (Reg.STP_GEAR_STATUS 1) 0)) = true := by decide +kernel
theorem test_hold_timer : let s := (liveR [(Reg.STP_CUR2 1, 0x00010007)])
    after (.holdTimerExpiry 6400000 1) s (fun u => u.f (Reg.STP_LA_MEAS 1) 31 16 == 7 && (u.stpCh 1).hold) = true ∧
    after (.holdTimerExpiry 6399992 1) s (fun u => !(u.stpCh 1).hold) = true := by decide +kernel
theorem test_stp_moves : after (.moveAbs 8000 2 0) (running live 0x0F 1 1 500) (fun u => reported u && u.reg (Reg.STP_TGT_LO 1) == 500 && (u.stpCh 1).go.length == 1) =
      true ∧
    after (.moveRel 8000 2 0) (running (liveR [(Reg.STP_TGT_LO 1, 100)]) 0x0F 1 2 0xFFFFFFFF) (fun u => u.reg (Reg.STP_TGT_LO 1) == 99) = true ∧
    after (.stpTtRun 8000 2 0) (running live 0x0F 1 3 500) (fun u => (u.stpCh 1).ttV.isSome && (u.stpCh 1).go.length == 1) = true := by decide +kernel
theorem test_stp_actions : after (.stpTtStop 8000 2 0) (running live 0x0F 1 4 0) (fun u => (u.stpCh 1).stop == [{ time := 8000, handle := some 2 }]) = true ∧
    after (.stpTtHalt 8000 2 0) (running stepping 0x0F 1 5 0) (fun u => u.stpState 1 == 6) = true ∧
    after (.stpTtResume 8000 2 0) (running live 0x0F 1 6 0) (fun u => (u.stpCh 1).resume.length == 1) = true ∧
    after (.engage 8000 2 0) (running live 0x0F 1 7 0) (fun u => (u.stpCh 1).go.length == 1) = true := by decide +kernel
theorem test_target_pair : after (.stpTgtHiWrite 8000 1 0x1FFFF) (live.modStp 1 fun x => { x with tgtLo := some 7 }) (fun u =>
    u.reg (Reg.STP_TGT_LO 1) == 7 && u.reg (Reg.STP_TGT_HI 1) == 0xFFFF) = true := by decide +kernel
theorem test_position_pair : after (.stpPosHiWrite 8000 1 0xFFFF) (live.modStp 1 fun x => { x with posLo := some 0xFFFFFFFF }) (fun u =>
      u.stpPos 1 == -1 && u.fb (Reg.STP_STATE 1) 6) = true ∧
    after (.stpPosHiWrite 8000 1 5) stepping (fun u => u.stpPos 1 == 100 && u.sbx.raised.any fun r => r.src == srcSTP && r.ev == 5) = true := by decide +kernel
theorem test_encoder_pair : after (.stpEncCntHiWrite 8000 2 0) (live.modEnc 2 fun x => { x with lo := some 9 }) (fun u => u.encCount 2 == 9) = true := by
  decide +kernel
/-- Encoder 2 on, FILT 0, at A low and B low. -/
def enc (rs : List (Nat × Word)) : State := (liveR (rs ++ [(Reg.STP_ENC_CFG 2, 1)])).modEnc 2 fun x =>
  { x with inA := { raw := false, run := 1, level := some false }, inB := { raw := false, run := 1, level := some false }
           inZ := { raw := false, run := 1, level := some false } }
/-- A leads B upward (log entry 107); both at once are an encoder fault of kind 1. -/
theorem test_encoder_count : after (.encoderCount 8000 2 [(true, false), (true, true), (false, true)]) (enc []) (fun u => u.encCount 2 == 3) = true ∧
    after (.encoderCount 8000 2 [(false, true)]) (enc []) (fun u => u.encCount 2 == -1) = true ∧
    after (.encoderCount 8000 2 [(false, false)]) (enc []) (fun u => u.encCount 2 == 0) = true ∧
    after (.encoderCount 8000 2 [(true, true)]) (enc []) (fun u => u.f (Reg.STP_ENC_STATUS 2) 2 0 == 3) = true := by decide +kernel
theorem test_encoder_index : let s := enc [(Reg.STP_ENC_CPR 2, 100), (Reg.STP_ENC_CNT_LO 2, 101)]
    after (.encoderIndexEdge ⟨8000, [true]⟩ 2) s (fun u => u.reg (Reg.STP_ENC_INDEX 2) == 101 && u.f (Reg.STP_ENC_STATUS 2) 2 0 == 0) = true ∧
    after (.encoderIndexEdge ⟨8000, [true]⟩ 2) (s.modEnc 2 fun x => { x with z := some 0 }) (fun u => u.f (Reg.STP_ENC_STATUS 2) 2 0 == 5) = true := by decide +kernel
theorem wit_encoder : let s := enc [(Reg.STP_ENC_CPR 2, 100), (Reg.STP_ENC_CNT_LO 2, 101)]
    s.fb (Reg.STP_ENC_CFG 2) 0 = true ∧ s.encRunning 2 = true ∧ live.encRunning 2 = false ∧
    ((s.stpEnc 2).inZ.sample 0 true).level = some true ∧ ((s.stpEnc 2).inA.sample 0 true).level ≠ (s.stpEnc 2).inA.level ∧
    ((s.stpEnc 2).inA.sample 0 false).level = (s.stpEnc 2).inA.level := by decide +kernel
theorem test_motion_period : (live.motionCh 1 none none).stpState 1 = 0 ∧ (live.motionCh 1 none none).stpPos 1 = 0 ∧
    after (.motionPeriod 12808 ([], [])) stepping (fun u => u.stpPos 1 == 100) = true := by decide +kernel
/-- STEP edges one PW apart and DIR ahead of a step down (R304). -/
theorem test_step_pulse : let x : StpCh := { t0 := 0 }
    let p := x.pulse 100 50 true 10
    p.dir.map (·.2) = some true ∧ p.fall = p.rise + 100 ∧ 10 ≤ p.rise ∧ (x.pulse 100 50 x.dirThen 10).dir = none := by decide +kernel
theorem wit_profiles : (genPosition 0 0 (1000 * 2 ^ 32) 10 10 1000 0).1 ≤ 1000 * 65536 ∧ 0 ≤ (genPosition 0 0 (1000 * 2 ^ 32) 10 10 1000 0).2 ∧
    genVelocity 0 100 10 10 0 ≤ 100 * 65536 := by decide +kernel
theorem wit_rest : let s := (liveR [(Reg.STP_STATE 1, 1)])
    s.stpState 1 = 1 ∧ (s.stpCh 1).gp = s.stpT 1 * 2 ^ 32 ∧ (s.restStp 1).stpState 1 = 0 ∧ live.goRefused 1 ≠ none := by decide +kernel

/-! ### High voltage, fuser and media -/

theorem test_hv_ramp : after (.hvRampWrite 8000 3 0x00020064) live (fun u => (u.hvUnit 3).ramping && (u.hvUnit 3).v1 == 100 && (u.hvUnit 3).n == 2) = true ∧
    after (.hvRampWrite 8000 3 0x00020064) (live.setB Reg.HV_STATUS 3 true) (fun u => !(u.hvUnit 3).ramping && u.fb Reg.HV_IRQ_STATUS 3) = true := by
  decide +kernel
theorem test_hv_period : let s := live.modHv 3 fun x => { x with v0 := 0, v1 := 100, n := 2, i := 0, ramping := true }
    after (.hvPeriod 32768) s (fun u => u.hvValue 3 == 50 && after (.hvPeriod 65536) u (fun v => v.hvValue 3 == 100 && !(v.hvUnit 3).ramping)) = true ∧
    after (.hvPeriod 32776) s (fun u => u.hvValue 3 == 0) = true := by decide +kernel
theorem test_ramp_action : after (.ramp 8000 2 0) (running live 0x10 3 1 0x00020064) (fun u => reported u && (u.hvUnit 3).ramping) = true ∧
    after (.ramp 8000 2 0) (running (live.setF Reg.SYS_MODE 2 0 Mode.safe.code) 0x10 3 1 0x00020064) (fun u => u.f Reg.HV_CNT 31 16 == 1 && !(u.hvUnit 3).ramping) =
      true := by decide +kernel
theorem test_ramp_values : rampValue 0 100 1 2 = 50 ∧ rampValue 100 0 2 2 = 0 ∧ ((List.range 64).map (refHigh 1000)).sum = 32000 := by decide +kernel
/-- Channel 3's first sample is at 3 · 3,200 ticks; its code comes 3,200 ticks later. -/
theorem test_adc : after (.adcResult 12800 3 0x123) live (fun u => u.f (Reg.HV_SENSE 3) 11 0 == 0x123) = true ∧
    after (.adcResult 12800 27 0x100) live (fun u => u.fusZone 3 == live.fusZone 3) = true := by decide +kernel
theorem test_adc_window : after (.adcResult 12800 3 0x123) (liveR [(Reg.HV_WIN 3, 0x00011010)]) (fun u => u.f (Reg.HV_SENSE 3) 15 12 == 0 &&
    u.sbx.raised != []) = true := by decide +kernel
theorem test_ac_update : after (.acUpdate 8192) ((liveR [(Reg.HV_AC_INC 24, 0x80000000)]).modAc 0 fun x => { x with phase := 0x80000000 }) (fun u =>
    (u.hvAc 0).phase == 0 && (u.hvAc 0).band == u.thmBand) = true ∧ after (.acUpdate 8200) (liveR [(Reg.HV_AC_INC 24, 5)]) (fun u => (u.hvAc 0).phase == 0) =
    true := by decide +kernel
theorem test_safe_stage : let s := { liveR [(Reg.HV_STATUS, 0xF)] with hv := { stageAt := 8000 } }
    after (.safeStageTimeout 100000000000 ) s (fun u => u.fb Reg.HV_IRQ_STATUS 1) = true ∧
    after (.safeStageTimeout 8000) live (fun u => !u.fb Reg.HV_IRQ_STATUS 1) = true := by decide +kernel

/-- Zone 2 is a TRIAC zone with its sensor inside its limits. -/
def zone (n : Nat) : State := (liveR [(Reg.FUS_ZCFG 2, 1), (Reg.FUS_ZSTATE 2, BitVec.ofNat 32 n)])
theorem test_zone_on : after (.fusZcmdOn 8000 2) ((zone 0).setReg (Reg.FUS_ZCFG 2) 0) (fun u => u.zState 2 == 0 && u.fb (Reg.FUS_ZSTATE 2) 2) = true ∧
    after (.fusZcmdOn 8000 2) (zone 1) (fun u => u.zState 2 == 1) = true := by decide +kernel
theorem wit_sensor : (zone 0).sensorOk 2 = true ∨ (zone 0).sensorOk 2 = false := by decide +kernel
theorem test_zone_off : after (.fusZcmdOff 8000 2) (zone 1) (fun u => u.zState 2 == 0) = true ∧
    after (.fusZcmdClear 8000 2) (zone 1) (fun u => u.zState 2 == 1) = true := by decide +kernel
theorem test_fuser_actions : after (.setpoint 8000 2 0) (running live 0x11 2 1 0x12345) (fun u => reported u && u.reg (Reg.FUS_SP 2) == 0x2345) = true ∧
    after (.fusTtOff 8000 2 0) (running (zone 1) 0x11 2 3 0) (fun u => u.zState 2 == 0) = true ∧
    after (.fusTtOn 8000 2 0) (running ((zone 0).setReg (Reg.FUS_ZCFG 2) 0) 0x11 2 2 0) (fun u => u.zState 2 == 0) = true := by decide +kernel
theorem test_fuser_period : after (.fuserControlPeriod live.ctlPeriod) { live with fus := { zone := (List.range 8).map fun z => (z, { sum := 10, cnt := 4 }) } }
    (fun u => (u.fusZone 2).cnt == 0 && u.f (Reg.FUS_TEMP 2) 31 16 == 2) = true ∧
    after (.fuserControlPeriod (live.ctlPeriod + 8)) live (fun u => u.fus.lastTc == 0) = true := by decide +kernel
/-- The samples end at the last ACT edge: 32 of them begin at tick 7,008. -/
theorem test_zc_edge : after (.zcEdge 8000 [(true, 32)]) (live.setReg Reg.FUS_ZC 31) (fun u => u.fus.edge == some 7008) = true ∧
    after (.zcEdge 8000 [(true, 32)]) (live.setReg Reg.FUS_ZC 32) (fun u => u.fus.edge.isNone) = true ∧
    after (.zcEdge 8000 [(true, 32)]) { liveR [(Reg.FUS_ZC, 31)] with fus := { edge := some 6000 } } (fun u => u.sbx.raised.any fun r => r.src == srcFUS && r.ev == 3) = true := by decide +kernel
def mains : State := { (liveR [(Reg.FUS_MAINS, 128000000), (Reg.FUS_ZC, 0)]) with fus := { edge := some 8000, ivals := List.replicate 8 128000000 } }
theorem test_zc_ok : after (.zcEdge 128008000 [(true, 1)]) mains (fun u => u.fb Reg.FUS_STATUS 0 && u.reg Reg.FUS_MAINS == 128000000) = true ∧
    after (.zcLoss 256008000) mains (fun u => u.fus.lost) = true ∧ after (.zcLoss 256007992) mains (fun u => !u.fus.lost) = true := by decide +kernel
theorem wit_conduct : (conduct (fun z => 65536 + z) [0, 1, 2] [] 2 0 65536).1.length ≤ 2 := by decide +kernel
theorem test_cut_off : let s := (liveR [(Reg.FUS_OT 2, 0x2800)]).modZone 2 fun x => { x with ot := 63 }
    after (.otSample 8000 2 0x800) s (fun u => u.fusCut && u.zState 0 == 3 && u.zState 7 == 3) = true ∧
    after (.otSample 8000 2 0x7FF) s (fun u => !u.fusCut && (u.fusZone 2).ot == 0) = true := by decide +kernel
theorem test_sense_edge : after (.senseEdge 8000 5 (true, 32) []) live (fun u => u.fb (Reg.SNS_IN_STATE 5) 0 && u.reg (Reg.SNS_TS_LEAD_LO 5) == 7008) = true ∧
    after (.senseEdge 8000 5 (false, 32) []) live (fun u => u.f (Reg.SNS_IN_STATE 5) 31 16 == 0) = true := by decide +kernel
def win1 : SnsWin := { input := 5, sheet := 2, claim := 0, trail := false, start := 6000, stop := 7500, guard := 1000 }
theorem test_sense_window : let s := { live with sns := { win := [win1] } }
    after (.senseEdge 8000 5 (true, 17) []) s (fun u => u.sns.win == [] && u.f (Reg.SNS_IN_STATE 5) 5 4 == 1) = true ∧
    after (.senseEdge 8000 5 (true, 94) []) s (fun u => u.sns.win == [] && u.f (Reg.SNS_IN_STATE 5) 5 4 != 1) = true ∧
    after (.windowLateExpiry 8000 5) s (fun u => u.sns.win == []) = true ∧ after (.windowLateExpiry 8000 5) { live with sns := { win := [{ win1 with stop := 8000 }] } }
      (fun u => u.sns.win.length == 1) = true := by decide +kernel
theorem test_window_action : after (.window 8000 2 0) (running live 0x12 5 1 0x00020007) (fun u => reported u && u.sns.win.map (·.stop) == [20800]) = true ∧
    after (.window 8000 2 0) (running live 0x12 5 1 7) (fun u => !reported u && u.sns.win == []) = true := by decide +kernel
theorem test_output_actions : after (.set 8000 2 0) (running live 0x12 0x103 2 1) (fun u => reported u && u.snsOut 3) = true ∧
    after (.pulse 8000 2 0) (running live 0x12 0x103 3 0x00010001) (fun u => u.snsOut 3 && Tab.get none u.sns.pulse 3 == some 14400) = true ∧
    after (.pulse 8000 2 0) (running live 0x12 0x103 3 1) (fun u => !u.snsOut 3) = true := by decide +kernel
theorem test_out_write : after (.snsOutWrite 8000 true 0x80000001) live (fun u => u.snsOut 32 && u.snsOut 63 && !u.snsOut 0) = true ∧
    after (.snsOutWrite 8000 false 1) { live with sns := { ttOut := [(0, some 8000)] } } (fun u => !u.snsOut 0) = true := by decide +kernel
theorem test_pulse_end : let s := ({ live with sns := { pulse := [(3, some 8000)] } })
    after (.pulseEnd 8000 3) s (fun u => u.snsOut 3 && Tab.get none u.sns.pulse 3 == none) = true ∧
    after (.pulseEnd 8000 4) s (fun u => !u.snsOut 4) = true := by decide +kernel


/-! ### DMA and Platforms -/

/-- The bytes of a descriptor that moves 32 bytes from the Stacks at 0x04002000 to 0x04003000. -/
def descBytes (op flags : Nat) : List Byte := bytesLE 1 op ++ bytesLE 1 flags ++ bytesLE 2 0 ++ bytesLE 4 7 ++
  bytesLE 8 0x04002000 ++ bytesLE 8 0x04003000 ++ bytesLE 4 32 ++ bytesLE 4 0
/-- Channel 5 is enabled, with a ring of 16 at 0x04000000 and a completion queue of 16 at 0x04001000; the ring's first
descriptor has operation op, and the source begins with the byte 0xAB. -/
def dmaLive (op : Nat) : State := let s := liveR [(Reg.DMA_CH_CFG 5, 0x0401), (Reg.DMA_RING_BASE 5, 0x40000), (Reg.DMA_RING_CFG 5, 4),
    (Reg.DMA_CQ_BASE 5, 0x40010), (Reg.DMA_CQ_CFG 5, 4)]
  (s.storeBytes 0x04000000 (descBytes op 0)).storeBytes 0x04002000 [0xAB]
/-- The descriptor has been fetched; it executes, n units done. -/
def fetched (op : Nat) : State := (dmaLive op).setDmaCh 5 { out := [{ idx := 0, bytes := descBytes op 0 }] }
def executing (op n : Nat) (fin : Option (Nat × Nat)) : State := (dmaLive op).setDmaCh 5
  { ex := some { d := { idx := 0, bytes := descBytes op 0 }, done := n, fin := fin } }

theorem test_dma_head : after (.dmaRingHeadWrite 8000 5 1) (dmaLive 1) (fun u => u.f (Reg.DMA_RING_HEAD 5) 9 0 == 1 && u.headSeen 5 == 0 &&
      after (.descriptorFetch 8000) u (fun v => (v.dmaCh 5).out == []) &&
      after (.descriptorFetch 8008) u (fun v => (v.dmaCh 5).out == [{ idx := 0, bytes := descBytes 1 0 }] && v.f (Reg.DMA_RING_TAIL 5) 9 0 == 1)) = true := by
  decide +kernel
theorem wit_fetch : let u := ((dmaLive 1).setReg (Reg.DMA_RING_HEAD 5) 1)
    (∀ d < 32, u.dmaFetches d = decide (d = 5)) ∧ u.dmaOutstanding < 128 ∧ (∀ d < 32, (dmaLive 1).dmaFetches d = false) ∧
    (∃ bs y, u.readMem iDMA (256 * (u.reg (Reg.DMA_RING_BASE 5)).toNat + 32 * u.f (Reg.DMA_RING_TAIL 5) 9 0) 32 = (.ok bs, y) ∧ y.regs = u.regs ∧
      y.dma = u.dma) := by
  refine ⟨by decide +kernel, by decide +kernel, by decide +kernel, descBytes 1 0, (dmaLive 1).setReg (Reg.DMA_RING_HEAD 5) 1, by decide +kernel, rfl, rfl⟩
theorem test_dma_en : after (.dmaEnWrite 8000 5 false) (fetched 1) (fun u => (u.dmaCh 5).out == [] && u.f (Reg.DMA_RING_TAIL 5) 9 0 == 0 &&
      !u.fb (Reg.DMA_CH_CFG 5) 0 && after (.dmaEnWrite 8008 5 true) u (fun v => v.fb (Reg.DMA_CH_CFG 5) 0)) = true ∧
    after (.dmaEnWrite 8000 5 false) (dmaLive 1) (fun u => u.f (Reg.DMA_RING_TAIL 5) 9 0 == 0) = true := by decide +kernel
theorem test_dma_abort : after (.dmaAbort 8000 5) (executing 1 1 none) (fun u => (u.dmaCh 5).ex.map (·.fin) == some (some (0x30, 16))) = true ∧
    after (.dmaAbort 8000 5) (executing 1 2 (some (0, 0xFFFFFFFF))) (fun u => (u.dmaCh 5).ex.map (·.fin) == some (some (0, 0xFFFFFFFF))) = true := by
  decide +kernel
theorem test_copy : after (.copy 8000 5 2 false) (fetched 1) (fun u => readByte u.mem 0x04003000 == 0xAB && readByte u.mem 0x04003001 == 0 &&
      (u.dmaCh 5).out == [] && (u.dmaCh 5).ex.map (·.fin) == some (some (0, 0xFFFFFFFF))) = true ∧
    after (.copy 8000 5 1 false) (executing 1 0 none) (fun u => (u.dmaCh 5).ex.map (fun e => (e.done, e.fin)) == some (1, none)) = true ∧
    after (.copy 8000 5 1 false) (fetched 2) (fun u => (u.dmaCh 5).ex.isNone) = true := by decide +kernel
theorem test_fill : after (.dmaFill 8000 5 1 false) (executing 2 0 none) (fun u => readByte u.mem 0x04003001 == 0x20 && readByte u.mem 0x0400300B == 4 &&
    readByte u.mem 0x04003010 == 0) = true := by decide +kernel
theorem test_dma_compare : after (.compare 8000 5 1 false) (executing 3 0 none) (fun u => (u.dmaCh 5).ex.map (·.fin) == some (some (1, 0))) = true ∧
    after (.compare 8000 5 1 false) (executing 3 1 none) (fun u => (u.dmaCh 5).ex.map (·.fin) == some (some (0, 0xFFFFFFFF))) = true := by decide +kernel
theorem wit_dma_check : (dmaLive 1).dmaCheck { idx := 0, bytes := descBytes 1 0 } = none ∧
    (dmaLive 1).dmaCheck { idx := 0, bytes := descBytes 1 0x20 } = some 0x10 ∧ (dmaLive 1).dmaCheck { idx := 0, bytes := descBytes 4 0 } = some 0x10 ∧
    ((fetched 1).dmaCh 5).turn 1 = true ∧ ((fetched 1).dmaCh 5).turn 2 = false := by decide +kernel
theorem wit_dma_memory : (match (dmaLive 1).readMem iDMA 0x04002000 16, (dmaLive 1).writeMem iDMA 0x04003000 [1], (dmaLive 1).writeMem iDMA 0x50000 [1],
    (dmaLive 1).readMem iDMA 0x50000 16, ({ dmaLive 1 with poison := [0x04002000] } : State).readMem iDMA 0x04002000 16 with
    | (.ok _, _), (none, _), (some .bus, _), (.error .bus, _), (.error .ecc, _) => true
    | _, _, _, _, _ => false) = true ∧ firstDiff [1, 2, 3] [1, 2, 4] 0 = some 2 := by decide +kernel
theorem test_circular : DmaSide.at { addr := 0x1F0, wrap := some 8, host := false } 0x10 = 0x100 ∧
    DmaSide.runs { addr := 0x1F0, wrap := some 8, host := false } 0x20 = [(0x1F0, 0x10), (0x100, 0x10)] ∧
    DmaSide.runs { addr := 0x1F0, wrap := some 8, host := false } 0x10 = [(0x1F0, 0x10)] ∧
    (dmaLive 1).dmaCheck { idx := 0, bytes := descBytes 1 2 } = some 0x10 ∧ ({ idx := 0, bytes := descBytes 1 2 } : DmaDesc).flag 1 = true ∧
    ({ idx := 0, bytes := descBytes 1 4 } : DmaDesc).flag 2 = true := by decide +kernel
/-- A record is 16 bytes: TAG, status, channel, index, offset. -/
theorem test_complete : after (.descriptorComplete 8000 5) (executing 1 2 (some (0, 0xFFFFFFFF))) (fun u => readByte u.mem 0x04001000 == 7 &&
      readByte u.mem 0x04001005 == 5 && readByte u.mem 0x0400100B == 0xFF && u.f (Reg.DMA_CQ_HEAD 5) 11 0 == 1 && u.reg (Reg.DMA_CH_CNT 5) == 1 &&
      (u.dmaCh 5).ex.isNone) = true ∧
    after (.descriptorComplete 8000 5) (executing 1 1 none) (fun u => (u.dmaCh 5).ex.isSome) = true ∧
    after (.descriptorComplete 8000 5) ((executing 1 2 (some (0x20, 0))).setReg (Reg.DMA_CH_CFG 5) 0x0403) (fun u => (u.dmaCh 5).halted &&
      u.fb Reg.DMA_IRQ_ERR 5 && u.f (Reg.DMA_CH_STATUS 5) 23 16 == 0x20 && u.sbx.raised.map (·.ev) == [1]) = true := by decide +kernel
theorem test_cq_full : let s := (executing 1 2 (some (0, 0xFFFFFFFF))).setReg (Reg.DMA_CQ_TAIL 5) 1
    s.dmaCqFull 5 = true ∧ after (.descriptorComplete 8000 5) s (fun u => (u.dmaCh 5).stall && u.f (Reg.DMA_CQ_HEAD 5) 11 0 == 0 &&
      after (.dmaCqTailWrite 8008 5 2) u (fun v => v.f (Reg.DMA_CQ_HEAD 5) 11 0 == 1 && !(v.dmaCh 5).stall)) = true ∧
    after (.dmaCqTailWrite 8008 5 2) (dmaLive 1) (fun v => v.f (Reg.DMA_CQ_HEAD 5) 11 0 == 0 && v.f (Reg.DMA_CQ_TAIL 5) 11 0 == 2) = true := by decide +kernel
theorem wit_record : (match ({ dmaLive 1 with fresh := 1 } : State).writeMem iDMA (256 * ((dmaLive 1).reg (Reg.DMA_CQ_BASE 5)).toNat + 16 * (dmaLive 1).cqHead 5)
    (dmaRecord 7 0 5 0 0) with | (none, _) => true | _ => false) = true := by decide +kernel

/-- Channel 9 binds endpoint 0 to endpoint 1, its AB queue holding ws. -/
def plt (ws : List Word) : State := (liveR [(Reg.PLT_CH_CFG 9, 0x010)]).setPltCh 9 { ab := ws.map fun w => (w, 7000) }
theorem test_plt_cfg : after (.pltChCfgWrite 8000 2 9 0x10) live (fun u => (Tab.get {} u.acc 2).err == .bus && u.pltA 9 == 7) = true ∧
    after (.pltChCfgWrite 8000 1 9 0x10) live (fun u => u.pltBound 9 && u.pltB 9 == 1) = true ∧
    after (.pltChCfgWrite 8000 1 9 0x21) (plt [5]) (fun u => u.pltB 9 == 1 && u.sbx.raised.map (·.ev) == [2]) = true ∧
    after (.pltChCfgWrite 8000 1 9 0x310) (plt [5]) (fun u => u.f (Reg.PLT_CH_CFG 9) 11 8 == 3) = true := by decide +kernel
theorem test_plt_refused : after (.pltTx 8000 0 9 5) live (fun u => u.fb Reg.PLT_ERR 2 && u.f Reg.PLT_ERR 13 8 == 9) = true ∧
    after (.pltTx 8000 4 9 5) (plt []) (fun u => u.fb Reg.PLT_ERR 0 && u.plt.fly == []) = true ∧
    after (.pltTx 8000 0 9 5) (plt (List.replicate 8 0)) (fun u => u.fb Reg.PLT_ERR 1) = true ∧
    after (.pltPop 8000 0 9 1) live (fun u => u.fb Reg.PLT_ERR 2) = true ∧ after (.pltRxRead 8000 0 9 0) live (fun u => u.fb Reg.PLT_ERR 2) = true := by
  decide +kernel
theorem test_plt_words : after (.pltTx 8000 0 9 5) (plt (List.replicate 7 0)) (fun u => u.pltCount 9 true == 8 &&
      u.plt.fly == [{ ch := 9, toB := true, word := 5, due := 8448 }] &&
      after (.pltWordArrive 8440 9 true) u (fun v => v.plt.fly != []) &&
      after (.pltWordArrive 8448 9 true) u (fun v => v.plt.fly == [] && (v.pltCh 9).ab.length == 8 && v.fb (Reg.PLT_ARR_LO 1) 9)) = true ∧
    after (.pltWordArrive 8448 9 false) live (fun v => v.plt.fly == []) = true := by decide +kernel
theorem test_plt_read : after (.pltRxRead 8000 1 9 1) (plt [5, 6]) (fun u => (Tab.get {} u.acc 1).value == 6) = true ∧
    after (.pltPop 8000 1 9 1) (plt [5, 6]) (fun u => u.pltIncoming 1 9 == [(6, 7000)]) = true ∧
    after (.pltPop 8000 1 9 1) ((plt []).setPltCh 9 { ab := [(5, 8000)] }) (fun u => u.pltIncoming 1 9 == [(5, 8000)]) = true ∧
    after (.pltPop 8000 1 9 15) (plt [5, 6]) (fun u => u.pltIncoming 1 9 == [] && !u.fb (Reg.PLT_ARR_LO 1) 9) = true := by decide +kernel

/-! ### Signal Box, power and temperature -/

/-- An event of source 9 that was raised at tick 8,000, with SBX_SRC_CFG[9] w. -/
def sbx (w : Word) : State := { liveR [(Reg.SBX_SRC_CFG 9, w)] with sbx := { raised := [{ src := 9, ev := 1, ts := 8000 }] } }
theorem test_event_edge : after (.sbxEventTake 8440) (sbx 0x20000) (fun u => u.sbx.raised.length == 1) = true ∧
    after (.sbxEventTake 8448) (sbx 0x20001) (fun u => u.sbx.raised == [] && u.sbxActive 9 && u.reg (Reg.SBX_HIST_W0 0) == 8000 &&
      u.reg (Reg.SBX_HIST_W2 0) == 9 + 64 + 1024 && u.f Reg.SBX_HIST_HEAD 4 0 == 1) = true ∧
    after (.sbxEventTake 8448) live (fun u => u.sbx == live.sbx) = true := by decide +kernel
theorem test_event_masked : after (.sbxEventTake 8448) (sbx 0) (fun u => u.f (Reg.SBX_SRC_CNT 9) 31 24 == 1 && !u.sbxActive 9) = true ∧
    after (.sbxEventTake 8448) ({ sbx 0x20000 with sbx := { (sbx 0).sbx with rst := Tab.put none [] 9 (some { start := 8000 }) } }) (fun u =>
      !u.sbxActive 9 && u.f (Reg.SBX_SRC_CNT 9) 23 12 == 1 && u.reg (Reg.SBX_HIST_W2 0) == 9 + 64 + 16384) = true := by decide +kernel
theorem test_event_reactions : let s := ((sbx 0x20002).setB Reg.SBX_CTRL 0 true).modGcore 0 fun c => { c with running := true }
    s.nmiCores = [0] ∧ after (.sbxEventTake 8448) s (fun u => u.fb Reg.SBX_NMI 7 && u.f Reg.SBX_NMI 5 0 == 9 && (Tab.get {} u.gcores 0).nmi && !u.sbx.chip) =
      true ∧
    after (.sbxEventTake 8448) (sbx 0x20002) (fun u => u.sbx.chip && u.reg Reg.SBX_CRST_CAUSE == 9 + 64 + 1024 + 2048) = true ∧
    after (.sbxEventTake 8448) (sbx 0x20004) (fun u => u.sbx.chip && u.reg Reg.SBX_CRST_CAUSE == 9 + 64 + 1024) = true ∧
    after (.sbxEventTake 8448) (sbx 0x20008) (fun u => u.sbx.errLow && u.reg (Reg.SBX_HIST_W2 0) == 9 + 64 + 8192) = true := by decide +kernel
theorem test_event_order : firstRaised [{ src := 9, ev := 0, ts := 8 }, { src := 7, ev := 0, ts := 8 }, { src := 9, ev := 0, ts := 0, brst := true }] =
    some { src := 9, ev := 0, ts := 0, brst := true } ∧ firstRaised [{ src := 9, ev := 0, ts := 8, brst := true }, { src := 9, ev := 3, ts := 8 }] =
    some { src := 9, ev := 3, ts := 8 } := by decide +kernel

theorem test_block_reset : after (.sbxBrstReq 8000 9) live (fun u => u.sbx.raised == [{ src := 9, ev := 0, ts := 8000, brst := true }] &&
    after (.sbxEventTake 8448) u (fun v => v.sbxInRst 9 && after (.blockResetDone 8704 9) (v.setF Reg.SBX_SHADOW 23 0 256) (fun x =>
      x.sbxInRst 9 && after (.shadowEnd 8952 9) x (fun y => y.sbxInRst 9) && after (.shadowEnd 8960 9) x (fun y => !y.sbxInRst 9) &&
      after (.blockResetDone 8960 9) x (fun y => y.sbx == x.sbx)))) = true ∧
    after (.blockResetDone 8704 9) live (fun u => u.sbx == live.sbx) = true := by decide +kernel
/-- Source 40 is in the fault state since tick 0, to leave it after 1 ms. -/
def faulty : State := { liveR [(Reg.SBX_SRC_QUIET 40, 1), (Reg.SBX_ACTIVE_HI, 0x100), (Reg.SBX_SRC_CFG 40, 8)] with sbx := { errLow := true, errAt := 8000 } }
theorem test_quiet : after (.quietExit 6400000 40) faulty (fun u => !u.sbxActive 40 && u.f (Reg.SBX_SRC_QUIET 40) 31 16 == 1 && !u.sbx.errLow) = true ∧
    after (.quietExit 6399992 40) faulty (fun u => u.sbxActive 40) = true := by decide +kernel
theorem test_active_write : after (.sbxActiveWrite 8000 true 0x100) faulty (fun u => !u.sbxActive 40 && u.sbx.errLow) = true ∧
    after (.sbxActiveWrite 8000 false 0x100) faulty (fun u => u.sbxActive 40) = true := by decide +kernel
theorem test_err_pin : after (.errNHoldExpiry 14400) (faulty.setReg Reg.SBX_ACTIVE_HI 0) (fun u => !u.sbx.errLow) = true ∧
    after (.errNHoldExpiry 14392) (faulty.setReg Reg.SBX_ACTIVE_HI 0) (fun u => u.sbx.errLow) = true ∧
    after (.errNHoldExpiry 14400) faulty (fun u => u.sbx.errLow) = true := by decide +kernel
theorem test_history_port : after (.sbxHistW0Read 8000 2 3) (liveR [(Reg.SBX_HIST_W0 3, 5), (Reg.SBX_HIST_W2 3, 7)]) (fun u =>
    (Tab.get {} u.acc 2).value == 5 && Tab.get [] u.sbx.hold 2 == [0, 7, 0]) = true := by decide +kernel
theorem test_origin_write : after (.sbxOriginWrite 8000 3 0) (liveR [(Reg.SBX_ORIGIN 3, 0x10005)]) (fun u => u.reg (Reg.SBX_ORIGIN 3) == 5) = true ∧
    after (.sbxOriginWrite 8000 3 0x10000) (liveR [(Reg.SBX_ORIGIN 3, 0x10005)]) (fun u => u.reg (Reg.SBX_ORIGIN 3) == 0x10005) = true := by decide +kernel
theorem test_emit_hold : let s := { liveR [(Reg.SBX_LINE_CFG, 1)] with sbx := { sent := Tab.put none [] 9 (some 0), held := Tab.put none [] 9 (some 2), heldN := Tab.put 0 [] 9 3 } }
    after (.faultEmitHoldExpiry 64000 9) s (fun u => (Tab.get none u.sbx.held 9).isNone && u.f Reg.SBX_LINE_SEQ 15 0 == 1 && u.f Reg.SBX_LINE_CNT_B 15 0 == 2) = true ∧
    after (.faultEmitHoldExpiry 63992 9) s (fun u => (Tab.get none u.sbx.held 9).isSome) = true := by decide +kernel
/-- A message of device 5, source 9, event 1, sequence number 7, at tick 8,000. -/
def remote (w : Word) : State := { liveR [(Reg.SBX_LINE_CFG, 2), (Reg.SBX_ORIGIN 5, w)] with sbx := { remote :=
  [{ at' := 8000, payload := 5 + 1024 * 9 + 65536 + 2 ^ 20 * 7 }] } }
theorem test_remote_fault : after (.remoteFaultTake 8184) (remote 0) (fun u => u.sbx.remote != []) = true ∧
    after (.remoteFaultTake 8192) (remote 0) (fun u => u.sbx.remote == [] && u.reg (Reg.SBX_ORIGIN 5) == 0x10007 && u.sbxActive 63 &&
      u.reg (Reg.SBX_HIST_W3 0) == 5 + 65536 * 7 && u.f Reg.SBX_LINE_CNT_A 15 0 == 1) = true ∧
    after (.remoteFaultTake 8192) (remote 0x10007) (fun u => u.f Reg.SBX_LINE_CNT_A 31 16 == 1 && !u.sbxActive 63) = true ∧
    after (.remoteFaultTake 8192) ((remote 0).setReg Reg.SBX_LINE_CFG 0) (fun u => u.sbx.remote == [] && !u.sbxActive 63) = true := by decide +kernel

/-- Domain 8 in a state, its step begun at tick 8,000. -/
def stepOf (d st : Nat) : State := ({ live with clk := { run := true, tb := 8000 } }.setF (Reg.PWR_DOM_STATE d) 3 0 st).setStep d (some 8000)
theorem test_domain_request : after (.domReqOff 8000 8) live (fun u => u.pwr.reqs.map (·.due) == [8192] && after (.domReqOn 8008 8) u (fun v =>
    v.pwr.reqs.length == 2)) = true := by decide +kernel
theorem test_domain_up : after (.domainStepReady 9000 8) (stepOf 8 1) (fun u => u.dom 8 == 2) = true ∧
    after (.domainStepReady 9000 8) (stepOf 8 4) (fun u => u.dom 8 == 5 && (u.stepAt 8).isNone) = true ∧
    after (.domainStepReady 9000 8) ((stepOf 8 3).setB (Reg.PWR_DOM_STATE 8) 4 true) (fun u => u.dom 8 == 7 && !u.domRev 8) = true ∧
    after (.domainStepReady 9000 8) ((stepOf 8 1).setB (Reg.PWR_DOM_STATE 8) 4 true) (fun u => u.dom 8 == 9) = true := by decide +kernel
theorem test_domain_down : after (.domainStepReady 9000 8) (stepOf 8 6) (fun u => u.dom 8 == 7) = true ∧
    after (.domainStepReady 9000 8) (stepOf 8 8) (fun u => u.dom 8 == 9) = true ∧ after (.domainStepReady 9000 8) (stepOf 8 9) (fun u => u.dom 8 == 0) = true ∧
    after (.domainStepReady 9000 8) ((stepOf 8 9).setB (Reg.PWR_DOM_STATE 8) 5 true) (fun u => u.dom 8 == 1 && u.f (Reg.PWR_DOM_CNT 8) 31 16 == 1) = true ∧
    after (.domainStepReady 9000 8) live (fun u => u.dom 8 == 5) = true := by decide +kernel
theorem test_domain_fail : after (.domFail 40768 8) (stepOf 8 4) (fun u => u.dom 8 == 10 && u.sbx.raised.map (·.src) == [2]) = true ∧
    after (.domFail 40760 8) (stepOf 8 4) (fun u => u.dom 8 == 4) = true := by decide +kernel

/-- The ARCHIVE request was taken at tick 8,000 from STANDBY. -/
def archiving : State :=
  let s := ((List.range 16).foldl (fun (s : State) d => if (s.modeSet .standby).contains d then s else s.setF (Reg.PWR_DOM_STATE d) 3 0 0) live).setF
    Reg.SYS_MODE 2 0 Mode.standby.code
  { s with pwr := { s.pwr with archAt := some 8000 } }
theorem test_archive : after (.archiveWaitEnd 8448) archiving (fun u => u.pwr.archive && u.pwr.left == [2, 11, 12, 13, 15] && u.dom 11 == 6 && u.dom 2 == 6) = true ∧
    after (.archiveWaitEnd 8448) (archiving.modGcore 0 fun c => { c with running := true }) (fun u => !u.pwr.archive && u.pwr.archAt.isSome) = true ∧
    after (.archiveWaitEnd 8448) (archiving.setF Reg.PWR_VREQ_STATUS 1 0 1) (fun u => u.pwr.archAt.isNone && u.f (Reg.PWR_DOM_STATE 2) 11 8 == 7) = true ∧
    after (.archiveWaitEnd 8448) live (fun u => !u.pwr.archive) = true := by decide +kernel
theorem test_archive_timeout : let s := archiving.modGcore 0 fun c => { c with running := true }
    after (.archiveWaitTimeout 6408000) s (fun u => u.pwr.archAt.isNone && u.f (Reg.PWR_DOM_STATE 2) 11 8 == 3) = true ∧
    after (.archiveWaitTimeout 6407992) s (fun u => u.pwr.archAt.isSome) = true ∧
    after (.archiveWaitTimeout 6408000) (archiving.setB (Reg.DMA_CH_CFG 3) 0 true) (fun u => u.f (Reg.PWR_DOM_STATE 2) 11 8 == 4) = true ∧
    after (.archiveWaitTimeout 8000) live (fun u => u.pwr == live.pwr) = true := by decide +kernel
/-- WAKE_N has been high, and eight samples low follow (R412). -/
def wakeHigh (w : Word) : State := let s := liveR [(Reg.PWR_WAKE_CFG, w)]
  { s with pwr := { s.pwr with wakeIn := { raw := true, run := 8, level := some true } } }
theorem test_wake : after (.wakeN ⟨8000, (List.replicate 8 false)⟩) (wakeHigh 1) (fun u => u.pwr.reqs == [{ due := 8192, kind := .wake 2 }]) = true ∧
    after (.wakeN ⟨8000, (List.replicate 7 false)⟩) (wakeHigh 1) (fun u => u.pwr.reqs == []) = true ∧
    after (.wakeN ⟨8000, (List.replicate 8 false)⟩) (wakeHigh 0) (fun u => u.pwr.reqs == []) = true := by decide +kernel
theorem test_wake_timer : let s := { (liveR [(Reg.PWR_WAKE_TIMER, 1)]).setF Reg.SYS_MODE 2 0 Mode.archive.code with pwr := { live.pwr with archIn := some 0 } }
    s.mode = .archive ∧ after (.wakeTimer 6400000) s (fun u => u.mode != .archive) = true ∧ after (.wakeTimer 6399992) s (fun u => u.mode == .archive) = true ∧
    after (.wakeTimer 6399992) live (fun u => u.pwr == live.pwr) = true := by decide +kernel

/-- A voltage request for 0x1000 ± 2, of 1 ms. -/
def vreq : State := liveR [(Reg.PWR_VREQ_B, 0x00021000), (Reg.PWR_VREQ_STATUS, 1), (Reg.PWR_VREQ_TO, 1)]
theorem test_vreq_start : after (.vreqStart 8000 0x00021000) live (fun u => u.vreqPending && u.pwr.vreqAt == 8000) = true ∧
    after (.vreqStart 8000 0) vreq (fun u => u.fb Reg.PWR_VREQ_STATUS 5 && u.reg Reg.PWR_VREQ_B == 0x00021000) = true := by decide +kernel
theorem test_vreq_poll : after (.vreqPoll 8000 0 0x1002) vreq (fun u => u.vreqPending && u.pwr.vreqGood == 1 && after (.vreqPoll 8008 0 0x0FFE) u (fun v =>
      v.f Reg.PWR_VREQ_STATUS 4 0 == 2)) = true ∧
    after (.vreqPoll 8000 0 0x1003) vreq (fun u => u.vreqPending && u.pwr.vreqGood == 0) = true ∧
    ([1, 2, 3].all fun n => after (.vreqPoll 8000 n 0) vreq fun u => u.f Reg.PWR_VREQ_STATUS 4 0 == 3 + 4 * n.val) = true ∧
    after (.vreqPoll 8000 1 0) live (fun u => u.regs == live.regs) = true := by decide +kernel
theorem test_vreq_timeout : after (.vreqTimeout 6400000) vreq (fun u => u.f Reg.PWR_VREQ_STATUS 4 0 == 19) = true ∧
    after (.vreqTimeout 6399992) vreq (fun u => u.vreqPending) = true := by decide +kernel

/-- The sequencer in a state, at rail k, with the enables en. -/
def rails (st k en : Nat) (gap : Bool) : State := { (live.setF Reg.PWR_SEQ_STATUS 2 0 st).setF Reg.PWR_SEQ_STATUS 23 16 0 with
  pwr := { seqRail := k, railEn := en, seqGap := gap, seqAt := 8000 } }
theorem test_rails_rise : after (.seqStart (true, ⟨8000, []⟩)) ((rails 0 0 0 false).setB Reg.PWR_SEQ_STATUS 14 true) (fun u => u.seqState == 1 && u.pwr.railEn == 1) =
      true ∧
    after (.seqStart (true, ⟨8000, [(true, 8)]⟩)) ((rails 0 0 0 false).setB Reg.PWR_SEQ_STATUS 14 false) (fun u => u.seqState == 0 && u.fb Reg.PWR_SEQ_STATUS 14) = true ∧
    after (.seqStart (true, ⟨8000, []⟩)) (rails 2 0 0xFF false) (fun u => u.seqState == 2) = true ∧
    after (.pgoodHigh ⟨8000, (List.replicate 8 true)⟩ 3) (rails 1 3 0xF false) (fun u => u.pwr.seqGap && u.seqState == 1) = true ∧
    after (.pgoodHigh ⟨8000, (List.replicate 7 true)⟩ 3) (rails 1 3 0xF false) (fun u => !u.pwr.seqGap) = true ∧
    after (.pgoodHigh ⟨8000, (List.replicate 8 true)⟩ 7) (rails 1 7 0xFF false) (fun u => u.seqState == 2 && u.pwr.porHeld && u.fb Reg.PWR_SEQ_STATUS 13) = true ∧
    after (.railGapExpiry 1000000000) (rails 1 3 0xF true) (fun u => u.pwr.railEn == 0x1F && u.pwr.seqRail == 4 && !u.pwr.seqGap) = true := by decide +kernel
theorem test_rails_fail : let low := List.replicate 8 false
    let good := fun (s : State) (i : Nat) => s.setB Reg.PWR_SEQ_STATUS (16 + i) true
    after (.pgLost ⟨8000, low⟩ 2) (good (rails 1 3 0xF false) 2) (fun u => u.seqState == 3 && u.pwr.railLatch && u.f Reg.PWR_SEQ_STATUS 6 4 == 2 &&
      u.f Reg.PWR_SEQ_STATUS 10 8 == 2 && u.pwr.railEn == 7) = true ∧
    after (.pgLost ⟨8000, low⟩ 3) (rails 1 3 0xF false) (fun u => u.seqState == 1) = true ∧
    after (.pgLost ⟨8000, low⟩ 0) (good (rails 2 7 0xFF false) 0) (fun u => u.seqState == 3) = true ∧
    after (.pgTimeout 2000000000) (rails 1 3 0xF false) (fun u => u.seqState == 3 && u.f Reg.PWR_SEQ_STATUS 10 8 == 1) = true ∧
    after (.pgTimeout 8000) ((rails 1 3 0xF false).setReg (Reg.PWR_RAIL_CFG 3) 5) (fun u => u.seqState == 1) = true := by decide +kernel
theorem test_rails_fall : after (.railGapExpiry 1000000000) (rails 3 3 7 true) (fun u => u.pwr.railEn == 3 && u.seqState == 3) = true ∧
    after (.railGapExpiry 1000000000) (rails 3 1 1 true) (fun u => u.pwr.railEn == 0 && u.seqState == 0) = true ∧
    after (.vinLost ⟨8000, [(false, 8)]⟩) ((rails 2 7 0xFF false).setB Reg.PWR_SEQ_STATUS 14 true) (fun u => u.seqState == 3 && u.f Reg.PWR_SEQ_STATUS 10 8 == 4 && u.fb Reg.PWR_IRQ_STATUS 3) = true ∧
    after (.vinLost ⟨8000, [(true, 9)]⟩) ((rails 0 0 0 false).setB Reg.PWR_SEQ_STATUS 14 false) (fun u => u.seqState == 0 && u.pwr.vinAt == some 7680) = true := by decide +kernel
theorem test_por_hold : let s := { rails 2 7 0xFF false with pwr := { (rails 2 7 0xFF false).pwr with porHeld := true } }
    after (.porHoldExpiry 6408000) s (fun u => !u.pwr.porHeld) = true ∧ after (.porHoldExpiry 6407992) s (fun u => u.pwr.porHeld) = true ∧
    s.por.fb Reg.LDG_STATUS 1 = false := by decide +kernel
/-- Rail 5's window is 0x100 to 0x200, three times. -/
theorem test_vmon : let r := (rails 2 7 0xFF false).setReg (Reg.PWR_VMON 5) 0x32000100
    let s := { r with pwr := { r.pwr with vmonBad := Tab.put 0 [] 5 2 } }
    after (.vmonSample 8000 5 0x0FF) s (fun u => u.seqState == 3 && u.f Reg.PWR_SEQ_STATUS 6 4 == 5 && u.f Reg.PWR_SEQ_STATUS 10 8 == 3) = true ∧
    after (.vmonSample 8000 5 0x100) s (fun u => u.seqState == 2 && Tab.get 0 u.pwr.vmonBad 5 == 0) = true ∧
    after (.vmonSample 8000 5 0x201) ((rails 2 7 0xFF false).setReg (Reg.PWR_VMON 5) 0x32000100) (fun u => u.seqState == 2 && Tab.get 0 u.pwr.vmonBad 5 == 1) =
      true ∧
    after (.vmonSample 8000 5 0x0FF) (rails 0 0 0 false) (fun u => u.f (Reg.PWR_VMON_VAL 5) 9 0 == 0xFF && u.seqState == 0) = true := by decide +kernel
theorem test_clear_latch : let s := rails 4 0 0 false
    after (.pwrClrEdge 8000) { s with pwr := { s.pwr with railLatch := true } } (fun u => u.seqState == 0 && !u.pwr.railLatch) = true ∧
    after (.pwrClrEdge 8000) s (fun u => u.seqState == 4) = true := by decide +kernel
theorem test_standby : after (.standbyReset 8000) live (fun u => u.seqState == 0 && u.pwr.railEn == 0) = true ∧
    after (.vstbyLoss 8000) live (fun u => u.pwr.standby && u.pwr.railEn == 0) = true := by decide +kernel

/-- Twelve readings of 30.0 °C, the first of x. -/
def readings (x : BitVec 16) : List (Option (BitVec 16)) := some x :: List.replicate 11 (some 300)
theorem test_temperature : after (.thmSample 400000 (readings 400)) live (fun u => u.thmTmax == 400 && u.f Reg.THM_STATUS 2 0 == 2 && u.f (Reg.THM_TS 1) 15 0 == 300 &&
      u.f Reg.THM_STATUS 11 8 == 0) = true ∧
    after (.thmSample 400008 (readings 400)) live (fun u => u.thmTmax == live.thmTmax) = true ∧
    after (.thmSample 400000 (readings 0xFFFF)) live (fun u => u.f (Reg.THM_TS 0) 15 0 == 0xFFFF && u.thmVal 0 == -1) = true ∧
    after (.thmSample 400000 (none :: List.replicate 11 (some 300))) live (fun u => u.sensorFailed 0 && u.f Reg.THM_STATUS 3 3 == 0) = true := by decide +kernel
theorem test_bands : bandOf 399 = 1 ∧ bandOf 400 = 2 ∧ bandNext 2 395 10 = 2 ∧ bandNext 2 389 10 = 1 ∧ bandNext 0 950 10 = 4 ∧ bandNext 0 (-10) 10 = 0 := by decide +kernel
theorem test_rise : let xs : List (Tick × Int) := (List.range 16).map fun i => (6400000 + 400000 * i, 310)
    after (.riseUpdate 12800000) { live with thm := { samples := xs, sums := List.replicate 100 (16 * 300) } } (fun u => u.thmRise == 100) = true ∧
    after (.riseUpdate 12800000) { live with thm := { samples := xs, sums := List.replicate 99 (16 * 300) } } (fun u => u.thmRise == 0 && u.thm.sums.length == 100) =
      true ∧
    after (.riseUpdate 12800008) { live with thm := { samples := xs, sums := [] } } (fun u => u.thm.sums == []) = true := by decide +kernel
theorem test_throttle : let s := ({ liveR [(Reg.THM_STATUS, 0x18), (Reg.THM_TIMES, 0x00010001)] with thm := { advAt := 0, samples := [(6400000, 300)] } })
    after (.throttleGraceExpiry 6400000) s (fun u => u.fb Reg.THM_STATUS 5 && u.fb Reg.TT_THROTTLE 9) = true ∧
    after (.throttleGraceExpiry 6399992) s (fun u => !u.fb Reg.THM_STATUS 5) = true ∧ s.held = [] ∧
    after (.throttleRelease 6400000) { s with thm := { s.thm with calm := some 0 } } (fun u => u.f Reg.THM_STATUS 5 3 == 0 && u.fb Reg.THM_IRQ_STATUS 5) = true ∧
    after (.throttleRelease 6399992) { s with thm := { s.thm with calm := some 0 } } (fun u => u.f Reg.THM_STATUS 5 3 == 3) = true ∧
    after (.throttleRelease 6400000) s (fun u => u.f Reg.THM_STATUS 5 3 == 3) = true := by decide +kernel

/-! ### The Line -/

/-- This device is 3 of the Line, its JOIN sent; port A and B are in the given states. -/
def line (a b : Nat) : State := { liveR [(Reg.LINE_STATUS, BitVec.ofNat 32 (a + 4 * b)), (Reg.LINE_CTRL, 1), (Reg.LINE_SYNC_INT, 6400), (Reg.SYS_LINE_ID, 3)] with
  line := { incarn := some 9 } }
/-- The frame that a port put on the wire last: one queued at tick 8,000 starts at the next block start, 8,052 (R441). -/
def wire (u : State) (p : Nat) : Option Frame := (((u.at (u.clk.tb + 80)).drainPort p).port p).wire
theorem test_line_en : after (.lineEnWrite 8000 true) (line 0 3) (fun u => u.portState 0 == 1 && u.portState 1 == 3 && (u.port 0).since == 8000) = true ∧
    after (.lineEnWrite 8000 false) (line 2 3) (fun u => u.portState 0 == 0 && u.portState 1 == 0 && !u.fb Reg.LINE_CTRL 0) = true := by decide +kernel
theorem test_port_up : after (.portUp 6400000 0) (line 1 0) (fun u => u.portState 0 == 2 && u.f Reg.LINE_STATUS 5 4 == 1 &&
      (wire u 0).map (·.type) == some ftJOIN) = true ∧
    after (.portUp 6400008 0) (line 1 0) (fun u => u.portState 0 == 1) = true ∧ after (.portUp 8000 0) (line 3 0) (fun u => u.portState 0 == 3) = true := by
  decide +kernel
theorem test_first_join : let s := { line 1 0 with line := { portA := { q := [[], [{ type := ftFAULT, origin := 3 }], [], []] } } }
    after (.portUp 8000 0) s (fun u => u.line.incarn == some 500 && (wire u 0).map (fun f => (f.type, f.origin, f.p0)) == some (ftJOIN, 3, 500) &&
      (((u.at 8080).drainPort 0).port 0).q == [[], [{ type := ftFAULT, origin := 3 }], [], []]) = true := by decide +kernel
theorem test_port_down : after (.portTrainTimeout 6400000 1) (line 0 1) (fun u => u.portState 1 == 3) = true ∧
    after (.portTrainTimeout 6400000 1) (line 0 2) (fun u => u.portState 1 == 2) = true ∧
    after (.portBreak 8000 0 true) (line 2 0) (fun u => u.portState 0 == 3 && u.fb Reg.LINE_IRQ_STATUS 0) = true ∧
    after (.portBreak 8000 0 false) ((line 2 0).setPort 0 { recent := List.replicate 16 true }) (fun u => u.portState 0 == 3) = true ∧
    after (.portBreak 8000 0 false) ((line 2 0).setPort 0 { recent := List.replicate 15 true }) (fun u => u.portState 0 == 2) = true ∧
    after (.portRetrain 64000000 0) (line 3 0) (fun u => u.portState 0 == 1) = true ∧
    after (.portRetrain 63999992 0) (line 3 0) (fun u => u.portState 0 == 3) = true := by decide +kernel
theorem test_frame_crc : after (.lineFrameCrcFail 8000 0) (line 2 0) (fun u => (u.port 0).recent == [true] && u.f Reg.LINE_CNT_A 15 0 == 1 &&
    u.fb Reg.LINE_IRQ_STATUS 4) = true ∧ after (.lineFrameCrcFail 8000 0) (line 1 0) (fun u => (u.port 0).recent == []) = true := by decide +kernel
/-- A frame of each queue; then a 65th frame of one. -/
theorem test_queues : popFrame [[], [{ type := 5, origin := 0 }, { type := 4, origin := 0 }], [{ type := 6, origin := 0 }], []] =
      some ({ type := 5, origin := 0 }, [[], [{ type := 4, origin := 0 }], [{ type := 6, origin := 0 }], []]) ∧
    (((line 1 0).setPort 0 { q := [[], List.replicate 63 { type := 5, origin := 0 }, [], []] }).queueFrame 0 { type := 4, origin := 3 }).port 0 =
      { q := [[], List.replicate 63 { type := 5, origin := 0 } ++ [{ type := 4, origin := 3 }], [], []] } ∧
    ((((line 1 0).setPort 0 { q := [[], List.replicate 64 { type := 5, origin := 0 }, [], []] }).queueFrame 0 { type := 4, origin := 3 }).fb
      Reg.LINE_IRQ_STATUS 3) = true := by decide +kernel

theorem test_delay : after (.delayReqSend 8000 0) (line 2 0) (fun u => (wire u 0) == some { type := ftDELAY_REQ, origin := 3, p0 := 8052 } &&
      after (.delayReqSend 8008 0) u (fun v => v.line == u.line)) = true ∧
    after (.delayReq 8000 0 5 127000) (line 2 0) (fun u => (wire u 0).map (fun f => (f.type, f.p0, f.p1)) == some (ftDELAY_RESP, 5, 1832)) = true ∧
    after (.delayReqSend 8000 0) (line 1 0) (fun u => u.line == (line 1 0).line) = true ∧
    after (.delayReqSend 8000 0) ((line 2 0).setB Reg.LINE_STATUS 10 true) (fun u => (wire u 0).isNone) = true := by decide +kernel
theorem test_delay_mean : after (.delayResp 8000 0 100 400 2200) ((line 2 0).setPort 0 { delays := [103] }) (fun u => (u.port 0).delays == [100, 103] &&
    u.f (Reg.LINE_DELAY 0) 23 0 == 101) = true := by decide +kernel
/-- A SYNC whose offset is e sixteenths of a tick, in time state n. -/
def timed (n : Nat) (e : Int) : State := ((line 2 0).setF Reg.LINE_STATUS 8 6 n |>.takeSync 0 5 1 e)
theorem test_sync_states : (timed 0 5000).timeState = 1 ∧ (timed 3 5000).timeState = 1 ∧ (timed 1 5000).clk.tb = 8000 + 8 * 39 ∧ (timed 1 64).line.inRange = 1 ∧
    (timed 2 1025).timeState = 1 ∧ (timed 2 1024).timeState = 2 ∧ (timed 2 (-64)).reg Reg.LINE_TIME_OFS = 0xFFFFFFC0 := by decide +kernel
theorem test_sync_lock : let s := { (line 2 0).setF Reg.LINE_STATUS 8 6 1 with line := { inRange := 3 } }
    (s.takeSync 0 5 1 (-64)).timeState = 2 ∧ (s.takeSync 0 5 1 (-65)).line.inRange = 0 ∧
    (((seq []).setF Reg.LINE_STATUS 8 6 1).takeSync 0 5 1 1024).fb Reg.LINE_STATUS 9 = true ∧
    ((seq []).setF Reg.LINE_STATUS 8 6 1).stepBlocked = true := by decide +kernel
theorem test_sync : after (.sync 8000 0 5 2 8000 16 128000) (line 2 2) (fun u => u.timeState == 1 && u.reg Reg.LINE_TIME_OFS == 16 &&
      (u.port 0).sync == some (3, 8000) && (wire u 1) == some { type := ftSYNC, origin := 5, hops := 3, p0 := 8000, p1 := 848 }) = true ∧
    after (.sync 8000 0 3 2 8000 16 128000) (line 2 2) (fun u => u.timeState == 0) = true ∧
    after (.sync 8000 0 5 2 8000 16 128000) ((line 2 2).setPort 1 { sync := some (3, 7992) }) (fun u => u.timeState == 0) = true ∧
    after (.sync 8000 0 5 2 8000 16 128000) ((line 2 2).setPort 1 { sync := some (4, 7992) }) (fun u => u.timeState == 1) = true := by decide +kernel
theorem test_sync_send : after (.syncSend 6400) ((line 2 0).setF Reg.LINE_STATUS 8 6 4) (fun u => (wire u 0).map (fun f => (f.type, f.origin)) == some (ftSYNC, 3)) = true ∧ after (.syncSend 8000) (line 2 0) (fun u => (wire u 0).isNone) = true := by
  decide +kernel
theorem test_sync_timeout : after (.syncTimeout 51200) ((line 2 0).setF Reg.LINE_STATUS 8 6 2) (fun u => u.timeState == 3 && u.fb Reg.LINE_IRQ_STATUS 1) = true ∧
    after (.syncTimeout 51192) ((line 2 0).setF Reg.LINE_STATUS 8 6 2) (fun u => u.timeState == 2) = true := by decide +kernel
theorem test_master : after (.lineMasterSet 8000 true) ((line 0 0).setReg Reg.LINE_CTRL 0) (fun u => u.timeState == 4 && after (.lineMasterSet 8008 false) u (fun v =>
      v.timeState == 0)) = true ∧
    after (.lineMasterSet 8000 true) (line 2 0) (fun u => u.timeState == 0 && u.sbx.raised.map (·.ev) == [5]) = true ∧
    after (.lineMasterSet 8000 false) (line 2 0) (fun u => u.sbx.raised == []) = true := by decide +kernel

theorem test_signal_frames : after (.lineSpwFrame 8000 0 5 3 2 7 (BitVec.ofNat 64 (4 * 2 ^ 32 + 99)) 0) (line 2 2) (fun u => u.point 4 == 99 &&
      after (.lineSpwFrame 8008 0 5 3 2 7 (BitVec.ofNat 64 (4 * 2 ^ 32 + 98)) 0) u (fun v => v.point 4 == 99)) = true ∧
    after (.lineSpwFrame 8000 0 5 6 2 7 99 0) (line 2 2) (fun u => u.point 4 == 0 && (wire u 1).map (·.hops) == some 3) = true ∧
    after (.lineSpwFrame 8000 0 3 6 2 7 99 0) (line 2 2) (fun u => (wire u 1).isNone && u.f Reg.LINE_CNT_B 15 0 == 1) = true ∧
    after (.lineSpwFrame 8000 0 5 3 2 7 99 0) (line 1 2) (fun u => u.line == (line 1 2).line) = true := by decide +kernel
theorem test_publish : let s := (line 2 2).setReg (Reg.LINE_SUB 8) 0x80001404
    after (.publish 8000 0 5 1 7 (BitVec.ofNat 64 (0x1404 * 2 ^ 32 + 99)) 0) s (fun u => u.reg (Reg.LINE_COPY 8) == 99 && u.fb (Reg.LINE_SUB 8) 30 &&
      (wire u 1).map (·.type) == some ftPUBLISH && after (.publish 8008 0 5 1 7 (BitVec.ofNat 64 (0x1404 * 2 ^ 32 + 98)) 0) u (fun v =>
        v.reg (Reg.LINE_COPY 8) == 99)) = true ∧
    after (.publish 8000 0 3 1 7 (BitVec.ofNat 64 (0x1404 * 2 ^ 32 + 99)) 0) s (fun u => u.reg (Reg.LINE_COPY 8) == 0) = true := by decide +kernel
theorem test_fault_join : after (.faultFrame 8000 0 5 1 7 0x1234) (line 2 2) (fun u => u.sbx.remote == [{ at' := 8000, payload := 0x1234 }]) = true ∧
    after (.join 8000 0 5 1 0x77 1) ((line 2 2).setReg (Reg.SBX_ORIGIN 5) 0x10003) (fun u => (u.peer 5).incarn == some 0x77 && u.reg (Reg.SBX_ORIGIN 5) == 3) = true := by decide +kernel
theorem wit_unit : (∃ p : BitVec 64, p.toNat = State.unitId) ∧ ∃ p : BitVec 64, p.toNat ≠ State.unitId := by
  refine ⟨⟨BitVec.ofNat 64 State.unitId, by simp [State.unitId]⟩, ?_⟩
  by_cases h : State.unitId = 0
  · exact ⟨1, by rw [h]; decide⟩
  · exact ⟨0, by simpa using Ne.symm h⟩
theorem test_publish_send : after (.publishSend 8000) ({ (line 2 0).setPoint 4 99 with line := { incarn := some 9, pubPending := [4, 6], seqPub := 65535 } }) (fun u =>
      u.line.pubPending == [6] && u.line.seqPub == 0 && (wire u 0).map (fun f => (f.type, f.origin, f.p0)) == some (ftPUBLISH, 3, (3 * 1024 + 4) * 2 ^ 32 + 99)) =
      true ∧ after (.publishSend 8000) (line 2 0) (fun u => u.line.pubPending == []) = true := by decide +kernel
theorem test_sub_write : after (.lineSubWrite 8000 8 0xC0001404) ((line 2 0).setReg (Reg.LINE_COPY 8) 5) (fun u => u.reg (Reg.LINE_SUB 8) == 0x80001404 &&
    u.reg (Reg.LINE_COPY 8) == 0) = true := by decide +kernel

/-- Channel 9 binds endpoint 0 to the Line, paired with device 5's channel 2. -/
def paired (ab : List Word) : State := ((((line 2 0).setReg (Reg.PLT_CH_CFG 9) 0x030).setReg (Reg.LINE_PLT 9) 0x10805).setPltCh 9 { ab := ab.map fun w => (w, 7000) })
theorem test_mailbox : after (.pltFrame 8000 0 5 3 0 7 (BitVec.ofNat 64 (2 ^ 38 + 9 * 2 ^ 32 + 99))) (paired []) (fun u => u.plt.fly.map (fun f => (f.ch, f.toB, f.word)) ==
      [(9, false, 99)] && (u.link 9).got == 1) = true ∧
    after (.pltFrame 8000 0 6 3 0 7 (BitVec.ofNat 64 (2 ^ 38 + 9 * 2 ^ 32 + 99))) (paired []) (fun u => u.plt.fly == [] && u.f Reg.LINE_CNT_D 31 16 == 1) = true ∧
    after (.credit 8000 0 5 3 0 7 (BitVec.ofNat 64 (64 * 4 + 9))) (paired []) (fun u => (u.link 9).credited == 4) = true := by decide +kernel
theorem test_mailbox_send : after (.pltFrameSend 8000 9) (paired [99, 98]) (fun u => (u.link 9).sent == 1 && u.pltIncoming eLINE 9 == [(98, 7000)] &&
      (wire u 0) == some { type := ftPLT, origin := 3, dest := 5, seq := 1, p0 := 99 + 2 ^ 32 * 2 + 2 ^ 38 }) = true ∧
    after (.pltFrameSend 8000 9) (paired []) (fun u => (u.link 9).sent == 0) = true ∧
    after (.pltFrameSend 8000 9) ((paired [99]).setLink 9 { sent := 8 }) (fun u => (u.link 9).sent == 8) = true := by decide +kernel

/-! ### Host, trust, the Ledger and the background services -/

/-- The link is up, with Bus Master Enable and MSI-X. -/
def host : State := liveR [(Reg.HST_STATUS, 0x901), (Reg.HST_CTRL, 1)]
theorem test_host_memory : host.dlUp = true ∧ after (.hostWrite 8000 true 0x10 [1, 2, 3, 4]) host (fun u => readByte u.mem 0x04000013 == 4 &&
      after (.hostRead 8008 true 0x10 4) u (fun v => (Tab.get {} v.acc iHOST).value == 0x04030201)) = true ∧
    after (.hostWrite 8000 true 0x10 [1]) live (fun u => u.mem == []) = true := by decide +kernel
theorem test_host_refused : after (.hostRead 8000 false 0x1A00000 4) host (fun u => u.reg Reg.HST_ERR_ADDR == 0x11A00000 && u.fb Reg.HST_IRQ_STATUS 1 &&
      u.sbx.raised.map (·.src) == [30]) = true ∧
    after (.hostWrite 8000 true 0x10 [1]) (host.setReg Reg.SEC_GATE_OPEN 0) (fun u => u.reg Reg.HST_ERR_ADDR == 0x08000010 && u.mem == []) = true := by decide +kernel
theorem test_msix_table : after (.hostWrite 8000 false 0x3000020 (bytesLE 8 0x1234 ++ bytesLE 4 9 ++ bytesLE 4 0)) host (fun u =>
      Tab.get {} u.hst.table 2 == { addr := 0x1234, data := 9, masked := false } && (Tab.get {} u.hst.table 1).masked &&
      after (.hostRead 8008 false 0x3000020 8) u (fun v => (Tab.get {} v.acc iHOST).value == 0x1234)) = true ∧
    after (.hostRead 8008 false 0x3001000 8) { host with hst := { pending := [3, 8] } } (fun v => (Tab.get {} v.acc iHOST).value == 0x108) = true := by decide +kernel
theorem test_link : after (.pcieLinkUp 8000 3 4 true true false false) (liveR [(Reg.HST_CTRL, 1)]) (fun u => u.f Reg.HST_STATUS 11 0 == 0x947) = true ∧
    after (.pcieLinkUp 8000 3 4 true true false false) live (fun u => !u.dlUp || live.fb Reg.HST_CTRL 0) = true ∧
    after (.perstN 8000 true) host (fun u => u.hst.perst && u.fb Reg.HST_STATUS 9 && !u.dlUp && after (.perstN 8008 false) u (fun v => !v.hst.perst &&
      !v.fb Reg.HST_STATUS 9)) = true ∧
    after (.linkDown 8000) host (fun u => !u.dlUp && u.fb Reg.HST_IRQ_STATUS 0) = true ∧
    after (.flr 8000) host (fun u => u.dlUp && !u.fb Reg.HST_STATUS 8 && u.fb Reg.HST_IRQ_STATUS 4) = true := by decide +kernel
/-- Vector 5 answers doorbell 5. -/
def vector (masked bell : Bool) : State := { host.setReg (Reg.HST_MSIX_SRC 5) 0x38 |>.setReg Reg.HST_DB_LO (if bell then 0x20 else 0) with
  hst := { table := Tab.put {} [] 5 { masked := masked } } }
theorem test_vectors : after (.msixVectorSend 8000 5) (vector false true) (fun u => u.hst.sent == [5] && after (.msixVectorSend 8008 5) u (fun v => v.hst.sent == [5])) =
      true ∧
    after (.msixVectorSend 8000 5) (vector true true) (fun u => u.hst.pending == [5] && u.hst.sent == []) = true ∧
    after (.msixVectorSend 8000 5) (vector false false) (fun u => u.hst.sent == []) = true ∧
    after (.hstMsixRearm 8000 5) (vector false true) (fun u => u.hst.sent == [5]) = true ∧
    after (.hstMsixRearm 8000 5) (vector false false) (fun u => u.hst.sent == []) = true ∧
    after (.hstDbSet 8000 true 6) (host.setReg Reg.HST_DB_HI 1) (fun u => u.reg Reg.HST_DB_HI == 7) = true := by decide +kernel

theorem test_stages : after (.stageAdvance 8000 1) (liveR [(Reg.SEC_BOOT, 0)]) (fun u => u.stage == 1) = true ∧
    after (.stageAdvance 8000 3) (liveR [(Reg.SEC_BOOT, 0)]) (fun u => u.stage == 0) = true ∧
    after (.secRbAdv 8000 2) (liveR [(Reg.SEC_BOOT, 1)]) (fun u => u.rbCount 2 == 1 && u.rbCount 1 == 0) = true ∧
    after (.secRbAdv 8000 2) (liveR [(Reg.SEC_BOOT, 2)]) (fun u => u.rbCount 2 == 0) = true := by decide +kernel
theorem test_release1 : after (.release1 8000) (liveR [(Reg.SEC_CORE1_ENTRY, 0x11100000)]) (fun u => (Tab.get {} u.gcores 1).pc == 0x11100000 &&
    (Tab.get {} u.gcores 1).running && u.sec.released && after (.release1 8008) u (fun v => v.gcores == u.gcores)) = true := by decide +kernel
/-- A part in stage n and life cycle lc whose commands take their operands at 0x04000000. -/
def trust (n lc : Nat) : State := { liveR [(Reg.SEC_BOOT, BitVec.ofNat 32 n), (Reg.SEC_ARG, 0x04000000)] with sec := { otp := { lc := lc } } }
theorem test_sec_commands : after (.keygen 8000) (trust 1 0) (fun u => u.f Reg.SEC_CMD_STATUS 1 0 == 1 && u.sec.cmd.map (·.op) == some 1 &&
      after (.verify 8008) u (fun v => v.f Reg.SEC_CMD_STATUS 7 4 == 1 && v.f Reg.SEC_CMD_STATUS 1 0 == 1)) = true ∧
    after (.fuseOem 8000) (trust 2 0) (fun u => u.f Reg.SEC_CMD_STATUS 7 0 == 0x23) = true ∧ after (.cert 8000) (trust 1 0) (fun u => u.f Reg.SEC_CMD_STATUS 7 0 == 0x33) =
      true ∧
    after (.sign 8000) (trust 1 0) (fun u => u.f Reg.SEC_CMD_STATUS 7 0 == 0x33) = true ∧ after (.meter 8000) (trust 1 2) (fun u => u.f Reg.SEC_CMD_STATUS 7 0 == 0x43) =
      true ∧
    after (.lcChange 8000) (trust 3 0) (fun u => u.f Reg.SEC_CMD_STATUS 7 0 == 0x23) = true ∧
    after (.extend 8000) (trust 1 0) (fun u => u.f Reg.SEC_CMD_STATUS 7 0 == 0x23) = true := by decide +kernel
theorem wit_no_refusal : (trust 1 0).secRefusal 2 0x04000000 0 [] = none ∧ (trust 0 0).secRefusal 4 0x04000000 0 [] = none ∧ (trust 0 0).secRefusal 5 0x04000000 0 [] = none ∧
    (trust 0 2).secRefusal 6 0x04000000 0 [0, 0, 0, 0, 2] = none ∧
    ({ trust 0 0 with sec := { otp := { key := some 5, oem := 7 } } } : State).secRefusal 8 0x04000000 1 [] = none := by decide +kernel
theorem wit_no_refusal2 : (trust 0 2).secRefusal 7 0x04000000 0 (List.replicate 26 0 ++ [4]) = none ∧ occursIn [1, 2] [0, 1, 2] = true ∧
    (∃ d, (trust 0 1).secRefusal 3 0x04000000 65 d = none) := ⟨by decide +kernel, by decide +kernel, (trust 0 1).pubBytes, by decide +kernel⟩
/-- The hash of 64 zero bytes extends register 0. -/
theorem test_extend : after (.secCommandComplete 8000) { trust 0 0 with sec := { cmd := some { op := 4, arg := 0, arg2 := 0, start := 0, data := List.replicate 32 0 } } }
    (fun u => u.reg (Reg.SEC_MEAS 0 0) == 0xf5a5fd42 && u.reg (Reg.SEC_MEAS 0 7) == 0x2759fb4b && u.reg (Reg.SEC_MEAS 1 0) == 0 && u.sec.cmd.isNone &&
      u.f Reg.SEC_CMD_STATUS 1 0 == 2) = true := by decide +kernel
theorem test_fuse : after (.secCommandComplete 8000) { trust 0 0 with sec := { cmd := some { op := 2, arg := 0, arg2 := 0, start := 0, data := [1, 2] } } }
    (fun u => u.sec.otp.oem == 0x102) = true := by decide +kernel
/-- A digest of zero whose signature is the abscissa of the key, which is the base point, twice. -/
theorem test_verify : let d (s : Nat) := List.replicate 32 0 ++ bytesBE 32 ecG.1 ++ bytesBE 32 ecG.2 ++ bytesBE 32 ecG.1 ++ bytesBE 32 s
    after (.secCommandComplete 8000) { trust 0 0 with sec := { cmd := some { op := 5, arg := 0, arg2 := 0, start := 0, data := d ecG.1 } } }
      (fun u => u.f Reg.SEC_CMD_STATUS 1 0 == 2) = true ∧
    after (.secCommandComplete 8000) { trust 0 0 with sec := { cmd := some { op := 5, arg := 0, arg2 := 0, start := 0, data := d 0 } } }
      (fun u => u.f Reg.SEC_CMD_STATUS 7 0 == 0x73) = true ∧
    after (.secCommandComplete 8000) { trust 0 2 with sec := { otp := { lc := 2 }, cmd := some { op := 8, arg := 0, arg2 := 3, start := 0, data := [] } } }
      (fun u => u.f Reg.SEC_CMD_STATUS 7 0 == 0x73) = true := by decide +kernel

theorem test_ledger_app : after (.ldgApp 8000 0x40) (liveR [(Reg.LDG_APP_BODY 1, 5)]) (fun u => u.appPending && u.f Reg.LDG_APP_STATUS 1 0 == 1 &&
      after (.ldgApp 8008 0x40) u (fun v => v.f Reg.LDG_APP_STATUS 1 0 == 3) &&
      after (.ledgerUnitWrite 8008 true true) u (fun v => v.f Reg.LDG_APP_STATUS 1 0 == 2 && v.ldgHead 5 == 1 && readByte v.mem (unitAddr 5 0) == 0x40 &&
        readByte v.mem (unitAddr 5 0 + 20) == 5 && v.ldg.cur.isNone)) = true ∧
    after (.ldgApp 8000 0x3F) live (fun u => u.f Reg.LDG_APP_STATUS 1 0 == 3) = true ∧ after (.ldgApp 8000 0x80) live (fun u => u.f Reg.LDG_APP_STATUS 1 0 == 3) = true := by
  decide +kernel
/-- A record of two units, placed at the end of the ring of region 5. -/
def unit2 : State := { live with ldg := { live.ldg with cur := some { cls := 4, kind := 0x11, units := 2, time := 0, body := [], base := some 8191 } } }
theorem test_ledger_units : after (.ledgerUnitWrite 8000 true true) unit2 (fun u => u.ldg.cur.map (·.done) == some 1 && after (.ledgerUnitWrite 8008 true true) u (fun v =>
      v.ldg.cur.isNone)) = true ∧
    after (.ledgerUnitWrite 8000 false false) { unit2 with ldg := { unit2.ldg with reserve := [1000] } } (fun u => u.fb Reg.LDG_IRQ_STATUS 0 &&
      u.fb Reg.LDG_IRQ_STATUS 1 && u.ldg.reserve == [] && u.f Reg.LDG_STATUS 15 8 == 0) = true ∧
    after (.ledgerUnitWrite 8000 true true) live (fun u => u.mem == []) = true := by decide +kernel
theorem test_ledger_order : nextReq [{ cls := 2, kind := 3, units := 1, time := 5, body := [] }, { cls := 1, kind := 9, units := 1, time := 9, body := [] }] =
      some { cls := 1, kind := 9, units := 1, time := 9, body := [] } ∧
    (live.ldgPlace { cls := 2, kind := 0x10, units := 1, time := 0, body := [] }).isSome = true ∧
    ((live.setF (Reg.LDG_HEAD 2) 15 0 3072).ldgPlace { cls := 2, kind := 0x10, units := 1, time := 0, body := [] }).isNone = true ∧ live.ldgSpare.isSome = true := by
  decide +kernel

/-- The background services are on. -/
def bkg : State := liveR [(Reg.BKG_CTRL, 0x3F), (Reg.BKG_ROW, 1), (Reg.BKG_PERIODS, 0x00010001), (Reg.BKG_TEL_BASE, 0x04000000), (Reg.BKG_TEL_CFG, 4), (Reg.SEC_BOOT, 0x100)]
theorem test_scrub : bkg.scrubs 0x04000008 = true ∧ bkg.scrubs 8 = false ∧
    after (.sramScrubWord 8000 0x04000008 0 false) bkg (fun u => u.regs == bkg.regs) = true ∧
    after (.sramScrubWord 8000 0x04000008 0 true) bkg (fun u => u.reg Reg.BKG_SRAM_PASSES == 1 && u.bkg.passAt == 8000) = true ∧
    after (.sramScrubWord 8000 0x04000008 1 false) bkg (fun u => u.f Reg.BKG_SRAM_CNT 15 0 == 1 && u.ldg.repaired == [0x10000]) = true ∧
    after (.sramScrubWord 8000 0x04000008 2 false) bkg (fun u => u.poison == [0x04000008] && u.reg Reg.BKG_UNCOR_ADDR == 0x04000008 && u.fb Reg.BKG_IRQ_STATUS 0) =
      true := by decide +kernel
theorem test_pass_late : after (.passLate 64000000000) bkg (fun u => u.bkg.late && u.fb Reg.BKG_IRQ_STATUS 3) = true ∧
    after (.passLate 63999999992) bkg (fun u => !u.bkg.late) = true := by decide +kernel
theorem test_dram : after (.dramScrubBurst 8000 0x100000047 2) bkg (fun u => u.poison == (List.range 8).map (fun i => 0x100000040 + 8 * i) && u.sbx.raised.map (·.ev) == [1]) =
      true ∧
    after (.dramScrubBurst 8000 0x100000047 1) bkg (fun u => u.poison == [] && u.sbx.raised.map (·.ev) == [0]) = true ∧
    after (.dramScrubBurst 8000 0x100000047 2) (bkg.setReg Reg.SEC_BOOT 0) (fun u => u.poison == []) = true ∧
    after (.ddrTrainingEnd 8000 true) (bkg.setReg Reg.SEC_BOOT 0) (fun u => u.sys.wiping && after (.dramWipeDone 8008) { u with mem := [(5, 1), (0x100000000, 7)] } (fun v =>
      v.dramReady && v.mem == [(5, 1)])) = true ∧
    after (.ddrTrainingEnd 8000 false) (bkg.setReg Reg.SEC_BOOT 0) (fun u => !u.sys.wiping) = true ∧
    after (.dramWipeDone 8000) bkg (fun u => u.sys == bkg.sys) = true := by decide +kernel
/-- The folds of stations 0 and 1 wait for LDG: 12 units each, emitter 3's total in its place. -/
theorem test_wear : after (.wearFold 6400000000) ((bkg.setReg (Reg.EXP_ONTIME_LO 0 3) 500).setDom 8 0 |>.setDom 9 0) (fun u =>
      u.ldgWaiting.map (fun r => (r.kind, r.units, r.base, sliceLE r.bytes 24 8)) == [(0x100, 12, some 0, 500), (0x101, 12, some 12, 0)] &&
      u.bkg.foldAt == 6400000000) = true ∧
    after (.wearFold 6399999992) bkg (fun u => u.ldgWaiting == []) = true := by decide +kernel
/-- A domain in DN_LOGIC waits for its last fold (R485). -/
theorem test_last_fold : let s := bkg.setDom 7 6
    s.foldWaits 7 = true ∧ after (.wearFold 8000) s (fun u => u.bkg.lastFolds == [7] && u.ldgWaiting.length == 2) = true := by decide +kernel
theorem test_telemetry : after (.telemetrySnapshot 6400000) (bkg.setReg Reg.BKG_TEL_BASE 0) (fun u => u.f Reg.BKG_TEL_HEAD 9 0 == 1 && u.mem == []) = true ∧
    bkg.telSnapshot.take 5 = [0x52, 0x54, 0x45, 0x4D, 2] ∧ bkg.telSnapshot.length = 64 ∧
    after (.telemetrySnapshot 6399992) bkg (fun u => u.mem == []) = true ∧
    after (.telemetrySnapshot 6400000) { bkg.setReg Reg.BKG_CTRL 0x60 with sec := { otp := { key := some 1 } } } (fun u => u.bkg.tel.isSome) = true := by decide +kernel

/-! ### Witnesses of hypotheses about operations -/

/-- R185: bytes at the end of a tile row go on in the next row; a lane is allowed to write its band buffer. -/
theorem wit_band_write : (live.writeBand 5 340 11 34 1023 [1, 2]).1 = true ∧
    readByte (live.writeBand 5 340 11 34 1023 [1, 2]).2.mem (bandBase 5 + 340 * 12288 + 12287) = 1 ∧
    readByte (live.writeBand 5 340 11 34 1023 [1, 2]).2.mem (bandBase 5 + 11264) = 2 := by decide +kernel

/-- R43: SAFE and a request of one edge, in either order of the list. -/
theorem wit_mode_order : ModeEv.safe.rank < (ModeEv.request 5).rank ∧
    (let due := fun es : List ModeDue => ({ inMode .ready with sys := { events := es } } : State).closeEdge 8000
     (due [{ due := 8000, ev := .safe }, { due := 8000, ev := .request 5 }]).mode = .safe ∧
     due [{ due := 8000, ev := .request 5 }, { due := 8000, ev := .safe }] =
       due [{ due := 8000, ev := .safe }, { due := 8000, ev := .request 5 }] ∧
     (due [{ due := 8008, ev := .safe }]).mode = .ready) := by decide +kernel

/-- R353: FILT 0 takes the first sample, FILT 65,535 the last of 65,536. -/
theorem wit_input_filter : (({} : InFilter).changes 0 32 false 64 [(true, 1)]).2 = [(true, 64)] ∧
    (({} : InFilter).changes 65535 32 false 64 [(true, 65535)]).2 = [] ∧
    (({} : InFilter).changes 65535 32 false 64 [(true, 65536)]).2 = [(true, 64)] := by decide +kernel

/-- R252: the words of SOF, EOF, TBL and LIGHT at the ends of their fields. -/
theorem wit_control_words : sofWord 5 65537 3 = 0x500010378#64 ∧ eofWord true 0xFFFFFFFF = 0xFFFFFFFF0187#64 ∧
    eofWord false 0 = 0x87#64 ∧ tblWord 4 = 0x433#64 ∧
    ({ mode := 2, emitter := 47, level := 255, start := 2 ^ 24 - 1, len := 2 ^ 16 - 1, marker := 0 } : Light).word.toNat % 256 = 0x4B := by
  decide +kernel

/-- R248: the on-time of the last emitter, from the greatest count. -/
theorem wit_on_time : (((live.setReg (Reg.EXP_ONTIME_LO 5 47) 0xFFFFFFFF).setReg (Reg.EXP_ONTIME_HI 5 47) 0xFFFF).addOnTime 5
    [(47, 1)]).pair (Reg.EXP_ONTIME_LO 5 47) (Reg.EXP_ONTIME_HI 5 47) = 0 := by decide +kernel

/-- R320: a GEARED channel whose ratio changes at master count 100. -/
theorem wit_ratio_change : let s := (liveR [(Reg.STP_STATE 31, 3), (Reg.STP_GEAR_NEXT_NUM 31, 5), (Reg.STP_GEAR_NEXT_DEN 31, 2),
      (Reg.STP_GEAR_STATUS 31, 1)]).modStp 31 fun x => { x with p1 := 2 ^ 32, steps := [{ cross := 8032, rise := 8032, fall := 8352 }] }
    s.stpState 31 = 3 ∧ (s.ratioChange 31 100).gearNum 31 = 5 ∧ ((s.ratioChange 31 100).stpCh 31).steps = [] := by decide +kernel

/-- R443: a port that rests takes the band's preset, one that sends keeps its own. -/
theorem wit_preset : let s := (liveR [(Reg.THM_STATUS, 3)]).movePort 1 2
    s.portState 1 = 2 ∧ s.linePreset 1 = 3 ∧ (s.setPort 1 { s.port 1 with freeAt := 8001 }).linePreset 1 = 0 := by decide +kernel

/-- R480: a retirement takes the one reserve sector. -/
theorem wit_ldg_retire : let s : State := { live with ldg := { live.ldg with reserve := [1500] } }
    s.ldgSpare = some 1500 ∧ s.fb Reg.LDG_STATUS 2 = false ∧ (s.ldgRetire 1023).ldgPhys 1023 = 1500 := by decide +kernel

/-- R39: the array read of a load from the Stacks, from a register, and from Stacks whose domain is down. -/
theorem wit_array_read : let s := (stored live).setFlight 0 { what := .load 0x04000000 1 2 true }
    s.gateAllows iSEQ 0x04000000 4 .load = true ∧ s.memOn 0x04000000 4 = true ∧ s.poisoned 0x04000000 4 = false ∧
    ((s.arrayRead 0).flight 0).what = .loaded 1 2 true 0x8182F384 ∧
    ((({ s with poison := [0x04000000] } : State).arrayRead 0).flight 0).what = .exc xECC_D 0x04000000 ∧
    (((s.setF (Reg.PWR_DOM_STATE 2) 3 0 0).arrayRead 0).flight 0).what = .exc xBUS 0x04000000 ∧
    ((((seq []).setFlight 0 { what := .load (Reg.SQ_SLOT_WCET 0 0) 1 2 false }).arrayRead 0).flight 0).what =
      .loaded 1 2 false 1000 := by decide +kernel

/-- R14: bit 0 of an interrupt status that hardware sets in the CORE cycle of the write that clears it. -/
theorem wit_set_wins : (match findReg Reg.SQ_IRQ_STATUS with
      | some (d, _) => ((live.setB Reg.SQ_IRQ_STATUS 0 true).written Reg.SQ_IRQ_STATUS d 1).getLsbD 0 &&
          (d.maskOf fun f => f.acc == .w1c).getLsbD 0 &&
          !(({ live.setB Reg.SQ_IRQ_STATUS 0 true with clk := { live.clk with tb := 8008 } } : State).written
            Reg.SQ_IRQ_STATUS d 1).getLsbD 0
      | none => false) = true := by decide +kernel

/-- R144: the drop of a standing period, whose history starts at its span's start. -/
theorem wit_drop_standing : (((seq []).dropPeriod 0 dOVERRUN (0, 0, 0)).slot 0).inst = none ∧
    (((seq []).modSlot 0 fun x => { x with histAt := some 8000 }).seqHist.slot 0).histAt = none := by decide +kernel

/-- R148: a copy meets an uncorrectable error in its second 32 bytes. -/
theorem wit_copy_ecc : let s : State := { (seq []) with clk := { run := true, tb := 8016 }, poison := [tcmBase 0 + 32]
                                                        sq := { (seq []).sq with subst := some { logical := 0, phys := 20, copy := true, reached := true, copying := some 8000 } } }
    s.physOf 0 = some 0 ∧ s.copySteps 8000 = 2 ∧ s.copyStep.sq.subst = none ∧ s.copyStep.reg Reg.SQ_SUBST_STATUS = 0x17 := by
  decide +kernel

/-- R417: VIN_OK falls at the eighth low sample; PGOOD 7 rises as the last rail. -/
theorem wit_vin : let s := live.setB Reg.PWR_SEQ_STATUS 14 true
    s.pwr.vinIn.run = 0 ∧ (s.vinSamples [(false, 8)]).1 = true ∧ (s.vinSamples [(false, 7)]).1 = false ∧
    ((live.setReg Reg.PWR_SEQ_STATUS 0).pgSamples 7 (List.replicate 8 true)).pgood 7 = true := by decide +kernel

end Sys2Proof.Tests
end

section
/-! Class S fields (R15, R16): what a write (`State.hold`) and a boundary (`State.applyS`) leave of a register's word,
of its word in force and of its pending record, and the statement about their order. -/

namespace Sys2Proof.Machine

/-! ### Entries of a table -/

/-- The entry of the key just inserted. -/
theorem Tab.find?_insert_self {α : Type} (i : Nat) (x : α) (t : Tab α) :
    (Tab.insert i x t).find? (fun p => p.1 == i) = some (i, x) := by
  induction t with
  | nil => simp [Tab.insert]
  | cons q t ih =>
    obtain ⟨k, v⟩ := q
    rw [Tab.insert]
    split
    · simp
    · split
      · simp
      · next hne => simp [ih, Ne.symm hne]

/-- A key just erased has no entry. -/
theorem Tab.find?_erase_self {α : Type} (i : Nat) (t : Tab α) :
    (Tab.erase i t).find? (fun p => p.1 == i) = none := by
  induction t with
  | nil => rfl
  | cons q t ih =>
    obtain ⟨k, v⟩ := q
    rw [Tab.erase]
    split
    · exact ih
    · next hne => simp [ih, hne]

/-! ### The pending record of a register -/

/-- The record of a register's pending class S writes, if it has any. -/
def State.heldAt (s : State) (a : Nat) : Option Held := (s.held.find? (fun p => p.1 == a)).map Prod.snd

/-- The register has no class S write of this CORE cycle. -/
def State.NoWriteNow (s : State) (a : Nat) : Prop := ∀ h ∈ s.heldAt a, h.stamp ≠ s.clk.tb

/-- The same machine at another time. -/
def State.withTb (s : State) (t : Tick) : State := { s with clk := { s.clk with tb := t } }

@[simp] theorem withTb_tb (s : State) (t : Tick) : (s.withTb t).clk.tb = t := rfl
@[simp] theorem withTb_reg (s : State) (t : Tick) (a : Nat) : (s.withTb t).reg a = s.reg a := rfl
@[simp] theorem withTb_heldAt (s : State) (t : Tick) (a : Nat) : (s.withTb t).heldAt a = s.heldAt a := rfl
@[simp] theorem withTb_applied (s : State) (t : Tick) (a : Nat) : (s.withTb t).applied a = s.applied a := rfl

/-- The word in force is the pending record's, or without one the register's own (R15). -/
theorem applied_eq (s : State) (a : Nat) : s.applied a = ((s.heldAt a).map Held.applied).getD (s.reg a) := by
  unfold State.applied State.heldAt
  cases s.held.find? (fun p => p.1 == a) <;> rfl

theorem noWriteNow_of_held {s : State} {a : Nat} (h : ∀ p ∈ s.held, p.1 = a → p.2.stamp ≠ s.clk.tb) :
    s.NoWriteNow a := by
  intro r hr
  obtain ⟨p, hp, rfl⟩ := Option.map_eq_some_iff.1 hr
  exact h p (List.mem_of_find?_eq_some hp) (by simpa using List.find?_some hp)

/-- A record stamped at one time is of no write of another. -/
theorem noWriteNow_of_stamp_ne {s : State} {a : Nat} {r : Held} (hr : s.heldAt a = some r) (ht : s.clk.tb ≠ r.stamp) :
    s.NoWriteNow a := by
  intro h hh
  obtain rfl : r = h := Option.some.inj (hr.symm.trans hh)
  exact ht.symm

/-! ### A write -/

@[simp] theorem hold_tb (s : State) (a : Nat) (v : Word) : (s.hold a v).clk.tb = s.clk.tb := rfl

/-- A read returns the word last written. -/
@[simp] theorem reg_hold_self (s : State) (a : Nat) (v : Word) : (s.hold a v).reg a = v := reg_setReg_self _ a v

/-- The first write of a CORE cycle records the word in force and the word written before. -/
theorem heldAt_hold_first {s : State} {a : Nat} (h : s.NoWriteNow a) (v : Word) :
    (s.hold a v).heldAt a = some { applied := s.applied a, prior := s.reg a, stamp := s.clk.tb } := by
  unfold State.NoWriteNow State.heldAt at h
  unfold State.hold State.heldAt State.applied
  rw [setReg_held, Tab.find?_insert_self]
  cases hp : s.held.find? (fun p => p.1 == a) with
  | none => rfl
  | some p =>
    have hne : p.2.stamp ≠ s.clk.tb := h p.2 (by rw [hp]; rfl)
    simp [hne]

/-- A further write of the same CORE cycle keeps the record. -/
theorem heldAt_hold_again {s : State} {a : Nat} {r : Held} (hr : s.heldAt a = some r) (ht : r.stamp = s.clk.tb)
    (v : Word) : (s.hold a v).heldAt a = some r := by
  obtain ⟨p, hp, rfl⟩ := Option.map_eq_some_iff.1 hr
  unfold State.hold State.heldAt
  rw [setReg_held, Tab.find?_insert_self]
  simp [hp, ht]

/-- A write leaves a record stamped with its CORE cycle, with the word in force as it was. -/
theorem heldAt_hold (s : State) (a : Nat) (v : Word) :
    ∃ r, (s.hold a v).heldAt a = some r ∧ r.stamp = s.clk.tb ∧ r.applied = s.applied a := by
  by_cases h : s.NoWriteNow a
  · exact ⟨_, heldAt_hold_first h v, rfl, rfl⟩
  · obtain ⟨r, hr, ht⟩ : ∃ r ∈ s.heldAt a, r.stamp = s.clk.tb := by simpa [State.NoWriteNow] using h
    exact ⟨r, heldAt_hold_again hr ht v, ht, by rw [applied_eq, Option.mem_def.1 hr]; rfl⟩

/-- A write leaves the word in force. -/
@[simp] theorem applied_hold_self (s : State) (a : Nat) (v : Word) : (s.hold a v).applied a = s.applied a := by
  obtain ⟨r, hr, -, hra⟩ := heldAt_hold s a v
  rw [applied_eq, hr, ← hra]
  rfl

/-! ### A boundary -/

/-- A boundary changes no register's word. -/
@[simp] theorem reg_applyS (s : State) (a b : Nat) : (s.applyS a).reg b = s.reg b := by
  unfold State.applyS
  split
  · split <;> rfl
  · rfl

/-- A boundary in a CORE cycle without a write of the register clears the pending record. -/
theorem heldAt_applyS_of_noWriteNow {s : State} {a : Nat} (h : s.NoWriteNow a) : (s.applyS a).heldAt a = none := by
  unfold State.NoWriteNow State.heldAt at h
  unfold State.applyS State.heldAt
  cases hp : s.held.find? (fun p => p.1 == a) with
  | none => simp [hp]
  | some p =>
    have hne : p.2.stamp ≠ s.clk.tb := h p.2 (by rw [hp]; rfl)
    simp [hne, Tab.find?_erase_self]

/-- A boundary in the CORE cycle of a write takes the word before it and keeps the write pending. -/
theorem heldAt_applyS_of_stamp {s : State} {a : Nat} {r : Held} (hr : s.heldAt a = some r) (ht : r.stamp = s.clk.tb) :
    (s.applyS a).heldAt a = some { r with applied := r.prior } := by
  obtain ⟨p, hp, rfl⟩ := Option.map_eq_some_iff.1 hr
  unfold State.applyS State.heldAt
  simp [hp, ht, Tab.find?_insert_self]

/-- A boundary in a CORE cycle without a write of the register brings its word in force. -/
theorem applied_applyS_of_noWriteNow {s : State} {a : Nat} (h : s.NoWriteNow a) : (s.applyS a).applied a = s.reg a := by
  rw [applied_eq, heldAt_applyS_of_noWriteNow h, reg_applyS]
  rfl

/-- A boundary at another time than the last write's brings the register's word in force. -/
theorem applied_applyS_withTb {s : State} {a : Nat} {r : Held} (hr : s.heldAt a = some r) {t : Tick} (ht : t ≠ r.stamp) :
    ((s.withTb t).applyS a).applied a = s.reg a :=
  applied_applyS_of_noWriteNow (noWriteNow_of_stamp_ne (s := s.withTb t) hr ht)

/-! ### Writes and boundaries in order -/

/-- The first boundary after the CORE cycle of a write brings the written word in force. -/
theorem applied_applyS_hold_later (s : State) (a : Nat) (v : Word) {t : Tick} (ht : t ≠ s.clk.tb) :
    (((s.hold a v).withTb t).applyS a).applied a = v := by
  obtain ⟨r, hr, hrt, -⟩ := heldAt_hold s a v
  rw [applied_applyS_withTb hr (hrt ▸ ht), reg_hold_self]

/-- A boundary in the CORE cycle of a register's first write brings the word before that write in force. -/
theorem applied_applyS_hold_now {s : State} {a : Nat} (h : s.NoWriteNow a) (v : Word) :
    ((s.hold a v).applyS a).applied a = s.reg a := by
  rw [applied_eq, heldAt_applyS_of_stamp (heldAt_hold_first h v) (hold_tb s a v).symm]
  rfl

/-- A write in the CORE cycle of a boundary takes force at the following boundary. -/
theorem applied_applyS_applyS_hold {s : State} {a : Nat} (h : s.NoWriteNow a) (v : Word) {t : Tick} (ht : t ≠ s.clk.tb) :
    ((((s.hold a v).applyS a).withTb t).applyS a).applied a = v := by
  have hr := heldAt_applyS_of_stamp (heldAt_hold_first h v) (hold_tb s a v).symm
  rw [applied_applyS_withTb hr ht, reg_applyS, reg_hold_self]

/-- Settles O17: a write leaves the word in force and a record of its CORE cycle; a boundary of another cycle drops the
record, one of the same cycle keeps it. -/
theorem classSBoundary : Obligations.ClassSBoundary := by
  intro s a v v' hs
  have hnow : s.NoWriteNow a := noWriteNow_of_held hs
  refine ⟨reg_hold_self s a v, applied_hold_self s a v, fun t ht => ⟨?_, applied_applyS_hold_later s a v ht⟩,
    fun t => ⟨reg_hold_self _ a v', ?_, fun t' ht' _ => applied_applyS_hold_later ((s.hold a v).withTb t) a v' ht'⟩,
    ?_, applied_applyS_hold_now hnow v, fun t ht => applied_applyS_applyS_hold hnow v ht⟩
  · calc (((s.hold a v).withTb t).applyS a).reg a
      _ = (s.hold a v).reg a := by rw [reg_applyS, withTb_reg]
      _ = v := reg_hold_self s a v
  · calc (((s.hold a v).withTb t).hold a v').applied a
      _ = (s.hold a v).applied a := by rw [applied_hold_self, withTb_applied]
      _ = s.applied a := applied_hold_self s a v
  · rw [reg_applyS, reg_hold_self]

end Sys2Proof.Machine
end

section
/-! Building a constant (R99): general registers through a write and the completion of an instruction, and the statement
about LUI followed by ORI. -/

namespace Sys2Proof.Machine

/-! ### The meaning of LUI and ORI -/

theorem exec_lui (t : Tick) (c : Fin 26) (rd : Fin 32) (imm : BitVec 21) (s : State) :
    exec (.lui t c rd imm) s = s.writeRd t c 1 rd fun _ _ => imm.setWidth 32 <<< 11 := rfl

theorem exec_ori (t : Tick) (c : Fin 26) (rd ra : Fin 32) (imm : BitVec 12) (s : State) :
    exec (.ori t c rd ra imm) s = s.writeRd t c 1 rd fun s w => s.gr w ra ||| imm.setWidth 32 := rfl

/-! ### General registers (R92) -/

/-- A register other than g0 holds what is written to it. -/
theorem gr_setGr_self (s : State) (w : Who) {r : Fin 32} (hr : r ≠ 0) (v : Word) : (s.setGr w r v).gr w r = v := by
  cases w with
  | t key p i => simp [State.gr, State.setGr, hr, Tab.get_put_self]
  | g n => simp [State.gr, State.setGr, hr, Tab.get_put_self]

@[simp] theorem slot_setFlight (s : State) (p key : Nat) (x : Flight) : (s.setFlight p x).slot key = s.slot key := rfl

@[simp] theorem bank_modInst (s : State) (key : Nat) (h : Instance → Instance) :
    ((s.modInst key h).slot key).bank = (s.slot key).bank := by
  simp [State.modInst]

@[simp] theorem bank_charge (s : State) (key p cycles : Nat) (i : Instance) (what : Fly) (readAt : Tick) :
    ((s.charge key p cycles i what readAt).slot key).bank = (s.slot key).bank := by
  simp [State.charge]

/-- The completion of an instruction changes no general register of its owner. -/
@[simp] theorem gr_goOn (s : State) (w : Who) (lat : Nat) (r : Fin 32) : (s.goOn w lat).gr w r = s.gr w r := by
  cases w with
  | t key p i => simp [State.gr, State.goOn]
  | g n => simp [State.gr, State.goOn]

/-! ### The two parts of a constant -/

theorem extractLsb'_shiftLeft_eleven (x : Word) : (x <<< 11).extractLsb' 0 11 = 0 := by
  ext j hj
  simp [hj]

/-- A constant is its bits [31:11] in place, with its bits [10:0] set in the zeros below them. -/
theorem upper_or_lower_eq (k : Word) :
    (k.extractLsb' 11 21).setWidth 32 <<< 11 ||| ((k.extractLsb' 0 11).setWidth 12).setWidth 32 = k := by
  ext j hj
  by_cases hlow : j < 11
  · simp [hlow, hj]
  · simp [hlow, hj, show j - 11 < 21 by omega, show 11 + (j - 11) = j by omega]

/-- Settles O6: both instructions are writes of rd, LUI's value survives to the state in which ORI issues, and the two
parts of the constant do not overlap. -/
theorem constantBuilding : Obligations.ConstantBuilding := by
  intro s s1 t c rd u w hrd hlui
  have hgr : ((s1.setGr w rd (u.setWidth 32 <<< 11)).goOn w 1).gr w rd = u.setWidth 32 <<< 11 := by
    rw [gr_goOn, gr_setGr_self s1 w hrd]
  refine ⟨?_, hgr, ?_, ?_⟩
  · rw [exec_lui, writeRd_eq hlui]
  · rw [hgr, extractLsb'_shiftLeft_eleven]
  · intro t' w' s3 k hu hori hkept
    rw [exec_ori, writeRd_eq hori, hkept, hgr, hu, upper_or_lower_eq]

end Sys2Proof.Machine
end

section
/-! Pixel codes (R233, R234, R238, R240): the value of a correction field inside a segment of nodes, the range of a
code before it is trimmed, and the trim itself. -/

namespace Sys2Proof.Machine

/-! ### Correction fields (R238) -/

theorem node_of_lt (s : State) (st e : Nat) {m : Nat} (h : m < 1024) :
    s.node st e m = s.memLE (mapBase + st * 0x30000 + e * 0x1000 + 4 * m) 4 := by
  rw [State.node, min_eq_left (by omega)]

/-- The node past the last one is the last one (R238: V_1024 = V_1023). -/
theorem node_past_last (s : State) (st e : Nat) : s.node st e 1024 = s.node st e 1023 := rfl

/-- Pixel u of segment i lies between nodes i and i + 1. -/
theorem fieldAt_segment (s : State) (st e i : Nat) {u : Nat} (hu : u < 24) (g : Nat → Int) :
    s.fieldAt st e (24 * i + u) g =
      g (s.node st e i) + Int.fdiv ((g (s.node st e (i + 1)) - g (s.node st e i)) * u + 12) 24 := by
  have hdiv : (24 * i + u) / 24 = i := by omega
  have hmod : (24 * i + u) % 24 = u := by omega
  simp only [State.fieldAt, floorDiv, hdiv, hmod]

/-! ### The code before the trim (R233, R234) -/

/-- A band buffer byte holds two codes of 4 bits. -/
theorem lineCode_le (s : State) (st : Nat) (b : Binding) (l x : Int) : s.lineCode st b l x ≤ 15 := by
  unfold State.lineCode
  split
  · exact Nat.zero_le 15
  · generalize readByte s.mem _ = v
    have hv : v.toNat < 256 := v.isLt
    dsimp only
    split <;> omega

/-- Step 5 of R233 at line coordinate y and source pixel sx: two lines blended by the sixteenths of y, or the nearest
line's code. -/
def State.sourceCode (s : State) (st : Nat) (b : Binding) (y sx : Int) : Nat :=
  if s.fb (Reg.EXP_CTRL st) 1 then
    ((16 - (y % 16).toNat) * s.lineCode st b (floorDiv y 16) sx +
      (y % 16).toNat * s.lineCode st b (floorDiv y 16 + 1) sx + 8) / 16
  else s.lineCode st b (floorDiv (y + 8) 16) sx

/-- A weighted mean of two codes in sixteenths is a code. -/
theorem blend_le {p a b : Nat} (hp : p ≤ 16) (ha : a ≤ 15) (hb : b ≤ 15) : ((16 - p) * a + p * b + 8) / 16 ≤ 15 := by
  have hleft : (16 - p) * a ≤ (16 - p) * 15 := Nat.mul_le_mul_left _ ha
  have hright : p * b ≤ p * 15 := Nat.mul_le_mul_left _ hb
  omega

theorem sourceCode_le (s : State) (st : Nat) (b : Binding) (y sx : Int) : s.sourceCode st b y sx ≤ 15 := by
  unfold State.sourceCode
  split
  · exact blend_le (by omega) (lineCode_le ..) (lineCode_le ..)
  · exact lineCode_le ..

/-- A live position sends the trimmed source code (R233, steps 2 to 6). -/
theorem codeAt_of_posLive (s : State) (st j n : Nat) (x : ScanSet) (b : Binding) (h : s.posLive st j x = true) :
    s.codeAt st j n x b =
      trimCode
        (s.sourceCode st b (s.coordY st b x.y (s.emitterOf st j) n x.reg.toNat)
          (s.sourceX st (s.emitterOf st j) (s.refEmitter st) n x.reg.toNat))
        (clampInt (-128) 127 (s.trimRaw st (s.emitterOf st j) n x.reg.toNat)) n := by
  simp only [State.codeAt, h, Bool.not_true, Bool.false_eq_true, if_false, State.sourceCode]

theorem clampInt_eq_max_min {lo hi : Int} (h : lo ≤ hi) (x : Int) : clampInt lo hi x = max lo (min hi x) := by
  unfold clampInt
  split
  · omega
  · split <;> omega

/-! ### The trim (R240) -/

/-- `rev4` keeps to 4 bits and turns their order round. -/
theorem rev4_reverses : ∀ m < 16, rev4 m < 16 ∧ ∀ i < 4, (rev4 m).testBit i = m.testBit (3 - i) := by decide

theorem trimCode_zero (t : Int) (n : Nat) : trimCode 0 t n = 0 := rfl

/-- The scaled and dithered code of R240 is no negative number, so taking it as a natural number loses nothing. -/
theorem trimCode_of_pos {c : Nat} (hc : 0 < c) {t : Int} (ht : -128 ≤ t) (n : Nat) :
    (trimCode c t n : Int) = min 15 (Int.fdiv (c * (256 + t) + (16 * rev4 (n % 16) + 8)) 256) := by
  have hscaled : 0 ≤ (c : Int) * (256 + t) := mul_nonneg (by omega) (by omega)
  have hquot : 0 ≤ Int.fdiv (c * (256 + t) + (16 * rev4 (n % 16) + 8)) 256 :=
    Int.fdiv_nonneg (by omega) (by omega)
  rw [trimCode, if_neg hc.ne', floorDiv]
  push_cast
  rw [Int.toNat_of_nonneg hquot]

/-- Settles O33: a pixel's segment and its place in it give the field; a live position's code is its source code,
which no blend takes above 15, trimmed by the clamped sum; and the trim's quotient is nonnegative. -/
theorem nodesAndTrimmedCodes : Obligations.NodesAndTrimmedCodes := by
  refine ⟨?_, ?_, rev4_reverses, fun c n t hlo _ => ⟨trimCode_zero t n, fun hc => trimCode_of_pos hc hlo n⟩⟩
  · intro s st e i u g hi hu v next
    rw [fieldAt_segment s st e i hu g, node_of_lt s st e hi]
    by_cases hlast : i = 1023
    · subst hlast
      rw [node_past_last, node_of_lt s st e hi]
      rfl
    · rw [node_of_lt s st e (m := i + 1) (by omega)]
      simp only [v, next, if_neg hlast]
  · intro s st j n x b hlive t
    rw [codeAt_of_posLive s st j n x b hlive, clampInt_eq_max_min (by decide)]
    exact ⟨_, sourceCode_le .., rfl⟩

end Sys2Proof.Machine
end

section
/-! The sides of a DMA descriptor (R365): the address of a byte before and past the wrap, the runs of addresses that
a side touches, and the first check of R366 on a circular side. -/

namespace Sys2Proof.Machine

/-! ### The address of a byte -/

theorem at_linear {x : DmaSide} (hx : x.wrap = none) (i : Nat) : x.at i = x.addr + i := by
  rw [DmaSide.at, hx]

/-- The base is the address with its offset taken off. -/
theorem at_circular {x : DmaSide} {l : Nat} (hx : x.wrap = some l) (i : Nat) :
    x.at i = (x.addr - x.addr % 2 ^ l) + (x.addr % 2 ^ l + i) % 2 ^ l := by
  rw [DmaSide.at, hx, ← Nat.div_mul_self_eq_mod_sub_self]

/-- Up to the end of the wrap a circular side runs on from its address as a linear one does. -/
theorem at_before_wrap {x : DmaSide} {l i : Nat} (hx : x.wrap = some l) (hi : x.addr % 2 ^ l + i < 2 ^ l) :
    x.at i = x.addr + i := by
  have hoff : x.addr % 2 ^ l ≤ x.addr := Nat.mod_le ..
  rw [at_circular hx, Nat.mod_eq_of_lt hi]
  omega

/-- Once around, a circular side goes on from its base. -/
theorem at_past_wrap {x : DmaSide} {l j : Nat} (hx : x.wrap = some l) (hj : j < 2 ^ l) :
    x.at (2 ^ l - x.addr % 2 ^ l + j) = x.addr / 2 ^ l * 2 ^ l + j := by
  have hoff : x.addr % 2 ^ l < 2 ^ l := Nat.mod_lt _ (Nat.two_pow_pos l)
  have haround : x.addr % 2 ^ l + (2 ^ l - x.addr % 2 ^ l + j) = 2 ^ l + j := by omega
  rw [at_circular hx, haround, Nat.add_mod_left, Nat.mod_eq_of_lt hj, Nat.div_mul_self_eq_mod_sub_self]

/-! ### The runs of a side -/

theorem runs_linear {x : DmaSide} (hx : x.wrap = none) (len : Nat) : x.runs len = [(x.addr, len)] := by
  rw [DmaSide.runs, hx]

theorem runs_unbroken {x : DmaSide} {l len : Nat} (hx : x.wrap = some l) (h : x.addr % 2 ^ l + len ≤ 2 ^ l) :
    x.runs len = [(x.addr, len)] := by
  rw [DmaSide.runs, hx]
  exact if_pos h

theorem runs_wrapped {x : DmaSide} {l len : Nat} (hx : x.wrap = some l) (h : 2 ^ l < x.addr % 2 ^ l + len) :
    x.runs len = [(x.addr, 2 ^ l - x.addr % 2 ^ l),
      (x.addr / 2 ^ l * 2 ^ l, len - (2 ^ l - x.addr % 2 ^ l))] := by
  rw [DmaSide.runs, hx]
  exact if_neg h.not_ge

/-- The bytes of the run of n addresses from a. -/
theorem mem_run_iff (a n b : Nat) : (a ≤ b ∧ b < a + n) ↔ ∃ i < n, b = a + i :=
  ⟨fun ⟨hlo, hhi⟩ => ⟨b - a, by omega, by omega⟩, fun ⟨i, hi, hb⟩ => by omega⟩

/-- A search below n is one below k and one in what is left from k on. -/
theorem exists_lt_split {k n : Nat} (hk : k ≤ n) (p : Nat → Prop) :
    (∃ i < n, p i) ↔ (∃ i < k, p i) ∨ ∃ j < n - k, p (k + j) := by
  constructor
  · rintro ⟨i, hi, hp⟩
    obtain hik | hki := Nat.lt_or_ge i k
    · exact .inl ⟨i, hik, hp⟩
    · exact .inr ⟨i - k, by omega, by rwa [Nat.add_sub_cancel' hki]⟩
  · rintro (⟨i, hi, hp⟩ | ⟨j, hj, hp⟩)
    · exact ⟨i, by omega, hp⟩
    · exact ⟨k + j, by omega, hp⟩

/-- One run from the address is the side's bytes where none of them lies past the wrap. -/
theorem mem_single_run_iff {x : DmaSide} {len : Nat} (hat : ∀ i < len, x.at i = x.addr + i) (b : Nat) :
    (∃ p ∈ [(x.addr, len)], p.1 ≤ b ∧ b < p.1 + p.2) ↔ ∃ i < len, b = x.at i := by
  simp only [List.mem_singleton, exists_eq_left, mem_run_iff]
  exact exists_congr fun i => and_congr_right fun hi => by rw [hat i hi]

/-- The run up to the wrap and the run from the base are the side's bytes, in that order. -/
theorem mem_wrapped_runs_iff {x : DmaSide} {l len : Nat} (hx : x.wrap = some l)
    (hlen : len ≤ 2 ^ l) (hpast : 2 ^ l < x.addr % 2 ^ l + len) (b : Nat) :
    (∃ p ∈ x.runs len, p.1 ≤ b ∧ b < p.1 + p.2) ↔ ∃ i < len, b = x.at i := by
  rw [runs_wrapped hx hpast, exists_lt_split (k := 2 ^ l - x.addr % 2 ^ l) (by omega)]
  simp only [List.mem_cons, List.not_mem_nil, or_false, exists_eq_or_imp, exists_eq_left, mem_run_iff]
  refine or_congr ?_ ?_
  · exact exists_congr fun i => and_congr_right fun hi => by rw [at_before_wrap hx (by omega)]
  · exact exists_congr fun j => and_congr_right fun hj => by rw [at_past_wrap hx (by omega)]

/-- The runs of a side are its bytes, when a circular side is no longer than its wrap (R365). -/
theorem mem_runs_iff {x : DmaSide} {len : Nat} (hlen : ∀ l, x.wrap = some l → len ≤ 2 ^ l) (b : Nat) :
    (∃ p ∈ x.runs len, p.1 ≤ b ∧ b < p.1 + p.2) ↔ ∃ i < len, b = x.at i := by
  cases hx : x.wrap with
  | none =>
    rw [runs_linear hx]
    exact mem_single_run_iff (fun i _ => at_linear hx i) b
  | some l =>
    by_cases hpast : x.addr % 2 ^ l + len ≤ 2 ^ l
    · rw [runs_unbroken hx hpast]
      exact mem_single_run_iff (fun i hi => at_before_wrap hx (by omega)) b
    · exact mem_wrapped_runs_iff hx (hlen l hx) (by omega) b

/-! ### The first check (R366) -/

/-- A circular side that is longer than its wrap, or that lies in host space, fails its wrap check. -/
theorem wrapOk_circular_eq_false {l len : Nat} {host : Bool} (h : 2 ^ l < len ∨ host = true) :
    wrapOk true l len host = false := by
  obtain hlen | rfl := h
  · simp [wrapOk, hlen]
  · simp [wrapOk]

theorem dmaCheck_of_src_wrap {d : DmaDesc} (h : wrapOk (d.flag 1) (d.fld 2 1) d.len (d.flag 3) = false) (s : State) :
    s.dmaCheck d = some 0x10 :=
  if_pos (by simp [h])

theorem dmaCheck_of_dst_wrap {d : DmaDesc} (h : wrapOk (d.flag 2) (d.fld 3 1) d.len (d.flag 4) = false) (s : State) :
    s.dmaCheck d = some 0x10 :=
  if_pos (by simp [h])

/-- Settles O47: a side's bytes by its kind; its runs, by whether it is linear, stays short of its wrap or goes once
around; and a circular side too long or in host space fails its wrap check, so check 1. -/
theorem circularSides : Obligations.CircularSides := by
  refine ⟨fun a l i h => at_circular rfl i, fun a i h => at_linear rfl i,
    fun x len b _ hlen => mem_runs_iff hlen b, fun s d => ⟨?_, ?_⟩⟩
  · intro hcirc hbad
    exact dmaCheck_of_src_wrap (hcirc ▸ wrapOk_circular_eq_false hbad) s
  · intro hcirc hbad
    exact dmaCheck_of_dst_wrap (hcirc ▸ wrapOk_circular_eq_false hbad) s

end Sys2Proof.Machine
end

section
/-! The block as a whole: what a step keeps of a state, from what every command keeps (`exec_kept`) and from what the
passing of time keeps; the statements about the queue, the canonical form and the one-way counts. -/

namespace Sys2Proof.Machine

/-! ### A step -/

theorem step_of_cons {s : State} {c : Instr} {rest : List Instr} (h : s.pending = c :: rest) :
    step s = exec c { s with pending := rest } := by
  rw [step, h]

theorem step_of_nil {s : State} (h : s.pending = []) : step s = .next s.idle := by
  rw [step, h]

/-- What a step keeps, seen from the state whose queue has lost its front command. -/
theorem step_kept {s s' : State} (h : step s = .next s') : Kept { s with pending := s.pending.tail } s' := by
  cases hp : s.pending with
  | nil =>
    obtain rfl : s.idle = s' := by rw [step_of_nil hp] at h; exact Host.Outcome.next.inj h
    have hsame : { s with pending := ([] : List Instr).tail } = s := by cases s; cases hp; rfl
    rw [hsame]
    exact kept_idle (Kept.refl s)
  | cons c rest => exact exec_kept c { s with pending := rest } s' (step_of_cons hp ▸ h)

/-- Settles O1: `step` is `exec` of the front command, and what every command keeps says that the queue loses its front
and the DRAM installed stays. -/
theorem stepRunsTheFrontCommand : Obligations.StepRunsTheFrontCommand :=
  ⟨fun _ _ _ => step_of_cons, fun _ _ h => ⟨(step_kept h).pending, (step_kept h).dram⟩,
    fun s h => ⟨s.idle, step_of_nil h⟩⟩

/-- Settles O2, from what a step keeps. -/
theorem stepKeepsCanonicalAndEdge : Obligations.StepKeepsCanonicalAndEdge := by
  intro s s' ⟨⟨hmem, hregs⟩, hedge⟩ h
  exact ⟨⟨(step_kept h).mem hmem, (step_kept h).regs hregs⟩, (step_kept h).edge hedge⟩

/-- Settles O3: memory is empty at reset, one register is listed, with another word than its reset value, and both times
are 0. -/
theorem resetCanonicalAndEdge : Obligations.ResetCanonicalAndEdge :=
  ⟨⟨reset_mem_wf, by decide⟩, rfl, rfl⟩

/-- Settles O4, from what a step keeps. -/
theorem stepKeepsOneWayCounts : Obligations.StepKeepsOneWayCounts :=
  fun _ _ h => ⟨(step_kept h).lc, (step_kept h).rb⟩

end Sys2Proof.Machine
end

section
/-! The integer instructions (R92, R97-R100): general registers after a write, and each instruction as one write of its
destination. -/

namespace Sys2Proof.Machine

/-! ### General registers (R92) -/

@[simp] theorem gr_zero (s : State) (w : Who) : s.gr w 0 = 0 := rfl

@[simp] theorem setGr_zero (s : State) (w : Who) (v : Word) : s.setGr w 0 v = s := rfl

/-- A write of one register leaves every other of its owner. -/
theorem gr_setGr_ne (s : State) (w : Who) {q r : Fin 32} (h : q ≠ r) (v : Word) : (s.setGr w r v).gr w q = s.gr w q := by
  have hval : q.val ≠ r.val := fun e => h (Fin.ext e)
  by_cases hr : r = 0
  · rw [hr, setGr_zero]
  · cases w with
    | t key p i => simp [State.gr, State.setGr, hr, Tab.get_put_ne _ hval]
    | g n => simp [State.gr, State.setGr, hr, Tab.get_put_ne _ hval]

/-! ### Instructions that write their destination -/

/-- An instruction that only writes rd can issue, so it does, with the value `v` of the state it issues in. -/
theorem exec_writeRd {i : Instr} {s s' : State} {t : Tick} {c : Fin 26} {w : Who} {lat : Nat} {rd : Fin 32}
    {v : State → Who → Word} {x : Word} (h : CanIssue (s.atCore t c) c lat w s') (hi : exec i s = s.writeRd t c lat rd v)
    (hv : v s' w = x) : exec i s = .next ((s'.setGr w rd x).goOn w lat) := by
  rw [hi, writeRd_eq h, hv]

/-- An instruction that writes the pair rd, where rd names one. -/
theorem exec_writePair {i : Instr} {s s' : State} {t : Tick} {c : Fin 26} {w : Who} {lat : Nat} {rd : Fin 32}
    {v : State → Who → Nat} {x : Nat} (h : CanIssue (s.atCore t c) c lat w s') (hi : exec i s = s.writePair t c lat rd v)
    (hrd : pairOkR rd = true) (hv : v s' w = x) : exec i s = .next ((s'.setGrPair w rd x).goOn w lat) := by
  rw [hi, State.writePair, issue_next h (if_pos hrd), hv]

/-- An instruction that writes the pair rd, where rd names none (R93). -/
theorem exec_writePair_illegal {i : Instr} {s s' : State} {t : Tick} {c : Fin 26} {w : Who} {lat : Nat} {rd : Fin 32}
    {v : State → Who → Nat} (h : CanIssue (s.atCore t c) c lat w s') (hlat : 0 < lat)
    (hi : exec i s = s.writePair t c lat rd v) (hrd : pairOkR rd = false) :
    exec i s = .next (s'.except w lat xILLEGAL 0) := by
  rw [hi, State.writePair, issue_exc h hlat (if_neg (by simp [hrd]))]

/-! ### Values -/

theorem fromSigned_eq_toNat_ofInt (n : Nat) (i : Int) : fromSigned n i = (BitVec.ofInt n i).toNat :=
  (BitVec.toNat_ofInt i).symm

theorem wordOfInt_eq_ofInt (i : Int) : wordOfInt i = BitVec.ofInt 32 i := by
  rw [wordOfInt, fromSigned_eq_toNat_ofInt, BitVec.ofNat_toNat, BitVec.setWidth_eq]

theorem sat32_eq (i : Int) : sat32 i = BitVec.ofInt 32 (max (-2 ^ 31) (min (2 ^ 31 - 1) i)) := by
  rw [sat32, clampInt_eq_max_min (by decide), wordOfInt_eq_ofInt]

theorem flag_slt (a b : Word) : flag (a.slt b) = if a.toInt < b.toInt then 1 else 0 := by
  simp [flag, BitVec.slt]

theorem flag_ult (a b : Word) : flag (a.ult b) = if a.toNat < b.toNat then 1 else 0 := by
  simp [flag, BitVec.ult]

theorem ite_slt {α : Type} (a b : Word) (x y : α) : (if a.slt b then x else y) = if a.toInt < b.toInt then x else y := by
  simp [BitVec.slt]

theorem ite_ult {α : Type} (a b : Word) (x y : α) : (if a.ult b then x else y) = if a.toNat < b.toNat then x else y := by
  simp [BitVec.ult]

theorem mul_eq_ofInt (a b : Word) : a * b = BitVec.ofInt 32 (a.toInt * b.toInt) := by
  rw [BitVec.ofInt_mul, BitVec.ofInt_toInt, BitVec.ofInt_toInt]

theorem setWidth_shiftLeft_eleven (u : BitVec 21) : u.setWidth 32 <<< 11 = BitVec.ofNat 32 (u.toNat * 2048) := by
  apply BitVec.eq_of_toNat_eq
  simp [Nat.shiftLeft_eq]

/-- The quotient toward zero of two words is a word's value, but for the one overflow (R100). -/
theorem tdiv_bounds {a b : Word} (h : ¬ (a = 0x80000000 ∧ b = 0xFFFFFFFF)) :
    -2 ^ 31 ≤ Int.tdiv a.toInt b.toInt ∧ Int.tdiv a.toInt b.toInt ≤ 2 ^ 31 - 1 := by
  have hne : a ≠ BitVec.intMin 32 ∨ b ≠ -1#32 := by
    by_cases ha : a = BitVec.intMin 32
    · exact .inr fun hb => h ⟨ha, hb⟩
    · exact .inl ha
  rw [← BitVec.toInt_sdiv_of_ne_or_ne a b hne]
  have hlo := (a.sdiv b).le_toInt
  have hhi := (a.sdiv b).toInt_lt
  omega

theorem quo_of_ne_zero {a b : Word} (hb : b ≠ 0) (h : ¬ (a = 0x80000000 ∧ b = 0xFFFFFFFF)) :
    quo a b = BitVec.ofInt 32 (Int.tdiv a.toInt b.toInt) := by
  obtain ⟨hlo, hhi⟩ := tdiv_bounds h
  rw [quo, if_neg hb, sat32_eq, min_eq_right hhi, max_eq_right hlo]

theorem quo_overflow : quo 0x80000000 0xFFFFFFFF = 0x7FFFFFFF := by decide

theorem modS_of_ne_zero {b : Word} (hb : b ≠ 0) (a : Word) : modS a b = BitVec.ofInt 32 (Int.tmod a.toInt b.toInt) := by
  rw [modS, if_neg hb, wordOfInt_eq_ofInt]

/-- Settles O5: general registers by the laws of the tables that hold them; every instruction of the groups is one write
of its destination, whose value is the rule's. -/
theorem registersAndIntegerOperations : Obligations.RegistersAndIntegerOperations := by
  refine ⟨?_, ?_, ?_, ?_⟩
  · intro s w v
    exact ⟨gr_zero s w, setGr_zero s w v, fun r hr => ⟨gr_setGr_self s w hr v, fun q hq => gr_setGr_ne s w hq v⟩⟩
  · intro s s' t c rd ra rb w h a b done
    exact ⟨exec_writeRd h rfl rfl, exec_writeRd h rfl rfl, exec_writeRd h rfl rfl, exec_writeRd h rfl rfl,
      exec_writeRd h rfl rfl, exec_writeRd h rfl rfl, exec_writeRd h rfl rfl, exec_writeRd h rfl rfl,
      exec_writeRd h rfl (flag_slt a b), exec_writeRd h rfl (flag_ult a b), exec_writeRd h rfl (ite_slt a b a b),
      exec_writeRd h rfl (ite_slt a b b a), exec_writeRd h rfl (ite_ult a b a b), exec_writeRd h rfl (ite_ult a b b a),
      exec_writeRd h rfl (sat32_eq _), exec_writeRd h rfl (sat32_eq _)⟩
  · intro s s' t c rd ra sh i u w h a x z done
    exact ⟨exec_writeRd h rfl rfl, exec_writeRd h rfl (flag_slt a x), exec_writeRd h rfl (flag_ult a x),
      exec_writeRd h rfl rfl, exec_writeRd h rfl rfl, exec_writeRd h rfl rfl, exec_writeRd h rfl rfl,
      exec_writeRd h rfl rfl, exec_writeRd h rfl rfl, exec_writeRd h rfl (setWidth_shiftLeft_eleven u)⟩
  · intro s t c rd ra rb w done
    constructor
    · intro s' h a b
      exact ⟨exec_writeRd h rfl (mul_eq_ofInt a b), exec_writeRd h rfl (sat32_eq _),
        fun hrd => ⟨exec_writePair h rfl hrd (fromSigned_eq_toNat_ofInt 64 _), exec_writePair h rfl hrd rfl⟩,
        fun hrd => ⟨exec_writePair_illegal h (by decide) rfl hrd, exec_writePair_illegal h (by decide) rfl hrd⟩⟩
    · intro s' h a b
      refine ⟨fun hb => ⟨fun hov => exec_writeRd h rfl (quo_of_ne_zero hb hov), exec_writeRd h rfl (modS_of_ne_zero hb a),
        exec_writeRd h rfl (if_neg hb), exec_writeRd h rfl (if_neg hb)⟩, ?_, fun hb => ?_⟩
      · rintro ⟨ha, hb⟩
        exact exec_writeRd h rfl (show quo a b = _ by rw [ha, hb, quo_overflow])
      · exact ⟨exec_writeRd h rfl (if_pos hb), exec_writeRd h rfl (if_pos hb), exec_writeRd h rfl (if_pos hb),
          exec_writeRd h rfl (if_pos hb)⟩

end Sys2Proof.Machine
end

section
/-! The packed nibble operations (R114, R115): what a lane of the word built of lanes is. -/

namespace Sys2Proof.Machine

/-! ### What an issued instruction does -/

/-- An instruction whose body completes, where it can issue. -/
theorem exec_next {i : Instr} {s s' x : State} {t : Tick} {c : Fin 26} {w : Who} {lat : Nat} {body : Who → State → Eff}
    (h : CanIssue (s.atCore t c) c lat w s') (hi : exec i s = .next (s.issue t c lat body)) (hb : body w s' = .next x) :
    exec i s = .next (x.goOn w lat) := by
  rw [hi, issue_next h hb]

/-- An instruction whose body jumps. -/
theorem exec_jump {i : Instr} {s s' x : State} {t : Tick} {c : Fin 26} {w : Who} {lat pc : Nat}
    {body : Who → State → Eff} (h : CanIssue (s.atCore t c) c lat w s') (hi : exec i s = .next (s.issue t c lat body))
    (hb : body w s' = .jump pc x) : exec i s = .next (x.goTo w lat pc) := by
  rw [hi, issue_jump h hb]

/-- An instruction whose body raises an exception. -/
theorem exec_exc {i : Instr} {s s' x : State} {t : Tick} {c : Fin 26} {w : Who} {lat code addr : Nat}
    {body : Who → State → Eff} (h : CanIssue (s.atCore t c) c lat w s') (hi : exec i s = .next (s.issue t c lat body))
    (hlat : 0 < lat) (hb : body w s' = .exc code addr x) : exec i s = .next (x.except w lat code addr) := by
  rw [hi, issue_exc h hlat hb]

/-! ### Lanes -/

theorem lane_eq_extractLsb' (v : Word) (i : Nat) : lane v i = (v.extractLsb' (4 * i) 4).toNat := by
  have hpow : (16 : Nat) ^ i = 2 ^ (4 * i) := by rw [Nat.pow_mul]
  simp [lane, Nat.shiftRight_eq_div_pow, hpow]

theorem lane_lt (v : Word) (i : Nat) : lane v i < 16 := Nat.mod_lt _ (by decide)

/-- The number whose digits to base 16 are `f` below n, the least first. -/
def digits16 (f : Nat → Nat) (n : Nat) : Nat := ((List.range n).map fun i => (f i % 16) * 16 ^ i).sum

theorem digits16_succ (f : Nat → Nat) (n : Nat) : digits16 f (n + 1) = digits16 f n + (f n % 16) * 16 ^ n := by
  simp [digits16, List.range_succ]

theorem digits16_lt (f : Nat → Nat) (n : Nat) : digits16 f n < 16 ^ n := by
  induction n with
  | zero => simp [digits16]
  | succ n ih =>
    have hdigit : f n % 16 * 16 ^ n ≤ 15 * 16 ^ n := Nat.mul_le_mul_right _ (by omega)
    rw [digits16_succ, Nat.pow_succ]
    omega

/-- Digit j of the number whose digits are `f`. -/
theorem digits16_digit (f : Nat → Nat) {n j : Nat} (hj : j < n) : digits16 f n / 16 ^ j % 16 = f j % 16 := by
  induction n with
  | zero => omega
  | succ n ih =>
    rw [digits16_succ]
    rcases Nat.lt_succ_iff_lt_or_eq.1 hj with hlt | rfl
    · have hpow : 16 ^ n = 16 ^ j * (16 * 16 ^ (n - j - 1)) := by
        rw [← Nat.pow_succ', ← Nat.pow_add]
        congr 1
        omega
      rw [hpow, show f n % 16 * (16 ^ j * (16 * 16 ^ (n - j - 1))) = 16 ^ j * (16 * (f n % 16 * 16 ^ (n - j - 1))) by ring,
        Nat.add_mul_div_left _ _ (Nat.pow_pos (by decide)), Nat.add_mul_mod_self_left, ih hlt]
    · rw [Nat.add_mul_div_right _ _ (Nat.pow_pos (by decide)), Nat.div_eq_of_lt (digits16_lt f _), Nat.zero_add,
        Nat.mod_mod]

/-- Lane j of the word whose lanes are `f`. -/
theorem lanes_lane (f : Nat → Nat) {j : Nat} (hj : j < 8) : ((lanes f).extractLsb' (4 * j) 4).toNat = f j % 16 := by
  have hlt : digits16 f 8 < 2 ^ 32 := digits16_lt f 8
  rw [← lane_eq_extractLsb', ← digits16_digit f hj]
  change (BitVec.ofNat 32 (digits16 f 8)).toNat / 16 ^ j % 16 = _
  rw [BitVec.toNat_ofNat, Nat.mod_eq_of_lt hlt]

/-- The word whose lanes are `f`, where `f` gives lanes. -/
theorem lanes_lane_of_lt {f : Nat → Nat} {j : Nat} (hj : j < 8) (hf : f j < 16) :
    ((lanes f).extractLsb' (4 * j) 4).toNat = f j := by
  rw [lanes_lane f hj, Nat.mod_eq_of_lt hf]

/-- Settles O7: each operation is one write of rd, whose lanes are the rule's, each of them less than 16. -/
theorem packedNibbles : Obligations.PackedNibbles := by
  intro s s' t c rd ra rb w h a b d by8
  have ha : ∀ i, lane (s'.gr w ra) i = a i := lane_eq_extractLsb' _
  have hb : ∀ i, lane (s'.gr w rb) i = b i := lane_eq_extractLsb' _
  have hd : ∀ i, lane (s'.gr w rd) i = d i := lane_eq_extractLsb' _
  have ha_lt : ∀ i, a i < 16 := fun i => ha i ▸ lane_lt _ i
  have hb_lt : ∀ i, b i < 16 := fun i => hb i ▸ lane_lt _ i
  have key : ∀ {i : Instr} {v : State → Who → Word} (f : Nat → Nat), exec i s = s.writeRd t c 1 rd v →
      v s' w = lanes f → (∀ j, f j < 16) → by8 i f := fun f hi hv hf =>
    ⟨lanes f, exec_writeRd h hi hv, fun j hj => lanes_lane_of_lt hj (hf j)⟩
  refine ⟨key _ rfl (by simp only [ha, hb]) fun j => ?_, key _ rfl (by simp only [ha, hb]) fun j => ?_,
    key _ rfl (by simp only [ha, hb]) fun j => ?_, key _ rfl (by simp only [ha, hb]) fun j => ?_,
    key _ rfl (by simp only [ha, hb, hd]) fun j => ?_, key _ rfl (by simp only [ha, hb]) fun j => ?_,
    key _ rfl (by simp only [ha, hb]) fun j => ?_, key _ rfl (by simp only [ha]) fun j => ha_lt 0,
    fun hrb => ?_, fun hrb => ?_, ?_, ?_⟩
  · exact Nat.lt_of_le_of_lt (Nat.min_le_right ..) (by decide)
  · exact Nat.lt_of_le_of_lt (Nat.sub_le ..) (ha_lt j)
  · exact Nat.max_lt.2 ⟨ha_lt j, hb_lt j⟩
  · exact Nat.lt_of_le_of_lt (Nat.min_le_left ..) (ha_lt j)
  · split
    · exact ha_lt j
    · exact hb_lt j
  · split <;> decide
  · split <;> decide
  · refine ⟨_, exec_next h rfl (if_pos hrb), fun j hj => ?_⟩
    rw [lanes_lane _ hj, Nat.mod_mod, ha]
  · exact exec_exc h rfl (by decide) (if_neg (by simp [hrb]))
  · exact exec_writeRd h rfl (by simp only [ha])
  · exact exec_writeRd h rfl (by simp [ha, bne, beq_eq_decide])

end Sys2Proof.Machine
end

section
/-! Branches and jumps (R106, R107): where a jump goes on, and what a conditional branch does. -/

namespace Sys2Proof.Machine

theorem jumpTo_of_reaches {w : Who} {pc : Nat} (h : w.reaches pc) (s s' : State) : jumpTo w pc s s' = .jump pc s' := by
  cases w with
  | t key p i => exact if_pos h
  | g n => rfl

theorem jumpTo_of_not_reaches {w : Who} {pc : Nat} (h : ¬ w.reaches pc) (s s' : State) :
    jumpTo w pc s s' = .exc xFETCH pc s := by
  cases w with
  | t key p i => exact if_neg h
  | g n => exact absurd trivial h

theorem branchTarget_eq (pc : Nat) (off : Int) : branchTarget pc off = (((pc : Int) + off * 4) % 2 ^ 32).toNat := rfl

/-- The three outcomes of a conditional branch (R106, R107). -/
theorem exec_branch {i : Instr} {s s' : State} {t : Tick} {c : Fin 26} {ra rb : Fin 32} {off : BitVec 16} {w : Who}
    {cond : Word → Word → Bool} {taken : Prop} (h : CanIssue (s.atCore t c) c 1 w s')
    (hi : exec i s = s.branch t c ra rb off cond) (hc : cond (s'.gr w ra) (s'.gr w rb) = true ↔ taken) :
    let target := (((s'.pcOf w : Int) + off.toInt * 4) % 2 ^ 32).toNat
    (taken → w.reaches target → exec i s = .next (s'.goTo w 1 target)) ∧
    (taken → ¬ w.reaches target → exec i s = .next (s'.except w 1 xFETCH target)) ∧
    (¬ taken → exec i s = .next (s'.goOn w 1)) := by
  refine ⟨fun ht hr => exec_jump h hi ?_, fun ht hr => exec_exc h hi (by decide) ?_, fun ht => exec_next h hi ?_⟩
  · exact (if_pos (hc.2 ht)).trans (jumpTo_of_reaches hr s' s')
  · exact (if_pos (hc.2 ht)).trans (jumpTo_of_not_reaches hr s' s')
  · exact if_neg fun hcond => ht (hc.1 hcond)

/-- Settles O8: a branch by its condition; a jump by whether its target is in reach, and for JALR aligned. -/
theorem branchesAndJumps : Obligations.BranchesAndJumps := by
  refine ⟨?_, ?_⟩
  · intro s s' t c ra rb off w h a b target goes
    have key : ∀ {i : Instr} {taken : Prop} (cond : Word → Word → Bool), exec i s = s.branch t c ra rb off cond →
        (cond a b = true ↔ taken) → goes i taken := fun _ hi hc => exec_branch h hi hc
    exact ⟨key (fun a b => a == b) rfl (by simp), key (fun a b => a != b) rfl (by simp),
      key (fun a b => a.slt b) rfl (by simp [BitVec.slt]), key (fun a b => !a.slt b) rfl (by simp [BitVec.slt]),
      key (fun a b => a.ult b) rfl (by simp [BitVec.ult]), key (fun a b => !a.ult b) rfl (by simp [BitVec.ult])⟩
  · intro s s' t c rd ra i21 i12 w h link x y
    refine ⟨fun hx => exec_jump h rfl (jumpTo_of_reaches hx ..), fun hx => exec_exc h rfl (by decide)
      (jumpTo_of_not_reaches hx ..), fun ⟨hy, hal⟩ => exec_jump h rfl ?_, fun hy => exec_exc h rfl (by decide) ?_,
      fun ⟨hy, hal⟩ => exec_exc h rfl (by decide) ?_⟩
    · simp only [y] at hy hal ⊢
      simp only [jumpTo_of_reaches hy, if_pos hal]
      rfl
    · simp only [y] at hy ⊢
      simp only [jumpTo_of_not_reaches hy]
    · simp only [y] at hy hal ⊢
      simp only [jumpTo_of_reaches hy, if_neg hal]

end Sys2Proof.Machine
end

section
/-! Control registers (R94, R108): the table of a supervisor core's control registers, reading after a write, and the
instructions that read and write them. -/

namespace Sys2Proof.Machine

/-! ### Bits of numbers -/

theorem bits_testBit (v : Word) (hi lo j : Nat) :
    (bits v hi lo).testBit j = (decide (j < hi + 1 - lo) && v.getLsbD (lo + j)) := by
  rw [bits, Nat.testBit_mod_two_pow, Nat.testBit_div_two_pow, BitVec.getLsbD, Nat.add_comm j]

@[simp] theorem bits_full (v : Word) : bits v 31 0 = v.toNat := by
  rw [bits, Nat.pow_zero, Nat.div_one, Nat.mod_eq_of_lt v.isLt]

/-- The bits of a number inside a mask and those outside add up to it. -/
theorem land_add_ldiff (x y : Nat) : (x &&& y) + Nat.ldiff x y = x := by
  induction x using Nat.binaryRec generalizing y with
  | zero => simp [Nat.ldiff]
  | bit a m ih =>
    rw [← Nat.bit_bodd_div2 y, Nat.land_bit, Nat.ldiff_bit]
    have hm := ih y.div2
    simp only [Nat.bit_val]
    cases a <;> cases y.bodd <;> simp <;> omega

/-- Taking away the bits of a mask. -/
theorem sub_land_testBit (x y j : Nat) : (x - (x &&& y)).testBit j = (x.testBit j && !y.testBit j) := by
  have hsub : x - (x &&& y) = Nat.ldiff x y := by
    have := land_add_ldiff x y
    omega
  rw [hsub, Nat.testBit_ldiff]

/-! ### Control registers of a supervisor core -/

/-- A control register is the table's entry at its number, with the reset value as the default. -/
theorem kr_eq_get (c : GCore) (k : Nat) : c.kr k = Tab.get (kReset k) c.k k := by
  unfold GCore.kr
  induction c.k with
  | nil => rfl
  | cons q t ih =>
    by_cases h : q.1 = k
    · simp [Tab.get, h]
    · simpa [Tab.get, h] using ih

@[simp] theorem kr_setKr_self (c : GCore) (k : Nat) (v : Word) : (c.setKr k v).kr k = v := by
  rw [kr_eq_get, GCore.setKr]
  dsimp only
  split
  · next h => rw [Tab.get_erase_self, h]
  · exact Tab.get_insert_self ..

theorem kr_setKr_ne (c : GCore) {k j : Nat} (h : j ≠ k) (v : Word) : (c.setKr k v).kr j = c.kr j := by
  rw [kr_eq_get, kr_eq_get, GCore.setKr]
  dsimp only
  split
  · exact Tab.get_erase_ne _ h _
  · exact Tab.get_insert_ne _ h _ _

@[simp] theorem setKr_swi (c : GCore) (k : Nat) (v : Word) : (c.setKr k v).swi = c.swi := rfl

/-! ### Reading and writing -/

/-- A writable register of a supervisor core, but for the software lines, reads as the table holds it. -/
theorem kread_g {k : Nat} (hk : kWritable true k = true) (h37 : k ≠ 37) (h38 : k ≠ 38) (s : State) (n : Nat) :
    s.kread (.g n) k = (s.gcore n).kr k := by
  have h0 : k ≠ 0 := by rintro rfl; exact absurd hk (by decide)
  have h2 : k ≠ 2 := by rintro rfl; exact absurd hk (by decide)
  have h3 : k ≠ 3 := by rintro rfl; exact absurd hk (by decide)
  have h4 : k ≠ 4 := by rintro rfl; exact absurd hk (by decide)
  have h35 : k ≠ 35 := by rintro rfl; exact absurd hk (by decide)
  have h36 : k ≠ 36 := by rintro rfl; exact absurd hk (by decide)
  rw [State.kread, if_neg (by tauto)]
  dsimp only
  split
  · exact absurd rfl h0
  · exact absurd rfl h4
  · exact absurd rfl h35
  · exact absurd rfl h36
  · exact absurd rfl h37
  · exact absurd rfl h38
  · rfl

theorem kwrite_g {k : Nat} (h37 : k ≠ 37) (h38 : k ≠ 38) (s : State) (n : Nat) (v : Word) :
    s.kwrite (.g n) k v = s.modGcore n fun c => c.setKr k (v &&& kMask k) := by
  simp only [State.kwrite, if_neg h37, if_neg h38]

/-- A write of one register leaves every other as it reads. -/
theorem kread_kwrite_g_ne {k j : Nat} (h37 : k ≠ 37) (h38 : k ≠ 38) (hj : kWritable true j = true) (hne : j ≠ k)
    (s : State) (n : Nat) (v : Word) : (s.kwrite (.g n) k v).kread (.g n) j = s.kread (.g n) j := by
  rw [kwrite_g h37 h38]
  by_cases hj37 : j = 37
  · subst hj37
    rfl
  by_cases hj38 : j = 38
  · subst hj38
    simp [State.kread]
  · rw [kread_g hj hj37 hj38, kread_g hj hj37 hj38, gcore_modGcore_self, kr_setKr_ne _ hne]

/-! ### The instructions -/

/-- An instruction that changes a control register: what it writes, and its two refusals. -/
theorem exec_kmodify {i : Instr} {s s' : State} {t : Tick} {c : Fin 26} {k : Fin 64} {ra : Fin 32} {w : Who}
    {v : Word → Word → Word} (h : CanIssue (s.atCore t c) c 1 w s') (hi : exec i s = s.kmodify t c k ra v) :
    (kWritable w.isG k = true ∧ s'.kPriv w k true = false → exec i s =
      .next ((s'.kwrite w k (if k.val = 37 ∨ k.val = 38 then s'.gr w ra else v (s'.kread w k) (s'.gr w ra))).goOn w 1)) ∧
    (kWritable w.isG k = false → exec i s = .next (s'.except w 1 xILLEGAL 0)) ∧
    (kWritable w.isG k = true ∧ s'.kPriv w k true = true → exec i s = .next (s'.except w 1 xPRIV 0)) := by
  refine ⟨fun ⟨hw, hp⟩ => exec_next h hi ?_, fun hw => exec_exc h hi (by decide) ?_,
    fun ⟨hw, hp⟩ => exec_exc h hi (by decide) ?_⟩
  · simp [hw, hp]
  · simp [hw]
  · simp [hw, hp]

/-- Settles O9: each instruction by its guards; what the registers hold by the table of a core's control registers and
the bits of its software lines. -/
theorem controlRegisters : Obligations.ControlRegisters := by
  refine ⟨?_, fun s w => ⟨rfl, rfl⟩, ?_, ?_⟩
  · intro s s' t c rd ra k w h old a writes
    refine ⟨fun ⟨hr, hp⟩ => exec_next h rfl ?_, fun hr => exec_exc h rfl (by decide) ?_,
      fun ⟨hr, hp⟩ => exec_exc h rfl (by decide) ?_, fun ⟨hrd, hk, hr, hr', hp, hp'⟩ => exec_next h rfl ?_,
      fun hbad => exec_exc h rfl (by decide) ?_, exec_kmodify (v := fun _ a => a) h rfl,
      exec_kmodify (v := fun o a => o ||| a) h rfl, exec_kmodify (v := fun o a => o &&& ~~~a) h rfl⟩
    · simp [hr, hp, old]
    · simp [hr]
    · simp [hr, hp]
    · simp [hrd, hk, hr, hr', hp, hp', old]
    · rcases hbad with hbad | hbad | hbad | hbad <;> simp [hbad]
  · intro s key p i start
    have hstart : (s.slot key).r0 + i.k * s.f (atKey Reg.SQ_SLOT_PERIOD key) 31 0 * 8 = start := by
      rw [State.f, bits_full]
      rfl
    refine ⟨rfl, rfl, rfl, ?_, ?_, rfl, rfl, rfl, rfl⟩
    · rw [← hstart]
      rfl
    · rw [← hstart]
      rfl
  · intro s n k v hn
    have hother : 1 - n ≠ n := by omega
    refine ⟨rfl, rfl, fun hk h37 h38 => ⟨?_, fun j hj hne => kread_kwrite_g_ne h37 h38 hj hne s n v, ?_⟩,
      fun j hj => ⟨?_, ?_, ?_⟩⟩
    · rw [kwrite_g h37 h38, kread_g hk h37 h38, gcore_modGcore_self, kr_setKr_self]
    · rw [kwrite_g h37 h38, gcore_modGcore_ne _ hother]
    · simp [State.kwrite, gcore_modGcore_ne _ hother.symm, bits_testBit, hj]
    · simp [State.kwrite, gcore_modGcore_ne _ hother, bits_testBit, hj]
    · simp [State.kwrite, sub_land_testBit, bits_testBit, hj]

end Sys2Proof.Machine
end

section
/-! Timed and signal-point instructions (R103, R109-R113), the ends of their waits, and what an instruction of a
sequencer core brings as it ends (R138). -/

namespace Sys2Proof.Machine

/-! ### Waits -/

/-- An instruction of a sequencer `Instance` issues within its budget. -/
theorem issue_t {s s' : State} {t : Tick} {c : Fin 26} {key p lat : Nat} {i : Instance} {body : Who → State → Eff}
    (h : CanIssue (s.atCore t c) c lat (.t key p i) s') :
    s.issue t c lat body = s'.finishT key p lat i (body (.t key p i) s') :=
  issueBy_eq (fun _ _ => lat) body h

/-- An instruction of a sequencer `Instance` that waits takes a cycle (R110). -/
theorem exec_wait_t {i : Instr} {s s' x : State} {t : Tick} {c : Fin 26} {key p : Nat} {j : Instance} {till : Tick}
    {body : Who → State → Eff} (h : CanIssue (s.atCore t c) c 1 (.t key p j) s')
    (hi : exec i s = .next (s.issue t c 1 body)) (hb : body (.t key p j) s' = .wait till x) :
    exec i s = .next ((x.charge key p 1 j .plain 0).modInst key fun i =>
      { i with pc := i.pc + 4, waitUntil := some till }) := by
  have hbudget := budget_of h
  rw [hi, issue_t h, hb, State.finishT]
  simp only [if_neg (Nat.not_lt.2 hbudget)]

/-- An instruction of a supervisor core that waits (R110). -/
theorem exec_wait_g {i : Instr} {s s' x : State} {t : Tick} {c : Fin 26} {n lat : Nat} {till : Tick}
    {body : Who → State → Eff} (h : CanIssue (s.atCore t c) c lat (.g n) s')
    (hi : exec i s = .next (s.issue t c lat body)) (hb : body (.g n) s' = .wait till x) :
    exec i s = .next (x.modGcore n fun c => { c with waitUntil := some till }) := by
  rw [hi, State.issue, issueBy_eq _ body h, hb]

/-- YIELD of a sequencer `Instance` ends the period's work (R113). -/
theorem exec_yield_t {i : Instr} {s s' x : State} {t : Tick} {c : Fin 26} {key p lat : Nat} {j : Instance}
    {body : Who → State → Eff} (h : CanIssue (s.atCore t c) c lat (.t key p j) s')
    (hi : exec i s = .next (s.issue t c lat body)) (hb : body (.t key p j) s' = .yield x) :
    exec i s = .next (x.charge key p lat j .commit 0) := by
  have hbudget := budget_of h
  rw [hi, issue_t h, hb, State.finishT]
  simp only [if_neg (Nat.not_lt.2 hbudget)]

/-- YIELD of a supervisor core (R113). -/
theorem exec_yield_g {i : Instr} {s s' x : State} {t : Tick} {c : Fin 26} {n lat : Nat} {body : Who → State → Eff}
    (h : CanIssue (s.atCore t c) c lat (.g n) s') (hi : exec i s = .next (s.issue t c lat body))
    (hb : body (.g n) s' = .yield x) :
    exec i s = .next (x.modGcore n fun c => { c with pc := (c.pc + 4) % 2 ^ 32, yielding := true }) := by
  rw [hi, State.issue, issueBy_eq _ body h, hb]

/-! ### What an instruction brings as it ends (R138) -/

/-- The `Instance` that an instruction in progress belongs to is still there if it was released with it. -/
theorem flyer_setFlight {s : State} {p : Nat} {x y : Flight} {i : Instance} (hi : (s.slot x.key).inst = some i) :
    (s.setFlight p y).flyer x = if i.release = x.release then some i else none := by
  rw [State.flyer, slot_setFlight, hi]

/-- Of an `Instance` that has been dropped meanwhile nothing is made. -/
theorem endFlight_dropped {s : State} {p : Nat} {i : Instance} (hi : (s.slot (s.flight p).key).inst = some i)
    (hr : i.release ≠ (s.flight p).release) : s.endFlight p = s.setFlight p { s.flight p with what := .plain } := by
  unfold State.endFlight
  simp only [flyer_setFlight hi, if_neg hr]

/-- Settles O10: each instruction by its guards and profile; the ends of waits and of instructions by what they find. -/
theorem timedInstructionsAndWaits : Obligations.TimedInstructionsAndWaits := by
  refine ⟨?_, ?_, ?_, ?_, ?_⟩
  · intro s s' t c p rd a b w h
    dsimp only
    rw [show (2 : Nat) ^ 20 = 1048576 from rfl]
    refine ⟨fun hp hle => exec_next h rfl ?_, fun hp hlt => ⟨?_, ?_⟩, fun hp => exec_exc h rfl (by decide) ?_, ?_, ?_,
      ?_, ?_, fun hid => exec_exc h rfl (by decide) ?_, ?_, ?_⟩
    · simp [hp, hle]
    · rintro key ph i rfl
      exact exec_wait_t h rfl (by simp [hp, Nat.not_le.2 hlt])
    · rintro n rfl
      exact exec_wait_g h rfl (by simp [hp, Nat.not_le.2 hlt])
    · simp [hp]
    · rintro n rfl
      exact exec_exc h rfl (by decide) rfl
    · rintro key ph i rfl hp hfull
      refine ⟨fun harm hid hown => exec_next h rfl ?_, fun harm => exec_exc h rfl (by decide) ?_,
        fun harm hbad => exec_exc h rfl (by decide) ?_⟩
      · simp [hp, Nat.not_le.2 hfull, Nat.not_le.2 harm, Nat.not_le.2 hid, hown]
      · simp [hp, Nat.not_le.2 hfull, harm]
      · simp [hp, Nat.not_le.2 hfull, Nat.not_le.2 harm, hbad]
    · rintro n rfl hid
      refine ⟨exec_next h rfl ?_, exec_next h rfl ?_⟩
      · simp [Nat.not_le.2 hid]
      · simp [Nat.not_le.2 hid]
    · rintro key ph i rfl hid
      refine ⟨fun j v hj hown hv => exec_next h rfl ?_, fun hown => exec_next h rfl ?_, fun hfull => exec_next h rfl ?_,
        fun hfull => exec_exc h rfl (by decide) ?_⟩
      · simp [Nat.not_le.2 hid, hj, hown, hv]
      · simp [Nat.not_le.2 hid, hown]
      · simp [Nat.not_le.2 hid, Nat.not_le.2 hfull]
      · simp [hfull]
    · simp [hid]
    · rintro key ph i rfl
      exact exec_yield_t h rfl rfl
    · rintro n rfl
      refine ⟨fun hwake => exec_next h rfl ?_, fun ⟨hline, hnmi⟩ => exec_yield_g h rfl ?_⟩
      · simp [hwake]
      · simp [hline, hnmi]
  · intro s t c l slot i u s0 hc hl hi hu
    change execWaittResume t c slot s = _
    simp only [execWaittResume, if_pos hc]
    rw [hl]
    dsimp only
    rw [hi]
    dsimp only
    rw [hu]
    dsimp only
    split <;> rfl
  · intro s t n slot u s0 hu
    change execWaittResume t ⟨24 + n, _⟩ slot s = _
    have hn : ¬ 24 + n.val < 24 := by omega
    have hsub : 24 + n.val - 24 = n.val := by omega
    simp only [execWaittResume, if_neg hn, hsub]
    rw [hu]
    dsimp only
    split <;> rfl
  · intro s p i x u hi
    refine ⟨endFlight_dropped hi, fun hr => ?_⟩
    have hfly : u.flyer x = some i := by rw [flyer_setFlight hi, if_pos hr]
    refine ⟨fun hw hdue => ?_, fun rt sz signed v hw hdue => ?_, fun code addr hw hdue => ?_, fun hw => ?_⟩
    all_goals
      unfold State.endFlight
      dsimp only
      rw [hfly]
      dsimp only
    · rw [hw]
      exact if_pos hdue
    · rw [hw]
      exact if_pos hdue
    · rw [hw]
      exact if_pos hdue
    · rcases hw with hw | hdue
      · rw [hw]
      · split
        · exact if_neg (Nat.not_le.2 hdue)
        · exact if_neg (Nat.not_le.2 hdue)
        · exact if_neg (Nat.not_lt.2 (Nat.le_of_lt hdue))
        · rfl
  · intro s t n hy
    change execYieldWake t n s = _
    simp only [execYieldWake, hy, true_and]
    split <;> rfl

end Sys2Proof.Machine
end

section
/-! System operations, traps, interrupts and NMIs (R116, R120, R121, R126): what a supervisor core's registers hold
after entering a handler. -/

namespace Sys2Proof.Machine

/-! ### System operations (R116) -/

/-- An instruction that halts a supervisor core (R116). -/
theorem exec_halt_g {i : Instr} {s s' x : State} {t : Tick} {c : Fin 26} {n lat : Nat} {body : Who → State → Eff}
    (h : CanIssue (s.atCore t c) c lat (.g n) s') (hi : exec i s = .next (s.issue t c lat body))
    (hb : body (.g n) s' = .halt x) : exec i s = .next (x.modGcore n fun c => { c with running := false }) := by
  rw [hi, State.issue, issueBy_eq _ body h, hb]

/-! ### Entering a handler (R120) -/

theorem kr_setKr (c : GCore) (j k : Nat) (v : Word) : (c.setKr j v).kr k = if k = j then v else c.kr k := by
  split
  · next h => rw [h, kr_setKr_self]
  · next h => rw [kr_setKr_ne _ h]

theorem statusEntry_ie : ∀ d < 4, (statusEntry d).getLsbD 0 = false := by decide
theorem statusEntry_user : ∀ d < 4, (statusEntry d).getLsbD 1 = false := by decide
theorem statusEntry_depth : ∀ d < 4, bits (statusEntry d) 3 2 = d := by decide

/-- The depth that a trap enters (R121). -/
def GCore.trapDepth (c : GCore) : Nat := if c.depth = 2 then 3 else 1

theorem trapDepth_lt (c : GCore) : c.trapDepth < 4 := by
  unfold GCore.trapDepth
  split <;> decide

/-- The control registers as a trap leaves them. -/
theorem enterTrap_kr (c : GCore) (tcode taddr vec k : Nat) :
    (c.enterTrap tcode taddr vec).kr k =
      if k = 1 then statusEntry c.trapDepth
      else if k = 7 then BitVec.ofNat 32 taddr
      else if k = 6 then BitVec.ofNat 32 tcode
      else if k = 5 then BitVec.ofNat 32 c.pc
      else if k = 43 then c.kr 1
      else c.kr k := by
  change (((((c.setKr 43 (c.kr 1)).setKr 5 (BitVec.ofNat 32 c.pc)).setKr 6 (BitVec.ofNat 32 tcode)).setKr 7
    (BitVec.ofNat 32 taddr)).setKr 1 (statusEntry c.trapDepth)).kr k = _
  simp only [kr_setKr]

theorem enterTrap_pc (c : GCore) (tcode taddr vec : Nat) :
    (c.enterTrap tcode taddr vec).pc = ((c.kr 32).toNat + vec) % 2 ^ 32 := by
  change (((c.enterTrap tcode taddr vec).kr 32).toNat + vec) % 2 ^ 32 = _
  rw [enterTrap_kr]
  rfl

@[simp] theorem enterTrap_g (c : GCore) (tcode taddr vec : Nat) : (c.enterTrap tcode taddr vec).g = c.g := rfl

/-- The control registers as an NMI leaves them: the trap registers keep their values. -/
theorem enterNmi_kr (c : GCore) (k : Nat) :
    c.enterNmi.kr k =
      if k = 1 then statusEntry 2 else if k = 41 then BitVec.ofNat 32 c.pc else if k = 42 then c.kr 1 else c.kr k := by
  change (((c.setKr 42 (c.kr 1)).setKr 41 (BitVec.ofNat 32 c.pc)).setKr 1 (statusEntry 2)).kr k = _
  simp only [kr_setKr]

@[simp] theorem enterNmi_g (c : GCore) : c.enterNmi.g = c.g := rfl

@[simp] theorem enterNmi_nmi (c : GCore) : c.enterNmi.nmi = false := rfl
@[simp] theorem enterNmi_nmiService (c : GCore) : c.enterNmi.nmiService = true := rfl

theorem enterNmi_pc (c : GCore) : c.enterNmi.pc = ((c.kr 32).toNat + 0x80) % 2 ^ 32 := by
  change ((c.enterNmi.kr 32).toNat + 0x80) % 2 ^ 32 = _
  rw [enterNmi_kr]
  rfl

/-! ### Synchronous exceptions (R120, R121) -/

theorem trapG_of_doubleFault {s : State} {n : Nat} (h : (s.gcore n).doubleFault = true) (code addr : Nat) :
    s.trapG n code addr = (s.modGcore n fun c => { c with running := false, dbl := true }).raise (4 + n) 0 :=
  if_pos h

theorem trapG_of_not_doubleFault {s : State} {n : Nat} (h : (s.gcore n).doubleFault = false) (code addr : Nat) :
    s.trapG n code addr = s.modGcore n fun c => c.enterTrap code (if hasAddr code then addr else 0) 0 :=
  if_neg (by simp [h])

theorem hasAddr_iff (code : Nat) :
    hasAddr code = true ↔ code = 1 ∨ code = 2 ∨ code = 5 ∨ code = 6 ∨ code = 7 ∨ code = 8 := by
  simp [hasAddr, xFETCH, xECC_I, xALIGN, xACCESS, xBUS, xECC_D, or_assoc]

@[simp] theorem gcore_raise (s : State) (src ev n : Nat) : (s.raise src ev).gcore n = s.gcore n := rfl

/-- Settles O11: system operations by profile and guard; entering a trap, an interrupt or an NMI by the registers that
the entry writes. -/
theorem trapsInterruptsAndSystemOperations : Obligations.TrapsInterruptsAndSystemOperations := by
  refine ⟨?_, ?_, ?_⟩
  · intro s s' t c x w h
    refine ⟨exec_next h rfl rfl, fun hx => exec_exc h (if_pos hx) (by decide) rfl, ?_, ?_⟩
    · rintro n rfl
      refine ⟨exec_exc h rfl (by decide) rfl, fun hd => exec_exc h rfl (by decide) ?_, fun hd => exec_halt_g h rfl ?_,
        fun hz => exec_exc h rfl (by decide) ?_, fun hz hu => exec_exc h rfl (by decide) ?_, fun hz hu => ?_,
        fun hz hu => ?_⟩
      · simp [hd]
      · simp [hd]
      · simp [hz]
      · simp [hz, hu]
      · have h0 : (s'.gcore n).depth ≠ 0 := by omega
        have h2 : (s'.gcore n).depth ≠ 2 := by omega
        exact exec_jump h rfl (by simp [h0, h2, hu])
      · exact exec_jump h rfl (by simp [hz, hu])
    · rintro key p i rfl j hj
      simp only [List.mem_cons, List.not_mem_nil, or_false] at hj
      rcases hj with rfl | rfl | rfl | rfl | rfl | rfl | rfl | rfl | rfl <;> exact exec_exc h rfl (by decide) rfl
  · intro s n code addr hn hcode
    dsimp only
    refine ⟨fun hdf => ?_, fun hd => ?_⟩
    · rw [trapG_of_not_doubleFault hdf]
      have hdepth := trapDepth_lt (s.gcore n)
      have hbase : (((s.gcore n).kr 32).toNat + 0) % 2 ^ 32 = ((s.gcore n).kr 32).toNat :=
        Nat.mod_eq_of_lt ((s.gcore n).kr 32).isLt
      simp only [gcore_modGcore_self, enterTrap_pc, GCore.ie, GCore.user, enterTrap_kr]
      refine ⟨rfl, rfl, rfl, ?_, statusEntry_ie _ hdepth, statusEntry_user _ hdepth, ?_, hbase, rfl, rfl, rfl,
        gcore_modGcore_ne _ (by omega) _⟩
      · change BitVec.ofNat 32 (if hasAddr code = true then addr else 0) = _
        simp only [← hasAddr_iff]
        split <;> rfl
      · rw [GCore.depth, enterTrap_kr]
        exact statusEntry_depth _ hdepth
    · have hdf : (s.gcore n).doubleFault = true := by
        rcases hd with hd | hd <;> simp [GCore.doubleFault, hd]
      rw [trapG_of_doubleFault hdf]
      rw [gcore_raise, gcore_modGcore_self]
      exact ⟨rfl, rfl, rfl, rfl, rfl, rfl⟩
  · intro s t n
    dsimp only
    refine ⟨fun x hrun hie hdepth hnmi hx =>
        ⟨(s.at t).modGcore n fun c => c.enterTrap (0x80 + x) 0 (0x100 + 16 * x), ?_, ?_⟩, fun hno => ?_,
      fun hrun hnmi hdepth => ⟨(s.at t).modGcore n GCore.enterNmi, ?_, ?_⟩, fun hno => ?_⟩
    · change execInterruptEntry t n s = _
      simp only [execInterruptEntry, hrun, hie, hdepth, hnmi, hx, and_self, if_true]
    · have htrap : ((s.at t).gcore n).trapDepth = 1 := if_neg (by omega)
      rw [gcore_modGcore_self]
      refine ⟨enterTrap_kr .., enterTrap_kr .., enterTrap_kr .., enterTrap_kr .., ?_, enterTrap_pc .., enterTrap_g ..,
        modGcore_mem ..⟩
      rw [enterTrap_kr, htrap]
      rfl
    · have hcond : ¬ (((s.at t).gcore n).running = true ∧ ((s.at t).gcore n).ie = true ∧ ((s.at t).gcore n).depth = 0 ∧
          ((s.at t).gcore n).nmi = false) := by
        rintro ⟨-, hie, hdepth, -⟩
        rcases hno with hno | hno
        · exact absurd hie (by simp [hno])
        · exact hno hdepth
      change execInterruptEntry t n s = _
      simp only [execInterruptEntry, if_neg hcond]
    · change execNmiEntry t n s = _
      simp only [execNmiEntry, hrun, hnmi, hdepth, and_self, if_true]
    · rw [gcore_modGcore_self]
      have hstatus : statusEntry 2 = 8 := rfl
      simp [enterNmi_kr, enterNmi_pc, hstatus]
    · have hcond : ¬ ((s.at t).gcore n).depth < 2 := Nat.not_lt.2 hno
      change execNmiEntry t n s = _
      simp only [execNmiEntry, hcond, and_false, if_false]

end Sys2Proof.Machine
end

section
/-! Loads and staged stores of a sequencer `Instance` (R39, R101-R103, R141): what each region of R102 makes of them. -/

namespace Sys2Proof.Machine

/-! ### Reading memory -/

/-- A read that nothing refuses, outside the boot ROM and the Ledger's HDR region, gives the bytes of memory. -/
theorem readMem_plain {s : State} {i a n : Nat} (hgate : s.gateAllows i a n .load = true) (hon : s.memOn a n = true)
    (hecc : s.poisoned a n = false) (hrom : 0x40000 ≤ a) (hhdr : ¬ (ledgerBase < a + n ∧ a < ledgerBase + 0x8000)) :
    s.readMem i a n = (.ok (readBytes s.mem a n), s) := by
  simp only [State.readMem, hgate, hon, hecc, Bool.not_true, Bool.false_eq_true, if_false]
  rw [if_neg (Nat.not_lt.2 hrom), if_neg (by simpa using hhdr)]

theorem readMem_off {s : State} {i a n : Nat} (hgate : s.gateAllows i a n .load = true) (hon : s.memOn a n = false) :
    s.readMem i a n = (.error .bus, s) := by
  simp [State.readMem, hgate, hon]

theorem readMem_poisoned {s : State} {i a n : Nat} (hgate : s.gateAllows i a n .load = true) (hon : s.memOn a n = true)
    (hecc : s.poisoned a n = true) : s.readMem i a n = (.error .ecc, s.memUncor a n) := by
  simp [State.readMem, hgate, hon, hecc]

/-- Outside DRAM the devices report nothing (R483). -/
theorem memUncor_onChip {s : State} {a : Nat} (h : a < dramBase) (n : Nat) : s.memUncor a n = s := by
  simp [State.memUncor, Nat.not_le.2 h]

/-! ### Regions (R102) -/

theorem seqRegion_tcm {p a : Nat} (h : seqRegion p a = .itcm ∨ seqRegion p a = .dtcm) :
    tcmBase p ≤ a ∧ a < tcmBase p + tcmSize := by
  rw [seqRegion] at h
  split_ifs at h with hi hd
  · exact ⟨hi.1, lt_of_lt_of_le hi.2 (by simp [tcmSize])⟩
  · exact hd
  all_goals simp at h

theorem seqRegion_stacks {p a : Nat} (h : seqRegion p a = .stacks) : stacksBase ≤ a ∧ a < stacksBase + stacksSize := by
  rw [seqRegion] at h
  split_ifs at h with hi hd hs hr
  exact hs

theorem seqRegion_regs {p a : Nat} (h : seqRegion p a = .regs) : inRegs a = true := by
  rw [seqRegion] at h
  split_ifs at h with hi hd hs hr
  exact (Bool.and_eq_true_iff.1 hr).1

/-- Memory that is on from an address of the Stacks lies in the Stacks. -/
theorem memOn_stacks_end {s : State} {a n : Nat} (hlo : stacksBase ≤ a) (hhi : a < stacksBase + stacksSize)
    (hon : s.memOn a n = true) : a + n ≤ stacksBase + stacksSize := by
  rw [State.memOn] at hon
  split at hon
  · next r hr =>
    obtain ⟨hmem, hin⟩ := And.intro (List.mem_of_find?_eq_some hr) (List.find?_some hr)
    simp only [regions, List.mem_cons, List.not_mem_nil, or_false] at hmem
    simp only [Bool.and_eq_true, decide_eq_true_eq] at hin
    simp only [stacksBase, stacksSize] at hlo hhi ⊢
    rcases hmem with rfl | rfl | rfl | rfl | rfl | rfl | rfl | rfl | rfl | rfl | rfl | rfl | rfl <;>
      simp only [bandBase, mapBase, mapSize, stagingBase, stagingSize, tcmBase, tcmSize, supBase, supSize, ledgerBase,
        stacksBase, stacksSize] at hin <;> omega
  · simp only [State.inDram, Bool.and_eq_true, decide_eq_true_eq] at hon
    simp only [dramBase] at hon
    simp only [stacksBase, stacksSize] at hhi
    omega

/-! ### Loads -/

/-- A load of a TCM is made at once, from memory with the `Instance`'s writes laid over it. -/
theorem loadT_own {s : State} {p a sz : Nat} (hp : p < 24) (hsz : sz < 4)
    (hr : seqRegion p a = .itcm ∨ seqRegion p a = .dtcm) (hgate : s.gateAllows iSEQ a (2 ^ sz) .load = true)
    (hon : s.memOn a (2 ^ sz) = true) (hecc : s.poisoned a (2 ^ sz) = false) (w : Who) (key : Nat) (rt : Fin 32)
    (signed : Bool) : s.loadT w key p a rt sz signed =
      .next (s.putLoad w rt sz signed (natLE (s.overlaid key a (readBytes s.mem a (2 ^ sz))))) := by
  obtain ⟨hlo, hhi⟩ := seqRegion_tcm hr
  have hn : 2 ^ sz ≤ 2 ^ 3 := Nat.pow_le_pow_right (by decide) (by omega)
  simp only [tcmBase, tcmSize] at hlo hhi
  have hread := readMem_plain hgate hon hecc (by omega) (by simp only [ledgerBase]; omega)
  rw [State.loadT]
  rcases hr with hr | hr <;> rw [hr, hread]

/-- A load of the Stacks that passes its checks reads its target later. -/
theorem loadT_stacks {s : State} {p a sz : Nat} (hr : seqRegion p a = .stacks)
    (hgate : s.gateAllows iSEQ a (2 ^ sz) .load = true) (hon : s.memOn a (2 ^ sz) = true) (w : Who) (key : Nat)
    (rt : Fin 32) (signed : Bool) : s.loadT w key p a rt sz signed = .fly a rt sz signed s := by
  rw [State.loadT, hr]
  simp [hgate, hon]

/-- A load of a register that passes its checks reads its target later. -/
theorem loadT_regs {s : State} {p a sz : Nat} (hr : seqRegion p a = .regs)
    (hgate : s.gateAllows iSEQ a (2 ^ sz) .load = true) (hsz : sz < 3) (hon : s.regOn a = true) (w : Who) (key : Nat)
    (rt : Fin 32) (signed : Bool) : s.loadT w key p a rt sz signed = .fly a rt sz signed s := by
  have hn : ¬ 4 < 2 ^ sz := Nat.not_lt.2 (Nat.pow_le_pow_right (by decide) (by omega) : 2 ^ sz ≤ 2 ^ 2)
  rw [State.loadT, hr]
  simp [hgate, hon, hn]

/-- A load of what is off, or of a pair of registers, raises BUS. -/
theorem loadT_bus {s : State} {p a sz : Nat} (hgate : s.gateAllows iSEQ a (2 ^ sz) .load = true)
    (hbad : seqRegion p a = .stacks ∧ s.memOn a (2 ^ sz) = false ∨
      seqRegion p a = .regs ∧ (sz = 3 ∨ s.regOn a = false)) (w : Who) (key : Nat) (rt : Fin 32) (signed : Bool) :
    s.loadT w key p a rt sz signed = .exc xBUS a s := by
  rcases hbad with ⟨hr, hoff⟩ | ⟨hr, rfl | hoff⟩
  · rw [State.loadT, hr]
    simp [hgate, hoff]
  · rw [State.loadT, hr]
    simp only [hgate, Bool.not_true, Bool.false_eq_true, if_false]
    exact if_pos (by simp)
  · rw [State.loadT, hr]
    simp [hgate, hoff]

theorem loadT_none {s : State} {p a sz : Nat} (hr : seqRegion p a = .none) (w : Who) (key : Nat) (rt : Fin 32)
    (signed : Bool) : s.loadT w key p a rt sz signed = .exc xACCESS a s := by
  rw [State.loadT, hr]

/-! ### The array read (R39) -/

theorem readTarget_stacks {s : State} {p a sz : Nat} (hr : seqRegion p a = .stacks)
    (hgate : s.gateAllows iSEQ a (2 ^ sz) .load = true) (hon : s.memOn a (2 ^ sz) = true)
    (hecc : s.poisoned a (2 ^ sz) = false) (key : Nat) (rt : Fin 32) (signed : Bool) :
    s.readTarget key p a rt sz signed =
      (.loaded rt sz signed (natLE (s.overlaid key a (readBytes s.mem a (2 ^ sz)))), s) := by
  obtain ⟨hlo, hhi⟩ := seqRegion_stacks hr
  have hend := memOn_stacks_end hlo hhi hon
  simp only [stacksBase, stacksSize] at hlo hhi hend
  have hread := readMem_plain hgate hon hecc (by omega) (by simp only [ledgerBase]; omega)
  rw [State.readTarget, hr]
  simp only [hread]

theorem readTarget_poisoned {s : State} {p a sz : Nat} (hr : seqRegion p a = .stacks)
    (hgate : s.gateAllows iSEQ a (2 ^ sz) .load = true) (hon : s.memOn a (2 ^ sz) = true)
    (hecc : s.poisoned a (2 ^ sz) = true) (key : Nat) (rt : Fin 32) (signed : Bool) :
    s.readTarget key p a rt sz signed = (.exc xECC_D a, s) := by
  have hhi := (seqRegion_stacks hr).2
  simp only [stacksBase, stacksSize] at hhi
  rw [State.readTarget, hr]
  simp only [readMem_poisoned hgate hon hecc, memUncor_onChip (a := a) (by simp only [dramBase]; omega)]
  rfl

theorem readTarget_off {s : State} {p a sz : Nat} (hr : seqRegion p a = .stacks)
    (hgate : s.gateAllows iSEQ a (2 ^ sz) .load = true) (hon : s.memOn a (2 ^ sz) = false) (key : Nat) (rt : Fin 32)
    (signed : Bool) : s.readTarget key p a rt sz signed = (.exc xBUS a, s) := by
  rw [State.readTarget, hr]
  simp only [readMem_off hgate hon]
  rfl

theorem readTarget_regs {s u : State} {p a sz v : Nat} (hr : seqRegion p a = .regs)
    (hgate : s.gateAllows iSEQ a (2 ^ sz) .load = true) (hv : s.regRead iSEQ a (2 ^ sz) = ({ value := v }, u)) (key : Nat)
    (rt : Fin 32) (signed : Bool) : s.readTarget key p a rt sz signed = (.loaded rt sz signed v, u) := by
  rw [State.readTarget, hr]
  simp only [State.busLoad, seqRegion_regs hr, hgate, hv, if_true]

/-- An array read replaces a load in flight by what its target gives. -/
theorem arrayRead_load {s u : State} {p a sz : Nat} {rt : Fin 32} {signed : Bool} {f : Fly}
    (hw : (s.flight p).what = .load a rt sz signed) (ht : s.readTarget (s.flight p).key p a rt sz signed = (f, u)) :
    s.arrayRead p = u.setFlight p { s.flight p with what := f } := by
  rw [State.arrayRead]
  simp only [hw, ht]

/-! ### Loads and stores as instructions -/

theorem memLat_pos (ra : Fin 32) (off : BitVec 14) (w : Who) (s : State) : 0 < State.memLat ra off w s := by
  cases w with
  | t key p i =>
    rw [State.memLat]
    generalize seqRegion p _ = r
    cases r <;> decide
  | g n => exact Nat.one_pos

/-- The form of a load that R101 gives: a sign extension of less than a word, a pair into a register that names one. -/
def LoadForm (sz : Fin 4) (rt : Fin 32) (signed : Bool) : Prop :=
  (signed = true → sz.val < 2) ∧ (sz = 3 → pairOkR rt = true)

theorem loadForm_bool {sz : Fin 4} {rt : Fin 32} {signed : Bool} :
    ((signed && decide (2 ≤ sz.val)) || (decide (sz = 3) && !pairOkR rt)) = true ↔ ¬ LoadForm sz rt signed := by
  simp only [LoadForm, Bool.or_eq_true, Bool.and_eq_true, decide_eq_true_eq, Bool.not_eq_true', not_and_or, Classical.not_imp,
    Nat.not_lt, Bool.not_eq_true]

section
variable {s s' : State} {t : Tick} {c : Fin 26} {w : Who} {sz : Fin 4} {rt ra : Fin 32} {off : BitVec 14} {signed : Bool}
  (h : CanIssue (s.atCore t c) c (State.memLat ra off w s') w s')
include h

theorem load_illegal (hform : ¬ LoadForm sz rt signed) :
    s.load t c sz rt ra off signed = .next (s'.except w (State.memLat ra off w s') xILLEGAL 0) := by
  rw [State.load, issueBy_exc h (memLat_pos ..) (if_pos (loadForm_bool.2 hform))]

theorem load_misaligned (hform : LoadForm sz rt signed) (hal : s'.dataAddr w ra off % 2 ^ sz.val ≠ 0) :
    s.load t c sz rt ra off signed =
      .next (s'.except w (State.memLat ra off w s') xALIGN (s'.dataAddr w ra off)) := by
  rw [State.load, issueBy_exc h (memLat_pos ..)
    ((if_neg fun hbad => loadForm_bool.1 hbad hform).trans (if_pos hal))]

end

section
variable {s s' : State} {t : Tick} {c : Fin 26} {key p : Nat} {i : Instance} {sz : Fin 4} {rt ra : Fin 32}
  {off : BitVec 14} {signed : Bool} (h : CanIssue (s.atCore t c) c (State.memLat ra off (.t key p i) s') (.t key p i) s')
  (hform : LoadForm sz rt signed) (hal : s'.dataAddr (.t key p i) ra off % 2 ^ sz.val = 0)
include h hform hal

theorem load_t_next {x : State}
    (he : s'.loadT (.t key p i) key p (s'.dataAddr (.t key p i) ra off) rt sz signed = .next x) :
    s.load t c sz rt ra off signed = .next (x.goOn (.t key p i) (State.memLat ra off (.t key p i) s')) := by
  rw [State.load, issueBy_next h
    ((if_neg fun hbad => loadForm_bool.1 hbad hform).trans ((if_neg (not_not.2 hal)).trans he))]

theorem load_t_fly {x : State} {a : Nat}
    (he : s'.loadT (.t key p i) key p (s'.dataAddr (.t key p i) ra off) rt sz signed = .fly a rt sz signed x) :
    s.load t c sz rt ra off signed =
      .next (x.flies (.t key p i) (State.memLat ra off (.t key p i) s') a rt sz signed) := by
  rw [State.load, issueBy_fly h
    ((if_neg fun hbad => loadForm_bool.1 hbad hform).trans ((if_neg (not_not.2 hal)).trans he))]

theorem load_t_exc {x : State} {code a : Nat}
    (he : s'.loadT (.t key p i) key p (s'.dataAddr (.t key p i) ra off) rt sz signed = .exc code a x) :
    s.load t c sz rt ra off signed =
      .next (x.except (.t key p i) (State.memLat ra off (.t key p i) s') code a) := by
  rw [State.load, issueBy_exc h (memLat_pos ..)
    ((if_neg fun hbad => loadForm_bool.1 hbad hform).trans ((if_neg (not_not.2 hal)).trans he))]

end

end Sys2Proof.Machine
end

section
/-! Staged stores of a sequencer `Instance` (R101-R103), and the statement about its accesses to memory. -/

namespace Sys2Proof.Machine

/-! ### Staged stores -/

/-- A store that is checked and finds room is staged: into the TCM, or for the bus. -/
theorem storeT_staged {s : State} {key p a sz : Nat} (hgate : s.gateAllows iSEQ a (2 ^ sz) .store = true)
    (hroom : (s.slot key).cbuse < 64)
    (hr : seqRegion p a = .dtcm ∨ seqRegion p a = .stacks ∨
      seqRegion p a = .regs ∧ 2 ^ sz = 4 ∧ s.regOn a = true) (v : Nat) :
    s.storeT key p a sz v =
      .next (s.stageWrite key (if seqRegion p a = .dtcm then .tcm a (2 ^ sz) v else .bus a (2 ^ sz) v)) := by
  rw [State.storeT]
  generalize seqRegion p a = r at hr ⊢
  rcases hr with rfl | rfl | ⟨rfl, hn, hon⟩
  · simp [hgate, hroom]
  · simp [hgate, hroom]
  · rw [hn] at hgate ⊢
    simp [hgate, hroom, hon]

theorem storeT_access {s : State} {key p a sz : Nat} (hr : seqRegion p a = .none ∨ seqRegion p a = .itcm) (v : Nat) :
    s.storeT key p a sz v = .exc xACCESS a s := by
  rw [State.storeT]
  exact if_pos hr

theorem storeT_bus {s : State} {key p a sz : Nat} (hgate : s.gateAllows iSEQ a (2 ^ sz) .store = true)
    (hr : seqRegion p a = .regs) (hbad : 2 ^ sz ≠ 4 ∨ s.regOn a = false) (v : Nat) :
    s.storeT key p a sz v = .exc xBUS a s := by
  rw [State.storeT, hr]
  rcases hbad with hn | hoff
  · simp [hgate, hn]
  · simp [hgate, hoff]

theorem storeT_full {s : State} {key p a sz : Nat} (hgate : s.gateAllows iSEQ a (2 ^ sz) .store = true)
    (hr : seqRegion p a = .dtcm ∨ seqRegion p a = .stacks) (hfull : 64 ≤ (s.slot key).cbuse) (v : Nat) :
    s.storeT key p a sz v = .exc xCOMMIT_FULL 0 s := by
  rw [State.storeT]
  generalize seqRegion p a = r at hr ⊢
  rcases hr with rfl | rfl <;> simp [hgate, hfull]

/-! ### Stores as instructions -/

/-- The form of a store that R101 gives: a pair from a register that names one. -/
def StoreForm (sz : Fin 4) (rt : Fin 32) : Prop := sz = 3 → pairOkR rt = true

theorem storeForm_bool {sz : Fin 4} {rt : Fin 32} : (decide (sz = 3) && !pairOkR rt) = true ↔ ¬ StoreForm sz rt := by
  simp [StoreForm]

section
variable {s s' : State} {t : Tick} {c : Fin 26} {w : Who} {sz : Fin 4} {rt ra : Fin 32} {off : BitVec 14}
  (h : CanIssue (s.atCore t c) c (State.memLat ra off w s') w s')
include h

theorem st_illegal (hform : ¬ StoreForm sz rt) :
    exec (.st t c sz rt ra off) s = .next (s'.except w (State.memLat ra off w s') xILLEGAL 0) := by
  change execSt t c sz rt ra off s = _
  rw [execSt, issueBy_exc h (memLat_pos ..) (if_pos (storeForm_bool.2 hform))]

theorem st_misaligned (hform : StoreForm sz rt) (hal : s'.dataAddr w ra off % 2 ^ sz.val ≠ 0) :
    exec (.st t c sz rt ra off) s =
      .next (s'.except w (State.memLat ra off w s') xALIGN (s'.dataAddr w ra off)) := by
  change execSt t c sz rt ra off s = _
  rw [execSt, issueBy_exc h (memLat_pos ..)
    ((if_neg fun hbad => storeForm_bool.1 hbad hform).trans (if_pos hal))]

end

section
variable {s s' : State} {t : Tick} {c : Fin 26} {key p : Nat} {i : Instance} {sz : Fin 4} {rt ra : Fin 32}
  {off : BitVec 14} (h : CanIssue (s.atCore t c) c (State.memLat ra off (.t key p i) s') (.t key p i) s')
  (hform : StoreForm sz rt) (hal : s'.dataAddr (.t key p i) ra off % 2 ^ sz.val = 0)
include h hform hal

theorem st_t_next {x : State}
    (he : s'.storeT key p (s'.dataAddr (.t key p i) ra off) sz (s'.storeValue (.t key p i) rt sz) = .next x) :
    exec (.st t c sz rt ra off) s = .next (x.goOn (.t key p i) (State.memLat ra off (.t key p i) s')) := by
  change execSt t c sz rt ra off s = _
  rw [execSt, issueBy_next h
    ((if_neg fun hbad => storeForm_bool.1 hbad hform).trans ((if_neg (not_not.2 hal)).trans he))]

theorem st_t_exc {x : State} {code a : Nat}
    (he : s'.storeT key p (s'.dataAddr (.t key p i) ra off) sz (s'.storeValue (.t key p i) rt sz) = .exc code a x) :
    exec (.st t c sz rt ra off) s = .next (x.except (.t key p i) (State.memLat ra off (.t key p i) s') code a) := by
  change execSt t c sz rt ra off s = _
  rw [execSt, issueBy_exc h (memLat_pos ..)
    ((if_neg fun hbad => storeForm_bool.1 hbad hform).trans ((if_neg (not_not.2 hal)).trans he))]

end

/-- The value that a store writes, by its size. -/
theorem storeValue_eq (s : State) (w : Who) (rt : Fin 32) (sz : Fin 4) :
    s.storeValue w rt sz = if sz = 3 then s.grPair w rt else (s.gr w rt).toNat % 2 ^ (8 * 2 ^ sz.val) := by
  rw [State.storeValue]
  exact if_congr (by rw [Fin.ext_iff]; rfl) rfl rfl

/-- A staged store changes no byte of memory and no register of the part. -/
theorem goOn_t_frame (s : State) (key p lat : Nat) (i : Instance) (x : Staged) :
    ((s.stageWrite key x).goOn (.t key p i) lat).mem = s.mem ∧
      ((s.stageWrite key x).goOn (.t key p i) lat).regs = s.regs := by
  simp [State.goOn, State.charge, State.modInst, State.stageWrite]

/-! ### The three forms of a loaded value -/

theorem putLoad_word {s : State} {w : Who} {rt : Fin 32} {sz v : Nat} (h : sz < 3) :
    s.putLoad w rt sz false v = s.setGr w rt (BitVec.ofNat 32 v) := by
  rw [State.putLoad, if_neg (by omega)]
  rfl

theorem putLoad_pair {s : State} {w : Who} {rt : Fin 32} {v : Nat} (signed : Bool) :
    s.putLoad w rt 3 signed v = s.setGrPair w rt v := if_pos rfl

theorem putLoad_signed {s : State} {w : Who} {rt : Fin 32} {sz v : Nat} (h : sz < 2) :
    s.putLoad w rt sz true v = s.setGr w rt (BitVec.ofInt 32 (toSigned (8 * 2 ^ sz) v)) := by
  rw [State.putLoad, if_neg (by omega)]
  rfl

theorem exec_ld (t : Tick) (c : Fin 26) (sz : Fin 4) (rt ra : Fin 32) (off : BitVec 14) (s : State) :
    exec (.ld t c sz rt ra off) s = s.load t c sz rt ra off false := rfl

theorem exec_lds (t : Tick) (c : Fin 26) (sz : Fin 4) (rt ra : Fin 32) (off : BitVec 14) (s : State) :
    exec (.lds t c sz rt ra off) s = s.load t c sz rt ra off true := rfl

theorem loadForm_ld {sz : Fin 4} {rt : Fin 32} (h : sz = 3 → pairOkR rt = true) : LoadForm sz rt false := ⟨nofun, h⟩

theorem loadForm_lds {sz : Fin 4} {rt : Fin 32} (h : sz.val < 2) : LoadForm sz rt true :=
  ⟨fun _ => h, fun h3 => absurd h (by rw [h3]; decide)⟩

/-- The latency of R117 by the region of R102. -/
theorem memLat_remote {s : State} {key p : Nat} {i : Instance} {ra : Fin 32} {off : BitVec 14}
    (h : seqRegion p (s.dataAddr (.t key p i) ra off) = .stacks ∨ seqRegion p (s.dataAddr (.t key p i) ra off) = .regs) :
    State.memLat ra off (.t key p i) s = 12 := by
  rw [State.memLat]
  generalize seqRegion p _ = r at h ⊢
  rcases h with rfl | rfl <;> rfl

/-- Settles O12: an access by the region of its address, then by what the rules check in that region. -/
theorem memoryAccessOnSequencers : Obligations.MemoryAccessOnSequencers := by
  refine ⟨⟨?_, ?_⟩, ?_⟩
  · intro s s' t c sz rt ra off lat key p i w h hlat
    have hp : p < 24 := h.2.1
    subst hlat
    intro a n v pairOk gate own remote
    refine ⟨fun hal ⟨hr, hg, hon, hecc⟩ => ?_, fun hal ⟨hg, hr⟩ => ?_, fun hal hpair hg hbad => ?_, fun hal hpair => ?_,
      fun hal hsz => ?_, fun hal hpair hr => ?_, fun hsz => ?_, fun hpair => ?_⟩
    · have hload := loadT_own hp sz.isLt hr hg hon hecc w key rt
      refine ⟨fun hsz => ?_, fun hsz hpair => ?_, fun hsz => ?_⟩
      · rw [exec_ld, load_t_next h (loadForm_ld fun h3 => absurd hsz (by rw [h3]; decide)) hal (hload false), putLoad_word hsz]
      · subst hsz
        rw [exec_ld, load_t_next h (loadForm_ld fun _ => hpair) hal (hload false)]
        exact congrArg (fun u : State => Host.Outcome.next (u.goOn w _)) (putLoad_pair false)
      · rw [exec_lds, load_t_next h (loadForm_lds hsz) hal (hload true), putLoad_signed hsz]
    · have hlat : State.memLat ra off w s' = 12 := memLat_remote (hr.imp And.left And.left)
      have hload : ∀ signed, s'.loadT w key p a rt sz signed = .fly a rt sz signed s' := by
        rcases hr with ⟨hr, hon⟩ | ⟨hr, hsz, hon⟩
        · exact loadT_stacks hr hg hon w key rt
        · exact loadT_regs hr hg hsz hon w key rt
      refine ⟨fun hpair => ?_, fun hsz => ?_⟩
      · rw [exec_ld, load_t_fly h (loadForm_ld hpair) hal (hload false), hlat]
      · rw [exec_lds, load_t_fly h (loadForm_lds hsz) hal (hload true), hlat]
    · have hbad' := hbad.imp_right (And.imp_right (Or.imp_left (congrArg Fin.val)))
      exact load_t_exc h (loadForm_ld hpair) hal (loadT_bus hg hbad' w key rt false)
    · exact load_misaligned h (loadForm_ld hpair) hal
    · exact load_misaligned h (loadForm_lds hsz) hal
    · exact load_t_exc h (loadForm_ld hpair) hal (loadT_none hr w key rt false)
    · exact load_illegal h fun hform => absurd (hform.1 rfl) (Nat.not_lt.2 hsz)
    · exact load_illegal h fun hform => hpair hform.2
  · intro s p a sz rt signed x n hw hg
    refine ⟨fun hr => ⟨fun hon hecc => ?_, fun hon hecc => ?_, fun hon => ?_⟩, fun hr v u hv => ?_⟩
    · exact arrayRead_load hw (readTarget_stacks hr hg hon hecc ..)
    · exact arrayRead_load hw (readTarget_poisoned hr hg hon hecc ..)
    · exact arrayRead_load hw (readTarget_off hr hg hon ..)
    · exact arrayRead_load hw (readTarget_regs hr hg hv ..)
  · intro s s' t c sz rt ra off lat key p i w h a n v pairOk open' st
    have hv : s'.storeValue w rt sz = v := storeValue_eq s' w rt sz
    refine ⟨?_, fun x => goOn_t_frame s' key p lat i x, fun hlat => ?_⟩
    · intro hlat
      subst hlat
      refine ⟨fun hal hpair hg hroom => ⟨fun hr => ?_, fun hr => ?_⟩, fun hal hpair hr => ?_, fun hal hpair hg hr hbad => ?_,
        fun hal hpair hg hr hfull => ?_, fun hal hpair => ?_, fun hpair => ?_⟩
      · have hstage := storeT_staged hg hroom (.inl hr) v
        rw [if_pos hr] at hstage
        exact st_t_next h hpair hal (hv ▸ hstage)
      · have hstage := storeT_staged hg hroom (.inr hr) v
        rw [if_neg (by rcases hr with hr | hr <;> simp [hr])] at hstage
        exact st_t_next h hpair hal (hv ▸ hstage)
      · exact st_t_exc h hpair hal (storeT_access hr _)
      · exact st_t_exc h hpair hal (storeT_bus hg hr hbad _)
      · exact st_t_exc h hpair hal (storeT_full hg hr hfull _)
      · exact st_misaligned h hpair hal
      · exact st_illegal h hpair
    · subst hlat
      exact exec_exc h rfl (by decide) rfl

end Sys2Proof.Machine
end

section
/-! Loads and stores of a supervisor core (R101, R122, R123, R127): outside the data cache and through it. -/

namespace Sys2Proof.Machine

/-! ### Loads -/

/-- A load outside the data cache is a load of the bus. -/
theorem loadG_uncached {s u : State} {n va k x : Nat} (hw : s.windowRefuses n va false = false)
    (hc : s.cachedData n va = false) (hb : s.busLoad (iSUP n) ((s.gcore n).phys va) k = ({ value := x }, u)) :
    s.loadG n va k = (.ok x, u) := by
  simp [State.loadG, hw, hc, hb]

/-- A line that the data cache holds gives its own bytes (R127). -/
theorem loadG_hit {s : State} {n va k : Nat} {l : CacheLine} (hw : s.windowRefuses n va false = false)
    (hc : s.cachedData n va = true) (hg : s.gateAllows (iSUP n) ((s.gcore n).phys va) k .load = true)
    (hl : s.dline n ((s.gcore n).phys va) = some l) :
    s.loadG n va k = (.ok (natLE ((l.bytes.drop ((s.gcore n).phys va % 64)).take k)), s) := by
  simp [State.loadG, hw, hc, hg, hl]

/-- A miss reads memory and brings the line in (R127). -/
theorem loadG_miss {s u : State} {n va k : Nat} {bs : List Byte} (hw : s.windowRefuses n va false = false)
    (hc : s.cachedData n va = true) (hg : s.gateAllows (iSUP n) ((s.gcore n).phys va) k .load = true)
    (hl : s.dline n ((s.gcore n).phys va) = none) (hr : s.readMem (iSUP n) ((s.gcore n).phys va) k = (.ok bs, u)) :
    s.loadG n va k = (.ok (natLE bs), (u.allocate n ((s.gcore n).phys va)).2) := by
  simp [State.loadG, hw, hc, hg, hl, hr]

theorem loadG_window {s : State} {n va : Nat} (hw : s.windowRefuses n va false = true) (k : Nat) :
    s.loadG n va k = (.error xACCESS, s) := if_pos hw

/-- A load of the bus from memory, and from a register. -/
theorem busLoad_memory {s u : State} {i a n : Nat} {bs : List Byte} (ha : inRegs a = false)
    (hr : s.readMem i a n = (.ok bs, u)) : s.busLoad i a n = ({ value := natLE bs }, u) := by
  simp [State.busLoad, ha, hr]

theorem busLoad_register {s u : State} {i a n x : Nat} (ha : inRegs a = true) (hg : s.gateAllows i a n .load = true)
    (hr : s.regRead i a n = ({ value := x }, u)) : s.busLoad i a n = ({ value := x }, u) := by
  simp [State.busLoad, ha, hg, hr]

section
variable {s s' : State} {t : Tick} {c : Fin 26} {n : Nat} {sz : Fin 4} {rt ra : Fin 32} {off : BitVec 14} {signed : Bool}
  (h : CanIssue (s.atCore t c) c 1 (.g n) s') (hform : LoadForm sz rt signed)
  (hal : s'.dataAddr (.g n) ra off % 2 ^ sz.val = 0)
include h hform hal

theorem load_g_next {u : State} {v : Nat} (he : s'.loadG n (s'.dataAddr (.g n) ra off) (2 ^ sz.val) = (.ok v, u)) :
    s.load t c sz rt ra off signed = .next ((u.putLoad (.g n) rt sz signed v).goOn (.g n) 1) := by
  rw [State.load, issueBy_next (lat := State.memLat ra off) h
    ((if_neg fun hbad => loadForm_bool.1 hbad hform).trans ((if_neg (not_not.2 hal)).trans (by simp only [he]; rfl)))]
  rfl

theorem load_g_exc {u : State} {e : Nat} (he : s'.loadG n (s'.dataAddr (.g n) ra off) (2 ^ sz.val) = (.error e, u)) :
    s.load t c sz rt ra off signed = .next (u.trapG n e (s'.dataAddr (.g n) ra off)) := by
  rw [State.load, issueBy_exc (lat := State.memLat ra off) h (memLat_pos ..)
    ((if_neg fun hbad => loadForm_bool.1 hbad hform).trans ((if_neg (not_not.2 hal)).trans (by simp only [he]; rfl)))]
  rfl

end

/-- The three forms of a loaded value (R101). -/
theorem load_g_forms {s s' u : State} {t : Tick} {c : Fin 26} {n v : Nat} {sz : Fin 4} {rt ra : Fin 32} {off : BitVec 14}
    (h : CanIssue (s.atCore t c) c 1 (.g n) s') (hal : s'.dataAddr (.g n) ra off % 2 ^ sz.val = 0)
    (he : s'.loadG n (s'.dataAddr (.g n) ra off) (2 ^ sz.val) = (.ok v, u)) :
    (sz.val < 3 → exec (.ld t c sz rt ra off) s = .next ((u.setGr (.g n) rt (BitVec.ofNat 32 v)).goOn (.g n) 1)) ∧
    (sz = 3 → pairOkR rt = true → exec (.ld t c sz rt ra off) s = .next ((u.setGrPair (.g n) rt v).goOn (.g n) 1)) ∧
    (sz.val < 2 → exec (.lds t c sz rt ra off) s =
      .next ((u.setGr (.g n) rt (BitVec.ofInt 32 (toSigned (8 * 2 ^ sz.val) v))).goOn (.g n) 1)) := by
  refine ⟨fun hsz => ?_, fun hsz hpair => ?_, fun hsz => ?_⟩
  · rw [exec_ld, load_g_next h (loadForm_ld fun h3 => absurd hsz (by rw [h3]; decide)) hal he, putLoad_word hsz]
  · subst hsz
    rw [exec_ld, load_g_next h (loadForm_ld fun _ => hpair) hal he]
    exact congrArg (fun u : State => Host.Outcome.next (u.goOn (.g n) 1)) (putLoad_pair false)
  · rw [exec_lds, load_g_next h (loadForm_lds hsz) hal he, putLoad_signed hsz]

/-! ### Stores -/

/-- A write that nothing refuses, outside the Ledger, stores the bytes. -/
theorem writeMem_plain {s : State} {i a : Nat} {bs : List Byte} (hg : s.gateAllows i a bs.length .store = true)
    (hon : s.memOn a bs.length = true) (hst : storable a bs.length = true) (hldg : ¬ (ledgerBase ≤ a ∧ a < dramBase)) :
    s.writeMem i a bs = (none, s.storeBytes a bs) := by
  have h1 : (decide (ledgerBase ≤ a) && decide (a < dramBase)) = false := by simpa using hldg
  simp only [State.writeMem, hg, hon, hst, h1, Bool.not_true, Bool.or_self, Bool.false_and, Bool.false_eq_true, if_false]

theorem busStore_memory {s : State} {i a n v : Nat} (ha : inRegs a = false) (hg : s.gateAllows i a n .store = true)
    (hon : s.memOn a n = true) (hst : storable a n = true) (hldg : ¬ (ledgerBase ≤ a ∧ a < dramBase)) :
    s.busStore i a n v = (.ok, s.setMem a n v) := by
  have hw := writeMem_plain (s := s) (i := i) (a := a) (bs := bytesLE n v) (by simpa using hg) (by simpa using hon)
    (by simpa using hst) hldg
  simp [State.busStore, ha, hw, State.setMem]

theorem busStore_register {s : State} {i a n v : Nat} (ha : inRegs a = true) (hg : s.gateAllows i a n .store = true) :
    s.busStore i a n v = s.regWrite i a n (BitVec.ofNat 32 v) := by
  simp [State.busStore, ha, hg]

theorem storeG_uncached {s u : State} {n va k v : Nat} (hw : s.windowRefuses n va true = false)
    (hc : s.cachedData n va = false) (hb : s.busStore (iSUP n) ((s.gcore n).phys va) k v = (.ok, u)) :
    s.storeG n va k v = (none, u) := by
  simp [State.storeG, hw, hc, hb]

/-- A line that the data cache holds takes the bytes and is dirty (R127). -/
theorem storeG_hit {s : State} {n va k v : Nat} {l : CacheLine} (hw : s.windowRefuses n va true = false)
    (hc : s.cachedData n va = true) (hg : s.gateAllows (iSUP n) ((s.gcore n).phys va) k .store = true)
    (hon : s.memOn ((s.gcore n).phys va) k = true) (hst : storable ((s.gcore n).phys va) k = true)
    (hl : s.dline n ((s.gcore n).phys va) = some l) :
    s.storeG n va k v = (none, s.putLine n
      { l with dirty := true, bytes := overlayWrite l.addr l.bytes ((s.gcore n).phys va) k v }) := by
  simp [State.storeG, hw, hc, hg, hon, hst, State.allocate, hl]

theorem storeG_window {s : State} {n va : Nat} (hw : s.windowRefuses n va true = true) (k v : Nat) :
    s.storeG n va k v = (some xACCESS, s) := if_pos hw

section
variable {s s' : State} {t : Tick} {c : Fin 26} {n : Nat} {sz : Fin 4} {rt ra : Fin 32} {off : BitVec 14}
  (h : CanIssue (s.atCore t c) c 1 (.g n) s') (hform : StoreForm sz rt)
  (hal : s'.dataAddr (.g n) ra off % 2 ^ sz.val = 0)
include h hform hal

theorem st_g_next {u : State}
    (he : s'.storeG n (s'.dataAddr (.g n) ra off) (2 ^ sz.val) (s'.storeValue (.g n) rt sz) = (none, u)) :
    exec (.st t c sz rt ra off) s = .next (u.goOn (.g n) 1) := by
  change execSt t c sz rt ra off s = _
  rw [execSt, issueBy_next (lat := State.memLat ra off) h
    ((if_neg fun hbad => storeForm_bool.1 hbad hform).trans ((if_neg (not_not.2 hal)).trans (by simp only [he]; rfl)))]
  rfl

theorem st_g_exc {u : State} {e : Nat}
    (he : s'.storeG n (s'.dataAddr (.g n) ra off) (2 ^ sz.val) (s'.storeValue (.g n) rt sz) = (some e, u)) :
    exec (.st t c sz rt ra off) s = .next (u.trapG n e (s'.dataAddr (.g n) ra off)) := by
  change execSt t c sz rt ra off s = _
  rw [execSt, issueBy_exc (lat := State.memLat ra off) h (memLat_pos ..)
    ((if_neg fun hbad => storeForm_bool.1 hbad hform).trans ((if_neg (not_not.2 hal)).trans (by simp only [he]; rfl)))]
  rfl

end

/-! ### Lines of the data cache -/

/-- The line found at an address, after it is replaced by another of the same address. -/
theorem find?_replace {ls : List CacheLine} {b : Nat} {l x : CacheLine} (hl : ls.find? (fun y => y.addr == b) = some l)
    (hx : x.addr = l.addr) :
    (ls.map fun y => if y.addr = x.addr then x else y).find? (fun y => y.addr == b) = some x := by
  have hb : l.addr = b := by simpa using List.find?_some hl
  induction ls with
  | nil => simp at hl
  | cons y ys ih =>
    by_cases hy : y.addr = b
    · simp [hx, hb, hy]
    · have hne : y.addr ≠ x.addr := by rw [hx, hb]; exact hy
      rw [List.find?_cons_of_neg (by simpa using hy)] at hl
      rw [List.map_cons, if_neg hne, List.find?_cons_of_neg (by simpa using hy), ih hl]

theorem dline_putLine {s : State} {n a : Nat} {l x : CacheLine} (hl : s.dline n a = some l) (hx : x.addr = l.addr) :
    (s.putLine n x).dline n a = some x := by
  rw [State.dline, State.putLine, gcore_modGcore_self]
  exact find?_replace hl hx

/-- Settles O13: a load or a store by whether its window lets it through, whether it is cached, and where it goes. -/
theorem memoryAccessOnSupervisors : Obligations.MemoryAccessOnSupervisors := by
  refine ⟨?_, ?_⟩
  · intro s s' t c sz rt ra off n w h va k a gives plain
    refine ⟨fun hal hw hg => ⟨fun hc ⟨ha, hon, hecc, hrom, hhdr⟩ => ?_, fun hc ha x u hx => ?_, fun hc => ⟨fun l hl => ?_,
      fun hl ⟨ha, hon, hecc, hrom, hhdr⟩ => ?_⟩⟩, fun hal hpair => ?_, fun hal hpair hw => ?_⟩
    · exact load_g_forms h hal (loadG_uncached hw hc (busLoad_memory ha (readMem_plain hg hon hecc hrom hhdr)))
    · exact load_g_forms h hal (loadG_uncached hw hc (busLoad_register ha hg hx))
    · exact load_g_forms h hal (loadG_hit hw hc hg hl)
    · exact load_g_forms h hal (loadG_miss hw hc hg hl (readMem_plain hg hon hecc hrom hhdr))
    · exact load_misaligned h (loadForm_ld hpair) hal
    · exact load_g_exc h (loadForm_ld hpair) hal (loadG_window hw k)
  · intro s s' t c sz rt ra off n w h va k a v pairOk st
    have hv : s'.storeValue w rt sz = v := storeValue_eq s' w rt sz
    refine ⟨fun hal hpair hw hg => ⟨fun hc ha hon hst hldg => ?_, fun hc ha u hu => ?_, fun hc hon hst l hl => ?_⟩,
      fun hal hpair => ?_, fun hal hpair hw => ?_, fun hpair => ?_⟩
    · refine ⟨s'.setMem a k v, st_g_next h hpair hal ?_, fun j hj => setMem_byte s' a k v hj,
        fun b hb => setMem_frame s' a k v hb, rfl, rfl, rfl, rfl⟩
      rw [hv]
      exact storeG_uncached hw hc (busStore_memory ha hg hon hst hldg)
    · refine st_g_next h hpair hal ?_
      rw [hv]
      exact storeG_uncached hw hc ((busStore_register ha hg).trans hu)
    · refine ⟨_, st_g_next h hpair hal ?_, ?_, ?_, dline_putLine hl rfl⟩
      · rw [hv]
        exact storeG_hit hw hc hg hon hst hl
      · rfl
      · rfl
    · exact st_misaligned h hpair hal
    · exact st_g_exc h hpair hal (storeG_window hw ..)
    · exact st_illegal (ra := ra) (off := off) (w := .g n) h hpair

end Sys2Proof.Machine
end

section
/-! Register writes (R11-R16, R32, R35) and the Gates (R466, R468): how a write is refused, field by field what it
leaves, and what a refusal records. -/

namespace Sys2Proof.Machine

/-! ### A word field by field (R13) -/

/-- Two fields of a register share no bit. -/
def Fld.Apart (f g : Fld) : Prop := f.lsb + f.width ≤ g.lsb ∨ g.lsb + g.width ≤ f.lsb

/-- The field lies in a word. -/
def Fld.Fits (f : Fld) : Prop := 0 < f.width ∧ f.lsb + f.width ≤ 32

/-- A field's bits of a word. -/
def Fld.of (f : Fld) (w : Word) : Nat := bits w (f.lsb + f.width - 1) f.lsb

/-- The word with each of the fields put in turn. -/
def putFields (val : Fld → Nat) (fs : List Fld) (w : Word) : Word :=
  fs.foldl (fun r f => putBits r (f.lsb + f.width - 1) f.lsb (val f)) w

theorem fld_of_lt {f : Fld} (h : f.Fits) (w : Word) : f.of w < 2 ^ f.width := by
  obtain ⟨h0, -⟩ := h
  have := bits_lt w (f.lsb + f.width - 1) f.lsb
  rwa [show f.lsb + f.width - 1 + 1 - f.lsb = f.width from by omega] at this

theorem fld_of_putFields_apart {val : Fld → Nat} {f : Fld} {fs : List Fld} (ha : ∀ g ∈ fs, f.Apart g)
    (hfit : ∀ g ∈ fs, g.Fits) (hf : f.Fits) (w : Word) : f.of (putFields val fs w) = f.of w := by
  induction fs generalizing w with
  | nil => rfl
  | cons g fs ih =>
    have hg := ha g List.mem_cons_self
    obtain ⟨hg0, hg32⟩ := hfit g List.mem_cons_self
    obtain ⟨hf0, -⟩ := hf
    rw [putFields, List.foldl_cons, ← putFields, ih (fun x hx => ha x (List.mem_cons_of_mem _ hx))
      (fun x hx => hfit x (List.mem_cons_of_mem _ hx))]
    rw [Fld.Apart] at hg
    exact bits_putBits_ne w (by omega) (by omega) (by omega) _

/-- A field put among fields that share no bit with it holds its value. -/
theorem fld_of_putFields {val : Fld → Nat} {fs : List Fld} (hp : fs.Pairwise Fld.Apart) (hfit : ∀ g ∈ fs, g.Fits)
    {f : Fld} (hf : f ∈ fs) (w : Word) : f.of (putFields val fs w) = val f % 2 ^ f.width := by
  induction fs generalizing w with
  | nil => exact absurd hf List.not_mem_nil
  | cons g fs ih =>
    obtain ⟨hg, hp⟩ := List.pairwise_cons.mp hp
    have hfit' : ∀ x ∈ fs, x.Fits := fun x hx => hfit x (List.mem_cons_of_mem _ hx)
    rw [putFields, List.foldl_cons, ← putFields]
    rcases List.mem_cons.mp hf with rfl | hf
    · have hff := hfit f List.mem_cons_self
      obtain ⟨h0, h32⟩ := hfit f List.mem_cons_self
      rw [fld_of_putFields_apart hg hfit' hff, Fld.of, bits_putBits_self w (by omega) (by omega)]
      congr 2
      omega
    · exact ih hp hfit' hf _

/-- A written word holds in each field what the field's access kind gives. -/
theorem fld_of_write {d : RegDesc} (hp : d.fields.Pairwise Fld.Apart) (hfit : ∀ g ∈ d.fields, g.Fits) {f : Fld}
    (hf : f ∈ d.fields) (old w : Word) : f.of (d.write old w) = f.write old w % 2 ^ f.width :=
  fld_of_putFields hp hfit hf 0

theorem fld_write_eq (f : Fld) (old w : Word) : f.write old w =
    match f.acc with
    | .rw => f.fix.apply (f.of w)
    | .ro => f.of old
    | .w1c => f.of old - (f.of old &&& f.of w)
    | .w1s => f.of old ||| f.of w
    | .wo => f.of old := rfl

/-! ### Bits that hardware sets (R14) -/

theorem foldl_or_getLsbD (p : (Nat × Nat) → Bool) (l : List (Nat × Nat)) (w : Word) (x : Nat) :
    (l.foldl (fun w q => if p q then w ||| BitVec.ofNat 32 (2 ^ q.2) else w) w).getLsbD x =
      (w.getLsbD x || l.any fun q => p q && (BitVec.ofNat 32 (2 ^ q.2)).getLsbD x) := by
  induction l generalizing w with
  | nil => simp
  | cons q l ih =>
    rw [List.foldl_cons, ih, List.any_cons]
    cases p q <;> simp [Bool.or_assoc]

/-- A bit noted in this CORE cycle is among those that hardware has set. -/
theorem setHere_noteSet (s : State) (a : Nat) {x : Nat} (hx : x < 32) : ((s.noteSet a x).setHere a).getLsbD x = true := by
  have hmem : (a, x) ∈ (s.noteSet a x).hwSet.bits ∧ (s.noteSet a x).hwSet.stamp = (s.noteSet a x).clk.tb := by
    unfold State.noteSet
    split
    · rename_i ht
      split
      · rename_i hc
        exact ⟨List.contains_iff_mem.mp hc, ht⟩
      · exact ⟨List.mem_cons_self, ht⟩
    · exact ⟨List.mem_cons_self, rfl⟩
  obtain ⟨hm, ht⟩ := hmem
  have hpow : (BitVec.ofNat 32 (2 ^ x)).getLsbD x = true := by
    rw [BitVec.getLsbD_ofNat, Nat.testBit_two_pow_self, decide_eq_true hx, Bool.and_self]
  rw [State.setHere, if_pos ht]
  have := foldl_or_getLsbD (fun q => decide (q.1 = a)) (s.noteSet a x).hwSet.bits 0 x
  simp only [decide_eq_true_eq] at this
  rw [this]
  simp only [Bool.or_eq_true, List.any_eq_true, Bool.and_eq_true, decide_eq_true_eq]
  exact Or.inr ⟨(a, x), hm, rfl, hpow⟩

theorem getLsbD_of_fb {s : State} {a x : Nat} (h : s.fb a x = true) : (s.reg a).getLsbD x = true := by
  have hb : bits (s.reg a) x x = 1 := by simpa [State.fb] using h
  have := bits_testBit (s.reg a) x x 0
  rw [hb] at this
  simpa using this.symm

/-! ### Storing a register (R14, R15) -/

theorem cfgBusy_raises (s : State) (a i : Nat) : (∃ src ev, s.cfgBusy a i = s.raise src ev) ∨ s.cfgBusy a i = s := by
  unfold State.cfgBusy
  split <;> simp

theorem storeReg_locked {s : State} {a i j : Nat} {d : RegDesc} {w : Word}
    (hc : d.changesL (s.reg a) (s.written a d (s.fixWord d i j w)) = true) (hl : s.regLocked a d i j = true) :
    s.storeReg a d i j w = s.cfgBusy a i := by
  rw [State.storeReg]
  simp only [hc, hl, Bool.and_self, if_true]

theorem storeReg_free {s : State} {a i j : Nat} {d : RegDesc} {w : Word}
    (h : d.changesL (s.reg a) (s.written a d (s.fixWord d i j w)) = false ∨ s.regLocked a d i j = false) :
    s.storeReg a d i j w =
      if d.hasS then s.hold a (s.written a d (s.fixWord d i j w)) else s.setReg a (s.written a d (s.fixWord d i j w)) := by
  have hb : (d.changesL (s.reg a) (s.written a d (s.fixWord d i j w)) && s.regLocked a d i j) = false := by
    rcases h with h | h <;> simp [h]
  rw [State.storeReg]
  simp only [hb, Bool.false_eq_true, if_false]

theorem reg_hold_ne (s : State) {a b : Nat} (h : b ≠ a) (v : Word) : (s.hold a v).reg b = s.reg b :=
  reg_setReg_ne _ h v

/-- Settles O16: the fields share no bit, so each holds what its access kind gives; a bit noted in this CORE cycle is
or-ed back; a store is one register write. -/
theorem fieldWritesAndLocks : Obligations.FieldWritesAndLocks := by
  refine ⟨?_, ?_, ?_⟩
  · intro d old w hp hfit f hf
    have hlt := fld_of_lt (hfit f hf) old
    have hlt' := fld_of_lt (hfit f hf) w
    have hgot := fld_of_write hp hfit hf old w
    rw [fld_write_eq] at hgot
    change (f.acc = .ro ∨ f.acc = .wo → f.of (d.write old w) = f.of old) ∧
      (f.acc = .w1s → f.of (d.write old w) = f.of old ||| f.of w) ∧
      (f.acc = .w1c → f.of (d.write old w) + (f.of old &&& f.of w) = f.of old) ∧
      (f.acc = .rw → f.of (d.write old w) = f.fix.apply (f.of w) % 2 ^ f.width)
    refine ⟨fun h => ?_, fun h => ?_, fun h => ?_, fun h => ?_⟩
    · rcases h with h | h <;> rw [hgot, h] <;> exact Nat.mod_eq_of_lt hlt
    · rw [hgot, h]
      exact Nat.mod_eq_of_lt (Nat.or_lt_two_pow hlt hlt')
    · rw [hgot, h]
      have := @Nat.and_le_left (f.of old) (f.of w)
      dsimp only
      rw [Nat.mod_eq_of_lt (by omega)]
      omega
    · rw [hgot, h]
  · intro s a x d w hx
    refine ⟨fun hm => ?_, fun t ht hs => ?_⟩
    · have hb := getLsbD_of_fb (fb_setB_self s a hx true)
      have hh : ((s.setB a x true).setHere a).getLsbD x = true := setHere_noteSet _ a hx
      simp [State.written, hb, hh, hm]
    · have h0 : ({ s.setB a x true with clk := { s.clk with tb := t } } : State).setHere a = 0 :=
        if_neg (by rw [hs]; exact fun e => ht e.symm)
      rw [State.written, h0]
      simp [State.reg]
  · intro s a d i j w
    dsimp only
    refine ⟨fun hc hl => ⟨storeReg_locked hc hl, ?_⟩, fun h => ?_⟩
    · rcases cfgBusy_raises s a i with ⟨src, ev, h⟩ | h <;> rw [h] <;> exact ⟨rfl, rfl⟩
    · rw [storeReg_free h]
      split
      · exact ⟨reg_hold_self _ _ _, fun b hb => reg_hold_ne s hb _⟩
      · exact ⟨reg_setReg_self _ _ _, fun b hb => reg_setReg_ne s hb _⟩

/-! ### A write of a word (R11, R12, R35) -/

theorem regWrite_refused {s : State} {ini a n : Nat} (h : n ≠ 4 ∨ a % 4 ≠ 0 ∨ s.regOn a = false) (w : Word) :
    s.regWrite ini a n w = (.bus, s) := by
  rw [State.regWrite, if_pos]
  rcases h with h | h | h <;> simp [h]

section
variable {s : State} {ini a : Nat} {d : RegDesc} {ix : List Nat} (hal : a % 4 = 0) (hon : s.regOn a = true)
  (hwave : waveKey a = none) (hreg : findReg a = some (d, ix))
include hal hon hwave hreg

theorem regWrite_absent (habs : regAbsent d (ix.getD 0 0) = true) (w : Word) : s.regWrite ini a 4 w = (.ok, s) := by
  rw [State.regWrite, if_neg (by simp [hal, hon]), hwave, hreg]
  exact if_pos habs

/-- Past the registers that have rules of their own, a write acts or stores its fields. -/
theorem regWrite_eq (habs : regAbsent d (ix.getD 0 0) = false) (hplt : d.base = Reg.PLT_CH_CFG 0 → ini < 2)
    (hhst : blockAt a = some .hst → s.hst.perst = false) (h1 : d.base ≠ Reg.HST_CTRL) (h2 : d.base ≠ Reg.HST_MSIX_REARM)
    (h3 : d.base ≠ Reg.HST_DB_SET_LO) (h4 : d.base ≠ Reg.HST_DB_SET_HI) (w : Word) :
    s.regWrite ini a 4 w =
      (.ok, (s.actingWrite ini a d (ix.getD 0 0) (ix.getD 1 0) w).getD
        (s.storeReg a d (ix.getD 0 0) (ix.getD 1 0) w)) := by
  have hplt' : (decide (d.base = Reg.PLT_CH_CFG 0) && decide (2 ≤ ini)) = false := by
    simpa using hplt
  have hhst' : (decide (blockAt a = some .hst) && s.hst.perst) = false := by
    simpa using hhst
  rw [State.regWrite, if_neg (by simp [hal, hon]), hwave, hreg]
  simp only [habs, hplt', hhst', h1, h2, h3, h4, Bool.false_eq_true, if_false]
  cases s.actingWrite ini a d (ix.getD 0 0) (ix.getD 1 0) w <;> rfl

end

/-! ### The Gates (R466, R468) -/

theorem fb_iff (s : State) (a i : Nat) : s.fb a i = true ↔ s.f a i i = 1 := by simp [State.fb, State.f]

theorem gateAllows_iff (s : State) (i a n : Nat) (k : AccKind) :
    s.gateAllows i a n k = true ↔ s.f Reg.SEC_GATE_OPEN i i = 1 ∨ ∃ r < 32,
      s.f (Reg.SEC_GATE_PERM i r) 0 0 = 1 ∧ s.f (Reg.SEC_GATE_PERM i r) k.bit k.bit = 1 ∧
      4096 * s.f (Reg.SEC_GATE_BASE i r) 27 0 ≤ a ∧ a + n ≤ 4096 * (s.f (Reg.SEC_GATE_LIM i r) 27 0 + 1) := by
  simp only [State.gateAllows, State.gateGrants, Bool.or_eq_true, List.any_eq_true, List.mem_range, Bool.and_eq_true,
    fb_iff, decide_eq_true_eq, and_assoc]

theorem reg_setB_ne (s : State) {a r : Nat} (h : r ≠ a) (i : Nat) (b : Bool) : (s.setB a i b).reg r = s.reg r := by
  rw [reg_setB, State.setF, reg_setReg_ne _ h]

@[simp] theorem reg_raise (s : State) (src ev a : Nat) : (s.raise src ev).reg a = s.reg a := rfl

section
variable (s : State) (i a : Nat) (k : AccKind)

/-- The word that a refusal leaves in SEC_GATE_ERR. -/
def gateErrWord : Word :=
  BitVec.ofNat 32 (i + (if k = .store then 8 else 0) + (if k = .fetch then 16 else 0))

theorem gateRefuse_err : (s.gateRefuse i a k).reg Reg.SEC_GATE_ERR = gateErrWord i k := by
  rw [State.gateRefuse, reg_raise, reg_setB_ne _ (by decide), reg_setReg_ne _ (by decide), reg_setReg_ne _ (by decide),
    reg_setReg_self, gateErrWord]

theorem gateRefuse_lo : (s.gateRefuse i a k).reg Reg.SEC_GATE_ADDR_LO = BitVec.ofNat 32 a := by
  rw [State.gateRefuse, reg_raise, reg_setB_ne _ (by decide), reg_setReg_ne _ (by decide), reg_setReg_self]

theorem gateRefuse_hi : (s.gateRefuse i a k).reg Reg.SEC_GATE_ADDR_HI = BitVec.ofNat 32 (a / 2 ^ 32 % 256) := by
  rw [State.gateRefuse, reg_raise, reg_setB_ne _ (by decide), reg_setReg_self]

theorem gateRefuse_irq : (s.gateRefuse i a k).fb Reg.SEC_IRQ_STATUS 0 = true := by
  rw [State.gateRefuse, State.fb, reg_raise]
  exact fb_setB_self _ _ (by decide) true

variable {i}

theorem gateErrWord_toNat (hi : i < 7) :
    (gateErrWord i k).toNat = i + (if k = .store then 8 else 0) + (if k = .fetch then 16 else 0) := by
  rw [gateErrWord, BitVec.toNat_ofNat]
  cases k <;> simp <;> omega

variable {a}

theorem gateRefuse_addr (ha : a < 2 ^ 40) :
    (s.gateRefuse i a k).pair Reg.SEC_GATE_ADDR_LO Reg.SEC_GATE_ADDR_HI = a := by
  rw [State.pair, gateRefuse_lo, gateRefuse_hi, BitVec.toNat_ofNat, BitVec.toNat_ofNat]
  omega

end

/-- Settles O15: an allowed write is the register's, a refused one what the Gates record; the Gates' test is their
regions read field by field. -/
theorem registerWrites : Obligations.RegisterWrites := by
  refine ⟨?_, ?_⟩
  · intro s t ini a size v
    dsimp only
    refine ⟨fun hin hg => ⟨?_, fun hbad => ?_⟩, fun hin hg => ?_, fun hin => ?_⟩
    · intro hsz hal hon d ix hwave hreg
      subst hsz
      refine ⟨fun habs => ?_, fun habs hplt hhst h1 h2 h3 h4 => ⟨fun hact => ?_, fun x hact => ?_⟩⟩
      · change execRegisterWrite t ini a 2 v s = _
        simp only [execRegisterWrite, hin, if_true, busStore_register hin hg]
        rw [show 2 ^ (2 : Fin 4).val = 4 from rfl, regWrite_absent hal hon hwave hreg habs]
      · change execRegisterWrite t ini a 2 v s = _
        simp only [execRegisterWrite, hin, if_true, busStore_register hin hg]
        rw [show 2 ^ (2 : Fin 4).val = 4 from rfl, regWrite_eq hal hon hwave hreg habs hplt hhst h1 h2 h3 h4]
        rw [show 2 ^ (2 : Fin 4).val = 4 from rfl] at hact
        rw [hact]
        rfl
      · change execRegisterWrite t ini a 2 v s = _
        simp only [execRegisterWrite, hin, if_true, busStore_register hin hg]
        rw [show 2 ^ (2 : Fin 4).val = 4 from rfl, regWrite_eq hal hon hwave hreg habs hplt hhst h1 h2 h3 h4]
        rw [show 2 ^ (2 : Fin 4).val = 4 from rfl] at hact
        rw [hact]
        rfl
    · change execRegisterWrite t ini a size v s = _
      have hbad' : 2 ^ size.val ≠ 4 ∨ a.toNat % 4 ≠ 0 ∨ (s.at t).regOn a.toNat = false :=
        hbad.imp_left ((by decide : ∀ x : Fin 4, x ≠ 2 → 2 ^ x.val ≠ 4) size)
      simp only [execRegisterWrite, hin, if_true, busStore_register hin hg, regWrite_refused hbad']
    · change execRegisterWrite t ini a size v s = _
      simp only [execRegisterWrite, hin, if_true, State.busStore, hg, Bool.false_eq_true, if_false]
    · change execRegisterWrite t ini a size v s = _
      simp only [execRegisterWrite, hin, Bool.false_eq_true, if_false]
  · intro s i a n k hi ha
    refine ⟨gateAllows_iff s i a n k, ?_⟩
    dsimp only
    refine ⟨?_, ?_, ?_, gateRefuse_addr s k ha, gateRefuse_irq s i a k, ?_, ?_⟩
    · rw [State.f, gateRefuse_err, bits, gateErrWord_toNat k hi]
      cases k <;> simp <;> omega
    · rw [State.fb, gateRefuse_err, bits, gateErrWord_toNat k hi]
      cases k <;> simp <;> omega
    · rw [State.fb, gateRefuse_err, bits, gateErrWord_toNat k hi]
      cases k <;> simp <;> omega
    · simp [State.gateRefuse, State.raise, State.now]
    · simp [State.gateRefuse]

end Sys2Proof.Machine
end

section
/-! Registers read after the register operations, and fields of a state read through a choice: the rules that the
proofs about the units use. -/

namespace Sys2Proof.Machine

/-! ### Reading a word -/

section
variable (s : State) {a r : Nat}

@[simp] theorem reg_setF_self (a hi lo n : Nat) : (s.setF a hi lo n).reg a = putBits (s.reg a) hi lo n :=
  reg_setReg_self _ _ _

theorem reg_setF_ne (h : r ≠ a) (hi lo n : Nat) : (s.setF a hi lo n).reg r = s.reg r := reg_setReg_ne _ h _

theorem reg_incSat_ne (h : r ≠ a) (hi lo k : Nat) : (s.incSat a hi lo k).reg r = s.reg r := reg_setF_ne s h _ _ _

/-! ### Reading a field -/

@[simp] theorem f_setReg_self (a : Nat) (v : Word) (hi lo : Nat) : (s.setReg a v).f a hi lo = bits v hi lo := by
  rw [State.f, reg_setReg_self]

theorem f_setReg_ne (h : r ≠ a) (v : Word) (hi lo : Nat) : (s.setReg a v).f r hi lo = s.f r hi lo := by
  rw [State.f, reg_setReg_ne s h, State.f]

theorem f_setB_ne (h : r ≠ a) (i : Nat) (b : Bool) (hi lo : Nat) : (s.setB a i b).f r hi lo = s.f r hi lo := by
  rw [State.f, reg_setB_ne s h, State.f]

theorem f_setB_field {i hi lo : Nat} (h : i < 32) (hd : hi < i ∨ i < lo) (b : Bool) :
    (s.setB a i b).f a hi lo = s.f a hi lo := by
  rw [State.f, reg_setB]
  exact f_setF_field s a (le_refl i) h hd _

theorem f_incSat_ne (h : r ≠ a) (hi lo k hi' lo' : Nat) : (s.incSat a hi lo k).f r hi' lo' = s.f r hi' lo' :=
  f_setF_ne s h _ _ _ _ _

theorem satAdd_lt (w n k : Nat) : satAdd w n k < 2 ^ w := by
  rw [satAdd]
  split
  · assumption
  · exact Nat.sub_lt (Nat.two_pow_pos w) Nat.one_pos

/-- Counting by 1 stops at the largest value. -/
theorem satAdd_one {w n : Nat} (h : n < 2 ^ w) : satAdd w n 1 = min (2 ^ w - 1) (n + 1) := by
  rw [satAdd]
  split <;> omega

theorem ofNat_double_add_one (v : Word) : BitVec.ofNat 32 (v.toNat * 2 + 1) = v * 2 + 1 := by
  apply BitVec.eq_of_toNat_eq
  simp [BitVec.toNat_add, BitVec.toNat_mul]

theorem f_incSat_self (a : Nat) {hi lo : Nat} (h : lo ≤ hi) (h' : hi < 32) (k : Nat) :
    (s.incSat a hi lo k).f a hi lo = satAdd (hi + 1 - lo) (s.f a hi lo) k := by
  rw [State.incSat, f_setF_self s a h h', Nat.mod_eq_of_lt (satAdd_lt _ _ _)]

theorem f_incSat_field {hi lo hi' lo' : Nat} (h : lo ≤ hi) (h' : hi < 32) (hd : hi' < lo ∨ hi < lo') (k : Nat) :
    (s.incSat a hi lo k).f a hi' lo' = s.f a hi' lo' := f_setF_field s a h h' hd _

@[simp] theorem f_raise (src ev a hi lo : Nat) : (s.raise src ev).f a hi lo = s.f a hi lo := rfl

theorem f_full (a : Nat) : s.f a 31 0 = (s.reg a).toNat := bits_full _

theorem f_lt (a hi lo : Nat) : s.f a hi lo < 2 ^ (hi + 1 - lo) := bits_lt _ _ _

/-! ### Reading a bit -/

theorem fb_setReg_ne (h : r ≠ a) (v : Word) (i : Nat) : (s.setReg a v).fb r i = s.fb r i := by
  rw [State.fb, reg_setReg_ne s h, State.fb]

theorem fb_setF_ne (h : r ≠ a) (hi lo n i : Nat) : (s.setF a hi lo n).fb r i = s.fb r i := fb_setReg_ne s h _ _

theorem fb_setF_field {hi lo i : Nat} (h : lo ≤ hi) (h' : hi < 32) (hd : i < lo ∨ hi < i) (n : Nat) :
    (s.setF a hi lo n).fb a i = s.fb a i := by
  have := f_setF_field s a h h' (hi' := i) (lo' := i) hd n
  rw [State.f, State.f] at this
  rw [State.fb, this, State.fb]

theorem fb_setB_ne (h : r ≠ a) (i : Nat) (b : Bool) (j : Nat) : (s.setB a i b).fb r j = s.fb r j := by
  rw [State.fb, reg_setB_ne s h, State.fb]

theorem fb_setB_bit {i j : Nat} (h : i < 32) (hd : j ≠ i) (b : Bool) : (s.setB a i b).fb a j = s.fb a j := by
  have := f_setB_field s (a := a) (hi := j) (lo := j) h (by omega) b
  rw [State.f, State.f] at this
  rw [State.fb, this, State.fb]

theorem fb_incSat_ne (h : r ≠ a) (hi lo k i : Nat) : (s.incSat a hi lo k).fb r i = s.fb r i := fb_setF_ne s h _ _ _ _

@[simp] theorem fb_raise (src ev a i : Nat) : (s.raise src ev).fb a i = s.fb a i := rfl

end

/-! ### A field of a state that a condition chooses -/

section
variable (p : Prop) [Decidable p] (s u : State)

theorem reg_ite (a : Nat) : (if p then s else u).reg a = if p then s.reg a else u.reg a := apply_ite (·.reg a) p s u
theorem f_ite (a hi lo : Nat) : (if p then s else u).f a hi lo = if p then s.f a hi lo else u.f a hi lo :=
  apply_ite (·.f a hi lo) p s u
theorem fb_ite (a i : Nat) : (if p then s else u).fb a i = if p then s.fb a i else u.fb a i :=
  apply_ite (·.fb a i) p s u
theorem slot_ite (k : Nat) : (if p then s else u).slot k = if p then s.slot k else u.slot k :=
  apply_ite (·.slot k) p s u
theorem mem_ite : (if p then s else u).mem = if p then s.mem else u.mem := apply_ite State.mem p s u
theorem regs_ite : (if p then s else u).regs = if p then s.regs else u.regs := apply_ite State.regs p s u
theorem points_ite : (if p then s else u).points = if p then s.points else u.points := apply_ite State.points p s u
theorem sbx_ite : (if p then s else u).sbx = if p then s.sbx else u.sbx := apply_ite State.sbx p s u
theorem tt_ite : (if p then s else u).tt = if p then s.tt else u.tt := apply_ite State.tt p s u
theorem pwr_ite : (if p then s else u).pwr = if p then s.pwr else u.pwr := apply_ite State.pwr p s u
theorem clk_ite : (if p then s else u).clk = if p then s.clk else u.clk := apply_ite State.clk p s u

end

/-! ### Slots after the register operations -/

section
variable (s : State) (k : Nat)

@[simp] theorem slot_setReg (a : Nat) (v : Word) : (s.setReg a v).slot k = s.slot k := rfl
@[simp] theorem slot_setF (a hi lo n : Nat) : (s.setF a hi lo n).slot k = s.slot k := rfl
@[simp] theorem slot_raise (src ev : Nat) : (s.raise src ev).slot k = s.slot k := rfl
@[simp] theorem slot_setB (a i : Nat) (b : Bool) : (s.setB a i b).slot k = s.slot k := by
  rw [State.slot, setB_sq, State.slot]
@[simp] theorem slot_incSat (a hi lo n : Nat) : (s.incSat a hi lo n).slot k = s.slot k := rfl

end

end Sys2Proof.Machine
end

section
/-! Spans, releases and dropped periods of a task slot (R130-R133, R144, R149). -/

namespace Sys2Proof.Machine

/-! ### The end of an `Instance` -/

section
variable (s : State) (key : Nat)

@[simp] theorem endInstance_regs : (s.endInstance key).regs = s.regs := by
  unfold State.endInstance; dsimp only; split <;> rfl
@[simp] theorem endInstance_mem : (s.endInstance key).mem = s.mem := by
  unfold State.endInstance; dsimp only; split <;> rfl
@[simp] theorem endInstance_points : (s.endInstance key).points = s.points := by
  unfold State.endInstance; dsimp only; split <;> rfl
@[simp] theorem endInstance_clk : (s.endInstance key).clk = s.clk := by
  unfold State.endInstance; dsimp only; split <;> rfl

@[simp] theorem endInstance_reg (a : Nat) : (s.endInstance key).reg a = s.reg a := by
  rw [State.reg, endInstance_regs, State.reg]
@[simp] theorem endInstance_f (a hi lo : Nat) : (s.endInstance key).f a hi lo = s.f a hi lo := by
  rw [State.f, endInstance_reg, State.f]
@[simp] theorem endInstance_fb (a i : Nat) : (s.endInstance key).fb a i = s.fb a i := by
  rw [State.fb, endInstance_reg, State.fb]

theorem slotEnd_eq (x : Slot) :
    x.endInstance = { x with inst := none, use := if x.stopping then .off else x.use, stopping := false } := by
  unfold Slot.endInstance
  dsimp only
  cases x with
  | mk _ _ _ _ _ _ _ _ _ _ stopping _ _ => cases stopping <;> rfl

variable {s key}

theorem endInstance_slot_notOwed (h : (s.slot key).frameOwed = false) :
    (s.endInstance key).slot key = (s.slot key).endInstance := by
  have h' : ((s.modSlot key Slot.endInstance).slot key).frameOwed = false := by
    rw [slot_modSlot_self, slotEnd_eq]; exact h
  unfold State.endInstance
  dsimp only
  rw [h']
  exact slot_modSlot_self _ _ _

theorem endInstance_slot_owed {p : Nat} (h : (s.slot key).frameOwed = true) (hp : s.physOf (key / 8) = some p) :
    (s.endInstance key).slot key =
      { (s.slot key).endInstance with bank := s.readFrame key p, shadow := s.readFrame key p, frameOwed := false } := by
  have h' : ((s.modSlot key Slot.endInstance).slot key).frameOwed = true := by
    rw [slot_modSlot_self, slotEnd_eq]; exact h
  have hp' : (s.modSlot key Slot.endInstance).physOf (key / 8) = some p := hp
  unfold State.endInstance
  dsimp only
  rw [h', hp']
  dsimp only
  rw [slot_modSlot_self, slot_modSlot_self]
  rfl

theorem endInstance_bank_owed {p : Nat} (h : (s.slot key).frameOwed = true) (hp : s.physOf (key / 8) = some p) :
    ((s.endInstance key).slot key).bank = s.readFrame key p := by
  rw [endInstance_slot_owed h hp]

/-- An outcome leaves no `Instance`, and a use that does not become another. -/
theorem endInstance_slot_idle (s : State) (key : Nat) : ((s.endInstance key).slot key).inst = none ∧
    ((s.slot key).use = .standing → ((s.endInstance key).slot key).use ≠ .timetable) := by
  have hx : ∀ x : Slot, x.endInstance.inst = none ∧ (x.use = .standing → x.endInstance.use ≠ .timetable) := by
    intro x
    rw [slotEnd_eq]
    refine ⟨rfl, fun h => ?_⟩
    dsimp only
    rw [h]
    cases x.stopping <;> decide
  unfold State.endInstance
  dsimp only
  split
  · simp only [slot_modSlot_self]
    exact hx _
  · rw [slot_modSlot_self]
    exact hx _

end

/-! ### A dropped period (R144) -/

/-- What a drop records on a standing slot, which forms no cause of an outcome. -/
theorem dropPeriod_standing (s : State) (key cause code pc addr : Nat) (hc : cause < 8)
      (hs : (s.slot key).use = .standing) :
      let u := s.dropPeriod key cause (code, pc, addr)
      let st := atKey Reg.SQ_SLOT_STATE key
      (u.slot key).inst = none ∧ ((s.slot key).frameOwed = false → (u.slot key).bank = (s.slot key).shadow) ∧
      u.reg (atKey Reg.SQ_SLOT_HIST key) = s.reg (atKey Reg.SQ_SLOT_HIST key) * 2 + 1 ∧
      u.f (atKey Reg.SQ_SLOT_DROPS key) 31 0 = min (2 ^ 32 - 1) (s.f (atKey Reg.SQ_SLOT_DROPS key) 31 0 + 1) ∧
      u.f st 13 8 = min 32 (s.f st 13 8 + 1) ∧ u.f st 18 16 = cause ∧ u.fb Reg.SQ_IRQ_STATUS 0 = true ∧
      (cause = dEXCEPTION → u.reg (atKey Reg.SQ_SLOT_EXC key) = BitVec.ofNat 32 (code + 2 ^ 16 * pc) ∧
        u.reg (atKey Reg.SQ_SLOT_EXC_ADDR key) = BitVec.ofNat 32 addr ∧ u.fb Reg.SQ_IRQ_STATUS 1 = true) ∧
      u.mem = s.mem ∧ u.points = s.points := by
  dsimp only
  have hidle := endInstance_slot_idle (s.modSlot key fun x => { x with bank := x.shadow }) key
  simp only [slot_modSlot_self] at hidle
  obtain ⟨hinst, huse⟩ := hidle
  have huse := huse hs
  unfold State.dropPeriod State.shiftHist
  dsimp only
  rw [if_neg (by simp [slot_ite, huse])]
  simp only [atKey, Reg.SQ_SLOT_HIST, Reg.SQ_SLOT_STATE, Reg.SQ_SLOT_DROPS, Reg.SQ_SLOT_COUNTS, Reg.SQ_SLOT_EXC, Reg.SQ_SLOT_EXC_ADDR, Reg.SQ_IRQ_STATUS, Reg.SQ_SLOT_CFG]
  refine ⟨?_, fun hf => ?_, ?_, ?_, ?_, ?_, ?_, ?_, ?_, ?_⟩
  · simp [slot_ite, hinst]
  · simp [slot_ite]
    rw [endInstance_slot_notOwed (by simpa using hf), slotEnd_eq]
    simp
  · simp (disch := omega) [reg_ite, reg_setB_ne, reg_setF_ne, reg_setReg_ne, reg_incSat_ne]
    exact ofNat_double_add_one _
  · simp (disch := omega) [f_ite, f_setB_ne, f_setF_ne, f_setReg_ne, f_incSat_ne, f_incSat_self]
    exact satAdd_one (f_lt _ _ 31 0)
  · simp (disch := omega) [f_ite, f_setB_ne, f_setF_self, f_setF_field, f_setReg_ne, f_incSat_ne]
  · simp (disch := omega) [f_ite, f_setB_ne, f_setF_self, f_setF_field, f_setReg_ne]
    exact hc
  · simp (disch := omega) [fb_ite, fb_setB_self]
  · intro hE
    subst hE
    simp (disch := omega) [fb_ite, reg_ite, fb_setB_self, fb_setB_bit,reg_setB_ne, reg_setF_ne, reg_setReg_ne, fb_setF_ne,fb_setReg_ne]
  · simp [mem_ite]
  · simp [points_ite]
/-! ### The frame of a span (R132, R133) -/

theorem get_putRange (val : Nat → Word) (m : Nat) (b : Tab Word) {n : Nat} (h : n < m) :
    Tab.get 0 ((List.range m).foldl (fun b n => Tab.put 0 b (n + 1) (val n)) b) (n + 1) = val n := by
  induction m with
  | zero => exact absurd h (Nat.not_lt_zero _)
  | succ m ih =>
    rw [List.range_succ, List.foldl_append, List.foldl_cons, List.foldl_nil]
    by_cases hn : n = m
    · subst hn
      exact Tab.get_put_self _ _ _ _
    · rw [Tab.get_put_ne _ (by omega), ih (by omega)]

/-- A frame read has word n of the frame at number n + 1. -/
theorem readFrame_modSlot (s : State) (key : Nat) (g : Slot → Slot) (k p : Nat) :
    (s.modSlot key g).readFrame k p = s.readFrame k p := rfl

theorem readFrame_get (s : State) (key p : Nat) {n : Nat} (h : n < 32) : Tab.get 0 (s.readFrame key p) (n + 1) =
    BitVec.ofNat 32 (s.memLE (tcmBase p + s.f (atKey Reg.SQ_SLOT_FRAME key) 17 0 + 4 * n) 4) := by
  rw [State.readFrame]
  exact get_putRange (fun n => BitVec.ofNat 32 (s.memLE (tcmBase p + s.f (atKey Reg.SQ_SLOT_FRAME key) 17 0 + 4 * n) 4))
    32 [] h

section
variable (s : State) (key : Nat) (r0 : Tick)

theorem loadFrame_regs_mem : (s.loadFrame key r0).regs = s.regs ∧ (s.loadFrame key r0).mem = s.mem := by
  unfold State.loadFrame
  split
  · split <;> exact ⟨rfl, rfl⟩
  · exact ⟨rfl, rfl⟩

/-- The check of R132 leaves registers and memory. -/
theorem ensureLoaded_regs_mem : (s.ensureLoaded key r0).regs = s.regs ∧ (s.ensureLoaded key r0).mem = s.mem := by
  unfold State.ensureLoaded
  split
  · split
    · exact ⟨rfl, rfl⟩
    · exact loadFrame_regs_mem _ _ _
  · exact loadFrame_regs_mem _ _ _

variable {s key r0}

theorem ensureLoaded_done {b : Bool} (h : (s.slot key).loaded = some (r0, b)) : s.ensureLoaded key r0 = s := by
  rw [State.ensureLoaded, h]
  exact if_pos rfl

theorem ensureLoaded_new (h : ∀ b, (s.slot key).loaded ≠ some (r0, b)) :
    s.ensureLoaded key r0 = s.loadFrame key r0 := by
  rw [State.ensureLoaded]
  split
  · rename_i t b hl
    exact if_neg fun e => h b (by rw [hl, e])
  · rfl

theorem loadFrame_ready {p : Nat} (hp : s.physOf (key / 8) = some p) (he : s.fb (atKey Reg.SQ_SLOT_ENTRY key) 16 = true)
    (hf : s.fb (atKey Reg.SQ_SLOT_FRAME key) 18 = true) : s.loadFrame key r0 = s.modSlot key fun x =>
      if x.inst.isSome then { x with frameOwed := true, loaded := some (r0, true) }
      else { x with bank := s.readFrame key p, shadow := s.readFrame key p, loaded := some (r0, true) } := by
  rw [State.loadFrame, hp]
  dsimp only
  rw [he, hf]
  rfl

end

/-! ### Parameters of a claim (R149) -/

section
variable (s : State) (key : Nat) (c : Claim)

theorem loadParams_reg : (s.loadParams key c).reg (atKey Reg.SQ_SLOT_PERIOD key) = BitVec.ofNat 32 c.period ∧
    (s.loadParams key c).reg (atKey Reg.SQ_SLOT_DEADLINE key) = BitVec.ofNat 32 c.deadline ∧
    (s.loadParams key c).reg (atKey Reg.SQ_SLOT_WCET key) = BitVec.ofNat 32 c.wcet ∧
    (s.loadParams key c).reg (atKey Reg.SQ_SLOT_HIST key) = s.reg (atKey Reg.SQ_SLOT_HIST key) ∧
    (s.loadParams key c).f (atKey Reg.SQ_SLOT_STATE key) 13 8 = s.f (atKey Reg.SQ_SLOT_STATE key) 13 8 := by
  simp only [State.loadParams, atKey, Reg.SQ_SLOT_PERIOD, Reg.SQ_SLOT_DEADLINE, Reg.SQ_SLOT_WCET, Reg.SQ_SLOT_DROPCFG,
    Reg.SQ_SLOT_HIST, Reg.SQ_SLOT_STATE]
  simp (disch := omega) [reg_setReg_ne, f_setReg_ne]

theorem slot_loadParams (k : Nat) : (s.loadParams key c).slot k = s.slot k := by
  simp only [State.loadParams, slot_setReg]

theorem loadParams_mem : (s.loadParams key c).mem = s.mem := by
  simp only [State.loadParams, setReg_mem]

omit c in
theorem slot_beginSpan (use : SlotUse) (r0 : Tick) (stop : Option Tick) :
    (s.beginSpan key use r0 stop).slot key = { s.slot key with
      use := use, r0 := r0, spanEnd := stop, started := 0, stopping := false, notReadyRaised := false } :=
  slot_modSlot_self s key _

omit c in
theorem clearHist_reg : (s.clearHist key).reg (atKey Reg.SQ_SLOT_HIST key) = 0 ∧
    (s.clearHist key).f (atKey Reg.SQ_SLOT_STATE key) 13 8 = 0 := by
  simp only [State.clearHist, atKey, Reg.SQ_SLOT_HIST, Reg.SQ_SLOT_STATE]
  simp (disch := omega) [reg_setF_ne, f_setF_self]

end

/-! ### The commands, over the state of their step -/

section
variable (s : State) (t : Tick) (l : Fin 20) (slot : Fin 8)

theorem exec_frameLoad : exec (.frameLoad t l slot) s =
    if ((s.atStep t 6).slot (8 * l.val + slot.val)).use = .standing then
      .next ((s.atStep t 6).ensureLoaded (8 * l.val + slot.val) ((s.atStep t 6).slot (8 * l.val + slot.val)).r0)
    else match (s.atStep t 6).nextSpan (8 * l.val + slot.val) with
      | some c => if coreEdge c.start ≤ (s.atStep t 6).clk.tb + 512 then
          .next ((s.atStep t 6).ensureLoaded (8 * l.val + slot.val) (coreEdge c.start)) else .next (s.atStep t 6)
      | none => .next (s.atStep t 6) := rfl

theorem exec_spanStart {c : SqClaim} (huse : ((s.atStep t 6).slot (8 * l.val + slot.val)).use = .off)
    (hc : (s.atStep t 6).nextSpan (8 * l.val + slot.val) = some c) (ht : c.start ≤ (s.atStep t 6).clk.tb) :
    exec (.spanStart t l slot) s =
      .next (((((s.atStep t 6).ensureLoaded (8 * l.val + slot.val) (coreEdge c.start)).clearHist
        (8 * l.val + slot.val)).beginSpan (8 * l.val + slot.val) .timetable (coreEdge c.start) (some c.stop)).loadParams
          (8 * l.val + slot.val) c.c) := by
  change execSpanStart t l slot s = _
  rw [execSpanStart]
  simp only [huse, true_or, if_true, hc, if_neg (Nat.not_lt.mpr ht)]

theorem exec_spanEnd (h : (s.atStep t 6).spanOver (8 * l.val + slot.val) = true) :
    exec (.spanEnd t l slot) s =
      .next { (s.atStep t 6).modSlot (8 * l.val + slot.val) fun x => { x with use := .off, spanEnd := none } with
        sq := { ((s.atStep t 6).modSlot (8 * l.val + slot.val) fun x => { x with use := .off, spanEnd := none }).sq with
          claims := (s.atStep t 6).sq.claims.filter fun c =>
            !(c.c.core == l.val && c.c.slot == slot.val && c.stop ≤ (s.atStep t 6).clk.tb) } } := by
  change execSpanEnd t l slot s = _
  rw [execSpanEnd]
  simp only [h, if_true]
  rfl

/-- A slot whose next period begins: it may run, holds no `Instance`, and the period lies in the span (R131, R132). -/
def State.PeriodBegins (u : State) (key : Nat) : Prop :=
  (u.slot key).use ≠ .off ∧ (u.slot key).inst = none ∧ (u.slot key).stopping = false ∧ u.nextRelease key ≤ u.clk.tb ∧
    ∀ e, u.spanLimit key = some e → u.nextDeadline key ≤ e

theorem exec_release (h : (s.atStep t 7).PeriodBegins (8 * l.val + slot.val)) {b : Bool}
    (hl : ((s.atStep t 7).slot (8 * l.val + slot.val)).loaded =
      some (((s.atStep t 7).slot (8 * l.val + slot.val)).r0, b)) :
    exec (.release t l slot) s =
      if b then .next (((s.atStep t 7).modSlot (8 * l.val + slot.val) fun x => { x with started := x.started + 1 }).modSlot
        (8 * l.val + slot.val) fun y => { y with
          inst := some {
            k := ((s.atStep t 7).slot (8 * l.val + slot.val)).started
            release := (s.atStep t 7).nextRelease (8 * l.val + slot.val)
            deadline := (s.atStep t 7).nextDeadline (8 * l.val + slot.val)
            pc := (s.atStep t 7).f (atKey Reg.SQ_SLOT_ENTRY (8 * l.val + slot.val)) 15 0 } })
      else .next ((if ((s.atStep t 7).slot (8 * l.val + slot.val)).notReadyRaised then
          (s.atStep t 7).modSlot (8 * l.val + slot.val) fun x => { x with started := x.started + 1 }
        else (((s.atStep t 7).modSlot (8 * l.val + slot.val) fun x => { x with started := x.started + 1 }).modSlot
          (8 * l.val + slot.val) fun x => { x with notReadyRaised := true }).raise srcSQ 3).dropPeriod
            (8 * l.val + slot.val) dNOT_READY (0, 0, 0)) := by
  obtain ⟨huse, hinst, hstop, hr, hd⟩ := h
  change execRelease t l slot s = _
  rw [execRelease]
  generalize s.atStep t 7 = u at *
  simp only [bne_iff_ne.mpr huse, hinst, hstop, decide_eq_true hr, Option.isNone_none, Bool.not_false, Bool.and_self,
    Bool.true_and, ensureLoaded_done hl]
  cases he : u.spanLimit (8 * l.val + slot.val) with
  | none => cases b <;> simp [hl]
  | some e => cases b <;> simp [hl, hd e he]

end

/-- A slot that releases an `Instance`. -/
theorem releaseInstance_facts (u : State) (key : Nat) (i : Instance) :
    (((u.modSlot key fun x => { x with started := x.started + 1 }).modSlot key fun y => { y with inst := some i }).regs =
      u.regs) ∧
    (((u.modSlot key fun x => { x with started := x.started + 1 }).modSlot key fun y => { y with inst := some i }).mem =
      u.mem) ∧
    (((u.modSlot key fun x => { x with started := x.started + 1 }).modSlot key fun y =>
      { y with inst := some i }).slot key).bank = (u.slot key).bank ∧
    (((u.modSlot key fun x => { x with started := x.started + 1 }).modSlot key fun y =>
      { y with inst := some i }).slot key).started = (u.slot key).started + 1 ∧
    (((u.modSlot key fun x => { x with started := x.started + 1 }).modSlot key fun y =>
      { y with inst := some i }).slot key).inst = some i := by
  simp only [slot_modSlot_self]
  exact ⟨rfl, rfl, trivial, trivial, trivial⟩

/-- Settles O18: each command over the state of its step; a drop of a standing slot field by field. -/
theorem slotSpansAndDrops : Obligations.SlotSpansAndDrops := by
  refine ⟨?_, fun s key cause code pc addr _ hc _ _ hs => dropPeriod_standing s key cause code pc addr hc hs, ?_⟩
  · intro s t l slot
    dsimp only
    refine ⟨?_, ?_, ?_, ?_⟩
    · intro c p huse hc ht hnew hp he hf
      rw [exec_frameLoad]
      generalize s.atStep t 6 = u at *
      rw [if_neg huse, hc]
      dsimp only
      rw [if_pos ht, ensureLoaded_new hnew, loadFrame_ready hp he hf]
      refine ⟨_, rfl, rfl, rfl, ?_, fun h => ?_, fun h => ?_⟩
      · rw [slot_modSlot_self]
        split <;> rfl
      · intro n hn
        rw [slot_modSlot_self, h]
        exact readFrame_get _ _ _ hn
      · refine ⟨?_, ?_, ?_⟩
        · rw [slot_modSlot_self, if_pos h]
        · rw [slot_modSlot_self, if_pos h]
        · intro n hn
          rw [endInstance_bank_owed (p := p), readFrame_modSlot]
          · exact readFrame_get u _ _ hn
          · rw [slot_modSlot_self, if_pos h]
          · exact hp
    · intro c huse hc ht
      rw [exec_spanStart s t l slot huse hc ht]
      generalize s.atStep t 6 = u at *
      obtain ⟨-, hmem⟩ := ensureLoaded_regs_mem u (8 * l.val + slot.val) (coreEdge c.start)
      generalize u.ensureLoaded (8 * l.val + slot.val) (coreEdge c.start) = u' at *
      obtain ⟨hhist, hst⟩ := clearHist_reg u' (8 * l.val + slot.val)
      obtain ⟨hper, hdl, hw, hh, hp⟩ := loadParams_reg ((u'.clearHist (8 * l.val + slot.val)).beginSpan
        (8 * l.val + slot.val) .timetable (coreEdge c.start) (some c.stop)) (8 * l.val + slot.val) c.c
      have hmem' := (loadParams_mem ((u'.clearHist (8 * l.val + slot.val)).beginSpan
        (8 * l.val + slot.val) .timetable (coreEdge c.start) (some c.stop)) (8 * l.val + slot.val) c.c).trans hmem
      refine ⟨_, rfl, ?_, ?_, ?_, ?_, hper, hdl, hw, hh.trans hhist, hp.trans hst, hmem'⟩ <;>
        rw [slot_loadParams, slot_beginSpan]
    · intro h
      rw [exec_spanEnd s t l slot h]
      generalize s.atStep t 6 = u at *
      refine ⟨_, rfl, congrArg Slot.use (slot_modSlot_self u (8 * l.val + slot.val) fun x =>
        { x with use := .off, spanEnd := none }), rfl, rfl, fun c => ?_⟩
      simp only [List.mem_filter, Bool.not_eq_true', Bool.and_eq_false_iff, beq_eq_false_iff_ne, decide_eq_false_iff_not]
      tauto
    · intro huse hinst hstop hr hd
      have hb : (s.atStep t 7).PeriodBegins (8 * l.val + slot.val) := by
        unfold State.PeriodBegins State.nextDeadline State.nextRelease
        exact ⟨huse, hinst, hstop, hr, hd⟩
      refine ⟨fun hl => ?_, fun hl hn => ?_⟩
      · rw [exec_release s t l slot hb hl]
        exact ⟨_, if_pos rfl, releaseInstance_facts _ _ _⟩
      · rw [exec_release s t l slot hb hl]
        simp only [hn, Bool.false_eq_true, if_false, if_true]
  · intro s t l slot i
    dsimp only
    intro hi
    change execDeadlineDrop t l slot s = _
    rw [execDeadlineDrop]
    simp only [hi]
    split <;> rfl

end Sys2Proof.Machine
end

section
/-! Completion, the commit buffer, armed writes and standing use (R39, R134, R140-R144). -/

namespace Sys2Proof.Machine

/-! ### Folds that leave a state -/

theorem foldl_keep {α β : Type} {f : α → β → α} {a : α} {l : List β} (h : ∀ b ∈ l, f a b = a) : l.foldl f a = a := by
  induction l with
  | nil => rfl
  | cons b l ih =>
    rw [List.foldl_cons, h b List.mem_cons_self]
    exact ih fun c hc => h c (List.mem_cons_of_mem _ hc)

/-- What each step of a fold keeps, the fold keeps. -/
theorem foldl_invariant {α β : Type} {f : α → β → α} {P : α → Prop} {l : List β} (h : ∀ a, ∀ b ∈ l, P a → P (f a b))
    {a : α} (ha : P a) : P (l.foldl f a) := by
  induction l generalizing a with
  | nil => exact ha
  | cons b l ih => exact ih (fun a c hc => h a c (List.mem_cons_of_mem _ hc)) (h a b List.mem_cons_self ha)

/-- What one step of a fold brings about and every step keeps holds after it. -/
theorem foldl_establish {α β : Type} {f : α → β → α} {P : α → Prop} {l : List β} (h : ∀ a, ∀ b ∈ l, P a → P (f a b))
    {x : β} (hx : x ∈ l) (he : ∀ a, P (f a x)) (a : α) : P (l.foldl f a) := by
  obtain ⟨l₁, l₂, rfl⟩ := List.append_of_mem hx
  rw [List.foldl_append, List.foldl_cons]
  exact foldl_invariant (fun a b hb => h a b (by simp [hb])) (he _)

theorem get_map {α β : Type} (d : α) (g : α → β) (t : Tab α) (i : Nat) :
    Tab.get (g d) (t.map fun q => (q.1, g q.2)) i = g (Tab.get d t i) := by
  induction t with
  | nil => rfl
  | cons q t ih =>
    obtain ⟨k, v⟩ := q
    by_cases h : k = i
    · simp [Tab.get, h]
    · simpa [Tab.get, h] using ih

/-- An entry that is not the default is listed. -/
theorem mem_of_get_ne {α : Type} {d : α} {t : Tab α} {i : Nat} (h : Tab.get d t i ≠ d) : (i, Tab.get d t i) ∈ t := by
  induction t with
  | nil => exact absurd rfl h
  | cons q t ih =>
    obtain ⟨k, v⟩ := q
    by_cases hk : k = i
    · simp [Tab.get, hk]
    · rw [Tab.get, if_neg hk] at h ⊢
      exact List.mem_cons_of_mem _ (ih h)

/-! ### Completion (R140, R144) -/

theorem endInstance_leaving (s : State) (key : Nat) : ((s.endInstance key).slot key).leaving = (s.slot key).leaving := by
  have hx : ∀ x : Slot, x.endInstance.leaving = x.leaving := fun x => by rw [slotEnd_eq]
  unfold State.endInstance
  dsimp only
  split
  · simp only [slot_modSlot_self]
    exact hx _
  · rw [slot_modSlot_self]
    exact hx _

/-- Staged writes to the Stacks and registers take effect later, not at the commit. -/
theorem commit_bus (s : State) (key p : Nat) (xs : List (Nat × Nat × Nat)) :
    (xs.map fun x => Staged.bus x.1 x.2.1 x.2.2).foldl (fun s e => s.commitStaged key e) s = s ∧
    (xs.map fun x => Staged.bus x.1 x.2.1 x.2.2).foldl (fun s e => s.commitArm key p e) s = s := by
  refine ⟨foldl_keep fun e he => ?_, foldl_keep fun e he => ?_⟩ <;>
  · obtain ⟨x, -, rfl⟩ := List.mem_map.mp he
    rfl

theorem leaving_bus (p : Nat) (t : Tick) (xs : List (Nat × Nat × Nat)) :
    (xs.map fun x => Staged.bus x.1 x.2.1 x.2.2).filterMap (Staged.leaving p t) =
      xs.map fun x => { addr := x.1, size := x.2.1, value := x.2.2, core := p, notBefore := t + 24 } := by
  rw [List.filterMap_map]
  induction xs with
  | nil => rfl
  | cons x xs ih => simpa [Staged.leaving] using ih

theorem ofNat_double (v : Word) : BitVec.ofNat 32 (v.toNat * 2 + 0) = v * 2 := by
  apply BitVec.eq_of_toNat_eq
  simp [BitVec.toNat_mul]

/-- What the completion of an `Instance` with writes to the Stacks and registers does. -/
theorem completeInstance_bus {s : State} {key p : Nat} {i : Instance} {xs : List (Nat × Nat × Nat)}
    (hi : i.staged = xs.map fun x => Staged.bus x.1 x.2.1 x.2.2) (hu : i.used < 2 ^ 32) :
    ((s.completeInstance key p i).slot key).inst = none ∧
    ((s.completeInstance key p i).slot key).leaving = (s.slot key).leaving ++
      xs.map (fun x => { addr := x.1, size := x.2.1, value := x.2.2, core := p, notBefore := s.clk.tb + 24 }) ∧
    (s.completeInstance key p i).reg (atKey Reg.SQ_SLOT_HIST key) = s.reg (atKey Reg.SQ_SLOT_HIST key) * 2 ∧
    (s.completeInstance key p i).f (atKey Reg.SQ_SLOT_MAXUSE key) 31 0 =
      max (s.f (atKey Reg.SQ_SLOT_MAXUSE key) 31 0) i.used ∧
    (s.completeInstance key p i).mem = s.mem ∧ (s.completeInstance key p i).points = s.points := by
  obtain ⟨h1, h2⟩ := commit_bus s key p xs
  unfold State.completeInstance State.shiftHist
  rw [hi]
  dsimp only
  rw [h1, h2, leaving_bus]
  obtain ⟨hidle, -⟩ := endInstance_slot_idle (s.modSlot key fun x => { x with leaving := x.leaving ++
    (xs.map fun x => { addr := x.1, size := x.2.1, value := x.2.2, core := p, notBefore := s.clk.tb + 24 }) }) key
  simp only [atKey, Reg.SQ_SLOT_HIST, Reg.SQ_SLOT_STATE, Reg.SQ_SLOT_MAXUSE]
  refine ⟨?_, ?_, ?_, ?_, ?_, ?_⟩
  · simpa [slot_ite] using hidle
  · simp [slot_ite, endInstance_leaving]
  · simp (disch := omega) [reg_ite, reg_setF_ne]
    exact ofNat_double _
  · simp (disch := omega) [f_ite, f_setF_ne, f_setReg_ne, f_setF_self]
    split <;> omega
  · simp [mem_ite]
  · simp [points_ite]

/-! ### Standing slots (R39) -/

theorem standingSlot_times (p : Nat) (t : Tick) : t ≤ standingSlot p t ∧ standingSlot p t < t + 48 ∧
    standingSlot p t % 16 = 0 ∧ standingSlot p (standingSlot p t + 1) = standingSlot p t + 48 := by
  have h : ∀ (r t : Nat), t ≤ ((t + 15) / 16 + (r + 3 - (t + 15) / 16 % 3) % 3) * 16 ∧
      ((t + 15) / 16 + (r + 3 - (t + 15) / 16 % 3) % 3) * 16 < t + 48 ∧
      ∀ u, u = ((t + 15) / 16 + (r + 3 - (t + 15) / 16 % 3) % 3) * 16 → u % 16 = 0 ∧
        ((u + 1 + 15) / 16 + (r + 3 - (u + 1 + 15) / 16 % 3) % 3) * 16 = u + 48 := by
    intro r t
    refine ⟨by omega, by omega, fun u hu => by omega⟩
  obtain ⟨h1, h2, h3⟩ := h (ringPos p) t
  exact ⟨h1, h2, h3 _ rfl⟩

/-! ### The commit buffer (R140, R141) -/

/-- The entries of a slot with those of core p put off to `t`. -/
def Slot.putOff (p : Nat) (t : Tick) (y : Slot) : Slot :=
  { y with leaving := y.leaving.map fun x => if x.core = p then { x with notBefore := max x.notBefore t } else x }

theorem slot_holdLeaving (s : State) (p key : Nat) (t : Tick) :
    (s.holdLeaving p t).slot key = (s.slot key).putOff p t :=
  get_map ({} : Slot) (Slot.putOff p t) s.sq.slots key

theorem drainCore_notDue {s : State} {p : Nat} (h : ∀ k y, s.oldestLeaving p = some (k, y) → s.clk.tb < y.lands) :
    s.drainCore p = s := by
  rw [State.drainCore]
  split
  · rfl
  · rename_i k y hy
    exact if_pos (h k y hy)

section
variable {s : State} {key : Nat} {x : Leaving} (ho : s.oldestLeaving x.core = some (key, x)) (hd : x.lands ≤ s.clk.tb)
include ho hd

theorem drainCore_taken (ht : s.slotTaken x.core (x.lands - 16) = true) :
    s.drainCore x.core = s.holdLeaving x.core (x.lands + 1) := by
  rw [State.drainCore, ho]
  dsimp only
  rw [if_neg (Nat.not_lt.mpr hd), if_pos ht]

theorem drainCore_lands (ht : s.slotTaken x.core (x.lands - 16) = false) :
    s.drainCore x.core = (((s.modSlot key fun y => { y with leaving := y.leaving.drop 1 }).holdLeaving x.core
      (x.lands + 1)).busStore iSEQ x.addr x.size x.value).2 := by
  rw [State.drainCore, ho]
  dsimp only
  rw [if_neg (Nat.not_lt.mpr hd), if_neg (by simp [ht])]

end

theorem exec_commitEntryDrain {s : State} {t : Tick} {l : Fin 20} {slot : Fin 8} {x : Leaving} {xs : List Leaving}
    (hl : ((s.at t).slot (8 * l.val + slot.val)).leaving = x :: xs)
    (hp : ∀ p < x.core, ∀ k y, (s.at t).oldestLeaving p = some (k, y) → (s.at t).clk.tb < y.lands) :
    exec (.commitEntryDrain t l slot) s = .next ((s.at t).drainCore x.core) := by
  change execCommitEntryDrain t l slot s = _
  rw [execCommitEntryDrain]
  simp only [hl]
  rw [List.range_succ, List.foldl_append, foldl_keep fun p hp' => drainCore_notDue (hp p (List.mem_range.mp hp'))]
  rfl

/-! ### Armed writes (R142, R143) -/

@[simp] theorem armEntries_setArms_self (s : State) (p : Nat) (xs : List ArmEntry) : (s.setArms p xs).armEntries p = xs :=
  Tab.get_put_self _ _ _ _

theorem setPoint_kept (s : State) (p : Nat) (v : Word) : (s.setPoint p v).points = Tab.put 0 s.points p v ∧
    (s.setPoint p v).mem = s.mem ∧ (s.setPoint p v).sq = s.sq := by
  unfold State.setPoint
  dsimp only
  split
  · split <;> exact ⟨rfl, rfl, rfl⟩
  · exact ⟨rfl, rfl, rfl⟩

@[simp] theorem point_setPoint_self (s : State) (p : Nat) (v : Word) : (s.setPoint p v).point p = v := by
  rw [State.point, (setPoint_kept s p v).1]
  exact Tab.get_put_self _ _ _ _

theorem point_setPoint_ne (s : State) {p q : Nat} (h : q ≠ p) (v : Word) : (s.setPoint p v).point q = s.point q := by
  rw [State.point, (setPoint_kept s p v).1]
  exact Tab.get_put_ne _ h _ _

section
variable (s : State) (place : List Nat) (p : Nat) (v : Word)

theorem setPointAt_kept : (s.setPointAt place p v).mem = s.mem ∧ (s.setPointAt place p v).sq.arms = s.sq.arms ∧
    ∀ q, q ≠ p → (s.setPointAt place p v).point q = s.point q := by
  have key : ∀ w, (s.setPoint p w).mem = s.mem ∧ (s.setPoint p w).sq.arms = s.sq.arms ∧
      ∀ q, q ≠ p → (s.setPoint p w).point q = s.point q := fun w =>
    have ⟨_, hm, hsq⟩ := setPoint_kept s p w
    ⟨hm, by rw [hsq], fun q hq => point_setPoint_ne s hq w⟩
  unfold State.setPointAt
  dsimp only
  split <;> split <;> exact key _

variable {s place p}

theorem point_setPointAt_last (h : ∀ q, s.pointPlace p = some q → ¬ place < q) :
    (s.setPointAt place p v).point p = v := by
  unfold State.setPointAt
  cases hq : s.pointPlace p with
  | none => exact point_setPoint_self s p v
  | some q =>
    dsimp only
    rw [decide_eq_false (h q hq)]
    exact point_setPoint_self s p v

theorem point_setPointAt_late {q : List Nat} (hq : s.pointPlace p = some q) (h : place < q) :
    (s.setPointAt place p v).point p = s.point p := by
  unfold State.setPointAt
  dsimp only
  rw [hq]
  simp only [h, decide_true, if_true]
  exact point_setPoint_self s p _

end

theorem exec_armFire {s : State} {t : Tick} {p : Fin 24} {n : Fin 16} {x : ArmEntry}
    (hx : ((s.atStep t 1).armEntries p).find? (fun x => x.n == n.val) = some x) :
    exec (.armFire t p n) s = if x.time ≤ (s.atStep t 1).clk.tb then
      .next (((s.atStep t 1).setArms p (((s.atStep t 1).armEntries p).filter fun y => y.n ≠ n.val)).setPointAt
        (rankArmed x) x.point x.value) else .next (s.atStep t 1) := by
  change execArmFire t p n s = _
  rw [execArmFire]
  simp only [hx]

/-! ### Standing use (R134) -/

/-- The history of a slot stands cleared. -/
def State.HistCleared (key : Nat) (s : State) : Prop :=
  (s.slot key).histAt = none ∧ s.reg (atKey Reg.SQ_SLOT_HIST key) = 0 ∧ s.f (atKey Reg.SQ_SLOT_STATE key) 13 8 = 0

/-- The history of slot k cleared, as its span starts. -/
def State.startHist (s : State) (k : Nat) : State :=
  (s.clearHist k).modSlot k fun x => { x with histAt := none }

theorem startHist_self (s : State) (key : Nat) : (s.startHist key).HistCleared key := by
  obtain ⟨h1, h2⟩ := clearHist_reg s key
  exact ⟨by rw [State.startHist, slot_modSlot_self], h1, h2⟩

theorem startHist_keeps {s : State} {key : Nat} (k : Nat) (h : s.HistCleared key) : (s.startHist k).HistCleared key := by
  by_cases hk : k = key
  · subst hk
    exact startHist_self s k
  · obtain ⟨h1, h2, h3⟩ := h
    refine ⟨?_, ?_, ?_⟩
    · rw [State.startHist, State.modSlot, slot_setSlot_ne _ (Ne.symm hk), State.clearHist, slot_setF, slot_setReg, h1]
    · simp only [State.startHist, State.clearHist, modSlot_reg, atKey, Reg.SQ_SLOT_HIST, Reg.SQ_SLOT_STATE] at h2 ⊢
      simp (disch := omega) only [reg_setF_ne, reg_setReg_ne, h2]
    · simp only [State.startHist, State.clearHist, modSlot_f, atKey, Reg.SQ_SLOT_HIST, Reg.SQ_SLOT_STATE] at h3 ⊢
      simp (disch := omega) only [f_setF_ne, f_setReg_ne, h3]

theorem seqHist_eq (s : State) : s.seqHist =
    ((s.sq.slots.filter fun q => match q.2.histAt with | some t => t ≤ s.clk.tb | none => false).map (·.1)).foldl
      State.startHist s := by
  rw [List.foldl_map]
  rfl

/-- At its edge the history of a standing slot's span starts cleared. -/
theorem seqHist_due {s : State} {key h : Nat} (hh : (s.slot key).histAt = some h) (ht : h ≤ s.clk.tb) :
    s.seqHist.HistCleared key ∧ s.seqHist.mem = s.mem := by
  have hne : s.slot key ≠ {} := fun e => by rw [e] at hh; exact nomatch hh
  rw [seqHist_eq]
  refine ⟨foldl_establish (P := State.HistCleared key) (fun a b _ h => startHist_keeps b h) (x := key) ?_
    (fun a => startHist_self a key) s, foldl_invariant (f := State.startHist) (P := fun a : State => a.mem = s.mem) (fun a b _ h => h) rfl⟩
  refine List.mem_map.mpr ⟨(key, s.slot key), List.mem_filter.mpr ⟨mem_of_get_ne hne, ?_⟩, rfl⟩
  dsimp only
  rw [hh]
  exact decide_eq_true ht

theorem startRefusal_lt {s : State} {key r : Nat} (h : s.startRefusal key = some r) : r < 8 := by
  unfold State.startRefusal at h
  dsimp only at h
  split_ifs at h <;> cases h <;> decide

theorem startRefusal_used {s : State} {key : Nat} (h : (s.slot key).use ≠ .off) : s.startRefusal key = some 1 := by
  rw [State.startRefusal]
  exact if_pos h

section
variable {s : State} {t : Tick} {l : Fin 20} {slot : Fin 8} (hon : (s.atStep t 6).domOn 2 = true)
include hon

theorem exec_slotStart : exec (.slotStart t l slot) s = .next ((s.atStep t 6).slotStart (8 * l.val + slot.val)) := by
  change execSlotStart t l slot s = _
  rw [execSlotStart]
  simp only [hon, if_true]

theorem exec_slotStop : exec (.slotStop t l slot) s = .next ((s.atStep t 6).slotStop (8 * l.val + slot.val)) := by
  change execSlotStop t l slot s = _
  rw [execSlotStop]
  simp only [hon, if_true]

end

/-- Settles O19: a completed period field by field, the drain by the oldest entry due, an armed write by its place in
the order of its edge, standing use by its refusal; a cleared history stays cleared through the fold over slots. -/
theorem completionDrainAndArming : Obligations.CompletionDrainAndArming := by
  refine ⟨⟨fun s key p i xs _ hi hu => completeInstance_bus hi hu, standingSlot_times, ?_⟩, ?_, ?_, ?_⟩
  · intro s t l slot x xs
    dsimp only
    intro hl ho hp
    rw [exec_commitEntryDrain hl hp]
    generalize s.at t = u at *
    refine ⟨fun hd ht hin hg hon hst hldg => ?_, fun hd ht => ?_, fun hd => ?_⟩
    · rw [drainCore_lands ho hd ht]
      have hleave : (((u.modSlot (8 * l.val + slot.val) fun y => { y with leaving := y.leaving.drop 1 }).holdLeaving x.core
          (x.lands + 1)).slot (8 * l.val + slot.val)).leaving = xs.map fun y =>
            if y.core = x.core then { y with notBefore := max y.notBefore (x.lands + 1) } else y := by
        rw [slot_holdLeaving, Slot.putOff, slot_modSlot_self, hl]
        rfl
      have hsame : ((u.modSlot (8 * l.val + slot.val) fun y => { y with leaving := y.leaving.drop 1 }).holdLeaving x.core
          (x.lands + 1)).regs = u.regs ∧ ((u.modSlot (8 * l.val + slot.val) fun y =>
            { y with leaving := y.leaving.drop 1 }).holdLeaving x.core (x.lands + 1)).mem = u.mem := ⟨rfl, rfl⟩
      have hstore := busStore_memory (s := (u.modSlot (8 * l.val + slot.val) fun y =>
        { y with leaving := y.leaving.drop 1 }).holdLeaving x.core (x.lands + 1)) (v := x.value) hin hg hon hst hldg
      rw [hstore]
      generalize (u.modSlot (8 * l.val + slot.val) fun y => { y with leaving := y.leaving.drop 1 }).holdLeaving x.core
        (x.lands + 1) = w at *
      obtain ⟨hregs, hmem⟩ := hsame
      refine ⟨_, rfl, hregs, hleave, fun j hj => setMem_byte _ _ _ _ hj, fun b hb => ?_⟩
      rw [← hmem]
      exact setMem_frame _ _ _ _ hb
    · rw [drainCore_taken ho hd ht]
    · rw [drainCore_notDue]
      intro k y hy
      rw [ho] at hy
      simp only [Option.some.injEq, Prod.mk.injEq] at hy
      obtain ⟨-, rfl⟩ := hy
      exact hd
  · intro s t p n
    dsimp only
    intro x hx
    rw [exec_armFire hx]
    generalize s.atStep t 1 = u at *
    refine ⟨fun ht => ?_, fun ht => if_neg (Nat.not_le.mpr ht)⟩
    rw [if_pos ht]
    obtain ⟨hmem, harms, hne⟩ := setPointAt_kept (u.setArms p ((u.armEntries p).filter fun y => y.n ≠ n.val))
      (rankArmed x) x.point x.value
    refine ⟨_, rfl, fun h => point_setPointAt_last _ h, fun q hq h => point_setPointAt_late _ hq h, hne, hmem, fun y => ?_⟩
    rw [State.armEntries, harms]
    have := armEntries_setArms_self u p ((u.armEntries p).filter fun y => y.n ≠ n.val)
    rw [State.armEntries] at this
    rw [this]
    simp
  · intro s t l slot
    dsimp only
    intro hon
    rw [exec_slotStart hon, exec_slotStop hon]
    generalize s.atStep t 6 = u at *
    generalize 8 * l.val + slot.val = key at *
    refine ⟨fun hr => ?_, fun r hr => ?_, startRefusal_used, fun huse => ?_⟩
    · rw [State.slotStart, hr]
      dsimp only
      refine ⟨_, rfl, ?_⟩
      simp only [slot_modSlot_self, slot_beginSpan]
      exact ⟨trivial, trivial, trivial, trivial, trivial, rfl, rfl⟩
    · rw [State.slotStart, hr]
      dsimp only
      refine ⟨_, rfl, ?_, fb_setB_self _ _ (by decide) true, by simp⟩
      simp only [atKey, Reg.SQ_SLOT_STATE, Reg.SQ_IRQ_STATUS]
      simp (disch := omega) only [f_setB_ne, f_setF_self]
      exact Nat.mod_eq_of_lt (startRefusal_lt hr)
    · rw [State.slotStop, if_pos huse]
      refine ⟨_, rfl, rfl, fun h => ?_, fun h => ?_⟩
      · rw [slot_modSlot_self, h]
        rfl
      · rw [slot_modSlot_self, h]
        exact ⟨huse, rfl⟩
  · intro s key h _ hh ht
    obtain ⟨⟨h1, h2, h3⟩, h4⟩ := seqHist_due hh ht
    exact ⟨h1, h2, h3, h4⟩

end Sys2Proof.Machine
end

section
/-! The map of logical to physical cores and its substitution (R146-R148). -/

namespace Sys2Proof.Machine

/-! ### The map -/

/-- The word of a map entry that binds core p. -/
def mapWord (p : Nat) : Word := BitVec.ofNat 32 (p + 128)

theorem physOf_congr {s u : State} {l : Nat} (h : s.reg (Reg.SQ_CORE_MAP l) = u.reg (Reg.SQ_CORE_MAP l)) :
    s.physOf l = u.physOf l := by
  rw [State.physOf, State.fb, State.f, h]
  rfl

theorem physOf_bound {s : State} {l p : Nat} (hp : p < 32) (h : s.reg (Reg.SQ_CORE_MAP l) = mapWord p) :
    s.physOf l = some p := by
  have h7 : bits (mapWord p) 7 7 = 1 := by
    rw [bits, mapWord, BitVec.toNat_ofNat]
    omega
  have h0 : bits (mapWord p) 4 0 = p := by
    rw [bits, mapWord, BitVec.toNat_ofNat]
    omega
  rw [State.physOf, State.fb, State.f, h, h7, h0]
  rfl

theorem physOf_unbound {s : State} {l p : Nat} (hp : p < 32) (h : s.reg (Reg.SQ_CORE_MAP l) = BitVec.ofNat 32 p) :
    s.physOf l = none := by
  have h7 : bits (BitVec.ofNat 32 p) 7 7 = 0 := by
    rw [bits, BitVec.toNat_ofNat]
    omega
  rw [State.physOf, State.fb, h, h7]
  rfl

theorem physOf_setReg_map_ne (s : State) {l m : Nat} (h : m ≠ l) (v : Word) :
    (s.setReg (Reg.SQ_CORE_MAP l) v).physOf m = s.physOf m :=
  physOf_congr (reg_setReg_ne s (by simp only [Reg.SQ_CORE_MAP]; omega) v)

theorem wantSeq_kept (s : State) (p : Nat) : (s.wantSeq p).regs = s.regs ∧ (s.wantSeq p).mem = s.mem ∧
    (s.wantSeq p).sq = s.sq := by
  unfold State.wantSeq
  split <;> exact ⟨rfl, rfl, rfl⟩

theorem reg_of_regs {s u : State} (h : s.regs = u.regs) (a : Nat) : s.reg a = u.reg a := by
  rw [State.reg, h, State.reg]

section
variable (s : State) (l p : Nat)

theorem bindCore_kept : (s.bindCore l p).mem = s.mem ∧ p ∉ (s.bindCore l p).sq.halted ∧
    (s.bindCore l p).regs = (s.setReg (Reg.SQ_CORE_MAP l) (mapWord p)).regs := by
  obtain ⟨hr, hm, hsq⟩ := wantSeq_kept { s.setReg (Reg.SQ_CORE_MAP l) (mapWord p) with
    sq := { s.sq with halted := s.sq.halted.filter fun x => x ≠ p } } p
  refine ⟨hm, ?_, hr⟩
  rw [show (s.bindCore l p).sq = _ from hsq]
  simp

theorem bindCore_reg (a : Nat) : (s.bindCore l p).reg a = (s.setReg (Reg.SQ_CORE_MAP l) (mapWord p)).reg a :=
  reg_of_regs (bindCore_kept s l p).2.2 a

theorem physOf_bindCore_ne {m : Nat} (h : m ≠ l) : (s.bindCore l p).physOf m = s.physOf m :=
  (physOf_congr (bindCore_reg s l p _)).trans (physOf_setReg_map_ne s h _)

theorem physOf_bindCore_self {p : Nat} (h : p < 32) : (s.bindCore l p).physOf l = some p :=
  physOf_bound h ((bindCore_reg s l p _).trans (reg_setReg_self _ _ _))

end

/-! ### CORE_MAP_WRITE (R146, R147) -/

section
variable {u : State} {l : Nat} {w : Word} (hoff : ∀ n < 8, (u.slot (8 * l + n)).use = .off)
include hoff

theorem mapIdle : ((List.range 8).any fun n => decide ((u.slot (8 * l + n)).use ≠ .off)) = false := by
  rw [List.any_eq_false]
  intro n hn
  simp [hoff n (List.mem_range.mp hn)]

theorem coreMapWrite_bind (hv : bits w 7 7 = 1) (hp : bits w 4 0 < 24) (ht : ∀ x, u.logicalOf (bits w 4 0) = some x → x = l)
    (hf : (u.reg Reg.SQ_CORE_FAIL).getLsbD (bits w 4 0) = false) : u.coreMapWrite l w = u.bindCore l (bits w 4 0) := by
  unfold State.coreMapWrite
  dsimp only
  rw [mapIdle hoff, Bool.false_and, if_neg Bool.false_ne_true, if_pos hv]
  cases hx : u.logicalOf (bits w 4 0) with
  | none => simp [hf, hp]
  | some x => simp [hf, hp, ht x hx]

theorem coreMapWrite_refused (hv : bits w 7 7 = 1) (h : 24 ≤ bits w 4 0 ∨
      (u.reg Reg.SQ_CORE_FAIL).getLsbD (bits w 4 0) = true ∨ (∃ x, u.logicalOf (bits w 4 0) = some x ∧ x ≠ l)) :
    u.coreMapWrite l w = u.raise srcSQ 2 := by
  unfold State.coreMapWrite
  dsimp only
  rw [mapIdle hoff, Bool.false_and, if_neg Bool.false_ne_true, if_pos hv, if_pos]
  rcases h with h | h | ⟨x, hx, hne⟩
  · simp [h]
  · simp [h]
  · simp [hx, hne]

theorem coreMapWrite_unbind (hv : bits w 7 7 = 0) :
    u.coreMapWrite l w = u.setReg (Reg.SQ_CORE_MAP l) (BitVec.ofNat 32 (bits w 4 0)) := by
  unfold State.coreMapWrite
  dsimp only
  rw [mapIdle hoff, Bool.false_and, if_neg Bool.false_ne_true, if_neg (by rw [hv]; decide)]

end

section
variable {s : State} {t : Tick} (hon : (s.at t).domOn 2 = true)
include hon

theorem exec_coreMapWrite (l : Fin 20) (w : Word) : exec (.coreMapWrite t l w) s = .next ((s.at t).coreMapWrite l w) := by
  change execCoreMapWrite t l w s = _
  rw [execCoreMapWrite]
  simp only [hon, if_true]

theorem exec_substRequest (w : Word) : exec (.substRequest t w) s = .next ((s.at t).requestSubst w) := by
  change execSubstRequest t w s = _
  rw [execSubstRequest]
  simp only [hon, if_true]

theorem exec_substCancel : exec (.substCancel t) s = .next (s.at t).cancelSubst := by
  change execSubstCancel t s = _
  rw [execSubstCancel]
  simp only [hon, if_true]

end

/-! ### Binding the core of a substitution (R148) -/

section
variable (s : State) (cls kind units : Nat) (body : List Byte)

theorem ldgQueue_kept (r : LdgReq) : (s.ldgQueue r).regs = s.regs ∧ (s.ldgQueue r).mem = s.mem ∧
    (s.ldgQueue r).sq = s.sq := by
  unfold State.ldgQueue
  split <;> exact ⟨rfl, rfl, rfl⟩

/-- A record request touches memory and the sequencer no more than it does registers outside LDG. -/
theorem ldgRecord_kept : (s.ldgRecord cls kind units body).mem = s.mem ∧ (s.ldgRecord cls kind units body).sq = s.sq ∧
    ∀ a < 0x21600000, (s.ldgRecord cls kind units body).reg a = s.reg a := by
  unfold State.ldgRecord
  split
  · refine ⟨by simp [State.ldgLost, State.incSat], by simp [State.ldgLost, State.incSat], fun a ha => ?_⟩
    rw [State.ldgLost, reg_raise, reg_setB_ne _ (by simp only [Reg.LDG_IRQ_STATUS]; omega),
      reg_incSat_ne _ (by simp only [Reg.LDG_CNT]; omega)]
  · obtain ⟨hr, hm, hsq⟩ := ldgQueue_kept s { cls := cls, kind := kind, units := units, time := s.now, body := body }
    exact ⟨hm, hsq, fun a _ => reg_of_regs hr a⟩

end

theorem lostTarget_none {s : State} {p : Nat} (hl : s.logicalOf p = none)
    (hf : (s.reg Reg.SQ_CORE_FAIL).getLsbD p = false) : s.lostTarget p = none := by
  simp [State.lostTarget, hl, hf]

theorem substBind_facts (s : State) (l q : Nat) {p : Nat} (hp : p < 24) (hl : l < 20) :
    (s.substBind l q p).physOf l = some p ∧ (s.substBind l q p).sq.subst = none ∧
    (s.substBind l q p).reg Reg.SQ_SUBST_STATUS = 2 ∧ (s.substBind l q p).mem = s.mem ∧
    (s.substBind l q p).reg Reg.SQ_CORE_FAIL = s.reg Reg.SQ_CORE_FAIL ||| BitVec.ofNat 32 (2 ^ q) := by
  obtain ⟨hbm, -, -⟩ := bindCore_kept s l p
  have hbr := bindCore_reg s l p
  unfold State.substBind
  dsimp only
  generalize s.bindCore l p = b at *
  obtain ⟨hm, -, hr⟩ := ldgRecord_kept (b.setReg Reg.SQ_CORE_FAIL (b.reg Reg.SQ_CORE_FAIL ||| BitVec.ofNat 32 (2 ^ q)))
    2 0x10 1 (bytesLE 1 l ++ bytesLE 1 q ++ bytesLE 1 p)
  generalize (b.setReg Reg.SQ_CORE_FAIL (b.reg Reg.SQ_CORE_FAIL ||| BitVec.ofNat 32 (2 ^ q))).ldgRecord
    2 0x10 1 (bytesLE 1 l ++ bytesLE 1 q ++ bytesLE 1 p) = c at *
  have hc : ∀ a, ({ c with sq := { c.sq with subst := none } } : State).reg a = c.reg a := fun a => rfl
  refine ⟨physOf_bound (by omega) ?_, by simp, ?_, ?_, ?_⟩
  · simp only [Reg.SQ_CORE_MAP, Reg.SQ_STATUS, Reg.SQ_IRQ_STATUS, Reg.SQ_SUBST_STATUS, Reg.SQ_CORE_FAIL] at *
    simp (disch := omega) only [reg_setB_ne, reg_setReg_ne, hc, hr, hbr, reg_setReg_self]
  · simp (disch := decide) only [reg_setB_ne, reg_setReg_self]
  · simp [hm, hbm]
  · simp only [Reg.SQ_CORE_MAP, Reg.SQ_STATUS, Reg.SQ_IRQ_STATUS, Reg.SQ_SUBST_STATUS, Reg.SQ_CORE_FAIL] at *
    simp (disch := omega) only [reg_setB_ne, reg_setReg_ne, hc, hr, hbr, reg_setReg_self]

theorem substRefuse_facts (s : State) (r : Nat) : (s.substRefuse r).sq.subst = none ∧
    (s.substRefuse r).reg Reg.SQ_SUBST_STATUS = BitVec.ofNat 32 (3 + 4 * r) ∧
    ∀ m, (s.substRefuse r).physOf m = s.physOf m := by
  unfold State.substRefuse
  dsimp only
  refine ⟨by simp, ?_, fun m => physOf_congr ?_⟩
  · simp (disch := decide) only [reg_setB_ne, reg_setReg_self]
  · simp only [Reg.SQ_CORE_MAP, Reg.SQ_STATUS, Reg.SQ_IRQ_STATUS, Reg.SQ_SUBST_STATUS]
    simp (disch := omega) only [reg_setB_ne, reg_setReg_ne]
    rfl

/-! ### The copy of a TCM (R148) -/

theorem get_filter {α : Type} (d : α) (p : Nat → Bool) (t : Tab α) (i : Nat) :
    Tab.get d (t.filter fun q => p q.1) i = if p i then Tab.get d t i else d := by
  induction t with
  | nil => simp [Tab.get]
  | cons q t ih =>
    obtain ⟨k, v⟩ := q
    by_cases hk : k = i
    · subst hk
      cases hp : p k <;> simp [Tab.get, hp, ih]
    · cases hp : p k <;> simp [Tab.get, hp, hk, ih]

theorem get_append {α : Type} (d : α) (t u : Tab α) (i : Nat) :
    Tab.get d (t ++ u) i = if i ∈ t.map (·.1) then Tab.get d t i else Tab.get d u i := by
  induction t with
  | nil => simp
  | cons q t ih =>
    obtain ⟨k, v⟩ := q
    by_cases hk : k = i
    · simp [Tab.get, hk]
    · have hm : i ∈ ((k, v) :: t).map (·.1) ↔ i ∈ t.map (·.1) := by
        rw [List.map_cons, List.mem_cons]
        exact or_iff_right fun e => hk e.symm
      simp only [List.cons_append, Tab.get, if_neg hk, ih, hm]

theorem get_unlisted {α : Type} (d : α) {t : Tab α} {i : Nat} (h : i ∉ t.map (·.1)) : Tab.get d t i = d := by
  induction t with
  | nil => rfl
  | cons q t ih =>
    obtain ⟨k, v⟩ := q
    simp only [List.map_cons, List.mem_cons, not_or] at h
    rw [Tab.get, if_neg (Ne.symm h.1), ih h.2]

/-- Of two tables that share no key, each key reads from the one that may list it. -/
theorem get_append_left {α : Type} (d : α) {t u : Tab α} {i : Nat} (h : i ∉ u.map (·.1)) :
    Tab.get d (t ++ u) i = Tab.get d t i := by
  rw [get_append]
  split
  · rfl
  · rename_i ht
    rw [get_unlisted d h, get_unlisted d ht]

theorem get_append_right {α : Type} (d : α) {t u : Tab α} {i : Nat} (h : i ∉ t.map (·.1)) :
    Tab.get d (t ++ u) i = Tab.get d u i := by
  rw [get_append, if_neg h]

theorem movedCells_get (m : List Host.Cell) (lo hi dst j : Nat) (h : lo + j < hi) :
    Tab.get memDefault (movedCells m lo hi dst) (dst + j) = Tab.get memDefault m (lo + j) := by
  unfold movedCells
  induction m with
  | nil => rfl
  | cons c m ih =>
    obtain ⟨k, v⟩ := c
    by_cases hin : lo ≤ k ∧ k < hi
    · have : (decide (lo ≤ k) && decide (k < hi)) = true := by simp [hin]
      rw [List.filter_cons, if_pos this, List.map_cons, Tab.get, Tab.get]
      by_cases hk : k = lo + j
      · rw [if_pos hk, if_pos (by omega)]
      · rw [if_neg hk, if_neg (by omega), ih]
    · have : ¬ (decide (lo ≤ k) && decide (k < hi)) = true := by simpa using hin
      rw [List.filter_cons, if_neg this, Tab.get, if_neg (by omega), ih]

theorem movedCells_keys {m : List Host.Cell} {lo hi dst i : Nat} (h : i ∈ (movedCells m lo hi dst).map (·.1)) :
    dst ≤ i ∧ i < dst + (hi - lo) := by
  unfold movedCells at h
  simp only [List.map_map, List.mem_map, List.mem_filter, Function.comp_apply, Bool.and_eq_true, decide_eq_true_eq] at h
  obtain ⟨c, ⟨-, h1, h2⟩, rfl⟩ := h
  omega

theorem filter_keys {α : Type} {p : Nat → Bool} {t : Tab α} {i : Nat} (h : i ∈ (t.filter fun q => p q.1).map (·.1)) :
    p i = true := by
  obtain ⟨q, hq, rfl⟩ := List.mem_map.mp h
  exact (List.mem_filter.mp hq).2

section
variable (s : State) (q p i n : Nat)

theorem copyTcm_in {j : Nat} (h : i ≤ j) (h' : j < i + n) :
    readByte (s.copyTcm q p i n).mem (tcmBase p + j) = readByte s.mem (tcmBase q + j) := by
  unfold State.copyTcm readByte
  dsimp only
  have h1 : tcmBase p + j ∉ (s.mem.filter fun c => tcmBase p + i + n ≤ c.1).map (·.1) := fun hm => by
    have := filter_keys (p := fun k => decide (tcmBase p + i + n ≤ k)) hm
    simp only [decide_eq_true_eq] at this
    omega
  have h2 : tcmBase p + j ∉ (s.mem.filter fun c => c.1 < tcmBase p + i).map (·.1) := fun hm => by
    have := filter_keys (p := fun k => decide (k < tcmBase p + i)) hm
    simp only [decide_eq_true_eq] at this
    omega
  have hmove := movedCells_get s.mem (tcmBase q + i) (tcmBase q + i + n) (tcmBase p + i) (j - i) (by omega)
  rw [show tcmBase p + i + (j - i) = tcmBase p + j from by omega,
    show tcmBase q + i + (j - i) = tcmBase q + j from by omega] at hmove
  rw [get_append_left _ h1, get_append_right _ h2, hmove]

theorem copyTcm_out {b : Nat} (h : b < tcmBase p + i ∨ tcmBase p + i + n ≤ b) :
    readByte (s.copyTcm q p i n).mem b = readByte s.mem b := by
  unfold State.copyTcm readByte
  dsimp only
  have h0 : b ∉ (movedCells s.mem (tcmBase q + i) (tcmBase q + i + n) (tcmBase p + i)).map (·.1) := fun hm => by
    have := movedCells_keys hm
    omega
  have hlow := get_filter memDefault (fun k => decide (k < tcmBase p + i)) s.mem b
  have hhigh := get_filter memDefault (fun k => decide (tcmBase p + i + n ≤ k)) s.mem b
  rcases h with h | h
  · have h1 : b ∉ (s.mem.filter fun c => tcmBase p + i + n ≤ c.1).map (·.1) := fun hm => by
      have := filter_keys (p := fun k => decide (tcmBase p + i + n ≤ k)) hm
      simp only [decide_eq_true_eq] at this
      omega
    rw [get_append_left _ h1, get_append_left _ h0, hlow, if_pos (decide_eq_true h)]
  · have h2 : b ∉ (s.mem.filter fun c => c.1 < tcmBase p + i).map (·.1) := fun hm => by
      have := filter_keys (p := fun k => decide (k < tcmBase p + i)) hm
      simp only [decide_eq_true_eq] at this
      omega
    rw [List.append_assoc, get_append_right _ h2, get_append_right _ h0, hhigh, if_pos (decide_eq_true h)]

end

section
variable {s : State} {c : CoreSubst} {t0 q : Nat} (hs : s.sq.subst = some c) (hc : c.copying = some t0)
  (hq : s.physOf c.logical = some q) (hle : c.copied ≤ s.copySteps t0)
include hs hc hq hle

/-- A copy that meets no error has moved its steps by now, and no register. -/
theorem copyStep_clean (h : ∀ i, c.copied ≤ i → i < s.copySteps t0 → ¬ s.poisoned (tcmBase q + 32 * i) 32 = true) :
    s.copyStep.mem = (if s.copySteps t0 ≤ c.copied then s
      else s.copyTcm q c.phys (32 * c.copied) (32 * (s.copySteps t0 - c.copied))).mem ∧ s.copyStep.regs = s.regs := by
  have hfind : (List.range' c.copied (s.copySteps t0 - c.copied)).find? (fun i => s.poisoned (tcmBase q + 32 * i) 32) =
      none := by
    rw [List.find?_eq_none]
    intro i hi
    obtain ⟨h1, h2⟩ := List.mem_range'_1.mp hi
    exact h i h1 (by omega)
  unfold State.copyStep
  rw [hs]
  dsimp only
  rw [hc, hq]
  dsimp only
  split
  · exact ⟨rfl, rfl⟩
  · rw [hfind]
    exact ⟨rfl, rfl⟩

/-- An uncorrectable error ends the substitution refused. -/
theorem copyStep_error (h : ∃ i, c.copied ≤ i ∧ i < s.copySteps t0 ∧ s.poisoned (tcmBase q + 32 * i) 32 = true) :
    ∃ i, s.copyStep = (s.copyTcm q c.phys (32 * c.copied) (32 * (i - c.copied))).substRefuse 5 := by
  obtain ⟨i, h1, h2, hbad⟩ := h
  have hsome : ((List.range' c.copied (s.copySteps t0 - c.copied)).find? fun i =>
      s.poisoned (tcmBase q + 32 * i) 32).isSome = true :=
    List.find?_isSome.mpr ⟨i, List.mem_range'_1.mpr ⟨h1, by omega⟩, hbad⟩
  obtain ⟨k, hk⟩ := Option.isSome_iff_exists.mp hsome
  refine ⟨k, ?_⟩
  unfold State.copyStep
  rw [hs]
  dsimp only
  rw [hc, hq]
  dsimp only
  rw [if_neg (by omega), hk]

end

/-! ### The safe point (R148) -/

theorem logicalOf_congr {s u : State} (h : s.regs = u.regs) (p : Nat) : s.logicalOf p = u.logicalOf p := by
  unfold State.logicalOf
  congr 1
  funext l
  rw [physOf_congr (reg_of_regs h _)]

/-- The substitution with its safe point reached and the core that leaves halted. -/
def State.reachSafe (u : State) (c : CoreSubst) (q : Nat) : State :=
  if c.reached then u
  else { u with sq := { u.sq with subst := some { c with reached := true }, halted := q :: u.sq.halted.erase q } }

theorem reachSafe_facts {u : State} {c : CoreSubst} (hc : u.sq.subst = some c) (q : Nat) :
    (u.reachSafe c q).regs = u.regs ∧ (u.reachSafe c q).mem = u.mem ∧ (u.reachSafe c q).clk = u.clk ∧
    (u.reachSafe c q).sq.subst = some { c with reached := true } ∧
    (c.reached = false → q ∈ (u.reachSafe c q).sq.halted) := by
  unfold State.reachSafe
  split
  · rename_i hr
    refine ⟨rfl, rfl, rfl, ?_, fun h => absurd (hr.symm.trans h) (by decide)⟩
    rw [hc, ← hr]
  · exact ⟨rfl, rfl, rfl, rfl, fun _ => List.mem_cons_self⟩

section
variable {s : State} {t : Tick} {c : CoreSubst} {q : Nat} (hc : (s.at t).sq.subst = some c)
  (hq : (s.at t).physOf c.logical = some q)
include hc hq

theorem exec_substSafePoint_waits (hr : c.reached = false) (hs : (s.at t).safePoint c.logical q = false) :
    exec (.substSafePoint t) s = .next (s.at t) := by
  change execSubstSafePoint t s = _
  rw [execSubstSafePoint]
  simp only [hc, hq, hr, hs, Bool.or_self, Bool.not_false, Bool.or_true, if_true]

theorem exec_substSafePoint (hn : c.copying = none) (h : c.reached = true ∨ (s.at t).safePoint c.logical q = true)
    (hl : (s.at t).lostTarget c.phys = none) : exec (.substSafePoint t) s =
    if !((s.at t).reachSafe c q).domOn (3 + c.phys / 6) then
      .next (if c.reached then (s.at t).reachSafe c q else ((s.at t).reachSafe c q).pwrPush (.on (3 + c.phys / 6)))
    else if c.copy then
      .next { (s.at t).reachSafe c q with sq := { ((s.at t).reachSafe c q).sq with
        subst := some { c with reached := true, copying := some ((s.at t).reachSafe c q).clk.tb } } }
    else .next (((s.at t).reachSafe c q).substDone c.logical q c.phys) := by
  have h' : (c.reached || (s.at t).safePoint c.logical q) = true := by simpa using h
  have hn' : c.copying.isSome = false := by rw [hn]; rfl
  change execSubstSafePoint t s = _
  rw [execSubstSafePoint]
  simp only [hc, hq, hn', h', hl, Bool.not_true, Bool.or_self, Bool.false_eq_true, if_false]
  rfl

theorem exec_substCopyDone {t0 : Nat} (h0 : c.copying = some t0) : exec (.substCopyDone t) s =
    if (s.at t).clk.tb < t0 + 65536 then .next (s.at t) else .next ((s.at t).substDone c.logical q c.phys) := by
  change execSubstCopyDone t s = _
  rw [execSubstCopyDone]
  simp only [hc, hq, h0]

end

/-- Settles O20: the map's entry by what is written, a substitution by its stage; the copy's bytes through the cells that
it moves. -/
theorem coreMapAndSubstitution : Obligations.CoreMapAndSubstitution := by
  refine ⟨?_, ?_, ?_, ?_, ?_⟩
  · intro s t l w
    dsimp only
    intro hon hoff
    rw [exec_coreMapWrite hon]
    generalize s.at t = u at *
    refine ⟨fun hv hp ht hf => ?_, fun hv h => ?_, fun hv => ?_⟩
    · rw [coreMapWrite_bind hoff hv hp ht hf]
      obtain ⟨hm, hh, -⟩ := bindCore_kept u l (bits w 4 0)
      exact ⟨_, rfl, physOf_bindCore_self u l (by omega), hh, hm, fun m _ hne => physOf_bindCore_ne u l _ hne⟩
    · rw [coreMapWrite_refused hoff hv h]
    · rw [coreMapWrite_unbind hoff hv]
      exact ⟨_, rfl, physOf_unbound (bits_lt w 4 0) (reg_setReg_self _ _ _), rfl,
        fun m _ hne => physOf_setReg_map_ne u hne _⟩
  · intro s t w
    dsimp only
    intro hon hl
    rw [exec_substRequest hon]
    generalize s.at t = u at *
    refine ⟨fun r hr => ?_, fun hfree hp hf hl' hb hn => ?_⟩
    · rw [State.requestSubst, if_neg hl, hr]
    · have hr : u.substRefusal (bits w 4 0) (bits w 12 8) = none := by
        obtain ⟨x, hx⟩ := Option.isSome_iff_exists.mp hb
        simp [State.substRefusal, hfree, hf, hx, hn, Nat.not_le.mpr hp, Nat.not_le.mpr hl']
      rw [State.requestSubst, if_neg hl, hr]
      refine ⟨_, rfl, by simp, ?_, fb_setB_self _ _ (by decide) true, by simp⟩
      simp (disch := decide) only [reg_setB_ne, reg_setReg_self]
  · intro s t c
    dsimp only
    intro hon hc
    rw [exec_substCancel hon]
    generalize s.at t = u at *
    refine ⟨fun h => ?_, fun h => ?_⟩
    · rw [State.cancelSubst, hc]
      simp only [h, Bool.not_false, if_true]
      refine ⟨_, rfl, by simp, ?_, fb_setB_self _ _ (by decide) false, by simp⟩
      rw [f_setB_ne _ (by decide), f_setF_self _ _ (by decide) (by decide)]
      rfl
    · rw [State.cancelSubst, hc]
      simp [h]
  · intro s t c q
    dsimp only
    intro hc hq
    refine ⟨fun hn hsafe hp hl hfree hf => ?_, fun _ hr hs => exec_substSafePoint_waits hc hq hr hs, fun t0 h0 => ?_⟩
    · rw [exec_substSafePoint hc hq hn hsafe (lostTarget_none hfree hf)]
      generalize s.at t = u at *
      obtain ⟨hreg, hm, hclk, hsub, hhalt⟩ := reachSafe_facts hc q
      have hdom : u.domOn (3 + c.phys / 6) = (u.reachSafe c q).domOn (3 + c.phys / 6) := by
        rw [State.domOn, State.f, State.domOn, State.f, reg_of_regs hreg]
      have hlost : (u.reachSafe c q).lostTarget c.phys = none :=
        lostTarget_none ((logicalOf_congr hreg _).trans hfree) (by rw [reg_of_regs hreg]; exact hf)
      obtain ⟨b1, b2, b3, b4, -⟩ := substBind_facts (u.reachSafe c q) c.logical q hp hl
      rw [hdom, State.substDone, hlost]
      generalize u.reachSafe c q = v at *
      cases hon : v.domOn (3 + c.phys / 6) with
      | false =>
        refine ⟨_, rfl, fun hr => Or.inl ?_, ?_, fun _ => ?_, nofun, nofun⟩
        · rw [if_neg (by simp [hr])]
          exact hhalt hr
        · split <;> exact hm
        · split <;> exact hsub
      | true =>
        cases hcopy : c.copy with
        | true => exact ⟨_, rfl, fun hr => Or.inl (hhalt hr), hm, nofun, fun _ _ => by rw [hclk], nofun⟩
        | false => exact ⟨_, rfl, fun _ => Or.inr b2, b4.trans hm, nofun, nofun, fun _ _ => ⟨b1, b2, b3⟩⟩
    · rw [exec_substCopyDone hc hq h0]
      generalize s.at t = u at *
      refine ⟨fun h => if_pos h, fun h hp hl hfree hf => ?_⟩
      rw [if_neg (Nat.not_lt.mpr h), State.substDone, lostTarget_none hfree hf]
      obtain ⟨h1, h2, h3, h4, h5⟩ := substBind_facts u c.logical q hp hl
      refine ⟨_, rfl, h1, h2, h3, ?_, h4⟩
      rw [h5, BitVec.getLsbD_or, BitVec.getLsbD_ofNat, Nat.testBit_two_pow_self, Bool.and_true]
      by_cases hq32 : q < 32
      · simp [hq32]
      · simp [hq32, BitVec.getLsbD_of_ge _ q (Nat.not_lt.mp hq32)]
  · intro s c t0 q hs hc hq hq24 hp hle
    dsimp only
    refine ⟨fun h => ?_, fun h => ?_⟩
    · obtain ⟨hm, hr⟩ := copyStep_clean hs hc hq hle h
      rw [hm, hr]
      refine ⟨fun j h1 h2 => ?_, fun b hb => ?_, rfl⟩
      · rw [if_neg (by omega)]
        exact copyTcm_in s q c.phys _ _ h1 (by omega)
      · split
        · rfl
        · exact copyTcm_out s q c.phys _ _ (by omega)
    · obtain ⟨k, hk⟩ := copyStep_error hs hc hq hle h
      obtain ⟨h1, h2, h3⟩ := substRefuse_facts (s.copyTcm q c.phys (32 * c.copied) (32 * (k - c.copied))) 5
      rw [hk]
      exact ⟨h1, h2, fun m _ => (h3 m).trans (physOf_congr rfl)⟩
end Sys2Proof.Machine
end

section
/-! Requests for a mode, the order of an edge's mode events, and the table of R42 (R42-R44). -/

namespace Sys2Proof.Machine

/-! ### A request (R42, R44) -/

@[simp] theorem mode_ofCode_code (m : Mode) : Mode.ofCode m.code = m := by cases m <;> rfl

section
variable {u : State} {m : Mode} (hs : u.pwr.shut = false)
include hs

theorem modeRequest_held (ht : u.trans = true) :
    u.modeRequest m = (u.setF Reg.SYS_MODE 10 8 m.code).setB Reg.SYS_MODE 11 true := by
  rw [State.modeRequest, if_neg (by simp [hs]), if_pos ht]

theorem modeRequest_current (ht : u.trans = false) (hm : u.mode = m) : u.modeRequest m = u := by
  rw [State.modeRequest, if_neg (by simp [hs]), if_neg (by simp [ht]), if_pos (by simp [hm])]

theorem modeRequest_refused {r : Nat} (ht : u.trans = false) (hm : u.mode ≠ m) (hr : u.modeRefusal m = some r) :
    u.modeRequest m = u.modeRefuse m r := by
  rw [State.modeRequest, if_neg (by simp [hs]), if_neg (by simp [ht]), if_neg (by simp [hm]), hr]

theorem modeRequest_accepted (ht : u.trans = false) (hm : u.mode ≠ m) (hr : u.modeRefusal m = none) :
    u.modeRequest m = u.modeAccept m := by
  rw [State.modeRequest, if_neg (by simp [hs]), if_neg (by simp [ht]), if_neg (by simp [hm]), hr]

end

theorem modeTake_request (u : State) (m : Mode) : u.modeTake (.request m.code) = u.modeRequest m := by
  rw [State.modeTake, mode_ofCode_code]

theorem modeTake_request_cases {u : State} (hs : u.pwr.shut = false) (m : Mode) :
    (u.trans = true → u.modeTake (.request m.code) = (u.setF Reg.SYS_MODE 10 8 m.code).setB Reg.SYS_MODE 11 true) ∧
    (u.trans = false → u.mode = m → u.modeTake (.request m.code) = u) ∧
    (∀ r, u.trans = false → u.mode ≠ m → u.modeRefusal m = some r →
      u.modeTake (.request m.code) = (u.setF Reg.SYS_MODE 14 12 m.code).setF Reg.SYS_MODE 18 16 r) ∧
    (u.trans = false → u.mode ≠ m → u.modeRefusal m = none → u.modeTake (.request m.code) = u.modeAccept m) := by
  simp only [modeTake_request]
  exact ⟨modeRequest_held hs, modeRequest_current hs, fun r => modeRequest_refused hs, modeRequest_accepted hs⟩

/-! ### The events of an edge (R43) -/

/-- Events in the order in which an edge takes them. -/
def byRank (es : List ModeEv) : List ModeEv := (List.range 3).flatMap fun k => es.filter fun e => e.rank == k

theorem closeEdge_eq (s : State) (edge : Tick) : s.closeEdge edge =
    (byRank ((s.sys.events.filter fun e => e.due ≤ edge).map (·.ev))).foldl (fun s e => (s.modeTake e).takeHeld)
      ({ s with sys := { s.sys with events := s.sys.events.filter fun e => edge < e.due } } : State).takeHeld := by
  rw [byRank, List.foldl_flatMap]
  rfl

theorem byRank_one (e : ModeEv) : byRank [e] = [e] := by cases e <;> rfl

theorem byRank_two {e f : ModeEv} (h : e.rank < f.rank) : byRank [e, f] = [e, f] ∧ byRank [f, e] = [e, f] := by
  have hf : f.rank ≤ 2 := by cases f <;> simp [ModeEv.rank]
  have hr : e.rank = 0 ∧ f.rank = 1 ∨ e.rank = 0 ∧ f.rank = 2 ∨ e.rank = 1 ∧ f.rank = 2 := by omega
  rcases hr with ⟨he, hf⟩ | ⟨he, hf⟩ | ⟨he, hf⟩ <;> simp [byRank, List.range_succ, he, hf]

theorem takeHeld_idle {s : State} (h : s.fb Reg.SYS_MODE 11 = false) : s.takeHeld = s := by
  rw [State.takeHeld, if_neg (by simp [h])]

/-- Settles O22: a request by the state it finds, the events of an edge in the order of their ranks, the table of R42 by
mode. -/
theorem modeRequests : Obligations.ModeRequests := by
  refine ⟨?_, ?_, ?_⟩
  · simp only [List.forall_mem_cons]
    exact ⟨⟨fun _ _ => rfl, fun u hs => modeTake_request_cases hs _⟩, ⟨fun _ _ => rfl, fun u hs => modeTake_request_cases hs _⟩,
      ⟨fun _ _ => rfl, fun u hs => modeTake_request_cases hs _⟩, ⟨fun _ _ => rfl, fun u hs => modeTake_request_cases hs _⟩,
      ⟨fun _ _ => rfl, fun u hs => modeTake_request_cases hs _⟩, ⟨fun _ _ => rfl, fun u hs => modeTake_request_cases hs _⟩,
      ⟨fun _ _ => rfl, fun u hs => modeTake_request_cases hs _⟩, nofun⟩
  · intro s edge a b
    dsimp only
    refine ⟨fun ha hes => ?_, fun ha hes => ?_, fun ha hb hr hes => ?_, fun st m on => by simp [ModeEv.rank], fun _ h => takeHeld_idle h⟩
    · have hs : ({ s with sys := { s.sys with events := [a] } } : State) = s := by rw [← hes]
      rw [closeEdge_eq, hes]
      simp [ha, Nat.not_le.mpr ha, hs, byRank, List.range_succ]
    · rw [closeEdge_eq, hes]
      simp [ha, Nat.not_lt.mpr ha, byRank_one]
    · obtain ⟨h1, h2⟩ := byRank_two hr
      rcases hes with hes | hes <;> rw [closeEdge_eq, hes] <;>
        simp [ha, hb, Nat.not_lt.mpr ha, Nat.not_lt.mpr hb, h1, h2]
  · intro s
    dsimp only
    refine ⟨?_, fun h => ?_, fun h => ?_, fun h => ?_, fun h => ?_, fun h => ?_, fun h => ?_, fun h => ?_⟩
    · cases h : s.mode <;> simp [State.modeRefusal, h]
    · simp only [State.modeRefusal, h, State.stage]
      exact ⟨rfl, rfl, trivial⟩
    · simp [State.modeRefusal, h]
    · simp [State.modeRefusal, h]
    · simp [State.modeRefusal, h]
    · simp [State.modeRefusal, h]
    · simp only [State.modeRefusal, h, State.safeDone]
      exact ⟨rfl, rfl⟩
    · simp [State.modeRefusal, h, State.manualMotion]
end Sys2Proof.Machine
end

section
/-! Entering a mode, SAFE triggers and the end of a change (R41, R42, R44-R48, R62, R505). -/

namespace Sys2Proof.Machine

/-! ### A mode is entered -/

theorem mode_code_lt (m : Mode) : m.code < 8 := by cases m <;> decide

section
variable (s : State) (m : Mode)

theorem enterMode_code : (s.enterMode m).f Reg.SYS_MODE 2 0 = m.code := by
  have h := Nat.mod_eq_of_lt (mode_code_lt m)
  cases m <;> simp (disch := decide) only [State.enterMode, State.setMode, f_ite, f_setB_field, f_setF_field, f_setF_self,
    f_setReg_ne, ite_self] <;> exact h

@[simp] theorem enterMode_mode : (s.enterMode m).mode = m := by
  rw [State.mode, enterMode_code, mode_ofCode_code]

@[simp] theorem enterMode_trans : (s.enterMode m).trans = false := by
  cases m <;> simp (disch := decide) only [State.enterMode, State.setMode, State.trans, fb_ite, fb_setB_self, fb_setB_bit,
    fb_setReg_ne, ite_self]

theorem enterMode_reg {a : Nat} (h1 : a ≠ Reg.SYS_MODE) (h2 : a ≠ Reg.SYS_SVC_MOTION) (h3 : a ≠ Reg.SYS_SVC_MOTION_STP) :
    (s.enterMode m).reg a = s.reg a := by
  cases m <;> simp (disch := assumption) only [State.enterMode, State.setMode, reg_ite, reg_setB_ne, reg_setF_ne,
    reg_setReg_ne, ite_self]

theorem enterMode_heldBit : (s.enterMode m).fb Reg.SYS_MODE 11 = s.fb Reg.SYS_MODE 11 := by
  cases m <;> simp (disch := decide) only [State.enterMode, State.setMode, fb_ite, fb_setB_bit, fb_setF_field, fb_setReg_ne,
    ite_self]

theorem enterMode_kept : (s.enterMode m).mem = s.mem ∧ (s.enterMode m).tt = s.tt ∧ (s.enterMode m).pwr = s.pwr := by
  cases m <;> simp [State.enterMode, State.setMode, mem_ite, tt_ite, pwr_ite]

/-- A mode that ends SERVICE ends manual motion. -/
theorem enterMode_endsManual (h : s.mode = .service) :
    (s.enterMode m).reg Reg.SYS_SVC_MOTION = 0 ∧ (s.enterMode m).reg Reg.SYS_SVC_MOTION_STP = 0 := by
  cases m <;> simp (disch := decide) [State.enterMode, State.setMode, h, reg_setB_ne, reg_setReg_ne]

end

/-! ### A change (R44) -/

section
variable (s : State) (m : Mode)

theorem beginChange_none : s.beginChange m [] [] = s.enterMode m := rfl

variable {up down : List Nat} (h : up ≠ [] ∨ down ≠ [])
include h

/-- A change that moves domains has its target and leaves the mode. -/
theorem beginChange_moves : (s.beginChange m up down).mode = s.mode ∧ (s.beginChange m up down).trans = true ∧
    (s.beginChange m up down).f Reg.SYS_MODE 6 4 = m.code ∧ (s.beginChange m up down).pwr.left = up ++ down ∧
    ∀ a, a ≠ Reg.SYS_MODE → (s.beginChange m up down).reg a = s.reg a := by
  have he : (up.isEmpty && down.isEmpty) = false := by
    rw [Bool.and_eq_false_iff]
    exact h.imp (by simp) (by simp)
  have hr : ∀ a, (s.beginChange m up down).reg a = ((s.setF Reg.SYS_MODE 6 4 m.code).setB Reg.SYS_MODE 3 true).reg a := by
    intro a
    rw [State.beginChange, he]
    rfl
  have hf : ∀ a hi lo, (s.beginChange m up down).f a hi lo =
      ((s.setF Reg.SYS_MODE 6 4 m.code).setB Reg.SYS_MODE 3 true).f a hi lo := by
    intro a hi lo
    rw [State.f, hr, State.f]
  refine ⟨?_, ?_, ?_, ?_, fun a ha => ?_⟩
  · rw [State.mode, hf, f_setB_field _ (by decide) (by decide), f_setF_field _ _ (by decide) (by decide) (by decide),
      State.mode]
  · rw [State.trans, State.fb, hr]
    exact fb_setB_self _ _ (by decide) true
  · rw [hf, f_setB_field _ (by decide) (by decide), f_setF_self _ _ (by decide) (by decide)]
    exact Nat.mod_eq_of_lt (mode_code_lt m)
  · rw [State.beginChange, he]
    rfl
  · rw [hr, reg_setB_ne _ ha, reg_setF_ne _ ha]

end

theorem firstReady_facts (s : State) : s.firstReady.fb Reg.SYS_PROFILE 1 = true ∧ s.firstReady.fb Reg.SEC_BOOT 2 = true ∧
    s.firstReady.mode = s.mode := by
  refine ⟨fb_setB_self _ _ (by decide) true, ?_, ?_⟩
  · rw [State.firstReady, fb_setB_ne _ (by decide)]
    exact fb_setB_self _ _ (by decide) true
  · rw [State.mode, State.firstReady, f_setB_ne _ (by decide), f_setB_ne _ (by decide), State.mode]

/-- The way to READY from STANDBY or BOOT. -/
theorem firstReady_change (s : State) (up : List Nat) :
    (s.firstReady.beginChange .ready up []).fb Reg.SYS_PROFILE 1 = true ∧
    (s.firstReady.beginChange .ready up []).fb Reg.SEC_BOOT 2 = true ∧
    (up = [] → (s.firstReady.beginChange .ready up []).mode = .ready ∧
      (s.firstReady.beginChange .ready up []).trans = false) ∧
    (up ≠ [] → (s.firstReady.beginChange .ready up []).mode = s.mode ∧
      (s.firstReady.beginChange .ready up []).trans = true ∧
      (s.firstReady.beginChange .ready up []).f Reg.SYS_MODE 6 4 = Mode.ready.code ∧
      (s.firstReady.beginChange .ready up []).pwr.left = up) := by
  obtain ⟨h1, h2, h3⟩ := firstReady_facts s
  have hreg : ∀ a, a ≠ Reg.SYS_MODE → a ≠ Reg.SYS_SVC_MOTION → a ≠ Reg.SYS_SVC_MOTION_STP →
      (s.firstReady.beginChange .ready up []).reg a = s.firstReady.reg a := by
    intro a ha hb hc
    by_cases he : up = []
    · rw [he, beginChange_none]
      exact enterMode_reg _ _ ha hb hc
    · exact (beginChange_moves s.firstReady .ready (Or.inl he)).2.2.2.2 a ha
  refine ⟨?_, ?_, fun he => ?_, fun he => ?_⟩
  · rw [State.fb, hreg _ (by decide) (by decide) (by decide)]
    exact h1
  · rw [State.fb, hreg _ (by decide) (by decide) (by decide)]
    exact h2
  · rw [he, beginChange_none]
    exact ⟨enterMode_mode _ _, enterMode_trans _ _⟩
  · obtain ⟨b1, b2, b3, b4, -⟩ := beginChange_moves s.firstReady .ready (Or.inl he : up ≠ [] ∨ ([] : List Nat) ≠ [])
    exact ⟨b1.trans h3, b2, b3, by rw [b4, List.append_nil]⟩

/-! ### The end of a check (R62) -/

section
variable (s : State)

theorem resqPush_kept (r : ResRecord) : (s.resqPush r).tt = s.tt ∧
    ∀ a, a ≠ Reg.TT_RESQ_HEAD → (s.resqPush r).reg a = s.reg a := by
  unfold State.resqPush
  dsimp only
  split
  · exact ⟨rfl, fun a ha => reg_setF_ne _ ha _ _ _⟩
  · exact ⟨rfl, fun a ha => reg_setF_ne _ ha _ _ _⟩

theorem resRecord_kept (r : ResRecord) : (s.resRecord r).2.tt.check = s.tt.check ∧
    (s.resRecord r).2.tt.queue = s.tt.queue ∧
    ∀ a, a ≠ Reg.TT_RESQ_HEAD → (s.resRecord r).2.reg a = s.reg a := by
  obtain ⟨h1, h2⟩ := resqPush_kept s r
  unfold State.resRecord
  split
  · exact ⟨by rw [h1], by rw [h1], h2⟩
  · exact ⟨rfl, rfl, fun _ _ => rfl⟩

/-- A refusal record leaves the check, the queue, and every register but the ring's head and its count. -/
theorem refuseImage_kept (ready : Bool) (addr reason detail cand : Nat) :
    (s.refuseImage ready addr reason detail cand).tt.check = s.tt.check ∧
    (s.refuseImage ready addr reason detail cand).tt.queue = s.tt.queue ∧
    ∀ a, a ≠ Reg.TT_RESQ_HEAD → a ≠ Reg.TT_CNT_REFUSE →
      (s.refuseImage ready addr reason detail cand).reg a = s.reg a := by
  unfold State.refuseImage
  dsimp only
  have h := resRecord_kept (s.incSat Reg.TT_CNT_REFUSE 31 0)
  exact ⟨(h _).1, (h _).2.1, fun a ha hb => ((h _).2.2 a ha).trans (reg_incSat_ne s hb _ _ _)⟩

theorem abortCheck_kept (reason : Nat) : (s.abortCheck reason).tt.check = none ∧
    (s.abortCheck reason).tt.queue = s.tt.queue ∧
    ∀ a, a ≠ Reg.TT_RESQ_HEAD → a ≠ Reg.TT_CNT_REFUSE → (s.abortCheck reason).reg a = s.reg a := by
  unfold State.abortCheck
  split
  · rename_i h
    exact ⟨h, rfl, fun _ _ _ => rfl⟩
  · rename_i c h
    exact refuseImage_kept { s with tt := { s.tt with check := none } } c.dramReady c.addr reason noDetail 0xFF

theorem closeAdmission_kept : s.closeAdmission.tt.queue = [] ∧ s.closeAdmission.tt.check = none ∧
    s.closeAdmission.mode = s.mode := by
  obtain ⟨h1, -, h3⟩ := abortCheck_kept s rCLOSED
  have hmode : ∀ u : State, u.reg Reg.SYS_MODE = s.reg Reg.SYS_MODE → u.mode = s.mode := fun u h => by
    rw [State.mode, State.f, h, State.mode, State.f]
  unfold State.closeAdmission
  dsimp only
  refine foldl_invariant (P := fun u : State => u.tt.queue = [] ∧ u.tt.check = none ∧ u.mode = s.mode) ?_
    ⟨rfl, h1, hmode _ (h3 _ (by decide) (by decide))⟩
  intro u a _ ⟨hq, hc, hm⟩
  obtain ⟨k1, k2, k3⟩ := refuseImage_kept u u.dramReady a rCLOSED noDetail 0xFF
  refine ⟨k2.trans hq, k1.trans hc, ?_⟩
  rw [State.mode, State.f, k3 _ (by decide) (by decide)]
  exact hm

end

/-! ### A filtered input (R48) -/

/-- An input after n samples of one value. -/
def InFilter.fed (i : InFilter) (v : Bool) (n : Nat) : InFilter := (List.replicate n v).foldl (fun x v => x.sample 7 v) i

section
variable (i : InFilter) (v : Bool)

theorem fed_succ (n : Nat) : i.fed v (n + 1) = (i.fed v n).sample 7 v := by
  rw [InFilter.fed, List.replicate_succ', List.foldl_append]
  rfl

/-- Equal samples lengthen the run by one each. -/
theorem fed_run (n : Nat) (h : n < 65536) : (i.fed v (n + 1)).raw = v ∧ n + 1 ≤ (i.fed v (n + 1)).run := by
  induction n with
  | zero =>
    refine ⟨rfl, ?_⟩
    rw [fed_succ, InFilter.sample]
    dsimp only
    split <;> omega
  | succ n ih =>
    obtain ⟨hraw, hrun⟩ := ih (by omega)
    refine ⟨by rw [fed_succ]; rfl, ?_⟩
    have hc : (decide ((i.fed v (n + 1)).raw = v) && decide (0 < (i.fed v (n + 1)).run)) = true := by
      simp [hraw, show 0 < (i.fed v (n + 1)).run from by omega]
    rw [fed_succ, InFilter.sample]
    dsimp only
    rw [if_pos hc]
    omega

/-- The eighth equal sample gives the level. -/
theorem fed_eight : (i.fed v 8).level = some v := by
  obtain ⟨hraw, hrun⟩ : (i.fed v 7).raw = v ∧ 7 ≤ (i.fed v 7).run := fed_run i v 6 (by omega)
  have hc : (decide ((i.fed v 7).raw = v) && decide (0 < (i.fed v 7).run)) = true := by
    simp [hraw, show 0 < (i.fed v 7).run from by omega]
  rw [fed_succ, InFilter.sample]
  dsimp only
  rw [if_pos hc, if_pos (by omega)]

variable {i v}

/-- Before it, samples of the other value leave the level. -/
theorem fed_few (h : i.raw = !v) (n : Nat) (hn : n < 7) :
    (i.fed v (n + 1)).raw = v ∧ (i.fed v (n + 1)).run = n + 1 ∧ (i.fed v (n + 1)).level = i.level := by
  induction n with
  | zero =>
    have hc : ¬ (decide (i.raw = v) && decide (0 < i.run)) = true := by
      rw [h]
      cases v <;> simp
    rw [fed_succ, show i.fed v 0 = i from rfl, InFilter.sample]
    dsimp only
    rw [if_neg hc]
    exact ⟨rfl, rfl, rfl⟩
  | succ n ih =>
    obtain ⟨hraw, hrun, hlevel⟩ := ih (by omega)
    have hc : (decide ((i.fed v (n + 1)).raw = v) && decide (0 < (i.fed v (n + 1)).run)) = true := by
      simp [hraw, hrun]
    rw [fed_succ, InFilter.sample]
    dsimp only
    rw [if_pos hc, hrun, if_neg (by omega)]
    exact ⟨rfl, by omega, hlevel⟩

end

/-! ### SAFE triggers (R41, R44, R48, R62) -/

theorem mode_of_reg {s u : State} (h : s.reg Reg.SYS_MODE = u.reg Reg.SYS_MODE) : s.mode = u.mode ∧ s.trans = u.trans ∧
    s.f Reg.SYS_MODE 6 4 = u.f Reg.SYS_MODE 6 4 := by
  refine ⟨?_, ?_, ?_⟩
  · rw [State.mode, State.f, h, State.mode, State.f]
  · rw [State.trans, State.fb, h, State.trans, State.fb]
  · rw [State.f, h, State.f]

section
variable {u : State} (hs : u.pwr.shut = false)
include hs

theorem safeTrigger_still (ht : u.trans = false) :
    (u.mode = .ready ∨ u.mode = .print ∨ u.mode = .drain ∨ u.mode = .service →
      u.safeTrigger = (u.abortCheck rABORTED).enterSafe) ∧
    (u.mode = .archive ∨ u.mode = .standby ∨ u.mode = .boot →
      u.safeTrigger = (u.abortCheck rABORTED).setB Reg.SYS_MODE 19 true) ∧
    (u.mode = .safe → u.safeTrigger = u.abortCheck rABORTED) := by
  obtain ⟨-, -, hreg⟩ := abortCheck_kept u rABORTED
  obtain ⟨hm, htr, -⟩ := mode_of_reg (hreg Reg.SYS_MODE (by decide) (by decide))
  refine ⟨fun h => ?_, fun h => ?_, fun h => ?_⟩
  · rcases h with h | h | h | h <;> simp only [State.safeTrigger, hs, htr, ht, hm, h, Bool.false_eq_true, if_false]
  · rcases h with h | h | h <;> simp only [State.safeTrigger, hs, htr, ht, hm, h, Bool.false_eq_true, if_false]
  · simp only [State.safeTrigger, hs, htr, ht, hm, h, Bool.false_eq_true, if_false]

theorem safeTrigger_change (ht : u.trans = true) :
    (u.f Reg.SYS_MODE 6 4 = Mode.ready.code → u.safeTrigger = (u.abortCheck rABORTED).endInSafe) ∧
    (u.f Reg.SYS_MODE 6 4 ≠ Mode.ready.code →
      u.safeTrigger = (u.abortCheck rABORTED).setB Reg.SYS_MODE 19 true) := by
  obtain ⟨-, -, hreg⟩ := abortCheck_kept u rABORTED
  obtain ⟨-, htr, hf⟩ := mode_of_reg (hreg Reg.SYS_MODE (by decide) (by decide))
  have hgo : u.safeTrigger = if u.f Reg.SYS_MODE 6 4 = Mode.ready.code then (u.abortCheck rABORTED).endInSafe
      else (u.abortCheck rABORTED).setB Reg.SYS_MODE 19 true := by
    rw [State.safeTrigger, if_neg (by simp [hs])]
    dsimp only
    rw [if_pos (by rw [htr, ht]), hf]
  exact ⟨fun h => hgo.trans (if_pos h), fun h => hgo.trans (if_neg h)⟩

end

theorem modeTake_interlock (u : State) :
    (u.sys.intlk = false → u.modeTake (.interlock true) =
      ({ u with sys := { u.sys with intlk := true } } : State).modeTake .safe) ∧
    (u.sys.intlk = true → u.modeTake (.interlock true) = { u with sys := { u.sys with intlk := true } }) ∧
    u.modeTake (.interlock false) = { u with sys := { u.sys with intlk := false } } := by
  refine ⟨fun h => ?_, fun h => ?_, rfl⟩ <;>
  · simp only [State.modeTake, h]
    rfl

/-! ### Samples of INTLK_N and the end of a change -/

theorem exec_intlkAssert (s : State) (t : Tick) (ls : List Bool) :
    exec (.intlkAssert ⟨t, ls⟩) s = .next ((s.at t).intlkSamples ls) := rfl

theorem exec_intlkNegate (s : State) (t : Tick) (ls : List Bool) :
    exec (.intlkNegate ⟨t, ls⟩) s = .next ((s.at t).intlkSamples ls) := rfl

section
variable {u : State} {ls : List Bool}

theorem intlkSamples_turned
    (h : u.sys.intlkIn.level ≠ (ls.foldl (fun x v => x.sample 7 v) u.sys.intlkIn).level) :
    u.intlkSamples ls = ({ u with sys := { u.sys with
      intlkIn := ls.foldl (fun x v => x.sample 7 v) u.sys.intlkIn } } : State).modeEvent ((u.now + 255) / 256 * 256)
        (.interlock ((ls.foldl (fun x v => x.sample 7 v) u.sys.intlkIn).level == some false)) := by
  rw [State.intlkSamples]
  dsimp only
  rw [if_pos (bne_iff_ne.mpr h)]
  rfl

theorem intlkSamples_same
    (h : u.sys.intlkIn.level = (ls.foldl (fun x v => x.sample 7 v) u.sys.intlkIn).level) :
    u.intlkSamples ls = { u with sys := { u.sys with
      intlkIn := ls.foldl (fun x v => x.sample 7 v) u.sys.intlkIn } } := by
  rw [State.intlkSamples]
  dsimp only
  rw [if_neg (by rw [← h]; simp)]

/-- The end of a change to another mode than ARCHIVE or SAFE, with no request held. -/
theorem changeEnd_plain {m : Mode} (ha : m ≠ .archive) (hs : m ≠ .safe) (hf : u.f Reg.SYS_MODE 6 4 = m.code)
    (hh : u.fb Reg.SYS_MODE 11 = false) : u.changeEnd =
      ({ u with pwr := { u.pwr with left := [], endSafe := false, archive := false, archAt := none, heldWake := false
                                    cur := none } } : State).enterMode m := by
  have hheld : ∀ v : State, v.regs = u.regs → (v.enterMode m).takeHeld = v.enterMode m := by
    intro v hv
    refine takeHeld_idle ?_
    rw [enterMode_heldBit, State.fb, reg_of_regs hv]
    exact hh
  rw [State.changeEnd]
  dsimp only
  rw [hf, mode_ofCode_code]
  cases m with
  | archive => exact absurd rfl ha
  | safe => exact absurd rfl hs
  | _ => exact hheld _ rfl

end

/-- Settles O23: an accepted request by the mode it leaves, a trigger by the mode it finds; the record of a check that
ends touches neither. -/
theorem modeEntryAndSafe : Obligations.ModeEntryAndSafe := by
  refine ⟨?_, ?_, ?_, ?_⟩
  · intro s
    dsimp only
    refine ⟨fun h => ?_, fun h => ?_, fun h => ?_, fun h => ?_, fun h => ?_, fun h => ?_⟩
    · simp only [State.modeAccept, h]
    · have hacc : s.modeAccept .ready = s.firstReady.beginChange .ready
          ((s.modeSet .ready).filter fun d => !s.domOn d && d ≠ 0) [] := by
        rcases h with h | h <;> simp only [State.modeAccept, h]
      rw [hacc]
      exact firstReady_change s _
    · have hacc : s.modeAccept .standby = s.beginChange .standby []
          (s.engineSet.reverse.filter fun d => !s.domDown d) := by simp only [State.modeAccept, h]
      refine ⟨by simp only [State.modeAccept, h, enterMode_mode], fun he => ?_, fun he => ?_⟩
      · rw [hacc, he, beginChange_none, enterMode_mode]
      · obtain ⟨b1, b2, -⟩ := beginChange_moves s .standby (up := []) (Or.inr he)
        rw [hacc]
        exact ⟨b1.trans h, b2⟩
    · obtain ⟨c1, c2, c3⟩ := closeAdmission_kept (s.enterMode .drain)
      simp only [State.modeAccept, h]
      exact ⟨c3.trans (enterMode_mode s .drain), c1, c2⟩
    · simp only [State.modeAccept, h, enterMode_mode]
    · obtain ⟨e1, e2⟩ := enterMode_endsManual s .ready h
      simp only [State.modeAccept, h]
      exact ⟨enterMode_mode s .ready, e1, e2⟩
  · intro s t ls
    dsimp only
    refine ⟨rfl, fun h => ?_, fun h => ?_, fun hm ht hr he => ?_, fun h => ?_, fun ht hd ha hh m hma hms hf => ?_,
      fun h => ?_⟩
    · rw [exec_intlkAssert, exec_intlkNegate, intlkSamples_turned h]
      exact ⟨rfl, rfl⟩
    · rw [exec_intlkAssert, exec_intlkNegate, intlkSamples_same h]
      exact ⟨rfl, rfl⟩
    · change execSafeSequenceComplete t s = _
      rw [execSafeSequenceComplete]
      simp only [hm, ht, hr, he]
      rfl
    · have hc : ((s.at t).mode == .safe && !(s.at t).trans && !(s.at t).runningOut && (s.at t).motionEnded) = false := by
        rcases h with h | h | h | h <;> simp [h]
      change execSafeSequenceComplete t s = _
      rw [execSafeSequenceComplete]
      simp only [hc, Bool.false_eq_true, if_false]
    · change ∃ v, execModeChangeDone t s = _ ∧ _
      rw [execModeChangeDone]
      generalize s.at t = u at *
      simp only [ht, hd, ha, Option.isSome_none, Bool.false_and, Bool.not_false, Bool.and_self, if_true]
      rw [changeEnd_plain hma hms hf hh]
      exact ⟨_, rfl, enterMode_mode _ m, enterMode_trans _ m, (enterMode_kept _ m).1⟩
    · have hc : ((s.at t).trans && !((s.at t).pwr.archAt.isSome && !(s.at t).pwr.archive) && (s.at t).changeDone) =
          false := by
        rcases h with h | h <;> simp [h]
      change execModeChangeDone t s = _
      rw [execModeChangeDone]
      simp only [hc, Bool.false_eq_true, if_false]
  · exact fun i v => ⟨fed_eight i v, fun h n hn => by
      cases n with
      | zero => rfl
      | succ n => exact (fed_few h n (by omega)).2.2⟩
  · intro u hs
    dsimp only
    exact ⟨(abortCheck_kept u rABORTED).1, safeTrigger_still hs, safeTrigger_change hs, modeTake_interlock u⟩
end Sys2Proof.Machine
end

section
/-! Admission, its checks and commitment (R43, R57-R62, R70, R90). -/

namespace Sys2Proof.Machine

/-! ### A free entry (R70) -/

theorem pickFree_mem {xs : List Nat} (h : xs ≠ []) (fresh : Nat) : ∃ k ∈ xs, pickFree xs fresh = some k := by
  match xs with
  | [] => exact absurd rfl h
  | [x] => exact ⟨x, List.mem_singleton_self x, rfl⟩
  | x :: y :: xs =>
    have hlt : Config.freeNat fresh % (x :: y :: xs).length < (x :: y :: xs).length := Nat.mod_lt _ (by simp)
    refine ⟨(x :: y :: xs)[Config.freeNat fresh % (x :: y :: xs).length], List.getElem_mem hlt, ?_⟩
    rw [pickFree, List.getD_eq_getElem _ _ hlt]
    · exact nofun
    · exact nofun

theorem freeEntry_free {s : State} (h : ∃ k < 128, s.sheet k = none) : s.freeEntry < 128 ∧ s.sheet s.freeEntry = none := by
  have hne : ((List.range 128).filter fun k => (s.sheet k).isNone) ≠ [] := by
    obtain ⟨k, hk, hn⟩ := h
    exact List.ne_nil_of_mem (List.mem_filter.mpr ⟨List.mem_range.mpr hk, by simp [hn]⟩)
  obtain ⟨k, hk, he⟩ := pickFree_mem hne s.fresh
  obtain ⟨hr, hn⟩ := List.mem_filter.mp hk
  rw [State.freeEntry, he, Option.getD_some]
  exact ⟨List.mem_range.mp hr, by simpa using hn⟩

/-! ### What the records and the slot tables leave -/

section
variable (s : State)

theorem requestSwap_kept : s.requestSwap.tt = s.tt ∧ ∀ a, a ≠ Reg.JCT_STATUS → s.requestSwap.reg a = s.reg a := by
  unfold State.requestSwap
  split
  · exact ⟨rfl, fun _ _ => rfl⟩
  · refine ⟨by simp, fun a ha => ?_⟩
    rw [reg_setB_ne _ ha]
    rfl

theorem ldgRecord_tt (cls kind units : Nat) (body : List Byte) : (s.ldgRecord cls kind units body).tt = s.tt := by
  unfold State.ldgRecord
  split
  · simp [State.ldgLost, State.incSat]
  · unfold State.ldgQueue
    split <;> rfl

theorem resRecord_sheets (r : ResRecord) : (s.resRecord r).2.tt.sheets = s.tt.sheets := by
  unfold State.resRecord
  split
  · rw [(resqPush_kept s r).1]
  · rfl

end

theorem sheet_of_sheets {s u : State} (h : s.tt.sheets = u.tt.sheets) (k : Nat) : s.sheet k = u.sheet k := by
  rw [State.sheet, h, State.sheet]

/-! ### Armed actions (R56) -/

theorem armList_length (l : ActList) (t : Tick) (i : Nat) (as : List Action) : (armList l t i as).length = as.length := by
  induction as generalizing i with
  | nil => rfl
  | cons a as ih => rw [armList, List.length_cons, List.length_cons, ih]

theorem armList_get (l : ActList) (t : Tick) (i : Nat) (as : List Action) {j : Nat} {a : Action} (h : as[j]? = some a) :
    (armList l t i as)[j]? = some { idx := i + j, list := l, act := a, time := t + a.offset } := by
  induction as generalizing i j with
  | nil => exact absurd h (by simp)
  | cons b as ih =>
    cases j with
    | zero =>
      obtain rfl : b = a := by simpa using h
      rfl
    | succ j =>
      have := ih (i + 1) (j := j) (by simpa using h)
      rw [armList, List.getElem?_cons_succ, this, Nat.add_right_comm, Nat.add_assoc]

/-! ### A commit (R70, R90) -/

/-- The sheet that a commit puts into its entry. -/
def committedSheet (img : Image) (cand : Nat) : Sheet :=
  { sheetId := img.sheetId, jobId := img.jobId, origin := img.earliest + cand * img.step, candidate := cand
    pnr := img.earliest + cand * img.step + ((img.main.find? (·.pnr)).map (·.offset)).getD 0
    claims := img.claims, armed := armList .main (img.earliest + cand * img.step) 0 img.main
    withdraw := img.withdraw, spoil := img.spoil, numMain := img.main.length, numWithdraw := img.withdraw.length }

/-- The word of its entry: committed, with the next generation. -/
def State.committedWord (s : State) : Word :=
  BitVec.ofNat 32 (stCOMMITTED + 16 * ((s.f (Reg.TT_SHEET s.freeEntry) 12 4 + 1) % 511))

/-- The entry, the TASK claims, the slot tables and the journal of a commit. -/
def State.entered (s : State) (img : Image) (cand : Nat) : State :=
  let k := s.freeEntry
  let u := (s.takeFresh.2.setSheet k (some (committedSheet img cand))).setReg (Reg.TT_SHEET k) s.committedWord
  let tasks := (absNew (img.earliest + cand * img.step) 0 img.claims).filterMap fun x =>
    if x.c.kind = kTASK then
      some ({ sheet := k, idx := x.idx.getD 0, start := x.start, stop := x.stop, c := x.c } : SqClaim) else none
  let u := { u with sq := { u.sq with claims := u.sq.claims ++ tasks } }
  let u := if img.claims.any (fun c => c.kind == kRTPORT) then u.requestSwap else u
  u.ldgRecord 3 0x01 1
    (bytesLE 4 img.sheetId ++ bytesLE 4 img.jobId ++ bytesLE 2 (u.handle k) ++ bytesLE 1 cand)

/-- A commit counts and records the entry, and takes READY to PRINT. -/
theorem commit_eq (s : State) (img : Image) (cand : Nat) : ∃ r : ResRecord, ∃ v : State,
    v = (((s.entered img cand).incSat Reg.TT_CNT_ADMIT 31 0).resRecord r).2 ∧
    s.commit img cand =
      if v.mode == .ready then (v.setF Reg.SYS_MODE 2 0 Mode.print.code).setF Reg.SYS_MODE 6 4 Mode.print.code else v :=
  ⟨_, _, rfl, rfl⟩

section
variable (s : State) (img : Image) (cand : Nat)

theorem entered_kept : (s.entered img cand).tt.sheets =
      Tab.put none s.tt.sheets s.freeEntry (some (committedSheet img cand)) ∧
    ∀ a, a ≠ Reg.JCT_STATUS → a < 0x21600000 →
      (s.entered img cand).reg a = (s.setReg (Reg.TT_SHEET s.freeEntry) s.committedWord).reg a := by
  unfold State.entered
  dsimp only
  refine ⟨?_, fun a ha hlt => ?_⟩
  · rw [ldgRecord_tt]
    split
    · rw [(requestSwap_kept _).1]
      rfl
    · rfl
  · rw [(ldgRecord_kept _ _ _ _ _).2.2 a hlt]
    split
    · rw [(requestSwap_kept _).2 a ha]
      rfl
    · rfl

/-- A commit's registers but those of the mode: the entry's, and the count of admissions. -/
theorem commit_kept : (s.commit img cand).tt.sheets =
      Tab.put none s.tt.sheets s.freeEntry (some (committedSheet img cand)) ∧
    (∀ a, a ≠ Reg.SYS_MODE → a ≠ Reg.TT_RESQ_HEAD →
      (s.commit img cand).reg a = ((s.entered img cand).incSat Reg.TT_CNT_ADMIT 31 0).reg a) ∧
    (s.mode = .ready → (s.commit img cand).mode = .print) ∧ (s.mode ≠ .ready → (s.commit img cand).mode = s.mode) := by
  obtain ⟨hs, hr⟩ := entered_kept s img cand
  obtain ⟨r, v, hv, he⟩ := commit_eq s img cand
  obtain ⟨-, -, hrec⟩ := resRecord_kept ((s.entered img cand).incSat Reg.TT_CNT_ADMIT 31 0) r
  have hsv : v.tt.sheets = (s.entered img cand).tt.sheets := by
    rw [hv, resRecord_sheets]
    rfl
  have hrv : ∀ a, a ≠ Reg.TT_RESQ_HEAD → v.reg a = ((s.entered img cand).incSat Reg.TT_CNT_ADMIT 31 0).reg a := by
    rw [hv]
    exact hrec
  have hm : v.mode = s.mode := by
    refine (mode_of_reg ?_).1
    rw [hrv _ (by decide), reg_incSat_ne _ (by decide), hr _ (by decide) (by decide),
      reg_setReg_ne _ (by simp only [Reg.TT_SHEET, Reg.SYS_MODE]; omega)]
  rw [he, hm]
  refine ⟨?_, fun a ha hb => ?_, fun h => ?_, fun h => ?_⟩
  · split <;> exact hsv.trans hs
  · split
    · rw [reg_setF_ne _ ha, reg_setF_ne _ ha, hrv a hb]
    · exact hrv a hb
  · rw [if_pos (by rw [h]; rfl), State.mode, f_setF_field _ _ (by decide) (by decide) (by decide),
      f_setF_self _ _ (by decide) (by decide)]
    rfl
  · rw [if_neg (by simpa using h)]
    exact hm

end

/-! ### The end of a check (R60) -/

theorem endCheck_eq {u : State} {c : Check} (hc : u.tt.check = some c) : u.modeTake (.checkEnd c.start) =
    (let d := u.clk.tb - c.start
     let x := { u with tt := { u.tt with check := none } }
     let y := if u.f Reg.TT_CHECK_MAX 31 0 < d then x.setF Reg.TT_CHECK_MAX 31 0 (min d 0xFFFFFFFF) else x
     if !c.modeOk || !y.admits then y.refuseImage c.dramReady c.addr rMODE noDetail 0xFF
     else
       match (y.imageUncor c.dramReady c.addr).readImage c.dramReady c.assigned c.addr with
       | .refused r _ _ => (y.imageUncor c.dramReady c.addr).refuseImage c.dramReady c.addr r noDetail 0xFF
       | .image img =>
         match evaluate c c.standing img with
         | .inl (r, dt, cand) => (y.imageUncor c.dramReady c.addr).refuseImage c.dramReady c.addr r dt cand
         | .inr cand => (y.imageUncor c.dramReady c.addr).commit img cand) := by
  change u.endCheck c.start = _
  rw [State.endCheck, hc]
  dsimp only
  rw [if_neg (not_not_intro rfl)]
  rfl

/-! ### The commands -/

theorem exec_submit {s : State} {t : Tick} {w : Word} (h : (s.at t).domOn 2 = true) :
    exec (.submit t w) s = .next ((s.at t).submit w) := by
  change execSubmit t w s = _
  rw [execSubmit]
  simp only [h, if_true]

/-- Settles O24: the end of a check by its outcome, a commit by the entry it takes and the records that leave it. -/
theorem admissionAndCommit : Obligations.AdmissionAndCommit := by
  refine ⟨⟨?_, ?_⟩, ?_⟩
  · intro s t w
    dsimp only
    refine ⟨fun hon => ⟨fun h => ?_, fun h => ?_⟩, fun a q hq => ⟨fun hc hh => ?_, fun hh => ?_, rfl, rfl, fun l => ?_⟩,
      fun hc => ?_, fun c hc => ?_⟩
    · rw [exec_submit hon, State.submit, if_pos h]
    · rw [exec_submit hon, State.submit, if_neg (Nat.not_lt.mpr h)]
    · change execCheckStart t s = _
      rw [execCheckStart]
      simp only [hq, hc, hh]
      rfl
    · change execCheckStart t s = _
      rw [execCheckStart]
      simp [hq, hh]
    · simp [State.snapshot]
    · change execCheckEnd t s = _
      rw [execCheckEnd]
      simp only [hc]
    · change execCheckEnd t s = _
      rw [execCheckEnd]
      simp only [hc]
  · intro u c hc
    dsimp only
    rw [endCheck_eq hc]
    dsimp only
    refine ⟨fun h => ?_, fun hm ha => ⟨fun r a b h => ?_, fun img h => ⟨fun r dt k he => ?_, fun k he => ?_⟩⟩⟩
    · rw [if_pos]
      rcases h with h | h <;> simp [h]
    · rw [if_neg (by simp [hm, ha]), h]
    · rw [if_neg (by simp [hm, ha]), h]
      dsimp only
      rw [he]
    · rw [if_neg (by simp [hm, ha]), h]
      dsimp only
      rw [he]
  · intro s img cand hfree
    dsimp only
    obtain ⟨hk, hn⟩ := freeEntry_free hfree
    obtain ⟨hs, hr, hm1, hm2⟩ := commit_kept s img cand
    obtain ⟨-, her⟩ := entered_kept s img cand
    have hword : (s.commit img cand).reg (Reg.TT_SHEET s.freeEntry) = s.committedWord := by
      rw [hr _ (by simp only [Reg.TT_SHEET, Reg.SYS_MODE]; omega) (by simp only [Reg.TT_SHEET, Reg.TT_RESQ_HEAD]; omega),
        reg_incSat_ne _ (by simp only [Reg.TT_SHEET, Reg.TT_CNT_ADMIT]; omega),
        her _ (by simp only [Reg.TT_SHEET, Reg.JCT_STATUS]; omega) (by simp only [Reg.TT_SHEET]; omega), reg_setReg_self]
    refine ⟨hk, hn, ?_, ?_, ⟨committedSheet img cand, ?_, rfl, rfl, rfl, armList_length _ _ _ _, fun j a ha => ?_⟩,
      fun j hj => ?_, ?_, hm1, hm2⟩
    · rw [State.sheetState, State.f, hword, State.committedWord, bits, BitVec.toNat_ofNat, stCOMMITTED]
      omega
    · rw [State.f, hword, State.committedWord, bits, BitVec.toNat_ofNat, stCOMMITTED]
      omega
    · rw [State.sheet, hs]
      exact Tab.get_put_self _ _ _ _
    · exact ⟨_, armList_get _ _ _ _ ha, rfl, Nat.zero_add _, rfl⟩
    · rw [State.sheet, hs]
      exact Tab.get_put_ne _ hj _ _
    · rw [State.f, hr _ (by decide) (by decide), ← State.f, f_incSat_self _ _ (by decide) (by decide)]
      rw [State.f, her _ (by decide) (by decide), reg_setReg_ne _ (by simp only [Reg.TT_SHEET, Reg.TT_CNT_ADMIT]; omega),
        ← State.f]
      exact satAdd_one (f_lt _ _ 31 0)

end Sys2Proof.Machine
end

section
/-! Outcomes of a sheet and the times of its PNR, its windows and its actions (R71-R74, R77, R79, R82). -/

namespace Sys2Proof.Machine

/-! ### What the streams of a sheet leave -/

/-- `u` keeps of `s` the Timetable, the clocks, memory, the points, and the registers below the blocks of FX and EXP. -/
structure TtKept (s u : State) : Prop where
  tt : u.tt = s.tt
  clk : u.clk = s.clk
  mem : u.mem = s.mem
  points : u.points = s.points
  reg : ∀ a < 0x20A00000, u.reg a = s.reg a

theorem TtKept.refl (s : State) : TtKept s s := ⟨rfl, rfl, rfl, rfl, fun _ _ => rfl⟩

theorem TtKept.trans {s u v : State} (h : TtKept s u) (k : TtKept u v) : TtKept s v :=
  ⟨k.tt.trans h.tt, k.clk.trans h.clk, k.mem.trans h.mem, k.points.trans h.points,
    fun a ha => (k.reg a ha).trans (h.reg a ha)⟩

/-- An update of the units that have no registers of their own there. -/
theorem TtKept.of_regs {s u : State} (h1 : u.tt = s.tt) (h2 : u.clk = s.clk) (h3 : u.mem = s.mem) (h4 : u.points = s.points)
    (h5 : u.regs = s.regs) : TtKept s u := ⟨h1, h2, h3, h4, fun a _ => reg_of_regs h5 a⟩

theorem TtKept.foldl {α : Type} {f : State → α → State} (h : ∀ s x, TtKept s (f s x)) (l : List α) (s : State) :
    TtKept s (l.foldl f s) :=
  foldl_invariant (P := TtKept s) (fun a b _ ha => ha.trans (h a b)) (TtKept.refl s)

section
variable (s : State)

theorem ttKept_modExp (st : Nat) (g : Exp → Exp) : TtKept s (s.modExp st g) := .of_regs rfl rfl rfl rfl rfl

theorem ttKept_setStreams (st : Nat) (xs : List Stream) : TtKept s (s.setStreams st xs) := .of_regs rfl rfl rfl rfl rfl

theorem ttKept_setReg {a : Nat} (h : 0x20A00000 ≤ a) (v : Word) : TtKept s (s.setReg a v) :=
  ⟨rfl, rfl, rfl, rfl, fun b hb => reg_setReg_ne s (by omega) v⟩

theorem ttKept_setPair {lo hi : Nat} (h : 0x20A00000 ≤ lo) (h' : 0x20A00000 ≤ hi) (v : Nat) : TtKept s (s.setPair lo hi v) :=
  (ttKept_setReg s h _).trans (ttKept_setReg _ h' _)

theorem ttKept_blankSheet (h : Nat) : TtKept s (s.blankSheet h) := by
  refine TtKept.foldl (fun s st => ?_) _ s
  split
  · split
    · exact .of_regs rfl rfl rfl rfl rfl
    · exact TtKept.refl s
  · exact TtKept.refl s

theorem ttKept_stopLanes (st ln0 : Nat) : TtKept s (s.stopLanes st ln0) := by
  refine TtKept.foldl (fun s n => ?_) _ s
  split
  · split
    · exact (ttKept_setReg s (by decide) _).trans (.of_regs rfl rfl rfl rfl rfl)
    · exact .of_regs rfl rfl rfl rfl rfl
  · exact TtKept.refl s

theorem ttKept_advanceFilled (st : Nat) : TtKept s (s.advanceFilled st) := by
  unfold State.advanceFilled
  exact (ttKept_setPair s (by simp only [Reg.FX_STREAM_FILLED_LO]; omega) (by simp only [Reg.FX_STREAM_FILLED_HI]; omega)
    _).trans (.of_regs rfl rfl rfl rfl rfl)

theorem ttKept_advanceReleased (st : Nat) : TtKept s (s.advanceReleased st) :=
  ttKept_setPair s (by simp only [Reg.EXP_RELEASED_LO]; omega) (by simp only [Reg.EXP_RELEASED_HI]; omega) _

theorem ttKept_updateCredit (st : Nat) : TtKept s (s.updateCredit st) := ttKept_setStreams s st _

theorem ttKept_endStream (st : Nat) (x : Stream) : TtKept s (s.endStream st x) := by
  unfold State.endStream
  dsimp only
  refine TtKept.trans ?_ (ttKept_updateCredit _ st)
  refine TtKept.trans ?_ (ttKept_advanceReleased _ st)
  refine TtKept.trans ?_ (ttKept_advanceFilled _ st)
  have h := ttKept_stopLanes s st x.ln0
  generalize s.stopLanes st x.ln0 = u at *
  exact h.trans (.of_regs rfl rfl rfl rfl rfl)

theorem ttKept_endSheet (h : Nat) : TtKept s (s.endSheet h) := by
  refine (ttKept_blankSheet s h).trans (TtKept.foldl (fun s st => ?_) _ _)
  exact (((TtKept.foldl (fun s x => ttKept_endStream s st x) _ s).trans (ttKept_modExp _ st _)).trans
    (ttKept_advanceReleased _ st)).trans (ttKept_updateCredit _ st)

theorem ttKept_dropWindows (k : Nat) : TtKept s (s.dropWindows k) := .of_regs rfl rfl rfl rfl rfl

end

/-- The mode that the last sheet leaves. -/
theorem lastSheetDone_kept (s : State) : s.lastSheetDone.tt = s.tt ∧ s.lastSheetDone.clk = s.clk ∧
    ∀ a, a ≠ Reg.SYS_MODE → s.lastSheetDone.reg a = s.reg a := by
  unfold State.lastSheetDone
  split
  · exact ⟨rfl, rfl, fun a ha => by rw [reg_setF_ne _ ha, reg_setF_ne _ ha]⟩
  · exact ⟨rfl, rfl, fun _ _ => rfl⟩

theorem tryFree_open {s : State} {k : Nat} {sh : Sheet} (hk : s.sheet k = some sh) (h : s.clk.tb < sh.lastEnd) :
    s.tryFree k = s := by
  rw [State.tryFree, hk]
  dsimp only
  rw [if_neg (by simp [Nat.not_le.mpr h])]

/-! ### An outcome (R49, R72) -/

/-- The actions that an outcome arms. -/
def State.newArms (s : State) (sh : Sheet) : Option ActList → List Armed
  | some .withdraw => armList .withdraw s.clk.tb sh.numMain sh.withdraw
  | some .spoil => armList .spoil s.clk.tb (sh.numMain + sh.numWithdraw) sh.spoil
  | _ => []

/-- The state, the count and the journal of an outcome. -/
def State.declared (s : State) (k st reason detail : Nat) (sh : Sheet) : State :=
  let out := if st = stDELIVERED then s.tt.deliveredOut + 1 else s.tt.deliveredOut
  let u := { s with tt := { s.tt with deliveredOut := out } }
  let u := (u.setF (Reg.TT_SHEET k) 3 0 st).setF (Reg.TT_SHEET k) 23 16 reason
  let u := u.incSat (outcomeCounter st) 31 0
  u.ldgRecord 3 0x02 2 (outcomeBody sh (u.handle k) st reason detail out)

section
variable {s : State} {k : Nat} {sh : Sheet} (hk : s.sheet k = some sh) (st reason detail : Nat) (keep : Armed → Bool)
  (arm : Option ActList)

/-- The record of an outcome. -/
def State.outcomeRecord (u : State) (k st reason detail : Nat) (sh : Sheet) : ResRecord :=
  { sheetId := sh.sheetId, jobId := sh.jobId, time := u.clk.tb, origin := sh.origin, handle := u.handle k, kind := st
    reason := reason, detail := detail, candidate := sh.candidate }

/-- The sheet with its outcome. -/
def doneSheet (sh : Sheet) (keep : Armed → Bool) (arms : List Armed) (t : Tick) (detail : Nat) (at' : Option Nat) : Sheet :=
  { sh with armed := sh.armed.filter keep ++ arms, outAt := t, detail := detail, recAt := at'
            hadT0 := sh.armed.any fun a => a.list == .main && a.act.cls == 0 }

/-- What follows an outcome: its event, its streams and windows, the mode and the entry. -/
def State.afterOutcome (v : State) (k st : Nat) : State :=
  let v := if st = stSPOILED then v.raise srcTT 1 else v
  ((v.endSheet (v.handle k)).dropWindows k).lastSheetDone.tryFree k

include hk in
theorem outcome_eq : s.outcome k st reason detail keep arm =
    (let u := s.declared k st reason detail sh
     let v := u.resRecord (u.outcomeRecord k st reason detail sh)
     (v.2.setSheet k (some (doneSheet sh keep (s.newArms sh arm) v.2.clk.tb detail v.1))).afterOutcome k st) := by
  unfold State.outcome
  rw [hk]
  rfl

end

theorem sheet_setSheet_self (s : State) (k : Nat) (x : Option Sheet) : (s.setSheet k x).sheet k = x :=
  Tab.get_put_self none k x s.tt.sheets

theorem afterOutcome_kept {v : State} {k : Nat} {x : Sheet} (hx : v.sheet k = some x) (ht : v.clk.tb < x.lastEnd) (st : Nat) :
    (v.afterOutcome k st).sheet k = some x ∧
    ∀ a < 0x20A00000, a ≠ Reg.SYS_MODE → (v.afterOutcome k st).reg a = v.reg a := by
  have h0 : TtKept v (if st = stSPOILED then v.raise srcTT 1 else v) := by
    split
    · exact .of_regs rfl rfl rfl rfl rfl
    · exact TtKept.refl v
  unfold State.afterOutcome
  dsimp only
  generalize (if st = stSPOILED then v.raise srcTT 1 else v) = w at *
  have h1 := (h0.trans (ttKept_endSheet w (w.handle k))).trans (ttKept_dropWindows _ k)
  generalize (w.endSheet (w.handle k)).dropWindows k = y at *
  obtain ⟨l1, l2, l3⟩ := lastSheetDone_kept y
  have hsheet : y.lastSheetDone.sheet k = some x := by
    rw [sheet_of_sheets (u := v) (by rw [l1, h1.tt]), hx]
  rw [tryFree_open hsheet (by rw [l2, h1.clk]; exact ht)]
  exact ⟨hsheet, fun a ha hm => (l3 a hm).trans (h1.reg a ha)⟩

theorem ldgRecord_clk (s : State) (cls kind units : Nat) (body : List Byte) :
    (s.ldgRecord cls kind units body).clk = s.clk := by
  unfold State.ldgRecord
  split
  · simp [State.ldgLost, State.incSat]
  · unfold State.ldgQueue
    split <;> rfl

theorem resRecord_clk (s : State) (r : ResRecord) : (s.resRecord r).2.clk = s.clk := by
  unfold State.resRecord State.resqPush
  dsimp only
  split
  · dsimp only
    split <;> rfl
  · rfl

theorem outcomeCounter_mem (st : Nat) :
    outcomeCounter st ∈ [Reg.TT_CNT_DELIVER, Reg.TT_CNT_SPOIL, Reg.TT_CNT_WITHDRAW] := by
  unfold outcomeCounter
  split
  · simp
  · split <;> simp

section
variable (s : State) {k st reason : Nat} (detail : Nat) (sh : Sheet)

/-- The entry's word and the count of an outcome. -/
theorem declared_kept : (s.declared k st reason detail sh).clk = s.clk ∧
    ∀ a < 0x21600000, (s.declared k st reason detail sh).reg a =
      (((s.setF (Reg.TT_SHEET k) 3 0 st).setF (Reg.TT_SHEET k) 23 16 reason).incSat (outcomeCounter st) 31 0).reg a := by
  unfold State.declared
  dsimp only
  refine ⟨by rw [ldgRecord_clk]; rfl, fun a ha => ?_⟩
  rw [(ldgRecord_kept _ _ _ _ _).2.2 a ha]
  rfl

variable {sh} (hk : s.sheet k = some sh) (hk128 : k < 128) (hend : s.clk.tb < sh.lastEnd) (hst : st < 16) (hr : reason < 256)
  (keep : Armed → Bool) (arm : Option ActList)
include hk hk128 hend hst hr

/-- An outcome of a sheet whose windows have not ended. -/
theorem outcome_facts : (s.outcome k st reason detail keep arm).sheetState k = st ∧
    (s.outcome k st reason detail keep arm).f (Reg.TT_SHEET k) 23 16 = reason ∧
    (s.outcome k st reason detail keep arm).f (outcomeCounter st) 31 0 =
      min (2 ^ 32 - 1) (s.f (outcomeCounter st) 31 0 + 1) ∧
    ∃ x, (s.outcome k st reason detail keep arm).sheet k = some x ∧
      x.armed = sh.armed.filter keep ++ s.newArms sh arm ∧ x.outAt = s.clk.tb := by
  obtain ⟨hclk, hreg⟩ := declared_kept s (k := k) (st := st) (reason := reason) detail sh
  rw [outcome_eq hk]
  dsimp only
  generalize s.declared k st reason detail sh = u at *
  have hc2 := resRecord_clk u (u.outcomeRecord k st reason detail sh)
  obtain ⟨-, -, hreg2⟩ := resRecord_kept u (u.outcomeRecord k st reason detail sh)
  generalize u.resRecord (u.outcomeRecord k st reason detail sh) = v at *
  have htb : v.2.clk.tb = s.clk.tb := by rw [hc2, hclk]
  obtain ⟨hx, hreg3⟩ := afterOutcome_kept
    (v := v.2.setSheet k (some (doneSheet sh keep (s.newArms sh arm) v.2.clk.tb detail v.1))) (k := k)
    (x := doneSheet sh keep (s.newArms sh arm) v.2.clk.tb detail v.1) (sheet_setSheet_self _ _ _) (by rw [setSheet_clk, htb]; exact hend) st
  generalize (v.2.setSheet k (some (doneSheet sh keep (s.newArms sh arm) v.2.clk.tb detail v.1))).afterOutcome k st = w at *
  have hall : ∀ a < 0x20A00000, a ≠ Reg.SYS_MODE → a ≠ Reg.TT_RESQ_HEAD → w.reg a =
      (((s.setF (Reg.TT_SHEET k) 3 0 st).setF (Reg.TT_SHEET k) 23 16 reason).incSat (outcomeCounter st) 31 0).reg a :=
    fun a h1 h2 h3 => (hreg3 a h1 h2).trans ((hreg2 a h3).trans (hreg a (by omega)))
  have hcnt : outcomeCounter st < 0x20500100 ∧ 0x20500080 ≤ outcomeCounter st := by
    have hm := outcomeCounter_mem st
    simp only [List.mem_cons, List.not_mem_nil, or_false] at hm
    rcases hm with h | h | h <;> rw [h] <;> decide
  obtain ⟨hcnt1, hcnt2⟩ := hcnt
  have hne : Reg.TT_SHEET k ≠ outcomeCounter st := by simp only [Reg.TT_SHEET]; omega
  have hword : w.reg (Reg.TT_SHEET k) = putBits (putBits (s.reg (Reg.TT_SHEET k)) 3 0 st) 23 16 reason := by
    rw [hall _ (by simp only [Reg.TT_SHEET]; omega) (by simp only [Reg.TT_SHEET, Reg.SYS_MODE]; omega)
      (by simp only [Reg.TT_SHEET, Reg.TT_RESQ_HEAD]; omega), reg_incSat_ne _ hne, reg_setF_self, reg_setF_self]
  refine ⟨?_, ?_, ?_, ⟨doneSheet sh keep (s.newArms sh arm) v.2.clk.tb detail v.1, hx, rfl, htb⟩⟩
  · rw [State.sheetState, State.f, hword, bits_putBits_ne _ (by decide) (by decide) (by decide),
      bits_putBits_self _ (by decide) (by decide)]
    exact Nat.mod_eq_of_lt hst
  · rw [State.f, hword, bits_putBits_self _ (by decide) (by decide)]
    exact Nat.mod_eq_of_lt hr
  · rw [State.f, hall _ (by omega) (by simp only [Reg.SYS_MODE]; omega) (by simp only [Reg.TT_RESQ_HEAD]; omega), ← State.f,
      f_incSat_self _ _ (by decide) (by decide), f_setF_ne _ (Ne.symm hne), f_setF_ne _ (Ne.symm hne)]
    exact satAdd_one (f_lt _ _ 31 0)

end

/-! ### Removing an armed action (R71, R74) -/

section
variable (s : State) (k : Nat)

theorem modSheet_regs (g : Sheet → Sheet) : (s.modSheet k g).regs = s.regs := by
  unfold State.modSheet
  split <;> rfl

theorem dropArmed_regs (i : Nat) : (s.dropArmed k i).regs = s.regs := by
  unfold State.dropArmed
  split
  · rfl
  · exact modSheet_regs _ _ _

theorem sheetState_of_regs {s u : State} (h : s.regs = u.regs) (k : Nat) : s.sheetState k = u.sheetState k := by
  rw [State.sheetState, State.f, reg_of_regs h, State.sheetState, State.f]

end

theorem tryFree_early {s : State} {k : Nat} (h : s.sheetState k < stDELIVERED) : s.tryFree k = s := by
  unfold State.tryFree
  split
  · rfl
  · rw [if_neg (by simp [Nat.not_le.mpr h])]

/-- What the end of an action's tolerance does (R74, R79). -/
theorem exec_actionToleranceExpiry {s : State} {t : Tick} {k : Fin 128} {i : Nat} {a : Armed}
    (ha : (s.at t).armedAt k i = some a) (ht : a.time + classTol a.act.cls ≤ (s.at t).clk.tb) :
    exec (.actionToleranceExpiry t k i) s =
      if (s.at t).orphanAt k i = none ∧ a.list = .main ∧
          ((s.at t).sheetState k = stCOMMITTED ∨ (s.at t).sheetState k = stRUNNING) then
        .next ((if a.act.exit = true ∧ (s.at t).orphanAt k i = none then ((s.at t).dropArmed k i).exited k
          else (s.at t).dropArmed k i).cause k cACTION_LATE i)
      else .next (((if a.act.exit = true ∧ (s.at t).orphanAt k i = none then ((s.at t).dropArmed k i).exited k
          else (s.at t).dropArmed k i).incSat Reg.TT_CNT_LATE 31 0).tryFree k) := by
  change execActionToleranceExpiry t k i s = _
  rw [execActionToleranceExpiry]
  generalize s.at t = u at *
  simp only [ha, if_neg (Nat.not_lt.mpr ht), Bool.and_eq_true, Option.isNone_iff_eq_none]
  have hst : (if a.act.exit = true ∧ u.orphanAt k i = none then (u.dropArmed k i).exited k
      else u.dropArmed k i).sheetState k = u.sheetState k := by
    refine sheetState_of_regs ?_ k
    rw [regs_ite, State.exited, modSheet_regs, ite_self, dropArmed_regs]
  rw [hst]

/-- Settles O25: an outcome by the entry's word, its count and its sheet, which the streams that end leave; the times of a
sheet by their conditions. -/
theorem outcomesAndSheetTimes : Obligations.OutcomesAndSheetTimes := by
  refine ⟨?_, ?_⟩
  · intro s k reason detail sh hk hr hsh hend
    refine ⟨fun u hu => ?_, fun u hu => ?_, fun hst u hu => ?_, ?_⟩
    · obtain ⟨h1, h2, h3, x, hx, ha, ho⟩ := outcome_facts s detail hsh hk hend (st := stWITHDRAWN) (by decide) hr
        (fun _ => false) (some .withdraw)
      subst hu
      exact ⟨h1, h2, h3, x, hx, by rw [ha, List.filter_false]; rfl, ho⟩
    · obtain ⟨h1, h2, h3, x, hx, ha, ho⟩ := outcome_facts s detail hsh hk hend (st := stSPOILED) (by decide) hr
        (fun a => a.act.cls ≠ 0) (some .spoil)
      subst hu
      exact ⟨h1, h2, h3, x, hx, ho, ha⟩
    · have hstop : s.safeSheet k sh = s.stopSheet k cSAFE_ENTRY noDetail := by
        rw [State.safeSheet]
        dsimp only
        rw [if_pos]
        rcases hst with h | ⟨h, h'⟩
        · simp [h]
        · simp [h, h']
      obtain ⟨h1, h2, -, x, hx, ha, -⟩ := outcome_facts s noDetail hsh hk hend (st := stSPOILED) (reason := cSAFE_ENTRY)
        (by decide) (by decide) (fun _ => false) none
      subst hu
      rw [hstop]
      exact ⟨h1, h2, x, hx, by rw [ha, List.filter_false]; rfl⟩
    · dsimp only
      refine ⟨fun h => ?_, fun h => ?_⟩
      · rw [State.causeOnce, hsh]
        exact if_pos h
      · rw [State.causeOnce, hsh]
        dsimp only
        rw [h]
        rfl
  · intro s t k i sh
    dsimp only
    intro hsh
    refine ⟨fun hst hp => ?_, fun hp => ?_, fun c hc => ⟨fun he hst hi => ?_, fun he => ?_⟩, fun a ha =>
      ⟨fun ht => ?_, fun ht => ⟨fun ho => ?_, fun ho => ?_⟩⟩⟩
    · change execPnrReached t k s = _
      rw [execPnrReached]
      simp only [hsh, hst, hp, and_self, if_true]
    · change execPnrReached t k s = _
      rw [execPnrReached]
      simp only [hsh, Nat.not_le.mpr hp, and_false, if_false]
    · change execClaimWindowEnd t k i s = _
      rw [execClaimWindowEnd]
      generalize s.at t = u at *
      simp only [hsh, hc, if_neg (Nat.not_lt.mpr he)]
      have hmod : (u.modSheet k fun sh => { sh with released :=
          (if sh.released.contains i then sh.released else sh.released ++ [i]) }) =
            u.setSheet k (some { sh with released := sh.released ++ [i] }) := by
        rw [State.modSheet, hsh]
        simp [hi]
      rw [hmod, tryFree_early]
      exact hst
    · change execClaimWindowEnd t k i s = _
      rw [execClaimWindowEnd]
      simp only [hsh, hc, if_pos he]
    · change execActionToleranceExpiry t k i s = _
      rw [execActionToleranceExpiry]
      simp only [ha, if_pos ht]
    · rw [exec_actionToleranceExpiry ha ht, if_pos ho]
    · rw [exec_actionToleranceExpiry ha ht, if_neg ho]

end Sys2Proof.Machine
end

section
/-! Timetable requests and the actions of a signal point and of an unknown command (R56, R57, R74, R87, R88, R143). -/

namespace Sys2Proof.Machine

/-! ### Requests on a handle (R87) -/

section
variable {s : State} {t : Tick} {h : BitVec 16} {cb : Byte} {w : Word} (hon : (s.at t).domOn 2 = true)
include hon

theorem exec_ttReqWithdraw : exec (.ttReqWithdraw t h cb) s = .next ((s.at t).ttRequest h.toNat cb.toNat false) := by
  change execTtReqWithdraw t h cb s = _
  rw [execTtReqWithdraw]
  simp only [hon, if_true]

theorem exec_ttReqSpoil : exec (.ttReqSpoil t h cb) s = .next ((s.at t).ttRequest h.toNat cb.toNat true) := by
  change execTtReqSpoil t h cb s = _
  rw [execTtReqSpoil]
  simp only [hon, if_true]

theorem exec_ttResqTailWrite : exec (.ttResqTailWrite t w) s = .next ((s.at t).resqTailWrite w) := by
  change execTtResqTailWrite t w s = _
  rw [execTtResqTailWrite]
  simp only [hon, if_true]

end

/-- The request's result in its register. -/
def State.answered (u : State) (r : Nat) : State :=
  { u with tt := { u.tt with reqAt := some u.clk.tb } }.setF Reg.TT_REQ_STATUS 2 0 r

section
variable {u : State} {h cb : Nat} {spoil : Bool}

theorem ttRequest_busy (hb : u.tt.reqAt = some u.clk.tb) :
    u.ttRequest h cb spoil = u.setF Reg.TT_REQ_STATUS 2 0 reqBUSY := by
  rw [State.ttRequest, if_pos hb]

theorem ttRequest_refused (hb : u.tt.reqAt ≠ some u.clk.tb) (hr : u.requestResult h spoil ≠ reqDONE) :
    u.ttRequest h cb spoil = u.answered (u.requestResult h spoil) := by
  rw [State.ttRequest, if_neg hb]
  exact if_neg hr

theorem ttRequest_done (hb : u.tt.reqAt ≠ some u.clk.tb) (hr : u.requestResult h spoil = reqDONE) :
    u.ttRequest h cb spoil =
      (if spoil then (u.answered (u.requestResult h spoil)).spoilSheet (h % 128) cREQUESTED cb
       else (u.answered (u.requestResult h spoil)).withdrawSheet (h % 128) cREQUESTED cb).settle settleFuel := by
  rw [State.ttRequest, if_neg hb]
  exact if_pos hr

theorem requestResult_stale (hh : u.handle (h % 128) ≠ h) : u.requestResult h spoil = reqSTALE := by
  rw [State.requestResult]
  exact if_pos hh

section
variable (hh : u.handle (h % 128) = h)
include hh

theorem requestResult_terminal (ht : u.sheet (h % 128) = none ∨ stDELIVERED ≤ u.sheetState (h % 128)) :
    u.requestResult h spoil = reqTERMINAL := by
  rw [State.requestResult, if_neg (not_not_intro hh)]
  rcases ht with ht | ht
  · rw [ht]
  · split
    · rfl
    · rw [if_neg, if_neg]
      · intro e
        rw [e] at ht
        exact absurd ht (by decide)
      · intro e
        rw [e] at ht
        exact absurd ht (by decide)

variable {sh : Sheet} (hs : u.sheet (h % 128) = some sh)
include hs

theorem requestResult_committed (hc : u.sheetState (h % 128) = stCOMMITTED) : u.requestResult h spoil =
    if spoil then reqNOT_STARTED
    else if u.clk.tb + u.f Reg.TT_WD_GUARD 31 0 < sh.pnr then reqDONE else reqTOO_LATE := by
  rw [State.requestResult, if_neg (not_not_intro hh), hs]
  exact if_pos hc

theorem requestResult_running (hr : u.sheetState (h % 128) = stRUNNING) :
    u.requestResult h spoil = if spoil then reqDONE else reqTOO_LATE := by
  rw [State.requestResult, if_neg (not_not_intro hh), hs]
  dsimp only
  rw [hr, if_neg (by decide), if_pos rfl]

end

end

/-! ### Armed actions (R71, R74) -/

theorem armedAt_of_tt {s u : State} (h : s.tt = u.tt) (k i : Nat) : s.armedAt k i = u.armedAt k i ∧
    s.orphanAt k i = u.orphanAt k i ∧ s.sheet k = u.sheet k := by
  have ho : s.orphanAt k i = u.orphanAt k i := by rw [State.orphanAt, h, State.orphanAt]
  have hs : s.sheet k = u.sheet k := by rw [State.sheet, h, State.sheet]
  exact ⟨by rw [State.armedAt, ho, hs, State.armedAt], ho, hs⟩

theorem take_notDue {s : State} {k i : Nat} {a : Armed} {ok : Action → Bool} (ha : s.armedAt k i = some a)
    (h : s.clk.tb < a.time ∨ a.executed = true) : s.take k i ok = .notDue := by
  rw [State.take, ha]
  refine if_pos ?_
  rcases h with h | h <;> simp [h]

theorem take_main {s : State} {k i : Nat} {a : Armed} {ok : Action → Bool} (ha : s.armedAt k i = some a)
    (ht : a.time ≤ s.clk.tb) (he : a.executed = false) (hok : ok a.act = true) (hl : a.list = .main) :
    s.take k i ok = .run a (s.markExecuted k i) := by
  have hw : s.outsideWindow k a = false := by
    unfold State.outsideWindow
    split
    · simp [hl]
    · rfl
  rw [State.take, ha]
  dsimp only
  rw [if_neg (by simp [he, hok, Nat.not_lt.mpr ht]), if_neg (by simp [hw])]

theorem modSheet_sheet {s : State} {k : Nat} {sh : Sheet} (h : s.sheet k = some sh) (g : Sheet → Sheet) :
    s.modSheet k g = s.setSheet k (some (g sh)) := by
  rw [State.modSheet, h]

theorem find?_map_mark {α : Type} {p : α → Bool} {g : α → α} (hg : ∀ x, p (g x) = p x) (l : List α) :
    (l.map fun x => if p x then g x else x).find? p = (l.find? p).map g := by
  induction l with
  | nil => rfl
  | cons x l ih =>
    rw [List.map_cons]
    cases hx : p x with
    | true => simp [hx, hg]
    | false => simpa [hx] using ih

section
variable {s : State} {k i : Nat}

theorem armedAt_orphan {a : Armed} (h : s.orphanAt k i = some a) : s.armedAt k i = some a := by
  rw [State.armedAt, h]

theorem armedAt_own {sh : Sheet} (h : s.orphanAt k i = none) (hs : s.sheet k = some sh) :
    s.armedAt k i = sh.armed.find? fun a => a.idx == i := by
  rw [State.armedAt, h, hs]

theorem orphanAt_setSheet (x : Option Sheet) : (s.setSheet k x).orphanAt k i = s.orphanAt k i := rfl

/-- The action that its target has taken is marked. -/
theorem armedAt_markExecuted {sh : Sheet} {a : Armed} (hs : s.sheet k = some sh) (ha : s.armedAt k i = some a) :
    (s.markExecuted k i).armedAt k i = some { a with executed := true } ∧
    (s.orphanAt k i = none → (s.markExecuted k i).orphanAt k i = none) ∧
    ∃ x, (s.markExecuted k i).sheet k = some x := by
  cases ho : s.orphanAt k i with
  | some b =>
    obtain rfl : b = a := by
      rw [armedAt_orphan ho] at ha
      exact Option.some.inj ha
    have hmark : (s.markExecuted k i).orphanAt k i = some { b with executed := true } := by
      have hf := find?_map_mark (p := fun p : Nat × Armed => p.1 == k && p.2.idx == i)
        (g := fun p => (p.1, { p.2 with executed := true })) (fun _ => rfl) s.tt.orphans
      rw [State.orphanAt] at ho
      rw [State.markExecuted, if_pos (by rw [State.orphanAt, ho]; rfl), State.orphanAt]
      simp only [beq_iff_eq, Bool.and_eq_true, decide_eq_true_eq] at hf ⊢
      rw [hf]
      obtain ⟨q, hq, rfl⟩ := Option.map_eq_some_iff.mp ho
      rw [hq]
      rfl
    refine ⟨armedAt_orphan hmark, nofun, sh, ?_⟩
    rw [State.markExecuted, if_pos (by rw [ho]; rfl)]
    exact hs
  | none =>
    have hf := find?_map_mark (p := fun b : Armed => b.idx == i) (g := fun b => { b with executed := true })
      (fun _ => rfl) sh.armed
    rw [armedAt_own ho hs] at ha
    rw [State.markExecuted, if_neg (by rw [ho]; simp), modSheet_sheet hs, orphanAt_setSheet, sheet_setSheet_self]
    refine ⟨?_, fun _ => ho, _, rfl⟩
    rw [armedAt_own (by rw [orphanAt_setSheet]; exact ho) (sheet_setSheet_self _ _ _)]
    simp only [beq_iff_eq] at hf ⊢
    rw [hf, ha]
    rfl

/-- Freeing an entry leaves none of its own armed actions of a number that is not armed. -/
theorem armedAt_tryFree (h : s.orphanAt k i = none) (ha : s.armedAt k i = none) : (s.tryFree k).armedAt k i = none := by
  unfold State.tryFree
  split
  · exact ha
  · rename_i sh hs
    split
    · have hown : ∀ a ∈ sh.armed, (a.idx == i) = false := by
        rw [armedAt_own h hs, List.find?_eq_none] at ha
        exact fun a hm => by simpa using ha a hm
      have hfreed : ∀ u : State, u.tt.orphans = s.tt.orphans ++ sh.armed.map (fun a => (k, a)) → u.sheet k = none →
          u.armedAt k i = none := by
        intro u hu hn
        have ho : u.orphanAt k i = none := by
          rw [State.orphanAt] at h ⊢
          rw [hu, List.find?_append, Option.map_eq_none_iff.mp h, Option.none_or, Option.map_eq_none_iff,
            List.find?_eq_none]
          intro p hp
          obtain ⟨a, hm, rfl⟩ := List.mem_map.mp hp
          simp [hown a hm]
        rw [State.armedAt, ho, hn]
      dsimp only
      split
      · refine hfreed _ ?_ ?_
        · rw [(requestSwap_kept _).1]
          rfl
        · rw [sheet_of_sheets (congrArg Tt.sheets (requestSwap_kept _).1)]
          exact sheet_setSheet_self _ _ _
      · exact hfreed _ rfl (sheet_setSheet_self _ _ _)
    · exact ha

/-- An action removed is no longer armed. -/
theorem armedAt_dropArmed {sh : Sheet} (ho : s.orphanAt k i = none) (hs : s.sheet k = some sh) :
    (s.dropArmed k i).armedAt k i = none ∧ (s.dropArmed k i).orphanAt k i = none := by
  rw [State.dropArmed, if_neg (by rw [ho]; simp), modSheet_sheet hs]
  refine ⟨?_, ho⟩
  rw [armedAt_own (by rw [orphanAt_setSheet]; exact ho) (sheet_setSheet_self _ _ _)]
  simp

end

/-! ### The report of an action that is not EXIT (R74) -/

section
variable (s : State) (k : Nat)

theorem modSheet_kept (g : Sheet → Sheet) : (s.modSheet k g).mem = s.mem ∧ (s.modSheet k g).points = s.points := by
  unfold State.modSheet
  split <;> exact ⟨rfl, rfl⟩

theorem dropArmed_kept (i : Nat) : (s.dropArmed k i).mem = s.mem ∧ (s.dropArmed k i).points = s.points := by
  unfold State.dropArmed
  split
  · exact ⟨rfl, rfl⟩
  · exact modSheet_kept s k _

theorem markExecuted_kept (i : Nat) : (s.markExecuted k i).mem = s.mem ∧ (s.markExecuted k i).points = s.points ∧
    (s.markExecuted k i).sq = s.sq ∧ (s.markExecuted k i).clk = s.clk := by
  have hm : ∀ g, (s.modSheet k g).sq = s.sq ∧ (s.modSheet k g).clk = s.clk := by
    intro g
    unfold State.modSheet
    split <;> exact ⟨rfl, rfl⟩
  unfold State.markExecuted
  split
  · exact ⟨rfl, rfl, rfl, rfl⟩
  · exact ⟨(modSheet_kept s k _).1, (modSheet_kept s k _).2, hm _⟩

theorem requestSwap_points : s.requestSwap.points = s.points ∧ s.requestSwap.mem = s.mem := by
  unfold State.requestSwap
  split
  · exact ⟨rfl, rfl⟩
  · exact ⟨by simp, by simp⟩

theorem tryFree_kept : (s.tryFree k).mem = s.mem ∧ (s.tryFree k).points = s.points := by
  unfold State.tryFree
  split
  · exact ⟨rfl, rfl⟩
  · split
    · dsimp only
      split
      · exact ⟨(requestSwap_points _).2, (requestSwap_points _).1⟩
      · exact ⟨rfl, rfl⟩
    · exact ⟨rfl, rfl⟩

variable {s k} {i : Nat} {a : Armed} {t : Tick} (ha : s.armedAt k i = some a) (hx : a.act.exit = false)

include hx in
theorem carriedOut_kept : (s.carriedOut k a).tt = s.tt ∧ (s.carriedOut k a).mem = s.mem ∧
    (s.carriedOut k a).points = s.points := by
  unfold State.carriedOut
  simp only [hx, Bool.false_and, Bool.false_eq_true, if_false]
  split
  · exact ⟨by simp, by simp, by simp⟩
  · exact ⟨rfl, rfl, rfl⟩

include ha hx in
theorem report_inTime (h1 : a.time ≤ t + classTol a.act.cls) (h2 : t ≤ a.time + classTol a.act.cls) :
    s.report k i t = ((s.carriedOut k a).dropArmed k i).tryFree k := by
  rw [State.report, ha]
  simp [h1, h2, hx]

include ha hx in
/-- A report in time leaves memory and the points, and the action is no longer armed. -/
theorem report_facts {sh : Sheet} (hs : s.sheet k = some sh) (h1 : a.time ≤ t + classTol a.act.cls)
    (h2 : t ≤ a.time + classTol a.act.cls) : (s.report k i t).mem = s.mem ∧ (s.report k i t).points = s.points ∧
    (s.orphanAt k i = none → (s.report k i t).armedAt k i = none) := by
  obtain ⟨c1, c2, c3⟩ := carriedOut_kept (s := s) (k := k) hx
  rw [report_inTime ha hx h1 h2]
  obtain ⟨-, ho, hsh⟩ := armedAt_of_tt c1 k i
  generalize s.carriedOut k a = u at *
  obtain ⟨d1, d2⟩ := dropArmed_kept u k i
  obtain ⟨e1, e2⟩ := tryFree_kept (u.dropArmed k i) k
  refine ⟨e1.trans (d1.trans c2), e2.trans (d2.trans c3), fun h => ?_⟩
  obtain ⟨f1, f2⟩ := armedAt_dropArmed (ho.trans h) (hsh.trans hs)
  exact armedAt_tryFree f2 f1

end

theorem setPointAt_tt (s : State) (place : List Nat) (p : Nat) (v : Word) : (s.setPointAt place p v).tt = s.tt := by
  have h : ∀ w, (s.setPoint p w).tt = s.tt := by
    intro w
    unfold State.setPoint
    dsimp only
    split
    · split <;> rfl
    · rfl
  unfold State.setPointAt
  dsimp only
  split <;> split <;> exact h _

theorem pointPlace_of {s u : State} (h1 : s.sq = u.sq) (h2 : s.clk = u.clk) (p : Nat) : s.pointPlace p = u.pointPlace p := by
  rw [State.pointPlace, h1, h2, State.pointPlace]

theorem exec_spWriteAction {s : State} {t : Tick} {k : Fin 128} {i : Nat} {a : Armed}
    (h : (s.at t).take k i (fun a => !a.blockCmd) = .run a ((s.at t).markExecuted k i)) :
    exec (.spWriteAction t k i) s = .next ((((s.at t).markExecuted k i).setPointAt rankAction (a.act.target % 1024)
      (BitVec.ofNat 32 a.act.param)).report k i (s.at t).clk.tb) := by
  change execSpWriteAction t k i s = _
  rw [execSpWriteAction]
  simp only [h]

theorem exec_unknownBlockCommand {s : State} {t : Tick} {k : Fin 128} {i : Nat} {a : Armed}
    (h : (s.at t).take k i (fun a => a.blockCmd && !definedCmd a.block a.cmd) = .run a ((s.at t).markExecuted k i)) :
    exec (.unknownBlockCommand t k i) s = .next ((s.at t).markExecuted k i) := by
  change execUnknownBlockCommand t k i s = _
  rw [execUnknownBlockCommand]
  simp only [h]

/-- Settles O26: a request by what stands in its way, a write of an action by its place among the writes of its edge; what
is armed is followed through the mark, the report and the entry's freeing. -/
theorem timetableRequestsAndActions : Obligations.TimetableRequestsAndActions := by
  refine ⟨?_, ?_⟩
  · intro s t h cb w
    dsimp only
    intro hon
    rw [exec_ttReqWithdraw hon, exec_ttReqSpoil hon, exec_ttResqTailWrite hon]
    generalize s.at t = u at *
    refine ⟨⟨fun hb => ?_, fun hb => ⟨fun hr => ?_, fun hr => ?_⟩⟩, ⟨fun hb => ?_, fun hb => ⟨fun hr => ?_, fun hr => ?_⟩⟩,
      fun hh => ⟨requestResult_stale hh, requestResult_stale hh⟩,
      fun hh ht => ⟨requestResult_terminal hh ht, requestResult_terminal hh ht⟩,
      fun sh hs hh => ⟨fun hc => ⟨requestResult_committed hh hs hc, requestResult_committed hh hs hc⟩,
        fun hr => ⟨requestResult_running hh hs hr, requestResult_running hh hs hr⟩⟩, fun hh => ?_, fun _ => rfl⟩
    · rw [ttRequest_busy hb]
    · rw [ttRequest_refused hb hr, State.answered]
    · rw [ttRequest_done hb hr, State.answered]
      rfl
    · rw [ttRequest_busy hb]
    · rw [ttRequest_refused hb hr, State.answered]
    · rw [ttRequest_done hb hr, State.answered]
      rfl
    · rw [State.resqTailWrite, hh]
      rfl
  · intro s t k i sh a
    dsimp only
    intro hs ha
    refine ⟨fun h => ⟨?_, ?_⟩, fun ht he hl hx => ⟨fun hb htol => ?_, fun hb hd => ?_⟩⟩
    · change execSpWriteAction t k i s = _
      rw [execSpWriteAction]
      simp only [take_notDue ha h]
    · change execUnknownBlockCommand t k i s = _
      rw [execUnknownBlockCommand]
      simp only [take_notDue ha h]
    · rw [exec_spWriteAction (take_main ha ht he (by simp [hb]) hl)]
      generalize s.at t = u at *
      obtain ⟨m1, m2, x, m3⟩ := armedAt_markExecuted hs ha
      obtain ⟨k1, k2, k3, k4⟩ := markExecuted_kept u k i
      generalize u.markExecuted k i = y at *
      obtain ⟨p1, -, -⟩ := setPointAt_kept y rankAction (a.act.target % 1024) (BitVec.ofNat 32 a.act.param)
      obtain ⟨q1, q2, q3⟩ := armedAt_of_tt (setPointAt_tt y rankAction (a.act.target % 1024) (BitVec.ofNat 32 a.act.param))
        k i
      obtain ⟨r1, r2, r3⟩ := report_facts (t := u.clk.tb) (q1.trans m1) hx (q3.trans m3) (le_trans ht (Nat.le_add_right _ _))
        htol
      have hplace := pointPlace_of k3 k4 (a.act.target % 1024)
      refine ⟨_, rfl, r1.trans (p1.trans k1), fun hq => ?_, fun q hq hlt => ?_, fun ho => r3 (q2.trans (m2 ho))⟩
      · rw [State.point, r2]
        exact point_setPointAt_last _ (by rw [hplace]; exact hq)
      · rw [State.point, r2]
        refine (point_setPointAt_late _ (hplace.trans hq) hlt).trans ?_
        rw [State.point, k2, State.point]
    · rw [exec_unknownBlockCommand (take_main ha ht he (by simp [hb, hd]) hl)]
      obtain ⟨m1, -, -⟩ := armedAt_markExecuted hs ha
      obtain ⟨k1, k2, -, -⟩ := markExecuted_kept (s.at t) k i
      exact ⟨_, rfl, k1, k2, by rw [m1]; rfl⟩

end Sys2Proof.Machine
end

section
/-! Tiles, the bytes of the band buffer, and the tiles of a band stream on a lane (R153, R157, R158, R177-R188). -/

namespace Sys2Proof.Machine

/-! ### Decoding a FILL or RAW record (R153, R157, R158) -/

theorem fillByte_nibbles {n : Nat} (h : n < 16) :
    (BitVec.ofNat 8 (n % 16 * 17)).toNat % 16 = n ∧ (BitVec.ofNat 8 (n % 16 * 17)).toNat / 16 = n := by
  have hlt : n * 17 < 2 ^ 8 := by omega
  rw [Nat.mod_eq_of_lt h, BitVec.toNat_ofNat, Nat.mod_eq_of_lt hlt]
  omega

theorem decodeRecord_fill {e : Entry} (hf : e.fill = true) (ha : e.addr < 16) (r : List Byte) (st col row : Nat) :
    (decodeRecord e r st col row).err = none ∧ (decodeRecord e r st col row).out.length = 32768 ∧
    ∀ b ∈ (decodeRecord e r st col row).out, b.toNat % 16 = e.addr ∧ b.toNat / 16 = e.addr := by
  rw [decodeRecord, if_pos hf]
  refine ⟨rfl, List.length_replicate, fun b hb => ?_⟩
  rw [List.eq_of_mem_replicate hb]
  exact fillByte_nibbles ha

theorem decodeRecord_raw {e : Entry} (hf : e.fill = false) (h0 : e.fmt = 0) (r : List Byte) (st col row : Nat) :
    decodeRecord e r st col row =
      if e.chk && crc32 (r.take tileBytes) != sliceLE r tileBytes 4 then
        { out := r.take tileBytes, err := some { code := eCRC, detail := 0x50 }, setup := 16 }
      else { out := r.take tileBytes, err := none, setup := 16 } := by
  rw [decodeRecord, if_neg (by simp [hf]), h0]
  rfl

/-! ### What an access leaves -/

theorem gateRefuse_fx (s : State) (i a : Nat) (k : AccKind) : (s.gateRefuse i a k).fx = s.fx ∧
    (s.gateRefuse i a k).mem = s.mem := by
  unfold State.gateRefuse
  exact ⟨by simp, by simp⟩

theorem memUncor_fx (s : State) (a n : Nat) : (s.memUncor a n).fx = s.fx ∧ (s.memUncor a n).mem = s.mem := by
  unfold State.memUncor
  split <;> exact ⟨rfl, rfl⟩

/-- A read leaves memory and FX. -/
theorem readMem_fx (s : State) (i a n : Nat) : (s.readMem i a n).2.fx = s.fx ∧ (s.readMem i a n).2.mem = s.mem := by
  unfold State.readMem
  split
  · exact gateRefuse_fx _ _ _ _
  · split
    · exact ⟨rfl, rfl⟩
    · split
      · exact memUncor_fx _ _ _
      · split
        · exact ⟨rfl, rfl⟩
        · split <;> exact ⟨rfl, rfl⟩

theorem tileOf_fx (s : State) (e : Entry) (st col row : Nat) : (s.tileOf e st col row).2.fx = s.fx ∧
    (s.tileOf e st col row).2.mem = s.mem := by
  have h := readMem_fx s iFX e.addr e.len
  unfold State.tileOf
  split
  · exact ⟨rfl, rfl⟩
  · split
    · exact ⟨rfl, rfl⟩
    · split <;> (rename_i hr; rw [hr] at h; exact h)

theorem planeTile_fx (s : State) (plane cols st col row : Nat) : (s.planeTile plane cols st col row).2.fx = s.fx ∧
    (s.planeTile plane cols st col row).2.mem = s.mem := by
  have h := readMem_fx s iFX (plane + 0x20 + 8 * (row * cols + col)) 8
  unfold State.planeTile
  split
  · exact tileOf_fx _ _ _ _ _
  · dsimp only
    split
    · rename_i r u hr
      rw [hr] at h
      obtain ⟨h1, h2⟩ := tileOf_fx u (parseEntry (natLE r)) st col row
      exact ⟨h1.trans h.1, h2.trans h.2⟩
    · rename_i hr
      rw [hr] at h
      exact h

/-- A write below the Ledger that is not refused stores its bytes. -/
theorem writeMem_none {s u : State} {i a : Nat} {bs : List Byte} (ha : a < ledgerBase)
    (h : s.writeMem i a bs = (none, u)) : u = s.storeBytes a bs := by
  have hl : (decide (ledgerBase ≤ a) && decide (a < dramBase)) = false := by simp [Nat.not_le.mpr ha]
  unfold State.writeMem at h
  simp only [hl, Bool.false_and, Bool.false_eq_true, if_false] at h
  split at h
  · exact nomatch h
  · split at h
    · exact nomatch h
    · exact (Prod.mk.inj h).2.symm

/-! ### The band buffer (R185) -/

/-- The address of byte x of a band tile. -/
def bandByte (st line col x : Nat) : Nat := bandAddr st (line + x / 1024) col + x % 1024

section
variable {st col : Nat} (hcol : col < 12) (line : Nat)

/-- Bytes of one tile have addresses of their own. -/
theorem bandByte_inj {x y : Nat} (hx : x < 32768) (hy : y < 32768) (h : bandByte st line col x = bandByte st line col y) :
    x = y := by
  unfold bandByte bandAddr at h
  omega

include hcol in
theorem bandByte_lt (hst : st < 6) (x : Nat) : bandByte st line col x < ledgerBase := by
  unfold bandByte bandAddr bandBase ledgerBase
  omega

/-- Bytes of one tile row stand in a run. -/
theorem bandByte_row {i j : Nat} (h : j < 1024 - i % 1024) : bandByte st line col (i + j) = bandByte st line col i + j := by
  have h1 : (i + j) / 1024 = i / 1024 := by omega
  have h2 : (i + j) % 1024 = i % 1024 + j := by omega
  unfold bandByte
  rw [h1, h2, Nat.add_assoc]

include hcol in
/-- What a band write that is not refused leaves. -/
theorem writeBand_facts (hst : st < 6) {s u : State} {n i : Nat} {bs : List Byte} (hlen : i + bs.length ≤ 32768)
    (hn : bs.length + i % 1024 ≤ 1024 * n ∨ bs = []) (h : s.writeBand st line col n i bs = (true, u)) :
    (∀ j < bs.length, readByte u.mem (bandByte st line col (i + j)) = bs.getD j 0) ∧
    (∀ b, (∀ j < bs.length, b ≠ bandByte st line col (i + j)) → readByte u.mem b = readByte s.mem b) ∧
    u.regs = s.regs ∧ u.fx = s.fx := by
  induction n generalizing s i bs with
  | zero =>
    obtain rfl : s = u := (Prod.mk.inj h).2
    have hnil : bs = [] := by
      rcases hn with hn | hn
      · exact List.eq_nil_of_length_eq_zero (by omega)
      · exact hn
    subst hnil
    exact ⟨fun j hj => absurd hj (Nat.not_lt_zero j), fun _ _ => rfl, rfl, rfl⟩
  | succ n ih =>
    cases hbs : bs.isEmpty with
    | true =>
      obtain rfl : bs = [] := List.isEmpty_iff.mp hbs
      obtain rfl : s = u := (Prod.mk.inj h).2
      exact ⟨fun j hj => absurd hj (Nat.not_lt_zero j), fun _ _ => rfl, rfl, rfl⟩
    | false =>
      rw [State.writeBand, hbs] at h
      simp only [Bool.false_eq_true, if_false] at h
      split at h
      · rename_i v hv
        obtain rfl := writeMem_none (bandByte_lt hcol line hst i) hv
        have hk : (bs.take (1024 - i % 1024)).length = min (1024 - i % 1024) bs.length := List.length_take
        have hd : (bs.drop (1024 - i % 1024)).length = bs.length - (1024 - i % 1024) := List.length_drop
        have hne : bs.length ≠ 0 := fun e => by rw [List.eq_nil_of_length_eq_zero e] at hbs; exact absurd hbs (by decide)
        obtain ⟨h1, h2, h3, h4⟩ := ih (i := i + (1024 - i % 1024)) (bs := bs.drop (1024 - i % 1024)) (by omega)
          (by
            rcases hn with hn | rfl
            · by_cases hl : bs.length ≤ 1024 - i % 1024
              · exact Or.inr (List.drop_eq_nil_of_le hl)
              · exact Or.inl (by omega)
            · exact absurd rfl hne) h
        refine ⟨fun j hj => ?_, fun b hb => ?_, h3, h4⟩
        · by_cases hjk : j < 1024 - i % 1024
          · rw [h2 _ fun m hm e => by
              have := bandByte_inj line (by omega) (by omega) e
              omega]
            rw [bandByte_row line hjk]
            refine (readByte_writeBytes_in s.mem _ _ (by omega)).trans ?_
            rw [List.getElem_take, List.getD_eq_getElem _ _ hj]
          · have hm := h1 (j - (1024 - i % 1024)) (by omega)
            rw [show i + (1024 - i % 1024) + (j - (1024 - i % 1024)) = i + j from by omega] at hm
            rw [hm, List.getD_eq_getElem _ _ hj, List.getD_eq_getElem _ _ (by omega), List.getElem_drop]
            congr 1
            omega
        · rw [h2 b fun m hm => by
            rw [show i + (1024 - i % 1024) + m = i + ((1024 - i % 1024) + m) from by omega]
            exact hb _ (by omega)]
          refine readByte_writeBytes_out _ _ _ ?_
          by_contra hc
          have hlt : b - bandByte st line col i < 1024 - i % 1024 := by omega
          refine hb (b - bandByte st line col i) (by omega) ?_
          rw [bandByte_row line hlt]
          omega
      · exact absurd (Prod.mk.inj h).1 (by decide)

end

/-! ### Tiles of a stream on a lane -/

theorem exec_bandTileStart_busy {s : State} {t : Tick} {lane : Fin 12} (h : (s.at t).lane lane ≠ .idle) :
    exec (.bandTileStart t lane) s = .next (s.at t) := by
  have hi : ((s.at t).lane lane).isIdle = false := by
    cases hl : (s.at t).lane lane with
    | idle => exact absurd hl h
    | _ => rfl
  change execBandTileStart t lane s = _
  rw [execBandTileStart]
  simp only [hi, Bool.and_false, Bool.false_and, Bool.false_eq_true, if_false]

theorem exec_bandTileStart {s : State} {t : Tick} {lane : Fin 12} (hon : (s.at t).decOn = true)
    (hi : (s.at t).lane lane = .idle) (hr : (s.at t).bandRoom = true) {st : Nat} {t0 : Tick} {x : Stream}
    (hf : (s.at t).firstTile = some (st, t0, x)) {r : TileRes} {y : State}
    (hp : (s.at t).planeTile x.plane x.cols st (x.next % 12) (x.row0 + x.next / 12) = (r, y)) :
    exec (.bandTileStart t lane) s = .next ((y.setLane lane (.band {
      st := st, ln0 := x.ln0, row := x.next / 12, col := x.next % 12
      run := { since := (s.at t).clk.tb, res := some r } })).setStreams st
        ((y.fxStreams st).map fun z => if z.ln0 = x.ln0 then { z with next := z.next + 1 } else z)) := by
  change execBandTileStart t lane s = _
  rw [execBandTileStart]
  simp only [hon, hi, hr, hf, hp]
  rfl

theorem outBytes_plain (n b c : Nat) : outBytes n [] b c = min n (b + 2 * c) := rfl

/-- Settles O27: the tiles of the Catalogue record by record, the bytes of a band by induction on the pieces
that `writeBand` puts out, one column row at a time, and the start, end and failure of a tile on its lane. -/
theorem tilesAndBands : Obligations.TilesAndBands := by
  refine ⟨?_, ?_, ?_, ?_⟩
  · intro e r st col row
    refine ⟨fun hf ha d hd => hd ▸ decodeRecord_fill hf ha r st col row, fun hf h0 hl d hd => ?_⟩
    subst hd
    rw [decodeRecord_raw hf h0]
    refine ⟨?_, fun hc => ?_, fun hc he => ?_, fun hc he => ?_⟩
    · split <;> rfl
    · rw [if_neg (by simp [hc])]
    · rw [if_neg (by simp [hc, tileBytes, he])]
    · rw [if_pos (by simpa [hc, tileBytes] using Ne.symm he)]
  · intro s u st line col i out hst hcol hlen h
    exact writeBand_facts hcol line hst hlen (Or.inl (by omega)) h
  · intro s t lane
    dsimp only
    refine ⟨fun hon hi hr st t0 x hf r y hp => ?_, exec_bandTileStart_busy, fun b d hb hres => ⟨fun he hem hov => ?_,
      fun h => ?_, fun h => ?_, fun e x he hem hx => ?_⟩⟩
    · obtain ⟨h1, h2⟩ := planeTile_fx (s.at t) x.plane x.cols st (x.next % 12) (x.row0 + x.next / 12)
      rw [hp] at h1 h2
      refine ⟨?_, h2⟩
      rw [exec_bandTileStart hon hi hr hf hp, State.fxStreams, h1, State.fxStreams]
    · change execTileComplete t lane s = _
      rw [execTileComplete]
      generalize s.at t = u at *
      simp only [hb]
      rw [State.completeBand, hres]
      simp [TileRun.done, he, hem, hov]
    · change execTileComplete t lane s = _
      rw [execTileComplete]
      generalize s.at t = u at *
      simp only [hb]
      rw [State.completeBand, hres]
      dsimp only
      rw [if_neg]
      rw [TileRun.done]
      rcases h with h | h | h
      · simp [h]
      · simp [h]
      · simp [Nat.not_le.mpr h]
    · change execTileDecodeError t lane s = _
      rw [execTileDecodeError]
      generalize s.at t = u at *
      simp only [hb]
      have hf : b.run.failed d = none := by
        rw [TileRun.failed]
        rcases h with h | h
        · simp [h]
        · exact if_neg h
      rw [State.failBand]
      cases u.streamAt b.st b.ln0 with
      | none => rfl
      | some x => simp only [hres, hf]
    · change execTileDecodeError t lane s = _
      rw [execTileDecodeError]
      generalize s.at t = u at *
      simp only [hb]
      rw [State.failBand, hx, hres]
      simp only [TileRun.failed, hem, he, if_true]
  · intro u n b d hb hres
    dsimp only
    have hstep : u.laneStep n = u.bandStep n b d := by
      rw [State.laneStep, hb]
      dsimp only
      rw [hres]
    refine ⟨fun h => ?_, fun h z hz => ?_, fun hg ht => ?_⟩
    · rw [hstep, State.bandStep]
      exact if_pos h
    · rw [hstep, State.bandStep]
      dsimp only
      rw [if_neg (Nat.not_le.mpr h), hz]
    · rw [TileRun.due, if_neg (Nat.not_lt.mpr ht), hg]
      rfl

end Sys2Proof.Machine
end

section
/-! Band streams and the jobs of the decompressor (R179, R183, R184, R188-R197). -/

namespace Sys2Proof.Machine

/-! ### Taking an armed action -/

theorem take_run {s : State} {k i : Nat} {a : Armed} {ok : Action → Bool} (h : s.CanTake k i ok a) :
    s.take k i ok = .run a (s.markExecuted k i) := by
  obtain ⟨ha, he, ht, hok, hw⟩ := h
  rw [State.take, ha]
  dsimp only
  rw [if_neg (by simp [he, hok, Nat.not_lt.mpr ht]), if_neg (by simp [hw])]

theorem take_unfit {s : State} {k i : Nat} {a : Armed} {ok : Action → Bool} (ha : s.armedAt k i = some a)
    (h : s.clk.tb < a.time ∨ a.executed = true ∨ ok a.act = false) : s.take k i ok = .notDue := by
  rw [State.take, ha]
  refine if_pos ?_
  rcases h with h | h | h <;> simp [h]

/-! ### What a read leaves of the clock and the registers -/

theorem readMem_clk (s : State) (i a n : Nat) : (s.readMem i a n).2.clk = s.clk := by
  have hg : (s.gateRefuse i a .load).clk = s.clk := by
    unfold State.gateRefuse
    simp
  have hu : (s.memUncor a n).clk = s.clk := by
    unfold State.memUncor
    split <;> rfl
  unfold State.readMem
  split
  · exact hg
  · split
    · rfl
    · split
      · exact hu
      · split
        · rfl
        · split <;> rfl

theorem readMem_ok_regs {s y : State} {i a n : Nat} {d : List Byte} (h : s.readMem i a n = (.ok d, y)) :
    y.regs = s.regs := by
  unfold State.readMem at h
  split at h
  · exact nomatch h
  · split at h
    · exact nomatch h
    · split at h
      · exact nomatch h
      · split at h
        · rw [← (Prod.mk.inj h).2]
        · split at h <;> rw [← (Prod.mk.inj h).2]

theorem pair_setPair_self {lo hi : Nat} (h : lo ≠ hi) (s : State) (v : Nat) :
    (s.setPair lo hi v).pair lo hi = v % 2 ^ 64 := by
  rw [State.pair, State.setPair, reg_setReg_self, reg_setReg_ne _ h, reg_setReg_self, BitVec.toNat_ofNat, BitVec.toNat_ofNat]
  omega

theorem pair_setPair_ne {lo hi a b : Nat} (h1 : lo ≠ a) (h2 : lo ≠ b) (h3 : hi ≠ a) (h4 : hi ≠ b) (s : State) (v : Nat) :
    (s.setPair a b v).pair lo hi = s.pair lo hi := by
  rw [State.pair, State.setPair, reg_setReg_ne _ h2, reg_setReg_ne _ h1, reg_setReg_ne _ h4, reg_setReg_ne _ h3, State.pair]

/-! ### STREAM (R183, R184, R188) -/

theorem handle_of_regs {s u : State} (h : s.regs = u.regs) (k : Nat) : s.handle k = u.handle k := by
  rw [State.handle, State.f, reg_of_regs h, State.handle, State.f]

theorem nextLn_of_regs {s u : State} (h : s.regs = u.regs) (st : Nat) : s.nextLn st = u.nextLn st := by
  rw [State.nextLn, State.pair, reg_of_regs h, reg_of_regs h, State.nextLn, State.pair]

theorem nextLn_setNextLn (s : State) (st n : Nat) : (s.setNextLn st n).nextLn st = n % 2 ^ 48 := by
  rw [State.nextLn, State.setNextLn, pair_setPair_self (by simp only [Reg.FX_STREAM_NEXT_LO, Reg.FX_STREAM_NEXT_HI]; omega)]
  omega

theorem nextLn_advanceReleased {st : Nat} (h : st < 6) (s : State) : (s.advanceReleased st).nextLn st = s.nextLn st := by
  refine pair_setPair_ne ?_ ?_ ?_ ?_ s _ <;>
    simp only [Reg.FX_STREAM_NEXT_LO, Reg.FX_STREAM_NEXT_HI, Reg.EXP_RELEASED_LO, Reg.EXP_RELEASED_HI] <;> omega

theorem fxStreams_advanceReleased (s : State) (st : Nat) : (s.advanceReleased st).fxStreams st = s.fxStreams st := rfl

theorem mem_advanceReleased (s : State) (st : Nat) : (s.advanceReleased st).mem = s.mem := rfl

theorem fxStreams_modExp (s : State) (st : Nat) (g : Exp → Exp) : (s.modExp st g).fxStreams st = s.fxStreams st := rfl

theorem fxStreams_setStreams (s : State) (st : Nat) (xs : List Stream) : (s.setStreams st xs).fxStreams st = xs :=
  Tab.get_put_self _ _ _ _

section
variable {s y : State} {h st param : Nat}

/-- A command that is not STREAM, or a descriptor that does not lie in the Stacks or in free staging. -/
theorem runStream_misplaced {cmd : Nat} (hc : cmd ≠ 1 ∨ streamPlace param = false) : s.runStream h st cmd param =
    s.takeFresh.2.streamFail st h 0 1 0 (Config.freeNat s.takeFresh.1 % 65536) := by
  rw [State.runStream]
  exact if_pos (by rcases hc with hc | hc <;> simp [hc])

theorem runStream_unread (hp : streamPlace param = true) {e : MemErr} (hr : s.readMem iFX param 16 = (.error e, y)) :
    s.runStream h st 1 param = ({ y with fresh := s.takeFresh.2.fresh } : State).streamFail st h 0
      (if e = .ecc then 3 else 2) 0 (Config.freeNat s.takeFresh.1 % 65536) := by
  rw [State.runStream, hr]
  simp only [hp, ne_eq, not_true_eq_false, decide_false, Bool.not_true, Bool.or_self, Bool.false_eq_true, if_false]
  cases e <;> rfl

theorem runStream_invalid (hp : streamPlace param = true) {d : List Byte} (hr : s.readMem iFX param 16 = (.ok d, y))
    {row : Nat} (hd : streamDesc d = .error row) : s.runStream h st 1 param = y.streamFail st h 0 1 0 row := by
  rw [State.runStream, hr]
  simp only [hp, ne_eq, not_true_eq_false, decide_false, Bool.not_true, Bool.or_self, Bool.false_eq_true, if_false, hd]

/-- The stream of a valid descriptor, at the station's next line. -/
def State.addStream (s : State) (st h plane row0 nrows : Nat) : State :=
  (((s.setNextLn st (s.nextLn st + 32 * nrows)).setStreams st (s.fxStreams st ++
    [{ sheet := h, row0 := row0, nrows := nrows, plane := plane, ln0 := s.nextLn st }])).modExp st fun e =>
      { e with uses := e.uses ++
        [{ sheet := h, ln0 := s.nextLn st, row0 := row0, nrows := nrows, lw := s.nextLn st }] }).advanceReleased st

theorem runStream_valid (hp : streamPlace param = true) {d : List Byte} (hr : s.readMem iFX param 16 = (.ok d, y))
    {plane row0 nrows : Nat} (hd : streamDesc d = .ok (plane, row0, nrows)) (hl : (y.fxStreams st).length < 4) :
    s.runStream h st 1 param = y.addStream st h plane row0 nrows := by
  rw [State.runStream, hr]
  simp only [hp, ne_eq, not_true_eq_false, decide_false, Bool.not_true, Bool.or_self, Bool.false_eq_true, if_false, hd,
    Nat.not_le.mpr hl]
  rfl

theorem runStream_fifth (hp : streamPlace param = true) {d : List Byte} (hr : s.readMem iFX param 16 = (.ok d, y))
    {plane row0 nrows : Nat} (hd : streamDesc d = .ok (plane, row0, nrows)) (hl : 4 ≤ (y.fxStreams st).length) :
    s.runStream h st 1 param = if ((y.setB Reg.FX_STATUS 18 true).raise srcFX 2).handle (h % 128) = h then
      ((y.setB Reg.FX_STATUS 18 true).raise srcFX 2).causeOnce (h % 128) cTILE_LATE (st + 8 * row0)
      else (y.setB Reg.FX_STATUS 18 true).raise srcFX 2 := by
  rw [State.runStream, hr]
  simp only [hp, ne_eq, not_true_eq_false, decide_false, Bool.not_true, Bool.or_self, Bool.false_eq_true, if_false, hd,
    if_pos hl]

/-- The fifth stream's mark and event leave the sheets' handles. -/
theorem handle_streamMark (s : State) {k : Nat} (h : k < 128) :
    ((s.setB Reg.FX_STATUS 18 true).raise srcFX 2).handle k = s.handle k := by
  rw [State.handle, f_raise, f_setB_ne _ (by simp only [Reg.TT_SHEET, Reg.FX_STATUS]; omega), State.handle]

theorem addStream_facts (hst : st < 6) (plane row0 nrows : Nat) :
    (y.addStream st h plane row0 nrows).fxStreams st = y.fxStreams st ++
      [{ sheet := h, row0 := row0, nrows := nrows, plane := plane, ln0 := y.nextLn st }] ∧
    (y.addStream st h plane row0 nrows).nextLn st = (y.nextLn st + 32 * nrows) % 2 ^ 48 ∧
    (y.addStream st h plane row0 nrows).mem = y.mem := by
  refine ⟨?_, ?_, mem_advanceReleased _ st⟩
  · rw [State.addStream, fxStreams_advanceReleased, fxStreams_modExp, fxStreams_setStreams]
  · rw [State.addStream, nextLn_advanceReleased hst]
    exact nextLn_setNextLn y st _

end

/-! ### Jobs (R190, R191, R195) -/

/-- The tile that is next on a job's lane, and the state after its record is read. -/
theorem beginTile_eq {s z : State} {j : JobRun} {r : TileRes} (h : s.jobTile j = (r, z)) :
    s.beginTile j = ({ j with run := { since := s.clk.tb, res := some r } }, z) := by
  rw [State.beginTile, h]

section
variable {s : State} {t : Tick} {lane : Fin 12} {y z : State} {d : List Byte}

theorem jobDecode_unread (hr : (s.at t).jobRoom lane = true) {e : MemErr}
    (h : (s.at t).readMem iFX (s.at t).jobAddr 64 = (.error e, y)) :
    exec (.jobDecode t lane) s = .next ((y.takeFresh.2.jobTaken).endJob lane
      { desc := bytesLE 4 0 ++ bytesLE 4 (Config.freeNat y.takeFresh.1) ++ bytesLE 56 0
        base := bytesLE 4 0 ++ bytesLE 4 (Config.freeNat y.takeFresh.1) ++ bytesLE 56 0 } (statusOf e) none) := by
  change execJobDecode t lane s = _
  rw [execJobDecode]
  generalize s.at t = u at *
  simp only [hr, if_true, State.readJob, h]

theorem jobDecode_read (hr : (s.at t).jobRoom lane = true)
    (h : (s.at t).readMem iFX (s.at t).jobAddr 64 = (.ok d, y)) (hd : sliceLE d 0 1 ≠ 2) :
    exec (.jobDecode t lane) s = if decodeOk d then
        .next ((y.jobTaken.beginTile { desc := d, base := d, nextDesc := sliceLE d 0x18 5 }).2.setLane lane
          (.job (y.jobTaken.beginTile { desc := d, base := d, nextDesc := sliceLE d 0x18 5 }).1))
      else .next (y.jobTaken.endJob lane { desc := d, base := d, nextDesc := sliceLE d 0x18 5 } 2 none) := by
  change execJobDecode t lane s = _
  rw [execJobDecode]
  generalize s.at t = u at *
  simp only [hr, if_true, State.readJob, h, hd, if_false]

theorem jobDecode_resume (hr : (s.at t).jobRoom lane = true)
    (h : (s.at t).readMem iFX (s.at t).jobAddr 64 = (.ok d, y)) (hd : sliceLE d 0 1 = 2) :
    exec (.jobDecode t lane) s = .next (s.at t) := by
  change execJobDecode t lane s = _
  rw [execJobDecode]
  generalize s.at t = u at *
  simp only [hr, if_true, State.readJob, h, hd]

theorem jobResume_decode (hr : (s.at t).jobRoom lane = true)
    (h : (s.at t).readMem iFX (s.at t).jobAddr 64 = (.ok d, y)) (hd : sliceLE d 0 1 ≠ 2) :
    exec (.jobResume t lane) s = .next (s.at t) := by
  change execJobResume t lane s = _
  rw [execJobResume]
  generalize s.at t = u at *
  simp only [hr, if_true, State.readJob, h, ne_eq, hd, not_false_eq_true]

theorem jobResume_malformed (hr : (s.at t).jobRoom lane = true)
    (h : (s.at t).readMem iFX (s.at t).jobAddr 64 = (.ok d, y)) (hd : sliceLE d 0 1 = 2) (ho : resumeOk d = false) :
    exec (.jobResume t lane) s = .next (y.jobTaken.endJob lane { desc := d, base := d, resumed := true } 2 none) := by
  change execJobResume t lane s = _
  rw [execJobResume]
  generalize s.at t = u at *
  simp only [hr, if_true, State.readJob, h, ne_eq, hd, not_true_eq_false, if_false, ho, Bool.not_false]

theorem jobResume_unread (hr : (s.at t).jobRoom lane = true)
    (h : (s.at t).readMem iFX (s.at t).jobAddr 64 = (.ok d, y)) (hd : sliceLE d 0 1 = 2) (ho : resumeOk d = true)
    {e : MemErr} (hi : y.readMem iFX (sliceLE d 8 5) imageBytes = (.error e, z)) :
    exec (.jobResume t lane) s =
      .next (z.jobTaken.endJob lane { desc := d, base := d, resumed := true } (statusOf e) none) := by
  change execJobResume t lane s = _
  rw [execJobResume]
  generalize s.at t = u at *
  simp only [hr, if_true, State.readJob, h, ne_eq, hd, not_true_eq_false, if_false, ho, Bool.not_true,
    Bool.false_eq_true, hi]

theorem jobResume_image (hr : (s.at t).jobRoom lane = true)
    (h : (s.at t).readMem iFX (s.at t).jobAddr 64 = (.ok d, y)) (hd : sliceLE d 0 1 = 2) (ho : resumeOk d = true)
    {img : List Byte} (hi : y.readMem iFX (sliceLE d 8 5) imageBytes = (.ok img, z)) :
    (z.savedJob img = none → exec (.jobResume t lane) s =
      .next (z.jobTaken.endJob lane { desc := d, base := d, resumed := true } 2 none)) ∧
    ∀ k, z.savedJob img = some k → exec (.jobResume t lane) s = .next
      ((z.keepHistory lane 0 (img.drop 128)).jobTaken.setLane lane (.job (k.resumeFrom d (s.at t).clk.tb))) := by
  change (_ → execJobResume t lane s = _) ∧ ∀ k, _ → execJobResume t lane s = _
  rw [execJobResume]
  generalize s.at t = u at *
  simp only [hr, if_true, State.readJob, h, ne_eq, hd, not_true_eq_false, if_false, ho, Bool.not_true,
    Bool.false_eq_true, hi]
  exact ⟨fun hn => by rw [hn], fun k hk => by rw [hk]⟩

theorem jobRoom_none (hr : (s.at t).jobRoom lane = false) :
    exec (.jobDecode t lane) s = .next (s.at t) ∧ exec (.jobResume t lane) s = .next (s.at t) := by
  change execJobDecode t lane s = _ ∧ execJobResume t lane s = _
  rw [execJobDecode, execJobResume]
  generalize s.at t = u at *
  exact ⟨if_neg (by simp [hr]), if_neg (by simp [hr])⟩

variable {j : JobRun}

theorem exec_tileComplete_job (hl : (s.at t).lane lane = .job j) (hn : j.record = none) :
    exec (.tileComplete t lane) s = .next ((s.at t).completeJobTile lane j) := by
  change execTileComplete t lane s = _
  rw [execTileComplete]
  generalize s.at t = u at *
  simp only [hl, hn, Option.isSome_none, Bool.false_eq_true, if_false]

theorem exec_tileDecodeError_job (hl : (s.at t).lane lane = .job j) (hn : j.record = none) :
    exec (.tileDecodeError t lane) s = .next ((s.at t).failJobTile lane j) := by
  change execTileDecodeError t lane s = _
  rw [execTileDecodeError]
  generalize s.at t = u at *
  simp only [hl, hn, Option.isSome_none, Bool.false_eq_true, if_false]

end

/-! ### The end of a tile on its lane (R177-R179) -/

section
variable {r : TileRun} {d : Decoded} {t : Tick}

theorem done_iff : r.done d t = true ↔ d.err = none ∧ r.emitted = d.out.length ∧ r.overAt d ≤ t := by
  simp [TileRun.done, and_assoc]

theorem done_eq_false (h : d.err ≠ none ∨ r.emitted ≠ d.out.length ∨ t < r.overAt d) : r.done d t = false := by
  rw [Bool.eq_false_iff, Ne, done_iff]
  rintro ⟨he, hm, ho⟩
  rcases h with h | h | h
  · exact h he
  · exact h hm
  · exact absurd ho (Nat.not_le.mpr h)

theorem failed_eq_none (h : d.err = none ∨ r.emitted ≠ d.out.length) : r.failed d = none := by
  rw [TileRun.failed]
  rcases h with h | h
  · simp [h]
  · exact if_neg h

theorem failed_eq_some {e : DecErr} (he : d.err = some e) (hm : r.emitted = d.out.length) : r.failed d = some e := by
  rw [TileRun.failed, if_pos hm, he]

end

/-- Settles O28: STREAM by what its descriptor is (misplaced, unreadable, invalid, a fifth one, or a stream of its
own), and a job by what its lane reads and how its tile ends. -/
theorem streamsAndJobs : Obligations.StreamsAndJobs := by
  refine ⟨⟨fun s t k i a => ?_, fun s y h st cmd param hst => ?_⟩, fun s t lane => ?_⟩
  · dsimp only
    refine ⟨fun hc => ?_, fun ha hn => ?_⟩
    · change execStream t k i s = _
      rw [execStream]
      generalize s.at t = u at *
      simp only [take_run hc]
    · change execStream t k i s = _
      rw [execStream]
      generalize s.at t = u at *
      simp only [take_unfit ha (ok := fun a => a.blockCmd && a.block == 0x0A && a.unit ≤ 5 && u.decOn)
        (hn.imp_right (Or.imp_right fun hd => by simp [hd]))]
  · dsimp only
    refine ⟨runStream_misplaced, fun hp => ⟨fun e hr => runStream_unread hp hr, fun d hr => ⟨fun plane row0 nrows hd => ?_,
      fun row hd => runStream_invalid hp hr hd⟩⟩⟩
    have hfx := readMem_fx s iFX param 16
    rw [hr] at hfx
    obtain ⟨hfx, hmem⟩ := hfx
    have hregs := readMem_ok_regs hr
    have hs : s.fxStreams st = y.fxStreams st := by rw [State.fxStreams, State.fxStreams, hfx]
    rw [hs, ← nextLn_of_regs hregs]
    refine ⟨fun hl => ?_, fun hl => ?_⟩
    · rw [runStream_valid hp hr hd hl, ← hmem]
      exact addStream_facts hst plane row0 nrows
    · have hk := handle_streamMark y (Nat.mod_lt h (by decide : 0 < 128))
      rw [runStream_fifth hp hr hd hl, hk]
      exact ⟨fun hn => if_neg hn, fun he => if_pos he⟩
  · dsimp only
    refine ⟨fun hr => ⟨fun e y h => ⟨_, jobDecode_unread hr h⟩, fun d y h => ⟨fun hd ho res z hz => ?_, fun hd ho => ?_,
      jobDecode_resume hr h, jobResume_decode hr h, jobResume_malformed hr h, fun hd ho =>
        ⟨fun e z => jobResume_unread hr h hd ho, fun img z => jobResume_image hr h hd ho⟩⟩⟩,
      jobRoom_none, fun j hl hn => ⟨fun hb => ?_, fun he => ?_, fun d hd => ⟨fun he hm ho => ?_, fun h => ?_, fun h => ?_,
        fun e he hm => ?_⟩⟩⟩
    · have hclk : y.clk = (s.at t).clk := by simpa [h] using readMem_clk (s.at t) iFX (s.at t).jobAddr 64
      rw [jobDecode_read hr h hd, if_pos ho, beginTile_eq (s := y.jobTaken) hz, ← hclk]
      rfl
    · rw [jobDecode_read hr h hd, if_neg (by simp [ho])]
      rfl
    · rw [exec_tileDecodeError_job hl hn, State.failJobTile, hb]
    · rw [exec_tileDecodeError_job hl hn, State.failJobTile, he]
    · rw [exec_tileComplete_job hl hn, State.completeJobTile, hd]
      generalize s.at t = u at *
      dsimp only
      rw [if_pos (done_iff.mpr ⟨he, hm, ho⟩)]
      refine ⟨fun ht => by rw [if_pos ht], fun ht res z hz => ?_⟩
      rw [if_neg ht, beginTile_eq hz]
      rfl
    · rw [exec_tileComplete_job hl hn, State.completeJobTile, hd]
      dsimp only
      rw [done_eq_false h]
      rfl
    · rw [exec_tileDecodeError_job hl hn, State.failJobTile, hd]
      dsimp only
      rw [failed_eq_none h]
    · rw [exec_tileDecodeError_job hl hn, State.failJobTile, hd]
      dsimp only
      rw [failed_eq_some he hm]

end Sys2Proof.Machine
end

section
/-! Scan synchronisation: enabling, sensor edges and windows, sets, and the even rotation (R203-R224). -/

namespace Sys2Proof.Machine

/-! ### A station's part of SCN through the updates of the state -/

section
variable (s : State)

@[simp] theorem scns_setReg (a : Nat) (v : Word) (x : Nat) : (s.setReg a v).scns x = s.scns x := rfl
@[simp] theorem scns_setF (a hi lo n x : Nat) : (s.setF a hi lo n).scns x = s.scns x := rfl
@[simp] theorem scns_setB (a i : Nat) (b : Bool) (x : Nat) : (s.setB a i b).scns x = s.scns x := by
  rw [State.scns, setB_scn, State.scns]

@[simp] theorem scns_modScn_self (st : Nat) (g : Scn → Scn) : (s.modScn st g).scns st = g (s.scns st) :=
  Tab.get_put_self _ _ _ _

theorem scns_modScn_ne {x st : Nat} (h : x ≠ st) (g : Scn → Scn) : (s.modScn st g).scns x = s.scns x :=
  Tab.get_put_ne _ h _ _

@[simp] theorem f_modScn (st : Nat) (g : Scn → Scn) (a hi lo : Nat) : (s.modScn st g).f a hi lo = s.f a hi lo := rfl
@[simp] theorem fb_modScn (st : Nat) (g : Scn → Scn) (a i : Nat) : (s.modScn st g).fb a i = s.fb a i := rfl

/-- The enable bit of a station lies beside its STATE. -/
theorem scnState_setEnable (st : Nat) (b : Bool) : (s.setB (Reg.SCN_CTRL st) 0 b).scnState st = s.scnState st :=
  f_setB_ne s (by simp only [Reg.SCN_STATUS, Reg.SCN_CTRL]; omega) _ _ _ _

theorem scnState_setScnState (st : Nat) {n : Nat} (h : n < 4) : (s.setScnState st n).scnState st = n := by
  rw [State.scnState, State.setScnState, f_setF_self s _ (by decide) (by decide)]
  exact Nat.mod_eq_of_lt h

/-- D and wLog lie in SCN_STATUS beside STATE. -/
theorem scnState_setNumbers (st m n : Nat) :
    ((s.setF (Reg.SCN_STATUS st) 17 16 m).setF (Reg.SCN_STATUS st) 14 12 n).scnState st = s.scnState st := by
  rw [State.scnState, f_setF_field _ _ (by decide) (by decide) (by decide), f_setF_field _ _ (by decide) (by decide) (by decide),
    State.scnState]

theorem enable_setNumbers (st a m n : Nat) :
    (((s.setScnState st a).setF (Reg.SCN_STATUS st) 17 16 m).setF (Reg.SCN_STATUS st) 14 12 n).fb (Reg.SCN_CTRL st) 0 =
      s.fb (Reg.SCN_CTRL st) 0 := by
  have h : Reg.SCN_CTRL st ≠ Reg.SCN_STATUS st := by simp only [Reg.SCN_STATUS, Reg.SCN_CTRL]; omega
  rw [fb_setF_ne _ h, fb_setF_ne _ h, State.setScnState, fb_setF_ne _ h]

end

/-! ### SCN_EN_WRITE (R210) -/

section
variable (s : State) (st : Nat)

theorem enterSpinup_facts : (s.enterSpinup st).scnState st = 1 ∧
    (s.enterSpinup st).fb (Reg.SCN_CTRL st) 0 = s.fb (Reg.SCN_CTRL st) 0 ∧
    ((s.enterSpinup st).scns st).intervals = [] ∧ ((s.enterSpinup st).scns st).hist = [] ∧
    (s.enterSpinup st).mem = s.mem ∧ ∀ x, x ≠ st → (s.enterSpinup st).scns x = s.scns x := by
  unfold State.enterSpinup
  refine ⟨?_, enable_setNumbers s st 1 _ _, ?_, ?_, rfl, fun x hx => ?_⟩
  · rw [scnState_setNumbers]
    exact scnState_setScnState s st (by decide)
  · rw [scns_setF, scns_setF, scns_modScn_self]
  · rw [scns_setF, scns_setF, scns_modScn_self]
  · rw [scns_setF, scns_setF, scns_modScn_ne _ hx, State.setScnState, scns_setF]

/-- EN 0: the station is OFF, and no scan is predicted. -/
def State.scnDisable (s : State) (st : Nat) : State :=
  ((((s.setScnState st 0).modScn st fun x => { x with cur := none, preds := [], hist := [] }).setF (Reg.SCN_STATUS st)
    17 16 0).setF (Reg.SCN_STATUS st) 14 12 0)

theorem scnDisable_facts : (s.scnDisable st).scnState st = 0 ∧
    (s.scnDisable st).fb (Reg.SCN_CTRL st) 0 = s.fb (Reg.SCN_CTRL st) 0 ∧ ((s.scnDisable st).scns st).cur = none ∧
    ((s.scnDisable st).scns st).preds = [] ∧ ((s.scnDisable st).scns st).due = (s.scns st).due ∧
    (s.scnDisable st).mem = s.mem ∧ ∀ x, x ≠ st → (s.scnDisable st).scns x = s.scns x := by
  unfold State.scnDisable
  have hself : ((((s.setScnState st 0).modScn st fun x => { x with cur := none, preds := [], hist := [] }).setF
      (Reg.SCN_STATUS st) 17 16 0).setF (Reg.SCN_STATUS st) 14 12 0).scns st =
      { s.scns st with cur := none, preds := [], hist := [] } := by
    rw [scns_setF, scns_setF, scns_modScn_self, State.setScnState, scns_setF]
  refine ⟨?_, enable_setNumbers s st 0 0 0, ?_, ?_, ?_, rfl, fun x hx => ?_⟩
  · rw [scnState_setNumbers]
    exact scnState_setScnState s st (by decide)
  · rw [hself]
  · rw [hself]
  · rw [hself]
  · rw [scns_setF, scns_setF, scns_modScn_ne _ hx, State.setScnState, scns_setF]

theorem writeScnEn_off : s.writeScnEn st false = (s.setB (Reg.SCN_CTRL st) 0 false).scnDisable st := rfl

theorem writeScnEn_start (h : s.scnState st = 0) :
    s.writeScnEn st true = (s.setB (Reg.SCN_CTRL st) 0 true).enterSpinup st := by
  rw [State.writeScnEn]
  dsimp only
  rw [if_pos rfl, if_pos ((scnState_setEnable s st true).trans h)]

theorem writeScnEn_running (h : s.scnState st ≠ 0) : s.writeScnEn st true = s.setB (Reg.SCN_CTRL st) 0 true := by
  rw [State.writeScnEn]
  dsimp only
  rw [if_pos rfl, if_neg fun hc => h ((scnState_setEnable s st true).symm.trans hc)]

end

theorem exec_scnEnWrite {s : State} {t : Tick} {st : Fin 6} (h : (s.at t).vidOn st = true) (en : Bool) :
    exec (.scnEnWrite t st en) s = .next ((s.at t).writeScnEn st en) := by
  change execScnEnWrite t st en s = _
  rw [execScnEnWrite]
  generalize s.at t = u at *
  exact if_pos h

/-! ### The even rotation (R211, R212, R216) -/

theorem roundUpDiv_exact {n : Int} (h : 0 < n) (x : Int) : roundUpDiv (n * x) n = x := by
  rw [roundUpDiv, Int.fdiv_eq_ediv_of_nonneg _ (by omega), show 2 * (n * x) + n = n + 2 * n * x by ring,
    Int.add_mul_ediv_left _ _ (by omega), Int.ediv_eq_zero_of_lt (by omega) (by omega), Int.zero_add]

section
variable {h : List Arrival} {u0 T : Int} (he : ∀ a ∈ h, a.u = u0 + a.k * T)
include he

/-- The period of an even rotation, from any number of revolutions. -/
theorem tfFrom_even {n : Nat} (hn : 0 < n) (r : Nat) : tfFrom n h T r = T := by
  induction r with
  | zero => rfl
  | succ r ih =>
    cases h with
    | nil => rfl
    | cons a l =>
      rw [tfFrom]
      cases hf : (a :: l).find? fun b => b.k + (r + 1) * n == a.k with
      | none => exact ih
      | some b =>
        have hk : b.k + (r + 1) * n = a.k := by simpa using List.find?_some hf
        have hz : (a.k : Int) = b.k + ((r + 1) * n : Nat) := by rw [← hk]; push_cast; rfl
        have hp : 0 < (r + 1) * n := Nat.mul_pos (Nat.succ_pos r) hn
        dsimp only
        rw [he a List.mem_cons_self, he b (List.mem_of_find?_eq_some hf), hz]
        rw [show u0 + ((b.k : Int) + ((r + 1) * n : Nat)) * T - (u0 + b.k * T) = ((r + 1) * n : Nat) * T by ring]
        exact roundUpDiv_exact (by exact_mod_cast hp) T

/-- The mean of an even rotation, carried to scan k. -/
theorem meanAt_even {w : Nat} (hw : 0 < w) (hne : h ≠ []) (k : Nat) : meanAt h w k T = u0 + k * T := by
  have hmap : (h.take w).map (fun a => a.u + ((k : Int) - a.k) * T) = (h.take w).map fun _ => u0 + k * T := by
    refine List.map_congr_left fun a ha => ?_
    rw [he a (List.mem_of_mem_take ha)]
    ring
  have hlen : 0 < (h.take w).length := by
    rw [List.length_take]
    have := List.length_pos_of_ne_nil hne
    omega
  rw [meanAt]
  rw [hmap, List.map_const', List.sum_replicate, Nat.max_eq_right hlen, nsmul_eq_mul]
  exact roundUpDiv_exact (by exact_mod_cast hlen) _

end

/-- A segment whose measured duration is the learned one stays as it is. -/
theorem learnSeg_exact {seg : Nat} {m tf : Int} (g : Nat) (ht : 0 < tf) (h : m * 2 ^ 32 = seg * tf) :
    learnSeg seg m tf g = seg := by
  rw [learnSeg, h, show (seg : Int) * 2 ^ g * tf + seg * tf - seg * tf = 2 ^ g * tf * seg by ring]
  exact roundUpDiv_exact (by positivity) _

/-! ### Windows that close, the index, sets and the facet gap -/

section
variable {s : State} {t : Tick} {st : Fin 6}

theorem exec_windowMiss_sos (hon : (s.at t).vidOn st = true) (hst : 2 ≤ (s.at t).scnState st) {y : State}
    (hy : (s.at t).addDelta st = y) {p : Pred} (hp : y.predOf st (y.scanK st + 1) = p) :
    exec (.sensorWindowMiss t st 0) s = if y.past (p.p + y.gateHalf st p.tf) then
      (let z := ((y.countMiss st).modScn st fun w => { w with missSos := w.missSos + 1 }).takeSos st p.p true
       .next (if z.coastLimit st < (z.scns st).missSos then z.scnLoss st lMISS else z)) else .next y := by
  change execSensorWindowMiss t st 0 s = _
  rw [execSensorWindowMiss]
  generalize s.at t = u at *
  subst hy hp
  simp only [hon, Bool.not_true, Bool.false_or, decide_eq_true_eq, Nat.not_lt.mpr hst, if_false]
  rfl

theorem exec_windowMiss_mos (hon : (s.at t).vidOn st = true) (hst : 2 ≤ (s.at t).scnState st) {c : CurScan}
    (hc : ((s.at t).scns st).cur = some c) (hm : c.mos = none)
    (hp : (s.at t).past ((s.at t).gateEnd st c ((s.at t).predMos st c)) = true) {z : State}
    (hz : (((s.at t).countMiss st).modScn st fun w =>
      { w with missMos := w.missMos + 1, cur := some { c with mos := some none } }) = z) :
    exec (.sensorWindowMiss t st 1) s =
      .next (if z.limit && z.coastLimit st < (z.scns st).missMos then z.scnLoss st lMISS else z) := by
  change execSensorWindowMiss t st 1 s = _
  rw [execSensorWindowMiss]
  generalize s.at t = u at *
  subst hz
  simp only [hon, Bool.not_true, Bool.false_or, decide_eq_true_eq, Nat.not_lt.mpr hst, if_false, hc, hm, hp,
    Option.isNone_none, Bool.and_self, if_true]
  rfl

theorem exec_windowMiss_eos (hon : (s.at t).vidOn st = true) (hst : 2 ≤ (s.at t).scnState st) {c : CurScan}
    (hc : ((s.at t).scns st).cur = some c) (hm : c.eos = none)
    (hp : (s.at t).past ((s.at t).gateEnd st c ((s.at t).predEos st c)) = true) {z : State}
    (hz : (((s.at t).countMiss st).modScn st fun w =>
      { w with missEos := w.missEos + 1, cur := some { c with eos := some none } }).endScan st = z) :
    exec (.sensorWindowMiss t st 2) s =
      .next (if z.coastLimit st < (z.scns st).missEos then z.scnLoss st lMISS else z) := by
  change execSensorWindowMiss t st 2 s = _
  rw [execSensorWindowMiss]
  generalize s.at t = u at *
  subst hz
  simp only [hon, Bool.not_true, Bool.false_or, decide_eq_true_eq, Nat.not_lt.mpr hst, if_false, hc, hm, hp,
    Option.isNone_none, Bool.and_self, if_true]
  rfl

theorem exec_windowMiss_idle (hst : (s.at t).scnState st < 2) (i : Fin 3) :
    exec (.sensorWindowMiss t st i) s = .next (s.at t) := by
  change execSensorWindowMiss t st i s = _
  rw [execSensorWindowMiss]
  generalize s.at t = u at *
  exact if_pos (by simp [hst])

theorem exec_indexEdge : exec (.indexEdge t st) s =
    if (s.at t).vidOn st && (s.at t).fb (Reg.SCN_CTRL st) 1 && (s.at t).scnState st ≠ 0 then
      .next ((s.at t).modScn st fun y => { y with indexSeen := true, indexDue := true, scansNoIndex := 0 })
    else .next (s.at t) := rfl

theorem exec_scanSetHandover {k : Nat} {ref : Tick} {rest : List (Nat × Tick)} (h : ((s.at t).scns st).due = (k, ref) :: rest)
    {y : State} (hy : ((s.at t).modScn st fun z => { z with due := rest }) = y) : exec (.scanSetHandover t st) s =
      if (s.at t).clk.tb < ref then .next (s.at t)
      else if y.scnState st = 3 then .next ((y.setOf st k).2.handOver st (y.setOf st k).1)
      else .next (y.notHanded st k) := by
  change execScanSetHandover t st s = _
  rw [execScanSetHandover]
  generalize s.at t = u at *
  subst hy
  simp only [h]

theorem exec_facetGap : exec (.facetGap t st) s =
    if !(s.at t).vidOn st || !(s.at t).facetGap st then .next (s.at t)
    else .next (((s.at t).modScn st fun y =>
      { y with tdcBand := (s.at t).f Reg.THM_STATUS 2 0
               taps := if (s.at t).fb Reg.BKG_CTRL 2 then y.taps + 1 else y.taps }).addDelta st) := rfl

theorem exec_lockCheck {k : Fin 128} {i : Nat} {a : Armed} (h : (s.at t).CanTake k i
      (fun a => a.blockCmd && a.block == 0x0B && a.unit ≤ 5 && (s.at t).vidOn a.unit) a) {x y : State}
    (hx : (s.at t).markExecuted k i = x) (hy : x.report k i x.clk.tb = y) : exec (.lockCheck t k i) s =
      if a.act.cmd ≠ 1 then .next ((y.incSat (Reg.SCN_CNT_B a.act.unit) 15 0).scanCause a.act.unit (x.handle k) 1
        (y.scanK a.act.unit))
      else if y.scnState a.act.unit = 3 then .next y
      else .next (y.scanCause a.act.unit (x.handle k) 1 (y.scanK a.act.unit)) := by
  change execLockCheck t k i s = _
  rw [execLockCheck]
  generalize s.at t = u at *
  subst hx hy
  simp only [take_run h]

end

/-- Between the EOS of a scan and the opening of the next SOS window. -/
theorem facetGap_of {s : State} {st : Nat} (h2 : 2 ≤ s.scnState st) {c : CurScan} (hc : (s.scns st).cur = some c)
    (he : c.eos ≠ none) {p : Pred} (hp : s.predOf st (s.scanK st + 1) = p)
    (hl : s.clk.tb * tk < p.p - s.gateHalf st p.tf) : s.facetGap st = true := by
  subst hp
  rw [State.facetGap, hc]
  simp [h2, hl, Option.isSome_iff_ne_none.mpr he]

theorem scanK_incSat (s : State) (st : Nat) : (s.incSat (Reg.SCN_CNT_B st) 15 0).scanK st = s.scanK st := by
  rw [State.scanK, State.pair, reg_incSat_ne _ (by simp only [Reg.SCN_CNT_B, Reg.SCN_SCAN_LO]; omega),
    reg_incSat_ne _ (by simp only [Reg.SCN_CNT_B, Reg.SCN_SCAN_HI]; omega), State.scanK, State.pair]

theorem scnLoss_limited {z : State} {st : Nat} {n : Nat} :
    (if z.limit && decide (z.coastLimit st < n) then z.scnLoss st lMISS else z) =
      if z.limit = true ∧ z.coastLimit st < n then z.scnLoss st lMISS else z := by
  simp

/-- Settles O30: enabling by what it leaves of the station, each window, set and gap by its branch of the command, and
the even rotation by induction on the revolutions. -/
theorem scanLockAndSets : Obligations.ScanLockAndSets := by
  refine ⟨fun s t st => ?_, fun s t st => ?_, fun s t st => ?_, fun h u0 T n w r k hn hw hne he =>
    ⟨tfFrom_even he hn r, meanAt_even he hw hne k⟩, fun seg m tf g => learnSeg_exact g⟩
  · dsimp only
    intro hon
    have hex := exec_scnEnWrite hon
    generalize s.at t = u at *
    refine ⟨fun h0 => ?_, fun h0 => (hex true).trans (by rw [writeScnEn_running u st h0]), ?_⟩
    · obtain ⟨h1, h2, h3, h4, h5, h6⟩ := enterSpinup_facts (u.setB (Reg.SCN_CTRL st) 0 true) st
      refine ⟨_, (hex true).trans (by rw [writeScnEn_start u st h0]), h1, ?_, ?_, h3, h4, ?_, fun x hx => ?_⟩
      · rw [h2, fb_setB_self _ _ (by decide)]
      · rw [State.ratioValid, h1]
        rfl
      · rw [h5, setB_mem]
      · rw [h6 x hx, scns_setB]
    · obtain ⟨h1, h2, h3, h4, h5, h6, h7⟩ := scnDisable_facts (u.setB (Reg.SCN_CTRL st) 0 false) st
      refine ⟨_, (hex false).trans (by rw [writeScnEn_off]), h1, ?_, h3, h4, ?_, ?_, fun x hx => ?_⟩
      · rw [h2, fb_setB_self _ _ (by decide)]
      · rw [h5, scns_setB]
      · rw [h6, setB_mem]
      · rw [h7 x hx, scns_setB]
  · dsimp only
    intro hon
    refine ⟨fun h2 => ⟨⟨fun hp => ?_, fun hp => ?_⟩, fun c hc hm hp => ?_⟩, fun h2 c hc hm hp => ?_, exec_windowMiss_idle,
      fun h0 hi => ⟨_, exec_indexEdge.trans (if_pos (by simp [hon, hi, h0])), ?_⟩, fun hi => ?_⟩
    · rw [exec_windowMiss_sos hon h2 rfl rfl, if_pos hp]
      rfl
    · rw [exec_windowMiss_sos hon h2 rfl rfl, if_neg (by simp [hp])]
    · rw [exec_windowMiss_mos hon h2 hc hm hp rfl, scnLoss_limited]
      rfl
    · rw [exec_windowMiss_eos hon h2 hc hm hp rfl]
      rfl
    · generalize s.at t = u at *
      simp only [scns_modScn_self]
      exact ⟨trivial, trivial, trivial, rfl, rfl⟩
    · rw [exec_indexEdge, if_neg (by simp [hi])]
  · dsimp only
    refine ⟨fun k ref rest hd => ?_, fun hon hg => ?_, fun hon h2 c hc he hl => ⟨_, exec_facetGap.trans
      (if_neg (by simp [hon, facetGap_of h2 hc he rfl hl])), ?_⟩, fun k i a ha => ?_⟩
    · refine ⟨fun hr => ?_, fun hr h3 => ?_, fun hr h3 => ?_⟩
      · rw [exec_scanSetHandover hd rfl, if_pos hr]
      · rw [exec_scanSetHandover hd rfl, if_neg (Nat.not_lt.mpr hr)]
        exact if_pos h3
      · rw [exec_scanSetHandover hd rfl, if_neg (Nat.not_lt.mpr hr)]
        exact if_neg h3
    · rw [exec_facetGap, if_pos (by simp [hg])]
    · generalize s.at t = u at *
      simp only [State.addDelta, scns_modScn_self]
      exact ⟨trivial, trivial, trivial, rfl, rfl⟩
    · refine ⟨fun h1 h3 => ?_, fun h1 h3 => ?_, fun h1 => ?_⟩
      · rw [exec_lockCheck ha rfl rfl, if_neg (not_not.mpr h1), if_pos h3]
      · rw [exec_lockCheck ha rfl rfl, if_neg (not_not.mpr h1), if_neg h3]
      · rw [exec_lockCheck ha rfl rfl, if_pos h1, scanK_incSat]

end Sys2Proof.Machine
end

section
/-! Beam sensor edges (R203, R204, R207, R210, R217). -/

namespace Sys2Proof.Machine

section
variable {s : State} {t : Tick} {st : Fin 6} {x : Nat}

theorem sensorEdge_off (h : (s.at t).scnState st = 0) : exec (.sosEdge t st x) s = .next (s.at t) ∧
    exec (.mosEdge t st x) s = .next (s.at t) ∧ exec (.eosEdge t st x) s = .next (s.at t) := by
  change execSosEdge t st x s = _ ∧ execMosEdge t st x s = _ ∧ execEosEdge t st x s = _
  rw [execSosEdge, execMosEdge, execEosEdge]
  generalize s.at t = u at *
  have hg : (!u.vidOn st || decide (u.scnState st = 0)) = true := by simp [h]
  exact ⟨if_pos hg, if_pos hg, if_pos hg⟩

section
variable (hon : (s.at t).vidOn st = true) (h0 : (s.at t).scnState st ≠ 0)
include hon h0

theorem exec_sosEdge : exec (.sosEdge t st x) s = if (s.at t).tooClose st 0 x then .next ((s.at t).stray st) else
    let y := (s.at t).noteEdge st 0 x
    let e := y.edgeTime st 0 x
    if y.scnState st = 1 then .next (y.spinupSos st e) else
      let z := y.addDelta st
      let p := z.predOf st (z.scanK st + 1)
      if p.p - z.gateHalf st p.tf ≤ e ∧ e ≤ p.p + z.gateHalf st p.tf then
        .next ((z.modScn st fun w => { w with missSos := 0 }).takeSos st e false)
      else .next (z.stray st) := by
  change execSosEdge t st x s = _
  rw [execSosEdge]
  generalize s.at t = u at *
  exact if_neg (by simp [hon, h0])

theorem exec_mosEdge_near (h : (s.at t).tooClose st 1 x = true) :
    exec (.mosEdge t st x) s = .next ((s.at t).stray st) := by
  change execMosEdge t st x s = _
  rw [execMosEdge]
  generalize s.at t = u at *
  simp [hon, h0, h]

theorem exec_eosEdge_near (h : (s.at t).tooClose st 2 x = true) :
    exec (.eosEdge t st x) s = .next ((s.at t).stray st) := by
  change execEosEdge t st x s = _
  rw [execEosEdge]
  generalize s.at t = u at *
  simp [hon, h0, h]

variable {y : State} {c : CurScan}

theorem exec_mosEdge (h : (s.at t).tooClose st 1 x = false) (h1 : (s.at t).scnState st ≠ 1)
    (hy : (s.at t).noteEdge st 1 x = y) (hc : (y.scns st).cur = some c) : exec (.mosEdge t st x) s =
      if c.mos.isSome || !y.inGate st c (y.predMos st c) (y.edgeTime st 1 x) then .next (y.stray st) else
        let out := !y.learning st &&
          decide (y.af (Reg.SCN_BOUND st) 15 8 * tk < ((y.edgeTime st 1 x - y.predMos st c).natAbs : Int))
        let z := (y.modScn st fun w =>
          { w with missMos := 0, cur := some { c with mos := some (some (y.edgeTime st 1 x)) } }).stampEdge
            st 1 c.f (y.edgeTime st 1 x) out
        .next (if !out then z else if z.limit then z.outOfBound st 3 c.k else z.countOut st) := by
  change execMosEdge t st x s = _
  rw [execMosEdge]
  generalize s.at t = u at *
  have h1' : y.scnState st ≠ 1 := by rw [← hy]; exact h1
  simp only [hon, Bool.not_true, Bool.false_or, decide_eq_true_eq, h0, if_false, h, Bool.false_eq_true, hy, h1', hc]

theorem exec_eosEdge (h : (s.at t).tooClose st 2 x = false) (h1 : (s.at t).scnState st ≠ 1)
    (hy : (s.at t).noteEdge st 2 x = y) (hc : (y.scns st).cur = some c) : exec (.eosEdge t st x) s =
      if c.eos.isSome || !y.inGate st c (y.predEos st c) (y.edgeTime st 2 x) then .next (y.stray st) else
        let out := !y.learning st &&
          decide (y.af (Reg.SCN_BOUND st) 15 8 * tk < ((y.edgeTime st 2 x - y.predEos st c).natAbs : Int))
        let z := (y.modScn st fun w =>
          { w with missEos := 0, cur := some { c with eos := some (some (y.edgeTime st 2 x)) } }).stampEdge
            st 2 c.f (y.edgeTime st 2 x) out
        .next ((if out then z.outOfBound st 4 c.k else z).endScan st) := by
  change execEosEdge t st x s = _
  rw [execEosEdge]
  generalize s.at t = u at *
  have h1' : y.scnState st ≠ 1 := by rw [← hy]; exact h1
  simp only [hon, Bool.not_true, Bool.false_or, decide_eq_true_eq, h0, if_false, h, Bool.false_eq_true, hy, h1', hc]

end
end

theorem edgeTime_noteEdge (s : State) (st i x j z : Nat) : (s.noteEdge st j z).edgeTime st i x = s.edgeTime st i x := rfl

theorem scnState_noteEdge (s : State) (st j z : Nat) : (s.noteEdge st j z).scnState st = s.scnState st := rfl

/-- Settles O31: an edge of each sensor by the branches of its command. -/
theorem scanEdges : Obligations.ScanEdges := by
  intro s t st x
  dsimp only
  intro hon
  refine ⟨fun h0 i hi => ?_, fun h0 => ⟨fun q hq hn => ?_, fun hn => ⟨fun h1 => ?_, fun h1 => ⟨fun hg => ?_, fun hg => ?_⟩⟩,
    fun hn h1 => ⟨fun c hc hm hg => ?_, fun c hc hg => ?_⟩, fun hn h1 c hc hm hg => ?_⟩⟩
  · obtain ⟨hs, hm, he⟩ := sensorEdge_off (x := x) h0
    rcases List.mem_cons.mp hi with rfl | hi
    · exact hs
    rcases List.mem_cons.mp hi with rfl | hi
    · exact hm
    rw [List.mem_singleton.mp hi]
    exact he
  · rcases List.mem_cons.mp hq with rfl | hq
    · exact (exec_sosEdge hon h0).trans (if_pos hn)
    rcases List.mem_cons.mp hq with rfl | hq
    · exact exec_mosEdge_near hon h0 hn
    obtain rfl := List.mem_singleton.mp hq
    exact exec_eosEdge_near hon h0 hn
  · rw [exec_sosEdge hon h0, if_neg (by simp [hn])]
    dsimp only
    rw [scnState_noteEdge, if_pos h1, edgeTime_noteEdge]
  · rw [exec_sosEdge hon h0, if_neg (by simp [hn])]
    dsimp only
    rw [scnState_noteEdge, if_neg h1, edgeTime_noteEdge, if_pos hg]
  · rw [exec_sosEdge hon h0, if_neg (by simp [hn])]
    dsimp only
    rw [scnState_noteEdge, if_neg h1, edgeTime_noteEdge, if_neg hg, State.stray]
  · rw [exec_mosEdge hon h0 hn h1 rfl hc, if_neg (by simp [hm, hg])]
    dsimp only
    cases (!((s.at t).noteEdge st 1 x).learning st && _) <;> rfl
  · rw [exec_mosEdge hon h0 hn h1 rfl hc, if_pos (by simp [hg])]
    rfl
  · rw [exec_eosEdge hon h0 hn h1 rfl hc, if_neg (by simp [hm, hg])]

end Sys2Proof.Machine
end

section
/-! Binding scans to a sheet, and the frames of a scan (R230, R235, R236, R248, R252-R259). -/

namespace Sys2Proof.Machine

/-! ### What a class S boundary leaves -/

theorem applyS_kept (s : State) (a : Nat) : (s.applyS a).regs = s.regs ∧ (s.applyS a).exp = s.exp ∧
    (s.applyS a).clk = s.clk := by
  unfold State.applyS
  split
  · split <;> exact ⟨rfl, rfl, rfl⟩
  · exact ⟨rfl, rfl, rfl⟩

theorem f_of_regs {s u : State} (h : s.regs = u.regs) (a hi lo : Nat) : s.f a hi lo = u.f a hi lo := by
  rw [State.f, reg_of_regs h, State.f]

theorem fb_of_regs {s u : State} (h : s.regs = u.regs) (a i : Nat) : s.fb a i = u.fb a i := by
  exact congrArg (fun w => bits w i i == 1) (reg_of_regs h a)

/-! ### EXPOSE (R230, R231) -/

section
variable {s y : State} {st h i lead : Nat} (hy : s.applyS (Reg.EXP_LINE_PERIOD st) = y)
include hy

theorem bindSheet_full (hn : s.fb (Reg.EXP_CTRL st) 0 = false ∨ y.af (Reg.EXP_LINE_PERIOD st) 31 0 = 0 ∨
    4 ≤ (s.exps st).bindings.length) : s.bindSheet st h i lead = none := by
  obtain ⟨hr, he, hc⟩ := applyS_kept s (Reg.EXP_LINE_PERIOD st)
  rw [hy] at hr he hc
  have hfb := fb_of_regs hr (Reg.EXP_CTRL st) 0
  have hx : y.exps st = s.exps st := by rw [State.exps, he, State.exps]
  rw [State.bindSheet, hy]
  refine if_pos ?_
  rw [hfb, hx]
  rcases hn with hn | hn | hn <;> simp [hn]

theorem bindSheet_unstreamed (hn : (s.exps st).uses.find? (fun u => u.sheet == h && !u.bound) = none) :
    s.bindSheet st h i lead = none := by
  obtain ⟨hr, he, hc⟩ := applyS_kept s (Reg.EXP_LINE_PERIOD st)
  rw [hy] at hr he hc
  have hx : y.exps st = s.exps st := by rw [State.exps, he, State.exps]
  rw [State.bindSheet, hy]
  dsimp only
  rw [hx, hn, ite_self]

theorem bindSheet_bound (hon : s.fb (Reg.EXP_CTRL st) 0 = true) (hl : y.af (Reg.EXP_LINE_PERIOD st) 31 0 ≠ 0)
    (hb : (s.exps st).bindings.length < 4) {u : BandUse}
    (hu : (s.exps st).uses.find? (fun u => u.sheet == h && !u.bound) = some u) : s.bindSheet st h i lead =
      some (y.modExp st fun e =>
        { e with bindings := e.bindings ++ [{ sheet := h, action := i, t0 := s.clk.tb + lead, tA := s.clk.tb
                                              ln0 := u.ln0, stop := u.ln0 + 32 * u.nrows, row0 := u.row0
                                              line := y.af (Reg.EXP_LINE_PERIOD st) 31 0 }]
                 uses := e.uses.map fun v => if v.ln0 = u.ln0 then { v with bound := true } else v }) := by
  obtain ⟨hr, he, hc⟩ := applyS_kept s (Reg.EXP_LINE_PERIOD st)
  rw [hy] at hr he hc
  have hfb := fb_of_regs hr (Reg.EXP_CTRL st) 0
  have hx : y.exps st = s.exps st := by rw [State.exps, he, State.exps]
  rw [State.bindSheet, hy]
  dsimp only
  rw [hfb, hx, hu, hc, if_neg (by simp [hon, hl, hb])]

end

theorem exec_expose {s : State} {t : Tick} {k : Fin 128} {i : Nat} {a : Armed}
    (h : (s.at t).CanTake k i (fun a => isCmd 0x0C 1 a && a.unit ≤ 5 && (s.at t).vidOn a.unit) a) {x : State}
    (hx : (s.at t).markExecuted k i = x) :
    (x.bindSheet a.act.unit (x.handle k) i a.act.param = none →
      exec (.expose t k i) s = .next (x.applyS (Reg.EXP_LINE_PERIOD a.act.unit))) ∧
    ∀ z, x.bindSheet a.act.unit (x.handle k) i a.act.param = some z → exec (.expose t k i) s =
      .next (if (z.report k i z.clk.tb).earlyScans a.act.unit (x.handle k) then
        (z.report k i z.clk.tb).causeH (x.handle k) cACTION_LATE i else z.report k i z.clk.tb) := by
  change (_ → execExpose t k i s = _) ∧ ∀ z, _ → execExpose t k i s = _
  rw [execExpose]
  generalize s.at t = u at *
  subst hx
  simp only [take_run h]
  refine ⟨fun hb => by rw [hb], fun z hz => ?_⟩
  rw [hz]
  dsimp only
  split <;> rfl

/-! ### The frames of a scan (R235, R236, R248, R253, R257, R259) -/

section
variable {s : State} {t : Tick} {st : Fin 6}

theorem exec_scanFrameStart_unbound (h : (s.at t).nextBound st = none) :
    exec (.scanFrameStart t st) s = .next (s.at t) := by
  change execScanFrameStart t st s = _
  rw [execScanFrameStart]
  generalize s.at t = u at *
  simp only [h]

theorem exec_scanFrameStart {x : ScanSet} {b : Binding} (h : (s.at t).nextBound st = some (x, b))
    (hon : (s.at t).vidOn st = true) (hs : (s.at t).sofOf st x ≤ (s.at t).clk.tb) :
    exec (.scanFrameStart t st) s =
      if x.inc1 < minInc || x.inc2 < minInc || (s.at t).sofEarly st ((s.at t).sofOf st x) then
        .next (((s.at t).dropSet st x.k).linkCause st b.sheet kRATE 0 x.k)
      else if (s.at t).linkState st ≠ 3 || (s.at t).mode == .safe then .next ((s.at t).dropSet st x.k)
      else if min (x.b + 129) ((b.stop : Int) - 1) < (s.at t).filled st then
        .next ((s.at t).startFrame st x b ((s.at t).sofOf st x))
      else .next (((s.at t).dropSet st x.k).tileLate st b ((s.at t).filled st)) := by
  change execScanFrameStart t st s = _
  rw [execScanFrameStart]
  generalize s.at t = u at *
  simp only [h, hon, Bool.not_true, Bool.false_or, decide_eq_true_eq, Nat.not_lt.mpr hs, if_false]

theorem sofEarly_iff (u : State) (n sof : Nat) : u.sofEarly n sof = true ↔
    (u.exps n).frame ≠ none ∨ ∃ e, (u.exps n).eof = some e ∧ sof < e.1 := by
  rw [State.sofEarly]
  cases he : (u.exps n).eof <;> simp [Option.isSome_iff_ne_none]

theorem fast_iff (u : State) (x : ScanSet) (n sof : Nat) :
    (decide (x.inc1 < minInc) || decide (x.inc2 < minInc) || u.sofEarly n sof) = true ↔ (x.inc1 < 0x22000000 ∨
      x.inc2 < 0x22000000 ∨ (u.exps n).frame ≠ none ∨ ∃ e, (u.exps n).eof = some e ∧ sof < e.1) := by
  rw [Bool.or_eq_true, sofEarly_iff, Bool.or_eq_true, decide_eq_true_eq, decide_eq_true_eq, or_assoc]
  rfl

theorem exec_columnDeadlineMiss {f : ExpFrame} {b : Binding} (hf : ((s.at t).exps st).frame = some f)
    (hb : f.set.binding = some b) (col : Nat) : exec (.columnDeadlineMiss t st col) s =
      if f.abort || (s.at t).ncol st ≤ col || (s.at t).clk.tb * tk <
          f.set.edge col - (s.at t).f (Reg.XLK_LAT st) 19 0 * 2 ^ 20 - 1024 * tk then .next (s.at t)
      else .next ((s.at t).tileLate st b ((s.at t).columnLine st col f.set b)) := by
  change execColumnDeadlineMiss t st col s = _
  rw [execColumnDeadlineMiss]
  generalize s.at t = u at *
  simp only [hf, hb]

/-- The end of a frame of which n blocks were sent. -/
def State.finishFrame (s : State) (st : Nat) (f : ExpFrame) (b : Binding) (n : Nat) : State :=
  let m := (s.clk.tb + 65) / 66 * 66
  let y := ((s.addOnTime st (f.onTime n)).incSat (Reg.XLK_CNT_FRAMES st) 31 0).sendEof st m f.abort (f.blocks.take n)
  (y.modExp st fun e =>
    { e with frame := none, eof := some (m, f.abort, laneCrcs (f.blocks.take n))
             waiting := (e.waiting.filter fun w => !w.answered || s.clk.tb ≤ w.eof + 409600) ++
               [{ k := f.set.k, sheet := b.sheet, eof := m }] }).readsDone st f.set.k b

theorem addOnTime_clk (u : State) (n : Nat) (l : Tab Nat) : (u.addOnTime n l).clk = u.clk := by
  rw [State.addOnTime]
  refine foldl_invariant (P := fun x : State => x.clk = u.clk) (fun _ _ _ h => ?_) rfl
  exact h

theorem exec_frameEnd_early {f : ExpFrame} (hf : ((s.at t).exps st).frame = some f) (ha : f.abort = false)
    (ht : (s.at t).frameTime st f = false) : exec (.frameEnd t st) s = .next (s.at t) := by
  change execFrameEnd t st s = _
  rw [execFrameEnd]
  generalize s.at t = u at *
  simp only [hf, ha, ht, Bool.not_false, Bool.and_self, if_true]

theorem exec_frameEnd {f : ExpFrame} {b : Binding} (hf : ((s.at t).exps st).frame = some f)
    (hb : f.set.binding = some b) :
    (f.abort = false → (s.at t).frameTime st f = true →
      exec (.frameEnd t st) s = .next ((s.at t).finishFrame st f b f.blocks.length)) ∧
    (f.abort = true → exec (.frameEnd t st) s = .next (({ s.at t with fresh := (s.at t).fresh + 1 } : State).finishFrame st
      f b (f.cutAt (s.at t).fresh (s.at t).clk.tb))) := by
  change (_ → _ → execFrameEnd t st s = _) ∧ (_ → execFrameEnd t st s = _)
  rw [execFrameEnd]
  generalize s.at t = u at *
  simp only [hf, hb]
  have hclk : ∀ v : State, ∀ n m, ((((v.addOnTime st (f.onTime n)).incSat (Reg.XLK_CNT_FRAMES st) 31 0).sendEof st m f.abort
      (f.blocks.take n)).clk = v.clk) := fun v n m => addOnTime_clk v st (f.onTime n)
  refine ⟨fun ha ht => ?_, fun ha => ?_⟩
  · have hc := hclk u f.blocks.length (nextMultiple 66 u.clk.tb)
    rw [ha] at hc
    simp only [ha, ht, Bool.not_false, Bool.not_true, Bool.and_false, Bool.false_eq_true, if_false, hc]
    rw [State.finishFrame, ha]
    rfl
  · have hc := hclk u.takeFresh.2 (f.cutAt u.takeFresh.1 u.takeFresh.2.clk.tb) (nextMultiple 66 u.takeFresh.2.clk.tb)
    rw [ha] at hc
    simp only [ha, Bool.not_true, Bool.false_and, Bool.false_eq_true, if_false, if_true, hc]
    rw [State.finishFrame, ha]
    rfl

end

/-! ### Blocks (R252, R253) -/

theorem sofWord_fields {st lane : Nat} (k : Nat) (hs : st < 6) (hl : lane < 4) :
    nbits (sofWord st k lane).toNat 7 0 = 0x78 ∧ nbits (sofWord st k lane).toNat 9 8 = lane ∧
    nbits (sofWord st k lane).toNat 31 16 = k % 2 ^ 16 ∧ nbits (sofWord st k lane).toNat 34 32 = st := by
  simp only [nbits, sofWord, ctlSOF, BitVec.toNat_ofNat, Nat.reducePow, Nat.reduceAdd, Nat.reduceSub]
  omega

theorem eofWord_fields {crc : Nat} (a : Bool) (hc : crc < 2 ^ 32) : nbits (eofWord a crc).toNat 7 0 = 0x87 ∧
    nbits (eofWord a crc).toNat 8 8 = (if a = true then 1 else 0) ∧ nbits (eofWord a crc).toNat 47 16 = crc := by
  simp only [nbits, eofWord, ctlEOF, BitVec.toNat_ofNat, Nat.reducePow, Nat.reduceAdd, Nat.reduceSub] at *
  split <;> omega

theorem tblWord_fields {band : Nat} (hb : band < 5) : nbits (tblWord band).toNat 7 0 = 0x33 ∧
    nbits (tblWord band).toNat 10 8 = band := by
  simp only [nbits, tblWord, ctlTBL, BitVec.toNat_ofNat, Nat.reducePow, Nat.reduceAdd, Nat.reduceSub]
  omega

theorem lightWord_fields {l : Light} (h1 : l.mode < 4) (h2 : l.emitter < 64) (h3 : l.level < 256)
    (h4 : l.start < 2 ^ 24) (h5 : l.len < 2 ^ 16) :
    nbits l.word.toNat 7 0 = 0x4B ∧ nbits l.word.toNat 9 8 = l.mode ∧ nbits l.word.toNat 15 10 = l.emitter ∧
    nbits l.word.toNat 23 16 = l.level ∧ nbits l.word.toNat 47 24 = l.start ∧ nbits l.word.toNat 63 48 = l.len := by
  simp only [nbits, Light.word, ctlLIGHT, BitVec.toNat_ofNat, Nat.reducePow, Nat.reduceAdd, Nat.reduceSub] at *
  omega

/-! ### The frame that starts (R253-R256) -/

section
variable (s : State) (st : Nat) (x : ScanSet)

theorem headerBody_length (sof band : Nat) : (s.headerBody st x sof band).length = 37 := by
  rw [State.headerBody]
  rw [List.length_append, List.length_append, List.length_map, List.length_range]
  rfl

theorem header_length (sof band : Nat) : (s.header st x sof band).length = 38 := by
  rw [State.header]
  rw [List.length_append, headerBody_length]
  rfl

theorem header_crc (sof band : Nat) : (s.header st x sof band).getD 37 0 =
    BitVec.ofNat 64 (crc32 (blockBytes ((s.header st x sof band).take 37))) := by
  have hl := headerBody_length s st x sof band
  rw [State.header]
  rw [List.take_append_of_le_length (Nat.le_of_eq hl.symm), ← hl, List.take_length,
    List.getD_append_right _ _ _ _ (Nat.le_refl _), Nat.sub_self]
  rfl

variable {hdr : List (BitVec 64)} (hl : hdr.length = 38) (n : Nat) (b : Binding)
include hl

theorem frameBlocks_length : (s.frameBlocks st n x b hdr).length = 76 + 2 * n := by
  have hc : ∀ c ∈ List.range n, (s.columnBlocks st c x b).length = 2 := fun c _ => rfl
  rw [State.frameBlocks, List.length_append, List.length_append, hl, List.length_flatMap,
    List.map_congr_left hc, List.map_const', List.length_range, List.sum_replicate]
  simp only [smul_eq_mul]
  omega

theorem frameBlocks_headers : (s.frameBlocks st n x b hdr).take 38 = hdr ∧
    ((s.frameBlocks st n x b hdr).drop 38).take 38 = hdr := by
  rw [State.frameBlocks, List.append_assoc, ← hl, List.take_left, List.drop_left, List.take_left]
  exact ⟨rfl, rfl⟩

theorem frameBlocks_take {m : Nat} (hm : m ≤ 38) : (s.frameBlocks st n x b hdr).take m = hdr.take m := by
  rw [State.frameBlocks, List.append_assoc, List.take_append_of_le_length (by omega)]

theorem frameBlocks_getD {m : Nat} (hm : m < 38) : (s.frameBlocks st n x b hdr).getD m 0 = hdr.getD m 0 := by
  rw [State.frameBlocks, List.append_assoc, List.getD_append _ _ _ _ (by omega)]

end

theorem ncol_takeBand (s : State) (st : Nat) : (s.takeBand st).ncol st = s.ncol st := by
  have h1 : Reg.EXP_WIDTH st ≠ Reg.XLK_IRQ_STATUS st := by simp only [Reg.EXP_WIDTH, Reg.XLK_IRQ_STATUS]; omega
  have h2 : Reg.EXP_WIDTH st ≠ Reg.XLK_STATUS st := by simp only [Reg.EXP_WIDTH, Reg.XLK_STATUS]; omega
  unfold State.takeBand
  dsimp only
  split
  · rfl
  · split
    · rw [State.ncol, State.xlkIrq, f_setB_ne _ h1, f_setF_ne _ h2, State.ncol]
    · rw [State.ncol, State.xlkIrq, f_setB_ne _ h1, State.ncol]

section
variable (s : State)

@[simp] theorem exps_modExp_self (st : Nat) (g : Exp → Exp) : (s.modExp st g).exps st = g (s.exps st) :=
  Tab.get_put_self _ _ _ _

@[simp] theorem exps_incSat (a hi lo k st : Nat) : (s.incSat a hi lo k).exps st = s.exps st := rfl
@[simp] theorem exps_setB (a i : Nat) (b : Bool) (st : Nat) : (s.setB a i b).exps st = s.exps st := by
  rw [State.exps, setB_exp, State.exps]

end

/-- The frame that starts, with the band in force. -/
def State.frameOf (s : State) (st : Nat) (x : ScanSet) (b : Binding) (sof : Tick) : ExpFrame :=
  { set := x, sof := sof, band := s.f (Reg.XLK_STATUS st) 11 9
    blocks := s.frameBlocks st (s.ncol st) x b (s.header st x sof (s.f (Reg.XLK_STATUS st) 11 9))
    table := Tab.get [] (s.exps st).tables (s.f (Reg.XLK_STATUS st) 11 9), clamp := s.scanClamps st (s.ncol st) x }

/-- The station at a SOF: the frame, and SOF at the head of the control blocks. -/
theorem startFrame_exps (s : State) (st : Nat) (x : ScanSet) (b : Binding) (sof : Tick) :
    ((s.startFrame st x b sof).exps st).frame = some ((s.takeBand st).frameOf st x b sof) ∧
    ((s.startFrame st x b sof).exps st).ctl = { marker := sof, lanes := (List.range 4).map (sofWord st x.k) } ::
      ((s.takeBand st).exps st).ctl.take 15 := by
  rw [State.startFrame]
  generalize s.takeBand st = y
  dsimp only
  split <;> simp only [State.expIrq, exps_setB, exps_incSat, State.sendCtl, exps_modExp_self] <;> exact ⟨rfl, rfl⟩

/-- Settles O32: EXPOSE by what `bindSheet` finds, a frame's start, miss and end by the branches of their commands, and
the blocks by their arithmetic. -/
theorem bindingsAndFrames : Obligations.BindingsAndFrames := by
  refine ⟨fun s t k i a h => ?_, fun s t st col => ?_, fun st k lane band crc h1 h2 h3 h4 => ?_, ?_, ?_⟩
  · dsimp only
    obtain ⟨hn, hsome⟩ := exec_expose h rfl
    refine ⟨fun hf => hn (bindSheet_full rfl hf), fun hf => hn (bindSheet_unstreamed rfl hf), fun h1 h2 h3 u hu => ?_⟩
    exact hsome _ (bindSheet_bound rfl h1 h2 h3 hu)
  · dsimp only
    refine ⟨exec_scanFrameStart_unbound, fun x b hn hon hs => ⟨fun hf => ?_, fun hf hl hm => ⟨fun hfill => ?_, fun hfill => ?_⟩,
      fun hf hl => ?_⟩, fun f b hf hb => ⟨fun ha hc he => ?_, fun ha => ?_, exec_frameEnd_early hf, fun ha => ?_⟩⟩
    · rw [exec_scanFrameStart hn hon hs, if_pos ((fast_iff _ x st _).mpr hf)]
    · rw [exec_scanFrameStart hn hon hs, if_neg fun hc => hf ((fast_iff _ x st _).mp hc), if_neg (by simp [hl, hm]),
        if_pos hfill]
    · rw [exec_scanFrameStart hn hon hs, if_neg fun hc => hf ((fast_iff _ x st _).mp hc), if_neg (by simp [hl, hm]),
        if_neg hfill]
    · rw [exec_scanFrameStart hn hon hs, if_neg fun hc => hf ((fast_iff _ x st _).mp hc), if_pos (by simpa using hl)]
    · rw [exec_columnDeadlineMiss hf hb, if_neg (by simp only [ha, Bool.false_or, Bool.or_eq_true, decide_eq_true_eq]; omega)]
    · rw [exec_columnDeadlineMiss hf hb, if_pos (by simp [ha])]
    · obtain ⟨hw, hcut⟩ := exec_frameEnd hf hb
      cases hab : f.abort with
      | false =>
        refine ⟨f.blocks.length, (s.at t).fresh, fun _ => ⟨rfl, rfl⟩, nofun, ?_⟩
        rw [hw hab (ha.resolve_left (by simp [hab])), State.finishFrame, hab]
      | true =>
        refine ⟨f.cutAt (s.at t).fresh (s.at t).clk.tb, (s.at t).fresh + 1, nofun, fun _ => ?_, ?_⟩
        · have := Nat.mod_lt (Config.freeNat (s.at t).fresh)
            (Nat.zero_lt_succ (min f.blocks.length (4 * (((s.at t).clk.tb - f.sof) / 66))))
          rw [Nat.succ_eq_add_one] at this
          rw [ExpFrame.cutAt]
          omega
        · rw [hcut hab, State.finishFrame, hab]
  · exact ⟨sofWord_fields k h1 h2, fun a => eofWord_fields a h4, tblWord_fields h3⟩
  · intro l h1 h2 h3 h4 h5
    exact lightWord_fields h1 h2 h3 h4 h5
  · intro s st x b sof hst
    obtain ⟨hf, hc⟩ := startFrame_exps s st x b sof
    have hl := header_length (s.takeBand st) st x sof ((s.takeBand st).f (Reg.XLK_STATUS st) 11 9)
    have hcrc := header_crc (s.takeBand st) st x sof ((s.takeBand st).f (Reg.XLK_STATUS st) 11 9)
    obtain ⟨ht, hd⟩ := frameBlocks_headers (s.takeBand st) st x hl ((s.takeBand st).ncol st) b
    refine ⟨_, hf, rfl, rfl, rfl, ?_, ht.trans hd.symm, ?_, _, _, hc, rfl, rfl⟩
    · rw [← ncol_takeBand s st]
      exact frameBlocks_length _ _ _ hl _ _
    · rw [State.frameOf, frameBlocks_getD _ _ _ hl _ _ (by decide), frameBlocks_take _ _ _ hl _ _ (by decide)]
      exact hcrc

end Sys2Proof.Machine
end

section
/-! A gap point with a request for a position that the station does not have (R243, R247). -/

namespace Sys2Proof.Machine

/-- A gap point of station 0 in UP, with a request that moves emitter 40 to position 0x2BFFC0. EXP_RETIRE.POS has five
bits, so that no write makes such a request; the statement does not bound the positions that wait. The address of
EXP_EMAP for that position is BKG_CTRL's, so that taking the request sets BKG_CTRL bit 3, beam power calibration. -/
def gapBeyondMap : State :=
  (Tests.gapped.setReg (Reg.XLK_STATUS 0) 3).modExp 0 fun x => { x with retire := [(0x2BFFC0, 40)] }

theorem gapBeyondMap_ready : (gapBeyondMap.at 8000).vidOn 0 = true ∧ (gapBeyondMap.at 8000).noneBound 0 = true ∧
    (gapBeyondMap.at 8000).facetGap 0 = true ∧ (gapBeyondMap.at 8000).fb (Reg.EXP_CTRL 0) 2 = false ∧
    ((gapBeyondMap.at 8000).exps 0).tblDue = false ∧ ((gapBeyondMap.at 8000).exps 0).inc1 = none ∧
    (gapBeyondMap.at 8000).fb Reg.BKG_CTRL 3 = false := by decide +kernel

/-- The gap point lights an emitter for beam power calibration (R484). -/
theorem gapBeyondMap_lights :
    Tests.after (.gapPoint 8000 0) gapBeyondMap (fun u => (u.exps 0).light.isSome) = true := by decide +kernel

theorem gapBeyondMap_takeRetire :
    ((((gapBeyondMap.at 8000).applyGap 0).takeRetire 0).exps 0).light.isSome = false := by decide +kernel

/-- Refutes O34: with a request for position 0x2BFFC0 waiting, taking the retirements switches beam power calibration
on, and the gap point then lights an emitter, beyond the retirements. -/
theorem not_onTimeAndGapPoints : ¬ Obligations.OnTimeAndGapPoints := by
  unfold Obligations.OnTimeAndGapPoints
  rintro ⟨-, h⟩
  obtain ⟨hon, hb, hg, ha, ht, hi, hc⟩ := gapBeyondMap_ready
  obtain ⟨-, -, hgap, -⟩ := h gapBeyondMap 8000 0 0 hon
  have hlit := gapBeyondMap_lights
  rw [Tests.after, hgap hb hg ha ht hi hc] at hlit
  exact Bool.false_ne_true (gapBeyondMap_takeRetire.symm.trans hlit)

end Sys2Proof.Machine
end

section
/-! The exposure link: its states, its spare lane, status records and LIGHT (R250, R258, R261-R266). -/

namespace Sys2Proof.Machine

/-! ### What the on-time of a frame touches -/

theorem put_key_lt {α : Type} [DecidableEq α] {d : α} {t : Tab α} {n i : Nat} {x : α} (h : ∀ p ∈ t, p.1 < n) (hi : i < n) :
    ∀ p ∈ Tab.put d t i x, p.1 < n := by
  intro p hp
  unfold Tab.put at hp
  split at hp
  · exact h p (Tab.mem_erase hp)
  · rcases Tab.mem_insert hp with rfl | hp
    · exact hi
    · exact h p hp

theorem emitter_lt {f : ExpFrame} {j e : Nat} (h : f.emitter j = some e) : e < 64 := by
  rw [ExpFrame.emitter] at h
  split at h
  · rw [← Option.some.inj h]
    exact Nat.mod_lt _ (by decide)
  · exact nomatch h

/-- A header names emitters by six bits. -/
theorem onTime_key_lt (f : ExpFrame) (n : Nat) : ∀ p ∈ f.onTime n, p.1 < 64 := by
  rw [ExpFrame.onTime]
  refine foldl_invariant (P := fun t : Tab Nat => ∀ p ∈ t, p.1 < 64) (fun t q _ ht => ?_) nofun
  rw [ExpFrame.blockOnTime]
  refine foldl_invariant (P := fun t : Tab Nat => ∀ p ∈ t, p.1 < 64) (fun t p _ ht => ?_) ht
  cases he : f.emitter (16 * (q.2 % 2) + p) with
  | none => exact ht
  | some e => exact put_key_lt ht (emitter_lt he)

/-- The count of an emitter with more on-time (R248). -/
def State.countOnTime (s : State) (st : Nat) (p : Nat × Nat) : State :=
  s.setPair (Reg.EXP_ONTIME_LO st p.1) (Reg.EXP_ONTIME_HI st p.1)
    ((s.pair (Reg.EXP_ONTIME_LO st p.1) (Reg.EXP_ONTIME_HI st p.1) + p.2) % 2 ^ 48)

theorem addOnTime_eq (s : State) (st : Nat) (l : Tab Nat) : s.addOnTime st l = l.foldl (fun s p => s.countOnTime st p) s := rfl

theorem addOnTime_kept (s : State) (st : Nat) {l : Tab Nat} (hl : ∀ p ∈ l, p.1 < 64) :
    (s.addOnTime st l).mem = s.mem ∧ (s.addOnTime st l).exp = s.exp ∧ (s.addOnTime st l).clk = s.clk ∧
    ∀ a, 0x20C00704 + 0x10000 * st ≤ a → (s.addOnTime st l).reg a = s.reg a := by
  rw [addOnTime_eq]
  refine foldl_invariant (P := fun x : State => x.mem = s.mem ∧ x.exp = s.exp ∧ x.clk = s.clk ∧
    ∀ a, 0x20C00704 + 0x10000 * st ≤ a → x.reg a = s.reg a) (fun x p hp h => ?_) ⟨rfl, rfl, rfl, fun _ _ => rfl⟩
  obtain ⟨h1, h2, h3, h4⟩ := h
  refine ⟨h1, h2, h3, fun a ha => ?_⟩
  have := hl p hp
  rw [State.countOnTime, State.setPair, reg_setReg_ne _ (by simp only [Reg.EXP_ONTIME_HI]; omega),
    reg_setReg_ne _ (by simp only [Reg.EXP_ONTIME_LO]; omega), h4 a ha]

/-! ### Link states (R261) -/

theorem f_of_reg {s u : State} {a : Nat} (h : s.reg a = u.reg a) (hi lo : Nat) : s.f a hi lo = u.f a hi lo :=
  congrArg (fun w => bits w hi lo) h

theorem fb_of_reg {s u : State} {a : Nat} (h : s.reg a = u.reg a) (i : Nat) : s.fb a i = u.fb a i :=
  congrArg (fun w => bits w i i == 1) h

section
variable (s : State) (st : Nat)

/-- Cutting a frame off leaves the station but for the frame, and registers beyond the on-time counts. -/
theorem cutFrame_kept : (s.cutFrame st).mem = s.mem ∧ (s.cutFrame st).clk = s.clk ∧
    ((s.cutFrame st).exps st) = { s.exps st with frame := none } ∧
    ∀ a, 0x20C00704 + 0x10000 * st ≤ a → (s.cutFrame st).reg a = s.reg a := by
  rw [State.cutFrame]
  cases hf : (s.exps st).frame with
  | none =>
    exact ⟨rfl, rfl, congrArg (fun x => ({ s.exps st with frame := x } : Exp)) hf, fun _ _ => rfl⟩
  | some f =>
    obtain ⟨h1, h2, h3, h4⟩ := addOnTime_kept s.takeFresh.2 st
      (onTime_key_lt f (f.cutAt s.takeFresh.1 s.takeFresh.2.clk.tb))
    refine ⟨h1, h3, ?_, h4⟩
    dsimp only
    rw [exps_modExp_self, State.exps, h2]
    rfl

theorem linkState_setF (n : Nat) (h : n < 8) : (s.setF (Reg.XLK_STATUS st) 2 0 n).linkState st = n := by
  rw [State.linkState, f_setF_self s _ (by decide) (by decide)]
  exact Nat.mod_eq_of_lt h

theorem enterLink_facts {n : Nat} (h : n < 8) : (s.enterLink st n).linkState st = n ∧
    (s.enterLink st n).exps st = { s.exps st with since := s.clk.tb, locks := 0, cont := false } ∧
    (s.enterLink st n).mem = s.mem ∧ ∀ a, a ≠ Reg.XLK_STATUS st → (s.enterLink st n).reg a = s.reg a :=
  ⟨linkState_setF s st n h, exps_modExp_self _ st _, rfl, fun _ ha => reg_setF_ne s ha _ _ _⟩

theorem linkState_setEnable (b : Bool) : (s.setB (Reg.XLK_CTRL st) 0 b).linkState st = s.linkState st :=
  f_setB_ne s (by simp only [Reg.XLK_STATUS, Reg.XLK_CTRL]; omega) _ _ _ _

theorem writeXlkEn_start (h : s.linkState st = 0) :
    s.writeXlkEn st true = (s.setB (Reg.XLK_CTRL st) 0 true).enterLink st 1 := by
  rw [State.writeXlkEn]
  rw [if_pos rfl, if_pos ((linkState_setEnable s st true).trans h)]

theorem writeXlkEn_end (h : s.linkState st ≠ 0) :
    s.writeXlkEn st false = (s.setB (Reg.XLK_CTRL st) 0 false).linkOff st := by
  rw [State.writeXlkEn]
  rw [if_neg (by decide), if_neg fun hc => h ((linkState_setEnable s st false).symm.trans hc)]

theorem linkOff_facts : (s.linkOff st).linkState st = 0 ∧
    (s.linkOff st).reg (Reg.XLK_CTRL st) = s.reg (Reg.XLK_CTRL st) ∧ ((s.linkOff st).exps st).frame = none ∧
    ((s.linkOff st).exps st).waiting = (s.exps st).waiting ∧ (s.linkOff st).mem = s.mem := by
  obtain ⟨c1, c2, c3, c4⟩ := cutFrame_kept s st
  obtain ⟨e1, e2, e3, e4⟩ := enterLink_facts (s.cutFrame st) st (n := 0) (by decide)
  have hx : (s.linkOff st).exps st = _ := exps_modExp_self ((s.cutFrame st).enterLink st 0) st _
  rw [e2, c3] at hx
  refine ⟨e1, ?_, by rw [hx], by rw [hx], e3.trans c1⟩
  exact (e4 (Reg.XLK_CTRL st) (by simp only [Reg.XLK_STATUS, Reg.XLK_CTRL]; omega)).trans (c4 _ (by simp only [Reg.XLK_CTRL]; omega))

theorem linkDown_unbound (hb : (s.exps st).bindings = []) (kind k : Nat) : s.linkDown st kind k =
    ((((s.cutFrame st).enterLink st 4).xlkIrq st 1).expEvent st 6).setF (Reg.XLK_ERR st) 3 0 kind := by
  rw [State.linkDown, hb]
  rfl

theorem linkDown_facts (hb : (s.exps st).bindings = []) {kind : Nat} (hk : kind < 16) (k : Nat) :
    (s.linkDown st kind k).linkState st = 4 ∧ (s.linkDown st kind k).fb (Reg.XLK_IRQ_STATUS st) 1 = true ∧
    (s.linkDown st kind k).f (Reg.XLK_ERR st) 3 0 = kind ∧ (s.linkDown st kind k).mem = s.mem := by
  obtain ⟨c1, -, -, -⟩ := cutFrame_kept s st
  obtain ⟨e1, -, e3, -⟩ := enterLink_facts (s.cutFrame st) st (n := 4) (by decide)
  rw [linkDown_unbound s st hb]
  generalize (s.cutFrame st).enterLink st 4 = y at *
  refine ⟨?_, ?_, ?_, ?_⟩
  · rw [State.linkState, f_setF_ne _ (by simp only [Reg.XLK_STATUS, Reg.XLK_ERR]; omega), State.expEvent, f_raise,
      State.xlkIrq, f_setB_ne _ (by simp only [Reg.XLK_STATUS, Reg.XLK_IRQ_STATUS]; omega)]
    exact e1
  · rw [fb_setF_ne _ (by simp only [Reg.XLK_IRQ_STATUS, Reg.XLK_ERR]; omega), State.expEvent, fb_raise, State.xlkIrq,
      fb_setB_self _ _ (by decide)]
  · rw [f_setF_self _ _ (by decide) (by decide)]
    exact Nat.mod_eq_of_lt hk
  · exact (setB_mem y _ _ _).trans (e3.trans c1)

end

section
variable {s : State} {t : Tick} {st : Fin 6}

theorem exec_xlkEnWrite (h : (s.at t).vidOn st = true) (en : Bool) :
    exec (.xlkEnWrite t st en) s = .next ((s.at t).writeXlkEn st en) := by
  change execXlkEnWrite t st en s = _
  rw [execXlkEnWrite]
  generalize s.at t = u at *
  exact if_pos h

theorem exec_tblLoad (h : (s.at t).vidOn st = true) :
    exec (.tblLoad t st) s = .next ((s.at t).modExp st fun x => { x with tblDue := true }) := by
  change execTblLoad t st s = _
  rw [execTblLoad]
  generalize s.at t = u at *
  exact if_pos h

theorem exec_trainTimeout : exec (.trainTimeout t st) s =
    if (s.at t).linkState st = 1 ∧ ((s.at t).exps st).since + 19200000 ≤ (s.at t).clk.tb then
      .next ((s.at t).linkDown st kTRAIN ((s.at t).lastScan st)) else .next (s.at t) := rfl

theorem exec_loadTimeout : exec (.loadTimeout t st) s =
    if (s.at t).linkState st = 2 ∧ ((s.at t).exps st).since + 6400000 ≤ (s.at t).clk.tb then
      .next ((s.at t).linkDown st kTABLE ((s.at t).lastScan st)) else .next (s.at t) := rfl

theorem exec_linkStatusTimeout : exec (.linkStatusTimeout t st) s =
    if (s.at t).linkState st = 3 ∧ ((s.at t).exps st).lastRec.getD ((s.at t).exps st).since + 1280000 ≤ (s.at t).clk.tb then
      .next ((s.at t).linkDown st kNO_STATUS ((s.at t).lastScan st)) else .next (s.at t) := rfl

/-! ### The spare lane (R261, R262) -/

theorem exec_xlkForceSubst (lane : Fin 4) : exec (.xlkForceSubst t st lane) s =
    if (s.at t).vidOn st then .next ((s.at t).wantSubst st lane) else .next (s.at t) := rfl

/-- A lane replaced by the spare. -/
def State.swapLane (s : State) (st lane : Nat) : State :=
  let y := (s.setF (Reg.XLK_LANE_MAP st) (3 * lane + 2) (3 * lane) (s.physLane st 4)).setF (Reg.XLK_LANE_MAP st) 14 12 7
  (((y.setB (Reg.XLK_STATUS st) 3 false).xlkIrq st 2).expEvent st 5).modExp st fun x =>
    { x with subst := [], crcHist := Tab.erase lane x.crcHist }

theorem exec_laneSubstitute_idle (h : (s.at t).linkState st ≠ 3) : exec (.laneSubstitute t st) s = .next (s.at t) := by
  change execLaneSubstitute t st s = _
  rw [execLaneSubstitute]
  generalize s.at t = u at *
  dsimp only
  cases (u.exps st).subst with
  | nil => rfl
  | cons lane l => exact if_pos (by simp [h])

theorem exec_laneSubstitute {lane : Nat} (hs : ((s.at t).exps st).subst = [lane]) (h3 : (s.at t).linkState st = 3)
    (hf : ((s.at t).exps st).frame = none) (ht : ((s.at t).exps st).tblEnd ≤ (s.at t).clk.tb) :
    exec (.laneSubstitute t st) s = .next (((s.at t).swapLane st lane).ldgRecord 2 0x13 1
      (bytesLE 1 st ++ bytesLE 1 lane ++ bytesLE 1 ((s.at t).physLane st lane) ++ bytesLE 1 ((s.at t).physLane st 4))) := by
  change execLaneSubstitute t st s = _
  rw [execLaneSubstitute]
  generalize s.at t = u at *
  simp only [hs]
  exact if_neg (by simp [h3, hf, ht])

end

theorem ldgRecord_exp (s : State) (cls kind units : Nat) (body : List Byte) :
    (s.ldgRecord cls kind units body).exp = s.exp := by
  unfold State.ldgRecord
  split
  · exact setB_exp (s.incSat Reg.LDG_CNT 15 0) _ _ _
  · unfold State.ldgQueue
    split <;> rfl

section
variable (s : State) (st : Nat)

theorem physLane_lt (i : Nat) : s.physLane st i < 8 :=
  lt_of_lt_of_eq (f_lt s _ _ _) (by rw [show 3 * i + 2 + 1 - 3 * i = 3 by omega]; rfl)

/-- The lane map through a replacement. -/
theorem swapLane_map (lane : Nat) : (s.swapLane st lane).reg (Reg.XLK_LANE_MAP st) =
    ((s.setF (Reg.XLK_LANE_MAP st) (3 * lane + 2) (3 * lane) (s.physLane st 4)).setF (Reg.XLK_LANE_MAP st) 14 12 7).reg
      (Reg.XLK_LANE_MAP st) := by
  unfold State.swapLane State.xlkIrq State.expEvent
  dsimp only
  rw [State.modExp]
  exact (reg_setB_ne _ (by simp only [Reg.XLK_LANE_MAP, Reg.XLK_IRQ_STATUS]; omega) _ _).trans
    (reg_setB_ne _ (by simp only [Reg.XLK_LANE_MAP, Reg.XLK_STATUS]; omega) _ _)

theorem swapLane_facts {lane : Nat} (hl : lane < 4) : (s.swapLane st lane).physLane st lane = s.physLane st 4 ∧
    (s.swapLane st lane).physLane st 4 = 7 ∧ (s.swapLane st lane).fb (Reg.XLK_STATUS st) 3 = false ∧
    (s.swapLane st lane).fb (Reg.XLK_IRQ_STATUS st) 2 = true ∧ ((s.swapLane st lane).exps st).subst = [] ∧
    ∀ l < 4, l ≠ lane → (s.swapLane st lane).physLane st l = s.physLane st l := by
  have hp := physLane_lt s st 4
  have hread (l : Nat) : (s.swapLane st lane).physLane st l =
      ((s.setF (Reg.XLK_LANE_MAP st) (3 * lane + 2) (3 * lane) (s.physLane st 4)).setF (Reg.XLK_LANE_MAP st) 14 12 7).f
        (Reg.XLK_LANE_MAP st) (3 * l + 2) (3 * l) := f_of_reg (swapLane_map s st lane) _ _
  refine ⟨?_, ?_, ?_, ?_, ?_, fun l h4 hne => ?_⟩
  · rw [hread, f_setF_field _ _ (by decide) (by decide) (by omega), f_setF_self _ _ (by omega) (by omega)]
    refine Nat.mod_eq_of_lt ?_
    rw [show 3 * lane + 2 + 1 - 3 * lane = 3 by omega]
    exact hp
  · rw [hread]
    exact f_setF_self _ _ (by decide) (by decide) _
  · refine (fb_setB_ne _ (show Reg.XLK_STATUS st ≠ Reg.XLK_IRQ_STATUS st from ?_) _ _ _).trans (fb_setB_self _ _ (by decide) _)
    simp only [Reg.XLK_STATUS, Reg.XLK_IRQ_STATUS]
    omega
  · exact fb_setB_self _ _ (by decide) _
  · exact congrArg Exp.subst (exps_modExp_self _ st _)
  · rw [hread, f_setF_field _ _ (by decide) (by decide) (by omega), f_setF_field _ _ (by omega) (by omega) (by omega)]
    rfl

end

/-- Settles O35: the link's states by what `enterLink`, `linkOff` and `linkDown` leave, each timeout by its branch, and
the spare lane by the lane map that the replacement leaves. -/
theorem linksAndSpareLane : Obligations.LinksAndSpareLane := by
  refine ⟨fun s t st => ?_, fun s t st lane => ?_⟩
  · dsimp only
    refine ⟨fun hon => ⟨fun h0 => ?_, fun h0 => ?_, exec_tblLoad hon⟩, fun h1 ht => ?_, fun h => ?_, fun h2 ht => ?_, fun h => ?_,
      fun h3 ht => ?_, fun h => ?_, fun hb kind n hk => linkDown_facts _ _ hb hk n⟩
    · have hex := exec_xlkEnWrite hon true
      generalize s.at t = u at *
      obtain ⟨h1, h2, h3, h4⟩ := enterLink_facts (u.setB (Reg.XLK_CTRL st) 0 true) st (n := 1) (by decide)
      refine ⟨_, hex.trans (by rw [writeXlkEn_start u st h0]), h1, ?_, ?_, ?_, ?_⟩
      · rw [fb_of_reg (h4 (Reg.XLK_CTRL st) (by simp only [Reg.XLK_STATUS, Reg.XLK_CTRL]; omega)),
          fb_setB_self _ _ (by decide)]
      · rw [h2, setB_clk]
      · rw [h2]
      · rw [h3, setB_mem]
    · have hex := exec_xlkEnWrite hon false
      generalize s.at t = u at *
      obtain ⟨h1, h2, h3, h4, h5⟩ := linkOff_facts (u.setB (Reg.XLK_CTRL st) 0 false) st
      refine ⟨_, hex.trans (by rw [writeXlkEn_end u st h0]), h1, ?_, h3, ?_, ?_⟩
      · exact (fb_of_reg h2 0).trans (fb_setB_self u _ (by decide) false)
      · rw [h4, exps_setB]
      · rw [h5, setB_mem]
    · rw [exec_trainTimeout, if_pos ⟨h1, ht⟩]
    · rw [exec_trainTimeout, if_neg fun hc => h.elim (fun h => h hc.1) fun h => absurd hc.2 (Nat.not_le.mpr h)]
    · rw [exec_loadTimeout, if_pos ⟨h2, ht⟩]
    · rw [exec_loadTimeout, if_neg fun hc => h hc.1]
    · rw [exec_linkStatusTimeout, if_pos ⟨h3, ht⟩]
    · rw [exec_linkStatusTimeout, if_neg fun hc => h hc.1]
  · dsimp only
    refine ⟨fun hon h3 hn => ⟨fun hf hs => ?_, fun h => ?_⟩, fun h3 => ⟨?_, exec_laneSubstitute_idle h3⟩, fun hs h3 hf ht => ?_⟩
    · rw [exec_xlkForceSubst, if_pos hon, State.wantSubst, if_neg (by simp [h3, hs]), if_pos (by simp [hf, hs])]
    · rw [exec_xlkForceSubst, if_pos hon, State.wantSubst, if_neg (by simp [h3, hn]), if_neg]
      rcases h with h | h
      · simp [h]
      · simp [h]
    · have hw : (s.at t).wantSubst st lane = s.at t := if_pos (by simp [h3])
      rw [exec_xlkForceSubst, hw, ite_self]
    · refine ⟨_, exec_laneSubstitute hs h3 hf ht, ?_⟩
      obtain ⟨h1, h2, h4, h5, h6, h7⟩ := swapLane_facts (s.at t) st lane.isLt
      obtain ⟨-, -, hr⟩ := ldgRecord_kept ((s.at t).swapLane st lane) 2 0x13 1
        (bytesLE 1 st ++ bytesLE 1 lane ++ bytesLE 1 ((s.at t).physLane st lane) ++ bytesLE 1 ((s.at t).physLane st 4))
      have he := ldgRecord_exp ((s.at t).swapLane st lane) 2 0x13 1
        (bytesLE 1 st ++ bytesLE 1 lane ++ bytesLE 1 ((s.at t).physLane st lane) ++ bytesLE 1 ((s.at t).physLane st 4))
      generalize ((s.at t).swapLane st lane).ldgRecord 2 0x13 1 _ = v at *
      have hm := hr (Reg.XLK_LANE_MAP st) (by simp only [Reg.XLK_LANE_MAP]; omega)
      have hp (l : Nat) : v.physLane st l = ((s.at t).swapLane st lane).physLane st l :=
        f_of_reg hm _ _
      refine ⟨(hp _).trans h1, (hp _).trans h2, ?_, ?_, ?_, fun l hl hne => (hp l).trans (h7 l hl hne)⟩
      · exact (fb_of_reg (hr (Reg.XLK_STATUS st) (by simp only [Reg.XLK_STATUS]; omega)) 3).trans h4
      · exact (fb_of_reg (hr (Reg.XLK_IRQ_STATUS st) (by simp only [Reg.XLK_IRQ_STATUS]; omega)) 2).trans h5
      · rw [State.exps, he]
        exact h6

end Sys2Proof.Machine
end

section
/-! Status records, LINK_CHECK and LIGHT (R258, R263-R266). -/

namespace Sys2Proof.Machine

section
variable {s : State} {t : Tick} {st : Fin 6} {r : List Byte}

theorem exec_statusRecord (hon : (s.at t).vidOn st = true) : exec (.statusRecord t st r) s =
    if r.length = 128 ∧ sliceLE r 0 1 = 0x53 ∧ sliceLE r 1 1 = st.val ∧ crc32 (r.take 124) = sliceLE r 0x7C 4 then
      (let a := (List.range 48).foldl (fun s e => s.wearOf st r e) ((s.at t).showRecord st r)
       .next ((((List.range 48).foldl (fun s e => s.faultOf st r e) a).beamResult st r).recordLink st r
         ((List.range 48).any fun e => (sliceLE r 0x10 6).testBit e && a.named st e)))
    else .next ((s.at t).incSat (Reg.XLK_CNT_MISC st) 31 16) := by
  change execStatusRecord t st r s = _
  rw [execStatusRecord]
  generalize s.at t = u at *
  rw [if_neg (by simp [hon])]
  by_cases hg : r.length = 128 ∧ sliceLE r 0 1 = 0x53 ∧ sliceLE r 1 1 = st.val ∧ crc32 (r.take 124) = sliceLE r 0x7C 4
  · obtain ⟨h1, h2, h3, h4⟩ := id hg
    rw [if_pos hg, if_neg (by simp [h1, h2, h3, h4])]
  · rw [if_neg hg, if_pos (by simpa [imp_iff_not_or, not_and_or, or_assoc] using hg)]

/-- A frame that a record should have answered by now (R264). -/
def State.unanswered (s : State) (w : SentFrame) : Bool := !w.answered && w.eof + 409600 ≤ s.clk.tb

theorem exec_frameStatusTimeout : exec (.frameStatusTimeout t st) s =
    .next ((((s.at t).exps st).waiting.filter (s.at t).unanswered).foldl
      (fun s w => s.linkCause st w.sheet kNO_STATUS 0 w.k) ((s.at t).modExp st fun x => { x with
        waiting := x.waiting.map fun w => if (s.at t).unanswered w then { w with answered := true } else w })) := rfl

theorem exec_frameStatusTimeout_one {w : SentFrame} (hw : ((s.at t).exps st).waiting = [w]) (ha : w.answered = false)
    (ht : w.eof + 409600 ≤ (s.at t).clk.tb) : exec (.frameStatusTimeout t st) s =
      .next (((s.at t).modExp st fun x => { x with waiting := [{ w with answered := true }] }).linkCause st w.sheet
        kNO_STATUS 0 w.k) := by
  have hl : (s.at t).unanswered w = true := by simp [State.unanswered, ha, ht]
  rw [exec_frameStatusTimeout]
  generalize s.at t = u at *
  have hmod : (u.modExp st fun x => { x with
      waiting := x.waiting.map fun w => if u.unanswered w then { w with answered := true } else w }) =
      u.modExp st fun x => { x with waiting := [{ w with answered := true }] } := by
    rw [State.modExp, hw, List.map_singleton, if_pos hl, State.modExp]
  rw [hw, hmod, List.filter_singleton, hl]
  rfl

theorem exec_linkCheck {k : Fin 128} {i : Nat} {a : Armed} (h : (s.at t).CanTake k i
      (fun a => isCmd 0x0D 1 a && a.unit ≤ 5 && (s.at t).vidOn a.unit) a) {x y : State}
    (hx : (s.at t).markExecuted k i = x) (hy : x.report k i x.clk.tb = y) : exec (.linkCheck t k i) s =
      if y.linkState a.act.unit = 3 then .next y
      else .next (y.linkCause a.act.unit (x.handle k) kDOWN 0 (y.lastScan a.act.unit)) := by
  change execLinkCheck t k i s = _
  rw [execLinkCheck]
  generalize s.at t = u at *
  subst hx hy
  simp only [take_run h]

/-- A LIGHT block at the next block start. -/
def State.lightBlock (s : State) (st mode start len : Nat) : Light :=
  { mode := mode, emitter := s.refEmitter st, level := s.f (Reg.XLK_SYNC st) 7 0, start := start, len := len
    marker := nextMultiple 66 s.clk.tb }

section
variable {sensor : Fin 3}

theorem exec_lightSend_none (h : (s.at t).linkState st ≠ 3 ∨ (s.at t).mode = .safe) :
    exec (.lightSend t st sensor) s = .next (s.at t) := by
  change execLightSend t st sensor s = _
  rw [execLightSend]
  generalize s.at t = u at *
  refine if_pos ?_
  rcases h with h | h <;> simp [h]

variable (hon : (s.at t).vidOn st = true) (h3 : (s.at t).linkState st = 3) (hm : (s.at t).mode ≠ .safe)
include hon h3 hm

theorem exec_lightSend_change {b : Bool} (hs : ((s.at t).scnState st == 1) = b) (hc : ((s.at t).exps st).cont = !b) :
    exec (.lightSend t st sensor) s = .next (((s.at t).sendLight st ((s.at t).lightBlock st (if b then 1 else 0) 0 0)).modExp
      st fun x => { x with cont := b }) := by
  change execLightSend t st sensor s = _
  rw [execLightSend]
  generalize s.at t = u at *
  rw [if_neg (by simp [hon, h3, hm])]
  dsimp only
  rw [hs, hc, if_pos (by cases b <;> rfl)]
  rfl

theorem exec_lightSend_window (h2 : 2 ≤ (s.at t).scnState st) (hc : ((s.at t).exps st).cont = false) :
    ((s.at t).lightDue st sensor (nextMultiple 66 (s.at t).clk.tb) = none → exec (.lightSend t st sensor) s = .next (s.at t)) ∧
    ∀ k lo hi, (s.at t).lightDue st sensor (nextMultiple 66 (s.at t).clk.tb) = some (k, lo, hi) →
      exec (.lightSend t st sensor) s = .next ((((s.at t).fitNext 65536 (ceilDiv (hi - lo).toNat 64)).sendLight st
        ((s.at t).lightBlock st 2 (lo - nextMultiple 66 (s.at t).clk.tb).toNat
          ((s.at t).fitVal 65536 (ceilDiv (hi - lo).toNat 64)))).modExp st fun x => { x with lit := Tab.insert sensor.val k x.lit }) := by
  change (_ → execLightSend t st sensor s = _) ∧ ∀ k lo hi, _ → execLightSend t st sensor s = _
  rw [execLightSend]
  generalize s.at t = u at *
  have h1 : (u.scnState st == 1) = false := by simp; omega
  rw [if_neg (by simp [hon, h3, hm])]
  dsimp only
  rw [hc, h1, if_neg (by decide), if_neg (Nat.not_lt.mpr h2)]
  exact ⟨fun hn => by rw [hn], fun k lo hi hs => by rw [hs]; rfl⟩

end
end

/-- A window that LIGHT is due for opens no less than 2,048 ticks later (R258). -/
theorem lightDue_ahead {s : State} {st sensor m k : Nat} {lo hi : Int} (h : s.lightDue st sensor m = some (k, lo, hi)) :
    (m : Int) + 2048 ≤ lo := by
  rw [State.lightDue] at h
  have := List.find?_some h
  simp only [Bool.and_eq_true, decide_eq_true_eq] at this
  exact this.1.1

section
variable (s : State) (st : Nat)

/-- A LIGHT block leaves registers and memory, and is the station's latest. -/
theorem sendLight_facts (l : Light) (g : Exp → Exp) :
    ((s.sendLight st l).modExp st g).regs = s.regs ∧ ((s.sendLight st l).modExp st g).mem = s.mem ∧
    ((s.sendLight st l).modExp st g).exps st = g ((s.sendLight st l).exps st) ∧
    ((s.sendLight st l).exps st).light = some l ∧ ((s.sendLight st l).exps st).lit = (s.exps st).lit := by
  have hx : (s.sendLight st l).exps st = _ := exps_modExp_self (s.modExp st fun x => { x with light := some l }) st _
  rw [exps_modExp_self] at hx
  exact ⟨by simp [State.sendLight, State.sendCtl], by simp [State.sendLight, State.sendCtl], exps_modExp_self _ st g,
    by rw [hx], by rw [hx]⟩

theorem fitNext_kept (bound n : Nat) : (s.fitNext bound n).regs = s.regs ∧ (s.fitNext bound n).mem = s.mem ∧
    (s.fitNext bound n).exps st = s.exps st := by
  unfold State.fitNext
  split <;> exact ⟨rfl, rfl, rfl⟩

end

/-- Settles O36: a record by its checks, a frame without a record, LINK_CHECK by the link's state, and LIGHT by what SCN
asks for. -/
theorem statusRecords : Obligations.StatusRecords := by
  intro s t st r sensor
  dsimp only
  refine ⟨fun hon => ⟨fun hg => ?_, fun hg => ?_, fun f => rfl⟩, fun w => exec_frameStatusTimeout_one,
    fun k i a ha => ⟨fun h3 => ?_, fun h3 => ?_⟩, fun hon h3 hm => ⟨fun h1 hc => ?_, fun h1 hc => ?_, fun h2 hc => ?_⟩,
    exec_lightSend_none⟩
  · rw [exec_statusRecord hon, if_neg hg]
  · rw [exec_statusRecord hon, if_pos hg]
  · rw [exec_linkCheck ha rfl rfl, if_pos h3]
  · rw [exec_linkCheck ha rfl rfl, if_neg h3]
  · have hex := exec_lightSend_change (sensor := sensor) hon h3 hm (b := true) (by simp [h1]) hc
    generalize s.at t = u at *
    obtain ⟨hr, hmem, hx, hl, -⟩ := sendLight_facts u st (u.lightBlock st 1 0 0) fun x => { x with cont := true }
    refine ⟨_, hex, hr, hmem, ?_, u.lightBlock st 1 0 0, ?_, rfl, rfl, rfl, rfl⟩
    · rw [if_pos rfl, hx]
    · rw [if_pos rfl, hx]
      exact hl
  · have hex := exec_lightSend_change (sensor := sensor) hon h3 hm (b := false) (by simp [h1]) hc
    generalize s.at t = u at *
    obtain ⟨hr, hmem, hx, hl, -⟩ := sendLight_facts u st (u.lightBlock st 0 0 0) fun x => { x with cont := false }
    refine ⟨_, hex, hr, hmem, ?_, u.lightBlock st 0 0 0, ?_, rfl⟩
    · rw [if_neg (by decide), hx]
    · rw [if_neg (by decide), hx]
      exact hl
  · obtain ⟨hn, hs⟩ := exec_lightSend_window (sensor := sensor) hon h3 hm h2 hc
    refine ⟨hn, fun k lo hi hd => ⟨lightDue_ahead hd, ?_⟩⟩
    have hex := hs k lo hi hd
    generalize s.at t = u at *
    obtain ⟨f1, f2, f3⟩ := fitNext_kept u st 65536 (ceilDiv (hi - lo).toNat 64)
    generalize u.fitNext 65536 (ceilDiv (hi - lo).toNat 64) = y at *
    obtain ⟨hr, hmem, hx, hl, hlit⟩ := sendLight_facts y st (u.lightBlock st 2 (lo - nextMultiple 66 u.clk.tb).toNat
      (u.fitVal 65536 (ceilDiv (hi - lo).toNat 64))) fun x => { x with lit := Tab.insert sensor.val k x.lit }
    refine ⟨_, hex, hr.trans f1, hmem.trans f2, ?_, u.lightBlock st 2 (lo - nextMultiple 66 u.clk.tb).toNat
      (u.fitVal 65536 (ceilDiv (hi - lo).toNat 64)), ?_, rfl, rfl⟩
    · rw [hx, hlit, f3]
    · rw [hx]
      exact hl

end Sys2Proof.Machine
end

section
/-! Commands, starts and trips of field-oriented channels (R280-R289, R293, R294). -/

namespace Sys2Proof.Machine

/-! ### A channel of FOC through the updates of the state -/

section
variable (s : State)

@[simp] theorem focCh_setReg (a : Nat) (v : Word) (c : Nat) : (s.setReg a v).focCh c = s.focCh c := rfl
@[simp] theorem focCh_setF (a hi lo n c : Nat) : (s.setF a hi lo n).focCh c = s.focCh c := rfl
@[simp] theorem focCh_incSat (a hi lo n c : Nat) : (s.incSat a hi lo n).focCh c = s.focCh c := rfl
@[simp] theorem focCh_raise (src ev c : Nat) : (s.raise src ev).focCh c = s.focCh c := rfl
@[simp] theorem focCh_setB (a i : Nat) (b : Bool) (c : Nat) : (s.setB a i b).focCh c = s.focCh c := by
  rw [State.focCh, setB_foc, State.focCh]

@[simp] theorem focCh_modCh_self (c : Nat) (g : FocCh → FocCh) : (s.modCh c g).focCh c = g (s.focCh c) :=
  Tab.get_put_self _ _ _ _

@[simp] theorem f_modCh (c : Nat) (g : FocCh → FocCh) (a hi lo : Nat) : (s.modCh c g).f a hi lo = s.f a hi lo := rfl
@[simp] theorem fb_modCh (c : Nat) (g : FocCh → FocCh) (a i : Nat) : (s.modCh c g).fb a i = s.fb a i := rfl
@[simp] theorem focState_modCh (c d : Nat) (g : FocCh → FocCh) : (s.modCh d g).focState c = s.focState c := rfl

end

/-! ### Entering a state (R47, R284) -/

/-- The registers at the entry to a state: FOC_STATE.STATE, manual motion and RUN's event. -/
def State.enterRegs (s : State) (c n : Nat) : State :=
  let s := s.setF (Reg.FOC_STATE c) 3 0 n
  let s := if n = fOFF || n = fFAULT then s.setB Reg.SYS_SVC_MOTION c false else s
  if n = fRUN then s.focIrq c 5 else s

/-- The channel at the entry to a state other than FIND. -/
def FocCh.entered (x : FocCh) (n dead : Nat) (t : Tick) : FocCh :=
  let x := { x with count := 0, caught := false, edges := bridgeFor n dead t x.edges }
  let x := if energisedState n && n ≠ fCATCH then x
    else { x with duty := none, dutyNext := none, intD := 0, intQ := 0, intW := 0 }
  if n = fRETRY then { x with retryAt := t } else x

section
variable (s : State) (c : Nat) {n : Nat}

theorem enterFoc_eq (h : n ≠ fFIND) : s.enterFoc c n = (s.enterRegs c n).modCh c fun x =>
    x.entered n ((s.enterRegs c n).deadTime c) (s.enterRegs c n).clk.tb := by
  rw [State.enterFoc]
  simp only [if_neg h]
  rfl

theorem entered_facts (x : FocCh) (dead : Nat) (t : Tick) : (x.entered n dead t).startReq = x.startReq ∧
    (x.entered n dead t).stopReq = x.stopReq ∧ (x.entered n dead t).attempts = x.attempts ∧ (x.entered n dead t).count = 0 ∧
    (energisedState n = false → (x.entered n dead t).dutyNext = none) ∧
    (n = fRETRY → (x.entered n dead t).retryAt = t) := by
  rw [FocCh.entered]
  refine ⟨?_, ?_, ?_, ?_, fun h => ?_, fun h => ?_⟩
  · split <;> split <;> rfl
  · split <;> split <;> rfl
  · split <;> split <;> rfl
  · split <;> split <;> rfl
  · rw [h]
    split <;> rfl
  · rw [if_pos h]

/-- The registers that no entry to a state touches. -/
theorem enterRegs_reg {a : Nat} (h1 : a ≠ Reg.FOC_STATE c) (h2 : a = Reg.SYS_SVC_MOTION → n ≠ fOFF ∧ n ≠ fFAULT)
    (h3 : a = Reg.FOC_IRQ_STATUS c → n ≠ fRUN) : (s.enterRegs c n).reg a = s.reg a := by
  have hm : ∀ u : State, (if n = fOFF || n = fFAULT then u.setB Reg.SYS_SVC_MOTION c false else u).reg a = u.reg a := by
    intro u
    by_cases ha : a = Reg.SYS_SVC_MOTION
    · rw [if_neg (by simp [h2 ha])]
    · rw [reg_ite, reg_setB_ne _ ha, ite_self]
  rw [State.enterRegs]
  by_cases hr : n = fRUN
  · rw [if_pos hr, State.focIrq, reg_setB_ne _ fun ha => h3 ha hr, hm, reg_setF_ne _ h1]
  · rw [if_neg hr, hm, reg_setF_ne _ h1]

theorem enterRegs_state : (s.enterRegs c n).reg (Reg.FOC_STATE c) = putBits (s.reg (Reg.FOC_STATE c)) 3 0 n := by
  have h1 : Reg.FOC_STATE c ≠ Reg.SYS_SVC_MOTION := by simp only [Reg.FOC_STATE, Reg.SYS_SVC_MOTION]; omega
  have h2 : Reg.FOC_STATE c ≠ Reg.FOC_IRQ_STATUS c := by simp only [Reg.FOC_STATE, Reg.FOC_IRQ_STATUS]; omega
  rw [State.enterRegs, reg_ite, State.focIrq, reg_setB_ne _ h2, ite_self, reg_ite, reg_setB_ne _ h1, ite_self, reg_setF_self]

theorem enterRegs_kept : (s.enterRegs c n).mem = s.mem ∧ (s.enterRegs c n).foc = s.foc ∧ (s.enterRegs c n).clk = s.clk ∧
    (s.enterRegs c n).sbx = s.sbx ∧ (s.enterRegs c n).tt = s.tt := by
  rw [State.enterRegs, State.focIrq]
  refine ⟨?_, ?_, ?_, ?_, ?_⟩ <;> split <;> split <;> simp

end

section
variable (s : State) (c : Nat) {n : Nat} (h : n ≠ fFIND)
include h

theorem enterFoc_state (hn : n < 16) : (s.enterFoc c n).focState c = n ∧
    ∀ hi lo, 3 < lo → (s.enterFoc c n).f (Reg.FOC_STATE c) hi lo = s.f (Reg.FOC_STATE c) hi lo := by
  rw [enterFoc_eq s c h]
  refine ⟨?_, fun hi lo hlo => ?_⟩
  · rw [focState_modCh, State.focState, State.f, enterRegs_state, bits_putBits_self _ (by decide) (by decide)]
    exact Nat.mod_eq_of_lt hn
  · rw [f_modCh, State.f, enterRegs_state, bits_putBits_ne _ (by decide) (by decide) (Or.inr hlo), State.f]

theorem enterFoc_reg {a : Nat} (h1 : a ≠ Reg.FOC_STATE c) (h2 : a = Reg.SYS_SVC_MOTION → n ≠ fOFF ∧ n ≠ fFAULT)
    (h3 : a = Reg.FOC_IRQ_STATUS c → n ≠ fRUN) : (s.enterFoc c n).reg a = s.reg a := by
  rw [enterFoc_eq s c h]
  exact enterRegs_reg s c h1 h2 h3

theorem enterFoc_kept : (s.enterFoc c n).mem = s.mem ∧ (s.enterFoc c n).clk = s.clk ∧ (s.enterFoc c n).sbx = s.sbx := by
  obtain ⟨h1, -, h3, h4, -⟩ := enterRegs_kept s c (n := n)
  rw [enterFoc_eq s c h]
  exact ⟨h1, h3, h4⟩

/-- The channel at the entry to a state. -/
theorem enterFoc_ch : ((s.enterFoc c n).focCh c).startReq = (s.focCh c).startReq ∧
    ((s.enterFoc c n).focCh c).stopReq = (s.focCh c).stopReq ∧ ((s.enterFoc c n).focCh c).count = 0 ∧
    (energisedState n = false → ((s.enterFoc c n).focCh c).dutyNext = none) ∧
    (n = fRETRY → ((s.enterFoc c n).focCh c).retryAt = s.clk.tb) := by
  obtain ⟨-, hf, hc, -, -⟩ := enterRegs_kept s c (n := n)
  have hch : (s.enterRegs c n).focCh c = s.focCh c := by rw [State.focCh, hf, State.focCh]
  rw [enterFoc_eq s c h, focCh_modCh_self, hch, hc]
  obtain ⟨h1, h2, -, h3, h4, h5⟩ := entered_facts (n := n) (s.focCh c) ((s.enterRegs c n).deadTime c) s.clk.tb
  exact ⟨h1, h2, h3, h4, h5⟩

end

/-- OFF and FAULT end manual motion (R47). -/
theorem enterFoc_motion (s : State) {c n : Nat} (hc : c < 16) (h : n = fOFF ∨ n = fFAULT) :
    (s.enterFoc c n).fb Reg.SYS_SVC_MOTION c = false := by
  have hf : n ≠ fFIND := by rcases h with rfl | rfl <;> decide
  have hr : n ≠ fRUN := by rcases h with rfl | rfl <;> decide
  rw [enterFoc_eq s c hf, fb_modCh, State.enterRegs, if_neg hr, if_pos (by simpa using h),
    fb_setB_self _ _ (by omega)]

/-! ### Commands (R280, R284) -/

theorem raised_raise (s : State) (src ev : Nat) :
    (s.raise src ev).sbx.raised = s.sbx.raised ++ [{ src := src, ev := ev, ts := s.now }] := rfl

section
variable (s : State) (c : Nat)

theorem focCoast_still (h1 : s.energised c = false) (h2 : s.focState c ≠ 1) (h3 : s.focState c ≠ 8) : s.focCoast c = s := by
  rw [State.focCoast, if_neg (by simp [h1, h2, h3, fARMED, fRETRY])]

theorem focCoast_off (h : s.energised c = true ∨ s.focState c = 1 ∨ s.focState c = 8) : s.focCoast c = s.enterFoc c fOFF := by
  rw [State.focCoast, if_pos (by rcases h with h | h | h <;> simp [h, fARMED, fRETRY])]

/-- A refusal without a sheet: RESULT, its reason and its event (R281, R285). -/
theorem focRefuse_none (r : Nat) : s.focRefuse c r none =
    ((((s.setF (Reg.FOC_STATE c) 7 5 2).setF (Reg.FOC_STATE c) 11 8 r).focIrq c 3).raise srcFOC 4) := rfl

theorem refusal_facts {r : Nat} (hr : r < 16) {v : State} (hv : v =
      (((s.setF (Reg.FOC_STATE c) 7 5 2).setF (Reg.FOC_STATE c) 11 8 r).focIrq c 3).raise srcFOC 4) :
    v.focState c = s.focState c ∧ v.f (Reg.FOC_STATE c) 7 5 = 2 ∧ v.f (Reg.FOC_STATE c) 11 8 = r ∧
    v.f (Reg.FOC_STATE c) 31 16 = s.f (Reg.FOC_STATE c) 31 16 ∧ v.fb (Reg.FOC_IRQ_STATUS c) 3 = true ∧
    v.sbx.raised = s.sbx.raised ++ [{ src := srcFOC, ev := 4, ts := s.now }] ∧ v.mem = s.mem ∧
    v.focCh c = s.focCh c := by
  have h2 : Reg.FOC_STATE c ≠ Reg.FOC_IRQ_STATUS c := by simp only [Reg.FOC_STATE, Reg.FOC_IRQ_STATUS]; omega
  have hread (hi lo : Nat) : v.f (Reg.FOC_STATE c) hi lo =
      ((s.setF (Reg.FOC_STATE c) 7 5 2).setF (Reg.FOC_STATE c) 11 8 r).f (Reg.FOC_STATE c) hi lo := by
    rw [hv, f_raise, State.focIrq, f_setB_ne _ h2]
  refine ⟨?_, ?_, ?_, ?_, ?_, ?_, ?_, ?_⟩
  · rw [State.focState, hread, f_setF_field _ _ (by decide) (by decide) (by decide),
      f_setF_field _ _ (by decide) (by decide) (by decide), State.focState]
  · rw [hread, f_setF_field _ _ (by decide) (by decide) (by decide)]
    exact f_setF_self _ _ (by decide) (by decide) _
  · rw [hread, f_setF_self _ _ (by decide) (by decide)]
    exact Nat.mod_eq_of_lt hr
  · rw [hread, f_setF_field _ _ (by decide) (by decide) (by decide), f_setF_field _ _ (by decide) (by decide) (by decide)]
  · rw [hv, fb_raise, State.focIrq, fb_setB_self _ _ (by decide)]
  · rw [hv, raised_raise, State.focIrq, setB_sbx, State.now, setB_clk]
    rfl
  · rw [hv, State.focIrq]
    simp
  · rw [hv, State.focIrq]
    simp

theorem focClear_still (h : s.focState c ≠ 11) : s.focClear c = s := if_pos h

theorem focClear_fault (h : s.focState c = 11) : s.focClear c =
    if s.busState (s.busOf c) ≤ 1 then (s.setF (Reg.FOC_STATE c) 15 12 0).enterFoc c fOFF else s.focRefuse c rfBUS none :=
  if_neg (not_not.mpr h)

end

/-- COAST turns a channel OFF, or leaves it. -/
theorem focCoast_facts (s : State) {c : Nat} (hc : c < 16) :
    ((s.focCoast c).mem = s.mem ∧ ((s.focCoast c).focCh c).startReq = (s.focCh c).startReq ∧
      ((s.focCoast c).focCh c).stopReq = (s.focCh c).stopReq ∧
      (s.focCoast c).f (Reg.FOC_STATE c) 31 16 = s.f (Reg.FOC_STATE c) 31 16) ∧
    (∀ a, a ≠ Reg.FOC_STATE c → a ≠ Reg.SYS_SVC_MOTION → (s.focCoast c).reg a = s.reg a) ∧
    (s.energised c = true ∨ s.focState c = 1 ∨ s.focState c = 8 → (s.focCoast c).focState c = 0 ∧
      ((s.focCoast c).focCh c).dutyNext = none ∧ (s.focCoast c).fb Reg.SYS_SVC_MOTION c = false) := by
  have hn : fOFF ≠ fFIND := by decide
  obtain ⟨e1, e2⟩ := enterFoc_state s c hn (by decide)
  obtain ⟨k1, -, -⟩ := enterFoc_kept s c hn
  obtain ⟨d1, d2, -, d3, -⟩ := enterFoc_ch s c hn
  by_cases h : s.energised c = true ∨ s.focState c = 1 ∨ s.focState c = 8
  · rw [focCoast_off s c h]
    exact ⟨⟨k1, d1, d2, e2 31 16 (by decide)⟩, fun a h1 h2 => enterFoc_reg s c hn h1 (fun ha => absurd ha h2) fun _ => by decide,
      fun _ => ⟨e1, d3 rfl, enterFoc_motion s hc (Or.inl rfl)⟩⟩
  · obtain ⟨h1, h2, h3⟩ := not_or.mp h |>.imp_right not_or.mp
    rw [focCoast_still s c (by simpa using h1) h2 h3]
    exact ⟨⟨rfl, rfl, rfl, rfl⟩, fun _ _ _ => rfl, fun hc => absurd hc h⟩

/-- CLEAR takes a channel out of FAULT, is refused with BUS, or leaves it. -/
theorem focClear_facts (s : State) (c : Nat) :
    ((s.focClear c).mem = s.mem ∧ ((s.focClear c).focCh c).startReq = (s.focCh c).startReq ∧
      ((s.focClear c).focCh c).stopReq = (s.focCh c).stopReq ∧
      (s.focClear c).f (Reg.FOC_STATE c) 31 16 = s.f (Reg.FOC_STATE c) 31 16) ∧
    (s.focState c = 11 → s.busState (s.busOf c) ≤ 1 →
      (s.focClear c).focState c = 0 ∧ (s.focClear c).f (Reg.FOC_STATE c) 15 12 = 0) ∧
    (s.focState c = 11 → 2 ≤ s.busState (s.busOf c) → (s.focClear c).focState c = 11 ∧
      (s.focClear c).f (Reg.FOC_STATE c) 7 5 = 2 ∧ (s.focClear c).f (Reg.FOC_STATE c) 11 8 = 2 ∧
      (s.focClear c).fb (Reg.FOC_IRQ_STATUS c) 3 = true ∧
      (s.focClear c).sbx.raised = s.sbx.raised ++ [{ src := srcFOC, ev := 4, ts := s.now }]) := by
  have hn : fOFF ≠ fFIND := by decide
  by_cases h : s.focState c = 11
  · rw [focClear_fault s c h]
    by_cases hb : s.busState (s.busOf c) ≤ 1
    · obtain ⟨e1, e2⟩ := enterFoc_state (s.setF (Reg.FOC_STATE c) 15 12 0) c hn (by decide)
      obtain ⟨k1, -, -⟩ := enterFoc_kept (s.setF (Reg.FOC_STATE c) 15 12 0) c hn
      obtain ⟨d1, d2, -, -, -⟩ := enterFoc_ch (s.setF (Reg.FOC_STATE c) 15 12 0) c hn
      rw [if_pos hb]
      refine ⟨⟨k1, d1, d2, ?_⟩, fun _ _ => ⟨e1, ?_⟩, fun _ hc => absurd hb (by omega)⟩
      · rw [e2 31 16 (by decide), f_setF_field _ _ (by decide) (by decide) (by decide)]
      · exact (e2 15 12 (by decide)).trans (f_setF_self _ _ (by decide) (by decide) _)
    · obtain ⟨r1, r2, r3, r4, r5, r6, r7, r8⟩ := refusal_facts s c (r := rfBUS) (by decide) rfl
      rw [if_neg hb, focRefuse_none]
      exact ⟨⟨r7, by rw [r8], by rw [r8], r4⟩, fun _ hc => absurd hc hb, fun _ _ => ⟨r1.trans h, r2, r3, r5, r6⟩⟩
  · rw [focClear_still s c h]
    exact ⟨⟨rfl, rfl, rfl, rfl⟩, fun hc => absurd hc h, fun hc => absurd hc h⟩

section
variable {s : State} {t : Tick} {c : Fin 16} (hon : (s.at t).actOn = true)
include hon

theorem exec_focCommands :
    exec (.focCmdStart t c) s = .next ((s.at t).modCh c fun x => { x with startReq := some {} }) ∧
    exec (.focCmdStop t c) s = .next ((s.at t).modCh c fun x => { x with stopReq := some {} }) ∧
    exec (.focCmdCoast t c) s = .next ((s.at t).focCoast c) ∧
    exec (.focCmdClear t c) s = .next ((s.at t).focClear c) := by
  change execFocCmdStart t c s = _ ∧ execFocCmdStop t c s = _ ∧ execFocCmdCoast t c s = _ ∧ execFocCmdClear t c s = _
  rw [execFocCmdStart, execFocCmdStop, execFocCmdCoast, execFocCmdClear]
  generalize s.at t = u at *
  exact ⟨if_pos hon, if_pos hon, if_pos hon, if_pos hon⟩

end

/-! ### Timetable commands (R220, R293) -/

theorem focAction_run {u : State} {k : Fin 128} {i n : Nat} {a : Armed}
    (h : u.CanTake k i (fun a => isCmd 0x0E n a && a.unit ≤ 15 && u.actOn) a) (g : State → Nat → FocReq → Armed → State) :
    u.focAction k i n g = g ((u.markExecuted k i).report k i (u.markExecuted k i).clk.tb) a.act.unit
      { handle := some ((u.markExecuted k i).handle k), spoil := if a.list = .spoil then some k.val else none } a := by
  rw [State.focAction]
  simp only [take_run h]
  rw [focReqOf]
  cases a.list <;> rfl

theorem ttRef_eq (u : State) (c : Nat) (q : FocReq) (a v : Nat) : u.ttRef c q a v =
    if u.pinMode c ≠ 0 ∧ u.f (Reg.FOC_CFG c) 3 1 ≠ 4 then u.focRefuse c 6 q.handle
    else (u.hold a (BitVec.ofNat 32 v)).modCh c fun y => { y with refBy := some q, ttAt := some (a, u.clk.tb) } := by
  rw [State.ttRef]
  simp only [Bool.and_eq_true, decide_eq_true_eq]
  rfl

theorem focShared_same {u : State} {c : Nat} {l : List Nat} {x : Option Int} (h : u.focCommanded c = x) :
    u.focShared c x l = u := by
  rw [State.focShared, if_pos h]

/-! ### Starts (R281) -/

section
variable (s : State) (c : Nat)

/-- A channel that has taken a START: RESULT, what delivered it, and no attempts. -/
def State.startTaken (s : State) (c : Nat) (q : FocReq) : State :=
  let s := (s.setF (Reg.FOC_STATE c) 7 5 1).modCh c fun x => { x with startBy := some q }
  let s := if s.mode == .service then s.setB Reg.SYS_SVC_MOTION c true else s
  (s.setF (Reg.FOC_STATE c) 19 16 0).modCh c fun x => { x with attempts := 0 }

theorem latchStart_refused (q : FocReq) (h : s.focState c = 0) {r : Nat} (hr : s.startRefused c = some r) :
    s.latchStart c q = s.focRefuse c r q.handle := by
  rw [State.latchStart, if_pos (by simp [h, fOFF]), hr]

theorem latchStart_taken (q : FocReq) (h : s.focState c = 0) (hr : s.startRefused c = none) :
    s.latchStart c q = if (s.startTaken c q).refInUse c = 0 then (s.startTaken c q).enterFoc c fARMED
      else (s.startTaken c q).beginCatch c := by
  rw [State.latchStart, if_pos (by simp [h, fOFF]), hr, h]
  rfl

theorem startTaken_facts (q : FocReq) : (s.startTaken c q).f (Reg.FOC_STATE c) 7 5 = 1 ∧
    (s.startTaken c q).refInUse c = s.refInUse c := by
  have h1 : Reg.FOC_STATE c ≠ Reg.SYS_SVC_MOTION := by simp only [Reg.FOC_STATE, Reg.SYS_SVC_MOTION]; omega
  have h2 : Reg.FOC_CFG c ≠ Reg.SYS_SVC_MOTION := by simp only [Reg.FOC_CFG, Reg.SYS_SVC_MOTION]; omega
  have h3 : Reg.FOC_CFG c ≠ Reg.FOC_STATE c := by simp only [Reg.FOC_CFG, Reg.FOC_STATE]; omega
  rw [State.startTaken]
  refine ⟨?_, ?_⟩
  · rw [f_modCh, f_setF_field _ _ (by decide) (by decide) (by decide), f_ite, f_setB_ne _ h1, ite_self, f_modCh]
    exact f_setF_self _ _ (by decide) (by decide) _
  · have hch : ∀ u : State, ∀ p : Prop, [Decidable p] → (if p then u.setB Reg.SYS_SVC_MOTION c true else u).focCh c =
        u.focCh c := fun u p _ => by split <;> simp
    rw [State.refInUse, State.speedMode, focCh_modCh_self, focCh_setF, fb_modCh, fb_setF_ne _ h3, hch, focCh_modCh_self,
      focCh_setF, fb_ite, fb_setB_ne _ h2, ite_self, fb_modCh, fb_setF_ne _ h3]
    rfl

theorem startRefused_bus (h : s.focState c = 0) (hb : 2 ≤ s.busState (s.busOf c)) : s.startRefused c = some 2 := by
  rw [State.startRefused, if_neg (by simp [h, fFAULT, fZTC, fASC]), if_pos hb]
  rfl

end

theorem startRefused_lt {s : State} {c r : Nat} (h : s.startRefused c = some r) : r < 16 := by
  rw [State.startRefused] at h
  split at h
  · exact Option.some.inj h ▸ by decide
  · split at h
    · exact Option.some.inj h ▸ by decide
    · split at h
      · exact Option.some.inj h ▸ by decide
      · split at h
        · exact Option.some.inj h ▸ by decide
        · exact nomatch h

/-! ### Trips and attempts (R283, R288) -/

/-- A channel that has entered FAULT, before the sheets on its axis are told. -/
def State.focFaulted (s : State) (c code : Nat) : State :=
  ((s.setF (Reg.FOC_STATE c) 15 12 code).enterFoc c fFAULT).focIrq c 0

section
variable (s : State) (c : Nat) {code : Nat} (hcode : code < 16)
include hcode

theorem focFaulted_facts : (s.focFaulted c code).focState c = 11 ∧ (s.focFaulted c code).f (Reg.FOC_STATE c) 15 12 = code ∧
    (s.focFaulted c code).fb (Reg.FOC_IRQ_STATUS c) 0 = true ∧ ((s.focFaulted c code).focCh c).dutyNext = none ∧
    (s.focFaulted c code).mem = s.mem := by
  have h2 : Reg.FOC_STATE c ≠ Reg.FOC_IRQ_STATUS c := by simp only [Reg.FOC_STATE, Reg.FOC_IRQ_STATUS]; omega
  have hn : fFAULT ≠ fFIND := by decide
  obtain ⟨e1, e2⟩ := enterFoc_state (s.setF (Reg.FOC_STATE c) 15 12 code) c hn (by decide)
  obtain ⟨m1, -, -⟩ := enterFoc_kept (s.setF (Reg.FOC_STATE c) 15 12 code) c hn
  obtain ⟨-, -, -, d1, -⟩ := enterFoc_ch (s.setF (Reg.FOC_STATE c) 15 12 code) c hn
  rw [State.focFaulted, State.focIrq]
  refine ⟨?_, ?_, fb_setB_self _ _ (by decide) _, ?_, ?_⟩
  · rw [State.focState, f_setB_ne _ h2]
    exact e1
  · rw [f_setB_ne _ h2, e2 15 12 (by decide), f_setF_self _ _ (by decide) (by decide)]
    exact Nat.mod_eq_of_lt hcode
  · rw [focCh_setB]
    exact d1 rfl
  · rw [setB_mem, m1, setF_mem]

end

theorem focFault_eq (s : State) (c code : Nat) : s.focFault c code = (s.focFaulted c code).axisFault c := rfl

section
variable {s : State} {t : Tick} {c : Fin 16}

theorem focTrip_off (h : s.actOn = false) (c code : Nat) : s.focTrip c code = s := if_pos (by simp [h])

theorem focTrip_on (h : s.actOn = true) (c code : Nat) :
    s.focTrip c code = (if s.energised c then s.focFault c code else s).raise srcFOC 1 := if_neg (by simp [h])

theorem exec_overcurrent (sdu sdv : BitVec 31) : exec (.overcurrent t (c, sdu, sdv)) s =
    if (s.at t).beyondIoc c sdu sdv then .next ((s.at t).focTrip c 2) else .next (s.at t) := rfl

theorem exec_sdLoss (sdu sdv : BitVec 64) : exec (.sdLoss t (c, sdu, sdv)) s =
    if silent sdu || silent sdv then .next ((s.at t).focTrip c 3) else .next (s.at t) := rfl

theorem exec_engine : exec (.engine t c) s = .next ((s.at t).focTrip c 7) := rfl

theorem exec_startAttemptTimeout : exec (.startAttemptTimeout t c) s =
    if ((s.at t).focState c = fFIND ∨ (s.at t).focState c = fSTARTING) ∧
        ((s.at t).focCh c).attemptAt + (s.at t).f (Reg.FOC_START c) 23 16 * cs ≤ (s.at t).clk.tb then
      .next ((s.at t).attemptFails c) else .next (s.at t) := rfl

theorem exec_retryWaitExpiry : exec (.retryWaitExpiry t c) s =
    if (s.at t).focState c = fRETRY ∧
        ((s.at t).focCh c).retryAt + (s.at t).f (Reg.FOC_START c) 31 24 * cs ≤ (s.at t).clk.tb then
      .next ((s.at t).enterFoc c fCATCH) else .next (s.at t) := rfl

end

theorem silent_iff (sd : BitVec 64) : silent sd = true ↔ sd = 0 ∨ sd = BitVec.allOnes 64 := by
  simp [silent]

section
variable (s : State) (c : Nat)

theorem attemptFails_last (h : s.f (Reg.FOC_START c) 3 0 < (s.focCh c).attempts) :
    s.attemptFails c = ((s.incSat (Reg.FOC_CNT c) 7 0).focFault c 1).raise srcFOC 0 := by
  have hne : Reg.FOC_START c ≠ Reg.FOC_CNT c := by simp only [Reg.FOC_START, Reg.FOC_CNT]; omega
  exact if_pos (by rw [f_incSat_ne _ hne, focCh_incSat]; exact h)

theorem attemptFails_retry (h : (s.focCh c).attempts ≤ s.f (Reg.FOC_START c) 3 0) :
    s.attemptFails c = (s.incSat (Reg.FOC_CNT c) 7 0).enterFoc c fRETRY := by
  have hne : Reg.FOC_START c ≠ Reg.FOC_CNT c := by simp only [Reg.FOC_START, Reg.FOC_CNT]; omega
  exact if_neg (by rw [f_incSat_ne _ hne, focCh_incSat]; exact Nat.not_lt.mpr h)

end

/-- A START taken from OFF goes to ARMED for a reference of 0, and to CATCH for another. -/
theorem latchStart_facts {s : State} {c : Nat} (q : FocReq) (h : s.focState c = 0) (hr : s.startRefused c = none) :
    (s.latchStart c q).f (Reg.FOC_STATE c) 7 5 = 1 ∧
    (s.latchStart c q).focState c = if s.refInUse c = 0 then 1 else 2 := by
  obtain ⟨h1, h2⟩ := startTaken_facts s c q
  rw [latchStart_taken s c q h hr, h2]
  by_cases h0 : s.refInUse c = 0
  · obtain ⟨e1, e2⟩ := enterFoc_state (s.startTaken c q) c (n := fARMED) (by decide) (by decide)
    rw [if_pos h0, if_pos h0, e2 7 5 (by decide)]
    exact ⟨h1, e1⟩
  · obtain ⟨e1, e2⟩ := enterFoc_state ((s.startTaken c q).modCh c fun x =>
      { x with neg := (s.startTaken c q).refInUse c < 0, spdOk := x.spdRef }) c (n := fCATCH) (by decide) (by decide)
    rw [if_neg h0, if_neg h0]
    exact ⟨(e2 7 5 (by decide)).trans h1, e1⟩

/-- A trip of an energised channel, of one that is not, and with the drives' domain off (R288). -/
theorem focTrip_cases {u : State} {c code : Nat} (hcode : code < 16) :
    (u.actOn = true → u.energised c = true → ∃ v : State, u.focTrip c code = (v.axisFault c).raise srcFOC 1 ∧
      v.focState c = 11 ∧ v.f (Reg.FOC_STATE c) 15 12 = code ∧ v.fb (Reg.FOC_IRQ_STATUS c) 0 = true ∧
      (v.focCh c).dutyNext = none ∧ v.mem = u.mem) ∧
    (u.actOn = true → u.energised c = false → u.focTrip c code = u.raise srcFOC 1) ∧
    (u.actOn = false → u.focTrip c code = u) := by
  refine ⟨fun hon he => ⟨u.focFaulted c code, ?_, focFaulted_facts u c hcode⟩, fun hon he => ?_, fun hoff => focTrip_off hoff c code⟩
  · rw [focTrip_on hon, if_pos he, focFault_eq]
  · rw [focTrip_on hon, if_neg (by simp [he])]

/-- A trip by a command. -/
theorem exec_trip {s u : State} {i : Instr} {c code : Nat} (hcode : code < 16) (he : exec i s = .next (u.focTrip c code)) :
    (u.actOn = true → u.energised c = true → ∃ v : State, exec i s = .next ((v.axisFault c).raise srcFOC 1) ∧
      v.focState c = 11 ∧ v.f (Reg.FOC_STATE c) 15 12 = code ∧ v.fb (Reg.FOC_IRQ_STATUS c) 0 = true ∧
      (v.focCh c).dutyNext = none ∧ v.mem = u.mem) ∧
    (u.actOn = true → u.energised c = false → exec i s = .next (u.raise srcFOC 1)) ∧
    (u.actOn = false → exec i s = .next u) := by
  obtain ⟨h1, h2, h3⟩ := focTrip_cases (u := u) (c := c) hcode
  rw [he]
  refine ⟨fun hon hen => ?_, fun hon hen => by rw [h2 hon hen], fun hoff => by rw [h3 hoff]⟩
  obtain ⟨v, hv, hf⟩ := h1 hon hen
  exact ⟨v, by rw [hv], hf⟩

/-- Settles O37: each command by the state it enters, Timetable commands through the action that carries them, and starts,
attempts and trips by what entering their state leaves. -/
theorem motorCommandsAndTrips : Obligations.MotorCommandsAndTrips := by
  refine ⟨fun s t => ⟨fun c hon => ?_, fun k i a => ?_⟩, fun s c q hc h0 => ⟨latchStart_facts q h0, fun r hr => ?_,
    startRefused_bus s c h0⟩, fun s t c => ?_⟩
  · dsimp only
    obtain ⟨x1, x2, x3, x4⟩ := exec_focCommands (c := c) hon
    generalize s.at t = u at *
    refine ⟨x1, x2, ⟨_, x3, ?_⟩, _, x4, ?_⟩
    · obtain ⟨hsame, hreg, hoff⟩ := focCoast_facts u c.isLt
      exact ⟨hsame, hreg, hoff, focCoast_still u c⟩
    · obtain ⟨hsame, hok, hbus⟩ := focClear_facts u c
      exact ⟨hsame, focClear_still u c, hok, hbus⟩
  · dsimp only
    change (_ → Host.Outcome.next ((s.at t).focAction k i 1 _) = _) ∧ (_ → Host.Outcome.next ((s.at t).focAction k i 2 _) = _) ∧
      (_ → Host.Outcome.next ((s.at t).focAction k i 3 _) = _) ∧ (_ → Host.Outcome.next ((s.at t).focAction k i 4 _) = _) ∧
      (_ → Host.Outcome.next ((s.at t).focAction k i 5 _) = _) ∧ _
    generalize s.at t = u at *
    refine ⟨fun h => ?_, fun h => ?_, fun h => ?_, fun h => ?_, fun h => ?_, focShared_same⟩
    · rw [focAction_run h, State.focStart]
    · rw [focAction_run h, State.focStop]
    · rw [focAction_run h, ttRef_eq]
    · rw [focAction_run h, ttRef_eq]
    · rw [focAction_run h, State.ttCoast]
  · obtain ⟨r1, r2, r3, -, -, -, r7, -⟩ := refusal_facts s c (startRefused_lt hr) rfl
    exact ⟨_, latchStart_refused s c q h0 hr, r1.trans h0, r2, r3, r7⟩
  · dsimp only
    refine ⟨fun sdu sdv => ⟨fun h => ?_, fun h => ?_⟩, fun sdu sdv => ⟨fun h => ?_, fun h1 h2 h3 h4 => ?_⟩, ?_, fun hst => ?_,
      fun hst hd => ?_, fun hst => ?_⟩
    · exact exec_trip (by decide) ((exec_overcurrent sdu sdv).trans (if_pos h))
    · rw [exec_overcurrent, if_neg (by simp [h])]
    · refine exec_trip (by decide) ((exec_sdLoss sdu sdv).trans (if_pos ?_))
      rw [Bool.or_eq_true, silent_iff, silent_iff, or_assoc]
      exact h
    · rw [exec_sdLoss, if_neg]
      rw [Bool.or_eq_true, silent_iff, silent_iff, or_assoc]
      exact fun h => h.elim h1 fun h => h.elim h2 fun h => h.elim h3 h4
    · exact exec_trip (by decide) exec_engine
    · refine ⟨fun hd => ?_, fun hd ha => ?_, fun hd ha => ?_⟩
      · rw [exec_startAttemptTimeout, if_neg fun hc => hd hc.2]
      · rw [exec_startAttemptTimeout, if_pos ⟨hst, hd⟩, attemptFails_last _ _ ha, focFault_eq]
        obtain ⟨f1, f2, f3, f4, f5⟩ := focFaulted_facts ((s.at t).incSat (Reg.FOC_CNT c) 7 0) c (code := 1) (by decide)
        exact ⟨_, rfl, f1, f2, f3, f4, f5⟩
      · rw [exec_startAttemptTimeout, if_pos ⟨hst, hd⟩, attemptFails_retry _ _ ha]
        generalize s.at t = u at *
        obtain ⟨e1, -⟩ := enterFoc_state (u.incSat (Reg.FOC_CNT c) 7 0) c (n := fRETRY) (by decide) (by decide)
        obtain ⟨k1, -, -⟩ := enterFoc_kept (u.incSat (Reg.FOC_CNT c) 7 0) c (n := fRETRY) (by decide)
        obtain ⟨-, -, -, d1, d2⟩ := enterFoc_ch (u.incSat (Reg.FOC_CNT c) 7 0) c (n := fRETRY) (by decide)
        refine ⟨_, rfl, e1, k1, d2 rfl, d1 rfl, ?_⟩
        rw [f_of_reg (enterFoc_reg (u.incSat (Reg.FOC_CNT c) 7 0) c (n := fRETRY) (by decide)
          (by simp only [Reg.FOC_CNT, Reg.FOC_STATE]; omega) (by simp only [Reg.FOC_CNT, Reg.SYS_SVC_MOTION]; omega)
          (by simp only [Reg.FOC_CNT, Reg.FOC_IRQ_STATUS]; omega)), f_incSat_self _ _ (by decide) (by decide)]
        exact satAdd_one (f_lt _ _ _ _)
    · rw [exec_retryWaitExpiry, if_pos ⟨hst, hd⟩]
      generalize s.at t = u at *
      have hn : fCATCH ≠ fFIND := by decide
      obtain ⟨e1, -⟩ := enterFoc_state u c hn (by decide)
      obtain ⟨k1, -, -⟩ := enterFoc_kept u c hn
      obtain ⟨-, -, d1, -, -⟩ := enterFoc_ch u c hn
      exact ⟨_, rfl, e1, d1, k1, fun a ha => enterFoc_reg u c hn ha (fun _ => by decide) fun _ => by decide⟩
    · rw [exec_retryWaitExpiry, if_neg fun hc => hst hc.1]

end Sys2Proof.Machine
end

section
/-! The supply buses (R286, R287, R289). -/

namespace Sys2Proof.Machine

/-! ### A bus through the updates of the state -/

section
variable (s : State) (b : Nat)

@[simp] theorem focBus_setF (a hi lo n : Nat) : (s.setF a hi lo n).focBus b = s.focBus b := rfl
@[simp] theorem focBus_incSat (a hi lo n : Nat) : (s.incSat a hi lo n).focBus b = s.focBus b := rfl
@[simp] theorem focBus_raise (src ev : Nat) : (s.raise src ev).focBus b = s.focBus b := rfl
@[simp] theorem focBus_setB (a i : Nat) (v : Bool) : (s.setB a i v).focBus b = s.focBus b := by
  rw [State.focBus, setB_foc, State.focBus]

@[simp] theorem focBus_modBus_self (g : FocBus → FocBus) : (s.modBus b g).focBus b = g (s.focBus b) :=
  Tab.get_put_self _ _ _ _

@[simp] theorem f_modBus (g : FocBus → FocBus) (a hi lo : Nat) : (s.modBus b g).f a hi lo = s.f a hi lo := rfl
@[simp] theorem fb_modBus (g : FocBus → FocBus) (a i : Nat) : (s.modBus b g).fb a i = s.fb a i := rfl
@[simp] theorem busState_modBus (g : FocBus → FocBus) : (s.modBus b g).busState b = s.busState b := rfl

/-- What an entry of a bus to a state leaves (R287). -/
theorem enterBus_facts {n : Nat} (hn : n < 8) : (s.enterBus b n).busState b = n ∧ (s.enterBus b n).mem = s.mem ∧
    (s.enterBus b n).vBus b = s.vBus b ∧ (s.enterBus b n).focBus b = s.focBus b ∧ (s.enterBus b n).clk = s.clk ∧
    (s.enterBus b n).sbx = s.sbx ∧ (∀ a, a ≠ Reg.FOC_BUS_STATUS b → (s.enterBus b n).reg a = s.reg a) := by
  have hself : ∀ u : State, (s.setF (Reg.FOC_BUS_STATUS b) 2 0 n).f (Reg.FOC_BUS_STATUS b) 2 0 = n := fun _ => by
    rw [f_setF_self _ _ (by decide) (by decide)]
    exact Nat.mod_eq_of_lt hn
  rw [State.enterBus]
  split
  · refine ⟨?_, ?_, ?_, ?_, ?_, ?_, fun a ha => ?_⟩
    · rw [State.busState, f_setB_field _ (by decide) (by decide)]
      exact hself s
    · rw [setB_mem, setF_mem]
    · rw [State.vBus, f_setB_field _ (by decide) (by decide), f_setF_field _ _ (by decide) (by decide) (by decide), State.vBus]
    · rw [focBus_setB, focBus_setF]
    · rw [setB_clk, setF_clk]
    · rw [setB_sbx, setF_sbx]
    · rw [reg_setB_ne _ ha, reg_setF_ne _ ha]
  · refine ⟨hself s, rfl, ?_, rfl, rfl, rfl, fun a ha => reg_setF_ne _ ha _ _ _⟩
    rw [State.vBus, f_setF_field _ _ (by decide) (by decide) (by decide), State.vBus]

end

/-! ### A sample (R286) -/

/-- The state with a sample of v taken, before the ladder. -/
def State.busSampled (s : State) (b v : Nat) : State :=
  let y := s.takeFresh.2.setF (Reg.FOC_BUS_STATUS b) 31 16 v
  y.modBus b fun x =>
    { x with sampleAt := some y.clk.tb
             restrict := if y.vReg b ≤ v then true
               else if v + y.f (Reg.FOC_BUS_CHOP b) 15 0 < y.vReg b then false else x.restrict }

theorem busVolts_snd (s : State) (b : Nat) (sd : BitVec 94) : (s.busVolts b sd).2 = s.takeFresh.2 := by
  rw [State.busVolts]

section
variable {s : State} {t : Tick} {b : Fin 4} {sd : BitVec 94}

theorem exec_busSample_idle (h : (s.at t).actOn = false ∨ (s.at t).sampleDue b = false) :
    exec (.busSample t b sd) s = .next (s.at t) := by
  change execBusSample t b sd s = _
  rw [execBusSample]
  generalize s.at t = u at *
  exact if_pos (by rcases h with h | h <;> simp [h])

theorem exec_busSample (hon : (s.at t).actOn = true) (hd : (s.at t).sampleDue b = true) : exec (.busSample t b sd) s =
    .next (((s.at t).busSampled b ((s.at t).busVolts b sd).1).busLadder b ((s.at t).busVolts b sd).1) := by
  change execBusSample t b sd s = _
  rw [execBusSample]
  generalize s.at t = u at *
  have hv : u.busVolts b sd = ((u.busVolts b sd).1, u.takeFresh.2) := by rw [← busVolts_snd u b sd]
  generalize (u.busVolts b sd).1 = v at hv ⊢
  rw [if_neg (by simp [hon, hd]), hv, State.busSampled]

theorem exec_busClear : exec (.busClear t b) s = if (s.at t).actOn then .next ((s.at t).busClear b) else .next (s.at t) := rfl

theorem exec_chopTimerExpiry_none (h : ((s.at t).focBus b).chopAt = none) :
    exec (.chopTimerExpiry t b) s = .next (s.at t) := by
  change execChopTimerExpiry t b s = _
  rw [execChopTimerExpiry]
  generalize s.at t = u at *
  simp only [h]

theorem exec_chopTimerExpiry {t0 : Tick} (h : ((s.at t).focBus b).chopAt = some t0) : exec (.chopTimerExpiry t b) s =
    if (s.at t).busState b ≠ 1 ∨ (s.at t).clk.tb < t0 + (s.at t).f (Reg.FOC_BUS_TCHOP b) 31 0 then .next (s.at t)
    else if ((s.at t).focBus b).v0 < (s.at t).vBus b + (s.at t).f (Reg.FOC_BUS_CHOP b) 31 16 then
      .next (((s.at t).modBus b fun x => { x with chopAt := none }).chopFault b)
    else .next ((s.at t).modBus b fun x => { x with chopAt := none }) := by
  change execChopTimerExpiry t b s = _
  rw [execChopTimerExpiry]
  generalize s.at t = u at *
  simp only [h]
  rw [focBus_modBus_self]
  rfl

end

section
variable (u : State) (b : Nat)

theorem sampleDue_iff : u.sampleDue b = true ↔ ∀ t0, (u.focBus b).sampleAt = some t0 →
    t0 + 32 * (if u.fb (Reg.FOC_SD (4 * b)) 0 = true then 640 else 320) ≤ u.clk.tb := by
  rw [State.sampleDue]
  cases (u.focBus b).sampleAt with
  | none => simp
  | some t0 => simp [State.busInterval, State.sdck]

/-- A sum of the filter that is a whole number of units (R286). -/
theorem busVolts_exact {sd : BitVec 94} {n : Nat} (h : sinc3 32 sd * (u.f (Reg.FOC_BUS_CFG b) 31 16 : Int) = 32768 * n) :
    (u.busVolts b sd).1 = n := by
  rw [State.busVolts, h]
  dsimp only
  rw [if_neg (by omega), if_pos (by omega)]
  omega

/-- What a sample leaves: the thresholds, the state of the bus, and the value shown. -/
theorem busSampled_facts (v : Nat) : (u.busSampled b v).busState b = u.busState b ∧ (u.busSampled b v).mem = u.mem ∧
    (u.busSampled b v).vBus b = v % 2 ^ 16 ∧ (u.busSampled b v).clk = u.clk ∧ (u.busSampled b v).sbx = u.sbx ∧
    (u.busSampled b v).focBus b = { u.focBus b with
      sampleAt := some u.clk.tb
      restrict := if u.vReg b ≤ v then true
        else if v + u.f (Reg.FOC_BUS_CHOP b) 15 0 < u.vReg b then false else (u.focBus b).restrict } ∧
    ∀ a, a ≠ Reg.FOC_BUS_STATUS b → (u.busSampled b v).reg a = u.reg a := by
  have h2 : Reg.FOC_BUS_V2 b ≠ Reg.FOC_BUS_STATUS b := by simp only [Reg.FOC_BUS_V2, Reg.FOC_BUS_STATUS]; omega
  have h3 : Reg.FOC_BUS_CHOP b ≠ Reg.FOC_BUS_STATUS b := by simp only [Reg.FOC_BUS_CHOP, Reg.FOC_BUS_STATUS]; omega
  rw [State.busSampled]
  refine ⟨?_, rfl, ?_, rfl, rfl, ?_, fun a ha => reg_setF_ne _ ha _ _ _⟩
  · rw [busState_modBus, State.busState, f_setF_field _ _ (by decide) (by decide) (by decide)]
    rfl
  · rw [State.vBus, f_modBus, f_setF_self _ _ (by decide) (by decide)]
  · rw [focBus_modBus_self, focBus_setF, State.vReg, f_setF_ne _ h2, f_setF_ne _ h3]
    rfl

end

/-- A bus in state n that shows a sample v taken in u. -/
def State.Sampled (w u : State) (b v n : Nat) : Prop :=
  w.busState b = n ∧ w.mem = u.mem ∧ w.vBus b = v % 2 ^ 16 ∧ (w.focBus b).sampleAt = some u.clk.tb

section
variable {u w : State} {b v n : Nat}

theorem sampled_busSampled (u : State) (b v : Nat) : (u.busSampled b v).Sampled u b v (u.busState b) := by
  obtain ⟨h1, h2, h3, -, -, h6, -⟩ := busSampled_facts u b v
  exact ⟨h1, h2, h3, by rw [h6]⟩

theorem State.Sampled.enterBus {m : Nat} (h : w.Sampled u b v m) (hn : n < 8) : (w.enterBus b n).Sampled u b v n := by
  obtain ⟨-, h2, h3, h4⟩ := h
  obtain ⟨e1, e2, e3, e4, -, -, -⟩ := enterBus_facts w b hn
  exact ⟨e1, e2.trans h2, e3.trans h3, by rw [e4, h4]⟩

theorem State.Sampled.modBus {g : FocBus → FocBus} (hg : ∀ x, (g x).sampleAt = x.sampleAt) (h : w.Sampled u b v n) :
    (w.modBus b g).Sampled u b v n := by
  obtain ⟨h1, h2, h3, h4⟩ := h
  exact ⟨h1, h2, h3, by rw [focBus_modBus_self, hg, h4]⟩

theorem State.Sampled.setBrk (h : w.Sampled u b v n) (on : Bool) : (w.setBrk b on).Sampled u b v n :=
  State.Sampled.modBus (g := fun x => { x with brk := on }) (fun _ => rfl) h

theorem State.Sampled.endChop (h : w.Sampled u b v n) : (w.modBus b fun x => { x with chopAt := none }).Sampled u b v n :=
  State.Sampled.modBus (g := fun x => { x with chopAt := none }) (fun _ => rfl) h

theorem State.Sampled.raise (h : w.Sampled u b v n) (src ev : Nat) : (w.raise src ev).Sampled u b v n := h

theorem State.Sampled.count (h : w.Sampled u b v n) (hi lo k : Nat) :
    (w.incSat (Reg.FOC_BUS_CNT b) hi lo k).Sampled u b v n := by
  obtain ⟨h1, h2, h3, h4⟩ := h
  have hne : Reg.FOC_BUS_STATUS b ≠ Reg.FOC_BUS_CNT b := by simp only [Reg.FOC_BUS_STATUS, Reg.FOC_BUS_CNT]; omega
  exact ⟨(f_incSat_ne w hne _ _ _ _ _).trans h1, h2, (f_incSat_ne w hne _ _ _ _ _).trans h3, h4⟩

end

/-! ### The ladder (R287) -/

/-- The bus at the entry to LIMIT, before its channels act. -/
def State.busLimited (s : State) (b : Nat) : State :=
  (((s.enterBus b 3).setBrk b true).raise srcFOC 3).modBus b fun x => { x with chopAt := none }

/-- The bus at the entry to UNDERVOLT, before its channels act. -/
def State.busStarved (s : State) (b : Nat) : State :=
  ((s.enterBus b 4).setBrk b false).modBus b fun x => { x with chopAt := none }

/-- The bus at the entry to CHOPPING. -/
def State.busChopping (s : State) (b v : Nat) : State :=
  let s := ((s.enterBus b 1).setBrk b true).incSat (Reg.FOC_BUS_CNT b) 15 0
  s.modBus b fun x => { x with v0 := v, chopAt := some s.clk.tb }

/-- The bus at the entry to CHOP_FAULT, before its channels act. -/
def State.busChopFault (s : State) (b : Nat) : State :=
  (((s.enterBus b 2).incSat (Reg.FOC_BUS_CNT b) 31 16).raise srcFOC 2).modBus b fun x => { x with chopAt := none }

theorem busChannels_of_regs {s u : State} {b : Nat} (h : ∀ c, s.reg (Reg.FOC_CFG c) = u.reg (Reg.FOC_CFG c)) :
    s.busChannels b = u.busChannels b := by
  rw [State.busChannels, State.busChannels]
  refine List.filter_congr fun c _ => ?_
  rw [State.busOf, State.busOf, f_of_reg (h c)]

section
variable (s : State) (b : Nat)

theorem busLimit_eq : s.busLimit b = ((s.busLimited b).busChannels b).foldl State.limitCh (s.busLimited b) := rfl

theorem busUnder_eq : s.busUnder b = ((s.busStarved b).busChannels b).foldl
    (fun s c => if s.energised c then s.focFault c 4 else s) (s.busStarved b) := rfl

theorem chopFault_eq : s.chopFault b = ((s.busChopFault b).busChannels b).foldl State.enterZtc (s.busChopFault b) := rfl

variable {s b} {v : Nat}

theorem busLadder_limit (h : s.busState b ≤ 2) (hv : s.vAbs b ≤ v) : s.busLadder b v = s.busLimit b :=
  if_pos (by simp [h, hv])

theorem busLadder_under (hn : v < s.vAbs b) (h : s.busState b ≤ 1) (hv : v < s.vUV b) : s.busLadder b v = s.busUnder b := by
  rw [State.busLadder, if_neg (by simp [hn]), if_pos (by simp [h, hv])]

theorem busLadder_chop (hn : v < s.vAbs b) (h : s.busState b = 0) (hu : s.vUV b ≤ v) (hv : s.vChop b ≤ v) :
    s.busLadder b v = if s.fb (Reg.FOC_BUS_CFG b) 0 then s.busChopping b v else s.chopFault b := by
  rw [State.busLadder, if_neg (by simp [hn]), if_neg (by simp [hu]), if_pos (by simp [h, hv]), State.busChopping]

theorem busLadder_rest (h : ¬ (s.busState b ≤ 2 ∧ s.vAbs b ≤ v)) (h1 : ¬ (s.busState b ≤ 1 ∧ v < s.vUV b))
    (h2 : ¬ (s.busState b = 0 ∧ s.vChop b ≤ v)) : s.busLadder b v =
      if s.busState b = 1 ∧ v + s.f (Reg.FOC_BUS_CHOP b) 15 0 < s.vChop b then
        ((s.enterBus b 0).setBrk b false).modBus b fun x => { x with chopAt := none }
      else if s.busState b = 2 ∧ v + s.f (Reg.FOC_BUS_CHOP b) 15 0 < s.vChop b then s.setBrk b false
      else if s.busState b = 4 ∧ s.vUV b + s.f (Reg.FOC_BUS_CHOP b) 15 0 ≤ v then s.enterBus b 0
      else s := by
  rw [State.busLadder, if_neg (by simpa using h), if_neg (by simpa using h1), if_neg (by simpa using h2)]
  simp only [Bool.and_eq_true, decide_eq_true_eq]

end

/-! ### The channels of a bus (R289) -/

section
variable {s : State} {c : Nat}

theorem off_kept (h : s.energised c = false) : s.enterZtc c = s ∧ s.limitCh c = s :=
  ⟨if_neg (by simp [h]), if_pos (by simp [h])⟩

theorem focState_focIrq (s : State) (c i : Nat) : (s.focIrq c i).focState c = s.focState c :=
  f_setB_ne s (by simp only [Reg.FOC_STATE, Reg.FOC_IRQ_STATUS]; omega) _ _ _ _

theorem enterZtc_energised (h : s.energised c = true) (h9 : s.focState c ≠ 9) :
    ∃ w : State, s.enterZtc c = w.axisFault c ∧ w.focState c = 9 ∧ w.fb (Reg.FOC_IRQ_STATUS c) 1 = true := by
  refine ⟨(s.enterFoc c fZTC).focIrq c 1, if_pos (by simp [h, h9, fZTC]), ?_, fb_setB_self _ _ (by decide) _⟩
  rw [focState_focIrq]
  exact (enterFoc_state s c (by decide) (by decide)).1

theorem limitCh_fast (h : s.energised c = true) (hw : s.f (Reg.FOC_ASC c) 23 0 ≤ (s.omega c).natAbs) :
    ∃ w : State, s.limitCh c = w.axisFault c ∧ w.focState c = 10 ∧ w.fb (Reg.FOC_IRQ_STATUS c) 2 = true ∧
      (w.focCh c).dutyNext = none := by
  have h1 : Reg.FOC_STATE c ≠ Reg.FOC_CNT c := by simp only [Reg.FOC_STATE, Reg.FOC_CNT]; omega
  have h2 : Reg.FOC_IRQ_STATUS c ≠ Reg.FOC_CNT c := by simp only [Reg.FOC_IRQ_STATUS, Reg.FOC_CNT]; omega
  have hn : fASC ≠ fFIND := by decide
  obtain ⟨-, -, -, hd, -⟩ := enterFoc_ch s c hn
  refine ⟨((s.enterFoc c fASC).focIrq c 2).incSat (Reg.FOC_CNT c) 15 8, ?_, ?_, ?_, ?_⟩
  · rw [State.limitCh, if_neg (by simp [h]), if_pos hw]
  · rw [State.focState, f_incSat_ne _ h1]
    exact (focState_focIrq _ c 2).trans (enterFoc_state s c hn (by decide)).1
  · rw [fb_incSat_ne _ h2, State.focIrq, fb_setB_self _ _ (by decide)]
  · rw [focCh_incSat, State.focIrq, focCh_setB]
    exact hd rfl

theorem limitCh_slow (h : s.energised c = true) (hw : (s.omega c).natAbs < s.f (Reg.FOC_ASC c) 23 0) :
    ∃ w : State, s.limitCh c = w.axisFault c ∧ w.focState c = 11 ∧ w.f (Reg.FOC_STATE c) 15 12 = 6 := by
  obtain ⟨f1, f2, -, -, -⟩ := focFaulted_facts s c (code := 6) (by decide)
  refine ⟨s.focFaulted c 6, ?_, f1, f2⟩
  rw [State.limitCh, if_neg (by simp [h]), if_neg (Nat.not_le.mpr hw), focFault_eq]

end

/-! ### BUS_CLEAR and the chopper's check (R287) -/

section
variable {s : State} {b : Nat}

theorem busClear_cleared (h : s.busState b = 2 ∨ s.busState b = 3) (hv : s.vBus b < s.vReg b) :
    (s.busClear b).busState b = 0 ∧ ((s.busClear b).focBus b).brk = false ∧
    ∀ a, a ≠ Reg.FOC_BUS_STATUS b → (s.busClear b).reg a = s.reg a := by
  obtain ⟨e1, -, -, -, -, -, e7⟩ := enterBus_facts s b (n := 0) (by decide)
  rw [State.busClear, if_pos ⟨h, hv⟩]
  exact ⟨e1, by rw [State.setBrk, focBus_modBus_self], e7⟩

theorem busChopFault_facts : (s.busChopFault b).busState b = 2 ∧ ((s.busChopFault b).focBus b).chopAt = none ∧
    (s.busChopFault b).sbx.raised = s.sbx.raised ++ [{ src := srcFOC, ev := 2, ts := s.now }] := by
  have hne : Reg.FOC_BUS_STATUS b ≠ Reg.FOC_BUS_CNT b := by simp only [Reg.FOC_BUS_STATUS, Reg.FOC_BUS_CNT]; omega
  obtain ⟨e1, -, -, -, e5, e6, -⟩ := enterBus_facts s b (n := 2) (by decide)
  rw [State.busChopFault]
  refine ⟨?_, by rw [focBus_modBus_self], ?_⟩
  · rw [busState_modBus, State.busState, f_raise, f_incSat_ne _ hne]
    exact e1
  · rw [modBus_sbx, raised_raise, State.now, incSat_sbx, incSat_clk, e5, e6, State.now]

end

/-- A sample leaves the thresholds and the configuration of its bus. -/
theorem busSampled_limits (u : State) (b v : Nat) : (u.busSampled b v).vAbs b = u.vAbs b ∧
    (u.busSampled b v).vUV b = u.vUV b ∧ (u.busSampled b v).vChop b = u.vChop b ∧
    (u.busSampled b v).f (Reg.FOC_BUS_CHOP b) 15 0 = u.f (Reg.FOC_BUS_CHOP b) 15 0 ∧
    (u.busSampled b v).fb (Reg.FOC_BUS_CFG b) 0 = u.fb (Reg.FOC_BUS_CFG b) 0 := by
  obtain ⟨-, -, -, -, -, -, hr⟩ := busSampled_facts u b v
  have h1 := hr (Reg.FOC_BUS_V1 b) (by simp only [Reg.FOC_BUS_V1, Reg.FOC_BUS_STATUS]; omega)
  have h2 := hr (Reg.FOC_BUS_V2 b) (by simp only [Reg.FOC_BUS_V2, Reg.FOC_BUS_STATUS]; omega)
  have h3 := hr (Reg.FOC_BUS_CHOP b) (by simp only [Reg.FOC_BUS_CHOP, Reg.FOC_BUS_STATUS]; omega)
  have h4 := hr (Reg.FOC_BUS_CFG b) (by simp only [Reg.FOC_BUS_CFG, Reg.FOC_BUS_STATUS]; omega)
  exact ⟨f_of_reg h2 _ _, f_of_reg h1 _ _, f_of_reg h1 _ _, f_of_reg h3 _ _, fb_of_reg h4 _⟩

section
variable (u : State) (b v : Nat)

theorem busLimited_sampled : ((u.busSampled b v).busLimited b).Sampled u b v 3 ∧
    (((u.busSampled b v).busLimited b).focBus b).brk = true ∧
    ((u.busSampled b v).busLimited b).sbx.raised = u.sbx.raised ++ [{ src := srcFOC, ev := 3, ts := u.now }] := by
  obtain ⟨-, -, -, y4, y5, -, -⟩ := busSampled_facts u b v
  have hS := sampled_busSampled u b v
  generalize u.busSampled b v = y at *
  obtain ⟨-, -, -, -, e5, e6, -⟩ := enterBus_facts y b (n := 3) (by decide)
  refine ⟨(((hS.enterBus (n := 3) (by decide)).setBrk true).raise _ _).endChop, ?_, ?_⟩
  · rw [State.busLimited, focBus_modBus_self, focBus_raise, State.setBrk, focBus_modBus_self]
  · rw [State.busLimited, modBus_sbx, raised_raise, State.now, State.setBrk, modBus_sbx, modBus_clk, e5, e6, y4, y5, State.now]

theorem busStarved_sampled : ((u.busSampled b v).busStarved b).Sampled u b v 4 ∧
    (((u.busSampled b v).busStarved b).focBus b).brk = false := by
  have hS := sampled_busSampled u b v
  refine ⟨((hS.enterBus (n := 4) (by decide)).setBrk false).endChop, ?_⟩
  rw [State.busStarved, focBus_modBus_self, State.setBrk, focBus_modBus_self]

theorem busChopping_sampled : ((u.busSampled b v).busChopping b v).Sampled u b v 1 ∧
    (((u.busSampled b v).busChopping b v).focBus b).brk = true ∧
    (((u.busSampled b v).busChopping b v).focBus b).chopAt = some u.clk.tb ∧
    (((u.busSampled b v).busChopping b v).focBus b).v0 = v ∧
    (((u.busSampled b v).busChopping b v).focBus b).restrict = ((u.busSampled b v).focBus b).restrict := by
  obtain ⟨-, -, -, y4, -, -, -⟩ := busSampled_facts u b v
  have hS := sampled_busSampled u b v
  generalize u.busSampled b v = y at *
  obtain ⟨-, -, -, e4, e5, -, -⟩ := enterBus_facts y b (n := 1) (by decide)
  refine ⟨State.Sampled.modBus (g := fun x => { x with v0 := v, chopAt := some (((y.enterBus b 1).setBrk b true).incSat
    (Reg.FOC_BUS_CNT b) 15 0).clk.tb }) (fun _ => rfl) (((hS.enterBus (n := 1) (by decide)).setBrk true).count _ _ _), ?_⟩
  rw [State.busChopping, focBus_modBus_self, focBus_incSat, State.setBrk, focBus_modBus_self, incSat_clk, modBus_clk, e4, e5, y4]
  exact ⟨rfl, rfl, rfl, rfl⟩

theorem busChopFault_sampled : ((u.busSampled b v).busChopFault b).Sampled u b v 2 :=
  ((((sampled_busSampled u b v).enterBus (n := 2) (by decide)).count _ _ _).raise _ _).endChop

/-- Regeneration is restricted from VREG on, and free below it by the hysteresis (R286). -/
theorem busSampled_restrict : (u.vReg b ≤ v → ((u.busSampled b v).focBus b).restrict = true) ∧
    (v + u.f (Reg.FOC_BUS_CHOP b) 15 0 < u.vReg b → ((u.busSampled b v).focBus b).restrict = false) := by
  obtain ⟨-, -, -, -, -, y6, -⟩ := busSampled_facts u b v
  rw [y6]
  exact ⟨fun h => if_pos h, fun h => by rw [if_neg (by omega), if_pos h]⟩

end

theorem busOrdered_iff (u : State) (b : Nat) :
    u.busOrdered b = true ↔ u.vUV b < u.vChop b ∧ u.vChop b < u.vReg b ∧ u.vReg b < u.vAbs b := by
  simp [State.busOrdered, and_assoc]

/-- Settles O39: a sample branch by branch of the ladder, each over the state with the sample taken, BUS_CLEAR, the check
of the chopper, and a channel at the entry of its bus to CHOP_FAULT or LIMIT. -/
theorem supplyBuses : Obligations.SupplyBuses := by
  refine ⟨fun s t b sd => ?_, fun s c _ => ⟨off_kept, fun h => ⟨enterZtc_energised h, limitCh_fast h, limitCh_slow h⟩⟩⟩
  dsimp only
  refine ⟨exec_busSample_idle, fun h => ?_, sampleDue_iff (s.at t) b, fun n => busVolts_exact (s.at t) b,
    fun hon hd ho => ?_, fun hon => ⟨fun h hv => ?_, fun h => ?_⟩, exec_chopTimerExpiry_none, fun t0 h0 =>
      ⟨fun hd => ?_, fun hd hv => ?_, fun hd hv => ?_⟩⟩
  · rw [exec_busClear, if_neg (by simp [h])]
  · rw [exec_busSample hon hd]
    generalize (((s.at t).busVolts b sd).1) = v
    generalize s.at t = u at *
    obtain ⟨o1, o2, o3⟩ := (busOrdered_iff u b).mp ho
    obtain ⟨l1, l2, l3, l4, l5⟩ := busSampled_limits u b v
    obtain ⟨y1, -, -, -, -, -, -⟩ := busSampled_facts u b v
    have hS := sampled_busSampled u b v
    refine ⟨fun h hv => ?_, fun h hv => ?_, fun h hv hn hb => ?_, fun h hv hn hb => ?_, fun h hu hv => ?_, fun h hv => ?_,
      fun h => ?_, fun h => ?_, fun h hu hv => ?_⟩
    · rw [busLadder_limit (by omega) (by omega), busLimit_eq]
      exact ⟨_, rfl, busLimited_sampled u b v⟩
    · rw [busLadder_under (by omega) (by omega) (by omega), busUnder_eq]
      exact ⟨_, rfl, busStarved_sampled u b v⟩
    · rw [busLadder_chop (by omega) (by omega) (by omega) (by omega), if_pos (l5.trans hb)]
      obtain ⟨c1, c2, c3, c4, c5⟩ := busChopping_sampled u b v
      obtain ⟨r1, r2⟩ := busSampled_restrict u b v
      exact ⟨_, rfl, c1, c2, c3, c4, fun h => c5.trans (r1 h), fun h => c5.trans (r2 h)⟩
    · rw [busLadder_chop (by omega) (by omega) (by omega) (by omega), if_neg (by simp [l5, hb]), chopFault_eq]
      exact ⟨_, rfl, busChopFault_sampled u b v⟩
    · rw [busLadder_rest (by omega) (by omega) (by omega), if_pos (by omega)]
      refine ⟨_, rfl, ((hS.enterBus (n := 0) (by decide)).setBrk false).endChop, ?_⟩
      rw [focBus_modBus_self, State.setBrk, focBus_modBus_self]
    · rw [busLadder_rest (by omega) (by omega) (by omega), if_neg (by omega), if_pos (by omega)]
      refine ⟨_, rfl, (h ▸ hS : State.Sampled _ u b v 2).setBrk false, ?_⟩
      rw [State.setBrk, focBus_modBus_self]
    · rw [busLadder_rest (by omega) (by omega) (by omega), if_neg (by omega), if_neg (by omega), if_neg (by omega)]
      rw [h] at hS
      exact ⟨_, rfl, hS⟩
    · rw [busLadder_rest (by omega) (by omega) (by omega), if_neg (by omega), if_neg (by omega)]
      by_cases hv : u.vUV b + u.f (Reg.FOC_BUS_CHOP b) 15 0 ≤ v
      · rw [if_pos (by omega), if_pos hv]
        exact ⟨_, rfl, hS.enterBus (n := 0) (by decide)⟩
      · rw [if_neg (by omega), if_neg hv]
        rw [h] at hS
        exact ⟨_, rfl, hS⟩
    · rw [busLadder_rest (by omega) (by omega) (by omega), if_neg (by omega), if_neg (by omega), if_neg (by omega)]
      rw [h] at hS
      exact ⟨_, rfl, hS⟩
  · obtain ⟨c1, c2, c3⟩ := busClear_cleared h hv
    exact ⟨_, exec_busClear.trans (if_pos hon), c1, c2, c3⟩
  · rw [exec_busClear, if_pos hon, State.busClear, if_neg]
    rintro ⟨h2, hv⟩
    rcases h with ⟨h3, h4⟩ | h
    · exact h2.elim h3 h4
    · exact absurd hv (Nat.not_lt.mpr h)
  · rw [exec_chopTimerExpiry h0, if_pos ((not_and_or.mp hd).imp_right Nat.not_le.mp)]
  · rw [exec_chopTimerExpiry h0, if_neg fun hc => hc.elim (fun h => h hd.1) fun h => absurd hd.2 (Nat.not_le.mpr h), if_pos hv, chopFault_eq]
    exact ⟨_, rfl, busChopFault_facts⟩
  · rw [exec_chopTimerExpiry h0, if_neg fun hc => hc.elim (fun h => h hd.1) fun h => absurd hd.2 (Nat.not_le.mpr h), if_neg (Nat.not_lt.mpr hv)]

end Sys2Proof.Machine
end

section
/-! Commands of stepper channels (R310, R315, R320, R322, R325): each waits at its channel for the motion-period boundary,
except HALT, which brings a moving channel to rest where it stands. -/
namespace Sys2Proof.Machine

/-! ### Channels of STP under the operations of a state -/

section
variable (s : State)

@[simp] theorem stpCh_setReg (a : Nat) (v : Word) (c : Nat) : (s.setReg a v).stpCh c = s.stpCh c := rfl
@[simp] theorem stpCh_setF (a hi lo n c : Nat) : (s.setF a hi lo n).stpCh c = s.stpCh c := rfl
@[simp] theorem stpCh_setB (a i : Nat) (b : Bool) (c : Nat) : (s.setB a i b).stpCh c = s.stpCh c := by
  rw [State.stpCh, setB_stp, State.stpCh]

@[simp] theorem stpCh_modStp_self (c : Nat) (g : StpCh → StpCh) : (s.modStp c g).stpCh c = g (s.stpCh c) :=
  Tab.get_put_self _ _ _ _

theorem stpCh_modStp_ne {c d : Nat} (h : d ≠ c) (g : StpCh → StpCh) : (s.modStp c g).stpCh d = s.stpCh d :=
  Tab.get_put_ne _ h _ _

@[simp] theorem stpState_modStp (c d : Nat) (g : StpCh → StpCh) : (s.modStp c g).stpState d = s.stpState d := rfl
@[simp] theorem stpT_modStp (c d : Nat) (g : StpCh → StpCh) : (s.modStp c g).stpT d = s.stpT d := rfl
@[simp] theorem applied_modStp (c a : Nat) (g : StpCh → StpCh) : (s.modStp c g).applied a = s.applied a := rfl

end

/-- The word in force of a register is made of its own word and of the held ones. -/
theorem applied_congr {s u : State} {a : Nat} (hr : u.reg a = s.reg a) (hh : u.held = s.held) : u.applied a = s.applied a := by
  rw [State.applied, State.applied, hr, hh]

/-- P stands still: a channel at rest is where it was put. -/
theorem crossed_still (p : Int) (e : Nat) : crossed (p * unit32) (p * unit32) p e = p := by
  have h1 : p * unit32 * 6400 = p * (6400 * unit32) := by ring
  have h2 : -(p * (6400 * unit32)) = -p * (6400 * unit32) := by ring
  have h3 : (6400 * unit32 : Int) ≠ 0 := by decide
  rw [crossed]
  simp only [sub_self, zero_mul, add_zero, h1, h2, floorDiv, Int.mul_fdiv_cancel _ h3]
  rw [if_neg (by omega), if_neg (by omega)]

/-- The two registers of a pair of 48 bits, read together. -/
theorem pair48_read {n : Nat} (h : n < 2 ^ 48) :
    (BitVec.ofNat 32 n).toNat + 2 ^ 32 * bits (BitVec.ofNat 32 (n / 2 ^ 32)) 15 0 = n := by
  have h' : n < 281474976710656 := h
  simp only [bits, BitVec.toNat_ofNat, Nat.reducePow, Nat.reduceSub, Nat.reduceAdd, Nat.div_one]
  omega

theorem fromSigned_lt (w : Nat) (i : Int) : fromSigned w i < 2 ^ w := by
  have h0 : (0 : Int) < ((2 ^ w : Nat) : Int) := by exact_mod_cast Nat.two_pow_pos w
  have h1 := Int.emod_lt_of_pos i h0
  have h2 := Int.emod_nonneg i h0.ne'
  rw [fromSigned]
  omega

/-! ### A channel that is brought to HELD (R315) -/

section
variable (s : State) (c : Nat)

/-- The registers of a channel that comes to HELD. -/
def State.heldRegs : State :=
  (((s.setF (Reg.STP_STATE c) 3 0 pHELD).setB Reg.SYS_SVC_MOTION_STP c false).stpIrq c 1).takeFresh.2

theorem enterStp_held : s.enterStp c pHELD = (s.heldRegs c).modStp c fun x =>
    { x with bySafe := false, restAt := s.clk.tb, hold := false, encFault := false, revAt := none
             enabled := x.enabled && Config.freeNat s.fresh % 2 == 1 } := by
  have hf : ((s.setF (Reg.STP_STATE c) 3 0 pHELD).setB Reg.SYS_SVC_MOTION_STP c false |>.stpIrq c 1).fresh = s.fresh := by
    simp [State.stpIrq]
  have hc : (s.heldRegs c).clk = s.clk := by simp [State.heldRegs, State.stpIrq, State.takeFresh]
  rw [State.enterStp, if_neg (by decide : ¬ movingState pHELD = true), if_pos rfl,
    if_pos (by decide : (decide (pHELD = pIDLE) || decide (pHELD = pHELD) || decide (pHELD = pFAULT)) = true)]
  rw [← hf, ← hc]
  rfl

theorem heldRegs_kept : (s.heldRegs c).mem = s.mem ∧ (s.heldRegs c).clk = s.clk ∧ (s.heldRegs c).held = s.held ∧
    ∀ d, (s.heldRegs c).stpCh d = s.stpCh d := by
  refine ⟨?_, ?_, ?_, fun d => ?_⟩
  · simp [State.heldRegs, State.stpIrq, State.takeFresh]
  · simp [State.heldRegs, State.stpIrq, State.takeFresh]
  · simp [State.heldRegs, State.stpIrq, State.takeFresh]
  · rw [State.heldRegs, State.stpIrq]
    exact ((stpCh_setB _ _ _ _ _).trans (stpCh_setB _ _ _ _ _)).trans (stpCh_setF _ _ _ _ _ _)

theorem heldRegs_reg {a : Nat} (h1 : a ≠ Reg.STP_STATE c) (h2 : a ≠ Reg.SYS_SVC_MOTION_STP) (h3 : a ≠ Reg.STP_IRQ_STATUS c) :
    (s.heldRegs c).reg a = s.reg a := by
  rw [State.heldRegs, State.stpIrq]
  exact (reg_setB_ne _ h3 _ _).trans ((reg_setB_ne _ h2 _ _).trans (reg_setF_ne _ h1 _ _ _))

theorem heldRegs_state : (s.heldRegs c).stpState c = 6 := by
  have h1 : Reg.STP_STATE c ≠ Reg.SYS_SVC_MOTION_STP := by simp only [Reg.STP_STATE, Reg.SYS_SVC_MOTION_STP]; omega
  have h2 : Reg.STP_STATE c ≠ Reg.STP_IRQ_STATUS c := by simp only [Reg.STP_STATE, Reg.STP_IRQ_STATUS]; omega
  rw [State.heldRegs, State.stpIrq]
  exact ((f_setB_ne _ h2 _ _ _ _).trans (f_setB_ne _ h1 _ _ _ _)).trans (f_setF_self _ _ (by decide) (by decide) _)

/-- A channel that HALT has brought to rest, before the current its windings take. -/
def State.halted : State :=
  ((((s.standAt c (s.stpPos c)).setRem c (s.stpT c - s.stpPos c)).enterStp c pHELD).modStp c fun x =>
    { x with hold := true, steps := dropSteps s.clk.tb (s.clk.tb + 640) x.steps })

/-- The registers of the halted channel. -/
def State.haltRegs : State := ((s.standAt c (s.stpPos c)).setRem c (s.stpT c - s.stpPos c)).heldRegs c

theorem haltRegs_clk : (s.haltRegs c).clk = s.clk := (heldRegs_kept _ c).2.1

theorem haltRegs_held : (s.haltRegs c).held = s.held := (heldRegs_kept _ c).2.2.1

theorem stpCh_setRem (v : Int) (d : Nat) : (s.setRem c v).stpCh d = s.stpCh d := rfl

theorem halted_eq : s.halted c = ((s.haltRegs c).modStp c fun x =>
      { x with bySafe := false, restAt := s.clk.tb, hold := false, encFault := false, revAt := none
               enabled := x.enabled && Config.freeNat s.fresh % 2 == 1 }).modStp c fun x =>
    { x with hold := true, steps := dropSteps s.clk.tb (s.clk.tb + 640) x.steps } := by
  rw [State.halted, enterStp_held]
  rfl

theorem hardStop_held : s.hardStop c pHELD =
    if c ≤ 15 then (s.halted c).setF (Reg.STP_LA_MEAS c) 31 16 ((s.halted c).af (Reg.STP_CUR2 c) 15 0) else s.halted c := by
  rw [State.hardStop]
  rfl

theorem haltRegs_ch : (s.haltRegs c).stpCh c = { s.stpCh c with
    p0 := s.stpPos c * unit32, p1 := s.stpPos c * unit32, t0 := s.clk.tb, pos := s.stpPos c, gp := s.stpPos c * unit32
    gv := 0, v := 0, raw := [], rawP := [] } := by
  rw [State.haltRegs, (heldRegs_kept _ c).2.2.2 c, stpCh_setRem, State.standAt, stpCh_modStp_self]

theorem haltRegs_reg {a : Nat} (h1 : a ≠ Reg.STP_STATE c) (h2 : a ≠ Reg.SYS_SVC_MOTION_STP) (h3 : a ≠ Reg.STP_IRQ_STATUS c)
    (h4 : a ≠ Reg.STP_REM_LO c) (h5 : a ≠ Reg.STP_REM_HI c) : (s.haltRegs c).reg a = s.reg a :=
  (heldRegs_reg _ c h1 h2 h3).trans ((reg_setReg_ne _ h5 _).trans ((reg_setReg_ne _ h4 _).trans rfl))

theorem haltRegs_applied {a : Nat} (h1 : a ≠ Reg.STP_STATE c) (h2 : a ≠ Reg.SYS_SVC_MOTION_STP)
    (h3 : a ≠ Reg.STP_IRQ_STATUS c) (h4 : a ≠ Reg.STP_REM_LO c) (h5 : a ≠ Reg.STP_REM_HI c) :
    (s.haltRegs c).applied a = s.applied a :=
  applied_congr (haltRegs_reg s c h1 h2 h3 h4 h5) (heldRegs_kept _ c).2.2.1

theorem haltRegs_stpT : (s.haltRegs c).stpT c = s.stpT c := by
  rw [State.stpT, State.stpT, State.af, State.af, State.af, State.af, haltRegs_applied, haltRegs_applied]
  all_goals
    simp only [Reg.STP_TGT_LO, Reg.STP_TGT_HI, Reg.STP_STATE, Reg.SYS_SVC_MOTION_STP, Reg.STP_IRQ_STATUS, Reg.STP_REM_LO,
      Reg.STP_REM_HI]
    omega

theorem haltRegs_cur : (s.haltRegs c).af (Reg.STP_CUR2 c) 15 0 = s.af (Reg.STP_CUR2 c) 15 0 := by
  rw [State.af, State.af, haltRegs_applied]
  all_goals
    simp only [Reg.STP_CUR2, Reg.STP_STATE, Reg.SYS_SVC_MOTION_STP, Reg.STP_IRQ_STATUS, Reg.STP_REM_LO, Reg.STP_REM_HI]
    omega

theorem haltRegs_rem : ((s.haltRegs c).reg (Reg.STP_REM_LO c)).toNat + 2 ^ 32 * (s.haltRegs c).f (Reg.STP_REM_HI c) 15 0 =
    fromSigned 48 (s.stpT c - s.stpPos c) := by
  have hne : Reg.STP_REM_LO c ≠ Reg.STP_REM_HI c := by simp only [Reg.STP_REM_LO, Reg.STP_REM_HI]; omega
  rw [State.f, State.haltRegs, heldRegs_reg, heldRegs_reg, State.setRem, State.setPair48, reg_setReg_self, reg_setReg_ne _ hne,
    reg_setReg_self, pair48_read (fromSigned_lt 48 _)]
  all_goals
    simp only [Reg.STP_STATE, Reg.SYS_SVC_MOTION_STP, Reg.STP_IRQ_STATUS, Reg.STP_REM_LO, Reg.STP_REM_HI]
    omega

theorem halted_ch : (s.halted c).stpCh c = { s.stpCh c with
    p0 := s.stpPos c * unit32, p1 := s.stpPos c * unit32, t0 := s.clk.tb, pos := s.stpPos c, gp := s.stpPos c * unit32
    gv := 0, v := 0, raw := [], rawP := [], bySafe := false, restAt := s.clk.tb, encFault := false, revAt := none
    enabled := (s.stpCh c).enabled && Config.freeNat s.fresh % 2 == 1
    hold := true, steps := dropSteps s.clk.tb (s.clk.tb + 640) (s.stpCh c).steps } := by
  rw [halted_eq, stpCh_modStp_self, stpCh_modStp_self, haltRegs_ch]

theorem halted_regs : (s.halted c).regs = (s.haltRegs c).regs := by rw [halted_eq]; rfl

theorem halted_ch_ne {d : Nat} (h : d ≠ c) : (s.halted c).stpCh d = s.stpCh d := by
  rw [halted_eq, stpCh_modStp_ne _ h, stpCh_modStp_ne _ h, State.haltRegs, (heldRegs_kept _ c).2.2.2 d,
    stpCh_setRem, State.standAt, stpCh_modStp_ne _ h]

theorem halted_kept : (s.halted c).mem = s.mem ∧ (s.halted c).clk = s.clk ∧ (s.halted c).held = s.held := by
  obtain ⟨h1, h2, h3, -⟩ := heldRegs_kept ((s.standAt c (s.stpPos c)).setRem c (s.stpT c - s.stpPos c)) c
  rw [halted_eq]
  exact ⟨h1, h2, h3⟩

/-- What STP_LA_MEAS is written for leaves the rest as it is. -/
theorem hardStop_held_reg {a : Nat} (h : a ≠ Reg.STP_LA_MEAS c) : (s.hardStop c pHELD).reg a = (s.haltRegs c).reg a := by
  rw [hardStop_held, reg_ite, reg_setF_ne _ h, ite_self, reg_of_regs (halted_regs s c)]

theorem hardStop_held_ch (d : Nat) : (s.hardStop c pHELD).stpCh d = (s.halted c).stpCh d := by
  rw [hardStop_held]
  split <;> rfl

theorem hardStop_held_kept : (s.hardStop c pHELD).mem = s.mem ∧ (s.hardStop c pHELD).clk = s.clk ∧
    (s.hardStop c pHELD).held = s.held := by
  rw [hardStop_held]
  split
  · exact halted_kept s c
  · exact halted_kept s c

theorem hardStop_held_applied {a : Nat} (h : a ≠ Reg.STP_LA_MEAS c) :
    (s.hardStop c pHELD).applied a = (s.haltRegs c).applied a :=
  applied_congr (hardStop_held_reg s c h) ((hardStop_held_kept s c).2.2.trans (haltRegs_held s c).symm)

theorem hardStop_held_state : (s.hardStop c pHELD).stpState c = 6 := by
  have h : Reg.STP_STATE c ≠ Reg.STP_LA_MEAS c := by simp only [Reg.STP_STATE, Reg.STP_LA_MEAS]; omega
  rw [State.stpState, State.f, hardStop_held_reg s c h]
  exact heldRegs_state _ c

theorem hardStop_held_stpT : (s.hardStop c pHELD).stpT c = s.stpT c := by
  rw [← haltRegs_stpT s c, State.stpT, State.stpT, State.af, State.af, State.af, State.af, hardStop_held_applied,
    hardStop_held_applied]
  all_goals
    simp only [Reg.STP_TGT_LO, Reg.STP_TGT_HI, Reg.STP_LA_MEAS]
    omega

theorem hardStop_held_rem : ((s.hardStop c pHELD).reg (Reg.STP_REM_LO c)).toNat +
    2 ^ 32 * (s.hardStop c pHELD).f (Reg.STP_REM_HI c) 15 0 = fromSigned 48 (s.stpT c - s.stpPos c) := by
  rw [← haltRegs_rem, State.f, State.f, hardStop_held_reg, hardStop_held_reg]
  all_goals
    simp only [Reg.STP_REM_LO, Reg.STP_REM_HI, Reg.STP_LA_MEAS]
    omega

theorem hardStop_held_meas (h : c ≤ 15) :
    (s.hardStop c pHELD).f (Reg.STP_LA_MEAS c) 31 16 = s.af (Reg.STP_CUR2 c) 15 0 := by
  have ha : (s.halted c).af (Reg.STP_CUR2 c) 15 0 = s.af (Reg.STP_CUR2 c) 15 0 := by
    rw [← haltRegs_cur s c, halted_eq]
    rfl
  rw [hardStop_held, if_pos h, f_setF_self _ _ (by decide) (by decide), ha]
  exact Nat.mod_eq_of_lt (bits_lt _ _ _)

theorem mem_dropSteps {now last : Tick} {xs : List StepPulse} {q : StepPulse} (h : q ∈ dropSteps now last xs) :
    q ∈ xs ∧ q.cross ≤ now ∧ q.rise ≤ last := by
  simpa [dropSteps] using h

/-- HALT of a moving channel (R315): the stop and its report at the boundary. -/
def State.haltMoving : State :=
  (s.hardStop c pHELD).modStp c fun x => { x with halt := x.halt ++ [{ time := s.clk.tb }], halted := true }

theorem stpHalt_moving (h : s.moving c = true) : s.stpHalt c {} = s.haltMoving c := by
  have hsh : ∀ (w : State) b, w.stpShared c b [] = w := fun w b => by rw [State.stpShared]; exact ite_self _
  rw [State.stpHalt]
  simp only [h, if_true, Bool.true_or]
  rw [show (({} : StpReq).spoil.toList) = [] from rfl, hsh, (hardStop_held_kept s c).2.1]
  rfl

theorem stpHalt_still (h : s.moving c = false) :
    s.stpHalt c {} = s.modStp c fun x => { x with halt := x.halt ++ [{ time := s.clk.tb }] } := by
  rw [State.stpHalt]
  simp only [h, Bool.false_or]
  rfl

theorem haltMoving_facts : (s.haltMoving c).stpState c = 6 ∧ (s.haltMoving c).stpPos c = s.stpPos c ∧
    ((s.haltMoving c).stpCh c).v = 0 ∧ ((s.haltMoving c).stpCh c).halted = true ∧ ((s.haltMoving c).stpCh c).hold = true ∧
    (s.haltMoving c).stpT c = s.stpT c ∧
    ((s.haltMoving c).reg (Reg.STP_REM_LO c)).toNat + 2 ^ 32 * (s.haltMoving c).f (Reg.STP_REM_HI c) 15 0 =
      fromSigned 48 (s.stpT c - s.stpPos c) ∧
    (c ≤ 15 → (s.haltMoving c).f (Reg.STP_LA_MEAS c) 31 16 = s.af (Reg.STP_CUR2 c) 15 0) ∧
    (∀ q ∈ ((s.haltMoving c).stpCh c).steps,
      q ∈ (s.stpCh c).steps ∧ q.cross ≤ s.clk.tb ∧ q.rise ≤ s.clk.tb + 640) ∧
    (∀ d, d ≠ c → (s.haltMoving c).stpCh d = s.stpCh d) ∧ (s.haltMoving c).mem = s.mem := by
  have hch : (s.haltMoving c).stpCh c =
      { (s.halted c).stpCh c with halt := ((s.halted c).stpCh c).halt ++ [{ time := s.clk.tb }], halted := true } := by
    rw [State.haltMoving, stpCh_modStp_self, hardStop_held_ch]
  refine ⟨hardStop_held_state s c, ?_, ?_, ?_, ?_, hardStop_held_stpT s c, hardStop_held_rem s c, hardStop_held_meas s c, ?_,
    fun d hd => ?_, (hardStop_held_kept s c).1⟩
  · rw [State.stpPos, hch, halted_ch]
    exact crossed_still _ _
  · rw [hch, halted_ch]
  · rw [hch]
  · rw [hch, halted_ch]
  · rw [hch, halted_ch]
    exact fun q hq => mem_dropSteps hq
  · rw [State.haltMoving, stpCh_modStp_ne _ hd, hardStop_held_ch, halted_ch_ne s c hd]

end

/-! ### The edges of a state (R310, R320, R322) -/

section
variable {s : State} {t : Tick} {c : Fin 32} (hon : (s.at t).actOn = true)
include hon

theorem exec_stpWaiting :
    exec (.go t c) s = .next ((s.at t).stpGo c {}) ∧ exec (.stpStop t c) s = .next ((s.at t).stpStop c {}) ∧
    exec (.resume t c) s = .next ((s.at t).stpResume c {}) ∧ exec (.stpClear t c) s = .next ((s.at t).stpClear c {}) ∧
    exec (.halt t c) s = .next ((s.at t).stpHalt c {}) ∧ exec (.gearArm t c) s = .next ((s.at t).gearArm c) ∧
    exec (.gearCancel t c) s = .next ((s.at t).gearCancel c) := by
  change execGo t c s = _ ∧ execStpStop t c s = _ ∧ execResume t c s = _ ∧ execStpClear t c s = _ ∧ execHalt t c s = _ ∧
    execGearArm t c s = _ ∧ execGearCancel t c s = _
  rw [execGo, execStpStop, execResume, execStpClear, execHalt, execGearArm, execGearCancel]
  generalize s.at t = u at *
  exact ⟨if_pos hon, if_pos hon, if_pos hon, if_pos hon, if_pos hon, if_pos hon, if_pos hon⟩

end

theorem holdTimer_facts {s : State} {t : Tick} {c : Fin 16} (hon : (s.at t).actOn = true)
    (hst : (s.at t).stpState c = 0 ∨ (s.at t).stpState c = 6) :
    let u := s.at t
    let due := (u.stpCh c).restAt + u.f (Reg.STP_CUR2 c) 31 16 * 6400000 ≤ u.clk.tb
    (due → exec (.holdTimerExpiry t c) s = .next ((u.modStp c fun x => { x with hold := true }).setF (Reg.STP_LA_MEAS c) 31 16
      (u.af (Reg.STP_CUR2 c) 15 0))) ∧ (¬ due → exec (.holdTimerExpiry t c) s = .next u) := by
  change _ ∧ (_ → execHoldTimerExpiry t c s = _)
  change (_ → execHoldTimerExpiry t c s = _) ∧ _
  rw [execHoldTimerExpiry]
  generalize s.at t = u at *
  have hr : (decide (u.stpState c = pIDLE) || decide (u.stpState c = pHELD)) = true := by
    rcases hst with h | h <;> simp [h, pIDLE, pHELD]
  refine ⟨fun h => ?_, fun h => ?_⟩
  · exact if_pos (by simp only [hon, hr, ms, h, Bool.and_self, decide_true])
  · exact if_neg (by simp only [hon, hr, ms, h, Bool.and_self, decide_false, Bool.and_false, Bool.false_eq_true, not_false_eq_true])

/-! ### Timetable actions (R325) -/

theorem stpAction_run {u : State} {k : Fin 128} {i n : Nat} {a : Armed}
    (h : u.CanTake k i (fun a => isCmd 0x0F n a && a.unit ≤ 31 && u.actOn) a) (g : State → Nat → StpReq → Nat → State) :
    u.stpAction k i n g = g ((u.markExecuted k i).report k i (u.markExecuted k i).clk.tb) a.act.unit
      { handle := some ((u.markExecuted k i).handle k), spoil := if a.list = .spoil then some k.val else none }
      a.act.param := by
  rw [State.stpAction]
  simp only [take_run h]
  cases a.list <;> rfl

theorem stpShared_one (r : State) (c k : Nat) (b : Option Int) :
    (r.stpCommanded c = b → r.stpShared c b [k] = r) ∧
    (r.stpCommanded c ≠ b → r.stpShared c b [k] = r.sharedResource k (16 + c)) :=
  ⟨fun h => if_pos h, fun h => if_neg h⟩

/-- Settles O40: the commands that wait at their channel, the stop of HALT by what it leaves of the channel and its
registers, and the Timetable's commands through the action that carries them. -/
theorem stepperCommands : Obligations.StepperCommands := by
  refine fun s t => ⟨fun c hon => ?_, fun c hon hst => ?_, fun k i a => ?_⟩
  · obtain ⟨x1, x2, x3, x4, x5, x6, x7⟩ := exec_stpWaiting (c := c) hon
    generalize s.at t = u at *
    refine ⟨x1, x2, x3, x4, fun h => ?_, fun h => ⟨u.haltMoving c, ?_, ?_⟩, u.gearArm c, x6, ?_, fun a ha => ?_, ?_,
      u.gearCancel c, x7, ?_, fun a ha => ?_, ?_⟩
    · rw [x5, stpHalt_still u c h]
    · rw [x5, stpHalt_moving u c h]
    · obtain ⟨h1, h2, h3, h4, h5, h6, h7, h8, h9, h10, h11⟩ := haltMoving_facts u c
      exact ⟨h1, h2, h3, h4, h5, h6, h7, h8, h9, fun d _ hd => h10 d hd, h11⟩
    · exact fb_setB_self u (Reg.STP_GEAR_STATUS c) (by decide : 0 < 32) _
    · exact reg_setB_ne u ha _ _
    · exact setB_mem _ _ _ _
    · exact fb_setB_self u (Reg.STP_GEAR_STATUS c) (by decide : 0 < 32) _
    · exact reg_setB_ne u ha _ _
    · exact setB_mem _ _ _ _
  · obtain ⟨h1, h2⟩ := holdTimer_facts hon hst
    dsimp only
    generalize s.at t = u at *
    refine ⟨fun h => ⟨_, h1 h, ?_, ?_, ?_, rfl⟩, h2⟩
    · rw [f_setF_self _ _ (by decide) (by decide)]
      exact Nat.mod_eq_of_lt (bits_lt _ _ _)
    · rw [stpCh_setF, stpCh_modStp_self]
    · rw [State.stpPos, stpCh_setF, stpCh_modStp_self]
      rfl
  · dsimp only
    change (_ → Host.Outcome.next ((s.at t).stpAction k i 1 _) = _) ∧ (_ → Host.Outcome.next ((s.at t).stpAction k i 2 _) = _) ∧
      (_ → Host.Outcome.next ((s.at t).stpAction k i 3 _) = _) ∧ (_ → Host.Outcome.next ((s.at t).stpAction k i 4 _) = _) ∧
      (_ → Host.Outcome.next ((s.at t).stpAction k i 5 _) = _) ∧ (_ → Host.Outcome.next ((s.at t).stpAction k i 6 _) = _) ∧
      (_ → Host.Outcome.next ((s.at t).stpAction k i 7 _) = _) ∧ _
    generalize s.at t = u at *
    refine ⟨fun h => ?_, fun h => ?_, fun h => ?_, fun h => ?_, fun h => ?_, fun h => ?_, fun h => ?_, stpShared_one _ _ _⟩
    · rw [stpAction_run h, State.stpGo, State.ttTarget]
      rfl
    · rw [stpAction_run h, State.stpGo, State.ttTarget]
      rfl
    · rw [stpAction_run h, State.stpGo]
      rfl
    · rw [stpAction_run h, State.stpStop]
    · rw [stpAction_run h]
    · rw [stpAction_run h, State.stpResume]
    · rw [stpAction_run h, State.stpGo]

end Sys2Proof.Machine
end

section
/-! High voltage (R333–R341): the units' ramps and values, the window check of a sense code, the generators and the
SAFE stages. -/
namespace Sys2Proof.Machine

/-! ### Words in force beside the boundary of another register -/

theorem Tab.find?_insert_ne {α : Type} {i j : Nat} (h : j ≠ i) (x : α) (t : Tab α) :
    (Tab.insert i x t).find? (fun p => p.1 == j) = t.find? (fun p => p.1 == j) := by
  have hij : i ≠ j := fun e => h e.symm
  induction t with
  | nil => simp [Tab.insert, hij]
  | cons p t ih =>
    obtain ⟨k, v⟩ := p
    simp only [Tab.insert]
    split
    · simp [hij]
    · split
      · next hk => simp [← hk, hij]
      · rw [List.find?_cons, List.find?_cons, ih]

theorem Tab.find?_erase_ne {α : Type} {i j : Nat} (h : j ≠ i) (t : Tab α) :
    (Tab.erase i t).find? (fun p => p.1 == j) = t.find? (fun p => p.1 == j) := by
  have hij : i ≠ j := fun e => h e.symm
  induction t with
  | nil => rfl
  | cons p t ih =>
    obtain ⟨k, v⟩ := p
    simp only [Tab.erase]
    split
    · next hk => simp [hk, hij, ih]
    · rw [List.find?_cons, List.find?_cons, ih]

/-- A boundary brings no other register's word in force. -/
theorem applied_applyS_ne (s : State) {a b : Nat} (h : b ≠ a) : (s.applyS a).applied b = s.applied b := by
  have hf : (s.applyS a).held.find? (fun p => p.1 == b) = s.held.find? (fun p => p.1 == b) := by
    rw [State.applyS]
    cases s.held.find? (fun p => p.1 == a) with
    | none => rfl
    | some p =>
      dsimp only
      split
      · exact Tab.find?_insert_ne h _ _
      · exact Tab.find?_erase_ne h _
  rw [State.applied, State.applied, hf, reg_applyS]

theorem applied_setReg_ne (s : State) {a b : Nat} (h : b ≠ a) (v : Word) : (s.setReg a v).applied b = s.applied b :=
  applied_congr (reg_setReg_ne s h v) rfl

theorem applied_setF_ne (s : State) {a b : Nat} (h : b ≠ a) (hi lo n : Nat) : (s.setF a hi lo n).applied b = s.applied b :=
  applied_setReg_ne s h _

theorem applyAll_kept (s : State) (l : List Nat) : (s.applyAll l).regs = s.regs ∧ (s.applyAll l).clk = s.clk ∧
    (s.applyAll l).hv = s.hv ∧ (s.applyAll l).mem = s.mem := by
  rw [State.applyAll]
  refine foldl_invariant (P := fun v : State => v.regs = s.regs ∧ v.clk = s.clk ∧ v.hv = s.hv ∧ v.mem = s.mem)
    (fun v a _ h => ?_) ⟨rfl, rfl, rfl, rfl⟩
  obtain ⟨h1, h2, h3, h4⟩ := h
  obtain ⟨e1, -, e3⟩ := applyS_kept v a
  have e : (v.applyS a).hv = v.hv ∧ (v.applyS a).mem = v.mem := by
    rw [State.applyS]
    split
    · split <;> exact ⟨rfl, rfl⟩
    · exact ⟨rfl, rfl⟩
  exact ⟨e1.trans h1, e3.trans h2, e.1.trans h3, e.2.trans h4⟩

/-! ### Values of a ramp (R334, R335) -/

theorem rampValue_last {v0 v1 i n : Nat} (h : n ≤ i) : rampValue v0 v1 i n = v1 := if_pos h

theorem rampValue_first {v0 v1 n : Nat} (h : 0 < n) : rampValue v0 v1 0 n = v0 := by
  rw [rampValue, if_neg (by omega)]
  simp

/-- The share i ÷ n of a span lies within it. -/
theorem tdiv_within {d i n : Nat} (h : i < n) : Int.tdiv ((d : Int) * i) n ≤ d ∧ 0 ≤ Int.tdiv ((d : Int) * i) n := by
  have e : Int.tdiv ((d : Int) * i) n = ((d * i / n : Nat) : Int) := by
    rw [← Int.natCast_mul, Int.ofNat_tdiv]
  have hle : d * i / n ≤ d := Nat.div_le_of_le_mul (by rw [Nat.mul_comm n d]; exact Nat.mul_le_mul_left d h.le)
  rw [e]
  exact ⟨by exact_mod_cast hle, Int.natCast_nonneg _⟩

theorem rampValue_within (v0 v1 i n : Nat) : min v0 v1 ≤ rampValue v0 v1 i n ∧ rampValue v0 v1 i n ≤ max v0 v1 := by
  by_cases h : n ≤ i
  · rw [rampValue_last h]
    omega
  · rw [rampValue, if_neg h]
    have hi : i < n := Nat.lt_of_not_le h
    rcases Nat.le_total v0 v1 with hv | hv
    · obtain ⟨h1, h2⟩ := tdiv_within (d := v1 - v0) hi
      rw [Nat.cast_sub hv] at h1 h2
      generalize Int.tdiv (((v1 : Int) - v0) * i) n = x at *
      omega
    · obtain ⟨h1, h2⟩ := tdiv_within (d := v0 - v1) hi
      have e : Int.tdiv (((v1 : Int) - v0) * i) n = -Int.tdiv (((v0 - v1 : Nat) : Int) * i) n := by
        rw [← Int.neg_tdiv, Nat.cast_sub hv]
        congr 1
        ring
      rw [e]
      generalize Int.tdiv (((v0 - v1 : Nat) : Int) * i) n = x at *
      omega

theorem rampValue_lt {v0 v1 i n : Nat} (h0 : v0 < 65536) (h1 : v1 < 65536) : rampValue v0 v1 i n < 65536 := by
  have := (rampValue_within v0 v1 i n).2
  omega

/-- Of 64 periods, as many are a BRST longer as the value's low six bits say. -/
theorem longer_periods : ∀ m < 64, ((List.range 64).map fun j => if revBits 6 (j % 64) < m then 32 else 0).sum = 32 * m := by
  decide +kernel

theorem refHigh_sum (r : Nat) : ((List.range 64).map (refHigh r)).sum = 32 * r := by
  have h := longer_periods (r % 64) (Nat.mod_lt _ (by decide))
  have e : refHigh r = fun j => 32 * (r / 64) + (if revBits 6 (j % 64) < r % 64 then 32 else 0) := rfl
  rw [e, List.sum_map_add, h, List.map_const', List.sum_replicate, List.length_range, smul_eq_mul]
  omega

/-! ### One unit (R335) -/

section
variable (s : State)

@[simp] theorem hvUnit_setReg (a : Nat) (v : Word) (m : Nat) : (s.setReg a v).hvUnit m = s.hvUnit m := rfl
@[simp] theorem hvUnit_setF (a hi lo n m : Nat) : (s.setF a hi lo n).hvUnit m = s.hvUnit m := rfl
@[simp] theorem hvUnit_setB (a i : Nat) (b : Bool) (m : Nat) : (s.setB a i b).hvUnit m = s.hvUnit m := by
  rw [State.hvUnit, setB_hv, State.hvUnit]
@[simp] theorem hvUnit_modHv_self (n : Nat) (g : HvUnit → HvUnit) : (s.modHv n g).hvUnit n = g (s.hvUnit n) :=
  Tab.get_put_self _ _ _ _
theorem hvUnit_modHv_ne {n m : Nat} (h : m ≠ n) (g : HvUnit → HvUnit) : (s.modHv n g).hvUnit m = s.hvUnit m :=
  Tab.get_put_ne _ h _ _
@[simp] theorem hvValue_modHv (n m : Nat) (g : HvUnit → HvUnit) : (s.modHv n g).hvValue m = s.hvValue m := rfl

end

/-- What the ramp of unit n leaves as it is. -/
structure HvKept (n : Nat) (s v : State) : Prop where
  mem : v.mem = s.mem
  clk : v.clk = s.clk
  last : v.hv.last = s.hv.last
  reg : ∀ a, a ≠ Reg.HV_VALUE n → a ≠ Reg.HV_SENSE n → v.reg a = s.reg a
  unit : ∀ m, m ≠ n → v.hvUnit m = s.hvUnit m

theorem HvKept.value {n m : Nat} {s v : State} (h : HvKept n s v) (hm : m ≠ n) : v.hvValue m = s.hvValue m := by
  rw [State.hvValue, State.hvValue, State.f, State.f, h.reg _ (by simp only [Reg.HV_VALUE]; omega)
    (by simp only [Reg.HV_VALUE, Reg.HV_SENSE]; omega)]

theorem HvKept.safeActive {n : Nat} {s v : State} (h : HvKept n s v) : v.hvSafeActive = s.hvSafeActive := by
  rw [State.hvSafeActive, State.hvSafeActive, State.fb, State.fb, h.reg _ (by simp only [Reg.HV_VALUE, Reg.HV_STATUS]; omega)
    (by simp only [Reg.HV_STATUS, Reg.HV_SENSE]; omega)]

theorem HvKept.trans {n : Nat} {s v w : State} (h : HvKept n s v) (h' : HvKept n v w) : HvKept n s w :=
  ⟨h'.mem.trans h.mem, h'.clk.trans h.clk, h'.last.trans h.last, fun a h1 h2 => (h'.reg a h1 h2).trans (h.reg a h1 h2),
    fun m hm => (h'.unit m hm).trans (h.unit m hm)⟩

theorem hvKept_modHv (s : State) (n : Nat) (g : HvUnit → HvUnit) : HvKept n s (s.modHv n g) :=
  ⟨rfl, rfl, rfl, fun _ _ _ => rfl, fun _ hm => hvUnit_modHv_ne s hm g⟩

theorem hvKept_setB (s : State) (n i : Nat) (b : Bool) : HvKept n s (s.setB (Reg.HV_VALUE n) i b) :=
  ⟨setB_mem _ _ _ _, setB_clk _ _ _ _, by rw [setB_hv], fun _ h _ => reg_setB_ne s h _ _, fun _ _ => hvUnit_setB s _ _ _ _⟩

theorem hvKept_setHv (s : State) (n x : Nat) : HvKept n s (s.setHv n x) := by
  have h1 : HvKept n s (s.setF (Reg.HV_VALUE n) 15 0 x) :=
    ⟨rfl, rfl, rfl, fun _ h _ => reg_setF_ne s h _ _ _, fun _ _ => rfl⟩
  rw [State.setHv]
  split
  · exact ⟨rfl, rfl, rfl, fun _ _ _ => rfl, fun _ _ => rfl⟩
  · split
    · exact (h1.trans (hvKept_modHv _ n _)).trans ⟨rfl, rfl, rfl, fun _ _ h => reg_setF_ne _ h _ _ _, fun _ _ => rfl⟩
    · exact h1.trans (hvKept_modHv _ n _)

theorem hvValue_setHv (s : State) (n : Nat) {x : Nat} (h : x < 65536) : (s.setHv n x).hvValue n = x := by
  have hne : Reg.HV_VALUE n ≠ Reg.HV_SENSE n := by simp only [Reg.HV_VALUE, Reg.HV_SENSE]; omega
  have hv : ∀ g, ((s.setF (Reg.HV_VALUE n) 15 0 x).modHv n g).hvValue n = x := fun g => by
    rw [hvValue_modHv, State.hvValue, f_setF_self _ _ (by decide) (by decide)]
    exact Nat.mod_eq_of_lt h
  rw [State.setHv]
  split
  · assumption
  · split
    · rw [State.hvValue, f_setF_ne _ hne]
      exact hv _
    · exact hv _

/-- A change of the value alone notes its time. -/
theorem hvUnit_setHv (s : State) (n x : Nat) : ((s.setHv n x).hvUnit n).i = (s.hvUnit n).i := by
  rw [State.setHv]
  split
  · rfl
  · split
    · rw [hvUnit_setF, hvUnit_modHv_self, hvUnit_setF]
    · rw [hvUnit_modHv_self, hvUnit_setF]

section
variable {s : State} {n : Nat}

theorem rampStepHv_still (h : (s.hvUnit n).ramping = false) : s.rampStepHv n = s := by
  rw [State.rampStepHv]
  exact if_neg (by simp [h])

theorem rampStepHv_kept (s : State) (n : Nat) : HvKept n s (s.rampStepHv n) := by
  rw [State.rampStepHv]
  split
  · exact ((hvKept_setHv s n _).trans (hvKept_modHv _ n _)).trans (hvKept_setB _ n _ _)
  · exact ⟨rfl, rfl, rfl, fun _ _ _ => rfl, fun _ _ => rfl⟩

theorem rampStepHv_facts (h : (s.hvUnit n).ramping = true) (h0 : (s.hvUnit n).v0 < 65536) (h1 : (s.hvUnit n).v1 < 65536) :
    (s.rampStepHv n).hvValue n = rampValue (s.hvUnit n).v0 (s.hvUnit n).v1 ((s.hvUnit n).i + 1) (s.hvUnit n).n ∧
    ((s.rampStepHv n).hvUnit n).i = (s.hvUnit n).i + 1 ∧
    (((s.rampStepHv n).hvUnit n).ramping = true ↔ (s.hvUnit n).i + 1 < (s.hvUnit n).n) := by
  rw [State.rampStepHv]
  simp only [h, if_true]
  refine ⟨?_, ?_, ?_⟩
  · rw [State.hvValue, f_setB_field _ (by decide) (by decide)]
    exact hvValue_setHv s n (rampValue_lt h0 h1)
  · rw [hvUnit_setB, hvUnit_modHv_self, hvUnit_setHv]
  · rw [hvUnit_setB, hvUnit_modHv_self, decide_eq_true_eq]

/-- A ramp that begins from the value in force. -/
theorem startRamp_eq (s : State) (n v1 k : Nat) : s.startRamp n v1 k =
    if s.hv.last = some s.clk.tb then (((s.modHv n fun x =>
        { x with v0 := s.hvValue n, v1 := v1, n := k, i := 0, ramping := true }).setB (Reg.HV_VALUE n) 16 true).rampStepHv n)
    else (s.modHv n fun x =>
        { x with v0 := s.hvValue n, v1 := v1, n := k, i := 0, ramping := true }).setB (Reg.HV_VALUE n) 16 true := by
  rw [State.startRamp]
  simp only [setB_hv, setB_clk]
  rfl

theorem startRamp_kept (s : State) (n v1 k : Nat) : HvKept n s (s.startRamp n v1 k) := by
  have h := (hvKept_modHv s n fun x =>
    { x with v0 := s.hvValue n, v1 := v1, n := k, i := 0, ramping := true }).trans (hvKept_setB _ n 16 true)
  rw [startRamp_eq]
  split
  · exact h.trans (rampStepHv_kept _ n)
  · exact h

theorem startRamp_waits (h : s.hv.last ≠ some s.clk.tb) (v1 k : Nat) : (s.startRamp n v1 k).hvValue n = s.hvValue n ∧
    (s.startRamp n v1 k).fb (Reg.HV_VALUE n) 16 = true ∧
    (s.startRamp n v1 k).hvUnit n = { s.hvUnit n with v0 := s.hvValue n, v1 := v1, n := k, i := 0, ramping := true } := by
  rw [startRamp_eq, if_neg h]
  refine ⟨?_, fb_setB_self _ _ (by decide) _, ?_⟩
  · rw [State.hvValue, f_setB_field _ (by decide) (by decide)]
    rfl
  · rw [hvUnit_setB, hvUnit_modHv_self]

theorem startRamp_steps (h : s.hv.last = some s.clk.tb) {v1 k : Nat} (h1 : v1 < 65536) :
    (s.startRamp n v1 k).hvValue n = rampValue (s.hvValue n) v1 1 k ∧ ((s.startRamp n v1 k).hvUnit n).i = 1 ∧
    (((s.startRamp n v1 k).hvUnit n).ramping = true ↔ 1 < k) := by
  rw [startRamp_eq, if_pos h]
  generalize hw : (s.modHv n fun x => { x with v0 := s.hvValue n, v1 := v1, n := k, i := 0, ramping := true }).setB
    (Reg.HV_VALUE n) 16 true = w
  have hu : w.hvUnit n = { s.hvUnit n with v0 := s.hvValue n, v1 := v1, n := k, i := 0, ramping := true } := by
    rw [← hw, hvUnit_setB, hvUnit_modHv_self]
  obtain ⟨e1, e2, e3⟩ := rampStepHv_facts (s := w) (n := n) (by rw [hu]) (by rw [hu]; exact bits_lt _ _ _) (by rw [hu]; exact h1)
  rw [hu] at e1 e2 e3
  exact ⟨e1, e2, e3⟩

end

/-! ### All units at a boundary (R335) -/

/-- Unit m after a period boundary, seen from before it. -/
def HvStepped (u : State) (m : Nat) (v : State) : Prop :=
  ((u.hvUnit m).ramping = false → v.hvValue m = u.hvValue m ∧ (v.hvUnit m).ramping = false) ∧
  ((u.hvUnit m).ramping = true →
    v.hvValue m = rampValue (u.hvUnit m).v0 (u.hvUnit m).v1 ((u.hvUnit m).i + 1) (u.hvUnit m).n ∧
    (v.hvUnit m).i = (u.hvUnit m).i + 1 ∧ ((v.hvUnit m).ramping = true ↔ (u.hvUnit m).i + 1 < (u.hvUnit m).n))

theorem hvStepped_congr {u v w : State} {m : Nat} (h : HvStepped u m v) (hv : w.hvValue m = v.hvValue m)
    (hu : w.hvUnit m = v.hvUnit m) : HvStepped u m w := by
  rw [HvStepped, hv, hu]
  exact h

/-- The ramps of a list of units that names each of them once. -/
theorem rampAll_facts (u : State) (hb : ∀ m < 28, (u.hvUnit m).v0 < 65536 ∧ (u.hvUnit m).v1 < 65536) (l : List Nat)
    (hl : l.Nodup) (h28 : ∀ m ∈ l, m < 28) :
    let v := l.foldl State.rampStepHv u
    v.mem = u.mem ∧ v.clk = u.clk ∧ v.hvSafeActive = u.hvSafeActive ∧ (∀ m ∈ l, HvStepped u m v) ∧
    ∀ m, m ∉ l → v.hvUnit m = u.hvUnit m ∧ v.hvValue m = u.hvValue m := by
  induction l using List.reverseRecOn with
  | nil => exact ⟨rfl, rfl, rfl, fun m h => absurd h List.not_mem_nil, fun _ _ => ⟨rfl, rfl⟩⟩
  | append_singleton l n ih =>
    obtain ⟨hl', -, hd⟩ := List.nodup_append.1 hl
    have hn : n ∉ l := fun hn => hd n hn n List.mem_cons_self rfl
    obtain ⟨i1, i2, i3, i4, i5⟩ := ih hl' fun m hm => h28 m (by simp [hm])
    rw [List.foldl_append, List.foldl_cons, List.foldl_nil]
    generalize l.foldl State.rampStepHv u = v at *
    have hk := rampStepHv_kept v n
    obtain ⟨hun, hvn⟩ := i5 n hn
    refine ⟨hk.mem.trans i1, hk.clk.trans i2, hk.safeActive.trans i3, fun m hm => ?_, fun m hm => ?_⟩
    · by_cases hmn : m = n
      · subst hmn
        obtain ⟨b0, b1⟩ := hb m (h28 m hm)
        refine ⟨fun h => ?_, fun h => ?_⟩
        · rw [rampStepHv_still (by rw [hun, h])]
          exact ⟨hvn, by rw [hun, h]⟩
        · have := rampStepHv_facts (s := v) (n := m) (by rw [hun, h]) (by rw [hun]; exact b0) (by rw [hun]; exact b1)
          rw [hun] at this
          exact this
      · have hml : m ∈ l := by simpa [hmn] using hm
        exact hvStepped_congr (i4 m hml) (hk.value hmn) (hk.unit m hmn)
    · have hmn : m ≠ n := fun e => hm (by simp [e])
      obtain ⟨j1, j2⟩ := i5 m fun h => hm (by simp [h])
      exact ⟨(hk.unit m hmn).trans j1, (hk.value hmn).trans j2⟩

theorem checkStage_inactive {s : State} (h : s.hvSafeActive = false) : s.checkStage = s := if_neg (by simp [h])

/-! ### The edges (R334–R341) -/

section
variable {s : State} {t : Tick} {n : Fin 28} {w : Word}

theorem exec_hvOff (h : (s.at t).hvOn = false) : exec (.hvRampWrite t n w) s = .next (s.at t) ∧
    exec (.hvPeriod t) s = .next (s.at t) := by
  change execHvRampWrite t n w s = _ ∧ execHvPeriod t s = _
  rw [execHvRampWrite, execHvPeriod]
  generalize s.at t = u at *
  exact ⟨if_neg (by simp [h]), if_pos (by simp [h])⟩

theorem exec_hvRampWrite (h : (s.at t).hvOn = true) : exec (.hvRampWrite t n w) s = .next ((s.at t).hvRampWrite n w) := by
  change execHvRampWrite t n w s = _
  rw [execHvRampWrite]
  exact if_pos h

theorem hvRampWrite_safe {u : State} {m : Nat} (h : u.hvSafeActive = true) :
    u.hvRampWrite m w = u.setB Reg.HV_IRQ_STATUS 3 true := if_pos h

/-- The RAMP of the same boundary stands (R341). -/
theorem hvRampWrite_late {u : State} {m : Nat} (h : u.hvSafeActive = false) (h1 : (u.hvUnit m).ttAt = some u.clk.tb)
    (h2 : u.clk.tb % 32768 = 0) : u.hvRampWrite m w = u.setReg (Reg.HV_RAMP m) w := by
  rw [State.hvRampWrite, if_neg (by simp [h])]
  refine if_pos ?_
  rw [hvUnit_setReg, setReg_clk, h1, Bool.and_eq_true, decide_eq_true_eq, decide_eq_true_eq]
  exact ⟨rfl, h2⟩

theorem hvRampWrite_starts {u : State} {m : Nat} (h : u.hvSafeActive = false)
    (h1 : (u.hvUnit m).ttAt ≠ some u.clk.tb ∨ u.clk.tb % 32768 ≠ 0) :
    u.hvRampWrite m w = (u.setReg (Reg.HV_RAMP m) w).startRamp m (bits w 15 0) (bits w 31 16) := by
  rw [State.hvRampWrite, if_neg (by simp [h])]
  refine if_neg ?_
  rw [hvUnit_setReg, setReg_clk, Bool.and_eq_true, decide_eq_true_eq, decide_eq_true_eq]
  exact fun hc => h1.elim (fun h1 => h1 hc.1) (fun h1 => h1 hc.2)

theorem exec_hvPeriod_between (h : t % 32768 ≠ 0) : exec (.hvPeriod t) s = .next (s.at t) := by
  change execHvPeriod t s = _
  rw [execHvPeriod]
  exact if_pos (by simp [hvPeriod, h])

/-- The words of the windows that a period boundary brings in force. -/
def State.hvApplied (s : State) : State := (List.range 24).foldl (fun s u => s.applyAll [Reg.HV_WIN u, Reg.HV_SGAIN u]) s

/-- The boundary that the ramps have seen. -/
def State.hvLast (s : State) (x : Option Tick) : State := { s with hv := { s.hv with last := x } }

/-- The state whose ramps a period boundary takes on. -/
def State.hvBoundary (s : State) : State := s.hvApplied.hvLast none

theorem hvApplied_kept (s : State) : s.hvApplied.regs = s.regs ∧ s.hvApplied.clk = s.clk ∧ s.hvApplied.hv = s.hv ∧
    s.hvApplied.mem = s.mem := by
  rw [State.hvApplied]
  refine foldl_invariant (P := fun v : State => v.regs = s.regs ∧ v.clk = s.clk ∧ v.hv = s.hv ∧ v.mem = s.mem)
    (fun v u _ h => ?_) ⟨rfl, rfl, rfl, rfl⟩
  obtain ⟨h1, h2, h3, h4⟩ := h
  obtain ⟨e1, e2, e3, e4⟩ := applyAll_kept v [Reg.HV_WIN u, Reg.HV_SGAIN u]
  exact ⟨e1.trans h1, e2.trans h2, e3.trans h3, e4.trans h4⟩

theorem hvLast_kept (s : State) (x : Option Tick) : (s.hvLast x).mem = s.mem ∧ (s.hvLast x).clk = s.clk ∧
    (s.hvLast x).regs = s.regs ∧ ∀ m, (s.hvLast x).hvUnit m = s.hvUnit m := ⟨rfl, rfl, rfl, fun _ => rfl⟩

theorem hvBoundary_kept (s : State) : s.hvBoundary.mem = s.mem ∧ s.hvBoundary.clk = s.clk ∧ s.hvBoundary.regs = s.regs ∧
    ∀ m, s.hvBoundary.hvUnit m = s.hvUnit m := by
  obtain ⟨h1, h2, h3, h4⟩ := hvApplied_kept s
  obtain ⟨k1, k2, k3, k4⟩ := hvLast_kept s.hvApplied none
  exact ⟨k1.trans h4, k2.trans h2, k3.trans h1, fun m => (k4 m).trans (by rw [State.hvUnit, h3, State.hvUnit])⟩

theorem exec_hvPeriod_boundary (hon : (s.at t).hvOn = true) (h : t % 32768 = 0) (hsafe : (s.at t).hvSafeActive = false) :
    exec (.hvPeriod t) s = .next (((List.range 28).foldl State.rampStepHv (s.at t).hvBoundary).hvLast
      (some ((List.range 28).foldl State.rampStepHv (s.at t).hvBoundary).clk.tb)).checkStage := by
  change execHvPeriod t s = _
  rw [execHvPeriod]
  generalize s.at t = u at *
  have hs : u.hvBoundary.hvSafeActive = false := by
    rw [← hsafe, State.hvSafeActive, State.hvSafeActive]
    exact fb_of_regs (hvBoundary_kept u).2.2.1 _ _
  refine (if_neg (by simp [hon, hvPeriod, h])).trans ?_
  rw [State.hvBoundary] at hs ⊢
  rw [← State.hvApplied]
  generalize u.hvApplied = v at *
  generalize List.range 28 = l
  change Host.Outcome.next (State.checkStage (State.hvLast (l.foldl State.rampStepHv
    (if (v.hvLast none).hvSafeActive && (v.hvLast none).hv.ended then _ else v.hvLast none)) (some (State.clk (l.foldl
      State.rampStepHv (if (v.hvLast none).hvSafeActive && (v.hvLast none).hv.ended then _ else v.hvLast none))).tb))) = _
  rw [if_neg (by simp [hs])]

theorem hvPeriod_facts (hon : (s.at t).hvOn = true) (h : t % 32768 = 0) (hsafe : (s.at t).hvSafeActive = false)
    (hb : ∀ m < 28, ((s.at t).hvUnit m).v0 < 65536 ∧ ((s.at t).hvUnit m).v1 < 65536) :
    ∃ v : State, exec (.hvPeriod t) s = .next v ∧ v.mem = (s.at t).mem ∧ v.hv.last = some (s.at t).clk.tb ∧
      ∀ m < 28, HvStepped (s.at t) m v := by
  have hx := exec_hvPeriod_boundary hon h hsafe
  rw [hx]
  clear hx
  generalize s.at t = u at *
  obtain ⟨k1, k2, k3, k4⟩ := hvBoundary_kept u
  have hval : ∀ m, u.hvBoundary.hvValue m = u.hvValue m := fun m => f_of_regs k3 _ _ _
  have hact : u.hvBoundary.hvSafeActive = false := by
    rw [← hsafe, State.hvSafeActive, State.hvSafeActive]
    exact fb_of_regs k3 _ _
  obtain ⟨i1, i2, i3, i4, -⟩ := rampAll_facts u.hvBoundary (by simpa only [k4] using hb) (List.range 28) List.nodup_range
    fun m hm => List.mem_range.1 hm
  generalize (List.range 28).foldl State.rampStepHv u.hvBoundary = v at *
  refine ⟨_, congrArg Host.Outcome.next (checkStage_inactive (i3.trans hact)), i1.trans k1, ?_, fun m hm => ?_⟩
  · rw [State.hvLast, i2, k2]
  · have := i4 m (List.mem_range.2 hm)
    rw [HvStepped, k4, hval] at this
    exact this

end

/-! ### RAMP (R336, R340) -/

section
variable {s : State} {t : Tick} {k : Fin 128} {i : Nat} {a : Armed}
  (h : (s.at t).CanTake k i (fun a => isCmd 0x10 1 a && a.unit ≤ 27 && (s.at t).hvOn) a)
include h

theorem exec_ramp_run : exec (.ramp t k i) s =
    if ((s.at t).markExecuted k i).mode == .safe then
      .next ((((s.at t).markExecuted k i).incSat Reg.HV_CNT 31 16).report k i ((s.at t).markExecuted k i).clk.tb)
    else if ((s.at t).markExecuted k i).hvSafeActive then .next ((s.at t).markExecuted k i)
    else .next (((((s.at t).markExecuted k i).report k i ((s.at t).markExecuted k i).clk.tb).startRamp a.act.unit
        (nbits a.act.param 15 0) (nbits a.act.param 31 16)).modHv a.act.unit fun x =>
      { x with ttAt := some ((((s.at t).markExecuted k i).report k i ((s.at t).markExecuted k i).clk.tb).startRamp a.act.unit
        (nbits a.act.param 15 0) (nbits a.act.param 31 16)).clk.tb }) := by
  change execRamp t k i s = _
  rw [execRamp]
  generalize s.at t = u at *
  simp only [take_run h]

end

/-! ### Samples and windows (R333, R338) -/

section
variable {s : State} {t : Tick} {n : Fin 64} {code : BitVec 12}

def FusZone.added (z : FusZone) (code : Nat) : FusZone := { z with sum := z.sum + code, cnt := z.cnt + 1 }

/-- A sample of channels 24–31 adds to the sum of its fuser zone (R333). -/
def State.fusAdd (s : State) (z code : Nat) : State :=
  { s with fus := { s.fus with zone := Tab.put {} s.fus.zone z ((s.fusZone z).added code) } }

theorem exec_adcResult : exec (.adcResult t n code) s =
    if (s.at t).hvOn = false ∨ (t - 3200) % 51200 ≠ 3200 * (n.val % 16) then .next (s.at t)
    else
      let seen := (s.at t).setReg (Reg.SNS_AN n) (BitVec.ofNat 32 (code.toNat + 65536 * ((t - 3200) / 51200 % 65536)))
      if n.val < 24 then .next (seen.hvSample n code.toNat (t - 3200))
      else if n.val < 32 then
        if t - 3200 < seen.fus.lastTc then .next seen
        else .next (seen.fusAdd (n.val - 24) code.toNat)
      else .next seen := by
  change execAdcResult t n code s = _
  rw [execAdcResult]
  generalize s.at t = u at *
  simp only [Bool.or_eq_true, Bool.not_eq_true', decide_eq_true_eq]
  rfl

end

theorem hvSample_eq (s : State) {r code ts : Nat} (hw : s.af (Reg.HV_WIN r) 16 16 = 1) (hc : (s.hvUnit r).chg = []) :
    s.hvSample r code ts =
      (let y := s.setF (Reg.HV_SENSE r) 11 0 code
       if ((code : Int) - toSigned 16 (s.af (Reg.HV_SGAIN r) 31 16)).natAbs ≤ s.af (Reg.HV_WIN r) 11 0 then
         y.setF (Reg.HV_SENSE r) 15 12 0
       else if s.af (Reg.HV_WIN r) 15 12 ≤ s.f (Reg.HV_SENSE r) 15 12 + 1 then
         (y.setF (Reg.HV_SENSE r) 15 12 0).hvViolation r ts
       else y.setF (Reg.HV_SENSE r) 15 12 (s.f (Reg.HV_SENSE r) 15 12 + 1)).checkStage := by
  have h1 : ∀ hi lo, (s.setF (Reg.HV_SENSE r) 11 0 code).af (Reg.HV_WIN r) hi lo = s.af (Reg.HV_WIN r) hi lo := fun hi lo => by
    rw [State.af, applied_setF_ne _ (by simp only [Reg.HV_WIN, Reg.HV_SENSE]; omega), State.af]
  have h2 : ∀ hi lo, (s.setF (Reg.HV_SENSE r) 11 0 code).af (Reg.HV_SGAIN r) hi lo = s.af (Reg.HV_SGAIN r) hi lo :=
    fun hi lo => by rw [State.af, applied_setF_ne _ (by simp only [Reg.HV_SGAIN, Reg.HV_SENSE]; omega), State.af]
  have h3 : ((s.setF (Reg.HV_SENSE r) 11 0 code).hvUnit r).valueAt ts = (0, none) := by
    rw [hvUnit_setF, HvUnit.valueAt, hc]
    rfl
  have h4 : (s.setF (Reg.HV_SENSE r) 11 0 code).f (Reg.HV_SENSE r) 15 12 = s.f (Reg.HV_SENSE r) 15 12 :=
    f_setF_field _ _ (by decide) (by decide) (by decide) _
  rw [State.hvSample]
  simp only [h1, h2, h3, h4, hw, decide_true, Bool.and_self, if_true, Nat.zero_mul, Nat.zero_div, Nat.cast_zero, zero_add]

theorem hvSample_within {s : State} {r code ts : Nat} (hw : s.af (Reg.HV_WIN r) 16 16 = 1) (hc : (s.hvUnit r).chg = [])
    (hs : s.hvSafeActive = false) (hcode : code < 4096)
    (h : ((code : Int) - toSigned 16 (s.af (Reg.HV_SGAIN r) 31 16)).natAbs ≤ s.af (Reg.HV_WIN r) 11 0 ∨
      s.f (Reg.HV_SENSE r) 15 12 + 1 < s.af (Reg.HV_WIN r) 15 12) :
    (s.hvSample r code ts).f (Reg.HV_SENSE r) 11 0 = code ∧ (s.hvSample r code ts).mem = s.mem ∧
    (s.hvSample r code ts).hv = s.hv ∧ (s.hvSample r code ts).f (Reg.HV_SENSE r) 15 12 =
      if ((code : Int) - toSigned 16 (s.af (Reg.HV_SGAIN r) 31 16)).natAbs ≤ s.af (Reg.HV_WIN r) 11 0 then 0
      else s.f (Reg.HV_SENSE r) 15 12 + 1 := by
  have hsafe : ∀ m, ((s.setF (Reg.HV_SENSE r) 11 0 code).setF (Reg.HV_SENSE r) 15 12 m).hvSafeActive = false := fun m => by
    have hne : Reg.HV_STATUS ≠ Reg.HV_SENSE r := by simp only [Reg.HV_STATUS, Reg.HV_SENSE]; omega
    rw [State.hvSafeActive, fb_setF_ne _ hne, fb_setF_ne _ hne]
    exact hs
  have hval : ∀ m, ((s.setF (Reg.HV_SENSE r) 11 0 code).setF (Reg.HV_SENSE r) 15 12 m).f (Reg.HV_SENSE r) 11 0 = code :=
    fun m => by
      rw [f_setF_field _ _ (by decide) (by decide) (by decide), f_setF_self _ _ (by decide) (by decide)]
      exact Nat.mod_eq_of_lt hcode
  have hlim : s.af (Reg.HV_WIN r) 15 12 < 16 := bits_lt _ _ _
  rw [hvSample_eq s hw hc]
  by_cases hin : ((code : Int) - toSigned 16 (s.af (Reg.HV_SGAIN r) 31 16)).natAbs ≤ s.af (Reg.HV_WIN r) 11 0
  · simp only [if_pos hin, checkStage_inactive (hsafe 0)]
    exact ⟨hval 0, rfl, rfl, f_setF_self _ _ (by decide) (by decide) _⟩
  · have hrun : s.f (Reg.HV_SENSE r) 15 12 + 1 < s.af (Reg.HV_WIN r) 15 12 := h.resolve_left hin
    simp only [if_neg hin, if_neg (Nat.not_le.mpr hrun), checkStage_inactive (hsafe _)]
    refine ⟨hval _, rfl, rfl, ?_⟩
    rw [f_setF_self _ _ (by decide) (by decide)]
    exact Nat.mod_eq_of_lt (hrun.trans hlim)

theorem hvSample_violates {s : State} {r code ts : Nat} (hw : s.af (Reg.HV_WIN r) 16 16 = 1) (hc : (s.hvUnit r).chg = [])
    (h1 : s.af (Reg.HV_WIN r) 11 0 < ((code : Int) - toSigned 16 (s.af (Reg.HV_SGAIN r) 31 16)).natAbs)
    (h2 : s.af (Reg.HV_WIN r) 15 12 ≤ s.f (Reg.HV_SENSE r) 15 12 + 1) :
    s.hvSample r code ts =
      (((s.setF (Reg.HV_SENSE r) 11 0 code).setF (Reg.HV_SENSE r) 15 12 0).hvViolation r ts).checkStage := by
  rw [hvSample_eq s hw hc]
  simp only [if_neg (Nat.not_le.mpr h1), if_pos h2]

/-! ### Generators (R337) -/

section
variable (s : State) (j g : Nat)

theorem hvAc_modAc_self (h : HvAc → HvAc) : (s.modAc g h).hvAc g = h (s.hvAc g) := Tab.get_put_self _ _ _ _
theorem hvAc_modAc_ne {d : Nat} (hd : d ≠ g) (h : HvAc → HvAc) : (s.modAc g h).hvAc d = s.hvAc d := Tab.get_put_ne _ hd _ _

/-- The phase that an update of generator g comes to, before it wraps. -/
def State.acPhase : Nat := (s.hvAc g).phase + s.af (Reg.HV_AC_INC (24 + g)) 31 0

/-- What an update of generator g leaves as it is. -/
structure AcKept (g : Nat) (s v : State) : Prop where
  mem : v.mem = s.mem
  reg : ∀ a, a ≠ Reg.HV_STATUS → v.reg a = s.reg a
  applied : ∀ a, a ≠ Reg.HV_STATUS → a ≠ Reg.HV_AC_INC (24 + g) → v.applied a = s.applied a
  ac : ∀ d, d ≠ g → v.hvAc d = s.hvAc d

/-- The first part of an update: the phase has wrapped. -/
def State.acWrap : State := (s.applyS (Reg.HV_AC_INC (24 + g))).setF Reg.HV_STATUS 6 4 s.thmBand

theorem applyS_hv_mem (a : Nat) : (s.applyS a).hv = s.hv ∧ (s.applyS a).mem = s.mem := by
  rw [State.applyS]
  split
  · split <;> exact ⟨rfl, rfl⟩
  · exact ⟨rfl, rfl⟩

theorem acWrap_kept : AcKept g s (s.acWrap g) ∧ (s.acWrap g).hvAc g = s.hvAc g ∧
    (s.acWrap g).f Reg.HV_STATUS 6 4 = s.thmBand := by
  obtain ⟨h1, h2⟩ := applyS_hv_mem s (Reg.HV_AC_INC (24 + g))
  have hac : ∀ d, (s.acWrap g).hvAc d = s.hvAc d := fun d => by
    change Tab.get {} (s.applyS (Reg.HV_AC_INC (24 + g))).hv.ac d = _
    rw [h1, State.hvAc]
  refine ⟨⟨h2, fun a ha => ?_, fun a ha hi => ?_, fun d _ => hac d⟩, hac g, ?_⟩
  · rw [State.acWrap, reg_setF_ne _ ha, reg_applyS]
  · rw [State.acWrap, applied_setF_ne _ ha, applied_applyS_ne _ hi]
  · rw [State.acWrap, f_setF_self _ _ (by decide) (by decide)]
    exact Nat.mod_eq_of_lt (bits_lt _ _ _)

theorem AcKept.band {g : Nat} {s v : State} (h : AcKept g s v) : v.thmBand = s.thmBand := by
  rw [State.thmBand, State.thmBand, State.f, State.f, h.reg _ (by decide)]

theorem acUpdate_facts : AcKept g s (s.acUpdate j g) ∧ ((s.acUpdate j g).hvAc g).phase = s.acPhase g % 2 ^ 32 ∧
    ((s.acUpdate j g).hvAc g).band = (if 2 ^ 32 ≤ s.acPhase g then s.thmBand else (s.hvAc g).band) ∧
    (s.acUpdate j g).f Reg.HV_STATUS 6 4 = if 2 ^ 32 ≤ s.acPhase g then s.thmBand else s.f Reg.HV_STATUS 6 4 := by
  have hmod : ∀ (v : State) (x : HvAc), AcKept g s v → AcKept g s (v.modAc g fun _ => x) := fun v x h =>
    ⟨h.mem, h.reg, h.applied, fun d hd => (hvAc_modAc_ne v g hd _).trans (h.ac d hd)⟩
  obtain ⟨k1, k2, k3⟩ := acWrap_kept s g
  rw [State.acUpdate]
  by_cases hw : 2 ^ 32 ≤ s.acPhase g
  · have hb := AcKept.band k1
    rw [State.acPhase] at hw ⊢
    rw [State.acWrap] at k1 k3 hb
    simp only [if_pos hw]
    refine ⟨hmod _ _ k1, ?_, ?_, k3⟩
    · rw [hvAc_modAc_self]
    · rw [hvAc_modAc_self]
      exact hb
  · rw [State.acPhase] at hw ⊢
    simp only [if_neg hw]
    refine ⟨hmod _ _ ⟨rfl, fun _ _ => rfl, fun _ _ _ => rfl, fun _ _ => rfl⟩, ?_, ?_, rfl⟩
    · rw [hvAc_modAc_self]
    · rw [hvAc_modAc_self]

theorem AcKept.phase {g d : Nat} {s v : State} (h : AcKept g s v) (hd : d ≠ g) : v.acPhase d = s.acPhase d := by
  rw [State.acPhase, State.acPhase, h.ac d hd, State.af, State.af, h.applied]
  · simp only [Reg.HV_AC_INC, Reg.HV_STATUS]; omega
  · simp only [Reg.HV_AC_INC]; omega

/-- The generators of a list that names each of them once. -/
theorem acAll_facts (u : State) (j : Nat) (l : List Nat) (hl : l.Nodup) :
    let v := l.foldl (fun s g => s.acUpdate j g) u
    v.mem = u.mem ∧ v.thmBand = u.thmBand ∧
    (∀ g ∈ l, (v.hvAc g).phase = u.acPhase g % 2 ^ 32 ∧
      (v.hvAc g).band = (if 2 ^ 32 ≤ u.acPhase g then u.thmBand else (u.hvAc g).band) ∧
      (2 ^ 32 ≤ u.acPhase g → v.f Reg.HV_STATUS 6 4 = u.thmBand)) ∧
    ∀ g, g ∉ l → v.hvAc g = u.hvAc g ∧ v.acPhase g = u.acPhase g := by
  induction l using List.reverseRecOn with
  | nil => exact ⟨rfl, rfl, fun g h => absurd h List.not_mem_nil, fun _ _ => ⟨rfl, rfl⟩⟩
  | append_singleton l n ih =>
    obtain ⟨hl', -, hd⟩ := List.nodup_append.1 hl
    have hn : n ∉ l := fun hn => hd n hn n List.mem_cons_self rfl
    obtain ⟨i1, i2, i3, i4⟩ := ih hl'
    rw [List.foldl_append, List.foldl_cons, List.foldl_nil]
    generalize l.foldl (fun s g => s.acUpdate j g) u = v at *
    obtain ⟨hk, p1, p2, p3⟩ := acUpdate_facts v j n
    obtain ⟨q1, q2⟩ := i4 n hn
    rw [q2] at p1 p2 p3
    rw [i2] at p2 p3
    rw [q1] at p2
    refine ⟨hk.mem.trans i1, hk.band.trans i2, fun g hg => ?_, fun g hg => ?_⟩
    · by_cases hgn : g = n
      · subst hgn
        exact ⟨p1, p2, fun hw => p3.trans (if_pos hw)⟩
      · obtain ⟨x1, x2, x3⟩ := i3 g (by simpa [hgn] using hg)
        rw [hk.ac g hgn]
        refine ⟨x1, x2, fun hw => p3.trans ?_⟩
        split
        · rfl
        · exact x3 hw
    · have hgn : g ≠ n := fun e => hg (by simp [e])
      obtain ⟨x1, x2⟩ := i4 g fun h => hg (by simp [h])
      exact ⟨(hk.ac g hgn).trans x1, (hk.phase hgn).trans x2⟩

end

/-! ### SAFE stages (R340) -/

section
variable {s : State} {t : Tick}

theorem exec_acUpdate : exec (.acUpdate t) s = if (s.at t).hvOn = true ∧ t % 8192 = 0 then
      .next ((List.range 4).foldl (fun s g => s.acUpdate (t / 8192) g) (s.at t)) else .next (s.at t) := by
  change execAcUpdate t s = _
  rw [execAcUpdate]
  simp only [Bool.and_eq_true, decide_eq_true_eq]

theorem exec_safeStageTimeout : exec (.safeStageTimeout t) s =
    if (s.at t).hvOn = true ∧ (s.at t).hvSafeActive = true ∧ (s.at t).hv.ended = false ∧
        (s.at t).hv.stageAt + max 1 ((s.at t).f Reg.HV_SAFE_CFG 15 0) * 6400000 ≤ (s.at t).clk.tb then
      .next (((s.at t).setB Reg.HV_IRQ_STATUS 1 true).raise srcHV 1).endStage else .next (s.at t) := by
  change execSafeStageTimeout t s = _
  rw [execSafeStageTimeout]
  simp only [Bool.and_eq_true, Bool.not_eq_true', decide_eq_true_eq, and_assoc]
  rfl

end

theorem endStage_last {s : State} (h : s.f Reg.HV_STATUS 2 0 = 7) : s.endStage =
    ((s.setB Reg.HV_STATUS 3 false).setF Reg.HV_STATUS 2 0 0).setB Reg.HV_IRQ_STATUS 2 true := if_pos h

theorem endStage_goes {s : State} (h : s.f Reg.HV_STATUS 2 0 ≠ 7) : s.endStage = { s with hv := { s.hv with ended := true } } :=
  if_neg h

theorem stageTimeout_facts (u : State) (hact : u.hvSafeActive = true) :
    let v := ((u.setB Reg.HV_IRQ_STATUS 1 true).raise srcHV 1).endStage
    v.fb Reg.HV_IRQ_STATUS 1 = true ∧ v.mem = u.mem ∧
    v.sbx.raised = u.sbx.raised ++ [{ src := srcHV, ev := 1, ts := u.now }] ∧
    (u.f Reg.HV_STATUS 2 0 = 7 → v.hvSafeActive = false ∧ v.f Reg.HV_STATUS 2 0 = 0 ∧ v.fb Reg.HV_IRQ_STATUS 2 = true) ∧
    (u.f Reg.HV_STATUS 2 0 ≠ 7 → v.hvSafeActive = true ∧ v.hv.ended = true) := by
  have hb : (u.setB Reg.HV_IRQ_STATUS 1 true).fb Reg.HV_IRQ_STATUS 1 = true := fb_setB_self _ _ (by decide) _
  have hf : (u.setB Reg.HV_IRQ_STATUS 1 true).f Reg.HV_STATUS 2 0 = u.f Reg.HV_STATUS 2 0 := f_setB_ne _ (by decide) _ _ _ _
  have ha : (u.setB Reg.HV_IRQ_STATUS 1 true).hvSafeActive = true := by
    rw [State.hvSafeActive, fb_setB_ne _ (by decide)]
    exact hact
  have hm : (u.setB Reg.HV_IRQ_STATUS 1 true).mem = u.mem := setB_mem _ _ _ _
  have hr : ((u.setB Reg.HV_IRQ_STATUS 1 true).raise srcHV 1).sbx.raised =
      u.sbx.raised ++ [{ src := srcHV, ev := 1, ts := u.now }] := by
    rw [raised_raise, setB_sbx, State.now, setB_clk, State.now]
  generalize u.setB Reg.HV_IRQ_STATUS 1 true = w at *
  have hb' : (w.raise srcHV 1).fb Reg.HV_IRQ_STATUS 1 = true := hb
  have hf' : (w.raise srcHV 1).f Reg.HV_STATUS 2 0 = u.f Reg.HV_STATUS 2 0 := hf
  have ha' : (w.raise srcHV 1).hvSafeActive = true := ha
  have hm' : (w.raise srcHV 1).mem = u.mem := hm
  generalize w.raise srcHV 1 = x at *
  by_cases h7 : u.f Reg.HV_STATUS 2 0 = 7
  · rw [endStage_last (hf'.trans h7)]
    refine ⟨?_, ?_, ?_, fun _ => ⟨?_, ?_, fb_setB_self _ _ (by decide) _⟩, fun h => absurd h7 h⟩
    · rw [fb_setB_bit _ (by decide) (by decide), fb_setF_ne _ (by decide), fb_setB_ne _ (by decide)]
      exact hb'
    · rw [setB_mem, setF_mem, setB_mem, hm']
    · rw [setB_sbx, setF_sbx, setB_sbx, hr]
    · rw [State.hvSafeActive, fb_setB_ne _ (by decide), fb_setF_field _ (by decide) (by decide) (by decide)]
      exact fb_setB_self _ _ (by decide) _
    · rw [f_setB_ne _ (by decide), f_setF_self _ _ (by decide) (by decide), Nat.zero_mod]
  · rw [endStage_goes (fun h => h7 (hf'.symm.trans h))]
    exact ⟨hb', hm', hr, fun h => absurd h h7, fun _ => ⟨ha', rfl⟩⟩

/-- A sample that is shown touches no register of HV (R333). -/
theorem seen_facts (u : State) {n : Nat} (hn : n < 24) (x : Word) :
    (u.setReg (Reg.SNS_AN n) x).hvSafeActive = u.hvSafeActive ∧
    (∀ hi lo, (u.setReg (Reg.SNS_AN n) x).af (Reg.HV_WIN n) hi lo = u.af (Reg.HV_WIN n) hi lo) ∧
    (∀ hi lo, (u.setReg (Reg.SNS_AN n) x).af (Reg.HV_SGAIN n) hi lo = u.af (Reg.HV_SGAIN n) hi lo) ∧
    (u.setReg (Reg.SNS_AN n) x).f (Reg.HV_SENSE n) 15 12 = u.f (Reg.HV_SENSE n) 15 12 := by
  refine ⟨fb_setReg_ne _ ?_ _ _, fun hi lo => ?_, fun hi lo => ?_, f_setReg_ne _ ?_ _ _ _⟩
  · simp only [Reg.HV_STATUS, Reg.SNS_AN]; omega
  · rw [State.af, applied_setReg_ne _ (by simp only [Reg.HV_WIN, Reg.SNS_AN]; omega), State.af]
  · rw [State.af, applied_setReg_ne _ (by simp only [Reg.HV_SGAIN, Reg.SNS_AN]; omega), State.af]
  · simp only [Reg.HV_SENSE, Reg.SNS_AN]; omega

theorem adcResult_facts {s : State} {t : Tick} {n : Fin 64} {code : BitVec 12} (hon : (s.at t).hvOn = true)
    (hts : (t - 3200) % 51200 = 3200 * (n.val % 16)) :
    let u := s.at t
    let ts := t - 3200
    let seen := u.setReg (Reg.SNS_AN n) (BitVec.ofNat 32 (code.toNat + 65536 * (ts / 51200 % 65536)))
    (n.val < 24 → exec (.adcResult t n code) s = .next (seen.hvSample n code.toNat ts)) ∧
    (32 ≤ n.val → exec (.adcResult t n code) s = .next seen) ∧
    (24 ≤ n.val → n.val < 32 → ts < u.fus.lastTc → exec (.adcResult t n code) s = .next seen) ∧
    (24 ≤ n.val → n.val < 32 → u.fus.lastTc ≤ ts →
      exec (.adcResult t n code) s = .next (seen.fusAdd (n.val - 24) code.toNat)) := by
  have hx := exec_adcResult (s := s) (t := t) (n := n) (code := code)
  rw [if_neg (by simp [hon, hts])] at hx
  dsimp only at hx ⊢
  rw [hx]
  clear hx
  generalize s.at t = u at *
  refine ⟨fun h => if_pos h, fun h => ?_, fun h h' hlt => ?_, fun h h' hle => ?_⟩
  · rw [if_neg (by omega), if_neg (by omega)]
  · rw [if_neg (by omega), if_pos h']
    exact if_pos hlt
  · rw [if_neg (by omega), if_pos h']
    exact if_neg (Nat.not_lt.mpr hle)

/-- Settles O42: a ramp by the steps of its unit, a boundary by the units one after another, and samples, generators and
stages by the case each edge finds. -/
theorem highVoltage : Obligations.HighVoltage := by
  refine ⟨⟨fun s t n w => ?_, fun s t k i a h => ?_, fun v0 v1 n => ⟨rampValue_first, fun i => ⟨rampValue_last, ?_⟩⟩,
    refHigh_sum, fun s r hon => ?_⟩, fun s t n code => ?_, fun s t => ?_⟩
  · refine ⟨exec_hvOff, fun hon hsafe => ?_, fun hon hsafe h1 h2 => ?_, fun hon hsafe h1 => ?_,
      fun _ => exec_hvPeriod_between, fun hon hsafe ht hb => ?_⟩
    · rw [exec_hvRampWrite hon, hvRampWrite_safe hsafe]
    · rw [exec_hvRampWrite hon, hvRampWrite_late hsafe h1 h2]
    · refine ⟨_, exec_hvRampWrite hon, ?_⟩
      rw [hvRampWrite_starts hsafe h1]
      generalize s.at t = u at *
      have hk := startRamp_kept (u.setReg (Reg.HV_RAMP n) w) n (bits w 15 0) (bits w 31 16)
      have hv0 : (u.setReg (Reg.HV_RAMP n) w).hvValue n = u.hvValue n :=
        f_setReg_ne _ (by simp only [Reg.HV_VALUE, Reg.HV_RAMP]; omega) _ _ _
      refine ⟨?_, hk.mem, fun m hm => hk.unit m hm, fun hl => ?_, fun hl => ?_⟩
      · rw [hk.reg, reg_setReg_self]
        · simp only [Reg.HV_RAMP, Reg.HV_VALUE]; omega
        · simp only [Reg.HV_RAMP, Reg.HV_SENSE]; omega
      · obtain ⟨e1, e2, e3⟩ := startRamp_waits (s := u.setReg (Reg.HV_RAMP n) w) (n := n) hl (bits w 15 0) (bits w 31 16)
        rw [hv0] at e1 e3
        exact ⟨e1, e2, e3⟩
      · obtain ⟨e1, e2, e3⟩ := startRamp_steps (s := u.setReg (Reg.HV_RAMP n) w) (n := n) (k := bits w 31 16) hl
          (bits_lt w 15 0)
        rw [hv0] at e1
        exact ⟨e1, e2, e3⟩
    · exact hvPeriod_facts hon ht hsafe hb
  · have hx := exec_ramp_run h
    dsimp only
    rw [hx]
    generalize (s.at t).markExecuted k i = x at *
    refine ⟨fun hm => ?_, fun hm hs => ?_, fun hm hs => ?_⟩
    · rw [hm]
      rfl
    · rw [if_neg (by simpa using hm), if_pos hs]
    · rw [if_neg (by simpa using hm), if_neg (by simp [hs])]
  · exact rampValue_within v0 v1 i n
  · exact if_pos hon
  · refine ⟨fun h => ?_, fun hon hts => ?_⟩
    · rw [exec_adcResult, if_pos h]
    · obtain ⟨x1, x2, x3, x4⟩ := adcResult_facts (code := code) hon hts
      dsimp only at x1 x2 x3 x4 ⊢
      refine ⟨x2, x3, fun h h' hle => ⟨_, x4 h h' hle, rfl, rfl, Tab.get_put_self _ _ _ _⟩, fun h hsafe hw hc => ?_⟩
      rw [x1 h]
      clear x1 x2 x3 x4
      obtain ⟨e1, e2, e3, e4⟩ := seen_facts (s.at t) h
        (BitVec.ofNat 32 (code.toNat + 65536 * ((t - 3200) / 51200 % 65536)))
      generalize s.at t = u at *
      have hc' : ((u.setReg (Reg.SNS_AN n) (BitVec.ofNat 32 (code.toNat + 65536 * ((t - 3200) / 51200 % 65536)))).hvUnit
        n).chg = [] := hc
      have hm : (u.setReg (Reg.SNS_AN n) (BitVec.ofNat 32 (code.toNat + 65536 * ((t - 3200) / 51200 % 65536)))).mem = u.mem :=
        rfl
      have hv : (u.setReg (Reg.SNS_AN n) (BitVec.ofNat 32 (code.toNat + 65536 * ((t - 3200) / 51200 % 65536)))).hv = u.hv :=
        rfl
      generalize u.setReg (Reg.SNS_AN n) (BitVec.ofNat 32 (code.toNat + 65536 * ((t - 3200) / 51200 % 65536))) = seen at *
      rw [← e2, ← e2, ← e3, ← e4]
      rw [← e2] at hw
      refine ⟨fun hin => ?_, fun hout hrun => ?_⟩
      · obtain ⟨f1, f2, f3, f4⟩ := hvSample_within (ts := t - 3200) hw hc' (e1.trans hsafe) code.isLt hin
        exact ⟨_, rfl, f1, f2.trans hm, f3.trans hv, f4⟩
      · refine ⟨_, congrArg Host.Outcome.next (hvSample_violates hw hc' hout hrun), ?_, ?_, hm⟩
        · rw [f_setF_field _ _ (by decide) (by decide) (by decide), f_setF_self _ _ (by decide) (by decide)]
          exact Nat.mod_eq_of_lt code.isLt
        · rw [f_setF_self _ _ (by decide) (by decide), Nat.zero_mod]
  · refine ⟨fun h => ?_, fun hon h => ?_, fun h => ?_, fun h => ?_⟩
    · rw [exec_acUpdate, if_neg (by simp [h])]
    · obtain ⟨h1, -, h3, -⟩ := acAll_facts (s.at t) (t / 8192) (List.range 4) List.nodup_range
      exact ⟨_, exec_acUpdate.trans (if_pos ⟨hon, h⟩), h1, fun g hg => h3 g (List.mem_range.2 hg)⟩
    · rw [exec_safeStageTimeout, if_neg h]
    · obtain ⟨-, hact, -⟩ := id h
      exact ⟨_, exec_safeStageTimeout.trans (if_pos h), stageTimeout_facts _ hact⟩

end Sys2Proof.Machine
end

section
/-! A cause of a sheet and the registers of the fuser: bits 15 to 8 of a word of FUS, where the comparators that cut stand
(R351), take no part in what a cause starts (R72, R77, R183–R189). -/

namespace Sys2Proof.Machine

/-- `u` keeps of `s` the upper byte of each half word of FUS that shows comparators. -/
def FusBits (s u : State) : Prop :=
  ∀ a, 0x21100000 ≤ a → a < 0x21200000 → ∀ i, 8 ≤ i → i < 16 → u.fb a i = s.fb a i

theorem FusBits.refl (s : State) : FusBits s s := fun _ _ _ _ _ _ => rfl

theorem FusBits.trans {s u v : State} (h : FusBits s u) (k : FusBits u v) : FusBits s v :=
  fun a h1 h2 i h3 h4 => (k a h1 h2 i h3 h4).trans (h a h1 h2 i h3 h4)

theorem FusBits.of_reg {s u : State} (h : ∀ a, 0x21100000 ≤ a → a < 0x21200000 → u.reg a = s.reg a) : FusBits s u :=
  fun a h1 h2 i _ _ => by rw [State.fb, h a h1 h2, State.fb]

theorem FusBits.of_regs {s u : State} (h : u.regs = s.regs) : FusBits s u := .of_reg fun a _ _ => reg_of_regs h a

theorem FusBits.foldl {α : Type} {f : State → α → State} (h : ∀ s x, FusBits s (f s x)) (l : List α) (s : State) :
    FusBits s (l.foldl f s) :=
  foldl_invariant (P := FusBits s) (fun a b _ ha => ha.trans (h a b)) (FusBits.refl s)

section
variable (s : State)

theorem fusBits_setReg {a : Nat} (h : a < 0x21100000 ∨ 0x21200000 ≤ a) (v : Word) : FusBits s (s.setReg a v) :=
  .of_reg fun b h1 h2 => reg_setReg_ne s (by omega) v

theorem fusBits_setB {a : Nat} (h : a < 0x21100000 ∨ 0x21200000 ≤ a) (i : Nat) (b : Bool) : FusBits s (s.setB a i b) :=
  .of_reg fun c h1 h2 => reg_setB_ne s (by omega) i b

theorem fusBits_incSat {a : Nat} (h : a < 0x21100000 ∨ 0x21200000 ≤ a) (hi lo n : Nat) : FusBits s (s.incSat a hi lo n) :=
  .of_reg fun b h1 h2 => reg_incSat_ne s (by omega) _ _ _

/-- A sheet's state and reason lie beside bits 15 to 8, whatever word they are written to. -/
theorem fusBits_setF (a : Nat) {hi lo : Nat} (h : lo ≤ hi) (h' : hi < 32) (hd : hi < 8 ∨ 16 ≤ lo) (n : Nat) :
    FusBits s (s.setF a hi lo n) := fun b _ _ i h3 h4 => by
  by_cases hb : b = a
  · rw [hb, fb_setF_field s h h' (by omega)]
  · rw [fb_setF_ne s hb]

theorem fusBits_setPair {lo hi : Nat} (h : lo < 0x21100000) (h' : hi < 0x21100000) (v : Nat) : FusBits s (s.setPair lo hi v) :=
  (fusBits_setReg s (Or.inl h) _).trans (fusBits_setReg _ (Or.inl h') _)

theorem fusBits_raise (src ev : Nat) : FusBits s (s.raise src ev) := .of_regs rfl

/-! ### Streams (R183–R189, R259) -/

theorem fusBits_blankSheet (h : Nat) : FusBits s (s.blankSheet h) := by
  refine FusBits.foldl (fun s st => ?_) _ s
  split
  · split
    · exact .of_regs rfl
    · exact .refl s
  · exact .refl s

theorem fusBits_modExp (st : Nat) (g : Exp → Exp) : FusBits s (s.modExp st g) := .of_regs rfl
theorem fusBits_updateCredit (st : Nat) : FusBits s (s.updateCredit st) := .of_regs rfl
theorem fusBits_dropWindows (k : Nat) : FusBits s (s.dropWindows k) := .of_regs rfl
theorem fusBits_setSheet (k : Nat) (x : Option Sheet) : FusBits s (s.setSheet k x) := .of_regs rfl

theorem fusBits_stopLanes (st ln0 : Nat) : FusBits s (s.stopLanes st ln0) := by
  refine FusBits.foldl (fun s n => ?_) _ s
  split
  · split
    · exact (fusBits_incSat s (by decide) _ _ _).trans (.of_regs rfl)
    · exact .of_regs rfl
  · exact .refl s

variable {st : Nat} (hst : st < 6)
include hst

theorem fusBits_advanceFilled : FusBits s (s.advanceFilled st) :=
  (fusBits_setPair s (by simp only [Reg.FX_STREAM_FILLED_LO]; omega) (by simp only [Reg.FX_STREAM_FILLED_HI]; omega)
    (filledGo (Tab.get [] s.fx.ended st) (s.fxStreams st) 8256 (s.filled st))).trans (.of_regs rfl)

theorem fusBits_advanceReleased : FusBits s (s.advanceReleased st) :=
  fusBits_setPair s (by simp only [Reg.EXP_RELEASED_LO]; omega) (by simp only [Reg.EXP_RELEASED_HI]; omega) _

theorem fusBits_endStream (x : Stream) : FusBits s (s.endStream st x) := by
  unfold State.endStream
  dsimp only
  refine FusBits.trans ?_ (fusBits_updateCredit _ st)
  refine FusBits.trans ?_ (fusBits_advanceReleased _ hst)
  refine FusBits.trans ?_ (fusBits_advanceFilled _ hst)
  have h := fusBits_stopLanes s st x.ln0
  generalize s.stopLanes st x.ln0 = u at *
  exact h.trans (.of_regs rfl)

end

/-- What holds of a station's step holds of the stations, which are six. -/
theorem FusBits.stations {f : State → Nat → State} (h : ∀ s, ∀ st < 6, FusBits s (f s st)) (s : State) :
    FusBits s ((List.range 6).foldl f s) :=
  foldl_invariant (P := FusBits s) (fun a b hb ha => ha.trans (h a b (List.mem_range.1 hb))) (FusBits.refl s)

theorem fusBits_endSheet (s : State) (h : Nat) : FusBits s (s.endSheet h) := by
  refine (fusBits_blankSheet s h).trans (FusBits.stations (fun s st hst => ?_) _)
  exact (((FusBits.foldl (fun s x => fusBits_endStream s hst x) _ s).trans (fusBits_modExp _ st _)).trans
    (fusBits_advanceReleased _ hst)).trans (fusBits_updateCredit _ st)

/-! ### Outcomes (R72, R73, R79) -/

theorem fusBits_lastSheetDone (s : State) : FusBits s s.lastSheetDone :=
  .of_reg fun a h1 _ => (lastSheetDone_kept s).2.2 a (by simp only [Reg.SYS_MODE]; omega)

theorem fusBits_requestSwap (s : State) : FusBits s s.requestSwap := by
  unfold State.requestSwap
  split
  · exact .of_regs rfl
  · exact FusBits.trans (.of_regs rfl) (fusBits_setB _ (by decide) _ _)

theorem fusBits_tryFree (s : State) (k : Nat) : FusBits s (s.tryFree k) := by
  unfold State.tryFree
  split
  · exact .refl s
  · next sh hk =>
    dsimp only
    split
    · have h := (FusBits.of_regs rfl : FusBits s (({ s with tt := { s.tt with
        orphans := s.tt.orphans ++ sh.armed.map fun a => (k, a) } }).setSheet k none)).trans
        (fusBits_setF _ (Reg.TT_SHEET k) (hi := 3) (lo := 0) (by decide) (by decide) (by decide) stFREE)
      split
      · exact h.trans (fusBits_requestSwap _)
      · exact h
    · exact .refl s

theorem fusBits_declared (s : State) (k st reason detail : Nat) (sh : Sheet) :
    FusBits s (s.declared k st reason detail sh) := by
  have hc : outcomeCounter st < 0x21100000 := by
    have hm := outcomeCounter_mem st
    simp only [List.mem_cons, List.not_mem_nil, or_false] at hm
    rcases hm with h | h | h <;> rw [h] <;> decide
  have h1 := ((fusBits_setF s (Reg.TT_SHEET k) (hi := 3) (lo := 0) (by decide) (by decide) (by decide) st).trans
    (fusBits_setF _ (Reg.TT_SHEET k) (hi := 23) (lo := 16) (by decide) (by decide) (by decide) reason)).trans
    (fusBits_incSat _ (a := outcomeCounter st) (Or.inl hc) 31 0 1)
  exact h1.trans (.of_reg fun a _ h2 => (declared_kept s detail sh).2 a (by omega))

theorem fusBits_outcome (s : State) (k st reason detail : Nat) (keep : Armed → Bool) (arm : Option ActList) :
    FusBits s (s.outcome k st reason detail keep arm) := by
  cases hk : s.sheet k with
  | none =>
    unfold State.outcome
    rw [hk]
    exact .refl s
  | some sh =>
    rw [outcome_eq hk]
    dsimp only
    have h1 := fusBits_declared s k st reason detail sh
    generalize s.declared k st reason detail sh = u at *
    have h2 : FusBits u (u.resRecord (u.outcomeRecord k st reason detail sh)).2 :=
      .of_reg fun a h1 _ => (resRecord_kept u _).2.2 a (by simp only [Reg.TT_RESQ_HEAD]; omega)
    generalize u.resRecord (u.outcomeRecord k st reason detail sh) = v at *
    refine (h1.trans h2).trans ?_
    have h3 : FusBits v.2 (v.2.setSheet k (some (doneSheet sh keep (s.newArms sh arm) v.2.clk.tb detail v.1))) :=
      fusBits_setSheet _ k _
    generalize v.2.setSheet k (some (doneSheet sh keep (s.newArms sh arm) v.2.clk.tb detail v.1)) = w at *
    refine h3.trans ?_
    unfold State.afterOutcome
    dsimp only
    have h4 : FusBits w (if st = stSPOILED then w.raise srcTT 1 else w) := by
      split
      · exact fusBits_raise w _ _
      · exact .refl w
    generalize (if st = stSPOILED then w.raise srcTT 1 else w) = y at *
    exact (((h4.trans (fusBits_endSheet y _)).trans (fusBits_dropWindows _ k)).trans (fusBits_lastSheetDone _)).trans
      (fusBits_tryFree _ k)

theorem fusBits_modSheet (s : State) (k : Nat) (g : Sheet → Sheet) : FusBits s (s.modSheet k g) :=
  .of_regs (modSheet_regs s k g)

/-- The record, the counters and the entry of an outcome that another cause precedes (R75). -/
theorem fusBits_amend (s : State) (k st reason detail : Nat) : FusBits s (s.amend k st reason detail) := by
  have hc : ∀ st, outcomeCounter st < 0x21100000 := fun st => by
    have hm := outcomeCounter_mem st
    simp only [List.mem_cons, List.not_mem_nil, or_false] at hm
    rcases hm with h | h | h <;> rw [h] <;> decide
  have hcnt : ∀ (u : State) (old n : Nat), FusBits u (if old = st then u
      else (u.setF (outcomeCounter old) 31 0 n).incSat (outcomeCounter st) 31 0) := fun u old n => by
    split
    · exact .refl u
    · exact (fusBits_setReg u (Or.inl (hc old)) _).trans (fusBits_incSat _ (Or.inl (hc st)) _ _ _)
  have hlast : ∀ (u : State) (c : Prop) [Decidable c], FusBits u (if c then u.raise srcTT 1 else u) := fun u c _ => by
    split
    · exact fusBits_raise u _ _
    · exact .refl u
  unfold State.amend
  split
  · exact .refl s
  · next sh hk =>
    dsimp only
    refine FusBits.trans ?_ (hlast _ _)
    refine FusBits.trans ?_ (fusBits_modSheet _ k _)
    refine FusBits.trans ?_ (fusBits_setF _ (Reg.TT_SHEET k) (by decide) (by decide) (by decide) reason)
    refine FusBits.trans ?_ (fusBits_setF _ (Reg.TT_SHEET k) (by decide) (by decide) (by decide) st)
    refine FusBits.trans ?_ (hcnt _ _ _)
    cases sh.recAt with
    | none => exact .of_regs rfl
    | some i => exact .of_regs rfl

/-! ### Causes (R75, R77, R79) -/

theorem fusBits_causeOnce (s : State) (k reason detail : Nat) : FusBits s (s.causeOnce k reason detail) := by
  unfold State.causeOnce
  split
  · exact .refl s
  · next sh hk =>
    dsimp only
    have h1 := fusBits_blankSheet s (s.handle k)
    generalize s.blankSheet (s.handle k) = u at *
    refine h1.trans ?_
    have hlate : FusBits u (u.incSat Reg.TT_CNT_LATE 31 0) := fusBits_incSat u (by decide) _ _ _
    split
    · exact fusBits_outcome u k _ _ _ _ _
    · split
      · exact fusBits_outcome u k _ _ _ _ _
      · split
        · split
          · exact (fusBits_amend u k _ _ _).trans (fusBits_modSheet _ k _)
          · exact hlate
        · split
          · exact fusBits_amend u k _ _ _
          · split
            · exact hlate
            · exact .refl u

theorem fusBits_gateRefuse (s : State) (i a : Nat) (k : AccKind) : FusBits s (s.gateRefuse i a k) := by
  unfold State.gateRefuse
  dsimp only
  refine FusBits.trans ?_ (fusBits_raise _ _ _)
  refine FusBits.trans ?_ (fusBits_setB _ (by decide) _ _)
  exact ((fusBits_setReg s (by decide) _).trans (fusBits_setReg _ (by decide) _)).trans (fusBits_setReg _ (by decide) _)

theorem fusBits_readMem (s : State) (i a n : Nat) : FusBits s (s.readMem i a n).2 := by
  unfold State.readMem State.memUncor
  split
  · exact fusBits_gateRefuse s _ _ _
  · split
    · exact .refl s
    · split
      · dsimp only
        split
        · exact fusBits_raise s _ _
        · exact .refl s
      · split
        · exact .refl s
        · split
          · exact .of_regs rfl
          · exact .refl s

theorem fusBits_checkPlane (s : State) (st : Nat) (x : Stream) : FusBits s (s.checkPlane st x).2 := by
  have h := fusBits_readMem s iFX x.plane 32
  unfold State.checkPlane
  split
  · exact .refl s
  · generalize s.readMem iFX x.plane 32 = r at *
    obtain ⟨e, u⟩ := r
    cases e with
    | error e => cases e <;> exact h
    | ok d =>
      dsimp only
      split <;> exact h

theorem fusBits_streamFail (s : State) {st : Nat} (hst : st < 6) (h err fail detail row : Nat) :
    FusBits s (s.streamFail st h err fail detail row) := by
  unfold State.streamFail
  dsimp only
  have h1 : FusBits s ((s.setReg (Reg.FX_STREAM_ERR st)
      (BitVec.ofNat 32 (err + 2 ^ 4 * fail + 2 ^ 8 * detail + 2 ^ 16 * row))).raise srcFX 0) :=
    (fusBits_setReg s (Or.inl (by simp only [Reg.FX_STREAM_ERR]; omega)) _).trans (fusBits_raise _ _ _)
  split
  · exact h1.trans (fusBits_causeOnce _ _ _ _)
  · exact h1

theorem fusBits_activate (s : State) {st : Nat} (hst : st < 6) : FusBits s (s.activate st) := by
  unfold State.activate
  split
  · exact .refl s
  · next x hx =>
    have h := fusBits_checkPlane s st x
    generalize s.checkPlane st x = r at *
    obtain ⟨e, u⟩ := r
    cases e with
    | error e => exact (h.trans (fusBits_endStream u hst x)).trans (fusBits_streamFail _ hst _ _ _ _ _)
    | ok cols => exact h.trans (.of_regs rfl)

theorem fusBits_settle (s : State) (n : Nat) : FusBits s (s.settle n) := by
  induction n generalizing s with
  | zero => exact .refl s
  | succ n ih =>
    unfold State.settle
    split
    · next st hf =>
      exact (fusBits_activate s (List.mem_range.1 (List.mem_of_find?_eq_some hf))).trans (ih _)
    · exact .refl s

theorem fusBits_cause (s : State) (k reason detail : Nat) : FusBits s (s.cause k reason detail) :=
  (fusBits_causeOnce s k reason detail).trans (fusBits_settle _ _)

end Sys2Proof.Machine
end

section
/-! The fuser (R342–R352): commands of a zone, the control period with its controller, the mains and the comparators that
cut. -/

namespace Sys2Proof.Machine

/-! ### Zones under the operations of a state -/

section
variable (s : State)

@[simp] theorem fusZone_setReg (a : Nat) (v : Word) (z : Nat) : (s.setReg a v).fusZone z = s.fusZone z := rfl
@[simp] theorem fusZone_setF (a hi lo n z : Nat) : (s.setF a hi lo n).fusZone z = s.fusZone z := rfl
@[simp] theorem fusZone_modZone_self (z : Nat) (g : FusZone → FusZone) : (s.modZone z g).fusZone z = g (s.fusZone z) :=
  Tab.get_put_self _ _ _ _
theorem fusZone_modZone_ne {z y : Nat} (h : y ≠ z) (g : FusZone → FusZone) : (s.modZone z g).fusZone y = s.fusZone y :=
  Tab.get_put_ne _ h _ _

@[simp] theorem reg_modZone (z a : Nat) (g : FusZone → FusZone) : (s.modZone z g).reg a = s.reg a := rfl
@[simp] theorem f_modZone (z a hi lo : Nat) (g : FusZone → FusZone) : (s.modZone z g).f a hi lo = s.f a hi lo := rfl
@[simp] theorem fb_modZone (z a i : Nat) (g : FusZone → FusZone) : (s.modZone z g).fb a i = s.fb a i := rfl
@[simp] theorem zState_modZone (z y : Nat) (g : FusZone → FusZone) : (s.modZone z g).zState y = s.zState y := rfl

/-- A zone's state is that of its two registers. -/
theorem zState_congr {s v : State} {z : Nat} (h1 : v.reg Reg.FUS_STATUS = s.reg Reg.FUS_STATUS)
    (h2 : v.reg (Reg.FUS_ZSTATE z) = s.reg (Reg.FUS_ZSTATE z)) : v.zState z = s.zState z := by
  rw [State.zState, State.zState, State.fusCut, State.fusCut, fb_of_reg h1, f_of_reg h2]

/-- A zone that is in a state other than CUT is not cut, and its register says so. -/
theorem zState_uncut {z n : Nat} (h : s.zState z = n) (hn : n ≠ 3) : s.fusCut = false ∧ s.f (Reg.FUS_ZSTATE z) 1 0 = n := by
  rw [State.zState] at h
  split at h
  · exact absurd h.symm hn
  · next hc => exact ⟨by simpa using hc, h⟩

/-- The state written to a zone that is not cut. -/
theorem zState_setF {z n : Nat} (hc : s.fusCut = false) (hn : n < 4) : (s.setF (Reg.FUS_ZSTATE z) 1 0 n).zState z = n := by
  have hne : Reg.FUS_STATUS ≠ Reg.FUS_ZSTATE z := by simp only [Reg.FUS_STATUS, Reg.FUS_ZSTATE]; omega
  rw [State.zState, State.fusCut, fb_setF_ne _ hne, ← State.fusCut, hc, if_neg (by decide),
    f_setF_self _ _ (by decide) (by decide)]
  exact Nat.mod_eq_of_lt hn

end

/-! ### Commands (R342, R348) -/

section
variable {s : State} {t : Tick} {z : Fin 8} (hon : (s.at t).fusOn = true)
include hon

theorem exec_zoneCommands : exec (.fusZcmdOn t z) s = .next ((s.at t).zoneOn z) ∧
    exec (.fusZcmdOff t z) s = .next ((s.at t).zoneOff z) ∧ exec (.fusZcmdClear t z) s = .next ((s.at t).zoneClear z) := by
  change execFusZcmdOn t z s = _ ∧ execFusZcmdOff t z s = _ ∧ execFusZcmdClear t z s = _
  rw [execFusZcmdOn, execFusZcmdOff, execFusZcmdClear]
  generalize s.at t = u at *
  exact ⟨if_pos hon, if_pos hon, if_pos hon⟩

end

section
variable {s : State} {z : Nat}

theorem zoneOn_busy (h : s.zState z ≠ 0) : s.zoneOn z = s := if_pos h

theorem zoneOn_refused (h : s.zState z = 0) (hr : s.f (Reg.FUS_ZCFG z) 1 0 = 0 ∨ s.sensorOk z = false) :
    s.zoneOn z = s.setB (Reg.FUS_ZSTATE z) 2 true := by
  have hx : s.onRefused z = true := by
    rw [State.onRefused, h]
    rcases hr with hr | hr <;> simp [hr, zOFF]
  rw [State.zoneOn, if_neg (by simp [h, zOFF]), if_pos hx]

theorem zoneOn_runs (h : s.zState z = 0) (hc : s.f (Reg.FUS_ZCFG z) 1 0 ≠ 0) (hs : s.sensorOk z = true) :
    s.zoneOn z = (s.setF (Reg.FUS_ZSTATE z) 1 0 zRUN).modZone z fun x => { x with run := 0, acc := 0 } := by
  have hx : s.onRefused z = false := by simp [State.onRefused, h, hc, hs]
  rw [State.zoneOn, if_neg (by simp [h, zOFF]), if_neg (by simp [hx])]

theorem zoneOff_still (h : s.zState z ≠ 1) : s.zoneOff z = s := if_neg h

/-- RUN is left: what the zone shows, and how long HEAT stays as it was (R342). -/
def State.runLeft (s : State) (z n : Nat) : State :=
  ((s.setF (Reg.FUS_ZSTATE z) 1 0 n).setF (Reg.FUS_DEMAND z) 16 0 0).modZone z fun x =>
    { x with da := 0, dOld := 0, gate := if s.heatLevel z then [(s.clk.tb, nextMultiple 32 s.clk.tb)] else [] }

theorem leaveRun_eq (s : State) (z n : Nat) : s.leaveRun z n =
    (s.runLeft z n).fuserCauses fun sh => sh.claimAt kFUSER z (s.runLeft z n).clk.tb := rfl

theorem zoneOff_runs (h : s.zState z = 1) : s.zoneOff z =
    (s.runLeft z 0).fuserCauses fun sh => sh.claimAt kFUSER z s.clk.tb := by
  rw [State.zoneOff]
  exact if_pos h

theorem runLeft_facts (h : s.zState z = 1) : (s.runLeft z 0).zState z = 0 ∧ (s.runLeft z 0).f (Reg.FUS_DEMAND z) 16 0 = 0 ∧
    ((s.runLeft z 0).fusZone z).da = 0 ∧
    ((s.runLeft z 0).fusZone z).gate = if s.heatLevel z then [(s.clk.tb, nextMultiple 32 s.clk.tb)] else [] := by
  have h1 : Reg.FUS_STATUS ≠ Reg.FUS_DEMAND z := by simp only [Reg.FUS_STATUS, Reg.FUS_DEMAND]; omega
  have h2 : Reg.FUS_ZSTATE z ≠ Reg.FUS_DEMAND z := by simp only [Reg.FUS_ZSTATE, Reg.FUS_DEMAND]; omega
  rw [State.runLeft]
  refine ⟨?_, ?_, ?_, ?_⟩
  · rw [zState_modZone, zState_congr (reg_setF_ne _ h1 _ _ _) (reg_setF_ne _ h2 _ _ _)]
    exact zState_setF s (zState_uncut s h (by decide)).1 (by decide)
  · rw [f_modZone, f_setF_self _ _ (by decide) (by decide), Nat.zero_mod]
  · rw [fusZone_modZone_self]
  · rw [fusZone_modZone_self]

theorem zoneClear_clears (h : s.zState z = 2) (hs : s.sensorOk z = true) : s.zoneClear z = s.setF (Reg.FUS_ZSTATE z) 1 0 zOFF :=
  if_pos (by simp [h, hs, zFAULT])

theorem zoneClear_still (h : s.zState z ≠ 2 ∨ s.sensorOk z = false) : s.zoneClear z = s := by
  refine if_neg ?_
  rcases h with h | h <;> simp [h, zFAULT]

end

section
variable {s : State} {t : Tick} {k : Fin 128} {i : Nat} {a : Armed}

theorem exec_setpoint (h : (s.at t).CanTake k i (fun a => isCmd 0x11 1 a && a.unit ≤ 7 && (s.at t).fusOn) a) :
    exec (.setpoint t k i) s = .next (((((s.at t).markExecuted k i).report k i ((s.at t).markExecuted k i).clk.tb).hold
      (Reg.FUS_SP a.act.unit) (BitVec.ofNat 32 (a.act.param % 65536))).modZone a.act.unit fun y =>
        { y with ttSp := some ((s.at t).markExecuted k i).clk.tb }) := by
  change execSetpoint t k i s = _
  rw [execSetpoint]
  generalize s.at t = u at *
  simp only [take_run h]

theorem exec_fusTtOn (h : (s.at t).CanTake k i (fun a => isCmd 0x11 2 a && a.unit ≤ 7 && (s.at t).fusOn) a) :
    exec (.fusTtOn t k i) s = .next ((if ((s.at t).markExecuted k i).onRefused a.act.unit then (s.at t).markExecuted k i
      else ((s.at t).markExecuted k i).report k i ((s.at t).markExecuted k i).clk.tb).zoneOn a.act.unit) := by
  change execFusTtOn t k i s = _
  rw [execFusTtOn]
  generalize s.at t = u at *
  simp only [take_run h]
  split <;> rfl

theorem exec_fusTtOff (h : (s.at t).CanTake k i (fun a => isCmd 0x11 3 a && a.unit ≤ 7 && (s.at t).fusOn) a) :
    exec (.fusTtOff t k i) s = .next ((((s.at t).markExecuted k i).report k i
      ((s.at t).markExecuted k i).clk.tb).zoneOff a.act.unit) := by
  change execFusTtOff t k i s = _
  rw [execFusTtOff]
  generalize s.at t = u at *
  simp only [take_run h]

end

/-! ### The controller (R344) -/

/-- A demand that may move by `slew` of the one applied. -/
theorem slewed_facts {da d slew : Nat} (h1 : da ≤ 65536) (h2 : d ≤ 65536) :
    (if da < d then min d (da + slew) else max d (da - slew)) ≤ 65536 ∧
    (if da < d then min d (da + slew) else max d (da - slew)) ≤ da + slew ∧
    da ≤ (if da < d then min d (da + slew) else max d (da - slew)) + slew := by
  split <;> omega

theorem clampInt_demand (x : Int) : (clampInt 0 65536 x).toNat ≤ 65536 ∧
    (((clampInt 0 65536 x).toNat : Nat) : Int) = max 0 (min 65536 x) := by
  rw [clampInt]
  split
  · omega
  · split <;> omega

theorem zoneControl_facts (s : State) (z : Nat) (temp : Int) (hda : (s.fusZone z).da ≤ 65536) :
    let v := s.zoneControl z temp
    let e := s.fusSp z - temp
    let out := floorDiv ((s.af (Reg.FUS_ZGAIN z) 15 0 : Int) * e) 16 + (s.fusZone z).run
    let n := v.f (Reg.FUS_DEMAND z) 16 0
    n ≤ 65536 ∧ (s.f (Reg.FUS_ZCFG z) 1 0 ≠ 2 → (n : Int) = max 0 (min 65536 out)) ∧
    (s.f (Reg.FUS_ZCFG z) 1 0 = 2 → n ≤ (s.fusZone z).da + s.af (Reg.FUS_SLEW z) 16 0 ∧
      (s.fusZone z).da ≤ n + s.af (Reg.FUS_SLEW z) 16 0) ∧
    (v.fusZone z).dOld = s.f (Reg.FUS_DEMAND z) 16 0 ∧
    ((65536 < out ∧ 0 < e) ∨ (out < 0 ∧ e < 0) → (v.fusZone z).run = (s.fusZone z).run) := by
  dsimp only
  obtain ⟨c1, c2⟩ := clampInt_demand (floorDiv ((s.af (Reg.FUS_ZGAIN z) 15 0 : Int) * (s.fusSp z - temp)) 16 + (s.fusZone z).run)
  obtain ⟨d1, d2, d3⟩ := slewed_facts (slew := s.af (Reg.FUS_SLEW z) 16 0) hda c1
  rw [State.zoneControl]
  simp only [fusZone_modZone_self, f_modZone, fusZone_setF]
  rw [f_setF_self _ _ (by decide) (by decide)]
  by_cases hz : s.f (Reg.FUS_ZCFG z) 1 0 = 2
  · simp only [hz, if_true]
    rw [Nat.mod_eq_of_lt (lt_of_le_of_lt d1 (by decide))]
    refine ⟨d1, fun h => absurd rfl h, fun _ => ⟨d2, d3⟩, trivial, fun h => if_pos ?_⟩
    simpa using h
  · simp only [hz, if_false]
    rw [Nat.mod_eq_of_lt (lt_of_le_of_lt c1 (by decide))]
    refine ⟨c1, fun _ => c2, fun h => absurd h id, trivial, fun h => if_pos ?_⟩
    simpa using h

/-! ### The control period (R343, R349, R350) -/

theorem fuserCauses_none {s : State} (h : s.openSheets = []) (p : Sheet → Option Nat) : s.fuserCauses p = s := by
  rw [State.fuserCauses, h]
  rfl

theorem zoneWindow_none {s : State} (h : s.openSheets = []) (z : Nat) (temp : Int) : s.zoneWindow z temp = s := by
  rw [State.zoneWindow]
  exact fuserCauses_none h _

/-- What the period end of zone z leaves as it is. -/
structure PeriodKept (z : Nat) (s v : State) : Prop where
  mem : v.mem = s.mem
  clk : v.clk = s.clk
  tt : v.tt = s.tt
  zone : ∀ y, y ≠ z → v.fusZone y = s.fusZone y
  reg : ∀ a, a ≠ Reg.FUS_TEMP z → a ≠ Reg.FUS_READY_LO z → a ≠ Reg.FUS_READY_HI z → v.reg a = s.reg a

/-- The mean, the temperature and the time of readiness that the period end of an OFF zone shows (R343, R349). -/
def PeriodShown (s : State) (z : Nat) (v : State) : Prop :=
  v.reg (Reg.FUS_TEMP z) = BitVec.ofNat 32 (fromSigned 16 (s.linTemp z ((s.fusZone z).sum / (s.fusZone z).cnt)) +
    65536 * ((s.fusZone z).sum / (s.fusZone z).cnt)) ∧
  (v.fusZone z).sum = 0 ∧ (v.fusZone z).cnt = 0 ∧ v.zState z = 0 ∧
  v.pair (Reg.FUS_READY_LO z) (Reg.FUS_READY_HI z) = 2 ^ 64 - 1

/-- The words that the period end brings in force. -/
def State.zoneApplied (s : State) (z : Nat) : State :=
  s.applyAll [Reg.FUS_SP z, Reg.FUS_ZGAIN z, Reg.FUS_TOL z, Reg.FUS_SLEW z]

theorem applyAll_other (s : State) (l : List Nat) : (s.applyAll l).tt = s.tt ∧ (s.applyAll l).fus = s.fus ∧
    (s.applyAll l).sbx = s.sbx := by
  rw [State.applyAll]
  refine foldl_invariant (P := fun v : State => v.tt = s.tt ∧ v.fus = s.fus ∧ v.sbx = s.sbx) (fun v a _ h => ?_)
    ⟨rfl, rfl, rfl⟩
  have e : (v.applyS a).tt = v.tt ∧ (v.applyS a).fus = v.fus ∧ (v.applyS a).sbx = v.sbx := by
    rw [State.applyS]
    split
    · split <;> exact ⟨rfl, rfl, rfl⟩
    · exact ⟨rfl, rfl, rfl⟩
  exact ⟨e.1.trans h.1, e.2.1.trans h.2.1, e.2.2.trans h.2.2⟩

/-- The end of a control period of an OFF zone after its words have come in force, without sheets. -/
theorem zonePeriod_off {s : State} {z : Nat} (hz : (s.zoneApplied z).zState z = 0) (hs : (s.zoneApplied z).openSheets = [])
    (hc : ((s.zoneApplied z).fusZone z).cnt ≠ 0) : s.zonePeriod z =
      (let u := s.zoneApplied z
       let m := (u.fusZone z).sum / (u.fusZone z).cnt
       (((u.setReg (Reg.FUS_TEMP z) (BitVec.ofNat 32 (fromSigned 16 (u.linTemp z m) + 2 ^ 16 * m))).modZone z fun x =>
         { x with sum := 0, cnt := 0, temps := (u.linTemp z m :: x.temps).take 255 }).setPair (Reg.FUS_READY_LO z)
           (Reg.FUS_READY_HI z) (2 ^ 64 - 1))) := by
  rw [State.zonePeriod, ← State.zoneApplied]
  generalize s.zoneApplied z = u at *
  simp only [if_neg hc]
  have hz' : ∀ v : Word, ∀ g, ((u.setReg (Reg.FUS_TEMP z) v).modZone z g).zState z = 0 := fun v g => by
    rw [← hz]
    refine zState_congr (reg_setReg_ne u ?_ v) (reg_setReg_ne u ?_ v)
    · simp only [Reg.FUS_STATUS, Reg.FUS_TEMP]; omega
    · simp only [Reg.FUS_ZSTATE, Reg.FUS_TEMP]; omega
  have hready : ∀ v : Word, ∀ g x, ((u.setReg (Reg.FUS_TEMP z) v).modZone z g).readyAt z x = 2 ^ 64 - 1 := fun v g x =>
    if_pos (by rw [hz']; decide)
  have hopen : ∀ (a lo hi n : Nat) (v : Word) (g : FusZone → FusZone),
      (((u.setReg a v).modZone z g).setPair lo hi n).openSheets = [] := fun _ _ _ _ _ _ => hs
  rw [if_neg (by rw [hz']; decide), hready, zoneWindow_none (hopen _ _ _ _ _ _)]

theorem zonePeriod_facts {s : State} {z : Nat} (hz8 : z < 8) (hz : s.zState z = 0) (hs : s.openSheets = [])
    (hc : (s.fusZone z).cnt ≠ 0) : PeriodKept z s (s.zonePeriod z) ∧ PeriodShown s z (s.zonePeriod z) := by
  obtain ⟨k1, k2, -, k4⟩ := applyAll_kept s [Reg.FUS_SP z, Reg.FUS_ZGAIN z, Reg.FUS_TOL z, Reg.FUS_SLEW z]
  obtain ⟨k5, k6, -⟩ := applyAll_other s [Reg.FUS_SP z, Reg.FUS_ZGAIN z, Reg.FUS_TOL z, Reg.FUS_SLEW z]
  rw [← State.zoneApplied] at k1 k2 k4 k5 k6
  have hzone : ∀ y, (s.zoneApplied z).fusZone y = s.fusZone y := fun y => by rw [State.fusZone, k6, State.fusZone]
  have hst : ∀ y, (s.zoneApplied z).zState y = s.zState y := fun y => zState_congr (reg_of_regs k1 _) (reg_of_regs k1 _)
  have hlin : ∀ m, (s.zoneApplied z).linTemp z m = s.linTemp z m := fun m => by
    have he : ∀ i, (s.zoneApplied z).linEntry z i = s.linEntry z i := fun i => by
      rw [State.linEntry, State.linEntry, fb_of_regs k1, f_of_regs k1]
    rw [State.linTemp, State.linTemp, he, he]
  have hx := zonePeriod_off (s := s) (z := z) (by rw [hst, hz]) (by rw [State.openSheets, k5]; exact hs) (by rw [hzone]; exact hc)
  dsimp only at hx
  rw [hzone, hlin] at hx
  have hreg : ∀ a, (s.zoneApplied z).reg a = s.reg a := fun a => reg_of_regs k1 a
  generalize s.zoneApplied z = u at *
  rw [hx]
  have hset : ∀ (v : Word) g (a n : Nat), a ≠ Reg.FUS_TEMP z → a ≠ Reg.FUS_READY_LO z → a ≠ Reg.FUS_READY_HI z →
      (((u.setReg (Reg.FUS_TEMP z) v).modZone z g).setPair (Reg.FUS_READY_LO z) (Reg.FUS_READY_HI z) n).reg a = s.reg a :=
    fun v g a n h1 h2 h3 => by
      rw [State.setPair, reg_setReg_ne _ h3, reg_setReg_ne _ h2, reg_modZone, reg_setReg_ne _ h1, hreg]
  have t1 : Reg.FUS_TEMP z ≠ Reg.FUS_READY_LO z := by simp only [Reg.FUS_TEMP, Reg.FUS_READY_LO]; omega
  have t2 : Reg.FUS_TEMP z ≠ Reg.FUS_READY_HI z := by simp only [Reg.FUS_TEMP, Reg.FUS_READY_HI]; omega
  have t3 : Reg.FUS_READY_LO z ≠ Reg.FUS_READY_HI z := by simp only [Reg.FUS_READY_LO, Reg.FUS_READY_HI]; omega
  refine ⟨⟨k4, k2, k5, fun y hy => ?_, fun a h1 h2 h3 => hset _ _ a _ h1 h2 h3⟩, ?_⟩
  · rw [State.setPair, fusZone_setReg, fusZone_setReg, fusZone_modZone_ne _ hy, fusZone_setReg, hzone]
  refine ⟨?_, ?_, ?_, ?_, ?_⟩
  · rw [State.setPair, reg_setReg_ne _ t2, reg_setReg_ne _ t1, reg_modZone, reg_setReg_self]
    rfl
  · rw [State.setPair, fusZone_setReg, fusZone_setReg, fusZone_modZone_self]
  · rw [State.setPair, fusZone_setReg, fusZone_setReg, fusZone_modZone_self]
  · rw [← hz]
    refine zState_congr (hset _ _ _ _ ?_ ?_ ?_) (hset _ _ _ _ ?_ ?_ ?_)
    all_goals
      simp only [Reg.FUS_STATUS, Reg.FUS_TEMP, Reg.FUS_READY_LO, Reg.FUS_READY_HI, Reg.FUS_ZSTATE]
      omega
  · rw [State.pair, State.setPair, reg_setReg_ne _ t3, reg_setReg_self, reg_setReg_self]
    rfl

theorem PeriodKept.zState {z y : Nat} {s v : State} (h : PeriodKept z s v) : v.zState y = s.zState y := by
  refine zState_congr (h.reg _ ?_ ?_ ?_) (h.reg _ ?_ ?_ ?_)
  all_goals
    simp only [Reg.FUS_STATUS, Reg.FUS_TEMP, Reg.FUS_READY_LO, Reg.FUS_READY_HI, Reg.FUS_ZSTATE]
    omega

theorem PeriodKept.linTemp {z y m : Nat} {s v : State} (h : PeriodKept z s v) (hm : m < 4096) : v.linTemp y m = s.linTemp y m := by
  have he : ∀ i ≤ 32, v.linEntry y i = s.linEntry y i := fun i hi => by
    rw [State.linEntry, State.linEntry, fb_of_reg (h.reg (Reg.FUS_ZCFG y) _ _ _), f_of_reg (h.reg (Reg.FUS_LIN i) _ _ _)]
    all_goals
      simp only [Reg.FUS_ZCFG, Reg.FUS_LIN, Reg.FUS_TEMP, Reg.FUS_READY_LO, Reg.FUS_READY_HI]
      omega
  rw [State.linTemp, State.linTemp, he _ (by omega), he _ (by omega)]

theorem PeriodKept.shown {z y : Nat} {s u v : State} (h : PeriodKept z u v) (hy : y ≠ z) (hs : PeriodShown s y u) :
    PeriodShown s y v := by
  obtain ⟨h1, h2, h3, h4, h5⟩ := hs
  refine ⟨?_, ?_, ?_, h.zState.trans h4, ?_⟩
  · rw [h.reg _ _ _ _, h1]
    all_goals
      simp only [Reg.FUS_TEMP, Reg.FUS_READY_LO, Reg.FUS_READY_HI]
      omega
  · rw [h.zone y hy, h2]
  · rw [h.zone y hy, h3]
  · rw [State.pair, h.reg (Reg.FUS_READY_LO y) _ _ _, h.reg (Reg.FUS_READY_HI y) _ _ _, ← State.pair, h5]
    all_goals
      simp only [Reg.FUS_TEMP, Reg.FUS_READY_LO, Reg.FUS_READY_HI]
      omega

/-- The period ends of a list of zones that names each of them once. -/
theorem periodAll_facts (u : State) (hs : u.openSheets = []) (hu : ∀ z < 8, u.zState z = 0 ∧ (u.fusZone z).cnt ≠ 0 ∧
    (u.fusZone z).sum / (u.fusZone z).cnt < 4096) (l : List Nat) (hl : l.Nodup) (h8 : ∀ z ∈ l, z < 8) :
    let v := l.foldl State.zonePeriod u
    v.mem = u.mem ∧ v.clk = u.clk ∧ v.tt = u.tt ∧ (∀ z, v.zState z = u.zState z) ∧ (∀ z m, m < 4096 → v.linTemp z m = u.linTemp z m) ∧
    (∀ z ∈ l, PeriodShown u z v) ∧ ∀ z, z ∉ l → v.fusZone z = u.fusZone z := by
  induction l using List.reverseRecOn with
  | nil => exact ⟨rfl, rfl, rfl, fun _ => rfl, fun _ _ _ => rfl, fun z h => absurd h List.not_mem_nil, fun _ _ => rfl⟩
  | append_singleton l n ih =>
    obtain ⟨hl', -, hd⟩ := List.nodup_append.1 hl
    have hn : n ∉ l := fun hn => hd n hn n List.mem_cons_self rfl
    obtain ⟨i1, i2, i3, i4, i5, i6, i7⟩ := ih hl' fun z hz => h8 z (by simp [hz])
    rw [List.foldl_append, List.foldl_cons, List.foldl_nil]
    generalize l.foldl State.zonePeriod u = v at *
    have hn8 := h8 n (by simp)
    obtain ⟨u1, u2, u3⟩ := hu n hn8
    obtain ⟨hk, hsh⟩ := zonePeriod_facts (s := v) hn8 (by rw [i4, u1]) (by rw [State.openSheets, i3]; exact hs)
      (by rw [i7 n hn]; exact u2)
    refine ⟨hk.mem.trans i1, hk.clk.trans i2, hk.tt.trans i3, fun z => hk.zState.trans (i4 z),
      fun z m hm => (hk.linTemp hm).trans (i5 z m hm), fun z hz => ?_, fun z hz => ?_⟩
    · by_cases hzn : z = n
      · subst hzn
        rw [PeriodShown, i7 z hn, i5 z _ u3] at hsh
        exact hsh
      · exact hk.shown hzn (i6 z (by simpa [hzn] using hz))
    · exact (hk.zone z fun e => hz (by simp [e])).trans (i7 z fun h => hz (by simp [h]))

theorem readySub_kept (s : State) : s.readySub.mem = s.mem ∧ s.readySub.fus = s.fus ∧
    ∀ a, a ≠ Reg.SYS_MODE → s.readySub.reg a = s.reg a := by
  rw [State.readySub]
  split
  · exact ⟨setB_mem _ _ _ _, setB_fus _ _ _ _, fun a ha => reg_setB_ne _ ha _ _⟩
  · exact ⟨rfl, rfl, fun _ _ => rfl⟩

/-- What a period shows stands in the zone and its registers. -/
theorem PeriodShown.congr {s u v : State} {z : Nat} (h : PeriodShown s z u) (hf : v.fus.zone = u.fus.zone)
    (hr : ∀ a, a ≠ Reg.SYS_MODE → v.reg a = u.reg a) : PeriodShown s z v := by
  obtain ⟨h1, h2, h3, h4, h5⟩ := h
  have hz : v.fusZone z = u.fusZone z := by rw [State.fusZone, hf, State.fusZone]
  refine ⟨?_, by rw [hz, h2], by rw [hz, h3], ?_, ?_⟩
  · rw [hr _ (by simp only [Reg.FUS_TEMP, Reg.SYS_MODE]; omega), h1]
  · rw [← h4]
    exact zState_congr (hr _ (by decide)) (hr _ (by simp only [Reg.FUS_ZSTATE, Reg.SYS_MODE]; omega))
  · rw [State.pair, hr _ (by simp only [Reg.FUS_READY_LO, Reg.SYS_MODE]; omega),
      hr _ (by simp only [Reg.FUS_READY_HI, Reg.SYS_MODE]; omega), ← State.pair, h5]

section
variable {s : State} {t : Tick}

/-- The period end that the zones have seen. -/
def State.fusLastTc (s : State) : State := { s with fus := { s.fus with lastTc := s.clk.tb } }

theorem exec_fuserControlPeriod : exec (.fuserControlPeriod t) s =
    if (s.at t).fusOn = false ∨ t % (s.at t).ctlPeriod ≠ 0 then .next (s.at t)
    else .next ((List.range 8).foldl State.zonePeriod (s.at t)).fusLastTc.readySub := by
  change execFuserControlPeriod t s = _
  rw [execFuserControlPeriod]
  generalize s.at t = u at *
  simp only [Bool.or_eq_true, Bool.not_eq_true', decide_eq_true_eq]
  rfl

theorem controlPeriod_facts (hon : (s.at t).fusOn = true) (ht : t % (s.at t).ctlPeriod = 0) (hs : (s.at t).openSheets = [])
    (hu : ∀ z < 8, (s.at t).zState z = 0 ∧ ((s.at t).fusZone z).cnt ≠ 0 ∧
      ((s.at t).fusZone z).sum / ((s.at t).fusZone z).cnt < 4096) :
    ∃ v : State, exec (.fuserControlPeriod t) s = .next v ∧ v.mem = (s.at t).mem ∧ v.fus.lastTc = (s.at t).clk.tb ∧
      ∀ z < 8, PeriodShown (s.at t) z v := by
  have hx := exec_fuserControlPeriod (s := s) (t := t)
  rw [if_neg (by simp [hon, ht])] at hx
  rw [hx]
  clear hx
  generalize s.at t = u at *
  obtain ⟨i1, i2, -, -, -, i6, -⟩ := periodAll_facts u hs hu (List.range 8) List.nodup_range fun z hz => List.mem_range.1 hz
  generalize (List.range 8).foldl State.zonePeriod u = v at *
  obtain ⟨r1, r2, r3⟩ := readySub_kept v.fusLastTc
  refine ⟨_, rfl, r1.trans i1, ?_, fun z hz => (i6 z (List.mem_range.2 hz)).congr ?_ fun a ha => r3 a ha⟩
  · rw [r2, State.fusLastTc, i2]
  · rw [r2]
    rfl

end

/-! ### Ball ZC (R345, R353) -/

/-- What gating leaves as it is. -/
structure GateKept (s v : State) : Prop where
  regs : v.regs = s.regs
  mem : v.mem = s.mem
  clk : v.clk = s.clk
  sbx : v.sbx = s.sbx
  fus : v.fus = { s.fus with zone := v.fus.zone }

theorem GateKept.refl (s : State) : GateKept s s := ⟨rfl, rfl, rfl, rfl, rfl⟩

theorem GateKept.trans {s v w : State} (h : GateKept s v) (h' : GateKept v w) : GateKept s w :=
  ⟨h'.regs.trans h.regs, h'.mem.trans h.mem, h'.clk.trans h.clk, h'.sbx.trans h.sbx, by rw [h'.fus, h.fus]⟩

theorem gateKept_modZone (s : State) (z : Nat) (g : FusZone → FusZone) : GateKept s (s.modZone z g) := ⟨rfl, rfl, rfl, rfl, rfl⟩

theorem GateKept.foldl {f : State → Nat → State} (h : ∀ s z, GateKept s (f s z)) (l : List Nat) (s : State) :
    GateKept s (l.foldl f s) :=
  foldl_invariant (P := GateKept s) (fun a b _ ha => ha.trans (h a b)) (GateKept.refl s)

/-- ZC_OK ends, and the loss is counted and told. -/
def State.zcTold (s : State) : State := (((s.setB Reg.FUS_STATUS 0 false).incSat Reg.FUS_CNT 31 16).fusIrq 3).raise srcFUS 3

/-- Gating ends in the zones of a list. -/
def State.ungated (s : State) (l : List Nat) : State := l.foldl (fun s z => s.modZone z fun y => { y with gate := [] }) s

theorem zcLost_eq (s : State) : s.zcLost = s.zcTold.ungated s.zcTold.triacZones := rfl

theorem ungated_kept (s : State) (l : List Nat) : GateKept s (s.ungated l) :=
  GateKept.foldl (fun s z => gateKept_modZone s z _) l s

theorem ungated_gate (s : State) {l : List Nat} {z : Nat} (h : z ∈ l) : ((s.ungated l).fusZone z).gate = [] := by
  refine foldl_establish (P := fun v : State => (v.fusZone z).gate = []) (fun v y _ hv => ?_) h (fun v => ?_) s
  · by_cases hy : z = y
    · rw [hy, fusZone_modZone_self]
    · rw [fusZone_modZone_ne _ hy]
      exact hv
  · rw [fusZone_modZone_self]

section
variable (s : State)

theorem zcTold_reg {a : Nat} (h1 : a ≠ Reg.FUS_STATUS) (h2 : a ≠ Reg.FUS_CNT) (h3 : a ≠ Reg.FUS_IRQ_STATUS) :
    s.zcTold.reg a = s.reg a := by
  rw [State.zcTold, reg_raise, State.fusIrq, reg_setB_ne _ h3, reg_incSat_ne _ h2, reg_setB_ne _ h1]

theorem zcTold_kept : s.zcTold.mem = s.mem ∧ s.zcTold.fus = s.fus ∧ s.zcTold.clk = s.clk ∧
    s.zcTold.sbx.raised = s.sbx.raised ++ [{ src := srcFUS, ev := 3, ts := s.now }] := by
  have hclk : (((s.setB Reg.FUS_STATUS 0 false).incSat Reg.FUS_CNT 31 16).fusIrq 3).clk = s.clk := by
    rw [State.fusIrq, setB_clk, incSat_clk, setB_clk]
  refine ⟨?_, ?_, hclk, ?_⟩
  · rw [State.zcTold, raise_mem, State.fusIrq, setB_mem, State.incSat, setF_mem, setB_mem]
  · rw [State.zcTold, raise_fus, State.fusIrq, setB_fus, State.incSat, setF_fus, setB_fus]
  · rw [State.zcTold, raised_raise, State.now, hclk, State.fusIrq, setB_sbx, State.incSat, setF_sbx, setB_sbx, State.now]

theorem zcTold_status : s.zcTold.fb Reg.FUS_STATUS 0 = false ∧ s.zcTold.fb Reg.FUS_IRQ_STATUS 3 = true ∧
    s.zcTold.f Reg.FUS_CNT 31 16 = min 65535 (s.f Reg.FUS_CNT 31 16 + 1) ∧ s.zcTold.fusCut = s.fusCut := by
  rw [State.zcTold, State.fusIrq]
  refine ⟨?_, ?_, ?_, ?_⟩
  · rw [fb_raise, fb_setB_ne _ (by decide), fb_incSat_ne _ (by decide), fb_setB_self _ _ (by decide)]
  · rw [fb_raise, fb_setB_self _ _ (by decide)]
  · rw [f_raise, f_setB_ne _ (by decide), f_incSat_self _ _ (by decide) (by decide), f_setB_ne _ (by decide)]
    exact satAdd_one (f_lt _ _ 31 16)
  · rw [State.fusCut, fb_raise, fb_setB_ne _ (by decide), fb_incSat_ne _ (by decide), fb_setB_bit _ (by decide) (by decide),
      State.fusCut]

theorem zcTold_triac : s.zcTold.triacZones = s.triacZones := by
  have hz : ∀ z, s.zcTold.zState z = s.zState z := fun z => by
    rw [State.zState, (zcTold_status s).2.2.2, f_of_reg (zcTold_reg s _ _ _), State.zState]
    all_goals
      simp only [Reg.FUS_ZSTATE, Reg.FUS_STATUS, Reg.FUS_CNT, Reg.FUS_IRQ_STATUS]
      omega
  have hc : ∀ z, s.zcTold.f (Reg.FUS_ZCFG z) 1 0 = s.f (Reg.FUS_ZCFG z) 1 0 := fun z => by
    rw [f_of_reg (zcTold_reg s _ _ _)]
    all_goals
      simp only [Reg.FUS_ZCFG, Reg.FUS_STATUS, Reg.FUS_CNT, Reg.FUS_IRQ_STATUS]
      omega
  simp only [State.triacZones, hz, hc]

theorem zcLost_kept : GateKept s.zcTold s.zcLost := ungated_kept _ _

theorem zcLost_facts : s.zcLost.fb Reg.FUS_STATUS 0 = false ∧ s.zcLost.fus.on = s.fus.on ∧
    s.zcLost.fb Reg.FUS_IRQ_STATUS 3 = true ∧ s.zcLost.f Reg.FUS_CNT 31 16 = min 65535 (s.f Reg.FUS_CNT 31 16 + 1) ∧
    (∀ z ∈ s.triacZones, (s.zcLost.fusZone z).gate = []) ∧ s.zcLost.mem = s.mem ∧
    s.zcLost.sbx.raised = s.sbx.raised ++ [{ src := srcFUS, ev := 3, ts := s.now }] := by
  have hk := zcLost_kept s
  obtain ⟨h1, h2, h3, -⟩ := zcTold_status s
  obtain ⟨h4, h5, -, h6⟩ := zcTold_kept s
  refine ⟨(fb_of_regs hk.regs _ _).trans h1, ?_, (fb_of_regs hk.regs _ _).trans h2, (f_of_regs hk.regs _ _ _).trans h3,
    fun z hz => ?_, hk.mem.trans h4, ?_⟩
  · rw [hk.fus]
    change s.zcTold.fus.on = _
    rw [h5]
  · rw [zcLost_eq, zcTold_triac]
    exact ungated_gate _ hz
  · rw [hk.sbx]
    exact h6

/-! ### A mains cycle (R345, R346) -/

/-- The interval that ends at an edge of ZC, and the mean it gives. -/
def State.zcInterval (x e : Tick) : State :=
  let iv := ((x - e) :: s.fus.ivals).take 8
  let u := { s with fus := { s.fus with ivals := iv } }
  if iv.length = 8 then u.setReg Reg.FUS_MAINS (BitVec.ofNat 32 (iv.sum / 8)) else u

/-- What the interval does to ZC_OK. -/
def State.zcJudged (x e : Tick) : State :=
  let iv := ((x - e) :: s.fus.ivals).take 8
  let u := s.zcInterval x e
  if !zcRange (x - e) then u.zcLost
  else if iv.length = 8 && iv.all zcRange then u.setB Reg.FUS_STATUS 0 true else u

/-- The edge is the last one. -/
def State.zcBegun (x : Tick) : State := { s with fus := { s.fus with edge := some x, lost := false } }

/-- The cycle that begins with an edge. -/
def State.zcCycle (x : Tick) : State := if s.fb Reg.FUS_STATUS 0 then s.mainsCycle x else s.cycleChanges 0

theorem zcEdge_first {s : State} (x : Tick) (h : (s.applyAll [Reg.FUS_GATE, Reg.FUS_SEQ]).fus.edge = none) :
    s.zcEdge x = ((s.applyAll [Reg.FUS_GATE, Reg.FUS_SEQ]).zcBegun x).zcCycle x := by
  rw [State.zcEdge]
  simp only [h]
  rfl

theorem zcEdge_next {s : State} (x : Tick) {e : Tick} (h : (s.applyAll [Reg.FUS_GATE, Reg.FUS_SEQ]).fus.edge = some e) :
    s.zcEdge x = (((s.applyAll [Reg.FUS_GATE, Reg.FUS_SEQ]).zcJudged x e).zcBegun x).zcCycle x := by
  rw [State.zcEdge, State.zcCycle]
  generalize s.applyAll [Reg.FUS_GATE, Reg.FUS_SEQ] = u at *
  rw [State.zcJudged, State.zcInterval]
  simp only [h]
  rfl

theorem gateKept_place (x : Tick) (z : Nat) : GateKept s (s.placeGates x z) := by
  rw [State.placeGates]
  exact gateKept_modZone s z _

/-- The gates of a conducting zone, and what it has had of its demand. -/
theorem gateKept_placeGates (x : Tick) (z : Nat) : GateKept s ((s.modZone z fun y =>
    { y with acc := max (y.acc - 65536) (-65536) }).placeGates x z) :=
  (gateKept_modZone s z _).trans (gateKept_place _ x z)

/-- The zones of a mains cycle have their demand added and their gates placed. -/
def State.cycleZones (s : State) (x : Tick) (dem : Nat → Int) (zones on : List Nat) : State :=
  on.foldl (fun s z => (s.modZone z fun y => { y with acc := max (y.acc - 65536) (-65536) }).placeGates x z)
    (zones.foldl (fun s z => s.modZone z fun y => { y with acc := min (y.acc + dem z) 131072 }) s)

theorem cycleZones_kept (x : Tick) (dem : Nat → Int) (zones on : List Nat) : GateKept s (s.cycleZones x dem zones on) :=
  (GateKept.foldl (fun s z => gateKept_modZone s z _) zones s).trans
    (GateKept.foldl (fun s z => gateKept_placeGates s x z) on _)

theorem mainsCycle_eq (x : Tick) : ∃ (dem : Nat → Int) (zones on : List Nat) (n : Nat) (undone : Bool),
    s.mainsCycle x =
      (let u := { s.cycleZones x dem zones on with fus := { (s.cycleZones x dem zones on).fus with on := on } }.cycleChanges n
       if undone then (u.incSat Reg.FUS_CNT 15 0).fusIrq 4 else u) :=
  ⟨_, _, _, _, _, rfl⟩

theorem mainsCycle_kept (x : Tick) : (s.mainsCycle x).mem = s.mem ∧ (s.mainsCycle x).fus.edge = s.fus.edge ∧
    (s.mainsCycle x).fus.lost = s.fus.lost ∧
    ∀ a, a ≠ Reg.FUS_CNT → a ≠ Reg.FUS_IRQ_STATUS → (s.mainsCycle x).reg a = s.reg a := by
  obtain ⟨dem, zones, on, n, undone, he⟩ := mainsCycle_eq s x
  have hk := cycleZones_kept s x dem zones on
  rw [he]
  clear he
  generalize s.cycleZones x dem zones on = u at *
  have h1 : u.fus.edge = s.fus.edge := by rw [hk.fus]
  have h2 : u.fus.lost = s.fus.lost := by rw [hk.fus]
  dsimp only
  split
  · refine ⟨?_, ?_, ?_, fun a h3 h4 => ?_⟩
    · rw [State.fusIrq, setB_mem, State.incSat, setF_mem]
      exact hk.mem
    · rw [State.fusIrq, setB_fus, State.incSat, setF_fus]
      exact h1
    · rw [State.fusIrq, setB_fus, State.incSat, setF_fus]
      exact h2
    · rw [State.fusIrq, reg_setB_ne _ h4, reg_incSat_ne _ h3]
      exact reg_of_regs hk.regs a
  · exact ⟨hk.mem, h1, h2, fun a _ _ => reg_of_regs hk.regs a⟩

theorem zcCycle_kept (x : Tick) : (s.zcCycle x).mem = s.mem ∧ (s.zcCycle x).fus.edge = s.fus.edge ∧
    (s.zcCycle x).fus.lost = s.fus.lost := by
  rw [State.zcCycle]
  split
  · obtain ⟨h1, h2, h3, -⟩ := mainsCycle_kept s x
    exact ⟨h1, h2, h3⟩
  · exact ⟨rfl, rfl, rfl⟩

theorem zcCycle_begun {s v : State} (x : Tick) (h : v.mem = s.mem) : ((v.zcBegun x).zcCycle x).fus.edge = some x ∧
    ((v.zcBegun x).zcCycle x).fus.lost = false ∧ ((v.zcBegun x).zcCycle x).mem = s.mem := by
  obtain ⟨h1, h2, h3⟩ := zcCycle_kept (v.zcBegun x) x
  exact ⟨h2, h3, h1.trans h⟩

theorem zcInterval_kept (x e : Tick) : (s.zcInterval x e).mem = s.mem ∧ (s.zcInterval x e).fus.on = s.fus.on ∧
    (s.zcInterval x e).fus.changes = s.fus.changes := by
  rw [State.zcInterval]
  split <;> exact ⟨rfl, rfl, rfl⟩

theorem zcLost_other : s.zcLost.mem = s.mem ∧ s.zcLost.fus.on = s.fus.on ∧ s.zcLost.fus.changes = s.fus.changes := by
  have hk := zcLost_kept s
  obtain ⟨h4, h5, -⟩ := zcTold_kept s
  rw [hk.fus, h5]
  exact ⟨hk.mem.trans h4, rfl, rfl⟩

theorem zcJudged_mem (x e : Tick) : (s.zcJudged x e).mem = s.mem := by
  have h := (zcInterval_kept s x e).1
  rw [State.zcJudged]
  split
  · exact (zcLost_other _).1.trans h
  · split
    · exact (setB_mem _ _ _ _).trans h
    · exact h

theorem zcJudged_out {x e : Tick} (h : zcRange (x - e) = false) : s.zcJudged x e = (s.zcInterval x e).zcLost :=
  if_pos (by simp [h])

theorem zcJudged_ok {x e : Tick} (h : zcRange (x - e) = true) (h8 : s.fus.ivals.length = 8)
    (hall : ∀ d ∈ s.fus.ivals.take 7, zcRange d = true) : s.zcJudged x e =
      ({ s with fus := { s.fus with ivals := (x - e) :: s.fus.ivals.take 7 } }.setReg Reg.FUS_MAINS
        (BitVec.ofNat 32 ((x - e + (s.fus.ivals.take 7).sum) / 8))).setB Reg.FUS_STATUS 0 true := by
  have hiv : ((x - e) :: s.fus.ivals).take 8 = (x - e) :: s.fus.ivals.take 7 := rfl
  have hlen : ((x - e) :: s.fus.ivals.take 7).length = 8 := by simp [h8]
  have hr : ((x - e) :: s.fus.ivals.take 7).all zcRange = true := by
    rw [List.all_cons, h, Bool.true_and, List.all_eq_true]
    exact hall
  rw [State.zcJudged, State.zcInterval]
  simp only [hiv, hlen, hr, h, List.sum_cons, decide_true, Bool.and_self, Bool.not_true, if_true, Bool.false_eq_true, if_false]

/-- An edge without ZC_OK begins a cycle in which no zone changes. -/
theorem zcCycle_idle {v : State} (x : Tick) (h : v.fb Reg.FUS_STATUS 0 = false) :
    (v.zcBegun x).zcCycle x = (v.zcBegun x).cycleChanges 0 := if_neg (by rw [show (v.zcBegun x).fb Reg.FUS_STATUS 0 = false from h]; decide)

end

/-- An edge of ZC (R345). -/
theorem zcEdge_facts (s : State) (x : Tick) :
    let u := s.applyAll [Reg.FUS_GATE, Reg.FUS_SEQ]
    let v := s.zcEdge x
    v.fus.edge = some x ∧ v.fus.lost = false ∧ v.mem = s.mem ∧
    (u.fus.edge = none → u.fb Reg.FUS_STATUS 0 = false → v.regs = u.regs ∧ v.fus.on = u.fus.on ∧
      v.fus.changes = (0 :: u.fus.changes).take 63) ∧
    ∀ e, u.fus.edge = some e →
      (zcRange (x - e) = false → v.fb Reg.FUS_STATUS 0 = false ∧ v.fb Reg.FUS_IRQ_STATUS 3 = true ∧
        v.fus.on = u.fus.on ∧ v.fus.changes = (0 :: u.fus.changes).take 63) ∧
      (zcRange (x - e) = true → u.fus.ivals.length = 8 → (∀ d ∈ u.fus.ivals.take 7, zcRange d = true) →
        ∃ y : State, v = y.mainsCycle x ∧ v.fb Reg.FUS_STATUS 0 = true ∧
          v.reg Reg.FUS_MAINS = BitVec.ofNat 32 ((x - e + (u.fus.ivals.take 7).sum) / 8)) := by
  have hfirst := zcEdge_first (s := s) x
  have hnext := fun e => zcEdge_next (s := s) x (e := e)
  have hmem := (applyAll_kept s [Reg.FUS_GATE, Reg.FUS_SEQ]).2.2.2
  dsimp only
  generalize s.applyAll [Reg.FUS_GATE, Reg.FUS_SEQ] = u at *
  have hall : (s.zcEdge x).fus.edge = some x ∧ (s.zcEdge x).fus.lost = false ∧ (s.zcEdge x).mem = s.mem := by
    cases he : u.fus.edge with
    | none =>
      rw [hfirst he]
      exact zcCycle_begun x hmem
    | some e =>
      rw [hnext e he]
      exact zcCycle_begun x ((zcJudged_mem u x e).trans hmem)
  obtain ⟨a1, a2, a3⟩ := hall
  refine ⟨a1, a2, a3, fun he h0 => ?_, fun e he => ⟨fun hr => ?_, fun hr h8 h7 => ?_⟩⟩
  · rw [hfirst he, zcCycle_idle x h0]
    exact ⟨rfl, rfl, rfl⟩
  · obtain ⟨-, i2, i3⟩ := zcInterval_kept u x e
    obtain ⟨l1, -, l3, -⟩ := zcLost_facts (u.zcInterval x e)
    obtain ⟨-, o2, o3⟩ := zcLost_other (u.zcInterval x e)
    rw [hnext e he, zcJudged_out u hr]
    generalize (u.zcInterval x e).zcLost = w at *
    rw [zcCycle_idle x l1]
    refine ⟨l1, l3, o2.trans i2, ?_⟩
    rw [← i3, ← o3]
    rfl
  · rw [hnext e he, zcJudged_ok u hr h8 h7]
    have hone : ∀ w : State, ((w.setB Reg.FUS_STATUS 0 true).zcBegun x).fb Reg.FUS_STATUS 0 = true := fun w =>
      fb_setB_self w _ (by decide) _
    have hmains : ∀ (w : State) (v : Word), (((w.setReg Reg.FUS_MAINS v).setB Reg.FUS_STATUS 0 true).zcBegun x).reg
        Reg.FUS_MAINS = v := fun w v => (reg_setB_ne _ (by decide) _ _).trans (reg_setReg_self w _ _)
    obtain ⟨-, -, -, k⟩ := mainsCycle_kept ((({ u with fus := { u.fus with ivals := (x - e) :: u.fus.ivals.take 7 } }.setReg
      Reg.FUS_MAINS (BitVec.ofNat 32 ((x - e + (u.fus.ivals.take 7).sum) / 8))).setB Reg.FUS_STATUS 0 true).zcBegun x) x
    rw [State.zcCycle, if_pos (hone _)]
    refine ⟨_, rfl, ?_, ?_⟩
    · rw [fb_of_reg (k _ (by decide) (by decide))]
      exact hone _
    · rw [k _ (by decide) (by decide)]
      exact hmains _ _

/-! ### Samples of ball ZC (R345, R353) -/

/-- A run of samples long enough for the filter changes the input at its first sample. -/
theorem changes_run {x : InFilter} {filt n : Nat} {v : Bool} (period start : Nat) (hnew : x.raw ≠ v ∨ x.run = 0)
    (hn : filt < n) : (x.changes filt period (!v) start [(v, n)]).2 = [(v, start)] := by
  have hold : (if x.raw = v then x.run else 0) = 0 := by
    rcases hnew with h | h
    · exact if_neg h
    · rw [h, ite_self]
  have hne : (v ≠ !v ∧ filt < n) := ⟨by cases v <;> decide, hn⟩
  rw [InFilter.changes, InFilter.stretch]
  simp only [hold, Nat.sub_zero, Nat.zero_add, if_pos hne, InFilter.changes, Nat.add_sub_cancel]

/-- The filter after the samples of ball ZC. -/
def State.zcFiltered (s : State) (ls : List (Bool × Nat)) : State :=
  { s with fus := { s.fus with zc :=
    { (s.fus.zc.changes (s.f Reg.FUS_ZC 15 0) 32 (s.fus.zc.level.getD false) (firstSample 32 s.clk.tb ls) ls).1 with
      level := (((s.fus.zc.changes (s.f Reg.FUS_ZC 15 0) 32 (s.fus.zc.level.getD false) (firstSample 32 s.clk.tb ls)
        ls).2.getLast?.map (·.1)).or s.fus.zc.level) } } }

theorem zcSamples_eq (s : State) (ls : List (Bool × Nat)) : s.zcSamples ls =
    (s.fus.zc.changes (s.f Reg.FUS_ZC 15 0) 32 (s.fus.zc.level.getD false) (firstSample 32 s.clk.tb ls) ls).2.foldl
      (fun s c => if c.1 == s.fb Reg.FUS_ZC 16 then s else s.zcEdge c.2) (s.zcFiltered ls) := rfl

theorem zcSamples_run {u : State} {v : Bool} {n : Nat} (hnew : u.fus.zc.raw ≠ v ∨ u.fus.zc.run = 0)
    (hlev : u.fus.zc.level.getD false = !v) (hn : u.f Reg.FUS_ZC 15 0 < n) :
    ∃ y : State, y.regs = u.regs ∧ y.mem = u.mem ∧ y.fus = { u.fus with zc := y.fus.zc } ∧ y.fus.zc.level = some v ∧
      u.zcSamples [(v, n)] =
        if v = u.fb Reg.FUS_ZC 16 then y else y.zcEdge (firstSample 32 u.clk.tb [(v, n)]) := by
  have hch := changes_run 32 (firstSample 32 u.clk.tb [(v, n)]) hnew hn
  refine ⟨u.zcFiltered [(v, n)], rfl, rfl, rfl, ?_, ?_⟩
  · rw [State.zcFiltered, hlev]
    dsimp only
    rw [hch]
    rfl
  · rw [zcSamples_eq, hlev, hch, List.foldl_cons, List.foldl_nil]
    simp only [beq_iff_eq]
    rfl

section
variable {s : State} {t : Tick}

theorem exec_zcOff (ls : List (Bool × Nat)) (h : (s.at t).fusOn = false) : exec (.zcEdge t ls) s = .next (s.at t) ∧
    exec (.zcLoss t) s = .next (s.at t) := by
  change execZcEdge t ls s = _ ∧ execZcLoss t s = _
  rw [execZcEdge, execZcLoss]
  generalize s.at t = u at *
  refine ⟨if_neg (by simp [h]), ?_⟩
  cases u.fus.edge with
  | none => rfl
  | some e => exact if_neg (by simp [h])

theorem exec_zcEdge (ls : List (Bool × Nat)) (h : (s.at t).fusOn = true) :
    exec (.zcEdge t ls) s = .next ((s.at t).zcSamples ls) := by
  change execZcEdge t ls s = _
  rw [execZcEdge]
  exact if_pos h

theorem exec_zcLoss_none (h : (s.at t).fus.edge = none) : exec (.zcLoss t) s = .next (s.at t) := by
  change execZcLoss t s = _
  rw [execZcLoss]
  generalize s.at t = u at *
  simp only [h]

theorem exec_zcLoss {e : Tick} (hon : (s.at t).fusOn = true) (h : (s.at t).fus.edge = some e) : exec (.zcLoss t) s =
    if (s.at t).fus.lost = false ∧ (s.at t).fus.ivals.length = 8 ∧
      e + 2 * ((s.at t).reg Reg.FUS_MAINS).toNat ≤ (s.at t).clk.tb then
      .next ({ (s.at t) with fus := { (s.at t).fus with lost := true } }.zcLost) else .next (s.at t) := by
  change execZcLoss t s = _
  rw [execZcLoss]
  generalize s.at t = u at *
  simp only [h, hon, Bool.true_and, Bool.and_eq_true, Bool.not_eq_true', decide_eq_true_eq, and_assoc]

end

/-! ### The conducting set (R346) -/

theorem mem_insertBy {key : Nat → Int} {z y : Nat} {l : List Nat} (h : y ∈ insertBy key z l) : y = z ∨ y ∈ l := by
  induction l with
  | nil => exact Or.inl (List.mem_singleton.1 h)
  | cons x l ih =>
    rw [insertBy] at h
    split at h
    · exact List.mem_cons.1 h
    · rcases List.mem_cons.1 h with h | h
      · exact Or.inr (by simp [h])
      · rcases ih h with h | h
        · exact Or.inl h
        · exact Or.inr (by simp [h])

theorem mem_sortBy {key : Nat → Int} {y : Nat} {l : List Nat} (h : y ∈ sortBy key l) : y ∈ l := by
  have hinv : ∀ z ∈ sortBy key l, z ∈ l := by
    refine foldl_invariant (P := fun xs : List Nat => ∀ z ∈ xs, z ∈ l) (fun xs z hz ih y hy => ?_)
      (fun z hz => absurd hz List.not_mem_nil)
    rcases mem_insertBy hy with hy | hy
    · rw [hy]
      exact hz
    · exact ih y hy
  exact hinv y h

/-- A zone joins while the budget and MAX_ON leave room. -/
def joinZone (maxOn : Nat) (a : List Nat × Nat) (z : Nat) : List Nat × Nat :=
  if 0 < a.2 && a.1.length < maxOn then (a.1 ++ [z], a.2 - 1) else a

/-- A zone leaves while the budget lasts. -/
def leaveZone (a : List Nat × Nat) (z : Nat) : List Nat × Nat := if 0 < a.2 then (a.1.erase z, a.2 - 1) else a

theorem joinAll_facts (maxOn : Nat) (l : List Nat) (a : List Nat × Nat) :
    (l.foldl (joinZone maxOn) a).1.length ≤ max maxOn a.1.length ∧ ∀ z ∈ (l.foldl (joinZone maxOn) a).1, z ∈ a.1 ∨ z ∈ l := by
  refine foldl_invariant (P := fun b : List Nat × Nat => b.1.length ≤ max maxOn a.1.length ∧ ∀ z ∈ b.1, z ∈ a.1 ∨ z ∈ l)
    (fun b z hz ih => ?_) ⟨le_max_right _ _, fun z hz => Or.inl hz⟩
  rw [joinZone]
  split
  · next h =>
    have hroom : b.1.length < maxOn := by
      simp only [Bool.and_eq_true, decide_eq_true_eq] at h
      exact h.2
    refine ⟨?_, fun y hy => ?_⟩
    · rw [List.length_append, List.length_singleton]
      exact le_trans hroom (le_max_left _ _)
    · rcases List.mem_append.1 hy with hy | hy
      · exact ih.2 y hy
      · rw [List.mem_singleton.1 hy]
        exact Or.inr hz
  · exact ih

theorem leaveAll_facts (l : List Nat) (a : List Nat × Nat) :
    (l.foldl leaveZone a).1.length ≤ a.1.length ∧ ∀ z ∈ (l.foldl leaveZone a).1, z ∈ a.1 := by
  refine foldl_invariant (P := fun b : List Nat × Nat => b.1.length ≤ a.1.length ∧ ∀ z ∈ b.1, z ∈ a.1)
    (fun b z _ ih => ?_) ⟨le_refl _, fun z hz => hz⟩
  rw [leaveZone]
  split
  · exact ⟨le_trans List.length_erase_le ih.1, fun y hy => ih.2 y (List.mem_of_mem_erase hy)⟩
  · exact ih

/-- The zones that a cycle wants, by their accumulated demand. -/
def conductWant (acc : Nat → Int) (zones : List Nat) (maxOn : Nat) : List Nat :=
  (sortBy (fun z => -acc z) (zones.filter fun z => decide (65536 ≤ acc z))).take maxOn

/-- The zones of the last set that still are TRIAC zones in RUN. -/
def conductKept (zones prev : List Nat) : List Nat := prev.filter fun z => zones.contains z

/-- The zones that may join, in their order. -/
def conductJoins (acc : Nat → Int) (zones prev : List Nat) (maxOn : Nat) : List Nat :=
  sortBy (fun z => -acc z) (zones.filter fun z =>
    (conductWant acc zones maxOn).contains z && !(conductKept zones prev).contains z)

/-- The set is what is left of the zones that joined. -/
theorem conduct_eq (acc : Nat → Int) (zones prev : List Nat) (maxOn step left : Nat) : ∃ leaves : List Nat,
    (conduct acc zones prev maxOn step left).1 = (leaves.foldl leaveZone
      ((conductJoins acc zones prev maxOn).foldl (joinZone maxOn) (conductKept zones prev, min step left))).1 := ⟨_, rfl⟩

theorem mem_conductJoins {acc : Nat → Int} {zones prev : List Nat} {maxOn z : Nat}
    (h : z ∈ conductJoins acc zones prev maxOn) : z ∈ zones ∧ 65536 ≤ acc z := by
  obtain ⟨h1, h2⟩ := List.mem_filter.1 (mem_sortBy h)
  rw [Bool.and_eq_true, List.contains_iff_mem] at h2
  have h3 := (List.mem_filter.1 (mem_sortBy (List.mem_of_mem_take h2.1))).2
  exact ⟨h1, by simpa using h3⟩

theorem conduct_facts (acc : Nat → Int) (zones prev : List Nat) (maxOn step left : Nat) :
    let r := conduct acc zones prev maxOn step left
    r.1.length ≤ max maxOn prev.length ∧ (∀ z ∈ r.1, z ∈ zones) ∧ (∀ z ∈ r.1, z ∉ prev → 65536 ≤ acc z) := by
  obtain ⟨leaves, hr⟩ := conduct_eq acc zones prev maxOn step left
  obtain ⟨j1, j2⟩ := joinAll_facts maxOn (conductJoins acc zones prev maxOn) (conductKept zones prev, min step left)
  obtain ⟨l1, l2⟩ := leaveAll_facts leaves
    ((conductJoins acc zones prev maxOn).foldl (joinZone maxOn) (conductKept zones prev, min step left))
  have hkept : (conductKept zones prev).length ≤ prev.length := List.length_filter_le _ _
  dsimp only
  rw [hr]
  refine ⟨(l1.trans j1).trans (max_le_max_left _ hkept), fun z hz => ?_, fun z hz hp => ?_⟩
  · rcases j2 z (l2 z hz) with h | h
    · simpa using (List.mem_filter.1 h).2
    · exact (mem_conductJoins h).1
  · rcases j2 z (l2 z hz) with h | h
    · exact absurd (List.mem_filter.1 h).1 hp
    · exact (mem_conductJoins h).2

/-! ### The cut-off (R351) -/

theorem fusBits_fuserCauses (s : State) (p : Sheet → Option Nat) : FusBits s (s.fuserCauses p) := by
  refine FusBits.foldl (fun s q => ?_) _ s
  split
  · split
    · refine FusBits.trans ?_ (fusBits_cause _ _ _ _)
      refine FusBits.trans (fun a _ _ i h _ => ?_) (fusBits_raise _ _ _)
      rw [State.fusIrq]
      by_cases ha : a = Reg.FUS_IRQ_STATUS
      · rw [ha, fb_setB_bit _ (by decide) (by omega)]
      · rw [fb_setB_ne _ ha]
    · exact .refl s
  · exact .refl s

theorem leaveRun_comparator (s : State) (z n : Nat) {i : Nat} (h : 8 ≤ i) (h' : i < 16) :
    (s.leaveRun z n).fb Reg.FUS_STATUS i = s.fb Reg.FUS_STATUS i := by
  have h1 : Reg.FUS_STATUS ≠ Reg.FUS_DEMAND z := by simp only [Reg.FUS_STATUS, Reg.FUS_DEMAND]; omega
  have h2 : Reg.FUS_STATUS ≠ Reg.FUS_ZSTATE z := by simp only [Reg.FUS_STATUS, Reg.FUS_ZSTATE]; omega
  rw [leaveRun_eq, fusBits_fuserCauses _ _ _ (by decide) (by decide) i h h', State.runLeft, fb_modZone, fb_setF_ne _ h1,
    fb_setF_ne _ h2]

theorem otCut_facts (s : State) {z : Nat} (hz : z < 8) :
    (s.otCut z).fusCut = true ∧ (s.otCut z).fb Reg.FUS_STATUS (8 + z) = true := by
  rw [State.otCut]
  have hreg : ∀ (l : List Nat) (w : State), (l.foldl (fun s z => s.setF (Reg.FUS_ZSTATE z) 1 0 zCUT) w).reg Reg.FUS_STATUS =
      w.reg Reg.FUS_STATUS := fun l w =>
    foldl_invariant (P := fun v : State => v.reg Reg.FUS_STATUS = w.reg Reg.FUS_STATUS)
      (fun v y _ hv => (reg_setF_ne v (by simp only [Reg.FUS_STATUS, Reg.FUS_ZSTATE]; omega) _ _ _).trans hv) rfl
  have hfold : ∀ (l : List Nat) (w : State), (l.foldl (fun s y => s.leaveRun y zCUT) w).fb Reg.FUS_STATUS (8 + z) =
      w.fb Reg.FUS_STATUS (8 + z) := fun l w =>
    foldl_invariant (P := fun v : State => v.fb Reg.FUS_STATUS (8 + z) = w.fb Reg.FUS_STATUS (8 + z))
      (fun v y _ hv => (leaveRun_comparator v y zCUT (by omega) (by omega)).trans hv) rfl
  refine ⟨?_, ?_⟩
  · rw [State.fusCut, fb_of_reg (hreg _ _), fb_setB_self _ _ (by decide)]
  · rw [fb_of_reg (hreg _ _), fb_setB_bit _ (by decide) (by omega), hfold, fb_raise, State.fusIrq, fb_setB_ne _ (by decide),
      fb_of_reg ((ldgRecord_kept _ _ _ _ _).2.2 _ (by decide)), fb_setB_self _ _ (by omega)]

theorem exec_otSample {s : State} {t : Tick} {z : Fin 8} {code : BitVec 12} : exec (.otSample t z code) s =
    (let u := s.at t
     let th := u.f (Reg.FUS_OT z) 11 0
     if u.fb (Reg.FUS_OT z) 13 = true ∧ (if u.fb (Reg.FUS_OT z) 12 then code.toNat ≤ th else th ≤ code.toNat) then
       let w := u.modZone z fun x => { x with ot := min 64 ((u.fusZone z).ot + 1) }
       if (u.fusZone z).ot + 1 = 64 then .next (w.otCut z) else .next w
     else .next (u.modZone z fun x => { x with ot := 0 })) := by
  change execOtSample t z code s = _
  rw [execOtSample]
  generalize s.at t = u at *
  refine if_congr ?_ rfl rfl
  rw [Bool.and_eq_true]
  refine and_congr_right fun _ => ?_
  split <;> exact decide_eq_true_iff

/-- Settles O43: commands by the zone's state, the control period by zones one after another, an edge of ZC by the interval
it ends, the conducting set by who joins and leaves it, and the cut by the latch, which no cause touches. -/
theorem fuserAndMains : Obligations.FuserAndMains := by
  refine ⟨⟨fun s t z => ?_, fun s t k i a => ⟨exec_setpoint, exec_fusTtOn, exec_fusTtOff⟩, fun s t => ⟨fun h => ?_, ?_⟩,
    fun s z temp _ hda => zoneControl_facts s z temp hda⟩, fun s t ls => ?_, zcLost_facts, zcEdge_facts, conduct_facts,
    fun s t z code => ?_⟩
  · dsimp only
    intro hon
    obtain ⟨x1, x2, x3⟩ := exec_zoneCommands (z := z) hon
    generalize s.at t = u at *
    rw [x1, x2, x3]
    refine ⟨fun h => by rw [zoneOn_busy h], fun h hr => by rw [zoneOn_refused h hr], fun h hc hs => ?_,
      fun h => by rw [zoneOff_still h], fun h => ?_, fun h hs => ?_, fun h => by rw [zoneClear_still h]⟩
    · refine ⟨_, congrArg Host.Outcome.next (zoneOn_runs h hc hs), ?_, ?_, ?_, rfl, fun a ha => reg_setF_ne _ ha _ _ _⟩
      · rw [zState_modZone]
        exact zState_setF u (zState_uncut u h (by decide)).1 (by decide)
      · rw [fusZone_modZone_self]
      · rw [fusZone_modZone_self]
    · obtain ⟨r1, r2, r3, r4⟩ := runLeft_facts h
      exact ⟨_, congrArg Host.Outcome.next (zoneOff_runs h), r1, r2, r3, rfl, r4⟩
    · exact ⟨_, congrArg Host.Outcome.next (zoneClear_clears h hs), zState_setF u (zState_uncut u h (by decide)).1 (by decide),
        rfl, fun a ha => reg_setF_ne _ ha _ _ _⟩
  · rw [exec_fuserControlPeriod, if_pos h]
  · exact controlPeriod_facts
  · dsimp only
    refine ⟨exec_zcOff ls, fun hon => ⟨exec_zcEdge ls hon, ?_, fun e he => ⟨fun h => ?_, fun h => ?_⟩⟩, exec_zcLoss_none⟩
    · rintro v n rfl hnew hlev hn
      exact zcSamples_run hnew hlev hn
    · rw [exec_zcLoss hon he, if_pos h]
    · rw [exec_zcLoss hon he, if_neg h]
  · have hx := exec_otSample (s := s) (t := t) (z := z) (code := code)
    dsimp only at hx ⊢
    rw [hx]
    clear hx
    generalize s.at t = u at *
    refine ⟨fun h => if_neg h, fun h hlt => ?_, fun h he => ?_⟩
    · rw [if_pos h, if_neg (by omega), Nat.min_eq_right (by omega)]
    · rw [if_pos h, if_pos (by omega)]
      obtain ⟨c1, c2⟩ := otCut_facts (u.modZone z fun x => { x with ot := min 64 ((u.fusZone z).ot + 1) }) z.isLt
      exact ⟨_, rfl, c1, c2, by rw [State.otcutBall, c1]; rfl, fun y _ => ⟨if_pos c1, if_pos c1⟩⟩

end Sys2Proof.Machine
end

section
/-! Sense inputs, arrival windows and general outputs (R353–R355). -/

namespace Sys2Proof.Machine

/-! ### The filter (R353) -/

theorem changes_short {f : InFilter} {filt n : Nat} {v : Bool} (period start : Nat) (hnew : f.raw ≠ v ∨ f.run = 0) (hn : n ≤ filt) :
    (f.changes filt period (!v) start [(v, n)]).2 = [] := by
  have hold : (if f.raw = v then f.run else 0) = 0 := by
    rcases hnew with h | h
    · exact if_neg h
    · rw [h, ite_self]
  have hne : ¬ (v ≠ !v ∧ filt < n) := fun h => absurd h.2 (Nat.not_lt.mpr hn)
  rw [InFilter.changes, InFilter.stretch]
  simp only [hold, Nat.sub_zero, if_neg hne, InFilter.changes]

theorem changes_same (f : InFilter) (filt period start n : Nat) (v : Bool) :
    (f.changes filt period v start [(v, n)]).2 = [] := by
  have hne : ∀ j, ¬ (v ≠ v ∧ j < n) := fun j h => h.1 rfl
  rw [InFilter.changes, InFilter.stretch]
  simp only [if_neg (hne _), InFilter.changes]

/-! ### Samples of an input (R353) -/

/-- The input after the filter of its samples. -/
def State.senseFiltered (s : State) (n : Nat) (ls : List (Bool × Nat)) : State :=
  { s with sns := { s.sns with inp := Tab.put {} s.sns.inp n ((Tab.get {} s.sns.inp n).changes (s.f (Reg.SNS_IN_CFG n) 15 0) 32
      (s.fb (Reg.SNS_IN_STATE n) 0 != s.fb (Reg.SNS_IN_CFG n) 16) (firstSample 32 s.clk.tb ls) ls).1 } }

theorem senseSamples_eq (s : State) (n : Nat) (ls : List (Bool × Nat)) : s.senseSamples n ls =
    ((Tab.get {} s.sns.inp n).changes (s.f (Reg.SNS_IN_CFG n) 15 0) 32
      (s.fb (Reg.SNS_IN_STATE n) 0 != s.fb (Reg.SNS_IN_CFG n) 16) (firstSample 32 s.clk.tb ls) ls).2.foldl
      (fun v c => v.senseEdge n (c.1 != s.fb (Reg.SNS_IN_CFG n) 16) c.2) (s.senseFiltered n ls) := rfl

theorem senseSamples_run {u : State} {n m : Nat} {v : Bool}
    (hnew : (Tab.get {} u.sns.inp n).raw ≠ v ∨ (Tab.get {} u.sns.inp n).run = 0) :
    u.senseSamples n [(v, m)] =
      if u.fb (Reg.SNS_IN_STATE n) 0 = (!(v != u.fb (Reg.SNS_IN_CFG n) 16)) ∧ u.f (Reg.SNS_IN_CFG n) 15 0 < m then
        (u.senseFiltered n [(v, m)]).senseEdge n (v != u.fb (Reg.SNS_IN_CFG n) 16) (firstSample 32 u.clk.tb [(v, m)])
      else u.senseFiltered n [(v, m)] := by
  rw [senseSamples_eq]
  generalize u.senseFiltered n [(v, m)] = y
  generalize u.fb (Reg.SNS_IN_CFG n) 16 = low
  by_cases hl : u.fb (Reg.SNS_IN_STATE n) 0 = (!(v != low))
  · have hnow : (u.fb (Reg.SNS_IN_STATE n) 0 != low) = !v := by
      rw [hl]
      cases v <;> cases low <;> rfl
    rw [hnow]
    by_cases hm : u.f (Reg.SNS_IN_CFG n) 15 0 < m
    · rw [changes_run _ _ hnew hm, if_pos ⟨hl, hm⟩]
      rfl
    · rw [changes_short _ _ hnew (Nat.le_of_not_lt hm), if_neg fun h => hm h.2]
      rfl
  · have hnow : (u.fb (Reg.SNS_IN_STATE n) 0 != low) = v := by
      revert hl
      cases u.fb (Reg.SNS_IN_STATE n) 0 <;> cases v <;> cases low <;> simp
    rw [hnow, changes_same, if_neg fun h => hl h.1]
    rfl

theorem exec_senseEdge {s : State} {t : Tick} {n : Fin 96} {z : Bool × Nat} {ls : List (Bool × Nat)} :
    exec (.senseEdge t n z ls) s =
      if (s.at t).snsOn = true then .next ((s.at t).senseSamples n (z :: ls)) else .next (s.at t) := by
  change execSenseEdge t n z ls s = _
  rw [execSenseEdge]

/-! ### An accepted edge and the windows (R353, R354) -/

/-- The level, the count and the time that an accepted edge leaves. -/
def State.edgeSeen (s : State) (n : Nat) (lead : Bool) (x : Nat) : State :=
  let s := (s.setB (Reg.SNS_IN_STATE n) 0 lead).incSat (Reg.SNS_IN_STATE n) 31 16
  if lead then s.setPair (Reg.SNS_TS_LEAD_LO n) (Reg.SNS_TS_LEAD_HI n) x
  else s.setPair (Reg.SNS_TS_TRAIL_LO n) (Reg.SNS_TS_TRAIL_HI n) x

theorem senseEdge_eq (s : State) (n : Nat) (lead : Bool) (x : Nat) : s.senseEdge n lead x =
    if lead then ((s.edgeSeen n lead x).matchEdge n (!lead) x).limitActivate n
    else (s.edgeSeen n lead x).matchEdge n (!lead) x := rfl

/-- The pair of registers that a time below 2^64 is written to. -/
theorem pair_setPair (s : State) {lo hi x : Nat} (h : lo ≠ hi) (hx : x < 2 ^ 64) : (s.setPair lo hi x).pair lo hi = x := by
  have hx' : x < 18446744073709551616 := hx
  rw [State.pair, State.setPair, reg_setReg_ne _ h, reg_setReg_self, reg_setReg_self, BitVec.toNat_ofNat, BitVec.toNat_ofNat]
  simp only [Nat.reducePow]
  omega

theorem edgeSeen_facts (u : State) (n : Nat) (lead : Bool) {x : Nat} (hx : x < 2 ^ 64) :
    let v := u.edgeSeen n lead x
    v.fb (Reg.SNS_IN_STATE n) 0 = lead ∧ v.mem = u.mem ∧
    v.f (Reg.SNS_IN_STATE n) 31 16 = min 65535 (u.f (Reg.SNS_IN_STATE n) 31 16 + 1) ∧
    (lead = true → v.pair (Reg.SNS_TS_LEAD_LO n) (Reg.SNS_TS_LEAD_HI n) = x) ∧
    (lead = false → v.pair (Reg.SNS_TS_TRAIL_LO n) (Reg.SNS_TS_TRAIL_HI n) = x) ∧ v.sns = u.sns := by
  have h1 : Reg.SNS_IN_STATE n ≠ Reg.SNS_TS_LEAD_LO n := by simp only [Reg.SNS_IN_STATE, Reg.SNS_TS_LEAD_LO]; omega
  have h2 : Reg.SNS_IN_STATE n ≠ Reg.SNS_TS_LEAD_HI n := by simp only [Reg.SNS_IN_STATE, Reg.SNS_TS_LEAD_HI]; omega
  have h3 : Reg.SNS_IN_STATE n ≠ Reg.SNS_TS_TRAIL_LO n := by simp only [Reg.SNS_IN_STATE, Reg.SNS_TS_TRAIL_LO]; omega
  have h4 : Reg.SNS_IN_STATE n ≠ Reg.SNS_TS_TRAIL_HI n := by simp only [Reg.SNS_IN_STATE, Reg.SNS_TS_TRAIL_HI]; omega
  have h5 : Reg.SNS_TS_LEAD_LO n ≠ Reg.SNS_TS_LEAD_HI n := by simp only [Reg.SNS_TS_LEAD_LO, Reg.SNS_TS_LEAD_HI]; omega
  have h6 : Reg.SNS_TS_TRAIL_LO n ≠ Reg.SNS_TS_TRAIL_HI n := by simp only [Reg.SNS_TS_TRAIL_LO, Reg.SNS_TS_TRAIL_HI]; omega
  have hw : ∀ w, w = (u.setB (Reg.SNS_IN_STATE n) 0 lead).incSat (Reg.SNS_IN_STATE n) 31 16 →
      w.fb (Reg.SNS_IN_STATE n) 0 = lead ∧ w.mem = u.mem ∧
      w.f (Reg.SNS_IN_STATE n) 31 16 = min 65535 (u.f (Reg.SNS_IN_STATE n) 31 16 + 1) ∧ w.sns = u.sns := by
    rintro w rfl
    refine ⟨?_, ?_, ?_, ?_⟩
    · rw [State.incSat, fb_setF_field _ (by decide) (by decide) (by decide), fb_setB_self _ _ (by decide)]
    · rw [State.incSat, setF_mem, setB_mem]
    · rw [f_incSat_self _ _ (by decide) (by decide), f_setB_field _ (by decide) (by decide)]
      exact satAdd_one (f_lt _ _ 31 16)
    · rw [State.incSat, setF_sns, setB_sns]
  obtain ⟨w1, w2, w3, w4⟩ := hw _ rfl
  rw [State.edgeSeen]
  generalize (u.setB (Reg.SNS_IN_STATE n) 0 lead).incSat (Reg.SNS_IN_STATE n) 31 16 = w at *
  cases lead with
  | true =>
    simp only [if_true]
    refine ⟨?_, w2, ?_, fun _ => pair_setPair w h5 hx, fun h => absurd h (by decide), w4⟩
    · rw [State.setPair, fb_setReg_ne _ h2, fb_setReg_ne _ h1, w1]
    · rw [State.setPair, f_setReg_ne _ h2, f_setReg_ne _ h1, w3]
  | false =>
    simp only [Bool.false_eq_true, if_false]
    refine ⟨?_, w2, ?_, fun h => absurd h (by decide), fun _ => pair_setPair w h6 hx, w4⟩
    · rw [State.setPair, fb_setReg_ne _ h4, fb_setReg_ne _ h3, w1]
    · rw [State.setPair, f_setReg_ne _ h4, f_setReg_ne _ h3, w3]

section
variable {s : State} {n : Nat} {trail : Bool} {x : Tick}

theorem matchEdge_none (h : s.sns.win = []) : s.matchEdge n trail x = s := by
  rw [State.matchEdge, h]
  rfl

variable {w : SnsWin} (h : s.sns.win = [w]) (hn : w.input = n) (ht : w.trail = trail)
include h hn ht

/-- The one open window of the input is one of the edge's kind. -/
theorem matchEdge_one : s.matchEdge n trail x =
    if w.start ≤ x ∧ x < w.stop then { s with sns := { s.sns with win := [] } }.setF (Reg.SNS_IN_STATE n) 5 4 1
    else if w.start ≤ x + w.guard ∧ x < w.start then s.windowMissed w false else s := by
  have hmine : [w].filter (fun y => y.input == n && y.trail == trail) = [w] := by simp [hn, ht]
  have he : [w].erase w = [] := by simp
  rw [State.matchEdge]
  simp only [h, hmine, List.find?_cons, List.find?_nil]
  by_cases h1 : w.start ≤ x ∧ x < w.stop
  · simp [h1]
  · rw [if_neg h1]
    have hb : (decide (w.start ≤ x) && decide (x < w.stop)) = false := by simpa using h1
    simp only [hb]
    by_cases h2 : w.start ≤ x + w.guard ∧ x < w.start
    · simp [h2]
    · rw [if_neg h2]
      have hb2 : (decide (w.start ≤ x + w.guard) && decide (x < w.start)) = false := by simpa using h2
      simp only [hb2]

end

/-! ### The end of a window, and WINDOW (R354) -/

section
variable {s : State} {t : Tick} {n : Fin 96} (hon : (s.at t).snsOn = true)
include hon

theorem exec_windowLateExpiry_none (h : (s.at t).sns.win = []) : exec (.windowLateExpiry t n) s = .next (s.at t) := by
  change execWindowLateExpiry t n s = _
  rw [execWindowLateExpiry]
  generalize s.at t = u at *
  refine (if_pos hon).trans ?_
  rw [h]
  rfl

theorem exec_windowLateExpiry_one {w : SnsWin} (h : (s.at t).sns.win = [w]) (hn : w.input = n) :
    exec (.windowLateExpiry t n) s =
      if w.stop + ((s.at t).f (Reg.SNS_IN_CFG n) 15 0 + 1) * 32 ≤ (s.at t).clk.tb then .next ((s.at t).windowMissed w true)
      else .next (s.at t) := by
  change execWindowLateExpiry t n s = _
  rw [execWindowLateExpiry]
  generalize s.at t = u at *
  refine (if_pos hon).trans ?_
  rw [h, State.snsDelay]
  by_cases hd : w.stop + (u.f (Reg.SNS_IN_CFG n) 15 0 + 1) * 32 ≤ u.clk.tb
  · rw [if_pos hd, List.filter_cons_of_pos (by simp [hn, hd]), List.filter_nil, List.foldl_cons, List.foldl_nil, h,
      if_pos (by simp)]
  · rw [if_neg hd, List.filter_cons_of_neg (by simp [hd]), List.filter_nil, List.foldl_nil]

end

/-- The window that an action opens. -/
def State.actionWindow (x : State) (k : Fin 128) (a : Armed) : SnsWin :=
  { input := a.act.unit, sheet := k, claim := ((x.sheet k).map fun sh => sh.senseClaim a.act.unit).getD noDetail
    trail := a.act.param % 2 == 1, start := x.clk.tb, stop := x.clk.tb + 6400 * nbits a.act.param 31 16
    guard := 6400 * nbits a.act.param 15 1 }

section
variable {s : State} {t : Tick} {k : Fin 128} {i : Nat} {a : Armed}

theorem exec_window (h : (s.at t).CanTake k i (fun a => isCmd 0x12 1 a && a.unit ≤ 95 && (s.at t).snsOn) a) :
    exec (.window t k i) s =
      (let x := (s.at t).markExecuted k i
       if nbits a.act.param 31 16 = 0 ∨ 4 ≤ (x.sns.win.filter fun w => w.input == a.act.unit).length then .next x
       else .next ((if x.sheetState k = stCOMMITTED ∨ x.sheetState k = stRUNNING then
          { x with sns := { x.sns with win := x.sns.win ++ [x.actionWindow k a] } } else x).report k i x.clk.tb)) := by
  change execWindow t k i s = _
  rw [execWindow]
  generalize s.at t = u at *
  simp only [take_run h, Bool.or_eq_true, decide_eq_true_eq]
  generalize u.markExecuted k i = x
  refine if_congr Iff.rfl rfl ?_
  by_cases ho : x.sheetState k = stCOMMITTED ∨ x.sheetState k = stRUNNING
  · simp only [if_pos ho]
    rfl
  · simp only [if_neg ho]

theorem exec_set (h : (s.at t).CanTake k i (fun a => isCmd 0x12 2 a && 0x100 ≤ a.unit && a.unit ≤ 0x13F && (s.at t).snsOn) a) :
    exec (.set t k i) s = .next ((((s.at t).markExecuted k i).report k i ((s.at t).markExecuted k i).clk.tb).ttOut
      (a.act.unit - 0x100) (a.act.param % 2 == 1) none) := by
  change execSet t k i s = _
  rw [execSet]
  generalize s.at t = u at *
  simp only [take_run h]

theorem exec_pulse (h : (s.at t).CanTake k i (fun a => isCmd 0x12 3 a && 0x100 ≤ a.unit && a.unit ≤ 0x13F && (s.at t).snsOn) a) :
    exec (.pulse t k i) s = if nbits a.act.param 31 16 = 0 then .next ((s.at t).markExecuted k i)
      else .next ((((s.at t).markExecuted k i).report k i ((s.at t).markExecuted k i).clk.tb).ttOut (a.act.unit - 0x100)
        (a.act.param % 2 == 1) (some (nextMultiple 32 ((s.at t).markExecuted k i).clk.tb + 6400 * nbits a.act.param 31 16))) := by
  change execPulse t k i s = _
  rw [execPulse]
  generalize s.at t = u at *
  simp only [take_run h]

end

/-! ### Outputs (R355) -/

section
variable (s : State)

theorem setOut_kept (n : Nat) (v : Bool) : (s.setOut n v).mem = s.mem ∧ (s.setOut n v).clk = s.clk ∧
    (s.setOut n v).sns.pulse = s.sns.pulse ∧ (s.setOut n v).sns.ttOut = s.sns.ttOut := by
  rw [State.setOut, setB_mem, setB_clk, setB_sns]
  exact ⟨rfl, rfl, rfl, rfl⟩

theorem snsOut_setOut_self (n : Nat) (v : Bool) : (s.setOut n v).snsOut n = v := by
  rw [State.setOut, State.snsOut]
  exact fb_setB_self _ _ (Nat.mod_lt _ (by decide)) _

theorem snsOut_setOut_ne {n m : Nat} (hn : n < 64) (hm : m < 64) (h : m ≠ n) (v : Bool) :
    (s.setOut n v).snsOut m = s.snsOut m := by
  rw [State.setOut, State.snsOut]
  by_cases hr : outReg m = outReg n
  · have hbit : m % 32 ≠ n % 32 := fun he => h (by
      simp only [outReg] at hr
      split at hr <;> split at hr
      · omega
      · exact absurd hr (by decide)
      · exact absurd hr (by decide)
      · omega)
    rw [hr, fb_setB_bit _ (Nat.mod_lt _ (by decide)) hbit, State.snsOut, hr]
    rfl
  · rw [fb_setB_ne _ hr]
    rfl

theorem setPulse_get_self (n : Nat) (p : Option Tick) : Tab.get none (s.setPulse n p).sns.pulse n = p :=
  Tab.get_put_self _ _ _ _

theorem setPulse_get_ne {n m : Nat} (h : m ≠ n) (p : Option Tick) :
    Tab.get none (s.setPulse n p).sns.pulse m = Tab.get none s.sns.pulse m := Tab.get_put_ne _ h _ _

/-- Output `n` of one half: bit i of its register. -/
def outOf (high : Bool) (i : Nat) : Nat := if high then 32 + i else i

/-- One output of a firmware write of a half. -/
def State.outWritten (high : Bool) (w : Word) (s : State) (i : Nat) : State :=
  if Tab.get none s.sns.ttOut (outOf high i) = some s.clk.tb then s
  else (s.setOut (outOf high i) (w.getLsbD i)).setPulse (outOf high i) none

theorem snsOutWrite_eq (high : Bool) (w : Word) : s.snsOutWrite high w = (List.range 32).foldl (State.outWritten high w) s := rfl

theorem outWritten_kept (high : Bool) (w : Word) (i : Nat) : (s.outWritten high w i).mem = s.mem ∧
    (s.outWritten high w i).clk = s.clk ∧ (s.outWritten high w i).sns.ttOut = s.sns.ttOut := by
  rw [State.outWritten]
  split
  · exact ⟨rfl, rfl, rfl⟩
  · obtain ⟨h1, h2, -, h4⟩ := setOut_kept s (outOf high i) (w.getLsbD i)
    exact ⟨h1, h2, h4⟩

theorem outWritten_ne {high : Bool} {i m : Nat} (w : Word) (hi : i < 32) (hm : m < 64) (h : m ≠ outOf high i) :
    (s.outWritten high w i).snsOut m = s.snsOut m ∧
    Tab.get none (s.outWritten high w i).sns.pulse m = Tab.get none s.sns.pulse m := by
  have h64 : outOf high i < 64 := by rw [outOf]; split <;> omega
  rw [State.outWritten]
  split
  · exact ⟨rfl, rfl⟩
  · refine ⟨snsOut_setOut_ne s h64 hm h _, ?_⟩
    rw [setPulse_get_ne _ h, (setOut_kept s _ _).2.2.1]

/-- The outputs of a list of bits that names each of them once. -/
theorem outAll_facts (u : State) (high : Bool) (w : Word) (l : List Nat) (hl : l.Nodup) (h32 : ∀ i ∈ l, i < 32) :
    let v := l.foldl (State.outWritten high w) u
    v.mem = u.mem ∧ v.clk = u.clk ∧ v.sns.ttOut = u.sns.ttOut ∧
    (∀ m < 64, (∀ i ∈ l, m ≠ outOf high i) → v.snsOut m = u.snsOut m) ∧
    ∀ i ∈ l, (Tab.get none u.sns.ttOut (outOf high i) = some u.clk.tb → v.snsOut (outOf high i) = u.snsOut (outOf high i)) ∧
      (Tab.get none u.sns.ttOut (outOf high i) ≠ some u.clk.tb →
        v.snsOut (outOf high i) = w.getLsbD i ∧ Tab.get none v.sns.pulse (outOf high i) = none) := by
  induction l using List.reverseRecOn with
  | nil => exact ⟨rfl, rfl, rfl, fun _ _ _ => rfl, fun i h => absurd h List.not_mem_nil⟩
  | append_singleton l n ih =>
    obtain ⟨hl', -, hd⟩ := List.nodup_append.1 hl
    have hn : n ∉ l := fun hn => hd n hn n List.mem_cons_self rfl
    obtain ⟨i1, i2, i3, i4, i5⟩ := ih hl' fun i hi => h32 i (by simp [hi])
    have hn32 := h32 n (by simp)
    have h64 : ∀ i < 32, outOf high i < 64 := fun i hi => by rw [outOf]; split <;> omega
    have hinj : ∀ i j, i ≠ j → outOf high i ≠ outOf high j := fun i j hij => by rw [outOf, outOf]; split <;> omega
    rw [List.foldl_append, List.foldl_cons, List.foldl_nil]
    generalize l.foldl (State.outWritten high w) u = v at *
    obtain ⟨k1, k2, k3⟩ := outWritten_kept v high w n
    refine ⟨k1.trans i1, k2.trans i2, k3.trans i3, fun m hm hml => ?_, fun i hi => ?_⟩
    · rw [(outWritten_ne v w hn32 hm (hml n (by simp))).1]
      exact i4 m hm fun i hi => hml i (by simp [hi])
    · by_cases hin : i = n
      · subst hin
        have hold : v.snsOut (outOf high i) = u.snsOut (outOf high i) :=
          i4 _ (h64 i hn32) fun j hj => hinj i j fun e => hn (e ▸ hj)
        rw [State.outWritten, i3, i2]
        refine ⟨fun h => ?_, fun h => ?_⟩
        · rw [if_pos h, hold]
        · rw [if_neg h]
          exact ⟨snsOut_setOut_self v _ _, setPulse_get_self _ _ _⟩
      · obtain ⟨e1, e2⟩ := outWritten_ne v w hn32 (h64 i (h32 i hi)) (hinj i n hin)
        rw [e1, e2]
        exact i5 i (by simpa [hin] using hi)

theorem ttOut_facts {n : Nat} (hn : n < 64) (level : Bool) (p : Option Tick) :
    (s.ttOut n level p).snsOut n = level ∧ Tab.get none (s.ttOut n level p).sns.pulse n = p ∧ (s.ttOut n level p).mem = s.mem ∧
    ∀ m < 64, m ≠ n → (s.ttOut n level p).snsOut m = s.snsOut m := by
  rw [State.ttOut]
  exact ⟨snsOut_setOut_self s n level, setPulse_get_self _ _ _, (setOut_kept s n level).1,
    fun m hm h => snsOut_setOut_ne s hn hm h level⟩

end

section
variable {s : State} {t : Tick} {n : Fin 64}

theorem exec_snsOutWrite (high : Bool) (w : Word) (hon : (s.at t).snsOn = true) :
    exec (.snsOutWrite t high w) s = .next ((s.at t).snsOutWrite high w) := by
  change execSnsOutWrite t high w s = _
  rw [execSnsOutWrite]
  exact if_pos hon

theorem exec_pulseEnd_none (h : Tab.get none (s.at t).sns.pulse n = none) : exec (.pulseEnd t n) s = .next (s.at t) := by
  change execPulseEnd t n s = _
  rw [execPulseEnd]
  generalize s.at t = u at *
  simp only [h]

theorem exec_pulseEnd {e : Tick} (hon : (s.at t).snsOn = true) (h : Tab.get none (s.at t).sns.pulse n = some e) :
    exec (.pulseEnd t n) s = if e ≤ (s.at t).clk.tb then
      .next (((s.at t).setOut n (!(s.at t).snsOut n)).setPulse n none) else .next (s.at t) := by
  change execPulseEnd t n s = _
  rw [execPulseEnd]
  generalize s.at t = u at *
  simp only [h, hon, true_and]

end

/-- Settles O44: a run of samples by the filter, an edge by what it leaves and the window it finds, and outputs one bit after
another. -/
theorem sensesAndOutputs : Obligations.SensesAndOutputs := by
  refine ⟨fun f filt period start n v hnew => ⟨changes_short period start hnew, changes_run period start hnew,
    changes_same f filt period start n v⟩, fun s t n z ls => ?_, fun u n lead x hx => ?_, fun s t n => ?_,
    fun s t k i a => ?_, fun s n level p hn => ttOut_facts s hn level p, fun s t high w n => ?_⟩
  · have he := exec_senseEdge (s := s) (t := t) (n := n) (z := z) (ls := ls)
    dsimp only
    rw [he]
    generalize s.at t = u at *
    refine ⟨fun hoff => if_neg (by simp [hoff]), fun hon => ⟨if_pos hon, ?_⟩⟩
    rintro v m rfl - hnew
    exact ⟨u.senseFiltered n [(v, m)], rfl, rfl, rfl, senseSamples_run hnew⟩
  · obtain ⟨e1, e2, e3, e4, e5, e6⟩ := edgeSeen_facts u n lead hx
    have he := senseEdge_eq u n lead x
    dsimp only
    generalize u.edgeSeen n lead x = y at *
    refine ⟨fun hw => ⟨y, ?_, ⟨e1, e2, e3, e4, e5⟩, e6⟩, fun w hw hin htr => ⟨fun h1 h2 => ?_, fun h1 h2 => ?_, fun h => ?_⟩⟩
    · rw [he, matchEdge_none (by rw [e6, hw])]
    · have hm := matchEdge_one (x := x) (s := y) (by rw [e6, hw]) hin htr
      rw [if_pos ⟨h1, h2⟩] at hm
      refine ⟨{ y with sns := { y.sns with win := [] } }.setF (Reg.SNS_IN_STATE n) 5 4 1, by rw [he, hm], ⟨?_, e2, ?_, ?_, ?_⟩, rfl, ?_⟩
      · rw [fb_setF_field _ (by decide) (by decide) (by decide)]
        exact e1
      · rw [f_setF_field _ _ (by decide) (by decide) (by decide)]
        exact e3
      · intro hl
        rw [← e4 hl, State.pair, reg_setF_ne _ (by simp only [Reg.SNS_IN_STATE, Reg.SNS_TS_LEAD_LO]; omega),
          reg_setF_ne _ (by simp only [Reg.SNS_IN_STATE, Reg.SNS_TS_LEAD_HI]; omega)]
        rfl
      · intro hl
        rw [← e5 hl, State.pair, reg_setF_ne _ (by simp only [Reg.SNS_IN_STATE, Reg.SNS_TS_TRAIL_LO]; omega),
          reg_setF_ne _ (by simp only [Reg.SNS_IN_STATE, Reg.SNS_TS_TRAIL_HI]; omega)]
        rfl
      · exact f_setF_self _ _ (by decide) (by decide) _
    · have hm := matchEdge_one (x := x) (s := y) (by rw [e6, hw]) hin htr
      rw [if_neg fun hc => absurd h1 (Nat.not_lt.mpr hc.1), if_pos ⟨h2, h1⟩] at hm
      exact ⟨y, by rw [he, hm], ⟨e1, e2, e3, e4, e5⟩, e6⟩
    · have hm := matchEdge_one (x := x) (s := y) (by rw [e6, hw]) hin htr
      rw [if_neg fun hc => h.elim (fun h => absurd hc.2 (Nat.not_lt.mpr h.2)) fun h =>
          absurd (lt_of_le_of_lt (Nat.le_add_right x w.guard) h) (Nat.not_lt.mpr hc.1),
        if_neg fun hc => h.elim (fun h => absurd hc.2 (Nat.not_lt.mpr h.1)) fun h => absurd h (Nat.not_lt.mpr hc.1)] at hm
      exact ⟨y, by rw [he, hm], ⟨e1, e2, e3, e4, e5⟩, e6⟩
  · dsimp only
    refine fun hon => ⟨exec_windowLateExpiry_none hon, fun w hw hn => ?_⟩
    have he := exec_windowLateExpiry_one hon hw hn
    rw [he]
    exact ⟨fun h => if_pos h, fun h => if_neg h⟩
  · dsimp only
    refine ⟨fun h => ?_, exec_set, fun h => ?_⟩
    · have he := exec_window h
      dsimp only at he
      rw [he]
      generalize (s.at t).markExecuted k i = x
      refine ⟨fun hc => if_pos hc, fun h1 h2 hs => ?_, fun h1 h2 h3 h4 => ?_⟩
      · rw [if_neg (not_or.mpr ⟨h1, Nat.not_le.mpr h2⟩), if_pos hs]
        rfl
      · rw [if_neg (not_or.mpr ⟨h1, Nat.not_le.mpr h2⟩), if_neg (not_or.mpr ⟨h3, h4⟩)]
    · rw [exec_pulse h]
      exact ⟨fun hl => if_pos hl, fun hl => if_neg hl⟩
  · dsimp only
    intro hon
    have he := exec_snsOutWrite high w hon
    have hp := fun e h => exec_pulseEnd (n := n) (e := e) hon h
    refine ⟨⟨_, he, ?_⟩, fun e h => ?_, exec_pulseEnd_none⟩
    · clear he hp
      generalize s.at t = u at *
      rw [snsOutWrite_eq]
      obtain ⟨h1, -, -, h4, h5⟩ := outAll_facts u high w (List.range 32) List.nodup_range fun i hi => List.mem_range.1 hi
      refine ⟨h1, fun i hi => ⟨h4 _ ?_ fun j hj => ?_, h5 i (List.mem_range.2 hi)⟩⟩
      · split <;> omega
      · have := List.mem_range.1 hj
        rw [outOf]
        cases high
        · simp only [Bool.false_eq_true, if_false]
          omega
        · simp only [if_true]
          omega
    · rw [hp e h]
      clear he hp
      generalize s.at t = u at *
      refine ⟨fun hle => ⟨_, if_pos hle, snsOut_setOut_self u n _, setPulse_get_self _ _ _, (setOut_kept u _ _).1,
        fun m hm hne => snsOut_setOut_ne u n.isLt hm hne _⟩, fun hlt => if_neg (Nat.not_le.mpr hlt)⟩

end Sys2Proof.Machine
end

section
/-! Rings, fetching and completion records of the DMA (R360, R361, R369–R371). -/

namespace Sys2Proof.Machine

/-! ### Channels under the operations of a state -/

section
variable (s : State)

@[simp] theorem dmaCh_setReg (a : Nat) (v : Word) (c : Nat) : (s.setReg a v).dmaCh c = s.dmaCh c := rfl
@[simp] theorem dmaCh_setF (a hi lo n c : Nat) : (s.setF a hi lo n).dmaCh c = s.dmaCh c := rfl
@[simp] theorem dmaCh_incSat (a hi lo n c : Nat) : (s.incSat a hi lo n).dmaCh c = s.dmaCh c := rfl
@[simp] theorem dmaCh_raise (src ev c : Nat) : (s.raise src ev).dmaCh c = s.dmaCh c := rfl
@[simp] theorem dmaCh_setB (a i : Nat) (b : Bool) (c : Nat) : (s.setB a i b).dmaCh c = s.dmaCh c := by
  rw [State.dmaCh, setB_dma, State.dmaCh]
@[simp] theorem dmaCh_setDmaCh_self (c : Nat) (x : DmaCh) : (s.setDmaCh c x).dmaCh c = x := Tab.get_put_self _ _ _ _
@[simp] theorem reg_setDmaCh (c a : Nat) (x : DmaCh) : (s.setDmaCh c x).reg a = s.reg a := rfl
@[simp] theorem f_setDmaCh (c a hi lo : Nat) (x : DmaCh) : (s.setDmaCh c x).f a hi lo = s.f a hi lo := rfl
@[simp] theorem fb_setDmaCh (c a i : Nat) (x : DmaCh) : (s.setDmaCh c x).fb a i = s.fb a i := rfl

end

/-! ### Rings (R360, R361) -/

section
variable {s : State} {t : Tick} {c : Fin 32}

theorem dmaHeadWrite_facts (u : State) (c : Nat) (w : Word) :
    (u.dmaHeadWrite c w).f (Reg.DMA_RING_HEAD c) 9 0 = w.toNat % 1024 ∧ (u.dmaHeadWrite c w).headSeen c = u.headSeen c ∧
    ((u.dmaHeadWrite c w).dmaCh c).out = (u.dmaCh c).out ∧ ((u.dmaHeadWrite c w).dmaCh c).ex = (u.dmaCh c).ex ∧
    (u.dmaHeadWrite c w).mem = u.mem ∧ ∀ a, a ≠ Reg.DMA_RING_HEAD c → (u.dmaHeadWrite c w).reg a = u.reg a := by
  rw [State.dmaHeadWrite]
  refine ⟨f_setF_self _ _ (by decide) (by decide) _, ?_, ?_, ?_, rfl, fun a ha => reg_setF_ne _ ha _ _ _⟩
  · rw [State.headSeen, dmaCh_setF, dmaCh_setDmaCh_self]
    exact if_pos rfl
  · rw [dmaCh_setF, dmaCh_setDmaCh_self]
  · rw [dmaCh_setF, dmaCh_setDmaCh_self]

/-- Every channel has its turn in a fetch, once. -/
theorem turn_once : ∀ k < 32, ∀ c < 32, (((List.range 32).map fun i => (k + i) % 32).filter fun d => decide (d = c)) = [c] := by
  decide +kernel

theorem fetchOrder_eq (s : State) : s.fetchOrder = (List.range 32).map fun i => ((s.dma.last + 1) % 32 + i) % 32 := by
  rw [State.fetchOrder]
  exact List.map_congr_left fun i _ => by omega

theorem mem_fetchOrder {s : State} {d : Nat} (h : d ∈ s.fetchOrder) : d < 32 := by
  rw [State.fetchOrder] at h
  obtain ⟨i, -, rfl⟩ := List.mem_map.1 h
  exact Nat.mod_lt _ (by decide)

theorem exec_descriptorFetch (h : (s.at t).domOn 2 = true) : exec (.descriptorFetch t) s =
    .next (((s.at t).fetchOrder.filter (s.at t).dmaFetches).foldl
      (fun s c => if s.dmaOutstanding < 128 then s.dmaFetch c else s) (s.at t)) := by
  change execDescriptorFetch t s = _
  rw [execDescriptorFetch]
  generalize s.at t = u at *
  exact if_neg (by simp [h])

theorem filter_none (u : State) (h : ∀ d < 32, u.dmaFetches d = false) : u.fetchOrder.filter u.dmaFetches = [] :=
  List.filter_eq_nil_iff.2 fun d hd => by simp [h d (mem_fetchOrder hd)]

theorem filter_one (u : State) (c : Fin 32) (h : ∀ d < 32, u.dmaFetches d = decide (d = c.val)) :
    u.fetchOrder.filter u.dmaFetches = [c.val] := by
  rw [List.filter_congr fun d hd => h d (mem_fetchOrder hd), fetchOrder_eq]
  exact turn_once _ (Nat.mod_lt _ (by decide)) _ c.isLt

theorem dmaFetch_ok {u y : State} {c : Nat} {bs : List Byte}
    (h : u.readMem iDMA (256 * (u.reg (Reg.DMA_RING_BASE c)).toNat + 32 * u.f (Reg.DMA_RING_TAIL c) 9 0) 32 = (.ok bs, y))
    (hr : y.regs = u.regs) (hd : y.dma = u.dma) :
    ((u.dmaFetch c).dmaCh c).out =
      (u.dmaCh c).out ++ [{ idx := u.f (Reg.DMA_RING_TAIL c) 9 0, bytes := bs }] ∧
    ((u.dmaFetch c).dmaCh c).ex = (u.dmaCh c).ex ∧ (u.dmaFetch c).f (Reg.DMA_RING_TAIL c) 9 0 =
      (u.f (Reg.DMA_RING_TAIL c) 9 0 + 1) % 2 ^ u.f (Reg.DMA_RING_CFG c) 3 0 % 1024 := by
  have hch : y.dmaCh c = u.dmaCh c := by rw [State.dmaCh, hd, State.dmaCh]
  rw [State.dmaFetch]
  simp only [h]
  refine ⟨?_, ?_, ?_⟩
  · change (((y.setF _ 9 0 _).setDmaCh c _).dmaCh c).out = _
    rw [dmaCh_setDmaCh_self, dmaCh_setF, hch]
  · change (((y.setF _ 9 0 _).setDmaCh c _).dmaCh c).ex = _
    rw [dmaCh_setDmaCh_self, dmaCh_setF, hch]
  · change (y.setF _ 9 0 _).f _ 9 0 = _
    rw [f_setF_self _ _ (by decide) (by decide), State.ringSize, f_of_regs hr]
    rfl

/-! ### Stopping (R371) -/

theorem dmaReturn_facts (u : State) (c : Nat) : (u.dmaReturn c).dmaCh c = { u.dmaCh c with out := [] } ∧
    (u.dmaReturn c).mem = u.mem ∧ (∀ a, a ≠ Reg.DMA_RING_TAIL c → (u.dmaReturn c).reg a = u.reg a) ∧
    (∀ d rest, (u.dmaCh c).out = d :: rest → (u.dmaReturn c).f (Reg.DMA_RING_TAIL c) 9 0 = d.idx % 1024) ∧
    ((u.dmaCh c).out = [] → (u.dmaReturn c).f (Reg.DMA_RING_TAIL c) 9 0 = u.f (Reg.DMA_RING_TAIL c) 9 0) := by
  rw [State.dmaReturn]
  cases h : (u.dmaCh c).out with
  | nil =>
    refine ⟨?_, rfl, fun _ _ => rfl, fun d rest h => absurd h (by simp), fun _ => rfl⟩
    simp only [← h]
  | cons d rest =>
    refine ⟨?_, rfl, fun a ha => reg_setF_ne _ ha _ _ _, fun d' rest' h => ?_, fun h => absurd h (by simp)⟩
    · rw [dmaCh_setF, dmaCh_setDmaCh_self]
    · rw [(List.cons.inj h).1]
      exact f_setF_self _ _ (by decide) (by decide) _

/-- The channel whose EN is written. -/
def State.dmaEned (s : State) (c : Nat) (en : Bool) : State :=
  (s.setB (Reg.DMA_CH_CFG c) 0 en).setDmaCh c { s.dmaCh c with halted := false }

theorem dmaSetEn_eq (u : State) (c : Nat) (en : Bool) :
    u.dmaSetEn c en = if en then u.dmaEned c en else (u.dmaEned c en).dmaReturn c := by
  rw [State.dmaSetEn, State.dmaEned]
  simp only [dmaCh_setB]

theorem dmaEned_facts (u : State) (c : Nat) (en : Bool) : (u.dmaEned c en).fb (Reg.DMA_CH_CFG c) 0 = en ∧
    (u.dmaEned c en).dmaCh c = { u.dmaCh c with halted := false } ∧ (u.dmaEned c en).mem = u.mem ∧
    ∀ a, a ≠ Reg.DMA_CH_CFG c → (u.dmaEned c en).reg a = u.reg a := by
  rw [State.dmaEned]
  refine ⟨?_, dmaCh_setDmaCh_self _ _ _, setB_mem _ _ _ _, fun a ha => reg_setB_ne _ ha _ _⟩
  rw [fb_setDmaCh, fb_setB_self _ _ (by decide)]

theorem dmaStop_facts (u : State) (c : Nat) : (u.dmaSetEn c false).fb (Reg.DMA_CH_CFG c) 0 = false ∧
    (u.dmaSetEn c false).dmaCh c = { u.dmaCh c with halted := false, out := [] } ∧ (u.dmaSetEn c false).mem = u.mem ∧
    (∀ d rest, (u.dmaCh c).out = d :: rest → (u.dmaSetEn c false).f (Reg.DMA_RING_TAIL c) 9 0 = d.idx % 1024) ∧
    ((u.dmaCh c).out = [] → (u.dmaSetEn c false).f (Reg.DMA_RING_TAIL c) 9 0 = u.f (Reg.DMA_RING_TAIL c) 9 0) ∧
    ∀ a, a ≠ Reg.DMA_CH_CFG c → a ≠ Reg.DMA_RING_TAIL c → (u.dmaSetEn c false).reg a = u.reg a := by
  have hne : Reg.DMA_CH_CFG c ≠ Reg.DMA_RING_TAIL c := by simp only [Reg.DMA_CH_CFG, Reg.DMA_RING_TAIL]; omega
  obtain ⟨e1, e2, e3, e4⟩ := dmaEned_facts u c false
  obtain ⟨r1, r2, r3, r4, r5⟩ := dmaReturn_facts (u.dmaEned c false) c
  rw [dmaSetEn_eq, if_neg (by decide)]
  rw [e2] at r1 r4 r5
  refine ⟨(fb_of_reg (r3 _ hne) _).trans e1, r1, r2.trans e3, r4, fun h => (r5 h).trans (f_of_reg (e4 _ (Ne.symm hne)) _ _),
    fun a h1 h2 => (r3 a h2).trans (e4 a h1)⟩

/-- The descriptor that executes ends with status 0x30 at its next unit. -/
def DmaExec.aborted (e : DmaExec) : DmaExec :=
  if e.fin.isNone then { e with fin := some (0x30, 16 * e.d.unitAt e.done) } else e

theorem dmaAbort_eq (u : State) (c : Nat) : ∃ w : State, u.dmaAbort c = w.dmaSetEn c false ∧ w.mem = u.mem ∧
    (w.dmaCh c).ex = (u.dmaCh c).ex.map DmaExec.aborted := by
  rw [State.dmaAbort]
  cases h : (u.dmaCh c).ex with
  | none => exact ⟨u, rfl, rfl, h⟩
  | some e =>
    by_cases hf : e.fin.isNone = true
    · refine ⟨_, rfl, ?_, ?_⟩
      · simp only [hf, if_true]
        rfl
      · simp only [hf, if_true, dmaCh_setDmaCh_self, DmaExec.aborted, Option.map_some]
    · refine ⟨_, rfl, ?_, ?_⟩
      · simp only [hf, Bool.false_eq_true, if_false]
      · simp only [hf, Bool.false_eq_true, if_false, DmaExec.aborted, Option.map_some, h]

theorem exec_dmaCommands (w : Word) (h : (s.at t).domOn 2 = true) :
    exec (.dmaRingHeadWrite t c w) s = .next ((s.at t).dmaHeadWrite c w) ∧
    (∀ en, exec (.dmaEnWrite t c en) s = .next ((s.at t).dmaSetEn c en)) ∧
    exec (.dmaAbort t c) s = .next ((s.at t).dmaAbort c) ∧
    exec (.dmaCqTailWrite t c w) s = .next ((s.at t).dmaCqTail c w) := by
  change execDmaRingHeadWrite t c w s = _ ∧ (∀ en, execDmaEnWrite t c en s = _) ∧ execDmaAbort t c s = _ ∧
    execDmaCqTailWrite t c w s = _
  rw [execDmaRingHeadWrite, execDmaAbort, execDmaCqTailWrite]
  simp only [execDmaEnWrite]
  generalize s.at t = u at *
  exact ⟨if_pos h, fun en => if_pos h, if_pos h, if_pos h⟩

theorem exec_dmaOff (w : Word) (h : (s.at t).domOn 2 = false) :
    exec (.dmaRingHeadWrite t c w) s = .next (s.at t) ∧ exec (.descriptorFetch t) s = .next (s.at t) ∧
    exec (.dmaEnWrite t c true) s = .next (s.at t) ∧ exec (.dmaAbort t c) s = .next (s.at t) ∧
    exec (.descriptorComplete t c) s = .next (s.at t) ∧ exec (.dmaCqTailWrite t c w) s = .next (s.at t) := by
  change execDmaRingHeadWrite t c w s = _ ∧ execDescriptorFetch t s = _ ∧ execDmaEnWrite t c true s = _ ∧
    execDmaAbort t c s = _ ∧ execDescriptorComplete t c s = _ ∧ execDmaCqTailWrite t c w s = _
  rw [execDmaRingHeadWrite, execDescriptorFetch, execDmaEnWrite, execDmaAbort, execDescriptorComplete, execDmaCqTailWrite]
  generalize s.at t = u at *
  exact ⟨if_neg (by simp [h]), if_pos (by simp [h]), if_neg (by simp [h]), if_neg (by simp [h]), if_pos (by simp [h]),
    if_neg (by simp [h])⟩

/-! ### Completion (R366, R369, R370) -/

theorem exec_descriptorComplete (h : (s.at t).domOn 2 = true) : exec (.descriptorComplete t c) s =
    .next ((if ((s.at t).dmaCh c).turn 1 || ((s.at t).dmaCh c).turn 2 || ((s.at t).dmaCh c).turn 3 then s.at t
      else (s.at t).dmaBegin c).dmaComplete c) := by
  change execDescriptorComplete t c s = _
  rw [execDescriptorComplete]
  generalize s.at t = u at *
  exact if_neg (by simp [h])

theorem dmaBegin_busy {u : State} {c : Nat} {e : DmaExec} (h : (u.dmaCh c).ex = some e) : u.dmaBegin c = u := by
  rw [State.dmaBegin]
  simp only [h]

theorem dmaBegin_empty {u : State} {c : Nat} (h : (u.dmaCh c).ex = none) (ho : (u.dmaCh c).out = []) : u.dmaBegin c = u := by
  rw [State.dmaBegin]
  simp only [h, ho]

theorem dmaComplete_idle {u : State} {c : Nat} (h : (u.dmaCh c).ex = none) : u.dmaComplete c = u := by
  rw [State.dmaComplete]
  simp only [h]

theorem dmaComplete_runs {u : State} {c : Nat} {e : DmaExec} (h : (u.dmaCh c).ex = some e) (hf : e.fin = none) :
    u.dmaComplete c = u := by
  rw [State.dmaComplete]
  simp only [h, hf]

theorem dmaComplete_ended {u : State} {c st off : Nat} {e : DmaExec} (h : (u.dmaCh c).ex = some e) (hf : e.fin = some (st, off)) :
    u.dmaComplete c = if u.dmaCqFull c then u.setDmaCh c { u.dmaCh c with stall := true } else u.dmaWriteRecord c e st off := by
  rw [State.dmaComplete]
  simp only [h, hf]

end

/-! ### A completion record (R369, R370) -/

/-- The queue's head, the count and the channel after a record is written. -/
def State.dmaRecorded (s : State) (c : Nat) : State :=
  ((s.setF (Reg.DMA_CQ_HEAD c) 11 0 ((s.cqHead c + 1) % s.cqSize c)).incSat (Reg.DMA_CH_CNT c) 31 0).setDmaCh c
    { s.dmaCh c with ex := none, stall := false }

/-- The interrupt of a completion. -/
def State.dmaFlagged (s : State) (c : Nat) (irq : Bool) : State := if irq then s.setB Reg.DMA_IRQ_CQ c true else s

/-- What an error shows. -/
def State.dmaShown (s : State) (c status : Nat) : State :=
  let s := (s.setB Reg.DMA_IRQ_ERR c true).setF (Reg.DMA_CH_STATUS c) 23 16 status
  if status < 0x20 then s.raise srcDMA 0 else if status < 0x30 then s.raise srcDMA 1 else s

/-- An error halts the channel whose STOP asks for it. -/
def State.dmaHalted (s : State) (c : Nat) : State :=
  if s.fb (Reg.DMA_CH_CFG c) 1 then
    (s.dmaSetEn c false).setDmaCh c { (s.dmaSetEn c false).dmaCh c with halted := true }
  else s

theorem dmaWriteRecord_eq {s y : State} {c st off : Nat} {e : DmaExec} (hb : e.d.bad = none)
    (hw : ({ s with fresh := s.fresh + 1 } : State).writeMem iDMA (256 * (s.reg (Reg.DMA_CQ_BASE c)).toNat + 16 * s.cqHead c)
      (dmaRecord e.d.tag st c e.d.idx off) = (none, y)) : s.dmaWriteRecord c e st off =
      if 0x10 ≤ st then (((y.dmaRecorded c).dmaFlagged c (e.d.flag 0)).dmaShown c st).dmaHalted c
      else (y.dmaRecorded c).dmaFlagged c (e.d.flag 0) := by
  have hw' : ({ s with fresh := s.fresh + 1 } : State).writeMem iDMA
      (256 * (({ s with fresh := s.fresh + 1 } : State).reg (Reg.DMA_CQ_BASE c)).toNat +
        16 * ({ s with fresh := s.fresh + 1 } : State).cqHead c) (dmaRecord e.d.tag st c e.d.idx off) = (none, y) := hw
  rw [State.dmaWriteRecord]
  simp only [State.takeFresh, hb, Option.isSome_none, Bool.false_eq_true, if_false, hw']
  rfl

section
variable (s : State) (c : Nat)

theorem dmaRecorded_facts : (s.dmaRecorded c).mem = s.mem ∧
    (s.dmaRecorded c).f (Reg.DMA_CQ_HEAD c) 11 0 = (s.cqHead c + 1) % s.cqSize c % 4096 ∧
    (s.dmaRecorded c).reg (Reg.DMA_CH_CNT c) = BitVec.ofNat 32 (min (2 ^ 32 - 1) ((s.reg (Reg.DMA_CH_CNT c)).toNat + 1)) ∧
    (s.dmaRecorded c).dmaCh c = { s.dmaCh c with ex := none, stall := false } ∧
    ∀ i, (s.dmaRecorded c).fb (Reg.DMA_CH_CFG c) i = s.fb (Reg.DMA_CH_CFG c) i := by
  have h1 : Reg.DMA_CQ_HEAD c ≠ Reg.DMA_CH_CNT c := by simp only [Reg.DMA_CQ_HEAD, Reg.DMA_CH_CNT]; omega
  have h2 : Reg.DMA_CH_CFG c ≠ Reg.DMA_CH_CNT c := by simp only [Reg.DMA_CH_CFG, Reg.DMA_CH_CNT]; omega
  have h3 : Reg.DMA_CH_CFG c ≠ Reg.DMA_CQ_HEAD c := by simp only [Reg.DMA_CH_CFG, Reg.DMA_CQ_HEAD]; omega
  rw [State.dmaRecorded]
  refine ⟨rfl, ?_, ?_, dmaCh_setDmaCh_self _ _ _, fun i => ?_⟩
  · rw [f_setDmaCh, f_incSat_ne _ h1, f_setF_self _ _ (by decide) (by decide)]
    rfl
  · have hf := f_incSat_self (s.setF (Reg.DMA_CQ_HEAD c) 11 0 ((s.cqHead c + 1) % s.cqSize c)) (Reg.DMA_CH_CNT c)
      (hi := 31) (lo := 0) (by decide) (by decide) 1
    rw [f_setF_ne _ (Ne.symm h1), satAdd_one (f_lt _ _ 31 0), f_full, f_full] at hf
    rw [reg_setDmaCh]
    refine BitVec.eq_of_toNat_eq ?_
    rw [hf, BitVec.toNat_ofNat]
    exact (Nat.mod_eq_of_lt (lt_of_le_of_lt (Nat.min_le_left _ _) (by decide))).symm
  · rw [fb_setDmaCh, fb_incSat_ne _ h2, fb_setF_ne _ h3]

/-- What the interrupt and the error of a completion leave as it is. -/
structure DmaTold (s v : State) : Prop where
  mem : v.mem = s.mem
  ch : v.dmaCh c = s.dmaCh c
  reg : ∀ a, a ≠ Reg.DMA_IRQ_CQ → a ≠ Reg.DMA_IRQ_ERR → a ≠ Reg.DMA_CH_STATUS c → v.reg a = s.reg a

theorem dmaFlagged_facts (irq : Bool) (hc : c < 32) : DmaTold c s (s.dmaFlagged c irq) ∧
    (irq = true → (s.dmaFlagged c irq).fb Reg.DMA_IRQ_CQ c = true) := by
  rw [State.dmaFlagged]
  cases irq with
  | false => exact ⟨⟨rfl, rfl, fun _ _ _ _ => rfl⟩, fun h => absurd h (by decide)⟩
  | true =>
    rw [if_pos rfl]
    exact ⟨⟨setB_mem _ _ _ _, dmaCh_setB _ _ _ _ _, fun a h1 _ _ => reg_setB_ne _ h1 _ _⟩, fun _ => fb_setB_self _ _ hc _⟩

theorem dmaShown_facts {st : Nat} (hst : st < 256) (hc : c < 32) : DmaTold c s (s.dmaShown c st) ∧
    (s.dmaShown c st).fb Reg.DMA_IRQ_ERR c = true ∧ (s.dmaShown c st).f (Reg.DMA_CH_STATUS c) 23 16 = st ∧
    (s.dmaShown c st).fb Reg.DMA_IRQ_CQ c = s.fb Reg.DMA_IRQ_CQ c := by
  have h1 : Reg.DMA_IRQ_ERR ≠ Reg.DMA_CH_STATUS c := by simp only [Reg.DMA_IRQ_ERR, Reg.DMA_CH_STATUS]; omega
  have h2 : Reg.DMA_IRQ_CQ ≠ Reg.DMA_CH_STATUS c := by simp only [Reg.DMA_IRQ_CQ, Reg.DMA_CH_STATUS]; omega
  have hw : ∀ w, w = (s.setB Reg.DMA_IRQ_ERR c true).setF (Reg.DMA_CH_STATUS c) 23 16 st → DmaTold c s w ∧
      w.fb Reg.DMA_IRQ_ERR c = true ∧ w.f (Reg.DMA_CH_STATUS c) 23 16 = st ∧ w.fb Reg.DMA_IRQ_CQ c = s.fb Reg.DMA_IRQ_CQ c := by
    rintro w rfl
    refine ⟨⟨?_, ?_, fun a _ h4 h5 => ?_⟩, ?_, ?_, ?_⟩
    · rw [setF_mem, setB_mem]
    · rw [dmaCh_setF, dmaCh_setB]
    · rw [reg_setF_ne _ h5, reg_setB_ne _ h4]
    · rw [fb_setF_ne _ h1, fb_setB_self _ _ hc]
    · rw [f_setF_self _ _ (by decide) (by decide)]
      exact Nat.mod_eq_of_lt hst
    · rw [fb_setF_ne _ h2, fb_setB_ne _ (by decide)]
  obtain ⟨⟨w1, w2, w3⟩, w4, w5, w6⟩ := hw _ rfl
  rw [State.dmaShown]
  generalize (s.setB Reg.DMA_IRQ_ERR c true).setF (Reg.DMA_CH_STATUS c) 23 16 st = w at *
  have hr : ∀ ev, DmaTold c s (w.raise srcDMA ev) ∧ (w.raise srcDMA ev).fb Reg.DMA_IRQ_ERR c = true ∧
      (w.raise srcDMA ev).f (Reg.DMA_CH_STATUS c) 23 16 = st ∧ (w.raise srcDMA ev).fb Reg.DMA_IRQ_CQ c = s.fb Reg.DMA_IRQ_CQ c :=
    fun ev => ⟨⟨w1, w2, w3⟩, w4, w5, w6⟩
  split
  · exact hr 0
  · split
    · exact hr 1
    · exact ⟨⟨w1, w2, w3⟩, w4, w5, w6⟩

theorem dmaHalted_facts : (s.dmaHalted c).mem = s.mem ∧ ((s.dmaHalted c).dmaCh c).ex = (s.dmaCh c).ex ∧
    ((s.dmaHalted c).dmaCh c).stall = (s.dmaCh c).stall ∧
    (∀ a, a ≠ Reg.DMA_CH_CFG c → a ≠ Reg.DMA_RING_TAIL c → (s.dmaHalted c).reg a = s.reg a) ∧
    (s.fb (Reg.DMA_CH_CFG c) 1 = true → (s.dmaHalted c).fb (Reg.DMA_CH_CFG c) 0 = false ∧
      ((s.dmaHalted c).dmaCh c).halted = true ∧ ((s.dmaHalted c).dmaCh c).out = []) := by
  obtain ⟨h1, h2, h3, -, -, h6⟩ := dmaStop_facts s c
  rw [State.dmaHalted]
  split
  · refine ⟨h3, ?_, ?_, fun a ha hb => h6 a ha hb, fun _ => ⟨h1, ?_, ?_⟩⟩
    · rw [dmaCh_setDmaCh_self, h2]
    · rw [dmaCh_setDmaCh_self, h2]
    · rw [dmaCh_setDmaCh_self]
    · rw [dmaCh_setDmaCh_self, h2]
  · next hn => exact ⟨rfl, rfl, rfl, fun _ _ _ => rfl, fun h => absurd h hn⟩

end

theorem dmaWriteRecord_facts {s y : State} {c st off : Nat} {e : DmaExec} (hc : c < 32) (hb : e.d.bad = none) (hst : st < 256)
    (hw : ({ s with fresh := s.fresh + 1 } : State).writeMem iDMA (256 * (s.reg (Reg.DMA_CQ_BASE c)).toNat + 16 * s.cqHead c)
      (dmaRecord e.d.tag st c e.d.idx off) = (none, y)) (hr : y.regs = s.regs) (hd : y.dma = s.dma) :
    let v := s.dmaWriteRecord c e st off
    v.mem = y.mem ∧ v.f (Reg.DMA_CQ_HEAD c) 11 0 = (s.cqHead c + 1) % s.cqSize c % 4096 ∧
    v.reg (Reg.DMA_CH_CNT c) = BitVec.ofNat 32 (min (2 ^ 32 - 1) ((s.reg (Reg.DMA_CH_CNT c)).toNat + 1)) ∧
    (v.dmaCh c).ex = none ∧ (v.dmaCh c).stall = false ∧ (e.d.flag 0 = true → v.fb Reg.DMA_IRQ_CQ c = true) ∧
    (st < 0x10 → (v.dmaCh c).out = (s.dmaCh c).out ∧ v.fb (Reg.DMA_CH_CFG c) 0 = s.fb (Reg.DMA_CH_CFG c) 0) ∧
    (0x10 ≤ st → v.fb Reg.DMA_IRQ_ERR c = true ∧ v.f (Reg.DMA_CH_STATUS c) 23 16 = st ∧
      (s.fb (Reg.DMA_CH_CFG c) 1 = true → v.fb (Reg.DMA_CH_CFG c) 0 = false ∧ (v.dmaCh c).halted = true ∧
        (v.dmaCh c).out = [])) := by
  have hch : y.dmaCh c = s.dmaCh c := by rw [State.dmaCh, hd, State.dmaCh]
  have hhead : y.cqHead c = s.cqHead c := f_of_regs hr _ _ _
  have hsize : y.cqSize c = s.cqSize c := by rw [State.cqSize, f_of_regs hr, State.cqSize]
  have hcfg : ∀ i, y.fb (Reg.DMA_CH_CFG c) i = s.fb (Reg.DMA_CH_CFG c) i := fun i => fb_of_regs hr _ _
  obtain ⟨r1, r2, r3, r4, r5⟩ := dmaRecorded_facts y c
  rw [hhead, hsize] at r2
  rw [reg_of_regs hr] at r3
  rw [hch] at r4
  simp only [hcfg] at r5
  obtain ⟨⟨f1, f2, f3⟩, f4⟩ := dmaFlagged_facts (y.dmaRecorded c) c (e.d.flag 0) hc
  have hx := dmaWriteRecord_eq hb hw
  generalize (y.dmaRecorded c).dmaFlagged c (e.d.flag 0) = w at *
  have wreg : ∀ a, a ≠ Reg.DMA_IRQ_CQ → a ≠ Reg.DMA_IRQ_ERR → a ≠ Reg.DMA_CH_STATUS c → w.reg a = (y.dmaRecorded c).reg a := f3
  have n1 : Reg.DMA_CQ_HEAD c ≠ Reg.DMA_IRQ_CQ ∧ Reg.DMA_CQ_HEAD c ≠ Reg.DMA_IRQ_ERR ∧
      Reg.DMA_CQ_HEAD c ≠ Reg.DMA_CH_STATUS c ∧ Reg.DMA_CQ_HEAD c ≠ Reg.DMA_CH_CFG c ∧ Reg.DMA_CQ_HEAD c ≠ Reg.DMA_RING_TAIL c := by
    simp only [Reg.DMA_CQ_HEAD, Reg.DMA_IRQ_CQ, Reg.DMA_IRQ_ERR, Reg.DMA_CH_STATUS, Reg.DMA_CH_CFG, Reg.DMA_RING_TAIL]; omega
  have n2 : Reg.DMA_CH_CNT c ≠ Reg.DMA_IRQ_CQ ∧ Reg.DMA_CH_CNT c ≠ Reg.DMA_IRQ_ERR ∧
      Reg.DMA_CH_CNT c ≠ Reg.DMA_CH_STATUS c ∧ Reg.DMA_CH_CNT c ≠ Reg.DMA_CH_CFG c ∧ Reg.DMA_CH_CNT c ≠ Reg.DMA_RING_TAIL c := by
    simp only [Reg.DMA_CH_CNT, Reg.DMA_IRQ_CQ, Reg.DMA_IRQ_ERR, Reg.DMA_CH_STATUS, Reg.DMA_CH_CFG, Reg.DMA_RING_TAIL]; omega
  have n3 : Reg.DMA_CH_CFG c ≠ Reg.DMA_IRQ_CQ ∧ Reg.DMA_CH_CFG c ≠ Reg.DMA_IRQ_ERR ∧ Reg.DMA_CH_CFG c ≠ Reg.DMA_CH_STATUS c := by
    simp only [Reg.DMA_IRQ_CQ, Reg.DMA_IRQ_ERR, Reg.DMA_CH_STATUS, Reg.DMA_CH_CFG]; omega
  obtain ⟨a1, a2, a3, a4, a5⟩ := n1
  obtain ⟨b1, b2, b3, b4, b5⟩ := n2
  obtain ⟨c1, c2, c3⟩ := n3
  dsimp only
  rw [hx]
  by_cases h10 : 0x10 ≤ st
  · rw [if_pos h10]
    obtain ⟨⟨g1, g2, g3⟩, g4, g5, g6⟩ := dmaShown_facts w c hst hc
    obtain ⟨k1, k2, k3, k4, k5⟩ := dmaHalted_facts (w.dmaShown c st) c
    have i1 : Reg.DMA_IRQ_CQ ≠ Reg.DMA_CH_CFG c ∧ Reg.DMA_IRQ_CQ ≠ Reg.DMA_RING_TAIL c ∧ Reg.DMA_IRQ_ERR ≠ Reg.DMA_CH_CFG c ∧
        Reg.DMA_IRQ_ERR ≠ Reg.DMA_RING_TAIL c ∧ Reg.DMA_CH_STATUS c ≠ Reg.DMA_CH_CFG c ∧
        Reg.DMA_CH_STATUS c ≠ Reg.DMA_RING_TAIL c := by
      simp only [Reg.DMA_IRQ_CQ, Reg.DMA_IRQ_ERR, Reg.DMA_CH_STATUS, Reg.DMA_CH_CFG, Reg.DMA_RING_TAIL]; omega
    obtain ⟨d1, d2, d3, d4, d5, d6⟩ := i1
    refine ⟨((k1.trans g1).trans f1).trans r1, ?_, ?_, ?_, ?_, fun hf => ?_, fun h => absurd h (Nat.not_lt.mpr h10),
      fun _ => ⟨?_, ?_, fun h1 => k5 ?_⟩⟩
    · rw [f_of_reg (k4 _ a4 a5), f_of_reg (g3 _ a1 a2 a3), f_of_reg (wreg _ a1 a2 a3), r2]
    · rw [k4 _ b4 b5, g3 _ b1 b2 b3, wreg _ b1 b2 b3, r3]
    · rw [k2, g2, f2, r4]
    · rw [k3, g2, f2, r4]
    · rw [fb_of_reg (k4 _ d1 d2), g6, f4 hf]
    · rw [fb_of_reg (k4 _ d3 d4), g4]
    · rw [f_of_reg (k4 _ d5 d6), g5]
    · rw [fb_of_reg (g3 _ c1 c2 c3), fb_of_reg (wreg _ c1 c2 c3), r5, h1]
  · rw [if_neg h10]
    refine ⟨f1.trans r1, ?_, ?_, ?_, ?_, f4, fun _ => ⟨?_, ?_⟩, fun h => absurd h h10⟩
    · rw [f_of_reg (wreg _ a1 a2 a3), r2]
    · rw [wreg _ b1 b2 b3, r3]
    · rw [f2, r4]
    · rw [f2, r4]
    · rw [f2, r4]
    · rw [fb_of_reg (wreg _ c1 c2 c3), r5]

/-- Settles O45: each command by what it does to its channel, and a completion record by its parts: the queue's head and
count, the interrupt, the error that is shown, and the halt. -/
theorem dmaRingsAndCompletion : Obligations.DmaRingsAndCompletion := by
  refine ⟨fun s t c w => ?_, fun s t c w => ?_, fun s c e st off y hc hb hst hw hr hd => dmaWriteRecord_facts hc hb hst hw hr hd⟩
  · dsimp only
    refine ⟨fun hon => ?_, fun hoff => ?_, fun bs y => dmaFetch_ok⟩
    · obtain ⟨x1, x2, x3, -⟩ := exec_dmaCommands (c := c) w hon
      have hf := exec_descriptorFetch hon
      generalize s.at t = u at *
      refine ⟨⟨_, x1, dmaHeadWrite_facts u c w⟩, fun h => ?_, fun h hp => ?_, ⟨_, x2 true, ?_⟩, ⟨_, x2 false, ?_⟩,
        ⟨_, x3, ?_⟩⟩
      · rw [hf, filter_none u h]
        rfl
      · rw [hf, filter_one u c h, List.foldl_cons, List.foldl_nil, if_pos hp]
      · obtain ⟨e1, e2, e3, -⟩ := dmaEned_facts u c true
        rw [dmaSetEn_eq, if_pos rfl]
        exact ⟨e1, e2, e3⟩
      · obtain ⟨e1, e2, e3, e4, e5, -⟩ := dmaStop_facts u c
        exact ⟨e1, e2, e3, e4, e5⟩
      · obtain ⟨y, hy, hm, hex⟩ := dmaAbort_eq u c
        obtain ⟨e1, e2, e3, -⟩ := dmaStop_facts y c
        rw [hy, e2]
        refine ⟨e1, rfl, e3.trans hm, fun h => ?_, fun e h => ?_⟩
        · rw [hex, h]
          rfl
        · rw [hex, h]
          rfl
    · obtain ⟨x1, x2, x3, x4, -⟩ := exec_dmaOff (c := c) w hoff
      exact ⟨x1, x2, x3, x4⟩
  · dsimp only
    refine ⟨fun hoff => ?_, fun hon => ?_⟩
    · obtain ⟨-, -, -, -, x5, x6⟩ := exec_dmaOff (c := c) w hoff
      exact ⟨x5, x6⟩
    · obtain ⟨-, -, -, x4⟩ := exec_dmaCommands (c := c) w hon
      have hc := exec_descriptorComplete (c := c) hon
      rw [x4, hc]
      clear x4 hc
      generalize s.at t = u at *
      have htail : ∀ n, (u.setF (Reg.DMA_CQ_TAIL c) 11 0 n).dmaCh c = u.dmaCh c := fun n => rfl
      refine ⟨fun he ho => ?_, fun e he => ?_, fun hs => ?_⟩
      · rw [dmaBegin_empty he ho, ite_self, dmaComplete_idle he]
      · rw [dmaBegin_busy he, ite_self]
        refine ⟨fun hf => by rw [dmaComplete_runs he hf], fun st off hf => ?_⟩
        rw [dmaComplete_ended he hf]
        refine ⟨fun hfull => by rw [if_pos hfull], fun hfull => by rw [if_neg (by simp [hfull])], fun hs hfull => ?_⟩
        rw [State.dmaCqTail, if_pos (by rw [htail, hs]), dmaComplete_ended (by rw [htail, he]) hf, if_neg (by simp [hfull])]
      · rw [State.dmaCqTail, if_neg (by rw [htail, hs]; decide)]

end Sys2Proof.Machine
end

section
/-! What a descriptor of the DMA does (R364–R368): it begins with the checks, and moves its units one by one. -/

namespace Sys2Proof.Machine

section
variable {u : State} {c op : Nat}

/-- A channel whose turn is not this operation's does nothing. -/
theorem dmaExecute_other (n : Nat) (h : Bool) (ho : u.domOn 2 = false ∨ (u.dmaCh c).turn op = false) :
    u.dmaExecute c op n h = u := by
  refine if_pos ?_
  rcases ho with ho | ho <;> simp [ho]

theorem dmaExecute_turn (n : Nat) (h : Bool) (hon : u.domOn 2 = true) (ht : (u.dmaCh c).turn op = true) {v : State} {e : DmaExec}
    (hv : (u.dmaBegin c).dmaRun c n = v) (he : (v.dmaCh c).ex = some e) (hend : h = false ∨ e.fin.isNone = false) :
    u.dmaExecute c op n h = v := by
  rw [State.dmaExecute]
  refine (if_neg (by simp [hon, ht])).trans ?_
  simp only [hv, he]
  refine if_neg ?_
  rcases hend with hend | hend <;> simp [hend]

/-- The oldest fetched descriptor comes to execute. -/
theorem dmaBegin_first {d : DmaDesc} {rest : List DmaDesc} (he : (u.dmaCh c).ex = none) (ho : (u.dmaCh c).out = d :: rest)
    (hb : d.bad = none) : u.dmaBegin c = u.setDmaCh c { u.dmaCh c with
      out := rest, ex := some { d := d, lastAt := u.clk.tb, fin := (u.dmaCheck d).map fun e => (e, 0xFFFFFFFF) } } := by
  rw [State.dmaBegin]
  simp only [he, ho, hb]

theorem turn_first {x : DmaCh} {d : DmaDesc} {rest : List DmaDesc} (he : x.ex = none) (ho : x.out = d :: rest)
    (hb : d.bad = none) (hop : d.op = op) : x.turn op = true := by
  rw [DmaCh.turn]
  simp [he, ho, hb, hop]

theorem turn_running {x : DmaCh} {e : DmaExec} (he : x.ex = some e) (hb : e.d.bad = none) (hop : e.d.op = op) :
    x.turn op = true := by
  rw [DmaCh.turn]
  simp [he, hb, hop]

/-- A descriptor that has ended moves no unit. -/
theorem dmaRun_ended {e : DmaExec} (he : (u.dmaCh c).ex = some e) (hf : e.fin.isSome = true) (n : Nat) : u.dmaRun c n = u := by
  cases n with
  | zero => rfl
  | succ n =>
    rw [State.dmaRun]
    simp only [he, hf, if_true]

/-- One unit of a descriptor that has not ended. -/
theorem dmaRun_one {e : DmaExec} {f : Option (Nat × Nat)} {y : State} (he : (u.dmaCh c).ex = some e) (hf : e.fin = none)
    (hu : u.dmaUnit e.d (e.d.unitAt e.done) = (f, y)) : u.dmaRun c 1 = y.setDmaCh c { y.dmaCh c with
      ex := some (if f.isSome then { e with fin := f } else { e with
        done := e.done + 1, lastAt := y.clk.tb
        fin := if e.d.len / 16 ≤ e.done + 1 then some (0, 0xFFFFFFFF) else none }) } := by
  rw [State.dmaRun]
  simp only [he, hf, hu, Option.isSome_none, Bool.false_eq_true, if_false, State.dmaRun]
  cases f <;> rfl

/-- A descriptor that fails a check ends there. -/
theorem dmaExecute_refused (n : Nat) (h : Bool) {d : DmaDesc} {rest : List DmaDesc} (hon : u.domOn 2 = true)
    (he : (u.dmaCh c).ex = none) (ho : (u.dmaCh c).out = d :: rest) (hb : d.bad = none) (hop : d.op = op) {e : Nat}
    (hc : u.dmaCheck d = some e) : u.dmaExecute c op n h = u.setDmaCh c { u.dmaCh c with
      out := rest, ex := some { d := d, lastAt := u.clk.tb, fin := some (e, 0xFFFFFFFF) } } := by
  have hbeg := dmaBegin_first he ho hb
  rw [hc, Option.map_some] at hbeg
  refine dmaExecute_turn (e := { d := d, lastAt := u.clk.tb, fin := some (e, 0xFFFFFFFF) }) n h hon (turn_first he ho hb hop) ?_ ?_
    (Or.inr rfl)
  · rw [hbeg]
    exact dmaRun_ended (by rw [dmaCh_setDmaCh_self]) rfl n
  · rw [dmaCh_setDmaCh_self]

theorem dmaExecute_begins {d : DmaDesc} {rest : List DmaDesc} (hon : u.domOn 2 = true)
    (he : (u.dmaCh c).ex = none) (ho : (u.dmaCh c).out = d :: rest) (hb : d.bad = none) (hop : d.op = op)
    (hc : u.dmaCheck d = none) : u.dmaExecute c op 0 false = u.setDmaCh c { u.dmaCh c with
      out := rest, ex := some { d := d, lastAt := u.clk.tb } } := by
  have hbeg := dmaBegin_first he ho hb
  rw [hc, Option.map_none] at hbeg
  refine dmaExecute_turn (e := { d := d, lastAt := u.clk.tb }) 0 false hon (turn_first he ho hb hop) ?_ ?_ (Or.inl rfl)
  · rw [hbeg]
    rfl
  · rw [dmaCh_setDmaCh_self]

theorem dmaExecute_one {e : DmaExec} {f : Option (Nat × Nat)} {y : State} (hon : u.domOn 2 = true)
    (he : (u.dmaCh c).ex = some e) (hb : e.d.bad = none) (hop : e.d.op = op) (hf : e.fin = none)
    (hu : u.dmaUnit e.d (e.d.unitAt e.done) = (f, y)) : u.dmaExecute c op 1 false = y.setDmaCh c { y.dmaCh c with
      ex := some (if f.isSome then { e with fin := f } else { e with
        done := e.done + 1, lastAt := y.clk.tb
        fin := if e.d.len / 16 ≤ e.done + 1 then some (0, 0xFFFFFFFF) else none }) } := by
  refine dmaExecute_turn 1 false hon (turn_running he hb hop) ?_ (by rw [dmaCh_setDmaCh_self]) (Or.inl rfl)
  rw [dmaBegin_busy he]
  exact dmaRun_one he hf hu

end

/-- The three operations are carried out by one command each. -/
theorem exec_dmaRow (s : State) (t : Tick) (c : Fin 32) (n : Nat) (h : Bool) {op : Nat} (hop : op = 1 ∨ op = 2 ∨ op = 3) :
    (if op = 1 then exec (.copy t c n h) s else if op = 2 then exec (.dmaFill t c n h) s else exec (.compare t c n h) s) =
      .next ((s.at t).dmaExecute c op n h) := by
  rcases hop with rfl | rfl | rfl <;> rfl

/-! ### A unit (R364, R368) -/

section
variable {s : State} {d : DmaDesc} {i : Nat}

theorem dmaRead_ok {x : DmaSide} (hx : x.host = false) {bs : List Byte} {y : State}
    (h : s.readMem iDMA (x.at (16 * i)) 16 = (.ok bs, y)) : s.dmaRead x i = (.ok bs, y) := by
  rw [State.dmaRead]
  simp only [hx, Bool.false_eq_true, if_false, h]

theorem dmaRead_error {x : DmaSide} (hx : x.host = false) {e : MemErr} {y : State}
    (h : s.readMem iDMA (x.at (16 * i)) 16 = (.error e, y)) :
    s.dmaRead x i = (.error (if e = .ecc then 0x21 else 0x20), y) := by
  rw [State.dmaRead]
  simp only [hx, Bool.false_eq_true, if_false, h]
  cases e <;> rfl

theorem dmaWrite_eq {x : DmaSide} (hx : x.host = false) {bs : List Byte} {r : Option MemErr} {z : State}
    (h : s.writeMem iDMA (x.at (16 * i)) bs = (r, z)) : s.dmaWrite x i bs = (r.map fun _ => 0x20, z) := by
  rw [State.dmaWrite]
  simp only [hx, Bool.false_eq_true, if_false, h]
  cases r <;> rfl

theorem dmaUnit_fill (hop : d.op = 2) {r : Option Nat} {z : State}
    (h : s.dmaWrite d.dstSide i (bytesLE 8 d.src ++ bytesLE 8 d.src) = (r, z)) :
    s.dmaUnit d i = (r.map fun e => (e, 16 * i), z) := by
  rw [State.dmaUnit]
  simp only [hop, if_true, h]
  cases r <;> rfl

variable (hop : d.op ≠ 2)
include hop

theorem dmaUnit_unread {e : Nat} {y : State} (h : s.dmaRead d.srcSide i = (.error e, y)) :
    s.dmaUnit d i = (some (e, 16 * i), y) := by
  rw [State.dmaUnit]
  simp only [hop, if_false, h]

theorem dmaUnit_copy (h1 : d.op = 1) {bs : List Byte} {y z : State} {r : Option Nat} (h : s.dmaRead d.srcSide i = (.ok bs, y))
    (hw : y.dmaWrite d.dstSide i bs = (r, z)) : s.dmaUnit d i = (r.map fun e => (e, 16 * i), z) := by
  rw [State.dmaUnit, if_neg hop]
  simp only [h, h1, if_true, hw]
  cases r <;> rfl

theorem dmaUnit_compare (h1 : d.op ≠ 1) {bs cs : List Byte} {y z : State} (h : s.dmaRead d.srcSide i = (.ok bs, y))
    (hr : y.dmaRead d.dstSide i = (.ok cs, z)) :
    s.dmaUnit d i = ((firstDiff bs cs 0).map fun k => (0x01, 16 * i + k), z) := by
  rw [State.dmaUnit, if_neg hop]
  simp only [h, h1, if_false, hr]

end

/-- The first byte at which two units differ. -/
theorem firstDiff_facts {as bs : List Byte} {i k : Nat} (h : firstDiff as bs i = some k) :
    i ≤ k ∧ as[k - i]? ≠ bs[k - i]? ∧ ∀ j < k - i, as[j]? = bs[j]? := by
  induction as generalizing bs i with
  | nil => exact absurd h (by simp [firstDiff])
  | cons a as ih =>
    cases bs with
    | nil => exact absurd h (by simp [firstDiff])
    | cons b bs =>
      rw [firstDiff] at h
      split at h
      · next he =>
        obtain ⟨h1, h2, h3⟩ := ih h
        have hk : k - i = k - (i + 1) + 1 := by omega
        refine ⟨by omega, ?_, fun j hj => ?_⟩
        · rw [hk, List.getElem?_cons_succ, List.getElem?_cons_succ]
          exact h2
        · cases j with
          | zero => rw [List.getElem?_cons_zero, List.getElem?_cons_zero, he]
          | succ j =>
            rw [List.getElem?_cons_succ, List.getElem?_cons_succ]
            exact h3 j (by omega)
      · next hne =>
        obtain rfl : i = k := Option.some.inj h
        refine ⟨le_refl _, ?_, fun j hj => absurd hj (by omega)⟩
        rw [Nat.sub_self, List.getElem?_cons_zero, List.getElem?_cons_zero]
        exact fun he => hne (Option.some.inj he)

/-- Settles O46: a descriptor by the state it finds its channel in, and a unit by what reading its source and writing or
reading its destination answers. -/
theorem dmaDescriptors : Obligations.DmaDescriptors := by
  refine ⟨fun s t c n h => ?_, fun s d i h3 h4 => ?_, fun as bs k h => ?_⟩
  · dsimp only
    intro op hop
    rw [exec_dmaRow s t c n h hop]
    generalize s.at t = u at *
    refine ⟨fun ho => by rw [dmaExecute_other n h ho], fun d rest hon he ho hb hd e hc => ?_,
      fun d rest hon he ho hb hd hc hn hh => ?_, fun e y f hon he hb hd hf hn hh hu => ?_⟩
    · exact ⟨_, congrArg Host.Outcome.next (dmaExecute_refused n h hon he ho hb hd hc), rfl, rfl, dmaCh_setDmaCh_self _ _ _⟩
    · subst hn hh
      exact ⟨_, congrArg Host.Outcome.next (dmaExecute_begins hon he ho hb hd hc), rfl, rfl, dmaCh_setDmaCh_self _ _ _⟩
    · subst hn hh
      rw [dmaExecute_one hon he hb hd hf hu]
  · have hsrc : d.srcSide.host = false := h3
    have hdst : d.dstSide.host = false := h4
    dsimp only
    refine ⟨fun bs y hr => ⟨fun z h1 hw => ?_, fun e z h1 hw => ?_, fun cs z h1 hw => ?_⟩, fun z h2 hw => ?_, fun e y h1 hr => ?_⟩
    · rw [dmaUnit_copy (by omega) h1 (dmaRead_ok hsrc hr) (dmaWrite_eq hdst hw)]
      rfl
    · rw [dmaUnit_copy (by omega) h1 (dmaRead_ok hsrc hr) (dmaWrite_eq hdst hw)]
      rfl
    · exact dmaUnit_compare (by omega) (by omega) (dmaRead_ok hsrc hr) (dmaRead_ok hdst hw)
    · rw [dmaUnit_fill h2 (dmaWrite_eq hdst hw)]
      rfl
    · exact dmaUnit_unread (by omega) (dmaRead_error hsrc hr)
  · obtain ⟨-, h2, h3⟩ := firstDiff_facts h
    exact ⟨h2, h3⟩

end Sys2Proof.Machine
end

section
/-! Platforms and their mailboxes (R374–R378). -/

namespace Sys2Proof.Machine

section
variable (s : State)

@[simp] theorem pltCh_setPltCh_self (c : Nat) (q : PltCh) : (s.setPltCh c q).pltCh c = q := Tab.get_put_self _ _ _ _

/-- PLT_ARR follows the queues and stands in registers of its own (R378). -/
theorem pltArr_kept (c : Nat) : (s.pltArr c).mem = s.mem ∧ (s.pltArr c).plt = s.plt ∧ (s.pltArr c).acc = s.acc ∧
    (s.pltArr c).clk = s.clk ∧ ∀ a, 0x20900028 ≤ a → (s.pltArr c).reg a = s.reg a := by
  rw [State.pltArr]
  refine foldl_invariant (P := fun v : State => v.mem = s.mem ∧ v.plt = s.plt ∧ v.acc = s.acc ∧ v.clk = s.clk ∧
    ∀ a, 0x20900028 ≤ a → v.reg a = s.reg a) (fun v x hx hv => ?_) ⟨rfl, rfl, rfl, rfl, fun _ _ => rfl⟩
  obtain ⟨h1, h2, h3, h4, h5⟩ := hv
  have hx3 : x < 3 := List.mem_range.1 hx
  refine ⟨(setB_mem _ _ _ _).trans h1, (setB_plt _ _ _ _).trans h2, (setB_acc _ _ _ _).trans h3, (setB_clk _ _ _ _).trans h4,
    fun a ha => (reg_setB_ne v ?_ _ _).trans (h5 a ha)⟩
  split
  · simp only [Reg.PLT_ARR_LO]; omega
  · simp only [Reg.PLT_ARR_HI]; omega

/-- The endpoints and wake bits of a channel stand in PLT_CH_CFG. -/
theorem pltArr_cfg (c d : Nat) : (s.pltArr c).reg (Reg.PLT_CH_CFG d) = s.reg (Reg.PLT_CH_CFG d) :=
  (pltArr_kept s c).2.2.2.2 _ (by simp only [Reg.PLT_CH_CFG]; omega)

/-! ### Refusals (R376) -/

theorem pltRefuse_facts {c bit : Nat} (hc : c < 64) (hbit : bit < 8) (ev : Nat) :
    (s.pltRefuse c bit ev).fb Reg.PLT_ERR bit = true ∧ (s.pltRefuse c bit ev).f Reg.PLT_ERR 13 8 = c ∧
    (s.pltRefuse c bit ev).sbx.raised = s.sbx.raised ++ [{ src := srcPLT, ev := ev, ts := s.now }] ∧
    (s.pltRefuse c bit ev).plt = s.plt ∧ (s.pltRefuse c bit ev).mem = s.mem ∧ (s.pltRefuse c bit ev).acc = s.acc := by
  rw [State.pltRefuse]
  refine ⟨?_, ?_, ?_, ?_, ?_, ?_⟩
  · rw [fb_raise, fb_setF_field _ (by decide) (by decide) (by omega), fb_setB_self _ _ (by omega)]
  · rw [f_raise, f_setF_self _ _ (by decide) (by decide)]
    exact Nat.mod_eq_of_lt hc
  · rw [raised_raise, setF_sbx, setB_sbx, State.now, setF_clk, setB_clk, State.now]
  · rw [raise_plt, setF_plt, setB_plt]
  · rw [raise_mem, setF_mem, setB_mem]
  · rw [raise_acc, setF_acc, setB_acc]

variable {s} {c : Nat}

theorem pltGuard_unbound (h : s.pltBound c = false) (e : Option Nat) : s.pltGuard e c = some (2, 0) := if_pos (by simp [h])

theorem pltGuard_foreign (h : s.pltBound c = true) {e : Option Nat}
    (he : e = none ∨ ∃ x, e = some x ∧ x ≠ s.pltA c ∧ x ≠ s.pltB c) : s.pltGuard e c = some (0, 0) := by
  rcases he with rfl | ⟨x, rfl, ha, hb⟩
  · exact if_neg (by simp [h])
  · have hs : s.pltSends x c = none := by rw [State.pltSends, if_neg (Ne.symm ha), if_neg (Ne.symm hb)]
    rw [State.pltGuard, if_neg (by simp [h])]
    simp [hs]

theorem pltSends_own {e : Nat} (h : e = s.pltA c ∨ e = s.pltB c) : s.pltSends e c = some (decide (s.pltA c = e)) := by
  rw [State.pltSends]
  by_cases ha : s.pltA c = e
  · rw [if_pos ha, decide_eq_true ha]
  · have hb : s.pltB c = e := by
      rcases h with h | h
      · exact absurd h.symm ha
      · exact h.symm
    rw [if_neg ha, if_pos hb, decide_eq_false ha]

theorem pltGuard_own (h : s.pltBound c = true) {e : Nat} (he : e = s.pltA c ∨ e = s.pltB c) : s.pltGuard (some e) c = none := by
  rw [State.pltGuard, if_neg (by simp [h])]
  simp [pltSends_own he]

theorem pltTx_refused (w : Word) {e : Option Nat} {b ev : Nat} (h : s.pltGuard e c = some (b, ev)) :
    s.pltTx e c w = s.pltRefuse c b ev := by
  rw [State.pltTx]
  simp only [h]

theorem pltPop_refused (n : Nat) {e : Option Nat} {b ev : Nat} (h : s.pltGuard e c = some (b, ev)) :
    s.pltPop e c n = s.pltRefuse c b ev := by
  rw [State.pltPop]
  simp only [h]

theorem pltRx_refused (i : Nat) {e : Option Nat} {b ev : Nat} (h : s.pltGuard e c = some (b, ev)) :
    s.pltRx e c i = (0, s.pltRefuse c b ev) := by
  rw [State.pltRx]
  simp only [h]

/-! ### Accesses of an endpoint (R375, R377) -/

/-- The state with a word on its way. -/
def State.pltSent (s : State) (c : Nat) (toB : Bool) (w : Word) : State :=
  { s with plt := { s.plt with fly := s.plt.fly ++ [{ ch := c, toB := toB, word := w, due := (s.now / 256 + 2) * 256 }] } }

variable {e : Nat} (hb : s.pltBound c = true) (he : e = s.pltA c ∨ e = s.pltB c)
include hb he

theorem pltTx_full (w : Word) (h : 8 ≤ s.pltCount c (decide (s.pltA c = e))) :
    s.pltTx (some e) c w = s.pltRefuse c 1 1 := by
  rw [State.pltTx]
  simp only [pltGuard_own hb he, Option.bind_some, pltSends_own he, Option.getD_some]
  exact if_pos h

theorem pltTx_sent (w : Word) (h : s.pltCount c (decide (s.pltA c = e)) < 8) : s.pltTx (some e) c w =
    if decide (s.pltA c = e) then (s.pltSent c (decide (s.pltA c = e)) w).incSat (Reg.PLT_CH_CNT c) 15 0
    else (s.pltSent c (decide (s.pltA c = e)) w).incSat (Reg.PLT_CH_CNT c) 31 16 := by
  rw [State.pltTx]
  simp only [pltGuard_own hb he, Option.bind_some, pltSends_own he, Option.getD_some]
  exact if_neg (Nat.not_le.mpr h)

theorem pltTx_facts (w : Word) (h : s.pltCount c (decide (s.pltA c = e)) < 8) :
    (s.pltTx (some e) c w).plt.ch = s.plt.ch ∧ (s.pltTx (some e) c w).mem = s.mem ∧
    (s.pltTx (some e) c w).plt.fly = s.plt.fly ++
      [{ ch := c, toB := decide (s.pltA c = e), word := w, due := (s.now / 256 + 2) * 256 }] ∧
    (s.pltTx (some e) c w).pltCount c (decide (s.pltA c = e)) = s.pltCount c (decide (s.pltA c = e)) + 1 := by
  have hsent : (s.pltSent c (decide (s.pltA c = e)) w).pltCount c (decide (s.pltA c = e)) =
      s.pltCount c (decide (s.pltA c = e)) + 1 := by
    rw [State.pltCount, State.pltCount, State.pltFlying, State.pltFlying, State.pltSent, State.pltCh, State.pltCh]
    dsimp only
    rw [List.filter_append, List.length_append, List.filter_cons_of_pos (by simp), List.filter_nil, List.length_singleton,
      Nat.add_assoc]
  rw [pltTx_sent hb he w h]
  split
  · exact ⟨rfl, rfl, rfl, hsent⟩
  · exact ⟨rfl, rfl, rfl, hsent⟩

theorem pltRx_own (i : Nat) : s.pltRx (some e) c i = (((s.pltIncoming e c)[i]?.map (·.1)).getD 0, s) := by
  rw [State.pltRx]
  simp only [pltGuard_own hb he, Option.getD_some]

theorem pltPop_own (n : Nat) : s.pltPop (some e) c n = s.pltDrop e c n := by
  rw [State.pltPop]
  simp only [pltGuard_own hb he, Option.getD_some]

omit hb he in
/-- The channel after its receiver has popped `k` words. -/
theorem pltDrop_local (n : Nat) (h : (if s.pltA c = e then s.pltB c else s.pltA c) ≠ 3) : s.pltDrop e c n =
    (s.setPltCh c (if s.pltA c = e then { s.pltCh c with ba := (s.pltCh c).ba.drop (min n (s.pltRipe e c).length) }
      else { s.pltCh c with ab := (s.pltCh c).ab.drop (min n (s.pltRipe e c).length) })).pltArr c := by
  have hcfg : ∀ q, ((s.setPltCh c q).pltArr c).reg (Reg.PLT_CH_CFG c) = s.reg (Reg.PLT_CH_CFG c) := fun q => pltArr_cfg _ c c
  have hA : ∀ q, ((s.setPltCh c q).pltArr c).pltA c = s.pltA c := fun q => f_of_reg (hcfg q) _ _
  have hB : ∀ q, ((s.setPltCh c q).pltArr c).pltB c = s.pltB c := fun q => f_of_reg (hcfg q) _ _
  rw [State.pltDrop]
  simp only [hA, hB]
  exact if_neg (by simp [h, eLINE])

omit hb he in
theorem pltDrop_facts (n : Nat) (h : (if s.pltA c = e then s.pltB c else s.pltA c) ≠ 3) :
    (s.pltDrop e c n).pltIncoming e c = (s.pltIncoming e c).drop (min n (s.pltRipe e c).length) ∧
    (s.pltDrop e c n).plt.fly = s.plt.fly ∧ (s.pltDrop e c n).mem = s.mem := by
  rw [pltDrop_local n h]
  generalize min n (s.pltRipe e c).length = k
  have hall : ∀ q, ((s.setPltCh c q).pltArr c).pltA c = s.pltA c ∧ ((s.setPltCh c q).pltArr c).pltCh c = q ∧
      ((s.setPltCh c q).pltArr c).plt.fly = s.plt.fly ∧ ((s.setPltCh c q).pltArr c).mem = s.mem := fun q => by
    obtain ⟨h1, h2, -⟩ := pltArr_kept (s.setPltCh c q) c
    refine ⟨f_of_reg (pltArr_cfg _ c c) _ _, ?_, by rw [h2]; rfl, h1⟩
    rw [State.pltCh, h2]
    exact pltCh_setPltCh_self s c q
  obtain ⟨h1, h2, h3, h4⟩ := hall (if s.pltA c = e then { s.pltCh c with ba := (s.pltCh c).ba.drop k }
    else { s.pltCh c with ab := (s.pltCh c).ab.drop k })
  refine ⟨?_, h3, h4⟩
  rw [State.pltIncoming, State.pltIncoming, h1, h2]
  by_cases ha : s.pltA c = e
  · simp only [if_pos ha]
  · simp only [if_neg ha]

end

/-! ### PLT_CH_CFG (R374, R380) -/

theorem storedEndpoint_lt (e : Nat) : storedEndpoint e < 8 := by
  rw [storedEndpoint, eNONE]
  split <;> omega

/-- The fields of a channel's word. -/
theorem cfgWord_fields {a b k : Nat} (ha : a < 8) (hb : b < 8) (hk : k < 16) :
    bits (BitVec.ofNat 32 (a + 16 * b + 256 * k)) 2 0 = a ∧ bits (BitVec.ofNat 32 (a + 16 * b + 256 * k)) 6 4 = b ∧
    bits (BitVec.ofNat 32 (a + 16 * b + 256 * k)) 11 8 = k := by
  simp only [bits, BitVec.toNat_ofNat, Nat.reducePow, Nat.reduceSub, Nat.reduceAdd, Nat.div_one]
  omega

section
variable (s : State) (c : Nat) (w : Word)

theorem pltCfg_busy (hb : s.pltCount c true + s.pltCount c false ≠ 0)
    (h : storedEndpoint (bits w 2 0) ≠ s.pltA c ∨ storedEndpoint (bits w 6 4) ≠ s.pltB c) :
    s.pltCfg c w = s.raise srcPLT 2 := by
  rw [State.pltCfg]
  refine if_pos ?_
  rw [Bool.and_eq_true, Bool.or_eq_true, bne_iff_ne, bne_iff_ne, decide_eq_true_eq]
  exact ⟨hb, h⟩

theorem pltCfg_free (hb : ¬ s.pltCount c true + s.pltCount c false ≠ 0) : s.pltCfg c w =
    (s.setReg (Reg.PLT_CH_CFG c) (BitVec.ofNat 32
      (storedEndpoint (bits w 2 0) + 16 * storedEndpoint (bits w 6 4) + 256 * bits w 11 8))).pltArr c := by
  rw [State.pltCfg]
  exact if_neg (by simp [not_not.mp hb])

theorem pltCfg_facts (hb : ¬ s.pltCount c true + s.pltCount c false ≠ 0) :
    (s.pltCfg c w).pltA c = storedEndpoint (bits w 2 0) ∧ (s.pltCfg c w).pltB c = storedEndpoint (bits w 6 4) ∧
    (s.pltCfg c w).f (Reg.PLT_CH_CFG c) 11 8 = bits w 11 8 ∧ (s.pltCfg c w).plt = s.plt ∧ (s.pltCfg c w).mem = s.mem := by
  obtain ⟨h1, h2, h3⟩ := cfgWord_fields (storedEndpoint_lt (bits w 2 0)) (storedEndpoint_lt (bits w 6 4)) (bits_lt w 11 8)
  rw [pltCfg_free s c w hb]
  obtain ⟨k1, k2, -⟩ := pltArr_kept (s.setReg (Reg.PLT_CH_CFG c) (BitVec.ofNat 32
    (storedEndpoint (bits w 2 0) + 16 * storedEndpoint (bits w 6 4) + 256 * bits w 11 8))) c
  rw [State.pltA, State.pltB, f_of_reg (pltArr_cfg _ c c), f_of_reg (pltArr_cfg _ c c), f_of_reg (pltArr_cfg _ c c), State.f, State.f,
    State.f, reg_setReg_self]
  exact ⟨h1, h2, h3, k2, k1⟩

end

/-! ### Arrivals (R377–R379) -/

/-- The channel that a word has come to. -/
def State.pltArrived (s : State) (f : PltFly) : State :=
  (({ s with plt := { s.plt with fly := s.plt.fly.erase f } }).setPltCh f.ch
    (if f.toB then { s.pltCh f.ch with ab := (s.pltCh f.ch).ab ++ [(f.word, f.due)] }
      else { s.pltCh f.ch with ba := (s.pltCh f.ch).ba ++ [(f.word, f.due)] })).pltArr f.ch

theorem pltArrived_facts (s : State) (f : PltFly) : (s.pltArrived f).plt.fly = s.plt.fly.erase f ∧ (s.pltArrived f).mem = s.mem ∧
    (∀ d, (s.pltArrived f).reg (Reg.PLT_CH_CFG d) = s.reg (Reg.PLT_CH_CFG d)) ∧
    (s.pltArrived f).pltCh f.ch = if f.toB then { s.pltCh f.ch with ab := (s.pltCh f.ch).ab ++ [(f.word, f.due)] }
      else { s.pltCh f.ch with ba := (s.pltCh f.ch).ba ++ [(f.word, f.due)] } := by
  rw [State.pltArrived]
  generalize (if f.toB then { s.pltCh f.ch with ab := (s.pltCh f.ch).ab ++ [(f.word, f.due)] }
    else { s.pltCh f.ch with ba := (s.pltCh f.ch).ba ++ [(f.word, f.due)] }) = q
  obtain ⟨k1, k2, -⟩ := pltArr_kept (({ s with plt := { s.plt with fly := s.plt.fly.erase f } }).setPltCh f.ch q) f.ch
  refine ⟨by rw [k2]; rfl, k1, fun d => pltArr_cfg _ _ _, ?_⟩
  rw [State.pltCh, k2]
  exact Tab.get_put_self _ _ _ _

/-- The wake event of an arrival. -/
def State.pltWakes (s : State) (f : PltFly) : Option Nat → State
  | some d => if s.fb (Reg.PLT_CH_CFG f.ch) (if f.toB then 11 else 10) then s.wakeEvent d else s
  | none => s

theorem pltArrive_eq (s : State) (f : PltFly) : s.pltArrive f =
    (s.pltArrived f).pltWakes f (endpointDom (if f.toB then (s.pltArrived f).pltB f.ch else (s.pltArrived f).pltA f.ch)) := by
  rw [State.pltArrive, ← State.pltArrived]
  cases endpointDom (if f.toB then (s.pltArrived f).pltB f.ch else (s.pltArrived f).pltA f.ch) <;> rfl

section
variable {s : State} {t : Tick} {ini : Fin 7} {c : Fin 64}

theorem exec_pltChCfgWrite (w : Word) : exec (.pltChCfgWrite t ini c w) s =
    if ini.val ≤ 1 then .next (((s.at t).pltCfg c w).setAcc ini {}) else .next ((s.at t).setAcc ini { err := .bus }) := by
  change execPltChCfgWrite t ini c w s = _
  rw [execPltChCfgWrite]

theorem exec_pltRxRead (i : Fin 8) : exec (.pltRxRead t ini c i) s =
    .next (((s.at t).pltRx (endpointOf ini) c i).2.setAcc ini { value := ((s.at t).pltRx (endpointOf ini) c i).1.toNat }) := by
  change execPltRxRead t ini c i s = _
  rw [execPltRxRead]

theorem exec_pltWordArrive_none (toB : Bool) (h : ∀ f ∈ (s.at t).plt.fly, f.ch = c.val → f.toB ≠ toB) :
    exec (.pltWordArrive t c toB) s = .next (s.at t) := by
  change execPltWordArrive t c toB s = _
  rw [execPltWordArrive]
  generalize s.at t = u at *
  have hf : u.plt.fly.find? (fun w => w.ch == c.val && w.toB == toB) = none :=
    List.find?_eq_none.2 fun f hf => by
      simp only [Bool.and_eq_true, beq_iff_eq, not_and]
      exact h f hf
  simp only [hf]

theorem exec_pltWordArrive {toB : Bool} {f : PltFly}
    (h : (s.at t).plt.fly.find? (fun f => f.ch == c.val && f.toB == toB) = some f) :
    exec (.pltWordArrive t c toB) s = if f.due ≤ (s.at t).now then .next ((s.at t).pltArrive f) else .next (s.at t) := by
  change execPltWordArrive t c toB s = _
  rw [execPltWordArrive]
  generalize s.at t = u at *
  simp only [h]

end

theorem setAcc_facts (s : State) (ini : Nat) (r : AccResult) : (s.setAcc ini r).plt = s.plt ∧ (s.setAcc ini r).mem = s.mem ∧
    (s.setAcc ini r).regs = s.regs ∧ (s.setAcc ini r).sbx = s.sbx := ⟨rfl, rfl, rfl, rfl⟩

/-- Settles O48: each access by the guard it passes or fails, and an arrival by the channel it leaves. -/
theorem platforms : Obligations.Platforms := by
  intro s t ini c w
  dsimp only
  have hcfg := exec_pltChCfgWrite (s := s) (t := t) (ini := ini) (c := c) w
  have htx : exec (.pltTx t ini c w) s = .next ((s.at t).pltTx (endpointOf ini) c w) := rfl
  have hpop : ∀ n, exec (.pltPop t ini c n) s = .next ((s.at t).pltPop (endpointOf ini) c n) := fun _ => rfl
  have hrx := fun i => exec_pltRxRead (s := s) (t := t) (ini := ini) (c := c) i
  have hnone := fun toB => exec_pltWordArrive_none (s := s) (t := t) (c := c) toB
  have hsome := fun toB f => exec_pltWordArrive (s := s) (t := t) (c := c) (toB := toB) (f := f)
  generalize s.at t = u at *
  refine ⟨fun hi => ?_, fun hi hb h => ?_, fun hi hb => ?_, fun hb => ⟨?_, fun n => ?_, fun i => ?_⟩, fun hb he => ?_,
    fun e hb he hown => ⟨fun h8 => ?_, fun h8 => ?_, fun i => ?_, fun hl n => ?_⟩, fun toB => ⟨hnone toB, fun f hf => ?_⟩⟩
  · rw [hcfg, if_neg (Nat.not_le.mpr hi)]
  · rw [hcfg, if_pos hi, pltCfg_busy u c w hb h]
  · exact ⟨_, hcfg.trans (if_pos hi), pltCfg_facts u c w hb⟩
  · obtain ⟨r1, r2, r3, r4, r5, -⟩ := pltRefuse_facts u c.isLt (bit := 2) (by decide) 0
    exact ⟨_, htx.trans (congrArg Host.Outcome.next (pltTx_refused w (pltGuard_unbound hb _))), r1, r2, r3, r4, r5⟩
  · obtain ⟨r1, r2, r3, r4, r5, -⟩ := pltRefuse_facts u c.isLt (bit := 2) (by decide) 0
    exact ⟨_, (hpop n).trans (congrArg Host.Outcome.next (pltPop_refused n (pltGuard_unbound hb _))), r1, r2, r3, r4, r5⟩
  · obtain ⟨r1, r2, r3, r4, r5, r6⟩ := pltRefuse_facts u c.isLt (bit := 2) (by decide) 0
    have hx := hrx i
    rw [pltRx_refused i (pltGuard_unbound hb _)] at hx
    refine ⟨_, hx, ⟨r1, r2, r3, r4, r5⟩, ?_⟩
    rw [State.setAcc, r6]
    rfl
  · obtain ⟨r1, r2, r3, r4, r5, -⟩ := pltRefuse_facts u c.isLt (bit := 0) (by decide) 0
    exact ⟨_, htx.trans (congrArg Host.Outcome.next (pltTx_refused w (pltGuard_foreign hb he))), r1, r2, r3, r4, r5⟩
  · obtain ⟨r1, r2, r3, r4, r5, -⟩ := pltRefuse_facts u c.isLt (bit := 1) (by decide) 1
    rw [he] at htx
    exact ⟨_, htx.trans (congrArg Host.Outcome.next (pltTx_full hb hown w h8)), r1, r2, r3, r4, r5⟩
  · rw [he] at htx
    exact ⟨_, htx, pltTx_facts hb hown w h8⟩
  · have hx := hrx i
    rw [he, pltRx_own hb hown] at hx
    rw [hx, List.getD_eq_getElem?_getD]
    cases (u.pltIncoming e c)[i.val]? <;> rfl
  · have hx := hpop n
    rw [he, pltPop_own hb hown] at hx
    exact ⟨_, hx, pltDrop_facts n hl⟩
  · have hch : f.ch = c.val ∧ f.toB = toB := by simpa using List.find?_some hf
    obtain ⟨hfc, hft⟩ := hch
    refine ⟨fun hlt => by rw [hsome toB f hf, if_neg (Nat.not_le.mpr hlt)], fun hle => ?_⟩
    obtain ⟨a1, a2, a3, a4⟩ := pltArrived_facts u f
    rw [hsome toB f hf, if_pos hle, pltArrive_eq, State.pltB, State.pltA, f_of_reg (a3 _), f_of_reg (a3 _)]
    refine ⟨u.pltArrived f, ?_, a1, a2, fun hb => ?_, fun hb => ?_⟩
    · rw [hfc, hft, State.pltB, State.pltA]
      refine congrArg Host.Outcome.next ?_
      cases endpointDom (if toB then u.f (Reg.PLT_CH_CFG c) 6 4 else u.f (Reg.PLT_CH_CFG c) 2 0) with
      | none => rfl
      | some d =>
        change (if (u.pltArrived f).fb (Reg.PLT_CH_CFG f.ch) (if f.toB then 11 else 10) then _ else _) = _
        rw [hfc, hft, fb_of_reg (a3 _)]
    · rw [hft, hb, if_pos rfl, hfc] at a4
      rw [a4]
      exact ⟨rfl, rfl⟩
    · rw [hft, hb, if_neg (by decide), hfc] at a4
      rw [a4]
      exact ⟨rfl, rfl⟩

end Sys2Proof.Machine
end

section
/-! The Signal Box: its source bits, the taking of events, block resets, the pin and the messages of the Line. -/

namespace Sys2Proof.Machine

/-! ### The bits of 64 sources -/

section
variable (s : State) (lo hi i : Nat) (b : Bool)

theorem bit64_congr {s u : State} {lo hi : Nat} (h : s.reg lo = u.reg lo) (h' : s.reg hi = u.reg hi) (i : Nat) :
    s.bit64 lo hi i = u.bit64 lo hi i := by
  rw [State.bit64, State.bit64]
  split
  · exact fb_of_reg h _
  · exact fb_of_reg h' _

theorem reg_setBit64_ne {r : Nat} (h : r ≠ lo) (h' : r ≠ hi) : (s.setBit64 lo hi i b).reg r = s.reg r := by
  rw [State.setBit64]
  exact reg_setB_ne s (by split <;> assumption) _ _

theorem bit64_setBit64_self : (s.setBit64 lo hi i b).bit64 lo hi i = b := by
  rw [State.bit64, State.setBit64]
  exact fb_setB_self s _ (Nat.mod_lt _ (by decide)) b

theorem bit64_setBit64_ne {j : Nat} (hne : lo ≠ hi) (hi6 : i < 64) (hj : j < 64) (h : j ≠ i) :
    (s.setBit64 lo hi i b).bit64 lo hi j = s.bit64 lo hi j := by
  rw [State.bit64, State.bit64, State.setBit64]
  by_cases hside : (i < 32) ↔ (j < 32)
  · simp only [hside]
    exact fb_setB_bit s (Nat.mod_lt _ (by decide)) (by omega) b
  · refine fb_setB_ne s ?_ _ b _
    by_cases h32 : i < 32 <;> simp only [h32, true_iff, false_iff, not_not] at hside <;> simp [h32, hside, hne, hne.symm]

theorem setBit64_mem : (s.setBit64 lo hi i b).mem = s.mem := setB_mem _ _ _ _
theorem setBit64_sbx : (s.setBit64 lo hi i b).sbx = s.sbx := setB_sbx _ _ _ _
theorem setBit64_clk : (s.setBit64 lo hi i b).clk = s.clk := setB_clk _ _ _ _
theorem setBit64_sq : (s.setBit64 lo hi i b).sq = s.sq := setB_sq _ _ _ _
theorem setBit64_gcores : (s.setBit64 lo hi i b).gcores = s.gcores := setB_gcores _ _ _ _

end

theorem active_congr {s u : State} (h : ∀ r < 0x20400018, s.reg r = u.reg r) (i : Nat) : s.sbxActive i = u.sbxActive i :=
  bit64_congr (h _ (by decide)) (h _ (by decide)) i

/-! ### The pin -/

/-- The pin changes neither registers nor memory, nor what the Signal Box holds of its sources. -/
theorem errPin_facts (s : State) : s.errPin.regs = s.regs ∧ s.errPin.mem = s.mem ∧ s.errPin.clk = s.clk ∧
    s.errPin.gcores = s.gcores ∧ s.errPin.hwSet = s.hwSet ∧ s.errPin.sbx.chip = s.sbx.chip ∧
    s.errPin.sbx.last = s.sbx.last := by
  rw [State.errPin]
  dsimp only
  split_ifs <;> exact ⟨rfl, rfl, rfl, rfl, rfl, rfl, rfl⟩

theorem errPin_reg (s : State) (a : Nat) : s.errPin.reg a = s.reg a := reg_of_regs (errPin_facts s).1 a

/-- A source wants the pin low (R392). -/
theorem errPin_low (s : State) : s.errPin.sbx.errLow = true ↔
    (s.fb Reg.SBX_CTRL 2 = true ∨ ∃ x < 64, s.sbxActive x = true ∧ s.fb (Reg.SBX_SRC_CFG x) 3 = true) ∨
      (s.sbx.errLow = true ∧ s.now < s.sbx.errAt + 6400) := by
  have hw : (s.fb Reg.SBX_CTRL 2 || (List.range 64).any fun i => s.sbxActive i && s.fb (Reg.SBX_SRC_CFG i) 3) = true ↔
      s.fb Reg.SBX_CTRL 2 = true ∨ ∃ x < 64, s.sbxActive x = true ∧ s.fb (Reg.SBX_SRC_CFG x) 3 = true := by
    simp only [Bool.or_eq_true, List.any_eq_true, List.mem_range, Bool.and_eq_true]
  rw [← hw, State.errPin]
  dsimp only
  by_cases hwant : (s.fb Reg.SBX_CTRL 2 || (List.range 64).any fun i => s.sbxActive i && s.fb (Reg.SBX_SRC_CFG i) 3) = true
  · rw [if_pos hwant, eq_true hwant, true_or, iff_true]
    split
    · assumption
    · rfl
  · rw [if_neg hwant, eq_false hwant, false_or]
    cases hl : s.sbx.errLow
    · simp [hl]
    · by_cases ht : s.sbx.errAt + 6400 ≤ s.now
      · simp [ht, Nat.not_lt.mpr ht]
      · simp [ht, hl, Nat.lt_of_not_le ht]

/-! ### The first event -/

theorem before_asymm {e f : Raised} (h : e.before f = true) : f.before e = false := by
  simp only [Raised.before, Bool.or_eq_true, Bool.or_eq_false_iff, Bool.and_eq_true, Bool.and_eq_false_iff,
    decide_eq_true_eq, decide_eq_false_iff_not, beq_iff_eq, beq_eq_false_iff_ne, Bool.not_eq_true',
    Bool.not_eq_false'] at *
  grind

theorem before_irrefl (e : Raised) : e.before e = false := by
  simp [Raised.before]

/-- An event that does not come before a second, and that second not before a third, does not come before it. -/
theorem not_before_trans {e f g : Raised} (h : f.before e = false) (h' : g.before f = false) : g.before e = false := by
  simp only [Raised.before, Bool.or_eq_false_iff, Bool.and_eq_false_iff, decide_eq_false_iff_not,
    beq_eq_false_iff_ne, Bool.not_eq_false'] at *
  grind

theorem firstRaised_first (es : List Raised) (e : Raised) (h : firstRaised es = some e) :
    e ∈ es ∧ ∀ f ∈ es, f.before e = false := by
  induction es generalizing e with
  | nil => simp [firstRaised] at h
  | cons x es ih =>
    rw [firstRaised] at h
    cases hf : firstRaised es with
    | none =>
      have hnil : es = [] := by
        cases es with
        | nil => rfl
        | cons y ys =>
          exfalso
          rw [firstRaised] at hf
          cases hy : firstRaised ys with
          | none => simp [hy] at hf
          | some z =>
            rw [hy] at hf
            dsimp only at hf
            split at hf <;> cases hf
      rw [hf] at h
      cases h
      simp [hnil, before_irrefl]
    | some f =>
      obtain ⟨hmem, hfirst⟩ := ih f hf
      rw [hf] at h
      dsimp only at h
      split at h
      · next hb =>
        cases h
        refine ⟨List.mem_cons_of_mem _ hmem, fun y hy => ?_⟩
        rcases List.mem_cons.mp hy with rfl | hy
        · exact before_asymm hb
        · exact hfirst y hy
      · next hb =>
        cases h
        refine ⟨List.mem_cons_self, fun y hy => ?_⟩
        rcases List.mem_cons.mp hy with rfl | hy
        · exact before_irrefl _
        · exact not_before_trans (Bool.eq_false_of_not_eq_true hb) (hfirst y hy)

/-! ### The first step of an edge -/

theorem nmiSettle_facts (s : State) : s.nmiSettle.mem = s.mem ∧ s.nmiSettle.clk = s.clk ∧
    s.nmiSettle.sbx.rst = s.sbx.rst ∧ s.nmiSettle.sbx.raised = s.sbx.raised ∧
    s.nmiSettle.fb Reg.SBX_NMI 7 = !s.nmiSettle.sbx.nmi.isEmpty ∧
    (∀ n ∈ s.nmiSettle.sbx.nmi, s.gcoreRuns n = true ∧
      ((Tab.get {} s.gcores n).nmi = true ∨ (Tab.get {} s.gcores n).nmiService = true)) ∧
    ∀ r ≠ Reg.SBX_NMI, s.nmiSettle.reg r = s.reg r := by
  rw [State.nmiSettle]
  refine ⟨setB_mem _ _ _ _, setB_clk _ _ _ _, by rw [setB_sbx], by rw [setB_sbx], ?_, fun n hn => ?_,
    fun r hr => reg_setB_ne _ hr _ _⟩
  · rw [fb_setB_self _ _ (by decide), setB_sbx]
  · rw [setB_sbx] at hn
    simpa using (List.mem_filter.mp hn).2

/-- The shadow of source `i` is over at an edge (R390). -/
def shadowOver (s : State) (edge : Tick) (i : Nat) : Bool :=
  match (Tab.get none s.sbx.rst i).bind (·.shadow) with
  | some e => decide (e ≤ edge)
  | none => false

/-- One source of step 1 of R385. -/
def State.endShadow (s : State) (i : Nat) : State :=
  match Tab.get none s.sbx.rst i with
  | some { shadow := some e, .. } =>
    if e ≤ s.refEdge then s.setBit64 Reg.SBX_RST_LO Reg.SBX_RST_HI i false else s
  | _ => s

theorem sbxStep1_eq (s : State) : s.sbxStep1 = (List.range 64).foldl State.endShadow s.nmiSettle := rfl

theorem endShadow_eq (s : State) (i : Nat) : s.endShadow i =
    if shadowOver s s.refEdge i then s.setBit64 Reg.SBX_RST_LO Reg.SBX_RST_HI i false else s := by
  rw [State.endShadow, shadowOver]
  rcases Tab.get none s.sbx.rst i with _ | ⟨_, _ | e, _⟩ <;> simp

theorem endShadow_facts (s : State) (i : Nat) : (s.endShadow i).mem = s.mem ∧ (s.endShadow i).sbx = s.sbx ∧
    (s.endShadow i).clk = s.clk ∧ ∀ r ≠ Reg.SBX_RST_LO, r ≠ Reg.SBX_RST_HI → (s.endShadow i).reg r = s.reg r := by
  rw [endShadow_eq]
  split
  · exact ⟨setBit64_mem _ _ _ _ _, setBit64_sbx _ _ _ _ _, setBit64_clk _ _ _ _ _,
      fun r h h' => reg_setBit64_ne _ _ _ _ _ h h'⟩
  · exact ⟨rfl, rfl, rfl, fun _ _ _ => rfl⟩

theorem endShadow_inRst (s : State) {i j : Nat} (hi : i < 64) (hj : j < 64) : (s.endShadow j).sbxInRst i =
    (s.sbxInRst i && !(decide (i = j) && shadowOver s s.refEdge i)) := by
  rw [endShadow_eq, State.sbxInRst, State.sbxInRst]
  by_cases h : i = j
  · subst h
    cases shadowOver s s.refEdge i
    · simp
    · simp [bit64_setBit64_self]
  · simp only [h, decide_false, Bool.false_and, Bool.not_false, Bool.and_true]
    split
    · exact bit64_setBit64_ne _ _ _ _ _ (by decide) hj hi h
    · rfl

theorem endShadows_facts (s : State) (l : List Nat) : (l.foldl State.endShadow s).mem = s.mem ∧
    (l.foldl State.endShadow s).sbx = s.sbx ∧ (l.foldl State.endShadow s).clk = s.clk ∧
    ∀ r ≠ Reg.SBX_RST_LO, r ≠ Reg.SBX_RST_HI → (l.foldl State.endShadow s).reg r = s.reg r := by
  induction l generalizing s with
  | nil => exact ⟨rfl, rfl, rfl, fun _ _ _ => rfl⟩
  | cons i l ih =>
    obtain ⟨hm, hx, hc, hr⟩ := ih (s.endShadow i)
    obtain ⟨hm', hx', hc', hr'⟩ := endShadow_facts s i
    exact ⟨hm.trans hm', hx.trans hx', hc.trans hc', fun r h h' => (hr r h h').trans (hr' r h h')⟩

theorem endShadows_inRst (s : State) (l : List Nat) (hl : ∀ j ∈ l, j < 64) {i : Nat} (hi : i < 64) :
    (l.foldl State.endShadow s).sbxInRst i = (s.sbxInRst i && !(decide (i ∈ l) && shadowOver s s.refEdge i)) := by
  induction l generalizing s with
  | nil => simp
  | cons j l ih =>
    obtain ⟨_, hx, hc, _⟩ := endShadow_facts s j
    have hs : shadowOver (s.endShadow j) (s.endShadow j).refEdge i = shadowOver s s.refEdge i := by
      rw [shadowOver, shadowOver, hx, State.refEdge, State.now, hc, State.refEdge, State.now]
    rw [List.foldl_cons, ih (s.endShadow j) fun k hk => hl k (List.mem_cons_of_mem _ hk), hs,
      endShadow_inRst s hi (hl j List.mem_cons_self)]
    by_cases h : i = j <;> by_cases h' : i ∈ l <;> cases shadowOver s s.refEdge i <;> simp [h, h']

theorem sbxStep1_facts (s : State) : s.sbxStep1.sbx.nmi = s.nmiSettle.sbx.nmi ∧
    s.sbxStep1.fb Reg.SBX_NMI 7 = (!s.sbxStep1.sbx.nmi.isEmpty) ∧ s.sbxStep1.mem = s.mem ∧
    s.sbxStep1.sbx.raised = s.sbx.raised ∧
    ∀ i < 64, s.sbxStep1.sbxInRst i = (s.sbxInRst i && !shadowOver s s.refEdge i) := by
  obtain ⟨hm, hc, hrst, hra, hb, -, hr⟩ := nmiSettle_facts s
  obtain ⟨hm', hx', hc', hr'⟩ := endShadows_facts s.nmiSettle (List.range 64)
  rw [sbxStep1_eq]
  refine ⟨by rw [hx'], ?_, hm'.trans hm, by rw [hx', hra], fun i hi => ?_⟩
  · rw [fb_of_reg (hr' Reg.SBX_NMI (by decide) (by decide)), hb, hx']
  · rw [endShadows_inRst _ _ (fun j hj => List.mem_range.mp hj) hi, State.sbxInRst, State.sbxInRst,
      bit64_congr (hr _ (by decide)) (hr _ (by decide))]
    have hs : shadowOver s.nmiSettle s.nmiSettle.refEdge i = shadowOver s s.refEdge i := by
      rw [shadowOver, shadowOver, hrst, State.refEdge, State.now, hc, State.refEdge, State.now]
    simp [hs, hi]

/-! ### Recording an event -/

/-- An entry of the history (R393): its words, the next entry's number, and what stays. -/
theorem histWrite_facts (s : State) (ts info org : Nat) :
    (s.histWrite ts info org).reg (Reg.SBX_HIST_W0 (s.f Reg.SBX_HIST_HEAD 4 0)) = BitVec.ofNat 32 ts ∧
    (s.histWrite ts info org).reg (Reg.SBX_HIST_W1 (s.f Reg.SBX_HIST_HEAD 4 0)) = BitVec.ofNat 32 (ts / 2 ^ 32) ∧
    (s.histWrite ts info org).reg (Reg.SBX_HIST_W2 (s.f Reg.SBX_HIST_HEAD 4 0)) = BitVec.ofNat 32 info ∧
    (s.histWrite ts info org).reg (Reg.SBX_HIST_W3 (s.f Reg.SBX_HIST_HEAD 4 0)) = BitVec.ofNat 32 org ∧
    (s.histWrite ts info org).f Reg.SBX_HIST_HEAD 4 0 = (s.f Reg.SBX_HIST_HEAD 4 0 + 1) % 32 := by
  have hlt : s.f Reg.SBX_HIST_HEAD 4 0 < 32 := f_lt s _ _ _
  rw [State.histWrite]
  generalize s.f Reg.SBX_HIST_HEAD 4 0 = h at hlt ⊢
  refine ⟨?_, ?_, ?_, ?_, ?_⟩
  · rw [reg_incSat_ne _ (by simp only [Reg.SBX_HIST_W0, Reg.SBX_HIST_CNT]; omega),
      reg_setF_ne _ (by simp only [Reg.SBX_HIST_W0, Reg.SBX_HIST_HEAD]; omega),
      reg_setReg_ne _ (by simp only [Reg.SBX_HIST_W0, Reg.SBX_HIST_W3]; omega),
      reg_setReg_ne _ (by simp only [Reg.SBX_HIST_W0, Reg.SBX_HIST_W2]; omega),
      reg_setReg_ne _ (by simp only [Reg.SBX_HIST_W0, Reg.SBX_HIST_W1]; omega), reg_setReg_self]
  · rw [reg_incSat_ne _ (by simp only [Reg.SBX_HIST_W1, Reg.SBX_HIST_CNT]; omega),
      reg_setF_ne _ (by simp only [Reg.SBX_HIST_W1, Reg.SBX_HIST_HEAD]; omega),
      reg_setReg_ne _ (by simp only [Reg.SBX_HIST_W1, Reg.SBX_HIST_W3]; omega),
      reg_setReg_ne _ (by simp only [Reg.SBX_HIST_W1, Reg.SBX_HIST_W2]; omega), reg_setReg_self]
  · rw [reg_incSat_ne _ (by simp only [Reg.SBX_HIST_W2, Reg.SBX_HIST_CNT]; omega),
      reg_setF_ne _ (by simp only [Reg.SBX_HIST_W2, Reg.SBX_HIST_HEAD]; omega),
      reg_setReg_ne _ (by simp only [Reg.SBX_HIST_W2, Reg.SBX_HIST_W3]; omega), reg_setReg_self]
  · rw [reg_incSat_ne _ (by simp only [Reg.SBX_HIST_W3, Reg.SBX_HIST_CNT]; omega),
      reg_setF_ne _ (by simp only [Reg.SBX_HIST_W3, Reg.SBX_HIST_HEAD]; omega), reg_setReg_self]
  · rw [f_incSat_ne _ (by decide), f_setF_self _ _ (by decide) (by decide)]
    rfl

/-- A history entry changes the history's registers only. -/
theorem histWrite_kept (s : State) (ts info org : Nat) : (s.histWrite ts info org).mem = s.mem ∧
    (s.histWrite ts info org).sbx = s.sbx ∧ (s.histWrite ts info org).gcores = s.gcores ∧
    (s.histWrite ts info org).clk = s.clk ∧
    ∀ r, r < 0x20400040 ∨ 0x20400A00 ≤ r → (s.histWrite ts info org).reg r = s.reg r := by
  have hlt : s.f Reg.SBX_HIST_HEAD 4 0 < 32 := f_lt s _ _ _
  rw [State.histWrite]
  generalize s.f Reg.SBX_HIST_HEAD 4 0 = h at hlt ⊢
  refine ⟨by simp only [incSat_mem, setF_mem, setReg_mem], by simp only [incSat_sbx, setF_sbx, setReg_sbx],
    by simp only [incSat_gcores, setF_gcores, setReg_gcores], by simp only [incSat_clk, setF_clk, setReg_clk],
    fun r hr => ?_⟩
  rw [reg_incSat_ne _ (by simp only [Reg.SBX_HIST_CNT]; omega), reg_setF_ne _ (by simp only [Reg.SBX_HIST_HEAD]; omega),
    reg_setReg_ne _ (by simp only [Reg.SBX_HIST_W3]; omega), reg_setReg_ne _ (by simp only [Reg.SBX_HIST_W2]; omega),
    reg_setReg_ne _ (by simp only [Reg.SBX_HIST_W1]; omega), reg_setReg_ne _ (by simp only [Reg.SBX_HIST_W0]; omega)]

/-- A source's entry into the fault state changes its status bits and its count. -/
theorem sbxEnter_facts (s : State) {src : Nat} (hsrc : src < 64) (ts : Tick) :
    (s.sbxEnter src ts).mem = s.mem ∧ (s.sbxEnter src ts).gcores = s.gcores ∧
    (s.sbxEnter src ts).sbx = { s.sbx with last := Tab.put 0 s.sbx.last src ts } ∧
    (s.sbxEnter src ts).sbxActive src = true ∧
    (s.sbxEnter src ts).f (Reg.SBX_SRC_CNT src) 11 0 = min 4095 (s.f (Reg.SBX_SRC_CNT src) 11 0 + 1) ∧
    ∀ r, r < 0x20400008 ∨ 0x20400018 ≤ r → r ≠ Reg.SBX_SRC_CNT src → (s.sbxEnter src ts).reg r = s.reg r := by
  rw [State.sbxEnter]
  dsimp only
  refine ⟨?_, ?_, ?_, ?_, ?_, fun r hr hne => ?_⟩
  · rw [incSat_mem, setBit64_mem, setBit64_mem]
  · rw [incSat_gcores, setBit64_gcores, setBit64_gcores]
  · rw [incSat_sbx, setBit64_sbx, setBit64_sbx]
  · rw [State.sbxActive, bit64_congr (reg_incSat_ne _ (by simp only [Reg.SBX_ACTIVE_LO, Reg.SBX_SRC_CNT]; omega) _ _ _)
      (reg_incSat_ne _ (by simp only [Reg.SBX_ACTIVE_HI, Reg.SBX_SRC_CNT]; omega) _ _ _)]
    exact bit64_setBit64_self _ _ _ _ _
  · rw [f_incSat_self _ _ (by decide) (by decide), satAdd_one (f_lt _ _ _ _)]
    refine congrArg (fun n => min 4095 (n + 1)) (f_of_reg ?_ 11 0)
    exact (reg_setBit64_ne _ _ _ _ _ (by simp only [Reg.SBX_ACTIVE_LO, Reg.SBX_SRC_CNT]; omega)
      (by simp only [Reg.SBX_ACTIVE_HI, Reg.SBX_SRC_CNT]; omega)).trans
      (reg_setBit64_ne _ _ _ _ _ (by simp only [Reg.SBX_STATUS_LO, Reg.SBX_SRC_CNT]; omega)
        (by simp only [Reg.SBX_STATUS_HI, Reg.SBX_SRC_CNT]; omega))
  · rw [reg_incSat_ne _ hne]
    exact (reg_setBit64_ne _ _ _ _ _ (by simp only [Reg.SBX_ACTIVE_LO]; omega) (by simp only [Reg.SBX_ACTIVE_HI]; omega)).trans
      (reg_setBit64_ne _ _ _ _ _ (by simp only [Reg.SBX_STATUS_LO]; omega) (by simp only [Reg.SBX_STATUS_HI]; omega))

/-! ### Taking an event -/

/-- What a state `v` holds once an entry was written to the history of `x`, whose history stands as in `s`. -/
theorem recorded_of_histWrite {s x v : State} {ts info org : Nat} (hh : x.reg Reg.SBX_HIST_HEAD = s.reg Reg.SBX_HIST_HEAD)
    (hm : x.mem = s.mem) (hv : ∀ r < 0x20400A00, v.reg r = (x.histWrite ts info org).reg r)
    (hvm : v.mem = (x.histWrite ts info org).mem) :
    v.reg (Reg.SBX_HIST_W0 (s.f Reg.SBX_HIST_HEAD 4 0)) = BitVec.ofNat 32 ts ∧
    v.reg (Reg.SBX_HIST_W1 (s.f Reg.SBX_HIST_HEAD 4 0)) = BitVec.ofNat 32 (ts / 2 ^ 32) ∧
    v.reg (Reg.SBX_HIST_W2 (s.f Reg.SBX_HIST_HEAD 4 0)) = BitVec.ofNat 32 info ∧
    v.reg (Reg.SBX_HIST_W3 (s.f Reg.SBX_HIST_HEAD 4 0)) = BitVec.ofNat 32 org ∧
    v.f Reg.SBX_HIST_HEAD 4 0 = (s.f Reg.SBX_HIST_HEAD 4 0 + 1) % 32 ∧ v.mem = s.mem := by
  obtain ⟨h0, h1, h2, h3, hhead⟩ := histWrite_facts x ts info org
  have hlt : s.f Reg.SBX_HIST_HEAD 4 0 < 32 := f_lt s _ _ _
  rw [f_of_reg hh] at h0 h1 h2 h3 hhead
  generalize s.f Reg.SBX_HIST_HEAD 4 0 = h at *
  refine ⟨(hv _ ?_).trans h0, (hv _ ?_).trans h1, (hv _ ?_).trans h2, (hv _ ?_).trans h3,
    (f_of_reg (hv _ (by decide)) _ _).trans hhead,
    hvm.trans ((histWrite_kept x ts info org).1.trans hm)⟩
  · simp only [Reg.SBX_HIST_W0]; omega
  · simp only [Reg.SBX_HIST_W1]; omega
  · simp only [Reg.SBX_HIST_W2]; omega
  · simp only [Reg.SBX_HIST_W3]; omega

theorem nmiCores_congr {s u : State} (hg : s.gcores = u.gcores) (hc : s.reg Reg.SBX_CTRL = u.reg Reg.SBX_CTRL)
    (hd : s.reg (Reg.PWR_DOM_STATE 2) = u.reg (Reg.PWR_DOM_STATE 2)) : s.nmiCores = u.nmiCores := by
  have hrun : s.gcoreRuns = u.gcoreRuns := by
    funext n
    rw [State.gcoreRuns, State.gcoreRuns, hg, State.domOn, State.domOn, f_of_reg hd]
  rw [State.nmiCores, State.nmiCores, hrun]
  exact List.filter_congr fun n _ => congrArg (· && u.gcoreRuns n) (fb_of_reg hc n)

/-- A core is told of an NMI. -/
def State.tellNmi (s : State) (n : Nat) : State :=
  { s with gcores := Tab.put {} s.gcores n { Tab.get {} s.gcores n with nmi := true } }

theorem deliverNmi_eq (s : State) (src : Nat) : s.deliverNmi src =
    (({ s.nmiCores.foldl State.tellNmi s with
        sbx := { (s.nmiCores.foldl State.tellNmi s).sbx with nmi := s.nmiCores } } : State).setF Reg.SBX_NMI 5 0 src).setB
      Reg.SBX_NMI 7 true := rfl

theorem tellNmi_told (s : State) (l : List Nat) {n : Nat} (h : n ∈ l) :
    (Tab.get {} (l.foldl State.tellNmi s).gcores n).nmi = true := by
  refine foldl_establish (P := fun u : State => (Tab.get {} u.gcores n).nmi = true) (fun u m _ hu => ?_) h
    (fun u => ?_) s
  · by_cases hm : n = m
    · subst hm
      simp [State.tellNmi, Tab.get_put_self]
    · simpa [State.tellNmi, Tab.get_put_ne _ hm] using hu
  · simp [State.tellNmi, Tab.get_put_self]

theorem tellNmi_kept (s : State) (l : List Nat) : (l.foldl State.tellNmi s).regs = s.regs ∧
    (l.foldl State.tellNmi s).mem = s.mem :=
  foldl_invariant (f := State.tellNmi) (P := fun u : State => u.regs = s.regs ∧ u.mem = s.mem) (fun _ _ _ h => h) ⟨rfl, rfl⟩

theorem deliverNmi_facts (s : State) {src : Nat} (hsrc : src < 64) : (s.deliverNmi src).mem = s.mem ∧
    (s.deliverNmi src).f Reg.SBX_NMI 5 0 = src ∧ (s.deliverNmi src).fb Reg.SBX_NMI 7 = true ∧
    (∀ n ∈ s.nmiCores, (Tab.get {} (s.deliverNmi src).gcores n).nmi = true) ∧
    ∀ r ≠ Reg.SBX_NMI, (s.deliverNmi src).reg r = s.reg r := by
  obtain ⟨hr, hm⟩ := tellNmi_kept s s.nmiCores
  rw [deliverNmi_eq]
  refine ⟨by rw [setB_mem, setF_mem]; exact hm, ?_, fb_setB_self _ _ (by decide) _, fun n hn => ?_, fun r h => ?_⟩
  · rw [f_setB_field _ (by decide) (by decide), f_setF_self _ _ (by decide) (by decide)]
    exact Nat.mod_eq_of_lt hsrc
  · rw [setB_gcores, setF_gcores]
    exact tellNmi_told s _ hn
  · rw [reg_setB_ne _ h, reg_setF_ne _ h]
    exact reg_of_regs hr r

theorem ldgRecord_chip (s : State) (cls kind units : Nat) (body : List Byte) :
    (s.ldgRecord cls kind units body).sbx.chip = s.sbx.chip := by
  unfold State.ldgRecord
  split
  · simp [State.ldgLost, State.raise]
  · rw [State.ldgQueue]
    split <;> rfl

theorem chipReset_facts (s : State) (src ev : Nat) (nested : Bool) : (s.chipReset src ev nested).sbx.chip = true ∧
    (s.chipReset src ev nested).reg Reg.SBX_CRST_CAUSE =
      BitVec.ofNat 32 (src + 64 * ev + 1024 + (if nested then 2048 else 0)) ∧
    ∀ r < 0x21600000, r ≠ Reg.SBX_CRST_CAUSE → (s.chipReset src ev nested).reg r = s.reg r := by
  rw [State.chipReset]
  refine ⟨?_, reg_setReg_self _ _ _, fun r hr hne => ?_⟩
  · rw [setReg_sbx, State.resetMark, ldgRecord_chip]
  · rw [reg_setReg_ne _ hne, State.resetMark, (ldgRecord_kept _ _ _ _ _).2.2 r hr]
    rfl

section
variable (s : State) (src ev act : Nat) (rep : Bool)

theorem react_low (hc : s.sbx.chip = false) (ha : act < 2) :
    s.react src ev act rep = { s := s, taken := if rep then 0 else act, repeat' := rep } := by
  rw [State.react]
  have h4 : act ≠ 4 := by omega
  have h2 : act ≠ 2 := by omega
  have h3 : act ≠ 3 := by omega
  cases rep <;> simp [hc, h4, h2, h3]

theorem react_nmi (hc : s.sbx.chip = false) (hn : s.sbx.nmi = []) (hne : s.nmiCores ≠ []) :
    s.react src ev 2 false = { s := s.deliverNmi src, taken := 2 } := by
  simp [State.react, hc, hn, hne]

theorem react_reset (hc : s.sbx.chip = false) (h : act = 4 ∨ (act = 2 ∧ (s.sbx.nmi ≠ [] ∨ s.nmiCores = []))) :
    (s.react src ev act rep).s = s.chipReset src ev (decide (act = 2)) := by
  rw [State.react]
  rcases h with rfl | ⟨rfl, h⟩
  · simp [hc]
  · rcases h with h | h <;> simp [hc, h]

end

/-- Entering the fault state leaves what the reaction reads. -/
theorem sbxEnter_reg (s : State) {src : Nat} (hsrc : src < 64) (ts : Tick) {r : Nat}
    (h : r < 0x20400008 ∨ 0x20400018 ≤ r) (h' : r % 32 ≠ 16 ∨ r < 0x20401000) : (s.sbxEnter src ts).reg r = s.reg r :=
  (sbxEnter_facts s hsrc ts).2.2.2.2.2 r h (by simp only [Reg.SBX_SRC_CNT]; omega)

theorem sbxEnter_nmiCores (s : State) {src : Nat} (hsrc : src < 64) (ts : Tick) :
    (s.sbxEnter src ts).nmiCores = s.nmiCores :=
  nmiCores_congr (sbxEnter_facts s hsrc ts).2.1 (sbxEnter_reg s hsrc ts (by decide) (by decide))
    (sbxEnter_reg s hsrc ts (by decide) (by decide))

/-- An event that is neither masked nor consequential, of a source that does not emit: the state is that of its
reaction with the entry of the history, and the pin follows (R388, R392, R393). -/
theorem takeEvent_reacted {s : State} {e : Raised} {x : Reaction} (hsrc : e.src < 64) (hb : e.brst = false)
    (hmask : s.fb (Reg.SBX_SRC_CFG e.src) (16 + e.ev) = true) (hq : s.consequential e = false)
    (hemit : s.fb (Reg.SBX_SRC_CFG e.src) 4 = false)
    (hr : (s.sbxEnter e.src e.ts).react e.src e.ev (s.f (Reg.SBX_SRC_CFG e.src) 2 0) (s.sbxActive e.src) = x)
    (hx : x.s.reg (Reg.SBX_SRC_CFG e.src) = s.reg (Reg.SBX_SRC_CFG e.src)) :
    s.takeEvent e = (x.s.histWrite e.ts (histInfo e.src e.ev x.taken (s.fb (Reg.SBX_SRC_CFG e.src) 3) false x.repeat'
      false x.escalated false) s.lineId).errPin := by
  have hk : (x.s.histWrite e.ts (histInfo e.src e.ev x.taken (s.fb (Reg.SBX_SRC_CFG e.src) 3) false x.repeat' false
      x.escalated false) s.lineId).fb (Reg.SBX_SRC_CFG e.src) 4 = false :=
    (fb_of_reg (((histWrite_kept x.s _ _ _).2.2.2.2 _ (by simp only [Reg.SBX_SRC_CFG]; omega)).trans hx) 4).trans hemit
  rw [State.takeEvent, if_neg (by simp [hb]), if_neg (by simp [hmask]), if_neg (by simp [hq])]
  dsimp only
  rw [hr, State.sbxEmit]
  simp only [hk, Bool.false_and, Bool.false_eq_true, if_false]

theorem sbxEnter_cfg (s : State) {src : Nat} (hsrc : src < 64) (ts : Tick) :
    (s.sbxEnter src ts).reg (Reg.SBX_SRC_CFG src) = s.reg (Reg.SBX_SRC_CFG src) :=
  sbxEnter_reg s hsrc ts (by simp only [Reg.SBX_SRC_CFG]; omega) (by simp only [Reg.SBX_SRC_CFG]; omega)

theorem sbxEnter_chip (s : State) {src : Nat} (hsrc : src < 64) (ts : Tick) :
    (s.sbxEnter src ts).sbx.chip = s.sbx.chip ∧ (s.sbxEnter src ts).sbx.nmi = s.sbx.nmi := by
  rw [(sbxEnter_facts s hsrc ts).2.2.1]
  exact ⟨rfl, rfl⟩

theorem exec_sbxEventTake (t : Tick) (s : State) : exec (.sbxEventTake t) s = execSbxEventTake t s := rfl

theorem sbxEventTake_none {s : State} {t : Tick} (h : firstRaised (s.at t).sbxStep1.sbx.raised = none) :
    exec (.sbxEventTake t) s = .next (s.at t).sbxStep1 := by
  rw [exec_sbxEventTake]
  unfold execSbxEventTake
  generalize (s.at t).sbxStep1 = u at *
  simp only [h]

theorem sbxEventTake_early {s : State} {t : Tick} {e : Raised} (h : firstRaised (s.at t).sbxStep1.sbx.raised = some e)
    (hd : (s.at t).sbxStep1.now < e.due) : exec (.sbxEventTake t) s = .next (s.at t).sbxStep1 := by
  rw [exec_sbxEventTake]
  unfold execSbxEventTake
  generalize (s.at t).sbxStep1 = u at *
  simp only [h, Nat.not_le.mpr hd, if_false]

theorem sbxEventTake_due {s : State} {t : Tick} {e : Raised} (h : firstRaised (s.at t).sbxStep1.sbx.raised = some e)
    (hd : e.due ≤ (s.at t).sbxStep1.now) : exec (.sbxEventTake t) s =
      .next ({ (s.at t).sbxStep1 with sbx := { (s.at t).sbxStep1.sbx with
        raised := (s.at t).sbxStep1.sbx.raised.erase e } }.takeEvent e) := by
  rw [exec_sbxEventTake]
  unfold execSbxEventTake
  generalize (s.at t).sbxStep1 = u at *
  simp only [h, hd, if_true]

/-- Settles O49: each of the four parts from the rule of the operation it speaks of. -/
theorem signalBoxEvents : Obligations.SignalBoxEvents := by
  unfold Obligations.SignalBoxEvents
  refine ⟨firstRaised_first, fun s t => ?_, fun s => ?_, fun s e hsrc hev hb => ?_⟩
  · dsimp only
    refine ⟨fun h => ?_, fun e he => ⟨fun h => ?_, fun h => ?_⟩⟩
    · exact sbxEventTake_none (by rw [h, firstRaised])
    · exact sbxEventTake_early he h
    · exact sbxEventTake_due he h
  · dsimp only
    obtain ⟨hn, hb, hm, hr, hi⟩ := sbxStep1_facts s
    refine ⟨hn, fun n h => (nmiSettle_facts s).2.2.2.2.2.1 n (hn ▸ h), hb, hm, hr, fun i h64 => ?_⟩
    rw [hi i h64, shadowOver]
    cases (Tab.get none s.sbx.rst i).bind (·.shadow) with
    | none => rfl
    | some e =>
      dsimp only
      rw [← decide_not]
      exact congrArg (s.sbxInRst i && ·) (decide_eq_decide.mpr Nat.not_le)
  · dsimp only
    obtain ⟨hem, -, hesbx, heact, hecnt, -⟩ := sbxEnter_facts s hsrc e.ts
    have hchip := sbxEnter_chip s hsrc e.ts
    have hecfg := sbxEnter_cfg s hsrc e.ts
    refine ⟨fun hmask => ?_, fun hmask hq => ?_, fun hmask hq hemit hc => ⟨fun ha => ?_, fun ha hrep hn hne => ?_, fun h => ?_⟩⟩
    · rw [State.takeEvent, if_neg (by simp [hb]), if_pos (by simp [hmask])]
    · have hv : s.takeEvent e = (s.histWrite e.ts (histInfo e.src e.ev 0 false true false false false false) s.lineId).incSat
          (Reg.SBX_SRC_CNT e.src) 23 12 := by
        rw [State.takeEvent, if_neg (by simp [hb]), if_neg (by simp [hmask]), if_pos hq]
      have hk := (histWrite_kept s e.ts (histInfo e.src e.ev 0 false true false false false false) s.lineId).2.2.2.2
      rw [hv]
      refine ⟨recorded_of_histWrite rfl rfl (fun r hr => reg_incSat_ne _ (by simp only [Reg.SBX_SRC_CNT]; omega) _ _ _)
        (incSat_mem _ _ _ _ _), ?_, active_congr (fun r hr => ?_) _⟩
      · rw [f_incSat_self _ _ (by decide) (by decide), satAdd_one (f_lt _ _ _ _),
          f_of_reg (hk _ (by simp only [Reg.SBX_SRC_CNT]; omega))]
        rfl
      · rw [reg_incSat_ne _ (by simp only [Reg.SBX_SRC_CNT]; omega)]
        exact hk r (by omega)
    · have hv := takeEvent_reacted hsrc hb hmask hq hemit (react_low _ _ _ _ _ (hchip.1.trans hc) ha) hecfg
      obtain ⟨-, hxb, -, -, hxr⟩ := histWrite_kept (s.sbxEnter e.src e.ts) e.ts (histInfo e.src e.ev
        (if s.sbxActive e.src then 0 else s.f (Reg.SBX_SRC_CFG e.src) 2 0) (s.fb (Reg.SBX_SRC_CFG e.src) 3) false
        (s.sbxActive e.src) false false false) s.lineId
      dsimp only at hv
      rw [hv]
      refine ⟨recorded_of_histWrite (sbxEnter_reg s hsrc _ (by decide) (by decide)) hem (fun r _ => errPin_reg _ _)
        (errPin_facts _).2.1, (active_congr (fun r hr => ?_) _).trans heact, (f_of_reg ?_ _ _).trans hecnt, ?_, fun h3 => ?_⟩
      · rw [errPin_reg, hxr r (by omega)]
      · rw [errPin_reg, hxr _ (by simp only [Reg.SBX_SRC_CNT]; omega)]
      · rw [(errPin_facts _).2.2.2.2.2.2, hxb, hesbx]
        exact Tab.get_put_self _ _ _ _
      · refine (errPin_low _).mpr (Or.inl (Or.inr ⟨e.src, hsrc, (active_congr (fun r hr => hxr r (by omega)) _).trans heact, ?_⟩))
        rw [fb_of_reg ((hxr _ (by simp only [Reg.SBX_SRC_CFG]; omega)).trans hecfg)]
        exact h3
    · rw [← hchip.2] at hn
      rw [← sbxEnter_nmiCores s hsrc e.ts] at hne
      obtain ⟨hdm, hd5, hd7, hdn, hdr⟩ := deliverNmi_facts (s.sbxEnter e.src e.ts) hsrc
      have hd : ((s.sbxEnter e.src e.ts).deliverNmi e.src).reg (Reg.SBX_SRC_CFG e.src) = s.reg (Reg.SBX_SRC_CFG e.src) :=
        (hdr _ (by simp only [Reg.SBX_SRC_CFG, Reg.SBX_NMI]; omega)).trans hecfg
      have hv := takeEvent_reacted hsrc hb hmask hq hemit
        ((congrArg₂ _ ha hrep).trans (react_nmi _ _ _ (hchip.1.trans hc) hn hne)) hd
      obtain ⟨-, -, hxg, -, hxr⟩ := histWrite_kept ((s.sbxEnter e.src e.ts).deliverNmi e.src) e.ts (histInfo e.src e.ev
        2 (s.fb (Reg.SBX_SRC_CFG e.src) 3) false false false false false) s.lineId
      dsimp only at hv
      rw [hv]
      refine ⟨recorded_of_histWrite ((hdr _ (by decide)).trans (sbxEnter_reg s hsrc _ (by decide) (by decide)))
        (hdm.trans hem) (fun r _ => errPin_reg _ _) (errPin_facts _).2.1, (f_of_reg ?_ _ _).trans hd5,
        (fb_of_reg ?_ _).trans hd7, fun n hcn => ?_⟩
      · rw [errPin_reg, hxr _ (by decide)]
      · rw [errPin_reg, hxr _ (by decide)]
      · rw [(errPin_facts _).2.2.2.1, hxg]
        exact hdn n (by rw [sbxEnter_nmiCores s hsrc]; exact hcn)
    · rw [← hchip.2, ← sbxEnter_nmiCores s hsrc e.ts] at h
      have hs := react_reset _ e.src e.ev _ (s.sbxActive e.src) (hchip.1.trans hc) h
      obtain ⟨hch, hcause, hcr⟩ := chipReset_facts (s.sbxEnter e.src e.ts) e.src e.ev
        (decide (s.f (Reg.SBX_SRC_CFG e.src) 2 0 = 2))
      rw [← hs] at hch hcause hcr
      have hv := takeEvent_reacted hsrc hb hmask hq hemit rfl
        ((hcr _ (by simp only [Reg.SBX_SRC_CFG]; omega) (by simp only [Reg.SBX_SRC_CFG, Reg.SBX_CRST_CAUSE]; omega)).trans hecfg)
      rw [hv]
      refine ⟨?_, ?_⟩
      · rw [(errPin_facts _).2.2.2.2.2.1, (histWrite_kept _ _ _ _).2.1]
        exact hch
      · rw [errPin_reg, (histWrite_kept _ _ _ _).2.2.2.2 _ (by decide), hcause]
        simp only [decide_eq_true_eq]

end Sys2Proof.Machine
end

section
/-! The Signal Box between its events: block resets, leaving the fault state, held emissions and messages. -/

namespace Sys2Proof.Machine

/-! ### Leaving the fault state -/

theorem sbxExit_facts (s : State) {src : Nat} (hsrc : src < 64) : (s.sbxExit src).mem = s.mem ∧
    (s.sbxExit src).hwSet = s.hwSet ∧ (s.sbxExit src).clk = s.clk ∧ (s.sbxExit src).sbxActive src = false ∧
    (∀ x < 64, x ≠ src → (s.sbxExit src).sbxActive x = s.sbxActive x) ∧
    (s.sbxExit src).f (Reg.SBX_SRC_QUIET src) 31 16 = min 65535 (s.f (Reg.SBX_SRC_QUIET src) 31 16 + 1) := by
  have hact : ∀ x, (s.sbxExit src).sbxActive x =
      (s.setBit64 Reg.SBX_ACTIVE_LO Reg.SBX_ACTIVE_HI src false).sbxActive x := fun x =>
    active_congr (fun r hr => by
      rw [State.sbxExit, errPin_reg, reg_incSat_ne _ (by simp only [Reg.SBX_SRC_QUIET]; omega)]) x
  refine ⟨?_, ?_, ?_, (hact src).trans (bit64_setBit64_self _ _ _ _ _), fun x hx hne =>
    (hact x).trans (bit64_setBit64_ne _ _ _ _ _ (by decide) hsrc hx hne), ?_⟩
  · rw [State.sbxExit, (errPin_facts _).2.1, incSat_mem, setBit64_mem]
  · rw [State.sbxExit, (errPin_facts _).2.2.2.2.1]
    rfl
  · rw [State.sbxExit, (errPin_facts _).2.2.1, incSat_clk, setBit64_clk]
  · rw [State.sbxExit, f_of_reg (errPin_reg _ _), f_incSat_self _ _ (by decide) (by decide), satAdd_one (f_lt _ _ _ _),
      f_of_reg (reg_setBit64_ne s _ _ _ _ (by simp only [Reg.SBX_SRC_QUIET, Reg.SBX_ACTIVE_LO]; omega)
        (by simp only [Reg.SBX_SRC_QUIET, Reg.SBX_ACTIVE_HI]; omega))]
    rfl

/-- The source of bit `i` of the low or high word of active sources. -/
def activeSrc (hi : Bool) (i : Nat) : Nat := (if hi then 32 else 0) + i

/-- The bits of the low or high word that became 1 in this CORE cycle (R14). -/
def State.activeNew (s : State) (hi : Bool) (i : Nat) : Bool :=
  (s.setHere (if hi then Reg.SBX_ACTIVE_HI else Reg.SBX_ACTIVE_LO)).getLsbD i

/-- One bit of a write to the active sources. -/
def State.ackSource (hi : Bool) (w : Word) (s : State) (i : Nat) : State :=
  if bits w i i = 1 && s.sbxActive (activeSrc hi i) && !s.activeNew hi i then s.sbxExit (activeSrc hi i) else s

theorem activeWrite_eq (s : State) (hi : Bool) (w : Word) :
    s.activeWrite hi w = (List.range 32).foldl (State.ackSource hi w) s := rfl

/-- Bit `i` of the word keeps its source in the fault state. -/
def State.ackKeeps (s : State) (hi : Bool) (w : Word) (i : Nat) : Bool := !w.getLsbD i || s.activeNew hi i

theorem activeNew_congr {s u : State} (h : s.hwSet = u.hwSet) (hc : s.clk = u.clk) (hi : Bool) (i : Nat) :
    s.activeNew hi i = u.activeNew hi i := by
  rw [State.activeNew, State.activeNew, State.setHere, State.setHere, h, hc]

theorem bits_one_iff (w : Word) (i : Nat) : bits w i i = 1 ↔ w.getLsbD i = true := by
  rw [bits, BitVec.getLsbD, Nat.testBit_eq_decide_div_mod_eq, decide_eq_true_iff]
  simp

theorem ackSource_facts (hi : Bool) (w : Word) (s : State) {j : Nat} (hj : j < 32) :
    (State.ackSource hi w s j).mem = s.mem ∧ (State.ackSource hi w s j).hwSet = s.hwSet ∧
    (State.ackSource hi w s j).clk = s.clk ∧ ∀ x < 64, (State.ackSource hi w s j).sbxActive x =
      (s.sbxActive x && !(decide (x = activeSrc hi j) && !s.ackKeeps hi w j)) := by
  have hsrc : activeSrc hi j < 64 := by cases hi <;> simp [activeSrc] <;> omega
  obtain ⟨hm, hh, hc, hself, hne, -⟩ := sbxExit_facts s hsrc
  rw [State.ackSource, State.ackKeeps]
  have hb := bits_one_iff w j
  by_cases h : (bits w j j = 1 && s.sbxActive (activeSrc hi j) && !s.activeNew hi j) = true
  · rw [if_pos h]
    simp only [Bool.and_eq_true, decide_eq_true_eq, Bool.not_eq_true', hb] at h
    obtain ⟨⟨hw, -⟩, hnew⟩ := h
    refine ⟨hm, hh, hc, fun x hx => ?_⟩
    by_cases hxs : x = activeSrc hi j
    · simp [hxs, hself, hw, hnew]
    · simp [hxs, hne x hx hxs]
  · rw [if_neg h]
    refine ⟨rfl, rfl, rfl, fun x hx => ?_⟩
    by_cases hxs : x = activeSrc hi j
    · subst hxs
      simp only [Bool.and_eq_true, decide_eq_true_eq, Bool.not_eq_true', hb] at h
      cases hw : w.getLsbD j <;> cases ha : s.sbxActive (activeSrc hi j) <;> cases hn : s.activeNew hi j <;>
        simp [hw, ha, hn] at h ⊢
    · simp [hxs]

theorem ackSources_facts (hi : Bool) (w : Word) (s : State) (l : List Nat) (hl : ∀ j ∈ l, j < 32) :
    (l.foldl (State.ackSource hi w) s).mem = s.mem ∧ ∀ x < 64, (l.foldl (State.ackSource hi w) s).sbxActive x =
      (s.sbxActive x && l.all fun j => !(decide (x = activeSrc hi j) && !s.ackKeeps hi w j)) := by
  induction l generalizing s with
  | nil => exact ⟨rfl, fun x _ => by simp⟩
  | cons j l ih =>
    obtain ⟨hm, hh, hc, ha⟩ := ackSource_facts hi w s (hl j List.mem_cons_self)
    obtain ⟨hm', ha'⟩ := ih (State.ackSource hi w s j) fun k hk => hl k (List.mem_cons_of_mem _ hk)
    refine ⟨hm'.trans hm, fun x hx => ?_⟩
    rw [List.foldl_cons, ha' x hx, ha x hx, List.all_cons, Bool.and_assoc]
    simp only [State.ackKeeps, activeNew_congr hh hc]

/-- A write of the active sources (R389). -/
theorem activeWrite_facts (s : State) (hi : Bool) (w : Word) : (s.activeWrite hi w).mem = s.mem ∧ ∀ i < 32,
    (s.activeWrite hi w).sbxActive (activeSrc (!hi) i) = s.sbxActive (activeSrc (!hi) i) ∧
    (s.activeWrite hi w).sbxActive (activeSrc hi i) = (s.sbxActive (activeSrc hi i) && s.ackKeeps hi w i) := by
  obtain ⟨hm, ha⟩ := ackSources_facts hi w s (List.range 32) fun j hj => List.mem_range.mp hj
  rw [activeWrite_eq]
  have h64 : ∀ b, ∀ i < 32, activeSrc b i < 64 := fun b i h => by cases b <;> simp [activeSrc] <;> omega
  refine ⟨hm, fun i h => ⟨?_, ?_⟩⟩
  · rw [ha _ (h64 _ i h)]
    refine Bool.and_eq_left_iff_imp.mpr fun _ => List.all_eq_true.mpr fun j hj => ?_
    have hne : activeSrc (!hi) i ≠ activeSrc hi j := by
      have := List.mem_range.mp hj
      cases hi <;> simp [activeSrc] <;> omega
    simp [hne]
  · rw [ha _ (h64 _ i h)]
    congr 1
    rw [Bool.eq_iff_iff, List.all_eq_true]
    refine ⟨fun hall => by simpa using hall i (List.mem_range.mpr h), fun hk j _ => ?_⟩
    by_cases hji : activeSrc hi i = activeSrc hi j
    · have : i = j := by simpa [activeSrc] using hji
      subst this
      simp [hk]
    · simp [hji]

/-! ### Messages of the Line -/

theorem seqNew_iff (s : State) (org seq : Nat) :
    seqNew (if s.fb org 16 then some (s.f org 15 0) else none) seq = true ↔
      s.fb org 16 = false ∨ (1 ≤ (seq + 65536 - s.f org 15 0) % 65536 ∧ (seq + 65536 - s.f org 15 0) % 65536 ≤ 32767) := by
  cases h : s.fb org 16 <;> simp [seqNew]

theorem exec_remoteFaultTake (t : Tick) (s : State) : exec (.remoteFaultTake t) s = execRemoteFaultTake t s := rfl

theorem remoteFaultTake_none {s : State} {t : Tick} (h : (s.at t).sbxStep1.sbx.remote = []) :
    exec (.remoteFaultTake t) s = .next (s.at t).sbxStep1 := by
  rw [exec_remoteFaultTake]
  unfold execRemoteFaultTake
  generalize (s.at t).sbxStep1 = u at *
  simp only [h, firstRemote]

theorem remoteFaultTake_early {s : State} {t : Tick} {m : RemoteFault} (h : (s.at t).sbxStep1.sbx.remote = [m])
    (hd : (s.at t).sbxStep1.now < m.due ∨ (s.at t).sbxStep1.localDue = true) :
    exec (.remoteFaultTake t) s = .next (s.at t).sbxStep1 := by
  rw [exec_remoteFaultTake]
  unfold execRemoteFaultTake
  generalize (s.at t).sbxStep1 = u at *
  simp only [h, firstRemote]
  refine if_neg ?_
  rcases hd with hd | hd
  · simp [Nat.not_le.mpr hd]
  · simp [hd]

theorem remoteFaultTake_due {s : State} {t : Tick} {m : RemoteFault} (h : (s.at t).sbxStep1.sbx.remote = [m])
    (hd : m.due ≤ (s.at t).sbxStep1.now) (hl : (s.at t).sbxStep1.localDue = false) : exec (.remoteFaultTake t) s =
      .next ({ (s.at t).sbxStep1 with sbx := { (s.at t).sbxStep1.sbx with remote := [] } }.takeRemote m) := by
  rw [exec_remoteFaultTake]
  unfold execRemoteFaultTake
  generalize (s.at t).sbxStep1 = u at *
  simp only [h, firstRemote]
  rw [if_pos (by simp [hd, hl]), List.erase_cons_head]

section
variable {s : State} {m : RemoteFault} (y : Sbx)

theorem takeRemote_off (h : s.fb Reg.SBX_LINE_CFG 1 = false) :
    ({ s with sbx := y } : State).takeRemote m = { s with sbx := y } := by
  rw [State.takeRemote]
  exact if_pos ((Bool.not_eq_true' _).mpr h)

theorem takeRemote_seen (h : s.fb Reg.SBX_LINE_CFG 1 = true)
    (ho : nbits m.payload 9 0 = s.lineId ∨ ¬ seqNew (if s.fb (Reg.SBX_ORIGIN (nbits m.payload 9 0)) 16 then
      some (s.f (Reg.SBX_ORIGIN (nbits m.payload 9 0)) 15 0) else none) (nbits m.payload 35 20) = true) :
    ({ s with sbx := y } : State).takeRemote m = ({ s with sbx := y } : State).incSat Reg.SBX_LINE_CNT_A 31 16 := by
  rw [State.takeRemote]
  have hon : ¬ (!({ s with sbx := y } : State).fb Reg.SBX_LINE_CFG 1) = true :=
    fun hn => Bool.noConfusion (h.symm.trans ((Bool.not_eq_true' _).mp hn))
  by_cases hid : nbits m.payload 9 0 = s.lineId
  · exact (if_neg hon).trans (if_pos hid)
  · exact (if_neg hon).trans ((if_neg hid).trans (if_neg (ho.resolve_left hid)))

theorem takeRemote_new (h : s.fb Reg.SBX_LINE_CFG 1 = true)
    (ho : nbits m.payload 9 0 ≠ s.lineId) (hn : seqNew (if s.fb (Reg.SBX_ORIGIN (nbits m.payload 9 0)) 16 then
      some (s.f (Reg.SBX_ORIGIN (nbits m.payload 9 0)) 15 0) else none) (nbits m.payload 35 20) = true) :
    ({ s with sbx := y } : State).takeRemote m = (({ s with sbx := y } : State).setReg (Reg.SBX_ORIGIN (nbits m.payload 9 0))
      (BitVec.ofNat 32 (nbits m.payload 35 20 + 65536))).remoteNew m.at' m.payload := by
  rw [State.takeRemote]
  have hon : ¬ (!({ s with sbx := y } : State).fb Reg.SBX_LINE_CFG 1) = true :=
    fun hn => Bool.noConfusion (h.symm.trans ((Bool.not_eq_true' _).mp hn))
  exact (if_neg hon).trans ((if_neg ho).trans (if_pos hn))

end

/-! ### The commands -/

theorem shadowEnd_over {s : State} {t e : Tick} {src : Fin 64} {r : SbxRst}
    (hr : Tab.get none (s.at t).sbx.rst src.val = some r) (hs : r.shadow = some e) :
    exec (.shadowEnd t src) s = .next (if e ≤ (s.at t).now then
      (s.at t).setBit64 Reg.SBX_RST_LO Reg.SBX_RST_HI src.val false else s.at t) := by
  obtain ⟨st, sh, past⟩ := r
  cases hs
  change execShadowEnd t src s = _
  unfold execShadowEnd
  generalize s.at t = u at *
  simp only [hr]
  split <;> rfl

/-- A block has reported its reset (R390). -/
def State.resetDone (u : State) (src : Nat) (r : SbxRst) : State :=
  { u with
    sbx := { u.sbx with
      rst := Tab.put none u.sbx.rst src (some { r with shadow := some (u.now + u.f Reg.SBX_SHADOW 23 0) }) }
    sq := if src = 7 then { u.sq with halted := [] } else u.sq }

theorem resetDone_facts (u : State) (src : Nat) (r : SbxRst) : (u.resetDone src r).regs = u.regs ∧
    (u.resetDone src r).mem = u.mem ∧
    Tab.get none (u.resetDone src r).sbx.rst src = some { r with shadow := some (u.now + u.f Reg.SBX_SHADOW 23 0) } ∧
    (src = 7 → (u.resetDone src r).sq.halted = []) ∧ (src ≠ 7 → (u.resetDone src r).sq = u.sq) :=
  ⟨rfl, rfl, by simp [State.resetDone, Tab.get_put_self], fun h => by simp [State.resetDone, h], fun h => by simp [State.resetDone, h]⟩

/-- What a source held for emission is counted and let go (R394). -/
def State.releaseHeld (u : State) (src : Nat) : State :=
  { u.incSat Reg.SBX_LINE_CNT_B 15 0 (Tab.get 0 u.sbx.heldN src - 1) with
    sbx := { u.sbx with
      held := Tab.put none u.sbx.held src none
      heldN := Tab.put 0 u.sbx.heldN src 0 } }

theorem releaseHeld_facts (u : State) (src : Nat) : Tab.get none (u.releaseHeld src).sbx.held src = none ∧
    (u.releaseHeld src).mem = u.mem := ⟨by simp [State.releaseHeld, Tab.get_put_self], rfl⟩

theorem blockResetDone_next {s : State} {t : Tick} {src : Fin 64} {r : SbxRst}
    (hr : Tab.get none (s.at t).sbx.rst src.val = some r) : exec (.blockResetDone t src) s =
      .next (if r.shadow = none then (s.at t).resetDone src.val r else s.at t) := by
  change execBlockResetDone t src s = _
  unfold execBlockResetDone
  generalize s.at t = u at *
  simp only [hr]
  cases h : r.shadow <;> rfl

theorem quietExit_next {s : State} {t : Tick} {src : Fin 64} : exec (.quietExit t src) s =
    .next (if (s.at t).sbxActive src = true ∧ (s.at t).f (Reg.SBX_SRC_QUIET src) 15 0 ≠ 0 ∧
      Tab.get 0 (s.at t).sbx.last src.val + (s.at t).f (Reg.SBX_SRC_QUIET src) 15 0 * 6400000 ≤ (s.at t).now / 256 * 256 ∧
      (s.at t).localDue = false ∧ (s.at t).remoteDue = false then (s.at t).sbxExit src else s.at t) := by
  change execQuietExit t src s = _
  unfold execQuietExit
  generalize s.at t = u
  simp only [Bool.and_eq_true, decide_eq_true_eq, Bool.not_eq_true', and_assoc]
  rw [apply_ite Host.Outcome.next]
  rfl

theorem faultEmit_next {s : State} {t t0 : Tick} {src : Fin 64} {ev : Nat}
    (hh : Tab.get none (s.at t).sbx.held src.val = some ev) (hs : Tab.get none (s.at t).sbx.sent src.val = some t0)
    (hl : (s.at t).fb Reg.SBX_LINE_CFG 0 = true) : exec (.faultEmitHoldExpiry t src) s =
    .next (if t0 + 64000 ≤ (s.at t).now / 256 * 256 ∧ (s.at t).localDue = false ∧ (s.at t).remoteDue = false then
      ((s.at t).releaseHeld src.val).emitFault src ev true else s.at t) := by
  change execFaultEmitHoldExpiry t src s = _
  unfold execFaultEmitHoldExpiry
  generalize s.at t = u at *
  simp only [hh, hs, hl, Bool.and_eq_true, decide_eq_true_eq, Bool.not_eq_true', and_assoc, true_and]
  rw [apply_ite Host.Outcome.next]
  rfl

theorem blockResetDone_none {s : State} {t : Tick} {src : Fin 64} (h : Tab.get none (s.at t).sbx.rst src.val = none) :
    exec (.blockResetDone t src) s = .next (s.at t) := by
  change execBlockResetDone t src s = _
  unfold execBlockResetDone
  generalize s.at t = u at *
  simp only [h]

theorem shadowEnd_none {s : State} {t : Tick} {src : Fin 64} (h : Tab.get none (s.at t).sbx.rst src.val = none) :
    exec (.shadowEnd t src) s = .next (s.at t) := by
  change execShadowEnd t src s = _
  unfold execShadowEnd
  generalize s.at t = u at *
  simp only [h]

theorem faultEmit_none {s : State} {t : Tick} {src : Fin 64} (h : Tab.get none (s.at t).sbx.held src.val = none) :
    exec (.faultEmitHoldExpiry t src) s = .next (s.at t) := by
  change execFaultEmitHoldExpiry t src s = _
  unfold execFaultEmitHoldExpiry
  generalize s.at t = u at *
  simp only [h]

/-- A read of word 0 of a history entry (R393). -/
theorem sbxHistW0Read_facts (s : State) (t : Tick) (ini : Fin 7) (i : Fin 32) :
    ∃ v : State, exec (.sbxHistW0Read t ini i) s = .next v ∧ v.regs = (s.at t).regs ∧ v.mem = (s.at t).mem ∧
      (Tab.get {} v.acc ini.val).value = ((s.at t).reg (Reg.SBX_HIST_W0 i)).toNat ∧ Tab.get [] v.sbx.hold ini.val =
        [(s.at t).reg (Reg.SBX_HIST_W1 i), (s.at t).reg (Reg.SBX_HIST_W2 i), (s.at t).reg (Reg.SBX_HIST_W3 i)] := by
  generalize hu : s.at t = u
  refine ⟨(u.histRead ini i).2.setAcc ini { value := (u.histRead ini i).1.toNat }, ?_, rfl, rfl,
    congrArg AccResult.value (Tab.get_put_self _ _ _ _), by simp [State.histRead, State.setAcc, Tab.get_put_self]⟩
  rw [← hu]
  rfl

/-- Settles O50: each command through its rule above, the writes of the active sources bit by bit. -/
theorem signalBoxState : Obligations.SignalBoxState := by
  unfold Obligations.SignalBoxState
  refine ⟨fun s t src w => ?_, fun s t => ?_⟩
  · dsimp only
    refine ⟨rfl, fun hn => ?_, fun r hr => ⟨fun hs => ?_, fun e he => ⟨?_, fun h => ?_, fun h => ?_⟩⟩, fun hq => ?_,
      fun hq => ?_, fun hi => ?_, ?_, fun ini i => ?_, fun d => ⟨fun h => ?_, fun h => ?_⟩, fun h => ?_,
      fun ev t0 hh hs hl => ⟨fun hd => ?_, fun hd => ?_⟩⟩
    · exact ⟨blockResetDone_none hn, shadowEnd_none hn⟩
    · rw [blockResetDone_next hr, if_pos hs]
      exact ⟨_, rfl, resetDone_facts _ _ _⟩
    · rw [blockResetDone_next hr, if_neg (by simp [he])]
    · rw [shadowEnd_over hr he, if_neg (Nat.not_le.mpr h)]
    · rw [shadowEnd_over hr he, if_pos h]
      exact ⟨_, rfl, bit64_setBit64_self _ _ _ _ _, setBit64_mem _ _ _ _ _,
        fun x hx hne => bit64_setBit64_ne _ _ _ _ _ (by decide) src.isLt hx hne⟩
    · rw [quietExit_next, if_neg hq]
    · obtain ⟨hm, -, -, ha, -, hc⟩ := sbxExit_facts (s.at t) src.isLt
      rw [quietExit_next, if_pos hq]
      exact ⟨_, rfl, ha, hm, hc⟩
    · obtain ⟨hm, ha⟩ := activeWrite_facts (s.at t) hi w
      refine ⟨_, rfl, hm, fun i h => ?_⟩
      have := ha i h
      cases hi <;> simpa [activeSrc, State.ackKeeps, State.activeNew] using this
    · exact ⟨_, rfl, (errPin_facts _).1, (errPin_facts _).2.1, errPin_low _⟩
    · exact sbxHistW0Read_facts s t ini i
    · exact congrArg Host.Outcome.next (if_neg (by rw [h]; decide))
    · exact congrArg Host.Outcome.next (if_pos h)
    · exact faultEmit_none h
    · rw [faultEmit_next hh hs hl, if_neg hd]
    · rw [faultEmit_next hh hs hl, if_pos hd]
      exact ⟨_, rfl, releaseHeld_facts _ _⟩
  · dsimp only
    refine ⟨remoteFaultTake_none, fun m hm => ⟨remoteFaultTake_early hm, fun hd hl => ⟨fun h => ?_, fun h ho => ?_,
      fun h ho hn => ?_⟩⟩⟩
    · rw [remoteFaultTake_due hm hd hl, takeRemote_off _ h]
    · rw [remoteFaultTake_due hm hd hl, takeRemote_seen _ h (ho.imp_right (mt (seqNew_iff _ _ _).mp))]
    · rw [remoteFaultTake_due hm hd hl, takeRemote_new _ h ho ((seqNew_iff _ _ _).mpr hn)]

end Sys2Proof.Machine
end

section
/-! Temperature: bands, samples, the rise of 100 ms, and the ends of throttling. -/

namespace Sys2Proof.Machine

/-! ### Bands -/

theorem bandOf_eq (x : Int) : bandOf x = if x < 0 then 0 else if x < 400 then 1 else if x < 700 then 2 else
    if x < 950 then 3 else 4 := by
  have h : bandOf x = (if 0 ≤ x then 1 else 0) + (if 400 ≤ x then 1 else 0) + (if 700 ≤ x then 1 else 0) +
      (if 950 ≤ x then 1 else 0) := by
    rw [bandOf, ← List.countP_eq_length_filter]
    simp [List.range_succ, List.countP_cons, bandLow]
    omega
  rw [h]
  split_ifs <;> omega

theorem bandOf_le (x : Int) : bandOf x ≤ 4 := by
  rw [bandOf_eq]
  split_ifs <;> decide

/-- A temperature below the bound of the next band lies in this band or a lower one. -/
theorem bandOf_le_of_lt {x : Int} {b : Nat} (h : x < bandLow (b + 1)) : bandOf x ≤ b := by
  rw [bandOf_eq]
  rw [bandLow] at h
  split_ifs at h ⊢ <;> omega

theorem bandLow_mono {b c : Nat} (hb : 1 ≤ b) (h : b ≤ c) : bandLow b ≤ bandLow c := by
  rw [bandLow, bandLow]
  split_ifs <;> omega

theorem bandNext_le (band : Nat) (x h : Int) : bandNext band x h ≤ max band 4 := by
  rw [bandNext]
  split
  · exact (bandOf_le x).trans (le_max_right _ _)
  · cases hf : (List.range band).find? fun b => x < bandLow (b + 1) - h with
    | none => exact le_max_left _ _
    | some b => exact (List.mem_range.mp (List.mem_of_find?_eq_some hf)).le.trans (le_max_left _ _)

/-- The band rises at once and falls only beyond the hysteresis (R422). -/
theorem bandNext_facts (band : Nat) (x : Int) (h : Nat) (hb : band ≤ 4) : bandOf x ≤ bandNext band x h ∧
    (band < bandOf x → bandNext band x h = bandOf x) ∧
    (bandOf x ≤ band → bandLow band - h ≤ x → bandNext band x h = band) ∧ bandNext band x h ≤ 4 := by
  refine ⟨?_, fun hlt => if_pos hlt, fun hle hlow => ?_, by simpa [hb] using bandNext_le band x h⟩
  · by_cases hlt : band < bandOf x
    · rw [bandNext, if_pos hlt]
    · rw [bandNext, if_neg hlt]
      cases hf : (List.range band).find? fun b => x < bandLow (b + 1) - h with
      | none => exact Nat.not_lt.mp hlt
      | some b =>
        have hlow : decide (x < bandLow (b + 1) - h) = true := List.find?_some (p := fun b => decide (x < bandLow (b + 1) - h)) hf
        rw [decide_eq_true_eq] at hlow
        exact bandOf_le_of_lt (b := b) (by omega)
  · rw [bandNext, if_neg (Nat.not_lt.mpr hle)]
    have hnone : ((List.range band).find? fun b => x < bandLow (b + 1) - h) = none := by
      refine List.find?_eq_none.mpr fun b hm => ?_
      have : bandLow (b + 1) ≤ bandLow band := bandLow_mono (Nat.succ_pos b) (List.mem_range.mp hm)
      simp only [decide_eq_true_eq, not_lt]
      omega
    rw [hnone]
    rfl

/-! ### Numbers of 16 bits -/

theorem toSigned_fromSigned {x : Int} (h : -32768 ≤ x) (h' : x < 32768) : toSigned 16 (fromSigned 16 x) = x := by
  have ht (n : Nat) : toSigned 16 n = if 2 * (n % 65536) < 65536 then ((n % 65536 : Nat) : Int) else (n % 65536 : Nat) - 65536 := rfl
  have hf : fromSigned 16 x = (x % 65536).toNat := rfl
  rw [ht, hf]
  split_ifs <;> omega

theorem fromSigned_toInt (v : BitVec 16) : fromSigned 16 v.toInt = v.toNat := by
  rw [fromSigned_eq_toNat_ofInt, BitVec.ofInt_toInt]

theorem maxWith_facts (xs : List Int) (i : Nat) (h : xs ≠ []) : ∃ k, (maxWith xs i).2 = i + k ∧ xs[k]? = some (maxWith xs i).1 ∧
    ∀ x ∈ xs, x ≤ (maxWith xs i).1 := by
  induction xs generalizing i with
  | nil => exact absurd rfl h
  | cons x xs ih =>
    cases xs with
    | nil => exact ⟨0, by simp [maxWith]⟩
    | cons y ys =>
      obtain ⟨k, hk, hx, hle⟩ := ih (i + 1) (List.cons_ne_nil _ _)
      rw [maxWith]
      · split
        · next hm => exact ⟨0, rfl, rfl, fun z hz => (List.mem_cons.mp hz).elim (fun e => e.le) fun hz => (hle z hz).trans hm⟩
        · next hm =>
          refine ⟨k + 1, by omega, by simpa using hx, fun z hz => ?_⟩
          rcases List.mem_cons.mp hz with rfl | hz
          · omega
          · exact hle z hz
      · exact fun e => List.cons_ne_nil _ _ e

/-! ### What the throttle and the events leave of THM -/

/-- Another record of THM and of TT in a state. -/
def State.withThm (s : State) (x : Thm) (y : Tt) : State := { s with thm := x, tt := y }

/-- The registers of a throttle state. -/
def State.thrRegs (s : State) (advise enforced : Bool) (horizon pitch : Nat) : State :=
  ((((((s.setB Reg.THM_STATUS 4 advise).setB Reg.THM_STATUS 5 enforced).setB Reg.TT_THROTTLE 8 advise).setB
    Reg.TT_THROTTLE 9 enforced).setF Reg.TT_THROTTLE 7 0 horizon).setReg Reg.TT_PITCH_MIN (BitVec.ofNat 32 pitch))

theorem thrState_eq (s : State) (advise enforced : Bool) (horizon pitch allow : Nat) :
    s.thrState advise enforced horizon pitch allow = ((s.thrRegs advise enforced horizon pitch).withThm
      { (s.thrRegs advise enforced horizon pitch).thm with allow := allow }
      { (s.thrRegs advise enforced horizon pitch).tt with thrChanged := true }).updateBudget := rfl

/-- The registers of an enforced throttle state. -/
def State.enforcedRegs (s : State) : State :=
  (s.setF Reg.TT_THROTTLE 7 0 (s.af Reg.THM_THR_HORIZON 7 0)).setReg Reg.TT_PITCH_MIN
    ((s.setF Reg.TT_THROTTLE 7 0 (s.af Reg.THM_THR_HORIZON 7 0)).applied Reg.THM_THR_PITCH)

theorem thrEnforced_eq (s : State) : s.thrEnforced = (s.enforcedRegs.withThm
    { s.enforcedRegs.thm with allow := s.enforcedRegs.af Reg.THM_THR_ALLOW 15 0 } s.enforcedRegs.tt).updateBudget := rfl

/-- A sample's note of a steep rise, and of the calm since a time. -/
def State.noteRise (s : State) : State :=
  let steep := decide ((s.f Reg.THM_RISE_LIM 15 0 : Int) < s.thmRise)
  let s := if steep && !s.thm.rising then s.thmEvent 2 2 else s
  s.withThm { s.thm with rising := steep, calm := if s.throttleCalm then some (s.thm.calm.getD s.now) else none } s.tt

/-- The request for throttling becomes ADVISE. -/
def State.adviseNow (s : State) : State :=
  (((s.thrState true false 128 0 3200).withThm { (s.thrState true false 128 0 3200).thm with
    advAt := (s.thrState true false 128 0 3200).now } (s.thrState true false 128 0 3200).tt).incSat Reg.THM_CNT 15 0).thmEvent
      0 0

/-- The request of a sample (R424). -/
def State.askThrottle (s : State) : State :=
  if s.throttleAsked then s.setB Reg.THM_STATUS 3 true else s

theorem sampleThrottle_eq (s : State) : s.sampleThrottle =
    if (s.noteRise.askThrottle.fb Reg.THM_STATUS 3 && !s.noteRise.askThrottle.fb Reg.THM_STATUS 4) = true then
      s.noteRise.askThrottle.adviseNow else s.noteRise.askThrottle := rfl

/-- `u` has memory, sensor values and the registers of the temperature as in `s`, beside the bits of THM_STATUS that
throttling moves. -/
structure ThmKept (s u : State) : Prop where
  mem : u.mem = s.mem
  vals : u.thm.vals = s.thm.vals
  regs : ∀ r, 0x2030000C ≤ r → r < 0x20400000 → r ≠ Reg.THM_CNT → u.reg r = s.reg r
  band : u.f Reg.THM_STATUS 2 0 = s.f Reg.THM_STATUS 2 0
  src : u.f Reg.THM_STATUS 11 8 = s.f Reg.THM_STATUS 11 8

namespace ThmKept
variable {s u v : State}

theorem refl (s : State) : ThmKept s s := ⟨rfl, rfl, fun _ _ _ _ => rfl, rfl, rfl⟩

theorem trans (h : ThmKept s u) (h' : ThmKept u v) : ThmKept s v :=
  ⟨h'.mem.trans h.mem, h'.vals.trans h.vals, fun r a b c => (h'.regs r a b c).trans (h.regs r a b c),
    h'.band.trans h.band, h'.src.trans h.src⟩

theorem ite {p : Prop} [Decidable p] (h : ThmKept s u) (h' : ThmKept s v) : ThmKept s (if p then u else v) := by
  split
  · exact h
  · exact h'

/-- Registers beside those of the temperature. -/
theorem of_regs (hm : u.mem = s.mem) (hv : u.thm.vals = s.thm.vals)
    (h : ∀ r, 0x2030000C ≤ r → r < 0x20400000 → r ≠ Reg.THM_CNT → u.reg r = s.reg r)
    (h' : u.reg Reg.THM_STATUS = s.reg Reg.THM_STATUS) : ThmKept s u :=
  ⟨hm, hv, h, f_of_reg h' _ _, f_of_reg h' _ _⟩

theorem of_eq (hm : u.mem = s.mem) (hv : u.thm.vals = s.thm.vals) (h : u.regs = s.regs) : ThmKept s u :=
  of_regs hm hv (fun r _ _ _ => reg_of_regs h r) (reg_of_regs h _)

theorem setReg (s : State) {a : Nat} (h : 0x20400000 ≤ a) (w : Word) : ThmKept s (s.setReg a w) :=
  of_regs rfl rfl (fun r _ hr _ => reg_setReg_ne s (by omega) w) (reg_setReg_ne s (by simp only [Reg.THM_STATUS]; omega) w)

theorem setF (s : State) {a : Nat} (h : 0x20400000 ≤ a) (hi lo n : Nat) : ThmKept s (s.setF a hi lo n) := setReg s h _

theorem setB (s : State) {a : Nat} (h : 0x20400000 ≤ a ∨ a = Reg.THM_IRQ_STATUS) (i : Nat) (b : Bool) :
    ThmKept s (s.setB a i b) :=
  of_regs (setB_mem _ _ _ _) (by rw [setB_thm])
    (fun r hl hr _ => reg_setB_ne s (by simp only [Reg.THM_IRQ_STATUS] at h; omega) i b)
    (reg_setB_ne s (by simp only [Reg.THM_IRQ_STATUS, Reg.THM_STATUS] at *; omega) i b)

theorem setStatus (s : State) {i : Nat} (h : 3 ≤ i ∧ i ≤ 5) (b : Bool) : ThmKept s (s.setB Reg.THM_STATUS i b) :=
  ⟨setB_mem _ _ _ _, by rw [setB_thm], fun r hl _ _ => reg_setB_ne s (by simp only [Reg.THM_STATUS]; omega) i b,
    f_setB_field s (by omega) (by omega) b, f_setB_field s (by omega) (by omega) b⟩

theorem incCnt (s : State) (hi lo : Nat) : ThmKept s (s.incSat Reg.THM_CNT hi lo) :=
  of_regs rfl rfl (fun r _ _ hr => reg_incSat_ne s hr _ _ _) (reg_incSat_ne s (by decide) _ _ _)

theorem raise (s : State) (src ev : Nat) : ThmKept s (s.raise src ev) := of_eq rfl rfl rfl

theorem thmEvent (s : State) (irq ev : Nat) : ThmKept s (s.thmEvent irq ev) :=
  (setB s (Or.inr rfl) irq true).trans (raise _ _ _)

theorem applyS (s : State) (a : Nat) : ThmKept s (s.applyS a) := by
  refine of_eq (applyS_hv_mem s a).2 ?_ (applyS_kept s a).1
  rw [State.applyS]
  split
  · split <;> rfl
  · rfl

theorem updateBudget (s : State) : ThmKept s s.updateBudget := setF s (by decide) _ _ _

theorem withThm (s : State) {x : Thm} (hv : x.vals = s.thm.vals) (y : Tt) : ThmKept s (s.withThm x y) :=
  of_eq rfl hv rfl

theorem thrState (s : State) (advise enforced : Bool) (horizon pitch allow : Nat) :
    ThmKept s (s.thrState advise enforced horizon pitch allow) := by
  rw [thrState_eq]
  refine ThmKept.trans ?_ ((withThm _ (by rfl) _).trans (updateBudget _))
  rw [State.thrRegs]
  refine ThmKept.trans ?_ (setReg _ (by decide) _)
  refine ThmKept.trans ?_ (setF _ (by decide) _ _ _)
  exact (((setStatus s (by decide) advise).trans (setStatus _ (by decide) enforced)).trans
    (setB _ (Or.inl (by decide)) 8 advise)).trans (setB _ (Or.inl (by decide)) 9 enforced)

theorem thrEnforced (s : State) : ThmKept s s.thrEnforced := by
  rw [thrEnforced_eq]
  refine ThmKept.trans ?_ ((withThm _ (by rfl) _).trans (updateBudget _))
  exact (setF s (by decide) 7 0 _).trans (setReg _ (by decide) _)

theorem noteRise (s : State) : ThmKept s s.noteRise := by
  rw [State.noteRise]
  exact (ThmKept.ite (thmEvent _ _ _) (refl _)).trans (withThm _ (by rfl) _)

theorem sampleThrottle (s : State) : ThmKept s s.sampleThrottle := by
  rw [sampleThrottle_eq]
  refine ThmKept.trans ?_ (ThmKept.ite ?_ (refl _))
  · exact (noteRise s).trans (ThmKept.ite (setStatus _ (by decide) _) (refl _))
  · rw [State.adviseNow]
    exact (((thrState _ _ _ _ _ _).trans (withThm _ (by rfl) _)).trans (incCnt _ _ _)).trans (thmEvent _ _ _)

end ThmKept

/-- A sensor below the threshold of the shutdown: its count is 0. -/
theorem ThmKept.sampleHot {s : State} {i : Nat} (h : s.thmVal i < s.f Reg.THM_LIMITS 15 0) (before : Int) :
    ThmKept s (s.sampleHot i before) := by
  rw [State.sampleHot]
  dsimp only
  rw [if_neg (Int.not_le.mpr h), if_neg (by simp)]
  exact of_eq rfl rfl rfl

theorem ThmKept.sampleHots {s : State} (old : List Int) (l : List Nat)
    (h : ∀ i ∈ l, s.thmVal i < s.f Reg.THM_LIMITS 15 0) :
    ThmKept s (l.foldl (fun s i => s.sampleHot i (old.getD i 0)) s) := by
  induction l generalizing s with
  | nil => exact refl s
  | cons i l ih =>
    have hk := ThmKept.sampleHot (h i List.mem_cons_self) (old.getD i 0)
    refine hk.trans (ih fun j hj => ?_)
    rw [State.thmVal, hk.vals, f_of_reg (hk.regs _ (by decide) (by decide) (by decide))]
    exact h j (List.mem_cons_of_mem _ hj)

/-! ### A sample -/

/-- One sensor's value is stored. -/
def State.storeSample (vals : List Int) (s : State) (i : Nat) : State :=
  { s with thm := { s.thm with vals := Tab.put 0 s.thm.vals i (vals.getD i 0) } }.setReg (Reg.THM_TS i)
    (putBits (putBits (s.reg (Reg.THM_TS i)) 15 0 (fromSigned 16 (vals.getD i 0))) 17 17 (if s.sensorFailed i then 1 else 0))

/-- The readings of the sensors: which have failed, and which pairs disagree. -/
def State.checkSensors (s : State) (rs : List (Option Int)) : State :=
  (List.range 6).foldl (fun s p => s.samplePair rs p)
    ((List.range 12).foldl (fun s i => if (goodReading (rs.getD i none)).isNone then s.failSensor i else s) s)

/-- The hottest value is shown. -/
def State.showMax (s : State) (m : Int × Nat) : State :=
  let s := (s.setF Reg.THM_TMAX 15 0 (fromSigned 16 m.1)).setF Reg.THM_STATUS 11 8 m.2
  s.withThm { s.thm with samples := (s.now, m.1) :: s.thm.samples.take 31 } s.tt

/-- The band follows the hottest value. -/
def State.showBand (s : State) (tmax : Int) : State :=
  let band := s.f Reg.THM_STATUS 2 0
  let new := bandNext band tmax (s.f Reg.THM_BAND_CFG 7 0)
  if new = band then s
  else ({ s with thm := { s.thm with turn := some (s.clk.tb, band) } }.setF Reg.THM_STATUS 2 0 new).thmEvent 4 4

/-- What a sample asks of throttling. -/
def State.sampleRequest (s : State) : State :=
  let s := ((s.sampleThrottle.applyS Reg.THM_THR_HORIZON).applyS Reg.THM_THR_PITCH).applyS Reg.THM_THR_ALLOW
  if s.fb Reg.THM_STATUS 5 then s.thrEnforced else s

/-- A sample of the sensors. -/
def State.thmSampleAt (u : State) (rs : List (Option Int)) : State :=
  let vals := (List.range 12).map (u.sampleVal rs)
  let s := (((List.range 12).foldl (State.storeSample vals) u).checkSensors rs).showMax (maxWith vals 0)
  (List.range 12).foldl (fun s i => s.sampleHot i (((List.range 12).map u.thmVal).getD i 0))
    (s.showBand (maxWith vals 0).1).sampleRequest

theorem thmSample_next (s : State) (t : Tick) (rs : List (Option (BitVec 16))) : exec (.thmSample t rs) s =
    if t % 400000 ≠ 0 then .next (s.at t) else .next ((s.at t).thmSampleAt (rs.map fun r => r.map (·.toInt))) := rfl

theorem storeSample_facts (vals : List Int) (s : State) (i : Nat) : (s.storeSample vals i).mem = s.mem ∧
    (s.storeSample vals i).thmVal i = vals.getD i 0 ∧
    (s.storeSample vals i).f (Reg.THM_TS i) 15 0 = fromSigned 16 (vals.getD i 0) ∧
    (∀ j, j ≠ i → (s.storeSample vals i).thmVal j = s.thmVal j) ∧
    ∀ r ≠ Reg.THM_TS i, (s.storeSample vals i).reg r = s.reg r := by
  have hv (j : Nat) : (s.storeSample vals i).thmVal j = Tab.get 0 (Tab.put 0 s.thm.vals i (vals.getD i 0)) j := by
    rw [State.storeSample, State.thmVal, setReg_thm]
  refine ⟨by rw [State.storeSample, setReg_mem], by rw [hv, Tab.get_put_self], ?_,
    fun j h => by rw [hv, Tab.get_put_ne _ h]; rfl, fun r h => by rw [State.storeSample, reg_setReg_ne _ h]; rfl⟩
  rw [State.storeSample, f_setReg_self, bits_putBits_ne _ (by decide) (by decide) (by decide),
    bits_putBits_self _ (by decide) (by decide)]
  exact Nat.mod_eq_of_lt (fromSigned_lt 16 _)

theorem storeSamples_facts (vals : List Int) (u : State) :
    ((List.range 12).foldl (State.storeSample vals) u).mem = u.mem ∧
    (∀ i < 12, ((List.range 12).foldl (State.storeSample vals) u).thmVal i = vals.getD i 0 ∧
      ((List.range 12).foldl (State.storeSample vals) u).f (Reg.THM_TS i) 15 0 = fromSigned 16 (vals.getD i 0)) ∧
    ∀ r < 0x20300100, ((List.range 12).foldl (State.storeSample vals) u).reg r = u.reg r := by
  refine ⟨foldl_invariant (f := State.storeSample vals) (P := fun a : State => a.mem = u.mem)
    (fun a i _ h => (storeSample_facts vals a i).1.trans h) rfl, fun i hi => ?_,
    fun r hr => foldl_invariant (f := State.storeSample vals) (P := fun a : State => a.reg r = u.reg r)
      (fun a i _ h => ((storeSample_facts vals a i).2.2.2.2 r (by simp only [Reg.THM_TS]; omega)).trans h) rfl⟩
  refine foldl_establish (f := State.storeSample vals) (P := fun a : State => a.thmVal i = vals.getD i 0 ∧
    a.f (Reg.THM_TS i) 15 0 = fromSigned 16 (vals.getD i 0)) (fun a j _ h => ?_) (List.mem_range.mpr hi) (fun a => ?_) u
  · obtain ⟨-, hv, hf, hne, hr⟩ := storeSample_facts vals a j
    by_cases hij : i = j
    · subst hij
      exact ⟨hv, hf⟩
    · exact ⟨(hne i hij).trans h.1, (f_of_reg (hr _ (by simp only [Reg.THM_TS]; omega)) _ _).trans h.2⟩
  · obtain ⟨-, hv, hf, -, -⟩ := storeSample_facts vals a i
    exact ⟨hv, hf⟩

/-- Readings in range, the two of a pair alike: no sensor fails. -/
theorem checkSensors_kept {s : State} {rs : List (Option Int)} (hg : ∀ i < 12, (goodReading (rs.getD i none)).isNone = false)
    (hd : ∀ (a : State), ∀ p < 6, a.pairDiffers rs p = false) : ThmKept s (s.checkSensors rs) := by
  have hfail : (List.range 12).foldl (fun s i => if (goodReading (rs.getD i none)).isNone then s.failSensor i else s) s = s :=
    foldl_keep fun i hi => if_neg (by rw [hg i (List.mem_range.mp hi)]; decide)
  rw [State.checkSensors, hfail]
  refine foldl_invariant (P := fun a => ThmKept s a) (fun a p hp h => h.trans ?_) (ThmKept.refl s)
  rw [State.samplePair]
  simp only [hd a p (List.mem_range.mp hp), Bool.false_eq_true, if_false]
  exact ThmKept.of_eq rfl rfl rfl

theorem showMax_facts (s : State) {m : Int × Nat} (h : m.2 < 16) : (s.showMax m).mem = s.mem ∧
    (s.showMax m).thm.vals = s.thm.vals ∧ (s.showMax m).f Reg.THM_TMAX 15 0 = fromSigned 16 m.1 ∧
    (s.showMax m).f Reg.THM_STATUS 11 8 = m.2 ∧ (s.showMax m).f Reg.THM_STATUS 2 0 = s.f Reg.THM_STATUS 2 0 ∧
    ∀ r, r ≠ Reg.THM_TMAX → r ≠ Reg.THM_STATUS → (s.showMax m).reg r = s.reg r := by
  have hr (r : Nat) : (s.showMax m).reg r =
      ((s.setF Reg.THM_TMAX 15 0 (fromSigned 16 m.1)).setF Reg.THM_STATUS 11 8 m.2).reg r := rfl
  refine ⟨rfl, rfl, ?_, ?_, ?_, fun r h1 h2 => by rw [hr, reg_setF_ne _ h2, reg_setF_ne _ h1]⟩
  · rw [f_of_reg (hr _), f_setF_ne _ (by decide), f_setF_self _ _ (by decide) (by decide)]
    exact Nat.mod_eq_of_lt (fromSigned_lt 16 _)
  · rw [f_of_reg (hr _), f_setF_self _ _ (by decide) (by decide)]
    exact Nat.mod_eq_of_lt h
  · rw [f_of_reg (hr _), f_setF_field _ _ (by decide) (by decide) (by decide), f_setF_ne _ (by decide)]

theorem showBand_facts (s : State) (tmax : Int) : (s.showBand tmax).mem = s.mem ∧
    (s.showBand tmax).thm.vals = s.thm.vals ∧ (s.showBand tmax).f Reg.THM_STATUS 11 8 = s.f Reg.THM_STATUS 11 8 ∧
    (s.showBand tmax).f Reg.THM_STATUS 2 0 = bandNext (s.f Reg.THM_STATUS 2 0) tmax (s.f Reg.THM_BAND_CFG 7 0) ∧
    ∀ r, 0x2030000C ≤ r → (s.showBand tmax).reg r = s.reg r := by
  have hlt : bandNext (s.f Reg.THM_STATUS 2 0) tmax (s.f Reg.THM_BAND_CFG 7 0) < 8 := by
    have h8 : s.f Reg.THM_STATUS 2 0 < 8 := f_lt s _ _ _
    have := bandNext_le (s.f Reg.THM_STATUS 2 0) tmax (s.f Reg.THM_BAND_CFG 7 0)
    omega
  rw [State.showBand]
  dsimp only
  generalize bandNext (s.f Reg.THM_STATUS 2 0) tmax (s.f Reg.THM_BAND_CFG 7 0) = new at hlt ⊢
  by_cases h : new = s.f Reg.THM_STATUS 2 0
  · rw [if_pos h]
    exact ⟨rfl, rfl, rfl, h.symm, fun _ _ => rfl⟩
  · rw [if_neg h]
    have hir (v : State) : (v.thmEvent 4 4).reg Reg.THM_STATUS = v.reg Reg.THM_STATUS := by
      rw [State.thmEvent, reg_raise, reg_setB_ne _ (by decide)]
    refine ⟨?_, ?_, ?_, ?_, fun r hr => ?_⟩
    · rw [State.thmEvent, raise_mem, setB_mem, setF_mem]
    · rw [State.thmEvent, raise_thm, setB_thm, setF_thm]
    · rw [f_of_reg (hir _)]
      exact f_setF_field _ _ (by decide) (by decide) (by decide) _
    · rw [f_of_reg (hir _)]
      exact (f_setF_self _ _ (by decide) (by decide) _).trans (Nat.mod_eq_of_lt hlt)
    · rw [State.thmEvent, reg_raise, reg_setB_ne _ (by simp only [Reg.THM_IRQ_STATUS]; omega)]
      exact reg_setF_ne _ (by simp only [Reg.THM_STATUS]; omega) _ _ _

theorem sampleRequest_kept (s : State) : ThmKept s s.sampleRequest := by
  rw [State.sampleRequest]
  refine ThmKept.trans ?_ (ThmKept.ite (ThmKept.thrEnforced _) (ThmKept.refl _))
  exact ((ThmKept.sampleThrottle s).trans (ThmKept.applyS _ _)).trans ((ThmKept.applyS _ _).trans (ThmKept.applyS _ _))

/-- The readings that a list of values gives. -/
theorem getD_readings (rs : List (BitVec 16)) {i : Nat} (h : i < rs.length) :
    ((rs.map some).map fun r => r.map (·.toInt)).getD i none = some (rs.getD i 0).toInt := by
  simp [List.getD_eq_getElem?_getD, List.getElem?_eq_getElem h]

section
variable {u : State} {rs : List (BitVec 16)}

/-- Readings in range of sensors that have not failed are the values in use. -/
theorem sampleVal_good {i : Nat} (hi : i < rs.length) (hf : u.sensorFailed i = false)
    (h : -500 ≤ (rs.getD i 0).toInt ∧ (rs.getD i 0).toInt ≤ 1500) :
    u.sampleVal ((rs.map some).map fun r => r.map (·.toInt)) i = (rs.getD i 0).toInt ∧
    goodReading (((rs.map some).map fun r => r.map (·.toInt)).getD i none) = some (rs.getD i 0).toInt := by
  have hg : goodReading (((rs.map some).map fun r => r.map (·.toInt)).getD i none) = some (rs.getD i 0).toInt := by
    rw [getD_readings rs hi]
    exact if_pos (by simpa using h)
  refine ⟨?_, hg⟩
  rw [State.sampleVal, hf, hg]
  rfl

/-- A pair whose readings differ by no more than 15.0 °C does not disagree. -/
theorem pairDiffers_false {a : State} {r : List (Option Int)} {p : Nat} {x y : Int}
    (hx : goodReading (r.getD (2 * p) none) = some x) (hy : goodReading (r.getD (2 * p + 1) none) = some y)
    (h : x - y ≤ 150 ∧ y - x ≤ 150) : a.pairDiffers r p = false := by
  rw [State.pairDiffers, hx, hy]
  have h1 : ¬ 150 < x - y := Int.not_lt.mpr h.1
  have h2 : ¬ 150 < y - x := Int.not_lt.mpr h.2
  simp [h1, h2]

theorem thmSampleAt_facts (hlen : rs.length = 12)
    (hok : ∀ i < 12, -500 ≤ (rs.getD i 0).toInt ∧ (rs.getD i 0).toInt ≤ 1500 ∧ u.sensorFailed i = false ∧
      (rs.getD i 0).toInt < u.f Reg.THM_LIMITS 15 0)
    (hpair : ∀ p < 6, (rs.getD (2 * p) 0).toInt - (rs.getD (2 * p + 1) 0).toInt ≤ 150 ∧
      (rs.getD (2 * p + 1) 0).toInt - (rs.getD (2 * p) 0).toInt ≤ 150) :
    ∃ v : State, u.thmSampleAt ((rs.map some).map fun r => r.map (·.toInt)) = v ∧ v.mem = u.mem ∧
      (∀ i < 12, v.f (Reg.THM_TS i) 15 0 = (rs.getD i 0).toNat ∧ v.thmVal i = (rs.getD i 0).toInt ∧
        (rs.getD i 0).toInt ≤ v.thmTmax) ∧
      v.thmTmax = (rs.getD (v.f Reg.THM_STATUS 11 8) 0).toInt ∧
      v.f Reg.THM_STATUS 2 0 = bandNext (u.f Reg.THM_STATUS 2 0) v.thmTmax (u.f Reg.THM_BAND_CFG 7 0) := by
  have hval : ∀ i < 12, u.sampleVal ((rs.map some).map fun r => r.map (·.toInt)) i = (rs.getD i 0).toInt := fun i hi =>
    (sampleVal_good (hlen ▸ hi) (hok i hi).2.2.1 ⟨(hok i hi).1, (hok i hi).2.1⟩).1
  have hgood : ∀ i < 12, goodReading (((rs.map some).map fun r => r.map (·.toInt)).getD i none) =
      some (rs.getD i 0).toInt := fun i hi =>
    (sampleVal_good (hlen ▸ hi) (hok i hi).2.2.1 ⟨(hok i hi).1, (hok i hi).2.1⟩).2
  have hvals : (List.range 12).map (u.sampleVal ((rs.map some).map fun r => r.map (·.toInt))) =
      (List.range 12).map fun i => (rs.getD i 0).toInt :=
    List.map_congr_left fun i hi => hval i (List.mem_range.mp hi)
  rw [State.thmSampleAt]
  rw [hvals]
  generalize (rs.map some).map (fun r => r.map (·.toInt)) = r at hgood ⊢
  generalize hv : (List.range 12).map (fun i => (rs.getD i 0).toInt) = vals
  have hget : ∀ i < 12, vals.getD i 0 = (rs.getD i 0).toInt := fun i hi => by
    rw [← hv, List.getD_eq_getElem?_getD, List.getElem?_map, List.getElem?_range hi]
    rfl
  obtain ⟨k, hk, hmax, hle⟩ := maxWith_facts vals 0 (by rw [← hv]; simp)
  have hk12 : k < 12 := by
    have := (List.getElem?_eq_some_iff.mp hmax).1
    rw [← hv, List.length_map, List.length_range] at this
    exact this
  have hmk : (maxWith vals 0).1 = (rs.getD k 0).toInt := by
    rw [← hget k hk12, List.getD_eq_getElem?_getD, hmax]
    rfl
  rw [Nat.zero_add] at hk
  obtain ⟨hsm, hsv, hsr⟩ := storeSamples_facts vals u
  have hck := checkSensors_kept (s := (List.range 12).foldl (State.storeSample vals) u) (rs := r)
    (fun i hi => by rw [hgood i hi]; rfl)
    (fun a p hp => pairDiffers_false (hgood _ (by omega)) (hgood _ (by omega)) (hpair p hp))
  generalize (List.range 12).foldl (State.storeSample vals) u = s1 at hsm hsv hsr hck ⊢
  generalize s1.checkSensors r = s2 at hck ⊢
  obtain ⟨hm3, hv3, ht3, hs3, hb3, hr3⟩ := showMax_facts s2 (m := maxWith vals 0) (by omega)
  generalize s2.showMax (maxWith vals 0) = s3 at hm3 hv3 ht3 hs3 hb3 hr3 ⊢
  obtain ⟨hm4, hv4, hs4, hb4, hr4⟩ := showBand_facts s3 (maxWith vals 0).1
  generalize s3.showBand (maxWith vals 0).1 = s4 at hm4 hv4 hs4 hb4 hr4 ⊢
  have h5 := sampleRequest_kept s4
  generalize s4.sampleRequest = s5 at h5 ⊢
  have hreg : ∀ r, 0x20300010 ≤ r → r < 0x20400000 → r ≠ Reg.THM_CNT → s5.reg r = s1.reg r := fun r h1 h2 h3 => by
    rw [h5.regs r (by omega) h2 h3, hr4 r (by omega), hr3 r (by simp only [Reg.THM_TMAX]; omega)
      (by simp only [Reg.THM_STATUS]; omega), hck.regs r (by omega) h2 h3]
  have hthm : ∀ i < 12, s5.thmVal i = (rs.getD i 0).toInt := fun i hi => by
    rw [State.thmVal, h5.vals, hv4, hv3, hck.vals, ← hget i hi]
    exact (hsv i hi).1
  have h6 := ThmKept.sampleHots (s := s5) ((List.range 12).map u.thmVal) (List.range 12) (fun i hi => by
    have hi := List.mem_range.mp hi
    rw [hthm i hi, f_of_reg ((hreg _ (by decide) (by decide) (by decide)).trans (hsr _ (by decide)))]
    exact (hok i hi).2.2.2)
  generalize (List.range 12).foldl (fun s i => s.sampleHot i (((List.range 12).map u.thmVal).getD i 0)) s5 = v at h6 ⊢
  have hT : v.thmTmax = (rs.getD k 0).toInt := by
    rw [State.thmTmax, f_of_reg (h6.regs _ (by decide) (by decide) (by decide)),
      f_of_reg (h5.regs _ (by decide) (by decide) (by decide)), f_of_reg (hr4 _ (by decide)), ht3, hmk]
    have := hok k hk12
    exact toSigned_fromSigned (by omega) (by omega)
  refine ⟨v, rfl, ?_, fun i hi => ⟨?_, ?_, ?_⟩, ?_, ?_⟩
  · rw [h6.mem, h5.mem, hm4, hm3, hck.mem, hsm]
  · have h1 : 0x20300010 ≤ Reg.THM_TS i := by simp only [Reg.THM_TS]; omega
    have h2 : Reg.THM_TS i < 0x20400000 := by simp only [Reg.THM_TS]; omega
    have h3 : Reg.THM_TS i ≠ Reg.THM_CNT := by simp only [Reg.THM_TS, Reg.THM_CNT]; omega
    rw [f_of_reg ((h6.regs _ (by omega) h2 h3).trans (hreg _ h1 h2 h3)), (hsv i hi).2, hget i hi, fromSigned_toInt]
  · rw [State.thmVal, h6.vals]
    exact hthm i hi
  · rw [hT, ← hmk, ← hget i hi]
    refine hle _ ?_
    rw [hget i hi, ← hv]
    exact List.mem_map.mpr ⟨i, List.mem_range.mpr hi, rfl⟩
  · rw [hT, h6.src, h5.src, hs4, hs3, hk]
  · rw [h6.band, h5.band, hb4, hT, hmk, hb3, hck.band, f_of_reg (hsr _ (by decide)),
      f_of_reg ((hr3 _ (by decide) (by decide)).trans ((hck.regs _ (by decide) (by decide) (by decide)).trans
        (hsr _ (by decide))))]

end

/-! ### The rise of 100 ms -/

/-- The millisecond's sum is kept, and the rise over the last 100 shown. -/
def State.showRise (s : State) (sum rise : Int) : State :=
  (s.withThm { s.thm with sums := sum :: s.thm.sums.take 100 } s.tt).setF Reg.THM_TMAX 31 16
    (fromSigned 16 (clampInt (-32768) 32767 rise))

/-- The rise of the sums of 100 ms (R422). -/
def riseOf (sums : List Int) (sum : Int) : Int :=
  match sums[99]? with
  | some old => floorDiv ((sum - old) * 10) 16
  | none => 0

/-- The samples of the millisecond just ended. -/
def State.lastMs (s : State) : List (Tick × Int) :=
  s.thm.samples.filter fun p => s.now ≤ p.1 + 6400000 && p.1 < s.now

theorem riseUpdate_next (s : State) (t : Tick) : exec (.riseUpdate t) s =
    if t % 6400000 ≠ 0 || (s.at t).lastMs.length ≠ 16 then .next (s.at t)
    else .next ((s.at t).showRise ((s.at t).lastMs.map (·.2)).sum
      (riseOf (s.at t).thm.sums ((s.at t).lastMs.map (·.2)).sum)) := rfl

theorem clampInt_eq (x : Int) : clampInt (-32768) 32767 x = max (-32768) (min 32767 x) := by
  rw [clampInt]
  split_ifs <;> omega

theorem showRise_facts (s : State) (sum rise : Int) : (s.showRise sum rise).mem = s.mem ∧
    (s.showRise sum rise).thm.sums = sum :: s.thm.sums.take 100 ∧
    (s.showRise sum rise).thmRise = max (-32768) (min 32767 rise) := by
  refine ⟨by rw [State.showRise, setF_mem, State.withThm], by rw [State.showRise, setF_thm, State.withThm], ?_⟩
  rw [State.thmRise, State.showRise, f_setF_self _ _ (by decide) (by decide), clampInt_eq,
    Nat.mod_eq_of_lt (fromSigned_lt 16 _)]
  exact toSigned_fromSigned (by omega) (by omega)

/-! ### The ends of throttling -/

theorem f_eq_zero {s : State} {a hi lo : Nat} (h : ∀ i, lo ≤ i → i ≤ hi → s.fb a i = false) : s.f a hi lo = 0 := by
  rw [State.f, bits]
  refine Nat.eq_of_testBit_eq fun i => ?_
  rw [Nat.testBit_mod_two_pow, Nat.testBit_div_two_pow, Nat.zero_testBit, Bool.and_eq_false_iff, decide_eq_false_iff_not]
  by_cases hi' : lo + i ≤ hi
  · refine Or.inr ?_
    have hb := h (lo + i) (by omega) hi'
    rw [State.fb, beq_eq_false_iff_ne, ne_eq, bits_one_iff, BitVec.getLsbD, Bool.not_eq_true, Nat.add_comm] at hb
    exact hb
  · exact Or.inl (by omega)

section
variable (s : State) (advise enforced : Bool) (horizon pitch allow : Nat)

theorem updateBudget_facts : s.updateBudget.f Reg.TT_PWR_BUDGET 15 0 = min (s.f Reg.TT_PWR_LIMIT 15 0) s.thm.allow ∧
    s.updateBudget.mem = s.mem ∧ s.updateBudget.held = s.held ∧ ∀ r ≠ Reg.TT_PWR_BUDGET, s.updateBudget.reg r = s.reg r := by
  have hl : s.f Reg.TT_PWR_LIMIT 15 0 < 65536 := f_lt s _ _ _
  refine ⟨?_, rfl, rfl, fun r h => reg_setF_ne s h _ _ _⟩
  rw [State.updateBudget, f_setF_self _ _ (by decide) (by decide)]
  exact Nat.mod_eq_of_lt ((min_le_left _ _).trans_lt hl)

theorem thrState_facts : (s.thrState advise enforced horizon pitch allow).fb Reg.THM_STATUS 4 = advise ∧
    (s.thrState advise enforced horizon pitch allow).fb Reg.THM_STATUS 5 = enforced ∧
    (s.thrState advise enforced horizon pitch allow).fb Reg.THM_STATUS 3 = s.fb Reg.THM_STATUS 3 ∧
    (s.thrState advise enforced horizon pitch allow).fb Reg.TT_THROTTLE 8 = advise ∧
    (s.thrState advise enforced horizon pitch allow).fb Reg.TT_THROTTLE 9 = enforced ∧
    (s.thrState advise enforced horizon pitch allow).reg Reg.TT_PITCH_MIN = BitVec.ofNat 32 pitch ∧
    (s.thrState advise enforced horizon pitch allow).f Reg.TT_PWR_BUDGET 15 0 = min (s.f Reg.TT_PWR_LIMIT 15 0) allow ∧
    (s.thrState advise enforced horizon pitch allow).held = s.held ∧
    ∀ r, r ≠ Reg.THM_STATUS → r ≠ Reg.TT_THROTTLE → r ≠ Reg.TT_PITCH_MIN → r ≠ Reg.TT_PWR_BUDGET →
      (s.thrState advise enforced horizon pitch allow).reg r = s.reg r := by
  rw [thrState_eq]
  obtain ⟨hb, -, hh, hr⟩ := updateBudget_facts ((s.thrRegs advise enforced horizon pitch).withThm
    { (s.thrRegs advise enforced horizon pitch).thm with allow := allow }
    { (s.thrRegs advise enforced horizon pitch).tt with thrChanged := true })
  have hreg : ∀ r ≠ Reg.TT_PWR_BUDGET, _ = (s.thrRegs advise enforced horizon pitch).reg r := hr
  have hstatus := hreg Reg.THM_STATUS (by decide)
  have hthrottle := hreg Reg.TT_THROTTLE (by decide)
  refine ⟨?_, ?_, ?_, ?_, ?_, ?_, hb.trans (congrArg (fun n => min n allow) ?_), hh.trans ?_, fun r hne h1 h2 h3 => ?_⟩
  · rw [fb_of_reg hstatus, State.thrRegs, fb_setReg_ne _ (by decide), fb_setF_ne _ (by decide), fb_setB_ne _ (by decide),
      fb_setB_ne _ (by decide), fb_setB_bit _ (by decide) (by decide), fb_setB_self _ _ (by decide)]
  · rw [fb_of_reg hstatus, State.thrRegs, fb_setReg_ne _ (by decide), fb_setF_ne _ (by decide), fb_setB_ne _ (by decide),
      fb_setB_ne _ (by decide), fb_setB_self _ _ (by decide)]
  · rw [fb_of_reg hstatus, State.thrRegs, fb_setReg_ne _ (by decide), fb_setF_ne _ (by decide), fb_setB_ne _ (by decide),
      fb_setB_ne _ (by decide), fb_setB_bit _ (by decide) (by decide), fb_setB_bit _ (by decide) (by decide)]
  · rw [fb_of_reg hthrottle, State.thrRegs, fb_setReg_ne _ (by decide), fb_setF_field _ (by decide) (by decide) (by decide),
      fb_setB_bit _ (by decide) (by decide), fb_setB_self _ _ (by decide)]
  · rw [fb_of_reg hthrottle, State.thrRegs, fb_setReg_ne _ (by decide), fb_setF_field _ (by decide) (by decide) (by decide),
      fb_setB_self _ _ (by decide)]
  · rw [hreg _ (by decide), State.thrRegs, reg_setReg_self]
  · refine (f_setReg_ne _ (by decide) _ _ _).trans ?_
    rw [f_setF_ne _ (by decide), f_setB_ne _ (by decide), f_setB_ne _ (by decide), f_setB_ne _ (by decide),
      f_setB_ne _ (by decide)]
  · rw [State.withThm, State.thrRegs, setReg_held, setF_held, setB_held, setB_held, setB_held, setB_held]
  · rw [hreg r h3, State.thrRegs, reg_setReg_ne _ h2, reg_setF_ne _ h1, reg_setB_ne _ h1, reg_setB_ne _ h1,
      reg_setB_ne _ hne, reg_setB_ne _ hne]

theorem thrEnforced_facts : s.thrEnforced.f Reg.TT_THROTTLE 7 0 = s.af Reg.THM_THR_HORIZON 7 0 ∧
    (∀ i, 8 ≤ i → s.thrEnforced.fb Reg.TT_THROTTLE i = s.fb Reg.TT_THROTTLE i) ∧
    s.thrEnforced.reg Reg.TT_PITCH_MIN = s.applied Reg.THM_THR_PITCH ∧
    s.thrEnforced.f Reg.TT_PWR_BUDGET 15 0 = min (s.f Reg.TT_PWR_LIMIT 15 0) (s.af Reg.THM_THR_ALLOW 15 0) ∧
    ∀ r < 0x20400000, s.thrEnforced.reg r = s.reg r := by
  rw [thrEnforced_eq]
  obtain ⟨hb, -, -, hr⟩ := updateBudget_facts (s.enforcedRegs.withThm
    { s.enforcedRegs.thm with allow := s.enforcedRegs.af Reg.THM_THR_ALLOW 15 0 } s.enforcedRegs.tt)
  have hreg : ∀ r ≠ Reg.TT_PWR_BUDGET, _ = s.enforcedRegs.reg r := hr
  have happ : ∀ a, a ≠ Reg.TT_THROTTLE → a ≠ Reg.TT_PITCH_MIN → s.enforcedRegs.applied a = s.applied a := fun a h h' => by
    rw [State.enforcedRegs, applied_setReg_ne _ h', applied_setF_ne _ h]
  refine ⟨?_, fun i hi => ?_, ?_, hb.trans ?_, fun r hlt => ?_⟩
  · rw [f_of_reg (hreg _ (by decide)), State.enforcedRegs, f_setReg_ne _ (by decide),
      f_setF_self _ _ (by decide) (by decide)]
    exact Nat.mod_eq_of_lt (bits_lt _ _ _)
  · rw [fb_of_reg (hreg _ (by decide)), State.enforcedRegs, fb_setReg_ne _ (by decide),
      fb_setF_field _ (by decide) (by decide) (by omega)]
  · rw [hreg _ (by decide), State.enforcedRegs, reg_setReg_self, applied_setF_ne _ (by decide)]
  · refine congrArg₂ min ((f_setReg_ne _ (by decide) _ _ _).trans (f_setF_ne _ (by decide) _ _ _ _ _)) ?_
    exact congrArg (fun w => bits w 15 0) (happ _ (by decide) (by decide))
  · rw [hreg r (by simp only [Reg.TT_PWR_BUDGET]; omega), State.enforcedRegs,
      reg_setReg_ne _ (by simp only [Reg.TT_PITCH_MIN]; omega), reg_setF_ne _ (by simp only [Reg.TT_THROTTLE]; omega)]

end

/-- The boundary of the class S values of an enforced throttle. -/
def State.applyThr (s : State) : State :=
  ((s.applyS Reg.THM_THR_HORIZON).applyS Reg.THM_THR_PITCH).applyS Reg.THM_THR_ALLOW

/-- No class S value was written in this CORE cycle: those of the throttle are in force (R16). -/
theorem applyThr_facts {s : State} (h : ∀ p ∈ s.held, p.2.stamp ≠ s.clk.tb) : s.applyThr.regs = s.regs ∧
    s.applyThr.mem = s.mem ∧
    s.applyThr.applied Reg.THM_THR_HORIZON = s.reg Reg.THM_THR_HORIZON ∧
    s.applyThr.applied Reg.THM_THR_PITCH = s.reg Reg.THM_THR_PITCH ∧
    s.applyThr.applied Reg.THM_THR_ALLOW = s.reg Reg.THM_THR_ALLOW := by
  have hn (a : Nat) : s.NoWriteNow a := noWriteNow_of_held fun p hp _ => h p hp
  have hn' {v : State} {a b : Nat} (hb : v.NoWriteNow b) (hab : b ≠ a) : (v.applyS a).NoWriteNow b := by
    have hf : (v.applyS a).heldAt b = v.heldAt b := by
      rw [State.heldAt, State.heldAt]
      refine congrArg _ ?_
      rw [State.applyS]
      cases v.held.find? (fun p => p.1 == a) with
      | none => rfl
      | some p =>
        dsimp only
        split
        · exact Tab.find?_insert_ne hab _ _
        · exact Tab.find?_erase_ne hab _
    rw [State.NoWriteNow, hf, (applyS_kept v a).2.2]
    exact hb
  rw [State.applyThr]
  refine ⟨?_, ?_, ?_, ?_, ?_⟩
  · rw [(applyS_kept _ _).1, (applyS_kept _ _).1, (applyS_kept _ _).1]
  · rw [(applyS_hv_mem _ _).2, (applyS_hv_mem _ _).2, (applyS_hv_mem _ _).2]
  · rw [applied_applyS_ne _ (by decide), applied_applyS_ne _ (by decide), applied_applyS_of_noWriteNow (hn _)]
  · rw [applied_applyS_ne _ (by decide), applied_applyS_of_noWriteNow (hn' (hn _) (by decide)), reg_applyS]
  · rw [applied_applyS_of_noWriteNow (hn' (hn' (hn _) (by decide)) (by decide)), reg_applyS, reg_applyS]

/-- The grace time is over: throttling is enforced. -/
def State.enforceThr (s : State) : State :=
  ((s.applyThr.thrState true true 128 0 3200).thrEnforced.incSat Reg.THM_CNT 31 16).thmEvent 1 1

/-- The calm time is over: throttling is released. -/
def State.releaseThr (s : State) : State :=
  ((s.setB Reg.THM_STATUS 3 false).thrState false false 128 0 3200).setB Reg.THM_IRQ_STATUS 5 true

theorem throttleGraceExpiry_next (s : State) (t : Tick) : exec (.throttleGraceExpiry t) s =
    if (s.at t).thmSampled && (s.at t).fb Reg.THM_STATUS 4 && !(s.at t).fb Reg.THM_STATUS 5 && (s.at t).fb Reg.THM_STATUS 3 &&
      (s.at t).thm.advAt + (s.at t).f Reg.THM_TIMES 15 0 * ms ≤ (s.at t).now then .next (s.at t).enforceThr
    else .next (s.at t) := rfl

theorem throttleRelease_none {s : State} {t : Tick} (h : (s.at t).thm.calm = none) :
    exec (.throttleRelease t) s = .next (s.at t) := by
  change execThrottleRelease t s = _
  unfold execThrottleRelease
  generalize s.at t = u at *
  simp only [h]

theorem throttleRelease_some {s : State} {t c : Tick} (h : (s.at t).thm.calm = some c) :
    exec (.throttleRelease t) s = if (s.at t).thmSampled && (s.at t).fb Reg.THM_STATUS 3 &&
      c + (s.at t).f Reg.THM_TIMES 31 16 * ms ≤ (s.at t).now then .next (s.at t).releaseThr else .next (s.at t) := by
  change execThrottleRelease t s = _
  unfold execThrottleRelease
  generalize s.at t = u at *
  simp only [h]
  rfl

theorem enforceThr_facts {u : State} (h : ∀ p ∈ u.held, p.2.stamp ≠ u.clk.tb) :
    u.enforceThr.fb Reg.THM_STATUS 5 = true ∧ u.enforceThr.fb Reg.TT_THROTTLE 9 = true ∧
    u.enforceThr.f Reg.TT_THROTTLE 7 0 = u.f Reg.THM_THR_HORIZON 7 0 ∧
    u.enforceThr.reg Reg.TT_PITCH_MIN = u.reg Reg.THM_THR_PITCH ∧ u.enforceThr.fb Reg.THM_IRQ_STATUS 1 = true ∧
    u.enforceThr.mem = u.mem ∧
    u.enforceThr.f Reg.TT_PWR_BUDGET 15 0 = min (u.f Reg.TT_PWR_LIMIT 15 0) (u.f Reg.THM_THR_ALLOW 15 0) := by
  obtain ⟨hr1, hm1, ha1, ha2, ha3⟩ := applyThr_facts h
  rw [State.enforceThr]
  generalize u.applyThr = s1 at hr1 hm1 ha1 ha2 ha3 ⊢
  obtain ⟨-, h5, -, -, h9, -, hb, hh, hr2⟩ := thrState_facts s1 true true 128 0 3200
  have hm2 := (ThmKept.thrState s1 true true 128 0 3200).mem
  generalize s1.thrState true true 128 0 3200 = s2 at h5 h9 hh hr2 hm2 ⊢
  have happ : ∀ a < 0x20400000, a ≠ Reg.THM_STATUS → s2.applied a = s1.applied a := fun a h1 h2 =>
    applied_congr (hr2 a h2 (by simp only [Reg.TT_THROTTLE]; omega) (by simp only [Reg.TT_PITCH_MIN]; omega)
      (by simp only [Reg.TT_PWR_BUDGET]; omega)) hh
  obtain ⟨he7, he9, hep, heb, her⟩ := thrEnforced_facts s2
  have hm3 := (ThmKept.thrEnforced s2).mem
  generalize s2.thrEnforced = s3 at he7 he9 hep heb her hm3 ⊢
  have hreg : ∀ r, r ≠ Reg.THM_CNT → r ≠ Reg.THM_IRQ_STATUS →
      ((s3.incSat Reg.THM_CNT 31 16).thmEvent 1 1).reg r = s3.reg r := fun r h1 h2 => by
    rw [State.thmEvent, reg_raise, reg_setB_ne _ h2, reg_incSat_ne _ h1]
  refine ⟨?_, ?_, ?_, ?_, ?_, ?_, ?_⟩
  · rw [fb_of_reg (hreg _ (by decide) (by decide)), fb_of_reg (her _ (by decide)), h5]
  · rw [fb_of_reg (hreg _ (by decide) (by decide)), he9 9 (by decide), h9]
  · rw [f_of_reg (hreg _ (by decide) (by decide)), he7, State.af, happ _ (by decide) (by decide), ha1, ← State.f]
  · rw [hreg _ (by decide) (by decide), hep, happ _ (by decide) (by decide), ha2]
  · rw [State.thmEvent, fb_raise, fb_setB_self _ _ (by decide)]
  · rw [State.thmEvent, raise_mem, setB_mem, incSat_mem, hm3, hm2, hm1]
  · rw [f_of_reg (hreg _ (by decide) (by decide)), heb, f_of_reg (hr2 _ (by decide) (by decide) (by decide) (by decide)), State.af, happ _ (by decide) (by decide), ha3,
      ← State.f, f_of_regs hr1]

theorem releaseThr_facts (u : State) : u.releaseThr.f Reg.THM_STATUS 5 3 = 0 ∧ u.releaseThr.f Reg.TT_THROTTLE 9 8 = 0 ∧
    u.releaseThr.reg Reg.TT_PITCH_MIN = 0 ∧ u.releaseThr.fb Reg.THM_IRQ_STATUS 5 = true ∧
    u.releaseThr.f Reg.TT_PWR_BUDGET 15 0 = min (u.f Reg.TT_PWR_LIMIT 15 0) 3200 ∧ u.releaseThr.mem = u.mem := by
  obtain ⟨h4, h5, h3, h8, h9, hp, hb, -, -⟩ := thrState_facts (u.setB Reg.THM_STATUS 3 false) false false 128 0 3200
  have hm := (ThmKept.thrState (u.setB Reg.THM_STATUS 3 false) false false 128 0 3200).mem
  rw [fb_setB_self _ _ (by decide)] at h3
  rw [f_setB_ne _ (by decide)] at hb
  rw [State.releaseThr]
  refine ⟨f_eq_zero fun i h1 h2 => ?_, f_eq_zero fun i h1 h2 => ?_, ?_, fb_setB_self _ _ (by decide) _, ?_, ?_⟩
  · rw [fb_setB_ne _ (by decide)]
    obtain rfl | rfl | rfl : i = 3 ∨ i = 4 ∨ i = 5 := by omega
    · exact h3
    · exact h4
    · exact h5
  · rw [fb_setB_ne _ (by decide)]
    obtain rfl | rfl : i = 8 ∨ i = 9 := by omega
    · exact h8
    · exact h9
  · rw [reg_setB_ne _ (by decide), hp]
    rfl
  · rw [f_setB_ne _ (by decide), hb]
  · rw [setB_mem, hm, setB_mem]

/-- Settles O53: the sample, the rise and the ends of throttling each by the facts of their operation, the bands by
their bounds. -/
theorem temperature : Obligations.Temperature := by
  unfold Obligations.Temperature
  refine ⟨fun s t rs => ?_, fun s t => ?_, fun band x h hb => bandNext_facts band x h hb⟩
  · dsimp only
    refine ⟨fun h => ?_, fun h hlen hok hpair => ?_⟩
    · rw [thmSample_next, if_pos h]
    · rw [thmSample_next, if_neg (not_not.mpr h)]
      obtain ⟨v, hv, hrest⟩ := thmSampleAt_facts hlen hok hpair
      exact ⟨v, congrArg _ hv, hrest.1, hrest.2⟩
  · dsimp only
    refine ⟨fun h => ?_, fun h hlen => ?_, ⟨fun h => ?_, fun h hh => ?_⟩, throttleRelease_none, fun c hc =>
      ⟨fun h => ?_, fun h => ?_⟩⟩
    · rw [riseUpdate_next]
      refine if_pos ?_
      rw [Bool.or_eq_true, decide_eq_true_eq, decide_eq_true_eq]
      exact h
    · obtain ⟨hm, hs, hr⟩ := showRise_facts (s.at t) ((s.at t).lastMs.map (·.2)).sum
        (riseOf (s.at t).thm.sums ((s.at t).lastMs.map (·.2)).sum)
      rw [riseUpdate_next, if_neg (by rw [Bool.or_eq_true, decide_eq_true_eq, decide_eq_true_eq]; exact fun hd => hd.elim (absurd h) (absurd hlen))]
      refine ⟨_, rfl, hm, hs, fun hl => ?_, fun old ho => ?_⟩
      · rw [hr, riseOf, List.getElem?_eq_none (by omega)]
        rfl
      · rw [hr, riseOf, ho]
        rfl
    · rw [throttleGraceExpiry_next]
      refine if_neg fun hd => h ?_
      simp only [Bool.and_eq_true, decide_eq_true_eq, Bool.not_eq_true'] at hd
      obtain ⟨⟨⟨⟨h1, h2⟩, h3⟩, h4⟩, h5⟩ := hd
      exact ⟨h1, h4, h2, h3, h5⟩
    · rw [throttleGraceExpiry_next]
      obtain ⟨h1, h4, h2, h3, h5⟩ := h
      refine ⟨_, if_pos ?_, enforceThr_facts hh⟩
      simp only [Bool.and_eq_true, decide_eq_true_eq, Bool.not_eq_true']
      exact ⟨⟨⟨⟨h1, h2⟩, h3⟩, h4⟩, h5⟩
    · rw [throttleRelease_some hc]
      refine if_neg fun hd => h ?_
      simp only [Bool.and_eq_true, decide_eq_true_eq] at hd
      exact ⟨hd.1.1, hd.1.2, hd.2⟩
    · rw [throttleRelease_some hc]
      obtain ⟨h1, h2, h3⟩ := h
      refine ⟨_, if_pos ?_, releaseThr_facts _⟩
      simp only [Bool.and_eq_true, decide_eq_true_eq]
      exact ⟨⟨h1, h2⟩, h3⟩

end Sys2Proof.Machine
end

section
/-! Line ports: their states, their queues and the preset. -/

namespace Sys2Proof.Machine

/-! ### The record and the state of a port -/

section
variable (s : State) (p : Nat) (x : LinePort)

@[simp] theorem port_setPort_self : (s.setPort p x).port p = x := by
  rw [State.setPort, State.port]
  split <;> rfl

theorem port_setPort_ne {q : Nat} (hp : p < 2) (hq : q < 2) (h : q ≠ p) : (s.setPort p x).port q = s.port q := by
  rw [State.setPort, State.port, State.port]
  obtain ⟨rfl, rfl⟩ | ⟨rfl, rfl⟩ : (p = 0 ∧ q = 1) ∨ (p = 1 ∧ q = 0) := by omega
  · rfl
  · rfl

@[simp] theorem reg_setPort (a : Nat) : (s.setPort p x).reg a = s.reg a := by
  rw [State.setPort]
  split <;> rfl

@[simp] theorem setPort_incarn : (s.setPort p x).line.incarn = s.line.incarn := by
  rw [State.setPort]
  split <;> rfl

end

theorem portState_congr {s u : State} (h : s.reg Reg.LINE_STATUS = u.reg Reg.LINE_STATUS) (p : Nat) :
    s.portState p = u.portState p := by
  rw [State.portState, State.portState, f_of_reg h, f_of_reg h]

theorem port_congr {s u : State} (h : s.line = u.line) (p : Nat) : s.port p = u.port p := by
  rw [State.port, State.port, h]

@[simp] theorem portState_setPort (s : State) (p q : Nat) (x : LinePort) : (s.setPort p x).portState q = s.portState q :=
  portState_congr (reg_setPort s p x _) q

/-! ### Entering a state -/

/-- A port's state in LINE_STATUS. -/
def State.markPort (s : State) (p st : Nat) : State :=
  if p = 0 then s.setF Reg.LINE_STATUS 1 0 st else s.setF Reg.LINE_STATUS 3 2 st

theorem markPort_facts (s : State) (p n : Nat) (hn : n < 4) : (s.markPort p n).portState p = n ∧
    (∀ q < 2, p < 2 → q ≠ p → (s.markPort p n).portState q = s.portState q) ∧ (s.markPort p n).mem = s.mem ∧
    (s.markPort p n).clk = s.clk ∧ (s.markPort p n).line = s.line ∧
    ∀ r ≠ Reg.LINE_STATUS, (s.markPort p n).reg r = s.reg r := by
  rw [State.markPort, State.portState]
  by_cases hp : p = 0
  · subst hp
    simp only [if_true]
    refine ⟨?_, fun q hq _ h => ?_, setF_mem _ _ _ _ _, setF_clk _ _ _ _ _, setF_line _ _ _ _ _, fun r h => reg_setF_ne s h _ _ _⟩
    · rw [f_setF_self _ _ (by decide) (by decide)]
      exact Nat.mod_eq_of_lt hn
    · rw [State.portState, State.portState, if_neg h, if_neg h, f_setF_field _ _ (by decide) (by decide) (by decide)]
  · simp only [hp, if_false]
    refine ⟨?_, fun q hq hp2 h => ?_, setF_mem _ _ _ _ _, setF_clk _ _ _ _ _, setF_line _ _ _ _ _, fun r h => reg_setF_ne s h _ _ _⟩
    · rw [f_setF_self _ _ (by decide) (by decide)]
      exact Nat.mod_eq_of_lt hn
    · rw [State.portState, State.portState, if_pos (by omega), if_pos (by omega),
        f_setF_field _ _ (by decide) (by decide) (by decide)]

/-- The number of ports that are UP. -/
def State.portsUp (s : State) : Nat := (if s.portState 0 = 2 then 1 else 0) + (if s.portState 1 = 2 then 1 else 0)

theorem portsUp_congr {s u : State} (h : ∀ q, s.portState q = u.portState q) : s.portsUp = u.portsUp := by
  rw [State.portsUp, State.portsUp, h, h]

theorem movePort_eq (s : State) (p st : Nat) : s.movePort p st =
    ((s.markPort p st).setF Reg.LINE_STATUS 5 4 (s.markPort p st).portsUp).setPort p
      { ((s.markPort p st).setF Reg.LINE_STATUS 5 4 (s.markPort p st).portsUp).port p with
        since := ((s.markPort p st).setF Reg.LINE_STATUS 5 4 (s.markPort p st).portsUp).clk.tb } := rfl

/-- A port enters a state (R439). -/
theorem movePort_facts (s : State) (p n : Nat) (hp : p < 2) (hn : n < 4) : (s.movePort p n).portState p = n ∧
    (∀ q < 2, q ≠ p → (s.movePort p n).portState q = s.portState q ∧ (s.movePort p n).port q = s.port q) ∧
    (s.movePort p n).port p = { s.port p with since := s.clk.tb } ∧
    (s.movePort p n).f Reg.LINE_STATUS 5 4 = (s.movePort p n).portsUp ∧ (s.movePort p n).mem = s.mem ∧
    (s.movePort p n).clk = s.clk ∧ ∀ r ≠ Reg.LINE_STATUS, (s.movePort p n).reg r = s.reg r := by
  obtain ⟨hself, hne, hm, hc, hl, hr⟩ := markPort_facts s p n hn
  rw [movePort_eq]
  generalize s.markPort p n = u at hself hne hm hc hl hr ⊢
  have hst (q : Nat) : (u.setF Reg.LINE_STATUS 5 4 u.portsUp).portState q = u.portState q := by
    rw [State.portState, State.portState, f_setF_field _ _ (by decide) (by decide) (by decide),
      f_setF_field _ _ (by decide) (by decide) (by decide)]
  have hport (q : Nat) : (u.setF Reg.LINE_STATUS 5 4 u.portsUp).port q = s.port q :=
    port_congr ((setF_line _ _ _ _ _).trans hl) q
  refine ⟨?_, fun q hq h => ⟨?_, ?_⟩, ?_, ?_, ?_, ?_, fun r h => ?_⟩
  · rw [portState_setPort, hst, hself]
  · rw [portState_setPort, hst, hne q hq hp h]
  · rw [port_setPort_ne _ _ _ hp hq h, hport]
  · rw [port_setPort_self, hport, setF_clk, hc]
  · have hup : u.portsUp < 4 := by
      rw [State.portsUp]
      split_ifs <;> decide
    rw [f_of_reg (reg_setPort _ _ _ _), f_setF_self _ _ (by decide) (by decide), portsUp_congr (u := u) fun q =>
      (portState_setPort _ _ _ _).trans (hst q)]
    exact Nat.mod_eq_of_lt hup
  · rw [setPort_mem, setF_mem, hm]
  · rw [setPort_clk, setF_clk, hc]
  · rw [reg_setPort, reg_setF_ne _ h, hr r h]

/-! ### Queues -/

theorem drainPort_facts (s : State) (p : Nat) : (s.drainPort p).line.incarn = s.line.incarn ∧
    (s.drainPort p).clk = s.clk ∧ (s.drainPort p).mem = s.mem ∧ ∀ r, (s.drainPort p).reg r = s.reg r := by
  rw [State.drainPort]
  split
  · exact ⟨setPort_incarn _ _ _, setPort_clk _ _ _, setPort_mem _ _ _, reg_setPort _ _ _⟩
  · exact ⟨rfl, rfl, rfl, fun _ => rfl⟩

theorem drainPort_not_up {s : State} {p : Nat} (h : s.portState p ≠ 2) : s.drainPort p = s := by
  rw [State.drainPort]
  exact if_neg (by simp [pUP, h])

theorem lineEvent_line (s : State) (ev : Nat) : (s.lineEvent ev).line = s.line := by
  rw [State.lineEvent, raise_line, setB_line]

theorem queueFrame_incarn (s : State) (p : Nat) (f : Frame) : (s.queueFrame p f).line.incarn = s.line.incarn := by
  rw [State.queueFrame]
  dsimp only
  split
  · rw [lineEvent_line, incSat_line, (drainPort_facts s p).1]
  · rw [(drainPort_facts _ p).1, setPort_incarn, (drainPort_facts s p).1]

theorem originate_incarn (s : State) (f : Frame) : (s.originate f).line.incarn = s.line.incarn := by
  rw [State.originate]
  split
  · refine foldl_invariant (P := fun u : State => u.line.incarn = s.line.incarn) (fun u p _ h => ?_) rfl
    split
    · exact (queueFrame_incarn _ _ _).trans h
    · exact h
  · rfl

/-- A number is given to the JOINs of this device (R442). -/
def State.withIncarn (s : State) (inc : Nat) : State := { s with line := { s.line with incarn := some inc } }

/-- The first JOIN goes to the front of a port's first queue. -/
def State.joinOn (f : Frame) (s : State) (p : Nat) : State :=
  if s.portState p = pUP then
    let x := s.port p
    let q := match x.q with
      | [] => [[f]]
      | hi :: rest => (f :: hi) :: rest
    (s.setPort p { x with q := q, freeAt := max x.freeAt (nextMultiple 66 s.clk.tb)
                          preset := if x.freeAt ≤ s.clk.tb then s.bandAtMultiple 66 else x.preset }).drainPort p
  else s

/-- The JOIN of this device. -/
def State.joinFrame (s : State) (inc : Nat) : Frame := { type := ftJOIN, origin := s.lineId, p0 := inc, p1 := State.unitId }

theorem sendJoin_eq (s : State) : s.sendJoin =
    if (s.line.incarn.isNone && (s.withIncarn (s.line.incarn.getD (s.clk.tb / 16 % 65536))).lineOriginates) = true then
      [0, 1].foldl (State.joinOn ((s.withIncarn (s.line.incarn.getD (s.clk.tb / 16 % 65536))).joinFrame
        (s.line.incarn.getD (s.clk.tb / 16 % 65536)))) (s.withIncarn (s.line.incarn.getD (s.clk.tb / 16 % 65536)))
    else (s.withIncarn (s.line.incarn.getD (s.clk.tb / 16 % 65536))).originate
      ((s.withIncarn (s.line.incarn.getD (s.clk.tb / 16 % 65536))).joinFrame
        (s.line.incarn.getD (s.clk.tb / 16 % 65536))) := rfl

theorem joinOn_incarn (f : Frame) (s : State) (p : Nat) : (State.joinOn f s p).line.incarn = s.line.incarn := by
  rw [State.joinOn]
  split
  · exact (drainPort_facts _ p).1.trans (setPort_incarn _ _ _)
  · rfl

/-- Sending JOIN keeps the number of the JOINs, or takes one from the time (R442). -/
theorem sendJoin_incarn (s : State) : s.sendJoin.line.incarn = some (s.line.incarn.getD (s.clk.tb / 16 % 65536)) := by
  rw [sendJoin_eq]
  generalize s.line.incarn.getD (s.clk.tb / 16 % 65536) = inc
  split
  · exact foldl_invariant (f := State.joinOn _) (P := fun u : State => u.line.incarn = some inc)
      (fun u p _ h => (joinOn_incarn _ u p).trans h) rfl
  · exact originate_incarn _ _

theorem pushAt_facts (f : Frame) (q : Nat) (qs : List (List Frame)) : (∀ j, j ≠ q → (pushAt f q qs)[j]? = qs[j]?) ∧
    (q < qs.length → (pushAt f q qs).getD q [] = qs.getD q [] ++ [f]) := by
  induction qs generalizing q with
  | nil => cases q <;> exact ⟨fun _ _ => rfl, fun h => absurd h (by simp)⟩
  | cons x qs ih =>
    cases q with
    | zero =>
      refine ⟨fun j h => ?_, fun _ => rfl⟩
      obtain ⟨k, rfl⟩ := Nat.exists_eq_succ_of_ne_zero h
      rfl
    | succ n =>
      obtain ⟨h1, h2⟩ := ih n
      refine ⟨fun j h => ?_, fun h => h2 (by simpa using h)⟩
      cases j with
      | zero => rfl
      | succ k => exact h1 k (by omega)

/-- A frame for a port that is not UP waits at the end of its queue, or is discarded (R441). -/
theorem queueFrame_facts {s : State} {p : Nat} {f : Frame} (hst : s.portState p ≠ 2) :
    (64 ≤ ((s.port p).q.getD (queueOf f.type) []).length →
      s.queueFrame p f = (s.incSat Reg.LINE_CNT_A 31 16).lineEvent 3) ∧
    (((s.port p).q.getD (queueOf f.type) []).length < 64 →
      ((s.queueFrame p f).port p).q = pushAt f (queueOf f.type) (s.port p).q) := by
  rw [State.queueFrame]
  dsimp only
  rw [drainPort_not_up hst]
  refine ⟨fun h => if_pos h, fun h => ?_⟩
  rw [if_neg (Nat.not_le.mpr h), drainPort_not_up (by rwa [portState_setPort]), port_setPort_self]

theorem popFrame_first {qs r : List (List Frame)} {f : Frame} (h : popFrame qs = some (f, r)) :
    ∃ i rest, qs[i]? = some (f :: rest) ∧ r = qs.set i rest ∧ ∀ j < i, qs[j]? = some [] := by
  induction qs generalizing r with
  | nil => cases h
  | cons x qs ih =>
    cases x with
    | cons g gs =>
      cases h
      exact ⟨0, gs, rfl, rfl, fun j hj => absurd hj (Nat.not_lt_zero j)⟩
    | nil =>
      rw [popFrame] at h
      cases hp : popFrame qs with
      | none => simp [hp] at h
      | some y =>
        obtain ⟨g, r'⟩ := y
        rw [hp] at h
        cases h
        obtain ⟨i, rest, h1, h2, h3⟩ := ih hp
        refine ⟨i + 1, rest, h1, by rw [h2]; rfl, fun j hj => ?_⟩
        cases j with
        | zero => rfl
        | succ k => exact h3 k (by omega)

/-! ### The preset -/

theorem drain_busy {now : Tick} {x : LinePort} (h : now < x.freeAt) (n : Nat) : LinePort.drain now n x = x := by
  cases n with
  | zero => rfl
  | succ n => exact if_pos h

theorem drain_empty {x : LinePort} (h : ∀ q ∈ x.q, q = []) (now : Tick) : LinePort.drain now ((x.q.map List.length).sum) x = x := by
  have h0 : (x.q.map List.length).sum = 0 := List.sum_eq_zero fun n hn => by
    obtain ⟨q, hq, rfl⟩ := List.mem_map.mp hn
    rw [h q hq, List.length_nil]
  rw [h0, LinePort.drain]

theorem drainPort_port (s : State) (p : Nat) : (s.drainPort p).port p = s.port p ∨
    (s.drainPort p).port p = (s.port p).drain s.clk.tb (((s.port p).q.map List.length).sum) := by
  rw [State.drainPort]
  split
  · exact Or.inr (port_setPort_self _ _ _)
  · exact Or.inl rfl

theorem linePreset_held {s : State} {p : Nat} (h : s.portState p = 0 ∨ s.clk.tb < (s.port p).freeAt) :
    s.linePreset p = (s.port p).preset := by
  have hport : (s.drainPort p).port p = s.port p := by
    rcases h with h | h
    · rw [drainPort_not_up (by rw [h]; decide)]
    · exact (drainPort_port s p).elim id fun e => e.trans (drain_busy h _)
  rw [State.linePreset]
  rw [hport]
  refine if_pos ?_
  simp only [Bool.or_eq_true, decide_eq_true_eq]
  exact h

theorem linePreset_next {s : State} {p : Nat} (h : s.portState p ≠ 0) (hf : (s.port p).freeAt ≤ s.clk.tb)
    (hq : ∀ q ∈ (s.port p).q, q = []) : s.linePreset p = s.bandAtMultiple 66 := by
  have hport : (s.drainPort p).port p = s.port p :=
    (drainPort_port s p).elim id fun e => e.trans (drain_empty hq _)
  rw [State.linePreset]
  rw [hport]
  refine if_neg ?_
  simp only [Bool.or_eq_true, decide_eq_true_eq]
  exact not_or.mpr ⟨h, Nat.not_lt.mpr hf⟩

/-! ### The commands -/

/-- A write of EN, for one port. -/
def State.enablePort (en : Bool) (s : State) (p : Nat) : State :=
  if en then (if s.portState p = pOFF then s.movePort p pTRAIN else s)
  else (s.setPort p (s.port p).cleared).movePort p pOFF

theorem lineEnable_eq (s : State) (en : Bool) :
    s.lineEnable en = State.enablePort en (State.enablePort en (s.setB Reg.LINE_CTRL 0 en) 0) 1 := rfl

theorem enablePort_true {s : State} {p : Nat} (hp : p < 2) : (State.enablePort true s p).mem = s.mem ∧
    (State.enablePort true s p).clk = s.clk ∧
    (State.enablePort true s p).portState p = (if s.portState p = 0 then 1 else s.portState p) ∧
    (s.portState p = 0 → ((State.enablePort true s p).port p).since = s.clk.tb) ∧
    (∀ q < 2, q ≠ p → (State.enablePort true s p).portState q = s.portState q ∧
      (State.enablePort true s p).port q = s.port q) ∧
    ∀ r ≠ Reg.LINE_STATUS, (State.enablePort true s p).reg r = s.reg r := by
  rw [State.enablePort, if_pos rfl]
  by_cases h : s.portState p = pOFF
  · obtain ⟨hs, hne, hx, -, hm, hc, hr⟩ := movePort_facts s p pTRAIN hp (by decide)
    rw [if_pos h, if_pos (show s.portState p = 0 from h)]
    exact ⟨hm, hc, hs, fun _ => by rw [hx], hne, hr⟩
  · rw [if_neg h, if_neg (show ¬ s.portState p = 0 from h)]
    exact ⟨rfl, rfl, rfl, fun h0 => absurd h0 h, fun _ _ _ => ⟨rfl, rfl⟩, fun _ _ => rfl⟩

theorem enablePort_false {s : State} {p : Nat} (hp : p < 2) : (State.enablePort false s p).mem = s.mem ∧
    (State.enablePort false s p).clk = s.clk ∧ (State.enablePort false s p).portState p = 0 ∧
    (State.enablePort false s p).port p = { (s.port p).cleared with since := s.clk.tb } ∧
    (∀ q < 2, q ≠ p → (State.enablePort false s p).portState q = s.portState q ∧
      (State.enablePort false s p).port q = s.port q) ∧
    (State.enablePort false s p).f Reg.LINE_STATUS 5 4 = (State.enablePort false s p).portsUp ∧
    ∀ r ≠ Reg.LINE_STATUS, (State.enablePort false s p).reg r = s.reg r := by
  obtain ⟨hs, hne, hx, hu, hm, hc, hr⟩ := movePort_facts (s.setPort p (s.port p).cleared) p pOFF hp (by decide)
  rw [State.enablePort, if_neg (by decide)]
  refine ⟨hm.trans (setPort_mem _ _ _), hc.trans (setPort_clk _ _ _), hs, ?_, fun q hq h => ⟨?_, ?_⟩, hu,
    fun r h => (hr r h).trans (reg_setPort _ _ _ _)⟩
  · rw [hx, port_setPort_self, setPort_clk]
  · rw [(hne q hq h).1, portState_setPort]
  · rw [(hne q hq h).2, port_setPort_ne _ _ _ hp hq h]

/-- Setting EN trains the ports that are OFF (R439). -/
theorem lineEnable_true (u : State) {p : Nat} (hp : p < 2) : (u.lineEnable true).fb Reg.LINE_CTRL 0 = true ∧
    (u.lineEnable true).mem = u.mem ∧
    (u.lineEnable true).portState p = (if u.portState p = 0 then 1 else u.portState p) ∧
    (u.portState p = 0 → ((u.lineEnable true).port p).since = u.clk.tb) := by
  have hst (q : Nat) : (u.setB Reg.LINE_CTRL 0 true).portState q = u.portState q :=
    portState_congr (reg_setB_ne u (by decide) _ _) q
  have hfb := fb_setB_self u Reg.LINE_CTRL (by decide : 0 < 32) true
  rw [lineEnable_eq]
  have hm0 := setB_mem u Reg.LINE_CTRL 0 true
  have hc0 := setB_clk u Reg.LINE_CTRL 0 true
  generalize u.setB Reg.LINE_CTRL 0 true = x at hst hfb hm0 hc0 ⊢
  obtain ⟨hm, hc, hs, ht, hne, hr⟩ := enablePort_true (s := x) (p := 0) (by decide)
  obtain ⟨hm', hc', hs', ht', hne', hr'⟩ := enablePort_true (s := State.enablePort true x 0) (p := 1) (by decide)
  refine ⟨?_, hm'.trans (hm.trans hm0), ?_, fun h => ?_⟩
  · rw [fb_of_reg (hr' _ (by decide)), fb_of_reg (hr _ (by decide)), hfb]
  · obtain rfl | rfl : p = 0 ∨ p = 1 := by omega
    · rw [(hne' 0 (by decide) (by decide)).1, hs, hst]
    · rw [hs', (hne 1 (by decide) (by decide)).1, hst]
  · obtain rfl | rfl : p = 0 ∨ p = 1 := by omega
    · rw [(hne' 0 (by decide) (by decide)).2, ht (by rw [hst, h]), hc0]
    · rw [ht' (by rw [(hne 1 (by decide) (by decide)).1, hst, h]), hc, hc0]

/-- Clearing EN takes both ports to OFF (R439). -/
theorem lineEnable_false (u : State) {p : Nat} (hp : p < 2) : (u.lineEnable false).fb Reg.LINE_CTRL 0 = false ∧
    (u.lineEnable false).mem = u.mem ∧ (u.lineEnable false).portState p = 0 ∧
    (u.lineEnable false).port p = { (u.port p).cleared with since := u.clk.tb } ∧
    (u.lineEnable false).f Reg.LINE_STATUS 5 4 = 0 := by
  have hfb := fb_setB_self u Reg.LINE_CTRL (by decide : 0 < 32) false
  rw [lineEnable_eq]
  have hm0 := setB_mem u Reg.LINE_CTRL 0 false
  have hc0 := setB_clk u Reg.LINE_CTRL 0 false
  have hl0 (q : Nat) := port_congr (setB_line u Reg.LINE_CTRL 0 false) q
  generalize u.setB Reg.LINE_CTRL 0 false = x at hfb hm0 hc0 hl0 ⊢
  obtain ⟨hm, hc, hs, ht, hne, -, hr⟩ := enablePort_false (s := x) (p := 0) (by decide)
  obtain ⟨hm', hc', hs', ht', hne', hup, hr'⟩ := enablePort_false (s := State.enablePort false x 0) (p := 1) (by decide)
  have hs0 := (hne' 0 (by decide) (by decide)).1.trans hs
  refine ⟨?_, hm'.trans (hm.trans hm0), ?_, ?_, ?_⟩
  · rw [fb_of_reg (hr' _ (by decide)), fb_of_reg (hr _ (by decide)), hfb]
  · obtain rfl | rfl : p = 0 ∨ p = 1 := by omega
    · exact hs0
    · exact hs'
  · obtain rfl | rfl : p = 0 ∨ p = 1 := by omega
    · rw [(hne' 0 (by decide) (by decide)).2, ht, hl0, hc0]
    · rw [ht', (hne 1 (by decide) (by decide)).2, hl0, hc, hc0]
  · rw [hup, State.portsUp, hs0, hs']
    rfl

/-- A frame that fails its CRC (R438). -/
theorem crcFail_facts (u : State) (p : Nat) :
    (((u.noteFrame p true).incSat Reg.LINE_CNT_A 15 0).lineEvent 4).mem = u.mem ∧
    ((((u.noteFrame p true).incSat Reg.LINE_CNT_A 15 0).lineEvent 4).port p).recent = (true :: (u.port p).recent).take 1024 ∧
    (((u.noteFrame p true).incSat Reg.LINE_CNT_A 15 0).lineEvent 4).fb Reg.LINE_IRQ_STATUS 4 = true ∧
    (((u.noteFrame p true).incSat Reg.LINE_CNT_A 15 0).lineEvent 4).f Reg.LINE_CNT_A 15 0 =
      min 65535 (u.f Reg.LINE_CNT_A 15 0 + 1) := by
  refine ⟨?_, ?_, ?_, ?_⟩
  · rw [State.lineEvent, raise_mem, setB_mem, incSat_mem, State.noteFrame, setPort_mem]
  · rw [port_congr (lineEvent_line _ _), port_congr (incSat_line _ _ _ _ _), State.noteFrame, port_setPort_self]
  · rw [State.lineEvent, fb_raise, fb_setB_self _ _ (by decide)]
  · rw [State.lineEvent, f_raise, f_setB_ne _ (by decide), f_incSat_self _ _ (by decide) (by decide),
      satAdd_one (f_lt _ _ _ _), State.noteFrame, f_of_reg (reg_setPort _ _ _ _)]
    rfl

section
variable {s : State} {t : Tick} {p : Fin 2}

/-- The command of a port whose state and time stand as `st` and `tm` say. -/
theorem portGuard_pos {on : Bool} {st tm : Prop} [Decidable st] [Decidable tm] {x y : Host.Outcome State Fault Refusal}
    (h : (on = true ∧ st) ∧ tm) : (if (on && decide st && decide tm) = true then x else y) = x :=
  if_pos (by simpa only [Bool.and_eq_true, decide_eq_true_eq] using h)

theorem portGuard_neg {on : Bool} {st tm : Prop} [Decidable st] [Decidable tm] {x y : Host.Outcome State Fault Refusal}
    (h : ¬ ((on = true ∧ st) ∧ tm)) : (if (on && decide st && decide tm) = true then x else y) = y :=
  if_neg (by simpa only [Bool.and_eq_true, decide_eq_true_eq] using h)

theorem portBreak_next {lost : Bool} (hon : (s.at t).lineOn = true) : exec (.portBreak t p lost) s =
    if (s.at t).portState p = 2 ∧ (lost = true ∨ 16 ≤ (((s.at t).port p).recent.filter id).length) then
      .next ((((s.at t).setPort p ((s.at t).port p).cleared).movePort p 3).lineEvent 0) else .next (s.at t) := by
  change execPortBreak t p lost s = _
  unfold execPortBreak
  generalize s.at t = u at *
  simp only [hon, Bool.true_and, Bool.and_eq_true, Bool.or_eq_true, decide_eq_true_eq]
  rfl

theorem portRetrain_next (hon : (s.at t).lineOn = true) : exec (.portRetrain t p) s =
    if (s.at t).portState p = 3 ∧ (s.at t).fb Reg.LINE_CTRL 0 = true ∧ ((s.at t).port p).since + 64000000 ≤ (s.at t).clk.tb then
      .next ((s.at t).movePort p 1) else .next (s.at t) := by
  change execPortRetrain t p s = _
  unfold execPortRetrain
  generalize s.at t = u at *
  simp only [hon, Bool.true_and, Bool.and_eq_true, decide_eq_true_eq, and_assoc]
  rfl

end

/-- Settles O54: the commands act as their conditions say; the ports, queues and presets by the facts above. -/
theorem linePorts : Obligations.LinePorts := by
  unfold Obligations.LinePorts
  refine ⟨fun s t p => ?_, fun s p n hp hn => ?_, fun s => ⟨?_, fun i h => ?_⟩, fun s p f hp hst => ?_,
    fun s p => ⟨linePreset_held, linePreset_next, ?_⟩, fun qs r f h => popFrame_first h⟩
  · dsimp only
    intro hon
    refine ⟨?_, ?_, fun h ht => ?_, fun h => ⟨?_, ?_⟩, fun h ht => ?_, fun lost => ⟨fun h => ?_, fun h => ?_⟩,
      ⟨fun h => ?_, fun h => ?_⟩, fun h => ?_, fun h => ?_⟩
    · exact ⟨_, if_pos hon, lineEnable_true _ p.isLt⟩
    · exact ⟨_, if_pos hon, lineEnable_false _ p.isLt⟩
    · exact portGuard_pos ⟨⟨hon, h⟩, ht⟩
    · exact portGuard_neg fun hd => h hd.1.2
    · exact portGuard_neg fun hd => h hd.1.2
    · exact portGuard_pos ⟨⟨hon, h⟩, ht⟩
    · exact portBreak_next hon ▸ if_pos h
    · exact portBreak_next hon ▸ if_neg h
    · exact portRetrain_next hon ▸ if_pos h
    · exact portRetrain_next hon ▸ if_neg h
    · exact if_neg (by simp only [Bool.and_eq_true, decide_eq_true_eq]; exact fun hd => h hd.2)
    · exact ⟨_, if_pos (by simp only [Bool.and_eq_true, decide_eq_true_eq]; exact ⟨hon, h⟩), crcFail_facts _ _⟩
  · obtain ⟨hs, hne, hx, hup, -, -, -⟩ := movePort_facts s p n hp hn
    exact ⟨hs, (hne (1 - p) (by omega) (by omega)).1, by rw [hx], hup⟩
  · rw [State.lineJoined, sendJoin_incarn]
    rfl
  · rw [sendJoin_incarn, h]
    rfl
  · obtain ⟨hfull, hroom⟩ := queueFrame_facts (f := f) hst
    obtain ⟨hne, hself⟩ := pushAt_facts f (queueOf f.type) (s.port p).q
    refine ⟨hfull, fun h hq => ?_⟩
    rw [hroom h]
    exact ⟨hself hq, hne⟩
  · rw [State.lineStatusView, bits_putBits_self _ (by decide) (by decide)]
    rfl

end Sys2Proof.Machine
end

section
/-! Line time: hop delays, the SYNC that is taken, and the master. -/

namespace Sys2Proof.Machine

theorem lineId_congr {s u : State} (h : ∀ a, s.reg a = u.reg a) : s.lineId = u.lineId := f_of_reg (h _) _ _

theorem lineOriginates_congr {s u : State} (h : ∀ a, s.reg a = u.reg a) : s.lineOriginates = u.lineOriginates := by
  rw [State.lineOriginates, State.lineOriginates, State.domOn, State.domOn, f_of_reg (h _), fb_of_reg (h _)]

/-! ### A received frame is noted -/

section
variable (s : State) (p : Nat) (bad : Bool)

theorem reg_noteFrame (a : Nat) : (s.noteFrame p bad).reg a = s.reg a := reg_setPort _ _ _ _
theorem noteFrame_mem : (s.noteFrame p bad).mem = s.mem := setPort_mem _ _ _
theorem noteFrame_clk : (s.noteFrame p bad).clk = s.clk := setPort_clk _ _ _
theorem noteFrame_port : (s.noteFrame p bad).port p = { s.port p with recent := (bad :: (s.port p).recent).take 1024 } :=
  port_setPort_self _ _ _
theorem noteFrame_lineId : (s.noteFrame p bad).lineId = s.lineId := lineId_congr (reg_noteFrame s p bad)
theorem noteFrame_joined : (s.noteFrame p bad).lineJoined = s.lineJoined :=
  congrArg Option.isSome (setPort_incarn _ _ _)
theorem noteFrame_originates : (s.noteFrame p bad).lineOriginates = s.lineOriginates :=
  lineOriginates_congr (reg_noteFrame s p bad)

end

/-! ### Hop delays -/

/-- A hop delay joins the last 16 of a port, and LINE_DELAY is their mean (R444). -/
def State.addDelay (s : State) (p : Nat) (d : Int) : State :=
  (s.setPort p { s.port p with delays := (d :: (s.port p).delays).take 16 }).setF (Reg.LINE_DELAY p) 23 0
    (fromSigned 24 (floorDiv ((d :: (s.port p).delays).take 16).sum ((d :: (s.port p).delays).take 16).length))

theorem addDelay_facts (s : State) (p : Nat) (d : Int) : (s.addDelay p d).mem = s.mem ∧
    ((s.addDelay p d).port p).delays = (d :: (s.port p).delays).take 16 ∧
    (s.addDelay p d).f (Reg.LINE_DELAY p) 23 0 =
      fromSigned 24 (floorDiv ((d :: (s.port p).delays).take 16).sum ((d :: (s.port p).delays).take 16).length) := by
  rw [State.addDelay]
  refine ⟨by rw [setF_mem, setPort_mem], ?_, ?_⟩
  · rw [port_congr (setF_line _ _ _ _ _), port_setPort_self]
  · rw [f_setF_self _ _ (by decide) (by decide)]
    exact Nat.mod_eq_of_lt (fromSigned_lt 24 _)

theorem delayResp_next {s : State} {t : Tick} {p : Fin 2} {p0 p1 : BitVec 64} {rx : Nat}
    (h : (s.at t).portTakes p = true) : exec (.delayResp t p p0 p1 rx) s = .next (((s.at t).noteFrame p false).addDelay p
      (floorDiv ((rx : Int) - 16 * p0.toNat - toSigned 64 p1.toNat) 2)) := if_pos h

theorem delayReqSend_held {s : State} {t l : Tick} {p : Fin 2} (h : ((s.at t).port p).lastReq = some l)
    (hl : (s.at t).clk.tb < l + (s.at t).syncInt) : exec (.delayReqSend t p) s = .next (s.at t) := by
  change execDelayReqSend t p s = _
  unfold execDelayReqSend
  generalize s.at t = u at *
  simp only [h, decide_eq_false (Nat.not_le.mpr hl), Bool.and_false, Bool.false_eq_true, if_false]

theorem delayReqSend_due {s : State} {t : Tick} {p : Fin 2} (hp : (s.at t).portTakes p = true)
    (ho : (s.at t).lineOriginates = true) (hj : (s.at t).lineJoined = true)
    (h : ∀ l, ((s.at t).port p).lastReq = some l → l + (s.at t).syncInt ≤ (s.at t).clk.tb) :
    exec (.delayReqSend t p) s = .next
      (((s.at t).setPort p { (s.at t).port p with lastReq := some (s.at t).clk.tb }).queueFrame p
        { type := ftDELAY_REQ, origin := (s.at t).lineId
          p0 := ((s.at t).setPort p { (s.at t).port p with lastReq := some (s.at t).clk.tb }).txMarker p }) := by
  change execDelayReqSend t p s = _
  unfold execDelayReqSend
  generalize s.at t = u at *
  have hid (x : LinePort) : (u.setPort p x).lineId = u.lineId := lineId_congr (reg_setPort _ _ _)
  cases hl : (u.port p).lastReq with
  | none => simp [hp, ho, hj, hid, hl]
  | some l => simp [hp, ho, hj, hid, hl, h l hl]

theorem delayReqSend_not {s : State} {t : Tick} {p : Fin 2}
    (h : (s.at t).portTakes p = false ∨ (s.at t).lineOriginates = false ∨ (s.at t).lineJoined = false) :
    exec (.delayReqSend t p) s = .next (s.at t) := by
  change execDelayReqSend t p s = _
  unfold execDelayReqSend
  generalize s.at t = u at *
  rcases h with h | h | h <;> simp [h]

theorem delayReq_answered {s : State} {t : Tick} {p : Fin 2} {p0 : BitVec 64} {rx : Nat} (hp : (s.at t).portTakes p = true)
    (ho : (s.at t).lineOriginates = true) (hj : (s.at t).lineJoined = true) : exec (.delayReq t p p0 rx) s =
      .next (((s.at t).noteFrame p false).queueFrame p { type := ftDELAY_RESP, origin := ((s.at t).noteFrame p false).lineId
                                                         p0 := p0.toNat
                                                         p1 := fromSigned 64 (16 *
                                                          (((s.at t).noteFrame p false).txMarker p : Int) - rx) }) := by
  change execDelayReq t p p0 rx s = _
  unfold execDelayReq
  generalize s.at t = u at *
  simp only [hp, noteFrame_originates, ho, noteFrame_joined, hj, Bool.true_and, if_true]

theorem delayReq_silent {s : State} {t : Tick} {p : Fin 2} {p0 : BitVec 64} {rx : Nat} (hp : (s.at t).portTakes p = true)
    (h : (s.at t).lineOriginates = false ∨ (s.at t).lineJoined = false) :
    exec (.delayReq t p p0 rx) s = .next ((s.at t).noteFrame p false) := by
  change execDelayReq t p p0 rx s = _
  unfold execDelayReq
  generalize s.at t = u at *
  rcases h with h | h <;> simp [hp, noteFrame_originates, noteFrame_joined, h]

/-! ### A SYNC that is taken -/

/-- Another record of LINE in a state. -/
def State.withLine (s : State) (l : Line) : State := { s with line := l }

section
variable (s : State) (l : Line)
@[simp] theorem reg_withLine (a : Nat) : (s.withLine l).reg a = s.reg a := rfl
@[simp] theorem withLine_line : (s.withLine l).line = l := rfl
@[simp] theorem withLine_mem : (s.withLine l).mem = s.mem := rfl
@[simp] theorem withLine_clk : (s.withLine l).clk = s.clk := rfl
@[simp] theorem withLine_tt : (s.withLine l).tt = s.tt := rfl
@[simp] theorem withLine_sq : (s.withLine l).sq = s.sq := rfl
end

/-- The offset, its source and the time of a SYNC (R445). -/
def State.noteSync (s : State) (p origin h : Nat) (e : Int) : State :=
  let s := (s.setReg Reg.LINE_TIME_OFS (wordOfInt (clampInt (-(2 ^ 31)) (2 ^ 31 - 1) e))).setReg Reg.LINE_TIME_SRC
    (BitVec.ofNat 32 (origin + 65536 * min h 1023 + 2 ^ 26 * p))
  s.withLine { s.line with lastSync := s.clk.tb }

/-- The consecutive SYNCs near the time base, with this one. -/
def State.nearCount (s : State) (e : Int) : Nat := if decide (-64 ≤ e) && decide (e ≤ 64) then s.line.inRange + 1 else 0

/-- The time state after a SYNC (R447). -/
def State.syncState (s : State) (st : Nat) (e : Int) : State :=
  if st = lFREE || st = lHOLDOVER then
    (s.setTime lACQUIRE).withLine { (s.setTime lACQUIRE).line with inRange := 0 }
  else if st = lACQUIRE then
    if 4 ≤ s.nearCount e then
      ((s.withLine { s.line with inRange := s.nearCount e }).setTime lTLOCKED).setB Reg.LINE_IRQ_STATUS 5 true
    else s.withLine { s.line with inRange := s.nearCount e }
  else if st = lTLOCKED && (decide (1024 < e) || decide (e < -1024)) then
    ((s.setTime lACQUIRE).lineEvent 1).withLine { s.line with inRange := 0 }
  else s

/-- The event of an offset of more than 16 ms. -/
def State.syncFar (s : State) (e : Int) : State := if e < -(16 * 6400000) then s.lineEvent 6 else s

/-- The step or the rate that a SYNC leads to (R446). -/
def State.syncRate (s : State) (st : Nat) (e : Int) : State :=
  let big := st = lACQUIRE && decide (1024 ≤ e)
  if big && !s.stepBlocked then
    let tb := s.clk.tb + 8 * (e / 128).toNat
    { s with clk := { s.clk with tb := tb }, line := { s.line with lastSync := tb } }
  else
    let s := if big then s.setB Reg.LINE_STATUS 9 true else s
    let s := s.withLine { s.line with eSum := s.line.eSum + e }
    s.setRate (s.lineRate e)

theorem takeSync_eq (s : State) (p o h : Nat) (e : Int) : s.takeSync p o h e =
    (((s.noteSync p o h e).syncState (s.noteSync p o h e).timeState e).syncFar e).syncRate
      (s.noteSync p o h e).timeState e := by
  rw [State.takeSync]
  rfl

theorem timeState_congr {s u : State} (h : s.reg Reg.LINE_STATUS = u.reg Reg.LINE_STATUS) : s.timeState = u.timeState :=
  f_of_reg h _ _

theorem timeState_setTime (s : State) {n : Nat} (h : n < 8) : (s.setTime n).timeState = n := by
  rw [State.timeState, State.setTime, f_setF_self _ _ (by decide) (by decide)]
  exact Nat.mod_eq_of_lt h

theorem stepBlocked_congr {s u : State} (h : s.tt = u.tt) (h' : s.sq = u.sq) : s.stepBlocked = u.stepBlocked := by
  rw [State.stepBlocked, State.stepBlocked, State.openSheets, State.openSheets, h, h']

/-- `u` is `s` beside LINE_STATUS, LINE's status bits, and what LINE counts of the SYNCs near the time base. -/
structure SyncKept (s u : State) : Prop where
  mem : u.mem = s.mem
  clk : u.clk = s.clk
  tt : u.tt = s.tt
  sq : u.sq = s.sq
  regs : ∀ r, r ≠ Reg.LINE_STATUS → r ≠ Reg.LINE_IRQ_STATUS → u.reg r = s.reg r
  lastSync : u.line.lastSync = s.line.lastSync
  eSum : u.line.eSum = s.line.eSum

namespace SyncKept
variable {s u v : State}

theorem refl (s : State) : SyncKept s s := ⟨rfl, rfl, rfl, rfl, fun _ _ _ => rfl, rfl, rfl⟩

theorem trans (h : SyncKept s u) (h' : SyncKept u v) : SyncKept s v :=
  ⟨h'.mem.trans h.mem, h'.clk.trans h.clk, h'.tt.trans h.tt, h'.sq.trans h.sq,
    fun r a b => (h'.regs r a b).trans (h.regs r a b), h'.lastSync.trans h.lastSync, h'.eSum.trans h.eSum⟩

theorem setTime (s : State) (n : Nat) : SyncKept s (s.setTime n) :=
  ⟨setF_mem _ _ _ _ _, setF_clk _ _ _ _ _, setF_tt _ _ _ _ _, setF_sq _ _ _ _ _, fun _ h _ => reg_setF_ne s h _ _ _,
    congrArg Line.lastSync (setF_line _ _ _ _ _), congrArg Line.eSum (setF_line _ _ _ _ _)⟩

theorem setB (s : State) (a i : Nat) (b : Bool) (h : a = Reg.LINE_STATUS ∨ a = Reg.LINE_IRQ_STATUS) : SyncKept s (s.setB a i b) :=
  ⟨setB_mem _ _ _ _, setB_clk _ _ _ _, setB_tt _ _ _ _, setB_sq _ _ _ _,
    fun _ h1 h2 => reg_setB_ne s (h.elim (fun e => e ▸ h1) fun e => e ▸ h2) _ _,
    congrArg Line.lastSync (setB_line _ _ _ _), congrArg Line.eSum (setB_line _ _ _ _)⟩

theorem raise (s : State) (src ev : Nat) : SyncKept s (s.raise src ev) := ⟨rfl, rfl, rfl, rfl, fun _ _ _ => rfl, rfl, rfl⟩

theorem lineEvent (s : State) (ev : Nat) : SyncKept s (s.lineEvent ev) := (setB s _ ev true (Or.inr rfl)).trans (raise _ _ _)

theorem withLine (s : State) {l : Line} (h : l.lastSync = s.line.lastSync) (h' : l.eSum = s.line.eSum) :
    SyncKept s (s.withLine l) := ⟨rfl, rfl, rfl, rfl, fun _ _ _ => rfl, h, h'⟩

end SyncKept

theorem lineEvent_reg (s : State) (ev : Nat) {r : Nat} (h : r ≠ Reg.LINE_IRQ_STATUS) : (s.lineEvent ev).reg r = s.reg r := by
  rw [State.lineEvent, reg_raise, reg_setB_ne _ h]

theorem noteSync_facts (s : State) (p o h : Nat) (e : Int) :
    (s.noteSync p o h e).reg Reg.LINE_TIME_OFS = wordOfInt (max (-(2 ^ 31)) (min (2 ^ 31 - 1) e)) ∧
    (s.noteSync p o h e).line = { s.line with lastSync := s.clk.tb } ∧ (s.noteSync p o h e).clk = s.clk ∧
    (s.noteSync p o h e).mem = s.mem ∧ (s.noteSync p o h e).stepBlocked = s.stepBlocked ∧
    (s.noteSync p o h e).timeState = s.timeState := by
  rw [State.noteSync]
  refine ⟨?_, ?_, ?_, ?_, ?_, ?_⟩
  · rw [reg_withLine, reg_setReg_ne _ (by decide), reg_setReg_self, clampInt]
    congr 1
    split_ifs <;> omega
  · rw [withLine_line, setReg_line, setReg_line, setReg_clk, setReg_clk]
  · rw [withLine_clk, setReg_clk, setReg_clk]
  · rw [withLine_mem, setReg_mem, setReg_mem]
  · exact stepBlocked_congr (by rw [withLine_tt, setReg_tt, setReg_tt]) (by rw [withLine_sq, setReg_sq, setReg_sq])
  · exact timeState_congr (by rw [reg_withLine, reg_setReg_ne _ (by decide), reg_setReg_ne _ (by decide)])

section
variable (s : State) (e : Int)

theorem syncState_free {st : Nat} (h : st = 0 ∨ st = 3) : SyncKept s (s.syncState st e) ∧ (s.syncState st e).timeState = 1 := by
  rw [State.syncState, if_pos (by rcases h with rfl | rfl <;> decide)]
  exact ⟨(SyncKept.setTime s lACQUIRE).trans (SyncKept.withLine _ (by rfl) (by rfl)), timeState_setTime s (by decide)⟩

theorem syncState_acquire : SyncKept s (s.syncState 1 e) ∧
    (4 ≤ s.nearCount e → (s.syncState 1 e).timeState = 2 ∧ (s.syncState 1 e).fb Reg.LINE_IRQ_STATUS 5 = true) ∧
    (s.nearCount e < 4 → (s.syncState 1 e).timeState = s.timeState ∧ (s.syncState 1 e).line.inRange = s.nearCount e) := by
  rw [State.syncState, if_neg (by decide), if_pos (by decide)]
  by_cases h : 4 ≤ s.nearCount e
  · rw [if_pos h]
    refine ⟨((SyncKept.withLine s (by rfl) (by rfl)).trans (SyncKept.setTime _ _)).trans (SyncKept.setB _ _ _ _ (Or.inr rfl)),
      fun _ => ⟨?_, fb_setB_self _ _ (by decide) _⟩, fun hn => absurd h (Nat.not_le.mpr hn)⟩
    rw [timeState_congr (reg_setB_ne _ (by decide) _ _), timeState_setTime _ (by decide)]
    rfl
  · rw [if_neg h]
    exact ⟨SyncKept.withLine s (by rfl) (by rfl), fun hn => absurd hn h, fun _ => ⟨rfl, rfl⟩⟩

theorem syncState_locked : SyncKept s (s.syncState 2 e) ∧
    (1024 < e ∨ e < -1024 → (s.syncState 2 e).timeState = 1 ∧ (s.syncState 2 e).fb Reg.LINE_IRQ_STATUS 1 = true) ∧
    (-1024 ≤ e → e ≤ 1024 → (s.syncState 2 e).timeState = s.timeState) := by
  rw [State.syncState, if_neg (by decide), if_neg (by decide)]
  by_cases h : 1024 < e ∨ e < -1024
  · rw [if_pos (by simpa [lTLOCKED] using h)]
    refine ⟨((SyncKept.setTime s _).trans (SyncKept.lineEvent _ _)).trans (SyncKept.withLine _ ?_ ?_), fun _ => ⟨?_, ?_⟩,
      fun h1 h2 => absurd h (by omega)⟩
    · rw [lineEvent_line, State.setTime, setF_line]
    · rw [lineEvent_line, State.setTime, setF_line]
    · rw [timeState_congr (reg_withLine _ _ _), timeState_congr (lineEvent_reg _ _ (by decide)), timeState_setTime _ (by decide)]
      rfl
    · rw [fb_of_reg (reg_withLine _ _ _), State.lineEvent, fb_raise, fb_setB_self _ _ (by decide)]
  · rw [if_neg (by simpa [lTLOCKED] using h)]
    exact ⟨SyncKept.refl s, fun hf => absurd hf h, fun _ _ => rfl⟩

theorem syncState_other {st : Nat} (h : st ≠ 0) (h1 : st ≠ 1) (h2 : st ≠ 2) (h3 : st ≠ 3) : s.syncState st e = s := by
  rw [State.syncState, if_neg (by simp [lFREE, lHOLDOVER, h, h3]), if_neg (show ¬ st = lACQUIRE from h1), if_neg (by simp [lTLOCKED, h2])]

theorem syncState_kept (st : Nat) : SyncKept s (s.syncState st e) := by
  by_cases h0 : st = 0 ∨ st = 3
  · exact (syncState_free s e h0).1
  · by_cases h1 : st = 1
    · exact h1 ▸ (syncState_acquire s e).1
    · by_cases h2 : st = 2
      · exact h2 ▸ (syncState_locked s e).1
      · rw [syncState_other s e (by omega) h1 h2 (by omega)]
        exact SyncKept.refl s

theorem syncFar_facts : SyncKept s (s.syncFar e) ∧ (s.syncFar e).timeState = s.timeState ∧ (s.syncFar e).line = s.line ∧
    ∀ i ≠ 6, (s.syncFar e).fb Reg.LINE_IRQ_STATUS i = s.fb Reg.LINE_IRQ_STATUS i := by
  rw [State.syncFar]
  split
  · refine ⟨SyncKept.lineEvent s 6, timeState_congr (lineEvent_reg s 6 (by decide)), lineEvent_line s 6, fun i h => ?_⟩
    rw [State.lineEvent, fb_raise, fb_setB_bit _ (by decide) h]
  · exact ⟨SyncKept.refl s, rfl, rfl, fun _ _ => rfl⟩

/-- The time base steps forward (R446). -/
theorem syncRate_step {st : Nat} (h : st = 1) (he : 1024 ≤ e) (hb : s.stepBlocked = false) :
    (s.syncRate st e).clk.tb = s.clk.tb + 8 * (e / 128).toNat ∧
    (s.syncRate st e).line = { s.line with lastSync := (s.syncRate st e).clk.tb } ∧ (s.syncRate st e).mem = s.mem ∧
    ∀ r, (s.syncRate st e).reg r = s.reg r := by
  rw [State.syncRate]
  rw [if_pos (by simp [h, lACQUIRE, he, hb])]
  exact ⟨rfl, rfl, rfl, fun _ => rfl⟩

/-- The rate follows, and a step that is blocked is noted (R446). -/
theorem syncRate_rate {st : Nat} (h : ¬ (st = 1 ∧ 1024 ≤ e ∧ s.stepBlocked = false)) :
    (s.syncRate st e).clk = s.clk ∧ (s.syncRate st e).line = { s.line with eSum := s.line.eSum + e } ∧
    (s.syncRate st e).mem = s.mem ∧ (s.syncRate st e).timeState = s.timeState ∧
    (st = 1 → 1024 ≤ e → (s.syncRate st e).fb Reg.LINE_STATUS 9 = true) ∧
    ∀ r, r ≠ Reg.LINE_STATUS → r ≠ Reg.LINE_TIME_RATE → (s.syncRate st e).reg r = s.reg r := by
  have hg : ¬ ((st = lACQUIRE && decide (1024 ≤ e)) && !s.stepBlocked) = true := by
    simp only [Bool.and_eq_true, decide_eq_true_eq, Bool.not_eq_true']
    exact fun hd => h ⟨hd.1.1, hd.1.2, hd.2⟩
  rw [State.syncRate]
  rw [if_neg hg]
  dsimp only [State.setRate]
  by_cases hbig : (st = lACQUIRE && decide (1024 ≤ e)) = true
  · rw [if_pos hbig]
    refine ⟨?_, ?_, ?_, ?_, fun _ _ => ?_, fun r h1 h2 => ?_⟩
    · rw [setReg_clk, withLine_clk, setB_clk]
    · rw [setReg_line, withLine_line, setB_line]
    · rw [setReg_mem, withLine_mem, setB_mem]
    · rw [timeState_congr (reg_setReg_ne _ (by decide) _), timeState_congr (reg_withLine _ _ _), State.timeState,
        f_setB_field _ (by decide) (by decide), State.timeState]
    · rw [fb_setReg_ne _ (by decide), fb_of_reg (reg_withLine _ _ _), fb_setB_self _ _ (by decide)]
    · rw [reg_setReg_ne _ h2, reg_withLine, reg_setB_ne _ h1]
  · rw [if_neg hbig]
    refine ⟨?_, ?_, ?_, ?_, fun h1 h2 => absurd ?_ hbig, fun r h1 h2 => ?_⟩
    · rw [setReg_clk, withLine_clk]
    · rw [setReg_line, withLine_line]
    · rw [setReg_mem, withLine_mem]
    · rw [timeState_congr (reg_setReg_ne _ (by decide) _), timeState_congr (reg_withLine _ _ _)]
    · simp only [Bool.and_eq_true, decide_eq_true_eq]
      exact ⟨h1, h2⟩
    · rw [reg_setReg_ne _ h2, reg_withLine]

end

/-- A SYNC is taken (R445–R447). -/
theorem takeSync_facts (s : State) (p o h : Nat) (e : Int) :
    (s.takeSync p o h e).reg Reg.LINE_TIME_OFS = wordOfInt (max (-(2 ^ 31)) (min (2 ^ 31 - 1) e)) ∧
    (s.takeSync p o h e).line.lastSync = (s.takeSync p o h e).clk.tb ∧ (s.takeSync p o h e).mem = s.mem ∧
    (s.timeState = 0 ∨ s.timeState = 3 → (s.takeSync p o h e).timeState = 1 ∧ (s.takeSync p o h e).clk = s.clk) ∧
    (s.timeState = 1 → -64 ≤ e → e ≤ 64 → 3 ≤ s.line.inRange →
      (s.takeSync p o h e).timeState = 2 ∧ (s.takeSync p o h e).fb Reg.LINE_IRQ_STATUS 5 = true) ∧
    (s.timeState = 1 → e < -64 ∨ 64 < e → (s.takeSync p o h e).timeState = 1 ∧ (s.takeSync p o h e).line.inRange = 0) ∧
    (s.timeState = 1 → 1024 ≤ e → s.stepBlocked = false →
      (s.takeSync p o h e).clk.tb = s.clk.tb + 8 * (e / 128).toNat) ∧
    (s.timeState = 1 → 1024 ≤ e → s.stepBlocked = true →
      (s.takeSync p o h e).clk = s.clk ∧ (s.takeSync p o h e).fb Reg.LINE_STATUS 9 = true) ∧
    (e < 1024 → (s.takeSync p o h e).clk = s.clk ∧ (s.takeSync p o h e).line.eSum = s.line.eSum + e) ∧
    (s.timeState = 2 → 1024 < e ∨ e < -1024 →
      (s.takeSync p o h e).timeState = 1 ∧ (s.takeSync p o h e).fb Reg.LINE_IRQ_STATUS 1 = true) ∧
    (s.timeState = 2 → -1024 ≤ e → e ≤ 1024 → (s.takeSync p o h e).timeState = 2) := by
  rw [takeSync_eq]
  obtain ⟨hofs, hline, hclk, hmem, hblk, hst⟩ := noteSync_facts s p o h e
  rw [hst]
  generalize s.timeState = st at hst ⊢
  have hnear : (s.noteSync p o h e).nearCount e = s.nearCount e := by rw [State.nearCount, hline, State.nearCount]
  generalize s.noteSync p o h e = a at hofs hline hclk hmem hblk hst hnear ⊢
  have hb := syncState_kept a e st
  have hfree := fun h => (syncState_free a e (st := st) h).2
  have hacq : st = 1 → _ := fun h => h ▸ (syncState_acquire a e).2
  have hlock : st = 2 → _ := fun h => h ▸ (syncState_locked a e).2
  generalize a.syncState st e = b at hb hfree hacq hlock ⊢
  obtain ⟨hc, hcst, hcl, hcb⟩ := syncFar_facts b e
  generalize b.syncFar e = c at hc hcst hcl hcb ⊢
  have hac := hb.trans hc
  have hcblk : c.stepBlocked = s.stepBlocked := (stepBlocked_congr hac.tt hac.sq).trans hblk
  by_cases hstep : st = 1 ∧ 1024 ≤ e ∧ c.stepBlocked = false
  · obtain ⟨h1, he, hbl⟩ := hstep
    obtain ⟨htb, hvl, hvm, hvr⟩ := syncRate_step c e h1 he hbl
    generalize c.syncRate st e = v at htb hvl hvm hvr ⊢
    obtain ⟨-, hfew⟩ := hacq h1
    have hn : a.nearCount e = 0 := by
      rw [State.nearCount]
      exact if_neg (by simp; omega)
    obtain ⟨hbt, hbr⟩ := hfew (by omega)
    refine ⟨?_, by rw [hvl], by rw [hvm, hac.mem, hmem], fun h0 => by omega, fun _ h64 h64' => by omega, fun _ _ => ⟨?_, ?_⟩,
      fun _ _ _ => by rw [htb, hac.clk, hclk], fun _ _ hb1 => ?_, fun hlt => by omega, fun h2 => by omega, fun h2 => by omega⟩
    · rw [hvr, hac.regs _ (by decide) (by decide), hofs]
    · rw [timeState_congr (hvr _), hcst, hbt, hst, h1]
    · rw [hvl, hcl]
      exact hbr.trans hn
    · rw [← hcblk, hbl] at hb1
      cases hb1
  · obtain ⟨hvc, hvl, hvm, hvt, hv9, hvr⟩ := syncRate_rate c e hstep
    generalize c.syncRate st e = v at hvc hvl hvm hvt hv9 hvr ⊢
    have hvclk : v.clk = s.clk := by rw [hvc, hac.clk, hclk]
    have hvst : v.timeState = b.timeState := hvt.trans hcst
    refine ⟨?_, ?_, by rw [hvm, hac.mem, hmem], fun h0 => ⟨?_, hvclk⟩, fun h1 hn hn' hr => ?_, fun h1 hf => ?_,
      fun h1 he hb0 => absurd ⟨h1, he, hcblk.trans hb0⟩ hstep, fun h1 he _ => ⟨hvclk, hv9 h1 he⟩, fun _ => ⟨hvclk, ?_⟩,
      fun h2 hf => ?_, fun h2 hn hn' => ?_⟩
    · rw [hvr _ (by decide) (by decide), hac.regs _ (by decide) (by decide), hofs]
    · rw [hvl, hvclk, hac.lastSync, hline]
    · rw [hvst, hfree h0]
    · have hcount : 4 ≤ a.nearCount e := by
        rw [hnear, State.nearCount, if_pos (by simp [hn, hn'])]
        omega
      obtain ⟨h4, -⟩ := hacq h1
      obtain ⟨hbt, hb5⟩ := h4 hcount
      exact ⟨hvst.trans hbt, by rw [fb_of_reg (hvr _ (by decide) (by decide)), hcb 5 (by decide), hb5]⟩
    · have hcount : a.nearCount e = 0 := by
        rw [State.nearCount]
        exact if_neg (by simp; omega)
      obtain ⟨-, hfew⟩ := hacq h1
      obtain ⟨hbt, hbr⟩ := hfew (by omega)
      refine ⟨by rw [hvst, hbt, hst, h1], ?_⟩
      rw [hvl, hcl]
      exact hbr.trans hcount
    · rw [hvl, hac.eSum, hline]
    · obtain ⟨hbt, hb1⟩ := (hlock h2).1 hf
      exact ⟨hvst.trans hbt, by rw [fb_of_reg (hvr _ (by decide) (by decide)), hcb 1 (by decide), hb1]⟩
    · rw [hvst, (hlock h2).2 hn hn', hst, h2]

/-! ### The commands -/

theorem sync_own {s : State} {t : Tick} {p : Fin 2} {o h : BitVec 10} {p0 p1 : BitVec 64} {rx : Nat}
    (hp : (s.at t).portTakes p = true) (ho : o.toNat = (s.at t).lineId) :
    exec (.sync t p o h p0 p1 rx) s = .next ((s.at t).noteFrame p false) := by
  change execSync t p o h p0 p1 rx s = _
  unfold execSync
  generalize s.at t = u at *
  simp only [hp, noteFrame_lineId, ho, Bool.not_true, Bool.false_eq_true, if_false, if_true]

/-- The copy of a SYNC that goes on out of the other port, from the state that has noted it (R445). -/
def State.sendSync (y : State) (p o h p0 : Nat) (corr : Int) (rx : Nat) : State :=
  y.forward p { type := ftSYNC, origin := o, hops := h, p0 := p0
                p1 := fromSigned 64 (corr + 16 * (y.txMarker (1 - p) : Int) - rx) }

theorem sync_other {s : State} {t : Tick} {p : Fin 2} {o h : BitVec 10} {p0 p1 : BitVec 64} {rx : Nat}
    (hp : (s.at t).portTakes p = true) (ho : o.toNat ≠ (s.at t).lineId) {n y : State} {delay : Int}
    (hn : (s.at t).noteFrame p false = n) (hd : toSigned 24 (n.f (Reg.LINE_DELAY p) 23 0) = delay)
    (hy : n.setPort p { n.port p with sync := some (h.toNat + 1, (s.at t).clk.tb) } = y) :
    exec (.sync t p o h p0 p1 rx) s = .next (if n.syncWins p (h.toNat + 1) = true ∧ n.timeState ≠ 4 then
      (y.sendSync p o.toNat h.toNat p0.toNat (toSigned 64 p1.toNat + delay) rx).takeSync p o.toNat (h.toNat + 1)
        (16 * p0.toNat + toSigned 64 p1.toNat + delay - rx)
      else y.sendSync p o.toNat h.toNat p0.toNat (toSigned 64 p1.toNat + delay) rx) := by
  change execSync t p o h p0 p1 rx s = _
  unfold execSync
  generalize s.at t = u at *
  subst hn hd hy
  simp only [hp, noteFrame_lineId, ho, Bool.not_true, Bool.false_eq_true, if_false, noteFrame_clk, Bool.and_eq_true,
    decide_eq_true_eq]
  rfl

theorem syncTimeout_next (s : State) (t : Tick) : exec (.syncTimeout t) s =
    if (s.at t).lineOn = true ∧ ((s.at t).timeState = 1 ∨ (s.at t).timeState = 2) ∧
      (s.at t).line.lastSync + 8 * (s.at t).syncInt ≤ (s.at t).clk.tb then
      .next (if (s.at t).timeState = 2 then (((s.at t).setTime 3).setRate ((s.at t).lineRate 0)).lineEvent 1
        else ((s.at t).setTime 3).setRate ((s.at t).lineRate 0))
    else .next (s.at t) := by
  change execSyncTimeout t s = _
  unfold execSyncTimeout
  generalize s.at t = u
  simp only [Bool.and_eq_true, Bool.or_eq_true, decide_eq_true_eq, and_assoc]
  rfl

theorem syncTimeout_facts (u : State) (st : Nat) :
    (if st = 2 then ((u.setTime 3).setRate (u.lineRate 0)).lineEvent 1
      else (u.setTime 3).setRate (u.lineRate 0)).timeState = 3 ∧
    (if st = 2 then ((u.setTime 3).setRate (u.lineRate 0)).lineEvent 1
      else (u.setTime 3).setRate (u.lineRate 0)).mem = u.mem ∧
    (st = 2 → (if st = 2 then ((u.setTime 3).setRate (u.lineRate 0)).lineEvent 1
      else (u.setTime 3).setRate (u.lineRate 0)).fb Reg.LINE_IRQ_STATUS 1 = true) := by
  have hst : ((u.setTime 3).setRate (u.lineRate 0)).timeState = 3 := by
    rw [State.setRate, timeState_congr (reg_setReg_ne _ (by decide) _), timeState_setTime _ (by decide)]
  have hm : ((u.setTime 3).setRate (u.lineRate 0)).mem = u.mem := by
    rw [State.setRate, setReg_mem, State.setTime, setF_mem]
  by_cases h : st = 2
  · rw [if_pos h]
    refine ⟨(timeState_congr (lineEvent_reg _ _ (by decide))).trans hst, (SyncKept.lineEvent _ _).mem.trans hm, fun _ => ?_⟩
    rw [State.lineEvent, fb_raise, fb_setB_self _ _ (by decide)]
  · rw [if_neg h]
    exact ⟨hst, hm, fun h2 => absurd h2 h⟩

theorem syncSend_next (s : State) (t : Tick) : exec (.syncSend t) s =
    if (s.at t).lineOriginates = true ∧ (s.at t).lineJoined = true ∧ (s.at t).timeState = 4 ∧
      (s.at t).line.lastSync + (s.at t).syncInt ≤ (s.at t).clk.tb then
      .next ([0, 1].foldl (fun x p => if x.portState p = 2 then
        x.queueFrame p { type := ftSYNC, origin := x.lineId, p0 := x.txMarker p } else x)
        { s.at t with line := { (s.at t).line with lastSync := (s.at t).clk.tb } })
    else .next (s.at t) := by
  change execSyncSend t s = _
  unfold execSyncSend
  generalize s.at t = u
  simp only [Bool.and_eq_true, decide_eq_true_eq, and_assoc]
  rfl

theorem lineMaster_changed {u : State} {on : Bool} (h : u.fb Reg.LINE_CTRL 1 ≠ on) (hr : u.lineRunning = false) :
    (u.lineMaster on).fb Reg.LINE_CTRL 1 = on ∧ (u.lineMaster on).timeState = (if on then 4 else 0) ∧
    (u.lineMaster on).reg Reg.LINE_TIME_RATE = 0 ∧ (u.lineMaster on).mem = u.mem := by
  have hv : u.lineMaster on = ((u.setB Reg.LINE_CTRL 1 on).setTime (if on then 4 else 0)).setRate 0 := by
    rw [State.lineMaster, if_neg h, if_neg (by simp [hr])]
    cases on <;> rfl
  rw [hv, State.setRate]
  refine ⟨?_, ?_, reg_setReg_self _ _ _, ?_⟩
  · rw [fb_setReg_ne _ (by decide), State.setTime, fb_setF_ne _ (by decide), fb_setB_self _ _ (by decide)]
  · rw [timeState_congr (reg_setReg_ne _ (by decide) _), timeState_setTime _ (by cases on <;> decide)]
  · rw [setReg_mem, State.setTime, setF_mem, setB_mem]

/-- Settles O55: the commands act as their conditions say; a SYNC that is taken by the facts of its four parts. -/
theorem lineTime : Obligations.LineTime := by
  unfold Obligations.LineTime
  refine ⟨fun s t p p0 p1 rx => ?_, fun s p o h e _ _ => takeSync_facts s p o h e, fun s t on => ?_⟩
  · dsimp only
    refine ⟨fun hp => ⟨delayReqSend_not (Or.inl hp), if_neg (by simp [hp]), if_neg (by simp [hp]),
      fun o h => if_pos (by simp [hp])⟩, fun hp => ⟨fun ho hj => ⟨fun l hl => delayReqSend_held hl, fun h => ?_,
      delayReq_answered hp ho hj⟩, fun h => ⟨delayReqSend_not (Or.inr h), delayReq_silent hp h⟩, ?_,
      fun o h ho => sync_own hp ho, fun o h ho => sync_other hp ho rfl rfl rfl⟩⟩
    · exact delayReqSend_due hp ho hj h
    · obtain ⟨hm, hds, hf⟩ := addDelay_facts ((s.at t).noteFrame p false) p
        (floorDiv ((rx : Int) - 16 * p0.toNat - toSigned 64 p1.toNat) 2)
      rw [noteFrame_port] at hds hf
      exact ⟨_, delayResp_next hp, hm.trans (noteFrame_mem _ _ _), hds, hf⟩
  · dsimp only
    refine ⟨fun h => ?_, fun h => ?_, fun h => ?_, fun h ho hj hd => ?_, fun hon => ⟨fun h => ?_, fun h hr => ?_,
      fun h hr => ⟨_, if_pos hon, lineMaster_changed h hr⟩⟩⟩
    · rw [syncTimeout_next, if_neg h]
    · rw [syncTimeout_next, if_pos h]
      exact ⟨_, rfl, syncTimeout_facts _ _⟩
    · rw [syncSend_next, if_neg fun hd => h hd.2.2.1]
    · rw [syncSend_next, if_pos ⟨ho, hj, h, hd⟩]
      rfl
    · exact (if_pos hon).trans (congrArg Host.Outcome.next (if_pos h))
    · exact (if_pos hon).trans (congrArg Host.Outcome.next ((if_neg h).trans (if_pos hr)))

end Sys2Proof.Machine
end

section
/-! Frames over the Line: unicast and broadcast, joins, subscriptions and mailboxes. -/

namespace Sys2Proof.Machine

/-! ### Carrying frames -/

section
variable {u : State} {p : Nat} {f : Frame} {deliver : State → State}

theorem unicast_off (h : u.portTakes p = false) : u.unicast p f deliver = u := if_pos (by rw [h]; rfl)

theorem unicast_own (h : u.portTakes p = true) (ho : f.origin = u.lineId) :
    u.unicast p f deliver = (u.noteFrame p false).incSat Reg.LINE_CNT_B 15 0 := by
  rw [State.unicast, if_neg (by simp [h])]
  exact if_pos (ho.trans (noteFrame_lineId u p false).symm)

theorem unicast_on (h : u.portTakes p = true) (ho : f.origin ≠ u.lineId) (hd : f.dest ≠ u.lineId) :
    u.unicast p f deliver = (u.noteFrame p false).forward p f := by
  rw [State.unicast, if_neg (by simp [h])]
  exact (if_neg (noteFrame_lineId u p false ▸ ho)).trans (if_neg (noteFrame_lineId u p false ▸ hd))

/-- A frame that has reached its destination acts once, by its sequence number (R440). -/
theorem unicast_here (h : u.portTakes p = true) (ho : f.origin ≠ u.lineId) (hd : f.dest = u.lineId) :
    u.unicast p f deliver = if seqNew ((u.noteFrame p false).peer f.origin).lastUni f.seq = true then
      deliver ((u.noteFrame p false).setPeer f.origin
        { (u.noteFrame p false).peer f.origin with lastUni := some f.seq }) else u.noteFrame p false := by
  rw [State.unicast, if_neg (by simp [h])]
  exact (if_neg (noteFrame_lineId u p false ▸ ho)).trans (if_pos (hd.trans (noteFrame_lineId u p false).symm))

theorem broadcast_off (h : u.portTakes p = false) : u.broadcast p f deliver = u := if_pos (by rw [h]; rfl)

theorem broadcast_own (h : u.portTakes p = true) (ho : f.origin = u.lineId) :
    u.broadcast p f deliver = u.noteFrame p false := by
  rw [State.broadcast, if_neg (by simp [h])]
  exact if_pos (ho.trans (noteFrame_lineId u p false).symm)

theorem broadcast_on (h : u.portTakes p = true) (ho : f.origin ≠ u.lineId) :
    u.broadcast p f deliver = (deliver (u.noteFrame p false)).forward p f := by
  rw [State.broadcast, if_neg (by simp [h])]
  exact if_neg (noteFrame_lineId u p false ▸ ho)

end

/-- What a unicast frame leads to, `applied` where it acts. -/
theorem unicast_cases {s : State} {t : Tick} {p : Nat} {i : Instr} {f : Frame} {deliver : State → State}
    (hexec : exec i s = .next ((s.at t).unicast p f deliver)) :
    ((s.at t).portTakes p = false → exec i s = .next (s.at t)) ∧
    ((s.at t).portTakes p = true →
      (f.origin = (s.at t).lineId → exec i s = .next (((s.at t).noteFrame p false).incSat Reg.LINE_CNT_B 15 0)) ∧
      (f.origin ≠ (s.at t).lineId → f.dest ≠ (s.at t).lineId →
        exec i s = .next (((s.at t).noteFrame p false).forward p f)) ∧
      (f.origin ≠ (s.at t).lineId → f.dest = (s.at t).lineId →
        (seqNew (((s.at t).noteFrame p false).peer f.origin).lastUni f.seq = false →
          exec i s = .next ((s.at t).noteFrame p false)) ∧
        (seqNew (((s.at t).noteFrame p false).peer f.origin).lastUni f.seq = true →
          exec i s = .next (deliver (((s.at t).noteFrame p false).setPeer f.origin
            { ((s.at t).noteFrame p false).peer f.origin with lastUni := some f.seq }))))) := by
  refine ⟨fun h => ?_, fun h => ⟨fun ho => ?_, fun ho hd => ?_, fun ho hd => ⟨fun hn => ?_, fun hn => ?_⟩⟩⟩
  · rw [hexec, unicast_off h]
  · rw [hexec, unicast_own h ho]
  · rw [hexec, unicast_on h ho hd]
  · rw [hexec, unicast_here h ho hd, if_neg (by simp [hn])]
  · rw [hexec, unicast_here h ho hd, if_pos hn]

theorem drainPort_sbx (s : State) (p : Nat) : (s.drainPort p).sbx = s.sbx := by
  rw [State.drainPort, State.setPort]
  split_ifs <;> rfl

theorem queueFrame_kept (s : State) (p : Nat) (f : Frame) : (s.queueFrame p f).mem = s.mem ∧
    (s.queueFrame p f).sbx.remote = s.sbx.remote := by
  rw [State.queueFrame]
  dsimp only
  split
  · refine ⟨?_, ?_⟩
    · rw [State.lineEvent, raise_mem, setB_mem, incSat_mem, (drainPort_facts s p).2.2.1]
    · rw [State.lineEvent]
      change (((s.drainPort p).incSat Reg.LINE_CNT_A 31 16).setB Reg.LINE_IRQ_STATUS 3 true).sbx.remote = _
      rw [setB_sbx, incSat_sbx, drainPort_sbx]
  · refine ⟨?_, ?_⟩
    · rw [(drainPort_facts _ p).2.2.1, setPort_mem, (drainPort_facts s p).2.2.1]
    · rw [drainPort_sbx, setPort_sbx, drainPort_sbx]

theorem forward_kept (s : State) (p : Nat) (f : Frame) : (s.forward p f).mem = s.mem ∧
    (s.forward p f).sbx.remote = s.sbx.remote := by
  rw [State.forward]
  split
  · split
    · exact queueFrame_kept _ _ _
    · exact ⟨rfl, rfl⟩
  · exact ⟨incSat_mem _ _ _ _ _, by rw [incSat_sbx]⟩

theorem noteFrame_sbx (s : State) (p : Nat) (bad : Bool) : (s.noteFrame p bad).sbx = s.sbx := setPort_sbx _ _ _

/-- A FAULT is handed to the Signal Box whoever sent it (R451). -/
theorem faultFrame_handed {s : State} {t : Tick} {p : Fin 2} {o h : BitVec 10} {seq : BitVec 16} {p0 : BitVec 64}
    (hp : (s.at t).portTakes p = true) : ∃ v : State, exec (.faultFrame t p o h seq p0) s = .next v ∧ v.mem = (s.at t).mem ∧
      { at' := (s.at t).clk.tb, payload := p0.toNat } ∈ v.sbx.remote := by
  refine ⟨_, if_pos hp, ?_⟩
  generalize s.at t = u at *
  have hm : { at' := u.clk.tb, payload := p0.toNat } ∈ (u.handFault p0.toNat).sbx.remote :=
    List.mem_append_right _ (List.mem_singleton.mpr rfl)
  have hmem : (u.handFault p0.toNat).mem = u.mem := rfl
  have hp' : (u.handFault p0.toNat).portTakes p = true := hp
  generalize u.handFault p0.toNat = y at hm hmem hp' ⊢
  by_cases ho : o.toNat = y.lineId
  · rw [broadcast_own hp' ho, noteFrame_mem, noteFrame_sbx]
    exact ⟨hmem, hm⟩
  · rw [broadcast_on hp' ho, (forward_kept _ _ _).1, (forward_kept _ _ _).2]
    exact ⟨(noteFrame_mem _ _ _).trans hmem, by rw [id, noteFrame_sbx]; exact hm⟩

/-! ### Subscriptions and joins -/

/-- A PUBLISH reaches one subscription. -/
def State.fillSub (id : Nat) (w : Word) (s : State) (j : Nat) : State :=
  if s.fb (Reg.LINE_SUB j) 31 && s.f (Reg.LINE_SUB j) 19 0 == id then
    (s.setReg (Reg.LINE_COPY j) w).setB (Reg.LINE_SUB j) 30 true
  else s

theorem applyPublish_eq (s : State) (id : Nat) (w : Word) :
    s.applyPublish id w = (List.range 256).foldl (State.fillSub id w) s := rfl

/-- The subscription names the point. -/
def State.subNames (s : State) (id j : Nat) : Prop := s.fb (Reg.LINE_SUB j) 31 = true ∧ s.f (Reg.LINE_SUB j) 19 0 = id

theorem subNames_congr {s u : State} {j : Nat} (h : s.reg (Reg.LINE_SUB j) = u.reg (Reg.LINE_SUB j)) (id : Nat) :
    s.subNames id j ↔ u.subNames id j := by
  rw [State.subNames, State.subNames, fb_of_reg h, f_of_reg h]

theorem fillSub_facts (id : Nat) (w : Word) (s : State) (j : Nat) : (State.fillSub id w s j).mem = s.mem ∧
    (s.subNames id j → (State.fillSub id w s j).reg (Reg.LINE_COPY j) = w ∧
      (State.fillSub id w s j).fb (Reg.LINE_SUB j) 30 = true) ∧
    (¬ s.subNames id j → State.fillSub id w s j = s) ∧
    ∀ k ≠ j, (State.fillSub id w s j).reg (Reg.LINE_COPY k) = s.reg (Reg.LINE_COPY k) ∧
      (State.fillSub id w s j).reg (Reg.LINE_SUB k) = s.reg (Reg.LINE_SUB k) := by
  have hiff : (s.fb (Reg.LINE_SUB j) 31 && s.f (Reg.LINE_SUB j) 19 0 == id) = true ↔ s.subNames id j := by
    simp [State.subNames]
  rw [State.fillSub]
  by_cases h : s.subNames id j
  · rw [if_pos (hiff.mpr h)]
    refine ⟨by rw [setB_mem, setReg_mem], fun _ => ⟨?_, fb_setB_self _ _ (by decide) _⟩, fun hn => absurd h hn,
      fun k hk => ⟨?_, ?_⟩⟩
    · rw [reg_setB_ne _ (by simp only [Reg.LINE_COPY, Reg.LINE_SUB]; omega), reg_setReg_self]
    · rw [reg_setB_ne _ (by simp only [Reg.LINE_COPY, Reg.LINE_SUB]; omega),
        reg_setReg_ne _ (by simp only [Reg.LINE_COPY]; omega)]
    · rw [reg_setB_ne _ (by simp only [Reg.LINE_SUB]; omega),
        reg_setReg_ne _ (by simp only [Reg.LINE_COPY, Reg.LINE_SUB]; omega)]
  · rw [if_neg (mt hiff.mp h)]
    exact ⟨rfl, fun hn => absurd hn h, fun _ => rfl, fun _ _ => ⟨rfl, rfl⟩⟩

theorem fillSubs_facts (id : Nat) (w : Word) (s : State) (l : List Nat) (hl : l.Nodup) :
    (l.foldl (State.fillSub id w) s).mem = s.mem ∧
    (∀ j ∈ l, s.subNames id j → (l.foldl (State.fillSub id w) s).reg (Reg.LINE_COPY j) = w ∧
      (l.foldl (State.fillSub id w) s).fb (Reg.LINE_SUB j) 30 = true) ∧
    ∀ j, j ∉ l ∨ ¬ s.subNames id j → (l.foldl (State.fillSub id w) s).reg (Reg.LINE_COPY j) = s.reg (Reg.LINE_COPY j) ∧
      (l.foldl (State.fillSub id w) s).reg (Reg.LINE_SUB j) = s.reg (Reg.LINE_SUB j) := by
  induction l generalizing s with
  | nil => exact ⟨rfl, fun j hj => absurd hj List.not_mem_nil, fun _ _ => ⟨rfl, rfl⟩⟩
  | cons i l ih =>
    obtain ⟨hi, hnd⟩ := List.nodup_cons.mp hl
    obtain ⟨hm, hyes, hno, hne⟩ := fillSub_facts id w s i
    obtain ⟨ihm, ihyes, ihno⟩ := ih (State.fillSub id w s i) hnd
    rw [List.foldl_cons]
    refine ⟨ihm.trans hm, fun j hj hn => ?_, fun j hj => ?_⟩
    · by_cases hji : j = i
      · subst hji
        obtain ⟨hc, hs⟩ := ihno j (Or.inl hi)
        exact ⟨hc.trans (hyes hn).1, (fb_of_reg hs _).trans (hyes hn).2⟩
      · exact ihyes j ((List.mem_cons.mp hj).resolve_left hji) ((subNames_congr (hne j hji).2 id).mpr hn)
    · by_cases hji : j = i
      · subst hji
        have hn := hj.resolve_left (not_not.mpr List.mem_cons_self)
        obtain ⟨hc, hs⟩ := ihno j (Or.inl hi)
        rw [hc, hs, hno hn]
        exact ⟨rfl, rfl⟩
      · obtain ⟨hc, hs⟩ := ihno j (hj.imp (fun h hm => h (List.mem_cons_of_mem _ hm)) (mt (subNames_congr (hne j hji).2 id).mp))
        exact ⟨hc.trans (hne j hji).1, hs.trans (hne j hji).2⟩

/-- A receiver takes a JOIN (R442). -/
theorem joined_facts (s : State) (d i : Nat) : ((s.peer d).incarn = some i → s.joined d i = s) ∧
    ((s.peer d).incarn ≠ some i → (s.joined d i).peer d = { incarn := some i } ∧
      (s.joined d i).fb (Reg.SBX_ORIGIN d) 16 = false) := by
  refine ⟨fun h => if_pos h, fun h => ?_⟩
  rw [State.joined, if_neg h]
  refine ⟨?_, fb_setB_self _ _ (by decide) _⟩
  change Tab.get ({} : Peer) ((s.setPeer d { incarn := some i }).setB (Reg.SBX_ORIGIN d) 16 false).line.peers d = _
  rw [setB_line]
  exact Tab.get_put_self ({} : Peer) d { incarn := some i } s.line.peers

/-- A write to a subscription (R450). -/
theorem subWrite_facts (u : State) (j : Nat) (w : Word) : (u.subWrite j w).reg (Reg.LINE_COPY j) = 0 ∧
    (u.subWrite j w).f (Reg.LINE_SUB j) 19 0 = bits w 19 0 ∧ (u.subWrite j w).fb (Reg.LINE_SUB j) 31 = w.getLsbD 31 ∧
    (u.subWrite j w).fb (Reg.LINE_SUB j) 30 = false ∧ (u.subWrite j w).mem = u.mem := by
  have hsub : (u.subWrite j w).reg (Reg.LINE_SUB j) =
      putBits (putBits 0 19 0 (bits w 19 0)) 31 31 (bits w 31 31) := by
    rw [State.subWrite, reg_setReg_ne _ (by simp only [Reg.LINE_SUB, Reg.LINE_COPY]; omega), reg_setReg_self]
  refine ⟨reg_setReg_self _ _ _, ?_, ?_, ?_, by rw [State.subWrite, setReg_mem, setReg_mem]⟩
  · rw [State.f, hsub, bits_putBits_ne _ (by decide) (by decide) (by decide), bits_putBits_self _ (by decide) (by decide)]
    exact Nat.mod_eq_of_lt (bits_lt _ _ _)
  · rw [State.fb, hsub, bits_putBits_self _ (by decide) (by decide), Nat.mod_eq_of_lt (bits_lt _ _ _), Bool.eq_iff_iff,
      beq_iff_eq, bits_one_iff]
  · rw [State.fb, hsub, bits_putBits_ne _ (by decide) (by decide) (by decide),
      bits_putBits_ne _ (by decide) (by decide) (by decide)]
    rfl

/-! ### Sending -/

theorem publishSend_none {s : State} {t : Tick} (h : (s.at t).line.pubPending = []) :
    exec (.publishSend t) s = .next (s.at t) := by
  change execPublishSend t s = _
  unfold execPublishSend
  generalize s.at t = u at *
  simp only [h]

theorem publishSend_first {s : State} {t : Tick} {q : Nat} {qs : List Nat} (h : (s.at t).line.pubPending = q :: qs)
    (ho : (s.at t).lineOriginates = true) (hj : (s.at t).lineJoined = true)
    (hup : (s.at t).portState 0 = 2 ∨ (s.at t).portState 1 = 2) {y : State}
    (hy : (s.at t).withLine { (s.at t).line with
      pubPending := qs, seqPub := ((s.at t).line.seqPub + 1) % 65536 } = y) :
    exec (.publishSend t) s = .next (y.originate
      { type := ftPUBLISH, origin := 0, seq := y.line.seqPub
        p0 := (y.point q).toNat + 2 ^ 32 * (1024 * y.lineId + q), p1 := Tab.get 0 y.pointTimes q }) := by
  change execPublishSend t s = _
  unfold execPublishSend
  generalize s.at t = u at *
  subst hy
  simp only [h, ho, hj, Bool.true_and, Bool.or_eq_true, decide_eq_true_eq]
  exact if_pos hup

/-- LINE holds a word of a channel for a device, and credit for it (R452). -/
def State.mailSends (u : State) (c : Nat) : Prop :=
  u.lineOriginates = true ∧ u.pltBound c = true ∧ (u.pltSends eLINE c).isSome = true ∧ u.fb (Reg.LINE_PLT c) 16 = true ∧
    0 < (u.link c).credit

theorem mailSends_iff (u : State) (c : Nat) : (u.lineOriginates && u.pltBound c && (u.pltSends eLINE c).isSome &&
    u.fb (Reg.LINE_PLT c) 16 && decide (0 < (u.link c).credit)) = true ↔ u.mailSends c := by
  simp only [State.mailSends, Bool.and_eq_true, decide_eq_true_eq, and_assoc]

theorem pltFrameSend_none {s : State} {t : Tick} {ch : Fin 64}
    (h : (s.at t).pltRipe eLINE ch = [] ∨ ¬ (s.at t).mailSends ch) : exec (.pltFrameSend t ch) s = .next (s.at t) := by
  change execPltFrameSend t ch s = _
  unfold execPltFrameSend
  generalize s.at t = u at *
  dsimp only
  cases hr : u.pltRipe eLINE ch with
  | nil => rfl
  | cons v vs => exact if_neg (mt (mailSends_iff u ch).mp (h.resolve_left (by simp [hr])))

theorem pltFrameSend_first {s : State} {t : Tick} {ch : Fin 64} {v : Word × Tick} {vs : List (Word × Tick)}
    (h : (s.at t).pltRipe eLINE ch = v :: vs) (hs : (s.at t).mailSends ch) {n : Nat} (hn : (((s.at t).link ch).sent + 1) % 256 = n)
    {y : State} (hy : ((s.at t).pltDrop eLINE ch 1).setLink ch { (s.at t).link ch with sent := n } = y) :
    exec (.pltFrameSend t ch) s = .next (y.sendUnicast ftPLT (y.f (Reg.LINE_PLT ch) 9 0)
      (v.1.toNat + 2 ^ 32 * y.f (Reg.LINE_PLT ch) 15 10 + 2 ^ 38 * n) 0) := by
  change execPltFrameSend t ch s = _
  unfold execPltFrameSend
  generalize s.at t = u at *
  subst hn hy
  simp only [h]
  exact if_pos ((mailSends_iff u ch).mpr hs)

theorem join_next (s : State) (t : Tick) (p : Fin 2) (o h : BitVec 10) (p0 p1 : BitVec 64) :
    exec (.join t p o h p0 p1) s =
      if (s.at t).portTakes p = true ∧ o.toNat = (s.at t).lineId ∧ p1.toNat ≠ State.unitId then
        .next ((((s.at t).broadcast p
          { type := ftJOIN, origin := o.toNat, hops := h.toNat, p0 := p0.toNat, p1 := p1.toNat }
          fun s => s.joined o.toNat (p0.toNat % 65536)).setB Reg.LINE_STATUS 10 true).lineEvent 2)
      else .next ((s.at t).broadcast p
        { type := ftJOIN, origin := o.toNat, hops := h.toNat, p0 := p0.toNat, p1 := p1.toNat }
        fun s => s.joined o.toNat (p0.toNat % 65536)) := by
  change execJoin t p o h p0 p1 s = _
  unfold execJoin
  generalize s.at t = u
  simp only [Bool.and_eq_true, decide_eq_true_eq, and_assoc]

/-- Settles O56: each frame through the rule of its kind, subscriptions by the fold over them, sends by their guards. -/
theorem lineFrames : Obligations.LineFrames := by
  unfold Obligations.LineFrames
  refine ⟨fun s t p o d h seq p0 p1 => ?_, fun s id w => ?_, fun s d i _ => joined_facts s d i, fun s t ch j w => ?_⟩
  · dsimp only
    refine ⟨?_, ?_, ?_, fun hp => ⟨fun ho => ?_, fun ho => ?_, faultFrame_handed hp, ⟨fun ho => ?_, fun ho hu => ?_,
      fun ho hu => ?_⟩⟩, fun hp => ⟨?_, ?_, ?_⟩⟩
    · exact unicast_cases (s := s) (i := .lineSpwFrame t p o d h seq p0 p1) rfl
    · exact unicast_cases (s := s) (i := .pltFrame t p o d h seq p0) rfl
    · exact unicast_cases (s := s) (i := .credit t p o d h seq p0) rfl
    · exact congrArg Host.Outcome.next (broadcast_own hp ho)
    · exact congrArg Host.Outcome.next (broadcast_on hp ho)
    · rw [join_next, if_neg fun hd => ho hd.2.1, broadcast_on hp ho]
    · rw [join_next, if_neg fun hd => hd.2.2 hu, broadcast_own hp ho]
    · rw [join_next, if_pos ⟨hp, ho, hu⟩, broadcast_own hp ho]
    · exact congrArg Host.Outcome.next (broadcast_off hp)
    · exact if_neg (by simp [hp])
    · rw [join_next, if_neg fun hd => Bool.noConfusion (hp.symm.trans hd.1), broadcast_off hp]
  · obtain ⟨hm, hyes, hno⟩ := fillSubs_facts id w s (List.range 256) List.nodup_range
    dsimp only
    rw [applyPublish_eq]
    exact ⟨hm, fun j hj => ⟨fun hn => hyes j (List.mem_range.mpr hj) hn, fun hn => hno j (Or.inr hn)⟩⟩
  · dsimp only
    exact ⟨publishSend_none, fun q qs hq ho hj hup => publishSend_first hq ho hj hup rfl,
      fun hon => ⟨_, if_pos hon, subWrite_facts _ _ _⟩, pltFrameSend_none, fun v vs hr hs => pltFrameSend_first hr hs rfl rfl⟩

end Sys2Proof.Machine
end

section
/-! The host interface: requests, the link and its resets, and MSI-X. -/

namespace Sys2Proof.Machine

/-! ### Requests -/

section
variable {s : State} {t : Tick} {bar2 : Bool} {o : BitVec 26} {data : List Byte} {n : Nat}

theorem hostWrite_down (h : (s.at t).dlUp = false) : exec (.hostWrite t bar2 o data) s = .next (s.at t) :=
  if_pos (by rw [h]; rfl)

theorem hostRead_down (h : (s.at t).dlUp = false) : exec (.hostRead t bar2 o n) s = .next (s.at t) :=
  if_pos (by rw [h]; rfl)

theorem hostWrite_bar2 (h : (s.at t).dlUp = true) {r : AccErr × State}
    (hr : (s.at t).busStore iHOST (stacksBase + o.toNat % 0x800000) data.length (natLE data) = r) :
    exec (.hostWrite t true o data) s = .next (if r.1 = .ok then r.2.setAcc iHOST { err := r.1 }
      else (r.2.setAcc iHOST { err := r.1 }).hostRefuse true false o.toNat) := by
  change execHostWrite t true o data s = _
  unfold execHostWrite
  generalize s.at t = u at *
  simp only [h, Bool.not_true, Bool.false_eq_true, if_false, if_true, hr]
  rw [apply_ite Host.Outcome.next]

theorem hostRead_bar2 (h : (s.at t).dlUp = true) {r : AccResult × State}
    (hr : (s.at t).busLoad iHOST (stacksBase + o.toNat % 0x800000) n = r) :
    exec (.hostRead t true o n) s = .next (if r.1.err = .ok ∨ r.1.err = .ecc then r.2.setAcc iHOST r.1
      else (r.2.setAcc iHOST r.1).hostRefuse true true o.toNat) := by
  change execHostRead t true o n s = _
  unfold execHostRead
  generalize s.at t = u at *
  simp only [h, Bool.not_true, Bool.false_eq_true, if_false, if_true, hr, Bool.or_eq_true, decide_eq_true_eq]
  rw [apply_ite Host.Outcome.next]

theorem hostWrite_regs (h : (s.at t).dlUp = true) (hx : o.toNat < 0x1A00000) {r : AccErr × State}
    (hr : (s.at t).busStore iHOST (0x20000000 + o.toNat) data.length (natLE data) = r) :
    exec (.hostWrite t false o data) s = .next (if r.1 = .ok then r.2.setAcc iHOST { err := r.1 }
      else (r.2.setAcc iHOST { err := r.1 }).hostRefuse false false o.toNat) := by
  change execHostWrite t false o data s = _
  unfold execHostWrite
  generalize s.at t = u at *
  simp only [h, Bool.not_true, Bool.false_eq_true, if_false, if_pos hx, hr]
  rw [apply_ite Host.Outcome.next]

theorem hostRead_regs (h : (s.at t).dlUp = true) (hx : o.toNat < 0x1A00000) {r : AccResult × State}
    (hr : (s.at t).busLoad iHOST (0x20000000 + o.toNat) n = r) :
    exec (.hostRead t false o n) s = .next (if r.1.err = .ok then r.2.setAcc iHOST r.1
      else (r.2.setAcc iHOST r.1).hostRefuse false true o.toNat) := by
  change execHostRead t false o n s = _
  unfold execHostRead
  generalize s.at t = u at *
  simp only [h, Bool.not_true, Bool.false_eq_true, if_false, if_pos hx, hr]
  rw [apply_ite Host.Outcome.next]

/-- A write beyond the registers: to the table of MSI-X, to the pending bits, or to nothing. -/
theorem hostWrite_above (h : (s.at t).dlUp = true) (hx : ¬ o.toNat < 0x1A00000) :
    exec (.hostWrite t false o data) s = if 0x3000000 ≤ o.toNat ∧ o.toNat + data.length ≤ 0x3000400 then
      .next (((s.at t).msixWrite (o.toNat - 0x3000000) data).setAcc iHOST {})
    else if 0x3001000 ≤ o.toNat ∧ o.toNat + data.length ≤ 0x3001008 then .next ((s.at t).setAcc iHOST {})
    else .next (((s.at t).setAcc iHOST { err := .unsupported }).hostRefuse false false o.toNat) := by
  change execHostWrite t false o data s = _
  unfold execHostWrite
  generalize s.at t = u at *
  simp only [h, Bool.not_true, Bool.false_eq_true, if_false, if_neg hx, Bool.and_eq_true, decide_eq_true_eq]

theorem hostRead_above (h : (s.at t).dlUp = true) (hx : ¬ o.toNat < 0x1A00000) :
    exec (.hostRead t false o n) s = if 0x3000000 ≤ o.toNat ∧ o.toNat + n ≤ 0x3000400 then
      .next ((s.at t).setAcc iHOST { value := sliceLE (s.at t).msixBytes (o.toNat - 0x3000000) n })
    else if 0x3001000 ≤ o.toNat ∧ o.toNat + n ≤ 0x3001008 then
      .next ((s.at t).setAcc iHOST
        { value := (s.at t).msixPending / 2 ^ (8 * (o.toNat - 0x3001000)) % 2 ^ (8 * n) })
    else .next (((s.at t).setAcc iHOST { err := .unsupported }).hostRefuse false true o.toNat) := by
  change execHostRead t false o n s = _
  unfold execHostRead
  generalize s.at t = u at *
  simp only [h, Bool.not_true, Bool.false_eq_true, if_false, if_neg hx, Bool.and_eq_true, decide_eq_true_eq]

end

/-- The word that records a refused request (R431). -/
def refusedWord (bar2 read : Bool) (o : Nat) : Nat :=
  o % 2 ^ 26 + (if bar2 then 2 ^ 27 else 0) + (if read then 2 ^ 28 else 0)

theorem refusedWord_fields (bar2 read : Bool) {o : Nat} (h : o < 2 ^ 26) :
    bits (BitVec.ofNat 32 (refusedWord bar2 read o)) 25 0 = o ∧
    (bits (BitVec.ofNat 32 (refusedWord bar2 read o)) 27 27 == 1) = bar2 ∧
    (bits (BitVec.ofNat 32 (refusedWord bar2 read o)) 28 28 == 1) = read := by
  simp only [bits, refusedWord, BitVec.toNat_ofNat]
  cases bar2 <;> cases read <;> simp only [Bool.false_eq_true, if_false, if_true, beq_iff_eq, beq_eq_false_iff_ne] <;> omega

theorem hostRefuse_facts (s : State) (bar2 read : Bool) {o : Nat} (h : o < 2 ^ 26) :
    (s.hostRefuse bar2 read o).f Reg.HST_ERR_ADDR 25 0 = o ∧ (s.hostRefuse bar2 read o).fb Reg.HST_ERR_ADDR 27 = bar2 ∧
    (s.hostRefuse bar2 read o).fb Reg.HST_ERR_ADDR 28 = read ∧ (s.hostRefuse bar2 read o).fb Reg.HST_IRQ_STATUS 1 = true ∧
    (s.hostRefuse bar2 read o).mem = s.mem ∧
    (s.hostRefuse bar2 read o).sbx.raised = s.sbx.raised ++ [{ src := srcHST, ev := 1, ts := s.now }] := by
  have hreg : (s.hostRefuse bar2 read o).reg Reg.HST_ERR_ADDR = BitVec.ofNat 32 (refusedWord bar2 read o) := by
    rw [State.hostRefuse, reg_raise, reg_setB_ne _ (by decide), reg_setReg_self, refusedWord]
  obtain ⟨h1, h2, h3⟩ := refusedWord_fields bar2 read h
  refine ⟨?_, ?_, ?_, ?_, ?_, ?_⟩
  · rw [State.f, hreg, h1]
  · rw [State.fb, hreg, h2]
  · rw [State.fb, hreg, h3]
  · rw [State.hostRefuse, fb_raise, fb_setB_self _ _ (by decide)]
  · rw [State.hostRefuse, raise_mem, setB_mem, setReg_mem]
  · rw [State.hostRefuse, raised_raise, setB_sbx, setReg_sbx, State.now, setB_clk, setReg_clk, State.now]

/-! ### The table of MSI-X -/

theorem msixEntry_bytes_length (e : MsixEntry) : e.bytes.length = 16 := by
  simp [MsixEntry.bytes]

/-- The bytes of one entry in a list of entries of one size. -/
theorem flatMap_slice {α : Type} {g : α → List Byte} {k : Nat} (hg : ∀ x, (g x).length = k) (l : List α) {w : Nat} {x : α}
    (h : l[w]? = some x) : ((l.flatMap g).drop (k * w)).take k = g x := by
  induction l generalizing w with
  | nil => simp at h
  | cons y l ih =>
    rw [List.flatMap_cons]
    cases w with
    | zero =>
      cases h
      rw [Nat.mul_zero, List.drop_zero]
      exact List.take_left' (hg _)
    | succ w =>
      rw [show k * (w + 1) = (g y).length + k * w by rw [hg]; ring, List.drop_append,
        List.drop_eq_nil_of_le (Nat.le_add_right _ _), Nat.add_sub_cancel_left, List.nil_append]
      exact ih h

theorem msixBytes_length (s : State) : s.msixBytes.length = 1024 := by
  have h (l : List Nat) : (l.flatMap fun v => (Tab.get {} s.hst.table v).bytes).length = 16 * l.length := by
    induction l with
    | nil => rfl
    | cons v l ih => rw [List.flatMap_cons, List.length_append, ih, msixEntry_bytes_length, List.length_cons]; ring
  exact h _

/-- The bytes of an entry after sixteen bytes of the table were replaced. -/
theorem splice_slice {bs data : List Byte} {v w : Nat} (hl : bs.length = 1024) (hd : data.length = 16) (hv : v < 64) :
    ((bs.take (16 * v) ++ data ++ bs.drop (16 * v + data.length)).drop (16 * w)).take 16 =
      if w = v then data else (bs.drop (16 * w)).take 16 := by
  have htake : (bs.take (16 * v)).length = 16 * v := by rw [List.length_take]; omega
  apply List.ext_getElem?
  intro i
  by_cases hi : i < 16
  · rw [List.getElem?_take_of_lt hi, List.getElem?_drop, List.append_assoc]
    by_cases hw : w = v
    · subst hw
      rw [if_pos rfl, List.getElem?_append_right (by omega), htake, List.getElem?_append_left (by omega)]
      congr 1
      omega
    · rw [if_neg hw, List.getElem?_take_of_lt hi, List.getElem?_drop]
      by_cases hlt : w < v
      · rw [List.getElem?_append_left (by omega), List.getElem?_take_of_lt (by omega)]
      · rw [List.getElem?_append_right (by omega), htake, List.getElem?_append_right (by omega), List.getElem?_drop]
        congr 1
        omega
  · rw [List.getElem?_take_eq_none (by omega)]
    split
    · rw [List.getElem?_eq_none (by omega)]
    · rw [List.getElem?_take_eq_none (by omega)]

theorem get_putAll {α : Type} [DecidableEq α] (d : α) (g : Nat → α) (l : List Nat) (t : Tab α) {v : Nat} (h : v ∈ l) :
    Tab.get d (l.foldl (fun t v => Tab.put d t v (g v)) t) v = g v := by
  refine foldl_establish (P := fun t => Tab.get d t v = g v) (fun t w _ ht => ?_) h (fun t => Tab.get_put_self _ _ _ _) t
  by_cases hw : v = w
  · subst hw
    exact Tab.get_put_self _ _ _ _
  · rw [Tab.get_put_ne _ hw]
    exact ht

theorem msixWrite_facts (s : State) {v : Nat} {data : List Byte} (hv : v < 64) (hd : data.length = 16) :
    Tab.get {} (s.msixWrite (16 * v) data).hst.table v = msixOf data ∧
    ∀ w < 64, w ≠ v → Tab.get {} (s.msixWrite (16 * v) data).hst.table w = msixOf (Tab.get {} s.hst.table w).bytes := by
  have hget : ∀ w < 64, Tab.get {} (s.msixWrite (16 * v) data).hst.table w =
      msixOf (((s.msixBytes.take (16 * v) ++ data ++ s.msixBytes.drop (16 * v + data.length)).drop (16 * w)).take 16) :=
    fun w hw => get_putAll _ _ _ _ (List.mem_range.mpr hw)
  refine ⟨?_, fun w hw hne => ?_⟩
  · rw [hget v hv, splice_slice (msixBytes_length s) hd hv, if_pos rfl]
  · rw [hget w hw, splice_slice (msixBytes_length s) hd hv, if_neg hne, State.msixBytes,
      flatMap_slice (fun v => msixEntry_bytes_length _) _ (List.getElem?_range hw)]

/-! ### The link and its resets -/

theorem endHostDma_facts (s : State) : s.endHostDma.regs = s.regs ∧ s.endHostDma.mem = s.mem ∧ s.endHostDma.hst = s.hst := by
  rw [State.endHostDma]
  refine foldl_invariant (P := fun u : State => u.regs = s.regs ∧ u.mem = s.mem ∧ u.hst = s.hst) (fun u c _ h => ?_)
    ⟨rfl, rfl, rfl⟩
  split
  · split
    · exact h
    · exact h
  · exact h

theorem endHostDma_reg (s : State) (a : Nat) : s.endHostDma.reg a = s.reg a := reg_of_regs (endHostDma_facts s).1 a

/-- No field of a register is kept over a block reset. -/
def keepsNone (a : Nat) : Bool :=
  match findReg a with
  | none => true
  | some p => p.1.fields.all fun f => !keepBrst p.1.name f.keep

theorem keepWord_keepsNone {a : Nat} (h : keepsNone a = true) (w : Word) : keepWord a w keepBrst = resetReg a := by
  rw [keepWord]
  rw [keepsNone] at h
  cases hf : findReg a with
  | none => rfl
  | some p =>
    rw [hf] at h
    obtain ⟨d, ix⟩ := p
    exact foldl_keep fun f hm => if_neg (by simpa using List.all_eq_true.mp h f hm)

/-- A register of which a reset keeps nothing reads as its reset value after it. -/
theorem reg_resetRegs_of_keepWord (s : State) {lo hi a : Nat} {kp : String → Keep → Bool} (h : lo ≤ a) (h' : a < hi)
    (hk : ∀ w, keepWord a w kp = resetReg a) : (s.resetRegs lo hi kp).reg a = resetReg a := by
  rw [State.reg]
  cases hf : (s.resetRegs lo hi kp).regs.find? (fun p => p.1 == a) with
  | none => rfl
  | some p =>
    exfalso
    have hkey := List.find?_some hf
    obtain ⟨q, -, hq⟩ := List.mem_filterMap.mp (List.mem_of_find?_eq_some hf)
    have hout : ¬ (q.1 < lo || hi ≤ q.1) = true → keepWord q.1 q.2 kp ≠ resetReg q.1 ∧ q.1 = p.1 := fun hn => by
      rw [if_neg hn] at hq
      dsimp only at hq
      split at hq
      · cases hq
      · next hw => exact ⟨hw, by cases hq; rfl⟩
    have hpa : p.1 = a := by simpa using hkey
    by_cases hin : (q.1 < lo || hi ≤ q.1) = true
    · rw [if_pos hin] at hq
      cases hq
      simp at hin
      omega
    · obtain ⟨hw, he⟩ := hout hin
      rw [he, hpa] at hw
      exact hw (hk _)

/-- A register of the block without a kept field reads as its reset value after a block reset (R82). -/
theorem reg_resetRegs (s : State) {lo hi a : Nat} (h : lo ≤ a) (h' : a < hi) (hk : keepsNone a = true) :
    (s.resetRegs lo hi keepBrst).reg a = resetReg a :=
  reg_resetRegs_of_keepWord s h h' (keepWord_keepsNone hk)

theorem hstReset_facts (s : State) : (s.hstReset keepBrst).hst = { perst := s.hst.perst } ∧
    (s.hstReset keepBrst).fb Reg.HST_STATUS 9 = s.hst.perst ∧ (s.hstReset keepBrst).fb Reg.HST_STATUS 0 = false ∧
    (s.hstReset keepBrst).mem = s.mem := by
  obtain ⟨hr, hm, hh⟩ := endHostDma_facts (({ s with hst := { perst := s.hst.perst } }.resetBlockRegs 0x14 keepBrst).setB
    Reg.HST_STATUS 9 s.hst.perst)
  rw [State.hstReset]
  refine ⟨by rw [hh, setB_hst]; rfl, ?_, ?_, by rw [hm, setB_mem]; rfl⟩
  · rw [fb_of_reg (reg_of_regs hr _), fb_setB_self _ _ (by decide)]
  · rw [fb_of_reg (reg_of_regs hr _), fb_setB_bit _ (by decide) (by decide), State.fb, State.resetBlockRegs,
      reg_resetRegs _ (by decide) (by decide) (by decide +kernel)]
    decide +kernel

/-- The registers of a link that is up (R430). -/
def State.linkUpRegs (u : State) (speed width : Nat) (bme msix d3 : Bool) : State :=
  (((((u.setB Reg.HST_STATUS 0 true).setF Reg.HST_STATUS 3 1 speed).setF Reg.HST_STATUS 7 4 width).setB Reg.HST_STATUS 8
    bme).setB Reg.HST_STATUS 10 d3).setB Reg.HST_STATUS 11 msix

/-- The link is up (R430). -/
def State.linkUp (u : State) (speed width : Nat) (bme msix mask d3 : Bool) : State :=
  { u.linkUpRegs speed width bme msix d3 with hst := { (u.linkUpRegs speed width bme msix d3).hst with fnMask := mask } }

theorem linkUp_facts (u : State) {speed width : Nat} (hs : speed < 8) (hw : width < 16) (bme msix mask d3 : Bool) :
    (u.linkUp speed width bme msix mask d3).fb Reg.HST_STATUS 0 = true ∧
    (u.linkUp speed width bme msix mask d3).f Reg.HST_STATUS 3 1 = speed ∧
    (u.linkUp speed width bme msix mask d3).f Reg.HST_STATUS 7 4 = width ∧
    (u.linkUp speed width bme msix mask d3).fb Reg.HST_STATUS 8 = bme ∧
    (u.linkUp speed width bme msix mask d3).fb Reg.HST_STATUS 10 = d3 ∧
    (u.linkUp speed width bme msix mask d3).fb Reg.HST_STATUS 11 = msix ∧
    (u.linkUp speed width bme msix mask d3).hst.fnMask = mask ∧ (u.linkUp speed width bme msix mask d3).mem = u.mem ∧
    ∀ a, a ≠ Reg.HST_STATUS → (u.linkUp speed width bme msix mask d3).reg a = u.reg a := by
  have hr (a : Nat) : (u.linkUp speed width bme msix mask d3).reg a = (u.linkUpRegs speed width bme msix d3).reg a := rfl
  refine ⟨?_, ?_, ?_, ?_, ?_, ?_, rfl, ?_, fun a ha => ?_⟩
  · rw [fb_of_reg (hr _), State.linkUpRegs, fb_setB_bit _ (by decide) (by decide), fb_setB_bit _ (by decide) (by decide),
      fb_setB_bit _ (by decide) (by decide), fb_setF_field _ (by decide) (by decide) (by decide),
      fb_setF_field _ (by decide) (by decide) (by decide), fb_setB_self _ _ (by decide)]
  · rw [f_of_reg (hr _), State.linkUpRegs, f_setB_field _ (by decide) (by decide), f_setB_field _ (by decide) (by decide),
      f_setB_field _ (by decide) (by decide), f_setF_field _ _ (by decide) (by decide) (by decide),
      f_setF_self _ _ (by decide) (by decide)]
    exact Nat.mod_eq_of_lt hs
  · rw [f_of_reg (hr _), State.linkUpRegs, f_setB_field _ (by decide) (by decide), f_setB_field _ (by decide) (by decide),
      f_setB_field _ (by decide) (by decide), f_setF_self _ _ (by decide) (by decide)]
    exact Nat.mod_eq_of_lt hw
  · rw [fb_of_reg (hr _), State.linkUpRegs, fb_setB_bit _ (by decide) (by decide), fb_setB_bit _ (by decide) (by decide),
      fb_setB_self _ _ (by decide)]
  · rw [fb_of_reg (hr _), State.linkUpRegs, fb_setB_bit _ (by decide) (by decide), fb_setB_self _ _ (by decide)]
  · rw [fb_of_reg (hr _), State.linkUpRegs, fb_setB_self _ _ (by decide)]
  · change (u.linkUpRegs speed width bme msix d3).mem = u.mem
    rw [State.linkUpRegs, setB_mem, setB_mem, setB_mem, setF_mem, setF_mem, setB_mem]
  · rw [hr, State.linkUpRegs, reg_setB_ne _ ha, reg_setB_ne _ ha, reg_setB_ne _ ha, reg_setF_ne _ ha, reg_setF_ne _ ha,
      reg_setB_ne _ ha]

theorem pcieLinkUp_next (s : State) (t : Tick) (speed : Fin 8) (width : Fin 16) (bme msix mask d3 : Bool) :
    exec (.pcieLinkUp t speed width bme msix mask d3) s =
      if (s.at t).domOn 12 = true ∧ (s.at t).hst.perst = false ∧ (s.at t).fb Reg.HST_CTRL 0 = true then
        .next ((s.at t).linkUp speed width bme msix mask d3) else .next (s.at t) := by
  change execPcieLinkUp t speed width bme msix mask d3 s = _
  unfold execPcieLinkUp
  generalize s.at t = u
  simp only [Bool.and_eq_true, Bool.not_eq_true', and_assoc]
  rfl

theorem perstN_high (s : State) (t : Tick) : ∃ y : State, exec (.perstN t false) s = .next y ∧ y.hst.perst = false ∧
    y.fb Reg.HST_STATUS 9 = false ∧ y.mem = (s.at t).mem := by
  refine ⟨_, rfl, ?_⟩
  generalize s.at t = u
  exact ⟨by rw [setB_hst], fb_setB_self _ _ (by decide) _, setB_mem _ _ _ _⟩

theorem perstN_low (s : State) (t : Tick) : ∃ y : State, exec (.perstN t true) s = .next y ∧ y.hst = { perst := true } ∧
    y.fb Reg.HST_STATUS 9 = true ∧ y.fb Reg.HST_STATUS 0 = false ∧ y.mem = (s.at t).mem := by
  refine ⟨_, rfl, ?_⟩
  generalize s.at t = u
  exact hstReset_facts { u with hst := { u.hst with perst := true } }

theorem linkDown_up {s : State} {t : Tick} (h : (s.at t).domOn 12 = true) (hup : (s.at t).fb Reg.HST_STATUS 0 = true) :
    ∃ y : State, exec (.linkDown t) s = .next y ∧ y.f Reg.HST_STATUS 7 0 = 0 ∧ y.fb Reg.HST_IRQ_STATUS 0 = true ∧
      y.mem = (s.at t).mem := by
  refine ⟨_, (if_pos h).trans (congrArg Host.Outcome.next (if_pos hup)), ?_⟩
  generalize s.at t = u
  obtain ⟨hr, hm, -⟩ := endHostDma_facts (((u.setF Reg.HST_STATUS 7 0 0).setB Reg.HST_IRQ_STATUS 0 true).raise srcHST 0)
  refine ⟨?_, ?_, ?_⟩
  · rw [f_of_reg (reg_of_regs hr _), f_raise, f_setB_ne _ (by decide), f_setF_self _ _ (by decide) (by decide), Nat.zero_mod]
  · rw [fb_of_reg (reg_of_regs hr _), fb_raise, fb_setB_self _ _ (by decide)]
  · rw [hm, raise_mem, setB_mem, setF_mem]

theorem linkDown_down {s : State} {t : Tick} (h : (s.at t).domOn 12 = false ∨ (s.at t).fb Reg.HST_STATUS 0 = false) :
    exec (.linkDown t) s = .next (s.at t) := by
  by_cases hd : (s.at t).domOn 12 = true
  · exact (if_pos hd).trans (congrArg Host.Outcome.next (if_neg (by simpa [hd] using h)))
  · exact if_neg hd

/-- A function-level reset (R435). -/
def State.flrAt (u : State) : State :=
  let s := ((u.setB Reg.HST_STATUS 8 false).setB Reg.HST_STATUS 10 false).setB Reg.HST_STATUS 11 false
  let s : State := { s with hst := { s.hst with fnMask := false, table := [], pending := [] } }
  ((s.setB Reg.HST_IRQ_STATUS 4 true).raise srcHST 3).endHostDma

theorem flrAt_facts (u : State) : u.flrAt.fb Reg.HST_STATUS 8 = false ∧ u.flrAt.fb Reg.HST_STATUS 10 = false ∧
    u.flrAt.fb Reg.HST_STATUS 11 = false ∧ u.flrAt.hst.table = [] ∧ u.flrAt.hst.pending = [] ∧
    u.flrAt.hst.fnMask = false ∧ u.flrAt.fb Reg.HST_IRQ_STATUS 4 = true ∧ u.flrAt.mem = u.mem := by
  rw [State.flrAt]
  dsimp only
  have hm0 : (((u.setB Reg.HST_STATUS 8 false).setB Reg.HST_STATUS 10 false).setB Reg.HST_STATUS 11 false).mem = u.mem := by
    rw [setB_mem, setB_mem, setB_mem]
  have h8 : (((u.setB Reg.HST_STATUS 8 false).setB Reg.HST_STATUS 10 false).setB Reg.HST_STATUS 11 false).fb Reg.HST_STATUS 8 =
      false := by
    rw [fb_setB_bit _ (by decide) (by decide), fb_setB_bit _ (by decide) (by decide), fb_setB_self _ _ (by decide)]
  have h10 : (((u.setB Reg.HST_STATUS 8 false).setB Reg.HST_STATUS 10 false).setB Reg.HST_STATUS 11 false).fb Reg.HST_STATUS 10 =
      false := by
    rw [fb_setB_bit _ (by decide) (by decide), fb_setB_self _ _ (by decide)]
  have h11 : (((u.setB Reg.HST_STATUS 8 false).setB Reg.HST_STATUS 10 false).setB Reg.HST_STATUS 11 false).fb Reg.HST_STATUS 11 =
      false := fb_setB_self _ _ (by decide) _
  generalize ((u.setB Reg.HST_STATUS 8 false).setB Reg.HST_STATUS 10 false).setB Reg.HST_STATUS 11 false = v at hm0 h8 h10 h11 ⊢
  obtain ⟨hr, hm, hh⟩ := endHostDma_facts ((({ v with hst := { v.hst with fnMask := false, table := [], pending := [] } } :
    State).setB Reg.HST_IRQ_STATUS 4 true).raise srcHST 3)
  have hst : ∀ i, _ = v.fb Reg.HST_STATUS i := fun i =>
    (fb_of_reg (reg_of_regs hr Reg.HST_STATUS) i).trans (fb_setB_ne _ (by decide) _ _ _)
  refine ⟨(hst 8).trans h8, (hst 10).trans h10, (hst 11).trans h11, ?_, ?_, ?_, ?_, ?_⟩
  · rw [hh, raise_hst, setB_hst]
  · rw [hh, raise_hst, setB_hst]
  · rw [hh, raise_hst, setB_hst]
  · rw [fb_of_reg (reg_of_regs hr _), fb_raise, fb_setB_self _ _ (by decide)]
  · rw [hm, raise_mem, setB_mem]
    exact hm0

theorem flr_next {s : State} {t : Tick} (h : (s.at t).dlUp = true) : exec (.flr t) s = .next (s.at t).flrAt := by
  change execFlr t s = _
  unfold execFlr State.flrAt
  exact if_pos h

/-! ### Vectors and doorbells -/

/-- The vectors whose condition holds, after that of vector v was evaluated. -/
def State.notedCond (u : State) (v : Nat) : List Nat :=
  if u.vectorCond v && !u.hst.cond.contains v then v :: u.hst.cond
  else if u.hst.cond.contains v && !u.vectorCond v then u.hst.cond.erase v else u.hst.cond

/-- The conditions of the vectors were noted. -/
def State.withCond (u : State) (c : List Nat) : State := { u with hst := { u.hst with cond := c } }

theorem msixVectorSend_next {s : State} {t : Tick} {v : Fin 64} (h : (s.at t).domOn 12 = true) :
    exec (.msixVectorSend t v) s = .next (if ((s.at t).vectorCond v = true ∧ v.val ∉ (s.at t).hst.cond) ∨
      v.val ∈ (s.at t).hst.pending then ((s.at t).withCond ((s.at t).notedCond v)).sendVector v
      else (s.at t).withCond ((s.at t).notedCond v)) := by
  change execMsixVectorSend t v s = _
  unfold execMsixVectorSend
  generalize s.at t = u at *
  rw [if_neg (by simp [h]), apply_ite Host.Outcome.next]
  simp only [Bool.and_eq_true, Bool.or_eq_true, Bool.not_eq_true', List.contains_eq_mem, decide_eq_true_eq,
    decide_eq_false_iff_not, State.notedCond]
  rfl

theorem sendVector_masked {y : State} {v : Nat} (h : y.fb Reg.HST_STATUS 11 = true)
    (hm : y.hst.fnMask = true ∨ (Tab.get {} y.hst.table v).masked = true) : v ∈ (y.sendVector v).hst.pending ∧
    (y.sendVector v).hst.sent = y.hst.sent ∧ (y.sendVector v).regs = y.regs ∧ (y.sendVector v).mem = y.mem := by
  rw [State.sendVector, if_neg (by simp [h]), if_pos (by simpa using hm)]
  refine ⟨?_, rfl, rfl, rfl⟩
  dsimp only
  split
  · next hc => simpa using hc
  · exact List.mem_cons_self

theorem sendVector_sent {y : State} {v : Nat} (h : y.fb Reg.HST_STATUS 11 = true)
    (hm : ¬ (y.hst.fnMask = true ∨ (Tab.get {} y.hst.table v).masked = true)) (hb : y.fb Reg.HST_STATUS 8 = true) :
    (y.sendVector v).hst.sent = v :: y.hst.sent ∧ (y.sendVector v).hst.pending = y.hst.pending.erase v ∧
    (y.sendVector v).regs = y.regs ∧ (y.sendVector v).mem = y.mem := by
  rw [State.sendVector, if_neg (by simp [h]), if_neg (by simpa using hm), if_pos hb]
  exact ⟨rfl, rfl, rfl, rfl⟩

section
variable (u : State) (c : List Nat) {v : Nat}

theorem withCond_facts : (u.withCond c).regs = u.regs ∧ (u.withCond c).mem = u.mem ∧
    (u.withCond c).hst.sent = u.hst.sent ∧ (u.withCond c).hst.pending = u.hst.pending := ⟨rfl, rfl, rfl, rfl⟩

theorem sendNoted_masked (h : u.fb Reg.HST_STATUS 11 = true)
    (hm : u.hst.fnMask = true ∨ (Tab.get {} u.hst.table v).masked = true) :
    v ∈ ((u.withCond c).sendVector v).hst.pending ∧ ((u.withCond c).sendVector v).hst.sent = u.hst.sent ∧
    ((u.withCond c).sendVector v).regs = u.regs ∧ ((u.withCond c).sendVector v).mem = u.mem :=
  sendVector_masked (y := u.withCond c) h hm

theorem sendNoted_sent (h : u.fb Reg.HST_STATUS 11 = true)
    (hm : ¬ (u.hst.fnMask = true ∨ (Tab.get {} u.hst.table v).masked = true)) (hb : u.fb Reg.HST_STATUS 8 = true) :
    ((u.withCond c).sendVector v).hst.sent = v :: u.hst.sent ∧
    ((u.withCond c).sendVector v).hst.pending = u.hst.pending.erase v ∧
    ((u.withCond c).sendVector v).regs = u.regs ∧ ((u.withCond c).sendVector v).mem = u.mem :=
  sendVector_sent (y := u.withCond c) h hm hb

end

theorem fb_eq_getLsbD (s : State) (a i : Nat) : s.fb a i = (s.reg a).getLsbD i := by
  rw [Bool.eq_iff_iff, State.fb, beq_iff_eq, bits_one_iff]

/-- One bit of a write to HST_DB_SET. -/
def State.ringBell (a : Nat) (w : Word) (s : State) (i : Nat) : State := if w.getLsbD i then s.setB a i true else s

theorem dbSet_eq (u : State) (hi : Bool) (w : Word) :
    u.dbSet hi w = (List.range 32).foldl (State.ringBell (if hi then Reg.HST_DB_HI else Reg.HST_DB_LO) w) u := rfl

theorem ringBells_facts (a : Nat) (w : Word) (u : State) (l : List Nat) (hl : ∀ i ∈ l, i < 32) :
    (l.foldl (State.ringBell a w) u).mem = u.mem ∧ (l.foldl (State.ringBell a w) u).hst = u.hst ∧
    (∀ i < 32, (l.foldl (State.ringBell a w) u).fb a i = (u.fb a i || (decide (i ∈ l) && w.getLsbD i))) ∧
    ∀ b, b ≠ a → (l.foldl (State.ringBell a w) u).reg b = u.reg b := by
  induction l generalizing u with
  | nil => exact ⟨rfl, rfl, fun i _ => by simp, fun _ _ => rfl⟩
  | cons j l ih =>
    obtain ⟨hm, hh, hf, hr⟩ := ih (State.ringBell a w u j) fun i hi => hl i (List.mem_cons_of_mem _ hi)
    rw [List.foldl_cons]
    have hj : (State.ringBell a w u j).mem = u.mem ∧ (State.ringBell a w u j).hst = u.hst ∧
        (∀ i < 32, (State.ringBell a w u j).fb a i = (u.fb a i || (decide (i = j) && w.getLsbD i))) ∧
        ∀ b, b ≠ a → (State.ringBell a w u j).reg b = u.reg b := by
      rw [State.ringBell]
      split
      · next hw =>
        refine ⟨setB_mem _ _ _ _, setB_hst _ _ _ _, fun i _ => ?_, fun b hb => reg_setB_ne _ hb _ _⟩
        by_cases hij : i = j
        · subst hij
          rw [fb_setB_self _ _ (hl i List.mem_cons_self)]
          simp [hw]
        · rw [fb_setB_bit _ (hl j List.mem_cons_self) hij]
          simp [hij]
      · next hw =>
        refine ⟨rfl, rfl, fun i _ => ?_, fun _ _ => rfl⟩
        by_cases hij : i = j
        · subst hij
          simp [hw]
        · simp [hij]
    obtain ⟨hjm, hjh, hjf, hjr⟩ := hj
    refine ⟨hm.trans hjm, hh.trans hjh, fun i hi => ?_, fun b hb => (hr b hb).trans (hjr b hb)⟩
    rw [hf i hi, hjf i hi]
    by_cases h1 : i = j <;> by_cases h2 : i ∈ l <;> cases u.fb a i <;> simp [h1, h2]

/-- A write to HST_DB_SET raises the doorbells of its bits (R434). -/
theorem dbSet_facts (u : State) (hi : Bool) (w : Word) :
    (u.dbSet hi w).reg (if hi then Reg.HST_DB_HI else Reg.HST_DB_LO) =
      u.reg (if hi then Reg.HST_DB_HI else Reg.HST_DB_LO) ||| w ∧ (u.dbSet hi w).mem = u.mem ∧ (u.dbSet hi w).hst = u.hst ∧
    ∀ b, b ≠ (if hi then Reg.HST_DB_HI else Reg.HST_DB_LO) → (u.dbSet hi w).reg b = u.reg b := by
  obtain ⟨hm, hh, hf, hr⟩ := ringBells_facts (if hi then Reg.HST_DB_HI else Reg.HST_DB_LO) w u (List.range 32)
    fun i hi => List.mem_range.mp hi
  rw [dbSet_eq]
  refine ⟨BitVec.eq_of_getLsbD_eq fun i h => ?_, hm, hh, hr⟩
  rw [← fb_eq_getLsbD, hf i h, BitVec.getLsbD_or, fb_eq_getLsbD]
  simp [h]

/-- Settles O57: requests by their range, the link by its facts, and MSI-X by the two outcomes of a vector. -/
theorem hostInterface : Obligations.HostInterface := by
  unfold Obligations.HostInterface
  refine ⟨fun s t o data n => ?_, fun s bar2 read o h => hostRefuse_facts s bar2 read h,
    fun s v off data hv hd ho => ho ▸ msixWrite_facts s hv hd, fun s t v speed width bme msix mask d3 hi w => ?_⟩
  · dsimp only
    refine ⟨fun h bar2 => ⟨hostWrite_down h, hostRead_down h⟩, fun h => ⟨hostWrite_bar2 h rfl, hostRead_bar2 h rfl,
      fun hx => ⟨hostWrite_regs h hx rfl, hostRead_regs h hx rfl⟩, fun h1 h2 => ?_, fun h1 h2 => ?_, fun h1 h2 => ?_,
      fun h1 h2 => ⟨?_, ?_⟩⟩⟩
    · rw [hostWrite_above h (by omega), if_pos ⟨h1, h2⟩]
    · rw [hostRead_above h (by omega), if_pos ⟨h1, h2⟩]
    · rw [hostRead_above h (by omega), if_neg (by omega), if_pos ⟨h1, h2⟩]
    · rw [hostWrite_above h (by omega), if_neg (by omega), if_neg (by omega)]
    · rw [hostRead_above h (by omega), if_neg (by omega), if_neg (by omega)]
  · dsimp only
    refine ⟨fun h1 h2 h3 => ?_, fun h => ?_, perstN_high s t, perstN_low s t, linkDown_up, linkDown_down,
      fun h => if_neg (by simp [h]), fun h => ⟨_, flr_next h, flrAt_facts _⟩, fun hon => ⟨fun hr hp => ?_,
      fun hr hen => ⟨fun hm => ?_, fun hm hb => ?_⟩, fun hp => ⟨fun hc => ?_, fun hc => ?_, ?_⟩⟩⟩
    · rw [pcieLinkUp_next, if_pos ⟨h1, h2, h3⟩]
      exact ⟨_, rfl, linkUp_facts _ speed.isLt width.isLt _ _ _ _⟩
    · rw [pcieLinkUp_next, if_neg]
      rintro ⟨h1, h2, h3⟩
      simp [h1, h2, h3] at h
    · rw [msixVectorSend_next hon, if_neg (not_or.mpr ⟨hr, hp⟩)]
      exact ⟨_, rfl, withCond_facts _ _⟩
    · rw [msixVectorSend_next hon, if_pos hr]
      exact ⟨_, rfl, sendNoted_masked _ _ hen hm⟩
    · rw [msixVectorSend_next hon, if_pos hr]
      exact ⟨_, rfl, sendNoted_sent _ _ hen hm hb⟩
    · exact (if_pos (by simp [hon, hp])).trans (congrArg Host.Outcome.next (if_neg (by simp [hc])))
    · exact (if_pos (by simp [hon, hp])).trans (congrArg Host.Outcome.next (if_pos hc))
    · exact ⟨_, if_pos (by simp [hon, hp]), dbSet_facts _ _ _⟩

end Sys2Proof.Machine
end

section
/-! SEC: boot stages, rollback counts, commands, and what a command does as it ends. -/

namespace Sys2Proof.Machine

/-! ### SHA-256 as bytes of eight words -/

/-- Four words lead and four mix. -/
def Sha.four (x : Sha) : Prop := x.lead.length = 4 ∧ x.mix.length = 4

theorem sha_round_four {x : Sha} (h : x.four) (kw : Word) : (x.round kw).four := by
  obtain ⟨h1, h2⟩ := h
  rw [Sha.four, Sha.round]
  simp [h1, h2]

theorem sha_run_four (ks ws : List Word) {x : Sha} (h : x.four) : (Sha.run ks ws x).four := by
  induction ks generalizing ws x with
  | nil => exact h
  | cons k ks ih => exact ih _ (sha_round_four h _)

theorem sha_block_four {x : Sha} (h : x.four) (ws : List Word) : (x.block ws).four := by
  have hr := sha_run_four shaConsts ws h
  rw [Sha.block]
  exact ⟨by simp [h.1, hr.1], by simp [h.2, hr.2]⟩

theorem sha_blocks_four (n : Nat) (bs : List Byte) {x : Sha} (h : x.four) : (Sha.blocks n bs x).four := by
  induction n generalizing bs x with
  | zero => exact h
  | succ n ih => exact ih _ (sha_block_four h _)

theorem shaStart_four : shaStart.four := by
  have h : (shaPrimes.take 8).length = 8 := by decide +kernel
  rw [Sha.four, shaStart]
  simp only [List.length_take, List.length_drop, List.length_map]
  rw [List.length_take] at h
  omega

/-- A hash is eight words, most significant byte first. -/
theorem sha256_words (bs : List Byte) : ∃ ws : List Word, ws.length = 8 ∧ sha256 bs = ws.flatMap fun w => bytesBE 4 w.toNat := by
  obtain ⟨h1, h2⟩ := sha_blocks_four ((shaPad bs).length / 64) (shaPad bs) shaStart_four
  exact ⟨_, by rw [List.length_append, h1, h2], rfl⟩

theorem natLE_bytesLE (n v : Nat) : natLE (bytesLE n v) = v % 256 ^ n := by
  induction n generalizing v with
  | zero => rw [bytesLE, natLE, pow_zero, Nat.mod_one]
  | succ n ih =>
    have h : v % 256 ^ (n + 1) = v % 256 + 256 * (v / 256 % 256 ^ n) := by rw [pow_succ', Nat.mod_mul]
    rw [bytesLE, natLE, ih, BitVec.toNat_ofNat, h]

theorem natBE_bytesBE (w : Word) : BitVec.ofNat 32 (natBE (bytesBE 4 w.toNat)) = w := by
  rw [natBE, bytesBE, List.reverse_reverse, natLE_bytesLE]
  apply BitVec.eq_of_toNat_eq
  rw [BitVec.toNat_ofNat, Nat.mod_eq_of_lt (a := w.toNat) (show w.toNat < 256 ^ 4 from w.isLt), Nat.mod_eq_of_lt w.isLt]

theorem bytesBE_length (n v : Nat) : (bytesBE n v).length = n := by
  rw [bytesBE, List.length_reverse, bytesLE_length]

/-! ### Measurements -/

/-- One word of a measurement register. -/
def State.storeMeas (h : List Byte) (m : Nat) (s : State) (w : Nat) : State :=
  s.setReg (Reg.SEC_MEAS m w) (BitVec.ofNat 32 (natBE ((h.drop (4 * w)).take 4)))

theorem extendMeas_eq (s : State) (m : Nat) (d : List Byte) :
    s.extendMeas m d = (List.range 8).foldl (State.storeMeas (sha256 (s.meas m ++ d)) m) s := rfl

theorem storeMeas_facts (h : List Byte) {m : Nat} (u : State) :
    ((List.range 8).foldl (State.storeMeas h m) u).mem = u.mem ∧ ((List.range 8).foldl (State.storeMeas h m) u).sec = u.sec ∧
    (∀ w < 8, ((List.range 8).foldl (State.storeMeas h m) u).reg (Reg.SEC_MEAS m w) =
      BitVec.ofNat 32 (natBE ((h.drop (4 * w)).take 4))) ∧
    ∀ r, (∀ w < 8, r ≠ Reg.SEC_MEAS m w) → ((List.range 8).foldl (State.storeMeas h m) u).reg r = u.reg r := by
  refine ⟨foldl_invariant (f := State.storeMeas h m) (P := fun a : State => a.mem = u.mem) (fun a w _ ha => ha) rfl,
    foldl_invariant (f := State.storeMeas h m) (P := fun a : State => a.sec = u.sec) (fun a w _ ha => ha) rfl,
    fun w hw => ?_, fun r hr => ?_⟩
  · refine foldl_establish (f := State.storeMeas h m) (P := fun a : State => a.reg (Reg.SEC_MEAS m w) =
      BitVec.ofNat 32 (natBE ((h.drop (4 * w)).take 4))) (fun a v _ ha => ?_) (List.mem_range.mpr hw)
      (fun a => reg_setReg_self _ _ _) u
    by_cases hv : w = v
    · subst hv
      exact reg_setReg_self _ _ _
    · exact (reg_setReg_ne _ (by simp only [Reg.SEC_MEAS]; omega) _).trans ha
  · exact foldl_invariant (f := State.storeMeas h m) (P := fun a : State => a.reg r = u.reg r)
      (fun a w hw ha => (reg_setReg_ne _ (hr w (List.mem_range.mp hw)) _).trans ha) rfl

theorem meas_congr {s u : State} {m : Nat} (h : ∀ w < 8, s.reg (Reg.SEC_MEAS m w) = u.reg (Reg.SEC_MEAS m w)) :
    s.meas m = u.meas m := by
  rw [State.meas, State.meas, List.flatMap_def, List.flatMap_def]
  exact congrArg List.flatten (List.map_congr_left fun w hw => by rw [h w (List.mem_range.mp hw)])

theorem meas_of_words {s : State} {m : Nat} {ws : List Word} (hl : ws.length = 8)
    (h : ∀ w < 8, s.reg (Reg.SEC_MEAS m w) = ws.getD w 0) : s.meas m = ws.flatMap fun w => bytesBE 4 w.toNat := by
  have hws : (List.range 8).map (fun w => s.reg (Reg.SEC_MEAS m w)) = ws := by
    refine List.ext_getElem (by simp [hl]) fun w h1 h2 => ?_
    rw [List.getElem_map, List.getElem_range, h w (by omega), List.getD_eq_getElem _ _ h2]
  rw [State.meas, ← hws, List.flatMap_map]

/-- Extending a measurement register (R459). -/
theorem extendMeas_facts (s : State) (m : Nat) (d : List Byte) :
    (s.extendMeas m d).mem = s.mem ∧ (s.extendMeas m d).sec = s.sec ∧ (s.extendMeas m d).meas m = sha256 (s.meas m ++ d) ∧
    (∀ k, k ≠ m → (s.extendMeas m d).meas k = s.meas k) := by
  obtain ⟨ws, hl, hws⟩ := sha256_words (s.meas m ++ d)
  obtain ⟨hm, hs, hw, hr⟩ := storeMeas_facts (sha256 (s.meas m ++ d)) (m := m) s
  rw [extendMeas_eq]
  refine ⟨hm, hs, (meas_of_words hl fun w h8 => ?_).trans hws.symm, fun k hkm => meas_congr fun w h8 => hr _ fun v hv => ?_⟩
  · rw [hw w h8, hws, flatMap_slice (k := 4) (fun x => bytesBE_length _ _) ws
      (List.getElem?_eq_getElem (show w < ws.length by omega)), natBE_bytesBE,
      List.getD_eq_getElem _ _ (show w < ws.length by omega)]
  · simp only [Reg.SEC_MEAS]
    omega

/-! ### How a command ends, and how it is refused -/

section
variable (s : State) (r : Nat)

/-- A command ends DONE (R462). -/
theorem secDone_facts : s.secDone.f Reg.SEC_CMD_STATUS 1 0 = 2 ∧ s.secDone.f Reg.SEC_CMD_STATUS 7 4 = 0 ∧
    s.secDone.fb Reg.SEC_IRQ_STATUS 1 = true ∧ s.secDone.sec = s.sec ∧ s.secDone.mem = s.mem ∧
    ∀ a, a ≠ Reg.SEC_CMD_STATUS → a ≠ Reg.SEC_IRQ_STATUS → s.secDone.reg a = s.reg a := by
  rw [State.secDone]
  refine ⟨?_, ?_, fb_setB_self _ _ (by decide) _, by rw [setB_sec, setF_sec, setF_sec],
    by rw [setB_mem, setF_mem, setF_mem], fun a h h' => by rw [reg_setB_ne _ h', reg_setF_ne _ h, reg_setF_ne _ h]⟩
  · rw [f_setB_ne _ (by decide), f_setF_field _ _ (by decide) (by decide) (by decide), f_setF_self _ _ (by decide) (by decide)]
    rfl
  · rw [f_setB_ne _ (by decide), f_setF_self _ _ (by decide) (by decide), Nat.zero_mod]

/-- A command is refused (R462). -/
theorem secRefuse_facts {r : Nat} (h : r < 16) : (s.secRefuse r).f Reg.SEC_CMD_STATUS 1 0 = 3 ∧
    (s.secRefuse r).f Reg.SEC_CMD_STATUS 7 4 = r ∧ (s.secRefuse r).sec = s.sec ∧ (s.secRefuse r).mem = s.mem := by
  rw [State.secRefuse]
  refine ⟨?_, ?_, by rw [setB_sec, setF_sec, setF_sec], by rw [setB_mem, setF_mem, setF_mem]⟩
  · rw [f_setB_ne _ (by decide), f_setF_field _ _ (by decide) (by decide) (by decide), f_setF_self _ _ (by decide) (by decide)]
    rfl
  · rw [f_setB_ne _ (by decide), f_setF_self _ _ (by decide) (by decide)]
    exact Nat.mod_eq_of_lt h

end

theorem ite_some_lt {p : Prop} [Decidable p] {n a r : Nat} {e : Option Nat} (ha : a < n) (he : e = some r → r < n)
    (h : (if p then some a else e) = some r) : r < n := by
  split at h
  · cases h
    exact ha
  · exact he h

theorem secRefusal_lt {s : State} {op arg arg2 r : Nat} {data : List Byte} (h : s.secRefusal op arg arg2 data = some r) :
    r < 16 := by
  unfold State.secRefusal at h
  iterate 9 refine ite_some_lt (by decide) (fun h => ?_) h
  cases h

theorem secRefusal_stage {s : State} {op arg arg2 : Nat} {data : List Byte} (h : op ≤ 3 ∨ op = 8) (h1 : 1 ≤ op)
    (hs : 1 < s.stage) : s.secRefusal op arg arg2 data = some 2 := by
  unfold State.secRefusal
  exact if_pos (Or.inl ⟨by omega, hs⟩)

/-- The operand bytes of an operation. -/
def State.secData (u : State) (op : Nat) : List Byte :=
  readBytes u.mem (16 * u.f Reg.SEC_ARG 31 4) (argNeeds op (u.f Reg.SEC_ARG2 15 0) u.sec.otp.lc)

section
variable {u : State} {op : Nat}

/-- An operation is written while another runs. -/
theorem secBegin_busy (h : u.sec.cmd ≠ none) : (u.secBegin op).f Reg.SEC_CMD_STATUS 7 4 = 1 ∧ (u.secBegin op).sec = u.sec ∧
    (u.secBegin op).f Reg.SEC_CMD_STATUS 1 0 = u.f Reg.SEC_CMD_STATUS 1 0 ∧ (u.secBegin op).mem = u.mem := by
  rw [State.secBegin, if_pos (Option.isSome_iff_ne_none.mpr h)]
  refine ⟨?_, by rw [setB_sec, setF_sec], ?_, by rw [setB_mem, setF_mem]⟩
  · rw [f_setB_ne _ (by decide), f_setF_self _ _ (by decide) (by decide)]
    rfl
  · rw [f_setB_ne _ (by decide), f_setF_field _ _ (by decide) (by decide) (by decide)]

theorem ldgEvent_facts (s : State) (e : Nat) : (s.ldgEvent e).sec = s.sec ∧ (s.ldgEvent e).mem = s.mem ∧
    ∀ r ≠ Reg.LDG_IRQ_STATUS, (s.ldgEvent e).reg r = s.reg r :=
  ⟨by rw [State.ldgEvent, raise_sec, setB_sec], by rw [State.ldgEvent, raise_mem, setB_mem],
    fun r h => by rw [State.ldgEvent, reg_raise, reg_setB_ne _ h]⟩

theorem secBegin_refused {r : Nat} (h : u.sec.cmd = none)
    (hr : u.secRefusal op (16 * u.f Reg.SEC_ARG 31 4) (u.f Reg.SEC_ARG2 15 0) (u.secData op) = some r) :
    (u.secBegin op).f Reg.SEC_CMD_STATUS 1 0 = 3 ∧ (u.secBegin op).f Reg.SEC_CMD_STATUS 7 4 = r ∧
    (u.secBegin op).sec = u.sec ∧ (u.secBegin op).mem = u.mem := by
  have hv : u.secBegin op = if (r = rLEDGER_FULL && (u.secRefuse r).meterFull) = true then (u.secRefuse r).ldgEvent 3
      else u.secRefuse r := by
    rw [State.secData] at hr
    rw [State.secBegin, if_neg (by simp [h])]
    dsimp only
    rw [hr]
  obtain ⟨h1, h2, h3, h4⟩ := secRefuse_facts u (secRefusal_lt hr)
  rw [hv]
  split
  · obtain ⟨es, em, er⟩ := ldgEvent_facts (u.secRefuse r) 3
    rw [f_of_reg (er _ (by decide)), f_of_reg (er _ (by decide)), es, em]
    exact ⟨h1, h2, h3, h4⟩
  · exact ⟨h1, h2, h3, h4⟩

/-- A command runs. -/
def State.secRun (u : State) (c : SecCmd) : State :=
  { (u.setF Reg.SEC_CMD_STATUS 1 0 1).setF Reg.SEC_CMD_STATUS 7 4 0 with sec := { u.sec with cmd := some c } }

theorem secRun_facts (c : SecCmd) : (u.secRun c).f Reg.SEC_CMD_STATUS 1 0 = 1 ∧ (u.secRun c).f Reg.SEC_CMD_STATUS 7 4 = 0 ∧
    (u.secRun c).mem = u.mem ∧ (u.secRun c).sec = { u.sec with cmd := some c } := by
  have hr (a : Nat) : (u.secRun c).reg a = ((u.setF Reg.SEC_CMD_STATUS 1 0 1).setF Reg.SEC_CMD_STATUS 7 4 0).reg a := rfl
  refine ⟨?_, ?_, rfl, rfl⟩
  · rw [f_of_reg (hr _), f_setF_field _ _ (by decide) (by decide) (by decide), f_setF_self _ _ (by decide) (by decide)]
    rfl
  · rw [f_of_reg (hr _), f_setF_self _ _ (by decide) (by decide), Nat.zero_mod]

theorem secBegin_taken (h : u.sec.cmd = none)
    (hr : u.secRefusal op (16 * u.f Reg.SEC_ARG 31 4) (u.f Reg.SEC_ARG2 15 0) (u.secData op) = none) :
    u.secBegin op = u.secRun { op := op, arg := 16 * u.f Reg.SEC_ARG 31 4, arg2 := u.f Reg.SEC_ARG2 15 0
                               start := u.clk.tb, data := u.secData op } := by
  rw [State.secData] at hr
  rw [State.secBegin, if_neg (by simp [h])]
  dsimp only
  rw [hr]
  rfl

end

/-! ### The stage, the rollback counts and core 1 -/

section
variable (u : State)

theorem stageNext_of_next {n : Nat} (h : n = u.stage + 1) (h3 : n ≤ 3) : u.stageNext n = u.setF Reg.SEC_BOOT 1 0 n := by
  rw [State.stageNext, if_pos (by simp [h3, ← h])]

theorem stageNext_of_other {n : Nat} (h : n ≠ u.stage + 1) : u.stageNext n = u := by
  rw [State.stageNext, if_neg (by simp [h])]

/-- A rollback count rises by one (R458). -/
theorem rbAdv_facts {n : Nat} (h1 : u.stage ≤ 1) (h64 : u.rbCount n < 64) :
    (u.rbAdv n).rbCount n = u.rbCount n + 1 ∧ (u.rbAdv n).regs = u.regs ∧ (u.rbAdv n).mem = u.mem ∧
    ∀ m, m ≠ n → (u.rbAdv n).rbCount m = u.rbCount m := by
  rw [State.rbAdv, if_pos (by simp [h1, h64])]
  exact ⟨Tab.get_put_self (0 : Nat) n (u.rbCount n + 1) u.sec.otp.rb, rfl, rfl,
    fun m h => Tab.get_put_ne (0 : Nat) h (u.rbCount n + 1) u.sec.otp.rb⟩

theorem rbAdv_refused {n : Nat} (h : 1 < u.stage ∨ 64 ≤ u.rbCount n) : u.rbAdv n = u := by
  rw [State.rbAdv, if_neg]
  simp only [Bool.and_eq_true, decide_eq_true_eq]
  omega

/-- RELEASE1 starts core 1 once (R460). -/
theorem release1_facts : u.release1.fb Reg.SEC_CTRL 8 = true ∧ u.release1.mem = u.mem ∧ u.release1.sec.released = true ∧
    (u.sec.released = true → u.release1.gcores = u.gcores) ∧
    (u.sec.released = false → Tab.get {} u.release1.gcores 1 =
      { running := true, pc := (u.reg Reg.SEC_CORE1_ENTRY).toNat }) := by
  have hb := fb_setB_self u Reg.SEC_CTRL (i := 8) (by decide) true
  by_cases h : u.sec.released = true
  · have hv : u.release1 = u.setB Reg.SEC_CTRL 8 true := by
      rw [State.release1]
      exact if_pos ((congrArg Sec.released (setB_sec u _ _ _)).trans h)
    rw [hv]
    exact ⟨hb, setB_mem _ _ _ _, by rw [setB_sec, h], fun _ => setB_gcores _ _ _ _, fun hf => absurd h (by simp [hf])⟩
  · have hv : u.release1 = { (u.setB Reg.SEC_CTRL 8 true) with sec := { (u.setB Reg.SEC_CTRL 8 true).sec with released := true } }.startCore 1
        ((u.setB Reg.SEC_CTRL 8 true).reg Reg.SEC_CORE1_ENTRY).toNat := by
      rw [State.release1]
      refine if_neg ?_
      rw [setB_sec]
      exact h
    have he := reg_setB_ne u (show Reg.SEC_CORE1_ENTRY ≠ Reg.SEC_CTRL by decide) 8 true
    rw [hv, State.startCore]
    exact ⟨hb, setB_mem _ _ _ _, rfl, fun ht => absurd ht h, fun _ => (Tab.get_put_self _ _ _ _).trans (by rw [he])⟩

end

/-! ### The operations by their rows -/

/-- The row that writes an operation. -/
noncomputable def secRowOf (t : Tick) (op : Nat) (s : State) : Host.Outcome State Fault Refusal :=
  if op = 1 then exec (.keygen t) s else if op = 2 then exec (.fuseOem t) s else if op = 3 then exec (.cert t) s
  else if op = 4 then exec (.extend t) s else if op = 5 then exec (.verify t) s else if op = 6 then exec (.sign t) s
  else if op = 7 then exec (.meter t) s else exec (.lcChange t) s

theorem secRowOf_next {s : State} {t : Tick} (hp : (s.at t).domOn 2 = true) {op : Nat} (h1 : 1 ≤ op) (h8 : op ≤ 8) :
    secRowOf t op s = .next ((s.at t).secBegin op) := by
  have hr : ∀ k, secRow t k s = .next ((s.at t).secBegin k) := fun k => if_pos hp
  interval_cases op
  · exact hr 1
  · exact hr 2
  · exact hr 3
  · exact hr 4
  · exact hr 5
  · exact hr 6
  · exact hr 7
  · exact hr 8

/-! ### The end of a command -/

section
variable (s : State)

theorem secEnd_fuse {c : SecCmd} (h : c.op = 2) :
    s.secEnd c = ({ s with sec := { s.sec with otp := { s.sec.otp with oem := natBE c.data } } } : State).secDone := by
  unfold State.secEnd
  rw [h]
  rfl

theorem secEnd_extend {c : SecCmd} (h : c.op = 4) : s.secEnd c = (s.extendMeas c.arg2 c.data).secDone := by
  unfold State.secEnd
  rw [h]
  rfl

theorem secEnd_verify {c : SecCmd} (h : c.op = 5) : s.secEnd c =
    if ecdsaVerify (keyOf ((c.data.drop 32).take 64)) (natBE (c.data.take 32)) (natBE ((c.data.drop 96).take 32))
      (natBE ((c.data.drop 128).take 32)) = true then s.secDone else s.secRefuse rVERIFY_FAIL := by
  unfold State.secEnd
  rw [h]
  rfl

theorem secEnd_change {c : SecCmd} (h : c.op = 8) : s.secEnd c = s.lcEnd c := by
  unfold State.secEnd
  rw [h]
  rfl

/-- LC_CHANGE from FIELD without a valid token. -/
theorem lcEnd_token {c : SecCmd} (hl : s.sec.otp.lc = 2) (ht : s.tokenOk c.data = false) :
    s.lcEnd c = s.secRefuse 7 := by
  rw [State.lcEnd]
  exact if_pos (by simp [hl, ht])

/-- LC_CHANGE from FIELD while a meter is pending. -/
theorem lcEnd_pending {c : SecCmd} (hl : s.sec.otp.lc = 2) (ht : s.tokenOk c.data = true) (hp : s.meterPending ≠ 0) :
    s.lcEnd c = s.secRefuse 9 := by
  rw [State.lcEnd]
  exact (if_neg (by simp [ht])).trans (if_pos (by simp [hl, hp]))

/-- The measurements and the OTP stay where a command ends DONE. -/
theorem secDone_meas (m : Nat) : s.secDone.meas m = s.meas m :=
  meas_congr fun w _ => (secDone_facts s).2.2.2.2.2 _
    (by simp only [Reg.SEC_MEAS, Reg.SEC_CMD_STATUS]; omega) (by simp only [Reg.SEC_MEAS, Reg.SEC_IRQ_STATUS]; omega)

end

/-- The state in which a command ends. -/
def State.secFree (u : State) : State := { u with sec := { u.sec with cmd := none } }

section
variable {s : State} {t : Tick}

/-- SEC_COMMAND_COMPLETE of a domain that is off (R462). -/
theorem secComplete_off (hp : (s.at t).domOn 2 = false) : exec (.secCommandComplete t) s = .next (s.at t) :=
  if_pos (by simp [hp])

theorem secComplete_idle (hp : (s.at t).domOn 2 = true) (hc : (s.at t).sec.cmd = none) (ht : (s.at t).bkg.tel = none) :
    exec (.secCommandComplete t) s = .next (s.at t) := by
  change execSecCommandComplete t s = _
  unfold execSecCommandComplete
  generalize s.at t = u at *
  simp only [hp, hc, ht, Bool.not_true, Bool.false_eq_true, if_false]

theorem secComplete_end (hp : (s.at t).domOn 2 = true) {c : SecCmd} (hc : (s.at t).sec.cmd = some c) :
    ((((s.at t).secFree).secEnd c).bkg.tel = none → exec (.secCommandComplete t) s = .next (((s.at t).secFree).secEnd c)) ∧
    ∀ snap, (((s.at t).secFree).secEnd c).bkg.tel = some snap →
      exec (.secCommandComplete t) s = .next ((((s.at t).secFree).secEnd c).telSign snap) := by
  have he : exec (.secCommandComplete t) s = execSecCommandComplete t s := rfl
  rw [he]
  unfold execSecCommandComplete
  generalize s.at t = u at *
  simp only [hp, hc, Bool.not_true, Bool.false_eq_true, if_false]
  rw [State.secFree]
  constructor
  · intro ht
    simp only [ht]
  · intro snap ht
    simp only [ht]

end

/-- Settles O58: each row is `secBegin` of its operation, and a hash is eight words, so that the eight measurement words
hold all of it. -/
theorem security : Obligations.Security := by
  refine ⟨fun s t w n hp => ⟨fun h => ?_, fun h => ?_, fun h1 h64 => ⟨_, if_pos hp, rbAdv_facts _ h1 h64⟩,
    fun h => ?_, ⟨_, if_pos hp, release1_facts _⟩, fun op h1 h8 => ?_⟩, fun s t => ⟨secComplete_off, fun hp =>
      ⟨secComplete_idle hp, fun c hc => secComplete_end hp hc⟩⟩, fun s c => ⟨fun h => ?_, fun h _ => ?_, fun h => ?_,
    fun h hl ht => ?_, fun h hl ht hm => ?_⟩⟩
  · exact (if_pos hp).trans (congrArg _ (stageNext_of_next _ h (Nat.le_of_lt_succ (bits_lt w 1 0))))
  · exact (if_pos hp).trans (congrArg _ (stageNext_of_other _ h))
  · exact (if_pos hp).trans (congrArg _ (rbAdv_refused _ h))
  · have hr := secRowOf_next hp h1 h8
    refine ⟨fun hc => ⟨_, hr, secBegin_busy hc⟩, fun hc r hs => ⟨_, hr, secBegin_refused hc hs⟩, fun hc hs => ⟨_, hr, ?_⟩,
      fun hop hst => secRefusal_stage hop h1 hst⟩
    rw [secBegin_taken hc hs]
    exact secRun_facts _
  · rw [secEnd_fuse _ h]
    obtain ⟨h1, h2, h3, hs, hm, -⟩ := secDone_facts { s with sec := { s.sec with otp := { s.sec.otp with oem := natBE c.data } } }
    exact ⟨⟨h1, h2, h3⟩, by rw [hs], hm⟩
  · rw [secEnd_extend _ h]
    obtain ⟨h1, h2, h3, -, hm, -⟩ := secDone_facts (s.extendMeas c.arg2 c.data)
    obtain ⟨em, -, ex, eo⟩ := extendMeas_facts s c.arg2 c.data
    exact ⟨⟨h1, h2, h3⟩, (secDone_meas _ _).trans ex, hm.trans em, fun m _ hmc => (secDone_meas _ _).trans (eo m hmc)⟩
  · rw [secEnd_verify _ h]
    obtain ⟨h1, h2, h3, -, hm, -⟩ := secDone_facts s
    obtain ⟨r1, r2, rs, rm⟩ := secRefuse_facts s (show rVERIFY_FAIL < 16 by decide)
    refine ⟨fun ok => ?_, fun ok => ?_, ?_⟩
    · rw [if_pos ok]
      exact ⟨h1, h2, h3⟩
    · rw [if_neg (Bool.eq_false_iff.mp ok)]
      exact ⟨r1, r2, rs⟩
    · split
      · exact hm
      · exact rm
  · obtain ⟨r1, r2, rs, rm⟩ := secRefuse_facts s (show 7 < 16 by decide)
    rw [secEnd_change _ h, lcEnd_token _ hl ht]
    exact ⟨⟨r1, r2, rs⟩, rm⟩
  · obtain ⟨r1, r2, rs, rm⟩ := secRefuse_facts s (show 9 < 16 by decide)
    rw [secEnd_change _ h, lcEnd_pending _ hl ht hm]
    exact ⟨⟨r1, r2, rs⟩, rm⟩

end Sys2Proof.Machine
end

section
/-! The Ledger: the order of its requests, the bytes and places of its records, retired sectors, appends and units. -/

namespace Sys2Proof.Machine

/-! ### The order of the requests (R477) -/

theorem reqBefore_iff (a b : LdgReq) : a.before b = true ↔
    a.cls < b.cls ∨ a.cls = b.cls ∧ (a.time < b.time ∨ a.time = b.time ∧ a.kind < b.kind) := by
  simp only [LdgReq.before, Bool.or_eq_true, Bool.and_eq_true, beq_iff_eq, decide_eq_true_eq]

theorem reqBefore_eq_false_iff (a b : LdgReq) : a.before b = false ↔
    b.cls < a.cls ∨ b.cls = a.cls ∧ (b.time < a.time ∨ b.time = a.time ∧ b.kind ≤ a.kind) := by
  have h : ∀ c c' t t' k k' : Nat, ¬ (c < c' ∨ c = c' ∧ (t < t' ∨ t = t' ∧ k < k')) ↔
      c' < c ∨ c' = c ∧ (t' < t ∨ t' = t ∧ k' ≤ k) := by omega
  rw [Bool.eq_false_iff, ne_eq, reqBefore_iff]
  exact h a.cls b.cls a.time b.time a.kind b.kind

theorem reqBefore_irrefl (a : LdgReq) : a.before a = false :=
  (reqBefore_eq_false_iff a a).mpr (.inr ⟨rfl, .inr ⟨rfl, Nat.le_refl _⟩⟩)

theorem not_reqBefore_of_reqBefore {a b : LdgReq} (h : a.before b = true) : b.before a = false := by
  rw [reqBefore_eq_false_iff]
  rcases (reqBefore_iff a b).mp h with h | ⟨h, h' | ⟨h', h''⟩⟩
  · exact .inl h
  · exact .inr ⟨h, .inl h'⟩
  · exact .inr ⟨h, .inr ⟨h', Nat.le_of_lt h''⟩⟩

theorem not_reqBefore_trans {a b c : LdgReq} (h : a.before b = false) (h' : b.before c = false) : a.before c = false := by
  rw [reqBefore_eq_false_iff] at *
  rcases h with h | ⟨h, ht | ⟨ht, hk⟩⟩ <;> rcases h' with h' | ⟨h', ht' | ⟨ht', hk'⟩⟩
  · exact .inl (Nat.lt_trans h' h)
  · exact .inl (h' ▸ h)
  · exact .inl (h' ▸ h)
  · exact .inl (h ▸ h')
  · exact .inr ⟨h'.trans h, .inl (Nat.lt_trans ht' ht)⟩
  · exact .inr ⟨h'.trans h, .inl (ht' ▸ ht)⟩
  · exact .inl (h ▸ h')
  · exact .inr ⟨h'.trans h, .inl (ht ▸ ht')⟩
  · exact .inr ⟨h'.trans h, .inr ⟨ht'.trans ht, Nat.le_trans hk' hk⟩⟩

/-- The request that is taken next is one of them, and none is taken before it (R477). -/
theorem nextReq_least (rs : List LdgReq) {r : LdgReq} (h : nextReq rs = some r) : r ∈ rs ∧ ∀ q ∈ rs, q.before r = false := by
  induction rs generalizing r with
  | nil => cases h
  | cons x rs ih =>
    rw [nextReq] at h
    cases hq : nextReq rs with
    | none =>
      rw [hq] at h
      cases h
      cases rs with
      | nil => exact ⟨List.mem_singleton_self _, fun q hm => List.mem_singleton.mp hm ▸ reqBefore_irrefl _⟩
      | cons y ys =>
        rw [nextReq] at hq
        cases hy : nextReq ys with
        | none => rw [hy] at hq; cases hq
        | some z => rw [hy] at hq; dsimp only at hq; split at hq <;> cases hq
    | some q =>
      obtain ⟨hm, hl⟩ := ih hq
      rw [hq] at h
      by_cases hb : q.before x = true
      · have hr : r = q := (Option.some.inj ((if_pos hb).symm.trans h)).symm
        subst hr
        exact ⟨List.mem_cons_of_mem _ hm, fun p hp => (List.mem_cons.mp hp).elim (fun e => e ▸ not_reqBefore_of_reqBefore hb) (hl p)⟩
      · have hr : r = x := (Option.some.inj ((if_neg hb).symm.trans h)).symm
        subst hr
        exact ⟨List.mem_cons_self, fun p hp => (List.mem_cons.mp hp).elim (fun e => e ▸ reqBefore_irrefl _)
          fun hp => not_reqBefore_trans (hl p hp) (Bool.eq_false_iff.mpr hb)⟩

/-! ### The bytes of a record (R475) -/

theorem sliceLE_append (bs : List Byte) (n v : Nat) : sliceLE (bs ++ bytesLE n v) bs.length n = v % 256 ^ n := by
  rw [sliceLE, List.drop_left, List.take_of_length_le (le_of_eq (bytesLE_length n v)), natLE_bytesLE]

/-- The header of a record. -/
def LdgReq.header (r : LdgReq) : List Byte :=
  bytesLE 1 r.kind ++ bytesLE 1 r.units ++ bytesLE 2 0 ++ bytesLE 4 r.seq ++ bytesLE 8 r.time

theorem reqHeader_length (r : LdgReq) : r.header.length = 16 := by
  simp only [LdgReq.header, List.length_append, bytesLE_length]

/-- A record but for its CRC. -/
def LdgReq.padded (r : LdgReq) : List Byte :=
  (r.header ++ r.body) ++ List.replicate (32 * r.units - 4 - (r.header ++ r.body).length) 0

theorem bytes_eq {r : LdgReq} (h : r.kind < 0x100) : r.bytes = r.padded ++ bytesLE 4 (crc32 r.padded) :=
  if_neg (Nat.not_le.mpr h)

theorem bytes_fold {r : LdgReq} (h : 0x100 ≤ r.kind) : r.bytes = r.body := if_pos h

theorem padded_length {r : LdgReq} (h : 20 + r.body.length ≤ 32 * r.units) : r.padded.length = 32 * r.units - 4 := by
  rw [LdgReq.padded, List.length_append, List.length_replicate, List.length_append, reqHeader_length]
  omega

/-- A record fills its units, with its CRC in the last word. -/
theorem record_layout {r : LdgReq} (hk : r.kind < 0x100) (h : 20 + r.body.length ≤ 32 * r.units) :
    r.bytes.length = 32 * r.units ∧ (r.bytes.drop 16).take r.body.length = r.body ∧
    sliceLE r.bytes (32 * r.units - 4) 4 = crc32 (r.bytes.take (32 * r.units - 4)) % 2 ^ 32 := by
  have hl := padded_length h
  rw [bytes_eq hk]
  refine ⟨by rw [List.length_append, hl, bytesLE_length]; omega, ?_, ?_⟩
  · rw [LdgReq.padded, List.append_assoc, List.append_assoc, ← reqHeader_length r, List.drop_left, List.take_left]
  · rw [← hl, sliceLE_append, List.take_left]
    rfl

/-! ### Places and retired sectors (R476, R480) -/

section
variable (s : State) (r : LdgReq)

theorem ldgPlace_full (hr : (ldgRegion (kindRegion r.kind)).ring = false)
    (h : (ldgRegion (kindRegion r.kind)).units < s.ldgHead (kindRegion r.kind) + r.units) : s.ldgPlace r = none := by
  rw [State.ldgPlace]
  exact if_pos (by simp only [hr, Bool.not_false, Bool.true_and, decide_eq_true_eq]; exact h)

/-- The unit after a record in its region. -/
def State.ldgAfter (s : State) (r : LdgReq) : Nat :=
  if (ldgRegion (kindRegion r.kind)).ring then
    (s.ldgHead (kindRegion r.kind) + r.units) % (ldgRegion (kindRegion r.kind)).units
  else s.ldgHead (kindRegion r.kind) + r.units

/-- A record takes its region's next units. -/
def State.ldgPlaced (s : State) (r : LdgReq) : State :=
  { s.setF (Reg.LDG_HEAD (kindRegion r.kind)) 15 0 (s.ldgAfter r) with
    ldg := { s.ldg with seq := Tab.put 0 s.ldg.seq (kindRegion r.kind) (Tab.get 0 s.ldg.seq (kindRegion r.kind) + 1) } }

theorem ldgPlace_fits (h : (ldgRegion (kindRegion r.kind)).ring = true ∨
      s.ldgHead (kindRegion r.kind) + r.units ≤ (ldgRegion (kindRegion r.kind)).units) :
    s.ldgPlace r = some ({ r with base := some (s.ldgHead (kindRegion r.kind)), seq := Tab.get 0 s.ldg.seq (kindRegion r.kind) },
      s.ldgPlaced r) := by
  rw [State.ldgPlace]
  refine (if_neg ?_).trans rfl
  simp only [Bool.and_eq_true, Bool.not_eq_true', decide_eq_true_eq, not_and, Nat.not_lt]
  exact fun hf => h.resolve_left (by simp [hf])

theorem ldgPlaced_facts : (s.ldgPlaced r).mem = s.mem ∧
    (s.ldgPlaced r).ldgHead (kindRegion r.kind) = s.ldgAfter r % 65536 ∧
    Tab.get 0 (s.ldgPlaced r).ldg.seq (kindRegion r.kind) = Tab.get 0 s.ldg.seq (kindRegion r.kind) + 1 := by
  have hr : (s.ldgPlaced r).regs = (s.setF (Reg.LDG_HEAD (kindRegion r.kind)) 15 0 (s.ldgAfter r)).regs := rfl
  have hs : (s.ldgPlaced r).ldg.seq =
    Tab.put 0 s.ldg.seq (kindRegion r.kind) (Tab.get 0 s.ldg.seq (kindRegion r.kind) + 1) := rfl
  have hm : (s.ldgPlaced r).mem = s.mem := rfl
  refine ⟨hm, ?_, ?_⟩
  · rw [State.ldgHead, f_of_regs hr, f_setF_self _ _ (by decide) (by decide)]
    rfl
  · rw [hs, Tab.get_put_self]

/-- What a lost record leaves. -/
theorem ldgRecord_ldg (cls kind units : Nat) (body : List Byte) :
    (s.ldgRecord cls kind units body).ldg.map = s.ldg.map ∧ (s.ldgRecord cls kind units body).ldg.reserve = s.ldg.reserve ∧
    (s.ldgRecord cls kind units body).mem = s.mem ∧
    ∀ a, a ≠ Reg.LDG_CNT → a ≠ Reg.LDG_IRQ_STATUS → (s.ldgRecord cls kind units body).reg a = s.reg a := by
  rw [State.ldgRecord]
  split
  · rw [State.ldgLost]
    exact ⟨by rw [raise_ldg, setB_ldg, incSat_ldg], by rw [raise_ldg, setB_ldg, incSat_ldg],
      by rw [raise_mem, setB_mem, incSat_mem], fun a h h' => by rw [reg_raise, reg_setB_ne _ h', reg_incSat_ne _ h]⟩
  · rw [State.ldgQueue]
    cases s.ldg.cur with
    | none => exact ⟨rfl, rfl, rfl, fun _ _ _ => rfl⟩
    | some _ => exact ⟨rfl, rfl, rfl, fun _ _ _ => rfl⟩

/-- A logical sector moves to a reserve sector. -/
def State.ldgMapped (s : State) (l q : Nat) : State :=
  { s.takeFresh.2 with ldg := { s.ldg with map := Tab.put none s.ldg.map l (some q), reserve := s.ldg.reserve.erase q } }

/-- The retirement is recorded. -/
def State.ldgRetired (s : State) (l q : Nat) : State :=
  ((s.ldgMapped l q).setF Reg.LDG_STATUS 15 8 (s.ldg.reserve.erase q).length).ldgRecord 2 0x17 1
    (bytesLE 2 (s.ldgPhys l) ++ bytesLE 2 q)

theorem ldgRetire_eq {l q : Nat} (h : s.ldgSpare = some q) :
    s.ldgRetire l = if (s.ldg.reserve.erase q).length ≤ 16 then (s.ldgRetired l q).ldgEvent 1 else s.ldgRetired l q := by
  unfold State.ldgRetire
  rw [h]
  rfl

theorem ldgRetired_facts (l q : Nat) : (s.ldgRetired l q).ldgPhys l = q ∧
    (s.ldgRetired l q).ldg.reserve = s.ldg.reserve.erase q ∧ (s.ldgRetired l q).mem = s.mem ∧
    (s.ldgRetired l q).f Reg.LDG_STATUS 15 8 = (s.ldg.reserve.erase q).length % 256 := by
  obtain ⟨hm, hr, hmem, hreg⟩ := ldgRecord_ldg ((s.ldgMapped l q).setF Reg.LDG_STATUS 15 8 (s.ldg.reserve.erase q).length)
    2 0x17 1 (bytesLE 2 (s.ldgPhys l) ++ bytesLE 2 q)
  rw [← State.ldgRetired] at hm hr hmem hreg
  rw [setF_ldg] at hm hr
  refine ⟨?_, hr, hmem.trans (setF_mem _ _ _ _ _), ?_⟩
  · rw [State.ldgPhys, hm, State.ldgMapped]
    exact congrArg (Option.getD · l) (Tab.get_put_self (none : Option Nat) l (some q) s.ldg.map)
  · rw [f_of_reg (hreg _ (by decide) (by decide)), f_setF_self _ _ (by decide) (by decide)]
    rfl

theorem ldgEvent_ldg (e : Nat) : (s.ldgEvent e).ldg = s.ldg := by
  rw [State.ldgEvent, raise_ldg, setB_ldg]

theorem ldgRetire_facts {l q : Nat} (h : s.ldgSpare = some q) (hq : q ∈ s.ldg.reserve) :
    (s.ldgRetire l).ldgPhys l = q ∧ (s.ldgRetire l).ldg.reserve = s.ldg.reserve.erase q ∧ (s.ldgRetire l).mem = s.mem ∧
    (s.ldgRetire l).f Reg.LDG_STATUS 15 8 = (s.ldg.reserve.length - 1) % 256 := by
  obtain ⟨hp, hr, hm, hf⟩ := ldgRetired_facts s l q
  rw [← List.length_erase_of_mem hq, ldgRetire_eq s h]
  split
  · obtain ⟨-, em, er⟩ := ldgEvent_facts (s.ldgRetired l q) 1
    exact ⟨by rw [State.ldgPhys, ldgEvent_ldg, ← State.ldgPhys, hp], by rw [ldgEvent_ldg, hr], em.trans hm,
      (f_of_reg (er _ (by decide)) _ _).trans hf⟩
  · exact ⟨hp, hr, hm, hf⟩

end

/-! ### Appends (R478) -/

section
variable (u : State) (kind : Nat)

theorem ldgApp_refused (h : u.appPending = true ∨ kind < 0x40 ∨ 0x7F < kind ∨ u.fb Reg.LDG_STATUS 2 = true) :
    u.ldgApp kind = u.setF Reg.LDG_APP_STATUS 1 0 3 := by
  rw [State.ldgApp]
  refine if_pos ?_
  simp only [Bool.or_eq_true, decide_eq_true_eq]
  tauto

/-- The body of an append. -/
def State.appBody (u : State) : List Byte :=
  (List.range 3).flatMap fun w => bytesLE 4 (u.reg (Reg.LDG_APP_BODY w)).toNat

theorem ldgApp_taken (h : u.appPending = false) (hk : 0x40 ≤ kind) (hk' : kind ≤ 0x7F) (hs : u.fb Reg.LDG_STATUS 2 = false) :
    u.ldgApp kind = (u.setF Reg.LDG_APP_STATUS 1 0 1).ldgQueue
      { cls := 5, kind := kind, units := 1, time := (u.setF Reg.LDG_APP_STATUS 1 0 1).now, body := u.appBody } := by
  have hv : u.ldgApp kind = (u.setF Reg.LDG_APP_STATUS 1 0 1).ldgRecord 5 kind 1 u.appBody := by
    rw [State.ldgApp]
    refine if_neg ?_
    simp only [h, hs, Bool.or_eq_true, decide_eq_true_eq, Bool.false_eq_true, false_or, or_false, not_or, Nat.not_lt]
    exact ⟨hk, hk'⟩
  rw [hv, State.ldgRecord]
  refine if_neg ?_
  rw [fb_setF_ne _ (by decide), hs]
  simp

theorem mem_ldgWaiting_ldgQueue (r : LdgReq) : r ∈ (u.ldgQueue r).ldgWaiting := by
  rw [State.ldgQueue]
  cases hc : u.ldg.cur with
  | none => exact List.mem_append_left _ (List.mem_singleton_self r)
  | some _ => exact List.mem_append_right _ (List.mem_append_right _ (List.mem_singleton_self r))

theorem ldgApp_taken_facts (h : u.appPending = false) (hk : 0x40 ≤ kind) (hk' : kind ≤ 0x7F)
    (hs : u.fb Reg.LDG_STATUS 2 = false) : (u.ldgApp kind).f Reg.LDG_APP_STATUS 1 0 = 1 ∧ (u.ldgApp kind).appPending = true ∧
    (u.ldgApp kind).mem = u.mem ∧
    ∃ r ∈ (u.ldgApp kind).ldgWaiting, r.cls = 5 ∧ r.kind = kind ∧ r.units = 1 ∧ r.time = u.now ∧ r.body = u.appBody := by
  rw [ldgApp_taken u kind h hk hk' hs]
  have hin := mem_ldgWaiting_ldgQueue (u.setF Reg.LDG_APP_STATUS 1 0 1)
    { cls := 5, kind := kind, units := 1, time := (u.setF Reg.LDG_APP_STATUS 1 0 1).now, body := u.appBody }
  obtain ⟨hr, hm, -⟩ := ldgQueue_kept (s := u.setF Reg.LDG_APP_STATUS 1 0 1)
    { cls := 5, kind := kind, units := 1, time := (u.setF Reg.LDG_APP_STATUS 1 0 1).now, body := u.appBody }
  refine ⟨?_, List.any_eq_true.mpr ⟨_, hin, rfl⟩, hm.trans (setF_mem _ _ _ _ _), _, hin, rfl, rfl, rfl, ?_, rfl⟩
  · rw [f_of_regs hr, f_setF_self _ _ (by decide) (by decide)]
    rfl
  · change (u.setF Reg.LDG_APP_STATUS 1 0 1).now = u.now
    rw [State.now, setF_clk, State.now]

end

/-! ### Units (R477, R480) -/

section
variable (u : State) (first second : Bool)

theorem ldgUnit_idle (h : u.ldg.cur = none) : u.ldgUnit first second = u := by
  unfold State.ldgUnit
  rw [h]

/-- The address of the next unit of a record. -/
def LdgReq.nextUnit (r : LdgReq) (b : Nat) : Nat :=
  (b + r.done) % (if (ldgRegion (kindRegion r.kind)).ring then (ldgRegion (kindRegion r.kind)).units
    else (ldgRegion (kindRegion r.kind)).units + 1)

/-- A unit is written and verified. -/
def State.ldgWritten (u : State) (r : LdgReq) (b : Nat) (first second : Bool) : State :=
  (u.storeBytes (unitAddr (kindRegion r.kind) (r.nextUnit b)) ((r.bytes.drop (32 * r.done)).take 32)).ldgVerify
    ((ldgRegion (kindRegion r.kind)).sector + r.nextUnit b / 128) first second

theorem ldgUnit_record {r : LdgReq} {b : Nat} (h : u.ldg.cur = some r) (hs : u.fb Reg.LDG_STATUS 2 = false) (hk : r.kind ≠ 0)
    (hb : r.base = some b) : u.ldgUnit first second = if r.done + 1 < r.units then
      { u.ldgWritten r b first second with ldg := { (u.ldgWritten r b first second).ldg with
        queue := { r with done := r.done + 1 } :: (u.ldgWritten r b first second).ldg.queue } }.ldgNext
      else ((u.ldgWritten r b first second).ldgEnded { r with done := r.done + 1 }).ldgNext := by
  unfold State.ldgUnit State.ldgWritten LdgReq.nextUnit
  rw [h]
  simp only [hs, hk, hb, Bool.false_eq_true, if_false, Option.getD_some]

end

/-- Settles O59: `nextReq` keeps the least of the requests in a strict order, a record's CRC stands after what fills its
units, and an append is one queued request. -/
theorem ledger : Obligations.Ledger := by
  refine ⟨fun rs r h => nextReq_least rs h, fun r h => bytes_fold h, fun r hk h => record_layout hk h,
    fun s r => ⟨fun hr h => ldgPlace_full s r hr h, fun h => ⟨_, ldgPlace_fits s r h, ldgPlaced_facts s r⟩⟩,
    fun s l q h _ _ hq => ldgRetire_facts s h hq, fun s t w first second hp => ⟨fun h => ?_, fun h hk hk' hs => ?_,
      fun h => ?_, fun r b h hs hk hb => ?_⟩⟩
  · exact (if_pos hp).trans (congrArg _ (ldgApp_refused _ _ h))
  · exact ⟨_, if_pos hp, ldgApp_taken_facts _ _ h hk hk' hs⟩
  · exact (if_pos hp).trans (congrArg _ (ldgUnit_idle _ _ _ h))
  · exact (if_pos hp).trans (congrArg _ (ldgUnit_record _ _ _ h hs hk hb))

end Sys2Proof.Machine
end

section
/-! Background services: the SRAM and DRAM scrubs, the wipe of DRAM, wear folds and telemetry. -/

namespace Sys2Proof.Machine

/-! ### The SRAM scrub (R482) -/

section
variable (s : State)

theorem bkgEvent_facts (e : Nat) : (s.bkgEvent e).mem = s.mem ∧ (s.bkgEvent e).poison = s.poison ∧
    (s.bkgEvent e).ldg = s.ldg ∧ (s.bkgEvent e).bkg = s.bkg ∧ ∀ r ≠ Reg.BKG_IRQ_STATUS, (s.bkgEvent e).reg r = s.reg r := by
  rw [State.bkgEvent]
  exact ⟨by rw [raise_mem, setB_mem], by rw [raise_poison, setB_poison], by rw [raise_ldg, setB_ldg],
    by rw [raise_bkg, setB_bkg], fun r h => by rw [reg_raise, reg_setB_ne _ h]⟩

theorem fb_bkgEvent_self {e : Nat} (h : e < 32) : (s.bkgEvent e).fb Reg.BKG_IRQ_STATUS e = true := by
  rw [State.bkgEvent, fb_raise, fb_setB_self _ _ h]

theorem fb_bkgEvent_bit {e i : Nat} (h : e < 32) (h' : i ≠ e) :
    (s.bkgEvent e).fb Reg.BKG_IRQ_STATUS i = s.fb Reg.BKG_IRQ_STATUS i := by
  rw [State.bkgEvent, fb_raise, fb_setB_bit _ h h']

theorem ldgRecord_repaired (cls kind units : Nat) (body : List Byte) :
    (s.ldgRecord cls kind units body).poison = s.poison ∧
    (s.ldgRecord cls kind units body).ldg.repaired = s.ldg.repaired := by
  rw [State.ldgRecord]
  split
  · rw [State.ldgLost]
    exact ⟨by rw [raise_poison, setB_poison, incSat_poison], by rw [raise_ldg, setB_ldg, incSat_ldg]⟩
  · rw [State.ldgQueue]
    cases s.ldg.cur with
    | none => exact ⟨rfl, rfl⟩
    | some _ => exact ⟨rfl, rfl⟩

/-- What the repair of a row leaves. -/
structure RepairKept (s v : State) : Prop where
  mem : v.mem = s.mem
  poison : v.poison = s.poison
  reg : ∀ a, a ≠ Reg.LDG_CNT → a ≠ Reg.LDG_IRQ_STATUS → a ≠ Reg.BKG_IRQ_STATUS → v.reg a = s.reg a
  uncor : v.fb Reg.BKG_IRQ_STATUS 0 = s.fb Reg.BKG_IRQ_STATUS 0

/-- A row takes a repair row. -/
def State.rowTaken (s : State) (row : Nat) : State :=
  { s with ldg := { s.ldg with repaired := s.ldg.repaired ++ [row] } }.ldgRecord 2 0x16 1
    (bytesLE 4 (1024 * row) ++ bytesLE 2 s.ldg.repaired.length)

theorem rowTaken_kept (row : Nat) : RepairKept s (s.rowTaken row) ∧ row ∈ (s.rowTaken row).ldg.repaired := by
  obtain ⟨-, -, hm, hr⟩ := ldgRecord_ldg { s with ldg := { s.ldg with repaired := s.ldg.repaired ++ [row] } } 2 0x16 1
    (bytesLE 4 (1024 * row) ++ bytesLE 2 s.ldg.repaired.length)
  obtain ⟨hp, hl⟩ := ldgRecord_repaired { s with ldg := { s.ldg with repaired := s.ldg.repaired ++ [row] } } 2 0x16 1
    (bytesLE 4 (1024 * row) ++ bytesLE 2 s.ldg.repaired.length)
  rw [← State.rowTaken] at hm hr hp hl
  refine ⟨⟨hm, hp, fun a h1 h2 _ => hr a h1 h2, fb_of_reg (hr _ (by decide) (by decide)) _⟩, ?_⟩
  rw [hl]
  exact List.mem_append_right _ (List.mem_singleton_self row)

theorem bkgEvent_kept {u v : State} (h : RepairKept u v) {e : Nat} (he : e < 32) (h0 : 0 ≠ e) : RepairKept u (v.bkgEvent e) := by
  obtain ⟨em, ep, -, -, er⟩ := bkgEvent_facts v e
  exact ⟨em.trans h.mem, ep.trans h.poison, fun a h1 h2 h3 => (er a h3).trans (h.reg a h1 h2 h3),
    (fb_bkgEvent_bit v he h0).trans h.uncor⟩

theorem repairRow_facts (row : Nat) : RepairKept s (s.repairRow row) ∧
    (s.repairFree ≠ 0 → row ∈ (s.repairRow row).ldg.repaired) := by
  have hs : RepairKept s s := ⟨rfl, rfl, fun _ _ _ _ => rfl, rfl⟩
  by_cases hc : s.ldg.repaired.contains row = true
  · have hv : s.repairRow row = s := by
      rw [State.repairRow]
      exact if_pos hc
    rw [hv]
    exact ⟨hs, fun _ => List.contains_iff_mem.mp hc⟩
  · by_cases hf : s.repairFree = 0
    · have hv : s.repairRow row = s.bkgEvent 2 := by
        rw [State.repairRow]
        exact (if_neg hc).trans (if_pos hf)
      rw [hv]
      exact ⟨bkgEvent_kept hs (by decide) (by decide), fun h => absurd hf h⟩
    · have hv : s.repairRow row = (s.rowTaken row).bkgEvent 1 := by
        rw [State.repairRow]
        exact (if_neg hc).trans (if_neg hf)
      obtain ⟨hk, hm⟩ := rowTaken_kept s row
      rw [hv]
      exact ⟨bkgEvent_kept hk (by decide) (by decide), fun _ => by rw [(bkgEvent_facts _ 1).2.2.1]; exact hm⟩

/-- An uncorrectable error is counted and located. -/
def State.uncorSeen (s : State) (a : Nat) : State :=
  (({ s with poison := if s.poison.contains a then s.poison else a :: s.poison }.setReg Reg.BKG_UNCOR_ADDR
    (BitVec.ofNat 32 a)).incSat Reg.BKG_SRAM_CNT 31 16).bkgEvent 0

theorem scrubUncor_facts (a : BitVec 32) : a.toNat ∈ (s.scrubUncor a.toNat).poison ∧
    (s.scrubUncor a.toNat).reg Reg.BKG_UNCOR_ADDR = a ∧ (s.scrubUncor a.toNat).mem = s.mem ∧
    (s.scrubUncor a.toNat).f Reg.BKG_SRAM_CNT 31 16 = min 65535 (s.f Reg.BKG_SRAM_CNT 31 16 + 1) ∧
    (s.scrubUncor a.toNat).fb Reg.BKG_IRQ_STATUS 0 = true ∧
    (s.repairFree ≠ 0 → a.toNat / 1024 ∈ (s.scrubUncor a.toNat).ldg.repaired) := by
  have hv : s.scrubUncor a.toNat = (s.uncorSeen a.toNat).repairRow (a.toNat / 1024) := rfl
  obtain ⟨hk, hf⟩ := repairRow_facts (s.uncorSeen a.toNat) (a.toNat / 1024)
  rw [← hv] at hk hf
  obtain ⟨em, ep, el, -, er⟩ := bkgEvent_facts (({ s with poison := if s.poison.contains a.toNat then s.poison
    else a.toNat :: s.poison }.setReg Reg.BKG_UNCOR_ADDR (BitVec.ofNat 32 a.toNat)).incSat Reg.BKG_SRAM_CNT 31 16) 0
  rw [← State.uncorSeen] at em ep el er
  refine ⟨?_, ?_, hk.mem.trans (em.trans (by rw [incSat_mem, setReg_mem])), ?_, hk.uncor.trans (fb_bkgEvent_self _ (by decide)),
    fun h => hf ?_⟩
  · rw [hk.poison, ep, incSat_poison, setReg_poison]
    dsimp only
    split
    · exact List.contains_iff_mem.mp ‹_›
    · exact List.mem_cons_self
  · rw [hk.reg _ (by decide) (by decide) (by decide), er _ (by decide), reg_incSat_ne _ (by decide), reg_setReg_self,
      BitVec.ofNat_toNat, BitVec.setWidth_eq]
  · rw [f_of_reg (hk.reg _ (by decide) (by decide) (by decide)), f_of_reg (er _ (by decide)),
      f_incSat_self _ _ (by decide) (by decide), f_setReg_ne _ (by decide), satAdd_one (f_lt _ _ _ _)]
    rfl
  · rw [State.repairFree, el, incSat_ldg, setReg_ldg]
    exact h

/-- The passes of a row's last corrections. -/
def State.rowPasses (s : State) (row : Nat) : List Nat :=
  ((s.reg Reg.BKG_SRAM_PASSES).toNat :: Tab.get [] s.bkg.rows row).filter fun p => (s.reg Reg.BKG_SRAM_PASSES).toNat < p + 16

/-- A correctable error is counted. -/
def State.corSeen (s : State) (row : Nat) : State :=
  { s with bkg := { s.bkg with rows := Tab.put [] s.bkg.rows row (s.rowPasses row) } }.incSat Reg.BKG_SRAM_CNT 15 0

theorem scrubCor_facts (a : Nat) : (s.scrubCor a).mem = s.mem ∧ (s.scrubCor a).poison = s.poison ∧
    (s.scrubCor a).f Reg.BKG_SRAM_CNT 15 0 = min 65535 (s.f Reg.BKG_SRAM_CNT 15 0 + 1) ∧
    (s.f Reg.BKG_ROW 3 0 ≤ 1 → s.repairFree ≠ 0 → a / 1024 ∈ (s.scrubCor a).ldg.repaired) := by
  have hv : s.scrubCor a = if (s.corSeen (a / 1024)).f Reg.BKG_ROW 3 0 ≤ (s.rowPasses (a / 1024)).length
      then (s.corSeen (a / 1024)).repairRow (a / 1024) else s.corSeen (a / 1024) := rfl
  have hm : (s.corSeen (a / 1024)).mem = s.mem := by rw [State.corSeen, incSat_mem]
  have hp : (s.corSeen (a / 1024)).poison = s.poison := by rw [State.corSeen, incSat_poison]
  have hl : (s.corSeen (a / 1024)).ldg = s.ldg := by rw [State.corSeen, incSat_ldg]
  have hc : (s.corSeen (a / 1024)).f Reg.BKG_SRAM_CNT 15 0 = min 65535 (s.f Reg.BKG_SRAM_CNT 15 0 + 1) := by
    rw [State.corSeen, f_incSat_self _ _ (by decide) (by decide), satAdd_one (f_lt _ _ _ _)]
    rfl
  have hn : (s.corSeen (a / 1024)).f Reg.BKG_ROW 3 0 = s.f Reg.BKG_ROW 3 0 := by
    rw [State.corSeen, f_incSat_ne _ (by decide)]
    rfl
  have h1 : 1 ≤ (s.rowPasses (a / 1024)).length := by
    rw [State.rowPasses, List.filter_cons_of_pos (by simp)]
    exact Nat.succ_pos _
  obtain ⟨hk, hf⟩ := repairRow_facts (s.corSeen (a / 1024)) (a / 1024)
  rw [hv, hn]
  split
  · exact ⟨hk.mem.trans hm, hk.poison.trans hp, (f_of_reg (hk.reg _ (by decide) (by decide) (by decide)) _ _).trans hc,
      fun _ h => hf (by rw [State.repairFree, hl]; exact h)⟩
  · exact ⟨hm, hp, hc, fun h => absurd (h.trans h1) ‹_›⟩

/-- A pass of the scrub ends. -/
def State.passEnd (s : State) : State :=
  { s with bkg := { s.bkg with passAt := s.now, late := false } }.setReg Reg.BKG_SRAM_PASSES (s.reg Reg.BKG_SRAM_PASSES + 1)

theorem passEnd_facts : s.passEnd.reg Reg.BKG_SRAM_PASSES = s.reg Reg.BKG_SRAM_PASSES + 1 ∧ s.passEnd.bkg.passAt = s.now ∧
    s.passEnd.bkg.late = false ∧ s.passEnd.mem = s.mem := by
  rw [State.passEnd]
  exact ⟨by rw [reg_setReg_self], by rw [setReg_bkg], by rw [setReg_bkg], by rw [setReg_mem]⟩

end

section
variable {s : State} {t : Tick} {a : BitVec 32} {found : Fin 3}

theorem sramScrub_off (h : (s.at t).domOn 2 = false ∨ (s.at t).fb Reg.BKG_CTRL 0 = false ∨ (s.at t).scrubs a.toNat = false)
    (last : Bool) : exec (.sramScrubWord t a found last) s = .next (s.at t) := by
  refine if_neg ?_
  simp only [Bool.and_eq_true]
  rcases h with h | h | h <;> simp [h]

/-- The error that a word shows. -/
def State.scrubWord (u : State) (a : BitVec 32) (found : Fin 3) : State :=
  if found.val = 2 || u.poison.contains a.toNat then u.scrubUncor a.toNat
  else if found.val = 1 then u.scrubCor a.toNat else u

theorem sramScrub_on (hp : (s.at t).domOn 2 = true) (he : (s.at t).fb Reg.BKG_CTRL 0 = true)
    (hs : (s.at t).scrubs a.toNat = true) (last : Bool) : exec (.sramScrubWord t a found last) s =
      if last = true then .next ((s.at t).scrubWord a found).passEnd else .next ((s.at t).scrubWord a found) :=
  if_pos (by simp [hp, he, hs])

theorem scrubWord_none {u : State} (h : a.toNat ∉ u.poison) : u.scrubWord a 0 = u := by
  rw [State.scrubWord]
  exact (if_neg (by simp [h])).trans (if_neg (by decide))

theorem scrubWord_uncor {u : State} (h : found = 2 ∨ a.toNat ∈ u.poison) : u.scrubWord a found = u.scrubUncor a.toNat := by
  rw [State.scrubWord]
  refine if_pos ?_
  rcases h with h | h <;> simp [h]

theorem scrubWord_cor {u : State} (h : a.toNat ∉ u.poison) : u.scrubWord a 1 = u.scrubCor a.toNat := by
  rw [State.scrubWord]
  exact (if_neg (by simp [h])).trans (if_pos rfl)

end

/-! ### The wipe of DRAM (R473) -/

theorem readByte_wipeRange_in (m : List Host.Cell) {lo hi x : Nat} (h : lo ≤ x) (h' : x < hi) :
    readByte (wipeRange m lo hi) x = 0 := by
  unfold readByte wipeRange
  induction m with
  | nil => rfl
  | cons c m ih =>
    rw [List.filter_cons]
    split
    · rename_i hc
      refine (if_neg fun e => ?_).trans ih
      simp only [Bool.or_eq_true, decide_eq_true_eq] at hc
      omega
    · exact ih

theorem readByte_wipeRange_out (m : List Host.Cell) {lo hi x : Nat} (h : x < lo) :
    readByte (wipeRange m lo hi) x = readByte m x := by
  unfold readByte wipeRange
  induction m with
  | nil => rfl
  | cons c m ih =>
    rw [List.filter_cons]
    obtain ⟨k, b⟩ := c
    by_cases hk : k = x
    · rw [if_pos (by simp [hk, h])]
      exact (if_pos hk).trans (if_pos hk).symm
    · split
      · exact (if_neg hk).trans (ih.trans (if_neg hk).symm)
      · exact ih.trans (if_neg hk).symm

/-- DRAM is wiped. -/
def State.wiped (u : State) : State :=
  { u with sys := { u.sys with wiping := false }
           mem := wipeRange u.mem dramBase (dramBase + u.dramSize)
           poison := u.poison.filter fun w => w < dramBase }.setB Reg.SEC_BOOT 8 true

theorem wiped_facts (u : State) : u.wiped.dramReady = true ∧ u.wiped.sys.wiping = false ∧
    (∀ x, dramBase ≤ x → x < dramBase + u.dramSize → readByte u.wiped.mem x = 0) ∧
    ∀ x, x < dramBase → readByte u.wiped.mem x = readByte u.mem x := by
  have hm : u.wiped.mem = wipeRange u.mem dramBase (dramBase + u.dramSize) := by rw [State.wiped, setB_mem]
  have hs : u.wiped.sys.wiping = false := by rw [State.wiped, setB_sys]
  have hb : u.wiped.dramReady = true := by rw [State.dramReady, State.wiped, fb_setB_self _ _ (by decide)]
  refine ⟨hb, hs, fun x h h' => ?_, fun x h => ?_⟩
  · rw [hm, readByte_wipeRange_in _ h h']
  · rw [hm, readByte_wipeRange_out _ h]

/-! ### Wear folds (R485) -/

section
variable (s : State)

/-- The totals of some of a station's emitters are read from the Ledger. -/
def State.readBases (s : State) (st : Nat) (l : List Nat) (b : Tab Nat) : Tab Nat :=
  l.foldl (fun b e => Tab.put 0 b (48 * st + e) (s.memLE (wearAddr st e) 8)) b

theorem readBases_get (st : Nat) (l : List Nat) (b : Tab Nat) (e : Nat) :
    Tab.get 0 (s.readBases st l b) (48 * st + e) =
      if e ∈ l then s.memLE (wearAddr st e) 8 else Tab.get 0 b (48 * st + e) := by
  induction l generalizing b with
  | nil => rfl
  | cons x l ih =>
    rw [State.readBases, List.foldl_cons, ← State.readBases, ih]
    by_cases he : e ∈ l
    · rw [if_pos he, if_pos (List.mem_cons_of_mem _ he)]
    · rw [if_neg he]
      by_cases hx : e = x
      · subst hx
        rw [Tab.get_put_self, if_pos List.mem_cons_self]
      · rw [Tab.get_put_ne (0 : Nat) (show 48 * st + e ≠ 48 * st + x by omega), if_neg (by simp [hx, he])]

/-- A station's bases are read. -/
def State.basesRead (s : State) (st : Nat) : State :=
  { s with bkg := { s.bkg with
    bases := s.readBases st (List.range 48) s.bkg.bases
    based := s.bkg.based ++ [st] } }

/-- What the reading of a station's bases leaves, and the bases it gives. -/
theorem foldBases_facts (st : Nat) : (s.foldBases st).regs = s.regs ∧ (s.foldBases st).mem = s.mem ∧
    (s.foldBases st).ldg = s.ldg ∧ (s.foldBases st).pwr = s.pwr ∧ (s.foldBases st).clk = s.clk ∧
    (s.foldBases st).bkg.lastFolds = s.bkg.lastFolds ∧ (s.foldBases st).bkg.foldAt = s.bkg.foldAt ∧
    ∀ e < 48, Tab.get 0 (s.foldBases st).bkg.bases (48 * st + e) =
      if s.bkg.based.contains st then Tab.get 0 s.bkg.bases (48 * st + e) else s.memLE (wearAddr st e) 8 := by
  by_cases h : s.bkg.based.contains st = true
  · have hv : s.foldBases st = s := by
      rw [State.foldBases]
      exact if_pos h
    rw [hv]
    exact ⟨rfl, rfl, rfl, rfl, rfl, rfl, rfl, fun _ _ => (if_pos h).symm⟩
  · have hv : s.foldBases st = s.basesRead st := by
      rw [State.foldBases]
      exact if_neg h
    have hb := readBases_get s st (List.range 48) s.bkg.bases
    rw [hv]
    unfold State.basesRead
    generalize s.readBases st (List.range 48) s.bkg.bases = bases at hb ⊢
    refine ⟨rfl, rfl, rfl, rfl, rfl, rfl, rfl, fun e he => ?_⟩
    rw [if_neg h]
    exact (hb e).trans (if_pos (List.mem_range.mpr he))

/-- What folds leave. -/
structure FoldKept (s v : State) : Prop where
  regs : v.regs = s.regs
  mem : v.mem = s.mem
  pwr : v.pwr = s.pwr
  clk : v.clk = s.clk
  lastFolds : v.bkg.lastFolds = s.bkg.lastFolds
  foldAt : v.bkg.foldAt = s.bkg.foldAt

/-- The totals of a station's emitters. -/
def State.foldBytes (u : State) (st : Nat) : List Byte :=
  (List.range 48).flatMap fun e =>
    bytesLE 8 (Tab.get 0 u.bkg.bases (48 * st + e) + u.pair (Reg.EXP_ONTIME_LO st e) (Reg.EXP_ONTIME_HI st e))

/-- The request of a fold. -/
def State.foldReq (u : State) (st : Nat) : LdgReq :=
  { cls := 6, kind := foldKind st, units := 12, time := u.now, body := u.foldBytes st, base := some (12 * st) }

theorem foldStation_refused (st : Nat) (h : s.fb Reg.LDG_STATUS 2 = true) : s.foldStation st = s.foldBases st := by
  rw [State.foldStation]
  exact if_pos ((fb_of_regs (foldBases_facts s st).1 _ _).trans h)

theorem foldStation_taken (st : Nat) (h : s.fb Reg.LDG_STATUS 2 = false) :
    s.foldStation st = (s.foldBases st).ldgQueue ((s.foldBases st).foldReq st) := by
  rw [State.foldStation]
  exact if_neg (by rw [fb_of_regs (foldBases_facts s st).1, h]; decide)

theorem ldgQueue_fold (r : LdgReq) : FoldKept s (s.ldgQueue r) := by
  rw [State.ldgQueue]
  cases s.ldg.cur with
  | none => exact ⟨rfl, rfl, rfl, rfl, rfl, rfl⟩
  | some _ => exact ⟨rfl, rfl, rfl, rfl, rfl, rfl⟩

theorem foldStation_kept (st : Nat) : FoldKept s (s.foldStation st) := by
  obtain ⟨hr, hm, -, hp, hc, hl, hf, -⟩ := foldBases_facts s st
  cases h : s.fb Reg.LDG_STATUS 2 with
  | true =>
    rw [foldStation_refused s st h]
    exact ⟨hr, hm, hp, hc, hl, hf⟩
  | false =>
    rw [foldStation_taken s st h]
    obtain ⟨qr, qm, qp, qc, ql, qf⟩ := ldgQueue_fold (s.foldBases st) ((s.foldBases st).foldReq st)
    exact ⟨qr.trans hr, qm.trans hm, qp.trans hp, qc.trans hc, ql.trans hl, qf.trans hf⟩

theorem foldDomain_kept (d : Nat) : FoldKept s (s.foldDomain d) := by
  obtain ⟨r1, m1, p1, c1, l1, f1⟩ := foldStation_kept s (2 * (d - 7))
  obtain ⟨r2, m2, p2, c2, l2, f2⟩ := foldStation_kept (s.foldStation (2 * (d - 7))) (2 * (d - 7) + 1)
  exact ⟨r2.trans r1, m2.trans m1, p2.trans p1, c2.trans c1, l2.trans l1, f2.trans f1⟩

theorem foldDomain_refused (d : Nat) (h : s.fb Reg.LDG_STATUS 2 = true) : (s.foldDomain d).ldgWaiting = s.ldgWaiting := by
  have h1 := foldStation_refused s (2 * (d - 7)) h
  have hb := (foldBases_facts s (2 * (d - 7))).2.2.1
  rw [← h1] at hb
  have h2 := foldStation_refused (s.foldStation (2 * (d - 7))) (2 * (d - 7) + 1)
    ((fb_of_regs (foldStation_kept s _).regs _ _).trans h)
  rw [State.foldDomain, h2, State.ldgWaiting, (foldBases_facts _ _).2.2.1, hb, State.ldgWaiting]

theorem foldBytes_length (st : Nat) : (s.foldBytes st).length = 384 := by
  rw [State.foldBytes, List.length_flatMap]
  simp only [bytesLE_length]
  rfl

theorem foldBytes_slice (st : Nat) {e : Nat} (h : e < 48) : sliceLE (s.foldBytes st) (8 * e) 8 =
    (Tab.get 0 s.bkg.bases (48 * st + e) + s.pair (Reg.EXP_ONTIME_LO st e) (Reg.EXP_ONTIME_HI st e)) % 2 ^ 64 := by
  rw [sliceLE, State.foldBytes, flatMap_slice (k := 8) (fun x => bytesLE_length _ _) (List.range 48)
    (List.getElem?_range h), natLE_bytesLE]
  rfl

/-- A fold asks the Ledger to write each emitter's total (R485). -/
theorem foldStation_facts {st : Nat} (h : s.fb Reg.LDG_STATUS 2 = false) :
    (s.foldStation st).mem = s.mem ∧ ∃ r ∈ (s.foldStation st).ldgWaiting, r.cls = 6 ∧ r.kind = 0x100 + st ∧
      r.units = 12 ∧ r.base = some (12 * st) ∧ r.time = s.now ∧ r.bytes.length = 384 ∧ ∀ e < 48,
        let base := if s.bkg.based.contains st then Tab.get 0 s.bkg.bases (48 * st + e) else s.memLE (wearAddr st e) 8
        unitAddr (kindRegion r.kind) (12 * st) + 8 * e = wearAddr st e ∧
        sliceLE r.bytes (8 * e) 8 = (base + s.pair (Reg.EXP_ONTIME_LO st e) (Reg.EXP_ONTIME_HI st e)) % 2 ^ 64 := by
  obtain ⟨hr, -, -, -, hc, -, -, hb⟩ := foldBases_facts s st
  have hbytes : ((s.foldBases st).foldReq st).bytes = (s.foldBases st).foldBytes st :=
    bytes_fold (Nat.le_add_right _ _)
  have hreg : kindRegion ((s.foldBases st).foldReq st).kind = 6 := if_pos (Nat.le_add_right _ _)
  refine ⟨(foldStation_kept s st).mem, (s.foldBases st).foldReq st, ?_, rfl, rfl, rfl, rfl, ?_, ?_, fun e he => ⟨?_, ?_⟩⟩
  · rw [foldStation_taken s st h]
    exact mem_ldgWaiting_ldgQueue _ _
  · change (s.foldBases st).now = s.now
    rw [State.now, hc, State.now]
  · rw [hbytes, foldBytes_length]
  · rw [hreg, wearAddr, unitAddr, unitAddr]
    omega
  · rw [hbytes, foldBytes_slice _ _ he, hb e he]
    simp only [State.pair, State.reg, hr]

/-! ### Folds before a power-down (R485) -/

theorem foldLast_refused {d : Nat} (h : s.fb Reg.LDG_STATUS 2 = true) :
    (s.foldLast d).stepAt d = some s.now ∧ (s.foldLast d).ldgWaiting = s.ldgWaiting := by
  have hk := foldDomain_kept s d
  have hv : s.foldLast d = (s.foldDomain d).setStep d (some (s.foldDomain d).now) := by
    rw [State.foldLast]
    exact if_pos ((fb_of_regs hk.regs _ _).trans h)
  have hn : (s.foldDomain d).now = s.now := by rw [State.now, hk.clk, State.now]
  rw [hv, hn]
  exact ⟨Tab.get_put_self (none : Option Tick) d (some s.now) (s.foldDomain d).pwr.stepAt, foldDomain_refused s d h⟩

theorem foldLast_taken {d : Nat} (h : s.fb Reg.LDG_STATUS 2 = false) : s.foldLast d =
    { s.foldDomain d with bkg := { (s.foldDomain d).bkg with lastFolds := (s.foldDomain d).bkg.lastFolds ++ [d] } } := by
  rw [State.foldLast]
  exact if_neg (by rw [fb_of_regs (foldDomain_kept s d).regs, h]; decide)

theorem foldLast_taken_facts {d : Nat} (h : s.fb Reg.LDG_STATUS 2 = false) :
    d ∈ (s.foldLast d).bkg.lastFolds ∧ (s.foldLast d).stepAt d = s.stepAt d := by
  rw [foldLast_taken s h]
  refine ⟨List.mem_append_right _ (List.mem_singleton_self d), ?_⟩
  rw [State.stepAt, State.stepAt, ← (foldDomain_kept s d).pwr]

theorem foldEnded_facts {d st : Nat} (hd : 7 ≤ d) (hl : s.bkg.lastFolds = [d]) (hq : ∀ r ∈ s.ldg.queue, r.kind < 0x100)
    (hs : st / 2 = d - 7) : (s.foldEnded (0x100 + st)).stepAt d = some s.now ∧
      (s.foldEnded (0x100 + st)).bkg.lastFolds = [] := by
  have hd' : 7 + (0x100 + st - 0x100) / 2 = d := by omega
  have hc : s.bkg.lastFolds.contains d = true := by simp [hl]
  have hn : (s.ldg.queue.any fun r => r.kind == foldKind (2 * (d - 7)) || r.kind == foldKind (2 * (d - 7) + 1)) = false := by
    refine List.any_eq_false.mpr fun r hr => ?_
    have := hq r hr
    simp only [foldKind, Bool.or_eq_true, beq_iff_eq]
    omega
  have hv : s.foldEnded (0x100 + st) = ({ s with bkg := { s.bkg with lastFolds := s.bkg.lastFolds.erase d } } : State).setStep d
      (some s.now) := by
    unfold State.foldEnded
    rw [hd']
    exact if_pos (by rw [hc, hn]; rfl)
  have he : s.bkg.lastFolds.erase d = [] := by simp [hl]
  rw [hv]
  exact ⟨Tab.get_put_self (none : Option Tick) d (some s.now) s.pwr.stepAt, he⟩

theorem foldWaits_congr {u v : State} {d : Nat} (hr : u.regs = v.regs) (hp : u.stepAt d = v.stepAt d)
    (hl : u.bkg.lastFolds.contains d = v.bkg.lastFolds.contains d) : u.foldWaits d = v.foldWaits d := by
  rw [State.foldWaits, State.foldWaits, State.dom, State.dom, f_of_regs hr, hp, hl]

theorem foldWaits_kept {u v : State} (h : FoldKept u v) (d : Nat) : v.foldWaits d = u.foldWaits d :=
  foldWaits_congr h.regs (by rw [State.stepAt, h.pwr, State.stepAt]) (by rw [h.lastFolds])

theorem foldWaits_setStep (u : State) {d e : Nat} (h : e ≠ d) (x : Option Tick) : (u.setStep d x).foldWaits e = u.foldWaits e := by
  have hs : (u.setStep d x).stepAt e = u.stepAt e := Tab.get_put_ne (none : Option Tick) h x u.pwr.stepAt
  exact foldWaits_congr rfl hs rfl

/-- The fold before a power-down has begun. -/
def State.lastFold (u : State) (d : Nat) : State := { u with bkg := { u.bkg with lastFolds := u.bkg.lastFolds ++ [d] } }

theorem foldWaits_lastFold (u : State) {d e : Nat} (h : e ≠ d) : (u.lastFold d).foldWaits e = u.foldWaits e := by
  have hl : (u.lastFold d).bkg.lastFolds = u.bkg.lastFolds ++ [d] := rfl
  exact foldWaits_congr rfl rfl (by rw [hl]; simp [h])

theorem foldWaits_foldLast {u : State} {d e : Nat} (hd : e ≠ d) : (u.foldLast d).foldWaits e = u.foldWaits e := by
  have hk := foldWaits_kept (foldDomain_kept u d) e
  have hv : u.foldLast d = if (u.foldDomain d).fb Reg.LDG_STATUS 2 = true then
    (u.foldDomain d).setStep d (some (u.foldDomain d).now) else (u.foldDomain d).lastFold d := rfl
  rw [hv]
  split
  · exact (foldWaits_setStep _ hd _).trans hk
  · exact (foldWaits_lastFold _ hd).trans hk

/-- What WEAR_FOLD does to one VID domain. -/
def State.wearDomain (due : Bool) (s : State) (d : Nat) : State :=
  if s.foldWaits d then s.foldLast d else if due && s.domOn d then s.foldDomain d else s

theorem wearDomain_idle {u : State} {due : Bool} {d : Nat} (h : u.foldWaits d = false) (ho : due = false ∨ u.domOn d = false) :
    u.wearDomain due d = u := by
  rw [State.wearDomain, if_neg (Bool.eq_false_iff.mp h)]
  refine if_neg ?_
  rcases ho with ho | ho <;> simp [ho]

theorem wearDomain_due {u : State} {d : Nat} (h : u.foldWaits d = false) (ho : u.domOn d = true) :
    u.wearDomain true d = u.foldDomain d := by
  rw [State.wearDomain, if_neg (Bool.eq_false_iff.mp h), ho]
  rfl

theorem wearDomain_waits {u : State} {due : Bool} {d : Nat} (h : u.foldWaits d = true) :
    u.wearDomain due d = u.foldLast d := by
  rw [State.wearDomain, if_pos h]

end

section
variable {s : State} {t : Tick}

theorem wearFold_off (h : (s.at t).domOn 2 = false ∨ (s.at t).fb Reg.BKG_CTRL 4 = false) :
    exec (.wearFold t) s = .next (s.at t) := by
  refine if_pos ?_
  rcases h with h | h <;> simp [h]

/-- The domains fold in order. -/
def State.wearFolds (u : State) (due : Bool) : State :=
  [7, 8, 9].foldl (State.wearDomain due) u

theorem wearFold_waiting (hp : (s.at t).domOn 2 = true) (he : (s.at t).fb Reg.BKG_CTRL 4 = true)
    (hd : ¬ (s.at t).bkg.foldAt + (s.at t).f Reg.BKG_PERIODS 15 0 * 6400000000 ≤ (s.at t).now) :
    exec (.wearFold t) s = .next ((s.at t).wearFolds false) := by
  have hx : exec (.wearFold t) s = execWearFold t s := rfl
  have hd' : decide ((s.at t).bkg.foldAt + (s.at t).f Reg.BKG_PERIODS 15 0 * (1000 * ms) ≤ (s.at t).now) = false :=
    decide_eq_false hd
  rw [hx]
  unfold execWearFold
  simp only [hp, he, hd', Bool.not_true, Bool.or_self, Bool.false_eq_true, if_false]
  rfl

/-- The time of the last fold is taken. -/
def State.foldsNow (u : State) : State := { u with bkg := { u.bkg with foldAt := u.now } }

theorem wearFold_due (hp : (s.at t).domOn 2 = true) (he : (s.at t).fb Reg.BKG_CTRL 4 = true)
    (hd : (s.at t).bkg.foldAt + (s.at t).f Reg.BKG_PERIODS 15 0 * 6400000000 ≤ (s.at t).now) :
    exec (.wearFold t) s = .next ((s.at t).foldsNow.wearFolds true) := by
  have hx : exec (.wearFold t) s = execWearFold t s := rfl
  have hd' : decide ((s.at t).bkg.foldAt + (s.at t).f Reg.BKG_PERIODS 15 0 * (1000 * ms) ≤ (s.at t).now) = true :=
    decide_eq_true hd
  rw [hx]
  unfold execWearFold
  simp only [hp, he, hd', Bool.not_true, Bool.or_self, Bool.false_eq_true, if_false, if_true]
  rfl

theorem wearFolds_idle {u : State} (h : ∀ d, 7 ≤ d → d ≤ 9 → u.foldWaits d = false) : u.wearFolds false = u := by
  rw [State.wearFolds, List.foldl_cons, wearDomain_idle (h 7 (by decide) (by decide)) (.inl rfl), List.foldl_cons,
    wearDomain_idle (h 8 (by decide) (by decide)) (.inl rfl), List.foldl_cons,
    wearDomain_idle (h 9 (by decide) (by decide)) (.inl rfl), List.foldl_nil]

theorem wearFolds_last {u : State} (h7 : u.foldWaits 7 = true) (h8 : u.foldWaits 8 = false) (h9 : u.foldWaits 9 = false) :
    u.wearFolds false = u.foldLast 7 := by
  rw [State.wearFolds, List.foldl_cons, wearDomain_waits h7, List.foldl_cons,
    wearDomain_idle ((foldWaits_foldLast (by decide)).trans h8) (.inl rfl), List.foldl_cons,
    wearDomain_idle ((foldWaits_foldLast (by decide)).trans h9) (.inl rfl), List.foldl_nil]

theorem domOn_kept {u v : State} (h : FoldKept u v) (d : Nat) : v.domOn d = u.domOn d := by
  rw [State.domOn, f_of_regs h.regs, State.domOn]

theorem wearFolds_station {u : State} (h : ∀ d, 7 ≤ d → d ≤ 9 → u.foldWaits d = false) (h7 : u.domOn 7 = true)
    (h8 : u.domOn 8 = false) (h9 : u.domOn 9 = false) : u.foldsNow.wearFolds true = (u.foldsNow.foldStation 0).foldStation 1 := by
  have hw : ∀ d, u.foldsNow.foldWaits d = u.foldWaits d := fun d => foldWaits_congr rfl rfl rfl
  have hk := foldDomain_kept u.foldsNow 7
  have h0 : u.foldsNow.foldDomain 7 = (u.foldsNow.foldStation 0).foldStation 1 := rfl
  rw [State.wearFolds, List.foldl_cons, wearDomain_due ((hw 7).trans (h 7 (by decide) (by decide))) h7, List.foldl_cons,
    wearDomain_idle ((foldWaits_kept hk 8).trans ((hw 8).trans (h 8 (by decide) (by decide))))
      (.inr ((domOn_kept hk 8).trans h8)), List.foldl_cons,
    wearDomain_idle ((foldWaits_kept hk 9).trans ((hw 9).trans (h 9 (by decide) (by decide))))
      (.inr ((domOn_kept hk 9).trans h9)), List.foldl_nil, h0]

end

/-! ### Telemetry (R486) -/

section
variable {s : State} {t : Tick}

theorem snapshot_off (h : (s.at t).domOn 2 = false ∨ (s.at t).fb Reg.BKG_CTRL 5 = false ∨
      ¬ (s.at t).bkg.telAt + (s.at t).f Reg.BKG_PERIODS 31 16 * 6400000 ≤ (s.at t).now) :
    exec (.telemetrySnapshot t) s = .next (s.at t) := by
  refine if_pos ?_
  rcases h with h | h | h
  · simp [h]
  · simp [h]
  · rw [decide_eq_false (show ¬ (s.at t).bkg.telAt + (s.at t).f Reg.BKG_PERIODS 31 16 * ms ≤ (s.at t).now from h)]
    simp

/-- A snapshot that still waits is written unsigned. -/
def State.telFlush (u : State) : State :=
  match u.bkg.tel with
  | some old => ({ u with bkg := { u.bkg with telAt := u.now, tel := none } }.telWrite (old ++ List.replicate 64 0)).incSat
      Reg.BKG_TEL_CNT 15 0
  | none => { u with bkg := { u.bkg with telAt := u.now } }

theorem telWrite_kept (u : State) (bs : List Byte) : (u.telWrite bs).sec = u.sec ∧
    ∀ r ≠ Reg.BKG_TEL_HEAD, (u.telWrite bs).reg r = u.reg r := by
  rw [State.telWrite]
  refine ⟨?_, fun r h => ?_⟩
  · rw [setF_sec]
    split <;> rfl
  · rw [reg_setF_ne _ h]
    split <;> rfl

theorem telFlush_kept (u : State) : u.telFlush.sec = u.sec ∧ u.telFlush.fb Reg.BKG_CTRL 6 = u.fb Reg.BKG_CTRL 6 := by
  unfold State.telFlush
  cases u.bkg.tel with
  | none => exact ⟨rfl, rfl⟩
  | some old =>
    obtain ⟨hs, hr⟩ := telWrite_kept { u with bkg := { u.bkg with telAt := u.now, tel := none } } (old ++ List.replicate 64 0)
    exact ⟨(incSat_sec _ _ _ _ _).trans hs, (fb_incSat_ne _ (by decide) _ _ _ _).trans (fb_of_reg (hr _ (by decide)) _)⟩

/-- A snapshot is taken: it waits for SEC's signature, or is written without. -/
def State.telTaken (y : State) : State :=
  if y.fb Reg.BKG_CTRL 6 && y.sec.otp.key.isSome then { y with bkg := { y.bkg with tel := some y.telSnapshot } }
  else y.telWrite (y.telSnapshot ++ List.replicate 64 0)

theorem snapshot_due (hp : (s.at t).domOn 2 = true) (he : (s.at t).fb Reg.BKG_CTRL 5 = true)
    (hd : (s.at t).bkg.telAt + (s.at t).f Reg.BKG_PERIODS 31 16 * 6400000 ≤ (s.at t).now) :
    exec (.telemetrySnapshot t) s = .next (s.at t).telFlush.telTaken := by
  have hx : exec (.telemetrySnapshot t) s = execTelemetrySnapshot t s := rfl
  have hd' : (s.at t).bkg.telAt + (s.at t).f Reg.BKG_PERIODS 31 16 * ms ≤ (s.at t).now := hd
  rw [hx]
  unfold execTelemetrySnapshot State.telTaken State.telFlush
  simp only [hp, he, hd', Bool.not_true, Bool.or_self, Bool.false_eq_true, if_false, decide_true]
  cases (s.at t).bkg.tel with
  | none => exact (apply_ite _ _ _ _).symm
  | some old => exact (apply_ite _ _ _ _).symm

theorem telTaken_signed {u : State} (h : u.fb Reg.BKG_CTRL 6 = true) (hk : u.sec.otp.key ≠ none) :
    u.telFlush.telTaken = { u.telFlush with bkg := { u.telFlush.bkg with tel := some u.telFlush.telSnapshot } } := by
  obtain ⟨hs, hb⟩ := telFlush_kept u
  rw [State.telTaken]
  exact if_pos (by rw [hb, hs, h, Bool.true_and]; exact Option.isSome_iff_ne_none.mpr hk)

theorem telTaken_unsigned {u : State} (h : u.fb Reg.BKG_CTRL 6 = false ∨ u.sec.otp.key = none) :
    u.telFlush.telTaken = u.telFlush.telWrite (u.telFlush.telSnapshot ++ List.replicate 64 0) := by
  obtain ⟨hs, hb⟩ := telFlush_kept u
  rw [State.telTaken]
  refine if_neg ?_
  rw [hb, hs]
  rcases h with h | h <;> simp [h]

end

/-! ### The DRAM scrub (R483) -/

/-- The words of a burst are poisoned. -/
def State.burstLost (u : State) (b : Nat) : State :=
  { u with poison := ((List.range 8).map fun i => b + 8 * i) ++
      u.poison.filter fun w => !((List.range 8).map fun i => b + 8 * i).contains w }.raise srcMEM 1

theorem burstLost_facts (u : State) (b : Nat) : (u.burstLost b).mem = u.mem ∧ (u.burstLost b).regs = u.regs ∧
    (u.burstLost b).sbx.raised = u.sbx.raised ++ [{ src := srcMEM, ev := 1, ts := u.now }] ∧
    ∀ i < 8, b + 8 * i ∈ (u.burstLost b).poison :=
  ⟨rfl, rfl, rfl, fun i hi => List.mem_append_left _ (List.mem_map.mpr ⟨i, List.mem_range.mpr hi, rfl⟩)⟩

/-! ### Late passes and training (R481, R501) -/

section
variable {s : State} {t : Tick}

/-- A pass is late: this is told once. -/
def State.passIsLate (u : State) : State := { u with bkg := { u.bkg with late := true } }.bkgEvent 3

theorem passIsLate_facts (u : State) : u.passIsLate.bkg.late = true ∧ u.passIsLate.fb Reg.BKG_IRQ_STATUS 3 = true ∧
    u.passIsLate.mem = u.mem := by
  obtain ⟨hm, -, -, hb, -⟩ := bkgEvent_facts { u with bkg := { u.bkg with late := true } } 3
  exact ⟨congrArg Bkg.late hb, fb_bkgEvent_self _ (by decide), hm⟩

theorem passLate_iff : ((s.at t).domOn 2 && (s.at t).fb Reg.BKG_CTRL 0 && !(s.at t).bkg.late &&
      decide ((s.at t).bkg.passAt + 10000 * ms ≤ (s.at t).now)) = true ↔
    (s.at t).domOn 2 = true ∧ (s.at t).fb Reg.BKG_CTRL 0 = true ∧ (s.at t).bkg.late = false ∧
      (s.at t).bkg.passAt + 64000000000 ≤ (s.at t).now := by
  simp only [Bool.and_eq_true, decide_eq_true_eq, Bool.not_eq_true', and_assoc]
  rfl

theorem dramScrub_iff (a : Nat) : ((s.at t).domOn 2 && (s.at t).fb Reg.BKG_CTRL 1 && (s.at t).domOn 11 &&
      (s.at t).dramReady && (s.at t).inDram a 64) = true ↔
    (s.at t).domOn 2 = true ∧ (s.at t).fb Reg.BKG_CTRL 1 = true ∧ (s.at t).domOn 11 = true ∧ (s.at t).dramReady = true ∧
      (s.at t).inDram a 64 = true := by
  simp only [Bool.and_eq_true, and_assoc]

end

/-- Settles O60: a repair leaves memory, poison and the scrub's counters; a fold's request holds the totals in the order
of the emitters; folds of one domain leave what decides on the others. -/
theorem backgroundServices : Obligations.BackgroundServices := by
  refine ⟨fun s t a found => ⟨fun h last => sramScrub_off h last, fun hp he hs => ⟨fun hf hn => ?_, fun hf hn => ?_, fun h => ?_,
    fun hf hn => ?_⟩⟩, fun s t a => ⟨fun h found => if_neg (mt (dramScrub_iff _).mp h), fun h => ⟨?_, ?_, _, ?_, burstLost_facts _ _⟩⟩,
    fun s t ok => ⟨fun h => if_neg (mt passLate_iff.mp h), fun h => ⟨_, if_pos (passLate_iff.mpr h), passIsLate_facts _⟩,
      fun hp hr ho => if_pos (by simp [hp, hr, ho]), fun h => ?_, fun h => ?_,
      fun hp hw => ⟨_, if_pos (by simp [hp, hw]), ?_⟩,
      wearFold_off, fun hp he hw => ⟨fun hd => ?_, fun hd h7 h8 h9 => ?_⟩, fun hp he h7 h8 h9 hd => ?_, snapshot_off,
      fun hp he hd => ?_⟩, fun s st _ h => foldStation_facts s h,
    fun s d h7 h9 => ⟨foldLast_refused s, foldLast_taken_facts s, fun hl hq st hs => foldEnded_facts s h7 hl hq hs⟩⟩
  · subst hf
    rw [sramScrub_on hp he hs, scrubWord_none hn]
    rfl
  · subst hf
    refine ⟨_, sramScrub_on hp he hs true, ?_⟩
    rw [scrubWord_none hn]
    exact passEnd_facts _
  · refine ⟨_, sramScrub_on hp he hs false, ?_⟩
    rw [scrubWord_uncor h]
    exact scrubUncor_facts _ a
  · subst hf
    refine ⟨_, sramScrub_on hp he hs false, ?_⟩
    rw [scrubWord_cor hn]
    exact scrubCor_facts _ a.toNat
  · exact (if_pos ((dramScrub_iff _).mpr h)).trans rfl
  · exact (if_pos ((dramScrub_iff _).mpr h)).trans rfl
  · exact (if_pos ((dramScrub_iff _).mpr h)).trans rfl
  · refine if_neg ?_
    rcases h with h | h | h <;> simp [h]
  · refine if_neg ?_
    rcases h with h | h <;> simp [h]
  · obtain ⟨hr, hs, hin, hout⟩ := wiped_facts (s.at t)
    exact ⟨hr, hs, hin, fun _ => hout⟩
  · rw [wearFold_waiting hp he hd, wearFolds_idle hw]
  · exact ⟨_, (wearFold_due hp he hd).trans (congrArg _ (wearFolds_station hw h7 h8 h9)), rfl, rfl, rfl⟩
  · rw [wearFold_waiting hp he (Nat.not_le.mpr hd), wearFolds_last h7 h8 h9]
  · have hx := snapshot_due hp he hd
    intro x y
    have hy : y = (s.at t).telFlush := rfl
    clear_value y
    subst hy
    exact ⟨fun h hk => hx.trans (congrArg _ (telTaken_signed h hk)), fun h => hx.trans (congrArg _ (telTaken_unsigned h))⟩

end Sys2Proof.Machine
end

section
/-! What causes, streams and the resets of a domain's blocks leave: the clocks. -/

namespace Sys2Proof.Machine

theorem foldl_clk {α : Type} {f : State → α → State} (h : ∀ s x, (f s x).clk = s.clk) (l : List α) (s : State) :
    (l.foldl f s).clk = s.clk :=
  foldl_invariant (f := f) (P := fun u => u.clk = s.clk) (fun a b _ ha => (h a b).trans ha) rfl

section
variable (s : State)

/-! ### Outcomes and causes (R72, R75) -/

theorem requestSwap_clk : s.requestSwap.clk = s.clk := by
  unfold State.requestSwap
  split
  · rfl
  · exact (setB_clk _ _ _ _).trans rfl

theorem tryFree_clk (k : Nat) : (s.tryFree k).clk = s.clk := by
  unfold State.tryFree
  split
  · rfl
  · dsimp only
    split
    · split
      · exact (requestSwap_clk _).trans rfl
      · rfl
    · rfl

theorem afterOutcome_clk (k st : Nat) : (s.afterOutcome k st).clk = s.clk := by
  unfold State.afterOutcome
  dsimp only
  have h : (if st = stSPOILED then s.raise srcTT 1 else s).clk = s.clk := by
    split <;> rfl
  generalize (if st = stSPOILED then s.raise srcTT 1 else s) = v at *
  exact (tryFree_clk _ k).trans ((lastSheetDone_kept _).2.1.trans ((ttKept_dropWindows _ k).clk.trans
    ((ttKept_endSheet v _).clk.trans h)))

theorem outcome_clk (k st reason detail : Nat) (keep : Armed → Bool) (arm : Option ActList) :
    (s.outcome k st reason detail keep arm).clk = s.clk := by
  cases hk : s.sheet k with
  | none =>
    unfold State.outcome
    rw [hk]
  | some sh =>
    rw [outcome_eq hk]
    dsimp only
    rw [afterOutcome_clk, setSheet_clk, resRecord_clk, (declared_kept s detail sh).1]

theorem modSheet_clk (k : Nat) (g : Sheet → Sheet) : (s.modSheet k g).clk = s.clk := by
  unfold State.modSheet
  split <;> rfl

theorem amend_clk (k st reason detail : Nat) : (s.amend k st reason detail).clk = s.clk := by
  have hraise : ∀ (u : State) (c : Prop) [Decidable c], (if c then u.raise srcTT 1 else u).clk = u.clk := fun u c _ => by
    split <;> rfl
  have hcnt : ∀ (u : State) (old n : Nat), (if old = st then u
      else (u.setF (outcomeCounter old) 31 0 n).incSat (outcomeCounter st) 31 0).clk = u.clk := fun u old n => by
    split <;> rfl
  unfold State.amend
  split
  · rfl
  · next sh hk =>
    dsimp only
    rw [hraise, modSheet_clk, setF_clk, setF_clk, hcnt]
    cases sh.recAt with
    | none => rfl
    | some i => rfl

theorem causeOnce_clk (k reason detail : Nat) : (s.causeOnce k reason detail).clk = s.clk := by
  unfold State.causeOnce
  split
  · rfl
  · next sh hk =>
    dsimp only
    have h := (ttKept_blankSheet s (s.handle k)).clk
    generalize s.blankSheet (s.handle k) = u at *
    rw [← h]
    split
    · exact outcome_clk u k _ _ _ _ _
    · split
      · exact outcome_clk u k _ _ _ _ _
      · split
        · split
          · exact (modSheet_clk _ k _).trans (amend_clk u k _ _ _)
          · rfl
        · split
          · exact amend_clk u k _ _ _
          · split <;> rfl

/-! ### Streams (R183–R189) -/

theorem checkPlane_clk (st : Nat) (x : Stream) : (s.checkPlane st x).2.clk = s.clk := by
  have h := readMem_clk s iFX x.plane 32
  unfold State.checkPlane
  split
  · rfl
  · generalize s.readMem iFX x.plane 32 = r at *
    obtain ⟨e, u⟩ := r
    cases e with
    | error e => cases e <;> exact h
    | ok d =>
      dsimp only
      split <;> exact h

theorem streamFail_clk (st h err fail detail row : Nat) : (s.streamFail st h err fail detail row).clk = s.clk := by
  unfold State.streamFail
  dsimp only
  split
  · exact (causeOnce_clk _ _ _ _).trans rfl
  · rfl

theorem activate_clk (st : Nat) : (s.activate st).clk = s.clk := by
  unfold State.activate
  split
  · rfl
  · next x hx =>
    have h := checkPlane_clk s st x
    generalize s.checkPlane st x = r at *
    obtain ⟨e, u⟩ := r
    cases e with
    | error e => exact (streamFail_clk _ _ _ _ _ _ _).trans ((ttKept_endStream u st x).clk.trans h)
    | ok cols => exact ((ttKept_updateCredit _ st).clk.trans (ttKept_setStreams u st _).clk).trans h

theorem settle_clk (n : Nat) : (s.settle n).clk = s.clk := by
  induction n generalizing s with
  | zero => rfl
  | succ n ih =>
    unfold State.settle
    split
    · exact (ih _).trans (activate_clk s _)
    · rfl

theorem cause_clk (k reason detail : Nat) : (s.cause k reason detail).clk = s.clk :=
  (settle_clk _ _).trans (causeOnce_clk s k reason detail)

theorem causeWhere_clk (reason : Nat) (p : Nat → Sheet → Option Nat) : (s.causeWhere reason p).clk = s.clk := by
  refine foldl_clk (fun s q => ?_) _ s
  split
  · exact cause_clk s _ _ _
  · rfl

/-! ### Resets of a domain's blocks (R404) -/

theorem resetCauses_clk (onClaim : Claim → Bool) (onCmd : Action → Bool) : (s.resetCauses onClaim onCmd).clk = s.clk :=
  causeWhere_clk s _ _

theorem addOnTime_clock (st : Nat) (l : Tab Nat) : (s.addOnTime st l).clk = s.clk := by
  rw [addOnTime_eq]
  exact foldl_clk (f := fun s p => s.countOnTime st p) (fun u p => rfl) _ s

theorem cutFrame_clk (st : Nat) : (s.cutFrame st).clk = s.clk := by
  unfold State.cutFrame
  split
  · rfl
  · exact (addOnTime_clock _ st _).trans rfl

theorem expPart_clk (st : Nat) (kp : String → Keep → Bool) : (s.expPart st kp).clk = s.clk := by
  have h : (s.expReset st).clk = s.clk := rfl
  unfold State.expPart
  dsimp only
  generalize s.expReset st = u at *
  exact ((ttKept_updateCredit _ st).clk.trans (cutFrame_clk u st)).trans h

theorem stationOff_clk (st : Nat) : (s.stationOff st).clk = s.clk := by
  unfold State.stationOff
  dsimp only
  rw [expPart_clk]
  exact (resetCauses_clk _ _ _).trans (resetCauses_clk s _ _)

theorem endHostDma_clk : s.endHostDma.clk = s.clk := by
  refine foldl_clk (fun s c => ?_) _ s
  split
  · split <;> rfl
  · rfl

theorem resetBlocks_clk (l : List Nat) (kp : String → Keep → Bool) :
    (l.foldl (fun s b => s.resetBlockRegs b kp) s).clk = s.clk :=
  foldl_clk (f := fun s b => s.resetBlockRegs b kp) (fun _ _ => rfl) l s

theorem domReset_clk (d : Nat) : (s.domReset d).clk = s.clk := by
  unfold State.domReset
  dsimp only
  split
  · rfl
  · split
    · exact (resetBlocks_clk _ _ _).trans rfl
    · split
      · exact foldl_clk (f := fun s i => (s.setArms (6 * (d - 3) + i) []).setFlight (6 * (d - 3) + i) {}) (fun _ _ => rfl) _ s
      · split
        · exact (foldl_clk (f := fun s st => s.stationOff st) (fun u st => stationOff_clk u st) _ _).trans rfl
        · split
          · rfl
          · split
            · rfl
            · split
              · exact (endHostDma_clk _).trans ((setB_clk _ _ _ _).trans rfl)
              · split
                · rfl
                · split
                  · exact (resetBlocks_clk _ _ _).trans rfl
                  · rfl

theorem domReset_now (d : Nat) : (s.domReset d).now = s.now := by
  rw [State.now, domReset_clk, State.now]

end

end Sys2Proof.Machine
end

section
/-! The power domains: their steps, the entry to ARCHIVE and the wakes. -/

namespace Sys2Proof.Machine

/-! ### A domain's state and its step -/

section
variable (s : State) (d : Nat)

theorem dom_setStep (t : Option Tick) : (s.setStep d t).dom d = s.dom d := rfl
theorem domRev_setStep (t : Option Tick) : (s.setStep d t).domRev d = s.domRev d := rfl
theorem domPend_setStep (t : Option Tick) : (s.setStep d t).domPend d = s.domPend d := rfl

theorem stepAt_setStep (t : Option Tick) : (s.setStep d t).stepAt d = t :=
  Tab.get_put_self (none : Option Tick) d t s.pwr.stepAt

theorem dom_setDom {st : Nat} (h : st < 16) : (s.setDom d st).dom d = st :=
  (f_setF_self s (Reg.PWR_DOM_STATE d) (hi := 3) (lo := 0) (by decide) (by decide) st).trans (Nat.mod_eq_of_lt h)

theorem fb_setDom_bit (st : Nat) {i : Nat} (h : 3 < i) :
    (s.setDom d st).fb (Reg.PWR_DOM_STATE d) i = s.fb (Reg.PWR_DOM_STATE d) i :=
  fb_setF_field s (a := Reg.PWR_DOM_STATE d) (hi := 3) (lo := 0) (by decide) (by decide) (Or.inr h) st

theorem stepAt_setDom (st : Nat) : (s.setDom d st).stepAt d = none :=
  Tab.get_put_self (none : Option Tick) d none s.pwr.stepAt

theorem setDom_mem (st : Nat) : (s.setDom d st).mem = s.mem := rfl

/-- The state of a domain takes no part in the bits above it. -/
theorem dom_setB (i : Nat) (b : Bool) (h : 3 < i) (h' : i < 32) : (s.setB (Reg.PWR_DOM_STATE d) i b).dom d = s.dom d :=
  f_setB_field s (hi := 3) (lo := 0) h' (Or.inl h) b

theorem domRev_setDom (st : Nat) : (s.setDom d st).domRev d = s.domRev d := fb_setDom_bit s d st (by decide)
theorem domPend_setDom (st : Nat) : (s.setDom d st).domPend d = s.domPend d := fb_setDom_bit s d st (by decide)

theorem clearMemory_facts : (s.clearMemory d).regs = s.regs ∧ (s.clearMemory d).pwr = s.pwr :=
  foldl_invariant (f := fun (s : State) (r : Region) =>
    { s with mem := wipeRange s.mem r.base (r.base + r.size)
             poison := s.poison.filter fun w => w < r.base || r.base + r.size ≤ w })
    (P := fun u => u.regs = s.regs ∧ u.pwr = s.pwr) (fun _ _ _ ha => ha) ⟨rfl, rfl⟩

/-! ### Steps up and down (R408) -/

/-- The MEM step of a power-up clears the domain's memory. -/
def State.stepMem (s : State) (d st : Nat) : State := if st = dUP_MEM then s.clearMemory d else s

theorem stepMem_facts (st : Nat) : (s.stepMem d st).regs = s.regs ∧ (s.stepMem d st).pwr = s.pwr := by
  unfold State.stepMem
  split
  · exact clearMemory_facts s d
  · exact ⟨rfl, rfl⟩

theorem domRev_stepMem (st : Nat) : (s.stepMem d st).domRev d = s.domRev d := fb_of_regs (stepMem_facts s d st).1 _ _

/-- A power-up goes on. -/
def State.upNext (s : State) (d st : Nat) (edge : Tick) : State :=
  ((s.stepMem d st).setDom d (st + 1)).setStep d (some edge)

theorem upReady_next {st : Nat} (edge : Tick) (h3 : st ≤ 3) (hr : s.domRev d = false) : s.upReady d st edge = s.upNext d st edge := by
  rw [State.upReady]
  refine (if_neg ?_).trans (if_pos (Nat.lt_succ_of_le h3))
  exact Bool.eq_false_iff.mp ((domRev_stepMem s d st).trans hr)

theorem upNext_facts {st : Nat} (edge : Tick) (h3 : st ≤ 3) : (s.upNext d st edge).dom d = st + 1 ∧
    (s.upNext d st edge).stepAt d = some edge :=
  ⟨(dom_setStep _ _ _).trans (dom_setDom _ _ (by omega)), stepAt_setStep _ _ _⟩

/-- A reversed power-up goes back down. -/
def State.upBack (s : State) (d st : Nat) (edge : Tick) : State :=
  (((s.stepMem d st).setB (Reg.PWR_DOM_STATE d) 4 false).setDom d (10 - st)).setStep d
    (if st = 1 then none else some edge)

theorem upReady_back (st : Nat) (edge : Tick) (hr : s.domRev d = true) : s.upReady d st edge = s.upBack d st edge := by
  rw [State.upReady]
  exact if_pos ((domRev_stepMem s d st).trans hr)

theorem upBack_facts (st : Nat) (edge : Tick) : (s.upBack d st edge).dom d = 10 - st ∧ (s.upBack d st edge).domRev d = false ∧
    (s.upBack d st edge).stepAt d = if st = 1 then none else some edge :=
  ⟨(dom_setStep _ _ _).trans (dom_setDom _ _ (by omega)),
    (domRev_setStep _ _ _).trans ((domRev_setDom _ _ _).trans (fb_setB_self _ _ (by decide) _)), stepAt_setStep _ _ _⟩

/-- A power-up ends. -/
def State.upDone (s : State) (d : Nat) (edge : Tick) : State :=
  (if d = 2 then { s with bkg := { s.bkg with passAt := edge } } else s).setDom d dON

theorem upReady_done (edge : Tick) (hr : s.domRev d = false) : s.upReady d 4 edge = (s.upDone d edge).bootIfDue := by
  have hm : s.stepMem d 4 = s := if_neg (by decide)
  have hv : s.upReady d 4 edge = if (s.stepMem d 4).domRev d = true then s.upBack d 4 edge else
      ((s.stepMem d 4).upDone d edge).bootIfDue := rfl
  rw [hv, hm]
  exact if_neg (Bool.eq_false_iff.mp hr)

theorem upDone_facts (edge : Tick) : (s.upDone d edge).dom d = 5 ∧ (s.upDone d edge).stepAt d = none ∧
    (s.upDone d edge).mem = s.mem := by
  refine ⟨dom_setDom _ _ (by decide), stepAt_setDom _ _ _, ?_⟩
  rw [State.upDone, setDom_mem]
  split <;> rfl

/-- A power-down goes on. -/
def State.downNext (s : State) (d st : Nat) (edge : Tick) : State :=
  (s.setDom d (st + 1)).setStep d (if st + 1 = dDN_REG then none else some edge)

theorem downReady_next {st : Nat} (edge : Tick) (h : st = 7 ∨ st = 8) : s.downReady d st edge = s.downNext d st edge := by
  rw [State.downReady]
  refine (if_neg ?_).trans (if_pos ?_)
  · rcases h with h | h <;> rw [h] <;> decide
  · rcases h with h | h <;> rw [h] <;> decide

theorem downNext_facts {st : Nat} (edge : Tick) (h : st = 7 ∨ st = 8) : (s.downNext d st edge).dom d = st + 1 ∧
    (s.downNext d st edge).mem = s.mem ∧ (s.downNext d st edge).stepAt d = if st = 8 then none else some edge := by
  refine ⟨(dom_setStep _ _ _).trans (dom_setDom _ _ (by omega)), rfl, (stepAt_setStep _ _ _).trans ?_⟩
  rcases h with h | h <;> rw [h] <;> rfl

/-- A power-down ends. -/
def State.downDone (s : State) (d : Nat) : State := (s.setDom d dOFF).setB (Reg.PWR_DOM_STATE d) 5 false

theorem downDone_facts : (s.downDone d).dom d = 0 ∧ (s.downDone d).domPend d = false ∧ (s.downDone d).mem = s.mem := by
  refine ⟨?_, fb_setB_self _ _ (by decide) _, ?_⟩
  · rw [State.downDone, dom_setB _ _ _ _ (by decide) (by decide), dom_setDom _ _ (by decide)]
    rfl
  · rw [State.downDone, setB_mem, setDom_mem]

theorem downDone_archive : (s.downDone d).pwr.archive = s.pwr.archive := by
  rw [State.downDone, setB_pwr]
  rfl

/-- The domain stays off until the wake is taken. -/
def State.wakeHeld (s : State) (d : Nat) : State := { s.pwrAborted d with pwr := { (s.pwrAborted d).pwr with heldWake := true } }

theorem downReady_done (edge : Tick) : s.downReady d 9 edge = if (!s.domPend d) = true then s.downDone d
    else if (d = 2 && (s.downDone d).pwr.archive) = true then (s.downDone d).wakeHeld d
    else ((s.downDone d).pwrAborted d).onEventAt d edge := rfl

/-- What the record of an aborted power-down leaves. -/
theorem pwrAborted_facts (hd : d < 16) : (s.pwrAborted d).dom d = s.dom d ∧ (s.pwrAborted d).mem = s.mem := by
  rw [State.pwrAborted, State.pwrNote]
  refine ⟨?_, by rw [setB_mem, setReg_mem, setF_mem, incSat_mem]⟩
  rw [State.dom, f_setB_ne _ (by simp only [Reg.PWR_DOM_STATE, Reg.PWR_IRQ_STATUS]; omega),
    f_setReg_ne _ (by simp only [Reg.PWR_DOM_STATE, Reg.PWR_REFUSE_LAST]; omega),
    f_setF_field _ _ (by decide) (by decide) (by decide),
    f_incSat_ne _ (by simp only [Reg.PWR_DOM_STATE, Reg.PWR_DOM_CNT]; omega), State.dom]

theorem wakeHeld_facts (hd : d < 16) : (s.wakeHeld d).dom d = s.dom d ∧ (s.wakeHeld d).pwr.heldWake = true ∧
    (s.wakeHeld d).mem = s.mem := by
  obtain ⟨h1, h2⟩ := pwrAborted_facts s d hd
  exact ⟨h1, rfl, h2⟩

end

/-! ### The commands of the steps -/

/-- What follows a step. -/
def State.stepped (x : State) (edge : Tick) : State := (x.domMoved edge).thermalFall

section
variable {u : State} {d : Nat}

theorem stepReady_none (h : u.stepAt d = none) : u.stepReady d = u := by
  unfold State.stepReady
  rw [h]

theorem stepReady_up {b : Tick} (h : u.stepAt d = some b) (h1 : 1 ≤ u.dom d) (h4 : u.dom d ≤ 4) :
    u.stepReady d = (u.upReady d (u.dom d) u.now).stepped u.now := by
  unfold State.stepReady
  rw [h]
  exact congrArg (fun x => State.stepped x u.now) (if_pos (by
    simp only [Bool.and_eq_true, decide_eq_true_eq]
    exact ⟨h1, h4⟩))

theorem stepReady_down {b : Tick} (h : u.stepAt d = some b) (h6 : 6 ≤ u.dom d) (h9 : u.dom d ≤ 9) :
    u.stepReady d = (u.downReady d (u.dom d) u.now).stepped u.now := by
  unfold State.stepReady
  rw [h]
  refine congrArg (fun x => State.stepped x u.now) ((if_neg ?_).trans (if_pos ?_))
  · simp only [Bool.and_eq_true, decide_eq_true_eq]
    exact fun hc => absurd (show u.dom d ≤ 4 from hc.2) (by omega)
  · simp only [Bool.and_eq_true, decide_eq_true_eq]
    exact ⟨h6, h9⟩

/-- A step that took too long fails its domain (R408). -/
def State.domFailed (u : State) (d : Nat) : State :=
  (((u.domReset d).setDom d dFAILED).setF (Reg.PWR_DOM_STATE d) 5 4 0).setB Reg.PWR_IRQ_STATUS 0 true

theorem domFailed_facts (u : State) (d : Nat) (hd : d < 16) : (u.domFailed d).now = u.now ∧ (u.domFailed d).dom d = 10 ∧
    (u.domFailed d).fb Reg.PWR_IRQ_STATUS 0 = true := by
  rw [State.domFailed]
  refine ⟨?_, ?_, fb_setB_self _ _ (by decide) _⟩
  · rw [← domReset_now u d, State.now, setB_clk, setF_clk]
    rfl
  · rw [State.dom, f_setB_ne _ (by simp only [Reg.PWR_DOM_STATE, Reg.PWR_IRQ_STATUS]; omega),
      f_setF_field _ _ (by decide) (by decide) (by decide), ← State.dom, dom_setDom _ _ (by decide)]
    rfl

end

section
variable {s : State} {t : Tick} {d : Fin 16}

theorem domFail_none (h : (s.at t).stepAt d = none) : exec (.domFail t d) s = .next (s.at t) := by
  have hx : exec (.domFail t d) s = execDomFail t d s := rfl
  rw [hx]
  unfold execDomFail
  dsimp only
  rw [h]

theorem domFail_some {b : Tick} (h : (s.at t).stepAt d = some b) : exec (.domFail t d) s =
    if b + 4 * stepMax d ((s.at t).dom d) ≤ (s.at t).now then
      .next ((((s.at t).domFailed d).raise srcPWR 0).stepped ((s.at t).domFailed d).now) else .next (s.at t) := by
  have hx : exec (.domFail t d) s = execDomFail t d s := rfl
  rw [hx]
  unfold execDomFail
  dsimp only
  rw [h]
  rfl

end

/-! ### ARCHIVE (R411–R413) -/

/-- The domains begin to go down for ARCHIVE. -/
def State.archiveLower (y : State) (edge : Tick) : State :=
  { y with pwr := { y.pwr with archive := true, want := []
                               wantOff := (List.range 16).filter fun d => 2 ≤ d && !y.domDown d
                               left := (List.range 16).filter fun d => 2 ≤ d && !y.domDown d } }.lowerReady edge

section
variable {s : State} {t : Tick} {y : State} {edge : Tick} (he : (s.at t).now = edge) (hy : (s.at t).pwrEdge edge = y)
include he hy

theorem archiveWait_waits (h : y.pwr.archAt = none ∨ y.pwr.archive = true ∨ y.coresIdle = false ∨ y.dmaBusy = true) :
    exec (.archiveWaitEnd t) s = .next y := by
  have hx : exec (.archiveWaitEnd t) s = execArchiveWaitEnd t s := rfl
  rw [hx]
  unfold execArchiveWaitEnd
  dsimp only
  rw [he, hy]
  refine if_pos ?_
  rcases h with h | h | h | h <;> simp [h]

variable (h1 : y.pwr.archAt ≠ none) (h2 : y.pwr.archive = false) (h3 : y.coresIdle = true) (h4 : y.dmaBusy = false)
  (h5 : ∀ e ∈ archiveSet, Tab.get none y.pwr.onAt e ≠ some edge)
include h1 h2 h3 h4 h5

theorem archiveWait_vreq (hv : y.vreqPending = true) :
    exec (.archiveWaitEnd t) s = .next (y.archiveRefuse 2 7).takeHeld := by
  have hf : archiveSet.find? (fun d => Tab.get none y.pwr.onAt d == some edge) = none :=
    List.find?_eq_none.mpr fun e he => by simp [h5 e he]
  have hx : exec (.archiveWaitEnd t) s = execArchiveWaitEnd t s := rfl
  rw [hx]
  unfold execArchiveWaitEnd
  dsimp only
  rw [he, hy, hf, if_neg (by simp [h1, h2, h3, h4])]
  exact if_pos hv

theorem archiveWait_lowers (hv : y.vreqPending = false) (hq : ∀ e ∈ archiveSet, y.queueHolds e = false) :
    exec (.archiveWaitEnd t) s = .next (y.archiveLower edge) := by
  have hf : archiveSet.find? (fun d => Tab.get none y.pwr.onAt d == some edge) = none :=
    List.find?_eq_none.mpr fun e he => by simp [h5 e he]
  have hf' : archiveSet.find? y.queueHolds = none := List.find?_eq_none.mpr fun e he => by simp [hq e he]
  have hx : exec (.archiveWaitEnd t) s = execArchiveWaitEnd t s := rfl
  rw [hx]
  unfold execArchiveWaitEnd
  dsimp only
  rw [he, hy, hf, if_neg (by simp [h1, h2, h3, h4])]
  dsimp only
  rw [if_neg (by simp [hv]), hf']
  rfl

end

section
variable {s : State} {t : Tick}

theorem archiveTimeout_none (h : (s.at t).pwr.archAt = none) : exec (.archiveWaitTimeout t) s = .next (s.at t) := by
  have hx : exec (.archiveWaitTimeout t) s = execArchiveWaitTimeout t s := rfl
  rw [hx]
  unfold execArchiveWaitTimeout
  dsimp only
  rw [h]

theorem archiveTimeout_some {a : Tick} (h : (s.at t).pwr.archAt = some a) : exec (.archiveWaitTimeout t) s =
    if ((s.at t).pwr.archive || decide ((s.at t).now < a + 6400000) || ((s.at t).coresIdle && !(s.at t).dmaBusy)) = true then
      .next (s.at t)
    else .next (((s.at t).archiveRefuse 2 (if (s.at t).coresIdle then 4 else 3)).takeHeld) := by
  have hx : exec (.archiveWaitTimeout t) s = execArchiveWaitTimeout t s := rfl
  rw [hx]
  unfold execArchiveWaitTimeout
  dsimp only
  rw [h]

/-! ### Wakes (R412) -/

theorem wakeTimer_none (h : (s.at t).pwr.archIn = none) : exec (.wakeTimer t) s = .next (s.at t) := by
  have hx : exec (.wakeTimer t) s = execWakeTimer t s := rfl
  rw [hx]
  unfold execWakeTimer
  dsimp only
  rw [h]

theorem wakeTimer_some {a : Tick} (h : (s.at t).pwr.archIn = some a) : exec (.wakeTimer t) s =
    if ((s.at t).mode == .archive && decide (((s.at t).reg Reg.PWR_WAKE_TIMER).toNat ≠ 0) &&
      decide (a + ((s.at t).reg Reg.PWR_WAKE_TIMER).toNat * ms ≤ (s.at t).now)) = true then .next ((s.at t).wakeEvent 2)
    else .next (s.at t) := by
  have hx : exec (.wakeTimer t) s = execWakeTimer t s := rfl
  rw [hx]
  unfold execWakeTimer
  dsimp only
  rw [h]

theorem wakeDue_iff {a : Tick} : ((s.at t).mode == .archive && decide (((s.at t).reg Reg.PWR_WAKE_TIMER).toNat ≠ 0) &&
      decide (a + ((s.at t).reg Reg.PWR_WAKE_TIMER).toNat * ms ≤ (s.at t).now)) = true ↔
    (s.at t).mode = .archive ∧ ((s.at t).reg Reg.PWR_WAKE_TIMER).toNat ≠ 0 ∧
      a + ((s.at t).reg Reg.PWR_WAKE_TIMER).toNat * 6400000 ≤ (s.at t).now := by
  simp only [Bool.and_eq_true, beq_iff_eq, decide_eq_true_eq, and_assoc]
  rfl

/-- The samples of WAKE_N are taken. -/
def State.wakeSamples (u : State) (ls : List Bool) : State :=
  { u with pwr := { u.pwr with wakeIn := ls.foldl (fun x v => x.sample 7 v) u.pwr.wakeIn } }

theorem wakeN_next (ls : List Bool) : exec (.wakeN ⟨t, ls⟩) s = .next (if (s.at t).fb Reg.PWR_WAKE_CFG 0 = true ∧
    (s.at t).pwr.wakeIn.falls 7 ((s.at t).pwr.wakeIn.level.getD false) ls = true then ((s.at t).wakeSamples ls).wakeEvent 2
    else (s.at t).wakeSamples ls) := by
  have hx : exec (.wakeN ⟨t, ls⟩) s = execWakeN ⟨t, ls⟩ s := rfl
  rw [hx]
  unfold execWakeN State.wakeSamples
  dsimp only
  generalize s.at t = u
  by_cases h : u.fb Reg.PWR_WAKE_CFG 0 = true ∧ u.pwr.wakeIn.falls 7 (u.pwr.wakeIn.level.getD false) ls = true
  · rw [if_pos h]
    exact if_pos ((Bool.and_eq_true _ _).mpr h)
  · rw [if_neg h]
    exact if_neg (mt (Bool.and_eq_true _ _).mp h)

theorem wakeEvent_shut {x : State} (e : Nat) (h : x.pwr.shut = true) : x.wakeEvent e = x := by
  rw [State.wakeEvent]
  exact if_pos h

theorem wakeEvent_open {x : State} (e : Nat) (h : x.pwr.shut = false) : x.wakeEvent e =
    if x.mode = .archive ∧ x.trans = false ∧ e = 2 then x.crst
    else { x with pwr := { x.pwr with reqs := x.pwr.reqs ++ [{ due := nextMultiple 256 x.now, kind := .wake e }] } } := by
  rw [State.wakeEvent]
  refine (if_neg (by simp [h])).trans ?_
  congr 1
  simp only [Bool.and_eq_true, beq_iff_eq, Bool.not_eq_true', decide_eq_true_eq, and_assoc]

end

/-- An input that has been taken as low stays so. -/
theorem falls_low (filt : Nat) (f : InFilter) (n : Nat) : f.falls filt false (List.replicate n false) = false := by
  induction n generalizing f with
  | zero => rfl
  | succ n ih =>
    rw [List.replicate_succ, InFilter.falls]
    rw [ite_self, ih]
    rfl

/-- `r` low samples in a row, and more to come. -/
theorem falls_high {f : InFilter} {r : Nat} (hr : r ≤ 7) (n : Nat) (h : f.raw = false) (hf : f.run = r) (h1 : 1 ≤ r) :
    f.falls 7 true (List.replicate n false) = decide (7 < r + n ∧ n ≠ 0) := by
  induction n generalizing f r with
  | zero => simp [InFilter.falls]
  | succ n ih =>
    have hrun : (f.sample 7 false).run = r + 1 := by
      rw [InFilter.sample, h, hf]
      dsimp only
      rw [if_pos (by simp; omega)]
      omega
    rw [List.replicate_succ, InFilter.falls]
    rw [hrun]
    by_cases h7 : r = 7
    · subst h7
      rw [if_pos (by decide)]
      simp
    · rw [if_neg (by omega), ih (r := r + 1) (by omega) rfl hrun (by omega)]
      change (false || decide (7 < r + 1 + n ∧ n ≠ 0)) = _
      rw [Bool.false_or, decide_eq_decide]
      omega

/-- From no low sample, eight low samples in a row are a fall. -/
theorem falls_replicate {f : InFilter} (n : Nat) (v : Bool) (h : f.raw = true ∨ f.run = 0) :
    f.falls 7 v (List.replicate n false) = (v && decide (7 < n)) := by
  cases v with
  | false => rw [falls_low, Bool.false_and]
  | true =>
    cases n with
    | zero => rfl
    | succ n =>
      have hrun : (f.sample 7 false).run = 1 := by
        rw [InFilter.sample]
        exact if_neg (by rcases h with h | h <;> simp [h])
      rw [List.replicate_succ, InFilter.falls]
      rw [hrun, if_neg (by decide), falls_high (r := 1) (by decide) n rfl hrun (by decide)]
      change (false || decide (7 < 1 + n ∧ n ≠ 0)) = (true && decide (7 < n + 1))
      rw [Bool.false_or, Bool.true_and, decide_eq_decide]
      omega

/-- Settles O51: a step's state is that of the domain's register field, and eight low samples from a high one are a fall. -/
theorem powerDomains : Obligations.PowerDomains := by
  intro s t d
  have hdone := downDone_facts (s.at t) d
  refine ⟨rfl, rfl, fun h => ⟨congrArg _ (stepReady_none h), domFail_none h⟩, fun b hb => ⟨fun h1 h3 hr => ?_, fun h1 h4 hr => ?_,
    fun h4 hr => ?_, fun h6 => ?_, fun h => ?_, fun h9 hp => ?_, fun h9 hp hd ha => ?_, fun h9 hp hd => ?_, fun hn => ?_,
    fun hn => ?_⟩, ⟨fun h => ?_, fun h1 h2 h3 h4 h5 => ⟨fun hv => ?_, fun hv hq => ?_⟩⟩, fun a ha => ⟨fun h => ?_, fun h hn hc => ?_⟩,
    archiveTimeout_none, fun ls => ?_, fun f n v h => falls_replicate n v h,
    fun x e => ⟨wakeEvent_shut e, wakeEvent_open e⟩, fun a ha => ⟨fun h => ?_, fun h => ?_⟩, wakeTimer_none⟩
  · refine ⟨_, congrArg _ ((stepReady_up hb h1 (by omega)).trans ?_), upNext_facts (s.at t) d (s.at t).now h3⟩
    rw [upReady_next _ _ _ h3 hr]
    rfl
  · refine ⟨_, congrArg _ ((stepReady_up hb h1 h4).trans ?_), upBack_facts (s.at t) d _ (s.at t).now⟩
    rw [upReady_back _ _ _ _ hr]
    rfl
  · refine ⟨_, congrArg _ ((stepReady_up hb (by omega) (by omega)).trans ?_), upDone_facts (s.at t) d (s.at t).now⟩
    rw [h4, upReady_done _ _ _ hr]
    rfl
  · refine congrArg _ ((stepReady_down hb (by omega) (by omega)).trans ?_)
    rw [h6]
    rfl
  · refine ⟨_, congrArg _ ((stepReady_down hb (by omega) (by omega)).trans ?_), downNext_facts (s.at t) d (s.at t).now h⟩
    rw [downReady_next _ _ _ h]
    rfl
  · refine ⟨_, congrArg _ ((stepReady_down hb (by omega) (by omega)).trans ?_), hdone.1, hdone.2.2⟩
    rw [h9, downReady_done, if_pos (by simp [hp])]
    rfl
  · obtain ⟨k1, k2, k3⟩ := wakeHeld_facts ((s.at t).downDone d) d d.isLt
    refine ⟨_, congrArg _ ((stepReady_down hb (by omega) (by omega)).trans ?_), k1.trans hdone.1, k2, k3.trans hdone.2.2⟩
    rw [h9, downReady_done, if_neg (by simp [hp]), downDone_archive, if_pos (by simp [hd, ha])]
    rfl
  · refine ⟨_, congrArg _ ((stepReady_down hb (by omega) (by omega)).trans ?_), hdone⟩
    rw [h9, downReady_done, if_neg (by simp [hp]), downDone_archive, if_neg (by rcases hd with hd | hd <;> simp [hd])]
    rfl
  · exact (domFail_some hb).trans (if_neg (Nat.not_le.mpr hn))
  · obtain ⟨f1, f2, f3⟩ := domFailed_facts (s.at t) d d.isLt
    refine ⟨_, (domFail_some hb).trans ((if_pos hn).trans ?_), f2, f3⟩
    rw [f1]
    rfl
  · exact archiveWait_waits rfl rfl h
  · exact archiveWait_vreq rfl rfl h1 h2 h3 h4 h5 hv
  · exact archiveWait_lowers rfl rfl h1 h2 h3 h4 h5 hv hq
  · refine (archiveTimeout_some ha).trans (if_pos ?_)
    rcases h with h | h <;> simp [h]
  · refine (archiveTimeout_some ha).trans (if_neg ?_)
    rw [h, decide_eq_false (Nat.not_lt.mpr hn)]
    rcases hc with hc | hc <;> simp [hc]
  · exact wakeN_next ls
  · exact (wakeTimer_some ha).trans (if_pos (wakeDue_iff.mpr h))
  · exact (wakeTimer_some ha).trans (if_neg (mt wakeDue_iff.mp h))

end Sys2Proof.Machine
end

section
/-! Voltage requests over PMBus. -/

namespace Sys2Proof.Machine

/-- A part of a field. -/
theorem f_sub (s : State) (a : Nat) {hi lo hi' lo' : Nat} (h : lo ≤ lo') (h' : hi' ≤ hi) :
    s.f a hi' lo' = s.f a hi lo / 2 ^ (lo' - lo) % 2 ^ (hi' + 1 - lo') := by
  rw [State.f, State.f, bits, bits]
  refine Nat.eq_of_testBit_eq fun i => ?_
  simp only [Nat.testBit_mod_two_pow, Nat.testBit_div_two_pow]
  rw [show i + (lo' - lo) + lo = i + lo' by omega]
  by_cases hi : i < hi' + 1 - lo'
  · rw [decide_eq_true hi, decide_eq_true (show i + (lo' - lo) < _ by omega), Bool.true_and, Bool.true_and]
  · rw [decide_eq_false hi, Bool.false_and, Bool.false_and]

section
variable (s : State)

/-! ### How a request ends (R416) -/

/-- What the end of a voltage request shows. -/
def VreqEnded (x y : State) (st cause : Nat) : Prop :=
  ∃ v : State, y = v.startRegs x.now ∧ v.f Reg.PWR_VREQ_STATUS 1 0 = st ∧ v.f Reg.PWR_VREQ_STATUS 4 2 = cause ∧
    v.fb Reg.PWR_IRQ_STATUS 2 = true ∧ v.mem = x.mem

theorem vreqEnd_facts {st cause : Nat} (h : st < 4) (h' : cause < 8) :
    (s.vreqEnd st cause).f Reg.PWR_VREQ_STATUS 1 0 = st ∧ (s.vreqEnd st cause).f Reg.PWR_VREQ_STATUS 4 2 = cause ∧
    (s.vreqEnd st cause).fb Reg.PWR_IRQ_STATUS 2 = true ∧ (s.vreqEnd st cause).mem = s.mem := by
  rw [State.vreqEnd]
  refine ⟨?_, ?_, fb_setB_self _ _ (by decide) _, by rw [setB_mem, setF_mem, setF_mem]⟩
  · rw [f_setB_ne _ (by decide), f_setF_field _ _ (by decide) (by decide) (by decide), f_setF_self _ _ (by decide) (by decide)]
    exact Nat.mod_eq_of_lt h
  · rw [f_setB_ne _ (by decide), f_setF_self _ _ (by decide) (by decide)]
    exact Nat.mod_eq_of_lt h'

theorem vreqEnded_end {x u : State} {st cause : Nat} (h : st < 4) (h' : cause < 8) (hm : u.mem = x.mem) :
    VreqEnded x ((u.vreqEnd st cause).startRegs x.now) st cause := by
  obtain ⟨h1, h2, h3, h4⟩ := vreqEnd_facts u h h'
  exact ⟨_, rfl, h1, h2, h3, h4.trans hm⟩

theorem vreqEnded_raise (x : State) {st cause ev : Nat} (h : st < 4) (h' : cause < 8) :
    VreqEnded x (((x.vreqEnd st cause).raise srcPWR ev).startRegs x.now) st cause := by
  obtain ⟨h1, h2, h3, h4⟩ := vreqEnd_facts x h h'
  exact ⟨_, rfl, h1, h2, h3, h4⟩

/-! ### Requests and readings -/

theorem vreqStart_next (t : Tick) (w : Word) : exec (.vreqStart t w) s = .next ((s.at t).vreqStart w) := rfl

theorem vreqStart_pending (w : Word) (h : s.vreqPending = true) : s.vreqStart w = s.setB Reg.PWR_VREQ_STATUS 5 true := by
  rw [State.vreqStart]
  exact if_pos h

/-- A request begins. -/
def State.vreqBegun (s : State) (w : Word) : State :=
  { (s.setReg Reg.PWR_VREQ_B w).setF Reg.PWR_VREQ_STATUS 4 0 1 with pwr := { s.pwr with vreqGood := 0, vreqAt := s.now } }

theorem vreqStart_idle (w : Word) (h : s.vreqPending = false) : s.vreqStart w = s.vreqBegun w := by
  rw [State.vreqStart]
  exact if_neg (Bool.eq_false_iff.mp h)

theorem vreqBegun_facts (w : Word) : (s.vreqBegun w).vreqPending = true ∧ (s.vreqBegun w).reg Reg.PWR_VREQ_B = w ∧
    (s.vreqBegun w).f Reg.PWR_VREQ_STATUS 4 2 = 0 ∧ (s.vreqBegun w).pwr.vreqGood = 0 ∧ (s.vreqBegun w).pwr.vreqAt = s.now ∧
    (s.vreqBegun w).mem = s.mem := by
  have hr : (s.vreqBegun w).regs = ((s.setReg Reg.PWR_VREQ_B w).setF Reg.PWR_VREQ_STATUS 4 0 1).regs := rfl
  have hf : (s.vreqBegun w).f Reg.PWR_VREQ_STATUS 4 0 = 1 := by
    rw [f_of_regs hr, f_setF_self _ _ (by decide) (by decide)]
    rfl
  refine ⟨?_, ?_, ?_, rfl, rfl, rfl⟩
  · rw [State.vreqPending, f_sub _ _ (hi := 4) (lo := 0) (by decide) (by decide), hf]
    rfl
  · rw [reg_of_regs hr, reg_setF_ne _ (by decide), reg_setReg_self]
  · rw [f_sub _ _ (hi := 4) (lo := 0) (by decide) (by decide), hf]
    rfl

/-- A reading is shown, and the good ones in a row are counted. -/
def State.vreqRead (s : State) (r n : Nat) : State :=
  { s.setF Reg.PWR_VREQ_STATUS 31 16 r with pwr := { s.pwr with vreqGood := n } }

theorem vreqRead_facts (r : BitVec 16) (n : Nat) : (s.vreqRead r.toNat n).pwr.vreqGood = n ∧
    (s.vreqRead r.toNat n).vreqPending = s.vreqPending ∧ (s.vreqRead r.toNat n).f Reg.PWR_VREQ_STATUS 31 16 = r.toNat ∧
    (s.vreqRead r.toNat n).mem = s.mem := by
  have hr : (s.vreqRead r.toNat n).regs = (s.setF Reg.PWR_VREQ_STATUS 31 16 r.toNat).regs := rfl
  refine ⟨rfl, ?_, ?_, rfl⟩
  · rw [State.vreqPending, f_of_regs hr, f_setF_field _ _ (by decide) (by decide) (by decide), State.vreqPending]
  · rw [f_of_regs hr, f_setF_self _ _ (by decide) (by decide)]
    exact Nat.mod_eq_of_lt r.isLt

end

section
variable {s : State} {t : Tick} {r : BitVec 16}

theorem vreqPoll_idle (h : (s.at t).vreqPending = false) (a : Fin 4) : exec (.vreqPoll t a r) s = .next (s.at t) :=
  if_pos (by rw [h]; rfl)

theorem vreqTimeout_idle (h : (s.at t).vreqPending = false) : exec (.vreqTimeout t) s = .next (s.at t) :=
  if_neg (by rw [h]; exact Bool.false_ne_true)

variable (h : (s.at t).vreqPending = true)
include h

theorem vreqPoll_nack {a : Fin 4} (ha : a = 1 ∨ a = 2) : exec (.vreqPoll t a r) s =
    .next ((((s.at t).vreqEnd 3 a).raise srcPWR 2).startRegs (s.at t).now) :=
  (if_neg (by rw [h]; decide)).trans (if_pos (by rcases ha with ha | ha <;> simp [ha]))

theorem vreqPoll_mode : exec (.vreqPoll t 3 r) s = .next (((s.at t).vreqEnd 3 3).startRegs (s.at t).now) :=
  (if_neg (by rw [h]; decide)).trans ((if_neg (by decide)).trans (if_pos rfl))

/-- The reading lies within the tolerance of the request. -/
def State.vreqInTol (u : State) (r : Nat) : Prop :=
  r ≤ u.f Reg.PWR_VREQ_B 15 0 + u.f Reg.PWR_VREQ_B 31 16 ∧ u.f Reg.PWR_VREQ_B 15 0 ≤ r + u.f Reg.PWR_VREQ_B 31 16

theorem vreqPoll_read {n : Nat} (hn : n = if (decide (r.toNat ≤ (s.at t).f Reg.PWR_VREQ_B 15 0 + (s.at t).f Reg.PWR_VREQ_B 31 16) &&
      decide ((s.at t).f Reg.PWR_VREQ_B 15 0 ≤ r.toNat + (s.at t).f Reg.PWR_VREQ_B 31 16)) = true
      then (s.at t).pwr.vreqGood + 1 else 0) : exec (.vreqPoll t 0 r) s =
    if 2 ≤ n then .next ((((s.at t).vreqRead r.toNat n).vreqEnd 2 0).startRegs (s.at t).now)
    else .next ((s.at t).vreqRead r.toNat n) := by
  subst hn
  have hx : exec (.vreqPoll t 0 r) s = execVreqPoll t 0 r s := rfl
  rw [hx]
  unfold execVreqPoll
  dsimp only
  generalize s.at t = u at *
  rw [if_neg (by rw [h]; decide), if_neg (by decide), if_neg (by decide),
    f_setF_ne u (show Reg.PWR_VREQ_B ≠ Reg.PWR_VREQ_STATUS by decide),
    f_setF_ne u (show Reg.PWR_VREQ_B ≠ Reg.PWR_VREQ_STATUS by decide), setF_pwr]
  rfl

theorem vreqPoll_good (hg : (s.at t).vreqInTol r.toNat) : exec (.vreqPoll t 0 r) s =
    if 2 ≤ (s.at t).pwr.vreqGood + 1 then
      .next ((((s.at t).vreqRead r.toNat ((s.at t).pwr.vreqGood + 1)).vreqEnd 2 0).startRegs (s.at t).now)
    else .next ((s.at t).vreqRead r.toNat ((s.at t).pwr.vreqGood + 1)) := by
  obtain ⟨g1, g2⟩ := hg
  exact vreqPoll_read h (if_pos (by simp [g1, g2])).symm

theorem vreqPoll_bad (hg : ¬ (s.at t).vreqInTol r.toNat) : exec (.vreqPoll t 0 r) s =
    .next ((s.at t).vreqRead r.toNat 0) := by
  refine (vreqPoll_read h (n := 0) (if_neg ?_).symm).trans (if_neg (by decide))
  rw [Bool.and_eq_true, decide_eq_true_eq, decide_eq_true_eq]
  exact hg

theorem vreqTimeout_due (hd : (s.at t).pwr.vreqAt + (s.at t).f Reg.PWR_VREQ_TO 15 0 * 6400000 ≤ (s.at t).now) :
    exec (.vreqTimeout t) s = .next ((((s.at t).vreqEnd 3 4).raise srcPWR 1).startRegs (s.at t).now) :=
  if_pos (by rw [h, Bool.true_and, decide_eq_true_eq]; exact hd)

theorem vreqTimeout_waits (hd : ¬ (s.at t).pwr.vreqAt + (s.at t).f Reg.PWR_VREQ_TO 15 0 * 6400000 ≤ (s.at t).now) :
    exec (.vreqTimeout t) s = .next (s.at t) :=
  if_neg (by rw [h, Bool.true_and, decide_eq_true_eq]; exact hd)

end

end Sys2Proof.Machine
end

section
/-! The rail sequencer: its inputs, its rails and its latches. -/

namespace Sys2Proof.Machine

/-! ### Enables as bits of a number -/

/-- Taking a set bit away leaves the others. -/
theorem testBit_sub_two_pow {e i : Nat} (h : e.testBit i = true) (j : Nat) :
    (e - 2 ^ i).testBit j = (e.testBit j && decide (j ≠ i)) := by
  have hlt : e % 2 ^ i < 2 ^ i := Nat.mod_lt _ (Nat.two_pow_pos i)
  have hodd : e / 2 ^ i % 2 = 1 := by
    rw [Nat.testBit_eq_decide_div_mod_eq, decide_eq_true_eq] at h
    exact h
  have he : e = 2 ^ i * (e / 2 ^ i) + e % 2 ^ i := (Nat.div_add_mod e (2 ^ i)).symm
  generalize e / 2 ^ i = q at *
  generalize e % 2 ^ i = r at *
  subst he
  obtain ⟨k, rfl⟩ : ∃ k, q = 2 * k + 1 := ⟨q / 2, by omega⟩
  have hs : 2 ^ i * (2 * k + 1) + r - 2 ^ i = 2 ^ i * (2 * k) + r := by
    rw [Nat.mul_add, Nat.mul_one, Nat.add_right_comm, Nat.add_sub_cancel]
  rw [hs]
  rw [Nat.testBit_two_pow_mul_add _ hlt, Nat.testBit_two_pow_mul_add _ hlt]
  by_cases hj : j < i
  · rw [if_pos hj, if_pos hj, decide_eq_true (by omega), Bool.and_true]
  · rw [if_neg hj, if_neg hj]
    cases hd : j - i with
    | zero =>
      rw [decide_eq_false (by omega), Bool.and_false, Nat.testBit_zero, Nat.mul_mod_right]
      rfl
    | succ m =>
      rw [decide_eq_true (by omega), Bool.and_true, Nat.testBit_succ, Nat.testBit_succ, show (2 * k + 1) / 2 = 2 * k / 2 by omega]

section
variable (s : State) (i : Nat)

theorem railOn_setRail_on : (s.setRail i true).railOn i = true := by
  rw [State.railOn, State.setRail]
  dsimp only
  rw [if_pos rfl, Nat.testBit_or, Nat.testBit_two_pow_self, Bool.or_true]

theorem railOn_setRail_off (h : s.railOn i = true) (j : Nat) :
    (s.setRail i false).railOn j = (s.railOn j && decide (j ≠ i)) := by
  rw [State.railOn] at h
  rw [State.railOn, State.setRail]
  dsimp only
  rw [if_neg (by decide), if_pos h, testBit_sub_two_pow h]
  rfl

/-! ### States of the sequencer -/

theorem seqState_setSeq {n : Nat} (h : n < 8) : (s.setSeq n).seqState = n :=
  (f_setF_self s Reg.PWR_SEQ_STATUS (hi := 2) (lo := 0) (by decide) (by decide) n).trans (Nat.mod_eq_of_lt h)

theorem fb_setSeq (n : Nat) {j : Nat} (h : 2 < j) : (s.setSeq n).fb Reg.PWR_SEQ_STATUS j = s.fb Reg.PWR_SEQ_STATUS j :=
  fb_setF_field s (a := Reg.PWR_SEQ_STATUS) (hi := 2) (lo := 0) (by decide) (by decide) (Or.inr h) n

theorem seqState_setB {j : Nat} (h : 2 < j) (h' : j < 32) (b : Bool) :
    (s.setB Reg.PWR_SEQ_STATUS j b).seqState = s.seqState := f_setB_field s (hi := 2) (lo := 0) h' (Or.inl h) b

theorem railEn_fallDone : s.fallDone.pwr.railEn = s.pwr.railEn := rfl

/-- The rails are lowered from the highest (R418). -/
theorem fallNext_highest {i : Nat} (hi : i < 8) (h : s.railOn i = true) (hj : ∀ j < 8, i < j → s.railOn j = false) :
    s.fallNext.railOn i = false ∧ ∀ j < 8, j ≠ i → s.fallNext.railOn j = s.railOn j := by
  have hf : (List.range 8).reverse.find? s.railOn = some i := by
    have hl : (List.range 8).reverse = [7, 6, 5, 4, 3, 2, 1, 0] := by decide
    rw [hl]
    have hk : ∀ k < 8, i < k → ¬ s.railOn k = true := fun k h8 hik => by simp [hj k h8 hik]
    interval_cases i <;> simp [h, hj]
  have he : s.fallNext.pwr.railEn = (s.setRail i false).pwr.railEn := by
    unfold State.fallNext
    rw [hf]
    dsimp only
    split <;> rfl
  have hr : ∀ j, s.fallNext.railOn j = (s.railOn j && decide (j ≠ i)) := fun j => by
    rw [State.railOn, he, ← State.railOn, railOn_setRail_off s i h j]
  exact ⟨by rw [hr]; simp, fun j _ hn => by rw [hr, decide_eq_true hn, Bool.and_true]⟩

/-! ### Power-good inputs (R417, R418) -/

theorem railGood_waits (h : s.seqState ≠ 1 ∨ s.pwr.seqGap = true ∨ s.fb Reg.PWR_SEQ_STATUS (16 + s.pwr.seqRail) = false) :
    s.railGood = s := by
  rw [State.railGood]
  refine if_neg ?_
  rcases h with h | h | h
  · rw [decide_eq_false (show ¬ s.seqState = qRISE from h)]
    simp
  · simp [h]
  · simp [h]

/-- The rail that rose is followed after GAP. -/
def State.railRisen (s : State) : State := { s with pwr := { s.pwr with seqGap := true, seqAt := s.now } }

/-- The last rail rose. -/
def State.railsUp (s : State) : State :=
  { (s.setSeq qUP).setB Reg.PWR_SEQ_STATUS 13 true with
    pwr := { ((s.setSeq qUP).setB Reg.PWR_SEQ_STATUS 13 true).pwr with porHeld := true } }

theorem railGood_rises (h1 : s.seqState = 1) (hg : s.pwr.seqGap = false)
    (hp : s.fb Reg.PWR_SEQ_STATUS (16 + s.pwr.seqRail) = true) :
    s.railGood = if s.pwr.seqRail < 7 then s.railRisen else s.railsUp := by
  rw [State.railGood]
  refine if_pos ?_
  rw [hg, hp, decide_eq_true (show s.seqState = qRISE from h1)]
  rfl

theorem railsUp_facts : s.railsUp.mem = s.mem ∧ s.railsUp.seqState = 2 ∧ s.railsUp.fb Reg.PWR_SEQ_STATUS 13 = true ∧
    s.railsUp.pwr.porHeld = true := by
  have hr : s.railsUp.regs = ((s.setSeq qUP).setB Reg.PWR_SEQ_STATUS 13 true).regs := rfl
  have hm : s.railsUp.mem = s.mem := by
    rw [State.railsUp, setB_mem]
    rfl
  refine ⟨hm, ?_, ?_, rfl⟩
  · rw [State.seqState, f_of_regs hr, ← State.seqState, seqState_setB _ (by decide) (by decide), seqState_setSeq _ (by decide)]
    rfl
  · rw [fb_of_regs hr, fb_setB_self _ _ (by decide)]

theorem railGood_facts {i : Nat} (h1 : s.seqState = 1) (hg : s.pwr.seqGap = false) (hk : s.pwr.seqRail = i)
    (hp : s.pgood i = true) : s.railGood.mem = s.mem ∧
      (i < 7 → s.railGood.pwr.seqGap = true ∧ s.railGood.pwr.seqAt = s.now ∧ s.railGood.seqState = 1) ∧
      (i = 7 → s.railGood.seqState = 2 ∧ s.railGood.fb Reg.PWR_SEQ_STATUS 13 = true ∧ s.railGood.pwr.porHeld = true) := by
  subst hk
  obtain ⟨um, us, ub, up⟩ := railsUp_facts s
  rw [railGood_rises s h1 hg hp]
  by_cases h7 : s.pwr.seqRail < 7
  · rw [if_pos h7]
    exact ⟨rfl, fun _ => ⟨rfl, rfl, h1⟩, fun h => absurd h7 (by omega)⟩
  · rw [if_neg h7]
    exact ⟨um, fun h => absurd h h7, fun _ => ⟨us, ub, up⟩⟩

/-- The filter and the level of PGOODi after some samples. -/
def State.pgAfter (s : State) (i : Nat) (ls : List Bool) : InFilter × Bool :=
  (Tab.get {} s.pwr.pgIn i).after 7 (s.pgood i) ls

theorem pgSamples_eq (ls : List Bool) : s.pgSamples i ls =
    { s with pwr := { s.pwr with pgIn := Tab.put {} s.pwr.pgIn i (s.pgAfter i ls).1 } }.setB Reg.PWR_SEQ_STATUS (16 + i)
      (s.pgAfter i ls).2 := rfl

variable {i} in
theorem pgSamples_facts (hi : i < 8) (ls : List Bool) : (s.pgSamples i ls).mem = s.mem ∧
    (s.pgSamples i ls).seqState = s.seqState ∧ (s.pgSamples i ls).pwr = { s.pwr with pgIn := (s.pgSamples i ls).pwr.pgIn } ∧
    (s.pgSamples i ls).pgood i = (s.pgAfter i ls).2 := by
  rw [pgSamples_eq]
  refine ⟨setB_mem _ _ _ _, (seqState_setB _ (by omega) (by omega) _).trans rfl, by rw [setB_pwr], ?_⟩
  rw [State.pgood, fb_setB_self _ _ (by omega)]

end

theorem after_cons (f : InFilter) (filt : Nat) (now v : Bool) (ls : List Bool) : f.after filt now (v :: ls) =
    (f.sample filt v).after filt (if filt < (f.sample filt v).run then v else now) ls := rfl

/-- An input stays at the level of its samples. -/
theorem after_same (f : InFilter) (v : Bool) (n : Nat) : (f.after 7 v (List.replicate n v)).2 = v := by
  induction n generalizing f with
  | zero => rfl
  | succ n ih => rw [List.replicate_succ, after_cons, ite_self, ih]

/-- `r` samples in a row at a level, and more to come. -/
theorem after_run {f : InFilter} {r : Nat} (hr : r ≤ 7) (v now : Bool) (n : Nat) (h : f.raw = v) (hf : f.run = r) (h1 : 1 ≤ r) :
    (f.after 7 now (List.replicate n v)).2 = if 7 < r + n then v else now := by
  induction n generalizing f r with
  | zero => exact (if_neg (by omega)).symm
  | succ n ih =>
    have hrun : (f.sample 7 v).run = r + 1 := by
      rw [InFilter.sample, h, hf]
      dsimp only
      rw [if_pos (by simp; omega)]
      omega
    rw [List.replicate_succ, after_cons, hrun]
    by_cases h7 : r = 7
    · rw [if_pos (by omega), after_same, if_pos (by omega)]
    · rw [if_neg (by omega), ih (r := r + 1) (by omega) rfl hrun (by omega), show r + 1 + n = r + (n + 1) by omega]

theorem run_sample_first {f : InFilter} {v : Bool} (h : f.raw ≠ v ∨ f.run = 0) (filt : Nat) : (f.sample filt v).run = 1 := by
  rw [InFilter.sample]
  exact if_neg (by rcases h with h | h <;> simp [h])

/-- Eight equal samples change an input (R417). -/
theorem after_replicate {f : InFilter} {v : Bool} (h : f.raw ≠ v ∨ f.run = 0) (now : Bool) (n : Nat) :
    (f.after 7 now (List.replicate n v)).2 = if 7 < n then v else now := by
  cases n with
  | zero => rfl
  | succ n =>
    have hrun := run_sample_first h 7
    rw [List.replicate_succ, after_cons, hrun, if_neg (by decide), after_run (r := 1) (by decide) v now n rfl hrun (by decide),
      Nat.add_comm]

/-- Samples at the level that an input is not below do not lower it. -/
theorem falls_up (filt : Nat) (f : InFilter) (now : Bool) (n : Nat) : f.falls filt now (List.replicate n true) = false := by
  induction n generalizing f now with
  | zero => rfl
  | succ n ih =>
    rw [List.replicate_succ, InFilter.falls]
    have h : (now && !(if filt < (f.sample filt true).run then true else now)) = false := by
      split <;> simp
    rw [h, Bool.false_or, ih]

/-- Eight low samples from a high level are a fall. -/
theorem falls_level {f : InFilter} {v : Bool} (h : f.raw ≠ v ∨ f.run = 0) (n : Nat) :
    f.falls 7 (!v) (List.replicate n v) = (!v && decide (7 < n)) := by
  cases v with
  | true => rw [falls_up, Bool.not_true, Bool.false_and]
  | false => exact falls_replicate n true (h.imp_left fun h => by simpa using h)

/-! ### VIN_OK (R417) -/

section
variable (s : State)

/-- What a stretch of levels of VIN_OK brings: the filter and the changes. -/
def State.vinChanges (s : State) (ls : List (Bool × Nat)) : InFilter × List (Bool × Tick) :=
  s.pwr.vinIn.changes 7 256 (s.fb Reg.PWR_SEQ_STATUS 14) (firstSample 256 s.now ls) ls

/-- The one change that eight equal samples make. -/
theorem vinChanges_one {v : Bool} {n : Nat} (hn : 7 < n) (hv : s.fb Reg.PWR_SEQ_STATUS 14 = !v)
    (h : s.pwr.vinIn.raw ≠ v ∨ s.pwr.vinIn.run = 0) :
    (s.vinChanges [(v, n)]).2 = [(v, firstSample 256 s.now [(v, n)])] := by
  have hold : (if s.pwr.vinIn.raw = v then s.pwr.vinIn.run else 0) = 0 := by
    rcases h with h | h
    · rw [if_neg h]
    · rw [h, ite_self]
  have hs : (s.pwr.vinIn.stretch 7 (!v) v n).2 = some (7, 8) := by
    rw [InFilter.stretch]
    dsimp only
    rw [hold, if_pos ⟨by simp, hn⟩]
  rw [State.vinChanges, hv, InFilter.changes]
  generalize s.pwr.vinIn.stretch 7 (!v) v n = x at *
  obtain ⟨x, hit⟩ := x
  dsimp only at hs ⊢
  subst hs
  simp [InFilter.changes]

theorem vinSamples_kept (ls : List (Bool × Nat)) : (s.vinSamples ls).2.mem = s.mem ∧ (s.vinSamples ls).2.clk = s.clk ∧
    (s.vinSamples ls).2.seqState = s.seqState := by
  rw [State.vinSamples]
  refine ⟨?_, ?_, ?_⟩
  · rw [setB_mem]
  · rw [setB_clk]
  · rw [seqState_setB _ (by decide) (by decide)]
    rfl

theorem vinSamples_one {v : Bool} {n : Nat} (hn : 7 < n) (hv : s.fb Reg.PWR_SEQ_STATUS 14 = !v)
    (h : s.pwr.vinIn.raw ≠ v ∨ s.pwr.vinIn.run = 0) :
    (s.vinSamples [(v, n)]).1 = !v ∧ (s.vinSamples [(v, n)]).2.fb Reg.PWR_SEQ_STATUS 14 = v ∧
    (s.vinSamples [(v, n)]).2.pwr.vinAt =
      if v then some (firstSample 256 s.now [(v, n)] + 7 * 256) else s.pwr.vinAt := by
  have hc := vinChanges_one s hn hv h
  rw [State.vinChanges] at hc
  rw [State.vinSamples]
  dsimp only
  rw [hc]
  refine ⟨by simp, by rw [fb_setB_self _ _ (by decide)]; rfl, ?_⟩
  rw [setB_pwr]
  cases v <;> rfl

end

/-! ### A standby reset (R418) -/

/-- The sequencer's registers at their reset values. -/
theorem standbyReset_facts (s : State) : s.standbyReset.seqState = 0 ∧ s.standbyReset.pwr.railEn = 0 ∧
    s.standbyReset.pwr.railLatch = false ∧ s.standbyReset.pwr.thermLatch = false ∧ s.standbyReset.mem = s.mem := by
  have hreg : (s.resetRegs Reg.PWR_SEQ_STATUS Reg.PWR_VREQ_A fun _ _ => false).f Reg.PWR_SEQ_STATUS 2 0 = 0 := by
    have hk : ∀ w, keepWord Reg.PWR_SEQ_STATUS w (fun _ _ => false) = resetReg Reg.PWR_SEQ_STATUS := fun w => by
      rw [keepWord]
      split
      · rfl
      · exact foldl_keep fun f hm => if_neg (by decide)
    rw [State.f, reg_resetRegs_of_keepWord s (by decide) (by decide) hk]
    decide +kernel
  have hm : s.standbyReset.mem = s.mem := by
    rw [State.standbyReset, setB_mem, setF_mem]
    rfl
  have hr : s.standbyReset.regs = (((s.resetRegs Reg.PWR_SEQ_STATUS Reg.PWR_VREQ_A fun _ _ => false).setF Reg.PWR_SEQ_STATUS
    23 12 (s.f Reg.PWR_SEQ_STATUS 23 12)).setB Reg.PWR_SEQ_STATUS 13 false).regs := rfl
  refine ⟨?_, rfl, rfl, rfl, hm⟩
  rw [State.seqState, f_of_regs hr, f_setB_field _ (by decide) (by decide), f_setF_field _ _ (by decide) (by decide) (by decide), hreg]

/-! ### The commands of the sequencer (R418) -/

/-- The settings of a sequence are taken. -/
theorem takeRailCfg_facts (s : State) : s.takeRailCfg.regs = s.regs ∧ s.takeRailCfg.clk = s.clk ∧ s.takeRailCfg.mem = s.mem := by
  obtain ⟨hr, hc, -, hm⟩ := applyAll_kept s ((List.range 8).map Reg.PWR_RAIL_CFG)
  exact ⟨hr, hc, hm⟩

/-- The first rail rises. -/
def State.railsBegin (x : State) : State :=
  { (x.takeRailCfg.setSeq qRISE).setRail 0 true with
    pwr := { ((x.takeRailCfg.setSeq qRISE).setRail 0 true).pwr with seqRail := 0, seqGap := false } }

theorem railsBegin_facts (x : State) : x.railsBegin.seqState = 1 ∧ x.railsBegin.railOn 0 = true ∧ x.railsBegin.pwr.seqRail = 0 ∧
    x.railsBegin.pwr.seqAt = x.now ∧ x.railsBegin.pwr.seqGap = false ∧ x.railsBegin.mem = x.mem ∧
    x.railsBegin.fb Reg.PWR_SEQ_STATUS 16 = x.fb Reg.PWR_SEQ_STATUS 16 := by
  obtain ⟨hr, hc, hm⟩ := takeRailCfg_facts x
  have hregs : x.railsBegin.regs = (x.takeRailCfg.setSeq qRISE).regs := rfl
  have hat : x.railsBegin.pwr.seqAt = x.takeRailCfg.now := rfl
  have hmem : x.railsBegin.mem = x.takeRailCfg.mem := by
    unfold State.railsBegin State.setRail State.setSeq
    dsimp only
    rw [setF_mem]
  have hen : x.railsBegin.pwr.railEn = ((x.takeRailCfg.setSeq qRISE).setRail 0 true).pwr.railEn := rfl
  have hon : x.railsBegin.railOn 0 = true := by
    rw [State.railOn, hen]
    exact railOn_setRail_on _ 0
  refine ⟨?_, hon, rfl, ?_, rfl, hmem.trans hm, ?_⟩
  · rw [State.seqState, f_of_regs hregs, ← State.seqState, seqState_setSeq _ (by decide)]
    rfl
  · rw [hat, State.now, hc, State.now]
  · rw [fb_of_regs hregs, fb_setSeq _ _ (by decide), fb_of_regs hr]

section
variable {s : State} {t : Tick}

/-- The state after the samples of SEQ_START. -/
def State.seqInputs (u : State) (seqIn : Bool) (ls : List (Bool × Nat)) : State :=
  (u.vinSamples ls).2.setB Reg.PWR_SEQ_STATUS 12 seqIn

/-- What lets the rails rise. -/
def State.seqStarts (x : State) (seqIn : Bool) : Prop :=
  x.seqState = 0 ∧ seqIn = true ∧ x.fb Reg.PWR_SEQ_STATUS 14 = true ∧ (∀ v, x.pwr.vinAt = some v → v + 320000000 ≤ x.now) ∧
    x.pwr.railLatch = false ∧ x.pwr.thermLatch = false ∧ x.pwr.standby = false ∧ x.thmTmax < 950

theorem seqStart_waits (seqIn : Bool) (ls : List (Bool × Nat)) (h : ¬ ((s.at t).seqInputs seqIn ls).seqStarts seqIn) :
    exec (.seqStart (seqIn, ⟨t, ls⟩)) s = .next ((s.at t).seqInputs seqIn ls) := by
  have hx : exec (.seqStart (seqIn, ⟨t, ls⟩)) s = execSeqStart (seqIn, ⟨t, ls⟩) s := rfl
  rw [hx]
  unfold execSeqStart
  dsimp only
  rw [← State.seqInputs]
  generalize (s.at t).seqInputs seqIn ls = x at *
  refine if_neg fun hc => h ?_
  simp only [Bool.and_eq_true, decide_eq_true_eq, Bool.not_eq_true'] at hc
  obtain ⟨⟨⟨⟨⟨⟨h1, h2⟩, h3, h4⟩, h5⟩, h6⟩, h7⟩, h8⟩ := hc
  refine ⟨h1, h2, h3, fun v hv => ?_, h5, h6, h7, h8⟩
  rw [hv] at h4
  exact of_decide_eq_true h4

theorem seqStart_begins (seqIn : Bool) (ls : List (Bool × Nat)) (h : ((s.at t).seqInputs seqIn ls).seqStarts seqIn) :
    exec (.seqStart (seqIn, ⟨t, ls⟩)) s = .next ((s.at t).seqInputs seqIn ls).railsBegin.railGood := by
  have hx : exec (.seqStart (seqIn, ⟨t, ls⟩)) s = execSeqStart (seqIn, ⟨t, ls⟩) s := rfl
  rw [hx]
  unfold execSeqStart
  dsimp only
  rw [← State.seqInputs]
  generalize (s.at t).seqInputs seqIn ls = x at *
  obtain ⟨h1, h2, h3, h4, h5, h6, h7, h8⟩ := h
  refine (if_pos ?_).trans rfl
  simp only [Bool.and_eq_true, decide_eq_true_eq, Bool.not_eq_true']
  refine ⟨⟨⟨⟨⟨⟨h1, h2⟩, h3, ?_⟩, h5⟩, h6⟩, h7⟩, h8⟩
  cases hv : x.pwr.vinAt with
  | none => rfl
  | some v => exact decide_eq_true (h4 v hv)

theorem pgLost_next (ls : List Bool) (i : Fin 8) : exec (.pgLost ⟨t, ls⟩ i) s =
    if (((s.at t).pgSamples i ls).seqState = qRISE || ((s.at t).pgSamples i ls).seqState = qUP) &&
      ((s.at t).pgSamples i ls).railOn i && (s.at t).pgFalls i ls then .next (((s.at t).pgSamples i ls).railFail i 2)
    else .next ((s.at t).pgSamples i ls) := rfl

theorem pgTimeout_iff {u : State} : (u.seqState = qRISE && !u.pwr.seqGap && !u.fb Reg.PWR_SEQ_STATUS (16 + u.pwr.seqRail) &&
      decide (u.pwr.seqAt + u.railTpg u.pwr.seqRail ≤ u.now)) = true ↔
    u.seqState = 1 ∧ u.pwr.seqGap = false ∧ u.fb Reg.PWR_SEQ_STATUS (16 + u.pwr.seqRail) = false ∧
      u.pwr.seqAt + u.railTpg u.pwr.seqRail ≤ u.now := by
  simp only [Bool.and_eq_true, decide_eq_true_eq, Bool.not_eq_true', and_assoc]
  rfl

theorem porHold_iff {u : State} : (u.seqState = qUP && u.pwr.porHeld && decide (u.pwr.seqAt + 6400000 ≤ u.now)) = true ↔
    u.seqState = 2 ∧ u.pwr.porHeld = true ∧ u.pwr.seqAt + 6400000 ≤ u.now := by
  simp only [Bool.and_eq_true, decide_eq_true_eq, and_assoc]
  rfl

theorem railGap_waits (h : ¬ ((s.at t).pwr.seqGap = true ∧
    (s.at t).pwr.seqAt + (s.at t).railGap (s.at t).pwr.seqRail ≤ (s.at t).now)) :
    exec (.railGapExpiry t) s = .next (s.at t) := by
  refine if_pos ?_
  rw [Bool.or_eq_true, decide_eq_true_eq, Bool.not_eq_true']
  by_cases hg : (s.at t).pwr.seqGap = true
  · exact .inr (Nat.not_le.mp fun hl => h ⟨hg, hl⟩)
  · exact .inl (Bool.eq_false_iff.mpr hg)

/-- The next rail rises. -/
def State.railNext (u : State) : State :=
  { u.setRail (u.pwr.seqRail + 1) true with
    pwr := { (u.setRail (u.pwr.seqRail + 1) true).pwr with
      seqRail := u.pwr.seqRail + 1, seqAt := (u.setRail (u.pwr.seqRail + 1) true).now, seqGap := false } }

theorem railNext_facts (u : State) : u.railNext.railOn (u.pwr.seqRail + 1) = true ∧ u.railNext.pwr.seqRail = u.pwr.seqRail + 1 ∧
    u.railNext.pwr.seqAt = u.now ∧ u.railNext.pwr.seqGap = false ∧ u.railNext.regs = u.regs ∧ u.railNext.mem = u.mem :=
  ⟨railOn_setRail_on u (u.pwr.seqRail + 1), rfl, rfl, rfl, rfl, rfl⟩

variable (hg : (s.at t).pwr.seqGap = true) (hd : (s.at t).pwr.seqAt + (s.at t).railGap (s.at t).pwr.seqRail ≤ (s.at t).now)
include hg hd

theorem railGap_over : exec (.railGapExpiry t) s = if (s.at t).seqState = qRISE then .next (s.at t).railNext.railGood
    else if (s.at t).seqState = qFALL then .next (s.at t).fallNext else .next (s.at t) :=
  if_neg (by rw [hg, decide_eq_false (Nat.not_lt.mpr hd)]; decide)

end

/-! ### Monitored rails (R416, R417) -/

section
variable {s : State} {t : Tick} (i : Fin 8) (code : BitVec 10)

/-- A code of a rail is shown. -/
def State.vmonShown (u : State) (i code : Nat) : State := u.setF (Reg.PWR_VMON_VAL i) 9 0 code

/-- The codes outside the window in a row are counted. -/
def State.vmonCounted (x : State) (i n : Nat) : State :=
  { x with pwr := { x.pwr with vmonBad := Tab.put 0 x.pwr.vmonBad i n } }

/-- A code lies outside its window. -/
def State.vmonOut (u : State) (i code : Nat) : Bool :=
  decide (code < u.f (Reg.PWR_VMON i) 9 0) || decide (u.f (Reg.PWR_VMON i) 25 16 < code)

theorem vmonOut_iff {u : State} {i code : Nat} : u.vmonOut i code = true ↔
    code < u.f (Reg.PWR_VMON i) 9 0 ∨ u.f (Reg.PWR_VMON i) 25 16 < code := by
  rw [State.vmonOut, Bool.or_eq_true, decide_eq_true_eq, decide_eq_true_eq]

/-- The window is suspended for a voltage request. -/
def State.vmonSuspended (u : State) (i : Nat) : Bool := u.vreqPending && decide (u.f Reg.PWR_VREQ_A 19 16 = i)

theorem vmonShown_facts (u : State) {i : Nat} (hi : i < 8) (code : Nat) : (u.vmonShown i code).seqState = u.seqState ∧
    (u.vmonShown i code).f (Reg.PWR_VMON i) 9 0 = u.f (Reg.PWR_VMON i) 9 0 ∧
    (u.vmonShown i code).f (Reg.PWR_VMON i) 25 16 = u.f (Reg.PWR_VMON i) 25 16 ∧
    (u.vmonShown i code).f (Reg.PWR_VMON i) 31 28 = u.f (Reg.PWR_VMON i) 31 28 ∧
    (u.vmonShown i code).vreqPending = u.vreqPending ∧
    (u.vmonShown i code).f Reg.PWR_VREQ_A 19 16 = u.f Reg.PWR_VREQ_A 19 16 ∧ (u.vmonShown i code).pwr = u.pwr := by
  have hr : ∀ a, a < 0x20200080 ∨ 0x202000A0 ≤ a → (u.vmonShown i code).reg a = u.reg a := fun a ha =>
    reg_setF_ne u (by simp only [Reg.PWR_VMON_VAL]; omega) 9 0 code
  have hv : (u.vmonShown i code).reg (Reg.PWR_VMON i) = u.reg (Reg.PWR_VMON i) :=
    hr _ (by simp only [Reg.PWR_VMON]; omega)
  have hq : (u.vmonShown i code).vreqPending = u.vreqPending := by
    rw [State.vreqPending, f_of_reg (hr _ (by decide)), State.vreqPending]
  exact ⟨f_of_reg (hr _ (by decide)) _ _, f_of_reg hv _ _, f_of_reg hv _ _, f_of_reg hv _ _, hq,
    f_of_reg (hr _ (by decide)) _ _, setF_pwr _ _ _ _ _⟩

theorem vmonSample_shown : exec (.vmonSample t i code) s =
    let x := (s.at t).vmonShown i code.toNat
    if x.seqState ≠ qUP then .next x
    else
      let n := if x.vmonOut i code.toNat && !x.vmonSuspended i then Tab.get 0 x.pwr.vmonBad i + 1 else 0
      let y := x.vmonCounted i n
      if (decide (y.f (Reg.PWR_VMON i) 31 28 ≤ n) && decide (0 < n)) = true then .next (y.railFail i 3) else .next y := rfl

theorem vmonSample_off (h : (s.at t).seqState ≠ 2) :
    exec (.vmonSample t i code) s = .next ((s.at t).vmonShown i code.toNat) :=
  (vmonSample_shown i code).trans (if_pos (by rw [(vmonShown_facts _ i.isLt _).1]; exact h))

variable (h : (s.at t).seqState = 2)
include h

theorem vmonSample_up {n : Nat} (hn : (if (s.at t).vmonOut i code.toNat && !(s.at t).vmonSuspended i then
      Tab.get 0 (s.at t).pwr.vmonBad i + 1 else 0) = n) : exec (.vmonSample t i code) s =
    if (decide ((s.at t).f (Reg.PWR_VMON i) 31 28 ≤ n) && decide (0 < n)) = true then
      .next ((((s.at t).vmonShown i code.toNat).vmonCounted i n).railFail i 3)
    else .next (((s.at t).vmonShown i code.toNat).vmonCounted i n) := by
  rw [vmonSample_shown]
  generalize s.at t = u at *
  obtain ⟨h1, h2, h3, h4, h5, h6, h7⟩ := vmonShown_facts u i.isLt code.toNat
  generalize u.vmonShown i code.toNat = x at *
  have hn' : (if x.vmonOut i code.toNat && !x.vmonSuspended i then Tab.get 0 x.pwr.vmonBad i + 1 else 0) = n := by
    rw [State.vmonOut, State.vmonSuspended, h2, h3, h5, h6, h7]
    exact hn
  have hc : ∀ m, (x.vmonCounted i m).f (Reg.PWR_VMON i) 31 28 = u.f (Reg.PWR_VMON i) 31 28 := fun m => h4
  dsimp only
  rw [if_neg (by rw [h1, h]; decide), hn', hc]

theorem vmonSample_good (ho : (s.at t).vmonOut i code.toNat = false ∨ (s.at t).vmonSuspended i = true) :
    exec (.vmonSample t i code) s = .next (((s.at t).vmonShown i code.toNat).vmonCounted i 0) :=
  (vmonSample_up i code h (if_neg (by rcases ho with ho | ho <;> simp [ho]))).trans (if_neg (by simp))

theorem vmonSample_bad (ho : (s.at t).vmonOut i code.toNat = true) (hs : (s.at t).vmonSuspended i = false) :
    exec (.vmonSample t i code) s =
      if (s.at t).f (Reg.PWR_VMON i) 31 28 ≤ Tab.get 0 (s.at t).pwr.vmonBad i + 1 then
        .next ((((s.at t).vmonShown i code.toNat).vmonCounted i (Tab.get 0 (s.at t).pwr.vmonBad i + 1)).railFail i 3)
      else .next (((s.at t).vmonShown i code.toNat).vmonCounted i (Tab.get 0 (s.at t).pwr.vmonBad i + 1)) := by
  refine (vmonSample_up i code h (if_pos (by simp [ho, hs]))).trans ?_
  rw [decide_eq_true (Nat.succ_pos _), Bool.and_true]
  simp only [decide_eq_true_eq]

end

/-! ### Latches (R418) -/

section
variable {s : State} {t : Tick}

theorem pwrClr_waits (h : (s.at t).pwr.railLatch = false ∨ ((s.at t).seqState ≠ 3 ∧ (s.at t).seqState ≠ 4)) :
    exec (.pwrClrEdge t) s = .next (s.at t) := by
  refine if_neg ?_
  rw [Bool.and_eq_true, Bool.or_eq_true, decide_eq_true_eq, decide_eq_true_eq]
  rintro ⟨hl, hq⟩
  rcases h with h | ⟨h3, h4⟩
  · rw [h] at hl
    exact Bool.false_ne_true hl
  · exact hq.elim h4 h3

/-- A rail's latch ends. -/
def State.latchClear (u : State) : State := { u with pwr := { u.pwr with railLatch := false } }

theorem pwrClr_clears (h : (s.at t).pwr.railLatch = true) (hq : (s.at t).seqState = 3 ∨ (s.at t).seqState = 4) :
    exec (.pwrClrEdge t) s =
      .next (if (s.at t).latchClear.seqState = qLATCHED then (s.at t).latchClear.setSeq qWAIT else (s.at t).latchClear) := by
  refine if_pos ?_
  rw [Bool.and_eq_true, Bool.or_eq_true, decide_eq_true_eq, decide_eq_true_eq]
  exact ⟨h, hq.symm⟩

theorem seqState_latchClear (u : State) : u.latchClear.seqState = u.seqState := by
  have hr : u.latchClear.regs = u.regs := rfl
  rw [State.seqState, f_of_regs hr, State.seqState]

theorem pwrClr_latched (h : (s.at t).pwr.railLatch = true) (hq : (s.at t).seqState = 4) :
    exec (.pwrClrEdge t) s = .next ((s.at t).latchClear.setSeq qWAIT) := by
  rw [pwrClr_clears h (.inr hq), seqState_latchClear, if_pos (show (s.at t).seqState = qLATCHED from hq)]

theorem pwrClr_falling (h : (s.at t).pwr.railLatch = true) (hq : (s.at t).seqState = 3) :
    exec (.pwrClrEdge t) s = .next (s.at t).latchClear := by
  rw [pwrClr_clears h (.inl hq), seqState_latchClear, if_neg (by rw [hq]; decide)]

theorem latchClear_wait_facts (u : State) : (u.latchClear.setSeq qWAIT).seqState = 0 ∧
    (u.latchClear.setSeq qWAIT).pwr.railLatch = false ∧ (u.latchClear.setSeq qWAIT).mem = u.mem := by
  refine ⟨seqState_setSeq _ (by decide), rfl, ?_⟩
  unfold State.setSeq State.latchClear
  dsimp only
  rw [setF_mem]

/-- VIN_OK is lost. -/
def State.vinFails (x : State) : State := ((x.setB Reg.PWR_IRQ_STATUS 3 true).raise srcPWR 3).fall 4

theorem vinLost_next (ls : List (Bool × Nat)) : exec (.vinLost ⟨t, ls⟩) s =
    if ((s.at t).vinSamples ls).1 && (((s.at t).vinSamples ls).2.seqState = qRISE || ((s.at t).vinSamples ls).2.seqState = qUP) then
      .next ((s.at t).vinSamples ls).2.vinFails
    else .next ((s.at t).vinSamples ls).2 := by
  have hx : exec (.vinLost ⟨t, ls⟩) s = execVinLost ⟨t, ls⟩ s := rfl
  rw [hx]
  unfold execVinLost State.vinFails
  dsimp only

end

/-- AON loses its supply. -/
def State.standbyLost (x : State) : State :=
  { x.resetRegs Reg.PWR_SEQ_STATUS Reg.PWR_VREQ_A fun _ _ => false with
    pwr := { railEn := 0, seqRail := 0, standby := true }
    sys := { (x.resetRegs Reg.PWR_SEQ_STATUS Reg.PWR_VREQ_A fun _ _ => false).sys with intlk := false, intlkIn := {} } }

theorem standbyLost_facts (x : State) : x.standbyLost.pwr = { railEn := 0, seqRail := 0, standby := true } ∧
    x.standbyLost.mem = x.mem ∧ x.standbyLost.ldg = x.ldg := by
  unfold State.standbyLost
  exact ⟨rfl, rfl, rfl⟩

theorem vstbyLoss_next (s : State) (t : Tick) : exec (.vstbyLoss t) s =
    .next (s.at t).domainsLost.por.domainsLost.standbyLost := rfl

/-- Settles O52: an input's filter takes the eighth equal sample; the enables are bits of one number, of which the highest
falls first; the sequencer's own fields lie apart from the inputs' bits. -/
theorem voltageAndRails : Obligations.VoltageAndRails := by
  refine ⟨fun s t w r => ?_, ⟨fun s t i code => ?_, fun s ls v n hls hn hv h => ?_, fun s i n v hi hv h => ?_, fun s => ?_⟩⟩
  · refine ⟨fun h => ?_, fun h => ?_, fun h => ⟨vreqPoll_idle h, vreqTimeout_idle h⟩,
      fun h => ⟨⟨_, vreqPoll_nack h (.inl rfl), vreqEnded_raise _ (by decide) (by decide)⟩,
      ⟨_, vreqPoll_nack h (.inr rfl), vreqEnded_raise _ (by decide) (by decide)⟩,
      ⟨_, vreqPoll_mode h, vreqEnded_end (by decide) (by decide) rfl⟩, ⟨fun hg h1 => ?_, fun hg h0 => ?_, fun hg => ?_⟩,
      fun hd => ⟨_, vreqTimeout_due h hd, vreqEnded_raise _ (by decide) (by decide)⟩, vreqTimeout_waits h⟩⟩
    · rw [vreqStart_next, vreqStart_pending _ w h]
    · exact ⟨_, (vreqStart_next s t w).trans (congrArg _ (vreqStart_idle _ w h)), vreqBegun_facts _ w⟩
    · exact ⟨_, (vreqPoll_good h hg).trans (if_pos (Nat.succ_le_succ h1)),
        vreqEnded_end (by decide) (by decide) (vreqRead_facts _ r _).2.2.2⟩
    · obtain ⟨r1, r2, r3, r4⟩ := vreqRead_facts (s.at t) r ((s.at t).pwr.vreqGood + 1)
      exact ⟨_, (vreqPoll_good h hg).trans (if_neg (by rw [h0]; decide)), r1.trans (by rw [h0]), r2.trans h, r3, r4⟩
    · obtain ⟨r1, r2, r3, r4⟩ := vreqRead_facts (s.at t) r 0
      exact ⟨_, vreqPoll_bad h hg, r1, r2.trans h, r3, r4⟩
  · refine ⟨fun seqIn ls => ⟨seqStart_waits seqIn ls, fun hs hq => ?_⟩, fun ls => ⟨rfl, ?_⟩, ⟨fun h => ?_, fun h => ?_⟩,
      ⟨railGap_waits, fun h h1 hq => ?_, fun h h3 => ?_⟩, ⟨fun h => ?_, fun h => ?_⟩,
      ⟨vmonSample_off i code, fun h ho => ?_, fun h ho hs => ⟨fun hn => ?_, fun hn => ?_⟩⟩, fun ls => ⟨fun h => ?_, fun h => ?_⟩,
      fun hl hq => ?_, fun hl hq => ?_, pwrClr_waits, rfl, _, vstbyLoss_next s t, standbyLost_facts _⟩
    · obtain ⟨b1, b2, b3, b4, b5, b6, b7⟩ := railsBegin_facts ((s.at t).seqInputs seqIn ls)
      obtain ⟨xm, xc, -⟩ := vinSamples_kept (s.at t) ls
      have hmem : ((s.at t).seqInputs seqIn ls).mem = (s.at t).mem := by rw [State.seqInputs, setB_mem, xm]
      have hnow : ((s.at t).seqInputs seqIn ls).now = (s.at t).now := by
        rw [State.now, State.seqInputs, setB_clk, xc, State.now]
      have hw := railGood_waits ((s.at t).seqInputs seqIn ls).railsBegin (.inr (.inr (by rw [b3, b7]; exact hq)))
      exact ⟨_, (seqStart_begins seqIn ls hs).trans (congrArg _ hw), b1, b2, b3, b4.trans hnow, b5, b6.trans hmem⟩
    · obtain ⟨pm, pq, pp, -⟩ := pgSamples_facts (s.at t) i.isLt ls
      have hon : ((s.at t).pgSamples i ls).railOn i = (s.at t).railOn i := by rw [State.railOn, pp, State.railOn]
      refine ⟨pm, pq, pp, fun h => ?_, fun h => ?_⟩
      · refine (pgLost_next ls i).trans (if_pos ?_)
        rw [pq, hon, Bool.and_eq_true, Bool.and_eq_true, Bool.or_eq_true, decide_eq_true_eq, decide_eq_true_eq, and_assoc]
        exact h
      · refine (pgLost_next ls i).trans (if_neg ?_)
        rw [pq, hon, Bool.and_eq_true, Bool.and_eq_true, Bool.or_eq_true, decide_eq_true_eq, decide_eq_true_eq, and_assoc]
        exact h
    · exact if_pos (pgTimeout_iff.mpr h)
    · exact if_neg (mt pgTimeout_iff.mp h)
    · have hw := railGood_waits (s.at t).railNext (.inr (.inr ((fb_of_regs (railNext_facts _).2.2.2.2.1 _ _).trans hq)))
      exact ⟨_, (railGap_over h.1 h.2).trans ((if_pos h1).trans (congrArg _ hw)), railNext_facts _⟩
    · exact (railGap_over h.1 h.2).trans ((if_neg (by rw [h3]; decide)).trans (if_pos h3))
    · exact if_neg (mt porHold_iff.mp h)
    · exact if_pos (porHold_iff.mpr h)
    · refine vmonSample_good i code h (ho.imp (fun ho => ?_) fun ho => ?_)
      · exact Bool.eq_false_iff.mpr (mt vmonOut_iff.mp ho)
      · rw [State.vmonSuspended, ho.1, decide_eq_true ho.2]
        rfl
    · refine (vmonSample_bad i code h (vmonOut_iff.mpr ho) ?_).trans (if_neg (Nat.not_le.mpr hn))
      rcases hs with hs | hs <;> simp [State.vmonSuspended, hs]
    · refine (vmonSample_bad i code h (vmonOut_iff.mpr ho) ?_).trans (if_pos hn)
      rcases hs with hs | hs <;> simp [State.vmonSuspended, hs]
    · refine (vinLost_next ls).trans (if_neg ?_)
      rw [Bool.and_eq_true, Bool.or_eq_true, decide_eq_true_eq, decide_eq_true_eq]
      exact h
    · refine (vinLost_next ls).trans (if_pos ?_)
      rw [Bool.and_eq_true, Bool.or_eq_true, decide_eq_true_eq, decide_eq_true_eq]
      exact h
    · exact ⟨_, pwrClr_latched hl hq, latchClear_wait_facts (s.at t)⟩
    · exact pwrClr_falling hl hq
  · subst hls
    obtain ⟨h1, h2, h3⟩ := vinSamples_one s hn hv h
    obtain ⟨k1, -, k3⟩ := vinSamples_kept s [(v, n)]
    exact ⟨h1, h2, k3, k1, h3⟩
  · refine ⟨?_, ?_, fun h1 hg hk hp => ⟨_, rfl, railGood_facts s h1 hg hk hp⟩, fun hw => ?_⟩
    · rw [(pgSamples_facts s hi _).2.2.2, State.pgAfter, after_replicate h, hv]
    · rw [State.pgFalls, hv, falls_level h]
    · exact railGood_waits s (hw.imp_right .inl)
  · exact ⟨fun i hi h hj => fallNext_highest s hi h hj, standbyReset_facts s⟩

end Sys2Proof.Machine
end

section
/-! The pairs of registers of STP (R309, R317, R323): the HI word applies what the LO word left waiting, to a target at the
boundary, to a position or a count at once. -/
namespace Sys2Proof.Machine

/-- A write of one register leaves the word in force of another. -/
theorem applied_hold_ne (s : State) {a b : Nat} (h : b ≠ a) (v : Word) : (s.hold a v).applied b = s.applied b := by
  rw [State.applied, State.applied, reg_hold_ne s h v, State.hold, setReg_held, Tab.find?_insert_ne h]

theorem bits_low16 (w : Word) : bits w 15 0 = w.toNat % 65536 := by simp [bits]

theorem toSigned_range (w n : Nat) : -((2 ^ w : Nat) : Int) ≤ 2 * toSigned w n ∧ 2 * toSigned w n < ((2 ^ w : Nat) : Int) := by
  have h : n % 2 ^ w < 2 ^ w := Nat.mod_lt _ (Nat.two_pow_pos w)
  rw [toSigned]
  split <;> omega

theorem fromSigned_toSigned (w n : Nat) : fromSigned w (toSigned w n) = n % 2 ^ w := by
  have h : n % 2 ^ w < 2 ^ w := Nat.mod_lt _ (Nat.two_pow_pos w)
  have h0 : ((n % 2 ^ w : Nat) : Int) % ((2 ^ w : Nat) : Int) = (n % 2 ^ w : Nat) :=
    Int.emod_eq_of_lt (by omega) (by omega)
  rw [fromSigned, toSigned]
  split
  · rw [h0]
    rfl
  · rw [Int.sub_emod_right, h0]
    rfl

theorem toSigned_mod (w n : Nat) : toSigned w (n % 2 ^ w) = toSigned w n := by
  rw [toSigned, toSigned, Nat.mod_mod]

theorem toSigned_roundtrip (w n : Nat) : toSigned w (fromSigned w (toSigned w n)) = toSigned w n := by
  rw [fromSigned_toSigned, toSigned_mod]

/-! ### Targets and positions (R309, R323) -/

theorem writeTgtHi_facts (u : State) (c : Nat) (w : Word) :
    (u.writeTgtHi c w).stpT c = u.stpT c ∧ (u.writeTgtHi c w).mem = u.mem ∧
    (u.writeTgtHi c w).reg (Reg.STP_TGT_LO c) = ((u.stpCh c).tgtLo).getD (u.reg (Reg.STP_TGT_LO c)) ∧
    (u.writeTgtHi c w).reg (Reg.STP_TGT_HI c) = BitVec.ofNat 32 (w.toNat % 65536) ∧
    ((u.writeTgtHi c w).stpCh c).tgtLo = none := by
  have hne : Reg.STP_TGT_LO c ≠ Reg.STP_TGT_HI c := by simp only [Reg.STP_TGT_LO, Reg.STP_TGT_HI]; omega
  rw [State.writeTgtHi]
  refine ⟨?_, rfl, ?_, ?_, ?_⟩
  · rw [stpT_modStp]
    simp only [State.stpT, State.af, applied_hold_self, applied_hold_ne _ hne, applied_hold_ne _ hne.symm]
  · exact (reg_hold_ne _ hne _).trans (reg_hold_self _ _ _)
  · rw [← bits_low16]
    exact reg_hold_self _ _ _
  · rw [stpCh_modStp_self]

theorem stpRunning_false {u : State} {c : Nat} (h : u.stpState c = 0 ∨ u.stpState c = 7) : u.stpRunning c = false := by
  rcases h with h | h <;> simp [State.stpRunning, h, pIDLE, pFAULT]

theorem stpRunning_true {u : State} {c : Nat} (h : u.stpState c ≠ 0) (h' : u.stpState c ≠ 7) : u.stpRunning c = true := by
  simp [State.stpRunning, h, h', pIDLE, pFAULT]

/-- The position a write of the HI word gives. -/
def State.posPair (u : State) (c : Nat) (w : Word) : Int :=
  toSigned 48 ((((u.stpCh c).posLo).getD (BitVec.ofNat 32 (fromSigned 48 (u.stpPos c)))).toNat + 2 ^ 32 * bits w 15 0)

theorem writePosHi_running {u : State} {c : Nat} (h : u.stpRunning c = true) (w : Word) :
    u.writePosHi c w = if u.posPair c w = u.stpPos c then u else u.stpBusy := if_pos h

theorem writePosHi_still {u : State} {c : Nat} (h : u.stpRunning c = false) (w : Word) :
    u.writePosHi c w =
      ((u.standAt c (u.posPair c w)).setB (Reg.STP_STATE c) 6 true).modStp c fun x => { x with posLo := none } :=
  if_neg (by rw [h]; exact Bool.false_ne_true)

theorem writePosHi_facts {u : State} {c : Nat} (h : u.stpRunning c = false) (w : Word) :
    (u.writePosHi c w).stpPos c = u.posPair c w ∧ (u.writePosHi c w).fb (Reg.STP_STATE c) 6 = true ∧
    (u.writePosHi c w).stpState c = u.stpState c ∧ ((u.writePosHi c w).stpCh c).posLo = none ∧
    (u.writePosHi c w).mem = u.mem := by
  rw [writePosHi_still h w]
  refine ⟨?_, fb_setB_self _ _ (by decide : 6 < 32) _, f_setB_field _ (by decide : 6 < 32) (.inl (by decide)) _, ?_, setB_mem _ _ _ _⟩
  · rw [State.stpPos, stpCh_modStp_self, stpCh_setB, State.standAt, stpCh_modStp_self]
    exact crossed_still _ _
  · rw [stpCh_modStp_self]

/-! ### Counts (R317) -/

section
variable (u : State) (e : Nat)

@[simp] theorem stpEnc_modEnc_self (g : StpEnc → StpEnc) : (u.modEnc e g).stpEnc e = g (u.stpEnc e) :=
  Tab.get_put_self _ _ _ _

@[simp] theorem encCount_modEnc (d : Nat) (g : StpEnc → StpEnc) : (u.modEnc e g).encCount d = u.encCount d := rfl

/-- The count an encoder has after 48 bits of a number are written to its pair. -/
theorem encCount_setCount (m : Int) : (u.setCount e m).encCount e = toSigned 48 (fromSigned 48 m) := by
  have hne : Reg.STP_ENC_CNT_LO e ≠ Reg.STP_ENC_CNT_HI e := by simp only [Reg.STP_ENC_CNT_LO, Reg.STP_ENC_CNT_HI]; omega
  rw [State.setCount, encCount_modEnc, State.encCount, State.setPair48, State.f, reg_setReg_self, reg_setReg_ne _ hne,
    reg_setReg_self, pair48_read (fromSigned_lt 48 m)]

theorem setCount_mem (m : Int) : (u.setCount e m).mem = u.mem := rfl

/-- The count a write of the HI word gives. -/
def State.cntPair (w : Word) : Int :=
  toSigned 48 ((((u.stpEnc e).lo).getD (u.reg (Reg.STP_ENC_CNT_LO e))).toNat + 2 ^ 32 * bits w 15 0)

variable {u e}

theorem writeCntHi_running (h : u.encRunning e = true) (w : Word) :
    u.writeCntHi e w = if u.cntPair e w = u.encCount e then u else u.stpBusy := if_pos h

theorem writeCntHi_still (h : u.encRunning e = false) (w : Word) :
    u.writeCntHi e w = (u.setCount e (u.cntPair e w)).modEnc e fun x => { x with lo := none } :=
  if_neg (by rw [h]; exact Bool.false_ne_true)

theorem writeCntHi_facts (h : u.encRunning e = false) (w : Word) :
    (u.writeCntHi e w).encCount e = u.cntPair e w ∧ ((u.writeCntHi e w).stpEnc e).lo = none ∧
    (u.writeCntHi e w).mem = u.mem := by
  rw [writeCntHi_still h w]
  refine ⟨?_, ?_, rfl⟩
  · rw [encCount_modEnc, encCount_setCount, State.cntPair, toSigned_roundtrip]
  · rw [stpEnc_modEnc_self]

end

/-! ### The commands -/

section
variable {s : State} {t : Tick}

theorem exec_stpPairs {c : Fin 32} {e : Fin 8} {w : Word} (hon : (s.at t).actOn = true) :
    exec (.stpTgtHiWrite t c w) s = .next ((s.at t).writeTgtHi c w) ∧
    exec (.stpPosHiWrite t c w) s = .next ((s.at t).writePosHi c w) ∧
    exec (.stpEncCntHiWrite t e w) s = .next ((s.at t).writeCntHi e w) := by
  change execStpTgtHiWrite t c w s = _ ∧ execStpPosHiWrite t c w s = _ ∧ execStpEncCntHiWrite t e w s = _
  rw [execStpTgtHiWrite, execStpPosHiWrite, execStpEncCntHiWrite]
  generalize s.at t = u at *
  exact ⟨if_pos hon, if_pos hon, if_pos hon⟩

theorem exec_encoders_off {e : Fin 8} {ab : List (Bool × Bool)} {zs : List Bool}
    (h : (s.at t).actOn = false ∨ (s.at t).fb (Reg.STP_ENC_CFG e) 0 = false) :
    exec (.encoderCount t e ab) s = .next (s.at t) ∧ exec (.encoderIndexEdge ⟨t, zs⟩ e) s = .next (s.at t) := by
  change execEncoderCount t e ab s = _ ∧ execEncoderIndexEdge ⟨t, zs⟩ e s = _
  rw [execEncoderCount, execEncoderIndexEdge]
  generalize s.at t = u at *
  have hc : (!u.actOn || !u.fb (Reg.STP_ENC_CFG e) 0) = true := by simpa using h
  exact ⟨if_pos hc, if_pos hc⟩

theorem exec_encoders_on {e : Fin 8} {ab : List (Bool × Bool)} {zs : List Bool} (hon : (s.at t).actOn = true)
    (hen : (s.at t).fb (Reg.STP_ENC_CFG e) 0 = true) :
    exec (.encoderCount t e ab) s = .next (ab.foldl (fun s x => s.encSample e x) (s.at t)) ∧
    exec (.encoderIndexEdge ⟨t, zs⟩ e) s = .next (zs.foldl (fun s v => s.zSample e v) (s.at t)) := by
  change execEncoderCount t e ab s = _ ∧ execEncoderIndexEdge ⟨t, zs⟩ e s = _
  rw [execEncoderCount, execEncoderIndexEdge]
  generalize s.at t = u at *
  have hc : ¬ (!u.actOn || !u.fb (Reg.STP_ENC_CFG e) 0) = true := by simp [hon, hen]
  exact ⟨if_neg hc, if_neg hc⟩

end

/-- The clause of O41 on the target and position pairs. -/
theorem targetsAndPositions (s : State) (t : Tick) (c : Fin 32) (w : Word) :
    let u := s.at t
    u.actOn = true →
    (∃ v : State, exec (.stpTgtHiWrite t c w) s = .next v ∧ v.stpT c = u.stpT c ∧ v.mem = u.mem ∧
      v.reg (Reg.STP_TGT_LO c) = ((u.stpCh c).tgtLo).getD (u.reg (Reg.STP_TGT_LO c)) ∧
      v.reg (Reg.STP_TGT_HI c) = BitVec.ofNat 32 (w.toNat % 65536) ∧ (v.stpCh c).tgtLo = none) ∧
    let lo := ((u.stpCh c).posLo).getD (BitVec.ofNat 32 (fromSigned 48 (u.stpPos c)))
    let p := toSigned 48 (lo.toNat + 2 ^ 32 * (w.toNat % 65536))
    (u.stpState c = 0 ∨ u.stpState c = 7 → ∃ v : State, exec (.stpPosHiWrite t c w) s = .next v ∧ v.stpPos c = p ∧
      v.fb (Reg.STP_STATE c) 6 = true ∧ v.stpState c = u.stpState c ∧ (v.stpCh c).posLo = none ∧ v.mem = u.mem) ∧
    (u.stpState c ≠ 0 → u.stpState c ≠ 7 → p ≠ u.stpPos c → exec (.stpPosHiWrite t c w) s = .next (u.raise srcSTP 5)) ∧
    (u.stpState c ≠ 0 → u.stpState c ≠ 7 → p = u.stpPos c → exec (.stpPosHiWrite t c w) s = .next u) ∧
    (u.stpRunning c = true → w ≠ BitVec.ofNat 32 (fromSigned 48 (u.stpPos c)) →
      u.writePosLo c w = u.raise srcSTP 5) := by
  intro u hon
  have hx : exec (.stpTgtHiWrite t c w) s = .next (u.writeTgtHi c w) ∧
      exec (.stpPosHiWrite t c w) s = .next (u.writePosHi c w) :=
    have h := exec_stpPairs (c := c) (e := 0) (w := w) hon
    ⟨h.1, h.2.1⟩
  rw [hx.1, hx.2]
  clear_value u
  rw [← bits_low16]
  obtain ⟨h1, h2, h3, h4, h5⟩ := writeTgtHi_facts u c w
  refine ⟨⟨_, rfl, h1, h2, h3, h4.trans (by rw [bits_low16]), h5⟩, fun h => ?_, fun h h' hne => ?_, fun h h' he => ?_,
    fun h hne => ?_⟩
  · obtain ⟨g1, g2, g3, g4, g5⟩ := writePosHi_facts (stpRunning_false h) w
    exact ⟨_, rfl, g1, g2, g3, g4, g5⟩
  · rw [writePosHi_running (stpRunning_true h h'), if_neg (show ¬ u.posPair c w = u.stpPos c from hne), State.stpBusy]
  · rw [writePosHi_running (stpRunning_true h h'), if_pos (show u.posPair c w = u.stpPos c from he)]
  · rw [State.writePosLo, if_pos h, if_neg hne]
    rfl

/-- The clause of O41 on the count pairs and the samples of an encoder. -/
theorem countsAndSamples (s : State) (t : Tick) (e : Fin 8) (w : Word) :
    let u := s.at t
    let lo := ((u.stpEnc e).lo).getD (u.reg (Reg.STP_ENC_CNT_LO e))
    let n := toSigned 48 (lo.toNat + 2 ^ 32 * (w.toNat % 65536))
    (u.actOn = true → u.encRunning e = false → ∃ v : State, exec (.stpEncCntHiWrite t e w) s = .next v ∧
      v.encCount e = n ∧ (v.stpEnc e).lo = none ∧ v.mem = u.mem) ∧
    (u.actOn = true → u.encRunning e = true → n ≠ u.encCount e →
      exec (.stpEncCntHiWrite t e w) s = .next (u.raise srcSTP 5)) ∧
    (u.encRunning e = true → w ≠ u.reg (Reg.STP_ENC_CNT_LO e) → u.writeCntLo e w = u.raise srcSTP 5) := by
  intro u
  have hx (hon : u.actOn = true) : exec (.stpEncCntHiWrite t e w) s = .next (u.writeCntHi e w) :=
    (exec_stpPairs (c := 0) (e := e) (w := w) hon).2.2
  clear_value u
  rw [← bits_low16]
  refine ⟨fun hon h => ?_, fun hon h hne => ?_, fun h hne => ?_⟩
  · obtain ⟨g1, g2, g3⟩ := writeCntHi_facts h w
    exact ⟨_, hx hon, g1, g2, g3⟩
  · rw [hx hon, writeCntHi_running h, if_neg (show ¬ u.cntPair e w = u.encCount e from hne), State.stpBusy]
  · rw [State.writeCntLo, if_pos h, if_neg hne]
    rfl

end Sys2Proof.Machine
end

section
/-! The samples of an encoder (R317, R321): the filter of an input, the count of a transition, the fault of two at once, and
the latch of a Z edge. -/
namespace Sys2Proof.Machine

/-! ### The filter of an input (R317) -/

/-- An input after `m` equal samples in a row. -/
def InFilter.taken (f : InFilter) (n : Nat) (v : Bool) (m : Nat) : InFilter :=
  (List.replicate m v).foldl (fun x v => x.sample n v) f

section
variable (f : InFilter) {n : Nat} (v : Bool)

theorem taken_succ (m : Nat) : f.taken n v (m + 1) = (f.taken n v m).sample n v := by
  rw [InFilter.taken, List.replicate_succ', List.foldl_append]
  rfl

/-- Equal samples in a row count up, from whatever the input has seen before. -/
theorem taken_run (m : Nat) (h : m < 16) : (f.taken n v (m + 1)).raw = v ∧ m + 1 ≤ (f.taken n v (m + 1)).run := by
  induction m with
  | zero =>
    rw [taken_succ, InFilter.sample]
    refine ⟨rfl, ?_⟩
    dsimp only
    split
    · omega
    · exact Nat.le_refl 1
  | succ m ih =>
    obtain ⟨hr, hn⟩ := ih (by omega)
    have hc : (decide ((f.taken n v (m + 1)).raw = v) && decide (0 < (f.taken n v (m + 1)).run)) = true := by
      simp [hr]
      omega
    rw [taken_succ, InFilter.sample]
    refine ⟨rfl, ?_⟩
    dsimp only
    rw [if_pos hc]
    omega

theorem taken_level (h : n < 16) : (f.taken n v (n + 1)).level = some v := by
  obtain ⟨-, hrun⟩ := taken_run f (n := n) v n h
  rw [taken_succ, InFilter.sample] at *
  exact if_pos (by dsimp only at hrun; omega)

/-- No more than FILT equal samples after others leave the level. -/
theorem taken_short (hf : f.raw = !v) (m : Nat) (h : m < n) (hn : n < 16) :
    (f.taken n v (m + 1)).raw = v ∧ (f.taken n v (m + 1)).run = m + 1 ∧ (f.taken n v (m + 1)).level = f.level := by
  induction m with
  | zero =>
    have hr : (f.sample n v).run = 1 := run_sample_first (.inl (by simp [hf])) n
    exact ⟨rfl, hr, if_neg (by rw [InFilter.sample] at hr; dsimp only at hr; omega)⟩
  | succ m ih =>
    obtain ⟨h1, h2, h3⟩ := ih (by omega)
    have hr : ((f.taken n v (m + 1)).sample n v).run = m + 2 := by
      rw [InFilter.sample, h1, h2]
      simp
      omega
    rw [taken_succ, ← h3]
    exact ⟨rfl, hr, if_neg (by rw [InFilter.sample] at hr; dsimp only at hr; omega)⟩

theorem taken_level_short (hf : f.raw = !v) {m : Nat} (h : m ≤ n) (hn : n < 16) : (f.taken n v m).level = f.level := by
  cases m with
  | zero => rfl
  | succ m => exact (taken_short f v hf m h hn).2.2

end

/-- An input is taken as changed where it had a level and has another. -/
theorem turned_iff (x y : InFilter) : x.turned y = true ↔ x.level ≠ none ∧ x.level ≠ y.level := by
  simp [InFilter.turned, Option.isSome_iff_ne_none]

/-! ### Encoder faults (R317, R321) -/

section
variable (s : State) (e : Nat)

theorem encFault_facts (kind : Nat) :
    (s.encFault e kind).regs = ((s.setB (Reg.STP_ENC_STATUS e) 0 true).setF (Reg.STP_ENC_STATUS e) 2 1 kind).regs ∧
    (s.encFault e kind).mem = s.mem ∧ (s.encFault e kind).stp.enc = s.stp.enc ∧
    (s.encFault e kind).sbx.raised = s.sbx.raised ++ [{ src := srcSTP, ev := 3, ts := s.now }] := by
  rw [State.encFault]
  refine foldl_invariant (P := fun w : State =>
    w.regs = ((s.setB (Reg.STP_ENC_STATUS e) 0 true).setF (Reg.STP_ENC_STATUS e) 2 1 kind).regs ∧ w.mem = s.mem ∧
    w.stp.enc = s.stp.enc ∧ w.sbx.raised = s.sbx.raised ++ [{ src := srcSTP, ev := 3, ts := s.now }]) (fun w c _ h => ?_) ?_
  · split
    · exact h
    · exact h
  · refine ⟨rfl, ?_, ?_, ?_⟩
    · rw [raise_mem, setF_mem, setB_mem]
    · rw [raise_stp, setF_stp, setB_stp]
    · rw [State.raise, State.now, State.now, setF_clk, setB_clk, setF_sbx, setB_sbx]

/-- What the registers of a faulted encoder show, `n` its kind. -/
theorem encFault_shown {kind : Nat} (h : kind < 4) : (s.encFault e kind).fb (Reg.STP_ENC_STATUS e) 0 = true ∧
    (s.encFault e kind).f (Reg.STP_ENC_STATUS e) 2 1 = kind ∧ (s.encFault e kind).encCount e = s.encCount e := by
  obtain ⟨hr, -⟩ := encFault_facts s e kind
  have h1 : Reg.STP_ENC_CNT_LO e ≠ Reg.STP_ENC_STATUS e := by simp only [Reg.STP_ENC_CNT_LO, Reg.STP_ENC_STATUS]; omega
  have h2 : Reg.STP_ENC_CNT_HI e ≠ Reg.STP_ENC_STATUS e := by simp only [Reg.STP_ENC_CNT_HI, Reg.STP_ENC_STATUS]; omega
  refine ⟨?_, ?_, ?_⟩
  · rw [fb_of_regs hr, fb_setF_field _ (by decide : 1 ≤ 2) (by decide) (.inl (by decide)),
      fb_setB_self _ _ (by decide : 0 < 32)]
  · rw [f_of_regs hr, f_setF_self _ _ (by decide) (by decide)]
    exact Nat.mod_eq_of_lt h
  · rw [State.encCount, State.encCount, reg_of_regs hr, f_of_regs hr, reg_setF_ne _ h1, reg_setB_ne _ h1,
      f_setF_ne _ h2, f_setB_ne _ h2]

/-! ### A sample of A and B (R317) -/

/-- The encoder with its two inputs sampled. -/
def State.abSampled (ab : Bool × Bool) : State :=
  s.modEnc e fun x => { x with inA := (s.stpEnc e).inA.sample (s.f (Reg.STP_ENC_CFG e) 5 2) ab.1
                               inB := (s.stpEnc e).inB.sample (s.f (Reg.STP_ENC_CFG e) 5 2) ab.2 }

variable {s e} {ab : Bool × Bool} {a b : InFilter} (ha : (s.stpEnc e).inA.sample (s.f (Reg.STP_ENC_CFG e) 5 2) ab.1 = a)
  (hb : (s.stpEnc e).inB.sample (s.f (Reg.STP_ENC_CFG e) 5 2) ab.2 = b)
include ha hb

theorem encSample_still (h : (s.stpEnc e).inA.turned a = false) (h' : (s.stpEnc e).inB.turned b = false) :
    s.encSample e ab = s.abSampled e ab := by
  subst ha hb
  rw [State.encSample]
  simp only [h, h', Bool.and_self, Bool.or_self, Bool.false_eq_true, if_false]
  rfl

theorem encSample_both (h : (s.stpEnc e).inA.turned a = true) (h' : (s.stpEnc e).inB.turned b = true) :
    s.encSample e ab = (s.abSampled e ab).encFault e 1 := by
  subst ha hb
  rw [State.encSample]
  simp only [h, h', Bool.and_self, if_true]
  rfl

theorem encSample_one {ta : Bool} (h : (s.stpEnc e).inA.turned a = ta) (h' : (s.stpEnc e).inB.turned b = !ta) :
    s.encSample e ab = ((s.abSampled e ab).setCount e (s.encCount e +
      (if quadUp (a.level.getD false) (b.level.getD false) ta != s.fb (Reg.STP_ENC_CFG e) 1 then 1 else -1))).ratioChanges e := by
  subst ha hb
  rw [State.encSample]
  simp only [h, h']
  rw [Bool.and_not_self, Bool.or_not_self, if_neg Bool.false_ne_true, if_pos rfl]
  rfl

end

/-- A sign chosen by whether two bits differ, or by whether they agree. -/
theorem sign_of_ne (x y : Bool) : (if x != y then (1 : Int) else -1) = if x = y then -1 else 1 := by cases x <;> cases y <;> rfl

/-- A new count reaches no channel without an armed change of its master. -/
theorem ratioChanges_none {v : State} {e : Nat}
    (h : ∀ c < 32, v.masterOf c = e → v.fb (Reg.STP_GEAR_STATUS c) 0 = false) : v.ratioChanges e = v := by
  rw [State.ratioChanges]
  refine foldl_keep fun c hc => if_neg ?_
  have hc := h c (List.mem_range.1 hc)
  by_cases hm : v.masterOf c = e
  · simp [hc hm]
  · simp [hm]

theorem reg_setCount_ne (s : State) {e r : Nat} (h : r ≠ Reg.STP_ENC_CNT_LO e) (h' : r ≠ Reg.STP_ENC_CNT_HI e) (m : Int) :
    (s.setCount e m).reg r = s.reg r := (reg_setReg_ne _ h' _).trans (reg_setReg_ne _ h _)

/-- The registers of a channel stand apart from the count of an encoder. -/
theorem setCount_gear (s : State) (e : Nat) (m : Int) (c : Nat) :
    (s.setCount e m).masterOf c = s.masterOf c ∧
    (s.setCount e m).fb (Reg.STP_GEAR_STATUS c) 0 = s.fb (Reg.STP_GEAR_STATUS c) 0 := by
  refine ⟨f_of_reg (reg_setCount_ne s ?_ ?_ m) _ _, fb_of_reg (reg_setCount_ne s ?_ ?_ m) _⟩
  all_goals
    simp only [Reg.STP_CFG, Reg.STP_GEAR_STATUS, Reg.STP_ENC_CNT_LO, Reg.STP_ENC_CNT_HI]
    omega

/-! ### A sample of Z (R317) -/

section
variable {u : State} {e : Nat} {v : Bool} {z : InFilter} (hz : (u.stpEnc e).inZ.sample (u.f (Reg.STP_ENC_CFG e) 5 2) v = z)
include hz

theorem zSample_still (h : z.level = (u.stpEnc e).inZ.level) : u.zSample e v = u.modEnc e fun x => { x with inZ := z } := by
  have ht : (u.stpEnc e).inZ.turned z = false := by simp [InFilter.turned, h]
  rw [State.zSample]
  simp only [hz, ht, Bool.false_and, Bool.false_eq_true, if_false]

theorem zSample_rise (h0 : (u.stpEnc e).inZ.level = some false) (h1 : z.level = some true) :
    u.zSample e v = (u.modEnc e fun x => { x with inZ := z }).encIndex e := by
  have ht : (u.stpEnc e).inZ.turned z = true := by simp [InFilter.turned, h0, h1]
  rw [State.zSample]
  simp only [hz, ht, h1, beq_self_eq_true, Bool.and_self, if_true]

end

/-- The encoder with the count of its Z edge latched. -/
def State.indexed (u : State) (e : Nat) : State :=
  (u.setReg (Reg.STP_ENC_INDEX e) (wordOfInt (u.encCount e))).modEnc e fun x => { x with z := some (u.encCount e) }

section
variable (u : State) (e : Nat)

theorem encIndex_eq : u.encIndex e = u.indexed e ∨ u.encIndex e = (u.indexed e).encFault e 2 := by
  rw [State.encIndex]
  split
  · split
    · exact .inr rfl
    · exact .inl rfl
  · exact .inl rfl

theorem encIndex_fault {m : Int} (hz : (u.stpEnc e).z = some m) (h : (u.reg (Reg.STP_ENC_CPR e)).toNat ≠ 0)
    (h' : (u.encCount e - m) % ((u.reg (Reg.STP_ENC_CPR e)).toNat : Int) ≠ 0) : u.encIndex e = (u.indexed e).encFault e 2 := by
  rw [State.encIndex, hz]
  exact if_pos ⟨by exact_mod_cast h, h'⟩

theorem indexed_shown : (u.indexed e).reg (Reg.STP_ENC_INDEX e) = wordOfInt (u.encCount e) ∧
    ((u.indexed e).stpEnc e).z = some (u.encCount e) := by
  refine ⟨reg_setReg_self _ _ _, ?_⟩
  rw [State.indexed, stpEnc_modEnc_self]

theorem indexed_count : (u.indexed e).encCount e = u.encCount e := by
  have h1 : Reg.STP_ENC_CNT_LO e ≠ Reg.STP_ENC_INDEX e := by simp only [Reg.STP_ENC_CNT_LO, Reg.STP_ENC_INDEX]; omega
  have h2 : Reg.STP_ENC_CNT_HI e ≠ Reg.STP_ENC_INDEX e := by simp only [Reg.STP_ENC_CNT_HI, Reg.STP_ENC_INDEX]; omega
  rw [State.indexed, encCount_modEnc, State.encCount, State.encCount, reg_setReg_ne _ h1, f_setReg_ne _ h2]

theorem encIndex_shown : (u.encIndex e).reg (Reg.STP_ENC_INDEX e) = wordOfInt (u.encCount e) ∧
    ((u.encIndex e).stpEnc e).z = some (u.encCount e) := by
  have hi := indexed_shown u e
  rcases encIndex_eq u e with h | h
  · rw [h]
    exact hi
  · obtain ⟨hr, -, he, -⟩ := encFault_facts (u.indexed e) e 2
    have hne : Reg.STP_ENC_INDEX e ≠ Reg.STP_ENC_STATUS e := by simp only [Reg.STP_ENC_INDEX, Reg.STP_ENC_STATUS]; omega
    rw [h]
    refine ⟨?_, ?_⟩
    · rw [reg_of_regs hr, reg_setF_ne _ hne, reg_setB_ne _ hne, hi.1]
    · rw [State.stpEnc, he]
      exact hi.2

end

/-! ### A ratio change (R320) -/

section
variable (s : State) (c : Nat) (m : Int)

/-- The channel frozen where it stands in GEARED, with its new base. -/
def State.rebased : State :=
  (if s.stpState c = pGEARED then s.freezeStp c else s).modStp c fun x => { x with s0 := x.s0 + s.geared c m, m0 := m }

theorem rebased_reg (a : Nat) : (s.rebased c m).reg a = s.reg a := by
  rw [State.rebased]
  split <;> rfl

theorem rebased_ch : (s.rebased c m).stpCh c =
    { (if s.stpState c = pGEARED then s.freezeStp c else s).stpCh c with s0 := (s.stpCh c).s0 + s.geared c m, m0 := m } := by
  rw [State.rebased, stpCh_modStp_self]
  split
  · rw [State.freezeStp, stpCh_modStp_self]
  · rfl

/-- The next ratio in force. -/
def State.reratioed : State :=
  ((s.rebased c m).setReg (Reg.STP_GEAR_NUM c) (s.reg (Reg.STP_GEAR_NEXT_NUM c))).setReg (Reg.STP_GEAR_DEN c)
    (s.reg (Reg.STP_GEAR_NEXT_DEN c))

theorem ratioChange_eq : s.ratioChange c m =
    (((s.reratioed c m).setB (Reg.STP_GEAR_STATUS c) 0 false).incSat (Reg.STP_GEAR_STATUS c) 31 16).stpIrq c 7 := by
  have h : Reg.STP_GEAR_NEXT_DEN c ≠ Reg.STP_GEAR_NUM c := by simp only [Reg.STP_GEAR_NEXT_DEN, Reg.STP_GEAR_NUM]; omega
  rw [State.reratioed, ← rebased_reg s c m (Reg.STP_GEAR_NEXT_NUM c), ← rebased_reg s c m (Reg.STP_GEAR_NEXT_DEN c),
    ← reg_setReg_ne (s.rebased c m) h ((s.rebased c m).reg (Reg.STP_GEAR_NEXT_NUM c))]
  rfl

theorem ratioChange_reg {a : Nat} (h : a ≠ Reg.STP_GEAR_STATUS c) (h' : a ≠ Reg.STP_IRQ_STATUS c) :
    (s.ratioChange c m).reg a = (s.reratioed c m).reg a := by
  rw [ratioChange_eq, State.stpIrq, reg_setB_ne _ h', reg_incSat_ne _ h, reg_setB_ne _ h]

theorem ratioChange_ch : (s.ratioChange c m).stpCh c = (s.rebased c m).stpCh c := by
  rw [ratioChange_eq, State.stpIrq, stpCh_setB, State.incSat, stpCh_setF, stpCh_setB, State.reratioed, stpCh_setReg,
    stpCh_setReg]

theorem ratioChange_ratio : (s.ratioChange c m).gearNum c = toSigned 32 (s.reg (Reg.STP_GEAR_NEXT_NUM c)).toNat ∧
    (s.ratioChange c m).gearDen c = (s.reg (Reg.STP_GEAR_NEXT_DEN c)).toNat := by
  have h : Reg.STP_GEAR_NUM c ≠ Reg.STP_GEAR_DEN c := by simp only [Reg.STP_GEAR_NUM, Reg.STP_GEAR_DEN]; omega
  rw [State.gearNum, State.gearDen, ratioChange_reg, ratioChange_reg, State.reratioed, reg_setReg_self, reg_setReg_ne _ h,
    reg_setReg_self]
  · exact ⟨rfl, rfl⟩
  all_goals
    simp only [Reg.STP_GEAR_NUM, Reg.STP_GEAR_DEN, Reg.STP_GEAR_STATUS, Reg.STP_IRQ_STATUS]
    omega

theorem ratioChange_done : (s.ratioChange c m).fb (Reg.STP_GEAR_STATUS c) 0 = false := by
  have h : Reg.STP_GEAR_STATUS c ≠ Reg.STP_IRQ_STATUS c := by simp only [Reg.STP_GEAR_STATUS, Reg.STP_IRQ_STATUS]; omega
  rw [ratioChange_eq, State.stpIrq, fb_setB_ne _ h, State.incSat,
    fb_setF_field _ (by decide : 16 ≤ 31) (by decide) (.inl (by decide)), fb_setB_self _ _ (by decide : 0 < 32)]

/-- The commanded position is where it was (R320). -/
theorem ratioChange_keeps : ((s.ratioChange c m).stpCh c).s0 + (s.ratioChange c m).geared c m =
    (s.stpCh c).s0 + s.geared c m := by
  have hz : toSigned 48 (fromSigned 48 0) = 0 := by decide
  have h0 : (s.ratioChange c m).geared c m = 0 := by
    rw [State.geared, ratioChange_ch, rebased_ch]
    dsimp only
    rw [sub_self, hz, zero_mul, floorDiv, Int.zero_fdiv]
  rw [h0, ratioChange_ch, rebased_ch, add_zero]

/-- No step falls before the next boundary (R320). -/
theorem ratioChange_frozen (h : s.stpState c = 3) : ((s.ratioChange c m).stpCh c).p0 = ((s.ratioChange c m).stpCh c).p1 ∧
    ∀ q ∈ ((s.ratioChange c m).stpCh c).steps, q.cross ≤ s.clk.tb ∧ q.rise ≤ s.clk.tb := by
  rw [ratioChange_ch, rebased_ch, if_pos (show s.stpState c = pGEARED from h), State.freezeStp, stpCh_modStp_self]
  exact ⟨rfl, fun q hq => (mem_dropSteps hq).2⟩

end

/-- What a faulted encoder leaves and shows (R321), as O41 says it. -/
theorem encFault_from (u y : State) (e : Nat) {kind : Nat} (hk : kind < 4) (hc : y.encCount e = u.encCount e)
    (hm : y.mem = u.mem) (hs : y.sbx = u.sbx) (hn : y.clk = u.clk) :
    (y.encFault e kind).fb (Reg.STP_ENC_STATUS e) 0 = true ∧ (y.encFault e kind).f (Reg.STP_ENC_STATUS e) 2 1 = kind ∧
    (y.encFault e kind).encCount e = u.encCount e ∧ (y.encFault e kind).mem = u.mem ∧
    (y.encFault e kind).sbx.raised = u.sbx.raised ++ [{ src := srcSTP, ev := 3, ts := u.now }] := by
  obtain ⟨-, h2, -, h4⟩ := encFault_facts y e kind
  obtain ⟨g1, g2, g3⟩ := encFault_shown y e hk
  refine ⟨g1, g2, g3.trans hc, h2.trans hm, ?_⟩
  rw [h4, hs, State.now, State.now, hn]

/-- The clause of O41 on the samples of A, B and Z. -/
theorem encoderSamples (u : State) (e : Nat) (ab : Bool × Bool) (z : Bool) :
    let x := u.stpEnc e
    let filt := u.f (Reg.STP_ENC_CFG e) 5 2
    let a := x.inA.sample filt ab.1
    let b := x.inB.sample filt ab.2
    let y := u.modEnc e fun x => { x with inA := a, inB := b }
    let ta := x.inA.level ≠ none ∧ x.inA.level ≠ a.level
    let tb := x.inB.level ≠ none ∧ x.inB.level ≠ b.level
    let faulted := fun (v : State) (kind : Nat) => v.fb (Reg.STP_ENC_STATUS e) 0 = true ∧
      v.f (Reg.STP_ENC_STATUS e) 2 1 = kind ∧ v.encCount e = u.encCount e ∧ v.mem = u.mem ∧
      v.sbx.raised = u.sbx.raised ++ [{ src := srcSTP, ev := 3, ts := u.now }]
    (¬ ta → ¬ tb → u.encSample e ab = y) ∧
    (ta → tb → faulted (u.encSample e ab) 1) ∧
    (ta ∧ ¬ tb ∨ ¬ ta ∧ tb → ∃ v : State, u.encSample e ab = v.ratioChanges e ∧ v.mem = u.mem ∧
      (let up := quadUp (a.level.getD false) (b.level.getD false) (decide ta)
       v.encCount e = toSigned 48 (fromSigned 48
         (u.encCount e + (if up = u.fb (Reg.STP_ENC_CFG e) 1 then -1 else 1)))) ∧
      ((∀ c < 32, u.masterOf c = e → u.fb (Reg.STP_GEAR_STATUS c) 0 = false) → v.ratioChanges e = v)) ∧
    (x.inZ.level = some false → (x.inZ.sample filt z).level = some true → let v := u.zSample e z
      v.reg (Reg.STP_ENC_INDEX e) = wordOfInt (u.encCount e) ∧ (v.stpEnc e).z = some (u.encCount e) ∧
      (∀ m, x.z = some m → (u.reg (Reg.STP_ENC_CPR e)).toNat ≠ 0 →
        (u.encCount e - m) % ((u.reg (Reg.STP_ENC_CPR e)).toNat : Int) ≠ 0 → faulted v 2)) ∧
    ((x.inZ.sample filt z).level = x.inZ.level →
      u.zSample e z = u.modEnc e fun x => { x with inZ := x.inZ.sample filt z }) := by
  intro x filt a b y ta tb faulted
  have hta : x.inA.turned a = decide ta := Bool.eq_iff_iff.2 (by rw [turned_iff, decide_eq_true_iff])
  have htb : x.inB.turned b = decide tb := Bool.eq_iff_iff.2 (by rw [turned_iff, decide_eq_true_iff])
  refine ⟨fun h h' => ?_, fun h h' => ?_, fun h => ?_, fun h0 h1 => ?_, fun h => ?_⟩
  · exact encSample_still rfl rfl (by rw [hta, decide_eq_false h]) (by rw [htb, decide_eq_false h'])
  · rw [encSample_both rfl rfl (by rw [hta, decide_eq_true h]) (by rw [htb, decide_eq_true h'])]
    exact encFault_from u (u.abSampled e ab) e (by decide) rfl rfl rfl rfl
  · have ht : x.inB.turned b = !decide ta := by
      rw [htb]
      rcases h with ⟨h, h'⟩ | ⟨h, h'⟩ <;> simp [h, h']
    refine ⟨_, encSample_one rfl rfl hta ht, rfl, ?_, fun hno => ratioChanges_none fun c hc hm => ?_⟩
    · rw [encCount_setCount, sign_of_ne]
    · obtain ⟨g1, g2⟩ := setCount_gear (u.abSampled e ab) e _ c
      exact g2.trans (hno c hc (g1.symm.trans hm))
  · have hr := zSample_rise rfl h0 h1
    rw [hr]
    obtain ⟨g1, g2⟩ := encIndex_shown (u.modEnc e fun y => { y with inZ := x.inZ.sample filt z }) e
    refine ⟨g1, g2, fun m hm hcpr hne => ?_⟩
    have hz : ((u.modEnc e fun y => { y with inZ := x.inZ.sample filt z }).stpEnc e).z = some m := by
      rw [stpEnc_modEnc_self]
      exact hm
    rw [encIndex_fault _ e hz hcpr hne]
    exact encFault_from u _ e (by decide) (indexed_count _ e) rfl rfl rfl
  · exact zSample_still rfl h

end Sys2Proof.Machine
end

section
/-! The profile generators (R306, R307) and the STEP edges they place (R304). -/
namespace Sys2Proof.Machine

/-! ### Rounding to nearest -/

theorem roundUpDiv_eq (a : Int) {b : Int} (h : 0 ≤ b) : roundUpDiv a b = (2 * a + b) / (2 * b) :=
  Int.fdiv_eq_ediv_of_nonneg _ (by omega)

theorem periodStep_nonneg {v : Int} (h : 0 ≤ v) : 0 ≤ periodStep v := by
  rw [periodStep, roundUpDiv_eq _ (by decide)]
  omega

theorem roundSpeed_up (x : Int) : roundSpeed 1 x = (2 * x + 1000) / 2000 := by
  rw [roundSpeed, roundUpDiv_eq _ (by decide), one_mul]
  rfl

/-- Deceleration leaves a speed its sign and makes it no higher (R306). -/
theorem slow_bounds {v : Int} (h : 0 ≤ v) (dec : Nat) : 0 ≤ slow v dec ∧ slow v dec ≤ v := by
  rw [slow]
  rcases h.eq_or_lt with h0 | h0
  · rw [← h0, Int.sign_zero, roundSpeed, zero_mul]
    exact ⟨by decide, by decide⟩
  · rw [Int.sign_eq_one_of_pos h0, roundSpeed_up]
    omega

/-- Acceleration makes a speed no lower (R306, R307). -/
theorem roundSpeed_ge (v : Int) (acc : Nat) : v ≤ roundSpeed 1 (1000 * v + acc * 65536) := by
  rw [roundSpeed_up]
  omega

theorem approach_nonneg (dec d : Nat) : 0 ≤ approach dec d := by
  rw [approach]
  omega

/-! ### POSITION (R306) -/

/-- The speed at which a move upward goes on from speed `v`, `d` before its target. -/
def upSpeed (v : Int) (acc dec vlim vstart d : Nat) : Int :=
  max (min (min ((vlim : Int) * 65536) (roundSpeed 1 (1000 * v.natAbs + acc * 65536)).natAbs) (approach dec d))
    (max ((slow v dec).natAbs : Int) ((vstart : Int) * 65536))

theorem genPosition_there (p v : Int) (acc dec vlim vstart : Nat) : genPosition p v p acc dec vlim vstart = (0, p) := by
  rw [genPosition, sub_self]
  exact if_pos rfl

theorem genPosition_up {p v t : Int} (h : p < t) (hv : 0 ≤ v) (acc dec vlim vstart : Nat) :
    genPosition p v t acc dec vlim vstart =
      if t - (p + periodStep (upSpeed v acc dec vlim vstart (t - p).natAbs)) < 0 then (0, t)
      else (upSpeed v acc dec vlim vstart (t - p).natAbs, p + periodStep (upSpeed v acc dec vlim vstart (t - p).natAbs)) := by
  rw [genPosition, Int.sign_eq_one_of_pos (show 0 < t - p by omega)]
  simp only [one_ne_zero, if_false, mul_one, not_lt.2 hv, one_mul]
  rfl

theorem upSpeed_nonneg (v : Int) (acc dec vlim vstart d : Nat) : 0 ≤ upSpeed v acc dec vlim vstart d :=
  le_max_of_le_right (le_max_of_le_left (Int.natCast_nonneg _))

theorem upSpeed_le {v : Int} {acc dec vlim vstart d : Nat} (h : 0 ≤ v) (hv : v ≤ vlim * 65536) (hs : vstart ≤ vlim) :
    upSpeed v acc dec vlim vstart d ≤ vlim * 65536 := by
  obtain ⟨h0, h1⟩ := slow_bounds h dec
  refine max_le ((min_le_left _ _).trans (min_le_left _ _)) (max_le ?_ ?_)
  · omega
  · omega

theorem genPosition_bounds (p v t : Int) (acc dec vlim vstart : Nat) (h : p ≤ t) (hv : 0 ≤ v) :
    let r := genPosition p v t acc dec vlim vstart
    p ≤ r.2 ∧ r.2 ≤ t ∧ 0 ≤ r.1 ∧ (v ≤ vlim * 65536 → vstart ≤ vlim → r.1 ≤ vlim * 65536) := by
  have h0 : (0 : Int) ≤ (vlim : Int) * 65536 := by omega
  rcases h.eq_or_lt with rfl | h
  · rw [genPosition_there]
    exact ⟨le_refl _, le_refl _, le_refl _, fun _ _ => h0⟩
  · rw [genPosition_up h hv]
    have hu := upSpeed_nonneg v acc dec vlim vstart (t - p).natAbs
    have hle := @upSpeed_le v acc dec vlim vstart (t - p).natAbs hv
    have hp := periodStep_nonneg hu
    generalize upSpeed v acc dec vlim vstart (t - p).natAbs = w at *
    split
    · exact ⟨h.le, le_refl _, le_refl _, fun _ _ => h0⟩
    · next hlt => exact ⟨by omega, by omega, hu, hle⟩

/-! ### VELOCITY (R307) -/

theorem genVelocity_bounds (v target : Int) (acc dec vstart : Nat) (h0 : 0 ≤ v) (h1 : v ≤ target * 65536) (h2 : 0 < target)
    (h3 : (vstart : Int) ≤ target) :
    v ≤ genVelocity v target acc dec vstart ∧ genVelocity v target acc dec vstart ≤ target * 65536 := by
  have hlo : ¬ ((target * 65536).natAbs : Int) < (vstart : Int) * 65536 := by omega
  have htv : 0 < target * 65536 := by omega
  rw [genVelocity]
  simp only [if_neg hlo]
  generalize target * 65536 = tv at *
  have hc : ¬ (decide (tv = 0) || decide (v * tv < 0)) = true := by
    have := mul_nonneg h0 htv.le
    simp [htv.ne', this]
  rw [if_neg hc]
  split
  · have hup := roundSpeed_ge v acc
    rw [Int.sign_eq_one_of_pos htv, one_mul, Int.natAbs_of_nonneg h0, Int.natAbs_of_nonneg htv.le,
      Int.natAbs_of_nonneg (h0.trans hup)]
    exact ⟨le_min (le_max_of_le_left hup) h1, min_le_right _ _⟩
  · obtain ⟨hs0, hs1⟩ := slow_bounds h0 dec
    split
    · exact ⟨h1, le_refl _⟩
    · omega

/-! ### STEP edges (R304) -/

theorem pulse_bounds (x : StpCh) (pw su : Nat) (neg : Bool) (cross : Tick) :
    let p := x.pulse pw su neg cross
    cross ≤ p.rise ∧ p.fall = p.rise + pw ∧ (∀ r, x.riseThen = some r → r + 2 * pw ≤ p.rise) ∧
    (neg = x.dirThen → p.dir = none) ∧
    (neg ≠ x.dirThen → ∃ d, p.dir = some (d, neg) ∧ d + su ≤ p.rise ∧ x.revAt.getD x.t0 ≤ d ∧
      ∀ r, x.riseThen = some r → r + pw + su ≤ d) := by
  refine ⟨le_max_left _ _, rfl, fun r hr => ?_, fun h => ?_, fun h => ?_⟩
  · refine le_max_of_le_right (le_max_of_le_left ?_)
    rw [hr]
    exact le_refl _
  · rw [StpCh.pulse]
    simp only [if_pos h, Option.map_none]
  · rw [StpCh.pulse]
    simp only [if_neg h, Option.map_some, Option.getD_some]
    refine ⟨_, rfl, le_max_of_le_right (le_max_right _ _), le_max_left _ _, fun r hr => ?_⟩
    rw [hr]
    exact le_max_right _ _

end Sys2Proof.Machine
end

section
/-! The motion-period boundary (R303, R327): channels at rest with nothing requested stand still, a complete move ends, and a
GO is accepted or refused (R312). -/
namespace Sys2Proof.Machine

/-! ### A channel at rest with nothing requested -/

/-- Nothing is requested of the channel, and P stands at the step `q`. -/
structure StpCh.Still (x : StpCh) (q : Int) : Prop where
  go : x.go = []
  stop : x.stop = []
  halt : x.halt = []
  resume : x.resume = []
  clear : x.clear = []
  ttTgt : x.ttTgt = none
  ttV : x.ttV = none
  p0 : x.p0 = q * unit32
  p1 : x.p1 = q * unit32
  pos : x.pos = q

/-- Every channel is IDLE and stands still where it stood in `u`. -/
structure State.Stills (u w : State) : Prop where
  mem : w.mem = u.mem
  state : ∀ c < 32, w.stpState c = 0
  ch : ∀ c < 32, (w.stpCh c).Still (u.stpCh c).pos

theorem StpCh.Still.due {x : StpCh} {q : Int} (h : x.Still q) (tb : Tick) : x.due tb = [] := by
  rw [StpCh.due, h.halt, h.stop, h.resume, h.go, h.clear]
  rfl

theorem State.Stills.pos {u w : State} (h : u.Stills w) {c : Nat} (hc : c < 32) : w.stpPos c = (u.stpCh c).pos := by
  obtain ⟨h0, h1, hp⟩ := And.intro (h.ch c hc).p0 (And.intro (h.ch c hc).p1 (h.ch c hc).pos)
  rw [State.stpPos]
  simp only [h0, h1, hp]
  exact crossed_still _ _

theorem State.Stills.moving {u w : State} (h : u.Stills w) {c : Nat} (hc : c < 32) : w.moving c = false := by
  rw [State.moving, h.state c hc]
  rfl

section
variable {u w : State} (h : u.Stills w)
include h

theorem State.Stills.setReg {a : Nat} (ha : ∀ c < 32, Reg.STP_STATE c ≠ a) (v : Word) : u.Stills (w.setReg a v) :=
  ⟨h.mem, fun c hc => (f_setReg_ne w (ha c hc) v 3 0).trans (h.state c hc), h.ch⟩

theorem State.Stills.setF {a : Nat} (ha : ∀ c < 32, Reg.STP_STATE c ≠ a) (hi lo n : Nat) : u.Stills (w.setF a hi lo n) :=
  h.setReg ha _

theorem State.Stills.modStp {c : Nat} {g : StpCh → StpCh} (hg : c < 32 → (g (w.stpCh c)).Still (u.stpCh c).pos) :
    u.Stills (w.modStp c g) := by
  refine ⟨h.mem, h.state, fun d hd => ?_⟩
  by_cases he : d = c
  · subst he
    rw [stpCh_modStp_self]
    exact hg hd
  · rw [stpCh_modStp_ne _ he]
    exact h.ch d hd

theorem State.Stills.modEnc (e : Nat) (g : StpEnc → StpEnc) : u.Stills (w.modEnc e g) := ⟨h.mem, h.state, h.ch⟩

theorem State.Stills.takeFresh : u.Stills w.takeFresh.2 := ⟨h.mem, h.state, h.ch⟩

theorem State.Stills.applyS (a : Nat) : u.Stills (w.applyS a) := by
  unfold State.applyS
  split
  · split
    · exact ⟨h.mem, h.state, h.ch⟩
    · exact ⟨h.mem, h.state, h.ch⟩
  · exact h

theorem State.Stills.applyAll (as : List Nat) : u.Stills (w.applyAll as) :=
  foldl_invariant (fun _ a _ hw => hw.applyS a) h

theorem State.Stills.encSpeed {e : Nat} : u.Stills (w.encSpeed e) := by
  rw [State.encSpeed]
  split
  · exact h
  · exact (h.setReg (fun c _ => by simp only [Reg.STP_STATE, Reg.STP_ENC_SPEED]; omega) _).modEnc e _

variable {c : Nat} (hc : c < 32)
include hc

/-! ### Its boundary -/

theorem State.Stills.checkLimit (neg : Bool) : w.checkLimit c neg = w := by
  rw [State.checkLimit]
  exact if_neg (by simp [h.moving hc])

theorem State.Stills.current (old : Int) (d : Option Nat) : u.Stills (w.current c old d) := by
  have ha : ∀ b < 32, Reg.STP_STATE b ≠ Reg.STP_LA_MEAS c := fun b _ => by simp only [Reg.STP_STATE, Reg.STP_LA_MEAS]; omega
  rw [State.current.eq_def]
  split
  · exact h
  · rw [if_neg (by simp [h.moving hc])]
    split
    · exact h.setF ha _ _ _
    · exact h.setF ha _ _ _

theorem State.Stills.fallBack : w.fallBack c = w := by
  rw [State.fallBack]
  exact if_neg (by simp [h.state c hc, pGEARED])

theorem State.Stills.checkLag : w.checkLag c = w := by
  rw [State.checkLag]
  exact if_neg (by simp [h.state c hc, pGEARED])

theorem State.Stills.boundaryStops (d : Option Nat) : u.Stills (w.boundaryStops c d) := by
  have hb : u.Stills (w.modStp c fun x => { x with pos := w.stpPos c, p0 := x.p1, t0 := w.clk.tb }) := by
    have hx := h.ch c hc
    exact h.modStp fun _ => ⟨hx.go, hx.stop, hx.halt, hx.resume, hx.clear, hx.ttTgt, hx.ttV, hx.p1, hx.p1, h.pos hc⟩
  rw [State.boundaryStops]
  rw [State.checkLimits, hb.checkLimit hc, hb.checkLimit hc, (hb.current hc _ d).fallBack hc, (hb.current hc _ d).checkLag hc]
  exact hb.current hc _ d

theorem State.Stills.ttValues : w.ttValues c = w := by
  rw [State.ttValues]
  simp only [(h.ch c hc).ttTgt, (h.ch c hc).ttV]

theorem State.Stills.restStp : w.restStp c = w := by
  rw [State.restStp]
  simp [h.state c hc, h.moving hc, pMOVING]

theorem State.Stills.latchStp : u.Stills (w.latchStp c) := by
  have hx := h.ch c hc
  rw [State.latchStp]
  simp only [hx.due, List.foldl_nil]
  refine h.modStp fun _ => ⟨?_, ?_, ?_, ?_, ?_, hx.ttTgt, hx.ttV, hx.p0, hx.p1, hx.pos⟩
  · simp only [hx.go, keepReqs, List.filter_nil]
  · simp only [hx.stop, keepReqs, List.filter_nil]
  · simp only [hx.halt, keepReqs, List.filter_nil]
  · simp only [hx.resume, keepReqs, List.filter_nil]
  · simp only [hx.clear, keepReqs, List.filter_nil]

theorem State.Stills.boundaryLatch : u.Stills (w.boundaryLatch c) := by
  have ha := h.applyAll [Reg.STP_TGT_LO c, Reg.STP_TGT_HI c, Reg.STP_VCMD c, Reg.STP_ACC c, Reg.STP_PROF c,
    Reg.STP_CUR_GAIN c, Reg.STP_CUR c, Reg.STP_CUR2 c]
  rw [State.boundaryLatch]
  simp only [(h.ch c hc).due, List.filterMap_nil]
  rw [ha.ttValues hc, ha.restStp hc, State.stpShared, List.foldl_nil, ite_self]
  exact ha.latchStp hc

theorem State.Stills.generate : w.generate c = w := by
  rw [State.generate]
  simp [h.state c hc, pMOVING, pRUNNING, pSTOPPING, pFALLBACK, pGEARED]

theorem State.Stills.stepEdges : u.Stills (w.stepEdges c) := by
  have hx := h.ch c hc
  have hl : crossed (w.stpCh c).p0 (w.stpCh c).p1 (w.stpCh c).pos 6400 = (w.stpCh c).pos := by
    rw [hx.p0, hx.p1, hx.pos]
    exact crossed_still _ _
  rw [State.stepEdges]
  split
  · exact h
  · refine h.modStp fun _ => ?_
    have ht : (if (w.stpCh c).p0 = (w.stpCh c).p1 then w.moving c
        else decide ((w.stpCh c).p1 < (w.stpCh c).p0) != (w.stpCh c).dirThen) = false := by
      rw [if_pos (hx.p0.trans hx.p1.symm), h.moving hc]
    simp only [ht, Bool.false_and, Bool.false_eq_true, if_false, hl, sub_self, Int.natAbs_zero]
    exact hx

theorem State.Stills.windings (sd : Option (BitVec 766 × BitVec 766)) : u.Stills (w.windings c sd) := by
  have hx := h.ch c hc
  have hs (w : State) (hw : u.Stills w) (b : Option (BitVec 766)) : u.Stills (w.windCurrent b).2 := by
    cases b with
    | none => exact hw.takeFresh
    | some b => exact hw
  rw [State.windings]
  split
  · rw [State.windingPwm]
    split
    · exact h
    · have hw := hs _ (hs w h (sd.map (·.1))) (sd.map (·.2))
      have hy := hw.ch c hc
      exact hw.modStp fun _ => ⟨hy.go, hy.stop, hy.halt, hy.resume, hy.clear, hy.ttTgt, hy.ttV, hy.p0, hy.p1, hy.pos⟩
  · exact h

theorem State.Stills.motionCh (d : Option Nat) (sd : Option (BitVec 766 × BitVec 766)) : u.Stills (w.motionCh c d sd) := by
  have hb := (h.boundaryStops hc d).boundaryLatch hc
  have hx := hb.ch c hc
  have hm : u.Stills (((w.boundaryStops c d).boundaryLatch c).modStp c fun x => { x with past := pushPast x.v x.past }) :=
    hb.modStp fun _ => ⟨hx.go, hx.stop, hx.halt, hx.resume, hx.clear, hx.ttTgt, hx.ttV, hx.p0, hx.p1, hx.pos⟩
  have ha : ∀ b < 32, Reg.STP_STATE b ≠ Reg.STP_SPEED c := fun b _ => by simp only [Reg.STP_STATE, Reg.STP_SPEED]; omega
  rw [State.motionCh, hb.generate hc]
  exact ((hm.setReg ha _).stepEdges hc).windings hc sd

end

/-! ### MOTION_PERIOD (R303) -/

/-- A boundary of all encoders and channels, with the load angles and winding currents measured since the one before. -/
def State.motionAll (u : State) (ds : List (Nat × Nat)) (ws : List (Nat × BitVec 766 × BitVec 766)) : State :=
  (List.range 32).foldl
    (fun s c => s.motionCh c ((ds.find? fun p => p.1 == c).map (·.2)) ((ws.find? fun p => p.1 == c).map (·.2)))
    ((List.range 8).foldl State.encSpeed u)

theorem stills_motionAll {u : State} (h : u.Stills u) (ds : List (Nat × Nat)) (ws : List (Nat × BitVec 766 × BitVec 766)) :
    u.Stills (u.motionAll ds ws) :=
  foldl_invariant (fun _ _ hc hw => hw.motionCh (List.mem_range.1 hc) _ _) (foldl_invariant (fun _ _ _ hw => hw.encSpeed) h)

section
variable {s : State} {t : Tick} {ds : List (Nat × Nat)} {ws : List (Nat × BitVec 766 × BitVec 766)}

theorem exec_motionPeriod_off (h : (s.at t).actOn = false ∨ t % 6400 ≠ 0) :
    exec (.motionPeriod t (ds, ws)) s = .next (s.at t) := by
  change execMotionPeriod t (ds, ws) s = _
  rw [execMotionPeriod]
  generalize s.at t = u at *
  exact if_pos (by simpa using h)

theorem exec_motionPeriod (hon : (s.at t).actOn = true) (ht : t % 6400 = 0) :
    exec (.motionPeriod t (ds, ws)) s = .next ((s.at t).motionAll ds ws) := by
  change execMotionPeriod t (ds, ws) s = _
  rw [execMotionPeriod]
  generalize s.at t = u at *
  exact if_neg (by simp [hon, ht])

end

end Sys2Proof.Machine
end

section
/-! The end of a complete move (R306, R310), and a GO at the boundary, accepted or refused (R311, R312). -/
namespace Sys2Proof.Machine

/-! ### The end of a move (R310) -/

section
variable (s : State) (c : Nat)

theorem f_modStp (d : Nat) (g : StpCh → StpCh) (a hi lo : Nat) : (s.modStp d g).f a hi lo = s.f a hi lo := rfl
theorem fb_modStp (d : Nat) (g : StpCh → StpCh) (a i : Nat) : (s.modStp d g).fb a i = s.fb a i := rfl

/-- The registers of a channel that comes to IDLE. -/
def State.idleRegs : State := ((s.setF (Reg.STP_STATE c) 3 0 pIDLE).setB Reg.SYS_SVC_MOTION_STP c false).takeFresh.2

theorem enterStp_idle : s.enterStp c pIDLE = (s.idleRegs c).modStp c fun x =>
    { x with bySafe := false, restAt := s.clk.tb, hold := false, encFault := false, revAt := none
             enabled := x.enabled && Config.freeNat s.fresh % 2 == 1 } := by
  have hf : ((s.setF (Reg.STP_STATE c) 3 0 pIDLE).setB Reg.SYS_SVC_MOTION_STP c false).fresh = s.fresh := by simp
  have hc : (s.idleRegs c).clk = s.clk := by simp [State.idleRegs, State.takeFresh]
  rw [State.enterStp, if_neg (by decide : ¬ movingState pIDLE = true), if_neg (by decide : ¬ pIDLE = pHELD),
    if_pos (by decide : (decide (pIDLE = pIDLE) || decide (pIDLE = pHELD) || decide (pIDLE = pFAULT)) = true)]
  rw [← hf, ← hc]
  rfl

theorem idleRegs_ch : (s.idleRegs c).stpCh c = s.stpCh c :=
  (stpCh_setB _ _ _ _ _).trans (stpCh_setF _ _ _ _ _ _)

theorem idleRegs_state : (s.idleRegs c).stpState c = 0 := by
  have h : Reg.STP_STATE c ≠ Reg.SYS_SVC_MOTION_STP := by simp only [Reg.STP_STATE, Reg.SYS_SVC_MOTION_STP]; omega
  exact (f_setB_ne _ h _ _ _ _).trans (f_setF_self _ _ (by decide) (by decide) _)

theorem idleRegs_irq (i : Nat) : (s.idleRegs c).fb (Reg.STP_IRQ_STATUS c) i = s.fb (Reg.STP_IRQ_STATUS c) i := by
  have h1 : Reg.STP_IRQ_STATUS c ≠ Reg.STP_STATE c := by simp only [Reg.STP_STATE, Reg.STP_IRQ_STATUS]; omega
  have h2 : Reg.STP_IRQ_STATUS c ≠ Reg.SYS_SVC_MOTION_STP := by
    simp only [Reg.STP_IRQ_STATUS, Reg.SYS_SVC_MOTION_STP]
    omega
  exact (fb_setB_ne _ h2 _ _ _).trans (fb_setF_ne _ h1 _ _ _ _)

/-- A channel put at its target, with nothing left of its move and MOVE_DONE set. -/
def State.arrived : State := ((s.standAt c (s.stpT c)).setRem c 0).stpIrq c 0

theorem arrived_ch : (s.arrived c).stpCh c = { s.stpCh c with
    p0 := s.stpT c * unit32, p1 := s.stpT c * unit32, t0 := s.clk.tb, pos := s.stpT c, gp := s.stpT c * unit32
    gv := 0, v := 0, raw := [], rawP := [] } := by
  rw [State.arrived, State.stpIrq, stpCh_setB, stpCh_setRem, State.standAt, stpCh_modStp_self]

theorem arrived_irq : (s.arrived c).fb (Reg.STP_IRQ_STATUS c) 0 = true := by
  rw [State.arrived, State.stpIrq]
  exact fb_setB_self _ _ (by decide : 0 < 32) _

theorem arrived_idle : ((s.arrived c).enterStp c pIDLE).stpState c = 0 ∧
    ((s.arrived c).enterStp c pIDLE).stpPos c = s.stpT c ∧
    ((s.arrived c).enterStp c pIDLE).fb (Reg.STP_IRQ_STATUS c) 0 = true := by
  rw [enterStp_idle]
  refine ⟨?_, ?_, ?_⟩
  · rw [stpState_modStp, idleRegs_state]
  · rw [State.stpPos, stpCh_modStp_self, idleRegs_ch, arrived_ch]
    exact crossed_still _ _
  · rw [fb_modStp, idleRegs_irq, arrived_irq]

theorem restStp_arrived (hst : s.stpState c = 1) (hv : (s.stpCh c).v = 0) (hg : (s.stpCh c).gv = 0)
    (hr : ∀ w ∈ (s.stpCh c).raw, w = 0) (hp : (s.stpCh c).gp = s.stpT c * unit32) :
    s.restStp c = (s.arrived c).enterStp c pIDLE := by
  have hraw : (s.stpCh c).raw.all (· == 0) = true := List.all_eq_true.2 fun w hw => beq_iff_eq.2 (hr w hw)
  rw [State.restStp]
  exact if_pos (by simp [hst, hv, hg, hraw, hp, pMOVING])

/-! ### GO (R311, R312) -/

/-- The channel with what it had left of a move discarded and its command accepted. -/
def State.goAccepted : State := (s.setRem c 0).stpAccept c

/-- The channel of a GO on its way: in SERVICE the move is a manual motion (R47). -/
def State.goReady : State :=
  if (s.goAccepted c).mode == .service then (s.goAccepted c).setB Reg.SYS_SVC_MOTION_STP c true else s.goAccepted c

theorem goReady_reg {a : Nat} (h : a ≠ Reg.SYS_SVC_MOTION_STP) : (s.goReady c).reg a = (s.goAccepted c).reg a := by
  rw [State.goReady, reg_ite, reg_setB_ne _ h, ite_self]

theorem goReady_mode : (s.goReady c).stpMode c = s.stpMode c := by
  have h1 : Reg.STP_CFG c ≠ Reg.SYS_SVC_MOTION_STP := by simp only [Reg.STP_CFG, Reg.SYS_SVC_MOTION_STP]; omega
  have h2 : Reg.STP_CFG c ≠ Reg.STP_STATE c := by simp only [Reg.STP_CFG, Reg.STP_STATE]; omega
  have h3 : Reg.STP_CFG c ≠ Reg.STP_REM_LO c := by simp only [Reg.STP_CFG, Reg.STP_REM_LO]; omega
  have h4 : Reg.STP_CFG c ≠ Reg.STP_REM_HI c := by simp only [Reg.STP_CFG, Reg.STP_REM_HI]; omega
  rw [State.stpMode, f_of_reg (goReady_reg s c h1), State.goAccepted, State.stpAccept, f_setF_ne _ h2, f_setF_ne _ h2,
    State.setRem, State.setPair48, f_setReg_ne _ h4, f_setReg_ne _ h3, State.stpMode]

theorem goReady_result : (s.goReady c).f (Reg.STP_STATE c) 9 8 = 1 := by
  have h : Reg.STP_STATE c ≠ Reg.SYS_SVC_MOTION_STP := by simp only [Reg.STP_STATE, Reg.SYS_SVC_MOTION_STP]; omega
  rw [f_of_reg (goReady_reg s c h), State.goAccepted, State.stpAccept,
    f_setF_field _ _ (by decide : 10 ≤ 13) (by decide) (.inl (by decide)), f_setF_self _ _ (by decide) (by decide)]
  rfl

/-- A channel that begins to move takes the state and keeps the rest of its register. -/
theorem enterStp_moving : (s.enterStp c pMOVING).stpState c = 1 ∧
    (s.enterStp c pMOVING).f (Reg.STP_STATE c) 9 8 = s.f (Reg.STP_STATE c) 9 8 := by
  rw [State.enterStp, if_pos (by decide : movingState pMOVING = true), if_neg (by decide : ¬ pMOVING = pHELD),
    if_neg (by decide : ¬ (decide (pMOVING = pIDLE) || decide (pMOVING = pHELD) || decide (pMOVING = pFAULT)) = true)]
  rw [State.stpState, f_modStp, f_modStp, f_setF_self _ _ (by decide) (by decide),
    f_setF_field _ _ (by decide) (by decide) (.inr (by decide))]
  exact ⟨rfl, rfl⟩

theorem stpBegin_move (h : s.stpMode c = 0) : (s.setRem c 0).stpBegin c = (s.goReady c).enterStp c pMOVING := by
  have hm := (goReady_mode s c).trans h
  rw [State.stpBegin]
  split
  · rfl
  · next h1 => exact absurd (h1.symm.trans hm) (by decide)
  · next h0 _ => exact absurd hm h0

/-- The registers of a channel that has refused a command. -/
def State.refused (reason : Nat) : State :=
  (((s.setF (Reg.STP_STATE c) 9 8 2).setF (Reg.STP_STATE c) 13 10 reason).stpIrq c 3).raise srcSTP 2

theorem refused_shown {e : Nat} (he : e < 16) : (s.refused c e).stpState c = s.stpState c ∧
    (s.refused c e).f (Reg.STP_STATE c) 9 8 = 2 ∧ (s.refused c e).f (Reg.STP_STATE c) 13 10 = e ∧
    (s.refused c e).mem = s.mem := by
  have h : Reg.STP_STATE c ≠ Reg.STP_IRQ_STATUS c := by simp only [Reg.STP_STATE, Reg.STP_IRQ_STATUS]; omega
  rw [State.refused, State.stpIrq, State.stpState, State.stpState]
  refine ⟨?_, ?_, ?_, by rw [raise_mem, setB_mem, setF_mem, setF_mem]⟩
  · rw [f_raise, f_setB_ne _ h, f_setF_field _ _ (by decide) (by decide) (.inl (by decide)),
      f_setF_field _ _ (by decide) (by decide) (.inl (by decide))]
  · rw [f_raise, f_setB_ne _ h, f_setF_field _ _ (by decide) (by decide) (.inl (by decide)),
      f_setF_self _ _ (by decide) (by decide)]
    rfl
  · rw [f_raise, f_setB_ne _ h, f_setF_self _ _ (by decide) (by decide)]
    exact Nat.mod_eq_of_lt he

/-- The reasons of a refusal fit their field (R312). -/
theorem goRefused_lt {e : Nat} (h : s.goRefused c = some e) : e < 16 := by
  rw [State.goRefused] at h
  repeat' split at h
  all_goals simp [peFAULT, peLIMIT, pePARAM, peENC, peSAFE] at h
  all_goals omega

/-- A GO of an IDLE channel asks whether it may move. -/
theorem latchCmd_go {r : StpReq} (h : s.stpState c = 0) (hr : r.soft = false) :
    (s.goRefused c = none → s.latchCmd c false 3 r = (s.setRem c 0).stpBegin c) ∧
    ∀ e, s.goRefused c = some e → s.latchCmd c false 3 r = (s.refused c e).axisFaultBy r.handle (16 + c) := by
  have h0 : ¬ (r.soft && ((decide (s.stpState c = pMOVING) && decide (s.stpMode c = 0)) ||
    (decide (s.stpState c = pRUNNING) && decide (s.stpMode c = 1)))) = true := by simp [hr]
  have h1 : (decide (s.stpState c = pIDLE) || decide (s.stpState c = pHELD) || decide (s.stpState c = pFAULT)) = true := by
    simp [h, pIDLE]
  rw [State.latchCmd]
  simp only [if_neg h0, if_pos h1]
  refine ⟨fun hn => ?_, fun e he => ?_⟩
  · rw [hn]
  · rw [he]
    rfl

end

/-- Settles O41: the pairs, the samples of encoders and ratio changes by what they leave in the registers, the boundary of
channels at rest by an invariant of its passes, and the generators and pulses by their arithmetic. -/
theorem stepperPairsEncodersAndMotion : Obligations.StepperPairsEncodersAndMotion := by
  refine ⟨⟨targetsAndPositions, fun s t e w => ?_, fun u e ab z _ => encoderSamples u e ab z, fun f n v hn => ?_,
    fun s c m _ => ?_⟩, fun s t ds ws => ?_, genPosition_bounds, genVelocity_bounds, pulse_bounds, fun s c _ => ?_⟩
  · obtain ⟨h1, h2, h3⟩ := countsAndSamples s t e w
    exact ⟨h1, h2, h3, fun ab zs => ⟨exec_encoders_off, exec_encoders_on⟩⟩
  · exact ⟨taken_level f v hn, fun hf m hm => taken_level_short f v hf hm hn⟩
  · obtain ⟨h1, h2⟩ := ratioChange_ratio s c m
    exact ⟨h1, h2, ratioChange_done s c m, ratioChange_keeps s c m, ratioChange_frozen s c m⟩
  · refine ⟨exec_motionPeriod_off, fun hon ht => ⟨exec_motionPeriod hon ht, fun hidle => ?_⟩⟩
    refine ⟨_, exec_motionPeriod hon ht, ?_⟩
    generalize s.at t = u at *
    have hu : u.Stills u := ⟨rfl, fun c hc => (hidle c hc).1, fun c hc =>
      have ⟨_, hgo, hstop, hhalt, hresume, hclear, htgt, hv, hp0, hp1⟩ := hidle c hc
      ⟨hgo, hstop, hhalt, hresume, hclear, htgt, hv, hp0, hp1, rfl⟩⟩
    have hv := stills_motionAll hu ds ws
    exact ⟨hv.mem, fun c hc => ⟨hv.state c hc, (hv.pos hc).trans (hu.pos hc).symm⟩⟩
  · refine ⟨fun hst hv hg hr hp => ?_, fun r hst hr => ?_⟩
    · rw [restStp_arrived s c hst hv hg hr hp]
      exact arrived_idle s c
    · obtain ⟨g1, g2⟩ := latchCmd_go s c hst hr
      refine ⟨fun hn hm => ?_, fun e he => ⟨_, g2 e he, ?_⟩⟩
      · rw [g1 hn, stpBegin_move s c hm]
        obtain ⟨k1, k2⟩ := enterStp_moving (s.goReady c) c
        exact ⟨k1, k2.trans (goReady_result s c)⟩
      · obtain ⟨k1, k2, k3, k4⟩ := refused_shown s c (goRefused_lt s c he)
        exact ⟨k1.trans hst, k2, k3, k4⟩

end Sys2Proof.Machine
end

section
/-! The edges of a bridge's outputs in a PWM period (R272): a level is what the last edge up to now gave, so the edges of a
phase give each switch an interval, and the two intervals keep apart. -/
namespace Sys2Proof.Machine

/-! ### The level of an output by its edges -/

/-- An edge takes an output from a level to the next, where it is one of its own and has come. -/
def PinEdge.after (pin : Nat) (t : Tick) (l : Bool) (e : PinEdge) : Bool := if e.pin == pin && e.at' ≤ t then e.on else l

theorem levelAt_append (es : List PinEdge) (e : PinEdge) (pin : Nat) (t : Tick) :
    levelAt (es ++ [e]) pin t = e.after pin t (levelAt es pin t) := by
  rw [levelAt, List.filter_append, PinEdge.after]
  split
  · next h => simp [h]
  · next h => simp [h, levelAt]

theorem levelAt_foldl (es : List PinEdge) (pin : Nat) (t : Tick) : levelAt es pin t = es.foldl (PinEdge.after pin t) false := by
  induction es using List.reverseRecOn with
  | nil => rfl
  | append_singleton es e ih => rw [levelAt_append, ih, List.foldl_append, List.foldl_cons, List.foldl_nil]

/-- Each output keeps its level where new edges begin. -/
theorem kept_levels (old : List PinEdge) {n pin : Nat} (h : pin < n) {p t : Tick} (ht : p ≤ t) :
    ((List.range n).map fun q => { pin := q, at' := p, on := levelAt old q p : PinEdge }).foldl (PinEdge.after pin t) false =
      levelAt old pin p := by
  induction n with
  | zero => exact absurd h (Nat.not_lt_zero _)
  | succ n ih =>
    rw [List.range_succ, List.map_append, List.foldl_append, List.map_singleton, List.foldl_cons, List.foldl_nil,
      PinEdge.after]
    by_cases hn : n = pin
    · subst hn
      exact if_pos (by simp [ht])
    · rw [if_neg (by simp [hn])]
      exact ih (by omega)

theorem levelAt_setEdges (old new : List PinEdge) {n pin : Nat} (h : pin < n) {p t : Tick} (ht : p ≤ t) :
    levelAt (setEdges n old new p) pin t = new.foldl (PinEdge.after pin t) (levelAt old pin p) := by
  rw [levelAt_foldl, setEdges, List.foldl_append, kept_levels old h ht]

theorem foldl_ite {α β : Type} (c : Prop) [Decidable c] (f : α → β → α) (l : α) (xs ys : List β) :
    (if c then xs else ys).foldl f l = if c then xs.foldl f l else ys.foldl f l := apply_ite (List.foldl f l) c xs ys

/-! ### The two switches of a phase (R272) -/

section
variable {p tpwm dead h x t : Nat} (l : Bool) (ht : p ≤ t)
include ht

/-- The low switch of a phase whose high one stays off. -/
theorem phase_off : (phaseEdges p tpwm dead 0 x).foldl (PinEdge.after (2 * x) t) l = false := by
  have hx : (2 * x + 1 == 2 * x) = false := by simp
  simp only [phaseEdges, if_pos, List.foldl_cons, List.foldl_nil, PinEdge.after, beq_self_eq_true, Bool.true_and, hx,
    Bool.false_and, Bool.false_eq_true, if_false, decide_eq_true ht]

variable (h0 : 0 < h)
include h0

/-- The high switch of a phase: about the middle of the period, `dead` ticks after its beginning at the earliest. -/
theorem phase_high : (phaseEdges p tpwm dead h x).foldl (PinEdge.after (2 * x) t) l =
    let a := p + tpwm / 2 - h / 2
    if a + h < p + tpwm ∧ a + h ≤ t then false
    else if max a (p + dead) < a + h ∧ max a (p + dead) ≤ t then true
    else if a = p then l else false := by
  have hx : (2 * x + 1 == 2 * x) = false := by simp
  simp only [phaseEdges, if_neg h0.ne', List.foldl_append, foldl_ite, List.foldl_cons, List.foldl_nil, PinEdge.after,
    beq_self_eq_true, Bool.true_and, hx, Bool.false_and, Bool.false_eq_true, if_false, decide_eq_true ht, if_true, ite_self,
    decide_eq_true_eq, ite_and]

/-- The low switch of a phase: before and after the high one, each with `dead` ticks between. -/
theorem phase_low : (phaseEdges p tpwm dead h x).foldl (PinEdge.after (2 * x + 1) t) l =
    let a := p + tpwm / 2 - h / 2
    if a + h + dead < p + tpwm ∧ a + h + dead ≤ t then true
    else if p + dead < a - dead then (if a - dead ≤ t then false else if p + dead ≤ t then true else l) else false := by
  have hx : (2 * x == 2 * x + 1) = false := by simp
  simp only [phaseEdges, if_neg h0.ne', List.foldl_append, foldl_ite, List.foldl_cons, List.foldl_nil, PinEdge.after,
    beq_self_eq_true, Bool.true_and, hx, Bool.false_and, Bool.false_eq_true, if_false, decide_eq_true ht, if_true, ite_self,
    decide_eq_true_eq, ite_and]

/-- When the high switch is on. -/
theorem phase_high_on (hon : (phaseEdges p tpwm dead h x).foldl (PinEdge.after (2 * x) t) l = true) :
    let a := p + tpwm / 2 - h / 2
    (a = p ∨ a ≤ t ∧ p + dead ≤ t) ∧ (t < a + h ∨ p + tpwm ≤ a + h) := by
  rw [phase_high l ht h0] at hon
  dsimp only at *
  split at hon
  · exact absurd hon Bool.false_ne_true
  · split at hon
    · omega
    · split at hon
      · omega
      · exact absurd hon Bool.false_ne_true

/-- When the low switch is on. -/
theorem phase_low_on (hon : (phaseEdges p tpwm dead h x).foldl (PinEdge.after (2 * x + 1) t) l = true) :
    let a := p + tpwm / 2 - h / 2
    (p + dead < a - dead ∧ t < a - dead) ∨ (a + h + dead < p + tpwm ∧ a + h + dead ≤ t) := by
  rw [phase_low l ht h0] at hon
  dsimp only at *
  split at hon
  · omega
  · split at hon
    · split at hon
      · exact absurd hon Bool.false_ne_true
      · omega
    · exact absurd hon Bool.false_ne_true

/-- The switches of a phase are never on together. -/
theorem phase_apart (l' : Bool) (heven : tpwm % 2 = 0) (hle : h ≤ tpwm)
    (hhi : (phaseEdges p tpwm dead h x).foldl (PinEdge.after (2 * x) t) l = true) :
    (phaseEdges p tpwm dead h x).foldl (PinEdge.after (2 * x + 1) t) l' = false := by
  rw [← Bool.not_eq_true]
  intro hlo
  obtain ⟨h1, h2⟩ := phase_high_on l ht h0 hhi
  have h3 := phase_low_on l' ht h0 hlo
  omega

end

/-- The clause of O38 on the outputs of a phase. -/
theorem phaseOutputs (old : List PinEdge) (p tpwm dead h x t : Nat) (heven : tpwm % 2 = 0) (hle : h ≤ tpwm) (hx : x < 3)
    (ht : p ≤ t) :
    let es := setEdges 6 old (phaseEdges p tpwm dead h x) p
    let a := p + tpwm / 2 - h / 2
    (levelAt es (2 * x) t = false ∨ levelAt es (2 * x + 1) t = false) ∧
    (p + dead ≤ a → p < a → a + h < p + tpwm → 0 < h → (levelAt es (2 * x) t = true ↔ a ≤ t ∧ t < a + h)) := by
  intro es a
  rw [levelAt_setEdges old _ (by omega : 2 * x < 6) ht, levelAt_setEdges old _ (by omega : 2 * x + 1 < 6) ht]
  refine ⟨?_, fun hd hpa hb h0 => ?_⟩
  · rcases Nat.eq_zero_or_pos h with rfl | h0
    · exact .inl (phase_off _ ht)
    · cases hhi : (phaseEdges p tpwm dead h x).foldl (PinEdge.after (2 * x) t) (levelAt old (2 * x) p) with
      | false => exact .inl rfl
      | true => exact .inr (phase_apart _ ht h0 _ heven hle hhi)
  · refine ⟨fun hon => ?_, fun ⟨h1, h2⟩ => ?_⟩
    · have := phase_high_on _ ht h0 hon
      omega
    · rw [phase_high _ ht h0]
      have hm : max a (p + dead) = a := max_eq_left hd
      change (if a + h < p + tpwm ∧ a + h ≤ t then false else if max a (p + dead) < a + h ∧ max a (p + dead) ≤ t then true
        else if a = p then _ else false) = true
      rw [if_neg (by omega), hm, if_pos (by omega)]

end Sys2Proof.Machine
end

section
/-! The ramp of a reference (R279), the command pins (R291) and the substitution of engines (R271). -/
namespace Sys2Proof.Machine

/-! ### The ramp (R279, R286) -/

/-- A reference that falls goes toward 0, and not past it or its target. -/
theorem rampStep_down {r target down : Int} (up : Int) (h : 0 < r) (h' : target < r) (hd : 0 ≤ down) :
    target ≤ rampStep r target up down false ∧ rampStep r target up down false ≤ r ∧ r - down ≤ rampStep r target up down false := by
  rw [rampStep, if_pos (by simp [h, h']), if_neg Bool.false_ne_true, if_pos h]
  exact ⟨(le_max_left _ _).trans (le_max_left _ _), max_le (max_le h'.le h.le) (by omega), le_max_right _ _⟩

theorem rampStep_up {r target down : Int} (up : Int) (h : r < 0) (h' : r < target) (hd : 0 ≤ down) :
    r ≤ rampStep r target up down false ∧ rampStep r target up down false ≤ target ∧ rampStep r target up down false ≤ r + down := by
  rw [rampStep, if_pos (by simp [h, h']), if_neg Bool.false_ne_true, if_neg (by omega)]
  exact ⟨le_min (le_min h'.le h.le) (by omega), (min_le_left _ _).trans (min_le_left _ _), min_le_right _ _⟩

theorem rampStep_held {r target : Int} (up down : Int) (h : (0 < r ∧ target < r) ∨ (r < 0 ∧ r < target)) :
    rampStep r target up down true = r := by
  rw [rampStep, if_pos (by simpa using h), if_pos rfl]

/-- A reference that rises. -/
theorem rampStep_rise {r target : Int} (up down : Int) (hold : Bool) (h : ¬ ((0 < r ∧ target < r) ∨ (r < 0 ∧ r < target))) :
    rampStep r target up down hold = if r < target then min target (r + up) else if target < r then max target (r - up) else r := by
  rw [rampStep, if_neg (by simpa using h)]

theorem rampStep_bounds (r target up down : Int) (hold : Bool) (hu : 0 ≤ up) (hd : 0 ≤ down) :
    let r' := rampStep r target up down hold
    (r ≤ target → r ≤ r' ∧ r' ≤ target ∧ r' ≤ r + max up down) ∧
    (target ≤ r → target ≤ r' ∧ r' ≤ r ∧ r - max up down ≤ r') ∧
    (hold = true → (0 < r ∧ target < r) ∨ (r < 0 ∧ r < target) → r' = r) := by
  have hmu : up ≤ max up down := le_max_left _ _
  have hmd : down ≤ max up down := le_max_right _ _
  generalize max up down = m at *
  dsimp only
  by_cases hf : (0 < r ∧ target < r) ∨ (r < 0 ∧ r < target)
  · cases hold with
    | true =>
      rw [rampStep_held up down hf]
      exact ⟨by omega, by omega, fun _ _ => rfl⟩
    | false =>
      refine ⟨fun h => ?_, fun h => ?_, fun h => absurd h Bool.false_ne_true⟩
      · have := rampStep_up (target := target) up (by omega : r < 0) (by omega) hd
        omega
      · have := rampStep_down (target := target) up (by omega : 0 < r) (by omega) hd
        omega
  · rw [rampStep_rise up down hold hf]
    refine ⟨fun h => ?_, fun h => ?_, fun _ h => absurd h hf⟩
    · rw [if_neg (by omega : ¬ target < r)]
      split <;> omega
    · rw [if_neg (by omega : ¬ r < target)]
      split <;> omega

/-! ### The command pins (R291) -/

theorem q16_lt (num den : Nat) : q16 num den < 65536 := by
  rw [q16]
  omega

/-- The pin mode does not depend on what a pin has measured. -/
theorem pinMode_of_regs {s u : State} {c : Nat} (h : ∀ a, a ≠ Reg.FOC_PIN_VAL c → s.reg a = u.reg a) :
    s.pinMode c = u.pinMode c := by
  have h1 : s.f (Reg.FOC_CFG c) 3 1 = u.f (Reg.FOC_CFG c) 3 1 :=
    f_of_reg (h _ (by simp only [Reg.FOC_CFG, Reg.FOC_PIN_VAL]; omega)) _ _
  have h2 : s.f Reg.FOC_GCFG 1 0 = u.f Reg.FOC_GCFG 1 0 :=
    f_of_reg (h _ (by simp only [Reg.FOC_GCFG, Reg.FOC_PIN_VAL]; omega)) _ _
  have h3 : s.limit = u.limit := by
    rw [State.limit, State.limit, fb_of_reg (h _ (by simp only [Reg.SYS_PROFILE, Reg.FOC_PIN_VAL]; omega))]
  rw [State.pinMode, State.pinMode, h1, h2, h3]

theorem reg_modCh (s : State) (c : Nat) (g : FocCh → FocCh) (a : Nat) : (s.modCh c g).reg a = s.reg a := rfl
theorem mem_modCh (s : State) (c : Nat) (g : FocCh → FocCh) : (s.modCh c g).mem = s.mem := rfl

/-- The channel with an edge of its pin taken, before what the edge measures. -/
def State.pinEdged (u : State) (c : Nat) (rising : Bool) (x : Nat) : State :=
  (u.setB (Reg.FOC_PIN_VAL c) 16 false).modCh c fun z =>
    { z with pinEdge := some x, pinHigh := rising, pinRise := if rising then some x else z.pinRise
             pinFall := if rising then z.pinFall else some x }

section
variable (u : State) {c : Nat} (rising : Bool) (x : Nat)

theorem pinEdged_reg {a : Nat} (h : a ≠ Reg.FOC_PIN_VAL c) : (u.pinEdged c rising x).reg a = u.reg a := by
  rw [State.pinEdged, reg_modCh, reg_setB_ne _ h]

theorem pinEdged_mode : (u.pinEdged c rising x).pinMode c = u.pinMode c :=
  pinMode_of_regs fun _ h => pinEdged_reg u rising x h

theorem pinEdged_f : (u.pinEdged c rising x).f (Reg.FOC_PIN_VAL c) 15 0 = u.f (Reg.FOC_PIN_VAL c) 15 0 := by
  rw [State.pinEdged, f_modCh, f_setB_field u (by decide : 16 < 32) (.inl (by decide))]

/-- What every edge of a pin leaves, whatever it measures: `v` differs from the state with the edge taken in the measured
fraction alone. -/
theorem pinEdged_shown {v : State} {n : Nat} (hv : v = u.pinEdged c rising x ∨ v = (u.pinEdged c rising x).setPinF c n) :
    v.fb (Reg.FOC_PIN_VAL c) 16 = false ∧ v.mem = u.mem ∧ (v.focCh c).pinEdge = some x ∧ (v.focCh c).pinHigh = rising ∧
    ∀ a, a ≠ Reg.FOC_PIN_VAL c → v.reg a = u.reg a := by
  have hb : (u.pinEdged c rising x).fb (Reg.FOC_PIN_VAL c) 16 = false := by
    rw [State.pinEdged, fb_modCh, fb_setB_self u _ (by decide : 16 < 32)]
  have hm : (u.pinEdged c rising x).mem = u.mem := by
    rw [State.pinEdged, mem_modCh, setB_mem]
  have hch : (u.pinEdged c rising x).focCh c = { u.focCh c with
      pinEdge := some x, pinHigh := rising, pinRise := if rising then some x else (u.focCh c).pinRise
      pinFall := if rising then (u.focCh c).pinFall else some x } := by
    rw [State.pinEdged, focCh_modCh_self, focCh_setB]
  rcases hv with rfl | rfl
  · rw [hch]
    exact ⟨hb, hm, rfl, rfl, fun a h => pinEdged_reg u rising x h⟩
  · rw [State.setPinF, focCh_setF, hch]
    refine ⟨(fb_setF_field _ (by decide) (by decide) (.inr (by decide)) _).trans hb, hm, rfl, rfl, fun a h => ?_⟩
    rw [reg_setF_ne _ h, pinEdged_reg u rising x h]

theorem pinEdged_fall : ((u.pinEdged c false x).focCh c).pinFall = some x := by
  rw [State.pinEdged, focCh_modCh_self]
  rfl

end

section
variable {s : State} {t : Tick} {c : Fin 16} {x : Nat} (hon : (s.at t).actOn = true)
include hon

/-- A falling edge, and a rising one before any other, measures nothing. -/
theorem exec_cmdPinEdge_first {rising : Bool} (h : rising = true → ((s.at t).focCh c).pinRise = none) :
    exec (.cmdPinEdge t c rising x) s = .next ((s.at t).pinEdged c rising x) := by
  change execCmdPinEdge t c rising x s = _
  rw [execCmdPinEdge]
  generalize s.at t = u at *
  rw [if_neg (by simp [hon])]
  cases rising with
  | false => rfl
  | true =>
    dsimp only
    rw [h rfl]
    rfl

/-- A rising edge at `x` after one at `r`. -/
theorem exec_cmdPinEdge_period {r : Nat} (h : ((s.at t).focCh c).pinRise = some r) :
    exec (.cmdPinEdge t c true x) s =
      if (s.at t).pinMode c = 3 then .next (((s.at t).pinEdged c true x).setPinF c (q16 128000 (x - r)))
      else if (s.at t).pinMode c = 2 ∧ 64000 ≤ x - r ∧ x - r ≤ 6400000 then
        .next ((((s.at t).focCh c).pinFall).elim ((s.at t).pinEdged c true x) fun f =>
          if r ≤ f then ((s.at t).pinEdged c true x).setPinF c (q16 (f - r) (x - r)) else (s.at t).pinEdged c true x)
      else .next ((s.at t).pinEdged c true x) := by
  change execCmdPinEdge t c true x s = _
  rw [execCmdPinEdge]
  generalize s.at t = u at *
  rw [if_neg (by simp [hon]), ← pinEdged_mode u true x]
  dsimp only
  rw [h]
  cases (u.focCh c).pinFall with
  | none => rfl
  | some f => rfl

/-- What an edge answers: the state with the edge taken, and where it measures, with the fraction. -/
theorem exec_cmdPinEdge_cases (rising : Bool) : ∃ v : State, exec (.cmdPinEdge t c rising x) s = .next v ∧
    (∃ n, v = (s.at t).pinEdged c rising x ∨ v = ((s.at t).pinEdged c rising x).setPinF c n) ∧
    (rising = false → v = (s.at t).pinEdged c rising x) ∧
    (∀ r, rising = true → ((s.at t).focCh c).pinRise = some r →
      ((s.at t).pinMode c = 3 → v.f (Reg.FOC_PIN_VAL c) 15 0 = q16 128000 (x - r)) ∧
      ∀ f, (s.at t).pinMode c = 2 → ((s.at t).focCh c).pinFall = some f → r ≤ f → 64000 ≤ x - r → x - r ≤ 6400000 →
        v.f (Reg.FOC_PIN_VAL c) 15 0 = q16 (f - r) (x - r)) := by
  have hset (w : State) (num den : Nat) : (w.setPinF c (q16 num den)).f (Reg.FOC_PIN_VAL c) 15 0 = q16 num den :=
    (f_setF_self _ _ (by decide) (by decide) _).trans (Nat.mod_eq_of_lt (q16_lt num den))
  by_cases hn : rising = true → ((s.at t).focCh c).pinRise = none
  · refine ⟨_, exec_cmdPinEdge_first hon hn, ⟨0, .inl rfl⟩, fun _ => rfl, fun r hr hp => ?_⟩
    rw [hn hr] at hp
    exact absurd hp (Option.some_ne_none r).symm
  · obtain ⟨rfl, hp⟩ := Classical.not_imp.1 hn
    obtain ⟨r, hr⟩ := Option.ne_none_iff_exists'.1 hp
    rw [exec_cmdPinEdge_period hon hr]
    generalize s.at t = u at *
    split
    · next h3 =>
      refine ⟨_, rfl, ⟨_, .inr rfl⟩, fun h => absurd h.symm Bool.false_ne_true, fun r' _ hr' => ?_⟩
      obtain rfl := Option.some.inj (hr.symm.trans hr')
      exact ⟨fun _ => hset _ _ _, fun f h2 => absurd (h2.symm.trans h3) (by decide)⟩
    · next h3 =>
      split
      · next h2 =>
        refine ⟨_, rfl, ?_, fun h => absurd h.symm Bool.false_ne_true, fun r' _ hr' => ⟨fun h => absurd h h3, ?_⟩⟩
        · cases (u.focCh c).pinFall with
          | none => exact ⟨0, .inl rfl⟩
          | some f =>
            rw [Option.elim_some]
            split
            · exact ⟨_, .inr rfl⟩
            · exact ⟨0, .inl rfl⟩
        · intro f _ hf hle _ _
          obtain rfl := Option.some.inj (hr.symm.trans hr')
          rw [hf, Option.elim_some, if_pos hle, hset]
      · next h2 =>
        refine ⟨_, rfl, ⟨0, .inl rfl⟩, fun _ => rfl, fun r' _ hr' => ⟨fun h => absurd h h3, fun f hm _ _ h1 h4 => ?_⟩⟩
        obtain rfl := Option.some.inj (hr.symm.trans hr')
        exact absurd ⟨hm, h1, h4⟩ h2

end

/-! ### A lost pin (R291) -/

/-- The channel whose DUTY pin is told to be lost, at the level it stands at. -/
def State.pinTold (u : State) (c : Nat) : State :=
  (((u.setPinF c (if (u.focCh c).pinHigh then 0xFFFF else 0)).setB (Reg.FOC_PIN_VAL c) 16 true).focIrq c 4).raise srcFOC 5

theorem pinTold_shown (u : State) (c : Nat) :
    (u.pinTold c).f (Reg.FOC_PIN_VAL c) 15 0 = (if (u.focCh c).pinHigh then 0xFFFF else 0) ∧
    (u.pinTold c).fb (Reg.FOC_PIN_VAL c) 16 = true ∧ (u.pinTold c).fb (Reg.FOC_IRQ_STATUS c) 4 = true ∧
    (u.pinTold c).mem = u.mem ∧
    (u.pinTold c).sbx.raised = u.sbx.raised ++ [{ src := srcFOC, ev := 5, ts := u.now }] := by
  have hne : Reg.FOC_PIN_VAL c ≠ Reg.FOC_IRQ_STATUS c := by simp only [Reg.FOC_PIN_VAL, Reg.FOC_IRQ_STATUS]; omega
  rw [State.pinTold, State.focIrq, State.setPinF]
  refine ⟨?_, ?_, ?_, ?_, ?_⟩
  · rw [f_raise, f_setB_ne _ hne, f_setB_field _ (by decide : 16 < 32) (.inl (by decide)), f_setF_self _ _ (by decide) (by decide)]
    split <;> rfl
  · rw [fb_raise, fb_setB_ne _ hne, fb_setB_self _ _ (by decide : 16 < 32)]
  · rw [fb_raise, fb_setB_self _ _ (by decide : 4 < 32)]
  · rw [raise_mem, setB_mem, setB_mem, setF_mem]
  · rw [raised_raise, State.now, State.now, setB_clk, setB_clk, setF_clk, setB_sbx, setB_sbx, setF_sbx]

section
variable {s : State} {t : Tick} {c : Fin 16} (hon : (s.at t).actOn = true)
include hon

theorem exec_pinLost_told {e : Nat} (hm : (s.at t).pinMode c = 2) (he : ((s.at t).focCh c).pinEdge = some e)
    (hd : e + 12800000 ≤ (s.at t).clk.tb) (hb : (s.at t).fb (Reg.FOC_PIN_VAL c) 16 = false) :
    exec (.pinLost t c) s = .next ((s.at t).pinTold c) := by
  change execPinLost t c s = _
  rw [execPinLost]
  generalize s.at t = u at *
  have hlost : (u.actOn && ((u.pinMode c == 2 && decide ((u.focCh c).pinEdge.getD 0 + 12800000 ≤ u.clk.tb)) ||
      (u.pinMode c == 3 && decide ((u.focCh c).pinRise.getD 0 + 64000000 ≤ u.clk.tb)))) = true := by
    simp [hon, hm, he, hd]
  have hset (n : Nat) : (u.setPinF c n).fb (Reg.FOC_PIN_VAL c) 16 = false :=
    (fb_setF_field u (by decide) (by decide) (.inr (by decide)) n).trans hb
  dsimp only
  rw [if_pos hlost, hset, if_neg Bool.false_ne_true, hm]
  rfl

omit hon in
theorem exec_pinLost_none (h2 : (s.at t).pinMode c ≠ 2) (h3 : (s.at t).pinMode c ≠ 3) :
    exec (.pinLost t c) s = .next (s.at t) := by
  change execPinLost t c s = _
  rw [execPinLost]
  generalize s.at t = u at *
  exact if_neg (by simp [h2, h3])

end

/-! ### The substitution of engines (R271) -/

section
variable (u : State) (w : Word)

/-- The engine is in use by a channel. -/
def State.engineUsed (e : Nat) : Bool := (List.range 16).any fun c => u.f (Reg.FOC_ENG_MAP c) 4 0 == e

theorem engineUsed_iff (e : Nat) : u.engineUsed e = true ↔ ∃ c < 16, u.f (Reg.FOC_ENG_MAP c) 4 0 = e := by
  simp [State.engineUsed]

/-- The engine is absent or has failed. -/
def State.engineBad (e : Nat) : Bool := 18 ≤ e || (u.reg Reg.FOC_ENG_FAIL).getLsbD e

theorem engineBad_iff (e : Nat) : u.engineBad e = true ↔ 18 ≤ e ∨ (u.reg Reg.FOC_ENG_FAIL).getLsbD e = true := by
  simp [State.engineBad]

theorem engSubst_eq (h : bits w 12 8 ≠ 31) : u.engSubst w =
    if u.engineUsed (bits w 12 8) then u.setReg Reg.FOC_ENG_SUBST_STATUS 7
    else if u.engineBad (bits w 12 8) then u.setReg Reg.FOC_ENG_SUBST_STATUS 11
    else if u.foc.subst.isSome then u.setReg Reg.FOC_ENG_SUBST_STATUS 15
    else { u with foc := { u.foc with subst := some (bits w 3 0, bits w 12 8) } }.engStatus 1 := by
  rw [State.engSubst]
  exact if_neg h

/-- The engine map with a channel's engine replaced, its old one failed and nothing waiting. -/
def State.engineApplied (c e : Nat) : State :=
  { (u.setF (Reg.FOC_ENG_MAP c) 4 0 e).setB Reg.FOC_ENG_FAIL (u.f (Reg.FOC_ENG_MAP c) 4 0) true with
    foc := { ((u.setF (Reg.FOC_ENG_MAP c) 4 0 e).setB Reg.FOC_ENG_FAIL (u.f (Reg.FOC_ENG_MAP c) 4 0) true).foc with
      subst := none } }.engStatus 2

theorem engineApplied_shown {c e : Nat} (hc : c < 16) (he : e < 18) : (u.engineApplied c e).f (Reg.FOC_ENG_MAP c) 4 0 = e ∧
    (u.engineApplied c e).fb Reg.FOC_ENG_FAIL (u.f (Reg.FOC_ENG_MAP c) 4 0) = true ∧
    (u.engineApplied c e).foc.subst = none ∧ (u.engineApplied c e).reg Reg.FOC_ENG_SUBST_STATUS = 2 := by
  have h1 : Reg.FOC_ENG_MAP c ≠ Reg.FOC_ENG_SUBST_STATUS := by
    simp only [Reg.FOC_ENG_MAP, Reg.FOC_ENG_SUBST_STATUS]
    omega
  have h2 : Reg.FOC_ENG_MAP c ≠ Reg.FOC_ENG_FAIL := by simp only [Reg.FOC_ENG_MAP, Reg.FOC_ENG_FAIL]; omega
  have hlt : u.f (Reg.FOC_ENG_MAP c) 4 0 < 32 := f_lt u _ _ _
  rw [State.engineApplied, State.engStatus]
  refine ⟨?_, ?_, rfl, reg_setReg_self _ _ _⟩
  · rw [f_setReg_ne _ h1]
    refine (f_setB_ne (u.setF (Reg.FOC_ENG_MAP c) 4 0 e) h2 _ _ _ _).trans ?_
    rw [f_setF_self _ _ (by decide) (by decide)]
    exact Nat.mod_eq_of_lt (show e < 32 by omega)
  · rw [fb_setReg_ne _ (by decide)]
    exact fb_setB_self (u.setF (Reg.FOC_ENG_MAP c) 4 0 e) _ hlt _

end

section
variable {s : State} {t : Tick} (hon : (s.at t).actOn = true)
include hon

theorem exec_engSubst (w : Word) : exec (.focEngSubstRequest t w) s = .next ((s.at t).engSubst w) ∧
    exec (.focEngSubstCancel t) s = .next (s.at t).engCancel := by
  change execFocEngSubstRequest t w s = _ ∧ execFocEngSubstCancel t s = _
  rw [execFocEngSubstRequest, execFocEngSubstCancel]
  generalize s.at t = u at *
  exact ⟨if_pos hon, if_pos hon⟩

omit hon in
theorem exec_engineSubst_none (h : (s.at t).foc.subst = none) : exec (.engineSubstApply t) s = .next (s.at t) := by
  change execEngineSubstApply t s = _
  rw [execEngineSubstApply]
  generalize s.at t = u at *
  simp only [h]

theorem exec_engineSubst_apply {c e : Nat} (h : (s.at t).foc.subst = some (c, e))
    (hst : (s.at t).focState c = 0 ∨ (s.at t).focState c = 11) :
    exec (.engineSubstApply t) s = .next (((s.at t).engineApplied c e).ldgRecord 2 0x11 1
      (bytesLE 1 c ++ bytesLE 1 ((s.at t).f (Reg.FOC_ENG_MAP c) 4 0) ++ bytesLE 1 e)) := by
  change execEngineSubstApply t s = _
  rw [execEngineSubstApply]
  generalize s.at t = u at *
  simp only [h]
  rw [if_pos (by rcases hst with hst | hst <;> simp [hon, hst, fOFF, fFAULT])]
  rfl

omit hon in
theorem exec_engineSubst_waits {c e : Nat} (h : (s.at t).foc.subst = some (c, e)) (h0 : (s.at t).focState c ≠ 0)
    (h11 : (s.at t).focState c ≠ 11) : exec (.engineSubstApply t) s = .next (s.at t) := by
  change execEngineSubstApply t s = _
  rw [execEngineSubstApply]
  generalize s.at t = u at *
  simp only [h]
  exact if_neg (by simp [h0, h11, fOFF, fFAULT])

end

end Sys2Proof.Machine
end

section
/-! The PWM period of a channel (R274): what is sampled and shown, a latch that brings nothing, and what a channel in CATCH and
in RUN does with its period. -/
namespace Sys2Proof.Machine

/-! ### Samples and estimates (R273, R274, R277, R278) -/

/-- The boundary of class S fields changes nothing but which of their words are in force. -/
theorem applyAll_form (s : State) (as : List Nat) : ∃ h, s.applyAll as = { s with held := h } := by
  refine foldl_invariant (P := fun w : State => ∃ h, w = { s with held := h }) (fun w a _ ⟨h, hw⟩ => ?_) ⟨s.held, rfl⟩
  subst hw
  unfold State.applyS
  split
  · split
    · exact ⟨_, rfl⟩
    · exact ⟨_, rfl⟩
  · exact ⟨_, rfl⟩

/-- The angle's source for this period: the observer from its lowest speed on, with a hysteresis (R278). -/
def State.sourced (s : State) (c : Nat) (w : Int) : State :=
  if s.focState c = fZTC || s.f (Reg.FOC_OBS c) 23 0 * (256 + s.f (Reg.FOC_OBS c) 31 24) ≤ w.natAbs * 256 then
    s.setB (Reg.FOC_STATE c) 4 true
  else if w.natAbs < s.f (Reg.FOC_OBS c) 23 0 then s.setB (Reg.FOC_STATE c) 4 false else s

section
variable (s : State) (c : Nat) (w : Int)

theorem sourced_eq : ∃ b, s.sourced c w = s.setB (Reg.FOC_STATE c) 4 b ∨ s.sourced c w = s := by
  rw [State.sourced]
  split
  · exact ⟨true, .inl rfl⟩
  · split
    · exact ⟨false, .inl rfl⟩
    · exact ⟨false, .inr rfl⟩

theorem sourced_kept : (∀ a, a ≠ Reg.FOC_STATE c → (s.sourced c w).reg a = s.reg a) ∧
    (s.sourced c w).focState c = s.focState c ∧ (s.sourced c w).focCh c = s.focCh c ∧ (s.sourced c w).mem = s.mem := by
  obtain ⟨b, h | h⟩ := sourced_eq s c w
  · rw [h]
    exact ⟨fun a ha => reg_setB_ne _ ha _ _, f_setB_field s (by decide : 4 < 32) (.inl (by decide)) b, focCh_setB _ _ _ _ _,
      setB_mem _ _ _ _⟩
  · rw [h]
    exact ⟨fun _ _ => rfl, rfl, rfl, rfl⟩

/-- Below its lowest speed the observer is not the source, but in ZTC. -/
theorem sourced_slow (h : w.natAbs < s.f (Reg.FOC_OBS c) 23 0) (hst : s.focState c ≠ 9) :
    (s.sourced c w).fb (Reg.FOC_STATE c) 4 = false := by
  have hle : ¬ s.f (Reg.FOC_OBS c) 23 0 * (256 + s.f (Reg.FOC_OBS c) 31 24) ≤ w.natAbs * 256 := by
    have : s.f (Reg.FOC_OBS c) 23 0 * 256 ≤ s.f (Reg.FOC_OBS c) 23 0 * (256 + s.f (Reg.FOC_OBS c) 31 24) :=
      Nat.mul_le_mul_left _ (Nat.le_add_right _ _)
    omega
  rw [State.sourced, if_neg (by simp [hst, fZTC, hle]), if_pos h]
  exact fb_setB_self s _ (by decide : 4 < 32) _

end

section
variable (u : State) (c : Nat) (sdu sdv : BitVec 766) (θ : BitVec 16) (ω : Int)

/-- The speed of the period: from the SCN push where there is one (R277). -/
def State.pwmSpeed : Int := (u.scnOmega c).getD ω

/-- The channel with the speed and the angle of the period shown. -/
def State.pwmShown : State := (u.setReg (Reg.FOC_SPEED c) (wordOfInt (u.pwmSpeed c ω))).setF (Reg.FOC_ANGLE c) 15 0 θ.toNat

theorem estimate_eq : u.estimate c θ.toNat ω = ((u.pwmShown c θ ω).sourced c (u.pwmSpeed c ω)).modCh c fun x =>
    { x with theta := θ.toNat, moved := x.moved + toSigned 16 (θ.toNat + 65536 - x.theta) } := rfl

theorem pwmShown_reg {a : Nat} (h1 : a ≠ Reg.FOC_SPEED c) (h2 : a ≠ Reg.FOC_ANGLE c) :
    (u.pwmShown c θ ω).reg a = u.reg a := by
  rw [State.pwmShown, reg_setF_ne _ h2, reg_setReg_ne _ h1]

/-- The currents of the period on the d and q axes. -/
def State.pwmCurrents : Int × Int := park (u.phaseCurrent c 3 sdu) (u.phaseCurrent c 4 sdv) θ.toNat

/-- The word that FOC_MEAS_I takes of two currents. -/
def measWord (i : Int × Int) : Word :=
  BitVec.ofNat 32 (fromSigned 16 (floorDiv i.1 (2 ^ 20)) + 2 ^ 16 * fromSigned 16 (floorDiv i.2 (2 ^ 20)))

/-- The channel with its samples and estimates taken. -/
def State.pwmSampled : State :=
  (u.estimate c θ.toNat ω).measure c (u.phaseCurrent c 3 sdu) (u.phaseCurrent c 4 sdv)

/-- What the samples of a period leave, `v` for `u`. -/
structure State.PwmSampled (v : State) : Prop where
  mem : v.mem = u.mem
  reg : ∀ a, a ≠ Reg.FOC_SPEED c → a ≠ Reg.FOC_ANGLE c → a ≠ Reg.FOC_STATE c → a ≠ Reg.FOC_MEAS_I c → v.reg a = u.reg a
  state : v.focState c = u.focState c
  speed : v.reg (Reg.FOC_SPEED c) = wordOfInt (u.pwmSpeed c ω)
  angle : v.f (Reg.FOC_ANGLE c) 15 0 = θ.toNat
  meas : v.reg (Reg.FOC_MEAS_I c) = measWord (u.pwmCurrents c sdu sdv θ)
  slow : (u.pwmSpeed c ω).natAbs < u.f (Reg.FOC_OBS c) 23 0 → u.focState c ≠ 9 → v.fb (Reg.FOC_STATE c) 4 = false
  reqs : (v.focCh c).startReq = (u.focCh c).startReq ∧ (v.focCh c).stopReq = (u.focCh c).stopReq ∧
    (v.focCh c).refBy = (u.focCh c).refBy
  duty : (v.focCh c).count = (u.focCh c).count ∧ (v.focCh c).dutyNext = (u.focCh c).dutyNext

/-- The registers of a channel that a period writes are different ones. -/
theorem pwm_registers : Reg.FOC_SPEED c ≠ Reg.FOC_ANGLE c ∧ Reg.FOC_SPEED c ≠ Reg.FOC_STATE c ∧
    Reg.FOC_ANGLE c ≠ Reg.FOC_STATE c ∧ Reg.FOC_SPEED c ≠ Reg.FOC_MEAS_I c ∧ Reg.FOC_ANGLE c ≠ Reg.FOC_MEAS_I c ∧
    Reg.FOC_STATE c ≠ Reg.FOC_MEAS_I c := by
  simp only [Reg.FOC_SPEED, Reg.FOC_ANGLE, Reg.FOC_STATE, Reg.FOC_MEAS_I]
  omega

theorem estimate_theta : ((u.estimate c θ.toNat ω).focCh c).theta = θ.toNat := by
  rw [estimate_eq, focCh_modCh_self]

theorem pwmSampled_eq : u.pwmSampled c sdu sdv θ ω =
    (u.estimate c θ.toNat ω).setReg (Reg.FOC_MEAS_I c) (measWord (u.pwmCurrents c sdu sdv θ)) := by
  rw [State.pwmSampled, State.measure, estimate_theta]
  rfl

theorem pwmSampled_facts : u.PwmSampled c sdu sdv θ ω (u.pwmSampled c sdu sdv θ ω) := by
  obtain ⟨h1, h2, h3, h4, h5, h6⟩ := pwm_registers c
  obtain ⟨hr, hs, hch, hm⟩ := sourced_kept (u.pwmShown c θ ω) c (u.pwmSpeed c ω)
  have hst : (u.pwmShown c θ ω).focState c = u.focState c := f_of_reg (pwmShown_reg u c θ ω h2.symm h3.symm) _ _
  have hobs : (u.pwmShown c θ ω).f (Reg.FOC_OBS c) 23 0 = u.f (Reg.FOC_OBS c) 23 0 :=
    f_of_reg (pwmShown_reg u c θ ω (by simp only [Reg.FOC_OBS, Reg.FOC_SPEED]; omega)
      (by simp only [Reg.FOC_OBS, Reg.FOC_ANGLE]; omega)) _ _
  have hch' : (u.pwmSampled c sdu sdv θ ω).focCh c = { u.focCh c with
      theta := θ.toNat, moved := (u.focCh c).moved + toSigned 16 (θ.toNat + 65536 - (u.focCh c).theta) } := by
    rw [pwmSampled_eq, focCh_setReg, estimate_eq, focCh_modCh_self, hch, State.pwmShown, focCh_setF, focCh_setReg]
  have hreg {a : Nat} (ha : a ≠ Reg.FOC_MEAS_I c) (ha' : a ≠ Reg.FOC_STATE c) :
      (u.pwmSampled c sdu sdv θ ω).reg a = (u.pwmShown c θ ω).reg a := by
    rw [pwmSampled_eq, reg_setReg_ne _ ha, estimate_eq, reg_modCh, hr a ha']
  refine ⟨?_, fun a k1 k2 k3 k4 => ?_, ?_, ?_, ?_, ?_, fun hw h9 => ?_, ?_, ?_⟩
  · rw [pwmSampled_eq, setReg_mem, estimate_eq, mem_modCh, hm]
    rfl
  · rw [hreg k4 k3, pwmShown_reg u c θ ω k1 k2]
  · rw [pwmSampled_eq, State.focState, f_setReg_ne _ h6, estimate_eq, f_modCh]
    exact hs.trans hst
  · rw [hreg h4 h2, State.pwmShown, reg_setF_ne _ h1, reg_setReg_self]
  · rw [f_of_reg (hreg h5 h3), State.pwmShown, f_setF_self _ _ (by decide) (by decide)]
    exact Nat.mod_eq_of_lt θ.isLt
  · rw [pwmSampled_eq, reg_setReg_self]
  · rw [pwmSampled_eq, fb_setReg_ne _ h6, estimate_eq, fb_modCh]
    exact sourced_slow _ c _ (hobs ▸ hw) (hst ▸ h9)
  · rw [hch']
    exact ⟨rfl, rfl, rfl⟩
  · rw [hch']
    exact ⟨rfl, rfl⟩

theorem measWord_fields (i : Int × Int) : bits (measWord i) 15 0 = fromSigned 16 (floorDiv i.1 (2 ^ 20)) ∧
    bits (measWord i) 31 16 = fromSigned 16 (floorDiv i.2 (2 ^ 20)) := by
  have h1 := fromSigned_lt 16 (floorDiv i.1 (2 ^ 20))
  have h2 := fromSigned_lt 16 (floorDiv i.2 (2 ^ 20))
  rw [measWord]
  generalize fromSigned 16 (floorDiv i.1 (2 ^ 20)) = a at *
  generalize fromSigned 16 (floorDiv i.2 (2 ^ 20)) = b at *
  simp only [bits, BitVec.toNat_ofNat]
  omega

end

/-! ### A latch that brings nothing (R280) -/

/-- What a latch with nothing to take leaves of a channel, `v` for `s`. -/
structure State.LatchKept (c : Nat) (s v : State) : Prop where
  mem : v.mem = s.mem
  reg : ∀ a, a ≠ Reg.FOC_PIN_VAL c → v.reg a = s.reg a
  reqs : (v.focCh c).startReq = (s.focCh c).startReq ∧ (v.focCh c).stopReq = (s.focCh c).stopReq
  duty : (v.focCh c).count = (s.focCh c).count ∧ (v.focCh c).dutyNext = (s.focCh c).dutyNext

theorem State.LatchKept.state {c : Nat} {s v : State} (h : State.LatchKept c s v) : v.focState c = s.focState c :=
  f_of_reg (h.reg _ (by simp only [Reg.FOC_STATE, Reg.FOC_PIN_VAL]; omega)) _ _

section
variable {s : State} {c : Nat}

theorem reverses_off (h5 : s.focState c ≠ 5) (h6 : s.focState c ≠ 6) (spd : Int) : s.reverses c spd = false := by
  simp [State.reverses, h5, h6, fSTARTING, fRUN]

theorem latchRefs_kept (h5 : s.focState c ≠ 5) (h6 : s.focState c ≠ 6) : State.LatchKept c s (s.latchRefs c) := by
  rw [State.latchRefs]
  simp only [reverses_off h5 h6, Bool.false_eq_true, if_false]
  obtain ⟨h, hh⟩ := applyAll_form s [Reg.FOC_IQ_REF c, Reg.FOC_SPD_REF c, Reg.FOC_ID_REF c]
  rw [hh]
  refine ⟨?_, fun a ha => ?_, ?_, ?_⟩
  · rw [mem_modCh]
    split <;> rfl
  · rw [reg_modCh]
    split
    · exact reg_setF_ne _ ha _ _ _
    · rfl
  · rw [focCh_modCh_self]
    split <;> exact ⟨rfl, rfl⟩
  · rw [focCh_modCh_self]
    split <;> exact ⟨rfl, rfl⟩

/-- What a latch takes of a channel that has nothing waiting. -/
theorem latchCmds_none (h1 : s.focState c ≠ 1) (hstart : ((s.latchRefs c).focCh c).startReq = none)
    (hstop : ((s.latchRefs c).focCh c).stopReq = none) (hst : (s.latchRefs c).focState c = s.focState c) :
    s.latchCmds c = (s.latchRefs c).modCh c fun x => { x with startReq := none, stopReq := none } := by
  rw [State.latchCmds]
  simp only [hstart, hstop, Option.isSome_none, Bool.false_eq_true, if_false]
  exact if_neg (by simp [hst, h1, fARMED])

theorem latchCh_kept (h1 : s.focState c ≠ 1) (h5 : s.focState c ≠ 5) (h6 : s.focState c ≠ 6)
    (hstart : (s.focCh c).startReq = none) (hstop : (s.focCh c).stopReq = none) (href : (s.focCh c).refBy = none) :
    State.LatchKept c s (s.latchCh c) := by
  have hr := latchRefs_kept h5 h6
  have hc := latchCmds_none h1 (hr.reqs.1.trans hstart) (hr.reqs.2.trans hstop) hr.state
  have hl : s.latchCh c = s.latchCmds c := by
    rw [State.latchCh]
    simp only [hstart, hstop, href]
    rw [State.focShared]
    exact ite_self _
  rw [hl, hc]
  refine ⟨hr.mem, hr.reg, ?_, ?_⟩
  · rw [focCh_modCh_self]
    exact ⟨hstart.symm, hstop.symm⟩
  · rw [focCh_modCh_self]
    exact hr.duty

end

/-! ### The command -/

/-- The latch of a period, where it is one of the profile (R280). -/
def State.pwmLatched (s : State) (c t : Nat) : State := if s.latchDue c t then s.latchCh c else s

/-- The end of a period: a channel in CATCH pulses, one that switches closes its loop. -/
def State.pwmEnded (s : State) (c : Nat) (iu iv : Int) : State :=
  if s.focState c = fCATCH then s.catchPeriod c iu iv
  else if s.energised c then ((s.runRamp c).runLoop c iu iv).switchPeriod c else s

theorem pwmEdge_iff (u : State) (c t : Nat) :
    u.pwmEdge c t = true ↔ u.tpwm c = 0 ∨ t % u.tpwm c = u.f (Reg.FOC_PWM_PHASE c) 20 0 := by
  rw [State.pwmEdge, Bool.or_eq_true, decide_eq_true_eq, decide_eq_true_eq]

section
variable {s : State} {t : Tick} {c : Fin 16} {sdu sdv : BitVec 766} {θ : BitVec 16} {ω : Int} {err : Nat}

theorem exec_pwmPeriod_off (h : (s.at t).actOn = false ∨
    ¬ ((s.at t).tpwm c = 0 ∨ t % (s.at t).tpwm c = (s.at t).f (Reg.FOC_PWM_PHASE c) 20 0)) :
    exec (.pwmPeriod t c sdu sdv θ ω err) s = .next (s.at t) := by
  change execPwmPeriod t c sdu sdv θ ω err s = _
  rw [execPwmPeriod]
  generalize s.at t = u at *
  refine if_pos ?_
  rcases h with h | h
  · simp [h]
  · simp [Bool.eq_false_iff.2 (mt (pwmEdge_iff u c t).1 h)]

/-- A period: samples, latch, state, and what the state does with it, `y` with the class S fields in force. -/
theorem exec_pwmPeriod (hon : (s.at t).actOn = true)
    (hp : (s.at t).tpwm c = 0 ∨ t % (s.at t).tpwm c = (s.at t).f (Reg.FOC_PWM_PHASE c) 20 0) :
    ∃ h, exec (.pwmPeriod t c sdu sdv θ ω err) s =
      .next (((({ s.at t with held := h }.pwmSampled c sdu sdv θ ω).pwmLatched c t).advanceCh c err).pwmEnded c
        ((s.at t).phaseCurrent c 3 sdu) ((s.at t).phaseCurrent c 4 sdv)) := by
  change ∃ h, execPwmPeriod t c sdu sdv θ ω err s = _
  rw [execPwmPeriod]
  generalize s.at t = u at *
  obtain ⟨h, hh⟩ := applyAll_form u [Reg.FOC_ILIM c, Reg.FOC_CUR_GAIN c, Reg.FOC_SPD_GAIN c, Reg.FOC_RAMP c]
  have hc : ¬ (!u.actOn || !u.pwmEdge c t) = true := by
    simp [hon, (pwmEdge_iff u c t).2 hp]
  refine ⟨h, ?_⟩
  rw [if_neg hc, hh]
  dsimp only
  rw [State.pwmEnded, ← apply_ite Host.Outcome.next, ← apply_ite Host.Outcome.next]
  rfl

end

end Sys2Proof.Machine
end

section
/-! A period of a channel that is off, in CATCH or in RUN (R272, R274, R282), and with it the settling of O38. -/
namespace Sys2Proof.Machine

/-! ### The on-times of a period (R272, R276) -/

theorem minPulse_ok {tpwm minp n : Nat} (h : n ≤ tpwm) : minPulse tpwm minp n = 0 ∨ minPulse tpwm minp n = tpwm ∨
    minp ≤ minPulse tpwm minp n ∧ minPulse tpwm minp n + minp ≤ tpwm := by
  rw [minPulse]
  split
  · exact .inl rfl
  · split
    · exact .inr (.inl rfl)
    · exact .inr (.inr ⟨by omega, by omega⟩)

theorem clampInt_toNat_le (n : Nat) (i : Int) : (clampInt 0 n i).toNat ≤ n := by
  rw [clampInt]
  split
  · exact Nat.zero_le _
  · split <;> omega

/-- A pulse and a gap of a period last at least MINP (R272). -/
theorem shapePulse_ok {s u : State} {c : Nat} (h1 : s.reg (Reg.FOC_PWM c) = u.reg (Reg.FOC_PWM c))
    (h2 : s.reg (Reg.FOC_PWM2 c) = u.reg (Reg.FOC_PWM2 c)) (h i : Int) :
    s.shapePulse c h i = 0 ∨ s.shapePulse c h i = u.tpwm c ∨
    u.f (Reg.FOC_PWM2 c) 31 16 ≤ s.shapePulse c h i ∧ s.shapePulse c h i + u.f (Reg.FOC_PWM2 c) 31 16 ≤ u.tpwm c := by
  have ht : s.tpwm c = u.tpwm c := f_of_reg h1 _ _
  rw [State.shapePulse, f_of_reg h2, ht]
  exact minPulse_ok (clampInt_toNat_le _ _)

/-! ### The current loop (R274) -/

/-- The state of a current loop, with its overflow counted. -/
def State.counted (s : State) (c : Nat) (ovr : Bool) : State := if ovr then s.incSat (Reg.FOC_CNT c) 31 16 else s

section
variable (s : State) (c : Nat)

theorem counted_kept (ovr : Bool) : (∀ a, a ≠ Reg.FOC_CNT c → (s.counted c ovr).reg a = s.reg a) ∧
    (s.counted c ovr).focCh c = s.focCh c ∧ (s.counted c ovr).mem = s.mem := by
  rw [State.counted]
  split
  · exact ⟨fun a ha => reg_incSat_ne _ ha _ _ _, focCh_incSat _ _ _ _ _ _, incSat_mem _ _ _ _ _⟩
  · exact ⟨fun _ _ => rfl, rfl, rfl⟩

/-- The loop puts the on-times of the period before into force and sets those of the next. -/
theorem runLoop_form (iu iv : Int) : ∃ (ovr : Bool) (n : Nat) (g : FocCh → FocCh) (h1 h2 h3 i1 i2 i3 : Int),
    s.runLoop c iu iv = ((s.counted c ovr).setF (Reg.FOC_ANGLE c) 31 16 n).modCh c g ∧
    ∀ x, (g x).duty = x.dutyNext ∧ (g x).dutyNext = some ((s.counted c ovr).shapePulse c h1 i1,
      (s.counted c ovr).shapePulse c h2 i2, (s.counted c ovr).shapePulse c h3 i3) := by
  rw [State.runLoop]
  obtain ⟨⟨id', iq⟩, hi⟩ : ∃ i, park iu iv (s.focCh c).theta = i := ⟨_, rfl⟩
  obtain ⟨⟨rd, rq, intW⟩, hr⟩ : ∃ r, s.currentRefs c = r := ⟨_, rfl⟩
  rw [hi, hr]
  exact ⟨_, _, _, _, _, _, _, _, _, rfl, fun x => ⟨rfl, rfl⟩⟩

/-- What a period of a switching channel leaves of `s`, in `v`. -/
structure State.Looped (v : State) : Prop where
  mem : v.mem = s.mem
  state : v.focState c = s.focState c
  duty : (v.focCh c).duty = (s.focCh c).dutyNext
  next : ∃ (w : State) (h1 h2 h3 i1 i2 i3 : Int), w.reg (Reg.FOC_PWM c) = s.reg (Reg.FOC_PWM c) ∧
    w.reg (Reg.FOC_PWM2 c) = s.reg (Reg.FOC_PWM2 c) ∧
    (v.focCh c).dutyNext = some (w.shapePulse c h1 i1, w.shapePulse c h2 i2, w.shapePulse c h3 i3)

theorem runLoop_looped (iu iv : Int) : s.Looped c (s.runLoop c iu iv) := by
  obtain ⟨ovr, n, g, h1, h2, h3, i1, i2, i3, he, hg⟩ := runLoop_form s c iu iv
  obtain ⟨hr, hch, hm⟩ := counted_kept s c ovr
  obtain ⟨hd, hn⟩ := hg ((s.counted c ovr).focCh c)
  rw [he]
  refine ⟨(mem_modCh _ _ _).trans ((setF_mem _ _ _ _ _).trans hm), ?_, ?_, s.counted c ovr, h1, h2, h3, i1, i2, i3, ?_, ?_, ?_⟩
  · rw [focState_modCh]
    exact (f_setF_ne _ (by simp only [Reg.FOC_STATE, Reg.FOC_ANGLE]; omega) _ _ _ _ _).trans
      (f_of_reg (hr _ (by simp only [Reg.FOC_STATE, Reg.FOC_CNT]; omega)) _ _)
  · rw [focCh_modCh_self, focCh_setF, hd, hch]
  · exact hr _ (by simp only [Reg.FOC_PWM, Reg.FOC_CNT]; omega)
  · exact hr _ (by simp only [Reg.FOC_PWM2, Reg.FOC_CNT]; omega)
  · rw [focCh_modCh_self, focCh_setF, hn]

theorem runRamp_form : s.runRamp c = s ∨ ∃ r : FocCh → Int, s.runRamp c = s.modCh c fun x => { x with ramp := r x } := by
  by_cases h : s.focState c = fFIND
  · exact .inl (if_pos h)
  · exact .inr ⟨_, if_neg h⟩

theorem runRamp_kept : (s.runRamp c).regs = s.regs ∧ (s.runRamp c).mem = s.mem ∧
    ((s.runRamp c).focCh c).dutyNext = (s.focCh c).dutyNext := by
  rcases runRamp_form s c with h | ⟨r, h⟩
  · rw [h]
    exact ⟨rfl, rfl, rfl⟩
  · rw [h, focCh_modCh_self]
    exact ⟨rfl, rfl, rfl⟩

/-- A period of a channel that switches. -/
theorem switched_looped (iu iv : Int) : s.Looped c (((s.runRamp c).runLoop c iu iv).switchPeriod c) := by
  obtain ⟨hr, hm, hd⟩ := runRamp_kept s c
  obtain ⟨k1, k2, k3, w, h1, h2, h3, i1, i2, i3, k4, k5, k6⟩ := runLoop_looped (s.runRamp c) c iu iv
  rw [State.switchPeriod]
  refine ⟨(mem_modCh _ _ _).trans (k1.trans hm), (focState_modCh _ _ _ _).trans (k2.trans (f_of_regs hr _ _ _)), ?_, w, h1, h2, h3, i1, i2, i3, k4.trans (reg_of_regs hr _),
    k5.trans (reg_of_regs hr _), ?_⟩
  · rw [focCh_modCh_self]
    exact k3.trans hd
  · rw [focCh_modCh_self]
    exact k6

/-! ### The state at a period (R282, R284) -/

variable {s c}

/-- A channel that is off, in CATCH within its 16 periods, or in RUN stays in its state. -/
theorem advanceCh_same {err : Nat} (h : s.focState c = 0 ∨ s.focState c = 8 ∨ s.focState c = 11 ∨ s.focState c = 6 ∨
    s.focState c = 2 ∧ (s.focCh c).count < 16) : s.advanceCh c err = s := by
  rw [State.advanceCh]
  rcases h with h | h | h | h | ⟨h, hn⟩
  · rw [h]
    rfl
  · rw [h]
    rfl
  · rw [h]
    rfl
  · rw [h]
    rfl
  · rw [h]
    exact if_pos hn

theorem pwmEnded_off {iu iv : Int} (h : s.focState c = 0 ∨ s.focState c = 8 ∨ s.focState c = 11) : s.pwmEnded c iu iv = s := by
  rw [State.pwmEnded, State.energised]
  rcases h with h | h | h
  · rw [h]
    rfl
  · rw [h]
    rfl
  · rw [h]
    rfl

theorem pwmEnded_catch {iu iv : Int} (h : s.focState c = 2) : s.pwmEnded c iu iv = s.catchPeriod c iu iv := if_pos h

theorem pwmEnded_run {iu iv : Int} (h : s.focState c = 6) :
    s.pwmEnded c iu iv = ((s.runRamp c).runLoop c iu iv).switchPeriod c := by
  rw [State.pwmEnded, State.energised, h]
  rfl

theorem catchPeriod_shown (iu iv : Int) : (s.catchPeriod c iu iv).focState c = s.focState c ∧
    (s.catchPeriod c iu iv).mem = s.mem ∧ ((s.catchPeriod c iu iv).focCh c).count = (s.focCh c).count + 1 ∧
    ((s.catchPeriod c iu iv).focCh c).dutyNext = (s.focCh c).dutyNext := by
  rw [State.catchPeriod, focCh_modCh_self]
  exact ⟨rfl, rfl, rfl, rfl⟩

end

/-! ### The period as a whole -/

section
variable {u : State} {c : Nat} {sdu sdv : BitVec 766} {θ : BitVec 16} {ω : Int} {x : State} (hx : u.PwmSampled c sdu sdv θ ω x)
include hx

/-- A latch at which nothing waits. -/
theorem pwmLatched_quiet (t : Nat) (h1 : u.focState c ≠ 1) (h5 : u.focState c ≠ 5) (h6 : u.focState c ≠ 6)
    (hq : (u.focCh c).startReq = none ∧ (u.focCh c).stopReq = none ∧ (u.focCh c).refBy = none) :
    State.LatchKept c x (x.pwmLatched c t) := by
  obtain ⟨k1, k2, k3⟩ := hx.reqs
  obtain ⟨q1, q2, q3⟩ := hq
  have hst := hx.state
  rw [State.pwmLatched]
  split
  · exact latchCh_kept (hst ▸ h1) (hst ▸ h5) (hst ▸ h6) (k1.trans q1) (k2.trans q2) (k3.trans q3)
  · exact ⟨rfl, fun _ _ => rfl, ⟨rfl, rfl⟩, ⟨rfl, rfl⟩⟩

/-- No latch of the profile. -/
theorem pwmLatched_none {t : Nat} (hl : u.limit = false) (ht : u.tpwm c ≤ t % 6400000) : x.pwmLatched c t = x := by
  have h1 : x.limit = u.limit := by
    rw [State.limit, State.limit, fb_of_reg (hx.reg _ ?_ ?_ ?_ ?_)]
    all_goals
      simp only [Reg.SYS_PROFILE, Reg.FOC_SPEED, Reg.FOC_ANGLE, Reg.FOC_STATE, Reg.FOC_MEAS_I]
      omega
  have h2 : x.tpwm c = u.tpwm c := by
    refine f_of_reg (hx.reg _ ?_ ?_ ?_ ?_) _ _
    all_goals
      simp only [Reg.FOC_PWM, Reg.FOC_SPEED, Reg.FOC_ANGLE, Reg.FOC_STATE, Reg.FOC_MEAS_I]
      omega
  exact if_neg (by simp [State.latchDue, h1, h2, hl, ht])

/-- A channel whose bridge is off shows what the period has sampled. -/
theorem pwm_off (t err : Nat) (iu iv : Int) (hst : u.focState c = 0 ∨ u.focState c = 8 ∨ u.focState c = 11)
    (hq : (u.focCh c).startReq = none ∧ (u.focCh c).stopReq = none ∧ (u.focCh c).refBy = none) :
    let v := ((x.pwmLatched c t).advanceCh c err).pwmEnded c iu iv
    v.focState c = u.focState c ∧ v.mem = u.mem ∧ v.reg (Reg.FOC_SPEED c) = wordOfInt (u.pwmSpeed c ω) ∧
    v.f (Reg.FOC_ANGLE c) 15 0 = θ.toNat ∧
    v.f (Reg.FOC_MEAS_I c) 15 0 = fromSigned 16 (floorDiv (u.pwmCurrents c sdu sdv θ).1 (2 ^ 20)) ∧
    v.f (Reg.FOC_MEAS_I c) 31 16 = fromSigned 16 (floorDiv (u.pwmCurrents c sdu sdv θ).2 (2 ^ 20)) ∧
    ((u.pwmSpeed c ω).natAbs < u.f (Reg.FOC_OBS c) 23 0 → v.fb (Reg.FOC_STATE c) 4 = false) := by
  have hn (m : Nat) (h0 : m ≠ 0) (h8 : m ≠ 8) (h11 : m ≠ 11) : u.focState c ≠ m := by omega
  have hk := pwmLatched_quiet hx t (hn 1 (by decide) (by decide) (by decide)) (hn 5 (by decide) (by decide) (by decide))
    (hn 6 (by decide) (by decide) (by decide)) hq
  have hs : (x.pwmLatched c t).focState c = u.focState c := hk.state.trans hx.state
  intro v
  have hv : v = x.pwmLatched c t := by
    have ha : (x.pwmLatched c t).advanceCh c err = x.pwmLatched c t :=
      advanceCh_same (by rw [hs]; rcases hst with h | h | h <;> simp [h])
    exact (congrArg (fun w => State.pwmEnded w c iu iv) ha).trans (pwmEnded_off (hs ▸ hst))
  obtain ⟨m1, m2⟩ := measWord_fields (u.pwmCurrents c sdu sdv θ)
  rw [hv]
  refine ⟨hs, hk.mem.trans hx.mem, ?_, ?_, ?_, ?_, fun hw => ?_⟩
  · rw [hk.reg _ (by simp only [Reg.FOC_SPEED, Reg.FOC_PIN_VAL]; omega), hx.speed]
  · rw [f_of_reg (hk.reg _ (by simp only [Reg.FOC_ANGLE, Reg.FOC_PIN_VAL]; omega)), hx.angle]
  · rw [State.f, hk.reg _ (by simp only [Reg.FOC_MEAS_I, Reg.FOC_PIN_VAL]; omega), hx.meas, m1]
  · rw [State.f, hk.reg _ (by simp only [Reg.FOC_MEAS_I, Reg.FOC_PIN_VAL]; omega), hx.meas, m2]
  · rw [fb_of_reg (hk.reg _ (by simp only [Reg.FOC_STATE, Reg.FOC_PIN_VAL]; omega)),
      hx.slow hw (hn 9 (by decide) (by decide) (by decide))]

/-- A channel in CATCH counts its periods. -/
theorem pwm_catch (t err : Nat) (iu iv : Int) (hst : u.focState c = 2) (hcount : (u.focCh c).count < 16)
    (hq : (u.focCh c).startReq = none ∧ (u.focCh c).stopReq = none ∧ (u.focCh c).refBy = none) :
    let v := ((x.pwmLatched c t).advanceCh c err).pwmEnded c iu iv
    v.focState c = 2 ∧ v.mem = u.mem ∧ (v.focCh c).count = (u.focCh c).count + 1 ∧
    (v.focCh c).dutyNext = (u.focCh c).dutyNext := by
  have hn (m : Nat) (h : m ≠ 2) : u.focState c ≠ m := by omega
  have hk := pwmLatched_quiet hx t (hn 1 (by decide)) (hn 5 (by decide)) (hn 6 (by decide)) hq
  have hs : (x.pwmLatched c t).focState c = 2 := (hk.state.trans hx.state).trans hst
  have hc : ((x.pwmLatched c t).focCh c).count = (u.focCh c).count := hk.duty.1.trans hx.duty.1
  have ha : (x.pwmLatched c t).advanceCh c err = x.pwmLatched c t :=
    advanceCh_same (.inr (.inr (.inr (.inr ⟨hs, hc ▸ hcount⟩))))
  dsimp only
  rw [ha, pwmEnded_catch hs]
  obtain ⟨k1, k2, k3, k4⟩ := catchPeriod_shown (s := x.pwmLatched c t) (c := c) iu iv
  exact ⟨k1.trans hs, k2.trans (hk.mem.trans hx.mem), k3.trans (congrArg (· + 1) hc), k4.trans (hk.duty.2.trans hx.duty.2)⟩

/-- A channel in RUN between two latches closes its loop. -/
theorem pwm_run {t : Nat} (err : Nat) (iu iv : Int) (hst : u.focState c = 6) (hl : u.limit = false)
    (ht : u.tpwm c ≤ t % 6400000) : x.Looped c (((x.pwmLatched c t).advanceCh c err).pwmEnded c iu iv) := by
  have hs : x.focState c = 6 := hx.state.trans hst
  rw [pwmLatched_none hx hl ht, advanceCh_same (.inr (.inr (.inr (.inl hs)))), pwmEnded_run hs]
  exact switched_looped x c iu iv

/-- The on-times that a loop sets suit the period. -/
theorem looped_next {v : State} (hv : x.Looped c v) : ∃ d, (v.focCh c).dutyNext = some d ∧
    let ok := fun n => n = 0 ∨ n = u.tpwm c ∨ u.f (Reg.FOC_PWM2 c) 31 16 ≤ n ∧ n + u.f (Reg.FOC_PWM2 c) 31 16 ≤ u.tpwm c
    ok d.1 ∧ ok d.2.1 ∧ ok d.2.2 := by
  obtain ⟨w, h1, h2, h3, i1, i2, i3, k1, k2, hd⟩ := hv.next
  have hr1 : w.reg (Reg.FOC_PWM c) = u.reg (Reg.FOC_PWM c) := by
    refine k1.trans (hx.reg _ ?_ ?_ ?_ ?_)
    all_goals
      simp only [Reg.FOC_PWM, Reg.FOC_SPEED, Reg.FOC_ANGLE, Reg.FOC_STATE, Reg.FOC_MEAS_I]
      omega
  have hr2 : w.reg (Reg.FOC_PWM2 c) = u.reg (Reg.FOC_PWM2 c) := by
    refine k2.trans (hx.reg _ ?_ ?_ ?_ ?_)
    all_goals
      simp only [Reg.FOC_PWM2, Reg.FOC_SPEED, Reg.FOC_ANGLE, Reg.FOC_STATE, Reg.FOC_MEAS_I]
      omega
  exact ⟨_, hd, shapePulse_ok hr1 hr2 _ _, shapePulse_ok hr1 hr2 _ _, shapePulse_ok hr1 hr2 _ _⟩

end

/-- Settles O38: a period by what its samples, its latch and its end leave; the outputs of a phase by the last edge up to
now; the ramp by its cases; pins and engines by the state each answers. -/
theorem motorPeriodPinsAndEngines : Obligations.MotorPeriodPinsAndEngines := by
  refine ⟨⟨fun s t c sdu sdv θ ω err => ?_, fun old p tpwm dead h x t heven hle hx ht _ =>
    phaseOutputs old p tpwm dead h x t heven hle hx ht, rampStep_bounds⟩, fun s t c x => ?_, fun s t w => ?_⟩
  · refine ⟨exec_pwmPeriod_off, fun hon hp => ?_⟩
    obtain ⟨h, he⟩ := exec_pwmPeriod (sdu := sdu) (sdv := sdv) (θ := θ) (ω := ω) (err := err) hon hp
    generalize s.at t = u at *
    have hx := pwmSampled_facts { u with held := h } c sdu sdv θ ω
    refine ⟨fun hq hst => ⟨_, he, pwm_off hx t err _ _ hst hq⟩, fun hq hst hn => ⟨_, he, pwm_catch hx t err _ _ hst hn hq⟩,
      fun hst hl ht => ⟨_, he, ?_⟩⟩
    have hv := pwm_run hx err (u.phaseCurrent c 3 sdu) (u.phaseCurrent c 4 sdv) hst hl ht
    exact ⟨hv.state.trans (hx.state.trans hst), hv.mem.trans hx.mem, hv.duty.trans hx.duty.2, looped_next hx hv⟩
  · intro u pv hon
    refine ⟨fun rising => ?_, fun e hm he hd hb => ⟨_, exec_pinLost_told hon hm he hd hb, ?_⟩, exec_pinLost_none⟩
    · obtain ⟨v, hv, ⟨n, hn⟩, hfall, hrise⟩ := exec_cmdPinEdge_cases (x := x) hon rising
      obtain ⟨k1, k2, k3, k4, k5⟩ := pinEdged_shown u rising x hn
      refine ⟨v, hv, k1, k2, k3, k4, k5, fun hr => ?_, hrise⟩
      rw [hfall hr, hr]
      exact ⟨pinEdged_f u false x, pinEdged_fall u x⟩
    · exact pinTold_shown u c
  · intro u c e hon
    obtain ⟨x1, x2⟩ := exec_engSubst (w := w) hon
    have hu : (∃ c < 16, u.f (Reg.FOC_ENG_MAP c) 4 0 = e) ↔ u.engineUsed e = true := (engineUsed_iff u e).symm
    have hb : (18 ≤ e ∨ (u.reg Reg.FOC_ENG_FAIL).getLsbD e = true) ↔ u.engineBad e = true := (engineBad_iff u e).symm
    dsimp only
    rw [hu, hb]
    refine ⟨fun h1 h2 => ?_, fun h1 h2 h3 => ?_, fun h1 h2 h3 h4 => ?_, fun h1 h2 h3 h4 => ?_, fun h => ?_, fun h => ?_,
      fun c e hc he h => ⟨fun hst => ⟨_, exec_engineSubst_apply hon h hst, engineApplied_shown u hc he⟩,
        exec_engineSubst_waits h⟩⟩
    · rw [x1, engSubst_eq _ _ h1, if_pos h2]
    · rw [x1, engSubst_eq _ _ h1, if_neg h2, if_pos h3]
    · rw [x1, engSubst_eq _ _ h1, if_neg h2, if_neg h3, if_pos (Option.isSome_iff_ne_none.2 h4)]
    · refine ⟨_, x1, ?_⟩
      rw [engSubst_eq _ _ h1, if_neg h2, if_neg h3, if_neg fun h' => Option.isSome_iff_ne_none.1 h' h4]
      exact ⟨rfl, reg_setReg_self _ _ _, rfl, rfl⟩
    · refine ⟨x2.trans (congrArg _ (if_neg fun h' => Option.isSome_iff_ne_none.1 h' h)), exec_engineSubst_none h⟩
    · refine ⟨_, x2, ?_⟩
      rw [State.engCancel, if_pos (Option.isSome_iff_ne_none.2 h)]
      exact ⟨rfl, reg_setReg_self _ _ _, rfl⟩

end Sys2Proof.Machine
end

section
/-! The frame of the clocks: what time passing does of itself (R23, R27) changes many parts of the state and never the
clocks. One equation per operation, for `simp`. Modes, sheets and streams. -/

namespace Sys2Proof.Machine

/-- What of the clocks time passing moves: the time base, whether it runs, and the count of REF cycles. A read may
change what stands beside them, the holding registers of CLK_TB_HI (R30). -/
def Clk.time (c : Clk) : Tick × Bool × Tick := (c.tb, c.run, c.ref)

@[simp] theorem ite_clk (c : Prop) [Decidable c] (a b : State) : (if c then a else b).clk = if c then a.clk else b.clk :=
  apply_ite _ _ _ _

theorem clk_of_pair {α : Type} {p : α × State} {x : α} {u : State} {c : Clk} (h : p = (x, u)) (hp : p.2.clk = c) :
    u.clk = c := by
  subst h
  exact hp

theorem time_of_pair {α : Type} {p : α × State} {x : α} {u : State} {t : Tick × Bool × Tick} (h : p = (x, u))
    (hp : p.2.clk.time = t) : u.clk.time = t := by
  subst h
  exact hp

theorem clk_of_triple {α β : Type} {p : α × β × State} {x : α} {y : β} {u : State} {c : Clk} (h : p = (x, y, u))
    (hp : p.2.2.clk = c) : u.clk = c := by
  subst h
  exact hp

theorem foldl_time {α : Type} {f : State → α → State} (h : ∀ s x, (f s x).clk.time = s.clk.time) (l : List α) (s : State) :
    (l.foldl f s).clk.time = s.clk.time :=
  foldl_invariant (f := f) (P := fun u => u.clk.time = s.clk.time) (fun a b _ ha => (h a b).trans ha) rfl

/-- A write that acts leaves the clocks; one that does not act answers no state. -/
def ClkOpt (s : State) (o : Option State) : Prop := ∀ u, o = some u → u.clk = s.clk

@[simp] theorem clkOpt_none (s : State) : ClkOpt s none := by
  intro u h
  cases h

@[simp] theorem clkOpt_some (s u : State) : ClkOpt s (some u) ↔ u.clk = s.clk := by
  constructor
  · exact fun h => h u rfl
  · rintro h _ ⟨⟩
    exact h

@[simp] theorem clkOpt_ite (s : State) (c : Prop) [Decidable c] (a b : Option State) :
    ClkOpt s (if c then a else b) ↔ (c → ClkOpt s a) ∧ (¬c → ClkOpt s b) := by
  split <;> simp [*]

section
variable (s : State)

/-! ### Modes and the power sequence (R42–R46) -/

@[simp] theorem modeRefuse_clk (m : Mode) (reason : Nat) : (s.modeRefuse m reason).clk = s.clk := by
  simp [State.modeRefuse]

@[simp] theorem setMode_clk (m : Mode) : (s.setMode m).clk = s.clk := by
  simp [State.setMode]

@[simp] theorem enterMode_clk (m : Mode) : (s.enterMode m).clk = s.clk := by
  unfold State.enterMode
  split <;> simp

@[simp] theorem beginChange_clk (m : Mode) (up down : List Nat) : (s.beginChange m up down).clk = s.clk := by
  simp [State.beginChange]

@[simp] theorem firstReady_clk : s.firstReady.clk = s.clk := by
  simp [State.firstReady]

@[simp] theorem resqPush_clk (r : ResRecord) : (s.resqPush r).clk = s.clk := by
  simp [State.resqPush]

@[simp] theorem refuseImage_clk (ready : Bool) (addr reason detail cand : Nat) :
    (s.refuseImage ready addr reason detail cand).clk = s.clk := by
  simp [State.refuseImage, resRecord_clk]

@[simp] theorem abortCheck_clk (reason : Nat) : (s.abortCheck reason).clk = s.clk := by
  unfold State.abortCheck
  split <;> simp

@[simp] theorem closeAdmission_clk : s.closeAdmission.clk = s.clk := by
  simp [State.closeAdmission, foldl_clk]

@[simp] theorem modeAccept_clk (m : Mode) : (s.modeAccept m).clk = s.clk := by
  unfold State.modeAccept
  split <;> simp

@[simp] theorem modeRequest_clk (m : Mode) : (s.modeRequest m).clk = s.clk := by
  unfold State.modeRequest
  (repeat' split) <;> simp

@[simp] theorem takeHeld_clk : s.takeHeld.clk = s.clk := by
  simp [State.takeHeld]

@[simp] theorem setStep_clk (d : Nat) (t : Option Tick) : (s.setStep d t).clk = s.clk := by
  simp [State.setStep]

@[simp] theorem setDom_clk (d st : Nat) : (s.setDom d st).clk = s.clk := by
  simp [State.setDom]

@[simp] theorem sendCtl_clk (st : Nat) (marker : Tick) (word : Nat → BitVec 64) :
    (s.sendCtl st marker word).clk = s.clk := by
  simp [State.sendCtl]

@[simp] theorem blankStation_clk (st : Nat) : (s.blankStation st).clk = s.clk := by
  simp [State.blankStation]

@[simp] theorem expSafe_clk : s.expSafe.clk = s.clk := by
  simp [State.expSafe, foldl_clk]

@[simp] theorem endInSafe_clk : s.endInSafe.clk = s.clk := by
  simp [State.endInSafe, foldl_clk]

/-! ### Memory, streams and the ends of a sheet (R70–R82, R183–R189) -/

@[simp] theorem gateRefuse_clk (i a : Nat) (k : AccKind) : (s.gateRefuse i a k).clk = s.clk := by
  simp [State.gateRefuse]

@[simp] theorem memUncor_clk (a n : Nat) : (s.memUncor a n).clk = s.clk := by
  simp [State.memUncor]

@[simp] theorem updateCredit_clk (st : Nat) : (s.updateCredit st).clk = s.clk := by
  simp [State.updateCredit]

@[simp] theorem blankSheet_clk (h : Nat) : (s.blankSheet h).clk = s.clk := by
  refine foldl_clk (fun u st => ?_) _ _
  split
  · simp
  · rfl

@[simp] theorem ldgLost_clk : s.ldgLost.clk = s.clk := by
  simp [State.ldgLost]

@[simp] theorem ldgQueue_clk (r : LdgReq) : (s.ldgQueue r).clk = s.clk := by
  unfold State.ldgQueue
  split <;> simp

@[simp] theorem dropWindows_clk (k : Nat) : (s.dropWindows k).clk = s.clk := by
  simp [State.dropWindows]

@[simp] theorem stopLanes_clk (st ln0 : Nat) : (s.stopLanes st ln0).clk = s.clk := by
  simp [State.stopLanes, foldl_clk]

@[simp] theorem setReleased_clk (st n : Nat) : (s.setReleased st n).clk = s.clk := by
  simp [State.setReleased]

@[simp] theorem advanceReleased_clk (st : Nat) : (s.advanceReleased st).clk = s.clk := by
  simp [State.advanceReleased]

@[simp] theorem setFilled_clk (st n : Nat) : (s.setFilled st n).clk = s.clk := by
  simp [State.setFilled]

@[simp] theorem advanceFilled_clk (st : Nat) : (s.advanceFilled st).clk = s.clk := by
  simp [State.advanceFilled]

@[simp] theorem endStream_clk (st : Nat) (x : Stream) : (s.endStream st x).clk = s.clk := by
  simp [State.endStream]

@[simp] theorem endSheet_clk (h : Nat) : (s.endSheet h).clk = s.clk := by
  simp [State.endSheet, foldl_clk]

@[simp] theorem lastSheetDone_clk : s.lastSheetDone.clk = s.clk := by
  simp [State.lastSheetDone]

@[simp] theorem withdrawSheet_clk (k reason detail : Nat) : (s.withdrawSheet k reason detail).clk = s.clk := by
  simp [State.withdrawSheet, outcome_clk]

@[simp] theorem spoilSheet_clk (k reason detail : Nat) : (s.spoilSheet k reason detail).clk = s.clk := by
  simp [State.spoilSheet, outcome_clk]

@[simp] theorem stopSheet_clk (k reason detail : Nat) : (s.stopSheet k reason detail).clk = s.clk := by
  simp [State.stopSheet, outcome_clk]

@[simp] theorem safeAmend_clk (k : Nat) (sh : Sheet) : (s.safeAmend k sh).clk = s.clk := by
  simp [State.safeAmend, amend_clk, modSheet_clk]

@[simp] theorem safeSheet_clk (k : Nat) (sh : Sheet) : (s.safeSheet k sh).clk = s.clk := by
  simp [State.safeSheet, modSheet_clk, tryFree_clk]

@[simp] theorem safeSheets_clk : s.safeSheets.clk = s.clk := by
  simp [State.safeSheets, settle_clk, foldl_clk]

@[simp] theorem unbindScans_clk (st : Nat) : (s.unbindScans st).clk = s.clk := by
  simp [State.unbindScans]

/-! ### Causes of a scan (R205, R224) -/

@[simp] theorem causeH_clk (h reason detail : Nat) : (s.causeH h reason detail).clk = s.clk := by
  simp [State.causeH, cause_clk]

@[simp] theorem scanCause_clk (st h kind k : Nat) : (s.scanCause st h kind k).clk = s.clk := by
  simp [State.scanCause]

end

end Sys2Proof.Machine
end

section
/-! The frame of the clocks: entering SAFE and the end of an edge. -/

namespace Sys2Proof.Machine

section
variable (s : State)

/-! ### Scanning stations, outputs and fuser zones in SAFE (R48) -/

@[simp] theorem setScnState_clk (st n : Nat) : (s.setScnState st n).clk = s.clk := by
  simp [State.setScnState]

@[simp] theorem enterSpinup_clk (st : Nat) : (s.enterSpinup st).clk = s.clk := by
  simp [State.enterSpinup]

@[simp] theorem scnLossFor_clk (st reason : Nat) (hs : List (Nat × Nat)) : (s.scnLossFor st reason hs).clk = s.clk := by
  simp [State.scnLossFor, foldl_clk]

@[simp] theorem scnSafe_clk (hs : Nat → List (Nat × Nat)) : (s.scnSafe hs).clk = s.clk := by
  simp [State.scnSafe, foldl_clk]

@[simp] theorem setOut_clk (n : Nat) (v : Bool) : (s.setOut n v).clk = s.clk := by
  simp [State.setOut]

@[simp] theorem snsSafe_clk : s.snsSafe.clk = s.clk := by
  simp [State.snsSafe, foldl_clk]

@[simp] theorem fusIrq_clk (i : Nat) : (s.fusIrq i).clk = s.clk := by
  simp [State.fusIrq]

@[simp] theorem fuserCauses_clk (p : Sheet → Option Nat) : (s.fuserCauses p).clk = s.clk := by
  refine foldl_clk (fun u q => ?_) _ _
  split
  · simp [cause_clk]
  · rfl

@[simp] theorem leaveRun_clk (z n : Nat) : (s.leaveRun z n).clk = s.clk := by
  simp [State.leaveRun]

@[simp] theorem zoneOff_clk (z : Nat) : (s.zoneOff z).clk = s.clk := by
  simp [State.zoneOff]

@[simp] theorem fusSafe_clk : s.fusSafe.clk = s.clk := by
  simp [State.fusSafe, foldl_clk]

/-! ### Steppers in SAFE (R322) -/

@[simp] theorem setPair48_clk (lo hi : Nat) (v : Int) : (s.setPair48 lo hi v).clk = s.clk := by
  simp [State.setPair48]

@[simp] theorem setRem_clk (c : Nat) (v : Int) : (s.setRem c v).clk = s.clk := by
  simp [State.setRem]

@[simp] theorem standAt_clk (c : Nat) (pos : Int) : (s.standAt c pos).clk = s.clk := by
  simp [State.standAt]

@[simp] theorem stpIrq_clk (c i : Nat) : (s.stpIrq c i).clk = s.clk := by
  simp [State.stpIrq]

@[simp] theorem takeFresh_clk : s.takeFresh.2.clk = s.clk := by
  simp [State.takeFresh]

@[simp] theorem enterStp_clk (c n : Nat) : (s.enterStp c n).clk = s.clk := by
  simp [State.enterStp]

@[simp] theorem hardStop_clk (c n : Nat) : (s.hardStop c n).clk = s.clk := by
  simp [State.hardStop]

@[simp] theorem rampStop_clk (c : Nat) (safe : Bool) : (s.rampStop c safe).clk = s.clk := by
  simp [State.rampStop]

@[simp] theorem stpSafe_clk : s.stpSafe.clk = s.clk := by
  refine foldl_clk (fun u c => ?_) _ _
  split
  · rfl
  · simp
  · simp

/-! ### Field-oriented channels in SAFE (R292) -/

@[simp] theorem focIrq_clk (c i : Nat) : (s.focIrq c i).clk = s.clk := by
  simp [State.focIrq]

@[simp] theorem enterFoc_clk (c n : Nat) : (s.enterFoc c n).clk = s.clk := by
  unfold State.enterFoc
  dsimp only
  split <;> simp

@[simp] theorem focCoast_clk (c : Nat) : (s.focCoast c).clk = s.clk := by
  simp [State.focCoast]

@[simp] theorem enterStopping_clk (c : Nat) : (s.enterStopping c).clk = s.clk := by
  simp [State.enterStopping]

@[simp] theorem focSafe_clk : s.focSafe.clk = s.clk := by
  refine foldl_clk (fun u c => ?_) _ _
  split
  · rfl
  · simp
  · simp

/-! ### High voltage in SAFE (R340) -/

@[simp] theorem endStage_clk : s.endStage.clk = s.clk := by
  simp [State.endStage]

@[simp] theorem checkStage_clk : s.checkStage.clk = s.clk := by
  simp [State.checkStage]

@[simp] theorem setHv_clk (u v : Nat) : (s.setHv u v).clk = s.clk := by
  simp [State.setHv]

@[simp] theorem rampStepHv_clk (u : Nat) : (s.rampStepHv u).clk = s.clk := by
  simp [State.rampStepHv]

@[simp] theorem startRamp_clk (u v1 n : Nat) : (s.startRamp u v1 n).clk = s.clk := by
  simp [State.startRamp]

@[simp] theorem beginStage_clk (n : Nat) : (s.beginStage n).clk = s.clk := by
  simp [State.beginStage, foldl_clk]

@[simp] theorem stopRamp_clk (u : Nat) : (s.stopRamp u).clk = s.clk := by
  simp [State.stopRamp]

@[simp] theorem hvSafe_clk : s.hvSafe.clk = s.clk := by
  simp [State.hvSafe, foldl_clk]

/-! ### The end of an edge (R43) -/

@[simp] theorem enterSafe_clk : s.enterSafe.clk = s.clk := by
  simp [State.enterSafe]

@[simp] theorem safeTrigger_clk : s.safeTrigger.clk = s.clk := by
  unfold State.safeTrigger
  dsimp only
  (repeat' split) <;> simp

@[simp] theorem imageUncor_clk (ready : Bool) (a : Nat) : (s.imageUncor ready a).clk = s.clk := by
  simp [State.imageUncor]

@[simp] theorem commit_clk (img : Image) (cand : Nat) : (s.commit img cand).clk = s.clk := by
  simp [State.commit, ldgRecord_clk, requestSwap_clk, resRecord_clk]

@[simp] theorem endCheck_clk (start : Tick) : (s.endCheck start).clk = s.clk := by
  unfold State.endCheck
  dsimp only
  (repeat' split) <;> simp

@[simp] theorem modeTake_clk (e : ModeEv) : (s.modeTake e).clk = s.clk := by
  unfold State.modeTake
  split <;> simp

@[simp] theorem closeEdge_clk (edge : Tick) : (s.closeEdge edge).clk = s.clk := by
  simp [State.closeEdge, foldl_clk]

end

end Sys2Proof.Machine
end

section
/-! The frame of the clocks: the power sequence at a REF edge, and reads. -/

namespace Sys2Proof.Machine

section
variable (s : State)

/-! ### Domains (R401–R412) -/

@[simp] theorem startRegs_clk (edge : Tick) : (s.startRegs edge).clk = s.clk := by
  unfold State.startRegs
  dsimp only
  (repeat' split) <;> simp [foldl_clk]

@[simp] theorem beginUp_clk (d : Nat) : (s.beginUp d).clk = s.clk := by
  simp [State.beginUp]

@[simp] theorem onEventAt_clk (d : Nat) (edge : Tick) : (s.onEventAt d edge).clk = s.clk := by
  simp [State.onEventAt]

@[simp] theorem onEvent_clk (d : Nat) (edge : Tick) : (s.onEvent d edge).clk = s.clk := by
  simp [State.onEvent, foldl_clk]

@[simp] theorem pwrNote_clk (d who : Nat) : (s.pwrNote d who).clk = s.clk := by
  simp [State.pwrNote]

@[simp] theorem pwrRefuse_clk (d who : Nat) : (s.pwrRefuse d who).clk = s.clk := by
  simp [State.pwrRefuse]

@[simp] theorem archiveRefuse_clk (d who : Nat) : (s.archiveRefuse d who).clk = s.clk := by
  simp [State.archiveRefuse]

@[simp] theorem takeOn_clk (d : Nat) (edge : Tick) : (s.takeOn d edge).clk = s.clk := by
  simp [State.takeOn]

@[simp] theorem beginDown_clk (d : Nat) (edge : Tick) : (s.beginDown d edge).clk = s.clk := by
  simp [State.beginDown]

@[simp] theorem offEvent_clk (d : Nat) (edge : Tick) : (s.offEvent d edge).clk = s.clk := by
  simp [State.offEvent]

@[simp] theorem archiveTake_clk (edge : Tick) : (s.archiveTake edge).clk = s.clk := by
  simp [State.archiveTake]

@[simp] theorem planNext_clk (edge : Tick) (a : Nat) : (s.planNext edge a).clk = s.clk := by
  induction a generalizing s with
  | zero => rfl
  | succ n ih =>
    unfold State.planNext
    dsimp only
    (repeat' split) <;> simp [ih]

@[simp] theorem pwrTake_clk (r : PwrReq) : (s.pwrTake r).clk = s.clk := by
  unfold State.pwrTake
  (repeat' split) <;> simp [foldl_clk]

@[simp] theorem pwrEdge_clk (edge : Tick) : (s.pwrEdge edge).clk = s.clk := by
  simp [State.pwrEdge, foldl_clk]

/-! ### Reads of registers and memory, of which that of CLK_TB_LO changes the holding register alone (R30) -/

@[simp] theorem nmiSettle_clk : s.nmiSettle.clk = s.clk := by
  simp [State.nmiSettle]

@[simp] theorem pltRefuse_clk (c bit ev : Nat) : (s.pltRefuse c bit ev).clk = s.clk := by
  simp [State.pltRefuse]

@[simp] theorem pltRx_clk (e : Option Nat) (c i : Nat) : (s.pltRx e c i).2.clk = s.clk := by
  unfold State.pltRx
  split <;> simp

@[simp] theorem drainPort_clk (p : Nat) : (s.drainPort p).clk = s.clk := by
  simp [State.drainPort]

@[simp] theorem histRead_clk (port i : Nat) : (s.histRead port i).2.clk = s.clk := by
  simp [State.histRead]

@[simp] theorem regReadWord_time (ini a : Nat) : (s.regReadWord ini a).2.clk.time = s.clk.time := by
  unfold State.regReadWord
  split
  · rfl
  · split
    · rfl
    · dsimp only
      split
      · rfl
      · split
        · simp
        · split
          · simp
          · split
            · split <;> rfl
            · rfl

@[simp] theorem regRead_time (ini a n : Nat) : (s.regRead ini a n).2.clk.time = s.clk.time := by
  unfold State.regRead
  split <;> simp

@[simp] theorem busLoad_time (ini a n : Nat) : (s.busLoad ini a n).2.clk.time = s.clk.time := by
  unfold State.busLoad
  split
  · split <;> simp
  · split <;> next h => exact congrArg Clk.time (clk_of_pair h (readMem_clk _ _ _ _))

@[simp] theorem readTarget_time (key p a : Nat) (rt : Fin 32) (sz : Nat) (signed : Bool) :
    (s.readTarget key p a rt sz signed).2.clk.time = s.clk.time := by
  unfold State.readTarget
  dsimp only
  split
  · split <;> next h => exact time_of_pair h (busLoad_time _ _ _ _)
  · split <;> next h => exact congrArg Clk.time (clk_of_pair h (readMem_clk _ _ _ _))

@[simp] theorem arrayRead_time (p : Nat) : (s.arrayRead p).clk.time = s.clk.time := by
  unfold State.arrayRead
  dsimp only
  (repeat' split) <;> simp

@[simp] theorem seqReads_time : s.seqReads.clk.time = s.clk.time :=
  foldl_time arrayRead_time _ _

@[simp] theorem holdLeaving_clk (p : Nat) (t : Tick) : (s.holdLeaving p t).clk = s.clk := by
  simp [State.holdLeaving]

end

end Sys2Proof.Machine
end

section
/-! The frame of the clocks: the writes that act. -/

namespace Sys2Proof.Machine

section
variable (s : State)

/-! ### Host, modes, domains and the Signal Box -/

@[simp] theorem hstLinkDown_clk : s.hstLinkDown.clk = s.clk := by
  simp [State.hstLinkDown, endHostDma_clk]

@[simp] theorem hstCtrlWrite_clk (w : Word) : (s.hstCtrlWrite w).clk = s.clk := by
  simp [State.hstCtrlWrite]

@[simp] theorem sendVector_clk (v : Nat) : (s.sendVector v).clk = s.clk := by
  simp [State.sendVector]

@[simp] theorem rearm_clk (v : Nat) : (s.rearm v).clk = s.clk := by
  simp [State.rearm]

@[simp] theorem dbSet_clk (hi : Bool) (w : Word) : (s.dbSet hi w).clk = s.clk := by
  simp [State.dbSet, foldl_clk]

@[simp] theorem modeEvent_clk (due : Tick) (e : ModeEv) : (s.modeEvent due e).clk = s.clk := by
  simp [State.modeEvent]

@[simp] theorem modeWrite_clk (ini m : Nat) : (s.modeWrite ini m).clk = s.clk := by
  simp [State.modeWrite]

@[simp] theorem domRequest_clk (d : Nat) (on : Bool) : (s.domRequest d on).clk = s.clk := by
  simp [State.domRequest]

@[simp] theorem vreqStart_clk (w : Word) : (s.vreqStart w).clk = s.clk := by
  simp [State.vreqStart]

@[simp] theorem errPin_clk : s.errPin.clk = s.clk := by
  simp [State.errPin]

@[simp] theorem sbxExit_clk (src : Nat) : (s.sbxExit src).clk = s.clk := by
  simp [State.sbxExit, setBit64_clk]

@[simp] theorem activeWrite_clk (hi : Bool) (w : Word) : (s.activeWrite hi w).clk = s.clk := by
  simp [State.activeWrite, foldl_clk]

@[simp] theorem brstRequest_clk (w : Word) : (s.brstRequest w).clk = s.clk := by
  simp [State.brstRequest]

@[simp] theorem srcCfgWrite_clk (i : Nat) (w : Word) : (s.srcCfgWrite i w).clk = s.clk := by
  simp [State.srcCfgWrite]

@[simp] theorem originWrite_clk (d : Nat) (w : Word) : (s.originWrite d w).clk = s.clk := by
  simp [State.originWrite]

/-! ### Timetable -/

@[simp] theorem submit_clk (w : Word) : (s.submit w).clk = s.clk := by
  simp [State.submit]

@[simp] theorem flushHeld_clk (a : Nat) : (s.flushHeld a).clk = s.clk := by
  induction a generalizing s with
  | zero => rfl
  | succ n ih =>
    unfold State.flushHeld
    split
    · rfl
    · split
      · rfl
      · simp [ih, modSheet_clk]

@[simp] theorem resqTailWrite_clk (w : Word) : (s.resqTailWrite w).clk = s.clk := by
  simp [State.resqTailWrite]

@[simp] theorem ttRequest_clk (handle causeByte : Nat) (spoil : Bool) :
    (s.ttRequest handle causeByte spoil).clk = s.clk := by
  simp [State.ttRequest, settle_clk]

@[simp] theorem updateBudget_clk : s.updateBudget.clk = s.clk := by
  simp [State.updateBudget]

@[simp] theorem cfgBusy_clk (a i : Nat) : (s.cfgBusy a i).clk = s.clk := by
  unfold State.cfgBusy
  split <;> simp

@[simp] theorem hold_clk (a : Nat) (v : Word) : (s.hold a v).clk = s.clk := by
  simp [State.hold]

@[simp] theorem storeReg_clk (a : Nat) (d : RegDesc) (i j : Nat) (w : Word) : (s.storeReg a d i j w).clk = s.clk := by
  simp [State.storeReg]

/-! ### Cores and slots -/

@[simp] theorem cancelSubst_clk : s.cancelSubst.clk = s.clk := by
  unfold State.cancelSubst
  split <;> simp

@[simp] theorem requestSubst_clk (w : Word) : (s.requestSubst w).clk = s.clk := by
  unfold State.requestSubst
  dsimp only
  (repeat' split) <;> simp

@[simp] theorem wantSeq_clk (p : Nat) : (s.wantSeq p).clk = s.clk := by
  simp [State.wantSeq]

@[simp] theorem bindCore_clk (l p : Nat) : (s.bindCore l p).clk = s.clk := by
  simp [State.bindCore]

@[simp] theorem coreMapWrite_clk (l : Nat) (w : Word) : (s.coreMapWrite l w).clk = s.clk := by
  simp [State.coreMapWrite]

@[simp] theorem slotFieldWrite_clk (a : Nat) (d : RegDesc) (i j : Nat) (w : Word) :
    (s.slotFieldWrite a d i j w).clk = s.clk := by
  simp [State.slotFieldWrite]

@[simp] theorem beginSpan_clk (key : Nat) (use : SlotUse) (r0 : Tick) (stop : Option Tick) :
    (s.beginSpan key use r0 stop).clk = s.clk := by
  simp [State.beginSpan]

@[simp] theorem slotStart_clk (key : Nat) : (s.slotStart key).clk = s.clk := by
  unfold State.slotStart
  split <;> simp

@[simp] theorem slotStop_clk (key : Nat) : (s.slotStop key).clk = s.clk := by
  simp [State.slotStop]

/-! ### DMA and memory -/

@[simp] theorem dmaReturn_clk (c : Nat) : (s.dmaReturn c).clk = s.clk := by
  unfold State.dmaReturn
  dsimp only
  (repeat' split) <;> simp

@[simp] theorem dmaSetEn_clk (c : Nat) (en : Bool) : (s.dmaSetEn c en).clk = s.clk := by
  simp [State.dmaSetEn]

@[simp] theorem dmaCfgWrite_clk (a : Nat) (d : RegDesc) (c : Nat) (w : Word) : (s.dmaCfgWrite a d c w).clk = s.clk := by
  simp [State.dmaCfgWrite]

@[simp] theorem dmaAbort_clk (c : Nat) : (s.dmaAbort c).clk = s.clk := by
  unfold State.dmaAbort
  split <;> simp

@[simp] theorem dmaHeadWrite_clk (c : Nat) (w : Word) : (s.dmaHeadWrite c w).clk = s.clk := by
  simp [State.dmaHeadWrite]

@[simp] theorem ldgWrote_clk (l : Nat) : (s.ldgWrote l).clk = s.clk := by
  unfold State.ldgWrote
  dsimp only
  (repeat' split) <;> simp

@[simp] theorem writeMem_clk (i a : Nat) (bs : List Byte) : (s.writeMem i a bs).2.clk = s.clk := by
  unfold State.writeMem
  (repeat' split) <;> simp

@[simp] theorem dmaWriteRecord_clk (c : Nat) (e : DmaExec) (status off : Nat) :
    (s.dmaWriteRecord c e status off).clk = s.clk := by
  unfold State.dmaWriteRecord
  simp

@[simp] theorem dmaComplete_clk (c : Nat) : (s.dmaComplete c).clk = s.clk := by
  unfold State.dmaComplete
  split
  · rfl
  · split
    · rfl
    · simp

@[simp] theorem dmaCqTail_clk (c : Nat) (w : Word) : (s.dmaCqTail c w).clk = s.clk := by
  unfold State.dmaCqTail
  dsimp only
  (repeat' split) <;> simp

/-! ### Platforms and frames of the Line -/

@[simp] theorem pltArr_clk (c : Nat) : (s.pltArr c).clk = s.clk := by
  simp [State.pltArr, foldl_clk]

@[simp] theorem pltCfg_clk (c : Nat) (w : Word) : (s.pltCfg c w).clk = s.clk := by
  simp [State.pltCfg]

@[simp] theorem pltTx_clk (e : Option Nat) (c : Nat) (w : Word) : (s.pltTx e c w).clk = s.clk := by
  unfold State.pltTx
  split <;> simp

@[simp] theorem lineEvent_clk (ev : Nat) : (s.lineEvent ev).clk = s.clk := by
  simp [State.lineEvent]

@[simp] theorem queueFrame_clk (p : Nat) (f : Frame) : (s.queueFrame p f).clk = s.clk := by
  simp [State.queueFrame]

@[simp] theorem originate_clk (f : Frame) : (s.originate f).clk = s.clk := by
  simp [State.originate]

@[simp] theorem sendUnicast_clk (type dest p0 p1 : Nat) : (s.sendUnicast type dest p0 p1).clk = s.clk := by
  simp [State.sendUnicast]

@[simp] theorem pltDrop_clk (e c n : Nat) : (s.pltDrop e c n).clk = s.clk := by
  simp [State.pltDrop]

@[simp] theorem pltPop_clk (e : Option Nat) (c n : Nat) : (s.pltPop e c n).clk = s.clk := by
  unfold State.pltPop
  split <;> simp

/-! ### Lanes and jobs -/

@[simp] theorem holdEnded_clk : s.holdEnded.clk = s.clk := by
  refine foldl_clk (fun u p => ?_) _ _
  split
  · simp
  · rfl

@[simp] theorem completeNext_clk : s.completeNext.clk = s.clk := by
  unfold State.completeNext
  split
  · rfl
  · split
    · rfl
    · split
      · simp
      · simp

@[simp] theorem flushRecords_clk (a : Nat) : (s.flushRecords a).clk = s.clk := by
  induction a generalizing s with
  | zero => rfl
  | succ n ih =>
    unfold State.flushRecords
    split
    · simp [ih]
    · rfl

@[simp] theorem fxTailWrite_clk (w : Word) : (s.fxTailWrite w).clk = s.clk := by
  simp [State.fxTailWrite]

theorem onBits_clk (w : Word) (acts : List (Nat × (State → State))) (h : ∀ p ∈ acts, ∀ u, (p.2 u).clk = u.clk) :
    (s.onBits w acts).clk = s.clk := by
  unfold State.onBits
  induction acts generalizing s with
  | nil => rfl
  | cons p acts ih =>
    rw [List.foldl_cons, ih _ fun q hq => h q (List.mem_cons_of_mem _ hq)]
    split
    · exact h p List.mem_cons_self s
    · rfl

@[simp] theorem resumeRefused_clk : s.resumeRefused.clk = s.clk := by
  simp [State.resumeRefused]

@[simp] theorem laneSave_clk (n : Nat) : (s.laneSave n).clk = s.clk := by
  unfold State.laneSave
  split <;> simp

@[simp] theorem endJobAt_clk (t : Tick) (n : Nat) (j : JobRun) (status : Nat) (err : Option DecErr) :
    (s.endJobAt t n j status err).clk = s.clk := by
  simp [State.endJobAt]

@[simp] theorem laneAbort_clk (n : Nat) : (s.laneAbort n).clk = s.clk := by
  unfold State.laneAbort
  split <;> simp

@[simp] theorem enterBuf_clk (j : JobRun) (d : Nat) : (s.enterBuf j d).2.clk = s.clk := by
  unfold State.enterBuf
  split
  · rfl
  · split
    · next h => exact clk_of_pair h (readMem_clk _ _ _ _)
    · next h =>
      dsimp only
      split <;> exact clk_of_pair h (readMem_clk _ _ _ _)

@[simp] theorem endJob_clk (n : Nat) (j : JobRun) (status : Nat) (err : Option DecErr) :
    (s.endJob n j status err).clk = s.clk := by
  simp [State.endJob]

@[simp] theorem resumeLane_clk (lane : Nat) (w : Word) : (s.resumeLane lane w).clk = s.clk := by
  unfold State.resumeLane
  split
  · split
    · next h => simp [clk_of_pair h (enterBuf_clk _ _ _)]
    · next h => simp [clk_of_pair h (enterBuf_clk _ _ _)]
  · simp

theorem enableWrite_clk (a : Nat) (d : RegDesc) (i : Nat) (w : Word) (act : State → Bool → State)
    (h : ∀ u b, (act u b).clk = u.clk) : (s.enableWrite a d i w act).clk = s.clk := by
  simp [State.enableWrite, h]

end

end Sys2Proof.Machine
end

section
/-! The frame of the clocks: the writes that act, continued, and the write of a register. -/

namespace Sys2Proof.Machine

section
variable (s : State)

/-! ### Scanning stations and exposure links -/

@[simp] theorem writeScnEn_clk (st : Nat) (en : Bool) : (s.writeScnEn st en).clk = s.clk := by
  simp [State.writeScnEn]

@[simp] theorem retireRequest_clk (st : Nat) (w : Word) : (s.retireRequest st w).clk = s.clk := by
  simp [State.retireRequest]

@[simp] theorem enterLink_clk (st n : Nat) : (s.enterLink st n).clk = s.clk := by
  simp [State.enterLink]

@[simp] theorem linkOff_clk (st : Nat) : (s.linkOff st).clk = s.clk := by
  simp [State.linkOff, cutFrame_clk]

@[simp] theorem writeXlkEn_clk (st : Nat) (en : Bool) : (s.writeXlkEn st en).clk = s.clk := by
  simp [State.writeXlkEn]

@[simp] theorem tblLoad_clk (st : Nat) : (s.tblLoad st).clk = s.clk := by
  simp [State.tblLoad]

@[simp] theorem expEvent_clk (st ev : Nat) : (s.expEvent st ev).clk = s.clk := by
  simp [State.expEvent]

@[simp] theorem xlkIrq_clk (st i : Nat) : (s.xlkIrq st i).clk = s.clk := by
  simp [State.xlkIrq]

@[simp] theorem linkCause_clk (st h kind lane k : Nat) : (s.linkCause st h kind lane k).clk = s.clk := by
  simp [State.linkCause]

@[simp] theorem linkDown_clk (st kind k : Nat) : (s.linkDown st kind k).clk = s.clk := by
  simp [State.linkDown, cutFrame_clk, foldl_clk]

@[simp] theorem wantSubst_clk (st lane : Nat) : (s.wantSubst st lane).clk = s.clk := by
  simp [State.wantSubst]

/-! ### Field-oriented channels and buses -/

@[simp] theorem axisFault_clk (axis : Nat) : (s.axisFault axis).clk = s.clk := by
  simp [State.axisFault, causeWhere_clk]

@[simp] theorem axisFaultBy_clk (h : Option Nat) (axis : Nat) : (s.axisFaultBy h axis).clk = s.clk := by
  unfold State.axisFaultBy
  (repeat' split) <;> simp

@[simp] theorem focRefuse_clk (c reason : Nat) (by' : Option Nat) : (s.focRefuse c reason by').clk = s.clk := by
  simp [State.focRefuse]

@[simp] theorem focClear_clk (c : Nat) : (s.focClear c).clk = s.clk := by
  simp [State.focClear]

@[simp] theorem focStop_clk (c : Nat) (q : FocReq) : (s.focStop c q).clk = s.clk := by
  simp [State.focStop]

@[simp] theorem focStart_clk (c : Nat) (q : FocReq) : (s.focStart c q).clk = s.clk := by
  simp [State.focStart]

@[simp] theorem focRefWrite_clk (c a : Nat) (w : Word) : (s.focRefWrite c a w).clk = s.clk := by
  simp [State.focRefWrite]

@[simp] theorem engStatus_clk (v : Nat) : (s.engStatus v).clk = s.clk := by
  simp [State.engStatus]

@[simp] theorem engCancel_clk : s.engCancel.clk = s.clk := by
  simp [State.engCancel]

@[simp] theorem engSubst_clk (w : Word) : (s.engSubst w).clk = s.clk := by
  simp [State.engSubst]

@[simp] theorem setBrk_clk (b : Nat) (on : Bool) : (s.setBrk b on).clk = s.clk := by
  simp [State.setBrk]

@[simp] theorem enterBus_clk (b n : Nat) : (s.enterBus b n).clk = s.clk := by
  simp [State.enterBus]

@[simp] theorem busClear_clk (b : Nat) : (s.busClear b).clk = s.clk := by
  simp [State.busClear]

/-! ### Steppers -/

@[simp] theorem stpGo_clk (c : Nat) (q : StpReq) : (s.stpGo c q).clk = s.clk := by
  simp [State.stpGo]

@[simp] theorem stpStop_clk (c : Nat) (q : StpReq) : (s.stpStop c q).clk = s.clk := by
  simp [State.stpStop]

@[simp] theorem sharedResource_clk (k axis : Nat) : (s.sharedResource k axis).clk = s.clk := by
  simp [State.sharedResource, causeWhere_clk]

@[simp] theorem stpShared_clk (c : Nat) (before : Option Int) (by' : List Nat) :
    (s.stpShared c before by').clk = s.clk := by
  simp [State.stpShared, foldl_clk]

@[simp] theorem stpHalt_clk (c : Nat) (q : StpReq) : (s.stpHalt c q).clk = s.clk := by
  simp [State.stpHalt]

@[simp] theorem stpResume_clk (c : Nat) (q : StpReq) : (s.stpResume c q).clk = s.clk := by
  simp [State.stpResume]

@[simp] theorem stpClear_clk (c : Nat) (q : StpReq) : (s.stpClear c q).clk = s.clk := by
  simp [State.stpClear]

@[simp] theorem stpBusy_clk : s.stpBusy.clk = s.clk := by
  simp [State.stpBusy]

@[simp] theorem writePosLo_clk (c : Nat) (w : Word) : (s.writePosLo c w).clk = s.clk := by
  simp [State.writePosLo]

@[simp] theorem writePosHi_clk (c : Nat) (w : Word) : (s.writePosHi c w).clk = s.clk := by
  simp [State.writePosHi]

@[simp] theorem writeTgtHi_clk (c : Nat) (w : Word) : (s.writeTgtHi c w).clk = s.clk := by
  simp [State.writeTgtHi]

@[simp] theorem writeCntLo_clk (e : Nat) (w : Word) : (s.writeCntLo e w).clk = s.clk := by
  simp [State.writeCntLo]

@[simp] theorem setCount_clk (e : Nat) (m : Int) : (s.setCount e m).clk = s.clk := by
  simp [State.setCount]

@[simp] theorem writeCntHi_clk (e : Nat) (w : Word) : (s.writeCntHi e w).clk = s.clk := by
  simp [State.writeCntHi]

@[simp] theorem gearArm_clk (c : Nat) : (s.gearArm c).clk = s.clk := by
  simp [State.gearArm]

@[simp] theorem gearCancel_clk (c : Nat) : (s.gearCancel c).clk = s.clk := by
  simp [State.gearCancel]

/-! ### High voltage, fuser, outputs and the Line -/

@[simp] theorem hvRampWrite_clk (u : Nat) (w : Word) : (s.hvRampWrite u w).clk = s.clk := by
  simp [State.hvRampWrite]

@[simp] theorem zoneClear_clk (z : Nat) : (s.zoneClear z).clk = s.clk := by
  simp [State.zoneClear]

@[simp] theorem zoneOn_clk (z : Nat) : (s.zoneOn z).clk = s.clk := by
  simp [State.zoneOn]

@[simp] theorem snsOutWrite_clk (high : Bool) (w : Word) : (s.snsOutWrite high w).clk = s.clk := by
  simp [State.snsOutWrite, foldl_clk]

@[simp] theorem setRate_clk (r : Int) : (s.setRate r).clk = s.clk := by
  simp [State.setRate]

@[simp] theorem setTime_clk (n : Nat) : (s.setTime n).clk = s.clk := by
  simp [State.setTime]

@[simp] theorem lineMaster_clk (on : Bool) : (s.lineMaster on).clk = s.clk := by
  simp [State.lineMaster]

@[simp] theorem movePort_clk (p st : Nat) : (s.movePort p st).clk = s.clk := by
  simp [State.movePort]

@[simp] theorem lineEnable_clk (en : Bool) : (s.lineEnable en).clk = s.clk := by
  simp [State.lineEnable]

@[simp] theorem subWrite_clk (j : Nat) (w : Word) : (s.subWrite j w).clk = s.clk := by
  unfold State.subWrite
  rw [setReg_clk, setReg_clk]

/-! ### Security, Ledger and background services -/

@[simp] theorem startCore_clk (c pc : Nat) : (s.startCore c pc).clk = s.clk := by
  simp [State.startCore]

@[simp] theorem release1_clk : s.release1.clk = s.clk := by
  simp [State.release1]

@[simp] theorem stageNext_clk (n : Nat) : (s.stageNext n).clk = s.clk := by
  simp [State.stageNext]

@[simp] theorem rbAdv_clk (n : Nat) : (s.rbAdv n).clk = s.clk := by
  simp [State.rbAdv]

@[simp] theorem secRefuse_clk (reason : Nat) : (s.secRefuse reason).clk = s.clk := by
  simp [State.secRefuse]

@[simp] theorem ldgEvent_clk (e : Nat) : (s.ldgEvent e).clk = s.clk := by
  simp [State.ldgEvent]

@[simp] theorem secBegin_clk (op : Nat) : (s.secBegin op).clk = s.clk := by
  unfold State.secBegin
  dsimp only
  (repeat' split) <;> simp

@[simp] theorem ldgApp_clk (kind : Nat) : (s.ldgApp kind).clk = s.clk := by
  simp [State.ldgApp, ldgRecord_clk]

@[simp] theorem meterTailWrite_clk (w : Word) : (s.meterTailWrite w).clk = s.clk := by
  simp [State.meterTailWrite]

@[simp] theorem bkgCtrlWrite_clk (d : RegDesc) (w : Word) : (s.bkgCtrlWrite d w).clk = s.clk := by
  simp [State.bkgCtrlWrite]

/-! ### The write of a register (R11, R12) -/

theorem actingWrite_clk (ini a : Nat) (d : RegDesc) (i j : Nat) (w : Word) : ClkOpt s (s.actingWrite ini a d i j w) := by
  unfold State.actingWrite
  dsimp only
  split <;> simp [onBits_clk, enableWrite_clk]

@[simp] theorem regWrite_clk (ini a n : Nat) (w : Word) : (s.regWrite ini a n w).2.clk = s.clk := by
  have hact : ∀ (d : RegDesc) (i j : Nat) (u : State), s.actingWrite ini a d i j w = some u → u.clk = s.clk :=
    fun d i j => actingWrite_clk s ini a d i j w
  unfold State.regWrite
  split
  · rfl
  · split
    · rfl
    · split
      · rfl
      · dsimp only
        repeat' split
        case h_1 h => exact hact _ _ _ _ h
        all_goals simp

@[simp] theorem busStore_clk (ini a n v : Nat) : (s.busStore ini a n v).2.clk = s.clk := by
  unfold State.busStore
  split
  · split <;> simp
  · split <;> next h => exact clk_of_pair h (writeMem_clk _ _ _ _)

end

end Sys2Proof.Machine
end

section
/-! The frame of the clocks: the sequencer's own edges, the lanes and the copy, and the time of a command. -/

namespace Sys2Proof.Machine

section
variable (s : State)

/-! ### Sequencers (R138–R144) -/

@[simp] theorem drainCore_clk (p : Nat) : (s.drainCore p).clk = s.clk := by
  unfold State.drainCore
  split <;> simp

@[simp] theorem drainAll_clk : s.drainAll.clk = s.clk := by
  simp [State.drainAll, foldl_clk]

@[simp] theorem setPoint_clk (p : Nat) (v : Word) : (s.setPoint p v).clk = s.clk := by
  simp [State.setPoint]

@[simp] theorem setPointAt_clk (place : List Nat) (p : Nat) (v : Word) : (s.setPointAt place p v).clk = s.clk := by
  simp [State.setPointAt]

@[simp] theorem sendSpw_clk (id : Nat) (v : Word) (at' : Tick) : (s.sendSpw id v at').clk = s.clk := by
  simp [State.sendSpw]

@[simp] theorem commitStaged_clk (key : Nat) (a : Staged) : (s.commitStaged key a).clk = s.clk := by
  unfold State.commitStaged
  split <;> simp

@[simp] theorem commitArm_clk (key p : Nat) (a : Staged) : (s.commitArm key p a).clk = s.clk := by
  unfold State.commitArm
  split <;> simp

@[simp] theorem shiftHist_clk (key bit : Nat) : (s.shiftHist key bit).clk = s.clk := by
  simp [State.shiftHist]

@[simp] theorem completeInstance_clk (key p : Nat) (i : Instance) : (s.completeInstance key p i).clk = s.clk := by
  simp [State.completeInstance, foldl_clk]

@[simp] theorem setGr_clk (w : Who) (r : Fin 32) (v : Word) : (s.setGr w r v).clk = s.clk := by
  unfold State.setGr
  (repeat' split) <;> simp

@[simp] theorem setGrPair_clk (w : Who) (r : Fin 32) (v : Nat) : (s.setGrPair w r v).clk = s.clk := by
  simp [State.setGrPair]

@[simp] theorem putLoad_clk (w : Who) (rt : Fin 32) (sz : Nat) (signed : Bool) (v : Nat) :
    (s.putLoad w rt sz signed v).clk = s.clk := by
  simp [State.putLoad]

@[simp] theorem lateDropCause_clk (key : Nat) : (s.lateDropCause key).clk = s.clk := by
  simp [State.lateDropCause, causeWhere_clk]

@[simp] theorem dropPeriod_clk (key cause : Nat) (exc : Nat × Nat × Nat) :
    (s.dropPeriod key cause exc).clk = s.clk := by
  simp [State.dropPeriod]

@[simp] theorem endFlight_clk (p : Nat) : (s.endFlight p).clk = s.clk := by
  unfold State.endFlight
  dsimp only
  (repeat' split) <;> simp

@[simp] theorem seqSteps_clk (n : Nat) : (s.seqSteps n).clk = s.clk := by
  simp [State.seqSteps, foldl_clk]

@[simp] theorem clearHist_clk (key : Nat) : (s.clearHist key).clk = s.clk := by
  simp [State.clearHist]

@[simp] theorem seqHist_clk : s.seqHist.clk = s.clk := by
  simp [State.seqHist, foldl_clk]

@[simp] theorem seqEdge_time (n : Nat) : (s.seqEdge n).clk.time = s.clk.time := by
  unfold State.seqEdge
  split <;> simp

/-! ### Steppers, lanes and the copy of R148 -/

@[simp] theorem stepsDone_clk (c : Nat) : (s.stepsDone c).clk = s.clk := by
  simp [State.stepsDone, foldl_clk]

@[simp] theorem stpStep_clk : s.stpStep.clk = s.clk := by
  simp [State.stpStep, foldl_clk]

@[simp] theorem writeBand_clk (st line col n i : Nat) (bs : List Byte) :
    (s.writeBand st line col n i bs).2.clk = s.clk := by
  induction n generalizing s i bs with
  | zero => rfl
  | succ n ih =>
    unfold State.writeBand
    split
    · rfl
    · dsimp only
      split
      · next h => rw [ih, clk_of_pair h (writeMem_clk _ _ _ _)]
      · next h => exact clk_of_pair h (writeMem_clk _ _ _ _)

@[simp] theorem bandBus_clk (b : BandRun) : (s.bandBus b).clk = s.clk := by
  unfold State.bandBus
  split <;> simp [settle_clk, streamFail_clk]

@[simp] theorem keepHistory_clk (n i : Nat) (bs : List Byte) : (s.keepHistory n i bs).clk = s.clk := by
  simp [State.keepHistory]

@[simp] theorem bandStep_clk (n : Nat) (b : BandRun) (d : Decoded) : (s.bandStep n b d).clk = s.clk := by
  unfold State.bandStep
  dsimp only
  split
  · rfl
  · split
    · next h => simp [clk_of_pair h (writeBand_clk _ _ _ _ _ _ _)]
    · next h => simp [clk_of_pair h (writeBand_clk _ _ _ _ _ _ _)]

@[simp] theorem emit_clk (n : Nat) (j : JobRun) (bs : List Byte) : (s.emit n j bs).2.2.clk = s.clk := by
  induction n generalizing s j bs with
  | zero => rfl
  | succ n ih =>
    unfold State.emit
    split
    · rfl
    · split
      · split
        · rfl
        · split
          · next h => exact clk_of_pair h (enterBuf_clk _ _ _)
          · next h => rw [ih, clk_of_pair h (enterBuf_clk _ _ _)]
      · split
        · split
          · rfl
          · split
            · next h => exact clk_of_pair h (enterBuf_clk _ _ _)
            · next h => rw [ih, clk_of_pair h (enterBuf_clk _ _ _)]
        · dsimp only
          split
          · next h => exact clk_of_pair h (writeMem_clk _ _ _ _)
          · next h =>
            have hw := clk_of_pair h (writeMem_clk _ _ _ _)
            split
            · split
              · next h' => exact (clk_of_pair h' (readMem_clk _ _ _ _)).trans hw
              · next h' => rw [ih, clk_of_pair h' (readMem_clk _ _ _ _), hw]
            · rw [ih, hw]

@[simp] theorem emitTo_clk (n : Nat) (j : JobRun) (d : Decoded) (b : Nat) : (s.emitTo n j d b).2.2.clk = s.clk := by
  simp [State.emitTo]

@[simp] theorem jobStep_clk (n : Nat) (j : JobRun) (d : Decoded) : (s.jobStep n j d).clk = s.clk := by
  unfold State.jobStep
  dsimp only
  split
  · rfl
  · split
    · next h => simp [clk_of_triple h (emitTo_clk _ _ _ _ _)]
    · next h => simp [clk_of_triple h (emitTo_clk _ _ _ _ _)]

@[simp] theorem laneStep_clk (n : Nat) : (s.laneStep n).clk = s.clk := by
  unfold State.laneStep
  (repeat' split) <;> simp

@[simp] theorem fxStep_clk : s.fxStep.clk = s.clk := by
  simp [State.fxStep, foldl_clk]

@[simp] theorem substRefuse_clk (reason : Nat) : (s.substRefuse reason).clk = s.clk := by
  simp [State.substRefuse]

@[simp] theorem copyTcm_clk (q p i n : Nat) : (s.copyTcm q p i n).clk = s.clk := by
  simp [State.copyTcm]

@[simp] theorem copyStep_clk : s.copyStep.clk = s.clk := by
  unfold State.copyStep
  dsimp only
  (repeat' split) <;> simp

end

/-! ### The time of a command (log entry 1) -/

theorem moveTo_clk (s : State) (t : Tick) : (s.moveTo t).clk = (s.clockTo t).clk := by
  simp [State.moveTo]

theorem settleEdge_time (s : State) (edge : Tick) : (s.settleEdge edge).clk.time = (s.clockTo edge).clk.time := by
  simp [State.settleEdge, moveTo_clk]

theorem coreEdge_eq (t : Nat) : coreEdge t = (t + 7) / 8 * 8 := rfl

theorem coreEdge_le {a t : Nat} (ha : a % 8 = 0) (h : t ≤ a) : coreEdge t ≤ a := by
  have : (t + 7) / 8 * 8 ≤ a := by omega
  exact this

theorem max_coreEdge_next {a : Nat} (ha : a % 8 = 0) : max a (coreEdge (a + 8)) = a + 8 := by
  have : max a ((a + 8 + 7) / 8 * 8) = a + 8 := by omega
  exact this

theorem clockTo_of_run {s : State} (h : s.clk.run = true) (t : Tick) :
    (s.clockTo t).clk.run = true ∧ (s.clockTo t).clk.tb = max s.clk.tb (coreEdge t) := by
  unfold State.clockTo
  rw [if_pos h]
  exact ⟨h, rfl⟩

theorem clockTo_of_not_run {s : State} (h : s.clk.run = false) (t : Tick) :
    (s.clockTo t).clk.run = false ∧ (s.clockTo t).clk.tb = s.clk.tb ∧ s.clk.ref ≤ (s.clockTo t).clk.ref := by
  unfold State.clockTo
  rw [if_neg (by simp [h])]
  exact ⟨h, rfl, le_max_left _ _⟩

theorem time_eq {c c' : Clk} (h : c.time = c'.time) : c.tb = c'.tb ∧ c.run = c'.run ∧ c.ref = c'.ref := by
  simpa [Clk.time] using h

/-- While the root clock runs, what is owed before a CORE edge leaves the time base between where it stood and that
edge. -/
theorem settleTo_of_run {T : Tick} (hT : T % 8 = 0) (n : Nat) {s : State} (h : s.clk.run = true) (hle : s.clk.tb ≤ T) :
    (s.settleTo T n).clk.run = true ∧ s.clk.tb ≤ (s.settleTo T n).clk.tb ∧ (s.settleTo T n).clk.tb ≤ T := by
  induction n generalizing s with
  | zero => exact ⟨h, le_rfl, hle⟩
  | succ n ih =>
    unfold State.settleTo
    split
    · exact ⟨h, le_rfl, hle⟩
    · dsimp only
      split
      · next d ds _ he =>
        obtain ⟨htb, hrun, -⟩ := time_eq (settleEdge_time s (ds.foldl min d))
        obtain ⟨hr, ht⟩ := clockTo_of_run h (ds.foldl min d)
        have hge : s.clk.tb ≤ (s.settleEdge (ds.foldl min d)).clk.tb := by
          rw [htb, ht]
          exact le_max_left _ _
        obtain ⟨h1, h2, h3⟩ := ih (hrun.trans hr)
          (by rw [htb, ht]; exact max_le hle (coreEdge_le hT (le_of_lt he)))
        exact ⟨h1, hge.trans h2, h3⟩
      · exact ⟨h, le_rfl, hle⟩

/-- While it is stopped, what is owed leaves the time base, and the count of REF cycles does not go back. -/
theorem settleTo_of_not_run (T : Tick) (n : Nat) {s : State} (h : s.clk.run = false) :
    (s.settleTo T n).clk.run = false ∧ (s.settleTo T n).clk.tb = s.clk.tb ∧ s.clk.ref ≤ (s.settleTo T n).clk.ref := by
  induction n generalizing s with
  | zero => exact ⟨h, rfl, le_rfl⟩
  | succ n ih =>
    unfold State.settleTo
    split
    · exact ⟨h, rfl, le_rfl⟩
    · dsimp only
      split
      · next d ds _ _ =>
        obtain ⟨htb, hrun, href⟩ := time_eq (settleEdge_time s (ds.foldl min d))
        obtain ⟨hr, ht, hf⟩ := clockTo_of_not_run h (ds.foldl min d)
        obtain ⟨h1, h2, h3⟩ := ih (hrun.trans hr)
        exact ⟨h1, h2.trans (htb.trans ht), (hf.trans href.ge).trans h3⟩
      · exact ⟨h, rfl, le_rfl⟩

/-- A command's state stands at the first CORE edge at or after its time, and never before the present one. -/
theorem at_tb_of_run {s : State} (h : s.clk.run = true) (he : s.clk.tb % 8 = 0) (t : Tick) :
    (s.at t).clk.tb = max s.clk.tb (coreEdge t) := by
  obtain ⟨hr, ht⟩ := clockTo_of_run h t
  have hnow : (s.clockTo t).now = max s.clk.tb (coreEdge t) := by
    unfold State.now
    rw [if_pos hr, ht]
  have hT : max s.clk.tb (coreEdge t) % 8 = 0 := by
    rcases max_choice s.clk.tb (coreEdge t) with e | e <;> rw [e]
    · exact he
    · exact coreEdge_mod t
  obtain ⟨h1, h2, h3⟩ := settleTo_of_run hT s.dueCount h (le_max_left _ _)
  unfold State.at
  rw [hnow, moveTo_clk, (clockTo_of_run h1 t).2]
  exact le_antisymm (max_le h3 (le_max_right _ _)) (max_le_max h2 le_rfl)

theorem at_clk_of_not_run {s : State} (h : s.clk.run = false) (t : Tick) :
    (s.at t).clk.tb = s.clk.tb ∧ s.clk.ref ≤ (s.at t).clk.ref := by
  obtain ⟨h1, h2, h3⟩ := settleTo_of_not_run (s.clockTo t).now s.dueCount h
  obtain ⟨-, ht, hf⟩ := clockTo_of_not_run h1 t
  unfold State.at
  rw [moveTo_clk]
  exact ⟨ht.trans h2, h3.trans hf⟩

theorem idle_tb_of_run {s : State} (h : s.clk.run = true) (he : s.clk.tb % 8 = 0) : s.idle.clk.tb = s.clk.tb + 8 := by
  have hnow : s.now = s.clk.tb := if_pos h
  unfold State.idle
  rw [takeHeld_clk, if_pos h, at_tb_of_run h he, hnow]
  exact max_coreEdge_next he

end Sys2Proof.Machine
end

section
/-! What a chip reset's moves of the domains and its Ledger marks leave (R42, R84, R391): all but the registers, PWR and
the Ledger's queue. -/

namespace Sys2Proof.Machine

/-- A state without what PWR and a record of the Ledger may change: registers, PWR, LDG and the events raised. -/
def State.apart (s : State) : State :=
  { s with regs := [], hwSet := {}, pwr := {}, ldg := {}, sbx := { s.sbx with raised := [] } }

/-- What SEC and FX hold, which no write of the Ledger changes. -/
def State.secFx (s : State) : Sec × Fx := (s.sec, s.fx)

@[simp] theorem ite_apart (c : Prop) [Decidable c] (a b : State) :
    (if c then a else b).apart = if c then a.apart else b.apart :=
  apply_ite _ _ _ _

@[simp] theorem ite_secFx (c : Prop) [Decidable c] (a b : State) :
    (if c then a else b).secFx = if c then a.secFx else b.secFx :=
  apply_ite _ _ _ _

theorem foldl_apart {α : Type} {f : State → α → State} (h : ∀ s x, (f s x).apart = s.apart) (l : List α) (s : State) :
    (l.foldl f s).apart = s.apart :=
  foldl_invariant (f := f) (P := fun u => u.apart = s.apart) (fun a b _ ha => (h a b).trans ha) rfl

theorem secFx_of_apart {s u : State} (h : u.apart = s.apart) : u.secFx = s.secFx := by
  have h1 := congrArg State.sec h
  have h2 := congrArg State.fx h
  exact Prod.ext h1 h2

section
variable (s : State)

/-! ### Registers and events -/

@[simp] theorem withPwr_apart (p : Pwr) : ({ s with pwr := p } : State).apart = s.apart := rfl

@[simp] theorem withLdg_apart (l : Ldg) : ({ s with ldg := l } : State).apart = s.apart := rfl

@[simp] theorem setF_apart (a hi lo n : Nat) : (s.setF a hi lo n).apart = s.apart := rfl

@[simp] theorem incSat_apart (a hi lo n : Nat) : (s.incSat a hi lo n).apart = s.apart := rfl

@[simp] theorem raise_apart (src ev : Nat) : (s.raise src ev).apart = s.apart := rfl

@[simp] theorem noteSet_apart (a i : Nat) : (s.noteSet a i).apart = s.apart := by
  unfold State.noteSet
  split
  · split <;> rfl
  · rfl

@[simp] theorem setB_apart (a i : Nat) (b : Bool) : (s.setB a i b).apart = s.apart := by
  unfold State.setB
  split <;> simp

/-! ### Domains (R401–R408) -/

@[simp] theorem setStep_apart (d : Nat) (t : Option Tick) : (s.setStep d t).apart = s.apart := rfl

@[simp] theorem setDom_apart (d st : Nat) : (s.setDom d st).apart = s.apart := rfl

@[simp] theorem startRegs_apart (edge : Tick) : (s.startRegs edge).apart = s.apart := by
  unfold State.startRegs
  dsimp only
  (repeat' split) <;> simp [foldl_apart]

@[simp] theorem beginUp_apart (d : Nat) : (s.beginUp d).apart = s.apart := rfl

@[simp] theorem onEventAt_apart (d : Nat) (edge : Tick) : (s.onEventAt d edge).apart = s.apart := by
  simp [State.onEventAt]

@[simp] theorem onEvent_apart (d : Nat) (edge : Tick) : (s.onEvent d edge).apart = s.apart := by
  simp [State.onEvent, foldl_apart]

@[simp] theorem beginDown_apart (d : Nat) (edge : Tick) : (s.beginDown d edge).apart = s.apart := by
  simp [State.beginDown]

@[simp] theorem offEvent_apart (d : Nat) (edge : Tick) : (s.offEvent d edge).apart = s.apart := by
  simp [State.offEvent]

@[simp] theorem planNext_apart (edge : Tick) (n : Nat) : (s.planNext edge n).apart = s.apart := by
  induction n generalizing s with
  | zero => rfl
  | succ n ih =>
    unfold State.planNext
    dsimp only
    (repeat' split) <;> simp [ih]

@[simp] theorem lowerReady_apart (edge : Tick) : (s.lowerReady edge).apart = s.apart := by
  refine foldl_apart (fun u d => ?_) _ _
  split
  · exact offEvent_apart u d edge
  · rfl

@[simp] theorem raiseReady_apart : s.raiseReady.apart = s.apart := by
  simp [State.raiseReady, foldl_apart]

@[simp] theorem domMoved_apart (edge : Tick) : (s.domMoved edge).apart = s.apart := by
  simp [State.domMoved]

@[simp] theorem crstDomains_apart : s.crstDomains.apart = s.apart := by
  simp [State.crstDomains, foldl_apart]

/-! ### The Ledger (R475–R480) -/

@[simp] theorem ldgLost_apart : s.ldgLost.apart = s.apart := by
  simp [State.ldgLost]

@[simp] theorem ldgQueue_apart (r : LdgReq) : (s.ldgQueue r).apart = s.apart := by
  unfold State.ldgQueue
  split <;> rfl

@[simp] theorem ldgRecord_apart (cls kind units : Nat) (body : List Byte) :
    (s.ldgRecord cls kind units body).apart = s.apart := by
  simp [State.ldgRecord]

@[simp] theorem ldgEvent_apart (e : Nat) : (s.ldgEvent e).apart = s.apart := by
  simp [State.ldgEvent]

@[simp] theorem ldgNext_apart : s.ldgNext.apart = s.apart := by
  unfold State.ldgNext
  split <;> rfl

@[simp] theorem ldgNoRoom_apart (r : LdgReq) : (s.ldgNoRoom r).apart = s.apart := by
  simp [State.ldgNoRoom]

theorem ldgPlace_apart {r r' : LdgReq} {u : State} (h : s.ldgPlace r = some (r', u)) : u.apart = s.apart := by
  unfold State.ldgPlace at h
  dsimp only at h
  split at h
  · cases h
  · cases h
    rfl

@[simp] theorem ldgWrote_apart (l : Nat) : (s.ldgWrote l).apart = s.apart := by
  unfold State.ldgWrote
  dsimp only
  (repeat' split) <;> simp

@[simp] theorem setF_secFx (a hi lo n : Nat) : (s.setF a hi lo n).secFx = s.secFx := rfl

@[simp] theorem ldgLost_secFx : s.ldgLost.secFx = s.secFx := secFx_of_apart (ldgLost_apart s)

@[simp] theorem ldgNext_secFx : s.ldgNext.secFx = s.secFx := secFx_of_apart (ldgNext_apart s)

@[simp] theorem ldgNoRoom_secFx (r : LdgReq) : (s.ldgNoRoom r).secFx = s.secFx := secFx_of_apart (ldgNoRoom_apart s r)

@[simp] theorem foldEnded_secFx (kind : Nat) : (s.foldEnded kind).secFx = s.secFx := by
  unfold State.foldEnded
  dsimp only
  split <;> rfl

theorem ldgMoved_secFx (l : Nat) : (s.ldgMoved l).secFx = s.secFx := by
  unfold State.ldgMoved
  split <;> rfl

theorem ldgRetire_secFx (l : Nat) : (s.ldgRetire l).secFx = s.secFx := by
  unfold State.ldgRetire
  split
  · exact secFx_of_apart (by simp)
  · dsimp only
    rw [ite_secFx, secFx_of_apart (ldgEvent_apart _ _), ite_self, secFx_of_apart (ldgRecord_apart _ _ _ _ _)]
    rfl

theorem ldgVerify_secFx (l : Nat) (first second : Bool) : (s.ldgVerify l first second).secFx = s.secFx := by
  unfold State.ldgVerify
  dsimp only
  split
  · exact secFx_of_apart (by simp)
  · split
    · exact secFx_of_apart (by simp)
    · exact (ldgRetire_secFx _ _).trans (secFx_of_apart (by simp))

theorem ldgEnded_secFx (r : LdgReq) : (s.ldgEnded r).secFx = s.secFx := by
  unfold State.ldgEnded
  split
  · rfl
  · rfl
  · rfl
  · rfl
  · simp

theorem ldgUnit_secFx (first second : Bool) : (s.ldgUnit first second).secFx = s.secFx := by
  unfold State.ldgUnit
  split
  · rfl
  · next r _ =>
    split
    · simp
    · split
      · split
        · rw [ldgNext_secFx]
          rfl
        · rw [ldgNext_secFx, ldgMoved_secFx]
      · dsimp only
        split
        · simp
        · next u h =>
          have hu : u.secFx = s.secFx := by
            split at h
            · cases h
              rfl
            · exact secFx_of_apart (ldgPlace_apart s h)
          split
          · exact (ldgNext_secFx _).trans ((ldgVerify_secFx _ _ _ _).trans hu)
          · exact (ldgNext_secFx _).trans ((ldgEnded_secFx _ _).trans ((ldgVerify_secFx _ _ _ _).trans hu))

theorem ldgMarks_secFx (n : Nat) : (s.ldgMarks n).secFx = s.secFx := by
  induction n generalizing s with
  | zero => rfl
  | succ n ih =>
    unfold State.ldgMarks
    split
    · exact (ih _).trans (ldgUnit_secFx s _ _)
    · rfl

end

end Sys2Proof.Machine
end

section
/-! Time, clock commands, device resets and the Junction (R5, R23–R30, R38, R40, R42): O21. -/

namespace Sys2Proof.Machine

/-! ### Device resets (R42, R84, R472) -/

/-- What POR and CRST leave of a state: the Ledger's memory, the one-time programmable memory, FX's record of save
images, the queue of commands and the DRAM installed; the part waits for its root PLL. -/
def Wiped (u v : State) : Prop :=
  (∀ c ∈ v.mem, ledgerBase ≤ c.1 ∧ c.1 < dramBase) ∧ v.gcores = [] ∧
    v.sq = {} ∧ v.fx = { saved := u.fx.saved } ∧ v.points = [] ∧ v.held = [] ∧ v.foc = {} ∧ v.stp = {} ∧ v.hv = {} ∧
    v.sns = {} ∧ v.dma = {} ∧ v.plt = {} ∧ v.sec.otp = u.sec.otp ∧ v.sys.bootDue = true ∧ v.clk.run = false ∧
    v.pending = u.pending ∧ v.dramSize = u.dramSize

theorem wiped_apart (u v : State) : Wiped u v.apart ↔ Wiped u v := Iff.rfl

theorem mem_wipeAll (s : State) (c : Host.Cell) :
    c ∈ s.wipeAll.mem ↔ c ∈ s.mem ∧ ledgerBase ≤ c.1 ∧ c.1 < dramBase := by
  simp [State.wipeAll]

theorem por_wiped (s : State) : Wiped s s.por ∧ (∀ c ∈ s.mem, ledgerBase ≤ c.1 → c.1 < dramBase → c ∈ s.por.mem) ∧
    s.por.clk.tb = 0 ∧ s.por.clk.ref = 0 := by
  refine ⟨?_, fun c hc h h' => ?_, ?_, ?_⟩
  · rw [← wiped_apart, State.por, setB_apart, wiped_apart]
    exact ⟨fun c hc => ((mem_wipeAll s c).1 hc).2, rfl, rfl, rfl, rfl, rfl, rfl, rfl, rfl, rfl, rfl, rfl, rfl, rfl, rfl, rfl,
      rfl⟩
  · rw [State.por, setB_mem]
    exact (mem_wipeAll s c).2 ⟨hc, h, h'⟩
  · rw [State.por, setB_clk]
    rfl
  · rw [State.por, setB_clk]
    rfl

theorem stopClock_kept (s : State) : s.stopClock.clk.run = false ∧ s.stopClock.secFx = s.secFx ∧
    s.stopClock.pending = s.pending ∧ s.stopClock.dramSize = s.dramSize := by
  unfold State.stopClock
  split
  · exact ⟨rfl, rfl, rfl, rfl⟩
  · next h => exact ⟨by simpa using h, rfl, rfl, rfl⟩

/-- The Ledger's marks before a chip reset (R84, R391). -/
def State.marked (s : State) : State := (if s.sbx.chip then s else s.resetMark 0x0E).ldgMarks 128

theorem marked_kept (s : State) :
    s.marked.secFx = s.secFx ∧ s.marked.pending = s.pending ∧ s.marked.dramSize = s.dramSize := by
  have hk : Kept s (if s.sbx.chip then s else s.resetMark 0x0E) :=
    kept_ite (fun _ => .refl s) (fun _ => kept_resetMark (.refl s) _)
  have hm := kept_ldgMarks hk 128
  refine ⟨(ldgMarks_secFx _ _).trans ?_, hm.pending, hm.dram⟩
  rw [ite_secFx, State.resetMark, secFx_of_apart (ldgRecord_apart _ _ _ _ _), ite_self]

theorem crst_wiped (s : State) : Wiped s s.crst ∧ s.crst.sbx.chip = true := by
  obtain ⟨hsf, hp, hd⟩ := marked_kept s
  obtain ⟨hrun, hsf', hp', hd'⟩ := stopClock_kept s.marked
  have hsec : s.marked.stopClock.sec = s.sec := congrArg Prod.fst (hsf'.trans hsf)
  have hfx : s.marked.stopClock.fx = s.fx := congrArg Prod.snd (hsf'.trans hsf)
  suffices h : Wiped s s.crst.apart ∧ s.crst.apart.sbx.chip = true from h
  unfold State.crst
  dsimp only
  rw [← State.marked, ite_apart, ldgRecord_apart, ite_self, crstDomains_apart, setB_apart, setF_apart]
  generalize s.marked.stopClock = m at *
  refine ⟨⟨fun c hc => ((mem_wipeAll m c).1 hc).2, rfl, rfl, ?_, rfl, rfl, rfl, rfl, rfl, rfl, rfl, rfl, ?_, rfl,
    hrun, hp'.trans hp, hd'.trans hd⟩, rfl⟩
  · exact congrArg (fun x : Fx => ({ saved := x.saved } : Fx)) hfx
  · have hotp : m.sec.otp = s.sec.otp := by rw [hsec]
    exact hotp

/-! ### SYS_PROFILE_WRITE (R5) -/

/-- The descriptor of SYS_PROFILE. -/
def profileDesc : RegDesc :=
  ⟨"SYS_PROFILE", 0x20000020, [],
    [⟨"PROFILE", 0, 1, .rw, .l, (.val 0), .no, .none⟩, ⟨"FIXED", 1, 1, .ro, .d, (.val 0), .no, .none⟩]⟩

theorem findReg_sysProfile : findReg Reg.SYS_PROFILE = some (profileDesc, []) := by decide +kernel

theorem blockAt_sysProfile : blockAt Reg.SYS_PROFILE = some .sys := by decide +kernel

theorem fixWord_profile (s : State) (i j : Nat) (w : Word) : s.fixWord profileDesc i j w = w := rfl

/-- PROFILE takes the bit written, FIXED keeps its own. -/
theorem written_profile (s : State) (w : Word) : s.written Reg.SYS_PROFILE profileDesc w =
    putBits (putBits 0 0 0 (bits w 0 0)) 1 1 (bits (s.reg Reg.SYS_PROFILE) 1 1) := by
  have hm : (profileDesc.maskOf fun f => f.acc == .w1c) = 0 := by decide
  unfold State.written
  rw [hm]
  exact (congrArg _ BitVec.and_zero).trans BitVec.or_zero

theorem bits_profile (p f : Nat) : bits (putBits (putBits 0 0 0 p) 1 1 f) 0 0 = p % 2 ∧
    bits (putBits (putBits 0 0 0 p) 1 1 f) 1 1 = f % 2 := by
  constructor
  · exact (bits_putBits_ne _ (by omega) (by omega) (by omega) f).trans (bits_putBits_self _ (by omega) (by omega) p)
  · exact bits_putBits_self _ (by omega) (by omega) f

theorem bit_lt (w : Word) (i : Nat) : bits w i i < 2 := by
  unfold bits
  rw [show i + 1 - i = 1 by omega]
  exact Nat.mod_lt _ (by omega)

theorem changesL_profile (old new : Word) : profileDesc.changesL old new = (bits old 0 0 != bits new 0 0) := by
  simp [RegDesc.changesL, profileDesc]

theorem regLocked_profile (s : State) : s.regLocked Reg.SYS_PROFILE profileDesc 0 0 = s.fb Reg.SYS_PROFILE 1 := by
  unfold State.regLocked
  rw [blockAt_sysProfile]

theorem exec_sysProfileWrite (s : State) (t : Tick) (w : Word) :
    exec (.sysProfileWrite t w) s = .next ((s.at t).storeReg Reg.SYS_PROFILE profileDesc 0 0 w) := by
  change execSysProfileWrite t w s = _
  unfold execSysProfileWrite
  rw [findReg_sysProfile]

/-- Until the profile is fixed the write stores PROFILE alone (R5). -/
theorem sysProfileWrite_free {s : State} {t : Tick} {w : Word} (h : (s.at t).fb Reg.SYS_PROFILE 1 = false) :
    ∃ v, exec (.sysProfileWrite t w) s = .next v ∧ v.f Reg.SYS_PROFILE 0 0 = bits w 0 0 ∧
      v.fb Reg.SYS_PROFILE 1 = false ∧ ∀ a, a ≠ Reg.SYS_PROFILE → v.reg a = (s.at t).reg a := by
  have hex := exec_sysProfileWrite s t w
  generalize s.at t = u at *
  have hl := (regLocked_profile u).trans h
  have hS : profileDesc.hasS = false := by decide
  rw [storeReg_free (.inr hl), hS, fixWord_profile, written_profile] at hex
  obtain ⟨h0, h1⟩ := bits_profile (bits w 0 0) (bits (u.reg Reg.SYS_PROFILE) 1 1)
  refine ⟨_, hex, ?_, ?_, fun a ha => reg_setReg_ne u ha _⟩
  · exact (congrArg (fun v => bits v 0 0) (reg_setReg_self u _ _)).trans
      (h0.trans (Nat.mod_eq_of_lt (bit_lt w 0)))
  · have hb : bits (u.reg Reg.SYS_PROFILE) 1 1 % 2 = bits (u.reg Reg.SYS_PROFILE) 1 1 := Nat.mod_eq_of_lt (bit_lt _ 1)
    have hv := (congrArg (fun v => bits v 1 1) (reg_setReg_self u Reg.SYS_PROFILE _)).trans (h1.trans hb)
    exact (congrArg (· == 1) hv).trans h

theorem sysProfileWrite_fixed {s : State} {t : Tick} {w : Word} (h : (s.at t).fb Reg.SYS_PROFILE 1 = true)
    (hw : bits w 0 0 ≠ (s.at t).f Reg.SYS_PROFILE 0 0) :
    exec (.sysProfileWrite t w) s = .next ((s.at t).raise srcSYS 0) := by
  have hex := exec_sysProfileWrite s t w
  generalize s.at t = u at *
  have hl := (regLocked_profile u).trans h
  have hc : profileDesc.changesL (u.reg Reg.SYS_PROFILE)
      (u.written Reg.SYS_PROFILE profileDesc (u.fixWord profileDesc 0 0 w)) = true := by
    rw [changesL_profile, fixWord_profile, written_profile, (bits_profile _ _).1, Nat.mod_eq_of_lt (bit_lt w 0)]
    exact bne_iff_ne.2 (Ne.symm hw)
  rw [hex, storeReg_locked hc hl]
  unfold State.cfgBusy
  rw [blockAt_sysProfile]
/-! ### CLK_TB_LO_READ and the root PLL (R26, R30) -/

/-- The state after a read of CLK_TB_LO by a port: its holding register has the upper half of the time (R30). -/
def State.tbHeld (s : State) (ini : Nat) : State :=
  { s with clk := { s.clk with hold := Tab.put 0 s.clk.hold ini (s.now / 2 ^ 32) } }

/-- The descriptor of CLK_TB_LO. -/
def tbLoDesc : RegDesc := ⟨"CLK_TB_LO", 0x20100010, [], [⟨"TB_LO", 0, 32, .ro, .d, (.val 0), .no, .none⟩]⟩

theorem findReg_tbLo : findReg Reg.CLK_TB_LO = some (tbLoDesc, []) := by decide +kernel

theorem blockAt_tbLo : blockAt Reg.CLK_TB_LO = some .clk := by decide +kernel

theorem regView_tbLo (s : State) (ini : Nat) :
    s.regView ini Reg.CLK_TB_LO tbLoDesc 0 0 = BitVec.ofNat 32 (s.now / 8 * 8) := by
  have ha : regAbsent tbLoDesc 0 = false := by decide
  unfold State.regView
  rw [ha, blockAt_tbLo]
  rfl

theorem regReadWord_tbLo (s : State) (ini : Nat) :
    s.regReadWord ini Reg.CLK_TB_LO = (BitVec.ofNat 32 (s.now / 8 * 8), s.tbHeld ini) := by
  have hw : waveKey Reg.CLK_TB_LO = none := by decide
  unfold State.regReadWord
  rw [hw, findReg_tbLo]
  exact (if_pos rfl).trans (Prod.ext (regView_tbLo s ini) rfl)

theorem regRead_tbLo {s : State} (hon : s.domOn 0 = true) (ini : Nat) :
    s.regRead ini Reg.CLK_TB_LO 4 = ({ value := s.now / 8 * 8 % 2 ^ 32 }, s.tbHeld ini) := by
  have hr : s.regOn Reg.CLK_TB_LO = true := by
    have hd : regDomain Reg.CLK_TB_LO = 0 := by decide
    unfold State.regOn
    rw [blockAt_tbLo, hd, hon]
    rfl
  unfold State.regRead
  rw [hr, if_neg (by decide)]
  have ha : Reg.CLK_TB_LO / 4 * 4 = Reg.CLK_TB_LO := by decide
  rw [ha, regReadWord_tbLo]
  have hm : (BitVec.ofNat 32 (s.now / 8 * 8)).toNat / 2 ^ (8 * (Reg.CLK_TB_LO % 4)) % 2 ^ (8 * 4) =
      s.now / 8 * 8 % 2 ^ 32 := by
    rw [BitVec.toNat_ofNat, show 2 ^ (8 * (Reg.CLK_TB_LO % 4)) = 1 by decide, Nat.div_one, Nat.mod_mod]
  exact Prod.ext (congrArg (fun v => ({ value := v } : AccResult)) hm) rfl

theorem busLoad_tbLo {s : State} {ini : Nat} (hg : s.gateAllows ini Reg.CLK_TB_LO 4 .load = true) (hon : s.domOn 0 = true) :
    s.busLoad ini Reg.CLK_TB_LO 4 = ({ value := s.now / 8 * 8 % 2 ^ 32 }, s.tbHeld ini) := by
  have hi : inRegs Reg.CLK_TB_LO = true := by decide
  unfold State.busLoad
  rw [if_pos hi, if_pos hg, regRead_tbLo hon]

theorem clkTbLoRead_next {s : State} {t : Tick} {ini : Fin 7}
    (hg : (s.at t).gateAllows ini Reg.CLK_TB_LO 4 .load = true) (hon : (s.at t).domOn 0 = true) :
    exec (.clkTbLoRead t ini) s = .next (((s.at t).tbHeld ini).setAcc ini { value := (s.at t).now / 8 * 8 % 2 ^ 32 }) := by
  change execClkTbLoRead t ini s = _
  unfold execClkTbLoRead
  rw [busLoad_tbLo hg hon]

theorem tbRead_kept (s : State) (ini : Nat) (r : AccResult) :
    Tab.get {} ((s.tbHeld ini).setAcc ini r).acc ini = r ∧
    Tab.get 0 ((s.tbHeld ini).setAcc ini r).clk.hold ini = s.now / 2 ^ 32 ∧
    ((s.tbHeld ini).setAcc ini r).mem = s.mem ∧ ((s.tbHeld ini).setAcc ini r).regs = s.regs :=
  ⟨Tab.get_put_self _ _ _ _, Tab.get_put_self _ _ _ _, rfl, rfl⟩

theorem unlock_next (s : State) (t : Tick) : exec (.unlock t) s = .next
    (if (s.at t).fb Reg.CLK_ROOT 8 then ((s.at t).setB Reg.CLK_ROOT 8 false).raise srcCLK 0 else s.at t) := by
  change execUnlock t s = _
  unfold execUnlock
  dsimp only
  split <;> rfl

/-! ### The Junction (R38, R40) -/

/-- JCT_STATUS of a swap: the other bank is active, nothing is pending, and the reservations are counted. -/
def State.swapBank (s : State) : State :=
  ((s.setB Reg.JCT_STATUS 0 (!s.fb Reg.JCT_STATUS 0)).setB Reg.JCT_STATUS 1 false).setF Reg.JCT_STATUS 14 8
    (rtMax s.jct.next)

/-- A swap at its frame boundary, with no request made since. -/
def State.swapped (s : State) : State :=
  { s.swapBank with jct := { s.swapBank.jct with resv := s.swapBank.jct.next, again := false } }

theorem swapBank_kept (s : State) : s.swapBank.jct = s.jct ∧ s.swapBank.mem = s.mem := by
  simp [State.swapBank]

theorem swapBank_status (s : State) :
    s.swapBank.fb Reg.JCT_STATUS 0 = (!s.fb Reg.JCT_STATUS 0) ∧ s.swapBank.fb Reg.JCT_STATUS 1 = false := by
  unfold State.swapBank
  constructor
  · rw [fb_setF_field _ (by omega) (by omega) (.inl (by omega)), fb_setB_bit _ (by omega) (by omega),
      fb_setB_self _ _ (by omega)]
  · rw [fb_setF_field _ (by omega) (by omega) (.inl (by omega)), fb_setB_self _ _ (by omega)]

theorem swapped_kept (s : State) : s.swapped.jct.resv = s.jct.next ∧
    s.swapped.fb Reg.JCT_STATUS 0 = (!s.fb Reg.JCT_STATUS 0) ∧ s.swapped.fb Reg.JCT_STATUS 1 = false ∧
    s.swapped.mem = s.mem := by
  obtain ⟨hj, hm⟩ := swapBank_kept s
  obtain ⟨h0, h1⟩ := swapBank_status s
  exact ⟨congrArg Jct.next hj, h0, h1, hm⟩

theorem swapped_of_no_request {s : State} {t : Tick} (h1 : (s.at t).fb Reg.JCT_STATUS 1 = true)
    (hd : swapEdge (s.at t).jct.reqAt ≤ (s.at t).clk.tb) (ha : (s.at t).jct.again = false) :
    exec (.slotTableSwap t) s = .next (s.at t).swapped := by
  change execSlotTableSwap t s = _
  unfold execSlotTableSwap
  generalize s.at t = u at *
  dsimp only
  rw [if_pos ⟨h1, hd⟩, ha]
  exact congrArg Host.Outcome.next (if_neg Bool.false_ne_true)

theorem slotTableSwap_early {s : State} {t : Tick} (h : (s.at t).clk.tb < swapEdge (s.at t).jct.reqAt) :
    exec (.slotTableSwap t) s = .next (s.at t) := by
  change execSlotTableSwap t s = _
  unfold execSlotTableSwap
  exact if_neg fun hc => absurd hc.2 (not_le.2 h)

theorem satAdd_min (n : Nat) : satAdd (15 + 1 - 0) n 1 = min 65535 (n + 1) := by
  unfold satAdd
  split <;> omega

theorem beAgeSaturate_next {s : State} {t : Tick} (h : (s.at t).domOn 2 = true) :
    exec (.beAgeSaturate t) s = .next (((s.at t).incSat Reg.JCT_AGE_SAT 15 0).raise srcJCT 0) := by
  change execBeAgeSaturate t s = _
  unfold execBeAgeSaturate
  exact if_pos h

theorem rootPllLock_starts {s : State} {t : Tick} (slotA slotB : Option (List Byte)) (hr : (s.at t).clk.run = false)
    (hb : (s.at t).sys.bootDue = true) : exec (.rootPllLock t slotA slotB) s = .next
      ((({ s.at t with clk := { (s.at t).clk with run := true, tb := (s.at t).now }
                       sbx := { (s.at t).sbx with chip := false }
                       sys := { (s.at t).sys with slotA := slotA, slotB := slotB } }).setB Reg.CLK_ROOT 8 true).bootIfDue) := by
  change execRootPllLock t slotA slotB s = _
  unfold execRootPllLock
  generalize s.at t = u at *
  exact if_neg (by simp [hr, hb])

theorem rootPllLock_running {s : State} {t : Tick} (slotA slotB : Option (List Byte)) (hr : (s.at t).clk.run = true) :
    exec (.rootPllLock t slotA slotB) s = .next (s.at t) := by
  change execRootPllLock t slotA slotB s = _
  unfold execRootPllLock
  exact if_pos (by simp [hr])

theorem por_next {s : State} {t : Tick} (h : (s.at t).fb Reg.LDG_STATUS 1 = false) :
    exec (.por t) s = .next (s.at t).por := by
  change execPor t s = _
  unfold execPor
  exact if_neg (by simp [h])

theorem crst_next (s : State) (t : Tick) : exec (.crst t) s = .next (s.at t).crst := rfl

theorem aged_kept (s : State) : ((s.incSat Reg.JCT_AGE_SAT 15 0).raise srcJCT 0).f Reg.JCT_AGE_SAT 15 0 =
      min 65535 (s.f Reg.JCT_AGE_SAT 15 0 + 1) ∧
    ((s.incSat Reg.JCT_AGE_SAT 15 0).raise srcJCT 0).sbx.raised =
      s.sbx.raised ++ [{ src := srcJCT, ev := 0, ts := s.now }] :=
  ⟨(f_incSat_self s _ (by omega) (by omega) _).trans (satAdd_min _), rfl⟩

/-- Settles O21: the clocks are moved by the time of a command alone, which the frame of the clocks gives; each command
is then one equation. -/
theorem timeResetsAndJunction : Obligations.TimeResetsAndJunction := by
  refine ⟨fun s t => ⟨fun hr he => at_tb_of_run hr he t, fun hr => at_clk_of_not_run hr t,
    fun hp hr he => ⟨_, step_of_nil hp, idle_tb_of_run hr he⟩⟩, fun s t ini w => ?_, fun s t slotA slotB => ?_,
    fun s t => ?_⟩
  · refine ⟨fun hg hon => ⟨_, clkTbLoRead_next hg hon, tbRead_kept _ _ _⟩, sysProfileWrite_free, sysProfileWrite_fixed,
      fun h => ?_, fun h => ?_⟩
    · rw [unlock_next, if_pos h]
    · rw [unlock_next, h, if_neg (by decide)]
  · refine ⟨fun h => ?_, ⟨_, crst_next s t, crst_wiped _⟩, rootPllLock_starts slotA slotB, rootPllLock_running slotA slotB⟩
    exact ⟨_, por_next h, por_wiped _⟩
  · refine ⟨fun h1 hd ha => ⟨_, swapped_of_no_request h1 hd ha, swapped_kept _⟩, slotTableSwap_early,
      fun h => ⟨_, beAgeSaturate_next h, aged_kept _⟩⟩

end Sys2Proof.Machine
end
